-- ==== Sys2Proof/Word.lean ====
section
/-!
DEFINITION. The words of the KM7310: 32-bit words, bytes, and byte strings (R5, R6).
-/
namespace Sys2Proof

/-- A 32-bit word. -/
abbrev Word := BitVec 32

/-- A byte. -/
abbrev Byte := BitVec 8

/-- A byte string, first byte first. -/
abbrev Bytes := List (BitVec 8)

end Sys2Proof
end

