-- ==== Sys2Proof/Syntax.lean ====
section
/-!
DEFINITION. The commands the KM7310 takes: one constructor per row of spec/opcode_table.json, with the
operands that the rule of the row says come from outside (the master that makes an access, the word it
writes, what is received on the air or on a line, what a sensor reads). The table gives no operand
fields; the choice of operands is log entry 13. An operand with a default says what else can happen beside
the plain event; its default is that nothing does.
-/
namespace Sys2Proof

/-- The six master ports of the interconnect (R18). -/
inductive Master where
  | peat | sedge | host | mover | sequencer | causeway
  deriving DecidableEq, Repr

/-- Privilege of an access by a core (R9, R480). -/
inductive Privilege where
  | machine | user
  deriving DecidableEq, Repr

/-- The two Causeway ports (R440). -/
inductive Port where
  | up | dn
  deriving DecidableEq, Repr

/-- The field readings of LOCATE and MEASURE (R135, R136), in units of 0.01 mA/m, before holding. -/
structure Axes where
  x : Int
  y : Int
  z : Int
  noise : Int
  deriving DecidableEq, Repr

/-- What the LF receiver hears (R127, R135, R137). -/
inductive LfReply where
  /-- a Manchester violation -/
  | collision
  /-- the bytes after the preamble, CRC-8 last -/
  | frame (bytes : Bytes)
  /-- the position tone -/
  | tone (a : Axes)
  deriving DecidableEq, Repr

/-- What the LF block measures at the start of an exchange: VDRV idle and at cycle 64 in mV (R141, R142),
junction temperature in degrees C (R140), and the drivers found open or shorted (R120). -/
structure LfConditions where
  vdrvIdle : Nat
  vdrvAt64 : Nat
  temp : Int
  opens : Nat
  shorts : Nat
  deriving DecidableEq, Repr

/-- The amplitude and phase of one detuning ping (R161, R162). -/
structure Ping where
  amp : Nat
  phase : Int
  deriving DecidableEq, Repr

/-- A Type A card on the aerial (R158). -/
structure CardA where
  uid : Bytes
  atqa : BitVec 16
  sak : Byte
  ats : Bytes
  deriving DecidableEq, Repr

/-- One slot of a REQB or WUPB round (R160). -/
inductive SlotB where
  | silent
  | garbled
  | clean (pupi : Bytes) (atqb : Bytes) (param : Byte)
  deriving DecidableEq, Repr

/-- What the NFC reader hears (R157 to R160). -/
inductive NfcReply where
  /-- the cards that answer REQA or WUPA -/
  | cardsA (cards : List CardA)
  /-- the slots of successive rounds, each with twice the slots of the one before -/
  | roundsB (rounds : List (List SlotB))
  /-- R(ACK) to a block of a chained command -/
  | ack
  /-- one block of a chained answer to EXCHANGE that is not its last -/
  | part (bytes : Bytes)
  /-- the answer to RAW, or the rest of the answer to EXCHANGE with the number of I-blocks that carried it -/
  | data (bytes : Bytes) (blocks : Nat)
  /-- an answer whose CRC or parity is wrong -/
  | garbled
  /-- S(WTX) with its WTXM, and the time since the end of the command frame in ms -/
  | wtx (ms wtxm : Nat)
  /-- S(DESELECT) -/
  | deselected
  deriving DecidableEq, Repr

/-- What one receive chain measures of a frame: the time of its strongest STS tap in TS steps, the powers of its taps of
1.0016 ns from the strongest one back in time, and the phase of its first path in units of 2π/65536 (R222, R225). -/
structure ChainPath where
  peak : Nat
  taps : List Nat
  phase : Int
  deriving DecidableEq, Repr

/-- What the radio measures of a phone frame: chains 0 to 3, and the time of the preamble's first path (R222, R223). -/
structure FirstPath where
  chains : List ChainPath
  pre : Nat
  deriving DecidableEq, Repr

/-- What a lockout is charged to: a class of R266's table or an enrolled entry. -/
inductive LockTarget where
  | cls (c : Nat)
  | entry (n : Nat)
  deriving DecidableEq, Repr

/-- The commands: one constructor per row of the table of operations and events. Those with operands stand first, as Lean's
runtime gives data only to the first 244 constructors of a type; each part is in the table's order. -/
inductive Instr where
  /-- START (R57). -/
  | start (bootSel : BitVec 2) (cwyHead : Bool)
  /-- ROOT_ATTEMPT (R286). -/
  | rootAttempt (array : Bytes)
  /-- LINE_ACTIVITY_WAKE (R443). -/
  | lineActivityWake (p : Port)
  /-- STAGE_ENTRY (R48). -/
  | stageEntry (n : Nat)
  /-- HERON_POLL (R50). -/
  | heronPoll (lf : Option LfReply) (ping : Ping) (ext : Bool) (opens shorts : Nat := 0)
  /-- ACTIVITY (R47). -/
  | activity (m : Master)
  /-- ENTER_DS (R52). -/
  | enterDs (m : Master)
  /-- SLEEP (R54). -/
  | sleep (m : Master)
  /-- KICK (R73). -/
  | kick (m : Master)
  /-- DEBUG_CHALLENGE (R96). -/
  | debugChallenge (jtag : Bool)
  /-- DEBUG_TOKEN (R97). -/
  | debugToken (token : Bytes)
  /-- ECALL_HASH (R90). -/
  | ecallHash (msg : Bytes)
  /-- ECALL_RANDOM_WORDS (R90). -/
  | ecallRandomWords (count : Nat)
  /-- ECALL_OWN_COUNTERS (R90). -/
  | ecallOwnCounters (which : Nat) (advance : Bool)
  /-- ECALL_KEY_STORE (R90). -/
  | ecallKeyStore (slot : Nat)
  /-- ECALL_REPLY (R90). -/
  | ecallReply (a0 a1 a2 a3 : Word)
  /-- CHANNEL_START (R101). -/
  | channelStart (m : Master) (ch : Nat)
  /-- CHANNEL_STOP (R100). -/
  | channelStop (m : Master) (ch : Nat)
  /-- CHANNEL_ABORT (R100). -/
  | channelAbort (m : Master) (ch : Nat)
  /-- CHANNEL_IDLE (R100). -/
  | channelIdle (ch : Nat)
  /-- IDLE_TIMEOUT (R112). -/
  | idleTimeout (ss : Nat)
  /-- OFFER_TIMEOUT (R112). -/
  | offerTimeout (ss : Nat)
  /-- SESSION_FREE (R112). -/
  | sessionFree (ss : Nat)
  /-- LF_WAKE (R126). -/
  | lfWake (ch : Nat)
  /-- LF_AUTH (R130). -/
  | lfAuth (ch : Nat)
  /-- LF_LOCATE (R135). -/
  | lfLocate (ch : Nat)
  /-- LF_TUNE (R143). -/
  | lfTune (ch : Nat)
  /-- LF_MEASURE (R136). -/
  | lfMeasure (ch : Nat)
  /-- LF_EXCHANGE_START (R144). -/
  | lfExchangeStart (obs : LfConditions)
  /-- LF_ANSWER (R127). -/
  | lfAnswer (reply : LfReply)
  /-- LF_CARRIER_WRITE (R123). -/
  | lfCarrierWrite (m : Master) (v : Word)
  /-- FIELD_ON (R155). -/
  | fieldOn (ch : Nat) (ext : Bool)
  /-- FIELD_OFF (R155). -/
  | fieldOff (ch : Nat)
  /-- ACTIVATE_A (R158). -/
  | activateA (ch : Nat) (ext : Bool)
  /-- ACTIVATE_B (R160). -/
  | activateB (ch : Nat) (ext : Bool)
  /-- EXCHANGE (R157). -/
  | exchange (ch : Nat)
  /-- RAW (R157). -/
  | raw (ch : Nat) (ext : Bool)
  /-- DESELECT (R155). -/
  | deselect (ch : Nat)
  /-- DETECT (R162). -/
  | detect (ch : Nat) (ext : Bool) (ping : Ping)
  /-- NFC_CARD_ANSWER (R157). -/
  | nfcCardAnswer (reply : NfcReply)
  /-- TAG_ANTICOLLISION (R165). -/
  | tagAnticollision (bits : Nat) (uid : Bytes)
  /-- TAG_SELECT (R164). -/
  | tagSelect (uid : Bytes)
  /-- TAG_PPS (R164). -/
  | tagPps (dri dsi : Nat)
  /-- SELECT_OTHER (R167). -/
  | selectOther (apdu : Bytes)
  /-- FORWARDED_APDU (R167). -/
  | forwardedApdu (apdu : Bytes)
  /-- ISLAND_AUTH (R171). -/
  | islandAuth (tid np macP : Bytes) (waited30s : Bool)
  /-- READ_RECORD (R170). -/
  | readRecord (p1 p2 : Nat)
  /-- UPDATE_RECORD (R179). -/
  | updateRecord (p1 p2 : Nat) (data : Bytes) (vharvMv : Nat)
  /-- ISLAND_STATUS (R170). -/
  | islandStatus (vstoreMv : Nat)
  /-- UNKNOWN_APDU (R170). -/
  | unknownApdu (cla ins : Nat)
  /-- PULSE_END (R173). -/
  | pulseEnd (reserveOk : Bool)
  /-- TAG_ISACK (R172). -/
  | tagIsack (m : Master) (v : Word)
  /-- HOST_RECORD_READ (R180). -/
  | hostRecordRead (m : Master) (v : Word)
  /-- HOST_RECORD_WRITE (R180). -/
  | hostRecordWrite (m : Master) (v : Word)
  /-- FIELD_WRITE_END (R180). -/
  | fieldWriteEnd (vharvMv : Nat := 3300)
  /-- UWB_TX (R192). -/
  | uwbTx (ch : Nat)
  /-- UWB_RX (R194). -/
  | uwbRx (ch : Nat)
  /-- UWB_SLEEP (R205). -/
  | uwbSleep (ch : Nat)
  /-- UWB_STANDBY (R205). -/
  | uwbStandby (ch : Nat)
  /-- UWB_SYNTH (R205). -/
  | uwbSynth (ch : Nat)
  /-- UWB_CAL (R201). -/
  | uwbCal (ch : Nat)
  /-- UWB_TUNE (R202). -/
  | uwbTune (ch : Nat)
  /-- UWB_WALK_START (R191). -/
  | uwbWalkStart (temp : Int) (vdd12 : Nat)
  /-- UWB_TRANSITION_DONE (R186). -/
  | uwbTransitionDone (temp : Int) (vdd12 : Nat) (meas : List Nat)
  /-- UWB_ARM_POINT (R192). -/
  | uwbArmPoint (returnLoss : Nat)
  /-- UWB_TX_DONE (R206). -/
  | uwbTxDone (ts : Nat)
  /-- UWB_FRAME_RECEIVED (R194). -/
  | uwbFrameReceived (ts : Nat) (payload : Bytes) (fcsOk : Bool)
  /-- UWB_WINDOW_CLOSE (R194). -/
  | uwbWindowClose (preamble : Bool := false)
  /-- STATUS_UPDATE (R257). -/
  | statusUpdate (flashOk : Bool := true)
  /-- VBAT_RISE (R43). -/
  | vbatRise (lost : Bool := false)
  /-- BACKGROUND_RECAL (R200). -/
  | backgroundRecal (kind : Nat) (port : Nat) (temp : Int) (vdd12 : Nat) (meas : List Nat)
  /-- LIVE_CLEAR (R200). -/
  | liveClear (m : Master)
  /-- RESP_RECEIVED (R219). -/
  | respReceived (fp : FirstPath)
  /-- REPORT_RECEIVED (R221). -/
  | reportReceived (fp : FirstPath) (payload : Bytes)
  /-- NEXT (R228). -/
  | next (m : Master)
  /-- FUSED_REQUEST (R235). -/
  | fusedRequest (m : Master) (v : Word)
  /-- MAP_SET (R213). -/
  | mapSet (m : Master) (v : Word)
  /-- MAP_CLR (R213). -/
  | mapClr (m : Master) (v : Word)
  /-- MAPQ_GO (R254). -/
  | mapqGo (m : Master) (v : Word)
  /-- LOCK_END (R267). -/
  | lockEnd (target : LockTarget)
  /-- REL_GO (R279). -/
  | relGo (m : Master)
  /-- REL_STOP (R280). -/
  | relStop (m : Master)
  /-- GENERATE (R299). -/
  | generate (m : Master)
  /-- UNWRAP (R295). -/
  | unwrap (m : Master)
  /-- DERIVE (R296). -/
  | derive (m : Master)
  /-- KST_COPY (R295). -/
  | kstCopy (m : Master)
  /-- LOAD_ENTRY (R301). -/
  | loadEntry (m : Master)
  /-- STORE_ENTRY (R301). -/
  | storeEntry (m : Master)
  /-- ERASE (R306). -/
  | erase (m : Master)
  /-- CNT_INC (R303). -/
  | cntInc (m : Master)
  /-- CNT_SET (R303). -/
  | cntSet (m : Master)
  /-- ROOT_ENROL (R288). -/
  | rootEnrol (m : Master) (array : Bytes)
  /-- EPOCH_ADV (R289). -/
  | epochAdv (m : Master)
  /-- POOL_COMPLETE (R309). -/
  | poolComplete (raw : Bytes)
  /-- HEALTH_FAILURE (R312). -/
  | healthFailure (sources : Nat) (rct apt : Bool)
  /-- RESTART (R322). -/
  | restart (m : Master)
  /-- PORTREQ_GO (R319). -/
  | portreqGo (m : Master) (v : Word)
  /-- TRNG_OUT_READ (R319). -/
  | trngOutRead (m : Master)
  /-- RESEED_DUE (R320). -/
  | reseedDue (engine : Nat)
  /-- GENERATOR_STOPPED (R321). -/
  | generatorStopped (engine : Nat)
  /-- AES_JOB_COMPLETION (R345). -/
  | aesJobCompletion (mismatch : Bool)
  /-- BN_JOB_COMPLETION (R369). -/
  | bnJobCompletion (mismatch : Bool)
  /-- HSH_JOB_COMPLETION (R389). -/
  | hshJobCompletion (mismatch : Bool)
  /-- PUSH_TAG (R396). -/
  | pushTag (m : Master) (q lane : Nat) (tag : Word)
  /-- PUSH_DATA (R395). -/
  | pushData (m : Master) (q lane : Nat) (v : Word)
  /-- PUSH_EMPTY (R401). -/
  | pushEmpty (m : Master) (q lane : Nat) (tag : Word)
  /-- CANCEL (R397). -/
  | cancel (m : Master) (q lane : Nat)
  /-- POP (R400). -/
  | pop (m : Master) (q lane : Nat)
  /-- FLUSH (R405). -/
  | flush (m : Master) (mask : Word)
  /-- PFLUSH (R405). -/
  | pflush (m : Master) (mask : Word)
  /-- MOVER_GO (R409). -/
  | moverGo (m : Master) (ch : Nat)
  /-- MOVER_STOP (R410). -/
  | moverStop (m : Master) (ch : Nat)
  /-- ARMED_DESCRIPTOR_START (R409). -/
  | armedDescriptorStart (ch : Nat)
  /-- DESCRIPTOR_DONE (R410). -/
  | descriptorDone (ch : Nat)
  /-- TIMER_WRAP (R415). -/
  | timerWrap (n : Nat)
  /-- COMPARE (R415). -/
  | compare (n c : Nat)
  /-- TIMER_STEP (R420). -/
  | timerStep (n : Nat)
  /-- GPIO1_EDGE (R419). -/
  | gpio1Edge (rising : Bool)
  /-- CMP_WRITE (R416). -/
  | cmpWrite (m : Master) (n c : Nat) (v : Word)
  /-- PERIOD_WRITE (R418). -/
  | periodWrite (m : Master) (n : Nat) (v : Word)
  /-- SEQUENCE_GO (R424). -/
  | sequenceGo (m : Master) (seqs : Nat)
  /-- MON_ABORT (R427). -/
  | monAbort (m : Master)
  /-- CONVERSION_SLOT_END (R425). -/
  | conversionSlotEnd (code : Nat)
  /-- HOST_READ (R435). -/
  | hostRead (mosi : Bytes)
  /-- HOST_WRITE (R435). -/
  | hostWrite (mosi : Bytes)
  /-- HOST_STATUS (R431). -/
  | hostStatus (cmd : Byte)
  /-- RECDATA_WRITE (R439). -/
  | recdataWrite (v : Word)
  /-- PORT_UP (R442). -/
  | portUp (p : Port)
  /-- LINK_LOSS (R442). -/
  | linkLoss (p : Port)
  /-- RETRANSMISSION_TIMEOUT (R445). -/
  | retransmissionTimeout (p : Port)
  /-- FRAME_ARRIVAL (R446). -/
  | frameArrival (p : Port) (symbolsOk : Bool) (frame : Bytes)
  /-- ACK (R445). -/
  | ack (p : Port) (seq : Byte)
  /-- NAK (R445). -/
  | nak (p : Port) (seq : Byte)
  /-- PCMD_KEY (R457). -/
  | pcmdKey (m : Master) (v : Word)
  /-- PCMD_CLOSE (R457). -/
  | pcmdClose (m : Master) (v : Word)
  /-- PCMD_SWITCH (R456). -/
  | pcmdSwitch (m : Master) (v : Word)
  /-- PRX_NEW_CLEAR (R457). -/
  | prxNewClear (m : Master)
  /-- TT_EXCHANGE (R459). -/
  | ttExchange (t1 : Nat)
  /-- MARK (R459). -/
  | mark (p : Port) (t sent : Nat)
  /-- TT_FIT (R459). -/
  | ttFit (link uncPs : Nat)
  /-- ALARM (R466). -/
  | alarm (sources detail : Nat)
  /-- OFFLINE_ALARM (R467). -/
  | offlineAlarm (sources detail : Nat)
  /-- MEMORY_DOUBLE_BIT_ERROR (R470). -/
  | memoryDoubleBitError (mem place : Nat) (reader : Master)
  /-- MONITOR_WINDOW_END (R481). -/
  | monitorWindowEnd (n : Nat)
  /-- SEL_WRITE (R476). -/
  | selWrite (m : Master) (b k : Nat) (v : Word)
  /-- GOVERNOR_READING (R492). -/
  | governorReading (tj : Int)
  /-- REGISTER_WRITE (R9). -/
  | registerWrite (m : Master) (priv : Privilege) (addr : Nat) (v : Word)
  /-- RL_LOW_READ (R12). -/
  | rlLowRead (m : Master) (addr : Nat)
  /-- TIMER_TICK (R414). -/
  | timerTick (n : Nat)
  /-- LINE_LOCK (R442). -/
  | lineLock (p : Port)
  /-- SINGLE_BIT_ERROR (R470). -/
  | singleBitError (mem : Nat)
  /-- LF_EXCHANGE_END (R129). -/
  | lfExchangeEnd (tones : Axes) (peaks : List (List Nat))
  /-- UWB_CONDS_SAMPLE (R196). -/
  | uwbCondsSample (temp : Int) (vdd12 : Nat)
  /-- TX_BUDGET_REFILL (R204). -/
  | txBudgetRefill (returnLoss : Nat)
  /-- FAILURE_WINDOW_EXPIRY (R267). -/
  | failureWindowExpiry (target : LockTarget)
  /-- CHARGE_EVENT (R43). -/
  | chargeEvent
  /-- VBAT_LOW (R42). -/
  | vbatLow
  /-- VDRV_LOW (R41). -/
  | vdrvLow
  /-- BROWN_OUT (R40). -/
  | brownOut
  /-- RESET_N (R44). -/
  | resetN
  /-- SUPPLY_TIMEOUT (R39). -/
  | supplyTimeout
  /-- REG_EN_RETRY (R39). -/
  | regEnRetry
  /-- XO_TIMEOUT (R67). -/
  | xoTimeout
  /-- WAKE_IN (R22). -/
  | wakeIn
  /-- HOST_CS_WAKE (R34). -/
  | hostCsWake
  /-- RC_TIMER_WAKE (R53). -/
  | rcTimerWake
  /-- IDLE_MS_EXPIRY (R54). -/
  | idleMsExpiry
  /-- SEDGE_RELOAD_DONE (R58). -/
  | sedgeReloadDone
  /-- SEDGE_WATCHDOG_EXPIRY (R73). -/
  | sedgeWatchdogExpiry
  /-- PEAT_WATCHDOG_EXPIRY (R74). -/
  | peatWatchdogExpiry
  /-- PEAT_EXCEPTION (R74). -/
  | peatException
  /-- SESSION_OPEN (R110). -/
  | sessionOpen
  /-- SESSION_CLOSE (R112). -/
  | sessionClose
  /-- KEY_AGREE (R116). -/
  | keyAgree
  /-- CRED_CHECK (R246). -/
  | credCheck
  /-- RECORD (R262). -/
  | record
  /-- BY_TOKEN (R263). -/
  | byToken
  /-- PHONE (R264). -/
  | phone
  /-- BIND (R265). -/
  | bind
  /-- UNLOCK_REQ (R272). -/
  | unlockReq
  /-- START_REQ (R274). -/
  | startReq
  /-- START_DEADLINE (R274). -/
  | startDeadline
  /-- KEY_GEN (R298). -/
  | keyGen
  /-- KEY_IMPORT (R300). -/
  | keyImport
  /-- ATTEST (R304). -/
  | attest
  /-- CFG_REPLACE (R64). -/
  | cfgReplace
  /-- REPLACEMENT_COMMIT (R65). -/
  | replacementCommit
  /-- DRAIN_TIMEOUT (R65). -/
  | drainTimeout
  /-- IMAGE_STAGE (R83). -/
  | imageStage
  /-- IMAGE_ACTIVATE (R83). -/
  | imageActivate
  /-- PEAT_SWAP (R84). -/
  | peatSwap
  /-- SWAP_TIMEOUT (R84). -/
  | swapTimeout
  /-- IMAGE_CONFIRM (R82). -/
  | imageConfirm
  /-- LCS_TRANSITION (R91). -/
  | lcsTransition
  /-- NONCE_EXPIRY (R96). -/
  | nonceExpiry
  /-- DEBUG_PASSWORD (R98). -/
  | debugPassword
  /-- PWD_LOCK_EXPIRY (R98). -/
  | pwdLockExpiry
  /-- COUNTER_READ (R303). -/
  | counterRead
  /-- PERF_GRANT_QUERY (R483). -/
  | perfGrantQuery
  /-- ECHO (R79). -/
  | echo
  /-- APPLET_CALL (R87). -/
  | appletCall
  /-- ECALL_SESSION_SLOT (R90). -/
  | ecallSessionSlot
  /-- APPLET_BUDGET_EXPIRY (R86). -/
  | appletBudgetExpiry
  /-- APPLET_ACCESS_FAULT (R86). -/
  | appletAccessFault
  /-- LF_WINDOW_CLOSE (R129). -/
  | lfWindowClose
  /-- GUARD_EXPIRY (R155). -/
  | guardExpiry
  /-- FWT_EXPIRY (R157). -/
  | fwtExpiry
  /-- FIELD_PRESENCE (R168). -/
  | fieldPresence
  /-- ISLAND_READY (R169). -/
  | islandReady
  /-- FIELD_LOSS (R179). -/
  | fieldLoss
  /-- TAG_REQA (R165). -/
  | tagReqa
  /-- TAG_WUPA (R165). -/
  | tagWupa
  /-- TAG_RATS (R164). -/
  | tagRats
  /-- SELECT_ISLAND (R169). -/
  | selectIsland
  /-- FORWARD_ANSWER (R167). -/
  | forwardAnswer
  /-- FORWARD_TIMEOUT (R167). -/
  | forwardTimeout
  /-- WTX_FWT_EXPIRY (R166). -/
  | wtxFwtExpiry
  /-- UNLOCK (R172). -/
  | unlock
  /-- VSTORE_CHARGED (R173). -/
  | vstoreCharged
  /-- VSTORE_TIMEOUT (R173). -/
  | vstoreTimeout
  /-- ISACK_TIMEOUT (R181). -/
  | isackTimeout
  /-- ISLAND_DECISION (R276). -/
  | islandDecision
  /-- ISLAND_GLITCH (R466). -/
  | islandGlitch
  /-- LOCK_LOST (R196). -/
  | lockLost
  /-- HOLD_EXPIRY (R187). -/
  | holdExpiry
  /-- SLEEP_AFTER_EXPIRY (R187). -/
  | sleepAfterExpiry
  /-- ROUND_START (R229). -/
  | roundStart
  /-- PLAN (R230). -/
  | plan
  /-- PLAN_DEADLINE (R230). -/
  | planDeadline
  /-- SLOT_PLACEMENT (R231). -/
  | slotPlacement
  /-- SLOT_END (R226). -/
  | slotEnd
  /-- REMOTE_VERDICT (R227). -/
  | remoteVerdict
  /-- FUSED_ROUND_START (R235). -/
  | fusedRoundStart
  /-- ARRIVAL_TIMES (R236). -/
  | arrivalTimes
  /-- FUSION_TIMEOUT (R236). -/
  | fusionTimeout
  /-- WAVEFORM_END (R279). -/
  | waveformEnd
  /-- PIN_MISMATCH (R280). -/
  | pinMismatch
  /-- SETTLING_END (R314). -/
  | settlingEnd
  /-- STARTUP_TESTS_PASSED (R314). -/
  | startupTestsPassed
  /-- AES_XTS (R333). -/
  | aesXts
  /-- AES_GCM (R332). -/
  | aesGcm
  /-- AES_CCM (R332). -/
  | aesCcm
  /-- AES_CMAC (R332). -/
  | aesCmac
  /-- AES_KW (R332). -/
  | aesKw
  /-- AES_REC (R336). -/
  | aesRec
  /-- AES_ECB_DERIVE (R338). -/
  | aesEcbDerive
  /-- MOD_ADD (R356). -/
  | modAdd
  /-- MOD_SUB (R356). -/
  | modSub
  /-- MOD_MUL (R356). -/
  | modMul
  /-- MONT_SETUP (R356). -/
  | montSetup
  /-- MOD_EXP (R356). -/
  | modExp
  /-- MOD_INV (R360). -/
  | modInv
  /-- MOD_RED (R356). -/
  | modRed
  /-- COPY (R356). -/
  | copy
  /-- COPY_REV (R356). -/
  | copyRev
  /-- CLEAR (R366). -/
  | clear
  /-- P256_MUL (R357). -/
  | p256Mul
  /-- P256_MULG (R357). -/
  | p256Mulg
  /-- P256_CHECK (R361). -/
  | p256Check
  /-- P256_SIGN (R357). -/
  | p256Sign
  /-- P256_VERIFY (R357). -/
  | p256Verify
  /-- P384_MUL (R357). -/
  | p384Mul
  /-- P384_MULG (R357). -/
  | p384Mulg
  /-- P384_CHECK (R361). -/
  | p384Check
  /-- P384_SIGN (R357). -/
  | p384Sign
  /-- P384_VERIFY (R357). -/
  | p384Verify
  /-- X25519 (R362). -/
  | x25519
  /-- X25519_BASE (R362). -/
  | x25519Base
  /-- ED25519_VERIFY (R357). -/
  | ed25519Verify
  /-- NTT (R358). -/
  | ntt
  /-- INTT (R358). -/
  | intt
  /-- BASEMUL (R358). -/
  | basemul
  /-- PADD (R358). -/
  | padd
  /-- PSUB (R358). -/
  | psub
  /-- KEM_KEYGEN (R358). -/
  | kemKeygen
  /-- KEM_ENCAPS (R358). -/
  | kemEncaps
  /-- KEM_DECAPS (R358). -/
  | kemDecaps
  /-- BN_YIELD_POINT (R363). -/
  | bnYieldPoint
  /-- SHA3_256 (R371). -/
  | sha3256
  /-- SHA3_512 (R371). -/
  | sha3512
  /-- SHAKE128 (R371). -/
  | shake128
  /-- SHAKE256 (R371). -/
  | shake256
  /-- KMAC256 (R376). -/
  | kmac256
  /-- XMSS_VERIFY (R383). -/
  | xmssVerify
  /-- XMSS_SIGN (R386). -/
  | xmssSign
  /-- XMSS_KEYGEN (R387). -/
  | xmssKeygen
  /-- WRITE_BUFFER_APPLY (R435). -/
  | writeBufferApply
  /-- RECOVERY_TIMEOUT (R439). -/
  | recoveryTimeout
  /-- ENUM (R452). -/
  | enum
  /-- ENUM_ACK (R452). -/
  | enumAck
  /-- ROSTER (R452). -/
  | roster
  /-- ALIGNED (R452). -/
  | aligned
  /-- LOST (R454). -/
  | lost
  /-- JOIN (R455). -/
  | join
  /-- ENUM_GO (R455). -/
  | enumGo
  /-- DATA_FRAME_RECEIVED (R458). -/
  | dataFrameReceived
  /-- KEY_FRAME_RECEIVED (R457). -/
  | keyFrameReceived
  /-- CLOSE_FRAME_RECEIVED (R457). -/
  | closeFrameReceived
  /-- SWITCH_RECEIVED (R456). -/
  | switchReceived
  /-- RECEIPT (R457). -/
  | receipt
  /-- RECEIPT_TIMEOUT (R457). -/
  | receiptTimeout
  /-- ACTIVITY_NOTICE (R47). -/
  | activityNotice
  /-- CHAIN_WAKE_NOTICE (R22). -/
  | chainWakeNotice
  /-- IDLE_NOTICE (R54). -/
  | idleNotice
  /-- BUSY_NOTICE (R54). -/
  | busyNotice
  /-- SLEEP_NOTICE (R54). -/
  | sleepNotice
  /-- TIME_UPDATE (R459). -/
  | timeUpdate
  /-- SNAPSHOT (R484). -/
  | snapshot
  /-- VDRV_RISE (R41). -/
  | vdrvRise
  /-- ALIGN_EXPIRY (R234). -/
  | alignExpiry
  /-- BY_TOKEN_TIMEOUT (R263). -/
  | byTokenTimeout
  /-- HCMD_DONE (R180). -/
  | hcmdDone
  deriving DecidableEq, Repr

end Sys2Proof
end

