-- ==== Sys2Proof/Config.lean ====
section
/-!
DEFINITION. What an implementation fixes and the spec leaves open: constants with no body, so that nothing can
be proved of their values (log entries 7, 10, 17, 52 and 62).
-/
namespace Sys2Proof
namespace Config

/-- A value the spec leaves open; the argument is the state's free-value counter (log entry 7). -/
opaque freeWord : Nat → BitVec 32

/-- A byte of conditioned output, or any other byte the spec leaves open (log entries 7 and 9). -/
opaque freeByte : Nat → BitVec 8

/-- The unit's 16-byte device identifier (R96, R261, R300). -/
opaque deviceId : BitVec 128

/-- Size in bytes of the serial flash as its SFDP gives it (R69). -/
opaque sfdpSize : Nat

/-- The standing interval as the AON timer measures it, for a true interval in XO cycles and the state's
free-value counter (R45, R413): accurate to 2 %, 25 % before the first calibration. -/
opaque aonEstimate : Nat → Nat → Nat

/-- The array's start-up bits corrected with the helper data, under a code that the spec does not give (R285). -/
opaque rootCorrect : List (BitVec 8) → List (BitVec 8) → List (BitVec 8)

/-- The helper data that ROOT_ENROL makes of the array's bits (R285, R288). -/
opaque rootHelper : List (BitVec 8) → List (BitVec 8)

/-- Cycles of a block's functional clock in an XO cycle, for a block to which the spec gives no clock domain whose frequency
is a multiple of XO's (R23, R477): the block, and the model's time. -/
opaque blockCycles : Nat → Nat → Nat

/-- Bytes of the handoff state of a Peat swap, which the spec does not state (R84). -/
opaque handoffSize : Nat

/-- Bytes of a packet in which an image body or a section is digested as it streams from flash, which the spec does not state
(R384). -/
opaque digestPacket : Nat

/-- Steps of a whole UWB frame of a profile and a payload: the spec gives SYNC, SFD and STS, not the rest (R182). -/
opaque uwbFrame : BitVec 32 → Nat → Nat

/-- Chips of the SYNC and SFD of an HPRF frame of a profile, which the spec does not state (R182, R191). -/
opaque uwbShrHprf : BitVec 32 → Nat

/-- SYS cycles of a long-integer job of an OP and NW up to a step boundary, where the spec does not state the split
(R355). -/
opaque bnElapsed : Nat → Nat → Nat → Nat

end Config
end Sys2Proof
end

