-- ==== Sys2Proof/Machine/State.lean ====
section
/-!
DEFINITION. The state of one KM7310: everything the spec gives the device, as plain data, and the queue of
commands that wait. Block registers are held in one sparse table keyed by their full address (R7, R29); what has
no register is held in typed fields. Sparse tables list no entry that equals what an unlisted key reads as.
-/
namespace Sys2Proof
namespace Machine

/-- A sparse table: keys strictly rising, no entry equal to the default. -/
abbrev Tab (α : Type) := List (Nat × α)

/-! ### Queues (R391 to R405) -/

/-- One 64-bit item: its tag word and its payload (R398), and whether it was pushed tag-only (R401). -/
structure Item where
  tag : Word
  data : Word
  tagOnly : Bool
  deriving DecidableEq, Repr

/-- A packet, open or committed (R396). `bad`: its packet check will fail (R471); `ecc`: the index of an item with a double-bit
error (R407); `doomed`: an item was discarded at a full queue, so the packet is rewound at its end (R399). `gone`: a job that
waits in Q10 and names a session which has closed since (R112). `no`: its place in the order of all commits (R121). -/
structure Packet where
  items : List Item
  seq : BitVec 16
  prio : Nat
  src : Nat
  bad : Bool
  ecc : Option Nat
  doomed : Bool
  gone : Bool
  no : Nat
  deriving DecidableEq, Repr

/-- One lane of a queue. Lane n is lane 0 of queue n; lanes 30 and 31 are the reply lanes of Q14 and Q15. -/
structure Lane where
  /-- committed packets, in commit order -/
  committed : List Packet
  /-- the rest of the packet that is half read -/
  half : Option Packet
  /-- open packets, by writer -/
  opens : Tab Packet
  /-- staged payloads, by writer -/
  staged : Tab Word
  seq : BitVec 16
  deriving DecidableEq, Repr

/-! ### Non-volatile objects -/

/-- An enrolled entry (R258). -/
structure Entry where
  km5200 : Bool
  byToken : Bool
  cls : Nat
  wakeId : BitVec 16
  tid : Word
  rights : Byte
  serial : Nat
  key : Bytes
  deriving DecidableEq, Repr

/-- The failures charged to a class or an entry, as times of `now` in XO cycles, and the end of its lock (R267). -/
structure Lockout where
  fails : List Nat
  lockedUntil : Option Nat
  deriving DecidableEq, Repr

/-- A static key slot (R291, R292, KST_ATTRn). -/
structure Slot where
  cls : Nat
  origin : Nat
  sedge : Bool
  persist : Bool
  use : Byte
  typ : Nat
  key : Bytes
  pub : Bytes
  deriving DecidableEq, Repr

/-- A blob row: the slot's attributes, the epoch and the wrapped key (R290). -/
structure Blob where
  attrs : Slot
  epoch : Word
  wrapped : Bytes
  deriving DecidableEq, Repr

/-- Two blob rows and the selector byte (R290). -/
structure BlobRows where
  row0 : Option Blob
  row1 : Option Blob
  sel : Bool
  deriving DecidableEq, Repr

/-- A status-map sector's record (R253). -/
structure SectorRec where
  version : Word
  copyB : Bool
  cmac : Bytes
  deriving DecidableEq, Repr

/-- An XMSS anchor (R381). -/
structure Anchor where
  pset : Nat
  key : Bytes
  deriving DecidableEq, Repr

/-- The 2 KiB of helper data of the root secret, and the check value (R285, R286). -/
structure Helper where
  data : Bytes
  check : Bytes
  deriving DecidableEq, Repr

/-- The eNVM objects. -/
structure Envm where
  lcs : Nat
  transition : Option Nat
  /-- the state entered by a torn transition whose keys are still to be generated (R57, R91) -/
  entryDue : Option Nat
  arb : Tab Word
  commitRec : Option (Nat × Word)
  /-- how often an unconfirmed image has started, keyed TYPE x 2^32 + VERSION (R81, R82) -/
  trial : Tab Nat
  clocksCopy : Option Bytes
  epoch : Tab Word
  helper : Option Helper
  blobs : Tab BlobRows
  counters : Tab Word
  anchors : Tab Anchor
  xmssKeyed : Bool
  xmssNext : Nat
  xmssLag : Nat
  pubSeed : Bytes
  entries : Tab Entry
  kis : Option Bytes
  islandCfg : Option Bytes
  /-- the chain address that the island answers with while the chain registers have no power (R170; log entry 60) -/
  islandUnit : Nat
  islandLog : List Bytes
  logOverrun : Bool
  islandFails : Nat
  /-- island log record held back until the next presence (R181) -/
  logHeld : Option Bytes
  tussock : Tab Bytes
  tornRecs : List Nat
  sectors : Tab SectorRec
  mapInit : Bool
  /-- serials revoked by the last committed update (R257 step 7) -/
  lastRevoked : List Nat
  tOp : Word
  tOpAt : Nat
  timeUnc : Bool
  /-- an update has set T_OP (R243) -/
  tOpSet : Bool
  pwdFails : Nat
  pwdLockedUntil : Option Nat
  lockCls : Tab Lockout
  lockEnt : Tab Lockout
  applIds : Tab Word
  deriving DecidableEq, Repr

/-! ### Power (R37 to R54) -/

/-- Where the unit stands between deep standby and the resumed state. -/
inductive PowerMode where
  /-- REG_EN low, only the always-on island runs -/
  | deepStandby
  /-- REG_EN high, supplies rising, or the core held in reset -/
  | starting
  /-- resumed: software runs -/
  | resumed
  /-- Heron stages 0 to 3, not resumed -/
  | standing
  deriving DecidableEq, Repr

/-- The always-on island, the supplies and the straps. -/
structure Power where
  mode : PowerMode
  regEn : Bool
  attempts : Nat
  retryWait : Bool
  /-- VBAT has been below 4.0 V since it last rose through 4.5 V (R43) -/
  vbatArmed : Bool
  /-- when it last fell below 4.0 V -/
  vbatAt : Nat
  /-- VBAT was lost since the last start (R243, R268) -/
  timeLost : Bool
  /-- the power section allows no charge events (R68) -/
  chargeOff : Bool
  /-- time of the last activity (R47) -/
  lastActivity : Nat
  /-- the deepest stage whose boundary was reached while resumed, since the last activity (R51) -/
  stageDue : Nat
  /-- time at which the unit last left the resumed state (R413) -/
  leftAt : Nat
  /-- a calibration of the AON oscillator has been made since the cold power-up (R45) -/
  aonCal : Bool
  /-- Sedge has asked for SLEEP (R54) -/
  sleepAsked : Bool
  /-- this unit has sent IDLE and not BUSY since (R54) -/
  idleSent : Bool
  /-- units that have reported IDLE, as a mask of addresses (R54, head) -/
  idleUnits : Nat
  safeState : Bool
  sedgeRuns : Bool
  /-- when the present period of Sedge's watchdog began (R73) -/
  wdtAt : Nat
  /-- BOOT_SEL as sampled (R56) -/
  bootSel : BitVec 2
  strapError : Bool
  cwyHead : Bool
  /-- the start reads from the host, as do the Sedge reloads after it (R439) -/
  recovery : Bool
  /-- what a recovery load has supplied, and the requests it has answered, as offsets and lengths (R439) -/
  recMem : List Host.Cell
  recGot : List (Nat × Nat)
  /-- resumed from stage 3 and Sedge not reloaded yet (R58) -/
  reloading : Bool
  rootTries : Nat
  /-- stage 3 has been entered since the last resume (R49) -/
  lost : Bool
  rootKnown : Bool
  /-- class keys CK by class code (R287) -/
  classKeys : Tab Bytes
  /-- the start-complete event that is still to come: its status, and when it comes at the latest (R57) -/
  startDue : Option (Byte × Nat)
  deriving DecidableEq, Repr

/-- The configuration in use: the slot, its CFG_VERSION, and the bytes of every section, keyed TYPE x 256 + INSTANCE
(R59, R60). -/
structure Cfg where
  active : Bool
  slot : Nat
  version : Word
  sections : Tab Bytes
  /-- front-end classes that take no new command while a replacement drains, and the commands, as lane and SEQ, that they
  may still take (R65, R149) -/
  held : List Nat
  hold : List (Nat × Nat)
  /-- the QSPI write-protection windows that Peat has set: offset and length (R63, R65, R69) -/
  windows : List (Nat × Nat)
  deriving DecidableEq, Repr

/-! ### Peat's firmware state -/

/-- A release decision in progress (R272 to R274): KIND, session and GEN, the zones requested, the subject, the rights word
and the time of the pop. -/
structure Decision where
  kind : Nat
  ses : Nat
  gen : Nat
  zones : Nat
  subject : Word
  rights : Word
  popped : Nat
  deriving DecidableEq, Repr

/-- What Peat waits for while it serves a request (R78). -/
inductive Waiting where
  /-- nothing: the request is being worked on -/
  | now
  | sessionFree (ss : Nat)
  /-- conditioned output (R299), with what the operation has at hand: the session taken, or the statement to sign -/
  | draw (have_ : Bytes)
  | fused (d : Decision)
  | startAuth (d : Decision)
  | byTokenAuth (ss gen cls : Nat) (tid : Word) (rights : Byte)
  | cfgDrain (slot : Nat) (version : Word) (key : Nat) (body : Option Bytes)
  | peatSwap
  /-- an applet's reply to a decision: the instance, whether it is the card applet, and the calls of Q14 ahead of it -/
  | applet (d : Decision) (inst : Nat) (card : Bool) (ahead : Nat)
  deriving DecidableEq, Repr

/-- The request being served: its operation, REQ_ID and argument words, what it waits for, and whether its reply is
discarded (R73). -/
structure Serving where
  op : Nat
  reqId : BitVec 16
  args : List Word
  waiting : Waiting
  discard : Bool
  deriving DecidableEq, Repr

/-- The latest verdict of a (session, unit) pair with the SYSTIME of its read (R273). -/
structure Verdict where
  words : List Word
  stamp : BitVec 64
  deriving DecidableEq, Repr

/-- A resident applet (R89). -/
structure Resident where
  inst : Nat
  base : Nat
  size : Nat
  lastUse : Nat
  deriving DecidableEq, Repr

/-- The applet call that runs (R87): its applet, who called, and a0 after the last ECALL. -/
structure AppletRun where
  inst : Nat
  /-- the Q14 request, or none for a release decision -/
  reqId : Option (BitVec 16)
  chan : Nat
  args : List Word
  lastStatus : Byte
  words : List Word
  /-- its persistent block as it was before the call (R86) -/
  saved : Bytes
  deriving DecidableEq, Repr

/-- An answered OK outcome of AUTH: its SYSTIME, session, GEN, enrolled entry and TID, and whether Peat has logged it as one
of two that came close together (R138). -/
structure AuthOk where
  time : Nat
  ses : Nat
  gen : Nat
  entry : Nat
  tid : Word
  logged : Bool
  deriving DecidableEq, Repr

/-- A GENERATE of the key store that waits for conditioned output: its arguments, and whether they were written meanwhile
(a host mistake). -/
structure KstRun where
  a0 : Word
  a1 : Word
  mixed : Bool
  deriving DecidableEq, Repr

/-- Peat. -/
structure Peat where
  serving : Option Serving
  /-- the key-store command that is running (KST_STATUS BUSY) -/
  kst : Option KstRun
  /-- the GEN that the session of a waiting release request had at its commit, by SEQ in Q15 (R272) -/
  reqGens : List (Nat × Nat)
  lastSession : Nat
  staged : Tab (Nat × Word × Bytes)
  runSlot : Tab Nat
  runVersion : Tab Word
  sedgeDigest : Bytes
  /-- FOOTPRINT of the running Peat image (R88) -/
  peatFoot : Nat
  nonce : Option Bytes
  debugLevel : Nat
  /-- what the JTAG debug mailbox last answered (R96, R97) -/
  jtagOut : Bytes
  /-- an operation of the JTAG debug mailbox that waits for conditioned output: nothing for a challenge, or the state that a
  transition enters -/
  jtagWait : Option Bytes
  verdicts : Tab Verdict
  /-- answered OK outcomes of AUTH in completion order (R138, R263) -/
  authOk : List AuthOk
  /-- the outcome of an AUTH that Peat has not looked at: session, GEN, status, ANSWER (R132) -/
  lastAuth : Option (Nat × Nat × Byte × Bool)
  /-- the outcome that LF_AUTHLAST0 shows is an answered OK (R132, R273) -/
  authSeen : Bool
  residents : List Resident
  applet : Option AppletRun
  appletUse : Nat
  fences : Nat
  /-- K_IS is still to be generated since the start (R291) -/
  kisDue : Bool
  deriving DecidableEq, Repr

/-! ### Sessions (R109 to R116) -/

/-- States of a session. -/
inductive SesState where
  | free | offered | ready | closing
  deriving DecidableEq, Repr

/-- A session with its key-store slot. -/
structure Session where
  st : SesState
  suite : Nat
  gen : BitVec 8
  opener : Nat
  idleTmo : Nat
  offerTmo : Nat
  /-- time of the last use, or of the offer -/
  lastUse : Nat
  /-- the 128-byte session slot (R293) -/
  slot : Bytes
  /-- bound credential: serial, rights, NOT_AFTER -/
  cred : Option (Nat × Word × Word)
  /-- the digest of the offer, then TH once READY (R245) -/
  offerHash : Bytes
  th : Bytes
  xPeer : Bytes
  tx : Word
  rxFloor : Word
  tid : Word
  km5200 : Bool
  entry : Nat
  rn : Nat
  fn : Nat
  hasFused : Bool
  vSeed : Bytes
  vSeedF : Bytes
  deriving DecidableEq, Repr

/-! ### Engines -/

/-- Where a job's output goes when it completes. -/
inductive OutDest where
  | none
  | queue (lane : Nat)
  | static (slot off : Nat)
  | session (ss off : Nat)
  | ranging (ss off : Nat)
  | opmem (word : Nat)
  /-- operand memory past the end of its partition: no byte that it writes is predictable -/
  | lost
  deriving DecidableEq, Repr

/-- A running engine job and its result, computed at its start (R105, R106, R345, R369, R389). -/
structure Run where
  chan : Nat
  prio : Nat
  desc : List Word
  tclass : Nat
  /-- the session its key reference names -/
  keySes : Option Nat
  /-- the session its output goes to -/
  outSes : Option Nat
  status : Byte
  out : Bytes
  dest : OutDest
  /-- operand-memory writes made at the end, (word, value) -/
  stores : List (Nat × Bytes)
  /-- areas of operand memory, (word, words), zeroed by an alarm: outputs and scratch -/
  scratch : List (Nat × Nat)
  mac : Bytes
  rseq : Word
  flags : Byte
  steps : Nat
  cycles : Nat
  index : Word
  /-- sponge to keep in a context (R378) -/
  save : Option (Nat × Bytes × Bytes)
  step : Nat
  /-- items of Q12 that it has reserved (R331) -/
  resv : Nat
  /-- it runs beside a suspended job (R363) -/
  ins : Bool
  deriving DecidableEq, Repr

/-- A sponge context (R378): its channel, FUNC, the bytes absorbed so far and the KMAC key's opening block. -/
structure Sponge where
  chan : Nat
  func : Nat
  pre : Bytes
  msg : Bytes
  deriving DecidableEq, Repr

structure Engines where
  aes : Option Run
  /-- the working key register of the AES engine; cleared is empty (R326) -/
  aesKey : Bytes
  aesLast : Nat
  stsBusy : Bool
  bn : Option Run
  bnLast : Nat
  bnSusp : Option Run
  /-- SEQs in Q10 of jobs whose operands overlap those of a job that ran or waited beside them, or were written while
  they waited -/
  bnMixed : List Nat
  /-- SEQs in Q10 of the jobs that may still start while the engine drains for a replacement (R348) -/
  bnHold : Option (List Nat)
  hsh : Option Run
  hshLast : Nat
  ctx : Tab Sponge
  /-- packets of hardware writers that wait for room, with their lanes, in order (R399) -/
  waiting : List (Nat × Packet)
  /-- AES_RECTX has been read, and AES_RECRX not yet; and AES_RECSEL was written meanwhile (a host mistake of the chapter) -/
  recRead : Bool
  recMixed : Bool
  deriving DecidableEq, Repr

/-! ### Random source -/

/-- Who takes conditioned output beside Peat's port and the mask generators (R317): a key-store command, the LF block, the
request that Peat serves, K_IS at a start, the keys of a state entered by a torn transition, the hash engine's KEYGEN, the
Causeway's nonce on UP and on DN, an applet's call, and the JTAG debug mailbox. The key store draws for all but the first
two. -/
inductive Drawer where
  | keyStore | lf | peat | kis | entry | keygen | nonceUp | nonceDn | applet | jtag
  deriving DecidableEq, Repr

/-- A caller that waits for conditioned output: Peat's port for words, a mask generator for a block, another for so many
bytes, with those it has so far (R316, R317). -/
inductive Caller where
  | port (words : Nat)
  | mask (engine : Nat)
  | draw (who : Drawer) (need : Nat) (got : Bytes)
  deriving DecidableEq, Repr

/-- The continuous tests of one source (R311): its last sample and the run of it; the first sample of the window, the
samples of the window so far, and how many of them equal the first. -/
structure SourceTest where
  last : Nat
  run : Nat
  first : Nat
  seen : Nat
  hits : Nat
  deriving DecidableEq, Repr

structure Trng where
  reqs : List Caller
  out : List Word
  /-- requests that have been served or have failed and whose caller has not gone on yet: the code and the bytes -/
  served : List (Drawer × Byte × Bytes)
  preSeeded : Bool
  /-- the start-up tests have passed since the source was powered (R314) -/
  testsPassed : Bool
  /-- the tests of the eight sources; none has a sample since they last restarted where the list is empty -/
  tests : List SourceTest
  deriving DecidableEq, Repr

/-! ### Front ends -/

/-- An LF command taken from its channel's INQ. -/
structure LfCmd where
  chan : Nat
  w0 : Word
  w1 : Word
  /-- the commit number of its packet -/
  no : Nat
  /-- OK, or the code with which the command completes without an exchange -/
  bad : Byte
  deriving DecidableEq, Repr

/-- The LF exchange in progress. -/
structure LfExch where
  cmd : LfCmd
  aerials : List Nat
  /-- the expected TA of an AUTH, its session and generation -/
  ta : Bytes
  ses : Nat
  gen : BitVec 8
  /-- wake identifiers still to be re-polled, and whether this is a re-poll slot (R137) -/
  repoll : List (BitVec 16)
  slot : Bool
  /-- the re-poll slot has not begun to drive yet -/
  due : Bool
  /-- the token of an AUTH, from its start (R147) -/
  tid : Word
  /-- a register that it uses was written while it ran: its result is unpredictable (the host mistakes of the chapter) -/
  mixed : Bool
  deriving DecidableEq, Repr

structure Lf where
  waiting : List LfCmd
  cur : Option LfExch
  /-- aerials whose TUNE is set by TUNE or a write until the next start (R148) -/
  tuned : Nat
  carrierNext : Option Word
  /-- a poll's result packet, committed once the queues run (R145) -/
  held : Option (List Word)
  /-- the last downlink frame, from its preamble to its CRC (R126) -/
  sent : Bytes
  deriving DecidableEq, Repr

/-- The active ISO-DEP card. -/
structure Card where
  typeB : Bool
  uid : Bytes
  rate : Nat
  /-- FSC, the bytes of a block that the card takes, and the block number of the reader's next I-block (R154) -/
  fsc : Nat
  blk : Bool
  deriving DecidableEq, Repr

/-- The reader command in progress. -/
structure NfcCmd where
  chan : Nat
  w0 : Word
  w1 : Word
  payload : Bytes
  /-- a register that it uses was written while it ran: its result is unpredictable (the host mistakes of the chapter) -/
  mixed : Bool
  deriving DecidableEq, Repr

structure Nfc where
  cur : Option NfcCmd
  card : Option Card
  fieldOn : Bool
  guard : Bool
  baseline : Bool
  /-- the cards that the reader has put into HALT since the field went on (R159) -/
  halted : List Bytes
  /-- the frames of the last command, CRC with them, in the order in which they were sent; and the R(NAK)s for the present
  block (R154) -/
  sent : List Bytes
  naks : Nat
  /-- the I-blocks of a chained command that are still to be sent, and the answer as far as it has come (R154) -/
  left : List Bytes
  answer : Bytes
  deriving DecidableEq, Repr

/-- The tag role and the island (R164 to R181). -/
structure Tag where
  field : Bool
  ready : Bool
  uid : Bytes
  c : Word
  j : Nat
  /-- selected by SELECT (R164), ISO-DEP active, the island application selected, or another one forwarded (R167) -/
  picked : Bool
  active : Bool
  selected : Bool
  forwarding : Bool
  ni : Bytes
  authEntry : Option Nat
  /-- uncommitted shadow copies by record: the next chunk (8: all are written, the flag is due; 9: no further one) and the
  bytes so far (R179) -/
  shadows : Tab (Nat × Bytes)
  /-- an answer is pending and S(WTX) is sent once per FWT (R166) -/
  pendingAnswer : Bool
  fwdWait : Bool
  /-- forwarded APDUs whose phone has gone: their answers are discarded -/
  fwdStale : Nat
  /-- an UNLOCK waits for VSTORE, or for Peat (R172) -/
  unlockWait : Bool
  isackWait : Bool
  /-- this selection has fired its pulse (R173); this presence has used its AUTH (R174) -/
  fired : Bool
  authTried : Bool
  pulse : Bool
  pulseTid : Word
  pulseEntry : Nat
  /-- last bytes sent to the phone, with the frame delay in carrier cycles (R165) -/
  answer : Bytes
  delayFc : Nat
  wtxSent : Nat
  unlockH : Bool
  /-- the host command that runs: whether it writes, and its record -/
  hostBusy : Option (Bool × Nat)
  hostReadWaits : Option Nat
  /-- a field APDU that waits for a host write: whether it updates, P1, P2, its data and VHARV -/
  fieldWaits : Option (Bool × Nat × Nat × Bytes × Nat)
  /-- the record being written from the field now (R180) -/
  writing : Option Nat
  deriving DecidableEq, Repr

/-- An accepted radio operation (R189); those of a ranging slot carry channel 128 plus the frame kind of R214. -/
structure UwbOp where
  id : Nat
  chan : Nat
  w0 : Word
  w2 : Word
  payload : Bytes
  /-- the scheduled TIME, or the acceptance of an immediate operation, in TS steps -/
  time : Nat
  /-- UWB_PROFILEn, or RPROFILE, as it was at acceptance -/
  profile : Word
  late : Bool
  recal : Bool
  stale : Bool
  mismatch : Bool
  walked : Bool
  rl : Nat
  port : Nat
  /-- calibrations and tunes still to be made: 1 transmit record, 2 receive record, 4 + p port p -/
  todo : List Nat
  /-- the words of a TUNE result so far -/
  words : List Word
  /-- DELAY and PDOA1 to PDOA3 of the record chosen -/
  delay : Nat
  pdoa : List Int
  /-- the start of the ranging slot it belongs to -/
  ref : Nat
  /-- the status and the result, while results of earlier commands of the channel are still out -/
  fin : Option (Byte × Bytes)
  /-- whether the synthesiser is calibrated in its walk, once that is decided (R191) -/
  cal : Option Bool
  /-- a preamble was heard by the close of its window (R194) -/
  heard : Bool
  /-- the transmit gain (R199) -/
  gain : Nat
  /-- the STS that the generator made of its key and V, a bit string (R214, R215, R340) -/
  sts : Bytes
  /-- its walk has chosen a live record; and a host mistake of the chapter made its result unpredictable -/
  fromLive : Bool
  mixed : Bool
  deriving DecidableEq, Repr

/-- A UWB calibration record, from the section or live (R197, R200). -/
structure CalRec where
  kind : Nat
  port : Nat
  channel : Nat
  count : Nat
  temp : Int
  tune : Nat
  vdd12 : Nat
  txgain : Nat
  delay : Nat
  pdoa1 : Int
  pdoa2 : Int
  pdoa3 : Int
  detRef : Nat
  deriving DecidableEq, Repr

structure Uwb where
  ops : List UwbOp
  nextId : Nat
  /-- the operation that holds the radio -/
  cur : Option Nat
  /-- whether a lock in progress leads to channel 9, and whether it calibrates -/
  walk : Option (Bool × Bool)
  live : List CalRec
  /-- the record that each AUTO_RECAL channel last used, and the profile it used; 128 is the ranging block -/
  lastRec : Tab (CalRec × Word)
  /-- channels whose next lock calibrates, as a mask: bit 1 is channel 9 (R196) -/
  lockCal : Nat
  /-- ports whose TUNE has been replaced (R202), and those that want a retune (R203), as masks -/
  tuned : Nat
  retune : Nat
  /-- a transition towards STANDBY or SLEEP has begun, which completes whatever becomes of its operation (R186) -/
  down : Bool
  /-- the transmit that was dropped while its walk, which goes on, has a recalibration to make (R192, R199) -/
  orphan : Option UwbOp
  /-- commands committed before this commit have waited for room among the scheduled operations (R189) -/
  waitNo : Nat
  deriving DecidableEq, Repr

/-- A slot of a plan: its index, ranging unit, head session and GEN, RN or FN, and its start in chain time. `past`: the
number has passed its last value. -/
structure PlanSlot where
  idx : Nat
  unit : Nat
  ses : Nat
  gen : BitVec 8
  fused : Bool
  num : Nat
  past : Bool
  start : Nat
  deriving DecidableEq, Repr

/-- The ranging slot in progress (R216): timestamps, what the checks found, and the time of flight as a fraction. -/
structure RngSlot where
  slot : PlanSlot
  t1 : Nat
  t4 : Nat
  t5 : Nat
  reason : Nat
  num : Int
  den : Nat
  distMm : Nat
  az : Int
  el : Int
  aoaValid : Bool
  heard : Bool
  reported : Bool
  noSession : Bool
  alarmed : Bool
  deriving DecidableEq, Repr

/-- A phone frame of a fused round that a unit timestamped: its slot, its kind and its arrival in chain time (R236). -/
structure Heard where
  slot : Nat
  kind : Nat
  time : Nat
  deriving DecidableEq, Repr

/-- One unit's report of a fused round: its verdict and the frames it heard (R236). -/
structure Arrival where
  unit : Nat
  verdict : List Word
  heard : List Heard
  aligned : Bool
  deriving DecidableEq, Repr

/-- A fused round that is placed: session, GEN, the FN of its first slot, its units in slot order, and its start in chain
time (R235). -/
structure FusedPlan where
  ses : Nat
  gen : BitVec 8
  num : Nat
  units : List Nat
  start : Nat
  deriving DecidableEq, Repr

/-- A conversion to chain time as held at the start of a round: offset, rate, the local time of the update, and ALIGN_OK
(R233). -/
structure Align where
  offset : Int
  rate : Int
  offAt : Nat
  ok : Bool
  deriving DecidableEq, Repr

/-- The fused round that runs: its plan, this unit's report of it, and on the head what has arrived, the exact time of
flight of its own slot, and whether the last slot has ended. -/
structure FusedRun where
  plan : FusedPlan
  verdict : List Word
  heard : List Heard
  num : Int
  den : Nat
  arrivals : List Arrival
  ended : Bool
  /-- the conversion to chain time held at its start (R233), and whether it has started -/
  align : Align
  begun : Bool
  deriving DecidableEq, Repr

structure Dist where
  /-- slots of the plans in use that this unit still has to run or listen in -/
  plan : List PlanSlot
  /-- the slots placed with the radio, in order (R231) -/
  cur : List RngSlot
  /-- fused rounds that wait for their start (R235) -/
  fuseReqs : List FusedPlan
  /-- the fused rounds whose slots are planned or whose reports are awaited, the oldest first -/
  fused : List FusedRun
  fifo : List (List Word)
  /-- DIST_MAP: head session to local session -/
  map : Tab Nat
  /-- head sessions mapped by DIST_MAP to a session that held no K_RNG_u: their verdicts are unpredictable (a host mistake of the
  chapter) -/
  mapSpoilt : List Nat
  /-- the grid of the regular round: its start and end in chain time, and its slots -/
  roundStart : Nat
  roundEnd : Nat
  nslots : Nat
  /-- a plan has come since the last deadline (R230) -/
  planIn : Bool
  /-- when the last plan that names this unit came (R54) -/
  planAt : Option Nat
  /-- the conversion of the regular round (R233) -/
  reg : Align
  /-- on the head, the slots of the rounds whose sessions are still to be used by them (R113) -/
  named : List PlanSlot
  deriving DecidableEq, Repr

/-! ### Release, converter, host port, Causeway and the rest -/

/-- The start waveform, the times of its first edge and of its end (R279), and whether a decision runs. -/
structure Release where
  wave : Bool
  startAt : Nat
  endAt : Nat
  pending : Bool
  deriving DecidableEq, Repr

/-- The converter's running sequence: the entry and the slot it is at, the slots that internal conversions take before the
next entry, the time of its first sample, its words so far, and whether it ends with the present conversion (R424 to
R427). -/
structure MonRun where
  seq : Nat
  entry : Nat
  slotNo : Nat
  moved : Nat
  time : Word
  words : List Word
  abort : Bool
  deriving DecidableEq, Repr

structure Mon where
  run : Option MonRun
  /-- sequences whose configuration was written while they were pending or running, as a mask (R15, R428) -/
  spoiled : Nat
  deriving DecidableEq, Repr

/-- One buffered host write: space selector, walk, address, data words, and the host part of the policy at its acceptance
(R35, R430, R435). -/
structure HostBuf where
  s : Bool
  walk : Nat
  a : Nat
  words : List Word
  policy : Option Bytes
  deriving DecidableEq, Repr

structure Hif where
  wbuf : List HostBuf
  /-- what the device last sent on HOST_MISO -/
  miso : Bytes
  /-- the host part that judges the write being applied, where it is not the one in use (R35) -/
  judged : Option (Option Bytes)
  deriving DecidableEq, Repr

/-- A Causeway frame (R444). -/
structure Frame where
  dst : Nat
  src : Nat
  cls : Nat
  sub : Nat
  lseq : Byte
  flags : Byte
  payload : Bytes
  /-- the reserved header bytes 6 and 7, as they came -/
  res : Nat
  /-- the payload is the BODY of an authenticated frame that has not left its port yet, with the nonce that goes into its
  AAD (R450, R451) -/
  unsealed : Option Bytes
  deriving DecidableEq, Repr

/-- The go-back-N state of one port (R442, R445, R446). -/
structure CwyPort where
  txSeq : Byte
  rxSeq : Byte
  nakSent : Bool
  unacked : List Frame
  waiting : List Frame
  timeouts : Nat
  readySent : Bool
  /-- the LSEQ of the last ACK sent (R445) -/
  acked : Option Byte
  deriving DecidableEq, Repr

/-- What the roster holds for one address (R452). -/
structure Member where
  present : Bool
  paired : Bool
  start : Nat
  maxCount : Nat
  aligned : Bool
  deriving DecidableEq, Repr

/-- One time-transfer exchange (R459). -/
structure Exch where
  t1 : Nat
  t2 : Option Nat
  t3 : Option Nat
  t4 : Option Nat
  /-- its number, counted from 0 since the link came up -/
  no : Nat
  deriving DecidableEq, Repr

structure Cwy where
  ports : Tab CwyPort
  roster : Tab Member
  nh : Bytes
  startNo : Nat
  count : Nat
  taken : List (Nat × Frame)
  notifs : List Word
  /-- addresses whose receipt is still out, and the status so far -/
  receipts : List Nat
  pstatus : Byte
  /-- exchanges of the link to the next unit since the last fit, and the stamps and LINK_ASYM not sent to the parent yet -/
  exchanges : List Exch
  stamps : List (Nat × Nat × Nat)
  asym : Int
  /-- the number of the next exchange on DN; the number and the arrival of the last MARK on UP, since each link came up -/
  ttDn : Nat
  ttUp : Option (Nat × Nat)
  /-- a class 2 command of Peat's waits for a CHAIN replacement to end (R65) -/
  pheld : Bool
  /-- time of the last time transfer; ALIGN_OK has expired since; ALIGNED has been sent -/
  alignAt : Option Nat
  expired : Bool
  alignedSent : Bool
  /-- on the head: a walk has begun and not ended (R452); the units whose JOIN waits for its nonce (R455) -/
  walking : Bool
  joins : List Nat
  /-- the port on which the unit drives line activity since a line activity woke it (R443) -/
  wakeOut : Option Nat
  /-- the session that CWY_PLAND is to arm waits until one is FREE (R110) -/
  landWaits : Bool
  deriving DecidableEq, Repr

structure Flt where
  /-- SYSTIME of the alarms of the last second (R468) -/
  times : List Nat
  /-- SOURCE and DETAIL of an alarm while not resumed, until the next resume (R467) -/
  offline : Option (Nat × Nat)
  /-- the time of each SOURCE's last alarm, resumed or not (R465) -/
  trips : Tab Nat
  deriving DecidableEq, Repr

/-- Governor budgets in sixteenths of an aerial for an XO cycle, and of an XO cycle; the time of the last refill (R493). -/
structure Gov where
  lf : Int
  uwb : Int
  at_ : Nat
  deriving DecidableEq, Repr

/-- Interrupts raised and not yet taken, and the access-fault exceptions of Peat's and Sedge's core (R32, R86, R470). -/
inductive Irq where
  | verdict | authLast | fusedResult | island | alarm | rngFailed | causeway
  /-- of a timer, to its owner: Peat, or Sedge (R419) -/
  | timer (n : Nat) (peat : Bool)
  | peatFault | sedgeFault
  deriving DecidableEq, Repr

/-- A mover channel's chain: the words of the descriptor in progress and the bytes it has moved (R408 to R410). -/
structure MoverRun where
  desc : List Word
  armed : Bool
  moved : Nat
  status : Byte
  /-- the descriptor has ended, and its event waits for room in Q2 before the chain goes on (R399, R410) -/
  held : Bool
  /-- its registers were written while it was BUSY: what it does is unpredictable (the host mistakes of the chapter) -/
  mixed : Bool
  deriving DecidableEq, Repr

/-- The machine. -/
structure State where
  /-- commands that wait, first in first out -/
  pending : List Instr
  now : Nat
  freeCtr : Nat
  sysTime : BitVec 64
  tsOrigin : Nat
  regs : Tab Word
  latch : Tab Word
  /-- the word each master's last read returned: the model's view of the read data lines -/
  readOut : Tab Word
  mem : List Host.Cell
  flash : List Host.Cell
  mapCache : List (Nat × Bytes)
  lanes : Tab Lane
  /-- packets committed so far: the order of commits across lanes (R121) -/
  commits : Nat
  envm : Envm
  /-- the start-up bits that the root array has last come up with so that R could be had from them: a property of the
  silicon, no register. R itself is never kept (R285, R287) -/
  rootArray : Option Bytes
  power : Power
  cfg : Cfg
  peat : Peat
  templates : Tab Bytes
  /-- the channel that the sequencer served last at each priority (R103) -/
  seqLast : Tab Nat
  sess : Tab Session
  slots : Tab Slot
  eng : Engines
  trng : Trng
  lf : Lf
  nfc : Nfc
  tag : Tag
  uwb : Uwb
  dist : Dist
  rel : Release
  mon : Mon
  mover : Tab MoverRun
  hif : Hif
  cwy : Cwy
  flt : Flt
  gov : Gov
  /-- the time of the last write of GMASK or PMEN -/
  dumpWrote : Option Nat
  prfAcc : Tab Word
  /-- the counters that the last snapshot zeroed, as they were before it, and its time (R485) -/
  prfBefore : Nat × Tab Word
  /-- timers whose capture no master has read yet, as a mask, and the route steps still to reach each timer (R419, R420) -/
  capUnread : Nat
  steps : Tab Nat
  /-- the XO cycle in which routes last acted: its time, the timers that have ticked in it, and the actions with their targets
  (R421) -/
  routed : Nat × List Nat × List (Nat × Nat)
  irqs : List Irq
  deriving DecidableEq, Repr

/-- Why the machine stops. No command of the KM7310 stops it: the device reports errors by status codes and goes on.
The one constructor stands for an access of the model to a memory that has no such address; nothing raises it (safe). -/
inductive Fault where
  | noSuchAddress
  deriving DecidableEq, Repr

/-- Why a command has no meaning. -/
inductive Refusal where
  /-- raised by an arm of exec whose command has not been modelled; no arm raises it (safe) -/
  | notModelled (mnemonic : String)
  deriving DecidableEq, Repr

/-- What a step of the machine answers. -/
abbrev Result := Host.Outcome State Fault Refusal

def Envm.reset : Envm :=
  { lcs := 0, transition := none, entryDue := none, arb := [], commitRec := none, trial := [], clocksCopy := none, epoch := [],
    helper := none, blobs := [], counters := [], anchors := [], xmssKeyed := false, xmssNext := 0, xmssLag := 0, pubSeed := [],
    entries := [], kis := none, islandCfg := none, islandUnit := 0, islandLog := [], logOverrun := false, islandFails := 0,
    logHeld := none, tussock := [], tornRecs := [], sectors := [], mapInit := false, lastRevoked := [], tOp := 0, tOpAt := 0,
    timeUnc := false, tOpSet := false, pwdFails := 0, pwdLockedUntil := none, lockCls := [], lockEnt := [], applIds := [] }

def Power.reset : Power :=
  { mode := .starting, regEn := true, attempts := 0, retryWait := false, vbatArmed := false, vbatAt := 0, timeLost := false,
    chargeOff := false, lastActivity := 0, stageDue := 0, leftAt := 0, aonCal := false, sleepAsked := false, idleSent := false,
    idleUnits := 0, safeState := false, sedgeRuns := false, wdtAt := 0, bootSel := 0, strapError := false, cwyHead := false,
    recovery := false, recMem := [], recGot := [], reloading := false, rootTries := 0, lost := false, rootKnown := false,
    classKeys := [], startDue := none }

def Peat.reset : Peat :=
  { serving := none, kst := none, reqGens := [], lastSession := 255, staged := [], runSlot := [], runVersion := [],
    sedgeDigest := [], peatFoot := 0, nonce := none, debugLevel := 0, jtagOut := [], jtagWait := none, verdicts := [],
    authOk := [], lastAuth := none, authSeen := false, residents := [], applet := none, appletUse := 0, fences := 0,
    kisDue := false }

def Tag.reset : Tag :=
  { field := false, ready := false, uid := [], c := 0, j := 0, picked := false, active := false, selected := false,
    forwarding := false, ni := [], authEntry := none, shadows := [], pendingAnswer := false, fwdStale := 0, fwdWait := false,
    unlockWait := false, isackWait := false, fired := false, authTried := false, pulse := false, pulseTid := 0,
    pulseEntry := 0, answer := [], delayFc := 0, wtxSent := 0, unlockH := false, hostBusy := none, hostReadWaits := none,
    fieldWaits := none, writing := none }

/-- No job and no context. No channel has been served by any engine yet, and each engine counts CH0 as the last: a DESIGN
CHOICE (R106 names none; log entry 57). -/
def Engines.reset : Engines :=
  { aes := none, aesKey := [], aesLast := 0, stsBusy := false, bn := none, bnLast := 0, bnSusp := none, bnMixed := [],
    bnHold := none, hsh := none, hshLast := 0, ctx := [], waiting := [], recRead := false, recMixed := false }

def Uwb.reset : Uwb :=
  { ops := [], nextId := 0, cur := none, walk := none, live := [], lastRec := [], lockCal := 0, tuned := 0, retune := 0,
    down := false, orphan := none, waitNo := 0 }

def Dist.reset : Dist :=
  { plan := [], cur := [], fuseReqs := [], fused := [], fifo := [], map := [], mapSpoilt := [], roundStart := 0, roundEnd := 0,
    nslots := 0, planIn := false, planAt := none, reg := ⟨0, 0, 0, false⟩, named := [] }

def Cwy.reset : Cwy :=
  { ports := [], roster := [], nh := [], startNo := 0, count := 0, taken := [], notifs := [], receipts := [], pstatus := 0,
    exchanges := [], stamps := [], asym := 0, ttDn := 0, ttUp := none, pheld := false, alignAt := none, expired := false,
    alignedSent := false, walking := false, joins := [], wakeOut := none, landWaits := false }

/-- The machine right after the reset of a cold power-up of a factory-fresh part (log entries 3, 4): the supplies are up
and the start time line of R57 is about to run. -/
def State.reset : State :=
  { pending := [], now := 0, freeCtr := 0, sysTime := 0, tsOrigin := 0, regs := [(0x40020004, 0x40)], latch := [],
    readOut := [], mem := [], flash := [], mapCache := [], lanes := [], commits := 0, envm := Envm.reset, rootArray := none,
    power := Power.reset,
    cfg := { active := false, slot := 0, version := 0, sections := [], held := [], hold := [], windows := [] },
    peat := Peat.reset, templates := [], seqLast := [], sess := [], slots := [], eng := Engines.reset,
    trng := { reqs := [], out := [], served := [], preSeeded := false, testsPassed := false, tests := [] },
    lf := { waiting := [], cur := none, tuned := 0, carrierNext := none, held := none, sent := [] },
    nfc := { cur := none, card := none, fieldOn := false, guard := false, baseline := false, halted := [], sent := [], naks := 0, left := [], answer := [] },
    tag := Tag.reset, uwb := Uwb.reset, dist := Dist.reset,
    rel := { wave := false, startAt := 0, endAt := 0, pending := false }, mon := { run := none, spoiled := 0 }, mover := [],
    hif := { wbuf := [], miso := [], judged := none }, cwy := Cwy.reset, flt := { times := [], offline := none, trips := [] },
    gov := { lf := 173568000, uwb := 43392000, at_ := 0 }, dumpWrote := none, prfAcc := [], prfBefore := (0, []),
    capUnread := 0, steps := [], routed := (0, [], []), irqs := [] }

end Machine
end Sys2Proof
end

