-- ==== Sys2Proof/Machine/Regs.lean ====
section
/-!
DEFINITION. The registers of the address map: the full address of each register (R7, R29) under its name in the spec
with an a before it, and one row for each run of registers with its owner, the masks of its RW, W1C and W1P bits and
its reset value, from the register tables of the chapters. A row stands for `count` registers, `stride` bytes apart.
-/
namespace Sys2Proof
namespace Machine

/-- Who owns a register (R9). The last six name an owner that another register fixes: the Peat mask of channels (R116),
of timers (R427), of mover channels (R410), and the readers of PRF_ registers (R478, R483). -/
inductive Owner where
  | peat | sedge | host | chan | timer | mover | prfMonitor | prfBlock
  deriving DecidableEq, Repr

/-- A run of registers of the map. -/
structure RegRow where
  base : Nat
  count : Nat
  stride : Nat
  own : Owner
  rw : Word
  w1c : Word
  w1p : Word
  reset : Word
  deriving DecidableEq, Repr

/-- PWR_STATUS, R54. -/
def aPWR_STATUS : Nat := 0x40020000
/-- PWR_WAKE_SRC, R54. -/
def aPWR_WAKE_SRC : Nat := 0x40020004
/-- PWR_STANDING, R54. -/
def aPWR_STANDING : Nat := 0x40020008
/-- PWR_CMD, R54. -/
def aPWR_CMD : Nat := 0x4002000C
/-- PWR_ENTRYn, R54. -/
def aPWR_ENTRY (n : Nat) : Nat := 0x40020010 + 4 * (n - 1)
/-- PWR_POLLn, R54. -/
def aPWR_POLL (n : Nat) : Nat := 0x40020020 + 4 * n
/-- PWR_DSWAKE, R54. -/
def aPWR_DSWAKE : Nat := 0x40020030
/-- PWR_IDLE, R54. -/
def aPWR_IDLE : Nat := 0x40020034
/-- SYS_CORE_STATUS, R74. -/
def aSYS_CORE_STATUS : Nat := 0x40000100
/-- SYS_WDT_KICK, R74. -/
def aSYS_WDT_KICK : Nat := 0x40000104
/-- SYS_WDT_CFG, R74. -/
def aSYS_WDT_CFG : Nat := 0x40000108
/-- SYS_FENCEn, R74. -/
def aSYS_FENCE (n : Nat) : Nat := 0x40000110 + 4 * n
/-- LCS_STATE, R94. -/
def aLCS_STATE : Nat := 0x40170000
/-- LCS_ARBn, R94. -/
def aLCS_ARB (n : Nat) : Nat := 0x40170010 + 4 * n
/-- CHN_PEATMASKn, R116. -/
def aCHN_PEATMASK (n : Nat) : Nat := 0x40080000 + 4 * n
/-- CHN_RUNMASKn, R116. -/
def aCHN_RUNMASK (n : Nat) : Nat := 0x40080010 + 4 * n
/-- CHN_CTLn, R116. -/
def aCHN_CTL (n : Nat) : Nat := 0x40081000 + 32 * n
/-- CHN_BINDn, R116. -/
def aCHN_BIND (n : Nat) : Nat := 0x40081004 + 32 * n
/-- CHN_QUEUESn, R116. -/
def aCHN_QUEUES (n : Nat) : Nat := 0x40081008 + 32 * n
/-- CHN_SCHEDn, R116. -/
def aCHN_SCHED (n : Nat) : Nat := 0x4008100C + 32 * n
/-- CHN_STATUSn, R116. -/
def aCHN_STATUS (n : Nat) : Nat := 0x40081010 + 32 * n
/-- CHN_COUNTn, R116. -/
def aCHN_COUNT (n : Nat) : Nat := 0x40081014 + 32 * n
/-- SES_OPEN, R116. -/
def aSES_OPEN : Nat := 0x40090000
/-- SES_CFG, R116. -/
def aSES_CFG : Nat := 0x40090004
/-- SES_STATEn, R116. -/
def aSES_STATE (n : Nat) : Nat := 0x40090100 + 4 * n
/-- LF_CARRIER, R147. -/
def aLF_CARRIER : Nat := 0x40030000
/-- LF_STATUS, R147. -/
def aLF_STATUS : Nat := 0x40030004
/-- LF_FLAGS, R147. -/
def aLF_FLAGS : Nat := 0x40030008
/-- LF_POLLCFG, R147. -/
def aLF_POLLCFG : Nat := 0x4003000C
/-- LF_DROOP, R147. -/
def aLF_DROOP : Nat := 0x40030010
/-- LF_REPOLLn, R147. -/
def aLF_REPOLL (n : Nat) : Nat := 0x40030040 + 4 * n
/-- LF_AUTHLAST0, R147. -/
def aLF_AUTHLAST0 : Nat := 0x40030080
/-- LF_AUTHLAST1, R147. -/
def aLF_AUTHLAST1 : Nat := 0x40030084
/-- LF_DRVn, R147. -/
def aLF_DRV (n : Nat) : Nat := 0x40030100 + 4 * n
/-- NFC_STATUS, R180. -/
def aNFC_STATUS : Nat := 0x40040000
/-- NFC_FLAGS, R180. -/
def aNFC_FLAGS : Nat := 0x40040004
/-- NFC_TXCFG, R180. -/
def aNFC_TXCFG : Nat := 0x40040008
/-- NFC_LPCD, R180. -/
def aNFC_LPCD : Nat := 0x4004000C
/-- NFC_LPCDBASE, R180. -/
def aNFC_LPCDBASE : Nat := 0x40040010
/-- NFC_LPCDLAST, R180. -/
def aNFC_LPCDLAST : Nat := 0x40040014
/-- TAG_STATUS, R180. -/
def aTAG_STATUS : Nat := 0x40050000
/-- TAG_HCMD, R180. -/
def aTAG_HCMD : Nat := 0x40050004
/-- TAG_HRESULT, R180. -/
def aTAG_HRESULT : Nat := 0x40050008
/-- TAG_RECINFO, R180. -/
def aTAG_RECINFO : Nat := 0x4005000C
/-- TAG_RECMAPn, R180. -/
def aTAG_RECMAP (n : Nat) : Nat := 0x40050040 + 4 * n
/-- TAG_ISLAST0, R180. -/
def aTAG_ISLAST0 : Nat := 0x40050100
/-- TAG_ISLAST1, R180. -/
def aTAG_ISLAST1 : Nat := 0x40050104
/-- TAG_ISLOG, R180. -/
def aTAG_ISLOG : Nat := 0x40050108
/-- TAG_CFG, R180. -/
def aTAG_CFG : Nat := 0x4005010C
/-- TAG_ISACK, R180. -/
def aTAG_ISACK : Nat := 0x40050110
/-- TAG_HBUF, R180. -/
def aTAG_HBUF (n : Nat) : Nat := 0x40050400 + 4 * n
/-- UWB_STATE, R208. -/
def aUWB_STATE : Nat := 0x40060000
/-- UWB_FLAGS, R208. -/
def aUWB_FLAGS : Nat := 0x40060004
/-- UWB_CONDS, R208. -/
def aUWB_CONDS : Nat := 0x40060008
/-- UWB_IDLECFG, R208. -/
def aUWB_IDLECFG : Nat := 0x4006000C
/-- UWB_TSNOW_LO, R208. -/
def aUWB_TSNOW_LO : Nat := 0x40060010
/-- UWB_TSNOW_HI, R208. -/
def aUWB_TSNOW_HI : Nat := 0x40060014
/-- UWB_TXLIMIT, R208. -/
def aUWB_TXLIMIT : Nat := 0x40060018
/-- UWB_GOVCNT, R208. -/
def aUWB_GOVCNT : Nat := 0x4006001C
/-- UWB_PROFILEn, R208. -/
def aUWB_PROFILE (n : Nat) : Nat := 0x40060020 + 4 * n
/-- UWB_PORTn, R208. -/
def aUWB_PORT (n : Nat) : Nat := 0x40060040 + 4 * n
/-- UWB_SYNCALc, R208. -/
def aUWB_SYNCAL (c : Nat) : Nat := 0x40060050 + 4 * c
/-- UWB_LIVE, R208. -/
def aUWB_LIVE : Nat := 0x40060060
/-- DIST_CTL, R239. -/
def aDIST_CTL : Nat := 0x40070000
/-- DIST_STATUS, R239. -/
def aDIST_STATUS : Nat := 0x40070004
/-- DIST_COUNT, R239. -/
def aDIST_COUNT : Nat := 0x40070008
/-- DIST_SKIP, R239. -/
def aDIST_SKIP : Nat := 0x4007000C
/-- DIST_ALIGN_LO, R239. -/
def aDIST_ALIGN_LO : Nat := 0x40070010
/-- DIST_ALIGN_HI, R239. -/
def aDIST_ALIGN_HI : Nat := 0x40070014
/-- DIST_ALIGNQ, R239. -/
def aDIST_ALIGNQ : Nat := 0x40070018
/-- DIST_RATE, R239. -/
def aDIST_RATE : Nat := 0x4007001C
/-- DIST_SLOTn, R239. -/
def aDIST_SLOT (n : Nat) : Nat := 0x40070100 + 4 * n
/-- DIST_FUSE, R239. -/
def aDIST_FUSE : Nat := 0x40070200
/-- DIST_MAP, R239. -/
def aDIST_MAP : Nat := 0x40070208
/-- DIST_FUSED0, R239. -/
def aDIST_FUSED0 : Nat := 0x40070210
/-- DIST_FUSED1, R239. -/
def aDIST_FUSED1 : Nat := 0x40070214
/-- DIST_FUSED2, R239. -/
def aDIST_FUSED2 : Nat := 0x40070218
/-- DIST_FUSED3, R239. -/
def aDIST_FUSED3 : Nat := 0x4007021C
/-- DIST_FUSED4, R239. -/
def aDIST_FUSED4 : Nat := 0x40070220
/-- DIST_VSTAT, R239. -/
def aDIST_VSTAT : Nat := 0x40070300
/-- DIST_VREAD, R239. -/
def aDIST_VREAD : Nat := 0x40070304
/-- DIST_VHEADw, R239. -/
def aDIST_VHEAD (w : Nat) : Nat := 0x40070400 + 4 * w
/-- CRD_STATUS, R268. -/
def aCRD_STATUS : Nat := 0x40180000
/-- CRD_HITS, R268. -/
def aCRD_HITS : Nat := 0x40180004
/-- CRD_TIME, R268. -/
def aCRD_TIME : Nat := 0x40180008
/-- CRD_LOCKCFG, R268. -/
def aCRD_LOCKCFG : Nat := 0x4018000C
/-- CRD_LOCKc, R268. -/
def aCRD_LOCK (c : Nat) : Nat := 0x40180010 + 4 * c
/-- CRD_TOKLOCK0, R268. -/
def aCRD_TOKLOCK0 : Nat := 0x40180020
/-- CRD_TOKLOCK1, R268. -/
def aCRD_TOKLOCK1 : Nat := 0x40180024
/-- CRD_MAPQ, R268. -/
def aCRD_MAPQ : Nat := 0x40180030
/-- CRD_MAPR, R268. -/
def aCRD_MAPR : Nat := 0x40180034
/-- CRD_MAPVERn, R268. -/
def aCRD_MAPVER (n : Nat) : Nat := 0x40180100 + 4 * n
/-- CRD_ENTn_A, R268. -/
def aCRD_ENT_A (n : Nat) : Nat := 0x40180200 + 8 * n
/-- CRD_ENTn_B, R268. -/
def aCRD_ENT_B (n : Nat) : Nat := 0x40180204 + 8 * n
/-- REL_STATUS, R283. -/
def aREL_STATUS : Nat := 0x400A0000
/-- REL_CTL, R283. -/
def aREL_CTL : Nat := 0x400A0004
/-- REL_CFG, R283. -/
def aREL_CFG : Nat := 0x400A0008
/-- REL_CNT_LO, R283. -/
def aREL_CNT_LO : Nat := 0x400A0010
/-- REL_CNT_HI, R283. -/
def aREL_CNT_HI : Nat := 0x400A0014
/-- REL_REMAIN, R283. -/
def aREL_REMAIN : Nat := 0x400A0018
/-- KST_STATUS, R306. -/
def aKST_STATUS : Nat := 0x400B0000
/-- KST_CMD, R306. -/
def aKST_CMD : Nat := 0x400B0004
/-- KST_RESULT, R306. -/
def aKST_RESULT : Nat := 0x400B0008
/-- KST_ARGm, R306. -/
def aKST_ARG (m : Nat) : Nat := 0x400B0010 + 4 * m
/-- KST_ATTRn, R306. -/
def aKST_ATTR (n : Nat) : Nat := 0x400B0100 + 4 * n
/-- KST_EPOCHc, R306. -/
def aKST_EPOCH (c : Nat) : Nat := 0x400B0200 + 4 * c
/-- KST_CNTn, R306. -/
def aKST_CNT (n : Nat) : Nat := 0x400B0300 + 4 * n
/-- TRNG_STATUS, R324. -/
def aTRNG_STATUS : Nat := 0x400C0000
/-- TRNG_HEALTH, R324. -/
def aTRNG_HEALTH : Nat := 0x400C0004
/-- TRNG_CTL, R324. -/
def aTRNG_CTL : Nat := 0x400C0008
/-- TRNG_PORTREQ, R324. -/
def aTRNG_PORTREQ : Nat := 0x400C000C
/-- TRNG_PORT, R324. -/
def aTRNG_PORT : Nat := 0x400C0010
/-- TRNG_OUT, R324. -/
def aTRNG_OUT : Nat := 0x400C0014
/-- TRNG_MASKn, R324. -/
def aTRNG_MASK (n : Nat) : Nat := 0x400C0020 + 4 * n
/-- TRNG_RAW, R324. -/
def aTRNG_RAW : Nat := 0x400C0100
/-- AES_STATUS, R345. -/
def aAES_STATUS : Nat := 0x400D0000
/-- AES_COUNT, R345. -/
def aAES_COUNT : Nat := 0x400D0004
/-- AES_FAULT, R345. -/
def aAES_FAULT : Nat := 0x400D0008
/-- AES_RECSEL, R345. -/
def aAES_RECSEL : Nat := 0x400D0010
/-- AES_RECTX, R345. -/
def aAES_RECTX : Nat := 0x400D0014
/-- AES_RECRX, R345. -/
def aAES_RECRX : Nat := 0x400D0018
/-- BN_STATUS, R369. -/
def aBN_STATUS : Nat := 0x400E0000
/-- BN_SUSPENDED, R369. -/
def aBN_SUSPENDED : Nat := 0x400E0004
/-- BN_PART, R369. -/
def aBN_PART : Nat := 0x400E0008
/-- BN_PARTINFO, R369. -/
def aBN_PARTINFO : Nat := 0x400E000C
/-- BN_FLAGS0, R369. -/
def aBN_FLAGS0 : Nat := 0x400E0010
/-- BN_FLAGS1, R369. -/
def aBN_FLAGS1 : Nat := 0x400E0014
/-- BN_COUNT, R369. -/
def aBN_COUNT : Nat := 0x400E0018
/-- BN_FAULT, R369. -/
def aBN_FAULT : Nat := 0x400E001C
/-- BN_YIELDS, R369. -/
def aBN_YIELDS : Nat := 0x400E0020
/-- HSH_STATUS, R389. -/
def aHSH_STATUS : Nat := 0x400F0000
/-- HSH_COUNT, R389. -/
def aHSH_COUNT : Nat := 0x400F0004
/-- HSH_FAULT, R389. -/
def aHSH_FAULT : Nat := 0x400F0008
/-- HSH_CTXn, R389. -/
def aHSH_CTX (n : Nat) : Nat := 0x400F0010 + 4 * n
/-- HSH_XSTATE, R389. -/
def aHSH_XSTATE : Nat := 0x400F0040
/-- HSH_XNEXT, R389. -/
def aHSH_XNEXT : Nat := 0x400F0044
/-- HSH_ANCHORn, R389. -/
def aHSH_ANCHOR (n : Nat) : Nat := 0x400F0050 + 4 * (n - 1)
/-- QUE_FLUSH, R410. -/
def aQUE_FLUSH : Nat := 0x40100000
/-- QUE_PFLUSH, R410. -/
def aQUE_PFLUSH : Nat := 0x40100004
/-- QUE_COUNTn, R410. -/
def aQUE_COUNT (n : Nat) : Nat := 0x40100010 + 4 * n
/-- QUE_LCOUNTk, R410. -/
def aQUE_LCOUNT (k : Nat) : Nat := 0x401000D0 + 4 * (k - 14)
/-- QUE_STATn, R410. -/
def aQUE_STAT (n : Nat) : Nat := 0x40100050 + 4 * n
/-- QUE_DROPn, R410. -/
def aQUE_DROP (n : Nat) : Nat := 0x40100090 + 4 * n
/-- QUE_CFGn, R410. -/
def aQUE_CFG (n : Nat) : Nat := 0x40100100 + 4 * n
/-- QUE_MVOWN, R410. -/
def aQUE_MVOWN : Nat := 0x40100200
/-- QUE_MVCTLm, R410. -/
def aQUE_MVCTL (m : Nat) : Nat := 0x40101000 + 32 * m
/-- QUE_MVDESCm_w, R410. -/
def aQUE_MVDESC (m w : Nat) : Nat := 0x40101004 + 32 * m + 4 * w
/-- QUE_MVSTATm, R410. -/
def aQUE_MVSTAT (m : Nat) : Nat := 0x40101014 + 32 * m
/-- QUE_MVSEQm, R410. -/
def aQUE_MVSEQ (m : Nat) : Nat := 0x40101018 + 32 * m
/-- TMR_SYSTIME_LO, R427. -/
def aTMR_SYSTIME_LO : Nat := 0x40110000
/-- TMR_SYSTIME_HI, R427. -/
def aTMR_SYSTIME_HI : Nat := 0x40110004
/-- TMR_STATUS, R427. -/
def aTMR_STATUS : Nat := 0x40110008
/-- TMR_PEATMASK, R427. -/
def aTMR_PEATMASK : Nat := 0x4011000C
/-- TMR_ROUTEr, R427. -/
def aTMR_ROUTE (r : Nat) : Nat := 0x40110040 + 4 * r
/-- TMR_CTLn, R427. -/
def aTMR_CTL (n : Nat) : Nat := 0x40111000 + 64 * n
/-- TMR_COUNTn, R427. -/
def aTMR_COUNT (n : Nat) : Nat := 0x40111004 + 64 * n
/-- TMR_PERIODn, R427. -/
def aTMR_PERIOD (n : Nat) : Nat := 0x40111008 + 64 * n
/-- TMR_CMPn_c, R427. -/
def aTMR_CMP (n c : Nat) : Nat := 0x4011100C + 64 * n + 4 * c
/-- TMR_STATn, R427. -/
def aTMR_STAT (n : Nat) : Nat := 0x4011101C + 64 * n
/-- TMR_CAPLOn, R427. -/
def aTMR_CAPLO (n : Nat) : Nat := 0x40111020 + 64 * n
/-- TMR_CAPHIn, R427. -/
def aTMR_CAPHI (n : Nat) : Nat := 0x40111024 + 64 * n
/-- MON_CTL, R427. -/
def aMON_CTL : Nat := 0x40120000
/-- MON_STATUS, R427. -/
def aMON_STATUS : Nat := 0x40120004
/-- MON_SEQCFGs, R427. -/
def aMON_SEQCFG (s : Nat) : Nat := 0x40120010 + 4 * s
/-- MON_SEQINs_h, R427. -/
def aMON_SEQIN (s h : Nat) : Nat := 0x40120020 + 8 * s + 4 * h
/-- MON_SEQSTATs, R427. -/
def aMON_SEQSTAT (s : Nat) : Nat := 0x40120040 + 4 * s
/-- MON_RESs_k, R427. -/
def aMON_RES (s k : Nat) : Nat := 0x40120100 + 32 * s + 4 * k
/-- MON_TIMEs, R427. -/
def aMON_TIME (s : Nat) : Nat := 0x40120180 + 4 * s
/-- HIF_STATUS, R439. -/
def aHIF_STATUS : Nat := 0x40140000
/-- HIF_ATTN, R439. -/
def aHIF_ATTN : Nat := 0x40140004
/-- HIF_ERR, R439. -/
def aHIF_ERR : Nat := 0x40140008
/-- HIF_REFUSED, R439. -/
def aHIF_REFUSED : Nat := 0x4014000C
/-- HIF_RECREQ, R439. -/
def aHIF_RECREQ : Nat := 0x40140010
/-- HIF_RECLEN, R439. -/
def aHIF_RECLEN : Nat := 0x40140014
/-- HIF_RECDATA, R439. -/
def aHIF_RECDATA : Nat := 0x40140018
/-- CWY_STATUS, R461. -/
def aCWY_STATUS : Nat := 0x40130000
/-- CWY_PRESENT, R461. -/
def aCWY_PRESENT : Nat := 0x40130004
/-- CWY_PORTp, R461. -/
def aCWY_PORT (p : Nat) : Nat := 0x40130010 + 4 * p
/-- CWY_ERRp, R461. -/
def aCWY_ERR (p : Nat) : Nat := 0x40130020 + 4 * p
/-- CWY_AUTH, R461. -/
def aCWY_AUTH : Nat := 0x40130030
/-- CWY_PCMD, R461. -/
def aCWY_PCMD : Nat := 0x40130100
/-- CWY_PKREF, R461. -/
def aCWY_PKREF : Nat := 0x40130104
/-- CWY_PSTAT, R461. -/
def aCWY_PSTAT : Nat := 0x40130108
/-- CWY_PLAND, R461. -/
def aCWY_PLAND : Nat := 0x4013010C
/-- CWY_PRX, R461. -/
def aCWY_PRX : Nat := 0x40130110
/-- CWY_KEYSEL, R461. -/
def aCWY_KEYSEL : Nat := 0x40130114
/-- FLT_STATUS, R474. -/
def aFLT_STATUS : Nat := 0x40150000
/-- FLT_LAST0, R474. -/
def aFLT_LAST0 : Nat := 0x40150004
/-- FLT_LAST1, R474. -/
def aFLT_LAST1 : Nat := 0x40150008
/-- FLT_ECCm, R474. -/
def aFLT_ECC (m : Nat) : Nat := 0x40150010 + 4 * m
/-- FLT_INTEG, R474. -/
def aFLT_INTEG : Nat := 0x40150030
/-- FLT_REFUSED, R474. -/
def aFLT_REFUSED : Nat := 0x40150040
/-- FLT_REFADDR, R474. -/
def aFLT_REFADDR : Nat := 0x40150044
/-- FLT_CFG, R474. -/
def aFLT_CFG : Nat := 0x40150080
/-- FLT_AON, R474. -/
def aFLT_AON : Nat := 0x40150100
/-- PRF_GRANT, R485. -/
def aPRF_GRANT : Nat := 0x40160000
/-- PRF_GCTL, R485. -/
def aPRF_GCTL : Nat := 0x40160004
/-- PRF_GMASK, R485. -/
def aPRF_GMASK : Nat := 0x40160008
/-- PRF_GSTAT, R485. -/
def aPRF_GSTAT : Nat := 0x4016000C
/-- PRF_PMCFGn, R485. -/
def aPRF_PMCFG (n : Nat) : Nat := 0x40160100 + 32 * n
/-- PRF_PMBASEn, R485. -/
def aPRF_PMBASE (n : Nat) : Nat := 0x40160104 + 32 * n
/-- PRF_PMLIMn, R485. -/
def aPRF_PMLIM (n : Nat) : Nat := 0x40160108 + 32 * n
/-- PRF_PMWINn, R485. -/
def aPRF_PMWIN (n : Nat) : Nat := 0x4016010C + 32 * n
/-- PRF_PMACCn, R485. -/
def aPRF_PMACC (n : Nat) : Nat := 0x40160110 + 32 * n
/-- PRF_PMBYTESn, R485. -/
def aPRF_PMBYTES (n : Nat) : Nat := 0x40160114 + 32 * n
/-- PRF_SELb_k, R485. -/
def aPRF_SEL (b k : Nat) : Nat := 0x40161000 + 32 * b + 4 * k
/-- PRF_CNTb_k, R485. -/
def aPRF_CNT (b k : Nat) : Nat := 0x40161010 + 32 * b + 4 * k
/-- PWR_THERM, R494. -/
def aPWR_THERM : Nat := 0x40020040

/-- The registers of SYS_. -/
def rowsSYS : List RegRow := [
  ⟨0x40000100, 1, 0x4, .sedge, 0x0, 0x2, 0x0, 0x0⟩,
  ⟨0x40000104, 1, 0x4, .sedge, 0x0, 0x0, 0x1, 0x0⟩,
  ⟨0x40000108, 1, 0x4, .peat, 0xFFFF, 0x0, 0x0, 0x64⟩,
  ⟨0x40000110, 4, 0x4, .peat, 0xFFF07FF, 0x0, 0x0, 0x0⟩]

/-- The registers of PWR_. -/
def rowsPWR : List RegRow := [
  ⟨0x40020000, 1, 0x4, .sedge, 0x0, 0x0, 0x0, 0x0⟩,
  ⟨0x40020004, 1, 0x4, .sedge, 0x0, 0x1FF, 0x0, 0x0⟩,
  ⟨0x40020008, 1, 0x4, .sedge, 0x0, 0x0, 0x0, 0x0⟩,
  ⟨0x4002000C, 1, 0x4, .sedge, 0x0, 0x0, 0x7, 0x0⟩,
  ⟨0x40020010, 1, 0x4, .peat, 0xFFFFFFFF, 0x0, 0x0, 0x258⟩,
  ⟨0x40020014, 1, 0x4, .peat, 0xFFFFFFFF, 0x0, 0x0, 0x1C20⟩,
  ⟨0x40020018, 1, 0x4, .peat, 0xFFFFFFFF, 0x0, 0x0, 0x15180⟩,
  ⟨0x4002001C, 1, 0x4, .peat, 0xFFFFFFFF, 0x0, 0x0, 0x127500⟩,
  ⟨0x40020020, 1, 0x4, .peat, 0x3FFFF, 0x0, 0x0, 0x30019⟩,
  ⟨0x40020024, 1, 0x4, .peat, 0x3FFFF, 0x0, 0x0, 0x30064⟩,
  ⟨0x40020028, 1, 0x4, .peat, 0x3FFFF, 0x0, 0x0, 0x30190⟩,
  ⟨0x4002002C, 1, 0x4, .peat, 0x3FFFF, 0x0, 0x0, 0x200C8⟩,
  ⟨0x40020030, 1, 0x4, .peat, 0xFFFF, 0x0, 0x0, 0x0⟩,
  ⟨0x40020034, 1, 0x4, .peat, 0xFFFF, 0x0, 0x0, 0x7D0⟩,
  ⟨0x40020040, 1, 0x4, .sedge, 0x0, 0x100, 0x0, 0x10⟩]

/-- The registers of LF_. -/
def rowsLF : List RegRow := [
  ⟨0x40030000, 1, 0x4, .peat, 0x3FFFFFFF, 0x0, 0x0, 0x1B1EB852⟩,
  ⟨0x40030004, 1, 0x4, .sedge, 0x0, 0x0, 0x0, 0x0⟩,
  ⟨0x40030008, 1, 0x4, .sedge, 0x0, 0x8, 0x0, 0x0⟩,
  ⟨0x4003000C, 1, 0x4, .peat, 0xFFFF0FFF, 0x0, 0x0, 0x2000FFF⟩,
  ⟨0x40030010, 1, 0x4, .sedge, 0x0, 0x0, 0x0, 0x0⟩,
  ⟨0x40030040, 16, 0x4, .peat, 0xFFFFFFFF, 0x0, 0x0, 0x0⟩,
  ⟨0x40030080, 1, 0x4, .peat, 0x0, 0x0, 0x0, 0x0⟩,
  ⟨0x40030084, 1, 0x4, .peat, 0x0, 0x0, 0x0, 0x0⟩,
  ⟨0x40030100, 12, 0x4, .sedge, 0x3F, 0x80000000, 0x0, 0x0⟩]

/-- The registers of NFC_. -/
def rowsNFC : List RegRow := [
  ⟨0x40040000, 1, 0x4, .sedge, 0x0, 0x0, 0x0, 0x0⟩,
  ⟨0x40040004, 1, 0x4, .sedge, 0x0, 0x7, 0x0, 0x0⟩,
  ⟨0x40040008, 1, 0x4, .peat, 0xFF0F3F, 0x0, 0x0, 0x330A3F⟩,
  ⟨0x4004000C, 1, 0x4, .peat, 0xFFFFFFF, 0x0, 0x0, 0x40C0C0A⟩,
  ⟨0x40040010, 1, 0x4, .sedge, 0x0, 0x0, 0x0, 0x0⟩,
  ⟨0x40040014, 1, 0x4, .sedge, 0x0, 0x0, 0x0, 0x0⟩]

/-- The registers of TAG_. -/
def rowsTAG : List RegRow := [
  ⟨0x40050000, 1, 0x4, .host, 0x0, 0x80, 0x0, 0x0⟩,
  ⟨0x40050004, 1, 0x4, .host, 0x300FF, 0x0, 0x40000, 0x0⟩,
  ⟨0x40050008, 1, 0x4, .host, 0x0, 0x0, 0x0, 0x0⟩,
  ⟨0x4005000C, 1, 0x4, .host, 0x0, 0x0, 0x0, 0x0⟩,
  ⟨0x40050040, 64, 0x4, .host, 0x0, 0x0, 0x0, 0x0⟩,
  ⟨0x40050100, 1, 0x4, .peat, 0x0, 0x0, 0x0, 0x0⟩,
  ⟨0x40050104, 1, 0x4, .peat, 0x0, 0x0, 0x0, 0x0⟩,
  ⟨0x40050108, 1, 0x4, .peat, 0x0, 0x20, 0x0, 0x0⟩,
  ⟨0x4005010C, 1, 0x4, .peat, 0xF030F, 0x0, 0x0, 0x2030B⟩,
  ⟨0x40050110, 1, 0x4, .peat, 0xFF, 0x0, 0x100, 0x0⟩,
  ⟨0x40050400, 256, 0x4, .host, 0xFFFFFFFF, 0x0, 0x0, 0x0⟩]

/-- The registers of UWB_. -/
def rowsUWB : List RegRow := [
  ⟨0x40060000, 1, 0x4, .sedge, 0x0, 0x0, 0x0, 0x0⟩,
  ⟨0x40060004, 1, 0x4, .sedge, 0x0, 0x76, 0x0, 0x0⟩,
  ⟨0x40060008, 1, 0x4, .sedge, 0x0, 0x0, 0x0, 0x0⟩,
  ⟨0x4006000C, 1, 0x4, .sedge, 0xFFFFFFFF, 0x0, 0x0, 0x1401F4⟩,
  ⟨0x40060010, 1, 0x4, .sedge, 0x0, 0x0, 0x0, 0x0⟩,
  ⟨0x40060014, 1, 0x4, .sedge, 0x0, 0x0, 0x0, 0x0⟩,
  ⟨0x40060018, 1, 0x4, .peat, 0x3F, 0x0, 0x0, 0x30⟩,
  ⟨0x4006001C, 1, 0x4, .sedge, 0x0, 0x0, 0x0, 0x0⟩,
  ⟨0x40060020, 8, 0x4, .sedge, 0x8F33FC1F, 0x0, 0x0, 0xF015009⟩,
  ⟨0x40060040, 4, 0x4, .sedge, 0x1F, 0xC0000000, 0x0, 0x0⟩,
  ⟨0x40060050, 2, 0x4, .sedge, 0x0, 0x0, 0x0, 0x0⟩,
  ⟨0x40060060, 1, 0x4, .sedge, 0x0, 0x0, 0x100, 0x0⟩]

/-- The registers of DIST_. -/
def rowsDIST : List RegRow := [
  ⟨0x40070000, 1, 0x4, .sedge, 0x1, 0x0, 0x0, 0x0⟩,
  ⟨0x40070004, 1, 0x4, .sedge, 0x0, 0x0, 0x0, 0x0⟩,
  ⟨0x40070008, 1, 0x4, .sedge, 0x0, 0x0, 0x0, 0x0⟩,
  ⟨0x4007000C, 1, 0x4, .sedge, 0x0, 0x0, 0x0, 0x0⟩,
  ⟨0x40070010, 1, 0x4, .sedge, 0x0, 0x0, 0x0, 0x0⟩,
  ⟨0x40070014, 1, 0x4, .sedge, 0x0, 0x0, 0x0, 0x0⟩,
  ⟨0x40070018, 1, 0x4, .sedge, 0x0, 0x0, 0x0, 0xFFFFFFFF⟩,
  ⟨0x4007001C, 1, 0x4, .sedge, 0x0, 0x0, 0x0, 0x0⟩,
  ⟨0x40070100, 32, 0x4, .sedge, 0x801FFF00, 0x0, 0x0, 0x0⟩,
  ⟨0x40070200, 1, 0x4, .peat, 0xFF00, 0x0, 0x80000000, 0x0⟩,
  ⟨0x40070208, 1, 0x4, .peat, 0xFFFF00, 0x0, 0xC0000000, 0x0⟩,
  ⟨0x40070210, 1, 0x4, .peat, 0x0, 0x0, 0x0, 0x0⟩,
  ⟨0x40070214, 1, 0x4, .peat, 0x0, 0x0, 0x0, 0x0⟩,
  ⟨0x40070218, 1, 0x4, .peat, 0x0, 0x0, 0x0, 0x0⟩,
  ⟨0x4007021C, 1, 0x4, .peat, 0x0, 0x0, 0x0, 0x0⟩,
  ⟨0x40070220, 1, 0x4, .peat, 0x0, 0x0, 0x0, 0x0⟩,
  ⟨0x40070300, 1, 0x4, .peat, 0x0, 0x20, 0x0, 0x0⟩,
  ⟨0x40070304, 1, 0x4, .peat, 0x0, 0x0, 0x1, 0x0⟩,
  ⟨0x40070400, 4, 0x4, .peat, 0x0, 0x0, 0x0, 0x0⟩]

/-- The registers of CHN_. -/
def rowsCHN : List RegRow := [
  ⟨0x40080000, 3, 0x4, .peat, 0xFFFFFFFF, 0x0, 0x0, 0x0⟩,
  ⟨0x4008000C, 1, 0x4, .peat, 0xFFFFFFFF, 0x0, 0x0, 0xF0000000⟩,
  ⟨0x40080010, 4, 0x4, .sedge, 0x0, 0x0, 0x0, 0x0⟩,
  ⟨0x40081000, 128, 0x20, .chan, 0xF00, 0x0, 0x7, 0x0⟩,
  ⟨0x40081004, 128, 0x20, .chan, 0x200FFFF, 0x0, 0x0, 0x2000000⟩,
  ⟨0x40081008, 128, 0x20, .chan, 0xFFF, 0x0, 0x0, 0xB00⟩,
  ⟨0x4008100C, 128, 0x20, .chan, 0xFFFF03, 0x0, 0x0, 0x0⟩,
  ⟨0x40081010, 128, 0x20, .chan, 0x0, 0x0, 0x0, 0x0⟩,
  ⟨0x40081014, 128, 0x20, .chan, 0x0, 0x0, 0x0, 0x0⟩]

/-- The registers of SES_. -/
def rowsSES : List RegRow := [
  ⟨0x40090000, 1, 0x4, .sedge, 0x0, 0x0, 0x0, 0x0⟩,
  ⟨0x40090004, 1, 0x4, .peat, 0xFFFFFFFF, 0x0, 0x0, 0xA012C⟩,
  ⟨0x40090100, 256, 0x4, .sedge, 0x0, 0x0, 0x0, 0x0⟩]

/-- The registers of REL_. -/
def rowsREL : List RegRow := [
  ⟨0x400A0000, 1, 0x4, .sedge, 0x0, 0x8, 0x0, 0x0⟩,
  ⟨0x400A0004, 1, 0x4, .peat, 0x0, 0x0, 0x3, 0x0⟩,
  ⟨0x400A0008, 1, 0x4, .peat, 0xFFFF, 0x0, 0x0, 0x12C⟩,
  ⟨0x400A0010, 1, 0x4, .sedge, 0x0, 0x0, 0x0, 0x0⟩,
  ⟨0x400A0014, 1, 0x4, .sedge, 0x0, 0x0, 0x0, 0x0⟩,
  ⟨0x400A0018, 1, 0x4, .sedge, 0x0, 0x0, 0x0, 0x0⟩]

/-- The registers of KST_. -/
def rowsKST : List RegRow := [
  ⟨0x400B0000, 1, 0x4, .sedge, 0x0, 0x8, 0x0, 0x0⟩,
  ⟨0x400B0004, 1, 0x4, .peat, 0xFF0000, 0x0, 0x80000000, 0x0⟩,
  ⟨0x400B0008, 1, 0x4, .peat, 0x0, 0x0, 0x0, 0x0⟩,
  ⟨0x400B0010, 4, 0x4, .peat, 0xFFFFFFFF, 0x0, 0x0, 0x0⟩,
  ⟨0x400B0100, 64, 0x4, .sedge, 0x0, 0x0, 0x0, 0x0⟩,
  ⟨0x400B0200, 4, 0x4, .sedge, 0x0, 0x0, 0x0, 0x0⟩,
  ⟨0x400B0300, 64, 0x4, .peat, 0x0, 0x0, 0x0, 0x0⟩]

/-- The registers of TRNG_. -/
def rowsTRNG : List RegRow := [
  ⟨0x400C0000, 1, 0x4, .sedge, 0x0, 0x0, 0x0, 0x0⟩,
  ⟨0x400C0004, 1, 0x4, .sedge, 0x0, 0x0, 0x0, 0x0⟩,
  ⟨0x400C0008, 1, 0x4, .peat, 0xF00, 0x0, 0x1, 0x0⟩,
  ⟨0x400C000C, 1, 0x4, .peat, 0x1F, 0x0, 0x80000000, 0x0⟩,
  ⟨0x400C0010, 1, 0x4, .peat, 0x0, 0x1000, 0x0, 0x0⟩,
  ⟨0x400C0014, 1, 0x4, .peat, 0x0, 0x0, 0x0, 0x0⟩,
  ⟨0x400C0020, 3, 0x4, .sedge, 0x0, 0x0, 0x0, 0x0⟩,
  ⟨0x400C0100, 1, 0x4, .peat, 0x0, 0x0, 0x0, 0x0⟩]

/-- The registers of AES_. -/
def rowsAES : List RegRow := [
  ⟨0x400D0000, 1, 0x4, .sedge, 0x0, 0x0, 0x0, 0x0⟩,
  ⟨0x400D0004, 1, 0x4, .sedge, 0x0, 0x0, 0x0, 0x0⟩,
  ⟨0x400D0008, 1, 0x4, .sedge, 0x0, 0x0, 0x0, 0x0⟩,
  ⟨0x400D0010, 1, 0x4, .sedge, 0xFF, 0x0, 0x0, 0x0⟩,
  ⟨0x400D0014, 1, 0x4, .sedge, 0x0, 0x0, 0x0, 0x0⟩,
  ⟨0x400D0018, 1, 0x4, .sedge, 0x0, 0x0, 0x0, 0x0⟩]

/-- The registers of BN_. -/
def rowsBN : List RegRow := [
  ⟨0x400E0000, 1, 0x4, .sedge, 0x0, 0x0, 0x0, 0x0⟩,
  ⟨0x400E0004, 1, 0x4, .sedge, 0x0, 0x0, 0x0, 0x0⟩,
  ⟨0x400E0008, 1, 0x4, .sedge, 0x0, 0x0, 0x0, 0x3220⟩,
  ⟨0x400E000C, 1, 0x4, .sedge, 0x0, 0x0, 0x0, 0x1000080⟩,
  ⟨0x400E0010, 1, 0x4, .peat, 0x0, 0x0, 0x0, 0x0⟩,
  ⟨0x400E0014, 1, 0x4, .sedge, 0x0, 0x0, 0x0, 0x0⟩,
  ⟨0x400E0018, 1, 0x4, .sedge, 0x0, 0x0, 0x0, 0x0⟩,
  ⟨0x400E001C, 1, 0x4, .sedge, 0x0, 0x0, 0x0, 0x0⟩,
  ⟨0x400E0020, 1, 0x4, .sedge, 0x0, 0x0, 0x0, 0x0⟩]

/-- The registers of HSH_. -/
def rowsHSH : List RegRow := [
  ⟨0x400F0000, 1, 0x4, .sedge, 0x0, 0x0, 0x0, 0x0⟩,
  ⟨0x400F0004, 1, 0x4, .sedge, 0x0, 0x0, 0x0, 0x0⟩,
  ⟨0x400F0008, 1, 0x4, .sedge, 0x0, 0x0, 0x0, 0x0⟩,
  ⟨0x400F0010, 8, 0x4, .sedge, 0x0, 0x0, 0x0, 0x0⟩,
  ⟨0x400F0040, 1, 0x4, .sedge, 0x0, 0x0, 0x0, 0x0⟩,
  ⟨0x400F0044, 1, 0x4, .peat, 0x0, 0x0, 0x0, 0x0⟩,
  ⟨0x400F0050, 4, 0x4, .sedge, 0x0, 0x0, 0x0, 0x0⟩]

/-- The registers of QUE_. -/
def rowsQUE : List RegRow := [
  ⟨0x40100000, 1, 0x4, .sedge, 0x0, 0x0, 0xFFFF, 0x0⟩,
  ⟨0x40100004, 1, 0x4, .peat, 0x0, 0x0, 0xFFFF, 0x0⟩,
  ⟨0x40100010, 16, 0x4, .sedge, 0x0, 0x0, 0x0, 0x0⟩,
  ⟨0x401000D0, 2, 0x4, .sedge, 0x0, 0x0, 0x0, 0x0⟩,
  ⟨0x40100050, 16, 0x4, .sedge, 0x0, 0x80000000, 0x0, 0x0⟩,
  ⟨0x40100090, 16, 0x4, .sedge, 0x0, 0x0, 0x0, 0x0⟩,
  ⟨0x40100100, 16, 0x4, .sedge, 0x0, 0x0, 0x0, 0x0⟩,
  ⟨0x40100200, 1, 0x4, .peat, 0xFF, 0x0, 0x0, 0x0⟩,
  ⟨0x40101000, 8, 0x20, .mover, 0x4, 0x0, 0x3, 0x0⟩,
  ⟨0x40101004, 8, 0x20, .mover, 0xFFFFFFFF, 0x0, 0x0, 0x0⟩,
  ⟨0x40101008, 8, 0x20, .mover, 0xFFFFFFFF, 0x0, 0x0, 0x0⟩,
  ⟨0x4010100C, 8, 0x20, .mover, 0xFFFFFFFF, 0x0, 0x0, 0x0⟩,
  ⟨0x40101010, 8, 0x20, .mover, 0xFFFFFFFF, 0x0, 0x0, 0x0⟩,
  ⟨0x40101014, 8, 0x20, .mover, 0x0, 0x0, 0x0, 0x0⟩,
  ⟨0x40101018, 8, 0x20, .mover, 0x0, 0x0, 0x0, 0x0⟩]

/-- The registers of TMR_. -/
def rowsTMR : List RegRow := [
  ⟨0x40110000, 1, 0x4, .sedge, 0x0, 0x0, 0x0, 0x0⟩,
  ⟨0x40110004, 1, 0x4, .sedge, 0x0, 0x0, 0x0, 0x0⟩,
  ⟨0x40110008, 1, 0x4, .sedge, 0x0, 0x1, 0x0, 0x0⟩,
  ⟨0x4011000C, 1, 0x4, .peat, 0xFFFF, 0x0, 0x0, 0x0⟩,
  ⟨0x40110040, 12, 0x4, .sedge, 0x8F73000F, 0x60000000, 0x0, 0x0⟩,
  ⟨0x40110070, 4, 0x4, .peat, 0x8F73000F, 0x60000000, 0x0, 0x0⟩,
  ⟨0x40111000, 16, 0x40, .timer, 0xF81FFFFF, 0x0, 0x0, 0x0⟩,
  ⟨0x40111004, 16, 0x40, .timer, 0xFFFFFFFF, 0x0, 0x0, 0x0⟩,
  ⟨0x40111008, 16, 0x40, .timer, 0xFFFFFFFF, 0x0, 0x0, 0x0⟩,
  ⟨0x4011100C, 16, 0x40, .timer, 0xFFFFFFFF, 0x0, 0x0, 0x0⟩,
  ⟨0x40111010, 16, 0x40, .timer, 0xFFFFFFFF, 0x0, 0x0, 0x0⟩,
  ⟨0x40111014, 16, 0x40, .timer, 0xFFFFFFFF, 0x0, 0x0, 0x0⟩,
  ⟨0x40111018, 16, 0x40, .timer, 0xFFFFFFFF, 0x0, 0x0, 0x0⟩,
  ⟨0x4011101C, 16, 0x40, .timer, 0x0, 0x7F, 0x0, 0x0⟩,
  ⟨0x40111020, 16, 0x40, .timer, 0x0, 0x0, 0x0, 0x0⟩,
  ⟨0x40111024, 16, 0x40, .timer, 0x0, 0x0, 0x0, 0x0⟩]

/-- The registers of MON_. -/
def rowsMON : List RegRow := [
  ⟨0x40120000, 1, 0x4, .sedge, 0x0, 0x0, 0x1F, 0x0⟩,
  ⟨0x40120004, 1, 0x4, .sedge, 0x0, 0x0, 0x0, 0x0⟩,
  ⟨0x40120010, 4, 0x4, .sedge, 0x1F0F, 0x0, 0x0, 0x0⟩,
  ⟨0x40120020, 4, 0x8, .sedge, 0x3F3F3F3F, 0x0, 0x0, 0x0⟩,
  ⟨0x40120024, 4, 0x8, .sedge, 0x3F3F3F3F, 0x0, 0x0, 0x0⟩,
  ⟨0x40120040, 4, 0x4, .sedge, 0x0, 0x300, 0x0, 0x0⟩,
  ⟨0x40120100, 4, 0x20, .sedge, 0x0, 0x0, 0x0, 0x0⟩,
  ⟨0x40120104, 4, 0x20, .sedge, 0x0, 0x0, 0x0, 0x0⟩,
  ⟨0x40120108, 4, 0x20, .sedge, 0x0, 0x0, 0x0, 0x0⟩,
  ⟨0x4012010C, 4, 0x20, .sedge, 0x0, 0x0, 0x0, 0x0⟩,
  ⟨0x40120110, 4, 0x20, .sedge, 0x0, 0x0, 0x0, 0x0⟩,
  ⟨0x40120114, 4, 0x20, .sedge, 0x0, 0x0, 0x0, 0x0⟩,
  ⟨0x40120118, 4, 0x20, .sedge, 0x0, 0x0, 0x0, 0x0⟩,
  ⟨0x4012011C, 4, 0x20, .sedge, 0x0, 0x0, 0x0, 0x0⟩,
  ⟨0x40120180, 4, 0x4, .sedge, 0x0, 0x0, 0x0, 0x0⟩]

/-- The registers of CWY_. -/
def rowsCWY : List RegRow := [
  ⟨0x40130000, 1, 0x4, .sedge, 0x0, 0x4000, 0x0, 0x0⟩,
  ⟨0x40130004, 1, 0x4, .sedge, 0x0, 0x0, 0x0, 0x0⟩,
  ⟨0x40130010, 2, 0x4, .sedge, 0x0, 0xC0000000, 0x0, 0x0⟩,
  ⟨0x40130020, 2, 0x4, .sedge, 0x0, 0x0, 0x0, 0x0⟩,
  ⟨0x40130030, 1, 0x4, .sedge, 0x0, 0x0, 0x0, 0x0⟩,
  ⟨0x40130100, 1, 0x4, .peat, 0x781FFFFF, 0x0, 0x80000000, 0x0⟩,
  ⟨0x40130104, 1, 0x4, .peat, 0xFFFFFFFF, 0x0, 0x0, 0x0⟩,
  ⟨0x40130108, 1, 0x4, .peat, 0x0, 0x0, 0x0, 0x0⟩,
  ⟨0x4013010C, 1, 0x4, .peat, 0x800000FF, 0x0, 0x0, 0x0⟩,
  ⟨0x40130110, 1, 0x4, .peat, 0x0, 0x80000000, 0x0, 0x0⟩,
  ⟨0x40130114, 1, 0x4, .peat, 0x1, 0x0, 0x0, 0x0⟩]

/-- The registers of HIF_. -/
def rowsHIF : List RegRow := [
  ⟨0x40140000, 1, 0x4, .host, 0x0, 0x0, 0x0, 0x0⟩,
  ⟨0x40140004, 1, 0x4, .host, 0xF00, 0x4, 0x0, 0xB00⟩,
  ⟨0x40140008, 1, 0x4, .host, 0x0, 0x0, 0x0, 0x0⟩,
  ⟨0x4014000C, 1, 0x4, .host, 0x0, 0x0, 0x0, 0x0⟩,
  ⟨0x40140010, 1, 0x4, .host, 0x0, 0x0, 0x0, 0x0⟩,
  ⟨0x40140014, 1, 0x4, .host, 0x0, 0x0, 0x0, 0x0⟩,
  ⟨0x40140018, 1, 0x4, .host, 0x0, 0x0, 0x0, 0x0⟩]

/-- The registers of FLT_. -/
def rowsFLT : List RegRow := [
  ⟨0x40150000, 1, 0x4, .sedge, 0x0, 0x7F, 0x0, 0x0⟩,
  ⟨0x40150004, 1, 0x4, .sedge, 0x0, 0x0, 0x0, 0x0⟩,
  ⟨0x40150008, 1, 0x4, .sedge, 0x0, 0x0, 0x0, 0x0⟩,
  ⟨0x40150010, 6, 0x4, .sedge, 0x0, 0x0, 0x0, 0x0⟩,
  ⟨0x40150030, 1, 0x4, .sedge, 0x0, 0x0, 0x0, 0x0⟩,
  ⟨0x40150040, 1, 0x4, .sedge, 0x0, 0x0, 0x0, 0x0⟩,
  ⟨0x40150044, 1, 0x4, .sedge, 0x0, 0x0, 0x0, 0x0⟩,
  ⟨0x40150080, 1, 0x4, .peat, 0xFF, 0x0, 0x0, 0x8⟩,
  ⟨0x40150100, 1, 0x4, .sedge, 0x0, 0x1, 0x0, 0x0⟩]

/-- The registers of PRF_. -/
def rowsPRF : List RegRow := [
  ⟨0x40160000, 1, 0x4, .peat, 0x7, 0x0, 0x0, 0x0⟩,
  ⟨0x40160004, 1, 0x4, .sedge, 0x3FFFF, 0x0, 0x0, 0x0⟩,
  ⟨0x40160008, 1, 0x4, .sedge, 0x1FFFFFF, 0x0, 0x0, 0x0⟩,
  ⟨0x4016000C, 1, 0x4, .sedge, 0x0, 0x0, 0x0, 0x0⟩,
  ⟨0x40160100, 6, 0x20, .peat, 0x9F3F001F, 0x0, 0x0, 0x0⟩,
  ⟨0x40160104, 6, 0x20, .peat, 0xFFFFFFFF, 0x0, 0x0, 0x0⟩,
  ⟨0x40160108, 6, 0x20, .peat, 0xFFFFFFFF, 0x0, 0x0, 0xFFFFFFFF⟩,
  ⟨0x4016010C, 6, 0x20, .peat, 0xFFFF, 0x0, 0x0, 0x0⟩,
  ⟨0x40160110, 6, 0x20, .prfMonitor, 0x0, 0x0, 0x0, 0x0⟩,
  ⟨0x40160114, 6, 0x20, .prfMonitor, 0x0, 0x0, 0x0, 0x0⟩,
  ⟨0x40161000, 25, 0x20, .prfBlock, 0xFF, 0x100, 0x0, 0x0⟩,
  ⟨0x40161004, 25, 0x20, .prfBlock, 0xFF, 0x100, 0x0, 0x0⟩,
  ⟨0x40161008, 25, 0x20, .prfBlock, 0xFF, 0x100, 0x0, 0x0⟩,
  ⟨0x4016100C, 25, 0x20, .prfBlock, 0xFF, 0x100, 0x0, 0x0⟩,
  ⟨0x40161010, 25, 0x20, .prfBlock, 0x0, 0x0, 0x0, 0x0⟩,
  ⟨0x40161014, 25, 0x20, .prfBlock, 0x0, 0x0, 0x0, 0x0⟩,
  ⟨0x40161018, 25, 0x20, .prfBlock, 0x0, 0x0, 0x0, 0x0⟩,
  ⟨0x4016101C, 25, 0x20, .prfBlock, 0x0, 0x0, 0x0, 0x0⟩]

/-- The registers of LCS_. -/
def rowsLCS : List RegRow := [
  ⟨0x40170000, 1, 0x4, .sedge, 0x0, 0x0, 0x0, 0x0⟩,
  ⟨0x40170010, 3, 0x4, .sedge, 0x0, 0x0, 0x0, 0x0⟩]

/-- The registers of CRD_. -/
def rowsCRD : List RegRow := [
  ⟨0x40180000, 1, 0x4, .sedge, 0x0, 0x2, 0x0, 0x0⟩,
  ⟨0x40180004, 1, 0x4, .sedge, 0x0, 0x0, 0x0, 0x0⟩,
  ⟨0x40180008, 1, 0x4, .sedge, 0x0, 0x0, 0x0, 0x0⟩,
  ⟨0x4018000C, 1, 0x4, .peat, 0xFFFFF3FF, 0x0, 0x0, 0x3C05503C⟩,
  ⟨0x40180010, 4, 0x4, .sedge, 0x0, 0x0, 0x0, 0x0⟩,
  ⟨0x40180020, 1, 0x4, .sedge, 0x0, 0x0, 0x0, 0x0⟩,
  ⟨0x40180024, 1, 0x4, .sedge, 0x0, 0x0, 0x0, 0x0⟩,
  ⟨0x40180030, 1, 0x4, .peat, 0xFFFFF, 0x0, 0x80000000, 0x0⟩,
  ⟨0x40180034, 1, 0x4, .peat, 0x0, 0x0, 0x0, 0x0⟩,
  ⟨0x40180100, 32, 0x4, .sedge, 0x0, 0x0, 0x0, 0x0⟩,
  ⟨0x40180200, 64, 0x8, .sedge, 0x0, 0x0, 0x0, 0x0⟩,
  ⟨0x40180204, 64, 0x8, .sedge, 0x0, 0x0, 0x0, 0x0⟩]

/-- The rows of block n (R29); blocks without registers and the reserved blocks have none. -/
def rowsOf (n : Nat) : List RegRow :=
  match n with
  | 0 => rowsSYS
  | 2 => rowsPWR
  | 3 => rowsLF
  | 4 => rowsNFC
  | 5 => rowsTAG
  | 6 => rowsUWB
  | 7 => rowsDIST
  | 8 => rowsCHN
  | 9 => rowsSES
  | 10 => rowsREL
  | 11 => rowsKST
  | 12 => rowsTRNG
  | 13 => rowsAES
  | 14 => rowsBN
  | 15 => rowsHSH
  | 16 => rowsQUE
  | 17 => rowsTMR
  | 18 => rowsMON
  | 19 => rowsCWY
  | 20 => rowsHIF
  | 21 => rowsFLT
  | 22 => rowsPRF
  | 23 => rowsLCS
  | 24 => rowsCRD
  | _ => []

/-- The first row that holds the address, with the index of the register in the row. -/
def findRow : List RegRow → Nat → Option (RegRow × Nat)
  | [], _ => none
  | r :: rs, a =>
    if r.base ≤ a ∧ a < r.base + r.count * r.stride ∧ (a - r.base) % r.stride = 0 then
      some (r, (a - r.base) / r.stride)
    else findRow rs a

/-- The row of an address; none for a reserved offset (R10) and outside the block registers. -/
def regRow (a : Nat) : Option (RegRow × Nat) :=
  if 0x40000000 ≤ a ∧ a < 0x41000000 then findRow (rowsOf (a / 0x10000 % 0x100)) a else none

/-- The value a register holds after a start (R11); 0 where the table says eNVM, section or cause (log entry 4). -/
def resetWord (a : Nat) : Word :=
  match regRow a with
  | some (r, _) => r.reset
  | none => 0

end Machine
end Sys2Proof
end

