-- ==== Sys2Proof/Machine/Ops.lean ====
section
/-!
DEFINITION. The shared operations: sparse tables, bit fields, byte strings, memory, registers, free values, refused
accesses, interrupts and time.
-/
namespace Sys2Proof
namespace Machine

/-! ### Sparse tables -/

/-- The entry of a key, if the table lists it. -/
def tfind {α : Type} : Tab α → Nat → Option α
  | [], _ => none
  | (k, v) :: t, i => if i = k then some v else tfind t i

/-- The entry of a key, or the default. -/
def tget {α : Type} (t : Tab α) (i : Nat) (d : α) : α := (tfind t i).getD d

/-- Lists an entry, in key order. -/
def tput {α : Type} : Tab α → Nat → α → Tab α
  | [], i, v => [(i, v)]
  | (k, w) :: t, i, v =>
    if i = k then (k, v) :: t else if i < k then (i, v) :: (k, w) :: t else (k, w) :: tput t i v

/-- Removes an entry. -/
def tdel {α : Type} : Tab α → Nat → Tab α
  | [], _ => []
  | (k, w) :: t, i => if i = k then tdel t i else (k, w) :: tdel t i

/-- Writes an entry where `d` is what an unlisted key reads as: writing `d` removes the entry. -/
def tset {α : Type} [DecidableEq α] (t : Tab α) (i : Nat) (v d : α) : Tab α :=
  if v = d then tdel t i else tput t i v

/-- The keys rise strictly. -/
def trising {α : Type} : Tab α → Bool
  | [] => true
  | [_] => true
  | a :: b :: t => decide (a.1 < b.1) && trising (b :: t)

/-- Applies a change to the entry of a key, starting from `d`. -/
def tmod {α : Type} (t : Tab α) (i : Nat) (d : α) (f : α → α) : Tab α := tput t i (f (tget t i d))

/-! ### Bit fields, words and bytes (R5, R6) -/

/-- Bits [hi:lo] of a word. -/
def fld (w : Word) (hi lo : Nat) : Nat := w.toNat / 2 ^ lo % 2 ^ (hi - lo + 1)

/-- Bit i of a word. -/
def bit (w : Word) (i : Nat) : Bool := w.getLsbD i

/-- A word with bits [hi:lo] replaced. -/
def setFld (w : Word) (hi lo v : Nat) : Word :=
  BitVec.ofNat 32 (w.toNat - fld w hi lo * 2 ^ lo + v % 2 ^ (hi - lo + 1) * 2 ^ lo)

/-- The number a Bool stands for. -/
def b2n (b : Bool) : Nat := if b then 1 else 0

/-- A word from a number, modulo 2^32. -/
def w32 (n : Nat) : Word := BitVec.ofNat 32 n

/-- A byte from a number, modulo 2^8. -/
def by8 (n : Nat) : Byte := BitVec.ofNat 8 n

/-- The number a byte string spells, least significant byte first (R6). -/
def ofLE : Bytes → Nat
  | [] => 0
  | b :: t => b.toNat + 256 * ofLE t

/-- n bytes of a number, least significant first. -/
def toLE : Nat → Nat → Bytes
  | 0, _ => []
  | n + 1, v => by8 (v % 256) :: toLE n (v / 256)

/-- The number a byte string spells, most significant byte first. -/
def ofBE (b : Bytes) : Nat := b.foldl (fun a x => a * 256 + x.toNat) 0

/-- n bytes of a number, most significant first. -/
def toBE (n v : Nat) : Bytes := (toLE n v).reverse

/-- n zero bytes. -/
def zeros (n : Nat) : Bytes := List.replicate n 0

/-- n bytes of a string from offset i; zero beyond its end. -/
def slice (b : Bytes) (i n : Nat) : Bytes :=
  let c := (b.drop i).take n
  c ++ zeros (n - c.length)

/-- Byte i of a string, 0 beyond its end. -/
def byteAt (b : Bytes) (i : Nat) : Nat := (b.getD i 0).toNat

/-- The 16-bit value at offset i. -/
def le16 (b : Bytes) (i : Nat) : Nat := ofLE (slice b i 2)

/-- The 32-bit value at offset i. -/
def le32 (b : Bytes) (i : Nat) : Nat := ofLE (slice b i 4)

/-- A string with the bytes from offset i replaced, its length kept. -/
def patch (b : Bytes) (i : Nat) (p : Bytes) : Bytes :=
  (slice b 0 i ++ p ++ b.drop (i + p.length)).take (max b.length (i + p.length))

/-- The words of a byte string, least significant byte first, the last filled with zeros. -/
def toWords : Bytes → List Word
  | [] => []
  | [a] => [w32 a.toNat]
  | [a, b] => [w32 (a.toNat + 256 * b.toNat)]
  | [a, b, c] => [w32 (a.toNat + 256 * b.toNat + 65536 * c.toNat)]
  | a :: b :: c :: d :: t => w32 (a.toNat + 256 * b.toNat + 65536 * c.toNat + 16777216 * d.toNat) :: toWords t

/-- The bytes of words, least significant byte first. -/
def ofWords (ws : List Word) : Bytes := ws.flatMap fun w => toLE 4 w.toNat

/-- Word i of a list, 0 beyond its end. -/
def wordAt (ws : List Word) (i : Nat) : Word := ws.getD i 0

/-- The value of a two's-complement field of w bits. -/
def sgn (w n : Nat) : Int := if n < 2 ^ (w - 1) then n else (n : Int) - 2 ^ w

/-- The field of w bits that holds an integer, modulo 2^w. -/
def unsgn (w : Nat) (i : Int) : Nat := (i % (2 ^ w : Nat)).toNat

/-- An integer held at the limits lo and hi. -/
def clampI (lo hi i : Int) : Int := max lo (min hi i)

/-- Bytewise exclusive or, over the shorter string. -/
def xorB (a b : Bytes) : Bytes := List.zipWith (· ^^^ ·) a b

/-- A bit of a mask held as a number. -/
def testBit (m i : Nat) : Bool := Nat.testBit m i

/-- A mask with bit i set, or clear. -/
def putBit (m i : Nat) (b : Bool) : Nat := m - (if testBit m i then 2 ^ i else 0) + (if b then 2 ^ i else 0)

/-- The set bits of a mask below n, lowest first. -/
def bitsOf (n m : Nat) : List Nat := (List.range n).filter (testBit m)

/-- How many bits below n are set. -/
def popCount (n m : Nat) : Nat := (bitsOf n m).length

/-! ### Memory -/

/-- The byte of an address, where an unlisted address reads `d`. -/
def cellGet (m : List Host.Cell) (a : Nat) (d : Byte) : Byte := tget m a d

/-- Writes one byte, keeping the canonical form. -/
def cellSet (m : List Host.Cell) (a : Nat) (v d : Byte) : List Host.Cell := tset m a v d

/-- The canonical form of a memory: addresses strictly rising, no entry equal to the default. -/
def cellWf (m : List Host.Cell) (d : Byte) : Bool := trising m && m.all fun c => decide (c.2 ≠ d)

/-- n bytes from an address. -/
def cellRead (m : List Host.Cell) (d : Byte) : Nat → Nat → Bytes
  | _, 0 => []
  | a, n + 1 => cellGet m a d :: cellRead m d (a + 1) n

/-- Writes a byte string from an address. -/
def cellWrite (d : Byte) : List Host.Cell → Nat → Bytes → List Host.Cell
  | m, _, [] => m
  | m, a, b :: t => cellWrite d (cellSet m a b d) (a + 1) t

/-- What an unlisted byte of the addressed memories reads as (log entry 6). -/
def memDefault : Byte := 0

/-- What an unlisted byte of the serial flash reads as (log entry 5). -/
def flashDefault : Byte := 0xFF

/-- The canonical form of the addressed memories. -/
def memWf (s : State) : Bool := cellWf s.mem memDefault

/-- The canonical form of the flash. -/
def flashWf (s : State) : Bool := cellWf s.flash flashDefault

/-- Bytes of the addressed memories. -/
def State.memRead (s : State) (a n : Nat) : Bytes := cellRead s.mem memDefault a n

/-- Writes bytes of the addressed memories. -/
def State.memWrite (s : State) (a : Nat) (b : Bytes) : State := { s with mem := cellWrite memDefault s.mem a b }

/-- Bytes of the serial flash. -/
def State.flashRead (s : State) (a n : Nat) : Bytes := cellRead s.flash flashDefault a n

/-- Programs bytes of the serial flash. -/
def State.flashWrite (s : State) (a : Nat) (b : Bytes) : State :=
  { s with flash := cellWrite flashDefault s.flash a b }

/-! ### Registers (R8 to R11) -/

/-- What a register holds: the stored word, or its reset value. -/
def State.reg (s : State) (a : Nat) : Word := tget s.regs a (resetWord a)

/-- Stores a register's word. -/
def State.setReg (s : State) (a : Nat) (v : Word) : State := { s with regs := tset s.regs a v (resetWord a) }

/-- A field of a register. -/
def State.rf (s : State) (a hi lo : Nat) : Nat := fld (s.reg a) hi lo

/-- A bit of a register. -/
def State.rb (s : State) (a i : Nat) : Bool := bit (s.reg a) i

/-- Sets a field of a register. -/
def State.srf (s : State) (a hi lo v : Nat) : State := s.setReg a (setFld (s.reg a) hi lo v)

/-- Sets a bit of a register. -/
def State.srb (s : State) (a i : Nat) (b : Bool) : State := s.srf a i i (b2n b)

/-- Advances a counting field, modulo its width. -/
def State.bump (s : State) (a hi lo n : Nat) : State := s.srf a hi lo (s.rf a hi lo + n)

/-- Advances a counting field that stops at its largest value. -/
def State.bumpSat (s : State) (a hi lo n : Nat) : State :=
  s.srf a hi lo (min (2 ^ (hi - lo + 1) - 1) (s.rf a hi lo + n))

/-- A write of the RW and W1C bits of a register (R8, R10). -/
def maskWrite (r : RegRow) (old v : Word) : Word := ((old &&& ~~~r.rw) ||| (v &&& r.rw)) &&& ~~~(v &&& r.w1c)

/-- Returns the registers of the rows to their reset values. -/
def State.resetRegs (s : State) (keep : Nat → Bool) : State := { s with regs := s.regs.filter fun e => keep e.1 }

/-! ### Free values (log entry 7) -/

/-- A word the spec leaves open. -/
def State.freeW (s : State) : Word × State := (Config.freeWord s.freeCtr, { s with freeCtr := s.freeCtr + 1 })

/-- The next n free bytes. -/
def freeB : Nat → Nat → Bytes
  | _, 0 => []
  | c, n + 1 => Config.freeByte c :: freeB (c + 1) n

/-- n bytes the spec leaves open. -/
def State.freeBytes (s : State) (n : Nat) : Bytes × State := (freeB s.freeCtr n, { s with freeCtr := s.freeCtr + n })

/-! ### Time -/

/-- Milliseconds in XO cycles (R23). -/
def ms (n : Nat) : Nat := n * 27120

/-- Seconds in XO cycles. -/
def secs (n : Nat) : Nat := n * 27120000

/-- SYSTIME bits [31:0]. -/
def State.sysLo (s : State) : Word := w32 s.sysTime.toNat

/-- SYSTIME as a number. -/
def State.sys (s : State) : Nat := s.sysTime.toNat

/-! ### Interrupts and outcomes -/

/-- Raises an interrupt. -/
def State.raise (s : State) (i : Irq) : State := { s with irqs := if i ∈ s.irqs then s.irqs else s.irqs ++ [i] }

/-- Applies a change where a condition holds. -/
def State.onlyIf (s : State) (c : Bool) (f : State → State) : State := if c then f s else s

/-- Applies a change for each element of a list, in order. -/
def State.each {α : Type} (s : State) (l : List α) (f : State → α → State) : State := l.foldl f s

/-- Whether software runs. -/
def State.resumed (s : State) : Bool := decide (s.power.mode = .resumed)

/-! ### Masters and refused accesses (R9, R18, R469) -/

/-- The master's port number (R18). -/
def portNo (m : Master) : Nat :=
  match m with
  | .peat => 0 | .sedge => 1 | .host => 2 | .mover => 3 | .sequencer => 4 | .causeway => 5

/-- Records a refused access (R469); a refused host word also in HIF_REFUSED, WORDS and ERR (R434). -/
def State.refuse (s : State) (m : Master) (write : Bool) (a : Nat) : State :=
  let s := s.bump aFLT_REFUSED 31 16 1
  let s := s.srf aFLT_REFUSED 2 0 (portNo m)
  let s := s.srb aFLT_REFUSED 15 write
  let s := s.setReg aFLT_REFADDR (w32 a)
  if m = .host then
    ((s.bump aHIF_ERR 31 24 1).srb aHIF_ATTN 2 true).setReg aHIF_REFUSED (setFld (setFld (w32 (a % 0x1000000)) 24 24 (b2n (decide (a / 0x1000000 = 0x60)))) 25 25
      (b2n write))
  else s

/-- The answer of a command that completes. -/
def done (s : State) : Result := .next s

/-- A core whose access is refused, or meets a double-bit error, takes its access-fault exception (R32, R470): it is raised;
what the core's handler does is software. -/
def State.accessFault (s : State) (m : Master) : State :=
  match m with
  | .peat => s.raise .peatFault
  | .sedge => s.raise .sedgeFault
  | _ => s

/-- The bits of a register under a mask become unpredictable (R14, R15): they take a free value (log entry 7). -/
def State.freeIn (s : State) (a : Nat) (mask : Word) : State :=
  let x := s.freeW
  x.2.setReg a ((x.2.reg a &&& ~~~mask) ||| (x.1 &&& mask))

end Machine
end Sys2Proof
end

