-- ==== Sys2Proof/Machine/Aes.lean ====
section
/-!
DEFINITION. The AES functions that R332 names by their standards: FIPS 197, SP 800-38A, 38B, 38C, 38D, 38F and
IEEE 1619. The spec names the standards and does not print them; these texts are PRESUMED from them (log entry 8).
-/
namespace Sys2Proof
namespace Machine

/-- Multiplication by x in GF(2^8) (FIPS 197). -/
def xtime (b : Byte) : Byte := (b <<< 1) ^^^ (if b.getLsbD 7 then 0x1B else 0)

/-- Multiplication in GF(2^8), over the low n bits of b. -/
def gmulN : Nat → Byte → Byte → Byte
  | 0, _, _ => 0
  | n + 1, a, b => (if b.getLsbD 0 then a else 0) ^^^ gmulN n (xtime a) (b >>> 1)

/-- Multiplication in GF(2^8). -/
def gmul (a b : Byte) : Byte := gmulN 8 a b

/-- The inverse in GF(2^8), 0 for 0. -/
def ginv (b : Byte) : Byte :=
  let b2 := gmul b b
  let b4 := gmul b2 b2
  let b8 := gmul b4 b4
  let b16 := gmul b8 b8
  let b32 := gmul b16 b16
  let b64 := gmul b32 b32
  gmul b2 (gmul b4 (gmul b8 (gmul b16 (gmul b32 (gmul b64 (gmul b64 b64))))))

/-- The S-box. -/
def sbox (b : Byte) : Byte :=
  let i := ginv b
  i ^^^ i.rotateLeft 1 ^^^ i.rotateLeft 2 ^^^ i.rotateLeft 3 ^^^ i.rotateLeft 4 ^^^ 0x63

/-- The inverse S-box. -/
def invSbox (b : Byte) : Byte := ginv (b.rotateLeft 1 ^^^ b.rotateLeft 3 ^^^ b.rotateLeft 6 ^^^ 0x05)

/-- One more word of the key schedule; the words so far come newest first. -/
def keyWord (nk : Nat) (acc : List Bytes) : Bytes :=
  let i := acc.length
  let t := acc.headD []
  let t :=
    if i % nk = 0 then
      let r := (t.drop 1 ++ t.take 1).map sbox
      xorB r [(List.range (i / nk - 1)).foldl (fun x _ => xtime x) 1, 0, 0, 0]
    else if nk > 6 ∧ i % nk = 4 then t.map sbox
    else t
  xorB t (acc.getD (nk - 1) [])

/-- The words of a string of 4-byte words. -/
def words4 : Nat → Bytes → List Bytes
  | 0, _ => []
  | n + 1, b => b.take 4 :: words4 n (b.drop 4)

/-- The 16-byte blocks of a string, n of them, filled with zeros. -/
def blocks16 : Nat → Bytes → List Bytes
  | 0, _ => []
  | n + 1, b => slice b 0 16 :: blocks16 n (b.drop 16)

/-- The round keys of a key of 16, 24 or 32 bytes. -/
def roundKeys (key : Bytes) : List Bytes :=
  let nk := key.length / 4
  let first := (words4 nk key).reverse
  let ws := (List.range (4 * (nk + 7) - nk)).foldl (fun acc _ => keyWord nk acc :: acc) first
  blocks16 (nk + 7) ws.reverse.flatten

/-- SubBytes and ShiftRows. -/
def subShift (b : Bytes) : Bytes :=
  [0, 5, 10, 15, 4, 9, 14, 3, 8, 13, 2, 7, 12, 1, 6, 11].map fun i => sbox (b.getD i 0)

/-- The inverse of ShiftRows and SubBytes. -/
def invSubShift (b : Bytes) : Bytes :=
  [0, 13, 10, 7, 4, 1, 14, 11, 8, 5, 2, 15, 12, 9, 6, 3].map fun i => invSbox (b.getD i 0)

/-- A column times the circulant matrix whose first row is given. -/
def mixCol (r0 r1 r2 r3 : Byte) (c : Bytes) : Bytes :=
  let a := c.getD 0 0
  let b := c.getD 1 0
  let d := c.getD 2 0
  let e := c.getD 3 0
  [gmul r0 a ^^^ gmul r1 b ^^^ gmul r2 d ^^^ gmul r3 e, gmul r3 a ^^^ gmul r0 b ^^^ gmul r1 d ^^^ gmul r2 e,
   gmul r2 a ^^^ gmul r3 b ^^^ gmul r0 d ^^^ gmul r1 e, gmul r1 a ^^^ gmul r2 b ^^^ gmul r3 d ^^^ gmul r0 e]

/-- MixColumns. -/
def mixColumns (b : Bytes) : Bytes := (words4 4 b).flatMap (mixCol 2 3 1 1)

/-- The inverse of MixColumns. -/
def invMixColumns (b : Bytes) : Bytes := (words4 4 b).flatMap (mixCol 14 11 13 9)

/-- The rounds of encryption after the first key addition. -/
def encRounds : List Bytes → Bytes → Bytes
  | [], b => b
  | [k], b => xorB (subShift b) k
  | k :: ks, b => encRounds ks (xorB (mixColumns (subShift b)) k)

/-- The rounds of decryption after the first key addition; the keys come last round first. -/
def decRounds : List Bytes → Bytes → Bytes
  | [], b => b
  | [k], b => xorB (invSubShift b) k
  | k :: ks, b => decRounds ks (invMixColumns (xorB (invSubShift b) k))

/-- AES encryption of one block under round keys. -/
def encBlock (rk : List Bytes) (b : Bytes) : Bytes := encRounds (rk.drop 1) (xorB b (rk.headD []))

/-- AES decryption of one block under round keys. -/
def decBlock (rk : List Bytes) (b : Bytes) : Bytes :=
  let r := rk.reverse
  decRounds (r.drop 1) (xorB b (r.headD []))

/-- AES encryption of one block under a key. -/
def aesEnc (key b : Bytes) : Bytes := encBlock (roundKeys key) b

/-- How many 16-byte blocks hold n bytes. -/
def nBlocks (n : Nat) : Nat := (n + 15) / 16

/-- ECB encryption of whole blocks. -/
def ecbEnc (key data : Bytes) : Bytes :=
  let rk := roundKeys key
  (blocks16 (nBlocks data.length) data).flatMap (encBlock rk)

/-! ### XTS (IEEE 1619, R333) -/

/-- Multiplication of a tweak by alpha. -/
def xtsAlpha (t : Bytes) : Bytes :=
  let n := ofLE t * 2
  toLE 16 (if n ≥ 2 ^ 128 then Nat.xor (n - 2 ^ 128) 135 else n)

/-- The blocks of a data unit from a tweak value on. -/
def xtsBlocks (dec : Bool) (rk : List Bytes) : Bytes → List Bytes → Bytes
  | _, [] => []
  | t, b :: bs =>
    let x := xorB b t
    xorB (if dec then decBlock rk x else encBlock rk x) t ++ xtsBlocks dec rk (xtsAlpha t) bs

/-- XTS over one data unit: the first half of the key is the data key, the second the tweak key. -/
def xts (dec : Bool) (key tweak data : Bytes) : Bytes :=
  let h := key.length / 2
  xtsBlocks dec (roundKeys (key.take h)) (aesEnc (key.drop h) tweak) (blocks16 (data.length / 16) data)

/-! ### GCM (SP 800-38D) -/

/-- The product in GF(2^128) of GCM, over the top n bits of x not yet taken. -/
def ghashMulN : Nat → BitVec 128 → BitVec 128 → BitVec 128
  | 0, _, _ => 0
  | n + 1, x, v =>
    (if x.getLsbD n then v else 0) ^^^
      ghashMulN n x ((v >>> 1) ^^^ (if v.getLsbD 0 then BitVec.ofNat 128 (0xE1 * 2 ^ 120) else 0))

/-- GHASH over blocks. -/
def ghash (h : BitVec 128) (bs : List Bytes) : BitVec 128 :=
  bs.foldl (fun y b => ghashMulN 128 (y ^^^ BitVec.ofNat 128 (ofBE b)) h) 0

/-- The counter block n with a 32-bit big-endian counter. -/
def gcmCtr (iv : Bytes) (n : Nat) : Bytes := iv ++ toBE 4 n

/-- CTR encryption with GCM counter blocks from n. -/
def gcmStream (rk : List Bytes) (iv : Bytes) : Nat → List Bytes → Bytes
  | _, [] => []
  | n, b :: bs => xorB b (encBlock rk (gcmCtr iv n)) ++ gcmStream rk iv (n + 1) bs

/-- CTR over a string that may end in a short block. -/
def gcmCrypt (rk : List Bytes) (iv data : Bytes) : Bytes :=
  (gcmStream rk iv 2 (blocks16 (nBlocks data.length) data)).take data.length

/-- The full GCM tag of AAD and ciphertext under a 12-byte IV. -/
def gcmTag (rk : List Bytes) (iv aad ct : Bytes) : Bytes :=
  let h := BitVec.ofNat 128 (ofBE (encBlock rk (zeros 16)))
  let bs := blocks16 (nBlocks aad.length) aad ++ blocks16 (nBlocks ct.length) ct ++
    [toBE 8 (8 * aad.length) ++ toBE 8 (8 * ct.length)]
  xorB (toBE 16 (ghash h bs).toNat) (encBlock rk (gcmCtr iv 1))

/-- GCM seal: ciphertext, then tag. -/
def gcmSeal (key iv aad pt : Bytes) (tagLen : Nat) : Bytes :=
  let rk := roundKeys key
  let ct := gcmCrypt rk iv pt
  ct ++ (gcmTag rk iv aad ct).take tagLen

/-- GCM open: the plaintext where the tag verifies. -/
def gcmOpen (key iv aad ct tag : Bytes) : Option Bytes :=
  let rk := roundKeys key
  if (gcmTag rk iv aad ct).take tag.length = tag then some (gcmCrypt rk iv ct) else none

/-! ### CMAC (SP 800-38B) -/

/-- Doubling in GF(2^128), most significant byte first. -/
def cmacDbl (b : Bytes) : Bytes :=
  let n := ofBE b * 2
  toBE 16 (if n ≥ 2 ^ 128 then Nat.xor (n - 2 ^ 128) 0x87 else n)

/-- CBC-MAC of whole blocks from a chaining value. -/
def cbcMac (rk : List Bytes) (x : Bytes) (bs : List Bytes) : Bytes :=
  bs.foldl (fun x b => encBlock rk (xorB x b)) x

/-- CMAC of a message, 16 bytes. -/
def cmac (key msg : Bytes) : Bytes :=
  let rk := roundKeys key
  let k1 := cmacDbl (encBlock rk (zeros 16))
  let n := max 1 (nBlocks msg.length)
  let last := msg.drop (16 * (n - 1))
  let final := if last.length = 16 then xorB last k1 else xorB (slice (last ++ [0x80]) 0 16) (cmacDbl k1)
  cbcMac rk (zeros 16) (blocks16 (n - 1) msg ++ [final])

/-! ### CCM (SP 800-38C) -/

/-- The blocks of the formatted AAD. -/
def ccmAad (aad : Bytes) : List Bytes :=
  if aad.length = 0 then []
  else
    let b := (if aad.length < 0xFF00 then toBE 2 aad.length else [0xFF, 0xFE] ++ toBE 4 aad.length) ++ aad
    blocks16 (nBlocks b.length) b

/-- The CCM tag before encryption. -/
def ccmMac (rk : List Bytes) (nonce aad pt : Bytes) (tagLen : Nat) : Bytes :=
  let l := 15 - nonce.length
  let b0 := by8 ((if aad.length > 0 then 64 else 0) + 8 * ((tagLen - 2) / 2) + (l - 1)) :: nonce ++ toBE l pt.length
  cbcMac rk (zeros 16) (b0 :: ccmAad aad ++ blocks16 (nBlocks pt.length) pt)

/-- The counter block n. -/
def ccmCtr (nonce : Bytes) (n : Nat) : Bytes :=
  let l := 15 - nonce.length
  by8 (l - 1) :: nonce ++ toBE l n

/-- CTR encryption with CCM counter blocks from n. -/
def ccmStream (rk : List Bytes) (nonce : Bytes) : Nat → List Bytes → Bytes
  | _, [] => []
  | n, b :: bs => xorB b (encBlock rk (ccmCtr nonce n)) ++ ccmStream rk nonce (n + 1) bs

/-- CTR over a string that may end in a short block. -/
def ccmCrypt (rk : List Bytes) (nonce data : Bytes) : Bytes :=
  (ccmStream rk nonce 1 (blocks16 (nBlocks data.length) data)).take data.length

/-- CCM seal: ciphertext, then tag. -/
def ccmSeal (key nonce aad pt : Bytes) (tagLen : Nat) : Bytes :=
  let rk := roundKeys key
  let t := xorB (ccmMac rk nonce aad pt tagLen) (encBlock rk (ccmCtr nonce 0))
  ccmCrypt rk nonce pt ++ t.take tagLen

/-- CCM open: the plaintext where the tag verifies. -/
def ccmOpen (key nonce aad ct tag : Bytes) : Option Bytes :=
  let rk := roundKeys key
  let pt := ccmCrypt rk nonce ct
  let t := xorB (ccmMac rk nonce aad pt tag.length) (encBlock rk (ccmCtr nonce 0))
  if t.take tag.length = tag then some pt else none

/-! ### Key wrap (SP 800-38F KW) -/

/-- The 8-byte blocks of a string. -/
def blocks8 : Nat → Bytes → List Bytes
  | 0, _ => []
  | n + 1, b => slice b 0 8 :: blocks8 n (b.drop 8)

/-- The t-th of the 6n steps of wrapping. -/
def kwStep (rk : List Bytes) (n : Nat) (x : Bytes × List Bytes) (t : Nat) : Bytes × List Bytes :=
  let i := t % n
  let b := encBlock rk (x.1 ++ x.2.getD i [])
  (xorB (b.take 8) (toBE 8 (t + 1)), x.2.set i (b.drop 8))

/-- The t-th step, undone. -/
def kwUnstep (rk : List Bytes) (n : Nat) (x : Bytes × List Bytes) (t : Nat) : Bytes × List Bytes :=
  let i := t % n
  let b := decBlock rk (xorB x.1 (toBE 8 (t + 1)) ++ x.2.getD i [])
  (b.take 8, x.2.set i (b.drop 8))

/-- Key wrap. -/
def kwWrap (key data : Bytes) : Bytes :=
  let n := data.length / 8
  let r := (List.range (6 * n)).foldl (kwStep (roundKeys key) n) (List.replicate 8 0xA6, blocks8 n data)
  r.1 ++ r.2.flatten

/-- Key unwrap: the key where the integrity value is right. -/
def kwUnwrap (key data : Bytes) : Option Bytes :=
  let n := data.length / 8 - 1
  let r := (List.range (6 * n)).reverse.foldl (kwUnstep (roundKeys key) n) (data.take 8, blocks8 n (data.drop 8))
  if r.1 = List.replicate 8 0xA6 then some r.2.flatten else none

end Machine
end Sys2Proof
end

