-- ==== Sys2Proof/Machine/Flags.lean ====
section
/-!
DEFINITION. The common status codes (R16) and their order of precedence (R17), and the checks the device computes over
byte strings.
-/
namespace Sys2Proof
namespace Machine

/-- OK. -/
abbrev cOk : Byte := 0x00
/-- PENDING. -/
abbrev cPending : Byte := 0x01
/-- CANCELLED_ORDER. -/
abbrev cCancelled : Byte := 0x02
/-- LEN_ZERO. -/
abbrev cLenZero : Byte := 0x03
/-- INPUT_REDUCED. -/
abbrev cReduced : Byte := 0x04
/-- POINT_INVALID. -/
abbrev cPoint : Byte := 0x05
/-- TAG_FAIL. -/
abbrev cTagFail : Byte := 0x06
/-- KEY_EMPTY. -/
abbrev cKeyEmpty : Byte := 0x07
/-- FAULT_ALARM. -/
abbrev cAlarm : Byte := 0x08
/-- RNG_FAIL. -/
abbrev cRngFail : Byte := 0x09
/-- TX_LATE. -/
abbrev cTxLate : Byte := 0x0A
/-- CAL_STALE. -/
abbrev cCalStale : Byte := 0x0B
/-- LOCKED_OUT. -/
abbrev cLocked : Byte := 0x0C
/-- AUTH_FAIL. -/
abbrev cAuthFail : Byte := 0x0D
/-- REVOKED. -/
abbrev cRevoked : Byte := 0x0E
/-- NOT_ENROLLED. -/
abbrev cNotEnrolled : Byte := 0x0F
/-- DIST_FAIL. -/
abbrev cDistFail : Byte := 0x10
/-- FIELD_WEAK. -/
abbrev cFieldWeak : Byte := 0x11
/-- TORN. -/
abbrev cTorn : Byte := 0x12
/-- ABORTED. -/
abbrev cAborted : Byte := 0x13
/-- NO_SESSION. -/
abbrev cNoSession : Byte := 0x14
/-- ZERO_SHARED. -/
abbrev cZeroShared : Byte := 0x15

/-- A failure code: any but OK, PENDING, INPUT_REDUCED and ZERO_SHARED (R106, R107; log entry 18). -/
def isFail (c : Byte) : Bool := decide (c ≠ cOk ∧ c ≠ cPending ∧ c ≠ cReduced ∧ c ≠ cZeroShared)

/-- The first of R17's order among the conditions met, given in the order in which they were met. -/
def firstStatus (l : List Byte) : Byte :=
  if cAlarm ∈ l then cAlarm
  else if cRngFail ∈ l then cRngFail
  else if cAborted ∈ l then cAborted
  else if cCancelled ∈ l then cCancelled
  else if cLenZero ∈ l then cLenZero
  else match l.find? isFail with
    | some c => c
    | none => if cZeroShared ∈ l then cZeroShared else if cReduced ∈ l then cReduced else cOk

/-- The code of the first check that holds, cOk where none does. -/
def firstOf : List (Bool × Byte) → Byte
  | [] => cOk
  | (b, c) :: t => if b then c else firstOf t

/-- One byte of a reflected CRC of w bits. -/
def crcByte (poly : Nat) (c : Nat) (b : Byte) : Nat :=
  (List.range 8).foldl (fun c _ => if c % 2 = 1 then Nat.xor (c / 2) poly else c / 2) (Nat.xor c b.toNat)

/-- CRC-32C: reflected, initial value and final XOR of all ones (R430). -/
def crc32c (b : Bytes) : Nat := Nat.xor (b.foldl (crcByte 0x82F63B78) 0xFFFFFFFF) 0xFFFFFFFF

/-- One byte of a CRC-8 with the high bit first. -/
def crc8Byte (poly : Nat) (c : Nat) (b : Byte) : Nat :=
  (List.range 8).foldl (fun c _ => if c ≥ 128 then Nat.xor (c * 2 % 256) poly else c * 2 % 256) (Nat.xor c b.toNat)

/-- A CRC-8 with the high bit first. -/
def crc8 (poly init : Nat) (b : Bytes) : Nat := b.foldl (crc8Byte poly) init

end Machine
end Sys2Proof
end

