-- ==== Sys2Proof/Machine/Access.lean ====
section
/-!
DEFINITION. Who may access what: register owners (R9), reserved offsets (R10), the host access policy (R31, R438), the
named readers of PRF_ (R483); the parts of the configuration in use; and the counting of accesses and events (R476, R480).
-/
namespace Sys2Proof
namespace Machine

/-! ### The configuration in use (R59, R60, R70) -/

/-- The bytes of a section in use. -/
def State.sect (s : State) (typ inst : Nat) : Option Bytes := tfind s.cfg.sections (typ * 256 + inst)

/-- The part of a type among the parts of a POLICY section: PTYPE, a reserved byte, PLEN and the padded body (R70). -/
def findPart (pt : Nat) : Nat → Bytes → Option Bytes
  | 0, _ => none
  | n + 1, b =>
    let len := le16 b 2
    if b.length < 4 then none
    else if byteAt b 0 = pt then some (slice b 4 len)
    else findPart pt n (b.drop (4 + (len + 3) / 4 * 4))

/-- A part of the POLICY section in use. -/
def State.policy (s : State) (pt : Nat) : Option Bytes :=
  match s.sect 9 0 with
  | some b => findPart pt (byteAt b 1) (b.drop 4)
  | none => none

/-! ### Software that runs -/

/-- An open debug level gives JTAG a core (R95): level 1 Sedge's, level 2 Peat's too. A JTAG access is one of that core. -/
def State.jtagHas (s : State) (peat : Bool) : Bool :=
  decide (s.peat.debugLevel = 2 ∨ (peat = false ∧ s.peat.debugLevel = 1))

/-- The master can make accesses: the unit is resumed, and for Peat and Sedge their core runs or is open to JTAG (R34, R62,
R81, R95). In SCRAPPED Peat goes on answering without a configuration (R94). -/
def State.up (s : State) (m : Master) : Bool :=
  match m with
  | .peat => s.resumed && (!s.power.safeState || decide (s.envm.lcs = 5) || s.jtagHas true)
  | .sedge => s.resumed && ((!s.power.safeState && s.power.sedgeRuns) || s.jtagHas false)
  | _ => s.resumed

/-- The core rails stand: REG_EN is high, or VBAT is below its range and they still hold (R38, R42). -/
def State.rails (s : State) : Bool :=
  decide (s.power.mode ≠ .deepStandby) && (s.power.regEn || (s.power.vbatArmed && !s.power.retryWait))

/-! ### Owners -/

/-- Channel n belongs to Peat (R99). -/
def State.chPeat (s : State) (n : Nat) : Bool := decide (124 ≤ n) || s.rb (aCHN_PEATMASK (n / 32)) (n % 32)

/-- The owner of register i of a row now: Peat, Sedge or host. -/
def ownerNow (s : State) (r : RegRow) (i : Nat) : Owner :=
  match r.own with
  | .chan => if s.chPeat i then .peat else .sedge
  | .timer => if s.rb aTMR_PEATMASK i then .peat else .sedge
  | .mover => if s.rb aQUE_MVOWN i then .peat else .sedge
  | .prfMonitor => .peat
  | .prfBlock => if i = 0x0B ∨ i = 0x0C ∨ i = 0x17 then .peat else .sedge
  | o => o

/-- What an access finds. -/
inductive Judged where
  | granted
  | reserved
  | refused
  deriving DecidableEq, Repr

/-- Grant k of the host part names block b, the offset o and the kind of access. -/
def grantHits (part : Bytes) (b o : Nat) (write : Bool) (k : Nat) : Bool :=
  let g := slice part (8 + 8 * k) 8
  decide (byteAt g 0 = b ∧ le16 g 2 ≤ o ∧ o ≤ le16 g 4) && testBit (byteAt g 1) (if write then 1 else 0)

/-- The host part that judges a host word: the one in use, or the one at the acceptance of the transaction (R35). -/
def State.hostPart (s : State) : Option Bytes := s.hif.judged.getD (s.policy 1)

/-- The host access policy grants a register offset (R31, R438). -/
def hostGrants (s : State) (a : Nat) (write : Bool) : Bool :=
  match s.hostPart with
  | some p => (List.range (byteAt p 1)).any
      (grantHits p ((a - 0x40000000) / 0x10000) ((a - 0x40000000) % 0x10000) write)
  | none => false

/-- The host may push to, or pop from, queue q (R31, R438); to none while no POLICY section is in use (log entry 80). -/
def hostQueue (s : State) (push : Bool) (q : Nat) : Bool :=
  match s.hostPart with
  | some p => testBit (le16 p (if push then 2 else 4)) q
  | none => false

/-- Sedge's rights to a PRF_ result or counter (R483). -/
def sedgePrf (s : State) (r : RegRow) (user write : Bool) : Bool :=
  match r.own with
  | .prfMonitor => !write && s.rb aPRF_GRANT 1 && (!user || s.rb aPRF_GRANT 2)
  | .prfBlock => write || !user || r.rw ≠ 0 || s.rb aPRF_GRANT 0
  | _ => true

/-- Judges a register access with the rights of a master (R9, R10, R31). The rights are those of Peat, Sedge or the
host; a mover access carries its channel owner's. In SCRAPPED only LCS_STATE answers Sedge and the host (R94). -/
def judge (s : State) (m : Master) (user : Bool) (a : Nat) (write : Bool) : Judged :=
  if s.envm.lcs = 5 ∧ m ≠ .peat ∧ a ≠ aLCS_STATE then .refused
  else match regRow a with
  | none =>
    match m with
    | .peat => .reserved
    | .sedge => .reserved
    | .host => if hostGrants s a write then .reserved else .refused
    | _ => .refused
  | some (r, i) =>
    match m with
    | .peat => .granted
    | .sedge =>
      if ownerNow s r i = .sedge ∨ r.own = .prfMonitor then
        if sedgePrf s r user write then .granted else .refused
      else .refused
    | .host =>
      if ownerNow s r i = .host then .granted
      else if ownerNow s r i = .sedge ∧
          (hostGrants s a write ∨ (aQUE_COUNT 0 ≤ a ∧ a ≤ aQUE_COUNT 2)) then .granted
      else .refused
    | _ => .refused

/-- The rights an access of a master carries where no mover channel is named: the mover's are Sedge's (log entry 19). -/
def rightsOf (m : Master) : Master :=
  match m with
  | .mover => .sedge
  | m => m

/-! ### Counting (R476, R480) -/

/-- Counts n events of a code in a block's counters (R476). -/
def State.evt (s : State) (b code n : Nat) : State :=
  if s.resumed then
    s.each (List.range 4) fun s k =>
      if s.rf (aPRF_SEL b k) 7 0 = code ∧ code ≠ 0 then
        let v := (s.reg (aPRF_CNT b k)).toNat + n
        (s.setReg (aPRF_CNT b k) (w32 v)).onlyIf (decide (v ≥ 2 ^ 32)) fun s => s.srb (aPRF_SEL b k) 8 true
      else s
  else s

/-- Counts a completion of a block, and a failure code (R477). -/
def State.ended (s : State) (b : Nat) (status : Byte) : State :=
  (s.evt b 3 1).onlyIf (isFail status) fun s => s.evt b 4 1

/-- The target port of an address (R479). -/
def targetPort (a : Nat) : Nat :=
  if a < 0x20000000 ∨ 0x70000000 ≤ a then 0
  else if a < 0x30000000 then 1
  else if a < 0x40000000 then 2
  else if a < 0x50000000 then 3
  else if a < 0x60000000 then 4
  else 5

/-- The privilege bit of an access: Peat machine and user, Sedge machine and user, other (R480). -/
def privBit (m : Master) (user : Bool) : Nat :=
  match m with
  | .peat => if user then 1 else 0
  | .sedge => if user then 3 else 2
  | _ => 4

/-- Offers a granted access to the monitor of its port (R479, R480). kind: 0 fetch, 1 read, 2 write, 3 pop, 4 push. The
window's access count is key n, its byte count key 16 + n. -/
def State.access (s : State) (m rights : Master) (user : Bool) (a kind : Nat) : State :=
  let n := targetPort a
  let c := s.reg (aPRF_PMCFG n)
  if bit c 31 ∧ s.rf (aPRF_PMWIN n) 15 0 ≠ 0 ∧ bit c (24 + privBit rights user) ∧ bit c (16 + portNo m) ∧ bit c kind ∧
      (s.reg (aPRF_PMBASE n)).toNat ≤ a ∧ a ≤ (s.reg (aPRF_PMLIM n)).toNat then
    { s with prfAcc := tset (tset s.prfAcc n (tget s.prfAcc n 0 + 1) 0) (16 + n) (tget s.prfAcc (16 + n) 0 + 4) 0 }
  else s

/-- A refused register access: recorded, and counted as event 5 of its block (R469, R477). -/
def State.refuseReg (s : State) (m : Master) (write : Bool) (a : Nat) : State :=
  (s.refuse m write a).onlyIf (decide (0x40000000 ≤ a ∧ a < 0x40190000)) fun s => s.evt ((a - 0x40000000) / 0x10000) 5 1

/-- A register write by a master that carries given rights: its effect where it is granted, nothing at a reserved
offset, a record where it is refused. -/
def State.writeAs (s : State) (m rights : Master) (user : Bool) (a : Nat) (f : State → State) : State :=
  match judge s rights user a true with
  | .granted => f (s.access m rights user a 2)
  | .reserved => s
  | .refused => s.refuseReg m true a

/-- A register write by a master that can make accesses. -/
def State.owned (s : State) (m : Master) (a : Nat) (f : State → State) : State :=
  if s.up m then s.writeAs m (rightsOf m) false a f else s

end Machine
end Sys2Proof
end

