-- ==== Sys2Proof/Machine/Queues.lean ====
section
/-!
DEFINITION. Queue storage: lanes, capacity, pushing, committing, rewinding, popping, flushing (R391 to R407, R471), and
what channels need of it (R99, R104). Lane n is lane 0 of queue n; lanes 30 and 31 are the reply lanes of Q14 and Q15.
-/
namespace Sys2Proof
namespace Machine

/-! ### Channels (R99 to R101) -/

/-- A channel's state: 0 IDLE, 1 RUNNING, 2 STOPPING. -/
def State.chState (s : State) (n : Nat) : Nat := s.rf (aCHN_STATUS n) 1 0

/-- Jobs of a channel that wait or run. -/
def State.chJobs (s : State) (n : Nat) : Nat := s.rf (aCHN_STATUS n) 20 16

/-- The template copy a channel took at START. -/
def State.chTemplate (s : State) (n : Nat) : Bytes := tget s.templates n []

/-- MAXJOBS in force (CHN_SCHEDn): 0 stands for the template's value, 16 for CH124 to CH127. -/
def State.maxJobs (s : State) (n : Nat) : Nat :=
  let v := s.rf (aCHN_SCHED n) 23 16
  min 16 (if v = 0 then (if 124 ≤ n then 16 else byteAt (s.chTemplate n) 5) else v)

/-! ### Lanes -/

/-- An empty lane. -/
def laneNil : Lane := ⟨[], none, [], [], 0⟩

/-- A lane. -/
def State.lane (s : State) (n : Nat) : Lane := tget s.lanes n laneNil

/-- Writes a lane. -/
def State.setLane (s : State) (n : Nat) (l : Lane) : State := { s with lanes := tset s.lanes n l laneNil }

/-- The queue of a lane. -/
def qOf (n : Nat) : Nat := if 16 ≤ n then n - 16 else n

/-- Queue q is organised as a mailbox (R404). -/
def State.mailbox (s : State) (q : Nat) : Bool := s.rb (aQUE_CFG q) 8

/-- The capacity of a lane in items (R391, R404). -/
def State.capacity (s : State) (n : Nat) : Nat :=
  let c := s.reg (aQUE_CFG (qOf n))
  if bit c 0 then (if bit c 8 then 16 + 32 * fld c 23 16 else 32 + 64 * fld c 23 16)
  else if bit c 8 then 128 else 256

/-- Items of packets. -/
def itemCount (l : List Packet) : Nat := (l.map fun p => p.items.length).sum

/-- Committed items not popped. -/
def laneItems (l : Lane) : Nat := itemCount l.committed + (match l.half with | some p => p.items.length | none => 0)

/-- Committed packets not wholly popped. -/
def lanePackets (l : Lane) : Nat := l.committed.length + (match l.half with | some _ => 1 | none => 0)

/-- Items that the running open of the AES engine has reserved in Q12 (R331, R343). -/
def State.reservedItems (s : State) (n : Nat) : Nat :=
  if n = 12 then (match s.eng.aes with | some r => r.resv | none => 0) else 0

/-- Items of room left (R392). -/
def State.room (s : State) (n : Nat) : Nat :=
  s.capacity n - (laneItems (s.lane n) + itemCount ((s.lane n).opens.map (·.2)) + s.reservedItems n)

/-- Packets open in a lane: those of its writers, and the one that a long open streams into Q12 (R343, R396). -/
def State.openCount (s : State) (n : Nat) : Nat :=
  (s.lane n).opens.length + (match s.eng.aes with | some r => b2n (decide (n = 12 ∧ 1024 < r.resv)) | none => 0)

/-- Items that a pending decision holds back for its release record and its log record (R281). -/
def State.heldBack (s : State) (n : Nat) : Nat := if s.rel.pending then (if n = 1 then 10 else if n = 3 then 4 else 0) else 0

/-- Advances DROPS and the count of rewound or vanished packets. -/
def State.drop (s : State) (n : Nat) : State := (s.bump (aQUE_DROP (qOf n)) 15 0 1).evt 0x10 0x14 1

/-- Sets PUSH_ERR. -/
def State.pushErr (s : State) (n : Nat) : State := s.srb (aQUE_STAT (qOf n)) 31 true

/-! ### Items and packets -/

/-- The payload bytes of an item (R398). -/
def itemBytes (i : Item) : Bytes :=
  if i.tagOnly then []
  else let n := fld i.tag 25 24; (toLE 4 i.data.toNat).take (if n = 0 then 4 else n)

/-- The payload bytes of a packet. -/
def packetBytes (p : Packet) : Bytes := p.items.flatMap itemBytes

/-- The payload words of a packet. -/
def packetWords (p : Packet) : List Word := p.items.map (·.data)

/-- A tag word without SEQ. -/
def mkTag (sop eop : Bool) (prio bytes src : Nat) : Word :=
  w32 (b2n sop * 2 ^ 30 + b2n eop * 2 ^ 29 + prio % 4 * 2 ^ 27 + bytes % 4 * 2 ^ 24 + src % 256 * 2 ^ 16)

/-- The items of payload words from the first on. -/
def mkItems (first : Bool) (prio src lastBytes : Nat) : List Word → List Item
  | [] => []
  | [w] => [⟨mkTag first true prio lastBytes src, w, false⟩]
  | w :: ws => ⟨mkTag first false prio 0 src, w, false⟩ :: mkItems false prio src lastBytes ws

/-- The packet of a byte string; an empty one is a zero-length packet (R401). -/
def bytesPacket (prio src : Nat) (b : Bytes) : Packet :=
  if b.length = 0 then ⟨[⟨mkTag true true prio 0 src, 0, true⟩], 0, prio % 4, src, false, none, false, false, 0⟩
  else ⟨mkItems true prio src (b.length % 4) (toWords b), 0, prio % 4, src, false, none, false, false, 0⟩

/-- The packet of payload words. -/
def wordsPacket (prio src : Nat) (ws : List Word) : Packet := bytesPacket prio src (ofWords ws)

/-- Commits a whole packet to a lane: the next SEQ, carried by every item (R396). -/
def State.commit (s : State) (n : Nat) (p : Packet) : State :=
  let l := s.lane n
  let p := { p with seq := l.seq, no := s.commits, items := p.items.map fun i => { i with tag := setFld i.tag 15 0 l.seq.toNat } }
  { s with commits := s.commits + 1 }.setLane n { l with committed := l.committed ++ [p], seq := l.seq + 1 }

/-- The checks made at commit that the lane's consumers name (R77, R104, R458). `peat`: the writer is Peat or a mover
channel of Peat's. -/
def commitOk (s : State) (n : Nat) (peat : Bool) (p : Packet) : Bool :=
  let w0 := (packetWords p).headD 0
  if n = 10 then
    let e := fld w0 31 28
    decide (p.src < 128 ∧ s.chState p.src = 1 ∧ s.chJobs p.src < s.maxJobs p.src ∧ 1 ≤ e ∧ e ≤ 3) &&
      (s.chPeat p.src == peat)
  else if n = 15 ∨ (n = 14 ∧ s.mailbox 14 = true) then decide (p.items.length ≤ 64)
  else if n = 8 then
    decide (fld w0 4 0 ≠ 0 ∧ fld w0 4 0 ≠ s.rf aCWY_STATUS 4 0 ∧ ((p.items.drop 1).flatMap itemBytes).length ≤ 244)
  else true

/-- What the commit of a job to Q10 counts in its channel (CHN_COUNTn, CHN_STATUSn); a release request in Q15 holds the GEN
that its session has now (R272). -/
def State.jobAccepted (s : State) (n : Nat) (p : Packet) : State :=
  if n = 10 then (s.bump (aCHN_COUNT p.src) 15 0 1).bump (aCHN_STATUS p.src) 20 16 1
  else if n = 15 then
    let g := match tfind s.sess (((packetWords p).getD 1 0).toNat) with | some x => x.gen.toNat | none => 0
    { s with peat := { s.peat with reqGens := s.peat.reqGens ++ [(((s.lane 15).seq - 1).toNat, g)] } }
  else s

/-- Commits a packet that passes its lane's checks, and rewinds one that does not. -/
def State.tryCommit (s : State) (n : Nat) (peat : Bool) (p : Packet) : State :=
  if p.doomed = false ∧ commitOk s n peat p then ((s.commit n p).jobAccepted n p).evt 0x10 0x12 p.items.length
  else s.drop n

/-- The checks at a commit by a hardware writer, which writes for the channel in SRC (R104, R396, R397). -/
def State.hwOk (s : State) (n : Nat) (p : Packet) : Bool := commitOk s n (s.chPeat p.src) p

/-- A hardware writer has room for a packet, and would not open a ninth (R396, R399). -/
def State.hwRoom (s : State) (n : Nat) (p : Packet) : Bool :=
  decide (p.items.length + s.heldBack n ≤ s.room n ∧ s.openCount n < 8)

/-- A hardware writer commits a packet that has passed its lane's checks; none where it must wait (R399). -/
def State.hwCommit (s : State) (n : Nat) (p : Packet) : Option State :=
  if s.hwRoom n p then some (((s.commit n p).jobAccepted n p).evt 0x10 0x12 p.items.length) else none

/-- A packet waits for a lane. -/
def State.laneWaits (s : State) (n : Nat) : Bool := s.eng.waiting.any fun w => decide (w.1 = n)

/-- A packet waits for its lane, behind those that wait. -/
def State.keepWaiting (s : State) (n : Nat) (p : Packet) : State :=
  { s with eng := { s.eng with waiting := s.eng.waiting ++ [(n, p)] } }

/-- A hardware writer that waits for room commits a packet, behind those that wait for the same lane; one that a check
refuses is rewound (R397, R399). -/
def State.waitCommit (s : State) (n : Nat) (p : Packet) : State :=
  if s.hwOk n p then
    if s.laneWaits n then s.keepWaiting n p else (s.hwCommit n p).getD (s.keepWaiting n p)
  else s.drop n

/-- A front end commits a packet. It is rewound where a check refuses it or the queue is full, and waits where it would open
a ninth (R396, R397, R399). -/
def State.feCommit (s : State) (n : Nat) (p : Packet) : State :=
  if s.hwOk n p then
    if 8 ≤ s.openCount n then s.keepWaiting n p else (s.hwCommit n p).getD (s.drop n)
  else s.drop n

/-- The SEQ that the next commit to a lane takes. -/
def State.nextSeq (s : State) (n : Nat) : Nat := (s.lane n).seq.toNat

/-- An event packet in Q2 with SRC 0xFF; its writer waits for room (R399). -/
def State.event (s : State) (ws : List Word) : State := s.waitCommit 2 (wordsPacket 0 0xFF ws)

/-! ### Software pushes (R395 to R397, R399, R401) -/

/-- The tag bits taken as written: SOP, EOP, PRIO, BYTES and SRC. -/
def takenTag (t : Word) : Word := t &&& 0x7BFF0000

/-- A lane with a writer's open packet removed. -/
def laneClose (l : Lane) (w : Nat) : Lane := { l with opens := tdel l.opens w }

/-- Rewinds a writer's open packet, if any. -/
def State.rewindOpen (s : State) (n w : Nat) : State :=
  match tfind (s.lane n).opens w with
  | some _ => (s.setLane n (laneClose (s.lane n) w)).drop n
  | none => s

/-- Adds an item to a writer's packet and ends it at EOP. -/
def State.addItem (s : State) (n w : Nat) (peat : Bool) (p : Packet) (i : Item) : State :=
  let full := decide (s.room n ≤ s.heldBack n)
  let p := if full then { p with doomed := true } else { p with items := p.items ++ [i] }
  let s := s.onlyIf full fun s => s.pushErr n
  if bit i.tag 29 then
    let s := s.setLane n (laneClose (s.lane n) w)
    s.tryCommit n peat p
  else
    let l := s.lane n
    s.setLane n { l with opens := tput l.opens w p }

/-- A master or mover channel w pushes an item (R396, R397, R399). -/
def State.pushItem (s : State) (n w : Nat) (peat : Bool) (i : Item) : State :=
  let prio := fld i.tag 28 27
  if bit i.tag 30 then
    let s := s.rewindOpen n w
    if 8 ≤ s.openCount n then s.pushErr n
    else s.addItem n w peat ⟨[], 0, prio, fld i.tag 23 16, false, none, false, false, 0⟩ i
  else
    match tfind (s.lane n).opens w with
    | none => s.pushErr n
    | some p => if p.prio ≠ prio then s.rewindOpen n w else s.addItem n w peat p i

/-! ### Popping (R400, R401, R407, R471) -/

/-- The highest PRIO among packets. -/
def topPrio (l : List Packet) : Nat := l.foldl (fun a p => max a p.prio) 0

/-- Takes the oldest packet of a priority out of a list. -/
def takePrio (k : Nat) : List Packet → Option (Packet × List Packet)
  | [] => none
  | p :: t =>
    if p.prio = k then some (p, t)
    else match takePrio k t with
      | some (q, r) => some (q, p :: r)
      | none => none

/-- The packet a pop takes next, and the rest: by priority in a plain queue, in commit order in a mailbox lane. -/
def takePacket (mail : Bool) (l : List Packet) : Option (Packet × List Packet) :=
  if mail then (match l with | [] => none | p :: t => some (p, t)) else takePrio (topPrio l) l

/-- The lane is one of a mailbox queue. -/
def State.mailLane (s : State) (n : Nat) : Bool := s.mailbox (qOf n)

/-- What a pop answers: tag word, payload, information. -/
structure Popped where
  tag : Word
  data : Word
  info : Word
  deriving DecidableEq, Repr

/-- The answer of an empty queue (R401). -/
def popEmpty : Popped := ⟨0x80000000, 0, 0⟩

/-- The answer of a pop that meets an error: EOP, the packet's SEQ, TRUNC and TAGONLY (R407). -/
def popTrunc (p : Packet) : Popped := ⟨w32 (2 ^ 29 + p.seq.toNat), 0, 3⟩

/-- Counts a packet that vanished under R407 or R471. -/
def State.vanish (s : State) (n : Nat) : State := (s.bump (aQUE_DROP (qOf n)) 31 16 1).drop n

/-- Pops the next item of a packet that is at the front. -/
def State.popOf (s : State) (n : Nat) (p : Packet) : Popped × State :=
  let l := s.lane n
  match p.items with
  | [] => (popEmpty, s.setLane n { l with half := none })
  | i :: rest =>
    if p.ecc = some 0 then (popTrunc p, (s.setLane n { l with half := none }).vanish n)
    else if rest = [] ∧ p.bad then
      (popTrunc p, ((s.setLane n { l with half := none }).vanish n).bump aFLT_INTEG 15 0 1)
    else
      let q := { p with items := rest, ecc := p.ecc.map (· - 1) }
      (⟨i.tag, i.data, if i.tagOnly then 1 else 0⟩,
        (s.setLane n { l with half := if rest = [] then none else some q }).evt 0x10 0x13 1)

/-- Pops the next item of a lane (R400). -/
def State.popItem (s : State) (n : Nat) : Popped × State :=
  let l := s.lane n
  match l.half with
  | some p => s.popOf n p
  | none =>
    match takePacket (s.mailLane n) l.committed with
    | none => (popEmpty, s)
    | some (p, rest) => (s.setLane n { l with committed := rest }).popOf n p

/-- The packet a hardware consumer would take next; a packet half read by software is not offered. -/
def State.headPacket (s : State) (n : Nat) : Option Packet :=
  match (s.lane n).half with
  | some _ => none
  | none => (takePacket (s.mailLane n) (s.lane n).committed).map (·.1)

/-- Takes the next packet of a lane whole. -/
def State.takeHead (s : State) (n : Nat) : State :=
  let l := s.lane n
  match takePacket (s.mailLane n) l.committed with
  | some (p, rest) => (s.setLane n { l with committed := rest }).evt 0x10 0x13 p.items.length
  | none => s

/-- The packet that a consumer which may take only some of a lane's packets would take next. -/
def State.headPacketIf (s : State) (n : Nat) (ok : Packet → Bool) : Option Packet :=
  match (s.lane n).half with
  | some _ => none
  | none => (takePacket (s.mailLane n) ((s.lane n).committed.filter ok)).map (·.1)

/-- Takes that packet. -/
def State.takeHeadIf (s : State) (n : Nat) (ok : Packet → Bool) : State :=
  let l := s.lane n
  match takePacket (s.mailLane n) (l.committed.filter ok) with
  | some (p, _) => (s.setLane n { l with committed := l.committed.erase p }).evt 0x10 0x13 p.items.length
  | none => s

/-- The packet failed its check or met a double-bit error while a consumer read it (R407, R471, R506). -/
def packetBroken (p : Packet) : Bool := p.bad || p.ecc.isSome

/-- Counts what a consumer's read of a broken packet counts. -/
def State.countBroken (s : State) (n : Nat) (p : Packet) : State :=
  if p.ecc.isSome then s.vanish n
  else if p.bad then (s.vanish n).bump aFLT_INTEG 15 0 1
  else s

/-! ### Accesses of the masters that are no cores (R18, R479, R480) -/

/-- The address of a window register. -/
def windowAddr (q lane off : Nat) : Nat := 0x60000000 + 4096 * q + 2048 * lane + off

/-- A master offers its pops (kind 3) or pushes (kind 4) of a lane's items to the monitors. -/
def State.itemsBy (s : State) (m rights : Master) (n kind count : Nat) : State :=
  let a := windowAddr (qOf n) (if 16 ≤ n then 1 else 0) (if kind = 4 then 0x10 else 0)
  s.each (List.range count) fun s _ => s.access m rights false a kind

/-! ### Flush (R405) -/

/-- Empties a lane; SEQ goes on. -/
def State.flushLane (s : State) (n : Nat) : State :=
  s.setLane n { laneNil with seq := (s.lane n).seq }

/-- Flushes a queue, in both lanes of a mailbox. -/
def State.flushQueue (s : State) (q : Nat) : State :=
  let s := s.onlyIf (decide (q = 10)) fun s =>
    s.each (s.lane 10).committed fun s p => s.srf (aCHN_STATUS p.src) 20 16 (s.chJobs p.src - 1)
  (s.flushLane q).onlyIf (decide (14 ≤ q)) fun s => s.flushLane (16 + q)

end Machine
end Sys2Proof
end

