-- ==== Sys2Proof/Machine/Draws.lean ====
section
/-!
DEFINITION. What a block asks of the random source: whether an engine's mask generator runs, and conditioned output, for
which it waits (R299, R313 to R317, R321).
-/
namespace Sys2Proof
namespace Machine

/-- The mask generator of an engine is STOPPED (R321): 0 AES, 1 long-integer, 2 hash. -/
def State.maskStopped (s : State) (n : Nat) : Bool := s.rb (aTRNG_MASK n) 29

/-- The random source is declared failed (R313). -/
def State.rngFailed (s : State) : Bool := decide (s.rf aTRNG_STATUS 2 0 = 4)

/-- Replaces the callers that wait. -/
def State.setCallers (s : State) (l : List Caller) : State := { s with trng := { s.trng with reqs := l } }

/-- The caller is a drawer. -/
def drawsFor (w : Drawer) : Caller → Bool
  | .draw v _ _ => decide (v = w)
  | _ => false

/-- A drawer waits for conditioned output. -/
def State.drawWaits (s : State) (w : Drawer) : Bool := s.trng.reqs.any (drawsFor w)

/-- What a drawer's request ended with. -/
def State.servedTo (s : State) (w : Drawer) : Option (Byte × Bytes) :=
  (s.trng.served.find? fun x => decide (x.1 = w)).map (·.2)

/-- A drawer's request and what it has got are forgotten: its operation ends, or takes them. -/
def State.forgetDraw (s : State) (w : Drawer) : State :=
  { s with trng := { s.trng with reqs := s.trng.reqs.filter (fun c => !drawsFor w c),
                                 served := s.trng.served.filter fun x => decide (x.1 ≠ w) } }

/-- What an operation that draws conditioned output meets: it waits, its request has failed, or the bytes are there. -/
inductive Drawn where
  | wait (s : State)
  | failed (status : Byte) (s : State)
  | got (b : Bytes) (s : State)

/-- A drawer asks for n bytes, or takes what its request has ended with. A declared failure ends it at once (R313). -/
def State.draw (s : State) (w : Drawer) (n : Nat) : Drawn :=
  match s.servedTo w with
  | some (c, b) => if c = cOk then .got (slice b 0 n) (s.forgetDraw w) else .failed c (s.forgetDraw w)
  | none =>
    if s.rngFailed then .failed cRngFail s
    else .wait (if s.drawWaits w then s else s.setCallers (s.trng.reqs ++ [.draw w n []]))

/-- Goes on with a draw: each outcome has its continuation. -/
def Drawn.next (d : Drawn) (wait : State → State) (fail : Byte → State → State) (go : Bytes → State → State) : State :=
  match d with
  | .wait s => wait s
  | .failed c s => fail c s
  | .got b s => go b s

end Machine
end Sys2Proof
end

