-- ==== Sys2Proof/Machine/Keys.lean ====
section
/-!
DEFINITION. Sessions (R109 to R117) and the key store's slots and references (R291 to R295): their state, closing, and
the check of a key reference.
-/
namespace Sys2Proof
namespace Machine

/-! ### Sessions -/

/-- A session never taken. -/
def sesNil : Session :=
  { st := .free, suite := 0, gen := 0, opener := 0, idleTmo := 0, offerTmo := 0, lastUse := 0, slot := zeros 128,
    cred := none, offerHash := [], th := [], xPeer := [], tx := 0, rxFloor := 0, tid := 0, km5200 := false, entry := 0,
    rn := 0, fn := 0, hasFused := false, vSeed := [], vSeedF := [] }

/-- Session n. -/
def State.ses (s : State) (n : Nat) : Session := tget s.sess n sesNil

/-- Writes session n. -/
def State.setSes (s : State) (n : Nat) (x : Session) : State := { s with sess := tset s.sess n x sesNil }

/-- Changes session n. -/
def State.modSes (s : State) (n : Nat) (f : Session → Session) : State := s.setSes n (f (s.ses n))

/-- Channel c names session n in its binding; CH124 to CH127 never bind one (R99). -/
def State.bindsTo (s : State) (n c : Nat) : Bool :=
  decide (c < 124) && !s.rb (aCHN_BIND c) 25 && decide (s.rf (aCHN_BIND c) 15 8 = n)

/-- Running channels that serve session n (R111). -/
def State.binds (s : State) (n : Nat) : Nat :=
  ((List.range 128).filter fun c => decide (s.chState c ≠ 0) && s.bindsTo n c).length

/-- The engine jobs that run or are suspended. -/
def State.runs (s : State) : List Run := s.eng.aes.toList ++ s.eng.bn.toList ++ s.eng.bnSusp.toList ++ s.eng.hsh.toList

/-- A job with the session's keys is in an engine. -/
def State.sesBusy (s : State) (n : Nat) : Bool := s.runs.any fun r => decide (r.keySes = some n ∨ r.outSes = some n)

/-- The key references of a waiting job: KEY of its engine's descriptor, and KEY2 of an AES or hash job (R329, R351, R374). -/
def jobRefs (p : Packet) : List Word :=
  let d := packetWords p
  match fld (wordAt d 0) 31 28 with
  | 1 => [wordAt d 1, wordAt d 8]
  | 2 => [wordAt d 4]
  | _ => [wordAt d 1, wordAt d 4]

/-- A waiting job carries a key reference to the session. -/
def jobNames (n : Nat) (p : Packet) : Bool := (jobRefs p).any fun r => bit r 31 && decide (fld r 19 12 = n)

/-- The jobs in Q10 that name a session will complete with NO_SESSION (R112). -/
def State.loseJobs (s : State) (n : Nat) : State :=
  let l := s.lane 10
  if l.committed.any (jobNames n) then
    s.setLane 10 { l with committed := l.committed.map fun p => if jobNames n p then { p with gone := true } else p }
  else s

/-- What a waiting job sees of the sessions it names: CLOSING where they have closed since it came (R112). -/
def State.jobView (s : State) (p : Packet) : State :=
  if p.gone then (s.each (jobRefs p) fun s r => s.onlyIf (bit r 31) fun s => s.modSes (fld r 19 12) fun x => { x with st := .closing })
  else s

/-- A session that closes is no session's mirror any more (R213). -/
def Dist.unmap (d : Dist) (n : Nat) : Dist := { d with map := d.map.filter fun e => decide (e.2 ≠ n) }

/-- The session becomes FREE: its slot is erased and every channel that names it is unbound (R112). GEN stays. -/
def State.freeSes (s : State) (n : Nat) : State :=
  let s := { s.setSes n { sesNil with gen := (s.ses n).gen } with dist := s.dist.unmap n }
  s.each (List.range 128) fun s c => s.onlyIf (s.bindsTo n c) fun s => s.srb (aCHN_BIND c) 25 true

/-- The session is CLOSING, and FREE at once where no engine holds its keys; jobs that have not started are lost to it
(R112). -/
def State.closeOne (s : State) (n : Nat) : State :=
  if (s.ses n).st = .free then s
  else
  let s := s.loseJobs n
  if s.sesBusy n then { s.modSes n fun x => { x with st := .closing } with dist := s.dist.unmap n }
  else s.freeSes n

/-- Closes a session (R112); the fused-key session that the head keeps for it closes with it (R213, R215). -/
def State.closeSes (s : State) (n : Nat) : State :=
  let s' := s.closeOne n
  match tfind s.dist.map n with
  | some l =>
    if s.power.cwyHead ∧ l ≠ n ∧ (s.ses n).suite = 1 ∧ (s.ses l).suite = 3 then
      (s'.closeOne l).onlyIf true fun t => { t with dist := { t.dist with map := tdel t.dist.map n } }
    else s'
  | none => s'

/-- Closes every session. -/
def State.closeAll (s : State) : State := s.each (s.sess.map (·.1)) fun s n => s.closeSes n

/-- A start of a job of a session restarts its idle count (R113). -/
def State.useSes (s : State) (n : Nat) : State := s.modSes n fun x => { x with lastUse := s.now }

/-! ### Static slots -/

/-- The bytes of a key type (R292). -/
def typeBytes (t : Nat) : Nat :=
  match t with
  | 0x01 => 16 | 0x02 => 32 | 0x03 => 64 | 0x04 => 32 | 0x05 => 48 | 0x06 => 32 | 0x07 => 32 | 0x08 => 64 | 0x09 => 32
  | _ => 0

/-- The uses a key type permits, as a USE mask (R292). -/
def typeUses (t : Nat) : Nat :=
  match t with
  | 0x01 => 0x4F | 0x02 => 0x4F | 0x03 => 0x03 | 0x04 => 0x10 | 0x05 => 0x10 | 0x06 => 0x10 | 0x07 => 0x60
  | 0x08 => 0x80 | 0x09 => 0x03
  | _ => 0

/-- The static slot n where it holds a key. -/
def State.key (s : State) (n : Nat) : Option Slot :=
  match tfind s.slots n with
  | some k => if k.key = [] then none else some k
  | none => none

/-- Writes a static slot. -/
def State.setKey (s : State) (n : Nat) (k : Slot) : State := { s with slots := tput s.slots n k }

/-- Empties a static slot. -/
def State.dropKey (s : State) (n : Nat) : State := { s with slots := tdel s.slots n }

/-! ### Key references (R294, R295) -/

/-- SES of a reference. -/
def kSes (r : Word) : Bool := bit r 31
/-- SLOT of a reference. -/
def kSlot (r : Word) : Nat := fld r 19 12
/-- OFF of a reference. -/
def kOff (r : Word) : Nat := fld r 7 4
/-- LEN of a reference. -/
def kLen (r : Word) : Nat := fld r 3 0

/-- The channel's bound session is n, READY under the generation latched (R105). -/
def State.boundTo (s : State) (ch n : Nat) : Bool :=
  s.bindsTo n ch && decide ((s.ses n).st = .ready ∧ (s.ses n).gen.toNat = s.rf (aCHN_BIND ch) 23 16)

/-- Steps 1 and 2 of R295. -/
def keyForm (r : Word) : Byte :=
  if kLen r = 0 then cLenZero
  else if fld r 30 20 ≠ 0 ∨ fld r 11 8 ≠ 0 then cAuthFail
  else if kSes r then (if 4 < kLen r ∨ 8 < kOff r + kLen r then cAuthFail else cOk)
  else if 63 < kSlot r ∨ 4 < kOff r + kLen r then cAuthFail
  else cOk

/-- Step 3 of R295: the session that a reference of a channel names. -/
def State.sesCheck (s : State) (ch : Nat) (r : Word) : Byte :=
  if kSes r then
    if 124 ≤ ch then
      (if (s.ses (kSlot r)).st = .free ∨ (s.ses (kSlot r)).st = .closing then cNoSession else cOk)
    else if s.boundTo ch (kSlot r) then cOk else cNoSession
  else cOk

/-- The check of a reference whose key is taken as a source with the uses of a mask (R295). -/
def State.keyCheck (s : State) (ch : Nat) (r : Word) (uses : Nat) : Byte :=
  if keyForm r ≠ cOk then keyForm r
  else if s.sesCheck ch r ≠ cOk then s.sesCheck ch r
  else if kSes r then cOk
  else
    match s.key (kSlot r) with
    | none => cKeyEmpty
    | some k =>
      if ¬ k.sedge ∧ ¬ s.chPeat ch then cAuthFail
      else if uses &&& k.use.toNat ≠ uses ∨ kLen r * 16 ≠ typeBytes k.typ ∨ kOff r ≠ 0 then cAuthFail
      else cOk

/-- The bytes a reference names. -/
def State.keyBytes (s : State) (r : Word) : Bytes :=
  if kSes r then slice (s.ses (kSlot r)).slot (16 * kOff r) (16 * kLen r)
  else match s.key (kSlot r) with
    | some k => k.key
    | none => []

/-- The TYPE of the static slot a reference names; 0 for a session. -/
def State.keyType (s : State) (r : Word) : Nat :=
  if kSes r then 0 else match s.key (kSlot r) with | some k => k.typ | none => 0

/-- The session a reference names. -/
def refSes (r : Word) : Option Nat := if kSes r then some (kSlot r) else none

/-- A destination reference of KEYOUT or OUT 2 to a place of len bytes (R295 steps 1 to 3, R375); no static slot under
ROOT_FAIL (R286). -/
def State.destCheck (s : State) (ch : Nat) (r : Word) (len : Nat) : Byte :=
  if kLen r = 0 then cLenZero
  else if fld r 30 20 ≠ 0 ∨ fld r 11 8 ≠ 0 ∨ (kSes r = false ∧ 63 < kSlot r) then cAuthFail
  else if (if kSes r then 128 else 64) < kOff r * 16 + len then cAuthFail
  else if s.sesCheck ch r ≠ cOk then s.sesCheck ch r
  else if kSes r = false ∧ s.rb aKST_STATUS 1 then cKeyEmpty
  else cOk

/-- The destination of KEYOUT: LEN units of 16 bytes, 1 to 4, and those of the type of a slot that has one (R294, R295, R338). -/
def State.keyoutCheck (s : State) (ch : Nat) (r : Word) : Byte :=
  if keyForm r ≠ cOk then keyForm r
  else if s.destCheck ch r (16 * kLen r) ≠ cOk then s.destCheck ch r (16 * kLen r)
  else if kSes r then cOk
  else match tfind s.slots (kSlot r) with
    | some k => if kLen r * 16 = typeBytes k.typ then cOk else cAuthFail
    | none => cOk

/-- A class's epoch (R289). -/
def State.epochOf (s : State) (c : Nat) : Word := tget s.envm.epoch c 0

/-- Writes the blob of a slot to the row not in use, and flips the selector; none where its class key is not known. -/
def State.writeBlob (s : State) (n : Nat) (k : Slot) : Option State :=
  match tfind s.power.classKeys k.cls with
  | none => none
  | some ck =>
    let b : Blob := ⟨{ k with key := [] }, s.epochOf k.cls, kwWrap ck k.key⟩
    let r := tget s.envm.blobs n ⟨none, none, true⟩
    let r' : BlobRows := if r.sel then ⟨some b, r.row1, false⟩ else ⟨r.row0, some b, true⟩
    some { s with envm := { s.envm with blobs := tput s.envm.blobs n r' } }

/-- Writes key bytes into the slot a reference names, from its OFF on. The attributes of a static slot are those that the
key-store command set (R338); a slot without any gets none (log entry 20). A persistent slot's blob is written anew (R290). -/
def State.keyWrite (s : State) (ses : Bool) (slot off : Nat) (b : Bytes) : State :=
  if ses then s.modSes slot fun x => { x with slot := patch x.slot off b }
  else
    match tfind s.slots slot with
    | some k =>
      let k := { k with key := patch k.key off b }
      ((if k.persist then s.writeBlob slot k else none).getD s).setKey slot k
    | none => s.setKey slot ⟨0, 2, false, false, 0, 0, patch [] off b, []⟩

end Machine
end Sys2Proof
end

