-- ==== Sys2Proof/Machine/Sched.lean ====
section
/-!
DEFINITION. The engine scheduler (R104 to R107): which waiting job an engine takes next, how a job completes, and what a
failing completion cancels. Waiting jobs are the committed packets of Q10.
-/
namespace Sys2Proof
namespace Machine

/-- The three engines, by the code of their jobs (R104). -/
def engAes : Nat := 1
/-- The long-integer engine. -/
def engBn : Nat := 2
/-- The hash engine. -/
def engHsh : Nat := 3

/-- The engine a job names. -/
def jobEngine (p : Packet) : Nat := fld ((packetWords p).headD 0) 31 28

/-- A word of a job's descriptor. -/
def jobWord (p : Packet) (i : Nat) : Word := wordAt (packetWords p) i

/-- The effective priority of a job (R106). -/
def State.effPrio (s : State) (p : Packet) : Nat := min p.prio (s.rf (aCHN_SCHED p.src) 1 0)

/-- The channel has a job in an engine. -/
def State.inEngine (s : State) (ch : Nat) : Bool := s.runs.any fun r => decide (r.chan = ch)

/-- The oldest waiting job of each channel. -/
def oldestJobs : List Nat → List Packet → List Packet
  | _, [] => []
  | seen, p :: t => if p.src ∈ seen then oldestJobs seen t else p :: oldestJobs (p.src :: seen) t

/-- The queue of a job's data, where it takes a packet from one: SRCQ of an AES or hash job that is not inline (R329,
R373). -/
def jobSrcq (p : Packet) : Option Nat :=
  let w := jobWord p 0
  if jobEngine p = engAes then (if bit w 19 then none else some (fld w 15 12))
  else if jobEngine p = engHsh then
    (if bit w 20 ∨ bit w 12 ∨ (fld w 27 24 = 8 ∧ fld w 3 0 = 3) then none else some (fld w 11 8))
  else none

/-- The lane a job's source queue is read from, and the lane its destination queue is written to: Q14 and Q15 give the
request lane and take the reply lane (R330, R404; log entry 21). -/
def State.dstLane (s : State) (q : Nat) : Nat := if 14 ≤ q ∧ s.mailbox q then 16 + q else q

/-- SRCQ may not be Q10, Q11 or Q12, and Q14 and Q15 only for CH124 to CH127 (R330). -/
def queueOk (ch q : Nat) : Bool := decide ((q < 10 ∨ q = 13 ∨ (14 ≤ q ∧ 124 ≤ ch)))

/-- A completion with a failure code that cancels later jobs. -/
def failingCpl (p : Packet) : Bool :=
  let c := by8 (fld ((packetWords p).headD 0) 31 24)
  isFail c && decide (c ≠ cCancelled)

/-- The channel has a failing completion that waits for room in its CPLQ: the jobs that it will cancel do not start (R107). -/
def State.failWaits (s : State) (ch : Nat) : Bool := s.eng.waiting.any fun w => decide (w.2.src = ch) && failingCpl w.2

/-- A job may start: its channel is RUNNING, has no job in an engine and no failing completion still to commit, and a packet
is there where it takes one (R100, R106, R107, R330). A job whose SRCQ is refused does not wait for a packet in it. -/
def State.ready (s : State) (p : Packet) : Bool :=
  decide (s.chState p.src ≠ 2) && !s.inEngine p.src && !s.failWaits p.src &&
    match jobSrcq p with
    | none => true
    | some q => !queueOk p.src q || (s.headPacket q).isSome

/-- How far a channel lies above the one an engine last served, wrapping (R106). -/
def aboveLast (last ch : Nat) : Nat := (ch + 127 - last % 128) % 128

/-- The better of two candidates (R106). -/
def State.better (s : State) (last : Nat) (a b : Packet) : Packet :=
  if s.effPrio a < s.effPrio b then b
  else if s.effPrio b < s.effPrio a then a
  else if aboveLast last b.src < aboveLast last a.src then b else a

/-- The job an engine takes next among those that pass a test (R106). -/
def State.candidateIf (s : State) (eng last : Nat) (ok : Packet → Bool) : Option Packet :=
  match (oldestJobs [] (s.lane 10).committed).filter fun p => decide (jobEngine p = eng) && s.ready p && ok p with
  | [] => none
  | p :: t => some (t.foldl (s.better last) p)

/-- The job an engine takes next (R106). -/
def State.candidate (s : State) (eng last : Nat) : Option Packet := s.candidateIf eng last fun _ => true

/-- Packets that leave Q10 leave its list of jobs with unpredictable operands too. -/
def State.forgetMixed (s : State) (l : List Packet) : State :=
  { s with eng := { s.eng with bnMixed := s.eng.bnMixed.filter fun n => l.all fun p => decide (p.seq.toNat ≠ n) } }

/-- Takes a job out of Q10. -/
def State.takeJob (s : State) (p : Packet) : State :=
  let l := s.lane 10
  ((s.forgetMixed [p]).setLane 10 { l with committed := l.committed.erase p }).evt 0x10 0x13 p.items.length

/-! ### Completions -/

/-- The COUNT register of an engine. -/
def countReg (eng : Nat) : Nat := if eng = engAes then aAES_COUNT else if eng = engBn then aBN_COUNT else aHSH_COUNT

/-- The block number of an engine (R29). -/
def engBlock (eng : Nat) : Nat := 0x0C + eng

/-- The completion words of a job that ran no step: its engine's format with the status and the descriptor's fields
(R345, R369, R389). -/
def State.plainCompletion (s : State) (p : Packet) (status : Byte) : List Word :=
  let w := jobWord p 0
  if jobEngine p = engAes then
    [w32 (status.toNat * 2 ^ 24 + fld w 27 24 * 2 ^ 20 + fld w 20 20 * 2 ^ 19), 0, 0] ++
      (if fld w 27 24 = 4 ∧ fld w 20 20 = 0 then [0, 0, 0, 0] else [])
  else if jobEngine p = engBn then [w32 (status.toNat * 2 ^ 24 + fld w 23 16 * 2 ^ 16), 0, s.sysLo]
  else [w32 (status.toNat * 2 ^ 24 + fld w 27 24 * 2 ^ 20 + fld w 3 0 * 2 ^ 16), 0, 0, 0]

/-- One completion: the packet in the channel's CPLQ, and what it counts (R106). -/
def State.completeOne (s : State) (ch prio eng : Nat) (status : Byte) (ws : List Word) : State :=
  let q := s.dstLane (s.rf (aCHN_QUEUES ch) 11 8)
  let s := s.waitCommit q (wordsPacket prio ch ws)
  let s := s.bump (aCHN_COUNT ch) 31 16 1
  let s := s.srf (aCHN_STATUS ch) 20 16 (s.chJobs ch - 1)
  let s := (s.bump (countReg eng) 15 0 1).evt (engBlock eng) 0x03 1
  let s := s.onlyIf (isFail status) fun s => (s.bump (countReg eng) 31 16 1).evt (engBlock eng) 0x04 1
  s.onlyIf (isFail status && decide (status ≠ cCancelled)) fun s => s.srf (aCHN_STATUS ch) 15 8 status.toNat

/-- A hash job that fails frees the context that it names, whosever it is (R378). -/
def State.spongeFail (s : State) (w0 : Word) (status : Byte) : State :=
  if isFail status ∧ fld w0 31 28 = engHsh ∧ (bit w0 18 ∨ bit w0 19) ∧ fld w0 27 24 ≠ 8 then
    { s with eng := { s.eng with ctx := tdel s.eng.ctx (fld w0 17 15) } }
  else s

/-- Completes the waiting jobs of a channel with one code, in submission order (R100, R107). -/
def State.completeWaiting (s : State) (ch : Nat) (status : Byte) : State :=
  let mine := (s.lane 10).committed.filter fun p => decide (p.src = ch)
  let s := (s.forgetMixed mine).setLane 10
    { s.lane 10 with committed := (s.lane 10).committed.filter fun p => decide (p.src ≠ ch) }
  s.each mine fun s p =>
    (s.completeOne ch (s.effPrio p) (jobEngine p) status (s.plainCompletion p status)).spongeFail (jobWord p 0) status

/-- The waiting jobs of a channel whose job has completed: a STOPPING channel's complete with ABORTED after it, in submission
order (R100, R106); where the completion failed and is committed, they are cancelled (R107). -/
def State.afterJob (s : State) (ch : Nat) (failed : Bool) : State :=
  if s.chState ch = 2 then s.completeWaiting ch cAborted
  else s.onlyIf (failed && !s.failWaits ch) fun s => s.completeWaiting ch cCancelled

/-- Completes a job, and what that does to the later jobs of its channel (R100, R107). -/
def State.completeJob (s : State) (ch prio eng : Nat) (status : Byte) (ws : List Word) : State :=
  (s.completeOne ch prio eng status ws).afterJob ch (isFail status)

/-- Commits the completions that waited, as far as there is room; a failing one cancels as it is committed (R107). -/
def State.drainWaiting (s : State) : State :=
  ({ s with eng := { s.eng with waiting := [] } }).each s.eng.waiting fun s w =>
    (s.waitCommit w.1 w.2).onlyIf (failingCpl w.2 && decide (w.2.src < 128)) fun s => s.afterJob w.2.src true

/-- Completes a job that does not run (R105, R106). -/
def State.refuseTaken (s : State) (p : Packet) (status : Byte) : State :=
  (s.spongeFail (jobWord p 0) status).completeJob p.src (s.effPrio p) (jobEngine p) status
    (s.plainCompletion p status)

/-- Takes a job out of Q10 and completes it without running it. -/
def State.refuseJob (s : State) (p : Packet) (status : Byte) : State := (s.takeJob p).refuseTaken p status

/-- The engines a channel may name (R102, R105): CH124 to CH127 all three. -/
def State.engineAllowed (s : State) (ch eng : Nat) : Bool :=
  decide (124 ≤ ch) || testBit (byteAt (s.chTemplate ch) 6) (eng - 1)

/-- The class a job runs in: REC jobs 0, jobs of tag channels 4 (R341). -/
def State.trafficClass (s : State) (ch tc : Nat) (rec_ : Bool) : Nat :=
  if rec_ then 0 else if s.rf (aCHN_BIND ch) 3 0 = 4 ∧ ch < 124 then 4 else tc

/-- A channel may name a traffic class: 3 only CH124 to CH127, 4 only tag channels, 1 the ranging block alone (R341). -/
def State.classAllowed (s : State) (ch tc : Nat) : Bool :=
  decide (tc = 0 ∨ tc = 2 ∨ (tc = 3 ∧ 124 ≤ ch) ∨ (tc = 4 ∧ s.rf (aCHN_BIND ch) 3 0 = 4))

/-- A redundant class (R341). -/
def redundant (tc : Nat) : Bool := decide (2 ≤ tc ∧ tc ≤ 4)

/-- A job's data: inline after its descriptor items, or the packet at the head of SRCQ. -/
def State.jobData (s : State) (p : Packet) (descItems : Nat) : Bytes :=
  match jobSrcq p with
  | some q => match s.headPacket q with
    | some d => packetBytes d
    | none => []
  | none => (p.items.drop descItems).flatMap itemBytes

/-- Takes a job and its source packet, where it has one. -/
def State.takeJobData (s : State) (p : Packet) : State :=
  let s := s.takeJob p
  match jobSrcq p with
  | some q => s.takeHead q
  | none => s

/-- The packet of a job, or its source packet, failed its check (R344, R506). -/
def State.jobBroken (s : State) (p : Packet) : Bool :=
  packetBroken p || (match jobSrcq p with
    | some q => (match s.headPacket q with | some d => packetBroken d | none => false)
    | none => false)

/-- Closes the sessions of a job that an alarm ends, where its class and references say so; counts KEY_ERASE once where
it closed one (R342, R367, R388). -/
def State.alarmSession (s : State) (fault : Nat) (r : Run) : State :=
  let out := match r.dest with | .queue _ => [] | _ => r.outSes.toList
  let l := (r.keySes.toList ++ out).filter fun n => decide ((s.ses n).st ≠ .free ∧ (s.ses n).st ≠ .closing)
  if r.tclass ≤ 1 ∧ l ≠ [] then (s.each l fun s n => s.closeSes n).bumpSat fault 7 0 1 else s

/-- A run of nothing. -/
def runNil : Run :=
  { chan := 0, prio := 0, desc := [], tclass := 0, keySes := none, outSes := none, status := 0, out := [], dest := .none,
    stores := [], scratch := [], mac := [], rseq := 0, flags := 0, steps := 0, cycles := 0, index := 0, save := none,
    step := 0, resv := 0, ins := false }

/-- Delivers a finished run's output: none while its queue has no room (R399); otherwise the job's status, the SEQ of
the output packet, and the state (R345, R375). An output that a check at commit rewinds ends the job with AUTH_FAIL
(R397). -/
def State.deliver (s : State) (r : Run) : Option (Byte × Nat × State) :=
  match r.dest with
  | .none => some (r.status, 0, s)
  | .lost => some (r.status, 0, s)
  | .queue n =>
    let p := bytesPacket r.prio r.chan r.out
    if s.hwOk n p then (s.hwCommit n p).map fun t => (r.status, s.nextSeq n, t)
    else some (cAuthFail, 0, s.drop n)
  | .static k off => some (r.status, 0, s.keyWrite false k off r.out)
  | .session n off => some (r.status, 0, s.keyWrite true n off r.out)
  | .ranging n off =>
    let suite3 := decide ((s.ses n).suite = 3)
    let t := s.keyWrite true n (if suite3 then 16 * off else 96) (slice r.out 0 16)
    let t := t.keyWrite true n (if suite3 then 16 * off + 16 else 112) (slice r.out 32 16)
    some (r.status, 0, t.modSes n fun x =>
      if suite3 ∧ off = 2 then { x with vSeedF := slice r.out 16 12, hasFused := true }
      else { x with vSeed := slice r.out 16 12 })
  | .opmem w => some (r.status, 0, s.memWrite (0x50000000 + 8 * w) (slice r.out 0 ((r.out.length + 7) / 8 * 8)))

/-- Gives back what the running AES job has reserved in Q12 (R331, R343). -/
def State.release (s : State) : State :=
  { s with eng := { s.eng with aes := s.eng.aes.map fun r => { r with resv := 0 } } }

/-! ### Jobs of the unit itself -/

/-- What an internal job counts in its engine's COUNT. -/
def State.countJob (s : State) (eng : Nat) (failed : Bool) : State :=
  ((s.bump (countReg eng) 15 0 1).evt (engBlock eng) 0x03 1).onlyIf failed fun s =>
    (s.bump (countReg eng) 31 16 1).evt (engBlock eng) 0x04 1

/-- A unit's own job, which does not pass through Q10: a keyed one ends with RNG_FAIL where the mask generator of its
engine is STOPPED (R321, R327). -/
def State.innerJob (s : State) (eng : Nat) : Byte × State :=
  let bad := s.maskStopped (eng - 1)
  (if bad then cRngFail else cOk, s.countJob eng bad)

/-- The output of a run could never fit its queue (R399). -/
def State.neverFits (s : State) (n len : Nat) : Bool := decide (s.capacity n < max 1 ((len + 3) / 4))

end Machine
end Sys2Proof
end

