-- ==== Sys2Proof/Machine/AesEngine.lean ====
section
/-!
DEFINITION. The symmetric engine (R326 to R346): the job descriptor, its checks, the modes, the start of a job of each
mode and the completion.
-/
namespace Sys2Proof
namespace Machine

/-! ### The descriptor (R329) -/

/-- MODE. -/
def aesMode (d : List Word) : Nat := fld (wordAt d 0) 27 24
/-- TCLASS. -/
def aesTclass (d : List Word) : Nat := fld (wordAt d 0) 23 21
/-- DIR. -/
def aesDir (d : List Word) : Bool := bit (wordAt d 0) 20
/-- INLINE. -/
def aesInline (d : List Word) : Bool := bit (wordAt d 0) 19
/-- KEYOUT. -/
def aesKeyout (d : List Word) : Bool := bit (wordAt d 0) 18
/-- KEYIN. -/
def aesKeyin (d : List Word) : Bool := bit (wordAt d 0) 17
/-- SRCQ. -/
def aesSrcq (d : List Word) : Nat := fld (wordAt d 0) 15 12
/-- DSTQ. -/
def aesDstq (d : List Word) : Nat := fld (wordAt d 0) 11 8
/-- KEY. -/
def aesKey (d : List Word) : Word := wordAt d 1
/-- ALEN. -/
def aesAlen (d : List Word) : Nat := fld (wordAt d 2) 31 16
/-- DLEN. -/
def aesDlen (d : List Word) : Nat := fld (wordAt d 2) 15 0
/-- TAGLEN. -/
def aesTaglen (d : List Word) : Nat := fld (wordAt d 3) 31 24
/-- IVLEN. -/
def aesIvlen (d : List Word) : Nat := fld (wordAt d 3) 23 16
/-- IV, the 16 bytes of words 4 to 7. -/
def aesIv (d : List Word) : Bytes := ofWords ((d.drop 4).take 4)
/-- KEY2. -/
def aesKey2 (d : List Word) : Word := wordAt d 8

/-- The mode opens: its plaintext goes to Q12 (R330, R343). -/
def aesOpens (d : List Word) : Bool :=
  aesDir d && (decide (aesMode d = 2 ∨ aesMode d = 3 ∨ aesMode d = 6) || (decide (aesMode d = 5) && !aesKeyout d))

/-- The output of the mode goes to DSTQ. -/
def aesToDst (d : List Word) : Bool :=
  decide (aesMode d = 1) || (!aesDir d && decide (aesMode d = 2 ∨ aesMode d = 3 ∨ aesMode d = 5 ∨ aesMode d = 6))

/-- The data bytes that the descriptor implies (R329, R335). -/
def aesDataLen (d : List Word) : Nat :=
  if aesMode d = 2 ∨ aesMode d = 3 then aesAlen d + aesDlen d + (if aesDir d then aesTaglen d else 0)
  else if aesMode d = 6 then aesDlen d + (if aesDir d then 24 else 0)
  else aesDlen d

/-- The output bytes that go to DSTQ, with the key that KEYIN appends (R332, R335, R337). -/
def aesOutLen (d : List Word) : Nat :=
  match aesMode d with
  | 2 => aesDlen d + aesTaglen d
  | 3 => aesDlen d + aesTaglen d
  | 5 => aesDlen d + 8
  | 6 => aesDlen d + 24 + (if aesKeyin d then 16 * kLen (aesKey2 d) else 0)
  | _ => aesDlen d

/-- The plaintext bytes of an open. -/
def aesPlainLen (d : List Word) : Nat := if aesMode d = 5 then aesDlen d - 8 else aesDlen d

/-! ### The checks at the start (R331) -/

/-- Step 1: a length of zero that may not be zero; a MODE outside the table forbids none. -/
def aesZero (d : List Word) : Bool :=
  decide (kLen (aesKey d) = 0) || ((aesKeyout d || aesKeyin d) && decide (kLen (aesKey2 d) = 0)) ||
    (if aesMode d = 2 ∨ aesMode d = 3 then decide (aesDlen d = 0 ∧ aesAlen d = 0)
     else decide (1 ≤ aesMode d ∧ aesMode d ≤ 7 ∧ aesMode d ≠ 4 ∧ aesDlen d = 0))

/-- The lengths of the mode table (R332). -/
def aesLengths (d : List Word) : Bool :=
  let al := aesAlen d
  let dl := aesDlen d
  let tl := aesTaglen d
  let iv := aesIvlen d
  match aesMode d with
  | 1 => decide ((dl = 512 ∨ dl = 4096) ∧ al = 0 ∧ iv = 0 ∧ tl = 0)
  | 2 => decide (iv = 12 ∧ 12 ≤ tl ∧ tl ≤ 16 ∧ al + dl ≤ 65535)
  | 3 => decide (7 ≤ iv ∧ iv ≤ 13 ∧ 4 ≤ tl ∧ tl ≤ 16 ∧ tl % 2 = 0 ∧ al + dl ≤ 65535)
  | 4 => decide (al = 0 ∧ iv = 0 ∧ 4 ≤ tl ∧ tl ≤ 16)
  | 5 => decide (al = 0 ∧ iv = 0 ∧ tl = 0 ∧ dl % 8 = 0) &&
      (if aesDir d then decide (24 ≤ dl ∧ dl ≤ 4104) else decide (16 ≤ dl ∧ dl ≤ 4096))
  | 6 => decide (al = 0 ∧ iv = 0 ∧ tl = 0 ∧ dl + (if aesKeyin d then 16 * kLen (aesKey2 d) else 0) ≤ 4096)
  | 7 => decide (al = 0 ∧ iv = 0 ∧ tl = 0 ∧ (dl = 16 ∨ dl = 32)) && !aesDir d && aesKeyout d
  | _ => false

/-- KEYOUT, KEYIN and word 8 (R330, R332, R337, R338). -/
def aesSecondKey (ch : Nat) (d : List Word) : Bool :=
  ((!aesKeyout d && !aesKeyin d) || decide (124 ≤ ch)) &&
    (!aesKeyin d || (decide (aesMode d = 6) && !aesDir d)) &&
    (!aesKeyout d || (decide (aesMode d = 7) && decide (16 * kLen (aesKey2 d) = aesDlen d)) ||
      (decide (aesMode d = 5) && aesDir d && decide (16 * kLen (aesKey2 d) + 8 = aesDlen d))) &&
    (aesKeyout d || aesKeyin d || decide (aesKey2 d = 0))

/-- Step 2: every field within its rules. DSTQ is looked at where the mode does not open (R329); a code of TCLASS that the
submitter may not use is refused though a REC job or a tag channel's has its own class (R341; log entry 65). -/
def aesFields (s : State) (ch : Nat) (d : List Word) : Bool :=
  decide (1 ≤ aesMode d ∧ aesMode d ≤ 7) &&
    s.classAllowed ch (aesTclass d) &&
    decide (fld (wordAt d 0) 16 16 = 0 ∧ fld (wordAt d 0) 7 0 = 0 ∧ fld (wordAt d 3) 15 0 = 0) &&
    (aesInline d || queueOk ch (aesSrcq d)) && (aesOpens d || queueOk ch (aesDstq d)) &&
    aesSecondKey ch d && aesLengths d

/-- The use that a mode needs (R332). -/
def aesUse (d : List Word) : Nat :=
  match aesMode d with
  | 4 => 4
  | 5 => 8
  | 7 => 0x40
  | _ => if aesDir d then 2 else 1

/-- The key reference and its type against the mode (R328). -/
def aesKeyType (s : State) (d : List Word) : Bool :=
  let r := aesKey d
  if kSes r then decide (aesMode d ≠ 1 ∧ (kLen r = 1 ∨ kLen r = 2))
  else if aesMode d = 1 then decide ((s.keyType r = 9 ∧ kLen r = 2) ∨ (s.keyType r = 3 ∧ kLen r = 4))
  else decide ((s.keyType r = 1 ∧ kLen r = 1) ∨ (s.keyType r = 2 ∧ kLen r = 2))

/-- Step 3: the key references (R295, R328, R334, R337). -/
def aesKeys (s : State) (ch : Nat) (d : List Word) : Byte :=
  let r := aesKey d
  let first :=
    if aesMode d = 6 then
      if kSes r = false then cNoSession
      else if s.keyCheck ch r 0 ≠ cOk then s.keyCheck ch r 0
      else if (s.ses (kSlot r)).st = .ready ∧ (s.ses (kSlot r)).suite = 1 then cOk else cNoSession
    else if s.keyCheck ch r (aesUse d) ≠ cOk then s.keyCheck ch r (aesUse d)
    else if aesKeyType s d then cOk else cAuthFail
  if first ≠ cOk then first
  else if aesKeyin d then s.keyCheck ch (aesKey2 d) 0
  else if aesKeyout d then s.keyoutCheck ch (aesKey2 d)
  else cOk

/-- The send counter of a REC seal's READY SUITE 1 session is used up (R336). -/
def aesExhausted (s : State) (d : List Word) : Bool :=
  let x := s.ses (kSlot (aesKey d))
  decide (aesMode d = 6) && !aesDir d && kSes (aesKey d) &&
    decide (x.st = .ready ∧ x.suite = 1 ∧ x.tx = 0xFFFFFFFF)

/-- The code with which a job ends before it takes its input: R105, R321, R331, R336, R399. The scheduler completes a job
that names an engine it may not use (R105), so no condition of the engine comes before that one; RNG_FAIL and the ABORTED
of an exhausted counter come before the checks of R331 (R17). -/
def aesRefusal (s : State) (p : Packet) (d : List Word) : Byte :=
  if s.engineAllowed p.src engAes = false then cAuthFail
  else if s.maskStopped 0 then cRngFail
  else if aesExhausted s d then cAborted
  else if p.items.length < 9 then cAuthFail
  else if aesZero d then cLenZero
  else if aesFields s p.src d = false then cAuthFail
  else if aesKeys s p.src d ≠ cOk then aesKeys s p.src d
  else if aesToDst d && s.neverFits (s.dstLane (aesDstq d)) (aesOutLen d) then cAborted
  else if aesOpens d && decide (s.room 12 < max 1 ((aesPlainLen d + 3) / 4)) then cAborted
  else cOk

/-! ### The modes (R332 to R338) -/

/-- The key a job runs under: of a REC job K_D2P for a seal and K_P2D for an open, whatever OFF and LEN say (R334). -/
def aesJobKey (s : State) (d : List Word) : Bytes :=
  if aesMode d = 6 then slice (s.ses (kSlot (aesKey d))).slot (if aesDir d then 32 else 0) 32
  else s.keyBytes (aesKey d)

/-- The IV of a record (R335). -/
def recIv (dir : Byte) (seq : Bytes) : Bytes := dir :: zeros 7 ++ seq

/-- A record sealed (R335). -/
def recSeal (key pt : Bytes) (seq : Nat) : Bytes :=
  let hdr := [1, 1] ++ toLE 2 pt.length ++ toLE 4 seq
  hdr ++ gcmSeal key (recIv 1 (toLE 4 seq)) hdr pt 16

/-- A record opened against a floor: the status and the plaintext (R336). -/
def recOpen (key : Bytes) (floor dlen : Nat) (b : Bytes) : Byte × Bytes :=
  let seq := le32 b 4
  if byteAt b 0 ≠ 1 ∨ byteAt b 1 ≠ 2 ∨ le16 b 2 ≠ dlen then (cAuthFail, [])
  else if seq < floor ∨ seq = 0xFFFFFFFF then (cTagFail, [])
  else match gcmOpen key (recIv 2 (slice b 4 4)) (slice b 0 8) (slice b 8 dlen) (b.drop (8 + dlen)) with
    | some pt => (cOk, pt)
    | none => (cTagFail, [])

/-- The status and the output of an open. -/
def opened : Option Bytes → Byte × Bytes
  | some pt => (cOk, pt)
  | none => (cTagFail, [])

/-- Loads the working key register (R326). -/
def State.loadAesKey (s : State) (k : Bytes) : State := { s with eng := { s.eng with aesKey := k } }

/-- The engine has no job, and its working key register is cleared (R326). -/
def State.dropAes (s : State) : State := { s with eng := { s.eng with aes := none, aesKey := [] } }

/-- The status and the output of a job under the key in the working register; a MAC to generate is its output. -/
def aesCompute (s : State) (d : List Word) (data : Bytes) : Byte × Bytes :=
  let key := s.eng.aesKey
  let iv := (aesIv d).take (aesIvlen d)
  let aad := slice data 0 (aesAlen d)
  let body := slice data (aesAlen d) (aesDlen d)
  let tag := data.drop (aesAlen d + aesDlen d)
  match aesMode d with
  | 1 => (cOk, xts (aesDir d) key (aesIv d) data)
  | 2 => if aesDir d then opened (gcmOpen key iv aad body tag) else (cOk, gcmSeal key iv aad body (aesTaglen d))
  | 3 => if aesDir d then opened (ccmOpen key iv aad body tag) else (cOk, ccmSeal key iv aad body (aesTaglen d))
  | 4 =>
    let m := (cmac key data).take (aesTaglen d)
    if aesDir d then (if m = (aesIv d).take (aesTaglen d) then (cOk, []) else (cTagFail, [])) else (cOk, m)
  | 5 => if aesDir d then opened (kwUnwrap key data) else (cOk, kwWrap key data)
  | 6 =>
    let x := s.ses (kSlot (aesKey d))
    if aesDir d then recOpen key x.rxFloor.toNat (aesDlen d) data
    else (cOk, recSeal key (data ++ (if aesKeyin d then s.keyBytes (aesKey2 d) else [])) x.tx.toNat)
  | _ => (cOk, ecbEnc key data)

/-- The SEQ of the record of a REC job. -/
def aesRseq (s : State) (d : List Word) (data : Bytes) : Word :=
  if aesMode d = 6 then (if aesDir d then w32 (le32 data 4) else (s.ses (kSlot (aesKey d))).tx) else 0

/-- Where the output goes. -/
def aesDest (s : State) (d : List Word) : OutDest :=
  if aesOpens d then .queue 12
  else if aesToDst d then .queue (s.dstLane (aesDstq d))
  else if aesKeyout d then
    (if kSes (aesKey2 d) then .session (kSlot (aesKey2 d)) (16 * kOff (aesKey2 d))
     else .static (kSlot (aesKey2 d)) (16 * kOff (aesKey2 d)))
  else .none

/-! ### Durations (R339) -/

/-- Engine-busy CRYPTO cycles. -/
def aesCycles (d : List Word) (keyLen tc : Nat) : Nat :=
  let b := if (if aesMode d = 1 then keyLen / 2 else keyLen) = 16 then 24 else 32
  let n := max (if aesMode d = 4 then 1 else 0) ((aesDlen d + 15) / 16)
  let a := if aesMode d = 6 then 1 else (aesAlen d + 15) / 16
  let c :=
    match aesMode d with
    | 1 => (n + 1) * b
    | 2 => (n + 2) * b + 4 * a + 8
    | 3 => (2 * n + a + 2) * b
    | 4 => (n + 1) * b
    | 5 => 6 * (aesDlen d / 8 - b2n (aesDir d)) * b
    | 6 => (n + 2) * b + 4 * a + 8
    | _ => n * b
  100 + c + (if redundant tc then 8 else 0)

/-! ### The start of a job -/

/-- The run of a job on its data. -/
def aesRun (s : State) (p : Packet) (d : List Word) (data : Bytes) (broken : Bool) : Run :=
  let r := aesCompute s d data
  let tc := s.trafficClass p.src (aesTclass d) (decide (aesMode d = 6))
  { runNil with
    chan := p.src, prio := s.effPrio p, desc := d.take 9, tclass := tc, keySes := refSes (aesKey d)
    status := if broken then cAlarm else r.1
    out := if aesMode d = 4 ∨ broken then [] else r.2
    mac := if aesMode d = 4 then r.2 else []
    outSes := if aesKeyout d ∨ aesKeyin d then refSes (aesKey2 d) else none
    resv := if aesOpens d then max 1 ((aesPlainLen d + 3) / 4) else 0
    dest := aesDest s d, rseq := aesRseq s d data, cycles := aesCycles d s.eng.aesKey.length tc }

/-- What a start does to the sessions of its references: it restarts the idle count, and a REC seal takes its SEQ (R113,
R336). -/
def aesUseSes (s : State) (d : List Word) : State :=
  let s := match refSes (aesKey2 d) with
    | some n => s.onlyIf (aesKeyout d || aesKeyin d) fun s => s.useSes n
    | none => s
  match refSes (aesKey d) with
  | some n =>
    (s.useSes n).onlyIf (decide (aesMode d = 6) && !aesDir d) fun s => s.modSes n fun x => { x with tx := x.tx + 1 }
  | none => s

/-- The source packet of a job, where it takes one. -/
def State.sourceOf (s : State) (p : Packet) : Option (Nat × Packet) :=
  match jobSrcq p with
  | some q => (s.headPacket q).map fun d => (q, d)
  | none => none

/-- The source packet of a job failed its check (R344). -/
def State.sourceBroken (s : State) (p : Packet) : Bool :=
  match s.sourceOf p with
  | some (_, d) => packetBroken d
  | none => false

/-- Counts the failed check of a job's source packet. -/
def State.countSource (s : State) (src : Option (Nat × Packet)) : State :=
  match src with
  | some (q, d) => s.countBroken q d
  | none => s

/-- Starts a job: refuses it, or takes it with its data and runs it. -/
def aesBegin (s : State) (p : Packet) : State :=
  let d := packetWords p
  let s := { s with eng := { s.eng with aesLast := p.src } }
  if packetBroken p then (s.countBroken 10 p).refuseJob p cAlarm
  else if aesRefusal (s.jobView p) p d ≠ cOk then s.refuseJob p (aesRefusal (s.jobView p) p d)
  else
    let data := s.jobData p 9
    let src := s.sourceOf p
    let broken := s.sourceBroken p
    if broken = false ∧ data.length ≠ aesDataLen d then (s.takeJobData p).refuseTaken p cAuthFail
    else
      let s := s.loadAesKey (aesJobKey s d)
      let run := aesRun s p d data broken
      let s := aesUseSes ((s.takeJobData p).countSource src) d
      { s with eng := { s.eng with aes := some run } }

/-- A free engine starts its next job where that job's mode is m, or is no mode at all. -/
def aesStart (m : Nat) (s : State) : State :=
  if s.resumed ∧ s.eng.aes = none ∧ s.eng.stsBusy = false then
    match s.candidate engAes s.eng.aesLast with
    | some p =>
      let k := aesMode (packetWords p)
      if k = m ∨ k = 0 ∨ 7 < k then aesBegin s p else s
    | none => s
  else s

/-! ### The end of a job -/

/-- Completion words (R345). -/
def aesWords (r : Run) (status : Byte) (seq : Nat) : List Word :=
  let ok := isFail status = false
  let bytes := if ok ∧ r.dest ≠ .none then r.out.length else 0
  [w32 (status.toNat * 2 ^ 24 + aesMode r.desc * 2 ^ 20 + b2n (aesDir r.desc) * 2 ^ 19 +
      b2n (redundant r.tclass) * 2 ^ 18 + (if ok then seq else 0)), w32 bytes, r.rseq] ++
    (if aesMode r.desc = 4 ∧ aesDir r.desc = false then
      toWords (slice (if ok then r.mac else []) 0 16) else [])

/-- Rewinds the output packet of a job that fails. A plaintext of at most 4096 bytes has not reached Q12 (R342, R343, R346,
R397). -/
def State.rewindOut (s : State) (r : Run) : State :=
  match r.dest with
  | .queue n => if n = 12 ∧ r.resv ≤ 1024 then s else s.drop n
  | _ => s

/-- Ends the running job with a failure: its output rewound, its reservation released, the working key register cleared
(R342, R346). -/
def State.endAes (s : State) (status : Byte) : State :=
  match s.eng.aes with
  | some r =>
    let s := s.dropAes.rewindOut r
    let s := s.onlyIf (decide (status = cAlarm)) fun s => s.alarmSession aAES_FAULT r
    s.completeJob r.chan r.prio engAes status (aesWords r status 0)
  | none => s

/-- A REC open that verified raises the floor (R336). -/
def aesFloor (s : State) (r : Run) (status : Byte) : State :=
  match r.keySes with
  | some n =>
    s.onlyIf (decide (aesMode r.desc = 6) && aesDir r.desc && decide (status = cOk)) fun s =>
      s.modSes n fun x => { x with rxFloor := r.rseq + 1 }
  | none => s

/-- The running job completes: its output first, then its completion (R345). A mismatch of the two lanes of a redundant
class ends it with FAULT_ALARM (R342). -/
def aesFinish (s : State) (mismatch : Bool) : State :=
  match s.eng.aes with
  | none => s
  | some r =>
    if mismatch ∧ redundant r.tclass then (s.bumpSat aAES_FAULT 15 8 1).endAes cAlarm
    else if isFail r.status then
      (s.dropAes.rewindOut r).completeJob r.chan r.prio engAes r.status (aesWords r r.status 0)
    else
      match s.release.deliver r with
      | none => s
      | some (status, seq, s) =>
        (aesFloor s.dropAes r status).completeJob r.chan r.prio engAes status (aesWords r status seq)

/-- AES_XTS (R333). -/
def execAesXts (s : State) : Result := done (aesStart 1 s)
/-- AES_GCM (R332). -/
def execAesGcm (s : State) : Result := done (aesStart 2 s)
/-- AES_CCM (R332). -/
def execAesCcm (s : State) : Result := done (aesStart 3 s)
/-- AES_CMAC (R332). -/
def execAesCmac (s : State) : Result := done (aesStart 4 s)
/-- AES_KW (R332). -/
def execAesKw (s : State) : Result := done (aesStart 5 s)
/-- AES_REC (R336). -/
def execAesRec (s : State) : Result := done (aesStart 6 s)
/-- AES_ECB_DERIVE (R338). -/
def execAesEcbDerive (s : State) : Result := done (aesStart 7 s)
/-- AES_JOB_COMPLETION (R345). -/
def execAesJobCompletion (mismatch : Bool) (s : State) : Result := done (aesFinish s mismatch)

end Machine
end Sys2Proof
end

