-- ==== Sys2Proof/Machine/Curves.lean ====
section
/-!
DEFINITION. The curve arithmetic that R357 to R362 name by their standards: FIPS 186-5 (P-256, P-384), RFC 7748 and
RFC 8032. The spec names the standards and does not print them; these texts are PRESUMED from them (log entry 8).
-/
namespace Sys2Proof
namespace Machine

/-- b^e mod m over the low k bits of e. -/
def powMod (k b e m : Nat) : Nat :=
  (List.range k).reverse.foldl (fun a i => let q := a * a % m; if testBit e i then q * b % m else q) (1 % m)

/-- The inverse modulo a prime of at most 384 bits, 0 for 0. -/
def invMod (a p : Nat) : Nat := powMod 384 (a % p) (p - 2) p

/-- a - b mod p. -/
def subMod (a b p : Nat) : Nat := (a % p + (p - b % p)) % p

/-- A curve y^2 = x^3 - 3x + b over a prime field. -/
structure Curve where
  f : Nat
  p : Nat
  b : Nat
  n : Nat
  gx : Nat
  gy : Nat
  deriving DecidableEq, Repr

/-- P-256: f is its coordinate length in 64-bit words. -/
def p256 : Curve where
  f := 4
  p := 0xffffffff00000001000000000000000000000000ffffffffffffffffffffffff
  b := 0x5ac635d8aa3a93e7b3ebbd55769886bc651d06b0cc53b0f63bce3c3e27d2604b
  n := 0xffffffff00000000ffffffffffffffffbce6faada7179e84f3b9cac2fc632551
  gx := 0x6b17d1f2e12c4247f8bce6e563a440f277037d812deb33a0f4a13945d898c296
  gy := 0x4fe342e2fe1a7f9b8ee7eb4a7c0f9e162bce33576b315ececbb6406837bf51f5

/-- P-384. -/
def p384 : Curve where
  f := 6
  p := 0xfffffffffffffffffffffffffffffffffffffffffffffffffffffffffffffffeffffffff0000000000000000ffffffff
  b := 0xb3312fa7e23ee7e4988e056be3f82d19181d9c6efe8141120314088f5013875ac656398d8a2ed19d2a85c8edd3ec2aef
  n := 0xffffffffffffffffffffffffffffffffffffffffffffffffc7634d81f4372ddf581a0db248b0a77aecec196accc52973
  gx := 0xaa87ca22be8b05378eb1c71ef320ad746e1d3b628ba79b9859f741e082542a385502f25dbf55296c3a545e3872760ab7
  gy := 0x3617de4a96262c6f5d9e98bf9292dc29f8f41dbd289a147ce9da3113b5f0b8c00a60b1ce1d7e819d7a431d7c90ea0e5f

/-- A point; none is the point at infinity. -/
abbrev Pt := Option (Nat × Nat)

/-- The curve equation. -/
def onCurve (c : Curve) (x y : Nat) : Bool :=
  decide (x < c.p ∧ y < c.p ∧ y * y % c.p = (x * x % c.p * x + (c.p - 3) * x + c.b) % c.p)

/-- The third point of a line of slope l through x1, y1 and x2. -/
def chord (p l x1 y1 x2 : Nat) : Nat × Nat :=
  let x3 := subMod (l * l) (x1 + x2) p
  (x3, subMod (l * subMod x1 x3 p) y1 p)

/-- Point addition. -/
def ptAdd (c : Curve) : Pt → Pt → Pt
  | none, q => q
  | p, none => p
  | some (x1, y1), some (x2, y2) =>
    if x1 = x2 then
      if (y1 + y2) % c.p = 0 then none
      else some (chord c.p ((3 * x1 * x1 + (c.p - 3)) % c.p * invMod (2 * y1) c.p % c.p) x1 y1 x2)
    else some (chord c.p (subMod y2 y1 c.p * invMod (subMod x2 x1 c.p) c.p % c.p) x1 y1 x2)

/-- Scalar multiplication over 384 scalar bits. -/
def ptMul (c : Curve) (k : Nat) (q : Pt) : Pt :=
  (List.range 384).reverse.foldl (fun a i => let d := ptAdd c a a; if testBit k i then ptAdd c d q else d) none

/-- The base point. -/
def basePt (c : Curve) : Pt := some (c.gx, c.gy)

/-- ECDSA: the signature (r, s) of e under d with nonce k; none where k, r or s is 0. -/
def ecdsaSign (c : Curve) (d e k : Nat) : Option (Nat × Nat) :=
  match ptMul c k (basePt c) with
  | none => none
  | some (x, _) =>
    let r := x % c.n
    let s := invMod k c.n * ((e + r * d) % c.n) % c.n
    if r = 0 ∨ s = 0 then none else some (r, s)

/-- ECDSA verification for a point on the curve. -/
def ecdsaVerify (c : Curve) (q : Nat × Nat) (e r s : Nat) : Bool :=
  if r = 0 ∨ s = 0 ∨ c.n ≤ r ∨ c.n ≤ s then false
  else
    let w := invMod s c.n
    match ptAdd c (ptMul c (e * w % c.n) (basePt c)) (ptMul c (r * w % c.n) (some q)) with
    | none => false
    | some (x, _) => decide (x % c.n = r)

/-! ### X25519 (RFC 7748) -/

/-- The prime 2^255 - 19. -/
def p25519 : Nat := 2 ^ 255 - 19

/-- The clamped scalar. -/
def clampScalar (k : Nat) : Nat := (k % 2 ^ 254 - k % 8) + 2 ^ 254

/-- One ladder step on (x2, z2, x3, z3) for the u-coordinate u. -/
def ladderStep (u : Nat) (v : Nat × Nat × Nat × Nat) : Nat × Nat × Nat × Nat :=
  let p := p25519
  let a := (v.1 + v.2.1) % p
  let b := subMod v.1 v.2.1 p
  let aa := a * a % p
  let bb := b * b % p
  let e := subMod aa bb p
  let da := subMod v.2.2.1 v.2.2.2 p * a % p
  let cb := (v.2.2.1 + v.2.2.2) % p * b % p
  let m := (da + cb) % p
  let d := subMod da cb p
  (aa * bb % p, e * ((aa + 121665 * e) % p) % p, m * m % p, u * (d * d % p) % p)

/-- Swaps the two points of the ladder. -/
def ladderSwap (v : Nat × Nat × Nat × Nat) : Nat × Nat × Nat × Nat := (v.2.2.1, v.2.2.2, v.1, v.2.1)

/-- X25519 of an unclamped scalar and a u-coordinate. -/
def x25519Fn (k u : Nat) : Nat :=
  let k := clampScalar k
  let u := u % 2 ^ 255 % p25519
  let r := (List.range 255).reverse.foldl
    (fun v i => if testBit k i then ladderSwap (ladderStep u (ladderSwap v)) else ladderStep u v) (1, 0, u, 1)
  r.1 * invMod r.2.1 p25519 % p25519

/-! ### Ed25519 verification (RFC 8032) -/

/-- The group order. -/
def ordL : Nat := 2 ^ 252 + 27742317777372353535851937790883648493

/-- The curve constant d. -/
def edD : Nat := 37095705934669439343138083508754565189542113879843219016388785533085940283555

/-- Addition on the twisted Edwards curve. -/
def edAdd (a b : Nat × Nat) : Nat × Nat :=
  let p := p25519
  let m := edD * (a.1 * b.1 % p) % p * (a.2 * b.2 % p) % p
  ((a.1 * b.2 + a.2 * b.1) % p * invMod (1 + m) p % p, (a.2 * b.2 + a.1 * b.1) % p * invMod (subMod 1 m p) p % p)

/-- Scalar multiplication over 256 bits. -/
def edMul (k : Nat) (q : Nat × Nat) : Nat × Nat :=
  (List.range 256).reverse.foldl (fun a i => let d := edAdd a a; if testBit k i then edAdd d q else d) (0, 1)

/-- Decoding of a 32-byte point. -/
def edDecode (n : Nat) : Option (Nat × Nat) :=
  let p := p25519
  let y := n % 2 ^ 255
  let sign := n / 2 ^ 255
  if p ≤ y then none
  else
    let u := subMod (y * y) 1 p
    let v := (edD * (y * y % p) + 1) % p
    let w := u * invMod v p % p
    let x := powMod 256 w ((p + 3) / 8) p
    let x := if x * x % p = w then x else x * powMod 256 2 ((p - 1) / 4) p % p
    if x * x % p ≠ w then none
    else if x = 0 ∧ sign = 1 then none
    else if x % 2 = sign then some (x, y) else some (p - x, y)

/-- The base point. -/
def edBase : Nat × Nat :=
  (15112221349535400772501151409588531511454012693041857206046113283949847762202,
   46316835694926478169428394003475163141307993866256225615783033603165251855960)

/-- The cofactored equation [8][S]B = [8]R + [8][k]A. -/
def edEquation (s k : Nat) (r a : Nat × Nat) : Bool :=
  decide (edMul 8 (edMul s edBase) = edAdd (edMul 8 r) (edMul 8 (edMul k a)))

end Machine
end Sys2Proof
end

