-- ==== Sys2Proof/Machine/Keccak.lean ====
section
/-!
DEFINITION. SHA-3, SHAKE (FIPS 202) and KMAC256 (SP 800-185), named by R371. The spec names the standards and does not
print them; these texts are PRESUMED from them (log entry 8).
-/
namespace Sys2Proof
namespace Machine

/-- The 25 lanes of the Keccak state, x + 5y. -/
abbrev Lanes := List (BitVec 64)

/-- The round constants of Keccak-f[1600]. -/
def keccakRC : List (BitVec 64) :=
  [0x0000000000000001, 0x0000000000008082, 0x800000000000808A, 0x8000000080008000, 0x000000000000808B,
   0x0000000080000001, 0x8000000080008081, 0x8000000000008009, 0x000000000000008A, 0x0000000000000088,
   0x0000000080008009, 0x000000008000000A] ++
  [0x000000008000808B, 0x800000000000008B, 0x8000000000008089, 0x8000000000008003, 0x8000000000008002,
   0x8000000000000080, 0x000000000000800A, 0x800000008000000A, 0x8000000080008081, 0x8000000000008080,
   0x0000000080000001, 0x8000000080008008]

/-- The rotation of each lane in rho. -/
def keccakRot : List Nat :=
  [0, 1, 62, 28, 27, 36, 44, 6, 55, 20, 3, 10, 43, 25, 39, 41, 45, 15, 21, 8, 18, 2, 61, 56, 14]

/-- Lane i. -/
def lane (a : Lanes) (i : Nat) : BitVec 64 := a.getD i 0

/-- One round. -/
def keccakRound (a : Lanes) (rc : BitVec 64) : Lanes :=
  let c := (List.range 5).map fun x => lane a x ^^^ lane a (x + 5) ^^^ lane a (x + 10) ^^^ lane a (x + 15) ^^^
    lane a (x + 20)
  let d := (List.range 5).map fun x => lane c ((x + 4) % 5) ^^^ (lane c ((x + 1) % 5)).rotateLeft 1
  let t := (List.range 25).map fun i => (lane a i ^^^ lane d (i % 5)).rotateLeft (keccakRot.getD i 0)
  let b := (List.range 25).map fun i => lane t ((i % 5 + 3 * (i / 5)) % 5 + 5 * (i % 5))
  let e := (List.range 25).map fun i =>
    lane b i ^^^ (~~~(lane b ((i + 1) % 5 + 5 * (i / 5))) &&& lane b ((i + 2) % 5 + 5 * (i / 5)))
  (lane e 0 ^^^ rc) :: e.drop 1

/-- Keccak-f[1600]. -/
def keccakF (a : Lanes) : Lanes := keccakRC.foldl keccakRound a

/-- n lanes of a string. -/
def lanesOf : Nat → Bytes → Lanes
  | 0, _ => []
  | n + 1, b => BitVec.ofNat 64 (ofLE (b.take 8)) :: lanesOf n (b.drop 8)

/-- Absorbs n blocks of r bytes. -/
def absorb (r : Nat) : Nat → Bytes → Lanes → Lanes
  | 0, _, a => a
  | n + 1, b, a => absorb r n (b.drop r) (keccakF (List.zipWith (· ^^^ ·) a (lanesOf 25 (slice (b.take r) 0 200))))

/-- Squeezes n blocks of r bytes. -/
def squeeze (r : Nat) : Nat → Lanes → Bytes
  | 0, _ => []
  | n + 1, a => (a.flatMap fun l => toLE 8 l.toNat).take r ++ (if n = 0 then [] else squeeze r n (keccakF a))

/-- The sponge: rate r bytes, domain byte, message, n output bytes. -/
def sponge (r : Nat) (dom : Byte) (msg : Bytes) (n : Nat) : Bytes :=
  let k := msg.length / r + 1
  let p := msg ++ [dom] ++ zeros (k * r - msg.length - 1)
  let p := p.set (k * r - 1) (p.getD (k * r - 1) 0 ^^^ 0x80)
  (squeeze r ((n + r - 1) / r) (absorb r k p (List.replicate 25 0))).take n

/-- SHA3-256. -/
def sha3x256 (m : Bytes) : Bytes := sponge 136 0x06 m 32

/-- SHA3-512. -/
def sha3x512 (m : Bytes) : Bytes := sponge 72 0x06 m 64

/-- SHAKE128. -/
def shakeL (m : Bytes) (n : Nat) : Bytes := sponge 168 0x1F m n

/-- SHAKE256. -/
def shakeH (m : Bytes) (n : Nat) : Bytes := sponge 136 0x1F m n

/-- The fewest bytes, at least one, that hold a number. -/
def byteLen (v : Nat) : Nat := max 1 ((if v = 0 then 0 else v.log2 + 8) / 8)

/-- left_encode of SP 800-185. -/
def leftEncode (v : Nat) : Bytes := by8 (byteLen v) :: toBE (byteLen v) v

/-- right_encode of SP 800-185. -/
def rightEncode (v : Nat) : Bytes := toBE (byteLen v) v ++ [by8 (byteLen v)]

/-- encode_string of SP 800-185. -/
def encodeString (s : Bytes) : Bytes := leftEncode (8 * s.length) ++ s

/-- bytepad of SP 800-185 at rate 136. -/
def bytepad136 (s : Bytes) : Bytes :=
  let b := leftEncode 136 ++ s
  b ++ zeros ((136 - b.length % 136) % 136)

/-- The ASCII bytes of a string. -/
def ascii (s : String) : Bytes := s.toList.map fun c => by8 c.toNat

/-- What a KMAC256 computation absorbs before its message. -/
def kmacOpening (key custom : Bytes) : Bytes :=
  bytepad136 (encodeString (ascii "KMAC") ++ encodeString custom) ++ bytepad136 (encodeString key)

/-- The end of a KMAC256 computation over all that was absorbed. -/
def kmacFinish (absorbed : Bytes) (n : Nat) : Bytes := sponge 136 0x04 (absorbed ++ rightEncode (8 * n)) n

/-- KMAC256 with n output bytes. -/
def kmac (key custom msg : Bytes) (n : Nat) : Bytes := kmacFinish (kmacOpening key custom ++ msg) n

end Machine
end Sys2Proof
end

