-- ==== Sys2Proof/Machine/Lattice.lean ====
section
/-!
DEFINITION. ML-KEM-768 and its polynomial arithmetic, named by R358 after FIPS 203. The spec names the standard and
does not print it; this text is PRESUMED from it (log entry 8).
-/
namespace Sys2Proof
namespace Machine

/-- A polynomial of 256 coefficients modulo 3329. -/
abbrev Poly := List Nat

/-- The modulus q. -/
def kemQ : Nat := 3329

/-- 17^e mod q. -/
def zetaPow (e : Nat) : Nat := (List.range 8).reverse.foldl
  (fun a i => let s := a * a % kemQ; if testBit e i then s * 17 % kemQ else s) 1

/-- The 7-bit reversal. -/
def brv7 (i : Nat) : Nat := (List.range 7).foldl (fun a k => 2 * a + b2n (testBit i k)) 0

/-- zeta^(BitRev7 i). -/
def zeta (i : Nat) : Nat := zetaPow (brv7 i)

/-- Coefficientwise addition. -/
def polyAdd (a b : Poly) : Poly := List.zipWith (fun x y => (x + y) % kemQ) a b

/-- Coefficientwise subtraction. -/
def polySub (a b : Poly) : Poly := List.zipWith (fun x y => (x % kemQ + (kemQ - y % kemQ)) % kemQ) a b

/-- Multiplication by a constant. -/
def polyScale (c : Nat) (a : Poly) : Poly := a.map fun x => c * x % kemQ

/-- The NTT layers below node k of the butterfly tree. -/
def nttRec : Nat → Nat → Poly → Poly
  | 0, _, f => f
  | n + 1, k, f =>
    let h := f.length / 2
    let t := polyScale (zeta k) (f.drop h)
    nttRec n (2 * k) (polyAdd (f.take h) t) ++ nttRec n (2 * k + 1) (polySub (f.take h) t)

/-- The NTT. -/
def nttFn (f : Poly) : Poly := nttRec 7 1 f

/-- The inverse layers below mirrored node j. -/
def inttRec : Nat → Nat → Poly → Poly
  | 0, _, f => f
  | n + 1, j, f =>
    let h := f.length / 2
    let a := inttRec n (2 * j + 1) (f.take h)
    let b := inttRec n (2 * j) (f.drop h)
    polyAdd a b ++ polyScale (zeta j) (polySub b a)

/-- The inverse NTT. -/
def inttFn (f : Poly) : Poly := polyScale 3303 (inttRec 7 1 f)

/-- Products of linear pairs from pair i on. -/
def baseMulRec : Nat → Poly → Poly → Poly
  | i, a0 :: a1 :: a, b0 :: b1 :: b =>
    (a0 * b0 + a1 * b1 % kemQ * zetaPow ((2 * brv7 i + 1) % 256)) % kemQ :: (a0 * b1 + a1 * b0) % kemQ ::
      baseMulRec (i + 1) a b
  | _, _, _ => []

/-- MultiplyNTTs. -/
def baseMul (a b : Poly) : Poly := baseMulRec 0 a b

/-- The accepted values of a rejection-sampled byte stream. -/
def sampleCandidates : Bytes → List Nat
  | a :: b :: c :: t =>
    let d1 := a.toNat + 256 * (b.toNat % 16)
    let d2 := b.toNat / 16 + 16 * c.toNat
    (if d1 < kemQ then [d1] else []) ++ (if d2 < kemQ then [d2] else []) ++ sampleCandidates t
  | _ => []

/-- SampleNTT with at least n blocks, and more while too few values are accepted; with how many more were needed. -/
def sampleNtt (seed : Bytes) : Nat → Nat → Poly × Nat
  | 0, _ => (List.replicate 256 0, 0)
  | f + 1, n =>
    let c := sampleCandidates (shakeL seed (168 * n))
    if c.length < 256 then
      let r := sampleNtt seed f (n + 1)
      (r.1, r.2 + 1)
    else (c.take 256, 0)

/-- Bits of a byte string, least significant first. -/
def bitsLE (b : Bytes) : List Nat := b.flatMap fun x => (List.range 8).map fun i => b2n (x.getLsbD i)

/-- Values of d bits from bits, least significant first. -/
def takeBits (d : Nat) : Nat → List Nat → List Nat
  | 0, _ => []
  | n + 1, b => ((b.take d).reverse.foldl (fun a x => 2 * a + x) 0) :: takeBits d n (b.drop d)

/-- ByteDecode_d. -/
def byteDecode (d : Nat) (b : Bytes) : List Nat := takeBits d 256 (bitsLE b)

/-- ByteEncode_d. -/
def byteEncode (d : Nat) (f : Poly) : Bytes :=
  (takeBits 8 (32 * d) (f.flatMap fun x => (List.range d).map fun i => b2n (testBit x i))).map by8

/-- SamplePolyCBD_2. -/
def cbd2 (b : Bytes) : Poly :=
  (takeBits 4 256 (bitsLE b)).map fun v =>
    (b2n (testBit v 0) + b2n (testBit v 1) + kemQ - b2n (testBit v 2) - b2n (testBit v 3)) % kemQ

/-- Compress_d. -/
def compress (d x : Nat) : Nat := (2 * x * 2 ^ d + kemQ) / (2 * kemQ) % 2 ^ d

/-- Decompress_d. -/
def decompress (d y : Nat) : Nat := (2 * kemQ * y + 2 ^ d) / 2 ^ (d + 1)

/-- Entry i, j of the public matrix, and how many blocks beyond five it needed (R358). -/
def matrixA (rho : Bytes) (i j : Nat) : Poly × Nat := sampleNtt (rho ++ [by8 j, by8 i]) 64 5

/-- The blocks beyond five for each entry that the matrix of a seed needed. -/
def moreBlocks (rho : Bytes) : Nat :=
  ((List.range 3).map fun i => ((List.range 3).map fun j => (matrixA rho i j).2).sum).sum

/-- The noise polynomial number n of a seed. -/
def noise (s : Bytes) (n : Nat) : Poly := cbd2 (shakeH (s ++ [by8 n]) 128)

/-- The inner product of three pairs in NTT form. -/
def dot3 (f g : Nat → Poly) : Poly :=
  polyAdd (polyAdd (baseMul (f 0) (g 0)) (baseMul (f 1) (g 1))) (baseMul (f 2) (g 2))

/-- K-PKE.KeyGen: encryption key and decryption key. -/
def pkeKeyGen (d : Bytes) : Bytes × Bytes :=
  let g := sha3x512 (d ++ [3])
  let rho := g.take 32
  let s := fun i => nttFn (noise (g.drop 32) i)
  let t := fun i => polyAdd (dot3 (fun j => (matrixA rho i j).1) s) (nttFn (noise (g.drop 32) (3 + i)))
  ((List.range 3).flatMap (fun i => byteEncode 12 (t i)) ++ rho, (List.range 3).flatMap fun i => byteEncode 12 (s i))

/-- Polynomial i of a vector encoded with 12 bits. -/
def vec12 (b : Bytes) (i : Nat) : Poly := (byteDecode 12 (slice b (384 * i) 384)).map (· % kemQ)

/-- K-PKE.Encrypt. -/
def pkeEncrypt (ek m r : Bytes) : Bytes :=
  let rho := slice ek 1152 32
  let y := fun i => nttFn (noise r i)
  let u := fun i => polyAdd (inttFn (dot3 (fun j => (matrixA rho j i).1) y)) (noise r (3 + i))
  let v := polyAdd (polyAdd (inttFn (dot3 (vec12 ek) y)) (noise r 6)) ((byteDecode 1 m).map (decompress 1))
  (List.range 3).flatMap (fun i => byteEncode 10 ((u i).map (compress 10))) ++ byteEncode 4 (v.map (compress 4))

/-- K-PKE.Decrypt. -/
def pkeDecrypt (dk c : Bytes) : Bytes :=
  let u := fun i => nttFn ((byteDecode 10 (slice c (320 * i) 320)).map (decompress 10))
  let v := (byteDecode 4 (slice c 960 128)).map (decompress 4)
  byteEncode 1 ((polySub v (inttFn (dot3 (vec12 dk) u))).map (compress 1))

/-- The encapsulation-key check: every decoded coefficient is below q. -/
def ekOk (ek : Bytes) : Bool :=
  (List.range 3).all fun i => (byteDecode 12 (slice ek (384 * i) 384)).all fun x => decide (x < kemQ)

/-- ML-KEM.Encaps_internal: shared key and ciphertext. -/
def kemEncapsFn (ek m : Bytes) : Bytes × Bytes :=
  let g := sha3x512 (m ++ sha3x256 ek)
  (g.take 32, pkeEncrypt ek m (g.drop 32))

/-- ML-KEM.Decaps_internal from dk_pke, ek and z. -/
def kemDecapsFn (dk ek z c : Bytes) : Bytes :=
  let m := pkeDecrypt dk c
  let g := sha3x512 (m ++ sha3x256 ek)
  if pkeEncrypt ek m (g.drop 32) = c then g.take 32 else shakeH (z ++ c) 32

end Machine
end Sys2Proof
end

