-- ==== Sys2Proof/Machine/BnOps.lean ====
section
/-!
DEFINITION. The long-integer engine's commands (R347 to R362): operand memory and slots, the descriptor, the command
tables, and what each command computes from its operands.
-/
namespace Sys2Proof
namespace Machine

/-! ### Operand memory (R347, R349, R352) -/

/-- The slot length in words of a code. -/
def slotWords (c : Nat) : Nat :=
  match c with | 0 => 4 | 1 => 6 | 2 => 8 | 3 => 16 | 4 => 32 | _ => 64

/-- The slot length of a partition: Peat's, or Sedge's. -/
def State.bnLen (s : State) (sedge : Bool) : Nat :=
  slotWords (if sedge then s.rf aBN_PART 14 12 else s.rf aBN_PART 10 8)

/-- The first word of a partition. -/
def State.bnBase (s : State) (sedge : Bool) : Nat := if sedge then 64 * s.rf aBN_PART 6 0 else 0

/-- The number of slots of a partition. -/
def State.bnSlots (s : State) (sedge : Bool) : Nat :=
  (if sedge then 4096 - 64 * s.rf aBN_PART 6 0 else 64 * s.rf aBN_PART 6 0) / s.bnLen sedge

/-- PART of a slot reference: the Sedge partition. -/
def refPart (r : Nat) : Bool := testBit r 15

/-- The first word of the slot that a reference names. -/
def State.bnWord (s : State) (r : Nat) : Nat := s.bnBase (refPart r) + r % 2048 * s.bnLen (refPart r)

/-- The area of n words from the slot a reference names runs past its partition's last slot (a host mistake). -/
def State.bnPast (s : State) (r n : Nat) : Bool :=
  decide (s.bnBase (refPart r) + s.bnSlots (refPart r) * s.bnLen (refPart r) < s.bnWord r + n)

/-- Bytes of n words of operand memory. -/
def State.omRead (s : State) (w n : Nat) : Bytes := s.memRead (0x50000000 + 8 * w) (8 * n)

/-- Writes bytes from a word of operand memory, as far as it reaches. -/
def State.omWrite (s : State) (w : Nat) (b : Bytes) : State := s.memWrite (0x50000000 + 8 * w) (b.take (8 * (4096 - w)))

/-! ### The descriptor (R351) -/

/-- OP. -/
def bnOp (d : List Word) : Nat := fld (wordAt d 0) 23 16
/-- TCLASS. -/
def bnTclass (d : List Word) : Nat := fld (wordAt d 0) 27 25
/-- NW. -/
def bnNw (d : List Word) : Nat := fld (wordAt d 0) 7 0
/-- KEY. -/
def bnKey (d : List Word) : Word := wordAt d 4

/-- The slot references of a job. -/
inductive BnRef where
  | D | A | B | C | M | S
  deriving DecidableEq, Repr

/-- A slot reference of a descriptor. -/
def bnRef (d : List Word) (r : BnRef) : Nat :=
  match r with
  | .D => fld (wordAt d 1) 31 16
  | .A => fld (wordAt d 1) 15 0
  | .B => fld (wordAt d 2) 31 16
  | .C => fld (wordAt d 2) 15 0
  | .M => fld (wordAt d 3) 31 16
  | .S => fld (wordAt d 3) 15 0

/-! ### The command tables (R356 to R358) -/

/-- A command: its sources and outputs with their words, its scratch words, cycles and steps, the LEN of the KEY it
takes (0 for none) and the key type a static slot must have. -/
structure BnSpec where
  srcs : List (BnRef × Nat)
  outs : List (BnRef × Nat)
  scratch : Nat
  cycles : Nat
  steps : Nat
  keyLen : Nat
  keyTyp : Nat
  deriving DecidableEq, Repr

/-- The cycles of MOD_EXP and MOD_INV. -/
def modExpCycles (n : Nat) : Nat := 128 * n * (2 * n * n + 2) + 4 * (2 * n * n + 2) + 40

/-- The scalar source of a keyed command: A where KEY is 0. -/
def bnScalar (keyed : Bool) (n : Nat) : List (BnRef × Nat) := if keyed then [] else [(.A, n)]

/-- The rows of the curve commands of one curve with coordinates of f words. -/
def curveSpec (k f typ : Nat) (keyed : Bool) : Option BnSpec :=
  let mulC := if f = 4 then 112819 else 292896
  let st := if f = 4 then 17 else 25
  let kl := if f = 4 then 2 else 3
  match k with
  | 0 => some ⟨bnScalar keyed f ++ [(.B, 2 * f)], [(.D, 2 * f)], 12 * f, mulC, st, kl, typ⟩
  | 1 => some ⟨bnScalar keyed f, [(.D, 2 * f)], 12 * f, mulC, st, kl, typ⟩
  | 2 => some ⟨[(.B, 2 * f)], [], 4 * f, if f = 4 then 210 else 420, 1, 0, 0⟩
  | 3 => some ⟨[(.A, f), (.C, f)], [(.D, 2 * f)], 12 * f, if f = 4 then 125837 else 327610, st + 1, kl, typ⟩
  | 4 => some ⟨[(.A, f), (.B, 2 * f), (.C, 2 * f)], [], 12 * f, if f = 4 then 169229 else 440429, st + 1, 0, 0⟩
  | _ => none

/-- The row of an OP, for NW words, with L words in a slot of D's partition. MONT_SETUP reads the modulus, and writes the
n + 1 words that follow it in the M area. -/
def bnSpec (op n l : Nat) (keyed : Bool) : Option BnSpec :=
  match op with
  | 0x01 => some ⟨[(.A, n), (.B, n), (.M, n)], [(.D, n)], 0, 2 * n + 12, 1, 0, 0⟩
  | 0x02 => some ⟨[(.A, n), (.B, n), (.M, n)], [(.D, n)], 0, 2 * n + 12, 1, 0, 0⟩
  | 0x03 => some ⟨[(.A, n), (.B, n), (.M, 2 * n + 1)], [(.D, n)], 0, 2 * n * n + 2, 1, 0, 0⟩
  | 0x04 => some ⟨[(.M, 2 * n + 1)], [(.M, n + 1)], 2 * n, 128 * n * n + 768 * n + 40, 1, 0, 0⟩
  | 0x05 => some ⟨[(.A, n), (.B, n), (.M, 2 * n + 1)], [(.D, n)], 3 * n, modExpCycles n, 2 * n, 0, 0⟩
  | 0x06 => some ⟨[(.A, n), (.M, 2 * n + 1)], [(.D, n)], 3 * n, modExpCycles n, 2 * n, 0, 0⟩
  | 0x07 => some ⟨[(.A, 2 * n), (.M, 2 * n + 1)], [(.D, n)], n, 4 * n * n + 2 * n + 16, 1, 0, 0⟩
  | 0x08 => some ⟨[(.A, n)], [(.D, n)], 0, n + 8, 1, 0, 0⟩
  | 0x09 => some ⟨[(.A, n)], [(.D, n)], 0, n + 8, 1, 0, 0⟩
  | 0x0A => some ⟨[], [(.D, n * l)], 0, (n * l + 1) / 2 + 20, 1, 0, 0⟩
  | 0x30 => some ⟨bnScalar keyed 4 ++ [(.B, 4)], [(.D, 4)], 32, 88954, 17, 2, 6⟩
  | 0x31 => some ⟨bnScalar keyed 4, [(.D, 4)], 32, 88954, 17, 2, 6⟩
  | 0x38 => some ⟨[(.A, 8), (.B, 4), (.C, 8)], [], 64, 143194, 18, 0, 0⟩
  | 0x40 => some ⟨[(.A, 64)], [(.D, 64)], 0, 300, 1, 0, 0⟩
  | 0x41 => some ⟨[(.A, 64)], [(.D, 64)], 0, 320, 1, 0, 0⟩
  | 0x42 => some ⟨[(.A, 64), (.B, 64)], [(.D, 64)], 0, 80, 1, 0, 0⟩
  | 0x43 => some ⟨[(.A, 64), (.B, 64)], [(.D, 64)], 0, 40, 1, 0, 0⟩
  | 0x44 => some ⟨[(.A, 64), (.B, 64)], [(.D, 64)], 0, 40, 1, 0, 0⟩
  | 0x48 => some ⟨bnScalar keyed 8, [(.D, 148), (.B, 144)], 1024, 8680, 6, 4, 0⟩
  | 0x49 => some ⟨bnScalar keyed 4 ++ [(.B, 148)], [(.D, 136), (.C, 4)], 1024, 7810, 6, 2, 0⟩
  | 0x4A => some ⟨[(.A, 144), (.B, 148), (.C, 136)] ++ (if keyed then [] else [(.M, 4)]), [(.D, 4)], 1024, 9763, 7, 4, 0⟩
  | _ =>
    if 0x20 ≤ op ∧ op < 0x28 then curveSpec (op - 0x20) 4 4 keyed
    else if 0x28 ≤ op ∧ op < 0x30 then curveSpec (op - 0x28) 6 5 keyed
    else none

/-- The row of a descriptor. -/
def State.bnRow (s : State) (d : List Word) : Option BnSpec :=
  bnSpec (bnOp d) (bnNw d) (s.bnLen (refPart (bnRef d .D))) (decide (bnKey d ≠ 0))

/-- The command is SIGN. -/
def bnSign (op : Nat) : Bool := decide (op = 0x23 ∨ op = 0x2B)

/-- NW is used and within its range (R351). -/
def bnNwOk (op n : Nat) : Bool :=
  if op ≤ 0x07 then decide (4 ≤ n ∧ n ≤ 64) else true

/-! ### The checks at the start (R354) -/

/-- The references that a command uses, with their words. -/
def BnSpec.refs (b : BnSpec) : List (BnRef × Nat) :=
  b.srcs ++ b.outs ++ (if b.scratch = 0 then [] else [(BnRef.S, b.scratch)])

/-- A reference that a channel may name (R350, R352). -/
def State.bnRefOk (s : State) (ch r : Nat) : Bool :=
  decide (r ≠ 0xFFFF ∧ r / 2048 % 16 = 0) && (s.chPeat ch || refPart r)

/-- Step 2: every field within its rules. -/
def bnFields (s : State) (ch : Nat) (d : List Word) (b : BnSpec) : Bool :=
  bnNwOk (bnOp d) (bnNw d) &&
    s.classAllowed ch (bnTclass d) &&
    decide (fld (wordAt d 0) 24 24 = 0 ∧ fld (wordAt d 0) 15 8 = 0) &&
    (b.refs.all fun r => s.bnRefOk ch (bnRef d r.1)) &&
    (!bnSign (bnOp d) || !refPart (bnRef d .C)) &&
    !(kSes (bnKey d) && decide (ch < 124)) &&
    (if bnKey d = 0 then !bnSign (bnOp d) else decide (b.keyLen ≠ 0))

/-- Step 3: the key reference and its type (R295, R353). -/
def bnKeys (s : State) (ch : Nat) (d : List Word) (b : BnSpec) : Byte :=
  let r := bnKey d
  if r = 0 then cOk
  else if s.keyCheck ch r 0x10 ≠ cOk then s.keyCheck ch r 0x10
  else if kLen r = b.keyLen ∧ (kSes r = true ∨ (b.keyTyp ≠ 0 ∧ s.keyType r = b.keyTyp)) then cOk
  else cAuthFail

/-- A source operand's bytes. -/
def State.bnSrc (s : State) (d : List Word) (r : BnRef) (words : Nat) : Bytes := s.omRead (s.bnWord (bnRef d r)) words

/-- A source operand as an integer. -/
def State.bnInt (s : State) (d : List Word) (r : BnRef) (words : Nat) : Nat := ofLE (s.bnSrc d r words)

/-- Step 4: the modulus is odd and its top word is not zero. -/
def bnModulusOk (s : State) (d : List Word) : Bool :=
  let n := bnNw d
  let m := s.bnInt d .M n
  decide (7 < bnOp d) || decide (m % 2 = 1 ∧ 2 ^ (64 * (n - 1)) ≤ m)

/-- The code with which a job ends before it runs (R105, R354). -/
def bnRefusal (s : State) (p : Packet) (d : List Word) : Byte :=
  if s.engineAllowed p.src engBn = false then cAuthFail
  else if p.items.length ≠ 5 then cAuthFail
  else if (1 ≤ bnOp d ∧ bnOp d ≤ 0x0A ∧ bnNw d = 0) ∨ (bnKey d ≠ 0 ∧ kLen (bnKey d) = 0) then cLenZero
  else
    match s.bnRow d with
    | none => cAuthFail
    | some b =>
      if bnFields s p.src d b = false then cAuthFail
      else if bnKeys s p.src d b ≠ cOk then bnKeys s p.src d b
      else if bnModulusOk s d = false then cAuthFail
      else if bnKey d ≠ 0 ∧ s.maskStopped 1 then cRngFail
      else cOk

/-! ### Results -/

/-- What a command yields: its conditions, its flags (R369) and its outputs. -/
structure BnOut where
  conds : List Byte
  flags : Nat
  outs : List (BnRef × Bytes)
  deriving DecidableEq, Repr

/-- A value reduced, and whether it was at or above the bound (R359). -/
def reduceV (v m : Nat) : Nat × Bool := (v % m, decide (m ≤ v))

/-- A yield with INPUT_REDUCED where something was reduced. -/
def bnOut (red : Bool) (conds : List Byte) (flags : Nat) (outs : List (BnRef × Bytes)) : BnOut :=
  ⟨conds ++ (if red then [cReduced] else []), flags + b2n red, outs⟩

/-- The Montgomery constants of a modulus: RR, then m' (R349, R356). -/
def montConsts (n m : Nat) : Bytes :=
  toLE (8 * n) (powMod 14 2 (128 * n) m) ++ toLE 8 (2 ^ 64 - powMod 62 (m % 2 ^ 64) (2 ^ 62 - 1) (2 ^ 64))

/-- The modular and control commands (R356, R359, R360). -/
def bnModular (s : State) (d : List Word) : BnOut :=
  let n := bnNw d
  let m := s.bnInt d .M n
  let a := reduceV (s.bnInt d .A n) m
  let b := reduceV (s.bnInt d .B n) m
  let res (v : Nat) := toLE (8 * n) v
  match bnOp d with
  | 0x01 => bnOut (a.2 || b.2) [] 0 [(.D, res ((a.1 + b.1) % m))]
  | 0x02 => bnOut (a.2 || b.2) [] 0 [(.D, res (subMod a.1 b.1 m))]
  | 0x03 => bnOut (a.2 || b.2) [] 0 [(.D, res (a.1 * b.1 % m * powMod 13 ((m + 1) / 2) (64 * n) m % m))]
  | 0x04 => ⟨[], 0, [(.M, montConsts n m)]⟩
  | 0x05 => bnOut a.2 [] 0 [(.D, res (powMod (64 * n) a.1 (s.bnInt d .B n) m))]
  | 0x06 =>
    if a.1 = 0 then bnOut a.2 [] 16 [(.D, res 0)] else bnOut a.2 [] 0 [(.D, res (powMod (64 * n) a.1 (m - 2) m))]
  | 0x07 => ⟨[], 0, [(.D, res (s.bnInt d .A (2 * n) % m))]⟩
  | 0x08 => ⟨[], 0, [(.D, s.bnSrc d .A n)]⟩
  | 0x09 => ⟨[], 0, [(.D, (s.bnSrc d .A n).reverse)]⟩
  | _ => ⟨[], 0, [(.D, zeros (8 * n * s.bnLen (refPart (bnRef d .D))))]⟩

/-- The secret of a keyed command: the key's bytes, or operand A. -/
def State.bnSecret (s : State) (d : List Word) (words : Nat) : Bytes :=
  if bnKey d = 0 then s.bnSrc d .A words else s.keyBytes (bnKey d)

/-- A point as an operand. -/
def ptBytes (f : Nat) (q : Nat × Nat) : Bytes := toLE (8 * f) q.1 ++ toLE (8 * f) q.2

/-- MUL and MULG (R357, R360, R361). -/
def bnMul (s : State) (d : List Word) (c : Curve) (base : Bool) : BnOut :=
  let f := c.f
  let k := reduceV (ofLE (s.bnSecret d f)) c.n
  let x := if base then (c.gx, false) else reduceV (ofLE (slice (s.bnSrc d .B (2 * f)) 0 (8 * f))) c.p
  let y := if base then (c.gy, false) else reduceV (ofLE (slice (s.bnSrc d .B (2 * f)) (8 * f) (8 * f))) c.p
  let red := k.2 || x.2 || y.2
  if onCurve c x.1 y.1 = false then bnOut red [cPoint] 4 [(.D, zeros (16 * f))]
  else match ptMul c k.1 (some (x.1, y.1)) with
    | none => bnOut red [] 2 [(.D, zeros (16 * f))]
    | some q => bnOut red [] 0 [(.D, ptBytes f q)]

/-- CHECK (R361). -/
def bnCheck (s : State) (d : List Word) (c : Curve) : BnOut :=
  let f := c.f
  let x := reduceV (ofLE (slice (s.bnSrc d .B (2 * f)) 0 (8 * f))) c.p
  let y := reduceV (ofLE (slice (s.bnSrc d .B (2 * f)) (8 * f) (8 * f))) c.p
  if onCurve c x.1 y.1 then bnOut (x.2 || y.2) [] 0 [] else bnOut (x.2 || y.2) [cPoint] 4 []

/-- SIGN (R357, R360). -/
def bnSigned (s : State) (d : List Word) (c : Curve) : BnOut :=
  let f := c.f
  let e := reduceV (s.bnInt d .A f) c.p
  let k := reduceV (s.bnInt d .C f) c.n
  let x := reduceV (ofLE (s.keyBytes (bnKey d))) c.n
  let red := e.2 || k.2 || x.2
  match ecdsaSign c x.1 e.1 k.1 with
  | some q => bnOut red [] 0 [(.D, ptBytes f q)]
  | none => bnOut red [cAuthFail] 2 [(.D, zeros (16 * f))]

/-- VERIFY (R357, R359 to R361). -/
def bnVerify (s : State) (d : List Word) (c : Curve) : BnOut :=
  let f := c.f
  let e := reduceV (s.bnInt d .A f) c.p
  let x := reduceV (ofLE (slice (s.bnSrc d .B (2 * f)) 0 (8 * f))) c.p
  let y := reduceV (ofLE (slice (s.bnSrc d .B (2 * f)) (8 * f) (8 * f))) c.p
  let red := e.2 || x.2 || y.2
  let sig := s.bnSrc d .C (2 * f)
  if onCurve c x.1 y.1 = false then bnOut red [cPoint] 4 []
  else if ecdsaVerify c (x.1, y.1) e.1 (ofLE (slice sig 0 (8 * f))) (ofLE (slice sig (8 * f) (8 * f))) then
    bnOut red [] 0 []
  else bnOut red [cAuthFail] 0 []

/-- X25519 and X25519_BASE (R359, R362). -/
def bnX25519 (s : State) (d : List Word) (base : Bool) : BnOut :=
  let u := if base then 9 else s.bnInt d .B 4 % 2 ^ 255
  let r := x25519Fn (ofLE (s.bnSecret d 4)) u
  let red := decide (p25519 ≤ u)
  if r = 0 then bnOut red [cZeroShared] 8 [(.D, zeros 32)] else bnOut red [] 0 [(.D, toLE 32 r)]

/-- ED25519_VERIFY (R357, R359, R361). -/
def bnEd (s : State) (d : List Word) : BnOut :=
  let sig := s.bnSrc d .C 8
  match edDecode (ofLE (slice sig 0 32)), edDecode (s.bnInt d .B 4) with
  | some r, some a =>
    let z := ofLE (slice sig 32 32)
    if z < ordL ∧ edEquation z (s.bnInt d .A 8 % ordL) r a then ⟨[], 0, []⟩ else ⟨[cAuthFail], 0, []⟩
  | _, _ => ⟨[cPoint], 4, []⟩

/-- The coefficients of a polynomial operand (R349). -/
def polyOf : Nat → Bytes → Poly
  | 0, _ => []
  | n + 1, b => le16 b 0 :: polyOf n (b.drop 2)

/-- A polynomial as an operand. -/
def polyBytes (f : Poly) : Bytes := f.flatMap fun x => toLE 2 x

/-- A polynomial operand with its coefficients reduced (R359). -/
def State.bnPoly (s : State) (d : List Word) (r : BnRef) : Poly × Bool :=
  let f := polyOf 256 (s.bnSrc d r 64)
  (f.map (· % kemQ), f.any fun x => decide (kemQ ≤ x))

/-- The 12-bit coefficients of the first 1152 bytes reduced (R359). -/
def reduce12 (b : Bytes) : Bytes × Bool :=
  let f (i : Nat) := byteDecode 12 (slice b (384 * i) 384)
  ((List.range 3).flatMap (fun i => byteEncode 12 ((f i).map (· % kemQ))) ++ b.drop 1152,
    (List.range 3).any fun i => (f i).any fun x => decide (kemQ ≤ x))

/-- The LONG_SAMPLE flag of a matrix seed (R358). -/
def longFlag (ek : Bytes) : Nat := if moreBlocks (slice ek 1152 32) = 0 then 0 else 32

/-- The lattice commands (R358). -/
def bnLattice (s : State) (d : List Word) : BnOut :=
  let a := s.bnPoly d .A
  let b := s.bnPoly d .B
  match bnOp d with
  | 0x40 => bnOut a.2 [] 0 [(.D, polyBytes (nttFn a.1))]
  | 0x41 => bnOut a.2 [] 0 [(.D, polyBytes (inttFn a.1))]
  | 0x42 => bnOut (a.2 || b.2) [] 0 [(.D, polyBytes (baseMul a.1 b.1))]
  | 0x43 => bnOut (a.2 || b.2) [] 0 [(.D, polyBytes (polyAdd a.1 b.1))]
  | 0x44 => bnOut (a.2 || b.2) [] 0 [(.D, polyBytes (polySub a.1 b.1))]
  | 0x48 =>
    let k := pkeKeyGen (slice (s.bnSecret d 8) 0 32)
    ⟨[], longFlag k.1, [(.D, k.1), (.B, k.2)]⟩
  | 0x49 =>
    let ek := slice (s.bnSrc d .B 148) 0 1184
    if ekOk ek then
      let r := kemEncapsFn ek (slice (s.bnSecret d 4) 0 32)
      ⟨[], longFlag ek, [(.D, r.2), (.C, r.1)]⟩
    else ⟨[cAuthFail], 0, []⟩
  | _ =>
    let dk := reduce12 (slice (s.bnSrc d .A 144) 0 1152)
    let ek := reduce12 (slice (s.bnSrc d .B 148) 0 1184)
    let z := if bnKey d = 0 then s.bnSrc d .M 4 else slice (s.keyBytes (bnKey d)) 32 32
    bnOut (dk.2 || ek.2) [] (longFlag ek.1) [(.D, kemDecapsFn dk.1 ek.1 z (slice (s.bnSrc d .C 136) 0 1088))]

/-- The encapsulation key whose matrix a lattice command samples; none where it samples none. -/
def bnMatrixKey (s : State) (d : List Word) : Option Bytes :=
  match bnOp d with
  | 0x48 => some (pkeKeyGen (slice (s.bnSecret d 8) 0 32)).1
  | 0x49 =>
    let ek := slice (s.bnSrc d .B 148) 0 1184
    if ekOk ek then some ek else none
  | 0x4A => some (reduce12 (slice (s.bnSrc d .B 148) 0 1184)).1
  | _ => none

/-- The cycles of the blocks that a lattice command squeezes beyond five for each polynomial (R358). -/
def bnMore (s : State) (d : List Word) : Nat :=
  match bnMatrixKey s d with
  | some ek => 26 * moreBlocks (slice ek 1152 32)
  | none => 0

/-- The curve commands. -/
def bnCurve (s : State) (d : List Word) (c : Curve) (k : Nat) : BnOut :=
  match k with
  | 0 => bnMul s d c false
  | 1 => bnMul s d c true
  | 2 => bnCheck s d c
  | 3 => bnSigned s d c
  | _ => bnVerify s d c

/-- What a job yields. -/
def bnCompute (s : State) (d : List Word) : BnOut :=
  let op := bnOp d
  if op ≤ 0x0A then bnModular s d
  else if 0x20 ≤ op ∧ op < 0x28 then bnCurve s d p256 (op - 0x20)
  else if 0x28 ≤ op ∧ op < 0x30 then bnCurve s d p384 (op - 0x28)
  else if op = 0x30 then bnX25519 s d false
  else if op = 0x31 then bnX25519 s d true
  else if op = 0x38 then bnEd s d
  else bnLattice s d

/-! ### Peat's own jobs (R99, R104, R106)

Peat submits them on CH124 to CH127 and takes each completion as it is committed; a job runs within the command that
needs it. Log entry 10. -/

/-- One of Peat's own jobs: its engine, the items of its packet in Q10, whether it references a key, whether it is the CLEAR
that ends Peat's use of operand memory, and the status it ends with where its mask generator runs. -/
structure PeatJob where
  eng : Nat
  items : Nat
  keyed : Bool
  clear : Bool
  code : Byte
  deriving DecidableEq, Repr

/-- An AES job of n items under a key. -/
def aesJob (n : Nat) : PeatJob := ⟨1, n, true, false, cOk⟩
/-- A long-integer job; `keyed`: its operand is a key reference. -/
def bnJob (keyed : Bool) : PeatJob := ⟨2, 5, keyed, false, cOk⟩
/-- The CLEAR of the slots that Peat used (R366). -/
def clearJob : PeatJob := ⟨2, 5, false, true, cOk⟩
/-- A hash job of n items. -/
def hshJob (n : Nat) (keyed : Bool) : PeatJob := ⟨3, n, keyed, false, cOk⟩

/-- A job that ends with a code where its mask generator runs. -/
def PeatJob.ending (j : PeatJob) (c : Byte) : PeatJob := { j with code := c }

/-- Peat's slots P0 to P208 are zeroed, as far as its partition reaches: the slots that the worked example of R369 clears (log
entry 10). -/
def State.clearSlots (s : State) : State := s.omWrite 0 (zeros (8 * (min 209 (s.bnSlots false) * s.bnLen false)))

/-- Peat submits a job on one of its channels and takes the completion. A rewound job is not submitted again: what needed it
ends with ABORTED. -/
def State.peatJob (s : State) (ch : Nat) (j : PeatJob) : Byte × State :=
  if s.chState ch ≠ 1 ∨ s.maxJobs ch ≤ s.chJobs ch then (cAborted, s.drop 10)
  else if s.room 10 < j.items then (cAborted, (s.pushErr 10).drop 10)
  else
    let status := if j.keyed && s.maskStopped (j.eng - 1) then cRngFail else j.code
    let l := s.lane 10
    let s := ({ s with commits := s.commits + 1 }.setLane 10 { l with seq := l.seq + 1 }).evt 0x10 0x12 j.items
    let s := (s.bump (aCHN_COUNT ch) 15 0 1).evt 0x10 0x13 j.items
    let s := (s.bump (aCHN_COUNT ch) 31 16 1).countJob j.eng (isFail status)
    let s := s.onlyIf j.clear State.clearSlots
    (status, s.onlyIf (isFail status) fun s => s.srf (aCHN_STATUS ch) 15 8 status.toNat)

/-- A row of Peat's jobs on one channel: the first that fails ends it. -/
def State.peatJobs (s : State) (ch : Nat) : List PeatJob → Byte × State
  | [] => (cOk, s)
  | j :: t =>
    match s.peatJob ch j with
    | (c, s) => if isFail c then (c, s) else s.peatJobs ch t

/-- Goes on where Peat's jobs complete, and ends with their code where one fails. -/
def State.withJobs {α : Type} (s : State) (ch : Nat) (l : List PeatJob) (fail : Byte → State → α) (go : State → α) : α :=
  match s.peatJobs ch l with
  | (c, s) => if isFail c then fail c s else go s

end Machine
end Sys2Proof
end

