-- ==== Sys2Proof/Machine/BnEngine.lean ====
section
/-!
DEFINITION. The long-integer engine at work (R351 to R370): starts, yield points, completions, and the end of a job by
an abort or an alarm. From the start of a job its output and scratch areas hold free values until the completion
writes the outputs (log entry 7).
-/
namespace Sys2Proof
namespace Machine

/-! ### Areas -/

/-- An area of n words from a word of a partition, as far as the partition goes. -/
def State.bnClip (s : State) (r w n : Nat) : Nat × Nat :=
  (w, min n ((if refPart r then 4096 else s.bnBase true) - w))

/-- The areas of a list of references: first word, words. -/
def State.bnAreas (s : State) (d : List Word) (l : List (BnRef × Nat)) : List (Nat × Nat) :=
  l.map fun r => s.bnClip (bnRef d r.1) (s.bnWord (bnRef d r.1)) r.2

/-- The first word that a command writes of an output: MONT_SETUP's lies behind the modulus (R356). -/
def State.bnPlace (s : State) (d : List Word) (r : BnRef) : Nat :=
  s.bnWord (bnRef d r) + (if bnOp d = 4 then bnNw d else 0)

/-- The areas that a job writes: its outputs and its scratch. -/
def State.bnOuts (s : State) (d : List Word) (b : BnSpec) (outs : List (BnRef × Nat)) : List (Nat × Nat) :=
  (outs.map fun r => s.bnClip (bnRef d r.1) (s.bnPlace d r.1) r.2) ++
    s.bnAreas d (if b.scratch = 0 then [] else [(BnRef.S, b.scratch)])

/-- Two areas share a word. -/
def areasMeet (a b : Nat × Nat) : Bool := decide (a.1 < b.1 + b.2 ∧ b.1 < a.1 + a.2)

/-- Two areas overlap without being identical (a host mistake). -/
def areasMixed : List (Nat × Nat) → Bool
  | [] => false
  | a :: t => (t.any fun b => decide (a ≠ b) && areasMeet a b) || areasMixed t

/-- The areas of a job overlap without being identical. D may equal any source: it begins where the source begins, whatever
their lengths (R356). -/
def State.bnMixes (s : State) (d : List Word) (b : BnSpec) : Bool :=
  let outs := s.bnOuts d b b.outs
  areasMixed (s.bnAreas d b.srcs) || areasMixed outs ||
    outs.any fun o => (s.bnAreas d b.srcs).any fun x =>
      areasMeet o x && !(decide (o = x ∨ (bnOp d ≤ 0x09 ∧ o.1 = s.bnWord (bnRef d .D) ∧ o.1 = x.1) ∨
        (bnOp d = 4 ∧ o.1 = s.bnPlace d .M)))

/-- The areas that a descriptor names. -/
def State.bnAll (s : State) (d : List Word) : List (Nat × Nat) :=
  match s.bnRow d with
  | some b => s.bnAreas d b.refs
  | none => []

/-- The operands of two descriptors overlap. -/
def State.bnClash (s : State) (d e : List Word) : Bool := (s.bnAll d).any fun a => (s.bnAll e).any (areasMeet a)

/-- Fills areas of operand memory with free values. -/
def State.bnFree (s : State) (l : List (Nat × Nat)) : State :=
  s.each l fun s a => let r := s.freeBytes (8 * a.2); r.2.omWrite a.1 r.1

/-- Fills areas of operand memory with zeros. -/
def State.bnZero (s : State) (l : List (Nat × Nat)) : State := s.each l fun s a => s.omWrite a.1 (zeros (8 * a.2))

/-- A reference runs past its partition, in Peat's partition or in Sedge's. -/
def State.bnRunsPast (s : State) (d : List Word) (b : BnSpec) (sedge : Bool) : Bool :=
  b.refs.any fun r => (refPart (bnRef d r.1) == sedge) && s.bnPast (bnRef d r.1) r.2

/-- The Montgomery constants in the M area are not those of its modulus (a host mistake). -/
def State.bnNoConsts (s : State) (d : List Word) : Bool :=
  let n := bnNw d
  decide (bnOp d = 3 ∨ bnOp d = 5 ∨ bnOp d = 6 ∨ bnOp d = 7) &&
    decide (slice (s.bnSrc d .M (2 * n + 1)) (8 * n) (8 * n + 8) ≠ montConsts n (s.bnInt d .M n))

/-! ### Starts -/

/-- The class of a long-integer job. -/
def State.bnClass (s : State) (ch : Nat) (d : List Word) : Nat := s.trafficClass ch (bnTclass d) false

/-- Engine-busy SYS cycles of a job (R355). -/
def State.bnCycles (s : State) (p : Packet) : Nat :=
  let d := packetWords p
  match s.bnRow d with
  | some b => b.cycles + (if redundant (s.bnClass p.src d) then 16 else 0)
  | none => 0

/-- The other long-integer jobs that wait or are suspended: their descriptors, and their SEQs where they wait. -/
def State.bnOthers (s : State) (p : Packet) : List (List Word × Option Nat) :=
  ((s.lane 10).committed.filter fun q => decide (jobEngine q = engBn ∧ q.seq ≠ p.seq)).map
      (fun q => (packetWords q, some q.seq.toNat)) ++
    s.eng.bnSusp.toList.map fun r => (r.desc, none)

/-- The run of a job. Where a host mistake makes its outputs unpredictable it stores nothing: its output areas keep
the free values that they got at the start. -/
def bnRun (s : State) (p : Packet) (d : List Word) (b : BnSpec) (mixed : Bool) : Run :=
  let o := bnCompute s d
  let tc := s.bnClass p.src d
  { runNil with
    chan := p.src, prio := s.effPrio p, desc := d, tclass := tc, keySes := if bnKey d = 0 then none else refSes (bnKey d)
    status := firstStatus o.conds, flags := by8 (o.flags + (if redundant tc then 64 else 0))
    stores := if mixed then [] else o.outs.map fun x => (s.bnPlace d x.1, x.2)
    scratch := s.bnOuts d b b.outs
    steps := b.steps, cycles := s.bnCycles p + bnMore s d }

/-- Free values for a list of areas, each with its first word. -/
def State.freeStores (s : State) : List (Nat × Nat) → List (Nat × Bytes) × State
  | [] => ([], s)
  | a :: t =>
    let x := s.freeBytes (8 * a.2)
    let y := x.2.freeStores t
    ((a.1, x.1) :: y.1, y.2)

/-- A job in the engine whose outputs and scratch are no longer predictable: at its end they become free values. -/
def State.bnSpoil (s : State) (area : Nat × Nat) (o : Option Run) : Option Run × State :=
  match o with
  | some r =>
    if (s.bnAll r.desc).any (areasMeet area) then
      let x := s.freeStores r.scratch
      (some { r with stores := x.1 }, x.2)
    else (some r, s)
  | none => (none, s)

/-- Whether a job writes its output areas at all: an encapsulation key that fails its check writes nothing (R358). -/
def bnWrites (s : State) (d : List Word) : Bool := !(bnCompute s d).outs.isEmpty

/-- A command's unpredictable memory: the whole of a partition that an operand runs past (R14, R15). -/
def State.bnPastFree (s : State) (d : List Word) (b : BnSpec) : State :=
  (s.onlyIf (s.bnRunsPast d b false) fun s => s.bnFree [(0, s.bnBase true)]).onlyIf (s.bnRunsPast d b true)
    fun s => s.bnFree [(s.bnBase true, 4096 - s.bnBase true)]

/-- Runs a job that passed its checks. -/
def State.bnLaunch (s : State) (p : Packet) (d : List Word) (b : BnSpec) : State :=
  let clash := (s.bnOthers p).filter fun o => s.bnClash d o.1
  let past := s.bnRunsPast d b false || s.bnRunsPast d b true
  let mixed := past || s.bnNoConsts d || s.bnMixes d b || !clash.isEmpty ||
    decide (p.seq.toNat ∈ s.eng.bnMixed)
  let run : Run := { bnRun s p d b mixed with ins := s.eng.bnSusp.isSome }
  let writes := bnWrites s d
  let s := s.takeJob p
  let s := s.onlyIf (decide (run.keySes.isSome)) fun s => s.useSes (run.keySes.getD 0)
  let s := s.bnPastFree d b
  let s := s.bnFree (s.bnOuts d b (if writes then b.outs else []))
  let susp := s.eng.bnSusp.map fun r => if s.bnClash d r.desc then { r with stores := [] } else r
  { s with eng := { s.eng with
      bn := some run, bnSusp := susp,
      bnMixed := s.eng.bnMixed ++ clash.filterMap (·.2) } }

/-- What the FLAGS registers show of the last completed job (BN_FLAGS0, BN_FLAGS1). -/
def State.bnShow (s : State) (ch op flags : Nat) : State :=
  s.setReg (if s.chPeat ch then aBN_FLAGS0 else aBN_FLAGS1) (w32 (ch % 128 * 65536 + op * 256 + flags))

/-- Starts a job: refuses it, or runs it. -/
def bnBegin (s : State) (p : Packet) : State :=
  let d := packetWords p
  let s := { s with eng := { s.eng with bnLast := p.src } }
  if packetBroken p then ((s.countBroken 10 p).bnShow p.src (bnOp d) 0).refuseJob p cAlarm
  else if bnRefusal (s.jobView p) p d ≠ cOk then (s.bnShow p.src (bnOp d) 0).refuseJob p (bnRefusal (s.jobView p) p d)
  else match s.bnRow d with
    | some b => s.bnLaunch p d b
    | none => s

/-- A job may start while the engine drains for a replacement only where it waited before (R348, R370). -/
def State.bnHeld (s : State) (p : Packet) : Bool :=
  match s.eng.bnHold with
  | some l => decide (p.seq.toNat ∈ l)
  | none => true

/-- The OP is in the command tables. -/
def bnKnown (op : Nat) : Bool := (bnSpec op 4 4 false).isSome

/-- A free engine starts its next job where that job's OP is k, or is no OP at all. -/
def bnStart (k : Nat) (s : State) : State :=
  if s.resumed ∧ s.eng.bn = none ∧ s.eng.bnSusp = none then
    match s.candidateIf engBn s.eng.bnLast s.bnHeld with
    | some p =>
      let op := bnOp (packetWords p)
      if op = k ∨ bnKnown op = false then bnBegin s p else s
    | none => s
  else s

/-! ### Completions (R369) -/

/-- Completion words. -/
def bnWords (s : State) (r : Run) (status : Byte) (flags step : Nat) (cycles : Word) : List Word :=
  [w32 (status.toNat * 2 ^ 24 + bnOp r.desc * 2 ^ 16 + flags * 2 ^ 8 + step % 256), cycles, s.sysLo]

/-- The suspended job resumes where no job runs. -/
def State.bnResume (s : State) : State :=
  if s.eng.bn = none then { s with eng := { s.eng with bn := s.eng.bnSusp, bnSusp := none } } else s

/-- The FLAGS of a job that an abort or an alarm stops: REDUNDANT and INPUT_REDUCED as they are from its start; which of
the others it had met is a free value (R369; log entry 66). -/
def stoppedFlags (r : Run) (free : Word) : Nat :=
  ((BitVec.ofNat 8 free.toNat &&& r.flags &&& 0xBE) ||| (r.flags &&& 0x41)).toNat

/-- A job that has left the engine ends with a failure. An alarm or a mismatch zeroes its outputs and its scratch area,
and closes the session of a key of class 0 (R365, R367). -/
def State.bnFail (s : State) (r : Run) (status : Byte) : State :=
  let s := s.onlyIf (decide (status = cAlarm)) fun s =>
    (s.bnZero r.scratch).onlyIf (decide (r.tclass = 0)) fun s => s.alarmSession aBN_FAULT r
  let c := s.freeW
  let f := c.2.freeW
  let flags := stoppedFlags r f.1
  (f.2.bnShow r.chan (bnOp r.desc) flags).completeJob r.chan r.prio engBn status
    (bnWords f.2 r status flags r.step c.1)

/-- The running job ends with a failure; a suspended one resumes. -/
def State.endBn (s : State) (status : Byte) : State :=
  match s.eng.bn with
  | some r => ({ s with eng := { s.eng with bn := none } }.bnFail r status).bnResume
  | none => s

/-- The suspended job ends with a failure. -/
def State.endBnSusp (s : State) (status : Byte) : State :=
  match s.eng.bnSusp with
  | some r => { s with eng := { s.eng with bnSusp := none } }.bnFail r status
  | none => s

/-- The running job completes: its outputs, then its completion. A mismatch of the two lanes of a redundant class ends
it with FAULT_ALARM (R367). -/
def bnFinish (s : State) (mismatch : Bool) : State :=
  match s.eng.bn with
  | none => s
  | some r =>
    if mismatch ∧ redundant r.tclass then (s.bumpSat aBN_FAULT 15 8 1).endBn cAlarm
    else
      let s := s.each r.stores fun s x => s.omWrite x.1 x.2
      let s := { s with eng := { s.eng with bn := none } }
      let s := s.bnShow r.chan (bnOp r.desc) r.flags.toNat
      (s.completeJob r.chan r.prio engBn r.status
        (bnWords s r r.status r.flags.toNat r.steps (w32 r.cycles))).bnResume

/-! ### Yield points (R108, R363) -/

/-- The lengths of the steps of X25519 (the example of R364). -/
def x25519Steps : List Nat := 5069 :: List.replicate 14 5024 ++ [4710, 8839]

/-- Cycles of a job up to a step boundary. -/
def bnElapsed (d : List Word) (step : Nat) : Nat :=
  let n := bnNw d
  if bnOp d = 0x30 ∨ bnOp d = 0x31 then (x25519Steps.take step).sum
  else if bnOp d = 5 ∨ bnOp d = 6 then step * (64 * (2 * n * n + 2))
  else Config.bnElapsed (bnOp d) n step

/-- A waiting job may be inserted at a boundary of a running one (R108). -/
def State.bnFits (s : State) (r : Run) (p : Packet) : Bool :=
  s.bnHeld p && decide (r.prio ≤ s.effPrio p) && decide (s.bnCycles p < r.cycles - bnElapsed r.desc r.step)

/-- The job that would be inserted where the running job r passes its present yield point; an inserted job never yields
(R363). -/
def State.bnInserted (s : State) (r : Run) : Option Packet :=
  if r.ins then none else s.candidateIf engBn s.eng.bnLast (s.bnFits r)

/-- The running job passes a step boundary: one waiting job may be inserted (R363). -/
def bnYield (s : State) : State :=
  match s.eng.bn with
  | some r =>
    if r.step + 1 < r.steps then
      let r := { r with step := r.step + 1 }
      let s := { s with eng := { s.eng with bn := some r } }
      match s.bnInserted r with
      | some p =>
        let s := bnBegin { s with eng := { s.eng with bn := none, bnSusp := some r } } p
        (s.onlyIf (decide (s.eng.bn.isSome)) fun s => (s.bump aBN_YIELDS 15 0 1).evt 0x0E 0x11 1).bnResume
      | none => s
    else s
  | none => s

/-- ABORT of a channel whose waiting job is the candidate at the running job's next yield point: the job completes with
ABORTED and is not inserted (R370). -/
def State.abortCandidate (s : State) (ch : Nat) : State :=
  match s.eng.bn with
  | some r =>
    if r.step + 1 < r.steps then
      match s.bnInserted { r with step := r.step + 1 } with
      | some p => s.onlyIf (decide (p.src = ch)) fun s => s.refuseJob p cAborted
      | none => s
    else s
  | none => s

/-- MOD_ADD (R356). -/
def execModAdd (s : State) : Result := done (bnStart 0x01 s)
/-- MOD_SUB (R356). -/
def execModSub (s : State) : Result := done (bnStart 0x02 s)
/-- MOD_MUL (R356). -/
def execModMul (s : State) : Result := done (bnStart 0x03 s)
/-- MONT_SETUP (R356). -/
def execMontSetup (s : State) : Result := done (bnStart 0x04 s)
/-- MOD_EXP (R356). -/
def execModExp (s : State) : Result := done (bnStart 0x05 s)
/-- MOD_INV (R360). -/
def execModInv (s : State) : Result := done (bnStart 0x06 s)
/-- MOD_RED (R356). -/
def execModRed (s : State) : Result := done (bnStart 0x07 s)
/-- COPY (R356). -/
def execCopy (s : State) : Result := done (bnStart 0x08 s)
/-- COPY_REV (R356). -/
def execCopyRev (s : State) : Result := done (bnStart 0x09 s)
/-- CLEAR (R366). -/
def execClear (s : State) : Result := done (bnStart 0x0A s)
/-- P256_MUL (R357). -/
def execP256Mul (s : State) : Result := done (bnStart 0x20 s)
/-- P256_MULG (R357). -/
def execP256Mulg (s : State) : Result := done (bnStart 0x21 s)
/-- P256_CHECK (R361). -/
def execP256Check (s : State) : Result := done (bnStart 0x22 s)
/-- P256_SIGN (R357). -/
def execP256Sign (s : State) : Result := done (bnStart 0x23 s)
/-- P256_VERIFY (R357). -/
def execP256Verify (s : State) : Result := done (bnStart 0x24 s)
/-- P384_MUL (R357). -/
def execP384Mul (s : State) : Result := done (bnStart 0x28 s)
/-- P384_MULG (R357). -/
def execP384Mulg (s : State) : Result := done (bnStart 0x29 s)
/-- P384_CHECK (R361). -/
def execP384Check (s : State) : Result := done (bnStart 0x2A s)
/-- P384_SIGN (R357). -/
def execP384Sign (s : State) : Result := done (bnStart 0x2B s)
/-- P384_VERIFY (R357). -/
def execP384Verify (s : State) : Result := done (bnStart 0x2C s)
/-- X25519 (R362). -/
def execX25519 (s : State) : Result := done (bnStart 0x30 s)
/-- X25519_BASE (R362). -/
def execX25519Base (s : State) : Result := done (bnStart 0x31 s)
/-- ED25519_VERIFY (R357). -/
def execEd25519Verify (s : State) : Result := done (bnStart 0x38 s)
/-- NTT (R358). -/
def execNtt (s : State) : Result := done (bnStart 0x40 s)
/-- INTT (R358). -/
def execIntt (s : State) : Result := done (bnStart 0x41 s)
/-- BASEMUL (R358). -/
def execBasemul (s : State) : Result := done (bnStart 0x42 s)
/-- PADD (R358). -/
def execPadd (s : State) : Result := done (bnStart 0x43 s)
/-- PSUB (R358). -/
def execPsub (s : State) : Result := done (bnStart 0x44 s)
/-- KEM_KEYGEN (R358). -/
def execKemKeygen (s : State) : Result := done (bnStart 0x48 s)
/-- KEM_ENCAPS (R358). -/
def execKemEncaps (s : State) : Result := done (bnStart 0x49 s)
/-- KEM_DECAPS (R358). -/
def execKemDecaps (s : State) : Result := done (bnStart 0x4A s)
/-- BN_YIELD_POINT (R363). -/
def execBnYieldPoint (s : State) : Result := done (if s.resumed then bnYield s else s)
/-- BN_JOB_COMPLETION (R369). -/
def execBnJobCompletion (mismatch : Bool) (s : State) : Result := done (bnFinish s mismatch)

end Machine
end Sys2Proof
end

