-- ==== Sys2Proof/Machine/Xmss.lean ====
section
/-!
DEFINITION. XMSS and XMSS^MT with SHAKE256 and n = 32 (RFC 8391, SP 800-208), named by R379. The spec names the
standards and does not print them; these texts are PRESUMED from them (log entry 8).
-/
namespace Sys2Proof
namespace Machine

/-- A parameter set: height, layers, index bytes and signature bytes (R379). -/
structure Pset where
  h : Nat
  d : Nat
  idx : Nat
  sig : Nat
  deriving DecidableEq, Repr

/-- The parameter sets by PSET code (R379). -/
def psetOf (c : Nat) : Option Pset :=
  match c with
  | 0x01 => some ⟨10, 1, 4, 2500⟩
  | 0x02 => some ⟨16, 1, 4, 2692⟩
  | 0x03 => some ⟨20, 1, 4, 2820⟩
  | 0x11 => some ⟨20, 2, 3, 4963⟩
  | 0x12 => some ⟨20, 4, 3, 9251⟩
  | 0x13 => some ⟨40, 2, 5, 5605⟩
  | 0x14 => some ⟨40, 4, 5, 9893⟩
  | 0x15 => some ⟨40, 8, 5, 18469⟩
  | 0x16 => some ⟨60, 3, 8, 8392⟩
  | 0x17 => some ⟨60, 6, 8, 14824⟩
  | 0x18 => some ⟨60, 12, 8, 27688⟩
  | _ => none

/-- A keyed hash with its 32-byte prefix number. -/
def xHash (t : Nat) (key m : Bytes) : Bytes := shakeH (toBE 32 t ++ key ++ m) 32

/-- A hash address: layer, tree, type and its four words. -/
def xAdrs (layer tree typ a b c km : Nat) : Bytes :=
  toBE 4 layer ++ toBE 8 tree ++ toBE 4 typ ++ toBE 4 a ++ toBE 4 b ++ toBE 4 c ++ toBE 4 km

/-- PRF under PUB_SEED. -/
def xPrf (seed adrs : Bytes) : Bytes := xHash 3 seed adrs

/-- s chain steps from step i. -/
def wotsChain (seed : Bytes) (layer tree ots ch : Nat) : Nat → Nat → Bytes → Bytes
  | 0, _, x => x
  | s + 1, i, x =>
    let a := xAdrs layer tree 0 ots ch i
    wotsChain seed layer tree ots ch s (i + 1) (xHash 0 (xPrf seed (a 0)) (xorB x (xPrf seed (a 1))))

/-- The 67 base-16 digits of a 32-byte message and its checksum. -/
def wotsDigits (m : Bytes) : List Nat :=
  let d := m.flatMap fun b => [b.toNat / 16, b.toNat % 16]
  let c := (d.map (15 - ·)).sum
  d ++ [c / 256 % 16, c / 16 % 16, c % 16]

/-- RAND_HASH. -/
def randHash (seed : Bytes) (adrs : Nat → Bytes) (l r : Bytes) : Bytes :=
  xHash 1 (xPrf seed (adrs 0)) (xorB l (xPrf seed (adrs 1)) ++ xorB r (xPrf seed (adrs 2)))

/-- One level of the L-tree. -/
def ltreeLevel (seed : Bytes) (layer tree lt height : Nat) : Nat → List Bytes → List Bytes
  | i, a :: b :: t => randHash seed (xAdrs layer tree 1 lt height i) a b :: ltreeLevel seed layer tree lt height (i + 1) t
  | _, t => t

/-- The L-tree of 67 values: seven levels. -/
def ltree (seed : Bytes) (layer tree lt : Nat) (vs : List Bytes) : Bytes :=
  ((List.range 7).foldl (fun v h => ltreeLevel seed layer tree lt h 0 v) vs).headD []

/-- The leaf that a WOTS+ signature of m leads to. -/
def wotsLeaf (seed : Bytes) (layer tree leaf : Nat) (m : Bytes) (sig : Bytes) : Bytes :=
  let ds := wotsDigits m
  ltree seed layer tree leaf ((List.range 67).map fun i =>
    wotsChain seed layer tree leaf i (15 - ds.getD i 0) (ds.getD i 0) (slice sig (32 * i) 32))

/-- The root over an authentication path, from height k. -/
def authRoot (seed : Bytes) (layer tree : Nat) : Nat → Nat → Nat → Bytes → Bytes → Bytes
  | 0, _, _, _, x => x
  | n + 1, k, idx, path, x =>
    let a := xAdrs layer tree 2 0 k (idx / 2)
    authRoot seed layer tree n (k + 1) (idx / 2) (path.drop 32)
      (if idx % 2 = 0 then randHash seed a x (path.take 32) else randHash seed a (path.take 32) x)

/-- The root that the layers of a signature lead to, from layer j on. -/
def layersRoot (seed : Bytes) (th : Nat) : Nat → Nat → Nat → Bytes → Bytes → Bytes
  | 0, _, _, _, m => m
  | n + 1, j, idx, sig, m =>
    let leaf := idx % 2 ^ th
    let tree := idx / 2 ^ th
    let x := wotsLeaf seed j tree leaf m (sig.take (67 * 32))
    layersRoot seed th n (j + 1) tree (sig.drop ((67 + th) * 32))
      (authRoot seed j tree th 0 leaf (sig.drop (67 * 32)) x)

/-- The message hash. -/
def xMsg (r root : Bytes) (idx : Nat) (m : Bytes) : Bytes := xHash 2 (r ++ root ++ toBE 32 idx) m

/-- The index a signature carries. -/
def xIndex (ps : Pset) (sig : Bytes) : Nat := ofBE (sig.take ps.idx)

/-- Verification under a public key, root then PUB_SEED (R380, R382). -/
def xmssVerifyFn (ps : Pset) (pk sig m : Bytes) : Bool :=
  let idx := xIndex ps sig
  let r := slice sig ps.idx 32
  let root := pk.take 32
  decide (idx < 2 ^ ps.h) &&
    decide (layersRoot (pk.drop 32) (ps.h / ps.d) ps.d 0 idx (sig.drop (ps.idx + 32)) (xMsg r root idx m) = root)

/-- The secret chain starts of SP 800-208. -/
def wotsSecret (sk seed : Bytes) (layer tree leaf ch : Nat) : Bytes :=
  xHash 4 (sk ++ seed) (xAdrs layer tree 0 leaf ch 0 0)

/-- The leaf of a key pair. -/
def wotsPublic (sk seed : Bytes) (layer tree leaf : Nat) : Bytes :=
  ltree seed layer tree leaf ((List.range 67).map fun i =>
    wotsChain seed layer tree leaf i 15 0 (wotsSecret sk seed layer tree leaf i))

/-- The WOTS+ signature of m. -/
def wotsSign (sk seed : Bytes) (layer tree leaf : Nat) (m : Bytes) : Bytes :=
  let ds := wotsDigits m
  (List.range 67).flatMap fun i =>
    wotsChain seed layer tree leaf i (ds.getD i 0) 0 (wotsSecret sk seed layer tree leaf i)

/-- The node of a tree at a height, by its index. -/
def treeNode (sk seed : Bytes) (layer tree : Nat) : Nat → Nat → Bytes
  | 0, i => wotsPublic sk seed layer tree i
  | h + 1, i =>
    randHash seed (xAdrs layer tree 2 0 h i) (treeNode sk seed layer tree h (2 * i))
      (treeNode sk seed layer tree h (2 * i + 1))

/-- The authentication path of a leaf. -/
def authPath (sk seed : Bytes) (layer tree th leaf : Nat) : Bytes :=
  (List.range th).flatMap fun k => treeNode sk seed layer tree k (Nat.xor (leaf / 2 ^ k) 1)

/-- The root of PSET 0x11's top tree. -/
def identityRoot (sk seed : Bytes) : Bytes := treeNode sk seed 1 0 10 0

/-- The signature of a message with PSET 0x11 (R386). -/
def identitySign (sk prf seed root : Bytes) (idx : Nat) (m : Bytes) : Bytes :=
  let r := xHash 3 prf (toBE 32 idx)
  let leaf := idx % 1024
  let tree := idx / 1024
  toBE 3 idx ++ r ++ wotsSign sk seed 0 tree leaf (xMsg r root idx m) ++ authPath sk seed 0 tree 10 leaf ++
    wotsSign sk seed 1 0 tree (treeNode sk seed 0 tree 10 0) ++ authPath sk seed 1 0 10 tree

/-- The sum of 15 minus each digit over the layers of a signature, for its cost (R383). -/
def layersCost (seed : Bytes) (th : Nat) : Nat → Nat → Nat → Bytes → Bytes → Nat
  | 0, _, _, _, _ => 0
  | n + 1, j, idx, sig, m =>
    let leaf := idx % 2 ^ th
    let tree := idx / 2 ^ th
    let x := wotsLeaf seed j tree leaf m (sig.take (67 * 32))
    ((wotsDigits m).map (15 - ·)).sum + layersCost seed th n (j + 1) tree (sig.drop ((67 + th) * 32))
      (authRoot seed j tree th 0 leaf (sig.drop (67 * 32)) x)

/-- The calls P of a VERIFY (R383). -/
def verifyCalls (ps : Pset) (pk sig m : Bytes) : Nat :=
  let idx := xIndex ps sig
  3 * layersCost (pk.drop 32) (ps.h / ps.d) ps.d 0 idx (sig.drop (ps.idx + 32))
      (xMsg (slice sig ps.idx 32) (pk.take 32) idx m) +
    264 * ps.d + 4 * ps.h + (128 + m.length) / 136 + 1

/-- The calls of a SIGN without lag, less the traversal work (R386). -/
def signCalls (r root : Bytes) (idx : Nat) (m : Bytes) : Nat :=
  1 + ((128 + m.length) / 136 + 1) + 67 + 3 * (wotsDigits (xMsg r root idx m)).sum

end Machine
end Sys2Proof
end

