-- ==== Sys2Proof/Machine/HashEngine.lean ====
section
/-!
DEFINITION. The hash engine and its XMSS sequencer (R371 to R390).
-/
namespace Sys2Proof
namespace Machine

/-! ### The descriptor (R373) -/

/-- FUNC. -/
def hFunc (d : List Word) : Nat := fld (wordAt d 0) 27 24
/-- TCLASS. -/
def hTclass (d : List Word) : Nat := fld (wordAt d 0) 23 21
/-- INLINE. -/
def hInline (d : List Word) : Bool := bit (wordAt d 0) 20
/-- RESUME. -/
def hResume (d : List Word) : Bool := bit (wordAt d 0) 19
/-- SAVE. -/
def hSave (d : List Word) : Bool := bit (wordAt d 0) 18
/-- CTX. -/
def hCtx (d : List Word) : Nat := fld (wordAt d 0) 17 15
/-- OUT. -/
def hOut (d : List Word) : Nat := fld (wordAt d 0) 14 13
/-- SRC_OM. -/
def hSrcOm (d : List Word) : Bool := bit (wordAt d 0) 12
/-- SRCQ. -/
def hSrcq (d : List Word) : Nat := fld (wordAt d 0) 11 8
/-- DSTQ. -/
def hDstq (d : List Word) : Nat := fld (wordAt d 0) 7 4
/-- XOP. -/
def hXop (d : List Word) : Nat := fld (wordAt d 0) 3 0
/-- KEY. -/
def hKey (d : List Word) : Word := wordAt d 1
/-- OUTLEN. -/
def hOutlen (d : List Word) : Nat := fld (wordAt d 2) 31 16
/-- DLEN. -/
def hDlen (d : List Word) : Nat := fld (wordAt d 2) 15 0
/-- SLEN. -/
def hSlen (d : List Word) : Nat := fld (wordAt d 3) 31 26
/-- OM_OUT. -/
def hOmOut (d : List Word) : Nat := fld (wordAt d 3) 23 12
/-- OM_IN. -/
def hOmIn (d : List Word) : Nat := fld (wordAt d 3) 11 0
/-- KEY2. -/
def hKey2 (d : List Word) : Word := wordAt d 4
/-- PSET. -/
def hPset (d : List Word) : Nat := fld (wordAt d 4) 31 24
/-- ANCHOR. -/
def hAnchor (d : List Word) : Nat := fld (wordAt d 4) 23 16

/-- The job runs the XMSS sequencer. -/
def hX (d : List Word) : Bool := decide (hFunc d = 8)

/-- The rate of a function (R371). -/
def hRate (f : Nat) : Nat :=
  match f with | 2 => 72 | 3 => 168 | _ => 136

/-- The data bytes that the descriptor implies (R374). -/
def hDataLen (d : List Word) : Nat :=
  if hX d then hDlen d + (if hXop d = 1 then (match psetOf (hPset d) with | some p => p.sig | none => 0) else 0)
  else if hFunc d = 5 ∧ hResume d = false then (if hKey d = 0 then 32 else 0) + hSlen d + hDlen d
  else hDlen d

/-- The first word of data in operand memory: behind the public key of a VERIFY with ANCHOR 0 (R374). -/
def hDataWord (d : List Word) : Nat := hOmIn d + (if hX d ∧ hXop d = 1 ∧ hAnchor d = 0 then 8 else 0)

/-- The job delivers an output: it finishes, or the sequencer makes one. -/
def hDelivers (d : List Word) : Bool := if hX d then decide (hXop d ≠ 1) else !hSave d

/-- Output bytes. -/
def hOutBytes (d : List Word) : Nat := if hX d then (if hXop d = 2 then 4963 else 64) else hOutlen d

/-! ### The checks at the start (R377) -/

/-- Step 1. -/
def hZero (d : List Word) : Bool :=
  (decide (3 ≤ hFunc d ∧ hFunc d ≤ 5 ∧ hOutlen d = 0) && !hSave d) ||
    (hX d && decide ((hXop d = 1 ∨ hXop d = 2) ∧ hDlen d = 0)) ||
    decide (hKey d ≠ 0 ∧ kLen (hKey d) = 0) ||
    (!hX d && decide (2 ≤ hOut d ∧ kLen (hKey2 d) = 0))

/-- The channel may name operand memory from a word on (R374). -/
def State.hPart (s : State) (ch w : Nat) : Bool := s.chPeat ch || decide (s.bnBase true ≤ w)

/-- The context rules (R378). -/
def hCtxOk (s : State) (ch : Nat) (d : List Word) : Bool :=
  if hResume d then
    match tfind s.eng.ctx (hCtx d) with
    | some c => decide (c.chan = ch ∧ c.func = hFunc d ∧ hKey d = 0 ∧ hSlen d = 0)
    | none => false
  else !hSave d || (tfind s.eng.ctx (hCtx d)).isNone

/-- The length of the output of each function (R371). -/
def hOutlenOk (d : List Word) : Bool :=
  hSave d || (match hFunc d with
    | 1 => decide (hOutlen d = 32)
    | 2 => decide (hOutlen d = 64)
    | _ => decide (hOutlen d ≤ 4096))

/-- The queue, or the place in operand memory, that OUT 0 or 1 names: of every job, be there an output or none (R330, R374). -/
def hOutOk (s : State) (ch : Nat) (d : List Word) : Bool :=
  match hOut d with
  | 0 => queueOk ch (hDstq d)
  | 1 => s.hPart ch (hOmOut d)
  | _ => true

/-- KEY2 and the output length of FUNC 0x1 to 0x5 (R373, R375); OUTLEN is ignored on SAVE. -/
def hDestOk (d : List Word) : Bool :=
  match hOut d with
  | 0 => decide (hKey2 d = 0)
  | 1 => decide (hKey2 d = 0)
  | 2 => hSave d || decide (hOutlen d % 16 = 0 ∧ hOutlen d ≤ (if kSes (hKey2 d) then 128 else 64))
  | _ => kSes (hKey2 d) && (hSave d || decide (hOutlen d = 48))

/-- Where the data comes from. -/
def hSourceOk (s : State) (ch : Nat) (d : List Word) : Bool :=
  !(hInline d && hSrcOm d) && (hInline d || hSrcOm d || queueOk ch (hSrcq d) || (hX d && decide (hXop d = 3))) &&
    (!hSrcOm d || s.hPart ch (hDataWord d))

/-- The fields of FUNC 0x8 (R379, R381, R382, R387). -/
def hXmssOk (s : State) (ch : Nat) (d : List Word) : Bool :=
  !hResume d && !hSave d && decide (hSlen d = 0 ∧ fld (wordAt d 4) 15 0 = 0 ∧ hOut d ≤ 1) &&
    (match hXop d with
     | 1 => decide (hKey d = 0 ∧ hDlen d ≤ 8192 ∧ hAnchor d ≤ 4) && (psetOf (hPset d)).isSome &&
       (if hAnchor d = 0 then s.hPart ch (hOmIn d)
        else decide (hPset d = (if hAnchor d ≤ 2 then 0x03 else 0x11)))
     | 2 => decide (124 ≤ ch ∧ hPset d = 0x11 ∧ hAnchor d = 0 ∧ hOut d = 0 ∧ hDlen d ≤ 8192 ∧ hKey d = 0x1004)
     | 3 => decide (124 ≤ ch ∧ hPset d = 0x11 ∧ hAnchor d = 0 ∧ hOut d = 0 ∧ hDlen d = 0 ∧ hKey d = 0x1004) &&
       decide (s.envm.lcs = 0) && !s.envm.xmssKeyed
     | _ => false)

/-- The fields of FUNC 0x1 to 0x5. -/
def hFuncOk (s : State) (ch : Nat) (d : List Word) : Bool :=
  decide (1 ≤ hFunc d ∧ hFunc d ≤ 5 ∧ hXop d = 0 ∧ hSlen d ≤ 32) && (decide (hFunc d = 5 ∨ (hKey d = 0 ∧ hSlen d = 0))) &&
    !(decide (hFunc d = 5 ∧ hKey d = 0 ∧ ch < 124) && !hResume d) && hCtxOk s ch d && hOutlenOk d &&
    decide (hOut d ≤ 1 ∨ 124 ≤ ch) && hDestOk d

/-- Step 2: every field within its rules. A code of TCLASS that the submitter may not use is refused, whatever class the job
has of its own (R341; log entry 65). -/
def hFields (s : State) (ch : Nat) (d : List Word) : Bool :=
  s.classAllowed ch (hTclass d) && decide (fld (wordAt d 3) 25 24 = 0) &&
    hSourceOk s ch d && hOutOk s ch d && (if hX d then hXmssOk s ch d else hFuncOk s ch d)

/-- The KMAC key (R376). -/
def hKmacKey (s : State) (ch : Nat) (d : List Word) : Byte :=
  let r := hKey d
  if r = 0 then cOk
  else if kSes r ∧ ch < 124 then cAuthFail
  else if s.keyCheck ch r (if 2 ≤ hOut d then 0x40 else 0x20) ≠ cOk then
    s.keyCheck ch r (if 2 ≤ hOut d then 0x40 else 0x20)
  else if kSes r ∨ s.keyType r = 1 ∨ s.keyType r = 2 ∨ s.keyType r = 7 then cOk else cAuthFail

/-- The destination slot (R375); a SAVE job writes no byte to it. -/
def hDestKey (s : State) (ch : Nat) (d : List Word) : Byte :=
  let r := hKey2 d
  if hOut d ≤ 1 then cOk
  else if hOut d = 2 then s.destCheck ch r (if hSave d then 0 else hOutlen d)
  else
    let x := s.ses (kSlot r)
    if keyForm r ≠ cOk then keyForm r
    else if x.st ≠ .ready then cNoSession
    else if x.suite = 1 ∨ (x.suite = 3 ∧ (kOff r = 0 ∨ kOff r = 2)) then cOk
    else cAuthFail

/-- Step 3: anchors and key references (R295, R376, R381, R385); the seeds of KEYGEN were made by GENERATE (R387). -/
def hKeys (s : State) (ch : Nat) (d : List Word) : Byte :=
  if hX d then
    if hXop d = 1 then
      (if hAnchor d = 0 ∨ (tfind s.envm.anchors (hAnchor d)).isSome then cOk else cKeyEmpty)
    else if s.keyCheck ch (hKey d) 0x80 ≠ cOk then s.keyCheck ch (hKey d) 0x80
    else if hXop d = 2 ∧ s.envm.xmssKeyed = false then cKeyEmpty
    else if hXop d = 3 ∧ (match s.key 1 with | some k => k.origin | none => 0) ≠ 0 then cAuthFail
    else cOk
  else if hKmacKey s ch d ≠ cOk then hKmacKey s ch d
  else hDestKey s ch d

/-- Step 5: the bytes of the job's packet, or of its source packet, are those that its descriptor implies (R374). -/
def hCountOk (s : State) (p : Packet) (d : List Word) : Bool :=
  hSrcOm d || s.sourceBroken p || decide ((s.jobData p 5).length = hDataLen d)

/-- The code with which a job ends before it takes its input (R105, R377, R386, R387, R399). A SIGN with no index left is
looked at after the data count, which is step 5 of R377 (R386). -/
def hRefusal (s : State) (p : Packet) (d : List Word) : Byte :=
  if s.engineAllowed p.src engHsh = false then cAuthFail
  else if p.items.length < 5 then cAuthFail
  else if hZero d then cLenZero
  else if hFields s p.src d = false then cAuthFail
  else if hKeys s p.src d ≠ cOk then hKeys s p.src d
  else if hKey d ≠ 0 ∧ s.maskStopped 2 then cRngFail
  else if hX d ∧ hXop d = 2 ∧ hCountOk s p d ∧ 0x100000 ≤ s.envm.xmssNext then cAborted
  else if hX d ∧ hXop d = 3 ∧ s.rngFailed then cRngFail
  else if hDelivers d ∧ (hX d ∨ hOut d = 0) ∧ s.neverFits (s.dstLane (hDstq d)) (hOutBytes d) then cAborted
  else cOk

/-! ### Results -/

/-- The class a hash job runs in (R388). -/
def hClass (s : State) (ch : Nat) (d : List Word) : Nat :=
  if hX d ∧ hXop d ≠ 1 then 3 else s.trafficClass ch (hTclass d) false

/-- The sponge that a job continues, or opens with its data: the opening block and the bytes absorbed (R374, R378). -/
def hSponge (s : State) (d : List Word) (data : Bytes) : Bytes × Bytes :=
  if hResume d then
    match tfind s.eng.ctx (hCtx d) with
    | some c => (c.pre, c.msg ++ data)
    | none => ([], data)
  else if hFunc d = 5 then
    if hKey d = 0 then
      (kmacOpening (slice data 0 32) (slice data 32 (hSlen d)), data.drop (32 + hSlen d))
    else (kmacOpening (s.keyBytes (hKey d)) (slice data 0 (hSlen d)), data.drop (hSlen d))
  else ([], data)

/-- The output of a finished function. -/
def hDigest (f : Nat) (pre msg : Bytes) (n : Nat) : Bytes :=
  match f with
  | 1 => sha3x256 msg
  | 2 => sha3x512 msg
  | 3 => shakeL msg n
  | 4 => shakeH msg n
  | _ => kmacFinish (pre ++ msg) n

/-- The permutations of a job (R372): b bytes carried in. -/
def hPerms (d : List Word) (b : Nat) : Nat :=
  let r := hRate (hFunc d)
  let e := if hFunc d = 5 then (if hOutlen d ≤ 31 then 2 else 3) else 0
  (if hSave d then (b + hDlen d) / r
   else (b + hDlen d + e) / r + 1 + (hOutlen d + r - 1) / r - 1) +
    (if hFunc d = 5 ∧ hResume d = false then 2 else 0)

/-- The bytes that a resumed context carries in its unfinished block. -/
def hCarried (s : State) (d : List Word) : Nat :=
  if hResume d then
    match tfind s.eng.ctx (hCtx d) with
    | some c => c.msg.length % hRate (hFunc d)
    | none => 0
  else 0

/-- Where a job's output goes (R375). -/
def hDest (s : State) (d : List Word) : OutDest :=
  if hDelivers d = false then .none
  else if hX d ∨ hOut d = 0 then .queue (s.dstLane (hDstq d))
  else if hOut d = 1 then .opmem (hOmOut d)
  else if hOut d = 2 then
    (if kSes (hKey2 d) then .session (kSlot (hKey2 d)) (16 * kOff (hKey2 d))
     else .static (kSlot (hKey2 d)) (16 * kOff (hKey2 d)))
  else .ranging (kSlot (hKey2 d)) (kOff (hKey2 d))

/-- The sessions of a job: of its key, and of its destination. -/
def hKeySes (d : List Word) : Option Nat := if hKey d = 0 then none else refSes (hKey d)

/-- The session that KEY2 names: the output goes there, where the job is no SAVE (R388). -/
def hOutSes (d : List Word) : Option Nat := if hX d ∨ hOut d ≤ 1 then none else refSes (hKey2 d)

/-- The run of a function on its data. -/
def hFuncRun (s : State) (d : List Word) (data : Bytes) (r : Run) : Run :=
  let sp := hSponge s d data
  { r with
    out := if hSave d then [] else hDigest (hFunc d) sp.1 sp.2 (hOutlen d)
    cycles := 8 + 26 * hPerms d (hCarried s d) + (if redundant r.tclass then 8 else 0)
    save := if hSave d then some (hCtx d, sp.1, sp.2) else none }

/-- The public key of a VERIFY (R381). -/
def hPublic (s : State) (d : List Word) : Bytes :=
  if hAnchor d = 0 then s.omRead (hOmIn d) 8
  else match tfind s.envm.anchors (hAnchor d) with
    | some a => a.key
    | none => []

/-- The run of a VERIFY (R382, R383). -/
def hVerifyRun (s : State) (d : List Word) (data : Bytes) (r : Run) : Run :=
  match psetOf (hPset d) with
  | none => r
  | some ps =>
    let sig := data.take ps.sig
    let m := data.drop ps.sig
    { r with
      status := if xmssVerifyFn ps (hPublic s d) sig m then cOk else cAuthFail
      cycles := 27 * verifyCalls ps (hPublic s d) sig m + 8 + (if redundant r.tclass then 8 else 0)
      index := w32 (xIndex ps sig) }

/-- The run of a SIGN (R386): with the index before its commit, and 3360 calls for each index that the traversal state
lags. -/
def hSignRun (s : State) (data : Bytes) (r : Run) : Run :=
  let k := match s.key 1 with | some k => k.key | none => []
  let root := match tfind s.envm.anchors 4 with | some a => a.key.take 32 | none => []
  let idx := s.envm.xmssNext
  let prf := slice k 32 32
  { r with
    out := identitySign (slice k 0 32) prf s.envm.pubSeed root idx data
    cycles := 27 * (signCalls (xHash 3 prf (toBE 32 idx)) root idx data + 3360 + 3360 * s.envm.xmssLag) + 16
    index := w32 idx }

/-- The run of a KEYGEN that has its conditioned output (R387): root, then PUB_SEED, which is that output. -/
def hKeygenRun (s : State) (seed : Bytes) (r : Run) : Run × State :=
  let k := match s.key 1 with | some k => k.key | none => []
  let c := s.freeW
  ({ r with out := identityRoot (slice k 0 32) seed ++ seed, cycles := c.1.toNat }, c.2)

/-- A KEYGEN asks for its 32 bytes of conditioned output, or takes them: its run, without an output while it waits, and
with RNG_FAIL where the source failed (R387). -/
def hSeed (s : State) (r : Run) : Run × State :=
  match s.draw .keygen 32 with
  | .wait t => (r, t)
  | .failed c t => ({ r with status := c }, t)
  | .got b t => hKeygenRun t b r

/-- The run of a job. -/
def hRun (s : State) (p : Packet) (d : List Word) (data : Bytes) : Run × State :=
  let r := { runNil with
    chan := p.src, prio := s.effPrio p, desc := d.take 5, tclass := hClass s p.src d, keySes := hKeySes d
    outSes := hOutSes d, dest := hDest s d }
  if hX d = false then (hFuncRun s d data r, s)
  else if hXop d = 1 then (hVerifyRun s d data r, s)
  else if hXop d = 2 then (hSignRun s data r, { s with envm := { s.envm with xmssNext := s.envm.xmssNext + 1 } })
  else hSeed s r

/-- An area of operand memory that a job names runs past its partition (a host mistake). -/
def State.hPast (s : State) (w bytes : Nat) : Bool :=
  decide ((if w < s.bnBase true then s.bnBase true else 4096) * 8 < w * 8 + bytes)

/-- The partition of a word becomes free values (R14, R15). -/
def State.hFree (s : State) (w : Nat) : State :=
  if w < s.bnBase true then s.bnFree [(0, s.bnBase true)] else s.bnFree [(s.bnBase true, 4096 - s.bnBase true)]

/-- The areas of operand memory that a job reads under SRC_OM or writes under OUT 1: first word, words. -/
def hAreas (d : List Word) : List (Nat × Nat) :=
  (if hSrcOm d then
    (if hX d ∧ hAnchor d = 0 then [(hOmIn d, 8)] else []) ++ [(hDataWord d, (hDataLen d + 7) / 8)] else []) ++
    (if hDelivers d && !hX d && decide (hOut d = 1) then [(hOmOut d, (hOutlen d + 7) / 8)] else [])

/-- A run whose output has become unpredictable. -/
def State.hFreeOut (s : State) (r : Run) : Run × State :=
  let o := s.freeBytes r.out.length
  match r.save with
  | some (n, pre, msg) =>
    let m := o.2.freeBytes msg.length
    ({ r with out := o.1, save := some (n, pre, m.1) }, m.2)
  | none => ({ r with out := o.1 }, o.2)

/-- A hash job runs that uses an area: its output and its areas become free values. -/
def State.hSpoil (s : State) (area : Nat × Nat) : State :=
  match s.eng.hsh with
  | some r =>
    if (hAreas r.desc).any (areasMeet area) then
      let x := s.hFreeOut r
      { x.2 with eng := { x.2.eng with hsh := some x.1 } }.bnFree (hAreas r.desc)
    else s
  | none => s

/-- The areas that a job in Q10 uses. -/
def State.jobAreas (s : State) (p : Packet) : List (Nat × Nat) :=
  if jobEngine p = engBn then s.bnAll (packetWords p)
  else if jobEngine p = engHsh then hAreas (packetWords p)
  else []

/-- n bytes of operand memory at a were written. A long-integer job that waits, runs or is suspended and uses a slot of
them has unpredictable outputs and scratch; a hash job that reads or writes them has an unpredictable output, and its
areas are unpredictable too (the host mistakes of the two chapters). -/
def State.omTouch (s : State) (a n : Nat) : State :=
  if 0x50000000 ≤ a ∧ a < 0x50008000 then
    let lo := (a - 0x50000000) / 8
    let area := (lo, (a - 0x50000000 + n + 7) / 8 - lo)
    let hit := (s.lane 10).committed.filter fun p => (s.jobAreas p).any (areasMeet area)
    let x := s.bnSpoil area s.eng.bn
    let y := x.2.bnSpoil area s.eng.bnSusp
    let s := { y.2 with eng := { y.2.eng with bn := x.1, bnSusp := y.1, bnMixed := y.2.eng.bnMixed ++ hit.map fun (p : Packet) => p.seq.toNat } }
    (s.bnFree ((hit.filter fun p => decide (jobEngine p = engHsh)).flatMap s.jobAreas)).hSpoil area
  else s

/-- The data of a job: inline, from operand memory, or the packet at the head of SRCQ. -/
def State.hData (s : State) (p : Packet) (d : List Word) : Bytes :=
  if hSrcOm d then (s.omRead (hDataWord d) ((hDataLen d + 7) / 8)).take (hDataLen d) else s.jobData p 5

/-- Starts a job: refuses it, or takes it with its data and runs it. -/
def hBegin (s : State) (p : Packet) : State :=
  let d := packetWords p
  let s := { s with eng := { s.eng with hshLast := p.src } }
  if packetBroken p then (s.countBroken 10 p).refuseJob p cAlarm
  else if hRefusal (s.jobView p) p d ≠ cOk then s.refuseJob p (hRefusal (s.jobView p) p d)
  else
    let data := s.hData p d
    let src := s.sourceOf p
    let broken := s.sourceBroken p
    if broken = false ∧ data.length ≠ hDataLen d then (s.takeJobData p).refuseTaken p cAuthFail
    else
      let inPast := (hSrcOm d && s.hPast (hDataWord d) (hDataLen d)) ||
        (hX d && decide (hXop d = 1 ∧ hAnchor d = 0) && s.hPast (hOmIn d) 64)
      let outPast := hDelivers d && !hX d && decide (hOut d = 1) && s.hPast (hOmOut d) (hOutlen d)
      let rs := hRun s p d data
      let rs := if p.seq.toNat ∈ s.eng.bnMixed then rs.2.hFreeOut rs.1 else rs
      let run := if broken then { rs.1 with status := cAlarm, out := [], save := none } else rs.1
      let run := if outPast then { run with dest := .lost } else run
      let s := (rs.2.takeJobData p).countSource src
      let s := s.each (run.keySes.toList ++ run.outSes.toList) fun s n => s.useSes n
      let s := s.onlyIf inPast fun s => s.hFree (hOmIn d)
      let s := s.onlyIf outPast fun s => s.hFree (hOmOut d)
      { s with eng := { s.eng with hsh := some run } }

/-- The key store's derivations at the start have run: R was had, or could not be had, or no helper data is there (R286, R287,
R376). -/
def State.derived (s : State) : Bool :=
  s.envm.helper.isNone || s.power.rootKnown || decide (4 ≤ s.power.rootTries)

/-- FUNC is in the table, with an XOP in the table. -/
def hKnown (f x : Nat) : Bool := decide ((1 ≤ f ∧ f ≤ 5) ∨ (f = 8 ∧ 1 ≤ x ∧ x ≤ 3))

/-- A free engine starts its next job where that job's FUNC and XOP are these, or are none at all; it accepts none before the
key store's derivations at the start (R376). -/
def hStart (f x : Nat) (s : State) : State :=
  if s.resumed ∧ s.derived ∧ s.eng.hsh = none then
    match s.candidate engHsh s.eng.hshLast with
    | some p =>
      let d := packetWords p
      if (hFunc d = f ∧ (f = 8 → hXop d = x)) ∨ hKnown (hFunc d) (hXop d) = false then hBegin s p else s
    | none => s
  else s

/-! ### Completions (R389) -/

/-- Bytes that a job reports: of a ranging split those that go to the slot. -/
def hBytes (r : Run) : Nat :=
  match r.dest with
  | .none => 0
  | .ranging _ _ => 32
  | _ => r.out.length

/-- Completion words. -/
def hWords (r : Run) (status : Byte) (seq : Nat) (cycles : Word) : List Word :=
  let ok := isFail status = false
  [w32 (status.toNat * 2 ^ 24 + hFunc r.desc * 2 ^ 20 + hXop r.desc * 2 ^ 16 + (if ok then seq else 0)),
   w32 (b2n (redundant r.tclass) * 2 ^ 31 + (if ok then hBytes r else 0)), cycles, r.index]

/-- Completes a run, freeing the context of a failed job. -/
def State.hComplete (s : State) (r : Run) (status : Byte) (seq : Nat) (cycles : Word) : State :=
  (s.spongeFail (wordAt r.desc 0) status).completeJob r.chan r.prio engHsh status (hWords r status seq cycles)

/-- A SIGN that fails leaves its index skipped: the traversal state lags by one more (R386). -/
def State.hSkip (s : State) (r : Run) : State :=
  s.onlyIf (hX r.desc && decide (hXop r.desc = 2)) fun s =>
    { s with envm := { s.envm with xmssLag := s.envm.xmssLag + 1 } }

/-- Ends the running job with a failure: its context is freed, and the index of a SIGN stays skipped (R386, R388). -/
def State.endHsh (s : State) (status : Byte) : State :=
  match s.eng.hsh with
  | some r =>
    let s := { s with eng := { s.eng with hsh := none } }
    let s := s.onlyIf (decide (status = cAlarm)) fun s => s.alarmSession aHSH_FAULT r
    let s := s.onlyIf (hX r.desc && decide (hXop r.desc = 3)) fun s => s.forgetDraw .keygen
    let c := (s.hSkip r).freeW
    c.2.hComplete r status 0 c.1
  | none => s

/-- What a finished job leaves in eNVM and in its context (R378, R386, R387). -/
def hCommit (s : State) (r : Run) : State :=
  if hX r.desc then
    if hXop r.desc = 2 then { s with envm := { s.envm with xmssLag := 0 } }
    else if hXop r.desc = 3 then
      { s with envm := { s.envm with
          anchors := tput s.envm.anchors 4 ⟨0x11, r.out⟩, xmssKeyed := true, xmssNext := 0, xmssLag := 0
          pubSeed := r.out.drop 32 } }
    else s
  else
    match r.save with
    | some (n, pre, msg) => { s with eng := { s.eng with ctx := tput s.eng.ctx n ⟨r.chan, hFunc r.desc, pre, msg⟩ } }
    | none =>
      if hResume r.desc then { s with eng := { s.eng with ctx := tdel s.eng.ctx (hCtx r.desc) } } else s

/-- A KEYGEN that still waits for its conditioned output (R387). -/
def hUnseeded (r : Run) : Bool := hX r.desc && decide (hXop r.desc = 3) && r.out.isEmpty

/-- The running job completes: its output, then its completion. A mismatch of the two lanes of a redundant class ends it
with FAULT_ALARM (R388). A KEYGEN that waits for conditioned output takes it where it is there, and completes later. -/
def hFinish (s : State) (mismatch : Bool) : State :=
  match s.eng.hsh with
  | none => s
  | some r =>
    if mismatch ∧ redundant r.tclass then (s.bumpSat aHSH_FAULT 15 8 1).endHsh cAlarm
    else if isFail r.status then
      ({ s with eng := { s.eng with hsh := none } }.hSkip r).hComplete r r.status 0 (w32 r.cycles)
    else if hUnseeded r then
      let x := hSeed s r
      { x.2 with eng := { x.2.eng with hsh := some x.1 } }
    else
      match s.deliver r with
      | none => s
      | some (status, seq, t) =>
        let t := { t with eng := { t.eng with hsh := none } }
        let t := match r.dest with
          | .opmem w => t.omTouch (0x50000000 + 8 * w) r.out.length
          | _ => t
        (hCommit t r).hComplete r status seq (w32 r.cycles)

/-- SHA3_256 (R371). -/
def execSha3256 (s : State) : Result := done (hStart 1 0 s)
/-- SHA3_512 (R371). -/
def execSha3512 (s : State) : Result := done (hStart 2 0 s)
/-- SHAKE128 (R371). -/
def execShake128 (s : State) : Result := done (hStart 3 0 s)
/-- SHAKE256 (R371). -/
def execShake256 (s : State) : Result := done (hStart 4 0 s)
/-- KMAC256 (R376). -/
def execKmac256 (s : State) : Result := done (hStart 5 0 s)
/-- XMSS_VERIFY (R383). -/
def execXmssVerify (s : State) : Result := done (hStart 8 1 s)
/-- XMSS_SIGN (R386). -/
def execXmssSign (s : State) : Result := done (hStart 8 2 s)
/-- XMSS_KEYGEN (R387). -/
def execXmssKeygen (s : State) : Result := done (hStart 8 3 s)
/-- HSH_JOB_COMPLETION (R389). -/
def execHshJobCompletion (mismatch : Bool) (s : State) : Result := done (hFinish s mismatch)

end Machine
end Sys2Proof
end

