-- ==== Sys2Proof/Machine/Locks.lean ====
section
/-!
DEFINITION. Lockout (R266 to R268), enrolled entries (R258), the governor's budgets (R493), and what the front ends share:
their channels' commands and results.
-/
namespace Sys2Proof
namespace Machine

/-! ### Lockout (R266, R267; CRD_LOCKCFG) -/

/-- WINDOW_S in force, in XO cycles. -/
def State.lockWindow (s : State) : Nat := secs (max 10 (min 600 (s.rf aCRD_LOCKCFG 9 0)))

/-- FAILS in force. -/
def State.lockFails (s : State) : Nat := max 2 (s.rf aCRD_LOCKCFG 15 12)

/-- LOCK_MIN in force, in XO cycles. -/
def State.lockTime (s : State) : Nat := secs (60 * max 1 (min 60 (s.rf aCRD_LOCKCFG 23 16)))

/-- No failure and no lock. -/
def lockNil : Lockout := ⟨[], none⟩

/-- What a lockout holds now: nothing once its lock has ended, and no failure older than the window. -/
def State.lockNow (s : State) (l : Lockout) : Lockout :=
  match l.lockedUntil with
  | some t => if t ≤ s.now then lockNil else l
  | none => { l with fails := l.fails.filter fun t => decide (s.now < t + s.lockWindow) }

/-- The lockout of a class or an entry. -/
def State.lockOf (s : State) (t : LockTarget) : Lockout :=
  s.lockNow (match t with
    | .cls c => tget s.envm.lockCls c lockNil
    | .entry n => tget s.envm.lockEnt n lockNil)

/-- Writes a lockout. -/
def State.setLock (s : State) (t : LockTarget) (l : Lockout) : State :=
  match t with
  | .cls c => { s with envm := { s.envm with lockCls := tset s.envm.lockCls c l lockNil } }
  | .entry n => { s with envm := { s.envm with lockEnt := tset s.envm.lockEnt n l lockNil } }

/-- A class or an entry is locked. -/
def State.isLocked (s : State) (t : LockTarget) : Bool := (s.lockOf t).lockedUntil.isSome

/-- Commits a counted failure, which may lock; none is counted during a lock (R267, R269). -/
def State.countFailure (s : State) (t : LockTarget) : State :=
  if s.isLocked t then s
  else
    let fails := (s.lockOf t).fails ++ [s.now]
    s.setLock t ⟨fails, if s.lockFails ≤ fails.length then some (s.now + s.lockTime) else none⟩

/-- A success of a token clears its history (R267). -/
def State.clearFailures (s : State) (t : LockTarget) : State := s.setLock t lockNil

/-- The lockout class of a channel's FE_CLASS. -/
def lockClass (fe : Nat) : Nat :=
  match fe with | 1 => 0 | 2 => 0 | 3 => 1 | 4 => 2 | _ => 3

/-! ### Enrolled entries -/

/-- The entry with a TID. -/
def State.entryByTid (s : State) (tid : Word) : Option (Nat × Entry) := s.envm.entries.find? fun e => decide (e.2.tid = tid)

/-- The entry with a wake identifier. -/
def State.entryByWake (s : State) (w : BitVec 16) : Option (Nat × Entry) :=
  s.envm.entries.find? fun e => decide (e.2.wakeId = w ∧ w ≠ 0)

/-! ### The governor's budgets (R493) -/

/-- Capacity of the LF budget. -/
def lfCapacity : Int := 173568000
/-- Capacity of the UWB budget. -/
def uwbCapacity : Int := 43392000

/-- DUTY. -/
def State.duty (s : State) : Nat := s.rf aPWR_THERM 4 0

/-- Refills both budgets up to now. -/
def State.refill (s : State) : State :=
  let dt := s.now - s.gov.at_
  { s with gov := { lf := min lfCapacity (s.gov.lf + 4 * s.duty * dt), uwb := min uwbCapacity (s.gov.uwb + s.duty * dt),
                    at_ := s.now } }

/-- A budget of a capacity covers a cost. -/
def covers (budget cap cost : Int) : Bool := decide (cost ≤ budget ∨ (cap < cost ∧ budget = cap))

/-- Takes a cost out of the LF budget, where the duty level limits it. -/
def State.spendLf (s : State) (cost : Int) : State :=
  if s.duty < 16 then { s with gov := { s.gov with lf := s.gov.lf - cost } } else s

/-- Takes a cost out of the UWB budget, where the duty level limits it. -/
def State.spendUwb (s : State) (cost : Int) : State :=
  if s.duty < 16 then { s with gov := { s.gov with uwb := s.gov.uwb - cost } } else s

/-! ### Internal conversions (R426) -/

/-- Internal conversions that come inside a running sequence move its later entries on; the conversion in progress keeps its
slot. -/
def State.internalSlots (s : State) (k : Nat) : State :=
  { s with mon := { s.mon with run := s.mon.run.map fun (r : MonRun) => { r with moved := r.moved + k } } }

/-! ### Front-end channels (R99, R111; CHN_BINDn, CHN_QUEUESn) -/

/-- FE_CLASS of a channel: the internal class for CH124 to CH127 (R99). -/
def State.feClass (s : State) (ch : Nat) : Nat := if 124 ≤ ch ∧ ch < 128 then 8 else s.rf (aCHN_BIND ch) 3 0

/-- The section that a front-end class needs: an absent one leaves its function off (R60), and none runs in
SCRAPPED (R94). -/
def State.feOn (s : State) (fe : Nat) : Bool :=
  decide (s.envm.lcs ≠ 5) && match fe with
  | 1 => (s.sect 3 0).isSome
  | 2 => (s.sect 3 0).isSome
  | 3 => (s.sect 4 0).isSome
  | 5 => (s.sect 5 0).isSome
  | _ => true

/-- A front end may take a packet of a channel's INQ: any, but for one of a class that drains for a replacement (R65, R149). -/
def State.feMay (s : State) (ch : Nat) (p : Packet) : Bool :=
  decide (s.feClass ch ∉ s.cfg.held) || decide ((s.rf (aCHN_QUEUES ch) 3 0, p.seq.toNat) ∈ s.cfg.hold)

/-! ### Time in TS steps (R188, R190) -/

/-- The TS counter, whose steps are 113/266240 of an XO cycle (R188). -/
def State.tsNow (s : State) : Nat := (s.now - s.tsOrigin) * 266240 / 113 / 128 * 128 % 2 ^ 40

/-- Microseconds in TS steps, rounded down. -/
def tsUs (us : Nat) : Nat := us * 638976 / 10

/-- How far a TS value lies ahead of another, in the future below 2^39 (R190). -/
def tsAhead (t now : Nat) : Int :=
  let d : Nat := (t + 2 ^ 40 - now % 2 ^ 40) % 2 ^ 40
  if d < 2 ^ 39 then d else (d : Int) - 2 ^ 40

/-! ### The sequencer (R103) -/

/-- A UWB command is scheduled: SCHED of a TX or an RX (R189). -/
def feSched (p : Packet) : Bool :=
  let w := wordAt (packetWords p) 0
  bit w 27 && decide (fld w 31 28 = 1 ∨ fld w 31 28 = 2)

/-- SCHED of an accepted operation. -/
def opSched (o : UwbOp) : Bool := bit o.w0 27 && decide (fld o.w0 31 28 = 1 ∨ fld o.w0 31 28 = 2)

/-- The channel that forwarded APDUs go to and whose answers the tag role takes (R167). -/
def State.tagChannel (s : State) : Option Nat :=
  (List.range 128).find? fun n => decide (s.chState n = 1 ∧ s.feClass n = 4)

/-- A channel's front end takes packets from its INQ now: it runs, no reader is in the middle of a packet of it, and its
function is on. -/
def State.feTakes (s : State) (ch : Nat) : Bool :=
  s.resumed && decide (s.chState ch = 1) && s.feOn (s.feClass ch) &&
    (s.lane (s.rf (aCHN_QUEUES ch) 3 0)).half.isNone

/-- Scheduled operations accepted and not ended. -/
def State.uwbPending (s : State) : Nat := (s.uwb.ops.filter fun o => o.fin.isNone && opSched o).length

/-- The oldest of the radio's commands that have waited for room, once there is room (R189). -/
def State.uwbOldest (s : State) : Option Nat :=
  if 64 ≤ s.uwbPending then none
  else (((List.range 124).filter fun ch => decide (s.feClass ch = 5) && s.feTakes ch).flatMap fun ch =>
    ((s.lane (s.rf (aCHN_QUEUES ch) 3 0)).committed.filter fun p => s.feMay ch p && decide (p.no < s.uwb.waitNo)).map
      Packet.no).min?

/-- The packets of its INQ from which a channel's front end takes the next: any that it may take, but the radio takes commands
that have waited for room first, in commit order (R189). -/
def State.feChoice (s : State) (ch : Nat) (p : Packet) : Bool :=
  s.feMay ch p && (decide (s.feClass ch ≠ 5) || (match s.uwbOldest with | some n => decide (p.no = n) | none => true))

/-- The command of a running channel's INQ that its front end has room for: the reader takes one at a time, the radio 64
scheduled ones, the tag role the answers that it waits for or will discard (R155, R167, R189). -/
def State.feOffer (s : State) (ch : Nat) : Option Packet :=
  let c := s.feClass ch
  if s.resumed ∧ s.chState ch = 1 ∧ c ∈ [1, 2, 3, 4, 5] ∧ s.feOn c then
    match s.headPacketIf (s.rf (aCHN_QUEUES ch) 3 0) (s.feChoice ch) with
    | none => none
    | some p =>
      if c = 3 ∧ s.nfc.cur.isSome then none
      else if c = 4 ∧ (s.tagChannel ≠ some ch ∨ (s.tag.fwdWait = false ∧ s.tag.fwdStale = 0)) then none
      else if c = 5 ∧ feSched p ∧ 64 ≤ s.uwbPending then none
      else some p
  else none

/-- The deadline of a channel's pending command: the TIME of a scheduled radio operation, where it lies at most 20 µs ahead
(R103; log entry 57). -/
def State.feDeadline (s : State) (ch : Nat) : Option Nat :=
  match s.feOffer ch with
  | some p =>
    let d := tsAhead (fld (wordAt (packetWords p) 2) 7 0 * 2 ^ 32 + (wordAt (packetWords p) 1).toNat) s.tsNow
    if s.feClass ch = 5 ∧ feSched p ∧ d ≤ tsUs 20 then some (d + 2 ^ 39).toNat else none
  | none => none

/-- The better of two channels to serve: the earlier deadline, then the higher PRIO, then the next above the channel served
last at that priority (R103). -/
def State.seqBetter (s : State) (a b : Nat) : Nat :=
  let pa := s.rf (aCHN_SCHED a) 1 0
  let pb := s.rf (aCHN_SCHED b) 1 0
  match s.feDeadline a, s.feDeadline b with
  | some x, some y => if y < x then b else a
  | some _, none => a
  | none, some _ => b
  | none, none =>
    if pa < pb then b
    else if pb < pa then a
    else if aboveLast (tget s.seqLast pa 0) b < aboveLast (tget s.seqLast pa 0) a then b else a

/-- The channel that the sequencer serves next, among those with a command to take (R103). -/
def State.seqNext (s : State) : Option Nat :=
  match (List.range 128).filter fun c => (s.feOffer c).isSome with
  | [] => none
  | c :: t => some (t.foldl s.seqBetter c)

/-- The command that a channel of one of these classes gives its front end, where the sequencer serves that channel next. -/
def State.feHead (s : State) (ch : Nat) (classes : List Nat) : Option Packet :=
  if s.feClass ch ∈ classes ∧ s.seqNext = some ch then s.feOffer ch else none

/-- Takes that command: one visit of the sequencer takes one (R103; log entry 57). -/
def State.feTake (s : State) (ch : Nat) : State :=
  let s := { s with seqLast := tset s.seqLast (s.rf (aCHN_SCHED ch) 1 0) ch 0 }
  let q := s.rf (aCHN_QUEUES ch) 3 0
  let k := match s.headPacketIf q (s.feChoice ch) with | some p => p.items.length | none => 0
  (s.takeHeadIf q (s.feChoice ch)).itemsBy .sequencer .sequencer q 3 k

/-- Commits a front end's packet to a channel's OUTQ and counts a completed command of block b (R399, R477; log entry 22:
its PRIO is 0). -/
def State.feResult (s : State) (b ch : Nat) (status : Byte) (bytes : Bytes) : State :=
  let s := s.feCommit (s.dstLane (s.rf (aCHN_QUEUES ch) 7 4)) (bytesPacket 0 ch bytes)
  s.ended b status

/-- The SUITE 2 session that a channel is bound to, READY under the generation latched (R105, R131). -/
def State.tokenSes (s : State) (ch : Nat) : Option Nat :=
  let n := s.rf (aCHN_BIND ch) 15 8
  if s.boundTo ch n ∧ (s.ses n).suite = 2 then some n else none

end Machine
end Sys2Proof
end

