-- ==== Sys2Proof/Machine/Link.lean ====
section
/-!
DEFINITION. Sending on the Causeway (R440 to R451): frames, their authentication, placing on a port, routing; and activity
(R47), which sends a notice.
-/
namespace Sys2Proof
namespace Machine

/-! ### Ports (R442, R445, R447) -/

/-- A port that has just come up. -/
def portNil : CwyPort := ⟨0, 0, false, [], [], 0, false, none⟩

/-- Port UP is 0, DN is 1. -/
def portIx (p : Port) : Nat := match p with | .up => 0 | .dn => 1

/-- The go-back-N state of a port. -/
def State.port (s : State) (p : Nat) : CwyPort := tget s.cwy.ports p portNil

/-- Writes the state of a port. -/
def State.setPort (s : State) (p : Nat) (x : CwyPort) : State :=
  { s with cwy := { s.cwy with ports := tset s.cwy.ports p x portNil } }

/-- The port is UP. -/
def State.portUp (s : State) (p : Nat) : Bool := decide (s.rf (aCWY_PORT p) 25 24 = 2)

/-- The unit's own address, 0 while it has none. -/
def State.unit (s : State) : Nat := s.rf aCWY_STATUS 4 0

/-- The unit is the head unit (CWY_HEAD strap). -/
def State.isHead (s : State) : Bool := s.power.cwyHead

/-- The place of a class in the order of R447. -/
def cwyRank (c : Nat) : Nat := match c with | 4 => 0 | 3 => 1 | 0 => 2 | 5 => 3 | 2 => 4 | _ => 5

/-- Puts a frame into a port's waiting frames, in class order among the frames of its source and in commit order within a
class (R447). -/
def placeFrame (f : Frame) : List Frame → List Frame
  | [] => [f]
  | g :: t => if g.src = f.src ∧ cwyRank f.cls < cwyRank g.cls then f :: g :: t else g :: placeFrame f t

/-! ### Authentication (R449 to R451) -/

/-- The header of a frame with LSEQ 0. -/
def frameHeader (dst src cls sub len flags res : Nat) : Bytes :=
  [by8 dst, by8 src, by8 (cls + 16 * sub), 0, by8 len, by8 flags] ++ toLE 2 res

/-- The chain key of a KSEL. -/
def State.chainKey (s : State) (ksel : Nat) : Option Bytes := (s.key (14 + ksel % 2)).map (·.key)

/-- KSEL of the frames sent. -/
def State.ksel (s : State) : Nat := s.rf aCWY_KEYSEL 0 0

/-- The unit's start number, where frames can carry it. -/
def State.startOk (s : State) : Bool := decide (0 < s.cwy.startNo ∧ s.cwy.startNo < 2 ^ 24)

/-- ASEQ. -/
def aseq (start count : Nat) : Bytes := toLE 3 start ++ toLE 5 count

/-- The IV of an authenticated frame. -/
def frameIv (dst src cls sub : Nat) (q : Bytes) : Bytes := [by8 src, by8 dst, by8 (cls + 16 * sub), 0] ++ q

/-- The AAD of an authenticated frame; `nh` is the nonce that an ENUM_ACK appends. -/
def frameAad (dst src cls sub flags res : Nat) (body nh : Bytes) : Bytes :=
  frameHeader dst src cls sub (body.length + 24) flags res ++ (if cls = 2 then [] else body) ++ nh

/-- The payload of an authenticated frame. -/
def sealFrame (key : Bytes) (dst src cls sub flags start count : Nat) (body nh : Bytes) : Bytes :=
  let q := aseq start count
  let ct := gcmSeal key (frameIv dst src cls sub q) (frameAad dst src cls sub flags 0 body nh) (if cls = 2 then body else []) 16
  q ++ (if cls = 2 then [] else body) ++ ct

/-- The BODY of an authenticated frame whose tag verifies. -/
def openFrame (key : Bytes) (f : Frame) (nh : Bytes) : Option Bytes :=
  let n := f.payload.length - 24
  let q := f.payload.take 8
  let body := slice f.payload 8 n
  let tag := slice f.payload (8 + n) 16
  let aad := frameAad f.dst f.src f.cls f.sub f.flags.toNat f.res body nh
  if f.payload.length < 24 then none
  else if f.cls = 2 then gcmOpen key (frameIv f.dst f.src f.cls f.sub q) aad body tag
  else (gcmOpen key (frameIv f.dst f.src f.cls f.sub q) aad [] tag).map fun _ => body

/-- Seals a frame as it leaves its port, in an internal job on CH126: COUNT advances (R450, R451). None without a key, or where
the job ends with RNG_FAIL. -/
def State.seal (s : State) (f : Frame) (nh : Bytes) : Option Frame × State :=
  match s.chainKey s.ksel with
  | none => (none, s)
  | some k =>
    match s.innerJob engAes with
    | (c, s) =>
      if c = cOk then
        let n := s.cwy.count + 1
        (some { f with flags := by8 s.ksel, unsealed := none,
                       payload := sealFrame k f.dst f.src f.cls f.sub s.ksel s.cwy.startNo n f.payload nh },
         { s with cwy := { s.cwy with count := n } })
      else (none, s)

/-! ### Sending (R445 to R447) -/

/-- A frame leaves a port with the next LSEQ, and waits for its ACK. -/
def State.sendNow (s : State) (p : Nat) (f : Frame) : State :=
  let x := s.port p
  (s.setPort p { x with unacked := x.unacked ++ [{ f with lseq := x.txSeq }], txSeq := x.txSeq + 1 }).evt 0x13 0x15 1

/-- Sends waiting frames while fewer than 8 are unacknowledged; an authenticated one is sealed as it leaves, and not sent where
that cannot be done. -/
def State.pumpN : Nat → Nat → State → State
  | 0, _, s => s
  | k + 1, p, s =>
    match (s.port p).waiting with
    | [] => s
    | f :: t =>
      if 8 ≤ (s.port p).unacked.length then s
      else
        let s := s.setPort p { s.port p with waiting := t }
        match f.unsealed with
        | none => State.pumpN k p (s.sendNow p f)
        | some nh =>
          match s.seal f nh with
          | (some g, s) => State.pumpN k p (s.sendNow p g)
          | (none, s) => State.pumpN k p s

/-- Sends what a port may send. -/
def State.pump (s : State) (p : Nat) : State := State.pumpN (s.port p).waiting.length p s

/-- Places a frame on a port; false where the port is not UP. -/
def State.place (s : State) (p : Nat) (f : Frame) : Bool × State :=
  if s.portUp p then
    let x := s.port p
    (true, (s.setPort p { x with waiting := placeFrame f x.waiting }).pump p)
  else (false, s)

/-- Counts a frame without a route (R446). -/
def State.noRoute (s : State) : State := s.bump aCWY_AUTH 31 16 1

/-- Routes a frame of the unit's own by its DST; DST 0 goes out on the port named. -/
def State.cwySend (s : State) (link : Nat) (f : Frame) : State :=
  if f.dst = 31 then ((s.place 0 f).2.place 1 f).2
  else
    let p := if f.dst = 0 then link else if f.dst < s.unit then 0 else 1
    let r := s.place p f
    if r.1 then r.2 else s.noRoute

/-- Sends an authenticated frame. A unit without an address, a chain key or a start number sends none. Each copy of a broadcast
is a frame of its own (log entry 76). -/
def State.sendAuth (s : State) (dst cls sub : Nat) (body nh : Bytes) : State :=
  if (s.chainKey s.ksel).isNone ∨ s.unit = 0 ∨ s.startOk = false then s
  else s.cwySend 0 ⟨dst, s.unit, cls, sub, 0, by8 s.ksel, body, 0, some nh⟩

/-- A class 5 notice (R444). -/
def State.notice (s : State) (dst sub : Nat) : State := s.sendAuth dst 5 sub [] []

/-! ### Activity (R47) -/

/-- The standing time is zero and the stage is 0. -/
def State.restand (s : State) : State := ({ s with power := { s.power with lastActivity := s.now, stageDue := 0 } }).srf aPWR_STATUS 2 0 0

/-- The unit sees activity, and sends a notice to every unit in the chain. -/
def State.active (s : State) : State := (s.restand).onlyIf s.resumed fun s => s.notice 31 2

end Machine
end Sys2Proof
end

