-- ==== Sys2Proof/Machine/Lf.lean ====
section
/-!
DEFINITION. The LF block (R118 to R149): commands, exchanges, answers, tuning, calibration and droop.
-/
namespace Sys2Proof
namespace Machine

/-! ### Commands (R146) -/

/-- CMD. -/
def lfCmd (c : LfCmd) : Nat := fld c.w0 31 28
/-- AERIALS. -/
def lfAerials (c : LfCmd) : Nat := fld c.w0 27 16
/-- WAKE_ID. -/
def lfWakeId (c : LfCmd) : Nat := fld c.w0 15 0
/-- BURST, or MEASURE_CYCLES. -/
def lfBurst (c : LfCmd) : Nat := fld c.w1 31 16
/-- LISTEN. -/
def lfListen (c : LfCmd) : Nat := fld c.w1 15 8
/-- REPOLL. -/
def lfRepoll (c : LfCmd) : Bool := bit c.w1 1
/-- TRANSPONDER. -/
def lfTransponder (c : LfCmd) : Bool := bit c.w1 0

/-- The LF class is locked, or the token that a WAKE_ID names (R131, R267). -/
def State.lfLocked (s : State) (wake : Nat) : Bool :=
  s.isLocked (.cls 0) ||
    (match s.entryByWake (BitVec.ofNat 16 wake) with
     | some e => s.isLocked (.entry e.1)
     | none => false)

/-- A command of the class that the class's lock, or the lock of the token it names, stops (R131, R267). WAKE_ID names none in
a TUNE and a MEASURE. -/
def State.lfLockedCmd (s : State) (c : LfCmd) : Bool :=
  s.isLocked (.cls 0) || (decide (1 ≤ lfCmd c ∧ lfCmd c ≤ 3) && s.lfLocked (lfWakeId c))

/-- The code with which a command completes without an exchange, in the order of R17 (R13, R118, R130, R131, R134, R136,
R146, R267). -/
def lfRefusal (s : State) (ch : Nat) (c : LfCmd) : Byte :=
  let n := popCount 12 (lfAerials c)
  let rx := decide (s.feClass ch = 2)
  firstOf [
    (!rx && decide (lfCmd c = 2) && (s.rngFailed || s.maskStopped 0), cRngFail),
    ((decide (lfCmd c ≠ 5) && decide (n = 0)) || (rx && decide (lfCmd c = 5 ∧ lfBurst c = 0)), cLenZero),
    (if rx then decide (lfCmd c ≠ 5) else decide (lfCmd c < 1 ∨ 4 < lfCmd c), cAuthFail),
    (decide (lfCmd c ≠ 5) && decide (4 < n ∨ (lfTransponder c ∧ 1 < n)), cAuthFail),
    (decide (lfCmd c = 2) && (s.tokenSes ch).isNone, cNoSession),
    (s.lfLockedCmd c, cLocked)]

/-! ### The cost of an exchange (R125 to R129, R143, R493) -/

/-- Bits of the downlink frame of a command. -/
def lfDownBits (cmd : Nat) : Nat := if cmd = 2 then 136 else 40

/-- Bit times of the answer to a command. -/
def lfUpBits (s : State) (c : LfCmd) : Nat :=
  match lfCmd c with
  | 1 => 48
  | 2 => (match s.tokenSes c.chan with | some n => if (s.ses n).km5200 then 48 else 80 | none => 80)
  | _ => 4

/-- Carrier cycles of a whole exchange, its window and answer with it. -/
def lfCycles (s : State) (c : LfCmd) : Nat :=
  let burst := lfBurst c + (if lfBurst c = 0 ∨ lfTransponder c then 0 else 32)
  burst + 32 * lfDownBits (lfCmd c) + (if lfListen c = 0 then 0 else 32 * (lfListen c + lfUpBits s c))

/-- The divisor of the carrier in units of 2^-20 (R123). -/
def lfDivisor (w : Word) : Nat := fld w 29 20 * 2 ^ 20 + fld w 19 0

/-- The aerials that a command drives: those it names, without the faulty ones (R120). -/
def State.lfDriven (s : State) (c : LfCmd) : List Nat :=
  if lfCmd c = 5 then [] else (bitsOf 12 (lfAerials c)).filter fun i => !s.rb (aLF_DRV i) 31

/-- How many of them drive at once: a TUNE drives one after another (R143). -/
def lfTogether (c : LfCmd) (l : List Nat) : Nat := if lfCmd c = 4 then min 1 l.length else l.length

/-- The cost of a command in the units of the LF budget. -/
def lfCost (s : State) (c : LfCmd) : Int :=
  let xo (cycles : Nat) : Nat := cycles * lfDivisor (s.reg aLF_CARRIER) / 2 ^ 21
  let n := (s.lfDriven c).length
  match lfCmd c with
  | 5 => 0
  | 4 => (16 * n * xo 768 : Nat)
  | _ => (16 * n * xo (lfCycles s c) : Nat)

/-- The budget does not cover a command yet (R144). -/
def State.lfPoor (s : State) (c : LfCmd) : Bool :=
  decide (s.duty < 16) && !covers s.gov.lf lfCapacity (lfCost s c)

/-- A command, or a re-poll slot, waits for the budget. -/
def State.lfWaits (s : State) : Bool :=
  (s.lf.waiting.any fun c => decide (c.bad = cOk) && s.lfPoor c) ||
    (match s.lf.cur with | some x => x.due && s.lfPoor x.cmd | none => false)

/-! ### Results (R147) -/

/-- Packs two 16-bit values. -/
def pack16 (a b : Nat) : Word := w32 (a % 65536 * 65536 + b % 65536)

/-- The first three words of a result. -/
def lfHead (s : State) (c : LfCmd) (status : Byte) (coll answer slot : Bool) (tid : Word) : List Word :=
  [w32 (status.toNat * 2 ^ 24 + lfCmd c * 2 ^ 20 + b2n coll * 2 ^ 19 + b2n answer * 2 ^ 18 + b2n slot * 2 ^ 17 +
    lfWakeId c), tid, s.sysLo]

/-- A reading held at its limits, as a 16-bit field (R135). -/
def axis16 (i : Int) : Nat := unsgn 16 (clampI (-32767) 32767 i)

/-- The two words of a field reading. -/
def lfAxes (a : Axes) : List Word := [pack16 (axis16 a.x) (axis16 a.y), pack16 (axis16 a.z) (axis16 a.noise)]

/-- The TID that an AUTH result carries. -/
def State.lfTid (s : State) (c : LfCmd) : Word :=
  if lfCmd c = 2 then (match s.tokenSes c.chan with | some n => (s.ses n).tid | none => 0) else 0

/-- The words of a result without readings. -/
def lfPlain (s : State) (c : LfCmd) (status : Byte) (coll answer slot : Bool) (tid : Word) : List Word :=
  lfHead s c status coll answer slot tid ++ (if lfCmd c = 3 ∨ lfCmd c = 5 then [0, 0] else [])

/-- The words of an unpredictable result: as many, and free. -/
def State.lfFreeWords (s : State) (ws : List Word) : List Word × State :=
  let x := s.freeBytes (4 * ws.length)
  (toWords x.1, x.2)

/-- Commits a result. -/
def State.lfCommit (s : State) (c : LfCmd) (status : Byte) (ws : List Word) : State :=
  s.feResult 3 c.chan status (ofWords ws)

/-- An earlier completion of another token within 2 s of one (R138). -/
def AuthOk.near (a b : AuthOk) : Bool := decide (a.entry ≠ b.entry ∧ b.time ≤ a.time + secs 2)

/-- Peat logs an AUTH completion in Q3. The spec does not give the form: the layout is that of a decision, its KIND open
(log entry 41). -/
def State.logAuth (s : State) (a : AuthOk) : State :=
  let f := s.freeW
  f.2.feCommit 3 (wordsPacket 0 0xFF [w32 (fld f.1 23 16 * 2 ^ 16 + a.ses % 256 * 2 ^ 8), a.tid, 0, w32 a.time])

/-- Logs two tokens that complete AUTH within 2 s of each other, in completion order, each once (R138). -/
def State.logPair (s : State) (l : List AuthOk) : State :=
  match l.getLast? with
  | some b =>
    let mark := l.map fun a => { a with logged := a.logged || a.near b || (l.any fun x => x.near b) && decide (a = b) }
    (s.each ((l.zip mark).filter fun x => x.2.logged && !x.1.logged) fun s x => s.logAuth x.1).onlyIf true fun s =>
      { s with peat := { s.peat with authOk := mark } }
  | none => s

/-- Records the outcome of an AUTH and interrupts Peat (R132); Peat keeps an answered OK outcome for its decisions for the
60 s in which one can be used (R138, R263, R273). -/
def State.authLast (s : State) (ch ses : Nat) (gen : BitVec 8) (status : Byte) (answer : Bool) : State :=
  let s := s.setReg aLF_AUTHLAST0 (w32 (status.toNat * 2 ^ 24 + gen.toNat * 2 ^ 16 + ses % 256 * 2 ^ 8 + ch % 128))
  let s := (s.setReg aLF_AUTHLAST1 s.sysLo).raise .authLast
  let l := s.peat.authOk.filter fun a => decide (s.sys ≤ a.time + secs 60)
  let s := { s with peat := { s.peat with authOk := l, lastAuth := some (ses, gen.toNat, status, answer),
                                          authSeen := decide (status = cOk) && answer } }
  if status = cOk ∧ answer then
    let l := l ++ [⟨s.sys, ses, gen.toNat, (s.ses ses).entry, (s.ses ses).tid, false⟩]
    ({ s with peat := { s.peat with authOk := l } }).onlyIf (s.up .peat) fun s => s.logPair l
  else s

/-- Completes a command without an exchange. -/
def State.lfRefuse (s : State) (c : LfCmd) (status : Byte) : State :=
  let ws := lfPlain s c status false false false (s.lfTid c)
  let n := s.rf (aCHN_BIND c.chan) 15 8
  let s := s.onlyIf (decide (lfCmd c = 2)) fun s => s.authLast c.chan n (s.ses n).gen status false
  s.lfCommit c status ws

/-- Completes the refused commands at the head of each channel's order, so that results keep command order. -/
def lfSweep : List Nat → List LfCmd → State → List LfCmd × State
  | _, [], s => ([], s)
  | seen, c :: t, s =>
    if c.chan ∈ seen ∨ c.bad = cOk then
      let r := lfSweep (c.chan :: seen) t s
      (c :: r.1, r.2)
    else lfSweep seen t (s.lfRefuse c c.bad)

/-- Sweeps the waiting commands. GOV falls where none waits for the budget any more (R144), and an RC that no AUTH waits for
is discarded (R133). -/
def State.lfSettle (s : State) : State :=
  let r := lfSweep (match s.lf.cur with | some x => [x.cmd.chan] | none => []) s.lf.waiting s
  let s := { r.2 with lf := { r.2.lf with waiting := r.1 } }
  let s := s.onlyIf (!r.1.any fun c => decide (lfCmd c = 2)) fun s => s.forgetDraw .lf
  s.onlyIf (!s.lfWaits) fun s => s.srb aLF_FLAGS 2 false

/-- A channel of the other LF class runs on the same INQ (a host mistake). -/
def State.lfShared (s : State) (ch : Nat) : Bool :=
  (List.range 124).any fun c =>
    decide (s.chState c = 1 ∧ s.feClass c + s.feClass ch = 3 ∧ s.rf (aCHN_QUEUES c) 3 0 = s.rf (aCHN_QUEUES ch) 3 0)

/-- A command of a code is taken from its channel's INQ (R121, R146). Commands with an unknown code are taken by any
row; a packet that broke while it was read completes with FAULT_ALARM (R506). On an INQ that an LF and an LFRX channel share,
what the channel receives is unpredictable: its words are free (the host mistakes of the chapter). -/
def lfTake (code ch : Nat) (s : State) : State :=
  match s.feHead ch [1, 2] with
  | none => s
  | some p =>
    let c : LfCmd := ⟨ch, jobWord p 0, jobWord p 1, p.no, cOk⟩
    if lfCmd c = code ∨ lfCmd c = 0 ∨ 5 < lfCmd c then
      let f := s.lfFreeWords [c.w0, c.w1]
      let c := if s.lfShared ch then { c with w0 := wordAt f.1 0, w1 := wordAt f.1 1 } else c
      let s := if s.lfShared ch then f.2 else s
      let bad := if packetBroken p then cAlarm else lfRefusal s ch c
      let q := s.rf (aCHN_QUEUES ch) 3 0
      let s := (s.feTake ch).countBroken q p
      ({ s with lf := { s.lf with waiting := s.lf.waiting ++ [{ c with bad := bad }] } }).lfSettle
    else s

/-! ### Calibration and drive (R139 to R142) -/

/-- The 16-byte records of a section's bytes. -/
def records16 : Nat → Bytes → List Bytes
  | 0, _ => []
  | n + 1, b => if b.length < 16 then [] else b.take 16 :: records16 n (b.drop 16)

/-- The LF calibration records in use. -/
def State.lfRecords (s : State) : List Bytes :=
  match s.sect 12 0 with
  | some b => records16 b.length b
  | none => []

/-- The nearer of two records in TEMP, the lower TEMP where they are as near (R140). -/
def nearer (temp : Int) (a b : Bytes) : Bytes :=
  let ta := sgn 8 (byteAt a 2)
  let tb := sgn 8 (byteAt b 2)
  let da := (ta - temp).natAbs
  let db := (tb - temp).natAbs
  if db < da ∨ (db = da ∧ tb < ta) then b else a

/-- The nearest record of a list. -/
def nearest (temp : Int) : List Bytes → Option Bytes
  | [] => none
  | b :: t => some (t.foldl (nearer temp) b)

/-- The record chosen for an aerial with n driven (R140). -/
def State.lfRecord (s : State) (aerial n : Nat) (temp : Int) : Option Bytes :=
  let l := s.lfRecords.filter fun b => decide (byteAt b 0 = aerial)
  match nearest temp (l.filter fun b => decide (byteAt b 1 = n)) with
  | some b => some b
  | none => nearest temp (l.filter fun b => decide (byteAt b 1 = 1))

/-- V_eff in mV for a record's COUNT and n driven (R141). -/
def State.lfVeff (s : State) (count n vdrv : Nat) : Nat :=
  if count = 1 ∧ n = 3 then vdrv - 10 * s.rf aLF_DROOP 7 0
  else if count = 1 ∧ n = 4 then vdrv - 10 * s.rf aLF_DROOP 15 8
  else vdrv

/-- COUNT of the record chosen for an aerial; 1 where it has none. -/
def State.lfCountOf (s : State) (aerial n : Nat) (temp : Int) : Nat :=
  match s.lfRecord aerial n temp with
  | some b => byteAt b 1
  | none => 1

/-- Sets AMP, ILIM and TUNE of a driven aerial from its record. The spec does not say what an aerial without a record
drives with: free values (log entry 7). -/
def State.lfDrive (s : State) (n vdrv : Nat) (temp : Int) (aerial : Nat) : State :=
  let r := s.lfRecord aerial n temp
  let c := s.freeW
  let v := s.lfVeff (s.lfCountOf aerial n temp) n vdrv
  let amp := match r with
    | some b => min 63 ((byteAt b 6 * le16 b 4 + v - 1) / v)
    | none => fld c.1 5 0
  let ilim := match r with | some b => byteAt b 7 | none => fld c.1 15 8 % 61
  let tune := match r with | some b => byteAt b 3 | none => fld c.1 21 16
  let s := s.onlyIf r.isNone fun _ => c.2
  let s := (s.srf (aLF_DRV aerial) 21 16 ilim).srf (aLF_DRV aerial) 13 8 amp
  s.onlyIf (!testBit s.lf.tuned aerial) fun s => s.srf (aLF_DRV aerial) 5 0 tune

/-! ### Exchanges -/

/-- The next command: highest channel PRIO, and among equal PRIO the one committed first (R121). -/
def State.lfBest (s : State) : List LfCmd → Option LfCmd
  | [] => none
  | c :: t =>
    match s.lfBest t with
    | some d =>
      let pc := s.rf (aCHN_SCHED c.chan) 1 0
      let pd := s.rf (aCHN_SCHED d.chan) 1 0
      if pc < pd ∨ (pc = pd ∧ d.no < c.no) then some d else some c
    | none => some c

/-- The first waiting command of each channel. -/
def lfFirsts : List Nat → List LfCmd → List LfCmd
  | _, [] => []
  | seen, c :: t => if c.chan ∈ seen then lfFirsts seen t else c :: lfFirsts (c.chan :: seen) t

/-- The block is idle again: LF_STATUS and BUSY fall, and a carrier value written meanwhile takes effect (R122, R123). -/
def State.lfIdle (s : State) : State :=
  let s := (s.setReg aLF_STATUS 0).srb aLF_FLAGS 1 false
  match s.lf.carrierNext with
  | some v => ({ s with lf := { s.lf with cur := none, carrierNext := none } }).setReg aLF_CARRIER v
  | none => { s with lf := { s.lf with cur := none } }

/-- The mask of a list of aerials. -/
def maskOf (l : List Nat) : Nat := l.foldl (fun m i => putBit m i true) 0

/-- Marks the faulty drivers (R120). -/
def State.lfFaults (s : State) (l : List Nat) (opens shorts : Nat) : State :=
  s.each l fun s i =>
    s.onlyIf (testBit opens i || testBit shorts i) fun s =>
      ((s.srb (aLF_DRV i) 31 true).srb (aLF_DRV i) 29 (testBit opens i)).srb (aLF_DRV i) 30 (testBit shorts i)

/-- Droop at cycle 64 of an exchange with three or four aerials (R142), in units of 10 mV: rounded down, held at 255, and 0
where the sample lies above the idle value, a DESIGN CHOICE (log entry 57). -/
def State.lfDroop (s : State) (n : Nat) (obs : LfConditions) : State :=
  let d := min 255 ((obs.vdrvIdle - obs.vdrvAt64) / 10)
  let s := s.onlyIf (decide (n = 3 ∨ n = 4)) fun s => s.internalSlots 1
  if n = 3 then s.srf aLF_DROOP 7 0 d else if n = 4 then s.srf aLF_DROOP 15 8 d else s

/-- The CRC-8 of answers and downlinks (R126). -/
def lfCrc (b : Bytes) : Nat := crc8 0x1D 0xFF b

/-- The downlink frame of a command and its payload (R126). -/
def lfFrame (c : LfCmd) (payload : Bytes) : Bytes :=
  let body := toBE 2 (lfWakeId c) ++ by8 (lfCmd c) :: payload
  0xFE :: body ++ [by8 (lfCrc body)]

/-- The challenge of an AUTH: RC, which is conditioned output, with DA, and the expected TA; each is a job of the AES engine's
(R130, R296). -/
def State.lfChallenge (s : State) (n : Nat) (rc : Bytes) : (Bytes × Bytes) × State :=
  let x := s.ses n
  let body := toBE 4 x.tid.toNat ++ rc
  let da := (cmac (x.slot.take 16) (0x44 :: body)).take 4
  let ta := (cmac (x.slot.take 16) (0x54 :: body)).take (if x.km5200 then 4 else 8)
  ((rc ++ da, ta), ((s.countJob engAes false).countJob engAes false).useSes n)

/-- Drives the aerials of an exchange that the budget covers: its records, its cost, and what the drivers and VDRV show. An
exchange without its supply, or with a faulty driver, fails (R41, R120, R141); a sample for the droop is taken of one that
lasts to cycle 64 (R142). -/
def State.lfBurst (s : State) (c : LfCmd) (l : List Nat) (obs : LfConditions) (fail : State → State) (run : State → State) :
    State :=
  let n := lfTogether c l
  let veff := (l.map fun i => s.lfVeff (s.lfCountOf i n obs.temp) n obs.vdrvIdle).foldl min obs.vdrvIdle
  if lfCmd c ≠ 5 ∧ (s.rb aPWR_STATUS 4 ∨ veff < 5500) then fail s
  else
    let s := s.spendLf (lfCost s c)
    let s := s.each l fun s i => s.lfDrive n obs.vdrvIdle obs.temp i
    if (l.any fun i => testBit obs.opens i || testBit obs.shorts i) then fail (s.lfFaults l obs.opens obs.shorts)
    else run (s.lfDroop n obs)

/-- The block drives a list of aerials. -/
def State.lfDriving (s : State) (l : List Nat) : State := (s.setReg aLF_STATUS (w32 (maskOf l))).srb aLF_FLAGS 1 true

/-- Starts the exchange of a command that was chosen; of an AUTH with its RC. A command whose aerials are all faulty drives
none, and its exchange runs to its end without an answer that it could cause (log entry 67). -/
def State.lfRun (s : State) (c : LfCmd) (rc : Bytes) (obs : LfConditions) : State :=
  let l := s.lfDriven c
  ({ s with lf := { s.lf with waiting := s.lf.waiting.erase c } }).lfBurst c l obs (fun s => (s.lfRefuse c cAlarm).lfSettle)
    fun s =>
      let ses := s.rf (aCHN_BIND c.chan) 15 8
      let r := if lfCmd c = 2 then s.lfChallenge ses rc else (([], []), s)
      let s := r.2.lfDriving (l.take (if lfCmd c = 4 then 1 else 4))
      { s with lf := { s.lf with cur := some ⟨c, l, r.1.2, ses, (s.ses ses).gen, [], false, false, (s.ses ses).tid, false⟩,
                                 sent := if lfCmd c ≤ 3 then lfFrame c r.1.1 else s.lf.sent } }

/-- Completes a waiting command without an exchange. -/
def State.lfDismiss (s : State) (c : LfCmd) (status : Byte) : State :=
  (({ s with lf := { s.lf with waiting := s.lf.waiting.erase c } }).lfRefuse c status).lfSettle

/-- A waiting command starts its exchange: where the block is free, the budget covers it, and an AUTH has its RC, for which it
waits. GOV is set while a command waits for the budget (R130, R131, R144, R327). -/
def lfCommandStart (s : State) (obs : LfConditions) : State :=
  match s.lfBest (lfFirsts [] s.lf.waiting) with
  | none => s
  | some c =>
    if lfCmd c = 2 ∧ (s.rngFailed ∨ s.maskStopped 0) then s.lfDismiss c cRngFail
    else if lfCmd c = 2 ∧ s.tokenSes c.chan = none then s.lfDismiss c cNoSession
    else if s.lfLockedCmd c then s.lfDismiss c cLocked
    else
      let s := s.refill
      if s.lfPoor c then s.srb aLF_FLAGS 2 true
      else
        let s := s.onlyIf (!s.lfWaits) fun s => s.srb aLF_FLAGS 2 false
        if lfCmd c = 2 then
          (s.draw .lf 8).next id (fun e s => s.lfDismiss c e) fun rc s => s.lfRun c rc obs
        else s.lfRun c [] obs

/-! ### Answers and ends -/

/-- An answer whose CRC is correct. -/
def lfCrcOk (b : Bytes) : Bool := decide (lfCrc b.dropLast = (b.getLastD 0).toNat)

/-- The next re-poll slot of an exchange, or the end of the exchange (R137). A carrier value written meanwhile waits for the end
of the last slot (log entry 68). -/
def State.lfNext (s : State) (x : LfExch) : State :=
  match x.repoll with
  | [] => s.lfIdle.lfSettle
  | w :: t =>
    let c := { x.cmd with w0 := w32 (2 ^ 28 + lfAerials x.cmd * 2 ^ 16 + w.toNat) }
    let s := s.setReg aLF_STATUS 0
    { s with lf := { s.lf with cur := some { x with cmd := c, repoll := t, slot := true, due := true } } }

/-- The exchange's command completes: an AUTH of a session closed meanwhile with NO_SESSION (R149). The words of an
unpredictable result are free. -/
def State.lfEnd (s : State) (x : LfExch) (status : Byte) (coll answer : Bool) (tid : Word) (axes : Option Axes) : State :=
  let gone := decide (lfCmd x.cmd = 2) && !(decide ((s.ses x.ses).st = .ready) && decide ((s.ses x.ses).gen = x.gen))
  let status := if gone ∧ status ≠ cAlarm then cNoSession else status
  let ws := match axes with
    | some a => lfHead s x.cmd status coll answer x.slot tid ++ lfAxes a
    | none => lfPlain s x.cmd status coll answer x.slot tid
  let s := s.onlyIf (decide (lfCmd x.cmd = 2)) fun s => s.authLast x.cmd.chan x.ses x.gen status answer
  let f := s.lfFreeWords ws
  (if x.mixed then f.2.lfCommit x.cmd status f.1 else s.lfCommit x.cmd status ws).lfNext x

/-- A re-poll slot begins, as an exchange of its own: its token may be locked, and its drive may fail, which ends the
re-polls (R120, R137, R144, R267). -/
def lfSlotStart (s : State) (x : LfExch) (obs : LfConditions) : State :=
  let c := x.cmd
  if s.lfLockedCmd c then s.lfEnd x cLocked false false 0 none
  else
    let s := s.refill
    if s.lfPoor c then s.srb aLF_FLAGS 2 true
    else
      let l := s.lfDriven c
      (s.onlyIf (!s.lfWaits) fun s => s.srb aLF_FLAGS 2 false).lfBurst c l obs
        (fun s => s.lfEnd { x with repoll := [] } cAlarm false false 0 none) fun s =>
        let s := s.lfDriving l
        { s with lf := { s.lf with cur := some { x with aerials := l, due := false }, sent := lfFrame c [] } }

/-- The block starts the exchange of a waiting command, or the re-poll slot that is due (R121, R137, R144). -/
def lfExchangeStart (s : State) (obs : LfConditions) : State :=
  if s.resumed = false then s
  else
    match s.lf.cur with
    | some x => if x.due then lfSlotStart s x obs else s
    | none => lfCommandStart s obs

/-- The enrolled wake identifiers of LF_REPOLLn, up to the first zero. -/
def State.lfRepollList (s : State) : List (BitVec 16) :=
  (((List.range 16).flatMap fun n => [s.rf (aLF_REPOLL n) 15 0, s.rf (aLF_REPOLL n) 31 16]).takeWhile (· ≠ 0)).map
    (BitVec.ofNat 16)

/-- The outcome of an AUTH answer against the token that its WAKE_ID names, or the LF class where it names none (R131, R138,
R263, R266). -/
def State.lfAuthResult (s : State) (x : LfExch) (ok : Bool) : State :=
  match s.entryByWake (BitVec.ofNat 16 (lfWakeId x.cmd)) with
  | some e => if ok then (s.clearFailures (.entry e.1)).active else s.countFailure (.entry e.1)
  | none => if ok then s.active else s.countFailure (.cls 0)

/-- The session of an AUTH is still the one it started under. -/
def State.lfAlive (s : State) (x : LfExch) : Bool :=
  decide ((s.ses x.ses).st = .ready) && decide ((s.ses x.ses).gen = x.gen)

/-- The token of an AUTH, as its session had it at the start. -/
def lfToken (x : LfExch) : Word := if lfCmd x.cmd = 2 then x.tid else 0

/-- An answer is judged (R127, R130, R131, R135, R137). -/
def lfAnswered (s : State) (x : LfExch) (reply : LfReply) : State :=
  match reply with
  | .collision =>
    let again := decide (lfWakeId x.cmd = 0xFFFF) && lfRepoll x.cmd && !x.slot
    s.lfEnd { x with repoll := if again then s.lfRepollList else x.repoll } cOk true false (lfToken x) none
  | .tone a => if lfCmd x.cmd = 3 then s.lfEnd x cOk false true 0 (some a) else s.lfEnd x cOk false false (lfToken x) none
  | .frame b =>
    if lfCmd x.cmd = 1 then
      (if b.length = 5 ∧ lfCrcOk b then s.lfEnd x cOk false true (w32 (ofBE (b.take 4))) none
       else s.lfEnd x cAuthFail false false 0 none)
    else if lfCmd x.cmd = 2 then
      if lfCrcOk b = false then s.lfEnd x cAuthFail false false (lfToken x) none
      else
        let ok := decide (b.dropLast = x.ta)
        let s := s.onlyIf (s.lfAlive x) fun s => s.lfAuthResult x ok
        s.lfEnd x (if ok then cOk else cAuthFail) false true (lfToken x) none
    else s.lfEnd x cOk false false 0 none

/-- The exchange in progress, where it listens. -/
def State.lfListening (s : State) : Option LfExch :=
  match s.lf.cur with
  | some x => if x.due = false ∧ lfCmd x.cmd ≤ 3 ∧ lfListen x.cmd ≠ 0 then some x else none
  | none => none

/-- The code and the peak that a tuning search ends with: of the trial codes it keeps the one of the higher current. The
earlier code stays where two are as high, and the first trial is compared with a current of 0: a DESIGN CHOICE (log entry
57). -/
def tuneSearch : Nat → Nat → Nat → List Nat → Nat × Nat
  | _, code, best, [] => (code, best)
  | 0, code, best, p :: _ => if best < p then (code + 1, p) else (code, best)
  | k + 1, code, best, p :: t =>
    if best < p then tuneSearch k (code + 2 ^ (k + 1)) p t else tuneSearch k code best t

/-- The words of a TUNE result after its head, and the state with the codes written (R143, R148). -/
def lfTuned : List Nat → List (List Nat) → State → List Word × State
  | [], _, s => ([], s)
  | a :: t, peaks, s =>
    let r := tuneSearch 5 0 0 ((peaks.headD []).take 6)
    let s := s.srf (aLF_DRV a) 5 0 r.1
    let s := { s with lf := { s.lf with tuned := putBit s.lf.tuned a true } }
    let rest := lfTuned t (peaks.drop 1) s
    (w32 (a * 2 ^ 24 + r.1 * 2 ^ 16 + r.2 % 65536) :: rest.1, rest.2)

/-- An exchange without a window ends (R129, R136, R143). -/
def lfExchangeEnd (s : State) (tones : Axes) (peaks : List (List Nat)) : State :=
  match s.lf.cur with
  | none => s
  | some x =>
    if x.due then s
    else if lfCmd x.cmd = 5 then s.lfEnd x cOk false false 0 (some tones)
    else if lfCmd x.cmd = 4 then
      let r := lfTuned x.aerials peaks s
      let ws := lfHead r.2 x.cmd cOk false false false 0 ++ r.1
      let f := r.2.lfFreeWords ws
      (if x.mixed then f.2.lfCommit x.cmd cOk f.1 else r.2.lfCommit x.cmd cOk ws).lfIdle.lfSettle
    else if lfListen x.cmd = 0 then s.lfEnd x cOk false false (lfToken x) none
    else s

/-- The exchange in progress ends with a failure, its re-polls with it (R120, R149, R466). -/
def State.lfStop (s : State) (status : Byte) : State :=
  match s.lf.cur with
  | some x => s.lfEnd { x with repoll := [] } status false false (lfToken x) none
  | none => s

/-- The waiting commands of a channel complete with a code (R149, R100). -/
def State.lfDrop (s : State) (ch : Nat) (status : Byte) : State :=
  ({ s with lf := { s.lf with
      waiting := s.lf.waiting.map fun (c : LfCmd) => if c.chan = ch ∧ c.bad = cOk then { c with bad := status } else c } }).lfSettle

/-- A write of LF_CARRIER (R123). -/
def lfCarrier (v : Word) (s : State) : State :=
  let v := v &&& 0x3FFFFFFF
  let d := lfDivisor v * 10
  if 3616 * 2 ^ 20 ≤ d ∧ d ≤ 5424 * 2 ^ 20 then
    (if s.lf.cur.isSome then { s with lf := { s.lf with carrierNext := some v } } else s.setReg aLF_CARRIER v)
  else s.srb aLF_FLAGS 3 true

/-- LF_CARRIER_WRITE (R123). -/
def execLfCarrierWrite (m : Master) (v : Word) (s : State) : Result := done (s.owned m aLF_CARRIER (lfCarrier v))

end Machine
end Sys2Proof
end

