-- ==== Sys2Proof/Machine/Nfc.lean ====
section
/-!
DEFINITION. The NFC reader role (R150 to R163): commands, the external-field check, activation and anticollision,
exchanges and detuning pings.
-/
namespace Sys2Proof
namespace Machine

/-! ### Commands and results (R155, R156) -/

/-- CMD. -/
def nfcCode (c : NfcCmd) : Nat := fld c.w0 31 28
/-- RATE. -/
def nfcRate (c : NfcCmd) : Nat := fld c.w0 27 24
/-- LEN. -/
def nfcLen (c : NfcCmd) : Nat := fld c.w0 15 0

/-- What a result says beside its status and data. -/
structure NfcInfo where
  ext : Bool
  coll : Bool
  noresp : Bool
  pos : Nat
  sak : Nat
  uidLen : Nat
  deriving DecidableEq, Repr

/-- Nothing to say. -/
def nfcPlain : NfcInfo := ⟨false, false, false, 0, 0, 0⟩

/-- No card answered. -/
def nfcSilent : NfcInfo := { nfcPlain with noresp := true }

/-- RATE_USED: the rate of the active card, 0 without one. -/
def State.nfcRateUsed (s : State) : Nat := match s.nfc.card with | some c => c.rate | none => 0

/-- The bytes of a result. -/
def nfcBytes (s : State) (c : NfcCmd) (status : Byte) (x : NfcInfo) (data : Bytes) : Bytes :=
  ofWords [w32 (status.toNat * 2 ^ 24 + nfcCode c * 2 ^ 20 + b2n x.ext * 2 ^ 19 + b2n x.coll * 2 ^ 18 +
      b2n x.noresp * 2 ^ 17 + data.length % 65536), s.sysLo,
    w32 (s.nfcRateUsed * 2 ^ 24 + x.pos * 2 ^ 16 + x.sak % 256 * 2 ^ 8 + x.uidLen)] ++ data

/-- A register that the running command uses was written (a host mistake). -/
def State.nfcSpoil (s : State) : State :=
  { s with nfc := { s.nfc with cur := s.nfc.cur.map fun c => { c with mixed := true } } }

/-- Completes a command: the reader is free again. The bytes of an unpredictable result are free. -/
def State.nfcEnd (s : State) (c : NfcCmd) (status : Byte) (x : NfcInfo) (data : Bytes) : State :=
  let t := { s with nfc := { s.nfc with cur := none } }
  let b := nfcBytes s c status x data
  if s.nfc.cur.any fun c => c.mixed then let f := t.freeBytes b.length; f.2.feResult 4 c.chan status f.1
  else t.feResult 4 c.chan status b

/-- The card, if any, is no longer active. -/
def State.nfcDrop (s : State) : State := { s with nfc := { s.nfc with card := none } }

/-- The code with which a command completes without being run, in the order of R17 (R153 to R157). SLOTS of 5 to 7 give
AUTH_FAIL (log entry 69). -/
def nfcRefusal (s : State) (c : NfcCmd) : Byte :=
  let r := nfcRate c
  firstOf [(decide ((nfcCode c = 5 ∨ nfcCode c = 6) ∧ nfcLen c = 0), cLenZero), (s.isLocked (.cls 1), cLocked),
    (decide (nfcCode c < 1 ∨ 8 < nfcCode c), cAuthFail),
    (decide (r = 3 ∨ 5 < r ∨ (nfcCode c = 3 ∧ 2 < r) ∨ (nfcCode c = 4 ∧ r < 4)), cAuthFail),
    (decide ((nfcCode c = 5 ∨ nfcCode c = 6) ∧ 4096 < nfcLen c), cAuthFail),
    (decide (nfcCode c = 4 ∧ 4 < fld c.w1 7 5), cAuthFail),
    (decide (nfcCode c = 5) && s.nfc.card.isNone, cNoSession)]

/-! ### Frames (R154, R155; ISO/IEC 14443, log entry 59) -/

/-- CRC_A. -/
def crcA (b : Bytes) : Bytes := toLE 2 (b.foldl (crcByte 0x8408) 0x6363)

/-- CRC_B. -/
def crcB (b : Bytes) : Bytes := toLE 2 (0xFFFF - b.foldl (crcByte 0x8408) 0xFFFF)

/-- A frame with its CRC. -/
def framed (typeB : Bool) (b : Bytes) : Bytes := b ++ (if typeB then crcB b else crcA b)

/-- FSC of an FSCI. -/
def fscOf (n : Nat) : Nat := ([16, 24, 32, 40, 48, 64, 96, 128] : List Nat).getD n 256

/-- The I-blocks of a payload, chained where it does not fit one: block numbers alternate. -/
def isoBlocks (typeB : Bool) (room : Nat) : Nat → Bool → Bytes → List Bytes
  | 0, _, _ => []
  | n + 1, blk, b =>
    if b.length ≤ room then [framed typeB (by8 (2 + b2n blk) :: b)]
    else framed typeB (by8 (0x12 + b2n blk) :: b.take room) :: isoBlocks typeB room n (!blk) (b.drop room)

/-- The I-blocks of a payload for a card. -/
def cardBlocks (c : Card) (b : Bytes) : List Bytes := isoBlocks c.typeB (c.fsc - 3) (b.length + 1) c.blk b

/-- REQB or WUPB with a slot exponent, and the slot markers of its slots from the second on (R160). -/
def roundFrames (c : NfcCmd) (e : Nat) : List Bytes :=
  framed true [0x05, by8 (fld c.w1 15 8), by8 ((if bit c.w1 3 then 0 else 8) + e)] ::
    (List.range (2 ^ e - 1)).map fun k => framed true [by8 (16 * (k + 1) + 5)]

/-- The frames that a command opens with; of a chained EXCHANGE its first block. -/
def State.nfcFrames (s : State) (c : NfcCmd) : List Bytes :=
  match nfcCode c with
  | 3 => [[if bit c.w1 3 then 0x26 else 0x52]]
  | 4 => roundFrames c (fld c.w1 7 5)
  | 5 => (match s.nfc.card with | some k => (cardBlocks k c.payload).take 1 | none => [])
  | 6 => [if bit c.w1 1 then framed (decide (4 ≤ nfcRate c)) c.payload else c.payload]
  | 7 => (match s.nfc.card with | some k => [framed k.typeB [0xC2], framed false [0x50, 0x00]] | none => [])
  | _ => []

/-- Sends one more frame. -/
def State.nfcSend (s : State) (b : Bytes) : State := { s with nfc := { s.nfc with sent := s.nfc.sent ++ [b] } }

/-- The active card is deselected: it is in HALT and no longer active (R155, R157, R159). -/
def State.nfcHalt (s : State) : State :=
  match s.nfc.card with
  | some k => { s with nfc := { s.nfc with card := none, halted := k.uid :: s.nfc.halted } }
  | none => s

/-- A bad answer: the card, if any, is deselected (R157). -/
def State.nfcBad (s : State) (c : NfcCmd) : State :=
  let s := match s.nfc.card with
    | some k => (s.nfcSend (framed k.typeB [0xC2])).nfcSend (framed false [0x50, 0x00])
    | none => s
  s.nfcHalt.nfcEnd c cAuthFail nfcPlain []

/-- The command switches the field on where it is off (R155, R161). -/
def nfcNeedsField (c : NfcCmd) : Bool := decide (nfcCode c = 1 ∨ nfcCode c = 3 ∨ nfcCode c = 4 ∨ nfcCode c = 6 ∨ nfcCode c = 8)

/-! ### Detuning pings (R161, R162) -/

/-- A ping of amplitude and phase is a detection against the baseline. -/
def pingDetects (s : State) (p : Ping) : Bool :=
  let base := s.reg aNFC_LPCDBASE
  let a : Int := fld base 15 0
  let ph := sgn 16 (fld base 31 16)
  s.nfc.baseline &&
    decide (s.rf aNFC_LPCD 15 8 * a < 200 * ((p.amp : Int) - a).natAbs ∨
      s.rf aNFC_LPCD 23 16 * 25 < (p.phase - ph).natAbs)

/-- A reading as a register holds it. -/
def pingWord (amp phase : Int) : Word := w32 (unsgn 16 phase * 65536 + unsgn 16 amp)

/-- A ping is judged: it is recorded, and sets or moves the baseline where it is no detection (R162). The answer says
whether it is one. -/
def State.ping (s : State) (p : Ping) : Bool × State :=
  let base := s.reg aNFC_LPCDBASE
  let a : Int := fld base 15 0
  let ph := sgn 16 (fld base 31 16)
  let k := max 1 (s.rf aNFC_LPCD 27 24)
  let det := pingDetects s p
  let s := s.setReg aNFC_LPCDLAST (pingWord p.amp p.phase)
  if det then (true, s)
  else if s.nfc.baseline then
    (false, s.setReg aNFC_LPCDBASE (pingWord (a + ((p.amp : Int) - a) / 2 ^ k) (ph + (p.phase - ph) / 2 ^ k)))
  else (false, ({ s with nfc := { s.nfc with baseline := true } }).setReg aNFC_LPCDBASE (pingWord p.amp p.phase))

/-! ### Taking a command -/

/-- An external field keeps the field off (R151). -/
def State.nfcExt (s : State) (c : NfcCmd) : State :=
  (s.srb aNFC_FLAGS 1 true).nfcEnd c cOk { nfcPlain with ext := true } []

/-- The field goes off and the pair enters listen mode (R150). -/
def State.nfcOff (s : State) (guard : Bool) : State :=
  { s with nfc := { s.nfc with fieldOn := false, card := none, guard := guard, halted := [] } }

/-- The I-blocks that a chained EXCHANGE sends later. -/
def State.nfcLeft (s : State) (c : NfcCmd) : List Bytes :=
  match s.nfc.card with
  | some k => if nfcCode c = 5 then (cardBlocks k c.payload).drop 1 else []
  | none => []

/-- A command that passed its checks acts; `det` is the ping that a DETECT reads. DESELECT without an active card sends nothing
and completes OK with NORESP (log entry 70). -/
def State.nfcRun (s : State) (c : NfcCmd) (ext : Bool) (det : Ping) : State :=
  let off := !s.nfc.fieldOn
  if nfcCode c = 8 then
    (if ext then s.nfcExt c
     else if s.rf aNFC_LPCD 7 0 = 0 then s.nfcEnd c cOk nfcPlain []
     else
       let s := (s.ping det).2.nfcOff s.nfc.guard
       s.nfcEnd c cOk nfcPlain (ofWords [pingWord det.amp det.phase]))
  else if nfcNeedsField c ∧ off ∧ ext then s.nfcExt c
  else if nfcCode c = 2 then
    (s.nfcOff true).nfcEnd c cOk nfcPlain []
  else if nfcCode c = 1 then
    if off then { s with nfc := { s.nfc with fieldOn := true, cur := some c } } else s.nfcEnd c cOk nfcPlain []
  else if nfcCode c = 7 ∧ s.nfc.card.isNone then s.nfcEnd c cOk nfcSilent []
  else
    { s with nfc := { s.nfc with
        cur := some c, fieldOn := s.nfc.fieldOn || nfcNeedsField c, sent := s.nfcFrames c, naks := 0, left := s.nfcLeft c
        answer := [] } }

/-- A command of a code is taken from its channel's INQ, one at a time (R154, R155). Commands with an unknown code are
taken by any row; one that must wait for GUARD stays in the queue; a packet that broke while it was read completes with
FAULT_ALARM (R506). -/
def nfcTake (code ch : Nat) (ext : Bool) (det : Ping) (s : State) : State :=
  if s.nfc.cur.isSome then s
  else
    match s.feHead ch [3] with
    | none => s
    | some p =>
      let w := jobWord p 0
      let c : NfcCmd := ⟨ch, w, jobWord p 1, slice ((p.items.drop 2).flatMap itemBytes) 0 (fld w 15 0), false⟩
      if nfcCode c = code ∨ nfcCode c = 0 ∨ 8 < nfcCode c then
        let bad := if packetBroken p then cAlarm else nfcRefusal s c
        if bad = cOk ∧ s.nfc.guard ∧ nfcNeedsField c ∧ s.nfc.fieldOn = false then s
        else
          let s := (s.feTake ch).countBroken (s.rf (aCHN_QUEUES ch) 3 0) p
          if bad = cOk then s.nfcRun c (ext || s.tag.field) det else s.nfcEnd c bad nfcPlain []
      else s

/-! ### Type A activation (R158, R159) -/

/-- The bytes that a card sends at cascade level n: UID part or cascade tag, and BCC; none beyond its last level. -/
def uidLevel (uid : Bytes) (n : Nat) : Bytes :=
  let last := (uid.length - 4) / 3
  if last < n then []
  else
    let b := if n < last then 0x88 :: slice uid (3 * n) 3 else slice uid (3 * n) 4
    b ++ [b.foldl (· ^^^ ·) 0]

/-- Bit i of a byte string, least significant bit of the first byte first. -/
def strBit (b : Bytes) (i : Nat) : Bool := testBit (byteAt b (i / 8)) (i % 8)

/-- Anticollision at one level: the cards left, and the collision bits at which 1 was taken, in order. -/
def antiLevel (n : Nat) (cards : List CardA) : List CardA × List Nat :=
  (List.range 40).foldl (fun a i =>
    let ones := a.1.filter fun c => strBit (uidLevel c.uid n) i
    if ones ≠ [] ∧ ones.length < a.1.length then (ones, a.2 ++ [i + 1]) else a) (cards, [])

/-- Anticollision over the cascade levels: the cards left and the first collision bit of the last level that had one. -/
def antiAll (cards : List CardA) : List CardA × Nat :=
  [0, 1, 2].foldl (fun a n => let r := antiLevel n a.1; (r.1, match r.2 with | [] => a.2 | i :: _ => i)) (cards, 0)

/-- The first i bits of a byte string, as an anticollision frame carries them. -/
def bitsOfStr (b : Bytes) (i : Nat) : Bytes :=
  b.take (i / 8) ++ (if i % 8 = 0 then [] else [by8 (byteAt b (i / 8) % 2 ^ (i % 8))])

/-- An anticollision frame: SEL, NVB and the bits known so far. -/
def antiFrame (n i : Nat) (b : Bytes) : Bytes := [by8 (0x93 + 2 * n), by8 (16 * (2 + i / 8) + i % 8)] ++ bitsOfStr b i

/-- The frames of one cascade level: anticollision, one more for each collision, and SELECT (R158). -/
def levelFrames (n : Nat) (bits : List Nat) (uid : Bytes) : List Bytes :=
  let b := uidLevel uid n
  (0 :: bits).map (fun i => antiFrame n i b) ++ [framed false ([by8 (0x93 + 2 * n), 0x70] ++ b)]

/-- The anticollision and SELECT frames by which a card is selected among cards, from cascade level n on (R158). -/
def antiFrames (uid : Bytes) : Nat → Nat → List CardA → List Bytes
  | 0, _, _ => []
  | k + 1, n, cards =>
    let r := antiLevel n cards
    if uidLevel uid n = [] then [] else levelFrames n r.2 uid ++ antiFrames uid k (n + 1) r.1

/-- The rate that PPS reaches: TA1 of the ATS allows it in both directions. -/
def rateA (ats : Bytes) (want : Nat) : Nat :=
  let ta := if testBit (byteAt ats 1) 4 then byteAt ats 2 else 0
  if 0 < want ∧ testBit ta (want - 1) ∧ testBit ta (want + 3) then want else 0

/-- A Type A activation completes with the cards that answered: none in HALT answers REQA (R159). The card selected gets
anticollision and SELECT, RATS, and PPS where its rate is to change (R154, R158). -/
def State.activateA (s : State) (c : NfcCmd) (cards : List CardA) : State :=
  let cards := if bit c.w1 3 then cards.filter fun x => decide (x.uid ∉ s.nfc.halted) else cards
  match antiAll cards with
  | ([], _) => s.nfcDrop.nfcEnd c cOk nfcSilent []
  | (x :: rest, pos) =>
    let rats := x.sak.getLsbD 5 && !bit c.w1 2
    let rate := rateA x.ats (nfcRate c)
    let pps := if rate = 0 then [] else [framed false [0xD0, 0x11, by8 (5 * rate)]]
    let s := { s with nfc := { s.nfc with
      card := if rats then some ⟨false, x.uid, rate, fscOf (byteAt x.ats 1 % 16), false⟩ else none
      halted := s.nfc.halted.filter (· ≠ x.uid)
      sent := s.nfc.sent ++ antiFrames x.uid 3 0 cards ++ (if rats then framed false [0xE0, 0x80] :: pps else []) } }
    s.nfcEnd c cOk { nfcPlain with coll := decide (pos ≠ 0 ∨ rest ≠ []), pos := pos, sak := x.sak.toNat, uidLen := x.uid.length }
      (x.uid ++ toLE 2 x.atqa.toNat ++ (if rats then x.ats else []))

/-! ### Type B activation (R160) -/

/-- A slot is a collision. -/
def slotGarbled : SlotB → Bool
  | .garbled => true
  | _ => false

/-- The clean slots of a round, in slot order. -/
def slotClean : SlotB → Option (Bytes × Bytes × Byte)
  | .clean p a b => some (p, a, b)
  | _ => none

/-- The rate that ATTRIB reaches: the ATQB's bit rate byte allows 212 kbit/s in both directions. -/
def rateB (atqb : Bytes) (want : Nat) : Nat :=
  if want = 5 ∧ testBit (byteAt atqb 9) 0 ∧ testBit (byteAt atqb 9) 4 then 5 else 4

/-- ATTRIB to a card: FSDI 8, no CID, and the rate. -/
def attrib (pupi : Bytes) (rate : Nat) : Bytes := framed true (0x1D :: pupi ++ [0, if rate = 5 then 0x58 else 0x08, 1, 0])

/-- A round of a Type B activation without a clean slot and without a repetition: at exponent 4 it fails, and before that no
card was there (R160). -/
def State.roundLost (s : State) (c : NfcCmd) (e : Nat) (coll : Bool) : State :=
  if 4 ≤ e then s.nfcDrop.nfcEnd c cAuthFail { nfcPlain with coll := coll } []
  else s.nfcDrop.nfcEnd c cOk { nfcSilent with coll := coll } []

/-- The rounds of a Type B activation from a slot exponent on, whose REQB or WUPB has been sent. -/
def State.activateB (s : State) (c : NfcCmd) : Nat → Bool → List (List SlotB) → State
  | e, coll, [] => s.roundLost c e coll
  | e, coll, r :: t =>
    let slots := r.take (2 ^ e)
    let clean := slots.filterMap slotClean
    let coll' := coll || slots.any slotGarbled || decide (1 < clean.length)
    match clean with
    | (pupi, atqb, param) :: _ =>
      let rate := rateB atqb (nfcRate c)
      ({ s with nfc := { s.nfc with
          card := some ⟨true, pupi, rate, fscOf (byteAt atqb 10 / 16), false⟩
          sent := s.nfc.sent ++ [attrib pupi rate] } }).nfcEnd c cOk
        { nfcPlain with coll := coll', sak := param.toNat, uidLen := 4 } (pupi ++ atqb)
    | [] =>
      if e < 4 ∧ slots.any slotGarbled then
        ({ s with nfc := { s.nfc with sent := s.nfc.sent ++ roundFrames c (e + 1) } }).activateB c (e + 1) true t
      else s.roundLost c e coll'

/-! ### Answers (R157) -/

/-- The command that waits for a card's answer. -/
def State.nfcWaits (s : State) : Option NfcCmd :=
  match s.nfc.cur with
  | some c => if nfcCode c = 1 then none else some c
  | none => none

/-- No answer came: OK with NORESP. A card that does not answer S(DESELECT) or activation is not active. -/
def State.nfcNoAnswer (s : State) (c : NfcCmd) : State :=
  (s.onlyIf (decide (nfcCode c ≠ 5 ∧ nfcCode c ≠ 6)) State.nfcDrop).nfcEnd c cOk nfcSilent []

/-- No answer, or a bad one, to an ISO-DEP block: R(NAK), up to twice; then the command ends as `give` says (R154, R157). -/
def State.nfcRetry (s : State) (c : NfcCmd) (give : State → State) : State :=
  match s.nfc.card with
  | some k =>
    if nfcCode c = 5 ∧ s.nfc.naks < 2 then
      ({ s with nfc := { s.nfc with naks := s.nfc.naks + 1 } }).nfcSend (framed k.typeB [by8 (0xB2 + b2n k.blk)])
    else give s
  | none => give s

/-- The reader's block number goes on by n, one for each of its blocks that is acknowledged; the retries of the next block
begin anew (R154). -/
def State.nfcStep (s : State) (n : Nat) : State :=
  { s with nfc := { s.nfc with naks := 0, card := s.nfc.card.map fun k => { k with blk := k.blk ^^ decide (n % 2 = 1) } } }

/-- The I-blocks still to be sent go out, each once the one before is acknowledged. -/
def State.nfcRest (s : State) (l later : List Bytes) : State :=
  { (s.nfcStep l.length) with nfc := { (s.nfcStep l.length).nfc with sent := s.nfc.sent ++ l, left := later } }

/-- A block of the answer arrives that is not the last: R(ACK) for it (R154). -/
def State.nfcAcked (s : State) : State :=
  let s := s.nfcStep 1
  match s.nfc.card with
  | some k => s.nfcSend (framed k.typeB [by8 (0xA2 + b2n k.blk)])
  | none => s

/-- R(ACK)s for n blocks. -/
def State.nfcAcks (s : State) : Nat → State
  | 0 => s
  | n + 1 => s.nfcAcked.nfcAcks n

/-- The rest of the answer to an exchange arrives in so many blocks: what was left of the command has been sent and
acknowledged, and every block but the last is acknowledged (R154). -/
def State.nfcExchanged (s : State) (blocks : Nat) : State :=
  ((s.nfcRest s.nfc.left []).nfcAcks (blocks - 1)).nfcStep 1

/-- One more block of a chained command, or of a chained answer (R154, R157). -/
def State.nfcBlock (s : State) (c : NfcCmd) (reply : NfcReply) : State :=
  match reply with
  | .ack => (match s.nfc.left with | b :: t => s.nfcRest [b] t | [] => s)
  | .part b =>
    if s.nfc.left ≠ [] then s
    else if 4096 < s.nfc.answer.length + b.length then s.nfcBad c
    else { s.nfcAcked with nfc := { s.nfcAcked.nfc with answer := s.nfc.answer ++ b } }
  | _ => s

/-- The answer to a RAW frame: with CRC set its CRC is checked, and is no part of what is delivered (log entry 59). -/
def State.nfcRawAnswer (s : State) (c : NfcCmd) (b : Bytes) : State :=
  let n := b.length - 2
  if bit c.w1 1 = false then s.nfcEnd c cOk nfcPlain b
  else if 2 ≤ b.length ∧ framed (decide (4 ≤ nfcRate c)) (b.take n) = b then s.nfcEnd c cOk nfcPlain (b.take n)
  else s.nfcBad c

/-- A card's answer is judged. -/
def nfcAnswered (reply : NfcReply) (s : State) : State :=
  match s.nfcWaits with
  | none => s
  | some c =>
    match reply with
    | .cardsA cards => if nfcCode c = 3 then s.activateA c cards else s
    | .ack => if nfcCode c = 5 then s.nfcBlock c .ack else s
    | .part b => if nfcCode c = 5 then s.nfcBlock c (.part b) else s
    | .roundsB rounds => if nfcCode c = 4 then s.activateB c (fld c.w1 7 5) false rounds else s
    | .data b blocks =>
      if nfcCode c = 5 then
        (if 4096 < s.nfc.answer.length + b.length then s.nfcBad c
         else (s.nfcExchanged blocks).nfcEnd c cOk nfcPlain (s.nfc.answer ++ b))
      else if nfcCode c = 6 then s.nfcRawAnswer c b
      else s
    | .garbled => s.nfcRetry c fun s => s.nfcBad c
    | .wtx t m =>
      if 5000 ≤ t then s.nfcNoAnswer c
      else match s.nfc.card with
        | some k => if nfcCode c = 5 then s.nfcSend (framed k.typeB [0xF2, by8 (m % 64)]) else s
        | none => s
    | .deselected => if nfcCode c = 7 then s.nfcHalt.nfcEnd c cOk nfcPlain [] else s

/-- The time for an answer has passed: of an ACTIVATE_B, that of a round without an answer. -/
def nfcExpired (s : State) : State :=
  match s.nfcWaits with
  | some c => if nfcCode c = 4 then s.activateB c (fld c.w1 7 5) false [] else s.nfcRetry c fun s => s.nfcNoAnswer c
  | none => s

/-- The GUARD time passes: a FIELD_ON that waited completes, or the field may go on again (R155). -/
def guardExpired (s : State) : State :=
  match s.nfc.cur with
  | some c => if nfcCode c = 1 then s.nfcEnd c cOk nfcPlain [] else s
  | none => { s with nfc := { s.nfc with guard := false } }

/-- The reader's command ends with a code (R466, R100). -/
def State.nfcStop (s : State) (status : Byte) : State :=
  match s.nfc.cur with
  | some c => s.nfcEnd c status nfcPlain []
  | none => s

/-- A ping that nothing reads. -/
def noPing : Ping := ⟨0, 0⟩

/-- FIELD_ON (R155). -/
def execFieldOn (ch : Nat) (ext : Bool) (s : State) : Result := done (nfcTake 1 ch ext noPing s)
/-- GUARD_EXPIRY (R155). -/
def execGuardExpiry (s : State) : Result := done (guardExpired s)
/-- FIELD_OFF (R155). -/
def execFieldOff (ch : Nat) (s : State) : Result := done (nfcTake 2 ch false noPing s)
/-- ACTIVATE_A (R158). -/
def execActivateA (ch : Nat) (ext : Bool) (s : State) : Result := done (nfcTake 3 ch ext noPing s)
/-- ACTIVATE_B (R160). -/
def execActivateB (ch : Nat) (ext : Bool) (s : State) : Result := done (nfcTake 4 ch ext noPing s)
/-- EXCHANGE (R157). -/
def execExchange (ch : Nat) (s : State) : Result := done (nfcTake 5 ch false noPing s)
/-- RAW (R157). -/
def execRaw (ch : Nat) (ext : Bool) (s : State) : Result := done (nfcTake 6 ch ext noPing s)
/-- DESELECT (R155). -/
def execDeselect (ch : Nat) (s : State) : Result := done (nfcTake 7 ch false noPing s)
/-- DETECT (R162). -/
def execDetect (ch : Nat) (ext : Bool) (ping : Ping) (s : State) : Result := done (nfcTake 8 ch ext ping s)
/-- NFC_CARD_ANSWER (R157). -/
def execNfcCardAnswer (reply : NfcReply) (s : State) : Result := done (nfcAnswered reply s)
/-- FWT_EXPIRY (R157). -/
def execFwtExpiry (s : State) : Result := done (nfcExpired s)

end Machine
end Sys2Proof
end

