-- ==== Sys2Proof/Machine/Trng.lean ====
section
/-!
DEFINITION. The random source (R308 to R325): start-up, the health tests, pools and conditioning, delivery to every caller,
Peat's port and the reseeds of the mask generators.
-/
namespace Sys2Proof
namespace Machine

/-- STATE OFF, SETTLING, STARTUP, RUNNING and FAILED. -/
def rngOff : Nat := 0
/-- STATE SETTLING. -/
def rngSettling : Nat := 1
/-- STATE STARTUP. -/
def rngStartup : Nat := 2
/-- STATE RUNNING. -/
def rngRunning : Nat := 3
/-- STATE FAILED. -/
def rngDeclared : Nat := 4

/-- STATE. -/
def State.rngState (s : State) : Nat := s.rf aTRNG_STATUS 2 0

/-- Sets STATE. -/
def State.setRng (s : State) (v : Nat) : State := s.srf aTRNG_STATUS 2 0 v

/-- The caller is Peat's port. -/
def isPort : Caller → Bool
  | .port _ => true
  | _ => false

/-- Ends Peat's waiting request with a code. -/
def State.endPort (s : State) (status : Byte) : State :=
  if s.trng.reqs.any isPort then
    ((s.setCallers (s.trng.reqs.filter fun c => !isPort c)).srf aTRNG_PORT 31 24 status.toNat).ended 0x0C status
  else s

/-- What the requests of drawers that wait end with. -/
def failedDraws (status : Byte) : List Caller → List (Drawer × Byte × Bytes)
  | [] => []
  | .draw w _ _ :: t => (w, status, []) :: failedDraws status t
  | _ :: t => failedDraws status t

/-- Every waiting request ends with a code, in arrival order; those of the mask generators with them (R313, R315). -/
def State.endRequests (s : State) (status : Byte) : State :=
  let l := failedDraws status s.trng.reqs
  let s := s.endPort status
  { s with trng := { s.trng with reqs := [], served := s.trng.served ++ l } }

/-- The pool, the undelivered output and the test state are discarded (R315, R322, R323). -/
def State.discardOutput (s : State) : State :=
  { s with trng := { s.trng with out := [], testsPassed := false, tests := [] } }

/-- The reseeds of the generators that are due and that no request waits for: those that are OVERDUE or not reseeded since the
last start or resume. -/
def State.askReseeds (s : State) : State :=
  s.each [0, 1, 2] fun s n =>
    s.onlyIf (decide (Caller.mask n ∉ s.trng.reqs) && (s.rb (aTRNG_MASK n) 30 || !s.rb (aTRNG_MASK n) 31)) fun s =>
      s.setCallers (s.trng.reqs ++ [.mask n])

/-- The start-up sequence from its first line, at a start or a resume (R314, R315, R320): the three generators are
pre-seeded and wait for their first reseed. A source declared failed stays so at a resume (R313): its requests end at once. -/
def State.rngPowerUp (s : State) (resume : Bool) : State :=
  let s := s.each [0, 1, 2] fun s n => s.setReg (aTRNG_MASK n) 0
  let s := { s.discardOutput with trng := { s.discardOutput.trng with preSeeded := true } }
  if resume && decide (s.rngState = rngDeclared) then s
  else (({ s with trng := { s.trng with reqs := [], served := [] } }).askReseeds.srf aTRNG_STATUS 5 4 0).setRng rngSettling

/-- The unit leaves the resumed state (R315). -/
def State.rngPowerDown (s : State) : State :=
  let s := (s.endRequests cAborted).discardOutput
  let s := { s with trng := { s.trng with preSeeded := false } }
  s.onlyIf (decide (s.rngState ≠ rngDeclared)) fun s => s.setRng rngOff

/-- The start-up sequence from time 50 µs (R322). Requests keep waiting; of a source that was declared failed, the reseeds that
are due are asked for again (log entry 63). -/
def State.rngRestart (s : State) : State :=
  if s.rngState = rngOff then s
  else ((s.askReseeds.srf aTRNG_STATUS 5 4 0).setRng rngStartup).discardOutput

/-- What an alarm does to the random source (R323). -/
def State.rngAlarm (s : State) : State := if s.rngState = rngDeclared then s else s.rngRestart

/-- The settling time ends (R314). -/
def rngSettled (s : State) : State := if s.rngState = rngSettling then s.setRng rngStartup else s

/-- The start-up tests pass (R314). The samples they saw are discarded and the tests go on from none (log entry 64). -/
def rngTested (s : State) : State :=
  if s.rngState = rngStartup then { s with trng := { s.trng with testsPassed := true } } else s

/-! ### Health tests (R311) -/

/-- No sample yet. -/
def sourceTestNil : SourceTest := ⟨0, 0, 0, 0, 0⟩

/-- One more sample of a source, and whether the repetition count test and the adaptive proportion test fail on it: 21
identical samples in a row, and 311 in a window of 512 that equal its first, that one counted (log entry 64). -/
def testSample (t : SourceTest) (x : Nat) : SourceTest × Bool × Bool :=
  let run := if 0 < t.run ∧ x = t.last then t.run + 1 else 1
  let fresh := decide (t.seen = 0 ∨ t.seen = 512)
  let first := if fresh then x else t.first
  let hits := (if fresh then 0 else t.hits) + (if x = first then 1 else 0)
  (⟨x, run, first, if fresh then 1 else t.seen + 1, hits⟩, decide (21 ≤ run), decide (311 ≤ hits))

/-- The samples of a source, and whether either test failed on any of them. -/
def testSamples : SourceTest → List Nat → SourceTest × Bool × Bool
  | t, [] => (t, false, false)
  | t, x :: l =>
    let a := testSample t x
    let b := testSamples a.1 l
    (b.1, a.2.1 || b.2.1, a.2.2 || b.2.2)

/-- The samples of a string: its nibbles, the low one of each byte first. -/
def nibbles (b : Bytes) : List Nat := b.flatMap fun x => [x.toNat % 16, x.toNat / 16]

/-- The tests of the eight sources over a pool, of which each has 32 bytes (R309, R311). -/
def State.testPool (s : State) (raw : Bytes) : List (SourceTest × Bool × Bool) :=
  (List.range 8).map fun k => testSamples (s.trng.tests.getD k sourceTestNil) (nibbles (slice raw (32 * k) 32))

/-- The sources whose tests failed, as a mask. -/
def failedSources (l : List (SourceTest × Bool × Bool)) : Nat :=
  (l.zipIdx.filter fun x => x.1.2.1 || x.1.2.2).foldl (fun m x => m + 2 ^ x.2) 0

/-! ### Delivery (R316 to R320) -/

/-- A reseed of an engine's mask generator arrives (R320, R321). -/
def State.reseeded (s : State) (n : Nat) : State := s.setReg (aTRNG_MASK n) 0x80000000

/-- A block goes to the requests in arrival order: each is served in full before the next takes a bit, what is left over
goes to the next, and the rest is discarded (R316). Words of Peat's port appear as they come (R319). -/
def State.serve (s : State) : List Caller → Bytes → State
  | [], _ => s.setCallers []
  | .mask n :: rest, _ => s.setCallers (.mask n :: rest)
  | .port k :: rest, b =>
    let s := { s with trng := { s.trng with out := s.trng.out ++ toWords (b.take (4 * k)) } }
    if 4 * k ≤ b.length then ((s.srf aTRNG_PORT 31 24 cOk.toNat).ended 0x0C cOk).serve rest (b.drop (4 * k))
    else s.setCallers (.port (k - b.length / 4) :: rest)
  | .draw w need got :: rest, b =>
    if need ≤ got.length + b.length then
      ({ s with trng := { s.trng with served := s.trng.served ++ [(w, cOk, got ++ b.take (need - got.length))] } }).serve rest
        (b.drop (need - got.length))
    else s.setCallers (.draw w need (got ++ b) :: rest)

/-- The lowest engine whose generator waits for a reseed. -/
def firstMask (l : List Caller) : Option Nat := [0, 1, 2].find? fun n => decide (Caller.mask n ∈ l)

/-- A block is delivered to the callers that wait (R316). -/
def State.deliverBlock (s : State) (b : Bytes) : State :=
  match firstMask s.trng.reqs with
  | some n => (s.setCallers (s.trng.reqs.erase (.mask n))).reseeded n
  | none => s.serve s.trng.reqs b

/-- A third consecutive failure (R313): the source is declared failed, and every waiting request ends with RNG_FAIL. -/
def State.rngDeclare (s : State) : State := ((s.setRng rngDeclared).endRequests cRngFail).raise .rngFailed

/-- A health failure of some sources (R311 to R314): every test restarts. -/
def healthFailure (sources : Nat) (rct apt : Bool) (s : State) : State :=
  if s.rngState = rngStartup ∨ s.rngState = rngRunning then
    let n := s.rf aTRNG_STATUS 5 4 + 1
    let st := decide (s.rngState = rngStartup)
    let old := s.reg aTRNG_HEALTH
    let s := { s with trng := { s.trng with tests := [] } }
    let s := s.setReg aTRNG_HEALTH (w32 ((fld old 31 16 + 1) % 65536 * 65536 + b2n apt * 1024 + b2n rct * 512 +
      b2n st * 256 + sources % 256))
    if 3 ≤ n then s.rngDeclare else s.srf aTRNG_STATUS 5 4 n
  else s

/-- A pool is full (R309): its samples are tested, and where they pass it is conditioned and delivered (R311 to R314). -/
def poolComplete (raw : Bytes) (s : State) : State :=
  if s.rngState = rngRunning ∨ (s.rngState = rngStartup ∧ s.trng.testsPassed = true) then
    let l := s.testPool raw
    let rct := l.any fun x => x.2.1
    let apt := l.any fun x => x.2.2
    if rct || apt then healthFailure (failedSources l) rct apt s
    else
      let s := { s with trng := { s.trng with tests := l.map Prod.fst } }
      ((s.srf aTRNG_STATUS 5 4 0).setRng rngRunning).deliverBlock (shakeH (slice raw 0 256) 32)
  else s

/-- Peat generates K_IS from conditioned output, with its copy in the island rows (R291, R301). -/
def State.makeKis (s : State) (b : Bytes) : State :=
  { s with envm := { s.envm with kis := some b }, slots := tput s.slots 13 ⟨3, 0, false, false, 0, 1, b, []⟩,
           peat := { s.peat with kisDue := false } }

/-- K_IS is generated once conditioned output for it is there after a start; where that fails, the last one stays (R325). -/
def State.kisIfDue (s : State) : State :=
  if s.peat.kisDue && !s.rb aKST_STATUS 1 then
    (s.draw .kis 16).next id (fun _ s => { s with peat := { s.peat with kisDue := false } }) fun b s => s.makeKis b
  else s

/-- A write of TRNG_CTL (R322). -/
def trngCtl (v : Word) (s : State) : State :=
  (s.srf aTRNG_CTL 11 8 (fld v 11 8)).onlyIf (bit v 0) State.rngRestart

/-- A write of TRNG_PORTREQ (R319). A write while a request is PENDING is a host mistake: what waits in
TRNG_OUT and what TRNG_PORT shows are free values, and the request goes on waiting. -/
def portReq (v : Word) (s : State) : State :=
  let s := s.srf aTRNG_PORTREQ 4 0 (fld v 4 0)
  let k := min 16 (fld v 4 0)
  if s.trng.reqs.any isPort then
    let x := s.freeBytes (4 * s.trng.out.length)
    ({ x.2 with trng := { x.2.trng with out := toWords x.1 } }).freeIn aTRNG_PORT 0xFF001000
  else if bit v 31 = false then s
  else
    let s := { s with trng := { s.trng with out := [] } }
    if s.rngState = rngDeclared then (s.srf aTRNG_PORT 31 24 cRngFail.toNat).ended 0x0C cRngFail
    else if k = 0 then (s.srf aTRNG_PORT 31 24 cLenZero.toNat).ended 0x0C cLenZero
    else (s.setCallers (s.trng.reqs ++ [.port k])).srf aTRNG_PORT 31 24 cPending.toNat

/-- The word that a master's read returns (the model's view of the read data). -/
def State.answer (s : State) (m : Master) (v : Word) : State := { s with readOut := tput s.readOut (portNo m) v }

/-- A read of TRNG_OUT (R319). -/
def trngOut (m : Master) (s : State) : State :=
  match s.trng.out with
  | [] => (s.srb aTRNG_PORT 12 true).answer m 0
  | w :: t => ({ s with trng := { s.trng with out := t } }).answer m w

/-- A register read by a master that can make accesses: refused reads return 0 (R9). -/
def State.reads (s : State) (m : Master) (a : Nat) (f : State → State) : State :=
  if s.up m then
    match judge s (rightsOf m) false a false with
    | .granted => f (s.access m (rightsOf m) false a 1)
    | .reserved => s.answer m 0
    | .refused => (s.refuseReg m false a).answer m 0
  else s

/-- 65,536 blocks of a generator have passed since its last reseed (R320, R321). Its request ends at once where the source is
declared failed (R313). -/
def reseedDue (n : Nat) (s : State) : State :=
  if n < 3 ∧ s.resumed then
    let s := (s.srf (aTRNG_MASK n) 17 0 65536).srb (aTRNG_MASK n) 30 true
    if Caller.mask n ∈ s.trng.reqs ∨ s.rngFailed then s else s.setCallers (s.trng.reqs ++ [.mask n])
  else s

/-- 131,072 blocks of a generator have passed without a reseed (R321). -/
def generatorStopped (n : Nat) (s : State) : State :=
  if n < 3 ∧ s.resumed ∧ s.rb (aTRNG_MASK n) 30 then
    (((s.srf (aTRNG_MASK n) 17 0 131072).srb (aTRNG_MASK n) 30 true).srb (aTRNG_MASK n) 29 true)
  else s

/-- SETTLING_END (R314). -/
def execSettlingEnd (s : State) : Result := done (rngSettled s)
/-- STARTUP_TESTS_PASSED (R314). -/
def execStartupTestsPassed (s : State) : Result := done (rngTested s)
/-- RESTART (R322). -/
def execRestart (m : Master) (s : State) : Result := done (s.owned m aTRNG_CTL (trngCtl (setFld (s.reg aTRNG_CTL) 0 0 1)))
/-- PORTREQ_GO (R319). -/
def execPortreqGo (m : Master) (v : Word) (s : State) : Result :=
  done (s.owned m aTRNG_PORTREQ (portReq (v ||| 0x80000000)))
/-- TRNG_OUT_READ (R319). -/
def execTrngOutRead (m : Master) (s : State) : Result := done (s.reads m aTRNG_OUT (trngOut m))
/-- RESEED_DUE (R320). -/
def execReseedDue (engine : Nat) (s : State) : Result := done (reseedDue engine s)
/-- GENERATOR_STOPPED (R321). -/
def execGeneratorStopped (engine : Nat) (s : State) : Result := done (generatorStopped engine s)

end Machine
end Sys2Proof
end

