-- ==== Sys2Proof/Machine/KeyStore.lean ====
section
/-!
DEFINITION. The key store's commands (R285 to R307): classes and epochs, blobs, generation, derivation, counters. What each
KST_ARG register holds for an OP is log entry 11.
-/
namespace Sys2Proof
namespace Machine

/-! ### Life-cycle states and classes (R92, LCS_STATE) -/

/-- The key classes bound to a life-cycle state, by class code. -/
def boundClasses (lcs : Nat) : List Nat :=
  match lcs with
  | 0 => [1] | 1 => [2] | 2 => [2, 3] | 3 => [2, 4] | 4 => [1] | _ => []

/-- The class that PERSIST 1 gives a slot of KS24 to KS63 in a state (R298). -/
def persistClass (lcs : Nat) : Nat :=
  match lcs with
  | 2 => 3 | 3 => 4 | 1 => 2 | 0 => 1 | 4 => 1 | _ => 0

/-- The class of a static slot (R291). -/
def State.slotClass (s : State) (n : Nat) (persist : Bool) : Nat :=
  if n ≤ 2 then 2 else if 4 ≤ n ∧ n ≤ 7 then 1 else if 8 ≤ n ∧ n ≤ 15 then 3
  else if persist then persistClass s.envm.lcs else 0

/-- CK of a class (R287). -/
def classKey (r : Bytes) (c : Nat) (epoch : Word) : Bytes := kmac r (ascii "KM7310-CLS") (by8 c :: toLE 4 epoch.toNat) 32

/-- Monotonic counter n (R302). -/
def State.counter (s : State) (n : Nat) : Word := tget s.envm.counters n 0

/-- Commits a counter's value. -/
def State.setCounter (s : State) (n : Nat) (v : Word) : State :=
  { s with envm := { s.envm with counters := tset s.envm.counters n v 0 } }

/-- Advances a counter by one; none at its maximum (R303). -/
def State.incCounter (s : State) (n : Nat) : Option State :=
  if s.counter n = 0xFFFFFFFF then none else some (s.setCounter n (s.counter n + 1))

/-! ### Blobs (R290) -/

/-- Erases a slot's blob. -/
def State.eraseBlob (s : State) (n : Nat) : State := { s with envm := { s.envm with blobs := tdel s.envm.blobs n } }

/-- The blob in use of a slot. -/
def liveBlob (r : BlobRows) : Option Blob := if r.sel then r.row1 else r.row0

/-- Unwraps one blob at a start: its slot, or BLOB_BAD. -/
def State.loadBlob (s : State) (n : Nat) (r : BlobRows) : State :=
  match liveBlob r with
  | none => s
  | some b =>
    match (match tfind s.power.classKeys b.attrs.cls with
      | some ck => if b.epoch = s.epochOf b.attrs.cls then kwUnwrap ck b.wrapped else none
      | none => none) with
    | some k => s.setKey n { b.attrs with key := k }
    | none => s.srb aKST_STATUS 3 true

/-- Unwraps every blob. -/
def State.loadBlobs (s : State) : State := s.each s.envm.blobs fun s b => s.loadBlob b.1 b.2

/-- Writes a static slot with its blob, where it has one. KEY_EMPTY where a blob's class key is not known. -/
def State.putStatic (s : State) (n : Nat) (k : Slot) : Byte × State :=
  if k.persist then
    match s.writeBlob n k with
    | some t => (cOk, t.setKey n k)
    | none => (cKeyEmpty, s)
  else (cOk, (s.eraseBlob n).setKey n k)

/-! ### Key material (R292, R299) -/

/-- A point's coordinates, big-endian. -/
def pointBE (f : Nat) (p : Pt) : Bytes :=
  match p with
  | some (x, y) => toBE f x ++ toBE f y
  | none => zeros (2 * f)

/-- The public part of a key. -/
def publicPart (t : Nat) (key : Bytes) : Bytes :=
  if t = 4 then pointBE 32 (ptMul p256 (ofLE key) (basePt p256))
  else if t = 5 then pointBE 48 (ptMul p384 (ofLE key) (basePt p384))
  else if t = 6 then toLE 32 (x25519Fn (ofLE key) 9)
  else []

/-- How many bytes of conditioned output a key of a type takes. -/
def drawBytes (t : Nat) : Nat := if t = 4 then 40 else if t = 5 then 56 else typeBytes t

/-- The key of a type from its conditioned output. -/
def keyOfDraw (t : Nat) (b : Bytes) : Bytes :=
  if t = 4 then toLE 32 (ofLE b % (p256.n - 1) + 1)
  else if t = 5 then toLE 48 (ofLE b % (p384.n - 1) + 1)
  else if t = 6 then toLE 32 (clampScalar (ofLE b))
  else b

/-- Peat's jobs for the public part of a key of a type: the multiplication, and CLEAR of the operand slots (R299, R366). -/
def pubJobs (t : Nat) : List PeatJob := if 4 ≤ t ∧ t ≤ 6 then [bnJob true, clearJob] else []

/-- The key check value of a symmetric key (R305). -/
def keyCheckValue (t : Nat) (key : Bytes) : Bytes :=
  let a := ascii "KM7310-KCV"
  if t = 7 then kmac key a [] 16
  else if t = 3 then cmac (key.take 32) a
  else if t = 9 then cmac (key.take 16) a
  else cmac key a

/-- Peat's job for the key check value of a symmetric type (R305). -/
def kcvJobs (t : Nat) : List PeatJob :=
  if t = 7 then [hshJob 8 true] else if t = 8 ∨ (4 ≤ t ∧ t ≤ 6) then [] else [aesJob 12]

/-! ### Commands -/

/-- TYPE, USE, SEDGE and PERSIST of a key word (R298). -/
def kwType (w : Word) : Nat := fld w 7 0
/-- USE of a key word. -/
def kwUse (w : Word) : Nat := fld w 15 8

/-- The slot that a key word describes. -/
def State.wordSlot (s : State) (n : Nat) (w : Word) (origin : Nat) (key pub : Bytes) : Slot :=
  ⟨s.slotClass n (bit w 17), origin, bit w 16, bit w 17, by8 (kwUse w), kwType w, key, pub⟩

/-- The check of a destination reference of a Peat command: its form, its session, and for a static slot the type. -/
def State.kstForm (s : State) (r w : Word) : Byte :=
  if keyForm r ≠ cOk then keyForm r
  else if s.sesCheck 124 r ≠ cOk then s.sesCheck 124 r
  else if kSes r then cOk
  else if s.rb aKST_STATUS 1 then cKeyEmpty
  else if kOff r ≠ 0 ∨ kLen r * 16 ≠ typeBytes (kwType w) ∨ kwUse w &&& typeUses (kwType w) ≠ kwUse w then cAuthFail
  else cOk

/-- The slot, key word and occupation of a key that KEY_GEN or one of Peat's commands makes (R298). -/
def State.keyWordOk (s : State) (n : Nat) (w : Word) : Bool :=
  decide (24 ≤ n ∧ n ≤ 63 ∧ fld w 31 18 = 0 ∧ ((1 ≤ kwType w ∧ kwType w ≤ 7) ∨ kwType w = 9) ∧
      kwUse w ≠ 0 ∧ kwUse w &&& typeUses (kwType w) = kwUse w) &&
    (match s.key n with | some k => k.sedge | none => true)

/-- A fixed slot that Peat fills by command, with the TYPE and USE of the slot table: KS0 to KS2 in BLANK, KS4 to KS7 in BLANK
and RETURN (R291, R387; log entry 72). -/
def State.fixedWordOk (s : State) (n : Nat) (w : Word) : Bool :=
  let l := s.envm.lcs
  decide (fld w 31 18 = 0) &&
    decide ((l = 0 ∧ (n = 0 ∨ n = 2) ∧ kwType w = 4 ∧ kwUse w = 0x10) ∨ (l = 0 ∧ n = 1 ∧ kwType w = 8 ∧ kwUse w = 0x80) ∨
      ((l = 0 ∨ l = 4) ∧ 4 ≤ n ∧ n ≤ 7 ∧ 1 ≤ kwType w ∧ kwType w ≤ 9))

/-- The destination of GENERATE, UNWRAP and DERIVE: a static slot passes the checks of R298 (R299). -/
def State.kstDest (s : State) (r w : Word) : Byte :=
  if s.kstForm r w ≠ cOk then s.kstForm r w
  else if kSes r || s.keyWordOk (kSlot r) w || s.fixedWordOk (kSlot r) w then cOk
  else cAuthFail

/-- Delivers key bytes to a destination that was checked. -/
def State.kstPut (s : State) (r w : Word) (origin : Nat) (key : Bytes) : Byte × State :=
  if kSes r then (cOk, s.keyWrite true (kSlot r) (16 * kOff r) (slice key 0 (16 * kLen r)))
  else
    let k := slice key 0 (typeBytes (kwType w))
    s.putStatic (kSlot r) (s.wordSlot (kSlot r) w origin k (publicPart (kwType w) k))

/-- Bytes of operand memory that a command names; outside the Peat partition they are unpredictable. -/
def State.peatMem (s : State) (a n : Nat) : Bytes × State :=
  if 0x50000000 ≤ a ∧ a + n ≤ 0x50000000 + 8 * s.bnBase true then (s.memRead a n, s) else s.freeBytes n

/-- The running command of the key store. -/
def State.setKst (s : State) (k : Option KstRun) : State := { s with peat := { s.peat with kst := k } }

/-- A command ends: KST_RESULT shows DONE and the status. -/
def State.kstEnd (s : State) (status : Byte) : State :=
  ((s.srb aKST_STATUS 0 false).setReg aKST_RESULT (w32 (status.toNat * 2 ^ 24 + 1))).ended 0x0B status

/-- What a host mistake during a command leaves: KST_RESULT and the target slot are unpredictable. -/
def State.kstMixed (s : State) (a0 : Word) : State :=
  let f := s.freeW
  let s := f.2.setReg aKST_RESULT f.1
  let n := if kSes a0 then 16 * kLen a0 else match s.key (kSlot a0) with | some k => k.key.length | none => 0
  let b := s.freeBytes n
  if n = 0 then s else b.2.keyWrite (kSes a0) (kSlot a0) (if kSes a0 then 16 * kOff a0 else 0) b.1

/-- A waiting GENERATE ends. -/
def State.kstDone (s : State) (k : KstRun) (status : Byte) : State :=
  ((s.setKst none).kstEnd status).onlyIf k.mixed fun s => s.kstMixed k.a0

/-- A GENERATE asks for its conditioned output, or takes it and delivers its key; ARG0 is the destination, ARG1 the key word
(R299). -/
def State.kstGoesOn (s : State) : State :=
  match s.peat.kst with
  | none => s
  | some k =>
    let t := kwType k.a1
    (s.draw .keyStore (if kSes k.a0 then 16 * kLen k.a0 else drawBytes t)).next id (fun c s => s.kstDone k c) fun b s =>
      if s.kstDest k.a0 k.a1 ≠ cOk then s.kstDone k (s.kstDest k.a0 k.a1)
      else
        s.withJobs 127 (if kSes k.a0 then [] else pubJobs t) (fun c s => s.kstDone k c) fun s =>
          let x := s.kstPut k.a0 k.a1 0 (if kSes k.a0 then b else keyOfDraw t b)
          x.2.kstDone k x.1

/-- GENERATE: BUSY until the conditioned output is there (R299). -/
def kstGenerate (s : State) (a0 a1 : Word) : State :=
  if s.rngFailed then s.kstEnd cRngFail
  else if s.kstDest a0 a1 ≠ cOk then s.kstEnd (s.kstDest a0 a1)
  else ((s.setKst (some ⟨a0, a1, false⟩)).srb aKST_STATUS 0 true).kstGoesOn

/-- UNWRAP: ARG0 the destination, ARG1 the wrapping key, ARG2 the address of the wrapped bytes, ARG3 their number in
[31:24] and the key word. It runs as a KW job of the AES engine, whose length is that of the key plus 8 (R327, R328, R338). -/
def kstUnwrap (s : State) (a0 a1 a2 a3 : Word) : Byte × State :=
  let len := fld a3 31 24
  let w := setFld a3 31 18 0
  if s.maskStopped 0 then (cRngFail, s)
  else if len = 0 then (cLenZero, s)
  else if s.kstDest a0 w ≠ cOk then (s.kstDest a0 w, s)
  else if s.keyCheck 124 a1 8 ≠ cOk then (s.keyCheck 124 a1 8, s)
  else if (kSes a1 ∧ 2 < kLen a1) ∨ len ≠ 16 * kLen a0 + 8 then (cAuthFail, s)
  else
    let r := s.peatMem a2.toNat len
    r.2.withJobs 127 (aesJob (9 + (len + 3) / 4) :: pubJobs (kwType w)) (fun c s => (c, s)) fun s =>
      match kwUnwrap (s.keyBytes a1) r.1 with
      | some k => s.kstPut a0 w 1 k
      | none => (cTagFail, s)

/-- The output of a DERIVE under a key: KMAC for Secret-256 and session keys above 16 bytes, AES otherwise. The message of
a KMAC begins with the length and the bytes of its customisation string. -/
def deriveBytes (kmac_ : Bool) (key msg : Bytes) (n : Nat) : Bytes :=
  if kmac_ then kmac key (slice msg 1 (byteAt msg 0)) (msg.drop (1 + byteAt msg 0)) n else ecbEnc key msg

/-- DERIVE: ARG0 the destination, ARG1 the source key, ARG2 the address of the message, ARG3 its length in [31:24] and the
key word. It runs as a KMAC job of the hash engine, or as an ECB_DERIVE job of one or two blocks (R296, R321, R338). -/
def kstDerive (s : State) (a0 a1 a2 a3 : Word) : Byte × State :=
  let len := fld a3 31 24
  let w := setFld a3 31 18 0
  let km := if kSes a1 then decide (1 < kLen a1) else decide (s.keyType a1 = 7)
  if s.maskStopped (if km then 2 else 0) then (cRngFail, s)
  else if len = 0 then (cLenZero, s)
  else if s.kstDest a0 w ≠ cOk then (s.kstDest a0 w, s)
  else if s.keyCheck 124 a1 0x40 ≠ cOk then (s.keyCheck 124 a1 0x40, s)
  else if km = false ∧ (len ≠ 16 * kLen a0 ∨ 32 < len) then (cAuthFail, s)
  else
    let r := s.peatMem a2.toNat len
    let n := (len + 3) / 4
    r.2.withJobs 127 ((if km then hshJob (5 + n) true else aesJob (9 + n)) :: pubJobs (kwType w)) (fun c s => (c, s)) fun s =>
      s.kstPut a0 w 2 (deriveBytes km (s.keyBytes a1) r.1 (16 * kLen a0))

/-- COPY: ARG0 the destination, ARG1 the source, ARG2 the key word of a static destination. -/
def kstCopy (s : State) (a0 a1 a2 : Word) : Byte × State :=
  if s.kstForm a0 a2 ≠ cOk then (s.kstForm a0 a2, s)
  else if s.keyCheck 124 a1 0 ≠ cOk then (s.keyCheck 124 a1 0, s)
  else if kLen a0 ≠ kLen a1 then (cAuthFail, s)
  else
    let origin := if kSes a1 then 2 else match s.key (kSlot a1) with | some k => k.origin | none => 2
    s.kstPut a0 a2 origin (s.keyBytes a1)

/-- LOAD_ENTRY: ARG0 a session destination, ARG1 the entry. -/
def kstLoadEntry (s : State) (a0 a1 : Word) : Byte × State :=
  if keyForm a0 ≠ cOk then (keyForm a0, s)
  else if kSes a0 = false ∨ 63 < a1.toNat then (cAuthFail, s)
  else if s.sesCheck 124 a0 ≠ cOk then (s.sesCheck 124 a0, s)
  else match tfind s.envm.entries a1.toNat with
    | none => (cNotEnrolled, s)
    | some e => (cOk, s.keyWrite true (kSlot a0) (16 * kOff a0) (slice e.key 0 16))

/-- STORE_ENTRY: ARG0 the source, ARG1 the entry, 64 for the copy of K_IS. -/
def kstStoreEntry (s : State) (a0 a1 : Word) : Byte × State :=
  if s.keyCheck 124 a0 0 ≠ cOk then (s.keyCheck 124 a0 0, s)
  else if 64 < a1.toNat ∨ kLen a0 ≠ 1 then (cAuthFail, s)
  else if a1.toNat = 64 then (cOk, { s with envm := { s.envm with kis := some (s.keyBytes a0) } })
  else match tfind s.envm.entries a1.toNat with
    | none => (cNotEnrolled, s)
    | some e => (cOk, { s with envm := { s.envm with
        entries := tput s.envm.entries a1.toNat { e with key := s.keyBytes a0 } } })

/-- ERASE: ARG0 names the slot, as a key reference that is checked as any other (R295, R306). -/
def kstErase (s : State) (a0 : Word) : Byte × State :=
  if s.keyCheck 124 a0 0 ≠ cOk then (s.keyCheck 124 a0 0, s)
  else if kSes a0 then (cOk, s.modSes (kSlot a0) fun x => { x with slot := zeros 128 })
  else (cOk, (s.eraseBlob (kSlot a0)).dropKey (kSlot a0))

/-- CNT_INC: ARG0 the counter. -/
def kstInc (s : State) (a0 : Word) : Byte × State :=
  if 63 < a0.toNat then (cAuthFail, s)
  else match s.incCounter a0.toNat with
    | some t => (cOk, t)
    | none => (cAborted, s)

/-- CNT_SET: ARG0 the counter, ARG1 its new value (R303). -/
def kstSet (s : State) (a0 a1 : Word) : Byte × State :=
  if 63 < a0.toNat then (cAuthFail, s)
  else if s.counter a0.toNat = 0xFFFFFFFF then (cAborted, s)
  else if a1.toNat ≤ (s.counter a0.toNat).toNat then (cAuthFail, s)
  else (cOk, s.setCounter a0.toNat a1)

/-- The check value stored with the helper data (R286). -/
def rootCheck (r : Bytes) : Bytes := shakeH (ascii "KM7310-CHK" ++ r) 16

/-- R from the array's 65,536 start-up bits: corrected with the helper data, whose code the spec does not give (log entry 52),
and compressed with SHAKE256 to 256 bits (R285). -/
def rootOf (array helper : Bytes) : Bytes := shakeH (Config.rootCorrect (slice array 0 8192) helper) 32

/-- ROOT_ENROL of the array's bits: 2 KiB of helper data, and the check value (R285, R288). R is not kept (R287). -/
def kstRootEnrol (s : State) (array : Bytes) : Byte × State :=
  if s.envm.lcs ≠ 0 ∨ s.envm.helper.isSome then (cAuthFail, s)
  else
    let h := slice (Config.rootHelper (slice array 0 8192)) 0 2048
    let r := rootOf array h
    (cOk, { s with envm := { s.envm with helper := some ⟨h, rootCheck r⟩ }, rootArray := some array })

/-- EPOCH_ADV: ARG0 the class code (R289). -/
def kstEpoch (s : State) (a0 : Word) : Byte × State :=
  let c := a0.toNat
  if c < 1 ∨ 4 < c then (cAuthFail, s)
  else if s.epochOf c = 0xFFFFFFFF then (cAborted, s)
  else (cOk, { s with envm := { s.envm with epoch := tset s.envm.epoch c (s.epochOf c + 1) 0 } })

/-- The effect of an OP but GENERATE with the arguments in KST_ARG0 to KST_ARG3. -/
def kstRun (s : State) (op : Nat) (r : Bytes) : Byte × State :=
  let a := fun m => s.reg (aKST_ARG m)
  match op with
  | 0x02 => kstUnwrap s (a 0) (a 1) (a 2) (a 3)
  | 0x03 => kstDerive s (a 0) (a 1) (a 2) (a 3)
  | 0x04 => kstCopy s (a 0) (a 1) (a 2)
  | 0x05 => kstLoadEntry s (a 0) (a 1)
  | 0x06 => kstStoreEntry s (a 0) (a 1)
  | 0x07 => kstErase s (a 0)
  | 0x08 => kstInc s (a 0)
  | 0x09 => kstSet s (a 0) (a 1)
  | 0x0A => kstRootEnrol s r
  | 0x0B => kstEpoch s (a 0)
  | _ => (cAuthFail, s)

/-- The arguments or OP of a running command were written: its result and its target slot are unpredictable (a host
mistake). -/
def State.kstSpoil (s : State) : State :=
  match s.peat.kst with
  | some k => s.setKst (some { k with mixed := true })
  | none => s

/-- A write of KST_CMD with GO: the command runs, and KST_RESULT shows DONE at its end. While one is running, GO is the host
mistake of writing OP and starts nothing (log entry 71). -/
def kstGo (op : Nat) (r : Bytes) (s : State) : State :=
  let s := s.srf aKST_CMD 23 16 op
  if s.peat.kst.isSome then s.kstSpoil
  else
    let s := s.setReg aKST_RESULT (w32 (cPending.toNat * 2 ^ 24))
    if op = 0x01 then kstGenerate s (s.reg (aKST_ARG 0)) (s.reg (aKST_ARG 1))
    else
      let x := kstRun s op r
      x.2.kstEnd x.1

/-- GENERATE (R299). -/
def execGenerate (m : Master) (s : State) : Result := done (s.owned m aKST_CMD (kstGo 0x01 []))
/-- UNWRAP (R295). -/
def execUnwrap (m : Master) (s : State) : Result := done (s.owned m aKST_CMD (kstGo 0x02 []))
/-- DERIVE (R296). -/
def execDerive (m : Master) (s : State) : Result := done (s.owned m aKST_CMD (kstGo 0x03 []))
/-- COPY (R295). -/
def execKstCopy (m : Master) (s : State) : Result := done (s.owned m aKST_CMD (kstGo 0x04 []))
/-- LOAD_ENTRY (R301). -/
def execLoadEntry (m : Master) (s : State) : Result := done (s.owned m aKST_CMD (kstGo 0x05 []))
/-- STORE_ENTRY (R301). -/
def execStoreEntry (m : Master) (s : State) : Result := done (s.owned m aKST_CMD (kstGo 0x06 []))
/-- ERASE (R306). -/
def execErase (m : Master) (s : State) : Result := done (s.owned m aKST_CMD (kstGo 0x07 []))
/-- CNT_INC (R303). -/
def execCntInc (m : Master) (s : State) : Result := done (s.owned m aKST_CMD (kstGo 0x08 []))
/-- CNT_SET (R303). -/
def execCntSet (m : Master) (s : State) : Result := done (s.owned m aKST_CMD (kstGo 0x09 []))
/-- ROOT_ENROL (R288). -/
def execRootEnrol (m : Master) (r : Bytes) (s : State) : Result := done (s.owned m aKST_CMD (kstGo 0x0A r))
/-- EPOCH_ADV (R289). -/
def execEpochAdv (m : Master) (s : State) : Result := done (s.owned m aKST_CMD (kstGo 0x0B []))

end Machine
end Sys2Proof
end

