-- ==== Sys2Proof/Machine/Sections.lean ====
section
/-!
DEFINITION. The configuration image (R59, R60) and its sections: their content checks (R55, R67 to R70, R90, R102, R124, R139,
R177, R197, R208, R239, R283, R348, R393, R438, R461) and what each writes when it takes effect.
-/
namespace Sys2Proof
namespace Machine

/-! ### Verification by an anchor (R381) -/

/-- A signature verifies under an anchor; none where the anchor was never written. -/
def State.anchorVerify (s : State) (a : Nat) (sig msg : Bytes) : Option Bool :=
  match tfind s.envm.anchors a with
  | none => none
  | some k => match psetOf k.pset with
    | some p => some (xmssVerifyFn p k.key sig msg)
    | none => some false

/-- A signature verifies. -/
def State.signed (s : State) (a : Nat) (sig msg : Bytes) : Bool := s.anchorVerify a sig msg == some true

/-- The code of a verification: KEY_EMPTY where the anchor was never written. -/
def State.sigCode (s : State) (a : Nat) (sig msg : Bytes) : Byte :=
  match s.anchorVerify a sig msg with
  | none => cKeyEmpty
  | some true => cOk
  | some false => cAuthFail

/-! ### Helpers -/

/-- Every byte from offset i on, n of them, is zero. -/
def zeroAt (b : Bytes) (i n : Nat) : Bool := decide (slice b i n = zeros n)

/-- The signed value of w bytes at offset i. -/
def sLE (b : Bytes) (i w : Nat) : Int := sgn (8 * w) (ofLE (slice b i w))

/-- A value lies in a range. -/
def inRange (lo v hi : Nat) : Bool := decide (lo ≤ v ∧ v ≤ hi)

/-- No element of a list equals a later one. -/
def noRepeat {α : Type} [DecidableEq α] : List α → Bool
  | [] => true
  | a :: t => decide (a ∉ t) && noRepeat t

/-- Chunks of n bytes. -/
def chunks (n : Nat) : Nat → Bytes → List Bytes
  | 0, _ => []
  | k + 1, b => if b.length < n then [] else b.take n :: chunks n k (b.drop n)

/-! ### Directory (R59) -/

/-- A section entry. -/
structure DirEntry where
  typ : Nat
  inst : Nat
  ver : Nat
  off : Nat
  len : Nat
  crc : Nat
  digest : Bytes
  deriving DecidableEq, Repr

/-- Reads a section entry. -/
def dirEntry (b : Bytes) : DirEntry := ⟨byteAt b 0, byteAt b 1, le16 b 2, le32 b 4, le32 b 8, le32 b 12, slice b 16 32⟩

/-- The entries of a directory slot, COUNT of them. -/
def dirEntries (b : Bytes) : List DirEntry := ((chunks 48 48 (slice b 0x10 2304)).take (le16 b 6)).map dirEntry

/-- CFG_VERSION of a directory slot. -/
def dirVersion (b : Bytes) : Nat := le32 b 8

/-- The last instance of a section type (R60); none for an unknown type. -/
def lastInstance (t : Nat) : Option Nat :=
  match t with
  | 8 => some 15 | 0xA => some 7 | 0xC => some 3
  | _ => if 1 ≤ t ∧ t ≤ 0xB then some 0 else none

/-- The required section types. -/
def requiredTypes : List Nat := [1, 2, 6, 7, 9, 0xB]

/-- The entries of a directory are well made: known types and instances, no repeat, offsets and lengths in range, and
every required section there. An unknown TYPE, or an instance outside its range, makes the whole directory invalid, which the
spec does not say (DESIGN CHOICE, log entry 86). -/
def dirWellMade (l : List DirEntry) : Bool :=
  noRepeat (l.map fun e => (e.typ, e.inst)) &&
    (l.all fun e => (match lastInstance e.typ with | some n => decide (e.inst ≤ n) | none => false) &&
      decide (e.off % 4096 = 0 ∧ 0x4000 ≤ e.off ∧ e.len ≠ 0)) &&
    (requiredTypes.all fun t => l.any fun e => decide (e.typ = t))

/-! ### Content checks -/

/-- CLOCKS (R67). -/
def okClocks (b : Bytes) : Bool :=
  decide (b.length = 16 ∧ byteAt b 0 = 1 ∧ byteAt b 1 ≤ 31 ∧ byteAt b 2 ≤ 2 ∧ byteAt b 3 ≤ 15 ∧
    1100 ≤ le16 b 4 ∧ le16 b 4 ≤ 4000) && zeroAt b 6 10

/-- The non-zero values of a list rise (R55). -/
def risingNonZero (l : List Nat) : Bool :=
  let m := l.filter (· ≠ 0)
  (List.zip m m.tail).all fun p => decide (p.1 < p.2)

/-- POWER (R55, R68). -/
def okPower (b : Bytes) : Bool :=
  decide (b.length = 48 ∧ byteAt b 0 = 1) && zeroAt b 1 3 && zeroAt b 0x2C 4 &&
    risingNonZero ((List.range 4).map fun i => le32 b (4 + 4 * i)) &&
    ((List.range 4).all fun i => decide (le32 b (0x14 + 4 * i) < 2 ^ 18)) &&
    decide ((le16 b 0x26 = 0 ∨ (12000 ≤ le16 b 0x26 ∧ le16 b 0x26 ≤ 16000)) ∧ le16 b 0x28 ≤ 60000 ∧ le16 b 0x2A ≤ 10000)

/-- The carrier divisor is in the range of R123. -/
def carrierOk (v : Nat) : Bool :=
  let d := (v / 2 ^ 20 % 1024 * 2 ^ 20 + v % 2 ^ 20) * 10
  decide (v < 2 ^ 30 ∧ 3616 * 2 ^ 20 ≤ d ∧ d ≤ 5424 * 2 ^ 20)

/-- LF (R124). -/
def okLf (b : Bytes) : Bool :=
  decide (b.length = 24 ∧ byteAt b 0 = 1 ∧ byteAt b 3 = 0 ∧ le32 b 8 / 4096 % 16 = 0) && carrierOk (le32 b 4) &&
    zeroAt b 0x15 3 &&
    ((List.range 3).all fun k =>
      let q := fun j => sLE b (0xC + 3 * k + j) 1
      let n := q 0 * q 0 + q 1 * q 1 + q 2 * q 2
      decide (15376 ≤ n ∧ n ≤ 16900))

/-- Bytes of a record by its SIZE code (R176). -/
def recSize (code : Nat) : Nat := match code with | 1 => 16 | 2 => 128 | 3 => 1024 | _ => 0

/-- The footprint of a record. -/
def recFoot (code : Nat) : Nat := if code = 3 then 2048 else recSize code

/-- The record map of an NFC section. -/
def nfcMap (b : Bytes) : Bytes := slice b 0x10 (byteAt b 1)

/-- NFC (R177). -/
def okNfc (b : Bytes) : Bool :=
  let n := byteAt b 1
  decide (b.length = 16 + (n + 3) / 4 * 4 ∧ byteAt b 0 = 1 ∧ byteAt b 2 ≤ 14 ∧ byteAt b 4 ≤ 63 ∧ byteAt b 7 ≤ 3 ∧
    le32 b 8 < 2 ^ 28) && inRange 1 (byteAt b 3) 15 && inRange 8 (byteAt b 5) 14 && inRange 1 (byteAt b 6) 255 &&
    inRange 1 (byteAt b 8) 255 && inRange 1 (byteAt b 0xB) 8 && zeroAt b 0xC 4 && zeroAt b (16 + n) ((n + 3) / 4 * 4 - n) &&
    ((nfcMap b).all fun x => decide (x.toNat % 4 ≠ 0 ∧ x.toNat / 16 % 4 ≠ 3 ∧ x.toNat < 128)) &&
    decide (((nfcMap b).map fun x => recFoot (x.toNat % 4)).sum ≤ 16384)

/-- A UWB profile is one of R182's; SP0 and SP2 are not, where the STS field counts. -/
def profileOk (w : Word) (useSts : Bool) : Bool :=
  let code := fld w 4 0
  decide (fld w 27 24 ≠ 0 ∧ fld w 15 14 ≠ 3 ∧ fld w 13 12 ≠ 3) && (!useSts || decide (fld w 17 16 = 1 ∨ fld w 17 16 = 3)) &&
    (if bit w 10 then inRange 25 code 32 else inRange 9 code 12 && decide (fld w 15 14 = 1) && !bit w 11)

/-- Twice the signed area of three points. -/
def cross2 (a b c : Int × Int) : Int := (b.1 - a.1) * (c.2 - a.2) - (b.2 - a.2) * (c.1 - a.1)

/-- A point on the line of a segment lies within it. -/
def within (a b p : Int × Int) : Bool :=
  decide (min a.1 b.1 ≤ p.1 ∧ p.1 ≤ max a.1 b.1 ∧ min a.2 b.2 ≤ p.2 ∧ p.2 ≤ max a.2 b.2)

/-- Two segments meet. -/
def segMeet (a b c d : Int × Int) : Bool :=
  let o1 := cross2 a b c
  let o2 := cross2 a b d
  let o3 := cross2 c d a
  let o4 := cross2 c d b
  decide (o1 * o2 < 0 ∧ o3 * o4 < 0) || (decide (o1 = 0) && within a b c) || (decide (o2 = 0) && within a b d) ||
    (decide (o3 = 0) && within c d a) || (decide (o4 = 0) && within c d b)

/-- No edge of a polygon meets one that is not its neighbour. -/
def polySimple (l : List (Int × Int)) : Bool :=
  let n := l.length
  let at_ := fun i => l.getD (i % n) (0, 0)
  (List.range n).all fun i => (List.range n).all fun j =>
    decide (j < i + 2 ∨ (i = 0 ∧ j = n - 1)) || !segMeet (at_ i) (at_ (i + 1)) (at_ j) (at_ (j + 1))

/-- The polygon of a UWB section. -/
def uwbPoly (b : Bytes) : List (Int × Int) :=
  (List.range (byteAt b 0xB0)).map fun i => (sLE b (0xB4 + 4 * i) 2, sLE b (0xB6 + 4 * i) 2)

/-- The positions of the PRESENT units of a UWB section. -/
def uwbUnits (b : Bytes) : List (Int × Int × Int) :=
  (List.range 16).filterMap fun k =>
    let o := 0x30 + 8 * k
    if byteAt b (o + 6) % 2 = 1 then some (sLE b o 2, sLE b (o + 2) 2, sLE b (o + 4) 2) else none

/-- All points lie on one line. -/
def onOneLine : List (Int × Int × Int) → Bool
  | a :: t => match t.find? (fun p => decide (p ≠ a)) with
    | none => true
    | some p => t.all fun q =>
        let u := (p.1 - a.1, p.2.1 - a.2.1, p.2.2 - a.2.2)
        let v := (q.1 - a.1, q.2.1 - a.2.1, q.2.2 - a.2.2)
        decide (u.2.1 * v.2.2 = u.2.2 * v.2.1 ∧ u.2.2 * v.1 = u.1 * v.2.2 ∧ u.1 * v.2.1 = u.2.1 * v.1)
  | [] => true

/-- The radio part of a UWB section (R208). -/
def okRadio (b : Bytes) : Bool :=
  decide (byteAt b 0 = 1 ∧ byteAt b 1 ≤ 63 ∧ byteAt b 3 < byteAt b 2 ∧ 1 ≤ byteAt b 3) && inRange 2 (byteAt b 2) 40 &&
    ((List.range 4).all fun i => decide (byteAt b (8 + i) ≤ 31)) && inRange 1 (byteAt b 0xC) 8 &&
    inRange 1 (byteAt b 0xD) 15 && zeroAt b 0xE 2

/-- UWB (R208, R239). -/
def okUwb (b : Bytes) : Bool :=
  let prof := w32 (le32 b 0x10)
  let half := if bit prof 31 then 1876 else 2309
  let n := byteAt b 0xB0
  decide (b.length = 228) && okRadio b && profileOk prof false && decide (prof &&& ~~~0x8F33FC1F = 0) &&
    inRange 48 (le16 b 0x14) 1000 && inRange 100 (le16 b 0x16) 10000 && inRange 1000 (le16 b 0x18) 60000 &&
    inRange 10 (byteAt b 0x1A) 200 && decide (byteAt b 0x1B < 8) && inRange 8 (byteAt b 0x1C) 255 &&
    inRange 8 (byteAt b 0x1D) 255 && inRange 6 (byteAt b 0x1E) 30 && inRange 3 (byteAt b 0x1F) 20 &&
    inRange 20 (le16 b 0x20) 1000 && inRange 10 (le16 b 0x22) 500 && decide (le16 b 0x24 ≤ 500) &&
    inRange 100 (le16 b 0x28) half && inRange 100 (le16 b 0x2A) half && zeroAt b 0x2C 4 &&
    ((List.range 16).all fun k => decide (byteAt b (0x36 + 8 * k) < 2 ∧ byteAt b (0x37 + 8 * k) = 0)) &&
    (!testBit (byteAt b 0x1B) 2 || (decide (3 ≤ (uwbUnits b).length) && !onOneLine (uwbUnits b))) &&
    inRange 3 n 12 && zeroAt b 0xB1 3 && zeroAt b (0xB4 + 4 * n) (48 - 4 * n) && polySimple (uwbPoly b)

/-- CHAIN (R461). -/
def okChain (b : Bytes) : Bool :=
  decide (b.length = 16 ∧ byteAt b 0 = 1) && inRange 1 (byteAt b 1) 16 && inRange 50 (le16 b 2) 1000 &&
    inRange 16 (le16 b 6) 1000 && zeroAt b 8 8

/-- QUEUES (R393). -/
def okQueues (b : Bytes) : Bool :=
  let e := fun n => 4 + 4 * n
  decide (b.length = 68 ∧ byteAt b 0 = 1) && zeroAt b 1 3 &&
    ((List.range 16).all fun n =>
      let org := byteAt b (e n)
      let role := byteAt b (e n + 1)
      let silt := byteAt b (e n + 2)
      decide (org ≤ 1 ∧ role ≤ 1 ∧ (org = 0 → silt = 0) ∧ (role = 1 → n = 14 ∨ n = 15) ∧ (n = 15 → role = 1) ∧
        (org = 1 ∧ role = 1 → silt % 2 = 0) ∧ byteAt b (e n + 3) = 0)) &&
    decide (((List.range 16).map fun n => byteAt b (e n + 2)).sum ≤ 256)

/-- TEMPLATES (R102). -/
def okTemplate (b : Bytes) : Bool :=
  decide (b.length = 32 ∧ byteAt b 0 = 1 ∧ byteAt b 2 ≤ 2 ∧ byteAt b 3 ≤ 3 ∧ byteAt b 6 ≤ 7 ∧ byteAt b 7 ≤ 3) &&
    inRange 1 (byteAt b 1) 8 && inRange 1 (byteAt b 4) 255 && inRange 1 (byteAt b 5) 16 && zeroAt b 0xC 20

/-- A register range of a block holds a register that Peat owns at all times. -/
def holdsPeat (blk first last : Nat) : Bool :=
  (rowsOf blk).any fun r => (List.range r.count).any fun i =>
    let o := (r.base + r.stride * i - 0x40000000) % 0x10000
    decide (first ≤ o ∧ o ≤ last) &&
      (match r.own with
       | .peat => true
       | .prfMonitor => true
       | .prfBlock => decide (i = 0x0B ∨ i = 0x0C ∨ i = 0x17)
       | .chan => decide (124 ≤ i)
       | _ => false)

/-- The host part (R438). -/
def okHostPart (b : Bytes) : Bool :=
  let n := byteAt b 1
  let bad := fun m => testBit m 10 || testBit m 11 || testBit m 12 || testBit m 14 || testBit m 15
  decide (byteAt b 0 = 1 ∧ n ≤ 32 ∧ b.length = 8 + 8 * n) && !bad (le16 b 2) && !bad (le16 b 4) && zeroAt b 6 2 &&
    ((List.range n).all fun k =>
      let g := slice b (8 + 8 * k) 8
      decide (byteAt g 0 ≤ 0x18 ∧ byteAt g 1 < 4 ∧ le16 g 2 % 4 = 0 ∧ le16 g 4 % 4 = 0 ∧ le16 g 2 ≤ le16 g 4) &&
        zeroAt g 6 2 && !holdsPeat (byteAt g 0) (le16 g 2) (le16 g 4))

/-- The release part (R283). -/
def okRelease (b : Bytes) : Bool :=
  let app := fun v => decide (v ≤ 7 ∨ v = 0xFF)
  decide (b.length = 32 ∧ byteAt b 0 = 1 ∧ byteAt b 1 < 4 ∧ le16 b 8 < 4096 ∧ popCount 12 (le16 b 8) = 1) &&
    inRange 50 (le16 b 2) 1000 && inRange 100 (le16 b 4) 5000 && inRange 10 (le16 b 6) 1000 &&
    app (byteAt b 0xA) && app (byteAt b 0xB) && app (byteAt b 0xC) && zeroAt b 0xE 2

/-- The engine part (R348). -/
def okEngine (b : Bytes) : Bool :=
  let l := byteAt b 2
  decide (b.length = 4 ∧ byteAt b 0 = 1 ∧ l % 8 ≤ 5 ∧ l / 16 % 8 ≤ 5 ∧ l / 8 % 2 = 0 ∧ l < 128 ∧ byteAt b 3 = 0) &&
    inRange 8 (byteAt b 1) 64

/-- One POLICY part passes its check. -/
def okPart (pt : Nat) (body : Bytes) : Bool :=
  match pt with
  | 1 => okHostPart body
  | 2 => okRelease body
  | 3 => okEngine body
  | 4 => decide (body.length = 4 ∧ le32 body 0 / 1024 % 4 = 0)
  | 5 => decide (body.length = 48)
  | _ => false

/-- The parts of a POLICY section from a byte on: their types, or none where one is ill made. -/
def policyParts : Nat → Bytes → Option (List Nat)
  | 0, b => if b = [] then some [] else none
  | n + 1, b =>
    let len := le16 b 2
    let pad := (len + 3) / 4 * 4
    if b.length < 4 + pad ∨ byteAt b 1 ≠ 0 ∨ zeroAt b (4 + len) (pad - len) = false ∨
        okPart (byteAt b 0) (slice b 4 len) = false then none
    else (policyParts n (b.drop (4 + pad))).map (byteAt b 0 :: ·)

/-- POLICY (R70). -/
def okPolicy (b : Bytes) : Bool :=
  decide (byteAt b 0 = 1 ∧ (byteAt b 1 = 4 ∨ byteAt b 1 = 5)) && zeroAt b 2 2 &&
    (match policyParts (byteAt b 1) (b.drop 4) with
     | some l => noRepeat l && ([1, 2, 3, 4].all fun p => decide (p ∈ l))
     | none => false)

/-- APPLET (R88, R90), with the size of the applet area. -/
def okApplet (area : Nat) (b : Bytes) : Bool :=
  let foot := le32 b 8
  let code := le32 b 0xC
  decide (b.length = 64 + code ∧ byteAt b 0 = 1 ∧ 4 ≤ code ∧ code ≤ foot ∧ code % 4 = 0 ∧ foot ≤ area ∧
    le32 b 0x10 < code ∧ le32 b 0x10 % 2 = 0 ∧ 32 ≤ le32 b 0x14 ∧ le32 b 0x14 < 64 ∧
    (le32 b 0x18 = 0 ∨ (100 ≤ le32 b 0x18 ∧ le32 b 0x18 ≤ 50000)) ∧ ofLE (slice b 0x1C 3) = 0) &&
    inRange 1 foot 16384 && zeroAt b 1 3 && zeroAt b 0x24 28

/-- Two regions do not overlap. -/
def apart (a b : Nat × Nat) : Bool := decide (a.1 + a.2 ≤ b.1 ∨ b.1 + b.2 ≤ a.1)

/-- Regions are pairwise apart. -/
def allApart : List (Nat × Nat) → Bool
  | [] => true
  | a :: t => t.all (apart a) && allApart t

/-- LAYOUT (R69), beside the entries of its directory. -/
def okLayout (dir : List DirEntry) (b : Bytes) : Bool :=
  let w := le32 b
  let size := w 4
  let ps := w 0x10
  let ss := w 0x1C
  let se := w 0x2C
  let regions := [(0, 0x4000), (0x4000, se - 0x4000), (w 8, ps), (w 0xC, ps), (w 0x14, ss), (w 0x18, ss), (w 0x20, 0x40000)] ++
    (if w 0x28 = 0 then [] else [(w 0x24, w 0x28)])
  decide (b.length = 64 ∧ byteAt b 0 = 1 ∧ 0x4000 ≤ se ∧ 65536 ≤ ps ∧ 466944 ≤ ss ∧ w 0x20 % 8192 = 0) &&
    zeroAt b 1 3 && zeroAt b 0x30 16 &&
    ((List.range 8).any fun k => decide (size = 2 ^ (20 + k))) && decide (size ≤ Config.sfdpSize) &&
    ([w 8, w 0xC, w 0x14, w 0x18, w 0x24, se].all fun o => decide (o % 4096 = 0)) &&
    (regions.all fun r => decide (r.1 + r.2 ≤ size)) && allApart regions &&
    (dir.all fun e => decide (0x4000 ≤ e.off ∧ e.off + e.len ≤ se))

/-- LF calibration records (R139). -/
def okLfCal (b : Bytes) : Bool :=
  let l := chunks 16 b.length b
  decide (b.length % 16 = 0) &&
    (l.all fun r => decide (byteAt r 0 ≤ 11 ∧ byteAt r 3 ≤ 63 ∧ byteAt r 6 ≤ 63) && inRange 1 (byteAt r 1) 4 &&
      inRange 1 (byteAt r 7) 60 && zeroAt r 0xA 6) &&
    noRepeat (l.map fun r => (byteAt r 0, byteAt r 1, byteAt r 2))

/-- UWB calibration records (R197). -/
def okUwbCal (b : Bytes) : Bool :=
  let l := chunks 32 b.length b
  decide (b.length % 32 = 0) && inRange 1 l.length 64 &&
    (l.all fun r =>
      let tx := decide (byteAt r 0 = 1)
      inRange 1 (byteAt r 0) 2 && decide (byteAt r 1 ≤ (if tx then 3 else 0) ∧ (byteAt r 2 = 5 ∨ byteAt r 2 = 9) ∧
          byteAt r 5 ≤ (if tx then 31 else 0) ∧ byteAt r 8 ≤ (if tx then 63 else 0) ∧ byteAt r 9 = 0) &&
        inRange 1 (byteAt r 3) 4 && inRange 1080 (le16 r 6) 1320 && zeroAt r 0x14 12 &&
        (if tx then zeroAt r 0xC 6 else zeroAt r 0x12 2)) &&
    noRepeat (l.map fun r => (byteAt r 0, byteAt r 1, byteAt r 2, byteAt r 3, byteAt r 4))

/-- A section's content check, beside its directory and the size of the applet area. -/
def contentOk (dir : List DirEntry) (area typ inst : Nat) (b : Bytes) : Bool :=
  match typ with
  | 1 => okClocks b
  | 2 => okPower b
  | 3 => okLf b
  | 4 => okNfc b
  | 5 => okUwb b
  | 6 => okChain b
  | 7 => okQueues b
  | 8 => okTemplate b
  | 9 => okPolicy b
  | 0xA => okApplet area b
  | 0xB => okLayout dir b
  | 0xC => if inst = 0 then okLfCal b else if inst = 1 then okUwbCal b else true
  | _ => false

/-! ### Taking effect -/

/-- POWER (R68). -/
def State.applyPower (s : State) (b : Bytes) : State :=
  let s := { s with power := { s.power with chargeOff := decide (le16 b 0x26 = 0) } }
  let s := s.each (List.range 4) fun s i => s.setReg (aPWR_ENTRY (i + 1)) (w32 (le32 b (4 + 4 * i)))
  let s := s.each (List.range 4) fun s i => s.setReg (aPWR_POLL i) (w32 (le32 b (0x14 + 4 * i)))
  ((s.setReg aPWR_DSWAKE (w32 (le16 b 0x24))).setReg aPWR_IDLE (w32 (le16 b 0x28))).setReg aSYS_WDT_CFG (w32 (le16 b 0x2A))

/-- LF (R124). -/
def State.applyLf (s : State) (b : Bytes) : State :=
  ((s.setReg aLF_CARRIER (w32 (le32 b 4))).setReg aLF_POLLCFG (w32 (le32 b 8))).setReg aLF_DROOP
    (w32 (byteAt b 2 * 256 + byteAt b 1))

/-- TAG_CFG of an NFC section. -/
def tagCfgWord (b : Bytes) : Word :=
  w32 (byteAt b 3 % 16 * 65536 + byteAt b 7 / 2 % 2 * 512 + byteAt b 7 % 2 * 256 + byteAt b 2 % 16)

/-- The island's configuration, its records kept where index and size are unchanged (R168, R177). -/
def State.applyIsland (s : State) (b : Bytes) : State :=
  let old := match s.envm.islandCfg with | some o => nfcMap o | none => []
  let same := fun i => decide (i < byteAt b 1 ∧ i < old.length ∧ byteAt old i % 4 = byteAt (nfcMap b) i % 4)
  { s with envm := { s.envm with islandCfg := some b, tussock := s.envm.tussock.filter fun r => same r.1,
                                 tornRecs := s.envm.tornRecs.filter same } }

/-- NFC (R177). -/
def State.applyNfc (s : State) (b : Bytes) : State :=
  let s := s.setReg aNFC_TXCFG (w32 (byteAt b 6 * 65536 + byteAt b 5 % 16 * 256 + byteAt b 4 % 64))
  ((s.setReg aNFC_LPCD (w32 (le32 b 8))).setReg aTAG_CFG (tagCfgWord b)).applyIsland b

/-- UWB (R208). TUNE0 to TUNE3 are the codes at a start and at a resume: `State.radioFresh` (R202). -/
def State.applyUwb (s : State) (b : Bytes) : State :=
  (s.setReg aUWB_TXLIMIT (w32 (byteAt b 1))).setReg aUWB_IDLECFG (w32 (le16 b 6 * 65536 + le16 b 4))

/-- QUEUES (R393). -/
def State.applyQueues (s : State) (b : Bytes) : State :=
  s.each (List.range 16) fun s n =>
    let e := fun k => slice b (4 + 4 * k) 4
    let base := ((List.range n).map fun k => byteAt (e k) 2).sum
    s.setReg (aQUE_CFG n) (w32 ((if byteAt (e n) 2 = 0 then 0 else base) * 2 ^ 24 + byteAt (e n) 2 * 2 ^ 16 +
      byteAt (e n) 1 * 256 + byteAt (e n) 0))

/-- The engine part: operand memory is zeroed, whatever it changes (R348). -/
def State.applyEngine (s : State) (p : Bytes) : State :=
  let w := w32 ((byteAt p 2 / 16 % 8) * 4096 + byteAt p 2 % 8 * 256 + byteAt p 1)
  let s := s.setReg aBN_PART w
  let s := s.setReg aBN_PARTINFO (w32 (s.bnSlots false * 65536 + s.bnSlots true))
  { s with mem := s.mem.filter fun c => decide (c.1 < 0x50000000 ∨ 0x50008000 ≤ c.1) }

/-- A part of a POLICY section's bytes. -/
def partOf (b : Bytes) (pt : Nat) : Option Bytes := findPart pt (byteAt b 1) (b.drop 4)

/-- POLICY (R70): the release, lockout and, where it changed, the engine part. -/
def State.applyPolicy (s : State) (b : Bytes) : State :=
  let s := match partOf b 2 with | some p => s.setReg aREL_CFG (w32 (le16 p 6)) | none => s
  let s := match partOf b 4 with | some p => s.setReg aCRD_LOCKCFG (w32 (le32 p 0)) | none => s
  match partOf b 3 with
  | some p => s.applyEngine p
  | none => s

/-- A configured applet: a new identifier clears its persistent block and its counters (R87). -/
def State.applyApplet (s : State) (n : Nat) (b : Bytes) : State :=
  let id := w32 (le32 b 4)
  let s := { s with peat := { s.peat with residents := s.peat.residents.filter fun r => decide (r.inst ≠ n) } }
  if tfind s.envm.applIds n = some id then s
  else
    let s := (s.memWrite (0x1000F000 + 0x200 * n) (zeros 0x200))
    let s := (s.setCounter (48 + 2 * n) 0).setCounter (49 + 2 * n) 0
    { s with envm := { s.envm with applIds := tput s.envm.applIds n id } }

/-- What a section writes when it takes effect, at a start and at a live replacement. -/
def State.applySection (s : State) (typ inst : Nat) (b : Bytes) : State :=
  match typ with
  | 1 => { s with envm := { s.envm with clocksCopy := some b } }
  | 2 => s.applyPower b
  | 3 => s.applyLf b
  | 4 => s.applyNfc b
  | 5 => s.applyUwb b
  | 7 => s.applyQueues b
  | 9 => s.applyPolicy b
  | 0xA => s.applyApplet inst b
  | _ => s

/-- What a section reloads at a resume from stage 3: the registers that lost power. The PWR_ mirrors, the Peat-owned REL_
registers and the resident applets were kept (R49). -/
def State.reloadSection (s : State) (typ inst : Nat) (b : Bytes) : State :=
  match typ with
  | 2 => s.setReg aSYS_WDT_CFG (w32 (le16 b 0x2A))
  | 9 => (s.applyPolicy b).setReg aREL_CFG (s.reg aREL_CFG)
  | 0xA => s
  | _ => s.applySection typ inst b

/-- Reloads every section in use. -/
def State.reloadLost (s : State) : State :=
  s.each s.cfg.sections fun s e => s.reloadSection (e.1 / 256) (e.1 % 256) e.2

/-- Applies every section in use. -/
def State.applyAll (s : State) : State := s.each s.cfg.sections fun s e => s.applySection (e.1 / 256) (e.1 % 256) e.2

end Machine
end Sys2Proof
end

