-- ==== Sys2Proof/Machine/Wake.lean ====
section
/-!
DEFINITION. Resuming from Heron stages 0 to 3 (R22, R48, R49, R58, R413): what a resume does at once, and the reads of a
start or reload, which in recovery the host answers (R439).
-/
namespace Sys2Proof
namespace Machine

/-- Peat's channels are RUNNING from the moment Peat runs (R99). -/
def State.runPeat (s : State) : State := s.each [124, 125, 126, 127] fun s n => s.srf (aCHN_STATUS n) 1 0 1

/-- Peat commits the unread island log records to Q3 in log order, as far as Q3 has room, and clears the log (R175). -/
def State.commitLog : Nat → State → State
  | 0, s => s
  | n + 1, s =>
    match s.envm.islandLog with
    | [] => { s with envm := { s.envm with logOverrun := false } }
    | r :: t =>
      match s.hwCommit 3 (bytesPacket 0 0xFF r) with
      | some u => State.commitLog n { u with envm := { u.envm with islandLog := t } }
      | none => s

/-- The result of a Heron poll goes to Q4 once the queues run (R145). -/
def State.commitHeld (s : State) : State :=
  match s.lf.held with
  | some ws => ({ s with lf := { s.lf with held := none } }).feCommit 4 (wordsPacket 0 0xFF ws)
  | none => s

/-- An alarm that occurred while the unit was not resumed: every session closes, and FLT_LAST0 and FLT_LAST1 show it with
the time of the resume (R467). -/
def State.takeOffline (s : State) : State :=
  match s.flt.offline with
  | none => s
  | some a =>
    let s := ({ s with flt := { s.flt with offline := none } }).closeAll
    let n := s.rf aFLT_LAST0 15 0 + 1
    ((s.setReg aFLT_LAST0 (w32 (a.1 % 16 * 2 ^ 28 + a.2 % 256 * 2 ^ 16 + n % 65536))).setReg aFLT_LAST1 s.sysLo)

/-- Causeway training begins (R442); a disabled port stays so. -/
def State.trainPorts (s : State) : State :=
  if (s.sect 6 0).isSome then
    s.each [0, 1] fun s p => s.onlyIf (decide (s.rf (aCWY_PORT p) 25 24 ≠ 3)) fun s => s.srf (aCWY_PORT p) 25 24 1
  else s

/-- The radio at a start or a resume: in SLEEP, without live records, its calibrations invalid, its TS counter at zero, the
tuner codes of the section (R188, R195, R200, R202). -/
def State.radioFresh (s : State) : State :=
  let s := { s with tsOrigin := s.now, uwb := { Uwb.reset with nextId := s.uwb.nextId } }
  let s := (s.setReg aUWB_STATE 0).each [0, 1] fun s c => s.setReg (aUWB_SYNCAL c) 0
  let s := (s.srb aUWB_FLAGS 3 false).srb aUWB_FLAGS 7 false
  match s.sect 5 0 with
  | some b => s.each (List.range 4) fun s i => s.srf (aUWB_PORT i) 4 0 (byteAt b (8 + i))
  | none => s

/-- An interval as the AON oscillator measures it: within 2 % of the true one once calibrated, within 25 % before (R45). -/
def aonSpan (cal : Bool) (dt n : Nat) : Nat :=
  let p := if cal then 2 else 25
  max ((dt * (100 - p) + 99) / 100) (min (dt * (100 + p) / 100) (Config.aonEstimate dt n))

/-- SYSTIME takes its held value advanced by the standing interval as the AON timer measures it (R413). -/
def State.advanceSystime (s : State) : State :=
  let e := aonSpan s.power.aonCal (s.now - s.power.leftAt) s.freeCtr
  ({ s with freeCtr := s.freeCtr + 1, sysTime := s.sysTime + BitVec.ofNat 64 e }).srb aTMR_STATUS 0 true

/-- The AON oscillator is calibrated against XO (R45). -/
def State.calibrated (s : State) : State := { s with power := { s.power with aonCal := true } }

/-! ### Reading images and recovery requests (R58, R439) -/

/-- Chunks in which a recovery load asks for n bytes from an offset: multiples of 4, at most 4096 (R439). -/
def recChunks (r : Nat × Nat) : List (Nat × Nat) :=
  (List.range ((r.2 + 4095) / 4096)).map fun i => (r.1 + 4096 * i, min 4096 ((r.2 + 3) / 4 * 4 - 4096 * i))

/-- Posts the first request of a list of reads that the host has not answered, or clears the request. -/
def State.askHost (s : State) (reads : List (Nat × Nat)) : State :=
  match (reads.flatMap recChunks).find? fun c => decide (c ∉ s.power.recGot) with
  | some c => (s.setReg aHIF_RECREQ (w32 (2 ^ 31 + c.1 % 2 ^ 24))).setReg aHIF_RECLEN (w32 c.2)
  | none => (s.setReg aHIF_RECREQ 0).setReg aHIF_RECLEN 0

/-- The bytes that the start and the reloads read: of the flash, or of what the recovery load supplied. -/
def State.source (s : State) (a n : Nat) : Bytes :=
  if s.power.recovery then cellRead s.power.recMem flashDefault a n else s.flashRead a n

/-- A field of the LAYOUT in use. -/
def State.layout (s : State) (i : Nat) : Nat := match s.sect 0xB 0 with | some b => le32 b i | none => 0

/-- The offset of an image slot under a LAYOUT section's offsets: type 1 Peat, type 2 Sedge. -/
def State.imageAt (s : State) (typ slot : Nat) : Nat :=
  s.layout (if typ = 1 then (if slot = 0 then 8 else 0xC) else if slot = 0 then 0x14 else 0x18)

/-- The reads of a Sedge reload: the header and the body of the running image. -/
def State.reloadReads (s : State) : List (Nat × Nat) :=
  let o := s.imageAt 2 (tget s.peat.runSlot 2 0)
  [(o, 64), (o + 64, min 524288 (le32 (s.source o 64) 0xC))]

/-- Sedge stops and its image is read again (step 4 of R73, R58); in recovery the host supplies it. -/
def State.beginReload (s : State) : State :=
  let s := { s with power := { s.power with sedgeRuns := false, reloading := true, recMem := [], recGot := [] } }
  s.onlyIf s.power.recovery fun s => s.askHost s.reloadReads

/-- The wake event or the start-complete event: a packet of one item in Q2. Its layout is not given, so all of the word but
the status that a start-complete event carries is open (log entry 7). -/
def State.readyEvent (s : State) (status : Option Byte) : State :=
  let r := s.freeW
  r.2.event [match status with | some c => setFld r.1 31 24 c.toNat | none => r.1]

/-- The unit resumes for the cause of a bit of PWR_WAKE_SRC. From stage 3 the registers outside the retention domain are
reloaded from the sections, and Sedge runs once it has been reloaded. -/
def State.resume (s : State) (cause : Nat) : State :=
  if s.power.mode = .standing then
    let deep := s.power.lost
    let s := { s with power := { s.power with mode := .resumed, sleepAsked := false, idleSent := false,
                                              idleUnits := 0, lost := false } }
    let s := (s.srb aPWR_STATUS 3 true).srb aPWR_WAKE_SRC cause true
    let s := s.advanceSystime.calibrated
    let s := (((s.onlyIf deep fun s => s.reloadLost.beginReload).runPeat.rngPowerUp true).radioFresh).trainPorts
    (((s.takeOffline.notice 31 1).readyEvent none).commitHeld).commitLog 17
  else s

end Machine
end Sys2Proof
end

