-- ==== Sys2Proof/Machine/Tag.lean ====
section
/-!
DEFINITION. The tag role, the field-powered island and Tussock (R164 to R181): what the phone hears, the island's APDUs, the
UNLOCK_H pulse, the log, and the host's record commands.
-/
namespace Sys2Proof
namespace Machine

/-! ### Configuration and conditions -/

/-- Changes the tag's state. -/
def State.modTag (s : State) (f : Tag → Tag) : State := { s with tag := f s.tag }

/-- TAG_CFG in use: the register while the unit is resumed, the island's eNVM copy otherwise (R168). -/
def State.tagCfg (s : State) : Word :=
  if s.resumed then s.reg aTAG_CFG
  else match s.envm.islandCfg with | some b => tagCfgWord b | none => resetWord aTAG_CFG

/-- FWI in force. -/
def State.fwi (s : State) : Nat := min 14 (fld s.tagCfg 3 0)

/-- The record map in use (R176). -/
def State.tagMap (s : State) : Bytes := match s.envm.islandCfg with | some b => nfcMap b | none => []

/-- The map byte of a record, 0 where it is absent. -/
def State.recMap (s : State) (n : Nat) : Nat := byteAt s.tagMap n

/-- The committed contents of a record (log entry 6: erased bytes read zero). -/
def State.recData (s : State) (n : Nat) : Bytes := slice (tget s.envm.tussock n []) 0 (recSize (s.recMap n % 4))

/-- Commits a record's contents. -/
def State.setRec (s : State) (n : Nat) (b : Bytes) : State :=
  { s with envm := { s.envm with tussock := tput s.envm.tussock n b } }

/-- MAIN_UP (R172). -/
def State.mainUp (s : State) : Bool := s.rails && !s.rb aPWR_STATUS 5

/-- The AON time base is available to the island (R168, R174). -/
def State.aonBase (s : State) : Bool := s.rails || !s.power.vbatArmed

/-- The tag role hears the phone: the island is ready and the unit's own field is off (R152, R94). -/
def State.tagHears (s : State) : Bool :=
  s.tag.field && s.tag.ready && !s.nfc.fieldOn && s.envm.islandCfg.isSome && decide (s.envm.lcs ≠ 5)

/-- The phone waits for an answer. -/
def State.tagWaiting (s : State) : Bool :=
  s.tag.fwdWait || s.tag.unlockWait || s.tag.isackWait || s.tag.pulse || s.tag.pendingAnswer || s.tag.fieldWaits.isSome

/-- An APDU can arrive. -/
def State.tagTakes (s : State) : Bool := s.tagHears && s.tag.active && !s.tagWaiting

/-- Answers the phone; `fc` is the frame delay in carrier cycles, 0 where it lies on the grid of R166. -/
def State.tagSay (s : State) (b : Bytes) (fc : Nat) : State :=
  s.modTag fun t => { t with answer := b, delayFc := fc, pendingAnswer := false }

/-- A status word. -/
def swBytes (a b : Nat) : Bytes := [by8 a, by8 b]

/-- Answers data and a status word. -/
def State.tagSw (s : State) (data : Bytes) (a b : Nat) : State := s.tagSay (data ++ swBytes a b) 0

/-! ### Frames of activation (R164, R165) -/

/-- The frame delay after a last bit. -/
def frameDelay (last : Bool) : Nat := if last then 1236 else 1172

/-- The odd parity bit of a byte. -/
def oddParity (b : Byte) : Bool := decide (popCount 8 b.toNat % 2 = 0)


/-- BCC of a UID part. -/
def bccOf (b : Bytes) : Byte := b.foldl (· ^^^ ·) 0

/-- REQA or WUPA: answered from the idle state; a selected tag falls back to it; an active one ignores them. -/
def tagRequest (last : Bool) (s : State) : State :=
  if s.tagHears = false ∨ s.tag.active then s
  else if s.tag.picked then (s.modTag fun t => { t with picked := false }).tagSay [] 0
  else s.tagSay [0x04, 0x00] (frameDelay last)

/-- The last bit of an anticollision frame that carries some UID bits. -/
def antiLastBit (bits : Nat) (uid : Bytes) : Bool :=
  if bits = 0 then oddParity 0x20
  else if bits % 8 = 0 then oddParity (uid.getD (bits / 8 - 1) 0)
  else strBit uid (bits - 1)

/-- The UID bits that follow the first n, packed least significant bit first. -/
def bitsFrom (b : Bytes) (n : Nat) : Bytes :=
  let m := 8 * b.length - n
  (List.range ((m + 7) / 8)).map fun i =>
    by8 (((List.range 8).map fun j => if 8 * i + j < m ∧ strBit b (n + 8 * i + j) then 2 ^ j else 0).sum)

/-- Anticollision: the UID bits and BCC that follow those sent, where they match. -/
def tagAnticollide (bits : Nat) (uid : Bytes) (s : State) : State :=
  let full := s.tag.uid ++ [bccOf s.tag.uid]
  if s.tagHears = false ∨ s.tag.active ∨ s.tag.picked ∨ 40 ≤ bits then s
  else if (List.range bits).all fun i => strBit uid i == strBit full i then
    s.tagSay (bitsFrom full bits) (frameDelay (antiLastBit bits uid))
  else s.tagSay [] 0

/-- SELECT. -/
def tagSelected (uid : Bytes) (s : State) : State :=
  if s.tagHears = false ∨ s.tag.active then s
  else if uid = s.tag.uid then
    let crc := crcA ([0x93, 0x70] ++ uid ++ [bccOf uid])
    (s.modTag fun t => { t with picked := true }).tagSay [0x20] (frameDelay (oddParity (crc.getD 1 0)))
  else (s.modTag fun t => { t with picked := false }).tagSay [] 0

/-- RATS. -/
def tagRats (s : State) : State :=
  if s.tagHears ∧ s.tag.picked ∧ s.tag.active = false then
    (s.modTag fun t => { t with active := true }).tagSay [0x05, 0x78, 0x00, by8 (s.fwi * 16), 0x00] 0
  else s

/-- PPS. -/
def tagPps (dri dsi : Nat) (s : State) : State :=
  if s.tagTakes then s.tagSay (if dri = 0 ∧ dsi = 0 then [0xD0] else []) 0 else s

/-! ### Presence and selection (R168, R169, R179, R181) -/

/-- The selection ends: its authentication is gone, and its shadow copies take no further chunk. -/
def State.endSelection (s : State) : State :=
  s.modTag fun t => { t with selected := false, forwarding := false, ni := [], authEntry := none, fired := false,
                             shadows := t.shadows.map fun (x : Nat × Nat × Bytes) => (x.1, 9, x.2.2) }

/-- An external field powers the island. -/
def fieldPresent (s : State) : State :=
  if s.tag.field ∨ s.envm.islandCfg = none ∨ s.envm.lcs = 5 then s
  else s.modTag fun t => { t with field := true, ready := false, authTried := false, wtxSent := 0, answer := [] }

/-- Block j of the challenge generator (R169); without a K_IS its output is open. -/
def State.challenge (s : State) (j : Nat) : Bytes × State :=
  match s.envm.kis with
  | some k => (aesEnc k (toLE 4 s.tag.c.toNat ++ [by8 j] ++ zeros 11), s)
  | none => s.freeBytes 16

/-- Adds a log record; the oldest of sixteen gives way (R175). -/
def State.addLog (s : State) (r : Bytes) : State :=
  let l := s.envm.islandLog
  { s with envm := { s.envm with islandLog := (if 16 ≤ l.length then l.drop 1 else l) ++ [r],
                                 logOverrun := s.envm.logOverrun || decide (16 ≤ l.length) } }

/-- The island is ready: a record held back is written first, counter 47 advances, block 0 gives the UID. A counter at its
maximum gives no new challenge, so the island stays silent. -/
def islandReady (s : State) : State :=
  if s.tag.field = false ∨ s.tag.ready then s
  else
    let s := match s.envm.logHeld with
      | some r => ({ s with envm := { s.envm with logHeld := none } }).addLog r
      | none => s
    match s.incCounter 47 with
    | none => s
    | some s =>
      let s := s.modTag fun t => { t with c := s.counter 47 }
      let b := s.challenge 0
      b.2.modTag fun t => { t with ready := true, uid := 0x08 :: b.1.take 3, j := 1 }

/-- A record whose shadow is torn. -/
def State.tear (s : State) (n : Nat) : State :=
  { s with envm := { s.envm with tornRecs := if n ∈ s.envm.tornRecs then s.envm.tornRecs else s.envm.tornRecs ++ [n] } }

/-- The field presence ends: every uncommitted shadow is torn; a pulse and a write that run go on. -/
def fieldLost (s : State) : State :=
  if s.tag.field = false then s
  else
    let s := s.each s.tag.shadows fun s x => s.tear x.1
    s.endSelection.modTag fun t =>
      { t with field := false, ready := false, uid := [], j := 0, picked := false, active := false, shadows := [],
               pendingAnswer := false, fwdStale := t.fwdStale + b2n t.fwdWait, fwdWait := false, unlockWait := false,
               isackWait := false, authTried := false, answer := [], delayFc := 0, fieldWaits := none }

/-! ### The log (R170, R175) -/

/-- Logs an outcome of an entry and a TID. -/
def State.logAs (s : State) (status : Byte) (flags entry : Nat) (tid : Bytes) : State :=
  s.addLog (toLE 4 s.tag.c.toNat ++ [status, by8 flags, by8 entry, 0] ++ slice tid 0 4)

/-- Logs an outcome of the selection; entry and TID are open where it is not authenticated. -/
def State.logSel (s : State) (status : Byte) (flags : Nat) : State :=
  match s.tag.authEntry with
  | some n => s.logAs status flags n (match tfind s.envm.entries n with | some e => toLE 4 e.tid.toNat | none => zeros 4)
  | none => let r := s.freeBytes 5; r.2.logAs status flags (byteAt r.1 0) (r.1.drop 1)

/-! ### SELECT (R167, R169, R173) -/

/-- The unit address that the island answers with. -/
def State.islandAddr (s : State) : Nat := if s.unit = 0 then s.envm.islandUnit else s.unit

/-- A command of the island succeeds: OK is logged (R170, R175). -/
def State.tagOk (s : State) (data : Bytes) : State := (s.logSel cOk 0).tagSw data 0x90 0x00

/-- SELECT of the island application. -/
def selectIsland (s : State) : State :=
  if s.tagTakes = false then s
  else
    let s := s.endSelection
    if bit s.tagCfg 8 = false then s.tagSw [] 0x6A 0x82
    else if 255 < s.tag.j then s.tagSw [] 0x69 0x85
    else
      let b := s.challenge s.tag.j
      let s := b.2.modTag fun t => { t with selected := true, ni := b.1, j := t.j + 1 }
      s.tagOk ([by8 s.islandAddr] ++ b.1 ++ toLE 4 s.tag.c.toNat)

/-- Forwards an APDU as one packet. -/
def State.forward (s : State) (apdu : Bytes) : State :=
  match s.tagChannel with
  | some n =>
    (s.feCommit (s.dstLane (s.rf (aCHN_QUEUES n) 7 4)) (bytesPacket 0 n apdu)).modTag fun t =>
      { t with forwarding := true, fwdWait := true }
  | none => s

/-- A SELECT of another application. -/
def selectOther (apdu : Bytes) (s : State) : State :=
  if s.tagTakes = false then s
  else
    let s := s.endSelection
    if bit s.tagCfg 9 ∧ s.resumed ∧ s.tagChannel.isSome then s.forward apdu else s.tagSw [] 0x6A 0x82

/-- An APDU after a forwarded SELECT. It waits for its timeout where no channel is left to take it. -/
def forwardedApdu (apdu : Bytes) (s : State) : State :=
  if s.tagTakes ∧ s.tag.forwarding then
    (if s.resumed ∧ s.tagChannel.isSome then s.forward apdu else s.modTag fun t => { t with fwdWait := true })
  else s

/-- Another running channel of class 4 has the same INQ (a host mistake): the answers that each receives are unpredictable. -/
def State.tagShared (s : State) (n : Nat) : Bool :=
  (List.range 124).any fun c =>
    decide (c ≠ n ∧ s.chState c = 1 ∧ s.feClass c = 4 ∧ s.rf (aCHN_QUEUES c) 3 0 = s.rf (aCHN_QUEUES n) 3 0)

/-- The answer of the channel is taken from its INQ where the sequencer serves that channel next (R103): sent to the phone, or
discarded where the phone has gone. -/
def forwardAnswer (s : State) : State :=
  match s.tagChannel with
  | none => s
  | some n =>
    match s.feHead n [4] with
    | none => s
    | some p =>
      let s := (s.feTake n).countBroken (s.rf (aCHN_QUEUES n) 3 0) p
      if 0 < s.tag.fwdStale then s.modTag fun t => { t with fwdStale := t.fwdStale - 1 }
      else
        let s := s.modTag fun t => { t with fwdWait := false }
        let b := packetBytes p
        let f := s.freeBytes b.length
        if packetBroken p then s.tagSw [] 0x6F 0x00
        else if s.tagShared n then f.2.tagSay f.1 0
        else s.tagSay b 0

/-- No answer within WTX_S. -/
def forwardTimeout (s : State) : State :=
  if s.tag.fwdWait then
    (s.modTag fun t => { t with fwdWait := false, fwdStale := t.fwdStale + 1 }).tagSw [] 0x6F 0x00
  else s

/-- FWT passes while an answer is pending: S(WTX) with WTXM 1 (R166). -/
def wtxExpired (s : State) : State :=
  if s.tag.field ∧ s.tagWaiting then
    s.modTag fun t => { t with answer := [0xF2, 0x01], delayFc := 0, wtxSent := t.wtxSent + 1 }
  else s

/-! ### AUTH (R171, R174) -/

/-- The tag class takes no AUTH now (R170, R174). -/
def State.tagLocked (s : State) (waited30s : Bool) : Bool :=
  if s.aonBase then s.isLocked (.cls 2) else decide (5 ≤ s.envm.islandFails) && (s.tag.authTried || !waited30s)

/-- Counts an island failure. -/
def State.tagFailure (s : State) : State :=
  if s.aonBase then s.countFailure (.cls 2) else { s with envm := { s.envm with islandFails := s.envm.islandFails + 1 } }

/-- A failed AUTH: counted and committed before the answer (R268). -/
def State.authRefused (s : State) (status : Byte) (entry : Nat) (tid : Bytes) : State :=
  (s.tagFailure.logAs status 0 entry tid).tagSw [] 0x69 0x82

/-- ISLAND_AUTH of TID, NP and MAC_P: a token that is locked is answered as the class is, and a success clears its history
(R171, R267). -/
def islandAuth (tid np macP : Bytes) (waited30s : Bool) (s : State) : State :=
  if s.tagTakes = false ∨ s.tag.selected = false then s
  else
    let locked := s.tagLocked waited30s
    let s := s.modTag fun t => { t with authEntry := none, authTried := t.authTried || !locked }
    if locked then
      let r := s.freeBytes 1
      (r.2.logAs cLocked 0 (byteAt r.1 0) tid).tagSw [] 0x69 0x85
    else
      match s.entryByTid (w32 (ofLE (slice tid 0 4))) with
      | none => let r := s.freeBytes 1; r.2.authRefused cNotEnrolled (byteAt r.1 0) tid
      | some (n, e) =>
        let t4 := slice tid 0 4
        if s.aonBase ∧ s.isLocked (.entry n) then (s.logAs cLocked 0 n tid).tagSw [] 0x69 0x85
        else if e.rights.getLsbD 3 = false then s.authRefused cNotEnrolled n tid
        else if (cmac e.key (0x50 :: t4 ++ s.tag.ni ++ np)).take 8 ≠ macP then s.authRefused cAuthFail n tid
        else
          let s := { s with envm := { s.envm with islandFails := 0 }, tag := { s.tag with authEntry := some n } }
          let s := s.onlyIf (decide (s.power.mode = .resumed ∨ s.power.mode = .standing)) State.active
          (s.clearFailures (.entry n)).tagOk ((cmac e.key (0x44 :: t4 ++ np ++ s.tag.ni)).take 8 ++ [e.rights])

/-- An enrolled entry is erased: a selection authenticated under it loses its authentication (R269). -/
def State.eraseEntry (s : State) (n : Nat) : State :=
  { s with envm := { s.envm with entries := tdel s.envm.entries n, lockEnt := tdel s.envm.lockEnt n },
           tag := if s.tag.authEntry = some n then { s.tag with authEntry := none } else s.tag,
           peat := { s.peat with authOk := s.peat.authOk.filter fun a => decide (a.entry ≠ n) } }

/-! ### Records (R170, R178 to R180) -/

/-- Reports a torn record once; the answer says whether it was torn. -/
def State.reportTorn (s : State) (n : Nat) : Bool × State :=
  if n ∈ s.envm.tornRecs then
    (true, ({ s with envm := { s.envm with tornRecs := s.envm.tornRecs.filter (· ≠ n) } }).srb aTAG_STATUS 7 true)
  else (false, s)

/-- The host writes a record now. -/
def State.hostWrites (s : State) (n : Nat) : Bool := decide (s.tag.hostBusy = some (true, n))

/-- READ_RECORD served. -/
def State.readRec (s : State) (n : Nat) : State :=
  let r := s.reportTorn n
  if r.1 then (r.2.logSel cTorn 0).tagSw (r.2.recData n) 0x62 0x81 else s.tagOk (s.recData n)

/-- READ_RECORD. -/
def readRecord (p1 p2 : Nat) (s : State) : State :=
  let m := s.recMap p1
  let rd := m / 16 % 4
  if s.tagTakes = false ∨ s.tag.selected = false then s
  else if m % 4 = 0 ∨ p2 ≠ 0 then s.tagSw [] 0x6A 0x86
  else if rd = 0 ∨ (rd = 2 ∧ s.tag.authEntry = none) then s.tagSw [] 0x69 0x82
  else if s.hostWrites p1 then s.modTag fun t => { t with fieldWaits := some (false, p1, p2, [], 0) }
  else s.readRec p1

/-- VHARV in mV that a write of a size needs at its start (R178). -/
def gateMv (bytes : Nat) : Nat := if bytes ≤ 16 then 2150 else 3150

/-- A write refused by the gate. -/
def State.weak (s : State) : State := (s.logSel cFieldWeak 0).tagSw [] 0x65 0x81

/-- A field write begins; it finishes whatever becomes of the field, and is answered at its end. -/
def State.beginWrite (s : State) (n : Nat) : State :=
  s.modTag fun t => { t with writing := some n, pendingAnswer := true }

/-- A chunk of a 1024-byte record. -/
def State.writeChunk (s : State) (n k : Nat) (data : Bytes) (mv : Nat) : State :=
  let old := match tfind s.tag.shadows n with | some x => x | none => (0, [])
  if 7 < k ∨ (k ≠ 0 ∧ old.1 ≠ k) then (s.modTag fun t => { t with shadows := tdel t.shadows n }).tagSw [] 0x6A 0x86
  else if mv < gateMv 128 then s.weak
  else (s.modTag fun t => { t with shadows := tput t.shadows n (k + 1, if k = 0 then data else old.2 ++ data) }).beginWrite n

/-- After chunk 7 the commit flag flips, where the reserve passes its gate; else the chunk may be sent again (R179). -/
def State.commitShadow (s : State) (n : Nat) (b : Bytes) (mv : Nat) : State :=
  if mv < gateMv 16 then (s.modTag fun t => { t with shadows := tput t.shadows n (7, b.take 896) }).weak
  else ((s.setRec n b).modTag fun t => { t with shadows := tdel t.shadows n }).tagOk []

/-- UPDATE_RECORD served. -/
def State.updateRec (s : State) (p1 p2 : Nat) (data : Bytes) (mv : Nat) : State :=
  let size := recSize (s.recMap p1 % 4)
  if size = 1024 then
    (if data.length ≠ 128 then s.tagSw [] 0x67 0x00 else s.writeChunk p1 p2 data mv)
  else if p2 ≠ 0 then s.tagSw [] 0x6A 0x86
  else if data.length ≠ size then s.tagSw [] 0x67 0x00
  else if mv < gateMv size then s.weak
  else (s.setRec p1 data).beginWrite p1

/-- UPDATE_RECORD. -/
def updateRecord (p1 p2 : Nat) (data : Bytes) (mv : Nat) (s : State) : State :=
  let m := s.recMap p1
  if s.tagTakes = false ∨ s.tag.selected = false then s
  else if m % 4 = 0 then s.tagSw [] 0x6A 0x86
  else if s.tag.authEntry = none then s.tagSw [] 0x69 0x82
  else if testBit m 6 = false then s.tagSw [] 0x69 0x82
  else if s.hostWrites p1 then s.modTag fun t => { t with fieldWaits := some (true, p1, p2, data, mv) }
  else s.updateRec p1 p2 data mv

/-- A field APDU that waited for a host write is served. -/
def State.serveField (s : State) : State :=
  match s.tag.fieldWaits with
  | none => s
  | some (upd, p1, p2, data, mv) =>
    let s := s.modTag fun t => { t with fieldWaits := none }
    if s.tag.field then (if upd then s.updateRec p1 p2 data mv else s.readRec p1) else s

/-! ### The host's record commands (R180) -/

/-- A field transaction on the record is open. -/
def State.fieldOpen (s : State) (n : Nat) : Bool :=
  decide (s.tag.writing = some n) || (match tfind s.tag.shadows n with | some x => decide (x.1 ≤ 8) | none => false) ||
    (match s.tag.fieldWaits with | some x => decide (x.2.1 = n) | none => false)

/-- Ends a host command with a code. -/
def State.hostDone (s : State) (status : Byte) : State :=
  ((s.modTag fun t => { t with hostBusy := none, hostReadWaits := none }).setReg aTAG_HRESULT
    (w32 (256 + status.toNat))).ended 5 status

/-- TAG_HBUF takes bytes from its first word on. -/
def State.toHbuf (s : State) (b : Bytes) : State :=
  s.each (List.range ((b.length + 3) / 4)) fun s i =>
    s.setReg (aTAG_HBUF i) ((s.reg (aTAG_HBUF i) &&& (if b.length < 4 * i + 4 then ~~~(w32 (2 ^ (8 * (b.length - 4 * i)) - 1)) else 0))
      ||| w32 (ofLE ((b.drop (4 * i)).take 4)))

/-- The bytes of TAG_HBUF. -/
def State.ofHbuf (s : State) (n : Nat) : Bytes := (ofWords ((List.range ((n + 3) / 4)).map fun i => s.reg (aTAG_HBUF i))).take n

/-- The host's read of a record ends. -/
def State.hostRead (s : State) (n : Nat) : State :=
  let r := s.reportTorn n
  (r.2.toHbuf (r.2.recData n)).hostDone (if r.1 then cTorn else cOk)

/-- GO with OP and RECORD. -/
def State.hostGo (s : State) (op n : Nat) : State :=
  let m := s.recMap n
  let s := s.setReg aTAG_HRESULT 0
  if op ≠ 1 ∧ op ≠ 2 then s.hostDone cAuthFail
  else if m % 4 = 0 ∨ testBit m (if op = 1 then 2 else 3) = false then s.hostDone cAuthFail
  else if op = 2 then
    if s.fieldOpen n then (s.setReg aTAG_HRESULT (w32 (512 + 256 + cPending.toNat))).srb aTAG_STATUS 6 true
    else (s.srb aTAG_STATUS 6 false).modTag fun t => { t with hostBusy := some (true, n) }
  else
    s.modTag fun t => { t with hostBusy := some (false, n),
                               hostReadWaits := if t.writing = some n ∧ m % 4 ≠ 3 then some n else none }

/-- TAG_HBUF and the record that a running host command names become unpredictable (R14, R15). -/
def State.spoilHost (s : State) (n : Nat) : State :=
  let s := s.each (List.range 256) fun s k => s.freeIn (aTAG_HBUF k) 0xFFFFFFFF
  let x := s.freeBytes (recSize (s.recMap n % 4))
  x.2.setRec n x.1

/-- A write of TAG_HCMD (R180). While a command runs it is a host mistake, and its GO starts nothing. -/
def tagHcmd (v : Word) (s : State) : State :=
  let t := (s.srf aTAG_HCMD 17 16 (fld v 17 16)).srf aTAG_HCMD 7 0 (fld v 7 0)
  match s.tag.hostBusy with
  | some (_, n) => t.spoilHost n
  | none => if bit v 18 then t.hostGo (fld v 17 16) (fld v 7 0) else t

/-- A host command ends (HCMD_DONE). -/
def hcmdDone (s : State) : State :=
  match s.tag.hostBusy with
  | none => s
  | some (true, n) => ((s.setRec n (s.ofHbuf (recSize (s.recMap n % 4)))).hostDone cOk).serveField
  | some (false, n) => if s.tag.hostReadWaits.isSome then s else s.hostRead n

/-- A field write ends, with VHARV as it is then: it is answered, and a host read that waited is served. -/
def fieldWriteEnd (mv : Nat) (s : State) : State :=
  match s.tag.writing with
  | none => s
  | some n =>
    let s := s.modTag fun t => { t with writing := none }
    let s :=
      if s.tag.field = false ∨ s.tag.pendingAnswer = false then s
      else match tfind s.tag.shadows n with
        | some (8, b) => s.commitShadow n b mv
        | _ => s.tagOk []
    match s.tag.hostReadWaits with
    | some r => if r = n then s.hostRead n else s
    | none => s

/-! ### UNLOCK (R172, R173, R181) -/

/-- Writes TAG_ISLAST0 and TAG_ISLAST1 where the registers have power. -/
def State.isLast (s : State) (status : Byte) (pulsed pending : Bool) (entry : Nat) (tid : Word) : State :=
  if s.rails then
    (s.setReg aTAG_ISLAST0 (w32 (status.toNat * 2 ^ 24 + b2n pulsed * 2 ^ 23 + b2n pending * 2 ^ 22 + entry % 64 * 2 ^ 16))).setReg
      aTAG_ISLAST1 tid
  else s

/-- The island charges VSTORE: it is selected, or an UNLOCK waits, without the main supplies (R173). -/
def State.charging (s : State) : Bool := !s.tag.pulse && (s.tag.unlockWait || (s.tag.selected && !s.mainUp))

/-- UNLOCK. A selection fires at most one pulse. -/
def tagUnlock (s : State) : State :=
  if s.tagTakes = false ∨ s.tag.selected = false then s
  else
    match s.tag.authEntry with
    | none => s.tagSw [] 0x69 0x82
    | some n =>
      let tid := match tfind s.envm.entries n with | some e => e.tid | none => 0
      if s.mainUp then
        ((s.resume 8).isLast cPending false true n tid).raise .island |>.modTag fun t => { t with isackWait := true }
      else if s.tag.fired then s.tagSw [] 0x69 0x82
      else s.modTag fun t => { t with unlockWait := true, pulseEntry := n, pulseTid := tid }

/-- VSTORE reaches 6.0 V for a waiting UNLOCK. -/
def vstoreCharged (s : State) : State :=
  if s.tag.unlockWait then
    s.modTag fun t => { t with unlockWait := false, pulse := true, unlockH := true, fired := true }
  else s

/-- The pulse ends: it is answered and logged; where the field has gone and the reserve cannot write, the record waits for
the next presence. -/
def pulseEnd (reserveOk : Bool) (s : State) : State :=
  if s.tag.pulse = false then s
  else
    let t := s.tag
    let r := toLE 4 t.c.toNat ++ [cOk, 0x01, by8 t.pulseEntry, 0] ++ toLE 4 t.pulseTid.toNat
    let s := (s.modTag fun t => { t with pulse := false, unlockH := false }).isLast cOk true false t.pulseEntry t.pulseTid
    if t.field then (s.addLog r).tagSw [] 0x90 0x00
    else if reserveOk then s.addLog r
    else { s with envm := { s.envm with logHeld := some r } }

/-- VSTORE is not charged WTX_S seconds after the UNLOCK. -/
def vstoreTimeout (s : State) : State :=
  if s.tag.unlockWait then
    let s := s.modTag fun t => { t with unlockWait := false }
    (s.isLast cFieldWeak false false s.tag.pulseEntry s.tag.pulseTid).weak
  else s

/-- The island answers the phone with the outcome of an UNLOCK that Peat decided. -/
def State.isackEnd (s : State) (status : Byte) (a b : Nat) : State :=
  let s := ((s.srf aTAG_ISLAST0 31 24 status.toNat).srb aTAG_ISLAST0 22 false).modTag fun t => { t with isackWait := false }
  (s.logSel status 2).tagSw [] a b

/-- Delivers Peat's status to the island (R172); after WTX_S it has no effect (R181). -/
def State.isack (s : State) (status : Byte) : State :=
  if s.tag.isackWait then
    (if status = cOk then s.isackEnd status 0x90 0x00 else s.isackEnd status 0x69 0x85)
  else s.srb aTAG_ISLAST0 22 false

/-- A write of TAG_ISACK. -/
def tagIsack (v : Word) (s : State) : State :=
  let s := s.srf aTAG_ISACK 7 0 (fld v 7 0)
  if bit v 8 then s.isack (by8 (fld v 7 0)) else s

/-- Peat does not write TAG_ISACK within WTX_S. -/
def isackTimeout (s : State) : State := if s.tag.isackWait then s.isackEnd cAborted 0x6F 0x00 else s

/-- STATUS. -/
def islandStatus (mv : Nat) (s : State) : State :=
  if s.tagTakes ∧ s.tag.selected then s.tagOk [by8 (min 255 (mv / 50)), by8 (b2n s.mainUp)] else s

/-- An APDU that the island does not know. -/
def unknownApdu (cla : Nat) (s : State) : State :=
  if s.tagTakes ∧ s.tag.selected then
    (if cla = 0x80 ∨ cla = 0 then s.tagSw [] 0x6D 0x00 else s.tagSw [] 0x6E 0x00)
  else s

/-- The selection ends without an answer and without a pulse (R181, R466). -/
def State.tagCut (s : State) : State :=
  s.endSelection.modTag fun t => { t with unlockWait := false, isackWait := false, pulse := false, unlockH := false,
                                          pendingAnswer := false, answer := [], delayFc := 0, fieldWaits := none }

/-- FIELD_PRESENCE (R168). -/
def execFieldPresence (s : State) : Result := done (fieldPresent s)
/-- ISLAND_READY (R169). -/
def execIslandReady (s : State) : Result := done (islandReady s)
/-- FIELD_LOSS (R179). -/
def execFieldLoss (s : State) : Result := done (fieldLost s)
/-- TAG_REQA (R165): the last bit of 0x26 is 0. -/
def execTagReqa (s : State) : Result := done (tagRequest false s)
/-- TAG_WUPA (R165): the last bit of 0x52 is 1. -/
def execTagWupa (s : State) : Result := done (tagRequest true s)
/-- TAG_ANTICOLLISION (R165). -/
def execTagAnticollision (bits : Nat) (uid : Bytes) (s : State) : Result := done (tagAnticollide bits uid s)
/-- TAG_SELECT (R164). -/
def execTagSelect (uid : Bytes) (s : State) : Result := done (tagSelected uid s)
/-- TAG_RATS (R164). -/
def execTagRats (s : State) : Result := done (tagRats s)
/-- TAG_PPS (R164). -/
def execTagPps (dri dsi : Nat) (s : State) : Result := done (tagPps dri dsi s)
/-- SELECT_ISLAND (R169). -/
def execSelectIsland (s : State) : Result := done (selectIsland s)
/-- SELECT_OTHER (R167). -/
def execSelectOther (apdu : Bytes) (s : State) : Result := done (selectOther apdu s)
/-- FORWARDED_APDU (R167). -/
def execForwardedApdu (apdu : Bytes) (s : State) : Result := done (forwardedApdu apdu s)
/-- FORWARD_ANSWER (R167). -/
def execForwardAnswer (s : State) : Result := done (forwardAnswer s)
/-- FORWARD_TIMEOUT (R167). -/
def execForwardTimeout (s : State) : Result := done (forwardTimeout s)
/-- WTX_FWT_EXPIRY (R166). -/
def execWtxFwtExpiry (s : State) : Result := done (wtxExpired s)
/-- ISLAND_AUTH (R171). -/
def execIslandAuth (tid np macP : Bytes) (waited30s : Bool) (s : State) : Result := done (islandAuth tid np macP waited30s s)
/-- READ_RECORD (R170). -/
def execReadRecord (p1 p2 : Nat) (s : State) : Result := done (readRecord p1 p2 s)
/-- UPDATE_RECORD (R179). -/
def execUpdateRecord (p1 p2 : Nat) (data : Bytes) (vharvMv : Nat) (s : State) : Result := done (updateRecord p1 p2 data vharvMv s)
/-- UNLOCK (R172). -/
def execUnlock (s : State) : Result := done (tagUnlock s)
/-- ISLAND_STATUS (R170). -/
def execIslandStatus (vstoreMv : Nat) (s : State) : Result := done (islandStatus vstoreMv s)
/-- UNKNOWN_APDU (R170). -/
def execUnknownApdu (cla _ins : Nat) (s : State) : Result := done (unknownApdu cla s)
/-- VSTORE_CHARGED (R173). -/
def execVstoreCharged (s : State) : Result := done (vstoreCharged s)
/-- PULSE_END (R173). -/
def execPulseEnd (reserveOk : Bool) (s : State) : Result := done (pulseEnd reserveOk s)
/-- VSTORE_TIMEOUT (R173). -/
def execVstoreTimeout (s : State) : Result := done (vstoreTimeout s)
/-- TAG_ISACK (R172). -/
def execTagIsack (m : Master) (v : Word) (s : State) : Result := done (s.owned m aTAG_ISACK (tagIsack (v ||| 0x100)))
/-- ISACK_TIMEOUT (R181). -/
def execIsackTimeout (s : State) : Result := done (isackTimeout s)
/-- ISLAND_GLITCH (R466). -/
def execIslandGlitch (s : State) : Result := done s.tagCut
/-- HOST_RECORD_READ (R180). -/
def execHostRecordRead (m : Master) (v : Word) (s : State) : Result :=
  done (s.owned m aTAG_HCMD (tagHcmd (setFld (v ||| 0x40000) 17 16 1)))
/-- HOST_RECORD_WRITE (R180). -/
def execHostRecordWrite (m : Master) (v : Word) (s : State) : Result :=
  done (s.owned m aTAG_HCMD (tagHcmd (setFld (v ||| 0x40000) 17 16 2)))
/-- FIELD_WRITE_END (R180). -/
def execFieldWriteEnd (s : State) (vharvMv : Nat := 3300) : Result := done (fieldWriteEnd vharvMv s)
/-- HCMD_DONE (R180). -/
def execHcmdDone (s : State) : Result := done (hcmdDone s)

end Machine
end Sys2Proof
end

