-- ==== Sys2Proof/Machine/Radio.lean ====
section
/-!
DEFINITION. The UWB radio (R182 to R209): operations, their timeline, walks, calibration, tuning and results.
-/
namespace Sys2Proof
namespace Machine

/-! ### Profiles (R182; UWB_PROFILEn) -/

/-- Channel 9. -/
def profCh9 (w : Word) : Bool := bit w 31
/-- RXMASK. -/
def profMask (w : Word) : Nat := fld w 27 24
/-- PORT. -/
def profPort (w : Word) : Nat := fld w 21 20
/-- The channel number. -/
def profChannel (w : Word) : Nat := if profCh9 w then 9 else 5
/-- COUNT. -/
def profCount (w : Word) : Nat := popCount 4 (profMask w)

/-- Steps of the SYNC and the SFD (R191): 496 chips a symbol with BPRF. -/
def profShr (w : Word) : Nat :=
  if bit w 10 then 128 * Config.uwbShrHprf w else 128 * 496 * (32 * 2 ^ fld w 15 14 + 8)

/-! ### Operations -/

/-- CMD. -/
def uwbCmd (o : UwbOp) : Nat := fld o.w0 31 28
/-- SCHED, of TX and RX alone. -/
def uwbSched (o : UwbOp) : Bool := bit o.w0 27 && decide (uwbCmd o = 1 ∨ uwbCmd o = 2)
/-- ROUND. -/
def uwbRound (o : UwbOp) : Nat := fld o.w0 23 16
/-- ARG. -/
def uwbArg (o : UwbOp) : Nat := fld o.w0 7 0
/-- WINDOW in µs. -/
def uwbWindow (o : UwbOp) : Nat := fld o.w2 31 16
/-- The operation is one of a ranging slot. -/
def uwbRanging (o : UwbOp) : Bool := decide (128 ≤ o.chan)

/-- An operation of nothing. -/
def opNil : UwbOp :=
  { id := 0, chan := 0, w0 := 0, w2 := 0, payload := [], time := 0, profile := 0, late := false, recal := false,
    stale := false, mismatch := false, walked := false, rl := 0, port := 0, todo := [], words := [], delay := 0,
    pdoa := [], ref := 0, fin := none, cal := none, heard := false, gain := 0, sts := [],
    fromLive := false, mixed := false }

/-- The operations that have not ended. -/
def State.uwbLive (s : State) : List UwbOp := s.uwb.ops.filter fun o => o.fin.isNone

/-- The operation that holds the radio. -/
def State.uwbCur (s : State) : Option UwbOp :=
  match s.uwb.cur with
  | some i => s.uwbLive.find? fun o => decide (o.id = i)
  | none => none

/-- Changes an operation. -/
def State.modOp (s : State) (i : Nat) (f : UwbOp → UwbOp) : State :=
  { s with uwb := { s.uwb with ops := s.uwb.ops.map fun o => if o.id = i then f o else o } }

/-- STATE. -/
def State.radio (s : State) : Nat := s.rf aUWB_STATE 2 0

/-- Takes the radio to a state. -/
def State.setRadio (s : State) (n : Nat) : State :=
  (s.srf aUWB_STATE 2 0 n).onlyIf (decide (n < 4)) fun s => (s.srb aUWB_STATE 5 false).srb aUWB_FLAGS 3 false

/-- Sampled conditions are shown in UWB_CONDS. -/
def State.setConds (s : State) (temp : Int) (vdd : Nat) : State :=
  (s.internalSlots 2).setReg aUWB_CONDS (w32 (vdd % 65536 * 65536 + unsgn 8 (clampI (-128) 127 temp)))

/-- The state of the synthesiser's calibrations against the conditions (R195), and of what drifted while locked (R196): due
for a channel. -/
def State.synDue (s : State) (ch9 : Bool) (temp : Int) (vdd : Nat) : Bool :=
  let c := s.reg (aUWB_SYNCAL (b2n ch9))
  !bit c 31 || testBit s.uwb.lockCal (b2n ch9) || decide (8 < (sgn 8 (fld c 23 16) - temp).natAbs ∨ 150 < ((fld c 15 0 : Int) - vdd).natAbs)

/-- The synthesiser is locked on a channel. -/
def State.lockedOn (s : State) (ch9 : Bool) : Bool := s.rb aUWB_STATE 5 && (s.rb aUWB_STATE 6 == ch9)

/-- The conditions are sampled: a locked synthesiser that has drifted is SYN_STALE, and its next lock calibrates (R196). -/
def State.sampleConds (s : State) (temp : Int) (vdd : Nat) : State :=
  (s.setConds temp vdd).onlyIf (s.rb aUWB_STATE 5 && s.synDue (s.rb aUWB_STATE 6) temp vdd) fun s =>
    { s.srb aUWB_FLAGS 3 true with uwb := { s.uwb with lockCal := putBit s.uwb.lockCal (b2n (s.rb aUWB_STATE 6)) true } }

/-! ### Chain time (R233) -/

/-- The unit's address in ranging: the head's is 1 (R452). -/
def State.rngUnit (s : State) : Nat := if s.isHead then 1 else s.unit

/-- DIST_ALIGN, as a signed number of steps. -/
def State.alignOffset (s : State) : Int :=
  sgn 40 ((s.reg aDIST_ALIGN_LO).toNat + s.rf aDIST_ALIGN_HI 7 0 * 2 ^ 32)

/-- AGE_MS of the last time transfer (R234); none before the first. -/
def State.alignAge (s : State) : Nat :=
  match s.cwy.alignAt with
  | some t => min 0xFFFF ((s.now - t) / 27120)
  | none => 0xFFFF

/-- ALIGN_OK (R234). -/
def State.alignOk (s : State) : Bool :=
  s.isHead || decide (s.cwy.expired = false ∧ s.alignAge ≤ 50 ∧ s.rf aDIST_ALIGNQ 15 0 ≤ 160)

/-- The conversion as it stands, which a round takes up at its start (R233). -/
def State.alignNow (s : State) : Align :=
  { offset := if s.isHead then 0 else s.alignOffset, rate := if s.isHead then 0 else sgn 32 (s.reg aDIST_RATE).toNat,
    offAt := (s.cwy.alignAt.getD 0 - s.tsOrigin) * 266240 / 113 % 2 ^ 40, ok := s.alignOk }

/-- A slot's length in steps (R216). -/
def slotSteps : Nat := 95846400

/-- The slots of a fused plan. -/
def fusedSlots (p : FusedPlan) : List PlanSlot :=
  p.units.zipIdx.map fun x =>
    { idx := x.2, unit := x.1, ses := p.ses, gen := p.gen, fused := true, num := p.num + x.2, past := false,
      start := (p.start + x.2 * slotSteps) % 2 ^ 40 }

/-- A slot is one of a fused plan. -/
def ofPlan (x : PlanSlot) (p : FusedPlan) : Bool :=
  x.fused && decide ((x.start + 2 ^ 40 - p.start % 2 ^ 40) % 2 ^ 40 < p.units.length * slotSteps)

/-- The fused round that a slot belongs to. -/
def State.runOf (s : State) (x : PlanSlot) : Option FusedRun := s.dist.fused.find? fun f => ofPlan x f.plan

/-- The conversion of a slot's round: as it stands where a fused round has not begun. -/
def State.alignFor (s : State) (x : PlanSlot) : Align :=
  if x.fused then (match s.runOf x with | some f => f.align | none => s.alignNow) else s.dist.reg

/-- A local TS value in chain time (R233). -/
def Align.toChain (a : Align) (t : Nat) : Nat := unsgn 40 (t + a.offset + a.rate * tsAhead t a.offAt / 2 ^ 32)

/-- A chain time in local TS. -/
def Align.toLocal (a : Align) (c : Nat) : Nat :=
  let t := unsgn 40 ((c : Int) - a.offset)
  unsgn 40 ((c : Int) - a.offset - a.rate * tsAhead t a.offAt / 2 ^ 32)

/-- Chain time now, in a regular round. -/
def State.chainNow (s : State) : Nat := s.dist.reg.toChain s.tsNow

/-- The local start of a slot. -/
def State.slotStart (s : State) (x : PlanSlot) : Nat := (s.alignFor x).toLocal x.start

/-- Some of a span of time from now, in steps, belongs to the ranging block: 50 µs before the start of a slot that the unit
ranges or listens in, to its end, those of fused rounds that wait for their start with them (R231, R235). -/
def State.reserved (s : State) (p q : Int) : Bool :=
  ((s.dist.plan ++ (s.dist.cur.map fun r => r.slot) ++ s.dist.fuseReqs.flatMap fusedSlots).filter
    fun x => decide (x.unit = s.rngUnit) || x.fused).any fun x =>
    let a := tsAhead (s.slotStart x) s.tsNow
    decide (p < a + slotSteps ∧ a - tsUs 50 < q)

/-! ### Results (R192, R206) -/

/-- The words of a result. -/
def uwbWords (o : UwbOp) (status : Byte) (frame : Bool) (len ts : Nat) : List Word :=
  [w32 (status.toNat * 2 ^ 24 + uwbCmd o * 2 ^ 20 + b2n o.late * 2 ^ 19 + b2n o.mismatch * 2 ^ 18 + b2n o.recal * 2 ^ 17 +
      b2n o.stale * 2 ^ 16 + uwbRound o * 2 ^ 8 + b2n frame * 2 ^ 7 + len % 128),
   w32 (ts % 2 ^ 32),
   w32 (o.rl * 2 ^ 24 + o.port * 2 ^ 20 + (if uwbCmd o = 2 then profMask o.profile else 0) * 2 ^ 16 + ts / 2 ^ 32 % 256)] ++
  o.words

/-- Commits the results of ended operations, those of a channel in acceptance order. -/
def uwbSweep : List Nat → List UwbOp → State → List UwbOp × State
  | _, [], s => ([], s)
  | seen, o :: t, s =>
    match o.fin with
    | some r =>
      if o.chan ∈ seen then
        let x := uwbSweep seen t s
        (o :: x.1, x.2)
      else uwbSweep seen t (if uwbRanging o then s else s.feResult 6 o.chan r.1 r.2)
    | none =>
      let x := uwbSweep (o.chan :: seen) t s
      (o :: x.1, x.2)

/-- Sweeps the operations. -/
def State.uwbSettle (s : State) : State :=
  let r := uwbSweep [] s.uwb.ops s
  { r.2 with uwb := { r.2.uwb with ops := r.1 } }

/-- Changes the placed slot that an operation belongs to. -/
def State.modSlot (s : State) (ref : Nat) (f : RngSlot → RngSlot) : State :=
  { s with dist := { s.dist with cur := s.dist.cur.map fun r => if r.slot.start = ref then f r else r } }

/-- The frames of a slot after one are withdrawn (R219). -/
def State.slotStops (s : State) (o : UwbOp) : State :=
  { s with uwb := { s.uwb with ops := s.uwb.ops.filter fun x => !decide (x.ref = o.ref ∧ o.chan < x.chan) } }

/-- The slot of an operation is the unit's own. -/
def State.ownSlot (s : State) (o : UwbOp) : Bool :=
  s.dist.cur.any fun r => decide (r.slot.start = o.ref ∧ r.slot.unit = s.rngUnit)

/-- What the end of a ranging slot's operation means to the slot: a frame that was not sent sets TX_LATE, a session that is
gone NO_SESSION; without its POLL or its RESP a slot sends nothing more (R219, R240). -/
def State.slotOp (s : State) (o : UwbOp) (status : Byte) (frame : Bool) : State :=
  if uwbRanging o = false then s
  else if status = cNoSession then s.modSlot o.ref fun r => { r with noSession := true }
  else
    let late := decide (isFail status ∧ o.chan % 2 = 0)
    let s := s.onlyIf late fun s => s.modSlot o.ref fun r => { r with reason := r.reason ||| 4 }
    s.onlyIf (s.ownSlot o && decide (o.chan = 128 ∧ late = true ∨ o.chan = 129 ∧ frame = false)) fun s => s.slotStops o

/-- The walk of a dropped transmit goes on: a recalibration that it has to make is made (R192, R199). -/
def orphanOf (o : UwbOp) (status : Byte) : Option UwbOp :=
  if uwbCmd o = 1 ∧ o.todo ≠ [] ∧ (status = cTxLate ∨ status = cCancelled ∨ status = cNoSession) then some o else none

/-- An operation ends with a status, FRAME, payload and time; the bytes of an unpredictable result are free. Where it frees room
among 64 scheduled ones, the commands that have been committed so far have waited for it (R189). -/
def State.opFinish (s : State) (o : UwbOp) (status : Byte) (frame : Bool) (payload : Bytes) (ts : Nat) : State :=
  let mixed := s.uwb.ops.any fun x => decide (x.id = o.id) && x.mixed
  let plain := ofWords (uwbWords o status frame payload.length ts) ++ payload
  let f := s.freeBytes plain.length
  let bytes := if mixed then f.1 else plain
  let s := s.onlyIf mixed fun _ => f.2
  let s := s.onlyIf (decide (64 ≤ s.uwbPending)) fun s => { s with uwb := { s.uwb with waitNo := s.commits } }
  let s := (s.modOp o.id fun o => { o with fin := some (status, bytes) }).slotOp o status frame
  let s := s.onlyIf (decide (status = cTxLate)) fun s => s.srb aUWB_FLAGS 2 true
  if s.uwb.cur = some o.id then { s with uwb := { s.uwb with cur := none, orphan := orphanOf o status } }.srb aUWB_FLAGS 7 false
  else s

/-- The later accepted operations of the channel with the same ROUND are cancelled (R192); a frame that is in TX is sent in
full (log entry 61). -/
def State.cancelRound (s : State) (o : UwbOp) : State :=
  s.each (s.uwbLive.filter fun x =>
      decide (x.chan = o.chan ∧ o.id < x.id ∧ uwbRound x = uwbRound o ∧ ¬ (s.uwb.cur = some x.id ∧ s.radio = 6) ∧
        x.chan < 128))
    fun s x =>
      (s.onlyIf (decide (s.uwb.cur = some x.id ∧ (s.radio = 5 ∨ s.radio = 7 ∧ uwbCmd x ≠ 1))) fun s => s.setRadio 4).opFinish x cCancelled
        false [] s.tsNow

/-- An operation that ends a round fails, and its ROUND is cancelled. -/
def State.opDrop (s : State) (o : UwbOp) (status : Byte) : State :=
  ((s.opFinish o status false [] s.tsNow).cancelRound o).uwbSettle

/-- An operation fails alone. -/
def State.opFail (s : State) (o : UwbOp) (status : Byte) : State := (s.opFinish o status false [] s.tsNow).uwbSettle

/-- The radio is held: by an operation, a walk, a transition, or the recalibration of a walk whose transmit was dropped. -/
def State.radioHeld (s : State) : Bool :=
  s.uwb.cur.isSome || s.uwb.walk.isSome || s.uwb.down || s.uwb.orphan.isSome

/-- After its last operation the radio holds SYNTH, or goes on to STANDBY and SLEEP where HOLD or SLEEP_AFTER is 0 (R187). -/
def State.radioRest (s : State) : State :=
  if s.radioHeld then s
  else if s.radio = 4 ∧ s.rf aUWB_IDLECFG 15 0 = 0 ∨ s.radio = 2 then
    s.setRadio (if s.rf aUWB_IDLECFG 31 16 = 0 then 0 else 2)
  else s

/-! ### Acceptance (R189, R190, R205, R207) -/

/-- Faulted ports, as a mask. -/
def State.faultPorts (s : State) : Nat := maskOf ((List.range 4).filter fun i => s.rb (aUWB_PORT i) 31)

/-- The first check that a command fails (R207). -/
def uwbRefusal (s : State) (o : UwbOp) : Byte :=
  let c := uwbCmd o
  let sts := fld o.profile 17 16
  firstOf [
    ((decide (c = 1) && testBit s.faultPorts (profPort o.profile)) ||
      (decide (c = 7) && decide (uwbArg o &&& 15 &&& s.faultPorts ≠ 0)), cAlarm),
    (decide ((c = 1 ∧ sts = 1 ∧ uwbArg o = 0) ∨ (c = 2 ∧ uwbWindow o = 0) ∨ ((c = 6 ∨ c = 7) ∧ uwbArg o = 0)), cLenZero),
    (decide (c = 0 ∨ 7 < c ∨ (c = 1 ∧ sts = 1 ∧ 125 < uwbArg o) ∨ (c = 1 ∧ sts = 3 ∧ uwbArg o ≠ 0) ∨
      (c = 6 ∧ 7 < uwbArg o) ∨ (c = 7 ∧ 15 < uwbArg o)), cAuthFail),
    (decide (c ≠ 3 ∧ c ≠ 4) && !profileOk o.profile true, cAuthFail),
    (decide (c = 1 ∨ c = 2) && !s.boundTo o.chan (s.rf (aCHN_BIND o.chan) 15 8), cNoSession),
    (decide (c = 1) && uwbSched o && decide (tsAhead o.time s.tsNow < tsUs 200), cTxLate)]

/-- The operation of a command's packet. -/
def uwbOpOf (s : State) (ch : Nat) (p : Packet) : UwbOp :=
  let w0 := jobWord p 0
  let w2 := jobWord p 2
  let sched := bit w0 27 && decide (fld w0 31 28 = 1 ∨ fld w0 31 28 = 2)
  { opNil with
    id := s.uwb.nextId, chan := ch, w0 := w0, w2 := w2,
    payload := if fld w0 31 28 = 1 then slice ((p.items.drop 3).flatMap itemBytes) 0 (fld w0 7 0) else [],
    time := if sched then fld w2 7 0 * 2 ^ 32 + (jobWord p 1).toNat else s.tsNow,
    profile := s.reg (aUWB_PROFILE (fld w0 26 24)),
    port := if fld w0 31 28 = 1 then profPort (s.reg (aUWB_PROFILE (fld w0 26 24))) else 0 }

/-- Adds an operation to the accepted ones. -/
def State.opAccept (s : State) (o : UwbOp) : State :=
  { s with uwb := { s.uwb with ops := s.uwb.ops ++ [{ o with id := s.uwb.nextId }], nextId := s.uwb.nextId + 1 } }

/-- A command of a code is taken from its channel's INQ. Commands with an unknown code are taken by any row; a packet that
broke while it was read completes with FAULT_ALARM (R506). -/
def uwbTake (code ch : Nat) (s : State) : State :=
  match s.feHead ch [5] with
  | none => s
  | some p =>
    let o := uwbOpOf s ch p
    if (uwbCmd o = code ∨ uwbCmd o = 0 ∨ 7 < uwbCmd o) ∧ (uwbSched o = false ∨ s.uwbPending < 64) then
      let bad := if packetBroken p then cAlarm else uwbRefusal s o
      let s := ((s.feTake ch).countBroken (s.rf (aCHN_QUEUES ch) 3 0) p).opAccept o
      if bad = cOk then s else s.opFail o bad
    else s

/-! ### Calibration records (R197 to R200) -/

/-- A record of the section. -/
def calOf (b : Bytes) : CalRec :=
  { kind := byteAt b 0, port := byteAt b 1, channel := byteAt b 2, count := byteAt b 3, temp := sgn 8 (byteAt b 4),
    tune := byteAt b 5, vdd12 := le16 b 6, txgain := byteAt b 8, delay := le16 b 0xA, pdoa1 := sgn 16 (le16 b 0xC),
    pdoa2 := sgn 16 (le16 b 0xE), pdoa3 := sgn 16 (le16 b 0x10), detRef := le16 b 0x12 }

/-- The records of the section. -/
def State.calSection (s : State) : List CalRec :=
  match s.sect 12 1 with
  | some b => (chunks 32 b.length b).map calOf
  | none => []

/-- A record is fresh under the conditions (R198). -/
def calFresh (temp : Int) (vdd : Nat) (r : CalRec) : Bool :=
  decide ((r.temp - temp).natAbs ≤ 8 ∧ ((r.vdd12 : Int) - vdd).natAbs ≤ 150)

/-- The nearer record in TEMP; the first, which comes from the live records, or the lower TEMP where they are as near. -/
def calNearer (temp : Int) (a b : Bool × CalRec) : Bool × CalRec :=
  let da := (a.2.temp - temp).natAbs
  let db := (b.2.temp - temp).natAbs
  if db < da ∨ (db = da ∧ a.1 = b.1 ∧ b.2.temp < a.2.temp) then b else a

/-- The fresh candidate nearest in TEMP (R198). -/
def State.calLookup (s : State) (kind port : Nat) (profile : Word) (temp : Int) (vdd : Nat) : Option CalRec :=
  let l := (s.uwb.live.map fun r => (true, r)) ++ (s.calSection.map fun r => (false, r))
  match l.filter fun x => decide (x.2.kind = kind ∧ x.2.port = port ∧ x.2.channel = profChannel profile ∧
      x.2.count = profCount profile) && calFresh temp vdd x.2 with
  | [] => none
  | x :: t => some (t.foldl (calNearer temp) x).2

/-- The section record of a kind, port and channel, of any COUNT, nearest in TEMP. -/
def State.calNearest (s : State) (kind port channel : Nat) (temp : Int) : Option CalRec :=
  match (s.calSection.filter fun r => decide (r.kind = kind ∧ r.port = port ∧ r.channel = channel)).map fun r => (false, r) with
  | [] => none
  | x :: t => some (t.foldl (calNearer temp) x).2

/-- Keeps a live record: in place of one of the same KIND, PORT, CHANNEL and COUNT, or of the oldest of 16 (R200). -/
def State.keepLive (s : State) (r : CalRec) : State :=
  let l := s.uwb.live.filter fun x =>
    !decide (x.kind = r.kind ∧ x.port = r.port ∧ x.channel = r.channel ∧ x.count = r.count)
  { s with uwb := { s.uwb with live := (if 16 ≤ l.length then l.drop 1 else l) ++ [r] } }

/-- A five-step search (R202): at each step the reflected power with the bit clear and with it set; the code of the lower
one is kept. -/
def uwbSearch : Nat → Nat → List Nat → Nat
  | k + 1, code, a :: b :: t => uwbSearch k (if b < a then code + 2 ^ k else code) t
  | _, code, _ => code

/-- A port's tuner code is replaced until the next start or resume (R202). -/
def State.setTune (s : State) (port code : Nat) : State :=
  let s := s.srf (aUWB_PORT port) 4 0 code
  { s with uwb := { s.uwb with tuned := putBit s.uwb.tuned port true } }

/-- A port has been tuned: the retune that it wanted is made (R202, R203). -/
def State.retuned (s : State) (port code : Nat) : State :=
  let s := s.setTune port code
  { s with uwb := { s.uwb with retune := putBit s.uwb.retune port false } }

/-- A recalibration makes a live record: kind 1 from ten readings of reflected power and the gain code found, kind 2 from
PDOA1 to PDOA3. None where no section record gives DELAY (R200). -/
def State.recalibrate (s : State) (kind : Nat) (profile : Word) (temp : Int) (vdd : Nat) (meas : List Nat) :
    Option (CalRec × State) :=
  let port := if kind = 1 then profPort profile else 0
  match s.calNearest kind port (profChannel profile) temp with
  | none => none
  | some n =>
    let code := uwbSearch 5 0 meas
    let r : CalRec :=
      { kind := kind, port := port, channel := profChannel profile, count := profCount profile,
        temp := clampI (-128) 127 temp, tune := if kind = 1 then code else 0, vdd12 := vdd,
        txgain := if kind = 1 then meas.getD 10 0 % 64 else 0, delay := n.delay,
        pdoa1 := if kind = 2 then sgn 16 (meas.getD 0 0 % 65536) else 0,
        pdoa2 := if kind = 2 then sgn 16 (meas.getD 1 0 % 65536) else 0,
        pdoa3 := if kind = 2 then sgn 16 (meas.getD 2 0 % 65536) else 0, detRef := n.detRef }
    some (r, (s.keepLive r).onlyIf (decide (kind = 1)) fun s => s.retuned port code)

/-! ### Walks (R186, R189, R191) -/

/-- The AUTO_RECAL flag of a channel's template, or for the ranging block the ranging section's (R231). -/
def State.recalOn (s : State) (ch : Nat) : Bool :=
  if 128 ≤ ch then (match s.sect 5 0 with | some b => testBit (byteAt b 0x1B) 0 | none => false)
  else testBit (byteAt (s.chTemplate ch) 7) 0

/-- The AUTO_RECAL flag of an operation. -/
def State.autoRecal (s : State) (o : UwbOp) : Bool := s.recalOn o.chan

/-- An AUTO_RECAL user of the radio has used a record (R200). -/
def State.usedRec (s : State) (o : UwbOp) (r : CalRec) : State :=
  s.onlyIf (s.autoRecal o) fun s =>
    { s with uwb := { s.uwb with lastRec := tput s.uwb.lastRec (min 128 o.chan) (r, o.profile) } }

/-- The moment of an operation's last transition (R191). -/
def uwbArm (o : UwbOp) : Int :=
  (o.time : Int) - (if uwbCmd o = 1 then profShr o.profile + tsUs 4 else tsUs 6)

/-- Steps from now to the arm point of a scheduled operation. -/
def State.armIn (s : State) (o : UwbOp) : Int :=
  tsAhead o.time s.tsNow - ((o.time : Int) - uwbArm o)

/-- The scheduled operation whose arm point comes first, among those of a list. -/
def State.firstArm (s : State) : List UwbOp → Option UwbOp
  | [] => none
  | o :: t =>
    match s.firstArm t with
    | some x => if s.armIn x < s.armIn o then some x else some o
    | none => some o

/-- Steps of the path to SYNTH on a channel from SLEEP, from STANDBY, or from SYNTH on a channel, with a lock of so many
µs (R186). -/
def walkSteps (radio : Nat) (locked : Option Bool) (ch9 : Bool) (lock : Nat) : Int :=
  match locked with
  | some c => if c = ch9 then 0 else tsUs (2 + lock)
  | none => tsUs ((if radio = 0 then 450 else 0) + lock)

/-- The channel that the synthesiser is locked on. -/
def State.lockedCh (s : State) : Option Bool := if s.rb aUWB_STATE 5 then some (s.rb aUWB_STATE 6) else none

/-- A transmit needs a recalibration first (R199). -/
def State.needsRecal (s : State) (o : UwbOp) (temp : Int) (vdd : Nat) : Bool :=
  decide (uwbCmd o = 1) && s.autoRecal o && (s.calLookup 1 (profPort o.profile) o.profile temp vdd).isNone

/-- Steps from now to the start of a scheduled operation's walk with a lock of so many µs, from a state of the radio (R191,
R199). -/
def State.walkFor (s : State) (lock radio : Nat) (locked : Option Bool) (o : UwbOp) (temp : Int) (vdd : Nat) : Int :=
  s.armIn o - walkSteps radio locked (profCh9 o.profile) lock - ((if s.needsRecal o temp vdd then tsUs 60 else 0 : Nat) : Int) -
    tsUs 10

/-- The lock that a scheduled operation's walk takes, in µs: as decided, or else as the conditions are now (R191). -/
def State.lockUs (s : State) (o : UwbOp) (temp : Int) (vdd : Nat) : Nat :=
  if o.cal.getD (s.synDue (profCh9 o.profile) temp vdd) then 210 else 38

/-- Steps from now to the start of a scheduled operation's walk, from a state of the radio. -/
def State.startIn (s : State) (radio : Nat) (locked : Option Bool) (o : UwbOp) (temp : Int) (vdd : Nat) : Int :=
  s.walkFor (s.lockUs o temp vdd) radio locked o temp vdd

/-- Steps from now to the close of a receive (R194). -/
def State.closeIn (s : State) (o : UwbOp) : Int := tsAhead (o.time + tsUs (uwbWindow o)) s.tsNow

/-- Steps from now to the end of a scheduled operation. -/
def State.schedEnd (s : State) (o : UwbOp) : Int :=
  if uwbCmd o = 1 then s.armIn o + tsUs 4 + Config.uwbFrame o.profile o.payload.length else s.closeIn o

/-- Steps from now to the end of an immediate operation that starts now (R186, R189). -/
def State.immediateEnd (s : State) (o : UwbOp) (temp : Int) (vdd : Nat) : Int :=
  let ch9 := profCh9 o.profile
  let walk := walkSteps s.radio s.lockedCh ch9 (if s.synDue ch9 temp vdd then 210 else 38)
  let fix : Nat := if s.needsRecal o temp vdd then tsUs 60 else 0
  match uwbCmd o with
  | 1 => walk + fix + tsUs 5 + Config.uwbFrame o.profile o.payload.length
  | 2 => max (walk + tsUs 7) (s.closeIn o)
  | 3 => tsUs (if s.radio = 4 then 7 else if s.radio = 2 then 5 else 0)
  | 4 => tsUs (if s.radio = 4 then 2 else if s.radio = 0 then 450 else 0)
  | 6 => (if testBit (uwbArg o) 0 then walkSteps s.radio (s.lockedCh.map fun _ => !ch9) ch9 210 else walk) +
      ((if testBit (uwbArg o) 1 then tsUs 60 else 0 : Nat) : Int) + ((if testBit (uwbArg o) 2 then tsUs 64 else 0 : Nat) : Int)
  | 7 => walk + tsUs (36 * popCount 4 (uwbArg o))
  | _ => walk

/-- The state that an immediate operation leaves the radio in, and the channel it is then locked on. -/
def uwbAfter (o : UwbOp) : Nat × Option Bool :=
  match uwbCmd o with
  | 3 => (0, none)
  | 4 => (2, none)
  | _ => (4, some (profCh9 o.profile))

/-- A channel's scheduled operation that does not get the radio yet: its time belongs to a ranging slot (R231), or it would
run into an operation that was accepted before it (R209). -/
def State.heldOff (s : State) (x : UwbOp) (temp : Int) (vdd : Nat) : Bool :=
  !uwbRanging x && (s.reserved (max 0 (s.armIn x)) (s.schedEnd x) ||
    s.uwbLive.any fun y => uwbSched y && !uwbRanging y && !y.walked &&
      decide (y.id < x.id ∧ s.armIn x ≤ s.armIn y ∧ s.startIn 4 (some (profCh9 x.profile)) y temp vdd < s.schedEnd x))

/-- The scheduled operations whose walks are to come. -/
def State.toWalk (s : State) (temp : Int) (vdd : Nat) : List UwbOp :=
  s.uwbLive.filter fun o => uwbSched o && !o.walked && !s.heldOff o temp vdd

/-- The operation that starts next: a scheduled one whose walk is due, or whose calibration is to be decided; else the first
immediate one, where it ends before the walk of the next scheduled one and before the next slot; else the scheduled one,
whose start the command vouches for (R189). -/
def State.nextWalk (s : State) (temp : Int) (vdd : Nat) : Option UwbOp :=
  let imm := (s.uwbLive.find? fun o => !uwbSched o && !o.walked).filter fun y => !s.reserved 0 (s.immediateEnd y temp vdd)
  match s.firstArm (s.toWalk temp vdd), imm with
  | some x, some y =>
    if s.startIn s.radio s.lockedCh x temp vdd ≤ 0 ∨ x.cal = none ∧ s.walkFor 210 s.radio s.lockedCh x temp vdd ≤ 0 then some x
    else if s.immediateEnd y temp vdd ≤ s.startIn (uwbAfter y).1 (uwbAfter y).2 x temp vdd then some y
    else some x
  | some x, none => some x
  | none, y => y

/-- A gap of so many µs from now ends before every arm point, walk start and slot (R200). -/
def State.gapFits (s : State) (us : Nat) (temp : Int) (vdd : Nat) : Bool :=
  ((s.uwbLive.filter fun o => uwbSched o && !o.walked).all fun o => decide ((tsUs us : Int) ≤ s.armIn o)) &&
  (s.toWalk temp vdd).all (fun o => decide ((tsUs us : Int) ≤ s.startIn s.radio s.lockedCh o temp vdd)) &&
    !s.reserved 0 (tsUs us)

/-- The session that holds a slot's ranging key on this unit: the head's own, its fused-key session, or a mirror (R213,
R215). -/
def State.slotSes (s : State) (x : PlanSlot) : Option Nat :=
  let headOk := !s.isHead || decide ((s.ses x.ses).st = .ready ∧ (s.ses x.ses).gen = x.gen ∧ (s.ses x.ses).suite = 1)
  if x.past ∨ headOk = false then none
  else if s.isHead ∧ x.fused = false then some x.ses
  else
    match tfind s.dist.map x.ses with
    | some l =>
      if (s.ses l).st = .ready ∧ (s.ses l).suite = 3 ∧ (x.fused = false ∨ (s.ses l).hasFused) then some l else none
    | none => none

/-- AES-128 in counter mode: n blocks under a key, from a 16-byte value whose last 32 bits count, most significant byte first
(R340; the step is the family's: log entry 73). -/
def ctrStream (key v : Bytes) (n : Nat) : Bytes :=
  (List.range n).flatMap fun i =>
    aesEnc key (slice v 0 12 ++ (toLE 4 (ofLE (slice v 12 4).reverse + i)).reverse)

/-- Blocks of STS bits of a profile (R182; log entry 73): a bit spans 8 chips with BPRF, 4 with HPRF. -/
def stsBlocks (w : Word) : Nat :=
  let units := 32 * 2 ^ fld w 13 12
  if bit w 10 then units else units / 2

/-- The STS of a frame of a slot: under K_STS or K_STS_F, from V_SEED or V_SEED_F followed by SC, most significant byte first
(R214, R215, R340). -/
def State.slotSts (s : State) (x : PlanSlot) (kind : Nat) (profile : Word) : Bytes :=
  match s.slotSes x with
  | none => []
  | some l =>
    let n := s.ses l
    ctrStream (slice n.slot (if x.fused then 32 else if s.isHead then 96 else 0) 16)
      (slice (if x.fused then n.vSeedF else n.vSeed) 0 12 ++ (toLE 4 (x.num * 8 + kind)).reverse) (stsBlocks profile)

/-- The placed slot of an operation. -/
def State.slotOf (s : State) (o : UwbOp) : Option RngSlot := s.dist.cur.find? fun r => decide (r.slot.start = o.ref)

/-- The session under which an operation was accepted is still READY. -/
def State.opSession (s : State) (o : UwbOp) : Bool :=
  if uwbRanging o then (match s.slotOf o with | some r => (s.slotSes r.slot).isSome | none => false)
  else s.boundTo o.chan (s.rf (aCHN_BIND o.chan) 15 8)

/-- The STS of an operation of a slot. -/
def State.opSts (s : State) (o : UwbOp) : Bytes :=
  if uwbRanging o then (match s.slotOf o with | some r => s.slotSts r.slot (o.chan - 128) o.profile | none => []) else []

/-- The radio stands in SYNTH with an operation: it calibrates what is left, ends, opens or waits for its arm point. -/
def State.radioReady (s : State) : State :=
  match s.uwbCur with
  | none => if s.uwb.orphan.isSome then s.setRadio 7 else s.radioRest
  | some o =>
    if o.todo ≠ [] then s.setRadio 7
    else
      match uwbCmd o with
      | 1 => s
      | 2 =>
        if uwbSched o ∧ o.late = false then s
        else if uwbSched o = false ∧ s.opSession o = false then (s.opDrop o cNoSession).radioRest
        else s.setRadio 5
      | _ => ((s.opFinish o cOk false [] s.tsNow).uwbSettle).radioRest

/-- Takes the radio towards SYNTH on a channel, from another lock by way of STANDBY, or stays there (R186). -/
def State.toSynth (s : State) (ch9 cal : Bool) : State :=
  if s.lockedOn ch9 ∧ cal = false then s.radioReady
  else { s with uwb := { s.uwb with walk := some (ch9, cal) } }.setRadio (if s.radio = 0 then 1 else if s.radio = 4 then 2 else 3)

/-- What a CAL or TUNE command has to do after the lock; a faulted port is left out (R201 to R203). -/
def uwbTodo (o : UwbOp) (faults : Nat) : List Nat :=
  if uwbCmd o = 6 then (if testBit (uwbArg o) 1 && !testBit faults (profPort o.profile) then [1] else []) ++ (if testBit (uwbArg o) 2 then [2] else [])
  else if uwbCmd o = 7 then ((bitsOf 4 (uwbArg o)).filter fun i => !testBit faults i).map (4 + ·)
  else []

/-- An operation whose walk has begun, with the record that it uses (R199, R206). -/
def State.walkedOp (s : State) (o : UwbOp) (r : Option CalRec) (fix : Bool) : UwbOp :=
  let c := uwbCmd o
  { o with
    walked := true, stale := decide (c = 2) && r.isNone,
    late := o.late || (!uwbSched o && decide (c = 1) && (!s.lockedOn (profCh9 o.profile) || fix)),
    todo := if fix then [1] else uwbTodo o s.faultPorts,
    fromLive := match r with | some c => decide (c ∈ s.uwb.live) | none => false,
    delay := (r.map CalRec.delay).getD 0, gain := (r.map CalRec.txgain).getD 0,
    pdoa := (r.map fun r => [r.pdoa1, r.pdoa2, r.pdoa3]).getD [] }

/-- A record is taken into use: a transmit's loads its tuner code (R198, R202). -/
def State.takeCal (s : State) (o : UwbOp) (r : Option CalRec) : State :=
  match r with
  | some r =>
    (s.usedRec o r).onlyIf (decide (uwbCmd o = 1) && !testBit s.uwb.tuned (profPort o.profile)) fun s =>
      s.srf (aUWB_PORT (profPort o.profile)) 4 0 r.tune
  | none => s

/-- SLEEP and STANDBY go on: at their end, or by the next transition, down or from SLEEP up (R186). -/
def State.restGoes (s : State) (o : UwbOp) : State :=
  let c := uwbCmd o
  if s.radio = (if c = 3 then 0 else 2) then ((s.opFinish o cOk false [] s.tsNow).uwbSettle).radioRest
  else if s.radio = 0 then s.setRadio 1
  else { s with uwb := { s.uwb with down := true } }

/-- SLEEP and STANDBY begin. -/
def State.restWalk (s : State) (o : UwbOp) : State :=
  ({ s with uwb := { s.uwb with cur := some o.id } }.modOp o.id fun o => { o with walked := true }).restGoes o

/-- An operation starts its walk: conditions are sampled, its record is looked up, its code is loaded (R191, R193, R198,
R199, R202). -/
def State.opWalk (s : State) (o : UwbOp) (temp : Int) (vdd : Nat) : State :=
  let s := s.sampleConds temp vdd
  let c := uwbCmd o
  let ch9 := profCh9 o.profile
  if c = 3 ∨ c = 4 then s.restWalk o
  else
    let r := if c ≤ 2 then s.calLookup c (if c = 1 then profPort o.profile else 0) o.profile temp vdd else none
    let stale := decide (c ≤ 2) && r.isNone
    let s := s.onlyIf stale fun s => s.srb aUWB_FLAGS 5 true
    if c = 1 ∧ stale ∧ s.autoRecal o = false then s.opFail o cCalStale
    else if c = 1 ∧ testBit s.faultPorts (profPort o.profile) then s.opDrop o cAlarm
    else
      let again := decide (c = 6) && testBit (uwbArg o) 0
      let cal := (o.cal.getD (s.synDue ch9 temp vdd) && !s.lockedOn ch9) || again
      let s := (s.modOp o.id fun _ => s.walkedOp o r (decide (c = 1) && stale)).takeCal o r
      { s with uwb := { s.uwb with cur := some o.id } }.toSynth ch9 cal

/-- The walk start of the next operation (R191). Calibration is decided once, at the latest calibrated start; where none is due,
the walk waits for its own start, which the next command is. A scheduled operation that finds the radio held by another waits
for its arm point (R209). The generator of STS has done its work for the slot (R340). -/
def uwbWalkStart (s : State) (temp : Int) (vdd : Nat) : State :=
  if s.resumed = false ∨ s.radioHeld ∨ s.radio = 1 ∨ s.radio = 3 then s
  else
    match s.nextWalk temp vdd with
    | none => s
    | some o =>
      let s := s.onlyIf (uwbRanging o) fun s => { s with eng := { s.eng with stsBusy := false } }
      if uwbSched o ∧ o.cal = none then
        let ch9 := profCh9 o.profile
        let o' := { o with cal := some (s.synDue ch9 temp vdd) }
        let s := s.modOp o.id fun _ => o'
        if s.synDue ch9 temp vdd = false ∧ s.lockedOn ch9 = false ∧ 0 < s.walkFor 38 s.radio s.lockedCh o temp vdd then s
        else s.opWalk o' temp vdd
      else s.opWalk o temp vdd

/-- The first calibration or tune of an operation's list is done. -/
def State.calDone (s : State) (o : UwbOp) (temp : Int) (vdd : Nat) (meas : List Nat) : State :=
  match o.todo with
  | [] => s.setRadio 4
  | k :: rest =>
    if k < 4 then
      match s.recalibrate k o.profile temp vdd meas with
      | none => ((s.setRadio 4).opFail o cCalStale).radioRest
      | some r =>
        let s := r.2.modOp o.id fun o => { o with
          todo := rest, delay := if uwbCmd o = 1 then r.1.delay else o.delay,
          gain := if uwbCmd o = 1 then r.1.txgain else o.gain, recal := o.recal || decide (uwbCmd o = 1) }
        ((s.usedRec o r.1).setRadio 4).radioReady
    else
      let code := uwbSearch 5 0 meas
      let rl := min 255 (meas.getD 10 0)
      let s := (s.retuned (k - 4) code).srf (aUWB_PORT (k - 4)) 23 16 rl
      let s := s.modOp o.id fun o => { o with
        todo := rest, port := k - 4, rl := rl,
        words := o.words ++ [w32 ((k - 4) * 2 ^ 28 + code * 2 ^ 16 + rl)] }
      (s.setRadio 4).radioReady

/-- The recalibration of a walk whose transmit was dropped ends, and its live record is kept (R192, R199, R200). -/
def State.orphanDone (s : State) (temp : Int) (vdd : Nat) (meas : List Nat) : State :=
  match s.uwb.orphan with
  | some o =>
    let s := (s.setRadio 4)
    let s := { s with uwb := { s.uwb with orphan := none } }
    (match s.recalibrate 1 o.profile temp vdd meas with | some r => r.2 | none => s).radioRest
  | none => (s.setRadio 4).radioRest

/-- A transition towards STANDBY or SLEEP completes, and its operation goes on (R186). -/
def State.downDone (s : State) : State :=
  let s := { s.setRadio (if s.radio = 4 then 2 else 0) with uwb := { (s.setRadio (if s.radio = 4 then 2 else 0)).uwb with down := false } }
  match s.uwbCur with
  | some o => s.restGoes o
  | none => s.radioRest

/-- A transition of the radio completes (R186). -/
def uwbTransitionDone (s : State) (temp : Int) (vdd : Nat) (meas : List Nat) : State :=
  if s.radio = 1 then
    match s.uwb.walk with
    | some _ => s.setRadio 3
    | none =>
      let s := s.setRadio 2
      match s.uwbCur with
      | some o => ((s.opFinish o cOk false [] s.tsNow).uwbSettle).radioRest
      | none => s.radioRest
  else if s.radio = 2 ∧ s.uwb.walk.isSome then s.setRadio 3
  else if s.radio = 3 then
    match s.uwb.walk with
    | none => s.setRadio 2
    | some w =>
      let s := { s with uwb := { s.uwb with walk := none, lockCal := if w.2 then putBit s.uwb.lockCal (b2n w.1) false else s.uwb.lockCal } }.setRadio 4
      let s := (s.srb aUWB_STATE 5 true).srb aUWB_STATE 6 w.1
      let s := s.onlyIf w.2 fun s =>
        s.setReg (aUWB_SYNCAL (b2n w.1)) (w32 (2 ^ 31 + unsgn 8 (clampI (-128) 127 temp) * 2 ^ 16 + vdd % 65536))
      s.radioReady
  else if s.radio = 7 then
    match s.uwbCur with
    | some o => s.calDone o temp vdd meas
    | none => s.orphanDone temp vdd meas
  else s.onlyIf s.uwb.down State.downDone

/-! ### Arm points, transmits and receives (R192 to R194, R203, R204) -/

/-- What a frame costs of the transmit budget (R493). -/
def uwbCost (o : UwbOp) : Int := (16 * (Config.uwbFrame o.profile o.payload.length * 113) / 266240 : Nat)

/-- A transmit starts with the lower of its record's gain and LIMIT (R199): return loss is measured over its preamble
(R203). -/
def State.uwbSend (s : State) (o : UwbOp) (returnLoss : Nat) : State :=
  let port := profPort o.profile
  let rl := min 255 returnLoss
  let sec := (s.sect 5 0).getD []
  let warn := decide (returnLoss < 5 * byteAt sec 2)
  let cut := decide (returnLoss < 5 * byteAt sec 3)
  let s := (s.spendUwb (uwbCost o)).srf (aUWB_PORT port) 23 16 rl
  let o' : UwbOp := { o with rl := rl, mismatch := warn, gain := min o.gain (s.rf aUWB_TXLIMIT 5 0) }
  let s := s.modOp o.id fun _ => o'
  let s := s.onlyIf warn fun s =>
    let s := (s.srb (aUWB_PORT port) 30 true).srb aUWB_FLAGS 1 true
    s.onlyIf (s.autoRecal o) fun s => { s with uwb := { s.uwb with retune := putBit s.uwb.retune port true } }
  if cut then (((s.srb (aUWB_PORT port) 31 true).setRadio 4).opDrop o' cAlarm).radioRest
  else s.setRadio 6

/-- The operation whose arm point is reached: a scheduled one whose arm point has come; else the immediate transmit that
stands ready in SYNTH; else the scheduled one that comes first, for which the command vouches. -/
def State.armed (s : State) : Option UwbOp :=
  let first := s.firstArm (s.uwbLive.filter fun o =>
    uwbSched o && !o.late && !decide (s.uwb.cur = some o.id ∧ (s.radio = 5 ∨ s.radio = 6)))
  let ready := s.uwbCur.filter fun o => decide (s.radio = 4 ∧ uwbCmd o = 1) && !uwbSched o && !s.rb aUWB_FLAGS 7
  match first, ready with
  | some x, some y => if s.armIn x ≤ 0 then some x else some y
  | some x, none => some x
  | none, y => y

/-- The arm point of an operation (R192, R194, R204), where its STS key is taken (R209). -/
def uwbArmPoint (s : State) (returnLoss : Nat) : State :=
  match s.armed with
  | none => s
  | some o =>
    let ready := decide (s.uwb.cur = some o.id ∧ s.radio = 4) && s.lockedOn (profCh9 o.profile)
    let o := { o with sts := s.opSts o }
    let s := s.modOp o.id fun _ => o
    if s.opSession o = false then (s.opDrop o cNoSession).radioRest
    else if uwbCmd o = 2 then
      (if ready then s.setRadio 5 else s.modOp o.id fun o => { o with late := true })
    else if ready = false then (s.opDrop o cTxLate).radioRest
    else
      let s := s.refill
      if s.duty < 16 ∧ covers s.gov.uwb uwbCapacity (uwbCost o) = false then
        if uwbSched o then
          (((s.srb aUWB_FLAGS 6 true).bumpSat aUWB_GOVCNT 15 0 1).opDrop o cTxLate).radioRest
        else (s.srb aUWB_FLAGS 7 true).modOp o.id fun o => { o with late := true }
      else s.uwbSend o returnLoss

/-- The budget covers the immediate transmit that waits for it (R204). -/
def txBudgetRefill (s : State) (returnLoss : Nat) : State :=
  match s.uwbCur with
  | some o => if s.rb aUWB_FLAGS 7 then ((s.srb aUWB_FLAGS 7 false).refill).uwbSend o returnLoss else s
  | none => s

/-- The transmit timestamps t1 and t5 of a slot: TIME plus DELAY (R211, R220). -/
def State.slotSent (s : State) (o : UwbOp) : State :=
  let t := (o.time + o.delay) % 2 ^ 40
  if o.chan = 128 then s.modSlot o.ref fun r => { r with t1 := t }
  else if o.chan = 130 then s.modSlot o.ref fun r => { r with t5 := t }
  else s

/-- A frame ends (R206). -/
def State.txEnd (s : State) (o : UwbOp) (ts : Nat) : State :=
  ((((s.slotSent o).setRadio 4).opFinish o cOk false [] (if uwbSched o then o.time else ts % 2 ^ 40)).uwbSettle).radioRest

/-- A receive ends with what it has heard. -/
def State.rxEnd (s : State) (o : UwbOp) (frame : Bool) (payload : Bytes) (ts : Nat) : State :=
  let s := s.onlyIf (decide (s.uwb.cur = some o.id ∧ s.radio = 5)) fun s => s.setRadio 4
  ((s.opFinish o cOk frame payload ts).uwbSettle).radioRest

/-- A frame is received in an open window of a channel (R194). One whose FCS is wrong leaves the window open, or ends a
receive that only its preamble held open. -/
def uwbFrameReceived (s : State) (ts : Nat) (payload : Bytes) (fcsOk : Bool) : State :=
  match s.uwbCur with
  | some o =>
    if s.radio = 5 ∧ uwbRanging o = false ∧ fcsOk ∧ payload.length ≤ 125 then s.rxEnd o true payload (ts % 2 ^ 40)
    else if s.radio = 5 ∧ fcsOk = false ∧ o.heard then s.rxEnd o false [] s.tsNow
    else s
  | none => s

/-- The receive that closes first. -/
def State.firstClose (s : State) : List UwbOp → Option UwbOp
  | [] => none
  | o :: t =>
    match s.firstClose t with
    | some x => if s.closeIn x < s.closeIn o then some x else some o
    | none => some o

/-- A receive window closes with no frame; a receive that never opened is LATE. An open one that has detected a preamble
stays open until that frame ends (R194). -/
def uwbWindowClose (s : State) (preamble : Bool) : State :=
  match s.firstClose (s.uwbLive.filter fun o => decide (uwbCmd o = 2) && !o.heard) with
  | none => s
  | some o =>
    let opened := decide (s.uwb.cur = some o.id ∧ s.radio = 5)
    if opened ∧ preamble then s.modOp o.id fun o => { o with heard := true }
    else
    let o := { o with late := o.late || !opened }
    (s.modOp o.id fun _ => o).rxEnd o false [] s.tsNow

/-! ### Other events -/

/-- Lock is lost (R196). -/
def lockLost (s : State) : State :=
  if 4 ≤ s.radio ∧ s.rb aUWB_STATE 5 then
    let c := b2n (s.rb aUWB_STATE 6)
    let s := { s with uwb := { s.uwb with down := false, orphan := none } }
    let s' := ((s.srb aUWB_FLAGS 4 true).srb (aUWB_SYNCAL c) 31 false).setRadio 2
    match s.uwbCur with
    | some o => (s'.opFail o cCalStale).radioRest
    | none => s'.radioRest
  else s

/-- HOLD has passed (R187). -/
def holdExpiry (s : State) : State :=
  if s.radio = 4 ∧ s.radioHeld = false then s.setRadio (if s.rf aUWB_IDLECFG 31 16 = 0 then 0 else 2) else s

/-- SLEEP_AFTER has passed (R187). -/
def sleepAfterExpiry (s : State) : State := if s.radio = 2 ∧ s.radioHeld = false then s.setRadio 0 else s

/-- The record that an AUTO_RECAL channel last used has drifted (R200). -/
def State.drifted (s : State) (temp : Int) (vdd : Nat) (r : CalRec) : Bool :=
  let sec := (s.sect 5 0).getD []
  decide (byteAt sec 0xC ≤ (r.temp - temp).natAbs ∨ 10 * byteAt sec 0xD ≤ ((r.vdd12 : Int) - vdd).natAbs)

/-- The record of an AUTO_RECAL user of the radio that wants a recalibration of a kind and port (R200). -/
def State.wantsRecal (s : State) (kind port : Nat) (temp : Int) (vdd : Nat) : Option (CalRec × Word) :=
  (s.uwb.lastRec.find? fun x => s.recalOn x.1 && s.drifted temp vdd x.2.1 && s.lockedOn (profCh9 x.2.2) &&
    decide (x.2.1.kind = kind ∧ x.2.1.port = port) && !(decide (kind = 1) && testBit s.faultPorts port)).map (·.2)

/-- A background recalibration, or with kind 3 the retune of a mismatched port, in an idle gap that holds it (R200, R203). -/
def backgroundRecal (s : State) (kind port : Nat) (temp : Int) (vdd : Nat) (meas : List Nat) : State :=
  let us := if kind = 1 then 61 else if kind = 2 then 65 else 37
  if s.radio = 4 ∧ s.radioHeld = false ∧ s.gapFits us temp vdd then
    if kind = 3 then
      (if testBit s.uwb.retune port ∧ port < 4 ∧ testBit s.faultPorts port = false then s.retuned port (uwbSearch 5 0 meas) else s)
    else
      match s.wantsRecal kind port temp vdd with
      | some r =>
        match s.recalibrate kind r.2 temp vdd meas with
        | some x => { x.2 with uwb := { x.2.uwb with lastRec := x.2.uwb.lastRec.map fun e => if e.2 = r then (e.1, (x.1, r.2)) else e } }
        | none => s
      | none => s
  else s

/-- The conditions are sampled outside SLEEP (R196). -/
def uwbCondsSample (s : State) (temp : Int) (vdd : Nat) : State :=
  if s.resumed ∧ s.radio ≠ 0 then s.sampleConds temp vdd else s

/-- STOP of a channel: its operations that have not begun to walk complete with ABORTED (R209). -/
def State.uwbStop (s : State) (ch : Nat) : State :=
  (s.each (s.uwbLive.filter fun o => decide (o.chan = ch ∧ s.uwb.cur ≠ some o.id)) fun s o =>
    s.opFinish o cAborted false [] s.tsNow).uwbSettle

/-- ABORT of a channel: its open receive closes; every other operation goes on (R100, R209; log entry 74). -/
def State.uwbAbort (s : State) (ch : Nat) : State :=
  match s.uwbCur with
  | some o => if o.chan = ch ∧ s.radio = 5 then ((s.setRadio 4).opFail o cAborted).radioRest else s
  | none => s

/-- An alarm ends the operation in progress, and its ROUND (R466). -/
def State.uwbAlarm (s : State) : State :=
  match s.uwbCur with
  | some o =>
    if uwbRanging o then s
    else
      let s := s.onlyIf (decide (5 ≤ s.radio)) fun s => s.setRadio 4
      (s.opDrop o cAlarm).radioRest
  | none => s

/-- The unit leaves the resumed state: every operation completes with ABORTED, and the radio sleeps (R209). -/
def State.uwbOff (s : State) : State :=
  let s := (s.each s.uwbLive fun s o => s.opFinish o cAborted false [] s.tsNow).uwbSettle
  { s with uwb := { s.uwb with cur := none, walk := none, down := false, orphan := none } }.setRadio 0

/-- UWB_TX (R192). -/
def execUwbTx (ch : Nat) (s : State) : Result := done (uwbTake 1 ch s)
/-- UWB_RX (R194). -/
def execUwbRx (ch : Nat) (s : State) : Result := done (uwbTake 2 ch s)
/-- UWB_SLEEP (R205). -/
def execUwbSleep (ch : Nat) (s : State) : Result := done (uwbTake 3 ch s)
/-- UWB_STANDBY (R205). -/
def execUwbStandby (ch : Nat) (s : State) : Result := done (uwbTake 4 ch s)
/-- UWB_SYNTH (R205). -/
def execUwbSynth (ch : Nat) (s : State) : Result := done (uwbTake 5 ch s)
/-- UWB_CAL (R201). -/
def execUwbCal (ch : Nat) (s : State) : Result := done (uwbTake 6 ch s)
/-- UWB_TUNE (R202). -/
def execUwbTune (ch : Nat) (s : State) : Result := done (uwbTake 7 ch s)
/-- UWB_WALK_START (R191). -/
def execUwbWalkStart (temp : Int) (vdd12 : Nat) (s : State) : Result := done (uwbWalkStart s temp vdd12)
/-- UWB_TRANSITION_DONE (R186). -/
def execUwbTransitionDone (temp : Int) (vdd12 : Nat) (meas : List Nat) (s : State) : Result :=
  done (uwbTransitionDone s temp vdd12 meas)
/-- UWB_ARM_POINT (R192). -/
def execUwbArmPoint (returnLoss : Nat) (s : State) : Result := done (uwbArmPoint s returnLoss)
/-- UWB_TX_DONE (R206). -/
def execUwbTxDone (ts : Nat) (s : State) : Result :=
  done (match s.uwbCur with
    | some o => if s.radio = 6 then s.txEnd o ts else s
    | none => s)
/-- UWB_FRAME_RECEIVED (R194). -/
def execUwbFrameReceived (ts : Nat) (payload : Bytes) (fcsOk : Bool) (s : State) : Result :=
  done (uwbFrameReceived s ts payload fcsOk)
/-- UWB_WINDOW_CLOSE (R194). -/
def execUwbWindowClose (s : State) (preamble : Bool := false) : Result := done (uwbWindowClose s preamble)
/-- LOCK_LOST (R196). -/
def execLockLost (s : State) : Result := done (lockLost s)
/-- HOLD_EXPIRY (R187). -/
def execHoldExpiry (s : State) : Result := done (holdExpiry s)
/-- SLEEP_AFTER_EXPIRY (R187). -/
def execSleepAfterExpiry (s : State) : Result := done (sleepAfterExpiry s)
/-- BACKGROUND_RECAL (R200). -/
def execBackgroundRecal (kind port : Nat) (temp : Int) (vdd12 : Nat) (meas : List Nat) (s : State) : Result :=
  done (backgroundRecal s kind port temp vdd12 meas)
/-- LIVE_CLEAR (R200). -/
def execLiveClear (m : Master) (s : State) : Result :=
  done (s.owned m aUWB_LIVE fun s => { s with uwb := { s.uwb with live := [] } })
/-- UWB_CONDS_SAMPLE (R196). -/
def execUwbCondsSample (temp : Int) (vdd12 : Nat) (s : State) : Result := done (uwbCondsSample s temp vdd12)
/-- TX_BUDGET_REFILL (R204). -/
def execTxBudgetRefill (returnLoss : Nat) (s : State) : Result := done (txBudgetRefill s returnLoss)

end Machine
end Sys2Proof
end

