-- ==== Sys2Proof/Machine/Ranging.lean ====
section
/-!
DEFINITION. The ranging block (R210 to R240): rounds and plans, slots, distances, first-path checks, angles, verdicts,
fused rounds and the cabin verdict.
-/
namespace Sys2Proof
namespace Machine

/-! ### The section, the chain, and chain time (R233, R239) -/

/-- The UWB section in use. -/
def State.rng (s : State) : Bytes := (s.sect 5 0).getD []

/-- The roster's entry of an address. -/
def State.member (s : State) (u : Nat) : Member := tget s.cwy.roster u ⟨false, false, 0, 0, false⟩

/-- A unit is present on the chain. -/
def State.onChain (s : State) (u : Nat) : Bool := decide (u = s.rngUnit) || (s.member u).present

/-- A position of the section, and whether it is PRESENT. -/
def unitPos (b : Bytes) (u : Nat) : Int × Int × Int :=
  let o := 0x30 + 8 * (u - 1)
  (sLE b o 2, sLE b (o + 2) 2, sLE b (o + 4) 2)

/-- The unit is PRESENT in the section. -/
def unitThere (b : Bytes) (u : Nat) : Bool := decide (byteAt b (0x36 + 8 * (u - 1)) % 2 = 1)

/-- The key of a slot's REPORT MAC: K_REP of this unit, or K_REP_F (R212, R213, R215, R293). -/
def State.slotRep (s : State) (x : PlanSlot) : Bytes :=
  match s.slotSes x with
  | none => []
  | some l =>
    let b := (s.ses l).slot
    if x.fused then slice b 48 16 else if s.isHead then slice b 112 16 else slice b 16 16

/-! ### Plans (R229, R230) -/

/-- A slot of a plan as it travels (the layout is the model's: log entry 23). -/
def slotBytes (x : PlanSlot) : Bytes :=
  [by8 (x.unit + 128 * b2n x.past), by8 x.ses, by8 x.gen.toNat] ++ toLE 3 x.num

/-- The body of a plan. -/
def planBody (fused : Bool) (start : Nat) (l : List PlanSlot) : Bytes :=
  by8 (b2n fused) :: toLE 5 start ++ by8 l.length :: l.flatMap slotBytes

/-- The slots of a plan that has arrived. -/
def planSlots (b : Bytes) : List PlanSlot :=
  (List.range (byteAt b 6)).map fun k =>
    let o := 7 + 6 * k
    { idx := k, unit := byteAt b o % 32, ses := byteAt b (o + 1), gen := BitVec.ofNat 8 (byteAt b (o + 2)),
      fused := decide (byteAt b 0 = 1), num := ofLE (slice b (o + 3) 3), past := decide (128 ≤ byteAt b o),
      start := (ofLE (slice b 1 5) + k * slotSteps) % 2 ^ 40 }

/-- The enabled slots of DIST_SLOT, each (session, unit) pair once. -/
def State.slotRegs (s : State) : List (Nat × Nat) :=
  ((List.range 32).filterMap fun n =>
    let w := s.reg (aDIST_SLOT n)
    let u := fld w 20 16
    if bit w 31 ∧ 1 ≤ u ∧ u ≤ 16 then some (fld w 15 8, u) else none).foldl
      (fun l x => if x ∈ l then l else l ++ [x]) []

/-- The slots of a plan on this unit: its own; on the head, those of absent units too, whose verdict is NO_SESSION (R454). -/
def State.mySlots (s : State) (l : List PlanSlot) : List PlanSlot :=
  l.filter fun x => decide (x.unit = s.rngUnit) || (s.isHead && !s.onChain x.unit)

/-- A slot overlaps a fused round. -/
def overlaps (f : FusedPlan) (x : PlanSlot) : Bool :=
  let d := tsAhead x.start f.start
  decide (-(slotSteps : Int) < d ∧ d < (f.units.length * slotSteps : Nat))

/-- Regular slots of the plan that fall on a fused round are skipped and counted (R235). -/
def State.skipOverlaps (s : State) (f : FusedPlan) : State :=
  let hit := s.dist.plan.filter fun x => !x.fused && overlaps f x
  let s := s.bumpSat aDIST_SKIP 15 0 hit.length
  { s with dist := { s.dist with plan := s.dist.plan.filter (fun x => x.fused || !overlaps f x),
                                 named := s.dist.named.filter fun x => x.fused || !overlaps f x } }

/-- The fused rounds that wait or run. -/
def State.fusedPlans (s : State) : List FusedPlan :=
  s.dist.fuseReqs ++ s.dist.fused.map FusedRun.plan

/-! ### Slots as uses of their sessions (R113) -/

/-- XO cycles since the start of a slot, where it has begun. -/
def State.sinceSlot (s : State) (x : PlanSlot) : Option Nat :=
  let d := tsAhead s.tsNow (s.slotStart x)
  if 0 ≤ d then some (d.toNat * 113 / 266240) else none

/-- On the head, each slot that has begun has restarted the idle count of the session that it names, at its start (R113). -/
def State.slotUses (s : State) : State :=
  let s' := s.each s.dist.named fun t x =>
    match s.sinceSlot x with
    | some k => t.onlyIf (decide ((t.ses x.ses).gen = x.gen)) fun t =>
        t.modSes x.ses fun n => { n with lastUse := max n.lastUse (s.now - k) }
    | none => t
  { s' with dist := { s'.dist with named := s.dist.named.filter fun x => (s.sinceSlot x).isNone } }

/-- The head notes the slots of a round that begins. -/
def State.nameSlots (s : State) (l : List PlanSlot) : State :=
  s.onlyIf s.isHead fun s => { s with dist := { s.dist with named := s.dist.named ++ l } }

/-- Takes a regular plan into use; what is left of the one before is skipped. -/
def State.usePlan (s : State) (l : List PlanSlot) (start : Nat) : State :=
  let old := (s.dist.plan.filter fun (x : PlanSlot) => !x.fused).length
  let s := (s.bumpSat aDIST_SKIP 15 0 old).slotUses
  let s := { s with dist := { s.dist with
      reg := s.alignNow,
      plan := (s.dist.plan.filter fun (x : PlanSlot) => x.fused) ++ s.mySlots l, roundStart := start, nslots := l.length,
      roundEnd := (start + l.length * slotSteps) % 2 ^ 40,
      named := s.dist.named.filter fun (x : PlanSlot) => x.fused } }
  let s := s.nameSlots l
  s.each s.fusedPlans fun s f => s.skipOverlaps f

/-- The numbers RN of a round: one for each session with a slot (R214). -/
def State.takeRn (s : State) (l : List Nat) : State :=
  s.each l.eraseDups fun s n => s.modSes n fun x => { x with rn := min (x.rn + 1) (2 ^ 24) }

/-- ROUND_MS pass on the head: a regular round begins and its plan is sent. Its first slot starts one slot later, so that
the plan and the placements of R230 and R231 can go before it (log entry 24). -/
def roundStart (s : State) : State :=
  if s.resumed = false ∨ s.isHead = false ∨ s.rb aDIST_CTL 0 = false ∨ s.feOn 5 = false ∨ 5 ∈ s.cfg.held then s
  else
    let start := (s.tsNow + slotSteps) % 2 ^ 40
    let l := (s.slotRegs.zipIdx).map fun x =>
      ({ idx := x.2, unit := x.1.2, ses := x.1.1, gen := (s.ses x.1.1).gen, fused := false, num := (s.ses x.1.1).rn % 2 ^ 24,
         past := decide (2 ^ 24 ≤ (s.ses x.1.1).rn), start := (start + x.2 * slotSteps) % 2 ^ 40 } : PlanSlot)
    let s := (s.takeRn (l.map fun x => x.ses)).usePlan l start
    s.onlyIf (decide (0 < popCount 16 (s.rf aCWY_PRESENT 15 1))) fun s => s.sendAuth 31 3 1 (planBody false start l) []

/-- Takes the oldest of the frames of a class that have come, where it has a SUB: a class is taken in arrival order (R462). -/
def State.takeFrame (s : State) (cls sub : Nat) : Option (Nat × Frame × State) :=
  match s.cwy.taken.find? fun x => decide (x.2.cls = cls) with
  | some x => if x.2.sub = sub then some (x.1, x.2, { s with cwy := { s.cwy with taken := s.cwy.taken.erase x } }) else none
  | none => none

/-- A plan has come 1.0 ms or more before the unit's first slot in it, or gives the unit none (R230). -/
def State.inTime (s : State) (l : List PlanSlot) : Bool :=
  match l.find? fun x => decide (x.unit = s.rngUnit) with
  | some x => decide ((tsUs 1000 : Int) ≤ tsAhead (s.alignNow.toLocal x.start) s.tsNow)
  | none => true

/-- A plan arrives on a unit that is not the head: DIST_SLOT shows a regular one, and a fused one is placed. One that comes
too late is not used (R230). -/
def planArrives (s : State) : State :=
  match s.takeFrame 3 1 with
  | none => s
  | some (_, f, s) =>
    if s.isHead then s
    else
      let l := planSlots f.payload
      if s.inTime l = false then s
      else
      let start := ofLE (slice f.payload 1 5)
      let s := if l.any fun x => decide (x.unit = s.rngUnit) then { s with dist := { s.dist with planAt := some s.now } } else s
      if byteAt f.payload 0 = 1 then
        let x := l.headD ⟨0, 0, 0, 0, true, 0, true, 0⟩
        let p : FusedPlan := ⟨x.ses, x.gen, x.num, l.map fun x => x.unit, start⟩
        ({ s with dist := { s.dist with fuseReqs := s.dist.fuseReqs ++ [p] } }).skipOverlaps p
      else
        let s := s.each (List.range 32) fun s n => s.setReg (aDIST_SLOT n) (match l[n]? with
          | some x => w32 (2 ^ 31 + x.unit * 2 ^ 16 + x.ses * 2 ^ 8)
          | none => 0)
        let s := s.usePlan l start
        { s with dist := { s.dist with planIn := true } }

/-- The time by which a plan must have come: without one, the unit's slots are skipped and counted (R230). -/
def planDeadline (s : State) : State :=
  if s.isHead ∨ s.resumed = false then s
  else if s.dist.planIn then { s with dist := { s.dist with planIn := false } }
  else s.bumpSat aDIST_SKIP 15 0 (s.slotRegs.filter fun x => decide (x.2 = s.rngUnit)).length

/-! ### Slots (R216, R219, R231) -/

/-- The slot of a plan that starts first. -/
def State.firstSlot (s : State) : List PlanSlot → Option PlanSlot
  | [] => none
  | x :: t =>
    match s.firstSlot t with
    | some y => if tsAhead y.start x.start < 0 then some y else some x
    | none => some x

/-- A slot that has just been placed. -/
def slotNil (x : PlanSlot) : RngSlot :=
  { slot := x, t1 := 0, t4 := 0, t5 := 0, reason := 0, num := 0, den := 1, distMm := 0, az := 0, el := 0, aoaValid := false,
    heard := false, reported := false, noSession := false, alarmed := false }

/-- One scheduled operation of a slot: frame kind F at a time in µs after the slot start, under RPROFILE. -/
def State.slotOpOf (s : State) (x : PlanSlot) (f us : Nat) : UwbOp :=
  let w := w32 (le32 s.rng 0x10)
  let tx := decide (f % 2 = 0)
  { opNil with
    chan := 128 + f, w0 := w32 ((if tx then 1 else 2) * 2 ^ 28 + 2 ^ 27), w2 := w32 (40 * 2 ^ 16),
    time := (s.slotStart x + tsUs us) % 2 ^ 40, profile := setFld w 17 16 (if f = 3 then 1 else 3),
    port := if tx then profPort w else 0, ref := x.start }

/-- The fused round that waits first is taken up: its slots are planned (R235). -/
def State.takeUp (s : State) : State :=
  match s.dist.fuseReqs with
  | [] => s
  | p :: t =>
    let r : FusedRun := ⟨p, [], [], 0, 1, [], false, s.alignNow, false⟩
    { s with dist := { s.dist with
        fuseReqs := t, plan := fusedSlots p ++ s.dist.plan, fused := s.dist.fused ++ [r] } }.nameSlots (fusedSlots p)

/-- The slot to be placed next is the first of the fused round that waits first. -/
def State.fusedNext (s : State) : Bool :=
  match s.dist.fuseReqs with
  | [] => false
  | p :: _ =>
    match s.firstSlot s.dist.plan with
    | some x => decide (tsAhead p.start x.start < 0)
    | none => true

/-- 1.0 ms before a slot: its operations are placed and the STS generator takes the AES engine. A slot without a ranging
key places nothing: its verdict is NO_SESSION, or in another unit's fused slot nothing (R215). A slot that finds no room
among the 64 scheduled operations sends nothing, and its verdict says TX_LATE (log entry 61). -/
def slotPlacement (s : State) : State :=
  if s.resumed = false ∨ 2 ≤ s.dist.cur.length then s
  else
    let s := s.onlyIf s.fusedNext State.takeUp
    match s.firstSlot s.dist.plan with
    | none => s
    | some x =>
      let own := decide (x.unit = s.rngUnit)
      let ops := if own then [(0, 100), (1, 380), (2, 700), (3, 980)] else [(1, 380), (3, 980)]
      let gone := (own = false && !x.fused) || (s.slotSes x).isNone
      let full := decide (64 < s.uwbPending + ops.length)
      let r := { slotNil x with noSession := gone, reason := if !gone && full && own then 4 else 0 }
      let s := { s with dist := { s.dist with plan := s.dist.plan.erase x, cur := s.dist.cur ++ [r] } }
      if gone || full then s
      else ops.foldl (fun s o => s.opAccept (s.slotOpOf x o.1 o.2)) { s with eng := { s.eng with stsBusy := true } }

/-- Takes operations of a slot out of the radio. -/
def State.withdraw (s : State) (ref : Nat) (kinds : List Nat) : State :=
  let hit := fun (o : UwbOp) => decide (o.ref = ref ∧ o.chan ∈ kinds)
  let busy := (s.uwbCur.map hit).getD false
  let s := { s with uwb := { s.uwb with ops := s.uwb.ops.filter fun o => !hit o,
                                        cur := if busy then none else s.uwb.cur } }
  if busy then (s.onlyIf (decide (5 ≤ s.radio)) fun s => s.setRadio 4).radioRest else s

/-! ### First-path checks and angles (R222 to R225) -/

/-- The power of a tap so many places before the strongest. -/
def cirTap (c : ChainPath) (k : Nat) : Nat := c.taps.getD k 0

/-- The summed power of n taps from one on, back in time. -/
def cirPower (c : ChainPath) (k n : Nat) : Nat := ((List.range n).map fun i => cirTap c (k + i)).sum

/-- A mean power, as a sum over a count, is at least so many dB above the noise floor: that over the taps from 160 to 96
before the strongest (R222). -/
def cirAbove (c : ChainPath) (sum count db : Nat) : Bool :=
  decide (10 ^ db * (cirPower c 96 65 * count) ^ 10 ≤ (sum * 65) ^ 10)

/-- The first path's tap: the earliest within 64 taps before the strongest that is at least 6 dB above the noise floor; the
strongest where none is (R222, log entry 61). -/
def cirFirst (c : ChainPath) : Nat := ((List.range 65).reverse.find? fun k => cirAbove c (cirTap c k) 1 6).getD 0

/-- The time of the first path: taps lie 1.0016 ns, 64 steps, apart. -/
def cirTime (c : ChainPath) : Nat := unsgn 40 ((c.peak : Int) - 64 * cirFirst c)

/-- Early energy: the 32 taps ending 8 taps before the first path exceed the noise floor by more than so many dB (R223). -/
def cirEarly (c : ChainPath) (db : Nat) : Bool :=
  decide (10 ^ db * (cirPower c 96 65 * 32) ^ 10 < (cirPower c (cirFirst c + 8) 32 * 65) ^ 10)

/-- A receive chain of a frame. -/
def fpChain (fp : FirstPath) (i : Nat) : ChainPath := fp.chains.getD i ⟨0, [], 0⟩

/-- The first-path time of a frame, referred to chain 0 (R211, R224). -/
def fpTime (fp : FirstPath) : Nat := cirTime (fpChain fp 0)

/-- The REASON bits of a phone frame (R223). -/
def fpReason (b : Bytes) (fp : FirstPath) (stale : Bool) : Nat :=
  let c := fpChain fp 0
  let mask := profMask (w32 (le32 b 0x10))
  let spread := (bitsOf 4 mask).any fun i => decide (byteAt b 0x1D < (tsAhead (cirTime (fpChain fp i)) (fpTime fp)).natAbs)
  b2n (!cirAbove c (cirTap c 0) 1 (byteAt b 0x1E)) * 8 +
    b2n (decide (byteAt b 0x1C < (tsAhead (fpTime fp) fp.pre).natAbs)) * 16 +
    b2n (cirEarly c (byteAt b 0x1F)) * 32 + b2n spread * 64 + b2n stale * 8192

/-- sin(m·π/3600) in units of 2^-48: the Taylor sum. -/
def sinFix (m : Nat) : Int :=
  let x : Int := 884279719003555 * m / 3600
  ((List.range 12).foldl (fun (a : Int × Int) k =>
    let t := -(a.1 * (x * x / 2 ^ 48) / 2 ^ 48) / ((2 * k + 2) * (2 * k + 3) : Nat)
    (t, a.2 + t)) (x, x)).2

/-- asin(num / den) in units of 0.1°, to the nearest (R225, log entry 17). -/
def asinDeci (num den : Int) : Int :=
  let d : Int := ([512, 256, 128, 64, 32, 16, 8, 4, 2, 1].foldl (fun d k =>
    if d + k ≤ 900 ∧ sinFix (2 * (d + k) - 1) * den ≤ num.natAbs * 2 ^ 48 then d + k else d) 0 : Nat)
  if num < 0 then -d else d

/-- A phase as a signed 16-bit value. -/
def phase16 (i : Int) : Int := sgn 16 (unsgn 16 i)

/-- The angles of a RESP: valid, azimuth, elevation (R225). -/
def anglesOf (b : Bytes) (fp : FirstPath) (pdoa : List Int) : Bool × Int × Int :=
  let w := w32 (le32 b 0x10)
  let lam : Int := if profCh9 w then 3753 else 4619
  let p1 := phase16 ((fpChain fp 1).phase - (fpChain fp 0).phase - pdoa.getD 0 0)
  let p2 := phase16 ((fpChain fp 2).phase - (fpChain fp 0).phase - pdoa.getD 1 0)
  let p3 := phase16 ((fpChain fp 3).phase - (fpChain fp 0).phase - pdoa.getD 2 0)
  let da : Int := 65536 * le16 b 0x28
  let de : Int := 65536 * le16 b 0x2A
  let ok := testBit (byteAt b 0x1B) 1 && decide (profMask w = 15 ∧ (lam * p1).natAbs ≤ da.natAbs ∧
    (lam * p2).natAbs ≤ de.natAbs ∧ 12 * (phase16 (p3 - p1 - p2)).natAbs ≤ 65536)
  if ok then (true, asinDeci (lam * p1) da, asinDeci (lam * p2) de) else (false, 0, 0)

/-- The receive that a ranging slot has open, with its slot. -/
def State.openRanging (s : State) (kind : Nat) : Option (UwbOp × RngSlot) :=
  match s.uwbCur with
  | some o =>
    if s.radio = 5 ∧ o.chan = 128 + kind then (s.slotOf o).map fun r => (o, r) else none
  | none => none

/-- Changes the fused round that a slot belongs to. -/
def State.modRun (s : State) (x : PlanSlot) (g : FusedRun → FusedRun) : State :=
  { s with dist := { s.dist with fused := s.dist.fused.map fun f => if ofPlan x f.plan then g f else f } }

/-- A phone frame of a fused slot that passed its checks is timestamped in chain time (R236). -/
def State.noteHeard (s : State) (x : PlanSlot) (kind t why : Nat) : State :=
  s.onlyIf (decide (why = 0)) fun s =>
    s.modRun x fun f => { f with heard := f.heard ++ [⟨x.idx, kind, f.align.toChain t⟩] }

/-- The phone's RESP is received (R219, R223 to R225). The unit that ranges withdraws the rest of its slot where a check
fails. -/
def respReceived (s : State) (fp : FirstPath) : State :=
  match s.openRanging 1 with
  | none => s
  | some (o, r) =>
    let why := fpReason s.rng fp o.stale
    let a := anglesOf s.rng fp o.pdoa
    let t4 := unsgn 40 ((fpTime fp : Int) - o.delay)
    let s := ((s.noteHeard r.slot 1 t4 why).modSlot o.ref fun r => { r with
      t4 := t4, heard := decide (why = 0), reason := r.reason ||| why, aoaValid := a.1 && decide (why = 0),
      az := a.2.1, el := a.2.2 }).rxEnd o true [] s.tsNow
    if why ≠ 0 ∧ r.slot.unit = s.rngUnit then s.withdraw o.ref [130, 131] else s

/-! ### Distance (R220, R221) -/

/-- A distance in mm of a time of flight in steps, to the nearest. -/
def mmOf (num : Int) (den : Nat) : Int := (2 * num * 46918 + den * 10000) / (2 * (den * 10000))

/-- The timing checks of a REPORT whose MAC verifies: REASON bits, the time of flight and the distance. -/
def timeOf (b : Bytes) (r : RngSlot) (rep : Bytes) : Nat × Int × Nat × Int :=
  let ra : Nat := (r.t4 + 2 ^ 40 - r.t1) % 2 ^ 40
  let da : Nat := (r.t5 + 2 ^ 40 - r.t4) % 2 ^ 40
  let db := ofLE (slice rep 5 5)
  let rb := ofLE (slice rep 10 5)
  let num : Int := (ra : Int) * rb - (da : Int) * db
  let den := ra + rb + da + db
  let mm := mmOf num den
  let ok := fun n => decide (17891328 ≤ n ∧ n ≤ 20447232)
  let skew := ((db + rb : Nat) - (ra + da : Nat) : Int).natAbs * 1000000
  (b2n (!(ok db && ok rb)) * 1024 + b2n (decide (byteAt b 0x1A * (ra + da) < skew)) * 2048 +
    b2n (decide (num < 0 ∨ (le16 b 0x18 : Int) < mm)) * 4096 +
    b2n (decide (ofLE (slice rep 2 3) ≠ r.slot.num)) * 256 + b2n (decide (byteAt rep 1 % 4 ≠ 3)) * 512,
   num, den, mm)

/-- The phone's REPORT is received. A unit that listens checks and timestamps its first path alone; a REPORT whose MAC fails is
used for nothing else (R221). While the mask generator of the AES engine is STOPPED no MAC verifies (R327; log entry 75). -/
def reportReceived (s : State) (fp : FirstPath) (payload : Bytes) : State :=
  match s.openRanging 3 with
  | none => s
  | some (o, r) =>
    let why := fpReason s.rng fp o.stale
    let s := (s.noteHeard r.slot 3 (unsgn 40 ((fpTime fp : Int) - o.delay)) why).rxEnd o true payload s.tsNow
    if r.slot.unit ≠ s.rngUnit then s
    else
      let mac := (cmac (s.slotRep r.slot) (0x52 :: by8 r.slot.unit :: slice payload 0 16)).take 8
      let good := !s.maskStopped 0 && decide (payload.length = 24 ∧ slice payload 16 8 = mac)
      let t := timeOf s.rng r payload
      s.modSlot o.ref fun r =>
        if good then { r with reported := true, reason := r.reason ||| why ||| t.1, num := t.2.1, den := t.2.2.1,
                              distMm := t.2.2.2.toNat }
        else { r with reported := true, reason := r.reason ||| why ||| 128 }

/-! ### Verdicts (R226 to R228) -/

/-- The REASON of a slot at its end. -/
def slotReason (r : RngSlot) : Nat :=
  let fp := r.reason &&& 0x2078
  r.reason ||| (if r.heard = false ∧ fp = 0 ∧ r.reason &&& 4 = 0 then 1 else 0) |||
    (if r.heard ∧ r.reported = false ∧ r.reason &&& 0x2078 = 0 then 2 else 0)

/-- The four words of a verdict. -/
def State.verdictWords (s : State) (r : RngSlot) : List Word :=
  let x := r.slot
  let why := slotReason r
  let none_ := r.noSession || (s.slotSes x).isNone
  let status := if r.alarmed then cAlarm else if none_ then cNoSession else if why ≠ 0 then cDistFail else cOk
  let ok := decide (status = cOk)
  let mm := if ok then min 65535 r.distMm else 0
  [w32 (status.toNat * 2 ^ 24 + x.ses * 2 ^ 16 + x.gen.toNat * 2 ^ 8 + x.unit * 8 +
      b2n (ok && decide (r.distMm < le16 s.rng 0x16)) * 4 + b2n (r.aoaValid && !none_) * 2),
   w32 (mm * 2 ^ 16 + (if r.alarmed then 0 else if none_ then 0x4000 else why)),
   if r.aoaValid ∧ none_ = false then pack16 (unsgn 16 r.az) (unsgn 16 r.el) else 0,
   w32 (x.idx * 2 ^ 27 + b2n x.fused * 2 ^ 26 + x.num)]

/-- The words of a verdict as they are delivered: STATUS, the distance, the reasons and the angles of one whose session is mapped
to a session without its key are free (a host mistake of the chapter). -/
def State.verdictFree (s : State) (r : RngSlot) (ws : List Word) : List Word × State :=
  if r.slot.ses ∈ s.dist.mapSpoilt ∧ (tfind s.dist.map r.slot.ses).isSome then
    let a := s.freeW
    let b := a.2.freeW
    let c := b.2.freeW
    ([(wordAt ws 0 &&& 0x00FFFFF8) ||| (a.1 &&& 0xFF000006), b.1, c.1, wordAt ws 3], c.2)
  else (ws, s)

/-- Writes a verdict into the FIFO of Peat (R228). -/
def State.pushVerdict (s : State) (ws : List Word) : State :=
  let full := decide (16 ≤ s.dist.fifo.length)
  let s := s.onlyIf full fun s => s.srb aDIST_VSTAT 5 true
  ({ s with dist := { s.dist with fifo := (if full then s.dist.fifo.drop 1 else s.dist.fifo) ++ [ws] } }).raise .verdict

/-- Words of a body. -/
def bodyWords (b : Bytes) : List Word := (List.range 4).map fun i => w32 (le32 b (4 * i))

/-- The unit's own verdict: its FIFO, the copy in Q7, the counts, and the head (R226). -/
def State.ownVerdict (s : State) (ws : List Word) : State :=
  let s := (s.pushVerdict ws).feCommit 7 (wordsPacket 0 0xFF ws)
  let s := s.evt 7 0x17 1
  let s := (s.bump aDIST_COUNT 15 0 1).onlyIf (decide (fld (wordAt ws 0) 31 24 ≠ 0)) fun s => s.bump aDIST_COUNT 31 16 1
  s.onlyIf (!s.isHead) fun s => s.sendAuth 1 3 2 (ofWords ws) []

/-- A verdict of another unit arrives at the head (R227). -/
def remoteVerdict (s : State) : State :=
  match s.takeFrame 3 2 with
  | none => s
  | some (_, f, s) =>
    if s.isHead then
      let ws := bodyWords f.payload
      s.pushVerdict ((wordAt ws 0 ||| 1) :: ws.drop 1)
    else s

/-- A write of NEXT: Peat takes the oldest verdict and keeps it as the latest of its session and unit (R228, R273). -/
def nextVerdict (s : State) : State :=
  match s.dist.fifo with
  | [] => s
  | ws :: t =>
    let w := wordAt ws 0
    let s := { s with dist := { s.dist with fifo := t } }
    { s with peat := { s.peat with verdicts := tput s.peat.verdicts (fld w 23 16 * 32 + fld w 7 3) ⟨ws, s.sysTime⟩ } }

/-! ### Fused rounds (R235 to R238) -/

/-- Writes a fused result and interrupts Peat. -/
def State.fusedResult (s : State) (status : Byte) (ses : Nat) (gen : BitVec 8) (place : Nat) (x y : Int) (units reason : Nat)
    (bound : Int) (resid : Nat) : State :=
  let s := s.setReg aDIST_FUSED0 (w32 (status.toNat * 2 ^ 24 + ses % 256 * 2 ^ 16 + gen.toNat * 2 ^ 8 + place))
  let s := s.setReg aDIST_FUSED1 (pack16 (axis16 x) (axis16 y))
  let s := s.setReg aDIST_FUSED2 (w32 (units % 65536 * 65536 + reason))
  let s := s.setReg aDIST_FUSED3 (pack16 (axis16 bound) (min 65535 resid))
  (s.setReg aDIST_FUSED4 s.sysLo).raise .fusedResult

/-- A fused request that ends without a round. -/
def State.fusedNone (s : State) (status : Byte) (ses reason : Nat) : State :=
  s.fusedResult status ses (s.ses ses).gen 0 0 0 0 reason 0 0

/-- The first boundary of the slot grid at or after a time (R235). -/
def State.gridAt (s : State) (t : Nat) : Nat :=
  let d : Nat := unsgn 40 ((t : Int) - s.dist.roundStart)
  (s.dist.roundStart + (d + slotSteps - 1) / slotSteps * slotSteps) % 2 ^ 40

/-- The later of two chain times. -/
def later (a b : Nat) : Nat := if 0 < tsAhead b a then b else a

/-- A request for a fused round of a session on the head unit (R215, R235). -/
def State.requestFused (s : State) (ses : Nat) : State :=
  let x : PlanSlot := ⟨0, 1, ses, (s.ses ses).gen, true, 0, false, 0⟩
  let units := (List.range 16).map (· + 1) |>.filter fun u => unitThere s.rng u && s.onChain u
  if testBit (byteAt s.rng 0x1B) 2 = false then s.fusedNone cAborted ses 64
  else if (s.slotSes x).isNone ∨ 2 ^ 24 < (s.ses ses).fn + units.length then s.fusedNone cNoSession ses 0
  else if s.dist.fuseReqs.any fun p => decide (p.ses = ses) then s
  else if 4 ≤ s.dist.fuseReqs.length then s.fusedNone cAborted ses 0
  else
    let free := s.fusedPlans.foldl (fun t p => later t ((p.start + p.units.length * slotSteps) % 2 ^ 40))
      ((s.tsNow + tsUs 3500) % 2 ^ 40)
    let p : FusedPlan := ⟨ses, (s.ses ses).gen, (s.ses ses).fn, units, s.gridAt free⟩
    let s := s.modSes ses fun x => { x with fn := x.fn + units.length }
    let s := { s with dist := { s.dist with fuseReqs := s.dist.fuseReqs ++ [p] } }.skipOverlaps p
    s.onlyIf (decide (1 < units.length)) fun s => s.sendAuth 31 3 1 (planBody true p.start (fusedSlots p)) []

/-- A fused round starts at its grid boundary: every unit with the fused key listens in every slot (R215, R236). Its first slot
has been placed before (R231); it may follow the round before while that one's reports are awaited (R235). The conversion held
now serves the round (R233). -/
def fusedRoundStart (s : State) : State :=
  if s.resumed = false then s
  else
    let s := if s.dist.fused.all FusedRun.begun then s.takeUp else s
    { s with dist := { s.dist with fused := s.dist.fused.map fun f =>
        if f.begun then f else { f with begun := true, align := s.alignNow } } }

/-! ### The cabin verdict (R237) -/

/-- The integer square root, bit by bit. -/
def isqrt (n : Nat) : Nat :=
  (List.range 64).reverse.foldl (fun r k => if (r + 2 ^ k) * (r + 2 ^ k) ≤ n then r + 2 ^ k else r) 0

/-- A square root to 2^-16, rounded down (log entry 25). -/
def sqrtQ (q : Rat) : Rat := (isqrt (q * 4294967296).floor.toNat : Rat) / 65536

/-- The nearest integer. -/
def roundQ (q : Rat) : Int := (q + 1 / 2).floor

/-- A unit used in a fusion: address, position, h², r and d in mm. -/
structure Used where
  unit : Nat
  x : Rat
  y : Rat
  h2 : Rat
  r : Rat
  d : Rat

/-- When the RESP of the head's slot was heard (R237 step 2). -/
def headResp (l : List Heard) : Option Nat := (l.find? fun x => decide (x.slot = 0 ∧ x.kind = 1)).map (·.time)

/-- The unit of an arrival, for the head's distance and arrival (R237 steps 2, 4, 6). -/
def usedOf (b : Bytes) (dh : Rat) (ah : Nat) (a : Arrival) : Option Used :=
  let w0 := wordAt a.verdict 0
  match headResp a.heard with
  | some t =>
    if a.aligned ∧ fld w0 31 24 = 0 ∧ a.verdict ≠ [] then
      let p := unitPos b a.unit
      let r := dh + (tsAhead t ah : Rat) * 46918 / 10000
      let dz : Rat := p.2.2 - sLE b 0x26 2
      some ⟨a.unit, p.1, p.2.1, max 0 (r * r - dz * dz), r, fld (wordAt a.verdict 1) 31 16⟩
    else none
  | none => none

/-- Step 7: the position, where the units are not on one line. -/
def solveXY (h : Used) (l : List Used) : Option (Rat × Rat) :=
  let rows := l.map fun u =>
    (2 * (u.x - h.x), 2 * (u.y - h.y), h.h2 - u.h2 + u.x * u.x - h.x * h.x + u.y * u.y - h.y * h.y)
  let sum := fun (f : Rat × Rat × Rat → Rat) => (rows.map f).foldl (· + ·) 0
  let a := sum fun r => r.1 * r.1
  let b := sum fun r => r.1 * r.2.1
  let c := sum fun r => r.2.1 * r.2.1
  let p := sum fun r => r.1 * r.2.2
  let q := sum fun r => r.2.1 * r.2.2
  let det := a * c - b * b
  if det = 0 then none else some ((p * c - q * b) / det, (a * q - b * p) / det)

/-- The edges of a polygon. -/
def edges (l : List (Int × Int)) : List ((Rat × Rat) × (Rat × Rat)) :=
  (List.range l.length).map fun i =>
    let a := l.getD i (0, 0)
    let b := l.getD ((i + 1) % l.length) (0, 0)
    (((a.1 : Rat), (a.2 : Rat)), ((b.1 : Rat), (b.2 : Rat)))

/-- A point is inside a polygon. -/
def insidePoly (es : List ((Rat × Rat) × (Rat × Rat))) (x y : Rat) : Bool :=
  es.foldl (fun c e =>
    let a := e.1
    let b := e.2
    if (decide (y < a.2) != decide (y < b.2)) ∧ x < a.1 + (y - a.2) * (b.1 - a.1) / (b.2 - a.2) then !c else c) false

/-- The squared distance of a point from an edge. -/
def edgeDist2 (x y : Rat) (e : (Rat × Rat) × (Rat × Rat)) : Rat :=
  let dx := e.2.1 - e.1.1
  let dy := e.2.2 - e.1.2
  let n := dx * dx + dy * dy
  let t := if n = 0 then 0 else max 0 (min 1 (((x - e.1.1) * dx + (y - e.1.2) * dy) / n))
  let ex := x - e.1.1 - t * dx
  let ey := y - e.1.2 - t * dy
  ex * ex + ey * ey

/-- The least of a list. -/
def minQ (l : List Rat) : Rat := l.tail.foldl min (l.headD 0)

/-- The outcome of a fusion. -/
structure Cabin where
  status : Byte
  place : Nat
  x : Int
  y : Int
  units : Nat
  reason : Nat
  bound : Int
  resid : Nat

/-- Steps 7 to 9 of R237 for the used units, the head's first. -/
def cabinOf (b : Bytes) (units info : Nat) (h : Used) (l : List Used) : Cabin :=
  if l.length < 2 then ⟨cDistFail, 0, 0, 0, units, info + 2, 0, 0⟩
  else
    match solveXY h l with
    | none => ⟨cDistFail, 0, 0, 0, units, info + 2, 0, 0⟩
    | some (x, y) =>
      let all := h :: l
      if all.any fun u => decide ((le16 b 0x20 : Rat) < |u.r - u.d|) then
        ⟨cDistFail, 0, 0, 0, units, info + 4, 0, 0⟩
      else
        let e := all.map fun u => sqrtQ ((x - u.x) * (x - u.x) + (y - u.y) * (y - u.y)) - sqrtQ u.h2
        let ms2 : Rat := (e.map fun v => v * v).foldl (· + ·) 0 / (all.length : Rat)
        let resid := (roundQ (sqrtQ ms2)).toNat
        if ((le16 b 0x22 * le16 b 0x22 : Nat) : Rat) < ms2 then
          ⟨cDistFail, 0, roundQ x, roundQ y, units, info + 8, 0, resid⟩
        else
          let es := edges (uwbPoly b)
          let ins := insidePoly es x y
          let d2 := minQ (es.map (edgeDist2 x y))
          let bound := if ins then roundQ (sqrtQ d2) else - roundQ (sqrtQ d2)
          let place := if ins = false then 3 else if ((le16 b 0x24 * le16 b 0x24 : Nat) : Rat) ≤ d2 then 1 else 2
          ⟨if place = 1 then cOk else cDistFail, place, roundQ x, roundQ y, units, info, bound, resid⟩

/-- The head forms the cabin verdict of its oldest fused round (R236 to R238). -/
def State.fuse (s : State) : State :=
  match s.dist.fused with
  | [] => s
  | f :: rest =>
    let b := s.rng
    let s := { s with dist := { s.dist with fused := rest } }
    let ses := f.plan.ses
    if (s.ses ses).st ≠ .ready ∨ (s.ses ses).gen ≠ f.plan.gen then
      s.fusedResult cNoSession ses f.plan.gen 0 0 0 0 0 0 0
    else
      let there := (List.range 16).map (· + 1) |>.filter (unitThere b)
      let silent := there.any fun u => f.arrivals.all fun a => decide (a.unit ≠ u)
      let left := f.arrivals.any fun a => !a.aligned
      let info := b2n silent * 16 + b2n left * 32
      let head := f.arrivals.find? fun a => decide (a.unit = 1)
      let dh : Rat := (f.num : Rat) / f.den * 46918 / 10000
      match head.bind fun a => (headResp a.heard).bind fun t => (usedOf b dh t a).map fun u => (t, u) with
      | none => s.fusedResult cDistFail ses f.plan.gen 0 0 0 0 (info + 1) 0 0
      | some (ah, h) =>
        let l := (f.arrivals.filter fun a => decide (a.unit ≠ 1)).filterMap (usedOf b dh ah)
        let c := cabinOf b (maskOf ((h :: l).map fun u => u.unit - 1)) info h l
        s.fusedResult c.status ses f.plan.gen c.place c.x c.y c.units c.reason c.bound c.resid

/-- Every PRESENT, paired and aligned unit has reported (R236). -/
def State.allReported (s : State) (f : FusedRun) : Bool :=
  f.plan.units.all fun u => decide (u = 1) || !(s.member u).paired || !(s.member u).aligned ||
    f.arrivals.any fun a => decide (a.unit = u)

/-- The head fuses once the last slot has ended and every unit it waits for has reported. -/
def State.tryFuse (s : State) : State :=
  match s.dist.fused with
  | f :: _ => if s.isHead ∧ f.ended ∧ s.allReported f then s.fuse else s
  | [] => s

/-- The body of a unit's report of a fused round (the layout is the model's: log entry 23). -/
def reportBody (f : FusedRun) (aligned : Bool) : Bytes :=
  slice (ofWords f.verdict) 0 16 ++ [by8 (b2n (decide (f.verdict ≠ []))), by8 (b2n aligned), by8 f.heard.length] ++
    f.heard.flatMap fun x => by8 (x.slot * 4 + x.kind) :: toLE 5 x.time

/-- A report of a fused round. -/
def reportOf (u : Nat) (b : Bytes) : Arrival :=
  ⟨u, if byteAt b 16 = 1 then bodyWords b else [],
   (List.range (byteAt b 18)).map fun i => ⟨byteAt b (19 + 6 * i) / 4, byteAt b (19 + 6 * i) % 4, ofLE (slice b (20 + 6 * i) 5)⟩,
   decide (byteAt b 17 = 1)⟩

/-- The last slot x of a fused round ends: a unit reports to the head, and the head waits for the reports (R236). A unit
without the fused key sends none (R215). -/
def State.fusedEnd (s : State) (x : PlanSlot) (f : FusedRun) : State :=
  if s.isHead then
    let mine : Arrival := ⟨1, f.verdict, f.heard, true⟩
    (s.modRun x fun f => { f with ended := true, arrivals := mine :: f.arrivals }).tryFuse
  else
    let s := { s with dist := { s.dist with fused := s.dist.fused.filter fun g => !ofPlan x g.plan } }
    let key := (s.slotSes ⟨0, 0, f.plan.ses, f.plan.gen, true, 0, false, 0⟩).isSome
    s.onlyIf key fun s => s.sendAuth 1 3 3 (reportBody f f.align.ok) []

/-- A slot ends: its operations leave the radio, its verdict is written, and a fused round notes what it needs (R226,
R236). -/
def slotEnd (s : State) : State :=
  match s.dist.cur with
  | [] => s
  | r :: t =>
    let s := s.withdraw r.slot.start [128, 129, 130, 131]
    let v := s.verdictFree r (s.verdictWords r)
    let ws := v.1
    let s := v.2
    let own := decide (r.slot.unit = s.rngUnit)
    let s := { s with dist := { s.dist with cur := t }, eng := { s.eng with stsBusy := s.eng.stsBusy && !t.isEmpty } }
    let s := s.onlyIf (own || !r.slot.fused) fun s => s.ownVerdict ws
    let s := s.onlyIf own fun s => s.modRun r.slot fun f => { f with verdict := ws, num := r.num, den := r.den }
    match s.runOf r.slot with
    | some f => if (s.dist.plan ++ t.map fun r => r.slot).any (fun x => ofPlan x f.plan) then s else s.fusedEnd r.slot f
    | none => s

/-- A report of a fused round reaches the head (R236). -/
def arrivalTimes (s : State) : State :=
  match s.takeFrame 3 3 with
  | none => s
  | some (_, f, s) =>
    match s.dist.fused with
    | r :: rest =>
      if s.isHead ∧ f.src ∈ r.plan.units ∧ (r.arrivals.all fun a => decide (a.unit ≠ f.src)) then
        ({ s with dist := { s.dist with fused := { r with arrivals := r.arrivals ++ [reportOf f.src f.payload] } :: rest } }).tryFuse
      else s
    | [] => s

/-- 1.0 ms after the last slot's end the head fuses with what has arrived (R236). -/
def fusionTimeout (s : State) : State :=
  match s.dist.fused with
  | f :: _ => if s.isHead ∧ f.ended then s.fuse else s
  | [] => s

/-! ### The map, and leaving the resumed state -/

/-- A write of DIST_FUSE (R235): ignored on a unit that is not the head. -/
def fuseWrite (v : Word) (s : State) : State :=
  if s.isHead then
    let s := s.setReg aDIST_FUSE (v &&& 0xFF00)
    if bit v 31 then s.requestFused (fld v 15 8) else s
  else s

/-- A write of DIST_MAP (R213). -/
def mapWrite (v : Word) (s : State) : State :=
  let s := s.setReg aDIST_MAP (v &&& 0xFFFF00)
  let h := fld v 15 8
  let l := fld v 23 16
  let bad := !decide ((s.ses l).st = .ready ∧ (s.ses l).suite = 3)
  let s := s.onlyIf (bit v 31) fun s =>
    { s with dist := { s.dist with map := tput s.dist.map h l,
                                   mapSpoilt := s.dist.mapSpoilt.filter (fun n => n != h) ++ if bad then [h] else [] } }
  s.onlyIf (bit v 30) fun s => { s with dist := { s.dist with map := tdel s.dist.map h } }

/-- The unit leaves the resumed state: a round in progress ends and writes no further verdict (R232). -/
def State.roundsOff (s : State) : State :=
  let s := s.slotUses
  let s := { s with uwb := { s.uwb with ops := s.uwb.ops.filter fun o => !uwbRanging o },
                    eng := { s.eng with stsBusy := false } }
  { s with dist := { s.dist with plan := [], cur := [], fuseReqs := [], fused := [], named := [], roundEnd := s.dist.roundStart } }

/-- An alarm during a slot: its verdict is FAULT_ALARM, its frames are withdrawn, and its session closes: on the head the
session itself, on another unit its mirror, for which KEY_ERASE advances (R213, R240, R342). -/
def State.slotAlarm (s : State) : State :=
  match s.dist.cur with
  | [] => s
  | r :: _ =>
    let s' := (s.withdraw r.slot.start [128, 129, 130, 131]).modSlot r.slot.start fun r => { r with alarmed := true }
    match s.slotSes r.slot with
    | some l => ((s'.closeSes (if s.isHead then r.slot.ses else l)).bumpSat aAES_FAULT 7 0 1)
    | none => s'

/-- ROUND_START (R229). -/
def execRoundStart (s : State) : Result := done (roundStart s)
/-- PLAN (R230). -/
def execPlan (s : State) : Result := done (planArrives s)
/-- PLAN_DEADLINE (R230). -/
def execPlanDeadline (s : State) : Result := done (planDeadline s)
/-- SLOT_PLACEMENT (R231). -/
def execSlotPlacement (s : State) : Result := done (slotPlacement s)
/-- RESP_RECEIVED (R219). -/
def execRespReceived (fp : FirstPath) (s : State) : Result := done (respReceived s fp)
/-- REPORT_RECEIVED (R221). -/
def execReportReceived (fp : FirstPath) (payload : Bytes) (s : State) : Result := done (reportReceived s fp payload)
/-- REMOTE_VERDICT (R227). -/
def execRemoteVerdict (s : State) : Result := done (remoteVerdict s)
/-- NEXT (R228). -/
def execNext (m : Master) (s : State) : Result := done (s.owned m aDIST_VREAD nextVerdict)
/-- FUSED_ROUND_START (R235). -/
def execFusedRoundStart (s : State) : Result := done (fusedRoundStart s)
/-- MAP_SET (R213). -/
def execMapSet (m : Master) (v : Word) (s : State) : Result := done (s.owned m aDIST_MAP (mapWrite (setFld v 31 31 1)))
/-- MAP_CLR (R213). -/
def execMapClr (m : Master) (v : Word) (s : State) : Result := done (s.owned m aDIST_MAP (mapWrite (setFld v 30 30 1)))

end Machine
end Sys2Proof
end

