-- ==== Sys2Proof/Machine/Chain.lean ====
section
/-!
DEFINITION. The Causeway chain (R440 to R462): ports and links, arriving frames, enumeration, Sedge's data, the
Peat-to-Peat path and time transfer.
-/
namespace Sys2Proof
namespace Machine

/-! ### Roster and events (R452, R453) -/

/-- No member. -/
def memberNil : Member := ⟨false, false, 0, 0, false⟩

/-- Changes the roster's entry of an address. -/
def State.modMember (s : State) (u : Nat) (f : Member → Member) : State :=
  { s with cwy := { s.cwy with roster := tset s.cwy.roster u (f (s.member u)) memberNil } }

/-- The roster as a mask of the addresses that a test takes. -/
def State.memberMask (s : State) (f : Member → Bool) : Nat :=
  maskOf ((List.range 16).filter fun k => f (s.member (k + 1)))

/-- CWY_PRESENT and UNITS show the roster. -/
def State.showRoster (s : State) : State :=
  let p := s.memberMask fun m => m.present
  (s.setReg aCWY_PRESENT (w32 (s.memberMask (fun m => m.paired) * 65536 + p))).srf aCWY_STATUS 12 8 (popCount 16 p)

/-- A chain event in Q2; the address of an event that names none is open (log entry 7). -/
def State.chainEvent (s : State) (kind addr : Nat) : State :=
  (s.event [w32 (0x43570000 + kind % 256 * 256 + addr % 256)]).itemsBy .causeway .causeway 2 4 1

/-- A chain event that names no address. -/
def State.chainEventFree (s : State) (kind : Nat) : State :=
  let r := s.freeBytes 1
  r.2.chainEvent kind (byteAt r.1 0)

/-- The body of a ROSTER. -/
def State.rosterBody (s : State) : Bytes :=
  by8 (popCount 16 (s.memberMask fun m => m.present)) :: (List.range 16).flatMap fun k =>
    let m := s.member (k + 1)
    by8 (b2n m.present + 2 * b2n m.paired) :: toLE 3 m.start

/-- The head broadcasts its roster. -/
def State.sendRoster (s : State) : State := (s.showRoster).sendAuth 31 0 3 s.rosterBody []

/-- The head takes the addresses above one as absent, with a "left" event for each that was present (R454). -/
def State.leftBeyond (s : State) (a : Nat) : State :=
  s.each ((List.range 17).filter fun u => decide (a < u) && (s.member u).present) fun s u =>
    (s.modMember u fun _ => memberNil).chainEvent 2 u

/-- Takes a nonce NH. -/
def State.setNonce (s : State) (b : Bytes) : State := { s with cwy := { s.cwy with nh := b } }

/-- Sends ENUM on DN. -/
def State.sendEnum (s : State) (nextAddr : Nat) : State :=
  (s.place 1 ⟨0, s.unit, 0, 1, 0, 0, by8 nextAddr :: s.cwy.nh, 0, none⟩).2

/-- ENUM goes out once its fresh nonce is there (R452 step 1); without one there is no enumeration. -/
def State.enumGoesOn (s : State) : State :=
  (s.draw .nonceDn 16).next id (fun _ s => s) fun b s => (s.setNonce b).sendEnum 2

/-- The oldest JOIN that waits is answered by ENUM_GO with a fresh nonce (R455). -/
def State.joinGoesOn (s : State) : State :=
  match s.cwy.joins with
  | [] => s
  | u :: t =>
    (s.draw .nonceUp 16).next id (fun _ s => { s with cwy := { s.cwy with joins := t } }) fun b s =>
      (({ s with cwy := { s.cwy with joins := t } }).setNonce b).sendAuth u 0 7 b []

/-- The unit gets an address; the island's copy follows (R452; log entry 60). -/
def State.setUnit (s : State) (a : Nat) : State :=
  { s with envm := { s.envm with islandUnit := a % 32 } }.srf aCWY_STATUS 4 0 a

/-- The head begins an enumeration (R452 step 1). -/
def State.enumStart (s : State) : State :=
  let s := (s.setUnit 1).srb aCWY_STATUS 13 false
  let s := s.modMember 1 fun _ => ⟨true, (s.chainKey s.ksel).isSome && s.startOk, s.cwy.startNo, 0, true⟩
  let s := s.each (List.range 17) fun s u => s.onlyIf (decide (1 < u)) fun s => s.onlyIf (s.member u).present fun s =>
    s.modMember u fun m => { m with aligned := false }
  ({ s with cwy := { s.cwy with walking := true } }).showRoster.enumGoesOn

/-! ### Q8 (R458) -/

/-- The controller takes packets from Q8 while the unit has an address, no CHAIN replacement drains (R65) and no frame of
Sedge's waits at a port. -/
def State.drainQ8 : Nat → State → State
  | 0, s => s
  | n + 1, s =>
    if s.resumed = false ∨ s.unit = 0 ∨ 6 ∈ s.cfg.held ∨
        ([0, 1].any fun p => (s.port p).waiting.any fun f => decide (f.cls = 1 ∧ f.src = s.unit)) then s
    else
      match s.headPacket 8 with
      | none => s
      | some p =>
        let s := (s.takeHead 8).itemsBy .causeway .causeway 8 3 p.items.length
        if packetBroken p then State.drainQ8 n (s.countBroken 8 p)
        else
          let dst := fld ((packetWords p).headD 0) 4 0
          State.drainQ8 n (s.cwySend 1 ⟨dst, s.unit, 1, 0, 0, 0, (p.items.drop 1).flatMap itemBytes, 0, none⟩)

/-- Takes what Q8 holds. -/
def State.pumpQ8 (s : State) : State := State.drainQ8 8 s

/-! ### Ports (R442, R445) -/

/-- The unit has left the chain: its mirror sessions close (R213). -/
def State.closeMirrors (s : State) : State :=
  s.each ((s.sess.map (·.1)).filter fun n => decide ((s.ses n).suite = 3)) fun s n => s.closeOne n

/-- A port goes DOWN and retrains: its frames are discarded and counted; the far side of the chain is lost. -/
def State.portDown (s : State) (p : Nat) : State :=
  if s.portUp p = false then s
  else
    let x := s.port p
    let s := (s.setPort p portNil).bump aCWY_AUTH 31 16 (x.unacked.length + x.waiting.length)
    let s := (s.srf (aCWY_PORT p) 25 24 1).srb (aCWY_PORT p) 31 true
    if p = 1 then
      let s := ({ s with cwy := { s.cwy with exchanges := [], walking := false } }).forgetDraw .nonceDn
      if s.isHead then (s.leftBeyond 1).sendRoster else s.sendAuth 1 0 5 [] []
    else if s.isHead then s
    else s.closeMirrors

/-- A training receiver has locked and sends its READY sets. -/
def lineLock (p : Nat) (s : State) : State :=
  if s.resumed ∧ s.rf (aCWY_PORT p) 25 24 = 1 then s.setPort p { s.port p with readySent := true } else s

/-- A port comes UP: the head's UP port is disabled, its DN port starts an enumeration, an addressed unit joins (R442,
R452, R455). -/
def portComesUp (p : Nat) (s : State) : State :=
  if s.resumed ∧ s.rf (aCWY_PORT p) 25 24 = 1 ∧ (s.port p).readySent then
    if s.isHead ∧ p = 0 then (s.srb (aCWY_PORT 0) 30 true).srf (aCWY_PORT 0) 25 24 3
    else
      let s := (s.setPort p { portNil with readySent := true }).srf (aCWY_PORT p) 25 24 2
      let s := { s with cwy := (if p = 1 then { s.cwy with exchanges := [], ttDn := 0 }
                                else { s.cwy with stamps := [], ttUp := none }) }
      let s := { s with cwy := { s.cwy with wakeOut := s.cwy.wakeOut.filter fun q => decide (q ≠ p) } }
      if p = 1 ∧ s.isHead then s.enumStart.pumpQ8
      else if p = 1 ∧ s.unit ≠ 0 then (s.sendAuth 1 0 6 [] []).pumpQ8
      else s.pumpQ8
  else s

/-- A link that loses its code groups. -/
def linkLoss (p : Nat) (s : State) : State :=
  if s.portUp p then s.portDown p
  else s.onlyIf (decide (s.rf (aCWY_PORT p) 25 24 = 1)) fun s => s.setPort p portNil

/-- Resends from the oldest unacknowledged frame. -/
def State.resend (s : State) (p : Nat) : State :=
  let n := (s.port p).unacked.length
  (s.bump (aCWY_ERR p) 31 16 n).evt 0x13 0x16 n

/-- LINK_TO_US pass without an ACK; the sixteenth time in a row the port goes DOWN. -/
def retransmit (p : Nat) (s : State) : State :=
  let x := s.port p
  if s.portUp p = false ∨ x.unacked = [] then s
  else if 15 ≤ x.timeouts then s.portDown p
  else (s.setPort p { x with timeouts := x.timeouts + 1 }).resend p

/-- Frames after the one of a sequence number; none where no frame has it. -/
def ackedTo (seq : Byte) : List Frame → Option (List Frame)
  | [] => none
  | f :: t => if f.lseq = seq then some t else ackedTo seq t

/-- Frames up to a sequence number were received. -/
def ackUpTo (p : Nat) (seq : Byte) (s : State) : State :=
  if s.portUp p = false then s
  else
    match ackedTo seq (s.port p).unacked with
    | some t => ((s.setPort p { s.port p with unacked := t, timeouts := 0 }).pump p).pumpQ8
    | none => s

/-- A NAK: as an ACK up to S, and what follows is sent again. -/
def nakFrom (p : Nat) (seq : Byte) (s : State) : State :=
  if s.portUp p = false then s
  else
    let s := match ackedTo seq (s.port p).unacked with
      | some t => s.setPort p { s.port p with unacked := t, timeouts := 0 }
      | none => s
    ((s.resend p).pump p).pumpQ8

/-! ### Time transfer (R459, R460) -/

/-- A signed value of n bytes. -/
def leI (b : Bytes) (i n : Nat) : Int := sgn (8 * n) (ofLE (slice b i n))

/-- n bytes of a signed value. -/
def toLeI (n : Nat) (v : Int) : Bytes := toLE n (unsgn (8 * n) v)

/-- Fills in the child's stamps, each under its exchange's number; an exchange whose stamps never come keeps none (R460). -/
def fillStamps (l : List (Nat × Nat × Nat)) (es : List Exch) : List Exch :=
  es.map fun e =>
    match l.find? fun x => decide (x.1 = e.no) with
    | some x => { e with t2 := some x.2.1, t3 := some x.2.2 }
    | none => e

/-- The link delay and θ of an exchange, with the child's LINK_ASYM (R459). -/
def exchOf (asym : Int) (e : Exch) : Option (Int × Int × Nat) :=
  match e.t2, e.t3, e.t4 with
  | some t2, some t3, some t4 =>
    let out := tsAhead t2 e.t1
    let back := tsAhead t4 t3
    some ((tsAhead t4 e.t1 - tsAhead t3 t2) / 2, (out - back - asym) / 2, e.t1)
  | _, _, _ => none

/-- The child's stamps reach the parent (the layout is the model's: log entry 23). -/
def State.takeStamps (s : State) (b : Bytes) : State :=
  let l := (List.range ((b.length - 2) / 14)).map fun i =>
    (le32 b (2 + 14 * i), ofLE (slice b (6 + 14 * i) 5), ofLE (slice b (11 + 14 * i) 5))
  let asym := leI b 0 2
  let ex := fillStamps l s.cwy.exchanges
  let s := { s with cwy := { s.cwy with exchanges := ex, asym := asym } }
  match (ex.filterMap (exchOf asym)).getLast? with
  | some d => s.srf (aCWY_PORT 1) 15 0 (unsgn 16 d.1)
  | none => s

/-- TT_PERIOD pass on the parent of a link: a MARK leaves at t1. -/
def ttExchange (t1 : Nat) (s : State) : State :=
  if s.resumed ∧ s.portUp 1 ∧ s.unit ≠ 0 ∧ 6 ∉ s.cfg.held then
    { s with cwy := { s.cwy with exchanges := s.cwy.exchanges ++ [⟨t1 % 2 ^ 40, none, none, none, s.cwy.ttDn⟩],
                                 ttDn := s.cwy.ttDn + 1 } }
  else s

/-- The child's MARK arrives at t4: it answers the last exchange, where that one has no answer yet. -/
def putT4 (t : Nat) : List Exch → List Exch
  | [] => []
  | [e] => [if e.t4.isNone then { e with t4 := some t } else e]
  | e :: r => e :: putT4 t r

/-- TT_PERIOD in TS steps. -/
def State.ttSteps (s : State) : Nat := tsUs (match s.sect 6 0 with | some b => max 1 (le16 b 2) | none => 95)

/-- The number of the exchange whose MARK arrives at t: a MARK comes every TT_PERIOD, so a lost one leaves its number out (log
entry 77). -/
def State.markNo (s : State) (t : Nat) : Nat :=
  match s.cwy.ttUp with
  | none => 0
  | some (n, t0) => n + max 1 ((2 * (tsAhead t t0).toNat + s.ttSteps) / (2 * s.ttSteps))

/-- A MARK arrives: at the child it is t2, and its own MARK leaves at t3; at the parent it is t4. The child sends its stamps
eight exchanges to a frame. -/
def markArrives (p t sent : Nat) (s : State) : State :=
  if s.resumed = false ∨ s.portUp p = false then s
  else if p = 1 then
    { s with cwy := { s.cwy with exchanges := putT4 (t % 2 ^ 40) s.cwy.exchanges } }
  else
    let n := s.markNo (t % 2 ^ 40)
    let l := s.cwy.stamps ++ [(n, t % 2 ^ 40, sent % 2 ^ 40)]
    let s := { s with cwy := { s.cwy with ttUp := some (n, t % 2 ^ 40) } }
    if l.length < 8 then { s with cwy := { s.cwy with stamps := l } }
    else
      let asym := (match s.sect 6 0 with | some b => slice b 4 2 | none => [0, 0])
      ({ s with cwy := { s.cwy with stamps := [] } }).sendAuth (s.unit - 1) 4 1
        (asym ++ l.flatMap fun (x : Nat × Nat × Nat) => toLE 4 x.1 ++ toLE 5 x.2.1 ++ toLE 5 x.2.2) []

/-- A quotient to the nearest integer. -/
def divRound (a b : Int) : Int := (2 * a + b) / (2 * b)

/-- The line through points (t, θ) by least squares: θ at t = 0, and the rate in units of 2^-32 (R459). -/
def fitLine (l : List (Int × Int)) : Int × Int :=
  let sum := fun (f : Int × Int → Int) => (l.map f).foldl (· + ·) 0
  let n : Int := l.length
  let st := sum Prod.fst
  let sq := sum Prod.snd
  let stt := sum fun x => x.1 * x.1
  let stq := sum fun x => x.1 * x.2
  let d := n * stt - st * st
  if d = 0 then (divRound sq n, 0) else (divRound (sq * stt - st * stq) d, divRound ((n * stq - st * sq) * 2 ^ 32) d)

/-- After 32 exchanges the parent fits offset and rate and sends the child its update; none that rests on fewer than 16
exchanges (R459, R460). The command names the link by its parent, and brings the link's uncertainty, at most 20 ps rms. -/
def ttFit (link uncPs : Nat) (s : State) : State :=
  if s.resumed = false ∨ link ≠ s.unit ∨ s.cwy.exchanges.length < 32 then s
  else
  let l := (s.cwy.exchanges.take 32).filterMap (exchOf s.cwy.asym)
  let s := { s with cwy := { s.cwy with exchanges := s.cwy.exchanges.drop 32 } }
  match l with
  | [] => s
  | d :: _ =>
    if l.length < 16 then s
    else
      let last := l.getLastD d
      let fit := fitLine (l.map fun x => (tsAhead x.2.2 last.2.2, x.2.1))
      let theta := fit.1
      let rate := fit.2
      let uncPs := min 20 uncPs
      let off := if s.isHead then 0 else s.alignOffset
      let myRate := if s.isHead then 0 else sgn 32 (s.reg aDIST_RATE).toNat
      let unc := if s.isHead then 0 else s.rf aDIST_ALIGNQ 15 0
      s.sendAuth (s.unit + 1) 4 2
        (toLeI 6 theta ++ toLeI 4 rate ++ toLE 2 uncPs ++ toLeI 6 off ++ toLeI 4 myRate ++ toLE 2 unc) []

/-- A child takes its update (R459), and reports ALIGNED when it first meets R234 (R452 step 6). -/
def timeUpdate (s : State) : State :=
  match s.takeFrame 4 2 with
  | none => s
  | some (_, f, s) =>
    let b := f.payload
    let off : Nat := unsgn 40 (leI b 12 6 - leI b 0 6)
    let rate := leI b 18 4 - leI b 6 4
    let lu := le16 b 10
    let pu := le16 b 22
    let unc := min 65535 (isqrt (lu * lu + pu * pu))
    let s := (s.setReg aDIST_ALIGN_LO (w32 (off % 2 ^ 32))).setReg aDIST_ALIGN_HI (w32 (off / 2 ^ 32))
    let s := (s.setReg aDIST_RATE (w32 (unsgn 32 rate))).srf aDIST_ALIGNQ 15 0 unc
    let s := { s with cwy := { s.cwy with alignAt := some s.now, expired := false } }
    if s.alignOk ∧ s.cwy.alignedSent = false then
      ({ s with cwy := { s.cwy with alignedSent := true } }).sendAuth 1 0 4 [] []
    else s

/-! ### Arriving frames (R444 to R451) -/

/-- The frame that the bytes between SOF and EOF spell, where header, length and CRC are right. -/
def parseFrame (b : Bytes) : Option Frame :=
  let n := b.length - 4
  let hp := b.take n
  let h := fun i => byteAt hp i
  if 12 ≤ b.length ∧ b.length = 12 + h 4 ∧ h 4 ≤ 244 ∧ ofLE (b.drop n) = crc32c hp then
    some ⟨h 0, h 1, h 2 % 16, h 2 / 16, by8 (h 3), by8 (h 5), hp.drop 8, le16 hp 6, none⟩
  else none

/-- Discards an authenticated frame and counts it (R449, R451). -/
def State.refuseFrame (s : State) : State := s.bump aCWY_AUTH 15 0 1

/-- The START and COUNT of an authenticated frame. -/
def frameStart (f : Frame) : Nat × Nat := (ofLE (f.payload.take 3), ofLE (slice f.payload 3 5))

/-- The START against which a frame is judged: the roster's; a ROSTER's own entry for its sender (log entry 26). -/
def State.startFor (s : State) (f : Frame) (body : Bytes) : Option (Nat × Nat) :=
  let m := s.member f.src
  if f.cls = 0 ∧ f.sub = 3 then
    let st := ofLE (slice body (2 + 4 * (f.src - 1)) 3)
    some (st, if st = m.start then m.maxCount else 0)
  else if m.present ∧ m.paired then some (m.start, m.maxCount)
  else none

/-- Queues a frame for the block that takes it. -/
def State.takeIn (s : State) (p : Nat) (f : Frame) : State :=
  { s with cwy := { s.cwy with taken := s.cwy.taken ++ [(p, f)] } }

/-- The subtypes that a class has (R444, R452 to R459; of classes 3 and 4 the model's: log entry 23). -/
def knownSub (cls sub : Nat) : Bool :=
  match cls with
  | 0 => decide (1 ≤ sub ∧ sub ≤ 7)
  | 1 => true
  | 2 => decide (1 ≤ sub ∧ sub ≤ 4)
  | 3 => decide (1 ≤ sub ∧ sub ≤ 3)
  | 4 => decide (1 ≤ sub ∧ sub ≤ 2)
  | _ => decide (1 ≤ sub ∧ sub ≤ 5)

/-- Opens an authenticated frame under the slot that its KSEL names, in an internal job on CH126 (R449, R450). -/
def State.openAuth (s : State) (f : Frame) (nh : Bytes) : Option Bytes × State :=
  match s.chainKey (f.flags.toNat % 2) with
  | none => (none, s)
  | some k =>
    match s.innerJob engAes with
    | (c, s) => (if c = cOk then openFrame k f nh else none, s)

/-- An authenticated frame is judged (R449 to R451): accepted, its BODY stands in place of its payload. -/
def State.judgeFrame (s : State) (p : Nat) (f : Frame) : State :=
  match s.openAuth f [] with
  | (none, s) => s.refuseFrame
  | (some body, s) =>
      match s.startFor f body with
      | some (st, mx) =>
        let q := frameStart f
        if q.1 = st ∧ mx < q.2 then
          let s := s.modMember f.src fun m => { m with start := st, maxCount := q.2 }
          let f := { f with payload := body }
          if f.cls = 4 ∧ f.sub = 1 then s.takeStamps body
          else if knownSub f.cls f.sub then s.takeIn p f else s
        else s.refuseFrame
      | none => s.refuseFrame

/-- A frame for this unit goes to its class (R444). -/
def State.takeFor (s : State) (p : Nat) (f : Frame) : State :=
  if f.cls = 1 ∨ (f.cls = 0 ∧ (f.sub = 1 ∨ f.sub = 2)) then s.takeIn p f
  else s.judgeFrame p f

/-- The frames that wait at a port to be forwarded. -/
def State.forwarded (s : State) (p : Nat) : Nat := ((s.port p).waiting.filter fun f => decide (f.src ≠ s.unit)).length

/-- The port through which an arriving frame is forwarded, if any (R446). An unaddressed unit forwards on its other port. -/
def State.forwardPort (s : State) (p : Nat) (f : Frame) : Option Nat :=
  if f.dst = 0 then none
  else if f.dst = 31 ∨ s.unit = 0 then some (1 - p)
  else if f.dst = s.unit then none
  else if f.dst < s.unit then some 0 else some 1

/-- Forwards a frame in arrival order. -/
def State.forwardOn (s : State) (p : Nat) (f : Frame) : State :=
  if s.portUp p then
    (s.setPort p { s.port p with waiting := (s.port p).waiting ++ [f] }).pump p
  else s.noRoute

/-- A Q9 packet has been begun from a frame that then fails its check: a class 1 frame for this unit, with the LSEQ expected
(R448). -/
def State.dataBegun (s : State) (p : Nat) (b : Bytes) : Bool :=
  decide (12 ≤ b.length ∧ byteAt b 2 % 16 = 1 ∧ (byteAt b 0 = 31 ∨ (s.unit ≠ 0 ∧ byteAt b 0 = s.unit)) ∧
    byteAt b 3 = (s.port p).rxSeq.toNat ∧ 0 < s.room 9 ∧ s.openCount 9 < 8)

/-- A frame arrives at a port (R445 to R448). What was begun from a bad one is discarded, a Q9 packet rewound. -/
def frameArrival (p : Nat) (symbolsOk : Bool) (b : Bytes) (s : State) : State :=
  if s.resumed = false ∨ s.portUp p = false then s
  else
    match (if symbolsOk then parseFrame b else none) with
    | none =>
      ((s.bump (aCWY_ERR p) 15 0 1).setPort p { s.port p with nakSent := true }).onlyIf (s.dataBegun p b) fun s => s.drop 9
    | some f =>
      if f.lseq ≠ (s.port p).rxSeq then s.setPort p { s.port p with nakSent := true }
      else
        let out := s.forwardPort p f
        if (out.map fun o => s.portUp o && decide (16 ≤ s.forwarded o)).getD false then s
        else
          let s := s.setPort p { s.port p with rxSeq := (s.port p).rxSeq + 1, nakSent := false, acked := some f.lseq }
          if 5 < f.cls ∨ 32 ≤ f.dst then s
          else
            let s := match out with | some o => s.forwardOn o f | none => s
            if f.dst = 0 ∨ f.dst = s.unit ∨ f.dst = 31 then s.takeFor p f else s

/-! ### Enumeration (R452 to R456) -/

/-- The body of an ENUM_ACK. -/
def State.ackBody (s : State) : Bytes := toLE 16 Config.deviceId.toNat ++ [by8 (b2n (s.portUp 1))]

/-- A unit that can send no authenticated frame answers with one that does not verify, so that it is marked not paired
(R462; log entry 27). -/
def State.sendEnumAck (s : State) : State :=
  if (s.chainKey s.ksel).isSome ∧ s.startOk then s.sendAuth 1 0 2 s.ackBody s.cwy.nh
  else s.cwySend 0 ⟨1, s.unit, 0, 2, 0, by8 s.ksel, zeros 8 ++ s.ackBody ++ zeros 16, 0, none⟩

/-- ENUM reaches a unit on its UP port (R452 step 2). A unit that had an address has left the chain before: its mirrors close
(R213). -/
def enumArrives (s : State) : State :=
  match s.takeFrame 0 1 with
  | none => s
  | some (p, f, s) =>
    if s.isHead ∨ p ≠ 0 then s
    else
      let a := byteAt f.payload 0
      let s := (s.onlyIf (decide (s.unit ≠ 0)) State.closeMirrors).setUnit a
      let s := { s with cwy := { s.cwy with nh := slice f.payload 1 16, alignedSent := false } }
      let s := s.sendEnumAck
      (if s.portUp 1 then s.sendEnum (a + 1) else s).pumpQ8

/-- Once every paired unit has reported ALIGNED, the enumeration is complete (R452 step 6). -/
def State.enumCheck (s : State) : State :=
  let all := ((List.range 17).drop 2).all fun u => !(s.member u).paired || (s.member u).aligned
  if all ∧ s.cwy.walking = false ∧ s.rb aCWY_STATUS 13 = false then (s.srb aCWY_STATUS 13 true).chainEventFree 4 else s

/-- The walk ends with a unit: addresses beyond it are absent, and the roster goes out (R452 steps 3 and 4; R453). -/
def State.walkEnds (s : State) (a : Nat) : State :=
  let s := ({ s with cwy := { s.cwy with walking := false } })
  let s := ((s.leftBeyond a).sendRoster).enumCheck
  let n := popCount 16 (s.memberMask fun m => m.present)
  match s.sect 6 0 with
  | some b => if byteAt b 1 = n then s else s.chainEventFree 5
  | none => s

/-- The head judges an ENUM_ACK against its nonce (R451, R452 step 3). -/
def enumAckArrives (s : State) : State :=
  match s.takeFrame 0 2 with
  | none => s
  | some (_, f, s) =>
    if s.isHead = false ∨ f.src < 2 ∨ 16 < f.src then s
    else
      let was := (s.member f.src).present
      let x := s.openAuth f s.cwy.nh
      let ok := x.1.isSome
      let s := x.2
      let q := frameStart f
      let dn := byteAt f.payload 24
      let s :=
        if ok then
          (s.modMember f.src fun _ => ⟨true, true, q.1, q.2, false⟩).onlyIf (!was) fun s => s.chainEvent 1 f.src
        else
          let s := (s.refuseFrame.srb aCWY_STATUS 14 true).modMember f.src fun _ => ⟨true, false, 0, 0, false⟩
          s.chainEvent 3 f.src
      let s := s.showRoster
      if dn = 0 then s.walkEnds f.src else s

/-- A roster reaches a unit. -/
def rosterArrives (s : State) : State :=
  match s.takeFrame 0 3 with
  | none => s
  | some (_, f, s) =>
    if s.isHead then s
    else
      let b := f.payload
      let s := s.each ((List.range 17).drop 1) fun s u =>
        let g := byteAt b (1 + 4 * (u - 1))
        let st := ofLE (slice b (2 + 4 * (u - 1)) 3)
        s.modMember u fun m => ⟨testBit g 0, testBit g 1, st, if m.start = st then m.maxCount else 0, m.aligned⟩
      let me := s.member s.unit
      (s.showRoster).onlyIf (me.present && !me.paired) fun s => s.srb aCWY_STATUS 14 true

/-- ALIGNED reaches the head: once every paired unit has reported, the enumeration is complete (R452 step 6). -/
def alignedArrives (s : State) : State :=
  match s.takeFrame 0 4 with
  | none => s
  | some (_, f, s) =>
    if s.isHead = false then s
    else (s.modMember f.src fun m => { m with aligned := true }).enumCheck

/-- LOST reaches the head (R454). -/
def lostArrives (s : State) : State :=
  match s.takeFrame 0 5 with
  | none => s
  | some (_, f, s) =>
    if s.isHead then ((({ s with cwy := { s.cwy with walking := false } }).leftBeyond f.src).sendRoster).enumCheck else s

/-- JOIN reaches the head (R455): R452 runs again from step 2, to its completion event. -/
def joinArrives (s : State) : State :=
  match s.takeFrame 0 6 with
  | none => s
  | some (_, f, s) =>
    if s.isHead then
      (({ s with cwy := { s.cwy with walking := true, joins := s.cwy.joins ++ [f.src] } }).srb aCWY_STATUS 13 false).joinGoesOn
    else s

/-- ENUM_GO reaches a unit (R455). -/
def enumGoArrives (s : State) : State :=
  match s.takeFrame 0 7 with
  | none => s
  | some (_, f, s) =>
    if s.unit = 0 then s
    else
      let s := { s with cwy := { s.cwy with nh := slice f.payload 0 16 } }
      if s.portUp 1 then s.sendEnum (s.unit + 1) else s

/-- A class 1 frame goes to Q9, which it waits for; one larger than the whole queue is rewound (R399, R458). -/
def dataFrameReceived (s : State) : State :=
  match s.cwy.taken.find? fun x => decide (x.2.cls = 1) with
  | none => s
  | some x =>
    let p := bytesPacket 0 0xFF (toLE 4 (x.2.src % 32 + x.2.payload.length * 256) ++ x.2.payload)
    let u := { s with cwy := { s.cwy with taken := s.cwy.taken.erase x } }
    if s.capacity 9 < p.items.length then u.drop 9 else ((u.hwCommit 9 p).map fun t => t.itemsBy .causeway .causeway 9 4 p.items.length).getD s

/-! ### Peat to Peat (R456, R457) -/

/-- A class 2 command ends: CWY_PSTAT takes its status. -/
def State.pcmdEnd (s : State) (status : Byte) : State :=
  ({ s with cwy := { s.cwy with receipts := [], pheld := false } }).setReg aCWY_PSTAT (w32 (status.toNat * 2 ^ 24 + 1))
    |>.ended 0x13 status

/-- The units whose receipt a frame waits for. -/
def State.pcmdTo (s : State) (dst : Nat) : List Nat :=
  if dst = 31 then ((List.range 17).drop 1).filter fun u => (s.member u).present && decide (u ≠ s.unit) else [dst]

/-- Every present unit has sent its receipt: a switch takes effect on the head (R456), and the command ends. -/
def State.receiptsIn (s : State) (status : Byte) : State :=
  (s.onlyIf (decide (s.rf aCWY_PCMD 30 28 = 3)) fun s => s.srf aCWY_KEYSEL 0 0 (s.rf aCWY_PCMD 0 0)).pcmdEnd status

/-- Sends a class 2 frame of Peat's. -/
def State.pcmdSend (s : State) (dst sub : Nat) (body : Bytes) : State :=
  let units := s.pcmdTo dst
  let s := (s.setReg aCWY_PSTAT (w32 (cPending.toNat * 2 ^ 24))).sendAuth dst 2 sub body []
  if units = [] then s.receiptsIn cOk else { s with cwy := { s.cwy with receipts := units, pstatus := cOk } }

/-- GO: the class 2 frame that CWY_PCMD names is sent (R457). -/
def State.pcmdGo (s : State) : State :=
  let v := s.reg aCWY_PCMD
  let sub := fld v 30 28
  let dst := fld v 20 16
  let names : Bytes := [by8 (fld v 15 8), by8 (fld v 7 0)]
  if sub = 1 then
    let r := s.reg aCWY_PKREF
    let bad := if kLen r = 0 then cLenZero else if kSes r = false ∨ kLen r ≠ 3 ∨ kOff r ≠ 0 then cAuthFail else s.keyCheck 126 r 0
    match s.chainKey s.ksel with
    | none => s.pcmdEnd cKeyEmpty
    | some k =>
      if bad ≠ cOk then s.pcmdEnd bad
      else
        match s.innerJob engAes with
        | (c, s) =>
          if c ≠ cOk then s.pcmdEnd c else s.pcmdSend dst 1 (by8 (b2n (bit v 27)) :: names ++ kwWrap k (s.keyBytes r))
  else if sub = 2 then s.pcmdSend dst 2 names
  else if sub = 3 then s.pcmdSend dst 3 [by8 (fld v 0 0)]
  else s.pcmdEnd cAuthFail

/-- A write of CWY_PCMD or CWY_PKREF before the receipt makes CWY_PSTAT and the frame sent unpredictable (R14, R15). -/
def State.spoilPcmd (s : State) : State :=
  let x := s.freeBytes 244
  let spoilt := fun (f : Frame) => if f.cls = 2 ∧ f.src = s.unit then { f with payload := x.1.take f.payload.length } else f
  let t := x.2.each [0, 1] fun s p =>
    let y := s.port p
    s.setPort p { y with waiting := y.waiting.map spoilt, unacked := y.unacked.map spoilt }
  t.freeIn aCWY_PSTAT 0xFF000001

/-- A write of CWY_PCMD: its GO waits while a CHAIN replacement drains (R65, R457). -/
def pcmdWrite (v : Word) (s : State) : State :=
  let t := s.setReg aCWY_PCMD (v &&& 0x781FFFFF)
  let t :=
    if bit v 31 = false then t
    else if 6 ∈ t.cfg.held then
      ({ t with cwy := { t.cwy with pheld := true } }).setReg aCWY_PSTAT (w32 (cPending.toNat * 2 ^ 24))
    else t.pcmdGo
  t.onlyIf (decide (s.cwy.receipts ≠ [])) State.spoilPcmd

/-- The replacement of CHAIN is over: Causeway traffic that waited goes on (R65). -/
def State.resumeCauseway (s : State) : State :=
  let s := s.pumpQ8
  if s.cwy.pheld then ({ s with cwy := { s.cwy with pheld := false } }).pcmdGo else s

/-- Returns a receipt. -/
def State.receipt (s : State) (dst sub : Nat) (status : Byte) : State := s.sendAuth dst 2 4 [by8 sub, status] []

/-- Records a KEY or CLOSE for Peat: up to four. -/
def State.notify (s : State) (sub part src : Nat) (b : Bytes) (i : Nat) : State :=
  let w := w32 (2 ^ 31 + sub * 2 ^ 28 + part * 2 ^ 27 + src % 32 * 2 ^ 16 + byteAt b i * 2 ^ 8 + byteAt b (i + 1))
  ({ s with cwy := { s.cwy with notifs := s.cwy.notifs ++ [w] } }).raise .causeway

/-- A ranging key lands in a session (R293, R375): its parts go to OFF 0, or with the fused context to OFF 2. -/
def State.landKey (s : State) (n part : Nat) (k : Bytes) : State :=
  let o := if part = 0 then 0 else 32
  let s := (s.keyWrite true n o (slice k 0 16)).keyWrite true n (o + 16) (slice k 32 16)
  s.modSes n fun x =>
    if part = 0 then { x with vSeed := slice k 16 12 } else { x with vSeedF := slice k 16 12, hasFused := true }

/-- A KEY frame (R457): PART, SES and GEN, and the 48 bytes of the key wrapped into 56, which an internal job on CH126
unwraps. -/
def keyFrameReceived (s : State) : State :=
  match s.takeFrame 2 1 with
  | none => s
  | some (_, f, s) =>
    let b := f.payload
    if 4 ≤ s.cwy.notifs.length then s.receipt f.src 1 cAborted
    else if s.rb aCWY_PLAND 31 = false ∨ (s.ses (s.rf aCWY_PLAND 7 0)).st ≠ .ready ∨
        (s.ses (s.rf aCWY_PLAND 7 0)).suite ≠ 3 then s.receipt f.src 1 cNoSession
    else if b.length ≠ 59 then s.receipt f.src 1 cAuthFail
    else
      match s.innerJob engAes with
      | (c, s) =>
      if c ≠ cOk then s.receipt f.src 1 c
      else
      match (s.chainKey (f.flags.toNat % 2)).bind fun k => kwUnwrap k (b.drop 3) with
      | none => s.receipt f.src 1 cTagFail
      | some k =>
        let s := (s.landKey (s.rf aCWY_PLAND 7 0) (byteAt b 0 % 2) k).srb aCWY_PLAND 31 false
        (s.notify 1 (byteAt b 0 % 2) f.src b 1).receipt f.src 1 cOk

/-- A CLOSE frame. -/
def closeFrameReceived (s : State) : State :=
  match s.takeFrame 2 2 with
  | none => s
  | some (_, f, s) =>
    if 4 ≤ s.cwy.notifs.length then s.receipt f.src 2 cAborted
    else (s.notify 2 0 f.src f.payload 0).receipt f.src 2 cOk

/-- A SWITCH frame (R456). -/
def switchReceived (s : State) : State :=
  match s.takeFrame 2 3 with
  | none => s
  | some (_, f, s) => (s.srf aCWY_KEYSEL 0 0 (byteAt f.payload 0)).receipt f.src 3 cOk

/-- A RECEIPT reaches the sender: the last one ends the command, and a switch then takes effect on the head. -/
def receiptArrives (s : State) : State :=
  match s.takeFrame 2 4 with
  | none => s
  | some (_, f, s) =>
    if f.src ∈ s.cwy.receipts then
      let st := by8 (byteAt f.payload 1)
      let l := s.cwy.receipts.erase f.src
      let w := if s.cwy.pstatus = cOk then st else s.cwy.pstatus
      if l = [] then s.receiptsIn w
      else { s with cwy := { s.cwy with receipts := l, pstatus := w } }
    else s

/-- 5 ms pass without every receipt. -/
def receiptTimeout (s : State) : State := if s.cwy.receipts = [] ∧ s.cwy.pheld = false then s else s.pcmdEnd cAborted

/-- NEW is cleared in CWY_PRX: Peat has read the notification, closes the mirror that a CLOSE names, and the next one shows
(R213, R457). -/
def prxClear (s : State) : State :=
  match s.cwy.notifs with
  | [] => s
  | w :: t =>
    let s := { s with cwy := { s.cwy with notifs := t } }
    if fld w 30 28 = 2 then
      let h := fld w 15 8
      match tfind s.dist.map h with
      | some l => { s.closeOne l with dist := { (s.closeOne l).dist with map := tdel (s.closeOne l).dist.map h } }
      | none => s
    else s

/-- PORT_UP (R442). -/
def execPortUp (p : Port) (s : State) : Result := done (portComesUp (portIx p) s)
/-- LINE_LOCK (R442). -/
def execLineLock (p : Port) (s : State) : Result := done (lineLock (portIx p) s)
/-- LINK_LOSS (R442). -/
def execLinkLoss (p : Port) (s : State) : Result := done (linkLoss (portIx p) s)
/-- RETRANSMISSION_TIMEOUT (R445). -/
def execRetransmissionTimeout (p : Port) (s : State) : Result := done (retransmit (portIx p) s)
/-- FRAME_ARRIVAL (R446). -/
def execFrameArrival (p : Port) (symbolsOk : Bool) (frame : Bytes) (s : State) : Result :=
  done (frameArrival (portIx p) symbolsOk frame s)
/-- ACK (R445). -/
def execAck (p : Port) (seq : Byte) (s : State) : Result := done (ackUpTo (portIx p) seq s)
/-- NAK (R445). -/
def execNak (p : Port) (seq : Byte) (s : State) : Result := done (nakFrom (portIx p) seq s)
/-- ENUM (R452). -/
def execEnum (s : State) : Result := done (enumArrives s)
/-- ENUM_ACK (R452). -/
def execEnumAck (s : State) : Result := done (enumAckArrives s)
/-- ROSTER (R452). -/
def execRoster (s : State) : Result := done (rosterArrives s)
/-- ALIGNED (R452). -/
def execAligned (s : State) : Result := done (alignedArrives s)
/-- LOST (R454). -/
def execLost (s : State) : Result := done (lostArrives s)
/-- JOIN (R455). -/
def execJoin (s : State) : Result := done (joinArrives s)
/-- ENUM_GO (R455). -/
def execEnumGo (s : State) : Result := done (enumGoArrives s)
/-- DATA_FRAME_RECEIVED (R458). -/
def execDataFrameReceived (s : State) : Result := done (dataFrameReceived s)
/-- PCMD_KEY (R457). -/
def execPcmdKey (m : Master) (v : Word) (s : State) : Result :=
  done (s.owned m aCWY_PCMD (pcmdWrite (setFld v 31 28 9)))
/-- PCMD_CLOSE (R457). -/
def execPcmdClose (m : Master) (v : Word) (s : State) : Result :=
  done (s.owned m aCWY_PCMD (pcmdWrite (setFld v 31 28 10)))
/-- PCMD_SWITCH (R456). -/
def execPcmdSwitch (m : Master) (v : Word) (s : State) : Result :=
  done (s.owned m aCWY_PCMD (pcmdWrite (setFld v 31 28 11)))
/-- KEY_FRAME_RECEIVED (R457). -/
def execKeyFrameReceived (s : State) : Result := done (keyFrameReceived s)
/-- CLOSE_FRAME_RECEIVED (R457). -/
def execCloseFrameReceived (s : State) : Result := done (closeFrameReceived s)
/-- SWITCH_RECEIVED (R456). -/
def execSwitchReceived (s : State) : Result := done (switchReceived s)
/-- RECEIPT (R457). -/
def execReceipt (s : State) : Result := done (receiptArrives s)
/-- RECEIPT_TIMEOUT (R457). -/
def execReceiptTimeout (s : State) : Result := done (receiptTimeout s)
/-- PRX_NEW_CLEAR (R457). -/
def execPrxNewClear (m : Master) (s : State) : Result := done (s.owned m aCWY_PRX prxClear)
/-- TT_EXCHANGE (R459). -/
def execTtExchange (t1 : Nat) (s : State) : Result := done (ttExchange t1 s)
/-- MARK (R459). -/
def execMark (p : Port) (t sent : Nat) (s : State) : Result := done (markArrives (portIx p) t sent s)
/-- TT_FIT (R459). -/
def execTtFit (link uncPs : Nat) (s : State) : Result := done (ttFit link uncPs s)
/-- TIME_UPDATE (R459). -/
def execTimeUpdate (s : State) : Result := done (timeUpdate s)
/-- ALIGN_EXPIRY (R234). -/
def execAlignExpiry (s : State) : Result := done { s with cwy := { s.cwy with expired := true } }

end Machine
end Sys2Proof
end

