-- ==== Sys2Proof/Machine/Windows.lean ====
section
/-!
DEFINITION. Queue windows (R391 to R405), flushes, what may be reached in the memories (R28, R32, R36, R75), and the mover's
control (R408 to R410).
-/
namespace Sys2Proof
namespace Machine

/-! ### Who may push and pop (R31, R395, R404) -/

/-- The rights of a master push to, or pop from, a lane of a queue. -/
def State.mayQueue (s : State) (rights : Master) (push : Bool) (q lane : Nat) : Bool :=
  let host := !decide (rights = .host) || hostQueue s push q
  if s.mailbox q then decide (rights = (if (lane = 0) = push then .sedge else .peat))
  else host && !(push && decide (q = 11 ∨ q = 12))

/-- Judges an access to offset `off` of a lane's window: offsets that hold no register, and lane 1 of a plain queue, are
reserved; the host needs the grant of the register's kind (R31, R395, R404). -/
def State.judgeWindow (s : State) (rights : Master) (write : Bool) (q lane off : Nat) : Judged :=
  let push := decide (0x10 ≤ off)
  if s.envm.lcs = 5 ∧ q ≠ 15 ∧ rights ≠ .peat then .refused
  else if 16 ≤ q then (if rights = .host then .refused else .reserved)
  else if (s.mailbox q = false ∧ lane ≠ 0) ∨ off ∉ [0, 4, 8, 0x10, 0x14, 0x18, 0x1C] then
    (if rights = .host ∧ hostQueue s true q = false ∧ hostQueue s false q = false then .refused else .reserved)
  else if rights = .host then (if hostQueue s push q ∧ s.mailbox q = false then .granted else .refused)
  else if write = push ∧ (write ∨ off = 0) then (if s.mayQueue rights push q lane then .granted else .refused)
  else .granted

/-- The lane number of a queue's lane. -/
def laneNo (q lane : Nat) : Nat := if lane = 0 then q else 16 + q

/-- The kind of an access to a window register for the monitors: 1 read, 2 write, 3 pop, 4 push. -/
def windowKind (write : Bool) (off : Nat) : Nat :=
  if write then (if off = 0x10 ∨ off = 0x18 then 4 else 2) else if off = 0 then 3 else 1

/-- An access to a window register by a master that carries given rights. -/
def State.windowAs (s : State) (m rights : Master) (user write : Bool) (q lane off : Nat) (f : State → State) : State :=
  match s.judgeWindow rights write q lane off with
  | .granted => f (s.access m rights user (windowAddr q lane off) (windowKind write off))
  | .reserved => s
  | .refused => (s.refuse m write (windowAddr q lane off)).evt 0x10 5 1

/-- An access to a window register by a master that can make accesses. -/
def State.window (s : State) (m : Master) (write : Bool) (q lane off : Nat) (f : State → State) : State :=
  if s.up m ∧ q < 16 ∧ lane < 2 then s.windowAs m (rightsOf m) false write q lane off f else s

/-! ### Pushes and pops -/

/-- A packet of Q10 commits only from its channel's owner (R104): a master that owns no channel pushes as the other owner. -/
def State.pushAsPeat (s : State) (m : Master) (n w : Nat) (tag : Word) : Bool :=
  match m with
  | .peat => true
  | .sedge => false
  | _ =>
    let src := if bit tag 30 then fld tag 23 16 else
      match tfind (s.lane n).opens w with | some p => p.src | none => 0
    !s.chPeat src

/-- Pushes an item with a master's staged payload; Q8 and waiting completions go on where there is room. -/
def pushTag (m : Master) (n : Nat) (tag : Word) (s : State) : State :=
  let w := portNo m
  let l := s.lane n
  let i : Item := ⟨takenTag tag, tget l.staged w 0, false⟩
  let s := s.setLane n { l with staged := tdel l.staged w }
  ((s.pushItem n w (s.pushAsPeat m n w tag) i).pumpQ8).drainWaiting

/-- Stages a payload. -/
def pushData (m : Master) (n : Nat) (v : Word) (s : State) : State :=
  let l := s.lane n
  s.setLane n { l with staged := tput l.staged (portNo m) v }

/-- Pushes a zero-length packet (R401). It is a push, so a payload staged before it is not the next push's (R395). -/
def pushEmpty (m : Master) (n : Nat) (tag : Word) (s : State) : State :=
  if bit tag 30 ∧ bit tag 29 then
    let l := s.lane n
    let s := s.setLane n { l with staged := tdel l.staged (portNo m) }
    (s.pushItem n (portNo m) (s.pushAsPeat m n (portNo m) tag) ⟨takenTag tag, 0, true⟩).pumpQ8.drainWaiting
  else s.pushErr n

/-- The latch of a master for a read of a register. -/
def latchKey (m : Master) (a : Nat) : Nat := 8 * a + portNo m

/-- Latches a word for a master. -/
def State.setLatch (s : State) (m : Master) (a : Nat) (v : Word) : State :=
  { s with latch := tset s.latch (latchKey m a) v 0 }

/-- A master's latched word. -/
def State.latched (s : State) (m : Master) (a : Nat) : Word := tget s.latch (latchKey m a) 0

/-- Pops an item: its tag word is read, its payload and information are latched (R394 to R401). -/
def popFor (m : Master) (q lane : Nat) (s : State) : State :=
  let r := s.popItem (laneNo q lane)
  let s := (r.2.setLatch m (windowAddr q lane 4) r.1.data).setLatch m (windowAddr q lane 8) r.1.info
  (s.answer m r.1.tag).drainWaiting

/-- A read of QUE_POPTAG by a master that carries given rights; one that is not granted reads zero. -/
def State.popAs (s : State) (m rights : Master) (user : Bool) (q lane : Nat) : State :=
  s.answer m 0 |>.windowAs m rights user false q lane 0 (popFor m q lane)

/-- A pop by a master. -/
def popBy (m : Master) (q lane : Nat) (s : State) : State :=
  if s.up m ∧ q < 16 ∧ lane < 2 then s.popAs m (rightsOf m) false q lane else s

/-! ### Memories (R28, R32, R36, R75) -/

/-- The regions of the address map. -/
inductive Region where
  | rom | peatSram | sedgeSram | credTable | registers | operand | windows | envm | nowhere
  deriving DecidableEq, Repr

/-- The region of an address (R28). -/
def regionOf (a : Nat) : Region :=
  if a < 0x8000 then .rom
  else if 0x10000000 ≤ a ∧ a < 0x10010000 then .peatSram
  else if 0x20000000 ≤ a ∧ a < 0x20080000 then .sedgeSram
  else if 0x30000000 ≤ a ∧ a < 0x30040000 then .credTable
  else if 0x40000000 ≤ a ∧ a < 0x41000000 then .registers
  else if 0x50000000 ≤ a ∧ a < 0x50008000 then .operand
  else if 0x60000000 ≤ a ∧ a < 0x61000000 then .windows
  else if 0x70000000 ≤ a ∧ a < 0x70040000 then .envm
  else .nowhere

/-- A fence covers an address (R75). -/
def State.fenced (s : State) (a : Nat) : Bool :=
  (List.range 4).any fun n =>
    let w := s.reg (aSYS_FENCE n)
    decide (0x20000000 + 256 * fld w 10 0 ≤ a ∧ a < 0x20000000 + 256 * (fld w 10 0 + fld w 27 16))

/-- A master with given rights may reach a byte of the memories. -/
def State.mayReach (s : State) (m rights : Master) (write : Bool) (a : Nat) : Bool :=
  match regionOf a with
  | .rom => decide (rights = .peat) && !decide (m = .mover) && !write
  | .peatSram => decide (rights = .peat)
  | .sedgeSram => decide (rights = .peat ∨ rights = .sedge) &&
      !(write && decide (m = .sedge ∨ m = .mover) && s.fenced a)
  | .credTable => decide (rights = .peat)
  | .operand => decide (rights = .peat) || (decide (rights = .sedge) && decide (0x50000000 + 8 * s.bnBase true ≤ a))
  | .envm => decide (rights = .peat) && !decide (m = .mover) && !write
  | _ => false

/-- A span of bytes may be reached; its ends decide, as every region and partition is one span, but for the fences. -/
def State.maySpan (s : State) (m rights : Master) (write : Bool) (a n : Nat) : Bool :=
  s.mayReach m rights write a && s.mayReach m rights write (a + n - 1) && decide (regionOf a = regionOf (a + n - 1)) &&
    (!write || (List.range 4).all fun k =>
      let w := s.reg (aSYS_FENCE k)
      let b := 0x20000000 + 256 * fld w 10 0
      decide (b + 256 * fld w 27 16 ≤ a ∨ a + n ≤ b ∨ fld w 27 16 = 0) || !decide (m = .sedge ∨ m = .mover))

/-! ### The mover's control -/

/-- The rights that a mover channel carries (R409). -/
def State.moverRights (s : State) (ch : Nat) : Master := if s.rb aQUE_MVOWN ch then .peat else .sedge

/-- The status register of a channel. -/
def State.moverStat (s : State) (ch : Nat) (status : Byte) (busy ended : Bool) (bytes : Nat) : State :=
  s.setReg (aQUE_MVSTAT ch) (w32 (status.toNat * 2 ^ 24 + b2n busy * 2 ^ 23 + b2n ended * 2 ^ 22 + bytes % 2 ^ 20))

/-- KIND of a descriptor. -/
def mvKind (d : List Word) : Nat := fld (wordAt d 0) 31 28
/-- SRCQ. -/
def mvSrcq (d : List Word) : Nat := fld (wordAt d 0) 27 24
/-- DSTQ. -/
def mvDstq (d : List Word) : Nat := fld (wordAt d 0) 23 20
/-- WAITQ, of Q2M and Q2Q. -/
def mvWait (d : List Word) : Bool := bit (wordAt d 0) 17 && decide (mvKind d = 1 ∨ mvKind d = 3)
/-- CHAIN: an M2M descriptor has none. -/
def mvChain (d : List Word) : Bool := bit (wordAt d 0) 16 && decide (mvKind d ≠ 4)
/-- LEN. -/
def mvLen (d : List Word) : Nat := fld (wordAt d 2) 19 0

/-- The lane that a mover channel pops from a queue, and the one it pushes to: of a mailbox, those of its owner. -/
def State.mvPopLane (s : State) (rights : Master) (q : Nat) : Nat :=
  if s.mailbox q ∧ rights = .sedge then 16 + q else q
/-- The lane that a mover channel pushes to. -/
def State.mvPushLane (s : State) (rights : Master) (q : Nat) : Nat :=
  if s.mailbox q ∧ rights = .peat then 16 + q else q

/-- A channel begins a descriptor: one with WAITQ is armed while its queue holds no packet (R409). -/
def State.moverBegin (s : State) (ch : Nat) (d : List Word) : State :=
  let armed := mvWait d && decide (mvLen d ≠ 0) && (s.headPacket (s.mvPopLane (s.moverRights ch) (mvSrcq d))).isNone
  ({ s with mover := tput s.mover ch ⟨d, armed, 0, cPending, false, false⟩ }).moverStat ch cPending true false 0

/-- GO: the descriptor in QUE_MVDESC starts; a channel that is BUSY ignores it. -/
def moverGo (ch : Nat) (s : State) : State :=
  match tfind s.mover ch with
  | some _ => s
  | none => s.moverBegin ch ((List.range 4).map fun w => s.reg (aQUE_MVDESC ch w))

/-- The event packet of a descriptor (R410). -/
def State.moverEvent (s : State) (ch : Nat) (status : Byte) : State :=
  (s.ended 0x10 status).onlyIf (s.rb (aQUE_MVCTL ch) 2) fun s => s.event [w32 (0x4D560000 + status.toNat * 0x100 + ch * 16)]

/-- A chain ends. -/
def State.moverEnd (s : State) (ch : Nat) (status : Byte) (bytes : Nat) : State :=
  (({ s with mover := tdel s.mover ch }).moverStat ch status false true bytes).moverEvent ch status

/-- STOP ends the chain with ABORTED. -/
def moverStop (ch : Nat) (s : State) : State :=
  match tfind s.mover ch with
  | some r => s.moverEnd ch cAborted r.moved
  | none => s

/-- A packet is committed in the queue of an armed descriptor. -/
def armedStart (ch : Nat) (s : State) : State :=
  match tfind s.mover ch with
  | some r =>
    if r.armed ∧ s.resumed ∧ (s.headPacket (s.mvPopLane (s.moverRights ch) (mvSrcq r.desc))).isSome then
      { s with mover := tput s.mover ch { r with armed := false } }
    else s
  | none => s

/-- Every mover chain in progress ends with ABORTED (R411). -/
def State.moverOff (s : State) : State := s.each (s.mover.filter fun x => !x.2.armed) fun s x => s.moverEnd x.1 cAborted x.2.moved

/-! ### Flushes (R405, R411) -/

/-- A mover channel is moving a packet out of, or into, a queue of a mask. -/
def State.mvTouches (s : State) (mask : Nat) (x : Nat × MoverRun) : Bool :=
  let d := x.2.desc
  let from_ := testBit mask (mvSrcq d) && (s.headPacket (s.mvPopLane (s.moverRights x.1) (mvSrcq d))).isSome
  !x.2.armed && !x.2.held && (match mvKind d with
    | 1 => from_
    | 2 => testBit mask (mvDstq d)
    | 3 => from_ || testBit mask (mvDstq d)
    | _ => false)

/-- The descriptor of such a channel ends with ABORTED: of a packet that goes to memory, what has been written stays, and how
much that is the flush's time decides, so it is free; a packet that it was pushing elsewhere is rewound. `old` is the state
before the flush. -/
def State.mvFlushed (s old : State) (mask : Nat) (x : Nat × MoverRun) : State :=
  let d := x.2.desc
  let rights := old.moverRights x.1
  let a := (wordAt d 1).toNat
  match mvKind d, old.headPacket (old.mvPopLane rights (mvSrcq d)) with
  | 1, some p =>
    let b := packetBytes p
    if b.length ≤ mvLen d ∧ old.maySpan .mover rights true a b.length then
      let f := s.freeW
      let k := f.1.toNat % (b.length + 1)
      ((f.2.memWrite a (b.take k)).omTouch a k).moverEnd x.1 cAborted k
    else s.moverEnd x.1 cAborted 0
  | 3, _ => (s.onlyIf (!testBit mask (mvDstq d)) fun s => s.drop (s.mvPushLane rights (mvDstq d))).moverEnd x.1 cAborted 0
  | _, _ => s.moverEnd x.1 cAborted 0

/-- Flushes the queues of a mask: a mover channel that is moving a packet, and an open of more than 4096 bytes that streams into
Q12, end with ABORTED (R343, R405, R411). -/
def flushMask (mask : Nat) (s : State) : State :=
  let old := s
  let s := s.each (bitsOf 16 mask) fun s q => s.flushQueue q
  let s := s.each (old.mover.filter (old.mvTouches mask)) fun s x => s.mvFlushed old mask x
  let s := s.onlyIf (testBit mask 12) fun s =>
    match s.eng.aes with
    | some r => s.onlyIf (decide (r.dest = .queue 12 ∧ 4096 < r.out.length)) fun s => s.endAes cAborted
    | none => s
  (s.drainWaiting).commitLog 17

/-- PUSH_TAG (R396). -/
def execPushTag (m : Master) (q lane : Nat) (tag : Word) (s : State) : Result :=
  done (s.window m true q lane 0x10 (pushTag m (laneNo q lane) tag))
/-- PUSH_DATA (R395). -/
def execPushData (m : Master) (q lane : Nat) (v : Word) (s : State) : Result :=
  done (s.window m true q lane 0x14 (pushData m (laneNo q lane) v))
/-- PUSH_EMPTY (R401). -/
def execPushEmpty (m : Master) (q lane : Nat) (tag : Word) (s : State) : Result :=
  done (s.window m true q lane 0x18 (pushEmpty m (laneNo q lane) tag))
/-- CANCEL (R397). -/
def execCancel (m : Master) (q lane : Nat) (s : State) : Result :=
  done (s.window m true q lane 0x1C fun s => (s.rewindOpen (laneNo q lane) (portNo m)).drainWaiting)
/-- POP (R400). -/
def execPop (m : Master) (q lane : Nat) (s : State) : Result := done (popBy m q lane s)
/-- FLUSH (R405). -/
def execFlush (m : Master) (mask : Word) (s : State) : Result :=
  done (s.owned m aQUE_FLUSH (flushMask (fld mask 15 0 &&& 0x23FF)))
/-- PFLUSH (R405). -/
def execPflush (m : Master) (mask : Word) (s : State) : Result :=
  done (s.owned m aQUE_PFLUSH (flushMask (fld mask 15 0)))
/-- MOVER_GO (R408). -/
def execMoverGo (m : Master) (ch : Nat) (s : State) : Result :=
  done (if ch < 8 then s.owned m (aQUE_MVCTL ch) (moverGo ch) else s)
/-- MOVER_STOP (R410). -/
def execMoverStop (m : Master) (ch : Nat) (s : State) : Result :=
  done (if ch < 8 then s.owned m (aQUE_MVCTL ch) (moverStop ch) else s)
/-- ARMED_DESCRIPTOR_START (R409). -/
def execArmedDescriptorStart (ch : Nat) (s : State) : Result := done (armedStart ch s)

end Machine
end Sys2Proof
end

