-- ==== Sys2Proof/Machine/Channels.lean ====
section
/-!
DEFINITION. Channels and sessions (R99 to R117): START, STOP, ABORT, IDLE, the timeouts, and how a session is taken.
-/
namespace Sys2Proof
namespace Machine

/-! ### START, STOP, ABORT (R100, R101, R111) -/

/-- The template that TEMPLATE of a channel names in the active configuration. -/
def State.namedTemplate (s : State) (ch : Nat) : Option Bytes := s.sect 8 (s.rf (aCHN_CTL ch) 11 8)

/-- NOSES. -/
def State.noses (s : State) (ch : Nat) : Bool := s.rb (aCHN_BIND ch) 25

/-- The code of the first check that a START fails. -/
def startRefusal (s : State) (ch : Nat) : Byte :=
  match s.namedTemplate ch with
  | none => cAuthFail
  | some t =>
    let n := s.rf (aCHN_BIND ch) 15 8
    let x := s.ses n
    firstOf [
      (decide (s.feClass ch ≠ byteAt t 1), cAuthFail),
      (testBit (byteAt t 7) 1 && !s.chPeat ch, cAuthFail),
      (decide (byteAt t 3 < s.rf (aCHN_SCHED ch) 1 0), cAuthFail),
      (!s.noses ch && !(decide (x.st = .ready) || decide (x.st = .offered ∧ x.opener = ch)), cNoSession),
      (!s.noses ch && decide (4 ≤ s.binds n), cNoSession)]

/-- START of an IDLE channel below CH124. -/
def channelStart (ch : Nat) (s : State) : State :=
  if 124 ≤ ch ∨ s.chState ch ≠ 0 then s
  else
    let c := startRefusal s ch
    if c ≠ cOk then s.srf (aCHN_STATUS ch) 15 8 c.toNat
    else
      let s := { s with templates := tput s.templates ch ((s.namedTemplate ch).getD []) }
      let s := s.onlyIf (!s.noses ch) fun s =>
        s.srf (aCHN_BIND ch) 23 16 (s.ses (s.rf (aCHN_BIND ch) 15 8)).gen.toNat
      s.srf (aCHN_STATUS ch) 1 0 1

/-- The LF commands left in a stopped channel's INQ complete with ABORTED, in their order (R149). -/
def lfClear : Nat → Nat → State → State
  | 0, _, s => s.lfSettle
  | n + 1, ch, s =>
    match s.headPacket (s.rf (aCHN_QUEUES ch) 3 0) with
    | some p =>
      let s := s.takeHead (s.rf (aCHN_QUEUES ch) 3 0)
      let c : LfCmd := ⟨ch, jobWord p 0, jobWord p 1, p.no, cAborted⟩
      lfClear n ch { s with lf := { s.lf with waiting := s.lf.waiting ++ [c] } }
    | none => s.lfSettle

/-- STOP: waiting jobs, and the front end's waiting commands, complete with ABORTED; the jobs after the one in an engine,
whose completion goes first (R100, R106). -/
def channelStop (ch : Nat) (s : State) : State :=
  if 124 ≤ ch ∨ s.chState ch ≠ 1 then s
  else
    let s := s.srf (aCHN_STATUS ch) 1 0 2
    let s := s.onlyIf (!s.inEngine ch) fun s => s.completeWaiting ch cAborted
    let fe := s.feClass ch
    if fe = 1 ∨ fe = 2 then
      let s := s.lfDrop ch cAborted
      lfClear (lanePackets (s.lane (s.rf (aCHN_QUEUES ch) 3 0))) ch s
    else if fe = 5 then s.uwbStop ch
    else s

/-- ABORT: the channel's job in an engine ends with ABORTED, and a UWB operation as R209 says (R346, R365, R386). -/
def channelAbort (ch : Nat) (s : State) : State :=
  let is := fun (r : Option Run) => (r.map fun x => decide (x.chan = ch)).getD false
  let s := s.onlyIf (is s.eng.aes) fun s => s.endAes cAborted
  let s := s.onlyIf (is s.eng.hsh) fun s => s.endHsh cAborted
  let s := if is s.eng.bn then s.endBn cAborted else if is s.eng.bnSusp then s.endBnSusp cAborted else s.abortCandidate ch
  s.onlyIf (decide (s.feClass ch = 5 ∧ ch < 124)) fun s => s.uwbAbort ch

/-- A front-end exchange of the channel is open. -/
def State.feBusy (s : State) (ch : Nat) : Bool :=
  (s.lf.cur.map fun x => decide (x.cmd.chan = ch)).getD false || (s.lf.waiting.any fun c => decide (c.chan = ch)) ||
    (s.nfc.cur.map fun c => decide (c.chan = ch)).getD false || (s.uwb.ops.any fun o => decide (o.chan = ch)) ||
    (decide (s.feClass ch = 4) && s.tag.fwdWait)

/-- A STOPPING channel with nothing left becomes IDLE: its contexts are freed (R100, R390). -/
def channelIdle (ch : Nat) (s : State) : State :=
  if s.chState ch = 2 ∧ s.inEngine ch = false ∧ s.feBusy ch = false then
    let s := s.srf (aCHN_STATUS ch) 1 0 0
    { s with templates := tdel s.templates ch,
             eng := { s.eng with ctx := s.eng.ctx.filter fun x => decide (x.2.chan ≠ ch) } }
  else s

/-! ### Taking a session (R109, R110, R113) -/

/-- The timeouts of an opener's template, or those of SES_CFG where they are 0. -/
def State.sesTimes (s : State) (ch : Nat) : Nat × Nat :=
  let t := if s.chState ch = 1 then s.chTemplate ch else (s.namedTemplate ch).getD []
  (if le16 t 8 = 0 then s.rf aSES_CFG 15 0 else le16 t 8, if le16 t 10 = 0 then s.rf aSES_CFG 31 16 else le16 t 10)

/-- The first FREE session after the one taken last, wrapping. -/
def State.freeSession (s : State) : Option Nat :=
  ((List.range 256).map fun k => (s.peat.lastSession + 1 + k) % 256).find? fun n => decide ((s.ses n).st = .free)

/-- Of the sessions that pass a test, the one whose last use, or offer, lies longest ago; of equally old ones the lowest
number, a DESIGN CHOICE (R110 names none; log entry 57). -/
def State.oldestSes (s : State) (f : Nat → Session → Bool) : Option Nat :=
  ((s.sess.filter fun x => f x.1 x.2).foldl (fun (a : Option (Nat × Session)) x =>
    match a with
    | none => some x
    | some y => if x.2.lastUse < y.2.lastUse then some x else some y) none).map (·.1)

/-- The session closed where none is FREE: the oldest offer, else the READY one used longest ago that no RUNNING channel
is bound to; never one of SUITE 3. -/
def State.evictSession (s : State) : Option Nat :=
  match s.oldestSes fun _ x => decide (x.st = .offered) with
  | some n => some n
  | none => s.oldestSes fun n x => decide (x.st = .ready ∧ x.suite ≠ 3) &&
      (List.range 128).all fun c => !(decide (s.chState c = 1) && s.bindsTo n c)

/-- Whether a session can be had: at once, after another has been closed and become FREE, or not at all. -/
inductive Room where
  | now (n : Nat)
  | later (n : Nat)
  | never
  deriving DecidableEq, Repr

/-- Makes room for a session. -/
def State.sesRoom (s : State) : Room × State :=
  let s := s.slotUses
  match s.freeSession with
  | some n => (.now n, s)
  | none =>
    match s.evictSession with
    | none => (.never, s)
    | some n =>
      let s := s.closeSes n
      match s.freeSession with
      | some k => (.now k, s)
      | none => (.later n, s)

/-- Takes a FREE session: GEN advances; a SUITE 1 session is OFFERED, another READY with a zeroed slot. -/
def State.takeSes (s : State) (n suite opener idle offer : Nat) : State :=
  let s := s.setSes n { sesNil with
    st := if suite = 1 then .offered else .ready, suite := suite, gen := (s.ses n).gen + 1, opener := opener,
    idleTmo := idle, offerTmo := offer, lastUse := s.now }
  { s with peat := { s.peat with lastSession := n } }

/-- CWY_PLAND is armed with a landing session, chosen as every session is (R110, R457): with none where none can be had, and once
one is FREE where one has to close first. -/
def State.armLanding (s : State) : State :=
  match s.sesRoom with
  | (.never, s) => s.srb aCWY_PLAND 31 false
  | (.later _, s) => { s.srb aCWY_PLAND 31 false with cwy := { (s.srb aCWY_PLAND 31 false).cwy with landWaits := true } }
  | (.now k, s) => (s.takeSes k 3 127 0 0).setReg aCWY_PLAND (w32 (2 ^ 31 + k))

/-- A session has become FREE for the landing session that waits. -/
def State.landGoesOn (s : State) : State :=
  if s.cwy.landWaits ∧ s.freeSession.isSome then ({ s with cwy := { s.cwy with landWaits := false } }).armLanding else s

/-- A job of the session waits or runs (R113): one that carries a key reference to it. -/
def State.sesJobs (s : State) (n : Nat) : Bool :=
  s.sesBusy n || (s.lane 10).committed.any fun p => !p.gone && jobNames n p

/-- The idle timeout of a session passes. -/
def idleTimeout (n : Nat) (s : State) : State :=
  let x := s.ses n
  if (x.st = .ready ∨ x.st = .offered) ∧ x.suite ≠ 3 ∧ x.idleTmo ≠ 0 ∧ s.sesJobs n = false then s.closeSes n else s

/-- The offer timeout of a session passes. -/
def offerTimeout (n : Nat) (s : State) : State :=
  let x := s.ses n
  if x.st = .offered ∧ x.offerTmo ≠ 0 ∧ s.sesJobs n = false then s.closeSes n else s

/-- CHANNEL_START (R101). -/
def execChannelStart (m : Master) (ch : Nat) (s : State) : Result :=
  done (if ch < 128 then s.owned m (aCHN_CTL ch) (channelStart ch) else s)
/-- CHANNEL_ABORT (R100). -/
def execChannelAbort (m : Master) (ch : Nat) (s : State) : Result :=
  done (if ch < 128 then s.owned m (aCHN_CTL ch) (channelAbort ch) else s)
/-- CHANNEL_IDLE (R100). -/
def execChannelIdle (ch : Nat) (s : State) : Result := done (if ch < 128 then channelIdle ch s else s)
/-- IDLE_TIMEOUT (R112). -/
def execIdleTimeout (ss : Nat) (s : State) : Result := done (idleTimeout ss s)
/-- OFFER_TIMEOUT (R112). -/
def execOfferTimeout (ss : Nat) (s : State) : Result := done (offerTimeout ss s)

end Machine
end Sys2Proof
end

