-- ==== Sys2Proof/Machine/Mailbox.lean ====
section
/-!
DEFINITION. The Peat mailbox (R76 to R79): how a request is popped, refused and answered, and the operations on sessions
(R110 to R116), on keys (R298 to R300, R303 to R305), and ECHO.
-/
namespace Sys2Proof
namespace Machine

/-! ### Requests and replies (R77 to R79) -/

/-- Operation codes in the table of R79. -/
def mailKnown (o : Nat) : Bool :=
  decide (o ∈ [0x01, 0x02, 0x03, 0x10, 0x11, 0x12, 0x20, 0x21, 0x30, 0x31, 0x32, 0x40, 0x41, 0x42, 0x43, 0x50, 0x51, 0x52, 0x60,
    0x70, 0x7F])

/-- The argument words that an operation uses at least. -/
def mailArgs (o : Nat) : Nat :=
  match o with
  | 0x01 => 1 | 0x02 => 1 | 0x03 => 3 | 0x10 => 3 | 0x11 => 2 | 0x12 => 2 | 0x20 => 2 | 0x21 => 1 | 0x30 => 2 | 0x31 => 3
  | 0x32 => 3 | 0x41 => 1 | 0x42 => 1 | 0x43 => 1 | 0x50 => 2 | 0x52 => 2 | 0x60 => 1
  | _ => 0

/-- The life-cycle states in which an operation is permitted (R79, R94, R298, R300, R304). -/
def mailState (o lcs : Nat) : Bool :=
  match o with
  | 0x10 => decide (lcs = 2) | 0x11 => decide (lcs = 2) | 0x12 => decide (lcs = 2)
  | 0x30 => decide (lcs = 2 ∨ lcs = 3) | 0x31 => decide (lcs = 2 ∨ lcs = 3)
  | 0x32 => decide (1 ≤ lcs ∧ lcs ≤ 3)
  | 0x7F => true
  | _ => decide (lcs ≠ 5)

/-- Items of the largest reply that a request can give. -/
def largestReply (o : Nat) (args : List Word) : Nat :=
  match o with
  | 0x01 => 3 | 0x10 => 4 | 0x20 => 3 | 0x21 => 3 | 0x31 => 5 | 0x51 => 13 | 0x60 => 2 | 0x70 => 2
  | 0x12 => if fld (wordAt args 1) 31 24 ≤ 2 then 2 else 3
  | 0x30 => (match fld (wordAt args 1) 7 0 with | 4 => 17 | 5 => 25 | 6 => 9 | _ => 5)
  | 0x32 => if wordAt args 0 = 0 then 1295 else 70
  | 0x7F => 1 + args.length
  | _ => 1

/-- The packet of a reply: header, then result bytes. -/
def replyPacket (o : Nat) (id : BitVec 16) (status : Byte) (body : Bytes) : Packet :=
  bytesPacket 0 0xFF (toLE 4 (o * 2 ^ 24 + status.toNat * 2 ^ 16 + id.toNat) ++ body)

/-- Commits a reply in a reply lane. -/
def State.answerMail (s : State) (n o : Nat) (id : BitVec 16) (status : Byte) (body : Bytes) : State :=
  s.feCommit n (replyPacket o id status body)

/-- Peat can take a request: it runs, serves none, and reloads no image. -/
def State.peatFree (s : State) : Bool := s.up .peat && s.peat.serving.isNone && !s.power.reloading

/-- Peat runs and serves no request: it decides an island UNLOCK even before Sedge has been reloaded (R172). -/
def State.peatIdle (s : State) : Bool := s.up .peat && s.peat.serving.isNone

/-- Lifts the fences that Peat holds. -/
def State.liftFences (s : State) : State :=
  let s := s.each (bitsOf 4 s.peat.fences) fun s n => s.setReg (aSYS_FENCE n) 0
  { s with peat := { s.peat with fences := 0 } }

/-- Step 4 of R73: the Sedge image is reloaded, for a restart. -/
def State.reloadSedge (s : State) : State := (s.bumpSat aSYS_CORE_STATUS 15 8 1).beginReload

/-- Steps 3 and 4 of R73: the reply lane of Q15 and the whole of Q14 are flushed, and the Sedge image is reloaded. -/
def State.restartSedge (s : State) : State := ((s.flushLane 31).flushQueue 14).reloadSedge

/-- Ends the request being served with a reply; a watchdog restart that waited for it discards the reply and goes on. -/
def State.reply (s : State) (status : Byte) (body : Bytes) : State :=
  match s.peat.serving with
  | none => s
  | some v =>
    let s := ({ s with peat := { s.peat with serving := none } }).liftFences
    if v.discard then s.restartSedge else s.answerMail 31 v.op v.reqId status body

/-- Ends the request with a code alone. -/
def State.replyCode (s : State) (status : Byte) : State := s.reply status []

/-- The request being served waits. -/
def State.await (s : State) (w : Waiting) : State :=
  { s with peat := { s.peat with serving := s.peat.serving.map fun v => { v with waiting := w } } }

/-- The operation being served draws conditioned output: it waits for it with what it has at hand, ends with the code that the
draw fails with, or goes on with the bytes (R299, R315). -/
def State.peatDraw (s : State) (n : Nat) (have_ : Bytes) (fail : Byte → State → State) (go : Bytes → State → State) : State :=
  (s.draw .peat n).next (fun s => s.await (.draw have_)) fail go

/-- The operation being served has Peat's jobs done on CH127; the code of one that fails is its reply. -/
def State.jobsDone (s : State) (l : List PeatJob) (go : State → State) : State := s.withJobs 127 l (fun c s => s.replyCode c) go

/-- The request of a broken packet has no header item left (R506). -/
def headerGone (p : Packet) : Bool := decide (p.ecc = some 0) || (p.bad && decide (p.items.length ≤ 1))

/-- Forgets the GEN kept with a request that has been popped, and with those before it. -/
def State.pruneGens (s : State) (p : Packet) : State :=
  { s with peat := { s.peat with reqGens := (s.peat.reqGens.dropWhile fun g => decide (g.1 ≠ p.seq.toNat)).drop 1 } }

/-- The GEN that the session of the request now popped had at its commit (R272): that of the first request kept that the lane
no longer holds. -/
def State.requestGen (s : State) : Option Nat :=
  let left := (s.lane 15).committed.map fun p => p.seq.toNat
  ((s.peat.reqGens.filter fun g => decide (g.1 ∉ left)).getLast?).map (·.2)

/-- Room for the outputs of a decision (R281). -/
def State.decisionRoom (s : State) : Bool := decide (10 ≤ s.room 1 ∧ 4 ≤ s.room 3)

/-- Fences the granules that a buffer in Sedge SRAM touches with a free fence (R78). -/
def State.holdBuffer (s : State) (a n : Word) : State :=
  if n = 0 ∨ a.toNat < 0x20000000 ∨ 0x20080000 < a.toNat + n.toNat then s
  else match (List.range 4).find? fun k => decide (s.rf (aSYS_FENCE k) 27 16 = 0) with
  | some k =>
    let g := (a.toNat - 0x20000000) / 256
    let e := (a.toNat + n.toNat - 0x20000000 + 255) / 256
    let s := s.setReg (aSYS_FENCE k) (w32 ((e - g) * 65536 + g))
    { s with peat := { s.peat with fences := putBit s.peat.fences k true } }
  | none => s

/-- Fences the buffer that a request names, from its pop until its reply (R78, R79). -/
def State.holdArgs (s : State) (o : Nat) (args : List Word) : State :=
  match o with
  | 0x03 => s.holdBuffer (wordAt args 1) (wordAt args 2)
  | 0x10 => s.holdBuffer (wordAt args 1) (wordAt args 2)
  | 0x11 => s.holdBuffer (wordAt args 0) (wordAt args 1)
  | 0x12 => s.holdBuffer (wordAt args 2) (wordAt args 3)
  | 0x31 => s.holdBuffer (wordAt args 1) (wordAt args 2)
  | 0x32 => s.holdBuffer (wordAt args 1) (wordAt args 2)
  | 0x50 => s.holdBuffer (wordAt args 0) (wordAt args 1)
  | 0x52 => s.holdBuffer (wordAt args 0) (wordAt args 1)
  | _ => s

/-- Peat pops the request at the head of the request lane and runs its operation `f`, where that is the operation of the
row: `mine` tells the functions of one OP apart. A row also takes a request that Peat refuses whatever its OP. -/
def mailOp (op : Nat) (mine : List Word → Bool) (f : Serving → State → State) (s : State) : State :=
  match s.headPacket 15 with
  | none => s
  | some p =>
    let w0 := jobWord p 0
    let o := fld w0 31 24
    let id := BitVec.ofNat 16 (fld w0 15 0)
    let args := (packetWords p).drop 1
    let bad := packetBroken p
    if s.peatFree = false ∨ s.room 31 < (if bad then 1 else largestReply o args) then s
    else if bad then
      let t := ((s.takeHead 15).countBroken 15 p).pruneGens p
      if headerGone p then t else t.answerMail 31 o id cAlarm []
    else if mailKnown o = false ∨ mailState o s.envm.lcs = false ∨ fld w0 23 16 ≠ 0 ∨ args.length < mailArgs o then
      ((s.takeHead 15).pruneGens p).answerMail 31 o id cAuthFail []
    else if o ≠ op ∨ mine args = false ∨ ((decide (o = 0x20 ∨ o = 0x21)) && !s.decisionRoom) then s
    else
      let t := (s.takeHead 15).holdArgs o args
      let v : Serving := ⟨o, id, args, .now, false⟩
      (f v { t with peat := { t.peat with serving := some v } }).pruneGens p

/-- Every request of the OP is the row's. -/
def anyArgs (_ : List Word) : Bool := true

/-- The buffer that two argument words name: none outside Sedge SRAM, or with no fence held for it (R78). -/
def State.buffer (s : State) (a n : Word) : Option Bytes :=
  if n = 0 then some []
  else if a.toNat < 0x20000000 ∨ 0x20080000 < a.toNat + n.toNat ∨ s.peat.fences = 0 then none
  else some (s.memRead a.toNat n.toNat)

/-! ### Sessions (R110 to R116) -/

/-- The template of a channel: its copy where it runs, else the one it names (R110, R113). -/
def State.templateOf (s : State) (ch : Nat) : Option Bytes :=
  if s.chState ch = 1 then some (s.chTemplate ch) else s.namedTemplate ch

/-- Binds a channel to a session under its GEN (R110). -/
def State.bindCh (s : State) (ch n : Nat) : State :=
  let s := (s.srf (aCHN_BIND ch) 23 16 (s.ses n).gen.toNat).srf (aCHN_BIND ch) 15 8 n
  s.srb (aCHN_BIND ch) 25 false

/-- Peat commits a packet to a channel's OUTQ; none where the queue cannot take it. -/
def State.outCommit (s : State) (ch prio : Nat) (b : Bytes) : Option State :=
  let q := s.rf (aCHN_QUEUES ch) 7 4
  let n := s.dstLane q
  let p := bytesPacket prio ch b
  if q = 11 ∨ q = 12 ∨ commitOk s n true p = false then none else s.hwCommit n p

/-- A session that was taken closes, and the code is the reply: a later step failed (R110, R116). -/
def State.sesFailed (s : State) (n : Nat) (c : Byte) : State := (s.closeSes n).replyCode c

/-- A session was taken for SESSION_OPEN and bound: the secrets, the offer and the reply. A session that has closed while the
conditioned output was awaited is not open any more (log entry 83). PRIO of the offer's packet is 0 (log entry 84). -/
def State.makeOffer (s : State) (ch n : Nat) : State :=
  s.peatDraw 112 [by8 n] (fun c s => s.sesFailed n c) fun b s =>
    if (s.ses n).st ≠ .offered then s.replyCode cNoSession
    else
      s.withJobs 127 [bnJob true, bnJob true, clearJob, hshJob 5 false] (fun c s => s.sesFailed n c) fun s =>
        let k := clampScalar (ofLE (slice b 0 32))
        let seed := slice b 32 64
        let offer := [1, 1, by8 s.unit, 0] ++ slice b 96 16 ++ toLE 32 (x25519Fn k 9) ++ (pkeKeyGen (slice seed 0 32)).1
        let s := s.modSes n fun x => { x with slot := toLE 32 k ++ seed ++ zeros 32, offerHash := sha3x256 offer }
        match s.outCommit ch 0 offer with
        | some t => t.reply cOk (toLE 4 n ++ toLE 4 (t.ses n).gen.toNat)
        | none => s.sesFailed n cAborted

/-- SESSION_OPEN (R110). -/
def openSession (v : Serving) (s : State) : State :=
  let ch := (wordAt v.args 0).toNat
  let suite := match s.templateOf ch with | some t => byteAt t 2 | none => 0
  if 127 < ch ∨ s.chPeat ch ∨ 1 < s.chState ch ∨ suite ≠ 1 then s.replyCode cAuthFail
  else
    match s.sesRoom with
    | (.never, s) => s.replyCode cAborted
    | (.later n, s) => s.await (.sessionFree n)
    | (.now n, s) =>
      let t := s.sesTimes ch
      ((s.takeSes n 1 ch t.1 t.2).bindCh ch n).makeOffer ch n

/-- SESSION_CLOSE (R112). -/
def closeSession (v : Serving) (s : State) : State :=
  let n := (wordAt v.args 0).toNat
  if 255 < n then s.replyCode cAuthFail
  else if (s.ses n).st = .free then s.replyCode cNoSession
  else if (s.ses n).suite = 3 then s.replyCode cAuthFail
  else
    let s := s.closeSes n
    if (s.ses n).st = .free then s.replyCode cOk else s.await (.sessionFree n)

/-- K_RNG_u of a session (R212). -/
def State.rangingKey (s : State) (n u : Nat) : Bytes := kmac (slice (s.ses n).slot 64 32) (ascii "KM7310-RNG") [by8 u] 48

/-- The head unit's fused key, where a session can be had for it; then the reply of KEY_AGREE (R215, R116). -/
def State.fusedKey (s : State) (n : Nat) (status : Byte) : State :=
  match s.sesRoom with
  | (.never, s) => s.replyCode status
  | (.later k, s) =>
    ({ s with peat := { s.peat with serving := s.peat.serving.map fun (v : Serving) =>
      { v with args := [w32 n, w32 status.toNat] } } }).await (.sessionFree k)
  | (.now k, s) =>
    s.withJobs 127 [hshJob 8 true] (fun c s => s.sesFailed n c) fun s =>
    let b := s.rangingKey n 0
    let s := s.takeSes k 3 127 0 0
    let s := (s.keyWrite true k 32 (slice b 0 16)).keyWrite true k 48 (slice b 32 16)
    let s := s.modSes k fun x => { x with vSeedF := slice b 16 12, hasFused := true }
    ({ s with dist := { s.dist with map := tput s.dist.map n k, mapSpoilt := s.dist.mapSpoilt.filter fun h => h != n } }).replyCode status

/-- The head unit derives its own ranging key and the fused key within KEY_AGREE (R116). -/
def State.rangingKeys (s : State) (n : Nat) (status : Byte) : State :=
  if s.isHead then
    s.withJobs 127 [hshJob 8 true] (fun c s => s.sesFailed n c) fun s =>
      let b := s.rangingKey n s.rngUnit
      let s := (s.keyWrite true n 96 (slice b 0 16)).keyWrite true n 112 (slice b 32 16)
      (s.modSes n fun x => { x with vSeed := slice b 16 12 }).fusedKey n status
  else s.replyCode status

/-- The 96 bytes of step 3 of R116. -/
def hybridKeys (ssx ssk offerHash peerHash : Bytes) : Bytes :=
  shakeH (ascii "KM7310-HYB1" ++ ssx ++ ssk ++ offerHash ++ peerHash) 96

/-- Peat's jobs up to ss_x, and those from the decapsulation to the three keys: X25519; KEM_KEYGEN, KEM_DECAPS, the two digests,
SHAKE256 into the slot, and CLEAR (R116). A digest's message goes in operand memory or in packets; each job is one of five
items. -/
def agreeJobs (zero : Bool) : List PeatJob :=
  if zero then [bnJob true, clearJob]
  else [bnJob true, bnJob true, bnJob true, hshJob 5 false, hshJob 5 false, hshJob 5 false, clearJob]

/-- KEY_AGREE on a peer message that passed R115 (R116). -/
def State.agree (s : State) (n : Nat) (m : Bytes) : State :=
  let x := s.ses n
  let u := ofLE (slice m 4 32) % 2 ^ 255
  let ssx := x25519Fn (ofLE (slice x.slot 0 32)) u
  let status := if p25519 ≤ u then cReduced else cOk
  s.withJobs 127 (agreeJobs (decide (ssx = 0))) (fun c s => s.sesFailed n c) fun s =>
  if ssx = 0 then s.sesFailed n cZeroShared
  else
    let k := pkeKeyGen (slice x.slot 32 32)
    let ssk := kemDecapsFn k.2 k.1 (slice x.slot 64 32) (slice m 0x24 1088)
    let ph := sha3x256 m
    let keys := hybridKeys (toLE 32 ssx) ssk x.offerHash ph
    let y : Session := { x with
      st := .ready, slot := keys ++ zeros 32, th := x.offerHash ++ ph, xPeer := slice m 4 32, lastUse := s.now }
    (s.setSes n y).rangingKeys n status

/-- KEY_AGREE (R115). -/
def keyAgree (v : Serving) (s : State) : State :=
  let n := (wordAt v.args 0).toNat
  let len := wordAt v.args 2
  if len = 0 then s.replyCode cLenZero
  else match s.buffer (wordAt v.args 1) len with
    | none => s.replyCode cAuthFail
    | some m =>
      if 255 < n ∨ len ≠ 1124 ∨ byteAt m 0 ≠ 1 ∨ byteAt m 1 ≠ 1 then s.replyCode cAuthFail
      else match (s.ses n).st with
        | .ready => s.replyCode cAuthFail
        | .offered => s.agree n m
        | _ => s.replyCode cNoSession

/-! ### Keys (R298 to R305) -/

/-- A P-256 or P-384 key, or an X25519 key. -/
def asymmetric (t : Nat) : Bool := decide (4 ≤ t ∧ t ≤ 6)

/-- The mask generator that a key's own computation needs (R299, R305, R321). -/
def maskOfType (t : Nat) : Nat := if asymmetric t then 1 else if t = 7 then 2 else 0

/-- What KEY_GEN answers of a key. -/
def keyResult (t : Nat) (key : Bytes) : Bytes := if asymmetric t then publicPart t key else keyCheckValue t key

/-- The key of a KEY_GEN is drawn, and its public key or its key check value computed (R299). -/
def State.makeKey (s : State) (n : Nat) (w : Word) : State :=
  let t := kwType w
  s.peatDraw (drawBytes t) [] (fun c s => s.replyCode c) fun b s =>
    s.jobsDone (pubJobs t ++ kcvJobs t) fun s =>
      let k := keyOfDraw t b
      let x := s.putStatic n (s.wordSlot n w 0 k (publicPart t k))
      if x.1 = cOk then x.2.reply cOk (keyResult t k) else s.replyCode x.1

/-- KEY_GEN (R298, R299). -/
def keyGen (v : Serving) (s : State) : State :=
  let n := (wordAt v.args 0).toNat
  let w := wordAt v.args 1
  if s.keyWordOk n w = false then s.replyCode cAuthFail
  else if s.rngFailed ∨ s.maskStopped (maskOfType (kwType w)) then s.replyCode cRngFail
  else if s.rb aKST_STATUS 1 then s.replyCode cKeyEmpty
  else s.makeKey n w

/-- The TYPE and USE that a fixed slot is imported with (R291, R449). -/
def fixedSlot (n : Nat) : Option (Nat × Nat) :=
  match n with
  | 8 => some (2, 0x04) | 11 => some (7, 0x40) | 12 => some (1, 0x40) | 14 => some (2, 0x0F) | 15 => some (2, 0x0F)
  | _ => none

/-- The fields of an import record (R300), but for its signature and SEQ. -/
def importFields (n : Nat) (b : Bytes) : Bool :=
  let t := byteAt b 1
  let use := byteAt b 4
  decide (byteAt b 0 = 1 ∧ 1 ≤ t ∧ t ≤ 9 ∧ byteAt b 2 = n ∧ byteAt b 3 < 4 ∧ use &&& typeUses t = use) && zeroAt b 5 3 &&
    zeroAt b 0x1C 4 && decide (slice b 8 16 = toLE 16 Config.deviceId.toNat) &&
    zeroAt b (0x60 + typeBytes t + 8) (64 - typeBytes t) &&
    (match fixedSlot n with
     | some x => decide (x = (t, use)) && (decide (n < 14) || (!testBit (byteAt b 3) 0 && testBit (byteAt b 3) 1))
     | none => inRange 24 n 63)

/-- The KEK of an import (R300): KMAC256 under the x-coordinate of TK x E. -/
def importKek (tk : Nat) (b : Bytes) : Bytes :=
  let q := ptMul p256 tk (some (ofBE (slice b 0x20 32) % p256.p, ofBE (slice b 0x40 32) % p256.p))
  let x := match q with | some p => p.1 | none => 0
  kmac (toBE 32 x) (ascii "KM7310-IMP") (slice b 0 0x20) 32

/-- Steps 3 to 7 of an import whose record passed: P256_MUL of E by TK, the KMAC and the KW unwrap, each with the code that it
ends with, then the public key or the key check value, and CLEAR. -/
def State.importKey (s : State) (n : Nat) (b : Bytes) : State :=
  let t := byteAt b 1
  match s.key 2 with
  | none => s.replyCode cKeyEmpty
  | some tk =>
    let on := onCurve p256 (ofBE (slice b 0x20 32) % p256.p) (ofBE (slice b 0x40 32) % p256.p)
    let open_ := kwUnwrap (importKek (ofLE tk.key) b) (slice b 0x60 (typeBytes t + 8))
    s.jobsDone [(bnJob true).ending (if on then cOk else cPoint), hshJob 13 true] fun s =>
    s.withJobs 127 [(aesJob (9 + (typeBytes t + 8) / 4)).ending (if open_.isSome then cOk else cTagFail)]
      (fun c s => s.replyCode (if c = cTagFail then cAuthFail else c)) fun s =>
      let key := open_.getD []
      s.jobsDone (pubJobs t ++ kcvJobs t ++ [clearJob]) fun s =>
        let persist := testBit (byteAt b 3) 1
        let k : Slot := ⟨s.slotClass n persist, 1, testBit (byteAt b 3) 0, persist, by8 (byteAt b 4), t, key, publicPart t key⟩
        let x := s.putStatic n k
        let v := x.2.freeBytes 16
        if x.1 ≠ cOk then s.replyCode x.1
        else if asymmetric t ∨ t = 8 then (v.2.setCounter 43 (w32 (le32 b 0x18))).reply cOk v.1
        else (x.2.setCounter 43 (w32 (le32 b 0x18))).reply cOk (keyCheckValue t key)

/-- KEY_IMPORT (R300). -/
def keyImport (v : Serving) (s : State) : State :=
  let n := (wordAt v.args 0).toNat
  let len := wordAt v.args 2
  if len = 0 then s.replyCode cLenZero
  else match s.buffer (wordAt v.args 1) len with
    | none => s.replyCode cAuthFail
    | some b =>
      let sig := s.sigCode 2 (slice b 0xA8 2820) (slice b 0 0xA8)
      if len ≠ 2988 ∨ importFields n b = false then s.replyCode cAuthFail
      else s.withJobs 127 [(hshJob 5 false).ending sig] (fun c s => s.replyCode c) fun s =>
      if le32 b 0x18 ≤ (s.counter 43).toNat then s.replyCode cAuthFail
      else if s.rb aKST_STATUS 1 then s.replyCode cKeyEmpty
      else s.importKey n b

/-- Operator time now (R243). -/
def State.opTime (s : State) : Word :=
  if s.envm.tOpSet then s.envm.tOp + w32 (aonSpan s.power.aonCal (s.now - s.envm.tOpAt) s.envm.tOpAt / 27120000) else 0

/-- KEYINFO of a statement (R305). -/
def State.keyInfo (s : State) (k : Slot) : Bytes :=
  if k.typ = 8 then (match tfind s.envm.anchors 4 with | some a => a.key | none => zeros 64)
  else if asymmetric k.typ then k.pub else keyCheckValue k.typ k.key

/-- A statement of a slot (R305). -/
def State.statement (s : State) (n : Nat) (k : Slot) (nonce : Bytes) : Bytes :=
  let arb := fun i => toLE 4 (tget s.envm.arb i 0).toNat
  [1, if n = 0 then 2 else 1, by8 n, by8 k.typ, by8 k.cls, by8 k.origin, k.use,
    by8 (1 + 2 * b2n k.sedge + 4 * b2n k.persist), by8 s.envm.lcs, by8 s.peat.debugLevel, 0, 0] ++
  toLE 4 (if k.cls = 0 then 0 else (s.epochOf k.cls).toNat) ++ toLE 16 Config.deviceId.toNat ++ toLE 4 s.opTime.toNat ++
  arb 1 ++ arb 2 ++ arb 0 ++ [by8 nonce.length, 0, 0, 0] ++ slice nonce 0 64 ++ slice (s.keyInfo k) 0 96

/-- Signs the statement of KS0 with the identity key, taking its next index (R304, R386). -/
def State.identityAttest (s : State) (st : Bytes) : State :=
  match s.key 1 with
  | none => s.replyCode cKeyEmpty
  | some k =>
    if s.maskStopped 2 then s.replyCode cRngFail
    else if 0x100000 ≤ s.envm.xmssNext then s.replyCode cAborted
    else if s.envm.xmssKeyed = false then s.replyCode cKeyEmpty
    else s.jobsDone [hshJob (5 + 53) true] fun s =>
      let root := match tfind s.envm.anchors 4 with | some a => a.key.take 32 | none => []
      let sig := identitySign (slice k.key 0 32) (slice k.key 32 32) s.envm.pubSeed root s.envm.xmssNext st
      ({ s with envm := { s.envm with xmssNext := s.envm.xmssNext + 1, xmssLag := 0 } }).reply cOk (st ++ sig)

/-- Signs a statement with AK; k is conditioned output. A nonce that gives no signature leaves it open. -/
def State.akAttest (s : State) (st : Bytes) : State :=
  if s.rngFailed ∨ s.maskStopped 1 then s.replyCode cRngFail
  else match s.key 0 with
  | none => s.replyCode cKeyEmpty
  | some ak =>
    s.peatDraw 40 st (fun c s => s.replyCode c) fun b s =>
      s.jobsDone [hshJob (5 + 53) false, bnJob true, clearJob] fun s =>
        match ecdsaSign p256 (ofLE ak.key) (ofBE (sha3x256 st)) (ofLE b % (p256.n - 1) + 1) with
        | some (x, y) => s.reply cOk (st ++ toBE 32 x ++ toBE 32 y)
        | none => let f := s.freeBytes 64; f.2.reply cOk (st ++ f.1)

/-- ATTEST (R304). -/
def attest (v : Serving) (s : State) : State :=
  let n := (wordAt v.args 0).toNat
  let len := wordAt v.args 2
  if len = 0 then s.replyCode cLenZero
  else if 64 < len.toNat ∨ 63 < n then s.replyCode cAuthFail
  else match s.buffer (wordAt v.args 1) len with
    | none => s.replyCode cAuthFail
    | some nonce =>
      match s.key n with
      | none => s.replyCode cKeyEmpty
      | some k =>
        s.jobsDone (kcvJobs k.typ) fun s =>
          if n = 0 then s.identityAttest (s.statement n k nonce) else s.akAttest (s.statement n k nonce)

/-- COUNTER_READ (R303). -/
def counterRead (v : Serving) (s : State) : State :=
  let n := (wordAt v.args 0).toNat
  if 63 < n then s.replyCode cAuthFail else s.reply cOk (toLE 4 (s.counter n).toNat)

/-- SESSION_OPEN (R110). -/
def execSessionOpen (s : State) : Result := done (mailOp 0x01 anyArgs openSession s)
/-- SESSION_CLOSE (R112). -/
def execSessionClose (s : State) : Result := done (mailOp 0x02 anyArgs closeSession s)
/-- KEY_AGREE (R116). -/
def execKeyAgree (s : State) : Result := done (mailOp 0x03 anyArgs keyAgree s)
/-- KEY_GEN (R298). -/
def execKeyGen (s : State) : Result := done (mailOp 0x30 anyArgs keyGen s)
/-- KEY_IMPORT (R300). -/
def execKeyImport (s : State) : Result := done (mailOp 0x31 anyArgs keyImport s)
/-- ATTEST (R304). -/
def execAttest (s : State) : Result := done (mailOp 0x32 anyArgs attest s)
/-- COUNTER_READ (R303). -/
def execCounterRead (s : State) : Result := done (mailOp 0x60 anyArgs counterRead s)
/-- PERF_GRANT_QUERY (R483). -/
def execPerfGrantQuery (s : State) : Result :=
  done (mailOp 0x70 anyArgs (fun _ s => s.reply cOk (toLE 4 (s.reg aPRF_GRANT).toNat)) s)
/-- ECHO (R79). -/
def execEcho (s : State) : Result := done (mailOp 0x7F anyArgs (fun v s => s.reply cOk (ofWords v.args)) s)

end Machine
end Sys2Proof
end

