-- ==== Sys2Proof/Machine/Creds.lean ====
section
/-!
DEFINITION. Credentials and their table (R241 to R251), operator time (R243), the status map and its updates (R252 to R257),
enrolled tokens (R258 to R265) and the ends of lockouts (R267).
-/
namespace Sys2Proof
namespace Machine

/-! ### The credential table (R248 to R251) -/

/-- The address of the set of a serial. -/
def tableSet (serial : Nat) : Nat := 0x30000000 + serial * 0x9E3779B1 % 2 ^ 32 / 2 ^ 20 * 0x40

/-- Word 0 of a way. -/
def State.wayWord (s : State) (set w : Nat) : Word := w32 (ofLE (s.memRead (set + 16 * w) 4))

/-- Writes word 0 of a way. -/
def State.setWayWord (s : State) (set w : Nat) (v : Word) : State := s.memWrite (set + 16 * w) (toLE 4 v.toNat)

/-- The valid way of a set that holds a serial. -/
def State.wayOf (s : State) (set serial : Nat) : Option Nat :=
  (List.range 4).find? fun w => bit (s.wayWord set w) 31 && decide (fld (s.wayWord set w) 19 0 = serial)

/-- A way becomes the most recent: the valid others younger than `age` age by one. -/
def State.ageSet (s : State) (set way age : Nat) : State :=
  s.each (List.range 4) fun s w =>
    let v := s.wayWord set w
    if w = way then s.setWayWord set w (setFld v 28 27 0)
    else s.onlyIf (bit v 31 && decide (fld v 28 27 < age)) fun s => s.setWayWord set w (setFld v 28 27 (fld v 28 27 + 1))

/-- DIGEST of a credential. -/
def credDigest (cred : Bytes) : Bytes := shakeH cred 12

/-- The enrolled entry that carries a serial. -/
def State.entryBySerial (s : State) (serial : Nat) : Option (Nat × Entry) :=
  s.envm.entries.find? fun e => decide (e.2.cls = 6 ∧ e.2.serial = serial)

/-- The lookup of a credential: whether it hits, and the counts and ages it leaves (R250). -/
def State.tableLookup (s : State) (serial : Nat) (cred : Bytes) : Bool × State :=
  let set := tableSet serial
  match s.wayOf set serial with
  | some w =>
    if s.memRead (set + 16 * w + 4) 12 = credDigest cred then
      (true, (s.ageSet set w (fld (s.wayWord set w) 28 27)).bump aCRD_HITS 15 0 1)
    else (false, s.bump aCRD_HITS 31 16 1)
  | none => (false, s.bump aCRD_HITS 31 16 1)

/-- The whole table is invalid: the operator's credential key has been replaced (R251). -/
def State.tableDrop (s : State) : State :=
  { s with mem := s.mem.filter fun c => decide (c.1 < 0x30000000 ∨ 0x30040000 ≤ c.1) }

/-- The way that a new entry takes (R251). -/
def State.tableWay (s : State) (set serial : Nat) : Nat :=
  match s.wayOf set serial with
  | some w => w
  | none => match (List.range 4).find? fun w => !bit (s.wayWord set w) 31 with
    | some w => w
    | none => ((List.range 4).find? fun w => decide (fld (s.wayWord set w) 28 27 = 3)).getD 3

/-- Writes the entry of a credential (R251). -/
def State.tableWrite (s : State) (serial : Nat) (cred : Bytes) : State :=
  let set := tableSet serial
  let w := s.tableWay set serial
  let old := s.wayWord set w
  let kind := match s.entryBySerial serial with
    | some e => 3 * 2 ^ 29 + e.1 * 2 ^ 21
    | none => 2 ^ 29
  let s := s.ageSet set w (if bit old 31 then fld old 28 27 else 3)
  s.memWrite (set + 16 * w) (toLE 4 (2 ^ 31 + kind + serial) ++ credDigest cred)

/-- Marks the entry of a serial KIND 3, with its enrolled entry (R264). -/
def State.tableMark (s : State) (serial n : Nat) : State :=
  let set := tableSet serial
  match s.wayOf set serial with
  | some w => s.setWayWord set w (setFld (setFld (s.wayWord set w) 30 29 3) 26 21 n)
  | none => s

/-! ### The status map (R252 to R254) -/

/-- Where the status map begins in the flash (R69). -/
def State.mapBase (s : State) : Nat := match s.sect 0xB 0 with | some b => le32 b 0x20 | none => 0

/-- The address of a copy of a sector. -/
def State.mapCopy (s : State) (sec : Nat) (copyB : Bool) : Nat := s.mapBase + sec * 0x2000 + b2n copyB * 0x1000

/-- The tweak of a sector's copy. -/
def mapTweak (version sec : Nat) : Bytes := toLE 16 (version * 256 + sec)

/-- The CMAC of a sector's ciphertext. -/
def mapMac (key ct : Bytes) (version sec : Nat) : Bytes := cmac key (ct ++ [by8 sec] ++ toLE 4 version)

/-- The status-map keys, where both are there. -/
def State.mapKeys (s : State) : Option (Bytes × Bytes) :=
  match s.key 9, s.key 10 with
  | some a, some b => some (a.key, b.key)
  | _, _ => none

/-- What the fetcher answers: OK, AUTH_FAIL for an unreadable sector or the code of its engine job; whether the sector was
cached; and its plaintext. -/
structure Fetched where
  code : Byte
  cached : Bool
  data : Bytes
  deriving DecidableEq, Repr

/-- The plaintext of a sector, through the cache (R254, R255). The fetcher's CMAC and XTS jobs run on CH125. -/
def State.mapFetch (s : State) (sec : Nat) : Fetched × State :=
  if s.envm.mapInit = false then (⟨cAuthFail, false, []⟩, s)
  else match s.mapCache.find? fun e => decide (e.1 = sec) with
  | some e => (⟨cOk, true, e.2⟩, { s with mapCache := e :: s.mapCache.filter fun x => decide (x.1 ≠ sec) })
  | none =>
    match tfind s.envm.sectors sec with
    | none => (⟨cAuthFail, false, []⟩, s)
    | some r =>
      match s.mapKeys with
      | none => (⟨cKeyEmpty, false, []⟩, s)
      | some (kx, km) =>
        let ct := s.flashRead (s.mapCopy sec r.copyB) 4096
        s.withJobs 125 [aesJob 9] (fun c s => (⟨c, false, []⟩, s)) fun s =>
          if mapMac km ct r.version.toNat sec ≠ r.cmac then (⟨cAuthFail, false, []⟩, s.srb aCRD_STATUS 1 true)
          else
            s.withJobs 125 [aesJob 9] (fun c s => (⟨c, false, []⟩, s)) fun s =>
              let pt := xts true kx (mapTweak r.version.toNat sec) ct
              (⟨cOk, false, pt⟩, { s with mapCache := (sec, pt) :: s.mapCache.take 3 })

/-- The bit of a serial in its sector's plaintext (R252). -/
def mapBit (serial : Nat) (data : Bytes) : Bool := testBit (byteAt data (serial % 32768 / 8)) (serial % 8)

/-- A write of CRD_MAPQ. -/
def mapqWrite (v : Word) (s : State) : State :=
  let serial := fld v 19 0
  let s := s.setReg aCRD_MAPQ (w32 serial)
  if bit v 31 then
    let r := s.mapFetch (serial / 32768)
    r.2.setReg aCRD_MAPR (w32 (8 + 4 * b2n r.1.cached +
      (if r.1.code = cOk then b2n (mapBit serial r.1.data) else 2)))
  else s

/-- Encrypts a sector's plaintext under a version into the copy not in use, and commits its record (R257 steps 3 to 6). -/
def State.mapStore (s : State) (sec version : Nat) (kx km pt : Bytes) : State :=
  let copyB := match tfind s.envm.sectors sec with | some r => !r.copyB | none => false
  let ct := xts false kx (mapTweak version sec) pt
  let s := s.flashWrite (s.mapCopy sec copyB) ct
  { s with envm := { s.envm with sectors := tput s.envm.sectors sec ⟨w32 version, copyB, mapMac km ct version sec⟩ },
           mapCache := ((sec, pt) :: s.mapCache.filter fun x => decide (x.1 ≠ sec)).take 4 }

/-! ### CRED_CHECK (R244 to R246) -/

/-- Ends a check with its three result words. -/
def State.credReply (s : State) (code : Byte) (hit : Bool) (reason serial : Nat) (rights notAfter : Nat) : State :=
  s.reply code (toLE 4 (b2n hit * 2 ^ 31 + b2n s.envm.timeUnc * 2 ^ 30 + reason * 2 ^ 20 + serial) ++ toLE 4 rights ++
    toLE 4 notAfter)

/-- Ends a check that fails at a step: counted against its class where the step says so and the check itself failed. -/
def State.credFail (s : State) (code : Byte) (counted : Option Nat) (hit : Bool) (reason serial : Nat) : State :=
  match counted with
  | some c => (s.onlyIf (decide (code = cAuthFail ∨ code = cTagFail)) fun s => s.countFailure (.cls c)).credReply
      (if code = cTagFail then cAuthFail else code) hit reason serial 0 0
  | none => s.credReply code hit reason serial 0 0

/-- Bytes before the signature of a credential. -/
def credSigned (c : Bytes) : Nat := if byteAt c 1 = 1 then 0x34 else 0x54

/-- Step 6. -/
def credFields (b : Bytes) : Bool :=
  let c := b.drop 0x54
  decide (byteAt b 0 = 1 ∧ byteAt c 0 = 1 ∧ byteAt c 5 < 16 ∧ byteAt c 8 / 32 = 0 ∧ byteAt c 0xB = 0 ∧
    le32 c 0xC ≤ le32 c 0x10) && zeroAt b 1 3 && zeroAt c 2 1 && zeroAt c 6 2 && (byteAt c 1 == 1 || byteAt c 1 == 2) &&
    decide (c.length = credSigned c + 4963) && (byteAt c 1 != 1 || zeroAt b 0x14 64)

/-- Step 7: the code, and the REASON it fails with. -/
def credBinding (x : Session) (b : Bytes) : Byte × Nat :=
  let c := b.drop 0x54
  if byteAt c 1 = 1 then (if slice c 0x14 32 = x.xPeer then (cOk, 0) else (cAuthFail, 3))
  else
    let px := ofBE (slice c 0x14 32) % p256.p
    let py := ofBE (slice c 0x34 32) % p256.p
    let e := ofBE (sha3x256 (ascii "KM7310-POP" ++ x.th)) % p256.p
    if onCurve p256 px py = false then (cPoint, 4)
    else if ecdsaVerify p256 (px, py) e (ofBE (slice b 0x14 32)) (ofBE (slice b 0x34 32)) then (cOk, 0)
    else (cAuthFail, 4)

/-- Step 9: the REASON with which the window fails, 0 where it does not. -/
def State.credWindow (s : State) (c : Bytes) : Nat :=
  if s.opTime.toNat + 60 * s.rf aCRD_LOCKCFG 31 24 < le32 c 0xC then 6
  else if le32 c 0x10 < s.opTime.toNat then 7
  else 0

/-- Steps 9 to 11: a check that ends OK is a completed authentication (R4, R47). -/
def State.credEnd (s : State) (n : Nat) (c : Bytes) (hit : Bool) : State :=
  let serial := ofLE (slice c 3 3)
  if s.credWindow c ≠ 0 then s.credFail cAuthFail none hit (s.credWindow c) serial
  else
    let m := s.mapFetch (serial / 32768)
    let s := m.2
    if m.1.code ≠ cOk then s.credFail m.1.code none hit 8 serial
    else if mapBit serial m.1.data then s.credFail cRevoked none hit 0 serial
    else
      let s := s.onlyIf (!hit) fun s => s.tableWrite serial c
      let s := s.modSes n fun x => { x with cred := some (serial, w32 (le32 c 8), w32 (le32 c 0x10)) }
      s.active.credReply cOk hit 0 serial (le32 c 8) (le32 c 0x10)

/-- Step 8: the SHAKE256 of the credential and the lookup; on a miss, the signature. -/
def State.credFinish (s : State) (n cls : Nat) (c : Bytes) : State :=
  let serial := ofLE (slice c 3 3)
  s.withJobs 125 [hshJob 5 false] (fun e s => s.credFail e none false 5 serial) fun s =>
    let l := s.tableLookup serial c
    let cut := credSigned c
    let sig := s.sigCode 3 (c.drop cut) (c.take cut)
    l.2.withJobs 125 (if l.1 then [] else [(hshJob 5 false).ending sig]) (fun e s => s.credFail e (some cls) l.1 5 serial)
      fun s => s.credEnd n c l.1

/-- The jobs of step 7, which ends with a code: none for an X25519 credential; the digest of the proof's message and the
ECDSA verification for a P-256 one. -/
def bindJobs (b : Bytes) (c : Byte) : List PeatJob :=
  if byteAt (b.drop 0x54) 1 = 1 then [] else [hshJob 24 false, (bnJob false).ending c]

/-- Steps 2 to 7 on the buffer of step 1. -/
def State.credSteps (s : State) (n : Nat) (b : Bytes) : State :=
  let x := s.ses n
  let cls := lockClass (s.feClass x.opener)
  let conf := (cmac (slice x.slot 32 32) (ascii "KM7310-CONF" ++ sha3x256 (b.drop 0x14))).take 16
  if x.st ≠ .ready ∨ x.suite ≠ 1 then s.credFail cNoSession none false 0 0
  else if s.isLocked (.cls cls) then s.credFail cLocked none false 0 0
  else if x.cred.isSome then s.credFail cAuthFail none false 9 0
  else s.withJobs 125 [hshJob 5 false, aesJob 20] (fun e s => s.credFail e none false 2 0) fun s =>
    let s := s.useSes n
    if conf ≠ slice b 4 16 then s.credFail cAuthFail (some cls) false 2 0
    else if credFields b = false then s.credFail cAuthFail (some cls) false 1 0
    else
      let k := credBinding x b
      let serial := ofLE (slice b 0x57 3)
      s.withJobs 125 (bindJobs b k.1) (fun e s => s.credFail e (some cls) false k.2 serial) fun s =>
        if k.1 ≠ cOk then s.credFail k.1 (some cls) false k.2 serial else s.credFinish n cls (b.drop 0x54)

/-- CRED_CHECK (R246). -/
def credCheck (v : Serving) (s : State) : State :=
  let len := wordAt v.args 2
  if len = 0 then s.credFail cLenZero none false 1 0
  else if len ≠ 5099 ∧ len ≠ 5131 then s.credFail cAuthFail none false 1 0
  else match s.buffer (wordAt v.args 1) len with
    | none => s.credFail cAuthFail none false 0 0
    | some b => s.credSteps (wordAt v.args 0).toNat b

/-! ### Enrolled entries (R258, R262) -/

/-- The SUITE 2 session of an entry closes. -/
def State.closeEntrySes (s : State) (n : Nat) : State :=
  s.each ((s.sess.filter fun x => decide (x.2.suite = 2 ∧ x.2.entry = n ∧ x.2.st ≠ .free)).map (·.1)) fun s k => s.closeSes k

/-- Removes an enrolled entry, with its lock, its session, and the authentication of an island selection (R262). -/
def State.removeEntry (s : State) (n : Nat) : State := (s.closeEntrySes n).eraseEntry n

/-- Writes an enrolled entry. -/
def State.putEntry (s : State) (n : Nat) (e : Entry) : State :=
  { s with envm := { s.envm with entries := tput s.envm.entries n e } }

/-- The lowest entry that is not VALID. -/
def State.freeEntry (s : State) : Option Nat := (List.range 64).find? fun n => (tfind s.envm.entries n).isNone

/-! ### STATUS_UPDATE (R256, R257) -/

/-- Bytes of the body of an update; none for an unknown KIND. -/
def updateBody (b : Bytes) : Option Nat :=
  match byteAt b 1 with
  | 1 => some (2 * le16 b 0x10)
  | 2 => some 4096
  | 3 => some 0
  | _ => none

/-- The length and the fields of an update. -/
def updateFields (b : Bytes) : Bool :=
  let k := byteAt b 1
  (match updateBody b with | some n => decide (b.length = 0x14 + n + 4963) | none => false) &&
    decide (byteAt b 0 = 1 ∧ byteAt b 2 ≤ 31 ∧ byteAt b 3 = 0 ∧ le16 b 0x12 = 0 ∧ (k = 3 → byteAt b 2 = 0) ∧
      (k ≠ 1 → le32 b 4 = 0) ∧ (k = 3 → le32 b 8 = 0) ∧ (k ≠ 1 → le16 b 0x10 = 0) ∧ le16 b 0x10 ≤ 1024)

/-- Applies change words in order. -/
def applyChanges : Nat → Bytes → Bytes → Bytes
  | 0, _, data => data
  | n + 1, ws, data =>
    let w := le16 ws 0
    let i := w % 32768 / 8
    applyChanges n (ws.drop 2) (data.set i (by8 (putBit (byteAt data i) (w % 8) (testBit w 15))))

/-- The bits of a sector that went from 0 to 1, as serials. -/
def newRevoked (sec : Nat) (old new : Bytes) : List Nat :=
  (List.range 4096).flatMap fun i =>
    let a := byteAt old i
    let b := byteAt new i
    if a = b then [] else ((List.range 8).filter fun k => testBit b k && !testBit a k).map fun k => 32768 * sec + 8 * i + k

/-- Step 7 for one serial: its sessions close, and an enrolled entry with it is erased. -/
def State.revoke (s : State) (serial : Nat) : State :=
  let s := s.each ((s.sess.filter fun x => decide ((x.2.cred.map (·.1)) = some serial)).map (·.1)) fun s n => s.closeSes n
  match s.entryBySerial serial with
  | some e => s.removeEntry e.1
  | none => s

/-- Step 7 for a list of serials, kept for the next start. -/
def State.revokeAll (s : State) (l : List Nat) : State :=
  ({ s with envm := { s.envm with lastRevoked := l } }).each l State.revoke

/-- T_OP takes the larger of itself and an update's OP_TIME (R243). -/
def State.takeOpTime (s : State) (t : Word) : State :=
  let now := s.opTime
  { s with envm := { s.envm with tOp := if now.toNat < t.toNat then t else now, tOpAt := s.now, timeUnc := false, tOpSet := true } }

/-- The copy of a sector that is not in use, after an erase, a program or a read back that failed: its bytes are open. -/
def State.mapSpoil (s : State) (sec : Nat) : State :=
  let copyB := match tfind s.envm.sectors sec with | some r => !r.copyB | none => false
  let f := s.freeBytes 4096
  f.2.flashWrite (f.2.mapCopy sec copyB) f.1

/-- Applies a KIND 1 or KIND 2 update; a flash failure ends it before its commit point. -/
def State.applyUpdate (s : State) (flashOk : Bool) (b : Bytes) : State :=
  let sec := byteAt b 2
  let m := s.mapFetch sec
  let changes := decide (byteAt b 1 = 1)
  let s := m.2
  if changes ∧ m.1.code ≠ cOk then s.replyCode m.1.code
  else match s.mapKeys with
  | none => s.replyCode cKeyEmpty
  | some (kx, km) =>
    s.jobsDone [aesJob 9, aesJob 9] fun s =>
      if flashOk = false then (s.mapSpoil sec).replyCode cAborted
      else
        let old := if m.1.code = cOk then m.1.data else zeros 4096
        let new := if changes then applyChanges (le16 b 0x10) (b.drop 0x14) old else slice b 0x14 4096
        let s := (s.mapStore sec (le32 b 8) kx km new).takeOpTime (w32 (le32 b 0xC))
        (s.revokeAll (newRevoked sec old new)).replyCode cOk

/-- An update whose signature verifies. -/
def State.signedUpdate (s : State) (flashOk : Bool) (b : Bytes) : State :=
  let version := match tfind s.envm.sectors (byteAt b 2) with | some r => r.version.toNat | none => 0
  if byteAt b 1 = 3 then (s.takeOpTime (w32 (le32 b 0xC))).replyCode cOk
  else if le32 b 8 = version then s.replyCode cOk
  else if (byteAt b 1 = 1 ∧ le32 b 4 ≠ version) ∨ le32 b 8 < version then s.replyCode cAuthFail
  else s.applyUpdate flashOk b

/-- STATUS_UPDATE (R256). -/
def statusUpdate (flashOk : Bool) (v : Serving) (s : State) : State :=
  let len := wordAt v.args 1
  if len = 0 then s.replyCode cLenZero
  else match s.buffer (wordAt v.args 0) len with
    | none => s.replyCode cAuthFail
    | some b =>
      let cut := 0x14 + (updateBody b).getD 0
      if 0x14 ≤ b.length ∧ byteAt b 1 = 1 ∧ le16 b 0x10 = 0 then s.replyCode cLenZero
      else
        if updateFields b = false then (s.countFailure (.cls 3)).replyCode cAuthFail
        else
          s.withJobs 127 [(hshJob 5 false).ending (s.sigCode 3 (b.drop cut) (b.take cut))]
            (fun c s => (s.onlyIf (decide (c = cAuthFail)) fun s => s.countFailure (.cls 3)).replyCode c) fun s =>
            s.signedUpdate flashOk b

/-! ### ENROL (R260 to R265) -/

/-- The function word of a request is a FUNC's; a FUNC not in the table is every row's. -/
def enrolFunc (f : Nat) (args : List Word) : Bool :=
  let g := fld (wordAt args 1) 31 24
  decide (g = f ∨ g = 0 ∨ 4 < g)

/-- The function and its arguments are well formed: the named channel exists, the reserved bits are zero, and no argument word
is missing. -/
def enrolForm (v : Serving) (n : Nat) : Bool :=
  let w := wordAt v.args 1
  decide (1 ≤ fld w 31 24 ∧ fld w 31 24 ≤ 4 ∧ fld w 23 8 = 0 ∧ (wordAt v.args 0).toNat < 128 ∧ n ≤ v.args.length)

/-- The fields of an enrolment record (R261). -/
def enrolFields (b : Bytes) : Bool :=
  decide (byteAt b 0 = 1 ∧ 1 ≤ byteAt b 1 ∧ byteAt b 1 ≤ 2 ∧ 1 ≤ byteAt b 2 ∧ byteAt b 2 ≤ 5 ∧ byteAt b 3 < 32 ∧
    slice b 4 16 = toLE 16 Config.deviceId.toNat ∧ (byteAt b 2 = 5 → le16 b 0x1C = 0) ∧ le16 b 0x1E = 0) &&
    (byteAt b 1 == 1 || zeroAt b 0x20 24)

/-- The entry that a record adds. -/
def recordEntry (b key : Bytes) : Entry :=
  { km5200 := decide (byteAt b 2 = 3 ∨ byteAt b 2 = 4), byToken := false, cls := byteAt b 2, wakeId := BitVec.ofNat 16 (le16 b 0x1C),
    tid := w32 (le32 b 0x18), rights := by8 (byteAt b 3), serial := 0, key := key }

/-- Step 6 and 7 of an add. -/
def State.recordAdd (s : State) (b key : Bytes) : State :=
  let e := recordEntry b key
  let n := match s.entryByTid e.tid with | some x => some x.1 | none => s.freeEntry
  match n with
  | none => s.replyCode cAborted
  | some k => (((s.closeEntrySes k).putEntry k e).setCounter 46 (w32 (le32 b 0x14))).reply cOk (toLE 4 k)

/-- Step 6 and 7 of a remove. -/
def State.recordRemove (s : State) (b : Bytes) : State :=
  match s.entryByTid (w32 (le32 b 0x18)) with
  | none => s.replyCode cNotEnrolled
  | some x => ((s.removeEntry x.1).setCounter 46 (w32 (le32 b 0x14))).reply cOk (toLE 4 x.1)

/-- Step 5 of an add. -/
def State.recordKey (s : State) (cls : Nat) (b code : Bytes) : State :=
  match s.key 11 with
  | none => s.replyCode cKeyEmpty
  | some k =>
    let key := kwUnwrap (kmac k.key (ascii "KM7310-LRN") (code ++ slice b 0x14 4) 32) (slice b 0x20 24)
    s.withJobs 127 [hshJob 11 true, (aesJob 15).ending (if key.isSome then cOk else cTagFail)]
      (fun c s => if c = cTagFail then (s.countFailure (.cls cls)).replyCode cAuthFail else s.replyCode c) fun s =>
      s.recordAdd b (key.getD [])

/-- RECORD (R262). -/
def enrolRecord (v : Serving) (s : State) : State :=
  let cls := lockClass (s.feClass (wordAt v.args 0).toNat)
  let len := wordAt v.args 3
  if 4 ≤ v.args.length ∧ len = 0 then s.replyCode cLenZero
  else if enrolForm v 6 = false then s.replyCode cAuthFail
  else if s.isLocked (.cls cls) then s.replyCode cLocked
  else match s.buffer (wordAt v.args 2) len with
    | none => s.replyCode cAuthFail
    | some b =>
      if len ≠ 5019 ∨ enrolFields b = false then (s.countFailure (.cls cls)).replyCode cAuthFail
      else s.withJobs 127 [(hshJob 5 false).ending (s.sigCode 3 (b.drop 56) (b.take 56))]
        (fun c s => (s.onlyIf (decide (c = cAuthFail)) fun s => s.countFailure (.cls cls)).replyCode c) fun s =>
      if le32 b 0x14 ≤ (s.counter 46).toNat then s.replyCode cAuthFail
      else if byteAt b 1 = 2 then s.recordRemove b
      else s.recordKey cls b (toLE 4 (wordAt v.args 4).toNat ++ toLE 4 (wordAt v.args 5).toNat)

/-- The rights of the entry whose AUTH completed OK within the last 60 s and that may authorise an enrolment (R263). -/
def State.authorising (s : State) : Option Byte :=
  (s.peat.authOk.filterMap fun a =>
    match tfind s.envm.entries a.entry with
    | some e =>
      if s.sys ≤ a.time + secs 60 ∧ e.rights.getLsbD 4 ∧ s.isLocked (.entry a.entry) = false then some e.rights else none
    | none => none).head?

/-- K of a KM5200 token under the group key. -/
def km5200Key (k5 : Bytes) (tid : Word) : Bytes :=
  ecbEnc k5 ([0x4B, 0x4D, 0x35, 0x32] ++ toBE 4 tid.toNat ++ zeros 8)

/-- Peat pushes a packet into a channel's INQ; none where the queue cannot take it. -/
def State.inCommit (s : State) (ch prio : Nat) (b : Bytes) : Option State :=
  let q := s.rf (aCHN_QUEUES ch) 3 0
  let p := bytesPacket prio ch b
  if q = 11 ∨ q = 12 ∨ commitOk s q true p = false then none
  else s.hwCommit q p

/-- A SUITE 2 session that holds a token key, READY from now, with its channel bound. -/
def State.openToken (s : State) (n ch : Nat) (key : Bytes) (tid : Word) (km5200 : Bool) (entry : Nat) : State :=
  let t := s.sesTimes ch
  ((s.takeSes n 2 ch t.1 t.2).modSes n fun x =>
    { x with slot := patch x.slot 0 key, tid := tid, km5200 := km5200, entry := entry }).bindCh ch n

/-- An AUTH command for a WAKE_ID. The spec does not say which aerials Peat's own AUTH drives: a free value (log entry 7). -/
def State.authCommand (s : State) (wake burst : Nat) (transponder : Bool) : Bytes × State :=
  let f := s.freeW
  (toLE 4 (2 * 2 ^ 28 + fld f.1 11 0 * 2 ^ 16 + wake % 65536) ++ toLE 4 (burst * 2 ^ 16 + 8 * 2 ^ 8 + b2n transponder), f.2)

/-- Steps 5 and 6 of BY_TOKEN: the AUTH to the session's channel. -/
def State.byTokenSend (s : State) (n ch cls : Nat) (tid : Word) (rights : Byte) : State :=
  let c := s.authCommand tid.toNat (if cls = 4 then 375 else 512) (decide (cls = 4))
  match c.2.inCommit ch 0 c.1 with
  | none => (c.2.closeSes n).replyCode cAborted
  | some t =>
    ({ t with peat := { t.peat with lastAuth := none } }).await (.byTokenAuth n (t.ses n).gen.toNat cls tid rights)

/-- Steps 4 to 6 of BY_TOKEN with a session taken. -/
def State.byTokenAuth (s : State) (n ch cls : Nat) (key : Bytes) (tid : Word) (rights : Byte) : State :=
  (s.openToken n ch key tid true 64).byTokenSend n ch cls tid rights

/-- BY_TOKEN (R263). -/
def byToken (v : Serving) (s : State) : State :=
  let ch := (wordAt v.args 0).toNat
  let cls := fld (wordAt v.args 1) 7 0
  let tid := wordAt v.args 2
  if enrolForm v 3 = false ∨ s.feClass ch ≠ 1 ∨ (cls ≠ 3 ∧ cls ≠ 4) then s.replyCode cAuthFail
  else if s.isLocked (.cls 0) then s.replyCode cLocked
  else match s.authorising with
    | none => s.replyCode cAuthFail
    | some rights =>
      if (s.entryByTid tid).isSome then s.replyCode cAuthFail
      else if s.freeEntry = none then s.replyCode cAborted
      else match s.key 12 with
        | none => s.replyCode cKeyEmpty
        | some k =>
          if s.maskStopped 0 then s.replyCode cRngFail
          else match s.sesRoom with
            | (.never, s) => s.replyCode cAborted
            | (.later n, s) => s.await (.sessionFree n)
            | (.now n, s) => s.jobsDone [aesJob 13] fun s => s.byTokenAuth n ch cls (km5200Key k.key tid) tid rights

/-- The outcome of BY_TOKEN's AUTH: its status and ANSWER, or none within 500 ms. The failure of the AUTH itself has counted
against the LF class (R266). -/
def State.byTokenEnd (s : State) (n cls : Nat) (tid : Word) (rights : Byte) (out : Option (Byte × Bool)) : State :=
  let key := slice (s.ses n).slot 0 16
  let s := s.closeSes n
  match out with
  | some (status, answer) =>
    if status = cOk ∧ answer then
      match s.freeEntry with
      | none => s.replyCode cAborted
      | some k => (s.putEntry k ⟨true, true, cls, BitVec.ofNat 16 tid.toNat, tid, rights &&& 0xEF, 0, key⟩).reply cOk (toLE 4 k)
    else if status = cAuthFail then s.replyCode cAuthFail
    else s.replyCode cAborted
  | none => s.replyCode cAborted

/-- BY_TOKEN_TIMEOUT. -/
def byTokenTimeout (s : State) : State :=
  match s.peat.serving with
  | some v => match v.waiting with
    | .byTokenAuth n _ cls tid rights => s.byTokenEnd n cls tid rights none
    | _ => s
  | none => s

/-- Steps 3 to 6 of PHONE, with the entry taken, the key and the TID. PRIO of the record's packet is 0 (log entry 84). -/
def State.phoneEntry (s : State) (ch n k serial : Nat) (rights : Word) (key : Bytes) (tid : Word) : State :=
  let x := s.ses n
  if x.tx = 0xFFFFFFFF then s.replyCode cAborted
  else s.jobsDone [aesJob 14] fun s =>
    match s.outCommit ch 0 (recSeal (slice x.slot 0 32) (toLE 4 tid.toNat ++ key) x.tx.toNat) with
    | none => s.replyCode cAborted
    | some t =>
      let t := (t.useSes n).modSes n fun x => { x with tx := x.tx + 1 }
      let t := t.putEntry k ⟨false, false, 6, 0, tid, by8 rights.toNat, serial, key⟩
      (t.tableMark serial k).reply cOk (toLE 4 k ++ toLE 4 tid.toNat)

/-- Step 2 of PHONE: a key, where none has been drawn yet, and a TID, drawn again where a VALID entry has it. -/
def State.phoneDraw (s : State) (ch n k serial : Nat) (rights : Word) (key : Bytes) : State :=
  s.peatDraw (20 - key.length) key (fun c s => s.replyCode c) fun b s =>
    let b := key ++ b
    let tid := w32 (ofLE (slice b 16 4))
    if (s.entryByTid tid).isSome then s.peatDraw 4 (slice b 0 16) (fun c s => s.replyCode c) fun _ s => s
    else s.phoneEntry ch n k serial rights (slice b 0 16) tid

/-- PHONE (R264), with the key drawn so far. -/
def enrolPhone (key : Bytes) (v : Serving) (s : State) : State :=
  let ch := (wordAt v.args 0).toNat
  let n := s.rf (aCHN_BIND ch) 15 8
  let x := s.ses n
  if enrolForm v 2 = false then s.replyCode cAuthFail
  else if s.isLocked (.cls (lockClass (s.feClass ch))) then s.replyCode cLocked
  else match (if s.boundTo ch n ∧ x.suite = 1 then x.cred else none) with
    | none => s.replyCode cAuthFail
    | some (serial, rights, _) =>
      if bit rights 3 = false then s.replyCode cAuthFail
      else match (match s.entryBySerial serial with | some e => some e.1 | none => s.freeEntry) with
        | none => s.replyCode cAborted
        | some k =>
          if s.rngFailed ∨ s.maskStopped 0 then s.replyCode cRngFail else s.phoneDraw ch n k serial rights key

/-- The FE_CLASS that a token class may be bound on (R259). -/
def bindClass (cls : Nat) : Nat := if 1 ≤ cls ∧ cls ≤ 4 then 1 else if cls = 5 then 3 else 16

/-- The reply of BIND. -/
def State.bindReply (s : State) (n : Nat) : State := s.reply cOk (toLE 4 n ++ toLE 4 (s.ses n).gen.toNat)

/-- BIND (R265). -/
def enrolBind (v : Serving) (s : State) : State :=
  let ch := (wordAt v.args 0).toNat
  let tid := wordAt v.args 2
  let suite := match s.templateOf ch with | some t => byteAt t 2 | none => 0
  if enrolForm v 3 = false then s.replyCode cAuthFail
  else if s.isLocked (.cls (lockClass (s.feClass ch))) then s.replyCode cLocked
  else match s.entryByTid tid with
    | none => s.replyCode cNotEnrolled
    | some (k, e) =>
      if s.isLocked (.entry k) then s.replyCode cLocked
      else if bindClass e.cls ≠ s.feClass ch ∨ suite ≠ 2 then s.replyCode cAuthFail
      else match s.sess.find? fun x => decide (x.2.suite = 2 ∧ x.2.entry = k ∧ x.2.st = .ready) with
        | some x => (s.bindCh ch x.1).bindReply x.1
        | none => match s.sesRoom with
          | (.never, s) => s.replyCode cAborted
          | (.later n, s) => s.await (.sessionFree n)
          | (.now n, s) => (s.openToken n ch e.key tid e.km5200 k).bindReply n

/-! ### Ends of lockouts (R267) -/

/-- The lockout of a target as it is kept. -/
def State.rawLock (s : State) (t : LockTarget) : Lockout :=
  match t with
  | .cls c => tget s.envm.lockCls c lockNil
  | .entry n => tget s.envm.lockEnt n lockNil

/-- A lock ends, and its failure history with it. -/
def lockEnd (t : LockTarget) (s : State) : State := s.onlyIf (s.rawLock t).lockedUntil.isSome fun s => s.setLock t lockNil

/-- The oldest failure of a history leaves the window. -/
def failureExpiry (t : LockTarget) (s : State) : State :=
  let l := s.rawLock t
  s.onlyIf l.lockedUntil.isNone fun s => s.setLock t { l with fails := l.fails.drop 1 }

/-- CRED_CHECK (R246). -/
def execCredCheck (s : State) : Result := done (mailOp 0x10 anyArgs credCheck s)
/-- STATUS_UPDATE (R257). -/
def execStatusUpdate (s : State) (flashOk : Bool := true) : Result := done (mailOp 0x11 anyArgs (statusUpdate flashOk) s)
/-- RECORD (R262). -/
def execRecord (s : State) : Result := done (mailOp 0x12 (enrolFunc 1) enrolRecord s)
/-- BY_TOKEN (R263). -/
def execByToken (s : State) : Result := done (mailOp 0x12 (enrolFunc 2) byToken s)
/-- PHONE (R264). -/
def execPhone (s : State) : Result := done (mailOp 0x12 (enrolFunc 3) (enrolPhone []) s)
/-- BIND (R265). -/
def execBind (s : State) : Result := done (mailOp 0x12 (enrolFunc 4) enrolBind s)
/-- BY_TOKEN_TIMEOUT (R263). -/
def execByTokenTimeout (s : State) : Result := done (byTokenTimeout s)
/-- MAPQ_GO (R254). -/
def execMapqGo (m : Master) (v : Word) (s : State) : Result := done (s.owned m aCRD_MAPQ (mapqWrite v))
/-- LOCK_END (R267). -/
def execLockEnd (t : LockTarget) (s : State) : Result := done (lockEnd t s)
/-- FAILURE_WINDOW_EXPIRY (R267). -/
def execFailureWindowExpiry (t : LockTarget) (s : State) : Result := done (failureExpiry t s)

end Machine
end Sys2Proof
end

