-- ==== Sys2Proof/Machine/Applets.lean ====
section
/-!
DEFINITION. Sealed applets (R85 to R90): where they are placed, how one is loaded and its call begun, and what its services
answer. How an ECALL carries its arguments is log entry 12.
-/
namespace Sys2Proof
namespace Machine

/-! ### Placement (R88, R89) -/

/-- The start of the applet area. -/
def State.areaStart (s : State) : Nat := 0x10000000 + (s.peat.peatFoot + 4095) / 4096 * 4096

/-- The end of the applet area. -/
def areaEnd : Nat := 0x1000F000

/-- A region of the area is free of residents. -/
def areaFree (l : List Resident) (size b : Nat) : Bool :=
  decide (b + size ≤ areaEnd) && l.all fun r => apart (b, size) (r.base, r.size)

/-- The lowest address at which an applet fits whole: the start of the area, or the end of a resident. -/
def placeAt (lo size : Nat) (l : List Resident) : Option Nat :=
  ((lo :: l.map fun r => r.base + r.size).filter (areaFree l size)).foldl (fun a b =>
    match a with
    | none => some b
    | some x => some (min x b)) none

/-- The residents without the one used longest ago. -/
def evictLru (l : List Resident) : List Resident :=
  match l with
  | [] => []
  | r :: t => let old := t.foldl (fun (a : Resident) x => if x.lastUse < a.lastUse then x else a) r; l.erase old

/-- The place of an applet, and the residents that stay. -/
def makePlace (lo size : Nat) : Nat → List Resident → Option (Nat × List Resident)
  | 0, l => (placeAt lo size l).map fun b => (b, l)
  | k + 1, l => match placeAt lo size l with
    | some b => some (b, l)
    | none => makePlace lo size k (evictLru l)

/-- The address of the directory slot in use. -/
def dirAddr (slot : Nat) : Nat := slot * 0x2000

/-- The flash bytes of the entry that the active directory has for a section. -/
def State.entryInFlash (s : State) (typ inst : Nat) : Option (DirEntry × Bytes) :=
  match (dirEntries (s.flashRead (dirAddr s.cfg.slot) 8192)).find? fun e => decide (e.typ = typ ∧ e.inst = inst) with
  | some e => some (e, s.flashRead e.off e.len)
  | none => none

/-- Loads an applet that is not resident. -/
def State.loadApplet (s : State) (n : Nat) : Byte × State :=
  match s.entryInFlash 0xA n with
  | none => (cAuthFail, s)
  | some (e, b) =>
    let foot := le32 b 8
    let code := le32 b 0xC
    if shakeH b 32 ≠ e.digest then (cAuthFail, s)
    else match makePlace s.areaStart foot 8 s.peat.residents with
      | none => (cAborted, s)
      | some (base, l) =>
        let s := s.memWrite base (slice b 0x40 code ++ zeros (foot - code))
        (cOk, { s with peat := { s.peat with residents := ⟨n, base, foot, 0⟩ :: l } })

/-! ### Calls (R86, R87) -/

/-- The address of an applet's persistent block. -/
def persistAddr (n : Nat) : Nat := 0x1000F000 + 0x200 * n

/-- Begins a call: the applet is loaded where it is not resident. -/
def State.beginCall (s : State) (n : Nat) (reqId : Option (BitVec 16)) (chan : Nat) (args : List Word) : Byte × State :=
  if 7 < n ∨ (s.sect 0xA n).isNone then (cAuthFail, s)
  else
    let r := if s.peat.residents.any fun r => decide (r.inst = n) then (cOk, s) else s.loadApplet n
    let s := r.2
    if r.1 ≠ cOk then r
    else
      let use := s.peat.appletUse + 1
      let l := s.peat.residents.map fun (r : Resident) => if r.inst = n then { r with lastUse := use } else r
      (cOk, { s with peat := { s.peat with
        residents := l, appletUse := use,
        applet := some ⟨n, reqId, chan, args, cOk, [], s.memRead (persistAddr n) 0x200⟩ } })

/-- The call's time budget in XO cycles (R90). -/
def State.appletBudget (s : State) (n : Nat) : Nat :=
  match s.sect 0xA n with
  | some b => (if le32 b 0x18 = 0 then 5000 else le32 b 0x18) * 2712 / 100
  | none => 0

/-- What the end of a call by a fault, an ECALL outside the mask or the budget leaves: the data area is discarded, the
persistent block is as it was. -/
def State.discardData (s : State) (r : AppletRun) : State :=
  let s := s.memWrite (persistAddr r.inst) r.saved
  match s.peat.residents.find? fun x => decide (x.inst = r.inst) with
  | some x =>
    let code := match s.sect 0xA r.inst with | some b => le32 b 0xC | none => 0
    s.memWrite (x.base + code) (zeros (x.size - code))
  | none => s

/-- The service is in the running applet's mask. -/
def State.inMask (s : State) (r : AppletRun) (service : Nat) : Bool :=
  match s.sect 0xA r.inst with | some b => testBit (le32 b 0x14) service | none => false

/-- An ECALL's answer. -/
def State.ecallDone (s : State) (r : AppletRun) (status : Byte) (words : List Word) : State :=
  { s with peat := { s.peat with applet := some { r with lastStatus := status, words := words } } }

/-- An ECALL's answer whose words the spec leaves open. -/
def State.ecallFree (s : State) (r : AppletRun) (n : Nat) : State :=
  let f := s.freeBytes (4 * n)
  f.2.ecallDone r cOk (toWords f.1)

/-- The running call ends; the random words that it waits for with it. -/
def State.callOver (s : State) : State :=
  let s := s.forgetDraw .applet
  { s with peat := { s.peat with applet := none } }

/-- Random words, for which the applet waits (R317). -/
def ecallRandom (count : Nat) (r : AppletRun) (s : State) : State :=
  if count = 0 then s.ecallDone r cLenZero []
  else (s.draw .applet (4 * count)).next id (fun c s => s.ecallDone r c []) fun b s => s.ecallDone r cOk (toWords b)

/-- The random words that the running applet waits for have come, or its request has failed. -/
def State.appletGoesOn (s : State) : State :=
  match s.peat.applet, s.servedTo .applet with
  | some r, some (c, b) => (s.forgetDraw .applet).ecallDone r c (toWords b)
  | _, _ => s

/-- A hash: the function is not named, so the digest is open. -/
def ecallHash (r : AppletRun) (s : State) : State :=
  s.withJobs 127 [hshJob 5 false] (fun c s => s.ecallDone r c []) fun s => s.ecallFree r 8

/-- The applet's own two counters. -/
def ecallCounter (which : Nat) (advance : Bool) (r : AppletRun) (s : State) : State :=
  let n := 48 + 2 * r.inst + which
  if 1 < which then s.ecallDone r cAuthFail []
  else if advance then
    match s.incCounter n with
    | some t => t.ecallDone r cOk [t.counter n]
    | none => s.ecallDone r cAborted []
  else s.ecallDone r cOk [s.counter n]

/-- A key-store operation on a slot: none is named beside the slot, so what it answers is open. -/
def ecallKey (slot : Nat) (r : AppletRun) (s : State) : State :=
  if (s.key slot).isNone then s.ecallDone r cKeyEmpty [] else s.ecallFree r 4

/-- The slot is one of the section's KEYSLOTS. -/
def State.listed (s : State) (r : AppletRun) (slot : Nat) : Bool :=
  match s.sect 0xA r.inst with | some b => decide (slot < 64) && testBit (ofLE (slice b 0x1C 8)) slot | none => false

/-- An operation on the session slot of the calling channel's session. -/
def ecallSession (r : AppletRun) (s : State) : State :=
  if s.boundTo r.chan (s.rf (aCHN_BIND r.chan) 15 8) then s.ecallFree r 4 else s.ecallDone r cNoSession []

end Machine
end Sys2Proof
end

