-- ==== Sys2Proof/Machine/Release.lean ====
section
/-!
DEFINITION. The release decision (R270 to R284): its checks, its outputs, the start waveform, what a waiting decision goes on
with, and the ends of applet calls (R86, R87). The commands whose outcome a waiting request of Peat may take up stand here too.
-/
namespace Sys2Proof
namespace Machine

/-! ### The start waveform (R279, R280) -/

/-- VBAT_LOW. -/
def State.vbatLow (s : State) : Bool := s.rb aPWR_STATUS 5

/-- GO: the waveform starts, or its remaining time is reloaded. -/
def relGo (s : State) : State :=
  let hold := s.rf aREL_CFG 15 0
  if s.isHead = false ∨ hold = 0 ∨ s.vbatLow then s
  else { s with rel := { s.rel with wave := true, startAt := if s.rel.wave then s.rel.startAt else s.now,
                                    endAt := s.now + hold * 271200 } }

/-- The waveform ends with both pins low. -/
def relStop (s : State) : State := { s with rel := { s.rel with wave := false } }

/-- START_REL_A: high in the first half of each period. -/
def State.startRelA (s : State) : Bool := s.rel.wave && decide ((s.now - s.rel.startAt) / 6780 % 2 = 0)

/-- START_REL_B: the complement of START_REL_A while the waveform runs. -/
def State.startRelB (s : State) : Bool := s.rel.wave && decide ((s.now - s.rel.startAt) / 6780 % 2 = 1)

/-- GO written by Peat's firmware. A grant writes GO itself, so this one stands outside a granted decision: a host mistake,
which makes the waveform unpredictable where GO has an effect. -/
def relGoWritten (s : State) : State :=
  if s.isHead = false ∨ s.rf aREL_CFG 15 0 = 0 ∨ s.vbatLow then s
  else
    let x := s.freeW
    let y := x.2.freeW
    { y.2 with rel := { y.2.rel with wave := bit x.1 0, startAt := s.now - y.1.toNat % 13560, endAt := s.now + x.1.toNat } }

/-- A write of REL_CTL: STOP wins. -/
def relCtl (v : Word) (s : State) : State := if bit v 1 then relStop s else s.onlyIf (bit v 0) relGoWritten

/-- A pin differs from its drive. -/
def pinMismatch (s : State) : State := if s.rel.wave then (relStop s).srb aREL_STATUS 3 true else s

/-! ### The outputs of a decision (R277, R278, R281, R282) -/

/-- The release part in use (R283). -/
def State.relPart (s : State) : Bytes := (s.policy 2).getD []

/-- What a pending decision holds back in Q1 and Q3 is its own now. -/
def State.useRoom (s : State) : State := { s with rel := { s.rel with pending := false } }

/-- The log record of a decision. -/
def State.decisionLog (s : State) (d : Decision) (code : Byte) (counter : Nat) : State :=
  s.feCommit 3 (wordsPacket 0 0xFF [w32 (code.toNat * 2 ^ 24 + d.kind * 2 ^ 16 + d.ses % 256 * 2 ^ 8 + d.zones % 256),
    d.subject, w32 counter, s.sysLo])

/-- Ends a decision: the mailbox reply, or the code in TAG_ISACK. -/
def State.conclude (s : State) (d : Decision) (code : Byte) (body : Bytes) : State :=
  let s := ({ s with rel := { s.rel with pending := false } }).srf aREL_STATUS 15 8 code.toNat
  if d.kind = 3 then tagIsack (w32 (256 + code.toNat)) s else s.reply code body

/-- A refusal: the log record and the reply. -/
def State.turnDown (s : State) (d : Decision) (code : Byte) : State := (s.useRoom.decisionLog d code 0).conclude d code []

/-- The release record before its MAC. -/
def State.releaseRecord (s : State) (d : Decision) (counter : Nat) : Bytes :=
  [1, by8 d.kind, by8 s.unit, by8 (if d.kind = 2 then 0 else d.zones)] ++ toLE 4 d.subject.toNat ++ toLE 8 counter ++
    toLE 4 s.opTime.toNat ++ zeros 4

/-- The release counter. -/
def State.releaseCounter (s : State) : Nat := (s.counter 44).toNat + 2 ^ 32 * (s.counter 45).toNat

/-- A grant, with its outputs in order; the CMAC of the release record runs on CH124, once the counter has been committed
(R278). -/
def State.grant (s : State) (d : Decision) : State :=
  let n := s.releaseCounter + 1
  match s.key 8 with
  | none => s.turnDown d cKeyEmpty
  | some k =>
    if n = 2 ^ 64 then s.turnDown d cAborted
    else
      let s := (s.useRoom.setCounter 44 (w32 n)).setCounter 45 (w32 (n / 2 ^ 32))
      s.withJobs 124 [aesJob 15] (fun c s => s.turnDown d c) fun s =>
      let s := (s.decisionLog d cOk (n % 2 ^ 32)).onlyIf (decide (d.kind = 2)) relGo
      let r := s.releaseRecord d n
      let s := (s.feCommit 1 (bytesPacket 0 0xFF (r ++ cmac k.key r))).active
      s.conclude d cOk (toLE 8 n)

/-! ### The policy applet (R275) -/

/-- Ends of the deadlines of a start (R274): 44.8 ms for a phone, 80 ms for a transponder. -/
def State.startDeadline (s : State) (d : Decision) : Nat := d.popped + (if (s.ses d.ses).suite = 1 then ms 448 / 10 else ms 80)

/-- Waits for an applet's reply; a call that could not complete before a start's deadline is not made. -/
def State.askApplet (s : State) (d : Decision) (inst : Nat) (card : Bool) : State :=
  if (s.sect 0xA inst).isNone then s.turnDown d (if card then cDistFail else cAuthFail)
  else if d.kind = 2 ∧ s.startDeadline d < s.now + s.appletBudget inst then s.turnDown d cAborted
  else ({ s with rel := { s.rel with pending := true } }).await (.applet d inst card (lanePackets (s.lane 14)))

/-- Every condition but the policy applet has passed. -/
def State.askPolicy (s : State) (d : Decision) : State :=
  let inst := byteAt s.relPart (if d.kind = 2 then 0xB else 0xA)
  if inst = 0xFF then s.grant d else s.askApplet d inst false

/-- The code that an applet's byte stands for: a reserved code, or PENDING, is never returned, and ABORTED stands in for it
(R16, log entry 61). -/
def appletCode (c : Byte) : Byte := if c = cPending ∨ 0x15 < c.toNat then cAborted else c

/-- The applet's reply to a decision. -/
def State.appletVerdict (s : State) (d : Decision) (card : Bool) (b : Byte) : State :=
  let code := appletCode b
  if card then (if code = cOk then s.askPolicy d else s.turnDown d cDistFail)
  else if code = cOk then s.grant d
  else s.turnDown d code

/-! ### Conditions (R270, R272, R273) -/

/-- The rights word of a session's holder: the credential's, or the enrolled entry's low byte. -/
def State.holderRights (s : State) (x : Session) : Word :=
  if x.suite = 1 then (match x.cred with | some c => c.2.1 | none => 0)
  else (match tfind s.envm.entries x.entry with | some e => w32 e.rights.toNat | none => 0)

/-- The class of a session's token; 0 for a phone. -/
def State.holderClass (s : State) (x : Session) : Nat :=
  if x.suite = 2 then (match tfind s.envm.entries x.entry with | some e => e.cls | none => 0) else 0

/-- The subject of a session. -/
def holderSubject (x : Session) : Word :=
  if x.suite = 1 then (match x.cred with | some c => w32 c.1 | none => 0) else x.tid

/-- Steps 2 to 6 of R272, with the deciding unit of R270. -/
def State.holderCheck (s : State) (d : Decision) : Byte :=
  let x := s.ses d.ses
  firstOf [
    (s.vbatLow, cAborted),
    (decide (x.st ≠ .ready ∨ x.gen.toNat ≠ d.gen), cNoSession),
    (decide (x.suite = 1 ∨ d.kind = 2) && !s.isHead, cAuthFail),
    ((s.key 8).isNone, cKeyEmpty),
    (s.isLocked (.cls (lockClass (s.feClass x.opener))) || (decide (x.suite = 2) && s.isLocked (.entry x.entry)), cLocked),
    (decide (x.suite ≠ 2) && x.cred.isNone, cAuthFail),
    (decide (x.suite = 2) && (tfind s.envm.entries x.entry).isNone, cNotEnrolled)]

/-- T_OP is past a credential's NOT_AFTER. -/
def State.holderExpired (s : State) (x : Session) : Bool :=
  match x.cred with | some c => decide (x.suite = 1 ∧ c.2.2.toNat < s.opTime.toNat) | none => false

/-- ZONE_UNITS of a zone. -/
def State.zoneUnits (s : State) (k : Nat) : Nat := le16 s.relPart (0x10 + 2 * k)

/-- Step 7 of R272. -/
def State.zonesAllowed (s : State) (x : Session) (zones : Nat) : Bool :=
  let r := s.holderRights x
  (bitsOf 8 zones).all fun k =>
    decide (s.zoneUnits k ≠ 0) && bit r (if testBit (byteAt s.relPart 0xD) k then 2 else 0) &&
      (decide (x.suite ≠ 1) || bit r (8 + k))

/-- A unit of a zone has a fresh verdict of a near phone. -/
def State.zoneNear (s : State) (d : Decision) (k : Nat) : Bool :=
  (bitsOf 16 (s.zoneUnits k)).any fun u =>
    match tfind s.peat.verdicts (d.ses * 32 + u + 1) with
    | some v =>
      let w := wordAt v.words 0
      decide (fld w 31 24 = 0 ∧ fld w 15 8 = d.gen ∧ s.sys ≤ v.stamp.toNat + ms (le16 s.relPart 2)) && bit w 2
    | none => false

/-- The AUTH completion that counts for a release: the one that LF_AUTHLAST0 shows, or the first of two tokens that completed
within 2 s of each other (R138, R273). -/
def State.authUsed (s : State) : Option AuthOk :=
  match s.peat.authOk.getLast? with
  | some b =>
    if s.peat.authSeen ∧ b.ses % 256 = s.rf aLF_AUTHLAST0 15 8 ∧ b.gen = s.rf aLF_AUTHLAST0 23 16 then
      some ((s.peat.authOk.find? fun a => a.near b).getD b)
    else none
  | none => none

/-- The session's token is the one, at most AUTH_AGE_MS ago, and a fob may open doors (R273). -/
def State.tokenNear (s : State) (d : Decision) : Bool :=
  testBit (byteAt s.relPart 1) 0 &&
    match s.authUsed with
    | some a => decide (a.ses = d.ses ∧ a.gen = d.gen ∧ s.sys ≤ a.time + ms (le16 s.relPart 4))
    | none => false

/-- UNLOCK_REQ (R272). -/
def unlockReq (v : Serving) (s : State) : State :=
  let n := (wordAt v.args 0).toNat
  let mask := wordAt v.args 1
  let x := s.ses n
  let zones := fld mask 7 0
  let d : Decision := ⟨1, n, s.requestGen.getD 0, zones, 0, 0, s.now⟩
  let known : Decision := { d with subject := holderSubject x, rights := s.holderRights x }
  let c := s.holderCheck d
  if mask = 0 then s.turnDown d cLenZero
  else if fld mask 31 8 ≠ 0 then s.turnDown d cAuthFail
  else if c ≠ cOk then s.turnDown (if c = cAborted ∨ c = cNoSession then d else known) c
  else if s.zonesAllowed x zones = false ∨ s.holderExpired x then s.turnDown known cAuthFail
  else if x.suite = 1 then
    (if (bitsOf 8 zones).all (s.zoneNear known) then s.askPolicy known else s.turnDown known cDistFail)
  else if s.holderClass x = 5 then
    (if byteAt s.relPart 0xC = 0xFF then s.turnDown known cDistFail else s.askApplet known (byteAt s.relPart 0xC) true)
  else if s.tokenNear known then s.askPolicy known
  else s.turnDown known cDistFail

/-! ### Starts (R274) -/

/-- Asks for a fused round whose result could still arrive before the deadline; the answer is the state with the request
placed, or none. -/
def State.askFused (s : State) (d : Decision) : Option State :=
  let t := ({ s with irqs := s.irqs.filter (· ≠ Irq.fusedResult) }).requestFused d.ses
  if Irq.fusedResult ∈ t.irqs then some t
  else
    match t.dist.fuseReqs.find? fun p => decide (p.ses = d.ses) with
    | some p =>
      let left := tsAhead ((p.start + p.units.length * slotSteps) % 2 ^ 40) t.tsNow
      if left ≤ (((s.startDeadline d - s.now) * 266240 / 113 : Nat) : Int) then some t else none
    | none => none

/-- Looks at the fused result, where one has come: the condition is met, the decision ends, or a further round is asked for.
At most two results are looked at, a request that ends without a round being the second. -/
def State.takeFused (s : State) (d : Decision) : Nat → State
  | 0 => s
  | k + 1 =>
    if Irq.fusedResult ∈ s.irqs then
      let w := s.reg aDIST_FUSED0
      let code := by8 (fld w 31 24)
      let s := { s with irqs := s.irqs.filter (· ≠ Irq.fusedResult) }
      if fld w 23 16 ≠ d.ses ∨ fld w 15 8 ≠ d.gen then s
      else if code = cOk ∧ fld w 7 0 = 1 then s.askPolicy d
      else if code = cNoSession then s.turnDown d cNoSession
      else if code = cAborted ∧ s.rb aDIST_FUSED2 6 then s.turnDown d cDistFail
      else
        match s.askFused d with
        | some t => t.takeFused d k
        | none => s
    else s

/-- The cabin condition of a phone: the first request is made whatever the time left (R274). -/
def State.startPhone (s : State) (d : Decision) : State :=
  let s := ({ s with rel := { s.rel with pending := true } }).await (.fused d)
  (({ s with irqs := s.irqs.filter (· ≠ Irq.fusedResult) }).requestFused d.ses).takeFused d 2

/-- The channel that a session's AUTH goes to: its opener while that is bound, else the first that is. -/
def State.boundChannel (s : State) (n : Nat) : Nat :=
  if s.bindsTo n (s.ses n).opener then (s.ses n).opener
  else ((List.range 124).find? fun c => s.bindsTo n c && decide (s.feClass c = 1)).getD (s.ses n).opener

/-- The AUTH of a transponder start. -/
def State.startTransponder (s : State) (d : Decision) : State :=
  let wake := match tfind s.envm.entries (s.ses d.ses).entry with | some e => e.wakeId.toNat | none => 0
  let cmd := toLE 4 (2 * 2 ^ 28 + le16 s.relPart 8 % 4096 * 2 ^ 16 + wake) ++ toLE 4 (375 * 2 ^ 16 + 8 * 2 ^ 8 + 1)
  match s.inCommit (s.boundChannel d.ses) 0 cmd with
  | none => s.turnDown d cDistFail
  | some t =>
    ({ t with rel := { t.rel with pending := true }, peat := { t.peat with lastAuth := none } }).await (.startAuth d)

/-- START_REQ (R274). -/
def startReq (v : Serving) (s : State) : State :=
  let n := (wordAt v.args 0).toNat
  let x := s.ses n
  let d : Decision := ⟨2, n, s.requestGen.getD 0, 0, 0, 0, s.now⟩
  let known : Decision := { d with subject := holderSubject x, rights := s.holderRights x }
  let c := s.holderCheck d
  if c ≠ cOk then s.turnDown (if c = cAborted ∨ c = cNoSession then d else known) c
  else if s.holderExpired x ∨ bit (s.holderRights x) 1 = false then s.turnDown known cAuthFail
  else if x.suite = 1 then s.startPhone known
  else if s.holderClass x = 2 ∨ s.holderClass x = 4 then s.startTransponder known
  else s.turnDown known cAuthFail

/-- The running applet call is a decision's. -/
def State.appletOfDecision (s : State) : Bool := match s.peat.applet with | some r => r.reqId.isNone | none => false

/-- START_DEADLINE (R274). -/
def startDeadline (s : State) : State :=
  match s.peat.serving with
  | none => s
  | some v => match v.waiting with
    | .fused d => s.turnDown d cDistFail
    | .startAuth d => s.turnDown d cDistFail
    | .applet d _ _ _ =>
      if d.kind ≠ 2 then s
      else
        match (if s.appletOfDecision then s.peat.applet else none) with
        | some r => ((s.discardData r).callOver).turnDown d cAborted
        | none => s.turnDown d cAborted
    | _ => s

/-! ### Island decisions (R276) -/

/-- Peat decides a pending island UNLOCK between mailbox requests. -/
def islandDecision (s : State) : State :=
  if s.rb aTAG_ISLAST0 22 = false ∨ s.tag.isackWait = false ∨ s.peatIdle = false then s
  else
    let s := s.commitLog 17
    let s := { s with irqs := s.irqs.filter (· ≠ Irq.island) }
    if s.decisionRoom = false then s
    else
      let n := s.rf aTAG_ISLAST0 21 16
      let zones := maskOf ((List.range 8).filter fun k => decide (0 < s.unit) && testBit (s.zoneUnits k) (s.unit - 1))
      let d : Decision := ⟨3, 0xFF, 0, zones, s.reg aTAG_ISLAST1, 0, s.now⟩
      let e := match tfind s.envm.entries n with
        | some e => if e.tid = d.subject then some e else none
        | none => none
      let c := firstOf [
        (s.vbatLow, cAborted),
        ((s.key 8).isNone, cKeyEmpty),
        (s.isLocked (.cls 2) || s.isLocked (.entry n), cLocked),
        (!testBit (byteAt s.relPart 1) 1, cAuthFail),
        (e.isNone, cNotEnrolled),
        (!(e.map fun x => x.rights.getLsbD 0 && x.rights.getLsbD 3).getD false, cAuthFail)]
      if c ≠ cOk then s.turnDown d c else s.grant d

/-! ### Applet calls (R87) -/

/-- A call ends: the reply in Q14, or the verdict of the decision that waits for it. -/
def State.endCall (s : State) (status : Byte) (ws : List Word) : State :=
  match s.peat.applet with
  | none => s
  | some r =>
    let s := s.callOver
    match r.reqId with
    | some id => s.answerMail 30 r.inst id status (ofWords ws)
    | none =>
      match s.peat.serving with
      | some v => (match v.waiting with
        | .applet d _ card _ =>
          s.appletVerdict d card (if status ≠ cOk then status else by8 (fld (wordAt ws 0) 7 0))
        | _ => s)
      | none => s

/-- A call ends with ABORTED, its data discarded (R86). -/
def State.abortCall (s : State) : State :=
  match s.peat.applet with
  | some r => (s.discardData r).endCall cAborted []
  | none => s

/-- Runs an ECALL of the running applet where its service is in the mask; one that waits for random words makes none. -/
def ecall (service : Nat) (f : AppletRun → State → State) (s : State) : State :=
  match s.peat.applet with
  | none => s
  | some r => if s.up .peat = false ∨ s.drawWaits .applet then s else if s.inMask r service then f r s else s.abortCall

/-- A replacement of the applet's section is in progress. -/
def State.replacingApplet (s : State) (n : Nat) : Bool :=
  match s.peat.serving with
  | some v => (match v.waiting with | .cfgDrain _ _ k _ => decide (k = 0xA00 + n) | _ => false)
  | none => false

/-- One call of Q14 fewer is ahead of the decision that waits. -/
def State.aheadLess (s : State) : State :=
  { s with peat := { s.peat with serving := s.peat.serving.map fun (v : Serving) =>
      match v.waiting with
      | .applet d i c a => { v with waiting := .applet d i c (a - 1) }
      | _ => v } }

/-- A call of Q14 begins. -/
def State.mailCall (s : State) : State :=
  match s.headPacket 14 with
  | none => s
  | some p =>
    let w0 := jobWord p 0
    let n := fld w0 31 24
    let id := BitVec.ofNat 16 (fld w0 15 0)
    if s.mailbox 14 = false ∨ s.room 30 < 5 ∨ s.replacingApplet n then s
    else
      let s := (s.takeHead 14).aheadLess
      if packetBroken p then
        let s := s.countBroken 14 p
        if headerGone p then s else s.answerMail 30 n id cAlarm []
      else if fld w0 23 16 ≠ 0 ∨ s.envm.lcs = 5 then s.answerMail 30 n id cAuthFail []
      else
        let r := s.beginCall n (some id) p.src ((packetWords p).drop 1)
        if r.1 = cOk then r.2 else r.2.answerMail 30 n id r.1 []

/-- The next call in arrival order begins: that of a waiting decision, or of Q14. -/
def appletCall (s : State) : State :=
  if s.up .peat = false ∨ s.peat.applet.isSome ∨ s.power.reloading then s
  else
    match s.peat.serving with
    | some v => (match v.waiting with
      | .applet d n card ahead =>
        if ahead = 0 ∨ (s.headPacket 14).isNone then
          if d.kind = 2 ∧ s.startDeadline d < s.now + s.appletBudget n then s.turnDown d cAborted
          else
          let r := s.beginCall n none (s.ses d.ses).opener [w32 d.kind, w32 d.zones, d.subject, d.rights]
          if r.1 = cOk then r.2 else r.2.appletVerdict d card r.1
        else s.mailCall
      | _ => s.mailCall)
    | none => s.mailCall

/-! ### What a waiting request goes on with -/

/-- Peat looks at the outcome that its waiting request waits for. -/
def peatGoesOn (s : State) : State :=
  match s.peat.serving with
  | none => s
  | some v => match v.waiting with
    | .fused d => s.takeFused d 2
    | .startAuth d =>
      (match s.peat.lastAuth with
       | some (ses, gen, status, answer) =>
         if ses = d.ses ∧ gen = d.gen then
           (if status = cOk ∧ answer then s.askPolicy d else s.turnDown d cDistFail)
         else s
       | none => s)
    | .byTokenAuth n gen cls tid rights =>
      (match s.peat.lastAuth with
       | some (ses, g, status, answer) => if ses = n ∧ g = gen then s.byTokenEnd n cls tid rights (some (status, answer)) else s
       | none => s)
    | _ => s

/-- Takes up a request that waited for a session to become FREE. -/
def State.sessionFreed (s : State) (v : Serving) : State :=
  let s := s.await .now
  if v.op = 0x01 then openSession v s
  else if v.op = 0x03 then s.fusedKey (wordAt v.args 0).toNat (by8 (wordAt v.args 1).toNat)
  else if v.op = 0x12 then (if fld (wordAt v.args 1) 31 24 = 4 then enrolBind v s else byToken v s)
  else s.replyCode cOk

/-- SESSION_FREE (R112). -/
def sessionFree (n : Nat) (s : State) : State :=
  let x := s.ses n
  let s := if x.st = .closing ∧ s.sesBusy n = false then s.freeSes n else s
  if (s.ses n).st = .free then
    (match s.peat.serving with
    | some v => (match v.waiting with
      | .sessionFree k => if k = n then s.sessionFreed v else s
      | _ => s)
    | none => s).landGoesOn
  else s

/-- UNLOCK_REQ (R272). -/
def execUnlockReq (s : State) : Result := done (mailOp 0x20 anyArgs unlockReq s)
/-- START_REQ (R274). -/
def execStartReq (s : State) : Result := done (mailOp 0x21 anyArgs startReq s)
/-- START_DEADLINE (R274). -/
def execStartDeadline (s : State) : Result := done (startDeadline s)
/-- ISLAND_DECISION (R276). -/
def execIslandDecision (s : State) : Result := done (islandDecision s)
/-- REL_GO (R279). -/
def execRelGo (m : Master) (s : State) : Result := done (s.owned m aREL_CTL relGoWritten)
/-- REL_STOP (R280). -/
def execRelStop (m : Master) (s : State) : Result := done (s.owned m aREL_CTL relStop)
/-- WAVEFORM_END (R279). -/
def execWaveformEnd (s : State) : Result := done (relStop s)
/-- PIN_MISMATCH (R280). -/
def execPinMismatch (s : State) : Result := done (pinMismatch s)
/-- APPLET_CALL (R87). -/
def execAppletCall (s : State) : Result := done (appletCall s)
/-- ECALL_HASH (R90). -/
def execEcallHash (_msg : Bytes) (s : State) : Result := done (ecall 0 ecallHash s)
/-- ECALL_RANDOM_WORDS (R90). -/
def execEcallRandomWords (count : Nat) (s : State) : Result := done (ecall 1 (ecallRandom count) s)
/-- ECALL_OWN_COUNTERS (R90). -/
def execEcallOwnCounters (which : Nat) (advance : Bool) (s : State) : Result := done (ecall 2 (ecallCounter which advance) s)
/-- ECALL_KEY_STORE (R90, R295): a slot outside the section's list ends the call with ABORTED. -/
def execEcallKeyStore (slot : Nat) (s : State) : Result :=
  done (ecall 3 (fun r s => if s.listed r slot then ecallKey slot r s else s.abortCall) s)
/-- ECALL_SESSION_SLOT (R90). -/
def execEcallSessionSlot (s : State) : Result := done (ecall 4 ecallSession s)
/-- ECALL_REPLY (R90). -/
def execEcallReply (a0 a1 a2 a3 : Word) (s : State) : Result := done (ecall 5 (fun _ s => s.endCall cOk [a0, a1, a2, a3]) s)
/-- APPLET_BUDGET_EXPIRY (R86). -/
def execAppletBudgetExpiry (s : State) : Result := done s.abortCall
/-- APPLET_ACCESS_FAULT (R86). -/
def execAppletAccessFault (s : State) : Result := done s.abortCall
/-- SESSION_FREE (R112). -/
def execSessionFree (n : Nat) (s : State) : Result := done (sessionFree n s)
/-- CHANNEL_STOP (R100). -/
def execChannelStop (m : Master) (ch : Nat) (s : State) : Result :=
  done (if ch < 128 then peatGoesOn (s.owned m (aCHN_CTL ch) (channelStop ch)) else s)
/-- LF_WAKE (R126). -/
def execLfWake (ch : Nat) (s : State) : Result := done (peatGoesOn (lfTake 1 ch s))
/-- LF_AUTH (R130). -/
def execLfAuth (ch : Nat) (s : State) : Result := done (peatGoesOn (lfTake 2 ch s))
/-- LF_LOCATE (R135). -/
def execLfLocate (ch : Nat) (s : State) : Result := done (peatGoesOn (lfTake 3 ch s))
/-- LF_TUNE (R143). -/
def execLfTune (ch : Nat) (s : State) : Result := done (peatGoesOn (lfTake 4 ch s))
/-- LF_MEASURE (R136). -/
def execLfMeasure (ch : Nat) (s : State) : Result := done (peatGoesOn (lfTake 5 ch s))
/-- LF_EXCHANGE_START (R144). -/
def execLfExchangeStart (obs : LfConditions) (s : State) : Result := done (peatGoesOn (lfExchangeStart s obs))
/-- LF_ANSWER (R127). -/
def execLfAnswer (reply : LfReply) (s : State) : Result :=
  done (match s.lfListening with | some x => peatGoesOn (lfAnswered s x reply) | none => s)
/-- LF_WINDOW_CLOSE (R127). -/
def execLfWindowClose (s : State) : Result :=
  done (match s.lfListening with | some x => peatGoesOn (s.lfEnd x cOk false false (lfToken x) none) | none => s)
/-- LF_EXCHANGE_END (R129). -/
def execLfExchangeEnd (tones : Axes) (peaks : List (List Nat)) (s : State) : Result :=
  done (peatGoesOn (lfExchangeEnd s tones peaks))
/-- SLOT_END (R226). -/
def execSlotEnd (s : State) : Result := done (peatGoesOn (slotEnd s))
/-- FUSED_REQUEST (R235). -/
def execFusedRequest (m : Master) (v : Word) (s : State) : Result :=
  done (peatGoesOn (s.owned m aDIST_FUSE (fuseWrite (setFld v 31 31 1))))
/-- ARRIVAL_TIMES (R236). -/
def execArrivalTimes (s : State) : Result := done (peatGoesOn (arrivalTimes s))
/-- FUSION_TIMEOUT (R236). -/
def execFusionTimeout (s : State) : Result := done (peatGoesOn (fusionTimeout s))

end Machine
end Sys2Proof
end

