-- ==== Sys2Proof/Machine/Images.lean ====
section
/-!
DEFINITION. The reset of the device (R40, R44), how a start chooses its directory and images (R59 to R62, R80, R81), live
replacement of a section (R63 to R66), and staging, activating and confirming images (R82 to R84).
-/
namespace Sys2Proof
namespace Machine

/-! ### Reset (R11, R40, R44) -/

/-- What the always-on island keeps of the registers: FLT_AON, and what the supplies show now. -/
def State.aonRegs (s : State) (cause : Word) : Tab Word :=
  let t := tset (tset [] aPWR_WAKE_SRC cause 0) aFLT_AON (s.reg aFLT_AON) 0
  tset t aPWR_STATUS (s.reg aPWR_STATUS &&& 0x30) 0

/-- eNVM after a tear: a SIGN that was running leaves its index skipped, and the traversal state lags by one more (R386). -/
def State.tornEnvm (s : State) : Envm := match s.eng.hsh with | some r => (s.hSkip r).envm | none => s.envm

/-- Every domain but the always-on island and eNVM is reset, and a start follows, whose causes PWR_WAKE_SRC shows. REG_EN stays
low while VBAT is below its range (R38). -/
def State.resetAll (s : State) (cause : Word) : State :=
  { State.reset with
    pending := s.pending, now := s.now, freeCtr := s.freeCtr, tsOrigin := s.now, readOut := s.readOut, flash := s.flash,
    envm := s.tornEnvm, rootArray := s.rootArray, regs := s.aonRegs cause,
    power := { Power.reset with
      regEn := !s.power.vbatArmed, vbatArmed := s.power.vbatArmed, vbatAt := s.power.vbatAt, timeLost := s.power.timeLost,
      chargeOff := s.power.chargeOff, aonCal := s.power.aonCal, lastActivity := s.now, leftAt := s.now },
    gov := { lf := lfCapacity, uwb := uwbCapacity, at_ := s.now } }

/-! ### Directories (R59 to R61) -/

/-- An anti-rollback counter: 0 configuration, 1 Peat image, 2 Sedge image. -/
def State.arb (s : State) (n : Nat) : Nat := (tget s.envm.arb n 0).toNat

/-- Advances an anti-rollback counter to a version. -/
def State.setArb (s : State) (n v : Nat) : State :=
  { s with envm := { s.envm with arb := tset s.envm.arb n (w32 (max (s.arb n) v)) 0 } }

/-- The header of a directory is in order (R61 step 1), and its entries are well made (R59, R60). -/
def dirHead (s : State) (b : Bytes) : Bool :=
  decide (le32 b 0 = 0x46434D4B ∧ le16 b 4 = 1 ∧ 1 ≤ le16 b 6 ∧ le16 b 6 ≤ 48 ∧ s.arb 0 ≤ dirVersion b) &&
    dirWellMade (dirEntries b)

/-- A directory slot is valid. -/
def dirValid (s : State) (rd : Nat → Nat → Bytes) (slot : Nat) : Bool :=
  let b := rd (dirAddr slot) 5140
  dirHead s b && s.signed 2 (slice b 0x910 2820) (slice b 0 0x910)

/-- A section's bytes pass the digest, the CRC and the content check (R61 step 4). -/
def sectionOk (dir : List DirEntry) (area : Nat) (e : DirEntry) (b : Bytes) : Bool :=
  decide (shakeH b 32 = e.digest ∧ crc32c b = e.crc) && contentOk dir area e.typ e.inst b

/-- The sections of a directory slot, keyed TYPE x 256 + INSTANCE. -/
def readSections (rd : Nat → Nat → Bytes) (slot : Nat) : Tab Bytes :=
  (dirEntries (rd (dirAddr slot) 5140)).foldl (fun t e => tput t (e.typ * 256 + e.inst) (rd e.off e.len)) []

/-- Every section of a directory slot passes. -/
def sectionsOk (rd : Nat → Nat → Bytes) (area slot : Nat) : Bool :=
  let dir := dirEntries (rd (dirAddr slot) 5140)
  dir.all fun e => sectionOk dir area e (rd e.off e.len)

/-! ### Images (R80, R81) -/

/-- Bytes of an image with a header. -/
def imageBytes (h : Bytes) : Nat := 64 + le32 h 0xC + 5640

/-- An image's header is in order, for its type and the size of its slot. Step 1 of R81 does not list a bit of FLAGS above
bit 0, a non-zero reserved byte or a FOOTPRINT out of range: each makes the slot not valid too (DESIGN CHOICE, log entry 87). -/
def headOk (typ size arb : Nat) (h : Bytes) : Bool :=
  let peat := decide (typ = 1)
  decide (le32 h 0 = (if peat then 0x49504D4B else 0x49534D4B) ∧ byteAt h 4 = typ ∧ byteAt h 5 < 2 ∧ le32 h 0xC ≠ 0 ∧
    le32 h 0xC ≤ (if peat then 57344 else 458752) ∧ le32 h 0x10 ≤ (if peat then 57344 else 524288) ∧
    imageBytes h ≤ size ∧ arb ≤ le32 h 8) && zeroAt h 6 2 && zeroAt h 0x18 8

/-- An image's digest and both its signatures are correct: the vendor's over the header, the operator's over the header and
VENDOR_SIG; both cover the body through DIGEST (R80, R384). -/
def State.imageSigned (s : State) (b : Bytes) : Bool :=
  let n := le32 b 0xC
  decide (shakeH (slice b 0x40 n) 32 = slice b 0x20 32) &&
    s.signed 1 (slice b (0x40 + n) 2820) (slice b 0 0x40) &&
    s.signed 2 (slice b (0x40 + n + 2820) 2820) (slice b 0 0x40 ++ slice b (0x40 + n) 2820)

/-- The image in a slot, if it is valid. -/
def readImage (s : State) (rd : Nat → Nat → Bytes) (typ off size : Nat) : Option Bytes :=
  let h := rd off 64
  if headOk typ size (s.arb typ) h then
    let b := rd off (imageBytes h)
    if s.imageSigned b then some b else none
  else none

/-- The key of an image's count of trial starts. -/
def trialKey (typ version : Nat) : Nat := typ * 2 ^ 32 + version

/-- An unconfirmed version has started three times without a confirmation (R81 step 3). -/
def State.exhausted (s : State) (typ version : Nat) : Bool :=
  decide (s.arb typ < version) &&
    decide (3 ≤ tget s.envm.trial (trialKey typ version) 0)

/-- The image taken of two slots: the higher VERSION, and the other where that is exhausted. Of two valid slots with the same
VERSION step 2 of R81 names none: slot A is taken (DESIGN CHOICE, log entry 88). -/
def State.chooseImage (s : State) (typ : Nat) (a b : Option Bytes) : Option (Nat × Bytes) :=
  match a, b with
  | none, none => none
  | some x, none => if s.exhausted typ (le32 x 8) then none else some (0, x)
  | none, some y => if s.exhausted typ (le32 y 8) then none else some (1, y)
  | some x, some y =>
    if le32 x 8 < le32 y 8 then (if s.exhausted typ (le32 y 8) then some (0, x) else some (1, y))
    else if s.exhausted typ (le32 x 8) then some (1, y) else some (0, x)

/-- The image of a type that a start takes under a LAYOUT section. -/
def pickImage (s : State) (rd : Nat → Nat → Bytes) (layout : Bytes) (typ : Nat) : Option (Nat × Bytes) :=
  let w := le32 layout
  if typ = 1 then s.chooseImage 1 (readImage s rd 1 (w 8) (w 0x10)) (readImage s rd 1 (w 0xC) (w 0x10))
  else s.chooseImage 2 (readImage s rd 2 (w 0x14) (w 0x1C)) (readImage s rd 2 (w 0x18) (w 0x1C))

/-- The bytes of the applet area beside a Peat image's FOOTPRINT (R88). -/
def areaSize (foot : Nat) : Nat := 0xF000 - (foot + 4095) / 4096 * 4096

/-! ### What a start finds -/

/-- What a start takes into use: the directory slot, its version and sections, and the images with their slots. -/
structure Found where
  slot : Nat
  version : Nat
  sections : Tab Bytes
  peat : Option (Nat × Bytes)
  sedge : Option (Nat × Bytes)
  deriving DecidableEq, Repr

/-- Tries a directory slot that is valid: its sections, with the applet area that its Peat image leaves. -/
def tryDir (s : State) (rd : Nat → Nat → Bytes) (slot : Nat) : Option Found :=
  let t := readSections rd slot
  let layout := tget t 0xB00 []
  let peat := pickImage s rd layout 1
  let area := match peat with | some p => areaSize (le32 p.2 0x10) | none => 0xF000
  if sectionsOk rd area slot then
    some ⟨slot, dirVersion (rd (dirAddr slot) 5140), t, peat, pickImage s rd layout 2⟩
  else none

/-- The directory slots in the order in which a start tries them (R61 steps 1 to 3). Of two valid slots with one CFG_VERSION and
no commit record the spec names none: slot A is tried first (DESIGN CHOICE, log entry 57). -/
def dirOrder (s : State) (rd : Nat → Nat → Bytes) : List Nat :=
  let v := fun slot => dirVersion (rd (dirAddr slot) 5140)
  match s.envm.commitRec with
  | some r => if dirValid s rd r.1 ∧ v r.1 = r.2.toNat then [r.1] else []
  | none => (if v 0 < v 1 then [1, 0] else [0, 1]).filter (dirValid s rd)

/-- What a start takes into use (R61); none where no slot succeeds. -/
def findConfig (s : State) (rd : Nat → Nat → Bytes) : Option Found := (dirOrder s rd).findSome? (tryDir s rd)

/-! ### The hash jobs of the boot path (R384) -/

/-- The chained SHAKE256 jobs that digest n bytes, one for each packet. -/
def digestJobs (n : Nat) : Nat := (n + max 1 Config.digestPacket - 1) / max 1 Config.digestPacket

/-- The hash jobs that the checks of an image take: its digest, and two verifications. -/
def imageJobs (s : State) (rd : Nat → Nat → Bytes) (typ off size : Nat) : Nat :=
  let h := rd off 64
  if headOk typ size (s.arb typ) h then digestJobs (le32 h 0xC) + 2 else 0

/-- Those of a directory slot that a start tries: its sections', and its images'. -/
def slotJobs (s : State) (rd : Nat → Nat → Bytes) (slot : Nat) : Nat :=
  let w := le32 (tget (readSections rd slot) 0xB00 [])
  ((dirEntries (rd (dirAddr slot) 5140)).map fun e => digestJobs e.len).sum +
    (imageJobs s rd 1 (w 8) (w 0x10) + imageJobs s rd 1 (w 0xC) (w 0x10)) +
    (imageJobs s rd 2 (w 0x14) (w 0x1C) + imageJobs s rd 2 (w 0x18) (w 0x1C))

/-- Those of a start: a verification for each directory slot whose header is in order, and the slots that it tries. -/
def startJobs (s : State) (rd : Nat → Nat → Bytes) : Nat :=
  let l := dirOrder s rd
  let fails := fun slot => (tryDir s rd slot).isNone
  (([0, 1].filter fun slot => dirHead s (rd (dirAddr slot) 5140)).length) +
    ((l.takeWhile fails ++ (l.dropWhile fails).take 1).map (slotJobs s rd)).sum

/-- The hash engine has completed so many of these jobs. -/
def State.hashJobs (s : State) (n : Nat) : State := (s.bump (countReg engHsh) 15 0 n).evt (engBlock engHsh) 0x03 n

/-- The reads of an image slot: its header, and the rest where the header is in order. -/
def imageReads (s : State) (rd : Nat → Nat → Bytes) (typ off size : Nat) : List (Nat × Nat) :=
  let h := rd off 64
  (off, 64) :: (if headOk typ size (s.arb typ) h then [(off + 64, imageBytes h - 64)] else [])

/-- The reads that a start makes, in order, with what it has read so far: a read not yet made reads as erased flash, which
ends the list beyond it. -/
def startReads (s : State) (rd : Nat → Nat → Bytes) : List (Nat × Nat) :=
  [(dirAddr 0, 5140), (dirAddr 1, 5140)] ++
    ((dirOrder s rd).flatMap fun slot =>
      let w := le32 (tget (readSections rd slot) 0xB00 [])
      (dirEntries (rd (dirAddr slot) 5140)).map (fun e => (e.off, min e.len 0x8000000)) ++
        (if w 0 % 256 = 1 then
          imageReads s rd 1 (w 8) (w 0x10) ++ imageReads s rd 1 (w 0xC) (w 0x10) ++
            imageReads s rd 2 (w 0x14) (w 0x1C) ++ imageReads s rd 2 (w 0x18) (w 0x1C)
         else []))

/-! ### Replacing one section (R63 to R66) -/

/-- Erases the first 4 KiB of a directory slot. -/
def State.eraseSlot (s : State) (slot : Nat) : State := s.flashWrite (dirAddr slot) (List.replicate 4096 0xFF)

/-- The entry of a directory for a section. -/
def entryOf (l : List DirEntry) (typ inst : Nat) : Option DirEntry := l.find? fun e => decide (e.typ = typ ∧ e.inst = inst)

/-- The sections in which two directories differ. -/
def dirDiff (a b : List DirEntry) : List (Nat × Nat) :=
  ((a ++ b).map fun e => (e.typ, e.inst)).eraseDups.filter fun k => decide (entryOf a k.1 k.2 ≠ entryOf b k.1 k.2)

/-- SEC_REPLACE. -/
def State.secReplace (s : State) (b : Bool) : State := s.srb aPWR_STATUS 7 b

/-- Ends a replacement: nothing is held any more, Peat replies, and Causeway traffic that waited goes on. -/
def State.endReplace (s : State) (status : Byte) : State :=
  ((({ s with cfg := { s.cfg with held := [], hold := [] }, eng := { s.eng with bnHold := none } }).secReplace false).replyCode
    status).onlyIf (decide (6 ∈ s.cfg.held)) State.resumeCauseway

/-- The front-end commands of classes that are committed now, by lane and SEQ. -/
def State.committedNow (s : State) (classes : List Nat) : List (Nat × Nat) :=
  ((List.range 124).filter fun c => decide (s.chState c = 1 ∧ s.feClass c ∈ classes)).flatMap fun c =>
    let n := s.rf (aCHN_QUEUES c) 3 0
    (s.lane n).committed.map fun p => (n, p.seq.toNat)

/-- A POLICY section brings an engine part, be it as the present one: the engine drains for it (R348). -/
def engineChanges (key : Nat) (body : Option Bytes) : Bool :=
  decide (key = 0x900) &&
    (match body with | some b => (findPart 3 (byteAt b 1) (b.drop 4)).isSome | none => false)

/-- No new work starts under the old section (R65 step 1): what may still be taken is what was committed before. -/
def State.holdWork (s : State) (key : Nat) (body : Option Bytes) : State :=
  if key = 0x300 then { s with cfg := { s.cfg with held := [1, 2], hold := s.committedNow [1, 2] } }
  else if key = 0x400 then { s with cfg := { s.cfg with held := [3], hold := s.committedNow [3] } }
  else if key = 0x500 then { s with cfg := { s.cfg with held := [5], hold := [] } }
  else if key = 0x600 then { s with cfg := { s.cfg with held := [6], hold := [] } }
  else if engineChanges key body then
    let l := ((s.lane 10).committed.filter fun p => decide (jobEngine p = engBn)).map fun p => p.seq.toNat
    { s with eng := { s.eng with bnHold := some l } }
  else s

/-- Commands held for a drain that have not been taken. -/
def State.heldLeft (s : State) : Bool :=
  s.cfg.hold.any fun x => (s.lane x.1).committed.any fun p => decide (p.seq.toNat = x.2)

/-- A lane holds no items and no open packets (R394). -/
def laneClear (l : Lane) : Bool := decide (laneItems l = 0 ∧ l.opens = [])

/-- The Silt base of queue n under a QUEUES section. -/
def siltBase (b : Bytes) (n : Nat) : Nat := ((List.range n).map fun k => byteAt b (6 + 4 * k)).sum

/-- Queue n keeps its entry and its Silt partition. -/
def sameQueue (old new : Bytes) (n : Nat) : Bool :=
  decide (slice old (4 + 4 * n) 4 = slice new (4 + 4 * n) 4 ∧ (byteAt new (6 + 4 * n) = 0 ∨ siltBase old n = siltBase new n))

/-- The work under the old section has drained (R65 step 2; R87, R149, R177, R208, R348, R394, R461). -/
def State.drained (s : State) (key : Nat) (body : Option Bytes) : Bool :=
  if key = 0x300 then s.lf.cur.isNone && s.lf.waiting.isEmpty && !s.heldLeft
  else if key = 0x400 then
    s.nfc.cur.isNone && !s.heldLeft && s.tag.shadows.isEmpty && s.tag.writing.isNone && s.tag.fieldWaits.isNone && !s.tag.active && !s.tag.picked &&
      !s.tag.pulse && !s.tag.unlockWait
  else if key = 0x500 then
    s.dist.plan.isEmpty && s.dist.cur.isEmpty && s.dist.fused.isEmpty && !s.radioHeld
  else if key = 0x600 then [0, 1].all fun p => (s.port p).waiting.isEmpty && (s.port p).unacked.isEmpty
  else if key = 0x700 then
    (List.range 16).all fun n =>
      sameQueue ((s.sect 7 0).getD []) (body.getD []) n || (laneClear (s.lane n) && laneClear (s.lane (16 + n)))
  else if key = 0x900 then
    s.hif.wbuf.isEmpty && (!engineChanges key body ||
      (s.eng.bn.isNone && s.eng.bnSusp.isNone && (match s.eng.bnHold with
        | some l => (s.lane 10).committed.all fun p => decide (p.seq.toNat ∉ l)
        | none => true)))
  else if key / 256 = 0xA then (match s.peat.applet with | some r => decide (r.inst ≠ key % 256) | none => true)
  else true

/-- What a section that is removed leaves: an island without configuration, an applet that is not resident. -/
def State.removeSection (s : State) (key : Nat) : State :=
  if key = 0x400 then { s with envm := { s.envm with islandCfg := none, tussock := [], tornRecs := [] } }
  else if key / 256 = 0xA then
    { s with peat := { s.peat with residents := s.peat.residents.filter fun r => decide (r.inst ≠ key % 256) } }
  else s

/-- The write-protection windows: the active directory slot, every section that it names, the slots of the running images and
the status-map area (R63, R69). -/
def State.windowsOf (s : State) : List (Nat × Nat) :=
  (dirAddr s.cfg.slot, 8192) :: ((dirEntries (s.flashRead (dirAddr s.cfg.slot) 5140)).map fun e => (e.off, e.len)) ++
    [(s.imageAt 1 (tget s.peat.runSlot 1 0), s.layout 0x10), (s.imageAt 2 (tget s.peat.runSlot 2 0), s.layout 0x1C),
     (s.mapBase, 0x40000)]

/-- Peat sets the windows. Sedge has no register of the QSPI controller (log entry 53). -/
def State.guardFlash (s : State) : State := { s with cfg := { s.cfg with windows := s.windowsOf } }

/-- The QSPI controller protects a byte of the flash against writes. -/
def State.guarded (s : State) (a : Nat) : Bool := s.cfg.windows.any fun w => decide (w.1 ≤ a ∧ a < w.1 + w.2)

/-- The commit record and the counter, in one eNVM write (R65 step 3). -/
def State.commitDir (s : State) (slot : Nat) (version : Word) : State :=
  ({ s with envm := { s.envm with commitRec := some (slot, version) },
            cfg := { s.cfg with slot := slot, version := version } }).setArb 0 version.toNat

/-- The links retrain after a new CHAIN section (R461). -/
def State.retrain (s : State) : State := ((s.portDown 0).portDown 1).trainPorts

/-- The commit point and the new section (R65 steps 3 and 4). -/
def State.commitSection (s : State) (slot : Nat) (version : Word) (key : Nat) (body : Option Bytes) : State :=
  let s := (s.commitDir slot version).guardFlash
  match body with
  | some b =>
    let s := { s with cfg := { s.cfg with sections := tput s.cfg.sections key b } }
    (s.applySection (key / 256) (key % 256) b).onlyIf (decide (key = 0x600)) State.retrain
  | none => ({ s with cfg := { s.cfg with sections := tdel s.cfg.sections key } }).removeSection key

/-- The candidate directory is refused (R64). -/
def State.refuseCandidate (s : State) (slot : Nat) : State := (s.eraseSlot slot).endReplace cAuthFail

/-- A candidate that passed, which changes the section of a key: CLOCKS and LAYOUT are committed at once and take effect at the next
start, which also writes the copy of CLOCKS (R67);
any other section waits for its drain. -/
def State.acceptCandidate (s : State) (slot : Nat) (version : Word) (key : Nat) (body : Option Bytes) : State :=
  if key = 0x100 ∨ key = 0xB00 then ((s.commitDir slot version).guardFlash).endReplace cOk
  else (s.holdWork key body).await (.cfgDrain slot version key body)

/-- CFG_REPLACE (R64). -/
def cfgReplace (_v : Serving) (s : State) : State :=
  let s := s.secReplace true
  let slot := 1 - s.cfg.slot
  let b := s.flashRead (dirAddr slot) 5140
  let new := dirEntries b
  let old := dirEntries (s.flashRead (dirAddr s.cfg.slot) 5140)
  if dirValid s s.flashRead slot = false ∨ dirVersion b ≤ s.cfg.version.toNat then s.refuseCandidate slot
  else
    match dirDiff old new with
    | [(typ, inst)] =>
      let key := typ * 256 + inst
      (match entryOf new typ inst with
       | none => s.acceptCandidate slot (w32 (dirVersion b)) key none
       | some e =>
         let body := s.flashRead e.off e.len
         let s := s.hashJobs (1 + digestJobs e.len)
         if sectionOk new (areaSize s.peat.peatFoot) e body then
           s.acceptCandidate slot (w32 (dirVersion b)) key (some body)
         else s.refuseCandidate slot)
    | _ => s.refuseCandidate slot

/-- REPLACEMENT_COMMIT (R65). -/
def replacementCommit (s : State) : State :=
  match s.peat.serving with
  | some v => (match v.waiting with
    | .cfgDrain slot version key body =>
      if s.drained key body then (s.commitSection slot version key body).endReplace cOk else s
    | _ => s)
  | none => s

/-- DRAIN_TIMEOUT (R65). -/
def drainTimeout (s : State) : State :=
  match s.peat.serving with
  | some v => (match v.waiting with
    | .cfgDrain slot _ _ _ => (s.eraseSlot slot).endReplace cAborted
    | _ => s)
  | none => s

/-! ### Updating images (R82 to R84) -/

/-- The image type that a request names. -/
def imageType (v : Serving) : Option Nat :=
  let t := (wordAt v.args 0).toNat
  if t = 1 ∨ t = 2 then some t else none

/-- The image in the inactive slot of a type, if it is valid. -/
def State.inactiveImage (s : State) (typ : Nat) : Nat × Option Bytes :=
  let slot := 1 - tget s.peat.runSlot typ 0
  (slot, readImage s s.flashRead typ (s.imageAt typ slot) (s.layout (if typ = 1 then 0x10 else 0x1C)))

/-- Every configured applet fits the applet area beside a FOOTPRINT. -/
def State.appletsFit (s : State) (foot : Nat) : Bool :=
  (List.range 8).all fun n => match s.sect 0xA n with | some b => decide (le32 b 8 ≤ areaSize foot) | none => true

/-- IMAGE_STAGE (R83 step 2). -/
def imageStage (v : Serving) (s : State) : State :=
  match imageType v with
  | none => s.replyCode cAuthFail
  | some t =>
    let slot := 1 - tget s.peat.runSlot t 0
    let image := s.inactiveImage t
    let s := s.hashJobs (imageJobs s s.flashRead t (s.imageAt t slot) (s.layout (if t = 1 then 0x10 else 0x1C)))
    match image with
    | (slot, some b) =>
      if le32 b 8 ≤ (tget s.peat.runVersion t 0).toNat ∨ (t = 1 ∧ s.appletsFit (le32 b 0x10) = false) then s.replyCode cAuthFail
      else
        ({ s with peat := { s.peat with
          staged := tput s.peat.staged t (slot, w32 (le32 b 8), slice b 0x20 32) } }).replyCode cOk
    | (_, none) => s.replyCode cAuthFail

/-- An image whose ADVANCE_NOW is set has its counter advanced when it is first activated (R82). -/
def State.advanceNow (s : State) (typ : Nat) (h : Bytes) : State :=
  if byteAt h 5 % 2 = 1 then s.setArb typ (le32 h 8) else s

/-- A start of an unconfirmed image is counted; the count of each image is its own (R81, R82). -/
def State.countStart (s : State) (typ : Nat) (h : Bytes) : State :=
  if s.arb typ < le32 h 8 then
    { s with envm := { s.envm with trial := tput s.envm.trial (trialKey typ (le32 h 8)) (tget s.envm.trial (trialKey typ (le32 h 8)) 0 + 1) } }
  else s

/-- SEDGE_TRIAL shows whether the running Sedge image is confirmed. -/
def State.showTrial (s : State) : State :=
  s.srb aSYS_CORE_STATUS 0 (decide (s.arb 2 < (tget s.peat.runVersion 2 0).toNat))

/-- The running image of a type changes. -/
def State.setRunning (s : State) (typ slot version : Nat) : State :=
  { s with peat := { s.peat with runSlot := tput s.peat.runSlot typ slot, runVersion := tput s.peat.runVersion typ (w32 version),
                                 staged := tdel s.peat.staged typ } }

/-- IMAGE_ACTIVATE (R83 step 3). Where nothing is staged, and in the three image requests for a type other than 1 and 2, the
spec gives no status: AUTH_FAIL (DESIGN CHOICE, log entry 57). -/
def imageActivate (v : Serving) (s : State) : State :=
  match imageType v with
  | none => s.replyCode cAuthFail
  | some t =>
    match tfind s.peat.staged t with
    | none => s.replyCode cAuthFail
    | some (slot, version, digest) =>
      if t = 1 then s.await .peatSwap
      else
        let h := s.flashRead (s.imageAt 2 slot) 64
        let s := (s.replyCode cOk).setRunning 2 slot version.toNat
        let s := ({ s with peat := { s.peat with sedgeDigest := digest } }).advanceNow 2 h
        s.guardFlash.showTrial.reloadSedge

/-- A release request waits in Q15. -/
def State.releaseWaits (s : State) : Bool :=
  (s.lane 15).committed.any fun p => decide (fld (jobWord p 0) 31 24 = 0x20 ∨ fld (jobWord p 0) 31 24 = 0x21)

/-- Peat writes its handoff state to the top of its footprint; what it holds and how long it is the spec does not say
(log entry 7). -/
def State.handoff (s : State) : State :=
  let n := min s.peat.peatFoot Config.handoffSize
  let x := s.freeBytes n
  (x.2.memWrite (0x10000000 + s.peat.peatFoot - n) x.1).srb aSYS_CORE_STATUS 2 true

/-- PEAT_SWAP is set and the handoff state written; the boot ROM reloads Peat and compares the digest with the staged one; the
new Peat clears PEAT_SWAP and serves on (R84). No resident applet is kept, as the applet area may move: the spec does not say
(DESIGN CHOICE, log entry 57). -/
def State.swapPeat (s : State) (slot version : Nat) (digest : Bytes) : State :=
  let s := s.handoff
  let o := s.imageAt 1 slot
  let h := s.flashRead o 64
  let body := s.flashRead (o + 64) (min 57344 (le32 h 0xC))
  if shakeH body 32 ≠ digest then s.resetAll 0
  else
    let s := (((s.memWrite 0x10000000 body).setRunning 1 slot version).guardFlash.srb aSYS_CORE_STATUS 2 false).hashJobs
      (digestJobs body.length)
    let s := { s with peat := { s.peat with peatFoot := le32 h 0x10, residents := [] } }
    (s.advanceNow 1 h).replyCode cOk

/-- PEAT_SWAP (R84). -/
def peatSwap (s : State) : State :=
  match s.peat.serving with
  | some v => (match v.waiting with
    | .peatSwap =>
      if s.peat.applet.isSome ∨ s.rel.wave ∨ s.releaseWaits then s
      else (match tfind s.peat.staged 1 with
        | some (slot, version, digest) => s.swapPeat slot version.toNat digest
        | none => s.replyCode cAuthFail)
    | _ => s)
  | none => s

/-- SWAP_TIMEOUT (R84). -/
def swapTimeout (s : State) : State :=
  match s.peat.serving with
  | some v => (match v.waiting with
    | .peatSwap => s.replyCode cAborted
    | _ => s)
  | none => s

/-- IMAGE_CONFIRM (R82). -/
def imageConfirm (v : Serving) (s : State) : State :=
  match imageType v with
  | none => s.replyCode cAuthFail
  | some t =>
    let s := s.setArb t (tget s.peat.runVersion t 0).toNat
    let s := { s with envm := { s.envm with trial := tdel s.envm.trial (trialKey t (tget s.peat.runVersion t 0).toNat) } }
    s.showTrial.replyCode cOk

/-- CFG_REPLACE (R64). -/
def execCfgReplace (s : State) : Result := done (mailOp 0x40 anyArgs cfgReplace s)
/-- REPLACEMENT_COMMIT (R65). -/
def execReplacementCommit (s : State) : Result := done (replacementCommit s)
/-- DRAIN_TIMEOUT (R65). -/
def execDrainTimeout (s : State) : Result := done (drainTimeout s)
/-- IMAGE_STAGE (R83). -/
def execImageStage (s : State) : Result := done (mailOp 0x41 anyArgs imageStage s)
/-- IMAGE_ACTIVATE (R83). -/
def execImageActivate (s : State) : Result := done (mailOp 0x42 anyArgs imageActivate s)
/-- PEAT_SWAP (R84). -/
def execPeatSwap (s : State) : Result := done (peatSwap s)
/-- SWAP_TIMEOUT (R84). -/
def execSwapTimeout (s : State) : Result := done (swapTimeout s)
/-- IMAGE_CONFIRM (R82). -/
def execImageConfirm (s : State) : Result := done (mailOp 0x43 anyArgs imageConfirm s)

end Machine
end Sys2Proof
end

