-- ==== Sys2Proof/Machine/LifeCycle.lean ====
section
/-!
DEFINITION. The life cycle (R91 to R94) and debug (R95 to R98): tokens, transitions, what they destroy and generate, and the
password. The layout of the operator key record, which the spec does not give, is log entry 28.
-/
namespace Sys2Proof
namespace Machine

/-! ### Class keys (R287) -/

/-- Derives the class keys of the classes bound to the present state. -/
def State.deriveClasses (s : State) (r : Bytes) : State :=
  let keys := (boundClasses s.envm.lcs).foldl (fun t c => tput t c (classKey r c (s.epochOf c))) ([] : Tab Bytes)
  { s with power := { s.power with classKeys := keys } }

/-- Derives the class keys again in another state: the array is powered and R regenerated from its bits as at the start that
had it, and neither is kept (log entry 85). -/
def State.rederive (s : State) : State :=
  match (if s.power.rootKnown then s.rootArray else none), s.envm.helper with
  | some a, some h => s.deriveClasses (rootOf a h.data)
  | _, _ => s

/-! ### Destruction (R91 steps 3 and 4, R306) -/

/-- A blob of another class, or none. -/
def keepBlob (c : Nat) (b : Option Blob) : Option Blob := b.bind fun x => if x.attrs.cls = c then none else some x

/-- The blob rows without those of a class. -/
def dropBlobs (c : Nat) (t : Tab BlobRows) : Tab BlobRows :=
  (t.map fun e => (e.1, { e.2 with row0 := keepBlob c e.2.row0, row1 := keepBlob c e.2.row1 })).filter fun e =>
    e.2.row0.isSome || e.2.row1.isSome

/-- Erases the eNVM objects of a class beside its keys: 2 IDENTITY, 3 OPERATOR. -/
def State.eraseObjects (s : State) (c : Nat) : State :=
  if c = 2 then { s with envm := { s.envm with xmssKeyed := false, xmssNext := 0, xmssLag := 0, pubSeed := [] } }
  else if c = 3 then
    let s := s.each (s.envm.entries.map (·.1)) fun s n => s.removeEntry n
    { s with mapCache := [], tag := { s.tag with shadows := [] }, envm := { s.envm with
        kis := none, tussock := [], tornRecs := [], islandFails := 0, lockCls := [], lockEnt := [], sectors := [],
        mapInit := false, lastRevoked := [] } }
  else s

/-- Destroys a class: its slots and blobs are erased, and its objects; its epoch has been advanced. -/
def State.destroyClass (s : State) (c : Nat) : State :=
  let s := { s with slots := s.slots.filter (fun e => decide (e.2.cls ≠ c)),
                    envm := { s.envm with blobs := dropBlobs c s.envm.blobs } }
  s.eraseObjects c

/-- Advances the epoch of a class. -/
def State.advanceEpoch (s : State) (c : Nat) : State :=
  { s with envm := { s.envm with epoch := tset s.envm.epoch c (s.epochOf c + 1) 0 } }

/-- The classes that a transition destroys (R93). -/
def destroyed (a b : Nat) : List Nat :=
  match a, b with
  | 0, 1 => [1]
  | 2, 3 => [3]
  | 3, 2 => [4]
  | _, 4 => [2, 3, 4]
  | _, 5 => [1, 2, 3, 4]
  | _, _ => []

/-- Steps 3 to 5 of R91: into SCRAPPED, eNVM is erased but for the state. -/
def State.completeTransition (s : State) (a b : Nat) : State :=
  if b = 5 then
    { s with envm := { Envm.reset with lcs := 5 }, slots := [], rootArray := none, power := { s.power with classKeys := [] } }
  else
    let l := destroyed a b
    let s := (s.each l State.advanceEpoch).each l State.destroyClass
    { s with envm := { s.envm with lcs := b, transition := none } }

/-! ### Generation (R255, R291, R387) -/

/-- Generates the key of a fixed slot from conditioned output. -/
def State.makeFixed (s : State) (n t : Nat) (use : Byte) (b : Bytes) : State :=
  let k := keyOfDraw t b
  (s.putStatic n ⟨s.slotClass n true, 0, false, true, use, t, k, publicPart t k⟩).2

/-- The seeds of KS1: those that were generated in vendor test, or fresh ones. -/
def State.makeSeeds (s : State) (b : Bytes) : State :=
  match s.key 1 with
  | some k => (s.putStatic 1 { k with cls := 2, persist := true }).2
  | none => s.makeFixed 1 8 0x80 b

/-- The identity key's state and anchor, where no KEYGEN has made them. -/
def State.makeIdentity (s : State) (seed : Bytes) : State :=
  if s.envm.xmssKeyed then s
  else
    let k := match s.key 1 with | some k => k.key | none => []
    { s with envm := { s.envm with
        xmssKeyed := true, xmssNext := 0, xmssLag := 0, pubSeed := seed
        anchors := tput s.envm.anchors 4 ⟨0x11, identityRoot (slice k 0 32) seed ++ seed⟩ } }

/-- On leaving BLANK for PERSONALISED: AK, the identity seeds and TK. -/
def State.personalise (s : State) (b : Bytes) : State :=
  (((s.makeFixed 0 4 0x10 (slice b 0 40)).makeSeeds (slice b 40 64)).makeIdentity (slice b 104 32)).makeFixed 2 4 0x10
    (slice b 136 40)

/-- Writes a sector of the status map with every bit 0 at VERSION 1. -/
def State.clearSector (s : State) (sec : Nat) : State :=
  match s.mapKeys with
  | none => s
  | some (kx, km) =>
    let ct := xts false kx (mapTweak 1 sec) (zeros 4096)
    let s := s.flashWrite (s.mapCopy sec false) ct
    { s with envm := { s.envm with sectors := tput s.envm.sectors sec ⟨1, false, mapMac km ct 1 sec⟩ } }

/-- On entry to FIELD: the status-map keys, K_IS, and the 32 sectors. -/
def State.enterField (s : State) (b : Bytes) : State :=
  let s := ((s.makeFixed 9 3 0x03 (slice b 0 64)).makeFixed 10 2 0x04 (slice b 64 32)).makeKis (slice b 96 16)
  let s := s.each (List.range 32) State.clearSector
  { s with envm := { s.envm with mapInit := true } }

/-- How many bytes of conditioned output the generation on entry to a state takes. -/
def entryNeeds (b : Nat) : Nat := if b = 1 then 176 else if b = 2 then 112 else 0

/-- What the state entered needs generated, from conditioned output. -/
def State.onEntry (s : State) (b : Nat) (rnd : Bytes) : State :=
  if b = 1 then s.personalise rnd else if b = 2 then s.enterField rnd else s

/-- Peat's jobs for it: two public keys and the identity key's tree, or the sectors' encryptions and CMACs. -/
def entryJobs (b : Nat) : List PeatJob :=
  if b = 1 then pubJobs 4 ++ pubJobs 4 ++ [hshJob 5 true] else if b = 2 then List.replicate 64 (aesJob 9) else []

/-! ### Transitions (R91) -/

/-- Step 1 of R91: every session closes and every session slot is erased. -/
def State.dropSessions (s : State) : State :=
  let s := s.closeAll
  s.each (s.sess.map (·.1)) fun s n => s.modSes n fun x => { x with slot := zeros 128 }

/-- Whatever runs at a front end stops: in SCRAPPED none runs. -/
def State.frontEndsOff (s : State) : State :=
  let s := (s.lfStop cAborted).nfcStop cAborted
  { ((s.uwbOff).roundsOff) with nfc := { s.nfc with cur := none, card := none, fieldOn := false } }

/-- The open debug level after a transition: level 2 exists only in FIELD_OPEN, level 3 only in BLANK and RETURN. -/
def levelIn (level b : Nat) : Nat :=
  if level = 2 ∧ b ≠ 3 then 0 else if level = 3 ∧ b ≠ 0 ∧ b ≠ 4 then 0 else level

/-- Opens a debug level. -/
def State.openLevel (s : State) (n : Nat) : State := { s with peat := { s.peat with debugLevel := n } }

/-- The steps of a transition, with the conditioned output that the state entered takes, and the operator key record's keys
where it brought one (R93). -/
def State.transition (s : State) (b : Nat) (keys rnd : Bytes) : State :=
  let a := s.envm.lcs
  let s := s.dropSessions.tagCut
  let s := { s with envm := { s.envm with transition := some b } }
  let s := (s.completeTransition a b).rederive
  let s := s.openLevel (levelIn s.peat.debugLevel b)
  let s := ((s.onEntry b rnd).onlyIf (decide (b = 5)) State.frontEndsOff).onlyIf (decide (b = 3)) fun s => s.openLevel 2
  s.onlyIf (decide (keys ≠ [])) fun s =>
    let t := tput (tput s.envm.anchors 2 ⟨3, slice keys 0 64⟩) 3 ⟨0x11, slice keys 64 64⟩
    ({ s with envm := { s.envm with anchors := t } }).tableDrop

/-- What refuses a transition that was authorised, before anything changes. -/
def State.transitionRefusal (s : State) (b : Nat) : Byte :=
  let gen := decide (0 < entryNeeds b)
  firstOf [
    (gen && (s.rngFailed || s.maskStopped 0 || s.maskStopped 1), cRngFail),
    ((destroyed s.envm.lcs b).any fun c => decide (s.epochOf c = 0xFFFFFFFF), cAborted),
    (gen && !s.power.rootKnown, cKeyEmpty)]

/-- A transition that was authorised: refused before anything changes, or run once the conditioned output that it takes is
there; until then it waits, with its target and the record's keys at hand. -/
def State.askTransition (s : State) (b : Nat) (keys : Bytes) (w : Drawer) (wait : Bytes → State → State)
    (fin : Byte → State → State) : State :=
  let c := s.transitionRefusal b
  if c ≠ cOk then fin c s
  else
    let go := fun rnd (s : State) => s.withJobs 127 (entryJobs b) fin fun s => fin cOk (s.transition b keys rnd)
    if entryNeeds b = 0 then go [] s else (s.draw w (entryNeeds b)).next (wait (by8 b :: keys)) fin go

/-! ### Tokens (R96, R97) -/

/-- The fields of a token's message against the unit and the outstanding nonce. -/
def State.tokenFields (s : State) (m : Bytes) : Bool :=
  decide (m.length = 52 ∧ byteAt m 0 = 1 ∧ byteAt m 2 = s.envm.lcs ∧ byteAt m 3 = 0 ∧
    slice m 4 16 = toLE 16 Config.deviceId.toNat) && decide (s.peat.nonce = some (slice m 0x14 32))

/-- A token's signature verifies under the vendor's key, or the operator's. -/
def State.tokenBy (s : State) (anchor : Nat) (t : Bytes) : Bool := s.signed anchor (t.take 2820) (t.drop 2820)

/-- No password failure any more. -/
def State.clearFails (s : State) : State := { s with envm := { s.envm with pwdFails := 0 } }

/-- What a token asks for: nothing, a debug level, with the password failures cleared or not, or a transition. -/
inductive TokenAct where
  | no
  | level (n : Nat) (clears : Bool)
  | enter (b : Nat)
  deriving DecidableEq, Repr

/-- What a token of a level asks for in the present state, once its fields have passed. A vendor token of level 3 opens vendor
test, and while that is open in BLANK it asks for PERSONALISED. -/
def State.tokenActs (s : State) (t : Bytes) : TokenAct :=
  let lcs := s.envm.lcs
  let v := s.tokenBy 1 t
  let o := s.tokenBy 2 t
  match byteAt t 2821 with
  | 0x01 => if o then .level (max 1 s.peat.debugLevel) true else .no
  | 0x02 => if o ∧ lcs = 2 then .enter 3 else .no
  | 0x03 =>
    if v ∧ (lcs = 0 ∨ lcs = 4) ∧ s.power.bootSel = 2 then
      (if lcs = 0 ∧ s.peat.debugLevel = 3 then .enter 1 else .level 3 false)
    else .no
  | 0x10 => if v ∧ 1 ≤ lcs ∧ lcs ≤ 3 then .enter 4 else .no
  | 0x11 => if v ∨ o then .enter 5 else .no
  | 0x12 => if o ∧ lcs = 3 then .enter 2 else .no
  | _ => .no

/-- A token is checked; it consumes the nonce. -/
def State.takeToken (s : State) (t : Bytes) (w : Drawer) (wait : Bytes → State → State) (fin : Byte → State → State) : State :=
  let ok := decide (t.length = 2872) && s.tokenFields (t.drop 2820)
  let act := if ok then s.tokenActs t else .no
  s.withJobs 127 [hshJob 5 false] fin fun s =>
    let s := { s with peat := { s.peat with nonce := none } }
    match act with
    | .no => fin cAuthFail s
    | .level n clears => fin cOk ((s.openLevel n).onlyIf clears State.clearFails)
    | .enter b => s.askTransition b [] w wait fin

/-- The operator key record: the vendor's signature over FORMAT, three zero bytes, the device identifier, and the operator's
configuration and credential keys. It leads from PERSONALISED to FIELD (R93). -/
def State.takeRecord (s : State) (t : Bytes) (w : Drawer) (wait : Bytes → State → State) (fin : Byte → State → State) : State :=
  let m := t.drop 2820
  let ok := decide (s.envm.lcs = 1 ∧ byteAt m 0 = 1 ∧ slice m 4 16 = toLE 16 Config.deviceId.toNat) && zeroAt m 1 3 && s.tokenBy 1 t
  s.withJobs 127 [hshJob 5 false] fin fun s => if ok then s.askTransition 2 (slice m 0x14 128) w wait fin else fin cAuthFail s

/-- LCS_TRANSITION (R91, R95). -/
def lcsTransition (v : Serving) (s : State) : State :=
  let len := wordAt v.args 1
  let wait := fun h (s : State) => s.await (.draw h)
  let fin := fun c (s : State) => s.replyCode c
  if len = 0 then s.replyCode cLenZero
  else match s.buffer (wordAt v.args 0) len with
    | none => s.replyCode cAuthFail
    | some t => if t.length = 2968 then s.takeRecord t .peat wait fin else s.takeToken t .peat wait fin

/-- Peat can act on the JTAG debug mailbox: between requests, and not in SCRAPPED. -/
def State.jtagFree (s : State) : Bool := s.peatFree && s.peat.jtagWait.isNone && decide (s.envm.lcs ≠ 5)

/-- What the JTAG debug mailbox answers. -/
def State.jtagAnswer (s : State) (b : Bytes) : State := { s with peat := { s.peat with jtagOut := b, jtagWait := none } }

/-- An operation of the JTAG debug mailbox waits for conditioned output. -/
def State.jtagWaits (s : State) (h : Bytes) : State := { s with peat := { s.peat with jtagWait := some h } }

/-- DEBUG_TOKEN by the JTAG debug mailbox, which answers its status (R95, R97). -/
def debugToken (t : Bytes) (s : State) : State :=
  if s.jtagFree then s.takeToken t .jtag (fun h s => s.jtagWaits h) fun c s => s.jtagAnswer [c] else s

/-- A fresh nonce (R96). -/
def State.giveNonce (s : State) (b : Bytes) : State := { s with peat := { s.peat with nonce := some b } }

/-- What DEBUG_CHALLENGE answers. -/
def challengeBody (b : Bytes) : Bytes := toLE 16 Config.deviceId.toNat ++ b

/-- DEBUG_CHALLENGE through the mailbox. -/
def debugChallenge (_v : Serving) (s : State) : State :=
  s.peatDraw 32 [] (fun c s => s.replyCode c) fun b s => (s.giveNonce b).reply cOk (challengeBody b)

/-- DEBUG_CHALLENGE by the JTAG debug mailbox, once Peat takes it: it answers the identifier and the nonce (R96). -/
def State.jtagNonce (s : State) : State :=
  (s.draw .jtag 32).next (fun s => s.jtagWaits []) (fun c s => s.jtagAnswer [c]) fun b s =>
    (s.giveNonce b).jtagAnswer (challengeBody b)

/-- DEBUG_CHALLENGE by the JTAG debug mailbox. -/
def jtagChallenge (s : State) : State := if s.jtagFree then s.jtagNonce else s

/-- The nonce's 600 s pass. -/
def nonceExpiry (s : State) : State := { s with peat := { s.peat with nonce := none } }

/-! ### The password (R98) -/

/-- A failed attempt. The third in a row locks for 60 minutes; the count stays at 3 until a success or a token clears it. -/
def State.pwdFailed (s : State) : State :=
  let n := min 3 (s.envm.pwdFails + 1)
  { s with envm := { s.envm with pwdFails := n,
                                 pwdLockedUntil := if n = 3 then some (s.now + secs 3600) else s.envm.pwdLockedUntil } }

/-- The password path is locked. -/
def State.pwdLocked (s : State) : Bool := match s.envm.pwdLockedUntil with | some t => decide (s.now < t) | none => false

/-- DEBUG_PASSWORD (R98). -/
def debugPassword (v : Serving) (s : State) : State :=
  let len := wordAt v.args 1
  if len = 0 then s.replyCode cLenZero
  else match s.policy 5 with
    | none => s.replyCode cAuthFail
    | some p =>
      if s.pwdLocked then s.replyCode cLocked
      else if len.toNat < 8 ∨ 64 < len.toNat then s.pwdFailed.replyCode cAuthFail
      else match s.buffer (wordAt v.args 0) len with
        | none => s.replyCode cAuthFail
        | some b =>
          if shakeH (p.take 16 ++ b) 32 = slice p 16 32 then
            ((s.openLevel (max 1 s.peat.debugLevel)).clearFails).replyCode cOk
          else s.pwdFailed.replyCode cAuthFail

/-- The password lock ends. -/
def pwdLockEnd (s : State) : State := { s with envm := { s.envm with pwdLockedUntil := none } }

/-! ### What has been waiting for conditioned output goes on (R299, R313, R315) -/

/-- The mailbox request that waits goes on, or ends with the code of its draw. -/
def State.requestServed (s : State) : State :=
  match s.peat.serving with
  | none => s.forgetDraw .peat
  | some v =>
    match v.waiting with
    | .draw h =>
      let s := s.await .now
      (match v.op with
       | 0x01 => s.makeOffer (wordAt v.args 0).toNat (byteAt h 0)
       | 0x12 => enrolPhone h v s
       | 0x30 => s.makeKey (wordAt v.args 0).toNat (wordAt v.args 1)
       | 0x32 => s.akAttest h
       | 0x50 => s.askTransition (byteAt h 0) (h.drop 1) .peat (fun h s => s.await (.draw h)) fun c s => s.replyCode c
       | 0x51 => debugChallenge v s
       | _ => s)
    | _ => s

/-- The operation of the JTAG debug mailbox that waits goes on, or answers the code of its draw. -/
def State.jtagServed (s : State) : State :=
  match s.peat.jtagWait with
  | none => s.forgetDraw .jtag
  | some [] => s.jtagNonce
  | some (b :: keys) => s.askTransition b.toNat keys .jtag (fun h s => s.jtagWaits h) fun c s => s.jtagAnswer [c]

/-- What a drawer whose request has ended does: the LF block, the hash engine and the Causeway look for themselves. -/
def State.drawerGoesOn (s : State) (w : Drawer) : State :=
  match w with
  | .keyStore => s.kstGoesOn
  | .peat => s.requestServed
  | .jtag => s.jtagServed
  | .applet => s.appletGoesOn
  | .nonceUp => s.joinGoesOn
  | .nonceDn => s.enumGoesOn
  | _ => s

/-- Every drawer whose request has ended goes on, in the order in which they were served. -/
def State.drawsServed (s : State) : State := s.each (s.trng.served.map (·.1)) State.drawerGoesOn

/-- LCS_TRANSITION (R91). -/
def execLcsTransition (s : State) : Result := done (mailOp 0x50 anyArgs lcsTransition s)
/-- DEBUG_CHALLENGE (R96), by the mailbox or the JTAG debug mailbox. -/
def execDebugChallenge (jtag : Bool) (s : State) : Result :=
  done (if jtag then jtagChallenge s else mailOp 0x51 anyArgs debugChallenge s)
/-- DEBUG_TOKEN (R97). -/
def execDebugToken (token : Bytes) (s : State) : Result := done (debugToken token s)
/-- NONCE_EXPIRY (R96). -/
def execNonceExpiry (s : State) : Result := done (nonceExpiry s)
/-- DEBUG_PASSWORD (R98). -/
def execDebugPassword (s : State) : Result := done (mailOp 0x52 anyArgs debugPassword s)
/-- PWD_LOCK_EXPIRY (R98). -/
def execPwdLockExpiry (s : State) : Result := done (pwdLockEnd s)

end Machine
end Sys2Proof
end

