-- ==== Sys2Proof/Machine/Power.lean ====
section
/-!
DEFINITION. Power states and the start (R37 to R62, R73, R74, R81, R91, R145, R163, R286, R439): supplies and resets, wake
sources, the start, Heron stages and polls, and leaving the resumed state.
-/
namespace Sys2Proof
namespace Machine

/-- Changes the island's state. -/
def State.modPower (s : State) (f : Power → Power) : State := { s with power := f s.power }

/-! ### Deep standby and starts (R38 to R40, R48, R49, R53) -/

/-- The AON mirrors of the PWR_ and FLT_ registers. -/
def aonMirror (a : Nat) : Bool := decide (a / 0x10000 = 0x4002 ∨ a / 0x10000 = 0x4015)

/-- The island without the host command that ran: TAG_HBUF is lost (R49). -/
def Tag.parked (t : Tag) : Tag := { t with hostBusy := none, hostReadWaits := none }

/-- Deep standby: nothing is retained but eNVM, the island and the AON registers; the tag island runs on. -/
def State.enterDeep (s : State) (cause : Word) : State :=
  let t := s.resetAll cause
  let t := { t with regs := s.regs.filter (fun e => aonMirror e.1), tag := s.tag.parked,
                    power := { t.power with mode := .deepStandby, regEn := false } }
  (((t.setReg aPWR_WAKE_SRC cause).srb aPWR_STATUS 3 false).srb aPWR_STATUS 7 false).srf aPWR_STATUS 2 0 4

/-- A wake source in deep standby is latched; with VBAT above its operating limit the unit starts (R38, R51, R53). -/
def State.wakeStart (s : State) (b : Nat) : State :=
  let s := s.srb aPWR_WAKE_SRC b true
  if s.power.vbatArmed then s
  else
    let t := s.resetAll (s.reg aPWR_WAKE_SRC)
    { t with tag := s.tag.parked }

/-- A wake source of R22 that also wakes a unit in deep standby. -/
def State.wake (s : State) (b : Nat) : State :=
  match s.power.mode with
  | .standing => s.resume b
  | .deepStandby => s.wakeStart b
  | _ => s

/-- A VBAT event wakes a unit from deep standby, and is recorded otherwise (R42, R43). -/
def State.vbatEvent (s : State) : State :=
  if s.power.mode = .deepStandby then s.wakeStart 1 else s.srb aPWR_WAKE_SRC 1 true

/-- The time for which the unit had no power does not count for the password lock (R98): from the fall of VBAT below its range
to now, which the spec's words leave to the model (DESIGN CHOICE, log entry 90). -/
def State.pwdHeld (s : State) (e : Envm) : Envm :=
  { e with pwdLockedUntil := e.pwdLockedUntil.map fun t => if s.power.vbatAt < t then t + (s.now - s.power.vbatAt) else t }

/-- VBAT comes back after it was lost: a cold power-up of everything but eNVM, the array, the flash and the tag island. The
elapsed time is lost: T_OP resumes at the stored value (R243). -/
def State.coldPower (s : State) : State :=
  let t := s.resetAll 0x40
  { t with regs := [(aPWR_WAKE_SRC, 0x40)], tag := s.tag.parked,
           power := { Power.reset with timeLost := true, lastActivity := s.now, leftAt := s.now },
           envm := s.pwdHeld { s.tornEnvm with tOpAt := s.now, timeUnc := true } }

/-- The start after VBAT was lost: every lock restarts in full (R268). -/
def State.relock (s : State) : State :=
  let full := fun (e : Nat × Lockout) => (e.1, if e.2.lockedUntil.isSome then { e.2 with lockedUntil := some (s.now + s.lockTime) } else e.2)
  if s.power.timeLost then
    { s with power := { s.power with timeLost := false },
             envm := { s.envm with lockCls := s.envm.lockCls.map full, lockEnt := s.envm.lockEnt.map full } }
  else s

/-- VBAT rises through 4.5 V: REG_EN is high again where the rails have held (R38). `lost`: VBAT was gone meanwhile. -/
def vbatRise (lost : Bool) (s : State) : State :=
  if s.power.vbatArmed ∧ lost then s.coldPower
  else if s.power.vbatArmed then
    ((s.modPower fun p => { p with vbatArmed := false, regEn := p.regEn || s.rails }).srb aPWR_STATUS 5 false).vbatEvent
  else s

/-- VBAT has stayed above the charge threshold for 50 ms. -/
def chargeEvent (s : State) : State := if s.power.chargeOff ∨ s.power.vbatArmed then s else s.vbatEvent

/-- VBAT is below 4.0 V: REG_EN is low while VBAT is below its range (R38); with the rails up, the release outputs are held
idle and work goes on for as long as they hold (R42). -/
def vbatFalls (s : State) : State :=
  let up := s.rails
  let s := s.modPower fun p => { p with vbatArmed := true, vbatAt := s.now, regEn := false }
  s.onlyIf up fun s => relStop (s.srb aPWR_STATUS 5 true)

/-- VDRV is below 5.5 V: an exchange that drives completes with FAULT_ALARM (R41). -/
def vdrvFalls (s : State) : State :=
  let s := s.srb aPWR_STATUS 4 true
  match s.lf.cur with
  | some x => if lfCmd x.cmd = 5 then s else peatGoesOn (s.lfStop cAlarm)
  | none => s

/-- A core rail fails: as after a cold power-up once the supplies are back (R40). -/
def brownOut (s : State) : State :=
  if s.rails = false then s
  else if s.power.vbatArmed then s.enterDeep 0x40
  else s.resetAll 0x40

/-- RESET_N is held low (R44). -/
def resetPin (s : State) : State := if s.rails then s.resetAll 0x80 else s

/-- A failed attempt to bring the supplies or the crystal up: 100 ms of waiting, or after the third one deep standby (R39). -/
def attemptFails (s : State) : State :=
  if s.power.mode = .starting ∧ s.power.regEn ∧ s.power.recovery = false then
    if 2 ≤ s.power.attempts then s.enterDeep (s.reg aPWR_WAKE_SRC)
    else s.modPower fun p => { p with regEn := false, retryWait := true, attempts := p.attempts + 1 }
  else s

/-- REG_EN rises again (R39). -/
def regEnRetry (s : State) : State :=
  if s.power.retryWait ∧ s.power.vbatArmed = false then s.modPower fun p => { p with regEn := true, retryWait := false } else s

/-! ### The root secret (R285 to R290) -/

/-- What is due once Peat runs and R is known: the keys of a state that a torn transition entered, and K_IS (R57, R91, R291).
Each waits for its conditioned output; where the draw fails, the keys of the state stay due. -/
def State.generateDue (s : State) : State :=
  if s.resumed ∧ s.power.safeState = false ∧ s.power.rootKnown then
    (match s.envm.entryDue with
     | some b =>
       (s.draw .entry (entryNeeds b)).next id (fun _ s => s) fun rnd s =>
         ({ s with envm := { s.envm with entryDue := none } }).onEntry b rnd
     | none => s).kisIfDue
  else s

/-- Every operation that waited for conditioned output goes on with what its request has ended with. -/
def State.goesOn (s : State) : State := s.drawsServed.generateDue

/-- R is regenerated: the class keys are derived and the blobs loaded, and R is erased; the array's bits stay what they are
(R287, log entry 85). -/
def State.rootGiven (s : State) (array r : Bytes) : State :=
  let s := { s with rootArray := some array, power := { s.power with rootKnown := true } }
  ((s.deriveClasses r).loadBlobs).generateDue

/-- An attempt to regenerate R from the bits that the array came up with ends (R285, R286). The fourth that fails sets
ROOT_FAIL. -/
def rootAttempt (array : Bytes) (s : State) : State :=
  match s.envm.helper with
  | none => s
  | some h =>
    if s.rails = false ∨ s.power.mode = .standing ∨ s.power.rootKnown ∨
        4 ≤ s.power.rootTries then s
    else
      let s := s.modPower fun p => { p with rootTries := p.rootTries + 1 }
      let s := s.srf aKST_STATUS 6 4 s.power.rootTries
      if rootCheck (rootOf array h.data) = h.check then s.rootGiven array (rootOf array h.data)
      else s.srb aKST_STATUS 1 (decide (s.power.rootTries = 4))

/-! ### The start (R56 to R62, R81, R82) -/

/-- T_OP is stored at a start (R243). -/
def State.storeTime (s : State) : State := { s with envm := { s.envm with tOp := s.opTime, tOpAt := s.now } }

/-- Software runs from now on, at stage 0, with the random source starting and the radio fresh. -/
def State.software (s : State) : State :=
  let s := s.storeTime.relock.modPower fun p => { p with mode := .resumed, lastActivity := s.now, aonCal := true, attempts := 0 }
  ((s.srb aPWR_STATUS 3 true).srf aPWR_STATUS 2 0 0)|>.rngPowerUp false |>.radioFresh

/-- A recovery load begins: the host is asked for the first read of a start (R439). -/
def State.askRecovery (s : State) : State :=
  let s := s.modPower fun p => { p with recovery := true, recMem := [], recGot := [] }
  s.askHost (startReads s s.source)

/-- The safe state (R62): under BOOT_SEL 0b01 a recovery load is accepted. -/
def State.safeStart (s : State) : State :=
  let s := (if s.power.bootSel = 1 then s.askRecovery else (s.setReg aHIF_RECREQ 0).setReg aHIF_RECLEN 0).software
  (s.modPower fun p => { p with safeState := true, sedgeRuns := false, reloading := false }).readyEvent (some cAuthFail)

/-- An image that a start takes is loaded at the base of its core's SRAM and counted where it is on trial. -/
def State.loadImage (s : State) (typ : Nat) (x : Nat × Bytes) : State :=
  let s := s.memWrite (if typ = 1 then 0x10000000 else 0x20000000) (slice x.2 0x40 (le32 x.2 0xC))
  ((s.advanceNow typ x.2).countStart typ x.2).setRunning typ x.1 (le32 x.2 8)

/-- The directory found is committed and its sections are in use (R61). -/
def State.useConfig (s : State) (f : Found) : State :=
  let s := s.onlyIf (s.envm.commitRec.isNone || decide (s.arb 0 < f.version)) fun s => s.commitDir f.slot (w32 f.version)
  { s with cfg := { active := true, slot := f.slot, version := w32 f.version, sections := f.sections, held := [], hold := [], windows := [] } }

/-- XO cycles from the moment Sedge runs to the start-complete event: 16.0 ms to 20.5 ms in the time line of R57, by which the
chain has been enumerated (DESIGN CHOICE, log entry 89). -/
def startEventDelay : Nat := 122040

/-- The start-complete event that is still to come is committed. -/
def State.startComplete (s : State) : State :=
  match s.power.startDue with
  | some d => (s.modPower fun p => { p with startDue := none }).readyEvent (some d.1)
  | none => s

/-- Peat, and Sedge where it has an image, run with the sections in use; the start-complete event follows. -/
def State.runFound (s : State) (p : Nat × Bytes) (sedge : Option (Nat × Bytes)) : State :=
  let s := s.loadImage 1 p
  let s := { s with peat := { s.peat with peatFoot := le32 p.2 0x10, kisDue := decide (s.envm.lcs = 2) },
                        power := { s.power with safeState := false } }
  let s := match sedge with
    | some x =>
      let s := s.loadImage 2 x
      ({ s with peat := { s.peat with sedgeDigest := slice x.2 0x20 32 },
                power := { s.power with sedgeRuns := true, wdtAt := s.now } }).showTrial
    | none => s
  let s := s.applyAll.onlyIf (s.sect 4 0).isNone fun s => s.removeSection 0x400
  let s := (s.revokeAll s.envm.lastRevoked).software
  let s := s.guardFlash.runPeat.trainPorts.takeOffline.commitLog 17
  let due := (if sedge.isSome then cOk else cAuthFail, s.now + startEventDelay)
  (s.modPower fun p => { p with startDue := some due }).generateDue

/-- The start once everything it reads is there. -/
def State.finishStart (s : State) : State :=
  let found := findConfig s s.source
  let s := s.hashJobs (startJobs s s.source)
  match found with
  | none => s.safeStart
  | some f =>
    let s := s.useConfig f
    match f.peat with
    | none => s.safeStart
    | some p => s.runFound p f.sedge

/-- A vendor test start: Peat runs without a configuration, and no Sedge. -/
def State.vendorTest (s : State) : State :=
  let s := s.software.runPeat.generateDue
  s.readyEvent (some cOk)

/-- A torn transition is completed before Peat runs anything else (R91); where R has been had already, the class keys are those
of the state entered. What that state needs generated follows once R is known. -/
def State.finishTorn (s : State) : State :=
  match s.envm.transition with
  | none => s
  | some b =>
    let s := (s.completeTransition s.envm.lcs b).srb aLCS_STATE 3 true
    ({ s with envm := { s.envm with entryDue := some b } }).rederive

/-- The start number of the chain's frames advances (R450). -/
def State.nextStart (s : State) : State :=
  match s.incCounter 42 with
  | some u => { u with cwy := { u.cwy with startNo := (u.counter 42).toNat, count := 0 } }
  | none => { s with cwy := { s.cwy with startNo := 0xFFFFFFFF, count := 0 } }

/-- The straps are sampled (R56). Where a strap error is logged the spec does not say: it sets a flag of the state, and no log
record is written (DESIGN CHOICE, log entry 57). -/
def State.straps (s : State) (bootSel : BitVec 2) (head : Bool) : State :=
  s.modPower fun p => { p with bootSel := bootSel, strapError := decide (bootSel = 3), cwyHead := head }

/-- START. -/
def start (bootSel : BitVec 2) (head : Bool) (s : State) : State :=
  if s.power.mode = .starting ∧ s.power.regEn ∧ s.power.recovery = false then
    let s := ((s.straps bootSel head).nextStart).finishTorn
    if 4 ≤ s.rf aFLT_AON 23 16 then s.safeStart
    else if bootSel = 2 ∧ (s.envm.lcs = 0 ∨ s.envm.lcs = 4) then s.vendorTest
    else if bootSel = 1 then s.askRecovery
    else s.finishStart
  else s

/-- A write of HIF_RECDATA supplies the next bytes of the request (R439). -/
def recData (v : Word) (s : State) : State :=
  let reads := if s.power.reloading then s.reloadReads else startReads s s.source
  let rest := s.rf aHIF_RECLEN 12 0
  let c := (reads.flatMap recChunks).find? fun c => decide (c ∉ s.power.recGot)
  match c with
  | none => s.refuse .host true aHIF_RECDATA
  | some c =>
    if s.rb aHIF_RECREQ 31 = false ∨ rest = 0 then s.refuse .host true aHIF_RECDATA
    else
      let s := s.modPower fun p => { p with recMem := cellWrite flashDefault p.recMem (c.1 + (c.2 - rest)) (toLE 4 v.toNat) }
      let s := s.srf aHIF_RECLEN 12 0 (rest - 4)
      if 4 < rest then s
      else
        let s := s.modPower fun p => { p with recGot := c :: p.recGot }
        if s.power.reloading then s.askHost s.reloadReads
        else
          let s := s.askHost (startReads s s.source)
          if s.rb aHIF_RECREQ 31 then s else s.finishStart

/-- A recovery request is unanswered for 10 s (R439); in the safe state it goes on waiting. -/
def recTimeout (s : State) : State :=
  if s.power.recovery ∧ s.rb aHIF_RECREQ 31 ∧ s.power.safeState = false then s.safeStart else s

/-! ### Sedge reloads and Peat's faults (R58, R73, R74) -/

/-- The image of a Sedge reload has been read: Sedge runs, or a full start follows where the digest differs. -/
def sedgeReloadDone (s : State) : State :=
  if s.power.reloading = false ∨ s.resumed = false ∨ s.rb aHIF_RECREQ 31 then s
  else
    let o := s.imageAt 2 (tget s.peat.runSlot 2 0)
    let body := s.source (o + 64) (min 524288 (le32 (s.source o 64) 0xC))
    let s := s.hashJobs (digestJobs body.length)
    if shakeH body 32 = s.peat.sedgeDigest then
      (s.memWrite 0x20000000 body).modPower fun p =>
        { p with sedgeRuns := true, wdtAt := s.now, reloading := false, recMem := [], recGot := [] }
    else s.resetAll (s.reg aPWR_WAKE_SRC)

/-- The Sedge watchdog expires (R73): the request being served completes first, its reply discarded. -/
def sedgeWatchdog (s : State) : State :=
  if s.resumed = false ∨ s.power.sedgeRuns = false ∨ s.rf aSYS_WDT_CFG 15 0 = 0 then s
  else
    let s := s.srb aSYS_CORE_STATUS 1 true
    match s.peat.serving with
    | some v => { s with peat := { s.peat with serving := some { v with discard := true } } }
    | none => s.restartSedge

/-- A write of SYS_WDT_KICK: the watchdog period begins again. An expiry is judged by its sender (log entry 2). -/
def kickWdt (v : Word) (s : State) : State := if bit v 0 then s.modPower fun p => { p with wdtAt := s.now } else s

/-- Peat fails: the reset of R44. -/
def peatFails (s : State) : State := if s.up .peat then s.resetAll 0 else s

/-! ### Stages and leaving the resumed state (R48, R49, R51, R54) -/

/-- A register that keeps its value in stage 3: the AON mirrors, and the Peat-owned registers of KST_, LCS_ and REL_. -/
def stage3Keeps (a : Nat) : Bool :=
  aonMirror a || match regRow a with
    | some (r, _) => decide (r.own = .peat ∧ (a / 0x10000 = 0x400A ∨ a / 0x10000 = 0x400B ∨ a / 0x10000 = 0x4017))
    | none => false

/-- The registers that stage 3 keeps; ROOT_FAIL stands until the next start tries again (R286), and a random source declared
failed stays so until RESTART or the next start (R313). -/
def State.stage3Regs (s : State) : Tab Word :=
  let t := s.regs.filter fun e => stage3Keeps e.1
  let t := if s.rb aKST_STATUS 1 then tput t aKST_STATUS 2 else t
  if s.rngFailed then tput t aTRNG_STATUS (s.reg aTRNG_STATUS) else t

/-- What an entry to stage 3 loses (R49). -/
def State.loseStage3 (s : State) : State :=
  { State.reset with
    pending := s.pending, now := s.now, freeCtr := s.freeCtr, sysTime := s.sysTime, tsOrigin := s.tsOrigin,
    readOut := s.readOut, regs := s.stage3Regs,
    mem := s.mem.filter (fun c => decide (c.1 < 0x20000000)), flash := s.flash, envm := s.envm, rootArray := s.rootArray,
    power := { s.power with lost := true, sedgeRuns := false }, cfg := { s.cfg with held := [], hold := [] },
    peat := { s.peat with serving := none, applet := none, reqGens := [], verdicts := [], authOk := [], lastAuth := none, authSeen := false,
                          fences := 0, kst := none },
    slots := s.slots, lf := { State.reset.lf with held := s.lf.held }, tag := s.tag.parked,
    uwb := { Uwb.reset with nextId := s.uwb.nextId }, cwy := { Cwy.reset with startNo := s.cwy.startNo, count := s.cwy.count },
    flt := s.flt, gov := s.gov }.showTrial

/-- The stage that the standing time gives under PWR_ENTRYn. -/
def State.stageFor (s : State) : Nat :=
  let t := (s.now - s.power.lastActivity) / 27120000
  ([1, 2, 3, 4].filter fun n => decide ((s.reg (aPWR_ENTRY n)).toNat ≠ 0 ∧ (s.reg (aPWR_ENTRY n)).toNat ≤ t)).foldl max 0

/-- An activity notice has arrived and has not been applied. -/
def State.noticeWaits (s : State) : Bool := s.cwy.taken.any fun x => decide (x.2.cls = 5 ∧ x.2.sub = 2)

/-- A unit that is not resumed enters a stage. An activity notice that waits is applied after the change, so the unit ends in
stage 0 (R51); it then does not go into deep standby, which only a start ends (log entry 58). -/
def State.enterStage (s : State) (n : Nat) : State :=
  if s.noticeWaits then
    let t := if n = 3 then s.loseStage3
      else { s with cwy := { s.cwy with taken := s.cwy.taken.filter fun x => !decide (x.2.cls = 5 ∧ x.2.sub = 2) } }
    t.restand
  else if n = 4 then s.enterDeep 0
  else
    let s := s.srf aPWR_STATUS 2 0 n
    if n = 3 then s.loseStage3 else s

/-- The standing time reaches a boundary: a resumed unit enters the stage when it next leaves the resumed state, and a
replacement of a section holds deeper stages off (R51, R64). -/
def stageEntry (n : Nat) (s : State) : State :=
  if n < 1 ∨ 4 < n ∨ s.reg (aPWR_ENTRY n) = 0 ∨ s.rf aPWR_STATUS 2 0 ≥ n then s
  else
    match s.power.mode with
    | .standing => if s.rb aPWR_STATUS 7 then s else s.enterStage n
    | .resumed => s.modPower fun p => { p with stageDue := max p.stageDue n }
    | _ => s

/-- Every engine job, waiting, running or suspended, completes with ABORTED, and every context is freed (R368, R383, R390). -/
def State.abortJobs (s : State) : State :=
  let l := (s.lane 10).committed
  let s := s.setLane 10 { s.lane 10 with committed := [] }
  let s := (((s.endAes cAborted).endBnSusp cAborted).endBn cAborted).endHsh cAborted
  let s := s.each l fun s p =>
    (s.completeOne p.src (s.effPrio p) (jobEngine p) cAborted (s.plainCompletion p cAborted)).spongeFail (jobWord p 0) cAborted
  { s with eng := { s.eng with ctx := [], bnMixed := [] } }

/-- The running and the pending converter sequences end with ABORTED (R426). -/
def State.monOff (s : State) : State :=
  let l := (List.range 4).filter fun q => s.rb aMON_STATUS (4 + q) || (match s.mon.run with
    | some r => decide (r.seq = q)
    | none => false)
  let s := s.each l fun s q => s.srf (aMON_SEQSTAT q) 31 24 cAborted.toNat
  ({ s with mon := { run := none, spoiled := 0 } }).setReg aMON_STATUS 0

/-- The links stop with their clock (R24). -/
def State.linksOff (s : State) : State :=
  s.each [0, 1] fun s p =>
    (s.setPort p portNil).onlyIf (decide (s.rf (aCWY_PORT p) 25 24 ≠ 3)) fun s => s.srf (aCWY_PORT p) 25 24 0

/-- Peat completes a host record write that is pending, and a host read of the island ends with it (R52, R54). -/
def State.finishHost (s : State) : State :=
  match s.tag.hostBusy with
  | some (true, _) => hcmdDone s
  | _ => s

/-- The unit leaves the resumed state for the stage that its standing time gives. -/
def State.leaveResumed (s : State) : State :=
  let n := if s.rb aPWR_STATUS 7 then s.rf aPWR_STATUS 2 0 else max s.stageFor s.power.stageDue
  let s := ((s.finishHost.abortJobs).lfStop cAborted).nfcStop cAborted
  let s := (s.uwbOff.roundsOff.moverOff.monOff.rngPowerDown.goesOn.startComplete.linksOff).nfcOff false
  let s := s.modPower fun p =>
    { p with mode := .standing, leftAt := s.now, sleepAsked := false, idleSent := false, idleUnits := 0, stageDue := 0 }
  (s.srb aPWR_STATUS 3 false).enterStage n

/-! ### Idle units (R54) -/

/-- A plan naming this unit has come within the last 2 x ROUND_MS, or on the head a round is planned. -/
def State.roundPlanned (s : State) : Bool :=
  !s.dist.plan.isEmpty || !s.dist.cur.isEmpty || !s.dist.fuseReqs.isEmpty || !s.dist.fused.isEmpty ||
    (if s.isHead then s.rb aDIST_CTL 0 && (List.range 32).any fun n => s.rb (aDIST_SLOT n) 31
     else match s.dist.planAt with
       | some t => decide (s.now ≤ t + ms (2 * le16 s.rng 0x14))
       | none => false)

/-- A release waveform runs, or a release decision is pending. -/
def State.deciding (s : State) : Bool :=
  s.rel.wave || s.rel.pending || s.tag.isackWait || (s.mailbox 15 && s.releaseWaits)

/-- The unit is idle. -/
def State.idle (s : State) : Bool :=
  s.peat.serving.isNone && s.peat.applet.isNone &&
  [14, 15].all (fun q => !s.mailbox q || (lanePackets (s.lane q) == 0)) &&
  s.runs.isEmpty && (s.lane 10).committed.isEmpty &&
  s.lf.cur.isNone && s.lf.waiting.isEmpty && s.nfc.cur.isNone && s.uwbLive.isEmpty && s.uwb.walk.isNone &&
  s.mon.run.isNone && decide (s.rf aMON_STATUS 7 4 = 0) && !s.roundPlanned && !s.deciding &&
  (lanePackets (s.lane 0) == 0) && s.mover.all (fun x => x.2.armed) &&
  [0, 1].all fun p => (s.port p).waiting.isEmpty && (s.port p).unacked.isEmpty

/-- The unit is alone in its chain. -/
def State.alone (s : State) : Bool :=
  if s.isHead then decide (s.memberMask (fun m => m.present) &&& 0xFFFE = 0) else decide (s.unit = 0) || !s.portUp 0

/-- The head, idle itself or asked to SLEEP, broadcasts SLEEP once every present unit has reported IDLE, and leaves. -/
def State.headLeaves (s : State) : State :=
  let out := (List.range 17).filter fun u => decide (2 ≤ u) && (s.member u).present && !testBit s.power.idleUnits u
  if s.power.idleSent ∧ out = [] ∧ (s.idle ∨ s.power.sleepAsked) ∧ s.deciding = false then (s.notice 31 5).leaveResumed
  else s

/-- The unit is idle, or its Sedge has written SLEEP. -/
def State.wantsLeave (s : State) : State :=
  if s.alone then s.leaveResumed
  else
    let s := s.modPower fun p => { p with idleSent := true }
    if s.isHead then s.headLeaves else s.notice 1 3

/-- The unit has been idle for IDLE_MS. -/
def idleExpiry (s : State) : State :=
  if s.resumed ∧ s.power.safeState = false ∧ s.idle ∧ s.rf aPWR_IDLE 15 0 ≠ 0 then s.wantsLeave else s

/-- A write of SLEEP; Peat refuses it while a waveform runs or a decision is pending. -/
def sleepAsk (s : State) : State :=
  if s.deciding then s.srb aPWR_STATUS 6 true
  else ((s.srb aPWR_STATUS 6 false).modPower fun p => { p with sleepAsked := true }).wantsLeave

/-- Peat refuses ENTER_DS while a decision is pending or a section is replaced; a waveform stops with the entry (R52, R280). -/
def State.keepsAwake (s : State) : Bool := ({ s with rel := { s.rel with wave := false } }).deciding || s.rb aPWR_STATUS 7

/-- A write of ENTER_DS (R52). -/
def enterDsAsk (s : State) : State :=
  if s.keepsAwake then s.srb aPWR_STATUS 6 true else ((s.finishHost).srb aPWR_STATUS 6 false).enterDeep 0

/-- A write of PWR_CMD: ACTIVITY first, then ENTER_DS, then SLEEP where the unit is still resumed. The spec gives several bits
written at once no order (DESIGN CHOICE, log entry 91). -/
def pwrCmd (v : Word) (s : State) : State :=
  let s := s.onlyIf (bit v 0) State.active
  if bit v 1 ∧ s.keepsAwake = false then enterDsAsk s
  else (s.onlyIf (bit v 1) enterDsAsk).onlyIf (bit v 2) sleepAsk

/-- A unit that reported IDLE is no longer idle: it sends BUSY (R54). -/
def State.noLongerIdle (s : State) : State :=
  if s.power.idleSent ∧ s.power.sleepAsked = false ∧ s.resumed ∧ s.idle = false then
    (s.modPower fun p => { p with idleSent := false }).onlyIf (!s.isHead) fun s => s.notice 1 4
  else s

/-- An activity notice arrives. It is activity, and it is not sent on: the notice was sent to every unit of the chain (DESIGN
CHOICE, log entry 92). -/
def activityNotice (s : State) : State :=
  match s.takeFrame 5 2 with
  | some (_, _, u) => u.restand
  | none => s

/-- A wake notice arrives: the unit is resumed already. -/
def wakeNotice (s : State) : State :=
  match s.takeFrame 5 1 with
  | some (_, _, u) => u
  | none => s

/-- An IDLE notice arrives. -/
def idleNotice (s : State) : State :=
  match s.takeFrame 5 3 with
  | some (_, f, u) =>
    if u.isHead then (u.modPower fun p => { p with idleUnits := putBit p.idleUnits f.src true }).headLeaves else u
  | none => s

/-- A BUSY notice arrives. -/
def busyNotice (s : State) : State :=
  match s.takeFrame 5 4 with
  | some (_, f, u) => u.modPower fun p => { p with idleUnits := putBit p.idleUnits f.src false }
  | none => s

/-- A SLEEP notice arrives. -/
def sleepNotice (s : State) : State :=
  match s.takeFrame 5 5 with
  | some (_, _, u) =>
    if (u.idle ∨ u.power.sleepAsked) ∧ u.deciding = false then u.leaveResumed
    else (u.modPower fun p => { p with idleSent := false, sleepAsked := false }).notice 1 4
  | none => s

/-! ### Heron polls (R50, R144, R145, R163) -/

/-- The command of a poll's wake pattern. -/
def State.pollCmd (s : State) : LfCmd :=
  let w := s.reg aLF_POLLCFG
  ⟨0xFF, w32 (2 ^ 28 + maskOf ((bitsOf 12 (fld w 11 0)).take 4) * 2 ^ 16 + 0xFFFF), w32 (fld w 31 16 * 2 ^ 16 + 8 * 2 ^ 8), 0, cOk⟩

/-- The LF part of a poll: whether it detects. A poll that finds VDRV low, or a driver faulty, reports FAULT_ALARM in its
result and detects nothing (R41, R120; log entry 33). -/
def State.pollLf (s : State) (reply : Option LfReply) (opens shorts : Nat) : Bool × State :=
  let c := s.pollCmd
  let s := s.refill
  let l := s.lfDriven c
  let alarm := fun (s : State) => (false, { s with lf := { s.lf with held := some (lfHead s c cAlarm false false false 0) } })
  if lfAerials c = 0 ∨ s.lfPoor c then (false, s)
  else if s.rb aPWR_STATUS 4 then alarm s
  else if l.any fun i => testBit opens i || testBit shorts i then alarm ((s.spendLf (lfCost s c)).lfFaults l opens shorts)
  else
    let s := s.spendLf (lfCost s c)
    let s := { s with lf := { s.lf with sent := lfFrame c [] } }
    let found := fun coll answer tid =>
      (true, { s with lf := { s.lf with held := some (lfHead s c cOk coll answer false tid) } })
    match reply with
    | some .collision => found true false 0
    | some (.frame b) => if b.length = 5 ∧ lfCrcOk b then found false true (w32 (ofBE (b.take 4))) else (false, s)
    | _ => (false, s)

/-- The NFC part of a poll: whether it detects. -/
def State.pollNfc (s : State) (ping : Ping) (ext : Bool) : Bool × State :=
  if ext ∨ s.tag.field then (true, s.srb aNFC_FLAGS 2 true)
  else if s.rf aNFC_LPCD 7 0 = 0 then (false, s)
  else
    let r := s.ping ping
    (r.1, r.2.onlyIf r.1 fun s => s.srb aNFC_FLAGS 2 true)

/-- A poll interval ends. A front end that is off, as each is in SCRAPPED, takes no part (R60, R94). -/
def heronPoll (lf : Option LfReply) (opens shorts : Nat) (ping : Ping) (ext : Bool) (s : State) : State :=
  let n := s.rf aPWR_STATUS 2 0
  let w := s.reg (aPWR_POLL n)
  if s.power.mode ≠ .standing ∨ 3 < n ∨ fld w 15 0 = 0 then s
  else
    let s := s.modPower fun p => { p with aonCal := true }
    let a := if bit w 16 ∧ n ≠ 3 ∧ s.feOn 1 then s.pollLf lf opens shorts else (false, s)
    let b := if bit w 17 ∧ s.feOn 3 then a.2.pollNfc ping ext else (false, a.2)
    b.2.onlyIf (a.1 || b.1) fun s => s.resume 3

/-- Line activity at a port wakes the unit, which drives line activity on its other port (R443). -/
def lineWake (p : Nat) (s : State) : State :=
  if s.power.mode = .standing then
    let t := s.resume 4
    { t with cwy := { t.cwy with wakeOut := some (1 - p) } }
  else s

/-- POOL_COMPLETE (R309): what waited for the conditioned block goes on. -/
def execPoolComplete (raw : Bytes) (s : State) : Result := done (poolComplete raw s).goesOn
/-- HEALTH_FAILURE (R312): what waited for a source that is declared failed ends. -/
def execHealthFailure (sources : Nat) (rct apt : Bool) (s : State) : Result := done (healthFailure sources rct apt s).goesOn
/-- VBAT_RISE (R43). -/
def execVbatRise (s : State) (lost : Bool := false) : Result := done (vbatRise lost s)
/-- CHARGE_EVENT (R43). -/
def execChargeEvent (s : State) : Result := done (chargeEvent s)
/-- VBAT_LOW (R42). -/
def execVbatLow (s : State) : Result := done (vbatFalls s)
/-- VDRV_LOW (R41). -/
def execVdrvLow (s : State) : Result := done (vdrvFalls s)
/-- VDRV_RISE (R41). -/
def execVdrvRise (s : State) : Result := done (s.srb aPWR_STATUS 4 false)
/-- BROWN_OUT (R40). -/
def execBrownOut (s : State) : Result := done (brownOut s)
/-- RESET_N (R44). -/
def execResetN (s : State) : Result := done (resetPin s)
/-- SUPPLY_TIMEOUT (R39). -/
def execSupplyTimeout (s : State) : Result := done (attemptFails s)
/-- REG_EN_RETRY (R39). -/
def execRegEnRetry (s : State) : Result := done (regEnRetry s)
/-- XO_TIMEOUT (R67). -/
def execXoTimeout (s : State) : Result := done (attemptFails s)
/-- START (R57). -/
def execStart (bootSel : BitVec 2) (cwyHead : Bool) (s : State) : Result := done (start bootSel cwyHead s)
/-- ROOT_ATTEMPT (R286). -/
def execRootAttempt (array : Bytes) (s : State) : Result := done (rootAttempt array s)
/-- RECDATA_WRITE (R439). -/
def execRecdataWrite (v : Word) (s : State) : Result := done (recData v s)
/-- RECOVERY_TIMEOUT (R439). -/
def execRecoveryTimeout (s : State) : Result := done (recTimeout s)
/-- WAKE_IN (R22). -/
def execWakeIn (s : State) : Result := done (s.wake 0)
/-- HOST_CS_WAKE (R34). -/
def execHostCsWake (s : State) : Result := done (s.resume 5)
/-- LINE_ACTIVITY_WAKE (R443). -/
def execLineActivityWake (p : Port) (s : State) : Result := done (lineWake (portIx p) s)
/-- RC_TIMER_WAKE (R53). -/
def execRcTimerWake (s : State) : Result :=
  done (if s.power.mode = .deepStandby ∧ s.rf aPWR_DSWAKE 15 0 ≠ 0 then s.wakeStart 2 else s)
/-- STAGE_ENTRY (R48). -/
def execStageEntry (n : Nat) (s : State) : Result := done (stageEntry n s)
/-- HERON_POLL (R50). -/
def execHeronPoll (lf : Option LfReply) (ping : Ping) (ext : Bool) (s : State) (opens shorts : Nat := 0) : Result :=
  done (heronPoll lf opens shorts ping ext s)
/-- ACTIVITY (R47). -/
def execActivity (m : Master) (s : State) : Result := done (s.owned m aPWR_CMD (pwrCmd 1))
/-- ENTER_DS (R52). -/
def execEnterDs (m : Master) (s : State) : Result := done (s.owned m aPWR_CMD (pwrCmd 2))
/-- SLEEP (R54). -/
def execSleep (m : Master) (s : State) : Result := done (s.owned m aPWR_CMD (pwrCmd 4))
/-- IDLE_MS_EXPIRY (R54). -/
def execIdleMsExpiry (s : State) : Result := done (idleExpiry s)
/-- SEDGE_RELOAD_DONE (R58). -/
def execSedgeReloadDone (s : State) : Result := done (sedgeReloadDone s)
/-- KICK (R73). -/
def execKick (m : Master) (s : State) : Result := done (s.owned m aSYS_WDT_KICK (kickWdt 1))
/-- SEDGE_WATCHDOG_EXPIRY (R73). -/
def execSedgeWatchdogExpiry (s : State) : Result := done (sedgeWatchdog s)
/-- PEAT_WATCHDOG_EXPIRY (R74). -/
def execPeatWatchdogExpiry (s : State) : Result := done (peatFails s)
/-- PEAT_EXCEPTION (R74). -/
def execPeatException (s : State) : Result := done (peatFails s)
/-- ACTIVITY_NOTICE (R47). -/
def execActivityNotice (s : State) : Result := done (activityNotice s)
/-- CHAIN_WAKE_NOTICE (R22). -/
def execChainWakeNotice (s : State) : Result := done (wakeNotice s)
/-- IDLE_NOTICE (R54). -/
def execIdleNotice (s : State) : Result := done (idleNotice s)
/-- BUSY_NOTICE (R54). -/
def execBusyNotice (s : State) : Result := done (busyNotice s)
/-- SLEEP_NOTICE (R54). -/
def execSleepNotice (s : State) : Result := done (sleepNotice s)

end Machine
end Sys2Proof
end

