-- ==== Sys2Proof/Machine/Timers.lean ====
section
/-!
DEFINITION. Timers, event routes and captures (R414 to R422, R428), and the converter's sequences (R423 to R427).
-/
namespace Sys2Proof
namespace Machine

/-! ### The converter (R424 to R427) -/

/-- Entries of a sequence. -/
def State.seqLen (s : State) (q : Nat) : Nat := min 8 (s.rf (aMON_SEQCFG q) 3 0)

/-- The input that entry k of a sequence names. -/
def State.seqIn (s : State) (q k : Nat) : Nat :=
  let w := s.reg (aMON_SEQIN q (k / 4))
  fld w (8 * (k % 4) + 5) (8 * (k % 4))

/-- A sequence ends, or is not run, with a code. -/
def State.seqStatus (s : State) (q : Nat) (c : Byte) : State := s.srf (aMON_SEQSTAT q) 31 24 c.toNat

/-- A sequence waits. -/
def State.seqPending (s : State) (q : Nat) : Bool := s.rb aMON_STATUS (4 + q)

/-- An idle converter begins the lowest sequence that waits. -/
def State.monStart (s : State) : State :=
  if s.mon.run.isSome then s
  else
    match [0, 1, 2, 3].find? s.seqPending with
    | none => s.setReg aMON_STATUS 0
    | some q =>
      let s := ((s.srb aMON_STATUS (4 + q) false).srb aMON_STATUS 3 true).srf aMON_STATUS 1 0 q
      ({ s with mon := { s.mon with run := some ⟨q, 0, 0, 0, s.sysLo, [], false⟩ } }).seqStatus q cPending

/-- A trigger of a sequence. -/
def State.seqTrigger (s : State) (q : Nat) : State :=
  if s.resumed = false ∨ 3 < q then s
  else
    let running : Bool := match s.mon.run with | some r => decide (r.seq = q ∧ r.abort = false) | none => false
    if s.seqPending q ∨ running then s.srb (aMON_SEQSTAT q) 8 true
    else if s.seqLen q = 0 then (s.seqStatus q cLenZero).ended 0x12 cLenZero
    else if (List.range (s.seqLen q)).any fun k => decide (23 < s.seqIn q k) then (s.seqStatus q cAuthFail).ended 0x12 cAuthFail
    else
      let s := s.srb aMON_STATUS (4 + q) true
      ((if (s.mon.run.map (·.seq)) = some q then s else s.seqStatus q cPending)).monStart

/-- The packet of a sequence with QEN, and the code that the sequence ends with: AUTH_FAIL where a check at commit rewinds the
packet (R397). -/
def State.seqPacket (s : State) (r : MonRun) : Byte × State :=
  if s.rb (aMON_SEQCFG r.seq) 12 then
    let n := s.dstLane (s.rf (aMON_SEQCFG r.seq) 11 8)
    let p := wordsPacket 0 0xFF (r.time :: r.words)
    if s.hwOk n p then
      match s.hwCommit n p with
      | some t => (cOk, t)
      | none => (cOk, (s.drop n).srb (aMON_SEQSTAT r.seq) 9 true)
    else (cAuthFail, s.drop n)
  else (cOk, s)

/-- The running sequence ends with a code; one triggered again while it was aborted waits. -/
def State.seqEnd (s : State) (q : Nat) (c : Byte) : State :=
  let s := (({ s with mon := { run := none, spoiled := putBit s.mon.spoiled q false } }).srb aMON_STATUS 3 false).seqStatus q c
  ((s.ended 0x12 c).onlyIf (s.seqPending q) fun s => s.seqStatus q cPending).monStart

/-- A conversion slot of the running sequence ends. -/
def conversionEnd (code : Nat) (s : State) : State :=
  match s.mon.run with
  | none => s
  | some r =>
    let f := s.freeW
    let w := if testBit s.mon.spoiled r.seq then f.1
      else w32 (s.seqIn r.seq r.entry % 32 * 2 ^ 24 + r.slotNo % 256 * 2 ^ 16 + code % 4096)
    let s := ((if testBit s.mon.spoiled r.seq then f.2 else s).setReg (aMON_RES r.seq r.entry) w).onlyIf (decide (r.entry = 0))
      fun s => s.setReg (aMON_TIME r.seq) r.time
    let r := { r with words := r.words ++ [w], entry := r.entry + 1, slotNo := r.slotNo + 1 + r.moved, moved := 0 }
    if r.abort then s.seqEnd r.seq cAborted
    else if r.entry < s.seqLen r.seq then { s with mon := { s.mon with run := some r } }
    else
      let x := (s.bump (aMON_SEQSTAT r.seq) 7 0 1).seqPacket r
      x.2.seqEnd r.seq x.1

/-- ABORT. -/
def monAbort (s : State) : State :=
  { s with mon := { s.mon with run := s.mon.run.map fun (r : MonRun) => { r with abort := true } } }

/-- A write of MON_CTL. -/
def monCtl (v : Word) (s : State) : State :=
  (s.onlyIf (bit v 4) monAbort).each ((List.range 4).filter (bit v)) State.seqTrigger

/-! ### Timers (R414 to R419) -/

/-- Re-arms compare channels. -/
def State.arm (s : State) (n mask : Nat) : State := s.srf (aTMR_STAT n) 10 7 (s.rf (aTMR_STAT n) 10 7 ||| mask)

/-- A capture of SYSTIME. -/
def State.capture (s : State) (n : Nat) : State :=
  let s := s.onlyIf (testBit s.capUnread n) fun s => s.srb (aTMR_STAT n) 6 true
  let s := (s.setReg (aTMR_CAPLO n) s.sysLo).setReg (aTMR_CAPHI n) (w32 (s.sys / 2 ^ 32))
  { s with capUnread := putBit s.capUnread n true }

/-- A timer belongs to Peat. -/
def State.tmrPeat (s : State) (n : Nat) : Bool := s.rb aTMR_PEATMASK n

/-- A route of Sedge's names something of Peat's (R422). -/
def State.routeRefused (s : State) (r : Nat) : Bool :=
  let w := s.reg (aTMR_ROUTE r)
  let t := fld w 3 0
  decide (r < 12) && (s.tmrPeat (fld w 27 24) || (decide (fld w 17 16 = 3) && s.tmrPeat t) ||
    (decide (fld w 17 16 = 2) && s.rb aQUE_MVOWN t))

/-- The action of a route on its target (R420). -/
def State.routeActs (s : State) (r : Nat) : State :=
  let w := s.reg (aTMR_ROUTE r)
  let t := fld w 3 0
  match fld w 17 16 with
  | 1 => s.seqTrigger t
  | 2 =>
    if 8 ≤ t then s
    else if (tfind s.mover t).isSome then s.srb (aTMR_ROUTE r) 30 true
    else moverGo t s
  | 3 => if s.rb (aTMR_CTL t) 30 then { s with steps := tput s.steps t (tget s.steps t 0 + 1) } else s
  | _ => s

/-- A tick of a timer belongs to the XO cycle in which routes last acted where the time is the same and the timer has not ticked
in it; otherwise it begins another (R421). -/
def State.routeCycle (s : State) (n : Nat) : State :=
  let x := s.routed
  { s with routed := if x.1 = s.now ∧ n ∉ x.2.1 then (s.now, n :: x.2.1, x.2.2) else (s.now, [n], []) }

/-- The routes of a timer's events: the same action on the same target once in an XO cycle, whichever timers tick in it (R421). -/
def State.routes (s : State) (n : Nat) (events : List Nat) : List Nat → State
  | [] => s
  | r :: rest =>
    let w := s.reg (aTMR_ROUTE r)
    let key := (fld w 17 16, fld w 3 0)
    if bit w 31 = false ∨ fld w 27 24 ≠ n ∨ fld w 22 20 ∉ events ∨ fld w 17 16 = 0 then s.routes n events rest
    else if s.routeRefused r then (s.srb (aTMR_ROUTE r) 29 true).routes n events rest
    else if key ∈ s.routed.2.2 then s.routes n events rest
    else ({ s with routed := (s.routed.1, s.routed.2.1, key :: s.routed.2.2) }.routeActs r).routes n events rest

/-- Events of a timer in one tick, 0 to 3 CMP and 4 WRAP: status bits, interrupt, capture and routes (R419). -/
def State.tmrEvents (s : State) (n : Nat) (events : List Nat) : State :=
  let s := s.each events fun s e => s.srb (aTMR_STAT n) e true
  let c := s.reg (aTMR_CTL n)
  let s := s.onlyIf (events.any fun e => bit c (16 + e)) fun s => s.raise (.timer n (s.tmrPeat n))
  let s := s.onlyIf (events.any fun e => decide (fld c 29 27 = e + 1)) fun s => s.capture n
  (s.routeCycle n).routes n events (List.range 16)

/-- The compare channels of a list that are armed and reached: they are disarmed. -/
def State.reached (s : State) (n : Nat) (l : List Nat) : List Nat :=
  l.filter fun c => s.rb (aTMR_STAT n) (7 + c) &&
    decide ((s.reg (aTMR_COUNT n) - s.reg (aTMR_CMP n c)).toNat < 2 ^ 31)

/-- Disarms channels. -/
def State.disarm (s : State) (n : Nat) (l : List Nat) : State := s.each l fun s c => s.srb (aTMR_STAT n) (7 + c) false

/-- The next tick wraps the count. -/
def State.wraps (s : State) (n : Nat) : Bool :=
  let p := (s.reg (aTMR_PERIOD n)).toNat
  if p = 0 then decide (s.reg (aTMR_COUNT n) = 0xFFFFFFFF) else decide (p ≤ (s.reg (aTMR_COUNT n)).toNat)

/-- The wrap test and the re-arming of a tick (R415 steps 1 and 2). -/
def State.tmrAdvance (s : State) (n : Nat) : State :=
  let wrap := s.wraps n
  let p := (s.reg (aTMR_PERIOD n)).toNat
  let late := decide (p ≠ 0 ∧ p < (s.reg (aTMR_COUNT n)).toNat)
  let s := if wrap then (s.setReg (aTMR_COUNT n) 0).arm n 15 else s.setReg (aTMR_COUNT n) (s.reg (aTMR_COUNT n) + 1)
  s.onlyIf late fun s => s.srb (aTMR_STAT n) 5 true

/-- A tick (R415). -/
def State.tmrTick (s : State) (n : Nat) : State :=
  let wrap := s.wraps n
  let s := s.tmrAdvance n
  let l := s.reached n [0, 1, 2, 3]
  (s.disarm n l).tmrEvents n (l ++ if wrap then [4] else [])

/-- A timer counts. -/
def State.tmrRuns (s : State) (n : Nat) : Bool := decide (n < 16) && s.resumed && s.rb (aTMR_CTL n) 31

/-- PRESC + 1 XO cycles of a timer with CLKSEL 0 end. -/
def timerTick (n : Nat) (s : State) : State := if s.tmrRuns n ∧ s.rb (aTMR_CTL n) 30 = false then s.tmrTick n else s

/-- A step reaches a timer with CLKSEL 1. -/
def timerStep (n : Nat) (s : State) : State :=
  let k := tget s.steps n 0
  if k = 0 then s
  else
    let s := { s with steps := if k = 1 then tdel s.steps n else tput s.steps n (k - 1) }
    if s.tmrRuns n ∧ s.rb (aTMR_CTL n) 30 then s.tmrTick n else s

/-- A timer's next tick comes: an XO tick, or a step that has reached it. -/
def nextTick (n : Nat) (s : State) : State := if s.rb (aTMR_CTL n) 30 then timerStep n s else s.tmrTick n

/-- The tick on which a timer wraps. -/
def timerWrap (n : Nat) (s : State) : State := if s.tmrRuns n ∧ s.wraps n then nextTick n s else s

/-- The tick on which a compare channel fires: its test is of the new count (R415, R417). -/
def compareReached (n c : Nat) (s : State) : State :=
  if s.tmrRuns n ∧ c < 4 ∧ (s.tmrAdvance n).reached n [c] ≠ [] then nextTick n s else s

/-- An edge on GPIO1 captures in each timer that selects it. -/
def gpioEdge (rising : Bool) (s : State) : State :=
  if s.resumed then
    s.each ((List.range 16).filter fun n => decide (s.rf (aTMR_CTL n) 29 27 = (if rising then 6 else 7))) State.capture
  else s

/-- A write of TMR_CMPn_c: it arms the channel (R416). -/
def cmpWrite (n c : Nat) (v : Word) (s : State) : State := (s.setReg (aTMR_CMP n c) v).arm n (2 ^ c)

/-- SEQUENCE_GO (R424). -/
def execSequenceGo (m : Master) (seqs : Nat) (s : State) : Result := done (s.owned m aMON_CTL (monCtl (w32 (seqs % 16))))
/-- MON_ABORT (R427). -/
def execMonAbort (m : Master) (s : State) : Result := done (s.owned m aMON_CTL (monCtl 16))
/-- CONVERSION_SLOT_END (R425). -/
def execConversionSlotEnd (code : Nat) (s : State) : Result := done (conversionEnd code s)
/-- TIMER_TICK (R414). -/
def execTimerTick (n : Nat) (s : State) : Result := done (timerTick n s)
/-- TIMER_STEP (R420). -/
def execTimerStep (n : Nat) (s : State) : Result := done (timerStep n s)
/-- TIMER_WRAP (R415). -/
def execTimerWrap (n : Nat) (s : State) : Result := done (timerWrap n s)
/-- COMPARE (R415). -/
def execCompare (n c : Nat) (s : State) : Result := done (compareReached n c s)
/-- GPIO1_EDGE (R419). -/
def execGpio1Edge (rising : Bool) (s : State) : Result := done (gpioEdge rising s)
/-- CMP_WRITE (R416). -/
def execCmpWrite (m : Master) (n c : Nat) (v : Word) (s : State) : Result :=
  done (if n < 16 ∧ c < 4 then s.owned m (aTMR_CMP n c) (cmpWrite n c v) else s)
/-- PERIOD_WRITE (R418). -/
def execPeriodWrite (m : Master) (n : Nat) (v : Word) (s : State) : Result :=
  done (if n < 16 then s.owned m (aTMR_PERIOD n) (fun s => s.setReg (aTMR_PERIOD n) v) else s)

end Machine
end Sys2Proof
end

