-- ==== Sys2Proof/Machine/Faults.lean ====
section
/-!
DEFINITION. Alarms and storms (R463 to R468), memory errors (R470), the gatherer and the monitors' windows (R481, R484, R485),
and the thermal governor (R492).
-/
namespace Sys2Proof
namespace Machine

/-! ### Alarms (R466 to R468) -/

/-- Records an alarm while resumed. -/
def State.noteAlarm (s : State) (source detail : Nat) : State :=
  let n := s.rf aFLT_LAST0 15 0 + 1
  let s := s.srb aFLT_STATUS (source - 1) true
  let s := s.setReg aFLT_LAST0 (w32 (source % 16 * 2 ^ 28 + detail % 256 * 2 ^ 16 + n % 65536))
  let s := ((s.setReg aFLT_LAST1 s.sysLo).srf aFLT_AON 31 28 source).raise .alarm
  { s with flt := { s.flt with times := (s.flt.times.filter fun t => decide (s.sys < t + secs 1)) ++ [s.sys] } }

/-- A release decision in progress ends with FAULT_ALARM (R284). -/
def State.alarmDecision (s : State) : State :=
  match s.peat.serving with
  | none => s
  | some v => match v.waiting with
    | .fused d => s.turnDown d cAlarm
    | .startAuth d => s.turnDown d cAlarm
    | .applet d _ _ _ =>
      let s := if s.appletOfDecision then s.callOver else s
      s.turnDown d cAlarm
    | _ => s

/-- Every running job and a suspended one end with FAULT_ALARM. -/
def State.alarmJobs (s : State) : State :=
  (((s.endAes cAlarm).endBnSusp cAlarm).endBn cAlarm).endHsh cAlarm

/-- The front ends' exchanges and operations end with FAULT_ALARM. -/
def State.alarmFronts (s : State) : State :=
  (((s.lfStop cAlarm).nfcStop cAlarm).uwbAlarm).slotAlarm

/-- STORM_N alarms within 1 s of SYSTIME escalate (R468). -/
def State.storm (s : State) : State :=
  let n := s.rf aFLT_CFG 7 0
  if n = 0 ∨ s.flt.times.length < n then s
  else ((s.srb aFLT_AON 0 true).bumpSat aFLT_AON 23 16 1).resetAll 0

/-- An alarm. -/
def State.alarm (s : State) (source detail : Nat) : State :=
  let s := (s.noteAlarm source detail).alarmJobs.rngAlarm
  let s := (relStop s).alarmDecision.alarmFronts
  (peatGoesOn s).storm

/-- A trip within 1 µs of an alarm of the same sensor belongs to that alarm (R465). -/
def State.sameAlarm (s : State) (source : Nat) : Bool :=
  match tfind s.flt.trips source with
  | some t => decide (s.now - t ≤ 27)
  | none => false

/-- Notes the time of a SOURCE's alarm. -/
def State.noteTrip (s : State) (source : Nat) : State := { s with flt := { s.flt with trips := tput s.flt.trips source s.now } }

/-- The sensors of a mask, bit n for SOURCE n, whose trip in this cycle is no part of an earlier alarm. -/
def State.freshTrips (s : State) (sources : Nat) : List Nat := (bitsOf 8 sources).filter fun n => decide (n ≠ 0) && !s.sameAlarm n

/-- The sensors of a mask trip in one cycle: one alarm, which records the lowest SOURCE and its DETAIL (R465). -/
def alarmTrips (sources detail : Nat) (s : State) : State :=
  match s.freshTrips sources with
  | [] => s
  | n :: t => if s.resumed then ((n :: t).foldl State.noteTrip s).alarm n detail else s

/-- A memory error that is an alarm: one within 1 µs of another belongs to its alarm, but the jobs that run end too (R465,
R470). -/
def State.memAlarm (s : State) (detail : Nat) : State :=
  if s.sameAlarm 7 then s.alarmJobs else (s.noteTrip 7).alarm 7 detail

/-- The sensors of a mask trip in one cycle while the core is supplied but the unit is not resumed (R464, R465, R467): the clock
window does not run then, as the core PLL does not. -/
def offlineAlarm (sources detail : Nat) (s : State) : State :=
  match (s.freshTrips sources).filter fun n => decide (n ≠ 3) with
  | [] => s
  | n :: t =>
    if s.resumed ∨ s.rails = false then s
    else
      let s := (((n :: t).foldl State.noteTrip s).bumpSat aFLT_AON 15 8 1).srf aFLT_AON 31 28 n
      { s with flt := { s.flt with offline := some (n, detail) } }

/-! ### Memory errors (R470) -/

/-- A single-bit error is corrected and counted. -/
def singleBit (mem : Nat) (s : State) : State := if s.resumed ∧ mem ≤ 5 then s.bump (aFLT_ECC mem) 15 0 1 else s

/-- The mover channels at work whose descriptor reads from memory at a word. -/
def State.moversAt (s : State) (a : Nat) : List Nat :=
  (s.mover.filter fun x =>
    let d := x.2.desc
    let o := (wordAt d 1).toNat
    !x.2.armed && decide ((mvKind d = 2 ∨ mvKind d = 4) ∧ o ≤ a + 7 ∧ a < o + mvLen d)).map (·.1)

/-- A mover that meets the error ends its descriptor with ABORTED. -/
def State.moverMeets (s : State) (reader : Master) (a : Nat) : State :=
  if reader = .mover then s.each (s.moversAt a) fun s ch => s.moverEnd ch cAborted 0 else s

/-- A packet with a double-bit error in item i: a reader meets the first of them. -/
def Packet.hit (p : Packet) (i : Nat) : Packet :=
  { p with ecc := some (match p.ecc with | some j => min i j | none => i) }

/-- The packet that holds item i of a list of packets, by its place in the list, and the item's index in it. -/
def packetAt : Nat → List Packet → Option (Nat × Nat)
  | _, [] => none
  | i, p :: t =>
    if i < p.items.length then some (0, i) else (packetAt (i - p.items.length) t).map fun x => (x.1 + 1, x.2)

/-- A committed packet whose error is found before its SOP item is popped vanishes: a job's channel counts it no longer, and
a request's GEN is held no longer. -/
def State.loseCommitted (s : State) (n : Nat) (p : Packet) : State :=
  let l := s.lane n
  let s := s.setLane n { l with committed := l.committed.erase p }
  let s := s.onlyIf (decide (n = 10)) fun s => s.srf (aCHN_STATUS p.src) 20 16 (s.chJobs p.src - 1)
  (s.onlyIf (decide (n = 15)) fun s => s.pruneGens p).vanish n

/-- A double-bit error in item k of a lane, counted from its front through the packet half read, the committed packets and the
open ones (R407). A hardware consumer that reads the packet meets it at that item, and so does a pop after the SOP item;
otherwise the whole packet vanishes, an open one too: its writer then has none open. -/
def State.itemError (s : State) (n k : Nat) (hardware : Bool) : State :=
  let l := s.lane n
  let h := match l.half with | some p => p.items.length | none => 0
  let c := itemCount l.committed
  if k < h then s.setLane n { l with half := l.half.map fun p => p.hit k }
  else match packetAt (k - h) l.committed with
    | some (j, i) =>
      if hardware ∧ 0 < i then s.setLane n { l with committed := l.committed.modify j fun p => p.hit i }
      else match l.committed[j]? with
        | some p => s.loseCommitted n p
        | none => s
    | none => match packetAt (k - h - c) (l.opens.map Prod.snd) with
      | some (j, _) => (s.setLane n { l with opens := l.opens.eraseIdx j }).vanish n
      | none => s

/-- A key-store slot with an error is cleared: a static slot, or slot n of session n with 256 added. -/
def State.slotError (s : State) (n : Nat) : State :=
  if n < 64 then s.dropKey n
  else if 256 ≤ n ∧ n < 512 then s.modSes (n - 256) fun x => { x with slot := zeros 128 }
  else s

/-- A master takes a lane's packets as a hardware consumer does, and Peat the requests of Q15 and the calls of Q14 (R506). -/
def queueReader (r : Master) (n : Nat) : Bool :=
  decide (r = .sequencer ∨ r = .causeway ∨ r = .mover ∨ (r = .peat ∧ (n = 14 ∨ n = 15)))

/-- A double-bit error is met. `place` is a word of 32 bits of the SRAMs, a way of the credential table, a word of operand
memory, lane x 2^16 and an item of the queues, or a slot. -/
def doubleBit (mem place : Nat) (reader : Master) (s : State) : State :=
  if s.resumed = false ∨ 5 < mem then s
  else
    let s := s.bump (aFLT_ECC mem) 31 16 1
    match mem with
    | 0 => ((s.moverMeets reader (0x10000000 + 4 * place)).accessFault reader).memAlarm 0
    | 1 => (s.moverMeets reader (0x20000000 + 4 * place)).accessFault reader
    | 2 => s.setWayWord 0x30000000 (place % 0x4000) 0
    | 3 =>
      let s := ((s.moverMeets reader (0x50000000 + 8 * place)).accessFault reader).answer reader 0
      (s.omWrite (place % 0x1000) (zeros 8)).memAlarm 3
    | 4 => s.itemError (place / 0x10000) (place % 0x10000) (queueReader reader (place / 0x10000))
    | _ => (s.slotError place).memAlarm 5

/-! ### The gatherer and the monitors (R481, R484, R485) -/

/-- The blocks that a snapshot dumps. -/
def State.dumped (s : State) : List Nat :=
  (bitsOf 25 (s.rf aPRF_GMASK 24 0)).filter fun b => decide (b ≠ 0x0B ∧ b ≠ 0x0C ∧ b ≠ 0x17)

/-- The words of a snapshot. -/
def State.snapWords (s : State) : List Word :=
  let mons := if s.rb aPRF_GCTL 17 ∧ s.rb aPRF_GRANT 1 then List.range 6 else []
  [w32 (0x01000000 + (if mons = [] then 0 else 0x3F) * 2 ^ 16 + s.rf aPRF_GSTAT 15 0), w32 (maskOf s.dumped), s.sysLo] ++
    s.dumped.flatMap (fun b => [0, 1, 2, 3].map fun k => s.reg (aPRF_CNT b k)) ++
    mons.flatMap (fun n => [s.reg (aPRF_PMACC n), s.reg (aPRF_PMBYTES n)])

/-- The words of a dump with a write of GMASK or PMEN within an XO cycle of it: free values (a host mistake). -/
def State.dumpWords (s : State) : List Word × State :=
  match s.dumpWrote with
  | some t =>
    if s.now ≤ t + 1 then let x := s.freeBytes (4 * s.snapWords.length); (toWords x.1, x.2) else (s.snapWords, s)
  | none => (s.snapWords, s)

/-- PERIOD ms pass. The counters that are zeroed read in this cycle as they were before it (R485). -/
def snapshot (s : State) : State :=
  if s.resumed = false ∨ s.rf aPRF_GCTL 15 0 = 0 then s
  else
    let ws := s.dumpWords.1
    let s := s.dumpWords.2
    let s := s.onlyIf (s.rb aPRF_GCTL 16) fun s =>
      let cnts := s.dumped.flatMap fun b => [0, 1, 2, 3].map fun k => aPRF_CNT b k
      let s := { s with prfBefore := (s.now, cnts.map fun a => (a, s.reg a)) }
      s.each cnts fun s a => s.setReg a 0
    match s.hwCommit 13 (wordsPacket 0 0xFF ws) with
    | some t => t.bump aPRF_GSTAT 15 0 1
    | none => (s.drop 13).bump aPRF_GSTAT 31 16 1

/-- A monitor's counts restart. -/
def State.windowStart (s : State) (n : Nat) : State := { s with prfAcc := tdel (tdel s.prfAcc n) (16 + n) }

/-- A monitor's window ends. -/
def windowEnd (n : Nat) (s : State) : State :=
  if s.resumed = false ∨ 6 ≤ n ∨ s.rb (aPRF_PMCFG n) 31 = false ∨ s.rf (aPRF_PMWIN n) 15 0 = 0 then s
  else
    let s := (s.setReg (aPRF_PMACC n) (tget s.prfAcc n 0)).setReg (aPRF_PMBYTES n) (tget s.prfAcc (16 + n) 0)
    (s.windowStart n).bump (aPRF_PMWIN n) 31 16 1

/-- A write of PRF_SELb_k: the event, OVF, and the counter zeroed. -/
def selWrite (b k : Nat) (v : Word) (s : State) : State :=
  let a := aPRF_SEL b k
  (s.setReg a ((s.reg a &&& ~~~(v &&& 0x100) &&& 0xFFFFFF00) ||| (v &&& 0xFF))).setReg (aPRF_CNT b k) 0

/-! ### The thermal governor (R492) -/

/-- A reading of TJ in units of 1/16 degree C. -/
def governorReading (tj : Int) (s : State) : State :=
  if s.rails = false then s
  else
    let s := (s.refill).internalSlots 4
    let d := s.duty
    let s := s.srf aPWR_THERM 31 16 (unsgn 16 tj)
    if 2000 ≤ tj then (s.srf aPWR_THERM 4 0 0).srb aPWR_THERM 8 true
    else if 1936 < tj then s.srf aPWR_THERM 4 0 (d - 1)
    else if tj < 1920 then s.srf aPWR_THERM 4 0 (min 16 (d + 1))
    else s

/-- ALARM (R466). -/
def execAlarm (sources detail : Nat) (s : State) : Result := done (alarmTrips sources detail s)
/-- OFFLINE_ALARM (R467). -/
def execOfflineAlarm (sources detail : Nat) (s : State) : Result := done (offlineAlarm sources detail s)
/-- MEMORY_DOUBLE_BIT_ERROR (R470). -/
def execMemoryDoubleBitError (mem place : Nat) (reader : Master) (s : State) : Result := done (doubleBit mem place reader s)
/-- SINGLE_BIT_ERROR (R470). -/
def execSingleBitError (mem : Nat) (s : State) : Result := done (singleBit mem s)
/-- SNAPSHOT (R484). -/
def execSnapshot (s : State) : Result := done (snapshot s)
/-- MONITOR_WINDOW_END (R481). -/
def execMonitorWindowEnd (n : Nat) (s : State) : Result := done (windowEnd n s)
/-- SEL_WRITE (R476). -/
def execSelWrite (m : Master) (b k : Nat) (v : Word) (s : State) : Result :=
  done (if b < 25 ∧ k < 4 then s.owned m (aPRF_SEL b k) (selWrite b k v) else s)
/-- GOVERNOR_READING (R492). -/
def execGovernorReading (tj : Int) (s : State) : Result := done (governorReading tj s)

end Machine
end Sys2Proof
end

