-- ==== Sys2Proof/Machine/View.lean ====
section
/-!
DEFINITION. What a register reads as where its fields show state that is held elsewhere: counts, states of sessions,
channels, engines and links, eNVM objects, and the host port's status and attention (R8, R116, R404, R431, R437).
-/
namespace Sys2Proof
namespace Machine

/-- A stored word's bits under a mask, with other fields beside them. -/
def keep (w : Word) (mask : Word) (n : Nat) : Word := (w &&& mask) ||| w32 n

/-- Four bytes of a string from word i on, as a word. -/
def bytesWord (b : Bytes) (i : Nat) : Word := w32 (ofLE (slice b (4 * i) 4))

/-! ### The host port (R431, R437, R439) -/

/-- The port accepts transactions: the unit is resumed, or its start waits for the host. -/
def State.hifReady (s : State) : Bool := s.resumed || (decide (s.power.mode = .starting) && s.rb aHIF_RECREQ 31)

/-- Queue n holds a committed packet. -/
def State.holds (s : State) (n : Nat) : Bool := decide (lanePackets (s.lane n) ≠ 0)

/-- ATTN_N is asserted: a source is pending and enabled, and the unit is resumed. -/
def State.attn (s : State) : Bool :=
  s.resumed && ((s.holds 1 && s.rb aHIF_ATTN 8) || (s.holds 2 && s.rb aHIF_ATTN 9) ||
    (s.rb aHIF_ATTN 2 && s.rb aHIF_ATTN 10) || s.rb aHIF_RECREQ 31)

/-- The status byte. -/
def State.statusByte (s : State) : Byte :=
  if s.hifReady then
    by8 (0x81 + b2n s.attn * 64 + b2n (s.rb aHIF_ATTN 2) * 32 + b2n (decide (2 ≤ s.hif.wbuf.length)) * 16 +
      b2n (s.rb aHIF_RECREQ 31 || s.power.safeState) * 8 + b2n (s.holds 1) * 4)
  else 0x01

/-- Registers of HIF_. -/
def viewHIF (s : State) (a : Nat) : Word :=
  if a = aHIF_STATUS then keep (s.reg a) 0xFF00 s.statusByte.toNat
  else if a = aHIF_ATTN then
    keep (s.reg a) 0xF04 (b2n (s.rb aHIF_RECREQ 31) * 8 + b2n (s.holds 2) * 2 + b2n (s.holds 1))
  else if a = aHIF_RECDATA then 0
  else s.reg a

/-! ### Power, life cycle, channels and sessions -/

/-- Registers of PWR_. -/
def viewPWR (s : State) (a : Nat) : Word :=
  if a = aPWR_STANDING then w32 (min 0xFFFFFFFF ((s.now - s.power.lastActivity) / 27120000))
  else if a = aPWR_CMD then 0
  else s.reg a

/-- Registers of LCS_. -/
def viewLCS (s : State) (a : Nat) : Word :=
  if a = aLCS_STATE then
    keep (s.reg a) 8 (min 3 s.envm.pwdFails * 4096 + b2n s.pwdLocked * 2048 + s.peat.debugLevel % 8 * 256 + s.envm.lcs % 8)
  else if aLCS_ARB 0 ≤ a then tget s.envm.arb ((a - aLCS_ARB 0) / 4) 0
  else s.reg a

/-- The bound session of channel c is READY under the generation in SES_GEN. -/
def State.sesValid (s : State) (c : Nat) : Bool :=
  !s.noses c && (let x := s.ses (s.rf (aCHN_BIND c) 15 8)
    decide (x.st = .ready ∧ x.gen.toNat = s.rf (aCHN_BIND c) 23 16))

/-- Registers of CHN_. -/
def viewCHN (s : State) (a : Nat) : Word :=
  if aCHN_RUNMASK 0 ≤ a ∧ a ≤ aCHN_RUNMASK 3 then
    let n := (a - aCHN_RUNMASK 0) / 4
    w32 (maskOf ((List.range 32).filter fun i => decide (s.chState (32 * n + i) ≠ 0)))
  else if aCHN_CTL 0 ≤ a ∧ (a - aCHN_CTL 0) % 32 = 4 then
    keep (s.reg a) 0xFEFFFFFF (b2n (s.sesValid ((a - aCHN_CTL 0) / 32)) * 2 ^ 24)
  else s.reg a

/-- The code of a session's state. -/
def sesCode (x : SesState) : Nat := match x with | .free => 0 | .offered => 1 | .ready => 2 | .closing => 3

/-- Registers of SES_. -/
def viewSES (s : State) (a : Nat) : Word :=
  if a = aSES_OPEN then w32 ((s.sess.filter fun x => decide (x.2.st ≠ .free)).length)
  else if aSES_STATE 0 ≤ a then
    let n := (a - aSES_STATE 0) / 4
    let x := s.ses n
    w32 (min 4 (s.binds n) * 2 ^ 24 + x.opener % 128 * 2 ^ 16 + x.gen.toNat * 256 + x.suite % 4 * 4 + sesCode x.st)
  else s.reg a

/-! ### Front ends -/

/-- Registers of LF_. -/
def viewLF (s : State) (a : Nat) : Word :=
  if a = aLF_FLAGS then keep (s.reg a) 0xE (b2n (s.rb aPWR_STATUS 4)) else s.reg a

/-- Registers of NFC_. -/
def viewNFC (s : State) (a : Nat) : Word :=
  if a = aNFC_STATUS then
    let mode := if s.nfcWaits.isSome then 4 else if s.nfc.fieldOn then 2 else if s.resumed ∧ s.feOn 3 then 1 else 0
    w32 (b2n s.tag.field * 128 + b2n s.nfc.cur.isSome * 64 + b2n s.nfc.card.isSome * 8 + mode)
  else s.reg a

/-- The record of the open field transaction (R180). -/
def State.openRecord (s : State) : Option Nat :=
  match s.tag.writing with
  | some n => some n
  | none =>
    match s.tag.fieldWaits with
    | some x => some x.2.1
    | none => (s.tag.shadows.find? fun x => s.fieldOpen x.1).map (·.1)

/-- ISL of TAG_STATUS. -/
def State.isl (s : State) : Nat :=
  if s.tag.field = false then 0
  else if s.tag.pulse then 5
  else if s.charging then 4
  else if s.tag.selected then 3
  else if s.tag.active then 2
  else 1

/-- Registers of TAG_. -/
def viewTAG (s : State) (a : Nat) : Word :=
  if a = aTAG_STATUS then
    keep (s.reg a) 0xC0 (s.openRecord.getD 0 % 256 * 256 + b2n s.openRecord.isSome * 32 + b2n s.tag.authEntry.isSome * 16 +
      b2n s.tag.field * 8 + s.isl)
  else if a = aTAG_RECINFO then w32 s.tagMap.length
  else if aTAG_RECMAP 0 ≤ a ∧ a ≤ aTAG_RECMAP 63 then bytesWord s.tagMap ((a - aTAG_RECMAP 0) / 4)
  else if a = aTAG_ISLOG then w32 (b2n s.envm.logOverrun * 32 + min 16 s.envm.islandLog.length)
  else s.reg a

/-- Registers of UWB_. -/
def viewUWB (s : State) (a : Nat) : Word :=
  if a = aUWB_STATE then keep (s.reg a) 0x67 (min 64 s.uwbPending * 256)
  else if a = aUWB_FLAGS then keep (s.reg a) 0xFE (b2n (decide (s.faultPorts ≠ 0)))
  else if a = aUWB_LIVE then w32 (min 16 s.uwb.live.length)
  else if a = aUWB_TSNOW_LO then w32 s.tsNow
  else s.reg a

/-- A regular round is running. -/
def State.inRound (s : State) : Bool :=
  decide (tsAhead s.dist.roundStart s.chainNow ≤ 0 ∧ 0 < tsAhead s.dist.roundEnd s.chainNow)

/-- Registers of DIST_. -/
def viewDIST (s : State) (a : Nat) : Word :=
  if a = aDIST_STATUS then
    w32 (min 32 s.dist.nslots * 256 + b2n s.isHead * 128 + b2n s.alignOk * 64 + b2n s.inRound * 32 +
      b2n (!s.dist.fused.isEmpty) * 16 + min 4 s.dist.fuseReqs.length)
  else if a = aDIST_ALIGNQ then w32 (s.alignAge * 65536 + if s.isHead then 0 else s.rf a 15 0)
  else if a = aDIST_VSTAT then keep (s.reg a) 0x20 (min 16 s.dist.fifo.length)
  else if a = aDIST_VREAD then 0
  else if aDIST_VHEAD 0 ≤ a then wordAt (s.dist.fifo.headD []) ((a - aDIST_VHEAD 0) / 4)
  else s.reg a

/-! ### Credentials, release, key store and random source -/

/-- VALID entries of the credential table: the ways whose word 0 has bit 31. -/
def State.tableCount (s : State) : Nat :=
  (s.mem.filter fun c => decide (0x30000000 ≤ c.1 ∧ c.1 < 0x30040000 ∧ c.1 % 16 = 3 ∧ 128 ≤ c.2.toNat)).length

/-- A word of the lock bits of 32 enrolled entries. -/
def State.entryLocks (s : State) (base : Nat) : Word :=
  w32 (maskOf ((List.range 32).filter fun n => s.isLocked (.entry (base + n))))

/-- Seconds of lock left, a part of one counted whole. -/
def State.lockLeft (s : State) (t : LockTarget) : Nat :=
  match (s.lockOf t).lockedUntil with
  | some u => min 0xFFFF ((u - s.now + 27119999) / 27120000)
  | none => 0

/-- Word A or B of an enrolled entry. -/
def entryWord (e : Option Entry) (b : Bool) : Word :=
  match e with
  | none => 0
  | some e =>
    if b then
      w32 (2 ^ 31 + b2n e.km5200 * 2 ^ 30 + b2n e.byToken * 2 ^ 29 + e.cls % 8 * 2 ^ 24 + e.rights.toNat * 2 ^ 16 +
        e.wakeId.toNat)
    else e.tid

/-- Registers of CRD_. -/
def viewCRD (s : State) (a : Nat) : Word :=
  if a = aCRD_STATUS then
    keep (s.reg a) 2 (s.tableCount * 65536 + s.envm.entries.length % 128 * 256 + s.mapCache.length % 8 * 16 +
      b2n s.envm.mapInit * 4 + b2n s.envm.timeUnc)
  else if a = aCRD_TIME then s.opTime
  else if aCRD_LOCK 0 ≤ a ∧ a ≤ aCRD_LOCK 3 then
    let t : LockTarget := .cls ((a - aCRD_LOCK 0) / 4)
    w32 (b2n (s.isLocked t) * 2 ^ 31 + min 15 (s.lockOf t).fails.length * 65536 + s.lockLeft t)
  else if a = aCRD_TOKLOCK0 then s.entryLocks 0
  else if a = aCRD_TOKLOCK1 then s.entryLocks 32
  else if aCRD_MAPVER 0 ≤ a ∧ a ≤ aCRD_MAPVER 31 then
    match tfind s.envm.sectors ((a - aCRD_MAPVER 0) / 4) with
    | some r => r.version
    | none => 0
  else if aCRD_ENT_A 0 ≤ a then
    entryWord (tfind s.envm.entries ((a - aCRD_ENT_A 0) / 8)) (decide ((a - aCRD_ENT_A 0) % 8 = 4))
  else s.reg a

/-- Registers of REL_. A part of a millisecond left counts as one. -/
def viewREL (s : State) (a : Nat) : Word :=
  if a = aREL_STATUS then keep (s.reg a) 0xFF08 (b2n s.rel.pending * 4 + b2n s.isHead * 2 + b2n s.rel.wave)
  else if a = aREL_CNT_LO then s.counter 44
  else if a = aREL_REMAIN then (if s.rel.wave then w32 (min 0xFFFF ((s.rel.endAt - s.now + 27119) / 27120)) else 0)
  else s.reg a

/-- KST_ATTR of a slot. -/
def attrWord (k : Option Slot) : Word :=
  match k with
  | none => 0
  | some k =>
    w32 (2 ^ 31 + k.cls % 8 * 2 ^ 28 + k.origin % 4 * 2 ^ 26 + b2n k.sedge * 2 ^ 25 + b2n k.persist * 2 ^ 24 +
      k.use.toNat * 2 ^ 16 + k.typ % 256 * 256)

/-- Registers of KST_. -/
def viewKST (s : State) (a : Nat) : Word :=
  if a = aKST_STATUS then keep (s.reg a) 0x7B (s.slots.length % 128 * 256 + b2n s.envm.helper.isSome * 4)
  else if aKST_ATTR 0 ≤ a ∧ a ≤ aKST_ATTR 63 then attrWord (tfind s.slots ((a - aKST_ATTR 0) / 4))
  else if aKST_EPOCH 0 ≤ a ∧ a ≤ aKST_EPOCH 3 then s.epochOf ((a - aKST_EPOCH 0) / 4 + 1)
  else if aKST_CNT 0 ≤ a then s.counter ((a - aKST_CNT 0) / 4)
  else s.reg a

/-- Registers of TRNG_. TRNG_OUT and TRNG_RAW are read by operations of their own. -/
def viewTRNG (s : State) (a : Nat) : Word :=
  if a = aTRNG_STATUS then keep (s.reg a) 0x37 (min 255 s.trng.reqs.length * 256)
  else if a = aTRNG_PORT then keep (s.reg a) 0xFF001000 (min 16 s.trng.out.length)
  else s.reg a

/-! ### Engines -/

/-- Registers of AES_. -/
def viewAES (s : State) (a : Nat) : Word :=
  let x := s.ses (s.rf aAES_RECSEL 7 0)
  let ok := decide (x.st = .ready ∧ x.suite = 1)
  if a = aAES_STATUS then
    match s.eng.aes with
    | some r => w32 (32768 + r.chan % 128 * 128 + fld (wordAt r.desc 0) 27 24 * 8 + r.tclass % 8)
    | none => w32 (b2n s.eng.stsBusy * 0xC000)
  else if a = aAES_RECTX then (if ok then x.tx else 0)
  else if a = aAES_RECRX then (if ok then x.rxFloor else 0)
  else s.reg a

/-- Registers of BN_. -/
def viewBN (s : State) (a : Nat) : Word :=
  let op := fun (r : Run) => fld (wordAt r.desc 0) 23 16
  if a = aBN_STATUS then
    w32 (b2n s.eng.bnSusp.isSome * 2 ^ 30 + match s.eng.bn with
      | some r => 2 ^ 31 + r.chan % 128 * 2 ^ 23 + op r * 2 ^ 15 + r.step % 256
      | none => 0)
  else if a = aBN_SUSPENDED then
    match s.eng.bnSusp with
    | some r => w32 (2 ^ 31 + r.chan % 128 * 2 ^ 16 + op r * 256 + r.step % 256)
    | none => 0
  else s.reg a

/-- Registers of HSH_. -/
def viewHSH (s : State) (a : Nat) : Word :=
  if a = aHSH_STATUS then
    w32 (maskOf (s.eng.ctx.map (·.1)) + match s.eng.hsh with
      | some r => 2 ^ 31 + r.chan % 128 * 2 ^ 24 + fld (wordAt r.desc 0) 27 24 * 2 ^ 20 + fld (wordAt r.desc 0) 3 0 * 2 ^ 16
      | none => 0)
  else if aHSH_CTX 0 ≤ a ∧ a ≤ aHSH_CTX 7 then
    match tfind s.eng.ctx ((a - aHSH_CTX 0) / 4) with
    | some c => w32 (2 ^ 31 + c.chan % 128 * 2 ^ 16 + c.func % 16 * 256)
    | none => 0
  else if a = aHSH_XSTATE then
    let left := 0x100000 - s.envm.xmssNext
    w32 (b2n s.envm.xmssKeyed * 2 ^ 31 + b2n (decide (left < 65536)) * 2 ^ 30 + min 127 s.envm.xmssLag * 2 ^ 21 + left)
  else if a = aHSH_XNEXT then w32 s.envm.xmssNext
  else if aHSH_ANCHOR 1 ≤ a ∧ a ≤ aHSH_ANCHOR 4 then
    match tfind s.envm.anchors ((a - aHSH_ANCHOR 1) / 4 + 1) with
    | some k => w32 (2 ^ 31 + k.pset % 256 * 65536 + le16 (shakeH k.key 2) 0)
    | none => 0
  else s.reg a

/-! ### Queues, timers, Causeway, faults and counters -/

/-- PACKETS and ITEMS of a lane. -/
def State.laneCount (s : State) (n : Nat) : Word := w32 (lanePackets (s.lane n) % 65536 * 65536 + laneItems (s.lane n) % 65536)

/-- Registers of QUE_. -/
def viewQUE (s : State) (a : Nat) : Word :=
  if aQUE_COUNT 0 ≤ a ∧ a ≤ aQUE_COUNT 15 then s.laneCount ((a - aQUE_COUNT 0) / 4)
  else if a = aQUE_LCOUNT 14 then (if s.mailbox 14 then s.laneCount 30 else 0)
  else if a = aQUE_LCOUNT 15 then (if s.mailbox 15 then s.laneCount 31 else 0)
  else if aQUE_STAT 0 ≤ a ∧ a ≤ aQUE_STAT 15 then
    let n := (a - aQUE_STAT 0) / 4
    keep (s.reg a) 0x80000000 (min 8 (s.openCount n) * 2 ^ 24 + s.room n % 32768)
  else s.reg a

/-- Registers of TMR_. -/
def viewTMR (s : State) (a : Nat) : Word :=
  if a = aTMR_SYSTIME_LO then s.sysLo else s.reg a

/-- Registers of CWY_. -/
def viewCWY (s : State) (a : Nat) : Word :=
  if a = aCWY_STATUS then keep (s.reg a) 0x7F1F (s.ksel * 128 + b2n s.power.cwyHead * 64)
  else if a = aCWY_PRX then s.cwy.notifs.headD 0
  else s.reg a

/-- What a register reads as, side effects and RL latches apart. -/
def readView (s : State) (a : Nat) : Word :=
  match (a - 0x40000000) / 0x10000 with
  | 2 => viewPWR s a
  | 3 => viewLF s a
  | 4 => viewNFC s a
  | 5 => viewTAG s a
  | 6 => viewUWB s a
  | 7 => viewDIST s a
  | 8 => viewCHN s a
  | 9 => viewSES s a
  | 10 => viewREL s a
  | 11 => viewKST s a
  | 12 => viewTRNG s a
  | 13 => viewAES s a
  | 14 => viewBN s a
  | 15 => viewHSH s a
  | 16 => viewQUE s a
  | 17 => viewTMR s a
  | 19 => viewCWY s a
  | 20 => viewHIF s a
  | 21 => if a = aFLT_STATUS then keep (s.reg a) 0x7F (b2n s.rngFailed * 256) else s.reg a
  | 22 =>
    if a = aPRF_GMASK then s.reg a &&& 0x17FE7FF
    else if s.prfBefore.1 = s.now then (tfind s.prfBefore.2 a).getD (s.reg a)
    else s.reg a
  | 23 => viewLCS s a
  | 24 => viewCRD s a
  | _ => s.reg a

end Machine
end Sys2Proof
end

