-- ==== Sys2Proof/Machine/Bus.lean ====
section
/-!
DEFINITION. Reads and writes of the address map (R8 to R12, R28 to R36): what each access finds, the effect of writing each
register, the RL pairs, and the masters' accesses.
-/
namespace Sys2Proof
namespace Machine

/-! ### Writing registers -/

/-- The plain write of a register: its RW bits take the word, its W1C bits are cleared by ones (R8, R10). -/
def storeReg (a : Nat) (v : Word) (s : State) : State :=
  match regRow a with
  | some (r, _) => s.setReg a (maskWrite r (s.reg a) v)
  | none => s

/-- A write of LF_DRVn: TUNE is used in place of the record's until the next start (R148); AER_FAULT goes with its cause
(R120). -/
def drvWrite (n : Nat) (v : Word) (s : State) : State :=
  let s := s.srf (aLF_DRV n) 5 0 (fld v 5 0)
  let s := { s with lf := { s.lf with tuned := putBit s.lf.tuned n true } }
  s.onlyIf (bit v 31) fun s => s.srf (aLF_DRV n) 31 29 0

/-- A write of UWB_PORTn (R202, R203). -/
def uwbPortWrite (n : Nat) (v : Word) (s : State) : State := storeReg (aUWB_PORT n) v (s.setTune n (fld v 4 0))

/-- A write of CHN_CTLn: TEMPLATE, then START, STOP and ABORT. -/
def chnCtl (n : Nat) (v : Word) (s : State) : State :=
  let s := s.srf (aCHN_CTL n) 11 8 (fld v 11 8)
  let s := s.onlyIf (bit v 0) (channelStart n)
  let s := s.onlyIf (bit v 1) (channelStop n)
  peatGoesOn (s.onlyIf (bit v 2) (channelAbort n))

/-- A write of KST_CMD. ROOT_ENROL reads the array's bits, which such a write does not bring: free values (log entry 52). -/
def kstCmd (v : Word) (s : State) : State :=
  if bit v 31 then
    if fld v 23 16 = 0x0A then
      let x := s.freeBytes 8192
      kstGo 0x0A x.1 x.2
    else kstGo (fld v 23 16) [] s
  else s.srf aKST_CMD 23 16 (fld v 23 16)

/-- A write of QUE_MVCTLm: EVT, then STOP, then GO. -/
def mvCtl (n : Nat) (v : Word) (s : State) : State :=
  let s := s.srb (aQUE_MVCTL n) 2 (bit v 2)
  let s := s.onlyIf (bit v 1) (moverStop n)
  s.onlyIf (bit v 0) (moverGo n)

/-- A write of CWY_PLAND. Arming where SESSION names no session of SUITE 3 takes a landing session (R110, R457). -/
def plandWrite (v : Word) (s : State) : State :=
  let n := fld v 7 0
  let s := { s.setReg aCWY_PLAND (v &&& 0x800000FF) with cwy := { (s.setReg aCWY_PLAND (v &&& 0x800000FF)).cwy with landWaits := false } }
  s.onlyIf (bit v 31 && !decide ((s.ses n).st = .ready ∧ (s.ses n).suite = 3)) State.armLanding

/-- A write of HIF_ATTN: bit 11 stays 1. -/
def attnWrite (v : Word) (s : State) : State := storeReg aHIF_ATTN (v ||| 0x800) s

/-- A write of PRF_PMCFGn: a window starts when EN goes to 1 (R481). -/
def pmcfgWrite (n : Nat) (v : Word) (s : State) : State :=
  let old := s.rb (aPRF_PMCFG n) 31
  (storeReg (aPRF_PMCFG n) v s).onlyIf (bit v 31 && !old) fun s => s.windowStart n

/-- Writes of the front ends' registers that do more than store. -/
def writeFront (a : Nat) (v : Word) (s : State) : State :=
  if a = aLF_CARRIER then lfCarrier v s
  else if aLF_DRV 0 ≤ a ∧ a ≤ aLF_DRV 11 then drvWrite ((a - aLF_DRV 0) / 4) v s
  else if a = aTAG_HCMD then tagHcmd v s
  else if a = aTAG_ISACK then tagIsack v s
  else if a = aTAG_ISLOG then s.onlyIf (bit v 5) fun s => { s with envm := { s.envm with logOverrun := false } }
  else if aUWB_PORT 0 ≤ a ∧ a ≤ aUWB_PORT 3 then uwbPortWrite ((a - aUWB_PORT 0) / 4) v s
  else if a = aUWB_LIVE then s.onlyIf (bit v 8) fun s => { s with uwb := { s.uwb with live := [] } }
  else if a = aDIST_FUSE then peatGoesOn (fuseWrite v s)
  else if a = aDIST_MAP then mapWrite v s
  else if a = aDIST_VREAD then s.onlyIf (bit v 0) nextVerdict
  else if aDIST_SLOT 0 ≤ a ∧ a ≤ aDIST_SLOT 31 ∧ s.isHead = false then s
  else storeReg a v s

/-- Writes of the queues', the mover's, the timers' and the converter's registers that do more than store. -/
def writeQueue (a : Nat) (v : Word) (s : State) : State :=
  if a = aQUE_FLUSH then flushMask (fld v 15 0 &&& 0x23FF) s
  else if a = aQUE_PFLUSH then flushMask (fld v 15 0) s
  else if aQUE_MVCTL 0 ≤ a ∧ a < aQUE_MVCTL 8 ∧ (a - aQUE_MVCTL 0) % 32 = 0 then mvCtl ((a - aQUE_MVCTL 0) / 32) v s
  else if aTMR_CTL 0 ≤ a ∧ a < aTMR_CTL 16 ∧ 0x0C ≤ (a - aTMR_CTL 0) % 64 ∧ (a - aTMR_CTL 0) % 64 < 0x1C then
    cmpWrite ((a - aTMR_CTL 0) / 64) (((a - aTMR_CTL 0) % 64 - 0x0C) / 4) v s
  else if a = aMON_CTL then monCtl v s
  else storeReg a v s

/-- Writes of the other registers that do more than store. -/
def writeSystem (a : Nat) (v : Word) (s : State) : State :=
  if a = aPWR_CMD then pwrCmd v s
  else if a = aSYS_WDT_KICK then kickWdt v s
  else if a = aCHN_PEATMASK 3 then s.setReg a (v ||| 0xF0000000)
  else if aCHN_CTL 0 ≤ a ∧ a < aCHN_CTL 128 ∧ (a - aCHN_CTL 0) % 32 = 0 then chnCtl ((a - aCHN_CTL 0) / 32) v s
  else if a = aREL_CTL then relCtl v s
  else if a = aKST_CMD then kstCmd v s
  else if a = aTRNG_CTL then trngCtl v s
  else if a = aTRNG_PORTREQ then portReq v s
  else if a = aCRD_MAPQ then mapqWrite v s
  else if a = aCWY_PCMD then pcmdWrite v s
  else if a = aCWY_PLAND then plandWrite v s
  else if a = aCWY_PRX then s.onlyIf (bit v 31) prxClear
  else if a = aHIF_ATTN then attnWrite v s
  else if a = aHIF_RECDATA then recData v s
  else if aPRF_PMCFG 0 ≤ a ∧ a < aPRF_PMCFG 6 ∧ (a - aPRF_PMCFG 0) % 32 = 0 then pmcfgWrite ((a - aPRF_PMCFG 0) / 32) v s
  else if aPRF_SEL 0 0 ≤ a ∧ a < aPRF_SEL 25 0 ∧ (a - aPRF_SEL 0 0) % 32 < 16 then
    selWrite ((a - aPRF_SEL 0 0) / 32) ((a - aPRF_SEL 0 0) % 32 / 4) v s
  else storeReg a v s

/-- The ordinary effect of a granted write of a register. -/
def plainWrite (a : Nat) (v : Word) (s : State) : State :=
  match (a - 0x40000000) / 0x10000 with
  | 3 => writeFront a v s
  | 5 => writeFront a v s
  | 6 => writeFront a v s
  | 7 => writeFront a v s
  | 16 => writeQueue a v s
  | 17 => writeQueue a v s
  | 18 => writeQueue a v s
  | 2 => writeSystem a v s
  | 8 => writeSystem a v s
  | 10 => writeSystem a v s
  | 11 => writeSystem a v s
  | 12 => writeSystem a v s
  | 19 => writeSystem a v s
  | 20 => writeSystem a v s
  | 22 => writeSystem a v s
  | 24 => writeSystem a v s
  | 0 => writeSystem a v s
  | _ => storeReg a v s

/-- What a write of a channel's register makes unpredictable: BIND, QUEUES and SCHED while the channel is not IDLE, but for
SCHED of Peat's four, whose NOSES reads 1 always (R99). -/
def spoilChannel (old : State) (a : Nat) (s : State) : State :=
  let n := (a - aCHN_CTL 0) / 32
  let k := (a - aCHN_CTL 0) % 32
  let s := if aCHN_CTL 0 ≤ a ∧ a < aCHN_CTL 128 ∧ old.chState n ≠ 0 ∧ (k = 4 ∨ k = 8 ∨ (k = 12 ∧ n < 124)) then
    let x := s.freeW
    storeReg a x.1 x.2
  else s
  s.onlyIf (decide (aCHN_CTL 124 ≤ a ∧ a < aCHN_CTL 128 ∧ k = 4)) fun s => s.srb a 25 true

/-- What a write of a timer's register while EN is 1 makes unpredictable: COUNT makes COUNT and STAT so, a change of CLKSEL or
CAPSRC the count, the events and the capture. -/
def spoilTimer (old : State) (a : Nat) (v : Word) (s : State) : State :=
  let n := (a - aTMR_CTL 0) / 64
  let k := (a - aTMR_CTL 0) % 64
  if aTMR_CTL 0 ≤ a ∧ a < aTMR_CTL 16 ∧ old.rb (aTMR_CTL n) 31 = true then
    let both := fun (s : State) => (s.freeIn (aTMR_COUNT n) 0xFFFFFFFF).freeIn (aTMR_STAT n) 0x7FF
    if k = 4 then both s
    else if k = 0 ∧ fld v 30 27 ≠ old.rf (aTMR_CTL n) 30 27 then
      ((both s).freeIn (aTMR_CAPLO n) 0xFFFFFFFF).freeIn (aTMR_CAPHI n) 0xFFFFFFFF
    else s
  else s

/-- A write of TUNE of an aerial that an exchange drives, or of LF_REPOLLn while an exchange uses it, makes that exchange's
result unpredictable; LF_POLLCFG is used by polls only, in which no master runs. -/
def spoilLf (old : State) (a : Nat) (v : Word) (s : State) : State :=
  match old.lf.cur with
  | some x =>
    let tune := (List.range 12).any fun n =>
      decide (a = aLF_DRV n ∧ fld v 5 0 ≠ old.rf a 5 0) && (x.aerials.contains n) && !x.due
    let list := decide (aLF_REPOLL 0 ≤ a ∧ a ≤ aLF_REPOLL 15) && (x.slot || !x.repoll.isEmpty || lfRepoll x.cmd)
    s.onlyIf (tune || list) fun s =>
      { s with lf := { s.lf with cur := s.lf.cur.map fun x => { x with mixed := true } } }
  | none => s

/-- A write of KST_ARGm or of OP while a command runs makes its result and its target slot unpredictable. -/
def spoilKeyStore (a : Nat) (s : State) : State :=
  s.onlyIf (decide (a = aKST_CMD ∨ (aKST_ARG 0 ≤ a ∧ a ≤ aKST_ARG 3))) State.kstSpoil

/-- A write of TUNE of the port that transmits makes that frame's return loss and result unpredictable. -/
def spoilPort (old : State) (n : Nat) (v : Word) (s : State) : State :=
  match old.uwbCur with
  | some o =>
    s.onlyIf (decide (old.radio = 6 ∧ uwbCmd o = 1 ∧ profPort o.profile = n ∧ fld v 4 0 ≠ old.rf (aUWB_PORT n) 4 0)) fun s =>
      (s.freeIn (aUWB_PORT n) 0xFF0000).modOp o.id fun o => { o with mixed := true }
  | none => s

/-- CLEAR during a walk that has chosen a live record makes that operation's result unpredictable. -/
def spoilLive (old : State) (s : State) : State :=
  match old.uwbCur with
  | some o => s.onlyIf (o.fromLive && decide (old.radio ≠ 6)) fun s => s.modOp o.id fun o => { o with mixed := true }
  | none => s

/-- A write of a descriptor register, or of QUE_MVOWN, of a BUSY mover channel makes its registers and what its descriptors name
unpredictable. -/
def spoilMover (old : State) (a : Nat) (v : Word) (s : State) : State :=
  s.each old.mover fun s x =>
    s.onlyIf (decide (aQUE_MVDESC x.1 0 ≤ a ∧ a ≤ aQUE_MVDESC x.1 3) ||
        (decide (a = aQUE_MVOWN) && (bit v x.1 != old.rb aQUE_MVOWN x.1))) fun s =>
      { s with mover := s.mover.map fun y => if y.1 = x.1 then (y.1, { y.2 with mixed := true }) else y }

/-- A write of SEQCFG or SEQIN of a sequence that is pending or running makes that run's results unpredictable. -/
def spoilConverter (old : State) (a : Nat) (s : State) : State :=
  s.each [0, 1, 2, 3] fun s q =>
    if (a = aMON_SEQCFG q ∨ a = aMON_SEQIN q 0 ∨ a = aMON_SEQIN q 1) ∧
        (old.seqPending q ∨ old.mon.run.map (·.seq) = some q) then
      { s with mon := { s.mon with spoiled := putBit s.mon.spoiled q true } }
    else s

/-- A write of CWY_PKREF before the receipt makes CWY_PSTAT and the frame sent unpredictable, and one of CWY_PLAND while ARMED
the landing session's slot. -/
def spoilChain (old : State) (a : Nat) (s : State) : State :=
  if a = aCWY_PKREF ∧ old.cwy.receipts ≠ [] then s.spoilPcmd
  else if a = aCWY_PLAND ∧ old.rb aCWY_PLAND 31 = true then
    let x := s.freeBytes 128
    x.2.modSes (old.rf aCWY_PLAND 7 0) fun y => { y with slot := x.1 }
  else s

/-- A write of HOLD while WAVE is 1 makes the waveform's remaining length unpredictable; one of UWB_PROFILEn, the frame of an
accepted command that names it; STORM_N within a second of an alarm, FLT_CFG; and a monitor's CFG, BASE or LIM while EN, its
window's counts. -/
def spoilOther (old : State) (a : Nat) (v : Word) (s : State) : State :=
  if a = aREL_CFG ∧ old.rel.wave = true ∧ fld v 15 0 ≠ old.rf aREL_CFG 15 0 then
    let x := s.freeW
    { x.2 with rel := { x.2.rel with endAt := s.now + x.1.toNat } }
  else if aUWB_PROFILE 0 ≤ a ∧ a ≤ aUWB_PROFILE 7 then
    let n := (a - aUWB_PROFILE 0) / 4
    let x := s.freeW
    let names := fun (o : UwbOp) => decide (o.chan < 128 ∧ fld o.w0 26 24 = n)
    if (old.uwb.ops.any names) = true then
      { x.2 with uwb := { x.2.uwb with ops := x.2.uwb.ops.map fun o => (if names o then { o with profile := x.1 } else o) } }
    else s
  else if a = aPRF_GMASK ∨ (a = aPRF_GCTL ∧ bit v 17 ≠ old.rb aPRF_GCTL 17) then { s with dumpWrote := some s.now }
  else if a = aFLT_CFG ∧ (old.flt.times.any (fun t => decide (old.sys < t + secs 1))) = true then s.freeIn aFLT_CFG 0xFF
  else if aPRF_PMCFG 0 ≤ a ∧ a < aPRF_PMCFG 6 ∧ (a - aPRF_PMCFG 0) % 32 < 12 ∧
      old.rb (aPRF_PMCFG ((a - aPRF_PMCFG 0) / 32)) 31 = true then
    let n := (a - aPRF_PMCFG 0) / 32
    let x := s.freeW
    let y := x.2.freeW
    { y.2 with prfAcc := tset (tset y.2.prfAcc n x.1 0) (16 + n) y.1 0 }
  else s

/-- A write of TAG_HBUF before DONE of a running host command makes TAG_HBUF and the record named unpredictable. -/
def spoilTag (old : State) (a : Nat) (s : State) : State :=
  match old.tag.hostBusy with
  | some (_, n) => s.onlyIf (decide (aTAG_HBUF 0 ≤ a ∧ a ≤ aTAG_HBUF 255)) fun s => s.spoilHost n
  | none => s

/-- The host mistakes that the chapters list for register writes: what each names becomes unpredictable, and nothing else
changes (R14, R15; log entry 14). `old` is the state before the write. -/
def spoil (old : State) (a : Nat) (v : Word) (s : State) : State :=
  match (a - 0x40000000) / 0x10000 with
  | 3 => spoilLf old a v s
  | 4 => s.onlyIf (decide (a = aNFC_TXCFG ∨ a = aNFC_LPCD)) State.nfcSpoil
  | 11 => spoilKeyStore a s
  | 13 => s.onlyIf (decide (a = aAES_RECSEL)) fun s => { s with eng := { s.eng with recMixed := old.eng.recRead } }
  | 16 => spoilMover old a v s
  | 5 => spoilTag old a s
  | 8 => spoilChannel old a s
  | 17 => spoilTimer old a v s
  | 18 => spoilConverter old a s
  | 19 => spoilChain old a s
  | 10 => spoilOther old a v s
  | 6 =>
    if aUWB_PORT 0 ≤ a ∧ a ≤ aUWB_PORT 3 then spoilPort old ((a - aUWB_PORT 0) / 4) v s
    else if a = aUWB_LIVE ∧ bit v 8 = true then spoilLive old s
    else spoilOther old a v s
  | 21 => spoilOther old a v s
  | 22 => spoilOther old a v s
  | _ => s

/-- The effect of a granted write of a register. -/
def regWrite (a : Nat) (v : Word) (s : State) : State := spoil s a v (plainWrite a v s)

/-! ### Reading registers (R12) -/

/-- The timer whose capture pair an offset within the timers' registers belongs to: the low half, or the high half. -/
def capOf (a : Nat) (off : Nat) : Option Nat :=
  if aTMR_CTL 0 ≤ a ∧ a < aTMR_CTL 16 ∧ (a - aTMR_CTL 0) % 64 = off then some ((a - aTMR_CTL 0) / 64) else none

/-- The high half that a read of a low half latches: its address and its word now. -/
def State.partner (s : State) (a : Nat) : Option (Nat × Word) :=
  if a = aTMR_SYSTIME_LO then some (aTMR_SYSTIME_HI, w32 (s.sys / 2 ^ 32))
  else if a = aUWB_TSNOW_LO then some (aUWB_TSNOW_HI, w32 (s.tsNow / 2 ^ 32))
  else if a = aDIST_ALIGN_LO then some (aDIST_ALIGN_HI, s.reg aDIST_ALIGN_HI)
  else if a = aREL_CNT_LO then some (aREL_CNT_HI, s.counter 45)
  else (capOf a 0x20).map fun n => (aTMR_CAPHI n, s.reg (aTMR_CAPHI n))

/-- A high half. -/
def isHigh (a : Nat) : Bool :=
  decide (a = aTMR_SYSTIME_HI ∨ a = aUWB_TSNOW_HI ∨ a = aDIST_ALIGN_HI ∨ a = aREL_CNT_HI) || (capOf a 0x24).isSome

/-- A read of TRNG_RAW: samples only at debug level 3, from sources 0 to 7 (R324). -/
def rawRead (m : Master) (s : State) : State :=
  if s.peat.debugLevel = 3 ∧ s.rf aTRNG_CTL 11 8 < 8 then let x := s.freeW; x.2.answer m x.1 else s.answer m 0

/-- A read of a low half. -/
def lowRead (m : Master) (a : Nat) (hi : Nat × Word) (s : State) : State :=
  let s := (s.setLatch m hi.1 hi.2).answer m (readView s a)
  match capOf a 0x20 with
  | some n => { s with capUnread := putBit s.capUnread n false }
  | none => s

/-- A read of AES_RECTX or AES_RECRX. Where AES_RECSEL was written between the two, what is read is free (a host mistake). -/
def recReadout (m : Master) (a : Nat) (s : State) : State :=
  let mixed := decide (a = aAES_RECRX) && s.eng.recMixed
  let x := s.freeW
  let v := if mixed then x.1 else readView s a
  let s := s.onlyIf mixed fun _ => x.2
  { s with eng := { s.eng with recRead := decide (a = aAES_RECTX), recMixed := false } }.answer m v

/-- The effect of a granted read of a register: what the master reads, and what the read changes. -/
def regRead (m : Master) (a : Nat) (s : State) : State :=
  if a = aTRNG_OUT then trngOut m s
  else if a = aTRNG_RAW then rawRead m s
  else if a = aAES_RECTX ∨ a = aAES_RECRX then recReadout m a s
  else if isHigh a then s.answer m (s.latched m a)
  else match s.partner a with
    | some hi => lowRead m a hi s
    | none => s.answer m (readView s a)

/-! ### Accesses of the masters -/

/-- The queue, lane and offset of a window address. -/
def windowOf (a : Nat) : Nat × Nat × Nat := ((a - 0x60000000) / 0x1000, a % 0x1000 / 0x800, a % 0x800)

/-- The effect of a granted read of a window register. -/
def windowRead (m : Master) (q lane off : Nat) (s : State) : State :=
  if off = 0 then popFor m q lane s
  else if off = 4 ∨ off = 8 then s.answer m (s.latched m (windowAddr q lane off))
  else s.answer m 0

/-- The effect of a granted write of a window register. -/
def windowWrite (m : Master) (q lane off : Nat) (v : Word) (s : State) : State :=
  match off with
  | 0x10 => pushTag m (laneNo q lane) v s
  | 0x14 => pushData m (laneNo q lane) v s
  | 0x18 => pushEmpty m (laneNo q lane) v s
  | 0x1C => s.onlyIf (bit v 0) fun s => (s.rewindOpen (laneNo q lane) (portNo m)).drainWaiting
  | _ => s

/-- A refused access to a memory: it is recorded, a read returns 0, and a core takes its access-fault exception (R32). -/
def State.refuseMem (s : State) (m : Master) (write : Bool) (a : Nat) : State :=
  ((s.refuse m write a).accessFault m).answer m 0

/-- A 32-bit read by a master that carries given rights; the word it returns is the master's read data. -/
def busRead (m rights : Master) (user : Bool) (a : Nat) (s : State) : State :=
  match regionOf a with
  | .registers =>
    match judge s rights user a false with
    | .granted => regRead m a (s.access m rights user a 1)
    | .reserved => s.answer m 0
    | .refused => (s.refuseReg m false a).answer m 0
  | .windows =>
    let w := windowOf a
    (s.answer m 0).windowAs m rights user false w.1 w.2.1 w.2.2 (windowRead m w.1 w.2.1 w.2.2)
  | .rom => if s.mayReach m rights false a then let x := s.freeW; (x.2.access m rights user a 1).answer m x.1 else s.refuseMem m false a
  | .envm => if s.mayReach m rights false a then let x := s.freeW; (x.2.access m rights user a 1).answer m x.1 else s.refuseMem m false a
  | _ =>
    if s.mayReach m rights false a then (s.access m rights user a 1).answer m (w32 (ofLE (s.memRead a 4)))
    else s.refuseMem m false a

/-- A write of the credential table outside R251, whose writes Peat's operations make: the entry is unpredictable (a host mistake of
the chapter). -/
def State.tableStore (s : State) (a : Nat) : State :=
  let x := s.freeBytes 16
  x.2.memWrite (a / 16 * 16) x.1

/-- A 32-bit write by a master that carries given rights. An address that is no multiple of 4 is a reserved offset of the register
region, and four bytes from there in a memory (log entry 81). -/
def busWrite (m rights : Master) (user : Bool) (a : Nat) (v : Word) (s : State) : State :=
  match regionOf a with
  | .registers => s.writeAs m rights user a (regWrite a v)
  | .windows =>
    let w := windowOf a
    s.windowAs m rights user true w.1 w.2.1 w.2.2 (windowWrite m w.1 w.2.1 w.2.2 v)
  | .credTable =>
    if s.mayReach m rights true a then (s.access m rights user a 2).tableStore a else (s.refuse m true a).accessFault m
  | _ =>
    if s.mayReach m rights true a then ((s.access m rights user a 2).memWrite a (toLE 4 v.toNat)).omTouch a 4
    else (s.refuse m true a).accessFault m

/-- The word that a master last read. -/
def State.lastRead (s : State) (m : Master) : Word := tget s.readOut (portNo m) 0

/-- A low half of an RL pair, the pops apart. -/
def isLow (a : Nat) : Bool :=
  decide (a = aTMR_SYSTIME_LO ∨ a = aUWB_TSNOW_LO ∨ a = aDIST_ALIGN_LO ∨ a = aREL_CNT_LO) || (capOf a 0x20).isSome

/-- Peat's protection of memory keeps the running applet from an address: it reaches only its own code and data and its
persistent block (R86). User mode of Peat is the applet's. -/
def State.keptFrom (s : State) (m : Master) (user : Bool) (a : Nat) : Bool :=
  match s.peat.applet with
  | some r => decide (m = .peat) && user &&
      !(decide (persistAddr r.inst ≤ a ∧ a < persistAddr r.inst + 0x200) ||
        s.peat.residents.any fun x => decide (x.inst = r.inst ∧ x.base ≤ a ∧ a < x.base + x.size))
  | none => false

/-- A register write by a core, or by another master (R9). A write that the applet may not make ends its call (R86). -/
def registerWrite (m : Master) (user : Bool) (a : Nat) (v : Word) (s : State) : State :=
  if s.up m then
    (if s.keptFrom m user a then (s.accessFault m).abortCall else busWrite m (rightsOf m) user a v s)
  else s

/-- A read of a low half of an RL pair (R12). -/
def rlLowRead (m : Master) (a : Nat) (s : State) : State :=
  if s.up m ∧ isLow a then busRead m (rightsOf m) false a s else s

/-- REGISTER_WRITE (R9). -/
def execRegisterWrite (m : Master) (priv : Privilege) (a : Nat) (v : Word) (s : State) : Result :=
  done (registerWrite m (decide (priv = .user)) a v s)
/-- RL_LOW_READ (R12). -/
def execRlLowRead (m : Master) (a : Nat) (s : State) : Result := done (rlLowRead m a s)

end Machine
end Sys2Proof
end

