-- ==== Sys2Proof/Machine/Mover.lean ====
section
/-!
DEFINITION. The mover's descriptors (R408 to R411): what each kind moves, its status, and the chain that goes on.
-/
namespace Sys2Proof
namespace Machine

/-- The words that n bytes span. -/
def wordsOf (n : Nat) : Nat := (n + 3) / 4

/-- A word of the map that a channel's rights give for reading or writing. Conditioned output has no read path for the mover
(R317). -/
def State.mvWordOk (s : State) (rights : Master) (write : Bool) (a : Nat) : Bool :=
  match regionOf a with
  | .registers => !decide (judge s rights false a write = .refused) && (write || !decide (a = aTRNG_OUT))
  | .windows => let w := windowOf a; !decide (s.judgeWindow rights write w.1 w.2.1 w.2.2 = .refused)
  | _ => s.mayReach .mover rights write a

/-- A span is reached word by word: block registers and queue windows. -/
def byWord (a : Nat) : Bool := decide (regionOf a = .registers ∨ regionOf a = .windows)

/-- n bytes of the map that a channel's rights give. -/
def State.mvSpanOk (s : State) (rights : Master) (write : Bool) (a n : Nat) : Bool :=
  decide (n = 0) || if byWord a then
    decide (regionOf (a + n - 1) = regionOf a) && (List.range (wordsOf n)).all fun k => s.mvWordOk rights write (a + 4 * k)
  else s.maySpan .mover rights write a n

/-- The first word of a span that is refused. -/
def State.mvRefusedAt (s : State) (rights : Master) (write : Bool) (a n : Nat) : Nat :=
  if s.mvWordOk rights write a then
    a + 4 * ((List.range (wordsOf n)).find? fun k => !s.mvWordOk rights write (a + 4 * k)).getD (wordsOf n - 1)
  else a

/-- Records a refused access of a mover channel (R9, R32). -/
def State.mvRefuse (s : State) (write : Bool) (a : Nat) : State :=
  if regionOf a = .windows then (s.refuse .mover write a).evt 0x10 5 1 else s.refuseReg .mover write a

/-- Offers accesses to consecutive words to the monitors. -/
def State.mvAccesses (s : State) (rights : Master) (a kind n : Nat) : State :=
  s.each (List.range n) fun s k => s.access .mover rights false (a + 4 * k) kind

/-- Offers accesses to one window register to the monitors. -/
def State.mvItems (s : State) (rights : Master) (n kind count : Nat) : State :=
  s.itemsBy .mover rights n kind count

/-- The bytes of a span, and the state that reading them leaves. -/
def State.mvLoad (s : State) (rights : Master) (a n : Nat) : Bytes × State :=
  if byWord a then
    (List.range (wordsOf n)).foldl (fun x k =>
      let s := busRead .mover rights false (a + 4 * k) x.2
      ((x.1 ++ toLE 4 (s.lastRead .mover).toNat).take n, s)) ([], s)
  else (s.memRead a n, s.mvAccesses rights a 1 (wordsOf n))

/-- Writes bytes to a span. -/
def State.mvStore (s : State) (rights : Master) (a : Nat) (b : Bytes) : State :=
  if byWord a then
    s.each (List.range (wordsOf b.length)) fun s k => busWrite .mover rights false (a + 4 * k) (bytesWord b k) s
  else
    let s := if regionOf a = .credTable then
        s.each (List.range ((a % 16 + b.length + 15) / 16)) fun s k => s.tableStore (a + 16 * k)
      else s.memWrite a b
    (s.omTouch a b.length).mvAccesses rights a 2 (wordsOf b.length)

/-- How a descriptor ends: its status, the bytes it moved, and the SEQ of the packet it popped or pushed. -/
structure MvEnd where
  status : Byte
  bytes : Nat
  seq : Option Nat
  deriving DecidableEq, Repr

/-- An end that moved nothing. -/
def mvNone (c : Byte) : MvEnd := ⟨c, 0, none⟩

/-- What an operation of the mover does: it ends, or it waits. -/
abbrev MvStep := Option MvEnd × State

/-- The bytes of a packet that reach the destination: all, or those before an item with a double-bit error. -/
def reached (p : Packet) : Bytes :=
  match p.ecc with
  | some k => (p.items.take k).flatMap itemBytes
  | none => packetBytes p

/-- Q2M: the packet at the head of SRCQ goes to memory. -/
def mvQ2M (rights : Master) (d : List Word) (s : State) : MvStep :=
  let n := s.mvPopLane rights (mvSrcq d)
  let a := (wordAt d 1).toNat
  if mvLen d = 0 then (some (mvNone cLenZero), s)
  else match s.headPacket n with
    | none => if mvWait d then (none, s) else (some (mvNone cLenZero), s)
    | some p =>
      let len := (packetBytes p).length
      if mvLen d < len then (some (mvNone cAborted), s)
      else if s.mvSpanOk rights true a len = false then
        (some (mvNone cAuthFail), s.mvRefuse true (s.mvRefusedAt rights true a len))
      else
        let b := reached p
        let s := ((s.takeHead n).countBroken n p).mvItems rights n 3 p.items.length
        (some ⟨if packetBroken p then cAborted else cOk, b.length, some p.seq.toNat⟩, s.mvStore rights a b)

/-- Pushes a packet for a channel: it waits for room, and is rewound where it can never fit or fails a check at its
commit (R397, R399, R411). -/
def mvPush (rights : Master) (n len : Nat) (p : Packet) (took : State → State) (s : State) : MvStep :=
  if s.capacity n < p.items.length then (some (mvNone cAborted), s.drop n)
  else if s.hwRoom n p = false then (none, s)
  else if commitOk s n (decide (rights = .peat)) p then
    let seq := s.nextSeq n
    let s := ((took s).tryCommit n (decide (rights = .peat)) p).mvItems rights n 4 p.items.length
    (some ⟨cOk, len, some seq⟩, s.pumpQ8)
  else (some (mvNone cAuthFail), (took s).drop n)

/-- The window of a lane, as a refused push records it. -/
def pushAddr (n : Nat) : Nat := windowAddr (qOf n) (if 16 ≤ n then 1 else 0) 0x10

/-- M2Q: LEN bytes become one packet. -/
def mvM2Q (rights : Master) (d : List Word) (s : State) : MvStep :=
  let n := s.mvPushLane rights (mvDstq d)
  let a := (wordAt d 1).toNat
  if s.mayQueue rights true (mvDstq d) (if 16 ≤ n then 1 else 0) = false then
    (some (mvNone cAuthFail), s.mvRefuse true (pushAddr n))
  else if s.mvSpanOk rights false a (mvLen d) = false then
    (some (mvNone cAuthFail), s.mvRefuse false (s.mvRefusedAt rights false a (mvLen d)))
  else if s.capacity n < max 1 (wordsOf (mvLen d)) then (some (mvNone cAborted), s.drop n)
  else if s.room n < max 1 (wordsOf (mvLen d)) + s.heldBack n ∨ 8 ≤ s.openCount n then (none, s)
  else
    let x := s.mvLoad rights a (mvLen d)
    mvPush rights n (mvLen d) (bytesPacket (fld (wordAt d 0) 19 18) (fld (wordAt d 0) 15 8) x.1) id x.2

/-- Q2Q: the packet at the head of SRCQ goes to DSTQ with its tag fields. -/
def mvQ2Q (rights : Master) (d : List Word) (s : State) : MvStep :=
  let n := s.mvPopLane rights (mvSrcq d)
  let k := s.mvPushLane rights (mvDstq d)
  if mvLen d = 0 then (some (mvNone cLenZero), s)
  else match s.headPacket n with
    | none => if mvWait d then (none, s) else (some (mvNone cLenZero), s)
    | some p =>
      let len := (packetBytes p).length
      if mvLen d < len then (some (mvNone cAborted), s)
      else if s.mayQueue rights true (mvDstq d) (if 16 ≤ k then 1 else 0) = false then
        (some (mvNone cAuthFail), s.mvRefuse true (pushAddr k))
      else if packetBroken p then
        (some ⟨cAborted, 0, some p.seq.toNat⟩, (((s.takeHead n).countBroken n p).mvItems rights n 3 p.items.length).drop k)
      else mvPush rights k len p (fun s => (s.takeHead n).mvItems rights n 3 p.items.length) s

/-- M2M: LEN bytes are copied. -/
def mvM2M (rights : Master) (d : List Word) (s : State) : MvStep :=
  let a := (wordAt d 1).toNat
  let b := (wordAt d 3).toNat
  if mvLen d = 0 then (some (mvNone cLenZero), s)
  else if s.mvSpanOk rights false a (mvLen d) = false then
    (some (mvNone cAuthFail), s.mvRefuse false (s.mvRefusedAt rights false a (mvLen d)))
  else if s.mvSpanOk rights true b (mvLen d) = false then
    (some (mvNone cAuthFail), s.mvRefuse true (s.mvRefusedAt rights true b (mvLen d)))
  else
    let x := s.mvLoad rights a (mvLen d)
    (some ⟨cOk, mvLen d, none⟩, x.2.mvStore rights b x.1)

/-- A descriptor's operation (R408). -/
def mvRun (rights : Master) (d : List Word) (s : State) : MvStep :=
  match mvKind d with
  | 1 => mvQ2M rights d s
  | 2 => mvM2Q rights d s
  | 3 => mvQ2Q rights d s
  | 4 => mvM2M rights d s
  | _ => (some (mvNone cAuthFail), s)

/-- A chain goes on with the descriptor at NEXT; one that may not be read ends it with AUTH_FAIL. -/
def State.mvNext (s : State) (ch : Nat) (rights : Master) (d : List Word) : State :=
  let a := (wordAt d 3).toNat / 16 * 16
  if s.mvSpanOk rights false a 16 then
    let x := s.mvLoad rights a 16
    x.2.moverBegin ch (toWords x.1)
  else (s.mvRefuse false (s.mvRefusedAt rights false a 16)).moverEnd ch cAuthFail 0

/-- A descriptor ends: its status, its event, and the next one of its chain where it did not fail (R410). -/
def State.mvEnded (s : State) (ch : Nat) (rights : Master) (d : List Word) (e : MvEnd) : State :=
  let s := match e.seq with
    | some q => s.setReg (aQUE_MVSEQ ch) (w32 q)
    | none => s
  if mvChain d ∧ isFail e.status = false then
    let s := (s.moverStat ch e.status true false e.bytes).moverEvent ch e.status
    if s.rb (aQUE_MVCTL ch) 2 && s.laneWaits 2 then { s with mover := s.mover.map fun x => if x.1 = ch then (ch, { x.2 with held := true }) else x }
    else s.mvNext ch rights d
  else s.moverEnd ch e.status e.bytes

/-- A chain whose event waited for room goes on once it is committed (R399, R410). -/
def State.mvHeld (s : State) (ch : Nat) : State :=
  match tfind s.mover ch with
  | some r => if r.held && !s.laneWaits 2 then s.mvNext ch (s.moverRights ch) r.desc else s
  | none => s

/-- The payload words of a lane's packets become free. -/
def State.freeLane (s : State) (n : Nat) : State :=
  let l := s.lane n
  let x := s.freeBytes (4 * itemCount l.committed)
  let ws := toWords x.1
  let go := fun (acc : List Packet × Nat) (p : Packet) =>
    (acc.1 ++ [{ p with items := p.items.mapIdx fun i it => { it with data := wordAt ws (acc.2 + i) } }], acc.2 + p.items.length)
  x.2.setLane n { l with committed := (l.committed.foldl go ([], 0)).1 }

/-- The end of a descriptor whose channel's registers were written while it was BUSY: the memory and the queues that it names,
and the channel's registers, are free (a host mistake of the chapter). -/
def State.mvMixed (s : State) (ch : Nat) (rights : Master) (d : List Word) : State :=
  let a := (wordAt d (if mvKind d = 4 then 3 else 1)).toNat
  let n := mvLen d
  let s := if (mvKind d = 1 ∨ mvKind d = 4) ∧ 0 < n ∧ byWord a = false ∧ s.maySpan .mover rights true a n = true then
      let x := s.freeBytes n
      (x.2.memWrite a x.1).omTouch a n
    else s
  let s := s.onlyIf (decide (mvKind d = 1 ∨ mvKind d = 3)) fun s => s.freeLane (s.mvPopLane rights (mvSrcq d))
  let s := s.onlyIf (decide (mvKind d = 2 ∨ mvKind d = 3)) fun s => s.freeLane (s.mvPushLane rights (mvDstq d))
  let s := { s with mover := tdel s.mover ch }
  let s := s.each (List.range 4) fun s w => s.freeIn (aQUE_MVDESC ch w) 0xFFFFFFFF
  (s.freeIn (aQUE_MVSTAT ch) 0xFFCFFFFF).freeIn (aQUE_MVSEQ ch) 0xFFFF

/-- The descriptor in progress completes; one that waits for room, or for a packet, waits on. -/
def descriptorDone (ch : Nat) (s : State) : State :=
  let s := s.mvHeld ch
  match tfind s.mover ch with
  | none => s
  | some r =>
    if r.armed ∨ r.held ∨ s.resumed = false then s
    else if r.mixed then s.mvMixed ch (s.moverRights ch) r.desc
    else
      let rights := s.moverRights ch
      let x := mvRun rights r.desc s
      match x.1 with
      | some e => x.2.mvEnded ch rights r.desc e
      | none =>
        let empty := (x.2.headPacket (x.2.mvPopLane rights (mvSrcq r.desc))).isNone
        { x.2 with mover := tput x.2.mover ch { r with armed := mvWait r.desc && empty } }

/-- DESCRIPTOR_DONE (R410). -/
def execDescriptorDone (ch : Nat) (s : State) : Result := done (descriptorDone ch s)

end Machine
end Sys2Proof
end

