-- ==== Sys2Proof/Machine/Host.lean ====
section
/-!
DEFINITION. The host port (R34, R35, R62, R429 to R437): its transactions, their checks, the write buffers, and the words
that they read and write.
-/
namespace Sys2Proof
namespace Machine

/-! ### A transaction's fields (R430) -/

/-- OP of the command byte. -/
def hOp (c : Byte) : Nat := c.toNat / 64
/-- S. -/
def hSpace (c : Byte) : Bool := c.getLsbD 5
/-- WALK. -/
def hWalk (c : Byte) : Nat := c.toNat / 8 % 4
/-- The address of word k. -/
def hAddr (walk a k : Nat) : Nat := if walk = 0 then a + 4 * k else if walk = 1 then a else a + 4 * (k % 2)

/-- The chip select of a unit that has not resumed: the byte 0x01, and a wake (R22, R34, R431). -/
def State.notReady (s : State) (n : Nat) : State :=
  ({ s with hif := { s.hif with miso := 0x01 :: zeros (n - 1) } }).onlyIf (decide (s.power.mode = PowerMode.standing)) fun s => s.resume 5

/-- What the device sends while the host sends: the status byte, then zeros. -/
def State.sends (s : State) (b : Bytes) : State := { s with hif := { s.hif with miso := b } }

/-- Refuses a transaction as a whole: its code in LAST, ERR, and the counter whose field begins at bit `lo` (R432). -/
def State.refuseTxn (s : State) (code : Byte) (lo : Nat) : State :=
  ((((s.srf aHIF_STATUS 15 8 code.toNat).srb aHIF_ATTN 2 true).bump aHIF_ERR (lo + 7) lo 1)).ended 0x14 code

/-- The first row of R432 that applies to a READ or WRITE whose size is right: the code and the counter. -/
def txnRefusal (s : State) (write : Bool) (m : Bytes) : Option (Byte × Nat) :=
  let c := m.headD 0
  let len := byteAt m 4
  let body := m.take (if write then 5 + 4 * len else 5)
  if ofLE (slice m body.length 4) ≠ crc32c body then some (cAuthFail, 0)
  else if len = 0 then some (cLenZero, 8)
  else if hWalk c = 3 ∨ (hWalk c = 2 ∧ len % 2 = 1) ∨ c.toNat % 8 ≠ 0 ∨ byteAt m 1 % 4 ≠ 0 ∨ 64 < len then some (cAuthFail, 8)
  else if write ∧ 2 ≤ s.hif.wbuf.length then some (cAborted, 16)
  else none

/-! ### Words (R62, R434) -/

/-- The port serves only HIF_STATUS to HIF_RECDATA: before the unit resumes, and in the safe state. -/
def State.hifOnly (s : State) : Bool := !s.resumed || s.power.safeState

/-- A word outside what the port serves, or beyond the space. -/
def State.wordOut (s : State) (sp : Bool) (a : Nat) : Bool :=
  decide (0x1000000 ≤ a) || (s.hifOnly && !(!sp && decide (0x140000 ≤ a ∧ a ≤ 0x140018)))

/-- The map's address of a word. -/
def hostAddr (sp : Bool) (a : Nat) : Nat := (if sp then 0x60000000 else 0x40000000) + a

/-- Refuses a word of the host's: HIF_REFUSED shows its space. -/
def State.refuseWord (s : State) (sp write : Bool) (a : Nat) : State :=
  ((s.refuse .host write (hostAddr sp a)).srb aHIF_REFUSED 24 sp).answer .host 0

/-- The block that the channels of a front-end class serve. -/
def feBlock (c : Nat) : Nat :=
  match c with
  | 1 => 3
  | 2 => 3
  | 3 => 4
  | 4 => 5
  | 5 => 6
  | 6 => 19
  | _ => 0

/-- The policy grants the host an access to a block's registers while a channel of that block runs (a host mistake, R36). -/
def State.grantMisused (s : State) (sp write : Bool) (a : Nat) : Bool :=
  let b := a / 0x10000
  !sp && decide (judge s .host false (hostAddr sp a) write = .granted) && hostGrants s (hostAddr sp a) write &&
    (List.range 124).any fun c => decide (s.chState c ≠ 0 ∧ feBlock (s.feClass c) = b ∧ b ≠ 0)

/-- A block's registers become free in the bits that a write can reach. -/
def State.spoilBlock (s : State) (b : Nat) : State :=
  s.each ((rowsOf b).filter fun r => decide (r.rw ||| r.w1c ≠ 0)) fun s r =>
    s.each (List.range r.count) fun s i => s.freeIn (r.base + i * r.stride) (r.rw ||| r.w1c)

/-- The host reads a word. -/
def hostReadWord (sp : Bool) (a : Nat) (s : State) : State :=
  if s.wordOut sp a then s.refuseWord sp false a
  else
    let t := busRead .host .host false (hostAddr sp a) s
    t.onlyIf (s.grantMisused sp false a) fun t =>
      let x := (t.spoilBlock (a / 0x10000)).freeW
      x.2.answer .host x.1

/-- The host writes a word. A kick of the watchdog through the policy makes its period unpredictable (a host mistake, R74). -/
def hostWriteWord (sp : Bool) (a : Nat) (v : Word) (s : State) : State :=
  if s.wordOut sp a then s.refuseWord sp true a
  else
    let kick := decide (hostAddr sp a = aSYS_WDT_KICK ∧ judge s .host false aSYS_WDT_KICK true = .granted)
    let t := busWrite .host .host false (hostAddr sp a) v s
    let t := t.onlyIf (s.grantMisused sp true a) fun t => t.spoilBlock (a / 0x10000)
    t.onlyIf kick fun t => let x := t.freeW; x.2.modPower fun p => { p with wdtAt := s.now - x.1.toNat }

/-! ### Writes (R433, R435) -/

/-- Swaps each pair of a list: a PAIR write applies the payload before the tag word. -/
def swapPairs {α : Type} : List α → List α
  | a :: b :: t => b :: a :: swapPairs t
  | l => l

/-- The accesses of a buffered write, in order: address and word. -/
def bufWords (b : HostBuf) : List (Nat × Word) :=
  let l := (List.range b.words.length).map fun k => (hAddr b.walk b.a k, wordAt b.words k)
  if b.walk = 2 then swapPairs l else l

/-- Applies the oldest buffered write under the policy at its acceptance (R35). -/
def applyBuf (s : State) : State :=
  match s.hif.wbuf with
  | [] => s
  | b :: t =>
    if s.hifReady then
      let s := { s with hif := { s.hif with wbuf := t, judged := some b.policy } }
      let s := s.each (bufWords b) fun s x => hostWriteWord b.s x.1 x.2 s
      { s with hif := { s.hif with judged := none } }
    else s

/-- A WRITE transaction of the bytes that the host sends. -/
def hostWriteTxn (m : Bytes) (s : State) : State :=
  if s.hifReady = false then s.notReady m.length
  else
    let s := s.sends (s.statusByte :: zeros (m.length - 1))
    if m.length < 9 ∨ m.length ≠ 4 * byteAt m 4 + 9 then s.refuseTxn cAuthFail 8
    else match txnRefusal s true m with
      | some x => s.refuseTxn x.1 x.2
      | none =>
        let c := m.headD 0
        let b : HostBuf := ⟨hSpace c, hWalk c, ofLE (slice m 1 3), toWords (slice m 5 (4 * byteAt m 4)), s.policy 1⟩
        (({ s with hif := { s.hif with wbuf := s.hif.wbuf ++ [b] } }).active).ended 0x14 cOk

/-! ### Reads (R435, R436, R472) -/

/-- A register whose reading is no activity (R47). -/
def quietWord (sp : Bool) (a : Nat) : Bool :=
  !sp && (decide (0x140000 ≤ a ∧ a ≤ 0x140014) || decide (0x100010 ≤ a ∧ a < 0x1000D8) ||
    decide (a = 0x50000 ∨ a = 0x50008 ∨ a = 0x5000C))

/-- How many words the device has read when the host ends the transaction after n bytes: the first after the header, each
other while the one before it is shifted out. -/
def wordsRead (len wait n : Nat) : Nat :=
  ((List.range len).filter fun k => decide (if k = 0 then 9 < n else 10 + wait + 4 * (k - 1) < n)).length

/-- Reads words of a walk: their bytes and the state they leave. -/
def readWords (sp : Bool) (walk a : Nat) (n : Nat) (s : State) : Bytes × State :=
  (List.range n).foldl (fun x k =>
    let s := hostReadWord sp (hAddr walk a k) x.2
    (x.1 ++ toLE 4 (s.lastRead .host).toNat, s)) ([], s)

/-- The reply of a READ after its header: wait bytes, the marker, the data, and their CRC, whose complement tells that a
packet's check failed. -/
def readReply (wait : Nat) (data : Bytes) (len : Nat) (broken : Bool) : Bytes :=
  let d := slice data 0 (4 * len)
  let c := crc32c d
  zeros wait ++ [0x5A] ++ d ++ toLE 4 (if broken then Nat.xor c 0xFFFFFFFF else c)

/-- A READ transaction of n bytes in all, of which the host sends the header. Of a read of the queue windows that ends early, how
many words are read is free (a host mistake). -/
def hostReadTxn (m : Bytes) (s : State) : State :=
  if s.hifReady = false then s.notReady m.length
  else
    let head := s.statusByte :: zeros (m.length - 1)
    if m.length < 9 then (s.sends head).refuseTxn cAuthFail 8
    else match txnRefusal s false m with
      | some x => (s.sends head).refuseTxn x.1 x.2
      | none =>
        let c := m.headD 0
        let a := ofLE (slice m 1 3)
        let len := byteAt m 4
        let quiet := (List.range len).all fun k => quietWord (hSpace c) (hAddr (hWalk c) a k)
        let s := (applyBuf (applyBuf s)).onlyIf (!quiet) State.active
        let w := s.freeW
        let wait := 1 + w.1.toNat % 320
        let integ := w.2.rf aFLT_INTEG 15 0
        let early := hSpace c && decide (m.length < 14 + wait + 4 * len)
        let f := w.2.freeW
        let n := if early then f.1.toNat % (len + 1) else wordsRead len wait m.length
        let x := readWords (hSpace c) (hWalk c) a n (if early then f.2 else w.2)
        let reply := readReply wait x.1 len (decide (x.2.rf aFLT_INTEG 15 0 ≠ integ))
        (x.2.sends ((head.take 9 ++ reply).take m.length)).ended 0x14 cOk

/-- A STATUS transaction. -/
def hostStatusTxn (s : State) : State :=
  if s.hifReady then (s.sends [s.statusByte]).ended 0x14 cOk else s.notReady 1

/-- HOST_READ (R435): the transaction's bytes on HOST_MOSI, the zeros of the reply's time among them. -/
def execHostRead (mosi : Bytes) (s : State) : Result :=
  done (if mosi ≠ [] ∧ hOp (mosi.headD 0) = 0 then hostReadTxn mosi s else s)
/-- HOST_WRITE (R435). -/
def execHostWrite (mosi : Bytes) (s : State) : Result :=
  done (if mosi ≠ [] ∧ hOp (mosi.headD 0) = 1 then hostWriteTxn mosi s else s)
/-- HOST_STATUS (R431). -/
def execHostStatus (cmd : Byte) (s : State) : Result := done (if 2 ≤ hOp cmd then hostStatusTxn s else s)
/-- WRITE_BUFFER_APPLY (R435). -/
def execWriteBufferApply (s : State) : Result := done (applyBuf s)

end Machine
end Sys2Proof
end

