-- ==== Sys2Proof/Machine/Dispatch.lean ====
section
/-! DEFINITION. The meaning of each command: one direct call per constructor of Instr. -/

namespace Sys2Proof
namespace Machine

/-- The effect of a command on everything but the queue of waiting commands. -/
def exec (i : Instr) (s : State) : Host.Outcome State Fault Refusal :=
  match i with
  | .start bootSel cwyHead => Sys2Proof.Machine.execStart bootSel cwyHead s
  | .rootAttempt array => Sys2Proof.Machine.execRootAttempt array s
  | .lineActivityWake p => Sys2Proof.Machine.execLineActivityWake p s
  | .stageEntry n => Sys2Proof.Machine.execStageEntry n s
  | .heronPoll lf ping ext opens shorts => Sys2Proof.Machine.execHeronPoll lf ping ext s opens shorts
  | .activity m => Sys2Proof.Machine.execActivity m s
  | .enterDs m => Sys2Proof.Machine.execEnterDs m s
  | .sleep m => Sys2Proof.Machine.execSleep m s
  | .kick m => Sys2Proof.Machine.execKick m s
  | .debugChallenge jtag => Sys2Proof.Machine.execDebugChallenge jtag s
  | .debugToken token => Sys2Proof.Machine.execDebugToken token s
  | .ecallHash msg => Sys2Proof.Machine.execEcallHash msg s
  | .ecallRandomWords count => Sys2Proof.Machine.execEcallRandomWords count s
  | .ecallOwnCounters which advance => Sys2Proof.Machine.execEcallOwnCounters which advance s
  | .ecallKeyStore slot => Sys2Proof.Machine.execEcallKeyStore slot s
  | .ecallReply a0 a1 a2 a3 => Sys2Proof.Machine.execEcallReply a0 a1 a2 a3 s
  | .channelStart m ch => Sys2Proof.Machine.execChannelStart m ch s
  | .channelStop m ch => Sys2Proof.Machine.execChannelStop m ch s
  | .channelAbort m ch => Sys2Proof.Machine.execChannelAbort m ch s
  | .channelIdle ch => Sys2Proof.Machine.execChannelIdle ch s
  | .idleTimeout ss => Sys2Proof.Machine.execIdleTimeout ss s
  | .offerTimeout ss => Sys2Proof.Machine.execOfferTimeout ss s
  | .sessionFree ss => Sys2Proof.Machine.execSessionFree ss s
  | .lfWake ch => Sys2Proof.Machine.execLfWake ch s
  | .lfAuth ch => Sys2Proof.Machine.execLfAuth ch s
  | .lfLocate ch => Sys2Proof.Machine.execLfLocate ch s
  | .lfTune ch => Sys2Proof.Machine.execLfTune ch s
  | .lfMeasure ch => Sys2Proof.Machine.execLfMeasure ch s
  | .lfExchangeStart obs => Sys2Proof.Machine.execLfExchangeStart obs s
  | .lfAnswer reply => Sys2Proof.Machine.execLfAnswer reply s
  | .lfCarrierWrite m v => Sys2Proof.Machine.execLfCarrierWrite m v s
  | .fieldOn ch ext => Sys2Proof.Machine.execFieldOn ch ext s
  | .fieldOff ch => Sys2Proof.Machine.execFieldOff ch s
  | .activateA ch ext => Sys2Proof.Machine.execActivateA ch ext s
  | .activateB ch ext => Sys2Proof.Machine.execActivateB ch ext s
  | .exchange ch => Sys2Proof.Machine.execExchange ch s
  | .raw ch ext => Sys2Proof.Machine.execRaw ch ext s
  | .deselect ch => Sys2Proof.Machine.execDeselect ch s
  | .detect ch ext ping => Sys2Proof.Machine.execDetect ch ext ping s
  | .nfcCardAnswer reply => Sys2Proof.Machine.execNfcCardAnswer reply s
  | .tagAnticollision bits uid => Sys2Proof.Machine.execTagAnticollision bits uid s
  | .tagSelect uid => Sys2Proof.Machine.execTagSelect uid s
  | .tagPps dri dsi => Sys2Proof.Machine.execTagPps dri dsi s
  | .selectOther apdu => Sys2Proof.Machine.execSelectOther apdu s
  | .forwardedApdu apdu => Sys2Proof.Machine.execForwardedApdu apdu s
  | .islandAuth tid np macP waited30s => Sys2Proof.Machine.execIslandAuth tid np macP waited30s s
  | .readRecord p1 p2 => Sys2Proof.Machine.execReadRecord p1 p2 s
  | .updateRecord p1 p2 data vharvMv => Sys2Proof.Machine.execUpdateRecord p1 p2 data vharvMv s
  | .islandStatus vstoreMv => Sys2Proof.Machine.execIslandStatus vstoreMv s
  | .unknownApdu cla ins => Sys2Proof.Machine.execUnknownApdu cla ins s
  | .pulseEnd reserveOk => Sys2Proof.Machine.execPulseEnd reserveOk s
  | .tagIsack m v => Sys2Proof.Machine.execTagIsack m v s
  | .hostRecordRead m v => Sys2Proof.Machine.execHostRecordRead m v s
  | .hostRecordWrite m v => Sys2Proof.Machine.execHostRecordWrite m v s
  | .fieldWriteEnd vharvMv => Sys2Proof.Machine.execFieldWriteEnd s vharvMv
  | .uwbTx ch => Sys2Proof.Machine.execUwbTx ch s
  | .uwbRx ch => Sys2Proof.Machine.execUwbRx ch s
  | .uwbSleep ch => Sys2Proof.Machine.execUwbSleep ch s
  | .uwbStandby ch => Sys2Proof.Machine.execUwbStandby ch s
  | .uwbSynth ch => Sys2Proof.Machine.execUwbSynth ch s
  | .uwbCal ch => Sys2Proof.Machine.execUwbCal ch s
  | .uwbTune ch => Sys2Proof.Machine.execUwbTune ch s
  | .uwbWalkStart temp vdd12 => Sys2Proof.Machine.execUwbWalkStart temp vdd12 s
  | .uwbTransitionDone temp vdd12 meas => Sys2Proof.Machine.execUwbTransitionDone temp vdd12 meas s
  | .uwbArmPoint returnLoss => Sys2Proof.Machine.execUwbArmPoint returnLoss s
  | .uwbTxDone ts => Sys2Proof.Machine.execUwbTxDone ts s
  | .uwbFrameReceived ts payload fcsOk => Sys2Proof.Machine.execUwbFrameReceived ts payload fcsOk s
  | .uwbWindowClose preamble => Sys2Proof.Machine.execUwbWindowClose s preamble
  | .statusUpdate flashOk => Sys2Proof.Machine.execStatusUpdate s flashOk
  | .vbatRise lost => Sys2Proof.Machine.execVbatRise s lost
  | .backgroundRecal kind port temp vdd12 meas => Sys2Proof.Machine.execBackgroundRecal kind port temp vdd12 meas s
  | .liveClear m => Sys2Proof.Machine.execLiveClear m s
  | .respReceived fp => Sys2Proof.Machine.execRespReceived fp s
  | .reportReceived fp payload => Sys2Proof.Machine.execReportReceived fp payload s
  | .next m => Sys2Proof.Machine.execNext m s
  | .fusedRequest m v => Sys2Proof.Machine.execFusedRequest m v s
  | .mapSet m v => Sys2Proof.Machine.execMapSet m v s
  | .mapClr m v => Sys2Proof.Machine.execMapClr m v s
  | .mapqGo m v => Sys2Proof.Machine.execMapqGo m v s
  | .lockEnd target => Sys2Proof.Machine.execLockEnd target s
  | .relGo m => Sys2Proof.Machine.execRelGo m s
  | .relStop m => Sys2Proof.Machine.execRelStop m s
  | .generate m => Sys2Proof.Machine.execGenerate m s
  | .unwrap m => Sys2Proof.Machine.execUnwrap m s
  | .derive m => Sys2Proof.Machine.execDerive m s
  | .kstCopy m => Sys2Proof.Machine.execKstCopy m s
  | .loadEntry m => Sys2Proof.Machine.execLoadEntry m s
  | .storeEntry m => Sys2Proof.Machine.execStoreEntry m s
  | .erase m => Sys2Proof.Machine.execErase m s
  | .cntInc m => Sys2Proof.Machine.execCntInc m s
  | .cntSet m => Sys2Proof.Machine.execCntSet m s
  | .rootEnrol m array => Sys2Proof.Machine.execRootEnrol m array s
  | .epochAdv m => Sys2Proof.Machine.execEpochAdv m s
  | .poolComplete raw => Sys2Proof.Machine.execPoolComplete raw s
  | .healthFailure sources rct apt => Sys2Proof.Machine.execHealthFailure sources rct apt s
  | .restart m => Sys2Proof.Machine.execRestart m s
  | .portreqGo m v => Sys2Proof.Machine.execPortreqGo m v s
  | .trngOutRead m => Sys2Proof.Machine.execTrngOutRead m s
  | .reseedDue engine => Sys2Proof.Machine.execReseedDue engine s
  | .generatorStopped engine => Sys2Proof.Machine.execGeneratorStopped engine s
  | .aesJobCompletion mismatch => Sys2Proof.Machine.execAesJobCompletion mismatch s
  | .bnJobCompletion mismatch => Sys2Proof.Machine.execBnJobCompletion mismatch s
  | .hshJobCompletion mismatch => Sys2Proof.Machine.execHshJobCompletion mismatch s
  | .pushTag m q lane tag => Sys2Proof.Machine.execPushTag m q lane tag s
  | .pushData m q lane v => Sys2Proof.Machine.execPushData m q lane v s
  | .pushEmpty m q lane tag => Sys2Proof.Machine.execPushEmpty m q lane tag s
  | .cancel m q lane => Sys2Proof.Machine.execCancel m q lane s
  | .pop m q lane => Sys2Proof.Machine.execPop m q lane s
  | .flush m mask => Sys2Proof.Machine.execFlush m mask s
  | .pflush m mask => Sys2Proof.Machine.execPflush m mask s
  | .moverGo m ch => Sys2Proof.Machine.execMoverGo m ch s
  | .moverStop m ch => Sys2Proof.Machine.execMoverStop m ch s
  | .armedDescriptorStart ch => Sys2Proof.Machine.execArmedDescriptorStart ch s
  | .descriptorDone ch => Sys2Proof.Machine.execDescriptorDone ch s
  | .timerWrap n => Sys2Proof.Machine.execTimerWrap n s
  | .compare n c => Sys2Proof.Machine.execCompare n c s
  | .timerStep n => Sys2Proof.Machine.execTimerStep n s
  | .gpio1Edge rising => Sys2Proof.Machine.execGpio1Edge rising s
  | .cmpWrite m n c v => Sys2Proof.Machine.execCmpWrite m n c v s
  | .periodWrite m n v => Sys2Proof.Machine.execPeriodWrite m n v s
  | .sequenceGo m seqs => Sys2Proof.Machine.execSequenceGo m seqs s
  | .monAbort m => Sys2Proof.Machine.execMonAbort m s
  | .conversionSlotEnd code => Sys2Proof.Machine.execConversionSlotEnd code s
  | .hostRead mosi => Sys2Proof.Machine.execHostRead mosi s
  | .hostWrite mosi => Sys2Proof.Machine.execHostWrite mosi s
  | .hostStatus cmd => Sys2Proof.Machine.execHostStatus cmd s
  | .recdataWrite v => Sys2Proof.Machine.execRecdataWrite v s
  | .portUp p => Sys2Proof.Machine.execPortUp p s
  | .linkLoss p => Sys2Proof.Machine.execLinkLoss p s
  | .retransmissionTimeout p => Sys2Proof.Machine.execRetransmissionTimeout p s
  | .frameArrival p symbolsOk frame => Sys2Proof.Machine.execFrameArrival p symbolsOk frame s
  | .ack p seq => Sys2Proof.Machine.execAck p seq s
  | .nak p seq => Sys2Proof.Machine.execNak p seq s
  | .pcmdKey m v => Sys2Proof.Machine.execPcmdKey m v s
  | .pcmdClose m v => Sys2Proof.Machine.execPcmdClose m v s
  | .pcmdSwitch m v => Sys2Proof.Machine.execPcmdSwitch m v s
  | .prxNewClear m => Sys2Proof.Machine.execPrxNewClear m s
  | .ttExchange t1 => Sys2Proof.Machine.execTtExchange t1 s
  | .mark p t sent => Sys2Proof.Machine.execMark p t sent s
  | .ttFit link uncPs => Sys2Proof.Machine.execTtFit link uncPs s
  | .alarm sources detail => Sys2Proof.Machine.execAlarm sources detail s
  | .offlineAlarm sources detail => Sys2Proof.Machine.execOfflineAlarm sources detail s
  | .memoryDoubleBitError mem place reader => Sys2Proof.Machine.execMemoryDoubleBitError mem place reader s
  | .monitorWindowEnd n => Sys2Proof.Machine.execMonitorWindowEnd n s
  | .selWrite m b k v => Sys2Proof.Machine.execSelWrite m b k v s
  | .governorReading tj => Sys2Proof.Machine.execGovernorReading tj s
  | .registerWrite m priv addr v => Sys2Proof.Machine.execRegisterWrite m priv addr v s
  | .rlLowRead m addr => Sys2Proof.Machine.execRlLowRead m addr s
  | .timerTick n => Sys2Proof.Machine.execTimerTick n s
  | .lineLock p => Sys2Proof.Machine.execLineLock p s
  | .singleBitError mem => Sys2Proof.Machine.execSingleBitError mem s
  | .lfExchangeEnd tones peaks => Sys2Proof.Machine.execLfExchangeEnd tones peaks s
  | .uwbCondsSample temp vdd12 => Sys2Proof.Machine.execUwbCondsSample temp vdd12 s
  | .txBudgetRefill returnLoss => Sys2Proof.Machine.execTxBudgetRefill returnLoss s
  | .failureWindowExpiry target => Sys2Proof.Machine.execFailureWindowExpiry target s
  | .chargeEvent => Sys2Proof.Machine.execChargeEvent s
  | .vbatLow => Sys2Proof.Machine.execVbatLow s
  | .vdrvLow => Sys2Proof.Machine.execVdrvLow s
  | .brownOut => Sys2Proof.Machine.execBrownOut s
  | .resetN => Sys2Proof.Machine.execResetN s
  | .supplyTimeout => Sys2Proof.Machine.execSupplyTimeout s
  | .regEnRetry => Sys2Proof.Machine.execRegEnRetry s
  | .xoTimeout => Sys2Proof.Machine.execXoTimeout s
  | .wakeIn => Sys2Proof.Machine.execWakeIn s
  | .hostCsWake => Sys2Proof.Machine.execHostCsWake s
  | .rcTimerWake => Sys2Proof.Machine.execRcTimerWake s
  | .idleMsExpiry => Sys2Proof.Machine.execIdleMsExpiry s
  | .sedgeReloadDone => Sys2Proof.Machine.execSedgeReloadDone s
  | .sedgeWatchdogExpiry => Sys2Proof.Machine.execSedgeWatchdogExpiry s
  | .peatWatchdogExpiry => Sys2Proof.Machine.execPeatWatchdogExpiry s
  | .peatException => Sys2Proof.Machine.execPeatException s
  | .sessionOpen => Sys2Proof.Machine.execSessionOpen s
  | .sessionClose => Sys2Proof.Machine.execSessionClose s
  | .keyAgree => Sys2Proof.Machine.execKeyAgree s
  | .credCheck => Sys2Proof.Machine.execCredCheck s
  | .record => Sys2Proof.Machine.execRecord s
  | .byToken => Sys2Proof.Machine.execByToken s
  | .phone => Sys2Proof.Machine.execPhone s
  | .bind => Sys2Proof.Machine.execBind s
  | .unlockReq => Sys2Proof.Machine.execUnlockReq s
  | .startReq => Sys2Proof.Machine.execStartReq s
  | .startDeadline => Sys2Proof.Machine.execStartDeadline s
  | .keyGen => Sys2Proof.Machine.execKeyGen s
  | .keyImport => Sys2Proof.Machine.execKeyImport s
  | .attest => Sys2Proof.Machine.execAttest s
  | .cfgReplace => Sys2Proof.Machine.execCfgReplace s
  | .replacementCommit => Sys2Proof.Machine.execReplacementCommit s
  | .drainTimeout => Sys2Proof.Machine.execDrainTimeout s
  | .imageStage => Sys2Proof.Machine.execImageStage s
  | .imageActivate => Sys2Proof.Machine.execImageActivate s
  | .peatSwap => Sys2Proof.Machine.execPeatSwap s
  | .swapTimeout => Sys2Proof.Machine.execSwapTimeout s
  | .imageConfirm => Sys2Proof.Machine.execImageConfirm s
  | .lcsTransition => Sys2Proof.Machine.execLcsTransition s
  | .nonceExpiry => Sys2Proof.Machine.execNonceExpiry s
  | .debugPassword => Sys2Proof.Machine.execDebugPassword s
  | .pwdLockExpiry => Sys2Proof.Machine.execPwdLockExpiry s
  | .counterRead => Sys2Proof.Machine.execCounterRead s
  | .perfGrantQuery => Sys2Proof.Machine.execPerfGrantQuery s
  | .echo => Sys2Proof.Machine.execEcho s
  | .appletCall => Sys2Proof.Machine.execAppletCall s
  | .ecallSessionSlot => Sys2Proof.Machine.execEcallSessionSlot s
  | .appletBudgetExpiry => Sys2Proof.Machine.execAppletBudgetExpiry s
  | .appletAccessFault => Sys2Proof.Machine.execAppletAccessFault s
  | .lfWindowClose => Sys2Proof.Machine.execLfWindowClose s
  | .guardExpiry => Sys2Proof.Machine.execGuardExpiry s
  | .fwtExpiry => Sys2Proof.Machine.execFwtExpiry s
  | .fieldPresence => Sys2Proof.Machine.execFieldPresence s
  | .islandReady => Sys2Proof.Machine.execIslandReady s
  | .fieldLoss => Sys2Proof.Machine.execFieldLoss s
  | .tagReqa => Sys2Proof.Machine.execTagReqa s
  | .tagWupa => Sys2Proof.Machine.execTagWupa s
  | .tagRats => Sys2Proof.Machine.execTagRats s
  | .selectIsland => Sys2Proof.Machine.execSelectIsland s
  | .forwardAnswer => Sys2Proof.Machine.execForwardAnswer s
  | .forwardTimeout => Sys2Proof.Machine.execForwardTimeout s
  | .wtxFwtExpiry => Sys2Proof.Machine.execWtxFwtExpiry s
  | .unlock => Sys2Proof.Machine.execUnlock s
  | .vstoreCharged => Sys2Proof.Machine.execVstoreCharged s
  | .vstoreTimeout => Sys2Proof.Machine.execVstoreTimeout s
  | .isackTimeout => Sys2Proof.Machine.execIsackTimeout s
  | .islandDecision => Sys2Proof.Machine.execIslandDecision s
  | .islandGlitch => Sys2Proof.Machine.execIslandGlitch s
  | .lockLost => Sys2Proof.Machine.execLockLost s
  | .holdExpiry => Sys2Proof.Machine.execHoldExpiry s
  | .sleepAfterExpiry => Sys2Proof.Machine.execSleepAfterExpiry s
  | .roundStart => Sys2Proof.Machine.execRoundStart s
  | .plan => Sys2Proof.Machine.execPlan s
  | .planDeadline => Sys2Proof.Machine.execPlanDeadline s
  | .slotPlacement => Sys2Proof.Machine.execSlotPlacement s
  | .slotEnd => Sys2Proof.Machine.execSlotEnd s
  | .remoteVerdict => Sys2Proof.Machine.execRemoteVerdict s
  | .fusedRoundStart => Sys2Proof.Machine.execFusedRoundStart s
  | .arrivalTimes => Sys2Proof.Machine.execArrivalTimes s
  | .fusionTimeout => Sys2Proof.Machine.execFusionTimeout s
  | .waveformEnd => Sys2Proof.Machine.execWaveformEnd s
  | .pinMismatch => Sys2Proof.Machine.execPinMismatch s
  | .settlingEnd => Sys2Proof.Machine.execSettlingEnd s
  | .startupTestsPassed => Sys2Proof.Machine.execStartupTestsPassed s
  | .aesXts => Sys2Proof.Machine.execAesXts s
  | .aesGcm => Sys2Proof.Machine.execAesGcm s
  | .aesCcm => Sys2Proof.Machine.execAesCcm s
  | .aesCmac => Sys2Proof.Machine.execAesCmac s
  | .aesKw => Sys2Proof.Machine.execAesKw s
  | .aesRec => Sys2Proof.Machine.execAesRec s
  | .aesEcbDerive => Sys2Proof.Machine.execAesEcbDerive s
  | .modAdd => Sys2Proof.Machine.execModAdd s
  | .modSub => Sys2Proof.Machine.execModSub s
  | .modMul => Sys2Proof.Machine.execModMul s
  | .montSetup => Sys2Proof.Machine.execMontSetup s
  | .modExp => Sys2Proof.Machine.execModExp s
  | .modInv => Sys2Proof.Machine.execModInv s
  | .modRed => Sys2Proof.Machine.execModRed s
  | .copy => Sys2Proof.Machine.execCopy s
  | .copyRev => Sys2Proof.Machine.execCopyRev s
  | .clear => Sys2Proof.Machine.execClear s
  | .p256Mul => Sys2Proof.Machine.execP256Mul s
  | .p256Mulg => Sys2Proof.Machine.execP256Mulg s
  | .p256Check => Sys2Proof.Machine.execP256Check s
  | .p256Sign => Sys2Proof.Machine.execP256Sign s
  | .p256Verify => Sys2Proof.Machine.execP256Verify s
  | .p384Mul => Sys2Proof.Machine.execP384Mul s
  | .p384Mulg => Sys2Proof.Machine.execP384Mulg s
  | .p384Check => Sys2Proof.Machine.execP384Check s
  | .p384Sign => Sys2Proof.Machine.execP384Sign s
  | .p384Verify => Sys2Proof.Machine.execP384Verify s
  | .x25519 => Sys2Proof.Machine.execX25519 s
  | .x25519Base => Sys2Proof.Machine.execX25519Base s
  | .ed25519Verify => Sys2Proof.Machine.execEd25519Verify s
  | .ntt => Sys2Proof.Machine.execNtt s
  | .intt => Sys2Proof.Machine.execIntt s
  | .basemul => Sys2Proof.Machine.execBasemul s
  | .padd => Sys2Proof.Machine.execPadd s
  | .psub => Sys2Proof.Machine.execPsub s
  | .kemKeygen => Sys2Proof.Machine.execKemKeygen s
  | .kemEncaps => Sys2Proof.Machine.execKemEncaps s
  | .kemDecaps => Sys2Proof.Machine.execKemDecaps s
  | .bnYieldPoint => Sys2Proof.Machine.execBnYieldPoint s
  | .sha3256 => Sys2Proof.Machine.execSha3256 s
  | .sha3512 => Sys2Proof.Machine.execSha3512 s
  | .shake128 => Sys2Proof.Machine.execShake128 s
  | .shake256 => Sys2Proof.Machine.execShake256 s
  | .kmac256 => Sys2Proof.Machine.execKmac256 s
  | .xmssVerify => Sys2Proof.Machine.execXmssVerify s
  | .xmssSign => Sys2Proof.Machine.execXmssSign s
  | .xmssKeygen => Sys2Proof.Machine.execXmssKeygen s
  | .writeBufferApply => Sys2Proof.Machine.execWriteBufferApply s
  | .recoveryTimeout => Sys2Proof.Machine.execRecoveryTimeout s
  | .enum => Sys2Proof.Machine.execEnum s
  | .enumAck => Sys2Proof.Machine.execEnumAck s
  | .roster => Sys2Proof.Machine.execRoster s
  | .aligned => Sys2Proof.Machine.execAligned s
  | .lost => Sys2Proof.Machine.execLost s
  | .join => Sys2Proof.Machine.execJoin s
  | .enumGo => Sys2Proof.Machine.execEnumGo s
  | .dataFrameReceived => Sys2Proof.Machine.execDataFrameReceived s
  | .keyFrameReceived => Sys2Proof.Machine.execKeyFrameReceived s
  | .closeFrameReceived => Sys2Proof.Machine.execCloseFrameReceived s
  | .switchReceived => Sys2Proof.Machine.execSwitchReceived s
  | .receipt => Sys2Proof.Machine.execReceipt s
  | .receiptTimeout => Sys2Proof.Machine.execReceiptTimeout s
  | .activityNotice => Sys2Proof.Machine.execActivityNotice s
  | .chainWakeNotice => Sys2Proof.Machine.execChainWakeNotice s
  | .idleNotice => Sys2Proof.Machine.execIdleNotice s
  | .busyNotice => Sys2Proof.Machine.execBusyNotice s
  | .sleepNotice => Sys2Proof.Machine.execSleepNotice s
  | .timeUpdate => Sys2Proof.Machine.execTimeUpdate s
  | .snapshot => Sys2Proof.Machine.execSnapshot s
  | .vdrvRise => Sys2Proof.Machine.execVdrvRise s
  | .alignExpiry => Sys2Proof.Machine.execAlignExpiry s
  | .byTokenTimeout => Sys2Proof.Machine.execByTokenTimeout s
  | .hcmdDone => Sys2Proof.Machine.execHcmdDone s

end Machine
end Sys2Proof
end

