-- ==== Sys2Proof/Machine/Tick.lean ====
section
/-!
DEFINITION. One XO cycle with no command (log entry 1).
-/
namespace Sys2Proof
namespace Machine

/-! ### Cycles counted (R477) -/

/-- Cycles of a block's functional clock in one XO cycle: SYS, CRYPTO, PERI, CWY and XO or NFC logic (R23). -/
def State.blockCycles (s : State) (b : Nat) : Nat :=
  if b = 0x00 ∨ b = 0x08 ∨ b = 0x0E ∨ b = 0x10 then 8
  else if b = 0x0D ∨ b = 0x0F then 15
  else if b = 0x12 then 2
  else if b = 0x13 then 4
  else if b = 0x04 ∨ b = 0x05 ∨ b = 0x11 then 1
  else Config.blockCycles b s.now

/-- A block has a job, command or exchange running. -/
def State.blockBusy (s : State) (b : Nat) : Bool :=
  match b with
  | 0x03 => s.lf.cur.isSome
  | 0x04 => s.nfc.cur.isSome
  | 0x05 => s.tag.hostBusy.isSome || s.tag.writing.isSome
  | 0x06 => s.radioHeld
  | 0x07 => !s.dist.cur.isEmpty || !s.dist.fused.isEmpty
  | 0x0A => s.rel.pending || s.rel.wave
  | 0x0B => s.rb aKST_STATUS 0
  | 0x0C => !s.trng.reqs.isEmpty
  | 0x0D => s.eng.aes.isSome || s.eng.stsBusy
  | 0x0E => s.eng.bn.isSome
  | 0x0F => s.eng.hsh.isSome
  | 0x10 => s.mover.any fun x => !x.2.armed
  | 0x12 => s.mon.run.isSome
  | 0x13 => !s.cwy.receipts.isEmpty
  | 0x14 => !s.hif.wbuf.isEmpty
  | _ => false

/-- An engine's block has a job waiting and none running. -/
def State.blockWaits (s : State) (b : Nat) : Bool :=
  decide (0x0D ≤ b ∧ b ≤ 0x0F) && !s.blockBusy b && (s.lane 10).committed.any fun p => decide (engBlock (jobEngine p) = b)

/-- The block counters of an XO cycle. -/
def State.countCycles (s : State) : State :=
  s.each (List.range 25) fun s b =>
    let n := s.blockCycles b
    let s := s.evt b 0x01 n
    let s := s.onlyIf (s.blockBusy b) fun s => s.evt b 0x02 n
    s.onlyIf (s.blockWaits b) fun s => s.evt b 0x10 n

/-- One XO cycle passes: the block counters and the model's clock count it, SYSTIME counts it while the unit is resumed (R412,
R413), the start-complete event comes when its time has come (R57), and a unit that has reported IDLE and is no longer idle
sends BUSY (R54). -/
def tick (s : State) : State :=
  let s := s.countCycles
  let s := { s with
    now := s.now + 1
    sysTime := if s.resumed then s.sysTime + 1 else s.sysTime }
  (if (s.power.startDue.map fun d => decide (d.2 ≤ s.now)).getD false then s.startComplete else s).noLongerIdle

end Machine
end Sys2Proof
end

