-- ==== Sys2Proof/Safety.lean ====
section
/-!
DEFINITION. The terms claims are stated in: what a safe step keeps, when a register write is granted, and what a command
leaves alone.
-/
namespace Sys2Proof
namespace Safety

open Sys2Proof.Machine

/-- The two byte memories are in canonical form. -/
abbrev MemOk (s : State) : Prop := memWf s = true ∧ flashWf s = true

/-- A step that answers a next state. -/
def Goes (s : State) : Prop := ∃ t, step s = .next t

/-- A master can make accesses, and its write of the register at a is granted (R9, R31). -/
abbrev Grants (s : State) (m : Master) (a : Nat) : Prop := s.up m = true ∧ judge s (rightsOf m) false a true = .granted

/-- A master can make accesses, and its write of the register at a is refused (R9, R469). -/
abbrev Refuses (s : State) (m : Master) (a : Nat) : Prop := s.up m = true ∧ judge s (rightsOf m) false a true = .refused

/-- An access of a master to a register of a queue's window is granted (R9, R31, R395, R404). -/
abbrev GrantsWindow (s : State) (m : Master) (write : Bool) (q lane off : Nat) : Prop :=
  s.up m = true ∧ q < 16 ∧ lane < 2 ∧ s.judgeWindow (rightsOf m) write q lane off = .granted

/-- Every byte of the addressed memories and of the flash reads as before. -/
def BytesKept (s t : State) : Prop :=
  ∀ a, cellGet t.mem a memDefault = cellGet s.mem a memDefault ∧ cellGet t.flash a flashDefault = cellGet s.flash a flashDefault

/-- The PRF_ registers, into which the hardware counts events (R476). -/
def Counted (a : Nat) : Prop := 0x40160000 ≤ a ∧ a < 0x40170000

/-- Every register but those listed, and the counters of PRF_, reads as before. -/
def RegsBut (l : List Nat) (s t : State) : Prop := ∀ a, a ∉ l → ¬ Counted a → t.reg a = s.reg a

/-- The state in which the symmetric engine judges and runs the job p that it takes: the channel it serves is noted, and the
job's key is loaded into the working register (R106, R326). -/
abbrev servingAes (s : State) (p : Packet) : State :=
  { s with eng := { s.eng with aesLast := p.src, aesKey := aesJobKey s (packetWords p) } }

/-- The same of the public-key engine. -/
abbrev servingBn (s : State) (p : Packet) : State := { s with eng := { s.eng with bnLast := p.src } }

/-- The same of the hash engine. -/
abbrev servingHsh (s : State) (p : Packet) : State := { s with eng := { s.eng with hshLast := p.src } }

/-- The symmetric engine is free, the scheduler's choice is p, a whole job of mode m with sound input, and no check
refuses it (R106, R331). -/
abbrev AesTakes (s : State) (m : Nat) (p : Packet) : Prop :=
  s.resumed = true ∧ s.eng.aes = none ∧ s.eng.stsBusy = false ∧ s.candidate engAes s.eng.aesLast = some p ∧
    aesMode (packetWords p) = m ∧ packetBroken p = false ∧ s.sourceBroken p = false ∧
    (s.jobData p 9).length = aesDataLen (packetWords p) ∧
    aesRefusal ((servingAes s p).jobView p) p (packetWords p) = cOk

/-- The public-key engine is free, the scheduler's choice is p, a sound job of operation k with row b, no check refuses
it, and its operands meet those of no other job and stay in their partition (R106, R347, R354). -/
abbrev BnTakes (s : State) (k : Nat) (p : Packet) (b : BnSpec) : Prop :=
  s.resumed = true ∧ s.eng.bn = none ∧ s.eng.bnSusp = none ∧
    s.candidateIf engBn s.eng.bnLast s.bnHeld = some p ∧ bnOp (packetWords p) = k ∧ packetBroken p = false ∧
    s.bnRow (packetWords p) = some b ∧ bnRefusal ((servingBn s p).jobView p) p (packetWords p) = cOk ∧
    s.bnOthers p = [] ∧ s.bnRunsPast (packetWords p) b false = false ∧ s.bnRunsPast (packetWords p) b true = false ∧
    s.bnNoConsts (packetWords p) = false ∧ areasMixed (s.bnAreas (packetWords p) b.refs) = false ∧
    p.seq.toNat ∉ s.eng.bnMixed

/-- The hash engine is free, the scheduler's choice is p, a whole job of function f, and operation x of XMSS, with sound
input, no check refuses it, and its areas of operand memory are its own and stay in their partition (R106, R375). -/
abbrev HashTakes (s : State) (f x : Nat) (p : Packet) : Prop :=
  s.resumed = true ∧ s.derived = true ∧ s.eng.hsh = none ∧ s.candidate engHsh s.eng.hshLast = some p ∧
    hFunc (packetWords p) = f ∧ (f = 8 → hXop (packetWords p) = x) ∧ packetBroken p = false ∧
    s.sourceBroken p = false ∧ (s.hData p (packetWords p)).length = hDataLen (packetWords p) ∧
    hRefusal ((servingHsh s p).jobView p) p (packetWords p) = cOk ∧ hSrcOm (packetWords p) = false ∧
    hOut (packetWords p) ≠ 1 ∧ (f = 8 → hXop (packetWords p) = 1 → hAnchor (packetWords p) ≠ 0) ∧
    p.seq.toNat ∉ s.eng.bnMixed

/-- An argument word of a request in the mailbox. -/
abbrev mailArg (p : Packet) (k : Nat) : Word := jobWord p (k + 1)

/-- Peat can pop the request p of operation op: it is whole and sound, its fields and the life-cycle state allow it, and the
reply ring has room for the largest reply and an open packet (R76, R77, R396). -/
abbrev MailTakes (s : State) (op : Nat) (p : Packet) : Prop :=
  s.headPacket 15 = some p ∧ packetBroken p = false ∧ s.peatFree = true ∧ fld (jobWord p 0) 31 24 = op ∧
    fld (jobWord p 0) 23 16 = 0 ∧ mailState op s.envm.lcs = true ∧ mailArgs op ≤ ((packetWords p).drop 1).length ∧
    largestReply op ((packetWords p).drop 1) ≤ s.room 31 ∧ s.openCount 31 < 8

/-- The state in which START looks for a configuration: the straps are sampled, the start number has advanced, and a torn
transition is completed (R56, R91, R450). -/
abbrev strapped (s : State) (bs : BitVec 2) (head : Bool) : State := ((s.straps bs head).nextStart).finishTorn

/-- Peat's channel runs and can take a job of up to 65 items, and no mask generator is STOPPED (R99, R104, R321). -/
abbrev PeatWorks (s : State) (ch : Nat) : Prop :=
  s.chState ch = 1 ∧ s.chJobs ch < s.maxJobs ch ∧ 65 ≤ s.room 10 ∧ s.maskStopped 0 = false ∧ s.maskStopped 1 = false ∧
    s.maskStopped 2 = false

/-- The registers in which Peat's jobs on the channel are counted (R104, R106). -/
abbrev jobRegs (ch : Nat) : List Nat := [aCHN_COUNT ch, aAES_COUNT, aBN_COUNT, aHSH_COUNT]

/-- Every byte of the flash, and of the addressed memories but the operand memory, reads as before. -/
def OperandsOnly (s t : State) : Prop :=
  ∀ a, (a < 0x50000000 ∨ 0x50008000 ≤ a → cellGet t.mem a memDefault = cellGet s.mem a memDefault) ∧
    cellGet t.flash a flashDefault = cellGet s.flash a flashDefault

/-- Key bytes have reached the destination r: a session's slot from its offset, or a static slot with the attributes of the
key word w and an origin, with a blob where the word asks for one (R290, R295, R298). -/
abbrev KeyGoes (s t : State) (r w : Word) (origin : Nat) (key : Bytes) : Prop :=
  t.envm = { s.envm with blobs := t.envm.blobs } ∧
    (kSes r = true → t.slots = s.slots ∧
      t.ses (kSlot r) = { s.ses (kSlot r) with
        slot := patch (s.ses (kSlot r)).slot (16 * kOff r) (slice key 0 (16 * kLen r)) }) ∧
    (kSes r = false → t.sess = s.sess ∧ (tfind t.envm.blobs (kSlot r)).isSome = bit w 17 ∧
      (t.key (kSlot r)).map (fun k => { k with pub := [] }) =
        some (s.wordSlot (kSlot r) w origin (slice key 0 (typeBytes (kwType w))) []))

/-- Where a command's destination and key word ask for a blob, the class key for it is known (R290). -/
abbrev BlobKey (s : State) (r w : Word) : Prop :=
  kSes r = false → bit w 17 = true → (tfind s.power.classKeys (s.slotClass (kSlot r) true)).isSome = true

/-- The key store's command op has ended with a status, and nothing else in its registers changes (R295). -/
abbrev KstEnds (s t : State) (op : Nat) (status : Byte) : Prop :=
  t.reg aKST_CMD = setFld (s.reg aKST_CMD) 23 16 op ∧ t.reg aKST_RESULT = w32 (status.toNat * 2 ^ 24 + 1) ∧
    t.reg aKST_STATUS = setFld (s.reg aKST_STATUS) 0 0 0

/-- The registers in which a key-store command shows itself. -/
abbrev kstRegs : List Nat := [aKST_CMD, aKST_RESULT, aKST_STATUS]

/-- The buffer of n bytes at a that a request names: it lies in Sedge SRAM, a fence is free for it, and it holds b (R78). -/
abbrev Holds (s : State) (a n : Word) (b : Bytes) : Prop :=
  n ≠ 0 ∧ 0x20000000 ≤ a.toNat ∧ a.toNat + n.toNat ≤ 0x20080000 ∧ s.memRead a.toNat n.toNat = b ∧
    (List.range 4).any (fun k => decide (s.rf (aSYS_FENCE k) 27 16 = 0)) = true

/-- A request of operation op and REQ_ID id is answered: the newest reply holds both, the status and the body, and Peat
serves nothing (R76). -/
abbrev Answers (t : State) (op : Nat) (id : BitVec 16) (status : Byte) (body : Bytes) : Prop :=
  t.peat.serving = none ∧
    ((t.lane 31).committed.getLast?).map packetWords = some (packetWords (replyPacket op id status body))

/-- The request p is answered. -/
abbrev Replies (t : State) (p : Packet) (status : Byte) (body : Bytes) : Prop :=
  Answers t (fld (jobWord p 0) 31 24) (BitVec.ofNat 16 (fld (jobWord p 0) 15 0)) status body

/-- Peat serves the request v, which waits for w, with room for a reply of one word, and will answer it. -/
abbrev Waits (s : State) (v : Serving) (w : Waiting) : Prop :=
  s.peat.serving = some v ∧ v.waiting = w ∧ v.discard = false ∧ 1 ≤ s.room 31 ∧ s.openCount 31 < 8

/-- The fence registers, which a request sets for its buffers and its reply clears (R78). -/
abbrev fenceRegs : List Nat := (List.range 4).map aSYS_FENCE

/-- The fences, and the counts of Peat's jobs on CH127. -/
abbrev mailRegs : List Nat := fenceRegs ++ jobRegs 127

/-- The lane into which the results of a front-end channel go (R99). -/
abbrev resultLane (s : State) (ch : Nat) : Nat := s.dstLane (s.rf (aCHN_QUEUES ch) 7 4)

/-- That lane has room for n items, none of it held back for a decision, and for an open packet (R281, R396). -/
abbrev RoomFor (s : State) (ch n : Nat) : Prop := s.rel.pending = false ∧ n ≤ s.room (resultLane s ch) ∧
  s.openCount (resultLane s ch) < 8

/-- The newest packet of that lane holds these words. -/
abbrev Delivers (s t : State) (ch : Nat) (ws : List Word) : Prop :=
  ((t.lane (resultLane s ch)).committed.getLast?).map packetWords = some ws

/-- No LF command waits to be turned down. -/
abbrev LfSound (s : State) : Prop := (s.lf.waiting.all fun c => decide (c.bad = cOk)) = true

/-- The LF block takes the command c from its packet p, which no check refuses, from an input queue that no channel of the
other LF class shares, and Peat waits for nothing (R103, R118). -/
abbrev LfTakes (s : State) (c : LfCmd) (p : Packet) : Prop :=
  s.feHead c.chan [1, 2] = some p ∧ c = ⟨c.chan, jobWord p 0, jobWord p 1, p.no, cOk⟩ ∧ packetBroken p = false ∧
    lfRefusal s c.chan c = cOk ∧ s.lfShared c.chan = false ∧ LfSound s ∧ s.peat.serving = none

/-- The exchange x listens, no write has made its result unpredictable, it has no re-polls left, and its channel's
results have room for n items (R127, R137). -/
abbrev LfHears (s : State) (x : LfExch) (n : Nat) : Prop :=
  s.lfListening = some x ∧ x.mixed = false ∧ x.repoll = [] ∧ s.lf.carrierNext = none ∧ RoomFor s x.cmd.chan n ∧
    LfSound s ∧ s.peat.serving = none

/-- The NFC reader takes the command c from its packet p, which no check refuses, with no exchange open, no guard time and
no external field (R103, R151, R153). -/
abbrev NfcTakes (s : State) (c : NfcCmd) (p : Packet) : Prop :=
  s.feHead c.chan [3] = some p ∧
    c = ⟨c.chan, jobWord p 0, jobWord p 1, slice ((p.items.drop 2).flatMap itemBytes) 0 (fld (jobWord p 0) 15 0), false⟩ ∧
    packetBroken p = false ∧ nfcRefusal s c = cOk ∧ s.nfc.cur = none ∧ s.nfc.guard = false ∧ s.tag.field = false

/-- The radio takes the command o from its packet p, which no check refuses, with room among the scheduled ones (R103,
R190, R207). -/
abbrev UwbTakes (s : State) (o : UwbOp) (p : Packet) : Prop :=
  s.feHead o.chan [5] = some p ∧ o = uwbOpOf s o.chan p ∧ packetBroken p = false ∧ uwbRefusal s o = cOk ∧
    (uwbSched o = true → s.uwbPending < 64)

/-- The operation o of a channel is the radio's only one, holds it, and leaves it in SYNTH (R187, R189). -/
abbrev UwbRuns (s : State) (o : UwbOp) : Prop :=
  s.uwb.ops = [o] ∧ s.uwb.cur = some o.id ∧ o.fin = none ∧ uwbRanging o = false ∧ o.words = [] ∧ s.uwb.walk = none ∧
    s.rf aUWB_IDLECFG 15 0 ≠ 0

/-- The radio runs no operation, makes no walk or transition and completes no recalibration (R187). -/
abbrev UwbRests (s : State) : Prop :=
  s.uwb.cur = none ∧ s.uwb.walk = none ∧ s.uwb.down = false ∧ s.uwb.orphan = none

/-- A decision has its key, its counter and a channel for its job, VBAT is in range, and there is room for its outputs (R271,
R277, R278, R281). -/
abbrev MayDecide (s : State) (k : Slot) : Prop :=
  s.decisionRoom = true ∧ s.openCount 1 < 8 ∧ s.openCount 3 < 8 ∧ s.vbatLow = false ∧ s.key 8 = some k ∧
    s.releaseCounter + 1 < 2 ^ 64 ∧ PeatWorks s 124

/-- The decision d stands in the newest record of Q3 with a code and a counter (R282). -/
abbrev Logged (s t : State) (d : Decision) (code : Byte) (counter : Nat) : Prop :=
  ((t.lane 3).committed.getLast?).map packetWords =
    some [w32 (code.toNat * 2 ^ 24 + d.kind * 2 ^ 16 + d.ses % 256 * 2 ^ 8 + d.zones % 256), d.subject, w32 counter, s.sysLo]

/-- The release counter has advanced, and the newest record of Q1 is the release of d, with its CMAC (R277, R278). -/
abbrev Released (s t : State) (d : Decision) (k : Slot) : Prop :=
  t.counter 44 = w32 (s.releaseCounter + 1) ∧ t.counter 45 = w32 ((s.releaseCounter + 1) / 2 ^ 32) ∧
    Logged s t d cOk ((s.releaseCounter + 1) % 2 ^ 32) ∧
    ((t.lane 1).committed.getLast?).map packetBytes =
      some (s.releaseRecord d (s.releaseCounter + 1) ++ cmac k.key (s.releaseRecord d (s.releaseCounter + 1)))

/-- The request p names the phone session d.ses of the head unit, READY and of the GEN that it had when the request came,
with a credential that has not expired and no lockout (R270, R272). -/
abbrev PhoneHolds (s : State) (p : Packet) (d : Decision) : Prop :=
  d.ses = (mailArg p 0).toNat ∧ (s.takeHead 15).requestGen = some d.gen ∧ d.gen = (s.ses d.ses).gen.toNat ∧
    (s.ses d.ses).st = .ready ∧ (s.ses d.ses).suite = 1 ∧ s.isHead = true ∧ (s.ses d.ses).cred.isSome = true ∧
    s.isLocked (.cls (lockClass (s.feClass (s.ses d.ses).opener))) = false ∧ s.holderExpired (s.ses d.ses) = false ∧
    d.subject = holderSubject (s.ses d.ses) ∧ d.rights = s.holderRights (s.ses d.ses) ∧ d.popped = s.now

/-- Peat runs the applet call r, which waits for no random words and may use a service (R86, R317). -/
abbrev Calls (s : State) (r : AppletRun) (service : Nat) : Prop :=
  s.peat.applet = some r ∧ s.up .peat = true ∧ s.drawWaits .applet = false ∧ s.inMask r service = true

/-- The service answers the call r with a status and words. -/
abbrev Served (t : State) (r : AppletRun) (status : Byte) (ws : List Word) : Prop :=
  t.peat.applet = some { r with lastStatus := status, words := ws }

/-- The applet call of Q14 ends: no call runs, and the newest reply of its ring is this (R86, R87). -/
abbrev CallEnds (t : State) (r : AppletRun) (id : BitVec 16) (status : Byte) (body : Bytes) : Prop :=
  t.peat.applet = none ∧
    ((t.lane 30).committed.getLast?).map packetWords = some (packetWords (replyPacket r.inst id status body))

/-- Nothing but the tag's own state, and the list of the island's log, changes. -/
abbrev OnlyTag (s t : State) : Prop :=
  t.envm = { s.envm with islandLog := t.envm.islandLog, logOverrun := t.envm.logOverrun } ∧ t.regs = s.regs ∧
    t.lanes = s.lanes ∧ BytesKept s t

/-- No event route is enabled (R420). -/
abbrev NoRoutes (s : State) : Prop := ∀ r, r < 16 → s.rb (aTMR_ROUTE r) 31 = false

end Safety
end Sys2Proof
end

