-- ==== Sys2Proof/Certificates/Slice0/Obligations.lean ====
section
/-!
DEFINITION. The statements for the provers.
-/

open Sys2Proof Sys2Proof.Machine Sys2Proof.Safety

/-- With a command c at the front of the queue, a step is exec of c on the state with the queue's rest.
(95_what_each_step_holds.md.) -/
def Obligations.StepRunsTheFrontCommand : Prop :=
  ∀ (s : State) (c : Instr) (rest : List Instr), s.pending = c :: rest → step s = exec c { s with pending := rest }

/-- Every command, in every state, answers a next state, and the commands that wait behind it are the same ones
afterwards. (95_what_each_step_holds.md.) -/
def Obligations.EveryCommandAnswersNext : Prop :=
  ∀ (s : State) (c : Instr), ∃ t, exec c s = .next t ∧ t.pending = s.pending

/-- From every state whose addressed memories and flash are in canonical form (addresses strictly rising, no entry
equal to what an unlisted byte reads as) a step answers a next state whose memories are in canonical form and
whose queue is the queue without its front. The canonical form is the model's (log entries 5 and 6).
(01_architecture.md, 16_queues_and_mover.md.) -/
def Obligations.StepKeepsMemoryCanonical : Prop :=
  ∀ s : State, MemOk s → ∃ t, step s = .next t ∧ MemOk t ∧ t.pending = s.pending.tail

/-- After reset the byte memories are in canonical form. (01_architecture.md.) -/
def Obligations.ResetMemoryCanonical : Prop :=
  MemOk State.reset

/-- A granted write of a register of a block with plain registers (blocks 1, 4, 9, 13, 14, 15 and 23) sets its RW
bits as written, clears the W1C bits written as 1 and changes no other register (the counters of PRF_ apart). A
refused register write is recorded with its master, its direction and its address, and for the host in HIF_ERR,
HIF_ATTN and HIF_REFUSED, and changes no other register and no byte. A word written by Sedge to an SRAM address
that it may reach reads back, and every other byte and every register is as before. A granted read of the low
half of a pair answers the low half and latches the high half for that master, and changes no register. Peat
runs no applet. (01_architecture.md, 00_scope.md.) -/
def Obligations.BusAccesses : Prop :=
  (∀ (s : State) (m : Master) (v : Word) (a i : Nat) (r : RegRow) (pr : Privilege), s.up m = true →
    s.peat.applet = none → 0x40000000 ≤ a → a < 0x41000000 →
    judge s (rightsOf m) (decide (pr = .user)) a true = .granted → regRow a = some (r, i) →
    (a - 0x40000000) / 0x10000 ∈ [1, 4, 9, 13, 14, 15, 23] →
    ∃ t, exec (.registerWrite m pr a v) s = .next t ∧
      t.reg a = ((s.reg a &&& ~~~r.rw) ||| (v &&& r.rw)) &&& ~~~(v &&& r.w1c) ∧ RegsBut [a] s t ∧ BytesKept s t) ∧
  (∀ (s : State) (m : Master) (v : Word) (a : Nat) (pr : Privilege), s.up m = true → s.peat.applet = none →
    0x40000000 ≤ a → a < 0x41000000 → judge s (rightsOf m) (decide (pr = .user)) a true = .refused →
    ∃ t, exec (.registerWrite m pr a v) s = .next t ∧ t.rf aFLT_REFUSED 2 0 = portNo m % 8 ∧
      t.rb aFLT_REFUSED 15 = true ∧ t.rf aFLT_REFUSED 31 16 = (s.rf aFLT_REFUSED 31 16 + 1) % 65536 ∧
      t.reg aFLT_REFADDR = w32 a ∧ (m ≠ .host ∨ t.rf aHIF_ERR 31 24 = (s.rf aHIF_ERR 31 24 + 1) % 256) ∧
      (m ≠ .host ∨ t.rf aHIF_REFUSED 23 0 = a % 2 ^ 24) ∧
      RegsBut ([aFLT_REFUSED, aFLT_REFADDR] ++ if m = .host then [aHIF_ERR, aHIF_ATTN, aHIF_REFUSED] else []) s t ∧
      BytesKept s t) ∧
  (∀ (s : State) (v : Word) (a : Nat) (pr : Privilege), s.up .sedge = true → s.peat.applet = none → 0x20000000 ≤ a →
    a + 4 ≤ 0x20080000 → s.fenced a = false →
    ∃ t, exec (.registerWrite .sedge pr a v) s = .next t ∧ t.memRead a 4 = toLE 4 v.toNat ∧
      (∀ x, (x < a ∨ a + 4 ≤ x) → cellGet t.mem x memDefault = cellGet s.mem x memDefault) ∧ t.flash = s.flash ∧
      t.regs = s.regs) ∧
  (∀ (s : State) (m : Master) (a : Nat) (hi : Nat × Word), s.up m = true → isLow a = true →
    judge s (rightsOf m) false a false = .granted → s.partner a = some hi →
    ∃ t, exec (.rlLowRead m a) s = .next t ∧ tfind t.readOut (portNo m) = some (readView s a) ∧
      t.latched m hi.1 = hi.2 ∧ t.regs = s.regs ∧ BytesKept s t)

/-- VBAT_LOW with the supplies up lowers REG_EN, sets VBAT_LOW and stops a waveform. VBAT_RISE after it raises
REG_EN again where the supplies held, clears VBAT_LOW and notes the wake cause; where VBAT was lost a cold
power-up begins with its cause alone and the stored time marked uncertain. VDRV_LOW sets its bit, and VDRV_RISE
clears it. A charge event notes its cause, or begins a start from deep standby. BROWN_OUT with VBAT in its
range, and RESET_N, begin a start that keeps the eNVM and the flash, with their cause; a brown-out after
VBAT_LOW leads to deep standby. A supply or XO timeout of the first or second attempt lowers REG_EN until the
retry, which raises it, and of the third leads to deep standby. (02_power_and_startup.md.) -/
def Obligations.SupplyEvents : Prop :=
  (∀ (s : State), s.rails = true →
    ∃ t, exec .vbatLow s = .next t ∧ t.power = { s.power with vbatArmed := true, vbatAt := s.now, regEn := false } ∧
      t.rb aPWR_STATUS 5 = true ∧ t.rel.wave = false ∧ t.envm = s.envm ∧ RegsBut [aPWR_STATUS] s t ∧
      t.lanes = s.lanes ∧ BytesKept s t) ∧
  (∀ (s : State), s.power.vbatArmed = true → s.power.mode ≠ .deepStandby →
    ∃ t, exec (.vbatRise false) s = .next t ∧
      t.power = { s.power with vbatArmed := false, regEn := s.power.regEn || s.rails } ∧
      t.rb aPWR_STATUS 5 = false ∧ t.rb aPWR_WAKE_SRC 1 = true ∧ t.envm = s.envm ∧
      RegsBut [aPWR_STATUS, aPWR_WAKE_SRC] s t ∧ t.lanes = s.lanes ∧ BytesKept s t) ∧
  (∀ (s : State), s.power.vbatArmed = true →
    ∃ t, exec (.vbatRise true) s = .next t ∧ t.power.mode = .starting ∧ t.power.regEn = true ∧
      t.reg aPWR_WAKE_SRC = 0x40 ∧ t.envm = { s.envm with tOpAt := s.now, timeUnc := true } ∧ t.flash = s.flash) ∧
  (∀ (s : State), s.lf.cur = none →
    ∃ t, exec .vdrvLow s = .next t ∧ t.rb aPWR_STATUS 4 = true ∧ t.power = s.power ∧ RegsBut [aPWR_STATUS] s t ∧
      t.lanes = s.lanes ∧ BytesKept s t) ∧
  (∀ (s : State),
    ∃ t, exec .vdrvRise s = .next t ∧ t.rb aPWR_STATUS 4 = false ∧ t.power = s.power ∧ RegsBut [aPWR_STATUS] s t ∧
      t.lanes = s.lanes ∧ BytesKept s t) ∧
  (∀ (s : State), s.power.chargeOff = false → s.power.vbatArmed = false → s.power.mode ≠ .deepStandby →
    ∃ t, exec .chargeEvent s = .next t ∧ t.rb aPWR_WAKE_SRC 1 = true ∧ t.power = s.power ∧
      RegsBut [aPWR_WAKE_SRC] s t ∧ t.lanes = s.lanes ∧ BytesKept s t) ∧
  (∀ (s : State), s.power.chargeOff = false → s.power.vbatArmed = false → s.power.mode = .deepStandby →
    ∃ t, exec .chargeEvent s = .next t ∧ t.power.mode = .starting ∧ t.rb aPWR_WAKE_SRC 1 = true ∧ t.envm = s.envm ∧
      t.flash = s.flash) ∧
  (∀ (s : State), s.rails = true → s.power.vbatArmed = false →
    ∃ t, exec .brownOut s = .next t ∧ t.power.mode = .starting ∧ t.reg aPWR_WAKE_SRC = 0x40 ∧ t.envm = s.envm ∧
      t.flash = s.flash) ∧
  (∀ (s : State), s.rails = true → s.power.vbatArmed = true →
    ∃ t, exec .brownOut s = .next t ∧ t.power.mode = .deepStandby ∧ t.power.regEn = false ∧
      t.rf aPWR_STATUS 2 0 = 4 ∧ t.reg aPWR_WAKE_SRC = 0x40 ∧ t.envm = s.envm ∧ t.flash = s.flash) ∧
  (∀ (s : State), s.rails = true →
    ∃ t, exec .resetN s = .next t ∧ t.power.mode = .starting ∧ t.reg aPWR_WAKE_SRC = 0x80 ∧ t.envm = s.envm ∧
      t.flash = s.flash) ∧
  (∀ (s : State), s.power.mode = .starting → s.power.regEn = true → s.power.recovery = false →
    s.power.attempts < 2 →
    ∃ t, exec .supplyTimeout s = .next t ∧
      t.power = { s.power with regEn := false, retryWait := true, attempts := s.power.attempts + 1 } ∧
      t.regs = s.regs ∧ t.envm = s.envm ∧ t.lanes = s.lanes ∧ BytesKept s t) ∧
  (∀ (s : State), s.power.mode = .starting → s.power.regEn = true → s.power.recovery = false →
    2 ≤ s.power.attempts →
    ∃ t, exec .supplyTimeout s = .next t ∧ t.power.mode = .deepStandby ∧ t.power.regEn = false ∧ t.envm = s.envm ∧
      t.flash = s.flash) ∧
  (∀ (s : State), s.power.mode = .starting → s.power.regEn = true → s.power.recovery = false →
    s.power.attempts < 2 →
    ∃ t, exec .xoTimeout s = .next t ∧
      t.power = { s.power with regEn := false, retryWait := true, attempts := s.power.attempts + 1 } ∧
      t.regs = s.regs ∧ t.envm = s.envm ∧ t.lanes = s.lanes ∧ BytesKept s t) ∧
  (∀ (s : State), s.power.mode = .starting → s.power.regEn = true → s.power.recovery = false →
    2 ≤ s.power.attempts →
    ∃ t, exec .xoTimeout s = .next t ∧ t.power.mode = .deepStandby ∧ t.power.regEn = false ∧ t.envm = s.envm ∧
      t.flash = s.flash) ∧
  (∀ (s : State), s.power.retryWait = true → s.power.vbatArmed = false →
    ∃ t, exec .regEnRetry s = .next t ∧ t.power = { s.power with regEn := true, retryWait := false } ∧
      t.regs = s.regs ∧ t.envm = s.envm ∧ t.lanes = s.lanes ∧ BytesKept s t)

/-- WAKE_IN, HOST_CS and line activity in a standing unit resume it, set their bit of PWR_WAKE_SRC and start the
random source; in deep standby WAKE_IN and an armed RC timer begin a start, with VBAT in its range. A stage
boundary deepens a standing unit's stage where its register is not 0, the stage is deeper, no replacement runs
and no activity notice waits; stage 4 is deep standby; in a resumed unit the boundary is kept. A Heron poll of a
stage with an interval and the NFC bit, in a unit that is not SCRAPPED, resumes the unit where an external field
is present; where neither LF nor ping is enabled and no field is present it leaves the unit standing.
(02_power_and_startup.md.) -/
def Obligations.WakesAndStages : Prop :=
  (∀ (s : State), s.power.mode = .standing →
    ∃ t, exec .wakeIn s = .next t ∧ t.power.mode = .resumed ∧ t.rb aPWR_STATUS 3 = true ∧
      t.rb aPWR_WAKE_SRC 0 = true ∧ t.rngState = rngSettling ∧ t.flash = s.flash) ∧
  (∀ (s : State), s.power.mode = .standing →
    ∃ t, exec .hostCsWake s = .next t ∧ t.power.mode = .resumed ∧ t.rb aPWR_STATUS 3 = true ∧
      t.rb aPWR_WAKE_SRC 5 = true ∧ t.rngState = rngSettling ∧ t.flash = s.flash) ∧
  (∀ (s : State) (p : Port), s.power.mode = .standing →
    ∃ t, exec (.lineActivityWake p) s = .next t ∧ t.power.mode = .resumed ∧ t.rb aPWR_STATUS 3 = true ∧
      t.rb aPWR_WAKE_SRC 4 = true ∧ t.rngState = rngSettling ∧ t.flash = s.flash) ∧
  (∀ (s : State), s.power.mode = .deepStandby → s.power.vbatArmed = false →
    ∃ t, exec .wakeIn s = .next t ∧ t.power.mode = .starting ∧ t.power.regEn = true ∧ t.rb aPWR_WAKE_SRC 0 = true ∧
      t.envm = s.envm ∧ t.flash = s.flash) ∧
  (∀ (s : State), s.power.mode = .deepStandby → s.rf aPWR_DSWAKE 15 0 ≠ 0 → s.power.vbatArmed = false →
    ∃ t, exec .rcTimerWake s = .next t ∧ t.power.mode = .starting ∧ t.power.regEn = true ∧
      t.rb aPWR_WAKE_SRC 2 = true ∧ t.envm = s.envm ∧ t.flash = s.flash) ∧
  (∀ (s : State) (n : Nat), 1 ≤ n → n ≤ 3 → s.power.mode = .standing → s.reg (aPWR_ENTRY n) ≠ 0 →
    s.rf aPWR_STATUS 2 0 < n → s.rb aPWR_STATUS 7 = false → s.noticeWaits = false →
    ∃ t, exec (.stageEntry n) s = .next t ∧ t.power.mode = .standing ∧ t.rf aPWR_STATUS 2 0 = n ∧
      (n ≠ 3 ∨ t.power.lost = true) ∧ t.envm = s.envm ∧ t.flash = s.flash) ∧
  (∀ (s : State), s.power.mode = .standing → s.reg (aPWR_ENTRY 4) ≠ 0 → s.rf aPWR_STATUS 2 0 < 4 →
    s.rb aPWR_STATUS 7 = false → s.noticeWaits = false →
    ∃ t, exec (.stageEntry 4) s = .next t ∧ t.power.mode = .deepStandby ∧ t.power.regEn = false ∧
      t.rf aPWR_STATUS 2 0 = 4 ∧ t.envm = s.envm ∧ t.flash = s.flash) ∧
  (∀ (s : State) (n : Nat), 1 ≤ n → n ≤ 4 → s.resumed = true → s.reg (aPWR_ENTRY n) ≠ 0 → s.rf aPWR_STATUS 2 0 < n →
    ∃ t, exec (.stageEntry n) s = .next t ∧ t.power = { s.power with stageDue := max s.power.stageDue n } ∧
      t.regs = s.regs ∧ t.envm = s.envm ∧ t.lanes = s.lanes ∧ BytesKept s t) ∧
  (∀ (s : State) (b : Bytes) (r : Option LfReply) (ping : Ping) (i k : Nat), s.power.mode = .standing →
    s.rf aPWR_STATUS 2 0 ≤ 3 → fld (s.reg (aPWR_POLL (s.rf aPWR_STATUS 2 0))) 17 16 = 2 →
    fld (s.reg (aPWR_POLL (s.rf aPWR_STATUS 2 0))) 15 0 ≠ 0 → s.sect 4 0 = some b → s.envm.lcs ≠ 5 →
    ∃ t, exec (.heronPoll r ping true i k) s = .next t ∧ t.power.mode = .resumed ∧ t.rb aPWR_STATUS 3 = true ∧
      t.rb aPWR_WAKE_SRC 3 = true ∧ t.rngState = rngSettling ∧ t.flash = s.flash ∧
      (s.power.lost = true ∨ t.rb aNFC_FLAGS 2 = true)) ∧
  (∀ (s : State) (r : Option LfReply) (ping : Ping) (i k : Nat), s.power.mode = .standing →
    s.rf aPWR_STATUS 2 0 ≤ 3 → fld (s.reg (aPWR_POLL (s.rf aPWR_STATUS 2 0))) 16 16 = 0 →
    fld (s.reg (aPWR_POLL (s.rf aPWR_STATUS 2 0))) 15 0 ≠ 0 → s.tag.field = false → s.rf aNFC_LPCD 7 0 = 0 →
    ∃ t, exec (.heronPoll r ping false i k) s = .next t ∧ t.power = { s.power with aonCal := true } ∧
      t.regs = s.regs ∧ t.envm = s.envm ∧ t.lanes = s.lanes ∧ BytesKept s t)

/-- A granted ACTIVITY notes the time and sets the stage to 0. A granted ENTER_DS with no replacement and no
decision in progress leads to deep standby. A granted SLEEP of a unit alone in its chain, with no decision in
progress, leads to the standing state where no stage beyond 3 is due, as does the end of IDLE_MS of an idle unit
alone in its chain, and a SLEEP notice in an idle unit. An ACTIVITY notice is taken and restarts the stages; a
WAKE notice is taken and changes nothing; an IDLE and a BUSY notice set and clear the sender's mark at the head
that has not sent its own. (02_power_and_startup.md, 18_host_port_and_causeway.md.) -/
def Obligations.LeavingTheResumedState : Prop :=
  (∀ (s : State) (m : Master), Grants s m aPWR_CMD →
    ∃ t, exec (.activity m) s = .next t ∧ t.power.lastActivity = s.now ∧ t.power.stageDue = 0 ∧
      t.power.mode = s.power.mode ∧ t.rf aPWR_STATUS 2 0 = 0 ∧ t.envm = s.envm ∧ BytesKept s t) ∧
  (∀ (s : State) (m : Master), Grants s m aPWR_CMD → s.keepsAwake = false → s.tag.hostBusy = none →
    ∃ t, exec (.enterDs m) s = .next t ∧ t.power.mode = .deepStandby ∧ t.power.regEn = false ∧
      t.rf aPWR_STATUS 2 0 = 4 ∧ t.rb aPWR_STATUS 6 = false ∧ t.reg aPWR_WAKE_SRC = 0 ∧ t.envm = s.envm ∧
      t.flash = s.flash) ∧
  (∀ (s : State) (m : Master), Grants s m aPWR_CMD → s.deciding = false → s.alone = true →
    (if s.rb aPWR_STATUS 7 then s.rf aPWR_STATUS 2 0 else max s.stageFor s.power.stageDue) < 4 →
    ∃ t, exec (.sleep m) s = .next t ∧ t.power.mode = .standing ∧ t.rb aPWR_STATUS 3 = false ∧
      t.power.leftAt = t.now ∧ t.rb aPWR_STATUS 6 = false) ∧
  (∀ (s : State), s.resumed = true → s.power.safeState = false → s.idle = true → s.rf aPWR_IDLE 15 0 ≠ 0 →
    s.alone = true → (if s.rb aPWR_STATUS 7 then s.rf aPWR_STATUS 2 0 else max s.stageFor s.power.stageDue) < 4 →
    ∃ t, exec .idleMsExpiry s = .next t ∧ t.power.mode = .standing ∧ t.rb aPWR_STATUS 3 = false ∧
      t.power.leftAt = t.now) ∧
  (∀ (s : State) (x : Nat × Frame), s.cwy.taken.find? (fun x => decide (x.2.cls = 5)) = some x → x.2.sub = 5 →
    s.idle = true → (if s.rb aPWR_STATUS 7 then s.rf aPWR_STATUS 2 0 else max s.stageFor s.power.stageDue) < 4 →
    ∃ t, exec .sleepNotice s = .next t ∧ t.power.mode = .standing ∧ t.rb aPWR_STATUS 3 = false ∧
      t.power.leftAt = t.now) ∧
  (∀ (s : State) (x : Nat × Frame), s.cwy.taken.find? (fun x => decide (x.2.cls = 5)) = some x → x.2.sub = 2 →
    ∃ t, exec .activityNotice s = .next t ∧ t.cwy.taken = s.cwy.taken.erase x ∧
      t.power = { s.power with lastActivity := s.now, stageDue := 0 } ∧ t.rf aPWR_STATUS 2 0 = 0 ∧
      RegsBut [aPWR_STATUS] s t ∧ t.lanes = s.lanes ∧ BytesKept s t) ∧
  (∀ (s : State) (x : Nat × Frame), s.cwy.taken.find? (fun x => decide (x.2.cls = 5)) = some x → x.2.sub = 1 →
    ∃ t, exec .chainWakeNotice s = .next t ∧ t.cwy.taken = s.cwy.taken.erase x ∧ t.power = s.power ∧
      t.regs = s.regs ∧ t.lanes = s.lanes ∧ BytesKept s t) ∧
  (∀ (s : State) (x : Nat × Frame), s.cwy.taken.find? (fun x => decide (x.2.cls = 5)) = some x → x.2.sub = 3 →
    s.isHead = true → s.power.idleSent = false →
    ∃ t, exec .idleNotice s = .next t ∧ t.cwy.taken = s.cwy.taken.erase x ∧
      t.power = { s.power with idleUnits := putBit s.power.idleUnits x.2.src true } ∧ t.regs = s.regs ∧
      t.lanes = s.lanes ∧ BytesKept s t) ∧
  (∀ (s : State) (x : Nat × Frame), s.cwy.taken.find? (fun x => decide (x.2.cls = 5)) = some x → x.2.sub = 4 →
    ∃ t, exec .busyNotice s = .next t ∧ t.cwy.taken = s.cwy.taken.erase x ∧
      t.power = { s.power with idleUnits := putBit s.power.idleUnits x.2.src false } ∧ t.regs = s.regs ∧
      t.lanes = s.lanes ∧ BytesKept s t)

/-- START with BOOT_SEL 0b10 in BLANK or RETURNED, and with fewer than four storms, resumes for vendor test; after
four storms it enters the safe state; with BOOT_SEL 0b01 it asks the host for its first data; else it resumes
with the configuration and the images that it finds valid, and in the safe state where it finds none. A reading
of the root array whose corrected secret has the stored check value gives the secret and the class keys bound to
the life-cycle state. A word of recovery data that is not the last of its request is kept and counts RECLEN down
by 4; a recovery timeout enters the safe state. A Sedge reload whose image has the digest that was checked holds
it in SRAM and runs Sedge; Sedge's watchdog sets its bit and begins a reload, or discards the reply of the
request being served; a failure of Peat begins a start. A granted kick begins a new watchdog period.
(02_power_and_startup.md, 03_peat_sedge_and_life_cycle.md, 11_key_store.md.) -/
def Obligations.StartsReloadsAndWatchdogs : Prop :=
  (∀ (s : State) (head : Bool), s.power.mode = .starting → s.power.regEn = true → s.power.recovery = false →
    s.rf aFLT_AON 23 16 < 4 → ((strapped s 2 head).envm.lcs = 0 ∨ (strapped s 2 head).envm.lcs = 4) →
    ∃ t, exec (.start 2 head) s = .next t ∧ t.power.mode = .resumed ∧ t.power.safeState = s.power.safeState ∧
      t.power.cwyHead = head ∧ t.rb aPWR_STATUS 3 = true ∧ t.rngState = rngSettling ∧ t.chState 127 = 1 ∧
      t.flash = s.flash) ∧
  (∀ (s : State) (head : Bool) (bs : BitVec 2), s.power.mode = .starting → s.power.regEn = true →
    s.power.recovery = false → 4 ≤ s.rf aFLT_AON 23 16 → bs ≠ 1 →
    ∃ t, exec (.start bs head) s = .next t ∧ t.power.mode = .resumed ∧ t.power.safeState = true ∧
      t.power.sedgeRuns = false ∧ t.reg aHIF_RECREQ = 0 ∧ t.flash = s.flash) ∧
  (∀ (s : State) (head : Bool), s.power.mode = .starting → s.power.regEn = true → s.power.recovery = false →
    s.rf aFLT_AON 23 16 < 4 →
    ∃ t, exec (.start 1 head) s = .next t ∧ t.power.mode = .starting ∧ t.power.recovery = true ∧
      t.reg aHIF_RECREQ = w32 (2 ^ 31 + dirAddr 0 % 2 ^ 24) ∧ t.power.recGot = [] ∧ t.flash = s.flash) ∧
  (∀ (s : State) (head : Bool) (bs : BitVec 2), s.power.mode = .starting → s.power.regEn = true →
    s.power.recovery = false → s.rf aFLT_AON 23 16 < 4 → bs ≠ 1 →
    ¬ (bs = 2 ∧ ((strapped s bs head).envm.lcs = 0 ∨ (strapped s bs head).envm.lcs = 4)) →
    ∃ t, exec (.start bs head) s = .next t ∧ t.power.mode = .resumed ∧ t.power.cwyHead = head ∧
      t.rb aPWR_STATUS 3 = true ∧ t.rngState = rngSettling ∧
      (∀ x : Found × (Nat × Bytes), (findConfig (strapped s bs head) (strapped s bs head).source).bind (fun f => f.peat.map (fun y => (f, y))) = some x → t.power.safeState = false ∧ t.cfg.active = true ∧ t.cfg.slot = x.1.slot ∧ t.cfg.version = w32 x.1.version ∧ tfind t.peat.runSlot 1 = some x.2.1 ∧ tfind t.peat.runVersion 1 = some (w32 (le32 x.2.2 8)) ∧ t.chState 124 = 1 ∧ t.chState 127 = 1 ∧ (x.1.sedge.isSome = true → t.power.sedgeRuns = true)) ∧
      ((findConfig (strapped s bs head) (strapped s bs head).source).bind (fun f => f.peat) = none → t.power.safeState = true ∧ t.power.sedgeRuns = false ∧ t.reg aHIF_RECREQ = 0) ∧
      t.flash = s.flash) ∧
  (∀ (s : State) (array : Bytes) (h : Helper), s.envm.helper = some h → s.rails = true → s.power.mode ≠ .standing →
    s.power.rootKnown = false → s.power.rootTries < 4 → rootCheck (rootOf array h.data) = h.check →
    ∃ t, exec (.rootAttempt array) s = .next t ∧ t.rootArray = some array ∧ t.power.rootKnown = true ∧
      t.power.rootTries = s.power.rootTries + 1 ∧ t.rf aKST_STATUS 6 4 = s.power.rootTries + 1 ∧
      (∀ k, k ∈ boundClasses s.envm.lcs → tfind t.power.classKeys k = some (classKey (rootOf array h.data) k (s.epochOf k))) ∧
      (s.resumed = false → t.envm = s.envm) ∧ t.flash = s.flash) ∧
  (∀ (s : State) (v : Word) (c : Nat × Nat), s.power.reloading = false →
    ((startReads s s.source).flatMap recChunks).find? (fun c => decide (c ∉ s.power.recGot)) = some c →
    s.rb aHIF_RECREQ 31 = true → 4 < s.rf aHIF_RECLEN 12 0 →
    ∃ t, exec (.recdataWrite v) s = .next t ∧ t.rf aHIF_RECLEN 12 0 = s.rf aHIF_RECLEN 12 0 - 4 ∧
      cellRead t.power.recMem flashDefault (c.1 + (c.2 - s.rf aHIF_RECLEN 12 0)) 4 = toLE 4 v.toNat ∧
      t.power.recGot = s.power.recGot ∧ RegsBut [aHIF_RECLEN] s t ∧ BytesKept s t) ∧
  (∀ (s : State), s.power.recovery = true → s.rb aHIF_RECREQ 31 = true → s.power.safeState = false →
    s.power.bootSel ≠ 1 →
    ∃ t, exec .recoveryTimeout s = .next t ∧ t.power.mode = .resumed ∧ t.power.safeState = true ∧
      t.power.sedgeRuns = false ∧ BytesKept s t) ∧
  (∀ (s : State), s.power.reloading = true → s.resumed = true → s.rb aHIF_RECREQ 31 = false →
    shakeH (s.source (s.imageAt 2 (tget s.peat.runSlot 2 0) + 64) (min 524288 (le32 (s.source (s.imageAt 2 (tget s.peat.runSlot 2 0)) 64) 0xC))) 32 = s.peat.sedgeDigest →
    ∃ t, exec .sedgeReloadDone s = .next t ∧ t.power.sedgeRuns = true ∧ t.power.reloading = false ∧
      t.power.wdtAt = s.now ∧
      t.memRead 0x20000000 (s.source (s.imageAt 2 (tget s.peat.runSlot 2 0) + 64) (min 524288 (le32 (s.source (s.imageAt 2 (tget s.peat.runSlot 2 0)) 64) 0xC))).length = (s.source (s.imageAt 2 (tget s.peat.runSlot 2 0) + 64) (min 524288 (le32 (s.source (s.imageAt 2 (tget s.peat.runSlot 2 0)) 64) 0xC))) ∧
      RegsBut [aHSH_COUNT] s t ∧ t.flash = s.flash) ∧
  (∀ (s : State), s.resumed = true → s.power.sedgeRuns = true → s.rf aSYS_WDT_CFG 15 0 ≠ 0 → s.peat.serving = none →
    ∃ t, exec .sedgeWatchdogExpiry s = .next t ∧ t.rb aSYS_CORE_STATUS 1 = true ∧
      t.rf aSYS_CORE_STATUS 15 8 = min 255 (s.rf aSYS_CORE_STATUS 15 8 + 1) ∧ t.power.reloading = true ∧
      t.power.sedgeRuns = false ∧ t.envm = s.envm ∧ BytesKept s t) ∧
  (∀ (s : State) (v : Serving), s.resumed = true → s.power.sedgeRuns = true → s.rf aSYS_WDT_CFG 15 0 ≠ 0 →
    s.peat.serving = some v →
    ∃ t, exec .sedgeWatchdogExpiry s = .next t ∧ t.rb aSYS_CORE_STATUS 1 = true ∧
      t.peat.serving = some { v with discard := true } ∧ t.power = s.power ∧ RegsBut [aSYS_CORE_STATUS] s t ∧
      t.lanes = s.lanes ∧ BytesKept s t) ∧
  (∀ (s : State), s.up .peat = true →
    ∃ t, exec .peatWatchdogExpiry s = .next t ∧ t.power.mode = .starting ∧ t.reg aPWR_WAKE_SRC = 0 ∧
      t.envm = s.envm ∧ t.flash = s.flash) ∧
  (∀ (s : State), s.up .peat = true →
    ∃ t, exec .peatException s = .next t ∧ t.power.mode = .starting ∧ t.reg aPWR_WAKE_SRC = 0 ∧ t.envm = s.envm ∧
      t.flash = s.flash) ∧
  (∀ (s : State) (m : Master), Grants s m aSYS_WDT_KICK →
    ∃ t, exec (.kick m) s = .next t ∧ t.power = { s.power with wdtAt := s.now } ∧ RegsBut [] s t ∧
      t.lanes = s.lanes ∧ BytesKept s t)

/-- A granted START of an IDLE channel 0 to 123 that no check refuses sets STATE to RUNNING, holds the template it
names, and latches the GEN of the session it binds. A granted STOP of a RUNNING channel without front-end work
sets STATE to STOPPING, where a job of it runs or none waits. A granted ABORT of a channel whose job the AES
engine runs, and no other engine, with none waiting and no UWB front end, ends it: the engine is free, the
completion counts, with a failure, in the channel and in the engine, and the channel's last failure is ABORTED.
A STOPPING channel with no engine job and nothing open becomes IDLE and gives its template up.
(04_channels_and_sessions.md.) -/
def Obligations.ChannelLife : Prop :=
  (∀ (s : State) (m : Master) (ch : Nat) (b : Bytes), ch < 124 → Grants s m (aCHN_CTL ch) → s.chState ch = 0 →
    s.namedTemplate ch = some b → startRefusal s ch = cOk →
    ∃ t, exec (.channelStart m ch) s = .next t ∧ t.chState ch = 1 ∧ tfind t.templates ch = some b ∧
      (s.noses ch = true ∨ t.rf (aCHN_BIND ch) 23 16 = (s.ses (s.rf (aCHN_BIND ch) 15 8)).gen.toNat) ∧
      RegsBut [aCHN_BIND ch, aCHN_STATUS ch] s t ∧ t.lanes = s.lanes ∧ BytesKept s t) ∧
  (∀ (s : State) (m : Master) (ch : Nat), ch < 124 → Grants s m (aCHN_CTL ch) → s.chState ch = 1 →
    s.feClass ch ∉ [1, 2, 5] → s.peat.serving = none →
    (s.inEngine ch || (s.lane 10).committed.all fun p => decide (p.src ≠ ch)) = true →
    ∃ t, exec (.channelStop m ch) s = .next t ∧ t.chState ch = 2 ∧ (t.lane 10).committed = (s.lane 10).committed ∧
      RegsBut [aCHN_STATUS ch] s t ∧ BytesKept s t) ∧
  (∀ (s : State) (m : Master) (ch : Nat) (r : Run), ch < 128 → Grants s m (aCHN_CTL ch) → s.chState ch = 1 →
    s.feClass ch ≠ 5 → s.eng.aes = some r → r.chan = ch → s.eng.bn = none → s.eng.bnSusp = none → s.eng.hsh = none →
    ((s.lane 10).committed.all fun p => decide (p.src ≠ ch)) = true →
    ∃ t, exec (.channelAbort m ch) s = .next t ∧ t.eng.aes = none ∧ t.chState ch = 1 ∧
      t.rf (aCHN_STATUS ch) 15 8 = cAborted.toNat ∧
      t.rf (aCHN_COUNT ch) 31 16 = (s.rf (aCHN_COUNT ch) 31 16 + 1) % 65536 ∧
      t.rf aAES_COUNT 15 0 = (s.rf aAES_COUNT 15 0 + 1) % 65536 ∧
      t.rf aAES_COUNT 31 16 = (s.rf aAES_COUNT 31 16 + 1) % 65536 ∧
      RegsBut [aCHN_STATUS ch, aCHN_COUNT ch, aAES_COUNT, aQUE_DROP (s.rf (aCHN_QUEUES ch) 11 8)] s t ∧
      BytesKept s t) ∧
  (∀ (s : State) (ch : Nat), ch < 124 → s.chState ch = 2 → s.inEngine ch = false → s.feBusy ch = false →
    ∃ t, exec (.channelIdle ch) s = .next t ∧ t.chState ch = 0 ∧ tfind t.templates ch = none ∧ t.lanes = s.lanes ∧
      RegsBut [aCHN_STATUS ch] s t ∧ BytesKept s t)

/-- IDLE_TIMEOUT of a READY or OFFERED session, not of SUITE 3, that has an idle time and no job that names it, and
OFFER_TIMEOUT of an OFFERED one that has an offer time and no job, free the session, as SESSION_FREE does with a
CLOSING session that no engine uses, where Peat serves no request. The session has no cabin-side mirror. A freed
session holds nothing but its GEN, and every other session is as before; of the registers only the bindings of
channels change. (04_channels_and_sessions.md.) -/
def Obligations.SessionsEnd : Prop :=
  (∀ (s : State) (n : Nat), ((s.ses n).st = .ready ∨ (s.ses n).st = .offered) → (s.ses n).suite ≠ 3 →
    (s.ses n).idleTmo ≠ 0 → s.sesJobs n = false → tfind s.dist.map n = none →
    ∃ t, exec (.idleTimeout n) s = .next t ∧ t.ses n = { sesNil with gen := (s.ses n).gen } ∧
      (∀ k, k ≠ n → t.ses k = s.ses k) ∧ (∀ a, (∀ c, c < 128 → a ≠ aCHN_BIND c) → ¬ Counted a → t.reg a = s.reg a) ∧
      BytesKept s t) ∧
  (∀ (s : State) (n : Nat), (s.ses n).st = .offered → (s.ses n).offerTmo ≠ 0 → s.sesJobs n = false →
    tfind s.dist.map n = none →
    ∃ t, exec (.offerTimeout n) s = .next t ∧ t.ses n = { sesNil with gen := (s.ses n).gen } ∧
      (∀ k, k ≠ n → t.ses k = s.ses k) ∧ (∀ a, (∀ c, c < 128 → a ≠ aCHN_BIND c) → ¬ Counted a → t.reg a = s.reg a) ∧
      BytesKept s t) ∧
  (∀ (s : State) (n : Nat), (s.ses n).st = .closing → s.sesBusy n = false → s.peat.serving = none →
    ∃ t, exec (.sessionFree n) s = .next t ∧ t.ses n = { sesNil with gen := (s.ses n).gen } ∧
      (∀ k, k ≠ n → t.ses k = s.ses k) ∧ (∀ a, (∀ c, c < 128 → a ≠ aCHN_BIND c) → ¬ Counted a → t.reg a = s.reg a) ∧
      BytesKept s t)

/-- Peat pops a request that is whole, allowed in the life-cycle state and has room for its reply, serves it, and
answers in the reply ring with its operation and REQ_ID: ECHO OK with its own words; COUNTER_READ of a counter 0
to 63 OK with its value; PERF_GRANT_QUERY OK with PRF_GRANT; KEY_GEN of a slot 24 to 63 that Peat does not hold,
with a type that can be generated, allowed uses and no persistence, and with Peat's channel free for its jobs,
OK with the key check value or the public key once the random source has given its bytes, and the slot then
holds a key of that type and those uses; until then it waits for them. No register but the fences, the counts of
Peat's jobs and the counters of PRF_ and no byte of memory outside operand memory changes.
(03_peat_sedge_and_life_cycle.md, 11_key_store.md, 12_random_source.md.) -/
def Obligations.RequestsAnswered : Prop :=
  (∀ (s : State) (p : Packet), MailTakes s 0x7F p →
    ∃ t, exec .echo s = .next t ∧ Replies t p cOk (ofWords ((packetWords p).drop 1)) ∧ RegsBut fenceRegs s t ∧
      BytesKept s t) ∧
  (∀ (s : State) (p : Packet), MailTakes s 0x60 p → (mailArg p 0).toNat ≤ 63 →
    ∃ t, exec .counterRead s = .next t ∧ Replies t p cOk (toLE 4 (s.counter (mailArg p 0).toNat).toNat) ∧
      t.envm = s.envm ∧ RegsBut fenceRegs s t ∧ BytesKept s t) ∧
  (∀ (s : State) (p : Packet), MailTakes s 0x70 p →
    ∃ t, exec .perfGrantQuery s = .next t ∧ Replies t p cOk (toLE 4 (s.reg aPRF_GRANT).toNat) ∧
      RegsBut fenceRegs s t ∧ BytesKept s t) ∧
  (∀ (s : State) (p : Packet) (d : Bytes), MailTakes s 0x30 p → 24 ≤ (mailArg p 0).toNat →
    (mailArg p 0).toNat ≤ 63 → fld (mailArg p 1) 31 17 = 0 → kwType (mailArg p 1) ∈ [1, 2, 3, 4, 5, 6, 7, 9] →
    kwUse (mailArg p 1) ≠ 0 → kwUse (mailArg p 1) &&& typeUses (kwType (mailArg p 1)) = kwUse (mailArg p 1) →
    s.key (mailArg p 0).toNat = none → s.rb aKST_STATUS 1 = false → s.rngFailed = false →
    s.maskStopped (maskOfType (kwType (mailArg p 1))) = false → s.servedTo .peat = some (cOk, d) → PeatWorks s 127 →
    ∃ t, exec .keyGen s = .next t ∧
      (∃ k, t.key (mailArg p 0).toNat = some k ∧ k.typ = kwType (mailArg p 1) ∧ k.use = by8 (kwUse (mailArg p 1)) ∧ Replies t p cOk (keyResult k.typ k.key)) ∧
      RegsBut mailRegs s t ∧ OperandsOnly s t) ∧
  (∀ (s : State) (p : Packet), MailTakes s 0x30 p → 24 ≤ (mailArg p 0).toNat → (mailArg p 0).toNat ≤ 63 →
    fld (mailArg p 1) 31 17 = 0 → kwType (mailArg p 1) ∈ [1, 2, 3, 4, 5, 6, 7, 9] → kwUse (mailArg p 1) ≠ 0 →
    kwUse (mailArg p 1) &&& typeUses (kwType (mailArg p 1)) = kwUse (mailArg p 1) →
    s.key (mailArg p 0).toNat = none → s.rb aKST_STATUS 1 = false → s.rngFailed = false →
    s.maskStopped (maskOfType (kwType (mailArg p 1))) = false → s.servedTo .peat = none →
    ∃ t, exec .keyGen s = .next t ∧ (t.peat.serving).map (fun v => (v.op, v.waiting)) = some (0x30, .draw []) ∧
      t.drawWaits .peat = true ∧ t.key (mailArg p 0).toNat = none ∧ RegsBut fenceRegs s t ∧ BytesKept s t)

/-- SESSION_OPEN of an IDLE channel of software's whose template has SUITE 1 takes the free session n that follows
the one last taken, binds the channel to it and makes it OFFERED; it waits for conditioned output, and once that
is there, with room in the channel's output queue and no release decision waiting, commits an offer to that
queue and answers OK with n and its GEN; CH127 is free for Peat's jobs here and in KEY_AGREE. KEY_AGREE of an
OFFERED session with a message of the right form in a buffer, on a unit that is not the head, with a shared
secret that is not zero, makes it READY, keeps the peer's key, and answers OK, or REDUCED where the peer's value
was not below the prime. SESSION_CLOSE of a session in use, not of SUITE 3, that no engine uses and that has no
mirror, frees it and answers OK. (04_channels_and_sessions.md, 03_peat_sedge_and_life_cycle.md.) -/
def Obligations.SessionRequests : Prop :=
  (∀ (s : State) (p : Packet) (n : Nat) (b d : Bytes), MailTakes s 0x01 p → s.servedTo .peat = some (cOk, d) →
    PeatWorks s 127 → (mailArg p 0).toNat < 124 → s.chPeat (mailArg p 0).toNat = false →
    s.chState (mailArg p 0).toNat = 0 → s.namedTemplate (mailArg p 0).toNat = some b → byteAt b 2 = 1 →
    s.freeSession = some n → s.rf (aCHN_QUEUES (mailArg p 0).toNat) 7 4 < 8 → s.rel.pending = false →
    309 ≤ s.room (s.rf (aCHN_QUEUES (mailArg p 0).toNat) 7 4) →
    s.openCount (s.rf (aCHN_QUEUES (mailArg p 0).toNat) 7 4) < 8 →
    ∃ t, exec .sessionOpen s = .next t ∧ (t.ses n).st = .offered ∧ (t.ses n).suite = 1 ∧
      (t.ses n).gen = (s.ses n).gen + 1 ∧ t.rf (aCHN_BIND (mailArg p 0).toNat) 15 8 = n ∧
      (t.lane (s.rf (aCHN_QUEUES (mailArg p 0).toNat) 7 4)).committed.length = (s.lane (s.rf (aCHN_QUEUES (mailArg p 0).toNat) 7 4)).committed.length + 1 ∧
      Replies t p cOk (toLE 4 n ++ toLE 4 (t.ses n).gen.toNat) ∧
      RegsBut (aCHN_BIND (mailArg p 0).toNat :: mailRegs) s t ∧ OperandsOnly s t) ∧
  (∀ (s : State) (p : Packet) (n : Nat) (b : Bytes), MailTakes s 0x01 p → s.servedTo .peat = none →
    s.rngFailed = false → (mailArg p 0).toNat < 124 → s.chPeat (mailArg p 0).toNat = false →
    s.chState (mailArg p 0).toNat = 0 → s.namedTemplate (mailArg p 0).toNat = some b → byteAt b 2 = 1 →
    s.freeSession = some n →
    ∃ t, exec .sessionOpen s = .next t ∧
      (t.peat.serving).map (fun v => (v.op, v.waiting)) = some (0x01, .draw [by8 n]) ∧ t.drawWaits .peat = true ∧
      (t.ses n).st = .offered ∧ (t.ses n).gen = (s.ses n).gen + 1 ∧ t.rf (aCHN_BIND (mailArg p 0).toNat) 15 8 = n ∧
      RegsBut (aCHN_BIND (mailArg p 0).toNat :: fenceRegs) s t ∧ BytesKept s t) ∧
  (∀ (s : State) (p : Packet) (b : Bytes), MailTakes s 0x03 p → (mailArg p 0).toNat ≤ 255 →
    Holds s (mailArg p 1) (mailArg p 2) b → (mailArg p 2).toNat = 1124 → byteAt b 0 = 1 → byteAt b 1 = 1 →
    (s.ses (mailArg p 0).toNat).st = .offered → s.isHead = false → PeatWorks s 127 →
    x25519Fn (ofLE (slice (s.ses (mailArg p 0).toNat).slot 0 32)) (ofLE (slice b 4 32) % 2 ^ 255) ≠ 0 →
    ∃ t, exec .keyAgree s = .next t ∧ (t.ses (mailArg p 0).toNat).st = .ready ∧
      (t.ses (mailArg p 0).toNat).xPeer = slice b 4 32 ∧
      (t.ses (mailArg p 0).toNat).gen = (s.ses (mailArg p 0).toNat).gen ∧
      (∀ k, k ≠ (mailArg p 0).toNat → t.ses k = s.ses k) ∧
      Replies t p (if p25519 ≤ (ofLE (slice b 4 32) % 2 ^ 255) then cReduced else cOk) [] ∧ RegsBut mailRegs s t ∧
      OperandsOnly s t) ∧
  (∀ (s : State) (p : Packet), MailTakes s 0x02 p → (mailArg p 0).toNat ≤ 255 →
    (s.ses (mailArg p 0).toNat).st ≠ .free → (s.ses (mailArg p 0).toNat).suite ≠ 3 →
    s.sesBusy (mailArg p 0).toNat = false → tfind s.dist.map (mailArg p 0).toNat = none →
    ∃ t, exec .sessionClose s = .next t ∧
      t.ses (mailArg p 0).toNat = { sesNil with gen := (s.ses (mailArg p 0).toNat).gen } ∧
      (∀ k, k ≠ (mailArg p 0).toNat → t.ses k = s.ses k) ∧ Replies t p cOk [] ∧
      (∀ a, (∀ c, c < 128 → a ≠ aCHN_BIND c) → a ∉ fenceRegs → ¬ Counted a → t.reg a = s.reg a) ∧ BytesKept s t)

/-- REPLACEMENT_COMMIT of a replaced or removed channel template, which needs no drain, makes the candidate slot the
commit record, takes its version, keeps the new section, clears SEC_REPLACE and answers OK. DRAIN_TIMEOUT, of a
replacement that does not hold the chain, erases the candidate directory, clears SEC_REPLACE and answers
ABORTED. IMAGE_ACTIVATE of a staged Sedge image answers OK, makes it the running one and begins the reload; of a
staged Peat image it waits for the swap. IMAGE_CONFIRM raises the anti-rollback value of the type to the running
version, forgets its trial count and answers OK. PEAT_SWAP, with no applet and no decision in progress and a
staged image whose body has the digest that was checked, makes it the running one, drops resident applets and
answers OK; SWAP_TIMEOUT answers ABORTED. (03_peat_sedge_and_life_cycle.md, 02_power_and_startup.md.) -/
def Obligations.ReplacementsAndImages : Prop :=
  (∀ (s : State) (v : Serving) (slot key : Nat) (version : Word) (body : Option Bytes),
    Waits s v (.cfgDrain slot version key body) → key / 256 = 8 → 6 ∉ s.cfg.held →
    ∃ t, exec .replacementCommit s = .next t ∧ t.envm.commitRec = some (slot, version) ∧ t.cfg.slot = slot ∧
      t.cfg.version = version ∧ tfind t.cfg.sections key = body ∧ t.rb aPWR_STATUS 7 = false ∧
      Answers t v.op v.reqId cOk [] ∧ RegsBut (aPWR_STATUS :: fenceRegs) s t ∧ BytesKept s t) ∧
  (∀ (s : State) (v : Serving) (slot key : Nat) (version : Word) (body : Option Bytes),
    Waits s v (.cfgDrain slot version key body) → 6 ∉ s.cfg.held →
    ∃ t, exec .drainTimeout s = .next t ∧ t.flashRead (dirAddr slot) 4096 = List.replicate 4096 0xFF ∧
      t.envm = s.envm ∧ t.cfg.sections = s.cfg.sections ∧ t.rb aPWR_STATUS 7 = false ∧
      Answers t v.op v.reqId cAborted [] ∧ RegsBut (aPWR_STATUS :: fenceRegs) s t ∧ t.mem = s.mem) ∧
  (∀ (s : State) (p : Packet) (slot : Nat) (version : Word) (d : Bytes), MailTakes s 0x42 p →
    (mailArg p 0).toNat = 2 → tfind s.peat.staged 2 = some (slot, version, d) →
    ∃ t, exec .imageActivate s = .next t ∧ Replies t p cOk [] ∧
      tfind t.peat.runVersion 2 = some (w32 version.toNat) ∧ tfind t.peat.runSlot 2 = some slot ∧
      tfind t.peat.staged 2 = none ∧ t.power.reloading = true ∧ t.power.sedgeRuns = false ∧
      RegsBut (aSYS_CORE_STATUS :: aHIF_RECREQ :: aHIF_RECLEN :: fenceRegs) s t ∧ BytesKept s t) ∧
  (∀ (s : State) (p : Packet) (x : Nat × Word × Bytes), MailTakes s 0x42 p → (mailArg p 0).toNat = 1 →
    tfind s.peat.staged 1 = some x →
    ∃ t, exec .imageActivate s = .next t ∧ (t.peat.serving).map (·.waiting) = some .peatSwap ∧
      t.peat.staged = s.peat.staged ∧ RegsBut fenceRegs s t ∧ BytesKept s t) ∧
  (∀ (s : State) (p : Packet), MailTakes s 0x43 p → ((mailArg p 0).toNat = 1 ∨ (mailArg p 0).toNat = 2) →
    ∃ t, exec .imageConfirm s = .next t ∧
      tget t.envm.arb (mailArg p 0).toNat 0 = w32 (max (tget s.envm.arb (mailArg p 0).toNat 0).toNat (tget s.peat.runVersion (mailArg p 0).toNat 0).toNat) ∧
      tfind t.envm.trial (trialKey (mailArg p 0).toNat (tget s.peat.runVersion (mailArg p 0).toNat 0).toNat) = none ∧
      Replies t p cOk [] ∧ RegsBut (aSYS_CORE_STATUS :: fenceRegs) s t ∧ BytesKept s t) ∧
  (∀ (s : State) (v : Serving) (slot : Nat) (version : Word) (d : Bytes), Waits s v .peatSwap →
    s.peat.applet = none → s.rel.wave = false → s.releaseWaits = false →
    tfind s.peat.staged 1 = some (slot, version, d) →
    shakeH (s.flashRead (s.imageAt 1 slot + 64) (min 57344 (le32 (s.flashRead (s.imageAt 1 slot) 64) 0xC))) 32 = d →
    ∃ t, exec .peatSwap s = .next t ∧ Answers t v.op v.reqId cOk [] ∧
      tfind t.peat.runVersion 1 = some (w32 version.toNat) ∧ tfind t.peat.runSlot 1 = some slot ∧
      tfind t.peat.staged 1 = none ∧ t.peat.residents = [] ∧
      t.peat.peatFoot = le32 (s.flashRead (s.imageAt 1 slot) 64) 0x10 ∧ t.rb aSYS_CORE_STATUS 2 = false ∧
      RegsBut (aSYS_CORE_STATUS :: aHSH_COUNT :: fenceRegs) s t ∧ t.flash = s.flash) ∧
  (∀ (s : State) (v : Serving), Waits s v .peatSwap →
    ∃ t, exec .swapTimeout s = .next t ∧ Answers t v.op v.reqId cAborted [] ∧ t.envm = s.envm ∧
      t.peat.staged = s.peat.staged ∧ t.peat.runVersion = s.peat.runVersion ∧ RegsBut fenceRegs s t ∧ BytesKept s t)

/-- DEBUG_CHALLENGE of the mailbox waits for 32 bytes of conditioned output while the source has not failed, and
once they are there keeps them as the nonce and answers OK with the device identifier and it; through JTAG, with
Peat free, it does the same and shows both there. DEBUG_PASSWORD of 8 to 64 bytes whose digest under the salt is
the stored one, while no lock stands, opens level 1 or keeps a higher one, zeroes the failure count and answers
OK. NONCE_EXPIRY forgets the nonce, and PWD_LOCK_EXPIRY the lock of the password.
(03_peat_sedge_and_life_cycle.md.) -/
def Obligations.DebugRequests : Prop :=
  (∀ (s : State) (p : Packet) (d : Bytes), MailTakes s 0x51 p → s.servedTo .peat = some (cOk, d) →
    ∃ t, exec (.debugChallenge false) s = .next t ∧ t.peat.nonce = some (slice d 0 32) ∧
      Replies t p cOk (toLE 16 Config.deviceId.toNat ++ slice d 0 32) ∧ t.envm = s.envm ∧ RegsBut fenceRegs s t ∧
      BytesKept s t) ∧
  (∀ (s : State) (p : Packet), MailTakes s 0x51 p → s.servedTo .peat = none → s.rngFailed = false →
    ∃ t, exec (.debugChallenge false) s = .next t ∧
      (t.peat.serving).map (fun v => (v.op, v.waiting)) = some (0x51, .draw []) ∧ t.drawWaits .peat = true ∧
      t.peat.nonce = s.peat.nonce ∧ t.envm = s.envm ∧ RegsBut fenceRegs s t ∧ BytesKept s t) ∧
  (∀ (s : State) (d : Bytes), s.jtagFree = true → s.servedTo .jtag = some (cOk, d) →
    ∃ t, exec (.debugChallenge true) s = .next t ∧ t.peat.nonce = some (slice d 0 32) ∧
      t.peat.jtagOut = toLE 16 Config.deviceId.toNat ++ slice d 0 32 ∧ t.envm = s.envm ∧ t.regs = s.regs ∧
      t.lanes = s.lanes ∧ BytesKept s t) ∧
  (∀ (s : State), s.jtagFree = true → s.servedTo .jtag = none → s.rngFailed = false →
    ∃ t, exec (.debugChallenge true) s = .next t ∧ t.peat = { s.peat with jtagWait := some [] } ∧
      t.drawWaits .jtag = true ∧ t.envm = s.envm ∧ t.regs = s.regs ∧ t.lanes = s.lanes ∧ BytesKept s t) ∧
  (∀ (s : State) (p : Packet) (pol b : Bytes), MailTakes s 0x52 p → s.policy 5 = some pol → s.pwdLocked = false →
    8 ≤ (mailArg p 1).toNat → (mailArg p 1).toNat ≤ 64 → Holds s (mailArg p 0) (mailArg p 1) b →
    shakeH (pol.take 16 ++ b) 32 = slice pol 16 32 →
    ∃ t, exec .debugPassword s = .next t ∧ t.peat.debugLevel = max 1 s.peat.debugLevel ∧
      t.envm = { s.envm with pwdFails := 0 } ∧ Replies t p cOk [] ∧ RegsBut fenceRegs s t ∧ BytesKept s t) ∧
  (∀ (s : State),
    ∃ t, exec .nonceExpiry s = .next t ∧ t.peat = { s.peat with nonce := none } ∧ t.envm = s.envm ∧
      t.regs = s.regs ∧ t.lanes = s.lanes ∧ BytesKept s t) ∧
  (∀ (s : State),
    ∃ t, exec .pwdLockExpiry s = .next t ∧ t.envm = { s.envm with pwdLockedUntil := none } ∧ t.peat = s.peat ∧
      t.regs = s.regs ∧ t.lanes = s.lanes ∧ BytesKept s t)

/-- BIND of a channel of the front end of an enrolled token's class, with a template of SUITE 2 and no lock, binds
the channel to the READY session of that entry and answers OK with its number and GEN; with no such session it
opens one in the free session that is next. PHONE over a channel bound to a READY session of SUITE 1, whose
checked credential allows enrolment, of a serial that is enrolled already, waits for conditioned output, and
once that is there and gives a TID that no entry has, with room in the channel's output queue, writes the entry
anew with the key and the TID drawn and answers OK with its number and TID, CH127 being free for Peat's jobs
here and in BY_TOKEN. BY_TOKEN with an authorising token, a new TID, a free entry and room in the channel's
input queue opens a session, commits an AUTH command to the channel's input queue, and waits for its result;
BY_TOKEN_TIMEOUT closes that session, enrols nothing and answers ABORTED. (09_credentials_and_enrolment.md.) -/
def Obligations.EnrolmentRequests : Prop :=
  (∀ (s : State) (p : Packet) (b : Bytes) (x : Nat × Entry) (y : Nat × Session), MailTakes s 0x12 p →
    fld (mailArg p 1) 31 8 = 0x040000 → (mailArg p 0).toNat < 124 → 3 ≤ ((packetWords p).drop 1).length →
    s.isLocked (.cls (lockClass (s.feClass (mailArg p 0).toNat))) = false → s.entryByTid (mailArg p 2) = some x →
    s.isLocked (.entry x.1) = false → bindClass x.2.cls = s.feClass (mailArg p 0).toNat →
    s.templateOf (mailArg p 0).toNat = some b → byteAt b 2 = 2 →
    s.sess.find? (fun z => decide (z.2.suite = 2 ∧ z.2.entry = x.1 ∧ z.2.st = .ready)) = some y → y.1 < 256 →
    ∃ t, exec .bind s = .next t ∧ t.rf (aCHN_BIND (mailArg p 0).toNat) 15 8 = y.1 ∧
      t.rf (aCHN_BIND (mailArg p 0).toNat) 23 16 = (s.ses y.1).gen.toNat ∧
      t.rb (aCHN_BIND (mailArg p 0).toNat) 25 = false ∧ t.sess = s.sess ∧
      Replies t p cOk (toLE 4 y.1 ++ toLE 4 (s.ses y.1).gen.toNat) ∧
      RegsBut (aCHN_BIND (mailArg p 0).toNat :: fenceRegs) s t ∧ BytesKept s t) ∧
  (∀ (s : State) (p : Packet) (b : Bytes) (x : Nat × Entry) (n : Nat), MailTakes s 0x12 p →
    fld (mailArg p 1) 31 8 = 0x040000 → (mailArg p 0).toNat < 124 → 3 ≤ ((packetWords p).drop 1).length →
    s.isLocked (.cls (lockClass (s.feClass (mailArg p 0).toNat))) = false → s.entryByTid (mailArg p 2) = some x →
    s.isLocked (.entry x.1) = false → bindClass x.2.cls = s.feClass (mailArg p 0).toNat →
    s.templateOf (mailArg p 0).toNat = some b → byteAt b 2 = 2 →
    s.sess.find? (fun z => decide (z.2.suite = 2 ∧ z.2.entry = x.1 ∧ z.2.st = .ready)) = none →
    s.freeSession = some n →
    ∃ t, exec .bind s = .next t ∧ (t.ses n).st = .ready ∧ (t.ses n).suite = 2 ∧ (t.ses n).entry = x.1 ∧
      (t.ses n).tid = mailArg p 2 ∧ t.rf (aCHN_BIND (mailArg p 0).toNat) 15 8 = n ∧
      Replies t p cOk (toLE 4 n ++ toLE 4 (t.ses n).gen.toNat) ∧
      (∀ k, k ≠ n → t.ses k = { s.ses k with lastUse := (t.ses k).lastUse }) ∧
      RegsBut (aCHN_BIND (mailArg p 0).toNat :: fenceRegs) s t ∧ BytesKept s t) ∧
  (∀ (s : State) (p : Packet) (serial : Nat) (rights c : Word) (x : Nat × Entry) (d : Bytes), MailTakes s 0x12 p →
    fld (mailArg p 1) 31 8 = 0x030000 → (mailArg p 0).toNat < 124 → 2 ≤ ((packetWords p).drop 1).length →
    s.isLocked (.cls (lockClass (s.feClass (mailArg p 0).toNat))) = false →
    s.boundTo (mailArg p 0).toNat (s.rf (aCHN_BIND (mailArg p 0).toNat) 15 8) = true →
    (s.ses (s.rf (aCHN_BIND (mailArg p 0).toNat) 15 8)).suite = 1 →
    (s.ses (s.rf (aCHN_BIND (mailArg p 0).toNat) 15 8)).cred = some (serial, rights, c) → bit rights 3 = true →
    s.entryBySerial serial = some x → s.rngFailed = false → s.maskStopped 0 = false →
    s.servedTo .peat = some (cOk, d) → PeatWorks s 127 → s.entryByTid (w32 (ofLE (slice d 16 4))) = none →
    (s.ses (s.rf (aCHN_BIND (mailArg p 0).toNat) 15 8)).tx ≠ 0xFFFFFFFF →
    s.rf (aCHN_QUEUES (mailArg p 0).toNat) 7 4 < 8 → s.rel.pending = false →
    12 ≤ s.room (s.rf (aCHN_QUEUES (mailArg p 0).toNat) 7 4) →
    s.openCount (s.rf (aCHN_QUEUES (mailArg p 0).toNat) 7 4) < 8 →
    ∃ t, exec .phone s = .next t ∧
      tfind t.envm.entries x.1 = some ⟨false, false, 6, 0, (w32 (ofLE (slice d 16 4))), by8 rights.toNat, serial, slice d 0 16⟩ ∧
      (t.ses (s.rf (aCHN_BIND (mailArg p 0).toNat) 15 8)).tx = (s.ses (s.rf (aCHN_BIND (mailArg p 0).toNat) 15 8)).tx + 1 ∧
      Replies t p cOk (toLE 4 x.1 ++ toLE 4 (w32 (ofLE (slice d 16 4))).toNat) ∧ RegsBut mailRegs s t ∧
      t.flash = s.flash) ∧
  (∀ (s : State) (p : Packet) (serial : Nat) (rights c : Word) (x : Nat × Entry), MailTakes s 0x12 p →
    fld (mailArg p 1) 31 8 = 0x030000 → (mailArg p 0).toNat < 124 → 2 ≤ ((packetWords p).drop 1).length →
    s.isLocked (.cls (lockClass (s.feClass (mailArg p 0).toNat))) = false →
    s.boundTo (mailArg p 0).toNat (s.rf (aCHN_BIND (mailArg p 0).toNat) 15 8) = true →
    (s.ses (s.rf (aCHN_BIND (mailArg p 0).toNat) 15 8)).suite = 1 →
    (s.ses (s.rf (aCHN_BIND (mailArg p 0).toNat) 15 8)).cred = some (serial, rights, c) → bit rights 3 = true →
    s.entryBySerial serial = some x → s.rngFailed = false → s.maskStopped 0 = false → s.servedTo .peat = none →
    ∃ t, exec .phone s = .next t ∧ (t.peat.serving).map (fun v => (v.op, v.waiting)) = some (0x12, .draw []) ∧
      t.drawWaits .peat = true ∧ t.envm = s.envm ∧ t.sess = s.sess ∧ RegsBut fenceRegs s t ∧ BytesKept s t) ∧
  (∀ (s : State) (p : Packet) (rights : Byte) (k : Slot) (n : Nat), MailTakes s 0x12 p →
    fld (mailArg p 1) 31 8 = 0x020000 → (mailArg p 0).toNat < 124 →
    (fld (mailArg p 1) 7 0 = 3 ∨ fld (mailArg p 1) 7 0 = 4) → s.feClass (mailArg p 0).toNat = 1 →
    s.isLocked (.cls 0) = false → s.authorising = some rights → s.entryByTid (mailArg p 2) = none →
    s.freeEntry ≠ none → s.key 12 = some k → PeatWorks s 127 → s.freeSession = some n →
    s.openCount (s.rf (aCHN_QUEUES (mailArg p 0).toNat) 3 0) < 8 → s.rf (aCHN_QUEUES (mailArg p 0).toNat) 3 0 < 8 →
    s.rf (aCHN_QUEUES (mailArg p 0).toNat) 7 4 ≠ s.rf (aCHN_QUEUES (mailArg p 0).toNat) 3 0 →
    s.rel.pending = false → 2 ≤ s.room (s.rf (aCHN_QUEUES (mailArg p 0).toNat) 3 0) →
    ∃ t, exec .byToken s = .next t ∧
      (t.peat.serving).map (·.waiting) = some (.byTokenAuth n (t.ses n).gen.toNat (fld (mailArg p 1) 7 0) (mailArg p 2) rights) ∧
      (t.ses n).st = .ready ∧ (t.ses n).tid = mailArg p 2 ∧
      (t.lane (s.rf (aCHN_QUEUES (mailArg p 0).toNat) 3 0)).committed.length = (s.lane (s.rf (aCHN_QUEUES (mailArg p 0).toNat) 3 0)).committed.length + 1 ∧
      t.envm = s.envm ∧ RegsBut (aCHN_BIND (mailArg p 0).toNat :: mailRegs) s t ∧ BytesKept s t) ∧
  (∀ (s : State) (v : Serving) (n gen cls : Nat) (tid : Word) (rights : Byte),
    Waits s v (.byTokenAuth n gen cls tid rights) → s.sesBusy n = false → tfind s.dist.map n = none →
    ∃ t, exec .byTokenTimeout s = .next t ∧ t.ses n = { sesNil with gen := (s.ses n).gen } ∧ t.envm = s.envm ∧
      Answers t v.op v.reqId cAborted [] ∧ BytesKept s t)

/-- A granted write of CRD_MAPQ with GO, of a serial whose sector is cached, puts the serial into CRD_MAPQ and DONE,
CACHED and the revocation bit into CRD_MAPR. LOCK_END of a lock clears it with its failures;
FAILURE_WINDOW_EXPIRY of a target that is not locked drops the oldest failure.
(09_credentials_and_enrolment.md.) -/
def Obligations.MapQueriesAndLockouts : Prop :=
  (∀ (s : State) (m : Master) (v : Word) (e : Nat × Bytes), Grants s m aCRD_MAPQ → bit v 31 = true →
    s.envm.mapInit = true → s.mapCache.find? (fun e => decide (e.1 = fld v 19 0 / 32768)) = some e →
    ∃ t, exec (.mapqGo m v) s = .next t ∧ t.reg aCRD_MAPQ = w32 (fld v 19 0) ∧
      t.reg aCRD_MAPR = w32 (12 + b2n (mapBit (fld v 19 0) e.2)) ∧ t.envm = s.envm ∧
      RegsBut [aCRD_MAPQ, aCRD_MAPR] s t ∧ BytesKept s t) ∧
  (∀ (s : State) (k : LockTarget), (s.rawLock k).lockedUntil ≠ none →
    ∃ t, exec (.lockEnd k) s = .next t ∧ t.rawLock k = lockNil ∧ (∀ x, x ≠ k → t.rawLock x = s.rawLock x) ∧
      t.regs = s.regs ∧ t.lanes = s.lanes ∧ BytesKept s t) ∧
  (∀ (s : State) (k : LockTarget), (s.rawLock k).lockedUntil = none →
    ∃ t, exec (.failureWindowExpiry k) s = .next t ∧ (t.rawLock k).fails = (s.rawLock k).fails.drop 1 ∧
      (t.rawLock k).lockedUntil = none ∧ (∀ x, x ≠ k → t.rawLock x = s.rawLock x) ∧ t.regs = s.regs ∧
      t.lanes = s.lanes ∧ BytesKept s t)

/-- LF_WAKE, LF_AUTH, LF_LOCATE, LF_TUNE and LF_MEASURE, at the head of the channel that the sequencer chooses,
whole, and with no reason for a refusal, leave the channel's input queue and wait behind the LF commands taken
before; no register but LF_FLAGS, whose GOV shows whether a command waits for the budget, and the counters of
PRF_ changes. (05_lf_wake_and_transponders.md.) -/
def Obligations.LfCommandsTaken : Prop :=
  (∀ (s : State) (c : LfCmd) (p : Packet), LfTakes s c p → lfCmd c = 1 →
    ∃ t, exec (.lfWake c.chan) s = .next t ∧ t.lf = { s.lf with waiting := s.lf.waiting ++ [c] } ∧
      (t.lane (s.rf (aCHN_QUEUES c.chan) 3 0)).committed = (s.lane (s.rf (aCHN_QUEUES c.chan) 3 0)).committed.erase p ∧
      t.envm = s.envm ∧ RegsBut [aLF_FLAGS] s t ∧ BytesKept s t) ∧
  (∀ (s : State) (c : LfCmd) (p : Packet), LfTakes s c p → lfCmd c = 2 →
    ∃ t, exec (.lfAuth c.chan) s = .next t ∧ t.lf = { s.lf with waiting := s.lf.waiting ++ [c] } ∧
      (t.lane (s.rf (aCHN_QUEUES c.chan) 3 0)).committed = (s.lane (s.rf (aCHN_QUEUES c.chan) 3 0)).committed.erase p ∧
      t.envm = s.envm ∧ RegsBut [aLF_FLAGS] s t ∧ BytesKept s t) ∧
  (∀ (s : State) (c : LfCmd) (p : Packet), LfTakes s c p → lfCmd c = 3 →
    ∃ t, exec (.lfLocate c.chan) s = .next t ∧ t.lf = { s.lf with waiting := s.lf.waiting ++ [c] } ∧
      (t.lane (s.rf (aCHN_QUEUES c.chan) 3 0)).committed = (s.lane (s.rf (aCHN_QUEUES c.chan) 3 0)).committed.erase p ∧
      t.envm = s.envm ∧ RegsBut [aLF_FLAGS] s t ∧ BytesKept s t) ∧
  (∀ (s : State) (c : LfCmd) (p : Packet), LfTakes s c p → lfCmd c = 4 →
    ∃ t, exec (.lfTune c.chan) s = .next t ∧ t.lf = { s.lf with waiting := s.lf.waiting ++ [c] } ∧
      (t.lane (s.rf (aCHN_QUEUES c.chan) 3 0)).committed = (s.lane (s.rf (aCHN_QUEUES c.chan) 3 0)).committed.erase p ∧
      t.envm = s.envm ∧ RegsBut [aLF_FLAGS] s t ∧ BytesKept s t) ∧
  (∀ (s : State) (c : LfCmd) (p : Packet), LfTakes s c p → lfCmd c = 5 →
    ∃ t, exec (.lfMeasure c.chan) s = .next t ∧ t.lf = { s.lf with waiting := s.lf.waiting ++ [c] } ∧
      (t.lane (s.rf (aCHN_QUEUES c.chan) 3 0)).committed = (s.lane (s.rf (aCHN_QUEUES c.chan) 3 0)).committed.erase p ∧
      t.envm = s.envm ∧ RegsBut [aLF_FLAGS] s t ∧ BytesKept s t)

/-- LF_EXCHANGE_START, with no exchange in progress, full duty, VDRV in its range and no driver open or shorted,
starts the best waiting command that is not locked out, an AUTH once its RC is there: it waits no longer, its
aerials are shown as driven, BUSY is set, and of a WAKE, AUTH or LOCATE the downlink frame that R126 forms is
sent, with RC and DA in that of an AUTH. A sound WAKE answer delivers OK with ANSWER and the transponder's TID,
an AUTH answer that is the TA expected OK with ANSWER and the session's TID, with an interrupt, a tone the axes
of a LOCATE, and a window that closes without an answer OK without ANSWER; the end of a MEASURE delivers its
axes. Each ends the exchange and clears BUSY. A granted write of LF_CARRIER in range with no exchange stores its
bits 29 to 0. The channel has no re-polls left, its results have room, and Peat waits for nothing.
(05_lf_wake_and_transponders.md.) -/
def Obligations.LfExchanges : Prop :=
  (∀ (s : State) (c : LfCmd) (o : LfConditions), s.resumed = true → s.lf.cur = none →
    s.lfBest (lfFirsts [] s.lf.waiting) = some c → s.lfLockedCmd c = false → s.duty = 16 →
    s.rb aPWR_STATUS 4 = false →
    5500 ≤ ((s.lfDriven c).map fun i => s.lfVeff (s.lfCountOf i (lfTogether c (s.lfDriven c)) o.temp) (lfTogether c (s.lfDriven c)) o.vdrvIdle).foldl min o.vdrvIdle →
    o.opens = 0 → o.shorts = 0 → s.peat.serving = none → lfCmd c ≠ 2 →
    ∃ t, exec (.lfExchangeStart o) s = .next t ∧ (t.lf.cur).map (·.cmd) = some c ∧
      (t.lf.cur).map (·.aerials) = some (s.lfDriven c) ∧ t.lf.waiting = s.lf.waiting.erase c ∧
      t.lf.sent = (if lfCmd c ≤ 3 then lfFrame c [] else s.lf.sent) ∧
      t.reg aLF_STATUS = w32 (maskOf ((s.lfDriven c).take (if lfCmd c = 4 then 1 else 4))) ∧
      t.rb aLF_FLAGS 1 = true ∧ t.rb aLF_FLAGS 2 = false ∧ t.envm = s.envm ∧ BytesKept s t) ∧
  (∀ (s : State) (c : LfCmd) (o : LfConditions) (n : Nat) (d : Bytes), s.resumed = true → s.lf.cur = none →
    s.lfBest (lfFirsts [] s.lf.waiting) = some c → s.lfLockedCmd c = false → s.duty = 16 →
    s.rb aPWR_STATUS 4 = false →
    5500 ≤ ((s.lfDriven c).map fun i => s.lfVeff (s.lfCountOf i (lfTogether c (s.lfDriven c)) o.temp) (lfTogether c (s.lfDriven c)) o.vdrvIdle).foldl min o.vdrvIdle →
    o.opens = 0 → o.shorts = 0 → s.peat.serving = none → lfCmd c = 2 → s.rngFailed = false →
    s.maskStopped 0 = false → s.tokenSes c.chan = some n → s.servedTo .lf = some (cOk, d) →
    ∃ t, exec (.lfExchangeStart o) s = .next t ∧
      (t.lf.cur).map (fun x => (x.cmd, x.ta, x.ses, x.tid)) = some (c, (s.lfChallenge n (slice d 0 8)).1.2, n, (s.ses n).tid) ∧
      t.lf.sent = lfFrame c (s.lfChallenge n (slice d 0 8)).1.1 ∧ t.lf.waiting = s.lf.waiting.erase c ∧
      t.rb aLF_FLAGS 1 = true ∧ t.envm = s.envm ∧ BytesKept s t) ∧
  (∀ (s : State) (x : LfExch) (b : Bytes), LfHears s x 3 → lfCmd x.cmd = 1 → b.length = 5 → lfCrcOk b = true →
    ∃ t, exec (.lfAnswer (.frame b)) s = .next t ∧
      Delivers s t x.cmd.chan (lfPlain s x.cmd cOk false true x.slot (w32 (ofBE (b.take 4)))) ∧ t.lf.cur = none ∧
      t.reg aLF_STATUS = 0 ∧ t.rb aLF_FLAGS 1 = false ∧ t.envm = s.envm ∧ RegsBut [aLF_STATUS, aLF_FLAGS] s t ∧
      BytesKept s t) ∧
  (∀ (s : State) (x : LfExch) (b : Bytes), LfHears s x 3 → lfCmd x.cmd = 2 → lfCrcOk b = true → b.dropLast = x.ta →
    s.lfAlive x = true → resultLane s x.cmd.chan ≠ 3 →
    ∃ t, exec (.lfAnswer (.frame b)) s = .next t ∧
      Delivers s t x.cmd.chan (lfPlain s x.cmd cOk false true x.slot x.tid) ∧ t.lf.cur = none ∧
      t.rf aLF_AUTHLAST0 31 24 = cOk.toNat ∧ .authLast ∈ t.irqs ∧ BytesKept s t) ∧
  (∀ (s : State) (x : LfExch) (a : Axes), LfHears s x 5 → lfCmd x.cmd = 3 →
    ∃ t, exec (.lfAnswer (.tone a)) s = .next t ∧
      Delivers s t x.cmd.chan (lfHead s x.cmd cOk false true x.slot 0 ++ lfAxes a) ∧ t.lf.cur = none ∧
      t.reg aLF_STATUS = 0 ∧ t.rb aLF_FLAGS 1 = false ∧ t.envm = s.envm ∧ RegsBut [aLF_STATUS, aLF_FLAGS] s t ∧
      BytesKept s t) ∧
  (∀ (s : State) (x : LfExch), LfHears s x 5 → lfCmd x.cmd ≠ 2 →
    ∃ t, exec .lfWindowClose s = .next t ∧ Delivers s t x.cmd.chan (lfPlain s x.cmd cOk false false x.slot 0) ∧
      t.lf.cur = none ∧ t.reg aLF_STATUS = 0 ∧ t.rb aLF_FLAGS 1 = false ∧ t.envm = s.envm ∧
      RegsBut [aLF_STATUS, aLF_FLAGS] s t ∧ BytesKept s t) ∧
  (∀ (s : State) (x : LfExch) (a : Axes) (l : List (List Nat)), s.lf.cur = some x → x.mixed = false →
    x.due = false → lfCmd x.cmd = 5 → x.repoll = [] → s.lf.carrierNext = none → RoomFor s x.cmd.chan 5 → LfSound s →
    s.peat.serving = none →
    ∃ t, exec (.lfExchangeEnd a l) s = .next t ∧
      Delivers s t x.cmd.chan (lfHead s x.cmd cOk false false x.slot 0 ++ lfAxes a) ∧ t.lf.cur = none ∧
      t.reg aLF_STATUS = 0 ∧ t.rb aLF_FLAGS 1 = false ∧ t.envm = s.envm ∧ RegsBut [aLF_STATUS, aLF_FLAGS] s t ∧
      BytesKept s t) ∧
  (∀ (s : State) (m : Master) (v : Word), Grants s m aLF_CARRIER → s.lf.cur = none →
    3616 * 2 ^ 20 ≤ lfDivisor (v &&& 0x3FFFFFFF) * 10 → lfDivisor (v &&& 0x3FFFFFFF) * 10 ≤ 5424 * 2 ^ 20 →
    ∃ t, exec (.lfCarrierWrite m v) s = .next t ∧ t.reg aLF_CARRIER = v &&& 0x3FFFFFFF ∧ RegsBut [aLF_CARRIER] s t ∧
      t.lanes = s.lanes ∧ BytesKept s t)

/-- With no exchange open, no guard time and no external field, and no reason for a refusal: FIELD_ON with the field
off turns it on and waits for the guard time; FIELD_OFF turns it off, forgets the card, begins the guard time
and delivers OK; ACTIVATE_A, ACTIVATE_B, EXCHANGE, RAW and DESELECT of an activated card open their exchange and
send their frames; DETECT with pings enabled measures one, keeps it and delivers it. The command leaves the
channel's input queue. (06_nfc_reader_and_tag.md.) -/
def Obligations.NfcCommandsTaken : Prop :=
  (∀ (s : State) (c : NfcCmd) (p : Packet) (ext : Bool), NfcTakes s c p → nfcCode c = 1 → s.nfc.fieldOn = false →
    ext = false →
    ∃ t, exec (.fieldOn c.chan ext) s = .next t ∧ t.nfc.fieldOn = true ∧ t.nfc.cur = some c ∧
      (t.lane (s.rf (aCHN_QUEUES c.chan) 3 0)).committed = (s.lane (s.rf (aCHN_QUEUES c.chan) 3 0)).committed.erase p ∧
      RegsBut [] s t ∧ t.envm = s.envm ∧ BytesKept s t) ∧
  (∀ (s : State) (c : NfcCmd) (p : Packet), NfcTakes s c p → nfcCode c = 2 → RoomFor s c.chan 3 →
    resultLane s c.chan ≠ s.rf (aCHN_QUEUES c.chan) 3 0 →
    ∃ t, exec (.fieldOff c.chan) s = .next t ∧ t.nfc.fieldOn = false ∧ t.nfc.card = none ∧ t.nfc.guard = true ∧
      Delivers s t c.chan [w32 (cOk.toNat * 2 ^ 24 + 2 * 2 ^ 20), s.sysLo, 0] ∧
      (t.lane (s.rf (aCHN_QUEUES c.chan) 3 0)).committed = (s.lane (s.rf (aCHN_QUEUES c.chan) 3 0)).committed.erase p ∧
      RegsBut [] s t ∧ t.envm = s.envm ∧ BytesKept s t) ∧
  (∀ (s : State) (c : NfcCmd) (p : Packet), NfcTakes s c p → nfcCode c = 3 →
    ∃ t, exec (.activateA c.chan false) s = .next t ∧ t.nfc.fieldOn = true ∧ t.nfc.cur = some c ∧
      t.nfc.sent = s.nfcFrames c ∧
      (t.lane (s.rf (aCHN_QUEUES c.chan) 3 0)).committed = (s.lane (s.rf (aCHN_QUEUES c.chan) 3 0)).committed.erase p ∧
      RegsBut [] s t ∧ t.envm = s.envm ∧ BytesKept s t) ∧
  (∀ (s : State) (c : NfcCmd) (p : Packet), NfcTakes s c p → nfcCode c = 4 →
    ∃ t, exec (.activateB c.chan false) s = .next t ∧ t.nfc.fieldOn = true ∧ t.nfc.cur = some c ∧
      t.nfc.sent = s.nfcFrames c ∧
      (t.lane (s.rf (aCHN_QUEUES c.chan) 3 0)).committed = (s.lane (s.rf (aCHN_QUEUES c.chan) 3 0)).committed.erase p ∧
      RegsBut [] s t ∧ t.envm = s.envm ∧ BytesKept s t) ∧
  (∀ (s : State) (c : NfcCmd) (p : Packet), NfcTakes s c p → nfcCode c = 5 →
    ∃ t, exec (.exchange c.chan) s = .next t ∧ t.nfc.card = s.nfc.card ∧ t.nfc.cur = some c ∧
      t.nfc.sent = s.nfcFrames c ∧
      (t.lane (s.rf (aCHN_QUEUES c.chan) 3 0)).committed = (s.lane (s.rf (aCHN_QUEUES c.chan) 3 0)).committed.erase p ∧
      RegsBut [] s t ∧ t.envm = s.envm ∧ BytesKept s t) ∧
  (∀ (s : State) (c : NfcCmd) (p : Packet), NfcTakes s c p → nfcCode c = 6 →
    ∃ t, exec (.raw c.chan false) s = .next t ∧ t.nfc.fieldOn = true ∧ t.nfc.cur = some c ∧
      t.nfc.sent = s.nfcFrames c ∧
      (t.lane (s.rf (aCHN_QUEUES c.chan) 3 0)).committed = (s.lane (s.rf (aCHN_QUEUES c.chan) 3 0)).committed.erase p ∧
      RegsBut [] s t ∧ t.envm = s.envm ∧ BytesKept s t) ∧
  (∀ (s : State) (c : NfcCmd) (p : Packet), NfcTakes s c p → nfcCode c = 7 → s.nfc.card ≠ none →
    ∃ t, exec (.deselect c.chan) s = .next t ∧ t.nfc.card = s.nfc.card ∧ t.nfc.cur = some c ∧
      t.nfc.sent = s.nfcFrames c ∧
      (t.lane (s.rf (aCHN_QUEUES c.chan) 3 0)).committed = (s.lane (s.rf (aCHN_QUEUES c.chan) 3 0)).committed.erase p ∧
      RegsBut [] s t ∧ t.envm = s.envm ∧ BytesKept s t) ∧
  (∀ (s : State) (c : NfcCmd) (p : Packet) (g : Ping), NfcTakes s c p → nfcCode c = 8 → s.rf aNFC_LPCD 7 0 ≠ 0 →
    RoomFor s c.chan 4 → resultLane s c.chan ≠ s.rf (aCHN_QUEUES c.chan) 3 0 →
    ∃ t, exec (.detect c.chan false g) s = .next t ∧ t.nfc.cur = none ∧ t.nfc.fieldOn = false ∧
      t.reg aNFC_LPCDLAST = pingWord g.amp g.phase ∧
      Delivers s t c.chan [w32 (cOk.toNat * 2 ^ 24 + 8 * 2 ^ 20 + 4), s.sysLo, 0, pingWord g.amp g.phase] ∧
      (t.lane (s.rf (aCHN_QUEUES c.chan) 3 0)).committed = (s.lane (s.rf (aCHN_QUEUES c.chan) 3 0)).committed.erase p ∧
      RegsBut [aNFC_LPCDLAST, aNFC_LPCDBASE] s t ∧ t.envm = s.envm ∧ BytesKept s t)

/-- The last block of the answer to an EXCHANGE, of up to 4,096 bytes with those that came before, is delivered with
them and OK. A garbled answer, and an FWT that passes, in an EXCHANGE whose block has had fewer than two R(NAK)s
sends one more and leaves it open. An acknowledged block of a chained EXCHANGE sends the next one. A card that
answers DESELECT is halted, and OK delivered. The FWT of a RAW command, or of an EXCHANGE after two R(NAK)s,
delivers OK with NORESP. Each but the retries leaves no exchange open. The guard time ends a FIELD_ON, which
delivers OK, and else allows commands again. No register written during the command made its result
unpredictable. (06_nfc_reader_and_tag.md.) -/
def Obligations.NfcExchangesEnd : Prop :=
  (∀ (s : State) (c : NfcCmd) (b : Bytes) (n : Nat), s.nfc.cur = some c → c.mixed = false → nfcCode c = 5 →
    (s.nfc.answer ++ b).length ≤ 4096 → RoomFor s c.chan (((s.nfc.answer ++ b).length + 3) / 4 + 3) →
    ∃ t, exec (.nfcCardAnswer (.data b n)) s = .next t ∧ t.nfc.cur = none ∧
      Delivers s t c.chan (toWords (nfcBytes s c cOk nfcPlain (s.nfc.answer ++ b))) ∧ RegsBut [] s t ∧
      t.envm = s.envm ∧ BytesKept s t) ∧
  (∀ (s : State) (c : NfcCmd) (k : Card), s.nfc.cur = some c → nfcCode c = 5 → s.nfc.card = some k →
    s.nfc.naks < 2 →
    ∃ t, exec (.nfcCardAnswer .garbled) s = .next t ∧
      t.nfc = { s.nfc with naks := s.nfc.naks + 1, sent := s.nfc.sent ++ [framed k.typeB [by8 (0xB2 + b2n k.blk)]] } ∧
      t.regs = s.regs ∧ t.lanes = s.lanes ∧ t.envm = s.envm ∧ BytesKept s t) ∧
  (∀ (s : State) (c : NfcCmd) (k : Card), s.nfc.cur = some c → nfcCode c = 5 → s.nfc.card = some k →
    s.nfc.naks < 2 →
    ∃ t, exec .fwtExpiry s = .next t ∧
      t.nfc = { s.nfc with naks := s.nfc.naks + 1, sent := s.nfc.sent ++ [framed k.typeB [by8 (0xB2 + b2n k.blk)]] } ∧
      t.regs = s.regs ∧ t.lanes = s.lanes ∧ t.envm = s.envm ∧ BytesKept s t) ∧
  (∀ (s : State) (c : NfcCmd) (b : Bytes) (l : List Bytes), s.nfc.cur = some c → nfcCode c = 5 →
    s.nfc.left = b :: l →
    ∃ t, exec (.nfcCardAnswer .ack) s = .next t ∧ t.nfc.cur = some c ∧ t.nfc.left = l ∧
      t.nfc.sent = s.nfc.sent ++ [b] ∧ t.nfc.naks = 0 ∧ t.regs = s.regs ∧ t.lanes = s.lanes ∧ t.envm = s.envm ∧
      BytesKept s t) ∧
  (∀ (s : State) (c : NfcCmd) (k : Card), s.nfc.cur = some c → c.mixed = false → nfcCode c = 7 →
    s.nfc.card = some k → RoomFor s c.chan 3 →
    ∃ t, exec (.nfcCardAnswer .deselected) s = .next t ∧ t.nfc.cur = none ∧ t.nfc.card = none ∧
      t.nfc.halted = k.uid :: s.nfc.halted ∧
      Delivers s t c.chan [w32 (cOk.toNat * 2 ^ 24 + 7 * 2 ^ 20), s.sysLo, 0] ∧ RegsBut [] s t ∧ t.envm = s.envm ∧
      BytesKept s t) ∧
  (∀ (s : State) (c : NfcCmd), s.nfc.cur = some c → c.mixed = false →
    (nfcCode c = 6 ∨ nfcCode c = 5 ∧ 2 ≤ s.nfc.naks) → RoomFor s c.chan 3 →
    ∃ t, exec .fwtExpiry s = .next t ∧ t.nfc.cur = none ∧ t.nfc.card = s.nfc.card ∧
      Delivers s t c.chan (toWords (nfcBytes s c cOk nfcSilent [])) ∧ RegsBut [] s t ∧ t.envm = s.envm ∧
      BytesKept s t) ∧
  (∀ (s : State) (c : NfcCmd), s.nfc.cur = some c → c.mixed = false → nfcCode c = 1 → RoomFor s c.chan 3 →
    ∃ t, exec .guardExpiry s = .next t ∧ t.nfc.cur = none ∧ t.nfc.fieldOn = s.nfc.fieldOn ∧
      Delivers s t c.chan (toWords (nfcBytes s c cOk nfcPlain [])) ∧ RegsBut [] s t ∧ t.envm = s.envm ∧
      BytesKept s t) ∧
  (∀ (s : State), s.nfc.cur = none →
    ∃ t, exec .guardExpiry s = .next t ∧ t.nfc = { s.nfc with guard := false } ∧ t.regs = s.regs ∧
      t.lanes = s.lanes ∧ t.envm = s.envm ∧ BytesKept s t)

/-- A field over the presence threshold is noted where the unit has an NFC section and is not SCRAPPED; the island
then is ready with the next island counter and a UID of 0x08 and the first three bytes of its first challenge. A
ready tag that hears the field and is not active answers REQA and WUPA with the ATQA, the rest of its UID and
BCC to an anticollision frame that matches it, 0x20 to the SELECT of its UID, and when selected the ATS to RATS;
an active one that waits for nothing answers a PPS that changes no rate. When the field is lost, with no
shadowed write, nothing of the selection is kept. No register (the counters of PRF_ apart), no queue and no
memory changes. (06_nfc_reader_and_tag.md.) -/
def Obligations.TagActivation : Prop :=
  (∀ (s : State), s.tag.field = false → s.envm.islandCfg ≠ none → s.envm.lcs ≠ 5 →
    ∃ t, exec .fieldPresence s = .next t ∧ t.tag.field = true ∧ t.tag.ready = false ∧ t.envm = s.envm ∧ OnlyTag s t) ∧
  (∀ (s : State), s.tag.field = true → s.tag.ready = false → s.counter 47 ≠ 0xFFFFFFFF → s.envm.logHeld = none →
    ∃ t, exec .islandReady s = .next t ∧ t.tag.ready = true ∧ t.tag.c = s.counter 47 + 1 ∧
      t.counter 47 = s.counter 47 + 1 ∧ t.tag.uid.head? = some 0x08 ∧
      (∀ k, s.envm.kis = some k → t.tag.uid = 0x08 :: (aesEnc k (toLE 4 (s.counter 47 + 1).toNat ++ [by8 0] ++ zeros 11)).take 3) ∧
      t.regs = s.regs ∧ t.lanes = s.lanes ∧ BytesKept s t) ∧
  (∀ (s : State), s.tag.field = true → s.tag.shadows = [] →
    ∃ t, exec .fieldLoss s = .next t ∧ t.tag.field = false ∧ t.tag.ready = false ∧ t.tag.active = false ∧
      t.tag.selected = false ∧ t.tag.authEntry = none ∧ t.envm = s.envm ∧ OnlyTag s t) ∧
  (∀ (s : State), s.tagHears = true → s.tag.active = false → s.tag.picked = false →
    ∃ t, exec .tagReqa s = .next t ∧
      t.tag = { s.tag with answer := [0x04, 0x00], delayFc := 1172, pendingAnswer := false } ∧ t.envm = s.envm ∧
      OnlyTag s t) ∧
  (∀ (s : State), s.tagHears = true → s.tag.active = false → s.tag.picked = false →
    ∃ t, exec .tagWupa s = .next t ∧
      t.tag = { s.tag with answer := [0x04, 0x00], delayFc := 1236, pendingAnswer := false } ∧ t.envm = s.envm ∧
      OnlyTag s t) ∧
  (∀ (s : State) (n : Nat) (b : Bytes), s.tagHears = true → s.tag.active = false → s.tag.picked = false → n < 40 →
    ((List.range n).all fun i => strBit b i == strBit (s.tag.uid ++ [bccOf s.tag.uid]) i) = true →
    ∃ t, exec (.tagAnticollision n b) s = .next t ∧ t.tag.answer = bitsFrom (s.tag.uid ++ [bccOf s.tag.uid]) n ∧
      (t.tag.delayFc = 1172 ∨ t.tag.delayFc = 1236) ∧ t.tag.picked = false ∧ t.envm = s.envm ∧ OnlyTag s t) ∧
  (∀ (s : State), s.tagHears = true → s.tag.active = false →
    ∃ t, exec (.tagSelect s.tag.uid) s = .next t ∧ t.tag.answer = [0x20] ∧ t.tag.picked = true ∧ t.envm = s.envm ∧
      OnlyTag s t) ∧
  (∀ (s : State), s.tagHears = true → s.tag.active = false → s.tag.picked = true →
    ∃ t, exec .tagRats s = .next t ∧ t.tag.answer = [0x05, 0x78, 0x00, by8 (s.fwi * 16), 0x00] ∧
      t.tag.active = true ∧ t.envm = s.envm ∧ OnlyTag s t) ∧
  (∀ (s : State), s.tagTakes = true →
    ∃ t, exec (.tagPps 0 0) s = .next t ∧ t.tag.answer = [0xD0] ∧ t.tag.active = true ∧ t.envm = s.envm ∧
      OnlyTag s t)

/-- SELECT of the island, which is enabled and has fewer than 256 challenges given, selects it and answers the unit,
a new challenge, the island counter and 90 00. SELECT of another application with forwarding enabled, in a
resumed unit with a channel of class 4 whose queue has room, forwards the APDU to that channel, as every APDU
after it; the answer that the sequencer takes from the channel's input queue is sent as it is; without one the
timeout answers 6F 00 and the late answer will be dropped. A waiting time that ends answers S(WTX). STATUS
answers VSTORE and MAIN_UP with 90 00, and an APDU that is not known 6D 00 or 6E 00. (06_nfc_reader_and_tag.md.) -/
def Obligations.TagForwarding : Prop :=
  (∀ (s : State), s.tagTakes = true → bit s.tagCfg 8 = true → s.tag.j ≤ 255 →
    ∃ t, exec .selectIsland s = .next t ∧ t.tag.selected = true ∧ t.tag.j = s.tag.j + 1 ∧ t.tag.authEntry = none ∧
      t.tag.answer = by8 s.islandAddr :: t.tag.ni ++ toLE 4 s.tag.c.toNat ++ [0x90, 0x00] ∧ OnlyTag s t) ∧
  (∀ (s : State) (n : Nat) (apdu : Bytes), s.tagTakes = true → bit s.tagCfg 9 = true → s.resumed = true →
    s.tagChannel = some n → RoomFor s n (apdu.length / 4 + 1) →
    ∃ t, exec (.selectOther apdu) s = .next t ∧ t.tag.forwarding = true ∧ t.tag.fwdWait = true ∧
      t.tag.selected = false ∧ Delivers s t n (packetWords (bytesPacket 0 n apdu)) ∧ t.envm = s.envm ∧
      RegsBut [] s t ∧ BytesKept s t) ∧
  (∀ (s : State) (n : Nat) (apdu : Bytes), s.tagTakes = true → s.tag.forwarding = true → s.resumed = true →
    s.tagChannel = some n → RoomFor s n (apdu.length / 4 + 1) →
    ∃ t, exec (.forwardedApdu apdu) s = .next t ∧ t.tag.forwarding = true ∧ t.tag.fwdWait = true ∧
      Delivers s t n (packetWords (bytesPacket 0 n apdu)) ∧ t.envm = s.envm ∧ RegsBut [] s t ∧ BytesKept s t) ∧
  (∀ (s : State) (n : Nat) (p : Packet), s.tagChannel = some n → s.feHead n [4] = some p → packetBroken p = false →
    s.tagShared n = false → s.tag.fwdStale = 0 → s.tag.fwdWait = true →
    ∃ t, exec .forwardAnswer s = .next t ∧ t.tag.fwdWait = false ∧ t.tag.answer = packetBytes p ∧
      (t.lane (s.rf (aCHN_QUEUES n) 3 0)).committed = (s.lane (s.rf (aCHN_QUEUES n) 3 0)).committed.erase p ∧
      t.envm = s.envm ∧ RegsBut [] s t ∧ BytesKept s t) ∧
  (∀ (s : State), s.tag.fwdWait = true →
    ∃ t, exec .forwardTimeout s = .next t ∧ t.tag.fwdWait = false ∧ t.tag.fwdStale = s.tag.fwdStale + 1 ∧
      t.tag.answer = [0x6F, 0x00] ∧ t.envm = s.envm ∧ OnlyTag s t) ∧
  (∀ (s : State), s.tag.field = true → s.tagWaiting = true →
    ∃ t, exec .wtxFwtExpiry s = .next t ∧
      t.tag = { s.tag with answer := [0xF2, 0x01], delayFc := 0, wtxSent := s.tag.wtxSent + 1 } ∧ t.envm = s.envm ∧
      OnlyTag s t) ∧
  (∀ (s : State) (mv : Nat), s.tagTakes = true → s.tag.selected = true →
    ∃ t, exec (.islandStatus mv) s = .next t ∧
      t.tag.answer = [by8 (min 255 (mv / 50)), by8 (b2n s.mainUp), 0x90, 0x00] ∧ OnlyTag s t) ∧
  (∀ (s : State) (cla i : Nat), s.tagTakes = true → s.tag.selected = true →
    ∃ t, exec (.unknownApdu cla i) s = .next t ∧
      t.tag.answer = (if cla = 0x80 ∨ cla = 0 then [0x6D, 0x00] else [0x6E, 0x00]) ∧ t.envm = s.envm ∧ OnlyTag s t)

/-- AUTH of an enrolled token with the right MAC and the right to open, with no lock, authenticates its entry and
answers its MAC, the rights and 90 00. READ of a record that the token may read answers its bytes and 90 00, and
UPDATE of one of 16 or 128 bytes that it may write, with the energy for it, writes it and answers when the write
ends. UNLOCK of an authenticated selection raises the island event and waits for Peat while the main supply is
up, and without it waits for VSTORE: charged, the pulse runs, and its end answers 90 00; a timeout answers 65
81. ISACK OK answers 90 00, and its timeout 6F 00. A glitch of the island ends the selection.
(06_nfc_reader_and_tag.md.) -/
def Obligations.TagRecordsAndUnlock : Prop :=
  (∀ (s : State) (tid np mac : Bytes) (w : Bool) (n : Nat) (e : Entry), s.tagTakes = true → s.tag.selected = true →
    s.tagLocked w = false → s.entryByTid (w32 (ofLE (slice tid 0 4))) = some (n, e) →
    s.isLocked (.entry n) = false → e.rights.getLsbD 3 = true →
    (cmac e.key (0x50 :: slice tid 0 4 ++ s.tag.ni ++ np)).take 8 = mac →
    ∃ t, exec (.islandAuth tid np mac w) s = .next t ∧ t.tag.authEntry = some n ∧
      t.tag.answer = (cmac e.key (0x44 :: slice tid 0 4 ++ np ++ s.tag.ni)).take 8 ++ [e.rights, 0x90, 0x00] ∧
      t.envm.islandFails = 0 ∧ BytesKept s t) ∧
  (∀ (s : State) (n : Nat), s.tagTakes = true → s.tag.selected = true → s.recMap n % 4 ≠ 0 →
    s.recMap n / 16 % 4 ≠ 0 → (s.recMap n / 16 % 4 ≠ 2 ∨ s.tag.authEntry ≠ none) → s.hostWrites n = false →
    n ∉ s.envm.tornRecs →
    ∃ t, exec (.readRecord n 0) s = .next t ∧ t.tag.answer = s.recData n ++ [0x90, 0x00] ∧ OnlyTag s t) ∧
  (∀ (s : State) (n mv : Nat) (b : Bytes), s.tagTakes = true → s.tag.selected = true → s.tag.authEntry ≠ none →
    (s.recMap n % 4 = 1 ∨ s.recMap n % 4 = 2) → testBit (s.recMap n) 6 = true → s.hostWrites n = false →
    b.length = recSize (s.recMap n % 4) → gateMv b.length ≤ mv →
    ∃ t, exec (.updateRecord n 0 b mv) s = .next t ∧ tfind t.envm.tussock n = some b ∧ t.tag.writing = some n ∧
      t.tag.pendingAnswer = true ∧ t.regs = s.regs ∧ t.lanes = s.lanes ∧ BytesKept s t) ∧
  (∀ (s : State) (n mv : Nat), s.tag.writing = some n → s.tag.field = true → s.tag.pendingAnswer = true →
    tfind s.tag.shadows n = none → s.tag.hostReadWaits = none →
    ∃ t, exec (.fieldWriteEnd mv) s = .next t ∧ t.tag.writing = none ∧ t.tag.pendingAnswer = false ∧
      t.tag.answer = [0x90, 0x00] ∧ OnlyTag s t) ∧
  (∀ (s : State) (n : Nat), s.tagTakes = true → s.tag.selected = true → s.tag.authEntry = some n → s.mainUp = true →
    s.resumed = true →
    ∃ t, exec .unlock s = .next t ∧ t.tag.isackWait = true ∧
      t.rf aTAG_ISLAST0 31 16 = cPending.toNat * 256 + 64 + n % 64 ∧
      t.reg aTAG_ISLAST1 = (match tfind s.envm.entries n with | some e => e.tid | none => 0) ∧ .island ∈ t.irqs ∧
      RegsBut [aTAG_ISLAST0, aTAG_ISLAST1] s t ∧ t.envm = s.envm ∧ BytesKept s t) ∧
  (∀ (s : State) (n : Nat), s.tagTakes = true → s.tag.selected = true → s.tag.authEntry = some n →
    s.mainUp = false → s.tag.fired = false →
    ∃ t, exec .unlock s = .next t ∧ t.tag.unlockWait = true ∧ t.tag.pulseEntry = n ∧ t.envm = s.envm ∧ OnlyTag s t) ∧
  (∀ (s : State), s.tag.unlockWait = true →
    ∃ t, exec .vstoreCharged s = .next t ∧
      t.tag = { s.tag with unlockWait := false, pulse := true, unlockH := true, fired := true } ∧ t.envm = s.envm ∧
      OnlyTag s t) ∧
  (∀ (s : State) (good : Bool), s.tag.pulse = true → s.tag.field = true →
    ∃ t, exec (.pulseEnd good) s = .next t ∧ t.tag.pulse = false ∧ t.tag.unlockH = false ∧
      t.tag.answer = [0x90, 0x00] ∧ RegsBut [aTAG_ISLAST0, aTAG_ISLAST1] s t ∧ t.lanes = s.lanes ∧ BytesKept s t) ∧
  (∀ (s : State), s.tag.unlockWait = true →
    ∃ t, exec .vstoreTimeout s = .next t ∧ t.tag.unlockWait = false ∧ t.tag.pulse = s.tag.pulse ∧
      t.tag.answer = [0x65, 0x81] ∧ RegsBut [aTAG_ISLAST0, aTAG_ISLAST1] s t ∧ t.lanes = s.lanes ∧ BytesKept s t) ∧
  (∀ (s : State) (m : Master) (v : Word), Grants s m aTAG_ISACK → s.tag.isackWait = true → fld v 7 0 = cOk.toNat →
    ∃ t, exec (.tagIsack m v) s = .next t ∧ t.tag.isackWait = false ∧ t.tag.answer = [0x90, 0x00] ∧
      t.rf aTAG_ISLAST0 31 24 = cOk.toNat ∧ t.rb aTAG_ISLAST0 22 = false ∧ RegsBut [aTAG_ISACK, aTAG_ISLAST0] s t ∧
      t.lanes = s.lanes ∧ BytesKept s t) ∧
  (∀ (s : State), s.tag.isackWait = true →
    ∃ t, exec .isackTimeout s = .next t ∧ t.tag.isackWait = false ∧ t.tag.answer = [0x6F, 0x00] ∧
      t.rf aTAG_ISLAST0 31 24 = cAborted.toNat ∧ RegsBut [aTAG_ISLAST0] s t ∧ t.lanes = s.lanes ∧ BytesKept s t) ∧
  (∀ (s : State),
    ∃ t, exec .islandGlitch s = .next t ∧ t.tag.selected = false ∧ t.tag.authEntry = none ∧ t.tag.pulse = false ∧
      t.tag.unlockH = false ∧ t.tag.unlockWait = false ∧ t.envm = s.envm ∧ OnlyTag s t)

/-- With no host command running: a granted HOST_RECORD_READ of a record that the host may read, and
HOST_RECORD_WRITE of one that it may write and no field command holds, begin with TAG_HRESULT 0. The end of a
write holds the bytes of TAG_HBUF in the record, with OK in TAG_HRESULT, where no field command waits; the end
of a read that waits for no field write holds the record in TAG_HBUF, with OK. (06_nfc_reader_and_tag.md.) -/
def Obligations.HostRecords : Prop :=
  (∀ (s : State) (m : Master) (v : Word), Grants s m aTAG_HCMD → s.tag.hostBusy = none →
    s.recMap (fld v 7 0) % 4 ≠ 0 → testBit (s.recMap (fld v 7 0)) 2 = true →
    ∃ t, exec (.hostRecordRead m v) s = .next t ∧ t.tag.hostBusy = some (false, fld v 7 0) ∧
      t.reg aTAG_HRESULT = 0 ∧ RegsBut [aTAG_HCMD, aTAG_HRESULT] s t ∧ t.envm = s.envm ∧ t.lanes = s.lanes ∧
      BytesKept s t) ∧
  (∀ (s : State) (m : Master) (v : Word), Grants s m aTAG_HCMD → s.tag.hostBusy = none →
    s.recMap (fld v 7 0) % 4 ≠ 0 → testBit (s.recMap (fld v 7 0)) 3 = true → s.fieldOpen (fld v 7 0) = false →
    ∃ t, exec (.hostRecordWrite m v) s = .next t ∧ t.tag.hostBusy = some (true, fld v 7 0) ∧
      t.reg aTAG_HRESULT = 0 ∧ t.rb aTAG_STATUS 6 = false ∧ RegsBut [aTAG_HCMD, aTAG_HRESULT, aTAG_STATUS] s t ∧
      t.envm = s.envm ∧ t.lanes = s.lanes ∧ BytesKept s t) ∧
  (∀ (s : State) (n : Nat), s.tag.hostBusy = some (true, n) → s.tag.fieldWaits = none →
    ∃ t, exec .hcmdDone s = .next t ∧ tfind t.envm.tussock n = some (s.ofHbuf (recSize (s.recMap n % 4))) ∧
      t.tag.hostBusy = none ∧ t.reg aTAG_HRESULT = w32 (256 + cOk.toNat) ∧ RegsBut [aTAG_HRESULT] s t ∧
      t.lanes = s.lanes ∧ BytesKept s t) ∧
  (∀ (s : State) (n : Nat), s.tag.hostBusy = some (false, n) → s.tag.hostReadWaits = none → n ∉ s.envm.tornRecs →
    n < 256 →
    ∃ t, exec .hcmdDone s = .next t ∧ t.ofHbuf (s.recData n).length = s.recData n ∧ t.tag.hostBusy = none ∧
      t.reg aTAG_HRESULT = w32 (256 + cOk.toNat) ∧ RegsBut (aTAG_HRESULT :: (List.range 256).map aTAG_HBUF) s t ∧
      t.envm = s.envm ∧ t.lanes = s.lanes ∧ BytesKept s t)

/-- A granted GENERATE, UNWRAP, DERIVE or COPY while no command runs, that no check refuses, with the class key at
hand where a blob is asked for, and with Peat's channel free for its jobs: the destination holds the key, drawn,
unwrapped, derived or copied; a static slot holds it with the class of the slot, its origin, and the flags, uses
and type of the key word, and a blob where PERSIST asks for one. KST_RESULT reads DONE with OK, OP reads the
operation and BUSY is 0. GENERATE whose conditioned output is not there yet waits: BUSY is 1, KST_RESULT reads
PENDING, and no slot changes. A wrapped key whose integrity check fails changes no slot and KST_RESULT reads
TAG_FAIL. No register but these, the counts of Peat's jobs and the counters of PRF_ changes, and no byte of
memory outside operand memory. (11_key_store.md, 12_random_source.md, 13_symmetric_engine.md.) -/
def Obligations.KeyStoreMakesKeys : Prop :=
  (∀ (s : State) (m : Master) (d : Bytes), Grants s m aKST_CMD → s.peat.kst = none →
    s.kstDest (s.reg (aKST_ARG 0)) (s.reg (aKST_ARG 1)) = cOk → s.servedTo .keyStore = some (cOk, d) →
    s.rngFailed = false → BlobKey s (s.reg (aKST_ARG 0)) (s.reg (aKST_ARG 1)) → PeatWorks s 127 →
    (kSes (s.reg (aKST_ARG 0)) = true → 16 * kLen (s.reg (aKST_ARG 0)) ≤ d.length) →
    ∃ t, exec (.generate m) s = .next t ∧
      KeyGoes s t (s.reg (aKST_ARG 0)) (s.reg (aKST_ARG 1)) 0 ((if kSes (s.reg (aKST_ARG 0)) then d else keyOfDraw (kwType (s.reg (aKST_ARG 1))) (slice d 0 (drawBytes (kwType (s.reg (aKST_ARG 1))))))) ∧
      KstEnds s t 1 cOk ∧ RegsBut (kstRegs ++ jobRegs 127) s t ∧ OperandsOnly s t ∧
      ((kSes (s.reg (aKST_ARG 0)) = true ∨ pubJobs (kwType (s.reg (aKST_ARG 1))) = []) → BytesKept s t)) ∧
  (∀ (s : State) (m : Master), Grants s m aKST_CMD → s.peat.kst = none →
    s.kstDest (s.reg (aKST_ARG 0)) (s.reg (aKST_ARG 1)) = cOk → s.servedTo .keyStore = none → s.rngFailed = false →
    ∃ t, exec (.generate m) s = .next t ∧ t.peat.kst.isSome = true ∧ t.drawWaits .keyStore = true ∧
      t.slots = s.slots ∧ t.sess = s.sess ∧ t.envm = s.envm ∧ t.reg aKST_RESULT = w32 (cPending.toNat * 2 ^ 24) ∧
      t.reg aKST_STATUS = setFld (s.reg aKST_STATUS) 0 0 1 ∧ t.reg aKST_CMD = setFld (s.reg aKST_CMD) 23 16 1 ∧
      RegsBut kstRegs s t ∧ BytesKept s t) ∧
  (∀ (s : State) (m : Master), Grants s m aKST_CMD → s.peat.kst = none → s.maskStopped 0 = false →
    s.kstDest (s.reg (aKST_ARG 0)) (setFld (s.reg (aKST_ARG 3)) 31 18 0) = cOk →
    s.keyCheck 124 (s.reg (aKST_ARG 1)) 8 = cOk →
    (kSes (s.reg (aKST_ARG 1)) = true → kLen (s.reg (aKST_ARG 1)) ≤ 2) →
    fld (s.reg (aKST_ARG 3)) 31 24 = 16 * kLen (s.reg (aKST_ARG 0)) + 8 → PeatWorks s 127 →
    0x50000000 ≤ (s.reg (aKST_ARG 2)).toNat →
    (s.reg (aKST_ARG 2)).toNat + fld (s.reg (aKST_ARG 3)) 31 24 ≤ 0x50000000 + 8 * s.bnBase true →
    BlobKey s (s.reg (aKST_ARG 0)) (setFld (s.reg (aKST_ARG 3)) 31 18 0) →
    ∃ t, exec (.unwrap m) s = .next t ∧
      ((kwUnwrap (s.keyBytes (s.reg (aKST_ARG 1))) (s.memRead (s.reg (aKST_ARG 2)).toNat (fld (s.reg (aKST_ARG 3)) 31 24))).isSome = true → KeyGoes s t (s.reg (aKST_ARG 0)) (setFld (s.reg (aKST_ARG 3)) 31 18 0) 1 ((kwUnwrap (s.keyBytes (s.reg (aKST_ARG 1))) (s.memRead (s.reg (aKST_ARG 2)).toNat (fld (s.reg (aKST_ARG 3)) 31 24))).getD [])) ∧
      ((kwUnwrap (s.keyBytes (s.reg (aKST_ARG 1))) (s.memRead (s.reg (aKST_ARG 2)).toNat (fld (s.reg (aKST_ARG 3)) 31 24))).isSome = false → t.slots = s.slots ∧ t.sess = s.sess ∧ t.envm = s.envm) ∧
      KstEnds s t 2 (if (kwUnwrap (s.keyBytes (s.reg (aKST_ARG 1))) (s.memRead (s.reg (aKST_ARG 2)).toNat (fld (s.reg (aKST_ARG 3)) 31 24))).isSome then cOk else cTagFail) ∧
      RegsBut (kstRegs ++ jobRegs 127) s t ∧ OperandsOnly s t ∧
      (pubJobs (kwType (setFld (s.reg (aKST_ARG 3)) 31 18 0)) = [] → BytesKept s t)) ∧
  (∀ (s : State) (m : Master) (km : Bool), Grants s m aKST_CMD → s.peat.kst = none →
    fld (s.reg (aKST_ARG 3)) 31 24 ≠ 0 →
    s.kstDest (s.reg (aKST_ARG 0)) (setFld (s.reg (aKST_ARG 3)) 31 18 0) = cOk →
    s.keyCheck 124 (s.reg (aKST_ARG 1)) 0x40 = cOk →
    km = (if kSes (s.reg (aKST_ARG 1)) then decide (1 < kLen (s.reg (aKST_ARG 1))) else decide (s.keyType (s.reg (aKST_ARG 1)) = 7)) →
    (km || decide (fld (s.reg (aKST_ARG 3)) 31 24 = 16 * kLen (s.reg (aKST_ARG 0)) ∧ fld (s.reg (aKST_ARG 3)) 31 24 ≤ 32)) = true →
    PeatWorks s 127 → 69 ≤ s.room 10 → BlobKey s (s.reg (aKST_ARG 0)) (setFld (s.reg (aKST_ARG 3)) 31 18 0) →
    0x50000000 ≤ (s.reg (aKST_ARG 2)).toNat →
    (s.reg (aKST_ARG 2)).toNat + fld (s.reg (aKST_ARG 3)) 31 24 ≤ 0x50000000 + 8 * s.bnBase true →
    ∃ t, exec (.derive m) s = .next t ∧
      KeyGoes s t (s.reg (aKST_ARG 0)) (setFld (s.reg (aKST_ARG 3)) 31 18 0) 2 (deriveBytes km (s.keyBytes (s.reg (aKST_ARG 1))) (s.memRead (s.reg (aKST_ARG 2)).toNat (fld (s.reg (aKST_ARG 3)) 31 24)) (16 * kLen (s.reg (aKST_ARG 0)))) ∧
      KstEnds s t 3 cOk ∧ RegsBut (kstRegs ++ jobRegs 127) s t ∧ OperandsOnly s t ∧
      (pubJobs (kwType (setFld (s.reg (aKST_ARG 3)) 31 18 0)) = [] → BytesKept s t)) ∧
  (∀ (s : State) (m : Master), Grants s m aKST_CMD → s.peat.kst = none →
    s.kstForm (s.reg (aKST_ARG 0)) (s.reg (aKST_ARG 2)) = cOk → s.keyCheck 124 (s.reg (aKST_ARG 1)) 0 = cOk →
    kLen (s.reg (aKST_ARG 0)) = kLen (s.reg (aKST_ARG 1)) → BlobKey s (s.reg (aKST_ARG 0)) (s.reg (aKST_ARG 2)) →
    ∃ t, exec (.kstCopy m) s = .next t ∧
      KeyGoes s t (s.reg (aKST_ARG 0)) (s.reg (aKST_ARG 2)) (if kSes (s.reg (aKST_ARG 1)) then 2 else ((s.key (kSlot (s.reg (aKST_ARG 1)))).map Slot.origin).getD 2) (s.keyBytes (s.reg (aKST_ARG 1))) ∧
      KstEnds s t 4 cOk ∧ RegsBut kstRegs s t ∧ BytesKept s t)

/-- A granted command while none runs, that no check refuses: LOAD_ENTRY copies the AES key of an enrolled entry
into a session slot at its offset; STORE_ENTRY puts a key of 16 bytes into an enrolled entry, or into the copy
of the island key; ERASE of a static slot that holds a key leaves it empty and without a blob, and ERASE of a
session's slot leaves it zeros; CNT_INC advances a counter by one and CNT_SET raises one to the value named;
ROOT_ENROL in the BLANK state stores helper data and the check value of the root; EPOCH_ADV advances the epoch
of a class by one. KST_RESULT reads DONE with OK, OP reads the operation, and no other register (the counters of
PRF_ apart) changes, and no byte of memory. (11_key_store.md.) -/
def Obligations.KeyStoreObjects : Prop :=
  (∀ (s : State) (m : Master) (e : Entry), Grants s m aKST_CMD → s.peat.kst = none →
    keyForm (s.reg (aKST_ARG 0)) = cOk → kSes (s.reg (aKST_ARG 0)) = true → (s.reg (aKST_ARG 1)).toNat ≤ 63 →
    s.sesCheck 124 (s.reg (aKST_ARG 0)) = cOk → tfind s.envm.entries (s.reg (aKST_ARG 1)).toNat = some e →
    ∃ t, exec (.loadEntry m) s = .next t ∧
      t.ses (kSlot (s.reg (aKST_ARG 0))) = { s.ses (kSlot (s.reg (aKST_ARG 0))) with slot := patch (s.ses (kSlot (s.reg (aKST_ARG 0)))).slot (16 * kOff (s.reg (aKST_ARG 0))) (slice e.key 0 16) } ∧
      t.slots = s.slots ∧ t.envm = s.envm ∧ KstEnds s t 5 cOk ∧ RegsBut kstRegs s t ∧ BytesKept s t) ∧
  (∀ (s : State) (m : Master) (e : Entry), Grants s m aKST_CMD → s.peat.kst = none →
    s.keyCheck 124 (s.reg (aKST_ARG 0)) 0 = cOk → (s.reg (aKST_ARG 1)).toNat ≤ 63 → kLen (s.reg (aKST_ARG 0)) = 1 →
    tfind s.envm.entries (s.reg (aKST_ARG 1)).toNat = some e →
    ∃ t, exec (.storeEntry m) s = .next t ∧
      tfind t.envm.entries (s.reg (aKST_ARG 1)).toNat = some { e with key := s.keyBytes (s.reg (aKST_ARG 0)) } ∧
      t.slots = s.slots ∧ t.sess = s.sess ∧ KstEnds s t 6 cOk ∧ RegsBut kstRegs s t ∧ BytesKept s t) ∧
  (∀ (s : State) (m : Master), Grants s m aKST_CMD → s.peat.kst = none →
    s.keyCheck 124 (s.reg (aKST_ARG 0)) 0 = cOk → s.reg (aKST_ARG 1) = 64 → kLen (s.reg (aKST_ARG 0)) = 1 →
    ∃ t, exec (.storeEntry m) s = .next t ∧ t.envm = { s.envm with kis := some (s.keyBytes (s.reg (aKST_ARG 0))) } ∧
      t.slots = s.slots ∧ t.sess = s.sess ∧ KstEnds s t 6 cOk ∧ RegsBut kstRegs s t ∧ BytesKept s t) ∧
  (∀ (s : State) (m : Master), Grants s m aKST_CMD → s.peat.kst = none →
    s.keyCheck 124 (s.reg (aKST_ARG 0)) 0 = cOk → kSes (s.reg (aKST_ARG 0)) = false →
    ∃ t, exec (.erase m) s = .next t ∧ t.key (kSlot (s.reg (aKST_ARG 0))) = none ∧
      tfind t.envm.blobs (kSlot (s.reg (aKST_ARG 0))) = none ∧ t.sess = s.sess ∧ KstEnds s t 7 cOk ∧
      RegsBut kstRegs s t ∧ BytesKept s t) ∧
  (∀ (s : State) (m : Master), Grants s m aKST_CMD → s.peat.kst = none →
    s.keyCheck 124 (s.reg (aKST_ARG 0)) 0 = cOk → kSes (s.reg (aKST_ARG 0)) = true →
    ∃ t, exec (.erase m) s = .next t ∧
      t.ses (kSlot (s.reg (aKST_ARG 0))) = { s.ses (kSlot (s.reg (aKST_ARG 0))) with slot := zeros 128 } ∧
      t.slots = s.slots ∧ t.envm = s.envm ∧ KstEnds s t 7 cOk ∧ RegsBut kstRegs s t ∧ BytesKept s t) ∧
  (∀ (s : State) (m : Master), Grants s m aKST_CMD → s.peat.kst = none → (s.reg (aKST_ARG 0)).toNat ≤ 63 →
    s.counter (s.reg (aKST_ARG 0)).toNat ≠ 0xFFFFFFFF →
    ∃ t, exec (.cntInc m) s = .next t ∧
      t.counter (s.reg (aKST_ARG 0)).toNat = s.counter (s.reg (aKST_ARG 0)).toNat + 1 ∧ KstEnds s t 8 cOk ∧
      RegsBut kstRegs s t ∧ BytesKept s t) ∧
  (∀ (s : State) (m : Master), Grants s m aKST_CMD → s.peat.kst = none → (s.reg (aKST_ARG 0)).toNat ≤ 63 →
    s.counter (s.reg (aKST_ARG 0)).toNat ≠ 0xFFFFFFFF → s.counter (s.reg (aKST_ARG 0)).toNat < s.reg (aKST_ARG 1) →
    ∃ t, exec (.cntSet m) s = .next t ∧ t.counter (s.reg (aKST_ARG 0)).toNat = s.reg (aKST_ARG 1) ∧
      KstEnds s t 9 cOk ∧ RegsBut kstRegs s t ∧ BytesKept s t) ∧
  (∀ (s : State) (m : Master) (array : Bytes), Grants s m aKST_CMD → s.peat.kst = none → s.envm.lcs = 0 →
    s.envm.helper = none →
    ∃ t, exec (.rootEnrol m array) s = .next t ∧
      t.envm.helper = some ⟨slice (Config.rootHelper (slice array 0 8192)) 0 2048, rootCheck (rootOf array (slice (Config.rootHelper (slice array 0 8192)) 0 2048))⟩ ∧
      KstEnds s t 0x0A cOk ∧ RegsBut kstRegs s t ∧ BytesKept s t) ∧
  (∀ (s : State) (m : Master), Grants s m aKST_CMD → s.peat.kst = none → 1 ≤ (s.reg (aKST_ARG 0)).toNat →
    (s.reg (aKST_ARG 0)).toNat ≤ 4 → s.epochOf (s.reg (aKST_ARG 0)).toNat ≠ 0xFFFFFFFF →
    ∃ t, exec (.epochAdv m) s = .next t ∧
      t.epochOf (s.reg (aKST_ARG 0)).toNat = s.epochOf (s.reg (aKST_ARG 0)).toNat + 1 ∧ KstEnds s t 0x0B cOk ∧
      RegsBut kstRegs s t ∧ BytesKept s t)

/-- SETTLING_END takes STATE from SETTLING to STARTUP; STARTUP_TESTS_PASSED marks the tests passed; a granted
RESTART of a source that is not OFF sets STATE STARTUP, RUN 0 and the tests not passed, and discards the
undelivered output; requests that wait keep waiting, and a generator that is OVERDUE or not yet reseeded waits
with them. While resumed, RESEED_DUE of engine 0 to 2 sets OVERDUE and the block count, and the generator waits
for a block, but where the source is declared failed; GENERATOR_STOPPED of one that is OVERDUE sets STOPPED and
keeps OVERDUE. No other register changes (the counters of PRF_ apart). (12_random_source.md.) -/
def Obligations.RandomSourceStartUp : Prop :=
  (∀ (s : State), s.rngState = 1 →
    ∃ t, exec .settlingEnd s = .next t ∧ t.rngState = 2 ∧ RegsBut [aTRNG_STATUS] s t ∧ t.trng = s.trng) ∧
  (∀ (s : State), s.rngState = 2 →
    ∃ t, exec .startupTestsPassed s = .next t ∧ t = { s with trng := { s.trng with testsPassed := true } }) ∧
  (∀ (s : State) (m : Master), Grants s m aTRNG_CTL → s.rngState ≠ 0 →
    ∃ t, exec (.restart m) s = .next t ∧ t.rngState = 2 ∧ t.rf aTRNG_STATUS 5 4 = 0 ∧ t.trng.testsPassed = false ∧
      t.trng.tests = [] ∧ t.trng.out = [] ∧ s.trng.reqs <+: t.trng.reqs ∧
      (∀ n, n < 3 → (s.rb (aTRNG_MASK n) 30 = true ∨ s.rb (aTRNG_MASK n) 31 = false) → Caller.mask n ∈ t.trng.reqs) ∧
      RegsBut [aTRNG_STATUS, aTRNG_CTL] s t) ∧
  (∀ (s : State) (n : Nat), n < 3 → s.resumed = true →
    ∃ t, exec (.reseedDue n) s = .next t ∧ t.rb (aTRNG_MASK n) 30 = true ∧ t.rf (aTRNG_MASK n) 17 0 = 65536 ∧
      (Caller.mask n ∈ t.trng.reqs ∨ s.rngState = 4) ∧ RegsBut [aTRNG_MASK n] s t) ∧
  (∀ (s : State) (n : Nat), n < 3 → s.resumed = true → s.rb (aTRNG_MASK n) 30 = true →
    ∃ t, exec (.generatorStopped n) s = .next t ∧ t.rb (aTRNG_MASK n) 29 = true ∧ t.rb (aTRNG_MASK n) 30 = true ∧
      t.trng = s.trng ∧ RegsBut [aTRNG_MASK n] s t)

/-- In STARTUP or RUNNING a health failure advances FAILS, records the tests, STARTUP and the sources in
TRNG_HEALTH; while RUN is below 2 it advances RUN and callers go on waiting; at RUN 2 STATE reads FAILED, no
request waits any more, the port's is gone with RNG_FAIL, a waiting GENERATE ends with RNG_FAIL, and Peat's
interrupt is raised. A pool on which the repetition count test or the adaptive proportion test of some source
fails does the same, and none of it is delivered. (12_random_source.md.) -/
def Obligations.HealthFailureCounts : Prop :=
  (∀ (s : State) (src : Nat) (rct apt : Bool), (s.rngState = 2 ∨ s.rngState = 3) → s.rf aTRNG_STATUS 5 4 < 2 →
    s.trng.served = [] → s.peat.kisDue = false → s.envm.entryDue = none →
    ∃ t, exec (.healthFailure src rct apt) s = .next t ∧
      t.rf aTRNG_HEALTH 31 16 = (s.rf aTRNG_HEALTH 31 16 + 1) % 65536 ∧ t.rf aTRNG_HEALTH 7 0 = src % 256 ∧
      t.rb aTRNG_HEALTH 8 = decide (s.rngState = 2) ∧ t.rb aTRNG_HEALTH 9 = rct ∧ t.rb aTRNG_HEALTH 10 = apt ∧
      t.rf aTRNG_STATUS 5 4 = s.rf aTRNG_STATUS 5 4 + 1 ∧ t.rngState = s.rngState ∧
      t.trng = { s.trng with tests := [] } ∧ RegsBut [aTRNG_STATUS, aTRNG_HEALTH] s t) ∧
  (∀ (s : State) (src : Nat) (rct apt : Bool), (s.rngState = 2 ∨ s.rngState = 3) → 2 ≤ s.rf aTRNG_STATUS 5 4 →
    failedDraws cRngFail s.trng.reqs = [] → s.trng.served = [] → s.peat.kisDue = false → s.envm.entryDue = none →
    ∃ t, exec (.healthFailure src rct apt) s = .next t ∧
      t.rf aTRNG_HEALTH 31 16 = (s.rf aTRNG_HEALTH 31 16 + 1) % 65536 ∧ t.rngState = 4 ∧ t.trng.reqs = [] ∧
      t.trng.out = s.trng.out ∧ Irq.rngFailed ∈ t.irqs ∧
      (s.trng.reqs.any isPort = true → t.rf aTRNG_PORT 31 24 = cRngFail.toNat) ∧
      RegsBut [aTRNG_STATUS, aTRNG_HEALTH, aTRNG_PORT] s t) ∧
  (∀ (s : State) (src : Nat) (rct apt : Bool) (k : KstRun) (need : Nat) (got : Bytes),
    (s.rngState = 2 ∨ s.rngState = 3) → 2 ≤ s.rf aTRNG_STATUS 5 4 → s.peat.kst = some k → k.mixed = false →
    s.trng.reqs = [.draw .keyStore need got] → s.trng.served = [] → s.peat.kisDue = false → s.envm.entryDue = none →
    ∃ t, exec (.healthFailure src rct apt) s = .next t ∧ t.rngState = 4 ∧ t.trng.reqs = [] ∧ t.peat.kst = none ∧
      t.slots = s.slots ∧ t.sess = s.sess ∧ t.envm = s.envm ∧
      t.reg aKST_RESULT = w32 (cRngFail.toNat * 2 ^ 24 + 1) ∧ t.rb aKST_STATUS 0 = false ∧
      RegsBut [aTRNG_STATUS, aTRNG_HEALTH, aKST_RESULT, aKST_STATUS] s t) ∧
  (∀ (s : State) (raw : Bytes) (l : List (SourceTest × Bool × Bool)),
    (s.rngState = 3 ∨ (s.rngState = 2 ∧ s.trng.testsPassed = true)) → l = s.testPool raw →
    (l.any fun x => x.2.1 || x.2.2) = true → s.rf aTRNG_STATUS 5 4 < 2 → s.trng.served = [] →
    s.peat.kisDue = false → s.envm.entryDue = none →
    ∃ t, exec (.poolComplete raw) s = .next t ∧ t.rf aTRNG_HEALTH 31 16 = (s.rf aTRNG_HEALTH 31 16 + 1) % 65536 ∧
      t.rf aTRNG_HEALTH 7 0 = failedSources l % 256 ∧ t.rb aTRNG_HEALTH 9 = l.any (fun x => x.2.1) ∧
      t.rb aTRNG_HEALTH 10 = l.any (fun x => x.2.2) ∧ t.rf aTRNG_STATUS 5 4 = s.rf aTRNG_STATUS 5 4 + 1 ∧
      t.rngState = s.rngState ∧ t.trng = { s.trng with tests := [] } ∧ RegsBut [aTRNG_STATUS, aTRNG_HEALTH] s t)

/-- A pool that passes the tests, completed while RUNNING or in STARTUP once the start-up tests have passed, leaves
the source RUNNING with RUN 0. Where a mask generator waits, the lowest engine's is reseeded: its register reads
SEEDED with no other bit, and it no longer waits. Where a port request of k words, 1 to 8, waits at the front,
the first k words of SHAKE256 over the pool arrive in TRNG_OUT behind those there, and the request completes
with OK. Where a GENERATE of Peat waits for 1 to 32 bytes, it gets them and its key; where the island key is
due, it is made from 16 bytes. (12_random_source.md.) -/
def Obligations.ConditionedBlockDelivery : Prop :=
  (∀ (s : State) (raw : Bytes) (n : Nat), (s.rngState = 3 ∨ (s.rngState = 2 ∧ s.trng.testsPassed = true)) →
    ((s.testPool raw).all fun x => !x.2.1 && !x.2.2) = true → firstMask s.trng.reqs = some n → s.trng.served = [] →
    s.peat.kisDue = false → s.envm.entryDue = none →
    ∃ t, exec (.poolComplete raw) s = .next t ∧ t.reg (aTRNG_MASK n) = 0x80000000 ∧
      t.trng.reqs = s.trng.reqs.erase (.mask n) ∧ t.trng.out = s.trng.out ∧ t.rf aTRNG_STATUS 5 4 = 0 ∧
      t.rngState = 3 ∧ t.trng.tests = (s.testPool raw).map Prod.fst ∧ RegsBut [aTRNG_STATUS, aTRNG_MASK n] s t) ∧
  (∀ (s : State) (raw : Bytes) (k : Nat), (s.rngState = 3 ∨ (s.rngState = 2 ∧ s.trng.testsPassed = true)) →
    ((s.testPool raw).all fun x => !x.2.1 && !x.2.2) = true → s.trng.reqs = [.port k] → k ≤ 8 → s.trng.served = [] →
    s.peat.kisDue = false → s.envm.entryDue = none →
    ∃ t, exec (.poolComplete raw) s = .next t ∧
      t.trng.out = s.trng.out ++ (toWords (shakeH (slice raw 0 256) 32)).take k ∧ t.trng.reqs = [] ∧
      t.rf aTRNG_PORT 31 24 = cOk.toNat ∧ t.rf aTRNG_STATUS 5 4 = 0 ∧ t.rngState = 3 ∧
      t.trng.tests = (s.testPool raw).map Prod.fst ∧ RegsBut [aTRNG_STATUS, aTRNG_PORT] s t) ∧
  (∀ (s : State) (raw : Bytes) (k : KstRun) (need : Nat),
    (s.rngState = 3 ∨ (s.rngState = 2 ∧ s.trng.testsPassed = true)) →
    ((s.testPool raw).all fun x => !x.2.1 && !x.2.2) = true → s.trng.reqs = [.draw .keyStore need []] → 1 ≤ need →
    need ≤ 32 → s.peat.kst = some k → k.mixed = false →
    need = (if kSes k.a0 then 16 * kLen k.a0 else drawBytes (kwType k.a1)) → s.kstDest k.a0 k.a1 = cOk →
    BlobKey s k.a0 k.a1 → pubJobs (kwType k.a1) = [] → s.trng.served = [] → s.peat.kisDue = false →
    s.envm.entryDue = none →
    ∃ t, exec (.poolComplete raw) s = .next t ∧ t.peat.kst = none ∧ t.trng.reqs = [] ∧
      KeyGoes s t k.a0 k.a1 0 (if kSes k.a0 then (shakeH (slice raw 0 256) 32).take need else keyOfDraw (kwType k.a1) ((shakeH (slice raw 0 256) 32).take need)) ∧
      t.reg aKST_RESULT = w32 (cOk.toNat * 2 ^ 24 + 1) ∧ t.rb aKST_STATUS 0 = false ∧ t.rf aTRNG_STATUS 5 4 = 0 ∧
      t.rngState = 3 ∧ t.trng.tests = (s.testPool raw).map Prod.fst ∧
      RegsBut [aTRNG_STATUS, aKST_RESULT, aKST_STATUS] s t ∧ BytesKept s t) ∧
  (∀ (s : State) (raw : Bytes), (s.rngState = 3 ∨ (s.rngState = 2 ∧ s.trng.testsPassed = true)) →
    ((s.testPool raw).all fun x => !x.2.1 && !x.2.2) = true → s.trng.reqs = [.draw .kis 16 []] →
    s.trng.served = [] → s.peat.kisDue = true → s.envm.entryDue = none → s.resumed = true →
    s.power.safeState = false → s.power.rootKnown = true → s.rb aKST_STATUS 1 = false →
    ∃ t, exec (.poolComplete raw) s = .next t ∧ t.trng.reqs = [] ∧ t.peat.kisDue = false ∧
      t.envm = { s.envm with kis := some ((shakeH (slice raw 0 256) 32).take 16) } ∧
      (t.key 13).map Slot.key = some ((shakeH (slice raw 0 256) 32).take 16) ∧ t.rf aTRNG_STATUS 5 4 = 0 ∧
      t.rngState = 3 ∧ t.trng.tests = (s.testPool raw).map Prod.fst ∧ RegsBut [aTRNG_STATUS] s t ∧ BytesKept s t)

/-- A granted GO while no request waits and the source is not failed discards the unread words; COUNT 0 completes at
once with LEN_ZERO, and a count of 1 to 16 waits behind the callers with PENDING. The words of a conditioned
block that reach the request arrive in TRNG_OUT behind those there, and AVAIL of TRNG_PORT reads their number. A
granted read of TRNG_OUT returns the first word and erases it; with no word it returns 0 and sets EMPTY_READ.
(R319.) -/
def Obligations.RandomPort : Prop :=
  (∀ (s : State) (m : Master) (v : Word), Grants s m aTRNG_PORTREQ → s.trng.reqs.any isPort = false →
    s.rngState ≠ 4 → fld v 4 0 = 0 →
    ∃ t, exec (.portreqGo m v) s = .next t ∧ t.trng.out = [] ∧ t.trng.reqs = s.trng.reqs ∧
      t.rf aTRNG_PORT 31 24 = cLenZero.toNat ∧ RegsBut [aTRNG_PORT, aTRNG_PORTREQ] s t) ∧
  (∀ (s : State) (m : Master) (v : Word), Grants s m aTRNG_PORTREQ → s.trng.reqs.any isPort = false →
    s.rngState ≠ 4 → 1 ≤ fld v 4 0 → fld v 4 0 ≤ 16 →
    ∃ t, exec (.portreqGo m v) s = .next t ∧ t.trng.out = [] ∧ t.trng.reqs = s.trng.reqs ++ [.port (fld v 4 0)] ∧
      t.rf aTRNG_PORT 31 24 = cPending.toNat ∧ RegsBut [aTRNG_PORT, aTRNG_PORTREQ] s t) ∧
  (∀ (s : State) (raw : Bytes) (k : Nat) (rest : List Caller),
    (s.rngState = 3 ∨ (s.rngState = 2 ∧ s.trng.testsPassed = true)) →
    ((s.testPool raw).all fun x => !x.2.1 && !x.2.2) = true → firstMask s.trng.reqs = none →
    s.trng.reqs = .port k :: rest → 8 < k → s.trng.served = [] → s.peat.kisDue = false → s.envm.entryDue = none →
    ∃ t, exec (.poolComplete raw) s = .next t ∧ t.trng.out = s.trng.out ++ toWords (shakeH (slice raw 0 256) 32) ∧
      t.trng.reqs = .port (k - 8) :: rest ∧ fld (readView t aTRNG_PORT) 4 0 = min 16 t.trng.out.length ∧
      RegsBut [aTRNG_STATUS, aTRNG_PORT] s t) ∧
  (∀ (s : State) (m : Master) (w : Word) (rest : List Word), s.up m = true →
    judge s (rightsOf m) false aTRNG_OUT false = .granted → s.trng.out = w :: rest →
    ∃ t, exec (.trngOutRead m) s = .next t ∧ tfind t.readOut (portNo m) = some w ∧ t.trng.out = rest ∧
      RegsBut [] s t) ∧
  (∀ (s : State) (m : Master), s.up m = true → judge s (rightsOf m) false aTRNG_OUT false = .granted →
    s.trng.out = [] →
    ∃ t, exec (.trngOutRead m) s = .next t ∧ tfind t.readOut (portNo m) = some 0 ∧ t.rb aTRNG_PORT 12 = true ∧
      RegsBut [aTRNG_PORT] s t)

/-- AES_XTS, AES_GCM, AES_CCM, AES_CMAC, AES_KW, AES_REC and AES_ECB_DERIVE: where the engine is free and the
scheduler chooses a sound job of the command's mode that no check refuses, the engine runs that job, with the
output that the mode computes from its key and data, and notes the channel as last served; a job with inline
data has left Q10. No register (the counters of PRF_ apart) changes, and no byte of memory.
(13_symmetric_engine.md, 04_channels_and_sessions.md.) -/
def Obligations.SymmetricJobsStart : Prop :=
  ∀ (s : State) (m : Nat) (c : Instr) (p : Packet),
    (m, c) ∈ ([(1, .aesXts), (2, .aesGcm), (3, .aesCcm), (4, .aesCmac), (5, .aesKw), (6, .aesRec), (7, .aesEcbDerive)] : List (Nat × Instr)) →
    AesTakes s m p →
    ∃ t, exec c s = .next t ∧ t.eng.aes = some (aesRun (servingAes s p) p (packetWords p) (s.jobData p 9) false) ∧
      t.eng.aesLast = p.src ∧ (jobSrcq p ≠ none ∨ (t.lane 10).committed = (s.lane 10).committed.erase p) ∧
      RegsBut [] s t ∧ BytesKept s t

/-- AES_JOB_COMPLETION of a job of a RUNNING channel that did not fail, with no output to deliver (a MAC job): the
engine is free, the completion counts in the channel and in the engine, and no register but these counts, the
job count of CHN_STATUS, the drops of the completion queue and the counters of PRF_ changes. Where the output
goes to a queue 0 to 7, and both that queue and the completion queue have room: the newest packet of the one is
the output, and the newest of the other holds the completion words. A mismatch of the lanes of a redundant class
of a job of classes 2 to 4, where no other job of the channel waits: the engine is free, the fault is counted,
and the channel's last failure is FAULT_ALARM. (13_symmetric_engine.md, 04_channels_and_sessions.md.) -/
def Obligations.SymmetricJobsComplete : Prop :=
  (∀ (s : State) (r : Run), s.eng.aes = some r → isFail r.status = false → r.dest = .none → r.chan < 128 →
    s.chState r.chan = 1 → s.rf (aCHN_QUEUES r.chan) 11 8 ≠ 10 →
    ∃ t, exec (.aesJobCompletion false) s = .next t ∧ t.eng.aes = none ∧
      t.rf (aCHN_COUNT r.chan) 31 16 = (s.rf (aCHN_COUNT r.chan) 31 16 + 1) % 65536 ∧
      t.rf aAES_COUNT 15 0 = (s.rf aAES_COUNT 15 0 + 1) % 65536 ∧
      RegsBut [aCHN_STATUS r.chan, aCHN_COUNT r.chan, aAES_COUNT, aQUE_DROP (s.rf (aCHN_QUEUES r.chan) 11 8)] s t ∧
      BytesKept s t) ∧
  (∀ (s : State) (r : Run) (n q : Nat), s.eng.aes = some r → isFail r.status = false → r.dest = .queue n → n < 8 →
    q = s.rf (aCHN_QUEUES r.chan) 11 8 → (q < 8 ∨ q = 11) → q ≠ n → s.rel.pending = false → s.laneWaits q = false →
    max 1 ((r.out.length + 3) / 4) ≤ s.room n → s.openCount n < 8 → 7 ≤ s.room q → s.openCount q < 8 →
    r.chan < 128 → s.chState r.chan = 1 → s.rf (aCHN_QUEUES r.chan) 11 8 ≠ 10 →
    ∃ t, exec (.aesJobCompletion false) s = .next t ∧ t.eng.aes = none ∧
      ((t.lane n).committed.getLast?).map packetBytes = some r.out ∧
      ((t.lane q).committed.getLast?).map packetWords = some (aesWords r r.status (s.nextSeq n)) ∧
      t.rf (aCHN_COUNT r.chan) 31 16 = (s.rf (aCHN_COUNT r.chan) 31 16 + 1) % 65536 ∧
      t.rf aAES_COUNT 15 0 = (s.rf aAES_COUNT 15 0 + 1) % 65536 ∧
      RegsBut [aCHN_STATUS r.chan, aCHN_COUNT r.chan, aAES_COUNT] s t ∧ BytesKept s t) ∧
  (∀ (s : State) (r : Run), s.eng.aes = some r → redundant r.tclass = true →
    ((s.lane 10).committed.all fun p => decide (p.src ≠ r.chan)) = true → r.chan < 128 → s.chState r.chan = 1 →
    s.rf (aCHN_QUEUES r.chan) 11 8 ≠ 10 →
    ∃ t, exec (.aesJobCompletion true) s = .next t ∧ t.eng.aes = none ∧
      t.rf (aCHN_COUNT r.chan) 31 16 = (s.rf (aCHN_COUNT r.chan) 31 16 + 1) % 65536 ∧
      t.rf aAES_COUNT 15 0 = (s.rf aAES_COUNT 15 0 + 1) % 65536 ∧
      t.rf aAES_FAULT 15 8 = min 255 (s.rf aAES_FAULT 15 8 + 1) ∧ t.rf (aCHN_STATUS r.chan) 15 8 = cAlarm.toNat ∧
      RegsBut [aAES_FAULT, aCHN_STATUS r.chan, aCHN_COUNT r.chan, aAES_COUNT, aQUE_DROP (s.rf (aCHN_QUEUES r.chan) 11 8)] s t ∧
      BytesKept s t)

/-- The 31 commands of the public-key engine, from MOD_ADD to KEM_DECAPS: where the engine is free and the scheduler
chooses a sound job of the command's operation that no check refuses and whose operands meet no other job's, the
engine runs that job, with the results that the operation computes from its operands, notes the channel as last
served, and the job has left Q10. No register (the counters of PRF_ apart) changes, no byte outside operand
memory, and no byte of the flash. (14_long_integer_engine.md, 04_channels_and_sessions.md.) -/
def Obligations.PublicKeyJobsStart : Prop :=
  ∀ (s : State) (k : Nat) (c : Instr) (p : Packet) (b : BnSpec),
    (k, c) ∈ ([(0x01, .modAdd), (0x02, .modSub), (0x03, .modMul), (0x04, .montSetup), (0x05, .modExp), (0x06, .modInv), (0x07, .modRed), (0x08, .copy), (0x09, .copyRev), (0x0A, .clear), (0x20, .p256Mul), (0x21, .p256Mulg), (0x22, .p256Check), (0x23, .p256Sign), (0x24, .p256Verify), (0x28, .p384Mul), (0x29, .p384Mulg), (0x2A, .p384Check), (0x2B, .p384Sign), (0x2C, .p384Verify), (0x30, .x25519), (0x31, .x25519Base), (0x38, .ed25519Verify), (0x40, .ntt), (0x41, .intt), (0x42, .basemul), (0x43, .padd), (0x44, .psub), (0x48, .kemKeygen), (0x49, .kemEncaps), (0x4A, .kemDecaps)] : List (Nat × Instr)) →
    BnTakes s k p b →
    ∃ t, exec c s = .next t ∧ t.eng.bn = some (bnRun (servingBn s p) p (packetWords p) b false) ∧
      t.eng.bnLast = p.src ∧ (t.lane 10).committed = (s.lane 10).committed.erase p ∧ RegsBut [] s t ∧
      (∀ a, (a < 0x50000000 ∨ 0x50008000 ≤ a) → cellGet t.mem a memDefault = cellGet s.mem a memDefault) ∧
      t.flash = s.flash

/-- A running MOD_ADD, MOD_SUB, MOD_RED or COPY job of n words, with the modulus M not 0 and A and B below it where
it has them, stores in D, at its completion, the n words, least significant byte first, of A + B mod M, of A − B
mod M, of the 2n words of A mod M, and of A, with the status OK. (14_long_integer_engine.md.) -/
def Obligations.ModularResults : Prop :=
  (∀ (s : State) (p : Packet) (b : BnSpec) (n m x y : Nat) (d : List Word), d = packetWords p → n = bnNw d →
    m = s.bnInt d .M n → x = s.bnInt d .A n → y = s.bnInt d .B n → x < m → y < m → BnTakes s 0x01 p b →
    ∃ t, exec .modAdd s = .next t ∧
      (t.eng.bn.map fun r => (r.stores, r.status)) = some ([(s.bnWord (bnRef d .D), toLE (8 * n) ((x + y) % m))], cOk)) ∧
  (∀ (s : State) (p : Packet) (b : BnSpec) (n m x y : Nat) (d : List Word), d = packetWords p → n = bnNw d →
    m = s.bnInt d .M n → x = s.bnInt d .A n → y = s.bnInt d .B n → x < m → y < m → BnTakes s 0x02 p b →
    ∃ t, exec .modSub s = .next t ∧
      (t.eng.bn.map fun r => (r.stores, r.status)) = some ([(s.bnWord (bnRef d .D), toLE (8 * n) ((x + m - y) % m))], cOk)) ∧
  (∀ (s : State) (p : Packet) (b : BnSpec) (n m x : Nat) (d : List Word), d = packetWords p → n = bnNw d →
    m = s.bnInt d .M n → x = s.bnInt d .A (2 * n) → BnTakes s 0x07 p b →
    ∃ t, exec .modRed s = .next t ∧
      (t.eng.bn.map fun r => (r.stores, r.status)) = some ([(s.bnWord (bnRef d .D), toLE (8 * n) (x % m))], cOk)) ∧
  (∀ (s : State) (p : Packet) (b : BnSpec) (n : Nat) (d : List Word), d = packetWords p → n = bnNw d →
    BnTakes s 0x08 p b →
    ∃ t, exec .copy s = .next t ∧
      (t.eng.bn.map fun r => (r.stores, r.status)) = some ([(s.bnWord (bnRef d .D), s.bnSrc d .A n)], cOk))

/-- BN_JOB_COMPLETION of a job of a RUNNING channel that did not fail, beside no suspended job and with one result
in operand memory: the result stands there, every other byte is as before, the engine is free, and the
completion counts in the channel and in the engine. BN_YIELD_POINT between two steps of a job, with no job in
Q10, goes on to the next step and changes no register (the counters of PRF_ apart); where a sound job that fits
is chosen there and nothing refuses it, the running job is suspended at that step, the chosen one runs, and
BN_YIELDS counts it. (14_long_integer_engine.md, 04_channels_and_sessions.md.) -/
def Obligations.PublicKeyJobsYieldAndComplete : Prop :=
  (∀ (s : State) (mismatch : Bool) (r : Run) (w : Nat) (b : Bytes), s.eng.bn = some r → s.eng.bnSusp = none →
    (mismatch && redundant r.tclass) = false → isFail r.status = false → r.stores = [(w, b)] →
    8 * w + b.length ≤ 32768 → r.chan < 128 → s.chState r.chan = 1 → s.rf (aCHN_QUEUES r.chan) 11 8 ≠ 10 →
    ∃ t, exec (.bnJobCompletion mismatch) s = .next t ∧ t.eng.bn = none ∧
      t.memRead (0x50000000 + 8 * w) b.length = b ∧
      (∀ a, (a < 0x50000000 + 8 * w ∨ 0x50000000 + 8 * w + b.length ≤ a) → cellGet t.mem a memDefault = cellGet s.mem a memDefault) ∧
      t.flash = s.flash ∧ t.rf (aCHN_COUNT r.chan) 31 16 = (s.rf (aCHN_COUNT r.chan) 31 16 + 1) % 65536 ∧
      t.rf aBN_COUNT 15 0 = (s.rf aBN_COUNT 15 0 + 1) % 65536 ∧
      RegsBut [aBN_FLAGS0, aBN_FLAGS1, aCHN_STATUS r.chan, aCHN_COUNT r.chan, aBN_COUNT, aQUE_DROP (s.rf (aCHN_QUEUES r.chan) 11 8)] s t) ∧
  (∀ (s : State) (r : Run), s.resumed = true → s.eng.bn = some r → s.eng.bnSusp = none → r.step + 1 < r.steps →
    (s.lane 10).committed = [] →
    ∃ t, exec .bnYieldPoint s = .next t ∧ t.eng.bn = some { r with step := r.step + 1 } ∧ t.eng.bnSusp = none ∧
      t.lanes = s.lanes ∧ RegsBut [] s t ∧ BytesKept s t) ∧
  (∀ (s u v : State) (r q : Run) (p : Packet) (b : BnSpec), s.resumed = true → s.eng.bn = some r →
    s.eng.bnSusp = none → r.step + 1 < r.steps → q = { r with step := r.step + 1 } →
    u = { s with eng := { s.eng with bn := some q } } → u.candidateIf engBn s.eng.bnLast (u.bnFits q) = some p →
    packetBroken p = false → v = servingBn { s with eng := { s.eng with bn := none, bnSusp := some q } } p →
    v.bnRow (packetWords p) = some b → bnRefusal (v.jobView p) p (packetWords p) = cOk →
    ∃ t, exec .bnYieldPoint s = .next t ∧ t.eng.bnSusp.map (·.step) = some (r.step + 1) ∧
      t.eng.bn.map (·.chan) = some p.src ∧ (t.lane 10).committed = (s.lane 10).committed.erase p ∧
      t.rf aBN_YIELDS 15 0 = (s.rf aBN_YIELDS 15 0 + 1) % 65536 ∧ RegsBut [aBN_YIELDS] s t)

/-- SHA3_256, SHA3_512, SHAKE128, SHAKE256, KMAC256, XMSS_VERIFY, XMSS_SIGN and XMSS_KEYGEN: where the engine is
free and the scheduler chooses a sound job of the command's function that no check refuses, with no area in
operand memory, the engine runs that job, with the result that the function computes from its key and data, and
notes the channel as last served; a job that takes no input from a queue has left Q10. No register (the counters
of PRF_ apart) changes, and no byte of memory. (15_hash_engine_and_xmss.md, 04_channels_and_sessions.md.) -/
def Obligations.HashJobsStart : Prop :=
  ∀ (s : State) (f x : Nat) (c : Instr) (p : Packet),
    (f, x, c) ∈ ([(1, 0, .sha3256), (2, 0, .sha3512), (3, 0, .shake128), (4, 0, .shake256), (5, 0, .kmac256), (8, 1, .xmssVerify), (8, 2, .xmssSign), (8, 3, .xmssKeygen)] : List (Nat × Nat × Instr)) →
    HashTakes s f x p →
    ∃ t, exec c s = .next t ∧
      t.eng.hsh = some (hRun (servingHsh s p) p (packetWords p) (s.hData p (packetWords p))).1 ∧
      t.eng.hshLast = p.src ∧ (jobSrcq p ≠ none ∨ (t.lane 10).committed = (s.lane 10).committed.erase p) ∧
      RegsBut [] s t ∧ BytesKept s t

/-- HSH_JOB_COMPLETION of a job of a RUNNING channel that did not fail, with no output to deliver or one for a
queue, and waits for no random seed: the engine is free and the completion counts in the channel and in the
engine; where the output goes to a queue 0 to 7, and both that queue and the completion queue have room, the
newest packet of the one is the output and the newest of the other holds the completion words. Of a job that
failed, where no other job of the channel waits: the same, the failure is counted too, and the channel's last
failure is its status. (15_hash_engine_and_xmss.md, 04_channels_and_sessions.md.) -/
def Obligations.HashJobsComplete : Prop :=
  (∀ (s : State) (mismatch : Bool) (r : Run), s.eng.hsh = some r → (mismatch && redundant r.tclass) = false →
    isFail r.status = false → hUnseeded r = false → r.dest = .none → r.chan < 128 → s.chState r.chan = 1 →
    s.rf (aCHN_QUEUES r.chan) 11 8 ≠ 10 →
    ∃ t, exec (.hshJobCompletion mismatch) s = .next t ∧ t.eng.hsh = none ∧
      t.rf (aCHN_COUNT r.chan) 31 16 = (s.rf (aCHN_COUNT r.chan) 31 16 + 1) % 65536 ∧
      t.rf aHSH_COUNT 15 0 = (s.rf aHSH_COUNT 15 0 + 1) % 65536 ∧
      RegsBut [aCHN_STATUS r.chan, aCHN_COUNT r.chan, aHSH_COUNT, aQUE_DROP (s.rf (aCHN_QUEUES r.chan) 11 8)] s t ∧
      BytesKept s t) ∧
  (∀ (s : State) (mismatch : Bool) (r : Run) (n q : Nat), s.eng.hsh = some r →
    (mismatch && redundant r.tclass) = false → hUnseeded r = false → isFail r.status = false → r.dest = .queue n →
    n < 8 → q = s.rf (aCHN_QUEUES r.chan) 11 8 → (q < 8 ∨ q = 11) → q ≠ n → s.rel.pending = false →
    s.laneWaits q = false → max 1 ((r.out.length + 3) / 4) ≤ s.room n → s.openCount n < 8 → 4 ≤ s.room q →
    s.openCount q < 8 → r.chan < 128 → s.chState r.chan = 1 → s.rf (aCHN_QUEUES r.chan) 11 8 ≠ 10 →
    ∃ t, exec (.hshJobCompletion mismatch) s = .next t ∧ t.eng.hsh = none ∧
      ((t.lane n).committed.getLast?).map packetBytes = some r.out ∧
      ((t.lane q).committed.getLast?).map packetWords = some (hWords r r.status (s.nextSeq n) (w32 r.cycles)) ∧
      t.rf (aCHN_COUNT r.chan) 31 16 = (s.rf (aCHN_COUNT r.chan) 31 16 + 1) % 65536 ∧
      t.rf aHSH_COUNT 15 0 = (s.rf aHSH_COUNT 15 0 + 1) % 65536 ∧
      RegsBut [aCHN_STATUS r.chan, aCHN_COUNT r.chan, aHSH_COUNT] s t ∧ BytesKept s t) ∧
  (∀ (s : State) (mismatch : Bool) (r : Run), s.eng.hsh = some r → (mismatch && redundant r.tclass) = false →
    isFail r.status = true → r.status ≠ cCancelled →
    ((s.lane 10).committed.all fun p => decide (p.src ≠ r.chan)) = true → r.chan < 128 → s.chState r.chan = 1 →
    s.rf (aCHN_QUEUES r.chan) 11 8 ≠ 10 →
    ∃ t, exec (.hshJobCompletion mismatch) s = .next t ∧ t.eng.hsh = none ∧
      t.rf (aCHN_COUNT r.chan) 31 16 = (s.rf (aCHN_COUNT r.chan) 31 16 + 1) % 65536 ∧
      t.rf aHSH_COUNT 15 0 = (s.rf aHSH_COUNT 15 0 + 1) % 65536 ∧
      t.rf aHSH_COUNT 31 16 = (s.rf aHSH_COUNT 31 16 + 1) % 65536 ∧
      t.rf (aCHN_STATUS r.chan) 15 8 = r.status.toNat ∧
      RegsBut [aCHN_STATUS r.chan, aCHN_COUNT r.chan, aHSH_COUNT, aQUE_DROP (s.rf (aCHN_QUEUES r.chan) 11 8)] s t ∧
      BytesKept s t)

/-- A granted write of QUE_PUSHDATA stages the payload of that master and changes no register (the counters of PRF_
apart). With room, no packet waiting in the unit for room, and Q8 empty, on a lane of a queue other than Q8,
Q10, Q14 and Q15 where a commit is named: a granted QUE_PUSHTAG with SOP, of a writer with no open packet and
with fewer than eight open, opens a packet of that writer, with PRIO and SRC of the tag and one item that
carries the staged payload, or with EOP too commits it behind the committed ones with the next SEQ of the lane;
a granted QUE_PUSHEMPTY with SOP and EOP commits a zero-length packet in the same way. Where the writer has a
packet open with the tag's PRIO and the tag has no SOP, the item goes behind those of the open packet, which EOP
commits. A tag without SOP and with another PRIO rewinds the open packet: it is gone and DROPS advances by one.
A tag without SOP from a writer with no open packet, and a write of QUE_PUSHEMPTY without both SOP and EOP, only
set PUSH_ERR. (16_queues_and_mover.md.) -/
def Obligations.QueuePushes : Prop :=
  (∀ (s : State) (m : Master) (q lane : Nat) (v : Word), GrantsWindow s m true q lane 0x14 →
    ∃ t, exec (.pushData m q lane v) s = .next t ∧ tget (t.lane (laneNo q lane)).staged (portNo m) 0 = v ∧
      (t.lane (laneNo q lane)).committed = (s.lane (laneNo q lane)).committed ∧
      (t.lane (laneNo q lane)).opens = (s.lane (laneNo q lane)).opens ∧ RegsBut [] s t ∧ BytesKept s t) ∧
  (∀ (s : State) (m : Master) (q lane : Nat) (tag : Word), GrantsWindow s m true q lane 0x10 → bit tag 30 = true →
    bit tag 29 = false → tfind (s.lane (laneNo q lane)).opens (portNo m) = none → s.openCount (laneNo q lane) < 8 →
    s.heldBack (laneNo q lane) < s.room (laneNo q lane) → (s.lane 8).committed = [] → s.eng.waiting = [] →
    ∃ t, exec (.pushTag m q lane tag) s = .next t ∧
      tfind (t.lane (laneNo q lane)).opens (portNo m) = some ⟨[⟨takenTag tag, tget (s.lane (laneNo q lane)).staged (portNo m) 0, false⟩], 0, fld tag 28 27, fld tag 23 16, false, none, false, false, 0⟩ ∧
      (t.lane (laneNo q lane)).committed = (s.lane (laneNo q lane)).committed ∧ RegsBut [] s t ∧ BytesKept s t) ∧
  (∀ (s : State) (m : Master) (q lane : Nat) (tag : Word), GrantsWindow s m true q lane 0x10 → bit tag 30 = true →
    bit tag 29 = true → tfind (s.lane (laneNo q lane)).opens (portNo m) = none → s.openCount (laneNo q lane) < 8 →
    s.heldBack (laneNo q lane) < s.room (laneNo q lane) → (s.lane 8).committed = [] → s.eng.waiting = [] →
    q ∉ [8, 10, 14, 15] →
    ∃ t, exec (.pushTag m q lane tag) s = .next t ∧
      (t.lane (laneNo q lane)).committed = (s.lane (laneNo q lane)).committed ++ [⟨[⟨setFld (takenTag tag) 15 0 (s.lane (laneNo q lane)).seq.toNat, tget (s.lane (laneNo q lane)).staged (portNo m) 0, false⟩], (s.lane (laneNo q lane)).seq, fld tag 28 27, fld tag 23 16, false, none, false, false, s.commits⟩] ∧
      (t.lane (laneNo q lane)).seq = (s.lane (laneNo q lane)).seq + 1 ∧ RegsBut [] s t ∧ BytesKept s t) ∧
  (∀ (s : State) (m : Master) (q lane : Nat) (tag : Word), GrantsWindow s m true q lane 0x18 → bit tag 30 = true →
    bit tag 29 = true → tfind (s.lane (laneNo q lane)).opens (portNo m) = none → s.openCount (laneNo q lane) < 8 →
    s.heldBack (laneNo q lane) < s.room (laneNo q lane) → (s.lane 8).committed = [] → s.eng.waiting = [] →
    q ∉ [8, 10, 14, 15] →
    ∃ t, exec (.pushEmpty m q lane tag) s = .next t ∧
      (t.lane (laneNo q lane)).committed = (s.lane (laneNo q lane)).committed ++ [⟨[⟨setFld (takenTag tag) 15 0 (s.lane (laneNo q lane)).seq.toNat, 0, true⟩], (s.lane (laneNo q lane)).seq, fld tag 28 27, fld tag 23 16, false, none, false, false, s.commits⟩] ∧
      (t.lane (laneNo q lane)).seq = (s.lane (laneNo q lane)).seq + 1 ∧ RegsBut [] s t ∧ BytesKept s t) ∧
  (∀ (s : State) (m : Master) (q lane : Nat) (tag : Word) (p : Packet), GrantsWindow s m true q lane 0x10 →
    bit tag 30 = false → bit tag 29 = false → tfind (s.lane (laneNo q lane)).opens (portNo m) = some p →
    p.prio = fld tag 28 27 → s.heldBack (laneNo q lane) < s.room (laneNo q lane) → (s.lane 8).committed = [] →
    s.eng.waiting = [] →
    ∃ t, exec (.pushTag m q lane tag) s = .next t ∧
      tfind (t.lane (laneNo q lane)).opens (portNo m) = some { p with items := p.items ++ [⟨takenTag tag, tget (s.lane (laneNo q lane)).staged (portNo m) 0, false⟩] } ∧
      (t.lane (laneNo q lane)).committed = (s.lane (laneNo q lane)).committed ∧ RegsBut [] s t ∧ BytesKept s t) ∧
  (∀ (s : State) (m : Master) (q lane : Nat) (tag : Word) (p : Packet), GrantsWindow s m true q lane 0x10 →
    bit tag 30 = false → bit tag 29 = true → tfind (s.lane (laneNo q lane)).opens (portNo m) = some p →
    p.prio = fld tag 28 27 → p.doomed = false → s.heldBack (laneNo q lane) < s.room (laneNo q lane) →
    (s.lane 8).committed = [] → s.eng.waiting = [] → q ∉ [8, 10, 14, 15] →
    ∃ t, exec (.pushTag m q lane tag) s = .next t ∧ tfind (t.lane (laneNo q lane)).opens (portNo m) = none ∧
      (t.lane (laneNo q lane)).committed = (s.lane (laneNo q lane)).committed ++ [{ p with items := (p.items ++ ([⟨takenTag tag, tget (s.lane (laneNo q lane)).staged (portNo m) 0, false⟩] : List Item)).map (fun (i : Item) => { i with tag := setFld i.tag 15 0 (s.lane (laneNo q lane)).seq.toNat }), seq := (s.lane (laneNo q lane)).seq, no := s.commits }] ∧
      RegsBut [] s t ∧ BytesKept s t) ∧
  (∀ (s : State) (m : Master) (q lane : Nat) (tag : Word) (p : Packet), GrantsWindow s m true q lane 0x10 →
    bit tag 30 = false → tfind (s.lane (laneNo q lane)).opens (portNo m) = some p → p.prio ≠ fld tag 28 27 →
    (s.lane 8).committed = [] → s.eng.waiting = [] →
    ∃ t, exec (.pushTag m q lane tag) s = .next t ∧ tfind (t.lane (laneNo q lane)).opens (portNo m) = none ∧
      (t.lane (laneNo q lane)).committed = (s.lane (laneNo q lane)).committed ∧
      t.rf (aQUE_DROP (qOf (laneNo q lane))) 15 0 = (s.rf (aQUE_DROP (qOf (laneNo q lane))) 15 0 + 1) % 65536 ∧
      RegsBut [aQUE_DROP (qOf (laneNo q lane))] s t ∧ BytesKept s t) ∧
  (∀ (s : State) (m : Master) (q lane : Nat) (tag : Word), GrantsWindow s m true q lane 0x10 → bit tag 30 = false →
    tfind (s.lane (laneNo q lane)).opens (portNo m) = none → (s.lane 8).committed = [] → s.eng.waiting = [] →
    ∃ t, exec (.pushTag m q lane tag) s = .next t ∧ t.rb (aQUE_STAT (qOf (laneNo q lane))) 31 = true ∧
      (t.lane (laneNo q lane)).opens = (s.lane (laneNo q lane)).opens ∧
      (t.lane (laneNo q lane)).committed = (s.lane (laneNo q lane)).committed ∧
      RegsBut [aQUE_STAT (qOf (laneNo q lane))] s t ∧ BytesKept s t) ∧
  (∀ (s : State) (m : Master) (q lane : Nat) (tag : Word), GrantsWindow s m true q lane 0x18 →
    (bit tag 30 && bit tag 29) = false →
    ∃ t, exec (.pushEmpty m q lane tag) s = .next t ∧ t.rb (aQUE_STAT (qOf (laneNo q lane))) 31 = true ∧
      t.lanes = s.lanes ∧ RegsBut [aQUE_STAT (qOf (laneNo q lane))] s t ∧ BytesKept s t)

/-- With no completion waiting for room: a granted read of QUE_POPTAG of a lane whose head packet is whole and sound
answers the tag word of its first item, latches the payload and the information word for that master, and leaves
the rest of the packet as the half-read one; of an empty lane it answers NV with every other bit 0 and latches
0. A granted QUE_CANCEL of a lane in which the writer has a packet open closes that packet, commits nothing and
advances DROPS by one. A granted QUE_FLUSH or QUE_PFLUSH, with no island log record kept, no mover channel
moving a packet of its queues and, of QUE_PFLUSH, no AES job running, leaves in each lane that it names (of
QUE_FLUSH those that its mask lets software flush) no committed item, no open packet and no staged payload, with
SEQ as it was. The only mover channel at work, moving memory to a queue that a QUE_FLUSH names, ends with
ABORTED and 0 bytes. (16_queues_and_mover.md.) -/
def Obligations.QueuePopsAndFlushes : Prop :=
  (∀ (s : State) (m : Master) (q lane : Nat) (p : Packet) (i : Item) (r : List Packet),
    GrantsWindow s m false q lane 0 → (s.lane (laneNo q lane)).half = none →
    takePacket (s.mailLane (laneNo q lane)) (s.lane (laneNo q lane)).committed = some (p, r) →
    p.items.head? = some i → 1 < p.items.length → p.ecc = none → s.eng.waiting = [] →
    ∃ t, exec (.pop m q lane) s = .next t ∧ tfind t.readOut (portNo m) = some i.tag ∧
      t.latched m (windowAddr q lane 4) = i.data ∧
      t.latched m (windowAddr q lane 8) = (if i.tagOnly then 1 else 0) ∧
      (t.lane (laneNo q lane)).half = some { p with items := p.items.tail } ∧
      (t.lane (laneNo q lane)).committed = r ∧ RegsBut [] s t ∧ BytesKept s t) ∧
  (∀ (s : State) (m : Master) (q lane : Nat), GrantsWindow s m false q lane 0 →
    (s.lane (laneNo q lane)).half = none → (s.lane (laneNo q lane)).committed = [] → s.eng.waiting = [] →
    ∃ t, exec (.pop m q lane) s = .next t ∧ tfind t.readOut (portNo m) = some 0x80000000 ∧
      t.latched m (windowAddr q lane 4) = 0 ∧ t.latched m (windowAddr q lane 8) = 0 ∧ t.lanes = s.lanes ∧
      RegsBut [] s t ∧ BytesKept s t) ∧
  (∀ (s : State) (m : Master) (q lane : Nat) (p : Packet), GrantsWindow s m true q lane 0x1C →
    tfind (s.lane (laneNo q lane)).opens (portNo m) = some p → s.eng.waiting = [] →
    ∃ t, exec (.cancel m q lane) s = .next t ∧ tfind (t.lane (laneNo q lane)).opens (portNo m) = none ∧
      (t.lane (laneNo q lane)).committed = (s.lane (laneNo q lane)).committed ∧
      t.rf (aQUE_DROP (qOf (laneNo q lane))) 15 0 = (s.rf (aQUE_DROP (qOf (laneNo q lane))) 15 0 + 1) % 65536 ∧
      RegsBut [aQUE_DROP (qOf (laneNo q lane))] s t ∧ BytesKept s t) ∧
  (∀ (s : State) (m : Master) (mask : Word) (q : Nat), Grants s m aQUE_FLUSH → s.eng.waiting = [] →
    s.envm.islandLog = [] → (s.mover.any (s.mvTouches (fld mask 15 0 &&& 0x23FF))) = false → q < 16 →
    testBit (fld mask 15 0 &&& 0x23FF) q = true →
    ∃ t, exec (.flush m mask) s = .next t ∧ t.lane q = { laneNil with seq := (s.lane q).seq } ∧ RegsBut [] s t ∧
      BytesKept s t) ∧
  (∀ (s : State) (m : Master) (mask : Word) (q : Nat), Grants s m aQUE_PFLUSH → s.eng.waiting = [] →
    s.envm.islandLog = [] → s.eng.aes = none → (s.mover.any (s.mvTouches (fld mask 15 0))) = false → q < 16 →
    testBit (fld mask 15 0) q = true →
    ∃ t, exec (.pflush m mask) s = .next t ∧ t.lane q = { laneNil with seq := (s.lane q).seq } ∧
      (14 ≤ q → t.lane (16 + q) = { laneNil with seq := (s.lane (16 + q)).seq }) ∧ BytesKept s t) ∧
  (∀ (s : State) (m : Master) (mask : Word) (ch : Nat) (x : MoverRun), Grants s m aQUE_FLUSH → s.eng.waiting = [] →
    s.envm.islandLog = [] → ch < 8 → s.mover = [(ch, x)] → x.armed = false → x.held = false → mvKind x.desc = 2 →
    testBit (fld mask 15 0 &&& 0x23FF) (mvDstq x.desc) = true → s.rb (aQUE_MVCTL ch) 2 = false →
    ∃ t, exec (.flush m mask) s = .next t ∧ t.mover = [] ∧
      t.reg (aQUE_MVSTAT ch) = w32 (cAborted.toNat * 2 ^ 24 + 2 ^ 22) ∧ RegsBut [aQUE_MVSTAT ch] s t ∧ BytesKept s t)

/-- A granted GO of an idle mover channel takes the descriptor in its four registers, armed where WAITQ of a
descriptor with a LEN finds no packet in its source queue and running otherwise, with nothing moved, and
QUE_MVSTAT shows PENDING and BUSY; a GO of a BUSY channel does nothing. An armed descriptor whose source queue
holds a packet is armed no longer. A granted STOP of a BUSY channel ends it: QUE_MVSTAT shows ABORTED, ENDED and
the bytes moved; with EVT and room in Q2, the event word of the channel is its newest packet. No other register
(the counters of PRF_ apart) changes, and no byte of memory. (16_queues_and_mover.md.) -/
def Obligations.MoverControl : Prop :=
  (∀ (s : State) (m : Master) (ch : Nat), ch < 8 → Grants s m (aQUE_MVCTL ch) → tfind s.mover ch = none →
    ∃ t, exec (.moverGo m ch) s = .next t ∧
      tfind t.mover ch = some ⟨(List.range 4).map (fun w => s.reg (aQUE_MVDESC ch w)), mvWait ((List.range 4).map fun w => s.reg (aQUE_MVDESC ch w)) && decide (mvLen ((List.range 4).map fun w => s.reg (aQUE_MVDESC ch w)) ≠ 0) && (s.headPacket (s.mvPopLane (s.moverRights ch) (mvSrcq ((List.range 4).map fun w => s.reg (aQUE_MVDESC ch w))))).isNone, 0, cPending, false, false⟩ ∧
      t.lanes = s.lanes ∧ t.reg (aQUE_MVSTAT ch) = w32 (cPending.toNat * 2 ^ 24 + 2 ^ 23) ∧
      RegsBut [aQUE_MVSTAT ch] s t ∧ BytesKept s t) ∧
  (∀ (s : State) (m : Master) (ch : Nat) (r : MoverRun), ch < 8 → Grants s m (aQUE_MVCTL ch) →
    tfind s.mover ch = some r →
    ∃ t, exec (.moverGo m ch) s = .next t ∧ t.mover = s.mover ∧ t.lanes = s.lanes ∧ RegsBut [] s t ∧ BytesKept s t) ∧
  (∀ (s : State) (ch : Nat) (r : MoverRun), tfind s.mover ch = some r → r.armed = true → s.resumed = true →
    (s.headPacket (s.mvPopLane (s.moverRights ch) (mvSrcq r.desc))).isSome = true →
    ∃ t, exec (.armedDescriptorStart ch) s = .next t ∧ tfind t.mover ch = some { r with armed := false } ∧
      t.lanes = s.lanes ∧ t.regs = s.regs ∧ BytesKept s t) ∧
  (∀ (s : State) (m : Master) (ch : Nat) (r : MoverRun), ch < 8 → Grants s m (aQUE_MVCTL ch) →
    tfind s.mover ch = some r → s.rb (aQUE_MVCTL ch) 2 = false →
    ∃ t, exec (.moverStop m ch) s = .next t ∧ tfind t.mover ch = none ∧
      t.reg (aQUE_MVSTAT ch) = w32 (cAborted.toNat * 2 ^ 24 + 2 ^ 22 + r.moved % 2 ^ 20) ∧ t.lanes = s.lanes ∧
      RegsBut [aQUE_MVSTAT ch] s t ∧ BytesKept s t) ∧
  (∀ (s : State) (m : Master) (ch : Nat) (r : MoverRun), ch < 8 → Grants s m (aQUE_MVCTL ch) →
    tfind s.mover ch = some r → s.rb (aQUE_MVCTL ch) 2 = true → s.laneWaits 2 = false → 1 ≤ s.room 2 →
    s.openCount 2 < 8 →
    ∃ t, exec (.moverStop m ch) s = .next t ∧ tfind t.mover ch = none ∧
      t.reg (aQUE_MVSTAT ch) = w32 (cAborted.toNat * 2 ^ 24 + 2 ^ 22 + r.moved % 2 ^ 20) ∧
      ((t.lane 2).committed.getLast?).map packetWords = some [w32 (0x4D560000 + cAborted.toNat * 0x100 + ch * 16)] ∧
      RegsBut [aQUE_MVSTAT ch] s t ∧ BytesKept s t)

/-- A running descriptor of a channel without EVT completes as DESCRIPTOR_DONE. M2M with a LEN and both spans
reachable, the destination in Sedge SRAM: the destination holds the bytes of the source and every other byte is
as before. Q2M of a sound packet that LEN takes, with a reachable destination in Sedge SRAM: the packet has left
its queue and its bytes stand at the destination. M2Q to a queue 0 to 7 that its rights may push to, with room:
the newest packet there holds the bytes, with PRIO and SRC of the descriptor. Q2Q to another queue 0 to 7: the
packet has left its queue, and the newest packet of the destination has its PRIO, SRC and bytes. QUE_MVSTAT then
reads OK, ENDED and the bytes moved, QUE_MVSEQ the SEQ of the packet popped or pushed, and the channel is idle;
a Q2M with CHAIN goes on instead with the descriptor of four words at NEXT, and QUE_MVSTAT reads PENDING and
BUSY. No other register (the counters of PRF_ apart) changes. (16_queues_and_mover.md.) -/
def Obligations.MoverDescriptors : Prop :=
  (∀ (s : State) (ch : Nat) (r : MoverRun), ch < 8 → tfind s.mover ch = some r → r.armed = false → r.held = false →
    r.mixed = false → s.resumed = true → s.rb (aQUE_MVCTL ch) 2 = false → mvKind r.desc = 4 → 0 < mvLen r.desc →
    byWord (wordAt r.desc 1).toNat = false →
    s.mvSpanOk (s.moverRights ch) false (wordAt r.desc 1).toNat (mvLen r.desc) = true →
    s.mvSpanOk (s.moverRights ch) true (wordAt r.desc 3).toNat (mvLen r.desc) = true →
    0x20000000 ≤ (wordAt r.desc 3).toNat → (wordAt r.desc 3).toNat + mvLen r.desc ≤ 0x20080000 →
    ∃ t, exec (.descriptorDone ch) s = .next t ∧
      t.memRead (wordAt r.desc 3).toNat (mvLen r.desc) = s.memRead (wordAt r.desc 1).toNat (mvLen r.desc) ∧
      (∀ a, (a < (wordAt r.desc 3).toNat ∨ (wordAt r.desc 3).toNat + mvLen r.desc ≤ a) → cellGet t.mem a memDefault = cellGet s.mem a memDefault) ∧
      t.flash = s.flash ∧ t.lanes = s.lanes ∧ tfind t.mover ch = none ∧
      t.reg (aQUE_MVSTAT ch) = w32 (cOk.toNat * 2 ^ 24 + 2 ^ 22 + mvLen r.desc % 2 ^ 20) ∧
      RegsBut [aQUE_MVSTAT ch] s t) ∧
  (∀ (s : State) (ch : Nat) (r : MoverRun) (p : Packet), ch < 8 → tfind s.mover ch = some r → r.armed = false →
    r.held = false → r.mixed = false → s.resumed = true → s.rb (aQUE_MVCTL ch) 2 = false → mvKind r.desc = 1 →
    mvChain r.desc = false → mvLen r.desc ≠ 0 →
    s.headPacket (s.mvPopLane (s.moverRights ch) (mvSrcq r.desc)) = some p → packetBroken p = false →
    (packetBytes p).length ≤ mvLen r.desc →
    s.mvSpanOk (s.moverRights ch) true (wordAt r.desc 1).toNat (packetBytes p).length = true →
    0x20000000 ≤ (wordAt r.desc 1).toNat → (wordAt r.desc 1).toNat + (packetBytes p).length ≤ 0x20080000 →
    ∃ t, exec (.descriptorDone ch) s = .next t ∧
      t.memRead (wordAt r.desc 1).toNat (packetBytes p).length = packetBytes p ∧
      (∀ a, (a < (wordAt r.desc 1).toNat ∨ (wordAt r.desc 1).toNat + (packetBytes p).length ≤ a) → cellGet t.mem a memDefault = cellGet s.mem a memDefault) ∧
      t.flash = s.flash ∧
      (t.lane (s.mvPopLane (s.moverRights ch) (mvSrcq r.desc))).committed = (s.lane (s.mvPopLane (s.moverRights ch) (mvSrcq r.desc))).committed.erase p ∧
      tfind t.mover ch = none ∧
      t.reg (aQUE_MVSTAT ch) = w32 (cOk.toNat * 2 ^ 24 + 2 ^ 22 + (packetBytes p).length % 2 ^ 20) ∧
      t.reg (aQUE_MVSEQ ch) = w32 p.seq.toNat ∧ RegsBut [aQUE_MVSTAT ch, aQUE_MVSEQ ch] s t) ∧
  (∀ (s : State) (ch : Nat) (r : MoverRun) (p : Packet), ch < 8 → tfind s.mover ch = some r → r.armed = false →
    r.held = false → r.mixed = false → s.resumed = true → s.rb (aQUE_MVCTL ch) 2 = false → mvKind r.desc = 1 →
    mvChain r.desc = true → mvLen r.desc ≠ 0 →
    s.headPacket (s.mvPopLane (s.moverRights ch) (mvSrcq r.desc)) = some p → packetBroken p = false →
    (packetBytes p).length ≤ mvLen r.desc →
    s.mvSpanOk (s.moverRights ch) true (wordAt r.desc 1).toNat (packetBytes p).length = true →
    0x20000000 ≤ (wordAt r.desc 1).toNat → (wordAt r.desc 1).toNat + (packetBytes p).length ≤ 0x20080000 →
    (wordAt r.desc 3).toNat % 16 = 0 → byWord (wordAt r.desc 3).toNat = false →
    s.mvSpanOk (s.moverRights ch) false (wordAt r.desc 3).toNat 16 = true →
    ∃ t, exec (.descriptorDone ch) s = .next t ∧
      t.memRead (wordAt r.desc 1).toNat (packetBytes p).length = packetBytes p ∧
      (∀ a, (a < (wordAt r.desc 1).toNat ∨ (wordAt r.desc 1).toNat + (packetBytes p).length ≤ a) → cellGet t.mem a memDefault = cellGet s.mem a memDefault) ∧
      t.flash = s.flash ∧
      (t.lane (s.mvPopLane (s.moverRights ch) (mvSrcq r.desc))).committed = (s.lane (s.mvPopLane (s.moverRights ch) (mvSrcq r.desc))).committed.erase p ∧
      (tfind t.mover ch).map (fun x => (x.desc, x.moved)) = some (toWords (t.memRead (wordAt r.desc 3).toNat 16), 0) ∧
      t.reg (aQUE_MVSTAT ch) = w32 (cPending.toNat * 2 ^ 24 + 2 ^ 23) ∧ t.reg (aQUE_MVSEQ ch) = w32 p.seq.toNat ∧
      RegsBut [aQUE_MVSTAT ch, aQUE_MVSEQ ch] s t) ∧
  (∀ (s : State) (ch : Nat) (r : MoverRun), ch < 8 → tfind s.mover ch = some r → r.armed = false → r.held = false →
    r.mixed = false → s.resumed = true → s.rb (aQUE_MVCTL ch) 2 = false → mvKind r.desc = 2 →
    mvChain r.desc = false → byWord (wordAt r.desc 1).toNat = false →
    s.mvSpanOk (s.moverRights ch) false (wordAt r.desc 1).toNat (mvLen r.desc) = true →
    (s.mvPushLane (s.moverRights ch) (mvDstq r.desc)) < 8 →
    s.mayQueue (s.moverRights ch) true (mvDstq r.desc) 0 = true →
    max 1 (wordsOf (mvLen r.desc)) + s.heldBack (s.mvPushLane (s.moverRights ch) (mvDstq r.desc)) ≤ s.room (s.mvPushLane (s.moverRights ch) (mvDstq r.desc)) →
    s.openCount (s.mvPushLane (s.moverRights ch) (mvDstq r.desc)) < 8 → (s.lane 8).committed = [] →
    ∃ t, exec (.descriptorDone ch) s = .next t ∧
      ((t.lane (s.mvPushLane (s.moverRights ch) (mvDstq r.desc))).committed.getLast?).map (fun x => (x.prio, x.src, packetBytes x)) = some (fld (wordAt r.desc 0) 19 18, fld (wordAt r.desc 0) 15 8, s.memRead (wordAt r.desc 1).toNat (mvLen r.desc)) ∧
      (t.lane (s.mvPushLane (s.moverRights ch) (mvDstq r.desc))).committed.length = (s.lane (s.mvPushLane (s.moverRights ch) (mvDstq r.desc))).committed.length + 1 ∧
      tfind t.mover ch = none ∧ t.reg (aQUE_MVSTAT ch) = w32 (cOk.toNat * 2 ^ 24 + 2 ^ 22 + mvLen r.desc % 2 ^ 20) ∧
      t.reg (aQUE_MVSEQ ch) = w32 (s.nextSeq (s.mvPushLane (s.moverRights ch) (mvDstq r.desc))) ∧
      RegsBut [aQUE_MVSTAT ch, aQUE_MVSEQ ch] s t ∧ BytesKept s t) ∧
  (∀ (s : State) (ch : Nat) (r : MoverRun) (p : Packet), ch < 8 → tfind s.mover ch = some r → r.armed = false →
    r.held = false → r.mixed = false → s.resumed = true → s.rb (aQUE_MVCTL ch) 2 = false → mvKind r.desc = 3 →
    mvChain r.desc = false → mvLen r.desc ≠ 0 →
    s.headPacket (s.mvPopLane (s.moverRights ch) (mvSrcq r.desc)) = some p → packetBroken p = false →
    (packetBytes p).length ≤ mvLen r.desc → (s.mvPushLane (s.moverRights ch) (mvDstq r.desc)) < 8 →
    (s.mvPushLane (s.moverRights ch) (mvDstq r.desc)) ≠ (s.mvPopLane (s.moverRights ch) (mvSrcq r.desc)) →
    s.mayQueue (s.moverRights ch) true (mvDstq r.desc) 0 = true →
    p.items.length + s.heldBack (s.mvPushLane (s.moverRights ch) (mvDstq r.desc)) ≤ s.room (s.mvPushLane (s.moverRights ch) (mvDstq r.desc)) →
    s.openCount (s.mvPushLane (s.moverRights ch) (mvDstq r.desc)) < 8 → p.doomed = false →
    (s.lane 8).committed = [] →
    ∃ t, exec (.descriptorDone ch) s = .next t ∧
      ((t.lane (s.mvPushLane (s.moverRights ch) (mvDstq r.desc))).committed.getLast?).map (fun x => (x.prio, x.src, packetBytes x)) = some (p.prio, p.src, packetBytes p) ∧
      (t.lane (s.mvPushLane (s.moverRights ch) (mvDstq r.desc))).committed.length = (s.lane (s.mvPushLane (s.moverRights ch) (mvDstq r.desc))).committed.length + 1 ∧
      (t.lane (s.mvPopLane (s.moverRights ch) (mvSrcq r.desc))).committed = (s.lane (s.mvPopLane (s.moverRights ch) (mvSrcq r.desc))).committed.erase p ∧
      tfind t.mover ch = none ∧
      t.reg (aQUE_MVSTAT ch) = w32 (cOk.toNat * 2 ^ 24 + 2 ^ 22 + (packetBytes p).length % 2 ^ 20) ∧
      t.reg (aQUE_MVSEQ ch) = w32 (s.nextSeq (s.mvPushLane (s.moverRights ch) (mvDstq r.desc))) ∧
      RegsBut [aQUE_MVSTAT ch, aQUE_MVSEQ ch] s t ∧ BytesKept s t)

/-- With no event route enabled: a tick of an enabled timer with CLKSEL 0, and a step that reaches one with CLKSEL
1, put COUNT to 0 where the count wraps and advance it by one modulo 2^32 where it does not; a wrap sets WRAP,
and raises the interrupt of the timer's owner where IE asks for one. TIMER_WRAP is such a tick or step where the
count wraps. COMPARE of a channel is one after whose wrap test and advance the channel is armed and the new
count has reached its value: its CMP bit is set and it is disarmed. Only TMR_COUNT, TMR_STAT and the captures of
that timer change. With one route enabled, of the WRAP of a timer that ticks with CLKSEL 0 and wraps, not
refused and its action not yet taken in this XO cycle: a step reaches a target timer with CLKSEL 1, or an idle
mover channel starts the descriptor in its registers. (17_timers_and_monitor_converter.md.) -/
def Obligations.TimerCounts : Prop :=
  (∀ (s : State) (n : Nat), n < 16 → s.resumed = true → s.rb (aTMR_CTL n) 31 = true → s.rb (aTMR_CTL n) 30 = false →
    NoRoutes s →
    ∃ t, exec (.timerTick n) s = .next t ∧
      t.reg (aTMR_COUNT n) = (if s.wraps n then 0 else s.reg (aTMR_COUNT n) + 1) ∧
      (s.wraps n = true → t.rb (aTMR_STAT n) 4 = true) ∧
      (s.wraps n = true → s.rb (aTMR_CTL n) 20 = true → Irq.timer n (s.tmrPeat n) ∈ t.irqs) ∧
      RegsBut [aTMR_COUNT n, aTMR_STAT n, aTMR_CAPLO n, aTMR_CAPHI n] s t) ∧
  (∀ (s : State) (n : Nat), n < 16 → s.resumed = true → s.rb (aTMR_CTL n) 31 = true → s.rb (aTMR_CTL n) 30 = true →
    NoRoutes s → tget s.steps n 0 ≠ 0 →
    ∃ t, exec (.timerStep n) s = .next t ∧
      t.reg (aTMR_COUNT n) = (if s.wraps n then 0 else s.reg (aTMR_COUNT n) + 1) ∧
      (s.wraps n = true → t.rb (aTMR_STAT n) 4 = true) ∧
      (s.wraps n = true → s.rb (aTMR_CTL n) 20 = true → Irq.timer n (s.tmrPeat n) ∈ t.irqs) ∧
      tget t.steps n 0 = tget s.steps n 0 - 1 ∧ RegsBut [aTMR_COUNT n, aTMR_STAT n, aTMR_CAPLO n, aTMR_CAPHI n] s t) ∧
  (∀ (s : State) (n : Nat), n < 16 → s.resumed = true → s.rb (aTMR_CTL n) 31 = true →
    (s.rb (aTMR_CTL n) 30 = true → tget s.steps n 0 ≠ 0) → NoRoutes s → s.wraps n = true →
    ∃ t, exec (.timerWrap n) s = .next t ∧ t.reg (aTMR_COUNT n) = 0 ∧ t.rb (aTMR_STAT n) 4 = true ∧
      (s.wraps n = true → s.rb (aTMR_CTL n) 20 = true → Irq.timer n (s.tmrPeat n) ∈ t.irqs) ∧
      RegsBut [aTMR_COUNT n, aTMR_STAT n, aTMR_CAPLO n, aTMR_CAPHI n] s t) ∧
  (∀ (s u : State) (n c : Nat), n < 16 → s.resumed = true → s.rb (aTMR_CTL n) 31 = true →
    (s.rb (aTMR_CTL n) 30 = true → tget s.steps n 0 ≠ 0) → NoRoutes s → c < 4 → u = s.tmrAdvance n →
    u.rb (aTMR_STAT n) (7 + c) = true → (u.reg (aTMR_COUNT n) - u.reg (aTMR_CMP n c)).toNat < 2 ^ 31 →
    ∃ t, exec (.compare n c) s = .next t ∧ t.rb (aTMR_STAT n) c = true ∧ t.rb (aTMR_STAT n) (7 + c) = false ∧
      t.reg (aTMR_COUNT n) = (if s.wraps n then 0 else s.reg (aTMR_COUNT n) + 1) ∧
      RegsBut [aTMR_COUNT n, aTMR_STAT n, aTMR_CAPLO n, aTMR_CAPHI n] s t) ∧
  (∀ (s : State) (n r k : Nat), n < 16 → s.resumed = true → s.rb (aTMR_CTL n) 31 = true →
    s.rb (aTMR_CTL n) 30 = false → s.wraps n = true → k < 16 → k ≠ n → s.rb (aTMR_CTL k) 30 = true → r < 16 →
    bit (s.reg (aTMR_ROUTE r)) 31 = true → fld (s.reg (aTMR_ROUTE r)) 27 24 = n →
    fld (s.reg (aTMR_ROUTE r)) 22 20 = 4 → fld (s.reg (aTMR_ROUTE r)) 17 16 = 3 →
    fld (s.reg (aTMR_ROUTE r)) 3 0 = k → s.routeRefused r = false →
    (∀ i : Nat, i < 16 → i = r ∨ s.rb (aTMR_ROUTE i) 31 = false) → (3, k) ∉ (s.routeCycle n).routed.2.2 →
    ∃ t, exec (.timerTick n) s = .next t ∧ t.reg (aTMR_COUNT n) = 0 ∧ t.rb (aTMR_STAT n) 4 = true ∧
      tget t.steps k 0 = tget s.steps k 0 + 1 ∧ RegsBut [aTMR_COUNT n, aTMR_STAT n, aTMR_CAPLO n, aTMR_CAPHI n] s t) ∧
  (∀ (s : State) (n r k : Nat), n < 16 → s.resumed = true → s.rb (aTMR_CTL n) 31 = true →
    s.rb (aTMR_CTL n) 30 = false → s.wraps n = true → k < 8 → tfind s.mover k = none → r < 16 →
    bit (s.reg (aTMR_ROUTE r)) 31 = true → fld (s.reg (aTMR_ROUTE r)) 27 24 = n →
    fld (s.reg (aTMR_ROUTE r)) 22 20 = 4 → fld (s.reg (aTMR_ROUTE r)) 17 16 = 2 →
    fld (s.reg (aTMR_ROUTE r)) 3 0 = k → s.routeRefused r = false →
    (∀ i : Nat, i < 16 → i = r ∨ s.rb (aTMR_ROUTE i) 31 = false) → (2, k) ∉ (s.routeCycle n).routed.2.2 →
    ∃ t, exec (.timerTick n) s = .next t ∧ t.reg (aTMR_COUNT n) = 0 ∧ t.rb (aTMR_STAT n) 4 = true ∧
      (tfind t.mover k).map (fun x => x.desc) = some ((List.range 4).map fun w => s.reg (aQUE_MVDESC k w)) ∧
      t.reg (aQUE_MVSTAT k) = w32 (cPending.toNat * 2 ^ 24 + 2 ^ 23) ∧
      RegsBut [aTMR_COUNT n, aTMR_STAT n, aTMR_CAPLO n, aTMR_CAPHI n, aQUE_MVSTAT k] s t)

/-- A granted CMP_WRITE stores the value and arms that channel; a granted PERIOD_WRITE stores the value and changes
nothing else; an edge on GPIO1 while resumed puts SYSTIME in the capture registers of each timer that selects
that edge, and sets no register but captures and their OVERCAP. (17_timers_and_monitor_converter.md.) -/
def Obligations.TimerWritesAndCapture : Prop :=
  (∀ (s : State) (m : Master) (n c : Nat) (v : Word), n < 16 → c < 4 → Grants s m (aTMR_CMP n c) →
    ∃ t, exec (.cmpWrite m n c v) s = .next t ∧ t.reg (aTMR_CMP n c) = v ∧ t.rb (aTMR_STAT n) (7 + c) = true ∧
      RegsBut [aTMR_CMP n c, aTMR_STAT n] s t) ∧
  (∀ (s : State) (m : Master) (n : Nat) (v : Word), n < 16 → Grants s m (aTMR_PERIOD n) →
    ∃ t, exec (.periodWrite m n v) s = .next t ∧ t.reg (aTMR_PERIOD n) = v ∧ RegsBut [aTMR_PERIOD n] s t) ∧
  (∀ (s : State) (rising : Bool) (n : Nat), n < 16 → s.resumed = true →
    s.rf (aTMR_CTL n) 29 27 = (if rising then 6 else 7) →
    ∃ t, exec (.gpio1Edge rising) s = .next t ∧ t.reg (aTMR_CAPLO n) = w32 s.sysTime.toNat ∧
      t.reg (aTMR_CAPHI n) = w32 (s.sysTime.toNat / 2 ^ 32) ∧
      (∀ a, (∀ k, k < 16 → a ≠ aTMR_CAPLO k ∧ a ≠ aTMR_CAPHI k ∧ a ≠ aTMR_STAT k) → t.reg a = s.reg a))

/-- On an idle converter with no sequence waiting, a granted GO of one sequence with 1 to 8 entries that name inputs
0 to 23 makes it run from its first entry, with its status PENDING and BUSY set. The end of a conversion that is
not the last stores the input, the slot and the code in the entry's result register, the first one also the
time, and goes on to the next entry. The end of the last one of a sequence sets its status to OK; with QEN, and
room in a destination queue 0 to 7, the newest packet there holds the time and the results, with SRC 255.
(17_timers_and_monitor_converter.md.) -/
def Obligations.ConverterSequences : Prop :=
  (∀ (s : State) (m : Master) (q : Nat), q < 4 → Grants s m aMON_CTL → s.resumed = true → s.mon.run = none →
    s.rf aMON_STATUS 7 4 = 0 → s.seqLen q ≠ 0 → (∀ k, k < s.seqLen q → s.seqIn q k ≤ 23) →
    ∃ t, exec (.sequenceGo m (2 ^ q)) s = .next t ∧ t.mon.run = some ⟨q, 0, 0, 0, s.sysLo, [], false⟩ ∧
      t.rf (aMON_SEQSTAT q) 31 24 = cPending.toNat ∧ t.rb aMON_STATUS 3 = true ∧ t.rf aMON_STATUS 1 0 = q ∧
      RegsBut [aMON_STATUS, aMON_SEQSTAT q] s t) ∧
  (∀ (s : State) (code : Nat) (r : MonRun), s.mon.run = some r → r.seq < 4 → testBit s.mon.spoiled r.seq = false →
    r.abort = false → r.entry + 1 < s.seqLen r.seq →
    ∃ t, exec (.conversionSlotEnd code) s = .next t ∧
      t.reg (aMON_RES r.seq r.entry) = w32 (s.seqIn r.seq r.entry % 32 * 2 ^ 24 + r.slotNo % 256 * 2 ^ 16 + code % 4096) ∧
      (r.entry = 0 → t.reg (aMON_TIME r.seq) = r.time) ∧ t.mon.run.map (·.entry) = some (r.entry + 1) ∧
      RegsBut [aMON_RES r.seq r.entry, aMON_TIME r.seq] s t) ∧
  (∀ (s : State) (code : Nat) (r : MonRun), s.mon.run = some r → r.seq < 4 → testBit s.mon.spoiled r.seq = false →
    r.abort = false → s.seqLen r.seq ≤ r.entry + 1 → r.entry < 8 → s.rb (aMON_SEQCFG r.seq) 12 = false →
    s.rf aMON_STATUS 7 4 = 0 →
    ∃ t, exec (.conversionSlotEnd code) s = .next t ∧
      t.reg (aMON_RES r.seq r.entry) = w32 (s.seqIn r.seq r.entry % 32 * 2 ^ 24 + r.slotNo % 256 * 2 ^ 16 + code % 4096) ∧
      t.rf (aMON_SEQSTAT r.seq) 31 24 = cOk.toNat ∧ t.mon.run = none ∧ t.rb aMON_STATUS 3 = false ∧
      RegsBut [aMON_RES r.seq r.entry, aMON_TIME r.seq, aMON_STATUS, aMON_SEQSTAT r.seq] s t) ∧
  (∀ (s : State) (code : Nat) (r : MonRun) (n : Nat) (w : Word), s.mon.run = some r → r.seq < 4 →
    testBit s.mon.spoiled r.seq = false → r.abort = false → s.seqLen r.seq ≤ r.entry + 1 → r.entry < 8 →
    s.rb (aMON_SEQCFG r.seq) 12 = true → s.rf aMON_STATUS 7 4 = 0 → n = s.dstLane (s.rf (aMON_SEQCFG r.seq) 11 8) →
    n < 8 → w = w32 (s.seqIn r.seq r.entry % 32 * 2 ^ 24 + r.slotNo % 256 * 2 ^ 16 + code % 4096) →
    s.rel.pending = false → r.words.length + 2 ≤ s.room n → s.openCount n < 8 →
    ∃ t, exec (.conversionSlotEnd code) s = .next t ∧ t.reg (aMON_RES r.seq r.entry) = w ∧
      ((t.lane n).committed.getLast?).map (fun p => (p.src, packetWords p)) = some (0xFF, r.time :: r.words ++ [w]) ∧
      t.rf (aMON_SEQSTAT r.seq) 31 24 = cOk.toNat ∧ t.mon.run = none ∧
      RegsBut [aMON_RES r.seq r.entry, aMON_TIME r.seq, aMON_STATUS, aMON_SEQSTAT r.seq] s t)

/-- A granted ABORT while a sequence runs changes no register (the counters of PRF_ apart): the sequence is marked.
The end of the present conversion of a marked sequence stores that conversion in its result register, sets its
STATUS to ABORTED and commits no packet, and changes no result register but that one. Each sequence that was
pending is still pending, or is the one that runs now, with its STATUS still as it was, or PENDING. When the
unit leaves the resumed state, by SLEEP for the standing state or by ENTER_DS for deep standby, no sequence runs
or is pending, and in stages 0 to 2, which keep the registers, the STATUS of each that ran or was pending reads
ABORTED. (R427.) -/
def Obligations.AbortStopsTheConverter : Prop :=
  (∀ (s : State) (m : Master) (r : MonRun), Grants s m aMON_CTL → s.mon.run = some r →
    ∃ t, exec (.monAbort m) s = .next t ∧ t.mon.run = some { r with abort := true } ∧ t.lanes = s.lanes ∧
      RegsBut [] s t) ∧
  (∀ (s : State) (code : Nat) (r : MonRun), s.mon.run = some r → r.seq < 4 → testBit s.mon.spoiled r.seq = false →
    r.entry < 8 → r.abort = true → s.seqPending r.seq = false →
    ∃ t, exec (.conversionSlotEnd code) s = .next t ∧
      t.reg (aMON_RES r.seq r.entry) = w32 (s.seqIn r.seq r.entry % 32 * 2 ^ 24 + r.slotNo % 256 * 2 ^ 16 + code % 4096) ∧
      t.rf (aMON_SEQSTAT r.seq) 31 24 = cAborted.toNat ∧ t.lanes = s.lanes ∧
      (∀ a, a ∉ [aMON_RES r.seq r.entry, aMON_TIME r.seq, aMON_STATUS] → (∀ q, q < 4 → a ≠ aMON_SEQSTAT q) → ¬ Counted a → t.reg a = s.reg a) ∧
      (∀ q, q < 4 → s.seqPending q = false ∨ t.seqPending q = true ∨ t.mon.run.map (·.seq) = some q) ∧
      (∀ q, q < 4 → q = r.seq ∨ t.rf (aMON_SEQSTAT q) 31 24 = s.rf (aMON_SEQSTAT q) 31 24 ∨ t.rf (aMON_SEQSTAT q) 31 24 = cPending.toNat)) ∧
  (∀ (s : State) (m : Master), Grants s m aPWR_CMD → s.deciding = false → s.alone = true →
    (if s.rb aPWR_STATUS 7 then s.rf aPWR_STATUS 2 0 else max s.stageFor s.power.stageDue) < 4 →
    ∃ t, exec (.sleep m) s = .next t ∧ t.mon.run = none ∧ (∀ q, q < 4 → t.seqPending q = false) ∧
      (∀ q, q < 4 → (if s.rb aPWR_STATUS 7 then s.rf aPWR_STATUS 2 0 else max s.stageFor s.power.stageDue) < 3 → (s.seqPending q = true ∨ s.mon.run.map (·.seq) = some q) → t.rf (aMON_SEQSTAT q) 31 24 = cAborted.toNat)) ∧
  (∀ (s : State) (m : Master), Grants s m aPWR_CMD → s.keepsAwake = false → s.tag.hostBusy = none →
    ∃ t, exec (.enterDs m) s = .next t ∧ t.mon.run = none ∧ (∀ q, q < 4 → t.seqPending q = false))

/-- With the host port ready: a STATUS transaction answers the status byte. A WRITE transaction of the right length
that no check refuses, which leaves at most two buffered, is kept behind the buffered ones with its address,
walk, space and words, and answers the status byte. A READ transaction of one register of the host port, which
the host may read, with no write buffered and no check that refuses it, answers the status byte, then after 1 to
320 wait bytes the token, the value read and its CRC-32. The application of a buffered write of one word to
QUE_PUSHDATA of a window that the host may write stages the word and takes the write from the buffer. None
changes a byte of memory. (18_host_port_and_causeway.md.) -/
def Obligations.HostTransactions : Prop :=
  (∀ (s : State) (c : Byte), 2 ≤ hOp c → s.hifReady = true →
    ∃ t, exec (.hostStatus c) s = .next t ∧ t.hif = { s.hif with miso := [s.statusByte] } ∧ RegsBut [] s t ∧
      t.lanes = s.lanes ∧ BytesKept s t) ∧
  (∀ (s : State) (m : Bytes), hOp (m.headD 0) = 1 → s.hifReady = true → 9 ≤ m.length →
    m.length = 4 * byteAt m 4 + 9 → txnRefusal s true m = none →
    ∃ t, exec (.hostWrite m) s = .next t ∧
      t.hif.wbuf = s.hif.wbuf ++ [⟨hSpace (m.headD 0), hWalk (m.headD 0), ofLE (slice m 1 3), toWords (slice m 5 (4 * byteAt m 4)), s.policy 1⟩] ∧
      t.hif.miso = s.statusByte :: zeros (m.length - 1) ∧ BytesKept s t) ∧
  (∀ (s : State) (m : Bytes), hOp (m.headD 0) = 0 → s.resumed = true → s.power.safeState = false → 10 ≤ m.length →
    txnRefusal s false m = none → byteAt m 4 = 1 → hSpace (m.headD 0) = false → 0x140000 ≤ ofLE (slice m 1 3) →
    ofLE (slice m 1 3) ≤ 0x140014 → judge s .host false (0x40000000 + ofLE (slice m 1 3)) false = .granted →
    s.hif.wbuf = [] →
    ∃ t, exec (.hostRead m) s = .next t ∧
      (∃ w, 1 ≤ w ∧ w ≤ 320 ∧ t.hif.miso = (s.statusByte :: zeros 8 ++ readReply w (toLE 4 (readView s (0x40000000 + ofLE (slice m 1 3))).toNat) 1 false).take m.length) ∧
      RegsBut [] s t ∧ t.lanes = s.lanes ∧ BytesKept s t) ∧
  (∀ (s : State) (b : HostBuf) (r : List HostBuf) (w : Word) (q lane : Nat), s.hif.wbuf = b :: r →
    s.resumed = true → s.power.safeState = false → b.s = true → b.words = [w] → q < 16 → lane < 2 →
    b.a = 4096 * q + 2048 * lane + 0x14 →
    ({ s with hif := { s.hif with judged := some b.policy } }).judgeWindow .host true q lane 0x14 = .granted →
    ∃ t, exec .writeBufferApply s = .next t ∧ t.hif.wbuf = r ∧
      tget (t.lane (laneNo q lane)).staged (portNo .host) 0 = w ∧
      (t.lane (laneNo q lane)).committed = (s.lane (laneNo q lane)).committed ∧ RegsBut [] s t ∧ BytesKept s t)

/-- A line lock in training is noted; a training port whose two sides are ready comes up: on a unit that has no
address, and on the head, which then has address 1, is in the roster and asks the random source for the nonce of
an enumeration. A link loss leads an up port back to training, with LOST, and nothing in it. A retransmission
timeout that is not the sixteenth resends what is not acknowledged and counts it. A frame that does not parse
counts in CWY_ERR and is answered NAK, and the packet of Q9 begun from it is rewound; one with the expected
number, for this unit alone, of class 1, is taken and acknowledged, and the number goes on. An ACK takes away
the frames up to its number, and a NAK resends the others, where nothing waits to be sent.
(18_host_port_and_causeway.md.) -/
def Obligations.PortsAndLinks : Prop :=
  (∀ (s : State) (p : Port), s.resumed = true → s.rf (aCWY_PORT (portIx p)) 25 24 = 1 →
    ∃ t, exec (.lineLock p) s = .next t ∧ t.port (portIx p) = { s.port (portIx p) with readySent := true } ∧
      t.regs = s.regs ∧ t.lanes = s.lanes ∧ t.envm = s.envm ∧ BytesKept s t) ∧
  (∀ (s : State) (p : Port), s.resumed = true → s.rf (aCWY_PORT (portIx p)) 25 24 = 1 →
    (s.port (portIx p)).readySent = true → s.isHead = false → s.unit = 0 →
    ∃ t, exec (.portUp p) s = .next t ∧ t.portUp (portIx p) = true ∧
      t.port (portIx p) = { portNil with readySent := true } ∧ RegsBut [aCWY_PORT (portIx p)] s t ∧
      t.lanes = s.lanes ∧ t.envm = s.envm ∧ BytesKept s t) ∧
  (∀ (s : State), s.resumed = true → s.rf (aCWY_PORT 1) 25 24 = 1 → (s.port 1).readySent = true → s.isHead = true →
    (s.lane 8).committed = [] → s.servedTo .nonceDn = none → s.rngFailed = false →
    ∃ t, exec (.portUp .dn) s = .next t ∧ t.portUp 1 = true ∧ t.unit = 1 ∧ (t.member 1).present = true ∧
      t.cwy.walking = true ∧ t.drawWaits .nonceDn = true ∧ t.lanes = s.lanes ∧ BytesKept s t) ∧
  (∀ (s : State) (p : Port), s.portUp (portIx p) = true →
    ∃ t, exec (.linkLoss p) s = .next t ∧ t.rf (aCWY_PORT (portIx p)) 25 24 = 1 ∧
      t.rb (aCWY_PORT (portIx p)) 31 = true ∧ (t.port (portIx p)).unacked = [] ∧ (t.port (portIx p)).waiting = [] ∧
      t.envm = s.envm ∧ BytesKept s t) ∧
  (∀ (s : State) (p : Port), s.portUp (portIx p) = true → (s.port (portIx p)).unacked ≠ [] →
    (s.port (portIx p)).timeouts < 15 →
    ∃ t, exec (.retransmissionTimeout p) s = .next t ∧
      t.port (portIx p) = { s.port (portIx p) with timeouts := (s.port (portIx p)).timeouts + 1 } ∧
      t.rf (aCWY_ERR (portIx p)) 31 16 = (s.rf (aCWY_ERR (portIx p)) 31 16 + (s.port (portIx p)).unacked.length) % 65536 ∧
      RegsBut [aCWY_ERR (portIx p)] s t ∧ t.lanes = s.lanes ∧ t.envm = s.envm ∧ BytesKept s t) ∧
  (∀ (s : State) (p : Port) (b : Bytes), s.resumed = true → s.portUp (portIx p) = true → parseFrame b = none →
    ∃ t, exec (.frameArrival p true b) s = .next t ∧
      t.port (portIx p) = { s.port (portIx p) with nakSent := true } ∧
      t.rf (aCWY_ERR (portIx p)) 15 0 = (s.rf (aCWY_ERR (portIx p)) 15 0 + 1) % 65536 ∧
      t.rf (aQUE_DROP 9) 15 0 = (s.rf (aQUE_DROP 9) 15 0 + (if s.dataBegun (portIx p) b then 1 else 0)) % 65536 ∧
      RegsBut [aCWY_ERR (portIx p), aQUE_DROP 9] s t ∧ t.cwy.taken = s.cwy.taken ∧ t.lanes = s.lanes ∧
      t.envm = s.envm ∧ BytesKept s t) ∧
  (∀ (s : State) (p : Port) (b : Bytes) (f : Frame), s.resumed = true → s.portUp (portIx p) = true →
    parseFrame b = some f → f.lseq = (s.port (portIx p)).rxSeq → f.dst = s.unit → f.dst ≠ 0 → f.dst ≠ 31 →
    f.cls = 1 →
    ∃ t, exec (.frameArrival p true b) s = .next t ∧ t.cwy.taken = s.cwy.taken ++ [((portIx p), f)] ∧
      t.port (portIx p) = { s.port (portIx p) with rxSeq := (s.port (portIx p)).rxSeq + 1, nakSent := false, acked := some f.lseq } ∧
      t.regs = s.regs ∧ t.lanes = s.lanes ∧ t.envm = s.envm ∧ BytesKept s t) ∧
  (∀ (s : State) (p : Port) (q : Byte) (l : List Frame), s.portUp (portIx p) = true →
    ackedTo q (s.port (portIx p)).unacked = some l → (s.port (portIx p)).waiting = [] → (s.lane 8).committed = [] →
    ∃ t, exec (.ack p q) s = .next t ∧ t.port (portIx p) = { s.port (portIx p) with unacked := l, timeouts := 0 } ∧
      RegsBut [] s t ∧ t.lanes = s.lanes ∧ t.envm = s.envm ∧ BytesKept s t) ∧
  (∀ (s : State) (p : Port) (q : Byte) (l : List Frame), s.portUp (portIx p) = true →
    ackedTo q (s.port (portIx p)).unacked = some l → (s.port (portIx p)).waiting = [] → (s.lane 8).committed = [] →
    ∃ t, exec (.nak p q) s = .next t ∧ t.port (portIx p) = { s.port (portIx p) with unacked := l, timeouts := 0 } ∧
      t.rf (aCWY_ERR (portIx p)) 31 16 = (s.rf (aCWY_ERR (portIx p)) 31 16 + l.length) % 65536 ∧
      RegsBut [aCWY_ERR (portIx p)] s t ∧ t.lanes = s.lanes ∧ t.envm = s.envm ∧ BytesKept s t)

/-- ENUM on the upstream port of a unit with nothing downstream gives it its address and the nonce. ENUM_ACK at the
head from a unit that has units downstream makes it present, and paired exactly where its frame opens under the
chain key and the nonce. ROSTER gives every other unit the flags and starts of all. ALIGNED notes its sender at
the head; LOST takes the units beyond its sender from the roster; JOIN is noted and asks the random source for a
new nonce, which the head takes once it is there, and ENUM_GO gives it to a unit with nothing downstream. A
time-transfer MARK sent to the next unit opens an exchange, its answer completes it, and a MARK from the parent
is stamped. A fit takes 32 exchanges away, and where 16 or more of them are whole sends TIME to the next unit
with the next COUNT; with fewer it sends nothing. TIME sets the alignment, its rate and its uncertainty; after
ALIGN_EXPIRY it is expired. (18_host_port_and_causeway.md, 08_ranging_and_cabin_position.md.) -/
def Obligations.EnumerationAndTime : Prop :=
  (∀ (s : State) (x : Nat × Frame), s.cwy.taken.find? (fun x => decide (x.2.cls = 0)) = some x → x.2.sub = 1 →
    s.isHead = false → x.1 = 0 → s.portUp 1 = false → (s.lane 8).committed = [] →
    ∃ t, exec .enum s = .next t ∧ t.unit = byteAt x.2.payload 0 % 32 ∧ t.cwy.nh = slice x.2.payload 1 16 ∧
      t.cwy.taken = s.cwy.taken.erase x ∧
      (s.unit = 0 → RegsBut [aCWY_STATUS, aCWY_AUTH, aAES_COUNT] s t ∧ t.lanes = s.lanes) ∧ BytesKept s t) ∧
  (∀ (s : State) (x : Nat × Frame), s.cwy.taken.find? (fun x => decide (x.2.cls = 0)) = some x → x.2.sub = 2 →
    s.isHead = true → 2 ≤ x.2.src → x.2.src ≤ 16 → byteAt x.2.payload 24 ≠ 0 →
    ∃ t, exec .enumAck s = .next t ∧ (t.member x.2.src).present = true ∧
      (t.member x.2.src).paired = (!s.maskStopped 0 && ((s.chainKey (x.2.flags.toNat % 2)).bind fun k => openFrame k x.2 s.cwy.nh).isSome) ∧
      t.rb aCWY_PRESENT (x.2.src - 1) = true ∧
      t.rb aCWY_PRESENT (x.2.src + 15) = (!s.maskStopped 0 && ((s.chainKey (x.2.flags.toNat % 2)).bind fun k => openFrame k x.2 s.cwy.nh).isSome) ∧
      t.cwy.taken = s.cwy.taken.erase x ∧ t.envm = s.envm ∧ BytesKept s t) ∧
  (∀ (s : State) (x : Nat × Frame), s.cwy.taken.find? (fun x => decide (x.2.cls = 0)) = some x → x.2.sub = 3 →
    s.isHead = false →
    ∃ t, exec .roster s = .next t ∧
      (∀ k, 1 ≤ k → k ≤ 16 → (t.member k).present = testBit (byteAt x.2.payload (4 * k - 3)) 0 ∧ (t.member k).paired = testBit (byteAt x.2.payload (4 * k - 3)) 1 ∧ (t.member k).start = ofLE (slice x.2.payload (4 * k - 2) 3)) ∧
      t.cwy.taken = s.cwy.taken.erase x ∧ RegsBut [aCWY_STATUS, aCWY_PRESENT] s t ∧ t.lanes = s.lanes ∧
      t.envm = s.envm ∧ BytesKept s t) ∧
  (∀ (s : State) (x : Nat × Frame), s.cwy.taken.find? (fun x => decide (x.2.cls = 0)) = some x → x.2.sub = 4 →
    s.isHead = true →
    ∃ t, exec .aligned s = .next t ∧ (t.member x.2.src).aligned = true ∧ t.cwy.taken = s.cwy.taken.erase x ∧
      RegsBut [aCWY_STATUS] s t ∧ t.envm = s.envm ∧ BytesKept s t) ∧
  (∀ (s : State) (x : Nat × Frame), s.cwy.taken.find? (fun x => decide (x.2.cls = 0)) = some x → x.2.sub = 5 →
    s.isHead = true →
    ∃ t, exec .lost s = .next t ∧ (∀ k, x.2.src < k → k ≤ 16 → (t.member k).present = false) ∧
      t.cwy.taken = s.cwy.taken.erase x ∧ t.envm = s.envm ∧ BytesKept s t) ∧
  (∀ (s : State) (x : Nat × Frame), s.cwy.taken.find? (fun x => decide (x.2.cls = 0)) = some x → x.2.sub = 6 →
    s.isHead = true → s.servedTo .nonceUp = none → s.rngFailed = false →
    ∃ t, exec .join s = .next t ∧ t.cwy.joins = s.cwy.joins ++ [x.2.src] ∧ t.cwy.walking = true ∧
      t.drawWaits .nonceUp = true ∧ t.cwy.taken = s.cwy.taken.erase x ∧ RegsBut [aCWY_STATUS] s t ∧
      t.lanes = s.lanes ∧ t.envm = s.envm ∧ BytesKept s t) ∧
  (∀ (s : State) (x : Nat × Frame) (d : Bytes), s.cwy.taken.find? (fun x => decide (x.2.cls = 0)) = some x →
    x.2.sub = 6 → s.isHead = true → s.servedTo .nonceUp = some (cOk, d) → s.cwy.joins = [] →
    ∃ t, exec .join s = .next t ∧ t.cwy.nh = slice d 0 16 ∧ t.cwy.joins = [] ∧ t.cwy.walking = true ∧
      t.cwy.taken = s.cwy.taken.erase x ∧ RegsBut [aCWY_STATUS, aCWY_AUTH, aAES_COUNT] s t ∧ t.lanes = s.lanes ∧
      t.envm = s.envm ∧ BytesKept s t) ∧
  (∀ (s : State) (x : Nat × Frame), s.cwy.taken.find? (fun x => decide (x.2.cls = 0)) = some x → x.2.sub = 7 →
    s.unit ≠ 0 → s.portUp 1 = false →
    ∃ t, exec .enumGo s = .next t ∧ t.cwy.nh = slice x.2.payload 0 16 ∧ t.cwy.taken = s.cwy.taken.erase x ∧
      t.regs = s.regs ∧ t.lanes = s.lanes ∧ t.envm = s.envm ∧ BytesKept s t) ∧
  (∀ (s : State) (t1 : Nat), s.resumed = true → s.portUp 1 = true → s.unit ≠ 0 → 6 ∉ s.cfg.held →
    ∃ t, exec (.ttExchange t1) s = .next t ∧
      t.cwy.exchanges = s.cwy.exchanges ++ [⟨t1 % 2 ^ 40, none, none, none, s.cwy.ttDn⟩] ∧
      t.cwy.ttDn = s.cwy.ttDn + 1 ∧ t.regs = s.regs ∧ t.lanes = s.lanes ∧ t.envm = s.envm ∧ BytesKept s t) ∧
  (∀ (s : State) (x sent : Nat), s.resumed = true → s.portUp 1 = true →
    ∃ t, exec (.mark .dn x sent) s = .next t ∧
      t.cwy = { s.cwy with exchanges := putT4 (x % 2 ^ 40) s.cwy.exchanges } ∧ t.regs = s.regs ∧ t.lanes = s.lanes ∧
      t.envm = s.envm ∧ BytesKept s t) ∧
  (∀ (s : State) (x sent : Nat), s.resumed = true → s.portUp 0 = true → s.cwy.stamps.length < 7 →
    ∃ t, exec (.mark .up x sent) s = .next t ∧
      t.cwy = { s.cwy with stamps := s.cwy.stamps ++ [(s.markNo (x % 2 ^ 40), x % 2 ^ 40, sent % 2 ^ 40)], ttUp := some (s.markNo (x % 2 ^ 40), x % 2 ^ 40) } ∧
      t.regs = s.regs ∧ t.lanes = s.lanes ∧ t.envm = s.envm ∧ BytesKept s t) ∧
  (∀ (s : State) (u : Nat) (k : Bytes), s.resumed = true → 1 ≤ s.unit → s.unit ≤ 15 → 32 ≤ s.cwy.exchanges.length →
    16 ≤ ((s.cwy.exchanges.take 32).filterMap (exchOf s.cwy.asym)).length → s.chainKey s.ksel = some k →
    s.startOk = true → s.portUp 1 = true → (s.port 1).waiting = [] → (s.port 1).unacked.length < 8 →
    s.maskStopped 0 = false →
    ∃ t, exec (.ttFit s.unit u) s = .next t ∧ t.cwy.exchanges = s.cwy.exchanges.drop 32 ∧
      t.cwy.count = s.cwy.count + 1 ∧ (t.port 1).unacked.take (s.port 1).unacked.length = (s.port 1).unacked ∧
      ((t.port 1).unacked.drop (s.port 1).unacked.length).map (fun f => (f.dst, f.cls, f.sub)) = [(s.unit + 1, 4, 2)] ∧
      RegsBut [aAES_COUNT] s t ∧ t.lanes = s.lanes ∧ t.envm = s.envm ∧ BytesKept s t) ∧
  (∀ (s : State) (u : Nat), s.resumed = true → 32 ≤ s.cwy.exchanges.length →
    ((s.cwy.exchanges.take 32).filterMap (exchOf s.cwy.asym)).length < 16 →
    ∃ t, exec (.ttFit s.unit u) s = .next t ∧ t.cwy = { s.cwy with exchanges := s.cwy.exchanges.drop 32 } ∧
      t.regs = s.regs ∧ t.lanes = s.lanes ∧ t.envm = s.envm ∧ BytesKept s t) ∧
  (∀ (s : State) (x : Nat × Frame), s.cwy.taken.find? (fun x => decide (x.2.cls = 4)) = some x → x.2.sub = 2 →
    ∃ t, exec .timeUpdate s = .next t ∧
      t.reg aDIST_ALIGN_LO = w32 (unsgn 40 (leI x.2.payload 12 6 - leI x.2.payload 0 6) % 2 ^ 32) ∧
      t.reg aDIST_ALIGN_HI = w32 (unsgn 40 (leI x.2.payload 12 6 - leI x.2.payload 0 6) / 2 ^ 32) ∧
      t.reg aDIST_RATE = w32 (unsgn 32 (leI x.2.payload 18 4 - leI x.2.payload 6 4)) ∧
      t.rf aDIST_ALIGNQ 15 0 = min 65535 (isqrt (le16 x.2.payload 10 * le16 x.2.payload 10 + le16 x.2.payload 22 * le16 x.2.payload 22)) ∧
      t.cwy.alignAt = some s.now ∧ t.cwy.expired = false ∧ t.cwy.taken = s.cwy.taken.erase x ∧
      RegsBut [aDIST_ALIGN_LO, aDIST_ALIGN_HI, aDIST_RATE, aDIST_ALIGNQ, aCWY_AUTH, aAES_COUNT] s t ∧
      t.lanes = s.lanes ∧ t.envm = s.envm ∧ BytesKept s t) ∧
  (∀ (s : State),
    ∃ t, exec .alignExpiry s = .next t ∧ t.cwy = { s.cwy with expired := true } ∧ t.regs = s.regs ∧
      t.lanes = s.lanes ∧ t.envm = s.envm ∧ BytesKept s t)

/-- An application frame at the head of those taken is committed to Q9 with its header word where it has room. With
no command open and no CHAIN replacement, a granted PCMD_KEY of a session key that may be used, PCMD_CLOSE and
PCMD_SWITCH to one unit set CWY_PSTAT to PENDING and wait for that unit's receipt. The last receipt puts its
status into CWY_PSTAT with DONE, and the timeout ABORTED. A KEY frame for the armed landing session, of the
right length, lands where it unwraps, with a notification and the landing disarmed, and changes no session where
it does not; a CLOSE frame is notified with the Causeway interrupt; SWITCH sets CWY_KEYSEL. A granted clear of
PRX takes the oldest notification away. (18_host_port_and_causeway.md.) -/
def Obligations.PeatToPeat : Prop :=
  (∀ (s : State) (x : Nat × Frame), s.cwy.taken.find? (fun x => decide (x.2.cls = 1)) = some x →
    (x.2.payload.length + 3) / 4 + 1 ≤ s.room 9 → s.openCount 9 < 8 →
    ∃ t, exec .dataFrameReceived s = .next t ∧
      ((t.lane 9).committed.getLast?).map packetWords = some (toWords (toLE 4 (x.2.src % 32 + x.2.payload.length * 256) ++ x.2.payload)) ∧
      t.cwy.taken = s.cwy.taken.erase x ∧ RegsBut [] s t ∧ t.envm = s.envm ∧ BytesKept s t) ∧
  (∀ (s : State) (m : Master) (v : Word), Grants s m aCWY_PCMD → s.cwy.receipts = [] → 6 ∉ s.cfg.held →
    fld v 20 16 ≠ 31 → kSes (s.reg aCWY_PKREF) = true → kLen (s.reg aCWY_PKREF) = 3 → kOff (s.reg aCWY_PKREF) = 0 →
    s.keyCheck 126 (s.reg aCWY_PKREF) 0 = cOk → s.chainKey s.ksel ≠ none → s.maskStopped 0 = false →
    ∃ t, exec (.pcmdKey m v) s = .next t ∧ t.cwy.receipts = [fld v 20 16] ∧
      t.reg aCWY_PSTAT = w32 (cPending.toNat * 2 ^ 24) ∧ t.reg aCWY_PCMD = setFld v 31 28 9 &&& 0x781FFFFF ∧
      RegsBut [aCWY_PCMD, aCWY_PSTAT, aCWY_AUTH, aAES_COUNT] s t ∧ t.lanes = s.lanes ∧ t.envm = s.envm ∧
      BytesKept s t) ∧
  (∀ (s : State) (m : Master) (v : Word), Grants s m aCWY_PCMD → s.cwy.receipts = [] → 6 ∉ s.cfg.held →
    fld v 20 16 ≠ 31 →
    ∃ t, exec (.pcmdClose m v) s = .next t ∧ t.cwy.receipts = [fld v 20 16] ∧
      t.reg aCWY_PSTAT = w32 (cPending.toNat * 2 ^ 24) ∧ t.reg aCWY_PCMD = setFld v 31 28 10 &&& 0x781FFFFF ∧
      RegsBut [aCWY_PCMD, aCWY_PSTAT, aCWY_AUTH, aAES_COUNT] s t ∧ t.lanes = s.lanes ∧ t.envm = s.envm ∧
      BytesKept s t) ∧
  (∀ (s : State) (m : Master) (v : Word), Grants s m aCWY_PCMD → s.cwy.receipts = [] → 6 ∉ s.cfg.held →
    fld v 20 16 ≠ 31 →
    ∃ t, exec (.pcmdSwitch m v) s = .next t ∧ t.cwy.receipts = [fld v 20 16] ∧
      t.reg aCWY_PSTAT = w32 (cPending.toNat * 2 ^ 24) ∧ t.reg aCWY_PCMD = setFld v 31 28 11 &&& 0x781FFFFF ∧
      RegsBut [aCWY_PCMD, aCWY_PSTAT, aCWY_AUTH, aAES_COUNT] s t ∧ t.lanes = s.lanes ∧ t.envm = s.envm ∧
      BytesKept s t) ∧
  (∀ (s : State) (x : Nat × Frame), s.cwy.taken.find? (fun x => decide (x.2.cls = 2)) = some x → x.2.sub = 4 →
    s.cwy.receipts = [x.2.src] → s.cwy.pstatus = cOk → s.rf aCWY_PCMD 30 28 ≠ 3 →
    ∃ t, exec .receipt s = .next t ∧ t.cwy.receipts = [] ∧
      t.reg aCWY_PSTAT = w32 (byteAt x.2.payload 1 * 2 ^ 24 + 1) ∧ t.cwy.taken = s.cwy.taken.erase x ∧
      RegsBut [aCWY_PSTAT] s t ∧ t.lanes = s.lanes ∧ t.envm = s.envm ∧ BytesKept s t) ∧
  (∀ (s : State), s.cwy.receipts ≠ [] →
    ∃ t, exec .receiptTimeout s = .next t ∧ t.cwy.receipts = [] ∧
      t.reg aCWY_PSTAT = w32 (cAborted.toNat * 2 ^ 24 + 1) ∧ RegsBut [aCWY_PSTAT] s t ∧ t.lanes = s.lanes ∧
      t.envm = s.envm ∧ BytesKept s t) ∧
  (∀ (s : State) (x : Nat × Frame), s.cwy.taken.find? (fun x => decide (x.2.cls = 2)) = some x → x.2.sub = 1 →
    s.cwy.notifs.length < 4 → s.rb aCWY_PLAND 31 = true → (s.ses (s.rf aCWY_PLAND 7 0)).st = .ready →
    (s.ses (s.rf aCWY_PLAND 7 0)).suite = 3 → x.2.payload.length = 59 → s.maskStopped 0 = false →
    ∃ t, exec .keyFrameReceived s = .next t ∧
      (∀ k, ((s.chainKey (x.2.flags.toNat % 2)).bind fun k => kwUnwrap k (x.2.payload.drop 3)) = some k → t.rb aCWY_PLAND 31 = false ∧ t.cwy.notifs.length = s.cwy.notifs.length + 1 ∧ .causeway ∈ t.irqs ∧ (byteAt x.2.payload 0 % 2 = 0 → (t.ses (s.rf aCWY_PLAND 7 0)).vSeed = slice k 16 12)) ∧
      (((s.chainKey (x.2.flags.toNat % 2)).bind fun k => kwUnwrap k (x.2.payload.drop 3)) = none → t.rb aCWY_PLAND 31 = true ∧ t.cwy.notifs = s.cwy.notifs ∧ t.sess = s.sess) ∧
      t.cwy.taken = s.cwy.taken.erase x ∧ RegsBut [aCWY_PLAND, aCWY_AUTH, aAES_COUNT] s t ∧ t.lanes = s.lanes ∧
      t.envm = s.envm ∧ BytesKept s t) ∧
  (∀ (s : State) (x : Nat × Frame), s.cwy.taken.find? (fun x => decide (x.2.cls = 2)) = some x → x.2.sub = 2 →
    s.cwy.notifs.length < 4 →
    ∃ t, exec .closeFrameReceived s = .next t ∧
      t.cwy.notifs = s.cwy.notifs ++ [w32 (2 ^ 31 + 2 * 2 ^ 28 + x.2.src % 32 * 2 ^ 16 + byteAt x.2.payload 0 * 2 ^ 8 + byteAt x.2.payload 1)] ∧
      .causeway ∈ t.irqs ∧ t.cwy.taken = s.cwy.taken.erase x ∧ RegsBut [aCWY_AUTH, aAES_COUNT] s t ∧
      t.lanes = s.lanes ∧ t.envm = s.envm ∧ BytesKept s t) ∧
  (∀ (s : State) (x : Nat × Frame), s.cwy.taken.find? (fun x => decide (x.2.cls = 2)) = some x → x.2.sub = 3 →
    ∃ t, exec .switchReceived s = .next t ∧ t.ksel = byteAt x.2.payload 0 % 2 ∧ t.cwy.taken = s.cwy.taken.erase x ∧
      RegsBut [aCWY_KEYSEL, aCWY_AUTH, aAES_COUNT] s t ∧ t.lanes = s.lanes ∧ t.envm = s.envm ∧ BytesKept s t) ∧
  (∀ (s : State) (m : Master) (w : Word) (l : List Word), Grants s m aCWY_PRX → s.cwy.notifs = w :: l →
    fld w 30 28 = 1 →
    ∃ t, exec (.prxNewClear m) s = .next t ∧ t.cwy.notifs = l ∧ RegsBut [] s t ∧ t.lanes = s.lanes ∧
      t.envm = s.envm ∧ BytesKept s t)

/-- Sensors that trip in one cycle in the resumed state, some of them not within 1 us of their last alarm, with no
work open: one alarm, whose source n is the lowest of these. With STORM_N 0, it sets bit n - 1 of FLT_STATUS,
puts source, detail and number into FLT_LAST0, SYSTIME into FLT_LAST1 and the source into FLT_AON, raises the
alarm event, and stops a waveform; where the alarms of the last second reach STORM_N, a start begins that keeps
the eNVM and the flash, with STORM and its count in FLT_AON. A trip outside the resumed state with the supplies
up, but of the clock window, counts in FLT_AON OFFLINE, which stays at 255, writes the lowest source there and
is kept for the resume. A double-bit error of Sedge SRAM counts in FLT_ECC and raises the load fault in the core
that read it; one of the status map's table makes the word of the entry that it met zero; one met by software at
the first item of a committed packet makes the packet vanish, which DROPS counts; one of a static key slot
empties it and is an alarm of source 7. A single-bit error counts in FLT_ECC and changes nothing else.
(19_faults_alarms_and_ordering.md.) -/
def Obligations.AlarmsAndMemoryErrors : Prop :=
  (∀ (s : State) (sources detail n : Nat) (l : List Nat), s.resumed = true → s.freshTrips sources = n :: l →
    s.rf aFLT_CFG 7 0 = 0 → s.eng.aes = none → s.eng.bn = none → s.eng.bnSusp = none → s.eng.hsh = none →
    s.lf.cur = none → s.nfc.cur = none → s.uwb.cur = none → s.dist.cur = [] → s.peat.serving = none →
    ∃ t, exec (.alarm sources detail) s = .next t ∧ t.rb aFLT_STATUS (n - 1) = true ∧
      t.reg aFLT_LAST0 = w32 (n * 2 ^ 28 + detail % 256 * 2 ^ 16 + (s.rf aFLT_LAST0 15 0 + 1) % 65536) ∧
      t.reg aFLT_LAST1 = s.sysLo ∧ t.rf aFLT_AON 31 28 = n ∧ .alarm ∈ t.irqs ∧ t.rel.wave = false ∧
      t.resumed = true ∧ RegsBut [aFLT_STATUS, aFLT_LAST0, aFLT_LAST1, aFLT_AON, aTRNG_STATUS] s t ∧ BytesKept s t) ∧
  (∀ (s : State) (sources detail n : Nat) (l : List Nat), s.resumed = true → s.freshTrips sources = n :: l →
    s.rf aFLT_CFG 7 0 ≠ 0 →
    s.rf aFLT_CFG 7 0 ≤ (s.flt.times.filter fun x => decide (s.sys < x + secs 1)).length + 1 → s.eng.aes = none →
    s.eng.bn = none → s.eng.bnSusp = none → s.eng.hsh = none → s.lf.cur = none → s.nfc.cur = none →
    s.uwb.cur = none → s.dist.cur = [] → s.peat.serving = none →
    ∃ t, exec (.alarm sources detail) s = .next t ∧ t.power.mode = .starting ∧ t.rb aFLT_AON 0 = true ∧
      t.rf aFLT_AON 31 28 = n ∧ t.rf aFLT_AON 23 16 = min 255 (s.rf aFLT_AON 23 16 + 1) ∧ t.envm = s.envm ∧
      t.flash = s.flash) ∧
  (∀ (s : State) (sources detail n : Nat) (l : List Nat), s.resumed = false → s.rails = true →
    (s.freshTrips sources).filter (fun x => decide (x ≠ 3)) = n :: l →
    ∃ t, exec (.offlineAlarm sources detail) s = .next t ∧ t.rf aFLT_AON 15 8 = min 255 (s.rf aFLT_AON 15 8 + 1) ∧
      t.rf aFLT_AON 31 28 = n ∧ t.flt.offline = some (n, detail) ∧ t.irqs = s.irqs ∧ RegsBut [aFLT_AON] s t ∧
      BytesKept s t) ∧
  (∀ (s : State) (place : Nat) (reader : Master), s.resumed = true → reader ≠ .mover →
    ∃ t, exec (.memoryDoubleBitError 1 place reader) s = .next t ∧
      t.rf (aFLT_ECC 1) 31 16 = (s.rf (aFLT_ECC 1) 31 16 + 1) % 65536 ∧ (reader = .sedge → .sedgeFault ∈ t.irqs) ∧
      (reader = .peat → .peatFault ∈ t.irqs) ∧ RegsBut [aFLT_ECC 1] s t ∧ t.lanes = s.lanes ∧ BytesKept s t) ∧
  (∀ (s : State) (place : Nat) (reader : Master), s.resumed = true →
    ∃ t, exec (.memoryDoubleBitError 2 place reader) s = .next t ∧
      t.rf (aFLT_ECC 2) 31 16 = (s.rf (aFLT_ECC 2) 31 16 + 1) % 65536 ∧
      t.memRead (0x30000000 + 16 * (place % 0x4000)) 4 = zeros 4 ∧ RegsBut [aFLT_ECC 2] s t ∧ t.flash = s.flash) ∧
  (∀ (s : State) (n : Nat) (p : Packet) (l : List Packet), s.resumed = true → n < 10 → (s.lane n).half = none →
    (s.lane n).committed = p :: l → p.items ≠ [] →
    ∃ t, exec (.memoryDoubleBitError 4 (n * 65536) .sedge) s = .next t ∧ (t.lane n).committed = l ∧
      t.rf (aQUE_DROP n) 31 16 = (s.rf (aQUE_DROP n) 31 16 + 1) % 65536 ∧
      t.rf (aQUE_DROP n) 15 0 = (s.rf (aQUE_DROP n) 15 0 + 1) % 65536 ∧
      t.rf (aFLT_ECC 4) 31 16 = (s.rf (aFLT_ECC 4) 31 16 + 1) % 65536 ∧ RegsBut [aFLT_ECC 4, aQUE_DROP n] s t ∧
      BytesKept s t) ∧
  (∀ (s : State) (k n detail : Nat) (reader : Master), s.resumed = true → k < 64 → s.sameAlarm 7 = false → n = 7 →
    detail = 5 → s.rf aFLT_CFG 7 0 = 0 → s.eng.aes = none → s.eng.bn = none → s.eng.bnSusp = none →
    s.eng.hsh = none → s.lf.cur = none → s.nfc.cur = none → s.uwb.cur = none → s.dist.cur = [] →
    s.peat.serving = none →
    ∃ t, exec (.memoryDoubleBitError 5 k reader) s = .next t ∧ t.key k = none ∧ t.rb aFLT_STATUS (n - 1) = true ∧
      t.reg aFLT_LAST0 = w32 (n * 2 ^ 28 + detail % 256 * 2 ^ 16 + (s.rf aFLT_LAST0 15 0 + 1) % 65536) ∧
      t.reg aFLT_LAST1 = s.sysLo ∧ t.rf aFLT_AON 31 28 = n ∧ .alarm ∈ t.irqs ∧ t.rel.wave = false ∧
      t.rf (aFLT_ECC 5) 31 16 = (s.rf (aFLT_ECC 5) 31 16 + 1) % 65536 ∧
      RegsBut [aFLT_STATUS, aFLT_LAST0, aFLT_LAST1, aFLT_AON, aTRNG_STATUS, aFLT_ECC 5] s t ∧ BytesKept s t) ∧
  (∀ (s : State) (mem : Nat), s.resumed = true → mem ≤ 5 →
    ∃ t, exec (.singleBitError mem) s = .next t ∧
      t.rf (aFLT_ECC mem) 15 0 = (s.rf (aFLT_ECC mem) 15 0 + 1) % 65536 ∧
      t.rf (aFLT_ECC mem) 31 16 = s.rf (aFLT_ECC mem) 31 16 ∧ RegsBut [aFLT_ECC mem] s t ∧ t.irqs = s.irqs ∧
      t.lanes = s.lanes ∧ BytesKept s t)

/-- A snapshot in the resumed state with a period, without clearing, of counters that no master wrote in that cycle,
and with room in Q13, commits one packet that holds the header, the mask, SYSTIME and the counters, and counts
in PRF_GSTAT. The end of a window of an enabled monitor moves its counts into PRF_PMACC and PRF_PMBYTES, zeroes
the counts and counts the window. A granted write of PRF_SEL sets the code, clears OVF where it is written 1,
and zeroes the counter. A temperature reading stores the temperature, sets the duty to 0 and the over-
temperature flag from 125.0 degrees, takes 1 from it above 121.0 degrees down to 0, adds 1 below 120.0 degrees
up to 16, and leaves it between. (20_performance_counters.md, 21_electrical_and_package.md.) -/
def Obligations.SnapshotsMonitorsAndGovernor : Prop :=
  (∀ (s : State), s.resumed = true → s.rf aPRF_GCTL 15 0 ≠ 0 → s.rb aPRF_GCTL 16 = false → s.dumpWrote = none →
    s.snapWords.length ≤ s.room 13 → s.openCount 13 < 8 →
    ∃ t, exec .snapshot s = .next t ∧ ((t.lane 13).committed.getLast?).map packetWords = some s.snapWords ∧
      (t.lane 13).committed.length = (s.lane 13).committed.length + 1 ∧ (∀ a, ¬ Counted a → t.reg a = s.reg a) ∧
      BytesKept s t) ∧
  (∀ (s : State) (n : Nat), s.resumed = true → n < 6 → s.rb (aPRF_PMCFG n) 31 = true →
    s.rf (aPRF_PMWIN n) 15 0 ≠ 0 →
    ∃ t, exec (.monitorWindowEnd n) s = .next t ∧ t.reg (aPRF_PMACC n) = tget s.prfAcc n 0 ∧
      t.reg (aPRF_PMBYTES n) = tget s.prfAcc (16 + n) 0 ∧ tget t.prfAcc n 0 = 0 ∧ tget t.prfAcc (16 + n) 0 = 0 ∧
      t.rf (aPRF_PMWIN n) 31 16 = (s.rf (aPRF_PMWIN n) 31 16 + 1) % 65536 ∧ RegsBut [] s t ∧ t.lanes = s.lanes ∧
      BytesKept s t) ∧
  (∀ (s : State) (m : Master) (b k : Nat) (v : Word), b < 25 → k < 4 → Grants s m (aPRF_SEL b k) →
    ∃ t, exec (.selWrite m b k v) s = .next t ∧ t.rf (aPRF_SEL b k) 7 0 = fld v 7 0 ∧
      t.rb (aPRF_SEL b k) 8 = (s.rb (aPRF_SEL b k) 8 && !bit v 8) ∧ t.reg (aPRF_CNT b k) = 0 ∧ RegsBut [] s t ∧
      t.lanes = s.lanes ∧ BytesKept s t) ∧
  (∀ (s : State) (tj : Int), s.rails = true →
    ∃ t, exec (.governorReading tj) s = .next t ∧ t.rf aPWR_THERM 31 16 = unsgn 16 tj ∧
      t.rf aPWR_THERM 4 0 = (if 2000 ≤ tj then 0 else if 1936 < tj then s.rf aPWR_THERM 4 0 - 1 else if tj < 1920 then min 16 (s.rf aPWR_THERM 4 0 + 1) else s.rf aPWR_THERM 4 0) ∧
      t.rb aPWR_THERM 8 = (decide (2000 ≤ tj) || s.rb aPWR_THERM 8) ∧ RegsBut [aPWR_THERM] s t ∧ t.lanes = s.lanes ∧
      BytesKept s t)

/-- UWB_TX, UWB_RX, UWB_SLEEP, UWB_STANDBY, UWB_SYNTH, UWB_CAL and UWB_TUNE, at the head of the channel that the
sequencer chooses, whole, with no reason for a refusal and room among the scheduled operations, leave the
channel's input queue and are accepted behind the others, with the profile, the time and the payload that the
command gives; no register but the counters of PRF_ changes. (07_uwb_radio_control.md.) -/
def Obligations.UwbCommandsAccepted : Prop :=
  (∀ (s : State) (o : UwbOp) (p : Packet), UwbTakes s o p → uwbCmd o = 1 →
    ∃ t, exec (.uwbTx o.chan) s = .next t ∧ t.uwb.ops = s.uwb.ops ++ [o] ∧ t.uwb.nextId = s.uwb.nextId + 1 ∧
      (t.lane (s.rf (aCHN_QUEUES o.chan) 3 0)).committed = (s.lane (s.rf (aCHN_QUEUES o.chan) 3 0)).committed.erase p ∧
      RegsBut [] s t ∧ t.envm = s.envm ∧ BytesKept s t) ∧
  (∀ (s : State) (o : UwbOp) (p : Packet), UwbTakes s o p → uwbCmd o = 2 →
    ∃ t, exec (.uwbRx o.chan) s = .next t ∧ t.uwb.ops = s.uwb.ops ++ [o] ∧ t.uwb.nextId = s.uwb.nextId + 1 ∧
      (t.lane (s.rf (aCHN_QUEUES o.chan) 3 0)).committed = (s.lane (s.rf (aCHN_QUEUES o.chan) 3 0)).committed.erase p ∧
      RegsBut [] s t ∧ t.envm = s.envm ∧ BytesKept s t) ∧
  (∀ (s : State) (o : UwbOp) (p : Packet), UwbTakes s o p → uwbCmd o = 3 →
    ∃ t, exec (.uwbSleep o.chan) s = .next t ∧ t.uwb.ops = s.uwb.ops ++ [o] ∧ t.uwb.nextId = s.uwb.nextId + 1 ∧
      (t.lane (s.rf (aCHN_QUEUES o.chan) 3 0)).committed = (s.lane (s.rf (aCHN_QUEUES o.chan) 3 0)).committed.erase p ∧
      RegsBut [] s t ∧ t.envm = s.envm ∧ BytesKept s t) ∧
  (∀ (s : State) (o : UwbOp) (p : Packet), UwbTakes s o p → uwbCmd o = 4 →
    ∃ t, exec (.uwbStandby o.chan) s = .next t ∧ t.uwb.ops = s.uwb.ops ++ [o] ∧ t.uwb.nextId = s.uwb.nextId + 1 ∧
      (t.lane (s.rf (aCHN_QUEUES o.chan) 3 0)).committed = (s.lane (s.rf (aCHN_QUEUES o.chan) 3 0)).committed.erase p ∧
      RegsBut [] s t ∧ t.envm = s.envm ∧ BytesKept s t) ∧
  (∀ (s : State) (o : UwbOp) (p : Packet), UwbTakes s o p → uwbCmd o = 5 →
    ∃ t, exec (.uwbSynth o.chan) s = .next t ∧ t.uwb.ops = s.uwb.ops ++ [o] ∧ t.uwb.nextId = s.uwb.nextId + 1 ∧
      (t.lane (s.rf (aCHN_QUEUES o.chan) 3 0)).committed = (s.lane (s.rf (aCHN_QUEUES o.chan) 3 0)).committed.erase p ∧
      RegsBut [] s t ∧ t.envm = s.envm ∧ BytesKept s t) ∧
  (∀ (s : State) (o : UwbOp) (p : Packet), UwbTakes s o p → uwbCmd o = 6 →
    ∃ t, exec (.uwbCal o.chan) s = .next t ∧ t.uwb.ops = s.uwb.ops ++ [o] ∧ t.uwb.nextId = s.uwb.nextId + 1 ∧
      (t.lane (s.rf (aCHN_QUEUES o.chan) 3 0)).committed = (s.lane (s.rf (aCHN_QUEUES o.chan) 3 0)).committed.erase p ∧
      RegsBut [] s t ∧ t.envm = s.envm ∧ BytesKept s t) ∧
  (∀ (s : State) (o : UwbOp) (p : Packet), UwbTakes s o p → uwbCmd o = 7 →
    ∃ t, exec (.uwbTune o.chan) s = .next t ∧ t.uwb.ops = s.uwb.ops ++ [o] ∧ t.uwb.nextId = s.uwb.nextId + 1 ∧
      (t.lane (s.rf (aCHN_QUEUES o.chan) 3 0)).committed = (s.lane (s.rf (aCHN_QUEUES o.chan) 3 0)).committed.erase p ∧
      RegsBut [] s t ∧ t.envm = s.envm ∧ BytesKept s t)

/-- A SYNTH command that is the next to walk, from STANDBY with no lock, takes the radio to LOCKING on its profile's
channel, with calibration where one is due; the end of LOCKING locks it there in SYNTH, and a calibrated lock
writes UWB_SYNCAL. At its arm point an operation that stands ready in SYNTH on its channel with its session
opens its window, or is sent where the duty is full and no port is cut off. The end of a transmit, a sound frame
and a window that closes without one deliver the results of R206. Losing the lock sets LOCK_LOST, clears the
calibration's VALID and leaves STANDBY or SLEEP; HOLD and SLEEP_AFTER take the resting radio on; a retune that
is due sets the port's code; the conditions sampled stand in UWB_CONDS; a waiting transmit is sent when its
budget is refilled; a granted write of UWB_LIVE drops the live records. (07_uwb_radio_control.md.) -/
def Obligations.UwbOperations : Prop :=
  (∀ (s : State) (o : UwbOp) (temp : Int) (vdd : Nat), s.resumed = true → UwbRests s → s.radio = 2 →
    s.rb aUWB_STATE 5 = false → s.nextWalk temp vdd = some o → uwbCmd o = 5 → uwbRanging o = false → o.cal = none →
    ∃ t, exec (.uwbWalkStart temp vdd) s = .next t ∧ t.uwb.cur = some o.id ∧
      t.uwb.walk = some (profCh9 o.profile, s.synDue (profCh9 o.profile) temp vdd) ∧ t.radio = 3 ∧
      RegsBut [aUWB_STATE, aUWB_FLAGS, aUWB_CONDS] s t ∧ t.lanes = s.lanes ∧ BytesKept s t) ∧
  (∀ (s : State) (w : Bool × Bool) (temp : Int) (vdd : Nat) (meas : List Nat), s.radio = 3 → s.uwb.cur = none →
    s.uwb.orphan = none → s.uwb.walk = some w → s.rf aUWB_IDLECFG 15 0 ≠ 0 →
    ∃ t, exec (.uwbTransitionDone temp vdd meas) s = .next t ∧ t.radio = 4 ∧ t.rb aUWB_STATE 5 = true ∧
      t.rb aUWB_STATE 6 = w.1 ∧ t.uwb.walk = none ∧
      (if w.2 = true then t.reg (aUWB_SYNCAL (b2n w.1)) = w32 (2 ^ 31 + unsgn 8 (clampI (-128) 127 temp) * 2 ^ 16 + vdd % 65536) else t.reg (aUWB_SYNCAL (b2n w.1)) = s.reg (aUWB_SYNCAL (b2n w.1))) ∧
      RegsBut [aUWB_STATE, aUWB_SYNCAL (b2n w.1)] s t ∧ t.lanes = s.lanes ∧ BytesKept s t) ∧
  (∀ (s : State) (o : UwbOp) (rl : Nat), s.armed = some o → s.uwb.cur = some o.id → s.radio = 4 →
    s.lockedOn (profCh9 o.profile) = true → s.opSession o = true → uwbCmd o = 2 →
    ∃ t, exec (.uwbArmPoint rl) s = .next t ∧ t.radio = 5 ∧ t.uwb.cur = s.uwb.cur ∧ RegsBut [aUWB_STATE] s t ∧
      t.lanes = s.lanes ∧ BytesKept s t) ∧
  (∀ (s : State) (o : UwbOp) (rl : Nat), s.armed = some o → s.uwb.cur = some o.id → s.radio = 4 →
    s.lockedOn (profCh9 o.profile) = true → s.opSession o = true → uwbCmd o = 1 → s.duty = 16 →
    5 * byteAt s.rng 3 ≤ rl →
    ∃ t, exec (.uwbArmPoint rl) s = .next t ∧ t.radio = 6 ∧ t.uwb.cur = s.uwb.cur ∧
      t.rf (aUWB_PORT (profPort o.profile)) 23 16 = min 255 rl ∧ t.lanes = s.lanes ∧ BytesKept s t) ∧
  (∀ (s : State) (o : UwbOp) (ts : Nat), UwbRuns s o → s.radio = 6 → RoomFor s o.chan 3 →
    ∃ t, exec (.uwbTxDone ts) s = .next t ∧ t.radio = 4 ∧ t.uwb.cur = none ∧ t.uwb.ops = [] ∧
      Delivers s t o.chan (uwbWords o cOk false 0 (if uwbSched o then o.time else ts % 2 ^ 40)) ∧ BytesKept s t) ∧
  (∀ (s : State) (o : UwbOp) (ts : Nat) (b : Bytes), UwbRuns s o → s.radio = 5 → b.length ≤ 125 →
    RoomFor s o.chan (3 + (b.length + 3) / 4) →
    ∃ t, exec (.uwbFrameReceived ts b true) s = .next t ∧ t.radio = 4 ∧ t.uwb.cur = none ∧ t.uwb.ops = [] ∧
      Delivers s t o.chan (toWords (ofWords (uwbWords o cOk true b.length (ts % 2 ^ 40)) ++ b)) ∧ BytesKept s t) ∧
  (∀ (s : State) (o : UwbOp), UwbRuns s o → s.radio = 5 → uwbCmd o = 2 → o.heard = false → RoomFor s o.chan 3 →
    ∃ t, exec (.uwbWindowClose false) s = .next t ∧ t.radio = 4 ∧ t.uwb.cur = none ∧ t.uwb.ops = [] ∧
      Delivers s t o.chan (uwbWords o cOk false 0 s.tsNow) ∧ BytesKept s t) ∧
  (∀ (s : State), 4 ≤ s.radio → s.rb aUWB_STATE 5 = true → UwbRests s →
    ∃ t, exec .lockLost s = .next t ∧ t.radio = (if s.rf aUWB_IDLECFG 31 16 = 0 then 0 else 2) ∧
      t.rb aUWB_STATE 5 = false ∧ t.rb aUWB_FLAGS 4 = true ∧
      t.rb (aUWB_SYNCAL (b2n (s.rb aUWB_STATE 6))) 31 = false ∧ t.uwb = s.uwb ∧ t.lanes = s.lanes ∧ BytesKept s t) ∧
  (∀ (s : State), s.radio = 4 → UwbRests s →
    ∃ t, exec .holdExpiry s = .next t ∧ t.radio = (if s.rf aUWB_IDLECFG 31 16 = 0 then 0 else 2) ∧
      t.rb aUWB_STATE 5 = false ∧ RegsBut [aUWB_STATE, aUWB_FLAGS] s t ∧ t.uwb = s.uwb ∧ t.lanes = s.lanes ∧
      BytesKept s t) ∧
  (∀ (s : State), s.radio = 2 → UwbRests s →
    ∃ t, exec .sleepAfterExpiry s = .next t ∧ t.radio = 0 ∧ RegsBut [aUWB_STATE, aUWB_FLAGS] s t ∧ t.uwb = s.uwb ∧
      t.lanes = s.lanes ∧ BytesKept s t) ∧
  (∀ (s : State) (port : Nat) (temp : Int) (vdd : Nat) (meas : List Nat), s.radio = 4 → UwbRests s →
    s.gapFits 37 temp vdd = true → testBit s.uwb.retune port = true → port < 4 → testBit s.faultPorts port = false →
    ∃ t, exec (.backgroundRecal 3 port temp vdd meas) s = .next t ∧ t.rf (aUWB_PORT port) 4 0 = uwbSearch 5 0 meas ∧
      testBit t.uwb.retune port = false ∧ RegsBut [aUWB_PORT port] s t ∧ t.lanes = s.lanes ∧ BytesKept s t) ∧
  (∀ (s : State) (m : Master), Grants s m aUWB_LIVE →
    ∃ t, exec (.liveClear m) s = .next t ∧ t.uwb = { s.uwb with live := [] } ∧ RegsBut [] s t ∧ t.lanes = s.lanes ∧
      BytesKept s t) ∧
  (∀ (s : State) (temp : Int) (vdd : Nat), s.resumed = true → s.radio ≠ 0 → -128 ≤ temp → temp ≤ 127 → vdd < 65536 →
    ∃ t, exec (.uwbCondsSample temp vdd) s = .next t ∧ fld (t.reg aUWB_CONDS) 31 16 = vdd ∧
      sgn 8 (fld (t.reg aUWB_CONDS) 7 0) = temp ∧ RegsBut [aUWB_CONDS, aUWB_FLAGS] s t ∧ t.lanes = s.lanes ∧
      BytesKept s t) ∧
  (∀ (s : State) (o : UwbOp) (rl : Nat), s.uwbCur = some o → s.rb aUWB_FLAGS 7 = true → 5 * byteAt s.rng 3 ≤ rl →
    ∃ t, exec (.txBudgetRefill rl) s = .next t ∧ t.radio = 6 ∧ t.rb aUWB_FLAGS 7 = false ∧ t.uwb.cur = s.uwb.cur ∧
      t.rf (aUWB_PORT (profPort o.profile)) 23 16 = min 255 rl ∧ t.lanes = s.lanes ∧ BytesKept s t)

/-- On the head unit with ROUND_EN set and the UWB and ranging sections present, the start of a round plans one slot
for each entry of DIST_SLOTn, one slot length ahead, and takes the RN of each session that has one. Elsewhere a
sound plan that comes in time replaces the one before it, and a plan that is missing at its deadline counts the
unit's own slots as skipped. The placement of the unit's own slot with a key and room places POLL, RESP, FINAL
and REPORT at 100, 380, 700 and 980 µs of it. A placement due for a fused round that waits takes it up, and the
start of one plans a slot for each of its units; the start of one that is taken up already keeps the conversion
to chain time held then. A granted write of DIST_MAP with SET or CLR sets or clears the landing session of the
head session it names, and one of DIST_FUSE on the head, of a session with a fused key and numbers left, queues
a fused round. (08_ranging_and_cabin_position.md.) -/
def Obligations.RangingRounds : Prop :=
  (∀ (s : State), s.resumed = true → s.isHead = true → s.rb aDIST_CTL 0 = true → s.feOn 5 = true → 5 ∉ s.cfg.held →
    ∃ t, exec .roundStart s = .next t ∧ t.dist.roundStart = (s.tsNow + slotSteps) % 2 ^ 40 ∧
      t.dist.nslots = s.slotRegs.length ∧
      t.dist.roundEnd = (t.dist.roundStart + s.slotRegs.length * slotSteps) % 2 ^ 40 ∧
      (∀ k, k ∈ s.slotRegs.map (·.1) → (t.ses k).rn = min ((s.ses k).rn + 1) (2 ^ 24)) ∧ BytesKept s t ∧
      t.envm = s.envm) ∧
  (∀ (s : State) (x : Nat × Frame), s.cwy.taken.find? (fun x => decide (x.2.cls = 3)) = some x → x.2.sub = 1 →
    s.isHead = false → s.inTime (planSlots x.2.payload) = true → byteAt x.2.payload 0 ≠ 1 →
    ∃ t, exec .plan s = .next t ∧ t.dist.planIn = true ∧ t.dist.roundStart = ofLE (slice x.2.payload 1 5) ∧
      t.dist.nslots = byteAt x.2.payload 6 ∧ t.cwy.taken = s.cwy.taken.erase x ∧ BytesKept s t ∧ t.envm = s.envm) ∧
  (∀ (s : State), s.isHead = false → s.resumed = true → s.dist.planIn = true →
    ∃ t, exec .planDeadline s = .next t ∧ t.dist = { s.dist with planIn := false } ∧ RegsBut [] s t ∧
      t.lanes = s.lanes ∧ BytesKept s t ∧ t.envm = s.envm) ∧
  (∀ (s : State), s.isHead = false → s.resumed = true → s.dist.planIn = false →
    ∃ t, exec .planDeadline s = .next t ∧
      t.rf aDIST_SKIP 15 0 = min 65535 (s.rf aDIST_SKIP 15 0 + (s.slotRegs.filter fun x => decide (x.2 = s.rngUnit)).length) ∧
      t.dist = s.dist ∧ RegsBut [aDIST_SKIP] s t ∧ t.lanes = s.lanes ∧ BytesKept s t ∧ t.envm = s.envm) ∧
  (∀ (s : State) (x : PlanSlot), s.resumed = true → s.dist.cur.length < 2 → s.fusedNext = false →
    s.firstSlot s.dist.plan = some x → x.unit = s.rngUnit → (s.slotSes x).isSome = true → s.uwbPending ≤ 60 →
    ∃ t, exec .slotPlacement s = .next t ∧ t.dist.plan = s.dist.plan.erase x ∧
      t.dist.cur = s.dist.cur ++ [slotNil x] ∧ t.eng.stsBusy = true ∧ t.uwb.ops.take s.uwb.ops.length = s.uwb.ops ∧
      ((t.uwb.ops.drop s.uwb.ops.length).map fun o => (o.chan, o.ref)) = [128, 129, 130, 131].map (fun f => (f, x.start)) ∧
      ((t.uwb.ops.drop s.uwb.ops.length).map fun o => o.time) = [100, 380, 700, 980].map (fun us => (s.slotStart x + tsUs us) % 2 ^ 40) ∧
      RegsBut [] s t ∧ t.lanes = s.lanes ∧ BytesKept s t ∧ t.envm = s.envm) ∧
  (∀ (s : State) (p : FusedPlan) (l : List FusedPlan), s.dist.fuseReqs = p :: l → s.resumed = true →
    s.dist.cur.length < 2 → s.fusedNext = true →
    ∃ t, exec .slotPlacement s = .next t ∧ t.dist.fuseReqs = l ∧
      t.dist.fused = s.dist.fused ++ [⟨p, [], [], 0, 1, [], false, s.alignNow, false⟩] ∧ RegsBut [] s t ∧
      t.lanes = s.lanes ∧ BytesKept s t ∧ t.envm = s.envm) ∧
  (∀ (s : State) (p : FusedPlan) (l : List FusedPlan), s.dist.fuseReqs = p :: l → s.resumed = true →
    s.dist.fused.all FusedRun.begun = true →
    ∃ t, exec .fusedRoundStart s = .next t ∧ t.dist.fuseReqs = l ∧ t.dist.plan = fusedSlots p ++ s.dist.plan ∧
      t.dist.fused = s.dist.fused ++ [⟨p, [], [], 0, 1, [], false, s.alignNow, true⟩] ∧ RegsBut [] s t ∧
      t.lanes = s.lanes ∧ BytesKept s t ∧ t.envm = s.envm) ∧
  (∀ (s : State) (f : FusedRun), s.dist.fused = [f] → f.begun = false → s.resumed = true →
    ∃ t, exec .fusedRoundStart s = .next t ∧
      t.dist = { s.dist with fused := [{ f with begun := true, align := s.alignNow }] } ∧ RegsBut [] s t ∧
      t.lanes = s.lanes ∧ BytesKept s t ∧ t.envm = s.envm) ∧
  (∀ (s : State) (m : Master) (v : Word), Grants s m aDIST_MAP → bit v 30 = false →
    ∃ t, exec (.mapSet m v) s = .next t ∧ tfind t.dist.map (fld v 15 8) = some (fld v 23 16) ∧
      t.reg aDIST_MAP = v &&& 0xFFFF00 ∧ RegsBut [aDIST_MAP] s t ∧ t.lanes = s.lanes ∧ BytesKept s t ∧
      t.envm = s.envm) ∧
  (∀ (s : State) (m : Master) (v : Word), Grants s m aDIST_MAP → bit v 31 = false →
    ∃ t, exec (.mapClr m v) s = .next t ∧ tfind t.dist.map (fld v 15 8) = none ∧ t.reg aDIST_MAP = v &&& 0xFFFF00 ∧
      RegsBut [aDIST_MAP] s t ∧ t.lanes = s.lanes ∧ BytesKept s t ∧ t.envm = s.envm) ∧
  (∀ (s : State) (m : Master) (v : Word) (n : Nat), Grants s m aDIST_FUSE → n = fld v 15 8 → s.isHead = true →
    testBit (byteAt s.rng 0x1B) 2 = true → (s.slotSes ⟨0, 1, n, (s.ses n).gen, true, 0, false, 0⟩).isSome = true →
    (s.ses n).fn + 16 ≤ 2 ^ 24 → (s.dist.fuseReqs.all fun p => decide (p.ses ≠ n)) = true →
    s.dist.fuseReqs.length < 4 → s.peat.serving = none →
    ∃ t, exec (.fusedRequest m v) s = .next t ∧
      (∃ w, t.dist.fuseReqs = s.dist.fuseReqs ++ [w] ∧ w.ses = n ∧ w.gen = (s.ses n).gen ∧ w.num = (s.ses n).fn ∧ (t.ses n).fn = (s.ses n).fn + w.units.length) ∧
      t.reg aDIST_FUSE = v &&& 0xFF00 ∧ BytesKept s t ∧ t.envm = s.envm)

/-- A RESP whose first-path checks all pass sets T4 of the slot that is open, marks it heard and sets its angles. A
REPORT in the unit's own slot marks it reported; where its CMAC is right and the AES mask generator has not
stopped, it sets the time of flight, the distance and the reasons that R220 and R223 give, and where not, the
reason that the REPORT was not authentic. The end of a slot of a regular round writes its verdict to the FIFO. A
verdict that another unit sends comes to the head's FIFO with REMOTE set; NEXT takes the oldest verdict out and
keeps it with the session and unit it names. Another unit's report of a fused round is kept, and at the timeout
the round ends, with NO_SESSION where its session is gone. (08_ranging_and_cabin_position.md.) -/
def Obligations.RangingVerdicts : Prop :=
  (∀ (s : State) (o : UwbOp) (r : RngSlot) (fp : FirstPath), s.openRanging 1 = some (o, r) →
    fpReason s.rng fp o.stale = 0 →
    ∃ t, exec (.respReceived fp) s = .next t ∧
      t.dist.cur = s.dist.cur.map (fun q => if q.slot.start = o.ref then { q with t4 := unsgn 40 ((fpTime fp : Int) - o.delay), heard := true, aoaValid := (anglesOf s.rng fp o.pdoa).1, az := (anglesOf s.rng fp o.pdoa).2.1, el := (anglesOf s.rng fp o.pdoa).2.2 } else q) ∧
      BytesKept s t ∧ t.envm = s.envm) ∧
  (∀ (s : State) (o : UwbOp) (r : RngSlot) (fp : FirstPath) (b : Bytes) (good : Bool),
    s.openRanging 3 = some (o, r) → r.slot.unit = s.rngUnit → fpReason s.rng fp o.stale = 0 →
    ∃ t, exec (.reportReceived fp b) s = .next t ∧
      (good = (!s.maskStopped 0 && decide (b.length = 24 ∧ slice b 16 8 = (cmac (s.slotRep r.slot) (0x52 :: by8 r.slot.unit :: slice b 0 16)).take 8)) → t.dist.cur = s.dist.cur.map (fun q => if q.slot.start = o.ref then (if good then { q with reported := true, reason := q.reason ||| (timeOf s.rng r b).1, num := (timeOf s.rng r b).2.1, den := (timeOf s.rng r b).2.2.1, distMm := (timeOf s.rng r b).2.2.2.toNat } else { q with reported := true, reason := q.reason ||| 128 }) else q)) ∧
      BytesKept s t ∧ t.envm = s.envm) ∧
  (∀ (s : State) (r : RngSlot) (l : List RngSlot), s.dist.cur = r :: l → r.slot.fused = false →
    r.slot.ses ∉ s.dist.mapSpoilt → s.dist.fifo.length < 16 → s.peat.serving = none →
    ∃ t, exec .slotEnd s = .next t ∧ t.dist.cur = l ∧ t.dist.fifo = s.dist.fifo ++ [s.verdictWords r] ∧
      t.envm = s.envm ∧ BytesKept s t) ∧
  (∀ (s : State) (x : Nat × Frame), s.cwy.taken.find? (fun x => decide (x.2.cls = 3)) = some x → x.2.sub = 2 →
    s.isHead = true → s.dist.fifo.length < 16 →
    ∃ t, exec .remoteVerdict s = .next t ∧
      t.dist.fifo = s.dist.fifo ++ [(wordAt (bodyWords x.2.payload) 0 ||| 1) :: (bodyWords x.2.payload).drop 1] ∧
      t.cwy.taken = s.cwy.taken.erase x ∧ RegsBut [] s t ∧ t.lanes = s.lanes ∧ BytesKept s t ∧ t.envm = s.envm) ∧
  (∀ (s : State) (m : Master) (w : List Word) (l : List (List Word)), Grants s m aDIST_VREAD →
    s.dist.fifo = w :: l →
    ∃ t, exec (.next m) s = .next t ∧ t.dist.fifo = l ∧
      tfind t.peat.verdicts (fld (wordAt w 0) 23 16 * 32 + fld (wordAt w 0) 7 3) = some ⟨w, s.sysTime⟩ ∧
      RegsBut [] s t ∧ t.lanes = s.lanes ∧ BytesKept s t ∧ t.envm = s.envm) ∧
  (∀ (s : State) (x : Nat × Frame) (f : FusedRun) (rest : List FusedRun),
    s.cwy.taken.find? (fun x => decide (x.2.cls = 3)) = some x → x.2.sub = 3 → s.isHead = true →
    s.dist.fused = f :: rest → f.ended = false → x.2.src ∈ f.plan.units →
    (f.arrivals.all fun a => decide (a.unit ≠ x.2.src)) = true → s.peat.serving = none →
    ∃ t, exec .arrivalTimes s = .next t ∧
      t.dist.fused = { f with arrivals := f.arrivals ++ [reportOf x.2.src x.2.payload] } :: rest ∧
      t.cwy.taken = s.cwy.taken.erase x ∧ RegsBut [] s t ∧ t.lanes = s.lanes ∧ BytesKept s t ∧ t.envm = s.envm) ∧
  (∀ (s : State) (f : FusedRun) (rest : List FusedRun), s.dist.fused = f :: rest → s.isHead = true →
    f.ended = true → s.peat.serving = none →
    ∃ t, exec .fusionTimeout s = .next t ∧ t.dist.fused = rest ∧
      ((s.ses f.plan.ses).st ≠ .ready → t.rf aDIST_FUSED0 31 24 = cNoSession.toNat) ∧ t.lanes = s.lanes ∧
      t.dist.cur = s.dist.cur ∧ BytesKept s t ∧ t.envm = s.envm)

/-- UNLOCK_REQ of a phone session of the head unit that meets R270 and R272, with zones that its rights allow, each
near, and no policy applet, is granted: the release counter advances, the release record goes to Q1 and the log
record to Q3, and the reply is OK with the counter. START_REQ of such a session with the right to start queues a
fused round, and the decision waits for it with its outputs' room held. At its deadline it is turned down with
DIST_FAIL and logged. An island UNLOCK that waits for Peat, of an entry with the rights and no lockout, is
granted likewise. Where the fused result of that session and GEN is OK inside, the start is granted likewise
with no policy applet, and the waveform starts for HOLD units of 10 ms. A GO that software writes outside a
granted decision changes nothing but the waveform, which is then unpredictable, and that only on the head with
HOLD and VBAT in range; STOP, its end and a pin mismatch stop it, the last with MISMATCH set.
(10_release_decision.md.) -/
def Obligations.ReleaseDecisions : Prop :=
  (∀ (s : State) (p : Packet) (d : Decision) (k : Slot), MailTakes s 0x20 p → PhoneHolds s p d → MayDecide s k →
    d.kind = 1 → d.zones = fld (mailArg p 1) 7 0 → mailArg p 1 ≠ 0 → fld (mailArg p 1) 31 8 = 0 →
    s.zonesAllowed (s.ses d.ses) d.zones = true → (bitsOf 8 d.zones).all (s.zoneNear d) = true →
    byteAt s.relPart 0xA = 0xFF →
    ∃ t, exec .unlockReq s = .next t ∧ Released s t d k ∧ Replies t p cOk (toLE 8 (s.releaseCounter + 1)) ∧
      t.rf aREL_STATUS 15 8 = 0 ∧ BytesKept s t) ∧
  (∀ (s : State) (p : Packet) (d : Decision), MailTakes s 0x21 p → PhoneHolds s p d → s.decisionRoom = true →
    s.vbatLow = false → (s.key 8).isSome = true → d.kind = 2 → d.zones = 0 → bit d.rights 1 = true →
    testBit (byteAt s.rng 0x1B) 2 = true →
    (s.slotSes ⟨0, 1, d.ses, (s.ses d.ses).gen, true, 0, false, 0⟩).isSome = true → (s.ses d.ses).fn + 16 ≤ 2 ^ 24 →
    (s.dist.fuseReqs.all fun q => decide (q.ses ≠ d.ses)) = true → s.dist.fuseReqs.length < 4 →
    ∃ t, exec .startReq s = .next t ∧ (t.peat.serving.map (·.waiting)) = some (.fused d) ∧ t.rel.pending = true ∧
      t.dist.fuseReqs.length = s.dist.fuseReqs.length + 1 ∧ ((t.dist.fuseReqs.getLast?).map (·.ses)) = some d.ses ∧
      t.envm = s.envm ∧ BytesKept s t) ∧
  (∀ (s : State) (v : Serving) (d : Decision), Waits s v (.fused d) → d.kind = 2 → 4 ≤ s.room 3 →
    s.openCount 3 < 8 →
    ∃ t, exec .startDeadline s = .next t ∧ Answers t v.op v.reqId cDistFail [] ∧ Logged s t d cDistFail 0 ∧
      t.rel.pending = false ∧ t.rf aREL_STATUS 15 8 = cDistFail.toNat ∧ t.envm = s.envm ∧ BytesKept s t) ∧
  (∀ (s : State) (d : Decision) (k : Slot) (e : Entry), s.rb aTAG_ISLAST0 22 = true → s.tag.isackWait = true →
    s.up .peat = true → s.peat.serving = none → s.envm.islandLog = [] → MayDecide s k →
    s.isLocked (.cls 2) = false → s.isLocked (.entry (s.rf aTAG_ISLAST0 21 16)) = false →
    testBit (byteAt s.relPart 1) 1 = true → tfind s.envm.entries (s.rf aTAG_ISLAST0 21 16) = some e →
    e.tid = s.reg aTAG_ISLAST1 → e.rights.getLsbD 0 = true → e.rights.getLsbD 3 = true →
    d = ⟨3, 0xFF, 0, maskOf ((List.range 8).filter fun k => decide (0 < s.unit) && testBit (s.zoneUnits k) (s.unit - 1)), s.reg aTAG_ISLAST1, 0, s.now⟩ →
    ∃ t, exec .islandDecision s = .next t ∧ Released s t d k ∧ t.rb aTAG_ISLAST0 22 = false ∧
      t.rf aTAG_ISLAST0 31 24 = 0 ∧ t.tag.isackWait = false ∧ t.rf aREL_STATUS 15 8 = 0 ∧ BytesKept s t) ∧
  (∀ (s : State) (v : Serving) (d : Decision) (k : Slot), Waits s v (.fused d) → 3 ≤ s.room 31 → MayDecide s k →
    d.kind = 2 → Irq.fusedResult ∈ s.irqs → fld (s.reg aDIST_FUSED0) 31 24 = cOk.toNat →
    fld (s.reg aDIST_FUSED0) 23 16 = d.ses → fld (s.reg aDIST_FUSED0) 15 8 = d.gen →
    fld (s.reg aDIST_FUSED0) 7 0 = 1 → byteAt s.relPart 0xB = 0xFF → s.dist.fused = [] → s.isHead = true →
    s.rf aREL_CFG 15 0 ≠ 0 → s.rel.wave = false →
    ∃ t, exec .fusionTimeout s = .next t ∧ Released s t d k ∧
      Answers t v.op v.reqId cOk (toLE 8 (s.releaseCounter + 1)) ∧
      t.rel = ⟨true, s.now, s.now + s.rf aREL_CFG 15 0 * 271200, false⟩ ∧ t.rf aREL_STATUS 15 8 = 0 ∧ BytesKept s t) ∧
  (∀ (s : State) (m : Master), Grants s m aREL_CTL →
    ∃ t, exec (.relGo m) s = .next t ∧
      t.rel = { s.rel with wave := t.rel.wave, startAt := t.rel.startAt, endAt := t.rel.endAt } ∧
      (s.isHead = false ∨ s.rf aREL_CFG 15 0 = 0 ∨ s.vbatLow = true → t.rel = s.rel) ∧ t.regs = s.regs ∧
      t.lanes = s.lanes ∧ t.envm = s.envm ∧ BytesKept s t) ∧
  (∀ (s : State) (m : Master), Grants s m aREL_CTL →
    ∃ t, exec (.relStop m) s = .next t ∧ t.rel = { s.rel with wave := false } ∧ RegsBut [] s t ∧ t.lanes = s.lanes ∧
      BytesKept s t) ∧
  (∀ (s : State),
    ∃ t, exec .waveformEnd s = .next t ∧ t.rel = { s.rel with wave := false } ∧ t.regs = s.regs ∧
      t.lanes = s.lanes ∧ BytesKept s t) ∧
  (∀ (s : State), s.rel.wave = true →
    ∃ t, exec .pinMismatch s = .next t ∧ t.rel = { s.rel with wave := false } ∧ t.rb aREL_STATUS 3 = true ∧
      RegsBut [aREL_STATUS] s t ∧ t.lanes = s.lanes ∧ BytesKept s t)

/-- A sound call in the head of Q14 of a resident applet starts: the applet runs with the call's words, its number,
REQ_ID and channel. A service that the applet's mask allows answers it: HASH with eight words, by a job of
Peat's channel, RANDOM_WORDS with as many as it asks for once conditioned output for them is there, for which
the call waits, OWN_COUNTERS with the value of the applet's counter, advanced where it asks that, KEY_STORE of a
listed slot that holds a key with four words, SESSION_SLOT on a channel bound to its session with four words.
REPLY ends a call of Q14 with OK and the four words; the end of its budget and an access fault end it with
ABORTED. (03_peat_sedge_and_life_cycle.md.) -/
def Obligations.AppletCalls : Prop :=
  (∀ (s : State) (p : Packet) (b : Bytes), s.headPacket 14 = some p → packetBroken p = false → s.up .peat = true →
    s.peat.serving = none → s.peat.applet = none → s.power.reloading = false → s.mailbox 14 = true → 5 ≤ s.room 30 →
    fld (jobWord p 0) 23 16 = 0 → s.envm.lcs ≠ 5 → fld (jobWord p 0) 31 24 ≤ 7 →
    s.sect 0xA (fld (jobWord p 0) 31 24) = some b →
    (s.peat.residents.any fun r => decide (r.inst = fld (jobWord p 0) 31 24)) = true →
    ∃ t, exec .appletCall s = .next t ∧
      t.peat.applet = some ⟨fld (jobWord p 0) 31 24, some (BitVec.ofNat 16 (fld (jobWord p 0) 15 0)), p.src, (packetWords p).drop 1, cOk, [], s.memRead (persistAddr (fld (jobWord p 0) 31 24)) 0x200⟩ ∧
      t.envm = s.envm ∧ RegsBut [] s t ∧ BytesKept s t) ∧
  (∀ (s : State) (r : AppletRun) (msg : Bytes), Calls s r 0 → PeatWorks s 127 →
    ∃ t, exec (.ecallHash msg) s = .next t ∧
      (∃ w, t.peat.applet = some { r with lastStatus := cOk, words := w } ∧ w.length = 8) ∧
      (t.lane 10).committed = (s.lane 10).committed ∧ RegsBut (jobRegs 127) s t ∧ BytesKept s t) ∧
  (∀ (s : State) (r : AppletRun) (count : Nat) (d : Bytes), Calls s r 1 → count ≠ 0 →
    s.servedTo .applet = some (cOk, d) →
    ∃ t, exec (.ecallRandomWords count) s = .next t ∧ Served t r cOk (toWords (slice d 0 (4 * count))) ∧
      RegsBut [] s t ∧ BytesKept s t ∧ t.lanes = s.lanes) ∧
  (∀ (s : State) (r : AppletRun) (count : Nat), Calls s r 1 → count ≠ 0 → s.rngFailed = false →
    s.servedTo .applet = none →
    ∃ t, exec (.ecallRandomWords count) s = .next t ∧ t.peat.applet = some r ∧ t.drawWaits .applet = true ∧
      RegsBut [] s t ∧ BytesKept s t ∧ t.lanes = s.lanes) ∧
  (∀ (s : State) (r : AppletRun) (need : Nat) (raw : Bytes),
    (s.rngState = 3 ∨ (s.rngState = 2 ∧ s.trng.testsPassed = true)) →
    ((s.testPool raw).all fun x => !x.2.1 && !x.2.2) = true → s.peat.applet = some r →
    s.trng.reqs = [.draw .applet need []] → 1 ≤ need → need ≤ 32 → s.trng.served = [] → s.peat.kisDue = false →
    s.envm.entryDue = none →
    ∃ t, exec (.poolComplete raw) s = .next t ∧ Served t r cOk (toWords ((shakeH (slice raw 0 256) 32).take need)) ∧
      t.trng.reqs = [] ∧ RegsBut [aTRNG_STATUS] s t ∧ BytesKept s t ∧ t.lanes = s.lanes) ∧
  (∀ (s : State) (r : AppletRun) (which : Nat), Calls s r 2 → which ≤ 1 →
    ∃ t, exec (.ecallOwnCounters which false) s = .next t ∧ Served t r cOk [s.counter (48 + 2 * r.inst + which)] ∧
      t.envm = s.envm ∧ BytesKept s t ∧ t.lanes = s.lanes) ∧
  (∀ (s : State) (r : AppletRun) (which : Nat), Calls s r 2 → which ≤ 1 →
    (s.counter (48 + 2 * r.inst + which)).toNat < 2 ^ 32 - 1 →
    ∃ t, exec (.ecallOwnCounters which true) s = .next t ∧
      Served t r cOk [s.counter (48 + 2 * r.inst + which) + 1] ∧
      t.counter (48 + 2 * r.inst + which) = s.counter (48 + 2 * r.inst + which) + 1 ∧ BytesKept s t ∧
      t.lanes = s.lanes) ∧
  (∀ (s : State) (r : AppletRun) (slot : Nat), Calls s r 3 → s.listed r slot = true → (s.key slot).isSome = true →
    ∃ t, exec (.ecallKeyStore slot) s = .next t ∧
      (∃ w, t.peat.applet = some { r with lastStatus := cOk, words := w } ∧ w.length = 4) ∧ BytesKept s t ∧
      t.lanes = s.lanes) ∧
  (∀ (s : State) (r : AppletRun), Calls s r 4 → s.boundTo r.chan (s.rf (aCHN_BIND r.chan) 15 8) = true →
    ∃ t, exec .ecallSessionSlot s = .next t ∧
      (∃ w, t.peat.applet = some { r with lastStatus := cOk, words := w } ∧ w.length = 4) ∧ BytesKept s t ∧
      t.lanes = s.lanes) ∧
  (∀ (s : State) (r : AppletRun) (n : BitVec 16) (a0 a1 a2 a3 : Word), Calls s r 5 → r.reqId = some n →
    5 ≤ s.room 30 → s.openCount 30 < 8 →
    ∃ t, exec (.ecallReply a0 a1 a2 a3) s = .next t ∧ CallEnds t r n cOk (ofWords [a0, a1, a2, a3]) ∧
      t.envm = s.envm ∧ RegsBut [] s t ∧ BytesKept s t) ∧
  (∀ (s : State) (r : AppletRun) (n : BitVec 16), s.peat.applet = some r → r.reqId = some n → 1 ≤ s.room 30 →
    s.openCount 30 < 8 →
    ∃ t, exec .appletBudgetExpiry s = .next t ∧ CallEnds t r n cAborted [] ∧ t.envm = s.envm ∧ RegsBut [] s t) ∧
  (∀ (s : State) (r : AppletRun) (n : BitVec 16), s.peat.applet = some r → r.reqId = some n → 1 ≤ s.room 30 →
    s.openCount 30 < 8 →
    ∃ t, exec .appletAccessFault s = .next t ∧ CallEnds t r n cAborted [] ∧ t.envm = s.envm ∧ RegsBut [] s t)

/-- With Peat's channels free for its jobs: ATTEST of a key with a nonce of at most 64 bytes answers OK with the
statement of R302 and its signature, by the attestation key, for which it waits for conditioned output, or for
the attestation key itself by the identity key, whose index advances. KEY_IMPORT of a record with wrong fields
answers AUTH_FAIL, with a wrong signature the signature's status, with an old version AUTH_FAIL, each without
effect; a right one puts its key into the slot and its version into counter 43. CRED_CHECK with a wrong
confirmation answers AUTH_FAIL with reason 2; with everything right it gives the session its credential and
answers OK with it. STATUS_UPDATE with a wrong signature answers its status; of KIND 3 it takes the operator
time; the version that stands answers OK with no change; a newer one whose changes apply is stored with its
version. RECORD with wrong fields or signature enrols nothing; a newer one removes its entry, or keeps the entry
that it carries, with its counter. (11_key_store.md, 09_credentials_and_enrolment.md,
03_peat_sedge_and_life_cycle.md.) -/
def Obligations.SignedMaterial : Prop :=
  (∀ (s : State) (p : Packet) (b : Bytes) (k r : Slot) (d : Bytes), MailTakes s 0x32 p → 1 ≤ (mailArg p 0).toNat →
    (mailArg p 0).toNat ≤ 63 → Holds s (mailArg p 1) (mailArg p 2) b → (mailArg p 2).toNat ≤ 64 →
    s.key (mailArg p 0).toNat = some k → s.key 0 = some r → s.rngFailed = false → s.servedTo .peat = some (cOk, d) →
    PeatWorks s 127 →
    ∃ t, exec .attest s = .next t ∧
      (∃ w, w.length = 64 ∧ Replies t p cOk (s.statement (mailArg p 0).toNat k b ++ w)) ∧ t.envm = s.envm ∧
      RegsBut mailRegs s t ∧ OperandsOnly s t) ∧
  (∀ (s : State) (p : Packet) (b : Bytes) (k r : Slot), MailTakes s 0x32 p → 1 ≤ (mailArg p 0).toNat →
    (mailArg p 0).toNat ≤ 63 → Holds s (mailArg p 1) (mailArg p 2) b → (mailArg p 2).toNat ≤ 64 →
    s.key (mailArg p 0).toNat = some k → s.key 0 = some r → s.rngFailed = false → s.servedTo .peat = none →
    PeatWorks s 127 →
    ∃ t, exec .attest s = .next t ∧
      (t.peat.serving).map (fun v => (v.op, v.waiting)) = some (0x32, .draw (s.statement (mailArg p 0).toNat k b)) ∧
      t.drawWaits .peat = true ∧ t.envm = s.envm ∧ RegsBut mailRegs s t ∧ BytesKept s t) ∧
  (∀ (s : State) (p : Packet) (b : Bytes) (k r : Slot), MailTakes s 0x32 p → (mailArg p 0).toNat = 0 →
    Holds s (mailArg p 1) (mailArg p 2) b → (mailArg p 2).toNat ≤ 64 → s.key 0 = some k → s.key 1 = some r →
    s.envm.xmssKeyed = true → s.envm.xmssNext < 0x100000 → PeatWorks s 127 →
    ∃ t, exec .attest s = .next t ∧ (∃ w, Replies t p cOk (s.statement 0 k b ++ w)) ∧
      t.envm = { s.envm with xmssNext := s.envm.xmssNext + 1, xmssLag := 0 } ∧ RegsBut mailRegs s t ∧ BytesKept s t) ∧
  (∀ (s : State) (p : Packet) (b : Bytes), MailTakes s 0x31 p → Holds s (mailArg p 1) (mailArg p 2) b →
    mailArg p 2 = 2988 → PeatWorks s 127 →
    ∃ t, exec .keyImport s = .next t ∧
      (importFields (mailArg p 0).toNat b = false → Replies t p cAuthFail [] ∧ t.envm = s.envm ∧ t.slots = s.slots) ∧
      (importFields (mailArg p 0).toNat b = true → s.sigCode 2 (slice b 0xA8 2820) (slice b 0 0xA8) ≠ cOk → Replies t p (s.sigCode 2 (slice b 0xA8 2820) (slice b 0 0xA8)) [] ∧ t.envm = s.envm ∧ t.slots = s.slots) ∧
      (importFields (mailArg p 0).toNat b = true → s.sigCode 2 (slice b 0xA8 2820) (slice b 0 0xA8) = cOk → le32 b 0x18 ≤ (s.counter 43).toNat → Replies t p cAuthFail [] ∧ t.envm = s.envm ∧ t.slots = s.slots) ∧
      (∀ key x, importFields (mailArg p 0).toNat b = true → s.sigCode 2 (slice b 0xA8 2820) (slice b 0 0xA8) = cOk → (s.counter 43).toNat < le32 b 0x18 → s.rb aKST_STATUS 1 = false → s.key 2 = some x → onCurve p256 (ofBE (slice b 0x20 32) % p256.p) (ofBE (slice b 0x40 32) % p256.p) = true → kwUnwrap (importKek (ofLE x.key) b) (slice b 0x60 (typeBytes (byteAt b 1) + 8)) = some key → (s.putStatic (mailArg p 0).toNat (⟨s.slotClass (mailArg p 0).toNat (testBit (byteAt b 3) 1), 1, testBit (byteAt b 3) 0, testBit (byteAt b 3) 1, by8 (byteAt b 4), byteAt b 1, key, publicPart (byteAt b 1) key⟩ : Slot)).1 = cOk → tfind t.slots (mailArg p 0).toNat = some (⟨s.slotClass (mailArg p 0).toNat (testBit (byteAt b 3) 1), 1, testBit (byteAt b 3) 0, testBit (byteAt b 3) 1, by8 (byteAt b 4), byteAt b 1, key, publicPart (byteAt b 1) key⟩ : Slot) ∧ t.counter 43 = w32 (le32 b 0x18) ∧ t.peat.serving = none) ∧
      RegsBut mailRegs s t ∧ OperandsOnly s t) ∧
  (∀ (s : State) (p : Packet) (b : Bytes), MailTakes s 0x10 p → Holds s (mailArg p 1) (mailArg p 2) b →
    (mailArg p 2 = 5099 ∨ mailArg p 2 = 5131) → (s.ses (mailArg p 0).toNat).st = .ready →
    (s.ses (mailArg p 0).toNat).suite = 1 →
    s.isLocked (.cls (lockClass (s.feClass (s.ses (mailArg p 0).toNat).opener))) = false →
    (s.ses (mailArg p 0).toNat).cred = none → PeatWorks s 125 →
    ∃ t, exec .credCheck s = .next t ∧
      ((cmac (slice (s.ses (mailArg p 0).toNat).slot 32 32) (ascii "KM7310-CONF" ++ sha3x256 (b.drop 0x14))).take 16 ≠ slice b 4 16 → (t.ses (mailArg p 0).toNat).cred = none ∧ Replies t p cAuthFail (toLE 4 (b2n false * 2 ^ 31 + b2n s.envm.timeUnc * 2 ^ 30 + 2 * 2 ^ 20 + 0) ++ toLE 4 0 ++ toLE 4 0)) ∧
      ((cmac (slice (s.ses (mailArg p 0).toNat).slot 32 32) (ascii "KM7310-CONF" ++ sha3x256 (b.drop 0x14))).take 16 = slice b 4 16 → credFields b = true → (credBinding (s.ses (mailArg p 0).toNat) b).1 = cOk → ((s.tableLookup (ofLE (slice (b.drop 0x54) 3 3)) (b.drop 0x54)).1 = true ∨ s.sigCode 3 ((b.drop 0x54).drop (credSigned (b.drop 0x54))) ((b.drop 0x54).take (credSigned (b.drop 0x54))) = cOk) → s.credWindow (b.drop 0x54) = 0 → ((s.tableLookup (ofLE (slice (b.drop 0x54) 3 3)) (b.drop 0x54)).2.mapFetch (ofLE (slice (b.drop 0x54) 3 3) / 32768)).1.code = cOk → mapBit (ofLE (slice (b.drop 0x54) 3 3)) ((s.tableLookup (ofLE (slice (b.drop 0x54) 3 3)) (b.drop 0x54)).2.mapFetch (ofLE (slice (b.drop 0x54) 3 3) / 32768)).1.data = false → (t.ses (mailArg p 0).toNat).cred = some (ofLE (slice (b.drop 0x54) 3 3), w32 (le32 (b.drop 0x54) 8), w32 (le32 (b.drop 0x54) 0x10)) ∧ Replies t p cOk (toLE 4 (b2n (s.tableLookup (ofLE (slice (b.drop 0x54) 3 3)) (b.drop 0x54)).1 * 2 ^ 31 + b2n s.envm.timeUnc * 2 ^ 30 + 0 * 2 ^ 20 + (ofLE (slice (b.drop 0x54) 3 3))) ++ toLE 4 (le32 (b.drop 0x54) 8) ++ toLE 4 (le32 (b.drop 0x54) 0x10))) ∧
      (∀ k, k ≠ (mailArg p 0).toNat → t.ses k = s.ses k) ∧ t.flash = s.flash) ∧
  (∀ (s : State) (p : Packet) (b : Bytes) (f : Bool), MailTakes s 0x11 p → Holds s (mailArg p 0) (mailArg p 1) b →
    PeatWorks s 127 →
    ∃ t, exec (.statusUpdate f) s = .next t ∧
      (0x14 ≤ b.length → byteAt b 1 = 1 → le16 b 0x10 = 0 → Replies t p cLenZero []) ∧
      (updateFields b = false → ¬ (0x14 ≤ b.length ∧ byteAt b 1 = 1 ∧ le16 b 0x10 = 0) → Replies t p cAuthFail []) ∧
      (updateFields b = true → (byteAt b 1 = 1 → le16 b 0x10 ≠ 0) → s.sigCode 3 (b.drop (0x14 + (updateBody b).getD 0)) (b.take (0x14 + (updateBody b).getD 0)) ≠ cOk → Replies t p (s.sigCode 3 (b.drop (0x14 + (updateBody b).getD 0)) (b.take (0x14 + (updateBody b).getD 0))) []) ∧
      (updateFields b = true → byteAt b 1 = 3 → s.sigCode 3 (b.drop (0x14 + (updateBody b).getD 0)) (b.take (0x14 + (updateBody b).getD 0)) = cOk → Replies t p cOk [] ∧ t.envm.tOp = (if s.opTime.toNat < (w32 (le32 b 0xC)).toNat then w32 (le32 b 0xC) else s.opTime)) ∧
      (updateFields b = true → (byteAt b 1 = 2 ∨ byteAt b 1 = 1 ∧ le16 b 0x10 ≠ 0) → s.sigCode 3 (b.drop (0x14 + (updateBody b).getD 0)) (b.take (0x14 + (updateBody b).getD 0)) = cOk → le32 b 8 = (match tfind s.envm.sectors (byteAt b 2) with | some r => r.version.toNat | none => 0) → Replies t p cOk [] ∧ t.envm = s.envm) ∧
      (updateFields b = true → (byteAt b 1 = 2 ∨ byteAt b 1 = 1 ∧ le16 b 0x10 ≠ 0 ∧ le32 b 4 = (match tfind s.envm.sectors (byteAt b 2) with | some r => r.version.toNat | none => 0) ∧ (s.mapFetch (byteAt b 2)).1.code = cOk) → s.sigCode 3 (b.drop (0x14 + (updateBody b).getD 0)) (b.take (0x14 + (updateBody b).getD 0)) = cOk → (match tfind s.envm.sectors (byteAt b 2) with | some r => r.version.toNat | none => 0) < le32 b 8 → s.mapKeys ≠ none → f = true → Replies t p cOk [] ∧ (tfind t.envm.sectors (byteAt b 2)).map (·.version) = some (w32 (le32 b 8)))) ∧
  (∀ (s : State) (p : Packet) (b : Bytes), MailTakes s 0x12 p → fld (mailArg p 1) 31 8 = 0x010000 →
    (mailArg p 0).toNat < 128 → 6 ≤ ((packetWords p).drop 1).length → mailArg p 3 = 5019 →
    Holds s (mailArg p 2) (mailArg p 3) b → s.isLocked (.cls (lockClass (s.feClass (mailArg p 0).toNat))) = false →
    PeatWorks s 127 →
    ∃ t, exec .record s = .next t ∧
      (enrolFields b = false → Replies t p cAuthFail [] ∧ t.envm.entries = s.envm.entries) ∧
      (enrolFields b = true → s.sigCode 3 (b.drop 56) (b.take 56) ≠ cOk → Replies t p (s.sigCode 3 (b.drop 56) (b.take 56)) [] ∧ t.envm.entries = s.envm.entries) ∧
      (enrolFields b = true → s.sigCode 3 (b.drop 56) (b.take 56) = cOk → le32 b 0x14 ≤ (s.counter 46).toNat → Replies t p cAuthFail [] ∧ t.envm = s.envm) ∧
      (∀ x, enrolFields b = true → s.sigCode 3 (b.drop 56) (b.take 56) = cOk → (s.counter 46).toNat < le32 b 0x14 → byteAt b 1 = 2 → s.entryByTid (w32 (le32 b 0x18)) = some x → Replies t p cOk (toLE 4 x.1) ∧ tfind t.envm.entries x.1 = none ∧ t.counter 46 = w32 (le32 b 0x14)) ∧
      (∀ k key i, enrolFields b = true → s.sigCode 3 (b.drop 56) (b.take 56) = cOk → (s.counter 46).toNat < le32 b 0x14 → byteAt b 1 = 1 → s.key 11 = some k → kwUnwrap (kmac k.key (ascii "KM7310-LRN") ((toLE 4 (mailArg p 4).toNat ++ toLE 4 (mailArg p 5).toNat) ++ slice b 0x14 4) 32) (slice b 0x20 24) = some key → (match s.entryByTid (recordEntry b key).tid with | some x => some x.1 | none => s.freeEntry) = some i → Replies t p cOk (toLE 4 i) ∧ tfind t.envm.entries i = some (recordEntry b key) ∧ t.counter 46 = w32 (le32 b 0x14)) ∧
      BytesKept s t)

/-- CFG_REPLACE of a candidate directory that is not valid or not newer answers AUTH_FAIL and erases it; of a sound
one that replaces one section it waits for the drain with SEC_REPLACE set, or at once becomes the commit record
where the section is a CLOCKS or a LAYOUT. IMAGE_STAGE of the image in the inactive slot, valid and newer, with
room for the applets, stages it and answers OK; with none valid it answers AUTH_FAIL. With Peat's channel free
for its jobs, LCS_TRANSITION with a token of wrong fields answers AUTH_FAIL and uses the nonce up; a right scrap
token leaves SCRAPPED with no key, a right level 1 token opens level 1; a record outside BLANK to PERSONALISED's
own state answers AUTH_FAIL, and a right one waits for conditioned output and, once that is there, leaves the
field state. DEBUG_TOKEN shows AUTH_FAIL on JTAG for wrong fields or a wrong signature, and OK for a right level
1 token, which opens level 1. (03_peat_sedge_and_life_cycle.md, 02_power_and_startup.md.) -/
def Obligations.SignedStates : Prop :=
  (∀ (s : State) (p : Packet), MailTakes s 0x40 p → 6 ∉ s.cfg.held →
    ∃ t, exec .cfgReplace s = .next t ∧
      ((dirValid s s.flashRead (1 - s.cfg.slot) = false ∨ dirVersion (s.flashRead (dirAddr (1 - s.cfg.slot)) 5140) ≤ s.cfg.version.toNat) → Replies t p cAuthFail [] ∧ t.flashRead (dirAddr (1 - s.cfg.slot)) 4096 = List.replicate 4096 0xFF ∧ t.envm = s.envm ∧ t.cfg = { s.cfg with held := [], hold := [] }) ∧
      (∀ x typ inst, dirValid s s.flashRead (1 - s.cfg.slot) = true → s.cfg.version.toNat < dirVersion (s.flashRead (dirAddr (1 - s.cfg.slot)) 5140) → dirDiff (dirEntries (s.flashRead (dirAddr s.cfg.slot) 5140)) (dirEntries (s.flashRead (dirAddr (1 - s.cfg.slot)) 5140)) = [(typ, inst)] → (match entryOf (dirEntries (s.flashRead (dirAddr (1 - s.cfg.slot)) 5140)) typ inst with | none => x = none | some e => x = some (s.flashRead e.off e.len) ∧ sectionOk (dirEntries (s.flashRead (dirAddr (1 - s.cfg.slot)) 5140)) (areaSize s.peat.peatFoot) e (s.flashRead e.off e.len) = true) → ¬ (typ * 256 + inst = 0x100 ∨ typ * 256 + inst = 0xB00) → (t.peat.serving).map (·.waiting) = some (.cfgDrain (1 - s.cfg.slot) (w32 (dirVersion (s.flashRead (dirAddr (1 - s.cfg.slot)) 5140))) (typ * 256 + inst) x) ∧ t.rb aPWR_STATUS 7 = true) ∧
      (∀ x typ inst, dirValid s s.flashRead (1 - s.cfg.slot) = true → s.cfg.version.toNat < dirVersion (s.flashRead (dirAddr (1 - s.cfg.slot)) 5140) → dirDiff (dirEntries (s.flashRead (dirAddr s.cfg.slot) 5140)) (dirEntries (s.flashRead (dirAddr (1 - s.cfg.slot)) 5140)) = [(typ, inst)] → (match entryOf (dirEntries (s.flashRead (dirAddr (1 - s.cfg.slot)) 5140)) typ inst with | none => x = none | some e => x = some (s.flashRead e.off e.len) ∧ sectionOk (dirEntries (s.flashRead (dirAddr (1 - s.cfg.slot)) 5140)) (areaSize s.peat.peatFoot) e (s.flashRead e.off e.len) = true) → (typ * 256 + inst = 0x100 ∨ typ * 256 + inst = 0xB00) → Replies t p cOk [] ∧ t.envm.commitRec = some ((1 - s.cfg.slot), w32 (dirVersion (s.flashRead (dirAddr (1 - s.cfg.slot)) 5140))) ∧ t.cfg.slot = (1 - s.cfg.slot)) ∧
      t.mem = s.mem) ∧
  (∀ (s : State) (p : Packet), MailTakes s 0x41 p → ((mailArg p 0).toNat = 1 ∨ (mailArg p 0).toNat = 2) →
    ∃ t, exec .imageStage s = .next t ∧
      ((s.inactiveImage (mailArg p 0).toNat).2 = none → Replies t p cAuthFail [] ∧ t.peat.staged = s.peat.staged) ∧
      (∀ x b, s.inactiveImage (mailArg p 0).toNat = (x, some b) → (tget s.peat.runVersion (mailArg p 0).toNat 0).toNat < le32 b 8 → ((mailArg p 0).toNat = 1 → s.appletsFit (le32 b 0x10) = true) → Replies t p cOk [] ∧ tfind t.peat.staged (mailArg p 0).toNat = some (x, w32 (le32 b 8), slice b 0x20 32)) ∧
      (∀ x b, s.inactiveImage (mailArg p 0).toNat = (x, some b) → le32 b 8 ≤ (tget s.peat.runVersion (mailArg p 0).toNat 0).toNat → Replies t p cAuthFail [] ∧ t.peat.staged = s.peat.staged) ∧
      t.envm = s.envm ∧ RegsBut (aHSH_COUNT :: fenceRegs) s t ∧ BytesKept s t) ∧
  (∀ (s : State) (p : Packet) (b : Bytes), MailTakes s 0x50 p → Holds s (mailArg p 0) (mailArg p 1) b →
    (mailArg p 1 = 2872 ∨ mailArg p 1 = 2968) → PeatWorks s 127 →
    ∃ t, exec .lcsTransition s = .next t ∧
      (mailArg p 1 = 2872 → s.tokenFields (b.drop 2820) = false → Replies t p cAuthFail [] ∧ t.peat.nonce = none ∧ t.envm = s.envm) ∧
      (mailArg p 1 = 2872 → s.tokenFields (b.drop 2820) = true → byteAt b 2821 = 1 → s.tokenBy 2 b = true → Replies t p cOk [] ∧ t.peat.nonce = none ∧ t.peat.debugLevel = max 1 s.peat.debugLevel ∧ t.envm = { s.envm with pwdFails := 0 }) ∧
      (mailArg p 1 = 2872 → s.tokenFields (b.drop 2820) = true → byteAt b 2821 = 0x11 → (s.tokenBy 1 b || s.tokenBy 2 b) = true → (destroyed s.envm.lcs 5).any (fun c => decide (s.epochOf c = 0xFFFFFFFF)) = false → t.envm.lcs = 5 ∧ t.slots = [] ∧ t.peat.serving = none) ∧
      (mailArg p 1 = 2968 → s.envm.lcs ≠ 1 → Replies t p cAuthFail [] ∧ t.envm = s.envm) ∧
      (mailArg p 1 = 2968 → s.envm.lcs = 1 → byteAt b 2820 = 1 → zeroAt (b.drop 2820) 1 3 = true → slice b 2824 16 = toLE 16 Config.deviceId.toNat → s.tokenBy 1 b = true → s.power.rootKnown = true → s.rngFailed = false → s.servedTo .peat = none → (t.peat.serving).map (fun v => (v.op, v.waiting)) = some (0x50, .draw (2 :: slice b 2840 128)) ∧ t.drawWaits .peat = true) ∧
      (∀ x, mailArg p 1 = 2968 → s.envm.lcs = 1 → byteAt b 2820 = 1 → zeroAt (b.drop 2820) 1 3 = true → slice b 2824 16 = toLE 16 Config.deviceId.toNat → s.tokenBy 1 b = true → s.power.rootKnown = true → s.rngFailed = false → s.servedTo .peat = some (cOk, x) → t.envm.lcs = 2 ∧ t.peat.serving = none)) ∧
  (∀ (s : State) (b : Bytes), s.jtagFree = true → PeatWorks s 127 →
    ∃ t, exec (.debugToken b) s = .next t ∧
      ((decide (b.length = 2872) && s.tokenFields (b.drop 2820)) = false → t.peat.jtagOut = [cAuthFail] ∧ t.peat.nonce = none ∧ t.envm = s.envm ∧ BytesKept s t) ∧
      ((decide (b.length = 2872) && s.tokenFields (b.drop 2820)) = true → byteAt b 2821 = 1 → s.tokenBy 2 b = false → t.peat.jtagOut = [cAuthFail] ∧ t.peat.nonce = none ∧ t.envm = s.envm ∧ BytesKept s t) ∧
      ((decide (b.length = 2872) && s.tokenFields (b.drop 2820)) = true → byteAt b 2821 = 1 → s.tokenBy 2 b = true → t.peat.jtagOut = [cOk] ∧ t.peat.nonce = none ∧ t.peat.debugLevel = max 1 s.peat.debugLevel ∧ t.envm = { s.envm with pwdFails := 0 } ∧ BytesKept s t))
end

