-- ==== Sys2Proof/Laws/Fields.lean ====
section
/-!
SUPPORT. Bit fields of a word: what a field reads after it, or a field beside it, is set.
-/
namespace Sys2Proof
namespace Laws

open Sys2Proof.Machine

theorem fld_lt (w : Word) (hi lo : Nat) : fld w hi lo < 2 ^ (hi - lo + 1) := Nat.mod_lt _ (by positivity)

/-- The numeric value of a word with a field set: the bits above, the field, the bits below. -/
theorem setFld_toNat (w : Word) {hi lo : Nat} (h : lo ≤ hi) (h32 : hi < 32) (v : Nat) :
    (setFld w hi lo v).toNat =
      w.toNat / 2 ^ (hi + 1) * 2 ^ (hi + 1) + v % 2 ^ (hi - lo + 1) * 2 ^ lo + w.toNat % 2 ^ lo := by
  have e : (2 : Nat) ^ (hi + 1) = 2 ^ lo * 2 ^ (hi - lo + 1) := by rw [← pow_add]; congr 1; omega
  have hw := w.isLt
  have h1 : w.toNat = 2 ^ lo * (w.toNat / 2 ^ lo) + w.toNat % 2 ^ lo := (Nat.div_add_mod _ _).symm
  have h2 : w.toNat / 2 ^ lo = 2 ^ (hi - lo + 1) * (w.toNat / 2 ^ lo / 2 ^ (hi - lo + 1)) +
      w.toNat / 2 ^ lo % 2 ^ (hi - lo + 1) := (Nat.div_add_mod _ _).symm
  have h3 : w.toNat / 2 ^ lo / 2 ^ (hi - lo + 1) = w.toNat / 2 ^ (hi + 1) := by rw [Nat.div_div_eq_div_mul, e]
  have hv : v % 2 ^ (hi - lo + 1) < 2 ^ (hi - lo + 1) := Nat.mod_lt _ (by positivity)
  have hr : w.toNat % 2 ^ lo < 2 ^ lo := Nat.mod_lt _ (by positivity)
  have key : w.toNat - fld w hi lo * 2 ^ lo + v % 2 ^ (hi - lo + 1) * 2 ^ lo =
      w.toNat / 2 ^ (hi + 1) * 2 ^ (hi + 1) + v % 2 ^ (hi - lo + 1) * 2 ^ lo + w.toNat % 2 ^ lo := by
    unfold fld
    rw [h3] at h2
    generalize w.toNat / 2 ^ (hi + 1) = A at *
    generalize hF : w.toNat / 2 ^ lo % 2 ^ (hi - lo + 1) = F at *
    have : w.toNat = A * 2 ^ (hi + 1) + F * 2 ^ lo + w.toNat % 2 ^ lo := by
      rw [e]; conv_lhs => rw [h1, h2]
      ring
    omega
  have bound : w.toNat / 2 ^ (hi + 1) * 2 ^ (hi + 1) + v % 2 ^ (hi - lo + 1) * 2 ^ lo + w.toNat % 2 ^ lo < 2 ^ 32 := by
    have e2 : (2 : Nat) ^ 32 = 2 ^ (31 - hi) * 2 ^ (hi + 1) := by rw [← pow_add]; congr 1; omega
    have hA : w.toNat / 2 ^ (hi + 1) + 1 ≤ 2 ^ (31 - hi) := by
      have : w.toNat / 2 ^ (hi + 1) < 2 ^ (31 - hi) := by
        rw [Nat.div_lt_iff_lt_mul (by positivity), ← e2]; exact hw
      omega
    have hm : v % 2 ^ (hi - lo + 1) * 2 ^ lo + w.toNat % 2 ^ lo < 2 ^ (hi + 1) := by
      rw [e]
      calc v % 2 ^ (hi - lo + 1) * 2 ^ lo + w.toNat % 2 ^ lo
          < v % 2 ^ (hi - lo + 1) * 2 ^ lo + 2 ^ lo := by omega
        _ = (v % 2 ^ (hi - lo + 1) + 1) * 2 ^ lo := by ring
        _ ≤ 2 ^ (hi - lo + 1) * 2 ^ lo := Nat.mul_le_mul_right _ hv
        _ = 2 ^ lo * 2 ^ (hi - lo + 1) := by ring
    have := Nat.mul_le_mul_right (2 ^ (hi + 1)) hA
    rw [e2]
    nlinarith
  rw [setFld, BitVec.toNat_ofNat, key, Nat.mod_eq_of_lt bound]

theorem fld_setFld_same (w : Word) {hi lo : Nat} (h : lo ≤ hi) (h32 : hi < 32) (v : Nat) :
    fld (setFld w hi lo v) hi lo = v % 2 ^ (hi - lo + 1) := by
  have e : (2 : Nat) ^ (hi + 1) = 2 ^ lo * 2 ^ (hi - lo + 1) := by rw [← pow_add]; congr 1; omega
  have hr : w.toNat % 2 ^ lo < 2 ^ lo := Nat.mod_lt _ (by positivity)
  unfold fld
  rw [setFld_toNat w h h32, e]
  have : w.toNat / (2 ^ lo * 2 ^ (hi - lo + 1)) * (2 ^ lo * 2 ^ (hi - lo + 1)) + v % 2 ^ (hi - lo + 1) * 2 ^ lo +
      w.toNat % 2 ^ lo = w.toNat % 2 ^ lo + 2 ^ lo * (w.toNat / (2 ^ lo * 2 ^ (hi - lo + 1)) * 2 ^ (hi - lo + 1) +
        v % 2 ^ (hi - lo + 1)) := by ring
  rw [this, Nat.add_mul_div_left _ _ (by positivity), Nat.div_eq_of_lt hr, zero_add, Nat.mul_add_mod']
  exact Nat.mod_mod _ _

theorem fld_setFld_below (w : Word) {hi lo hi' lo' : Nat} (h : lo ≤ hi) (h32 : hi < 32) (h' : lo' ≤ hi') (hd : hi' < lo)
    (v : Nat) : fld (setFld w hi lo v) hi' lo' = fld w hi' lo' := by
  have e1 : (2 : Nat) ^ lo = 2 ^ (lo' + (hi' - lo' + 1)) * 2 ^ (lo - hi' - 1) := by
    rw [← pow_add]; congr 1; omega
  have e : (2 : Nat) ^ (hi + 1) = 2 ^ lo * 2 ^ (hi - lo + 1) := by rw [← pow_add]; congr 1; omega
  have aux : ∀ n : Nat, n / 2 ^ lo' % 2 ^ (hi' - lo' + 1) = n % 2 ^ (lo' + (hi' - lo' + 1)) / 2 ^ lo' := by
    intro n; rw [pow_add 2 lo' (hi' - lo' + 1), Nat.mod_mul_right_div_self]
  unfold fld
  rw [aux, aux, setFld_toNat w h h32]
  congr 1
  have : w.toNat / 2 ^ (hi + 1) * 2 ^ (hi + 1) + v % 2 ^ (hi - lo + 1) * 2 ^ lo + w.toNat % 2 ^ lo =
      w.toNat % 2 ^ lo + 2 ^ lo * (w.toNat / 2 ^ (hi + 1) * 2 ^ (hi - lo + 1) + v % 2 ^ (hi - lo + 1)) := by
    rw [e]; ring
  rw [this, e1, mul_assoc, Nat.add_mul_mod_self_left, Nat.mod_mul_right_mod]

theorem fld_setFld_above (w : Word) {hi lo hi' lo' : Nat} (h : lo ≤ hi) (h32 : hi < 32) (hd : hi < lo')
    (v : Nat) : fld (setFld w hi lo v) hi' lo' = fld w hi' lo' := by
  have e1 : (2 : Nat) ^ lo' = 2 ^ (hi + 1) * 2 ^ (lo' - (hi + 1)) := by rw [← pow_add]; congr 1; omega
  have e : (2 : Nat) ^ (hi + 1) = 2 ^ lo * 2 ^ (hi - lo + 1) := by rw [← pow_add]; congr 1; omega
  have hr : w.toNat % 2 ^ lo < 2 ^ lo := Nat.mod_lt _ (by positivity)
  have hv : v % 2 ^ (hi - lo + 1) < 2 ^ (hi - lo + 1) := Nat.mod_lt _ (by positivity)
  have hm : v % 2 ^ (hi - lo + 1) * 2 ^ lo + w.toNat % 2 ^ lo < 2 ^ (hi + 1) := by
    rw [e]
    calc v % 2 ^ (hi - lo + 1) * 2 ^ lo + w.toNat % 2 ^ lo
        < v % 2 ^ (hi - lo + 1) * 2 ^ lo + 2 ^ lo := by omega
      _ = (v % 2 ^ (hi - lo + 1) + 1) * 2 ^ lo := by ring
      _ ≤ 2 ^ (hi - lo + 1) * 2 ^ lo := Nat.mul_le_mul_right _ hv
      _ = 2 ^ lo * 2 ^ (hi - lo + 1) := by ring
  unfold fld
  rw [setFld_toNat w h h32, e1, ← Nat.div_div_eq_div_mul, ← Nat.div_div_eq_div_mul]
  congr 2
  have : w.toNat / 2 ^ (hi + 1) * 2 ^ (hi + 1) + v % 2 ^ (hi - lo + 1) * 2 ^ lo + w.toNat % 2 ^ lo =
      (v % 2 ^ (hi - lo + 1) * 2 ^ lo + w.toNat % 2 ^ lo) + 2 ^ (hi + 1) * (w.toNat / 2 ^ (hi + 1)) := by ring
  rw [this, Nat.add_mul_div_left _ _ (by positivity), Nat.div_eq_of_lt hm, zero_add]

/-- A field beside the field that is set. -/
theorem fld_setFld_ne (w : Word) {hi lo hi' lo' : Nat} (h : lo ≤ hi) (h32 : hi < 32) (h' : lo' ≤ hi')
    (hd : hi' < lo ∨ hi < lo') (v : Nat) : fld (setFld w hi lo v) hi' lo' = fld w hi' lo' := by
  rcases hd with hd | hd
  · exact fld_setFld_below w h h32 h' hd v
  · exact fld_setFld_above w h h32 hd v

/-- A bit is a field of one bit. -/
theorem bit_eq_fld (w : Word) (i : Nat) : bit w i = decide (fld w i i = 1) := by
  unfold bit fld
  rw [← BitVec.testBit_toNat, Nat.testBit_eq_decide_div_mod_eq]
  simp

theorem b2n_mod (b : Bool) : b2n b % 2 = b2n b := by cases b <;> rfl

theorem b2n_eq_one (b : Bool) : decide (b2n b = 1) = b := by cases b <;> rfl

theorem bit_setFld_same (w : Word) {i : Nat} (h : i < 32) (b : Bool) : bit (setFld w i i (b2n b)) i = b := by
  rw [bit_eq_fld, fld_setFld_same w (Nat.le_refl i) h]
  simp [b2n_mod, b2n_eq_one]

theorem bit_setFld_ne (w : Word) {hi lo i : Nat} (h : lo ≤ hi) (h32 : hi < 32) (hd : i < lo ∨ hi < i) (v : Nat) :
    bit (setFld w hi lo v) i = bit w i := by
  rw [bit_eq_fld, bit_eq_fld, fld_setFld_ne w h h32 (Nat.le_refl i) hd]

end Laws
end Sys2Proof
end

