-- ==== Sys2Proof/Laws/Tables.lean ====
section
/-!
SUPPORT. Sparse tables and byte memories: reading after writing, and the canonical form that every write keeps.
-/
namespace Sys2Proof
namespace Laws

open Sys2Proof.Machine

variable {α : Type}

/-! ### Reading after writing -/

@[simp] theorem tfind_nil (i : Nat) : tfind ([] : Tab α) i = none := rfl

theorem tfind_tput (t : Tab α) (i j : Nat) (v : α) : tfind (tput t i v) j = if j = i then some v else tfind t j := by
  induction t with
  | nil => simp [tput, tfind]
  | cons e t ih =>
    obtain ⟨k, w⟩ := e
    unfold tput
    split_ifs with h1 h2 <;> simp only [tfind] <;> split_ifs <;> simp_all

@[simp] theorem tfind_tput_same (t : Tab α) (i : Nat) (v : α) : tfind (tput t i v) i = some v := by
  simp [tfind_tput]

theorem tfind_tput_ne (t : Tab α) {i j : Nat} (h : j ≠ i) (v : α) : tfind (tput t i v) j = tfind t j := by
  simp [tfind_tput, h]

theorem tfind_tdel (t : Tab α) (i j : Nat) : tfind (tdel t i) j = if j = i then none else tfind t j := by
  induction t with
  | nil => simp [tdel, tfind]
  | cons e t ih =>
    obtain ⟨k, w⟩ := e
    unfold tdel
    by_cases h1 : i = k
    · rw [if_pos h1, ih]; simp only [tfind]; split_ifs <;> simp_all
    · rw [if_neg h1]; simp only [tfind, ih]; split_ifs <;> simp_all

@[simp] theorem tfind_tdel_same (t : Tab α) (i : Nat) : tfind (tdel t i) i = none := by simp [tfind_tdel]

theorem tfind_tdel_ne (t : Tab α) {i j : Nat} (h : j ≠ i) : tfind (tdel t i) j = tfind t j := by
  simp [tfind_tdel, h]

@[simp] theorem tget_nil (i : Nat) (d : α) : tget ([] : Tab α) i d = d := rfl

theorem tget_tput (t : Tab α) (i j : Nat) (v d : α) : tget (tput t i v) j d = if j = i then v else tget t j d := by
  unfold tget; rw [tfind_tput]; split <;> rfl

@[simp] theorem tget_tput_same (t : Tab α) (i : Nat) (v d : α) : tget (tput t i v) i d = v := by simp [tget_tput]

theorem tget_tput_ne (t : Tab α) {i j : Nat} (h : j ≠ i) (v d : α) : tget (tput t i v) j d = tget t j d := by
  simp [tget_tput, h]

theorem tget_tdel (t : Tab α) (i j : Nat) (d : α) : tget (tdel t i) j d = if j = i then d else tget t j d := by
  unfold tget; rw [tfind_tdel]; split <;> rfl

theorem tget_tset [DecidableEq α] (t : Tab α) (i j : Nat) (v d e : α) (h : e = d ∨ v ≠ d ∨ j ≠ i) :
    tget (tset t i v d) j e = if j = i then v else tget t j e := by
  unfold tset; split
  · rw [tget_tdel]; split <;> simp_all
  · rw [tget_tput]

@[simp] theorem tget_tset_same [DecidableEq α] (t : Tab α) (i : Nat) (v d : α) : tget (tset t i v d) i d = v := by
  rw [tget_tset _ _ _ _ _ _ (Or.inl rfl)]; simp

theorem tget_tset_ne [DecidableEq α] (t : Tab α) {i j : Nat} (h : j ≠ i) (v d e : α) :
    tget (tset t i v d) j e = tget t j e := by
  rw [tget_tset _ _ _ _ _ _ (Or.inr (Or.inr h))]; simp [h]

/-! ### The canonical form -/

theorem trising_cons (e : Nat × α) (t : Tab α) :
    trising (e :: t) = true ↔ (∀ f ∈ t, e.1 < f.1) ∧ trising t = true := by
  induction t generalizing e with
  | nil => simp [trising]
  | cons f t ih =>
    have := ih f
    simp only [trising, Bool.and_eq_true, decide_eq_true_eq, List.mem_cons, forall_eq_or_imp] at *
    constructor
    · rintro ⟨h1, h2⟩
      exact ⟨⟨h1, fun g hg => lt_trans h1 ((this.1 h2).1 g hg)⟩, h2⟩
    · rintro ⟨⟨h1, _⟩, h2⟩
      exact ⟨h1, h2⟩

theorem mem_tput {t : Tab α} {i : Nat} {v : α} {f : Nat × α} (h : f ∈ tput t i v) : f = (i, v) ∨ f ∈ t := by
  induction t with
  | nil => simp [tput] at h; simp [h]
  | cons e t ih =>
    obtain ⟨k, w⟩ := e
    unfold tput at h
    split_ifs at h with h1 h2 <;> simp only [List.mem_cons] at h ⊢
    · rcases h with h | h <;> simp_all
    · rcases h with h | h | h <;> simp_all
    · rcases h with h | h
      · simp [h]
      · rcases ih h with h | h <;> simp [h]

theorem mem_tdel {t : Tab α} {i : Nat} {f : Nat × α} (h : f ∈ tdel t i) : f ∈ t := by
  induction t with
  | nil => simp [tdel] at h
  | cons e t ih =>
    obtain ⟨k, w⟩ := e
    unfold tdel at h
    split_ifs at h with h1 <;> simp only [List.mem_cons] at h ⊢
    · exact Or.inr (ih h)
    · rcases h with h | h
      · exact Or.inl h
      · exact Or.inr (ih h)

theorem trising_tput {t : Tab α} (i : Nat) (v : α) (h : trising t = true) : trising (tput t i v) = true := by
  induction t with
  | nil => simp [tput, trising]
  | cons e t ih =>
    obtain ⟨k, w⟩ := e
    rw [trising_cons] at h
    unfold tput
    split_ifs with h1 h2 <;> rw [trising_cons]
    · exact h
    · refine ⟨?_, (trising_cons _ _).2 h⟩
      intro f hf
      rcases List.mem_cons.1 hf with rfl | hf
      · exact h2
      · exact lt_trans h2 (h.1 f hf)
    · refine ⟨fun f hf => ?_, ih h.2⟩
      rcases mem_tput hf with rfl | hf
      · simp only; omega
      · exact h.1 f hf

theorem trising_tdel {t : Tab α} (i : Nat) (h : trising t = true) : trising (tdel t i) = true := by
  induction t with
  | nil => simp [tdel, trising]
  | cons e t ih =>
    obtain ⟨k, w⟩ := e
    rw [trising_cons] at h
    unfold tdel
    split_ifs with h1
    · exact ih h.2
    · rw [trising_cons]
      exact ⟨fun f hf => h.1 f (mem_tdel hf), ih h.2⟩

theorem trising_filter {t : Tab α} (p : Nat × α → Bool) (h : trising t = true) : trising (t.filter p) = true := by
  induction t with
  | nil => simp [trising]
  | cons e t ih =>
    rw [trising_cons] at h
    rw [List.filter_cons]
    split
    · rw [trising_cons]
      exact ⟨fun f hf => h.1 f (List.mem_filter.1 hf).1, ih h.2⟩
    · exact ih h.2

theorem trising_tset [DecidableEq α] {t : Tab α} (i : Nat) (v d : α) (h : trising t = true) :
    trising (tset t i v d) = true := by
  unfold tset; split
  · exact trising_tdel i h
  · exact trising_tput i v h

/-! ### Byte memories -/

@[simp] theorem cellWf_nil (d : Byte) : cellWf [] d = true := rfl

theorem cellWf_cellSet {m : List Host.Cell} {d : Byte} (a : Nat) (v : Byte) (h : cellWf m d = true) :
    cellWf (cellSet m a v d) d = true := by
  simp only [cellWf, Bool.and_eq_true, List.all_eq_true, decide_eq_true_eq] at h ⊢
  refine ⟨trising_tset a v d h.1, fun c hc => ?_⟩
  unfold cellSet tset at hc
  split at hc
  · exact h.2 c (mem_tdel hc)
  · rcases mem_tput hc with rfl | hc
    · assumption
    · exact h.2 c hc

theorem cellWf_cellWrite {d : Byte} (b : Bytes) : ∀ {m : List Host.Cell} (a : Nat), cellWf m d = true →
    cellWf (cellWrite d m a b) d = true := by
  induction b with
  | nil => intro m a h; exact h
  | cons x b ih => intro m a h; exact ih (a + 1) (cellWf_cellSet a x h)

theorem cellWf_filter {m : List Host.Cell} {d : Byte} (p : Host.Cell → Bool) (h : cellWf m d = true) :
    cellWf (m.filter p) d = true := by
  simp only [cellWf, Bool.and_eq_true, List.all_eq_true, decide_eq_true_eq] at h ⊢
  exact ⟨trising_filter p h.1, fun c hc => h.2 c (List.mem_filter.1 hc).1⟩

theorem cellGet_cellSet (m : List Host.Cell) (a b : Nat) (v d : Byte) :
    cellGet (cellSet m a v d) b d = if b = a then v else cellGet m b d :=
  tget_tset m a b v d d (Or.inl rfl)

/-- A byte after a block write: the written byte inside the block, the old byte elsewhere. -/
theorem cellGet_cellWrite (d : Byte) (b : Bytes) : ∀ (m : List Host.Cell) (a x : Nat),
    cellGet (cellWrite d m a b) x d = if a ≤ x ∧ x < a + b.length then b.getD (x - a) 0 else cellGet m x d := by
  induction b with
  | nil => intro m a x; simp [cellWrite]
  | cons y b ih =>
    intro m a x
    rw [cellWrite, ih, cellGet_cellSet]
    by_cases h1 : x = a
    · subst h1; simp
    · by_cases h2 : a + 1 ≤ x ∧ x < a + 1 + b.length
      · have h3 : a ≤ x ∧ x < a + (y :: b).length := by simp; omega
        have h4 : x - a = (x - (a + 1)) + 1 := by omega
        rw [if_pos h2, if_pos h3, h4]; rfl
      · have h3 : ¬ (a ≤ x ∧ x < a + (y :: b).length) := by simp at *; omega
        rw [if_neg h2, if_neg h3, if_neg h1]

theorem cellRead_length (m : List Host.Cell) (d : Byte) (a n : Nat) : (cellRead m d a n).length = n := by
  induction n generalizing a with
  | zero => rfl
  | succ n ih => simp [cellRead, ih]

theorem memWf_memWrite {s : State} (a : Nat) (b : Bytes) (h : memWf s = true) : memWf (s.memWrite a b) = true :=
  cellWf_cellWrite b a h

theorem flashWf_flashWrite {s : State} (a : Nat) (b : Bytes) (h : flashWf s = true) :
    flashWf (s.flashWrite a b) = true := cellWf_cellWrite b a h

/-- What a write of the memories leaves unchanged, and what it stores. -/
theorem memWrite_frame (s : State) (a x : Nat) (b : Bytes) :
    cellGet (s.memWrite a b).mem x memDefault =
      if a ≤ x ∧ x < a + b.length then b.getD (x - a) 0 else cellGet s.mem x memDefault :=
  cellGet_cellWrite memDefault b s.mem a x

end Laws
end Sys2Proof
end

