-- ==== Sys2Proof/Laws/State.lean ====
section
/-!
SUPPORT. The fields of the state after each basic update, and what registers, fields and lanes read after one.
-/
namespace Sys2Proof
namespace Laws

open Sys2Proof.Machine

/-! ### setReg -/

@[simp] theorem setReg_pending (s : State) (a : Nat) (v : Word) : (s.setReg a v).pending = s.pending := rfl
@[simp] theorem setReg_now (s : State) (a : Nat) (v : Word) : (s.setReg a v).now = s.now := rfl
@[simp] theorem setReg_freeCtr (s : State) (a : Nat) (v : Word) : (s.setReg a v).freeCtr = s.freeCtr := rfl
@[simp] theorem setReg_sysTime (s : State) (a : Nat) (v : Word) : (s.setReg a v).sysTime = s.sysTime := rfl
@[simp] theorem setReg_tsOrigin (s : State) (a : Nat) (v : Word) : (s.setReg a v).tsOrigin = s.tsOrigin := rfl
@[simp] theorem setReg_latch (s : State) (a : Nat) (v : Word) : (s.setReg a v).latch = s.latch := rfl
@[simp] theorem setReg_readOut (s : State) (a : Nat) (v : Word) : (s.setReg a v).readOut = s.readOut := rfl
@[simp] theorem setReg_mem (s : State) (a : Nat) (v : Word) : (s.setReg a v).mem = s.mem := rfl
@[simp] theorem setReg_flash (s : State) (a : Nat) (v : Word) : (s.setReg a v).flash = s.flash := rfl
@[simp] theorem setReg_mapCache (s : State) (a : Nat) (v : Word) : (s.setReg a v).mapCache = s.mapCache := rfl
@[simp] theorem setReg_lanes (s : State) (a : Nat) (v : Word) : (s.setReg a v).lanes = s.lanes := rfl
@[simp] theorem setReg_commits (s : State) (a : Nat) (v : Word) : (s.setReg a v).commits = s.commits := rfl
@[simp] theorem setReg_envm (s : State) (a : Nat) (v : Word) : (s.setReg a v).envm = s.envm := rfl
@[simp] theorem setReg_rootArray (s : State) (a : Nat) (v : Word) : (s.setReg a v).rootArray = s.rootArray := rfl
@[simp] theorem setReg_power (s : State) (a : Nat) (v : Word) : (s.setReg a v).power = s.power := rfl
@[simp] theorem setReg_cfg (s : State) (a : Nat) (v : Word) : (s.setReg a v).cfg = s.cfg := rfl
@[simp] theorem setReg_peat (s : State) (a : Nat) (v : Word) : (s.setReg a v).peat = s.peat := rfl
@[simp] theorem setReg_templates (s : State) (a : Nat) (v : Word) : (s.setReg a v).templates = s.templates := rfl
@[simp] theorem setReg_seqLast (s : State) (a : Nat) (v : Word) : (s.setReg a v).seqLast = s.seqLast := rfl
@[simp] theorem setReg_sess (s : State) (a : Nat) (v : Word) : (s.setReg a v).sess = s.sess := rfl
@[simp] theorem setReg_slots (s : State) (a : Nat) (v : Word) : (s.setReg a v).slots = s.slots := rfl
@[simp] theorem setReg_eng (s : State) (a : Nat) (v : Word) : (s.setReg a v).eng = s.eng := rfl
@[simp] theorem setReg_trng (s : State) (a : Nat) (v : Word) : (s.setReg a v).trng = s.trng := rfl
@[simp] theorem setReg_lf (s : State) (a : Nat) (v : Word) : (s.setReg a v).lf = s.lf := rfl
@[simp] theorem setReg_nfc (s : State) (a : Nat) (v : Word) : (s.setReg a v).nfc = s.nfc := rfl
@[simp] theorem setReg_tag (s : State) (a : Nat) (v : Word) : (s.setReg a v).tag = s.tag := rfl
@[simp] theorem setReg_uwb (s : State) (a : Nat) (v : Word) : (s.setReg a v).uwb = s.uwb := rfl
@[simp] theorem setReg_dist (s : State) (a : Nat) (v : Word) : (s.setReg a v).dist = s.dist := rfl
@[simp] theorem setReg_rel (s : State) (a : Nat) (v : Word) : (s.setReg a v).rel = s.rel := rfl
@[simp] theorem setReg_mon (s : State) (a : Nat) (v : Word) : (s.setReg a v).mon = s.mon := rfl
@[simp] theorem setReg_mover (s : State) (a : Nat) (v : Word) : (s.setReg a v).mover = s.mover := rfl
@[simp] theorem setReg_hif (s : State) (a : Nat) (v : Word) : (s.setReg a v).hif = s.hif := rfl
@[simp] theorem setReg_cwy (s : State) (a : Nat) (v : Word) : (s.setReg a v).cwy = s.cwy := rfl
@[simp] theorem setReg_flt (s : State) (a : Nat) (v : Word) : (s.setReg a v).flt = s.flt := rfl
@[simp] theorem setReg_gov (s : State) (a : Nat) (v : Word) : (s.setReg a v).gov = s.gov := rfl
@[simp] theorem setReg_dumpWrote (s : State) (a : Nat) (v : Word) : (s.setReg a v).dumpWrote = s.dumpWrote := rfl
@[simp] theorem setReg_prfAcc (s : State) (a : Nat) (v : Word) : (s.setReg a v).prfAcc = s.prfAcc := rfl
@[simp] theorem setReg_prfBefore (s : State) (a : Nat) (v : Word) : (s.setReg a v).prfBefore = s.prfBefore := rfl
@[simp] theorem setReg_capUnread (s : State) (a : Nat) (v : Word) : (s.setReg a v).capUnread = s.capUnread := rfl
@[simp] theorem setReg_steps (s : State) (a : Nat) (v : Word) : (s.setReg a v).steps = s.steps := rfl
@[simp] theorem setReg_routed (s : State) (a : Nat) (v : Word) : (s.setReg a v).routed = s.routed := rfl
@[simp] theorem setReg_irqs (s : State) (a : Nat) (v : Word) : (s.setReg a v).irqs = s.irqs := rfl

/-! ### srf -/

@[simp] theorem srf_pending (s : State) (a hi lo v : Nat) : (s.srf a hi lo v).pending = s.pending := rfl
@[simp] theorem srf_now (s : State) (a hi lo v : Nat) : (s.srf a hi lo v).now = s.now := rfl
@[simp] theorem srf_freeCtr (s : State) (a hi lo v : Nat) : (s.srf a hi lo v).freeCtr = s.freeCtr := rfl
@[simp] theorem srf_sysTime (s : State) (a hi lo v : Nat) : (s.srf a hi lo v).sysTime = s.sysTime := rfl
@[simp] theorem srf_tsOrigin (s : State) (a hi lo v : Nat) : (s.srf a hi lo v).tsOrigin = s.tsOrigin := rfl
@[simp] theorem srf_latch (s : State) (a hi lo v : Nat) : (s.srf a hi lo v).latch = s.latch := rfl
@[simp] theorem srf_readOut (s : State) (a hi lo v : Nat) : (s.srf a hi lo v).readOut = s.readOut := rfl
@[simp] theorem srf_mem (s : State) (a hi lo v : Nat) : (s.srf a hi lo v).mem = s.mem := rfl
@[simp] theorem srf_flash (s : State) (a hi lo v : Nat) : (s.srf a hi lo v).flash = s.flash := rfl
@[simp] theorem srf_mapCache (s : State) (a hi lo v : Nat) : (s.srf a hi lo v).mapCache = s.mapCache := rfl
@[simp] theorem srf_lanes (s : State) (a hi lo v : Nat) : (s.srf a hi lo v).lanes = s.lanes := rfl
@[simp] theorem srf_commits (s : State) (a hi lo v : Nat) : (s.srf a hi lo v).commits = s.commits := rfl
@[simp] theorem srf_envm (s : State) (a hi lo v : Nat) : (s.srf a hi lo v).envm = s.envm := rfl
@[simp] theorem srf_rootArray (s : State) (a hi lo v : Nat) : (s.srf a hi lo v).rootArray = s.rootArray := rfl
@[simp] theorem srf_power (s : State) (a hi lo v : Nat) : (s.srf a hi lo v).power = s.power := rfl
@[simp] theorem srf_cfg (s : State) (a hi lo v : Nat) : (s.srf a hi lo v).cfg = s.cfg := rfl
@[simp] theorem srf_peat (s : State) (a hi lo v : Nat) : (s.srf a hi lo v).peat = s.peat := rfl
@[simp] theorem srf_templates (s : State) (a hi lo v : Nat) : (s.srf a hi lo v).templates = s.templates := rfl
@[simp] theorem srf_seqLast (s : State) (a hi lo v : Nat) : (s.srf a hi lo v).seqLast = s.seqLast := rfl
@[simp] theorem srf_sess (s : State) (a hi lo v : Nat) : (s.srf a hi lo v).sess = s.sess := rfl
@[simp] theorem srf_slots (s : State) (a hi lo v : Nat) : (s.srf a hi lo v).slots = s.slots := rfl
@[simp] theorem srf_eng (s : State) (a hi lo v : Nat) : (s.srf a hi lo v).eng = s.eng := rfl
@[simp] theorem srf_trng (s : State) (a hi lo v : Nat) : (s.srf a hi lo v).trng = s.trng := rfl
@[simp] theorem srf_lf (s : State) (a hi lo v : Nat) : (s.srf a hi lo v).lf = s.lf := rfl
@[simp] theorem srf_nfc (s : State) (a hi lo v : Nat) : (s.srf a hi lo v).nfc = s.nfc := rfl
@[simp] theorem srf_tag (s : State) (a hi lo v : Nat) : (s.srf a hi lo v).tag = s.tag := rfl
@[simp] theorem srf_uwb (s : State) (a hi lo v : Nat) : (s.srf a hi lo v).uwb = s.uwb := rfl
@[simp] theorem srf_dist (s : State) (a hi lo v : Nat) : (s.srf a hi lo v).dist = s.dist := rfl
@[simp] theorem srf_rel (s : State) (a hi lo v : Nat) : (s.srf a hi lo v).rel = s.rel := rfl
@[simp] theorem srf_mon (s : State) (a hi lo v : Nat) : (s.srf a hi lo v).mon = s.mon := rfl
@[simp] theorem srf_mover (s : State) (a hi lo v : Nat) : (s.srf a hi lo v).mover = s.mover := rfl
@[simp] theorem srf_hif (s : State) (a hi lo v : Nat) : (s.srf a hi lo v).hif = s.hif := rfl
@[simp] theorem srf_cwy (s : State) (a hi lo v : Nat) : (s.srf a hi lo v).cwy = s.cwy := rfl
@[simp] theorem srf_flt (s : State) (a hi lo v : Nat) : (s.srf a hi lo v).flt = s.flt := rfl
@[simp] theorem srf_gov (s : State) (a hi lo v : Nat) : (s.srf a hi lo v).gov = s.gov := rfl
@[simp] theorem srf_dumpWrote (s : State) (a hi lo v : Nat) : (s.srf a hi lo v).dumpWrote = s.dumpWrote := rfl
@[simp] theorem srf_prfAcc (s : State) (a hi lo v : Nat) : (s.srf a hi lo v).prfAcc = s.prfAcc := rfl
@[simp] theorem srf_prfBefore (s : State) (a hi lo v : Nat) : (s.srf a hi lo v).prfBefore = s.prfBefore := rfl
@[simp] theorem srf_capUnread (s : State) (a hi lo v : Nat) : (s.srf a hi lo v).capUnread = s.capUnread := rfl
@[simp] theorem srf_steps (s : State) (a hi lo v : Nat) : (s.srf a hi lo v).steps = s.steps := rfl
@[simp] theorem srf_routed (s : State) (a hi lo v : Nat) : (s.srf a hi lo v).routed = s.routed := rfl
@[simp] theorem srf_irqs (s : State) (a hi lo v : Nat) : (s.srf a hi lo v).irqs = s.irqs := rfl

/-! ### srb -/

@[simp] theorem srb_pending (s : State) (a i : Nat) (b : Bool) : (s.srb a i b).pending = s.pending := rfl
@[simp] theorem srb_now (s : State) (a i : Nat) (b : Bool) : (s.srb a i b).now = s.now := rfl
@[simp] theorem srb_freeCtr (s : State) (a i : Nat) (b : Bool) : (s.srb a i b).freeCtr = s.freeCtr := rfl
@[simp] theorem srb_sysTime (s : State) (a i : Nat) (b : Bool) : (s.srb a i b).sysTime = s.sysTime := rfl
@[simp] theorem srb_tsOrigin (s : State) (a i : Nat) (b : Bool) : (s.srb a i b).tsOrigin = s.tsOrigin := rfl
@[simp] theorem srb_latch (s : State) (a i : Nat) (b : Bool) : (s.srb a i b).latch = s.latch := rfl
@[simp] theorem srb_readOut (s : State) (a i : Nat) (b : Bool) : (s.srb a i b).readOut = s.readOut := rfl
@[simp] theorem srb_mem (s : State) (a i : Nat) (b : Bool) : (s.srb a i b).mem = s.mem := rfl
@[simp] theorem srb_flash (s : State) (a i : Nat) (b : Bool) : (s.srb a i b).flash = s.flash := rfl
@[simp] theorem srb_mapCache (s : State) (a i : Nat) (b : Bool) : (s.srb a i b).mapCache = s.mapCache := rfl
@[simp] theorem srb_lanes (s : State) (a i : Nat) (b : Bool) : (s.srb a i b).lanes = s.lanes := rfl
@[simp] theorem srb_commits (s : State) (a i : Nat) (b : Bool) : (s.srb a i b).commits = s.commits := rfl
@[simp] theorem srb_envm (s : State) (a i : Nat) (b : Bool) : (s.srb a i b).envm = s.envm := rfl
@[simp] theorem srb_rootArray (s : State) (a i : Nat) (b : Bool) : (s.srb a i b).rootArray = s.rootArray := rfl
@[simp] theorem srb_power (s : State) (a i : Nat) (b : Bool) : (s.srb a i b).power = s.power := rfl
@[simp] theorem srb_cfg (s : State) (a i : Nat) (b : Bool) : (s.srb a i b).cfg = s.cfg := rfl
@[simp] theorem srb_peat (s : State) (a i : Nat) (b : Bool) : (s.srb a i b).peat = s.peat := rfl
@[simp] theorem srb_templates (s : State) (a i : Nat) (b : Bool) : (s.srb a i b).templates = s.templates := rfl
@[simp] theorem srb_seqLast (s : State) (a i : Nat) (b : Bool) : (s.srb a i b).seqLast = s.seqLast := rfl
@[simp] theorem srb_sess (s : State) (a i : Nat) (b : Bool) : (s.srb a i b).sess = s.sess := rfl
@[simp] theorem srb_slots (s : State) (a i : Nat) (b : Bool) : (s.srb a i b).slots = s.slots := rfl
@[simp] theorem srb_eng (s : State) (a i : Nat) (b : Bool) : (s.srb a i b).eng = s.eng := rfl
@[simp] theorem srb_trng (s : State) (a i : Nat) (b : Bool) : (s.srb a i b).trng = s.trng := rfl
@[simp] theorem srb_lf (s : State) (a i : Nat) (b : Bool) : (s.srb a i b).lf = s.lf := rfl
@[simp] theorem srb_nfc (s : State) (a i : Nat) (b : Bool) : (s.srb a i b).nfc = s.nfc := rfl
@[simp] theorem srb_tag (s : State) (a i : Nat) (b : Bool) : (s.srb a i b).tag = s.tag := rfl
@[simp] theorem srb_uwb (s : State) (a i : Nat) (b : Bool) : (s.srb a i b).uwb = s.uwb := rfl
@[simp] theorem srb_dist (s : State) (a i : Nat) (b : Bool) : (s.srb a i b).dist = s.dist := rfl
@[simp] theorem srb_rel (s : State) (a i : Nat) (b : Bool) : (s.srb a i b).rel = s.rel := rfl
@[simp] theorem srb_mon (s : State) (a i : Nat) (b : Bool) : (s.srb a i b).mon = s.mon := rfl
@[simp] theorem srb_mover (s : State) (a i : Nat) (b : Bool) : (s.srb a i b).mover = s.mover := rfl
@[simp] theorem srb_hif (s : State) (a i : Nat) (b : Bool) : (s.srb a i b).hif = s.hif := rfl
@[simp] theorem srb_cwy (s : State) (a i : Nat) (b : Bool) : (s.srb a i b).cwy = s.cwy := rfl
@[simp] theorem srb_flt (s : State) (a i : Nat) (b : Bool) : (s.srb a i b).flt = s.flt := rfl
@[simp] theorem srb_gov (s : State) (a i : Nat) (b : Bool) : (s.srb a i b).gov = s.gov := rfl
@[simp] theorem srb_dumpWrote (s : State) (a i : Nat) (b : Bool) : (s.srb a i b).dumpWrote = s.dumpWrote := rfl
@[simp] theorem srb_prfAcc (s : State) (a i : Nat) (b : Bool) : (s.srb a i b).prfAcc = s.prfAcc := rfl
@[simp] theorem srb_prfBefore (s : State) (a i : Nat) (b : Bool) : (s.srb a i b).prfBefore = s.prfBefore := rfl
@[simp] theorem srb_capUnread (s : State) (a i : Nat) (b : Bool) : (s.srb a i b).capUnread = s.capUnread := rfl
@[simp] theorem srb_steps (s : State) (a i : Nat) (b : Bool) : (s.srb a i b).steps = s.steps := rfl
@[simp] theorem srb_routed (s : State) (a i : Nat) (b : Bool) : (s.srb a i b).routed = s.routed := rfl
@[simp] theorem srb_irqs (s : State) (a i : Nat) (b : Bool) : (s.srb a i b).irqs = s.irqs := rfl

/-! ### bump -/

@[simp] theorem bump_pending (s : State) (a hi lo n : Nat) : (s.bump a hi lo n).pending = s.pending := rfl
@[simp] theorem bump_now (s : State) (a hi lo n : Nat) : (s.bump a hi lo n).now = s.now := rfl
@[simp] theorem bump_freeCtr (s : State) (a hi lo n : Nat) : (s.bump a hi lo n).freeCtr = s.freeCtr := rfl
@[simp] theorem bump_sysTime (s : State) (a hi lo n : Nat) : (s.bump a hi lo n).sysTime = s.sysTime := rfl
@[simp] theorem bump_tsOrigin (s : State) (a hi lo n : Nat) : (s.bump a hi lo n).tsOrigin = s.tsOrigin := rfl
@[simp] theorem bump_latch (s : State) (a hi lo n : Nat) : (s.bump a hi lo n).latch = s.latch := rfl
@[simp] theorem bump_readOut (s : State) (a hi lo n : Nat) : (s.bump a hi lo n).readOut = s.readOut := rfl
@[simp] theorem bump_mem (s : State) (a hi lo n : Nat) : (s.bump a hi lo n).mem = s.mem := rfl
@[simp] theorem bump_flash (s : State) (a hi lo n : Nat) : (s.bump a hi lo n).flash = s.flash := rfl
@[simp] theorem bump_mapCache (s : State) (a hi lo n : Nat) : (s.bump a hi lo n).mapCache = s.mapCache := rfl
@[simp] theorem bump_lanes (s : State) (a hi lo n : Nat) : (s.bump a hi lo n).lanes = s.lanes := rfl
@[simp] theorem bump_commits (s : State) (a hi lo n : Nat) : (s.bump a hi lo n).commits = s.commits := rfl
@[simp] theorem bump_envm (s : State) (a hi lo n : Nat) : (s.bump a hi lo n).envm = s.envm := rfl
@[simp] theorem bump_rootArray (s : State) (a hi lo n : Nat) : (s.bump a hi lo n).rootArray = s.rootArray := rfl
@[simp] theorem bump_power (s : State) (a hi lo n : Nat) : (s.bump a hi lo n).power = s.power := rfl
@[simp] theorem bump_cfg (s : State) (a hi lo n : Nat) : (s.bump a hi lo n).cfg = s.cfg := rfl
@[simp] theorem bump_peat (s : State) (a hi lo n : Nat) : (s.bump a hi lo n).peat = s.peat := rfl
@[simp] theorem bump_templates (s : State) (a hi lo n : Nat) : (s.bump a hi lo n).templates = s.templates := rfl
@[simp] theorem bump_seqLast (s : State) (a hi lo n : Nat) : (s.bump a hi lo n).seqLast = s.seqLast := rfl
@[simp] theorem bump_sess (s : State) (a hi lo n : Nat) : (s.bump a hi lo n).sess = s.sess := rfl
@[simp] theorem bump_slots (s : State) (a hi lo n : Nat) : (s.bump a hi lo n).slots = s.slots := rfl
@[simp] theorem bump_eng (s : State) (a hi lo n : Nat) : (s.bump a hi lo n).eng = s.eng := rfl
@[simp] theorem bump_trng (s : State) (a hi lo n : Nat) : (s.bump a hi lo n).trng = s.trng := rfl
@[simp] theorem bump_lf (s : State) (a hi lo n : Nat) : (s.bump a hi lo n).lf = s.lf := rfl
@[simp] theorem bump_nfc (s : State) (a hi lo n : Nat) : (s.bump a hi lo n).nfc = s.nfc := rfl
@[simp] theorem bump_tag (s : State) (a hi lo n : Nat) : (s.bump a hi lo n).tag = s.tag := rfl
@[simp] theorem bump_uwb (s : State) (a hi lo n : Nat) : (s.bump a hi lo n).uwb = s.uwb := rfl
@[simp] theorem bump_dist (s : State) (a hi lo n : Nat) : (s.bump a hi lo n).dist = s.dist := rfl
@[simp] theorem bump_rel (s : State) (a hi lo n : Nat) : (s.bump a hi lo n).rel = s.rel := rfl
@[simp] theorem bump_mon (s : State) (a hi lo n : Nat) : (s.bump a hi lo n).mon = s.mon := rfl
@[simp] theorem bump_mover (s : State) (a hi lo n : Nat) : (s.bump a hi lo n).mover = s.mover := rfl
@[simp] theorem bump_hif (s : State) (a hi lo n : Nat) : (s.bump a hi lo n).hif = s.hif := rfl
@[simp] theorem bump_cwy (s : State) (a hi lo n : Nat) : (s.bump a hi lo n).cwy = s.cwy := rfl
@[simp] theorem bump_flt (s : State) (a hi lo n : Nat) : (s.bump a hi lo n).flt = s.flt := rfl
@[simp] theorem bump_gov (s : State) (a hi lo n : Nat) : (s.bump a hi lo n).gov = s.gov := rfl
@[simp] theorem bump_dumpWrote (s : State) (a hi lo n : Nat) : (s.bump a hi lo n).dumpWrote = s.dumpWrote := rfl
@[simp] theorem bump_prfAcc (s : State) (a hi lo n : Nat) : (s.bump a hi lo n).prfAcc = s.prfAcc := rfl
@[simp] theorem bump_prfBefore (s : State) (a hi lo n : Nat) : (s.bump a hi lo n).prfBefore = s.prfBefore := rfl
@[simp] theorem bump_capUnread (s : State) (a hi lo n : Nat) : (s.bump a hi lo n).capUnread = s.capUnread := rfl
@[simp] theorem bump_steps (s : State) (a hi lo n : Nat) : (s.bump a hi lo n).steps = s.steps := rfl
@[simp] theorem bump_routed (s : State) (a hi lo n : Nat) : (s.bump a hi lo n).routed = s.routed := rfl
@[simp] theorem bump_irqs (s : State) (a hi lo n : Nat) : (s.bump a hi lo n).irqs = s.irqs := rfl

/-! ### bumpSat -/

@[simp] theorem bumpSat_pending (s : State) (a hi lo n : Nat) : (s.bumpSat a hi lo n).pending = s.pending := rfl
@[simp] theorem bumpSat_now (s : State) (a hi lo n : Nat) : (s.bumpSat a hi lo n).now = s.now := rfl
@[simp] theorem bumpSat_freeCtr (s : State) (a hi lo n : Nat) : (s.bumpSat a hi lo n).freeCtr = s.freeCtr := rfl
@[simp] theorem bumpSat_sysTime (s : State) (a hi lo n : Nat) : (s.bumpSat a hi lo n).sysTime = s.sysTime := rfl
@[simp] theorem bumpSat_tsOrigin (s : State) (a hi lo n : Nat) : (s.bumpSat a hi lo n).tsOrigin = s.tsOrigin := rfl
@[simp] theorem bumpSat_latch (s : State) (a hi lo n : Nat) : (s.bumpSat a hi lo n).latch = s.latch := rfl
@[simp] theorem bumpSat_readOut (s : State) (a hi lo n : Nat) : (s.bumpSat a hi lo n).readOut = s.readOut := rfl
@[simp] theorem bumpSat_mem (s : State) (a hi lo n : Nat) : (s.bumpSat a hi lo n).mem = s.mem := rfl
@[simp] theorem bumpSat_flash (s : State) (a hi lo n : Nat) : (s.bumpSat a hi lo n).flash = s.flash := rfl
@[simp] theorem bumpSat_mapCache (s : State) (a hi lo n : Nat) : (s.bumpSat a hi lo n).mapCache = s.mapCache := rfl
@[simp] theorem bumpSat_lanes (s : State) (a hi lo n : Nat) : (s.bumpSat a hi lo n).lanes = s.lanes := rfl
@[simp] theorem bumpSat_commits (s : State) (a hi lo n : Nat) : (s.bumpSat a hi lo n).commits = s.commits := rfl
@[simp] theorem bumpSat_envm (s : State) (a hi lo n : Nat) : (s.bumpSat a hi lo n).envm = s.envm := rfl
@[simp] theorem bumpSat_rootArray (s : State) (a hi lo n : Nat) : (s.bumpSat a hi lo n).rootArray = s.rootArray := rfl
@[simp] theorem bumpSat_power (s : State) (a hi lo n : Nat) : (s.bumpSat a hi lo n).power = s.power := rfl
@[simp] theorem bumpSat_cfg (s : State) (a hi lo n : Nat) : (s.bumpSat a hi lo n).cfg = s.cfg := rfl
@[simp] theorem bumpSat_peat (s : State) (a hi lo n : Nat) : (s.bumpSat a hi lo n).peat = s.peat := rfl
@[simp] theorem bumpSat_templates (s : State) (a hi lo n : Nat) : (s.bumpSat a hi lo n).templates = s.templates := rfl
@[simp] theorem bumpSat_seqLast (s : State) (a hi lo n : Nat) : (s.bumpSat a hi lo n).seqLast = s.seqLast := rfl
@[simp] theorem bumpSat_sess (s : State) (a hi lo n : Nat) : (s.bumpSat a hi lo n).sess = s.sess := rfl
@[simp] theorem bumpSat_slots (s : State) (a hi lo n : Nat) : (s.bumpSat a hi lo n).slots = s.slots := rfl
@[simp] theorem bumpSat_eng (s : State) (a hi lo n : Nat) : (s.bumpSat a hi lo n).eng = s.eng := rfl
@[simp] theorem bumpSat_trng (s : State) (a hi lo n : Nat) : (s.bumpSat a hi lo n).trng = s.trng := rfl
@[simp] theorem bumpSat_lf (s : State) (a hi lo n : Nat) : (s.bumpSat a hi lo n).lf = s.lf := rfl
@[simp] theorem bumpSat_nfc (s : State) (a hi lo n : Nat) : (s.bumpSat a hi lo n).nfc = s.nfc := rfl
@[simp] theorem bumpSat_tag (s : State) (a hi lo n : Nat) : (s.bumpSat a hi lo n).tag = s.tag := rfl
@[simp] theorem bumpSat_uwb (s : State) (a hi lo n : Nat) : (s.bumpSat a hi lo n).uwb = s.uwb := rfl
@[simp] theorem bumpSat_dist (s : State) (a hi lo n : Nat) : (s.bumpSat a hi lo n).dist = s.dist := rfl
@[simp] theorem bumpSat_rel (s : State) (a hi lo n : Nat) : (s.bumpSat a hi lo n).rel = s.rel := rfl
@[simp] theorem bumpSat_mon (s : State) (a hi lo n : Nat) : (s.bumpSat a hi lo n).mon = s.mon := rfl
@[simp] theorem bumpSat_mover (s : State) (a hi lo n : Nat) : (s.bumpSat a hi lo n).mover = s.mover := rfl
@[simp] theorem bumpSat_hif (s : State) (a hi lo n : Nat) : (s.bumpSat a hi lo n).hif = s.hif := rfl
@[simp] theorem bumpSat_cwy (s : State) (a hi lo n : Nat) : (s.bumpSat a hi lo n).cwy = s.cwy := rfl
@[simp] theorem bumpSat_flt (s : State) (a hi lo n : Nat) : (s.bumpSat a hi lo n).flt = s.flt := rfl
@[simp] theorem bumpSat_gov (s : State) (a hi lo n : Nat) : (s.bumpSat a hi lo n).gov = s.gov := rfl
@[simp] theorem bumpSat_dumpWrote (s : State) (a hi lo n : Nat) : (s.bumpSat a hi lo n).dumpWrote = s.dumpWrote := rfl
@[simp] theorem bumpSat_prfAcc (s : State) (a hi lo n : Nat) : (s.bumpSat a hi lo n).prfAcc = s.prfAcc := rfl
@[simp] theorem bumpSat_prfBefore (s : State) (a hi lo n : Nat) : (s.bumpSat a hi lo n).prfBefore = s.prfBefore := rfl
@[simp] theorem bumpSat_capUnread (s : State) (a hi lo n : Nat) : (s.bumpSat a hi lo n).capUnread = s.capUnread := rfl
@[simp] theorem bumpSat_steps (s : State) (a hi lo n : Nat) : (s.bumpSat a hi lo n).steps = s.steps := rfl
@[simp] theorem bumpSat_routed (s : State) (a hi lo n : Nat) : (s.bumpSat a hi lo n).routed = s.routed := rfl
@[simp] theorem bumpSat_irqs (s : State) (a hi lo n : Nat) : (s.bumpSat a hi lo n).irqs = s.irqs := rfl

/-! ### memWrite -/

@[simp] theorem memWrite_pending (s : State) (a : Nat) (b : Bytes) : (s.memWrite a b).pending = s.pending := rfl
@[simp] theorem memWrite_now (s : State) (a : Nat) (b : Bytes) : (s.memWrite a b).now = s.now := rfl
@[simp] theorem memWrite_freeCtr (s : State) (a : Nat) (b : Bytes) : (s.memWrite a b).freeCtr = s.freeCtr := rfl
@[simp] theorem memWrite_sysTime (s : State) (a : Nat) (b : Bytes) : (s.memWrite a b).sysTime = s.sysTime := rfl
@[simp] theorem memWrite_tsOrigin (s : State) (a : Nat) (b : Bytes) : (s.memWrite a b).tsOrigin = s.tsOrigin := rfl
@[simp] theorem memWrite_regs (s : State) (a : Nat) (b : Bytes) : (s.memWrite a b).regs = s.regs := rfl
@[simp] theorem memWrite_latch (s : State) (a : Nat) (b : Bytes) : (s.memWrite a b).latch = s.latch := rfl
@[simp] theorem memWrite_readOut (s : State) (a : Nat) (b : Bytes) : (s.memWrite a b).readOut = s.readOut := rfl
@[simp] theorem memWrite_flash (s : State) (a : Nat) (b : Bytes) : (s.memWrite a b).flash = s.flash := rfl
@[simp] theorem memWrite_mapCache (s : State) (a : Nat) (b : Bytes) : (s.memWrite a b).mapCache = s.mapCache := rfl
@[simp] theorem memWrite_lanes (s : State) (a : Nat) (b : Bytes) : (s.memWrite a b).lanes = s.lanes := rfl
@[simp] theorem memWrite_commits (s : State) (a : Nat) (b : Bytes) : (s.memWrite a b).commits = s.commits := rfl
@[simp] theorem memWrite_envm (s : State) (a : Nat) (b : Bytes) : (s.memWrite a b).envm = s.envm := rfl
@[simp] theorem memWrite_rootArray (s : State) (a : Nat) (b : Bytes) : (s.memWrite a b).rootArray = s.rootArray := rfl
@[simp] theorem memWrite_power (s : State) (a : Nat) (b : Bytes) : (s.memWrite a b).power = s.power := rfl
@[simp] theorem memWrite_cfg (s : State) (a : Nat) (b : Bytes) : (s.memWrite a b).cfg = s.cfg := rfl
@[simp] theorem memWrite_peat (s : State) (a : Nat) (b : Bytes) : (s.memWrite a b).peat = s.peat := rfl
@[simp] theorem memWrite_templates (s : State) (a : Nat) (b : Bytes) : (s.memWrite a b).templates = s.templates := rfl
@[simp] theorem memWrite_seqLast (s : State) (a : Nat) (b : Bytes) : (s.memWrite a b).seqLast = s.seqLast := rfl
@[simp] theorem memWrite_sess (s : State) (a : Nat) (b : Bytes) : (s.memWrite a b).sess = s.sess := rfl
@[simp] theorem memWrite_slots (s : State) (a : Nat) (b : Bytes) : (s.memWrite a b).slots = s.slots := rfl
@[simp] theorem memWrite_eng (s : State) (a : Nat) (b : Bytes) : (s.memWrite a b).eng = s.eng := rfl
@[simp] theorem memWrite_trng (s : State) (a : Nat) (b : Bytes) : (s.memWrite a b).trng = s.trng := rfl
@[simp] theorem memWrite_lf (s : State) (a : Nat) (b : Bytes) : (s.memWrite a b).lf = s.lf := rfl
@[simp] theorem memWrite_nfc (s : State) (a : Nat) (b : Bytes) : (s.memWrite a b).nfc = s.nfc := rfl
@[simp] theorem memWrite_tag (s : State) (a : Nat) (b : Bytes) : (s.memWrite a b).tag = s.tag := rfl
@[simp] theorem memWrite_uwb (s : State) (a : Nat) (b : Bytes) : (s.memWrite a b).uwb = s.uwb := rfl
@[simp] theorem memWrite_dist (s : State) (a : Nat) (b : Bytes) : (s.memWrite a b).dist = s.dist := rfl
@[simp] theorem memWrite_rel (s : State) (a : Nat) (b : Bytes) : (s.memWrite a b).rel = s.rel := rfl
@[simp] theorem memWrite_mon (s : State) (a : Nat) (b : Bytes) : (s.memWrite a b).mon = s.mon := rfl
@[simp] theorem memWrite_mover (s : State) (a : Nat) (b : Bytes) : (s.memWrite a b).mover = s.mover := rfl
@[simp] theorem memWrite_hif (s : State) (a : Nat) (b : Bytes) : (s.memWrite a b).hif = s.hif := rfl
@[simp] theorem memWrite_cwy (s : State) (a : Nat) (b : Bytes) : (s.memWrite a b).cwy = s.cwy := rfl
@[simp] theorem memWrite_flt (s : State) (a : Nat) (b : Bytes) : (s.memWrite a b).flt = s.flt := rfl
@[simp] theorem memWrite_gov (s : State) (a : Nat) (b : Bytes) : (s.memWrite a b).gov = s.gov := rfl
@[simp] theorem memWrite_dumpWrote (s : State) (a : Nat) (b : Bytes) : (s.memWrite a b).dumpWrote = s.dumpWrote := rfl
@[simp] theorem memWrite_prfAcc (s : State) (a : Nat) (b : Bytes) : (s.memWrite a b).prfAcc = s.prfAcc := rfl
@[simp] theorem memWrite_prfBefore (s : State) (a : Nat) (b : Bytes) : (s.memWrite a b).prfBefore = s.prfBefore := rfl
@[simp] theorem memWrite_capUnread (s : State) (a : Nat) (b : Bytes) : (s.memWrite a b).capUnread = s.capUnread := rfl
@[simp] theorem memWrite_steps (s : State) (a : Nat) (b : Bytes) : (s.memWrite a b).steps = s.steps := rfl
@[simp] theorem memWrite_routed (s : State) (a : Nat) (b : Bytes) : (s.memWrite a b).routed = s.routed := rfl
@[simp] theorem memWrite_irqs (s : State) (a : Nat) (b : Bytes) : (s.memWrite a b).irqs = s.irqs := rfl

/-! ### flashWrite -/

@[simp] theorem flashWrite_pending (s : State) (a : Nat) (b : Bytes) : (s.flashWrite a b).pending = s.pending := rfl
@[simp] theorem flashWrite_now (s : State) (a : Nat) (b : Bytes) : (s.flashWrite a b).now = s.now := rfl
@[simp] theorem flashWrite_freeCtr (s : State) (a : Nat) (b : Bytes) : (s.flashWrite a b).freeCtr = s.freeCtr := rfl
@[simp] theorem flashWrite_sysTime (s : State) (a : Nat) (b : Bytes) : (s.flashWrite a b).sysTime = s.sysTime := rfl
@[simp] theorem flashWrite_tsOrigin (s : State) (a : Nat) (b : Bytes) : (s.flashWrite a b).tsOrigin = s.tsOrigin := rfl
@[simp] theorem flashWrite_regs (s : State) (a : Nat) (b : Bytes) : (s.flashWrite a b).regs = s.regs := rfl
@[simp] theorem flashWrite_latch (s : State) (a : Nat) (b : Bytes) : (s.flashWrite a b).latch = s.latch := rfl
@[simp] theorem flashWrite_readOut (s : State) (a : Nat) (b : Bytes) : (s.flashWrite a b).readOut = s.readOut := rfl
@[simp] theorem flashWrite_mem (s : State) (a : Nat) (b : Bytes) : (s.flashWrite a b).mem = s.mem := rfl
@[simp] theorem flashWrite_mapCache (s : State) (a : Nat) (b : Bytes) : (s.flashWrite a b).mapCache = s.mapCache := rfl
@[simp] theorem flashWrite_lanes (s : State) (a : Nat) (b : Bytes) : (s.flashWrite a b).lanes = s.lanes := rfl
@[simp] theorem flashWrite_commits (s : State) (a : Nat) (b : Bytes) : (s.flashWrite a b).commits = s.commits := rfl
@[simp] theorem flashWrite_envm (s : State) (a : Nat) (b : Bytes) : (s.flashWrite a b).envm = s.envm := rfl
@[simp] theorem flashWrite_rootArray (s : State) (a : Nat) (b : Bytes) : (s.flashWrite a b).rootArray = s.rootArray := rfl
@[simp] theorem flashWrite_power (s : State) (a : Nat) (b : Bytes) : (s.flashWrite a b).power = s.power := rfl
@[simp] theorem flashWrite_cfg (s : State) (a : Nat) (b : Bytes) : (s.flashWrite a b).cfg = s.cfg := rfl
@[simp] theorem flashWrite_peat (s : State) (a : Nat) (b : Bytes) : (s.flashWrite a b).peat = s.peat := rfl
@[simp] theorem flashWrite_templates (s : State) (a : Nat) (b : Bytes) : (s.flashWrite a b).templates = s.templates := rfl
@[simp] theorem flashWrite_seqLast (s : State) (a : Nat) (b : Bytes) : (s.flashWrite a b).seqLast = s.seqLast := rfl
@[simp] theorem flashWrite_sess (s : State) (a : Nat) (b : Bytes) : (s.flashWrite a b).sess = s.sess := rfl
@[simp] theorem flashWrite_slots (s : State) (a : Nat) (b : Bytes) : (s.flashWrite a b).slots = s.slots := rfl
@[simp] theorem flashWrite_eng (s : State) (a : Nat) (b : Bytes) : (s.flashWrite a b).eng = s.eng := rfl
@[simp] theorem flashWrite_trng (s : State) (a : Nat) (b : Bytes) : (s.flashWrite a b).trng = s.trng := rfl
@[simp] theorem flashWrite_lf (s : State) (a : Nat) (b : Bytes) : (s.flashWrite a b).lf = s.lf := rfl
@[simp] theorem flashWrite_nfc (s : State) (a : Nat) (b : Bytes) : (s.flashWrite a b).nfc = s.nfc := rfl
@[simp] theorem flashWrite_tag (s : State) (a : Nat) (b : Bytes) : (s.flashWrite a b).tag = s.tag := rfl
@[simp] theorem flashWrite_uwb (s : State) (a : Nat) (b : Bytes) : (s.flashWrite a b).uwb = s.uwb := rfl
@[simp] theorem flashWrite_dist (s : State) (a : Nat) (b : Bytes) : (s.flashWrite a b).dist = s.dist := rfl
@[simp] theorem flashWrite_rel (s : State) (a : Nat) (b : Bytes) : (s.flashWrite a b).rel = s.rel := rfl
@[simp] theorem flashWrite_mon (s : State) (a : Nat) (b : Bytes) : (s.flashWrite a b).mon = s.mon := rfl
@[simp] theorem flashWrite_mover (s : State) (a : Nat) (b : Bytes) : (s.flashWrite a b).mover = s.mover := rfl
@[simp] theorem flashWrite_hif (s : State) (a : Nat) (b : Bytes) : (s.flashWrite a b).hif = s.hif := rfl
@[simp] theorem flashWrite_cwy (s : State) (a : Nat) (b : Bytes) : (s.flashWrite a b).cwy = s.cwy := rfl
@[simp] theorem flashWrite_flt (s : State) (a : Nat) (b : Bytes) : (s.flashWrite a b).flt = s.flt := rfl
@[simp] theorem flashWrite_gov (s : State) (a : Nat) (b : Bytes) : (s.flashWrite a b).gov = s.gov := rfl
@[simp] theorem flashWrite_dumpWrote (s : State) (a : Nat) (b : Bytes) : (s.flashWrite a b).dumpWrote = s.dumpWrote := rfl
@[simp] theorem flashWrite_prfAcc (s : State) (a : Nat) (b : Bytes) : (s.flashWrite a b).prfAcc = s.prfAcc := rfl
@[simp] theorem flashWrite_prfBefore (s : State) (a : Nat) (b : Bytes) : (s.flashWrite a b).prfBefore = s.prfBefore := rfl
@[simp] theorem flashWrite_capUnread (s : State) (a : Nat) (b : Bytes) : (s.flashWrite a b).capUnread = s.capUnread := rfl
@[simp] theorem flashWrite_steps (s : State) (a : Nat) (b : Bytes) : (s.flashWrite a b).steps = s.steps := rfl
@[simp] theorem flashWrite_routed (s : State) (a : Nat) (b : Bytes) : (s.flashWrite a b).routed = s.routed := rfl
@[simp] theorem flashWrite_irqs (s : State) (a : Nat) (b : Bytes) : (s.flashWrite a b).irqs = s.irqs := rfl

/-! ### raise -/

@[simp] theorem raise_pending (s : State) (i : Irq) : (s.raise i).pending = s.pending := rfl
@[simp] theorem raise_now (s : State) (i : Irq) : (s.raise i).now = s.now := rfl
@[simp] theorem raise_freeCtr (s : State) (i : Irq) : (s.raise i).freeCtr = s.freeCtr := rfl
@[simp] theorem raise_sysTime (s : State) (i : Irq) : (s.raise i).sysTime = s.sysTime := rfl
@[simp] theorem raise_tsOrigin (s : State) (i : Irq) : (s.raise i).tsOrigin = s.tsOrigin := rfl
@[simp] theorem raise_regs (s : State) (i : Irq) : (s.raise i).regs = s.regs := rfl
@[simp] theorem raise_latch (s : State) (i : Irq) : (s.raise i).latch = s.latch := rfl
@[simp] theorem raise_readOut (s : State) (i : Irq) : (s.raise i).readOut = s.readOut := rfl
@[simp] theorem raise_mem (s : State) (i : Irq) : (s.raise i).mem = s.mem := rfl
@[simp] theorem raise_flash (s : State) (i : Irq) : (s.raise i).flash = s.flash := rfl
@[simp] theorem raise_mapCache (s : State) (i : Irq) : (s.raise i).mapCache = s.mapCache := rfl
@[simp] theorem raise_lanes (s : State) (i : Irq) : (s.raise i).lanes = s.lanes := rfl
@[simp] theorem raise_commits (s : State) (i : Irq) : (s.raise i).commits = s.commits := rfl
@[simp] theorem raise_envm (s : State) (i : Irq) : (s.raise i).envm = s.envm := rfl
@[simp] theorem raise_rootArray (s : State) (i : Irq) : (s.raise i).rootArray = s.rootArray := rfl
@[simp] theorem raise_power (s : State) (i : Irq) : (s.raise i).power = s.power := rfl
@[simp] theorem raise_cfg (s : State) (i : Irq) : (s.raise i).cfg = s.cfg := rfl
@[simp] theorem raise_peat (s : State) (i : Irq) : (s.raise i).peat = s.peat := rfl
@[simp] theorem raise_templates (s : State) (i : Irq) : (s.raise i).templates = s.templates := rfl
@[simp] theorem raise_seqLast (s : State) (i : Irq) : (s.raise i).seqLast = s.seqLast := rfl
@[simp] theorem raise_sess (s : State) (i : Irq) : (s.raise i).sess = s.sess := rfl
@[simp] theorem raise_slots (s : State) (i : Irq) : (s.raise i).slots = s.slots := rfl
@[simp] theorem raise_eng (s : State) (i : Irq) : (s.raise i).eng = s.eng := rfl
@[simp] theorem raise_trng (s : State) (i : Irq) : (s.raise i).trng = s.trng := rfl
@[simp] theorem raise_lf (s : State) (i : Irq) : (s.raise i).lf = s.lf := rfl
@[simp] theorem raise_nfc (s : State) (i : Irq) : (s.raise i).nfc = s.nfc := rfl
@[simp] theorem raise_tag (s : State) (i : Irq) : (s.raise i).tag = s.tag := rfl
@[simp] theorem raise_uwb (s : State) (i : Irq) : (s.raise i).uwb = s.uwb := rfl
@[simp] theorem raise_dist (s : State) (i : Irq) : (s.raise i).dist = s.dist := rfl
@[simp] theorem raise_rel (s : State) (i : Irq) : (s.raise i).rel = s.rel := rfl
@[simp] theorem raise_mon (s : State) (i : Irq) : (s.raise i).mon = s.mon := rfl
@[simp] theorem raise_mover (s : State) (i : Irq) : (s.raise i).mover = s.mover := rfl
@[simp] theorem raise_hif (s : State) (i : Irq) : (s.raise i).hif = s.hif := rfl
@[simp] theorem raise_cwy (s : State) (i : Irq) : (s.raise i).cwy = s.cwy := rfl
@[simp] theorem raise_flt (s : State) (i : Irq) : (s.raise i).flt = s.flt := rfl
@[simp] theorem raise_gov (s : State) (i : Irq) : (s.raise i).gov = s.gov := rfl
@[simp] theorem raise_dumpWrote (s : State) (i : Irq) : (s.raise i).dumpWrote = s.dumpWrote := rfl
@[simp] theorem raise_prfAcc (s : State) (i : Irq) : (s.raise i).prfAcc = s.prfAcc := rfl
@[simp] theorem raise_prfBefore (s : State) (i : Irq) : (s.raise i).prfBefore = s.prfBefore := rfl
@[simp] theorem raise_capUnread (s : State) (i : Irq) : (s.raise i).capUnread = s.capUnread := rfl
@[simp] theorem raise_steps (s : State) (i : Irq) : (s.raise i).steps = s.steps := rfl
@[simp] theorem raise_routed (s : State) (i : Irq) : (s.raise i).routed = s.routed := rfl

/-! ### setLane -/

@[simp] theorem setLane_pending (s : State) (n : Nat) (l : Lane) : (s.setLane n l).pending = s.pending := rfl
@[simp] theorem setLane_now (s : State) (n : Nat) (l : Lane) : (s.setLane n l).now = s.now := rfl
@[simp] theorem setLane_freeCtr (s : State) (n : Nat) (l : Lane) : (s.setLane n l).freeCtr = s.freeCtr := rfl
@[simp] theorem setLane_sysTime (s : State) (n : Nat) (l : Lane) : (s.setLane n l).sysTime = s.sysTime := rfl
@[simp] theorem setLane_tsOrigin (s : State) (n : Nat) (l : Lane) : (s.setLane n l).tsOrigin = s.tsOrigin := rfl
@[simp] theorem setLane_regs (s : State) (n : Nat) (l : Lane) : (s.setLane n l).regs = s.regs := rfl
@[simp] theorem setLane_latch (s : State) (n : Nat) (l : Lane) : (s.setLane n l).latch = s.latch := rfl
@[simp] theorem setLane_readOut (s : State) (n : Nat) (l : Lane) : (s.setLane n l).readOut = s.readOut := rfl
@[simp] theorem setLane_mem (s : State) (n : Nat) (l : Lane) : (s.setLane n l).mem = s.mem := rfl
@[simp] theorem setLane_flash (s : State) (n : Nat) (l : Lane) : (s.setLane n l).flash = s.flash := rfl
@[simp] theorem setLane_mapCache (s : State) (n : Nat) (l : Lane) : (s.setLane n l).mapCache = s.mapCache := rfl
@[simp] theorem setLane_commits (s : State) (n : Nat) (l : Lane) : (s.setLane n l).commits = s.commits := rfl
@[simp] theorem setLane_envm (s : State) (n : Nat) (l : Lane) : (s.setLane n l).envm = s.envm := rfl
@[simp] theorem setLane_rootArray (s : State) (n : Nat) (l : Lane) : (s.setLane n l).rootArray = s.rootArray := rfl
@[simp] theorem setLane_power (s : State) (n : Nat) (l : Lane) : (s.setLane n l).power = s.power := rfl
@[simp] theorem setLane_cfg (s : State) (n : Nat) (l : Lane) : (s.setLane n l).cfg = s.cfg := rfl
@[simp] theorem setLane_peat (s : State) (n : Nat) (l : Lane) : (s.setLane n l).peat = s.peat := rfl
@[simp] theorem setLane_templates (s : State) (n : Nat) (l : Lane) : (s.setLane n l).templates = s.templates := rfl
@[simp] theorem setLane_seqLast (s : State) (n : Nat) (l : Lane) : (s.setLane n l).seqLast = s.seqLast := rfl
@[simp] theorem setLane_sess (s : State) (n : Nat) (l : Lane) : (s.setLane n l).sess = s.sess := rfl
@[simp] theorem setLane_slots (s : State) (n : Nat) (l : Lane) : (s.setLane n l).slots = s.slots := rfl
@[simp] theorem setLane_eng (s : State) (n : Nat) (l : Lane) : (s.setLane n l).eng = s.eng := rfl
@[simp] theorem setLane_trng (s : State) (n : Nat) (l : Lane) : (s.setLane n l).trng = s.trng := rfl
@[simp] theorem setLane_lf (s : State) (n : Nat) (l : Lane) : (s.setLane n l).lf = s.lf := rfl
@[simp] theorem setLane_nfc (s : State) (n : Nat) (l : Lane) : (s.setLane n l).nfc = s.nfc := rfl
@[simp] theorem setLane_tag (s : State) (n : Nat) (l : Lane) : (s.setLane n l).tag = s.tag := rfl
@[simp] theorem setLane_uwb (s : State) (n : Nat) (l : Lane) : (s.setLane n l).uwb = s.uwb := rfl
@[simp] theorem setLane_dist (s : State) (n : Nat) (l : Lane) : (s.setLane n l).dist = s.dist := rfl
@[simp] theorem setLane_rel (s : State) (n : Nat) (l : Lane) : (s.setLane n l).rel = s.rel := rfl
@[simp] theorem setLane_mon (s : State) (n : Nat) (l : Lane) : (s.setLane n l).mon = s.mon := rfl
@[simp] theorem setLane_mover (s : State) (n : Nat) (l : Lane) : (s.setLane n l).mover = s.mover := rfl
@[simp] theorem setLane_hif (s : State) (n : Nat) (l : Lane) : (s.setLane n l).hif = s.hif := rfl
@[simp] theorem setLane_cwy (s : State) (n : Nat) (l : Lane) : (s.setLane n l).cwy = s.cwy := rfl
@[simp] theorem setLane_flt (s : State) (n : Nat) (l : Lane) : (s.setLane n l).flt = s.flt := rfl
@[simp] theorem setLane_gov (s : State) (n : Nat) (l : Lane) : (s.setLane n l).gov = s.gov := rfl
@[simp] theorem setLane_dumpWrote (s : State) (n : Nat) (l : Lane) : (s.setLane n l).dumpWrote = s.dumpWrote := rfl
@[simp] theorem setLane_prfAcc (s : State) (n : Nat) (l : Lane) : (s.setLane n l).prfAcc = s.prfAcc := rfl
@[simp] theorem setLane_prfBefore (s : State) (n : Nat) (l : Lane) : (s.setLane n l).prfBefore = s.prfBefore := rfl
@[simp] theorem setLane_capUnread (s : State) (n : Nat) (l : Lane) : (s.setLane n l).capUnread = s.capUnread := rfl
@[simp] theorem setLane_steps (s : State) (n : Nat) (l : Lane) : (s.setLane n l).steps = s.steps := rfl
@[simp] theorem setLane_routed (s : State) (n : Nat) (l : Lane) : (s.setLane n l).routed = s.routed := rfl
@[simp] theorem setLane_irqs (s : State) (n : Nat) (l : Lane) : (s.setLane n l).irqs = s.irqs := rfl

/-! ### Registers after an update -/

theorem reg_setReg (s : State) (a b : Nat) (v : Word) : (s.setReg a v).reg b = if b = a then v else s.reg b := by
  by_cases h : b = a
  · subst h; simp [State.reg, State.setReg]
  · simp [State.reg, State.setReg, tget_tset_ne _ h, h]

@[simp] theorem reg_setReg_same (s : State) (a : Nat) (v : Word) : (s.setReg a v).reg a = v := by simp [reg_setReg]

theorem reg_setReg_ne (s : State) {a b : Nat} (h : b ≠ a) (v : Word) : (s.setReg a v).reg b = s.reg b := by
  simp [reg_setReg, h]

theorem reg_srf (s : State) (a b hi lo v : Nat) :
    (s.srf a hi lo v).reg b = if b = a then setFld (s.reg a) hi lo v else s.reg b := reg_setReg s a b _

theorem reg_srb (s : State) (a b i : Nat) (x : Bool) :
    (s.srb a i x).reg b = if b = a then setFld (s.reg a) i i (b2n x) else s.reg b := reg_setReg s a b _

theorem reg_bump (s : State) (a b hi lo n : Nat) :
    (s.bump a hi lo n).reg b = if b = a then setFld (s.reg a) hi lo (s.rf a hi lo + n) else s.reg b :=
  reg_setReg s a b _

theorem rf_setReg (s : State) (a b hi lo : Nat) (v : Word) :
    (s.setReg a v).rf b hi lo = if b = a then fld v hi lo else s.rf b hi lo := by
  unfold State.rf; rw [reg_setReg]; split <;> rfl

theorem rb_setReg (s : State) (a b i : Nat) (v : Word) :
    (s.setReg a v).rb b i = if b = a then bit v i else s.rb b i := by
  unfold State.rb; rw [reg_setReg]; split <;> rfl

theorem rf_srf_same (s : State) (a v : Nat) {hi lo : Nat} (h : lo ≤ hi) (h32 : hi < 32) :
    (s.srf a hi lo v).rf a hi lo = v % 2 ^ (hi - lo + 1) := by
  unfold State.rf; rw [reg_srf, if_pos rfl]; exact fld_setFld_same _ h h32 v

theorem rf_srf_other (s : State) {a b : Nat} (h : b ≠ a) (hi lo v hi' lo' : Nat) :
    (s.srf a hi lo v).rf b hi' lo' = s.rf b hi' lo' := by
  unfold State.rf; rw [reg_srf, if_neg h]

theorem rf_srf_ne (s : State) (a v : Nat) {hi lo hi' lo' : Nat} (h : lo ≤ hi) (h32 : hi < 32) (h' : lo' ≤ hi')
    (hd : hi' < lo ∨ hi < lo') : (s.srf a hi lo v).rf a hi' lo' = s.rf a hi' lo' := by
  unfold State.rf; rw [reg_srf, if_pos rfl]; exact fld_setFld_ne _ h h32 h' hd v

theorem rb_srf_other (s : State) {a b : Nat} (h : b ≠ a) (hi lo v i : Nat) : (s.srf a hi lo v).rb b i = s.rb b i := by
  unfold State.rb; rw [reg_srf, if_neg h]

theorem rb_srf_ne (s : State) (a v : Nat) {hi lo i : Nat} (h : lo ≤ hi) (h32 : hi < 32) (hd : i < lo ∨ hi < i) :
    (s.srf a hi lo v).rb a i = s.rb a i := by
  unfold State.rb; rw [reg_srf, if_pos rfl]; exact bit_setFld_ne _ h h32 hd v

theorem rb_srb_same (s : State) (a : Nat) {i : Nat} (h : i < 32) (x : Bool) : (s.srb a i x).rb a i = x := by
  unfold State.rb; rw [reg_srb, if_pos rfl]; exact bit_setFld_same _ h x

theorem rb_srb_other (s : State) {a b : Nat} (h : b ≠ a) (i j : Nat) (x : Bool) : (s.srb a i x).rb b j = s.rb b j := by
  unfold State.rb; rw [reg_srb, if_neg h]

theorem rb_srb_ne (s : State) (a : Nat) {i j : Nat} (h : i < 32) (hd : j ≠ i) (x : Bool) :
    (s.srb a i x).rb a j = s.rb a j := by
  unfold State.rb; rw [reg_srb, if_pos rfl]; exact bit_setFld_ne _ (Nat.le_refl i) h (by omega) _

theorem rf_srb_other (s : State) {a b : Nat} (h : b ≠ a) (i hi lo : Nat) (x : Bool) :
    (s.srb a i x).rf b hi lo = s.rf b hi lo := by
  unfold State.rf; rw [reg_srb, if_neg h]

theorem rf_srb_ne (s : State) (a : Nat) {i hi lo : Nat} (h : i < 32) (h' : lo ≤ hi) (hd : hi < i ∨ i < lo) (x : Bool) :
    (s.srb a i x).rf a hi lo = s.rf a hi lo := by
  unfold State.rf; rw [reg_srb, if_pos rfl]; exact fld_setFld_ne _ (Nat.le_refl i) h h' hd _

/-- Whatever leaves the registers alone leaves what they hold alone. -/
theorem reg_congr {s t : State} (h : t.regs = s.regs) (a : Nat) : t.reg a = s.reg a := by unfold State.reg; rw [h]

/-! ### Lanes after an update -/

theorem lane_setLane (s : State) (n m : Nat) (l : Lane) : (s.setLane n l).lane m = if m = n then l else s.lane m := by
  unfold State.lane State.setLane
  exact tget_tset _ _ _ _ _ _ (Or.inl rfl)

@[simp] theorem lane_setLane_same (s : State) (n : Nat) (l : Lane) : (s.setLane n l).lane n = l := by
  simp [lane_setLane]

@[simp] theorem lane_setReg (s : State) (a : Nat) (v : Word) (n : Nat) : (s.setReg a v).lane n = s.lane n := rfl

@[simp] theorem reg_setLane (s : State) (n : Nat) (l : Lane) (a : Nat) : (s.setLane n l).reg a = s.reg a := rfl

/-! ### Conditions and repetition -/

/-- A view of the state that a change keeps is kept where the change is made under a condition. -/
theorem onlyIf_view {β : Type} (g : State → β) {f : State → State} (h : ∀ s, g (f s) = g s) (s : State) (c : Bool) :
    g (s.onlyIf c f) = g s := by
  unfold State.onlyIf; split
  · exact h s
  · rfl

/-- A view of the state that every change of a list keeps is kept by all of them. -/
theorem each_view {α β : Type} (g : State → β) {f : State → α → State} (h : ∀ s x, g (f s x) = g s) (l : List α) :
    ∀ s : State, g (s.each l f) = g s := by
  induction l with
  | nil => intro s; rfl
  | cons x l ih => intro s; exact (ih (f s x)).trans (h s x)

@[simp] theorem onlyIf_true (s : State) (f : State → State) : s.onlyIf true f = f s := rfl

@[simp] theorem onlyIf_false (s : State) (f : State → State) : s.onlyIf false f = s := rfl

/-! ### Counting and refusing (R469, R476, R477) -/

/-- The PRF_ registers, which the hardware counts into. -/
def prfAddr (a : Nat) : Prop := 0x40160000 ≤ a ∧ a < 0x40170000

theorem evt_view {β : Type} (g : State → β) (h : ∀ s b k v, b < 64 → k < 4 → g (s.setReg (aPRF_CNT b k) v) = g s)
    (h' : ∀ s b k v, b < 64 → k < 4 → g (s.setReg (aPRF_SEL b k) v) = g s) (s : State) (b code n : Nat) (hb : b < 64) :
    g (s.evt b code n) = g s := by
  unfold State.evt
  split
  · have : ∀ l : List Nat, (∀ k ∈ l, k < 4) → ∀ s : State, g (s.each l fun s k =>
        if s.rf (aPRF_SEL b k) 7 0 = code ∧ code ≠ 0 then
          let v := (s.reg (aPRF_CNT b k)).toNat + n
          (s.setReg (aPRF_CNT b k) (w32 v)).onlyIf (decide (v ≥ 2 ^ 32)) fun s => s.srb (aPRF_SEL b k) 8 true
        else s) = g s := by
      intro l
      induction l with
      | nil => intro _ s; rfl
      | cons k l ih =>
        intro hl s
        refine (ih (fun x hx => hl x (List.mem_cons_of_mem _ hx)) _).trans ?_
        have hk : k < 4 := hl k List.mem_cons_self
        dsimp only
        split
        · exact (onlyIf_view g (fun s => h' s b k _ hb hk) _ _).trans (h s b k _ hb hk)
        · rfl
    exact this _ (fun k hk => List.mem_range.1 hk) s
  · rfl

theorem reg_evt (s : State) (b code n : Nat) (hb : b < 64) {a : Nat} (ha : ¬ prfAddr a) :
    (s.evt b code n).reg a = s.reg a := by
  refine evt_view (fun s => s.reg a) ?_ ?_ s b code n hb
  · intro s b k v hb hk
    refine reg_setReg_ne s ?_ v
    unfold prfAddr at ha; unfold aPRF_CNT; omega
  · intro s b k v hb hk
    refine reg_setReg_ne s ?_ v
    unfold prfAddr at ha; unfold aPRF_SEL; omega

theorem reg_ended (s : State) (b : Nat) (c : Byte) (hb : b < 64) {a : Nat} (ha : ¬ prfAddr a) :
    (s.ended b c).reg a = s.reg a := by
  unfold State.ended
  exact (onlyIf_view (fun s => s.reg a) (fun s => reg_evt s b 4 1 hb ha) _ _).trans (reg_evt s b 3 1 hb ha)

theorem access_regs (s : State) (m r : Master) (u : Bool) (a k : Nat) : (s.access m r u a k).regs = s.regs := by
  unfold State.access
  extract_lets n c
  split <;> rfl

@[simp] theorem reg_access (s : State) (m r : Master) (u : Bool) (a k b : Nat) :
    (s.access m r u a k).reg b = s.reg b := reg_congr (access_regs s m r u a k) b

/-- Nothing but the registers differs. -/
def RegsOnly (s t : State) : Prop := t = { s with regs := t.regs }

theorem RegsOnly.refl (s : State) : RegsOnly s s := rfl

theorem RegsOnly.trans {s t u : State} (h : RegsOnly s t) (h' : RegsOnly t u) : RegsOnly s u := by
  unfold RegsOnly at *; rw [h'] ; rw [h]

theorem regsOnly_setReg (s : State) (a : Nat) (v : Word) : RegsOnly s (s.setReg a v) := rfl

theorem regsOnly_onlyIf {f : State → State} (h : ∀ s, RegsOnly s (f s)) (s : State) (c : Bool) :
    RegsOnly s (s.onlyIf c f) := by
  unfold State.onlyIf; split
  · exact h s
  · exact RegsOnly.refl s

theorem regsOnly_each {α : Type} {f : State → α → State} (h : ∀ s x, RegsOnly s (f s x)) (l : List α) :
    ∀ s : State, RegsOnly s (s.each l f) := by
  induction l with
  | nil => exact RegsOnly.refl
  | cons x l ih => intro s; exact (h s x).trans (ih (f s x))

/-- Counting an event changes nothing but registers. -/
theorem regsOnly_evt (s : State) (b code n : Nat) : RegsOnly s (s.evt b code n) := by
  unfold State.evt; split
  · refine regsOnly_each (fun s k => ?_) _ s
    dsimp only; split
    · exact (regsOnly_setReg s _ _).trans (regsOnly_onlyIf (fun s => regsOnly_setReg s _ _) _ _)
    · exact RegsOnly.refl s
  · exact RegsOnly.refl s

theorem regsOnly_ended (s : State) (b : Nat) (c : Byte) : RegsOnly s (s.ended b c) :=
  (regsOnly_evt s b 3 1).trans (regsOnly_onlyIf (fun s => regsOnly_evt s b 4 1) _ _)

/-- Recording a refused access changes nothing but registers. -/
theorem regsOnly_refuse (s : State) (m : Master) (w : Bool) (a : Nat) : RegsOnly s (s.refuse m w a) := by
  unfold State.refuse
  extract_lets s1 s2 s3 s4
  have h1 : RegsOnly s s1 := regsOnly_setReg _ _ _
  have h2 : RegsOnly s s2 := h1.trans (regsOnly_setReg _ _ _)
  have h3 : RegsOnly s s3 := h2.trans (regsOnly_setReg _ _ _)
  have h4 : RegsOnly s s4 := h3.trans (regsOnly_setReg _ _ _)
  split
  · exact ((h4.trans (regsOnly_setReg _ _ _)).trans (regsOnly_setReg _ _ _)).trans (regsOnly_setReg _ _ _)
  · exact h4

theorem regsOnly_refuseReg (s : State) (m : Master) (w : Bool) (a : Nat) : RegsOnly s (s.refuseReg m w a) :=
  (regsOnly_refuse s m w a).trans (regsOnly_onlyIf (fun s => regsOnly_evt s _ 5 1) _ _)

/-- Offering an access to a monitor changes nothing but the window's counts. -/
theorem access_only (s : State) (m r : Master) (u : Bool) (a k : Nat) :
    s.access m r u a k = { s with prfAcc := (s.access m r u a k).prfAcc } := by
  unfold State.access
  extract_lets n c
  split <;> rfl

theorem RegsOnly.pending {s t : State} (h : RegsOnly s t) : t.pending = s.pending := by unfold RegsOnly at h; rw [h]

@[simp] theorem evt_pending (s : State) (b code n : Nat) : (s.evt b code n).pending = s.pending := (regsOnly_evt s b code n).pending

@[simp] theorem ended_pending (s : State) (b : Nat) (c : Byte) : (s.ended b c).pending = s.pending := (regsOnly_ended s b c).pending

@[simp] theorem access_pending (s : State) (m r : Master) (u : Bool) (a k : Nat) :
    (s.access m r u a k).pending = s.pending := by rw [access_only]

@[simp] theorem refuse_pending (s : State) (m : Master) (w : Bool) (a : Nat) :
    (s.refuse m w a).pending = s.pending := (regsOnly_refuse s m w a).pending

@[simp] theorem refuseReg_pending (s : State) (m : Master) (w : Bool) (a : Nat) :
    (s.refuseReg m w a).pending = s.pending := (regsOnly_refuseReg s m w a).pending

theorem RegsOnly.now {s t : State} (h : RegsOnly s t) : t.now = s.now := by unfold RegsOnly at h; rw [h]

@[simp] theorem evt_now (s : State) (b code n : Nat) : (s.evt b code n).now = s.now := (regsOnly_evt s b code n).now

@[simp] theorem ended_now (s : State) (b : Nat) (c : Byte) : (s.ended b c).now = s.now := (regsOnly_ended s b c).now

@[simp] theorem access_now (s : State) (m r : Master) (u : Bool) (a k : Nat) :
    (s.access m r u a k).now = s.now := by rw [access_only]

@[simp] theorem refuse_now (s : State) (m : Master) (w : Bool) (a : Nat) :
    (s.refuse m w a).now = s.now := (regsOnly_refuse s m w a).now

@[simp] theorem refuseReg_now (s : State) (m : Master) (w : Bool) (a : Nat) :
    (s.refuseReg m w a).now = s.now := (regsOnly_refuseReg s m w a).now

theorem RegsOnly.freeCtr {s t : State} (h : RegsOnly s t) : t.freeCtr = s.freeCtr := by unfold RegsOnly at h; rw [h]

@[simp] theorem evt_freeCtr (s : State) (b code n : Nat) : (s.evt b code n).freeCtr = s.freeCtr := (regsOnly_evt s b code n).freeCtr

@[simp] theorem ended_freeCtr (s : State) (b : Nat) (c : Byte) : (s.ended b c).freeCtr = s.freeCtr := (regsOnly_ended s b c).freeCtr

@[simp] theorem access_freeCtr (s : State) (m r : Master) (u : Bool) (a k : Nat) :
    (s.access m r u a k).freeCtr = s.freeCtr := by rw [access_only]

@[simp] theorem refuse_freeCtr (s : State) (m : Master) (w : Bool) (a : Nat) :
    (s.refuse m w a).freeCtr = s.freeCtr := (regsOnly_refuse s m w a).freeCtr

@[simp] theorem refuseReg_freeCtr (s : State) (m : Master) (w : Bool) (a : Nat) :
    (s.refuseReg m w a).freeCtr = s.freeCtr := (regsOnly_refuseReg s m w a).freeCtr

theorem RegsOnly.sysTime {s t : State} (h : RegsOnly s t) : t.sysTime = s.sysTime := by unfold RegsOnly at h; rw [h]

@[simp] theorem evt_sysTime (s : State) (b code n : Nat) : (s.evt b code n).sysTime = s.sysTime := (regsOnly_evt s b code n).sysTime

@[simp] theorem ended_sysTime (s : State) (b : Nat) (c : Byte) : (s.ended b c).sysTime = s.sysTime := (regsOnly_ended s b c).sysTime

@[simp] theorem access_sysTime (s : State) (m r : Master) (u : Bool) (a k : Nat) :
    (s.access m r u a k).sysTime = s.sysTime := by rw [access_only]

@[simp] theorem refuse_sysTime (s : State) (m : Master) (w : Bool) (a : Nat) :
    (s.refuse m w a).sysTime = s.sysTime := (regsOnly_refuse s m w a).sysTime

@[simp] theorem refuseReg_sysTime (s : State) (m : Master) (w : Bool) (a : Nat) :
    (s.refuseReg m w a).sysTime = s.sysTime := (regsOnly_refuseReg s m w a).sysTime

theorem RegsOnly.tsOrigin {s t : State} (h : RegsOnly s t) : t.tsOrigin = s.tsOrigin := by unfold RegsOnly at h; rw [h]

@[simp] theorem evt_tsOrigin (s : State) (b code n : Nat) : (s.evt b code n).tsOrigin = s.tsOrigin := (regsOnly_evt s b code n).tsOrigin

@[simp] theorem ended_tsOrigin (s : State) (b : Nat) (c : Byte) : (s.ended b c).tsOrigin = s.tsOrigin := (regsOnly_ended s b c).tsOrigin

@[simp] theorem access_tsOrigin (s : State) (m r : Master) (u : Bool) (a k : Nat) :
    (s.access m r u a k).tsOrigin = s.tsOrigin := by rw [access_only]

@[simp] theorem refuse_tsOrigin (s : State) (m : Master) (w : Bool) (a : Nat) :
    (s.refuse m w a).tsOrigin = s.tsOrigin := (regsOnly_refuse s m w a).tsOrigin

@[simp] theorem refuseReg_tsOrigin (s : State) (m : Master) (w : Bool) (a : Nat) :
    (s.refuseReg m w a).tsOrigin = s.tsOrigin := (regsOnly_refuseReg s m w a).tsOrigin

theorem RegsOnly.latch {s t : State} (h : RegsOnly s t) : t.latch = s.latch := by unfold RegsOnly at h; rw [h]

@[simp] theorem evt_latch (s : State) (b code n : Nat) : (s.evt b code n).latch = s.latch := (regsOnly_evt s b code n).latch

@[simp] theorem ended_latch (s : State) (b : Nat) (c : Byte) : (s.ended b c).latch = s.latch := (regsOnly_ended s b c).latch

@[simp] theorem access_latch (s : State) (m r : Master) (u : Bool) (a k : Nat) :
    (s.access m r u a k).latch = s.latch := by rw [access_only]

@[simp] theorem refuse_latch (s : State) (m : Master) (w : Bool) (a : Nat) :
    (s.refuse m w a).latch = s.latch := (regsOnly_refuse s m w a).latch

@[simp] theorem refuseReg_latch (s : State) (m : Master) (w : Bool) (a : Nat) :
    (s.refuseReg m w a).latch = s.latch := (regsOnly_refuseReg s m w a).latch

theorem RegsOnly.readOut {s t : State} (h : RegsOnly s t) : t.readOut = s.readOut := by unfold RegsOnly at h; rw [h]

@[simp] theorem evt_readOut (s : State) (b code n : Nat) : (s.evt b code n).readOut = s.readOut := (regsOnly_evt s b code n).readOut

@[simp] theorem ended_readOut (s : State) (b : Nat) (c : Byte) : (s.ended b c).readOut = s.readOut := (regsOnly_ended s b c).readOut

@[simp] theorem access_readOut (s : State) (m r : Master) (u : Bool) (a k : Nat) :
    (s.access m r u a k).readOut = s.readOut := by rw [access_only]

@[simp] theorem refuse_readOut (s : State) (m : Master) (w : Bool) (a : Nat) :
    (s.refuse m w a).readOut = s.readOut := (regsOnly_refuse s m w a).readOut

@[simp] theorem refuseReg_readOut (s : State) (m : Master) (w : Bool) (a : Nat) :
    (s.refuseReg m w a).readOut = s.readOut := (regsOnly_refuseReg s m w a).readOut

theorem RegsOnly.mem {s t : State} (h : RegsOnly s t) : t.mem = s.mem := by unfold RegsOnly at h; rw [h]

@[simp] theorem evt_mem (s : State) (b code n : Nat) : (s.evt b code n).mem = s.mem := (regsOnly_evt s b code n).mem

@[simp] theorem ended_mem (s : State) (b : Nat) (c : Byte) : (s.ended b c).mem = s.mem := (regsOnly_ended s b c).mem

@[simp] theorem access_mem (s : State) (m r : Master) (u : Bool) (a k : Nat) :
    (s.access m r u a k).mem = s.mem := by rw [access_only]

@[simp] theorem refuse_mem (s : State) (m : Master) (w : Bool) (a : Nat) :
    (s.refuse m w a).mem = s.mem := (regsOnly_refuse s m w a).mem

@[simp] theorem refuseReg_mem (s : State) (m : Master) (w : Bool) (a : Nat) :
    (s.refuseReg m w a).mem = s.mem := (regsOnly_refuseReg s m w a).mem

theorem RegsOnly.flash {s t : State} (h : RegsOnly s t) : t.flash = s.flash := by unfold RegsOnly at h; rw [h]

@[simp] theorem evt_flash (s : State) (b code n : Nat) : (s.evt b code n).flash = s.flash := (regsOnly_evt s b code n).flash

@[simp] theorem ended_flash (s : State) (b : Nat) (c : Byte) : (s.ended b c).flash = s.flash := (regsOnly_ended s b c).flash

@[simp] theorem access_flash (s : State) (m r : Master) (u : Bool) (a k : Nat) :
    (s.access m r u a k).flash = s.flash := by rw [access_only]

@[simp] theorem refuse_flash (s : State) (m : Master) (w : Bool) (a : Nat) :
    (s.refuse m w a).flash = s.flash := (regsOnly_refuse s m w a).flash

@[simp] theorem refuseReg_flash (s : State) (m : Master) (w : Bool) (a : Nat) :
    (s.refuseReg m w a).flash = s.flash := (regsOnly_refuseReg s m w a).flash

theorem RegsOnly.mapCache {s t : State} (h : RegsOnly s t) : t.mapCache = s.mapCache := by unfold RegsOnly at h; rw [h]

@[simp] theorem evt_mapCache (s : State) (b code n : Nat) : (s.evt b code n).mapCache = s.mapCache := (regsOnly_evt s b code n).mapCache

@[simp] theorem ended_mapCache (s : State) (b : Nat) (c : Byte) : (s.ended b c).mapCache = s.mapCache := (regsOnly_ended s b c).mapCache

@[simp] theorem access_mapCache (s : State) (m r : Master) (u : Bool) (a k : Nat) :
    (s.access m r u a k).mapCache = s.mapCache := by rw [access_only]

@[simp] theorem refuse_mapCache (s : State) (m : Master) (w : Bool) (a : Nat) :
    (s.refuse m w a).mapCache = s.mapCache := (regsOnly_refuse s m w a).mapCache

@[simp] theorem refuseReg_mapCache (s : State) (m : Master) (w : Bool) (a : Nat) :
    (s.refuseReg m w a).mapCache = s.mapCache := (regsOnly_refuseReg s m w a).mapCache

theorem RegsOnly.lanes {s t : State} (h : RegsOnly s t) : t.lanes = s.lanes := by unfold RegsOnly at h; rw [h]

@[simp] theorem evt_lanes (s : State) (b code n : Nat) : (s.evt b code n).lanes = s.lanes := (regsOnly_evt s b code n).lanes

@[simp] theorem ended_lanes (s : State) (b : Nat) (c : Byte) : (s.ended b c).lanes = s.lanes := (regsOnly_ended s b c).lanes

@[simp] theorem access_lanes (s : State) (m r : Master) (u : Bool) (a k : Nat) :
    (s.access m r u a k).lanes = s.lanes := by rw [access_only]

@[simp] theorem refuse_lanes (s : State) (m : Master) (w : Bool) (a : Nat) :
    (s.refuse m w a).lanes = s.lanes := (regsOnly_refuse s m w a).lanes

@[simp] theorem refuseReg_lanes (s : State) (m : Master) (w : Bool) (a : Nat) :
    (s.refuseReg m w a).lanes = s.lanes := (regsOnly_refuseReg s m w a).lanes

theorem RegsOnly.commits {s t : State} (h : RegsOnly s t) : t.commits = s.commits := by unfold RegsOnly at h; rw [h]

@[simp] theorem evt_commits (s : State) (b code n : Nat) : (s.evt b code n).commits = s.commits := (regsOnly_evt s b code n).commits

@[simp] theorem ended_commits (s : State) (b : Nat) (c : Byte) : (s.ended b c).commits = s.commits := (regsOnly_ended s b c).commits

@[simp] theorem access_commits (s : State) (m r : Master) (u : Bool) (a k : Nat) :
    (s.access m r u a k).commits = s.commits := by rw [access_only]

@[simp] theorem refuse_commits (s : State) (m : Master) (w : Bool) (a : Nat) :
    (s.refuse m w a).commits = s.commits := (regsOnly_refuse s m w a).commits

@[simp] theorem refuseReg_commits (s : State) (m : Master) (w : Bool) (a : Nat) :
    (s.refuseReg m w a).commits = s.commits := (regsOnly_refuseReg s m w a).commits

theorem RegsOnly.envm {s t : State} (h : RegsOnly s t) : t.envm = s.envm := by unfold RegsOnly at h; rw [h]

@[simp] theorem evt_envm (s : State) (b code n : Nat) : (s.evt b code n).envm = s.envm := (regsOnly_evt s b code n).envm

@[simp] theorem ended_envm (s : State) (b : Nat) (c : Byte) : (s.ended b c).envm = s.envm := (regsOnly_ended s b c).envm

@[simp] theorem access_envm (s : State) (m r : Master) (u : Bool) (a k : Nat) :
    (s.access m r u a k).envm = s.envm := by rw [access_only]

@[simp] theorem refuse_envm (s : State) (m : Master) (w : Bool) (a : Nat) :
    (s.refuse m w a).envm = s.envm := (regsOnly_refuse s m w a).envm

@[simp] theorem refuseReg_envm (s : State) (m : Master) (w : Bool) (a : Nat) :
    (s.refuseReg m w a).envm = s.envm := (regsOnly_refuseReg s m w a).envm

theorem RegsOnly.rootArray {s t : State} (h : RegsOnly s t) : t.rootArray = s.rootArray := by unfold RegsOnly at h; rw [h]

@[simp] theorem evt_rootArray (s : State) (b code n : Nat) : (s.evt b code n).rootArray = s.rootArray := (regsOnly_evt s b code n).rootArray

@[simp] theorem ended_rootArray (s : State) (b : Nat) (c : Byte) : (s.ended b c).rootArray = s.rootArray := (regsOnly_ended s b c).rootArray

@[simp] theorem access_rootArray (s : State) (m r : Master) (u : Bool) (a k : Nat) :
    (s.access m r u a k).rootArray = s.rootArray := by rw [access_only]

@[simp] theorem refuse_rootArray (s : State) (m : Master) (w : Bool) (a : Nat) :
    (s.refuse m w a).rootArray = s.rootArray := (regsOnly_refuse s m w a).rootArray

@[simp] theorem refuseReg_rootArray (s : State) (m : Master) (w : Bool) (a : Nat) :
    (s.refuseReg m w a).rootArray = s.rootArray := (regsOnly_refuseReg s m w a).rootArray

theorem RegsOnly.power {s t : State} (h : RegsOnly s t) : t.power = s.power := by unfold RegsOnly at h; rw [h]

@[simp] theorem evt_power (s : State) (b code n : Nat) : (s.evt b code n).power = s.power := (regsOnly_evt s b code n).power

@[simp] theorem ended_power (s : State) (b : Nat) (c : Byte) : (s.ended b c).power = s.power := (regsOnly_ended s b c).power

@[simp] theorem access_power (s : State) (m r : Master) (u : Bool) (a k : Nat) :
    (s.access m r u a k).power = s.power := by rw [access_only]

@[simp] theorem refuse_power (s : State) (m : Master) (w : Bool) (a : Nat) :
    (s.refuse m w a).power = s.power := (regsOnly_refuse s m w a).power

@[simp] theorem refuseReg_power (s : State) (m : Master) (w : Bool) (a : Nat) :
    (s.refuseReg m w a).power = s.power := (regsOnly_refuseReg s m w a).power

theorem RegsOnly.cfg {s t : State} (h : RegsOnly s t) : t.cfg = s.cfg := by unfold RegsOnly at h; rw [h]

@[simp] theorem evt_cfg (s : State) (b code n : Nat) : (s.evt b code n).cfg = s.cfg := (regsOnly_evt s b code n).cfg

@[simp] theorem ended_cfg (s : State) (b : Nat) (c : Byte) : (s.ended b c).cfg = s.cfg := (regsOnly_ended s b c).cfg

@[simp] theorem access_cfg (s : State) (m r : Master) (u : Bool) (a k : Nat) :
    (s.access m r u a k).cfg = s.cfg := by rw [access_only]

@[simp] theorem refuse_cfg (s : State) (m : Master) (w : Bool) (a : Nat) :
    (s.refuse m w a).cfg = s.cfg := (regsOnly_refuse s m w a).cfg

@[simp] theorem refuseReg_cfg (s : State) (m : Master) (w : Bool) (a : Nat) :
    (s.refuseReg m w a).cfg = s.cfg := (regsOnly_refuseReg s m w a).cfg

theorem RegsOnly.peat {s t : State} (h : RegsOnly s t) : t.peat = s.peat := by unfold RegsOnly at h; rw [h]

@[simp] theorem evt_peat (s : State) (b code n : Nat) : (s.evt b code n).peat = s.peat := (regsOnly_evt s b code n).peat

@[simp] theorem ended_peat (s : State) (b : Nat) (c : Byte) : (s.ended b c).peat = s.peat := (regsOnly_ended s b c).peat

@[simp] theorem access_peat (s : State) (m r : Master) (u : Bool) (a k : Nat) :
    (s.access m r u a k).peat = s.peat := by rw [access_only]

@[simp] theorem refuse_peat (s : State) (m : Master) (w : Bool) (a : Nat) :
    (s.refuse m w a).peat = s.peat := (regsOnly_refuse s m w a).peat

@[simp] theorem refuseReg_peat (s : State) (m : Master) (w : Bool) (a : Nat) :
    (s.refuseReg m w a).peat = s.peat := (regsOnly_refuseReg s m w a).peat

theorem RegsOnly.templates {s t : State} (h : RegsOnly s t) : t.templates = s.templates := by unfold RegsOnly at h; rw [h]

@[simp] theorem evt_templates (s : State) (b code n : Nat) : (s.evt b code n).templates = s.templates := (regsOnly_evt s b code n).templates

@[simp] theorem ended_templates (s : State) (b : Nat) (c : Byte) : (s.ended b c).templates = s.templates := (regsOnly_ended s b c).templates

@[simp] theorem access_templates (s : State) (m r : Master) (u : Bool) (a k : Nat) :
    (s.access m r u a k).templates = s.templates := by rw [access_only]

@[simp] theorem refuse_templates (s : State) (m : Master) (w : Bool) (a : Nat) :
    (s.refuse m w a).templates = s.templates := (regsOnly_refuse s m w a).templates

@[simp] theorem refuseReg_templates (s : State) (m : Master) (w : Bool) (a : Nat) :
    (s.refuseReg m w a).templates = s.templates := (regsOnly_refuseReg s m w a).templates

theorem RegsOnly.seqLast {s t : State} (h : RegsOnly s t) : t.seqLast = s.seqLast := by unfold RegsOnly at h; rw [h]

@[simp] theorem evt_seqLast (s : State) (b code n : Nat) : (s.evt b code n).seqLast = s.seqLast := (regsOnly_evt s b code n).seqLast

@[simp] theorem ended_seqLast (s : State) (b : Nat) (c : Byte) : (s.ended b c).seqLast = s.seqLast := (regsOnly_ended s b c).seqLast

@[simp] theorem access_seqLast (s : State) (m r : Master) (u : Bool) (a k : Nat) :
    (s.access m r u a k).seqLast = s.seqLast := by rw [access_only]

@[simp] theorem refuse_seqLast (s : State) (m : Master) (w : Bool) (a : Nat) :
    (s.refuse m w a).seqLast = s.seqLast := (regsOnly_refuse s m w a).seqLast

@[simp] theorem refuseReg_seqLast (s : State) (m : Master) (w : Bool) (a : Nat) :
    (s.refuseReg m w a).seqLast = s.seqLast := (regsOnly_refuseReg s m w a).seqLast

theorem RegsOnly.sess {s t : State} (h : RegsOnly s t) : t.sess = s.sess := by unfold RegsOnly at h; rw [h]

@[simp] theorem evt_sess (s : State) (b code n : Nat) : (s.evt b code n).sess = s.sess := (regsOnly_evt s b code n).sess

@[simp] theorem ended_sess (s : State) (b : Nat) (c : Byte) : (s.ended b c).sess = s.sess := (regsOnly_ended s b c).sess

@[simp] theorem access_sess (s : State) (m r : Master) (u : Bool) (a k : Nat) :
    (s.access m r u a k).sess = s.sess := by rw [access_only]

@[simp] theorem refuse_sess (s : State) (m : Master) (w : Bool) (a : Nat) :
    (s.refuse m w a).sess = s.sess := (regsOnly_refuse s m w a).sess

@[simp] theorem refuseReg_sess (s : State) (m : Master) (w : Bool) (a : Nat) :
    (s.refuseReg m w a).sess = s.sess := (regsOnly_refuseReg s m w a).sess

theorem RegsOnly.slots {s t : State} (h : RegsOnly s t) : t.slots = s.slots := by unfold RegsOnly at h; rw [h]

@[simp] theorem evt_slots (s : State) (b code n : Nat) : (s.evt b code n).slots = s.slots := (regsOnly_evt s b code n).slots

@[simp] theorem ended_slots (s : State) (b : Nat) (c : Byte) : (s.ended b c).slots = s.slots := (regsOnly_ended s b c).slots

@[simp] theorem access_slots (s : State) (m r : Master) (u : Bool) (a k : Nat) :
    (s.access m r u a k).slots = s.slots := by rw [access_only]

@[simp] theorem refuse_slots (s : State) (m : Master) (w : Bool) (a : Nat) :
    (s.refuse m w a).slots = s.slots := (regsOnly_refuse s m w a).slots

@[simp] theorem refuseReg_slots (s : State) (m : Master) (w : Bool) (a : Nat) :
    (s.refuseReg m w a).slots = s.slots := (regsOnly_refuseReg s m w a).slots

theorem RegsOnly.eng {s t : State} (h : RegsOnly s t) : t.eng = s.eng := by unfold RegsOnly at h; rw [h]

@[simp] theorem evt_eng (s : State) (b code n : Nat) : (s.evt b code n).eng = s.eng := (regsOnly_evt s b code n).eng

@[simp] theorem ended_eng (s : State) (b : Nat) (c : Byte) : (s.ended b c).eng = s.eng := (regsOnly_ended s b c).eng

@[simp] theorem access_eng (s : State) (m r : Master) (u : Bool) (a k : Nat) :
    (s.access m r u a k).eng = s.eng := by rw [access_only]

@[simp] theorem refuse_eng (s : State) (m : Master) (w : Bool) (a : Nat) :
    (s.refuse m w a).eng = s.eng := (regsOnly_refuse s m w a).eng

@[simp] theorem refuseReg_eng (s : State) (m : Master) (w : Bool) (a : Nat) :
    (s.refuseReg m w a).eng = s.eng := (regsOnly_refuseReg s m w a).eng

theorem RegsOnly.trng {s t : State} (h : RegsOnly s t) : t.trng = s.trng := by unfold RegsOnly at h; rw [h]

@[simp] theorem evt_trng (s : State) (b code n : Nat) : (s.evt b code n).trng = s.trng := (regsOnly_evt s b code n).trng

@[simp] theorem ended_trng (s : State) (b : Nat) (c : Byte) : (s.ended b c).trng = s.trng := (regsOnly_ended s b c).trng

@[simp] theorem access_trng (s : State) (m r : Master) (u : Bool) (a k : Nat) :
    (s.access m r u a k).trng = s.trng := by rw [access_only]

@[simp] theorem refuse_trng (s : State) (m : Master) (w : Bool) (a : Nat) :
    (s.refuse m w a).trng = s.trng := (regsOnly_refuse s m w a).trng

@[simp] theorem refuseReg_trng (s : State) (m : Master) (w : Bool) (a : Nat) :
    (s.refuseReg m w a).trng = s.trng := (regsOnly_refuseReg s m w a).trng

theorem RegsOnly.lf {s t : State} (h : RegsOnly s t) : t.lf = s.lf := by unfold RegsOnly at h; rw [h]

@[simp] theorem evt_lf (s : State) (b code n : Nat) : (s.evt b code n).lf = s.lf := (regsOnly_evt s b code n).lf

@[simp] theorem ended_lf (s : State) (b : Nat) (c : Byte) : (s.ended b c).lf = s.lf := (regsOnly_ended s b c).lf

@[simp] theorem access_lf (s : State) (m r : Master) (u : Bool) (a k : Nat) :
    (s.access m r u a k).lf = s.lf := by rw [access_only]

@[simp] theorem refuse_lf (s : State) (m : Master) (w : Bool) (a : Nat) :
    (s.refuse m w a).lf = s.lf := (regsOnly_refuse s m w a).lf

@[simp] theorem refuseReg_lf (s : State) (m : Master) (w : Bool) (a : Nat) :
    (s.refuseReg m w a).lf = s.lf := (regsOnly_refuseReg s m w a).lf

theorem RegsOnly.nfc {s t : State} (h : RegsOnly s t) : t.nfc = s.nfc := by unfold RegsOnly at h; rw [h]

@[simp] theorem evt_nfc (s : State) (b code n : Nat) : (s.evt b code n).nfc = s.nfc := (regsOnly_evt s b code n).nfc

@[simp] theorem ended_nfc (s : State) (b : Nat) (c : Byte) : (s.ended b c).nfc = s.nfc := (regsOnly_ended s b c).nfc

@[simp] theorem access_nfc (s : State) (m r : Master) (u : Bool) (a k : Nat) :
    (s.access m r u a k).nfc = s.nfc := by rw [access_only]

@[simp] theorem refuse_nfc (s : State) (m : Master) (w : Bool) (a : Nat) :
    (s.refuse m w a).nfc = s.nfc := (regsOnly_refuse s m w a).nfc

@[simp] theorem refuseReg_nfc (s : State) (m : Master) (w : Bool) (a : Nat) :
    (s.refuseReg m w a).nfc = s.nfc := (regsOnly_refuseReg s m w a).nfc

theorem RegsOnly.tag {s t : State} (h : RegsOnly s t) : t.tag = s.tag := by unfold RegsOnly at h; rw [h]

@[simp] theorem evt_tag (s : State) (b code n : Nat) : (s.evt b code n).tag = s.tag := (regsOnly_evt s b code n).tag

@[simp] theorem ended_tag (s : State) (b : Nat) (c : Byte) : (s.ended b c).tag = s.tag := (regsOnly_ended s b c).tag

@[simp] theorem access_tag (s : State) (m r : Master) (u : Bool) (a k : Nat) :
    (s.access m r u a k).tag = s.tag := by rw [access_only]

@[simp] theorem refuse_tag (s : State) (m : Master) (w : Bool) (a : Nat) :
    (s.refuse m w a).tag = s.tag := (regsOnly_refuse s m w a).tag

@[simp] theorem refuseReg_tag (s : State) (m : Master) (w : Bool) (a : Nat) :
    (s.refuseReg m w a).tag = s.tag := (regsOnly_refuseReg s m w a).tag

theorem RegsOnly.uwb {s t : State} (h : RegsOnly s t) : t.uwb = s.uwb := by unfold RegsOnly at h; rw [h]

@[simp] theorem evt_uwb (s : State) (b code n : Nat) : (s.evt b code n).uwb = s.uwb := (regsOnly_evt s b code n).uwb

@[simp] theorem ended_uwb (s : State) (b : Nat) (c : Byte) : (s.ended b c).uwb = s.uwb := (regsOnly_ended s b c).uwb

@[simp] theorem access_uwb (s : State) (m r : Master) (u : Bool) (a k : Nat) :
    (s.access m r u a k).uwb = s.uwb := by rw [access_only]

@[simp] theorem refuse_uwb (s : State) (m : Master) (w : Bool) (a : Nat) :
    (s.refuse m w a).uwb = s.uwb := (regsOnly_refuse s m w a).uwb

@[simp] theorem refuseReg_uwb (s : State) (m : Master) (w : Bool) (a : Nat) :
    (s.refuseReg m w a).uwb = s.uwb := (regsOnly_refuseReg s m w a).uwb

theorem RegsOnly.dist {s t : State} (h : RegsOnly s t) : t.dist = s.dist := by unfold RegsOnly at h; rw [h]

@[simp] theorem evt_dist (s : State) (b code n : Nat) : (s.evt b code n).dist = s.dist := (regsOnly_evt s b code n).dist

@[simp] theorem ended_dist (s : State) (b : Nat) (c : Byte) : (s.ended b c).dist = s.dist := (regsOnly_ended s b c).dist

@[simp] theorem access_dist (s : State) (m r : Master) (u : Bool) (a k : Nat) :
    (s.access m r u a k).dist = s.dist := by rw [access_only]

@[simp] theorem refuse_dist (s : State) (m : Master) (w : Bool) (a : Nat) :
    (s.refuse m w a).dist = s.dist := (regsOnly_refuse s m w a).dist

@[simp] theorem refuseReg_dist (s : State) (m : Master) (w : Bool) (a : Nat) :
    (s.refuseReg m w a).dist = s.dist := (regsOnly_refuseReg s m w a).dist

theorem RegsOnly.rel {s t : State} (h : RegsOnly s t) : t.rel = s.rel := by unfold RegsOnly at h; rw [h]

@[simp] theorem evt_rel (s : State) (b code n : Nat) : (s.evt b code n).rel = s.rel := (regsOnly_evt s b code n).rel

@[simp] theorem ended_rel (s : State) (b : Nat) (c : Byte) : (s.ended b c).rel = s.rel := (regsOnly_ended s b c).rel

@[simp] theorem access_rel (s : State) (m r : Master) (u : Bool) (a k : Nat) :
    (s.access m r u a k).rel = s.rel := by rw [access_only]

@[simp] theorem refuse_rel (s : State) (m : Master) (w : Bool) (a : Nat) :
    (s.refuse m w a).rel = s.rel := (regsOnly_refuse s m w a).rel

@[simp] theorem refuseReg_rel (s : State) (m : Master) (w : Bool) (a : Nat) :
    (s.refuseReg m w a).rel = s.rel := (regsOnly_refuseReg s m w a).rel

theorem RegsOnly.mon {s t : State} (h : RegsOnly s t) : t.mon = s.mon := by unfold RegsOnly at h; rw [h]

@[simp] theorem evt_mon (s : State) (b code n : Nat) : (s.evt b code n).mon = s.mon := (regsOnly_evt s b code n).mon

@[simp] theorem ended_mon (s : State) (b : Nat) (c : Byte) : (s.ended b c).mon = s.mon := (regsOnly_ended s b c).mon

@[simp] theorem access_mon (s : State) (m r : Master) (u : Bool) (a k : Nat) :
    (s.access m r u a k).mon = s.mon := by rw [access_only]

@[simp] theorem refuse_mon (s : State) (m : Master) (w : Bool) (a : Nat) :
    (s.refuse m w a).mon = s.mon := (regsOnly_refuse s m w a).mon

@[simp] theorem refuseReg_mon (s : State) (m : Master) (w : Bool) (a : Nat) :
    (s.refuseReg m w a).mon = s.mon := (regsOnly_refuseReg s m w a).mon

theorem RegsOnly.mover {s t : State} (h : RegsOnly s t) : t.mover = s.mover := by unfold RegsOnly at h; rw [h]

@[simp] theorem evt_mover (s : State) (b code n : Nat) : (s.evt b code n).mover = s.mover := (regsOnly_evt s b code n).mover

@[simp] theorem ended_mover (s : State) (b : Nat) (c : Byte) : (s.ended b c).mover = s.mover := (regsOnly_ended s b c).mover

@[simp] theorem access_mover (s : State) (m r : Master) (u : Bool) (a k : Nat) :
    (s.access m r u a k).mover = s.mover := by rw [access_only]

@[simp] theorem refuse_mover (s : State) (m : Master) (w : Bool) (a : Nat) :
    (s.refuse m w a).mover = s.mover := (regsOnly_refuse s m w a).mover

@[simp] theorem refuseReg_mover (s : State) (m : Master) (w : Bool) (a : Nat) :
    (s.refuseReg m w a).mover = s.mover := (regsOnly_refuseReg s m w a).mover

theorem RegsOnly.hif {s t : State} (h : RegsOnly s t) : t.hif = s.hif := by unfold RegsOnly at h; rw [h]

@[simp] theorem evt_hif (s : State) (b code n : Nat) : (s.evt b code n).hif = s.hif := (regsOnly_evt s b code n).hif

@[simp] theorem ended_hif (s : State) (b : Nat) (c : Byte) : (s.ended b c).hif = s.hif := (regsOnly_ended s b c).hif

@[simp] theorem access_hif (s : State) (m r : Master) (u : Bool) (a k : Nat) :
    (s.access m r u a k).hif = s.hif := by rw [access_only]

@[simp] theorem refuse_hif (s : State) (m : Master) (w : Bool) (a : Nat) :
    (s.refuse m w a).hif = s.hif := (regsOnly_refuse s m w a).hif

@[simp] theorem refuseReg_hif (s : State) (m : Master) (w : Bool) (a : Nat) :
    (s.refuseReg m w a).hif = s.hif := (regsOnly_refuseReg s m w a).hif

theorem RegsOnly.cwy {s t : State} (h : RegsOnly s t) : t.cwy = s.cwy := by unfold RegsOnly at h; rw [h]

@[simp] theorem evt_cwy (s : State) (b code n : Nat) : (s.evt b code n).cwy = s.cwy := (regsOnly_evt s b code n).cwy

@[simp] theorem ended_cwy (s : State) (b : Nat) (c : Byte) : (s.ended b c).cwy = s.cwy := (regsOnly_ended s b c).cwy

@[simp] theorem access_cwy (s : State) (m r : Master) (u : Bool) (a k : Nat) :
    (s.access m r u a k).cwy = s.cwy := by rw [access_only]

@[simp] theorem refuse_cwy (s : State) (m : Master) (w : Bool) (a : Nat) :
    (s.refuse m w a).cwy = s.cwy := (regsOnly_refuse s m w a).cwy

@[simp] theorem refuseReg_cwy (s : State) (m : Master) (w : Bool) (a : Nat) :
    (s.refuseReg m w a).cwy = s.cwy := (regsOnly_refuseReg s m w a).cwy

theorem RegsOnly.flt {s t : State} (h : RegsOnly s t) : t.flt = s.flt := by unfold RegsOnly at h; rw [h]

@[simp] theorem evt_flt (s : State) (b code n : Nat) : (s.evt b code n).flt = s.flt := (regsOnly_evt s b code n).flt

@[simp] theorem ended_flt (s : State) (b : Nat) (c : Byte) : (s.ended b c).flt = s.flt := (regsOnly_ended s b c).flt

@[simp] theorem access_flt (s : State) (m r : Master) (u : Bool) (a k : Nat) :
    (s.access m r u a k).flt = s.flt := by rw [access_only]

@[simp] theorem refuse_flt (s : State) (m : Master) (w : Bool) (a : Nat) :
    (s.refuse m w a).flt = s.flt := (regsOnly_refuse s m w a).flt

@[simp] theorem refuseReg_flt (s : State) (m : Master) (w : Bool) (a : Nat) :
    (s.refuseReg m w a).flt = s.flt := (regsOnly_refuseReg s m w a).flt

theorem RegsOnly.gov {s t : State} (h : RegsOnly s t) : t.gov = s.gov := by unfold RegsOnly at h; rw [h]

@[simp] theorem evt_gov (s : State) (b code n : Nat) : (s.evt b code n).gov = s.gov := (regsOnly_evt s b code n).gov

@[simp] theorem ended_gov (s : State) (b : Nat) (c : Byte) : (s.ended b c).gov = s.gov := (regsOnly_ended s b c).gov

@[simp] theorem access_gov (s : State) (m r : Master) (u : Bool) (a k : Nat) :
    (s.access m r u a k).gov = s.gov := by rw [access_only]

@[simp] theorem refuse_gov (s : State) (m : Master) (w : Bool) (a : Nat) :
    (s.refuse m w a).gov = s.gov := (regsOnly_refuse s m w a).gov

@[simp] theorem refuseReg_gov (s : State) (m : Master) (w : Bool) (a : Nat) :
    (s.refuseReg m w a).gov = s.gov := (regsOnly_refuseReg s m w a).gov

theorem RegsOnly.dumpWrote {s t : State} (h : RegsOnly s t) : t.dumpWrote = s.dumpWrote := by unfold RegsOnly at h; rw [h]

@[simp] theorem evt_dumpWrote (s : State) (b code n : Nat) : (s.evt b code n).dumpWrote = s.dumpWrote := (regsOnly_evt s b code n).dumpWrote

@[simp] theorem ended_dumpWrote (s : State) (b : Nat) (c : Byte) : (s.ended b c).dumpWrote = s.dumpWrote := (regsOnly_ended s b c).dumpWrote

@[simp] theorem access_dumpWrote (s : State) (m r : Master) (u : Bool) (a k : Nat) :
    (s.access m r u a k).dumpWrote = s.dumpWrote := by rw [access_only]

@[simp] theorem refuse_dumpWrote (s : State) (m : Master) (w : Bool) (a : Nat) :
    (s.refuse m w a).dumpWrote = s.dumpWrote := (regsOnly_refuse s m w a).dumpWrote

@[simp] theorem refuseReg_dumpWrote (s : State) (m : Master) (w : Bool) (a : Nat) :
    (s.refuseReg m w a).dumpWrote = s.dumpWrote := (regsOnly_refuseReg s m w a).dumpWrote

theorem RegsOnly.prfAcc {s t : State} (h : RegsOnly s t) : t.prfAcc = s.prfAcc := by unfold RegsOnly at h; rw [h]

@[simp] theorem evt_prfAcc (s : State) (b code n : Nat) : (s.evt b code n).prfAcc = s.prfAcc := (regsOnly_evt s b code n).prfAcc

@[simp] theorem ended_prfAcc (s : State) (b : Nat) (c : Byte) : (s.ended b c).prfAcc = s.prfAcc := (regsOnly_ended s b c).prfAcc

@[simp] theorem refuse_prfAcc (s : State) (m : Master) (w : Bool) (a : Nat) :
    (s.refuse m w a).prfAcc = s.prfAcc := (regsOnly_refuse s m w a).prfAcc

@[simp] theorem refuseReg_prfAcc (s : State) (m : Master) (w : Bool) (a : Nat) :
    (s.refuseReg m w a).prfAcc = s.prfAcc := (regsOnly_refuseReg s m w a).prfAcc

theorem RegsOnly.prfBefore {s t : State} (h : RegsOnly s t) : t.prfBefore = s.prfBefore := by unfold RegsOnly at h; rw [h]

@[simp] theorem evt_prfBefore (s : State) (b code n : Nat) : (s.evt b code n).prfBefore = s.prfBefore := (regsOnly_evt s b code n).prfBefore

@[simp] theorem ended_prfBefore (s : State) (b : Nat) (c : Byte) : (s.ended b c).prfBefore = s.prfBefore := (regsOnly_ended s b c).prfBefore

@[simp] theorem access_prfBefore (s : State) (m r : Master) (u : Bool) (a k : Nat) :
    (s.access m r u a k).prfBefore = s.prfBefore := by rw [access_only]

@[simp] theorem refuse_prfBefore (s : State) (m : Master) (w : Bool) (a : Nat) :
    (s.refuse m w a).prfBefore = s.prfBefore := (regsOnly_refuse s m w a).prfBefore

@[simp] theorem refuseReg_prfBefore (s : State) (m : Master) (w : Bool) (a : Nat) :
    (s.refuseReg m w a).prfBefore = s.prfBefore := (regsOnly_refuseReg s m w a).prfBefore

theorem RegsOnly.capUnread {s t : State} (h : RegsOnly s t) : t.capUnread = s.capUnread := by unfold RegsOnly at h; rw [h]

@[simp] theorem evt_capUnread (s : State) (b code n : Nat) : (s.evt b code n).capUnread = s.capUnread := (regsOnly_evt s b code n).capUnread

@[simp] theorem ended_capUnread (s : State) (b : Nat) (c : Byte) : (s.ended b c).capUnread = s.capUnread := (regsOnly_ended s b c).capUnread

@[simp] theorem access_capUnread (s : State) (m r : Master) (u : Bool) (a k : Nat) :
    (s.access m r u a k).capUnread = s.capUnread := by rw [access_only]

@[simp] theorem refuse_capUnread (s : State) (m : Master) (w : Bool) (a : Nat) :
    (s.refuse m w a).capUnread = s.capUnread := (regsOnly_refuse s m w a).capUnread

@[simp] theorem refuseReg_capUnread (s : State) (m : Master) (w : Bool) (a : Nat) :
    (s.refuseReg m w a).capUnread = s.capUnread := (regsOnly_refuseReg s m w a).capUnread

theorem RegsOnly.steps {s t : State} (h : RegsOnly s t) : t.steps = s.steps := by unfold RegsOnly at h; rw [h]

@[simp] theorem evt_steps (s : State) (b code n : Nat) : (s.evt b code n).steps = s.steps := (regsOnly_evt s b code n).steps

@[simp] theorem ended_steps (s : State) (b : Nat) (c : Byte) : (s.ended b c).steps = s.steps := (regsOnly_ended s b c).steps

@[simp] theorem access_steps (s : State) (m r : Master) (u : Bool) (a k : Nat) :
    (s.access m r u a k).steps = s.steps := by rw [access_only]

@[simp] theorem refuse_steps (s : State) (m : Master) (w : Bool) (a : Nat) :
    (s.refuse m w a).steps = s.steps := (regsOnly_refuse s m w a).steps

@[simp] theorem refuseReg_steps (s : State) (m : Master) (w : Bool) (a : Nat) :
    (s.refuseReg m w a).steps = s.steps := (regsOnly_refuseReg s m w a).steps

theorem RegsOnly.routed {s t : State} (h : RegsOnly s t) : t.routed = s.routed := by unfold RegsOnly at h; rw [h]

@[simp] theorem evt_routed (s : State) (b code n : Nat) : (s.evt b code n).routed = s.routed := (regsOnly_evt s b code n).routed

@[simp] theorem ended_routed (s : State) (b : Nat) (c : Byte) : (s.ended b c).routed = s.routed := (regsOnly_ended s b c).routed

@[simp] theorem access_routed (s : State) (m r : Master) (u : Bool) (a k : Nat) :
    (s.access m r u a k).routed = s.routed := by rw [access_only]

@[simp] theorem refuse_routed (s : State) (m : Master) (w : Bool) (a : Nat) :
    (s.refuse m w a).routed = s.routed := (regsOnly_refuse s m w a).routed

@[simp] theorem refuseReg_routed (s : State) (m : Master) (w : Bool) (a : Nat) :
    (s.refuseReg m w a).routed = s.routed := (regsOnly_refuseReg s m w a).routed

theorem RegsOnly.irqs {s t : State} (h : RegsOnly s t) : t.irqs = s.irqs := by unfold RegsOnly at h; rw [h]

@[simp] theorem evt_irqs (s : State) (b code n : Nat) : (s.evt b code n).irqs = s.irqs := (regsOnly_evt s b code n).irqs

@[simp] theorem ended_irqs (s : State) (b : Nat) (c : Byte) : (s.ended b c).irqs = s.irqs := (regsOnly_ended s b c).irqs

@[simp] theorem access_irqs (s : State) (m r : Master) (u : Bool) (a k : Nat) :
    (s.access m r u a k).irqs = s.irqs := by rw [access_only]

@[simp] theorem refuse_irqs (s : State) (m : Master) (w : Bool) (a : Nat) :
    (s.refuse m w a).irqs = s.irqs := (regsOnly_refuse s m w a).irqs

@[simp] theorem refuseReg_irqs (s : State) (m : Master) (w : Bool) (a : Nat) :
    (s.refuseReg m w a).irqs = s.irqs := (regsOnly_refuseReg s m w a).irqs

end Laws
end Sys2Proof
end

