-- ==== Sys2Proof/Laws/Access.lean ====
section
/-!
SUPPORT. What a register write does where it is granted, refused, reserved or made by a master that is down, and how to show
that only some registers changed.
-/
namespace Sys2Proof
namespace Laws

open Sys2Proof.Machine Sys2Proof.Safety

theorem owned_granted {s : State} {m : Master} {a : Nat} (h : Grants s m a) (f : State → State) :
    s.owned m a f = f (s.access m (rightsOf m) false a 2) := by
  unfold State.owned State.writeAs
  rw [if_pos h.1, h.2]

theorem owned_refused {s : State} {m : Master} {a : Nat} (h : Refuses s m a) (f : State → State) :
    s.owned m a f = s.refuseReg m true a := by
  unfold State.owned State.writeAs
  rw [if_pos h.1, h.2]

theorem owned_down {s : State} {m : Master} (h : s.up m = false) (a : Nat) (f : State → State) : s.owned m a f = s := by
  unfold State.owned
  simp [h]

theorem RegsBut.refl (l : List Nat) (s : State) : RegsBut l s s := fun _ _ _ => rfl

theorem RegsBut.trans {l : List Nat} {s t u : State} (h : RegsBut l s t) (h' : RegsBut l t u) : RegsBut l s u :=
  fun a ha hc => (h' a ha hc).trans (h a ha hc)

theorem RegsBut.mono {l l' : List Nat} {s t : State} (h : RegsBut l s t) (hl : ∀ a ∈ l, a ∈ l') : RegsBut l' s t :=
  fun a ha hc => h a (fun h' => ha (hl a h')) hc

theorem regsBut_of_regs {s t : State} (h : t.regs = s.regs) (l : List Nat) : RegsBut l s t :=
  fun a _ _ => reg_congr h a

theorem regsBut_setReg (s : State) {l : List Nat} {a : Nat} (h : a ∈ l) (v : Word) : RegsBut l s (s.setReg a v) :=
  fun b hb _ => reg_setReg_ne s (fun e => hb (by rw [e]; exact h)) v

theorem regsBut_srf (s : State) {l : List Nat} {a : Nat} (h : a ∈ l) (hi lo v : Nat) : RegsBut l s (s.srf a hi lo v) :=
  regsBut_setReg s h _

theorem regsBut_srb (s : State) {l : List Nat} {a : Nat} (h : a ∈ l) (i : Nat) (b : Bool) : RegsBut l s (s.srb a i b) :=
  regsBut_setReg s h _

theorem regsBut_bump (s : State) {l : List Nat} {a : Nat} (h : a ∈ l) (hi lo n : Nat) : RegsBut l s (s.bump a hi lo n) :=
  regsBut_setReg s h _

theorem regsBut_evt (s : State) (l : List Nat) {b : Nat} (hb : b < 64) (code n : Nat) : RegsBut l s (s.evt b code n) :=
  fun _ _ hc => reg_evt s b code n hb hc

theorem regsBut_ended (s : State) (l : List Nat) {b : Nat} (hb : b < 64) (c : Byte) : RegsBut l s (s.ended b c) :=
  fun _ _ hc => reg_ended s b c hb hc

theorem regsBut_access (s : State) (l : List Nat) (m r : Master) (u : Bool) (a k : Nat) :
    RegsBut l s (s.access m r u a k) := fun b _ _ => reg_access s m r u a k b

end Laws
end Sys2Proof
end

