-- ==== Sys2Proof/Laws/StillCore.lean ====
section
/-!
SUPPORT. What leaves the waiting commands and the byte memories alone: the registers, queues, keys and the scheduler.
-/
namespace Sys2Proof
namespace Laws

open Sys2Proof.Machine

set_option linter.unusedSimpArgs false
set_option linter.unusedVariables false
set_option linter.unusedTactic false
set_option linter.unreachableTactic false

/-- What only a few commands change: the waiting commands and the two byte memories. -/
def still (s : State) : List Instr × List Host.Cell × List Host.Cell := (s.pending, s.mem, s.flash)

theorem still_mk (s : State) : (s.pending, s.mem, s.flash) = still s := Eq.trans rfl rfl

theorem still_lit {a0 : List Instr} {a1 : Nat} {a2 : Nat} {a3 : BitVec 64} {a4 : Nat} {a5 : Tab Word} {a6 : Tab Word} {a7 : Tab Word} {a8 : List Host.Cell} {a9 : List Host.Cell} {a10 : List (Nat × Bytes)} {a11 : Tab Lane} {a12 : Nat} {a13 : Envm} {a14 : Option Bytes} {a15 : Power} {a16 : Cfg} {a17 : Peat} {a18 : Tab Bytes} {a19 : Tab Nat} {a20 : Tab Session} {a21 : Tab Slot} {a22 : Engines} {a23 : Trng} {a24 : Lf} {a25 : Nfc} {a26 : Tag} {a27 : Uwb} {a28 : Dist} {a29 : Release} {a30 : Mon} {a31 : Tab MoverRun} {a32 : Hif} {a33 : Cwy} {a34 : Flt} {a35 : Gov} {a36 : Option Nat} {a37 : Tab Word} {a38 : Nat × Tab Word} {a39 : Nat} {a40 : Tab Nat} {a41 : Nat × List Nat × List (Nat × Nat)} {a42 : List Irq} :
    still (State.mk a0 a1 a2 a3 a4 a5 a6 a7 a8 a9 a10 a11 a12 a13 a14 a15 a16 a17 a18 a19 a20 a21 a22 a23 a24 a25 a26 a27 a28 a29 a30 a31 a32 a33 a34 a35 a36 a37 a38 a39 a40 a41 a42) = (a0, a8, a9) := Eq.trans rfl rfl

/-! ### Ops -/

@[simp] theorem still_setReg (s : State) (a : Nat) (v : Word)  :
    still (State.setReg s a v) = still s := by
  unfold State.setReg
  repeat' (first | with_reducible rfl | simp only [still_lit, still_mk, ite_self, apply_ite still, implies_true, id_eq] | split)

@[simp] theorem still_srf (s : State) (a hi lo v : Nat)  :
    still (State.srf s a hi lo v) = still s := by
  unfold State.srf
  repeat' (first | with_reducible rfl | simp only [still_lit, still_mk, ite_self, apply_ite still, implies_true, id_eq, still_setReg] | split)

@[simp] theorem still_srb (s : State) (a i : Nat) (b : Bool)  :
    still (State.srb s a i b) = still s := by
  unfold State.srb
  repeat' (first | with_reducible rfl | simp only [still_lit, still_mk, ite_self, apply_ite still, implies_true, id_eq, still_srf] | split)

@[simp] theorem still_bump (s : State) (a hi lo n : Nat)  :
    still (State.bump s a hi lo n) = still s := by
  unfold State.bump
  repeat' (first | with_reducible rfl | simp only [still_lit, still_mk, ite_self, apply_ite still, implies_true, id_eq, still_srf] | split)

@[simp] theorem still_bumpSat (s : State) (a hi lo n : Nat)  :
    still (State.bumpSat s a hi lo n) = still s := by
  unfold State.bumpSat
  repeat' (first | with_reducible rfl | simp only [still_lit, still_mk, ite_self, apply_ite still, implies_true, id_eq, still_srf] | split)

@[simp] theorem still_resetRegs (s : State) (keep : Nat → Bool)  :
    still (State.resetRegs s keep) = still s := by
  unfold State.resetRegs
  repeat' (first | with_reducible rfl | simp only [still_lit, still_mk, ite_self, apply_ite still, implies_true, id_eq] | split)

@[simp] theorem still_freeW (s : State)  :
    still (State.freeW s).2 = still s := by
  unfold State.freeW
  repeat' (first | with_reducible rfl | simp only [still_lit, still_mk, ite_self, apply_ite still, implies_true, id_eq] | split)

@[simp] theorem still_freeBytes (s : State) (n : Nat)  :
    still (State.freeBytes s n).2 = still s := by
  unfold State.freeBytes
  repeat' (first | with_reducible rfl | simp only [still_lit, still_mk, ite_self, apply_ite still, implies_true, id_eq] | split)

@[simp] theorem still_raise (s : State) (i : Irq)  :
    still (State.raise s i) = still s := by
  unfold State.raise
  repeat' (first | with_reducible rfl | simp only [still_lit, still_mk, ite_self, apply_ite still, implies_true, id_eq] | split)

@[simp] theorem still_onlyIf (s : State) (c : Bool) (f : State → State) (h : ∀ s, still (f s) = still s) :
    still (s.onlyIf c f) = still s := onlyIf_view still h s c

@[simp] theorem still_each {α : Type} (s : State) (l : List α) (f : State → α → State)
    (h : ∀ s x, still (f s x) = still s) : still (s.each l f) = still s := each_view still h l s

@[simp] theorem still_refuse (s : State) (m : Master) (write : Bool) (a : Nat)  :
    still (State.refuse s m write a) = still s := by
  unfold State.refuse
  repeat' (first | with_reducible rfl | simp only [still_lit, still_mk, ite_self, apply_ite still, implies_true, id_eq, still_setReg, still_srf, still_srb, still_bump] | split)

@[simp] theorem still_accessFault (s : State) (m : Master)  :
    still (State.accessFault s m) = still s := by
  unfold State.accessFault
  repeat' (first | with_reducible rfl | simp only [still_lit, still_mk, ite_self, apply_ite still, implies_true, id_eq, still_raise] | split)

@[simp] theorem still_freeIn (s : State) (a : Nat) (mask : Word)  :
    still (State.freeIn s a mask) = still s := by
  unfold State.freeIn
  repeat' (first | with_reducible rfl | simp only [still_lit, still_mk, ite_self, apply_ite still, implies_true, id_eq, still_setReg, still_freeW] | split)

/-! ### Access -/

@[simp] theorem still_evt (s : State) (b code n : Nat)  :
    still (State.evt s b code n) = still s := by
  unfold State.evt
  repeat' (first | with_reducible rfl | simp only [still_lit, still_mk, ite_self, apply_ite still, implies_true, id_eq, still_setReg, still_srb, still_onlyIf, still_each] | split)

@[simp] theorem still_ended (s : State) (b : Nat) (status : Byte)  :
    still (State.ended s b status) = still s := by
  unfold State.ended
  repeat' (first | with_reducible rfl | simp only [still_lit, still_mk, ite_self, apply_ite still, implies_true, id_eq, still_onlyIf, still_evt] | split)

@[simp] theorem still_access (s : State) (m rights : Master) (user : Bool) (a kind : Nat)  :
    still (State.access s m rights user a kind) = still s := by
  unfold State.access
  repeat' (first | with_reducible rfl | simp only [still_lit, still_mk, ite_self, apply_ite still, implies_true, id_eq] | split)

@[simp] theorem still_refuseReg (s : State) (m : Master) (write : Bool) (a : Nat)  :
    still (State.refuseReg s m write a) = still s := by
  unfold State.refuseReg
  repeat' (first | with_reducible rfl | simp only [still_lit, still_mk, ite_self, apply_ite still, implies_true, id_eq, still_onlyIf, still_refuse, still_evt] | split)

@[simp] theorem still_writeAs (s : State) (m rights : Master) (user : Bool) (a : Nat) (f : State → State) (hf : ∀ x0, still (f x0) = still x0) :
    still (State.writeAs s m rights user a f) = still s := by
  unfold State.writeAs
  repeat' (first | with_reducible rfl | simp only [still_lit, still_mk, ite_self, apply_ite still, implies_true, id_eq, still_access, still_refuseReg, hf] | split)

@[simp] theorem still_owned (s : State) (m : Master) (a : Nat) (f : State → State) (hf : ∀ x0, still (f x0) = still x0) :
    still (State.owned s m a f) = still s := by
  unfold State.owned
  repeat' (first | with_reducible rfl | simp only [still_lit, still_mk, ite_self, apply_ite still, implies_true, id_eq, still_writeAs, hf] | split)

/-! ### Queues -/

@[simp] theorem still_setLane (s : State) (n : Nat) (l : Lane)  :
    still (State.setLane s n l) = still s := by
  unfold State.setLane
  repeat' (first | with_reducible rfl | simp only [still_lit, still_mk, ite_self, apply_ite still, implies_true, id_eq] | split)

@[simp] theorem still_drop (s : State) (n : Nat)  :
    still (State.drop s n) = still s := by
  unfold State.drop
  repeat' (first | with_reducible rfl | simp only [still_lit, still_mk, ite_self, apply_ite still, implies_true, id_eq, still_bump, still_evt] | split)

@[simp] theorem still_pushErr (s : State) (n : Nat)  :
    still (State.pushErr s n) = still s := by
  unfold State.pushErr
  repeat' (first | with_reducible rfl | simp only [still_lit, still_mk, ite_self, apply_ite still, implies_true, id_eq, still_srb] | split)

@[simp] theorem still_commit (s : State) (n : Nat) (p : Packet)  :
    still (State.commit s n p) = still s := by
  unfold State.commit
  repeat' (first | with_reducible rfl | simp only [still_lit, still_mk, ite_self, apply_ite still, implies_true, id_eq, still_setLane] | split)

@[simp] theorem still_jobAccepted (s : State) (n : Nat) (p : Packet)  :
    still (State.jobAccepted s n p) = still s := by
  unfold State.jobAccepted
  repeat' (first | with_reducible rfl | simp only [still_lit, still_mk, ite_self, apply_ite still, implies_true, id_eq, still_bump] | split)

@[simp] theorem still_tryCommit (s : State) (n : Nat) (peat : Bool) (p : Packet)  :
    still (State.tryCommit s n peat p) = still s := by
  unfold State.tryCommit
  repeat' (first | with_reducible rfl | simp only [still_lit, still_mk, ite_self, apply_ite still, implies_true, id_eq, still_evt, still_drop, still_commit, still_jobAccepted] | split)

theorem still_hwCommit {s t : State} {n : Nat} {p : Packet} (h : s.hwCommit n p = some t) : still t = still s := by
  unfold State.hwCommit at h
  split at h
  · cases h; simp only [still_evt, still_jobAccepted, still_commit]
  · cases h

@[simp] theorem still_hwGetD (s t : State) (n : Nat) (p : Packet) (h : still t = still s) :
    still ((s.hwCommit n p).getD t) = still s := by
  cases h' : s.hwCommit n p with
  | none => exact h
  | some u => exact still_hwCommit h'

@[simp] theorem still_keepWaiting (s : State) (n : Nat) (p : Packet)  :
    still (State.keepWaiting s n p) = still s := by
  unfold State.keepWaiting
  repeat' (first | with_reducible rfl | simp only [still_lit, still_mk, ite_self, apply_ite still, implies_true, id_eq] | split)

@[simp] theorem still_waitCommit (s : State) (n : Nat) (p : Packet) : still (s.waitCommit n p) = still s := by
  unfold State.waitCommit
  split
  · split
    · exact still_keepWaiting s n p
    · exact still_hwGetD s _ n p (still_keepWaiting s n p)
  · exact still_drop s n

@[simp] theorem still_feCommit (s : State) (n : Nat) (p : Packet) : still (s.feCommit n p) = still s := by
  unfold State.feCommit
  split
  · split
    · exact still_keepWaiting s n p
    · exact still_hwGetD s _ n p (still_drop s n)
  · exact still_drop s n

@[simp] theorem still_event (s : State) (ws : List Word)  :
    still (State.event s ws) = still s := by
  unfold State.event
  repeat' (first | with_reducible rfl | simp only [still_lit, still_mk, ite_self, apply_ite still, implies_true, id_eq, still_waitCommit] | split)

@[simp] theorem still_rewindOpen (s : State) (n w : Nat)  :
    still (State.rewindOpen s n w) = still s := by
  unfold State.rewindOpen
  repeat' (first | with_reducible rfl | simp only [still_lit, still_mk, ite_self, apply_ite still, implies_true, id_eq, still_setLane, still_drop] | split)

@[simp] theorem still_addItem (s : State) (n w : Nat) (peat : Bool) (p : Packet) (i : Item)  :
    still (State.addItem s n w peat p i) = still s := by
  unfold State.addItem
  repeat' (first | with_reducible rfl | simp only [still_lit, still_mk, ite_self, apply_ite still, implies_true, id_eq, still_onlyIf, still_setLane, still_pushErr, still_tryCommit] | split)

@[simp] theorem still_pushItem (s : State) (n w : Nat) (peat : Bool) (i : Item)  :
    still (State.pushItem s n w peat i) = still s := by
  unfold State.pushItem
  repeat' (first | with_reducible rfl | simp only [still_lit, still_mk, ite_self, apply_ite still, implies_true, id_eq, still_pushErr, still_rewindOpen, still_addItem] | split)

@[simp] theorem still_vanish (s : State) (n : Nat)  :
    still (State.vanish s n) = still s := by
  unfold State.vanish
  repeat' (first | with_reducible rfl | simp only [still_lit, still_mk, ite_self, apply_ite still, implies_true, id_eq, still_bump, still_drop] | split)

@[simp] theorem still_popOf (s : State) (n : Nat) (p : Packet)  :
    still (State.popOf s n p).2 = still s := by
  unfold State.popOf
  repeat' (first | with_reducible rfl | simp only [still_lit, still_mk, ite_self, apply_ite still, implies_true, id_eq, still_bump, still_evt, still_setLane, still_vanish] | split)

@[simp] theorem still_popItem (s : State) (n : Nat)  :
    still (State.popItem s n).2 = still s := by
  unfold State.popItem
  repeat' (first | with_reducible rfl | simp only [still_lit, still_mk, ite_self, apply_ite still, implies_true, id_eq, still_setLane, still_popOf] | split)

@[simp] theorem still_takeHead (s : State) (n : Nat)  :
    still (State.takeHead s n) = still s := by
  unfold State.takeHead
  repeat' (first | with_reducible rfl | simp only [still_lit, still_mk, ite_self, apply_ite still, implies_true, id_eq, still_evt, still_setLane] | split)

@[simp] theorem still_takeHeadIf (s : State) (n : Nat) (ok : Packet → Bool)  :
    still (State.takeHeadIf s n ok) = still s := by
  unfold State.takeHeadIf
  repeat' (first | with_reducible rfl | simp only [still_lit, still_mk, ite_self, apply_ite still, implies_true, id_eq, still_evt, still_setLane] | split)

@[simp] theorem still_countBroken (s : State) (n : Nat) (p : Packet)  :
    still (State.countBroken s n p) = still s := by
  unfold State.countBroken
  repeat' (first | with_reducible rfl | simp only [still_lit, still_mk, ite_self, apply_ite still, implies_true, id_eq, still_bump, still_vanish] | split)

@[simp] theorem still_itemsBy (s : State) (m rights : Master) (n kind count : Nat)  :
    still (State.itemsBy s m rights n kind count) = still s := by
  unfold State.itemsBy
  repeat' (first | with_reducible rfl | simp only [still_lit, still_mk, ite_self, apply_ite still, implies_true, id_eq, still_each, still_access] | split)

@[simp] theorem still_flushLane (s : State) (n : Nat)  :
    still (State.flushLane s n) = still s := by
  unfold State.flushLane
  repeat' (first | with_reducible rfl | simp only [still_lit, still_mk, ite_self, apply_ite still, implies_true, id_eq, still_setLane] | split)

@[simp] theorem still_flushQueue (s : State) (q : Nat)  :
    still (State.flushQueue s q) = still s := by
  unfold State.flushQueue
  repeat' (first | with_reducible rfl | simp only [still_lit, still_mk, ite_self, apply_ite still, implies_true, id_eq, still_srf, still_onlyIf, still_each, still_flushLane] | split)

/-! ### Draws -/

@[simp] theorem still_setCallers (s : State) (l : List Caller)  :
    still (State.setCallers s l) = still s := by
  unfold State.setCallers
  repeat' (first | with_reducible rfl | simp only [still_lit, still_mk, ite_self, apply_ite still, implies_true, id_eq] | split)

@[simp] theorem still_forgetDraw (s : State) (w : Drawer)  :
    still (State.forgetDraw s w) = still s := by
  unfold State.forgetDraw
  repeat' (first | with_reducible rfl | simp only [still_lit, still_mk, ite_self, apply_ite still, implies_true, id_eq] | split)

theorem still_drawn (s : State) (w : Drawer) (n : Nat) :
    match s.draw w n with
    | .wait t => still t = still s
    | .failed _ t => still t = still s
    | .got _ t => still t = still s := by
  unfold State.draw
  cases s.servedTo w with
  | some x =>
    dsimp only
    by_cases h : x.1 = cOk
    · rw [if_pos h]; exact still_forgetDraw s w
    · rw [if_neg h]; exact still_forgetDraw s w
  | none =>
    dsimp only
    by_cases h : s.rngFailed = true
    · rw [if_pos h]
    · rw [if_neg h]
      by_cases h' : s.drawWaits w = true
      · simp only [if_pos h']
      · simp only [if_neg h']; exact still_setCallers s _

@[simp] theorem still_draw_next (s : State) (w : Drawer) (n : Nat) (wait : State → State) (fail : Byte → State → State)
    (go : Bytes → State → State) (hw : ∀ s, still (wait s) = still s) (hf : ∀ c s, still (fail c s) = still s)
    (hg : ∀ b s, still (go b s) = still s) : still ((s.draw w n).next wait fail go) = still s := by
  have h := still_drawn s w n
  unfold Drawn.next
  cases hd : s.draw w n with
  | wait t => rw [hd] at h; exact (hw t).trans h
  | failed c t => rw [hd] at h; exact (hf c t).trans h
  | got b t => rw [hd] at h; exact (hg b t).trans h

/-! ### Keys -/

@[simp] theorem still_setSes (s : State) (n : Nat) (x : Session)  :
    still (State.setSes s n x) = still s := by
  unfold State.setSes
  repeat' (first | with_reducible rfl | simp only [still_lit, still_mk, ite_self, apply_ite still, implies_true, id_eq] | split)

@[simp] theorem still_modSes (s : State) (n : Nat) (f : Session → Session)  :
    still (State.modSes s n f) = still s := by
  unfold State.modSes
  repeat' (first | with_reducible rfl | simp only [still_lit, still_mk, ite_self, apply_ite still, implies_true, id_eq, still_setSes] | split)

@[simp] theorem still_loseJobs (s : State) (n : Nat)  :
    still (State.loseJobs s n) = still s := by
  unfold State.loseJobs
  repeat' (first | with_reducible rfl | simp only [still_lit, still_mk, ite_self, apply_ite still, implies_true, id_eq, still_setLane] | split)

@[simp] theorem still_jobView (s : State) (p : Packet)  :
    still (State.jobView s p) = still s := by
  unfold State.jobView
  repeat' (first | with_reducible rfl | simp only [still_lit, still_mk, ite_self, apply_ite still, implies_true, id_eq, still_onlyIf, still_each, still_modSes] | split)

@[simp] theorem still_freeSes (s : State) (n : Nat)  :
    still (State.freeSes s n) = still s := by
  unfold State.freeSes
  repeat' (first | with_reducible rfl | simp only [still_lit, still_mk, ite_self, apply_ite still, implies_true, id_eq, still_srb, still_onlyIf, still_each, still_setSes] | split)

@[simp] theorem still_closeOne (s : State) (n : Nat)  :
    still (State.closeOne s n) = still s := by
  unfold State.closeOne
  repeat' (first | with_reducible rfl | simp only [still_lit, still_mk, ite_self, apply_ite still, implies_true, id_eq, still_modSes, still_loseJobs, still_freeSes] | split)

@[simp] theorem still_closeSes (s : State) (n : Nat)  :
    still (State.closeSes s n) = still s := by
  unfold State.closeSes
  repeat' (first | with_reducible rfl | simp only [still_lit, still_mk, ite_self, apply_ite still, implies_true, id_eq, still_onlyIf, still_closeOne] | split)

@[simp] theorem still_closeAll (s : State)  :
    still (State.closeAll s) = still s := by
  unfold State.closeAll
  repeat' (first | with_reducible rfl | simp only [still_lit, still_mk, ite_self, apply_ite still, implies_true, id_eq, still_each, still_closeSes] | split)

@[simp] theorem still_useSes (s : State) (n : Nat)  :
    still (State.useSes s n) = still s := by
  unfold State.useSes
  repeat' (first | with_reducible rfl | simp only [still_lit, still_mk, ite_self, apply_ite still, implies_true, id_eq, still_modSes] | split)

@[simp] theorem still_setKey (s : State) (n : Nat) (k : Slot)  :
    still (State.setKey s n k) = still s := by
  unfold State.setKey
  repeat' (first | with_reducible rfl | simp only [still_lit, still_mk, ite_self, apply_ite still, implies_true, id_eq] | split)

@[simp] theorem still_dropKey (s : State) (n : Nat)  :
    still (State.dropKey s n) = still s := by
  unfold State.dropKey
  repeat' (first | with_reducible rfl | simp only [still_lit, still_mk, ite_self, apply_ite still, implies_true, id_eq] | split)

theorem still_writeBlob {s t : State} {n : Nat} {k : Slot} (h : s.writeBlob n k = some t) : still t = still s := by
  unfold State.writeBlob at h
  split at h
  · cases h
  · cases h; rfl

@[simp] theorem still_keyWrite (s : State) (ses : Bool) (slot off : Nat) (b : Bytes) :
    still (s.keyWrite ses slot off b) = still s := by
  unfold State.keyWrite
  split
  · rw [still_modSes]
  · split
    · rename_i k _
      rw [still_setKey]
      split
      · cases h : s.writeBlob slot { k with key := patch k.key off b } with
        | none => rfl
        | some t => exact still_writeBlob h
      · rfl
    · rw [still_setKey]

/-! ### Sched -/

@[simp] theorem still_forgetMixed (s : State) (l : List Packet)  :
    still (State.forgetMixed s l) = still s := by
  unfold State.forgetMixed
  repeat' (first | with_reducible rfl | simp only [still_lit, still_mk, ite_self, apply_ite still, implies_true, id_eq] | split)

@[simp] theorem still_takeJob (s : State) (p : Packet)  :
    still (State.takeJob s p) = still s := by
  unfold State.takeJob
  repeat' (first | with_reducible rfl | simp only [still_lit, still_mk, ite_self, apply_ite still, implies_true, id_eq, still_evt, still_setLane, still_forgetMixed] | split)

@[simp] theorem still_completeOne (s : State) (ch prio eng : Nat) (status : Byte) (ws : List Word)  :
    still (State.completeOne s ch prio eng status ws) = still s := by
  unfold State.completeOne
  repeat' (first | with_reducible rfl | simp only [still_lit, still_mk, ite_self, apply_ite still, implies_true, id_eq, still_srf, still_bump, still_onlyIf, still_evt, still_waitCommit] | split)

@[simp] theorem still_spongeFail (s : State) (w0 : Word) (status : Byte)  :
    still (State.spongeFail s w0 status) = still s := by
  unfold State.spongeFail
  repeat' (first | with_reducible rfl | simp only [still_lit, still_mk, ite_self, apply_ite still, implies_true, id_eq] | split)

@[simp] theorem still_completeWaiting (s : State) (ch : Nat) (status : Byte)  :
    still (State.completeWaiting s ch status) = still s := by
  unfold State.completeWaiting
  repeat' (first | with_reducible rfl | simp only [still_lit, still_mk, ite_self, apply_ite still, implies_true, id_eq, still_each, still_setLane, still_forgetMixed, still_completeOne, still_spongeFail] | split)

@[simp] theorem still_afterJob (s : State) (ch : Nat) (failed : Bool)  :
    still (State.afterJob s ch failed) = still s := by
  unfold State.afterJob
  repeat' (first | with_reducible rfl | simp only [still_lit, still_mk, ite_self, apply_ite still, implies_true, id_eq, still_onlyIf, still_completeWaiting] | split)

@[simp] theorem still_completeJob (s : State) (ch prio eng : Nat) (status : Byte) (ws : List Word)  :
    still (State.completeJob s ch prio eng status ws) = still s := by
  unfold State.completeJob
  repeat' (first | with_reducible rfl | simp only [still_lit, still_mk, ite_self, apply_ite still, implies_true, id_eq, still_completeOne, still_afterJob] | split)

@[simp] theorem still_drainWaiting (s : State)  :
    still (State.drainWaiting s) = still s := by
  unfold State.drainWaiting
  repeat' (first | with_reducible rfl | simp only [still_lit, still_mk, ite_self, apply_ite still, implies_true, id_eq, still_onlyIf, still_each, still_waitCommit, still_afterJob] | split)

@[simp] theorem still_refuseTaken (s : State) (p : Packet) (status : Byte)  :
    still (State.refuseTaken s p status) = still s := by
  unfold State.refuseTaken
  repeat' (first | with_reducible rfl | simp only [still_lit, still_mk, ite_self, apply_ite still, implies_true, id_eq, still_spongeFail, still_completeJob] | split)

@[simp] theorem still_refuseJob (s : State) (p : Packet) (status : Byte)  :
    still (State.refuseJob s p status) = still s := by
  unfold State.refuseJob
  repeat' (first | with_reducible rfl | simp only [still_lit, still_mk, ite_self, apply_ite still, implies_true, id_eq, still_takeJob, still_refuseTaken] | split)

@[simp] theorem still_takeJobData (s : State) (p : Packet)  :
    still (State.takeJobData s p) = still s := by
  unfold State.takeJobData
  repeat' (first | with_reducible rfl | simp only [still_lit, still_mk, ite_self, apply_ite still, implies_true, id_eq, still_takeHead, still_takeJob] | split)

@[simp] theorem still_alarmSession (s : State) (fault : Nat) (r : Run)  :
    still (State.alarmSession s fault r) = still s := by
  unfold State.alarmSession
  repeat' (first | with_reducible rfl | simp only [still_lit, still_mk, ite_self, apply_ite still, implies_true, id_eq, still_bumpSat, still_each, still_closeSes] | split)

@[simp] theorem still_release (s : State)  :
    still (State.release s) = still s := by
  unfold State.release
  repeat' (first | with_reducible rfl | simp only [still_lit, still_mk, ite_self, apply_ite still, implies_true, id_eq] | split)

@[simp] theorem still_countJob (s : State) (eng : Nat) (failed : Bool)  :
    still (State.countJob s eng failed) = still s := by
  unfold State.countJob
  repeat' (first | with_reducible rfl | simp only [still_lit, still_mk, ite_self, apply_ite still, implies_true, id_eq, still_bump, still_onlyIf, still_evt] | split)

@[simp] theorem still_innerJob (s : State) (eng : Nat)  :
    still (State.innerJob s eng).2 = still s := by
  unfold State.innerJob
  repeat' (first | with_reducible rfl | simp only [still_lit, still_mk, ite_self, apply_ite still, implies_true, id_eq, still_countJob] | split)

end Laws
end Sys2Proof
end

