-- ==== Sys2Proof/Laws/StillEngines.lean ====
section
/-!
SUPPORT. What leaves the waiting commands and the byte memories alone: the engines, the lockouts and the links.
-/
namespace Sys2Proof
namespace Laws

open Sys2Proof.Machine

set_option linter.unusedSimpArgs false
set_option linter.unusedVariables false
set_option linter.unusedTactic false
set_option linter.unreachableTactic false

/-! ### AesEngine -/

@[simp] theorem still_loadAesKey (s : State) (k : Bytes)  :
    still (State.loadAesKey s k) = still s := by
  unfold State.loadAesKey
  repeat' (first | with_reducible rfl | simp only [still_lit, still_mk, ite_self, apply_ite still, implies_true, id_eq] | split)

@[simp] theorem still_dropAes (s : State)  :
    still (State.dropAes s) = still s := by
  unfold State.dropAes
  repeat' (first | with_reducible rfl | simp only [still_lit, still_mk, ite_self, apply_ite still, implies_true, id_eq] | split)

@[simp] theorem still_aesUseSes (s : State) (d : List Word)  :
    still (aesUseSes s d) = still s := by
  unfold aesUseSes
  repeat' (first | with_reducible rfl | simp only [still_lit, still_mk, ite_self, apply_ite still, implies_true, id_eq, still_onlyIf, still_modSes, still_useSes] | split)

@[simp] theorem still_countSource (s : State) (src : Option (Nat × Packet))  :
    still (State.countSource s src) = still s := by
  unfold State.countSource
  repeat' (first | with_reducible rfl | simp only [still_lit, still_mk, ite_self, apply_ite still, implies_true, id_eq, still_countBroken] | split)

@[simp] theorem still_aesBegin (s : State) (p : Packet)  :
    still (aesBegin s p) = still s := by
  unfold aesBegin
  repeat' (first | with_reducible rfl | simp only [still_lit, still_mk, ite_self, apply_ite still, implies_true, id_eq, still_countBroken, still_jobView, still_refuseTaken, still_refuseJob, still_takeJobData, still_loadAesKey, still_aesUseSes, still_countSource] | split)

@[simp] theorem still_aesStart (m : Nat) (s : State)  :
    still (aesStart m s) = still s := by
  unfold aesStart
  repeat' (first | with_reducible rfl | simp only [still_lit, still_mk, ite_self, apply_ite still, implies_true, id_eq, still_aesBegin] | split)

@[simp] theorem still_rewindOut (s : State) (r : Run)  :
    still (State.rewindOut s r) = still s := by
  unfold State.rewindOut
  repeat' (first | with_reducible rfl | simp only [still_lit, still_mk, ite_self, apply_ite still, implies_true, id_eq, still_drop] | split)

@[simp] theorem still_endAes (s : State) (status : Byte)  :
    still (State.endAes s status) = still s := by
  unfold State.endAes
  repeat' (first | with_reducible rfl | simp only [still_lit, still_mk, ite_self, apply_ite still, implies_true, id_eq, still_onlyIf, still_completeJob, still_alarmSession, still_dropAes, still_rewindOut] | split)

@[simp] theorem still_aesFloor (s : State) (r : Run) (status : Byte)  :
    still (aesFloor s r status) = still s := by
  unfold aesFloor
  repeat' (first | with_reducible rfl | simp only [still_lit, still_mk, ite_self, apply_ite still, implies_true, id_eq, still_onlyIf, still_modSes] | split)

/-! ### BnOps -/


/-! ### BnEngine -/

@[simp] theorem still_freeStores (l : List (Nat × Nat)) : ∀ s : State, still (s.freeStores l).2 = still s := by
  induction l with
  | nil => intro s; rfl
  | cons a l ih =>
    intro s
    unfold State.freeStores
    dsimp only
    rw [ih, still_freeBytes]

@[simp] theorem still_bnSpoil (s : State) (a : Nat × Nat) (o : Option Run) : still (s.bnSpoil a o).2 = still s := by
  unfold State.bnSpoil
  split
  · split
    · exact still_freeStores _ s
    · rfl
  · rfl

@[simp] theorem still_bnShow (s : State) (ch op flags : Nat)  :
    still (State.bnShow s ch op flags) = still s := by
  unfold State.bnShow
  repeat' (first | with_reducible rfl | simp only [still_lit, still_mk, ite_self, apply_ite still, implies_true, id_eq, still_setReg] | split)

@[simp] theorem still_bnResume (s : State)  :
    still (State.bnResume s) = still s := by
  unfold State.bnResume
  repeat' (first | with_reducible rfl | simp only [still_lit, still_mk, ite_self, apply_ite still, implies_true, id_eq] | split)

@[simp] theorem still_abortCandidate (s : State) (ch : Nat)  :
    still (State.abortCandidate s ch) = still s := by
  unfold State.abortCandidate
  repeat' (first | with_reducible rfl | simp only [still_lit, still_mk, ite_self, apply_ite still, implies_true, id_eq, still_onlyIf, still_refuseJob] | split)

/-! ### HashEngine -/

@[simp] theorem still_hKeygenRun (s : State) (seed : Bytes) (r : Run)  :
    still (hKeygenRun s seed r).2 = still s := by
  unfold hKeygenRun
  repeat' (first | with_reducible rfl | simp only [still_lit, still_mk, ite_self, apply_ite still, implies_true, id_eq, still_freeW] | split)

@[simp] theorem still_hSeed (s : State) (r : Run) : still (hSeed s r).2 = still s := by
  have h := still_drawn s .keygen 32
  unfold hSeed
  cases hd : s.draw .keygen 32 with
  | wait t => rw [hd] at h; exact h
  | failed c t => rw [hd] at h; exact h
  | got b t => rw [hd] at h; exact (still_hKeygenRun t b r).trans h

@[simp] theorem still_hRun (s : State) (p : Packet) (d : List Word) (data : Bytes)  :
    still (hRun s p d data).2 = still s := by
  unfold hRun
  repeat' (first | with_reducible rfl | simp only [still_lit, still_mk, ite_self, apply_ite still, implies_true, id_eq, still_hSeed] | split)

@[simp] theorem still_hFreeOut (s : State) (r : Run)  :
    still (State.hFreeOut s r).2 = still s := by
  unfold State.hFreeOut
  repeat' (first | with_reducible rfl | simp only [still_lit, still_mk, ite_self, apply_ite still, implies_true, id_eq, still_freeBytes] | split)

@[simp] theorem still_hComplete (s : State) (r : Run) (status : Byte) (seq : Nat) (cycles : Word)  :
    still (State.hComplete s r status seq cycles) = still s := by
  unfold State.hComplete
  repeat' (first | with_reducible rfl | simp only [still_lit, still_mk, ite_self, apply_ite still, implies_true, id_eq, still_spongeFail, still_completeJob] | split)

@[simp] theorem still_hSkip (s : State) (r : Run)  :
    still (State.hSkip s r) = still s := by
  unfold State.hSkip
  repeat' (first | with_reducible rfl | simp only [still_lit, still_mk, ite_self, apply_ite still, implies_true, id_eq, still_onlyIf] | split)

@[simp] theorem still_endHsh (s : State) (status : Byte)  :
    still (State.endHsh s status) = still s := by
  unfold State.endHsh
  repeat' (first | with_reducible rfl | simp only [still_lit, still_mk, ite_self, apply_ite still, implies_true, id_eq, still_freeW, still_onlyIf, still_forgetDraw, still_alarmSession, still_hComplete, still_hSkip] | split)

@[simp] theorem still_hCommit (s : State) (r : Run)  :
    still (hCommit s r) = still s := by
  unfold hCommit
  repeat' (first | with_reducible rfl | simp only [still_lit, still_mk, ite_self, apply_ite still, implies_true, id_eq, still_drop] | split)

/-! ### Locks -/

@[simp] theorem still_setLock (s : State) (t : LockTarget) (l : Lockout)  :
    still (State.setLock s t l) = still s := by
  unfold State.setLock
  repeat' (first | with_reducible rfl | simp only [still_lit, still_mk, ite_self, apply_ite still, implies_true, id_eq] | split)

@[simp] theorem still_countFailure (s : State) (t : LockTarget)  :
    still (State.countFailure s t) = still s := by
  unfold State.countFailure
  repeat' (first | with_reducible rfl | simp only [still_lit, still_mk, ite_self, apply_ite still, implies_true, id_eq, still_setLock] | split)

@[simp] theorem still_clearFailures (s : State) (t : LockTarget)  :
    still (State.clearFailures s t) = still s := by
  unfold State.clearFailures
  repeat' (first | with_reducible rfl | simp only [still_lit, still_mk, ite_self, apply_ite still, implies_true, id_eq, still_setLock] | split)

@[simp] theorem still_refill (s : State)  :
    still (State.refill s) = still s := by
  unfold State.refill
  repeat' (first | with_reducible rfl | simp only [still_lit, still_mk, ite_self, apply_ite still, implies_true, id_eq] | split)

@[simp] theorem still_spendLf (s : State) (cost : Int)  :
    still (State.spendLf s cost) = still s := by
  unfold State.spendLf
  repeat' (first | with_reducible rfl | simp only [still_lit, still_mk, ite_self, apply_ite still, implies_true, id_eq] | split)

@[simp] theorem still_spendUwb (s : State) (cost : Int)  :
    still (State.spendUwb s cost) = still s := by
  unfold State.spendUwb
  repeat' (first | with_reducible rfl | simp only [still_lit, still_mk, ite_self, apply_ite still, implies_true, id_eq] | split)

@[simp] theorem still_internalSlots (s : State) (k : Nat)  :
    still (State.internalSlots s k) = still s := by
  unfold State.internalSlots
  repeat' (first | with_reducible rfl | simp only [still_lit, still_mk, ite_self, apply_ite still, implies_true, id_eq] | split)

@[simp] theorem still_feTake (s : State) (ch : Nat)  :
    still (State.feTake s ch) = still s := by
  unfold State.feTake
  repeat' (first | with_reducible rfl | simp only [still_lit, still_mk, ite_self, apply_ite still, implies_true, id_eq, still_takeHeadIf, still_itemsBy] | split)

@[simp] theorem still_feResult (s : State) (b ch : Nat) (status : Byte) (bytes : Bytes)  :
    still (State.feResult s b ch status bytes) = still s := by
  unfold State.feResult
  repeat' (first | with_reducible rfl | simp only [still_lit, still_mk, ite_self, apply_ite still, implies_true, id_eq, still_ended, still_feCommit] | split)

/-! ### Link -/

@[simp] theorem still_setPort (s : State) (p : Nat) (x : CwyPort)  :
    still (State.setPort s p x) = still s := by
  unfold State.setPort
  repeat' (first | with_reducible rfl | simp only [still_lit, still_mk, ite_self, apply_ite still, implies_true, id_eq] | split)

theorem still_seal (s : State) (f : Frame) (nh : Bytes) : still (s.seal f nh).2 = still s := by
  unfold State.seal
  repeat' (first | with_reducible rfl | simp only [still_lit, still_mk, still_innerJob] | split)

theorem still_sealed {s t : State} {f : Frame} {nh : Bytes} {x : Option Frame} (h : s.seal f nh = (x, t)) : still t = still s := by
  have := still_seal s f nh; rw [h] at this; exact this

@[simp] theorem still_sendNow (s : State) (p : Nat) (f : Frame)  :
    still (State.sendNow s p f) = still s := by
  unfold State.sendNow
  repeat' (first | with_reducible rfl | simp only [still_lit, still_mk, ite_self, apply_ite still, implies_true, id_eq, still_evt, still_setPort] | split)

@[simp] theorem still_pumpN (k p : Nat) : ∀ s : State, still (State.pumpN k p s) = still s := by
  induction k with
  | zero => intro s; rfl
  | succ k ih =>
    intro s
    unfold State.pumpN
    repeat' (first | with_reducible rfl | simp only [ih, still_setPort, still_sendNow] | split |
      refine (still_sealed (by assumption)).trans ?_)

@[simp] theorem still_pump (s : State) (p : Nat)  :
    still (State.pump s p) = still s := by
  unfold State.pump
  repeat' (first | with_reducible rfl | simp only [still_lit, still_mk, ite_self, apply_ite still, implies_true, id_eq, still_pumpN] | split)

@[simp] theorem still_place (s : State) (p : Nat) (f : Frame)  :
    still (State.place s p f).2 = still s := by
  unfold State.place
  repeat' (first | with_reducible rfl | simp only [still_lit, still_mk, ite_self, apply_ite still, implies_true, id_eq, still_setPort, still_pump] | split)

@[simp] theorem still_noRoute (s : State)  :
    still (State.noRoute s) = still s := by
  unfold State.noRoute
  repeat' (first | with_reducible rfl | simp only [still_lit, still_mk, ite_self, apply_ite still, implies_true, id_eq, still_bump] | split)

@[simp] theorem still_cwySend (s : State) (link : Nat) (f : Frame)  :
    still (State.cwySend s link f) = still s := by
  unfold State.cwySend
  repeat' (first | with_reducible rfl | simp only [still_lit, still_mk, ite_self, apply_ite still, implies_true, id_eq, still_place, still_noRoute] | split)

@[simp] theorem still_sendAuth (s : State) (dst cls sub : Nat) (body nh : Bytes)  :
    still (State.sendAuth s dst cls sub body nh) = still s := by
  unfold State.sendAuth
  repeat' (first | with_reducible rfl | simp only [still_lit, still_mk, ite_self, apply_ite still, implies_true, id_eq, still_cwySend] | split)

@[simp] theorem still_notice (s : State) (dst sub : Nat)  :
    still (State.notice s dst sub) = still s := by
  unfold State.notice
  repeat' (first | with_reducible rfl | simp only [still_lit, still_mk, ite_self, apply_ite still, implies_true, id_eq, still_sendAuth] | split)

@[simp] theorem still_restand (s : State)  :
    still (State.restand s) = still s := by
  unfold State.restand
  repeat' (first | with_reducible rfl | simp only [still_lit, still_mk, ite_self, apply_ite still, implies_true, id_eq, still_srf] | split)

@[simp] theorem still_active (s : State)  :
    still (State.active s) = still s := by
  unfold State.active
  repeat' (first | with_reducible rfl | simp only [still_lit, still_mk, ite_self, apply_ite still, implies_true, id_eq, still_onlyIf, still_notice, still_restand] | split)

end Laws
end Sys2Proof
end

