-- ==== Sys2Proof/Laws/StillFront.lean ====
section
/-!
SUPPORT. What leaves the waiting commands and the byte memories alone: the LF and NFC front ends, the random source, the key store, the sections and the tag island.
-/
namespace Sys2Proof
namespace Laws

open Sys2Proof.Machine

set_option linter.unusedSimpArgs false
set_option linter.unusedVariables false
set_option linter.unusedTactic false
set_option linter.unreachableTactic false

/-! ### Lf -/

@[simp] theorem still_lfFreeWords (s : State) (ws : List Word)  :
    still (State.lfFreeWords s ws).2 = still s := by
  unfold State.lfFreeWords
  repeat' (first | with_reducible rfl | simp only [still_lit, still_mk, ite_self, apply_ite still, implies_true, id_eq, still_freeBytes] | split)

@[simp] theorem still_lfCommit (s : State) (c : LfCmd) (status : Byte) (ws : List Word)  :
    still (State.lfCommit s c status ws) = still s := by
  unfold State.lfCommit
  repeat' (first | with_reducible rfl | simp only [still_lit, still_mk, ite_self, apply_ite still, implies_true, id_eq, still_feResult] | split)

@[simp] theorem still_logAuth (s : State) (a : AuthOk)  :
    still (State.logAuth s a) = still s := by
  unfold State.logAuth
  repeat' (first | with_reducible rfl | simp only [still_lit, still_mk, ite_self, apply_ite still, implies_true, id_eq, still_freeW, still_feCommit] | split)

@[simp] theorem still_logPair (s : State) (l : List AuthOk)  :
    still (State.logPair s l) = still s := by
  unfold State.logPair
  repeat' (first | with_reducible rfl | simp only [still_lit, still_mk, ite_self, apply_ite still, implies_true, id_eq, still_onlyIf, still_each, still_logAuth] | split)

@[simp] theorem still_authLast (s : State) (ch ses : Nat) (gen : BitVec 8) (status : Byte) (answer : Bool)  :
    still (State.authLast s ch ses gen status answer) = still s := by
  unfold State.authLast
  repeat' (first | with_reducible rfl | simp only [still_lit, still_mk, ite_self, apply_ite still, implies_true, id_eq, still_setReg, still_raise, still_onlyIf, still_logPair] | split)

@[simp] theorem still_lfRefuse (s : State) (c : LfCmd) (status : Byte)  :
    still (State.lfRefuse s c status) = still s := by
  unfold State.lfRefuse
  repeat' (first | with_reducible rfl | simp only [still_lit, still_mk, ite_self, apply_ite still, implies_true, id_eq, still_onlyIf, still_lfCommit, still_authLast] | split)

@[simp] theorem still_lfSweep (l : List LfCmd) : ∀ (seen : List Nat) (s : State),
    still (lfSweep seen l s).2 = still s := by
  induction l with
  | nil => intro seen s; rfl
  | cons c l ih =>
    intro seen s
    unfold lfSweep
    split
    · exact ih _ s
    · exact (ih seen _).trans (still_lfRefuse s c c.bad)

@[simp] theorem still_lfSettle (s : State)  :
    still (State.lfSettle s) = still s := by
  unfold State.lfSettle
  repeat' (first | with_reducible rfl | simp only [still_lit, still_mk, ite_self, apply_ite still, implies_true, id_eq, still_srb, still_onlyIf, still_forgetDraw, still_lfSweep] | split)

@[simp] theorem still_lfTake (code ch : Nat) (s : State)  :
    still (lfTake code ch s) = still s := by
  unfold lfTake
  repeat' (first | with_reducible rfl | simp only [still_lit, still_mk, ite_self, apply_ite still, implies_true, id_eq, still_countBroken, still_feTake, still_lfFreeWords, still_lfSettle] | split)

@[simp] theorem still_lfDrive (s : State) (n vdrv : Nat) (temp : Int) (aerial : Nat) :
    still (s.lfDrive n vdrv temp aerial) = still s := by
  have h : ∀ c : Bool, still (s.onlyIf c fun _ => s.freeW.2) = still s := by
    intro c; cases c <;> simp [still_freeW]
  unfold State.lfDrive
  simp only [still_onlyIf, still_srf, h, implies_true]

@[simp] theorem still_lfIdle (s : State)  :
    still (State.lfIdle s) = still s := by
  unfold State.lfIdle
  repeat' (first | with_reducible rfl | simp only [still_lit, still_mk, ite_self, apply_ite still, implies_true, id_eq, still_setReg, still_srb] | split)

@[simp] theorem still_lfFaults (s : State) (l : List Nat) (opens shorts : Nat)  :
    still (State.lfFaults s l opens shorts) = still s := by
  unfold State.lfFaults
  repeat' (first | with_reducible rfl | simp only [still_lit, still_mk, ite_self, apply_ite still, implies_true, id_eq, still_srb, still_onlyIf, still_each] | split)

@[simp] theorem still_lfDroop (s : State) (n : Nat) (obs : LfConditions)  :
    still (State.lfDroop s n obs) = still s := by
  unfold State.lfDroop
  repeat' (first | with_reducible rfl | simp only [still_lit, still_mk, ite_self, apply_ite still, implies_true, id_eq, still_srf, still_onlyIf, still_internalSlots] | split)

@[simp] theorem still_lfChallenge (s : State) (n : Nat) (rc : Bytes)  :
    still (State.lfChallenge s n rc).2 = still s := by
  unfold State.lfChallenge
  repeat' (first | with_reducible rfl | simp only [still_lit, still_mk, ite_self, apply_ite still, implies_true, id_eq, still_useSes, still_countJob] | split)

@[simp] theorem still_lfBurst (s : State) (c : LfCmd) (l : List Nat) (obs : LfConditions) (fail : State → State) (run : State → State) (hfail : ∀ x0, still (fail x0) = still x0) (hrun : ∀ x0, still (run x0) = still x0) :
    still (State.lfBurst s c l obs fail run) = still s := by
  unfold State.lfBurst
  repeat' (first | with_reducible rfl | simp only [still_lit, still_mk, ite_self, apply_ite still, implies_true, id_eq, still_each, still_spendLf, still_lfDrive, still_lfFaults, still_lfDroop, hfail, hrun] | split)

@[simp] theorem still_lfDriving (s : State) (l : List Nat)  :
    still (State.lfDriving s l) = still s := by
  unfold State.lfDriving
  repeat' (first | with_reducible rfl | simp only [still_lit, still_mk, ite_self, apply_ite still, implies_true, id_eq, still_setReg, still_srb] | split)

@[simp] theorem still_lfRun (s : State) (c : LfCmd) (rc : Bytes) (obs : LfConditions)  :
    still (State.lfRun s c rc obs) = still s := by
  unfold State.lfRun
  repeat' (first | with_reducible rfl | simp only [still_lit, still_mk, ite_self, apply_ite still, implies_true, id_eq, still_lfRefuse, still_lfSettle, still_lfChallenge, still_lfBurst, still_lfDriving] | split)

@[simp] theorem still_lfDismiss (s : State) (c : LfCmd) (status : Byte)  :
    still (State.lfDismiss s c status) = still s := by
  unfold State.lfDismiss
  repeat' (first | with_reducible rfl | simp only [still_lit, still_mk, ite_self, apply_ite still, implies_true, id_eq, still_lfRefuse, still_lfSettle] | split)

@[simp] theorem still_lfCommandStart (s : State) (obs : LfConditions)  :
    still (lfCommandStart s obs) = still s := by
  unfold lfCommandStart
  repeat' (first | with_reducible rfl | simp only [still_lit, still_mk, ite_self, apply_ite still, implies_true, id_eq, still_srb, still_onlyIf, still_drawn, still_draw_next, still_refill, still_lfRun, still_lfDismiss] | split)

@[simp] theorem still_lfNext (s : State) (x : LfExch)  :
    still (State.lfNext s x) = still s := by
  unfold State.lfNext
  repeat' (first | with_reducible rfl | simp only [still_lit, still_mk, ite_self, apply_ite still, implies_true, id_eq, still_setReg, still_lfSettle, still_lfIdle] | split)

@[simp] theorem still_lfEnd (s : State) (x : LfExch) (status : Byte) (coll answer : Bool) (tid : Word) (axes : Option Axes)  :
    still (State.lfEnd s x status coll answer tid axes) = still s := by
  unfold State.lfEnd
  repeat' (first | with_reducible rfl | simp only [still_lit, still_mk, ite_self, apply_ite still, implies_true, id_eq, still_onlyIf, still_lfFreeWords, still_lfCommit, still_authLast, still_lfNext] | split)

@[simp] theorem still_lfSlotStart (s : State) (x : LfExch) (obs : LfConditions)  :
    still (lfSlotStart s x obs) = still s := by
  unfold lfSlotStart
  repeat' (first | with_reducible rfl | simp only [still_lit, still_mk, ite_self, apply_ite still, implies_true, id_eq, still_srb, still_onlyIf, still_refill, still_lfBurst, still_lfDriving, still_lfEnd] | split)

@[simp] theorem still_lfExchangeStart (s : State) (obs : LfConditions)  :
    still (lfExchangeStart s obs) = still s := by
  unfold lfExchangeStart
  repeat' (first | with_reducible rfl | simp only [still_lit, still_mk, ite_self, apply_ite still, implies_true, id_eq, still_lfCommandStart, still_lfSlotStart] | split)

@[simp] theorem still_lfAuthResult (s : State) (x : LfExch) (ok : Bool)  :
    still (State.lfAuthResult s x ok) = still s := by
  unfold State.lfAuthResult
  repeat' (first | with_reducible rfl | simp only [still_lit, still_mk, ite_self, apply_ite still, implies_true, id_eq, still_countFailure, still_clearFailures, still_active] | split)

@[simp] theorem still_lfAnswered (s : State) (x : LfExch) (reply : LfReply)  :
    still (lfAnswered s x reply) = still s := by
  unfold lfAnswered
  repeat' (first | with_reducible rfl | simp only [still_lit, still_mk, ite_self, apply_ite still, implies_true, id_eq, still_onlyIf, still_lfEnd, still_lfAuthResult] | split)

@[simp] theorem still_lfTuned (l : List Nat) : ∀ (peaks : List (List Nat)) (s : State),
    still (lfTuned l peaks s).2 = still s := by
  induction l with
  | nil => intro peaks s; rfl
  | cons c l ih =>
    intro peaks s
    refine (ih _ _).trans ?_
    simp only [still_lit, still_mk, still_srf]

@[simp] theorem still_lfExchangeEnd (s : State) (tones : Axes) (peaks : List (List Nat))  :
    still (lfExchangeEnd s tones peaks) = still s := by
  unfold lfExchangeEnd
  repeat' (first | with_reducible rfl | simp only [still_lit, still_mk, ite_self, apply_ite still, implies_true, id_eq, still_lfFreeWords, still_lfCommit, still_lfSettle, still_lfIdle, still_lfEnd, still_lfTuned] | split)

@[simp] theorem still_lfStop (s : State) (status : Byte)  :
    still (State.lfStop s status) = still s := by
  unfold State.lfStop
  repeat' (first | with_reducible rfl | simp only [still_lit, still_mk, ite_self, apply_ite still, implies_true, id_eq, still_lfEnd] | split)

@[simp] theorem still_lfDrop (s : State) (ch : Nat) (status : Byte)  :
    still (State.lfDrop s ch status) = still s := by
  unfold State.lfDrop
  repeat' (first | with_reducible rfl | simp only [still_lit, still_mk, ite_self, apply_ite still, implies_true, id_eq, still_lfSettle] | split)

@[simp] theorem still_lfCarrier (v : Word) (s : State)  :
    still (lfCarrier v s) = still s := by
  unfold lfCarrier
  repeat' (first | with_reducible rfl | simp only [still_lit, still_mk, ite_self, apply_ite still, implies_true, id_eq, still_setReg, still_srb] | split)

/-! ### Nfc -/

@[simp] theorem still_nfcSpoil (s : State)  :
    still (State.nfcSpoil s) = still s := by
  unfold State.nfcSpoil
  repeat' (first | with_reducible rfl | simp only [still_lit, still_mk, ite_self, apply_ite still, implies_true, id_eq] | split)

@[simp] theorem still_nfcEnd (s : State) (c : NfcCmd) (status : Byte) (x : NfcInfo) (data : Bytes)  :
    still (State.nfcEnd s c status x data) = still s := by
  unfold State.nfcEnd
  repeat' (first | with_reducible rfl | simp only [still_lit, still_mk, ite_self, apply_ite still, implies_true, id_eq, still_freeBytes, still_feResult] | split)

@[simp] theorem still_nfcDrop (s : State)  :
    still (State.nfcDrop s) = still s := by
  unfold State.nfcDrop
  repeat' (first | with_reducible rfl | simp only [still_lit, still_mk, ite_self, apply_ite still, implies_true, id_eq] | split)

@[simp] theorem still_nfcSend (s : State) (b : Bytes)  :
    still (State.nfcSend s b) = still s := by
  unfold State.nfcSend
  repeat' (first | with_reducible rfl | simp only [still_lit, still_mk, ite_self, apply_ite still, implies_true, id_eq] | split)

@[simp] theorem still_nfcHalt (s : State)  :
    still (State.nfcHalt s) = still s := by
  unfold State.nfcHalt
  repeat' (first | with_reducible rfl | simp only [still_lit, still_mk, ite_self, apply_ite still, implies_true, id_eq] | split)

@[simp] theorem still_nfcBad (s : State) (c : NfcCmd)  :
    still (State.nfcBad s c) = still s := by
  unfold State.nfcBad
  repeat' (first | with_reducible rfl | simp only [still_lit, still_mk, ite_self, apply_ite still, implies_true, id_eq, still_nfcEnd, still_nfcSend, still_nfcHalt] | split)

@[simp] theorem still_ping (s : State) (p : Ping)  :
    still (State.ping s p).2 = still s := by
  unfold State.ping
  repeat' (first | with_reducible rfl | simp only [still_lit, still_mk, ite_self, apply_ite still, implies_true, id_eq, still_setReg] | split)

@[simp] theorem still_nfcExt (s : State) (c : NfcCmd)  :
    still (State.nfcExt s c) = still s := by
  unfold State.nfcExt
  repeat' (first | with_reducible rfl | simp only [still_lit, still_mk, ite_self, apply_ite still, implies_true, id_eq, still_srb, still_nfcEnd] | split)

@[simp] theorem still_nfcOff (s : State) (guard : Bool)  :
    still (State.nfcOff s guard) = still s := by
  unfold State.nfcOff
  repeat' (first | with_reducible rfl | simp only [still_lit, still_mk, ite_self, apply_ite still, implies_true, id_eq] | split)

@[simp] theorem still_nfcRun (s : State) (c : NfcCmd) (ext : Bool) (det : Ping)  :
    still (State.nfcRun s c ext det) = still s := by
  unfold State.nfcRun
  repeat' (first | with_reducible rfl | simp only [still_lit, still_mk, ite_self, apply_ite still, implies_true, id_eq, still_nfcEnd, still_ping, still_nfcExt, still_nfcOff] | split)

@[simp] theorem still_nfcTake (code ch : Nat) (ext : Bool) (det : Ping) (s : State)  :
    still (nfcTake code ch ext det s) = still s := by
  unfold nfcTake
  repeat' (first | with_reducible rfl | simp only [still_lit, still_mk, ite_self, apply_ite still, implies_true, id_eq, still_drop, still_countBroken, still_feTake, still_nfcEnd, still_nfcRun] | split)

@[simp] theorem still_activateA (s : State) (c : NfcCmd) (cards : List CardA)  :
    still (State.activateA s c cards) = still s := by
  unfold State.activateA
  repeat' (first | with_reducible rfl | simp only [still_lit, still_mk, ite_self, apply_ite still, implies_true, id_eq, still_nfcEnd, still_nfcDrop] | split)

@[simp] theorem still_roundLost (s : State) (c : NfcCmd) (e : Nat) (coll : Bool)  :
    still (State.roundLost s c e coll) = still s := by
  unfold State.roundLost
  repeat' (first | with_reducible rfl | simp only [still_lit, still_mk, ite_self, apply_ite still, implies_true, id_eq, still_nfcEnd, still_nfcDrop] | split)

@[simp] theorem still_activateB (c : NfcCmd) (l : List (List SlotB)) : ∀ (s : State) (e : Nat) (coll : Bool),
    still (s.activateB c e coll l) = still s := by
  induction l with
  | nil => intro s e coll; simp only [State.activateB, still_roundLost]
  | cons r l ih =>
    intro s e coll
    simp only [State.activateB]
    repeat' (first | with_reducible rfl | simp only [still_lit, still_mk, still_nfcEnd, still_roundLost, ih] | split)

@[simp] theorem still_nfcNoAnswer (s : State) (c : NfcCmd)  :
    still (State.nfcNoAnswer s c) = still s := by
  unfold State.nfcNoAnswer
  repeat' (first | with_reducible rfl | simp only [still_lit, still_mk, ite_self, apply_ite still, implies_true, id_eq, still_onlyIf, still_nfcEnd, still_nfcDrop] | split)

@[simp] theorem still_nfcRetry (s : State) (c : NfcCmd) (give : State → State) (hgive : ∀ x0, still (give x0) = still x0) :
    still (State.nfcRetry s c give) = still s := by
  unfold State.nfcRetry
  repeat' (first | with_reducible rfl | simp only [still_lit, still_mk, ite_self, apply_ite still, implies_true, id_eq, still_nfcSend, hgive] | split)

@[simp] theorem still_nfcStep (s : State) (n : Nat)  :
    still (State.nfcStep s n) = still s := by
  unfold State.nfcStep
  repeat' (first | with_reducible rfl | simp only [still_lit, still_mk, ite_self, apply_ite still, implies_true, id_eq] | split)

@[simp] theorem still_nfcRest (s : State) (l later : List Bytes)  :
    still (State.nfcRest s l later) = still s := by
  unfold State.nfcRest
  repeat' (first | with_reducible rfl | simp only [still_lit, still_mk, ite_self, apply_ite still, implies_true, id_eq, still_nfcStep] | split)

@[simp] theorem still_nfcAcked (s : State)  :
    still (State.nfcAcked s) = still s := by
  unfold State.nfcAcked
  repeat' (first | with_reducible rfl | simp only [still_lit, still_mk, ite_self, apply_ite still, implies_true, id_eq, still_nfcSend, still_nfcStep] | split)

@[simp] theorem still_nfcAcks (n : Nat) : ∀ s : State, still (s.nfcAcks n) = still s := by
  induction n with
  | zero => intro s; rfl
  | succ n ih => intro s; exact (ih _).trans (still_nfcAcked s)

@[simp] theorem still_nfcExchanged (s : State) (blocks : Nat)  :
    still (State.nfcExchanged s blocks) = still s := by
  unfold State.nfcExchanged
  repeat' (first | with_reducible rfl | simp only [still_lit, still_mk, ite_self, apply_ite still, implies_true, id_eq, still_nfcStep, still_nfcRest, still_nfcAcks] | split)

@[simp] theorem still_nfcBlock (s : State) (c : NfcCmd) (reply : NfcReply)  :
    still (State.nfcBlock s c reply) = still s := by
  unfold State.nfcBlock
  repeat' (first | with_reducible rfl | simp only [still_lit, still_mk, ite_self, apply_ite still, implies_true, id_eq, still_nfcBad, still_nfcRest, still_nfcAcked] | split)

@[simp] theorem still_nfcRawAnswer (s : State) (c : NfcCmd) (b : Bytes)  :
    still (State.nfcRawAnswer s c b) = still s := by
  unfold State.nfcRawAnswer
  repeat' (first | with_reducible rfl | simp only [still_lit, still_mk, ite_self, apply_ite still, implies_true, id_eq, still_nfcEnd, still_nfcBad] | split)

@[simp] theorem still_nfcAnswered (reply : NfcReply) (s : State)  :
    still (nfcAnswered reply s) = still s := by
  unfold nfcAnswered
  repeat' (first | with_reducible rfl | simp only [still_lit, still_mk, ite_self, apply_ite still, implies_true, id_eq, still_nfcEnd, still_nfcSend, still_nfcHalt, still_nfcBad, still_activateA, still_activateB, still_nfcNoAnswer, still_nfcRetry, still_nfcExchanged, still_nfcBlock, still_nfcRawAnswer] | split)

@[simp] theorem still_nfcExpired (s : State)  :
    still (nfcExpired s) = still s := by
  unfold nfcExpired
  repeat' (first | with_reducible rfl | simp only [still_lit, still_mk, ite_self, apply_ite still, implies_true, id_eq, still_activateB, still_nfcNoAnswer, still_nfcRetry] | split)

@[simp] theorem still_guardExpired (s : State)  :
    still (guardExpired s) = still s := by
  unfold guardExpired
  repeat' (first | with_reducible rfl | simp only [still_lit, still_mk, ite_self, apply_ite still, implies_true, id_eq, still_nfcEnd] | split)

@[simp] theorem still_nfcStop (s : State) (status : Byte)  :
    still (State.nfcStop s status) = still s := by
  unfold State.nfcStop
  repeat' (first | with_reducible rfl | simp only [still_lit, still_mk, ite_self, apply_ite still, implies_true, id_eq, still_nfcEnd] | split)

/-! ### Trng -/

@[simp] theorem still_setRng (s : State) (v : Nat)  :
    still (State.setRng s v) = still s := by
  unfold State.setRng
  repeat' (first | with_reducible rfl | simp only [still_lit, still_mk, ite_self, apply_ite still, implies_true, id_eq, still_srf] | split)

@[simp] theorem still_endPort (s : State) (status : Byte)  :
    still (State.endPort s status) = still s := by
  unfold State.endPort
  repeat' (first | with_reducible rfl | simp only [still_lit, still_mk, ite_self, apply_ite still, implies_true, id_eq, still_srf, still_ended, still_setCallers] | split)

@[simp] theorem still_endRequests (s : State) (status : Byte)  :
    still (State.endRequests s status) = still s := by
  unfold State.endRequests
  repeat' (first | with_reducible rfl | simp only [still_lit, still_mk, ite_self, apply_ite still, implies_true, id_eq, still_endPort] | split)

@[simp] theorem still_discardOutput (s : State)  :
    still (State.discardOutput s) = still s := by
  unfold State.discardOutput
  repeat' (first | with_reducible rfl | simp only [still_lit, still_mk, ite_self, apply_ite still, implies_true, id_eq] | split)

@[simp] theorem still_askReseeds (s : State)  :
    still (State.askReseeds s) = still s := by
  unfold State.askReseeds
  repeat' (first | with_reducible rfl | simp only [still_lit, still_mk, ite_self, apply_ite still, implies_true, id_eq, still_onlyIf, still_each, still_setCallers] | split)

@[simp] theorem still_rngPowerUp (s : State) (resume : Bool)  :
    still (State.rngPowerUp s resume) = still s := by
  unfold State.rngPowerUp
  repeat' (first | with_reducible rfl | simp only [still_lit, still_mk, ite_self, apply_ite still, implies_true, id_eq, still_setReg, still_srf, still_each, still_setRng, still_discardOutput, still_askReseeds] | split)

@[simp] theorem still_rngPowerDown (s : State)  :
    still (State.rngPowerDown s) = still s := by
  unfold State.rngPowerDown
  repeat' (first | with_reducible rfl | simp only [still_lit, still_mk, ite_self, apply_ite still, implies_true, id_eq, still_onlyIf, still_setRng, still_endRequests, still_discardOutput] | split)

@[simp] theorem still_rngRestart (s : State)  :
    still (State.rngRestart s) = still s := by
  unfold State.rngRestart
  repeat' (first | with_reducible rfl | simp only [still_lit, still_mk, ite_self, apply_ite still, implies_true, id_eq, still_srf, still_setRng, still_discardOutput, still_askReseeds] | split)

@[simp] theorem still_rngAlarm (s : State)  :
    still (State.rngAlarm s) = still s := by
  unfold State.rngAlarm
  repeat' (first | with_reducible rfl | simp only [still_lit, still_mk, ite_self, apply_ite still, implies_true, id_eq, still_rngRestart] | split)

@[simp] theorem still_rngSettled (s : State)  :
    still (rngSettled s) = still s := by
  unfold rngSettled
  repeat' (first | with_reducible rfl | simp only [still_lit, still_mk, ite_self, apply_ite still, implies_true, id_eq, still_setRng] | split)

@[simp] theorem still_rngTested (s : State)  :
    still (rngTested s) = still s := by
  unfold rngTested
  repeat' (first | with_reducible rfl | simp only [still_lit, still_mk, ite_self, apply_ite still, implies_true, id_eq] | split)

@[simp] theorem still_reseeded (s : State) (n : Nat)  :
    still (State.reseeded s n) = still s := by
  unfold State.reseeded
  repeat' (first | with_reducible rfl | simp only [still_lit, still_mk, ite_self, apply_ite still, implies_true, id_eq, still_setReg] | split)

@[simp] theorem still_serve (l : List Caller) : ∀ (s : State) (b : Bytes), still (s.serve l b) = still s := by
  induction l with
  | nil => intro s b; exact still_setCallers s []
  | cons c l ih =>
    intro s b
    cases c <;> simp only [State.serve] <;>
      repeat' (first | with_reducible rfl | simp only [ih, still_lit, still_mk, still_ended, still_srf, still_setCallers] | split)

@[simp] theorem still_deliverBlock (s : State) (b : Bytes)  :
    still (State.deliverBlock s b) = still s := by
  unfold State.deliverBlock
  repeat' (first | with_reducible rfl | simp only [still_lit, still_mk, ite_self, apply_ite still, implies_true, id_eq, still_setCallers, still_reseeded, still_serve] | split)

@[simp] theorem still_rngDeclare (s : State)  :
    still (State.rngDeclare s) = still s := by
  unfold State.rngDeclare
  repeat' (first | with_reducible rfl | simp only [still_lit, still_mk, ite_self, apply_ite still, implies_true, id_eq, still_raise, still_setRng, still_endRequests] | split)

@[simp] theorem still_healthFailure (sources : Nat) (rct apt : Bool) (s : State)  :
    still (healthFailure sources rct apt s) = still s := by
  unfold healthFailure
  repeat' (first | with_reducible rfl | simp only [still_lit, still_mk, ite_self, apply_ite still, implies_true, id_eq, still_setReg, still_srf, still_rngDeclare] | split)

@[simp] theorem still_poolComplete (raw : Bytes) (s : State)  :
    still (poolComplete raw s) = still s := by
  unfold poolComplete
  repeat' (first | with_reducible rfl | simp only [still_lit, still_mk, ite_self, apply_ite still, implies_true, id_eq, still_srf, still_setRng, still_deliverBlock, still_healthFailure] | split)

@[simp] theorem still_makeKis (s : State) (b : Bytes)  :
    still (State.makeKis s b) = still s := by
  unfold State.makeKis
  repeat' (first | with_reducible rfl | simp only [still_lit, still_mk, ite_self, apply_ite still, implies_true, id_eq] | split)

@[simp] theorem still_kisIfDue (s : State)  :
    still (State.kisIfDue s) = still s := by
  unfold State.kisIfDue
  repeat' (first | with_reducible rfl | simp only [still_lit, still_mk, ite_self, apply_ite still, implies_true, id_eq, still_drawn, still_draw_next, still_makeKis] | split)

@[simp] theorem still_trngCtl (v : Word) (s : State)  :
    still (trngCtl v s) = still s := by
  unfold trngCtl
  repeat' (first | with_reducible rfl | simp only [still_lit, still_mk, ite_self, apply_ite still, implies_true, id_eq, still_srf, still_onlyIf, still_rngRestart] | split)

@[simp] theorem still_portReq (v : Word) (s : State)  :
    still (portReq v s) = still s := by
  unfold portReq
  repeat' (first | with_reducible rfl | simp only [still_lit, still_mk, ite_self, apply_ite still, implies_true, id_eq, still_srf, still_freeBytes, still_freeIn, still_ended, still_setCallers] | split)

@[simp] theorem still_answer (s : State) (m : Master) (v : Word)  :
    still (State.answer s m v) = still s := by
  unfold State.answer
  repeat' (first | with_reducible rfl | simp only [still_lit, still_mk, ite_self, apply_ite still, implies_true, id_eq] | split)

@[simp] theorem still_trngOut (m : Master) (s : State)  :
    still (trngOut m s) = still s := by
  unfold trngOut
  repeat' (first | with_reducible rfl | simp only [still_lit, still_mk, ite_self, apply_ite still, implies_true, id_eq, still_srb, still_answer] | split)

@[simp] theorem still_reads (s : State) (m : Master) (a : Nat) (f : State → State) (hf : ∀ x0, still (f x0) = still x0) :
    still (State.reads s m a f) = still s := by
  unfold State.reads
  repeat' (first | with_reducible rfl | simp only [still_lit, still_mk, ite_self, apply_ite still, implies_true, id_eq, still_access, still_refuseReg, still_answer, hf] | split)

@[simp] theorem still_reseedDue (n : Nat) (s : State)  :
    still (reseedDue n s) = still s := by
  unfold reseedDue
  repeat' (first | with_reducible rfl | simp only [still_lit, still_mk, ite_self, apply_ite still, implies_true, id_eq, still_srf, still_srb, still_setCallers] | split)

@[simp] theorem still_generatorStopped (n : Nat) (s : State)  :
    still (generatorStopped n s) = still s := by
  unfold generatorStopped
  repeat' (first | with_reducible rfl | simp only [still_lit, still_mk, ite_self, apply_ite still, implies_true, id_eq, still_srf, still_srb] | split)

/-! ### KeyStore -/

@[simp] theorem still_setCounter (s : State) (n : Nat) (v : Word)  :
    still (State.setCounter s n v) = still s := by
  unfold State.setCounter
  repeat' (first | with_reducible rfl | simp only [still_lit, still_mk, ite_self, apply_ite still, implies_true, id_eq] | split)

theorem still_incCounter {s t : State} {n : Nat} (h : s.incCounter n = some t) : still t = still s := by
  unfold State.incCounter at h
  split at h
  · cases h
  · cases h; exact still_setCounter s n _

@[simp] theorem still_eraseBlob (s : State) (n : Nat)  :
    still (State.eraseBlob s n) = still s := by
  unfold State.eraseBlob
  repeat' (first | with_reducible rfl | simp only [still_lit, still_mk, ite_self, apply_ite still, implies_true, id_eq] | split)

@[simp] theorem still_loadBlob (s : State) (n : Nat) (r : BlobRows)  :
    still (State.loadBlob s n r) = still s := by
  unfold State.loadBlob
  repeat' (first | with_reducible rfl | simp only [still_lit, still_mk, ite_self, apply_ite still, implies_true, id_eq, still_srb, still_setKey] | split)

@[simp] theorem still_loadBlobs (s : State)  :
    still (State.loadBlobs s) = still s := by
  unfold State.loadBlobs
  repeat' (first | with_reducible rfl | simp only [still_lit, still_mk, ite_self, apply_ite still, implies_true, id_eq, still_each, still_loadBlob] | split)

@[simp] theorem still_putStatic (s : State) (n : Nat) (k : Slot)  :
    still (State.putStatic s n k).2 = still s := by
  unfold State.putStatic
  repeat' (first | with_reducible rfl | simp only [still_lit, still_mk, ite_self, apply_ite still, implies_true, id_eq, still_setKey, still_eraseBlob] | split | refine (still_writeBlob (by assumption)).trans ?_)

@[simp] theorem still_kstPut (s : State) (r w : Word) (origin : Nat) (key : Bytes)  :
    still (State.kstPut s r w origin key).2 = still s := by
  unfold State.kstPut
  repeat' (first | with_reducible rfl | simp only [still_lit, still_mk, ite_self, apply_ite still, implies_true, id_eq, still_keyWrite, still_putStatic] | split)

@[simp] theorem still_peatMem (s : State) (a n : Nat)  :
    still (State.peatMem s a n).2 = still s := by
  unfold State.peatMem
  repeat' (first | with_reducible rfl | simp only [still_lit, still_mk, ite_self, apply_ite still, implies_true, id_eq, still_freeBytes] | split)

@[simp] theorem still_setKst (s : State) (k : Option KstRun)  :
    still (State.setKst s k) = still s := by
  unfold State.setKst
  repeat' (first | with_reducible rfl | simp only [still_lit, still_mk, ite_self, apply_ite still, implies_true, id_eq] | split)

@[simp] theorem still_kstEnd (s : State) (status : Byte)  :
    still (State.kstEnd s status) = still s := by
  unfold State.kstEnd
  repeat' (first | with_reducible rfl | simp only [still_lit, still_mk, ite_self, apply_ite still, implies_true, id_eq, still_setReg, still_srb, still_ended] | split)

@[simp] theorem still_kstMixed (s : State) (a0 : Word)  :
    still (State.kstMixed s a0) = still s := by
  unfold State.kstMixed
  repeat' (first | with_reducible rfl | simp only [still_lit, still_mk, ite_self, apply_ite still, implies_true, id_eq, still_setReg, still_freeW, still_freeBytes, still_keyWrite] | split)

@[simp] theorem still_kstDone (s : State) (k : KstRun) (status : Byte)  :
    still (State.kstDone s k status) = still s := by
  unfold State.kstDone
  repeat' (first | with_reducible rfl | simp only [still_lit, still_mk, ite_self, apply_ite still, implies_true, id_eq, still_onlyIf, still_setKst, still_kstEnd, still_kstMixed] | split)

@[simp] theorem still_kstCopy (s : State) (a0 a1 a2 : Word)  :
    still (kstCopy s a0 a1 a2).2 = still s := by
  unfold kstCopy
  repeat' (first | with_reducible rfl | simp only [still_lit, still_mk, ite_self, apply_ite still, implies_true, id_eq, still_kstPut] | split)

@[simp] theorem still_kstLoadEntry (s : State) (a0 a1 : Word)  :
    still (kstLoadEntry s a0 a1).2 = still s := by
  unfold kstLoadEntry
  repeat' (first | with_reducible rfl | simp only [still_lit, still_mk, ite_self, apply_ite still, implies_true, id_eq, still_keyWrite] | split)

@[simp] theorem still_kstStoreEntry (s : State) (a0 a1 : Word)  :
    still (kstStoreEntry s a0 a1).2 = still s := by
  unfold kstStoreEntry
  repeat' (first | with_reducible rfl | simp only [still_lit, still_mk, ite_self, apply_ite still, implies_true, id_eq] | split)

@[simp] theorem still_kstErase (s : State) (a0 : Word)  :
    still (kstErase s a0).2 = still s := by
  unfold kstErase
  repeat' (first | with_reducible rfl | simp only [still_lit, still_mk, ite_self, apply_ite still, implies_true, id_eq, still_modSes, still_dropKey, still_eraseBlob] | split)

@[simp] theorem still_kstInc (s : State) (a0 : Word)  :
    still (kstInc s a0).2 = still s := by
  unfold kstInc
  repeat' (first | with_reducible rfl | simp only [still_lit, still_mk, ite_self, apply_ite still, implies_true, id_eq] | split | refine (still_incCounter (by assumption)).trans ?_)

@[simp] theorem still_kstSet (s : State) (a0 a1 : Word)  :
    still (kstSet s a0 a1).2 = still s := by
  unfold kstSet
  repeat' (first | with_reducible rfl | simp only [still_lit, still_mk, ite_self, apply_ite still, implies_true, id_eq, still_setCounter] | split)

@[simp] theorem still_kstRootEnrol (s : State) (array : Bytes)  :
    still (kstRootEnrol s array).2 = still s := by
  unfold kstRootEnrol
  repeat' (first | with_reducible rfl | simp only [still_lit, still_mk, ite_self, apply_ite still, implies_true, id_eq] | split)

@[simp] theorem still_kstEpoch (s : State) (a0 : Word)  :
    still (kstEpoch s a0).2 = still s := by
  unfold kstEpoch
  repeat' (first | with_reducible rfl | simp only [still_lit, still_mk, ite_self, apply_ite still, implies_true, id_eq] | split)

@[simp] theorem still_kstSpoil (s : State)  :
    still (State.kstSpoil s) = still s := by
  unfold State.kstSpoil
  repeat' (first | with_reducible rfl | simp only [still_lit, still_mk, ite_self, apply_ite still, implies_true, id_eq, still_setKst] | split)

/-! ### Sections -/

@[simp] theorem still_applyPower (s : State) (b : Bytes)  :
    still (State.applyPower s b) = still s := by
  unfold State.applyPower
  repeat' (first | with_reducible rfl | simp only [still_lit, still_mk, ite_self, apply_ite still, implies_true, id_eq, still_setReg, still_each] | split)

@[simp] theorem still_applyLf (s : State) (b : Bytes)  :
    still (State.applyLf s b) = still s := by
  unfold State.applyLf
  repeat' (first | with_reducible rfl | simp only [still_lit, still_mk, ite_self, apply_ite still, implies_true, id_eq, still_setReg] | split)

@[simp] theorem still_applyIsland (s : State) (b : Bytes)  :
    still (State.applyIsland s b) = still s := by
  unfold State.applyIsland
  repeat' (first | with_reducible rfl | simp only [still_lit, still_mk, ite_self, apply_ite still, implies_true, id_eq] | split)

@[simp] theorem still_applyNfc (s : State) (b : Bytes)  :
    still (State.applyNfc s b) = still s := by
  unfold State.applyNfc
  repeat' (first | with_reducible rfl | simp only [still_lit, still_mk, ite_self, apply_ite still, implies_true, id_eq, still_setReg, still_applyIsland] | split)

@[simp] theorem still_applyUwb (s : State) (b : Bytes)  :
    still (State.applyUwb s b) = still s := by
  unfold State.applyUwb
  repeat' (first | with_reducible rfl | simp only [still_lit, still_mk, ite_self, apply_ite still, implies_true, id_eq, still_setReg] | split)

@[simp] theorem still_applyQueues (s : State) (b : Bytes)  :
    still (State.applyQueues s b) = still s := by
  unfold State.applyQueues
  repeat' (first | with_reducible rfl | simp only [still_lit, still_mk, ite_self, apply_ite still, implies_true, id_eq, still_setReg, still_each] | split)

/-! ### Wake -/

@[simp] theorem still_runPeat (s : State)  :
    still (State.runPeat s) = still s := by
  unfold State.runPeat
  repeat' (first | with_reducible rfl | simp only [still_lit, still_mk, ite_self, apply_ite still, implies_true, id_eq, still_srf, still_each] | split)

@[simp] theorem still_commitLog (n : Nat) : ∀ s : State, still (State.commitLog n s) = still s := by
  induction n with
  | zero => intro s; rfl
  | succ n ih =>
    intro s
    unfold State.commitLog
    split
    · rfl
    · split
      · refine (ih _).trans (Eq.trans ?_ (still_hwCommit (by assumption)))
        simp only [still_lit, still_mk]
      · rfl

@[simp] theorem still_commitHeld (s : State)  :
    still (State.commitHeld s) = still s := by
  unfold State.commitHeld
  repeat' (first | with_reducible rfl | simp only [still_lit, still_mk, ite_self, apply_ite still, implies_true, id_eq, still_feCommit] | split)

@[simp] theorem still_takeOffline (s : State)  :
    still (State.takeOffline s) = still s := by
  unfold State.takeOffline
  repeat' (first | with_reducible rfl | simp only [still_lit, still_mk, ite_self, apply_ite still, implies_true, id_eq, still_setReg, still_closeAll] | split)

@[simp] theorem still_trainPorts (s : State)  :
    still (State.trainPorts s) = still s := by
  unfold State.trainPorts
  repeat' (first | with_reducible rfl | simp only [still_lit, still_mk, ite_self, apply_ite still, implies_true, id_eq, still_srf, still_onlyIf, still_each] | split)

@[simp] theorem still_radioFresh (s : State)  :
    still (State.radioFresh s) = still s := by
  unfold State.radioFresh
  repeat' (first | with_reducible rfl | simp only [still_lit, still_mk, ite_self, apply_ite still, implies_true, id_eq, still_setReg, still_srf, still_srb, still_each] | split)

@[simp] theorem still_advanceSystime (s : State)  :
    still (State.advanceSystime s) = still s := by
  unfold State.advanceSystime
  repeat' (first | with_reducible rfl | simp only [still_lit, still_mk, ite_self, apply_ite still, implies_true, id_eq, still_srb] | split)

@[simp] theorem still_calibrated (s : State)  :
    still (State.calibrated s) = still s := by
  unfold State.calibrated
  repeat' (first | with_reducible rfl | simp only [still_lit, still_mk, ite_self, apply_ite still, implies_true, id_eq] | split)

@[simp] theorem still_askHost (s : State) (reads : List (Nat × Nat))  :
    still (State.askHost s reads) = still s := by
  unfold State.askHost
  repeat' (first | with_reducible rfl | simp only [still_lit, still_mk, ite_self, apply_ite still, implies_true, id_eq, still_setReg, still_reads] | split)

@[simp] theorem still_beginReload (s : State)  :
    still (State.beginReload s) = still s := by
  unfold State.beginReload
  repeat' (first | with_reducible rfl | simp only [still_lit, still_mk, ite_self, apply_ite still, implies_true, id_eq, still_onlyIf, still_askHost] | split)

@[simp] theorem still_readyEvent (s : State) (status : Option Byte)  :
    still (State.readyEvent s status) = still s := by
  unfold State.readyEvent
  repeat' (first | with_reducible rfl | simp only [still_lit, still_mk, ite_self, apply_ite still, implies_true, id_eq, still_freeW, still_event] | split)

/-! ### Tag -/

@[simp] theorem still_modTag (s : State) (f : Tag → Tag)  :
    still (State.modTag s f) = still s := by
  unfold State.modTag
  repeat' (first | with_reducible rfl | simp only [still_lit, still_mk, ite_self, apply_ite still, implies_true, id_eq] | split)

@[simp] theorem still_setRec (s : State) (n : Nat) (b : Bytes)  :
    still (State.setRec s n b) = still s := by
  unfold State.setRec
  repeat' (first | with_reducible rfl | simp only [still_lit, still_mk, ite_self, apply_ite still, implies_true, id_eq] | split)

@[simp] theorem still_tagSay (s : State) (b : Bytes) (fc : Nat)  :
    still (State.tagSay s b fc) = still s := by
  unfold State.tagSay
  repeat' (first | with_reducible rfl | simp only [still_lit, still_mk, ite_self, apply_ite still, implies_true, id_eq, still_answer, still_modTag] | split)

@[simp] theorem still_tagSw (s : State) (data : Bytes) (a b : Nat)  :
    still (State.tagSw s data a b) = still s := by
  unfold State.tagSw
  repeat' (first | with_reducible rfl | simp only [still_lit, still_mk, ite_self, apply_ite still, implies_true, id_eq, still_tagSay] | split)

@[simp] theorem still_tagRequest (last : Bool) (s : State)  :
    still (tagRequest last s) = still s := by
  unfold tagRequest
  repeat' (first | with_reducible rfl | simp only [still_lit, still_mk, ite_self, apply_ite still, implies_true, id_eq, still_active, still_modTag, still_tagSay] | split)

@[simp] theorem still_tagAnticollide (bits : Nat) (uid : Bytes) (s : State)  :
    still (tagAnticollide bits uid s) = still s := by
  unfold tagAnticollide
  repeat' (first | with_reducible rfl | simp only [still_lit, still_mk, ite_self, apply_ite still, implies_true, id_eq, still_active, still_tagSay] | split)

@[simp] theorem still_tagSelected (uid : Bytes) (s : State)  :
    still (tagSelected uid s) = still s := by
  unfold tagSelected
  repeat' (first | with_reducible rfl | simp only [still_lit, still_mk, ite_self, apply_ite still, implies_true, id_eq, still_active, still_modTag, still_tagSay] | split)

@[simp] theorem still_tagRats (s : State)  :
    still (tagRats s) = still s := by
  unfold tagRats
  repeat' (first | with_reducible rfl | simp only [still_lit, still_mk, ite_self, apply_ite still, implies_true, id_eq, still_active, still_modTag, still_tagSay] | split)

@[simp] theorem still_tagPps (dri dsi : Nat) (s : State)  :
    still (tagPps dri dsi s) = still s := by
  unfold tagPps
  repeat' (first | with_reducible rfl | simp only [still_lit, still_mk, ite_self, apply_ite still, implies_true, id_eq, still_tagSay] | split)

@[simp] theorem still_endSelection (s : State)  :
    still (State.endSelection s) = still s := by
  unfold State.endSelection
  repeat' (first | with_reducible rfl | simp only [still_lit, still_mk, ite_self, apply_ite still, implies_true, id_eq, still_modTag] | split)

@[simp] theorem still_fieldPresent (s : State)  :
    still (fieldPresent s) = still s := by
  unfold fieldPresent
  repeat' (first | with_reducible rfl | simp only [still_lit, still_mk, ite_self, apply_ite still, implies_true, id_eq, still_answer, still_modTag] | split)

@[simp] theorem still_challenge (s : State) (j : Nat)  :
    still (State.challenge s j).2 = still s := by
  unfold State.challenge
  repeat' (first | with_reducible rfl | simp only [still_lit, still_mk, ite_self, apply_ite still, implies_true, id_eq, still_freeBytes] | split)

@[simp] theorem still_addLog (s : State) (r : Bytes)  :
    still (State.addLog s r) = still s := by
  unfold State.addLog
  repeat' (first | with_reducible rfl | simp only [still_lit, still_mk, ite_self, apply_ite still, implies_true, id_eq, still_drop] | split)

@[simp] theorem still_islandReady (s : State)  :
    still (islandReady s) = still s := by
  unfold islandReady
  repeat' (first | with_reducible rfl | simp only [still_lit, still_mk, ite_self, apply_ite still, implies_true, id_eq, still_modTag, still_challenge, still_addLog] | split | refine (still_incCounter (by assumption)).trans ?_)

@[simp] theorem still_tear (s : State) (n : Nat)  :
    still (State.tear s n) = still s := by
  unfold State.tear
  repeat' (first | with_reducible rfl | simp only [still_lit, still_mk, ite_self, apply_ite still, implies_true, id_eq] | split)

@[simp] theorem still_fieldLost (s : State)  :
    still (fieldLost s) = still s := by
  unfold fieldLost
  repeat' (first | with_reducible rfl | simp only [still_lit, still_mk, ite_self, apply_ite still, implies_true, id_eq, still_each, still_active, still_answer, still_modTag, still_endSelection, still_tear] | split)

@[simp] theorem still_logAs (s : State) (status : Byte) (flags entry : Nat) (tid : Bytes)  :
    still (State.logAs s status flags entry tid) = still s := by
  unfold State.logAs
  repeat' (first | with_reducible rfl | simp only [still_lit, still_mk, ite_self, apply_ite still, implies_true, id_eq, still_addLog] | split)

@[simp] theorem still_logSel (s : State) (status : Byte) (flags : Nat)  :
    still (State.logSel s status flags) = still s := by
  unfold State.logSel
  repeat' (first | with_reducible rfl | simp only [still_lit, still_mk, ite_self, apply_ite still, implies_true, id_eq, still_freeBytes, still_drop, still_logAs] | split)

@[simp] theorem still_tagOk (s : State) (data : Bytes)  :
    still (State.tagOk s data) = still s := by
  unfold State.tagOk
  repeat' (first | with_reducible rfl | simp only [still_lit, still_mk, ite_self, apply_ite still, implies_true, id_eq, still_tagSw, still_logSel] | split)

@[simp] theorem still_selectIsland (s : State)  :
    still (selectIsland s) = still s := by
  unfold selectIsland
  repeat' (first | with_reducible rfl | simp only [still_lit, still_mk, ite_self, apply_ite still, implies_true, id_eq, still_modTag, still_tagSw, still_endSelection, still_challenge, still_tagOk] | split)

@[simp] theorem still_forward (s : State) (apdu : Bytes)  :
    still (State.forward s apdu) = still s := by
  unfold State.forward
  repeat' (first | with_reducible rfl | simp only [still_lit, still_mk, ite_self, apply_ite still, implies_true, id_eq, still_feCommit, still_modTag] | split)

@[simp] theorem still_selectOther (apdu : Bytes) (s : State)  :
    still (selectOther apdu s) = still s := by
  unfold selectOther
  repeat' (first | with_reducible rfl | simp only [still_lit, still_mk, ite_self, apply_ite still, implies_true, id_eq, still_tagSw, still_endSelection, still_forward] | split)

@[simp] theorem still_forwardedApdu (apdu : Bytes) (s : State)  :
    still (forwardedApdu apdu s) = still s := by
  unfold forwardedApdu
  repeat' (first | with_reducible rfl | simp only [still_lit, still_mk, ite_self, apply_ite still, implies_true, id_eq, still_modTag, still_forward] | split)

@[simp] theorem still_forwardAnswer (s : State)  :
    still (forwardAnswer s) = still s := by
  unfold forwardAnswer
  repeat' (first | with_reducible rfl | simp only [still_lit, still_mk, ite_self, apply_ite still, implies_true, id_eq, still_freeBytes, still_countBroken, still_feTake, still_modTag, still_tagSay, still_tagSw] | split)

@[simp] theorem still_forwardTimeout (s : State)  :
    still (forwardTimeout s) = still s := by
  unfold forwardTimeout
  repeat' (first | with_reducible rfl | simp only [still_lit, still_mk, ite_self, apply_ite still, implies_true, id_eq, still_modTag, still_tagSw] | split)

@[simp] theorem still_wtxExpired (s : State)  :
    still (wtxExpired s) = still s := by
  unfold wtxExpired
  repeat' (first | with_reducible rfl | simp only [still_lit, still_mk, ite_self, apply_ite still, implies_true, id_eq, still_answer, still_modTag] | split)

@[simp] theorem still_tagFailure (s : State)  :
    still (State.tagFailure s) = still s := by
  unfold State.tagFailure
  repeat' (first | with_reducible rfl | simp only [still_lit, still_mk, ite_self, apply_ite still, implies_true, id_eq, still_countFailure] | split)

@[simp] theorem still_authRefused (s : State) (status : Byte) (entry : Nat) (tid : Bytes)  :
    still (State.authRefused s status entry tid) = still s := by
  unfold State.authRefused
  repeat' (first | with_reducible rfl | simp only [still_lit, still_mk, ite_self, apply_ite still, implies_true, id_eq, still_tagSw, still_logAs, still_tagFailure] | split)

@[simp] theorem still_islandAuth (tid np macP : Bytes) (waited30s : Bool) (s : State)  :
    still (islandAuth tid np macP waited30s s) = still s := by
  unfold islandAuth
  repeat' (first | with_reducible rfl | simp only [still_lit, still_mk, ite_self, apply_ite still, implies_true, id_eq, still_freeBytes, still_onlyIf, still_clearFailures, still_active, still_modTag, still_tagSw, still_logAs, still_tagOk, still_authRefused] | split)

@[simp] theorem still_eraseEntry (s : State) (n : Nat)  :
    still (State.eraseEntry s n) = still s := by
  unfold State.eraseEntry
  repeat' (first | with_reducible rfl | simp only [still_lit, still_mk, ite_self, apply_ite still, implies_true, id_eq] | split)

@[simp] theorem still_reportTorn (s : State) (n : Nat)  :
    still (State.reportTorn s n).2 = still s := by
  unfold State.reportTorn
  repeat' (first | with_reducible rfl | simp only [still_lit, still_mk, ite_self, apply_ite still, implies_true, id_eq, still_srb] | split)

@[simp] theorem still_readRec (s : State) (n : Nat)  :
    still (State.readRec s n) = still s := by
  unfold State.readRec
  repeat' (first | with_reducible rfl | simp only [still_lit, still_mk, ite_self, apply_ite still, implies_true, id_eq, still_tagSw, still_logSel, still_tagOk, still_reportTorn] | split)

@[simp] theorem still_readRecord (p1 p2 : Nat) (s : State)  :
    still (readRecord p1 p2 s) = still s := by
  unfold readRecord
  repeat' (first | with_reducible rfl | simp only [still_lit, still_mk, ite_self, apply_ite still, implies_true, id_eq, still_modTag, still_tagSw, still_readRec] | split)

@[simp] theorem still_weak (s : State)  :
    still (State.weak s) = still s := by
  unfold State.weak
  repeat' (first | with_reducible rfl | simp only [still_lit, still_mk, ite_self, apply_ite still, implies_true, id_eq, still_tagSw, still_logSel] | split)

@[simp] theorem still_beginWrite (s : State) (n : Nat)  :
    still (State.beginWrite s n) = still s := by
  unfold State.beginWrite
  repeat' (first | with_reducible rfl | simp only [still_lit, still_mk, ite_self, apply_ite still, implies_true, id_eq, still_modTag] | split)

@[simp] theorem still_writeChunk (s : State) (n k : Nat) (data : Bytes) (mv : Nat)  :
    still (State.writeChunk s n k data mv) = still s := by
  unfold State.writeChunk
  repeat' (first | with_reducible rfl | simp only [still_lit, still_mk, ite_self, apply_ite still, implies_true, id_eq, still_modTag, still_tagSw, still_weak, still_beginWrite] | split)

@[simp] theorem still_commitShadow (s : State) (n : Nat) (b : Bytes) (mv : Nat)  :
    still (State.commitShadow s n b mv) = still s := by
  unfold State.commitShadow
  repeat' (first | with_reducible rfl | simp only [still_lit, still_mk, ite_self, apply_ite still, implies_true, id_eq, still_modTag, still_setRec, still_tagOk, still_weak] | split)

@[simp] theorem still_updateRec (s : State) (p1 p2 : Nat) (data : Bytes) (mv : Nat)  :
    still (State.updateRec s p1 p2 data mv) = still s := by
  unfold State.updateRec
  repeat' (first | with_reducible rfl | simp only [still_lit, still_mk, ite_self, apply_ite still, implies_true, id_eq, still_setRec, still_tagSw, still_weak, still_beginWrite, still_writeChunk] | split)

@[simp] theorem still_updateRecord (p1 p2 : Nat) (data : Bytes) (mv : Nat) (s : State)  :
    still (updateRecord p1 p2 data mv s) = still s := by
  unfold updateRecord
  repeat' (first | with_reducible rfl | simp only [still_lit, still_mk, ite_self, apply_ite still, implies_true, id_eq, still_modTag, still_tagSw, still_updateRec] | split)

@[simp] theorem still_serveField (s : State)  :
    still (State.serveField s) = still s := by
  unfold State.serveField
  repeat' (first | with_reducible rfl | simp only [still_lit, still_mk, ite_self, apply_ite still, implies_true, id_eq, still_modTag, still_readRec, still_updateRec] | split)

@[simp] theorem still_hostDone (s : State) (status : Byte)  :
    still (State.hostDone s status) = still s := by
  unfold State.hostDone
  repeat' (first | with_reducible rfl | simp only [still_lit, still_mk, ite_self, apply_ite still, implies_true, id_eq, still_setReg, still_ended, still_modTag] | split)

@[simp] theorem still_toHbuf (s : State) (b : Bytes)  :
    still (State.toHbuf s b) = still s := by
  unfold State.toHbuf
  repeat' (first | with_reducible rfl | simp only [still_lit, still_mk, ite_self, apply_ite still, implies_true, id_eq, still_setReg, still_each, still_drop] | split)

@[simp] theorem still_hostRead (s : State) (n : Nat)  :
    still (State.hostRead s n) = still s := by
  unfold State.hostRead
  repeat' (first | with_reducible rfl | simp only [still_lit, still_mk, ite_self, apply_ite still, implies_true, id_eq, still_reportTorn, still_hostDone, still_toHbuf] | split)

@[simp] theorem still_hostGo (s : State) (op n : Nat)  :
    still (State.hostGo s op n) = still s := by
  unfold State.hostGo
  repeat' (first | with_reducible rfl | simp only [still_lit, still_mk, ite_self, apply_ite still, implies_true, id_eq, still_setReg, still_srb, still_modTag, still_hostDone] | split)

@[simp] theorem still_spoilHost (s : State) (n : Nat)  :
    still (State.spoilHost s n) = still s := by
  unfold State.spoilHost
  repeat' (first | with_reducible rfl | simp only [still_lit, still_mk, ite_self, apply_ite still, implies_true, id_eq, still_freeBytes, still_each, still_freeIn, still_setRec] | split)

@[simp] theorem still_tagHcmd (v : Word) (s : State)  :
    still (tagHcmd v s) = still s := by
  unfold tagHcmd
  repeat' (first | with_reducible rfl | simp only [still_lit, still_mk, ite_self, apply_ite still, implies_true, id_eq, still_srf, still_hostGo, still_spoilHost] | split)

@[simp] theorem still_hcmdDone (s : State)  :
    still (hcmdDone s) = still s := by
  unfold hcmdDone
  repeat' (first | with_reducible rfl | simp only [still_lit, still_mk, ite_self, apply_ite still, implies_true, id_eq, still_setRec, still_serveField, still_hostDone, still_hostRead] | split)

@[simp] theorem still_fieldWriteEnd (mv : Nat) (s : State)  :
    still (fieldWriteEnd mv s) = still s := by
  unfold fieldWriteEnd
  repeat' (first | with_reducible rfl | simp only [still_lit, still_mk, ite_self, apply_ite still, implies_true, id_eq, still_modTag, still_tagOk, still_commitShadow, still_hostRead] | split)

@[simp] theorem still_isLast (s : State) (status : Byte) (pulsed pending : Bool) (entry : Nat) (tid : Word)  :
    still (State.isLast s status pulsed pending entry tid) = still s := by
  unfold State.isLast
  repeat' (first | with_reducible rfl | simp only [still_lit, still_mk, ite_self, apply_ite still, implies_true, id_eq, still_setReg] | split)

@[simp] theorem still_vstoreCharged (s : State)  :
    still (vstoreCharged s) = still s := by
  unfold vstoreCharged
  repeat' (first | with_reducible rfl | simp only [still_lit, still_mk, ite_self, apply_ite still, implies_true, id_eq, still_modTag] | split)

@[simp] theorem still_pulseEnd (reserveOk : Bool) (s : State)  :
    still (pulseEnd reserveOk s) = still s := by
  unfold pulseEnd
  repeat' (first | with_reducible rfl | simp only [still_lit, still_mk, ite_self, apply_ite still, implies_true, id_eq, still_modTag, still_tagSw, still_addLog, still_isLast] | split)

@[simp] theorem still_vstoreTimeout (s : State)  :
    still (vstoreTimeout s) = still s := by
  unfold vstoreTimeout
  repeat' (first | with_reducible rfl | simp only [still_lit, still_mk, ite_self, apply_ite still, implies_true, id_eq, still_modTag, still_weak, still_isLast] | split)

@[simp] theorem still_isackEnd (s : State) (status : Byte) (a b : Nat)  :
    still (State.isackEnd s status a b) = still s := by
  unfold State.isackEnd
  repeat' (first | with_reducible rfl | simp only [still_lit, still_mk, ite_self, apply_ite still, implies_true, id_eq, still_srf, still_srb, still_modTag, still_tagSw, still_logSel] | split)

@[simp] theorem still_isack (s : State) (status : Byte)  :
    still (State.isack s status) = still s := by
  unfold State.isack
  repeat' (first | with_reducible rfl | simp only [still_lit, still_mk, ite_self, apply_ite still, implies_true, id_eq, still_srb, still_isackEnd] | split)

@[simp] theorem still_tagIsack (v : Word) (s : State)  :
    still (tagIsack v s) = still s := by
  unfold tagIsack
  repeat' (first | with_reducible rfl | simp only [still_lit, still_mk, ite_self, apply_ite still, implies_true, id_eq, still_srf, still_isack] | split)

@[simp] theorem still_isackTimeout (s : State)  :
    still (isackTimeout s) = still s := by
  unfold isackTimeout
  repeat' (first | with_reducible rfl | simp only [still_lit, still_mk, ite_self, apply_ite still, implies_true, id_eq, still_isackEnd] | split)

@[simp] theorem still_islandStatus (mv : Nat) (s : State)  :
    still (islandStatus mv s) = still s := by
  unfold islandStatus
  repeat' (first | with_reducible rfl | simp only [still_lit, still_mk, ite_self, apply_ite still, implies_true, id_eq, still_tagOk] | split)

@[simp] theorem still_unknownApdu (cla : Nat) (s : State)  :
    still (unknownApdu cla s) = still s := by
  unfold unknownApdu
  repeat' (first | with_reducible rfl | simp only [still_lit, still_mk, ite_self, apply_ite still, implies_true, id_eq, still_tagSw] | split)

@[simp] theorem still_tagCut (s : State)  :
    still (State.tagCut s) = still s := by
  unfold State.tagCut
  repeat' (first | with_reducible rfl | simp only [still_lit, still_mk, ite_self, apply_ite still, implies_true, id_eq, still_answer, still_modTag, still_endSelection] | split)

end Laws
end Sys2Proof
end

