-- ==== Sys2Proof/Laws/StillRadio.lean ====
section
/-!
SUPPORT. What leaves the waiting commands and the byte memories alone: the radio, ranging, the chain, the queue windows and the channels.
-/
namespace Sys2Proof
namespace Laws

open Sys2Proof.Machine

set_option linter.unusedSimpArgs false
set_option linter.unusedVariables false
set_option linter.unusedTactic false
set_option linter.unreachableTactic false

/-! ### Radio -/

@[simp] theorem still_modOp (s : State) (i : Nat) (f : UwbOp → UwbOp)  :
    still (State.modOp s i f) = still s := by
  unfold State.modOp
  repeat' (first | with_reducible rfl | simp only [still_lit, still_mk, ite_self, apply_ite still, implies_true, id_eq] | split)

@[simp] theorem still_setRadio (s : State) (n : Nat)  :
    still (State.setRadio s n) = still s := by
  unfold State.setRadio
  repeat' (first | with_reducible rfl | simp only [still_lit, still_mk, ite_self, apply_ite still, implies_true, id_eq, still_srf, still_srb, still_onlyIf] | split)

@[simp] theorem still_setConds (s : State) (temp : Int) (vdd : Nat)  :
    still (State.setConds s temp vdd) = still s := by
  unfold State.setConds
  repeat' (first | with_reducible rfl | simp only [still_lit, still_mk, ite_self, apply_ite still, implies_true, id_eq, still_setReg, still_internalSlots] | split)

@[simp] theorem still_sampleConds (s : State) (temp : Int) (vdd : Nat)  :
    still (State.sampleConds s temp vdd) = still s := by
  unfold State.sampleConds
  repeat' (first | with_reducible rfl | simp only [still_lit, still_mk, ite_self, apply_ite still, implies_true, id_eq, still_srb, still_onlyIf, still_setConds] | split)

@[simp] theorem still_uwbSweep (l : List UwbOp) : ∀ (seen : List Nat) (s : State),
    still (uwbSweep seen l s).2 = still s := by
  induction l with
  | nil => intro seen s; rfl
  | cons o l ih =>
    intro seen s
    unfold uwbSweep
    repeat' (first | with_reducible rfl | simp only [ih, still_feResult] | split)

@[simp] theorem still_uwbSettle (s : State)  :
    still (State.uwbSettle s) = still s := by
  unfold State.uwbSettle
  repeat' (first | with_reducible rfl | simp only [still_lit, still_mk, ite_self, apply_ite still, implies_true, id_eq, still_uwbSweep] | split)

@[simp] theorem still_modSlot (s : State) (ref : Nat) (f : RngSlot → RngSlot)  :
    still (State.modSlot s ref f) = still s := by
  unfold State.modSlot
  repeat' (first | with_reducible rfl | simp only [still_lit, still_mk, ite_self, apply_ite still, implies_true, id_eq] | split)

@[simp] theorem still_slotStops (s : State) (o : UwbOp)  :
    still (State.slotStops s o) = still s := by
  unfold State.slotStops
  repeat' (first | with_reducible rfl | simp only [still_lit, still_mk, ite_self, apply_ite still, implies_true, id_eq] | split)

@[simp] theorem still_slotOp (s : State) (o : UwbOp) (status : Byte) (frame : Bool)  :
    still (State.slotOp s o status frame) = still s := by
  unfold State.slotOp
  repeat' (first | with_reducible rfl | simp only [still_lit, still_mk, ite_self, apply_ite still, implies_true, id_eq, still_onlyIf, still_modSlot, still_slotStops] | split)

@[simp] theorem still_opFinish (s : State) (o : UwbOp) (status : Byte) (frame : Bool) (payload : Bytes) (ts : Nat) :
    still (s.opFinish o status frame payload ts) = still s := by
  have h : ∀ (c : Bool) (n : Nat), still (s.onlyIf c fun _ => (s.freeBytes n).2) = still s := by
    intro c n; cases c
    · rfl
    · exact still_freeBytes s n
  unfold State.opFinish
  repeat' (first | with_reducible rfl | simp only [still_lit, still_mk, still_onlyIf, still_srb, still_slotOp, still_modOp, h, implies_true, apply_ite still, ite_self] | split)

@[simp] theorem still_cancelRound (s : State) (o : UwbOp)  :
    still (State.cancelRound s o) = still s := by
  unfold State.cancelRound
  repeat' (first | with_reducible rfl | simp only [still_lit, still_mk, ite_self, apply_ite still, implies_true, id_eq, still_onlyIf, still_each, still_setRadio, still_opFinish] | split)

@[simp] theorem still_opDrop (s : State) (o : UwbOp) (status : Byte)  :
    still (State.opDrop s o status) = still s := by
  unfold State.opDrop
  repeat' (first | with_reducible rfl | simp only [still_lit, still_mk, ite_self, apply_ite still, implies_true, id_eq, still_uwbSettle, still_opFinish, still_cancelRound] | split)

@[simp] theorem still_opFail (s : State) (o : UwbOp) (status : Byte)  :
    still (State.opFail s o status) = still s := by
  unfold State.opFail
  repeat' (first | with_reducible rfl | simp only [still_lit, still_mk, ite_self, apply_ite still, implies_true, id_eq, still_uwbSettle, still_opFinish] | split)

@[simp] theorem still_radioRest (s : State)  :
    still (State.radioRest s) = still s := by
  unfold State.radioRest
  repeat' (first | with_reducible rfl | simp only [still_lit, still_mk, ite_self, apply_ite still, implies_true, id_eq, still_setRadio] | split)

@[simp] theorem still_opAccept (s : State) (o : UwbOp)  :
    still (State.opAccept s o) = still s := by
  unfold State.opAccept
  repeat' (first | with_reducible rfl | simp only [still_lit, still_mk, ite_self, apply_ite still, implies_true, id_eq] | split)

@[simp] theorem still_uwbTake (code ch : Nat) (s : State)  :
    still (uwbTake code ch s) = still s := by
  unfold uwbTake
  repeat' (first | with_reducible rfl | simp only [still_lit, still_mk, ite_self, apply_ite still, implies_true, id_eq, still_countBroken, still_feTake, still_opFail, still_opAccept] | split)

@[simp] theorem still_keepLive (s : State) (r : CalRec)  :
    still (State.keepLive s r) = still s := by
  unfold State.keepLive
  repeat' (first | with_reducible rfl | simp only [still_lit, still_mk, ite_self, apply_ite still, implies_true, id_eq, still_drop] | split)

@[simp] theorem still_setTune (s : State) (port code : Nat)  :
    still (State.setTune s port code) = still s := by
  unfold State.setTune
  repeat' (first | with_reducible rfl | simp only [still_lit, still_mk, ite_self, apply_ite still, implies_true, id_eq, still_srf] | split)

@[simp] theorem still_retuned (s : State) (port code : Nat)  :
    still (State.retuned s port code) = still s := by
  unfold State.retuned
  repeat' (first | with_reducible rfl | simp only [still_lit, still_mk, ite_self, apply_ite still, implies_true, id_eq, still_setTune] | split)

theorem still_recalibrate {s : State} {kind : Nat} {profile : Word} {temp : Int} {vdd : Nat} {meas : List Nat}
    {x : CalRec × State} (h : s.recalibrate kind profile temp vdd meas = some x) : still x.2 = still s := by
  unfold State.recalibrate at h
  extract_lets port at h
  split at h
  · cases h
  · cases h
    simp only [still_onlyIf, still_retuned, still_keepLive, implies_true]

@[simp] theorem still_usedRec (s : State) (o : UwbOp) (r : CalRec)  :
    still (State.usedRec s o r) = still s := by
  unfold State.usedRec
  repeat' (first | with_reducible rfl | simp only [still_lit, still_mk, ite_self, apply_ite still, implies_true, id_eq, still_onlyIf] | split)

@[simp] theorem still_radioReady (s : State)  :
    still (State.radioReady s) = still s := by
  unfold State.radioReady
  repeat' (first | with_reducible rfl | simp only [still_lit, still_mk, ite_self, apply_ite still, implies_true, id_eq, still_setRadio, still_uwbSettle, still_opFinish, still_opDrop, still_radioRest] | split)

@[simp] theorem still_toSynth (s : State) (ch9 cal : Bool)  :
    still (State.toSynth s ch9 cal) = still s := by
  unfold State.toSynth
  repeat' (first | with_reducible rfl | simp only [still_lit, still_mk, ite_self, apply_ite still, implies_true, id_eq, still_setRadio, still_radioReady] | split)

@[simp] theorem still_takeCal (s : State) (o : UwbOp) (r : Option CalRec)  :
    still (State.takeCal s o r) = still s := by
  unfold State.takeCal
  repeat' (first | with_reducible rfl | simp only [still_lit, still_mk, ite_self, apply_ite still, implies_true, id_eq, still_srf, still_onlyIf, still_usedRec] | split)

@[simp] theorem still_restGoes (s : State) (o : UwbOp)  :
    still (State.restGoes s o) = still s := by
  unfold State.restGoes
  repeat' (first | with_reducible rfl | simp only [still_lit, still_mk, ite_self, apply_ite still, implies_true, id_eq, still_setRadio, still_uwbSettle, still_opFinish, still_radioRest] | split)

@[simp] theorem still_restWalk (s : State) (o : UwbOp)  :
    still (State.restWalk s o) = still s := by
  unfold State.restWalk
  repeat' (first | with_reducible rfl | simp only [still_lit, still_mk, ite_self, apply_ite still, implies_true, id_eq, still_modOp, still_restGoes] | split)

@[simp] theorem still_opWalk (s : State) (o : UwbOp) (temp : Int) (vdd : Nat)  :
    still (State.opWalk s o temp vdd) = still s := by
  unfold State.opWalk
  repeat' (first | with_reducible rfl | simp only [still_lit, still_mk, ite_self, apply_ite still, implies_true, id_eq, still_srb, still_onlyIf, still_modOp, still_sampleConds, still_opDrop, still_opFail, still_toSynth, still_takeCal, still_restWalk] | split)

@[simp] theorem still_uwbWalkStart (s : State) (temp : Int) (vdd : Nat)  :
    still (uwbWalkStart s temp vdd) = still s := by
  unfold uwbWalkStart
  repeat' (first | with_reducible rfl | simp only [still_lit, still_mk, ite_self, apply_ite still, implies_true, id_eq, still_onlyIf, still_modOp, still_opWalk] | split)

@[simp] theorem still_calDone (s : State) (o : UwbOp) (temp : Int) (vdd : Nat) (meas : List Nat)  :
    still (State.calDone s o temp vdd meas) = still s := by
  unfold State.calDone
  repeat' (first | with_reducible rfl | simp only [still_lit, still_mk, ite_self, apply_ite still, implies_true, id_eq, still_srf, still_modOp, still_setRadio, still_opFail, still_radioRest, still_retuned, still_usedRec, still_radioReady] | split | refine (still_recalibrate (by assumption)).trans ?_)

@[simp] theorem still_orphanDone (s : State) (temp : Int) (vdd : Nat) (meas : List Nat)  :
    still (State.orphanDone s temp vdd meas) = still s := by
  unfold State.orphanDone
  repeat' (first | with_reducible rfl | simp only [still_lit, still_mk, ite_self, apply_ite still, implies_true, id_eq, still_setRadio, still_radioRest] | split | refine (still_recalibrate (by assumption)).trans ?_)

@[simp] theorem still_downDone (s : State)  :
    still (State.downDone s) = still s := by
  unfold State.downDone
  repeat' (first | with_reducible rfl | simp only [still_lit, still_mk, ite_self, apply_ite still, implies_true, id_eq, still_setRadio, still_radioRest, still_restGoes] | split)

@[simp] theorem still_uwbTransitionDone (s : State) (temp : Int) (vdd : Nat) (meas : List Nat)  :
    still (uwbTransitionDone s temp vdd meas) = still s := by
  unfold uwbTransitionDone
  repeat' (first | with_reducible rfl | simp only [still_lit, still_mk, ite_self, apply_ite still, implies_true, id_eq, still_setReg, still_srb, still_onlyIf, still_setRadio, still_uwbSettle, still_opFinish, still_radioRest, still_radioReady, still_calDone, still_orphanDone, still_downDone] | split)

@[simp] theorem still_uwbSend (s : State) (o : UwbOp) (returnLoss : Nat)  :
    still (State.uwbSend s o returnLoss) = still s := by
  unfold State.uwbSend
  repeat' (first | with_reducible rfl | simp only [still_lit, still_mk, ite_self, apply_ite still, implies_true, id_eq, still_srf, still_srb, still_onlyIf, still_spendUwb, still_modOp, still_setRadio, still_opDrop, still_radioRest] | split)

@[simp] theorem still_uwbArmPoint (s : State) (returnLoss : Nat)  :
    still (uwbArmPoint s returnLoss) = still s := by
  unfold uwbArmPoint
  repeat' (first | with_reducible rfl | simp only [still_lit, still_mk, ite_self, apply_ite still, implies_true, id_eq, still_srb, still_bumpSat, still_refill, still_modOp, still_setRadio, still_opDrop, still_radioRest, still_uwbSend] | split)

@[simp] theorem still_txBudgetRefill (s : State) (returnLoss : Nat)  :
    still (txBudgetRefill s returnLoss) = still s := by
  unfold txBudgetRefill
  repeat' (first | with_reducible rfl | simp only [still_lit, still_mk, ite_self, apply_ite still, implies_true, id_eq, still_srb, still_refill, still_uwbSend] | split)

@[simp] theorem still_slotSent (s : State) (o : UwbOp)  :
    still (State.slotSent s o) = still s := by
  unfold State.slotSent
  repeat' (first | with_reducible rfl | simp only [still_lit, still_mk, ite_self, apply_ite still, implies_true, id_eq, still_modSlot] | split)

@[simp] theorem still_txEnd (s : State) (o : UwbOp) (ts : Nat)  :
    still (State.txEnd s o ts) = still s := by
  unfold State.txEnd
  repeat' (first | with_reducible rfl | simp only [still_lit, still_mk, ite_self, apply_ite still, implies_true, id_eq, still_setRadio, still_uwbSettle, still_opFinish, still_radioRest, still_slotSent] | split)

@[simp] theorem still_rxEnd (s : State) (o : UwbOp) (frame : Bool) (payload : Bytes) (ts : Nat)  :
    still (State.rxEnd s o frame payload ts) = still s := by
  unfold State.rxEnd
  repeat' (first | with_reducible rfl | simp only [still_lit, still_mk, ite_self, apply_ite still, implies_true, id_eq, still_onlyIf, still_setRadio, still_uwbSettle, still_opFinish, still_radioRest] | split)

@[simp] theorem still_uwbFrameReceived (s : State) (ts : Nat) (payload : Bytes) (fcsOk : Bool)  :
    still (uwbFrameReceived s ts payload fcsOk) = still s := by
  unfold uwbFrameReceived
  repeat' (first | with_reducible rfl | simp only [still_lit, still_mk, ite_self, apply_ite still, implies_true, id_eq, still_rxEnd] | split)

@[simp] theorem still_uwbWindowClose (s : State) (preamble : Bool)  :
    still (uwbWindowClose s preamble) = still s := by
  unfold uwbWindowClose
  repeat' (first | with_reducible rfl | simp only [still_lit, still_mk, ite_self, apply_ite still, implies_true, id_eq, still_modOp, still_rxEnd] | split)

@[simp] theorem still_lockLost (s : State)  :
    still (lockLost s) = still s := by
  unfold lockLost
  repeat' (first | with_reducible rfl | simp only [still_lit, still_mk, ite_self, apply_ite still, implies_true, id_eq, still_srb, still_setRadio, still_opFail, still_radioRest] | split)

@[simp] theorem still_holdExpiry (s : State)  :
    still (holdExpiry s) = still s := by
  unfold holdExpiry
  repeat' (first | with_reducible rfl | simp only [still_lit, still_mk, ite_self, apply_ite still, implies_true, id_eq, still_setRadio] | split)

@[simp] theorem still_sleepAfterExpiry (s : State)  :
    still (sleepAfterExpiry s) = still s := by
  unfold sleepAfterExpiry
  repeat' (first | with_reducible rfl | simp only [still_lit, still_mk, ite_self, apply_ite still, implies_true, id_eq, still_setRadio] | split)

@[simp] theorem still_backgroundRecal (s : State) (kind port : Nat) (temp : Int) (vdd : Nat) (meas : List Nat)  :
    still (backgroundRecal s kind port temp vdd meas) = still s := by
  unfold backgroundRecal
  repeat' (first | with_reducible rfl | simp only [still_lit, still_mk, ite_self, apply_ite still, implies_true, id_eq, still_retuned] | split | refine (still_recalibrate (by assumption)).trans ?_)

@[simp] theorem still_uwbCondsSample (s : State) (temp : Int) (vdd : Nat)  :
    still (uwbCondsSample s temp vdd) = still s := by
  unfold uwbCondsSample
  repeat' (first | with_reducible rfl | simp only [still_lit, still_mk, ite_self, apply_ite still, implies_true, id_eq, still_sampleConds] | split)

@[simp] theorem still_uwbStop (s : State) (ch : Nat)  :
    still (State.uwbStop s ch) = still s := by
  unfold State.uwbStop
  repeat' (first | with_reducible rfl | simp only [still_lit, still_mk, ite_self, apply_ite still, implies_true, id_eq, still_each, still_uwbSettle, still_opFinish] | split)

@[simp] theorem still_uwbAbort (s : State) (ch : Nat)  :
    still (State.uwbAbort s ch) = still s := by
  unfold State.uwbAbort
  repeat' (first | with_reducible rfl | simp only [still_lit, still_mk, ite_self, apply_ite still, implies_true, id_eq, still_setRadio, still_opFail, still_radioRest] | split)

@[simp] theorem still_uwbAlarm (s : State)  :
    still (State.uwbAlarm s) = still s := by
  unfold State.uwbAlarm
  repeat' (first | with_reducible rfl | simp only [still_lit, still_mk, ite_self, apply_ite still, implies_true, id_eq, still_onlyIf, still_setRadio, still_opDrop, still_radioRest] | split)

@[simp] theorem still_uwbOff (s : State)  :
    still (State.uwbOff s) = still s := by
  unfold State.uwbOff
  repeat' (first | with_reducible rfl | simp only [still_lit, still_mk, ite_self, apply_ite still, implies_true, id_eq, still_each, still_setRadio, still_uwbSettle, still_opFinish] | split)

/-! ### Ranging -/

@[simp] theorem still_skipOverlaps (s : State) (f : FusedPlan)  :
    still (State.skipOverlaps s f) = still s := by
  unfold State.skipOverlaps
  repeat' (first | with_reducible rfl | simp only [still_lit, still_mk, ite_self, apply_ite still, implies_true, id_eq, still_bumpSat] | split)

@[simp] theorem still_slotUses (s : State) : still s.slotUses = still s := by
  unfold State.slotUses
  simp only [still_lit, still_mk]
  refine still_each s _ _ fun t x => ?_
  split
  · exact still_onlyIf t _ _ fun t => still_modSes t _ _
  · rfl

@[simp] theorem still_nameSlots (s : State) (l : List PlanSlot)  :
    still (State.nameSlots s l) = still s := by
  unfold State.nameSlots
  repeat' (first | with_reducible rfl | simp only [still_lit, still_mk, ite_self, apply_ite still, implies_true, id_eq, still_onlyIf] | split)

@[simp] theorem still_usePlan (s : State) (l : List PlanSlot) (start : Nat)  :
    still (State.usePlan s l start) = still s := by
  unfold State.usePlan
  repeat' (first | with_reducible rfl | simp only [still_lit, still_mk, ite_self, apply_ite still, implies_true, id_eq, still_bumpSat, still_each, still_skipOverlaps, still_slotUses, still_nameSlots] | split)

@[simp] theorem still_takeRn (s : State) (l : List Nat)  :
    still (State.takeRn s l) = still s := by
  unfold State.takeRn
  repeat' (first | with_reducible rfl | simp only [still_lit, still_mk, ite_self, apply_ite still, implies_true, id_eq, still_each, still_modSes] | split)

@[simp] theorem still_roundStart (s : State)  :
    still (roundStart s) = still s := by
  unfold roundStart
  repeat' (first | with_reducible rfl | simp only [still_lit, still_mk, ite_self, apply_ite still, implies_true, id_eq, still_onlyIf, still_sendAuth, still_usePlan, still_takeRn] | split)

theorem still_takeFrame {s t : State} {cls sub n : Nat} {f : Frame} (h : s.takeFrame cls sub = some (n, f, t)) :
    still t = still s := by
  unfold State.takeFrame at h
  split at h
  · split at h
    · cases h; rfl
    · cases h
  · cases h

@[simp] theorem still_planArrives (s : State)  :
    still (planArrives s) = still s := by
  unfold planArrives
  repeat' (first | with_reducible rfl | simp only [still_lit, still_mk, ite_self, apply_ite still, implies_true, id_eq, still_setReg, still_each, still_skipOverlaps, still_usePlan] | split | refine (still_takeFrame (by assumption)).trans ?_)

@[simp] theorem still_planDeadline (s : State)  :
    still (planDeadline s) = still s := by
  unfold planDeadline
  repeat' (first | with_reducible rfl | simp only [still_lit, still_mk, ite_self, apply_ite still, implies_true, id_eq, still_bumpSat] | split)

@[simp] theorem still_takeUp (s : State)  :
    still (State.takeUp s) = still s := by
  unfold State.takeUp
  repeat' (first | with_reducible rfl | simp only [still_lit, still_mk, ite_self, apply_ite still, implies_true, id_eq, still_nameSlots] | split)

@[simp] theorem still_opAccepts (s : State) (x : PlanSlot) (ops : List (Nat × Nat)) :
    still (ops.foldl (fun s o => s.opAccept (s.slotOpOf x o.1 o.2)) s) = still s := by
  induction ops generalizing s with
  | nil => rfl
  | cons o l ih => rw [List.foldl_cons, ih, still_opAccept]

@[simp] theorem still_slotPlacement (s : State) : still (slotPlacement s) = still s := by
  unfold slotPlacement
  dsimp only
  repeat' (first | with_reducible rfl | simp only [still_opAccepts, still_lit, still_mk, still_onlyIf, still_takeUp, implies_true] | split)

@[simp] theorem still_withdraw (s : State) (ref : Nat) (kinds : List Nat)  :
    still (State.withdraw s ref kinds) = still s := by
  unfold State.withdraw
  repeat' (first | with_reducible rfl | simp only [still_lit, still_mk, ite_self, apply_ite still, implies_true, id_eq, still_onlyIf, still_setRadio, still_radioRest] | split)

@[simp] theorem still_modRun (s : State) (x : PlanSlot) (g : FusedRun → FusedRun)  :
    still (State.modRun s x g) = still s := by
  unfold State.modRun
  repeat' (first | with_reducible rfl | simp only [still_lit, still_mk, ite_self, apply_ite still, implies_true, id_eq] | split)

@[simp] theorem still_noteHeard (s : State) (x : PlanSlot) (kind t why : Nat)  :
    still (State.noteHeard s x kind t why) = still s := by
  unfold State.noteHeard
  repeat' (first | with_reducible rfl | simp only [still_lit, still_mk, ite_self, apply_ite still, implies_true, id_eq, still_onlyIf, still_modRun] | split)

@[simp] theorem still_respReceived (s : State) (fp : FirstPath)  :
    still (respReceived s fp) = still s := by
  unfold respReceived
  repeat' (first | with_reducible rfl | simp only [still_lit, still_mk, ite_self, apply_ite still, implies_true, id_eq, still_modSlot, still_rxEnd, still_withdraw, still_noteHeard] | split)

@[simp] theorem still_reportReceived (s : State) (fp : FirstPath) (payload : Bytes)  :
    still (reportReceived s fp payload) = still s := by
  unfold reportReceived
  repeat' (first | with_reducible rfl | simp only [still_lit, still_mk, ite_self, apply_ite still, implies_true, id_eq, still_modSlot, still_rxEnd, still_noteHeard] | split)

@[simp] theorem still_verdictFree (s : State) (r : RngSlot) (ws : List Word)  :
    still (State.verdictFree s r ws).2 = still s := by
  unfold State.verdictFree
  repeat' (first | with_reducible rfl | simp only [still_lit, still_mk, ite_self, apply_ite still, implies_true, id_eq, still_freeW] | split)

@[simp] theorem still_pushVerdict (s : State) (ws : List Word)  :
    still (State.pushVerdict s ws) = still s := by
  unfold State.pushVerdict
  repeat' (first | with_reducible rfl | simp only [still_lit, still_mk, ite_self, apply_ite still, implies_true, id_eq, still_srb, still_raise, still_onlyIf, still_drop] | split)

@[simp] theorem still_ownVerdict (s : State) (ws : List Word)  :
    still (State.ownVerdict s ws) = still s := by
  unfold State.ownVerdict
  repeat' (first | with_reducible rfl | simp only [still_lit, still_mk, ite_self, apply_ite still, implies_true, id_eq, still_bump, still_onlyIf, still_evt, still_feCommit, still_sendAuth, still_pushVerdict] | split)

@[simp] theorem still_remoteVerdict (s : State)  :
    still (remoteVerdict s) = still s := by
  unfold remoteVerdict
  repeat' (first | with_reducible rfl | simp only [still_lit, still_mk, ite_self, apply_ite still, implies_true, id_eq, still_drop, still_pushVerdict] | split | refine (still_takeFrame (by assumption)).trans ?_)

@[simp] theorem still_nextVerdict (s : State)  :
    still (nextVerdict s) = still s := by
  unfold nextVerdict
  repeat' (first | with_reducible rfl | simp only [still_lit, still_mk, ite_self, apply_ite still, implies_true, id_eq] | split)

@[simp] theorem still_fusedResult (s : State) (status : Byte) (ses : Nat) (gen : BitVec 8) (place : Nat) (x y : Int) (units reason : Nat) (bound : Int) (resid : Nat)  :
    still (State.fusedResult s status ses gen place x y units reason bound resid) = still s := by
  unfold State.fusedResult
  repeat' (first | with_reducible rfl | simp only [still_lit, still_mk, ite_self, apply_ite still, implies_true, id_eq, still_setReg, still_raise, still_place] | split)

@[simp] theorem still_fusedNone (s : State) (status : Byte) (ses reason : Nat)  :
    still (State.fusedNone s status ses reason) = still s := by
  unfold State.fusedNone
  repeat' (first | with_reducible rfl | simp only [still_lit, still_mk, ite_self, apply_ite still, implies_true, id_eq, still_fusedResult] | split)

@[simp] theorem still_requestFused (s : State) (ses : Nat)  :
    still (State.requestFused s ses) = still s := by
  unfold State.requestFused
  repeat' (first | with_reducible rfl | simp only [still_lit, still_mk, ite_self, apply_ite still, implies_true, id_eq, still_onlyIf, still_modSes, still_sendAuth, still_skipOverlaps, still_fusedNone] | split)

@[simp] theorem still_fusedRoundStart (s : State)  :
    still (fusedRoundStart s) = still s := by
  unfold fusedRoundStart
  repeat' (first | with_reducible rfl | simp only [still_lit, still_mk, ite_self, apply_ite still, implies_true, id_eq, still_takeUp] | split)

@[simp] theorem still_fuse (s : State)  :
    still (State.fuse s) = still s := by
  unfold State.fuse
  repeat' (first | with_reducible rfl | simp only [still_lit, still_mk, ite_self, apply_ite still, implies_true, id_eq, still_place, still_fusedResult] | split)

@[simp] theorem still_tryFuse (s : State)  :
    still (State.tryFuse s) = still s := by
  unfold State.tryFuse
  repeat' (first | with_reducible rfl | simp only [still_lit, still_mk, ite_self, apply_ite still, implies_true, id_eq, still_ended, still_fuse] | split)

@[simp] theorem still_fusedEnd (s : State) (x : PlanSlot) (f : FusedRun)  :
    still (State.fusedEnd s x f) = still s := by
  unfold State.fusedEnd
  repeat' (first | with_reducible rfl | simp only [still_lit, still_mk, ite_self, apply_ite still, implies_true, id_eq, still_onlyIf, still_ended, still_sendAuth, still_modRun, still_tryFuse] | split)

@[simp] theorem still_slotEnd (s : State)  :
    still (slotEnd s) = still s := by
  unfold slotEnd
  repeat' (first | with_reducible rfl | simp only [still_lit, still_mk, ite_self, apply_ite still, implies_true, id_eq, still_onlyIf, still_withdraw, still_modRun, still_verdictFree, still_ownVerdict, still_fusedEnd] | split)

@[simp] theorem still_arrivalTimes (s : State)  :
    still (arrivalTimes s) = still s := by
  unfold arrivalTimes
  repeat' (first | with_reducible rfl | simp only [still_lit, still_mk, ite_self, apply_ite still, implies_true, id_eq, still_tryFuse] | split | refine (still_takeFrame (by assumption)).trans ?_)

@[simp] theorem still_fusionTimeout (s : State)  :
    still (fusionTimeout s) = still s := by
  unfold fusionTimeout
  repeat' (first | with_reducible rfl | simp only [still_lit, still_mk, ite_self, apply_ite still, implies_true, id_eq, still_ended, still_fuse] | split)

@[simp] theorem still_fuseWrite (v : Word) (s : State)  :
    still (fuseWrite v s) = still s := by
  unfold fuseWrite
  repeat' (first | with_reducible rfl | simp only [still_lit, still_mk, ite_self, apply_ite still, implies_true, id_eq, still_setReg, still_requestFused] | split)

@[simp] theorem still_mapWrite (v : Word) (s : State)  :
    still (mapWrite v s) = still s := by
  unfold mapWrite
  repeat' (first | with_reducible rfl | simp only [still_lit, still_mk, ite_self, apply_ite still, implies_true, id_eq, still_setReg, still_onlyIf] | split)

@[simp] theorem still_roundsOff (s : State)  :
    still (State.roundsOff s) = still s := by
  unfold State.roundsOff
  repeat' (first | with_reducible rfl | simp only [still_lit, still_mk, ite_self, apply_ite still, implies_true, id_eq, still_slotUses, still_roundStart] | split)

@[simp] theorem still_slotAlarm (s : State)  :
    still (State.slotAlarm s) = still s := by
  unfold State.slotAlarm
  repeat' (first | with_reducible rfl | simp only [still_lit, still_mk, ite_self, apply_ite still, implies_true, id_eq, still_bumpSat, still_closeSes, still_modSlot, still_withdraw] | split)

/-! ### Chain -/

@[simp] theorem still_modMember (s : State) (u : Nat) (f : Member → Member)  :
    still (State.modMember s u f) = still s := by
  unfold State.modMember
  repeat' (first | with_reducible rfl | simp only [still_lit, still_mk, ite_self, apply_ite still, implies_true, id_eq] | split)

@[simp] theorem still_showRoster (s : State)  :
    still (State.showRoster s) = still s := by
  unfold State.showRoster
  repeat' (first | with_reducible rfl | simp only [still_lit, still_mk, ite_self, apply_ite still, implies_true, id_eq, still_setReg, still_srf] | split)

@[simp] theorem still_chainEvent (s : State) (kind addr : Nat)  :
    still (State.chainEvent s kind addr) = still s := by
  unfold State.chainEvent
  repeat' (first | with_reducible rfl | simp only [still_lit, still_mk, ite_self, apply_ite still, implies_true, id_eq, still_event, still_itemsBy] | split)

@[simp] theorem still_chainEventFree (s : State) (kind : Nat)  :
    still (State.chainEventFree s kind) = still s := by
  unfold State.chainEventFree
  repeat' (first | with_reducible rfl | simp only [still_lit, still_mk, ite_self, apply_ite still, implies_true, id_eq, still_freeBytes, still_chainEvent] | split)

@[simp] theorem still_sendRoster (s : State)  :
    still (State.sendRoster s) = still s := by
  unfold State.sendRoster
  repeat' (first | with_reducible rfl | simp only [still_lit, still_mk, ite_self, apply_ite still, implies_true, id_eq, still_sendAuth, still_showRoster] | split)

@[simp] theorem still_leftBeyond (s : State) (a : Nat)  :
    still (State.leftBeyond s a) = still s := by
  unfold State.leftBeyond
  repeat' (first | with_reducible rfl | simp only [still_lit, still_mk, ite_self, apply_ite still, implies_true, id_eq, still_each, still_modMember, still_chainEvent] | split)

@[simp] theorem still_setNonce (s : State) (b : Bytes)  :
    still (State.setNonce s b) = still s := by
  unfold State.setNonce
  repeat' (first | with_reducible rfl | simp only [still_lit, still_mk, ite_self, apply_ite still, implies_true, id_eq] | split)

@[simp] theorem still_sendEnum (s : State) (nextAddr : Nat)  :
    still (State.sendEnum s nextAddr) = still s := by
  unfold State.sendEnum
  repeat' (first | with_reducible rfl | simp only [still_lit, still_mk, ite_self, apply_ite still, implies_true, id_eq, still_place] | split)

@[simp] theorem still_enumGoesOn (s : State)  :
    still (State.enumGoesOn s) = still s := by
  unfold State.enumGoesOn
  repeat' (first | with_reducible rfl | simp only [still_lit, still_mk, ite_self, apply_ite still, implies_true, id_eq, still_drawn, still_draw_next, still_setNonce, still_sendEnum] | split)

@[simp] theorem still_joinGoesOn (s : State)  :
    still (State.joinGoesOn s) = still s := by
  unfold State.joinGoesOn
  repeat' (first | with_reducible rfl | simp only [still_lit, still_mk, ite_self, apply_ite still, implies_true, id_eq, still_drawn, still_draw_next, still_sendAuth, still_setNonce] | split)

@[simp] theorem still_setUnit (s : State) (a : Nat)  :
    still (State.setUnit s a) = still s := by
  unfold State.setUnit
  repeat' (first | with_reducible rfl | simp only [still_lit, still_mk, ite_self, apply_ite still, implies_true, id_eq, still_srf] | split)

@[simp] theorem still_enumStart (s : State) : still s.enumStart = still s := by
  have h : ∀ (l : List Nat) (s : State), still (s.each l fun s u => s.onlyIf (decide (1 < u)) fun s =>
      s.onlyIf (s.member u).present fun s => s.modMember u fun m => { m with aligned := false }) = still s := by
    intro l s
    refine still_each s l _ fun s u => still_onlyIf s _ _ fun s => still_onlyIf s _ _ fun s => ?_
    simp only [still_modMember]
  unfold State.enumStart
  simp only [still_enumGoesOn, still_showRoster, still_lit, still_mk, h, still_modMember, still_setUnit, still_srb]

@[simp] theorem still_drainQ8 (n : Nat) : ∀ s : State, still (State.drainQ8 n s) = still s := by
  induction n with
  | zero => intro s; rfl
  | succ n ih =>
    intro s
    unfold State.drainQ8
    repeat' (first | with_reducible rfl | simp only [ih, still_itemsBy, still_takeHead, still_countBroken, still_cwySend] | split)

@[simp] theorem still_pumpQ8 (s : State)  :
    still (State.pumpQ8 s) = still s := by
  unfold State.pumpQ8
  repeat' (first | with_reducible rfl | simp only [still_lit, still_mk, ite_self, apply_ite still, implies_true, id_eq, still_drainQ8] | split)

@[simp] theorem still_closeMirrors (s : State)  :
    still (State.closeMirrors s) = still s := by
  unfold State.closeMirrors
  repeat' (first | with_reducible rfl | simp only [still_lit, still_mk, ite_self, apply_ite still, implies_true, id_eq, still_each, still_closeOne] | split)

@[simp] theorem still_portDown (s : State) (p : Nat)  :
    still (State.portDown s p) = still s := by
  unfold State.portDown
  repeat' (first | with_reducible rfl | simp only [still_lit, still_mk, ite_self, apply_ite still, implies_true, id_eq, still_srf, still_srb, still_bump, still_forgetDraw, still_setPort, still_sendAuth, still_sendRoster, still_leftBeyond, still_closeMirrors] | split)

@[simp] theorem still_lineLock (p : Nat) (s : State)  :
    still (lineLock p s) = still s := by
  unfold lineLock
  repeat' (first | with_reducible rfl | simp only [still_lit, still_mk, ite_self, apply_ite still, implies_true, id_eq, still_setPort] | split)

@[simp] theorem still_portComesUp (p : Nat) (s : State)  :
    still (portComesUp p s) = still s := by
  unfold portComesUp
  repeat' (first | with_reducible rfl | simp only [still_lit, still_mk, ite_self, apply_ite still, implies_true, id_eq, still_srf, still_srb, still_setPort, still_sendAuth, still_enumStart, still_pumpQ8] | split)

@[simp] theorem still_linkLoss (p : Nat) (s : State)  :
    still (linkLoss p s) = still s := by
  unfold linkLoss
  repeat' (first | with_reducible rfl | simp only [still_lit, still_mk, ite_self, apply_ite still, implies_true, id_eq, still_onlyIf, still_setPort, still_portDown] | split)

@[simp] theorem still_resend (s : State) (p : Nat)  :
    still (State.resend s p) = still s := by
  unfold State.resend
  repeat' (first | with_reducible rfl | simp only [still_lit, still_mk, ite_self, apply_ite still, implies_true, id_eq, still_bump, still_evt] | split)

@[simp] theorem still_retransmit (p : Nat) (s : State)  :
    still (retransmit p s) = still s := by
  unfold retransmit
  repeat' (first | with_reducible rfl | simp only [still_lit, still_mk, ite_self, apply_ite still, implies_true, id_eq, still_setPort, still_portDown, still_resend] | split)

@[simp] theorem still_ackUpTo (p : Nat) (seq : Byte) (s : State)  :
    still (ackUpTo p seq s) = still s := by
  unfold ackUpTo
  repeat' (first | with_reducible rfl | simp only [still_lit, still_mk, ite_self, apply_ite still, implies_true, id_eq, still_setPort, still_pump, still_pumpQ8] | split)

@[simp] theorem still_nakFrom (p : Nat) (seq : Byte) (s : State)  :
    still (nakFrom p seq s) = still s := by
  unfold nakFrom
  repeat' (first | with_reducible rfl | simp only [still_lit, still_mk, ite_self, apply_ite still, implies_true, id_eq, still_setPort, still_pump, still_pumpQ8, still_resend] | split)

@[simp] theorem still_takeStamps (s : State) (b : Bytes)  :
    still (State.takeStamps s b) = still s := by
  unfold State.takeStamps
  repeat' (first | with_reducible rfl | simp only [still_lit, still_mk, ite_self, apply_ite still, implies_true, id_eq, still_srf] | split)

@[simp] theorem still_ttExchange (t1 : Nat) (s : State)  :
    still (ttExchange t1 s) = still s := by
  unfold ttExchange
  repeat' (first | with_reducible rfl | simp only [still_lit, still_mk, ite_self, apply_ite still, implies_true, id_eq] | split)

@[simp] theorem still_markArrives (p t sent : Nat) (s : State)  :
    still (markArrives p t sent s) = still s := by
  unfold markArrives
  repeat' (first | with_reducible rfl | simp only [still_lit, still_mk, ite_self, apply_ite still, implies_true, id_eq, still_sendAuth] | split)

@[simp] theorem still_ttFit (link uncPs : Nat) (s : State)  :
    still (ttFit link uncPs s) = still s := by
  unfold ttFit
  repeat' (first | with_reducible rfl | simp only [still_lit, still_mk, ite_self, apply_ite still, implies_true, id_eq, still_drop, still_sendAuth] | split)

@[simp] theorem still_timeUpdate (s : State)  :
    still (timeUpdate s) = still s := by
  unfold timeUpdate
  repeat' (first | with_reducible rfl | simp only [still_lit, still_mk, ite_self, apply_ite still, implies_true, id_eq, still_setReg, still_srf, still_sendAuth] | split | refine (still_takeFrame (by assumption)).trans ?_)

@[simp] theorem still_refuseFrame (s : State)  :
    still (State.refuseFrame s) = still s := by
  unfold State.refuseFrame
  repeat' (first | with_reducible rfl | simp only [still_lit, still_mk, ite_self, apply_ite still, implies_true, id_eq, still_bump] | split)

@[simp] theorem still_takeIn (s : State) (p : Nat) (f : Frame)  :
    still (State.takeIn s p f) = still s := by
  unfold State.takeIn
  repeat' (first | with_reducible rfl | simp only [still_lit, still_mk, ite_self, apply_ite still, implies_true, id_eq] | split)

theorem still_openAuth (s : State) (f : Frame) (nh : Bytes) : still (s.openAuth f nh).2 = still s := by
  unfold State.openAuth
  repeat' (first | with_reducible rfl | simp only [still_lit, still_mk, still_innerJob] | split)

theorem still_opened {s t : State} {f : Frame} {nh : Bytes} {x : Option Bytes} (h : s.openAuth f nh = (x, t)) : still t = still s := by
  have := still_openAuth s f nh; rw [h] at this; exact this

@[simp] theorem still_judgeFrame (s : State) (p : Nat) (f : Frame)  :
    still (State.judgeFrame s p f) = still s := by
  unfold State.judgeFrame
  repeat' (first | with_reducible rfl | simp only [still_lit, still_mk, ite_self, apply_ite still, implies_true, id_eq, still_modMember, still_takeStamps, still_refuseFrame, still_takeIn, still_openAuth] | split | refine (still_opened (by assumption)).trans ?_)

@[simp] theorem still_takeFor (s : State) (p : Nat) (f : Frame)  :
    still (State.takeFor s p f) = still s := by
  unfold State.takeFor
  repeat' (first | with_reducible rfl | simp only [still_lit, still_mk, ite_self, apply_ite still, implies_true, id_eq, still_takeIn, still_judgeFrame] | split)

@[simp] theorem still_forwardOn (s : State) (p : Nat) (f : Frame)  :
    still (State.forwardOn s p f) = still s := by
  unfold State.forwardOn
  repeat' (first | with_reducible rfl | simp only [still_lit, still_mk, ite_self, apply_ite still, implies_true, id_eq, still_setPort, still_pump, still_noRoute] | split)

@[simp] theorem still_frameArrival (p : Nat) (symbolsOk : Bool) (b : Bytes) (s : State)  :
    still (frameArrival p symbolsOk b s) = still s := by
  unfold frameArrival
  repeat' (first | with_reducible rfl | simp only [still_lit, still_mk, ite_self, apply_ite still, implies_true, id_eq, still_bump, still_onlyIf, still_drop, still_setPort, still_takeFor, still_forwardOn] | split)

@[simp] theorem still_sendEnumAck (s : State)  :
    still (State.sendEnumAck s) = still s := by
  unfold State.sendEnumAck
  repeat' (first | with_reducible rfl | simp only [still_lit, still_mk, ite_self, apply_ite still, implies_true, id_eq, still_cwySend, still_sendAuth] | split)

@[simp] theorem still_enumArrives (s : State)  :
    still (enumArrives s) = still s := by
  unfold enumArrives
  repeat' (first | with_reducible rfl | simp only [still_lit, still_mk, ite_self, apply_ite still, implies_true, id_eq, still_onlyIf, still_sendEnum, still_setUnit, still_pumpQ8, still_closeMirrors, still_sendEnumAck] | split | refine (still_takeFrame (by assumption)).trans ?_)

@[simp] theorem still_enumCheck (s : State)  :
    still (State.enumCheck s) = still s := by
  unfold State.enumCheck
  repeat' (first | with_reducible rfl | simp only [still_lit, still_mk, ite_self, apply_ite still, implies_true, id_eq, still_srb, still_drop, still_chainEventFree] | split)

@[simp] theorem still_walkEnds (s : State) (a : Nat)  :
    still (State.walkEnds s a) = still s := by
  unfold State.walkEnds
  repeat' (first | with_reducible rfl | simp only [still_lit, still_mk, ite_self, apply_ite still, implies_true, id_eq, still_chainEventFree, still_sendRoster, still_leftBeyond, still_enumCheck] | split)

@[simp] theorem still_enumAckArrives (s : State)  :
    still (enumAckArrives s) = still s := by
  unfold enumAckArrives
  repeat' (first | with_reducible rfl | simp only [still_lit, still_mk, ite_self, apply_ite still, implies_true, id_eq, still_srb, still_onlyIf, still_modMember, still_showRoster, still_chainEvent, still_refuseFrame, still_openAuth, still_walkEnds] | split | refine (still_takeFrame (by assumption)).trans ?_ | refine (still_opened (by assumption)).trans ?_)

@[simp] theorem still_rosterArrives (s : State)  :
    still (rosterArrives s) = still s := by
  unfold rosterArrives
  repeat' (first | with_reducible rfl | simp only [still_lit, still_mk, ite_self, apply_ite still, implies_true, id_eq, still_srb, still_onlyIf, still_each, still_drop, still_modMember, still_showRoster] | split | refine (still_takeFrame (by assumption)).trans ?_)

@[simp] theorem still_alignedArrives (s : State)  :
    still (alignedArrives s) = still s := by
  unfold alignedArrives
  repeat' (first | with_reducible rfl | simp only [still_lit, still_mk, ite_self, apply_ite still, implies_true, id_eq, still_modMember, still_enumCheck] | split | refine (still_takeFrame (by assumption)).trans ?_)

@[simp] theorem still_lostArrives (s : State)  :
    still (lostArrives s) = still s := by
  unfold lostArrives
  repeat' (first | with_reducible rfl | simp only [still_lit, still_mk, ite_self, apply_ite still, implies_true, id_eq, still_sendRoster, still_leftBeyond, still_enumCheck] | split | refine (still_takeFrame (by assumption)).trans ?_)

@[simp] theorem still_joinArrives (s : State)  :
    still (joinArrives s) = still s := by
  unfold joinArrives
  repeat' (first | with_reducible rfl | simp only [still_lit, still_mk, ite_self, apply_ite still, implies_true, id_eq, still_srb, still_joinGoesOn] | split | refine (still_takeFrame (by assumption)).trans ?_)

@[simp] theorem still_enumGoArrives (s : State)  :
    still (enumGoArrives s) = still s := by
  unfold enumGoArrives
  repeat' (first | with_reducible rfl | simp only [still_lit, still_mk, ite_self, apply_ite still, implies_true, id_eq, still_sendEnum] | split | refine (still_takeFrame (by assumption)).trans ?_)

@[simp] theorem still_dataFrameReceived (s : State) : still (dataFrameReceived s) = still s := by
  unfold dataFrameReceived
  cases s.cwy.taken.find? (fun x => decide (x.2.cls = 1)) with
  | none => rfl
  | some x =>
    dsimp only
    split
    · simp only [still_drop, still_lit, still_mk]
    · generalize hu : ({ s with cwy := { s.cwy with taken := s.cwy.taken.erase x } } : State) = u
      have hs : still u = still s := by rw [← hu]; rfl
      generalize bytesPacket 0 0xFF (toLE 4 (x.2.src % 32 + x.2.payload.length * 256) ++ x.2.payload) = p
      cases h : u.hwCommit 9 p with
      | none => rfl
      | some t => exact (still_itemsBy t _ _ _ _ _).trans ((still_hwCommit h).trans hs)

@[simp] theorem still_pcmdEnd (s : State) (status : Byte)  :
    still (State.pcmdEnd s status) = still s := by
  unfold State.pcmdEnd
  repeat' (first | with_reducible rfl | simp only [still_lit, still_mk, ite_self, apply_ite still, implies_true, id_eq, still_setReg, still_ended] | split)

@[simp] theorem still_receiptsIn (s : State) (status : Byte)  :
    still (State.receiptsIn s status) = still s := by
  unfold State.receiptsIn
  repeat' (first | with_reducible rfl | simp only [still_lit, still_mk, ite_self, apply_ite still, implies_true, id_eq, still_srf, still_onlyIf, still_pcmdEnd] | split)

@[simp] theorem still_pcmdSend (s : State) (dst sub : Nat) (body : Bytes)  :
    still (State.pcmdSend s dst sub body) = still s := by
  unfold State.pcmdSend
  repeat' (first | with_reducible rfl | simp only [still_lit, still_mk, ite_self, apply_ite still, implies_true, id_eq, still_setReg, still_sendAuth, still_receiptsIn] | split)

@[simp] theorem still_pcmdGo (s : State)  :
    still (State.pcmdGo s) = still s := by
  unfold State.pcmdGo
  repeat' (first | with_reducible rfl | simp only [still_lit, still_mk, ite_self, apply_ite still, implies_true, id_eq, still_innerJob, still_pcmdEnd, still_pcmdSend] | split)

@[simp] theorem still_spoilPcmd (s : State)  :
    still (State.spoilPcmd s) = still s := by
  unfold State.spoilPcmd
  repeat' (first | with_reducible rfl | simp only [still_lit, still_mk, ite_self, apply_ite still, implies_true, id_eq, still_freeBytes, still_each, still_freeIn, still_setPort] | split)

@[simp] theorem still_pcmdWrite (v : Word) (s : State)  :
    still (pcmdWrite v s) = still s := by
  unfold pcmdWrite
  repeat' (first | with_reducible rfl | simp only [still_lit, still_mk, ite_self, apply_ite still, implies_true, id_eq, still_setReg, still_onlyIf, still_pcmdGo, still_spoilPcmd] | split)

@[simp] theorem still_resumeCauseway (s : State)  :
    still (State.resumeCauseway s) = still s := by
  unfold State.resumeCauseway
  repeat' (first | with_reducible rfl | simp only [still_lit, still_mk, ite_self, apply_ite still, implies_true, id_eq, still_pumpQ8, still_pcmdGo] | split)

@[simp] theorem still_receipt (s : State) (dst sub : Nat) (status : Byte)  :
    still (State.receipt s dst sub status) = still s := by
  unfold State.receipt
  repeat' (first | with_reducible rfl | simp only [still_lit, still_mk, ite_self, apply_ite still, implies_true, id_eq, still_sendAuth] | split)

@[simp] theorem still_notify (s : State) (sub part src : Nat) (b : Bytes) (i : Nat)  :
    still (State.notify s sub part src b i) = still s := by
  unfold State.notify
  repeat' (first | with_reducible rfl | simp only [still_lit, still_mk, ite_self, apply_ite still, implies_true, id_eq, still_raise] | split)

@[simp] theorem still_landKey (s : State) (n part : Nat) (k : Bytes)  :
    still (State.landKey s n part k) = still s := by
  unfold State.landKey
  repeat' (first | with_reducible rfl | simp only [still_lit, still_mk, ite_self, apply_ite still, implies_true, id_eq, still_modSes, still_keyWrite] | split)

@[simp] theorem still_keyFrameReceived (s : State)  :
    still (keyFrameReceived s) = still s := by
  unfold keyFrameReceived
  repeat' (first | with_reducible rfl | simp only [still_lit, still_mk, ite_self, apply_ite still, implies_true, id_eq, still_srb, still_drop, still_innerJob, still_receipt, still_notify, still_landKey] | split | refine (still_takeFrame (by assumption)).trans ?_)

@[simp] theorem still_closeFrameReceived (s : State)  :
    still (closeFrameReceived s) = still s := by
  unfold closeFrameReceived
  repeat' (first | with_reducible rfl | simp only [still_lit, still_mk, ite_self, apply_ite still, implies_true, id_eq, still_receipt, still_notify] | split | refine (still_takeFrame (by assumption)).trans ?_)

@[simp] theorem still_switchReceived (s : State)  :
    still (switchReceived s) = still s := by
  unfold switchReceived
  repeat' (first | with_reducible rfl | simp only [still_lit, still_mk, ite_self, apply_ite still, implies_true, id_eq, still_srf, still_receipt] | split | refine (still_takeFrame (by assumption)).trans ?_)

@[simp] theorem still_receiptArrives (s : State)  :
    still (receiptArrives s) = still s := by
  unfold receiptArrives
  repeat' (first | with_reducible rfl | simp only [still_lit, still_mk, ite_self, apply_ite still, implies_true, id_eq, still_receiptsIn] | split | refine (still_takeFrame (by assumption)).trans ?_)

@[simp] theorem still_receiptTimeout (s : State)  :
    still (receiptTimeout s) = still s := by
  unfold receiptTimeout
  repeat' (first | with_reducible rfl | simp only [still_lit, still_mk, ite_self, apply_ite still, implies_true, id_eq, still_pcmdEnd] | split)

@[simp] theorem still_prxClear (s : State)  :
    still (prxClear s) = still s := by
  unfold prxClear
  repeat' (first | with_reducible rfl | simp only [still_lit, still_mk, ite_self, apply_ite still, implies_true, id_eq, still_closeOne] | split)

/-! ### Windows -/

@[simp] theorem still_windowAs (s : State) (m rights : Master) (user write : Bool) (q lane off : Nat) (f : State → State) (hf : ∀ x0, still (f x0) = still x0) :
    still (State.windowAs s m rights user write q lane off f) = still s := by
  unfold State.windowAs
  repeat' (first | with_reducible rfl | simp only [still_lit, still_mk, ite_self, apply_ite still, implies_true, id_eq, still_refuse, still_evt, still_access, hf] | split)

@[simp] theorem still_window (s : State) (m : Master) (write : Bool) (q lane off : Nat) (f : State → State) (hf : ∀ x0, still (f x0) = still x0) :
    still (State.window s m write q lane off f) = still s := by
  unfold State.window
  repeat' (first | with_reducible rfl | simp only [still_lit, still_mk, ite_self, apply_ite still, implies_true, id_eq, still_windowAs, hf] | split)

@[simp] theorem still_pushTag (m : Master) (n : Nat) (tag : Word) (s : State)  :
    still (pushTag m n tag s) = still s := by
  unfold pushTag
  repeat' (first | with_reducible rfl | simp only [still_lit, still_mk, ite_self, apply_ite still, implies_true, id_eq, still_setLane, still_pushItem, still_drainWaiting, still_pumpQ8] | split)

@[simp] theorem still_pushData (m : Master) (n : Nat) (v : Word) (s : State)  :
    still (pushData m n v s) = still s := by
  unfold pushData
  repeat' (first | with_reducible rfl | simp only [still_lit, still_mk, ite_self, apply_ite still, implies_true, id_eq, still_setLane] | split)

@[simp] theorem still_pushEmpty (m : Master) (n : Nat) (tag : Word) (s : State)  :
    still (pushEmpty m n tag s) = still s := by
  unfold pushEmpty
  repeat' (first | with_reducible rfl | simp only [still_lit, still_mk, ite_self, apply_ite still, implies_true, id_eq, still_setLane, still_pushErr, still_pushItem, still_drainWaiting, still_pumpQ8] | split)

@[simp] theorem still_setLatch (s : State) (m : Master) (a : Nat) (v : Word)  :
    still (State.setLatch s m a v) = still s := by
  unfold State.setLatch
  repeat' (first | with_reducible rfl | simp only [still_lit, still_mk, ite_self, apply_ite still, implies_true, id_eq] | split)

@[simp] theorem still_popFor (m : Master) (q lane : Nat) (s : State)  :
    still (popFor m q lane s) = still s := by
  unfold popFor
  repeat' (first | with_reducible rfl | simp only [still_lit, still_mk, ite_self, apply_ite still, implies_true, id_eq, still_popItem, still_drainWaiting, still_answer, still_setLatch] | split)

@[simp] theorem still_popAs (s : State) (m rights : Master) (user : Bool) (q lane : Nat)  :
    still (State.popAs s m rights user q lane) = still s := by
  unfold State.popAs
  repeat' (first | with_reducible rfl | simp only [still_lit, still_mk, ite_self, apply_ite still, implies_true, id_eq, still_answer, still_windowAs, still_popFor] | split)

@[simp] theorem still_popBy (m : Master) (q lane : Nat) (s : State)  :
    still (popBy m q lane s) = still s := by
  unfold popBy
  repeat' (first | with_reducible rfl | simp only [still_lit, still_mk, ite_self, apply_ite still, implies_true, id_eq, still_popAs] | split)

@[simp] theorem still_moverStat (s : State) (ch : Nat) (status : Byte) (busy ended : Bool) (bytes : Nat)  :
    still (State.moverStat s ch status busy ended bytes) = still s := by
  unfold State.moverStat
  repeat' (first | with_reducible rfl | simp only [still_lit, still_mk, ite_self, apply_ite still, implies_true, id_eq, still_setReg, still_ended] | split)

@[simp] theorem still_moverBegin (s : State) (ch : Nat) (d : List Word)  :
    still (State.moverBegin s ch d) = still s := by
  unfold State.moverBegin
  repeat' (first | with_reducible rfl | simp only [still_lit, still_mk, ite_self, apply_ite still, implies_true, id_eq, still_moverStat] | split)

@[simp] theorem still_moverGo (ch : Nat) (s : State)  :
    still (moverGo ch s) = still s := by
  unfold moverGo
  repeat' (first | with_reducible rfl | simp only [still_lit, still_mk, ite_self, apply_ite still, implies_true, id_eq, still_moverBegin] | split)

@[simp] theorem still_moverEvent (s : State) (ch : Nat) (status : Byte)  :
    still (State.moverEvent s ch status) = still s := by
  unfold State.moverEvent
  repeat' (first | with_reducible rfl | simp only [still_lit, still_mk, ite_self, apply_ite still, implies_true, id_eq, still_onlyIf, still_ended, still_event] | split)

@[simp] theorem still_moverEnd (s : State) (ch : Nat) (status : Byte) (bytes : Nat)  :
    still (State.moverEnd s ch status bytes) = still s := by
  unfold State.moverEnd
  repeat' (first | with_reducible rfl | simp only [still_lit, still_mk, ite_self, apply_ite still, implies_true, id_eq, still_moverStat, still_moverEvent] | split)

@[simp] theorem still_moverStop (ch : Nat) (s : State)  :
    still (moverStop ch s) = still s := by
  unfold moverStop
  repeat' (first | with_reducible rfl | simp only [still_lit, still_mk, ite_self, apply_ite still, implies_true, id_eq, still_moverEnd] | split)

@[simp] theorem still_armedStart (ch : Nat) (s : State)  :
    still (armedStart ch s) = still s := by
  unfold armedStart
  repeat' (first | with_reducible rfl | simp only [still_lit, still_mk, ite_self, apply_ite still, implies_true, id_eq] | split)

@[simp] theorem still_moverOff (s : State)  :
    still (State.moverOff s) = still s := by
  unfold State.moverOff
  repeat' (first | with_reducible rfl | simp only [still_lit, still_mk, ite_self, apply_ite still, implies_true, id_eq, still_each, still_moverEnd] | split)

/-! ### Channels -/

@[simp] theorem still_channelStart (ch : Nat) (s : State)  :
    still (channelStart ch s) = still s := by
  unfold channelStart
  repeat' (first | with_reducible rfl | simp only [still_lit, still_mk, ite_self, apply_ite still, implies_true, id_eq, still_srf, still_onlyIf] | split)

@[simp] theorem still_lfClear (n : Nat) : ∀ (ch : Nat) (s : State), still (lfClear n ch s) = still s := by
  induction n with
  | zero => intro ch s; exact still_lfSettle s
  | succ n ih =>
    intro ch s
    unfold lfClear
    split
    · refine (ih ch _).trans ?_
      simp only [still_lit, still_mk, still_takeHead]
    · exact still_lfSettle s

@[simp] theorem still_channelStop (ch : Nat) (s : State)  :
    still (channelStop ch s) = still s := by
  unfold channelStop
  repeat' (first | with_reducible rfl | simp only [still_lit, still_mk, ite_self, apply_ite still, implies_true, id_eq, still_srf, still_onlyIf, still_completeWaiting, still_lfDrop, still_uwbStop, still_lfClear] | split)

@[simp] theorem still_channelIdle (ch : Nat) (s : State)  :
    still (channelIdle ch s) = still s := by
  unfold channelIdle
  repeat' (first | with_reducible rfl | simp only [still_lit, still_mk, ite_self, apply_ite still, implies_true, id_eq, still_srf] | split)

@[simp] theorem still_sesRoom (s : State) : still s.sesRoom.2 = still s := by
  unfold State.sesRoom
  repeat' (first | with_reducible rfl | simp only [still_closeSes, still_slotUses] | split | dsimp only)

theorem still_sesRoomEq {s t : State} {r : Room} (h : s.sesRoom = (r, t)) : still t = still s := by
  have h' := still_sesRoom s
  rw [h] at h'
  exact h'

@[simp] theorem still_takeSes (s : State) (n suite opener idle offer : Nat)  :
    still (State.takeSes s n suite opener idle offer) = still s := by
  unfold State.takeSes
  repeat' (first | with_reducible rfl | simp only [still_lit, still_mk, ite_self, apply_ite still, implies_true, id_eq, still_setSes] | split)

@[simp] theorem still_armLanding (s : State)  :
    still (State.armLanding s) = still s := by
  unfold State.armLanding
  repeat' (first | with_reducible rfl | simp only [still_lit, still_mk, ite_self, apply_ite still, implies_true, id_eq, still_setReg, still_srb, still_sesRoom, still_takeSes] | split | refine (still_sesRoomEq (by assumption)).trans ?_)

@[simp] theorem still_landGoesOn (s : State)  :
    still (State.landGoesOn s) = still s := by
  unfold State.landGoesOn
  repeat' (first | with_reducible rfl | simp only [still_lit, still_mk, ite_self, apply_ite still, implies_true, id_eq, still_armLanding] | split)

@[simp] theorem still_idleTimeout (n : Nat) (s : State)  :
    still (idleTimeout n s) = still s := by
  unfold idleTimeout
  repeat' (first | with_reducible rfl | simp only [still_lit, still_mk, ite_self, apply_ite still, implies_true, id_eq, still_closeSes] | split)

@[simp] theorem still_offerTimeout (n : Nat) (s : State)  :
    still (offerTimeout n s) = still s := by
  unfold offerTimeout
  repeat' (first | with_reducible rfl | simp only [still_lit, still_mk, ite_self, apply_ite still, implies_true, id_eq, still_closeSes] | split)

end Laws
end Sys2Proof
end

