-- ==== Sys2Proof/Laws/StillPeat.lean ====
section
/-!
SUPPORT. What leaves the waiting commands and the byte memories alone: Peat's operations.
-/
namespace Sys2Proof
namespace Laws

open Sys2Proof.Machine

set_option linter.unusedSimpArgs false
set_option linter.unusedVariables false
set_option linter.unusedTactic false
set_option linter.unreachableTactic false

/-! ### Mailbox -/

@[simp] theorem still_answerMail (s : State) (n o : Nat) (id : BitVec 16) (status : Byte) (body : Bytes)  :
    still (State.answerMail s n o id status body) = still s := by
  unfold State.answerMail
  repeat' (first | with_reducible rfl | simp only [still_lit, still_mk, ite_self, apply_ite still, implies_true, id_eq, still_feCommit] | split)

@[simp] theorem still_liftFences (s : State)  :
    still (State.liftFences s) = still s := by
  unfold State.liftFences
  repeat' (first | with_reducible rfl | simp only [still_lit, still_mk, ite_self, apply_ite still, implies_true, id_eq, still_setReg, still_each] | split)

@[simp] theorem still_reloadSedge (s : State)  :
    still (State.reloadSedge s) = still s := by
  unfold State.reloadSedge
  repeat' (first | with_reducible rfl | simp only [still_lit, still_mk, ite_self, apply_ite still, implies_true, id_eq, still_bumpSat, still_beginReload] | split)

@[simp] theorem still_restartSedge (s : State)  :
    still (State.restartSedge s) = still s := by
  unfold State.restartSedge
  repeat' (first | with_reducible rfl | simp only [still_lit, still_mk, ite_self, apply_ite still, implies_true, id_eq, still_flushLane, still_flushQueue, still_reloadSedge] | split)

@[simp] theorem still_reply (s : State) (status : Byte) (body : Bytes)  :
    still (State.reply s status body) = still s := by
  unfold State.reply
  repeat' (first | with_reducible rfl | simp only [still_lit, still_mk, ite_self, apply_ite still, implies_true, id_eq, still_answerMail, still_liftFences, still_restartSedge] | split)

@[simp] theorem still_replyCode (s : State) (status : Byte)  :
    still (State.replyCode s status) = still s := by
  unfold State.replyCode
  repeat' (first | with_reducible rfl | simp only [still_lit, still_mk, ite_self, apply_ite still, implies_true, id_eq, still_reply] | split)

@[simp] theorem still_await (s : State) (w : Waiting)  :
    still (State.await s w) = still s := by
  unfold State.await
  repeat' (first | with_reducible rfl | simp only [still_lit, still_mk, ite_self, apply_ite still, implies_true, id_eq] | split)

@[simp] theorem still_peatDraw (s : State) (n : Nat) (have_ : Bytes) (fail : Byte → State → State) (go : Bytes → State → State) (hfail : ∀ x0 x1, still (fail x0 x1) = still x1) (hgo : ∀ x0 x1, still (go x0 x1) = still x1) :
    still (State.peatDraw s n have_ fail go) = still s := by
  unfold State.peatDraw
  repeat' (first | with_reducible rfl | simp only [still_lit, still_mk, ite_self, apply_ite still, implies_true, id_eq, still_drawn, still_draw_next, still_await, hfail, hgo] | split)

@[simp] theorem still_pruneGens (s : State) (p : Packet)  :
    still (State.pruneGens s p) = still s := by
  unfold State.pruneGens
  repeat' (first | with_reducible rfl | simp only [still_lit, still_mk, ite_self, apply_ite still, implies_true, id_eq, still_drop] | split)

@[simp] theorem still_holdBuffer (s : State) (a n : Word)  :
    still (State.holdBuffer s a n) = still s := by
  unfold State.holdBuffer
  repeat' (first | with_reducible rfl | simp only [still_lit, still_mk, ite_self, apply_ite still, implies_true, id_eq, still_setReg] | split)

@[simp] theorem still_holdArgs (s : State) (o : Nat) (args : List Word)  :
    still (State.holdArgs s o args) = still s := by
  unfold State.holdArgs
  repeat' (first | with_reducible rfl | simp only [still_lit, still_mk, ite_self, apply_ite still, implies_true, id_eq, still_holdBuffer] | split)

@[simp] theorem still_mailOp (op : Nat) (mine : List Word → Bool) (f : Serving → State → State) (s : State) (hf : ∀ x0 x1, still (f x0 x1) = still x1) :
    still (mailOp op mine f s) = still s := by
  unfold mailOp
  repeat' (first | with_reducible rfl | simp only [still_lit, still_mk, ite_self, apply_ite still, implies_true, id_eq, still_drop, still_takeHead, still_countBroken, still_answerMail, still_pruneGens, still_holdArgs, hf] | split)

@[simp] theorem still_bindCh (s : State) (ch n : Nat)  :
    still (State.bindCh s ch n) = still s := by
  unfold State.bindCh
  repeat' (first | with_reducible rfl | simp only [still_lit, still_mk, ite_self, apply_ite still, implies_true, id_eq, still_srf, still_srb] | split)

theorem still_outCommit {s t : State} {ch prio : Nat} {b : Bytes} (h : s.outCommit ch prio b = some t) :
    still t = still s := by
  unfold State.outCommit at h
  extract_lets q n p at h
  split at h
  · cases h
  · exact still_hwCommit h

@[simp] theorem still_sesFailed (s : State) (n : Nat) (c : Byte)  :
    still (State.sesFailed s n c) = still s := by
  unfold State.sesFailed
  repeat' (first | with_reducible rfl | simp only [still_lit, still_mk, ite_self, apply_ite still, implies_true, id_eq, still_closeSes, still_replyCode] | split)

@[simp] theorem still_closeSession (v : Serving) (s : State)  :
    still (closeSession v s) = still s := by
  unfold closeSession
  repeat' (first | with_reducible rfl | simp only [still_lit, still_mk, ite_self, apply_ite still, implies_true, id_eq, still_closeSes, still_replyCode, still_await] | split)

@[simp] theorem still_counterRead (v : Serving) (s : State)  :
    still (counterRead v s) = still s := by
  unfold counterRead
  repeat' (first | with_reducible rfl | simp only [still_lit, still_mk, ite_self, apply_ite still, implies_true, id_eq, still_reply, still_replyCode] | split)

/-! ### Creds -/

@[simp] theorem still_credReply (s : State) (code : Byte) (hit : Bool) (reason serial : Nat) (rights notAfter : Nat)  :
    still (State.credReply s code hit reason serial rights notAfter) = still s := by
  unfold State.credReply
  repeat' (first | with_reducible rfl | simp only [still_lit, still_mk, ite_self, apply_ite still, implies_true, id_eq, still_reply] | split)

@[simp] theorem still_credFail (s : State) (code : Byte) (counted : Option Nat) (hit : Bool) (reason serial : Nat)  :
    still (State.credFail s code counted hit reason serial) = still s := by
  unfold State.credFail
  repeat' (first | with_reducible rfl | simp only [still_lit, still_mk, ite_self, apply_ite still, implies_true, id_eq, still_onlyIf, still_countFailure, still_credReply] | split)

@[simp] theorem still_closeEntrySes (s : State) (n : Nat)  :
    still (State.closeEntrySes s n) = still s := by
  unfold State.closeEntrySes
  repeat' (first | with_reducible rfl | simp only [still_lit, still_mk, ite_self, apply_ite still, implies_true, id_eq, still_each, still_closeSes] | split)

@[simp] theorem still_removeEntry (s : State) (n : Nat)  :
    still (State.removeEntry s n) = still s := by
  unfold State.removeEntry
  repeat' (first | with_reducible rfl | simp only [still_lit, still_mk, ite_self, apply_ite still, implies_true, id_eq, still_eraseEntry, still_closeEntrySes] | split)

@[simp] theorem still_putEntry (s : State) (n : Nat) (e : Entry)  :
    still (State.putEntry s n e) = still s := by
  unfold State.putEntry
  repeat' (first | with_reducible rfl | simp only [still_lit, still_mk, ite_self, apply_ite still, implies_true, id_eq] | split)

@[simp] theorem still_revoke (s : State) (serial : Nat)  :
    still (State.revoke s serial) = still s := by
  unfold State.revoke
  repeat' (first | with_reducible rfl | simp only [still_lit, still_mk, ite_self, apply_ite still, implies_true, id_eq, still_each, still_closeSes, still_removeEntry] | split)

@[simp] theorem still_revokeAll (s : State) (l : List Nat)  :
    still (State.revokeAll s l) = still s := by
  unfold State.revokeAll
  repeat' (first | with_reducible rfl | simp only [still_lit, still_mk, ite_self, apply_ite still, implies_true, id_eq, still_each, still_revoke] | split)

@[simp] theorem still_takeOpTime (s : State) (t : Word)  :
    still (State.takeOpTime s t) = still s := by
  unfold State.takeOpTime
  repeat' (first | with_reducible rfl | simp only [still_lit, still_mk, ite_self, apply_ite still, implies_true, id_eq] | split)

@[simp] theorem still_recordAdd (s : State) (b key : Bytes)  :
    still (State.recordAdd s b key) = still s := by
  unfold State.recordAdd
  repeat' (first | with_reducible rfl | simp only [still_lit, still_mk, ite_self, apply_ite still, implies_true, id_eq, still_setCounter, still_reply, still_replyCode, still_closeEntrySes, still_putEntry] | split)

@[simp] theorem still_recordRemove (s : State) (b : Bytes)  :
    still (State.recordRemove s b) = still s := by
  unfold State.recordRemove
  repeat' (first | with_reducible rfl | simp only [still_lit, still_mk, ite_self, apply_ite still, implies_true, id_eq, still_setCounter, still_reply, still_replyCode, still_removeEntry] | split)

theorem still_inCommit {s t : State} {ch prio : Nat} {b : Bytes} (h : s.inCommit ch prio b = some t) :
    still t = still s := by
  unfold State.inCommit at h
  extract_lets q p at h
  split at h
  · cases h
  · exact still_hwCommit h

@[simp] theorem still_openToken (s : State) (n ch : Nat) (key : Bytes) (tid : Word) (km5200 : Bool) (entry : Nat)  :
    still (State.openToken s n ch key tid km5200 entry) = still s := by
  unfold State.openToken
  repeat' (first | with_reducible rfl | simp only [still_lit, still_mk, ite_self, apply_ite still, implies_true, id_eq, still_modSes, still_takeSes, still_bindCh] | split)

@[simp] theorem still_authCommand (s : State) (wake burst : Nat) (transponder : Bool)  :
    still (State.authCommand s wake burst transponder).2 = still s := by
  unfold State.authCommand
  repeat' (first | with_reducible rfl | simp only [still_lit, still_mk, ite_self, apply_ite still, implies_true, id_eq, still_freeW] | split)

@[simp] theorem still_byTokenSend (s : State) (n ch cls : Nat) (tid : Word) (rights : Byte)  :
    still (State.byTokenSend s n ch cls tid rights) = still s := by
  unfold State.byTokenSend
  repeat' (first | with_reducible rfl | simp only [still_lit, still_mk, ite_self, apply_ite still, implies_true, id_eq, still_closeSes, still_replyCode, still_await, still_authCommand] | split | refine (still_inCommit (by assumption)).trans ?_)

@[simp] theorem still_byTokenAuth (s : State) (n ch cls : Nat) (key : Bytes) (tid : Word) (rights : Byte)  :
    still (State.byTokenAuth s n ch cls key tid rights) = still s := by
  unfold State.byTokenAuth
  repeat' (first | with_reducible rfl | simp only [still_lit, still_mk, ite_self, apply_ite still, implies_true, id_eq, still_openToken, still_byTokenSend] | split)

@[simp] theorem still_byTokenEnd (s : State) (n cls : Nat) (tid : Word) (rights : Byte) (out : Option (Byte × Bool))  :
    still (State.byTokenEnd s n cls tid rights out) = still s := by
  unfold State.byTokenEnd
  repeat' (first | with_reducible rfl | simp only [still_lit, still_mk, ite_self, apply_ite still, implies_true, id_eq, still_closeSes, still_answer, still_reply, still_replyCode, still_putEntry] | split)

@[simp] theorem still_byTokenTimeout (s : State)  :
    still (byTokenTimeout s) = still s := by
  unfold byTokenTimeout
  repeat' (first | with_reducible rfl | simp only [still_lit, still_mk, ite_self, apply_ite still, implies_true, id_eq, still_byTokenAuth, still_byTokenEnd] | split)

@[simp] theorem still_bindReply (s : State) (n : Nat)  :
    still (State.bindReply s n) = still s := by
  unfold State.bindReply
  repeat' (first | with_reducible rfl | simp only [still_lit, still_mk, ite_self, apply_ite still, implies_true, id_eq, still_reply] | split)

@[simp] theorem still_enrolBind (v : Serving) (s : State)  :
    still (enrolBind v s) = still s := by
  unfold enrolBind
  repeat' (first | with_reducible rfl | simp only [still_lit, still_mk, ite_self, apply_ite still, implies_true, id_eq, still_sesRoom, still_replyCode, still_await, still_bindCh, still_openToken, still_bindReply] | split | refine (still_sesRoomEq (by assumption)).trans ?_)

@[simp] theorem still_lockEnd (t : LockTarget) (s : State)  :
    still (lockEnd t s) = still s := by
  unfold lockEnd
  repeat' (first | with_reducible rfl | simp only [still_lit, still_mk, ite_self, apply_ite still, implies_true, id_eq, still_onlyIf, still_setLock] | split)

@[simp] theorem still_failureExpiry (t : LockTarget) (s : State)  :
    still (failureExpiry t s) = still s := by
  unfold failureExpiry
  repeat' (first | with_reducible rfl | simp only [still_lit, still_mk, ite_self, apply_ite still, implies_true, id_eq, still_onlyIf, still_drop, still_setLock] | split)

/-! ### Applets -/

@[simp] theorem still_ecallDone (s : State) (r : AppletRun) (status : Byte) (words : List Word)  :
    still (State.ecallDone s r status words) = still s := by
  unfold State.ecallDone
  repeat' (first | with_reducible rfl | simp only [still_lit, still_mk, ite_self, apply_ite still, implies_true, id_eq] | split)

@[simp] theorem still_ecallFree (s : State) (r : AppletRun) (n : Nat)  :
    still (State.ecallFree s r n) = still s := by
  unfold State.ecallFree
  repeat' (first | with_reducible rfl | simp only [still_lit, still_mk, ite_self, apply_ite still, implies_true, id_eq, still_freeBytes, still_ecallDone] | split)

@[simp] theorem still_callOver (s : State)  :
    still (State.callOver s) = still s := by
  unfold State.callOver
  repeat' (first | with_reducible rfl | simp only [still_lit, still_mk, ite_self, apply_ite still, implies_true, id_eq, still_forgetDraw] | split)

@[simp] theorem still_ecallRandom (count : Nat) (r : AppletRun) (s : State)  :
    still (ecallRandom count r s) = still s := by
  unfold ecallRandom
  repeat' (first | with_reducible rfl | simp only [still_lit, still_mk, ite_self, apply_ite still, implies_true, id_eq, still_drawn, still_draw_next, still_ecallDone] | split)

@[simp] theorem still_appletGoesOn (s : State)  :
    still (State.appletGoesOn s) = still s := by
  unfold State.appletGoesOn
  repeat' (first | with_reducible rfl | simp only [still_lit, still_mk, ite_self, apply_ite still, implies_true, id_eq, still_forgetDraw, still_ecallDone] | split)

@[simp] theorem still_ecallCounter (which : Nat) (advance : Bool) (r : AppletRun) (s : State)  :
    still (ecallCounter which advance r s) = still s := by
  unfold ecallCounter
  repeat' (first | with_reducible rfl | simp only [still_lit, still_mk, ite_self, apply_ite still, implies_true, id_eq, still_ecallDone] | split | refine (still_incCounter (by assumption)).trans ?_)

@[simp] theorem still_ecallKey (slot : Nat) (r : AppletRun) (s : State)  :
    still (ecallKey slot r s) = still s := by
  unfold ecallKey
  repeat' (first | with_reducible rfl | simp only [still_lit, still_mk, ite_self, apply_ite still, implies_true, id_eq, still_ecallDone, still_ecallFree] | split)

@[simp] theorem still_ecallSession (r : AppletRun) (s : State)  :
    still (ecallSession r s) = still s := by
  unfold ecallSession
  repeat' (first | with_reducible rfl | simp only [still_lit, still_mk, ite_self, apply_ite still, implies_true, id_eq, still_ecallDone, still_ecallFree] | split)

/-! ### Release -/

@[simp] theorem still_relGo (s : State)  :
    still (relGo s) = still s := by
  unfold relGo
  repeat' (first | with_reducible rfl | simp only [still_lit, still_mk, ite_self, apply_ite still, implies_true, id_eq] | split)

@[simp] theorem still_relStop (s : State)  :
    still (relStop s) = still s := by
  unfold relStop
  repeat' (first | with_reducible rfl | simp only [still_lit, still_mk, ite_self, apply_ite still, implies_true, id_eq] | split)

@[simp] theorem still_relGoWritten (s : State)  :
    still (relGoWritten s) = still s := by
  unfold relGoWritten
  repeat' (first | with_reducible rfl | simp only [still_lit, still_mk, ite_self, apply_ite still, implies_true, id_eq, still_freeW] | split)

@[simp] theorem still_relCtl (v : Word) (s : State)  :
    still (relCtl v s) = still s := by
  unfold relCtl
  repeat' (first | with_reducible rfl | simp only [still_lit, still_mk, ite_self, apply_ite still, implies_true, id_eq, still_onlyIf, still_relStop, still_relGoWritten] | split)

@[simp] theorem still_pinMismatch (s : State)  :
    still (pinMismatch s) = still s := by
  unfold pinMismatch
  repeat' (first | with_reducible rfl | simp only [still_lit, still_mk, ite_self, apply_ite still, implies_true, id_eq, still_srb, still_relStop] | split)

@[simp] theorem still_useRoom (s : State)  :
    still (State.useRoom s) = still s := by
  unfold State.useRoom
  repeat' (first | with_reducible rfl | simp only [still_lit, still_mk, ite_self, apply_ite still, implies_true, id_eq] | split)

@[simp] theorem still_decisionLog (s : State) (d : Decision) (code : Byte) (counter : Nat)  :
    still (State.decisionLog s d code counter) = still s := by
  unfold State.decisionLog
  repeat' (first | with_reducible rfl | simp only [still_lit, still_mk, ite_self, apply_ite still, implies_true, id_eq, still_feCommit] | split)

@[simp] theorem still_conclude (s : State) (d : Decision) (code : Byte) (body : Bytes)  :
    still (State.conclude s d code body) = still s := by
  unfold State.conclude
  repeat' (first | with_reducible rfl | simp only [still_lit, still_mk, ite_self, apply_ite still, implies_true, id_eq, still_srf, still_tagIsack, still_reply] | split)

@[simp] theorem still_turnDown (s : State) (d : Decision) (code : Byte)  :
    still (State.turnDown s d code) = still s := by
  unfold State.turnDown
  repeat' (first | with_reducible rfl | simp only [still_lit, still_mk, ite_self, apply_ite still, implies_true, id_eq, still_useRoom, still_decisionLog, still_conclude] | split)

@[simp] theorem still_askApplet (s : State) (d : Decision) (inst : Nat) (card : Bool)  :
    still (State.askApplet s d inst card) = still s := by
  unfold State.askApplet
  repeat' (first | with_reducible rfl | simp only [still_lit, still_mk, ite_self, apply_ite still, implies_true, id_eq, still_await, still_turnDown] | split)

theorem still_askFused {s t : State} {d : Decision} (h : s.askFused d = some t) : still t = still s := by
  unfold State.askFused at h
  extract_lets u at h
  have hu : still u = still s := (still_requestFused _ _).trans rfl
  split at h
  · rw [← Option.some.inj h]; exact hu
  · split at h
    · extract_lets left at h
      split at h
      · rw [← Option.some.inj h]; exact hu
      · cases h
    · cases h

@[simp] theorem still_startTransponder (s : State) (d : Decision)  :
    still (State.startTransponder s d) = still s := by
  unfold State.startTransponder
  repeat' (first | with_reducible rfl | simp only [still_lit, still_mk, ite_self, apply_ite still, implies_true, id_eq, still_await, still_turnDown] | split | refine (still_inCommit (by assumption)).trans ?_)

@[simp] theorem still_aheadLess (s : State)  :
    still (State.aheadLess s) = still s := by
  unfold State.aheadLess
  repeat' (first | with_reducible rfl | simp only [still_lit, still_mk, ite_self, apply_ite still, implies_true, id_eq] | split)

/-! ### Images -/

@[simp] theorem still_setArb (s : State) (n v : Nat)  :
    still (State.setArb s n v) = still s := by
  unfold State.setArb
  repeat' (first | with_reducible rfl | simp only [still_lit, still_mk, ite_self, apply_ite still, implies_true, id_eq] | split)

@[simp] theorem still_hashJobs (s : State) (n : Nat)  :
    still (State.hashJobs s n) = still s := by
  unfold State.hashJobs
  repeat' (first | with_reducible rfl | simp only [still_lit, still_mk, ite_self, apply_ite still, implies_true, id_eq, still_bump, still_evt] | split)

@[simp] theorem still_secReplace (s : State) (b : Bool)  :
    still (State.secReplace s b) = still s := by
  unfold State.secReplace
  repeat' (first | with_reducible rfl | simp only [still_lit, still_mk, ite_self, apply_ite still, implies_true, id_eq, still_srb] | split)

@[simp] theorem still_endReplace (s : State) (status : Byte)  :
    still (State.endReplace s status) = still s := by
  unfold State.endReplace
  repeat' (first | with_reducible rfl | simp only [still_lit, still_mk, ite_self, apply_ite still, implies_true, id_eq, still_onlyIf, still_resumeCauseway, still_replyCode, still_secReplace] | split)

@[simp] theorem still_holdWork (s : State) (key : Nat) (body : Option Bytes)  :
    still (State.holdWork s key body) = still s := by
  unfold State.holdWork
  repeat' (first | with_reducible rfl | simp only [still_lit, still_mk, ite_self, apply_ite still, implies_true, id_eq] | split)

@[simp] theorem still_removeSection (s : State) (key : Nat)  :
    still (State.removeSection s key) = still s := by
  unfold State.removeSection
  repeat' (first | with_reducible rfl | simp only [still_lit, still_mk, ite_self, apply_ite still, implies_true, id_eq] | split)

@[simp] theorem still_guardFlash (s : State)  :
    still (State.guardFlash s) = still s := by
  unfold State.guardFlash
  repeat' (first | with_reducible rfl | simp only [still_lit, still_mk, ite_self, apply_ite still, implies_true, id_eq] | split)

@[simp] theorem still_commitDir (s : State) (slot : Nat) (version : Word)  :
    still (State.commitDir s slot version) = still s := by
  unfold State.commitDir
  repeat' (first | with_reducible rfl | simp only [still_lit, still_mk, ite_self, apply_ite still, implies_true, id_eq, still_setArb] | split)

@[simp] theorem still_retrain (s : State)  :
    still (State.retrain s) = still s := by
  unfold State.retrain
  repeat' (first | with_reducible rfl | simp only [still_lit, still_mk, ite_self, apply_ite still, implies_true, id_eq, still_trainPorts, still_portDown] | split)

@[simp] theorem still_acceptCandidate (s : State) (slot : Nat) (version : Word) (key : Nat) (body : Option Bytes)  :
    still (State.acceptCandidate s slot version key body) = still s := by
  unfold State.acceptCandidate
  repeat' (first | with_reducible rfl | simp only [still_lit, still_mk, ite_self, apply_ite still, implies_true, id_eq, still_await, still_endReplace, still_holdWork, still_guardFlash, still_commitDir] | split)

@[simp] theorem still_imageStage (v : Serving) (s : State)  :
    still (imageStage v s) = still s := by
  unfold imageStage
  repeat' (first | with_reducible rfl | simp only [still_lit, still_mk, ite_self, apply_ite still, implies_true, id_eq, still_replyCode, still_hashJobs] | split)

@[simp] theorem still_advanceNow (s : State) (typ : Nat) (h : Bytes)  :
    still (State.advanceNow s typ h) = still s := by
  unfold State.advanceNow
  repeat' (first | with_reducible rfl | simp only [still_lit, still_mk, ite_self, apply_ite still, implies_true, id_eq, still_setArb] | split)

@[simp] theorem still_countStart (s : State) (typ : Nat) (h : Bytes)  :
    still (State.countStart s typ h) = still s := by
  unfold State.countStart
  repeat' (first | with_reducible rfl | simp only [still_lit, still_mk, ite_self, apply_ite still, implies_true, id_eq] | split)

@[simp] theorem still_showTrial (s : State)  :
    still (State.showTrial s) = still s := by
  unfold State.showTrial
  repeat' (first | with_reducible rfl | simp only [still_lit, still_mk, ite_self, apply_ite still, implies_true, id_eq, still_srb] | split)

@[simp] theorem still_setRunning (s : State) (typ slot version : Nat)  :
    still (State.setRunning s typ slot version) = still s := by
  unfold State.setRunning
  repeat' (first | with_reducible rfl | simp only [still_lit, still_mk, ite_self, apply_ite still, implies_true, id_eq] | split)

@[simp] theorem still_imageActivate (v : Serving) (s : State)  :
    still (imageActivate v s) = still s := by
  unfold imageActivate
  repeat' (first | with_reducible rfl | simp only [still_lit, still_mk, ite_self, apply_ite still, implies_true, id_eq, still_reloadSedge, still_replyCode, still_await, still_guardFlash, still_advanceNow, still_showTrial, still_setRunning] | split)

@[simp] theorem still_swapTimeout (s : State)  :
    still (swapTimeout s) = still s := by
  unfold swapTimeout
  repeat' (first | with_reducible rfl | simp only [still_lit, still_mk, ite_self, apply_ite still, implies_true, id_eq, still_replyCode] | split)

@[simp] theorem still_imageConfirm (v : Serving) (s : State)  :
    still (imageConfirm v s) = still s := by
  unfold imageConfirm
  repeat' (first | with_reducible rfl | simp only [still_lit, still_mk, ite_self, apply_ite still, implies_true, id_eq, still_replyCode, still_setArb, still_showTrial] | split)

/-! ### LifeCycle -/

@[simp] theorem still_deriveClasses (s : State) (r : Bytes)  :
    still (State.deriveClasses s r) = still s := by
  unfold State.deriveClasses
  repeat' (first | with_reducible rfl | simp only [still_lit, still_mk, ite_self, apply_ite still, implies_true, id_eq] | split)

@[simp] theorem still_rederive (s : State)  :
    still (State.rederive s) = still s := by
  unfold State.rederive
  repeat' (first | with_reducible rfl | simp only [still_lit, still_mk, ite_self, apply_ite still, implies_true, id_eq, still_deriveClasses] | split)

@[simp] theorem still_eraseObjects (s : State) (c : Nat)  :
    still (State.eraseObjects s c) = still s := by
  unfold State.eraseObjects
  repeat' (first | with_reducible rfl | simp only [still_lit, still_mk, ite_self, apply_ite still, implies_true, id_eq, still_each, still_removeEntry] | split)

@[simp] theorem still_destroyClass (s : State) (c : Nat)  :
    still (State.destroyClass s c) = still s := by
  unfold State.destroyClass
  repeat' (first | with_reducible rfl | simp only [still_lit, still_mk, ite_self, apply_ite still, implies_true, id_eq, still_eraseObjects] | split)

@[simp] theorem still_advanceEpoch (s : State) (c : Nat)  :
    still (State.advanceEpoch s c) = still s := by
  unfold State.advanceEpoch
  repeat' (first | with_reducible rfl | simp only [still_lit, still_mk, ite_self, apply_ite still, implies_true, id_eq] | split)

@[simp] theorem still_completeTransition (s : State) (a b : Nat)  :
    still (State.completeTransition s a b) = still s := by
  unfold State.completeTransition
  repeat' (first | with_reducible rfl | simp only [still_lit, still_mk, ite_self, apply_ite still, implies_true, id_eq, still_each, still_destroyClass, still_advanceEpoch] | split)

@[simp] theorem still_makeFixed (s : State) (n t : Nat) (use : Byte) (b : Bytes)  :
    still (State.makeFixed s n t use b) = still s := by
  unfold State.makeFixed
  repeat' (first | with_reducible rfl | simp only [still_lit, still_mk, ite_self, apply_ite still, implies_true, id_eq, still_putStatic] | split)

@[simp] theorem still_makeSeeds (s : State) (b : Bytes)  :
    still (State.makeSeeds s b) = still s := by
  unfold State.makeSeeds
  repeat' (first | with_reducible rfl | simp only [still_lit, still_mk, ite_self, apply_ite still, implies_true, id_eq, still_putStatic, still_makeFixed] | split)

@[simp] theorem still_makeIdentity (s : State) (seed : Bytes)  :
    still (State.makeIdentity s seed) = still s := by
  unfold State.makeIdentity
  repeat' (first | with_reducible rfl | simp only [still_lit, still_mk, ite_self, apply_ite still, implies_true, id_eq] | split)

@[simp] theorem still_personalise (s : State) (b : Bytes)  :
    still (State.personalise s b) = still s := by
  unfold State.personalise
  repeat' (first | with_reducible rfl | simp only [still_lit, still_mk, ite_self, apply_ite still, implies_true, id_eq, still_makeFixed, still_makeSeeds, still_makeIdentity] | split)

@[simp] theorem still_dropSessions (s : State)  :
    still (State.dropSessions s) = still s := by
  unfold State.dropSessions
  repeat' (first | with_reducible rfl | simp only [still_lit, still_mk, ite_self, apply_ite still, implies_true, id_eq, still_each, still_modSes, still_closeAll] | split)

@[simp] theorem still_frontEndsOff (s : State)  :
    still (State.frontEndsOff s) = still s := by
  unfold State.frontEndsOff
  repeat' (first | with_reducible rfl | simp only [still_lit, still_mk, ite_self, apply_ite still, implies_true, id_eq, still_lfStop, still_nfcStop, still_uwbOff, still_roundsOff] | split)

@[simp] theorem still_openLevel (s : State) (n : Nat)  :
    still (State.openLevel s n) = still s := by
  unfold State.openLevel
  repeat' (first | with_reducible rfl | simp only [still_lit, still_mk, ite_self, apply_ite still, implies_true, id_eq] | split)

@[simp] theorem still_clearFails (s : State)  :
    still (State.clearFails s) = still s := by
  unfold State.clearFails
  repeat' (first | with_reducible rfl | simp only [still_lit, still_mk, ite_self, apply_ite still, implies_true, id_eq] | split)

@[simp] theorem still_jtagAnswer (s : State) (b : Bytes)  :
    still (State.jtagAnswer s b) = still s := by
  unfold State.jtagAnswer
  repeat' (first | with_reducible rfl | simp only [still_lit, still_mk, ite_self, apply_ite still, implies_true, id_eq] | split)

@[simp] theorem still_jtagWaits (s : State) (h : Bytes)  :
    still (State.jtagWaits s h) = still s := by
  unfold State.jtagWaits
  repeat' (first | with_reducible rfl | simp only [still_lit, still_mk, ite_self, apply_ite still, implies_true, id_eq] | split)

@[simp] theorem still_giveNonce (s : State) (b : Bytes)  :
    still (State.giveNonce s b) = still s := by
  unfold State.giveNonce
  repeat' (first | with_reducible rfl | simp only [still_lit, still_mk, ite_self, apply_ite still, implies_true, id_eq] | split)

@[simp] theorem still_debugChallenge (_v : Serving) (s : State)  :
    still (debugChallenge _v s) = still s := by
  unfold debugChallenge
  repeat' (first | with_reducible rfl | simp only [still_lit, still_mk, ite_self, apply_ite still, implies_true, id_eq, still_reply, still_replyCode, still_peatDraw, still_giveNonce] | split)

@[simp] theorem still_jtagNonce (s : State)  :
    still (State.jtagNonce s) = still s := by
  unfold State.jtagNonce
  repeat' (first | with_reducible rfl | simp only [still_lit, still_mk, ite_self, apply_ite still, implies_true, id_eq, still_drawn, still_draw_next, still_jtagAnswer, still_jtagWaits, still_giveNonce] | split)

@[simp] theorem still_jtagChallenge (s : State)  :
    still (jtagChallenge s) = still s := by
  unfold jtagChallenge
  repeat' (first | with_reducible rfl | simp only [still_lit, still_mk, ite_self, apply_ite still, implies_true, id_eq, still_jtagNonce] | split)

@[simp] theorem still_nonceExpiry (s : State)  :
    still (nonceExpiry s) = still s := by
  unfold nonceExpiry
  repeat' (first | with_reducible rfl | simp only [still_lit, still_mk, ite_self, apply_ite still, implies_true, id_eq] | split)

@[simp] theorem still_pwdFailed (s : State)  :
    still (State.pwdFailed s) = still s := by
  unfold State.pwdFailed
  repeat' (first | with_reducible rfl | simp only [still_lit, still_mk, ite_self, apply_ite still, implies_true, id_eq] | split)

@[simp] theorem still_debugPassword (v : Serving) (s : State)  :
    still (debugPassword v s) = still s := by
  unfold debugPassword
  repeat' (first | with_reducible rfl | simp only [still_lit, still_mk, ite_self, apply_ite still, implies_true, id_eq, still_replyCode, still_openLevel, still_clearFails, still_pwdFailed] | split)

@[simp] theorem still_pwdLockEnd (s : State)  :
    still (pwdLockEnd s) = still s := by
  unfold pwdLockEnd
  repeat' (first | with_reducible rfl | simp only [still_lit, still_mk, ite_self, apply_ite still, implies_true, id_eq] | split)

end Laws
end Sys2Proof
end

