-- ==== Sys2Proof/Laws/StillRest.lean ====
section
/-!
SUPPORT. What leaves the waiting commands and the byte memories alone: power, timers, faults, the bus, the mover and the host port.
-/
namespace Sys2Proof
namespace Laws

open Sys2Proof.Machine

set_option linter.unusedSimpArgs false
set_option linter.unusedVariables false
set_option linter.unusedTactic false
set_option linter.unreachableTactic false

/-! ### Power -/

@[simp] theorem still_modPower (s : State) (f : Power → Power)  :
    still (State.modPower s f) = still s := by
  unfold State.modPower
  repeat' (first | with_reducible rfl | simp only [still_lit, still_mk, ite_self, apply_ite still, implies_true, id_eq] | split)

@[simp] theorem still_relock (s : State)  :
    still (State.relock s) = still s := by
  unfold State.relock
  repeat' (first | with_reducible rfl | simp only [still_lit, still_mk, ite_self, apply_ite still, implies_true, id_eq] | split)

@[simp] theorem still_vbatFalls (s : State)  :
    still (vbatFalls s) = still s := by
  unfold vbatFalls
  repeat' (first | with_reducible rfl | simp only [still_lit, still_mk, ite_self, apply_ite still, implies_true, id_eq, still_srb, still_onlyIf, still_relStop, still_modPower] | split)

@[simp] theorem still_regEnRetry (s : State)  :
    still (regEnRetry s) = still s := by
  unfold regEnRetry
  repeat' (first | with_reducible rfl | simp only [still_lit, still_mk, ite_self, apply_ite still, implies_true, id_eq, still_modPower] | split)

@[simp] theorem still_storeTime (s : State)  :
    still (State.storeTime s) = still s := by
  unfold State.storeTime
  repeat' (first | with_reducible rfl | simp only [still_lit, still_mk, ite_self, apply_ite still, implies_true, id_eq] | split)

@[simp] theorem still_software (s : State)  :
    still (State.software s) = still s := by
  unfold State.software
  repeat' (first | with_reducible rfl | simp only [still_lit, still_mk, ite_self, apply_ite still, implies_true, id_eq, still_srf, still_srb, still_rngPowerUp, still_radioFresh, still_modPower, still_relock, still_storeTime] | split)

@[simp] theorem still_askRecovery (s : State)  :
    still (State.askRecovery s) = still s := by
  unfold State.askRecovery
  repeat' (first | with_reducible rfl | simp only [still_lit, still_mk, ite_self, apply_ite still, implies_true, id_eq, still_askHost, still_modPower] | split)

@[simp] theorem still_safeStart (s : State)  :
    still (State.safeStart s) = still s := by
  unfold State.safeStart
  repeat' (first | with_reducible rfl | simp only [still_lit, still_mk, ite_self, apply_ite still, implies_true, id_eq, still_setReg, still_readyEvent, still_modPower, still_software, still_askRecovery] | split)

@[simp] theorem still_useConfig (s : State) (f : Found)  :
    still (State.useConfig s f) = still s := by
  unfold State.useConfig
  repeat' (first | with_reducible rfl | simp only [still_lit, still_mk, ite_self, apply_ite still, implies_true, id_eq, still_onlyIf, still_active, still_commitDir] | split)

@[simp] theorem still_startComplete (s : State)  :
    still (State.startComplete s) = still s := by
  unfold State.startComplete
  repeat' (first | with_reducible rfl | simp only [still_lit, still_mk, ite_self, apply_ite still, implies_true, id_eq, still_readyEvent, still_modPower] | split)

@[simp] theorem still_nextStart (s : State)  :
    still (State.nextStart s) = still s := by
  unfold State.nextStart
  repeat' (first | with_reducible rfl | simp only [still_lit, still_mk, ite_self, apply_ite still, implies_true, id_eq] | split | refine (still_incCounter (by assumption)).trans ?_)

@[simp] theorem still_straps (s : State) (bootSel : BitVec 2) (head : Bool)  :
    still (State.straps s bootSel head) = still s := by
  unfold State.straps
  repeat' (first | with_reducible rfl | simp only [still_lit, still_mk, ite_self, apply_ite still, implies_true, id_eq, still_modPower] | split)

@[simp] theorem still_recTimeout (s : State)  :
    still (recTimeout s) = still s := by
  unfold recTimeout
  repeat' (first | with_reducible rfl | simp only [still_lit, still_mk, ite_self, apply_ite still, implies_true, id_eq, still_safeStart] | split)

@[simp] theorem still_sedgeWatchdog (s : State)  :
    still (sedgeWatchdog s) = still s := by
  unfold sedgeWatchdog
  repeat' (first | with_reducible rfl | simp only [still_lit, still_mk, ite_self, apply_ite still, implies_true, id_eq, still_srb, still_restartSedge] | split)

@[simp] theorem still_kickWdt (v : Word) (s : State)  :
    still (kickWdt v s) = still s := by
  unfold kickWdt
  repeat' (first | with_reducible rfl | simp only [still_lit, still_mk, ite_self, apply_ite still, implies_true, id_eq, still_modPower] | split)

@[simp] theorem still_monOff (s : State)  :
    still (State.monOff s) = still s := by
  unfold State.monOff
  repeat' (first | with_reducible rfl | simp only [still_lit, still_mk, ite_self, apply_ite still, implies_true, id_eq, still_setReg, still_srf, still_each] | split)

@[simp] theorem still_linksOff (s : State)  :
    still (State.linksOff s) = still s := by
  unfold State.linksOff
  repeat' (first | with_reducible rfl | simp only [still_lit, still_mk, ite_self, apply_ite still, implies_true, id_eq, still_srf, still_onlyIf, still_each, still_setPort] | split)

@[simp] theorem still_finishHost (s : State)  :
    still (State.finishHost s) = still s := by
  unfold State.finishHost
  repeat' (first | with_reducible rfl | simp only [still_lit, still_mk, ite_self, apply_ite still, implies_true, id_eq, still_hcmdDone] | split)

@[simp] theorem still_noLongerIdle (s : State)  :
    still (State.noLongerIdle s) = still s := by
  unfold State.noLongerIdle
  repeat' (first | with_reducible rfl | simp only [still_lit, still_mk, ite_self, apply_ite still, implies_true, id_eq, still_onlyIf, still_notice, still_modPower] | split)

@[simp] theorem still_activityNotice (s : State)  :
    still (activityNotice s) = still s := by
  unfold activityNotice
  repeat' (first | with_reducible rfl | simp only [still_lit, still_mk, ite_self, apply_ite still, implies_true, id_eq, still_restand] | split | refine (still_takeFrame (by assumption)).trans ?_)

@[simp] theorem still_wakeNotice (s : State)  :
    still (wakeNotice s) = still s := by
  unfold wakeNotice
  repeat' (first | with_reducible rfl | simp only [still_lit, still_mk, ite_self, apply_ite still, implies_true, id_eq] | split | refine (still_takeFrame (by assumption)).trans ?_)

@[simp] theorem still_busyNotice (s : State)  :
    still (busyNotice s) = still s := by
  unfold busyNotice
  repeat' (first | with_reducible rfl | simp only [still_lit, still_mk, ite_self, apply_ite still, implies_true, id_eq, still_modPower] | split | refine (still_takeFrame (by assumption)).trans ?_)

@[simp] theorem still_pollLf (s : State) (reply : Option LfReply) (opens shorts : Nat)  :
    still (State.pollLf s reply opens shorts).2 = still s := by
  unfold State.pollLf
  repeat' (first | with_reducible rfl | simp only [still_lit, still_mk, ite_self, apply_ite still, implies_true, id_eq, still_refill, still_spendLf, still_lfFaults, still_answer, still_reply] | split)

@[simp] theorem still_pollNfc (s : State) (ping : Ping) (ext : Bool)  :
    still (State.pollNfc s ping ext).2 = still s := by
  unfold State.pollNfc
  repeat' (first | with_reducible rfl | simp only [still_lit, still_mk, ite_self, apply_ite still, implies_true, id_eq, still_srb, still_onlyIf, still_ping] | split)

/-! ### Timers -/

@[simp] theorem still_seqStatus (s : State) (q : Nat) (c : Byte)  :
    still (State.seqStatus s q c) = still s := by
  unfold State.seqStatus
  repeat' (first | with_reducible rfl | simp only [still_lit, still_mk, ite_self, apply_ite still, implies_true, id_eq, still_srf] | split)

@[simp] theorem still_monStart (s : State)  :
    still (State.monStart s) = still s := by
  unfold State.monStart
  repeat' (first | with_reducible rfl | simp only [still_lit, still_mk, ite_self, apply_ite still, implies_true, id_eq, still_setReg, still_srf, still_srb, still_seqStatus] | split)

@[simp] theorem still_seqTrigger (s : State) (q : Nat)  :
    still (State.seqTrigger s q) = still s := by
  unfold State.seqTrigger
  repeat' (first | with_reducible rfl | simp only [still_lit, still_mk, ite_self, apply_ite still, implies_true, id_eq, still_srb, still_ended, still_seqStatus, still_monStart] | split)

@[simp] theorem still_seqPacket (s : State) (r : MonRun)  :
    still (State.seqPacket s r).2 = still s := by
  unfold State.seqPacket
  repeat' (first | with_reducible rfl | simp only [still_lit, still_mk, ite_self, apply_ite still, implies_true, id_eq, still_srb, still_drop, still_hwGetD] | split | refine (still_hwCommit (by assumption)).trans ?_)

@[simp] theorem still_seqEnd (s : State) (q : Nat) (c : Byte)  :
    still (State.seqEnd s q c) = still s := by
  unfold State.seqEnd
  repeat' (first | with_reducible rfl | simp only [still_lit, still_mk, ite_self, apply_ite still, implies_true, id_eq, still_srb, still_onlyIf, still_ended, still_seqStatus, still_monStart] | split)

@[simp] theorem still_conversionEnd (code : Nat) (s : State)  :
    still (conversionEnd code s) = still s := by
  unfold conversionEnd
  repeat' (first | with_reducible rfl | simp only [still_lit, still_mk, ite_self, apply_ite still, implies_true, id_eq, still_setReg, still_bump, still_freeW, still_onlyIf, still_seqPacket, still_seqEnd] | split)

@[simp] theorem still_monAbort (s : State)  :
    still (monAbort s) = still s := by
  unfold monAbort
  repeat' (first | with_reducible rfl | simp only [still_lit, still_mk, ite_self, apply_ite still, implies_true, id_eq] | split)

@[simp] theorem still_monCtl (v : Word) (s : State)  :
    still (monCtl v s) = still s := by
  unfold monCtl
  repeat' (first | with_reducible rfl | simp only [still_lit, still_mk, ite_self, apply_ite still, implies_true, id_eq, still_onlyIf, still_each, still_seqTrigger, still_monAbort] | split)

@[simp] theorem still_arm (s : State) (n mask : Nat)  :
    still (State.arm s n mask) = still s := by
  unfold State.arm
  repeat' (first | with_reducible rfl | simp only [still_lit, still_mk, ite_self, apply_ite still, implies_true, id_eq, still_srf] | split)

@[simp] theorem still_capture (s : State) (n : Nat)  :
    still (State.capture s n) = still s := by
  unfold State.capture
  repeat' (first | with_reducible rfl | simp only [still_lit, still_mk, ite_self, apply_ite still, implies_true, id_eq, still_setReg, still_srb, still_onlyIf] | split)

@[simp] theorem still_routeActs (s : State) (r : Nat)  :
    still (State.routeActs s r) = still s := by
  unfold State.routeActs
  repeat' (first | with_reducible rfl | simp only [still_lit, still_mk, ite_self, apply_ite still, implies_true, id_eq, still_srb, still_moverGo, still_seqTrigger] | split)

@[simp] theorem still_routeCycle (s : State) (n : Nat)  :
    still (State.routeCycle s n) = still s := by
  unfold State.routeCycle
  repeat' (first | with_reducible rfl | simp only [still_lit, still_mk, ite_self, apply_ite still, implies_true, id_eq] | split)

@[simp] theorem still_routes (n : Nat) (events : List Nat) (l : List Nat) : ∀ s : State,
    still (s.routes n events l) = still s := by
  induction l with
  | nil => intro s; rfl
  | cons r l ih =>
    intro s
    unfold State.routes
    repeat' (first | with_reducible rfl | simp only [ih, still_lit, still_mk, still_srb, still_routeActs] | split)

@[simp] theorem still_tmrEvents (s : State) (n : Nat) (events : List Nat)  :
    still (State.tmrEvents s n events) = still s := by
  unfold State.tmrEvents
  repeat' (first | with_reducible rfl | simp only [still_lit, still_mk, ite_self, apply_ite still, implies_true, id_eq, still_srb, still_raise, still_onlyIf, still_each, still_capture, still_routeCycle, still_routes] | split)

@[simp] theorem still_disarm (s : State) (n : Nat) (l : List Nat)  :
    still (State.disarm s n l) = still s := by
  unfold State.disarm
  repeat' (first | with_reducible rfl | simp only [still_lit, still_mk, ite_self, apply_ite still, implies_true, id_eq, still_srb, still_each] | split)

@[simp] theorem still_tmrAdvance (s : State) (n : Nat)  :
    still (State.tmrAdvance s n) = still s := by
  unfold State.tmrAdvance
  repeat' (first | with_reducible rfl | simp only [still_lit, still_mk, ite_self, apply_ite still, implies_true, id_eq, still_setReg, still_srb, still_onlyIf, still_arm] | split)

@[simp] theorem still_tmrTick (s : State) (n : Nat)  :
    still (State.tmrTick s n) = still s := by
  unfold State.tmrTick
  repeat' (first | with_reducible rfl | simp only [still_lit, still_mk, ite_self, apply_ite still, implies_true, id_eq, still_tmrEvents, still_disarm, still_tmrAdvance] | split)

@[simp] theorem still_timerTick (n : Nat) (s : State)  :
    still (timerTick n s) = still s := by
  unfold timerTick
  repeat' (first | with_reducible rfl | simp only [still_lit, still_mk, ite_self, apply_ite still, implies_true, id_eq, still_tmrTick] | split)

@[simp] theorem still_timerStep (n : Nat) (s : State)  :
    still (timerStep n s) = still s := by
  unfold timerStep
  repeat' (first | with_reducible rfl | simp only [still_lit, still_mk, ite_self, apply_ite still, implies_true, id_eq, still_tmrTick] | split)

@[simp] theorem still_nextTick (n : Nat) (s : State)  :
    still (nextTick n s) = still s := by
  unfold nextTick
  repeat' (first | with_reducible rfl | simp only [still_lit, still_mk, ite_self, apply_ite still, implies_true, id_eq, still_tmrTick, still_timerStep] | split)

@[simp] theorem still_timerWrap (n : Nat) (s : State)  :
    still (timerWrap n s) = still s := by
  unfold timerWrap
  repeat' (first | with_reducible rfl | simp only [still_lit, still_mk, ite_self, apply_ite still, implies_true, id_eq, still_nextTick] | split)

@[simp] theorem still_compareReached (n c : Nat) (s : State)  :
    still (compareReached n c s) = still s := by
  unfold compareReached
  repeat' (first | with_reducible rfl | simp only [still_lit, still_mk, ite_self, apply_ite still, implies_true, id_eq, still_tmrAdvance, still_nextTick] | split)

@[simp] theorem still_gpioEdge (rising : Bool) (s : State)  :
    still (gpioEdge rising s) = still s := by
  unfold gpioEdge
  repeat' (first | with_reducible rfl | simp only [still_lit, still_mk, ite_self, apply_ite still, implies_true, id_eq, still_each, still_capture] | split)

@[simp] theorem still_cmpWrite (n c : Nat) (v : Word) (s : State)  :
    still (cmpWrite n c v s) = still s := by
  unfold cmpWrite
  repeat' (first | with_reducible rfl | simp only [still_lit, still_mk, ite_self, apply_ite still, implies_true, id_eq, still_setReg, still_arm] | split)

/-! ### Faults -/

@[simp] theorem still_alarmDecision (s : State)  :
    still (State.alarmDecision s) = still s := by
  unfold State.alarmDecision
  repeat' (first | with_reducible rfl | simp only [still_lit, still_mk, ite_self, apply_ite still, implies_true, id_eq, still_callOver, still_turnDown] | split)

@[simp] theorem still_alarmFronts (s : State)  :
    still (State.alarmFronts s) = still s := by
  unfold State.alarmFronts
  repeat' (first | with_reducible rfl | simp only [still_lit, still_mk, ite_self, apply_ite still, implies_true, id_eq, still_lfStop, still_nfcStop, still_uwbAlarm, still_slotAlarm] | split)

@[simp] theorem still_noteTrip (s : State) (source : Nat)  :
    still (State.noteTrip s source) = still s := by
  unfold State.noteTrip
  repeat' (first | with_reducible rfl | simp only [still_lit, still_mk, ite_self, apply_ite still, implies_true, id_eq] | split)

theorem still_noteTrips (l : List Nat) : ∀ s : State, still (l.foldl State.noteTrip s) = still s := by
  induction l with
  | nil => intro s; rfl
  | cons n l ih => intro s; exact (ih _).trans (still_noteTrip s n)

@[simp] theorem still_offlineAlarm (sources detail : Nat) (s : State) : still (offlineAlarm sources detail s) = still s := by
  unfold offlineAlarm
  split
  · rfl
  · split
    · rfl
    · simp only [still_lit, still_mk, still_srf, still_bumpSat, still_noteTrips]

@[simp] theorem still_singleBit (mem : Nat) (s : State)  :
    still (singleBit mem s) = still s := by
  unfold singleBit
  repeat' (first | with_reducible rfl | simp only [still_lit, still_mk, ite_self, apply_ite still, implies_true, id_eq, still_bump] | split)

@[simp] theorem still_moverMeets (s : State) (reader : Master) (a : Nat)  :
    still (State.moverMeets s reader a) = still s := by
  unfold State.moverMeets
  repeat' (first | with_reducible rfl | simp only [still_lit, still_mk, ite_self, apply_ite still, implies_true, id_eq, still_each, still_moverEnd] | split)

@[simp] theorem still_loseCommitted (s : State) (n : Nat) (p : Packet)  :
    still (State.loseCommitted s n p) = still s := by
  unfold State.loseCommitted
  repeat' (first | with_reducible rfl | simp only [still_lit, still_mk, ite_self, apply_ite still, implies_true, id_eq, still_srf, still_onlyIf, still_setLane, still_vanish, still_pruneGens] | split)

@[simp] theorem still_itemError (s : State) (n k : Nat) (hardware : Bool)  :
    still (State.itemError s n k hardware) = still s := by
  unfold State.itemError
  repeat' (first | with_reducible rfl | simp only [still_lit, still_mk, ite_self, apply_ite still, implies_true, id_eq, still_setLane, still_vanish, still_loseCommitted] | split)

@[simp] theorem still_slotError (s : State) (n : Nat)  :
    still (State.slotError s n) = still s := by
  unfold State.slotError
  repeat' (first | with_reducible rfl | simp only [still_lit, still_mk, ite_self, apply_ite still, implies_true, id_eq, still_modSes, still_dropKey] | split)

@[simp] theorem still_dumpWords (s : State)  :
    still (State.dumpWords s).2 = still s := by
  unfold State.dumpWords
  repeat' (first | with_reducible rfl | simp only [still_lit, still_mk, ite_self, apply_ite still, implies_true, id_eq, still_freeBytes] | split)

@[simp] theorem still_snapshot (s : State) : still (snapshot s) = still s := by
  have h : ∀ (l : List Nat) (s : State), still (s.each l fun s a => s.setReg a 0) = still s := fun l s =>
    still_each s l _ fun s a => still_setReg s a 0
  have h' : ∀ s : State, still (s.onlyIf (s.rb aPRF_GCTL 16) fun s =>
      State.each { s with prfBefore := (s.now, (s.dumped.flatMap fun b => [0, 1, 2, 3].map fun k => aPRF_CNT b k).map fun a => (a, s.reg a)) }
        (s.dumped.flatMap fun b => [0, 1, 2, 3].map fun k => aPRF_CNT b k) fun s a => s.setReg a 0) = still s := fun s =>
    still_onlyIf s _ _ fun s => by rw [h]; rfl
  unfold snapshot
  split
  · rfl
  · simp only [still_hwGetD]
    split
    · exact (still_bump _ _ _ _ _).trans ((still_hwCommit (by assumption)).trans ((h' _).trans (still_dumpWords s)))
    · exact (still_bump _ _ _ _ _).trans ((still_drop _ _).trans ((h' _).trans (still_dumpWords s)))

@[simp] theorem still_windowStart (s : State) (n : Nat)  :
    still (State.windowStart s n) = still s := by
  unfold State.windowStart
  repeat' (first | with_reducible rfl | simp only [still_lit, still_mk, ite_self, apply_ite still, implies_true, id_eq] | split)

@[simp] theorem still_windowEnd (n : Nat) (s : State)  :
    still (windowEnd n s) = still s := by
  unfold windowEnd
  repeat' (first | with_reducible rfl | simp only [still_lit, still_mk, ite_self, apply_ite still, implies_true, id_eq, still_setReg, still_bump, still_windowStart] | split)

@[simp] theorem still_selWrite (b k : Nat) (v : Word) (s : State)  :
    still (selWrite b k v s) = still s := by
  unfold selWrite
  repeat' (first | with_reducible rfl | simp only [still_lit, still_mk, ite_self, apply_ite still, implies_true, id_eq, still_setReg] | split)

@[simp] theorem still_governorReading (tj : Int) (s : State)  :
    still (governorReading tj s) = still s := by
  unfold governorReading
  repeat' (first | with_reducible rfl | simp only [still_lit, still_mk, ite_self, apply_ite still, implies_true, id_eq, still_srf, still_srb, still_refill, still_internalSlots] | split)

/-! ### Bus -/

@[simp] theorem still_storeReg (a : Nat) (v : Word) (s : State)  :
    still (storeReg a v s) = still s := by
  unfold storeReg
  repeat' (first | with_reducible rfl | simp only [still_lit, still_mk, ite_self, apply_ite still, implies_true, id_eq, still_setReg] | split)

@[simp] theorem still_drvWrite (n : Nat) (v : Word) (s : State)  :
    still (drvWrite n v s) = still s := by
  unfold drvWrite
  repeat' (first | with_reducible rfl | simp only [still_lit, still_mk, ite_self, apply_ite still, implies_true, id_eq, still_srf, still_onlyIf] | split)

@[simp] theorem still_uwbPortWrite (n : Nat) (v : Word) (s : State)  :
    still (uwbPortWrite n v s) = still s := by
  unfold uwbPortWrite
  repeat' (first | with_reducible rfl | simp only [still_lit, still_mk, ite_self, apply_ite still, implies_true, id_eq, still_setTune, still_storeReg] | split)

@[simp] theorem still_mvCtl (n : Nat) (v : Word) (s : State)  :
    still (mvCtl n v s) = still s := by
  unfold mvCtl
  repeat' (first | with_reducible rfl | simp only [still_lit, still_mk, ite_self, apply_ite still, implies_true, id_eq, still_srb, still_onlyIf, still_moverGo, still_moverStop] | split)

@[simp] theorem still_plandWrite (v : Word) (s : State)  :
    still (plandWrite v s) = still s := by
  unfold plandWrite
  repeat' (first | with_reducible rfl | simp only [still_lit, still_mk, ite_self, apply_ite still, implies_true, id_eq, still_setReg, still_onlyIf, still_armLanding] | split)

@[simp] theorem still_attnWrite (v : Word) (s : State)  :
    still (attnWrite v s) = still s := by
  unfold attnWrite
  repeat' (first | with_reducible rfl | simp only [still_lit, still_mk, ite_self, apply_ite still, implies_true, id_eq, still_storeReg] | split)

@[simp] theorem still_pmcfgWrite (n : Nat) (v : Word) (s : State)  :
    still (pmcfgWrite n v s) = still s := by
  unfold pmcfgWrite
  repeat' (first | with_reducible rfl | simp only [still_lit, still_mk, ite_self, apply_ite still, implies_true, id_eq, still_onlyIf, still_windowStart, still_storeReg] | split)

@[simp] theorem still_spoilChannel (old : State) (a : Nat) (s : State) : still (spoilChannel old a s) = still s := by
  unfold spoilChannel
  dsimp only
  rw [still_onlyIf _ _ _ fun s => still_srb s _ _ _]
  split
  · rw [still_storeReg, still_freeW]
  · rfl

@[simp] theorem still_spoilTimer (old : State) (a : Nat) (v : Word) (s : State) : still (spoilTimer old a v s) = still s := by
  unfold spoilTimer
  repeat' (first | with_reducible rfl | simp only [still_lit, still_mk, still_storeReg, still_freeW, still_freeIn, still_freeBytes, still_srb, still_modSes, still_spoilPcmd, still_spoilHost, apply_ite still, ite_self] | split)

@[simp] theorem still_spoilLf (old : State) (a : Nat) (v : Word) (s : State) : still (spoilLf old a v s) = still s := by
  unfold spoilLf
  repeat' (first | with_reducible rfl | simp only [still_lit, still_mk, still_onlyIf, still_freeIn, still_modOp, still_each, implies_true, apply_ite still, ite_self] | split)

@[simp] theorem still_spoilKeyStore (a : Nat) (s : State)  :
    still (spoilKeyStore a s) = still s := by
  unfold spoilKeyStore
  repeat' (first | with_reducible rfl | simp only [still_lit, still_mk, ite_self, apply_ite still, implies_true, id_eq, still_onlyIf, still_kstSpoil] | split)

@[simp] theorem still_spoilPort (old : State) (n : Nat) (v : Word) (s : State) : still (spoilPort old n v s) = still s := by
  unfold spoilPort
  repeat' (first | with_reducible rfl | simp only [still_lit, still_mk, still_onlyIf, still_freeIn, still_modOp, still_each, implies_true, apply_ite still, ite_self] | split)

@[simp] theorem still_spoilLive (old : State)  (s : State) : still (spoilLive old  s) = still s := by
  unfold spoilLive
  repeat' (first | with_reducible rfl | simp only [still_lit, still_mk, still_onlyIf, still_freeIn, still_modOp, still_each, implies_true, apply_ite still, ite_self] | split)

@[simp] theorem still_spoilMover (old : State) (a : Nat) (v : Word) (s : State) : still (spoilMover old a v s) = still s := by
  unfold spoilMover
  repeat' (first | with_reducible rfl | simp only [still_lit, still_mk, still_onlyIf, still_freeIn, still_modOp, still_each, implies_true, apply_ite still, ite_self] | split)

@[simp] theorem still_spoilConverter (old : State) (a : Nat) (s : State) : still (spoilConverter old a s) = still s := by
  unfold spoilConverter
  refine still_each s _ _ fun s q => ?_
  split <;> rfl

@[simp] theorem still_spoilChain (old : State) (a : Nat) (s : State) : still (spoilChain old a s) = still s := by
  unfold spoilChain
  repeat' (first | with_reducible rfl | simp only [still_lit, still_mk, still_storeReg, still_freeW, still_freeIn, still_freeBytes, still_srb, still_modSes, still_spoilPcmd, still_spoilHost, apply_ite still, ite_self] | split)

@[simp] theorem still_spoilOther (old : State) (a : Nat) (v : Word) (s : State) : still (spoilOther old a v s) = still s := by
  unfold spoilOther
  repeat' (first | with_reducible rfl | simp only [still_lit, still_mk, still_storeReg, still_freeW, still_freeIn, still_freeBytes, still_srb, still_modSes, still_spoilPcmd, still_spoilHost, apply_ite still, ite_self] | split)

@[simp] theorem still_spoilTag (old : State) (a : Nat) (s : State) : still (spoilTag old a s) = still s := by
  unfold spoilTag
  split
  · exact still_onlyIf _ _ _ fun s => still_spoilHost s _
  · rfl

@[simp] theorem still_spoil6 (old : State) (a : Nat) (v : Word) (s : State) :
    still (if aUWB_PORT 0 ≤ a ∧ a ≤ aUWB_PORT 3 then spoilPort old ((a - aUWB_PORT 0) / 4) v s
      else if a = aUWB_LIVE ∧ bit v 8 = true then spoilLive old s else spoilOther old a v s) = still s := by
  split
  · exact still_spoilPort old _ v s
  · split
    · exact still_spoilLive old s
    · exact still_spoilOther old a v s

@[simp] theorem still_spoil (old : State) (a : Nat) (v : Word) (s : State) : still (spoil old a v s) = still s := by
  unfold spoil
  generalize (a - 0x40000000) / 0x10000 = b
  split <;> simp only [still_spoil6, still_spoilTag, still_spoilChannel, still_spoilTimer, still_spoilConverter, still_spoilChain,
    still_spoilOther, still_spoilLf, still_spoilMover, still_spoilKeyStore, still_onlyIf, still_nfcSpoil, still_lit, still_mk, implies_true]

@[simp] theorem still_rawRead (m : Master) (s : State)  :
    still (rawRead m s) = still s := by
  unfold rawRead
  repeat' (first | with_reducible rfl | simp only [still_lit, still_mk, ite_self, apply_ite still, implies_true, id_eq, still_freeW, still_answer] | split)

@[simp] theorem still_lowRead (m : Master) (a : Nat) (hi : Nat × Word) (s : State)  :
    still (lowRead m a hi s) = still s := by
  unfold lowRead
  repeat' (first | with_reducible rfl | simp only [still_lit, still_mk, ite_self, apply_ite still, implies_true, id_eq, still_answer, still_setLatch] | split)

@[simp] theorem still_recReadout (m : Master) (a : Nat) (s : State) : still (recReadout m a s) = still s := by
  have h : ∀ c : Bool, still (s.onlyIf c fun _ => s.freeW.2) = still s := by
    intro c; cases c
    · rfl
    · exact still_freeW s
  unfold recReadout
  simp only [still_answer, still_lit, still_mk, h]

@[simp] theorem still_regRead (m : Master) (a : Nat) (s : State)  :
    still (regRead m a s) = still s := by
  unfold regRead
  repeat' (first | with_reducible rfl | simp only [still_lit, still_mk, ite_self, apply_ite still, implies_true, id_eq, still_answer, still_trngOut, still_rawRead, still_lowRead, still_recReadout] | split)

@[simp] theorem still_windowRead (m : Master) (q lane off : Nat) (s : State)  :
    still (windowRead m q lane off s) = still s := by
  unfold windowRead
  repeat' (first | with_reducible rfl | simp only [still_lit, still_mk, ite_self, apply_ite still, implies_true, id_eq, still_answer, still_popFor] | split)

@[simp] theorem still_windowWrite (m : Master) (q lane off : Nat) (v : Word) (s : State)  :
    still (windowWrite m q lane off v s) = still s := by
  unfold windowWrite
  repeat' (first | with_reducible rfl | simp only [still_lit, still_mk, ite_self, apply_ite still, implies_true, id_eq, still_onlyIf, still_rewindOpen, still_drainWaiting, still_pushTag, still_pushData, still_pushEmpty] | split)

@[simp] theorem still_refuseMem (s : State) (m : Master) (write : Bool) (a : Nat)  :
    still (State.refuseMem s m write a) = still s := by
  unfold State.refuseMem
  repeat' (first | with_reducible rfl | simp only [still_lit, still_mk, ite_self, apply_ite still, implies_true, id_eq, still_refuse, still_accessFault, still_answer] | split)

@[simp] theorem still_busRead (m rights : Master) (user : Bool) (a : Nat) (s : State)  :
    still (busRead m rights user a s) = still s := by
  unfold busRead
  repeat' (first | with_reducible rfl | simp only [still_lit, still_mk, ite_self, apply_ite still, implies_true, id_eq, still_freeW, still_access, still_refuseReg, still_answer, still_windowAs, still_regRead, still_windowRead, still_refuseMem] | split)

@[simp] theorem still_rlLowRead (m : Master) (a : Nat) (s : State)  :
    still (rlLowRead m a s) = still s := by
  unfold rlLowRead
  repeat' (first | with_reducible rfl | simp only [still_lit, still_mk, ite_self, apply_ite still, implies_true, id_eq, still_busRead] | split)

/-! ### Mover -/

@[simp] theorem still_mvRefuse (s : State) (write : Bool) (a : Nat)  :
    still (State.mvRefuse s write a) = still s := by
  unfold State.mvRefuse
  repeat' (first | with_reducible rfl | simp only [still_lit, still_mk, ite_self, apply_ite still, implies_true, id_eq, still_refuse, still_evt, still_refuseReg] | split)

@[simp] theorem still_mvAccesses (s : State) (rights : Master) (a kind n : Nat)  :
    still (State.mvAccesses s rights a kind n) = still s := by
  unfold State.mvAccesses
  repeat' (first | with_reducible rfl | simp only [still_lit, still_mk, ite_self, apply_ite still, implies_true, id_eq, still_each, still_access] | split)

@[simp] theorem still_mvItems (s : State) (rights : Master) (n kind count : Nat)  :
    still (State.mvItems s rights n kind count) = still s := by
  unfold State.mvItems
  repeat' (first | with_reducible rfl | simp only [still_lit, still_mk, ite_self, apply_ite still, implies_true, id_eq, still_itemsBy] | split)

@[simp] theorem still_mvLoad (s : State) (rights : Master) (a n : Nat) : still (s.mvLoad rights a n).2 = still s := by
  have h : ∀ (l : List Nat) (x : Bytes × State), still (l.foldl (fun x k =>
      let s := busRead .mover rights false (a + 4 * k) x.2
      ((x.1 ++ toLE 4 (s.lastRead .mover).toNat).take n, s)) x).2 = still x.2 := by
    intro l
    induction l with
    | nil => intro x; rfl
    | cons k l ih => intro x; exact (ih _).trans (still_busRead _ _ _ _ _)
  unfold State.mvLoad
  split
  · exact h _ ([], s)
  · exact still_mvAccesses s rights a 1 _

@[simp] theorem still_mvPush (rights : Master) (n len : Nat) (p : Packet) (took : State → State) (s : State) (htook : ∀ x0, still (took x0) = still x0) :
    still (mvPush rights n len p took s).2 = still s := by
  unfold mvPush
  repeat' (first | with_reducible rfl | simp only [still_lit, still_mk, ite_self, apply_ite still, implies_true, id_eq, still_drop, still_tryCommit, still_pumpQ8, still_mvItems, htook] | split)

@[simp] theorem still_mvM2Q (rights : Master) (d : List Word) (s : State)  :
    still (mvM2Q rights d s).2 = still s := by
  unfold mvM2Q
  repeat' (first | with_reducible rfl | simp only [still_lit, still_mk, ite_self, apply_ite still, implies_true, id_eq, still_drop, still_mvRefuse, still_mvLoad, still_mvPush] | split)

@[simp] theorem still_mvQ2Q (rights : Master) (d : List Word) (s : State)  :
    still (mvQ2Q rights d s).2 = still s := by
  unfold mvQ2Q
  repeat' (first | with_reducible rfl | simp only [still_lit, still_mk, ite_self, apply_ite still, implies_true, id_eq, still_drop, still_takeHead, still_countBroken, still_mvRefuse, still_mvItems, still_mvPush] | split)

@[simp] theorem still_mvNext (s : State) (ch : Nat) (rights : Master) (d : List Word)  :
    still (State.mvNext s ch rights d) = still s := by
  unfold State.mvNext
  repeat' (first | with_reducible rfl | simp only [still_lit, still_mk, ite_self, apply_ite still, implies_true, id_eq, still_moverBegin, still_moverEnd, still_mvRefuse, still_mvLoad] | split)

@[simp] theorem still_mvEnded (s : State) (ch : Nat) (rights : Master) (d : List Word) (e : MvEnd)  :
    still (State.mvEnded s ch rights d e) = still s := by
  unfold State.mvEnded
  repeat' (first | with_reducible rfl | simp only [still_lit, still_mk, ite_self, apply_ite still, implies_true, id_eq, still_setReg, still_moverStat, still_moverEvent, still_moverEnd, still_mvNext] | split)

@[simp] theorem still_mvHeld (s : State) (ch : Nat)  :
    still (State.mvHeld s ch) = still s := by
  unfold State.mvHeld
  repeat' (first | with_reducible rfl | simp only [still_lit, still_mk, ite_self, apply_ite still, implies_true, id_eq, still_mvNext] | split)

@[simp] theorem still_freeLane (s : State) (n : Nat)  :
    still (State.freeLane s n) = still s := by
  unfold State.freeLane
  repeat' (first | with_reducible rfl | simp only [still_lit, still_mk, ite_self, apply_ite still, implies_true, id_eq, still_freeBytes, still_setLane] | split)

/-! ### Host -/

@[simp] theorem still_sends (s : State) (b : Bytes)  :
    still (State.sends s b) = still s := by
  unfold State.sends
  repeat' (first | with_reducible rfl | simp only [still_lit, still_mk, ite_self, apply_ite still, implies_true, id_eq] | split)

@[simp] theorem still_refuseTxn (s : State) (code : Byte) (lo : Nat)  :
    still (State.refuseTxn s code lo) = still s := by
  unfold State.refuseTxn
  repeat' (first | with_reducible rfl | simp only [still_lit, still_mk, ite_self, apply_ite still, implies_true, id_eq, still_srf, still_srb, still_bump, still_ended] | split)

@[simp] theorem still_refuseWord (s : State) (sp write : Bool) (a : Nat)  :
    still (State.refuseWord s sp write a) = still s := by
  unfold State.refuseWord
  repeat' (first | with_reducible rfl | simp only [still_lit, still_mk, ite_self, apply_ite still, implies_true, id_eq, still_srb, still_refuse, still_answer] | split)

@[simp] theorem still_spoilBlock (s : State) (b : Nat)  :
    still (State.spoilBlock s b) = still s := by
  unfold State.spoilBlock
  repeat' (first | with_reducible rfl | simp only [still_lit, still_mk, ite_self, apply_ite still, implies_true, id_eq, still_each, still_freeIn] | split)

@[simp] theorem still_hostReadWord (sp : Bool) (a : Nat) (s : State)  :
    still (hostReadWord sp a s) = still s := by
  unfold hostReadWord
  repeat' (first | with_reducible rfl | simp only [still_lit, still_mk, ite_self, apply_ite still, implies_true, id_eq, still_freeW, still_onlyIf, still_answer, still_busRead, still_refuseWord, still_spoilBlock] | split)

@[simp] theorem still_readWords (sp : Bool) (walk a n : Nat) (s : State) : still (readWords sp walk a n s).2 = still s := by
  have h : ∀ (l : List Nat) (x : Bytes × State), still (l.foldl (fun x k =>
      let s := hostReadWord sp (hAddr walk a k) x.2
      (x.1 ++ toLE 4 (s.lastRead .host).toNat, s)) x).2 = still x.2 := by
    intro l
    induction l with
    | nil => intro x; rfl
    | cons k l ih => intro x; exact (ih _).trans (still_hostReadWord _ _ _)
  exact h _ ([], s)

/-! ### Tick -/

@[simp] theorem still_countCycles (s : State)  :
    still (State.countCycles s) = still s := by
  unfold State.countCycles
  repeat' (first | with_reducible rfl | simp only [still_lit, still_mk, ite_self, apply_ite still, implies_true, id_eq, still_onlyIf, still_each, still_evt] | split)

@[simp] theorem still_tick (s : State)  :
    still (tick s) = still s := by
  unfold tick
  repeat' (first | with_reducible rfl | simp only [still_lit, still_mk, ite_self, apply_ite still, implies_true, id_eq, still_startComplete, still_noLongerIdle, still_countCycles] | split)

end Laws
end Sys2Proof
end

