-- ==== Sys2Proof/Laws/Kept.lean ====
section
/-!
SUPPORT. What writes the byte memories keeps their canonical form and the waiting commands.
-/
namespace Sys2Proof
namespace Laws

open Sys2Proof.Machine

set_option linter.unusedSimpArgs false
set_option linter.unusedVariables false
set_option linter.unusedTactic false
set_option linter.unreachableTactic false

/-- What every command keeps: the rest of the queue, and the canonical form of the two byte memories. -/
def Kept (pq : List Instr) (v : List Instr × List Host.Cell × List Host.Cell) : Prop :=
  v.1 = pq ∧ cellWf v.2.1 memDefault = true ∧ cellWf v.2.2 flashDefault = true

theorem Kept.congr {pq : List Instr} {v w : List Instr × List Host.Cell × List Host.Cell} (e : v = w)
    (h : Kept pq w) : Kept pq v := e ▸ h

theorem kept_onlyIf {pq : List Instr} (s : State) (c : Bool) (f : State → State)
    (hf : ∀ s, Kept pq (still s) → Kept pq (still (f s))) (hk : Kept pq (still s)) :
    Kept pq (still (s.onlyIf c f)) := by
  cases c
  · exact hk
  · exact hf s hk

theorem kept_ite {pq : List Instr} (c : Prop) [Decidable c] (a b : State) (ha : Kept pq (still a))
    (hb : Kept pq (still b)) : Kept pq (still (if c then a else b)) := by
  split
  · exact ha
  · exact hb

theorem kept_writeAs {pq : List Instr} (s : State) (m r : Master) (u : Bool) (a : Nat) (f : State → State)
    (hf : ∀ s, Kept pq (still s) → Kept pq (still (f s))) (hk : Kept pq (still s)) :
    Kept pq (still (s.writeAs m r u a f)) := by
  unfold State.writeAs
  split
  · exact hf _ (Kept.congr (still_access s m r u a 2) hk)
  · exact hk
  · exact Kept.congr (still_refuseReg s m true a) hk

theorem kept_owned {pq : List Instr} (s : State) (m : Master) (a : Nat) (f : State → State)
    (hf : ∀ s, Kept pq (still s) → Kept pq (still (f s))) (hk : Kept pq (still s)) :
    Kept pq (still (s.owned m a f)) := by
  unfold State.owned
  split
  · exact kept_writeAs s m _ _ a f hf hk
  · exact hk

theorem kept_mailOp {pq : List Instr} (op : Nat) (mine : List Word → Bool) (f : Serving → State → State)
    (hf : ∀ v s, Kept pq (still s) → Kept pq (still (f v s))) (s : State) (hk : Kept pq (still s)) :
    Kept pq (still (mailOp op mine f s)) := by
  unfold mailOp
  repeat' (first | with_reducible assumption |
    simp only [still_lit, still_mk, hk, still_pruneGens, still_takeHead, still_holdArgs, still_countBroken, still_answerMail] | split | with_reducible apply hf |
    dsimp only)

theorem kept_each {pq : List Instr} {α : Type} (f : State → α → State)
    (hf : ∀ s x, Kept pq (still s) → Kept pq (still (f s x))) (l : List α) :
    ∀ s : State, Kept pq (still s) → Kept pq (still (s.each l f)) := by
  induction l with
  | nil => intro s hk; exact hk
  | cons x l ih => intro s hk; exact ih (f s x) (hf s x hk)

/-! ### Ops -/

theorem kept_memWrite {pq : List Instr} (s : State) (a : Nat) (b : Bytes) (hk : Kept pq (still s)) :
    Kept pq (still (s.memWrite a b)) := ⟨hk.1, cellWf_cellWrite b a hk.2.1, hk.2.2⟩

theorem kept_flashWrite {pq : List Instr} (s : State) (a : Nat) (b : Bytes) (hk : Kept pq (still s)) :
    Kept pq (still (s.flashWrite a b)) := ⟨hk.1, hk.2.1, cellWf_cellWrite b a hk.2.2⟩

/-! ### Sched -/

theorem kept_deliver {pq : List Instr} {s t : State} {r : Run} {c : Byte} {n : Nat}
    (ho : s.deliver r = some (c, n, t)) (hk : Kept pq (still s)) : Kept pq (still t) := by
  unfold State.deliver at ho
  split at ho
  · cases ho; exact hk
  · cases ho; exact hk
  · dsimp only at ho
    split at ho
    · obtain ⟨u, hu, he⟩ := Option.map_eq_some_iff.1 ho
      cases he
      exact Kept.congr (still_hwCommit hu) hk
    · cases ho; exact Kept.congr (still_drop _ _) hk
  · cases ho; exact Kept.congr (still_keyWrite _ _ _ _ _) hk
  · cases ho; exact Kept.congr (still_keyWrite _ _ _ _ _) hk
  · cases ho; simp only [still_modSes, still_keyWrite]; exact hk
  · cases ho; exact kept_memWrite _ _ _ hk

/-! ### AesEngine -/

theorem kept_aesFinish {pq : List Instr} (s : State) (mismatch : Bool)  (hk : Kept pq (still s)) :
    Kept pq (still (aesFinish s mismatch)) := by
  unfold aesFinish
  repeat' (first | with_reducible assumption | simp only [still_lit, still_mk, hk, implies_true, forall_const, id_eq, still_bumpSat, still_completeJob, still_release, still_dropAes, still_rewindOut, still_endAes, still_aesFloor] | split | with_reducible refine kept_deliver (by assumption) ?_ | with_reducible apply kept_onlyIf | with_reducible apply kept_each | with_reducible apply kept_ite | with_reducible apply kept_writeAs | (intro _ _ _) | (intro _ _))

/-! ### BnOps -/

theorem kept_omWrite {pq : List Instr} (s : State) (w : Nat) (b : Bytes)  (hk : Kept pq (still s)) :
    Kept pq (still (State.omWrite s w b)) := by
  unfold State.omWrite
  repeat' (first | with_reducible assumption | simp only [still_lit, still_mk, hk, implies_true, forall_const, id_eq, kept_memWrite] | split | with_reducible apply kept_onlyIf | with_reducible apply kept_each | with_reducible apply kept_ite | with_reducible apply kept_writeAs | with_reducible apply kept_memWrite | (intro _ _ _) | (intro _ _))

theorem kept_clearSlots {pq : List Instr} (s : State)  (hk : Kept pq (still s)) :
    Kept pq (still (State.clearSlots s)) := by
  unfold State.clearSlots
  repeat' (first | with_reducible assumption | simp only [still_lit, still_mk, hk, implies_true, forall_const, id_eq, kept_omWrite] | split | with_reducible apply kept_onlyIf | with_reducible apply kept_each | with_reducible apply kept_ite | with_reducible apply kept_writeAs | with_reducible apply kept_omWrite | (intro _ _ _) | (intro _ _))

theorem kept_peatJob {pq : List Instr} (s : State) (ch : Nat) (j : PeatJob)  (hk : Kept pq (still s)) :
    Kept pq (still (State.peatJob s ch j).2) := by
  unfold State.peatJob
  repeat' (first | with_reducible assumption | simp only [still_lit, still_mk, hk, implies_true, forall_const, id_eq, still_srf, still_bump, still_onlyIf, still_evt, still_setLane, still_drop, still_pushErr, still_countJob, kept_clearSlots] | split | with_reducible apply kept_onlyIf | with_reducible apply kept_each | with_reducible apply kept_ite | with_reducible apply kept_writeAs | with_reducible apply kept_clearSlots | (intro _ _ _) | (intro _ _))

theorem kept_peatJobs {pq : List Instr} (ch : Nat) (l : List PeatJob) : ∀ s : State, Kept pq (still s) →
    Kept pq (still (s.peatJobs ch l).2) := by
  induction l with
  | nil => intro s hk; exact hk
  | cons j l ih =>
    intro s hk
    unfold State.peatJobs
    have h := kept_peatJob s ch j hk
    split
    next c t e =>
      rw [e] at h
      split
      · exact h
      · exact ih t h

theorem kept_withJobs {pq : List Instr} (s : State) (ch : Nat) (l : List PeatJob) (fail : Byte → State → State) (go : State → State)
    (hf : ∀ c s, Kept pq (still s) → Kept pq (still (fail c s))) (hg : ∀ s, Kept pq (still s) → Kept pq (still (go s)))
    (hk : Kept pq (still s)) : Kept pq (still (s.withJobs ch l fail go)) := by
  have h := kept_peatJobs ch l s hk
  unfold State.withJobs
  split
  next c t e =>
    rw [e] at h
    split
    · exact hf c t h
    · exact hg t h

theorem kept_withJobs_snd {pq : List Instr} {β : Type} (s : State) (ch : Nat) (l : List PeatJob) (fail : Byte → State → β × State)
    (go : State → β × State) (hf : ∀ c s, Kept pq (still s) → Kept pq (still (fail c s).2))
    (hg : ∀ s, Kept pq (still s) → Kept pq (still (go s).2)) (hk : Kept pq (still s)) :
    Kept pq (still (s.withJobs ch l fail go).2) := by
  have h := kept_peatJobs ch l s hk
  unfold State.withJobs
  split
  next c t e =>
    rw [e] at h
    split
    · exact hf c t h
    · exact hg t h

theorem kept_draw_next {pq : List Instr} (s : State) (w : Drawer) (n : Nat) (wait : State → State) (fail : Byte → State → State)
    (go : Bytes → State → State) (hw : ∀ s, Kept pq (still s) → Kept pq (still (wait s)))
    (hf : ∀ c s, Kept pq (still s) → Kept pq (still (fail c s))) (hg : ∀ b s, Kept pq (still s) → Kept pq (still (go b s)))
    (hk : Kept pq (still s)) : Kept pq (still ((s.draw w n).next wait fail go)) := by
  have h := still_drawn s w n
  unfold Drawn.next
  cases hd : s.draw w n with
  | wait t => rw [hd] at h; exact hw t (Kept.congr h hk)
  | failed c t => rw [hd] at h; exact hf c t (Kept.congr h hk)
  | got b t => rw [hd] at h; exact hg b t (Kept.congr h hk)

/-! ### BnEngine -/

theorem kept_bnFree {pq : List Instr} (s : State) (l : List (Nat × Nat))  (hk : Kept pq (still s)) :
    Kept pq (still (State.bnFree s l)) := by
  unfold State.bnFree
  repeat' (first | with_reducible assumption | simp only [still_lit, still_mk, hk, implies_true, forall_const, id_eq, still_freeBytes, still_each, kept_omWrite] | split | with_reducible apply kept_onlyIf | with_reducible apply kept_each | with_reducible apply kept_ite | with_reducible apply kept_writeAs | with_reducible apply kept_omWrite | (intro _ _ _) | (intro _ _))

theorem kept_bnZero {pq : List Instr} (s : State) (l : List (Nat × Nat))  (hk : Kept pq (still s)) :
    Kept pq (still (State.bnZero s l)) := by
  unfold State.bnZero
  repeat' (first | with_reducible assumption | simp only [still_lit, still_mk, hk, implies_true, forall_const, id_eq, still_each, kept_omWrite] | split | with_reducible apply kept_onlyIf | with_reducible apply kept_each | with_reducible apply kept_ite | with_reducible apply kept_writeAs | with_reducible apply kept_omWrite | (intro _ _ _) | (intro _ _))

theorem kept_bnPastFree {pq : List Instr} (s : State) (d : List Word) (b : BnSpec)  (hk : Kept pq (still s)) :
    Kept pq (still (State.bnPastFree s d b)) := by
  unfold State.bnPastFree
  repeat' (first | with_reducible assumption | simp only [still_lit, still_mk, hk, implies_true, forall_const, id_eq, still_onlyIf, kept_bnFree] | split | with_reducible apply kept_onlyIf | with_reducible apply kept_each | with_reducible apply kept_ite | with_reducible apply kept_writeAs | with_reducible apply kept_bnFree | (intro _ _ _) | (intro _ _))

theorem kept_bnLaunch {pq : List Instr} (s : State) (p : Packet) (d : List Word) (b : BnSpec)  (hk : Kept pq (still s)) :
    Kept pq (still (State.bnLaunch s p d b)) := by
  unfold State.bnLaunch
  repeat' (first | with_reducible assumption | simp only [still_lit, still_mk, hk, implies_true, forall_const, id_eq, still_onlyIf, still_useSes, still_takeJob, kept_bnFree, kept_bnPastFree] | split | with_reducible apply kept_onlyIf | with_reducible apply kept_each | with_reducible apply kept_ite | with_reducible apply kept_writeAs | with_reducible apply kept_bnFree | with_reducible apply kept_bnPastFree | (intro _ _ _) | (intro _ _))

theorem kept_bnBegin {pq : List Instr} (s : State) (p : Packet)  (hk : Kept pq (still s)) :
    Kept pq (still (bnBegin s p)) := by
  unfold bnBegin
  repeat' (first | with_reducible assumption | simp only [still_lit, still_mk, hk, implies_true, forall_const, id_eq, still_countBroken, still_jobView, still_refuseJob, still_bnShow, kept_bnLaunch] | split | with_reducible apply kept_onlyIf | with_reducible apply kept_each | with_reducible apply kept_ite | with_reducible apply kept_writeAs | with_reducible apply kept_bnLaunch | (intro _ _ _) | (intro _ _))

theorem kept_bnStart {pq : List Instr} (k : Nat) (s : State)  (hk : Kept pq (still s)) :
    Kept pq (still (bnStart k s)) := by
  unfold bnStart
  repeat' (first | with_reducible assumption | simp only [still_lit, still_mk, hk, implies_true, forall_const, id_eq, kept_bnBegin] | split | with_reducible apply kept_onlyIf | with_reducible apply kept_each | with_reducible apply kept_ite | with_reducible apply kept_writeAs | with_reducible apply kept_bnBegin | (intro _ _ _) | (intro _ _))

theorem kept_bnFail {pq : List Instr} (s : State) (r : Run) (status : Byte)  (hk : Kept pq (still s)) :
    Kept pq (still (State.bnFail s r status)) := by
  unfold State.bnFail
  repeat' (first | with_reducible assumption | simp only [still_lit, still_mk, hk, implies_true, forall_const, id_eq, still_freeW, still_onlyIf, still_completeJob, still_alarmSession, still_bnShow, kept_bnZero] | split | with_reducible apply kept_onlyIf | with_reducible apply kept_each | with_reducible apply kept_ite | with_reducible apply kept_writeAs | with_reducible apply kept_bnZero | (intro _ _ _) | (intro _ _))

theorem kept_endBn {pq : List Instr} (s : State) (status : Byte)  (hk : Kept pq (still s)) :
    Kept pq (still (State.endBn s status)) := by
  unfold State.endBn
  repeat' (first | with_reducible assumption | simp only [still_lit, still_mk, hk, implies_true, forall_const, id_eq, still_bnResume, kept_bnFail] | split | with_reducible apply kept_onlyIf | with_reducible apply kept_each | with_reducible apply kept_ite | with_reducible apply kept_writeAs | with_reducible apply kept_bnFail | (intro _ _ _) | (intro _ _))

theorem kept_endBnSusp {pq : List Instr} (s : State) (status : Byte)  (hk : Kept pq (still s)) :
    Kept pq (still (State.endBnSusp s status)) := by
  unfold State.endBnSusp
  repeat' (first | with_reducible assumption | simp only [still_lit, still_mk, hk, implies_true, forall_const, id_eq, kept_bnFail] | split | with_reducible apply kept_onlyIf | with_reducible apply kept_each | with_reducible apply kept_ite | with_reducible apply kept_writeAs | with_reducible apply kept_bnFail | (intro _ _ _) | (intro _ _))

theorem kept_bnFinish {pq : List Instr} (s : State) (mismatch : Bool)  (hk : Kept pq (still s)) :
    Kept pq (still (bnFinish s mismatch)) := by
  unfold bnFinish
  repeat' (first | with_reducible assumption | simp only [still_lit, still_mk, hk, implies_true, forall_const, id_eq, still_bumpSat, still_each, still_completeJob, still_bnShow, still_bnResume, kept_omWrite, kept_endBn] | split | with_reducible apply kept_onlyIf | with_reducible apply kept_each | with_reducible apply kept_ite | with_reducible apply kept_writeAs | with_reducible apply kept_omWrite | with_reducible apply kept_endBn | (intro _ _ _) | (intro _ _))

theorem kept_bnYield {pq : List Instr} (s : State)  (hk : Kept pq (still s)) :
    Kept pq (still (bnYield s)) := by
  unfold bnYield
  repeat' (first | with_reducible assumption | simp only [still_lit, still_mk, hk, implies_true, forall_const, id_eq, still_bump, still_onlyIf, still_evt, still_bnResume, kept_bnBegin] | split | with_reducible apply kept_onlyIf | with_reducible apply kept_each | with_reducible apply kept_ite | with_reducible apply kept_writeAs | with_reducible apply kept_bnBegin | (intro _ _ _) | (intro _ _))

/-! ### HashEngine -/

theorem kept_hFree {pq : List Instr} (s : State) (w : Nat)  (hk : Kept pq (still s)) :
    Kept pq (still (State.hFree s w)) := by
  unfold State.hFree
  repeat' (first | with_reducible assumption | simp only [still_lit, still_mk, hk, implies_true, forall_const, id_eq, kept_bnFree] | split | with_reducible apply kept_onlyIf | with_reducible apply kept_each | with_reducible apply kept_ite | with_reducible apply kept_writeAs | with_reducible apply kept_bnFree | (intro _ _ _) | (intro _ _))

theorem kept_hSpoil {pq : List Instr} (s : State) (area : Nat × Nat)  (hk : Kept pq (still s)) :
    Kept pq (still (State.hSpoil s area)) := by
  unfold State.hSpoil
  repeat' (first | with_reducible assumption | simp only [still_lit, still_mk, hk, implies_true, forall_const, id_eq, still_hFreeOut, kept_bnFree] | split | with_reducible apply kept_onlyIf | with_reducible apply kept_each | with_reducible apply kept_ite | with_reducible apply kept_writeAs | with_reducible apply kept_bnFree | (intro _ _ _) | (intro _ _))

theorem kept_omTouch {pq : List Instr} (s : State) (a n : Nat) (hk : Kept pq (still s)) :
    Kept pq (still (s.omTouch a n)) := by
  unfold State.omTouch
  split
  · refine kept_hSpoil _ _ (kept_bnFree _ _ ?_)
    simp only [still_lit, still_mk, still_bnSpoil, hk]
  · exact hk

theorem kept_hBegin {pq : List Instr} (s : State) (p : Packet)  (hk : Kept pq (still s)) :
    Kept pq (still (hBegin s p)) := by
  unfold hBegin
  repeat' (first | with_reducible assumption | simp only [still_lit, still_mk, hk, implies_true, forall_const, id_eq, still_onlyIf, still_each, still_countBroken, still_jobView, still_useSes, still_refuseTaken, still_refuseJob, still_takeJobData, still_countSource, still_hRun, still_hFreeOut, kept_hFree] | split | with_reducible apply kept_onlyIf | with_reducible apply kept_each | with_reducible apply kept_ite | with_reducible apply kept_writeAs | with_reducible apply kept_hFree | (intro _ _ _) | (intro _ _))

theorem kept_hStart {pq : List Instr} (f x : Nat) (s : State)  (hk : Kept pq (still s)) :
    Kept pq (still (hStart f x s)) := by
  unfold hStart
  repeat' (first | with_reducible assumption | simp only [still_lit, still_mk, hk, implies_true, forall_const, id_eq, kept_hBegin] | split | with_reducible apply kept_onlyIf | with_reducible apply kept_each | with_reducible apply kept_ite | with_reducible apply kept_writeAs | with_reducible apply kept_hBegin | (intro _ _ _) | (intro _ _))

theorem kept_hFinish {pq : List Instr} (s : State) (mismatch : Bool)  (hk : Kept pq (still s)) :
    Kept pq (still (hFinish s mismatch)) := by
  unfold hFinish
  repeat' (first | with_reducible assumption | simp only [still_lit, still_mk, hk, implies_true, forall_const, id_eq, still_bumpSat, still_hSeed, still_hComplete, still_hSkip, still_endHsh, still_hCommit, kept_omTouch] | split | with_reducible refine kept_deliver (by assumption) ?_ | with_reducible apply kept_onlyIf | with_reducible apply kept_each | with_reducible apply kept_ite | with_reducible apply kept_writeAs | with_reducible apply kept_omTouch | (intro _ _ _) | (intro _ _))

/-! ### KeyStore -/

theorem kept_kstGoesOn {pq : List Instr} (s : State)  (hk : Kept pq (still s)) :
    Kept pq (still (State.kstGoesOn s)) := by
  unfold State.kstGoesOn
  repeat' (first | with_reducible assumption | simp only [still_lit, still_mk, hk, implies_true, forall_const, id_eq, still_drawn, still_draw_next, still_kstPut, still_kstDone, kept_withJobs, kept_withJobs_snd, kept_draw_next] | split | with_reducible apply kept_onlyIf | with_reducible apply kept_each | with_reducible apply kept_ite | with_reducible apply kept_writeAs | with_reducible apply kept_withJobs | with_reducible apply kept_withJobs_snd | with_reducible apply kept_draw_next | (intro _ _ _) | (intro _ _))

theorem kept_kstGenerate {pq : List Instr} (s : State) (a0 a1 : Word)  (hk : Kept pq (still s)) :
    Kept pq (still (kstGenerate s a0 a1)) := by
  unfold kstGenerate
  repeat' (first | with_reducible assumption | simp only [still_lit, still_mk, hk, implies_true, forall_const, id_eq, still_srb, still_setKst, still_kstEnd, kept_kstGoesOn] | split | with_reducible apply kept_onlyIf | with_reducible apply kept_each | with_reducible apply kept_ite | with_reducible apply kept_writeAs | with_reducible apply kept_kstGoesOn | (intro _ _ _) | (intro _ _))

theorem kept_kstUnwrap {pq : List Instr} (s : State) (a0 a1 a2 a3 : Word)  (hk : Kept pq (still s)) :
    Kept pq (still (kstUnwrap s a0 a1 a2 a3).2) := by
  unfold kstUnwrap
  repeat' (first | with_reducible assumption | simp only [still_lit, still_mk, hk, implies_true, forall_const, id_eq, still_kstPut, still_peatMem, kept_withJobs, kept_withJobs_snd] | split | with_reducible apply kept_onlyIf | with_reducible apply kept_each | with_reducible apply kept_ite | with_reducible apply kept_writeAs | with_reducible apply kept_withJobs | with_reducible apply kept_withJobs_snd | (intro _ _ _) | (intro _ _))

theorem kept_kstDerive {pq : List Instr} (s : State) (a0 a1 a2 a3 : Word)  (hk : Kept pq (still s)) :
    Kept pq (still (kstDerive s a0 a1 a2 a3).2) := by
  unfold kstDerive
  repeat' (first | with_reducible assumption | simp only [still_lit, still_mk, hk, implies_true, forall_const, id_eq, still_kstPut, still_peatMem, kept_withJobs, kept_withJobs_snd] | split | with_reducible apply kept_onlyIf | with_reducible apply kept_each | with_reducible apply kept_ite | with_reducible apply kept_writeAs | with_reducible apply kept_withJobs | with_reducible apply kept_withJobs_snd | (intro _ _ _) | (intro _ _))

theorem kept_kstRun {pq : List Instr} (s : State) (op : Nat) (r : Bytes)  (hk : Kept pq (still s)) :
    Kept pq (still (kstRun s op r).2) := by
  unfold kstRun
  repeat' (first | with_reducible assumption | simp only [still_lit, still_mk, hk, implies_true, forall_const, id_eq, still_kstCopy, still_kstLoadEntry, still_kstStoreEntry, still_kstErase, still_kstInc, still_kstSet, still_kstRootEnrol, still_kstEpoch, kept_kstUnwrap, kept_kstDerive] | split | with_reducible apply kept_onlyIf | with_reducible apply kept_each | with_reducible apply kept_ite | with_reducible apply kept_writeAs | with_reducible apply kept_kstUnwrap | with_reducible apply kept_kstDerive | (intro _ _ _) | (intro _ _))

theorem kept_kstGo {pq : List Instr} (op : Nat) (r : Bytes) (s : State)  (hk : Kept pq (still s)) :
    Kept pq (still (kstGo op r s)) := by
  unfold kstGo
  repeat' (first | with_reducible assumption | simp only [still_lit, still_mk, hk, implies_true, forall_const, id_eq, still_setReg, still_srf, still_kstEnd, still_kstSpoil, kept_kstGenerate, kept_kstRun] | split | with_reducible apply kept_onlyIf | with_reducible apply kept_each | with_reducible apply kept_ite | with_reducible apply kept_writeAs | with_reducible apply kept_kstGenerate | with_reducible apply kept_kstRun | (intro _ _ _) | (intro _ _))

/-! ### Sections -/

theorem kept_applyEngine {pq : List Instr} (s : State) (p : Bytes) (hk : Kept pq (still s)) :
    Kept pq (still (s.applyEngine p)) := by
  unfold State.applyEngine
  exact ⟨hk.1, cellWf_filter _ hk.2.1, hk.2.2⟩

theorem kept_applyPolicy {pq : List Instr} (s : State) (b : Bytes)  (hk : Kept pq (still s)) :
    Kept pq (still (State.applyPolicy s b)) := by
  unfold State.applyPolicy
  repeat' (first | with_reducible assumption | simp only [still_lit, still_mk, hk, implies_true, forall_const, id_eq, still_setReg, kept_applyEngine] | split | with_reducible apply kept_onlyIf | with_reducible apply kept_each | with_reducible apply kept_ite | with_reducible apply kept_writeAs | with_reducible apply kept_applyEngine | (intro _ _ _) | (intro _ _))

theorem kept_applyApplet {pq : List Instr} (s : State) (n : Nat) (b : Bytes)  (hk : Kept pq (still s)) :
    Kept pq (still (State.applyApplet s n b)) := by
  unfold State.applyApplet
  repeat' (first | with_reducible assumption | simp only [still_lit, still_mk, hk, implies_true, forall_const, id_eq, still_setCounter, kept_memWrite] | split | with_reducible apply kept_onlyIf | with_reducible apply kept_each | with_reducible apply kept_ite | with_reducible apply kept_writeAs | with_reducible apply kept_memWrite | (intro _ _ _) | (intro _ _))

theorem kept_applySection {pq : List Instr} (s : State) (typ inst : Nat) (b : Bytes)  (hk : Kept pq (still s)) :
    Kept pq (still (State.applySection s typ inst b)) := by
  unfold State.applySection
  repeat' (first | with_reducible assumption | simp only [still_lit, still_mk, hk, implies_true, forall_const, id_eq, still_applyPower, still_applyLf, still_applyNfc, still_applyUwb, still_applyQueues, kept_applyPolicy, kept_applyApplet] | split | with_reducible apply kept_onlyIf | with_reducible apply kept_each | with_reducible apply kept_ite | with_reducible apply kept_writeAs | with_reducible apply kept_applyPolicy | with_reducible apply kept_applyApplet | (intro _ _ _) | (intro _ _))

theorem kept_reloadSection {pq : List Instr} (s : State) (typ inst : Nat) (b : Bytes)  (hk : Kept pq (still s)) :
    Kept pq (still (State.reloadSection s typ inst b)) := by
  unfold State.reloadSection
  repeat' (first | with_reducible assumption | simp only [still_lit, still_mk, hk, implies_true, forall_const, id_eq, still_setReg, kept_applyPolicy, kept_applySection] | split | with_reducible apply kept_onlyIf | with_reducible apply kept_each | with_reducible apply kept_ite | with_reducible apply kept_writeAs | with_reducible apply kept_applyPolicy | with_reducible apply kept_applySection | (intro _ _ _) | (intro _ _))

theorem kept_reloadLost {pq : List Instr} (s : State)  (hk : Kept pq (still s)) :
    Kept pq (still (State.reloadLost s)) := by
  unfold State.reloadLost
  repeat' (first | with_reducible assumption | simp only [still_lit, still_mk, hk, implies_true, forall_const, id_eq, still_each, kept_reloadSection] | split | with_reducible apply kept_onlyIf | with_reducible apply kept_each | with_reducible apply kept_ite | with_reducible apply kept_writeAs | with_reducible apply kept_reloadSection | (intro _ _ _) | (intro _ _))

theorem kept_applyAll {pq : List Instr} (s : State)  (hk : Kept pq (still s)) :
    Kept pq (still (State.applyAll s)) := by
  unfold State.applyAll
  repeat' (first | with_reducible assumption | simp only [still_lit, still_mk, hk, implies_true, forall_const, id_eq, still_each, kept_applySection] | split | with_reducible apply kept_onlyIf | with_reducible apply kept_each | with_reducible apply kept_ite | with_reducible apply kept_writeAs | with_reducible apply kept_applySection | (intro _ _ _) | (intro _ _))

/-! ### Wake -/

theorem kept_resume {pq : List Instr} (s : State) (cause : Nat)  (hk : Kept pq (still s)) :
    Kept pq (still (State.resume s cause)) := by
  unfold State.resume
  repeat' (first | with_reducible assumption | simp only [still_lit, still_mk, hk, implies_true, forall_const, id_eq, still_srb, still_onlyIf, still_notice, still_rngPowerUp, still_runPeat, still_commitLog, still_commitHeld, still_takeOffline, still_trainPorts, still_radioFresh, still_advanceSystime, still_calibrated, still_beginReload, still_readyEvent, kept_reloadLost] | split | with_reducible apply kept_onlyIf | with_reducible apply kept_each | with_reducible apply kept_ite | with_reducible apply kept_writeAs | with_reducible apply kept_reloadLost | (intro _ _ _) | (intro _ _))

/-! ### Tag -/

theorem kept_tagUnlock {pq : List Instr} (s : State)  (hk : Kept pq (still s)) :
    Kept pq (still (tagUnlock s)) := by
  unfold tagUnlock
  repeat' (first | with_reducible assumption | simp only [still_lit, still_mk, hk, implies_true, forall_const, id_eq, still_raise, still_modTag, still_tagSw, still_isLast, kept_resume] | split | with_reducible apply kept_onlyIf | with_reducible apply kept_each | with_reducible apply kept_ite | with_reducible apply kept_writeAs | with_reducible apply kept_resume | (intro _ _ _) | (intro _ _))

/-! ### Windows -/

theorem kept_mvFlushed {pq : List Instr} (s old : State) (mask : Nat) (x : Nat × MoverRun)  (hk : Kept pq (still s)) :
    Kept pq (still (State.mvFlushed s old mask x)) := by
  unfold State.mvFlushed
  repeat' (first | with_reducible assumption | simp only [still_lit, still_mk, hk, implies_true, forall_const, id_eq, still_freeW, still_onlyIf, still_drop, still_moverEnd, kept_memWrite, kept_omTouch] | split | with_reducible apply kept_onlyIf | with_reducible apply kept_each | with_reducible apply kept_ite | with_reducible apply kept_writeAs | with_reducible apply kept_memWrite | with_reducible apply kept_omTouch | (intro _ _ _) | (intro _ _))

theorem kept_flushMask {pq : List Instr} (mask : Nat) (s : State)  (hk : Kept pq (still s)) :
    Kept pq (still (flushMask mask s)) := by
  unfold flushMask
  repeat' (first | with_reducible assumption | simp only [still_lit, still_mk, hk, implies_true, forall_const, id_eq, still_onlyIf, still_each, still_flushQueue, still_drainWaiting, still_endAes, still_commitLog, kept_mvFlushed] | split | with_reducible apply kept_onlyIf | with_reducible apply kept_each | with_reducible apply kept_ite | with_reducible apply kept_writeAs | with_reducible apply kept_mvFlushed | (intro _ _ _) | (intro _ _))

/-! ### Channels -/

theorem kept_channelAbort {pq : List Instr} (ch : Nat) (s : State)  (hk : Kept pq (still s)) :
    Kept pq (still (channelAbort ch s)) := by
  unfold channelAbort
  repeat' (first | with_reducible assumption | simp only [still_lit, still_mk, hk, implies_true, forall_const, id_eq, still_onlyIf, still_endAes, still_abortCandidate, still_endHsh, still_uwbAbort, kept_endBn, kept_endBnSusp] | split | with_reducible apply kept_onlyIf | with_reducible apply kept_each | with_reducible apply kept_ite | with_reducible apply kept_writeAs | with_reducible apply kept_endBn | with_reducible apply kept_endBnSusp | (intro _ _ _) | (intro _ _))

/-! ### Mailbox -/

theorem kept_peatDraw {pq : List Instr} (s : State) (n : Nat) (h : Bytes) (fail : Byte → State → State)
    (go : Bytes → State → State) (hf : ∀ c s, Kept pq (still s) → Kept pq (still (fail c s)))
    (hg : ∀ b s, Kept pq (still s) → Kept pq (still (go b s))) (hk : Kept pq (still s)) :
    Kept pq (still (s.peatDraw n h fail go)) :=
  kept_draw_next s .peat n _ fail go (fun s h' => Kept.congr (still_await s _) h') hf hg hk

theorem kept_jobsDone {pq : List Instr} (s : State) (l : List PeatJob) (go : State → State)
    (hg : ∀ s, Kept pq (still s) → Kept pq (still (go s))) (hk : Kept pq (still s)) :
    Kept pq (still (s.jobsDone l go)) :=
  kept_withJobs s 127 l _ go (fun c s h => Kept.congr (still_replyCode s c) h) hg hk

theorem kept_makeOffer {pq : List Instr} (s : State) (ch n : Nat)  (hk : Kept pq (still s)) :
    Kept pq (still (State.makeOffer s ch n)) := by
  unfold State.makeOffer
  repeat' (first | with_reducible assumption | simp only [still_lit, still_mk, hk, implies_true, forall_const, id_eq, still_modSes, still_reply, still_replyCode, still_peatDraw, still_sesFailed, kept_withJobs, kept_withJobs_snd, kept_peatDraw] | split | refine Kept.congr (still_outCommit (by assumption)) ?_ | with_reducible apply kept_onlyIf | with_reducible apply kept_each | with_reducible apply kept_ite | with_reducible apply kept_writeAs | with_reducible apply kept_withJobs | with_reducible apply kept_withJobs_snd | with_reducible apply kept_peatDraw | (intro _ _ _) | (intro _ _))

theorem kept_openSession {pq : List Instr} (v : Serving) (s : State)  (hk : Kept pq (still s)) :
    Kept pq (still (openSession v s)) := by
  unfold openSession
  repeat' (first | with_reducible assumption | simp only [still_lit, still_mk, hk, implies_true, forall_const, id_eq, still_sesRoom, still_takeSes, still_replyCode, still_await, still_bindCh, kept_makeOffer] | split | refine Kept.congr (still_sesRoomEq (by assumption)) ?_ | with_reducible apply kept_onlyIf | with_reducible apply kept_each | with_reducible apply kept_ite | with_reducible apply kept_writeAs | with_reducible apply kept_makeOffer | (intro _ _ _) | (intro _ _))

theorem kept_fusedKey {pq : List Instr} (s : State) (n : Nat) (status : Byte)  (hk : Kept pq (still s)) :
    Kept pq (still (State.fusedKey s n status)) := by
  unfold State.fusedKey
  repeat' (first | with_reducible assumption | simp only [still_lit, still_mk, hk, implies_true, forall_const, id_eq, still_modSes, still_keyWrite, still_sesRoom, still_takeSes, still_replyCode, still_await, still_sesFailed, kept_withJobs, kept_withJobs_snd] | split | refine Kept.congr (still_sesRoomEq (by assumption)) ?_ | with_reducible apply kept_onlyIf | with_reducible apply kept_each | with_reducible apply kept_ite | with_reducible apply kept_writeAs | with_reducible apply kept_withJobs | with_reducible apply kept_withJobs_snd | (intro _ _ _) | (intro _ _))

theorem kept_rangingKeys {pq : List Instr} (s : State) (n : Nat) (status : Byte)  (hk : Kept pq (still s)) :
    Kept pq (still (State.rangingKeys s n status)) := by
  unfold State.rangingKeys
  repeat' (first | with_reducible assumption | simp only [still_lit, still_mk, hk, implies_true, forall_const, id_eq, still_modSes, still_keyWrite, still_replyCode, still_sesFailed, kept_withJobs, kept_withJobs_snd, kept_fusedKey] | split | with_reducible apply kept_onlyIf | with_reducible apply kept_each | with_reducible apply kept_ite | with_reducible apply kept_writeAs | with_reducible apply kept_withJobs | with_reducible apply kept_withJobs_snd | with_reducible apply kept_fusedKey | (intro _ _ _) | (intro _ _))

theorem kept_agree {pq : List Instr} (s : State) (n : Nat) (m : Bytes)  (hk : Kept pq (still s)) :
    Kept pq (still (State.agree s n m)) := by
  unfold State.agree
  repeat' (first | with_reducible assumption | simp only [still_lit, still_mk, hk, implies_true, forall_const, id_eq, still_setSes, still_sesFailed, kept_withJobs, kept_withJobs_snd, kept_rangingKeys] | split | with_reducible apply kept_onlyIf | with_reducible apply kept_each | with_reducible apply kept_ite | with_reducible apply kept_writeAs | with_reducible apply kept_withJobs | with_reducible apply kept_withJobs_snd | with_reducible apply kept_rangingKeys | (intro _ _ _) | (intro _ _))

theorem kept_keyAgree {pq : List Instr} (v : Serving) (s : State)  (hk : Kept pq (still s)) :
    Kept pq (still (keyAgree v s)) := by
  unfold keyAgree
  repeat' (first | with_reducible assumption | simp only [still_lit, still_mk, hk, implies_true, forall_const, id_eq, still_replyCode, kept_agree] | split | with_reducible apply kept_onlyIf | with_reducible apply kept_each | with_reducible apply kept_ite | with_reducible apply kept_writeAs | with_reducible apply kept_agree | (intro _ _ _) | (intro _ _))

theorem kept_makeKey {pq : List Instr} (s : State) (n : Nat) (w : Word)  (hk : Kept pq (still s)) :
    Kept pq (still (State.makeKey s n w)) := by
  unfold State.makeKey
  repeat' (first | with_reducible assumption | simp only [still_lit, still_mk, hk, implies_true, forall_const, id_eq, still_putStatic, still_reply, still_replyCode, still_peatDraw, kept_peatDraw, kept_jobsDone] | split | with_reducible apply kept_onlyIf | with_reducible apply kept_each | with_reducible apply kept_ite | with_reducible apply kept_writeAs | with_reducible apply kept_peatDraw | with_reducible apply kept_jobsDone | (intro _ _ _) | (intro _ _))

theorem kept_keyGen {pq : List Instr} (v : Serving) (s : State)  (hk : Kept pq (still s)) :
    Kept pq (still (keyGen v s)) := by
  unfold keyGen
  repeat' (first | with_reducible assumption | simp only [still_lit, still_mk, hk, implies_true, forall_const, id_eq, still_replyCode, kept_makeKey] | split | with_reducible apply kept_onlyIf | with_reducible apply kept_each | with_reducible apply kept_ite | with_reducible apply kept_writeAs | with_reducible apply kept_makeKey | (intro _ _ _) | (intro _ _))

theorem kept_importKey {pq : List Instr} (s : State) (n : Nat) (b : Bytes)  (hk : Kept pq (still s)) :
    Kept pq (still (State.importKey s n b)) := by
  unfold State.importKey
  repeat' (first | with_reducible assumption | simp only [still_lit, still_mk, hk, implies_true, forall_const, id_eq, still_freeBytes, still_setCounter, still_putStatic, still_reply, still_replyCode, kept_withJobs, kept_withJobs_snd, kept_jobsDone] | split | with_reducible apply kept_onlyIf | with_reducible apply kept_each | with_reducible apply kept_ite | with_reducible apply kept_writeAs | with_reducible apply kept_withJobs | with_reducible apply kept_withJobs_snd | with_reducible apply kept_jobsDone | (intro _ _ _) | (intro _ _))

theorem kept_keyImport {pq : List Instr} (v : Serving) (s : State)  (hk : Kept pq (still s)) :
    Kept pq (still (keyImport v s)) := by
  unfold keyImport
  repeat' (first | with_reducible assumption | simp only [still_lit, still_mk, hk, implies_true, forall_const, id_eq, still_replyCode, kept_withJobs, kept_withJobs_snd, kept_importKey] | split | with_reducible apply kept_onlyIf | with_reducible apply kept_each | with_reducible apply kept_ite | with_reducible apply kept_writeAs | with_reducible apply kept_withJobs | with_reducible apply kept_withJobs_snd | with_reducible apply kept_importKey | (intro _ _ _) | (intro _ _))

theorem kept_identityAttest {pq : List Instr} (s : State) (st : Bytes)  (hk : Kept pq (still s)) :
    Kept pq (still (State.identityAttest s st)) := by
  unfold State.identityAttest
  repeat' (first | with_reducible assumption | simp only [still_lit, still_mk, hk, implies_true, forall_const, id_eq, still_reply, still_replyCode, kept_jobsDone] | split | with_reducible apply kept_onlyIf | with_reducible apply kept_each | with_reducible apply kept_ite | with_reducible apply kept_writeAs | with_reducible apply kept_jobsDone | (intro _ _ _) | (intro _ _))

theorem kept_akAttest {pq : List Instr} (s : State) (st : Bytes)  (hk : Kept pq (still s)) :
    Kept pq (still (State.akAttest s st)) := by
  unfold State.akAttest
  repeat' (first | with_reducible assumption | simp only [still_lit, still_mk, hk, implies_true, forall_const, id_eq, still_freeBytes, still_reply, still_replyCode, still_peatDraw, kept_peatDraw, kept_jobsDone] | split | with_reducible apply kept_onlyIf | with_reducible apply kept_each | with_reducible apply kept_ite | with_reducible apply kept_writeAs | with_reducible apply kept_peatDraw | with_reducible apply kept_jobsDone | (intro _ _ _) | (intro _ _))

theorem kept_attest {pq : List Instr} (v : Serving) (s : State)  (hk : Kept pq (still s)) :
    Kept pq (still (attest v s)) := by
  unfold attest
  repeat' (first | with_reducible assumption | simp only [still_lit, still_mk, hk, implies_true, forall_const, id_eq, still_replyCode, kept_jobsDone, kept_identityAttest, kept_akAttest] | split | with_reducible apply kept_onlyIf | with_reducible apply kept_each | with_reducible apply kept_ite | with_reducible apply kept_writeAs | with_reducible apply kept_jobsDone | with_reducible apply kept_identityAttest | with_reducible apply kept_akAttest | (intro _ _ _) | (intro _ _))

/-! ### Creds -/

theorem kept_setWayWord {pq : List Instr} (s : State) (set w : Nat) (v : Word)  (hk : Kept pq (still s)) :
    Kept pq (still (State.setWayWord s set w v)) := by
  unfold State.setWayWord
  repeat' (first | with_reducible assumption | simp only [still_lit, still_mk, hk, implies_true, forall_const, id_eq, kept_memWrite] | split | with_reducible apply kept_onlyIf | with_reducible apply kept_each | with_reducible apply kept_ite | with_reducible apply kept_writeAs | with_reducible apply kept_memWrite | (intro _ _ _) | (intro _ _))

theorem kept_ageSet {pq : List Instr} (s : State) (set way age : Nat)  (hk : Kept pq (still s)) :
    Kept pq (still (State.ageSet s set way age)) := by
  unfold State.ageSet
  repeat' (first | with_reducible assumption | simp only [still_lit, still_mk, hk, implies_true, forall_const, id_eq, still_onlyIf, still_each, kept_setWayWord] | split | with_reducible apply kept_onlyIf | with_reducible apply kept_each | with_reducible apply kept_ite | with_reducible apply kept_writeAs | with_reducible apply kept_setWayWord | (intro _ _ _) | (intro _ _))

theorem kept_tableLookup {pq : List Instr} (s : State) (serial : Nat) (cred : Bytes)  (hk : Kept pq (still s)) :
    Kept pq (still (State.tableLookup s serial cred).2) := by
  unfold State.tableLookup
  repeat' (first | with_reducible assumption | simp only [still_lit, still_mk, hk, implies_true, forall_const, id_eq, still_bump, kept_ageSet] | split | with_reducible apply kept_onlyIf | with_reducible apply kept_each | with_reducible apply kept_ite | with_reducible apply kept_writeAs | with_reducible apply kept_ageSet | (intro _ _ _) | (intro _ _))

theorem kept_tableDrop {pq : List Instr} (s : State) (hk : Kept pq (still s)) : Kept pq (still s.tableDrop) :=
  ⟨hk.1, cellWf_filter _ hk.2.1, hk.2.2⟩

theorem kept_tableWrite {pq : List Instr} (s : State) (serial : Nat) (cred : Bytes)  (hk : Kept pq (still s)) :
    Kept pq (still (State.tableWrite s serial cred)) := by
  unfold State.tableWrite
  repeat' (first | with_reducible assumption | simp only [still_lit, still_mk, hk, implies_true, forall_const, id_eq, kept_memWrite, kept_ageSet] | split | with_reducible apply kept_onlyIf | with_reducible apply kept_each | with_reducible apply kept_ite | with_reducible apply kept_writeAs | with_reducible apply kept_memWrite | with_reducible apply kept_ageSet | (intro _ _ _) | (intro _ _))

theorem kept_tableMark {pq : List Instr} (s : State) (serial n : Nat)  (hk : Kept pq (still s)) :
    Kept pq (still (State.tableMark s serial n)) := by
  unfold State.tableMark
  repeat' (first | with_reducible assumption | simp only [still_lit, still_mk, hk, implies_true, forall_const, id_eq, kept_setWayWord] | split | with_reducible apply kept_onlyIf | with_reducible apply kept_each | with_reducible apply kept_ite | with_reducible apply kept_writeAs | with_reducible apply kept_setWayWord | (intro _ _ _) | (intro _ _))

theorem kept_mapFetch {pq : List Instr} (s : State) (sec : Nat)  (hk : Kept pq (still s)) :
    Kept pq (still (State.mapFetch s sec).2) := by
  unfold State.mapFetch
  repeat' (first | with_reducible assumption | simp only [still_lit, still_mk, hk, implies_true, forall_const, id_eq, still_srb, kept_withJobs, kept_withJobs_snd] | split | with_reducible apply kept_onlyIf | with_reducible apply kept_each | with_reducible apply kept_ite | with_reducible apply kept_writeAs | with_reducible apply kept_withJobs | with_reducible apply kept_withJobs_snd | (intro _ _ _) | (intro _ _))

theorem kept_mapqWrite {pq : List Instr} (v : Word) (s : State)  (hk : Kept pq (still s)) :
    Kept pq (still (mapqWrite v s)) := by
  unfold mapqWrite
  repeat' (first | with_reducible assumption | simp only [still_lit, still_mk, hk, implies_true, forall_const, id_eq, still_setReg, kept_mapFetch] | split | with_reducible apply kept_onlyIf | with_reducible apply kept_each | with_reducible apply kept_ite | with_reducible apply kept_writeAs | with_reducible apply kept_mapFetch | (intro _ _ _) | (intro _ _))

theorem kept_mapStore {pq : List Instr} (s : State) (sec version : Nat) (kx km pt : Bytes)  (hk : Kept pq (still s)) :
    Kept pq (still (State.mapStore s sec version kx km pt)) := by
  unfold State.mapStore
  repeat' (first | with_reducible assumption | simp only [still_lit, still_mk, hk, implies_true, forall_const, id_eq, kept_flashWrite] | split | with_reducible apply kept_onlyIf | with_reducible apply kept_each | with_reducible apply kept_ite | with_reducible apply kept_writeAs | with_reducible apply kept_flashWrite | (intro _ _ _) | (intro _ _))

theorem kept_credEnd {pq : List Instr} (s : State) (n : Nat) (c : Bytes) (hit : Bool)  (hk : Kept pq (still s)) :
    Kept pq (still (State.credEnd s n c hit)) := by
  unfold State.credEnd
  repeat' (first | with_reducible assumption | simp only [still_lit, still_mk, hk, implies_true, forall_const, id_eq, still_onlyIf, still_modSes, still_active, still_credReply, still_credFail, kept_tableWrite, kept_mapFetch] | split | with_reducible apply kept_onlyIf | with_reducible apply kept_each | with_reducible apply kept_ite | with_reducible apply kept_writeAs | with_reducible apply kept_tableWrite | with_reducible apply kept_mapFetch | (intro _ _ _) | (intro _ _))

theorem kept_credFinish {pq : List Instr} (s : State) (n cls : Nat) (c : Bytes)  (hk : Kept pq (still s)) :
    Kept pq (still (State.credFinish s n cls c)) := by
  unfold State.credFinish
  repeat' (first | with_reducible assumption | simp only [still_lit, still_mk, hk, implies_true, forall_const, id_eq, still_drop, still_credFail, kept_withJobs, kept_withJobs_snd, kept_tableLookup, kept_credEnd] | split | with_reducible apply kept_onlyIf | with_reducible apply kept_each | with_reducible apply kept_ite | with_reducible apply kept_writeAs | with_reducible apply kept_withJobs | with_reducible apply kept_withJobs_snd | with_reducible apply kept_tableLookup | with_reducible apply kept_credEnd | (intro _ _ _) | (intro _ _))

theorem kept_credSteps {pq : List Instr} (s : State) (n : Nat) (b : Bytes)  (hk : Kept pq (still s)) :
    Kept pq (still (State.credSteps s n b)) := by
  unfold State.credSteps
  repeat' (first | with_reducible assumption | simp only [still_lit, still_mk, hk, implies_true, forall_const, id_eq, still_drop, still_useSes, still_credFail, kept_withJobs, kept_withJobs_snd, kept_credFinish] | split | with_reducible apply kept_onlyIf | with_reducible apply kept_each | with_reducible apply kept_ite | with_reducible apply kept_writeAs | with_reducible apply kept_withJobs | with_reducible apply kept_withJobs_snd | with_reducible apply kept_credFinish | (intro _ _ _) | (intro _ _))

theorem kept_credCheck {pq : List Instr} (v : Serving) (s : State)  (hk : Kept pq (still s)) :
    Kept pq (still (credCheck v s)) := by
  unfold credCheck
  repeat' (first | with_reducible assumption | simp only [still_lit, still_mk, hk, implies_true, forall_const, id_eq, still_credFail, kept_credSteps] | split | with_reducible apply kept_onlyIf | with_reducible apply kept_each | with_reducible apply kept_ite | with_reducible apply kept_writeAs | with_reducible apply kept_credSteps | (intro _ _ _) | (intro _ _))

theorem kept_mapSpoil {pq : List Instr} (s : State) (sec : Nat)  (hk : Kept pq (still s)) :
    Kept pq (still (State.mapSpoil s sec)) := by
  unfold State.mapSpoil
  repeat' (first | with_reducible assumption | simp only [still_lit, still_mk, hk, implies_true, forall_const, id_eq, still_freeBytes, kept_flashWrite] | split | with_reducible apply kept_onlyIf | with_reducible apply kept_each | with_reducible apply kept_ite | with_reducible apply kept_writeAs | with_reducible apply kept_flashWrite | (intro _ _ _) | (intro _ _))

theorem kept_applyUpdate {pq : List Instr} (s : State) (flashOk : Bool) (b : Bytes)  (hk : Kept pq (still s)) :
    Kept pq (still (State.applyUpdate s flashOk b)) := by
  unfold State.applyUpdate
  repeat' (first | with_reducible assumption | simp only [still_lit, still_mk, hk, implies_true, forall_const, id_eq, still_drop, still_replyCode, still_revokeAll, still_takeOpTime, kept_jobsDone, kept_mapFetch, kept_mapStore, kept_mapSpoil] | split | with_reducible apply kept_onlyIf | with_reducible apply kept_each | with_reducible apply kept_ite | with_reducible apply kept_writeAs | with_reducible apply kept_jobsDone | with_reducible apply kept_mapFetch | with_reducible apply kept_mapStore | with_reducible apply kept_mapSpoil | (intro _ _ _) | (intro _ _))

theorem kept_signedUpdate {pq : List Instr} (s : State) (flashOk : Bool) (b : Bytes)  (hk : Kept pq (still s)) :
    Kept pq (still (State.signedUpdate s flashOk b)) := by
  unfold State.signedUpdate
  repeat' (first | with_reducible assumption | simp only [still_lit, still_mk, hk, implies_true, forall_const, id_eq, still_replyCode, still_takeOpTime, kept_applyUpdate] | split | with_reducible apply kept_onlyIf | with_reducible apply kept_each | with_reducible apply kept_ite | with_reducible apply kept_writeAs | with_reducible apply kept_applyUpdate | (intro _ _ _) | (intro _ _))

theorem kept_statusUpdate {pq : List Instr} (flashOk : Bool) (v : Serving) (s : State)  (hk : Kept pq (still s)) :
    Kept pq (still (statusUpdate flashOk v s)) := by
  unfold statusUpdate
  repeat' (first | with_reducible assumption | simp only [still_lit, still_mk, hk, implies_true, forall_const, id_eq, still_onlyIf, still_drop, still_countFailure, still_replyCode, kept_withJobs, kept_withJobs_snd, kept_signedUpdate] | split | with_reducible apply kept_onlyIf | with_reducible apply kept_each | with_reducible apply kept_ite | with_reducible apply kept_writeAs | with_reducible apply kept_withJobs | with_reducible apply kept_withJobs_snd | with_reducible apply kept_signedUpdate | (intro _ _ _) | (intro _ _))

theorem kept_recordKey {pq : List Instr} (s : State) (cls : Nat) (b code : Bytes)  (hk : Kept pq (still s)) :
    Kept pq (still (State.recordKey s cls b code)) := by
  unfold State.recordKey
  repeat' (first | with_reducible assumption | simp only [still_lit, still_mk, hk, implies_true, forall_const, id_eq, still_countFailure, still_replyCode, still_recordAdd, kept_withJobs, kept_withJobs_snd] | split | with_reducible apply kept_onlyIf | with_reducible apply kept_each | with_reducible apply kept_ite | with_reducible apply kept_writeAs | with_reducible apply kept_withJobs | with_reducible apply kept_withJobs_snd | (intro _ _ _) | (intro _ _))

theorem kept_enrolRecord {pq : List Instr} (v : Serving) (s : State)  (hk : Kept pq (still s)) :
    Kept pq (still (enrolRecord v s)) := by
  unfold enrolRecord
  repeat' (first | with_reducible assumption | simp only [still_lit, still_mk, hk, implies_true, forall_const, id_eq, still_onlyIf, still_drop, still_countFailure, still_replyCode, still_recordRemove, kept_withJobs, kept_withJobs_snd, kept_recordKey] | split | with_reducible apply kept_onlyIf | with_reducible apply kept_each | with_reducible apply kept_ite | with_reducible apply kept_writeAs | with_reducible apply kept_withJobs | with_reducible apply kept_withJobs_snd | with_reducible apply kept_recordKey | (intro _ _ _) | (intro _ _))

theorem kept_byToken {pq : List Instr} (v : Serving) (s : State)  (hk : Kept pq (still s)) :
    Kept pq (still (byToken v s)) := by
  unfold byToken
  repeat' (first | with_reducible assumption | simp only [still_lit, still_mk, hk, implies_true, forall_const, id_eq, still_sesRoom, still_replyCode, still_await, still_byTokenAuth, kept_jobsDone] | split | refine Kept.congr (still_sesRoomEq (by assumption)) ?_ | with_reducible apply kept_onlyIf | with_reducible apply kept_each | with_reducible apply kept_ite | with_reducible apply kept_writeAs | with_reducible apply kept_jobsDone | (intro _ _ _) | (intro _ _))

theorem kept_phoneEntry {pq : List Instr} (s : State) (ch n k serial : Nat) (rights : Word) (key : Bytes) (tid : Word)  (hk : Kept pq (still s)) :
    Kept pq (still (State.phoneEntry s ch n k serial rights key tid)) := by
  unfold State.phoneEntry
  repeat' (first | with_reducible assumption | simp only [still_lit, still_mk, hk, implies_true, forall_const, id_eq, still_modSes, still_useSes, still_reply, still_replyCode, still_putEntry, kept_jobsDone, kept_tableMark] | split | refine Kept.congr (still_outCommit (by assumption)) ?_ | with_reducible apply kept_onlyIf | with_reducible apply kept_each | with_reducible apply kept_ite | with_reducible apply kept_writeAs | with_reducible apply kept_jobsDone | with_reducible apply kept_tableMark | (intro _ _ _) | (intro _ _))

theorem kept_phoneDraw {pq : List Instr} (s : State) (ch n k serial : Nat) (rights : Word) (key : Bytes)  (hk : Kept pq (still s)) :
    Kept pq (still (State.phoneDraw s ch n k serial rights key)) := by
  unfold State.phoneDraw
  repeat' (first | with_reducible assumption | simp only [still_lit, still_mk, hk, implies_true, forall_const, id_eq, still_replyCode, still_peatDraw, kept_peatDraw, kept_phoneEntry] | split | with_reducible apply kept_onlyIf | with_reducible apply kept_each | with_reducible apply kept_ite | with_reducible apply kept_writeAs | with_reducible apply kept_peatDraw | with_reducible apply kept_phoneEntry | (intro _ _ _) | (intro _ _))

theorem kept_enrolPhone {pq : List Instr} (key : Bytes) (v : Serving) (s : State)  (hk : Kept pq (still s)) :
    Kept pq (still (enrolPhone key v s)) := by
  unfold enrolPhone
  repeat' (first | with_reducible assumption | simp only [still_lit, still_mk, hk, implies_true, forall_const, id_eq, still_replyCode, kept_phoneDraw] | split | with_reducible apply kept_onlyIf | with_reducible apply kept_each | with_reducible apply kept_ite | with_reducible apply kept_writeAs | with_reducible apply kept_phoneDraw | (intro _ _ _) | (intro _ _))

/-! ### Applets -/

theorem kept_loadApplet {pq : List Instr} (s : State) (n : Nat)  (hk : Kept pq (still s)) :
    Kept pq (still (State.loadApplet s n).2) := by
  unfold State.loadApplet
  repeat' (first | with_reducible assumption | simp only [still_lit, still_mk, hk, implies_true, forall_const, id_eq, kept_memWrite] | split | with_reducible apply kept_onlyIf | with_reducible apply kept_each | with_reducible apply kept_ite | with_reducible apply kept_writeAs | with_reducible apply kept_memWrite | (intro _ _ _) | (intro _ _))

theorem kept_beginCall {pq : List Instr} (s : State) (n : Nat) (reqId : Option (BitVec 16)) (chan : Nat) (args : List Word)  (hk : Kept pq (still s)) :
    Kept pq (still (State.beginCall s n reqId chan args).2) := by
  unfold State.beginCall
  repeat' (first | with_reducible assumption | simp only [still_lit, still_mk, hk, implies_true, forall_const, id_eq, kept_loadApplet] | split | with_reducible apply kept_onlyIf | with_reducible apply kept_each | with_reducible apply kept_ite | with_reducible apply kept_writeAs | with_reducible apply kept_loadApplet | (intro _ _ _) | (intro _ _))

theorem kept_discardData {pq : List Instr} (s : State) (r : AppletRun)  (hk : Kept pq (still s)) :
    Kept pq (still (State.discardData s r)) := by
  unfold State.discardData
  repeat' (first | with_reducible assumption | simp only [still_lit, still_mk, hk, implies_true, forall_const, id_eq, kept_memWrite] | split | with_reducible apply kept_onlyIf | with_reducible apply kept_each | with_reducible apply kept_ite | with_reducible apply kept_writeAs | with_reducible apply kept_memWrite | (intro _ _ _) | (intro _ _))

theorem kept_ecallHash {pq : List Instr} (r : AppletRun) (s : State)  (hk : Kept pq (still s)) :
    Kept pq (still (ecallHash r s)) := by
  unfold ecallHash
  repeat' (first | with_reducible assumption | simp only [still_lit, still_mk, hk, implies_true, forall_const, id_eq, still_ecallDone, still_ecallFree, kept_withJobs, kept_withJobs_snd] | split | with_reducible apply kept_onlyIf | with_reducible apply kept_each | with_reducible apply kept_ite | with_reducible apply kept_writeAs | with_reducible apply kept_withJobs | with_reducible apply kept_withJobs_snd | (intro _ _ _) | (intro _ _))

/-! ### Release -/

theorem kept_grant {pq : List Instr} (s : State) (d : Decision)  (hk : Kept pq (still s)) :
    Kept pq (still (State.grant s d)) := by
  unfold State.grant
  repeat' (first | with_reducible assumption | simp only [still_lit, still_mk, hk, implies_true, forall_const, id_eq, still_onlyIf, still_feCommit, still_active, still_setCounter, still_relGo, still_useRoom, still_decisionLog, still_conclude, still_turnDown, kept_withJobs, kept_withJobs_snd] | split | with_reducible apply kept_onlyIf | with_reducible apply kept_each | with_reducible apply kept_ite | with_reducible apply kept_writeAs | with_reducible apply kept_withJobs | with_reducible apply kept_withJobs_snd | (intro _ _ _) | (intro _ _))

theorem kept_askPolicy {pq : List Instr} (s : State) (d : Decision)  (hk : Kept pq (still s)) :
    Kept pq (still (State.askPolicy s d)) := by
  unfold State.askPolicy
  repeat' (first | with_reducible assumption | simp only [still_lit, still_mk, hk, implies_true, forall_const, id_eq, still_askApplet, kept_grant] | split | with_reducible apply kept_onlyIf | with_reducible apply kept_each | with_reducible apply kept_ite | with_reducible apply kept_writeAs | with_reducible apply kept_grant | (intro _ _ _) | (intro _ _))

theorem kept_appletVerdict {pq : List Instr} (s : State) (d : Decision) (card : Bool) (b : Byte)  (hk : Kept pq (still s)) :
    Kept pq (still (State.appletVerdict s d card b)) := by
  unfold State.appletVerdict
  repeat' (first | with_reducible assumption | simp only [still_lit, still_mk, hk, implies_true, forall_const, id_eq, still_turnDown, kept_grant, kept_askPolicy] | split | with_reducible apply kept_onlyIf | with_reducible apply kept_each | with_reducible apply kept_ite | with_reducible apply kept_writeAs | with_reducible apply kept_grant | with_reducible apply kept_askPolicy | (intro _ _ _) | (intro _ _))

theorem kept_unlockReq {pq : List Instr} (v : Serving) (s : State)  (hk : Kept pq (still s)) :
    Kept pq (still (unlockReq v s)) := by
  unfold unlockReq
  repeat' (first | with_reducible assumption | simp only [still_lit, still_mk, hk, implies_true, forall_const, id_eq, still_turnDown, still_askApplet, kept_askPolicy] | split | with_reducible apply kept_onlyIf | with_reducible apply kept_each | with_reducible apply kept_ite | with_reducible apply kept_writeAs | with_reducible apply kept_askPolicy | (intro _ _ _) | (intro _ _))

theorem kept_takeFused {pq : List Instr} (d : Decision) (k : Nat) : ∀ s : State, Kept pq (still s) →
    Kept pq (still (s.takeFused d k)) := by
  induction k with
  | zero => intro s hk; exact hk
  | succ k ih =>
    intro s hk
    unfold State.takeFused
    repeat' (first | with_reducible assumption | simp only [hk, still_turnDown, still_lit, still_mk] | split |
      with_reducible apply kept_askPolicy | with_reducible apply ih | refine Kept.congr (still_askFused (by assumption)) ?_)

theorem kept_startPhone {pq : List Instr} (s : State) (d : Decision) (hk : Kept pq (still s)) :
    Kept pq (still (s.startPhone d)) := by
  unfold State.startPhone
  refine kept_takeFused d 2 _ (Kept.congr (still_requestFused _ _) ?_)
  have h : still (({ s with rel := { s.rel with pending := true } } : State).await (.fused d)) = still s :=
    (still_await _ _).trans rfl
  exact Kept.congr h hk

theorem kept_startReq {pq : List Instr} (v : Serving) (s : State)  (hk : Kept pq (still s)) :
    Kept pq (still (startReq v s)) := by
  unfold startReq
  repeat' (first | with_reducible assumption | simp only [still_lit, still_mk, hk, implies_true, forall_const, id_eq, still_turnDown, still_startTransponder, kept_startPhone] | split | with_reducible apply kept_onlyIf | with_reducible apply kept_each | with_reducible apply kept_ite | with_reducible apply kept_writeAs | with_reducible apply kept_startPhone | (intro _ _ _) | (intro _ _))

theorem kept_startDeadline {pq : List Instr} (s : State)  (hk : Kept pq (still s)) :
    Kept pq (still (startDeadline s)) := by
  unfold startDeadline
  repeat' (first | with_reducible assumption | simp only [still_lit, still_mk, hk, implies_true, forall_const, id_eq, still_callOver, still_turnDown, kept_discardData] | split | with_reducible apply kept_onlyIf | with_reducible apply kept_each | with_reducible apply kept_ite | with_reducible apply kept_writeAs | with_reducible apply kept_discardData | (intro _ _ _) | (intro _ _))

theorem kept_islandDecision {pq : List Instr} (s : State)  (hk : Kept pq (still s)) :
    Kept pq (still (islandDecision s)) := by
  unfold islandDecision
  repeat' (first | with_reducible assumption | simp only [still_lit, still_mk, hk, implies_true, forall_const, id_eq, still_commitLog, still_turnDown, kept_grant] | split | with_reducible apply kept_onlyIf | with_reducible apply kept_each | with_reducible apply kept_ite | with_reducible apply kept_writeAs | with_reducible apply kept_grant | (intro _ _ _) | (intro _ _))

theorem kept_endCall {pq : List Instr} (s : State) (status : Byte) (ws : List Word)  (hk : Kept pq (still s)) :
    Kept pq (still (State.endCall s status ws)) := by
  unfold State.endCall
  repeat' (first | with_reducible assumption | simp only [still_lit, still_mk, hk, implies_true, forall_const, id_eq, still_answerMail, still_callOver, kept_appletVerdict] | split | with_reducible apply kept_onlyIf | with_reducible apply kept_each | with_reducible apply kept_ite | with_reducible apply kept_writeAs | with_reducible apply kept_appletVerdict | (intro _ _ _) | (intro _ _))

theorem kept_abortCall {pq : List Instr} (s : State)  (hk : Kept pq (still s)) :
    Kept pq (still (State.abortCall s)) := by
  unfold State.abortCall
  repeat' (first | with_reducible assumption | simp only [still_lit, still_mk, hk, implies_true, forall_const, id_eq, kept_discardData, kept_endCall] | split | with_reducible apply kept_onlyIf | with_reducible apply kept_each | with_reducible apply kept_ite | with_reducible apply kept_writeAs | with_reducible apply kept_discardData | with_reducible apply kept_endCall | (intro _ _ _) | (intro _ _))

theorem kept_ecall {pq : List Instr} (service : Nat) (f : AppletRun → State → State) (s : State) (hf : ∀ x0 x1, Kept pq (still x1) → Kept pq (still (f x0 x1))) (hk : Kept pq (still s)) :
    Kept pq (still (ecall service f s)) := by
  unfold ecall
  repeat' (first | with_reducible assumption | simp only [still_lit, still_mk, hk, implies_true, forall_const, id_eq, kept_abortCall, hf] | split | with_reducible apply kept_onlyIf | with_reducible apply kept_each | with_reducible apply kept_ite | with_reducible apply kept_writeAs | with_reducible apply kept_abortCall | with_reducible apply hf | (intro _ _ _) | (intro _ _))

theorem kept_mailCall {pq : List Instr} (s : State)  (hk : Kept pq (still s)) :
    Kept pq (still (State.mailCall s)) := by
  unfold State.mailCall
  repeat' (first | with_reducible assumption | simp only [still_lit, still_mk, hk, implies_true, forall_const, id_eq, still_drop, still_takeHead, still_countBroken, still_answerMail, still_aheadLess, kept_beginCall] | split | with_reducible apply kept_onlyIf | with_reducible apply kept_each | with_reducible apply kept_ite | with_reducible apply kept_writeAs | with_reducible apply kept_beginCall | (intro _ _ _) | (intro _ _))

theorem kept_appletCall {pq : List Instr} (s : State)  (hk : Kept pq (still s)) :
    Kept pq (still (appletCall s)) := by
  unfold appletCall
  repeat' (first | with_reducible assumption | simp only [still_lit, still_mk, hk, implies_true, forall_const, id_eq, still_turnDown, kept_beginCall, kept_appletVerdict, kept_startDeadline, kept_mailCall] | split | with_reducible apply kept_onlyIf | with_reducible apply kept_each | with_reducible apply kept_ite | with_reducible apply kept_writeAs | with_reducible apply kept_beginCall | with_reducible apply kept_appletVerdict | with_reducible apply kept_startDeadline | with_reducible apply kept_mailCall | (intro _ _ _) | (intro _ _))

theorem kept_peatGoesOn {pq : List Instr} (s : State)  (hk : Kept pq (still s)) :
    Kept pq (still (peatGoesOn s)) := by
  unfold peatGoesOn
  repeat' (first | with_reducible assumption | simp only [still_lit, still_mk, hk, implies_true, forall_const, id_eq, still_answer, still_byTokenAuth, still_byTokenEnd, still_turnDown, kept_askPolicy, kept_takeFused] | split | with_reducible apply kept_onlyIf | with_reducible apply kept_each | with_reducible apply kept_ite | with_reducible apply kept_writeAs | with_reducible apply kept_askPolicy | with_reducible apply kept_takeFused | (intro _ _ _) | (intro _ _))

theorem kept_sessionFreed {pq : List Instr} (s : State) (v : Serving)  (hk : Kept pq (still s)) :
    Kept pq (still (State.sessionFreed s v)) := by
  unfold State.sessionFreed
  repeat' (first | with_reducible assumption | simp only [still_lit, still_mk, hk, implies_true, forall_const, id_eq, still_replyCode, still_await, still_enrolBind, kept_openSession, kept_fusedKey, kept_byToken] | split | with_reducible apply kept_onlyIf | with_reducible apply kept_each | with_reducible apply kept_ite | with_reducible apply kept_writeAs | with_reducible apply kept_openSession | with_reducible apply kept_fusedKey | with_reducible apply kept_byToken | (intro _ _ _) | (intro _ _))

theorem kept_sessionFree {pq : List Instr} (n : Nat) (s : State)  (hk : Kept pq (still s)) :
    Kept pq (still (sessionFree n s)) := by
  unfold sessionFree
  repeat' (first | with_reducible assumption | simp only [still_lit, still_mk, hk, implies_true, forall_const, id_eq, still_freeSes, still_landGoesOn, kept_sessionFreed] | split | with_reducible apply kept_onlyIf | with_reducible apply kept_each | with_reducible apply kept_ite | with_reducible apply kept_writeAs | with_reducible apply kept_sessionFreed | (intro _ _ _) | (intro _ _))

/-! ### Images -/

theorem kept_resetAll {pq : List Instr} (s : State) (cause : Word) (hk : Kept pq (still s)) :
    Kept pq (still (s.resetAll cause)) := ⟨hk.1, rfl, hk.2.2⟩

theorem kept_eraseSlot {pq : List Instr} (s : State) (slot : Nat)  (hk : Kept pq (still s)) :
    Kept pq (still (State.eraseSlot s slot)) := by
  unfold State.eraseSlot
  repeat' (first | with_reducible assumption | simp only [still_lit, still_mk, hk, implies_true, forall_const, id_eq, kept_flashWrite] | split | with_reducible apply kept_onlyIf | with_reducible apply kept_each | with_reducible apply kept_ite | with_reducible apply kept_writeAs | with_reducible apply kept_flashWrite | (intro _ _ _) | (intro _ _))

theorem kept_commitSection {pq : List Instr} (s : State) (slot : Nat) (version : Word) (key : Nat) (body : Option Bytes)  (hk : Kept pq (still s)) :
    Kept pq (still (State.commitSection s slot version key body)) := by
  unfold State.commitSection
  repeat' (first | with_reducible assumption | simp only [still_lit, still_mk, hk, implies_true, forall_const, id_eq, still_onlyIf, still_removeSection, still_guardFlash, still_commitDir, still_retrain, kept_applySection] | split | with_reducible apply kept_onlyIf | with_reducible apply kept_each | with_reducible apply kept_ite | with_reducible apply kept_writeAs | with_reducible apply kept_applySection | (intro _ _ _) | (intro _ _))

theorem kept_refuseCandidate {pq : List Instr} (s : State) (slot : Nat)  (hk : Kept pq (still s)) :
    Kept pq (still (State.refuseCandidate s slot)) := by
  unfold State.refuseCandidate
  repeat' (first | with_reducible assumption | simp only [still_lit, still_mk, hk, implies_true, forall_const, id_eq, still_endReplace, kept_eraseSlot] | split | with_reducible apply kept_onlyIf | with_reducible apply kept_each | with_reducible apply kept_ite | with_reducible apply kept_writeAs | with_reducible apply kept_eraseSlot | (intro _ _ _) | (intro _ _))

theorem kept_cfgReplace {pq : List Instr} (_v : Serving) (s : State)  (hk : Kept pq (still s)) :
    Kept pq (still (cfgReplace _v s)) := by
  unfold cfgReplace
  repeat' (first | with_reducible assumption | simp only [still_lit, still_mk, hk, implies_true, forall_const, id_eq, still_hashJobs, still_secReplace, still_acceptCandidate, kept_refuseCandidate] | split | with_reducible apply kept_onlyIf | with_reducible apply kept_each | with_reducible apply kept_ite | with_reducible apply kept_writeAs | with_reducible apply kept_refuseCandidate | (intro _ _ _) | (intro _ _))

theorem kept_replacementCommit {pq : List Instr} (s : State)  (hk : Kept pq (still s)) :
    Kept pq (still (replacementCommit s)) := by
  unfold replacementCommit
  repeat' (first | with_reducible assumption | simp only [still_lit, still_mk, hk, implies_true, forall_const, id_eq, still_endReplace, kept_commitSection] | split | with_reducible apply kept_onlyIf | with_reducible apply kept_each | with_reducible apply kept_ite | with_reducible apply kept_writeAs | with_reducible apply kept_commitSection | (intro _ _ _) | (intro _ _))

theorem kept_drainTimeout {pq : List Instr} (s : State)  (hk : Kept pq (still s)) :
    Kept pq (still (drainTimeout s)) := by
  unfold drainTimeout
  repeat' (first | with_reducible assumption | simp only [still_lit, still_mk, hk, implies_true, forall_const, id_eq, still_endReplace, kept_eraseSlot] | split | with_reducible apply kept_onlyIf | with_reducible apply kept_each | with_reducible apply kept_ite | with_reducible apply kept_writeAs | with_reducible apply kept_eraseSlot | (intro _ _ _) | (intro _ _))

theorem kept_handoff {pq : List Instr} (s : State)  (hk : Kept pq (still s)) :
    Kept pq (still (State.handoff s)) := by
  unfold State.handoff
  repeat' (first | with_reducible assumption | simp only [still_lit, still_mk, hk, implies_true, forall_const, id_eq, still_srb, still_freeBytes, kept_memWrite] | split | with_reducible apply kept_onlyIf | with_reducible apply kept_each | with_reducible apply kept_ite | with_reducible apply kept_writeAs | with_reducible apply kept_memWrite | (intro _ _ _) | (intro _ _))

theorem kept_swapPeat {pq : List Instr} (s : State) (slot version : Nat) (digest : Bytes)  (hk : Kept pq (still s)) :
    Kept pq (still (State.swapPeat s slot version digest)) := by
  unfold State.swapPeat
  repeat' (first | with_reducible assumption | simp only [still_lit, still_mk, hk, implies_true, forall_const, id_eq, still_srb, still_replyCode, still_hashJobs, still_guardFlash, still_advanceNow, still_setRunning, kept_memWrite, kept_resetAll, kept_handoff] | split | with_reducible apply kept_onlyIf | with_reducible apply kept_each | with_reducible apply kept_ite | with_reducible apply kept_writeAs | with_reducible apply kept_memWrite | with_reducible apply kept_resetAll | with_reducible apply kept_handoff | (intro _ _ _) | (intro _ _))

theorem kept_peatSwap {pq : List Instr} (s : State)  (hk : Kept pq (still s)) :
    Kept pq (still (peatSwap s)) := by
  unfold peatSwap
  repeat' (first | with_reducible assumption | simp only [still_lit, still_mk, hk, implies_true, forall_const, id_eq, still_replyCode, kept_swapPeat] | split | with_reducible apply kept_onlyIf | with_reducible apply kept_each | with_reducible apply kept_ite | with_reducible apply kept_writeAs | with_reducible apply kept_swapPeat | (intro _ _ _) | (intro _ _))

/-! ### LifeCycle -/

theorem kept_clearSector {pq : List Instr} (s : State) (sec : Nat)  (hk : Kept pq (still s)) :
    Kept pq (still (State.clearSector s sec)) := by
  unfold State.clearSector
  repeat' (first | with_reducible assumption | simp only [still_lit, still_mk, hk, implies_true, forall_const, id_eq, kept_flashWrite] | split | with_reducible apply kept_onlyIf | with_reducible apply kept_each | with_reducible apply kept_ite | with_reducible apply kept_writeAs | with_reducible apply kept_flashWrite | (intro _ _ _) | (intro _ _))

theorem kept_enterField {pq : List Instr} (s : State) (b : Bytes)  (hk : Kept pq (still s)) :
    Kept pq (still (State.enterField s b)) := by
  unfold State.enterField
  repeat' (first | with_reducible assumption | simp only [still_lit, still_mk, hk, implies_true, forall_const, id_eq, still_each, still_makeKis, still_makeFixed, kept_clearSector] | split | with_reducible apply kept_onlyIf | with_reducible apply kept_each | with_reducible apply kept_ite | with_reducible apply kept_writeAs | with_reducible apply kept_clearSector | (intro _ _ _) | (intro _ _))

theorem kept_onEntry {pq : List Instr} (s : State) (b : Nat) (rnd : Bytes)  (hk : Kept pq (still s)) :
    Kept pq (still (State.onEntry s b rnd)) := by
  unfold State.onEntry
  repeat' (first | with_reducible assumption | simp only [still_lit, still_mk, hk, implies_true, forall_const, id_eq, still_personalise, kept_enterField] | split | with_reducible apply kept_onlyIf | with_reducible apply kept_each | with_reducible apply kept_ite | with_reducible apply kept_writeAs | with_reducible apply kept_enterField | (intro _ _ _) | (intro _ _))

theorem kept_transition {pq : List Instr} (s : State) (b : Nat) (keys rnd : Bytes)  (hk : Kept pq (still s)) :
    Kept pq (still (State.transition s b keys rnd)) := by
  unfold State.transition
  repeat' (first | with_reducible assumption | simp only [still_lit, still_mk, hk, implies_true, forall_const, id_eq, still_onlyIf, still_tagCut, still_rederive, still_completeTransition, still_dropSessions, still_frontEndsOff, still_openLevel, kept_tableDrop, kept_onEntry] | split | with_reducible apply kept_onlyIf | with_reducible apply kept_each | with_reducible apply kept_ite | with_reducible apply kept_writeAs | with_reducible apply kept_tableDrop | with_reducible apply kept_onEntry | (intro _ _ _) | (intro _ _))

theorem kept_askTransition {pq : List Instr} (s : State) (b : Nat) (keys : Bytes) (w : Drawer) (wait : Bytes → State → State) (fin : Byte → State → State) (hwait : ∀ x0 x1, Kept pq (still x1) → Kept pq (still (wait x0 x1))) (hfin : ∀ x0 x1, Kept pq (still x1) → Kept pq (still (fin x0 x1))) (hk : Kept pq (still s)) :
    Kept pq (still (State.askTransition s b keys w wait fin)) := by
  unfold State.askTransition
  repeat' (first | with_reducible assumption | simp only [still_lit, still_mk, hk, implies_true, forall_const, id_eq, still_drawn, still_draw_next, kept_withJobs, kept_withJobs_snd, kept_draw_next, kept_transition, hwait, hfin] | split | with_reducible apply kept_onlyIf | with_reducible apply kept_each | with_reducible apply kept_ite | with_reducible apply kept_writeAs | with_reducible apply kept_withJobs | with_reducible apply kept_withJobs_snd | with_reducible apply kept_draw_next | with_reducible apply kept_transition | with_reducible apply hwait | with_reducible apply hfin | (intro _ _ _) | (intro _ _))

theorem kept_takeToken {pq : List Instr} (s : State) (t : Bytes) (w : Drawer) (wait : Bytes → State → State) (fin : Byte → State → State) (hwait : ∀ x0 x1, Kept pq (still x1) → Kept pq (still (wait x0 x1))) (hfin : ∀ x0 x1, Kept pq (still x1) → Kept pq (still (fin x0 x1))) (hk : Kept pq (still s)) :
    Kept pq (still (State.takeToken s t w wait fin)) := by
  unfold State.takeToken
  repeat' (first | with_reducible assumption | simp only [still_lit, still_mk, hk, implies_true, forall_const, id_eq, still_onlyIf, still_drop, still_openLevel, still_clearFails, kept_withJobs, kept_withJobs_snd, kept_askTransition, hwait, hfin] | split | with_reducible apply kept_onlyIf | with_reducible apply kept_each | with_reducible apply kept_ite | with_reducible apply kept_writeAs | with_reducible apply kept_withJobs | with_reducible apply kept_withJobs_snd | with_reducible apply kept_askTransition | with_reducible apply hwait | with_reducible apply hfin | (intro _ _ _) | (intro _ _))

theorem kept_takeRecord {pq : List Instr} (s : State) (t : Bytes) (w : Drawer) (wait : Bytes → State → State) (fin : Byte → State → State) (hwait : ∀ x0 x1, Kept pq (still x1) → Kept pq (still (wait x0 x1))) (hfin : ∀ x0 x1, Kept pq (still x1) → Kept pq (still (fin x0 x1))) (hk : Kept pq (still s)) :
    Kept pq (still (State.takeRecord s t w wait fin)) := by
  unfold State.takeRecord
  repeat' (first | with_reducible assumption | simp only [still_lit, still_mk, hk, implies_true, forall_const, id_eq, still_drop, kept_withJobs, kept_withJobs_snd, kept_askTransition, hwait, hfin] | split | with_reducible apply kept_onlyIf | with_reducible apply kept_each | with_reducible apply kept_ite | with_reducible apply kept_writeAs | with_reducible apply kept_withJobs | with_reducible apply kept_withJobs_snd | with_reducible apply kept_askTransition | with_reducible apply hwait | with_reducible apply hfin | (intro _ _ _) | (intro _ _))

theorem kept_lcsTransition {pq : List Instr} (v : Serving) (s : State)  (hk : Kept pq (still s)) :
    Kept pq (still (lcsTransition v s)) := by
  unfold lcsTransition
  repeat' (first | with_reducible assumption | simp only [still_lit, still_mk, hk, implies_true, forall_const, id_eq, still_replyCode, still_await, kept_takeToken, kept_takeRecord] | split | with_reducible apply kept_onlyIf | with_reducible apply kept_each | with_reducible apply kept_ite | with_reducible apply kept_writeAs | with_reducible apply kept_takeToken | with_reducible apply kept_takeRecord | (intro _ _ _) | (intro _ _))

theorem kept_debugToken {pq : List Instr} (t : Bytes) (s : State)  (hk : Kept pq (still s)) :
    Kept pq (still (debugToken t s)) := by
  unfold debugToken
  repeat' (first | with_reducible assumption | simp only [still_lit, still_mk, hk, implies_true, forall_const, id_eq, still_jtagAnswer, still_jtagWaits, kept_takeToken] | split | with_reducible apply kept_onlyIf | with_reducible apply kept_each | with_reducible apply kept_ite | with_reducible apply kept_writeAs | with_reducible apply kept_takeToken | (intro _ _ _) | (intro _ _))

theorem kept_requestServed {pq : List Instr} (s : State)  (hk : Kept pq (still s)) :
    Kept pq (still (State.requestServed s)) := by
  unfold State.requestServed
  repeat' (first | with_reducible assumption | simp only [still_lit, still_mk, hk, implies_true, forall_const, id_eq, still_drop, still_forgetDraw, still_replyCode, still_await, still_debugChallenge, kept_makeOffer, kept_makeKey, kept_akAttest, kept_enrolPhone, kept_askTransition] | split | with_reducible apply kept_onlyIf | with_reducible apply kept_each | with_reducible apply kept_ite | with_reducible apply kept_writeAs | with_reducible apply kept_makeOffer | with_reducible apply kept_makeKey | with_reducible apply kept_akAttest | with_reducible apply kept_enrolPhone | with_reducible apply kept_askTransition | (intro _ _ _) | (intro _ _))

theorem kept_jtagServed {pq : List Instr} (s : State)  (hk : Kept pq (still s)) :
    Kept pq (still (State.jtagServed s)) := by
  unfold State.jtagServed
  repeat' (first | with_reducible assumption | simp only [still_lit, still_mk, hk, implies_true, forall_const, id_eq, still_forgetDraw, still_jtagAnswer, still_jtagWaits, still_jtagNonce, kept_askTransition] | split | with_reducible apply kept_onlyIf | with_reducible apply kept_each | with_reducible apply kept_ite | with_reducible apply kept_writeAs | with_reducible apply kept_askTransition | (intro _ _ _) | (intro _ _))

theorem kept_drawerGoesOn {pq : List Instr} (s : State) (w : Drawer)  (hk : Kept pq (still s)) :
    Kept pq (still (State.drawerGoesOn s w)) := by
  unfold State.drawerGoesOn
  repeat' (first | with_reducible assumption | simp only [still_lit, still_mk, hk, implies_true, forall_const, id_eq, still_enumGoesOn, still_joinGoesOn, still_appletGoesOn, kept_kstGoesOn, kept_requestServed, kept_jtagServed] | split | with_reducible apply kept_onlyIf | with_reducible apply kept_each | with_reducible apply kept_ite | with_reducible apply kept_writeAs | with_reducible apply kept_kstGoesOn | with_reducible apply kept_requestServed | with_reducible apply kept_jtagServed | (intro _ _ _) | (intro _ _))

theorem kept_drawsServed {pq : List Instr} (s : State)  (hk : Kept pq (still s)) :
    Kept pq (still (State.drawsServed s)) := by
  unfold State.drawsServed
  repeat' (first | with_reducible assumption | simp only [still_lit, still_mk, hk, implies_true, forall_const, id_eq, still_each, kept_drawerGoesOn] | split | with_reducible apply kept_onlyIf | with_reducible apply kept_each | with_reducible apply kept_ite | with_reducible apply kept_writeAs | with_reducible apply kept_drawerGoesOn | (intro _ _ _) | (intro _ _))

/-! ### Power -/

theorem kept_enterDeep {pq : List Instr} (s : State) (cause : Word)  (hk : Kept pq (still s)) :
    Kept pq (still (State.enterDeep s cause)) := by
  unfold State.enterDeep
  repeat' (first | with_reducible assumption | simp only [still_lit, still_mk, hk, implies_true, forall_const, id_eq, still_setReg, still_srf, still_srb, kept_resetAll] | split | with_reducible apply kept_onlyIf | with_reducible apply kept_each | with_reducible apply kept_ite | with_reducible apply kept_writeAs | with_reducible apply kept_resetAll | (intro _ _ _) | (intro _ _))

theorem kept_wakeStart {pq : List Instr} (s : State) (b : Nat)  (hk : Kept pq (still s)) :
    Kept pq (still (State.wakeStart s b)) := by
  unfold State.wakeStart
  repeat' (first | with_reducible assumption | simp only [still_lit, still_mk, hk, implies_true, forall_const, id_eq, still_srb, kept_resetAll] | split | with_reducible apply kept_onlyIf | with_reducible apply kept_each | with_reducible apply kept_ite | with_reducible apply kept_writeAs | with_reducible apply kept_resetAll | (intro _ _ _) | (intro _ _))

theorem kept_wake {pq : List Instr} (s : State) (b : Nat)  (hk : Kept pq (still s)) :
    Kept pq (still (State.wake s b)) := by
  unfold State.wake
  repeat' (first | with_reducible assumption | simp only [still_lit, still_mk, hk, implies_true, forall_const, id_eq, kept_resume, kept_wakeStart] | split | with_reducible apply kept_onlyIf | with_reducible apply kept_each | with_reducible apply kept_ite | with_reducible apply kept_writeAs | with_reducible apply kept_resume | with_reducible apply kept_wakeStart | (intro _ _ _) | (intro _ _))

theorem kept_vbatEvent {pq : List Instr} (s : State)  (hk : Kept pq (still s)) :
    Kept pq (still (State.vbatEvent s)) := by
  unfold State.vbatEvent
  repeat' (first | with_reducible assumption | simp only [still_lit, still_mk, hk, implies_true, forall_const, id_eq, still_srb, kept_wakeStart] | split | with_reducible apply kept_onlyIf | with_reducible apply kept_each | with_reducible apply kept_ite | with_reducible apply kept_writeAs | with_reducible apply kept_wakeStart | (intro _ _ _) | (intro _ _))

theorem kept_coldPower {pq : List Instr} (s : State)  (hk : Kept pq (still s)) :
    Kept pq (still (State.coldPower s)) := by
  unfold State.coldPower
  repeat' (first | with_reducible assumption | simp only [still_lit, still_mk, hk, implies_true, forall_const, id_eq, kept_resetAll] | split | with_reducible apply kept_onlyIf | with_reducible apply kept_each | with_reducible apply kept_ite | with_reducible apply kept_writeAs | with_reducible apply kept_resetAll | (intro _ _ _) | (intro _ _))

theorem kept_vbatRise {pq : List Instr} (lost : Bool) (s : State)  (hk : Kept pq (still s)) :
    Kept pq (still (vbatRise lost s)) := by
  unfold vbatRise
  repeat' (first | with_reducible assumption | simp only [still_lit, still_mk, hk, implies_true, forall_const, id_eq, still_srb, still_modPower, kept_vbatEvent, kept_coldPower] | split | with_reducible apply kept_onlyIf | with_reducible apply kept_each | with_reducible apply kept_ite | with_reducible apply kept_writeAs | with_reducible apply kept_vbatEvent | with_reducible apply kept_coldPower | (intro _ _ _) | (intro _ _))

theorem kept_chargeEvent {pq : List Instr} (s : State)  (hk : Kept pq (still s)) :
    Kept pq (still (chargeEvent s)) := by
  unfold chargeEvent
  repeat' (first | with_reducible assumption | simp only [still_lit, still_mk, hk, implies_true, forall_const, id_eq, kept_vbatEvent] | split | with_reducible apply kept_onlyIf | with_reducible apply kept_each | with_reducible apply kept_ite | with_reducible apply kept_writeAs | with_reducible apply kept_vbatEvent | (intro _ _ _) | (intro _ _))

theorem kept_vdrvFalls {pq : List Instr} (s : State)  (hk : Kept pq (still s)) :
    Kept pq (still (vdrvFalls s)) := by
  unfold vdrvFalls
  repeat' (first | with_reducible assumption | simp only [still_lit, still_mk, hk, implies_true, forall_const, id_eq, still_srb, still_lfStop, kept_peatGoesOn] | split | with_reducible apply kept_onlyIf | with_reducible apply kept_each | with_reducible apply kept_ite | with_reducible apply kept_writeAs | with_reducible apply kept_peatGoesOn | (intro _ _ _) | (intro _ _))

theorem kept_brownOut {pq : List Instr} (s : State)  (hk : Kept pq (still s)) :
    Kept pq (still (brownOut s)) := by
  unfold brownOut
  repeat' (first | with_reducible assumption | simp only [still_lit, still_mk, hk, implies_true, forall_const, id_eq, kept_resetAll, kept_enterDeep] | split | with_reducible apply kept_onlyIf | with_reducible apply kept_each | with_reducible apply kept_ite | with_reducible apply kept_writeAs | with_reducible apply kept_resetAll | with_reducible apply kept_enterDeep | (intro _ _ _) | (intro _ _))

theorem kept_resetPin {pq : List Instr} (s : State)  (hk : Kept pq (still s)) :
    Kept pq (still (resetPin s)) := by
  unfold resetPin
  repeat' (first | with_reducible assumption | simp only [still_lit, still_mk, hk, implies_true, forall_const, id_eq, kept_resetAll] | split | with_reducible apply kept_onlyIf | with_reducible apply kept_each | with_reducible apply kept_ite | with_reducible apply kept_writeAs | with_reducible apply kept_resetAll | (intro _ _ _) | (intro _ _))

theorem kept_attemptFails {pq : List Instr} (s : State)  (hk : Kept pq (still s)) :
    Kept pq (still (attemptFails s)) := by
  unfold attemptFails
  repeat' (first | with_reducible assumption | simp only [still_lit, still_mk, hk, implies_true, forall_const, id_eq, still_modPower, kept_enterDeep] | split | with_reducible apply kept_onlyIf | with_reducible apply kept_each | with_reducible apply kept_ite | with_reducible apply kept_writeAs | with_reducible apply kept_enterDeep | (intro _ _ _) | (intro _ _))

theorem kept_generateDue {pq : List Instr} (s : State)  (hk : Kept pq (still s)) :
    Kept pq (still (State.generateDue s)) := by
  unfold State.generateDue
  repeat' (first | with_reducible assumption | simp only [still_lit, still_mk, hk, implies_true, forall_const, id_eq, still_drawn, still_draw_next, still_kisIfDue, kept_draw_next, kept_onEntry] | split | with_reducible apply kept_onlyIf | with_reducible apply kept_each | with_reducible apply kept_ite | with_reducible apply kept_writeAs | with_reducible apply kept_draw_next | with_reducible apply kept_onEntry | (intro _ _ _) | (intro _ _))

theorem kept_goesOn {pq : List Instr} (s : State)  (hk : Kept pq (still s)) :
    Kept pq (still (State.goesOn s)) := by
  unfold State.goesOn
  repeat' (first | with_reducible assumption | simp only [still_lit, still_mk, hk, implies_true, forall_const, id_eq, kept_drawsServed, kept_generateDue] | split | with_reducible apply kept_onlyIf | with_reducible apply kept_each | with_reducible apply kept_ite | with_reducible apply kept_writeAs | with_reducible apply kept_drawsServed | with_reducible apply kept_generateDue | (intro _ _ _) | (intro _ _))

theorem kept_rootGiven {pq : List Instr} (s : State) (array r : Bytes)  (hk : Kept pq (still s)) :
    Kept pq (still (State.rootGiven s array r)) := by
  unfold State.rootGiven
  repeat' (first | with_reducible assumption | simp only [still_lit, still_mk, hk, implies_true, forall_const, id_eq, still_loadBlobs, still_deriveClasses, kept_generateDue] | split | with_reducible apply kept_onlyIf | with_reducible apply kept_each | with_reducible apply kept_ite | with_reducible apply kept_writeAs | with_reducible apply kept_generateDue | (intro _ _ _) | (intro _ _))

theorem kept_rootAttempt {pq : List Instr} (array : Bytes) (s : State)  (hk : Kept pq (still s)) :
    Kept pq (still (rootAttempt array s)) := by
  unfold rootAttempt
  repeat' (first | with_reducible assumption | simp only [still_lit, still_mk, hk, implies_true, forall_const, id_eq, still_srf, still_srb, still_modPower, kept_rootGiven] | split | with_reducible apply kept_onlyIf | with_reducible apply kept_each | with_reducible apply kept_ite | with_reducible apply kept_writeAs | with_reducible apply kept_rootGiven | (intro _ _ _) | (intro _ _))

theorem kept_loadImage {pq : List Instr} (s : State) (typ : Nat) (x : Nat × Bytes)  (hk : Kept pq (still s)) :
    Kept pq (still (State.loadImage s typ x)) := by
  unfold State.loadImage
  repeat' (first | with_reducible assumption | simp only [still_lit, still_mk, hk, implies_true, forall_const, id_eq, still_advanceNow, still_countStart, still_setRunning, kept_memWrite] | split | with_reducible apply kept_onlyIf | with_reducible apply kept_each | with_reducible apply kept_ite | with_reducible apply kept_writeAs | with_reducible apply kept_memWrite | (intro _ _ _) | (intro _ _))

theorem kept_runFound {pq : List Instr} (s : State) (p : Nat × Bytes) (sedge : Option (Nat × Bytes))  (hk : Kept pq (still s)) :
    Kept pq (still (State.runFound s p sedge)) := by
  unfold State.runFound
  repeat' (first | with_reducible assumption | simp only [still_lit, still_mk, hk, implies_true, forall_const, id_eq, still_onlyIf, still_runPeat, still_commitLog, still_takeOffline, still_trainPorts, still_revokeAll, still_removeSection, still_guardFlash, still_showTrial, still_modPower, still_software, kept_applyAll, kept_generateDue, kept_loadImage] | split | with_reducible apply kept_onlyIf | with_reducible apply kept_each | with_reducible apply kept_ite | with_reducible apply kept_writeAs | with_reducible apply kept_applyAll | with_reducible apply kept_generateDue | with_reducible apply kept_loadImage | (intro _ _ _) | (intro _ _))

theorem kept_finishStart {pq : List Instr} (s : State)  (hk : Kept pq (still s)) :
    Kept pq (still (State.finishStart s)) := by
  unfold State.finishStart
  repeat' (first | with_reducible assumption | simp only [still_lit, still_mk, hk, implies_true, forall_const, id_eq, still_hashJobs, still_safeStart, still_useConfig, kept_runFound] | split | with_reducible apply kept_onlyIf | with_reducible apply kept_each | with_reducible apply kept_ite | with_reducible apply kept_writeAs | with_reducible apply kept_runFound | (intro _ _ _) | (intro _ _))

theorem kept_vendorTest {pq : List Instr} (s : State)  (hk : Kept pq (still s)) :
    Kept pq (still (State.vendorTest s)) := by
  unfold State.vendorTest
  repeat' (first | with_reducible assumption | simp only [still_lit, still_mk, hk, implies_true, forall_const, id_eq, still_runPeat, still_readyEvent, still_software, kept_generateDue] | split | with_reducible apply kept_onlyIf | with_reducible apply kept_each | with_reducible apply kept_ite | with_reducible apply kept_writeAs | with_reducible apply kept_generateDue | (intro _ _ _) | (intro _ _))

theorem kept_finishTorn {pq : List Instr} (s : State)  (hk : Kept pq (still s)) :
    Kept pq (still (State.finishTorn s)) := by
  unfold State.finishTorn
  repeat' (first | with_reducible assumption | simp only [still_lit, still_mk, hk, implies_true, forall_const, id_eq, still_srb, still_rederive, still_completeTransition, kept_transition] | split | with_reducible apply kept_onlyIf | with_reducible apply kept_each | with_reducible apply kept_ite | with_reducible apply kept_writeAs | with_reducible apply kept_transition | (intro _ _ _) | (intro _ _))

theorem kept_start {pq : List Instr} (bootSel : BitVec 2) (head : Bool) (s : State)  (hk : Kept pq (still s)) :
    Kept pq (still (start bootSel head s)) := by
  unfold start
  repeat' (first | with_reducible assumption | simp only [still_lit, still_mk, hk, implies_true, forall_const, id_eq, still_askRecovery, still_safeStart, still_nextStart, still_straps, kept_finishStart, kept_vendorTest, kept_finishTorn] | split | with_reducible apply kept_onlyIf | with_reducible apply kept_each | with_reducible apply kept_ite | with_reducible apply kept_writeAs | with_reducible apply kept_finishStart | with_reducible apply kept_vendorTest | with_reducible apply kept_finishTorn | (intro _ _ _) | (intro _ _))

theorem kept_recData {pq : List Instr} (v : Word) (s : State)  (hk : Kept pq (still s)) :
    Kept pq (still (recData v s)) := by
  unfold recData
  repeat' (first | with_reducible assumption | simp only [still_lit, still_mk, hk, implies_true, forall_const, id_eq, still_srf, still_refuse, still_reads, still_askHost, still_modPower, kept_finishStart] | split | with_reducible apply kept_onlyIf | with_reducible apply kept_each | with_reducible apply kept_ite | with_reducible apply kept_writeAs | with_reducible apply kept_finishStart | (intro _ _ _) | (intro _ _))

theorem kept_sedgeReloadDone {pq : List Instr} (s : State)  (hk : Kept pq (still s)) :
    Kept pq (still (sedgeReloadDone s)) := by
  unfold sedgeReloadDone
  repeat' (first | with_reducible assumption | simp only [still_lit, still_mk, hk, implies_true, forall_const, id_eq, still_hashJobs, still_modPower, kept_memWrite, kept_resetAll] | split | with_reducible apply kept_onlyIf | with_reducible apply kept_each | with_reducible apply kept_ite | with_reducible apply kept_writeAs | with_reducible apply kept_memWrite | with_reducible apply kept_resetAll | (intro _ _ _) | (intro _ _))

theorem kept_peatFails {pq : List Instr} (s : State)  (hk : Kept pq (still s)) :
    Kept pq (still (peatFails s)) := by
  unfold peatFails
  repeat' (first | with_reducible assumption | simp only [still_lit, still_mk, hk, implies_true, forall_const, id_eq, kept_resetAll] | split | with_reducible apply kept_onlyIf | with_reducible apply kept_each | with_reducible apply kept_ite | with_reducible apply kept_writeAs | with_reducible apply kept_resetAll | (intro _ _ _) | (intro _ _))

theorem kept_loseStage3 {pq : List Instr} (s : State) (hk : Kept pq (still s)) : Kept pq (still s.loseStage3) :=
  ⟨hk.1, cellWf_filter _ hk.2.1, hk.2.2⟩

theorem kept_enterStage {pq : List Instr} (s : State) (n : Nat)  (hk : Kept pq (still s)) :
    Kept pq (still (State.enterStage s n)) := by
  unfold State.enterStage
  repeat' (first | with_reducible assumption | simp only [still_lit, still_mk, hk, implies_true, forall_const, id_eq, still_srf, still_restand, kept_enterDeep, kept_loseStage3] | split | with_reducible apply kept_onlyIf | with_reducible apply kept_each | with_reducible apply kept_ite | with_reducible apply kept_writeAs | with_reducible apply kept_enterDeep | with_reducible apply kept_loseStage3 | (intro _ _ _) | (intro _ _))

theorem kept_stageEntry {pq : List Instr} (n : Nat) (s : State)  (hk : Kept pq (still s)) :
    Kept pq (still (stageEntry n s)) := by
  unfold stageEntry
  repeat' (first | with_reducible assumption | simp only [still_lit, still_mk, hk, implies_true, forall_const, id_eq, still_modPower, kept_enterStage] | split | with_reducible apply kept_onlyIf | with_reducible apply kept_each | with_reducible apply kept_ite | with_reducible apply kept_writeAs | with_reducible apply kept_enterStage | (intro _ _ _) | (intro _ _))

theorem kept_abortJobs {pq : List Instr} (s : State)  (hk : Kept pq (still s)) :
    Kept pq (still (State.abortJobs s)) := by
  unfold State.abortJobs
  repeat' (first | with_reducible assumption | simp only [still_lit, still_mk, hk, implies_true, forall_const, id_eq, still_each, still_setLane, still_completeOne, still_spongeFail, still_endAes, still_endHsh, kept_endBn, kept_endBnSusp] | split | with_reducible apply kept_onlyIf | with_reducible apply kept_each | with_reducible apply kept_ite | with_reducible apply kept_writeAs | with_reducible apply kept_endBn | with_reducible apply kept_endBnSusp | (intro _ _ _) | (intro _ _))

theorem kept_leaveResumed {pq : List Instr} (s : State)  (hk : Kept pq (still s)) :
    Kept pq (still (State.leaveResumed s)) := by
  unfold State.leaveResumed
  repeat' (first | with_reducible assumption | simp only [still_lit, still_mk, hk, implies_true, forall_const, id_eq, still_srb, still_lfStop, still_nfcOff, still_nfcStop, still_rngPowerDown, still_uwbOff, still_roundsOff, still_moverOff, still_modPower, still_startComplete, still_monOff, still_linksOff, still_finishHost, kept_goesOn, kept_enterStage, kept_abortJobs] | split | with_reducible apply kept_onlyIf | with_reducible apply kept_each | with_reducible apply kept_ite | with_reducible apply kept_writeAs | with_reducible apply kept_goesOn | with_reducible apply kept_enterStage | with_reducible apply kept_abortJobs | (intro _ _ _) | (intro _ _))

theorem kept_headLeaves {pq : List Instr} (s : State)  (hk : Kept pq (still s)) :
    Kept pq (still (State.headLeaves s)) := by
  unfold State.headLeaves
  repeat' (first | with_reducible assumption | simp only [still_lit, still_mk, hk, implies_true, forall_const, id_eq, still_notice, kept_leaveResumed] | split | with_reducible apply kept_onlyIf | with_reducible apply kept_each | with_reducible apply kept_ite | with_reducible apply kept_writeAs | with_reducible apply kept_leaveResumed | (intro _ _ _) | (intro _ _))

theorem kept_wantsLeave {pq : List Instr} (s : State)  (hk : Kept pq (still s)) :
    Kept pq (still (State.wantsLeave s)) := by
  unfold State.wantsLeave
  repeat' (first | with_reducible assumption | simp only [still_lit, still_mk, hk, implies_true, forall_const, id_eq, still_notice, still_modPower, kept_leaveResumed, kept_headLeaves] | split | with_reducible apply kept_onlyIf | with_reducible apply kept_each | with_reducible apply kept_ite | with_reducible apply kept_writeAs | with_reducible apply kept_leaveResumed | with_reducible apply kept_headLeaves | (intro _ _ _) | (intro _ _))

theorem kept_idleExpiry {pq : List Instr} (s : State)  (hk : Kept pq (still s)) :
    Kept pq (still (idleExpiry s)) := by
  unfold idleExpiry
  repeat' (first | with_reducible assumption | simp only [still_lit, still_mk, hk, implies_true, forall_const, id_eq, kept_wantsLeave] | split | with_reducible apply kept_onlyIf | with_reducible apply kept_each | with_reducible apply kept_ite | with_reducible apply kept_writeAs | with_reducible apply kept_wantsLeave | (intro _ _ _) | (intro _ _))

theorem kept_sleepAsk {pq : List Instr} (s : State)  (hk : Kept pq (still s)) :
    Kept pq (still (sleepAsk s)) := by
  unfold sleepAsk
  repeat' (first | with_reducible assumption | simp only [still_lit, still_mk, hk, implies_true, forall_const, id_eq, still_srb, still_modPower, kept_wantsLeave] | split | with_reducible apply kept_onlyIf | with_reducible apply kept_each | with_reducible apply kept_ite | with_reducible apply kept_writeAs | with_reducible apply kept_wantsLeave | (intro _ _ _) | (intro _ _))

theorem kept_enterDsAsk {pq : List Instr} (s : State)  (hk : Kept pq (still s)) :
    Kept pq (still (enterDsAsk s)) := by
  unfold enterDsAsk
  repeat' (first | with_reducible assumption | simp only [still_lit, still_mk, hk, implies_true, forall_const, id_eq, still_srb, still_finishHost, kept_enterDeep] | split | with_reducible apply kept_onlyIf | with_reducible apply kept_each | with_reducible apply kept_ite | with_reducible apply kept_writeAs | with_reducible apply kept_enterDeep | (intro _ _ _) | (intro _ _))

theorem kept_pwrCmd {pq : List Instr} (v : Word) (s : State)  (hk : Kept pq (still s)) :
    Kept pq (still (pwrCmd v s)) := by
  unfold pwrCmd
  repeat' (first | with_reducible assumption | simp only [still_lit, still_mk, hk, implies_true, forall_const, id_eq, still_onlyIf, still_active, kept_sleepAsk, kept_enterDsAsk] | split | with_reducible apply kept_onlyIf | with_reducible apply kept_each | with_reducible apply kept_ite | with_reducible apply kept_writeAs | with_reducible apply kept_sleepAsk | with_reducible apply kept_enterDsAsk | (intro _ _ _) | (intro _ _))

theorem kept_idleNotice {pq : List Instr} (s : State)  (hk : Kept pq (still s)) :
    Kept pq (still (idleNotice s)) := by
  unfold idleNotice
  repeat' (first | with_reducible assumption | simp only [still_lit, still_mk, hk, implies_true, forall_const, id_eq, still_modPower, kept_headLeaves] | split | refine Kept.congr (still_takeFrame (by assumption)) ?_ | with_reducible apply kept_onlyIf | with_reducible apply kept_each | with_reducible apply kept_ite | with_reducible apply kept_writeAs | with_reducible apply kept_headLeaves | (intro _ _ _) | (intro _ _))

theorem kept_sleepNotice {pq : List Instr} (s : State)  (hk : Kept pq (still s)) :
    Kept pq (still (sleepNotice s)) := by
  unfold sleepNotice
  repeat' (first | with_reducible assumption | simp only [still_lit, still_mk, hk, implies_true, forall_const, id_eq, still_notice, still_modPower, kept_leaveResumed] | split | refine Kept.congr (still_takeFrame (by assumption)) ?_ | with_reducible apply kept_onlyIf | with_reducible apply kept_each | with_reducible apply kept_ite | with_reducible apply kept_writeAs | with_reducible apply kept_leaveResumed | (intro _ _ _) | (intro _ _))

theorem kept_heronPoll {pq : List Instr} (lf : Option LfReply) (opens shorts : Nat) (ping : Ping) (ext : Bool) (s : State)  (hk : Kept pq (still s)) :
    Kept pq (still (heronPoll lf opens shorts ping ext s)) := by
  unfold heronPoll
  repeat' (first | with_reducible assumption | simp only [still_lit, still_mk, hk, implies_true, forall_const, id_eq, still_onlyIf, still_ping, still_modPower, still_pollLf, still_pollNfc, kept_resume] | split | with_reducible apply kept_onlyIf | with_reducible apply kept_each | with_reducible apply kept_ite | with_reducible apply kept_writeAs | with_reducible apply kept_resume | (intro _ _ _) | (intro _ _))

theorem kept_lineWake {pq : List Instr} (p : Nat) (s : State)  (hk : Kept pq (still s)) :
    Kept pq (still (lineWake p s)) := by
  unfold lineWake
  repeat' (first | with_reducible assumption | simp only [still_lit, still_mk, hk, implies_true, forall_const, id_eq, kept_resume] | split | with_reducible apply kept_onlyIf | with_reducible apply kept_each | with_reducible apply kept_ite | with_reducible apply kept_writeAs | with_reducible apply kept_resume | (intro _ _ _) | (intro _ _))

/-! ### Faults -/

theorem kept_noteAlarm {pq : List Instr} (s : State) (source detail : Nat)  (hk : Kept pq (still s)) :
    Kept pq (still (State.noteAlarm s source detail)) := by
  unfold State.noteAlarm
  repeat' (first | with_reducible assumption | simp only [still_lit, still_mk, hk, implies_true, forall_const, id_eq, still_setReg, still_srf, still_srb, still_raise] | split | with_reducible apply kept_onlyIf | with_reducible apply kept_each | with_reducible apply kept_ite | with_reducible apply kept_writeAs | (intro _ _ _) | (intro _ _))

theorem kept_alarmJobs {pq : List Instr} (s : State)  (hk : Kept pq (still s)) :
    Kept pq (still (State.alarmJobs s)) := by
  unfold State.alarmJobs
  repeat' (first | with_reducible assumption | simp only [still_lit, still_mk, hk, implies_true, forall_const, id_eq, still_endAes, still_endHsh, kept_endBn, kept_endBnSusp] | split | with_reducible apply kept_onlyIf | with_reducible apply kept_each | with_reducible apply kept_ite | with_reducible apply kept_writeAs | with_reducible apply kept_endBn | with_reducible apply kept_endBnSusp | (intro _ _ _) | (intro _ _))

theorem kept_storm {pq : List Instr} (s : State)  (hk : Kept pq (still s)) :
    Kept pq (still (State.storm s)) := by
  unfold State.storm
  repeat' (first | with_reducible assumption | simp only [still_lit, still_mk, hk, implies_true, forall_const, id_eq, still_srb, still_bumpSat, kept_resetAll] | split | with_reducible apply kept_onlyIf | with_reducible apply kept_each | with_reducible apply kept_ite | with_reducible apply kept_writeAs | with_reducible apply kept_resetAll | (intro _ _ _) | (intro _ _))

theorem kept_alarm {pq : List Instr} (s : State) (source detail : Nat)  (hk : Kept pq (still s)) :
    Kept pq (still (State.alarm s source detail)) := by
  unfold State.alarm
  repeat' (first | with_reducible assumption | simp only [still_lit, still_mk, hk, implies_true, forall_const, id_eq, still_rngAlarm, still_relStop, still_alarmDecision, still_alarmFronts, kept_peatGoesOn, kept_noteAlarm, kept_alarmJobs, kept_storm] | split | with_reducible apply kept_onlyIf | with_reducible apply kept_each | with_reducible apply kept_ite | with_reducible apply kept_writeAs | with_reducible apply kept_peatGoesOn | with_reducible apply kept_noteAlarm | with_reducible apply kept_alarmJobs | with_reducible apply kept_storm | (intro _ _ _) | (intro _ _))

theorem kept_alarmTrips {pq : List Instr} (sources detail : Nat) (s : State) (hk : Kept pq (still s)) :
    Kept pq (still (alarmTrips sources detail s)) := by
  unfold alarmTrips
  split
  · exact hk
  · split
    · exact kept_alarm _ _ _ (Kept.congr (still_noteTrips _ s) hk)
    · exact hk

theorem kept_memAlarm {pq : List Instr} (s : State) (detail : Nat)  (hk : Kept pq (still s)) :
    Kept pq (still (State.memAlarm s detail)) := by
  unfold State.memAlarm
  repeat' (first | with_reducible assumption | simp only [still_lit, still_mk, hk, implies_true, forall_const, id_eq, still_noteTrip, kept_alarmJobs, kept_alarm] | split | with_reducible apply kept_onlyIf | with_reducible apply kept_each | with_reducible apply kept_ite | with_reducible apply kept_writeAs | with_reducible apply kept_alarmJobs | with_reducible apply kept_alarm | (intro _ _ _) | (intro _ _))

theorem kept_doubleBit {pq : List Instr} (mem place : Nat) (reader : Master) (s : State)  (hk : Kept pq (still s)) :
    Kept pq (still (doubleBit mem place reader s)) := by
  unfold doubleBit
  repeat' (first | with_reducible assumption | simp only [still_lit, still_mk, hk, implies_true, forall_const, id_eq, still_bump, still_accessFault, still_place, still_answer, still_moverMeets, still_itemError, still_slotError, kept_omWrite, kept_setWayWord, kept_memAlarm] | split | with_reducible apply kept_onlyIf | with_reducible apply kept_each | with_reducible apply kept_ite | with_reducible apply kept_writeAs | with_reducible apply kept_omWrite | with_reducible apply kept_setWayWord | with_reducible apply kept_memAlarm | (intro _ _ _) | (intro _ _))

/-! ### Bus -/

theorem kept_chnCtl {pq : List Instr} (n : Nat) (v : Word) (s : State)  (hk : Kept pq (still s)) :
    Kept pq (still (chnCtl n v s)) := by
  unfold chnCtl
  repeat' (first | with_reducible assumption | simp only [still_lit, still_mk, hk, implies_true, forall_const, id_eq, still_srf, still_onlyIf, still_channelStart, still_channelStop, kept_channelAbort, kept_peatGoesOn] | split | with_reducible apply kept_onlyIf | with_reducible apply kept_each | with_reducible apply kept_ite | with_reducible apply kept_writeAs | with_reducible apply kept_channelAbort | with_reducible apply kept_peatGoesOn | (intro _ _ _) | (intro _ _))

theorem kept_kstCmd {pq : List Instr} (v : Word) (s : State)  (hk : Kept pq (still s)) :
    Kept pq (still (kstCmd v s)) := by
  unfold kstCmd
  repeat' (first | with_reducible assumption | simp only [still_lit, still_mk, hk, implies_true, forall_const, id_eq, still_srf, still_freeBytes, kept_kstGo] | split | with_reducible apply kept_onlyIf | with_reducible apply kept_each | with_reducible apply kept_ite | with_reducible apply kept_writeAs | with_reducible apply kept_kstGo | (intro _ _ _) | (intro _ _))

theorem kept_writeFront {pq : List Instr} (a : Nat) (v : Word) (s : State)  (hk : Kept pq (still s)) :
    Kept pq (still (writeFront a v s)) := by
  unfold writeFront
  repeat' (first | with_reducible assumption | simp only [still_lit, still_mk, hk, implies_true, forall_const, id_eq, still_onlyIf, still_lfCarrier, still_tagHcmd, still_tagIsack, still_nextVerdict, still_fuseWrite, still_mapWrite, still_storeReg, still_drvWrite, still_uwbPortWrite, kept_peatGoesOn] | split | with_reducible apply kept_onlyIf | with_reducible apply kept_each | with_reducible apply kept_ite | with_reducible apply kept_writeAs | with_reducible apply kept_peatGoesOn | (intro _ _ _) | (intro _ _))

theorem kept_writeQueue {pq : List Instr} (a : Nat) (v : Word) (s : State)  (hk : Kept pq (still s)) :
    Kept pq (still (writeQueue a v s)) := by
  unfold writeQueue
  repeat' (first | with_reducible assumption | simp only [still_lit, still_mk, hk, implies_true, forall_const, id_eq, still_monCtl, still_cmpWrite, still_storeReg, still_mvCtl, kept_flushMask] | split | with_reducible apply kept_onlyIf | with_reducible apply kept_each | with_reducible apply kept_ite | with_reducible apply kept_writeAs | with_reducible apply kept_flushMask | (intro _ _ _) | (intro _ _))

theorem kept_writeSystem {pq : List Instr} (a : Nat) (v : Word) (s : State) (hk : Kept pq (still s)) :
    Kept pq (still (writeSystem a v s)) := by
  have hx : Kept pq (still (s.onlyIf (bit v 31) prxClear)) := kept_onlyIf s _ _ (fun s h => Kept.congr (still_prxClear s) h) hk
  have e : ∀ t : State, still t = still s → Kept pq (still t) := fun t h => Kept.congr h hk
  unfold writeSystem
  exact kept_ite _ _ _ (kept_pwrCmd v s hk) <| kept_ite _ _ _ (e _ (still_kickWdt v s)) <|
    kept_ite _ _ _ (e _ (still_setReg s a _)) <| kept_ite _ _ _ (kept_chnCtl _ v s hk) <|
    kept_ite _ _ _ (e _ (still_relCtl v s)) <| kept_ite _ _ _ (kept_kstCmd v s hk) <|
    kept_ite _ _ _ (e _ (still_trngCtl v s)) <| kept_ite _ _ _ (e _ (still_portReq v s)) <|
    kept_ite _ _ _ (kept_mapqWrite v s hk) <| kept_ite _ _ _ (e _ (still_pcmdWrite v s)) <|
    kept_ite _ _ _ (e _ (still_plandWrite v s)) <| kept_ite _ _ _ hx <|
    kept_ite _ _ _ (e _ (still_attnWrite v s)) <| kept_ite _ _ _ (kept_recData v s hk) <|
    kept_ite _ _ _ (e _ (still_pmcfgWrite _ v s)) <| kept_ite _ _ _ (e _ (still_selWrite _ _ v s)) <|
    e _ (still_storeReg a v s)

theorem kept_plainWrite {pq : List Instr} (a : Nat) (v : Word) (s : State)  (hk : Kept pq (still s)) :
    Kept pq (still (plainWrite a v s)) := by
  unfold plainWrite
  repeat' (first | with_reducible assumption | simp only [still_lit, still_mk, hk, implies_true, forall_const, id_eq, still_storeReg, kept_writeFront, kept_writeQueue, kept_writeSystem] | split | with_reducible apply kept_onlyIf | with_reducible apply kept_each | with_reducible apply kept_ite | with_reducible apply kept_writeAs | with_reducible apply kept_writeFront | with_reducible apply kept_writeQueue | with_reducible apply kept_writeSystem | (intro _ _ _) | (intro _ _))

theorem kept_regWrite {pq : List Instr} (a : Nat) (v : Word) (s : State) (hk : Kept pq (still s)) :
    Kept pq (still (regWrite a v s)) := Kept.congr (still_spoil s a v _) (kept_plainWrite a v s hk)

theorem kept_tableStore {pq : List Instr} (s : State) (a : Nat)  (hk : Kept pq (still s)) :
    Kept pq (still (State.tableStore s a)) := by
  unfold State.tableStore
  repeat' (first | with_reducible assumption | simp only [still_lit, still_mk, hk, implies_true, forall_const, id_eq, still_freeBytes, kept_memWrite] | split | with_reducible apply kept_onlyIf | with_reducible apply kept_each | with_reducible apply kept_ite | with_reducible apply kept_writeAs | with_reducible apply kept_memWrite | (intro _ _ _) | (intro _ _))

theorem kept_busWrite {pq : List Instr} (m rights : Master) (user : Bool) (a : Nat) (v : Word) (s : State)  (hk : Kept pq (still s)) :
    Kept pq (still (busWrite m rights user a v s)) := by
  unfold busWrite
  repeat' (first | with_reducible assumption | simp only [still_lit, still_mk, hk, implies_true, forall_const, id_eq, still_refuse, still_accessFault, still_access, still_writeAs, still_windowAs, still_windowWrite, kept_memWrite, kept_omTouch, kept_regWrite, kept_tableStore] | split | with_reducible apply kept_onlyIf | with_reducible apply kept_each | with_reducible apply kept_ite | with_reducible apply kept_writeAs | with_reducible apply kept_memWrite | with_reducible apply kept_omTouch | with_reducible apply kept_regWrite | with_reducible apply kept_tableStore | (intro _ _ _) | (intro _ _))

theorem kept_registerWrite {pq : List Instr} (m : Master) (user : Bool) (a : Nat) (v : Word) (s : State)  (hk : Kept pq (still s)) :
    Kept pq (still (registerWrite m user a v s)) := by
  unfold registerWrite
  repeat' (first | with_reducible assumption | simp only [still_lit, still_mk, hk, implies_true, forall_const, id_eq, still_accessFault, kept_abortCall, kept_busWrite] | split | with_reducible apply kept_onlyIf | with_reducible apply kept_each | with_reducible apply kept_ite | with_reducible apply kept_writeAs | with_reducible apply kept_abortCall | with_reducible apply kept_busWrite | (intro _ _ _) | (intro _ _))

/-! ### Mover -/

theorem kept_mvStore {pq : List Instr} (s : State) (rights : Master) (a : Nat) (b : Bytes)  (hk : Kept pq (still s)) :
    Kept pq (still (State.mvStore s rights a b)) := by
  unfold State.mvStore
  repeat' (first | with_reducible assumption | simp only [still_lit, still_mk, hk, implies_true, forall_const, id_eq, still_each, still_mvAccesses, kept_memWrite, kept_omTouch, kept_tableStore, kept_busWrite] | split | with_reducible apply kept_onlyIf | with_reducible apply kept_each | with_reducible apply kept_ite | with_reducible apply kept_writeAs | with_reducible apply kept_memWrite | with_reducible apply kept_omTouch | with_reducible apply kept_tableStore | with_reducible apply kept_busWrite | (intro _ _ _) | (intro _ _))

theorem kept_mvQ2M {pq : List Instr} (rights : Master) (d : List Word) (s : State)  (hk : Kept pq (still s)) :
    Kept pq (still (mvQ2M rights d s).2) := by
  unfold mvQ2M
  repeat' (first | with_reducible assumption | simp only [still_lit, still_mk, hk, implies_true, forall_const, id_eq, still_takeHead, still_countBroken, still_mvRefuse, still_mvItems, kept_mvStore] | split | with_reducible apply kept_onlyIf | with_reducible apply kept_each | with_reducible apply kept_ite | with_reducible apply kept_writeAs | with_reducible apply kept_mvStore | (intro _ _ _) | (intro _ _))

theorem kept_mvM2M {pq : List Instr} (rights : Master) (d : List Word) (s : State)  (hk : Kept pq (still s)) :
    Kept pq (still (mvM2M rights d s).2) := by
  unfold mvM2M
  repeat' (first | with_reducible assumption | simp only [still_lit, still_mk, hk, implies_true, forall_const, id_eq, still_mvRefuse, still_mvLoad, kept_mvStore] | split | with_reducible apply kept_onlyIf | with_reducible apply kept_each | with_reducible apply kept_ite | with_reducible apply kept_writeAs | with_reducible apply kept_mvStore | (intro _ _ _) | (intro _ _))

theorem kept_mvRun {pq : List Instr} (rights : Master) (d : List Word) (s : State)  (hk : Kept pq (still s)) :
    Kept pq (still (mvRun rights d s).2) := by
  unfold mvRun
  repeat' (first | with_reducible assumption | simp only [still_lit, still_mk, hk, implies_true, forall_const, id_eq, still_mvM2Q, still_mvQ2Q, kept_mvQ2M, kept_mvM2M] | split | with_reducible apply kept_onlyIf | with_reducible apply kept_each | with_reducible apply kept_ite | with_reducible apply kept_writeAs | with_reducible apply kept_mvQ2M | with_reducible apply kept_mvM2M | (intro _ _ _) | (intro _ _))

theorem kept_mvMixed {pq : List Instr} (s : State) (ch : Nat) (rights : Master) (d : List Word)  (hk : Kept pq (still s)) :
    Kept pq (still (State.mvMixed s ch rights d)) := by
  unfold State.mvMixed
  repeat' (first | with_reducible assumption | simp only [still_lit, still_mk, hk, implies_true, forall_const, id_eq, still_freeBytes, still_onlyIf, still_each, still_freeIn, still_freeLane, kept_memWrite, kept_omTouch] | split | with_reducible apply kept_onlyIf | with_reducible apply kept_each | with_reducible apply kept_ite | with_reducible apply kept_writeAs | with_reducible apply kept_memWrite | with_reducible apply kept_omTouch | (intro _ _ _) | (intro _ _))

theorem kept_descriptorDone {pq : List Instr} (ch : Nat) (s : State)  (hk : Kept pq (still s)) :
    Kept pq (still (descriptorDone ch s)) := by
  unfold descriptorDone
  repeat' (first | with_reducible assumption | simp only [still_lit, still_mk, hk, implies_true, forall_const, id_eq, still_mvEnded, still_mvHeld, kept_mvRun, kept_mvMixed] | split | with_reducible apply kept_onlyIf | with_reducible apply kept_each | with_reducible apply kept_ite | with_reducible apply kept_writeAs | with_reducible apply kept_mvRun | with_reducible apply kept_mvMixed | (intro _ _ _) | (intro _ _))

/-! ### Host -/

theorem kept_notReady {pq : List Instr} (s : State) (n : Nat)  (hk : Kept pq (still s)) :
    Kept pq (still (State.notReady s n)) := by
  unfold State.notReady
  repeat' (first | with_reducible assumption | simp only [still_lit, still_mk, hk, implies_true, forall_const, id_eq, still_onlyIf, kept_resume] | split | with_reducible apply kept_onlyIf | with_reducible apply kept_each | with_reducible apply kept_ite | with_reducible apply kept_writeAs | with_reducible apply kept_resume | (intro _ _ _) | (intro _ _))

theorem kept_hostWriteWord {pq : List Instr} (sp : Bool) (a : Nat) (v : Word) (s : State)  (hk : Kept pq (still s)) :
    Kept pq (still (hostWriteWord sp a v s)) := by
  unfold hostWriteWord
  repeat' (first | with_reducible assumption | simp only [still_lit, still_mk, hk, implies_true, forall_const, id_eq, still_freeW, still_onlyIf, still_modPower, still_refuseWord, still_spoilBlock, kept_busWrite] | split | with_reducible apply kept_onlyIf | with_reducible apply kept_each | with_reducible apply kept_ite | with_reducible apply kept_writeAs | with_reducible apply kept_busWrite | (intro _ _ _) | (intro _ _))

theorem kept_applyBuf {pq : List Instr} (s : State)  (hk : Kept pq (still s)) :
    Kept pq (still (applyBuf s)) := by
  unfold applyBuf
  repeat' (first | with_reducible assumption | simp only [still_lit, still_mk, hk, implies_true, forall_const, id_eq, still_each, kept_hostWriteWord] | split | with_reducible apply kept_onlyIf | with_reducible apply kept_each | with_reducible apply kept_ite | with_reducible apply kept_writeAs | with_reducible apply kept_hostWriteWord | (intro _ _ _) | (intro _ _))

theorem kept_hostWriteTxn {pq : List Instr} (m : Bytes) (s : State)  (hk : Kept pq (still s)) :
    Kept pq (still (hostWriteTxn m s)) := by
  unfold hostWriteTxn
  repeat' (first | with_reducible assumption | simp only [still_lit, still_mk, hk, implies_true, forall_const, id_eq, still_ended, still_active, still_sends, still_refuseTxn, kept_notReady] | split | with_reducible apply kept_onlyIf | with_reducible apply kept_each | with_reducible apply kept_ite | with_reducible apply kept_writeAs | with_reducible apply kept_notReady | (intro _ _ _) | (intro _ _))

theorem kept_hostReadTxn {pq : List Instr} (m : Bytes) (s : State)  (hk : Kept pq (still s)) :
    Kept pq (still (hostReadTxn m s)) := by
  unfold hostReadTxn
  repeat' (first | with_reducible assumption | simp only [still_lit, still_mk, hk, implies_true, forall_const, id_eq, still_freeW, still_onlyIf, still_ended, still_active, still_reply, still_sends, still_refuseTxn, still_readWords, kept_notReady, kept_applyBuf] | split | with_reducible apply kept_onlyIf | with_reducible apply kept_each | with_reducible apply kept_ite | with_reducible apply kept_writeAs | with_reducible apply kept_notReady | with_reducible apply kept_applyBuf | (intro _ _ _) | (intro _ _))

theorem kept_hostStatusTxn {pq : List Instr} (s : State)  (hk : Kept pq (still s)) :
    Kept pq (still (hostStatusTxn s)) := by
  unfold hostStatusTxn
  repeat' (first | with_reducible assumption | simp only [still_lit, still_mk, hk, implies_true, forall_const, id_eq, still_ended, still_sends, kept_notReady] | split | with_reducible apply kept_onlyIf | with_reducible apply kept_each | with_reducible apply kept_ite | with_reducible apply kept_writeAs | with_reducible apply kept_notReady | (intro _ _ _) | (intro _ _))

end Laws
end Sys2Proof
end

