-- ==== Sys2Proof/WellFormed.lean ====
section
/-!
DEFINITION. Well-formed commands: every operand lies in the range that the spec gives it. A meaning takes any operand; an
operand out of range names nothing that the device has, and leaves the state as it is (log entry 13).
-/
namespace Sys2Proof

/-- A lane of a queue's windows: 16 queues of two lanes (R392). -/
def laneOk (q lane : Nat) : Bool := decide (q < 16 ∧ lane < 2)

/-- Bytes on HOST_MOSI whose command byte has an OP (R430). -/
def cmdIs (op : Nat) (mosi : Bytes) : Bool := decide (mosi ≠ [] ∧ (mosi.headD 0).toNat / 64 = op)

/-- One of the four classes, or of the 64 entries (R258, R266). -/
def LockTarget.wf : LockTarget → Bool
  | .cls c => decide (c < 4)
  | .entry n => decide (n < 64)

/-- A frame of the token has its CRC-8, and at most 8 bytes before it (R127). -/
def LfReply.wf : LfReply → Bool
  | .frame b => decide (1 ≤ b.length ∧ b.length ≤ 9)
  | _ => true

/-- What the measurement of a frame holds: four chains and 40-bit times (R222). -/
def FirstPath.wf (f : FirstPath) : Bool :=
  decide (f.chains.length = 4 ∧ f.pre < 2 ^ 40) && f.chains.all fun c => decide (c.peak < 2 ^ 40)

/-- The drivers found open or shorted are among the four aerials' (R120). -/
def LfConditions.wf (c : LfConditions) : Bool := decide (c.opens < 16 ∧ c.shorts < 16)

/-- The command's operands lie in the ranges that the spec gives them. -/
def Instr.wf : Instr → Bool
  | .start _ _ => true
  | .rootAttempt array => decide (array.length = 8192)
  | .lineActivityWake _ => true
  | .stageEntry n => decide (1 ≤ n ∧ n ≤ 4)
  | .heronPoll lf _ _ opens shorts => decide (opens < 16 ∧ shorts < 16) && (match lf with | some r => r.wf | none => true)
  | .activity _ => true
  | .enterDs _ => true
  | .sleep _ => true
  | .kick _ => true
  | .debugChallenge _ => true
  | .debugToken _ => true
  | .ecallHash _ => true
  | .ecallRandomWords count => decide (count < 2 ^ 32)
  | .ecallOwnCounters which _ => decide (which < 2)
  | .ecallKeyStore slot => decide (slot < 64)
  | .ecallReply _ _ _ _ => true
  | .channelStart _ ch => decide (ch < 128)
  | .channelStop _ ch => decide (ch < 128)
  | .channelAbort _ ch => decide (ch < 128)
  | .channelIdle ch => decide (ch < 128)
  | .idleTimeout ss => decide (ss < 256)
  | .offerTimeout ss => decide (ss < 256)
  | .sessionFree ss => decide (ss < 256)
  | .lfWake ch => decide (ch < 128)
  | .lfAuth ch => decide (ch < 128)
  | .lfLocate ch => decide (ch < 128)
  | .lfTune ch => decide (ch < 128)
  | .lfMeasure ch => decide (ch < 128)
  | .lfExchangeStart obs => obs.wf
  | .lfAnswer reply => reply.wf
  | .lfCarrierWrite _ _ => true
  | .fieldOn ch _ => decide (ch < 128)
  | .fieldOff ch => decide (ch < 128)
  | .activateA ch _ => decide (ch < 128)
  | .activateB ch _ => decide (ch < 128)
  | .exchange ch => decide (ch < 128)
  | .raw ch _ => decide (ch < 128)
  | .deselect ch => decide (ch < 128)
  | .detect ch _ _ => decide (ch < 128)
  | .nfcCardAnswer _ => true
  | .tagAnticollision bits _ => decide (bits < 40)
  | .tagSelect uid => decide (uid.length = 4)
  | .tagPps dri dsi => decide (dri < 4 ∧ dsi < 4)
  | .selectOther _ => true
  | .forwardedApdu _ => true
  | .islandAuth tid np macP _ => decide (tid.length = 4 ∧ np.length = 16 ∧ macP.length = 8)
  | .readRecord p1 p2 => decide (p1 < 256 ∧ p2 < 256)
  | .updateRecord p1 p2 data _ => decide (p1 < 256 ∧ p2 < 256 ∧ data.length ≤ 255)
  | .islandStatus vstoreMv => decide (vstoreMv < 65536)
  | .unknownApdu cla ins => decide (cla < 256 ∧ ins < 256)
  | .pulseEnd _ => true
  | .tagIsack _ _ => true
  | .hostRecordRead _ _ => true
  | .hostRecordWrite _ _ => true
  | .fieldWriteEnd _ => true
  | .uwbTx ch => decide (ch < 128)
  | .uwbRx ch => decide (ch < 128)
  | .uwbSleep ch => decide (ch < 128)
  | .uwbStandby ch => decide (ch < 128)
  | .uwbSynth ch => decide (ch < 128)
  | .uwbCal ch => decide (ch < 128)
  | .uwbTune ch => decide (ch < 128)
  | .uwbWalkStart _ _ => true
  | .uwbTransitionDone _ _ _ => true
  | .uwbArmPoint _ => true
  | .uwbTxDone ts => decide (ts < 2 ^ 40)
  | .uwbFrameReceived ts payload _ => decide (ts < 2 ^ 40 ∧ payload.length ≤ 125)
  | .uwbWindowClose _ => true
  | .statusUpdate _ => true
  | .vbatRise _ => true
  | .backgroundRecal kind port _ _ _ => decide (1 ≤ kind ∧ kind ≤ 3 ∧ port < 4)
  | .liveClear _ => true
  | .respReceived fp => fp.wf
  | .reportReceived fp payload => decide (payload.length ≤ 125) && fp.wf
  | .next _ => true
  | .fusedRequest _ _ => true
  | .mapSet _ _ => true
  | .mapClr _ _ => true
  | .mapqGo _ _ => true
  | .lockEnd target => target.wf
  | .relGo _ => true
  | .relStop _ => true
  | .generate _ => true
  | .unwrap _ => true
  | .derive _ => true
  | .kstCopy _ => true
  | .loadEntry _ => true
  | .storeEntry _ => true
  | .erase _ => true
  | .cntInc _ => true
  | .cntSet _ => true
  | .rootEnrol _ array => decide (array.length = 8192)
  | .epochAdv _ => true
  | .poolComplete pool => decide (pool.length = 256)
  | .healthFailure sources _ _ => decide (sources < 256)
  | .restart _ => true
  | .portreqGo _ _ => true
  | .trngOutRead _ => true
  | .reseedDue engine => decide (engine < 3)
  | .generatorStopped engine => decide (engine < 3)
  | .aesJobCompletion _ => true
  | .bnJobCompletion _ => true
  | .hshJobCompletion _ => true
  | .pushTag _ q lane _ => laneOk q lane
  | .pushData _ q lane _ => laneOk q lane
  | .pushEmpty _ q lane _ => laneOk q lane
  | .cancel _ q lane => laneOk q lane
  | .pop _ q lane => laneOk q lane
  | .flush _ _ => true
  | .pflush _ _ => true
  | .moverGo _ ch => decide (ch < 8)
  | .moverStop _ ch => decide (ch < 8)
  | .armedDescriptorStart ch => decide (ch < 8)
  | .descriptorDone ch => decide (ch < 8)
  | .timerWrap n => decide (n < 16)
  | .compare n c => decide (n < 16 ∧ c < 4)
  | .timerStep n => decide (n < 16)
  | .gpio1Edge _ => true
  | .cmpWrite _ n c _ => decide (n < 16 ∧ c < 4)
  | .periodWrite _ n _ => decide (n < 16)
  | .sequenceGo _ seqs => decide (seqs < 16)
  | .monAbort _ => true
  | .conversionSlotEnd code => decide (code < 4096)
  | .hostRead mosi => cmdIs 0 mosi
  | .hostWrite mosi => cmdIs 1 mosi
  | .hostStatus cmd => decide (128 ≤ cmd.toNat)
  | .recdataWrite _ => true
  | .portUp _ => true
  | .linkLoss _ => true
  | .retransmissionTimeout _ => true
  | .frameArrival _ _ _ => true
  | .ack _ _ => true
  | .nak _ _ => true
  | .pcmdKey _ _ => true
  | .pcmdClose _ _ => true
  | .pcmdSwitch _ _ => true
  | .prxNewClear _ => true
  | .ttExchange t1 => decide (t1 < 2 ^ 40)
  | .mark _ t sent => decide (t < 2 ^ 40 ∧ sent < 2 ^ 40)
  | .ttFit link uncPs => decide (link < 32 ∧ uncPs ≤ 20)
  | .alarm sources detail => decide (2 ≤ sources ∧ sources < 256 ∧ detail < 256)
  | .offlineAlarm sources detail => decide (2 ≤ sources ∧ sources < 256 ∧ detail < 256)
  | .memoryDoubleBitError mem _ _ => decide (mem < 6)
  | .monitorWindowEnd n => decide (n < 6)
  | .selWrite _ b k _ => decide (b < 25 ∧ k < 4)
  | .governorReading tj => decide (-32768 ≤ tj ∧ tj < 32768)
  | .registerWrite _ _ addr _ => decide (addr < 2 ^ 32)
  | .rlLowRead _ addr => decide (addr < 2 ^ 32)
  | .timerTick n => decide (n < 16)
  | .lineLock _ => true
  | .singleBitError mem => decide (mem < 6)
  | .lfExchangeEnd _ peaks => decide (peaks.length ≤ 12)
  | .uwbCondsSample _ _ => true
  | .txBudgetRefill _ => true
  | .failureWindowExpiry target => target.wf
  | .chargeEvent => true
  | .vbatLow => true
  | .vdrvLow => true
  | .brownOut => true
  | .resetN => true
  | .supplyTimeout => true
  | .regEnRetry => true
  | .xoTimeout => true
  | .wakeIn => true
  | .hostCsWake => true
  | .rcTimerWake => true
  | .idleMsExpiry => true
  | .sedgeReloadDone => true
  | .sedgeWatchdogExpiry => true
  | .peatWatchdogExpiry => true
  | .peatException => true
  | .sessionOpen => true
  | .sessionClose => true
  | .keyAgree => true
  | .credCheck => true
  | .record => true
  | .byToken => true
  | .phone => true
  | .bind => true
  | .unlockReq => true
  | .startReq => true
  | .startDeadline => true
  | .keyGen => true
  | .keyImport => true
  | .attest => true
  | .cfgReplace => true
  | .replacementCommit => true
  | .drainTimeout => true
  | .imageStage => true
  | .imageActivate => true
  | .peatSwap => true
  | .swapTimeout => true
  | .imageConfirm => true
  | .lcsTransition => true
  | .nonceExpiry => true
  | .debugPassword => true
  | .pwdLockExpiry => true
  | .counterRead => true
  | .perfGrantQuery => true
  | .echo => true
  | .appletCall => true
  | .ecallSessionSlot => true
  | .appletBudgetExpiry => true
  | .appletAccessFault => true
  | .lfWindowClose => true
  | .guardExpiry => true
  | .fwtExpiry => true
  | .fieldPresence => true
  | .islandReady => true
  | .fieldLoss => true
  | .tagReqa => true
  | .tagWupa => true
  | .tagRats => true
  | .selectIsland => true
  | .forwardAnswer => true
  | .forwardTimeout => true
  | .wtxFwtExpiry => true
  | .unlock => true
  | .vstoreCharged => true
  | .vstoreTimeout => true
  | .isackTimeout => true
  | .islandDecision => true
  | .islandGlitch => true
  | .lockLost => true
  | .holdExpiry => true
  | .sleepAfterExpiry => true
  | .roundStart => true
  | .plan => true
  | .planDeadline => true
  | .slotPlacement => true
  | .slotEnd => true
  | .remoteVerdict => true
  | .fusedRoundStart => true
  | .arrivalTimes => true
  | .fusionTimeout => true
  | .waveformEnd => true
  | .pinMismatch => true
  | .settlingEnd => true
  | .startupTestsPassed => true
  | .aesXts => true
  | .aesGcm => true
  | .aesCcm => true
  | .aesCmac => true
  | .aesKw => true
  | .aesRec => true
  | .aesEcbDerive => true
  | .modAdd => true
  | .modSub => true
  | .modMul => true
  | .montSetup => true
  | .modExp => true
  | .modInv => true
  | .modRed => true
  | .copy => true
  | .copyRev => true
  | .clear => true
  | .p256Mul => true
  | .p256Mulg => true
  | .p256Check => true
  | .p256Sign => true
  | .p256Verify => true
  | .p384Mul => true
  | .p384Mulg => true
  | .p384Check => true
  | .p384Sign => true
  | .p384Verify => true
  | .x25519 => true
  | .x25519Base => true
  | .ed25519Verify => true
  | .ntt => true
  | .intt => true
  | .basemul => true
  | .padd => true
  | .psub => true
  | .kemKeygen => true
  | .kemEncaps => true
  | .kemDecaps => true
  | .bnYieldPoint => true
  | .sha3256 => true
  | .sha3512 => true
  | .shake128 => true
  | .shake256 => true
  | .kmac256 => true
  | .xmssVerify => true
  | .xmssSign => true
  | .xmssKeygen => true
  | .writeBufferApply => true
  | .recoveryTimeout => true
  | .enum => true
  | .enumAck => true
  | .roster => true
  | .aligned => true
  | .lost => true
  | .join => true
  | .enumGo => true
  | .dataFrameReceived => true
  | .keyFrameReceived => true
  | .closeFrameReceived => true
  | .switchReceived => true
  | .receipt => true
  | .receiptTimeout => true
  | .activityNotice => true
  | .chainWakeNotice => true
  | .idleNotice => true
  | .busyNotice => true
  | .sleepNotice => true
  | .timeUpdate => true
  | .snapshot => true
  | .vdrvRise => true
  | .alignExpiry => true
  | .byTokenTimeout => true
  | .hcmdDone => true

end Sys2Proof
end

