-- ==== Sys2Proof/Tests/Slice0.lean ====
section
/-!
SUPPORT. Tests: an ill-formed term for each check of WellFormed, values from the spec's examples, and states that meet the
hypotheses of the statements.
-/
namespace Sys2Proof
namespace Tests

open Sys2Proof.Machine Sys2Proof.Safety

set_option Elab.async false

/-- The state a command answers. -/
def nextOf : Result → Option State
  | .next s => some s
  | _ => none

/-- Reset, resumed, with Sedge running. -/
def on : State :=
  ({ State.reset with power := { Power.reset with mode := .resumed, sedgeRuns := true } }).runPeat

/-- A request of these words waits for Peat. -/
def mail (s : State) (ws : List Word) : State := s.setLane 15 { laneNil with committed := [wordsPacket 0 0x33 ws] }

/-- The packet of that request. -/
def req (ws : List Word) : Packet := wordsPacket 0 0x33 ws

/-- Resumed, with the random source running. -/
def onR : State := on.srf aTRNG_STATUS 2 0 rngRunning

/-- The random source has given Peat bytes. -/
def drawn (s : State) (b : Bytes) : State := { s with trng := { s.trng with served := [(.peat, cOk, b)] } }

/-- The bytes of an NFC section with one record of 16 bytes, free to read and to write by the field and the host. -/
def tagBytes : Bytes := [1, 1, 8, 0, 0, 0, 0, 3] ++ zeros 8 ++ [0x5D]

/-- Resumed, in the field, with the island selected and the entry 4 authenticated. -/
def tagOn : State :=
  { on.setReg aTAG_CFG 0x308 with
    tag := { on.tag with field := true, ready := true, active := true, selected := true, picked := true, j := 1, c := 7,
                         uid := [8, 1, 2, 3], ni := [9, 9], authEntry := some 4 },
    envm := { on.envm with lcs := 2, islandCfg := some tagBytes, kis := some (zeros 16),
                           entries := [(4, ⟨false, false, 6, 0, 77, 0x19, 55, zeros 16⟩)] } }

/-- The same before the activation. -/
def tagIdle : State := { tagOn with tag := { tagOn.tag with active := false, picked := false, selected := false } }

/-- With no byte written, memory reads as zeros. -/
theorem memRead_zeros {s : State} (h : s.mem = []) (a n : Nat) : s.memRead a n = zeros n := by
  unfold State.memRead zeros
  rw [h]
  induction n generalizing a with
  | zero => rfl
  | succ k ih => simpa [cellRead, cellGet, List.replicate_succ, memDefault, tget, tfind] using ih (a + 1)

/-! ### Ill-formed terms, one for each check of WellFormed -/

/-- Channel numbers above 127, and session numbers above 255. -/
theorem test_wf_channels : ([.channelStart .peat 128, .channelStop .peat 128, .channelAbort .peat 128, .channelIdle 128, .lfWake 128,
    .lfAuth 128, .lfLocate 128, .lfTune 128, .lfMeasure 128, .fieldOn 128 false, .fieldOff 128, .activateA 128 false,
    .activateB 128 false, .exchange 128, .raw 128 false, .deselect 128, .detect 128 false ⟨0, 0⟩, .uwbTx 128, .uwbRx 128,
    .uwbSleep 128, .uwbStandby 128, .uwbSynth 128, .uwbCal 128, .uwbTune 128, .idleTimeout 256, .offerTimeout 256,
    .sessionFree 256] : List Instr).all (fun i => !i.wf) = true := by decide

/-- Numbers of stages, slots, timers, engines, windows, memories and the like past the last one. -/
theorem test_wf_numbers : ([.stageEntry 0, .stageEntry 5, .ecallRandomWords (2 ^ 32), .ecallOwnCounters 2 false, .ecallKeyStore 64,
    .lockEnd (.cls 4), .failureWindowExpiry (.entry 64), .reseedDue 3, .generatorStopped 3, .moverGo .peat 8, .moverStop .peat 8,
    .armedDescriptorStart 8, .descriptorDone 8, .timerWrap 16, .compare 16 0, .compare 0 4, .timerStep 16, .cmpWrite .peat 0 4 0,
    .periodWrite .peat 16 0, .timerTick 16, .sequenceGo .peat 16, .conversionSlotEnd 4096, .memoryDoubleBitError 6 0 .peat,
    .singleBitError 6, .monitorWindowEnd 6, .selWrite .peat 25 0 0, .selWrite .peat 0 4 0, .alarm 0 0, .alarm 1 0, .alarm 256 0,
    .offlineAlarm 4 256, .healthFailure 256 true false, .backgroundRecal 4 0 0 0 [], .backgroundRecal 1 4 0 0 []] : List Instr).all
    (fun i => !i.wf) = true := by decide

/-- Lanes and queues past the last one. -/
theorem test_wf_lanes : ([.pushTag .peat 16 0 0, .pushData .peat 0 2 0, .pushEmpty .peat 16 0 0, .cancel .peat 0 2, .pop .peat 16 0] :
    List Instr).all (fun i => !i.wf) = true := by decide

/-- Byte strings of a wrong length, and frames and host transactions of a wrong form. -/
theorem test_wf_bytes : ([.rootAttempt [], .rootEnrol .peat [], .poolComplete [], .tagAnticollision 40 [], .tagSelect [1, 2, 3],
    .islandAuth [] (zeros 16) (zeros 8) false, .islandAuth (zeros 4) [] (zeros 8) false, .islandAuth (zeros 4) (zeros 16) [] false,
    .lfAnswer (.frame []), .lfAnswer (.frame (zeros 10)), .uwbFrameReceived 0 (zeros 126) true, .uwbFrameReceived (2 ^ 40) [] true,
    .uwbTxDone (2 ^ 40), .respReceived ⟨[], 0⟩, .respReceived ⟨List.replicate 4 ⟨2 ^ 40, [], 0⟩, 0⟩,
    .reportReceived ⟨List.replicate 4 ⟨0, [], 0⟩, 0⟩ (zeros 126), .hostRead [0x40], .hostWrite [0], .hostStatus 0x40,
    .lfExchangeEnd ⟨0, 0, 0, 0⟩ (List.replicate 13 [])] : List Instr).all (fun i => !i.wf) = true := by decide +kernel

/-- Fields wider than the spec's. -/
theorem test_wf_fields : ([.tagPps 4 0, .tagPps 0 4, .readRecord 256 0, .readRecord 0 256, .updateRecord 256 0 [] 0,
    .updateRecord 0 256 [] 0, .updateRecord 0 0 (zeros 256) 0, .islandStatus 65536, .unknownApdu 256 0, .unknownApdu 0 256,
    .lfExchangeStart ⟨0, 0, 0, 16, 0⟩, .lfExchangeStart ⟨0, 0, 0, 0, 16⟩, .heronPoll none ⟨0, 0⟩ false 16 0,
    .heronPoll (some (.frame [])) ⟨0, 0⟩ false 0 0, .ttExchange (2 ^ 40), .mark .up (2 ^ 40) 0, .ttFit 32 0, .ttFit 1 21,
    .governorReading 32768, .registerWrite .peat .machine (2 ^ 32) 0, .rlLowRead .peat (2 ^ 32)] : List Instr).all
    (fun i => !i.wf) = true := by decide +kernel

/-! ### The spec's worked examples -/

/-- The set of serial 269,358 in the table (the example of R251). -/
theorem test_tableSet : tableSet 269358 = 0x30019800 := by decide +kernel

/-- The times of R221's example give its denominator and 1838 mm. -/
theorem test_timeOfFlight :
    (timeOf (zeros 0x18 ++ [0x88, 0x13, 50]) { slotNil ⟨0, 1, 9, 0, false, 0, false, 0⟩ with t1 := 1000000000, t4 := 1019169872,
                                                                                              t5 := 1038338560 }
      ([0, 3, 0, 0, 0] ++ toLE 5 19169280 ++ toLE 5 19169663)).2.2 = (76677503, 1838) := by decide +kernel

/-- A sine of one half is 30 degrees (R225). -/
theorem test_asin : asinDeci 1 2 = 300 ∧ asinDeci (-1) 2 = -300 := by decide +kernel

/-- The three units of R238's example place the phone at X −290 and Y 351. -/
theorem test_cabin : (solveXY ⟨1, 0, 0, 459.8 * 459.8, 459.8, 460⟩
    [⟨2, -200, 850, 511.4 * 511.4, 511.4, 508⟩, ⟨3, -200, -850, 1205.8 * 1205.8, 1205.8, 1207⟩]).map
    (fun p => (roundQ p.1, roundQ p.2)) = some (-290, 351) := by decide +kernel

/-! ### States that meet the hypotheses of the statements -/

theorem test_StepRunsTheFrontCommand : ∃ (s : State) (c : Instr) (rest : List Instr), s.pending = c :: rest :=
  ⟨{ on with pending := [.settlingEnd] }, .settlingEnd, [], rfl⟩

theorem test_StepKeepsMemoryCanonical : ∃ s : State, MemOk s :=
  ⟨on.memWrite 0x20000000 [1, 0, 2], by decide +kernel⟩

theorem test_BusAccesses_1 : ∃ (s : State) (m : Master) (a : Nat) (i : Nat) (r : RegRow) (pr : Privilege),
    s.up m = true ∧ s.peat.applet = none ∧ 0x40000000 ≤ a ∧ a < 0x41000000 ∧
    judge s (rightsOf m) (decide (pr = .user)) a true = .granted ∧ regRow a = some (r, i) ∧
    (a - 0x40000000) / 0x10000 ∈ [1, 4, 9, 13, 14, 15, 23] :=
  ⟨on, .peat, aSES_CFG, 0, ((regRow aSES_CFG).getD (⟨0, 0, 0, .peat, 0, 0, 0, 0⟩, 0)).1, .machine, by decide +kernel⟩

theorem test_BusAccesses_2 : ∃ (s : State) (m : Master) (a : Nat) (pr : Privilege), s.up m = true ∧
    s.peat.applet = none ∧ 0x40000000 ≤ a ∧ a < 0x41000000 ∧
    judge s (rightsOf m) (decide (pr = .user)) a true = .refused :=
  ⟨on, .sedge, aSES_CFG, .machine, by decide +kernel⟩

theorem test_BusAccesses_3 : ∃ (s : State) (a : Nat), s.up .sedge = true ∧ s.peat.applet = none ∧ 0x20000000 ≤ a ∧
    a + 4 ≤ 0x20080000 ∧ s.fenced a = false :=
  ⟨on, 0x20000010, by decide +kernel⟩

theorem test_BusAccesses_4 : ∃ (s : State) (m : Master) (a : Nat) (hi : Nat × Word), s.up m = true ∧
    isLow a = true ∧ judge s (rightsOf m) false a false = .granted ∧ s.partner a = some hi :=
  ⟨{ on with sysTime := 0x123456789A }, .sedge, aTMR_SYSTIME_LO, (aTMR_SYSTIME_HI, 0x12), by decide +kernel⟩

theorem test_SupplyEvents_1 : ∃ (s : State), s.rails = true :=
  ⟨on, by decide +kernel⟩

theorem test_SupplyEvents_2 : ∃ (s : State), s.power.vbatArmed = true ∧ s.power.mode ≠ .deepStandby :=
  ⟨{ on with power := { on.power with vbatArmed := true } }, by decide +kernel⟩

theorem test_SupplyEvents_3 : ∃ (s : State), s.power.vbatArmed = true :=
  ⟨{ on with power := { on.power with vbatArmed := true } }, by decide +kernel⟩

theorem test_SupplyEvents_4 : ∃ (s : State), s.lf.cur = none :=
  ⟨on, by decide +kernel⟩

theorem test_SupplyEvents_6 : ∃ (s : State), s.power.chargeOff = false ∧ s.power.vbatArmed = false ∧
    s.power.mode ≠ .deepStandby :=
  ⟨on, by decide +kernel⟩

theorem test_SupplyEvents_7 : ∃ (s : State), s.power.chargeOff = false ∧ s.power.vbatArmed = false ∧
    s.power.mode = .deepStandby :=
  ⟨{ State.reset with power := { Power.reset with mode := .deepStandby, regEn := false } }, by decide +kernel⟩

theorem test_SupplyEvents_8 : ∃ (s : State), s.rails = true ∧ s.power.vbatArmed = false :=
  ⟨on, by decide +kernel⟩

theorem test_SupplyEvents_9 : ∃ (s : State), s.rails = true ∧ s.power.vbatArmed = true :=
  ⟨{ on with power := { on.power with vbatArmed := true } }, by decide +kernel⟩

theorem test_SupplyEvents_10 : ∃ (s : State), s.rails = true :=
  ⟨on, by decide +kernel⟩

theorem test_SupplyEvents_11 : ∃ (s : State), s.power.mode = .starting ∧ s.power.regEn = true ∧
    s.power.recovery = false ∧ s.power.attempts < 2 :=
  ⟨State.reset, by decide +kernel⟩

theorem test_SupplyEvents_12 : ∃ (s : State), s.power.mode = .starting ∧ s.power.regEn = true ∧
    s.power.recovery = false ∧ 2 ≤ s.power.attempts :=
  ⟨{ State.reset with power := { Power.reset with attempts := 2 } }, by decide +kernel⟩

theorem test_SupplyEvents_13 : ∃ (s : State), s.power.mode = .starting ∧ s.power.regEn = true ∧
    s.power.recovery = false ∧ s.power.attempts < 2 :=
  ⟨State.reset, by decide +kernel⟩

theorem test_SupplyEvents_14 : ∃ (s : State), s.power.mode = .starting ∧ s.power.regEn = true ∧
    s.power.recovery = false ∧ 2 ≤ s.power.attempts :=
  ⟨{ State.reset with power := { Power.reset with attempts := 2 } }, by decide +kernel⟩

theorem test_SupplyEvents_15 : ∃ (s : State), s.power.retryWait = true ∧ s.power.vbatArmed = false :=
  ⟨{ State.reset with power := { Power.reset with retryWait := true } }, by decide +kernel⟩

theorem test_WakesAndStages_1 : ∃ (s : State), s.power.mode = .standing :=
  ⟨{ on with power := { on.power with mode := .standing } }, by decide +kernel⟩

theorem test_WakesAndStages_2 : ∃ (s : State), s.power.mode = .standing :=
  ⟨{ on with power := { on.power with mode := .standing } }, by decide +kernel⟩

theorem test_WakesAndStages_3 : ∃ (s : State), s.power.mode = .standing :=
  ⟨{ on with power := { on.power with mode := .standing } }, by decide +kernel⟩

theorem test_WakesAndStages_4 : ∃ (s : State), s.power.mode = .deepStandby ∧ s.power.vbatArmed = false :=
  ⟨{ State.reset with power := { Power.reset with mode := .deepStandby, regEn := false } }, by decide +kernel⟩

theorem test_WakesAndStages_5 : ∃ (s : State), s.power.mode = .deepStandby ∧ s.rf aPWR_DSWAKE 15 0 ≠ 0 ∧
    s.power.vbatArmed = false :=
  ⟨({ State.reset with power := { Power.reset with mode := .deepStandby, regEn := false } }).setReg aPWR_DSWAKE 5,
    by decide +kernel⟩

theorem test_WakesAndStages_6 : ∃ (s : State) (n : Nat), 1 ≤ n ∧ n ≤ 3 ∧ s.power.mode = .standing ∧
    s.reg (aPWR_ENTRY n) ≠ 0 ∧ s.rf aPWR_STATUS 2 0 < n ∧ s.rb aPWR_STATUS 7 = false ∧ s.noticeWaits = false :=
  ⟨({ on with power := { on.power with mode := .standing } }).setReg (aPWR_ENTRY 3) 9, 3, by decide +kernel⟩

theorem test_WakesAndStages_7 : ∃ (s : State), s.power.mode = .standing ∧ s.reg (aPWR_ENTRY 4) ≠ 0 ∧
    s.rf aPWR_STATUS 2 0 < 4 ∧ s.rb aPWR_STATUS 7 = false ∧ s.noticeWaits = false :=
  ⟨({ on with power := { on.power with mode := .standing } }).setReg (aPWR_ENTRY 4) 9, by decide +kernel⟩

theorem test_WakesAndStages_8 : ∃ (s : State) (n : Nat), 1 ≤ n ∧ n ≤ 4 ∧ s.resumed = true ∧
    s.reg (aPWR_ENTRY n) ≠ 0 ∧ s.rf aPWR_STATUS 2 0 < n :=
  ⟨on.setReg (aPWR_ENTRY 2) 9, 2, by decide +kernel⟩

theorem test_WakesAndStages_9 : ∃ (s : State) (b : Bytes), s.power.mode = .standing ∧ s.rf aPWR_STATUS 2 0 ≤ 3 ∧
    fld (s.reg (aPWR_POLL (s.rf aPWR_STATUS 2 0))) 17 16 = 2 ∧
    fld (s.reg (aPWR_POLL (s.rf aPWR_STATUS 2 0))) 15 0 ≠ 0 ∧ s.sect 4 0 = some b ∧ s.envm.lcs ≠ 5 :=
  ⟨
    { ({ on with power := { on.power with mode := .standing } }).setReg (aPWR_POLL 0) 0x20005 with cfg := { on.cfg with active := true, sections := [(1024, [1])] } },
    [1], by decide +kernel⟩

theorem test_WakesAndStages_10 : ∃ (s : State), s.power.mode = .standing ∧ s.rf aPWR_STATUS 2 0 ≤ 3 ∧
    fld (s.reg (aPWR_POLL (s.rf aPWR_STATUS 2 0))) 16 16 = 0 ∧
    fld (s.reg (aPWR_POLL (s.rf aPWR_STATUS 2 0))) 15 0 ≠ 0 ∧ s.tag.field = false ∧ s.rf aNFC_LPCD 7 0 = 0 :=
  ⟨(({ on with power := { on.power with mode := .standing } }).setReg (aPWR_POLL 0) 0x20005).setReg aNFC_LPCD 0,
    by decide +kernel⟩

theorem test_LeavingTheResumedState_1 : ∃ (s : State) (m : Master), Grants s m aPWR_CMD :=
  ⟨on.srf aPWR_STATUS 2 0 2, .sedge, by decide +kernel⟩

theorem test_LeavingTheResumedState_2 : ∃ (s : State) (m : Master), Grants s m aPWR_CMD ∧ s.keepsAwake = false ∧
    s.tag.hostBusy = none :=
  ⟨on, .sedge, by decide +kernel⟩

theorem test_LeavingTheResumedState_3 : ∃ (s : State) (m : Master), Grants s m aPWR_CMD ∧ s.deciding = false ∧
    s.alone = true ∧ (if s.rb aPWR_STATUS 7 then s.rf aPWR_STATUS 2 0 else max s.stageFor s.power.stageDue) < 4 :=
  ⟨on, .sedge, by decide +kernel⟩

theorem test_LeavingTheResumedState_4 : ∃ (s : State), s.resumed = true ∧ s.power.safeState = false ∧
    s.idle = true ∧ s.rf aPWR_IDLE 15 0 ≠ 0 ∧ s.alone = true ∧
    (if s.rb aPWR_STATUS 7 then s.rf aPWR_STATUS 2 0 else max s.stageFor s.power.stageDue) < 4 :=
  ⟨on.srf aPWR_IDLE 15 0 5, by decide +kernel⟩

theorem test_LeavingTheResumedState_5 : ∃ (s : State) (x : Nat × Frame),
    s.cwy.taken.find? (fun x => decide (x.2.cls = 5)) = some x ∧ x.2.sub = 5 ∧ s.idle = true ∧
    (if s.rb aPWR_STATUS 7 then s.rf aPWR_STATUS 2 0 else max s.stageFor s.power.stageDue) < 4 :=
  ⟨{ on with cwy := { on.cwy with taken := [(0, ⟨1, 2, 5, 5, 0, 0, [], 0, none⟩)] } },
    (0, ⟨1, 2, 5, 5, 0, 0, [], 0, none⟩), by decide +kernel⟩

theorem test_LeavingTheResumedState_6 : ∃ (s : State) (x : Nat × Frame),
    s.cwy.taken.find? (fun x => decide (x.2.cls = 5)) = some x ∧ x.2.sub = 2 :=
  ⟨{ on with cwy := { on.cwy with taken := [(0, ⟨1, 2, 5, 2, 0, 0, [], 0, none⟩)] } },
    (0, ⟨1, 2, 5, 2, 0, 0, [], 0, none⟩), by decide +kernel⟩

theorem test_LeavingTheResumedState_7 : ∃ (s : State) (x : Nat × Frame),
    s.cwy.taken.find? (fun x => decide (x.2.cls = 5)) = some x ∧ x.2.sub = 1 :=
  ⟨{ on with cwy := { on.cwy with taken := [(0, ⟨1, 2, 5, 1, 0, 0, [], 0, none⟩)] } },
    (0, ⟨1, 2, 5, 1, 0, 0, [], 0, none⟩), by decide +kernel⟩

theorem test_LeavingTheResumedState_8 : ∃ (s : State) (x : Nat × Frame),
    s.cwy.taken.find? (fun x => decide (x.2.cls = 5)) = some x ∧ x.2.sub = 3 ∧ s.isHead = true ∧
    s.power.idleSent = false :=
  ⟨
    { { on with power := { on.power with cwyHead := true } } with cwy := { { on with power := { on.power with cwyHead := true } }.cwy with taken := [(0, ⟨1, 2, 5, 3, 0, 0, [], 0, none⟩)] } },
    (0, ⟨1, 2, 5, 3, 0, 0, [], 0, none⟩), by decide +kernel⟩

theorem test_LeavingTheResumedState_9 : ∃ (s : State) (x : Nat × Frame),
    s.cwy.taken.find? (fun x => decide (x.2.cls = 5)) = some x ∧ x.2.sub = 4 :=
  ⟨{ on with cwy := { on.cwy with taken := [(0, ⟨1, 2, 5, 4, 0, 0, [], 0, none⟩)] } },
    (0, ⟨1, 2, 5, 4, 0, 0, [], 0, none⟩), by decide +kernel⟩

theorem test_StartsReloadsAndWatchdogs_1 : ∃ (s : State) (head : Bool), s.power.mode = .starting ∧
    s.power.regEn = true ∧ s.power.recovery = false ∧ s.rf aFLT_AON 23 16 < 4 ∧
    (((strapped s 2 head).envm.lcs = 0 ∨ (strapped s 2 head).envm.lcs = 4)) :=
  ⟨State.reset, true, by decide +kernel⟩

theorem test_StartsReloadsAndWatchdogs_2 : ∃ (s : State) (bs : BitVec 2), s.power.mode = .starting ∧
    s.power.regEn = true ∧ s.power.recovery = false ∧ 4 ≤ s.rf aFLT_AON 23 16 ∧ bs ≠ 1 :=
  ⟨State.reset.srf aFLT_AON 23 16 4, 0, by decide +kernel⟩

theorem test_StartsReloadsAndWatchdogs_3 : ∃ (s : State), s.power.mode = .starting ∧ s.power.regEn = true ∧
    s.power.recovery = false ∧ s.rf aFLT_AON 23 16 < 4 :=
  ⟨State.reset, by decide +kernel⟩

theorem test_StartsReloadsAndWatchdogs_4 : ∃ (s : State) (head : Bool) (bs : BitVec 2), s.power.mode = .starting ∧
    s.power.regEn = true ∧ s.power.recovery = false ∧ s.rf aFLT_AON 23 16 < 4 ∧ bs ≠ 1 ∧ (¬ (bs = 2 ∧
    ((strapped s bs head).envm.lcs = 0 ∨ (strapped s bs head).envm.lcs = 4))) :=
  ⟨State.reset, true, 0, by decide +kernel⟩

theorem test_StartsReloadsAndWatchdogs_5 : ∃ (s : State) (array : Bytes) (h : Helper), s.envm.helper = some h ∧
    s.rails = true ∧ s.power.mode ≠ .standing ∧ s.power.rootKnown = false ∧ s.power.rootTries < 4 ∧
    rootCheck (rootOf array h.data) = h.check :=
  ⟨{ State.reset with envm := { State.reset.envm with helper := some ⟨[], rootCheck (rootOf [] [])⟩ } }, [],
    ⟨[], rootCheck (rootOf [] [])⟩, by rfl, by decide, by decide, by decide, by decide, by rfl⟩

theorem test_StartsReloadsAndWatchdogs_6 : ∃ (s : State) (c : Nat × Nat), s.power.reloading = false ∧
    ((startReads s s.source).flatMap recChunks).find? (fun c => decide (c ∉ s.power.recGot)) = some c ∧
    s.rb aHIF_RECREQ 31 = true ∧ 4 < s.rf aHIF_RECLEN 12 0 :=
  ⟨(State.reset.setReg aHIF_RECREQ 0x80000000).setReg aHIF_RECLEN 4096, (dirAddr 0, 4096), by decide +kernel⟩

theorem test_StartsReloadsAndWatchdogs_7 : ∃ (s : State), s.power.recovery = true ∧ s.rb aHIF_RECREQ 31 = true ∧
    s.power.safeState = false ∧ s.power.bootSel ≠ 1 :=
  ⟨{ State.reset.setReg aHIF_RECREQ 0x80000000 with power := { Power.reset with recovery := true } },
    by decide +kernel⟩

theorem test_StartsReloadsAndWatchdogs_8 : ∃ (s : State), s.power.reloading = true ∧ s.resumed = true ∧
    s.rb aHIF_RECREQ 31 = false ∧
    shakeH (s.source (s.imageAt 2 (tget s.peat.runSlot 2 0) + 64) (min 524288 (le32 (s.source (s.imageAt 2 (tget s.peat.runSlot 2 0)) 64) 0xC))) 32 = s.peat.sedgeDigest :=
  ⟨
    { (on.flashWrite 0xC [0, 0, 0, 0]) with power := { on.power with reloading := true }, peat := { on.peat with sedgeDigest := shakeH [] 32 } },
    by decide +kernel⟩

theorem test_StartsReloadsAndWatchdogs_9 : ∃ (s : State), s.resumed = true ∧ s.power.sedgeRuns = true ∧
    s.rf aSYS_WDT_CFG 15 0 ≠ 0 ∧ s.peat.serving = none :=
  ⟨on.srf aSYS_WDT_CFG 15 0 5, by decide +kernel⟩

theorem test_StartsReloadsAndWatchdogs_10 : ∃ (s : State) (v : Serving), s.resumed = true ∧
    s.power.sedgeRuns = true ∧ s.rf aSYS_WDT_CFG 15 0 ≠ 0 ∧ s.peat.serving = some v :=
  ⟨
    { (on.srf aSYS_WDT_CFG 15 0 5) with peat := { (on.srf aSYS_WDT_CFG 15 0 5).peat with serving := some ⟨0x40, 7, [], .now, false⟩ } },
    ⟨0x40, 7, [], .now, false⟩, by decide +kernel⟩

theorem test_StartsReloadsAndWatchdogs_11 : ∃ (s : State), s.up .peat = true :=
  ⟨on, by decide +kernel⟩

theorem test_StartsReloadsAndWatchdogs_12 : ∃ (s : State), s.up .peat = true :=
  ⟨on, by decide +kernel⟩

theorem test_StartsReloadsAndWatchdogs_13 : ∃ (s : State) (m : Master), Grants s m aSYS_WDT_KICK :=
  ⟨on, .sedge, by decide +kernel⟩

theorem test_ChannelLife_1 : ∃ (s : State) (m : Master) (ch : Nat) (b : Bytes), ch < 124 ∧
    Grants s m (aCHN_CTL ch) ∧ s.chState ch = 0 ∧ s.namedTemplate ch = some b ∧ startRefusal s ch = cOk :=
  ⟨
    ({ on with cfg := { on.cfg with active := true, sections := [(2048, [0, 0, 0, 3, 0, 0, 7, 0])] } }).srb (aCHN_BIND 5) 25 true,
    .sedge, 5, [0, 0, 0, 3, 0, 0, 7, 0], by decide +kernel⟩

theorem test_ChannelLife_2 : ∃ (s : State) (m : Master) (ch : Nat), ch < 124 ∧ Grants s m (aCHN_CTL ch) ∧
    s.chState ch = 1 ∧ s.feClass ch ∉ [1, 2, 5] ∧ s.peat.serving = none ∧
    (s.inEngine ch || (s.lane 10).committed.all fun p => decide (p.src ≠ ch)) = true :=
  ⟨on.srf (aCHN_STATUS 5) 1 0 1, .sedge, 5, by decide +kernel⟩

theorem test_ChannelLife_3 : ∃ (s : State) (m : Master) (ch : Nat) (r : Run), ch < 128 ∧ Grants s m (aCHN_CTL ch) ∧
    s.chState ch = 1 ∧ s.feClass ch ≠ 5 ∧ s.eng.aes = some r ∧ r.chan = ch ∧ s.eng.bn = none ∧ s.eng.bnSusp = none ∧
    s.eng.hsh = none ∧ ((s.lane 10).committed.all fun p => decide (p.src ≠ ch)) = true :=
  ⟨{ on.srf (aCHN_STATUS 5) 1 0 1 with eng := { on.eng with aes := some { runNil with chan := 5 } } }, .sedge, 5,
    { runNil with chan := 5 }, by decide +kernel⟩

theorem test_ChannelLife_4 : ∃ (s : State) (ch : Nat), ch < 124 ∧ s.chState ch = 2 ∧ s.inEngine ch = false ∧
    s.feBusy ch = false :=
  ⟨on.srf (aCHN_STATUS 5) 1 0 2, 5, by decide +kernel⟩

theorem test_SessionsEnd_1 : ∃ (s : State) (n : Nat), (((s.ses n).st = .ready ∨ (s.ses n).st = .offered)) ∧
    (s.ses n).suite ≠ 3 ∧ (s.ses n).idleTmo ≠ 0 ∧ s.sesJobs n = false ∧ tfind s.dist.map n = none :=
  ⟨{ on with sess := [(9, { sesNil with st := .ready, suite := 1, idleTmo := 5, gen := 3 })] }, 9, by decide +kernel⟩

theorem test_SessionsEnd_2 : ∃ (s : State) (n : Nat), (s.ses n).st = .offered ∧ (s.ses n).offerTmo ≠ 0 ∧
    s.sesJobs n = false ∧ tfind s.dist.map n = none :=
  ⟨{ on with sess := [(9, { sesNil with st := .offered, suite := 1, offerTmo := 5, gen := 3 })] }, 9,
    by decide +kernel⟩

theorem test_SessionsEnd_3 : ∃ (s : State) (n : Nat), (s.ses n).st = .closing ∧ s.sesBusy n = false ∧
    s.peat.serving = none :=
  ⟨{ on with sess := [(9, { sesNil with st := .closing, suite := 1, gen := 3 })] }, 9, by decide +kernel⟩

theorem test_RequestsAnswered_1 : ∃ (s : State) (p : Packet), MailTakes s 0x7F p :=
  ⟨(mail on [0x7F000012, 5, 6]), (req [0x7F000012, 5, 6]), by decide +kernel⟩

theorem test_RequestsAnswered_2 : ∃ (s : State) (p : Packet), MailTakes s 0x60 p ∧ (mailArg p 0).toNat ≤ 63 :=
  ⟨(mail on [0x60000012, 43]), (req [0x60000012, 43]), by decide +kernel⟩

theorem test_RequestsAnswered_3 : ∃ (s : State) (p : Packet), MailTakes s 0x70 p :=
  ⟨(mail on [0x70000012]), (req [0x70000012]), by decide +kernel⟩

theorem test_RequestsAnswered_4 : ∃ (s : State) (p : Packet) (d : Bytes), MailTakes s 0x30 p ∧
    24 ≤ (mailArg p 0).toNat ∧ (mailArg p 0).toNat ≤ 63 ∧ fld (mailArg p 1) 31 17 = 0 ∧ kwType (mailArg p 1) ∈ [1,
    2, 3, 4, 5, 6, 7, 9] ∧ kwUse (mailArg p 1) ≠ 0 ∧
    kwUse (mailArg p 1) &&& typeUses (kwType (mailArg p 1)) = kwUse (mailArg p 1) ∧
    s.key (mailArg p 0).toNat = none ∧ s.rb aKST_STATUS 1 = false ∧ s.rngFailed = false ∧
    s.maskStopped (maskOfType (kwType (mailArg p 1))) = false ∧ s.servedTo .peat = some (cOk, d) ∧
    PeatWorks s 127 :=
  ⟨(drawn (mail { onR with envm := { onR.envm with lcs := 2 } } [0x30000012, 40, 0x00000103]) (zeros 40)),
    (req [0x30000012, 40, 0x00000103]), (zeros 40), by decide +kernel⟩

theorem test_RequestsAnswered_5 : ∃ (s : State) (p : Packet), MailTakes s 0x30 p ∧ 24 ≤ (mailArg p 0).toNat ∧
    (mailArg p 0).toNat ≤ 63 ∧ fld (mailArg p 1) 31 17 = 0 ∧ kwType (mailArg p 1) ∈ [1, 2, 3, 4, 5, 6, 7, 9] ∧
    kwUse (mailArg p 1) ≠ 0 ∧ kwUse (mailArg p 1) &&& typeUses (kwType (mailArg p 1)) = kwUse (mailArg p 1) ∧
    s.key (mailArg p 0).toNat = none ∧ s.rb aKST_STATUS 1 = false ∧ s.rngFailed = false ∧
    s.maskStopped (maskOfType (kwType (mailArg p 1))) = false ∧ s.servedTo .peat = none :=
  ⟨(mail { onR with envm := { onR.envm with lcs := 2 } } [0x30000012, 40, 0x00000103]),
    (req [0x30000012, 40, 0x00000103]), by decide +kernel⟩

theorem test_SessionRequests_1 : ∃ (s : State) (p : Packet) (n : Nat) (b : Bytes) (d : Bytes), MailTakes s 0x01 p ∧
    s.servedTo .peat = some (cOk, d) ∧ PeatWorks s 127 ∧ (mailArg p 0).toNat < 124 ∧
    s.chPeat (mailArg p 0).toNat = false ∧ s.chState (mailArg p 0).toNat = 0 ∧
    s.namedTemplate (mailArg p 0).toNat = some b ∧ byteAt b 2 = 1 ∧ s.freeSession = some n ∧
    s.rf (aCHN_QUEUES (mailArg p 0).toNat) 7 4 < 8 ∧ s.rel.pending = false ∧
    309 ≤ s.room (s.rf (aCHN_QUEUES (mailArg p 0).toNat) 7 4) ∧
    s.openCount (s.rf (aCHN_QUEUES (mailArg p 0).toNat) 7 4) < 8 :=
  ⟨
    (drawn (mail { (onR.srf (aCHN_QUEUES 5) 7 4 3).srf (aQUE_CFG 3) 23 0 0x100001 with cfg := { on.cfg with active := true, sections := [(2048, [0, 0, 1, 3, 0, 0, 0, 0, 5, 0, 7, 0])] } } [0x01000012, 5]) (zeros 112)),
    (req [0x01000012, 5]), 0, [0, 0, 1, 3, 0, 0, 0, 0, 5, 0, 7, 0], (zeros 112), by decide +kernel⟩

theorem test_SessionRequests_2 : ∃ (s : State) (p : Packet) (n : Nat) (b : Bytes), MailTakes s 0x01 p ∧
    s.servedTo .peat = none ∧ s.rngFailed = false ∧ (mailArg p 0).toNat < 124 ∧
    s.chPeat (mailArg p 0).toNat = false ∧ s.chState (mailArg p 0).toNat = 0 ∧
    s.namedTemplate (mailArg p 0).toNat = some b ∧ byteAt b 2 = 1 ∧ s.freeSession = some n :=
  ⟨
    (mail { (onR.srf (aCHN_QUEUES 5) 7 4 3).srf (aQUE_CFG 3) 23 0 0x100001 with cfg := { on.cfg with active := true, sections := [(2048, [0, 0, 1, 3, 0, 0, 0, 0, 5, 0, 7, 0])] } } [0x01000012, 5]),
    (req [0x01000012, 5]), 0, [0, 0, 1, 3, 0, 0, 0, 0, 5, 0, 7, 0], by decide +kernel⟩

theorem test_SessionRequests_3 : ∃ (s : State) (p : Packet) (b : Bytes), MailTakes s 0x03 p ∧
    (mailArg p 0).toNat ≤ 255 ∧ Holds s (mailArg p 1) (mailArg p 2) b ∧ (mailArg p 2).toNat = 1124 ∧
    byteAt b 0 = 1 ∧ byteAt b 1 = 1 ∧ (s.ses (mailArg p 0).toNat).st = .offered ∧ s.isHead = false ∧
    PeatWorks s 127 ∧
    x25519Fn (ofLE (slice (s.ses (mailArg p 0).toNat).slot 0 32)) (ofLE (slice b 4 32) % 2 ^ 255) ≠ 0 :=
  ⟨
    (mail ({ on with sess := [(9, { sesNil with st := .offered, suite := 1, slot := [8] ++ zeros 127 })] }.memWrite 0x20000000 ([1, 1, 0, 0, 9] ++ zeros 1119)) [0x03000012, 9, 0x20000000, 1124]),
    (req [0x03000012, 9, 0x20000000, 1124]), ([1, 1, 0, 0, 9] ++ zeros 1119), by decide +kernel⟩

theorem test_SessionRequests_4 : ∃ (s : State) (p : Packet), MailTakes s 0x02 p ∧ (mailArg p 0).toNat ≤ 255 ∧
    (s.ses (mailArg p 0).toNat).st ≠ .free ∧ (s.ses (mailArg p 0).toNat).suite ≠ 3 ∧
    s.sesBusy (mailArg p 0).toNat = false ∧ tfind s.dist.map (mailArg p 0).toNat = none :=
  ⟨(mail { on with sess := [(9, { sesNil with st := .ready, suite := 1, gen := 3 })] } [0x02000012, 9]),
    (req [0x02000012, 9]), by decide +kernel⟩

theorem test_ReplacementsAndImages_1 : ∃ (s : State) (v : Serving) (slot : Nat) (key : Nat) (version : Word) (body : Option Bytes),
    Waits s v (.cfgDrain slot version key body) ∧ key / 256 = 8 ∧ 6 ∉ s.cfg.held :=
  ⟨{ on with peat := { on.peat with serving := some ⟨0x40, 7, [], (.cfgDrain 1 5 2048 (some [3])), false⟩ } },
    ⟨0x40, 7, [], (.cfgDrain 1 5 2048 (some [3])), false⟩, 1, 2048, 5, (some [3]), by decide +kernel⟩

theorem test_ReplacementsAndImages_2 : ∃ (s : State) (v : Serving) (slot : Nat) (key : Nat) (version : Word) (body : Option Bytes),
    Waits s v (.cfgDrain slot version key body) ∧ 6 ∉ s.cfg.held :=
  ⟨{ on with peat := { on.peat with serving := some ⟨0x40, 7, [], (.cfgDrain 1 5 2048 (some [3])), false⟩ } },
    ⟨0x40, 7, [], (.cfgDrain 1 5 2048 (some [3])), false⟩, 1, 2048, 5, (some [3]), by decide +kernel⟩

theorem test_ReplacementsAndImages_3 : ∃ (s : State) (p : Packet) (slot : Nat) (version : Word) (d : Bytes),
    MailTakes s 0x42 p ∧ (mailArg p 0).toNat = 2 ∧ tfind s.peat.staged 2 = some (slot, version, d) :=
  ⟨(mail { on with peat := { on.peat with staged := [(2, (1, 9, []))] } } [0x42000012, 2]), (req [0x42000012, 2]),
    1, 9, [], by decide +kernel⟩

theorem test_ReplacementsAndImages_4 : ∃ (s : State) (p : Packet) (x : Nat × Word × Bytes), MailTakes s 0x42 p ∧
    (mailArg p 0).toNat = 1 ∧ tfind s.peat.staged 1 = some x :=
  ⟨(mail { on with peat := { on.peat with staged := [(1, (1, 9, []))] } } [0x42000012, 1]), (req [0x42000012, 1]),
    (1, 9, []), by decide +kernel⟩

theorem test_ReplacementsAndImages_5 : ∃ (s : State) (p : Packet), MailTakes s 0x43 p ∧
    (((mailArg p 0).toNat = 1 ∨ (mailArg p 0).toNat = 2)) :=
  ⟨(mail { on with peat := { on.peat with runVersion := [(2, 9)] } } [0x43000012, 2]), (req [0x43000012, 2]),
    by decide +kernel⟩

theorem test_ReplacementsAndImages_6 : ∃ (s : State) (v : Serving) (slot : Nat) (version : Word) (d : Bytes),
    Waits s v .peatSwap ∧ s.peat.applet = none ∧ s.rel.wave = false ∧ s.releaseWaits = false ∧
    tfind s.peat.staged 1 = some (slot, version, d) ∧
    shakeH (s.flashRead (s.imageAt 1 slot + 64) (min 57344 (le32 (s.flashRead (s.imageAt 1 slot) 64) 0xC))) 32 = d :=
  ⟨
    { (on.flashWrite 0xC [0, 0, 0, 0]) with peat := { on.peat with serving := some ⟨0x40, 7, [], .peatSwap, false⟩, staged := [(1, (1, 9, shakeH [] 32))] } },
    ⟨0x40, 7, [], .peatSwap, false⟩, 1, 9, (shakeH [] 32), by decide +kernel⟩

theorem test_ReplacementsAndImages_7 : ∃ (s : State) (v : Serving), Waits s v .peatSwap :=
  ⟨{ on with peat := { on.peat with serving := some ⟨0x40, 7, [], .peatSwap, false⟩ } },
    ⟨0x40, 7, [], .peatSwap, false⟩, by decide +kernel⟩

theorem test_DebugRequests_1 : ∃ (s : State) (p : Packet) (d : Bytes), MailTakes s 0x51 p ∧
    s.servedTo .peat = some (cOk, d) :=
  ⟨(drawn (mail onR [0x51000012]) (zeros 32)), (req [0x51000012]), (zeros 32), by decide +kernel⟩

theorem test_DebugRequests_2 : ∃ (s : State) (p : Packet), MailTakes s 0x51 p ∧ s.servedTo .peat = none ∧
    s.rngFailed = false :=
  ⟨(mail onR [0x51000012]), (req [0x51000012]), by decide +kernel⟩

theorem test_DebugRequests_3 : ∃ (s : State) (d : Bytes), s.jtagFree = true ∧ s.servedTo .jtag = some (cOk, d) :=
  ⟨{ onR with trng := { onR.trng with served := [(.jtag, cOk, zeros 32)] } }, (zeros 32), by decide +kernel⟩

theorem test_DebugRequests_4 : ∃ (s : State), s.jtagFree = true ∧ s.servedTo .jtag = none ∧ s.rngFailed = false :=
  ⟨onR, by decide +kernel⟩

theorem test_DebugRequests_5 : ∃ (s : State) (p : Packet) (pol : Bytes) (b : Bytes), MailTakes s 0x52 p ∧
    s.policy 5 = some pol ∧ s.pwdLocked = false ∧ 8 ≤ (mailArg p 1).toNat ∧ (mailArg p 1).toNat ≤ 64 ∧
    Holds s (mailArg p 0) (mailArg p 1) b ∧ shakeH (pol.take 16 ++ b) 32 = slice pol 16 32 :=
  ⟨
    (mail { (on.memWrite 0x20000000 [1, 2, 3, 4, 5, 6, 7, 8]) with cfg := { on.cfg with active := true, sections := [(2304, [1, 1, 0, 0, 5, 0, 48, 0] ++ zeros 16 ++ shakeH (zeros 16 ++ [1, 2, 3, 4, 5, 6, 7, 8]) 32)] } } [0x52000012, 0x20000000, 8]),
    (req [0x52000012, 0x20000000, 8]), (zeros 16 ++ shakeH (zeros 16 ++ [1, 2, 3, 4, 5, 6, 7, 8]) 32),
    [1, 2, 3, 4, 5, 6, 7, 8], by decide +kernel⟩

theorem test_EnrolmentRequests_1 : ∃ (s : State) (p : Packet) (b : Bytes) (x : Nat × Entry) (y : Nat × Session),
    MailTakes s 0x12 p ∧ fld (mailArg p 1) 31 8 = 0x040000 ∧ (mailArg p 0).toNat < 124 ∧
    3 ≤ ((packetWords p).drop 1).length ∧ s.isLocked (.cls (lockClass (s.feClass (mailArg p 0).toNat))) = false ∧
    s.entryByTid (mailArg p 2) = some x ∧ s.isLocked (.entry x.1) = false ∧
    bindClass x.2.cls = s.feClass (mailArg p 0).toNat ∧ s.templateOf (mailArg p 0).toNat = some b ∧ byteAt b 2 = 2 ∧
    s.sess.find? (fun z => decide (z.2.suite = 2 ∧ z.2.entry = x.1 ∧ z.2.st = .ready)) = some y ∧ y.1 < 256 :=
  ⟨
    (mail { (on.srf (aCHN_BIND 5) 3 0 1) with cfg := { on.cfg with active := true, sections := [(2048, [0, 0, 2, 3, 0, 0, 7, 0])] }, envm := { on.envm with lcs := 2, entries := [(4, ⟨false, false, 1, 0x1234, 77, 0x11, 0, [1, 2]⟩)] }, sess := [(9, { sesNil with st := .ready, suite := 2, entry := 4, gen := 3 })] } [0x12000012, 5, 0x04000000, 77]),
    (req [0x12000012, 5, 0x04000000, 77]), [0, 0, 2, 3, 0, 0, 7, 0],
    (4, ⟨false, false, 1, 0x1234, 77, 0x11, 0, [1, 2]⟩),
    (9, { sesNil with st := .ready, suite := 2, entry := 4, gen := 3 }), by decide +kernel⟩

theorem test_EnrolmentRequests_2 : ∃ (s : State) (p : Packet) (b : Bytes) (x : Nat × Entry) (n : Nat),
    MailTakes s 0x12 p ∧ fld (mailArg p 1) 31 8 = 0x040000 ∧ (mailArg p 0).toNat < 124 ∧
    3 ≤ ((packetWords p).drop 1).length ∧ s.isLocked (.cls (lockClass (s.feClass (mailArg p 0).toNat))) = false ∧
    s.entryByTid (mailArg p 2) = some x ∧ s.isLocked (.entry x.1) = false ∧
    bindClass x.2.cls = s.feClass (mailArg p 0).toNat ∧ s.templateOf (mailArg p 0).toNat = some b ∧ byteAt b 2 = 2 ∧
    s.sess.find? (fun z => decide (z.2.suite = 2 ∧ z.2.entry = x.1 ∧ z.2.st = .ready)) = none ∧
    s.freeSession = some n :=
  ⟨
    (mail { (on.srf (aCHN_BIND 5) 3 0 1) with cfg := { on.cfg with active := true, sections := [(2048, [0, 0, 2, 3, 0, 0, 7, 0])] }, envm := { on.envm with lcs := 2, entries := [(4, ⟨false, false, 1, 0x1234, 77, 0x11, 0, [1, 2]⟩)] } } [0x12000012, 5, 0x04000000, 77]),
    (req [0x12000012, 5, 0x04000000, 77]), [0, 0, 2, 3, 0, 0, 7, 0],
    (4, ⟨false, false, 1, 0x1234, 77, 0x11, 0, [1, 2]⟩), 0, by decide +kernel⟩

theorem test_EnrolmentRequests_3 : ∃ (s : State) (p : Packet) (serial : Nat) (rights : Word) (c : Word) (x : Nat × Entry) (d : Bytes),
    MailTakes s 0x12 p ∧ fld (mailArg p 1) 31 8 = 0x030000 ∧ (mailArg p 0).toNat < 124 ∧
    2 ≤ ((packetWords p).drop 1).length ∧ s.isLocked (.cls (lockClass (s.feClass (mailArg p 0).toNat))) = false ∧
    s.boundTo (mailArg p 0).toNat (s.rf (aCHN_BIND (mailArg p 0).toNat) 15 8) = true ∧
    (s.ses (s.rf (aCHN_BIND (mailArg p 0).toNat) 15 8)).suite = 1 ∧
    (s.ses (s.rf (aCHN_BIND (mailArg p 0).toNat) 15 8)).cred = some (serial, rights, c) ∧ bit rights 3 = true ∧
    s.entryBySerial serial = some x ∧ s.rngFailed = false ∧ s.maskStopped 0 = false ∧ s.servedTo .peat = some (cOk,
    d) ∧ PeatWorks s 127 ∧ s.entryByTid (w32 (ofLE (slice d 16 4))) = none ∧
    (s.ses (s.rf (aCHN_BIND (mailArg p 0).toNat) 15 8)).tx ≠ 0xFFFFFFFF ∧
    s.rf (aCHN_QUEUES (mailArg p 0).toNat) 7 4 < 8 ∧ s.rel.pending = false ∧
    12 ≤ s.room (s.rf (aCHN_QUEUES (mailArg p 0).toNat) 7 4) ∧
    s.openCount (s.rf (aCHN_QUEUES (mailArg p 0).toNat) 7 4) < 8 :=
  ⟨
    (drawn (mail { ((((onR.srf (aCHN_BIND 5) 15 8 9).srb (aCHN_BIND 5) 25 false).srf (aCHN_BIND 5) 3 0 4).srf (aCHN_BIND 5) 23 16 3).srf (aCHN_QUEUES 5) 7 4 3 with envm := { on.envm with lcs := 2, entries := [(4, ⟨false, false, 6, 0, 77, 0x11, 55, [1, 2]⟩)] }, sess := [(9, { sesNil with st := .ready, suite := 1, gen := 3, cred := some (55, 8, 0) })] } [0x12000012, 5, 0x03000000]) (zeros 20)),
    (req [0x12000012, 5, 0x03000000]), 55, 8, 0, (4, ⟨false, false, 6, 0, 77, 0x11, 55, [1, 2]⟩), (zeros 20),
    by decide +kernel⟩

theorem test_EnrolmentRequests_4 : ∃ (s : State) (p : Packet) (serial : Nat) (rights : Word) (c : Word) (x : Nat × Entry),
    MailTakes s 0x12 p ∧ fld (mailArg p 1) 31 8 = 0x030000 ∧ (mailArg p 0).toNat < 124 ∧
    2 ≤ ((packetWords p).drop 1).length ∧ s.isLocked (.cls (lockClass (s.feClass (mailArg p 0).toNat))) = false ∧
    s.boundTo (mailArg p 0).toNat (s.rf (aCHN_BIND (mailArg p 0).toNat) 15 8) = true ∧
    (s.ses (s.rf (aCHN_BIND (mailArg p 0).toNat) 15 8)).suite = 1 ∧
    (s.ses (s.rf (aCHN_BIND (mailArg p 0).toNat) 15 8)).cred = some (serial, rights, c) ∧ bit rights 3 = true ∧
    s.entryBySerial serial = some x ∧ s.rngFailed = false ∧ s.maskStopped 0 = false ∧ s.servedTo .peat = none :=
  ⟨
    (mail { ((((onR.srf (aCHN_BIND 5) 15 8 9).srb (aCHN_BIND 5) 25 false).srf (aCHN_BIND 5) 3 0 4).srf (aCHN_BIND 5) 23 16 3).srf (aCHN_QUEUES 5) 7 4 3 with envm := { on.envm with lcs := 2, entries := [(4, ⟨false, false, 6, 0, 77, 0x11, 55, [1, 2]⟩)] }, sess := [(9, { sesNil with st := .ready, suite := 1, gen := 3, cred := some (55, 8, 0) })] } [0x12000012, 5, 0x03000000]),
    (req [0x12000012, 5, 0x03000000]), 55, 8, 0, (4, ⟨false, false, 6, 0, 77, 0x11, 55, [1, 2]⟩), by decide +kernel⟩

theorem test_EnrolmentRequests_5 : ∃ (s : State) (p : Packet) (rights : Byte) (k : Slot) (n : Nat),
    MailTakes s 0x12 p ∧ fld (mailArg p 1) 31 8 = 0x020000 ∧ (mailArg p 0).toNat < 124 ∧
    ((fld (mailArg p 1) 7 0 = 3 ∨ fld (mailArg p 1) 7 0 = 4)) ∧ s.feClass (mailArg p 0).toNat = 1 ∧
    s.isLocked (.cls 0) = false ∧ s.authorising = some rights ∧ s.entryByTid (mailArg p 2) = none ∧
    s.freeEntry ≠ none ∧ s.key 12 = some k ∧ PeatWorks s 127 ∧ s.freeSession = some n ∧
    s.openCount (s.rf (aCHN_QUEUES (mailArg p 0).toNat) 3 0) < 8 ∧ s.rf (aCHN_QUEUES (mailArg p 0).toNat) 3 0 < 8 ∧
    s.rf (aCHN_QUEUES (mailArg p 0).toNat) 7 4 ≠ s.rf (aCHN_QUEUES (mailArg p 0).toNat) 3 0 ∧
    s.rel.pending = false ∧ 2 ≤ s.room (s.rf (aCHN_QUEUES (mailArg p 0).toNat) 3 0) :=
  ⟨
    (mail { ((on.srf (aCHN_BIND 5) 3 0 1).srf (aCHN_QUEUES 5) 3 0 3) with slots := [(12, ⟨3, 1, false, true, 0x40, 1, zeros 16, []⟩)], peat := { on.peat with authOk := [⟨0, 9, 3, 4, 77, true⟩] }, envm := { on.envm with lcs := 2, entries := [(4, ⟨false, false, 1, 0x1234, 77, 0x11, 0, [1, 2]⟩)] } } [0x12000012, 5, 0x02000003, 78]),
    (req [0x12000012, 5, 0x02000003, 78]), 0x11, ⟨3, 1, false, true, 0x40, 1, zeros 16, []⟩, 0, by decide +kernel⟩

theorem test_EnrolmentRequests_6 : ∃ (s : State) (v : Serving) (n : Nat) (gen : Nat) (cls : Nat) (tid : Word) (rights : Byte),
    Waits s v (.byTokenAuth n gen cls tid rights) ∧ s.sesBusy n = false ∧ tfind s.dist.map n = none :=
  ⟨
    { { on with sess := [(9, { sesNil with st := .ready, suite := 1, gen := 3 })] } with peat := { { on with sess := [(9, { sesNil with st := .ready, suite := 1, gen := 3 })] }.peat with serving := some ⟨0x40, 7, [], (.byTokenAuth 9 3 3 78 0x11), false⟩ } },
    ⟨0x40, 7, [], (.byTokenAuth 9 3 3 78 0x11), false⟩, 9, 3, 3, 78, 0x11, by decide +kernel⟩

theorem test_MapQueriesAndLockouts_1 : ∃ (s : State) (m : Master) (v : Word) (e : Nat × Bytes),
    Grants s m aCRD_MAPQ ∧ bit v 31 = true ∧ s.envm.mapInit = true ∧
    s.mapCache.find? (fun e => decide (e.1 = fld v 19 0 / 32768)) = some e :=
  ⟨{ on with mapCache := [(0, [4])], envm := { on.envm with mapInit := true } }, .peat, 0x80000002, (0, [4]),
    by decide +kernel⟩

theorem test_MapQueriesAndLockouts_2 : ∃ (s : State) (k : LockTarget), (s.rawLock k).lockedUntil ≠ none :=
  ⟨{ on with envm := { on.envm with lockCls := [(2, ⟨[1], some 9⟩)] } }, (.cls 2), by decide +kernel⟩

theorem test_MapQueriesAndLockouts_3 : ∃ (s : State) (k : LockTarget), (s.rawLock k).lockedUntil = none :=
  ⟨{ on with envm := { on.envm with lockEnt := [(2, ⟨[1, 8], none⟩)] } }, (.entry 2), by decide +kernel⟩

theorem test_LfCommandsTaken_1 : ∃ (s : State) (c : LfCmd) (p : Packet), LfTakes s c p ∧ lfCmd c = 1 :=
  ⟨
    { ((((on.srf (aCHN_STATUS 5) 1 0 1).srf (aCHN_BIND 5) 3 0 1).srf (aCHN_QUEUES 5) 7 0 0x43).setReg aLF_CARRIER 0x00080000).setLane 3 { laneNil with committed := [⟨[⟨0x40330000, 0x10011234, false⟩, ⟨0x20330000, 0x02000A00, false⟩], 0, 0, 0x33, false, none, false, false, 0⟩] } with cfg := { on.cfg with active := true, sections := [(768, [1])] } },
    ⟨5, 0x10011234, 0x02000A00, 0, cOk⟩,
    ⟨[⟨0x40330000, 0x10011234, false⟩, ⟨0x20330000, 0x02000A00, false⟩], 0, 0, 0x33, false, none, false, false, 0⟩,
    by decide +kernel⟩

theorem test_LfCommandsTaken_2 : ∃ (s : State) (c : LfCmd) (p : Packet), LfTakes s c p ∧ lfCmd c = 2 :=
  ⟨
    { ({ ((((((onR.srf (aCHN_STATUS 5) 1 0 1).srf (aCHN_BIND 5) 3 0 1).srb (aCHN_BIND 5) 25 false).srf (aCHN_BIND 5) 23 8 0x309).srf (aCHN_QUEUES 5) 7 0 0x43).setReg aLF_CARRIER 0x00080000).setLane 3 { laneNil with committed := [⟨[⟨0x40330000, 0x20011234, false⟩, ⟨0x20330000, 0x02000A00, false⟩], 0, 0, 0x33, false, none, false, false, 0⟩] } with cfg := { on.cfg with active := true, sections := [(768, [1])] } }) with sess := [(9, { sesNil with st := .ready, suite := 2, gen := 3 })] },
    ⟨5, 0x20011234, 0x02000A00, 0, cOk⟩,
    ⟨[⟨0x40330000, 0x20011234, false⟩, ⟨0x20330000, 0x02000A00, false⟩], 0, 0, 0x33, false, none, false, false, 0⟩,
    by decide +kernel⟩

theorem test_LfCommandsTaken_3 : ∃ (s : State) (c : LfCmd) (p : Packet), LfTakes s c p ∧ lfCmd c = 3 :=
  ⟨
    { ((((on.srf (aCHN_STATUS 5) 1 0 1).srf (aCHN_BIND 5) 3 0 1).srf (aCHN_QUEUES 5) 7 0 0x43).setReg aLF_CARRIER 0x00080000).setLane 3 { laneNil with committed := [⟨[⟨0x40330000, 0x30011234, false⟩, ⟨0x20330000, 0x02000A00, false⟩], 0, 0, 0x33, false, none, false, false, 0⟩] } with cfg := { on.cfg with active := true, sections := [(768, [1])] } },
    ⟨5, 0x30011234, 0x02000A00, 0, cOk⟩,
    ⟨[⟨0x40330000, 0x30011234, false⟩, ⟨0x20330000, 0x02000A00, false⟩], 0, 0, 0x33, false, none, false, false, 0⟩,
    by decide +kernel⟩

theorem test_LfCommandsTaken_4 : ∃ (s : State) (c : LfCmd) (p : Packet), LfTakes s c p ∧ lfCmd c = 4 :=
  ⟨
    { ((((on.srf (aCHN_STATUS 5) 1 0 1).srf (aCHN_BIND 5) 3 0 1).srf (aCHN_QUEUES 5) 7 0 0x43).setReg aLF_CARRIER 0x00080000).setLane 3 { laneNil with committed := [⟨[⟨0x40330000, 0x40010000, false⟩, ⟨0x20330000, 0x02000A00, false⟩], 0, 0, 0x33, false, none, false, false, 0⟩] } with cfg := { on.cfg with active := true, sections := [(768, [1])] } },
    ⟨5, 0x40010000, 0x02000A00, 0, cOk⟩,
    ⟨[⟨0x40330000, 0x40010000, false⟩, ⟨0x20330000, 0x02000A00, false⟩], 0, 0, 0x33, false, none, false, false, 0⟩,
    by decide +kernel⟩

theorem test_LfCommandsTaken_5 : ∃ (s : State) (c : LfCmd) (p : Packet), LfTakes s c p ∧ lfCmd c = 5 :=
  ⟨
    { ((((on.srf (aCHN_STATUS 5) 1 0 1).srf (aCHN_BIND 5) 3 0 2).srf (aCHN_QUEUES 5) 7 0 0x43).setReg aLF_CARRIER 0x00080000).setLane 3 { laneNil with committed := [⟨[⟨0x40330000, 0x50000000, false⟩, ⟨0x20330000, 0x02000A00, false⟩], 0, 0, 0x33, false, none, false, false, 0⟩] } with cfg := { on.cfg with active := true, sections := [(768, [1])] } },
    ⟨5, 0x50000000, 0x02000A00, 0, cOk⟩,
    ⟨[⟨0x40330000, 0x50000000, false⟩, ⟨0x20330000, 0x02000A00, false⟩], 0, 0, 0x33, false, none, false, false, 0⟩,
    by decide +kernel⟩

theorem test_LfExchanges_1 : ∃ (s : State) (c : LfCmd) (o : LfConditions), s.resumed = true ∧ s.lf.cur = none ∧
    s.lfBest (lfFirsts [] s.lf.waiting) = some c ∧ s.lfLockedCmd c = false ∧ s.duty = 16 ∧
    s.rb aPWR_STATUS 4 = false ∧
    5500 ≤ ((s.lfDriven c).map fun i => s.lfVeff (s.lfCountOf i (lfTogether c (s.lfDriven c)) o.temp) (lfTogether c (s.lfDriven c)) o.vdrvIdle).foldl min o.vdrvIdle ∧
    o.opens = 0 ∧ o.shorts = 0 ∧ s.peat.serving = none ∧ lfCmd c ≠ 2 :=
  ⟨{ on with lf := { on.lf with waiting := [⟨5, 0x10011234, 0x02000A00, 0, cOk⟩] } },
    ⟨5, 0x10011234, 0x02000A00, 0, cOk⟩, ⟨9000, 8600, 25, 0, 0⟩, by decide +kernel⟩

theorem test_LfExchanges_2 : ∃ (s : State) (c : LfCmd) (o : LfConditions) (n : Nat) (d : Bytes), s.resumed = true ∧
    s.lf.cur = none ∧ s.lfBest (lfFirsts [] s.lf.waiting) = some c ∧ s.lfLockedCmd c = false ∧ s.duty = 16 ∧
    s.rb aPWR_STATUS 4 = false ∧
    5500 ≤ ((s.lfDriven c).map fun i => s.lfVeff (s.lfCountOf i (lfTogether c (s.lfDriven c)) o.temp) (lfTogether c (s.lfDriven c)) o.vdrvIdle).foldl min o.vdrvIdle ∧
    o.opens = 0 ∧ o.shorts = 0 ∧ s.peat.serving = none ∧ lfCmd c = 2 ∧ s.rngFailed = false ∧
    s.maskStopped 0 = false ∧ s.tokenSes c.chan = some n ∧ s.servedTo .lf = some (cOk, d) :=
  ⟨
    { ((on.srb (aCHN_BIND 5) 25 false).srf (aCHN_BIND 5) 23 8 0x309) with lf := { on.lf with waiting := [⟨5, 0x20011234, 0x02000A00, 0, cOk⟩] }, trng := { on.trng with served := [(.lf, cOk, zeros 8)] }, sess := [(9, { sesNil with st := .ready, suite := 2, gen := 3 })] },
    ⟨5, 0x20011234, 0x02000A00, 0, cOk⟩, ⟨9000, 8600, 25, 0, 0⟩, 9, (zeros 8), by decide +kernel⟩

theorem test_LfExchanges_3 : ∃ (s : State) (x : LfExch) (b : Bytes), LfHears s x 3 ∧ lfCmd x.cmd = 1 ∧
    b.length = 5 ∧ lfCrcOk b = true :=
  ⟨
    { on.srf (aCHN_QUEUES 5) 7 4 4 with lf := { on.lf with cur := some ⟨⟨5, 0x10011234, 0x02000A00, 0, cOk⟩, [0], [], 9, 3, [], false, false, 0, false⟩ } },
    ⟨⟨5, 0x10011234, 0x02000A00, 0, cOk⟩, [0], [], 9, 3, [], false, false, 0, false⟩,
    [1, 2, 3, 4, by8 (lfCrc [1, 2, 3, 4])], by decide +kernel⟩

theorem test_LfExchanges_4 : ∃ (s : State) (x : LfExch) (b : Bytes), LfHears s x 3 ∧ lfCmd x.cmd = 2 ∧
    lfCrcOk b = true ∧ b.dropLast = x.ta ∧ s.lfAlive x = true ∧ resultLane s x.cmd.chan ≠ 3 :=
  ⟨
    { on.srf (aCHN_QUEUES 5) 7 4 4 with lf := { on.lf with cur := some ⟨⟨5, 0x20011234, 0x02000A00, 0, cOk⟩, [0], [], 9, 3, [], false, false, 0, false⟩ }, sess := [(9, { sesNil with st := .ready, suite := 2, gen := 3 })] },
    ⟨⟨5, 0x20011234, 0x02000A00, 0, cOk⟩, [0], [], 9, 3, [], false, false, 0, false⟩, [by8 (lfCrc [])],
    by decide +kernel⟩

theorem test_LfExchanges_5 : ∃ (s : State) (x : LfExch), LfHears s x 5 ∧ lfCmd x.cmd = 3 :=
  ⟨
    { on.srf (aCHN_QUEUES 5) 7 4 4 with lf := { on.lf with cur := some ⟨⟨5, 0x30011234, 0x02000A00, 0, cOk⟩, [0], [], 9, 3, [], false, false, 0, false⟩ } },
    ⟨⟨5, 0x30011234, 0x02000A00, 0, cOk⟩, [0], [], 9, 3, [], false, false, 0, false⟩, by decide +kernel⟩

theorem test_LfExchanges_6 : ∃ (s : State) (x : LfExch), LfHears s x 5 ∧ lfCmd x.cmd ≠ 2 :=
  ⟨
    { on.srf (aCHN_QUEUES 5) 7 4 4 with lf := { on.lf with cur := some ⟨⟨5, 0x30011234, 0x02000A00, 0, cOk⟩, [0], [], 9, 3, [], false, false, 0, false⟩ } },
    ⟨⟨5, 0x30011234, 0x02000A00, 0, cOk⟩, [0], [], 9, 3, [], false, false, 0, false⟩, by decide +kernel⟩

theorem test_LfExchanges_7 : ∃ (s : State) (x : LfExch), s.lf.cur = some x ∧ x.mixed = false ∧ x.due = false ∧
    lfCmd x.cmd = 5 ∧ x.repoll = [] ∧ s.lf.carrierNext = none ∧ RoomFor s x.cmd.chan 5 ∧ LfSound s ∧
    s.peat.serving = none :=
  ⟨
    { on.srf (aCHN_QUEUES 5) 7 4 4 with lf := { on.lf with cur := some ⟨⟨5, 0x50000000, 0x02000A00, 0, cOk⟩, [0], [], 9, 3, [], false, false, 0, false⟩ } },
    ⟨⟨5, 0x50000000, 0x02000A00, 0, cOk⟩, [0], [], 9, 3, [], false, false, 0, false⟩, by decide +kernel⟩

theorem test_LfExchanges_8 : ∃ (s : State) (m : Master) (v : Word), Grants s m aLF_CARRIER ∧ s.lf.cur = none ∧
    3616 * 2 ^ 20 ≤ lfDivisor (v &&& 0x3FFFFFFF) * 10 ∧ lfDivisor (v &&& 0x3FFFFFFF) * 10 ≤ 5424 * 2 ^ 20 :=
  ⟨on, .peat, 0x1A000000, by decide +kernel⟩

theorem test_NfcCommandsTaken_1 : ∃ (s : State) (c : NfcCmd) (p : Packet) (ext : Bool), NfcTakes s c p ∧
    nfcCode c = 1 ∧ s.nfc.fieldOn = false ∧ ext = false :=
  ⟨
    { (((on.srf (aCHN_STATUS 5) 1 0 1).srf (aCHN_BIND 5) 3 0 3).srf (aCHN_QUEUES 5) 7 0 0x43).setLane 3 { laneNil with committed := [⟨[⟨0x40330000, 0x10000000, false⟩, ⟨0x20330000, 0, false⟩], 0, 0, 0x33, false, none, false, false, 0⟩] } with cfg := { on.cfg with active := true, sections := [(1024, [1])] } },
    ⟨5, 0x10000000, 0, [], false⟩,
    ⟨[⟨0x40330000, 0x10000000, false⟩, ⟨0x20330000, 0, false⟩], 0, 0, 0x33, false, none, false, false, 0⟩, false,
    by decide +kernel⟩

theorem test_NfcCommandsTaken_2 : ∃ (s : State) (c : NfcCmd) (p : Packet), NfcTakes s c p ∧ nfcCode c = 2 ∧
    RoomFor s c.chan 3 ∧ resultLane s c.chan ≠ s.rf (aCHN_QUEUES c.chan) 3 0 :=
  ⟨
    { (((on.srf (aCHN_STATUS 5) 1 0 1).srf (aCHN_BIND 5) 3 0 3).srf (aCHN_QUEUES 5) 7 0 0x43).setLane 3 { laneNil with committed := [⟨[⟨0x40330000, 0x20000000, false⟩, ⟨0x20330000, 0, false⟩], 0, 0, 0x33, false, none, false, false, 0⟩] } with cfg := { on.cfg with active := true, sections := [(1024, [1])] }, nfc := { on.nfc with fieldOn := true, card := some ⟨false, [1, 2, 3, 4], 0, 64, false⟩ } },
    ⟨5, 0x20000000, 0, [], false⟩,
    ⟨[⟨0x40330000, 0x20000000, false⟩, ⟨0x20330000, 0, false⟩], 0, 0, 0x33, false, none, false, false, 0⟩,
    by decide +kernel⟩

theorem test_NfcCommandsTaken_3 : ∃ (s : State) (c : NfcCmd) (p : Packet), NfcTakes s c p ∧ nfcCode c = 3 :=
  ⟨
    { (((on.srf (aCHN_STATUS 5) 1 0 1).srf (aCHN_BIND 5) 3 0 3).srf (aCHN_QUEUES 5) 7 0 0x43).setLane 3 { laneNil with committed := [⟨[⟨0x40330000, 0x30000000, false⟩, ⟨0x20330000, 0, false⟩], 0, 0, 0x33, false, none, false, false, 0⟩] } with cfg := { on.cfg with active := true, sections := [(1024, [1])] } },
    ⟨5, 0x30000000, 0, [], false⟩,
    ⟨[⟨0x40330000, 0x30000000, false⟩, ⟨0x20330000, 0, false⟩], 0, 0, 0x33, false, none, false, false, 0⟩,
    by decide +kernel⟩

theorem test_NfcCommandsTaken_4 : ∃ (s : State) (c : NfcCmd) (p : Packet), NfcTakes s c p ∧ nfcCode c = 4 :=
  ⟨
    { (((on.srf (aCHN_STATUS 5) 1 0 1).srf (aCHN_BIND 5) 3 0 3).srf (aCHN_QUEUES 5) 7 0 0x43).setLane 3 { laneNil with committed := [⟨[⟨0x40330000, 0x44000000, false⟩, ⟨0x20330000, 0, false⟩], 0, 0, 0x33, false, none, false, false, 0⟩] } with cfg := { on.cfg with active := true, sections := [(1024, [1])] } },
    ⟨5, 0x44000000, 0, [], false⟩,
    ⟨[⟨0x40330000, 0x44000000, false⟩, ⟨0x20330000, 0, false⟩], 0, 0, 0x33, false, none, false, false, 0⟩,
    by decide +kernel⟩

theorem test_NfcCommandsTaken_5 : ∃ (s : State) (c : NfcCmd) (p : Packet), NfcTakes s c p ∧ nfcCode c = 5 :=
  ⟨
    { (((on.srf (aCHN_STATUS 5) 1 0 1).srf (aCHN_BIND 5) 3 0 3).srf (aCHN_QUEUES 5) 7 0 0x43).setLane 3 { laneNil with committed := [⟨[⟨0x40330000, 0x50000004, false⟩, ⟨0x00330000, 0, false⟩, ⟨0x20330000, 0x04030201, false⟩], 0, 0, 0x33, false, none, false, false, 0⟩] } with cfg := { on.cfg with active := true, sections := [(1024, [1])] }, nfc := { on.nfc with fieldOn := true, card := some ⟨false, [1, 2, 3, 4], 0, 64, false⟩ } },
    ⟨5, 0x50000004, 0, [1, 2, 3, 4], false⟩,
    ⟨[⟨0x40330000, 0x50000004, false⟩, ⟨0x00330000, 0, false⟩, ⟨0x20330000, 0x04030201, false⟩], 0, 0, 0x33, false, none, false, false, 0⟩,
    by decide +kernel⟩

theorem test_NfcCommandsTaken_6 : ∃ (s : State) (c : NfcCmd) (p : Packet), NfcTakes s c p ∧ nfcCode c = 6 :=
  ⟨
    { (((on.srf (aCHN_STATUS 5) 1 0 1).srf (aCHN_BIND 5) 3 0 3).srf (aCHN_QUEUES 5) 7 0 0x43).setLane 3 { laneNil with committed := [⟨[⟨0x40330000, 0x60000004, false⟩, ⟨0x00330000, 0, false⟩, ⟨0x20330000, 0x04030201, false⟩], 0, 0, 0x33, false, none, false, false, 0⟩] } with cfg := { on.cfg with active := true, sections := [(1024, [1])] } },
    ⟨5, 0x60000004, 0, [1, 2, 3, 4], false⟩,
    ⟨[⟨0x40330000, 0x60000004, false⟩, ⟨0x00330000, 0, false⟩, ⟨0x20330000, 0x04030201, false⟩], 0, 0, 0x33, false, none, false, false, 0⟩,
    by decide +kernel⟩

theorem test_NfcCommandsTaken_7 : ∃ (s : State) (c : NfcCmd) (p : Packet), NfcTakes s c p ∧ nfcCode c = 7 ∧
    s.nfc.card ≠ none :=
  ⟨
    { (((on.srf (aCHN_STATUS 5) 1 0 1).srf (aCHN_BIND 5) 3 0 3).srf (aCHN_QUEUES 5) 7 0 0x43).setLane 3 { laneNil with committed := [⟨[⟨0x40330000, 0x70000000, false⟩, ⟨0x20330000, 0, false⟩], 0, 0, 0x33, false, none, false, false, 0⟩] } with cfg := { on.cfg with active := true, sections := [(1024, [1])] }, nfc := { on.nfc with fieldOn := true, card := some ⟨false, [1, 2, 3, 4], 0, 64, false⟩ } },
    ⟨5, 0x70000000, 0, [], false⟩,
    ⟨[⟨0x40330000, 0x70000000, false⟩, ⟨0x20330000, 0, false⟩], 0, 0, 0x33, false, none, false, false, 0⟩,
    by decide +kernel⟩

theorem test_NfcCommandsTaken_8 : ∃ (s : State) (c : NfcCmd) (p : Packet), NfcTakes s c p ∧ nfcCode c = 8 ∧
    s.rf aNFC_LPCD 7 0 ≠ 0 ∧ RoomFor s c.chan 4 ∧ resultLane s c.chan ≠ s.rf (aCHN_QUEUES c.chan) 3 0 :=
  ⟨
    { ((((on.srf aNFC_LPCD 7 0 5).srf (aCHN_STATUS 5) 1 0 1).srf (aCHN_BIND 5) 3 0 3).srf (aCHN_QUEUES 5) 7 0 0x43).setLane 3 { laneNil with committed := [⟨[⟨0x40330000, 0x80000000, false⟩, ⟨0x20330000, 0, false⟩], 0, 0, 0x33, false, none, false, false, 0⟩] } with cfg := { on.cfg with active := true, sections := [(1024, [1])] } },
    ⟨5, 0x80000000, 0, [], false⟩,
    ⟨[⟨0x40330000, 0x80000000, false⟩, ⟨0x20330000, 0, false⟩], 0, 0, 0x33, false, none, false, false, 0⟩,
    by decide +kernel⟩

theorem test_NfcExchangesEnd_1 : ∃ (s : State) (c : NfcCmd) (b : Bytes), s.nfc.cur = some c ∧ c.mixed = false ∧
    nfcCode c = 5 ∧ (s.nfc.answer ++ b).length ≤ 4096 ∧
    RoomFor s c.chan (((s.nfc.answer ++ b).length + 3) / 4 + 3) :=
  ⟨
    { on.srf (aCHN_QUEUES 5) 7 4 4 with nfc := { on.nfc with fieldOn := true, cur := some ⟨5, 0x50000004, 0, [], false⟩, card := some ⟨false, [1, 2, 3, 4], 0, 64, false⟩, answer := [7] } },
    ⟨5, 0x50000004, 0, [], false⟩, [9, 8, 7, 6, 5], by decide +kernel⟩

theorem test_NfcExchangesEnd_2 : ∃ (s : State) (c : NfcCmd) (k : Card), s.nfc.cur = some c ∧ nfcCode c = 5 ∧
    s.nfc.card = some k ∧ s.nfc.naks < 2 :=
  ⟨
    { on.srf (aCHN_QUEUES 5) 7 4 4 with nfc := { on.nfc with fieldOn := true, cur := some ⟨5, 0x50000004, 0, [], false⟩, card := some ⟨false, [1, 2, 3, 4], 0, 64, false⟩ } },
    ⟨5, 0x50000004, 0, [], false⟩, ⟨false, [1, 2, 3, 4], 0, 64, false⟩, by decide +kernel⟩

theorem test_NfcExchangesEnd_3 : ∃ (s : State) (c : NfcCmd) (k : Card), s.nfc.cur = some c ∧ nfcCode c = 5 ∧
    s.nfc.card = some k ∧ s.nfc.naks < 2 :=
  ⟨
    { on.srf (aCHN_QUEUES 5) 7 4 4 with nfc := { on.nfc with fieldOn := true, cur := some ⟨5, 0x50000004, 0, [], false⟩, card := some ⟨false, [1, 2, 3, 4], 0, 64, false⟩ } },
    ⟨5, 0x50000004, 0, [], false⟩, ⟨false, [1, 2, 3, 4], 0, 64, false⟩, by decide +kernel⟩

theorem test_NfcExchangesEnd_4 : ∃ (s : State) (c : NfcCmd) (b : Bytes) (l : List Bytes), s.nfc.cur = some c ∧
    nfcCode c = 5 ∧ s.nfc.left = b :: l :=
  ⟨
    { on.srf (aCHN_QUEUES 5) 7 4 4 with nfc := { on.nfc with fieldOn := true, cur := some ⟨5, 0x50000004, 0, [], false⟩, card := some ⟨false, [1, 2, 3, 4], 0, 64, false⟩, left := [[1, 2], [3]] } },
    ⟨5, 0x50000004, 0, [], false⟩, [1, 2], [[3]], by decide +kernel⟩

theorem test_NfcExchangesEnd_5 : ∃ (s : State) (c : NfcCmd) (k : Card), s.nfc.cur = some c ∧ c.mixed = false ∧
    nfcCode c = 7 ∧ s.nfc.card = some k ∧ RoomFor s c.chan 3 :=
  ⟨
    { on.srf (aCHN_QUEUES 5) 7 4 4 with nfc := { on.nfc with fieldOn := true, cur := some ⟨5, 0x70000000, 0, [], false⟩, card := some ⟨false, [1, 2, 3, 4], 0, 64, false⟩ } },
    ⟨5, 0x70000000, 0, [], false⟩, ⟨false, [1, 2, 3, 4], 0, 64, false⟩, by decide +kernel⟩

theorem test_NfcExchangesEnd_6 : ∃ (s : State) (c : NfcCmd), s.nfc.cur = some c ∧ c.mixed = false ∧
    ((nfcCode c = 6 ∨ nfcCode c = 5 ∧ 2 ≤ s.nfc.naks)) ∧ RoomFor s c.chan 3 :=
  ⟨
    { on.srf (aCHN_QUEUES 5) 7 4 4 with nfc := { on.nfc with fieldOn := true, cur := some ⟨5, 0x60000004, 0, [], false⟩ } },
    ⟨5, 0x60000004, 0, [], false⟩, by decide +kernel⟩

theorem test_NfcExchangesEnd_7 : ∃ (s : State) (c : NfcCmd), s.nfc.cur = some c ∧ c.mixed = false ∧ nfcCode c = 1 ∧
    RoomFor s c.chan 3 :=
  ⟨
    { on.srf (aCHN_QUEUES 5) 7 4 4 with nfc := { on.nfc with fieldOn := true, cur := some ⟨5, 0x10000000, 0, [], false⟩ } },
    ⟨5, 0x10000000, 0, [], false⟩, by decide +kernel⟩

theorem test_NfcExchangesEnd_8 : ∃ (s : State), s.nfc.cur = none :=
  ⟨{ on with nfc := { on.nfc with guard := true } }, by decide +kernel⟩

theorem test_TagActivation_1 : ∃ (s : State), s.tag.field = false ∧ s.envm.islandCfg ≠ none ∧ s.envm.lcs ≠ 5 :=
  ⟨{ tagOn with tag := on.tag }, by decide +kernel⟩

theorem test_TagActivation_2 : ∃ (s : State), s.tag.field = true ∧ s.tag.ready = false ∧ s.counter 47 ≠ 0xFFFFFFFF ∧
    s.envm.logHeld = none :=
  ⟨{ tagOn with tag := { tagOn.tag with ready := false } }, by decide +kernel⟩

theorem test_TagActivation_3 : ∃ (s : State), s.tag.field = true ∧ s.tag.shadows = [] :=
  ⟨tagOn, by decide +kernel⟩

theorem test_TagActivation_4 : ∃ (s : State), s.tagHears = true ∧ s.tag.active = false ∧ s.tag.picked = false :=
  ⟨tagIdle, by decide +kernel⟩

theorem test_TagActivation_5 : ∃ (s : State), s.tagHears = true ∧ s.tag.active = false ∧ s.tag.picked = false :=
  ⟨tagIdle, by decide +kernel⟩

theorem test_TagActivation_6 : ∃ (s : State) (n : Nat) (b : Bytes), s.tagHears = true ∧ s.tag.active = false ∧
    s.tag.picked = false ∧ n < 40 ∧
    ((List.range n).all fun i => strBit b i == strBit (s.tag.uid ++ [bccOf s.tag.uid]) i) = true :=
  ⟨tagIdle, 9, [8, 1], by decide +kernel⟩

theorem test_TagActivation_7 : ∃ (s : State), s.tagHears = true ∧ s.tag.active = false :=
  ⟨tagIdle, by decide +kernel⟩

theorem test_TagActivation_8 : ∃ (s : State), s.tagHears = true ∧ s.tag.active = false ∧ s.tag.picked = true :=
  ⟨{ tagOn with tag := { tagOn.tag with active := false } }, by decide +kernel⟩

theorem test_TagActivation_9 : ∃ (s : State), s.tagTakes = true :=
  ⟨tagOn, by decide +kernel⟩

theorem test_TagForwarding_1 : ∃ (s : State), s.tagTakes = true ∧ bit s.tagCfg 8 = true ∧ s.tag.j ≤ 255 :=
  ⟨tagOn, by decide +kernel⟩

theorem test_TagForwarding_2 : ∃ (s : State) (n : Nat) (apdu : Bytes), s.tagTakes = true ∧ bit s.tagCfg 9 = true ∧
    s.resumed = true ∧ s.tagChannel = some n ∧ RoomFor s n (apdu.length / 4 + 1) :=
  ⟨((tagOn.srf (aCHN_STATUS 5) 1 0 1).srf (aCHN_BIND 5) 3 0 4).srf (aCHN_QUEUES 5) 7 0 0x43, 5, [1, 2, 3, 4, 5],
    by decide +kernel⟩

theorem test_TagForwarding_3 : ∃ (s : State) (n : Nat) (apdu : Bytes), s.tagTakes = true ∧ s.tag.forwarding = true ∧
    s.resumed = true ∧ s.tagChannel = some n ∧ RoomFor s n (apdu.length / 4 + 1) :=
  ⟨
    { ((tagOn.srf (aCHN_STATUS 5) 1 0 1).srf (aCHN_BIND 5) 3 0 4).srf (aCHN_QUEUES 5) 7 0 0x43 with tag := { tagOn.tag with forwarding := true } },
    5, [1, 2, 3, 4, 5], by decide +kernel⟩

theorem test_TagForwarding_4 : ∃ (s : State) (n : Nat) (p : Packet), s.tagChannel = some n ∧
    s.feHead n [4] = some p ∧ packetBroken p = false ∧ s.tagShared n = false ∧ s.tag.fwdStale = 0 ∧
    s.tag.fwdWait = true :=
  ⟨
    { (((tagOn.srf (aCHN_STATUS 5) 1 0 1).srf (aCHN_BIND 5) 3 0 4).srf (aCHN_QUEUES 5) 7 0 0x43).setLane 3 { laneNil with committed := [req [7]] } with tag := { tagOn.tag with forwarding := true, fwdWait := true } },
    5, (req [7]), by decide +kernel⟩

theorem test_TagForwarding_5 : ∃ (s : State), s.tag.fwdWait = true :=
  ⟨{ tagOn with tag := { tagOn.tag with fwdWait := true } }, by decide +kernel⟩

theorem test_TagForwarding_6 : ∃ (s : State), s.tag.field = true ∧ s.tagWaiting = true :=
  ⟨{ tagOn with tag := { tagOn.tag with fwdWait := true } }, by decide +kernel⟩

theorem test_TagForwarding_7 : ∃ (s : State), s.tagTakes = true ∧ s.tag.selected = true :=
  ⟨tagOn, by decide +kernel⟩

theorem test_TagForwarding_8 : ∃ (s : State), s.tagTakes = true ∧ s.tag.selected = true :=
  ⟨tagOn, by decide +kernel⟩

theorem test_TagRecordsAndUnlock_1 : ∃ (s : State) (tid : Bytes) (np : Bytes) (mac : Bytes) (w : Bool) (n : Nat) (e : Entry),
    s.tagTakes = true ∧ s.tag.selected = true ∧ s.tagLocked w = false ∧
    s.entryByTid (w32 (ofLE (slice tid 0 4))) = some (n, e) ∧ s.isLocked (.entry n) = false ∧
    e.rights.getLsbD 3 = true ∧ (cmac e.key (0x50 :: slice tid 0 4 ++ s.tag.ni ++ np)).take 8 = mac :=
  ⟨tagOn, [77, 0, 0, 0], [1], ((cmac (zeros 16) [0x50, 77, 0, 0, 0, 9, 9, 1]).take 8), false, 4,
    ⟨false, false, 6, 0, 77, 0x19, 55, zeros 16⟩,
    by decide +kernel, by decide +kernel, by decide +kernel, by decide +kernel, by decide +kernel, by decide +kernel, rfl⟩

theorem test_TagRecordsAndUnlock_2 : ∃ (s : State) (n : Nat), s.tagTakes = true ∧ s.tag.selected = true ∧
    s.recMap n % 4 ≠ 0 ∧ s.recMap n / 16 % 4 ≠ 0 ∧ ((s.recMap n / 16 % 4 ≠ 2 ∨ s.tag.authEntry ≠ none)) ∧
    s.hostWrites n = false ∧ n ∉ s.envm.tornRecs :=
  ⟨tagOn, 0, by decide +kernel⟩

theorem test_TagRecordsAndUnlock_3 : ∃ (s : State) (n : Nat) (mv : Nat) (b : Bytes), s.tagTakes = true ∧
    s.tag.selected = true ∧ s.tag.authEntry ≠ none ∧ ((s.recMap n % 4 = 1 ∨ s.recMap n % 4 = 2)) ∧
    testBit (s.recMap n) 6 = true ∧ s.hostWrites n = false ∧ b.length = recSize (s.recMap n % 4) ∧
    gateMv b.length ≤ mv :=
  ⟨tagOn, 0, 3000, (zeros 16), by decide +kernel⟩

theorem test_TagRecordsAndUnlock_4 : ∃ (s : State) (n : Nat), s.tag.writing = some n ∧ s.tag.field = true ∧
    s.tag.pendingAnswer = true ∧ tfind s.tag.shadows n = none ∧ s.tag.hostReadWaits = none :=
  ⟨{ tagOn with tag := { tagOn.tag with writing := some 0, pendingAnswer := true } }, 0, by decide +kernel⟩

theorem test_TagRecordsAndUnlock_5 : ∃ (s : State) (n : Nat), s.tagTakes = true ∧ s.tag.selected = true ∧
    s.tag.authEntry = some n ∧ s.mainUp = true ∧ s.resumed = true :=
  ⟨tagOn, 4, by decide +kernel⟩

theorem test_TagRecordsAndUnlock_6 : ∃ (s : State) (n : Nat), s.tagTakes = true ∧ s.tag.selected = true ∧
    s.tag.authEntry = some n ∧ s.mainUp = false ∧ s.tag.fired = false :=
  ⟨tagOn.srb aPWR_STATUS 5 true, 4, by decide +kernel⟩

theorem test_TagRecordsAndUnlock_7 : ∃ (s : State), s.tag.unlockWait = true :=
  ⟨{ tagOn with tag := { tagOn.tag with unlockWait := true } }, by decide +kernel⟩

theorem test_TagRecordsAndUnlock_8 : ∃ (s : State), s.tag.pulse = true ∧ s.tag.field = true :=
  ⟨{ tagOn with tag := { tagOn.tag with pulse := true } }, by decide +kernel⟩

theorem test_TagRecordsAndUnlock_9 : ∃ (s : State), s.tag.unlockWait = true :=
  ⟨{ tagOn with tag := { tagOn.tag with unlockWait := true } }, by decide +kernel⟩

theorem test_TagRecordsAndUnlock_10 : ∃ (s : State) (m : Master) (v : Word), Grants s m aTAG_ISACK ∧
    s.tag.isackWait = true ∧ fld v 7 0 = cOk.toNat :=
  ⟨{ tagOn with tag := { tagOn.tag with isackWait := true } }, .peat, 0x100, by decide +kernel⟩

theorem test_TagRecordsAndUnlock_11 : ∃ (s : State), s.tag.isackWait = true :=
  ⟨{ tagOn with tag := { tagOn.tag with isackWait := true } }, by decide +kernel⟩

theorem test_HostRecords_1 : ∃ (s : State) (m : Master) (v : Word), Grants s m aTAG_HCMD ∧ s.tag.hostBusy = none ∧
    s.recMap (fld v 7 0) % 4 ≠ 0 ∧ testBit (s.recMap (fld v 7 0)) 2 = true :=
  ⟨tagOn, .host, 0, by decide +kernel⟩

theorem test_HostRecords_2 : ∃ (s : State) (m : Master) (v : Word), Grants s m aTAG_HCMD ∧ s.tag.hostBusy = none ∧
    s.recMap (fld v 7 0) % 4 ≠ 0 ∧ testBit (s.recMap (fld v 7 0)) 3 = true ∧ s.fieldOpen (fld v 7 0) = false :=
  ⟨tagOn, .host, 0, by decide +kernel⟩

theorem test_HostRecords_3 : ∃ (s : State) (n : Nat), s.tag.hostBusy = some (true, n) ∧ s.tag.fieldWaits = none :=
  ⟨{ tagOn with tag := { tagOn.tag with hostBusy := some (true, 0) } }, 0, by decide +kernel⟩

theorem test_HostRecords_4 : ∃ (s : State) (n : Nat), s.tag.hostBusy = some (false, n) ∧
    s.tag.hostReadWaits = none ∧ n ∉ s.envm.tornRecs ∧ n < 256 :=
  ⟨
    { { tagOn with tag := { tagOn.tag with hostBusy := some (false, 0) } } with envm := { tagOn.envm with tussock := [(0, [1, 2, 3, 4, 5, 6, 7, 8, 9, 10, 11, 12, 13, 14, 15, 16])] } },
    0, by decide +kernel⟩

theorem test_KeyStoreMakesKeys_1 : ∃ (s : State) (m : Master) (d : Bytes), Grants s m aKST_CMD ∧ s.peat.kst = none ∧
    s.kstDest (s.reg (aKST_ARG 0)) (s.reg (aKST_ARG 1)) = cOk ∧ s.servedTo .keyStore = some (cOk, d) ∧
    s.rngFailed = false ∧ BlobKey s (s.reg (aKST_ARG 0)) (s.reg (aKST_ARG 1)) ∧ PeatWorks s 127 ∧
    ((kSes (s.reg (aKST_ARG 0)) = true → 16 * kLen (s.reg (aKST_ARG 0)) ≤ d.length)) :=
  ⟨
    { ((on.setReg (aKST_ARG 0) 0x18001).setReg (aKST_ARG 1) 0x00010101) with trng := { on.trng with served := [(.keyStore, cOk, zeros 16)] } },
    .peat, (zeros 16), by decide +kernel⟩

theorem test_KeyStoreMakesKeys_2 : ∃ (s : State) (m : Master), Grants s m aKST_CMD ∧ s.peat.kst = none ∧
    s.kstDest (s.reg (aKST_ARG 0)) (s.reg (aKST_ARG 1)) = cOk ∧ s.servedTo .keyStore = none ∧ s.rngFailed = false :=
  ⟨((onR.setReg (aKST_ARG 0) 0x18001).setReg (aKST_ARG 1) 0x00010101), .peat, by decide +kernel⟩

theorem test_KeyStoreMakesKeys_3 : ∃ (s : State) (m : Master), Grants s m aKST_CMD ∧ s.peat.kst = none ∧
    s.maskStopped 0 = false ∧ s.kstDest (s.reg (aKST_ARG 0)) (setFld (s.reg (aKST_ARG 3)) 31 18 0) = cOk ∧
    s.keyCheck 124 (s.reg (aKST_ARG 1)) 8 = cOk ∧
    ((kSes (s.reg (aKST_ARG 1)) = true → kLen (s.reg (aKST_ARG 1)) ≤ 2)) ∧
    fld (s.reg (aKST_ARG 3)) 31 24 = 16 * kLen (s.reg (aKST_ARG 0)) + 8 ∧ PeatWorks s 127 ∧
    0x50000000 ≤ (s.reg (aKST_ARG 2)).toNat ∧
    (s.reg (aKST_ARG 2)).toNat + fld (s.reg (aKST_ARG 3)) 31 24 ≤ 0x50000000 + 8 * s.bnBase true ∧
    BlobKey s (s.reg (aKST_ARG 0)) (setFld (s.reg (aKST_ARG 3)) 31 18 0) :=
  ⟨
    (({ ((((on.setReg (aKST_ARG 0) 0x18001).setReg (aKST_ARG 1) 0x15001).setReg (aKST_ARG 2) 0x50000000).setReg (aKST_ARG 3) 0x18010101).setReg aBN_PART 0x20 with slots := [(21, ⟨0, 1, true, false, 0x48, 1, zeros 16, []⟩)] }).memWrite 0x50000000 (kwWrap (zeros 16) (List.replicate 16 7))),
    .peat, by decide +kernel⟩

theorem test_KeyStoreMakesKeys_4 : ∃ (s : State) (m : Master) (km : Bool), Grants s m aKST_CMD ∧ s.peat.kst = none ∧
    fld (s.reg (aKST_ARG 3)) 31 24 ≠ 0 ∧
    s.kstDest (s.reg (aKST_ARG 0)) (setFld (s.reg (aKST_ARG 3)) 31 18 0) = cOk ∧
    s.keyCheck 124 (s.reg (aKST_ARG 1)) 0x40 = cOk ∧
    km = (if kSes (s.reg (aKST_ARG 1)) then decide (1 < kLen (s.reg (aKST_ARG 1))) else decide (s.keyType (s.reg (aKST_ARG 1)) = 7)) ∧
    (km || decide (fld (s.reg (aKST_ARG 3)) 31 24 = 16 * kLen (s.reg (aKST_ARG 0)) ∧
    fld (s.reg (aKST_ARG 3)) 31 24 ≤ 32)) = true ∧ PeatWorks s 127 ∧ 69 ≤ s.room 10 ∧
    BlobKey s (s.reg (aKST_ARG 0)) (setFld (s.reg (aKST_ARG 3)) 31 18 0) ∧ 0x50000000 ≤ (s.reg (aKST_ARG 2)).toNat ∧
    (s.reg (aKST_ARG 2)).toNat + fld (s.reg (aKST_ARG 3)) 31 24 ≤ 0x50000000 + 8 * s.bnBase true :=
  ⟨
    { ((((on.setReg (aKST_ARG 0) 0x18001).setReg (aKST_ARG 1) 0x15001).setReg (aKST_ARG 2) 0x50000000).setReg (aKST_ARG 3) 0x10010101).setReg aBN_PART 0x20 with slots := [(21, ⟨0, 1, true, false, 0x48, 1, zeros 16, []⟩)] },
    .peat, false, by decide +kernel⟩

theorem test_KeyStoreMakesKeys_5 : ∃ (s : State) (m : Master), Grants s m aKST_CMD ∧ s.peat.kst = none ∧
    s.kstForm (s.reg (aKST_ARG 0)) (s.reg (aKST_ARG 2)) = cOk ∧ s.keyCheck 124 (s.reg (aKST_ARG 1)) 0 = cOk ∧
    kLen (s.reg (aKST_ARG 0)) = kLen (s.reg (aKST_ARG 1)) ∧ BlobKey s (s.reg (aKST_ARG 0)) (s.reg (aKST_ARG 2)) :=
  ⟨
    { (((on.setReg (aKST_ARG 0) 0x14001).setReg (aKST_ARG 1) 0x15001).setReg (aKST_ARG 2) 0x00010101) with slots := [(21, ⟨0, 1, true, false, 0x48, 1, zeros 16, []⟩)] },
    .peat, by decide +kernel⟩

theorem test_KeyStoreObjects_1 : ∃ (s : State) (m : Master) (e : Entry), Grants s m aKST_CMD ∧ s.peat.kst = none ∧
    keyForm (s.reg (aKST_ARG 0)) = cOk ∧ kSes (s.reg (aKST_ARG 0)) = true ∧ (s.reg (aKST_ARG 1)).toNat ≤ 63 ∧
    s.sesCheck 124 (s.reg (aKST_ARG 0)) = cOk ∧ tfind s.envm.entries (s.reg (aKST_ARG 1)).toNat = some e :=
  ⟨
    { ((on.setReg (aKST_ARG 0) 0x80009011).setReg (aKST_ARG 1) 7) with sess := [(9, { sesNil with st := .ready, suite := 1 })], envm := { on.envm with entries := [(7, ⟨false, false, 0, 0, 5, 3, 1, List.replicate 16 7⟩)] } },
    .peat, ⟨false, false, 0, 0, 5, 3, 1, List.replicate 16 7⟩, by decide +kernel⟩

theorem test_KeyStoreObjects_2 : ∃ (s : State) (m : Master) (e : Entry), Grants s m aKST_CMD ∧ s.peat.kst = none ∧
    s.keyCheck 124 (s.reg (aKST_ARG 0)) 0 = cOk ∧ (s.reg (aKST_ARG 1)).toNat ≤ 63 ∧ kLen (s.reg (aKST_ARG 0)) = 1 ∧
    tfind s.envm.entries (s.reg (aKST_ARG 1)).toNat = some e :=
  ⟨
    { ((on.setReg (aKST_ARG 0) 0x14001).setReg (aKST_ARG 1) 7) with slots := [(20, ⟨0, 1, true, false, 0x48, 1, zeros 16, []⟩)], envm := { on.envm with entries := [(7, ⟨false, false, 0, 0, 5, 3, 1, List.replicate 16 7⟩)] } },
    .peat, ⟨false, false, 0, 0, 5, 3, 1, List.replicate 16 7⟩, by decide +kernel⟩

theorem test_KeyStoreObjects_3 : ∃ (s : State) (m : Master), Grants s m aKST_CMD ∧ s.peat.kst = none ∧
    s.keyCheck 124 (s.reg (aKST_ARG 0)) 0 = cOk ∧ s.reg (aKST_ARG 1) = 64 ∧ kLen (s.reg (aKST_ARG 0)) = 1 :=
  ⟨
    { ((on.setReg (aKST_ARG 0) 0x14001).setReg (aKST_ARG 1) 64) with slots := [(20, ⟨0, 1, true, false, 0x48, 1, zeros 16, []⟩)] },
    .peat, by decide +kernel⟩

theorem test_KeyStoreObjects_4 : ∃ (s : State) (m : Master), Grants s m aKST_CMD ∧ s.peat.kst = none ∧
    s.keyCheck 124 (s.reg (aKST_ARG 0)) 0 = cOk ∧ kSes (s.reg (aKST_ARG 0)) = false :=
  ⟨{ (on.setReg (aKST_ARG 0) 0x14001) with slots := [(20, ⟨0, 1, true, false, 0x48, 1, zeros 16, []⟩)] }, .peat,
    by decide +kernel⟩

theorem test_KeyStoreObjects_5 : ∃ (s : State) (m : Master), Grants s m aKST_CMD ∧ s.peat.kst = none ∧
    s.keyCheck 124 (s.reg (aKST_ARG 0)) 0 = cOk ∧ kSes (s.reg (aKST_ARG 0)) = true :=
  ⟨{ (on.setReg (aKST_ARG 0) 0x80009011) with sess := [(9, { sesNil with st := .ready, suite := 1 })] }, .peat,
    by decide +kernel⟩

theorem test_KeyStoreObjects_6 : ∃ (s : State) (m : Master), Grants s m aKST_CMD ∧ s.peat.kst = none ∧
    (s.reg (aKST_ARG 0)).toNat ≤ 63 ∧ s.counter (s.reg (aKST_ARG 0)).toNat ≠ 0xFFFFFFFF :=
  ⟨(on.setReg (aKST_ARG 0) 63), .peat, by decide +kernel⟩

theorem test_KeyStoreObjects_7 : ∃ (s : State) (m : Master), Grants s m aKST_CMD ∧ s.peat.kst = none ∧
    (s.reg (aKST_ARG 0)).toNat ≤ 63 ∧ s.counter (s.reg (aKST_ARG 0)).toNat ≠ 0xFFFFFFFF ∧
    s.counter (s.reg (aKST_ARG 0)).toNat < s.reg (aKST_ARG 1) :=
  ⟨((on.setReg (aKST_ARG 0) 63).setReg (aKST_ARG 1) 9), .peat, by decide +kernel⟩

theorem test_KeyStoreObjects_8 : ∃ (s : State) (m : Master), Grants s m aKST_CMD ∧ s.peat.kst = none ∧
    s.envm.lcs = 0 ∧ s.envm.helper = none :=
  ⟨on, .peat, by decide +kernel⟩

theorem test_KeyStoreObjects_9 : ∃ (s : State) (m : Master), Grants s m aKST_CMD ∧ s.peat.kst = none ∧
    1 ≤ (s.reg (aKST_ARG 0)).toNat ∧ (s.reg (aKST_ARG 0)).toNat ≤ 4 ∧
    s.epochOf (s.reg (aKST_ARG 0)).toNat ≠ 0xFFFFFFFF :=
  ⟨(on.setReg (aKST_ARG 0) 3), .peat, by decide +kernel⟩

theorem test_RandomSourceStartUp_1 : ∃ (s : State), s.rngState = 1 :=
  ⟨on.setRng 1, by decide +kernel⟩

theorem test_RandomSourceStartUp_2 : ∃ (s : State), s.rngState = 2 :=
  ⟨on.setRng 2, by decide +kernel⟩

theorem test_RandomSourceStartUp_3 : ∃ (s : State) (m : Master), Grants s m aTRNG_CTL ∧ s.rngState ≠ 0 :=
  ⟨on.setRng 4, .peat, by decide +kernel⟩

theorem test_RandomSourceStartUp_4 : ∃ (s : State) (n : Nat), n < 3 ∧ s.resumed = true :=
  ⟨on, 2, by decide +kernel⟩

theorem test_RandomSourceStartUp_5 : ∃ (s : State) (n : Nat), n < 3 ∧ s.resumed = true ∧
    s.rb (aTRNG_MASK n) 30 = true :=
  ⟨on.srb (aTRNG_MASK 2) 30 true, 2, by decide +kernel⟩

theorem test_HealthFailureCounts_1 : ∃ (s : State), ((s.rngState = 2 ∨ s.rngState = 3)) ∧
    s.rf aTRNG_STATUS 5 4 < 2 ∧ s.trng.served = [] ∧ s.peat.kisDue = false ∧ s.envm.entryDue = none :=
  ⟨(on.setRng 2).srf aTRNG_STATUS 5 4 1, by decide +kernel⟩

theorem test_HealthFailureCounts_2 : ∃ (s : State), ((s.rngState = 2 ∨ s.rngState = 3)) ∧
    2 ≤ s.rf aTRNG_STATUS 5 4 ∧ failedDraws cRngFail s.trng.reqs = [] ∧ s.trng.served = [] ∧ s.peat.kisDue = false ∧
    s.envm.entryDue = none :=
  ⟨((on.setRng 3).srf aTRNG_STATUS 5 4 2).setCallers [.port 4, .mask 1], by decide +kernel⟩

theorem test_HealthFailureCounts_3 : ∃ (s : State) (k : KstRun) (need : Nat) (got : Bytes),
    ((s.rngState = 2 ∨ s.rngState = 3)) ∧ 2 ≤ s.rf aTRNG_STATUS 5 4 ∧ s.peat.kst = some k ∧ k.mixed = false ∧
    s.trng.reqs = [.draw .keyStore need got] ∧ s.trng.served = [] ∧ s.peat.kisDue = false ∧
    s.envm.entryDue = none :=
  ⟨
    { ((on.setRng 3).srf aTRNG_STATUS 5 4 2).setKst (some ⟨0x18001, 0x00010101, false⟩) with trng := { (((on.setRng 3).srf aTRNG_STATUS 5 4 2).setKst (some ⟨0x18001, 0x00010101, false⟩)).trng with reqs := [.draw .keyStore 16 []] } },
    ⟨0x18001, 0x00010101, false⟩, 16, [], by decide +kernel⟩

theorem test_HealthFailureCounts_4 : ∃ (s : State) (raw : Bytes) (l : List (SourceTest × Bool × Bool)),
    ((s.rngState = 3 ∨ (s.rngState = 2 ∧ s.trng.testsPassed = true))) ∧ l = s.testPool raw ∧
    (l.any fun x => x.2.1 || x.2.2) = true ∧ s.rf aTRNG_STATUS 5 4 < 2 ∧ s.trng.served = [] ∧
    s.peat.kisDue = false ∧ s.envm.entryDue = none :=
  ⟨on.setRng 3, (zeros 11), ((on.setRng 3).testPool (zeros 11)), by decide +kernel⟩

theorem test_ConditionedBlockDelivery_1 : ∃ (s : State) (raw : Bytes) (n : Nat),
    ((s.rngState = 3 ∨ (s.rngState = 2 ∧ s.trng.testsPassed = true))) ∧
    ((s.testPool raw).all fun x => !x.2.1 && !x.2.2) = true ∧ firstMask s.trng.reqs = some n ∧ s.trng.served = [] ∧
    s.peat.kisDue = false ∧ s.envm.entryDue = none :=
  ⟨(on.setRng 3).setCallers [.port 1, .mask 2, .mask 1], (List.replicate 128 [0x10, 0x32]).flatten, 1,
    by decide +kernel⟩

theorem test_ConditionedBlockDelivery_2 : ∃ (s : State) (raw : Bytes) (k : Nat),
    ((s.rngState = 3 ∨ (s.rngState = 2 ∧ s.trng.testsPassed = true))) ∧
    ((s.testPool raw).all fun x => !x.2.1 && !x.2.2) = true ∧ s.trng.reqs = [.port k] ∧ k ≤ 8 ∧ s.trng.served = [] ∧
    s.peat.kisDue = false ∧ s.envm.entryDue = none :=
  ⟨(on.setRng 3).setCallers [.port 8], (List.replicate 128 [0x10, 0x32]).flatten, 8, by decide +kernel⟩

theorem test_ConditionedBlockDelivery_3 : ∃ (s : State) (raw : Bytes) (k : KstRun) (need : Nat),
    ((s.rngState = 3 ∨ (s.rngState = 2 ∧ s.trng.testsPassed = true))) ∧
    ((s.testPool raw).all fun x => !x.2.1 && !x.2.2) = true ∧ s.trng.reqs = [.draw .keyStore need []] ∧ 1 ≤ need ∧
    need ≤ 32 ∧ s.peat.kst = some k ∧ k.mixed = false ∧
    need = (if kSes k.a0 then 16 * kLen k.a0 else drawBytes (kwType k.a1)) ∧ s.kstDest k.a0 k.a1 = cOk ∧
    BlobKey s k.a0 k.a1 ∧ pubJobs (kwType k.a1) = [] ∧ s.trng.served = [] ∧ s.peat.kisDue = false ∧
    s.envm.entryDue = none :=
  ⟨
    { (on.setRng 3).setKst (some ⟨0x18001, 0x00010101, false⟩) with trng := { ((on.setRng 3).setKst (some ⟨0x18001, 0x00010101, false⟩)).trng with reqs := [.draw .keyStore 16 []] } },
    (List.replicate 128 [0x10, 0x32]).flatten, ⟨0x18001, 0x00010101, false⟩, 16, by decide +kernel⟩

theorem test_ConditionedBlockDelivery_4 : ∃ (s : State) (raw : Bytes), ((s.rngState = 3 ∨ (s.rngState = 2 ∧
    s.trng.testsPassed = true))) ∧ ((s.testPool raw).all fun x => !x.2.1 && !x.2.2) = true ∧
    s.trng.reqs = [.draw .kis 16 []] ∧ s.trng.served = [] ∧ s.peat.kisDue = true ∧ s.envm.entryDue = none ∧
    s.resumed = true ∧ s.power.safeState = false ∧ s.power.rootKnown = true ∧ s.rb aKST_STATUS 1 = false :=
  ⟨
    { { on.setRng 3 with peat := { on.peat with kisDue := true }, power := { on.power with rootKnown := true } } with trng := { ({ on.setRng 3 with peat := { on.peat with kisDue := true }, power := { on.power with rootKnown := true } }).trng with reqs := [.draw .kis 16 []] } },
    (List.replicate 128 [0x10, 0x32]).flatten, by decide +kernel⟩

theorem test_RandomPort_1 : ∃ (s : State) (m : Master) (v : Word), Grants s m aTRNG_PORTREQ ∧
    s.trng.reqs.any isPort = false ∧ s.rngState ≠ 4 ∧ fld v 4 0 = 0 :=
  ⟨on, .peat, 0, by decide +kernel⟩

theorem test_RandomPort_2 : ∃ (s : State) (m : Master) (v : Word), Grants s m aTRNG_PORTREQ ∧
    s.trng.reqs.any isPort = false ∧ s.rngState ≠ 4 ∧ 1 ≤ fld v 4 0 ∧ fld v 4 0 ≤ 16 :=
  ⟨on.setCallers [.mask 0], .peat, 16, by decide +kernel⟩

theorem test_RandomPort_3 : ∃ (s : State) (raw : Bytes) (k : Nat) (rest : List Caller),
    ((s.rngState = 3 ∨ (s.rngState = 2 ∧ s.trng.testsPassed = true))) ∧
    ((s.testPool raw).all fun x => !x.2.1 && !x.2.2) = true ∧ firstMask s.trng.reqs = none ∧
    s.trng.reqs = .port k :: rest ∧ 8 < k ∧ s.trng.served = [] ∧ s.peat.kisDue = false ∧ s.envm.entryDue = none :=
  ⟨(on.setRng 3).setCallers [.port 9], (List.replicate 128 [0x10, 0x32]).flatten, 9, [], by decide +kernel⟩

theorem test_RandomPort_4 : ∃ (s : State) (m : Master) (w : Word) (rest : List Word), s.up m = true ∧
    judge s (rightsOf m) false aTRNG_OUT false = .granted ∧ s.trng.out = w :: rest :=
  ⟨{ on with trng := { on.trng with out := [7, 8] } }, .peat, 7, [8], by decide +kernel⟩

theorem test_RandomPort_5 : ∃ (s : State) (m : Master), s.up m = true ∧
    judge s (rightsOf m) false aTRNG_OUT false = .granted ∧ s.trng.out = [] :=
  ⟨on, .peat, by decide +kernel⟩

theorem test_SymmetricJobsStart_1 : ∃ (s : State) (m : Nat) (c : Instr) (p : Packet), (m, c) ∈ ([(1, .aesXts), (2,
    .aesGcm), (3, .aesCcm), (4, .aesCmac), (5, .aesKw), (6, .aesRec), (7, .aesEcbDerive)] : List (Nat × Instr)) ∧
    AesTakes s m p :=
  ⟨
    { on.setLane 10 { laneNil with committed := [wordsPacket 0 126 [0x14080000, 0xA001, 4, 0x10000000, 0, 0, 0, 0, 0, 0xDEADBEEF]] } with slots := [(10, ⟨1, 1, true, false, 4, 1, zeros 16, []⟩)] },
    4, .aesCmac, wordsPacket 0 126 [0x14080000, 0xA001, 4, 0x10000000, 0, 0, 0, 0, 0, 0xDEADBEEF], by decide +kernel⟩

theorem test_SymmetricJobsComplete_1 : ∃ (s : State) (r : Run), s.eng.aes = some r ∧ isFail r.status = false ∧
    r.dest = .none ∧ r.chan < 128 ∧ s.chState r.chan = 1 ∧ s.rf (aCHN_QUEUES r.chan) 11 8 ≠ 10 :=
  ⟨
    { on.srf (aCHN_STATUS 5) 1 0 1 with eng := { on.eng with aes := some { runNil with chan := 5, status := cOk } } },
    { runNil with chan := 5, status := cOk }, by decide +kernel⟩

theorem test_SymmetricJobsComplete_2 : ∃ (s : State) (r : Run) (n : Nat) (q : Nat), s.eng.aes = some r ∧
    isFail r.status = false ∧ r.dest = .queue n ∧ n < 8 ∧ q = s.rf (aCHN_QUEUES r.chan) 11 8 ∧ ((q < 8 ∨ q = 11)) ∧
    q ≠ n ∧ s.rel.pending = false ∧ s.laneWaits q = false ∧ max 1 ((r.out.length + 3) / 4) ≤ s.room n ∧
    s.openCount n < 8 ∧ 7 ≤ s.room q ∧ s.openCount q < 8 ∧ r.chan < 128 ∧ s.chState r.chan = 1 ∧
    s.rf (aCHN_QUEUES r.chan) 11 8 ≠ 10 :=
  ⟨
    { on.srf (aCHN_STATUS 5) 1 0 1 with eng := { on.eng with aes := some { runNil with chan := 5, status := cOk, dest := .queue 3, out := [1, 2, 3, 4, 5], tclass := 2 } } },
    { runNil with chan := 5, status := cOk, dest := .queue 3, out := [1, 2, 3, 4, 5], tclass := 2 }, 3, 11,
    by decide +kernel⟩

theorem test_SymmetricJobsComplete_3 : ∃ (s : State) (r : Run), s.eng.aes = some r ∧ redundant r.tclass = true ∧
    ((s.lane 10).committed.all fun p => decide (p.src ≠ r.chan)) = true ∧ r.chan < 128 ∧ s.chState r.chan = 1 ∧
    s.rf (aCHN_QUEUES r.chan) 11 8 ≠ 10 :=
  ⟨
    { on.srf (aCHN_STATUS 5) 1 0 1 with eng := { on.eng with aes := some { runNil with chan := 5, status := cOk, tclass := 3 } } },
    { runNil with chan := 5, status := cOk, tclass := 3 }, by decide +kernel⟩

theorem test_PublicKeyJobsStart_1 : ∃ (s : State) (k : Nat) (c : Instr) (p : Packet) (b : BnSpec), (k, c) ∈ ([(0x01,
    .modAdd), (0x02, .modSub), (0x03, .modMul), (0x04, .montSetup), (0x05, .modExp), (0x06, .modInv), (0x07,
    .modRed), (0x08, .copy), (0x09, .copyRev), (0x0A, .clear), (0x20, .p256Mul), (0x21, .p256Mulg), (0x22,
    .p256Check), (0x23, .p256Sign), (0x24, .p256Verify), (0x28, .p384Mul), (0x29, .p384Mulg), (0x2A, .p384Check),
    (0x2B, .p384Sign), (0x2C, .p384Verify), (0x30, .x25519), (0x31, .x25519Base), (0x38, .ed25519Verify), (0x40,
    .ntt), (0x41, .intt), (0x42, .basemul), (0x43, .padd), (0x44, .psub), (0x48, .kemKeygen), (0x49, .kemEncaps),
    (0x4A, .kemDecaps)] : List (Nat × Instr)) ∧ BnTakes s k p b :=
  ⟨(on.setReg aBN_PART 0x20).setLane 10 { laneNil with committed := [wordsPacket 0 126 [0x200A0001, 0, 0, 0, 0]] },
    0x0A, .clear, wordsPacket 0 126 [0x200A0001, 0, 0, 0, 0], ⟨[], [(.D, 4)], 0, 22, 1, 0, 0⟩, by decide +kernel⟩

theorem test_ModularResults_1 : ∃ (s : State) (p : Packet) (b : BnSpec) (n : Nat) (m : Nat) (x : Nat) (y : Nat) (d : List Word),
    d = packetWords p ∧ n = bnNw d ∧ m = s.bnInt d .M n ∧ x = s.bnInt d .A n ∧ y = s.bnInt d .B n ∧ x < m ∧ y < m ∧
    BnTakes s 0x01 p b :=
  ⟨
    ((on.setReg aBN_PART 0x20).memWrite 0x50000060 (toLE 32 (2 ^ 192 + 1))).setLane 10 { laneNil with committed := [wordsPacket 0 126 [0x20010004, 1, 0x00020000, 0x00030000, 0]] },
    wordsPacket 0 126 [0x20010004, 1, 0x00020000, 0x00030000, 0],
    ⟨[(.A, 4), (.B, 4), (.M, 4)], [(.D, 4)], 0, 20, 1, 0, 0⟩, 4, 2 ^ 192 + 1, 0, 0,
    [0x20010004, 1, 0x00020000, 0x00030000, 0], by decide +kernel⟩

theorem test_ModularResults_2 : ∃ (s : State) (p : Packet) (b : BnSpec) (n : Nat) (m : Nat) (x : Nat) (y : Nat) (d : List Word),
    d = packetWords p ∧ n = bnNw d ∧ m = s.bnInt d .M n ∧ x = s.bnInt d .A n ∧ y = s.bnInt d .B n ∧ x < m ∧ y < m ∧
    BnTakes s 0x02 p b :=
  ⟨
    ((on.setReg aBN_PART 0x20).memWrite 0x50000060 (toLE 32 (2 ^ 192 + 1))).setLane 10 { laneNil with committed := [wordsPacket 0 126 [0x20020004, 1, 0x00020000, 0x00030000, 0]] },
    wordsPacket 0 126 [0x20020004, 1, 0x00020000, 0x00030000, 0],
    ⟨[(.A, 4), (.B, 4), (.M, 4)], [(.D, 4)], 0, 20, 1, 0, 0⟩, 4, 2 ^ 192 + 1, 0, 0,
    [0x20020004, 1, 0x00020000, 0x00030000, 0], by decide +kernel⟩

theorem test_ModularResults_3 : ∃ (s : State) (p : Packet) (b : BnSpec) (n : Nat) (m : Nat) (x : Nat) (d : List Word),
    d = packetWords p ∧ n = bnNw d ∧ m = s.bnInt d .M n ∧ x = s.bnInt d .A (2 * n) ∧ BnTakes s 0x07 p b :=
  ⟨
    ((on.setReg aBN_PART 0x20).memWrite 0x50000060 (toLE 32 (2 ^ 192 + 1) ++ montConsts 4 (2 ^ 192 + 1))).setLane 10 { laneNil with committed := [wordsPacket 0 126 [0x20070004, 1, 0, 0x00030006, 0]] },
    wordsPacket 0 126 [0x20070004, 1, 0, 0x00030006, 0], ⟨[(.A, 8), (.M, 9)], [(.D, 4)], 4, 88, 1, 0, 0⟩, 4,
    2 ^ 192 + 1, 0, [0x20070004, 1, 0, 0x00030006, 0], by decide +kernel⟩

theorem test_ModularResults_4 : ∃ (s : State) (p : Packet) (b : BnSpec) (n : Nat) (d : List Word),
    d = packetWords p ∧ n = bnNw d ∧ BnTakes s 0x08 p b :=
  ⟨(on.setReg aBN_PART 0x20).setLane 10 { laneNil with committed := [wordsPacket 0 126 [0x20080004, 1, 0, 0, 0]] },
    wordsPacket 0 126 [0x20080004, 1, 0, 0, 0], ⟨[(.A, 4)], [(.D, 4)], 0, 12, 1, 0, 0⟩, 4, [0x20080004, 1, 0, 0, 0],
    by decide +kernel⟩

theorem test_PublicKeyJobsYieldAndComplete_1 : ∃ (s : State) (mismatch : Bool) (r : Run) (w : Nat) (b : Bytes),
    s.eng.bn = some r ∧ s.eng.bnSusp = none ∧ (mismatch && redundant r.tclass) = false ∧ isFail r.status = false ∧
    r.stores = [(w, b)] ∧ 8 * w + b.length ≤ 32768 ∧ r.chan < 128 ∧ s.chState r.chan = 1 ∧
    s.rf (aCHN_QUEUES r.chan) 11 8 ≠ 10 :=
  ⟨
    { on.srf (aCHN_STATUS 5) 1 0 1 with eng := { on.eng with bn := some { runNil with chan := 5, status := cOk, stores := [(4, [1, 2])] } } },
    true, { runNil with chan := 5, status := cOk, stores := [(4, [1, 2])] }, 4, [1, 2], by decide +kernel⟩

theorem test_PublicKeyJobsYieldAndComplete_2 : ∃ (s : State) (r : Run), s.resumed = true ∧ s.eng.bn = some r ∧
    s.eng.bnSusp = none ∧ r.step + 1 < r.steps ∧ (s.lane 10).committed = [] :=
  ⟨
    { on with eng := { on.eng with bn := some { runNil with chan := 5, steps := 3, cycles := 9999, desc := [0x20050004, 1, 0, 0, 0] } } },
    { runNil with chan := 5, steps := 3, cycles := 9999, desc := [0x20050004, 1, 0, 0, 0] }, by decide +kernel⟩

theorem test_PublicKeyJobsYieldAndComplete_3 : ∃ (s : State) (u : State) (v : State) (r : Run) (q : Run) (p : Packet) (b : BnSpec),
    s.resumed = true ∧ s.eng.bn = some r ∧ s.eng.bnSusp = none ∧ r.step + 1 < r.steps ∧
    q = { r with step := r.step + 1 } ∧ u = { s with eng := { s.eng with bn := some q } } ∧
    u.candidateIf engBn s.eng.bnLast (u.bnFits q) = some p ∧ packetBroken p = false ∧
    v = servingBn { s with eng := { s.eng with bn := none, bnSusp := some q } } p ∧
    v.bnRow (packetWords p) = some b ∧ bnRefusal (v.jobView p) p (packetWords p) = cOk :=
  ⟨
    { (on.setReg aBN_PART 0x20).setLane 10 { laneNil with committed := [wordsPacket 0 126 [0x200A0001, 0, 0, 0, 0]] } with eng := { on.eng with bn := some { runNil with chan := 5, steps := 3, cycles := 9999, desc := [0x20050004, 1, 0, 0, 0] } } },
    { (on.setReg aBN_PART 0x20).setLane 10 { laneNil with committed := [wordsPacket 0 126 [0x200A0001, 0, 0, 0, 0]] } with eng := { on.eng with bn := some { runNil with chan := 5, steps := 3, step := 1, cycles := 9999, desc := [0x20050004, 1, 0, 0, 0] } } },
    { (on.setReg aBN_PART 0x20).setLane 10 { laneNil with committed := [wordsPacket 0 126 [0x200A0001, 0, 0, 0, 0]] } with eng := { on.eng with bn := none, bnLast := 126, bnSusp := some { runNil with chan := 5, steps := 3, step := 1, cycles := 9999, desc := [0x20050004, 1, 0, 0, 0] } } },
    { runNil with chan := 5, steps := 3, cycles := 9999, desc := [0x20050004, 1, 0, 0, 0] },
    { runNil with chan := 5, steps := 3, step := 1, cycles := 9999, desc := [0x20050004, 1, 0, 0, 0] },
    wordsPacket 0 126 [0x200A0001, 0, 0, 0, 0], ⟨[], [(.D, 4)], 0, 22, 1, 0, 0⟩, by decide +kernel⟩

theorem test_HashJobsStart_1 : ∃ (s : State) (f : Nat) (x : Nat) (c : Instr) (p : Packet), (f, x, c) ∈ ([(1, 0,
    .sha3256), (2, 0, .sha3512), (3, 0, .shake128), (4, 0, .shake256), (5, 0, .kmac256), (8, 1, .xmssVerify), (8, 2,
    .xmssSign), (8, 3, .xmssKeygen)] : List (Nat × Nat × Instr)) ∧ HashTakes s f x p :=
  ⟨on.setLane 10 { laneNil with committed := [wordsPacket 0 126 [0x31100030, 0, 0x00200004, 0, 0, 0xDEADBEEF]] }, 1,
    0, .sha3256, wordsPacket 0 126 [0x31100030, 0, 0x00200004, 0, 0, 0xDEADBEEF], by decide +kernel⟩

theorem test_HashJobsComplete_1 : ∃ (s : State) (mismatch : Bool) (r : Run), s.eng.hsh = some r ∧
    (mismatch && redundant r.tclass) = false ∧ isFail r.status = false ∧ hUnseeded r = false ∧ r.dest = .none ∧
    r.chan < 128 ∧ s.chState r.chan = 1 ∧ s.rf (aCHN_QUEUES r.chan) 11 8 ≠ 10 :=
  ⟨
    { on.srf (aCHN_STATUS 5) 1 0 1 with eng := { on.eng with hsh := some { runNil with chan := 5, status := cOk, desc := [0x31140000] } } },
    true, { runNil with chan := 5, status := cOk, desc := [0x31140000] }, by decide +kernel⟩

theorem test_HashJobsComplete_2 : ∃ (s : State) (mismatch : Bool) (r : Run) (n : Nat) (q : Nat),
    s.eng.hsh = some r ∧ (mismatch && redundant r.tclass) = false ∧ hUnseeded r = false ∧ isFail r.status = false ∧
    r.dest = .queue n ∧ n < 8 ∧ q = s.rf (aCHN_QUEUES r.chan) 11 8 ∧ ((q < 8 ∨ q = 11)) ∧ q ≠ n ∧
    s.rel.pending = false ∧ s.laneWaits q = false ∧ max 1 ((r.out.length + 3) / 4) ≤ s.room n ∧ s.openCount n < 8 ∧
    4 ≤ s.room q ∧ s.openCount q < 8 ∧ r.chan < 128 ∧ s.chState r.chan = 1 ∧ s.rf (aCHN_QUEUES r.chan) 11 8 ≠ 10 :=
  ⟨
    { on.srf (aCHN_STATUS 5) 1 0 1 with eng := { on.eng with hsh := some { runNil with chan := 5, status := cOk, dest := .queue 3, out := [1, 2, 3, 4, 5], desc := [0x31140000] } } },
    true, { runNil with chan := 5, status := cOk, dest := .queue 3, out := [1, 2, 3, 4, 5], desc := [0x31140000] },
    3, 11, by decide +kernel⟩

theorem test_HashJobsComplete_3 : ∃ (s : State) (mismatch : Bool) (r : Run), s.eng.hsh = some r ∧
    (mismatch && redundant r.tclass) = false ∧ isFail r.status = true ∧ r.status ≠ cCancelled ∧
    ((s.lane 10).committed.all fun p => decide (p.src ≠ r.chan)) = true ∧ r.chan < 128 ∧ s.chState r.chan = 1 ∧
    s.rf (aCHN_QUEUES r.chan) 11 8 ≠ 10 :=
  ⟨
    { on.srf (aCHN_STATUS 5) 1 0 1 with eng := { on.eng with hsh := some { runNil with chan := 5, status := cAuthFail } } },
    true, { runNil with chan := 5, status := cAuthFail }, by decide +kernel⟩

theorem test_QueuePushes_1 : ∃ (s : State) (m : Master) (q : Nat) (lane : Nat), GrantsWindow s m true q lane 0x14 :=
  ⟨on, .sedge, 3, 0, by decide +kernel⟩

theorem test_QueuePushes_2 : ∃ (s : State) (m : Master) (q : Nat) (lane : Nat) (tag : Word),
    GrantsWindow s m true q lane 0x10 ∧ bit tag 30 = true ∧ bit tag 29 = false ∧
    tfind (s.lane (laneNo q lane)).opens (portNo m) = none ∧ s.openCount (laneNo q lane) < 8 ∧
    s.heldBack (laneNo q lane) < s.room (laneNo q lane) ∧ (s.lane 8).committed = [] ∧ s.eng.waiting = [] :=
  ⟨(on.setLane 3 { laneNil with staged := [(portNo .sedge, 7)] }), .sedge, 3, 0, 0x40330000, by decide +kernel⟩

theorem test_QueuePushes_3 : ∃ (s : State) (m : Master) (q : Nat) (lane : Nat) (tag : Word),
    GrantsWindow s m true q lane 0x10 ∧ bit tag 30 = true ∧ bit tag 29 = true ∧
    tfind (s.lane (laneNo q lane)).opens (portNo m) = none ∧ s.openCount (laneNo q lane) < 8 ∧
    s.heldBack (laneNo q lane) < s.room (laneNo q lane) ∧ (s.lane 8).committed = [] ∧ s.eng.waiting = [] ∧ q ∉ [8,
    10, 14, 15] :=
  ⟨(on.setLane 3 { laneNil with staged := [(portNo .sedge, 7)] }), .sedge, 3, 0, 0x60330000, by decide +kernel⟩

theorem test_QueuePushes_4 : ∃ (s : State) (m : Master) (q : Nat) (lane : Nat) (tag : Word),
    GrantsWindow s m true q lane 0x18 ∧ bit tag 30 = true ∧ bit tag 29 = true ∧
    tfind (s.lane (laneNo q lane)).opens (portNo m) = none ∧ s.openCount (laneNo q lane) < 8 ∧
    s.heldBack (laneNo q lane) < s.room (laneNo q lane) ∧ (s.lane 8).committed = [] ∧ s.eng.waiting = [] ∧ q ∉ [8,
    10, 14, 15] :=
  ⟨(on.setLane 3 { laneNil with staged := [(portNo .sedge, 7)] }), .sedge, 3, 0, 0x60330000, by decide +kernel⟩

theorem test_QueuePushes_5 : ∃ (s : State) (m : Master) (q : Nat) (lane : Nat) (tag : Word) (p : Packet),
    GrantsWindow s m true q lane 0x10 ∧ bit tag 30 = false ∧ bit tag 29 = false ∧
    tfind (s.lane (laneNo q lane)).opens (portNo m) = some p ∧ p.prio = fld tag 28 27 ∧
    s.heldBack (laneNo q lane) < s.room (laneNo q lane) ∧ (s.lane 8).committed = [] ∧ s.eng.waiting = [] :=
  ⟨
    (on.setLane 3 { laneNil with opens := [(portNo .sedge, ⟨[⟨0x40330000, 5, false⟩], 0, 0, 0x33, false, none, false, false, 0⟩)] }),
    .sedge, 3, 0, 0, ⟨[⟨0x40330000, 5, false⟩], 0, 0, 0x33, false, none, false, false, 0⟩, by decide +kernel⟩

theorem test_QueuePushes_6 : ∃ (s : State) (m : Master) (q : Nat) (lane : Nat) (tag : Word) (p : Packet),
    GrantsWindow s m true q lane 0x10 ∧ bit tag 30 = false ∧ bit tag 29 = true ∧
    tfind (s.lane (laneNo q lane)).opens (portNo m) = some p ∧ p.prio = fld tag 28 27 ∧ p.doomed = false ∧
    s.heldBack (laneNo q lane) < s.room (laneNo q lane) ∧ (s.lane 8).committed = [] ∧ s.eng.waiting = [] ∧ q ∉ [8,
    10, 14, 15] :=
  ⟨
    (on.setLane 3 { laneNil with opens := [(portNo .sedge, ⟨[⟨0x40330000, 5, false⟩], 0, 0, 0x33, false, none, false, false, 0⟩)] }),
    .sedge, 3, 0, 0x20000000, ⟨[⟨0x40330000, 5, false⟩], 0, 0, 0x33, false, none, false, false, 0⟩,
    by decide +kernel⟩

theorem test_QueuePushes_7 : ∃ (s : State) (m : Master) (q : Nat) (lane : Nat) (tag : Word) (p : Packet),
    GrantsWindow s m true q lane 0x10 ∧ bit tag 30 = false ∧
    tfind (s.lane (laneNo q lane)).opens (portNo m) = some p ∧ p.prio ≠ fld tag 28 27 ∧ (s.lane 8).committed = [] ∧
    s.eng.waiting = [] :=
  ⟨
    (on.setLane 3 { laneNil with opens := [(portNo .sedge, ⟨[⟨0x40330000, 5, false⟩], 0, 0, 0x33, false, none, false, false, 0⟩)] }),
    .sedge, 3, 0, 0x08000000, ⟨[⟨0x40330000, 5, false⟩], 0, 0, 0x33, false, none, false, false, 0⟩,
    by decide +kernel⟩

theorem test_QueuePushes_8 : ∃ (s : State) (m : Master) (q : Nat) (lane : Nat) (tag : Word),
    GrantsWindow s m true q lane 0x10 ∧ bit tag 30 = false ∧
    tfind (s.lane (laneNo q lane)).opens (portNo m) = none ∧ (s.lane 8).committed = [] ∧ s.eng.waiting = [] :=
  ⟨on, .sedge, 3, 0, 0x20000000, by decide +kernel⟩

theorem test_QueuePushes_9 : ∃ (s : State) (m : Master) (q : Nat) (lane : Nat) (tag : Word),
    GrantsWindow s m true q lane 0x18 ∧ (bit tag 30 && bit tag 29) = false :=
  ⟨on, .sedge, 3, 0, 0x40330000, by decide +kernel⟩

theorem test_QueuePopsAndFlushes_1 : ∃ (s : State) (m : Master) (q : Nat) (lane : Nat) (p : Packet) (i : Item) (r : List Packet),
    GrantsWindow s m false q lane 0 ∧ (s.lane (laneNo q lane)).half = none ∧
    takePacket (s.mailLane (laneNo q lane)) (s.lane (laneNo q lane)).committed = some (p, r) ∧
    p.items.head? = some i ∧ 1 < p.items.length ∧ p.ecc = none ∧ s.eng.waiting = [] :=
  ⟨
    (on.setLane 3 { laneNil with committed := [⟨[⟨0x40330007, 5, false⟩, ⟨0x20330007, 6, false⟩], 7, 0, 0x33, false, none, false, false, 0⟩] }),
    .sedge, 3, 0, ⟨[⟨0x40330007, 5, false⟩, ⟨0x20330007, 6, false⟩], 7, 0, 0x33, false, none, false, false, 0⟩,
    ⟨0x40330007, 5, false⟩, [], by decide +kernel⟩

theorem test_QueuePopsAndFlushes_2 : ∃ (s : State) (m : Master) (q : Nat) (lane : Nat),
    GrantsWindow s m false q lane 0 ∧ (s.lane (laneNo q lane)).half = none ∧
    (s.lane (laneNo q lane)).committed = [] ∧ s.eng.waiting = [] :=
  ⟨on, .sedge, 3, 0, by decide +kernel⟩

theorem test_QueuePopsAndFlushes_3 : ∃ (s : State) (m : Master) (q : Nat) (lane : Nat) (p : Packet),
    GrantsWindow s m true q lane 0x1C ∧ tfind (s.lane (laneNo q lane)).opens (portNo m) = some p ∧
    s.eng.waiting = [] :=
  ⟨
    (on.setLane 3 { laneNil with opens := [(portNo .sedge, ⟨[⟨0x40330007, 5, false⟩, ⟨0x20330007, 6, false⟩], 7, 0, 0x33, false, none, false, false, 0⟩)] }),
    .sedge, 3, 0, ⟨[⟨0x40330007, 5, false⟩, ⟨0x20330007, 6, false⟩], 7, 0, 0x33, false, none, false, false, 0⟩,
    by decide +kernel⟩

theorem test_QueuePopsAndFlushes_4 : ∃ (s : State) (m : Master) (mask : Word) (q : Nat), Grants s m aQUE_FLUSH ∧
    s.eng.waiting = [] ∧ s.envm.islandLog = [] ∧ (s.mover.any (s.mvTouches (fld mask 15 0 &&& 0x23FF))) = false ∧
    q < 16 ∧ testBit (fld mask 15 0 &&& 0x23FF) q = true :=
  ⟨
    (on.setLane 3 { laneNil with committed := [⟨[⟨0x40330007, 5, false⟩, ⟨0x20330007, 6, false⟩], 7, 0, 0x33, false, none, false, false, 0⟩] }),
    .sedge, 8, 3, by decide +kernel⟩

theorem test_QueuePopsAndFlushes_5 : ∃ (s : State) (m : Master) (mask : Word) (q : Nat), Grants s m aQUE_PFLUSH ∧
    s.eng.waiting = [] ∧ s.envm.islandLog = [] ∧ s.eng.aes = none ∧
    (s.mover.any (s.mvTouches (fld mask 15 0))) = false ∧ q < 16 ∧ testBit (fld mask 15 0) q = true :=
  ⟨
    (on.setLane 3 { laneNil with committed := [⟨[⟨0x40330007, 5, false⟩, ⟨0x20330007, 6, false⟩], 7, 0, 0x33, false, none, false, false, 0⟩] }),
    .peat, 0xC008, 14, by decide +kernel⟩

theorem test_QueuePopsAndFlushes_6 : ∃ (s : State) (m : Master) (mask : Word) (ch : Nat) (x : MoverRun),
    Grants s m aQUE_FLUSH ∧ s.eng.waiting = [] ∧ s.envm.islandLog = [] ∧ ch < 8 ∧ s.mover = [(ch, x)] ∧
    x.armed = false ∧ x.held = false ∧ mvKind x.desc = 2 ∧
    testBit (fld mask 15 0 &&& 0x23FF) (mvDstq x.desc) = true ∧ s.rb (aQUE_MVCTL ch) 2 = false :=
  ⟨
    { (on.setLane 3 { laneNil with committed := [⟨[⟨0x40330007, 5, false⟩, ⟨0x20330007, 6, false⟩], 7, 0, 0x33, false, none, false, false, 0⟩] }) with mover := [(7, ⟨[0x20343300, 0x20000000, 5, 0], false, 0, cPending, false, false⟩)] },
    .sedge, 8, 7, ⟨[0x20343300, 0x20000000, 5, 0], false, 0, cPending, false, false⟩, by decide +kernel⟩

theorem test_MoverControl_1 : ∃ (s : State) (m : Master) (ch : Nat), ch < 8 ∧ Grants s m (aQUE_MVCTL ch) ∧
    tfind s.mover ch = none :=
  ⟨on, .sedge, 7, by decide +kernel⟩

theorem test_MoverControl_2 : ∃ (s : State) (m : Master) (ch : Nat) (r : MoverRun), ch < 8 ∧
    Grants s m (aQUE_MVCTL ch) ∧ tfind s.mover ch = some r :=
  ⟨{ on with mover := [(7, ⟨[0x40000000, 0x20000000, 5, 0x20000100], false, 0, cPending, false, false⟩)] }, .sedge,
    7, ⟨[0x40000000, 0x20000000, 5, 0x20000100], false, 0, cPending, false, false⟩, by decide +kernel⟩

theorem test_MoverControl_3 : ∃ (s : State) (ch : Nat) (r : MoverRun), tfind s.mover ch = some r ∧ r.armed = true ∧
    s.resumed = true ∧ (s.headPacket (s.mvPopLane (s.moverRights ch) (mvSrcq r.desc))).isSome = true :=
  ⟨
    { (on.setLane 3 { laneNil with committed := [⟨[⟨0x40330007, 5, false⟩, ⟨0x20330007, 6, false⟩], 7, 0, 0x33, false, none, false, false, 0⟩] }) with mover := [(7, ⟨[0x13020000, 0x20000000, 8, 0], true, 0, cPending, false, false⟩)] },
    7, ⟨[0x13020000, 0x20000000, 8, 0], true, 0, cPending, false, false⟩, by decide +kernel⟩

theorem test_MoverControl_4 : ∃ (s : State) (m : Master) (ch : Nat) (r : MoverRun), ch < 8 ∧
    Grants s m (aQUE_MVCTL ch) ∧ tfind s.mover ch = some r ∧ s.rb (aQUE_MVCTL ch) 2 = false :=
  ⟨{ on with mover := [(7, ⟨[0x40000000, 0x20000000, 5, 0x20000100], false, 0, cPending, false, false⟩)] }, .sedge,
    7, ⟨[0x40000000, 0x20000000, 5, 0x20000100], false, 0, cPending, false, false⟩, by decide +kernel⟩

theorem test_MoverControl_5 : ∃ (s : State) (m : Master) (ch : Nat) (r : MoverRun), ch < 8 ∧
    Grants s m (aQUE_MVCTL ch) ∧ tfind s.mover ch = some r ∧ s.rb (aQUE_MVCTL ch) 2 = true ∧ s.laneWaits 2 = false ∧
    1 ≤ s.room 2 ∧ s.openCount 2 < 8 :=
  ⟨
    { on.setReg (aQUE_MVCTL 7) 4 with mover := [(7, ⟨[0x40000000, 0x20000000, 5, 0x20000100], false, 0, cPending, false, false⟩)] },
    .sedge, 7, ⟨[0x40000000, 0x20000000, 5, 0x20000100], false, 0, cPending, false, false⟩, by decide +kernel⟩

theorem test_MoverDescriptors_1 : ∃ (s : State) (ch : Nat) (r : MoverRun), ch < 8 ∧ tfind s.mover ch = some r ∧
    r.armed = false ∧ r.held = false ∧ r.mixed = false ∧ s.resumed = true ∧ s.rb (aQUE_MVCTL ch) 2 = false ∧
    mvKind r.desc = 4 ∧ 0 < mvLen r.desc ∧ byWord (wordAt r.desc 1).toNat = false ∧
    s.mvSpanOk (s.moverRights ch) false (wordAt r.desc 1).toNat (mvLen r.desc) = true ∧
    s.mvSpanOk (s.moverRights ch) true (wordAt r.desc 3).toNat (mvLen r.desc) = true ∧
    0x20000000 ≤ (wordAt r.desc 3).toNat ∧ (wordAt r.desc 3).toNat + mvLen r.desc ≤ 0x20080000 :=
  ⟨
    { on.memWrite 0x20000000 [1, 2, 3, 4, 5] with mover := [(7, ⟨[0x40000000, 0x20000000, 5, 0x20000100], false, 0, cPending, false, false⟩)] },
    7, ⟨[0x40000000, 0x20000000, 5, 0x20000100], false, 0, cPending, false, false⟩, by decide +kernel⟩

theorem test_MoverDescriptors_2 : ∃ (s : State) (ch : Nat) (r : MoverRun) (p : Packet), ch < 8 ∧
    tfind s.mover ch = some r ∧ r.armed = false ∧ r.held = false ∧ r.mixed = false ∧ s.resumed = true ∧
    s.rb (aQUE_MVCTL ch) 2 = false ∧ mvKind r.desc = 1 ∧ mvChain r.desc = false ∧ mvLen r.desc ≠ 0 ∧
    s.headPacket (s.mvPopLane (s.moverRights ch) (mvSrcq r.desc)) = some p ∧ packetBroken p = false ∧
    (packetBytes p).length ≤ mvLen r.desc ∧
    s.mvSpanOk (s.moverRights ch) true (wordAt r.desc 1).toNat (packetBytes p).length = true ∧
    0x20000000 ≤ (wordAt r.desc 1).toNat ∧ (wordAt r.desc 1).toNat + (packetBytes p).length ≤ 0x20080000 :=
  ⟨
    { (on.setLane 3 { laneNil with committed := [⟨[⟨0x40330007, 5, false⟩, ⟨0x20330007, 6, false⟩], 7, 0, 0x33, false, none, false, false, 0⟩] }) with mover := [(7, ⟨[0x13000000, 0x20000000, 8, 0], false, 0, cPending, false, false⟩)] },
    7, ⟨[0x13000000, 0x20000000, 8, 0], false, 0, cPending, false, false⟩,
    ⟨[⟨0x40330007, 5, false⟩, ⟨0x20330007, 6, false⟩], 7, 0, 0x33, false, none, false, false, 0⟩, by decide +kernel⟩

theorem test_MoverDescriptors_3 : ∃ (s : State) (ch : Nat) (r : MoverRun) (p : Packet), ch < 8 ∧
    tfind s.mover ch = some r ∧ r.armed = false ∧ r.held = false ∧ r.mixed = false ∧ s.resumed = true ∧
    s.rb (aQUE_MVCTL ch) 2 = false ∧ mvKind r.desc = 1 ∧ mvChain r.desc = true ∧ mvLen r.desc ≠ 0 ∧
    s.headPacket (s.mvPopLane (s.moverRights ch) (mvSrcq r.desc)) = some p ∧ packetBroken p = false ∧
    (packetBytes p).length ≤ mvLen r.desc ∧
    s.mvSpanOk (s.moverRights ch) true (wordAt r.desc 1).toNat (packetBytes p).length = true ∧
    0x20000000 ≤ (wordAt r.desc 1).toNat ∧ (wordAt r.desc 1).toNat + (packetBytes p).length ≤ 0x20080000 ∧
    (wordAt r.desc 3).toNat % 16 = 0 ∧ byWord (wordAt r.desc 3).toNat = false ∧
    s.mvSpanOk (s.moverRights ch) false (wordAt r.desc 3).toNat 16 = true :=
  ⟨
    { (on.setLane 3 { laneNil with committed := [⟨[⟨0x40330007, 5, false⟩, ⟨0x20330007, 6, false⟩], 7, 0, 0x33, false, none, false, false, 0⟩] }) with mover := [(7, ⟨[0x13010000, 0x20000000, 8, 0x20000100], false, 0, cPending, false, false⟩)] },
    7, ⟨[0x13010000, 0x20000000, 8, 0x20000100], false, 0, cPending, false, false⟩,
    ⟨[⟨0x40330007, 5, false⟩, ⟨0x20330007, 6, false⟩], 7, 0, 0x33, false, none, false, false, 0⟩, by decide +kernel⟩

theorem test_MoverDescriptors_4 : ∃ (s : State) (ch : Nat) (r : MoverRun), ch < 8 ∧ tfind s.mover ch = some r ∧
    r.armed = false ∧ r.held = false ∧ r.mixed = false ∧ s.resumed = true ∧ s.rb (aQUE_MVCTL ch) 2 = false ∧
    mvKind r.desc = 2 ∧ mvChain r.desc = false ∧ byWord (wordAt r.desc 1).toNat = false ∧
    s.mvSpanOk (s.moverRights ch) false (wordAt r.desc 1).toNat (mvLen r.desc) = true ∧
    (s.mvPushLane (s.moverRights ch) (mvDstq r.desc)) < 8 ∧
    s.mayQueue (s.moverRights ch) true (mvDstq r.desc) 0 = true ∧
    max 1 (wordsOf (mvLen r.desc)) + s.heldBack (s.mvPushLane (s.moverRights ch) (mvDstq r.desc)) ≤ s.room (s.mvPushLane (s.moverRights ch) (mvDstq r.desc)) ∧
    s.openCount (s.mvPushLane (s.moverRights ch) (mvDstq r.desc)) < 8 ∧ (s.lane 8).committed = [] :=
  ⟨
    { on.memWrite 0x20000000 [1, 2, 3, 4, 5] with mover := [(7, ⟨[0x20343300, 0x20000000, 5, 0], false, 0, cPending, false, false⟩)] },
    7, ⟨[0x20343300, 0x20000000, 5, 0], false, 0, cPending, false, false⟩, by decide +kernel⟩

theorem test_MoverDescriptors_5 : ∃ (s : State) (ch : Nat) (r : MoverRun) (p : Packet), ch < 8 ∧
    tfind s.mover ch = some r ∧ r.armed = false ∧ r.held = false ∧ r.mixed = false ∧ s.resumed = true ∧
    s.rb (aQUE_MVCTL ch) 2 = false ∧ mvKind r.desc = 3 ∧ mvChain r.desc = false ∧ mvLen r.desc ≠ 0 ∧
    s.headPacket (s.mvPopLane (s.moverRights ch) (mvSrcq r.desc)) = some p ∧ packetBroken p = false ∧
    (packetBytes p).length ≤ mvLen r.desc ∧ (s.mvPushLane (s.moverRights ch) (mvDstq r.desc)) < 8 ∧
    (s.mvPushLane (s.moverRights ch) (mvDstq r.desc)) ≠ (s.mvPopLane (s.moverRights ch) (mvSrcq r.desc)) ∧
    s.mayQueue (s.moverRights ch) true (mvDstq r.desc) 0 = true ∧
    p.items.length + s.heldBack (s.mvPushLane (s.moverRights ch) (mvDstq r.desc)) ≤ s.room (s.mvPushLane (s.moverRights ch) (mvDstq r.desc)) ∧
    s.openCount (s.mvPushLane (s.moverRights ch) (mvDstq r.desc)) < 8 ∧ p.doomed = false ∧
    (s.lane 8).committed = [] :=
  ⟨
    { (on.setLane 3 { laneNil with committed := [⟨[⟨0x40330007, 5, false⟩, ⟨0x20330007, 6, false⟩], 7, 0, 0x33, false, none, false, false, 0⟩] }) with mover := [(7, ⟨[0x33400000, 0, 8, 0], false, 0, cPending, false, false⟩)] },
    7, ⟨[0x33400000, 0, 8, 0], false, 0, cPending, false, false⟩,
    ⟨[⟨0x40330007, 5, false⟩, ⟨0x20330007, 6, false⟩], 7, 0, 0x33, false, none, false, false, 0⟩, by decide +kernel⟩

theorem test_TimerCounts_1 : ∃ (s : State) (n : Nat), n < 16 ∧ s.resumed = true ∧ s.rb (aTMR_CTL n) 31 = true ∧
    s.rb (aTMR_CTL n) 30 = false ∧ NoRoutes s :=
  ⟨((on.srf (aTMR_CTL 3) 31 30 2).setReg (aTMR_COUNT 3) 9).setReg (aTMR_PERIOD 3) 9, 3, by decide +kernel⟩

theorem test_TimerCounts_2 : ∃ (s : State) (n : Nat), n < 16 ∧ s.resumed = true ∧ s.rb (aTMR_CTL n) 31 = true ∧
    s.rb (aTMR_CTL n) 30 = true ∧ NoRoutes s ∧ tget s.steps n 0 ≠ 0 :=
  ⟨{ ((on.srf (aTMR_CTL 3) 31 30 3).setReg (aTMR_COUNT 3) 9).setReg (aTMR_PERIOD 3) 9 with steps := [(3, 2)] }, 3,
    by decide +kernel⟩

theorem test_TimerCounts_3 : ∃ (s : State) (n : Nat), n < 16 ∧ s.resumed = true ∧ s.rb (aTMR_CTL n) 31 = true ∧
    ((s.rb (aTMR_CTL n) 30 = true → tget s.steps n 0 ≠ 0)) ∧ NoRoutes s ∧ s.wraps n = true :=
  ⟨((on.srf (aTMR_CTL 3) 31 30 2).setReg (aTMR_COUNT 3) 9).setReg (aTMR_PERIOD 3) 9, 3, by decide +kernel⟩

theorem test_TimerCounts_4 : ∃ (s : State) (u : State) (n : Nat) (c : Nat), n < 16 ∧ s.resumed = true ∧
    s.rb (aTMR_CTL n) 31 = true ∧ ((s.rb (aTMR_CTL n) 30 = true → tget s.steps n 0 ≠ 0)) ∧ NoRoutes s ∧ c < 4 ∧
    u = s.tmrAdvance n ∧ u.rb (aTMR_STAT n) (7 + c) = true ∧
    (u.reg (aTMR_COUNT n) - u.reg (aTMR_CMP n c)).toNat < 2 ^ 31 :=
  ⟨(((on.srf (aTMR_CTL 3) 31 30 2).setReg (aTMR_COUNT 3) 9).setReg (aTMR_PERIOD 3) 9).srf (aTMR_STAT 3) 10 7 8,
    ((((on.srf (aTMR_CTL 3) 31 30 2).setReg (aTMR_COUNT 3) 9).setReg (aTMR_PERIOD 3) 9).srf (aTMR_STAT 3) 10 7 8).tmrAdvance 3,
    3, 3, by decide +kernel⟩

theorem test_TimerCounts_5 : ∃ (s : State) (n : Nat) (r : Nat) (k : Nat), n < 16 ∧ s.resumed = true ∧
    s.rb (aTMR_CTL n) 31 = true ∧ s.rb (aTMR_CTL n) 30 = false ∧ s.wraps n = true ∧ k < 16 ∧ k ≠ n ∧
    s.rb (aTMR_CTL k) 30 = true ∧ r < 16 ∧ bit (s.reg (aTMR_ROUTE r)) 31 = true ∧
    fld (s.reg (aTMR_ROUTE r)) 27 24 = n ∧ fld (s.reg (aTMR_ROUTE r)) 22 20 = 4 ∧
    fld (s.reg (aTMR_ROUTE r)) 17 16 = 3 ∧ fld (s.reg (aTMR_ROUTE r)) 3 0 = k ∧ s.routeRefused r = false ∧
    ((∀ i : Nat, i < 16 → i = r ∨ s.rb (aTMR_ROUTE i) 31 = false)) ∧ (3, k) ∉ (s.routeCycle n).routed.2.2 :=
  ⟨
    ((((on.srf (aTMR_CTL 3) 31 30 2).setReg (aTMR_COUNT 3) 9).setReg (aTMR_PERIOD 3) 9).srb (aTMR_CTL 5) 30 true).setReg (aTMR_ROUTE 2) 0x83430005,
    3, 2, 5, by decide +kernel⟩

theorem test_TimerCounts_6 : ∃ (s : State) (n : Nat) (r : Nat) (k : Nat), n < 16 ∧ s.resumed = true ∧
    s.rb (aTMR_CTL n) 31 = true ∧ s.rb (aTMR_CTL n) 30 = false ∧ s.wraps n = true ∧ k < 8 ∧ tfind s.mover k = none ∧
    r < 16 ∧ bit (s.reg (aTMR_ROUTE r)) 31 = true ∧ fld (s.reg (aTMR_ROUTE r)) 27 24 = n ∧
    fld (s.reg (aTMR_ROUTE r)) 22 20 = 4 ∧ fld (s.reg (aTMR_ROUTE r)) 17 16 = 2 ∧
    fld (s.reg (aTMR_ROUTE r)) 3 0 = k ∧ s.routeRefused r = false ∧ ((∀ i : Nat,
    i < 16 → i = r ∨ s.rb (aTMR_ROUTE i) 31 = false)) ∧ (2, k) ∉ (s.routeCycle n).routed.2.2 :=
  ⟨
    (((on.srf (aTMR_CTL 3) 31 30 2).setReg (aTMR_COUNT 3) 9).setReg (aTMR_PERIOD 3) 9).setReg (aTMR_ROUTE 2) 0x83420005,
    3, 2, 5, by decide +kernel⟩

theorem test_TimerWritesAndCapture_1 : ∃ (s : State) (m : Master) (n : Nat) (c : Nat), n < 16 ∧ c < 4 ∧
    Grants s m (aTMR_CMP n c) :=
  ⟨on, .sedge, 15, 3, by decide +kernel⟩

theorem test_TimerWritesAndCapture_2 : ∃ (s : State) (m : Master) (n : Nat), n < 16 ∧ Grants s m (aTMR_PERIOD n) :=
  ⟨on, .sedge, 15, by decide +kernel⟩

theorem test_TimerWritesAndCapture_3 : ∃ (s : State) (rising : Bool) (n : Nat), n < 16 ∧ s.resumed = true ∧
    s.rf (aTMR_CTL n) 29 27 = (if rising then 6 else 7) :=
  ⟨{ (on.srf (aTMR_CTL 2) 29 27 7) with sysTime := 0x123456789A }, false, 2, by decide +kernel⟩

theorem test_ConverterSequences_1 : ∃ (s : State) (m : Master) (q : Nat), q < 4 ∧ Grants s m aMON_CTL ∧
    s.resumed = true ∧ s.mon.run = none ∧ s.rf aMON_STATUS 7 4 = 0 ∧ s.seqLen q ≠ 0 ∧ ((∀ k,
    k < s.seqLen q → s.seqIn q k ≤ 23)) :=
  ⟨(on.srf (aMON_SEQCFG 3) 3 0 8).srf (aMON_SEQIN 3 0) 5 0 23, .sedge, 3, by decide +kernel⟩

theorem test_ConverterSequences_2 : ∃ (s : State) (r : MonRun), s.mon.run = some r ∧ r.seq < 4 ∧
    testBit s.mon.spoiled r.seq = false ∧ r.abort = false ∧ r.entry + 1 < s.seqLen r.seq :=
  ⟨{ (on.srf (aMON_SEQCFG 3) 3 0 8) with mon := ⟨some ⟨3, 0, 0, 0, 5, [], false⟩, 0⟩ }, ⟨3, 0, 0, 0, 5, [], false⟩,
    by decide +kernel⟩

theorem test_ConverterSequences_3 : ∃ (s : State) (r : MonRun), s.mon.run = some r ∧ r.seq < 4 ∧
    testBit s.mon.spoiled r.seq = false ∧ r.abort = false ∧ s.seqLen r.seq ≤ r.entry + 1 ∧ r.entry < 8 ∧
    s.rb (aMON_SEQCFG r.seq) 12 = false ∧ s.rf aMON_STATUS 7 4 = 0 :=
  ⟨{ (on.srf (aMON_SEQCFG 3) 3 0 8) with mon := ⟨some ⟨3, 7, 7, 0, 5, [], false⟩, 0⟩ }, ⟨3, 7, 7, 0, 5, [], false⟩,
    by decide +kernel⟩

theorem test_ConverterSequences_4 : ∃ (s : State) (code : Nat) (r : MonRun) (n : Nat) (w : Word),
    s.mon.run = some r ∧ r.seq < 4 ∧ testBit s.mon.spoiled r.seq = false ∧ r.abort = false ∧
    s.seqLen r.seq ≤ r.entry + 1 ∧ r.entry < 8 ∧ s.rb (aMON_SEQCFG r.seq) 12 = true ∧ s.rf aMON_STATUS 7 4 = 0 ∧
    n = s.dstLane (s.rf (aMON_SEQCFG r.seq) 11 8) ∧ n < 8 ∧
    w = w32 (s.seqIn r.seq r.entry % 32 * 2 ^ 24 + r.slotNo % 256 * 2 ^ 16 + code % 4096) ∧ s.rel.pending = false ∧
    r.words.length + 2 ≤ s.room n ∧ s.openCount n < 8 :=
  ⟨
    { ((on.srf (aMON_SEQCFG 3) 3 0 8).srf (aMON_SEQCFG 3) 12 8 0x13) with mon := ⟨some ⟨3, 7, 7, 0, 5, [], false⟩, 0⟩ },
    4095, ⟨3, 7, 7, 0, 5, [], false⟩, 3, 0x00070FFF, by decide +kernel⟩

theorem test_AbortStopsTheConverter_1 : ∃ (s : State) (m : Master) (r : MonRun), Grants s m aMON_CTL ∧
    s.mon.run = some r :=
  ⟨{ on with mon := ⟨some ⟨3, 0, 0, 0, 5, [], false⟩, 0⟩ }, .sedge, ⟨3, 0, 0, 0, 5, [], false⟩, by decide +kernel⟩

theorem test_AbortStopsTheConverter_2 : ∃ (s : State) (r : MonRun), s.mon.run = some r ∧ r.seq < 4 ∧
    testBit s.mon.spoiled r.seq = false ∧ r.entry < 8 ∧ r.abort = true ∧ s.seqPending r.seq = false :=
  ⟨
    { (((on.srf (aMON_SEQCFG 3) 3 0 8).srb aMON_STATUS 4 true).srb aMON_STATUS 6 true) with mon := ⟨some ⟨3, 7, 7, 0, 5, [], true⟩, 0⟩ },
    ⟨3, 7, 7, 0, 5, [], true⟩, by decide +kernel⟩

theorem test_AbortStopsTheConverter_3 : ∃ (s : State) (m : Master), Grants s m aPWR_CMD ∧ s.deciding = false ∧
    s.alone = true ∧ (if s.rb aPWR_STATUS 7 then s.rf aPWR_STATUS 2 0 else max s.stageFor s.power.stageDue) < 4 :=
  ⟨{ (on.srb aMON_STATUS 6 true) with mon := ⟨some ⟨3, 7, 7, 0, 5, [], false⟩, 0⟩ }, .sedge, by decide +kernel⟩

theorem test_AbortStopsTheConverter_4 : ∃ (s : State) (m : Master), Grants s m aPWR_CMD ∧ s.keepsAwake = false ∧
    s.tag.hostBusy = none :=
  ⟨{ (on.srb aMON_STATUS 6 true) with mon := ⟨some ⟨3, 7, 7, 0, 5, [], false⟩, 0⟩ }, .sedge, by decide +kernel⟩

theorem test_HostTransactions_1 : ∃ (s : State) (c : Byte), 2 ≤ hOp c ∧ s.hifReady = true :=
  ⟨on, 0xC0, by decide +kernel⟩

theorem test_HostTransactions_2 : ∃ (s : State) (m : Bytes), hOp (m.headD 0) = 1 ∧ s.hifReady = true ∧
    9 ≤ m.length ∧ m.length = 4 * byteAt m 4 + 9 ∧ txnRefusal s true m = none :=
  ⟨on, ([0x60, 0x14, 0x30, 0, 1, 9, 8, 7, 6] ++ toLE 4 (crc32c [0x60, 0x14, 0x30, 0, 1, 9, 8, 7, 6])),
    by decide +kernel⟩

theorem test_HostTransactions_3 : ∃ (s : State) (m : Bytes), hOp (m.headD 0) = 0 ∧ s.resumed = true ∧
    s.power.safeState = false ∧ 10 ≤ m.length ∧ txnRefusal s false m = none ∧ byteAt m 4 = 1 ∧
    hSpace (m.headD 0) = false ∧ 0x140000 ≤ ofLE (slice m 1 3) ∧ ofLE (slice m 1 3) ≤ 0x140014 ∧
    judge s .host false (0x40000000 + ofLE (slice m 1 3)) false = .granted ∧ s.hif.wbuf = [] :=
  ⟨on, ([0, 0x04, 0, 0x14, 1] ++ toLE 4 (crc32c [0, 0x04, 0, 0x14, 1]) ++ zeros 60), by decide +kernel⟩

theorem test_HostTransactions_4 : ∃ (s : State) (b : HostBuf) (r : List HostBuf) (w : Word) (q : Nat) (lane : Nat),
    s.hif.wbuf = b :: r ∧ s.resumed = true ∧ s.power.safeState = false ∧ b.s = true ∧ b.words = [w] ∧ q < 16 ∧
    lane < 2 ∧ b.a = 4096 * q + 2048 * lane + 0x14 ∧
    ({ s with hif := { s.hif with judged := some b.policy } }).judgeWindow .host true q lane 0x14 = .granted :=
  ⟨{ on with hif := { on.hif with wbuf := [⟨true, 0, 0x3014, [9], some [1, 0, 8, 0, 8, 0, 0, 0]⟩] } },
    ⟨true, 0, 0x3014, [9], some [1, 0, 8, 0, 8, 0, 0, 0]⟩, [], 9, 3, 0, by decide +kernel⟩

theorem test_PortsAndLinks_1 : ∃ (s : State) (p : Port), s.resumed = true ∧ s.rf (aCWY_PORT (portIx p)) 25 24 = 1 :=
  ⟨on.srf (aCWY_PORT 1) 25 24 1, .dn, by decide +kernel⟩

theorem test_PortsAndLinks_2 : ∃ (s : State) (p : Port), s.resumed = true ∧ s.rf (aCWY_PORT (portIx p)) 25 24 = 1 ∧
    (s.port (portIx p)).readySent = true ∧ s.isHead = false ∧ s.unit = 0 :=
  ⟨{ on.srf (aCWY_PORT 1) 25 24 1 with cwy := { on.cwy with ports := [(1, { portNil with readySent := true })] } },
    .dn, by decide +kernel⟩

theorem test_PortsAndLinks_3 : ∃ (s : State), s.resumed = true ∧ s.rf (aCWY_PORT 1) 25 24 = 1 ∧
    (s.port 1).readySent = true ∧ s.isHead = true ∧ (s.lane 8).committed = [] ∧ s.servedTo .nonceDn = none ∧
    s.rngFailed = false :=
  ⟨
    { on.srf (aCWY_PORT 1) 25 24 1 with power := { on.power with cwyHead := true }, cwy := { on.cwy with ports := [(1, { portNil with readySent := true })] } },
    by decide +kernel⟩

theorem test_PortsAndLinks_4 : ∃ (s : State) (p : Port), s.portUp (portIx p) = true :=
  ⟨
    { on.srf (aCWY_PORT 1) 25 24 2 with cwy := { on.cwy with ports := [(1, { portNil with unacked := [⟨1, 2, 5, 2, 7, 0, [], 0, none⟩] })] } },
    .dn, by decide +kernel⟩

theorem test_PortsAndLinks_5 : ∃ (s : State) (p : Port), s.portUp (portIx p) = true ∧
    (s.port (portIx p)).unacked ≠ [] ∧ (s.port (portIx p)).timeouts < 15 :=
  ⟨
    { on.srf (aCWY_PORT 1) 25 24 2 with cwy := { on.cwy with ports := [(1, { portNil with unacked := [⟨1, 2, 5, 2, 7, 0, [], 0, none⟩] })] } },
    .dn, by decide +kernel⟩

theorem test_PortsAndLinks_6 : ∃ (s : State) (p : Port) (b : Bytes), s.resumed = true ∧ s.portUp (portIx p) = true ∧
    parseFrame b = none :=
  ⟨(on.srf (aCWY_PORT 1) 25 24 2), .dn, [1, 2], by decide +kernel⟩

theorem test_PortsAndLinks_7 : ∃ (s : State) (p : Port) (b : Bytes) (f : Frame), s.resumed = true ∧
    s.portUp (portIx p) = true ∧ parseFrame b = some f ∧ f.lseq = (s.port (portIx p)).rxSeq ∧ f.dst = s.unit ∧
    f.dst ≠ 0 ∧ f.dst ≠ 31 ∧ f.cls = 1 :=
  ⟨((on.srf (aCWY_PORT 1) 25 24 2).srf aCWY_STATUS 4 0 3), .dn,
    ([3, 4, 1, 0, 2, 0, 0, 0, 9, 8] ++ toLE 4 (crc32c [3, 4, 1, 0, 2, 0, 0, 0, 9, 8])),
    ⟨3, 4, 1, 0, 0, 0, [9, 8], 0, none⟩, by decide +kernel⟩

theorem test_PortsAndLinks_8 : ∃ (s : State) (p : Port) (q : Byte) (l : List Frame), s.portUp (portIx p) = true ∧
    ackedTo q (s.port (portIx p)).unacked = some l ∧ (s.port (portIx p)).waiting = [] ∧ (s.lane 8).committed = [] :=
  ⟨
    { on.srf (aCWY_PORT 1) 25 24 2 with cwy := { on.cwy with ports := [(1, { portNil with unacked := [⟨1, 2, 5, 2, 7, 0, [], 0, none⟩, ⟨1, 2, 5, 2, 8, 0, [], 0, none⟩] })] } },
    .dn, 7, [⟨1, 2, 5, 2, 8, 0, [], 0, none⟩], by decide +kernel⟩

theorem test_PortsAndLinks_9 : ∃ (s : State) (p : Port) (q : Byte) (l : List Frame), s.portUp (portIx p) = true ∧
    ackedTo q (s.port (portIx p)).unacked = some l ∧ (s.port (portIx p)).waiting = [] ∧ (s.lane 8).committed = [] :=
  ⟨
    { on.srf (aCWY_PORT 1) 25 24 2 with cwy := { on.cwy with ports := [(1, { portNil with unacked := [⟨1, 2, 5, 2, 7, 0, [], 0, none⟩, ⟨1, 2, 5, 2, 8, 0, [], 0, none⟩] })] } },
    .dn, 7, [⟨1, 2, 5, 2, 8, 0, [], 0, none⟩], by decide +kernel⟩

theorem test_EnumerationAndTime_1 : ∃ (s : State) (x : Nat × Frame),
    s.cwy.taken.find? (fun x => decide (x.2.cls = 0)) = some x ∧ x.2.sub = 1 ∧ s.isHead = false ∧ x.1 = 0 ∧
    s.portUp 1 = false ∧ (s.lane 8).committed = [] :=
  ⟨{ on with cwy := { on.cwy with taken := [(0, ⟨0, 1, 0, 1, 0, 0, (5 :: zeros 16), 0, none⟩)] } },
    (0, ⟨0, 1, 0, 1, 0, 0, (5 :: zeros 16), 0, none⟩), by decide +kernel⟩

theorem test_EnumerationAndTime_2 : ∃ (s : State) (x : Nat × Frame),
    s.cwy.taken.find? (fun x => decide (x.2.cls = 0)) = some x ∧ x.2.sub = 2 ∧ s.isHead = true ∧ 2 ≤ x.2.src ∧
    x.2.src ≤ 16 ∧ byteAt x.2.payload 24 ≠ 0 :=
  ⟨
    { { on with power := { on.power with cwyHead := true } } with cwy := { { on with power := { on.power with cwyHead := true } }.cwy with taken := [(0, ⟨1, 2, 0, 2, 0, 0, (zeros 24 ++ [1] ++ zeros 16), 0, none⟩)] } },
    (0, ⟨1, 2, 0, 2, 0, 0, (zeros 24 ++ [1] ++ zeros 16), 0, none⟩), by decide +kernel⟩

theorem test_EnumerationAndTime_3 : ∃ (s : State) (x : Nat × Frame),
    s.cwy.taken.find? (fun x => decide (x.2.cls = 0)) = some x ∧ x.2.sub = 3 ∧ s.isHead = false :=
  ⟨{ on with cwy := { on.cwy with taken := [(0, ⟨31, 1, 0, 3, 0, 0, (2 :: zeros 64), 0, none⟩)] } },
    (0, ⟨31, 1, 0, 3, 0, 0, (2 :: zeros 64), 0, none⟩), by decide +kernel⟩

theorem test_EnumerationAndTime_4 : ∃ (s : State) (x : Nat × Frame),
    s.cwy.taken.find? (fun x => decide (x.2.cls = 0)) = some x ∧ x.2.sub = 4 ∧ s.isHead = true :=
  ⟨
    { { on with power := { on.power with cwyHead := true } } with cwy := { { on with power := { on.power with cwyHead := true } }.cwy with taken := [(0, ⟨1, 2, 0, 4, 0, 0, [], 0, none⟩)] } },
    (0, ⟨1, 2, 0, 4, 0, 0, [], 0, none⟩), by decide +kernel⟩

theorem test_EnumerationAndTime_5 : ∃ (s : State) (x : Nat × Frame),
    s.cwy.taken.find? (fun x => decide (x.2.cls = 0)) = some x ∧ x.2.sub = 5 ∧ s.isHead = true :=
  ⟨
    { { on with power := { on.power with cwyHead := true } } with cwy := { { on with power := { on.power with cwyHead := true } }.cwy with taken := [(0, ⟨1, 2, 0, 5, 0, 0, [], 0, none⟩)], roster := [(3, ⟨true, true, 1, 1, true⟩)] } },
    (0, ⟨1, 2, 0, 5, 0, 0, [], 0, none⟩), by decide +kernel⟩

theorem test_EnumerationAndTime_6 : ∃ (s : State) (x : Nat × Frame),
    s.cwy.taken.find? (fun x => decide (x.2.cls = 0)) = some x ∧ x.2.sub = 6 ∧ s.isHead = true ∧
    s.servedTo .nonceUp = none ∧ s.rngFailed = false :=
  ⟨
    { { on with power := { on.power with cwyHead := true } } with cwy := { { on with power := { on.power with cwyHead := true } }.cwy with taken := [(0, ⟨1, 2, 0, 6, 0, 0, [], 0, none⟩)] } },
    (0, ⟨1, 2, 0, 6, 0, 0, [], 0, none⟩), by decide +kernel⟩

theorem test_EnumerationAndTime_7 : ∃ (s : State) (x : Nat × Frame) (d : Bytes),
    s.cwy.taken.find? (fun x => decide (x.2.cls = 0)) = some x ∧ x.2.sub = 6 ∧ s.isHead = true ∧
    s.servedTo .nonceUp = some (cOk, d) ∧ s.cwy.joins = [] :=
  ⟨
    { { on with power := { on.power with cwyHead := true } } with trng := { on.trng with served := [(.nonceUp, cOk, zeros 16)] }, cwy := { on.cwy with taken := [(0, ⟨1, 2, 0, 6, 0, 0, [], 0, none⟩)] } },
    (0, ⟨1, 2, 0, 6, 0, 0, [], 0, none⟩), (zeros 16), by decide +kernel⟩

theorem test_EnumerationAndTime_8 : ∃ (s : State) (x : Nat × Frame),
    s.cwy.taken.find? (fun x => decide (x.2.cls = 0)) = some x ∧ x.2.sub = 7 ∧ s.unit ≠ 0 ∧ s.portUp 1 = false :=
  ⟨
    { (on.srf aCWY_STATUS 4 0 3) with cwy := { (on.srf aCWY_STATUS 4 0 3).cwy with taken := [(0, ⟨1, 1, 0, 7, 0, 0, (zeros 16), 0, none⟩)] } },
    (0, ⟨1, 1, 0, 7, 0, 0, (zeros 16), 0, none⟩), by decide +kernel⟩

theorem test_EnumerationAndTime_9 : ∃ (s : State), s.resumed = true ∧ s.portUp 1 = true ∧ s.unit ≠ 0 ∧
    6 ∉ s.cfg.held :=
  ⟨((on.srf (aCWY_PORT 1) 25 24 2).srf aCWY_STATUS 4 0 3), by decide +kernel⟩

theorem test_EnumerationAndTime_10 : ∃ (s : State), s.resumed = true ∧ s.portUp 1 = true :=
  ⟨(on.srf (aCWY_PORT 1) 25 24 2), by decide +kernel⟩

theorem test_EnumerationAndTime_11 : ∃ (s : State), s.resumed = true ∧ s.portUp 0 = true ∧
    s.cwy.stamps.length < 7 :=
  ⟨on.srf (aCWY_PORT 0) 25 24 2, by decide +kernel⟩

theorem test_EnumerationAndTime_12 : ∃ (s : State) (k : Bytes), s.resumed = true ∧ 1 ≤ s.unit ∧ s.unit ≤ 15 ∧
    32 ≤ s.cwy.exchanges.length ∧ 16 ≤ ((s.cwy.exchanges.take 32).filterMap (exchOf s.cwy.asym)).length ∧
    s.chainKey s.ksel = some k ∧ s.startOk = true ∧ s.portUp 1 = true ∧ (s.port 1).waiting = [] ∧
    (s.port 1).unacked.length < 8 ∧ s.maskStopped 0 = false :=
  ⟨
    { (on.srf (aCWY_PORT 1) 25 24 2).srf aCWY_STATUS 4 0 3 with slots := [(14, ⟨3, 1, false, true, 0x0F, 2, zeros 32, []⟩)], cwy := { on.cwy with startNo := 1, exchanges := List.replicate 32 ⟨5, some 10, some 12, some 20, 0⟩ } },
    (zeros 32), by decide +kernel⟩

theorem test_EnumerationAndTime_13 : ∃ (s : State), s.resumed = true ∧ 32 ≤ s.cwy.exchanges.length ∧
    ((s.cwy.exchanges.take 32).filterMap (exchOf s.cwy.asym)).length < 16 :=
  ⟨
    { on.srf aCWY_STATUS 4 0 3 with cwy := { on.cwy with exchanges := List.replicate 32 ⟨5, none, none, none, 0⟩ } },
    by decide +kernel⟩

theorem test_EnumerationAndTime_14 : ∃ (s : State) (x : Nat × Frame),
    s.cwy.taken.find? (fun x => decide (x.2.cls = 4)) = some x ∧ x.2.sub = 2 :=
  ⟨
    { on with cwy := { on.cwy with taken := [(0, ⟨2, 1, 4, 2, 0, 0, ([5] ++ zeros 5 ++ zeros 4 ++ [3, 0] ++ [9] ++ zeros 5 ++ zeros 4 ++ [4, 0]), 0, none⟩)] } },
    (0, ⟨2, 1, 4, 2, 0, 0, ([5] ++ zeros 5 ++ zeros 4 ++ [3, 0] ++ [9] ++ zeros 5 ++ zeros 4 ++ [4, 0]), 0, none⟩),
    by decide +kernel⟩

theorem test_PeatToPeat_1 : ∃ (s : State) (x : Nat × Frame),
    s.cwy.taken.find? (fun x => decide (x.2.cls = 1)) = some x ∧ (x.2.payload.length + 3) / 4 + 1 ≤ s.room 9 ∧
    s.openCount 9 < 8 :=
  ⟨{ on with cwy := { on.cwy with taken := [(0, ⟨1, 2, 1, 0, 0, 0, [1, 2, 3, 4, 5], 0, none⟩)] } },
    (0, ⟨1, 2, 1, 0, 0, 0, [1, 2, 3, 4, 5], 0, none⟩), by decide +kernel⟩

theorem test_PeatToPeat_2 : ∃ (s : State) (m : Master) (v : Word), Grants s m aCWY_PCMD ∧ s.cwy.receipts = [] ∧
    6 ∉ s.cfg.held ∧ fld v 20 16 ≠ 31 ∧ kSes (s.reg aCWY_PKREF) = true ∧ kLen (s.reg aCWY_PKREF) = 3 ∧
    kOff (s.reg aCWY_PKREF) = 0 ∧ s.keyCheck 126 (s.reg aCWY_PKREF) 0 = cOk ∧ s.chainKey s.ksel ≠ none ∧
    s.maskStopped 0 = false :=
  ⟨
    { on.setReg aCWY_PKREF 0x80009003 with sess := [(9, { sesNil with st := .ready, suite := 1, gen := 3 })], slots := [(14, ⟨3, 1, false, true, 0x0F, 2, zeros 32, []⟩)] },
    .peat, 0x00020000, by decide +kernel⟩

theorem test_PeatToPeat_3 : ∃ (s : State) (m : Master) (v : Word), Grants s m aCWY_PCMD ∧ s.cwy.receipts = [] ∧
    6 ∉ s.cfg.held ∧ fld v 20 16 ≠ 31 :=
  ⟨on, .peat, 0x00020000, by decide +kernel⟩

theorem test_PeatToPeat_4 : ∃ (s : State) (m : Master) (v : Word), Grants s m aCWY_PCMD ∧ s.cwy.receipts = [] ∧
    6 ∉ s.cfg.held ∧ fld v 20 16 ≠ 31 :=
  ⟨on, .peat, 0x00020000, by decide +kernel⟩

theorem test_PeatToPeat_5 : ∃ (s : State) (x : Nat × Frame),
    s.cwy.taken.find? (fun x => decide (x.2.cls = 2)) = some x ∧ x.2.sub = 4 ∧ s.cwy.receipts = [x.2.src] ∧
    s.cwy.pstatus = cOk ∧ s.rf aCWY_PCMD 30 28 ≠ 3 :=
  ⟨
    { on with cwy := { on.cwy with taken := [(0, ⟨1, 2, 2, 4, 0, 0, [1, 5], 0, none⟩)], receipts := [2], pstatus := cOk } },
    (0, ⟨1, 2, 2, 4, 0, 0, [1, 5], 0, none⟩), by decide +kernel⟩

theorem test_PeatToPeat_6 : ∃ (s : State), s.cwy.receipts ≠ [] :=
  ⟨{ on with cwy := { on.cwy with receipts := [2] } }, by decide +kernel⟩

theorem test_PeatToPeat_7 : ∃ (s : State) (x : Nat × Frame),
    s.cwy.taken.find? (fun x => decide (x.2.cls = 2)) = some x ∧ x.2.sub = 1 ∧ s.cwy.notifs.length < 4 ∧
    s.rb aCWY_PLAND 31 = true ∧ (s.ses (s.rf aCWY_PLAND 7 0)).st = .ready ∧
    (s.ses (s.rf aCWY_PLAND 7 0)).suite = 3 ∧ x.2.payload.length = 59 ∧ s.maskStopped 0 = false :=
  ⟨
    { on.setReg aCWY_PLAND 0x80000009 with sess := [(9, { sesNil with st := .ready, suite := 3 })], cwy := { on.cwy with taken := [(0, ⟨2, 1, 2, 1, 0, 0, (zeros 59), 0, none⟩)] } },
    (0, ⟨2, 1, 2, 1, 0, 0, (zeros 59), 0, none⟩), by decide +kernel⟩

theorem test_PeatToPeat_8 : ∃ (s : State) (x : Nat × Frame),
    s.cwy.taken.find? (fun x => decide (x.2.cls = 2)) = some x ∧ x.2.sub = 2 ∧ s.cwy.notifs.length < 4 :=
  ⟨{ on with cwy := { on.cwy with taken := [(0, ⟨2, 1, 2, 2, 0, 0, [9, 3], 0, none⟩)] } },
    (0, ⟨2, 1, 2, 2, 0, 0, [9, 3], 0, none⟩), by decide +kernel⟩

theorem test_PeatToPeat_9 : ∃ (s : State) (x : Nat × Frame),
    s.cwy.taken.find? (fun x => decide (x.2.cls = 2)) = some x ∧ x.2.sub = 3 :=
  ⟨{ on with cwy := { on.cwy with taken := [(0, ⟨2, 1, 2, 3, 0, 0, [1], 0, none⟩)] } },
    (0, ⟨2, 1, 2, 3, 0, 0, [1], 0, none⟩), by decide +kernel⟩

theorem test_PeatToPeat_10 : ∃ (s : State) (m : Master) (w : Word) (l : List Word), Grants s m aCWY_PRX ∧
    s.cwy.notifs = w :: l ∧ fld w 30 28 = 1 :=
  ⟨{ on with cwy := { on.cwy with notifs := [0x90020903, 5] } }, .peat, 0x90020903, [5], by decide +kernel⟩

theorem test_AlarmsAndMemoryErrors_1 : ∃ (s : State) (sources : Nat) (n : Nat) (l : List Nat), s.resumed = true ∧
    s.freshTrips sources = n :: l ∧ s.rf aFLT_CFG 7 0 = 0 ∧ s.eng.aes = none ∧ s.eng.bn = none ∧
    s.eng.bnSusp = none ∧ s.eng.hsh = none ∧ s.lf.cur = none ∧ s.nfc.cur = none ∧ s.uwb.cur = none ∧
    s.dist.cur = [] ∧ s.peat.serving = none :=
  ⟨on.srf aFLT_CFG 7 0 0, 0x24, 2, [5], by decide +kernel⟩

theorem test_AlarmsAndMemoryErrors_2 : ∃ (s : State) (sources : Nat) (n : Nat) (l : List Nat), s.resumed = true ∧
    s.freshTrips sources = n :: l ∧ s.rf aFLT_CFG 7 0 ≠ 0 ∧
    s.rf aFLT_CFG 7 0 ≤ (s.flt.times.filter fun x => decide (s.sys < x + secs 1)).length + 1 ∧ s.eng.aes = none ∧
    s.eng.bn = none ∧ s.eng.bnSusp = none ∧ s.eng.hsh = none ∧ s.lf.cur = none ∧ s.nfc.cur = none ∧
    s.uwb.cur = none ∧ s.dist.cur = [] ∧ s.peat.serving = none :=
  ⟨on.srf aFLT_CFG 7 0 1, 0x24, 2, [5], by decide +kernel⟩

theorem test_AlarmsAndMemoryErrors_3 : ∃ (s : State) (sources : Nat) (n : Nat) (l : List Nat), s.resumed = false ∧
    s.rails = true ∧ (s.freshTrips sources).filter (fun x => decide (x ≠ 3)) = n :: l :=
  ⟨{ on with power := { on.power with mode := .standing } }, 0x2C, 2, [5], by decide +kernel⟩

theorem test_AlarmsAndMemoryErrors_4 : ∃ (s : State) (reader : Master), s.resumed = true ∧ reader ≠ .mover :=
  ⟨on, .sedge, by decide +kernel⟩

theorem test_AlarmsAndMemoryErrors_5 : ∃ (s : State), s.resumed = true :=
  ⟨on.memWrite 0x30000070 [1, 2, 3], by decide +kernel⟩

theorem test_AlarmsAndMemoryErrors_6 : ∃ (s : State) (n : Nat) (p : Packet) (l : List Packet), s.resumed = true ∧
    n < 10 ∧ (s.lane n).half = none ∧ (s.lane n).committed = p :: l ∧ p.items ≠ [] :=
  ⟨
    (on.setLane 3 { laneNil with committed := [⟨[⟨0x40330007, 5, false⟩, ⟨0x20330007, 6, false⟩], 7, 0, 0x33, false, none, false, false, 0⟩] }),
    3, ⟨[⟨0x40330007, 5, false⟩, ⟨0x20330007, 6, false⟩], 7, 0, 0x33, false, none, false, false, 0⟩, [],
    by decide +kernel⟩

theorem test_AlarmsAndMemoryErrors_7 : ∃ (s : State) (k : Nat) (n : Nat) (detail : Nat), s.resumed = true ∧ k < 64 ∧
    s.sameAlarm 7 = false ∧ n = 7 ∧ detail = 5 ∧ s.rf aFLT_CFG 7 0 = 0 ∧ s.eng.aes = none ∧ s.eng.bn = none ∧
    s.eng.bnSusp = none ∧ s.eng.hsh = none ∧ s.lf.cur = none ∧ s.nfc.cur = none ∧ s.uwb.cur = none ∧
    s.dist.cur = [] ∧ s.peat.serving = none :=
  ⟨{ on.srf aFLT_CFG 7 0 0 with slots := [(20, ⟨0, 1, true, false, 0x48, 1, zeros 16, []⟩)] }, 20, 7, 5,
    by decide +kernel⟩

theorem test_AlarmsAndMemoryErrors_8 : ∃ (s : State) (mem : Nat), s.resumed = true ∧ mem ≤ 5 :=
  ⟨on, 3, by decide +kernel⟩

theorem test_SnapshotsMonitorsAndGovernor_1 : ∃ (s : State), s.resumed = true ∧ s.rf aPRF_GCTL 15 0 ≠ 0 ∧
    s.rb aPRF_GCTL 16 = false ∧ s.dumpWrote = none ∧ s.snapWords.length ≤ s.room 13 ∧ s.openCount 13 < 8 :=
  ⟨(on.srf aPRF_GCTL 15 0 1).setReg aPRF_GMASK 0x3, by decide +kernel⟩

theorem test_SnapshotsMonitorsAndGovernor_2 : ∃ (s : State) (n : Nat), s.resumed = true ∧ n < 6 ∧
    s.rb (aPRF_PMCFG n) 31 = true ∧ s.rf (aPRF_PMWIN n) 15 0 ≠ 0 :=
  ⟨{ (on.srf (aPRF_PMCFG 5) 31 31 1).srf (aPRF_PMWIN 5) 15 0 9 with prfAcc := [(5, 3), (21, 12)] }, 5,
    by decide +kernel⟩

theorem test_SnapshotsMonitorsAndGovernor_3 : ∃ (s : State) (m : Master) (b : Nat) (k : Nat), b < 25 ∧ k < 4 ∧
    Grants s m (aPRF_SEL b k) :=
  ⟨(on.setReg (aPRF_SEL 24 3) 0x107).setReg (aPRF_CNT 24 3) 9, .sedge, 24, 3, by decide +kernel⟩

theorem test_SnapshotsMonitorsAndGovernor_4 : ∃ (s : State), s.rails = true :=
  ⟨on, by decide +kernel⟩

theorem test_UwbCommandsAccepted_1 : ∃ (s : State) (o : UwbOp) (p : Packet), UwbTakes s o p ∧ uwbCmd o = 1 :=
  ⟨
    { ((((((on.srf (aCHN_STATUS 5) 1 0 1).srf (aCHN_BIND 5) 3 0 5).srb (aCHN_BIND 5) 25 false).srf (aCHN_BIND 5) 23 8 0x309).srf (aCHN_QUEUES 5) 7 0 0x43).setReg (aUWB_PROFILE 0) 0x01034009).setLane 3 { laneNil with committed := [⟨[⟨0x40330000, 0x10000000, false⟩, ⟨0, 0, false⟩, ⟨0x20330000, 0, false⟩], 0, 0, 0x33, false, none, false, false, 0⟩] } with cfg := { on.cfg with active := true, sections := [(0x500, [1])] }, sess := [(9, { sesNil with st := .ready, suite := 1, gen := 3 })] },
    { opNil with chan := 5, w0 := 0x10000000, w2 := 0, time := on.tsNow, profile := 0x01034009, port := profPort 0x01034009 },
    ⟨[⟨0x40330000, 0x10000000, false⟩, ⟨0, 0, false⟩, ⟨0x20330000, 0, false⟩], 0, 0, 0x33, false, none, false, false, 0⟩,
    by decide +kernel⟩

theorem test_UwbCommandsAccepted_2 : ∃ (s : State) (o : UwbOp) (p : Packet), UwbTakes s o p ∧ uwbCmd o = 2 :=
  ⟨
    { ((((((on.srf (aCHN_STATUS 5) 1 0 1).srf (aCHN_BIND 5) 3 0 5).srb (aCHN_BIND 5) 25 false).srf (aCHN_BIND 5) 23 8 0x309).srf (aCHN_QUEUES 5) 7 0 0x43).setReg (aUWB_PROFILE 0) 0x01034009).setLane 3 { laneNil with committed := [⟨[⟨0x40330000, 0x20000000, false⟩, ⟨0, 0, false⟩, ⟨0x20330000, 0x00280000, false⟩], 0, 0, 0x33, false, none, false, false, 0⟩] } with cfg := { on.cfg with active := true, sections := [(0x500, [1])] }, sess := [(9, { sesNil with st := .ready, suite := 1, gen := 3 })] },
    { opNil with chan := 5, w0 := 0x20000000, w2 := 0x00280000, time := on.tsNow, profile := 0x01034009 },
    ⟨[⟨0x40330000, 0x20000000, false⟩, ⟨0, 0, false⟩, ⟨0x20330000, 0x00280000, false⟩], 0, 0, 0x33, false, none, false, false, 0⟩,
    by decide +kernel⟩

theorem test_UwbCommandsAccepted_3 : ∃ (s : State) (o : UwbOp) (p : Packet), UwbTakes s o p ∧ uwbCmd o = 3 :=
  ⟨
    { ((((((on.srf (aCHN_STATUS 5) 1 0 1).srf (aCHN_BIND 5) 3 0 5).srb (aCHN_BIND 5) 25 false).srf (aCHN_BIND 5) 23 8 0x309).srf (aCHN_QUEUES 5) 7 0 0x43).setReg (aUWB_PROFILE 0) 0x01034009).setLane 3 { laneNil with committed := [⟨[⟨0x40330000, 0x30000000, false⟩, ⟨0, 0, false⟩, ⟨0x20330000, 0, false⟩], 0, 0, 0x33, false, none, false, false, 0⟩] } with cfg := { on.cfg with active := true, sections := [(0x500, [1])] }, sess := [(9, { sesNil with st := .ready, suite := 1, gen := 3 })] },
    { opNil with chan := 5, w0 := 0x30000000, w2 := 0, time := on.tsNow, profile := 0x01034009 },
    ⟨[⟨0x40330000, 0x30000000, false⟩, ⟨0, 0, false⟩, ⟨0x20330000, 0, false⟩], 0, 0, 0x33, false, none, false, false, 0⟩,
    by decide +kernel⟩

theorem test_UwbCommandsAccepted_4 : ∃ (s : State) (o : UwbOp) (p : Packet), UwbTakes s o p ∧ uwbCmd o = 4 :=
  ⟨
    { ((((((on.srf (aCHN_STATUS 5) 1 0 1).srf (aCHN_BIND 5) 3 0 5).srb (aCHN_BIND 5) 25 false).srf (aCHN_BIND 5) 23 8 0x309).srf (aCHN_QUEUES 5) 7 0 0x43).setReg (aUWB_PROFILE 0) 0x01034009).setLane 3 { laneNil with committed := [⟨[⟨0x40330000, 0x40000000, false⟩, ⟨0, 0, false⟩, ⟨0x20330000, 0, false⟩], 0, 0, 0x33, false, none, false, false, 0⟩] } with cfg := { on.cfg with active := true, sections := [(0x500, [1])] }, sess := [(9, { sesNil with st := .ready, suite := 1, gen := 3 })] },
    { opNil with chan := 5, w0 := 0x40000000, w2 := 0, time := on.tsNow, profile := 0x01034009 },
    ⟨[⟨0x40330000, 0x40000000, false⟩, ⟨0, 0, false⟩, ⟨0x20330000, 0, false⟩], 0, 0, 0x33, false, none, false, false, 0⟩,
    by decide +kernel⟩

theorem test_UwbCommandsAccepted_5 : ∃ (s : State) (o : UwbOp) (p : Packet), UwbTakes s o p ∧ uwbCmd o = 5 :=
  ⟨
    { ((((((on.srf (aCHN_STATUS 5) 1 0 1).srf (aCHN_BIND 5) 3 0 5).srb (aCHN_BIND 5) 25 false).srf (aCHN_BIND 5) 23 8 0x309).srf (aCHN_QUEUES 5) 7 0 0x43).setReg (aUWB_PROFILE 0) 0x01034009).setLane 3 { laneNil with committed := [⟨[⟨0x40330000, 0x50000000, false⟩, ⟨0, 0, false⟩, ⟨0x20330000, 0, false⟩], 0, 0, 0x33, false, none, false, false, 0⟩] } with cfg := { on.cfg with active := true, sections := [(0x500, [1])] }, sess := [(9, { sesNil with st := .ready, suite := 1, gen := 3 })] },
    { opNil with chan := 5, w0 := 0x50000000, w2 := 0, time := on.tsNow, profile := 0x01034009 },
    ⟨[⟨0x40330000, 0x50000000, false⟩, ⟨0, 0, false⟩, ⟨0x20330000, 0, false⟩], 0, 0, 0x33, false, none, false, false, 0⟩,
    by decide +kernel⟩

theorem test_UwbCommandsAccepted_6 : ∃ (s : State) (o : UwbOp) (p : Packet), UwbTakes s o p ∧ uwbCmd o = 6 :=
  ⟨
    { ((((((on.srf (aCHN_STATUS 5) 1 0 1).srf (aCHN_BIND 5) 3 0 5).srb (aCHN_BIND 5) 25 false).srf (aCHN_BIND 5) 23 8 0x309).srf (aCHN_QUEUES 5) 7 0 0x43).setReg (aUWB_PROFILE 0) 0x01034009).setLane 3 { laneNil with committed := [⟨[⟨0x40330000, 0x60000002, false⟩, ⟨0, 0, false⟩, ⟨0x20330000, 0, false⟩], 0, 0, 0x33, false, none, false, false, 0⟩] } with cfg := { on.cfg with active := true, sections := [(0x500, [1])] }, sess := [(9, { sesNil with st := .ready, suite := 1, gen := 3 })] },
    { opNil with chan := 5, w0 := 0x60000002, w2 := 0, time := on.tsNow, profile := 0x01034009 },
    ⟨[⟨0x40330000, 0x60000002, false⟩, ⟨0, 0, false⟩, ⟨0x20330000, 0, false⟩], 0, 0, 0x33, false, none, false, false, 0⟩,
    by decide +kernel⟩

theorem test_UwbCommandsAccepted_7 : ∃ (s : State) (o : UwbOp) (p : Packet), UwbTakes s o p ∧ uwbCmd o = 7 :=
  ⟨
    { ((((((on.srf (aCHN_STATUS 5) 1 0 1).srf (aCHN_BIND 5) 3 0 5).srb (aCHN_BIND 5) 25 false).srf (aCHN_BIND 5) 23 8 0x309).srf (aCHN_QUEUES 5) 7 0 0x43).setReg (aUWB_PROFILE 0) 0x01034009).setLane 3 { laneNil with committed := [⟨[⟨0x40330000, 0x70000003, false⟩, ⟨0, 0, false⟩, ⟨0x20330000, 0, false⟩], 0, 0, 0x33, false, none, false, false, 0⟩] } with cfg := { on.cfg with active := true, sections := [(0x500, [1])] }, sess := [(9, { sesNil with st := .ready, suite := 1, gen := 3 })] },
    { opNil with chan := 5, w0 := 0x70000003, w2 := 0, time := on.tsNow, profile := 0x01034009 },
    ⟨[⟨0x40330000, 0x70000003, false⟩, ⟨0, 0, false⟩, ⟨0x20330000, 0, false⟩], 0, 0, 0x33, false, none, false, false, 0⟩,
    by decide +kernel⟩

theorem test_UwbOperations_1 : ∃ (s : State) (o : UwbOp) (temp : Int) (vdd : Nat), s.resumed = true ∧ UwbRests s ∧
    s.radio = 2 ∧ s.rb aUWB_STATE 5 = false ∧ s.nextWalk temp vdd = some o ∧ uwbCmd o = 5 ∧ uwbRanging o = false ∧
    o.cal = none :=
  ⟨
    { (((on.srf aUWB_STATE 2 0 2).srf aUWB_IDLECFG 15 0 500).srf (aCHN_QUEUES 5) 7 4 4) with uwb := { on.uwb with ops := [{ opNil with chan := 5, w0 := 0x50000000, w2 := 0x00280000, profile := 0x01034009 }], cur := none, nextId := 1 } },
    { opNil with chan := 5, w0 := 0x50000000, w2 := 0x00280000, profile := 0x01034009 }, 25, 1200, by decide +kernel⟩

theorem test_UwbOperations_2 : ∃ (s : State) (w : Bool × Bool), s.radio = 3 ∧ s.uwb.cur = none ∧
    s.uwb.orphan = none ∧ s.uwb.walk = some w ∧ s.rf aUWB_IDLECFG 15 0 ≠ 0 :=
  ⟨
    { (((on.srf aUWB_STATE 2 0 3).srf aUWB_IDLECFG 15 0 500).srf (aCHN_QUEUES 5) 7 4 4) with uwb := { on.uwb with ops := [{ opNil with chan := 5, w0 := 0x50000000, w2 := 0x00280000, profile := 0x01034009, walked := true }], cur := none, nextId := 1, walk := some (true, true) } },
    (true, true), by decide +kernel⟩

theorem test_UwbOperations_3 : ∃ (s : State) (o : UwbOp), s.armed = some o ∧ s.uwb.cur = some o.id ∧ s.radio = 4 ∧
    s.lockedOn (profCh9 o.profile) = true ∧ s.opSession o = true ∧ uwbCmd o = 2 :=
  ⟨
    { ((((on.srf aUWB_STATE 2 0 4).srf aUWB_IDLECFG 15 0 500).srf (aCHN_QUEUES 5) 7 4 4).srb aUWB_STATE 5 true) with uwb := { on.uwb with ops := [{ opNil with chan := 5, w0 := 0x28000000, w2 := 0x00280000, profile := 0x01034009, walked := true }], cur := some 0, nextId := 1 } , regs := ((on.srf aUWB_STATE 6 0 0x24).srf (aCHN_BIND 5) 25 8 0x309).regs, sess := [(9, { sesNil with st := .ready, suite := 1, gen := 3 })] },
    { opNil with chan := 5, w0 := 0x28000000, w2 := 0x00280000, profile := 0x01034009, walked := true },
    by decide +kernel⟩

theorem test_UwbOperations_4 : ∃ (s : State) (o : UwbOp) (rl : Nat), s.armed = some o ∧ s.uwb.cur = some o.id ∧
    s.radio = 4 ∧ s.lockedOn (profCh9 o.profile) = true ∧ s.opSession o = true ∧ uwbCmd o = 1 ∧ s.duty = 16 ∧
    5 * byteAt s.rng 3 ≤ rl :=
  ⟨
    { ((((on.srf aUWB_STATE 2 0 4).srf aUWB_IDLECFG 15 0 500).srf (aCHN_QUEUES 5) 7 4 4).srb aUWB_STATE 5 true) with uwb := { on.uwb with ops := [{ opNil with chan := 5, w0 := 0x18000000, w2 := 0x00280000, profile := 0x01034009, walked := true }], cur := some 0, nextId := 1 } , regs := ((on.srf aUWB_STATE 6 0 0x24).srf (aCHN_BIND 5) 25 8 0x309).regs, sess := [(9, { sesNil with st := .ready, suite := 1, gen := 3 })] },
    { opNil with chan := 5, w0 := 0x18000000, w2 := 0x00280000, profile := 0x01034009, walked := true }, 60,
    by decide +kernel⟩

theorem test_UwbOperations_5 : ∃ (s : State) (o : UwbOp), UwbRuns s o ∧ s.radio = 6 ∧ RoomFor s o.chan 3 :=
  ⟨
    { ((((on.srf aUWB_STATE 2 0 6).srf aUWB_IDLECFG 15 0 500).srf (aCHN_QUEUES 5) 7 4 4).srb aUWB_STATE 5 true) with uwb := { on.uwb with ops := [{ opNil with chan := 5, w0 := 0x10000000, w2 := 0x00280000, profile := 0x01034009, walked := true }], cur := some 0, nextId := 1 } },
    { opNil with chan := 5, w0 := 0x10000000, w2 := 0x00280000, profile := 0x01034009, walked := true },
    by decide +kernel⟩

theorem test_UwbOperations_6 : ∃ (s : State) (o : UwbOp) (b : Bytes), UwbRuns s o ∧ s.radio = 5 ∧ b.length ≤ 125 ∧
    RoomFor s o.chan (3 + (b.length + 3) / 4) :=
  ⟨
    { ((((on.srf aUWB_STATE 2 0 5).srf aUWB_IDLECFG 15 0 500).srf (aCHN_QUEUES 5) 7 4 4).srb aUWB_STATE 5 true) with uwb := { on.uwb with ops := [{ opNil with chan := 5, w0 := 0x20000000, w2 := 0x00280000, profile := 0x01034009, walked := true }], cur := some 0, nextId := 1 } },
    { opNil with chan := 5, w0 := 0x20000000, w2 := 0x00280000, profile := 0x01034009, walked := true },
    [1, 2, 3, 4, 5], by decide +kernel⟩

theorem test_UwbOperations_7 : ∃ (s : State) (o : UwbOp), UwbRuns s o ∧ s.radio = 5 ∧ uwbCmd o = 2 ∧
    o.heard = false ∧ RoomFor s o.chan 3 :=
  ⟨
    { ((((on.srf aUWB_STATE 2 0 5).srf aUWB_IDLECFG 15 0 500).srf (aCHN_QUEUES 5) 7 4 4).srb aUWB_STATE 5 true) with uwb := { on.uwb with ops := [{ opNil with chan := 5, w0 := 0x20000000, w2 := 0x00280000, profile := 0x01034009, walked := true }], cur := some 0, nextId := 1 } },
    { opNil with chan := 5, w0 := 0x20000000, w2 := 0x00280000, profile := 0x01034009, walked := true },
    by decide +kernel⟩

theorem test_UwbOperations_8 : ∃ (s : State), 4 ≤ s.radio ∧ s.rb aUWB_STATE 5 = true ∧ UwbRests s :=
  ⟨(on.srf aUWB_STATE 6 0 0x24), by decide +kernel⟩

theorem test_UwbOperations_9 : ∃ (s : State), s.radio = 4 ∧ UwbRests s :=
  ⟨(on.srf aUWB_STATE 6 0 0x24), by decide +kernel⟩

theorem test_UwbOperations_10 : ∃ (s : State), s.radio = 2 ∧ UwbRests s :=
  ⟨(on.srf aUWB_STATE 6 0 2), by decide +kernel⟩

theorem test_UwbOperations_11 : ∃ (s : State) (port : Nat) (temp : Int) (vdd : Nat), s.radio = 4 ∧ UwbRests s ∧
    s.gapFits 37 temp vdd = true ∧ testBit s.uwb.retune port = true ∧ port < 4 ∧
    testBit s.faultPorts port = false :=
  ⟨{ (on.srf aUWB_STATE 6 0 0x24) with uwb := { on.uwb with retune := 4 } }, 2, 25, 1200, by decide +kernel⟩

theorem test_UwbOperations_12 : ∃ (s : State) (m : Master), Grants s m aUWB_LIVE :=
  ⟨on, .peat, by decide +kernel⟩

theorem test_UwbOperations_13 : ∃ (s : State) (temp : Int) (vdd : Nat), s.resumed = true ∧ s.radio ≠ 0 ∧
    -128 ≤ temp ∧ temp ≤ 127 ∧ vdd < 65536 :=
  ⟨(on.srf aUWB_STATE 6 0 0x24), -12, 1203, by decide +kernel⟩

theorem test_UwbOperations_14 : ∃ (s : State) (o : UwbOp) (rl : Nat), s.uwbCur = some o ∧ s.rb aUWB_FLAGS 7 = true ∧
    5 * byteAt s.rng 3 ≤ rl :=
  ⟨
    ({ ((((on.srf aUWB_STATE 2 0 4).srf aUWB_IDLECFG 15 0 500).srf (aCHN_QUEUES 5) 7 4 4).srb aUWB_STATE 5 true) with uwb := { on.uwb with ops := [{ opNil with chan := 5, w0 := 0x10000000, w2 := 0x00280000, profile := 0x01034009, walked := true }], cur := some 0, nextId := 1 } }).srb aUWB_FLAGS 7 true,
    { opNil with chan := 5, w0 := 0x10000000, w2 := 0x00280000, profile := 0x01034009, walked := true }, 60,
    by decide +kernel⟩

theorem test_RangingRounds_1 : ∃ (s : State), s.resumed = true ∧ s.isHead = true ∧ s.rb aDIST_CTL 0 = true ∧
    s.feOn 5 = true ∧ 5 ∉ s.cfg.held :=
  ⟨
    ({ (on.setReg (aDIST_SLOT 0) 0x80010900) with power := { on.power with cwyHead := true }, sess := [(9, { sesNil with st := .ready, suite := 1, gen := 3, rn := 5 })], cfg := { on.cfg with active := true, sections := [(0x500, [1])] } }).srb aDIST_CTL 0 true,
    by decide +kernel⟩

theorem test_RangingRounds_2 : ∃ (s : State) (x : Nat × Frame),
    s.cwy.taken.find? (fun x => decide (x.2.cls = 3)) = some x ∧ x.2.sub = 1 ∧ s.isHead = false ∧
    s.inTime (planSlots x.2.payload) = true ∧ byteAt x.2.payload 0 ≠ 1 :=
  ⟨
    { (on.srf aCWY_STATUS 4 0 2) with cwy := { (on.srf aCWY_STATUS 4 0 2).cwy with taken := [(1, ⟨2, 1, 3, 1, 0, 0, [0, 0, 0, 0, 0, 1, 1, 2, 9, 3, 5, 0, 0], 0, none⟩)] } },
    (1, ⟨2, 1, 3, 1, 0, 0, [0, 0, 0, 0, 0, 1, 1, 2, 9, 3, 5, 0, 0], 0, none⟩), by decide +kernel⟩

theorem test_RangingRounds_3 : ∃ (s : State), s.isHead = false ∧ s.resumed = true ∧ s.dist.planIn = true :=
  ⟨{ (on.srf aCWY_STATUS 4 0 2) with dist := { (on.srf aCWY_STATUS 4 0 2).dist with planIn := true } },
    by decide +kernel⟩

theorem test_RangingRounds_4 : ∃ (s : State), s.isHead = false ∧ s.resumed = true ∧ s.dist.planIn = false :=
  ⟨(on.srf aCWY_STATUS 4 0 2).setReg (aDIST_SLOT 0) 0x80020900, by decide +kernel⟩

theorem test_RangingRounds_5 : ∃ (s : State) (x : PlanSlot), s.resumed = true ∧ s.dist.cur.length < 2 ∧
    s.fusedNext = false ∧ s.firstSlot s.dist.plan = some x ∧ x.unit = s.rngUnit ∧ (s.slotSes x).isSome = true ∧
    s.uwbPending ≤ 60 :=
  ⟨
    { { (on.setReg (aDIST_SLOT 0) 0x80010900) with power := { on.power with cwyHead := true }, sess := [(9, { sesNil with st := .ready, suite := 1, gen := 3, rn := 5 })], cfg := { on.cfg with active := true, sections := [(0x500, [1])] } } with dist := { { (on.setReg (aDIST_SLOT 0) 0x80010900) with power := { on.power with cwyHead := true }, sess := [(9, { sesNil with st := .ready, suite := 1, gen := 3, rn := 5 })], cfg := { on.cfg with active := true, sections := [(0x500, [1])] } }.dist with plan := [⟨0, 1, 9, 3, false, 0, false, 1000⟩] } },
    ⟨0, 1, 9, 3, false, 0, false, 1000⟩, by decide +kernel⟩

theorem test_RangingRounds_6 : ∃ (s : State) (p : FusedPlan) (l : List FusedPlan), s.dist.fuseReqs = p :: l ∧
    s.resumed = true ∧ s.dist.cur.length < 2 ∧ s.fusedNext = true :=
  ⟨{ on with dist := { on.dist with fuseReqs := [⟨9, 3, 0, [1, 2], 5000⟩] } }, ⟨9, 3, 0, [1, 2], 5000⟩, [],
    by decide +kernel⟩

theorem test_RangingRounds_7 : ∃ (s : State) (p : FusedPlan) (l : List FusedPlan), s.dist.fuseReqs = p :: l ∧
    s.resumed = true ∧ s.dist.fused.all FusedRun.begun = true :=
  ⟨{ on with dist := { on.dist with fuseReqs := [⟨9, 3, 0, [1, 2], 5000⟩] } }, ⟨9, 3, 0, [1, 2], 5000⟩, [],
    by decide +kernel⟩

theorem test_RangingRounds_8 : ∃ (s : State) (f : FusedRun), s.dist.fused = [f] ∧ f.begun = false ∧
    s.resumed = true :=
  ⟨
    { on with dist := { on.dist with fused := [⟨⟨9, 3, 0, [1, 2], 5000⟩, [], [], 0, 1, [], false, ⟨0, 0, 0, true⟩, false⟩] } },
    ⟨⟨9, 3, 0, [1, 2], 5000⟩, [], [], 0, 1, [], false, ⟨0, 0, 0, true⟩, false⟩, by decide +kernel⟩

theorem test_RangingRounds_9 : ∃ (s : State) (m : Master) (v : Word), Grants s m aDIST_MAP ∧ bit v 30 = false :=
  ⟨on, .peat, 0x00040900, by decide +kernel⟩

theorem test_RangingRounds_10 : ∃ (s : State) (m : Master) (v : Word), Grants s m aDIST_MAP ∧ bit v 31 = false :=
  ⟨{ on with dist := { on.dist with map := [(9, 4)] } }, .peat, 0x00040900, by decide +kernel⟩

theorem test_RangingRounds_11 : ∃ (s : State) (m : Master) (v : Word) (n : Nat), Grants s m aDIST_FUSE ∧
    n = fld v 15 8 ∧ s.isHead = true ∧ testBit (byteAt s.rng 0x1B) 2 = true ∧ (s.slotSes ⟨0, 1, n, (s.ses n).gen,
    true, 0, false, 0⟩).isSome = true ∧ (s.ses n).fn + 16 ≤ 2 ^ 24 ∧
    (s.dist.fuseReqs.all fun p => decide (p.ses ≠ n)) = true ∧ s.dist.fuseReqs.length < 4 ∧ s.peat.serving = none :=
  ⟨
    { { (on.setReg (aDIST_SLOT 0) 0x80010900) with power := { on.power with cwyHead := true }, sess := [(9, { sesNil with st := .ready, suite := 1, gen := 3, rn := 5 })], cfg := { on.cfg with active := true, sections := [(0x500, zeros 27 ++ [4])] } } with dist := { { (on.setReg (aDIST_SLOT 0) 0x80010900) with power := { on.power with cwyHead := true }, sess := [(9, { sesNil with st := .ready, suite := 1, gen := 3, rn := 5 })], cfg := { on.cfg with active := true, sections := [(0x500, zeros 27 ++ [4])] } }.dist with map := [(9, 4)] }, sess := [(4, { sesNil with st := .ready, suite := 3, hasFused := true }), (9, { sesNil with st := .ready, suite := 1, gen := 3 })] },
    .peat, 0x900, 9, by decide +kernel⟩

theorem test_RangingVerdicts_1 : ∃ (s : State) (o : UwbOp) (r : RngSlot) (fp : FirstPath),
    s.openRanging 1 = some (o, r) ∧ fpReason s.rng fp o.stale = 0 :=
  ⟨
    { ((on.srf aUWB_STATE 6 0 0x25).srf aUWB_IDLECFG 15 0 500) with power := { on.power with cwyHead := true }, uwb := { on.uwb with ops := [{ opNil with chan := 129, w0 := 0x28000000, ref := 1000, walked := true, delay := 7 }], cur := some 0, nextId := 1 }, dist := { on.dist with cur := [slotNil ⟨0, 1, 9, 3, false, 0, false, 1000⟩] } },
    { opNil with chan := 129, w0 := 0x28000000, ref := 1000, walked := true, delay := 7 },
    slotNil ⟨0, 1, 9, 3, false, 0, false, 1000⟩, ⟨[⟨90000, [], 0⟩], 90000 - 4096⟩, by decide +kernel⟩

theorem test_RangingVerdicts_2 : ∃ (s : State) (o : UwbOp) (r : RngSlot) (fp : FirstPath),
    s.openRanging 3 = some (o, r) ∧ r.slot.unit = s.rngUnit ∧ fpReason s.rng fp o.stale = 0 :=
  ⟨
    { ((on.srf aUWB_STATE 6 0 0x25).srf aUWB_IDLECFG 15 0 500) with power := { on.power with cwyHead := true }, uwb := { on.uwb with ops := [{ opNil with chan := 131, w0 := 0x28000000, ref := 1000, walked := true, delay := 7 }], cur := some 0, nextId := 1 }, dist := { on.dist with cur := [slotNil ⟨0, 1, 9, 3, false, 0, false, 1000⟩] } },
    { opNil with chan := 131, w0 := 0x28000000, ref := 1000, walked := true, delay := 7 },
    slotNil ⟨0, 1, 9, 3, false, 0, false, 1000⟩, ⟨[⟨90000, [], 0⟩], 90000 - 4096⟩, by decide +kernel⟩

theorem test_RangingVerdicts_3 : ∃ (s : State) (r : RngSlot) (l : List RngSlot), s.dist.cur = r :: l ∧
    r.slot.fused = false ∧ r.slot.ses ∉ s.dist.mapSpoilt ∧ s.dist.fifo.length < 16 ∧ s.peat.serving = none :=
  ⟨
    { ((on.srf aUWB_STATE 6 0 0x25).srf aUWB_IDLECFG 15 0 500) with power := { on.power with cwyHead := true }, uwb := { on.uwb with ops := [{ opNil with chan := 129, w0 := 0x28000000, ref := 1000, walked := true, delay := 7 }], cur := some 0, nextId := 1 }, dist := { on.dist with cur := [slotNil ⟨0, 1, 9, 3, false, 0, false, 1000⟩] } },
    slotNil ⟨0, 1, 9, 3, false, 0, false, 1000⟩, [], by decide +kernel⟩

theorem test_RangingVerdicts_4 : ∃ (s : State) (x : Nat × Frame),
    s.cwy.taken.find? (fun x => decide (x.2.cls = 3)) = some x ∧ x.2.sub = 2 ∧ s.isHead = true ∧
    s.dist.fifo.length < 16 :=
  ⟨
    { { on with power := { on.power with cwyHead := true } } with cwy := { { on with power := { on.power with cwyHead := true } }.cwy with taken := [(2, ⟨1, 2, 3, 2, 0, 0, [0, 0, 9, 0, 16, 0, 1, 0, 0, 0, 0, 0, 5, 0, 0, 0], 0, none⟩)] } },
    (2, ⟨1, 2, 3, 2, 0, 0, [0, 0, 9, 0, 16, 0, 1, 0, 0, 0, 0, 0, 5, 0, 0, 0], 0, none⟩), by decide +kernel⟩

theorem test_RangingVerdicts_5 : ∃ (s : State) (m : Master) (w : List Word) (l : List (List Word)),
    Grants s m aDIST_VREAD ∧ s.dist.fifo = w :: l :=
  ⟨{ on with dist := { on.dist with fifo := [[0x00090010, 5, 0, 1]] } }, .peat, [0x00090010, 5, 0, 1], [],
    by decide +kernel⟩

theorem test_RangingVerdicts_6 : ∃ (s : State) (x : Nat × Frame) (f : FusedRun) (rest : List FusedRun),
    s.cwy.taken.find? (fun x => decide (x.2.cls = 3)) = some x ∧ x.2.sub = 3 ∧ s.isHead = true ∧
    s.dist.fused = f :: rest ∧ f.ended = false ∧ x.2.src ∈ f.plan.units ∧
    (f.arrivals.all fun a => decide (a.unit ≠ x.2.src)) = true ∧ s.peat.serving = none :=
  ⟨
    { { { on with power := { on.power with cwyHead := true } } with cwy := { { on with power := { on.power with cwyHead := true } }.cwy with taken := [(2, ⟨1, 2, 3, 3, 0, 0, [0, 0, 9, 0, 16, 0, 1, 0, 0, 0, 0, 0, 5, 0, 0, 0, 1, 1, 0], 0, none⟩)] } } with dist := { { { on with power := { on.power with cwyHead := true } } with cwy := { { on with power := { on.power with cwyHead := true } }.cwy with taken := [(2, ⟨1, 2, 3, 3, 0, 0, [0, 0, 9, 0, 16, 0, 1, 0, 0, 0, 0, 0, 5, 0, 0, 0, 1, 1, 0], 0, none⟩)] } }.dist with fused := [⟨⟨9, 3, 0, [1, 2], 5000⟩, [], [], 0, 1, [], false, ⟨0, 0, 0, true⟩, true⟩] } },
    (2, ⟨1, 2, 3, 3, 0, 0, [0, 0, 9, 0, 16, 0, 1, 0, 0, 0, 0, 0, 5, 0, 0, 0, 1, 1, 0], 0, none⟩),
    ⟨⟨9, 3, 0, [1, 2], 5000⟩, [], [], 0, 1, [], false, ⟨0, 0, 0, true⟩, true⟩, [], by decide +kernel⟩

theorem test_RangingVerdicts_7 : ∃ (s : State) (f : FusedRun) (rest : List FusedRun), s.dist.fused = f :: rest ∧
    s.isHead = true ∧ f.ended = true ∧ s.peat.serving = none :=
  ⟨
    { { on with power := { on.power with cwyHead := true } } with dist := { { on with power := { on.power with cwyHead := true } }.dist with fused := [⟨⟨9, 3, 0, [1, 2], 5000⟩, [], [], 0, 1, [], true, ⟨0, 0, 0, true⟩, true⟩] } },
    ⟨⟨9, 3, 0, [1, 2], 5000⟩, [], [], 0, 1, [], true, ⟨0, 0, 0, true⟩, true⟩, [], by decide +kernel⟩

theorem test_ReleaseDecisions_1 : ∃ (s : State) (p : Packet) (d : Decision) (k : Slot), MailTakes s 0x20 p ∧
    PhoneHolds s p d ∧ MayDecide s k ∧ d.kind = 1 ∧ d.zones = fld (mailArg p 1) 7 0 ∧ mailArg p 1 ≠ 0 ∧
    fld (mailArg p 1) 31 8 = 0 ∧ s.zonesAllowed (s.ses d.ses) d.zones = true ∧
    (bitsOf 8 d.zones).all (s.zoneNear d) = true ∧ byteAt s.relPart 0xA = 0xFF :=
  ⟨
    (mail { on with power := { on.power with cwyHead := true }, slots := [(8, ⟨1, 1, false, true, 0x08, 1, zeros 16, []⟩)], cfg := { on.cfg with active := true, sections := [(0x500, zeros 27 ++ [4]), (0x900, [1, 4, 0, 0, 2, 0, 32, 0, 0, 3, 0xE8, 3, 0xE8, 3, 0, 0, 0, 0, 0xFF, 0xFF, 0xFF, 0, 0, 0, 1, 0] ++ zeros 14)] }, peat := { on.peat with reqGens := [(0, 3)], verdicts := [(9 * 32 + 1, ⟨[0x00090304], 0⟩)] }, dist := { on.dist with map := [(9, 4)] }, envm := { on.envm with lcs := 2 }, sess := [(4, { sesNil with st := .ready, suite := 3, hasFused := true }), (9, { sesNil with st := .ready, suite := 1, gen := 3, cred := some (77, 0x103, 0xFFFFFFFF) })] } [0x20000012, 9, 1]),
    (req [0x20000012, 9, 1]), ⟨1, 9, 3, 1, 77, 0x103, 0⟩, ⟨1, 1, false, true, 0x08, 1, zeros 16, []⟩,
    by decide +kernel⟩

theorem test_ReleaseDecisions_2 : ∃ (s : State) (p : Packet) (d : Decision), MailTakes s 0x21 p ∧ PhoneHolds s p d ∧
    s.decisionRoom = true ∧ s.vbatLow = false ∧ (s.key 8).isSome = true ∧ d.kind = 2 ∧ d.zones = 0 ∧
    bit d.rights 1 = true ∧ testBit (byteAt s.rng 0x1B) 2 = true ∧ (s.slotSes ⟨0, 1, d.ses, (s.ses d.ses).gen, true,
    0, false, 0⟩).isSome = true ∧ (s.ses d.ses).fn + 16 ≤ 2 ^ 24 ∧
    (s.dist.fuseReqs.all fun q => decide (q.ses ≠ d.ses)) = true ∧ s.dist.fuseReqs.length < 4 :=
  ⟨
    (mail { on with power := { on.power with cwyHead := true }, slots := [(8, ⟨1, 1, false, true, 0x08, 1, zeros 16, []⟩)], cfg := { on.cfg with active := true, sections := [(0x500, zeros 27 ++ [4]), (0x900, [1, 4, 0, 0, 2, 0, 32, 0, 0, 3, 0xE8, 3, 0xE8, 3, 0, 0, 0, 0, 0xFF, 0xFF, 0xFF, 0, 0, 0, 1, 0] ++ zeros 14)] }, peat := { on.peat with reqGens := [(0, 3)], verdicts := [(9 * 32 + 1, ⟨[0x00090304], 0⟩)] }, dist := { on.dist with map := [(9, 4)] }, envm := { on.envm with lcs := 2 }, sess := [(4, { sesNil with st := .ready, suite := 3, hasFused := true }), (9, { sesNil with st := .ready, suite := 1, gen := 3, cred := some (77, 0x102, 0xFFFFFFFF) })] } [0x21000012, 9]),
    (req [0x21000012, 9]), ⟨2, 9, 3, 0, 77, 0x102, 0⟩, by decide +kernel⟩

theorem test_ReleaseDecisions_3 : ∃ (s : State) (v : Serving) (d : Decision), Waits s v (.fused d) ∧ d.kind = 2 ∧
    4 ≤ s.room 3 ∧ s.openCount 3 < 8 :=
  ⟨{ on with peat := { on.peat with serving := some ⟨0x21, 7, [], .fused ⟨2, 9, 3, 0, 77, 0, 0⟩, false⟩ } },
    ⟨0x21, 7, [], .fused ⟨2, 9, 3, 0, 77, 0, 0⟩, false⟩, ⟨2, 9, 3, 0, 77, 0, 0⟩, by decide +kernel⟩

theorem test_ReleaseDecisions_4 : ∃ (s : State) (d : Decision) (k : Slot) (e : Entry), s.rb aTAG_ISLAST0 22 = true ∧
    s.tag.isackWait = true ∧ s.up .peat = true ∧ s.peat.serving = none ∧ s.envm.islandLog = [] ∧ MayDecide s k ∧
    s.isLocked (.cls 2) = false ∧ s.isLocked (.entry (s.rf aTAG_ISLAST0 21 16)) = false ∧
    testBit (byteAt s.relPart 1) 1 = true ∧ tfind s.envm.entries (s.rf aTAG_ISLAST0 21 16) = some e ∧
    e.tid = s.reg aTAG_ISLAST1 ∧ e.rights.getLsbD 0 = true ∧ e.rights.getLsbD 3 = true ∧ d = ⟨3, 0xFF, 0,
    maskOf ((List.range 8).filter fun k => decide (0 < s.unit) && testBit (s.zoneUnits k) (s.unit - 1)),
    s.reg aTAG_ISLAST1, 0, s.now⟩ :=
  ⟨
    { ((on.setReg aTAG_ISLAST0 0x00440000).setReg aTAG_ISLAST1 77).srf aCWY_STATUS 4 0 1 with tag := { tagOn.tag with isackWait := true }, slots := [(8, ⟨1, 1, false, true, 0x08, 1, zeros 16, []⟩)], cfg := { on.cfg with active := true, sections := [(0x900, [1, 4, 0, 0, 2, 0, 32, 0, 0, 3, 0xE8, 3, 0xE8, 3, 0, 0, 0, 0, 0xFF, 0xFF, 0xFF, 0, 0, 0, 1, 0] ++ zeros 14)] }, envm := { tagOn.envm with entries := [(4, ⟨false, false, 6, 0, 77, 0x19, 55, zeros 16⟩)] } },
    ⟨3, 0xFF, 0, 1, 77, 0, 0⟩, ⟨1, 1, false, true, 0x08, 1, zeros 16, []⟩,
    ⟨false, false, 6, 0, 77, 0x19, 55, zeros 16⟩, by decide +kernel⟩

theorem test_ReleaseDecisions_5 : ∃ (s : State) (v : Serving) (d : Decision) (k : Slot), Waits s v (.fused d) ∧
    3 ≤ s.room 31 ∧ MayDecide s k ∧ d.kind = 2 ∧ Irq.fusedResult ∈ s.irqs ∧
    fld (s.reg aDIST_FUSED0) 31 24 = cOk.toNat ∧ fld (s.reg aDIST_FUSED0) 23 16 = d.ses ∧
    fld (s.reg aDIST_FUSED0) 15 8 = d.gen ∧ fld (s.reg aDIST_FUSED0) 7 0 = 1 ∧ byteAt s.relPart 0xB = 0xFF ∧
    s.dist.fused = [] ∧ s.isHead = true ∧ s.rf aREL_CFG 15 0 ≠ 0 ∧ s.rel.wave = false :=
  ⟨
    { ((on.setReg aDIST_FUSED0 0x00090301).srf aREL_CFG 15 0 20) with irqs := [.fusedResult], power := { on.power with cwyHead := true }, slots := [(8, ⟨1, 1, false, true, 0x08, 1, zeros 16, []⟩)], rel := { on.rel with pending := true }, cfg := { on.cfg with active := true, sections := [(0x500, zeros 27 ++ [4]), (0x900, [1, 4, 0, 0, 2, 0, 32, 0, 0, 3, 0xE8, 3, 0xE8, 3, 0, 0, 0, 0, 0xFF, 0xFF, 0xFF, 0, 0, 0, 1, 0] ++ zeros 14)] }, peat := { on.peat with serving := some ⟨0x21, 7, [], .fused ⟨2, 9, 3, 0, 77, 0, 0⟩, false⟩ } },
    ⟨0x21, 7, [], .fused ⟨2, 9, 3, 0, 77, 0, 0⟩, false⟩, ⟨2, 9, 3, 0, 77, 0, 0⟩,
    ⟨1, 1, false, true, 0x08, 1, zeros 16, []⟩, by decide +kernel⟩

theorem test_ReleaseDecisions_6 : ∃ (s : State) (m : Master), Grants s m aREL_CTL :=
  ⟨{ (on.srf aREL_CFG 15 0 20) with power := { on.power with cwyHead := true } }, .peat, by decide +kernel⟩

theorem test_ReleaseDecisions_7 : ∃ (s : State) (m : Master), Grants s m aREL_CTL :=
  ⟨{ on with rel := { on.rel with wave := true } }, .peat, by decide +kernel⟩

theorem test_ReleaseDecisions_9 : ∃ (s : State), s.rel.wave = true :=
  ⟨{ on with rel := { on.rel with wave := true } }, by decide +kernel⟩

theorem test_AppletCalls_1 : ∃ (s : State) (p : Packet) (b : Bytes), s.headPacket 14 = some p ∧
    packetBroken p = false ∧ s.up .peat = true ∧ s.peat.serving = none ∧ s.peat.applet = none ∧
    s.power.reloading = false ∧ s.mailbox 14 = true ∧ 5 ≤ s.room 30 ∧ fld (jobWord p 0) 23 16 = 0 ∧ s.envm.lcs ≠ 5 ∧
    fld (jobWord p 0) 31 24 ≤ 7 ∧ s.sect 0xA (fld (jobWord p 0) 31 24) = some b ∧
    (s.peat.residents.any fun r => decide (r.inst = fld (jobWord p 0) 31 24)) = true :=
  ⟨
    (({ on with peat := { on.peat with applet := none, residents := [⟨0, 0x10008000, 8, 0⟩] }, cfg := { on.cfg with active := true, sections := [(0xA00, [1, 0, 0, 0, 0, 0, 0, 0, 8, 0, 0, 0, 4, 0, 0, 0, 0, 0, 0, 0, 63, 0, 0, 0, 0, 0, 0, 0, 0, 0, 0, 3] ++ zeros 40)] } }).srb (aQUE_CFG 14) 8 true).setLane 14 { laneNil with committed := [wordsPacket 0 5 [18, 1, 2]] },
    wordsPacket 0 5 [18, 1, 2],
    [1, 0, 0, 0, 0, 0, 0, 0, 8, 0, 0, 0, 4, 0, 0, 0, 0, 0, 0, 0, 63, 0, 0, 0, 0, 0, 0, 0, 0, 0, 0, 3] ++ zeros 40,
    by decide +kernel⟩

theorem test_AppletCalls_2 : ∃ (s : State) (r : AppletRun), Calls s r 0 ∧ PeatWorks s 127 :=
  ⟨
    { on with peat := { on.peat with applet := some ⟨0, some 18, 5, [], cOk, [], zeros 8⟩, residents := [⟨0, 0x10008000, 8, 0⟩] }, cfg := { on.cfg with active := true, sections := [(0xA00, [1, 0, 0, 0, 0, 0, 0, 0, 8, 0, 0, 0, 4, 0, 0, 0, 0, 0, 0, 0, 63, 0, 0, 0, 0, 0, 0, 0, 0, 0, 0, 3] ++ zeros 40)] } },
    ⟨0, some 18, 5, [], cOk, [], zeros 8⟩, by decide +kernel⟩

theorem test_AppletCalls_3 : ∃ (s : State) (r : AppletRun) (count : Nat) (d : Bytes), Calls s r 1 ∧ count ≠ 0 ∧
    s.servedTo .applet = some (cOk, d) :=
  ⟨
    { { onR with peat := { onR.peat with applet := some ⟨0, some 18, 5, [], cOk, [], zeros 8⟩, residents := [⟨0, 0x10008000, 8, 0⟩] }, cfg := { onR.cfg with active := true, sections := [(0xA00, [1, 0, 0, 0, 0, 0, 0, 0, 8, 0, 0, 0, 4, 0, 0, 0, 0, 0, 0, 0, 63, 0, 0, 0, 0, 0, 0, 0, 0, 0, 0, 3] ++ zeros 40)] } } with trng := { onR.trng with served := [(.applet, cOk, zeros 12)] } },
    ⟨0, some 18, 5, [], cOk, [], zeros 8⟩, 3, (zeros 12), by decide +kernel⟩

theorem test_AppletCalls_4 : ∃ (s : State) (r : AppletRun) (count : Nat), Calls s r 1 ∧ count ≠ 0 ∧
    s.rngFailed = false ∧ s.servedTo .applet = none :=
  ⟨
    { onR with peat := { onR.peat with applet := some ⟨0, some 18, 5, [], cOk, [], zeros 8⟩, residents := [⟨0, 0x10008000, 8, 0⟩] }, cfg := { onR.cfg with active := true, sections := [(0xA00, [1, 0, 0, 0, 0, 0, 0, 0, 8, 0, 0, 0, 4, 0, 0, 0, 0, 0, 0, 0, 63, 0, 0, 0, 0, 0, 0, 0, 0, 0, 0, 3] ++ zeros 40)] } },
    ⟨0, some 18, 5, [], cOk, [], zeros 8⟩, 3, by decide +kernel⟩

theorem test_AppletCalls_5 : ∃ (s : State) (r : AppletRun) (need : Nat) (raw : Bytes),
    ((s.rngState = 3 ∨ (s.rngState = 2 ∧ s.trng.testsPassed = true))) ∧
    ((s.testPool raw).all fun x => !x.2.1 && !x.2.2) = true ∧ s.peat.applet = some r ∧
    s.trng.reqs = [.draw .applet need []] ∧ 1 ≤ need ∧ need ≤ 32 ∧ s.trng.served = [] ∧ s.peat.kisDue = false ∧
    s.envm.entryDue = none :=
  ⟨
    { { (on.setRng 3) with peat := { (on.setRng 3).peat with applet := some ⟨0, some 18, 5, [], cOk, [], zeros 8⟩, residents := [⟨0, 0x10008000, 8, 0⟩] }, cfg := { (on.setRng 3).cfg with active := true, sections := [(0xA00, [1, 0, 0, 0, 0, 0, 0, 0, 8, 0, 0, 0, 4, 0, 0, 0, 0, 0, 0, 0, 63, 0, 0, 0, 0, 0, 0, 0, 0, 0, 0, 3] ++ zeros 40)] } } with trng := { ({ (on.setRng 3) with peat := { (on.setRng 3).peat with applet := some ⟨0, some 18, 5, [], cOk, [], zeros 8⟩, residents := [⟨0, 0x10008000, 8, 0⟩] }, cfg := { (on.setRng 3).cfg with active := true, sections := [(0xA00, [1, 0, 0, 0, 0, 0, 0, 0, 8, 0, 0, 0, 4, 0, 0, 0, 0, 0, 0, 0, 63, 0, 0, 0, 0, 0, 0, 0, 0, 0, 0, 3] ++ zeros 40)] } }).trng with reqs := [.draw .applet 12 []] } },
    ⟨0, some 18, 5, [], cOk, [], zeros 8⟩, 12, (List.replicate 128 [0x10, 0x32]).flatten, by decide +kernel⟩

theorem test_AppletCalls_6 : ∃ (s : State) (r : AppletRun) (which : Nat), Calls s r 2 ∧ which ≤ 1 :=
  ⟨
    { on with peat := { on.peat with applet := some ⟨0, some 18, 5, [], cOk, [], zeros 8⟩, residents := [⟨0, 0x10008000, 8, 0⟩] }, cfg := { on.cfg with active := true, sections := [(0xA00, [1, 0, 0, 0, 0, 0, 0, 0, 8, 0, 0, 0, 4, 0, 0, 0, 0, 0, 0, 0, 63, 0, 0, 0, 0, 0, 0, 0, 0, 0, 0, 3] ++ zeros 40)] } },
    ⟨0, some 18, 5, [], cOk, [], zeros 8⟩, 1, by decide +kernel⟩

theorem test_AppletCalls_7 : ∃ (s : State) (r : AppletRun) (which : Nat), Calls s r 2 ∧ which ≤ 1 ∧
    (s.counter (48 + 2 * r.inst + which)).toNat < 2 ^ 32 - 1 :=
  ⟨
    { on with peat := { on.peat with applet := some ⟨0, some 18, 5, [], cOk, [], zeros 8⟩, residents := [⟨0, 0x10008000, 8, 0⟩] }, cfg := { on.cfg with active := true, sections := [(0xA00, [1, 0, 0, 0, 0, 0, 0, 0, 8, 0, 0, 0, 4, 0, 0, 0, 0, 0, 0, 0, 63, 0, 0, 0, 0, 0, 0, 0, 0, 0, 0, 3] ++ zeros 40)] } },
    ⟨0, some 18, 5, [], cOk, [], zeros 8⟩, 1, by decide +kernel⟩

theorem test_AppletCalls_8 : ∃ (s : State) (r : AppletRun) (slot : Nat), Calls s r 3 ∧ s.listed r slot = true ∧
    (s.key slot).isSome = true :=
  ⟨
    { on with slots := [(25, ⟨1, 1, false, true, 0x08, 1, zeros 16, []⟩)], peat := { on.peat with applet := some ⟨0, some 18, 5, [], cOk, [], zeros 8⟩, residents := [⟨0, 0x10008000, 8, 0⟩] }, cfg := { on.cfg with active := true, sections := [(0xA00, [1, 0, 0, 0, 0, 0, 0, 0, 8, 0, 0, 0, 4, 0, 0, 0, 0, 0, 0, 0, 63, 0, 0, 0, 0, 0, 0, 0, 0, 0, 0, 3] ++ [255] ++ zeros 39)] } },
    ⟨0, some 18, 5, [], cOk, [], zeros 8⟩, 25, by decide +kernel⟩

theorem test_AppletCalls_9 : ∃ (s : State) (r : AppletRun), Calls s r 4 ∧
    s.boundTo r.chan (s.rf (aCHN_BIND r.chan) 15 8) = true :=
  ⟨
    { ((on.srb (aCHN_BIND 5) 25 false).srf (aCHN_BIND 5) 23 8 0x309) with peat := { ((on.srb (aCHN_BIND 5) 25 false).srf (aCHN_BIND 5) 23 8 0x309).peat with applet := some ⟨0, some 18, 5, [], cOk, [], zeros 8⟩, residents := [⟨0, 0x10008000, 8, 0⟩] }, cfg := { ((on.srb (aCHN_BIND 5) 25 false).srf (aCHN_BIND 5) 23 8 0x309).cfg with active := true, sections := [(0xA00, [1, 0, 0, 0, 0, 0, 0, 0, 8, 0, 0, 0, 4, 0, 0, 0, 0, 0, 0, 0, 63, 0, 0, 0, 0, 0, 0, 0, 0, 0, 0, 3] ++ zeros 40)] }, sess := [(9, { sesNil with st := .ready, gen := 3 })] },
    ⟨0, some 18, 5, [], cOk, [], zeros 8⟩, by decide +kernel⟩

theorem test_AppletCalls_10 : ∃ (s : State) (r : AppletRun) (n : BitVec 16), Calls s r 5 ∧ r.reqId = some n ∧
    5 ≤ s.room 30 ∧ s.openCount 30 < 8 :=
  ⟨
    { on with peat := { on.peat with applet := some ⟨0, some 18, 5, [], cOk, [], zeros 8⟩, residents := [⟨0, 0x10008000, 8, 0⟩] }, cfg := { on.cfg with active := true, sections := [(0xA00, [1, 0, 0, 0, 0, 0, 0, 0, 8, 0, 0, 0, 4, 0, 0, 0, 0, 0, 0, 0, 63, 0, 0, 0, 0, 0, 0, 0, 0, 0, 0, 3] ++ zeros 40)] } },
    ⟨0, some 18, 5, [], cOk, [], zeros 8⟩, 18, by decide +kernel⟩

theorem test_AppletCalls_11 : ∃ (s : State) (r : AppletRun) (n : BitVec 16), s.peat.applet = some r ∧
    r.reqId = some n ∧ 1 ≤ s.room 30 ∧ s.openCount 30 < 8 :=
  ⟨
    { on with peat := { on.peat with applet := some ⟨0, some 18, 5, [], cOk, [], zeros 8⟩, residents := [⟨0, 0x10008000, 8, 0⟩] }, cfg := { on.cfg with active := true, sections := [(0xA00, [1, 0, 0, 0, 0, 0, 0, 0, 8, 0, 0, 0, 4, 0, 0, 0, 0, 0, 0, 0, 63, 0, 0, 0, 0, 0, 0, 0, 0, 0, 0, 3] ++ zeros 40)] } },
    ⟨0, some 18, 5, [], cOk, [], zeros 8⟩, 18, by decide +kernel⟩

theorem test_AppletCalls_12 : ∃ (s : State) (r : AppletRun) (n : BitVec 16), s.peat.applet = some r ∧
    r.reqId = some n ∧ 1 ≤ s.room 30 ∧ s.openCount 30 < 8 :=
  ⟨
    { on with peat := { on.peat with applet := some ⟨0, some 18, 5, [], cOk, [], zeros 8⟩, residents := [⟨0, 0x10008000, 8, 0⟩] }, cfg := { on.cfg with active := true, sections := [(0xA00, [1, 0, 0, 0, 0, 0, 0, 0, 8, 0, 0, 0, 4, 0, 0, 0, 0, 0, 0, 0, 63, 0, 0, 0, 0, 0, 0, 0, 0, 0, 0, 3] ++ zeros 40)] } },
    ⟨0, some 18, 5, [], cOk, [], zeros 8⟩, 18, by decide +kernel⟩

theorem test_SignedMaterial_1 : ∃ (s : State) (p : Packet) (b : Bytes) (k : Slot) (r : Slot) (d : Bytes),
    MailTakes s 0x32 p ∧ 1 ≤ (mailArg p 0).toNat ∧ (mailArg p 0).toNat ≤ 63 ∧
    Holds s (mailArg p 1) (mailArg p 2) b ∧ (mailArg p 2).toNat ≤ 64 ∧ s.key (mailArg p 0).toNat = some k ∧
    s.key 0 = some r ∧ s.rngFailed = false ∧ s.servedTo .peat = some (cOk, d) ∧ PeatWorks s 127 :=
  ⟨
    (drawn (mail ({ ({ onR with envm := { onR.envm with lcs := 2 } }.memWrite 0x20000000 [7, 7, 7, 7]) with slots := [(0, ⟨1, 1, false, true, 0x08, 5, zeros 32, []⟩), (40, ⟨2, 0, false, false, 0x08, 1, zeros 16, []⟩)] }) [0x32000012, 40, 0x20000000, 4]) (zeros 40)),
    (req [0x32000012, 40, 0x20000000, 4]), [7, 7, 7, 7], ⟨2, 0, false, false, 0x08, 1, zeros 16, []⟩,
    ⟨1, 1, false, true, 0x08, 5, zeros 32, []⟩, (zeros 40), by decide +kernel⟩

theorem test_SignedMaterial_2 : ∃ (s : State) (p : Packet) (b : Bytes) (k : Slot) (r : Slot), MailTakes s 0x32 p ∧
    1 ≤ (mailArg p 0).toNat ∧ (mailArg p 0).toNat ≤ 63 ∧ Holds s (mailArg p 1) (mailArg p 2) b ∧
    (mailArg p 2).toNat ≤ 64 ∧ s.key (mailArg p 0).toNat = some k ∧ s.key 0 = some r ∧ s.rngFailed = false ∧
    s.servedTo .peat = none ∧ PeatWorks s 127 :=
  ⟨
    (mail ({ ({ onR with envm := { onR.envm with lcs := 2 } }.memWrite 0x20000000 [7, 7, 7, 7]) with slots := [(0, ⟨1, 1, false, true, 0x08, 5, zeros 32, []⟩), (40, ⟨2, 0, false, false, 0x08, 1, zeros 16, []⟩)] }) [0x32000012, 40, 0x20000000, 4]),
    (req [0x32000012, 40, 0x20000000, 4]), [7, 7, 7, 7], ⟨2, 0, false, false, 0x08, 1, zeros 16, []⟩,
    ⟨1, 1, false, true, 0x08, 5, zeros 32, []⟩, by decide +kernel⟩

theorem test_SignedMaterial_3 : ∃ (s : State) (p : Packet) (b : Bytes) (k : Slot) (r : Slot), MailTakes s 0x32 p ∧
    (mailArg p 0).toNat = 0 ∧ Holds s (mailArg p 1) (mailArg p 2) b ∧ (mailArg p 2).toNat ≤ 64 ∧ s.key 0 = some k ∧
    s.key 1 = some r ∧ s.envm.xmssKeyed = true ∧ s.envm.xmssNext < 0x100000 ∧ PeatWorks s 127 :=
  ⟨
    (mail ({ ({ onR with envm := { onR.envm with lcs := 2, xmssKeyed := true } }.memWrite 0x20000000 [7, 7, 7, 7]).setReg (aQUE_CFG 15) 0x003F0101 with slots := [(0, ⟨1, 1, false, true, 0x08, 5, zeros 32, []⟩), (1, ⟨1, 1, false, true, 0x08, 8, zeros 64, []⟩)] }) [0x32000012, 0, 0x20000000, 4]),
    (req [0x32000012, 0, 0x20000000, 4]), [7, 7, 7, 7], ⟨1, 1, false, true, 0x08, 5, zeros 32, []⟩,
    ⟨1, 1, false, true, 0x08, 8, zeros 64, []⟩, by decide +kernel⟩

theorem test_SignedMaterial_4 : ∃ (s : State) (p : Packet) (b : Bytes), MailTakes s 0x31 p ∧
    Holds s (mailArg p 1) (mailArg p 2) b ∧ mailArg p 2 = 2988 ∧ PeatWorks s 127 :=
  ⟨(mail { on with envm := { on.envm with lcs := 2 } } [0x31000012, 40, 0x20000000, 2988]),
    (req [0x31000012, 40, 0x20000000, 2988]), (zeros 2988),
    by decide +kernel, ⟨by decide +kernel, by decide +kernel, by decide +kernel, memRead_zeros rfl _ _, by decide +kernel⟩, by decide +kernel⟩

theorem test_SignedMaterial_5 : ∃ (s : State) (p : Packet) (b : Bytes), MailTakes s 0x10 p ∧
    Holds s (mailArg p 1) (mailArg p 2) b ∧ ((mailArg p 2 = 5099 ∨ mailArg p 2 = 5131)) ∧
    (s.ses (mailArg p 0).toNat).st = .ready ∧ (s.ses (mailArg p 0).toNat).suite = 1 ∧
    s.isLocked (.cls (lockClass (s.feClass (s.ses (mailArg p 0).toNat).opener))) = false ∧
    (s.ses (mailArg p 0).toNat).cred = none ∧ PeatWorks s 125 :=
  ⟨
    (mail { on with envm := { on.envm with lcs := 2 }, sess := [(9, { sesNil with st := .ready, suite := 1, gen := 3 })] } [0x10000012, 9, 0x20000000, 5099]),
    (req [0x10000012, 9, 0x20000000, 5099]), (zeros 5099),
    by decide +kernel, ⟨by decide +kernel, by decide +kernel, by decide +kernel, memRead_zeros rfl _ _, by decide +kernel⟩, by decide +kernel⟩

theorem test_SignedMaterial_6 : ∃ (s : State) (p : Packet) (b : Bytes), MailTakes s 0x11 p ∧
    Holds s (mailArg p 0) (mailArg p 1) b ∧ PeatWorks s 127 :=
  ⟨(mail { on with envm := { on.envm with lcs := 2 } } [0x11000012, 0x20000000, 4983]),
    (req [0x11000012, 0x20000000, 4983]), (zeros 4983),
    by decide +kernel, ⟨by decide +kernel, by decide +kernel, by decide +kernel, memRead_zeros rfl _ _, by decide +kernel⟩, by decide +kernel⟩

theorem test_SignedMaterial_7 : ∃ (s : State) (p : Packet) (b : Bytes), MailTakes s 0x12 p ∧
    fld (mailArg p 1) 31 8 = 0x010000 ∧ (mailArg p 0).toNat < 128 ∧ 6 ≤ ((packetWords p).drop 1).length ∧
    mailArg p 3 = 5019 ∧ Holds s (mailArg p 2) (mailArg p 3) b ∧
    s.isLocked (.cls (lockClass (s.feClass (mailArg p 0).toNat))) = false ∧ PeatWorks s 127 :=
  ⟨(mail { on with envm := { on.envm with lcs := 2 } } [0x12000012, 5, 0x01000000, 0x20000000, 5019, 1, 2]),
    (req [0x12000012, 5, 0x01000000, 0x20000000, 5019, 1, 2]), (zeros 5019),
    by decide +kernel, by decide +kernel, by decide +kernel, by decide +kernel, by decide +kernel, ⟨by decide +kernel, by decide +kernel, by decide +kernel, memRead_zeros rfl _ _, by decide +kernel⟩, by decide +kernel⟩

theorem test_SignedStates_1 : ∃ (s : State) (p : Packet), MailTakes s 0x40 p ∧ 6 ∉ s.cfg.held :=
  ⟨(mail on [0x40000012]), (req [0x40000012]), by decide +kernel⟩

theorem test_SignedStates_2 : ∃ (s : State) (p : Packet), MailTakes s 0x41 p ∧
    (((mailArg p 0).toNat = 1 ∨ (mailArg p 0).toNat = 2)) :=
  ⟨(mail on [0x41000012, 2]), (req [0x41000012, 2]), by decide +kernel⟩

theorem test_SignedStates_3 : ∃ (s : State) (p : Packet) (b : Bytes), MailTakes s 0x50 p ∧
    Holds s (mailArg p 0) (mailArg p 1) b ∧ ((mailArg p 1 = 2872 ∨ mailArg p 1 = 2968)) ∧ PeatWorks s 127 :=
  ⟨(mail onR [0x50000012, 0x20000000, 2872]), (req [0x50000012, 0x20000000, 2872]), (zeros 2872),
    by decide +kernel, ⟨by decide +kernel, by decide +kernel, by decide +kernel, memRead_zeros rfl _ _, by decide +kernel⟩, by decide +kernel⟩

theorem test_SignedStates_4 : ∃ (s : State), s.jtagFree = true ∧ PeatWorks s 127 :=
  ⟨onR, by decide +kernel⟩

end Tests
end Sys2Proof
end

/-!
PROOFS. Peat's port of the random source (R309, R316, R319): what PORTREQ_GO, a conditioned block that reaches the port and a
read of TRNG_OUT do.
-/
namespace Sys2Proof
namespace Proofs

open Sys2Proof.Machine Sys2Proof.Safety Sys2Proof.Laws

/-! ### The length of a conditioned block (R309, FIPS 202) -/

@[simp] theorem length_toLE (n v : Nat) : (toLE n v).length = n := by
  induction n generalizing v with
  | zero => rfl
  | succ n ih => simp [toLE, ih]

theorem length_keccakRound (a : Lanes) (rc : BitVec 64) : (keccakRound a rc).length = 25 := by
  simp [keccakRound]

theorem length_keccakRounds (l : List (BitVec 64)) {a : Lanes} (h : a.length = 25) :
    (l.foldl keccakRound a).length = 25 := by
  induction l generalizing a with
  | nil => exact h
  | cons rc l ih => exact ih (length_keccakRound a rc)

theorem length_keccakF {a : Lanes} (h : a.length = 25) : (keccakF a).length = 25 :=
  length_keccakRounds keccakRC h

theorem length_lanesOf (n : Nat) (b : Bytes) : (lanesOf n b).length = n := by
  induction n generalizing b with
  | zero => rfl
  | succ n ih => simp [lanesOf, ih]

theorem length_absorb (r n : Nat) (b : Bytes) {a : Lanes} (h : a.length = 25) : (absorb r n b a).length = 25 := by
  induction n generalizing b a with
  | zero => exact h
  | succ n ih => exact ih _ (length_keccakF (by simp [h, length_lanesOf]))

/-- A state has 200 bytes, so each squeezed block has the whole rate. -/
theorem length_squeeze {r : Nat} (hr : r ≤ 200) (n : Nat) {a : Lanes} (h : a.length = 25) :
    (squeeze r n a).length = n * r := by
  induction n generalizing a with
  | zero => simp [squeeze]
  | succ n ih =>
    have hblock : ((a.flatMap fun l => toLE 8 l.toNat).take r).length = r := by
      simp [List.length_flatMap, h, hr]
    rw [squeeze, List.length_append, hblock]
    split
    case isTrue h0 => simp [h0]
    case isFalse => rw [ih (length_keccakF h)]; ring

theorem length_sponge {r : Nat} (h0 : 0 < r) (hr : r ≤ 200) (dom : Byte) (m : Bytes) (n : Nat) :
    (sponge r dom m n).length = n := by
  have hblocks : n ≤ (n + r - 1) / r * r := by
    have := Nat.div_add_mod (n + r - 1) r
    have := Nat.mod_lt (n + r - 1) h0
    rw [Nat.mul_comm]; omega
  unfold sponge
  rw [List.length_take, length_squeeze hr _ (length_absorb _ _ _ (by simp))]
  exact Nat.min_eq_left hblocks

@[simp] theorem length_shakeH (m : Bytes) (n : Nat) : (shakeH m n).length = n :=
  length_sponge (by omega) (by omega) _ m n

/-! ### Fields and registers -/

/-- The low five bits of a word are its remainder. -/
theorem fld_low5 (w : Word) : fld w 4 0 = w.toNat % 2 ^ 5 := by simp [fld]

/-- AVAIL of TRNG_PORT is the number put beside the bits that are kept. -/
theorem fld_keep_avail (w : Word) {n : Nat} (h : n < 32) : fld (keep w 0xFF001000 n) 4 0 = n := by
  have hn : (w32 n).toNat % 2 ^ 5 = n := by simp only [w32, BitVec.toNat_ofNat]; omega
  rw [fld_low5, keep, BitVec.toNat_or, BitVec.toNat_and, Nat.or_mod_two_pow, Nat.and_mod_two_pow, hn]
  simp

/-- COUNT is the same with GO beside it. -/
theorem fld_count_go (v : Word) : fld (v ||| 0x80000000) 4 0 = fld v 4 0 := by
  rw [fld_low5, fld_low5, BitVec.toNat_or, Nat.or_mod_two_pow]
  simp

theorem bit_go (v : Word) : bit (v ||| 0x80000000) 31 = true := by simp [bit]

theorem rf_ended (s : State) {b : Nat} (c : Byte) (hb : b < 64) {a : Nat} (ha : ¬ prfAddr a) (hi lo : Nat) :
    (s.ended b c).rf a hi lo = s.rf a hi lo := by
  unfold State.rf; rw [reg_ended s b c hb ha]

@[simp] theorem rngState_access (s : State) (m r : Master) (u : Bool) (a k : Nat) :
    (s.access m r u a k).rngState = s.rngState := by
  unfold State.rngState State.rf; rw [reg_access]

/-- STATUS of TRNG_PORT is a byte. -/
theorem rf_srf_portStatus (s : State) (c : Byte) : (s.srf aTRNG_PORT 31 24 c.toNat).rf aTRNG_PORT 31 24 = c.toNat := by
  rw [rf_srf_same s _ _ (by omega) (by omega)]
  exact Nat.mod_eq_of_lt c.isLt

theorem not_prfAddr_trngPort : ¬ prfAddr aTRNG_PORT := by unfold prfAddr aTRNG_PORT; omega

theorem readView_trngPort (s : State) :
    readView s aTRNG_PORT = keep (s.reg aTRNG_PORT) 0xFF001000 (min 16 s.trng.out.length) := rfl

theorem avail_trngPort (s : State) : fld (readView s aTRNG_PORT) 4 0 = min 16 s.trng.out.length := by
  rw [readView_trngPort, fld_keep_avail _ (by omega)]

/-! ### A GO of PORTREQ (R319) -/

/-- The state in which a GO with COUNT n places its request: COUNT is written, and the unread words are discarded. -/
def portCleared (s : State) (n : Nat) : State :=
  { s.srf aTRNG_PORTREQ 4 0 n with trng := { s.trng with out := [] } }

theorem regsBut_portCleared (s : State) (n : Nat) : RegsBut [aTRNG_PORT, aTRNG_PORTREQ] s (portCleared s n) :=
  RegsBut.trans (regsBut_srf s (by simp) 4 0 n) (regsBut_of_regs rfl _)

/-- What a GO does while no request of the port waits and the source is not declared failed. -/
theorem portReq_go {s : State} {v : Word} (hgo : bit v 31 = true) (hport : s.trng.reqs.any isPort = false)
    (hs : s.rngState ≠ 4) :
    portReq v s =
      if min 16 (fld v 4 0) = 0 then
        ((portCleared s (fld v 4 0)).srf aTRNG_PORT 31 24 cLenZero.toNat).ended 0x0C cLenZero
      else
        ((portCleared s (fld v 4 0)).setCallers (s.trng.reqs ++ [.port (min 16 (fld v 4 0))])).srf aTRNG_PORT 31 24
          cPending.toNat := by
  have hstate : (portCleared s (fld v 4 0)).rngState ≠ rngDeclared := by
    rwa [show (portCleared s (fld v 4 0)).rngState = s.rngState from
      rf_srf_other s (show aTRNG_STATUS ≠ aTRNG_PORTREQ by decide) 4 0 _ 2 0]
  calc portReq v s
    _ = if s.trng.reqs.any isPort then _ else if bit v 31 = false then _ else
          if (portCleared s (fld v 4 0)).rngState = rngDeclared then _ else _ := rfl
    _ = _ := by rw [if_neg (by simp [hport]), if_neg (by simp [hgo]), if_neg hstate]; rfl

theorem exec_portreqGo {s : State} {m : Master} (v : Word) (h : Grants s m aTRNG_PORTREQ) :
    exec (.portreqGo m v) s =
      .next (portReq (v ||| 0x80000000) (s.access m (rightsOf m) false aTRNG_PORTREQ 2)) :=
  congrArg done (owned_granted h _)

/-! ### A read of TRNG_OUT (R319) -/

theorem reads_granted {s : State} {m : Master} {a : Nat} (hup : s.up m = true)
    (hj : judge s (rightsOf m) false a false = .granted) (f : State → State) :
    s.reads m a f = f (s.access m (rightsOf m) false a 1) := by
  unfold State.reads
  rw [if_pos hup, hj]

theorem trngOut_nil {s : State} (m : Master) (h : s.trng.out = []) :
    trngOut m s = (s.srb aTRNG_PORT 12 true).answer m 0 := by
  unfold trngOut; rw [h]

theorem trngOut_cons {s : State} {w : Word} {rest : List Word} (m : Master) (h : s.trng.out = w :: rest) :
    trngOut m s = ({ s with trng := { s.trng with out := rest } }).answer m w := by
  unfold trngOut; rw [h]

theorem exec_trngOutRead {s : State} {m : Master} (hup : s.up m = true)
    (hj : judge s (rightsOf m) false aTRNG_OUT false = .granted) :
    exec (.trngOutRead m) s = .next (trngOut m (s.access m (rightsOf m) false aTRNG_OUT 1)) :=
  congrArg done (reads_granted hup hj _)

@[simp] theorem rb_answer (s : State) (m : Master) (v : Word) (a i : Nat) : (s.answer m v).rb a i = s.rb a i := rfl

theorem regsBut_answer (s : State) (l : List Nat) (m : Master) (v : Word) : RegsBut l s (s.answer m v) :=
  regsBut_of_regs rfl l

@[simp] theorem tfind_answer (s : State) (m : Master) (v : Word) :
    tfind (s.answer m v).readOut (portNo m) = some v := tfind_tput_same _ _ _

/-! ### A conditioned block that reaches the port (R309, R316) -/

/-- No test fails on the pool where every source passes both. -/
theorem testPool_passed {l : List (SourceTest × Bool × Bool)} (h : (l.all fun x => !x.2.1 && !x.2.2) = true) :
    ((l.any fun x => x.2.1) || l.any fun x => x.2.2) = false := by
  rw [List.all_eq_true] at h
  rw [Bool.or_eq_false_iff, List.any_eq_false, List.any_eq_false]
  exact ⟨fun x hx => by have := h x hx; simp_all, fun x hx => by have := h x hx; simp_all⟩

/-- The state in which a pool that passed is delivered: the tests go on, RUN is 0, and the source is RUNNING. -/
def poolPassed (s : State) (raw : Bytes) : State :=
  ({ s with trng := { s.trng with tests := (s.testPool raw).map Prod.fst } }.srf aTRNG_STATUS 5 4 0).setRng rngRunning

theorem regsBut_poolPassed (s : State) (raw : Bytes) {l : List Nat} (h : aTRNG_STATUS ∈ l) :
    RegsBut l s (poolPassed s raw) :=
  RegsBut.trans (RegsBut.trans (regsBut_of_regs rfl l) (regsBut_srf _ h 5 4 0)) (regsBut_srf _ h 2 0 rngRunning)

theorem poolComplete_passed {s : State} {raw : Bytes}
    (hs : s.rngState = 3 ∨ (s.rngState = 2 ∧ s.trng.testsPassed = true))
    (h : ((s.testPool raw).all fun x => !x.2.1 && !x.2.2) = true) :
    poolComplete raw s = (poolPassed s raw).deliverBlock (shakeH (slice raw 0 256) 32) := by
  unfold poolComplete
  exact (if_pos hs).trans (if_neg (ne_true_of_eq_false (testPool_passed h)))

/-- Where no generator waits for a reseed, the block goes to the requests in arrival order. -/
theorem deliverBlock_noMask {s : State} (h : firstMask s.trng.reqs = none) (b : Bytes) :
    s.deliverBlock b = s.serve s.trng.reqs b := by
  unfold State.deliverBlock; rw [h]

/-- A request of the port for more words than a block has takes the whole block, and waits for the rest. -/
theorem serve_port_part (s : State) {k : Nat} (rest : List Caller) {b : Bytes} (h : b.length < 4 * k) :
    s.serve (.port k :: rest) b =
      ({ s with trng := { s.trng with out := s.trng.out ++ toWords b } }).setCallers
        (.port (k - b.length / 4) :: rest) := by
  rw [State.serve, List.take_of_length_le (by omega), if_neg (by omega)]

theorem generateDue_none {s : State} (hkis : s.peat.kisDue = false) (hentry : s.envm.entryDue = none) :
    s.generateDue = s := by
  have hk : s.kisIfDue = s := by unfold State.kisIfDue; simp [hkis]
  unfold State.generateDue
  rw [hentry]
  split
  · exact hk
  · rfl

/-- Nothing goes on where no request has ended and no key is due. -/
theorem goesOn_none {s : State} (hserved : s.trng.served = []) (hkis : s.peat.kisDue = false)
    (hentry : s.envm.entryDue = none) : s.goesOn = s := by
  have hd : s.drawsServed = s := by unfold State.drawsServed; rw [hserved]; rfl
  unfold State.goesOn
  rw [hd, generateDue_none hkis hentry]

/-! ### The clauses of the statement -/

theorem portreqGo_zero {s : State} {m : Master} {v : Word} (h : Grants s m aTRNG_PORTREQ)
    (hport : s.trng.reqs.any isPort = false) (hs : s.rngState ≠ 4) (hk : fld v 4 0 = 0) :
    ∃ t, exec (.portreqGo m v) s = .next t ∧ t.trng.out = [] ∧ t.trng.reqs = s.trng.reqs ∧
      t.rf aTRNG_PORT 31 24 = cLenZero.toNat ∧ RegsBut [aTRNG_PORT, aTRNG_PORTREQ] s t := by
  refine ⟨_, exec_portreqGo v h, ?_⟩
  rw [portReq_go (bit_go v) (by rwa [access_trng]) (by rwa [rngState_access]), fld_count_go, hk, if_pos (by rfl)]
  refine ⟨by simp [portCleared], by simp [portCleared], ?_, ?_⟩
  · rw [rf_ended _ _ (by omega) not_prfAddr_trngPort, rf_srf_portStatus]
  · exact RegsBut.trans (RegsBut.trans (RegsBut.trans (regsBut_access s _ _ _ _ _ _) (regsBut_portCleared _ _))
      (regsBut_srf _ (by simp) 31 24 _)) (regsBut_ended _ _ (by omega) _)

theorem portreqGo_count {s : State} {m : Master} {v : Word} (h : Grants s m aTRNG_PORTREQ)
    (hport : s.trng.reqs.any isPort = false) (hs : s.rngState ≠ 4) (h1 : 1 ≤ fld v 4 0) (h16 : fld v 4 0 ≤ 16) :
    ∃ t, exec (.portreqGo m v) s = .next t ∧ t.trng.out = [] ∧ t.trng.reqs = s.trng.reqs ++ [.port (fld v 4 0)] ∧
      t.rf aTRNG_PORT 31 24 = cPending.toNat ∧ RegsBut [aTRNG_PORT, aTRNG_PORTREQ] s t := by
  refine ⟨_, exec_portreqGo v h, ?_⟩
  rw [portReq_go (bit_go v) (by rwa [access_trng]) (by rwa [rngState_access]), fld_count_go,
    Nat.min_eq_right h16, if_neg (by omega), access_trng]
  refine ⟨by simp [portCleared, State.setCallers], by simp [State.setCallers], rf_srf_portStatus _ _, ?_⟩
  exact RegsBut.trans (RegsBut.trans (regsBut_access s _ _ _ _ _ _) (regsBut_portCleared _ _))
    (RegsBut.trans (regsBut_of_regs rfl _) (regsBut_srf _ (by simp) 31 24 _))

theorem poolComplete_port {s : State} {raw : Bytes} {k : Nat} {rest : List Caller}
    (hs : s.rngState = 3 ∨ (s.rngState = 2 ∧ s.trng.testsPassed = true))
    (htests : ((s.testPool raw).all fun x => !x.2.1 && !x.2.2) = true) (hmask : firstMask s.trng.reqs = none)
    (hreqs : s.trng.reqs = .port k :: rest) (hk : 8 < k) (hserved : s.trng.served = [])
    (hkis : s.peat.kisDue = false) (hentry : s.envm.entryDue = none) :
    ∃ t, exec (.poolComplete raw) s = .next t ∧ t.trng.out = s.trng.out ++ toWords (shakeH (slice raw 0 256) 32) ∧
      t.trng.reqs = .port (k - 8) :: rest ∧ fld (readView t aTRNG_PORT) 4 0 = min 16 t.trng.out.length ∧
      RegsBut [aTRNG_STATUS, aTRNG_PORT] s t := by
  have hpool : poolComplete raw s =
      ({ poolPassed s raw with
          trng := { (poolPassed s raw).trng with
            out := s.trng.out ++ toWords (shakeH (slice raw 0 256) 32) } }).setCallers (.port (k - 8) :: rest) := by
    rw [poolComplete_passed hs htests, deliverBlock_noMask (s := poolPassed s raw) hmask,
      show (poolPassed s raw).trng.reqs = .port k :: rest from hreqs,
      serve_port_part _ rest (by rw [length_shakeH]; omega), length_shakeH]
    rfl
  have hexec : exec (.poolComplete raw) s = .next (poolComplete raw s) :=
    congrArg done (goesOn_none (by rw [hpool]; exact hserved) (by rw [hpool]; exact hkis) (by rw [hpool]; exact hentry))
  refine ⟨_, hexec, ?_⟩
  rw [hpool]
  exact ⟨rfl, rfl, avail_trngPort _, RegsBut.trans (regsBut_poolPassed s raw (by simp)) (regsBut_of_regs rfl _)⟩

theorem trngOutRead_word {s : State} {m : Master} {w : Word} {rest : List Word} (hup : s.up m = true)
    (hj : judge s (rightsOf m) false aTRNG_OUT false = .granted) (hout : s.trng.out = w :: rest) :
    ∃ t, exec (.trngOutRead m) s = .next t ∧ tfind t.readOut (portNo m) = some w ∧ t.trng.out = rest ∧
      RegsBut [] s t := by
  refine ⟨_, exec_trngOutRead hup hj, ?_⟩
  rw [trngOut_cons m (by rwa [access_trng])]
  exact ⟨tfind_answer _ m w, rfl, RegsBut.trans (regsBut_access s _ _ _ _ _ _) (regsBut_of_regs rfl _)⟩

theorem trngOutRead_empty {s : State} {m : Master} (hup : s.up m = true)
    (hj : judge s (rightsOf m) false aTRNG_OUT false = .granted) (hout : s.trng.out = []) :
    ∃ t, exec (.trngOutRead m) s = .next t ∧ tfind t.readOut (portNo m) = some 0 ∧ t.rb aTRNG_PORT 12 = true ∧
      RegsBut [aTRNG_PORT] s t := by
  refine ⟨_, exec_trngOutRead hup hj, ?_⟩
  rw [trngOut_nil m (by rwa [access_trng])]
  exact ⟨tfind_answer _ m 0, by rw [rb_answer, rb_srb_same _ _ (by omega)],
    RegsBut.trans (RegsBut.trans (regsBut_access s _ _ _ _ _ _) (regsBut_srb _ (by simp) 12 true))
      (regsBut_answer _ _ m 0)⟩

/-- Settles O31 (R319): a GO by its COUNT, a block that the port's request takes whole, and a read of TRNG_OUT by whether a
word is there. -/
theorem randomPort : Obligations.RandomPort :=
  ⟨fun _ _ _ => portreqGo_zero, fun _ _ _ => portreqGo_count, fun _ _ _ _ => poolComplete_port,
    fun _ _ _ _ => trngOutRead_word, fun _ _ => trngOutRead_empty⟩

end Proofs
end Sys2Proof

/-!
PROOFS. The converter and the end of the resumed state (R427): a state that refutes O46.
-/
namespace Sys2Proof
namespace Proofs

open Sys2Proof.Machine Sys2Proof.Safety

/-- The lane number whose drop counter would stand at the address of MON_STATUS. The device has lanes 0 to 31, but the
queue that a run's output goes to is any number in the model. -/
def strayLane : Nat := 16 + (aMON_STATUS - aQUE_DROP 0) / 4

/-- A resumed unit, alone in its chain, in which sequence 3 runs and sequence 0 is pending, with the reserved bit 2 of
MON_STATUS set. An AES job runs whose output is bound for the stray lane. -/
def strayRun : State :=
  { State.reset with
    power := { Power.reset with mode := .resumed, sedgeRuns := true }
    regs := [(aMON_STATUS, 0x1F)]
    mon := ⟨some ⟨3, 0, 0, 0, 0, [], false⟩, 0⟩
    eng := { Engines.reset with aes := some { runNil with dest := .queue strayLane } } }

/-- What SLEEP leaves of it. -/
def strayAsleep : State := strayRun.owned .sedge aPWR_CMD (pwrCmd 4)

theorem exec_sleep_strayRun : exec (.sleep .sedge) strayRun = .next strayAsleep := rfl

theorem grants_sleep_strayRun : Grants strayRun .sedge aPWR_CMD := by decide +kernel

theorem stage_strayRun :
    (if strayRun.rb aPWR_STATUS 7 then strayRun.rf aPWR_STATUS 2 0
      else max strayRun.stageFor strayRun.power.stageDue) = 0 := by decide +kernel

theorem seqPending_strayRun : strayRun.seqPending 0 = true := by decide +kernel

theorem seqStatus_strayAsleep : strayAsleep.rf (aMON_SEQSTAT 0) 31 24 = 0 := by decide +kernel

/-- Refutes O46 in its clause on SLEEP, which speaks of every state of the model, also those that no run reaches. Leaving the
resumed state aborts the jobs before it ends the sequences. In `strayRun` the rewound output of the aborted job is counted in
MON_STATUS, and the count carries into PENDING: sequence 1 is then pending for sequence 0, whose STATUS stays 0 in stage 0. -/
theorem not_abortStopsTheConverter : ¬ Obligations.AbortStopsTheConverter := by
  rintro ⟨-, -, hsleep, -⟩
  obtain ⟨t, hexec, -, -, haborted⟩ := hsleep strayRun .sedge grants_sleep_strayRun (by decide +kernel)
    (by decide +kernel) (by rw [stage_strayRun]; decide)
  obtain rfl : strayAsleep = t := Host.Outcome.next.inj (exec_sleep_strayRun.symm.trans hexec)
  have hstatus := haborted 0 (by decide) (by rw [stage_strayRun]; decide) (Or.inl seqPending_strayRun)
  rw [seqStatus_strayAsleep] at hstatus
  exact absurd hstatus (by decide)

end Proofs
end Sys2Proof

/-!
PROOFS. Every step keeps the canonical form of the byte memories and the commands that wait (log entries 5 and 6).
-/
namespace Sys2Proof
namespace Proofs

open Sys2Proof.Machine Sys2Proof.Safety Sys2Proof.Laws

theorem still_ite {s : State} (c : Prop) [Decidable c] (a b : State) (ha : still a = still s) (hb : still b = still s) :
    still (if c then a else b) = still s := by
  split
  · exact ha
  · exact hb

/-- The commands in whose course a byte memory can be written; every other one leaves both as they are. -/
def mayStore : Instr → Bool
  | .start .. | .rootAttempt .. | .lineActivityWake .. | .stageEntry .. | .heronPoll .. | .activity .. | .enterDs ..
  | .sleep .. | .debugToken .. | .ecallHash .. | .ecallRandomWords .. | .ecallOwnCounters .. | .ecallKeyStore ..
  | .ecallReply .. | .channelStop .. | .channelAbort .. | .sessionFree .. | .lfWake .. | .lfAuth .. | .lfLocate ..
  | .lfTune .. | .lfMeasure .. | .lfExchangeStart .. | .lfAnswer .. | .statusUpdate .. | .vbatRise ..
  | .fusedRequest .. | .mapqGo .. | .generate .. | .unwrap .. | .derive .. | .kstCopy .. | .loadEntry ..
  | .storeEntry .. | .erase .. | .cntInc .. | .cntSet .. | .rootEnrol .. | .epochAdv .. | .poolComplete ..
  | .healthFailure .. | .aesJobCompletion .. | .bnJobCompletion .. | .hshJobCompletion .. | .flush .. | .pflush ..
  | .descriptorDone .. | .hostRead .. | .hostWrite .. | .hostStatus .. | .recdataWrite .. | .alarm ..
  | .memoryDoubleBitError .. | .registerWrite .. | .lfExchangeEnd .. | .chargeEvent | .vdrvLow | .brownOut | .resetN
  | .supplyTimeout | .xoTimeout | .wakeIn | .hostCsWake | .rcTimerWake | .idleMsExpiry | .sedgeReloadDone
  | .peatWatchdogExpiry | .peatException | .sessionOpen | .keyAgree | .credCheck | .record | .byToken | .phone
  | .unlockReq | .startReq | .startDeadline | .keyGen | .keyImport | .attest | .cfgReplace | .replacementCommit
  | .drainTimeout | .peatSwap | .lcsTransition | .appletCall | .ecallSessionSlot | .appletBudgetExpiry
  | .appletAccessFault | .lfWindowClose | .unlock | .islandDecision | .slotEnd | .arrivalTimes | .fusionTimeout
  | .modAdd | .modSub | .modMul | .montSetup | .modExp | .modInv | .modRed | .copy | .copyRev | .clear | .p256Mul
  | .p256Mulg | .p256Check | .p256Sign | .p256Verify | .p384Mul | .p384Mulg | .p384Check | .p384Sign | .p384Verify
  | .x25519 | .x25519Base | .ed25519Verify | .ntt | .intt | .basemul | .padd | .psub | .kemKeygen | .kemEncaps
  | .kemDecaps | .bnYieldPoint | .sha3256 | .sha3512 | .shake128 | .shake256 | .kmac256 | .xmssVerify | .xmssSign
  | .xmssKeygen | .writeBufferApply | .idleNotice | .sleepNotice => true
  | _ => false

/-- A command that stores nothing leaves the byte memories and the waiting commands as they are. -/
theorem exec_still {c : Instr} (h : mayStore c = false) (s : State) :
    ∃ t, exec c s = .next t ∧ still t = still s := by
  cases c with
  | kick => exact ⟨_, rfl, still_owned (hf := fun _ => still_kickWdt ..) ..⟩
  | debugChallenge => exact ⟨_, rfl, still_ite _ _ _ (still_jtagChallenge ..) (still_mailOp (hf := fun _ _ => still_debugChallenge ..) ..)⟩
  | channelStart => exact ⟨_, rfl, still_ite _ _ _ (still_owned (hf := fun _ => still_channelStart ..) ..) rfl⟩
  | channelIdle => exact ⟨_, rfl, still_ite _ _ _ (still_channelIdle ..) rfl⟩
  | idleTimeout => exact ⟨_, rfl, still_idleTimeout ..⟩
  | offerTimeout => exact ⟨_, rfl, still_offerTimeout ..⟩
  | lfCarrierWrite => exact ⟨_, rfl, still_owned (hf := fun _ => still_lfCarrier ..) ..⟩
  | fieldOn => exact ⟨_, rfl, still_nfcTake ..⟩
  | fieldOff => exact ⟨_, rfl, still_nfcTake ..⟩
  | activateA => exact ⟨_, rfl, still_nfcTake ..⟩
  | activateB => exact ⟨_, rfl, still_nfcTake ..⟩
  | exchange => exact ⟨_, rfl, still_nfcTake ..⟩
  | raw => exact ⟨_, rfl, still_nfcTake ..⟩
  | deselect => exact ⟨_, rfl, still_nfcTake ..⟩
  | detect => exact ⟨_, rfl, still_nfcTake ..⟩
  | nfcCardAnswer => exact ⟨_, rfl, still_nfcAnswered ..⟩
  | tagAnticollision => exact ⟨_, rfl, still_tagAnticollide ..⟩
  | tagSelect => exact ⟨_, rfl, still_tagSelected ..⟩
  | tagPps => exact ⟨_, rfl, still_tagPps ..⟩
  | selectOther => exact ⟨_, rfl, still_selectOther ..⟩
  | forwardedApdu => exact ⟨_, rfl, still_forwardedApdu ..⟩
  | islandAuth => exact ⟨_, rfl, still_islandAuth ..⟩
  | readRecord => exact ⟨_, rfl, still_readRecord ..⟩
  | updateRecord => exact ⟨_, rfl, still_updateRecord ..⟩
  | islandStatus => exact ⟨_, rfl, still_islandStatus ..⟩
  | unknownApdu => exact ⟨_, rfl, still_unknownApdu ..⟩
  | pulseEnd => exact ⟨_, rfl, still_pulseEnd ..⟩
  | tagIsack => exact ⟨_, rfl, still_owned (hf := fun _ => still_tagIsack ..) ..⟩
  | hostRecordRead => exact ⟨_, rfl, still_owned (hf := fun _ => still_tagHcmd ..) ..⟩
  | hostRecordWrite => exact ⟨_, rfl, still_owned (hf := fun _ => still_tagHcmd ..) ..⟩
  | fieldWriteEnd => exact ⟨_, rfl, still_fieldWriteEnd ..⟩
  | uwbTx => exact ⟨_, rfl, still_uwbTake ..⟩
  | uwbRx => exact ⟨_, rfl, still_uwbTake ..⟩
  | uwbSleep => exact ⟨_, rfl, still_uwbTake ..⟩
  | uwbStandby => exact ⟨_, rfl, still_uwbTake ..⟩
  | uwbSynth => exact ⟨_, rfl, still_uwbTake ..⟩
  | uwbCal => exact ⟨_, rfl, still_uwbTake ..⟩
  | uwbTune => exact ⟨_, rfl, still_uwbTake ..⟩
  | uwbWalkStart => exact ⟨_, rfl, still_uwbWalkStart ..⟩
  | uwbTransitionDone => exact ⟨_, rfl, still_uwbTransitionDone ..⟩
  | uwbArmPoint => exact ⟨_, rfl, still_uwbArmPoint ..⟩
  | uwbTxDone => exact ⟨_, rfl, by split; exacts [still_ite _ _ _ (still_txEnd ..) rfl, rfl]⟩
  | uwbFrameReceived => exact ⟨_, rfl, still_uwbFrameReceived ..⟩
  | uwbWindowClose => exact ⟨_, rfl, still_uwbWindowClose ..⟩
  | backgroundRecal => exact ⟨_, rfl, still_backgroundRecal ..⟩
  | liveClear => exact ⟨_, rfl, still_owned (hf := fun _ => rfl) ..⟩
  | respReceived => exact ⟨_, rfl, still_respReceived ..⟩
  | reportReceived => exact ⟨_, rfl, still_reportReceived ..⟩
  | next => exact ⟨_, rfl, still_owned (hf := fun _ => still_nextVerdict ..) ..⟩
  | mapSet => exact ⟨_, rfl, still_owned (hf := fun _ => still_mapWrite ..) ..⟩
  | mapClr => exact ⟨_, rfl, still_owned (hf := fun _ => still_mapWrite ..) ..⟩
  | lockEnd => exact ⟨_, rfl, still_lockEnd ..⟩
  | relGo => exact ⟨_, rfl, still_owned (hf := fun _ => still_relGoWritten ..) ..⟩
  | relStop => exact ⟨_, rfl, still_owned (hf := fun _ => still_relStop ..) ..⟩
  | restart => exact ⟨_, rfl, still_owned (hf := fun _ => still_trngCtl ..) ..⟩
  | portreqGo => exact ⟨_, rfl, still_owned (hf := fun _ => still_portReq ..) ..⟩
  | trngOutRead => exact ⟨_, rfl, still_reads (hf := fun _ => still_trngOut ..) ..⟩
  | reseedDue => exact ⟨_, rfl, still_reseedDue ..⟩
  | generatorStopped => exact ⟨_, rfl, still_generatorStopped ..⟩
  | pushTag => exact ⟨_, rfl, still_window (hf := fun _ => still_pushTag ..) ..⟩
  | pushData => exact ⟨_, rfl, still_window (hf := fun _ => still_pushData ..) ..⟩
  | pushEmpty => exact ⟨_, rfl, still_window (hf := fun _ => still_pushEmpty ..) ..⟩
  | cancel => exact ⟨_, rfl, still_window (hf := fun s => (still_drainWaiting ..).trans (still_rewindOpen ..)) ..⟩
  | pop => exact ⟨_, rfl, still_popBy ..⟩
  | moverGo => exact ⟨_, rfl, still_ite _ _ _ (still_owned (hf := fun _ => still_moverGo ..) ..) rfl⟩
  | moverStop => exact ⟨_, rfl, still_ite _ _ _ (still_owned (hf := fun _ => still_moverStop ..) ..) rfl⟩
  | armedDescriptorStart => exact ⟨_, rfl, still_armedStart ..⟩
  | timerWrap => exact ⟨_, rfl, still_timerWrap ..⟩
  | compare => exact ⟨_, rfl, still_compareReached ..⟩
  | timerStep => exact ⟨_, rfl, still_timerStep ..⟩
  | gpio1Edge => exact ⟨_, rfl, still_gpioEdge ..⟩
  | cmpWrite => exact ⟨_, rfl, still_ite _ _ _ (still_owned (hf := fun _ => still_cmpWrite ..) ..) rfl⟩
  | periodWrite => exact ⟨_, rfl, still_ite _ _ _ (still_owned (hf := fun _ => rfl) ..) rfl⟩
  | sequenceGo => exact ⟨_, rfl, still_owned (hf := fun _ => still_monCtl ..) ..⟩
  | monAbort => exact ⟨_, rfl, still_owned (hf := fun _ => still_monCtl ..) ..⟩
  | conversionSlotEnd => exact ⟨_, rfl, still_conversionEnd ..⟩
  | portUp => exact ⟨_, rfl, still_portComesUp ..⟩
  | linkLoss => exact ⟨_, rfl, still_linkLoss ..⟩
  | retransmissionTimeout => exact ⟨_, rfl, still_retransmit ..⟩
  | frameArrival => exact ⟨_, rfl, still_frameArrival ..⟩
  | ack => exact ⟨_, rfl, still_ackUpTo ..⟩
  | nak => exact ⟨_, rfl, still_nakFrom ..⟩
  | pcmdKey => exact ⟨_, rfl, still_owned (hf := fun _ => still_pcmdWrite ..) ..⟩
  | pcmdClose => exact ⟨_, rfl, still_owned (hf := fun _ => still_pcmdWrite ..) ..⟩
  | pcmdSwitch => exact ⟨_, rfl, still_owned (hf := fun _ => still_pcmdWrite ..) ..⟩
  | prxNewClear => exact ⟨_, rfl, still_owned (hf := fun _ => still_prxClear ..) ..⟩
  | ttExchange => exact ⟨_, rfl, still_ttExchange ..⟩
  | mark => exact ⟨_, rfl, still_markArrives ..⟩
  | ttFit => exact ⟨_, rfl, still_ttFit ..⟩
  | offlineAlarm => exact ⟨_, rfl, still_offlineAlarm ..⟩
  | monitorWindowEnd => exact ⟨_, rfl, still_windowEnd ..⟩
  | selWrite => exact ⟨_, rfl, still_ite _ _ _ (still_owned (hf := fun _ => still_selWrite ..) ..) rfl⟩
  | governorReading => exact ⟨_, rfl, still_governorReading ..⟩
  | rlLowRead => exact ⟨_, rfl, still_rlLowRead ..⟩
  | timerTick => exact ⟨_, rfl, still_timerTick ..⟩
  | lineLock => exact ⟨_, rfl, still_lineLock ..⟩
  | singleBitError => exact ⟨_, rfl, still_singleBit ..⟩
  | uwbCondsSample => exact ⟨_, rfl, still_uwbCondsSample ..⟩
  | txBudgetRefill => exact ⟨_, rfl, still_txBudgetRefill ..⟩
  | failureWindowExpiry => exact ⟨_, rfl, still_failureExpiry ..⟩
  | vbatLow => exact ⟨_, rfl, still_vbatFalls ..⟩
  | regEnRetry => exact ⟨_, rfl, still_regEnRetry ..⟩
  | sedgeWatchdogExpiry => exact ⟨_, rfl, still_sedgeWatchdog ..⟩
  | sessionClose => exact ⟨_, rfl, still_mailOp (hf := fun _ _ => still_closeSession ..) ..⟩
  | bind => exact ⟨_, rfl, still_mailOp (hf := fun _ _ => still_enrolBind ..) ..⟩
  | imageStage => exact ⟨_, rfl, still_mailOp (hf := fun _ _ => still_imageStage ..) ..⟩
  | imageActivate => exact ⟨_, rfl, still_mailOp (hf := fun _ _ => still_imageActivate ..) ..⟩
  | swapTimeout => exact ⟨_, rfl, still_swapTimeout ..⟩
  | imageConfirm => exact ⟨_, rfl, still_mailOp (hf := fun _ _ => still_imageConfirm ..) ..⟩
  | nonceExpiry => exact ⟨_, rfl, still_nonceExpiry ..⟩
  | debugPassword => exact ⟨_, rfl, still_mailOp (hf := fun _ _ => still_debugPassword ..) ..⟩
  | pwdLockExpiry => exact ⟨_, rfl, still_pwdLockEnd ..⟩
  | counterRead => exact ⟨_, rfl, still_mailOp (hf := fun _ _ => still_counterRead ..) ..⟩
  | perfGrantQuery => exact ⟨_, rfl, still_mailOp (hf := fun _ _ => still_reply ..) ..⟩
  | echo => exact ⟨_, rfl, still_mailOp (hf := fun _ _ => still_reply ..) ..⟩
  | guardExpiry => exact ⟨_, rfl, still_guardExpired ..⟩
  | fwtExpiry => exact ⟨_, rfl, still_nfcExpired ..⟩
  | fieldPresence => exact ⟨_, rfl, still_fieldPresent ..⟩
  | islandReady => exact ⟨_, rfl, still_islandReady ..⟩
  | fieldLoss => exact ⟨_, rfl, still_fieldLost ..⟩
  | tagReqa => exact ⟨_, rfl, still_tagRequest ..⟩
  | tagWupa => exact ⟨_, rfl, still_tagRequest ..⟩
  | tagRats => exact ⟨_, rfl, still_tagRats ..⟩
  | selectIsland => exact ⟨_, rfl, still_selectIsland ..⟩
  | forwardAnswer => exact ⟨_, rfl, still_forwardAnswer ..⟩
  | forwardTimeout => exact ⟨_, rfl, still_forwardTimeout ..⟩
  | wtxFwtExpiry => exact ⟨_, rfl, still_wtxExpired ..⟩
  | vstoreCharged => exact ⟨_, rfl, still_vstoreCharged ..⟩
  | vstoreTimeout => exact ⟨_, rfl, still_vstoreTimeout ..⟩
  | isackTimeout => exact ⟨_, rfl, still_isackTimeout ..⟩
  | islandGlitch => exact ⟨_, rfl, still_tagCut ..⟩
  | lockLost => exact ⟨_, rfl, still_lockLost ..⟩
  | holdExpiry => exact ⟨_, rfl, still_holdExpiry ..⟩
  | sleepAfterExpiry => exact ⟨_, rfl, still_sleepAfterExpiry ..⟩
  | roundStart => exact ⟨_, rfl, still_roundStart ..⟩
  | plan => exact ⟨_, rfl, still_planArrives ..⟩
  | planDeadline => exact ⟨_, rfl, still_planDeadline ..⟩
  | slotPlacement => exact ⟨_, rfl, still_slotPlacement ..⟩
  | remoteVerdict => exact ⟨_, rfl, still_remoteVerdict ..⟩
  | fusedRoundStart => exact ⟨_, rfl, still_fusedRoundStart ..⟩
  | waveformEnd => exact ⟨_, rfl, still_relStop ..⟩
  | pinMismatch => exact ⟨_, rfl, still_pinMismatch ..⟩
  | settlingEnd => exact ⟨_, rfl, still_rngSettled ..⟩
  | startupTestsPassed => exact ⟨_, rfl, still_rngTested ..⟩
  | aesXts => exact ⟨_, rfl, still_aesStart ..⟩
  | aesGcm => exact ⟨_, rfl, still_aesStart ..⟩
  | aesCcm => exact ⟨_, rfl, still_aesStart ..⟩
  | aesCmac => exact ⟨_, rfl, still_aesStart ..⟩
  | aesKw => exact ⟨_, rfl, still_aesStart ..⟩
  | aesRec => exact ⟨_, rfl, still_aesStart ..⟩
  | aesEcbDerive => exact ⟨_, rfl, still_aesStart ..⟩
  | recoveryTimeout => exact ⟨_, rfl, still_recTimeout ..⟩
  | enum => exact ⟨_, rfl, still_enumArrives ..⟩
  | enumAck => exact ⟨_, rfl, still_enumAckArrives ..⟩
  | roster => exact ⟨_, rfl, still_rosterArrives ..⟩
  | aligned => exact ⟨_, rfl, still_alignedArrives ..⟩
  | lost => exact ⟨_, rfl, still_lostArrives ..⟩
  | join => exact ⟨_, rfl, still_joinArrives ..⟩
  | enumGo => exact ⟨_, rfl, still_enumGoArrives ..⟩
  | dataFrameReceived => exact ⟨_, rfl, still_dataFrameReceived ..⟩
  | keyFrameReceived => exact ⟨_, rfl, still_keyFrameReceived ..⟩
  | closeFrameReceived => exact ⟨_, rfl, still_closeFrameReceived ..⟩
  | switchReceived => exact ⟨_, rfl, still_switchReceived ..⟩
  | receipt => exact ⟨_, rfl, still_receiptArrives ..⟩
  | receiptTimeout => exact ⟨_, rfl, still_receiptTimeout ..⟩
  | activityNotice => exact ⟨_, rfl, still_activityNotice ..⟩
  | chainWakeNotice => exact ⟨_, rfl, still_wakeNotice ..⟩
  | busyNotice => exact ⟨_, rfl, still_busyNotice ..⟩
  | timeUpdate => exact ⟨_, rfl, still_timeUpdate ..⟩
  | snapshot => exact ⟨_, rfl, still_snapshot ..⟩
  | vdrvRise => exact ⟨_, rfl, still_srb ..⟩
  | alignExpiry => exact ⟨_, rfl, rfl⟩
  | byTokenTimeout => exact ⟨_, rfl, still_byTokenTimeout ..⟩
  | hcmdDone => exact ⟨_, rfl, still_hcmdDone ..⟩
  | _ => cases h

/-- A command that may store keeps the canonical form and the waiting commands. -/
theorem exec_kept_of_mayStore {pq : List Instr} {c : Instr} (h : mayStore c = true) {s : State} (hk : Kept pq (still s)) :
    ∃ t, exec c s = .next t ∧ Kept pq (still t) := by
  cases c with
  | start => exact ⟨_, rfl, kept_start (hk := hk) ..⟩
  | rootAttempt => exact ⟨_, rfl, kept_rootAttempt (hk := hk) ..⟩
  | lineActivityWake => exact ⟨_, rfl, kept_lineWake (hk := hk) ..⟩
  | stageEntry => exact ⟨_, rfl, kept_stageEntry (hk := hk) ..⟩
  | heronPoll => exact ⟨_, rfl, kept_heronPoll (hk := hk) ..⟩
  | activity => exact ⟨_, rfl, kept_owned (hf := fun _ h => kept_pwrCmd (hk := h) ..) (hk := hk) ..⟩
  | enterDs => exact ⟨_, rfl, kept_owned (hf := fun _ h => kept_pwrCmd (hk := h) ..) (hk := hk) ..⟩
  | sleep => exact ⟨_, rfl, kept_owned (hf := fun _ h => kept_pwrCmd (hk := h) ..) (hk := hk) ..⟩
  | debugToken => exact ⟨_, rfl, kept_debugToken (hk := hk) ..⟩
  | ecallHash => exact ⟨_, rfl, kept_ecall (hf := fun _ _ h => kept_ecallHash (hk := h) ..) (hk := hk) ..⟩
  | ecallRandomWords =>
    exact ⟨_, rfl, kept_ecall (hf := fun _ _ h => Kept.congr (still_ecallRandom ..) h) (hk := hk) ..⟩
  | ecallOwnCounters =>
    exact ⟨_, rfl, kept_ecall (hf := fun _ _ h => Kept.congr (still_ecallCounter ..) h) (hk := hk) ..⟩
  | ecallKeyStore =>
    exact ⟨_, rfl,
      kept_ecall (hf := fun _ s h => kept_ite _ _ _ (Kept.congr (still_ecallKey ..) h) (kept_abortCall s h)) (hk := hk) ..⟩
  | ecallReply => exact ⟨_, rfl, kept_ecall (hf := fun _ _ h => kept_endCall (hk := h) ..) (hk := hk) ..⟩
  | channelStop =>
    exact ⟨_, rfl,
      kept_ite _ _ _ (kept_peatGoesOn _ (Kept.congr (still_owned (hf := fun _ => still_channelStop ..) ..) hk)) hk⟩
  | channelAbort =>
    exact ⟨_, rfl, kept_ite _ _ _ (kept_owned (hf := fun s h => kept_channelAbort (hk := h) ..) (hk := hk) ..) hk⟩
  | sessionFree => exact ⟨_, rfl, kept_sessionFree (hk := hk) ..⟩
  | lfWake => exact ⟨_, rfl, kept_peatGoesOn (hk := Kept.congr (still_lfTake ..) hk) ..⟩
  | lfAuth => exact ⟨_, rfl, kept_peatGoesOn (hk := Kept.congr (still_lfTake ..) hk) ..⟩
  | lfLocate => exact ⟨_, rfl, kept_peatGoesOn (hk := Kept.congr (still_lfTake ..) hk) ..⟩
  | lfTune => exact ⟨_, rfl, kept_peatGoesOn (hk := Kept.congr (still_lfTake ..) hk) ..⟩
  | lfMeasure => exact ⟨_, rfl, kept_peatGoesOn (hk := Kept.congr (still_lfTake ..) hk) ..⟩
  | lfExchangeStart => exact ⟨_, rfl, kept_peatGoesOn (hk := Kept.congr (still_lfExchangeStart ..) hk) ..⟩
  | lfAnswer => exact ⟨_, rfl, by split; exacts [kept_peatGoesOn _ (Kept.congr (still_lfAnswered ..) hk), hk]⟩
  | statusUpdate => exact ⟨_, rfl, kept_mailOp (hf := fun _ _ h => kept_statusUpdate (hk := h) ..) (hk := hk) ..⟩
  | vbatRise => exact ⟨_, rfl, kept_vbatRise (hk := hk) ..⟩
  | fusedRequest =>
    exact ⟨_, rfl, kept_peatGoesOn _ (Kept.congr (still_owned (hf := fun _ => still_fuseWrite ..) ..) hk)⟩
  | mapqGo => exact ⟨_, rfl, kept_owned (hf := fun _ h => kept_mapqWrite (hk := h) ..) (hk := hk) ..⟩
  | generate => exact ⟨_, rfl, kept_owned (hf := fun _ h => kept_kstGo (hk := h) ..) (hk := hk) ..⟩
  | unwrap => exact ⟨_, rfl, kept_owned (hf := fun _ h => kept_kstGo (hk := h) ..) (hk := hk) ..⟩
  | derive => exact ⟨_, rfl, kept_owned (hf := fun _ h => kept_kstGo (hk := h) ..) (hk := hk) ..⟩
  | kstCopy => exact ⟨_, rfl, kept_owned (hf := fun _ h => kept_kstGo (hk := h) ..) (hk := hk) ..⟩
  | loadEntry => exact ⟨_, rfl, kept_owned (hf := fun _ h => kept_kstGo (hk := h) ..) (hk := hk) ..⟩
  | storeEntry => exact ⟨_, rfl, kept_owned (hf := fun _ h => kept_kstGo (hk := h) ..) (hk := hk) ..⟩
  | erase => exact ⟨_, rfl, kept_owned (hf := fun _ h => kept_kstGo (hk := h) ..) (hk := hk) ..⟩
  | cntInc => exact ⟨_, rfl, kept_owned (hf := fun _ h => kept_kstGo (hk := h) ..) (hk := hk) ..⟩
  | cntSet => exact ⟨_, rfl, kept_owned (hf := fun _ h => kept_kstGo (hk := h) ..) (hk := hk) ..⟩
  | rootEnrol => exact ⟨_, rfl, kept_owned (hf := fun _ h => kept_kstGo (hk := h) ..) (hk := hk) ..⟩
  | epochAdv => exact ⟨_, rfl, kept_owned (hf := fun _ h => kept_kstGo (hk := h) ..) (hk := hk) ..⟩
  | poolComplete => exact ⟨_, rfl, kept_goesOn (hk := Kept.congr (still_poolComplete ..) hk) ..⟩
  | healthFailure => exact ⟨_, rfl, kept_goesOn (hk := Kept.congr (still_healthFailure ..) hk) ..⟩
  | aesJobCompletion => exact ⟨_, rfl, kept_aesFinish (hk := hk) ..⟩
  | bnJobCompletion => exact ⟨_, rfl, kept_bnFinish (hk := hk) ..⟩
  | hshJobCompletion => exact ⟨_, rfl, kept_hFinish (hk := hk) ..⟩
  | flush => exact ⟨_, rfl, kept_owned (hf := fun _ h => kept_flushMask (hk := h) ..) (hk := hk) ..⟩
  | pflush => exact ⟨_, rfl, kept_owned (hf := fun _ h => kept_flushMask (hk := h) ..) (hk := hk) ..⟩
  | descriptorDone => exact ⟨_, rfl, kept_descriptorDone (hk := hk) ..⟩
  | hostRead => exact ⟨_, rfl, kept_ite _ _ _ (kept_hostReadTxn (hk := hk) ..) hk⟩
  | hostWrite => exact ⟨_, rfl, kept_ite _ _ _ (kept_hostWriteTxn (hk := hk) ..) hk⟩
  | hostStatus => exact ⟨_, rfl, kept_ite _ _ _ (kept_hostStatusTxn (hk := hk) ..) hk⟩
  | recdataWrite => exact ⟨_, rfl, kept_recData (hk := hk) ..⟩
  | alarm => exact ⟨_, rfl, kept_alarmTrips (hk := hk) ..⟩
  | memoryDoubleBitError => exact ⟨_, rfl, kept_doubleBit (hk := hk) ..⟩
  | registerWrite => exact ⟨_, rfl, kept_registerWrite (hk := hk) ..⟩
  | lfExchangeEnd => exact ⟨_, rfl, kept_peatGoesOn (hk := Kept.congr (still_lfExchangeEnd ..) hk) ..⟩
  | chargeEvent => exact ⟨_, rfl, kept_chargeEvent (hk := hk) ..⟩
  | vdrvLow => exact ⟨_, rfl, kept_vdrvFalls (hk := hk) ..⟩
  | brownOut => exact ⟨_, rfl, kept_brownOut (hk := hk) ..⟩
  | resetN => exact ⟨_, rfl, kept_resetPin (hk := hk) ..⟩
  | supplyTimeout => exact ⟨_, rfl, kept_attemptFails (hk := hk) ..⟩
  | xoTimeout => exact ⟨_, rfl, kept_attemptFails (hk := hk) ..⟩
  | wakeIn => exact ⟨_, rfl, kept_wake (hk := hk) ..⟩
  | hostCsWake => exact ⟨_, rfl, kept_resume (hk := hk) ..⟩
  | rcTimerWake => exact ⟨_, rfl, kept_ite _ _ _ (kept_wakeStart (hk := hk) ..) hk⟩
  | idleMsExpiry => exact ⟨_, rfl, kept_idleExpiry (hk := hk) ..⟩
  | sedgeReloadDone => exact ⟨_, rfl, kept_sedgeReloadDone (hk := hk) ..⟩
  | peatWatchdogExpiry => exact ⟨_, rfl, kept_peatFails (hk := hk) ..⟩
  | peatException => exact ⟨_, rfl, kept_peatFails (hk := hk) ..⟩
  | sessionOpen => exact ⟨_, rfl, kept_mailOp (hf := fun _ _ h => kept_openSession (hk := h) ..) (hk := hk) ..⟩
  | keyAgree => exact ⟨_, rfl, kept_mailOp (hf := fun _ _ h => kept_keyAgree (hk := h) ..) (hk := hk) ..⟩
  | credCheck => exact ⟨_, rfl, kept_mailOp (hf := fun _ _ h => kept_credCheck (hk := h) ..) (hk := hk) ..⟩
  | record => exact ⟨_, rfl, kept_mailOp (hf := fun _ _ h => kept_enrolRecord (hk := h) ..) (hk := hk) ..⟩
  | byToken => exact ⟨_, rfl, kept_mailOp (hf := fun _ _ h => kept_byToken (hk := h) ..) (hk := hk) ..⟩
  | phone => exact ⟨_, rfl, kept_mailOp (hf := fun _ _ h => kept_enrolPhone (hk := h) ..) (hk := hk) ..⟩
  | unlockReq => exact ⟨_, rfl, kept_mailOp (hf := fun _ _ h => kept_unlockReq (hk := h) ..) (hk := hk) ..⟩
  | startReq => exact ⟨_, rfl, kept_mailOp (hf := fun _ _ h => kept_startReq (hk := h) ..) (hk := hk) ..⟩
  | startDeadline => exact ⟨_, rfl, kept_startDeadline (hk := hk) ..⟩
  | keyGen => exact ⟨_, rfl, kept_mailOp (hf := fun _ _ h => kept_keyGen (hk := h) ..) (hk := hk) ..⟩
  | keyImport => exact ⟨_, rfl, kept_mailOp (hf := fun _ _ h => kept_keyImport (hk := h) ..) (hk := hk) ..⟩
  | attest => exact ⟨_, rfl, kept_mailOp (hf := fun _ _ h => kept_attest (hk := h) ..) (hk := hk) ..⟩
  | cfgReplace => exact ⟨_, rfl, kept_mailOp (hf := fun _ _ h => kept_cfgReplace (hk := h) ..) (hk := hk) ..⟩
  | replacementCommit => exact ⟨_, rfl, kept_replacementCommit (hk := hk) ..⟩
  | drainTimeout => exact ⟨_, rfl, kept_drainTimeout (hk := hk) ..⟩
  | peatSwap => exact ⟨_, rfl, kept_peatSwap (hk := hk) ..⟩
  | lcsTransition => exact ⟨_, rfl, kept_mailOp (hf := fun _ _ h => kept_lcsTransition (hk := h) ..) (hk := hk) ..⟩
  | appletCall => exact ⟨_, rfl, kept_appletCall (hk := hk) ..⟩
  | ecallSessionSlot =>
    exact ⟨_, rfl, kept_ecall (hf := fun _ _ h => Kept.congr (still_ecallSession ..) h) (hk := hk) ..⟩
  | appletBudgetExpiry => exact ⟨_, rfl, kept_abortCall (hk := hk) ..⟩
  | appletAccessFault => exact ⟨_, rfl, kept_abortCall (hk := hk) ..⟩
  | lfWindowClose => exact ⟨_, rfl, by split; exacts [kept_peatGoesOn _ (Kept.congr (still_lfEnd ..) hk), hk]⟩
  | unlock => exact ⟨_, rfl, kept_tagUnlock (hk := hk) ..⟩
  | islandDecision => exact ⟨_, rfl, kept_islandDecision (hk := hk) ..⟩
  | slotEnd => exact ⟨_, rfl, kept_peatGoesOn (hk := Kept.congr (still_slotEnd ..) hk) ..⟩
  | arrivalTimes => exact ⟨_, rfl, kept_peatGoesOn (hk := Kept.congr (still_arrivalTimes ..) hk) ..⟩
  | fusionTimeout => exact ⟨_, rfl, kept_peatGoesOn (hk := Kept.congr (still_fusionTimeout ..) hk) ..⟩
  | modAdd => exact ⟨_, rfl, kept_bnStart (hk := hk) ..⟩
  | modSub => exact ⟨_, rfl, kept_bnStart (hk := hk) ..⟩
  | modMul => exact ⟨_, rfl, kept_bnStart (hk := hk) ..⟩
  | montSetup => exact ⟨_, rfl, kept_bnStart (hk := hk) ..⟩
  | modExp => exact ⟨_, rfl, kept_bnStart (hk := hk) ..⟩
  | modInv => exact ⟨_, rfl, kept_bnStart (hk := hk) ..⟩
  | modRed => exact ⟨_, rfl, kept_bnStart (hk := hk) ..⟩
  | copy => exact ⟨_, rfl, kept_bnStart (hk := hk) ..⟩
  | copyRev => exact ⟨_, rfl, kept_bnStart (hk := hk) ..⟩
  | clear => exact ⟨_, rfl, kept_bnStart (hk := hk) ..⟩
  | p256Mul => exact ⟨_, rfl, kept_bnStart (hk := hk) ..⟩
  | p256Mulg => exact ⟨_, rfl, kept_bnStart (hk := hk) ..⟩
  | p256Check => exact ⟨_, rfl, kept_bnStart (hk := hk) ..⟩
  | p256Sign => exact ⟨_, rfl, kept_bnStart (hk := hk) ..⟩
  | p256Verify => exact ⟨_, rfl, kept_bnStart (hk := hk) ..⟩
  | p384Mul => exact ⟨_, rfl, kept_bnStart (hk := hk) ..⟩
  | p384Mulg => exact ⟨_, rfl, kept_bnStart (hk := hk) ..⟩
  | p384Check => exact ⟨_, rfl, kept_bnStart (hk := hk) ..⟩
  | p384Sign => exact ⟨_, rfl, kept_bnStart (hk := hk) ..⟩
  | p384Verify => exact ⟨_, rfl, kept_bnStart (hk := hk) ..⟩
  | x25519 => exact ⟨_, rfl, kept_bnStart (hk := hk) ..⟩
  | x25519Base => exact ⟨_, rfl, kept_bnStart (hk := hk) ..⟩
  | ed25519Verify => exact ⟨_, rfl, kept_bnStart (hk := hk) ..⟩
  | ntt => exact ⟨_, rfl, kept_bnStart (hk := hk) ..⟩
  | intt => exact ⟨_, rfl, kept_bnStart (hk := hk) ..⟩
  | basemul => exact ⟨_, rfl, kept_bnStart (hk := hk) ..⟩
  | padd => exact ⟨_, rfl, kept_bnStart (hk := hk) ..⟩
  | psub => exact ⟨_, rfl, kept_bnStart (hk := hk) ..⟩
  | kemKeygen => exact ⟨_, rfl, kept_bnStart (hk := hk) ..⟩
  | kemEncaps => exact ⟨_, rfl, kept_bnStart (hk := hk) ..⟩
  | kemDecaps => exact ⟨_, rfl, kept_bnStart (hk := hk) ..⟩
  | bnYieldPoint => exact ⟨_, rfl, kept_ite _ _ _ (kept_bnYield (hk := hk) ..) hk⟩
  | sha3256 => exact ⟨_, rfl, kept_hStart (hk := hk) ..⟩
  | sha3512 => exact ⟨_, rfl, kept_hStart (hk := hk) ..⟩
  | shake128 => exact ⟨_, rfl, kept_hStart (hk := hk) ..⟩
  | shake256 => exact ⟨_, rfl, kept_hStart (hk := hk) ..⟩
  | kmac256 => exact ⟨_, rfl, kept_hStart (hk := hk) ..⟩
  | xmssVerify => exact ⟨_, rfl, kept_hStart (hk := hk) ..⟩
  | xmssSign => exact ⟨_, rfl, kept_hStart (hk := hk) ..⟩
  | xmssKeygen => exact ⟨_, rfl, kept_hStart (hk := hk) ..⟩
  | writeBufferApply => exact ⟨_, rfl, kept_applyBuf (hk := hk) ..⟩
  | idleNotice => exact ⟨_, rfl, kept_idleNotice (hk := hk) ..⟩
  | sleepNotice => exact ⟨_, rfl, kept_sleepNotice (hk := hk) ..⟩
  | _ => cases h

theorem exec_kept {pq : List Instr} (c : Instr) {s : State} (hk : Kept pq (still s)) :
    ∃ t, exec c s = .next t ∧ Kept pq (still t) := by
  cases h : mayStore c with
  | true => exact exec_kept_of_mayStore h hk
  | false =>
    obtain ⟨t, he, ht⟩ := exec_still h s
    exact ⟨t, he, Kept.congr ht hk⟩

theorem memOk_of_kept {pq : List Instr} {s : State} : Kept pq (still s) → MemOk s := fun ⟨_, hmem, hflash⟩ => ⟨hmem, hflash⟩

theorem pending_of_kept {pq : List Instr} {s : State} : Kept pq (still s) → s.pending = pq := fun ⟨hq, _⟩ => hq

theorem step_nil {s : State} (h : s.pending = []) : step s = .next (tick s) := by
  unfold step
  split
  · rfl
  · simp_all

/-- Settles O1. -/
theorem stepRunsTheFrontCommand : Obligations.StepRunsTheFrontCommand := by
  intro s c rest h
  rw [step, h]

/-- Settles O4. -/
theorem resetMemoryCanonical : Obligations.ResetMemoryCanonical := by
  unfold Obligations.ResetMemoryCanonical MemOk memWf flashWf State.reset
  constructor <;> exact cellWf_nil _

/-- Settles O3: an empty queue lets one cycle pass, which touches neither memory; a command at its front runs on the
queue's rest. -/
theorem stepKeepsMemoryCanonical : Obligations.StepKeepsMemoryCanonical := by
  intro s ⟨hmem, hflash⟩
  cases hp : s.pending with
  | nil =>
    have ht : Kept [] (still (tick s)) := Kept.congr (still_tick s) ⟨hp, hmem, hflash⟩
    exact ⟨tick s, step_nil hp, memOk_of_kept ht, pending_of_kept ht⟩
  | cons c rest =>
    obtain ⟨t, he, ht⟩ := exec_kept (pq := rest) c (s := { s with pending := rest }) ⟨rfl, hmem, hflash⟩
    exact ⟨t, (stepRunsTheFrontCommand s c rest hp).trans he, memOk_of_kept ht, pending_of_kept ht⟩

end Proofs
end Sys2Proof

/-!
PROOFS. The random source (R309 to R322): start-up, restart and reseeds, health failures, and the delivery of a conditioned
block.
-/
namespace Sys2Proof
namespace Proofs

open Sys2Proof.Machine Sys2Proof.Safety Sys2Proof.Laws

/-! ### Start-up and reseeds (R314, R320 to R322) -/

theorem rngState_setRng (s : State) {v : Nat} (h : v < 8) : (s.setRng v).rngState = v := by
  rw [State.rngState, State.setRng, rf_srf_same s _ _ (by omega) (by omega)]
  exact Nat.mod_eq_of_lt h

theorem rf_congr {s t : State} (h : t.regs = s.regs) (a hi lo : Nat) : t.rf a hi lo = s.rf a hi lo := by
  unfold State.rf; rw [reg_congr h]

theorem rb_congr {s t : State} (h : t.regs = s.regs) (a i : Nat) : t.rb a i = s.rb a i := by
  unfold State.rb; rw [reg_congr h]

theorem rngState_of_regs {s t : State} (h : t.regs = s.regs) : t.rngState = s.rngState :=
  rf_congr h _ _ _

/-- Asking a generator's reseed again, where it is due and no request waits for it. -/
def askReseed (s : State) (n : Nat) : State :=
  s.onlyIf (decide (Caller.mask n ∉ s.trng.reqs) && (s.rb (aTRNG_MASK n) 30 || !s.rb (aTRNG_MASK n) 31)) fun s =>
    s.setCallers (s.trng.reqs ++ [.mask n])

theorem askReseeds_eq (s : State) : s.askReseeds = askReseed (askReseed (askReseed s 0) 1) 2 := rfl

theorem askReseed_eq (s : State) (n : Nat) : ∃ l, askReseed s n = s.setCallers (s.trng.reqs ++ l) ∧
    (s.rb (aTRNG_MASK n) 30 = true ∨ s.rb (aTRNG_MASK n) 31 = false → Caller.mask n ∈ s.trng.reqs ++ l) := by
  unfold askReseed
  by_cases hw : Caller.mask n ∈ s.trng.reqs
  · exact ⟨[], by simp [State.onlyIf, State.setCallers, hw], fun _ => by simpa using hw⟩
  · by_cases hd : s.rb (aTRNG_MASK n) 30 = true ∨ s.rb (aTRNG_MASK n) 31 = false
    · exact ⟨[.mask n], by simp [State.onlyIf, hw, hd], fun _ => by simp⟩
    · exact ⟨[], by simp [State.onlyIf, State.setCallers, hw, hd], fun h => absurd h hd⟩

/-- Asking for the reseeds that are due adds requests behind the others, one for each generator that needs one. -/
theorem askReseeds_adds (s : State) : ∃ l, s.askReseeds = s.setCallers (s.trng.reqs ++ l) ∧
    ∀ n, n < 3 → s.rb (aTRNG_MASK n) 30 = true ∨ s.rb (aTRNG_MASK n) 31 = false → Caller.mask n ∈ s.trng.reqs ++ l := by
  obtain ⟨l0, h0, w0⟩ := askReseed_eq s 0
  obtain ⟨l1, h1, w1⟩ := askReseed_eq (s.setCallers (s.trng.reqs ++ l0)) 1
  obtain ⟨l2, h2, w2⟩ := askReseed_eq (s.setCallers (s.trng.reqs ++ l0 ++ l1)) 2
  refine ⟨l0 ++ l1 ++ l2, ?_, fun n hn hd => ?_⟩
  · rw [askReseeds_eq, h0, h1]
    exact h2.trans (by simp [State.setCallers])
  · match n, hn with
    | 0, _ => have := w0 hd; simp at this ⊢; tauto
    | 1, _ => have := w1 hd; simp [State.setCallers] at this ⊢; tauto
    | 2, _ => have := w2 hd; simp [State.setCallers] at this ⊢; tauto

theorem exec_settlingEnd {s : State} (h : s.rngState = 1) : exec .settlingEnd s = .next (s.setRng rngStartup) :=
  congrArg done (if_pos h)

theorem settlingEnd_starts {s : State} (h : s.rngState = 1) :
    ∃ t, exec .settlingEnd s = .next t ∧ t.rngState = 2 ∧ RegsBut [aTRNG_STATUS] s t ∧ t.trng = s.trng :=
  ⟨_, exec_settlingEnd h, rngState_setRng s (by decide), regsBut_srf s (by simp) _ _ _, rfl⟩

theorem startupTestsPassed_marks {s : State} (h : s.rngState = 2) :
    ∃ t, exec .startupTestsPassed s = .next t ∧ t = { s with trng := { s.trng with testsPassed := true } } :=
  ⟨rngTested s, rfl, by rw [rngTested, if_pos (show s.rngState = rngStartup from h)]⟩

theorem exec_restart {s : State} {m : Master} (h : Grants s m aTRNG_CTL) :
    exec (.restart m) s =
      .next (((s.access m (rightsOf m) false aTRNG_CTL 2).srf aTRNG_CTL 11 8
        (fld (setFld (s.reg aTRNG_CTL) 0 0 1) 11 8)).rngRestart) := by
  have hgo : bit (setFld (s.reg aTRNG_CTL) 0 0 1) 0 = true := bit_setFld_same _ (by omega) true
  calc exec (.restart m) s
    _ = .next (s.owned m aTRNG_CTL (trngCtl (setFld (s.reg aTRNG_CTL) 0 0 1))) := rfl
    _ = _ := by rw [owned_granted h, trngCtl, hgo]; rfl

@[simp] theorem regs_discardOutput (s : State) : s.discardOutput.regs = s.regs := rfl

@[simp] theorem regs_setCallers (s : State) (l : List Caller) : (s.setCallers l).regs = s.regs := rfl

@[simp] theorem trng_setRng (s : State) (v : Nat) : (s.setRng v).trng = s.trng := rfl

theorem rngRestart_eq {s : State} (h : s.rngState ≠ 0) :
    s.rngRestart = ((s.askReseeds.srf aTRNG_STATUS 5 4 0).setRng rngStartup).discardOutput := if_neg h

theorem restart_restarts {s : State} {m : Master} (h : Grants s m aTRNG_CTL) (hs : s.rngState ≠ 0) :
    ∃ t, exec (.restart m) s = .next t ∧ t.rngState = 2 ∧ t.rf aTRNG_STATUS 5 4 = 0 ∧ t.trng.testsPassed = false ∧
      t.trng.tests = [] ∧ t.trng.out = [] ∧ s.trng.reqs <+: t.trng.reqs ∧
      (∀ n, n < 3 → (s.rb (aTRNG_MASK n) 30 = true ∨ s.rb (aTRNG_MASK n) 31 = false) → Caller.mask n ∈ t.trng.reqs) ∧
      RegsBut [aTRNG_STATUS, aTRNG_CTL] s t := by
  generalize hu : (s.access m (rightsOf m) false aTRNG_CTL 2).srf aTRNG_CTL 11 8
    (fld (setFld (s.reg aTRNG_CTL) 0 0 1) 11 8) = u
  have hmask : ∀ n i, n < 3 → u.rb (aTRNG_MASK n) i = s.rb (aTRNG_MASK n) i := fun n i hn => by
    rw [← hu, rb_srf_other _ (by unfold aTRNG_MASK aTRNG_CTL; omega)]; unfold State.rb; rw [reg_access]
  have hreqs : u.trng.reqs = s.trng.reqs := by rw [← hu]; simp
  have hu0 : u.rngState ≠ 0 := by
    rw [← hu, State.rngState, rf_srf_other _ (by decide)]; rwa [← rngState_access s m (rightsOf m) false aTRNG_CTL 2] at hs
  have hregs : RegsBut [aTRNG_STATUS, aTRNG_CTL] s u := by
    rw [← hu]; exact RegsBut.trans (regsBut_access s _ _ _ _ _ _) (regsBut_srf _ (by simp) _ _ _)
  obtain ⟨l, hl, hdue⟩ := askReseeds_adds u
  refine ⟨_, exec_restart h, ?_⟩
  rw [hu, rngRestart_eq hu0, hl]
  generalize hw : (u.setCallers (u.trng.reqs ++ l)).srf aTRNG_STATUS 5 4 0 = w
  have hwreqs : (w.setRng rngStartup).discardOutput.trng.reqs = s.trng.reqs ++ l := by rw [← hw, ← hreqs]; rfl
  refine ⟨?_, ?_, rfl, rfl, rfl, ⟨l, hwreqs.symm⟩, ?_, ?_⟩
  · exact (rngState_of_regs (regs_discardOutput _)).trans (rngState_setRng w (by decide))
  · unfold State.rf
    rw [reg_congr (regs_discardOutput _)]
    refine (rf_srf_ne w _ _ (by omega) (by omega) (by omega) (by omega)).trans ?_
    rw [← hw]; exact rf_srf_same _ _ _ (by omega) (by omega)
  · rw [hwreqs, ← hreqs]
    exact fun n hn hd => hdue n hn (by rwa [hmask n 30 hn, hmask n 31 hn])
  · refine RegsBut.trans hregs (RegsBut.trans (t := w) ?_ ?_)
    · rw [← hw]
      exact RegsBut.trans (regsBut_of_regs (regs_setCallers u _) _) (regsBut_srf _ (by simp) 5 4 0)
    · exact RegsBut.trans (regsBut_srf w (by simp) 2 0 rngStartup) (regsBut_of_regs (regs_discardOutput _) _)

/-- OVERDUE of a generator, with the count of its blocks. -/
def maskOverdue (s : State) (n k : Nat) : State := (s.srf (aTRNG_MASK n) 17 0 k).srb (aTRNG_MASK n) 30 true

theorem rf_maskOverdue (s : State) (n : Nat) {k : Nat} (h : k < 2 ^ 18) : (maskOverdue s n k).rf (aTRNG_MASK n) 17 0 = k := by
  rw [maskOverdue, rf_srb_ne _ _ (by omega) (by omega) (by omega), rf_srf_same _ _ _ (by omega) (by omega)]
  exact Nat.mod_eq_of_lt h

theorem rb_maskOverdue (s : State) (n k : Nat) : (maskOverdue s n k).rb (aTRNG_MASK n) 30 = true :=
  rb_srb_same _ _ (by omega) true

theorem regsBut_maskOverdue (s : State) (n k : Nat) : RegsBut [aTRNG_MASK n] s (maskOverdue s n k) :=
  RegsBut.trans (regsBut_srf s (by simp) 17 0 k) (regsBut_srb _ (by simp) 30 true)

theorem rngState_maskOverdue (s : State) {n : Nat} (hn : n < 3) (k : Nat) : (maskOverdue s n k).rngState = s.rngState := by
  have h : aTRNG_STATUS ≠ aTRNG_MASK n := by unfold aTRNG_MASK aTRNG_STATUS; omega
  rw [State.rngState, maskOverdue, rf_srb_other _ h, rf_srf_other _ h]; rfl

@[simp] theorem trng_maskOverdue (s : State) (n k : Nat) : (maskOverdue s n k).trng = s.trng := by
  rw [maskOverdue, srb_trng, srf_trng]

theorem reseedDue_eq {s : State} {n : Nat} (hn : n < 3) (hr : s.resumed = true) :
    reseedDue n s = if Caller.mask n ∈ (maskOverdue s n 65536).trng.reqs ∨ (maskOverdue s n 65536).rngFailed = true
      then maskOverdue s n 65536
      else (maskOverdue s n 65536).setCallers ((maskOverdue s n 65536).trng.reqs ++ [.mask n]) := by
  unfold reseedDue maskOverdue
  rw [if_pos ⟨hn, hr⟩]

theorem reseedDue_asks {s : State} {n : Nat} (hn : n < 3) (hr : s.resumed = true) :
    ∃ t, exec (.reseedDue n) s = .next t ∧ t.rb (aTRNG_MASK n) 30 = true ∧ t.rf (aTRNG_MASK n) 17 0 = 65536 ∧
      (Caller.mask n ∈ t.trng.reqs ∨ s.rngState = 4) ∧ RegsBut [aTRNG_MASK n] s t := by
  refine ⟨reseedDue n s, rfl, ?_⟩
  have hrf := rf_maskOverdue s n (k := 65536) (by decide)
  have hrb := rb_maskOverdue s n 65536
  have hst := rngState_maskOverdue s hn 65536
  have hregs := regsBut_maskOverdue s n 65536
  rw [reseedDue_eq hn hr]
  generalize maskOverdue s n 65536 = u at *
  split
  case isTrue h =>
    refine ⟨hrb, hrf, ?_, hregs⟩
    rw [← hst]
    exact h.imp id of_decide_eq_true
  case isFalse =>
    have hc := regs_setCallers u (u.trng.reqs ++ [.mask n])
    exact ⟨(rb_congr hc _ _).trans hrb, (rf_congr hc _ _ _).trans hrf, Or.inl (by simp [State.setCallers]),
      RegsBut.trans hregs (regsBut_of_regs hc _)⟩

theorem generatorStopped_eq {s : State} {n : Nat} (hn : n < 3) (hr : s.resumed = true)
    (ho : s.rb (aTRNG_MASK n) 30 = true) :
    generatorStopped n s = (maskOverdue s n 131072).srb (aTRNG_MASK n) 29 true := by
  rw [generatorStopped, if_pos ⟨hn, hr, ho⟩, maskOverdue]

theorem generatorStopped_stops {s : State} {n : Nat} (hn : n < 3) (hr : s.resumed = true)
    (ho : s.rb (aTRNG_MASK n) 30 = true) :
    ∃ t, exec (.generatorStopped n) s = .next t ∧ t.rb (aTRNG_MASK n) 29 = true ∧ t.rb (aTRNG_MASK n) 30 = true ∧
      t.trng = s.trng ∧ RegsBut [aTRNG_MASK n] s t := by
  refine ⟨generatorStopped n s, rfl, ?_⟩
  rw [generatorStopped_eq hn hr ho]
  have hrb := rb_maskOverdue s n 131072
  have hregs := regsBut_maskOverdue s n 131072
  have htrng := trng_maskOverdue s n 131072
  generalize maskOverdue s n 131072 = u at *
  exact ⟨rb_srb_same u _ (by omega) true, (rb_srb_ne u _ (by omega) (by omega) true).trans hrb,
    (srb_trng ..).trans htrng,
    RegsBut.trans hregs (regsBut_srb u (by simp) 29 true)⟩

/-- Settles O28 (R314, R320 to R322). -/
theorem randomSourceStartUp : Obligations.RandomSourceStartUp :=
  ⟨fun _ => settlingEnd_starts,
    fun _ => startupTestsPassed_marks,
    fun _ _ => restart_restarts,
    fun _ _ => reseedDue_asks,
    fun _ _ => generatorStopped_stops⟩

end Proofs
end Sys2Proof

/-! PROOFS. Health failures of the random source (R311 to R314). -/
namespace Sys2Proof
namespace Proofs

open Sys2Proof.Machine Sys2Proof.Safety Sys2Proof.Laws

/-! ### The word of TRNG_HEALTH (R311) -/

theorem fld_w32 {n : Nat} (h : n < 2 ^ 32) (hi lo : Nat) : fld (w32 n) hi lo = n / 2 ^ lo % 2 ^ (hi - lo + 1) := by
  rw [fld, w32, BitVec.toNat_ofNat, Nat.mod_eq_of_lt h]

theorem bit_w32 {n : Nat} (h : n < 2 ^ 32) (i : Nat) : bit (w32 n) i = decide (n / 2 ^ i % 2 = 1) := by
  rw [bit_eq_fld, fld_w32 h]; simp

/-- TRNG_HEALTH after a failure: FAILS, the tests that failed, STARTUP and the sources. -/
def healthWord (fails : Nat) (apt rct st : Bool) (sources : Nat) : Word :=
  w32 (fails % 65536 * 65536 + b2n apt * 1024 + b2n rct * 512 + b2n st * 256 + sources % 256)

theorem b2n_le (b : Bool) : b2n b ≤ 1 := by cases b <;> decide

theorem healthWord_lt (fails : Nat) (apt rct st : Bool) (sources : Nat) :
    fails % 65536 * 65536 + b2n apt * 1024 + b2n rct * 512 + b2n st * 256 + sources % 256 < 2 ^ 32 := by
  have := b2n_le apt; have := b2n_le rct; have := b2n_le st; omega

section
variable (fails : Nat) (apt rct st : Bool) (sources : Nat)

theorem fld_healthWord_fails : fld (healthWord fails apt rct st sources) 31 16 = fails % 65536 := by
  rw [healthWord, fld_w32 (healthWord_lt ..)]
  have := b2n_le apt; have := b2n_le rct; have := b2n_le st; omega

theorem fld_healthWord_sources : fld (healthWord fails apt rct st sources) 7 0 = sources % 256 := by
  rw [healthWord, fld_w32 (healthWord_lt ..)]; omega

theorem bit_healthWord_st : bit (healthWord fails apt rct st sources) 8 = st := by
  rw [healthWord, bit_w32 (healthWord_lt ..)]
  refine Eq.trans ?_ (b2n_eq_one st)
  have := b2n_le st; congr 1; apply propext; omega

theorem bit_healthWord_rct : bit (healthWord fails apt rct st sources) 9 = rct := by
  rw [healthWord, bit_w32 (healthWord_lt ..)]
  refine Eq.trans ?_ (b2n_eq_one rct)
  have := b2n_le st; have := b2n_le rct; congr 1; apply propext; omega

theorem bit_healthWord_apt : bit (healthWord fails apt rct st sources) 10 = apt := by
  rw [healthWord, bit_w32 (healthWord_lt ..)]
  refine Eq.trans ?_ (b2n_eq_one apt)
  have := b2n_le st; have := b2n_le rct; have := b2n_le apt; congr 1; apply propext; omega

end

/-! ### A failure (R311 to R313) -/

/-- The state after a failure has been noted: the tests restart, and TRNG_HEALTH shows it. -/
def failureNoted (s : State) (sources : Nat) (rct apt : Bool) : State :=
  { s with trng := { s.trng with tests := [] } }.setReg aTRNG_HEALTH
    (healthWord (s.rf aTRNG_HEALTH 31 16 + 1) apt rct (decide (s.rngState = rngStartup)) sources)

theorem healthFailure_eq {s : State} (h : s.rngState = 2 ∨ s.rngState = 3) (sources : Nat) (rct apt : Bool) :
    healthFailure sources rct apt s =
      if 3 ≤ s.rf aTRNG_STATUS 5 4 + 1 then (failureNoted s sources rct apt).rngDeclare
      else (failureNoted s sources rct apt).srf aTRNG_STATUS 5 4 (s.rf aTRNG_STATUS 5 4 + 1) := by
  unfold healthFailure
  exact if_pos h

/-- TRNG_HEALTH shows the failure. -/
structure HealthShows (s t : State) (sources : Nat) (rct apt : Bool) : Prop where
  fails : t.rf aTRNG_HEALTH 31 16 = (s.rf aTRNG_HEALTH 31 16 + 1) % 65536
  sources : t.rf aTRNG_HEALTH 7 0 = sources % 256
  st : t.rb aTRNG_HEALTH 8 = decide (s.rngState = 2)
  rct : t.rb aTRNG_HEALTH 9 = rct
  apt : t.rb aTRNG_HEALTH 10 = apt

theorem healthShows_of_reg {s t : State} {sources : Nat} {rct apt : Bool}
    (h : t.reg aTRNG_HEALTH = (failureNoted s sources rct apt).reg aTRNG_HEALTH) :
    HealthShows s t sources rct apt := by
  rw [failureNoted, reg_setReg_same] at h
  refine ⟨?_, ?_, ?_, ?_, ?_⟩ <;> simp only [State.rf, State.rb] <;> rw [h]
  · exact fld_healthWord_fails ..
  · exact fld_healthWord_sources ..
  · exact bit_healthWord_st ..
  · exact bit_healthWord_rct ..
  · exact bit_healthWord_apt ..

@[simp] theorem trng_failureNoted (s : State) (src : Nat) (rct apt : Bool) :
    (failureNoted s src rct apt).trng = { s.trng with tests := [] } := rfl

@[simp] theorem peat_failureNoted (s : State) (src : Nat) (rct apt : Bool) : (failureNoted s src rct apt).peat = s.peat := rfl

@[simp] theorem envm_failureNoted (s : State) (src : Nat) (rct apt : Bool) : (failureNoted s src rct apt).envm = s.envm := rfl

theorem regsBut_failureNoted (s : State) (sources : Nat) (rct apt : Bool) :
    RegsBut [aTRNG_HEALTH] s (failureNoted s sources rct apt) :=
  RegsBut.trans (t := { s with trng := { s.trng with tests := [] } }) (regsBut_of_regs rfl _) (regsBut_setReg _ (by simp) _)

theorem rf_status_failureNoted (s : State) (sources : Nat) (rct apt : Bool) (hi lo : Nat) :
    (failureNoted s sources rct apt).rf aTRNG_STATUS hi lo = s.rf aTRNG_STATUS hi lo := by
  unfold State.rf
  rw [regsBut_failureNoted s sources rct apt aTRNG_STATUS (by decide) (by unfold Counted aTRNG_STATUS; omega)]

/-- A failure while RUN is below 2 advances RUN, and nothing else happens. -/
theorem failure_counts {s : State} (hs : s.rngState = 2 ∨ s.rngState = 3) (hrun : s.rf aTRNG_STATUS 5 4 < 2)
    (hserved : s.trng.served = []) (hkis : s.peat.kisDue = false) (hentry : s.envm.entryDue = none)
    (src : Nat) (rct apt : Bool) :
    HealthShows s (healthFailure src rct apt s).goesOn src rct apt ∧
      (healthFailure src rct apt s).goesOn.rf aTRNG_STATUS 5 4 = s.rf aTRNG_STATUS 5 4 + 1 ∧
      (healthFailure src rct apt s).goesOn.rngState = s.rngState ∧
      (healthFailure src rct apt s).goesOn.trng = { s.trng with tests := [] } ∧
      RegsBut [aTRNG_STATUS, aTRNG_HEALTH] s (healthFailure src rct apt s).goesOn := by
  rw [healthFailure_eq hs, if_neg (by omega), goesOn_none (by simp [hserved]) (by simp [hkis]) (by simp [hentry])]
  have hst := rf_status_failureNoted s src rct apt 2 0
  have hregs := regsBut_failureNoted s src rct apt
  refine ⟨healthShows_of_reg (reg_setReg_ne _ (by decide) _), ?_, ?_, by simp, ?_⟩
  · rw [rf_srf_same _ _ _ (by omega) (by omega)]
    exact Nat.mod_eq_of_lt (by omega)
  · exact (rf_srf_ne _ _ _ (by omega) (by omega) (by omega) (by omega)).trans hst
  · exact RegsBut.trans (RegsBut.mono hregs (by simp)) (regsBut_srf _ (by simp) 5 4 _)

/-! ### The declared failure (R313) -/

/-- What a declared failure leaves: every request ended, those of drawers with RNG_FAIL. -/
theorem endPort_frame (s : State) (c : Byte) : ∃ l, (s.endPort c).trng = { s.trng with reqs := l } ∧
    (s.endPort c).peat = s.peat ∧ (s.endPort c).envm = s.envm ∧ (s.endPort c).slots = s.slots ∧
    (s.endPort c).sess = s.sess ∧ RegsBut [aTRNG_PORT] s (s.endPort c) ∧
    (s.trng.reqs.any isPort = true → (s.endPort c).rf aTRNG_PORT 31 24 = c.toNat) := by
  unfold State.endPort
  split
  case isTrue h =>
    refine ⟨s.trng.reqs.filter fun c => !isPort c, ?_, ?_, ?_, ?_, ?_, ?_, fun _ => ?_⟩
    iterate 5 · simp -implicitDefEqProofs only [ended_trng, ended_peat, ended_envm, ended_slots, ended_sess, srf_trng, srf_peat,
        srf_envm, srf_slots, srf_sess, State.setCallers]
    · exact RegsBut.trans (RegsBut.trans (regsBut_of_regs (regs_setCallers ..) _) (regsBut_srf _ (by simp) 31 24 _))
        (regsBut_ended _ _ (by omega) _)
    · rw [rf_ended _ _ (by omega) not_prfAddr_trngPort, rf_srf_portStatus]
  case isFalse h => exact ⟨s.trng.reqs, rfl, rfl, rfl, rfl, rfl, RegsBut.refl _ s, fun h' => absurd h' h⟩

/-- What a declared failure leaves: no request waits, and what waited for a draw has RNG_FAIL for it. -/
theorem rngDeclare_frame (s : State) :
    s.rngDeclare.rngState = 4 ∧
    s.rngDeclare.trng = { s.trng with reqs := [], served := s.trng.served ++ failedDraws cRngFail s.trng.reqs } ∧
    Irq.rngFailed ∈ s.rngDeclare.irqs ∧ s.rngDeclare.peat = s.peat ∧ s.rngDeclare.envm = s.envm ∧
    s.rngDeclare.slots = s.slots ∧ s.rngDeclare.sess = s.sess ∧ RegsBut [aTRNG_STATUS, aTRNG_PORT] s s.rngDeclare ∧
    (s.trng.reqs.any isPort = true → s.rngDeclare.rf aTRNG_PORT 31 24 = cRngFail.toNat) := by
  obtain ⟨l, htrng, hpeat, henvm, hslots, hsess, hregs, hport⟩ := endPort_frame (s.setRng rngDeclared) cRngFail
  have hst := rngState_setRng s (v := rngDeclared) (by decide)
  have hset : RegsBut [aTRNG_STATUS] s (s.setRng rngDeclared) := regsBut_srf s (by simp) 2 0 _
  rw [trng_setRng] at htrng hport
  unfold State.rngDeclare State.endRequests
  rw [trng_setRng]
  generalize (s.setRng rngDeclared).endPort cRngFail = u at *
  refine ⟨?_, ?_, ?_, hpeat, henvm, hslots, hsess, ?_, hport⟩
  · rw [← show rngDeclared = 4 from rfl, ← hst]
    exact congrArg (fld · 2 0) (hregs aTRNG_STATUS (by decide) (by unfold Counted aTRNG_STATUS; omega))
  · simp only [State.raise, htrng]
  · unfold State.raise; dsimp only; split <;> simp_all
  · exact RegsBut.trans (RegsBut.trans (RegsBut.mono hset (by simp)) (RegsBut.mono hregs (by simp)))
      (regsBut_of_regs rfl _)

/-- A third failure in a row declares the source failed. -/
theorem healthFailure_third {s : State} (hs : s.rngState = 2 ∨ s.rngState = 3) (hrun : 2 ≤ s.rf aTRNG_STATUS 5 4)
    (src : Nat) (rct apt : Bool) :
    healthFailure src rct apt s = (failureNoted s src rct apt).rngDeclare := by
  rw [healthFailure_eq hs, if_pos (by omega)]

theorem rf_health_rngDeclare (s : State) : s.rngDeclare.rf aTRNG_HEALTH 31 16 = s.rf aTRNG_HEALTH 31 16 := by
  obtain ⟨-, -, -, -, -, -, -, hregs, -⟩ := rngDeclare_frame s
  unfold State.rf
  rw [hregs aTRNG_HEALTH (by decide) (by unfold Counted aTRNG_HEALTH; omega)]

theorem failure_declares {s : State} (hs : s.rngState = 2 ∨ s.rngState = 3) (hrun : 2 ≤ s.rf aTRNG_STATUS 5 4)
    (hdraws : failedDraws cRngFail s.trng.reqs = []) (hserved : s.trng.served = []) (hkis : s.peat.kisDue = false)
    (hentry : s.envm.entryDue = none) (src : Nat) (rct apt : Bool) :
    ∃ t, exec (.healthFailure src rct apt) s = .next t ∧
      t.rf aTRNG_HEALTH 31 16 = (s.rf aTRNG_HEALTH 31 16 + 1) % 65536 ∧ t.rngState = 4 ∧ t.trng.reqs = [] ∧
      t.trng.out = s.trng.out ∧ Irq.rngFailed ∈ t.irqs ∧
      (s.trng.reqs.any isPort = true → t.rf aTRNG_PORT 31 24 = cRngFail.toNat) ∧
      RegsBut [aTRNG_STATUS, aTRNG_HEALTH, aTRNG_PORT] s t := by
  refine ⟨(healthFailure src rct apt s).goesOn, rfl, ?_⟩
  rw [healthFailure_third hs hrun]
  have hhealth := (healthShows_of_reg (s := s) (t := failureNoted s src rct apt) rfl).fails
  have hnoted := regsBut_failureNoted s src rct apt
  have htrng := trng_failureNoted s src rct apt
  have hpeat := peat_failureNoted s src rct apt
  have henvm := envm_failureNoted s src rct apt
  generalize failureNoted s src rct apt = u at *
  obtain ⟨hst, htrng', hirq, hpeat', henvm', -, -, hregs, hport⟩ := rngDeclare_frame u
  rw [htrng] at htrng' hport
  have hnone : u.rngDeclare.trng.served = [] := by
    rw [htrng']; exact (congrArg₂ (· ++ ·) hserved hdraws).trans rfl
  rw [goesOn_none hnone (by rw [hpeat', hpeat, hkis]) (by rw [henvm', henvm, hentry])]
  exact ⟨(rf_health_rngDeclare u).trans hhealth, hst, by rw [htrng'], by rw [htrng'], hirq, hport,
    RegsBut.trans (RegsBut.mono hnoted (by simp)) (RegsBut.mono hregs (by simp))⟩

/-! ### A GENERATE that the failure ends (R299, R313) -/

theorem kstGoesOn_failed {s : State} {k : KstRun} {c : Byte} {b : Bytes} (hk : s.peat.kst = some k)
    (hd : s.servedTo .keyStore = some (c, b)) (hc : c ≠ cOk) :
    s.kstGoesOn = (s.forgetDraw .keyStore).kstDone k c := by
  unfold State.kstGoesOn State.draw
  simp only [hk, hd, if_neg hc, Drawn.next]

theorem kstDone_unmixed {k : KstRun} (h : k.mixed = false) (s : State) (c : Byte) :
    s.kstDone k c = (s.setKst none).kstEnd c := by
  rw [State.kstDone, h]; rfl

/-- What the end of a key-store command changes. -/
theorem kstEnd_frame (s : State) (c : Byte) : RegsOnly s (s.kstEnd c) ∧
    (s.kstEnd c).reg aKST_RESULT = w32 (c.toNat * 2 ^ 24 + 1) ∧
    (s.kstEnd c).reg aKST_STATUS = setFld (s.reg aKST_STATUS) 0 0 0 ∧
    RegsBut [aKST_RESULT, aKST_STATUS] s (s.kstEnd c) := by
  have hr : ¬ prfAddr aKST_RESULT := by unfold prfAddr aKST_RESULT; omega
  have hst : ¬ prfAddr aKST_STATUS := by unfold prfAddr aKST_STATUS; omega
  unfold State.kstEnd
  refine ⟨RegsOnly.trans (RegsOnly.trans (regsOnly_setReg ..) (regsOnly_setReg ..)) (regsOnly_ended ..), ?_, ?_, ?_⟩
  · rw [reg_ended _ _ _ (by omega) hr, reg_setReg_same]
  · rw [reg_ended _ _ _ (by omega) hst, reg_setReg_ne _ (by decide), reg_srb, if_pos rfl]; rfl
  · exact RegsBut.trans (RegsBut.trans (regsBut_srb _ (by simp) 0 false) (regsBut_setReg _ (by simp) _))
      (regsBut_ended _ _ (by omega) _)

/-- Where the port has no request, a declared failure changes STATE alone of the registers. -/
theorem regsBut_rngDeclare_noPort {s : State} (h : s.trng.reqs.any isPort = false) :
    RegsBut [aTRNG_STATUS] s s.rngDeclare := by
  have hp : (s.setRng rngDeclared).endPort cRngFail = s.setRng rngDeclared := by
    rw [State.endPort, trng_setRng, h]; rfl
  unfold State.rngDeclare State.endRequests
  rw [hp]
  exact RegsBut.trans (regsBut_srf s (by simp) 2 0 _) (regsBut_of_regs rfl _)

@[simp] theorem regs_forgetDraw (s : State) (w : Drawer) : (s.forgetDraw w).regs = s.regs := rfl

@[simp] theorem regs_setKst (s : State) (k : Option KstRun) : (s.setKst k).regs = s.regs := rfl

/-- A GENERATE that its draw fails ends with that code, and its request is forgotten. -/
theorem kstGoesOn_failed_frame {s : State} {k : KstRun} {c : Byte} {b : Bytes} (hk : s.peat.kst = some k)
    (hmixed : k.mixed = false) (hd : s.servedTo .keyStore = some (c, b)) (hc : c ≠ cOk) :
    s.kstGoesOn.trng = (s.forgetDraw .keyStore).trng ∧ s.kstGoesOn.peat = { s.peat with kst := none } ∧
    s.kstGoesOn.slots = s.slots ∧ s.kstGoesOn.sess = s.sess ∧ s.kstGoesOn.envm = s.envm ∧
    s.kstGoesOn.reg aKST_RESULT = w32 (c.toNat * 2 ^ 24 + 1) ∧ s.kstGoesOn.rb aKST_STATUS 0 = false ∧
    RegsBut [aKST_RESULT, aKST_STATUS] s s.kstGoesOn := by
  rw [kstGoesOn_failed hk hd hc, kstDone_unmixed hmixed]
  obtain ⟨honly, hres, hst, hregs⟩ := kstEnd_frame ((s.forgetDraw .keyStore).setKst none) c
  generalize ((s.forgetDraw .keyStore).setKst none).kstEnd c = t at *
  refine ⟨?_, ?_, ?_, ?_, ?_, hres, ?_, RegsBut.trans (regsBut_of_regs (by simp) _) hregs⟩
  iterate 5 · rw [honly]; rfl
  · unfold State.rb; rw [hst]; exact bit_setFld_same _ (by omega) false

/-- Of one drawer served, that drawer alone goes on. -/
theorem drawsServed_one {s : State} {w : Drawer} {c : Byte} {b : Bytes} (h : s.trng.served = [(w, c, b)]) :
    s.drawsServed = s.drawerGoesOn w := by
  unfold State.drawsServed; rw [h]; rfl

theorem servedTo_one {s : State} {w : Drawer} {c : Byte} {b : Bytes} (h : s.trng.served = [(w, c, b)]) :
    s.servedTo w = some (c, b) := by
  unfold State.servedTo; rw [h]; simp

theorem generate_failed {s : State} {k : KstRun} {need : Nat} {got : Bytes} (hs : s.rngState = 2 ∨ s.rngState = 3)
    (hrun : 2 ≤ s.rf aTRNG_STATUS 5 4) (hk : s.peat.kst = some k) (hmixed : k.mixed = false)
    (hreqs : s.trng.reqs = [.draw .keyStore need got]) (hserved : s.trng.served = []) (hkis : s.peat.kisDue = false)
    (hentry : s.envm.entryDue = none) (src : Nat) (rct apt : Bool) :
    ∃ t, exec (.healthFailure src rct apt) s = .next t ∧ t.rngState = 4 ∧ t.trng.reqs = [] ∧ t.peat.kst = none ∧
      t.slots = s.slots ∧ t.sess = s.sess ∧ t.envm = s.envm ∧
      t.reg aKST_RESULT = w32 (cRngFail.toNat * 2 ^ 24 + 1) ∧ t.rb aKST_STATUS 0 = false ∧
      RegsBut [aTRNG_STATUS, aTRNG_HEALTH, aKST_RESULT, aKST_STATUS] s t := by
  refine ⟨(healthFailure src rct apt s).goesOn, rfl, ?_⟩
  rw [healthFailure_third hs hrun]
  have hnoted := regsBut_failureNoted s src rct apt
  have htrng := trng_failureNoted s src rct apt
  have hpeat := peat_failureNoted s src rct apt
  have henvm := envm_failureNoted s src rct apt
  have hslots : (failureNoted s src rct apt).slots = s.slots := rfl
  have hsess : (failureNoted s src rct apt).sess = s.sess := rfl
  generalize failureNoted s src rct apt = u at *
  have hureqs : u.trng.reqs = [.draw .keyStore need got] := by rw [htrng]; exact hreqs
  obtain ⟨hst, htrng', -, hpeat', henvm', hslots', hsess', -, -⟩ := rngDeclare_frame u
  have hregs := regsBut_rngDeclare_noPort (s := u) (by rw [hureqs]; rfl)
  have hserved' : u.rngDeclare.trng.served = [(.keyStore, cRngFail, [])] := by
    rw [htrng', hureqs, htrng]; exact (congrArg (· ++ _) hserved).trans rfl
  have hreqs' : u.rngDeclare.trng.reqs = [] := by rw [htrng']
  generalize u.rngDeclare = v at *
  obtain ⟨gtrng, gpeat, gslots, gsess, genvm, gres, gbusy, gregs⟩ := kstGoesOn_failed_frame (s := v)
    (by rw [hpeat', hpeat, hk]) hmixed (servedTo_one hserved') (by decide)
  have hgoes : v.goesOn = v.kstGoesOn := by
    rw [State.goesOn, drawsServed_one hserved', show v.drawerGoesOn .keyStore = v.kstGoesOn from rfl]
    exact generateDue_none (by rw [gpeat, hpeat', hpeat]; exact hkis) (by rw [genvm, henvm', henvm, hentry])
  rw [hgoes]
  refine ⟨?_, ?_, by rw [gpeat], by rw [gslots, hslots', hslots], by rw [gsess, hsess', hsess],
    by rw [genvm, henvm', henvm], gres, gbusy, ?_⟩
  · rw [← hst]
    exact congrArg (fld · 2 0) (gregs aTRNG_STATUS (by decide) (by unfold Counted aTRNG_STATUS; omega))
  · rw [gtrng, State.forgetDraw, hreqs']; rfl
  · exact RegsBut.trans (RegsBut.mono hnoted (by simp)) (RegsBut.trans (RegsBut.mono hregs (by simp))
      (RegsBut.mono gregs (by simp)))

/-! ### A pool that fails its tests (R311) -/

theorem any_or_any {α : Type} (l : List α) (f g : α → Bool) : (l.any f || l.any g) = l.any fun x => f x || g x := by
  induction l with
  | nil => rfl
  | cons x l ih => simp only [List.any_cons, ← ih]; cases f x <;> cases g x <;> simp

theorem poolComplete_failed {s : State} {raw : Bytes}
    (hs : s.rngState = 3 ∨ (s.rngState = 2 ∧ s.trng.testsPassed = true))
    (h : ((s.testPool raw).any fun x => x.2.1 || x.2.2) = true) :
    poolComplete raw s = healthFailure (failedSources (s.testPool raw)) ((s.testPool raw).any fun x => x.2.1)
      ((s.testPool raw).any fun x => x.2.2) s := by
  unfold poolComplete
  exact (if_pos hs).trans (if_pos ((any_or_any ..).trans h))

/-- Settles O29 (R311 to R313). -/
theorem healthFailureCounts : Obligations.HealthFailureCounts := by
  refine ⟨fun s src rct apt hs hrun hserved hkis hentry => ?_,
    fun s src rct apt hs hrun hdraws hserved hkis hentry => failure_declares hs hrun hdraws hserved hkis hentry src rct apt,
    fun s src rct apt k need got hs hrun hk hmixed hreqs hserved hkis hentry =>
      generate_failed hs hrun hk hmixed hreqs hserved hkis hentry src rct apt,
    fun s raw l hs hl hfail hrun hserved hkis hentry => ?_⟩
  · obtain ⟨hshows, hrest⟩ := failure_counts hs hrun hserved hkis hentry src rct apt
    exact ⟨_, rfl, hshows.fails, hshows.sources, hshows.st, hshows.rct, hshows.apt, hrest⟩
  · subst hl
    have hs' : s.rngState = 2 ∨ s.rngState = 3 := hs.symm.imp And.left id
    obtain ⟨hshows, hrest⟩ := failure_counts hs' hrun hserved hkis hentry (failedSources (s.testPool raw))
      ((s.testPool raw).any fun x => x.2.1) ((s.testPool raw).any fun x => x.2.2)
    rw [← poolComplete_failed hs hfail] at hshows hrest
    exact ⟨_, rfl, hshows.fails, hshows.sources, hshows.rct, hshows.apt, hrest⟩

end Proofs
end Sys2Proof

/-! PROOFS. Commands of the key store that run at once (R295, R299 to R306). -/
namespace Sys2Proof
namespace Proofs

open Sys2Proof.Machine Sys2Proof.Safety Sys2Proof.Laws

/-! ### What an access and a register write leave alone -/

/-- Nothing but the registers and what the monitors have counted differs. -/
def RegsAndCounts (s t : State) : Prop := t = { s with regs := t.regs, prfAcc := t.prfAcc }

namespace RegsAndCounts

theorem of_regsOnly {s t : State} (h : RegsOnly s t) : RegsAndCounts s t := by
  unfold RegsAndCounts; rw [RegsOnly] at h; rw [h]

theorem of_access (s : State) (m r : Master) (u : Bool) (a k : Nat) : RegsAndCounts s (s.access m r u a k) := by
  unfold RegsAndCounts
  conv_lhs => rw [access_only]
  rw [access_regs]

/-- A view that neither the registers nor the counts enter is as before. -/
theorem view {β : Sort*} {s t : State} (f : State → β) (h : RegsAndCounts s t)
    (hf : ∀ r p, f { s with regs := r, prfAcc := p } = f s) : f t = f s := by
  rw [h]; exact hf _ _

theorem trans {s t u : State} (h : RegsAndCounts s t) (h' : RegsAndCounts t u) : RegsAndCounts s u := by
  unfold RegsAndCounts at h'
  rw [h] at h'
  exact h'

end RegsAndCounts

theorem bytesKept_of_eq {s t : State} (hm : t.mem = s.mem) (hf : t.flash = s.flash) : BytesKept s t := by
  intro a; rw [hm, hf]; exact ⟨rfl, rfl⟩

theorem BytesKept.trans {s t u : State} (h : BytesKept s t) (h' : BytesKept t u) : BytesKept s u :=
  fun a => ⟨(h' a).1.trans (h a).1, (h' a).2.trans (h a).2⟩

theorem BytesKept.of_regsAndCounts {s t : State} (h : RegsAndCounts s t) : BytesKept s t :=
  bytesKept_of_eq (h.view (·.mem) fun _ _ => rfl) (h.view (·.flash) fun _ _ => rfl)

/-! ### A command's start and end (R295) -/

/-- The state in which a command of the key store runs: OP is noted, and KST_RESULT shows PENDING. -/
def kstReady (s : State) (m : Master) (op : Nat) : State :=
  ((s.access m (rightsOf m) false aKST_CMD 2).srf aKST_CMD 23 16 op).setReg aKST_RESULT (w32 (cPending.toNat * 2 ^ 24))

theorem kstReady_only (s : State) (m : Master) (op : Nat) : RegsAndCounts s (kstReady s m op) :=
  (RegsAndCounts.of_access ..).trans (RegsAndCounts.of_regsOnly (RegsOnly.trans (regsOnly_setReg ..) (regsOnly_setReg ..)))

theorem reg_kstReady (s : State) (m : Master) (op : Nat) {a : Nat} (h1 : a ≠ aKST_CMD) (h2 : a ≠ aKST_RESULT) :
    (kstReady s m op).reg a = s.reg a := by
  rw [kstReady, reg_setReg_ne _ h2, reg_srf, if_neg h1, reg_access]

theorem reg_cmd_kstReady (s : State) (m : Master) (op : Nat) :
    (kstReady s m op).reg aKST_CMD = setFld (s.reg aKST_CMD) 23 16 op := by
  rw [kstReady, reg_setReg_ne _ (by decide), reg_srf, if_pos rfl, reg_access]

theorem reg_arg_kstReady (s : State) (m : Master) (op n : Nat) :
    (kstReady s m op).reg (aKST_ARG n) = s.reg (aKST_ARG n) :=
  reg_kstReady s m op (by unfold aKST_ARG aKST_CMD; omega) (by unfold aKST_ARG aKST_RESULT; omega)

theorem regsBut_kstReady (s : State) (m : Master) (op : Nat) : RegsBut [aKST_CMD, aKST_RESULT] s (kstReady s m op) :=
  RegsBut.trans (RegsBut.trans (regsBut_access s _ _ _ _ _ _) (regsBut_srf _ (by simp) 23 16 op))
    (regsBut_setReg _ (by simp) _)

theorem kstGo_idle {s : State} (h : s.peat.kst = none) (op : Nat) (r : Bytes) :
    kstGo op r s =
      if op = 0x01 then kstGenerate ((s.srf aKST_CMD 23 16 op).setReg aKST_RESULT (w32 (cPending.toNat * 2 ^ 24)))
        (((s.srf aKST_CMD 23 16 op).setReg aKST_RESULT (w32 (cPending.toNat * 2 ^ 24))).reg (aKST_ARG 0))
        (((s.srf aKST_CMD 23 16 op).setReg aKST_RESULT (w32 (cPending.toNat * 2 ^ 24))).reg (aKST_ARG 1))
      else
        (kstRun ((s.srf aKST_CMD 23 16 op).setReg aKST_RESULT (w32 (cPending.toNat * 2 ^ 24))) op r).2.kstEnd
          (kstRun ((s.srf aKST_CMD 23 16 op).setReg aKST_RESULT (w32 (cPending.toNat * 2 ^ 24))) op r).1 := by
  unfold kstGo
  exact if_neg (by rw [srf_peat, h]; decide)

/-- A granted command other than GENERATE, while none runs, runs at once and ends. -/
theorem owned_kstGo {s : State} {m : Master} (hg : Grants s m aKST_CMD) (hk : s.peat.kst = none) {op : Nat} (hop : op ≠ 1)
    (r : Bytes) :
    s.owned m aKST_CMD (kstGo op r) = (kstRun (kstReady s m op) op r).2.kstEnd (kstRun (kstReady s m op) op r).1 := by
  rw [owned_granted hg, kstGo_idle (by rw [access_peat, hk]), if_neg hop]
  rfl

/-- What a run that changes no register of the command's own leaves at its end. -/
theorem kstEnd_ends {s x : State} {m : Master} {op : Nat} {l : List Nat} (c : Byte)
    (hx : RegsBut l (kstReady s m op) x) (hl : ∀ a ∈ l, a ∉ kstRegs) :
    KstEnds s (x.kstEnd c) op c ∧ RegsBut (kstRegs ++ l) s (x.kstEnd c) := by
  obtain ⟨-, hres, hst, hregs⟩ := kstEnd_frame x c
  have hcmd : (x.kstEnd c).reg aKST_CMD = x.reg aKST_CMD :=
    hregs _ (by decide) (by unfold Counted aKST_CMD; omega)
  have hxcmd := hx aKST_CMD (fun h => hl _ h (by simp)) (by unfold Counted aKST_CMD; omega)
  have hxst := hx aKST_STATUS (fun h => hl _ h (by simp)) (by unfold Counted aKST_STATUS; omega)
  refine ⟨⟨?_, hres, ?_⟩, ?_⟩
  · rw [hcmd, hxcmd, reg_cmd_kstReady]
  · rw [hst, hxst, reg_kstReady s m op (by decide) (by decide)]
  · exact RegsBut.trans (RegsBut.mono (regsBut_kstReady s m op) (by simp [kstRegs]))
      (RegsBut.trans (RegsBut.mono hx (by simp +contextual)) (RegsBut.mono hregs (by simp [kstRegs])))

/-- The rest of the state at the end of a command is as the run left it. -/
theorem kstEnd_only (x : State) (c : Byte) : RegsAndCounts x (x.kstEnd c) :=
  RegsAndCounts.of_regsOnly (kstEnd_frame x c).1

/-! ### The checks of a key reference (R295) -/

section
variable {s t : State} (hsess : t.sess = s.sess) (hslots : t.slots = s.slots)

include hsess in
theorem ses_congr (n : Nat) : t.ses n = s.ses n := by unfold State.ses; rw [hsess]

include hslots in
theorem key_congr (n : Nat) : t.key n = s.key n := by unfold State.key; rw [hslots]

include hsess in
theorem sesCheck_congr {ch : Nat} (hch : 124 ≤ ch) (r : Word) : t.sesCheck ch r = s.sesCheck ch r := by
  unfold State.sesCheck
  rw [ses_congr hsess, if_pos hch, if_pos hch]

include hsess hslots in
theorem keyCheck_congr {ch : Nat} (hch : 124 ≤ ch) (r : Word) (uses : Nat) :
    t.keyCheck ch r uses = s.keyCheck ch r uses := by
  have hp : ∀ u : State, u.chPeat ch = true := fun u => by simp [State.chPeat, hch]
  unfold State.keyCheck
  rw [sesCheck_congr hsess hch, key_congr hslots, hp, hp]

include hsess hslots in
theorem keyBytes_congr (r : Word) : t.keyBytes r = s.keyBytes r := by
  unfold State.keyBytes
  rw [ses_congr hsess, key_congr hslots]

end

theorem ses_modSes_same (s : State) (n : Nat) (f : Session → Session) : (s.modSes n f).ses n = f (s.ses n) :=
  tget_tset_same ..

/-! ### The commands -/

/-- A granted command, while none runs: there is a state u, like s but for the command's registers, in which it runs; where
that changes no register and no byte, the command ends with the status and the state of its run. -/
theorem kst_command {s : State} {m : Master} (hg : Grants s m aKST_CMD) (hk : s.peat.kst = none) {op : Nat} (hop : op ≠ 1)
    (r : Bytes) :
    ∃ u, RegsAndCounts s u ∧ (∀ n, u.reg (aKST_ARG n) = s.reg (aKST_ARG n)) ∧
      ∀ c x, kstRun u op r = (c, x) → x.regs = u.regs → x.mem = u.mem → x.flash = u.flash →
        ∃ t, done (s.owned m aKST_CMD (kstGo op r)) = .next t ∧ RegsAndCounts x t ∧ KstEnds s t op c ∧ RegsBut kstRegs s t ∧
          BytesKept s t := by
  refine ⟨kstReady s m op, kstReady_only s m op, reg_arg_kstReady s m op, fun c x hrun hregs hmem hflash => ?_⟩
  have h := owned_kstGo hg hk hop r
  rw [hrun] at h
  obtain ⟨hends, hbut⟩ := kstEnd_ends c (regsBut_of_regs hregs []) (by simp)
  exact ⟨_, congrArg done h, kstEnd_only x c, hends, hbut, BytesKept.trans (BytesKept.of_regsAndCounts (kstReady_only s m op))
    (BytesKept.trans (bytesKept_of_eq hmem hflash) (BytesKept.of_regsAndCounts (kstEnd_only x c)))⟩

section
variable {s : State} {m : Master} (hg : Grants s m aKST_CMD) (hk : s.peat.kst = none)
include hg hk

theorem loadEntry_copies {e : Entry}
    (hform : keyForm (s.reg (aKST_ARG 0)) = cOk) (hses : kSes (s.reg (aKST_ARG 0)) = true)
    (hn : (s.reg (aKST_ARG 1)).toNat ≤ 63) (hcheck : s.sesCheck 124 (s.reg (aKST_ARG 0)) = cOk)
    (he : tfind s.envm.entries (s.reg (aKST_ARG 1)).toNat = some e) :
    ∃ t, exec (.loadEntry m) s = .next t ∧
      t.ses (kSlot (s.reg (aKST_ARG 0))) = { s.ses (kSlot (s.reg (aKST_ARG 0))) with
        slot := patch (s.ses (kSlot (s.reg (aKST_ARG 0)))).slot (16 * kOff (s.reg (aKST_ARG 0))) (slice e.key 0 16) } ∧
      t.slots = s.slots ∧ t.envm = s.envm ∧ KstEnds s t 5 cOk ∧ RegsBut kstRegs s t ∧ BytesKept s t := by
  obtain ⟨u, hu, harg, hrun⟩ := kst_command hg hk (op := 5) (by omega) []
  have henvm : u.envm = s.envm := hu.view (·.envm) fun _ _ => rfl
  have hsess : u.sess = s.sess := hu.view (·.sess) fun _ _ => rfl
  have hload : kstLoadEntry u (s.reg (aKST_ARG 0)) (s.reg (aKST_ARG 1)) =
      (cOk, u.keyWrite true (kSlot (s.reg (aKST_ARG 0))) (16 * kOff (s.reg (aKST_ARG 0))) (slice e.key 0 16)) := by
    rw [kstLoadEntry, if_neg (by simp [hform]), if_neg (by simp [hses]; omega),
      if_neg (by rw [sesCheck_congr hsess (by omega)]; simp [hcheck]), henvm, he]
  rw [← harg 0, ← harg 1] at hload
  obtain ⟨t, ht, honly, hends⟩ := hrun _ _ hload rfl rfl rfl
  rw [harg 0] at honly
  refine ⟨t, ht, ?_, ?_, ?_, hends⟩
  · rw [honly.view (·.ses _) fun _ _ => rfl, State.keyWrite, if_pos rfl, ses_modSes_same, ses_congr hsess]
  · exact (honly.view (·.slots) fun _ _ => rfl).trans (hu.view (·.slots) fun _ _ => rfl)
  · exact (honly.view (·.envm) fun _ _ => rfl).trans henvm

theorem storeEntry_stores {e : Entry} (hcheck : s.keyCheck 124 (s.reg (aKST_ARG 0)) 0 = cOk)
    (hn : (s.reg (aKST_ARG 1)).toNat ≤ 63) (hlen : kLen (s.reg (aKST_ARG 0)) = 1)
    (he : tfind s.envm.entries (s.reg (aKST_ARG 1)).toNat = some e) :
    ∃ t, exec (.storeEntry m) s = .next t ∧
      tfind t.envm.entries (s.reg (aKST_ARG 1)).toNat = some { e with key := s.keyBytes (s.reg (aKST_ARG 0)) } ∧
      t.slots = s.slots ∧ t.sess = s.sess ∧ KstEnds s t 6 cOk ∧ RegsBut kstRegs s t ∧ BytesKept s t := by
  obtain ⟨u, hu, harg, hrun⟩ := kst_command hg hk (op := 6) (by omega) []
  have henvm : u.envm = s.envm := hu.view (·.envm) fun _ _ => rfl
  have hsess : u.sess = s.sess := hu.view (·.sess) fun _ _ => rfl
  have hslots : u.slots = s.slots := hu.view (·.slots) fun _ _ => rfl
  have hstore : kstStoreEntry u (s.reg (aKST_ARG 0)) (s.reg (aKST_ARG 1)) = (cOk, { u with envm := { u.envm with
      entries := tput u.envm.entries (s.reg (aKST_ARG 1)).toNat { e with key := u.keyBytes (s.reg (aKST_ARG 0)) } } }) := by
    rw [kstStoreEntry, if_neg (by rw [keyCheck_congr hsess hslots (by omega)]; simp [hcheck]),
      if_neg (by simp [hlen]; omega), if_neg (by omega), henvm, he]
  rw [← harg 0, ← harg 1] at hstore
  obtain ⟨t, ht, honly, hends⟩ := hrun _ _ hstore rfl rfl rfl
  rw [harg 0, harg 1, keyBytes_congr hsess hslots] at honly
  refine ⟨t, ht, ?_, (honly.view (·.slots) fun _ _ => rfl).trans hslots, (honly.view (·.sess) fun _ _ => rfl).trans hsess, hends⟩
  rw [honly.view (·.envm) fun _ _ => rfl]
  exact tfind_tput_same ..

theorem storeEntry_kis (hcheck : s.keyCheck 124 (s.reg (aKST_ARG 0)) 0 = cOk)
    (hn : s.reg (aKST_ARG 1) = 64) (hlen : kLen (s.reg (aKST_ARG 0)) = 1) :
    ∃ t, exec (.storeEntry m) s = .next t ∧ t.envm = { s.envm with kis := some (s.keyBytes (s.reg (aKST_ARG 0))) } ∧
      t.slots = s.slots ∧ t.sess = s.sess ∧ KstEnds s t 6 cOk ∧ RegsBut kstRegs s t ∧ BytesKept s t := by
  obtain ⟨u, hu, harg, hrun⟩ := kst_command hg hk (op := 6) (by omega) []
  have henvm : u.envm = s.envm := hu.view (·.envm) fun _ _ => rfl
  have hsess : u.sess = s.sess := hu.view (·.sess) fun _ _ => rfl
  have hslots : u.slots = s.slots := hu.view (·.slots) fun _ _ => rfl
  have h64 : (s.reg (aKST_ARG 1)).toNat = 64 := by rw [hn]; rfl
  have hstore : kstStoreEntry u (s.reg (aKST_ARG 0)) (s.reg (aKST_ARG 1)) =
      (cOk, { u with envm := { u.envm with kis := some (u.keyBytes (s.reg (aKST_ARG 0))) } }) := by
    rw [kstStoreEntry, if_neg (by rw [keyCheck_congr hsess hslots (by omega)]; simp [hcheck]),
      if_neg (by simp [hlen]; omega), if_pos h64]
  rw [← harg 0, ← harg 1] at hstore
  obtain ⟨t, ht, honly, hends⟩ := hrun _ _ hstore rfl rfl rfl
  rw [harg 0, keyBytes_congr hsess hslots] at honly
  refine ⟨t, ht, ?_, (honly.view (·.slots) fun _ _ => rfl).trans hslots, (honly.view (·.sess) fun _ _ => rfl).trans hsess, hends⟩
  rw [honly.view (·.envm) fun _ _ => rfl, henvm]

theorem erase_static (hcheck : s.keyCheck 124 (s.reg (aKST_ARG 0)) 0 = cOk) (hses : kSes (s.reg (aKST_ARG 0)) = false) :
    ∃ t, exec (.erase m) s = .next t ∧ t.key (kSlot (s.reg (aKST_ARG 0))) = none ∧
      tfind t.envm.blobs (kSlot (s.reg (aKST_ARG 0))) = none ∧ t.sess = s.sess ∧ KstEnds s t 7 cOk ∧
      RegsBut kstRegs s t ∧ BytesKept s t := by
  obtain ⟨u, hu, harg, hrun⟩ := kst_command hg hk (op := 7) (by omega) []
  have hsess : u.sess = s.sess := hu.view (·.sess) fun _ _ => rfl
  have hslots : u.slots = s.slots := hu.view (·.slots) fun _ _ => rfl
  have herase : kstErase u (s.reg (aKST_ARG 0)) =
      (cOk, (u.eraseBlob (kSlot (s.reg (aKST_ARG 0)))).dropKey (kSlot (s.reg (aKST_ARG 0)))) := by
    rw [kstErase, if_neg (by rw [keyCheck_congr hsess hslots (by omega)]; simp [hcheck]), if_neg (by simp [hses])]
  rw [← harg 0] at herase
  obtain ⟨t, ht, honly, hends⟩ := hrun _ _ herase rfl rfl rfl
  rw [harg 0] at honly
  refine ⟨t, ht, ?_, ?_, (honly.view (·.sess) fun _ _ => rfl).trans hsess, hends⟩
  · rw [honly.view (·.key _) fun _ _ => rfl, State.key, State.dropKey, tfind_tdel_same]
  · rw [honly.view (·.envm) fun _ _ => rfl]
    exact tfind_tdel_same ..

theorem erase_session (hcheck : s.keyCheck 124 (s.reg (aKST_ARG 0)) 0 = cOk) (hses : kSes (s.reg (aKST_ARG 0)) = true) :
    ∃ t, exec (.erase m) s = .next t ∧
      t.ses (kSlot (s.reg (aKST_ARG 0))) = { s.ses (kSlot (s.reg (aKST_ARG 0))) with slot := zeros 128 } ∧
      t.slots = s.slots ∧ t.envm = s.envm ∧ KstEnds s t 7 cOk ∧ RegsBut kstRegs s t ∧ BytesKept s t := by
  obtain ⟨u, hu, harg, hrun⟩ := kst_command hg hk (op := 7) (by omega) []
  have hsess : u.sess = s.sess := hu.view (·.sess) fun _ _ => rfl
  have hslots : u.slots = s.slots := hu.view (·.slots) fun _ _ => rfl
  have herase : kstErase u (s.reg (aKST_ARG 0)) =
      (cOk, u.modSes (kSlot (s.reg (aKST_ARG 0))) fun x => { x with slot := zeros 128 }) := by
    rw [kstErase, if_neg (by rw [keyCheck_congr hsess hslots (by omega)]; simp [hcheck]), if_pos hses]
  rw [← harg 0] at herase
  obtain ⟨t, ht, honly, hends⟩ := hrun _ _ herase rfl rfl rfl
  rw [harg 0] at honly
  refine ⟨t, ht, ?_, (honly.view (·.slots) fun _ _ => rfl).trans hslots, ?_, hends⟩
  · rw [honly.view (·.ses _) fun _ _ => rfl, ses_modSes_same, ses_congr hsess]
  · exact (honly.view (·.envm) fun _ _ => rfl).trans (hu.view (·.envm) fun _ _ => rfl)

theorem cntInc_advances (hn : (s.reg (aKST_ARG 0)).toNat ≤ 63) (hmax : s.counter (s.reg (aKST_ARG 0)).toNat ≠ 0xFFFFFFFF) :
    ∃ t, exec (.cntInc m) s = .next t ∧
      t.counter (s.reg (aKST_ARG 0)).toNat = s.counter (s.reg (aKST_ARG 0)).toNat + 1 ∧ KstEnds s t 8 cOk ∧
      RegsBut kstRegs s t ∧ BytesKept s t := by
  obtain ⟨u, hu, harg, hrun⟩ := kst_command hg hk (op := 8) (by omega) []
  have hcnt : ∀ n, u.counter n = s.counter n := fun n => hu.view (·.counter n) fun _ _ => rfl
  have hinc : kstInc u (s.reg (aKST_ARG 0)) =
      (cOk, u.setCounter (s.reg (aKST_ARG 0)).toNat (s.counter (s.reg (aKST_ARG 0)).toNat + 1)) := by
    rw [kstInc, if_neg (by omega), State.incCounter, hcnt, if_neg hmax]
  rw [← harg 0] at hinc
  obtain ⟨t, ht, honly, hends⟩ := hrun _ _ hinc rfl rfl rfl
  rw [harg 0] at honly
  refine ⟨t, ht, ?_, hends⟩
  rw [honly.view (·.counter _) fun _ _ => rfl]
  exact tget_tset_same ..

theorem cntSet_raises (hn : (s.reg (aKST_ARG 0)).toNat ≤ 63) (hmax : s.counter (s.reg (aKST_ARG 0)).toNat ≠ 0xFFFFFFFF)
    (hlt : s.counter (s.reg (aKST_ARG 0)).toNat < s.reg (aKST_ARG 1)) :
    ∃ t, exec (.cntSet m) s = .next t ∧ t.counter (s.reg (aKST_ARG 0)).toNat = s.reg (aKST_ARG 1) ∧
      KstEnds s t 9 cOk ∧ RegsBut kstRegs s t ∧ BytesKept s t := by
  obtain ⟨u, hu, harg, hrun⟩ := kst_command hg hk (op := 9) (by omega) []
  have hcnt : ∀ n, u.counter n = s.counter n := fun n => hu.view (·.counter n) fun _ _ => rfl
  have hset : kstSet u (s.reg (aKST_ARG 0)) (s.reg (aKST_ARG 1)) =
      (cOk, u.setCounter (s.reg (aKST_ARG 0)).toNat (s.reg (aKST_ARG 1))) := by
    rw [kstSet, if_neg (by omega), hcnt, if_neg hmax, if_neg (by rw [BitVec.lt_def] at hlt; omega)]
  rw [← harg 0, ← harg 1] at hset
  obtain ⟨t, ht, honly, hends⟩ := hrun _ _ hset rfl rfl rfl
  rw [harg 0, harg 1] at honly
  refine ⟨t, ht, ?_, hends⟩
  rw [honly.view (·.counter _) fun _ _ => rfl]
  exact tget_tset_same ..

theorem rootEnrol_stores (array : Bytes) (hlcs : s.envm.lcs = 0) (hhelper : s.envm.helper = none) :
    ∃ t, exec (.rootEnrol m array) s = .next t ∧
      t.envm.helper = some ⟨slice (Config.rootHelper (slice array 0 8192)) 0 2048,
        rootCheck (rootOf array (slice (Config.rootHelper (slice array 0 8192)) 0 2048))⟩ ∧
      KstEnds s t 0x0A cOk ∧ RegsBut kstRegs s t ∧ BytesKept s t := by
  obtain ⟨u, hu, -, hrun⟩ := kst_command hg hk (op := 0x0A) (by omega) array
  have henvm : u.envm = s.envm := hu.view (·.envm) fun _ _ => rfl
  obtain ⟨t, ht, honly, hends⟩ := hrun _ _ (if_neg (by rw [henvm]; simp [hlcs, hhelper])) rfl rfl rfl
  refine ⟨t, ht, ?_, hends⟩
  rw [honly.view (·.envm) fun _ _ => rfl]

theorem epochAdv_advances (h1 : 1 ≤ (s.reg (aKST_ARG 0)).toNat) (h4 : (s.reg (aKST_ARG 0)).toNat ≤ 4)
    (hmax : s.epochOf (s.reg (aKST_ARG 0)).toNat ≠ 0xFFFFFFFF) :
    ∃ t, exec (.epochAdv m) s = .next t ∧
      t.epochOf (s.reg (aKST_ARG 0)).toNat = s.epochOf (s.reg (aKST_ARG 0)).toNat + 1 ∧ KstEnds s t 0x0B cOk ∧
      RegsBut kstRegs s t ∧ BytesKept s t := by
  obtain ⟨u, hu, harg, hrun⟩ := kst_command hg hk (op := 0x0B) (by omega) []
  have hepoch : ∀ c, u.epochOf c = s.epochOf c := fun c => hu.view (·.epochOf c) fun _ _ => rfl
  have hadv : kstEpoch u (s.reg (aKST_ARG 0)) = (cOk, { u with envm := { u.envm with
      epoch := tset u.envm.epoch (s.reg (aKST_ARG 0)).toNat (s.epochOf (s.reg (aKST_ARG 0)).toNat + 1) 0 } }) := by
    rw [kstEpoch, if_neg (by omega), hepoch, if_neg hmax]
  rw [← harg 0] at hadv
  obtain ⟨t, ht, honly, hends⟩ := hrun _ _ hadv rfl rfl rfl
  rw [harg 0] at honly
  refine ⟨t, ht, ?_, hends⟩
  rw [honly.view (·.epochOf _) fun _ _ => rfl]
  exact tget_tset_same ..

end

/-- Settles O27 (R286, R288, R289, R301 to R303, R306). -/
theorem keyStoreObjects : Obligations.KeyStoreObjects :=
  ⟨fun _ _ _ hg hk => loadEntry_copies hg hk, fun _ _ _ hg hk => storeEntry_stores hg hk, fun _ _ => storeEntry_kis, fun _ _ => erase_static,
    fun _ _ => erase_session, fun _ _ => cntInc_advances, fun _ _ => cntSet_raises,
    fun _ _ array hg hk => rootEnrol_stores hg hk array, fun _ _ => epochAdv_advances⟩

end Proofs
end Sys2Proof

/-! PROOFS. Peat's own jobs: what submitting them and taking their completions changes (R99, R104, R106, R366). -/
namespace Sys2Proof
namespace Proofs

open Sys2Proof.Machine Sys2Proof.Safety Sys2Proof.Laws

/-- What Peat's jobs on a channel leave: their counts in the channel and the engines, the SEQ of Q10, and where one of them
clears it, the operand memory. -/
structure JobsFrame (ch : Nat) (s t : State) : Prop where
  only : t = { s with regs := t.regs, commits := t.commits, lanes := t.lanes, mem := t.mem }
  regs : RegsBut (jobRegs ch) s t
  lanes : ∀ n, ∃ q, t.lane n = { s.lane n with seq := q }
  bytes : ∀ a, (a < 0x50000000 ∨ 0x50008000 ≤ a) → cellGet t.mem a memDefault = cellGet s.mem a memDefault

namespace JobsFrame

theorem refl (ch : Nat) (s : State) : JobsFrame ch s s := ⟨rfl, RegsBut.refl _ s, fun n => ⟨(s.lane n).seq, rfl⟩, fun _ _ => rfl⟩

theorem trans {ch : Nat} {s t u : State} (h : JobsFrame ch s t) (h' : JobsFrame ch t u) : JobsFrame ch s u := by
  refine ⟨?_, RegsBut.trans h.regs h'.regs, fun n => ?_, fun a ha => (h'.bytes a ha).trans (h.bytes a ha)⟩
  · have e := h'.only; rw [h.only] at e; exact e
  · obtain ⟨q, hq⟩ := h.lanes n
    obtain ⟨q', hq'⟩ := h'.lanes n
    exact ⟨q', by rw [hq', hq]⟩

/-- A view that neither the registers, the lanes nor the memory enter is as before. -/
theorem view {β : Sort*} {ch : Nat} {s t : State} (f : State → β) (h : JobsFrame ch s t)
    (hf : ∀ r c l m, f { s with regs := r, commits := c, lanes := l, mem := m } = f s) : f t = f s := by
  rw [h.only]; exact hf _ _ _ _

theorem of_regsOnly {ch : Nat} {s t : State} (h : RegsOnly s t) (hr : RegsBut (jobRegs ch) s t) : JobsFrame ch s t := by
  have hl : t.lanes = s.lanes := by rw [RegsOnly] at h; rw [h]
  have hm : t.mem = s.mem := by rw [RegsOnly] at h; rw [h]
  refine ⟨by rw [hl, hm, h.commits]; exact h, hr, fun n => ⟨(s.lane n).seq, ?_⟩, fun a _ => by rw [hm]⟩
  unfold State.lane; rw [hl]

theorem reg {ch : Nat} {s t : State} (h : JobsFrame ch s t) {a : Nat} (h1 : a ∉ jobRegs ch) (h2 : ¬ Counted a) :
    t.reg a = s.reg a := h.regs a h1 h2

theorem operandsOnly {ch : Nat} {s t : State} (h : JobsFrame ch s t) : OperandsOnly s t := fun a =>
  ⟨fun ha => h.bytes a ha, by rw [h.view (·.flash) fun _ _ _ _ => rfl]⟩

theorem room {ch : Nat} {s t : State} (h : JobsFrame ch s t) (n : Nat) (hcfg : aQUE_CFG (qOf n) ∉ jobRegs ch)
    (hcnt : ¬ Counted (aQUE_CFG (qOf n))) : t.room n = s.room n := by
  obtain ⟨q, hq⟩ := h.lanes n
  have hres : t.reservedItems n = s.reservedItems n := h.view (·.reservedItems n) fun _ _ _ _ => rfl
  unfold State.room State.capacity
  rw [hq, hres, h.reg hcfg hcnt]
  rfl

end JobsFrame

theorem mem_jobRegs {ch a : Nat} : a ∈ jobRegs ch ↔ a = aCHN_COUNT ch ∨ a = aAES_COUNT ∨ a = aBN_COUNT ∨ a = aHSH_COUNT := by
  simp [jobRegs]

theorem JobsFrame.room10 {ch : Nat} {s t : State} (h : JobsFrame ch s t) (hch : ch < 128) : t.room 10 = s.room 10 := by
  have hq : qOf 10 = 10 := rfl
  exact h.room 10 (by rw [hq, mem_jobRegs]; unfold aQUE_CFG aCHN_COUNT aAES_COUNT aBN_COUNT aHSH_COUNT; omega)
    (by rw [hq]; unfold Counted aQUE_CFG; omega)

theorem JobsFrame.works {ch : Nat} {s t : State} (h : JobsFrame ch s t) (hch : ch < 128) (hw : PeatWorks s ch) :
    PeatWorks t ch := by
  obtain ⟨hst, hjobs, hroom, h0, h1, h2⟩ := hw
  have hstatus : t.reg (aCHN_STATUS ch) = s.reg (aCHN_STATUS ch) := h.reg
    (by rw [mem_jobRegs]; unfold aCHN_STATUS aCHN_COUNT aAES_COUNT aBN_COUNT aHSH_COUNT; omega)
    (by unfold Counted aCHN_STATUS; omega)
  have hsched : t.reg (aCHN_SCHED ch) = s.reg (aCHN_SCHED ch) := h.reg
    (by rw [mem_jobRegs]; unfold aCHN_SCHED aCHN_COUNT aAES_COUNT aBN_COUNT aHSH_COUNT; omega)
    (by unfold Counted aCHN_SCHED; omega)
  have hmask : ∀ n, n < 3 → t.reg (aTRNG_MASK n) = s.reg (aTRNG_MASK n) := fun n hn => h.reg
    (by rw [mem_jobRegs]; unfold aTRNG_MASK aCHN_COUNT aAES_COUNT aBN_COUNT aHSH_COUNT; omega)
    (by unfold Counted aTRNG_MASK; omega)
  have htmpl : t.chTemplate ch = s.chTemplate ch := h.view (·.chTemplate ch) fun _ _ _ _ => rfl
  refine ⟨?_, ?_, ?_, ?_, ?_, ?_⟩
  · unfold State.chState State.rf at *; rwa [hstatus]
  · unfold State.chJobs State.maxJobs State.rf at *; rwa [hstatus, hsched, htmpl]
  · rwa [h.room10 hch]
  all_goals unfold State.maskStopped State.rb at *; rwa [hmask _ (by omega)]

theorem regsOnly_countJob (s : State) (eng : Nat) (failed : Bool) : RegsOnly s (s.countJob eng failed) :=
  RegsOnly.trans (RegsOnly.trans (regsOnly_setReg ..) (regsOnly_evt ..))
    (regsOnly_onlyIf (fun _ => RegsOnly.trans (regsOnly_setReg ..) (regsOnly_evt ..)) _ _)

theorem regsBut_countJob (ch : Nat) (s : State) {eng : Nat} (h1 : 1 ≤ eng) (h3 : eng ≤ 3) (failed : Bool) :
    RegsBut (jobRegs ch) s (s.countJob eng failed) := by
  have hreg : countReg eng ∈ jobRegs ch := by
    rw [mem_jobRegs]; unfold countReg engAes engBn; split <;> [simp; split <;> simp]
  have hblock : engBlock eng < 64 := by unfold engBlock; omega
  have h := RegsBut.trans (regsBut_bump s hreg 15 0 1) (regsBut_evt _ _ hblock 0x03 1)
  cases failed with
  | false => exact h
  | true => exact RegsBut.trans h (RegsBut.trans (regsBut_bump _ hreg 31 16 1) (regsBut_evt _ _ hblock 0x04 1))

/-- A job of Peat's is counted: its items in Q10, and its start and end in the channel and the engine. -/
def jobCounted (s : State) (ch : Nat) (j : PeatJob) : State :=
  (((((s.evt 0x10 0x12 j.items).bump (aCHN_COUNT ch) 15 0 1).evt 0x10 0x13 j.items).bump (aCHN_COUNT ch) 31 16 1).countJob
    j.eng false)

theorem regsOnly_jobCounted (s : State) (ch : Nat) (j : PeatJob) : RegsOnly s (jobCounted s ch j) :=
  RegsOnly.trans (RegsOnly.trans (RegsOnly.trans (RegsOnly.trans (regsOnly_evt ..) (regsOnly_setReg ..)) (regsOnly_evt ..))
    (regsOnly_setReg ..)) (regsOnly_countJob ..)

theorem regsBut_jobCounted (s : State) (ch : Nat) {j : PeatJob} (h1 : 1 ≤ j.eng) (h3 : j.eng ≤ 3) :
    RegsBut (jobRegs ch) s (jobCounted s ch j) := by
  have hcount : aCHN_COUNT ch ∈ jobRegs ch := by simp [jobRegs]
  exact RegsBut.trans (RegsBut.trans (RegsBut.trans (RegsBut.trans (regsBut_evt _ _ (by omega) _ _)
    (regsBut_bump _ hcount _ _ _)) (regsBut_evt _ _ (by omega) _ _)) (regsBut_bump _ hcount _ _ _))
    (regsBut_countJob ch _ h1 h3 _)

theorem jobsFrame_clearSlots (ch : Nat) (s : State) : JobsFrame ch s s.clearSlots := by
  refine ⟨rfl, regsBut_of_regs rfl _, fun n => ⟨(s.lane n).seq, rfl⟩, fun a ha => ?_⟩
  unfold State.clearSlots State.omWrite
  rw [memWrite_frame, if_neg]
  simp only [List.length_take]
  omega

/-- A packet of Q10 that Peat's channel commits takes the next SEQ. -/
def nextSeq (s : State) : State :=
  { s with commits := s.commits + 1 }.setLane 10 { s.lane 10 with seq := (s.lane 10).seq + 1 }

theorem jobsFrame_nextSeq (ch : Nat) (s : State) : JobsFrame ch s (nextSeq s) := by
  refine ⟨rfl, regsBut_of_regs rfl _, fun n => ?_, fun _ _ => rfl⟩
  rw [nextSeq, lane_setLane]
  split
  case isTrue h => exact ⟨(s.lane 10).seq + 1, by rw [h]⟩
  case isFalse h => exact ⟨(s.lane n).seq, rfl⟩

/-- A job of Peat's that fits in Q10 and ends with OK, while its channel runs and no mask generator is STOPPED, completes. -/
theorem peatJob_completes {ch : Nat} {s : State} (hw : PeatWorks s ch) {j : PeatJob} (hitems : j.items ≤ s.room 10)
    (hcode : j.code = cOk) (h1 : 1 ≤ j.eng) (h3 : j.eng ≤ 3) :
    ∃ t, s.peatJob ch j = (cOk, t) ∧ JobsFrame ch s t ∧ (j.clear = false → t.mem = s.mem) := by
  obtain ⟨hst, hjobs, hroom, hm0, hm1, hm2⟩ := hw
  have hstop : s.maskStopped (j.eng - 1) = false := by
    have : j.eng - 1 = 0 ∨ j.eng - 1 = 1 ∨ j.eng - 1 = 2 := by omega
    rcases this with h | h | h <;> rw [h] <;> assumption
  have hjob : s.peatJob ch j = (cOk, (jobCounted (nextSeq s) ch j).onlyIf j.clear State.clearSlots) := by
    unfold State.peatJob
    rw [if_neg (by omega), if_neg (by omega), hstop, Bool.and_false, hcode]
    rfl
  have hcounted : JobsFrame ch s (jobCounted (nextSeq s) ch j) :=
    JobsFrame.trans (jobsFrame_nextSeq ch s) (JobsFrame.of_regsOnly (regsOnly_jobCounted ..) (regsBut_jobCounted _ ch h1 h3))
  refine ⟨_, hjob, ?_, fun hc => ?_⟩
  · cases j.clear with
    | false => exact hcounted
    | true => exact hcounted.trans (jobsFrame_clearSlots ch _)
  · rw [hc, onlyIf_false, (regsOnly_jobCounted ..).mem]; rfl

/-- A row of such jobs completes. -/
theorem peatJobs_complete {ch : Nat} (hch : ch < 128) (l : List PeatJob) : ∀ {s : State}, PeatWorks s ch →
    (∀ j ∈ l, j.items ≤ s.room 10 ∧ j.code = cOk ∧ 1 ≤ j.eng ∧ j.eng ≤ 3) →
    ∃ t, s.peatJobs ch l = (cOk, t) ∧ JobsFrame ch s t ∧ ((∀ j ∈ l, j.clear = false) → t.mem = s.mem) := by
  induction l with
  | nil => exact fun {s} _ _ => ⟨s, rfl, JobsFrame.refl ch s, fun _ => rfl⟩
  | cons j l ih =>
    intro s hw hl
    obtain ⟨hitems, hcode, h1, h3⟩ := hl j (by simp)
    obtain ⟨u, hu, hframe, hmem⟩ := peatJob_completes hw hitems hcode h1 h3
    have hroom := hframe.room10 hch
    obtain ⟨t, ht, hframe', hmem'⟩ := ih (hframe.works hch hw) fun j' hj' => by rw [hroom]; exact hl j' (by simp [hj'])
    refine ⟨t, ?_, hframe.trans hframe', fun hc => (hmem' fun j' hj' => hc j' (by simp [hj'])).trans (hmem (hc j (by simp)))⟩
    rw [State.peatJobs, hu]
    exact (if_neg (by decide)).trans ht

/-- What such a row is followed by goes on in the state that it leaves. -/
theorem withJobs_complete {α : Type} {ch : Nat} (hch : ch < 128) {s : State} (hw : PeatWorks s ch) {l : List PeatJob}
    (hl : ∀ j ∈ l, j.items ≤ s.room 10 ∧ j.code = cOk ∧ 1 ≤ j.eng ∧ j.eng ≤ 3) (fail : Byte → State → α) (go : State → α) :
    ∃ t, s.withJobs ch l fail go = go t ∧ JobsFrame ch s t ∧ ((∀ j ∈ l, j.clear = false) → t.mem = s.mem) := by
  obtain ⟨t, ht, hframe⟩ := peatJobs_complete hch l hw hl
  refine ⟨t, ?_, hframe⟩
  unfold State.withJobs
  rw [ht]
  exact if_neg (by decide)

end Proofs
end Sys2Proof

/-! PROOFS. The commands of the key store that make a key (R295 to R299). -/
namespace Sys2Proof
namespace Proofs

open Sys2Proof.Machine Sys2Proof.Safety Sys2Proof.Laws

/-! ### What the checks of a command see -/

/-- The registers on which Peat's channel needs to agree to work alike. -/
def workRegs (ch : Nat) : List Nat := [aCHN_STATUS ch, aCHN_SCHED ch, aTRNG_MASK 0, aTRNG_MASK 1, aTRNG_MASK 2, aQUE_CFG 10]

theorem room10_congr {s t : State} (hcfg : t.reg (aQUE_CFG 10) = s.reg (aQUE_CFG 10)) (hlanes : t.lanes = s.lanes) :
    t.room 10 = s.room 10 := by
  unfold State.room State.capacity State.lane State.reservedItems
  rw [show qOf 10 = 10 from rfl, hcfg, hlanes]
  rfl

theorem peatWorks_congr {ch : Nat} {s t : State} (hregs : ∀ a ∈ workRegs ch, t.reg a = s.reg a) (hlanes : t.lanes = s.lanes)
    (htmpl : t.templates = s.templates) (hw : PeatWorks s ch) : PeatWorks t ch := by
  have hstatus := hregs (aCHN_STATUS ch) (by simp [workRegs])
  have hsched := hregs (aCHN_SCHED ch) (by simp [workRegs])
  have h0 := hregs (aTRNG_MASK 0) (by simp [workRegs])
  have h1 := hregs (aTRNG_MASK 1) (by simp [workRegs])
  have h2 := hregs (aTRNG_MASK 2) (by simp [workRegs])
  have hcfg := hregs (aQUE_CFG 10) (by simp [workRegs])
  unfold PeatWorks State.chState State.chJobs State.maxJobs State.chTemplate State.maskStopped State.rf State.rb at *
  rw [hstatus, hsched, htmpl, h0, h1, h2, room10_congr hcfg hlanes]
  exact hw

theorem kstForm_congr {s t : State} (hsess : t.sess = s.sess) (hst : t.rb aKST_STATUS 1 = s.rb aKST_STATUS 1) (r w : Word) :
    t.kstForm r w = s.kstForm r w := by
  unfold State.kstForm
  rw [sesCheck_congr hsess (by omega), hst]

theorem kstDest_congr {s t : State} (hsess : t.sess = s.sess) (hslots : t.slots = s.slots) (henvm : t.envm = s.envm)
    (hst : t.rb aKST_STATUS 1 = s.rb aKST_STATUS 1) (r w : Word) : t.kstDest r w = s.kstDest r w := by
  unfold State.kstDest State.keyWordOk State.fixedWordOk
  rw [kstForm_congr hsess hst, key_congr hslots, henvm]

theorem kstForm_of_kstDest {s : State} {r w : Word} (h : s.kstDest r w = cOk) : s.kstForm r w = cOk := by
  unfold State.kstDest at h
  by_contra hf
  rw [if_pos hf] at h
  exact hf h

theorem keyForm_of_kstForm {s : State} {r w : Word} (h : s.kstForm r w = cOk) : keyForm r = cOk := by
  unfold State.kstForm at h
  by_contra hf
  rw [if_pos hf] at h
  exact hf h

/-- The length of a reference of a sound form is 1 to 4 blocks. -/
theorem kLen_of_keyForm {r : Word} (h : keyForm r = cOk) : 1 ≤ kLen r ∧ kLen r ≤ 4 := by
  unfold keyForm at h
  split_ifs at h <;> first | exact absurd h (by decide) | omega

/-- A static destination whose form is sound has a type with bytes, as many as its length says. -/
theorem typeBytes_of_kstForm {s : State} {r w : Word} (h : s.kstForm r w = cOk) (hses : kSes r = false) :
    kLen r * 16 = typeBytes (kwType w) := by
  unfold State.kstForm at h
  split_ifs at h <;> simp_all

/-! ### Delivery (R290, R298) -/

theorem length_slice (b : Bytes) (i n : Nat) : (slice b i n).length = n := by
  simp [slice, zeros]

theorem KeyGoes.congr {s z x t : State} (henvm : z.envm = s.envm) (hsess : z.sess = s.sess) (hslots : z.slots = s.slots)
    (henvm' : t.envm = x.envm) (hsess' : t.sess = x.sess) (hslots' : t.slots = x.slots) {r w : Word} {origin : Nat}
    {key : Bytes} (h : KeyGoes z x r w origin key) : KeyGoes s t r w origin key := by
  have hword : ∀ n k, s.wordSlot n w origin k [] = z.wordSlot n w origin k [] := fun n k => by
    unfold State.wordSlot State.slotClass; rw [henvm]
  unfold KeyGoes at *
  rw [henvm', ses_congr hsess', hslots', hsess', key_congr hslots', ← henvm, ← ses_congr hsess, ← hslots, ← hsess, hword]
  exact h

theorem key_setKey_same (s : State) (n : Nat) {k : Slot} (h : k.key ≠ []) : (s.setKey n k).key n = some k := by
  rw [State.key, State.setKey, tfind_tput_same]
  exact if_neg h

/-- A static slot is written with a blob exactly where it is to have one. -/
theorem putStatic_writes {z : State} {n : Nat} {k : Slot} (hkey : k.key ≠ [])
    (hblob : k.persist = true → (tfind z.power.classKeys k.cls).isSome = true) :
    ∃ x, z.putStatic n k = (cOk, x) ∧ x.key n = some k ∧ (tfind x.envm.blobs n).isSome = k.persist ∧
      x.envm = { z.envm with blobs := x.envm.blobs } ∧ x = { z with envm := x.envm, slots := x.slots } := by
  unfold State.putStatic
  cases hp : k.persist with
  | true =>
    obtain ⟨ck, hck⟩ := Option.isSome_iff_exists.1 (hblob hp)
    unfold State.writeBlob
    rw [hck]
    exact ⟨_, if_pos rfl, key_setKey_same _ n hkey, by simp [State.setKey], rfl, rfl⟩
  | false => exact ⟨_, if_neg (by decide), key_setKey_same _ n hkey, by simp [State.setKey, State.eraseBlob], rfl, rfl⟩

/-- Key bytes for a destination of a sound form reach it. -/
theorem kstPut_delivers {z : State} {r w : Word} (hform : z.kstForm r w = cOk) (hblob : BlobKey z r w) (origin : Nat)
    (key : Bytes) :
    ∃ x, z.kstPut r w origin key = (cOk, x) ∧ KeyGoes z x r w origin key ∧
      x = { z with envm := x.envm, slots := x.slots, sess := x.sess } := by
  unfold State.kstPut
  cases hses : kSes r with
  | true => exact ⟨_, if_pos rfl, ⟨rfl, fun _ => ⟨rfl, tget_tset_same ..⟩, fun h => Bool.noConfusion (hses.symm.trans h)⟩, rfl⟩
  | false =>
    have hbytes : slice key 0 (typeBytes (kwType w)) ≠ [] := by
      have := typeBytes_of_kstForm hform hses
      have := (kLen_of_keyForm (keyForm_of_kstForm hform)).1
      rw [← List.length_pos_iff_ne_nil, length_slice]; omega
    obtain ⟨x, hput, hkey, hsome, henvm, honly⟩ := putStatic_writes (z := z) (n := kSlot r)
      (k := z.wordSlot (kSlot r) w origin (slice key 0 (typeBytes (kwType w))) (publicPart (kwType w) (slice key 0 (typeBytes (kwType w)))))
      hbytes (fun hp => by
        have h17 : bit w 17 = true := hp
        show (tfind z.power.classKeys (z.slotClass (kSlot r) (bit w 17))).isSome = true
        rw [h17]; exact hblob hses h17)
    refine ⟨x, (if_neg (by decide)).trans hput, ⟨henvm, fun h => Bool.noConfusion (hses.symm.trans h), fun _ => ⟨?_, hsome, ?_⟩⟩, ?_⟩
    · rw [honly]
    · rw [hkey]; rfl
    · rw [honly]

/-! ### A command that runs with Peat's jobs -/

theorem jobRegs_not_kstRegs : ∀ a ∈ jobRegs 127, a ∉ kstRegs := by decide

theorem workRegs_not_kstRegs : ∀ a ∈ workRegs 127, a ∉ kstRegs ∧ ¬ Counted a := by
  unfold Counted; decide

/-- What a command of the key store sees when it runs: the state as it was, but for its own registers. -/
structure KstSees (s u : State) : Prop where
  only : u = { s with regs := u.regs, prfAcc := u.prfAcc, trng := u.trng, peat := u.peat }
  regs : RegsBut kstRegs s u
  empty : u.rb aKST_STATUS 1 = s.rb aKST_STATUS 1

namespace KstSees

theorem of_regsAndCounts {s u : State} (h : RegsAndCounts s u) :
    u = { s with regs := u.regs, prfAcc := u.prfAcc, trng := u.trng, peat := u.peat } := by
  unfold RegsAndCounts at h; rw [h]

variable {s u : State} (h : KstSees s u)
include h

theorem envm : u.envm = s.envm := h.only ▸ rfl
theorem sess : u.sess = s.sess := h.only ▸ rfl
theorem slots : u.slots = s.slots := h.only ▸ rfl
theorem kstForm (r w : Word) : u.kstForm r w = s.kstForm r w := kstForm_congr h.sess h.empty r w
theorem kstDest (r w : Word) : u.kstDest r w = s.kstDest r w := kstDest_congr h.sess h.slots h.envm h.empty r w
theorem keyCheck (r : Word) (uses : Nat) : u.keyCheck 124 r uses = s.keyCheck 124 r uses :=
  keyCheck_congr h.sess h.slots (by omega) r uses
theorem keyBytes (r : Word) : u.keyBytes r = s.keyBytes r := keyBytes_congr h.sess h.slots r
theorem bytes : BytesKept s u := bytesKept_of_eq (h.only ▸ rfl) (h.only ▸ rfl)

theorem reg {a : Nat} (ha : a ∉ kstRegs) (hc : ¬ Counted a) : u.reg a = s.reg a := h.regs a ha hc

theorem works (hw : PeatWorks s 127) : PeatWorks u 127 :=
  peatWorks_congr (fun a ha => h.reg (workRegs_not_kstRegs a ha).1 (workRegs_not_kstRegs a ha).2)
    (h.only ▸ rfl) (h.only ▸ rfl) hw

theorem maskStopped {n : Nat} (hn : n < 3) : u.maskStopped n = s.maskStopped n := by
  unfold State.maskStopped State.rb
  rw [h.reg (by unfold aTRNG_MASK kstRegs aKST_CMD aKST_RESULT aKST_STATUS; simp; omega) (by unfold Counted aTRNG_MASK; omega)]

theorem blobKey {r w : Word} (hb : BlobKey s r w) : BlobKey u r w := by
  have hp : u.power = s.power := h.only ▸ rfl
  unfold BlobKey State.slotClass at *
  rw [hp, h.envm]; exact hb

theorem room10 : u.room 10 = s.room 10 :=
  room10_congr (h.reg (by decide) (by unfold Counted aQUE_CFG; omega)) (h.only ▸ rfl)

theorem peatMem {a n : Nat} (h1 : 0x50000000 ≤ a) (h2 : a + n ≤ 0x50000000 + 8 * s.bnBase true) :
    u.peatMem a n = (s.memRead a n, u) := by
  have hbase : u.bnBase true = s.bnBase true := by
    unfold State.bnBase State.rf; rw [h.reg (by decide) (by unfold Counted aBN_PART; omega)]
  have hmem : u.mem = s.mem := h.only ▸ rfl
  unfold State.peatMem State.memRead
  rw [if_pos ⟨h1, by rw [hbase]; exact h2⟩, hmem]

end KstSees

/-- A granted command, while none runs: there is a state u that it sees when it runs; it ends with the status of its run. -/
theorem kst_commandJobs {s : State} {m : Master} (hg : Grants s m aKST_CMD) (hk : s.peat.kst = none) {op : Nat} (hop : op ≠ 1)
    (r : Bytes) :
    ∃ u, KstSees s u ∧ (∀ n, u.reg (aKST_ARG n) = s.reg (aKST_ARG n)) ∧
      ∀ c x l, kstRun u op r = (c, x) → RegsBut l u x → (∀ a ∈ l, a ∉ kstRegs) →
        ∃ t, done (s.owned m aKST_CMD (kstGo op r)) = .next t ∧ RegsAndCounts x t ∧ KstEnds s t op c ∧
          RegsBut (kstRegs ++ l) s t := by
  refine ⟨kstReady s m op, ⟨KstSees.of_regsAndCounts (kstReady_only s m op), RegsBut.mono (regsBut_kstReady s m op) (by simp [kstRegs]), ?_⟩,
    reg_arg_kstReady s m op, fun c x l hrun hregs hl => ?_⟩
  · exact congrArg (bit · 1) (reg_kstReady s m op (by decide) (by decide))
  · have h := owned_kstGo hg hk hop r
    rw [hrun] at h
    exact ⟨_, congrArg done h, kstEnd_only x c, kstEnd_ends c hregs hl⟩

/-- What a command that delivers a key leaves, from the state u that it sees, through its jobs' end z, to its own end t. -/
theorem delivered {s u z x t : State} (hu : KstSees s u) (hz : JobsFrame 127 u z) {r w : Word} {origin : Nat} {key : Bytes}
    (hgoes : KeyGoes z x r w origin key) (ht : RegsAndCounts x t) : KeyGoes s t r w origin key :=
  KeyGoes.congr ((hz.view (·.envm) fun _ _ _ _ => rfl).trans hu.envm) ((hz.view (·.sess) fun _ _ _ _ => rfl).trans hu.sess)
    ((hz.view (·.slots) fun _ _ _ _ => rfl).trans hu.slots) (ht.view (·.envm) fun _ _ => rfl)
    (ht.view (·.sess) fun _ _ => rfl) (ht.view (·.slots) fun _ _ => rfl) hgoes

theorem OperandsOnly.trans {s t u : State} (h : OperandsOnly s t) (h' : OperandsOnly t u) : OperandsOnly s u :=
  fun a => ⟨fun ha => ((h' a).1 ha).trans ((h a).1 ha), (h' a).2.trans (h a).2⟩

theorem OperandsOnly.of_bytesKept {s t : State} (h : BytesKept s t) : OperandsOnly s t := fun a => ⟨fun _ => (h a).1, (h a).2⟩

theorem pubJobs_sound (t : Nat) : ∀ j ∈ pubJobs t, j.items = 5 ∧ j.code = cOk ∧ 1 ≤ j.eng ∧ j.eng ≤ 3 := by
  unfold pubJobs bnJob clearJob
  split <;> simp

theorem kstPut_only {z x : State} (h : x = { z with envm := x.envm, slots := x.slots, sess := x.sess }) :
    x.regs = z.regs ∧ BytesKept z x := by
  rw [h]; exact ⟨rfl, bytesKept_of_eq rfl rfl⟩

theorem keyBytes_jobs {s u z : State} (hu : KstSees s u) (hz : JobsFrame 127 u z) (r : Word) : z.keyBytes r = s.keyBytes r :=
  (keyBytes_congr (hz.view (·.sess) fun _ _ _ _ => rfl) (hz.view (·.slots) fun _ _ _ _ => rfl) r).trans (hu.keyBytes r)

/-- A run's jobs and its delivery, for a command that sees u: its end delivers the key, and keeps every register but its own
and those of the jobs, and every byte but the operands. -/
theorem run_delivers {α : Type} {s u : State} (hu : KstSees s u) {l : List PeatJob} {r w : Word} (hw : PeatWorks s 127)
    (hl : ∀ j ∈ l, j.items ≤ s.room 10 ∧ j.code = cOk ∧ 1 ≤ j.eng ∧ j.eng ≤ 3) (hform : s.kstForm r w = cOk)
    (hblob : BlobKey s r w) {origin : Nat} {key : Bytes} (fail : Byte → State → α) {go : State → α}
    (k : Byte × State → α) (hgo : ∀ z, JobsFrame 127 u z → go z = k (z.kstPut r w origin key)) :
    ∃ x, u.withJobs 127 l fail go = k (cOk, x) ∧ RegsBut (jobRegs 127) u x ∧
      (∀ t, RegsAndCounts x t → KeyGoes s t r w origin key ∧ OperandsOnly s t ∧
        ((∀ j ∈ l, j.clear = false) → BytesKept s t)) := by
  obtain ⟨z, hz, hframe, hmem⟩ := withJobs_complete (by omega) (hu.works hw) (l := l) (by rwa [hu.room10]) fail go
  have hzform : z.kstForm r w = cOk := by
    rw [kstForm_congr (hframe.view (·.sess) fun _ _ _ _ => rfl) (congrArg (bit · 1) (hframe.reg (by decide)
      (by unfold Counted aKST_STATUS; omega))), hu.kstForm, hform]
  have hzblob : BlobKey z r w := hframe.view (BlobKey · r w) (fun _ _ _ _ => rfl) ▸ hu.blobKey hblob
  obtain ⟨x, hput, hgoes, honly⟩ := kstPut_delivers hzform hzblob origin key
  obtain ⟨hxregs, hxbytes⟩ := kstPut_only honly
  refine ⟨x, (hz.trans (hgo z hframe)).trans (congrArg k hput), RegsBut.trans hframe.regs (regsBut_of_regs hxregs _), fun t ht => ⟨delivered hu hframe hgoes ht, ?_, ?_⟩⟩
  · exact OperandsOnly.trans (OperandsOnly.of_bytesKept hu.bytes) (OperandsOnly.trans hframe.operandsOnly
      (OperandsOnly.of_bytesKept (BytesKept.trans hxbytes (BytesKept.of_regsAndCounts ht))))
  · intro hc
    exact BytesKept.trans hu.bytes (BytesKept.trans (bytesKept_of_eq (hmem hc) (hframe.view (·.flash) fun _ _ _ _ => rfl))
      (BytesKept.trans hxbytes (BytesKept.of_regsAndCounts ht)))

/-- A wrapped key that does not verify ends the command with TAG_FAIL after its jobs, and reaches no slot. -/
theorem run_failsTag {s u : State} (hu : KstSees s u) (hw : PeatWorks s 127) {l : List PeatJob}
    (hl : ∀ j ∈ l, j.items ≤ s.room 10 ∧ j.code = cOk ∧ 1 ≤ j.eng ∧ j.eng ≤ 3) (fail : Byte → State → Byte × State)
    {go : State → Byte × State} (hgo : ∀ z, JobsFrame 127 u z → go z = (cTagFail, z)) :
    ∃ x, u.withJobs 127 l fail go = (cTagFail, x) ∧ RegsBut (jobRegs 127) u x ∧
      (∀ t, RegsAndCounts x t → (t.slots = s.slots ∧ t.sess = s.sess ∧ t.envm = s.envm) ∧ OperandsOnly s t ∧
        ((∀ j ∈ l, j.clear = false) → BytesKept s t)) := by
  obtain ⟨z, hz, hframe, hmem⟩ := withJobs_complete (by omega) (hu.works hw) (l := l) (by rwa [hu.room10]) fail go
  refine ⟨z, hz.trans (hgo z hframe), hframe.regs, fun t ht => ⟨⟨?_, ?_, ?_⟩, ?_, fun hc => ?_⟩⟩
  · exact (ht.view (·.slots) fun _ _ => rfl).trans ((hframe.view (·.slots) fun _ _ _ _ => rfl).trans hu.slots)
  · exact (ht.view (·.sess) fun _ _ => rfl).trans ((hframe.view (·.sess) fun _ _ _ _ => rfl).trans hu.sess)
  · exact (ht.view (·.envm) fun _ _ => rfl).trans ((hframe.view (·.envm) fun _ _ _ _ => rfl).trans hu.envm)
  · exact OperandsOnly.trans (OperandsOnly.of_bytesKept hu.bytes) (OperandsOnly.trans hframe.operandsOnly
      (OperandsOnly.of_bytesKept (BytesKept.of_regsAndCounts ht)))
  · exact BytesKept.trans hu.bytes (BytesKept.trans (bytesKept_of_eq (hmem hc) (hframe.view (·.flash) fun _ _ _ _ => rfl))
      (BytesKept.of_regsAndCounts ht))

/-! ### The commands -/

theorem rngFailed_congr {s t : State} (h : t.reg aTRNG_STATUS = s.reg aTRNG_STATUS) : t.rngFailed = s.rngFailed := by
  unfold State.rngFailed State.rf; rw [h]

/-- The job of a DERIVE of a message of len bytes: KMAC in the hash engine, or ECB_DERIVE in the AES engine. -/
def deriveJob (km : Bool) (len : Nat) : PeatJob := if km then hshJob (5 + (len + 3) / 4) true else aesJob (9 + (len + 3) / 4)

theorem deriveJob_sound {km : Bool} {len : Nat} (hlen : len < 256) (hfit : km = true ∨ len ≤ 32) :
    (deriveJob km len).items ≤ 69 ∧ (deriveJob km len).code = cOk ∧ 1 ≤ (deriveJob km len).eng ∧ (deriveJob km len).eng ≤ 3 ∧
      (deriveJob km len).clear = false := by
  cases km with
  | true => exact ⟨show 5 + (len + 3) / 4 ≤ 69 by omega, rfl, show 1 ≤ 3 by omega, show 3 ≤ 3 by omega, rfl⟩
  | false => exact ⟨show 9 + (len + 3) / 4 ≤ 69 by simp at hfit; omega, rfl, show 1 ≤ 1 by omega, show 1 ≤ 3 by omega, rfl⟩

/-- An unwrapped key reaches its destination, and where it did not verify, nothing does. -/
def putUnwrapped (z : State) (r w : Word) (k : Option Bytes) : Byte × State :=
  match k with
  | some k => z.kstPut r w 1 k
  | none => (cTagFail, z)

/-- Writing a field twice leaves the second value. -/
theorem setFld_setFld (w : Word) {hi lo : Nat} (h : lo ≤ hi) (h32 : hi < 32) (u v : Nat) :
    setFld (setFld w hi lo u) hi lo v = setFld w hi lo v := by
  have hpow : 2 ^ (hi + 1) = 2 ^ (hi - lo + 1) * 2 ^ lo := by rw [← Nat.pow_add]; congr 1; omega
  have hlo : w.toNat % 2 ^ lo < 2 ^ lo := Nat.mod_lt _ (Nat.two_pow_pos lo)
  have hmid : u % 2 ^ (hi - lo + 1) < 2 ^ (hi - lo + 1) := Nat.mod_lt _ (Nat.two_pow_pos _)
  apply BitVec.eq_of_toNat_eq
  rw [setFld_toNat _ h h32, setFld_toNat _ h h32, setFld_toNat _ h h32, hpow]
  generalize 2 ^ (hi - lo + 1) = q at *
  generalize 2 ^ lo = p at *
  generalize w.toNat / (q * p) = A
  generalize w.toNat % p = C at *
  generalize u % q = U at *
  have hdiv : (A * (q * p) + U * p + C) / (q * p) = A := by
    have hlt : U * p + C < q * p := by
      calc U * p + C < U * p + p := by omega
        _ = (U + 1) * p := by ring
        _ ≤ q * p := Nat.mul_le_mul_right p hmid
    rw [Nat.add_assoc, Nat.mul_comm, Nat.mul_add_div (by omega), Nat.div_eq_of_lt hlt, Nat.add_zero]
  have hmod : (A * (q * p) + U * p + C) % p = C := by
    rw [show A * (q * p) + U * p + C = C + p * (A * q + U) by ring, Nat.add_mul_mod_self_left, Nat.mod_eq_of_lt hlo]
  rw [hdiv, hmod]

theorem slice_slice (b : Bytes) (n : Nat) : slice (slice b 0 n) 0 n = slice b 0 n := by
  have h : slice (slice b 0 n) 0 n = (slice b 0 n).take n := by simp [slice, zeros]
  rw [h, List.take_of_length_le (length_slice b 0 n).le]

/-! ### GENERATE's end (R299) -/

/-- The key that a GENERATE makes of the bytes d that it gets. -/
def generatedKey (r w : Word) (d : Bytes) : Bytes :=
  if kSes r then slice d 0 (16 * kLen r) else keyOfDraw (kwType w) (slice d 0 (drawBytes (kwType w)))

/-- A session slot takes only the bytes that its key has, so more of a draw change nothing. -/
theorem KeyGoes.whole {s t : State} {r w : Word} {d : Bytes} (h : KeyGoes s t r w 0 (generatedKey r w d)) :
    KeyGoes s t r w 0 (if kSes r then d else keyOfDraw (kwType w) (slice d 0 (drawBytes (kwType w)))) := by
  unfold generatedKey at h
  cases hs : kSes r with
  | false => rwa [hs] at h
  | true =>
    rw [hs] at h
    obtain ⟨henvm, hses, -⟩ := h
    exact ⟨henvm, fun hr => ⟨(hses hr).1, by rw [(hses hr).2, if_pos rfl, if_pos rfl, slice_slice]⟩,
      fun hr => absurd (hs.symm.trans hr) (by decide)⟩

theorem kstGoesOn_delivers {s : State} {k : KstRun} {d : Bytes} (hk : s.peat.kst = some k) (hmixed : k.mixed = false)
    (hd : s.servedTo .keyStore = some (cOk, d)) (hdest : s.kstDest k.a0 k.a1 = cOk) (hw : PeatWorks s 127)
    (hblob : BlobKey s k.a0 k.a1) :
    ∃ x, s.kstGoesOn = (x.setKst none).kstEnd cOk ∧ RegsBut (jobRegs 127) s x ∧
      KeyGoes s x k.a0 k.a1 0 (generatedKey k.a0 k.a1 d) ∧ OperandsOnly s x ∧
      ((kSes k.a0 = true ∨ pubJobs (kwType k.a1) = []) → BytesKept s x) := by
  have hu : KstSees s (s.forgetDraw .keyStore) := ⟨rfl, regsBut_of_regs rfl _, rfl⟩
  have hroom : 65 ≤ s.room 10 := hw.2.2.1
  have hjobs : ∀ j ∈ (if kSes k.a0 then [] else pubJobs (kwType k.a1)),
      j.items ≤ s.room 10 ∧ j.code = cOk ∧ 1 ≤ j.eng ∧ j.eng ≤ 3 := by
    cases kSes k.a0 with
    | true => simp
    | false => exact fun j hj => (pubJobs_sound _ j hj).imp_left fun h => by omega
  have hdest' := (hu.kstDest k.a0 k.a1).trans hdest
  obtain ⟨x, hx, hregs, hend⟩ := run_delivers hu hw hjobs (kstForm_of_kstDest hdest) hblob (origin := 0)
    (key := generatedKey k.a0 k.a1 d) (fun c s => s.kstDone k c) (fun x => x.2.kstDone k x.1) (fun z _ => rfl)
  obtain ⟨hgoes, hops, hkept⟩ := hend x rfl
  refine ⟨x, ?_, RegsBut.trans (regsBut_of_regs rfl _) hregs, hgoes, hops, ?_⟩
  · rw [← kstDone_unmixed hmixed, ← hx]
    unfold State.kstGoesOn State.draw
    simp only [hk, hd, ne_eq, not_true, if_true, Drawn.next, hdest', if_false]
    unfold generatedKey
    cases kSes k.a0 <;> rfl
  · rintro (h | h)
    · exact hkept (by rw [h]; simp)
    · exact hkept (by rw [h]; simp)

/-- A GENERATE whose conditioned output is not there waits for it. -/
theorem kstGoesOn_waits {s : State} {k : KstRun} (hk : s.peat.kst = some k) (hd : s.servedTo .keyStore = none)
    (hfail : s.rngFailed = false) :
    ∃ l, s.kstGoesOn = s.setCallers l ∧ (s.setCallers l).drawWaits .keyStore = true := by
  unfold State.kstGoesOn State.draw
  simp only [hk, hd, hfail, Drawn.next]
  cases hw : s.drawWaits .keyStore with
  | true => exact ⟨s.trng.reqs, rfl, hw⟩
  | false => exact ⟨_, rfl, by simp [State.drawWaits, State.setCallers, drawsFor]⟩

section
variable {s : State} {m : Master} (hg : Grants s m aKST_CMD) (hk : s.peat.kst = none)
include hg hk

theorem derive_delivers {km : Bool}
    (hlen : fld (s.reg (aKST_ARG 3)) 31 24 ≠ 0)
    (hdest : s.kstDest (s.reg (aKST_ARG 0)) (setFld (s.reg (aKST_ARG 3)) 31 18 0) = cOk)
    (hcheck : s.keyCheck 124 (s.reg (aKST_ARG 1)) 0x40 = cOk)
    (hkm : km = (if kSes (s.reg (aKST_ARG 1)) then decide (1 < kLen (s.reg (aKST_ARG 1)))
      else decide (s.keyType (s.reg (aKST_ARG 1)) = 7)))
    (hfit : (km || decide (fld (s.reg (aKST_ARG 3)) 31 24 = 16 * kLen (s.reg (aKST_ARG 0)) ∧
      fld (s.reg (aKST_ARG 3)) 31 24 ≤ 32)) = true)
    (hw : PeatWorks s 127) (hroom : 69 ≤ s.room 10)
    (hblob : BlobKey s (s.reg (aKST_ARG 0)) (setFld (s.reg (aKST_ARG 3)) 31 18 0))
    (hlo : 0x50000000 ≤ (s.reg (aKST_ARG 2)).toNat)
    (hhi : (s.reg (aKST_ARG 2)).toNat + fld (s.reg (aKST_ARG 3)) 31 24 ≤ 0x50000000 + 8 * s.bnBase true) :
    ∃ t, exec (.derive m) s = .next t ∧
      KeyGoes s t (s.reg (aKST_ARG 0)) (setFld (s.reg (aKST_ARG 3)) 31 18 0) 2 (deriveBytes km (s.keyBytes (s.reg (aKST_ARG 1)))
        (s.memRead (s.reg (aKST_ARG 2)).toNat (fld (s.reg (aKST_ARG 3)) 31 24)) (16 * kLen (s.reg (aKST_ARG 0)))) ∧
      KstEnds s t 3 cOk ∧ RegsBut (kstRegs ++ jobRegs 127) s t ∧ OperandsOnly s t ∧
      (pubJobs (kwType (setFld (s.reg (aKST_ARG 3)) 31 18 0)) = [] → BytesKept s t) := by
  obtain ⟨u, hu, harg, hrun⟩ := kst_commandJobs hg hk (op := 3) (by omega) []
  generalize ha0 : s.reg (aKST_ARG 0) = a0 at *
  generalize ha1 : s.reg (aKST_ARG 1) = a1 at *
  generalize ha2 : s.reg (aKST_ARG 2) = a2 at *
  generalize ha3 : s.reg (aKST_ARG 3) = a3 at *
  have hkm' : (if kSes a1 then decide (1 < kLen a1) else decide (u.keyType a1 = 7)) = km := by
    rw [hkm]; unfold State.keyType; rw [key_congr hu.slots]
  have hstop : s.maskStopped (if km then 2 else 0) = false := by
    obtain ⟨-, -, -, h0, -, h2⟩ := hw
    cases km <;> assumption
  have hshort : km = true ∨ (fld a3 31 24 = 16 * kLen a0 ∧ fld a3 31 24 ≤ 32) := by simpa using hfit
  obtain ⟨hitems, hcode, h1, h3, hclear⟩ := deriveJob_sound (km := km) (show fld a3 31 24 < 256 from fld_lt a3 31 24)
    (hshort.imp id And.right)
  obtain ⟨x, hx, hregs, hend⟩ := run_delivers hu (r := a0) (w := setFld a3 31 18 0)
    (l := deriveJob km (fld a3 31 24) :: pubJobs (kwType (setFld a3 31 18 0))) hw
    (List.forall_mem_cons.2 ⟨⟨by omega, hcode, h1, h3⟩, fun j hj => (pubJobs_sound _ j hj).imp_left fun h => by omega⟩)
    (kstForm_of_kstDest hdest) hblob (origin := 2)
    (key := deriveBytes km (s.keyBytes a1) (s.memRead a2.toNat (fld a3 31 24)) (16 * kLen a0)) (fun c s => (c, s))
    (go := fun z => z.kstPut a0 (setFld a3 31 18 0) 2
      (deriveBytes km (z.keyBytes a1) (s.memRead a2.toNat (fld a3 31 24)) (16 * kLen a0))) id
    (fun z hz => by rw [keyBytes_jobs hu hz]; rfl)
  have hderive : kstDerive u a0 a1 a2 a3 = (cOk, x) := by
    rw [← show _ = (cOk, x) from hx]
    unfold kstDerive
    rw [hkm']
    dsimp only
    rw [hu.maskStopped (by cases km <;> decide), hstop, hu.kstDest, hu.keyCheck, hdest, hcheck, hu.peatMem hlo hhi,
      if_neg (by decide), if_neg hlen, if_neg (by decide), if_neg (by decide)]
    exact if_neg fun h => by
      obtain rfl | hs := hshort
      · exact absurd h.1 (by decide)
      · omega
  obtain ⟨t, ht, honly, hends, hbut⟩ := hrun cOk x _ (by
    show kstDerive u (u.reg _) (u.reg _) (u.reg _) (u.reg _) = _
    rw [harg, harg, harg, harg, ha0, ha1, ha2, ha3, hderive]) hregs jobRegs_not_kstRegs
  obtain ⟨hgoes, hops, hkept⟩ := hend t honly
  exact ⟨t, ht, hgoes, hends, hbut, hops, fun hp => hkept (by rw [hp]; simpa using hclear)⟩

theorem unwrap_delivers (hstop : s.maskStopped 0 = false)
    (hdest : s.kstDest (s.reg (aKST_ARG 0)) (setFld (s.reg (aKST_ARG 3)) 31 18 0) = cOk)
    (hcheck : s.keyCheck 124 (s.reg (aKST_ARG 1)) 8 = cOk)
    (hkek : kSes (s.reg (aKST_ARG 1)) = true → kLen (s.reg (aKST_ARG 1)) ≤ 2)
    (hlen : fld (s.reg (aKST_ARG 3)) 31 24 = 16 * kLen (s.reg (aKST_ARG 0)) + 8) (hw : PeatWorks s 127)
    (hlo : 0x50000000 ≤ (s.reg (aKST_ARG 2)).toNat)
    (hhi : (s.reg (aKST_ARG 2)).toNat + fld (s.reg (aKST_ARG 3)) 31 24 ≤ 0x50000000 + 8 * s.bnBase true)
    (hblob : BlobKey s (s.reg (aKST_ARG 0)) (setFld (s.reg (aKST_ARG 3)) 31 18 0)) :
    ∃ t, exec (.unwrap m) s = .next t ∧
      ((kwUnwrap (s.keyBytes (s.reg (aKST_ARG 1))) (s.memRead (s.reg (aKST_ARG 2)).toNat (fld (s.reg (aKST_ARG 3)) 31 24))).isSome = true → KeyGoes s t (s.reg (aKST_ARG 0)) (setFld (s.reg (aKST_ARG 3)) 31 18 0) 1 ((kwUnwrap (s.keyBytes (s.reg (aKST_ARG 1))) (s.memRead (s.reg (aKST_ARG 2)).toNat (fld (s.reg (aKST_ARG 3)) 31 24))).getD [])) ∧
      ((kwUnwrap (s.keyBytes (s.reg (aKST_ARG 1))) (s.memRead (s.reg (aKST_ARG 2)).toNat (fld (s.reg (aKST_ARG 3)) 31 24))).isSome = false → t.slots = s.slots ∧ t.sess = s.sess ∧ t.envm = s.envm) ∧
      KstEnds s t 2 (if (kwUnwrap (s.keyBytes (s.reg (aKST_ARG 1))) (s.memRead (s.reg (aKST_ARG 2)).toNat (fld (s.reg (aKST_ARG 3)) 31 24))).isSome then cOk else cTagFail) ∧
      RegsBut (kstRegs ++ jobRegs 127) s t ∧ OperandsOnly s t ∧
      (pubJobs (kwType (setFld (s.reg (aKST_ARG 3)) 31 18 0)) = [] → BytesKept s t) := by
  obtain ⟨u, hu, harg, hrun⟩ := kst_commandJobs hg hk (op := 2) (by omega) []
  generalize ha0 : s.reg (aKST_ARG 0) = a0 at *
  generalize ha1 : s.reg (aKST_ARG 1) = a1 at *
  generalize ha2 : s.reg (aKST_ARG 2) = a2 at *
  generalize ha3 : s.reg (aKST_ARG 3) = a3 at *
  have hform := kstForm_of_kstDest hdest
  have h4 := (kLen_of_keyForm (keyForm_of_kstForm hform)).2
  have hroom : 65 ≤ s.room 10 := hw.2.2.1
  have hjobs : ∀ j ∈ aesJob (9 + (fld a3 31 24 + 3) / 4) :: pubJobs (kwType (setFld a3 31 18 0)),
      j.items ≤ s.room 10 ∧ j.code = cOk ∧ 1 ≤ j.eng ∧ j.eng ≤ 3 :=
    List.forall_mem_cons.2 ⟨⟨show 9 + (fld a3 31 24 + 3) / 4 ≤ _ by omega, rfl, show 1 ≤ 1 by omega, show 1 ≤ 3 by omega⟩,
      fun j hj => (pubJobs_sound _ j hj).imp_left fun h => by omega⟩
  have hunwrap : kstUnwrap u a0 a1 a2 a3 = u.withJobs 127
      (aesJob (9 + (fld a3 31 24 + 3) / 4) :: pubJobs (kwType (setFld a3 31 18 0))) (fun c s => (c, s)) fun z =>
        putUnwrapped z a0 (setFld a3 31 18 0) (kwUnwrap (z.keyBytes a1) (s.memRead a2.toNat (fld a3 31 24))) := by
    unfold kstUnwrap
    dsimp only
    rw [hu.maskStopped (by decide), hstop, hu.kstDest, hu.keyCheck, hdest, hcheck, hu.peatMem hlo hhi,
      if_neg (by decide), if_neg (by omega), if_neg (by decide), if_neg (by decide)]
    refine if_neg fun h => ?_
    obtain ⟨hs, hk'⟩ | h := h
    · have := hkek hs; omega
    · exact h hlen
  have hsees : kstRun u 2 [] = kstUnwrap u a0 a1 a2 a3 := by
    show kstUnwrap u (u.reg _) (u.reg _) (u.reg _) (u.reg _) = _
    rw [harg, harg, harg, harg, ha0, ha1, ha2, ha3]
  cases hkw : kwUnwrap (s.keyBytes a1) (s.memRead a2.toNat (fld a3 31 24)) with
  | some k =>
    obtain ⟨x, hx, hregs, hend⟩ := run_delivers hu hw hjobs hform hblob (origin := 1) (key := k) (fun c s => (c, s))
      (go := fun z => putUnwrapped z a0 (setFld a3 31 18 0) (kwUnwrap (z.keyBytes a1) (s.memRead a2.toNat (fld a3 31 24)))) id
      (fun z hz => by rw [keyBytes_jobs hu hz, hkw]; rfl)
    obtain ⟨t, ht, honly, hends, hbut⟩ := hrun cOk x _ (hsees.trans (hunwrap.trans hx)) hregs jobRegs_not_kstRegs
    obtain ⟨hgoes, hops, hkept⟩ := hend t honly
    exact ⟨t, ht, fun _ => hgoes, fun h => absurd h (by simp), hends, hbut, hops, fun hp => hkept (by rw [hp]; simp [aesJob])⟩
  | none =>
    obtain ⟨x, hx, hregs, hend⟩ := run_failsTag hu hw hjobs (fun c s => (c, s))
      (go := fun z => putUnwrapped z a0 (setFld a3 31 18 0) (kwUnwrap (z.keyBytes a1) (s.memRead a2.toNat (fld a3 31 24))))
      (fun z hz => by rw [keyBytes_jobs hu hz, hkw]; rfl)
    obtain ⟨t, ht, honly, hends, hbut⟩ := hrun cTagFail x _ (hsees.trans (hunwrap.trans hx)) hregs jobRegs_not_kstRegs
    obtain ⟨hstill, hops, hkept⟩ := hend t honly
    exact ⟨t, ht, fun h => absurd h (by simp), fun _ => hstill, hends, hbut, hops, fun hp => hkept (by rw [hp]; simp [aesJob])⟩

theorem copy_delivers (hform : s.kstForm (s.reg (aKST_ARG 0)) (s.reg (aKST_ARG 2)) = cOk)
    (hcheck : s.keyCheck 124 (s.reg (aKST_ARG 1)) 0 = cOk)
    (hlen : kLen (s.reg (aKST_ARG 0)) = kLen (s.reg (aKST_ARG 1)))
    (hblob : BlobKey s (s.reg (aKST_ARG 0)) (s.reg (aKST_ARG 2))) :
    ∃ t, exec (.kstCopy m) s = .next t ∧
      KeyGoes s t (s.reg (aKST_ARG 0)) (s.reg (aKST_ARG 2)) (if kSes (s.reg (aKST_ARG 1)) then 2
        else ((s.key (kSlot (s.reg (aKST_ARG 1)))).map Slot.origin).getD 2) (s.keyBytes (s.reg (aKST_ARG 1))) ∧
      KstEnds s t 4 cOk ∧ RegsBut kstRegs s t ∧ BytesKept s t := by
  obtain ⟨u, hu, harg, hrun⟩ := kst_commandJobs hg hk (op := 4) (by omega) []
  generalize ha0 : s.reg (aKST_ARG 0) = a0 at *
  generalize ha1 : s.reg (aKST_ARG 1) = a1 at *
  generalize ha2 : s.reg (aKST_ARG 2) = a2 at *
  obtain ⟨x, hput, hgoes, honly⟩ := kstPut_delivers ((hu.kstForm a0 a2).trans hform) (hu.blobKey hblob)
    (if kSes a1 then 2 else ((s.key (kSlot a1)).map Slot.origin).getD 2) (s.keyBytes a1)
  obtain ⟨hxregs, hxbytes⟩ := kstPut_only honly
  have hcopy : kstRun u 4 [] = (cOk, x) := by
    show kstCopy u (u.reg _) (u.reg _) (u.reg _) = _
    rw [harg, harg, harg, ha0, ha1, ha2, kstCopy, if_neg (by rw [hu.kstForm, hform]; decide),
      if_neg (by rw [hu.keyCheck, hcheck]; decide), if_neg (by rw [hlen]; simp), hu.keyBytes, key_congr hu.slots, ← hput]
    cases s.key (kSlot a1) <;> rfl
  obtain ⟨t, ht, hend, hends, hbut⟩ := hrun cOk x [] hcopy (regsBut_of_regs hxregs _) (by simp)
  exact ⟨t, ht, delivered hu (JobsFrame.refl 127 u) hgoes hend, hends, hbut,
    BytesKept.trans hu.bytes (BytesKept.trans hxbytes (BytesKept.of_regsAndCounts hend))⟩

/-! ### GENERATE (R299) -/

/-- A GENERATE of the destination r and the key word w asks for its conditioned output. -/
def asksFor (u : State) (r w : Word) : State := (u.setKst (some ⟨r, w, false⟩)).srb aKST_STATUS 0 true

/-- The state in which a GENERATE asks for its conditioned output. -/
def generateAsks (s : State) (m : Master) : State := asksFor (kstReady s m 1) (s.reg (aKST_ARG 0)) (s.reg (aKST_ARG 1))

theorem exec_generate (hfail : s.rngFailed = false) (hdest : s.kstDest (s.reg (aKST_ARG 0)) (s.reg (aKST_ARG 1)) = cOk) :
    exec (.generate m) s = .next (generateAsks s m).kstGoesOn := by
  have hgo : s.owned m aKST_CMD (kstGo 1 []) =
      kstGenerate (kstReady s m 1) ((kstReady s m 1).reg (aKST_ARG 0)) ((kstReady s m 1).reg (aKST_ARG 1)) := by
    rw [owned_granted hg, kstGo_idle (by rw [access_peat, hk]), if_pos rfl]
    rfl
  have hempty : (kstReady s m 1).rb aKST_STATUS 1 = s.rb aKST_STATUS 1 :=
    congrArg (bit · 1) (reg_kstReady s m 1 (by decide) (by decide))
  have hd : ∀ r w, (kstReady s m 1).kstDest r w = s.kstDest r w := kstDest_congr
    ((kstReady_only s m 1).view (·.sess) fun _ _ => rfl) ((kstReady_only s m 1).view (·.slots) fun _ _ => rfl)
    ((kstReady_only s m 1).view (·.envm) fun _ _ => rfl) hempty
  refine congrArg done (hgo.trans ?_)
  rw [reg_arg_kstReady, reg_arg_kstReady, kstGenerate, rngFailed_congr (reg_kstReady s m 1 (by decide) (by decide)), hfail, hd,
    hdest]
  rfl

end

/-! ### What a GENERATE that asks has changed -/

theorem asksFor_kst (u : State) (r w : Word) : (asksFor u r w).peat.kst = some ⟨r, w, false⟩ := by
  rw [asksFor, srb_peat]; rfl

theorem asksFor_trng (u : State) (r w : Word) : (asksFor u r w).trng = u.trng := by
  rw [asksFor, srb_trng]; rfl

theorem reg_asksFor (u : State) (r w : Word) (a : Nat) :
    (asksFor u r w).reg a = if a = aKST_STATUS then setFld (u.reg aKST_STATUS) 0 0 1 else u.reg a := by
  rw [asksFor, reg_srb]; rfl

theorem asksFor_sees (u : State) (r w : Word) : KstSees u (asksFor u r w) where
  only := by
    have h : RegsOnly (u.setKst (some ⟨r, w, false⟩)) (asksFor u r w) := regsOnly_setReg ..
    rw [RegsOnly] at h
    generalize asksFor u r w = t at *
    rw [h]; rfl
  regs := RegsBut.trans (regsBut_of_regs rfl _) (regsBut_srb _ (by simp) 0 true)
  empty := by
    rw [State.rb, reg_asksFor, if_pos rfl, bit_setFld_ne _ (by omega) (by omega) (by omega)]; rfl

theorem KstSees.trans {s t u : State} (h : KstSees s t) (h' : KstSees t u) : KstSees s u where
  only := by rw [h'.only, h.only]
  regs := RegsBut.trans h.regs h'.regs
  empty := h'.empty.trans h.empty

theorem kstReady_sees (s : State) (m : Master) (op : Nat) : KstSees s (kstReady s m op) :=
  ⟨KstSees.of_regsAndCounts (kstReady_only s m op), RegsBut.mono (regsBut_kstReady s m op) (by simp [kstRegs]),
    congrArg (bit · 1) (reg_kstReady s m op (by decide) (by decide))⟩

theorem generateAsks_sees (s : State) (m : Master) : KstSees s (generateAsks s m) :=
  (kstReady_sees s m 1).trans (asksFor_sees ..)

theorem generateAsks_kst (s : State) (m : Master) :
    (generateAsks s m).peat.kst = some ⟨s.reg (aKST_ARG 0), s.reg (aKST_ARG 1), false⟩ := asksFor_kst ..

theorem servedTo_generateAsks (s : State) (m : Master) (w : Drawer) : (generateAsks s m).servedTo w = s.servedTo w := by
  unfold State.servedTo
  rw [generateAsks, asksFor_trng, (kstReady_only s m 1).view (·.trng) fun _ _ => rfl]

theorem reg_status_generateAsks (s : State) (m : Master) :
    (generateAsks s m).reg aKST_STATUS = setFld (s.reg aKST_STATUS) 0 0 1 := by
  rw [generateAsks, reg_asksFor, if_pos rfl, reg_kstReady s m 1 (by decide) (by decide)]

theorem reg_cmd_generateAsks (s : State) (m : Master) :
    (generateAsks s m).reg aKST_CMD = setFld (s.reg aKST_CMD) 23 16 1 := by
  rw [generateAsks, reg_asksFor, if_neg (by decide), reg_cmd_kstReady]

theorem reg_result_generateAsks (s : State) (m : Master) :
    (generateAsks s m).reg aKST_RESULT = w32 (cPending.toNat * 2 ^ 24) := by
  rw [generateAsks, reg_asksFor, if_neg (by decide), kstReady, reg_setReg_same]

theorem waits_of_sees {s v : State} {k : KstRun} {l : List Caller} {a b c : Word} (hv : KstSees s v) (hk : v.peat.kst = some k)
    (hwait : (v.setCallers l).drawWaits .keyStore = true) (hres : v.reg aKST_RESULT = a) (hst : v.reg aKST_STATUS = b)
    (hcmd : v.reg aKST_CMD = c) :
    (v.setCallers l).peat.kst.isSome = true ∧ (v.setCallers l).drawWaits .keyStore = true ∧
      (v.setCallers l).slots = s.slots ∧ (v.setCallers l).sess = s.sess ∧ (v.setCallers l).envm = s.envm ∧
      (v.setCallers l).reg aKST_RESULT = a ∧ (v.setCallers l).reg aKST_STATUS = b ∧ (v.setCallers l).reg aKST_CMD = c ∧
      RegsBut kstRegs s (v.setCallers l) ∧ BytesKept s (v.setCallers l) := by
  have hreg : ∀ a, (v.setCallers l).reg a = v.reg a := reg_congr (regs_setCallers v l)
  exact ⟨congrArg Option.isSome hk, hwait, hv.slots, hv.sess, hv.envm, (hreg _).trans hres, (hreg _).trans hst, (hreg _).trans hcmd,
    RegsBut.trans hv.regs (regsBut_of_regs rfl _), BytesKept.trans hv.bytes (bytesKept_of_eq rfl rfl)⟩

section
variable {s : State} {m : Master} (hg : Grants s m aKST_CMD) (hk : s.peat.kst = none)
include hg hk

theorem generate_delivers {d : Bytes} (hdest : s.kstDest (s.reg (aKST_ARG 0)) (s.reg (aKST_ARG 1)) = cOk)
    (hd : s.servedTo .keyStore = some (cOk, d)) (hfail : s.rngFailed = false)
    (hblob : BlobKey s (s.reg (aKST_ARG 0)) (s.reg (aKST_ARG 1))) (hw : PeatWorks s 127) :
    ∃ t, exec (.generate m) s = .next t ∧
      KeyGoes s t (s.reg (aKST_ARG 0)) (s.reg (aKST_ARG 1)) 0 (generatedKey (s.reg (aKST_ARG 0)) (s.reg (aKST_ARG 1)) d) ∧
      KstEnds s t 1 cOk ∧ RegsBut (kstRegs ++ jobRegs 127) s t ∧ OperandsOnly s t ∧
      ((kSes (s.reg (aKST_ARG 0)) = true ∨ pubJobs (kwType (s.reg (aKST_ARG 1))) = []) → BytesKept s t) := by
  have hv := generateAsks_sees s m
  obtain ⟨x, hx, hregs, hgoes, hops, hkept⟩ := kstGoesOn_delivers (generateAsks_kst s m) rfl (d := d)
    ((servedTo_generateAsks ..).trans hd) ((hv.kstDest _ _).trans hdest) (hv.works hw) (hv.blobKey hblob)
  obtain ⟨honly, hres, hst, hbut⟩ := kstEnd_frame (x.setKst none) cOk
  have hxreg : ∀ a ∈ kstRegs, x.reg a = (generateAsks s m).reg a := fun a ha =>
    hregs a (fun hj => jobRegs_not_kstRegs a hj ha) (by
      have h : ∀ a ∈ kstRegs, ¬ Counted a := by unfold Counted; decide
      exact h a ha)
  refine ⟨_, (exec_generate hg hk hfail hdest).trans (congrArg done hx), ?_, ⟨?_, hres, ?_⟩, ?_, ?_, fun h => ?_⟩
  · exact KeyGoes.congr hv.envm hv.sess hv.slots ((kstEnd_only (x.setKst none) cOk).view (·.envm) fun _ _ => rfl)
      ((kstEnd_only (x.setKst none) cOk).view (·.sess) fun _ _ => rfl)
      ((kstEnd_only (x.setKst none) cOk).view (·.slots) fun _ _ => rfl) hgoes
  · rw [hbut aKST_CMD (by decide) (by unfold Counted aKST_CMD; omega), ← reg_cmd_generateAsks]
    exact hxreg _ (by simp)
  · rw [hst, show (x.setKst none).reg aKST_STATUS = _ from hxreg _ (by simp), reg_status_generateAsks,
      setFld_setFld _ (by omega) (by omega)]
  · exact RegsBut.trans (RegsBut.mono hv.regs (by simp +contextual)) (RegsBut.trans (RegsBut.mono hregs (by simp +contextual))
      (RegsBut.trans (regsBut_of_regs rfl _) (RegsBut.mono hbut (by simp [kstRegs]))))
  · exact OperandsOnly.trans (OperandsOnly.of_bytesKept hv.bytes) (OperandsOnly.trans hops
      (OperandsOnly.of_bytesKept (BytesKept.trans (bytesKept_of_eq (t := x.setKst none) rfl rfl) (BytesKept.of_regsAndCounts (kstEnd_only (x.setKst none) cOk)))))
  · exact BytesKept.trans hv.bytes (BytesKept.trans (hkept h)
      (BytesKept.trans (bytesKept_of_eq (t := x.setKst none) rfl rfl) (BytesKept.of_regsAndCounts (kstEnd_only (x.setKst none) cOk))))

theorem generate_waits (hdest : s.kstDest (s.reg (aKST_ARG 0)) (s.reg (aKST_ARG 1)) = cOk)
    (hd : s.servedTo .keyStore = none) (hfail : s.rngFailed = false) :
    ∃ t, exec (.generate m) s = .next t ∧ t.peat.kst.isSome = true ∧ t.drawWaits .keyStore = true ∧
      t.slots = s.slots ∧ t.sess = s.sess ∧ t.envm = s.envm ∧ t.reg aKST_RESULT = w32 (cPending.toNat * 2 ^ 24) ∧
      t.reg aKST_STATUS = setFld (s.reg aKST_STATUS) 0 0 1 ∧ t.reg aKST_CMD = setFld (s.reg aKST_CMD) 23 16 1 ∧
      RegsBut kstRegs s t ∧ BytesKept s t := by
  have hv := generateAsks_sees s m
  obtain ⟨l, hl, hwait⟩ := kstGoesOn_waits (generateAsks_kst s m) ((servedTo_generateAsks ..).trans hd)
    ((rngFailed_congr (hv.reg (by decide) (by unfold Counted aTRNG_STATUS; omega))).trans hfail)
  exact ⟨_, (exec_generate hg hk hfail hdest).trans (congrArg done hl), waits_of_sees hv (generateAsks_kst s m) hwait
    (reg_result_generateAsks s m) (reg_status_generateAsks s m) (reg_cmd_generateAsks s m)⟩

end

/-- Settles O26 (R295 to R299): by the command, and for GENERATE by whether its draw is there. -/
theorem keyStoreMakesKeys : Obligations.KeyStoreMakesKeys := by
  unfold Obligations.KeyStoreMakesKeys
  refine ⟨?_, ?_, ?_, ?_, ?_⟩
  · intro s m d hg hk hdest hd hfail hblob hw _
    obtain ⟨t, hexec, hkey, hends⟩ := generate_delivers hg hk hdest hd hfail hblob hw
    exact ⟨t, hexec, KeyGoes.whole hkey, hends⟩
  · intro s m hg hk hdest hd hfail
    exact generate_waits hg hk hdest hd hfail
  · intro s m hg hk hstop hdest hcheck hkek hlen hw hlo hhi hblob
    exact unwrap_delivers hg hk hstop hdest hcheck hkek hlen hw hlo hhi hblob
  · intro s m km hg hk hlen hdest hcheck hkm hfit hw hroom hblob hlo hhi
    exact derive_delivers hg hk hlen hdest hcheck hkm hfit hw hroom hblob hlo hhi
  · intro s m hg hk hform hcheck hlen hblob
    exact copy_delivers hg hk hform hcheck hlen hblob

end Proofs
end Sys2Proof

/-! PROOFS. A conditioned block reaches those that wait for it (R309, R316). -/
namespace Sys2Proof
namespace Proofs

open Sys2Proof.Machine Sys2Proof.Safety Sys2Proof.Laws

/-! ### A pool that passes, and where its block goes -/

theorem toWords_take (b : Bytes) (k : Nat) : toWords (b.take (4 * k)) = (toWords b).take k := by
  induction b using toWords.induct generalizing k with
  | case5 a b c d t ih =>
    cases k with
    | zero => rfl
    | succ k => simpa [toWords, Nat.mul_succ] using ih k
  | _ => cases k <;> simp [toWords, Nat.mul_succ]

/-- What a pool that passes leaves before its block is delivered: the source is RUNNING with RUN 0. -/
theorem poolPassed_frame (s : State) (raw : Bytes) :
    (poolPassed s raw).rngState = 3 ∧ (poolPassed s raw).rf aTRNG_STATUS 5 4 = 0 ∧
      RegsBut [aTRNG_STATUS] s (poolPassed s raw) ∧
      poolPassed s raw = { s with regs := (poolPassed s raw).regs,
                                  trng := { s.trng with tests := (s.testPool raw).map Prod.fst } } := by
  refine ⟨rngState_setRng _ (by decide), ?_, regsBut_poolPassed s raw (by simp), rfl⟩
  exact (rf_srf_ne _ _ _ (by omega) (by omega) (by omega) (by omega)).trans (rf_srf_same _ _ _ (by omega) (by omega))

theorem exec_poolComplete {s : State} {raw : Bytes} (hs : s.rngState = 3 ∨ (s.rngState = 2 ∧ s.trng.testsPassed = true))
    (h : ((s.testPool raw).all fun x => !x.2.1 && !x.2.2) = true) :
    exec (.poolComplete raw) s = .next ((poolPassed s raw).deliverBlock (shakeH (slice raw 0 256) 32)).goesOn :=
  congrArg (fun t => done (State.goesOn t)) (poolComplete_passed hs h)

/-- The request of one drawer is served with the bytes d, and none waits any more. -/
def servedBy (u : State) (w : Drawer) (d : Bytes) : State :=
  { u with trng := { u.trng with reqs := [], served := u.trng.served ++ [(w, cOk, d)] } }

/-- What stands beside the request that is served. -/
structure ServedBy (s v : State) (tests : List SourceTest) : Prop where
  peat : v.peat = s.peat
  envm : v.envm = s.envm
  sess : v.sess = s.sess
  slots : v.slots = s.slots
  power : v.power = s.power
  mem : v.mem = s.mem
  flash : v.flash = s.flash
  reqs : v.trng.reqs = []
  tests : v.trng.tests = tests

theorem servedBy_frame {s u : State} {tests : List SourceTest}
    (h : u = { s with regs := u.regs, trng := { s.trng with tests := tests } }) (w : Drawer) (d : Bytes) :
    ServedBy s (servedBy u w d) tests := by
  rw [h]
  exact ⟨rfl, rfl, rfl, rfl, rfl, rfl, rfl, rfl, rfl⟩

theorem slice_whole {b : Bytes} {n : Nat} (h : b.length = n) : slice b 0 n = b := by
  simp [slice, zeros, ← h]

theorem deliverBlock_draw {u : State} {w : Drawer} {need : Nat} (hreqs : u.trng.reqs = [.draw w need []]) {b : Bytes}
    (hb : need ≤ b.length) : u.deliverBlock b = servedBy u w (b.take need) := by
  rw [deliverBlock_noMask (by rw [hreqs]; rfl), hreqs, State.serve, if_pos (by simpa using hb)]
  rfl

/-- The port's request of k words is complete, and none waits any more. -/
def portServed (u : State) (l : List Word) : State :=
  ((({ u with trng := { u.trng with out := u.trng.out ++ l } }).srf aTRNG_PORT 31 24 cOk.toNat).ended 0x0C cOk).setCallers []

theorem deliverBlock_port {u : State} {k : Nat} (hreqs : u.trng.reqs = [.port k]) {b : Bytes} (hb : 4 * k ≤ b.length) :
    u.deliverBlock b = portServed u ((toWords b).take k) := by
  rw [deliverBlock_noMask (by rw [hreqs]; rfl), hreqs, State.serve, if_pos hb, toWords_take]
  rfl

theorem portServed_frame (u : State) (l : List Word) :
    (portServed u l).rf aTRNG_PORT 31 24 = cOk.toNat ∧ RegsBut [aTRNG_PORT] u (portServed u l) ∧
      portServed u l = { u with regs := (portServed u l).regs, prfAcc := (portServed u l).prfAcc,
                                trng := { u.trng with reqs := [], out := u.trng.out ++ l } } := by
  have hport := rf_srf_portStatus { u with trng := { u.trng with out := u.trng.out ++ l } } cOk
  have hregs : RegsBut [aTRNG_PORT] u ({ u with trng := { u.trng with out := u.trng.out ++ l } }.srf aTRNG_PORT 31 24 cOk.toNat) :=
    RegsBut.trans (regsBut_of_regs rfl _) (regsBut_srf _ (by simp) 31 24 _)
  have honly : { u with trng := { u.trng with out := u.trng.out ++ l } }.srf aTRNG_PORT 31 24 cOk.toNat =
      { u with regs := ({ u with trng := { u.trng with out := u.trng.out ++ l } }.srf aTRNG_PORT 31 24 cOk.toNat).regs,
               trng := { u.trng with out := u.trng.out ++ l } } := rfl
  unfold portServed
  generalize { u with trng := { u.trng with out := u.trng.out ++ l } }.srf aTRNG_PORT 31 24 cOk.toNat = v at *
  have hend : RegsOnly v (v.ended 0x0C cOk) := regsOnly_ended ..
  refine ⟨?_, RegsBut.trans hregs (RegsBut.trans (regsBut_ended _ _ (by omega) _) (regsBut_of_regs rfl _)), ?_⟩
  · rw [← hport]
    exact (rf_congr (regs_setCallers ..) _ _ _).trans (rf_ended v cOk (by omega) not_prfAddr_trngPort _ _)
  · rw [RegsOnly] at hend
    generalize v.ended 0x0C cOk = w at *
    rw [hend, honly]; rfl

/-! ### A GENERATE without jobs takes its draw -/

theorem withJobs_nil {α : Type} (s : State) (ch : Nat) (fail : Byte → State → α) (go : State → α) :
    s.withJobs ch [] fail go = go s := rfl

theorem kstGoesOn_noJobs {s : State} {k : KstRun} {d : Bytes} (hk : s.peat.kst = some k) (hmixed : k.mixed = false)
    (hd : s.servedTo .keyStore = some (cOk, d)) (hdest : s.kstDest k.a0 k.a1 = cOk) (hjobs : pubJobs (kwType k.a1) = [])
    (hblob : BlobKey s k.a0 k.a1) :
    ∃ x, s.kstGoesOn = (x.setKst none).kstEnd cOk ∧ KeyGoes s x k.a0 k.a1 0 (generatedKey k.a0 k.a1 d) ∧
      x = { s.forgetDraw .keyStore with envm := x.envm, slots := x.slots, sess := x.sess } := by
  have hu : KstSees s (s.forgetDraw .keyStore) := ⟨rfl, regsBut_of_regs rfl _, rfl⟩
  have hdest' := (hu.kstDest k.a0 k.a1).trans hdest
  obtain ⟨x, hx, hgoes, honly⟩ := kstPut_delivers (kstForm_of_kstDest hdest') (hu.blobKey hblob) 0 (generatedKey k.a0 k.a1 d)
  refine ⟨x, ?_, KeyGoes.congr hu.envm hu.sess hu.slots rfl rfl rfl hgoes, honly⟩
  rw [← kstDone_unmixed hmixed]
  unfold State.kstGoesOn State.draw
  simp only [hk, hd, ne_eq, not_true, if_true, Drawn.next, hdest', if_false, hjobs, ite_self]
  rw [withJobs_nil]
  cases hses : kSes k.a0 with
  | true => rw [generatedKey, hses, if_pos rfl] at hx; rw [if_pos rfl, if_pos rfl, hx]
  | false => rw [generatedKey, hses, if_neg (by decide)] at hx; rw [if_neg (by decide), if_neg (by decide), hx]

/-- What a served GENERATE without jobs leaves. -/
theorem kstGoesOn_noJobs_frame {s : State} {k : KstRun} {d : Bytes} (hk : s.peat.kst = some k) (hmixed : k.mixed = false)
    (hd : s.servedTo .keyStore = some (cOk, d)) (hdest : s.kstDest k.a0 k.a1 = cOk) (hjobs : pubJobs (kwType k.a1) = [])
    (hblob : BlobKey s k.a0 k.a1) :
    s.kstGoesOn.trng = (s.forgetDraw .keyStore).trng ∧ s.kstGoesOn.peat = { s.peat with kst := none } ∧
      KeyGoes s s.kstGoesOn k.a0 k.a1 0 (generatedKey k.a0 k.a1 d) ∧
      s.kstGoesOn.reg aKST_RESULT = w32 (cOk.toNat * 2 ^ 24 + 1) ∧ s.kstGoesOn.rb aKST_STATUS 0 = false ∧
      RegsBut [aKST_RESULT, aKST_STATUS] s s.kstGoesOn ∧ BytesKept s s.kstGoesOn := by
  obtain ⟨x, hx, hgoes, honly⟩ := kstGoesOn_noJobs hk hmixed hd hdest hjobs hblob
  have hpeat : (x.setKst none).peat = { s.peat with kst := none } := by rw [honly]; rfl
  have htrng : (x.setKst none).trng = (s.forgetDraw .keyStore).trng := by rw [honly]; rfl
  have hregs : (x.setKst none).regs = s.regs := by rw [honly]; rfl
  have hbytes : BytesKept s (x.setKst none) := bytesKept_of_eq (by rw [honly]; rfl) (by rw [honly]; rfl)
  have hgoes' : KeyGoes s (x.setKst none) k.a0 k.a1 0 (generatedKey k.a0 k.a1 d) :=
    KeyGoes.congr rfl rfl rfl rfl rfl rfl hgoes
  rw [hx]
  generalize x.setKst none = y at *
  obtain ⟨-, hres, hst, hbut⟩ := kstEnd_frame y cOk
  have hend := kstEnd_only y cOk
  refine ⟨(hend.view (·.trng) fun _ _ => rfl).trans htrng, (hend.view (·.peat) fun _ _ => rfl).trans hpeat,
    KeyGoes.congr rfl rfl rfl (hend.view (·.envm) fun _ _ => rfl) (hend.view (·.sess) fun _ _ => rfl)
      (hend.view (·.slots) fun _ _ => rfl) hgoes', hres, ?_, RegsBut.trans (regsBut_of_regs hregs _) hbut,
    BytesKept.trans hbytes (BytesKept.of_regsAndCounts hend)⟩
  rw [State.rb, hst]
  exact bit_setFld_same _ (by omega) false

/-! ### The clauses of the statement -/

section
variable {s : State} {raw : Bytes} (hs : s.rngState = 3 ∨ (s.rngState = 2 ∧ s.trng.testsPassed = true))
  (htests : ((s.testPool raw).all fun x => !x.2.1 && !x.2.2) = true) (hserved : s.trng.served = [])
  (hentry : s.envm.entryDue = none)
include hs htests hserved hentry

theorem block_to_mask {n : Nat} (hmask : firstMask s.trng.reqs = some n) (hkis : s.peat.kisDue = false) :
    ∃ t, exec (.poolComplete raw) s = .next t ∧ t.reg (aTRNG_MASK n) = 0x80000000 ∧
      t.trng.reqs = s.trng.reqs.erase (.mask n) ∧ t.trng.out = s.trng.out ∧ t.rf aTRNG_STATUS 5 4 = 0 ∧
      t.rngState = 3 ∧ t.trng.tests = (s.testPool raw).map Prod.fst ∧ RegsBut [aTRNG_STATUS, aTRNG_MASK n] s t := by
  have hexec := exec_poolComplete hs htests
  obtain ⟨hst, hrun, hregs, honly⟩ := poolPassed_frame s raw
  generalize poolPassed s raw = u at *
  have hne : aTRNG_STATUS ≠ aTRNG_MASK n := by unfold aTRNG_STATUS aTRNG_MASK; omega
  have hdel : ∀ b, u.deliverBlock b = (u.setCallers (s.trng.reqs.erase (.mask n))).reseeded n := fun b => by
    have hreqs : u.trng.reqs = s.trng.reqs := by rw [honly]
    unfold State.deliverBlock; rw [hreqs, hmask]
  rw [hdel, goesOn_none (by rw [honly]; exact hserved) (by rw [honly]; exact hkis) (by rw [honly]; exact hentry)] at hexec
  have hstatus : ((u.setCallers (s.trng.reqs.erase (.mask n))).reseeded n).reg aTRNG_STATUS = u.reg aTRNG_STATUS :=
    reg_setReg_ne _ hne _
  refine ⟨_, hexec, reg_setReg_same .., rfl, by rw [honly]; rfl, ?_, ?_, by rw [honly]; rfl, ?_⟩
  · rw [← hrun]; exact congrArg (fld · 5 4) hstatus
  · rw [← hst]; exact congrArg (fld · 2 0) hstatus
  · exact RegsBut.trans (RegsBut.mono hregs (by simp)) (regsBut_setReg _ (by simp) _)

theorem block_to_port {k : Nat} (hreqs : s.trng.reqs = [.port k]) (hk : k ≤ 8) (hkis : s.peat.kisDue = false) :
    ∃ t, exec (.poolComplete raw) s = .next t ∧
      t.trng.out = s.trng.out ++ (toWords (shakeH (slice raw 0 256) 32)).take k ∧ t.trng.reqs = [] ∧
      t.rf aTRNG_PORT 31 24 = cOk.toNat ∧ t.rf aTRNG_STATUS 5 4 = 0 ∧ t.rngState = 3 ∧
      t.trng.tests = (s.testPool raw).map Prod.fst ∧ RegsBut [aTRNG_STATUS, aTRNG_PORT] s t := by
  have hexec := exec_poolComplete hs htests
  obtain ⟨hst, hrun, hregs, honly⟩ := poolPassed_frame s raw
  generalize poolPassed s raw = u at *
  generalize hb : shakeH (slice raw 0 256) 32 = b at *
  have hlen : b.length = 32 := by rw [← hb]; exact length_shakeH ..
  rw [deliverBlock_port (by rw [honly]; exact hreqs) (by omega)] at hexec
  obtain ⟨hport, hbut, hrest⟩ := portServed_frame u ((toWords b).take k)
  generalize portServed u ((toWords b).take k) = t at *
  have hstatus : t.reg aTRNG_STATUS = u.reg aTRNG_STATUS := hbut _ (by decide) (by unfold Counted aTRNG_STATUS; omega)
  rw [goesOn_none (by rw [hrest, honly]; exact hserved) (by rw [hrest, honly]; exact hkis)
    (by rw [hrest, honly]; exact hentry)] at hexec
  refine ⟨t, hexec, by rw [hrest, honly], by rw [hrest], hport, ?_, ?_, by rw [hrest, honly], ?_⟩
  · rw [← hrun]; exact congrArg (fld · 5 4) hstatus
  · rw [← hst]; exact congrArg (fld · 2 0) hstatus
  · exact RegsBut.trans (RegsBut.mono hregs (by simp)) (RegsBut.mono hbut (by simp))

theorem block_to_generate {k : KstRun} {need : Nat} (hreqs : s.trng.reqs = [.draw .keyStore need []]) (h32 : need ≤ 32)
    (hk : s.peat.kst = some k) (hmixed : k.mixed = false)
    (hneed : need = (if kSes k.a0 then 16 * kLen k.a0 else drawBytes (kwType k.a1))) (hdest : s.kstDest k.a0 k.a1 = cOk)
    (hblob : BlobKey s k.a0 k.a1) (hjobs : pubJobs (kwType k.a1) = []) (hkis : s.peat.kisDue = false) :
    ∃ t, exec (.poolComplete raw) s = .next t ∧ t.peat.kst = none ∧ t.trng.reqs = [] ∧
      KeyGoes s t k.a0 k.a1 0 (if kSes k.a0 then (shakeH (slice raw 0 256) 32).take need
        else keyOfDraw (kwType k.a1) ((shakeH (slice raw 0 256) 32).take need)) ∧
      t.reg aKST_RESULT = w32 (cOk.toNat * 2 ^ 24 + 1) ∧ t.rb aKST_STATUS 0 = false ∧ t.rf aTRNG_STATUS 5 4 = 0 ∧
      t.rngState = 3 ∧ t.trng.tests = (s.testPool raw).map Prod.fst ∧
      RegsBut [aTRNG_STATUS, aKST_RESULT, aKST_STATUS] s t ∧ BytesKept s t := by
  have hexec := exec_poolComplete hs htests
  obtain ⟨hst, hrun, hregs, honly⟩ := poolPassed_frame s raw
  generalize poolPassed s raw = u at *
  generalize hb : shakeH (slice raw 0 256) 32 = b at *
  have hlen : b.length = 32 := by rw [← hb]; exact length_shakeH ..
  rw [deliverBlock_draw (by rw [honly]; exact hreqs) (by omega)] at hexec
  have hservedBy : (servedBy u .keyStore (b.take need)).servedTo .keyStore = some (cOk, b.take need) ∧
      (servedBy u .keyStore (b.take need)).drawsServed = (servedBy u .keyStore (b.take need)).kstGoesOn := by
    have : (servedBy u .keyStore (b.take need)).trng.served = [(.keyStore, cOk, b.take need)] := by
      show u.trng.served ++ _ = _
      rw [honly]; exact (congrArg (· ++ _) hserved).trans rfl
    exact ⟨servedTo_one this, drawsServed_one this⟩
  have hv := servedBy_frame honly .keyStore (b.take need)
  have hvregs : (servedBy u .keyStore (b.take need)).regs = u.regs := rfl
  generalize servedBy u .keyStore (b.take need) = v at *
  have hempty : v.rb aKST_STATUS 1 = s.rb aKST_STATUS 1 :=
    (rb_congr hvregs _ _).trans (congrArg (bit · 1) (hregs _ (by decide) (by unfold Counted aKST_STATUS; omega)))
  obtain ⟨gtrng, gpeat, ggoes, gres, gbusy, gregs, gbytes⟩ := kstGoesOn_noJobs_frame (s := v) (hv.peat ▸ hk) hmixed hservedBy.1
    ((kstDest_congr hv.sess hv.slots hv.envm hempty _ _).trans hdest) hjobs (by
      unfold BlobKey State.slotClass at *; rw [hv.power, hv.envm]; exact hblob)
  have hgoes : v.goesOn = v.kstGoesOn := by
    rw [State.goesOn, hservedBy.2]
    exact generateDue_none (by rw [gpeat, hv.peat]; exact hkis) (by rw [ggoes.1, hv.envm]; exact hentry)
  rw [hgoes] at hexec
  have hstatus : v.kstGoesOn.reg aTRNG_STATUS = u.reg aTRNG_STATUS :=
    (gregs _ (by decide) (by unfold Counted aTRNG_STATUS; omega)).trans (reg_congr hvregs _)
  refine ⟨_, hexec, by rw [gpeat], ?_, ?_, gres, gbusy, ?_, ?_, ?_, ?_, ?_⟩
  · rw [gtrng, State.forgetDraw, hv.reqs]; rfl
  · have hlen : (b.take need).length = need := by rw [List.length_take]; omega
    have := KeyGoes.congr hv.envm hv.sess hv.slots rfl rfl rfl ggoes
    unfold generatedKey at this
    cases hses : kSes k.a0 with
    | true => rw [hses, if_pos rfl] at this hneed; rw [← hneed, slice_whole hlen] at this; rwa [if_pos rfl]
    | false => rw [hses, if_neg (by decide)] at this hneed; rw [← hneed, slice_whole hlen] at this; rwa [if_neg (by decide)]
  · rw [← hrun]; exact congrArg (fld · 5 4) hstatus
  · rw [← hst]; exact congrArg (fld · 2 0) hstatus
  · rw [gtrng]; exact hv.tests
  · exact RegsBut.trans (RegsBut.mono hregs (by simp)) (RegsBut.trans (regsBut_of_regs hvregs _) (RegsBut.mono gregs (by simp)))
  · exact BytesKept.trans (bytesKept_of_eq hv.mem hv.flash) gbytes

theorem block_to_kis (hreqs : s.trng.reqs = [.draw .kis 16 []]) (hkis : s.peat.kisDue = true) (hres : s.resumed = true)
    (hsafe : s.power.safeState = false) (hroot : s.power.rootKnown = true) (hempty : s.rb aKST_STATUS 1 = false) :
    ∃ t, exec (.poolComplete raw) s = .next t ∧ t.trng.reqs = [] ∧ t.peat.kisDue = false ∧
      t.envm = { s.envm with kis := some ((shakeH (slice raw 0 256) 32).take 16) } ∧
      (t.key 13).map Slot.key = some ((shakeH (slice raw 0 256) 32).take 16) ∧ t.rf aTRNG_STATUS 5 4 = 0 ∧
      t.rngState = 3 ∧ t.trng.tests = (s.testPool raw).map Prod.fst ∧ RegsBut [aTRNG_STATUS] s t ∧ BytesKept s t := by
  have hexec := exec_poolComplete hs htests
  obtain ⟨hst, hrun, hregs, honly⟩ := poolPassed_frame s raw
  generalize poolPassed s raw = u at *
  generalize hb : shakeH (slice raw 0 256) 32 = b at *
  have hlen : (b.take 16).length = 16 := by rw [← hb, List.length_take, length_shakeH]; rfl
  rw [deliverBlock_draw (by rw [honly]; exact hreqs) (by rw [← hb, length_shakeH]; omega)] at hexec
  have hservedBy : (servedBy u .kis (b.take 16)).servedTo .kis = some (cOk, b.take 16) ∧
      (servedBy u .kis (b.take 16)).drawsServed = servedBy u .kis (b.take 16) := by
    have : (servedBy u .kis (b.take 16)).trng.served = [(.kis, cOk, b.take 16)] := by
      show u.trng.served ++ _ = _
      rw [honly]; exact (congrArg (· ++ _) hserved).trans rfl
    exact ⟨servedTo_one this, drawsServed_one this⟩
  have hv := servedBy_frame honly .kis (b.take 16)
  have hvregs : (servedBy u .kis (b.take 16)).regs = u.regs := rfl
  generalize servedBy u .kis (b.take 16) = v at *
  have hvempty : v.rb aKST_STATUS 1 = false :=
    ((rb_congr hvregs _ _).trans (congrArg (bit · 1) (hregs _ (by decide) (by unfold Counted aKST_STATUS; omega)))).trans hempty
  have hgoes : v.goesOn = (v.forgetDraw .kis).makeKis (b.take 16) := by
    rw [State.goesOn, hservedBy.2, State.generateDue, State.resumed, hv.power, hv.envm, hentry]
    rw [if_pos ⟨hres, hsafe, hroot⟩, State.kisIfDue, hv.peat, hkis, hvempty, State.draw, hservedBy.1]
    show (v.forgetDraw .kis).makeKis (slice (b.take 16) 0 16) = _
    rw [slice_whole hlen]
  rw [hgoes] at hexec
  refine ⟨_, hexec, ?_, rfl, ?_, ?_, ?_, ?_, hv.tests, ?_, bytesKept_of_eq hv.mem hv.flash⟩
  · show v.trng.reqs.filter _ = _
    rw [hv.reqs]; rfl
  · exact congrArg (fun e : Envm => { e with kis := some (b.take 16) }) hv.envm
  · rw [State.key, State.makeKis, tfind_tput_same]
    dsimp only
    rw [if_neg (List.ne_nil_of_length_pos (by omega))]; rfl
  · rw [← hrun]; exact rf_congr hvregs _ _ _
  · rw [← hst]; exact rf_congr hvregs _ _ _
  · exact RegsBut.trans hregs (regsBut_of_regs hvregs _)

end

/-- Settles O30: by the caller that the block of a pool that passes is for. -/
theorem conditionedBlockDelivery : Obligations.ConditionedBlockDelivery := by
  unfold Obligations.ConditionedBlockDelivery
  refine ⟨?_, ?_, ?_, ?_⟩
  · exact fun s raw n hs htests hmask hserved hkis hentry => block_to_mask hs htests hserved hentry hmask hkis
  · exact fun s raw k hs htests hreqs hk hserved hkis hentry => block_to_port hs htests hserved hentry hreqs hk hkis
  · exact fun s raw k need hs htests hreqs _ h32 hk hmixed hneed hdest hblob hjobs hserved hkis hentry =>
      block_to_generate hs htests hserved hentry hreqs h32 hk hmixed hneed hdest hblob hjobs hkis
  · exact fun s raw hs htests hreqs hserved hkis hentry hres hsafe hroot hempty =>
      block_to_kis hs htests hserved hentry hreqs hkis hres hsafe hroot hempty

end Proofs
end Sys2Proof

/-! PROOFS. Sessions and the landing that waits for one (R112, R457): a state that refutes O11. -/
namespace Sys2Proof
namespace Proofs

open Sys2Proof.Machine Sys2Proof.Safety Sys2Proof.Laws

/-- A unit whose landing waits for a session: each of the 256 is in use, and session 9 is closing. -/
def landingWaits : State :=
  { State.reset with
    sess := (List.range 256).map fun n => (n, { sesNil with st := if n = 9 then .closing else .ready, suite := 1 })
    cwy := { State.reset.cwy with landWaits := true } }

theorem landingWaits_closing : (landingWaits.ses 9).st = .closing := by decide +kernel

/-- The landing takes session 9 as soon as it is free, with SUITE 3 (R457). -/
theorem suite_freed_landingWaits : ((sessionFree 9 landingWaits).ses 9).suite = 3 := by decide +kernel

/-- Refutes O11: a landing that waits takes the session in the step that frees it, so the freed session is not empty. -/
theorem not_sessionsEnd : ¬ Obligations.SessionsEnd := by
  unfold Obligations.SessionsEnd
  rintro ⟨-, -, h⟩
  obtain ⟨t, ht, hses, -⟩ := h landingWaits 9 landingWaits_closing rfl rfl
  have hstep : t = sessionFree 9 landingWaits := (Host.Outcome.next.inj ht).symm
  have hsuite := congrArg Session.suite hses
  rw [hstep, suite_freed_landingWaits] at hsuite
  exact absurd hsuite (by decide)

end Proofs
end Sys2Proof

/-! PROOFS. Writes of the timers' registers, and captures (R416 to R419). -/
namespace Sys2Proof
namespace Proofs

open Sys2Proof.Machine Sys2Proof.Safety Sys2Proof.Laws

/-- A bit of a word is a bit of the field in which it lies. -/
theorem bit_eq_testBit_fld (w : Word) {hi lo j : Nat} (h : j ≤ hi - lo) : bit w (lo + j) = (fld w hi lo).testBit j := by
  rw [fld, Nat.testBit_mod_two_pow, Nat.testBit_div_two_pow, bit, BitVec.getLsbD, Nat.add_comm]
  simp; omega

theorem bit_setFld_within (w : Word) {hi lo j v : Nat} (h : lo ≤ hi) (h32 : hi < 32) (hj : j ≤ hi - lo) :
    bit (setFld w hi lo v) (lo + j) = v.testBit j := by
  rw [bit_eq_testBit_fld _ hj, fld_setFld_same _ h h32, Nat.testBit_mod_two_pow]
  simp; omega

/-! ### CMP_WRITE and PERIOD_WRITE (R416, R418) -/

theorem rb_arm (s : State) (n : Nat) {c : Nat} (hc : c < 4) : (s.arm n (2 ^ c)).rb (aTMR_STAT n) (7 + c) = true := by
  unfold State.arm
  rw [State.rb, reg_srf, if_pos rfl, bit_setFld_within _ (by omega) (by omega) (by omega), Nat.testBit_or, Nat.testBit_two_pow_self,
    Bool.or_true]

theorem cmpWrite_arms {s : State} {m : Master} {n c : Nat} (v : Word) (hn : n < 16) (hc : c < 4)
    (hg : Grants s m (aTMR_CMP n c)) :
    ∃ t, exec (.cmpWrite m n c v) s = .next t ∧ t.reg (aTMR_CMP n c) = v ∧ t.rb (aTMR_STAT n) (7 + c) = true ∧
      RegsBut [aTMR_CMP n c, aTMR_STAT n] s t := by
  refine ⟨_, congrArg done ((if_pos ⟨hn, hc⟩).trans (owned_granted hg _)), ?_, rb_arm _ n hc, ?_⟩
  · rw [cmpWrite, State.arm, reg_srf, if_neg (by unfold aTMR_CMP aTMR_STAT; omega), reg_setReg_same]
  · exact RegsBut.trans (regsBut_access _ _ _ _ _ _ _) (RegsBut.trans (regsBut_setReg _ (by simp) _) (regsBut_srf _ (by simp) 10 7 _))

theorem periodWrite_stores {s : State} {m : Master} {n : Nat} (v : Word) (hn : n < 16) (hg : Grants s m (aTMR_PERIOD n)) :
    ∃ t, exec (.periodWrite m n v) s = .next t ∧ t.reg (aTMR_PERIOD n) = v ∧ RegsBut [aTMR_PERIOD n] s t :=
  ⟨_, congrArg done ((if_pos hn).trans (owned_granted hg _)), reg_setReg_same ..,
    RegsBut.trans (regsBut_access _ _ _ _ _ _ _) (regsBut_setReg _ (by simp) v)⟩

/-! ### Captures (R419) -/

theorem sysTime_capture (s : State) (n : Nat) : (s.capture n).sysTime = s.sysTime := by
  unfold State.capture
  cases testBit s.capUnread n <;> rfl

theorem reg_capture (s : State) (n a : Nat) :
    (s.capture n).reg a =
      if a = aTMR_CAPHI n then w32 (s.sysTime.toNat / 2 ^ 32)
      else if a = aTMR_CAPLO n then w32 s.sysTime.toNat
      else if a = aTMR_STAT n ∧ testBit s.capUnread n then setFld (s.reg a) 6 6 1 else s.reg a := by
  have hregs : ∀ u : State, u.sysTime = s.sysTime →
      ({ (u.setReg (aTMR_CAPLO n) u.sysLo).setReg (aTMR_CAPHI n) (w32 (u.sys / 2 ^ 32)) with
        capUnread := putBit u.capUnread n true } : State).reg a =
      if a = aTMR_CAPHI n then w32 (s.sysTime.toNat / 2 ^ 32)
      else if a = aTMR_CAPLO n then w32 s.sysTime.toNat else u.reg a := fun u hu => by
    refine (reg_congr (s := (u.setReg (aTMR_CAPLO n) u.sysLo).setReg (aTMR_CAPHI n) (w32 (u.sys / 2 ^ 32))) rfl a).trans ?_
    rw [reg_setReg, reg_setReg, State.sys, State.sysLo, hu]
  unfold State.capture
  cases hu : testBit s.capUnread n with
  | false => simpa using hregs s rfl
  | true =>
    refine (hregs (s.srb (aTMR_STAT n) 6 true) rfl).trans ?_
    rw [reg_srb]
    simp only [and_true]
    by_cases ha : a = aTMR_STAT n
    · subst ha; rfl
    · simp [ha]

theorem caplo_capture (s : State) (n k : Nat) :
    (s.capture k).reg (aTMR_CAPLO n) = if n = k then w32 s.sysTime.toNat else s.reg (aTMR_CAPLO n) := by
  rw [reg_capture, if_neg (by unfold aTMR_CAPLO aTMR_CAPHI; omega)]
  by_cases h : n = k
  · rw [if_pos (h ▸ rfl), if_pos h]
  · rw [if_neg (by unfold aTMR_CAPLO; omega), if_neg (by unfold aTMR_CAPLO aTMR_STAT; omega), if_neg h]

theorem caphi_capture (s : State) (n k : Nat) :
    (s.capture k).reg (aTMR_CAPHI n) = if n = k then w32 (s.sysTime.toNat / 2 ^ 32) else s.reg (aTMR_CAPHI n) := by
  rw [reg_capture]
  by_cases h : n = k
  · rw [if_pos (h ▸ rfl), if_pos h]
  · rw [if_neg (by unfold aTMR_CAPHI; omega), if_neg (by unfold aTMR_CAPHI aTMR_CAPLO; omega),
      if_neg (by unfold aTMR_CAPHI aTMR_STAT; omega), if_neg h]

/-- The registers that captures may write. -/
def isCapture (a : Nat) : Prop := ∃ k < 16, a = aTMR_CAPLO k ∨ a = aTMR_CAPHI k ∨ a = aTMR_STAT k

theorem reg_captures_other {a : Nat} (ha : ¬ isCapture a) {l : List Nat} (hl : ∀ n ∈ l, n < 16) (s : State) :
    (s.each l State.capture).reg a = s.reg a := by
  induction l generalizing s with
  | nil => rfl
  | cons n l ih =>
    have hn : n < 16 := hl n (by simp)
    refine (ih (fun k hk => hl k (by simp [hk])) (s.capture n)).trans ?_
    rw [reg_capture, if_neg fun h => ha ⟨n, hn, .inr (.inl h)⟩, if_neg fun h => ha ⟨n, hn, .inl h⟩,
      if_neg fun h => ha ⟨n, hn, .inr (.inr h.1)⟩]

theorem captures_time (l : List Nat) (s : State) (n : Nat) :
    (s.each l State.capture).reg (aTMR_CAPLO n) = (if n ∈ l then w32 s.sysTime.toNat else s.reg (aTMR_CAPLO n)) ∧
      (s.each l State.capture).reg (aTMR_CAPHI n) =
        if n ∈ l then w32 (s.sysTime.toNat / 2 ^ 32) else s.reg (aTMR_CAPHI n) := by
  induction l generalizing s with
  | nil => exact ⟨rfl, rfl⟩
  | cons k l ih =>
    obtain ⟨hlo, hhi⟩ := ih (s.capture k)
    rw [sysTime_capture] at hlo hhi
    refine ⟨hlo.trans ?_, hhi.trans ?_⟩
    · rw [caplo_capture]; by_cases hn : n ∈ l <;> simp [hn]
    · rw [caphi_capture]; by_cases hn : n ∈ l <;> simp [hn]

theorem gpio1Edge_captures {s : State} {rising : Bool} {n : Nat} (hn : n < 16) (hres : s.resumed = true)
    (hsel : s.rf (aTMR_CTL n) 29 27 = if rising then 6 else 7) :
    ∃ t, exec (.gpio1Edge rising) s = .next t ∧ t.reg (aTMR_CAPLO n) = w32 s.sysTime.toNat ∧
      t.reg (aTMR_CAPHI n) = w32 (s.sysTime.toNat / 2 ^ 32) ∧
      (∀ a, (∀ k, k < 16 → a ≠ aTMR_CAPLO k ∧ a ≠ aTMR_CAPHI k ∧ a ≠ aTMR_STAT k) → t.reg a = s.reg a) := by
  have hmem : n ∈ (List.range 16).filter fun n => decide (s.rf (aTMR_CTL n) 29 27 = (if rising then 6 else 7)) := by
    simp [hn, hsel]
  obtain ⟨hlo, hhi⟩ := captures_time _ s n
  refine ⟨_, congrArg done (if_pos hres), hlo.trans (if_pos hmem), hhi.trans (if_pos hmem), fun a ha => ?_⟩
  refine reg_captures_other ?_ (fun k hk => List.mem_range.1 (List.mem_of_mem_filter hk)) s
  rintro ⟨k, hk, h⟩
  obtain ⟨h1, h2, h3⟩ := ha k hk
  exact h.elim h1 fun h => h.elim h2 h3

/-- Settles O44: by the command. -/
theorem timerWritesAndCapture : Obligations.TimerWritesAndCapture :=
  ⟨fun _ _ _ _ v hn hc hg => cmpWrite_arms v hn hc hg, fun _ _ _ v hn hg => periodWrite_stores v hn hg,
    fun _ _ _ hn hres hsel => gpio1Edge_captures hn hres hsel⟩

end Proofs
end Sys2Proof

/-! PROOFS. The host's record commands (R176, R180). -/
namespace Sys2Proof
namespace Proofs

open Sys2Proof.Machine Sys2Proof.Safety Sys2Proof.Laws

/-! ### Bytes and words, least significant byte first (R6) -/

theorem ofLE_lt (b : Bytes) : ofLE b < 2 ^ (8 * b.length) := by
  induction b with
  | nil => simp [ofLE]
  | cons x b ih =>
    have hx : x.toNat < 256 := x.isLt
    rw [ofLE, List.length_cons, Nat.mul_succ, Nat.pow_add]
    omega

theorem toLE_ofLE (b : Bytes) : toLE b.length (ofLE b) = b := by
  induction b with
  | nil => rfl
  | cons x b ih =>
    have hx : x.toNat < 256 := x.isLt
    rw [List.length_cons, toLE, ofLE, show (x.toNat + 256 * ofLE b) / 256 = ofLE b by omega, ih,
      show (x.toNat + 256 * ofLE b) % 256 = x.toNat by omega]
    simp [by8]

theorem toLE_mod (k v : Nat) : toLE k (v % 2 ^ (8 * k)) = toLE k v := by
  induction k generalizing v with
  | zero => rfl
  | succ k ih =>
    have h : 2 ^ (8 * (k + 1)) = 256 * 2 ^ (8 * k) := by rw [Nat.mul_succ, Nat.pow_add]; ring
    rw [toLE, toLE, h, Nat.mod_mul_right_mod, Nat.mod_mul_right_div_self, ih]

theorem take_toLE {k n : Nat} (h : k ≤ n) (v : Nat) : (toLE n v).take k = toLE k v := by
  induction k generalizing n v with
  | zero => rfl
  | succ k ih =>
    obtain ⟨n, rfl⟩ : ∃ m, n = m + 1 := ⟨n - 1, by omega⟩
    rw [toLE, toLE, List.take_succ_cons, ih (by omega)]

/-- A word whose low bytes are those of c, over an old word's other bytes. -/
def patched (old : Word) (c : Bytes) : Word :=
  (old &&& (if c.length < 4 then ~~~(w32 (2 ^ (8 * c.length) - 1)) else 0)) ||| w32 (ofLE c)

theorem take_patched (old : Word) {c : Bytes} (h : c.length ≤ 4) : (toLE 4 (patched old c).toNat).take c.length = c := by
  have hlt := ofLE_lt c
  have hle : 2 ^ (8 * c.length) ≤ 2 ^ 32 := Nat.pow_le_pow_right (by omega) (by omega)
  have hlow : (patched old c).toNat % 2 ^ (8 * c.length) = ofLE c := by
    apply Nat.eq_of_testBit_eq
    intro i
    rw [Nat.testBit_mod_two_pow]
    by_cases hi : i < 8 * c.length
    · unfold patched
      rw [← BitVec.getLsbD]
      by_cases hc : c.length < 4 <;>
        simp [hc, hi, w32, BitVec.getLsbD_or, BitVec.getLsbD_and, BitVec.getLsbD_ofNat, Nat.testBit_two_pow_sub_one] <;> omega
    · rw [Nat.testBit_lt_two_pow (x := ofLE c) (by exact lt_of_lt_of_le hlt (Nat.pow_le_pow_right (by omega) (by omega)))]
      simp [hi]
  rw [take_toLE h, ← toLE_mod, hlow, toLE_ofLE]

theorem ofWords_chunks {N : Nat} (b : Bytes) (f : Nat → Word) (hN : (b.length + 3) / 4 = N)
    (hf : ∀ i < N, (toLE 4 (f i).toNat).take ((b.drop (4 * i)).take 4).length = (b.drop (4 * i)).take 4) :
    (ofWords ((List.range N).map f)).take b.length = b := by
  induction N generalizing b f with
  | zero =>
    have : b = [] := List.length_eq_zero_iff.1 (by omega)
    subst this; rfl
  | succ N ih =>
    have htail := ih (b.drop 4) (fun i => f (i + 1)) (by rw [List.length_drop]; omega) fun i hi => by
      have := hf (i + 1) (by omega)
      rwa [Nat.mul_succ, Nat.add_comm, ← List.drop_drop] at this
    have hhead := hf 0 (by omega)
    rw [Nat.mul_zero, List.drop_zero, List.length_take] at hhead
    rw [List.range_succ_eq_map, List.map_cons, List.map_map, ofWords, List.flatMap_cons, List.take_append, length_toLE]
    rw [List.length_drop] at htail
    have h4 : (toLE 4 (f 0).toNat).take b.length = b.take 4 := by
      rw [← hhead, ← List.take_take, List.take_of_length_le (l := (toLE 4 (f 0).toNat).take b.length)]
      rw [List.length_take, length_toLE]; omega
    rw [h4, show (List.flatMap (fun w => toLE 4 w.toNat) (List.map (f ∘ Nat.succ) (List.range N))) =
      ofWords ((List.range N).map fun i => f (i + 1)) from rfl, htail, List.take_append_drop]

/-! ### TAG_HBUF (R180) -/

theorem reg_each_setReg {ad : Nat → Nat} (had : Function.Injective ad) (g : Nat → Word → Word) {l : List Nat} (hl : l.Nodup)
    (s : State) (j : Nat) :
    (s.each l fun s i => s.setReg (ad i) (g i (s.reg (ad i)))).reg (ad j) =
      if j ∈ l then g j (s.reg (ad j)) else s.reg (ad j) := by
  induction l generalizing s with
  | nil => rfl
  | cons i l ih =>
    obtain ⟨hi, hl⟩ := List.nodup_cons.1 hl
    refine (ih hl _).trans ?_
    rw [reg_setReg]
    by_cases hj : j = i
    · subst hj; simp [hi]
    · simp [hj, had.ne hj]

theorem regsBut_each {α : Type} {f : State → α → State} {l : List Nat} {xs : List α} (h : ∀ s, ∀ x ∈ xs, RegsBut l s (f s x))
    (s : State) : RegsBut l s (s.each xs f) := by
  induction xs generalizing s with
  | nil => exact regsBut_of_regs rfl l
  | cons x xs ih => exact RegsBut.trans (h s x (by simp)) (ih (fun s y hy => h s y (by simp [hy])) (f s x))

theorem hbuf_injective : Function.Injective aTAG_HBUF := fun i j h => by unfold aTAG_HBUF at h; omega

theorem reg_hbuf_toHbuf (s : State) (b : Bytes) {i : Nat} (hi : i < (b.length + 3) / 4) :
    (s.toHbuf b).reg (aTAG_HBUF i) = patched (s.reg (aTAG_HBUF i)) ((b.drop (4 * i)).take 4) := by
  refine (reg_each_setReg hbuf_injective (fun i w => (w &&& (if b.length < 4 * i + 4 then
    ~~~(w32 (2 ^ (8 * (b.length - 4 * i)) - 1)) else 0)) ||| w32 (ofLE ((b.drop (4 * i)).take 4))) List.nodup_range s i).trans ?_
  rw [if_pos (List.mem_range.2 hi), patched, List.length_take, List.length_drop]
  by_cases h : b.length < 4 * i + 4
  · rw [if_pos h, if_pos (by omega), Nat.min_eq_right (by omega)]
  · rw [if_neg h, if_neg (by omega)]

theorem ofHbuf_toHbuf {s t : State} (b : Bytes)
    (ht : ∀ i < (b.length + 3) / 4, t.reg (aTAG_HBUF i) = (s.toHbuf b).reg (aTAG_HBUF i)) : t.ofHbuf b.length = b :=
  ofWords_chunks b _ rfl fun i hi => by
    rw [ht i hi, reg_hbuf_toHbuf s b hi]
    exact take_patched _ (by rw [List.length_take]; omega)

/-! ### GO of a host command -/

theorem fld_go_host (v : Word) {lo hi : Nat} (h : lo ≤ hi) (hi18 : hi < 18) : fld (v ||| 0x40000) hi lo = fld v hi lo := by
  have hbits : ∀ j, j ≤ hi - lo → (fld (v ||| 0x40000) hi lo).testBit j = (fld v hi lo).testBit j := fun j hj => by
    rw [← bit_eq_testBit_fld _ hj, ← bit_eq_testBit_fld _ hj, bit, bit, BitVec.getLsbD_or]
    have : ((0x40000 : Word).getLsbD (lo + j)) = false := by
      show (BitVec.ofNat 32 (2 ^ 18)).getLsbD (lo + j) = false
      rw [BitVec.getLsbD_ofNat, Nat.testBit_two_pow]
      simp; omega
    rw [this, Bool.or_false]
  apply Nat.eq_of_testBit_eq
  intro j
  by_cases hj : j ≤ hi - lo
  · exact hbits j hj
  · rw [fld, fld, Nat.testBit_mod_two_pow, Nat.testBit_mod_two_pow, decide_eq_false (by omega), Bool.false_and, Bool.false_and]

/-- A GO of OP op is a write whose record is that of v. -/
theorem tagHcmd_go {s : State} (hbusy : s.tag.hostBusy = none) (v : Word) {op : Nat} (hop : op < 4) :
    tagHcmd (setFld (v ||| 0x40000) 17 16 op) s =
      ((s.srf aTAG_HCMD 17 16 op).srf aTAG_HCMD 7 0 (fld v 7 0)).hostGo op (fld v 7 0) := by
  have hbit : bit (setFld (v ||| 0x40000) 17 16 op) 18 = true := by
    rw [bit_setFld_ne _ (by omega) (by omega) (by omega)]; simp [bit]
  have hopf : fld (setFld (v ||| 0x40000) 17 16 op) 17 16 = op := by
    rw [fld_setFld_same _ (by omega) (by omega)]; omega
  have hrec : fld (setFld (v ||| 0x40000) 17 16 op) 7 0 = fld v 7 0 := by
    rw [fld_setFld_below _ (by omega) (by omega) (by omega) (by omega), fld_go_host _ (by omega) (by omega)]
  unfold tagHcmd
  rw [hopf, hrec]
  dsimp only
  rw [hbusy]
  exact if_pos hbit

theorem reg_modTag (s : State) (f : Tag → Tag) (a : Nat) : (s.modTag f).reg a = s.reg a := rfl

/-- What the record command of OP op sees when it begins. -/
theorem owned_tagHcmd {s : State} {m : Master} (v : Word) (hg : Grants s m aTAG_HCMD) (hbusy : s.tag.hostBusy = none) {op : Nat}
    (hop : op < 4) :
    ∃ u, RegsAndCounts s u ∧ RegsBut [aTAG_HCMD] s u ∧
      s.owned m aTAG_HCMD (tagHcmd (setFld (v ||| 0x40000) 17 16 op)) = u.hostGo op (fld v 7 0) := by
  refine ⟨_, ?_, ?_, (owned_granted hg _).trans (tagHcmd_go (by rw [access_tag]; exact hbusy) v hop)⟩
  · exact (RegsAndCounts.of_access ..).trans (RegsAndCounts.of_regsOnly (RegsOnly.trans (regsOnly_setReg ..) (regsOnly_setReg ..)))
  · exact RegsBut.trans (RegsBut.trans (regsBut_access _ _ _ _ _ _ _) (regsBut_srf _ (by simp) 17 16 op))
      (regsBut_srf _ (by simp) 7 0 _)

theorem hostGo_read {u : State} {n : Nat} (hm : u.recMap n % 4 ≠ 0) (hright : testBit (u.recMap n) 2 = true) :
    ∃ w, u.hostGo 1 n = (u.setReg aTAG_HRESULT 0).modTag fun t => { t with hostBusy := some (false, n), hostReadWaits := w } := by
  refine ⟨if u.tag.writing = some n ∧ u.recMap n % 4 ≠ 3 then some n else none, ?_⟩
  unfold State.hostGo
  exact (if_neg (by decide)).trans ((if_neg (by rw [if_pos rfl, hright]; simpa using hm)).trans (if_neg (by decide)))

theorem hostGo_write {u : State} {n : Nat} (hm : u.recMap n % 4 ≠ 0) (hright : testBit (u.recMap n) 3 = true)
    (hopen : u.fieldOpen n = false) :
    u.hostGo 2 n = ((u.setReg aTAG_HRESULT 0).srb aTAG_STATUS 6 false).modTag fun t => { t with hostBusy := some (true, n) } := by
  unfold State.hostGo
  exact (if_neg (by decide)).trans ((if_neg (by rw [if_neg (by decide), hright]; simpa using hm)).trans
    ((if_pos rfl).trans (if_neg (by rw [show State.fieldOpen (u.setReg aTAG_HRESULT 0) n = false from hopen]; decide))))

theorem hostRecordRead_begins {s : State} {m : Master} {v : Word} (hg : Grants s m aTAG_HCMD) (hbusy : s.tag.hostBusy = none)
    (hm : s.recMap (fld v 7 0) % 4 ≠ 0) (hright : testBit (s.recMap (fld v 7 0)) 2 = true) :
    ∃ t, exec (.hostRecordRead m v) s = .next t ∧ t.tag.hostBusy = some (false, fld v 7 0) ∧
      t.reg aTAG_HRESULT = 0 ∧ RegsBut [aTAG_HCMD, aTAG_HRESULT] s t ∧ t.envm = s.envm ∧ t.lanes = s.lanes ∧
      BytesKept s t := by
  obtain ⟨u, honly, hregs, hexec⟩ := owned_tagHcmd v hg hbusy (op := 1) (by omega)
  have hmap : u.recMap (fld v 7 0) = s.recMap (fld v 7 0) := honly.view (·.recMap _) fun _ _ => rfl
  obtain ⟨w, hw⟩ := hostGo_read (u := u) (by rwa [hmap]) (by rwa [hmap])
  refine ⟨_, congrArg done (hexec.trans hw), rfl, (reg_modTag ..).trans (reg_setReg_same u _ 0), ?_,
    (honly.view (·.envm) fun _ _ => rfl), (honly.view (·.lanes) fun _ _ => rfl),
    BytesKept.trans (BytesKept.of_regsAndCounts honly) (bytesKept_of_eq rfl rfl)⟩
  exact RegsBut.trans (RegsBut.mono hregs (by simp)) (RegsBut.trans (regsBut_setReg u (a := aTAG_HRESULT) (by simp) 0) (regsBut_of_regs rfl _))

theorem hostRecordWrite_begins {s : State} {m : Master} {v : Word} (hg : Grants s m aTAG_HCMD) (hbusy : s.tag.hostBusy = none)
    (hm : s.recMap (fld v 7 0) % 4 ≠ 0) (hright : testBit (s.recMap (fld v 7 0)) 3 = true)
    (hopen : s.fieldOpen (fld v 7 0) = false) :
    ∃ t, exec (.hostRecordWrite m v) s = .next t ∧ t.tag.hostBusy = some (true, fld v 7 0) ∧
      t.reg aTAG_HRESULT = 0 ∧ t.rb aTAG_STATUS 6 = false ∧ RegsBut [aTAG_HCMD, aTAG_HRESULT, aTAG_STATUS] s t ∧
      t.envm = s.envm ∧ t.lanes = s.lanes ∧ BytesKept s t := by
  obtain ⟨u, honly, hregs, hexec⟩ := owned_tagHcmd v hg hbusy (op := 2) (by omega)
  have hmap : u.recMap (fld v 7 0) = s.recMap (fld v 7 0) := honly.view (·.recMap _) fun _ _ => rfl
  have hopen' : u.fieldOpen (fld v 7 0) = s.fieldOpen (fld v 7 0) := honly.view (·.fieldOpen _) fun _ _ => rfl
  have hgo := hostGo_write (u := u) (by rwa [hmap]) (by rwa [hmap]) (by rwa [hopen'])
  refine ⟨_, congrArg done (hexec.trans hgo), rfl, ?_, (congrArg (bit · 6) (reg_modTag ..)).trans (rb_srb_same _ _ (by omega) _), ?_,
    (honly.view (·.envm) fun _ _ => rfl), (honly.view (·.lanes) fun _ _ => rfl),
    BytesKept.trans (BytesKept.of_regsAndCounts honly) (bytesKept_of_eq rfl rfl)⟩
  · rw [reg_modTag, reg_srb, if_neg (by decide), reg_setReg_same]
  · exact RegsBut.trans (RegsBut.mono hregs (by simp)) (RegsBut.trans (regsBut_setReg u (a := aTAG_HRESULT) (by simp) 0)
      (RegsBut.trans (regsBut_srb _ (a := aTAG_STATUS) (by simp) 6 false) (regsBut_of_regs rfl _)))

/-! ### The end of a host command -/

theorem hostDone_frame (s : State) (c : Byte) :
    s.hostDone c = { s with regs := (s.hostDone c).regs, tag := { s.tag with hostBusy := none, hostReadWaits := none } } ∧
      (s.hostDone c).reg aTAG_HRESULT = w32 (256 + c.toNat) ∧ RegsBut [aTAG_HRESULT] s (s.hostDone c) := by
  unfold State.hostDone
  have hreg := reg_setReg_same (s.modTag fun t => { t with hostBusy := none, hostReadWaits := none }) aTAG_HRESULT
    (w32 (256 + c.toNat))
  have hbut : RegsBut [aTAG_HRESULT] s ((s.modTag fun t => { t with hostBusy := none, hostReadWaits := none }).setReg aTAG_HRESULT
      (w32 (256 + c.toNat))) := RegsBut.trans (regsBut_of_regs rfl _) (regsBut_setReg _ (by simp) _)
  have honly : (s.modTag fun t => { t with hostBusy := none, hostReadWaits := none }).setReg aTAG_HRESULT (w32 (256 + c.toNat)) =
      { s with regs := ((s.modTag fun t => { t with hostBusy := none, hostReadWaits := none }).setReg aTAG_HRESULT
                 (w32 (256 + c.toNat))).regs,
               tag := { s.tag with hostBusy := none, hostReadWaits := none } } := rfl
  generalize (s.modTag fun t => { t with hostBusy := none, hostReadWaits := none }).setReg aTAG_HRESULT (w32 (256 + c.toNat)) = u at *
  have hend : RegsOnly u (u.ended 5 c) := regsOnly_ended ..
  refine ⟨?_, (reg_ended u 5 c (by omega) (by unfold prfAddr aTAG_HRESULT; omega)).trans hreg,
    RegsBut.trans hbut (regsBut_ended _ _ (by omega) _)⟩
  rw [RegsOnly] at hend
  generalize u.ended 5 c = v at *
  rw [hend, honly]

theorem hostWrite_ends {s : State} {n : Nat} (hbusy : s.tag.hostBusy = some (true, n)) (hfield : s.tag.fieldWaits = none) :
    ∃ t, exec .hcmdDone s = .next t ∧ tfind t.envm.tussock n = some (s.ofHbuf (recSize (s.recMap n % 4))) ∧
      t.tag.hostBusy = none ∧ t.reg aTAG_HRESULT = w32 (256 + cOk.toNat) ∧ RegsBut [aTAG_HRESULT] s t ∧
      t.lanes = s.lanes ∧ BytesKept s t := by
  obtain ⟨honly, hres, hbut⟩ := hostDone_frame (s.setRec n (s.ofHbuf (recSize (s.recMap n % 4)))) cOk
  have hdone : hcmdDone s = (s.setRec n (s.ofHbuf (recSize (s.recMap n % 4)))).hostDone cOk := by
    have hwaits : ((s.setRec n (s.ofHbuf (recSize (s.recMap n % 4)))).hostDone cOk).tag.fieldWaits = none := by
      rw [honly]; exact hfield
    unfold hcmdDone
    rw [hbusy]
    dsimp only
    rw [State.serveField, hwaits]
  refine ⟨_, congrArg done hdone, ?_, ?_, hres, RegsBut.trans (regsBut_of_regs rfl _) hbut, ?_, ?_⟩
  · rw [honly]; exact tfind_tput_same ..
  · rw [honly]
  · rw [honly]; rfl
  · exact bytesKept_of_eq (by rw [honly]; rfl) (by rw [honly]; rfl)

theorem recSize_le (k : Nat) : recSize k ≤ 1024 := by
  unfold recSize; split <;> omega

theorem hostRead_ends {s : State} {n : Nat} (hbusy : s.tag.hostBusy = some (false, n)) (hwaits : s.tag.hostReadWaits = none)
    (htorn : n ∉ s.envm.tornRecs) :
    ∃ t, exec .hcmdDone s = .next t ∧ t.ofHbuf (s.recData n).length = s.recData n ∧ t.tag.hostBusy = none ∧
      t.reg aTAG_HRESULT = w32 (256 + cOk.toNat) ∧ RegsBut (aTAG_HRESULT :: (List.range 256).map aTAG_HBUF) s t ∧
      t.envm = s.envm ∧ t.lanes = s.lanes ∧ BytesKept s t := by
  have hdone : hcmdDone s = (s.toHbuf (s.recData n)).hostDone cOk := by
    have hrep : s.reportTorn n = (false, s) := if_neg htorn
    unfold hcmdDone
    rw [hbusy]
    dsimp only
    rw [hwaits]
    refine (if_neg (by decide)).trans ?_
    unfold State.hostRead
    rw [hrep]
    rfl
  have hlen : (s.recData n).length ≤ 1024 := by
    unfold State.recData; rw [length_slice]; exact recSize_le _
  have hexec : exec .hcmdDone s = .next _ := congrArg done hdone
  have hbuf : RegsBut ((List.range 256).map aTAG_HBUF) s (s.toHbuf (s.recData n)) := regsBut_each (fun u i hi => regsBut_setReg u
    (List.mem_map_of_mem (List.mem_range.2 (by have := List.mem_range.1 hi; omega))) _) s
  have honlyBuf : RegsOnly s (s.toHbuf (s.recData n)) := regsOnly_each (fun _ _ => regsOnly_setReg ..) _ s
  have hread := fun t ht => ofHbuf_toHbuf (s := s) (t := t) (s.recData n) ht
  generalize s.recData n = b at *
  generalize s.toHbuf b = u at *
  obtain ⟨honly, hres, hbut⟩ := hostDone_frame u cOk
  rw [RegsOnly] at honlyBuf
  generalize u.hostDone cOk = t at *
  refine ⟨t, hexec, hread t fun i hi => hbut _ ?_ ?_, by rw [honly], hres, ?_, ?_, ?_, ?_⟩
  · unfold aTAG_HBUF aTAG_HRESULT; simp; omega
  · unfold Counted aTAG_HBUF; omega
  · exact RegsBut.trans (RegsBut.mono hbuf (by simp +contextual)) (RegsBut.mono hbut (by simp))
  · rw [honly, honlyBuf]
  · rw [honly, honlyBuf]
  · exact bytesKept_of_eq (by rw [honly, honlyBuf]) (by rw [honly, honlyBuf])

/-- Settles O25: by whether the command begins or ends, and its OP. -/
theorem hostRecords : Obligations.HostRecords :=
  ⟨fun _ _ _ hg hbusy hm hright => hostRecordRead_begins hg hbusy hm hright,
    fun _ _ _ hg hbusy hm hright hopen => hostRecordWrite_begins hg hbusy hm hright hopen,
    fun _ _ hbusy hfield => hostWrite_ends hbusy hfield,
    fun _ _ hbusy hwaits htorn _ => hostRead_ends hbusy hwaits htorn⟩

end Proofs
end Sys2Proof

/-! PROOFS. Queries of the status map, and lockouts (R254, R267). -/
namespace Sys2Proof
namespace Proofs

open Sys2Proof.Machine Sys2Proof.Safety Sys2Proof.Laws

/-! ### CRD_MAPQ (R254, R255) -/

/-- A cached sector is answered from the cache, in which it becomes the youngest. -/
theorem mapFetch_cached {s : State} {sec : Nat} {e : Nat × Bytes} (hinit : s.envm.mapInit = true)
    (he : s.mapCache.find? (fun e => decide (e.1 = sec)) = some e) :
    ∃ l, s.mapFetch sec = (⟨cOk, true, e.2⟩, { s with mapCache := l }) := by
  unfold State.mapFetch
  rw [if_neg (by rw [hinit]; decide), he]
  exact ⟨_, rfl⟩

theorem mapqWrite_cached {s : State} {v : Word} {e : Nat × Bytes} (hgo : bit v 31 = true) (hinit : s.envm.mapInit = true)
    (he : s.mapCache.find? (fun e => decide (e.1 = fld v 19 0 / 32768)) = some e) :
    ∃ l, mapqWrite v s = ({ s.setReg aCRD_MAPQ (w32 (fld v 19 0)) with mapCache := l }).setReg aCRD_MAPR
      (w32 (12 + b2n (mapBit (fld v 19 0) e.2))) := by
  obtain ⟨l, hl⟩ := mapFetch_cached (s := s.setReg aCRD_MAPQ (w32 (fld v 19 0))) hinit he
  refine ⟨l, ?_⟩
  unfold mapqWrite
  dsimp only
  rw [if_pos hgo, hl]
  rfl

theorem mapqGo_answers {s : State} {m : Master} {v : Word} {e : Nat × Bytes} (hg : Grants s m aCRD_MAPQ) (hgo : bit v 31 = true)
    (hinit : s.envm.mapInit = true) (he : s.mapCache.find? (fun e => decide (e.1 = fld v 19 0 / 32768)) = some e) :
    ∃ t, exec (.mapqGo m v) s = .next t ∧ t.reg aCRD_MAPQ = w32 (fld v 19 0) ∧
      t.reg aCRD_MAPR = w32 (12 + b2n (mapBit (fld v 19 0) e.2)) ∧ t.envm = s.envm ∧
      RegsBut [aCRD_MAPQ, aCRD_MAPR] s t ∧ BytesKept s t := by
  have honly := RegsAndCounts.of_access s m (rightsOf m) false aCRD_MAPQ 2
  have hregs := regsBut_access s [aCRD_MAPQ, aCRD_MAPR] m (rightsOf m) false aCRD_MAPQ 2
  have hexec : exec (.mapqGo m v) s = .next (mapqWrite v (s.access m (rightsOf m) false aCRD_MAPQ 2)) :=
    congrArg done (owned_granted hg _)
  generalize s.access m (rightsOf m) false aCRD_MAPQ 2 = u at *
  obtain ⟨l, hl⟩ := mapqWrite_cached (s := u) hgo ((honly.view (·.envm.mapInit) fun _ _ => rfl).trans hinit)
    ((honly.view (fun s => s.mapCache.find? _) fun _ _ => rfl).trans he)
  refine ⟨_, hexec.trans (congrArg done hl), ?_, reg_setReg_same .., (honly.view (·.envm) fun _ _ => rfl), ?_,
    BytesKept.trans (BytesKept.of_regsAndCounts honly) (bytesKept_of_eq rfl rfl)⟩
  · rw [reg_setReg_ne _ (by decide)]
    exact reg_setReg_same u ..
  · exact RegsBut.trans hregs (RegsBut.trans (regsBut_setReg u (a := aCRD_MAPQ) (by simp) _)
      (RegsBut.trans (regsBut_of_regs rfl _) (regsBut_setReg _ (a := aCRD_MAPR) (by simp) _)))

/-! ### Lockouts (R267) -/

theorem rawLock_setLock (s : State) (k x : LockTarget) (l : Lockout) :
    (s.setLock k l).rawLock x = if x = k then l else s.rawLock x := by
  cases k with
  | cls c => cases x with
    | cls d =>
      refine (tget_tset s.envm.lockCls c d l lockNil lockNil (.inl rfl)).trans ?_
      simp [State.rawLock]
    | entry n => rfl
  | entry n => cases x with
    | cls d => rfl
    | entry k =>
      refine (tget_tset s.envm.lockEnt n k l lockNil lockNil (.inl rfl)).trans ?_
      simp [State.rawLock]

theorem setLock_frame (s : State) (k : LockTarget) (l : Lockout) :
    (s.setLock k l).regs = s.regs ∧ (s.setLock k l).lanes = s.lanes ∧ BytesKept s (s.setLock k l) := by
  cases k <;> exact ⟨rfl, rfl, bytesKept_of_eq rfl rfl⟩

theorem lockEnd_clears {s : State} {k : LockTarget} (h : (s.rawLock k).lockedUntil ≠ none) :
    ∃ t, exec (.lockEnd k) s = .next t ∧ t.rawLock k = lockNil ∧ (∀ x, x ≠ k → t.rawLock x = s.rawLock x) ∧
      t.regs = s.regs ∧ t.lanes = s.lanes ∧ BytesKept s t :=
  ⟨_, congrArg done (if_pos (Option.isSome_iff_ne_none.2 h)), by rw [rawLock_setLock, if_pos rfl],
    fun x hx => by rw [rawLock_setLock, if_neg hx], setLock_frame ..⟩

theorem failureWindowExpiry_drops {s : State} {k : LockTarget} (h : (s.rawLock k).lockedUntil = none) :
    ∃ t, exec (.failureWindowExpiry k) s = .next t ∧ (t.rawLock k).fails = (s.rawLock k).fails.drop 1 ∧
      (t.rawLock k).lockedUntil = none ∧ (∀ x, x ≠ k → t.rawLock x = s.rawLock x) ∧ t.regs = s.regs ∧
      t.lanes = s.lanes ∧ BytesKept s t :=
  ⟨_, congrArg done (if_pos (Option.isNone_iff_eq_none.2 h)), by rw [rawLock_setLock, if_pos rfl],
    by rw [rawLock_setLock, if_pos rfl]; exact h, fun x hx => by rw [rawLock_setLock, if_neg hx], setLock_frame ..⟩

/-- Settles O17: by the command. -/
theorem mapQueriesAndLockouts : Obligations.MapQueriesAndLockouts :=
  ⟨fun _ _ _ _ hg hgo hinit he => mapqGo_answers hg hgo hinit he, fun _ _ h => lockEnd_clears h,
    fun _ _ h => failureWindowExpiry_drops h⟩

end Proofs
end Sys2Proof

/-! PROOFS. The sequencer's take of a front end's command (R103), and the radio's commands (R189 to R192). -/
namespace Sys2Proof
namespace Proofs

open Sys2Proof.Machine Sys2Proof.Safety Sys2Proof.Laws

/-! ### The sequencer takes a command -/

theorem itemsBy_only (s : State) (m r : Master) (n k c : Nat) :
    RegsAndCounts s (s.itemsBy m r n k c) ∧ (s.itemsBy m r n k c).regs = s.regs := by
  unfold State.itemsBy
  dsimp only
  generalize windowAddr (qOf n) (if 16 ≤ n then 1 else 0) (if k = 4 then 0x10 else 0) = a
  generalize List.range c = l
  induction l generalizing s with
  | nil => exact ⟨rfl, rfl⟩
  | cons i l ih =>
    obtain ⟨h, hregs⟩ := ih (s.access m r false a k)
    exact ⟨RegsAndCounts.trans (RegsAndCounts.of_access ..) h, hregs.trans (access_regs ..)⟩

/-- What the take of the packet p from lane q leaves: p is gone from the committed ones. -/
structure Took (s t : State) (q : Nat) (p : Packet) : Prop where
  only : t = { s with regs := t.regs, prfAcc := t.prfAcc, seqLast := t.seqLast, lanes := t.lanes }
  lanes : t.lanes = (s.setLane q { s.lane q with committed := (s.lane q).committed.erase p }).lanes
  regs : RegsBut [] s t

theorem Took.lane {s t : State} {q : Nat} {p : Packet} (h : Took s t q p) :
    t.lane q = { s.lane q with committed := (s.lane q).committed.erase p } := by
  have : t.lane q = (s.setLane q { s.lane q with committed := (s.lane q).committed.erase p }).lane q := by
    exact congrArg (tget · q laneNil) h.lanes
  rw [this, lane_setLane_same]

theorem takeHeadIf_took {s : State} {q : Nat} {ok : Packet → Bool} {p : Packet} (h : s.headPacketIf q ok = some p) :
    Took s (s.takeHeadIf q ok) q p := by
  have htake : ∃ rest, takePacket (s.mailLane q) ((s.lane q).committed.filter ok) = some (p, rest) := by
    unfold State.headPacketIf at h
    split at h
    · cases h
    · obtain ⟨⟨p', rest⟩, hx, rfl⟩ := Option.map_eq_some_iff.1 h
      exact ⟨rest, hx⟩
  obtain ⟨rest, htake⟩ := htake
  unfold State.takeHeadIf
  dsimp only
  rw [htake]
  dsimp only
  have honly := regsOnly_evt (s.setLane q { s.lane q with committed := (s.lane q).committed.erase p }) 0x10 0x13 p.items.length
  have hregs := regsBut_evt (s.setLane q { s.lane q with committed := (s.lane q).committed.erase p }) [] (b := 0x10) (by omega)
    0x13 p.items.length
  rw [RegsOnly] at honly
  generalize State.evt _ 0x10 0x13 p.items.length = t at *
  exact ⟨by rw [honly]; rfl, by rw [honly], RegsBut.trans (regsBut_of_regs rfl _) hregs⟩

theorem Took.trans_counts {s t u : State} {q : Nat} {p : Packet} (h : Took s t q p) (hu : RegsAndCounts t u)
    (hregs : u.regs = t.regs) : Took s u q p := by
  have hlanes : u.lanes = t.lanes := hu.view (·.lanes) fun _ _ => rfl
  refine ⟨?_, hlanes.trans h.lanes, RegsBut.trans h.regs (regsBut_of_regs hregs _)⟩
  unfold RegsAndCounts at hu
  rw [hu, h.only]

theorem Took.of_seqLast {s t : State} {l : Tab Nat} {q : Nat} {p : Packet} (h : Took { s with seqLast := l } t q p) :
    Took s t q p := ⟨h.only, h.lanes, h.regs⟩

/-- A packet's take as the front end of its channel takes it. -/
theorem feTake_took {s : State} {ch : Nat} {p : Packet}
    (h : s.headPacketIf (s.rf (aCHN_QUEUES ch) 3 0) (s.feChoice ch) = some p) :
    Took s (s.feTake ch) (s.rf (aCHN_QUEUES ch) 3 0) p := by
  unfold State.feTake
  dsimp only
  refine Took.trans_counts (t := State.takeHeadIf _ _ _) ?_ (itemsBy_only ..).1 (itemsBy_only ..).2
  exact Took.of_seqLast (takeHeadIf_took (s := { s with seqLast := tset s.seqLast (s.rf (aCHN_SCHED ch) 1 0) ch 0 }) h)

theorem headPacketIf_of_feHead {s : State} {ch : Nat} {l : List Nat} {p : Packet} (h : s.feHead ch l = some p) :
    s.feClass ch ∈ l ∧ s.headPacketIf (s.rf (aCHN_QUEUES ch) 3 0) (s.feChoice ch) = some p := by
  unfold State.feHead at h
  split at h
  case isFalse => cases h
  case isTrue hl =>
    refine ⟨hl.1, ?_⟩
    unfold State.feOffer at h
    dsimp only at h
    split at h
    case isFalse => cases h
    case isTrue =>
      cases hp : s.headPacketIf (s.rf (aCHN_QUEUES ch) 3 0) (s.feChoice ch) with
      | none => rw [hp] at h; cases h
      | some p' =>
        rw [hp] at h
        dsimp only at h
        split_ifs at h
        exact h

theorem Took.bytes {s t : State} {q : Nat} {p : Packet} (h : Took s t q p) : BytesKept s t :=
  bytesKept_of_eq (by rw [h.only]) (by rw [h.only])

/-! ### The radio's commands -/

theorem countBroken_whole {p : Packet} (h : packetBroken p = false) (s : State) (n : Nat) : s.countBroken n p = s := by
  obtain ⟨hbad, hecc⟩ := (Bool.or_eq_false_iff).1 h
  unfold State.countBroken
  rw [hecc, hbad]
  rfl

theorem uwbTake_accepts {s : State} {o : UwbOp} {p : Packet} {code : Nat} (h : UwbTakes s o p) (hcode : uwbCmd o = code) :
    uwbTake code o.chan s = (s.feTake o.chan).opAccept o := by
  obtain ⟨hhead, ho, hwhole, hok, hroom⟩ := h
  unfold uwbTake
  rw [hhead]
  dsimp only
  rw [← ho, if_pos ⟨.inl hcode, by cases hs : uwbSched o with | false => exact .inl rfl | true => exact .inr (hroom hs)⟩, hwhole, hok,
    countBroken_whole hwhole]
  rfl

theorem uwbTake_frame {s : State} {o : UwbOp} {p : Packet} {code : Nat} (h : UwbTakes s o p) (hcode : uwbCmd o = code) :
    (uwbTake code o.chan s).uwb.ops = s.uwb.ops ++ [o] ∧ (uwbTake code o.chan s).uwb.nextId = s.uwb.nextId + 1 ∧
      ((uwbTake code o.chan s).lane (s.rf (aCHN_QUEUES o.chan) 3 0)).committed =
        (s.lane (s.rf (aCHN_QUEUES o.chan) 3 0)).committed.erase p ∧
      RegsBut [] s (uwbTake code o.chan s) ∧ (uwbTake code o.chan s).envm = s.envm ∧
      BytesKept s (uwbTake code o.chan s) := by
  have hid : o.id = s.uwb.nextId := by rw [h.2.1]; rfl
  rw [uwbTake_accepts h hcode]
  have htook := feTake_took (headPacketIf_of_feHead h.1).2
  generalize s.feTake o.chan = t at *
  have huwb : t.uwb = s.uwb := by rw [htook.only]
  refine ⟨?_, ?_, congrArg Lane.committed htook.lane, RegsBut.trans htook.regs (regsBut_of_regs rfl _), by rw [htook.only]; rfl,
    BytesKept.trans htook.bytes (bytesKept_of_eq rfl rfl)⟩
  · show t.uwb.ops ++ [{ o with id := t.uwb.nextId }] = _
    rw [huwb, ← hid]
  · show t.uwb.nextId + 1 = _
    rw [huwb]

/-- Settles O53: the seven commands are one take. -/
theorem uwbCommandsAccepted : Obligations.UwbCommandsAccepted :=
  ⟨fun _ _ _ h hc => ⟨_, rfl, uwbTake_frame h hc⟩, fun _ _ _ h hc => ⟨_, rfl, uwbTake_frame h hc⟩,
    fun _ _ _ h hc => ⟨_, rfl, uwbTake_frame h hc⟩, fun _ _ _ h hc => ⟨_, rfl, uwbTake_frame h hc⟩,
    fun _ _ _ h hc => ⟨_, rfl, uwbTake_frame h hc⟩, fun _ _ _ h hc => ⟨_, rfl, uwbTake_frame h hc⟩,
    fun _ _ _ h hc => ⟨_, rfl, uwbTake_frame h hc⟩⟩

end Proofs
end Sys2Proof

/-! PROOFS. The LF block takes its commands (R121, R126 to R146). -/
namespace Sys2Proof
namespace Proofs

open Sys2Proof.Machine Sys2Proof.Safety Sys2Proof.Laws

/-- A sweep keeps commands that nothing turned down. -/
theorem lfSweep_sound {l : List LfCmd} (h : (l.all fun c => decide (c.bad = cOk)) = true) (seen : List Nat) (s : State) :
    lfSweep seen l s = (l, s) := by
  induction l generalizing seen with
  | nil => rfl
  | cons c l ih =>
    obtain ⟨hc, hl⟩ := (Bool.and_eq_true _ _).mp h
    rw [lfSweep, if_pos (.inr (of_decide_eq_true hc)), ih hl]

/-- Where no command waits to be turned down, a settling changes LF_FLAGS and the draw that no AUTH waits for, and no more. -/
structure Settled (s t : State) : Prop where
  only : t = { s with regs := t.regs, trng := t.trng }
  regs : RegsBut [aLF_FLAGS] s t

theorem lfSettle_settled {s : State} (h : LfSound s) : Settled s s.lfSettle := by
  unfold State.lfSettle
  rw [lfSweep_sound h]
  dsimp only
  have hforget : ∀ b : Bool, Settled s ({ s with lf := { s.lf with waiting := s.lf.waiting } }.onlyIf b fun s => s.forgetDraw .lf) :=
    fun b => by cases b <;> exact ⟨rfl, regsBut_of_regs rfl _⟩
  have hu := hforget (!s.lf.waiting.any fun c => decide (lfCmd c = 2))
  generalize State.onlyIf { s with lf := { s.lf with waiting := s.lf.waiting } } _ _ = u at *
  cases hw : !u.lfWaits with
  | false => exact hu
  | true =>
    have hregs := regsBut_srb u (l := [aLF_FLAGS]) (a := aLF_FLAGS) (by simp) 2 false
    have honly : RegsOnly u (u.srb aLF_FLAGS 2 false) := regsOnly_setReg ..
    rw [RegsOnly] at honly
    show Settled s (u.srb aLF_FLAGS 2 false)
    generalize u.srb aLF_FLAGS 2 false = t at *
    exact ⟨by rw [honly, hu.only], RegsBut.trans hu.regs hregs⟩

theorem peatGoesOn_idle {s : State} (h : s.peat.serving = none) : peatGoesOn s = s := by
  unfold peatGoesOn; rw [h]

theorem lfTake_takes {s : State} {c : LfCmd} {p : Packet} {code : Nat} (h : LfTakes s c p) (hcode : lfCmd c = code) :
    lfTake code c.chan s =
      ({ s.feTake c.chan with lf := { (s.feTake c.chan).lf with waiting := (s.feTake c.chan).lf.waiting ++ [c] } }).lfSettle := by
  obtain ⟨hhead, hc, hwhole, hok, hshared, -, -⟩ := h
  have hbad : { c with bad := cOk } = c := by rw [hc]
  unfold lfTake
  rw [hhead]
  dsimp only
  rw [hshared, ← hc, if_pos (.inl hcode)]
  simp only [Bool.false_eq_true, if_false, hwhole, countBroken_whole hwhole]
  rw [hok, hbad]

theorem lfTake_frame {s : State} {c : LfCmd} {p : Packet} {code : Nat} (h : LfTakes s c p) (hcode : lfCmd c = code) :
    (peatGoesOn (lfTake code c.chan s)).lf = { s.lf with waiting := s.lf.waiting ++ [c] } ∧
      ((peatGoesOn (lfTake code c.chan s)).lane (s.rf (aCHN_QUEUES c.chan) 3 0)).committed =
        (s.lane (s.rf (aCHN_QUEUES c.chan) 3 0)).committed.erase p ∧
      (peatGoesOn (lfTake code c.chan s)).envm = s.envm ∧ RegsBut [aLF_FLAGS] s (peatGoesOn (lfTake code c.chan s)) ∧
      BytesKept s (peatGoesOn (lfTake code c.chan s)) := by
  have hsound : LfSound s := h.2.2.2.2.2.1
  have hserving : s.peat.serving = none := h.2.2.2.2.2.2
  have hbad : c.bad = cOk := by rw [h.2.1]
  rw [lfTake_takes h hcode]
  have htook := feTake_took (headPacketIf_of_feHead h.1).2
  generalize s.feTake c.chan = t at *
  have hlf : t.lf = s.lf := by rw [htook.only]
  have hsettled : Settled { t with lf := { t.lf with waiting := t.lf.waiting ++ [c] } }
      ({ t with lf := { t.lf with waiting := t.lf.waiting ++ [c] } } : State).lfSettle := lfSettle_settled (by
    show ((t.lf.waiting ++ [c]).all fun c => decide (c.bad = cOk)) = true
    rw [hlf, List.all_append, show (s.lf.waiting.all fun c => decide (c.bad = cOk)) = true from hsound]
    simp [hbad])
  generalize State.lfSettle _ = u at *
  rw [peatGoesOn_idle (by rw [hsettled.only, htook.only]; exact hserving)]
  refine ⟨?_, ?_, by rw [hsettled.only, htook.only], ?_, ?_⟩
  · rw [hsettled.only]
    show { t.lf with waiting := t.lf.waiting ++ [c] } = _
    rw [hlf]
  · rw [hsettled.only]
    exact congrArg Lane.committed htook.lane
  · exact RegsBut.trans (RegsBut.mono htook.regs (by simp)) (RegsBut.trans (regsBut_of_regs rfl _) hsettled.regs)
  · exact BytesKept.trans htook.bytes (bytesKept_of_eq (by rw [hsettled.only]) (by rw [hsettled.only]))

/-- Settles O18: the five commands are one take. -/
theorem lfCommandsTaken : Obligations.LfCommandsTaken :=
  ⟨fun _ _ _ h hc => ⟨_, rfl, lfTake_frame h hc⟩, fun _ _ _ h hc => ⟨_, rfl, lfTake_frame h hc⟩,
    fun _ _ _ h hc => ⟨_, rfl, lfTake_frame h hc⟩, fun _ _ _ h hc => ⟨_, rfl, lfTake_frame h hc⟩,
    fun _ _ _ h hc => ⟨_, rfl, lfTake_frame h hc⟩⟩

end Proofs
end Sys2Proof

/-! PROOFS. Front-end results that the channel's queue refuses (R104, R399): states that refute O19, O20, O21 and O54. START
accepts every OUTQ. A result sent to Q10 is judged there as a job, and a status OK names no engine; the packet is rewound. -/
namespace Sys2Proof
namespace Proofs

open Sys2Proof.Machine Sys2Proof.Safety Sys2Proof.Laws

/-- A resumed unit on which channel 5 runs with Q3 for its input and Q10 for its results. -/
def resultsToQ10 : State :=
  (({ State.reset with power := { Power.reset with mode := .resumed, sedgeRuns := true } }.srf (aCHN_STATUS 5) 1 0 1).srf
    (aCHN_QUEUES 5) 7 0 0xA3)

theorem not_delivers_of_empty {s t : State} {ch : Nat} {ws : List Word} (h : (t.lane (resultLane s ch)).committed = []) :
    ¬ Delivers s t ch ws := by
  unfold Delivers
  rw [h]
  exact fun h => nomatch h

/-! ### The LF block (R127) -/

/-- A LOCATE of channel 5 that listens for its first aerial. -/
def listeningLocate : LfExch := ⟨⟨5, 0x30011234, 0x02000A00, 0, cOk⟩, [0], [], 9, 3, [], false, false, 0, false⟩

def locating : State := { resultsToQ10 with lf := { State.reset.lf with cur := some listeningLocate } }

theorem lfHears_locating : LfHears locating listeningLocate 5 ∧ lfCmd listeningLocate.cmd ≠ 2 := by decide +kernel

theorem committed_lfEnd_locating :
    ((peatGoesOn (locating.lfEnd listeningLocate cOk false false (lfToken listeningLocate) none)).lane
      (resultLane locating 5)).committed = [] := by decide +kernel

/-- Refutes O19: the window of a LOCATE closes, and its result reaches no queue. -/
theorem not_lfExchanges : ¬ Obligations.LfExchanges := by
  unfold Obligations.LfExchanges
  rintro ⟨-, -, -, -, -, h, -⟩
  obtain ⟨t, ht, hdel, -⟩ := h locating listeningLocate lfHears_locating.1 lfHears_locating.2
  rw [← Host.Outcome.next.inj ht] at hdel
  exact not_delivers_of_empty committed_lfEnd_locating hdel

/-! ### The NFC reader (R155) -/

/-- The packet of a FIELD_OFF of channel 5. -/
def fieldOffPacket : Packet :=
  ⟨[⟨0x40330000, 0x20000000, false⟩, ⟨0x20330000, 0, false⟩], 0, 0, 0x33, false, none, false, false, 0⟩

/-- The reader's field is on, and a FIELD_OFF waits in Q3. -/
def fieldOffWaits : State :=
  { (resultsToQ10.srf (aCHN_BIND 5) 3 0 3).setLane 3 { laneNil with committed := [fieldOffPacket] } with
    cfg := { State.reset.cfg with active := true, sections := [(1024, [1])] }
    nfc := { State.reset.nfc with fieldOn := true, card := some ⟨false, [1, 2, 3, 4], 0, 64, false⟩ } }

theorem nfcTakes_fieldOffWaits : NfcTakes fieldOffWaits ⟨5, 0x20000000, 0, [], false⟩ fieldOffPacket ∧
    RoomFor fieldOffWaits 5 3 ∧ resultLane fieldOffWaits 5 ≠ fieldOffWaits.rf (aCHN_QUEUES 5) 3 0 := by decide +kernel

theorem committed_fieldOff :
    ((nfcTake 2 5 false noPing fieldOffWaits).lane (resultLane fieldOffWaits 5)).committed = [] := by decide +kernel

/-- Refutes O20: a FIELD_OFF is taken, and its result reaches no queue. -/
theorem not_nfcCommandsTaken : ¬ Obligations.NfcCommandsTaken := by
  unfold Obligations.NfcCommandsTaken
  rintro ⟨-, h, -⟩
  obtain ⟨htakes, hroom, hlane⟩ := nfcTakes_fieldOffWaits
  obtain ⟨t, ht, -, -, -, hdel, -⟩ := h fieldOffWaits ⟨5, 0x20000000, 0, [], false⟩ fieldOffPacket htakes rfl hroom hlane
  rw [← Host.Outcome.next.inj ht] at hdel
  exact not_delivers_of_empty committed_fieldOff hdel

/-- A FIELD_ON of channel 5 waits for the guard time. -/
def fieldOnWaits : State :=
  { resultsToQ10 with nfc := { State.reset.nfc with fieldOn := true, cur := some ⟨5, 0x10000000, 0, [], false⟩ } }

theorem roomFor_fieldOnWaits : RoomFor fieldOnWaits 5 3 := by decide +kernel

theorem committed_guardExpiry : ((guardExpired fieldOnWaits).lane (resultLane fieldOnWaits 5)).committed = [] := by
  decide +kernel

/-- Refutes O21: the guard time of a FIELD_ON ends, and its result reaches no queue. -/
theorem not_nfcExchangesEnd : ¬ Obligations.NfcExchangesEnd := by
  unfold Obligations.NfcExchangesEnd
  rintro ⟨-, -, -, -, -, -, h, -⟩
  obtain ⟨t, ht, -, -, hdel, -⟩ := h fieldOnWaits ⟨5, 0x10000000, 0, [], false⟩ rfl rfl rfl roomFor_fieldOnWaits
  rw [← Host.Outcome.next.inj ht] at hdel
  exact not_delivers_of_empty committed_guardExpiry hdel

/-! ### The radio (R206) -/

/-- A receive of channel 5, and the radio in its open window. -/
def receiveOp : UwbOp := { opNil with chan := 5, w0 := 0x20000000, w2 := 0x00280000, profile := 0x01034009, walked := true }

def receiving : State :=
  { (((resultsToQ10.srf aUWB_STATE 2 0 5).srf aUWB_IDLECFG 15 0 500).srb aUWB_STATE 5 true) with
    uwb := { State.reset.uwb with ops := [receiveOp], cur := some 0, nextId := 1 } }

theorem uwbRuns_receiving : UwbRuns receiving receiveOp ∧ receiving.radio = 5 ∧ RoomFor receiving 5 3 := by decide +kernel

theorem committed_windowClose : ((uwbWindowClose receiving false).lane (resultLane receiving 5)).committed = [] := by
  decide +kernel

/-- Refutes O54: a receive's window closes without a frame, and its result reaches no queue. -/
theorem not_uwbOperations : ¬ Obligations.UwbOperations := by
  unfold Obligations.UwbOperations
  rintro ⟨-, -, -, -, -, -, h, -⟩
  obtain ⟨hruns, hradio, hroom⟩ := uwbRuns_receiving
  obtain ⟨t, ht, -, -, -, hdel, -⟩ := h receiving receiveOp hruns hradio rfl rfl hroom
  rw [← Host.Outcome.next.inj ht] at hdel
  exact not_delivers_of_empty committed_windowClose hdel

end Proofs
end Sys2Proof

/-! PROOFS. Commits by a hardware writer (R396, R399): what a queue 0 to 7 with room takes. -/
namespace Sys2Proof
namespace Proofs

open Sys2Proof.Machine Sys2Proof.Safety Sys2Proof.Laws

/-- The packet as it stands in its lane: with the lane's next SEQ in every item. -/
def stamped (s : State) (n : Nat) (p : Packet) : Packet :=
  { p with seq := (s.lane n).seq, no := s.commits,
           items := p.items.map fun i => { i with tag := setFld i.tag 15 0 (s.lane n).seq.toNat } }

theorem packetWords_stamped (s : State) (n : Nat) (p : Packet) : packetWords (stamped s n p) = packetWords p := by
  simp [packetWords, stamped, Function.comp_def]

/-- What a commit of p to lane n leaves: p is the newest committed packet there. -/
structure Committed (s t : State) (n : Nat) (p : Packet) : Prop where
  only : t = { s with regs := t.regs, commits := s.commits + 1, lanes := t.lanes }
  lanes : t.lanes = (s.setLane n { s.lane n with committed := (s.lane n).committed ++ [stamped s n p],
                                                 seq := (s.lane n).seq + 1 }).lanes
  regs : RegsBut [] s t

namespace Committed
variable {s t : State} {n : Nat} {p : Packet} (h : Committed s t n p)
include h

theorem lane : t.lane n = { s.lane n with committed := (s.lane n).committed ++ [stamped s n p], seq := (s.lane n).seq + 1 } := by
  refine Eq.trans (congrArg (tget · n laneNil) h.lanes) ?_
  exact lane_setLane_same s n _

theorem lane_ne {m : Nat} (hm : m ≠ n) : t.lane m = s.lane m := by
  refine Eq.trans (congrArg (tget · m laneNil) h.lanes) ?_
  exact (lane_setLane s n m _).trans (if_neg hm)

theorem newest : (t.lane n).committed.getLast? = some (stamped s n p) := by
  rw [h.lane]; simp

theorem newestWords : ((t.lane n).committed.getLast?).map packetWords = some (packetWords p) := by
  rw [h.newest, Option.map_some, packetWords_stamped]

theorem bytes : BytesKept s t := bytesKept_of_eq (by rw [h.only]) (by rw [h.only])

end Committed

/-- A queue 0 to 7 checks nothing at a commit. -/
theorem hwOk_low {n : Nat} (hn : n < 8) (s : State) (p : Packet) : s.hwOk n p = true := by
  unfold State.hwOk commitOk
  dsimp only
  rw [if_neg (by omega), if_neg (by omega), if_neg (by omega)]

theorem heldBack_none {s : State} (h : s.rel.pending = false) (n : Nat) : s.heldBack n = 0 := by
  unfold State.heldBack; rw [h]; rfl

theorem committed_commit (s : State) (n : Nat) (p : Packet) (k : Nat) :
    Committed s ((s.commit n p).evt 0x10 0x12 k) n p := by
  have honly := regsOnly_evt (s.commit n p) 0x10 0x12 k
  have hregs := regsBut_evt (s.commit n p) [] (b := 0x10) (by omega) 0x12 k
  rw [RegsOnly] at honly
  generalize State.evt _ 0x10 0x12 k = t at *
  exact ⟨by rw [honly]; rfl, by rw [honly]; rfl, RegsBut.trans (regsBut_of_regs rfl _) hregs⟩

/-- Only a job and a request to Peat change more than their lane as they commit. -/
theorem jobAccepted_other {n : Nat} (h10 : n ≠ 10) (h15 : n ≠ 15) (s : State) (p : Packet) : s.jobAccepted n p = s := by
  unfold State.jobAccepted
  rw [if_neg h10, if_neg h15]

theorem hwCommit_room {s : State} {n : Nat} {p : Packet} (hn : n < 8) (hheld : s.heldBack n = 0)
    (hroom : p.items.length ≤ s.room n) (hopen : s.openCount n < 8) :
    ∃ t, s.hwCommit n p = some t ∧ Committed s t n p := by
  have hok : s.hwRoom n p = true := by
    unfold State.hwRoom
    rw [hheld]
    exact decide_eq_true ⟨hroom, hopen⟩
  refine ⟨_, ?_, committed_commit s n p p.items.length⟩
  unfold State.hwCommit
  rw [if_pos hok, jobAccepted_other (by omega) (by omega)]

theorem feCommit_room {s : State} {n : Nat} {p : Packet} (hn : n < 8) (hheld : s.heldBack n = 0)
    (hroom : p.items.length ≤ s.room n) (hopen : s.openCount n < 8) : Committed s (s.feCommit n p) n p := by
  obtain ⟨t, ht, hc⟩ := hwCommit_room (p := p) hn hheld hroom hopen
  unfold State.feCommit
  rw [if_pos (hwOk_low hn s p), if_neg (by omega), ht]
  exact hc

/-- The room of a lane depends on its queue's configuration, the lanes and the engines alone. -/
theorem room_congr {s t : State} {n : Nat} (hcfg : t.reg (aQUE_CFG (qOf n)) = s.reg (aQUE_CFG (qOf n))) (hlanes : t.lanes = s.lanes)
    (heng : t.eng = s.eng) : t.room n = s.room n := by
  unfold State.room State.capacity State.reservedItems State.lane
  rw [hcfg, hlanes, heng]

/-- A queue in which a decision holds nothing back has room for what fits into it, and no other packet waits for it. -/
theorem waitCommit_room {s : State} {n : Nat} {p : Packet} (hn : n < 8) (hheld : s.heldBack n = 0)
    (hwaits : s.laneWaits n = false) (hroom : p.items.length ≤ s.room n) (hopen : s.openCount n < 8) :
    Committed s (s.waitCommit n p) n p := by
  obtain ⟨t, ht, hc⟩ := hwCommit_room (p := p) hn hheld hroom hopen
  unfold State.waitCommit
  rw [if_pos (hwOk_low hn s p), hwaits, if_neg (by decide), ht]
  exact hc

/-! ### Packets of words -/

theorem mkItems_words (first : Bool) (prio src last : Nat) (ws : List Word) :
    (mkItems first prio src last ws).map (·.data) = ws := by
  fun_induction mkItems <;> simp_all

theorem length_mkItems (first : Bool) (prio src last : Nat) (ws : List Word) :
    (mkItems first prio src last ws).length = ws.length := by
  rw [← List.length_map (f := (·.data)), mkItems_words]

theorem packetWords_bytesPacket {b : Bytes} (hb : b ≠ []) (prio src : Nat) : packetWords (bytesPacket prio src b) = toWords b := by
  unfold bytesPacket
  rw [if_neg (by simpa using hb)]
  exact mkItems_words ..

theorem length_bytesPacket {b : Bytes} (hb : b ≠ []) (prio src : Nat) :
    (bytesPacket prio src b).items.length = (toWords b).length := by
  rw [← packetWords_bytesPacket hb prio src, packetWords, List.length_map]

theorem src_bytesPacket (prio src : Nat) (b : Bytes) : (bytesPacket prio src b).src = src := by
  unfold bytesPacket; split <;> rfl

theorem toWords_ofWords (ws : List Word) : toWords (ofWords ws) = ws := by
  induction ws with
  | nil => rfl
  | cons w ws ih =>
    have hw : toWords (toLE 4 w.toNat ++ ofWords ws) = w :: toWords (ofWords ws) := by
      show w32 _ :: toWords (ofWords ws) = _
      congr 1
      apply BitVec.eq_of_toNat_eq
      have := w.isLt
      simp only [w32, by8, BitVec.toNat_ofNat]
      omega
    exact hw.trans (by rw [ih])

theorem ofWords_ne_nil {ws : List Word} (h : ws ≠ []) : ofWords ws ≠ [] := fun h0 => h (by
  rw [← toWords_ofWords ws, h0]; rfl)

theorem packetWords_wordsPacket {ws : List Word} (h : ws ≠ []) (prio src : Nat) :
    packetWords (wordsPacket prio src ws) = ws := by
  rw [wordsPacket, packetWords_bytesPacket (ofWords_ne_nil h), toWords_ofWords]

theorem length_wordsPacket {ws : List Word} (h : ws ≠ []) (prio src : Nat) :
    (wordsPacket prio src ws).items.length = ws.length := by
  rw [wordsPacket, length_bytesPacket (ofWords_ne_nil h), toWords_ofWords]

end Proofs
end Sys2Proof

/-! PROOFS. The sequences of the monitor converter (R424 to R426). -/
namespace Sys2Proof
namespace Proofs

open Sys2Proof.Machine Sys2Proof.Safety Sys2Proof.Laws

/-! ### What waits in MON_STATUS -/

theorem seqPending_eq (s : State) {k : Nat} (hk : k < 4) : s.seqPending k = (s.rf aMON_STATUS 7 4).testBit k :=
  bit_eq_testBit_fld _ (by omega)

theorem seqPending_none {s : State} (h : s.rf aMON_STATUS 7 4 = 0) {k : Nat} (hk : k < 4) : s.seqPending k = false := by
  rw [seqPending_eq s hk, h, Nat.zero_testBit]

theorem not_prfAddr_monStatus : ¬ prfAddr aMON_STATUS := by unfold prfAddr aMON_STATUS; omega

/-- With no sequence running or waiting, nothing begins. -/
theorem monStart_none {s : State} (hrun : s.mon.run = none) (h : s.rf aMON_STATUS 7 4 = 0) : s.monStart = s.setReg aMON_STATUS 0 := by
  unfold State.monStart
  rw [hrun, if_neg (by decide)]
  simp only [List.find?, seqPending_none h (show 0 < 4 by omega), seqPending_none h (show 1 < 4 by omega),
    seqPending_none h (show 2 < 4 by omega), seqPending_none h (show 3 < 4 by omega)]

/-- The converter begins sequence q. -/
def begun (s : State) (q : Nat) : State :=
  ({ ((s.srb aMON_STATUS (4 + q) false).srb aMON_STATUS 3 true).srf aMON_STATUS 1 0 q with
    mon := { s.mon with run := some ⟨q, 0, 0, 0, s.sysLo, [], false⟩ } }).seqStatus q cPending

theorem monStart_only {s : State} (hrun : s.mon.run = none) {q : Nat} (hq : q < 4)
    (h : ∀ k < 4, s.seqPending k = decide (k = q)) : s.monStart = begun s q := by
  have hfind : [0, 1, 2, 3].find? s.seqPending = some q := by
    simp only [List.find?, h 0 (by omega), h 1 (by omega), h 2 (by omega), h 3 (by omega)]
    interval_cases q <;> rfl
  unfold State.monStart
  rw [hrun, if_neg (by decide), hfind]
  rfl

theorem seqStat_ne (q : Nat) : aMON_SEQSTAT q ≠ aMON_STATUS := by unfold aMON_SEQSTAT aMON_STATUS; omega

theorem reg_begun (s : State) (q a : Nat) :
    (begun s q).reg a = if a = aMON_SEQSTAT q then setFld (s.reg (aMON_SEQSTAT q)) 31 24 cPending.toNat
      else if a = aMON_STATUS then setFld (setFld (setFld (s.reg aMON_STATUS) (4 + q) (4 + q) 0) 3 3 1) 1 0 q
      else s.reg a := by
  have hst : ∀ b, (((s.srb aMON_STATUS (4 + q) false).srb aMON_STATUS 3 true).srf aMON_STATUS 1 0 q).reg b =
      if b = aMON_STATUS then setFld (setFld (setFld (s.reg aMON_STATUS) (4 + q) (4 + q) 0) 3 3 1) 1 0 q else s.reg b := fun b => by
    rw [reg_srf, reg_srb, if_pos rfl, reg_srb, if_pos rfl, reg_srb, reg_srb]
    by_cases hb : b = aMON_STATUS
    · rw [if_pos hb, if_pos hb]; rfl
    · rw [if_neg hb, if_neg hb, reg_srb, if_neg hb, if_neg hb]
  unfold begun State.seqStatus
  rw [reg_srf]
  generalize ((s.srb aMON_STATUS (4 + q) false).srb aMON_STATUS 3 true).srf aMON_STATUS 1 0 q = u at *
  have hu : ∀ b x, ({ u with mon := x } : State).reg b = u.reg b := fun _ _ => rfl
  simp only [hu, hst, if_neg (seqStat_ne q)]

theorem sequenceGo_begins {s : State} {m : Master} {q : Nat} (hq : q < 4) (hg : Grants s m aMON_CTL) (hres : s.resumed = true)
    (hrun : s.mon.run = none) (hwait : s.rf aMON_STATUS 7 4 = 0) (hlen : s.seqLen q ≠ 0)
    (hin : ∀ k, k < s.seqLen q → s.seqIn q k ≤ 23) :
    ∃ t, exec (.sequenceGo m (2 ^ q)) s = .next t ∧ t.mon.run = some ⟨q, 0, 0, 0, s.sysLo, [], false⟩ ∧
      t.rf (aMON_SEQSTAT q) 31 24 = cPending.toNat ∧ t.rb aMON_STATUS 3 = true ∧ t.rf aMON_STATUS 1 0 = q ∧
      RegsBut [aMON_STATUS, aMON_SEQSTAT q] s t := by
  have honly := RegsAndCounts.of_access s m (rightsOf m) false aMON_CTL 2
  have hregs : ∀ a, (s.access m (rightsOf m) false aMON_CTL 2).reg a = s.reg a := reg_access s m (rightsOf m) false aMON_CTL 2
  have hexec : exec (.sequenceGo m (2 ^ q)) s = .next (monCtl (w32 (2 ^ q % 16)) (s.access m (rightsOf m) false aMON_CTL 2)) :=
    congrArg done (owned_granted hg _)
  have hmon : (s.access m (rightsOf m) false aMON_CTL 2).mon = s.mon := honly.view (·.mon) fun _ _ => rfl
  have hsys : (s.access m (rightsOf m) false aMON_CTL 2).sysLo = s.sysLo := honly.view (·.sysLo) fun _ _ => rfl
  have hres' : (s.access m (rightsOf m) false aMON_CTL 2).resumed = true := (honly.view (·.resumed) fun _ _ => rfl).trans hres
  generalize s.access m (rightsOf m) false aMON_CTL 2 = u at *
  have hctl : monCtl (w32 (2 ^ q % 16)) u = u.seqTrigger q := by
    have h : bit (w32 (2 ^ q % 16)) 4 = false ∧ (List.range 4).filter (bit (w32 (2 ^ q % 16))) = [q] := by
      interval_cases q <;> decide
    unfold monCtl
    rw [h.1, h.2]
    rfl
  have hnone : u.mon.run = none := by rw [hmon, hrun]
  have htrig : u.seqTrigger q = ((u.srb aMON_STATUS (4 + q) true).seqStatus q cPending).monStart := by
    have hwait' : u.rf aMON_STATUS 7 4 = 0 := by rw [State.rf, hregs]; exact hwait
    have hlen' : u.seqLen q = s.seqLen q := by unfold State.seqLen State.rf; rw [hregs]
    have hin' : ((List.range (u.seqLen q)).any fun k => decide (23 < u.seqIn q k)) = false := by
      rw [List.any_eq_false]
      intro k hk
      have hk' := hin k (hlen' ▸ List.mem_range.1 hk)
      have : u.seqIn q k = s.seqIn q k := by unfold State.seqIn; rw [hregs]
      rw [this]; simp; omega
    unfold State.seqTrigger
    rw [if_neg (by rw [hres']; simp; omega)]
    simp only [hnone, seqPending_none hwait' hq, hin']
    rw [if_neg (by simp), if_neg (by rw [hlen']; exact hlen), if_neg (by simp), if_neg (by rw [srb_mon, hnone]; simp)]
  have hpend : ∀ k < 4, ((u.srb aMON_STATUS (4 + q) true).seqStatus q cPending).seqPending k = decide (k = q) := fun k hk => by
    have hreg : ((u.srb aMON_STATUS (4 + q) true).seqStatus q cPending).reg aMON_STATUS =
        setFld (s.reg aMON_STATUS) (4 + q) (4 + q) (b2n true) := by
      rw [State.seqStatus, reg_srf, if_neg (seqStat_ne q).symm, reg_srb, if_pos rfl, hregs]
    rw [State.seqPending, State.rb, hreg]
    by_cases hkq : k = q
    · rw [hkq, bit_setFld_same _ (by omega), decide_eq_true rfl]
    · rw [bit_setFld_ne _ (by omega) (by omega) (by omega), decide_eq_false hkq]
      exact seqPending_none hwait hk
  have hbegun := monStart_only (s := (u.srb aMON_STATUS (4 + q) true).seqStatus q cPending) (by
    rw [State.seqStatus, srf_mon, srb_mon, hnone]) hq hpend
  have hv : RegsBut [aMON_STATUS, aMON_SEQSTAT q] u ((u.srb aMON_STATUS (4 + q) true).seqStatus q cPending) :=
    RegsBut.trans (regsBut_srb _ (a := aMON_STATUS) (by simp) _ _) (regsBut_srf _ (by simp) 31 24 _)
  have hvsys : ((u.srb aMON_STATUS (4 + q) true).seqStatus q cPending).sysLo = s.sysLo := by
    rw [State.sysLo, State.seqStatus, srf_sysTime, srb_sysTime]; exact hsys
  generalize (u.srb aMON_STATUS (4 + q) true).seqStatus q cPending = v at *
  refine ⟨begun v q, hexec.trans (congrArg done (hctl.trans (htrig.trans hbegun))), ?_, ?_, ?_, ?_, fun a ha hc => ?_⟩
  · rw [← hvsys]; rfl
  · rw [State.rf, reg_begun, if_pos rfl, fld_setFld_same _ (by omega) (by omega)]; rfl
  · rw [State.rb, reg_begun, if_neg (seqStat_ne q).symm, if_pos rfl, bit_setFld_ne _ (by omega) (by omega) (by omega)]
    exact bit_setFld_same _ (by omega) true
  · rw [State.rf, reg_begun, if_neg (seqStat_ne q).symm, if_pos rfl, fld_setFld_same _ (by omega) (by omega)]
    omega
  · have h1 : a ≠ aMON_STATUS ∧ a ≠ aMON_SEQSTAT q := by simpa using ha
    rw [reg_begun, if_neg h1.2, if_neg h1.1, hv a ha hc, hregs]

/-! ### The end of a conversion -/

/-- A result is stored, the first one with its time. -/
def stored (s : State) (r : MonRun) (w : Word) : State :=
  (s.setReg (aMON_RES r.seq r.entry) w).onlyIf (decide (r.entry = 0)) fun s => s.setReg (aMON_TIME r.seq) r.time

theorem stored_frame (s : State) (r : MonRun) (w : Word) (hseq : r.seq < 4) (hentry : r.entry < 8) :
    RegsOnly s (stored s r w) ∧ (stored s r w).reg (aMON_RES r.seq r.entry) = w ∧
      (r.entry = 0 → (stored s r w).reg (aMON_TIME r.seq) = r.time) ∧
      RegsBut [aMON_RES r.seq r.entry, aMON_TIME r.seq] s (stored s r w) := by
  have hne : aMON_RES r.seq r.entry ≠ aMON_TIME r.seq := by unfold aMON_RES aMON_TIME; omega
  unfold stored
  by_cases h0 : r.entry = 0
  · rw [decide_eq_true h0]
    refine ⟨RegsOnly.trans (regsOnly_setReg ..) (regsOnly_setReg ..), ?_, fun _ => reg_setReg_same .., ?_⟩
    · exact (reg_setReg_ne _ hne _).trans (reg_setReg_same ..)
    · exact RegsBut.trans (regsBut_setReg _ (by simp) _) (regsBut_setReg _ (by simp) _)
  · rw [decide_eq_false h0]
    exact ⟨regsOnly_setReg .., reg_setReg_same .., fun h => absurd h h0, regsBut_setReg _ (by simp) _⟩

/-- The run after a conversion whose result is w. -/
def nextEntry (r : MonRun) (w : Word) : MonRun :=
  { r with words := r.words ++ [w], entry := r.entry + 1, slotNo := r.slotNo + 1 + r.moved, moved := 0 }

/-- The word that a conversion stores. -/
def resultWord (s : State) (r : MonRun) (code : Nat) : Word :=
  w32 (s.seqIn r.seq r.entry % 32 * 2 ^ 24 + r.slotNo % 256 * 2 ^ 16 + code % 4096)

theorem conversionEnd_run {s : State} {r : MonRun} (code : Nat) (hrun : s.mon.run = some r)
    (hspoiled : testBit s.mon.spoiled r.seq = false) (habort : r.abort = false) :
    conversionEnd code s =
      if r.entry + 1 < (stored s r (resultWord s r code)).seqLen r.seq then
        { stored s r (resultWord s r code) with
          mon := { (stored s r (resultWord s r code)).mon with run := some (nextEntry r (resultWord s r code)) } }
      else
        (((stored s r (resultWord s r code)).bump (aMON_SEQSTAT r.seq) 7 0 1).seqPacket (nextEntry r (resultWord s r code))).2.seqEnd
          r.seq (((stored s r (resultWord s r code)).bump (aMON_SEQSTAT r.seq) 7 0 1).seqPacket
            (nextEntry r (resultWord s r code))).1 := by
  unfold conversionEnd
  rw [hrun]
  dsimp only
  rw [hspoiled]
  simp only [Bool.false_eq_true, if_false]
  exact if_neg (by rw [habort]; decide)

/-- The addresses that a conversion of one of the four sequences uses lie apart. -/
theorem seqCfg_apart {q : Nat} (hq : q < 4) {p k : Nat} : aMON_SEQCFG q ≠ aMON_RES p k ∧ aMON_SEQCFG q ≠ aMON_TIME p ∧
    aMON_SEQCFG q ≠ aMON_STATUS ∧ (∀ p', aMON_SEQCFG q ≠ aMON_SEQSTAT p') ∧ ¬ Counted (aMON_SEQCFG q) := by
  unfold aMON_SEQCFG aMON_RES aMON_TIME aMON_STATUS aMON_SEQSTAT Counted
  refine ⟨?_, ?_, ?_, fun p' => ?_, ?_⟩ <;> omega

theorem seqLen_stored {s : State} {r : MonRun} {w : Word} (hseq : r.seq < 4) : (stored s r w).seqLen r.seq = s.seqLen r.seq := by
  obtain ⟨h1, h2, -, -, -⟩ := seqCfg_apart hseq (p := r.seq) (k := r.entry)
  unfold State.seqLen State.rf stored
  cases decide (r.entry = 0) with
  | true => rw [State.onlyIf, if_pos rfl, reg_setReg_ne _ h2, reg_setReg_ne _ h1]
  | false => rw [State.onlyIf, if_neg (by decide), reg_setReg_ne _ h1]

theorem conversion_goesOn {s : State} {code : Nat} {r : MonRun} (hrun : s.mon.run = some r) (hseq : r.seq < 4)
    (hspoiled : testBit s.mon.spoiled r.seq = false) (habort : r.abort = false) (hmore : r.entry + 1 < s.seqLen r.seq) :
    ∃ t, exec (.conversionSlotEnd code) s = .next t ∧ t.reg (aMON_RES r.seq r.entry) = resultWord s r code ∧
      (r.entry = 0 → t.reg (aMON_TIME r.seq) = r.time) ∧ t.mon.run.map (·.entry) = some (r.entry + 1) ∧
      RegsBut [aMON_RES r.seq r.entry, aMON_TIME r.seq] s t := by
  have h8 : r.entry < 8 := by unfold State.seqLen at hmore; omega
  obtain ⟨-, hres, htime, hregs⟩ := stored_frame s r (resultWord s r code) hseq h8
  have hend := conversionEnd_run code hrun hspoiled habort
  rw [seqLen_stored hseq, if_pos hmore] at hend
  exact ⟨_, congrArg done hend, hres, htime, rfl, RegsBut.trans hregs (regsBut_of_regs rfl _)⟩

/-- The end of a sequence, where none waits. -/
theorem seqEnd_frame {s : State} {q : Nat} (hq : q < 4) (c : Byte) (hwait : s.rf aMON_STATUS 7 4 = 0) :
    (s.seqEnd q c).mon.run = none ∧ (s.seqEnd q c).rb aMON_STATUS 3 = false ∧
      (s.seqEnd q c).rf (aMON_SEQSTAT q) 31 24 = c.toNat ∧ (s.seqEnd q c).lanes = s.lanes ∧
      RegsBut [aMON_STATUS, aMON_SEQSTAT q] s (s.seqEnd q c) := by
  have hu : ∃ u, u = (({ s with mon := { run := none, spoiled := putBit s.mon.spoiled q false } }).srb aMON_STATUS 3 false).seqStatus
      q c ∧ u.mon.run = none ∧ u.rf aMON_STATUS 7 4 = 0 ∧ u.rf (aMON_SEQSTAT q) 31 24 = c.toNat ∧ u.lanes = s.lanes ∧
      RegsBut [aMON_STATUS, aMON_SEQSTAT q] s u := by
    refine ⟨_, rfl, ?_, ?_, ?_, ?_, ?_⟩
    · rw [State.seqStatus, srf_mon, srb_mon]
    · rw [State.seqStatus, rf_srf_other _ (seqStat_ne q).symm, State.rf, reg_srb, if_pos rfl,
        fld_setFld_above _ (by omega) (by omega) (by omega)]
      exact hwait
    · rw [State.seqStatus, rf_srf_same _ _ _ (by omega) (by omega)]
      have := c.isLt; omega
    · rw [State.seqStatus, srf_lanes, srb_lanes]
    · exact RegsBut.trans (RegsBut.trans (regsBut_of_regs rfl _) (regsBut_srb _ (a := aMON_STATUS) (by simp) _ _))
        (regsBut_srf _ (by simp) 31 24 _)
  obtain ⟨u, hu, hrun, hwait', hstat, hlanes, hregs⟩ := hu
  have hend : s.seqEnd q c = (u.ended 0x12 c).setReg aMON_STATUS 0 := by
    have honly : RegsOnly u (u.ended 0x12 c) := regsOnly_ended ..
    have hst : (u.ended 0x12 c).rf aMON_STATUS 7 4 = 0 := (rf_ended u c (by omega) not_prfAddr_monStatus 7 4).trans hwait'
    unfold State.seqEnd
    dsimp only
    rw [← hu, seqPending_none hwait' hq]
    exact monStart_none (s := u.ended 0x12 c) (by rw [honly.mon, hrun]) hst
  have honly : RegsOnly u (u.ended 0x12 c) := regsOnly_ended ..
  have hregs' := regsBut_ended u [aMON_STATUS, aMON_SEQSTAT q] (b := 0x12) (by omega) c
  have hstat' := rf_ended u c (b := 0x12) (by omega) (a := aMON_SEQSTAT q) (by unfold prfAddr aMON_SEQSTAT; omega) 31 24
  rw [hend]
  refine ⟨by rw [setReg_mon, honly.mon, hrun], ?_, ?_, by rw [setReg_lanes, honly.lanes, hlanes], ?_⟩
  · rw [State.rb, reg_setReg_same]; decide
  · rw [State.rf, reg_setReg_ne _ (seqStat_ne q)]
    exact hstat'.trans hstat
  · exact RegsBut.trans hregs (RegsBut.trans hregs' (regsBut_setReg _ (by simp) 0))

/-- The last conversion of a sequence, before its packet and its end. -/
theorem lastStored {s : State} {r : MonRun} (w : Word) (hseq : r.seq < 4) (hentry : r.entry < 8)
    (hwait : s.rf aMON_STATUS 7 4 = 0) :
    ∃ u, u = (stored s r w).bump (aMON_SEQSTAT r.seq) 7 0 1 ∧ RegsOnly s u ∧ u.reg (aMON_RES r.seq r.entry) = w ∧
      u.rf aMON_STATUS 7 4 = 0 ∧
      RegsBut [aMON_RES r.seq r.entry, aMON_TIME r.seq, aMON_STATUS, aMON_SEQSTAT r.seq] s u := by
  obtain ⟨honly, hres, -, hregs⟩ := stored_frame s r w hseq hentry
  refine ⟨_, rfl, RegsOnly.trans honly (regsOnly_setReg ..), ?_, ?_, ?_⟩
  · rw [reg_bump, if_neg (by unfold aMON_RES aMON_SEQSTAT; omega), hres]
  · rw [State.rf, reg_bump, if_neg (seqStat_ne _).symm, hregs _ (by
      unfold aMON_STATUS aMON_RES aMON_TIME; simp; omega) (by unfold Counted aMON_STATUS; omega)]
    exact hwait
  · exact RegsBut.trans (RegsBut.mono hregs (by simp +contextual)) (regsBut_bump _ (by simp) 7 0 1)

theorem monRes_kept {q p k : Nat} (hq : q < 4) (hp : p < 4) (hk : k < 8) :
    aMON_RES p k ∉ [aMON_STATUS, aMON_SEQSTAT q] ∧ ¬ Counted (aMON_RES p k) := by
  unfold aMON_RES aMON_STATUS aMON_SEQSTAT Counted
  refine ⟨?_, ?_⟩
  · simp; omega
  · omega

section
variable {s : State} {code : Nat} {r : MonRun} (hrun : s.mon.run = some r) (hseq : r.seq < 4)
  (hspoiled : testBit s.mon.spoiled r.seq = false) (habort : r.abort = false) (hlast : s.seqLen r.seq ≤ r.entry + 1)
  (hentry : r.entry < 8) (hwait : s.rf aMON_STATUS 7 4 = 0)
include hrun hseq hspoiled habort hlast hentry hwait

theorem conversion_ends (hqen : s.rb (aMON_SEQCFG r.seq) 12 = false) :
    ∃ t, exec (.conversionSlotEnd code) s = .next t ∧ t.reg (aMON_RES r.seq r.entry) = resultWord s r code ∧
      t.rf (aMON_SEQSTAT r.seq) 31 24 = cOk.toNat ∧ t.mon.run = none ∧ t.rb aMON_STATUS 3 = false ∧
      RegsBut [aMON_RES r.seq r.entry, aMON_TIME r.seq, aMON_STATUS, aMON_SEQSTAT r.seq] s t := by
  have hend := conversionEnd_run code hrun hspoiled habort
  rw [seqLen_stored hseq, if_neg (by omega)] at hend
  obtain ⟨u, hu, -, hres, hst, hregs⟩ := lastStored (resultWord s r code) hseq hentry hwait
  obtain ⟨h1, h2, h3, h4, hc⟩ := seqCfg_apart hseq (p := r.seq) (k := r.entry)
  have hpacket : u.seqPacket (nextEntry r (resultWord s r code)) = (cOk, u) := by
    unfold State.seqPacket
    refine if_neg ?_
    rw [show (nextEntry r (resultWord s r code)).seq = r.seq from rfl, State.rb, hregs _ (by simp [h1, h2, h3, h4 r.seq]) hc]
    exact ne_true_of_eq_false hqen
  rw [← hu, hpacket] at hend
  obtain ⟨grun, gbusy, gstat, -, gregs⟩ := seqEnd_frame hseq cOk hst
  refine ⟨_, congrArg done hend, ?_, gstat, grun, gbusy, RegsBut.trans hregs (RegsBut.mono gregs (by simp +contextual))⟩
  obtain ⟨k1, k2⟩ := monRes_kept hseq hseq hentry
  exact (gregs _ k1 k2).trans hres

theorem conversion_queues {n : Nat} (hqen : s.rb (aMON_SEQCFG r.seq) 12 = true)
    (hn : n = s.dstLane (s.rf (aMON_SEQCFG r.seq) 11 8)) (hn8 : n < 8) (hrel : s.rel.pending = false)
    (hroom : r.words.length + 2 ≤ s.room n) (hopen : s.openCount n < 8) :
    ∃ t, exec (.conversionSlotEnd code) s = .next t ∧ t.reg (aMON_RES r.seq r.entry) = resultWord s r code ∧
      ((t.lane n).committed.getLast?).map (fun p => (p.src, packetWords p)) =
        some (0xFF, r.time :: r.words ++ [resultWord s r code]) ∧
      t.rf (aMON_SEQSTAT r.seq) 31 24 = cOk.toNat ∧ t.mon.run = none ∧
      RegsBut [aMON_RES r.seq r.entry, aMON_TIME r.seq, aMON_STATUS, aMON_SEQSTAT r.seq] s t := by
  have hend := conversionEnd_run code hrun hspoiled habort
  rw [seqLen_stored hseq, if_neg (by omega)] at hend
  obtain ⟨u, hu, honly, hres, hst, hregs⟩ := lastStored (resultWord s r code) hseq hentry hwait
  obtain ⟨h1, h2, h3, h4, hc⟩ := seqCfg_apart hseq (p := r.seq) (k := r.entry)
  have hcfg : u.reg (aMON_SEQCFG r.seq) = s.reg (aMON_SEQCFG r.seq) := hregs _ (by simp [h1, h2, h3, h4 r.seq]) hc
  have hque : ∀ q < 16, u.reg (aQUE_CFG q) = s.reg (aQUE_CFG q) := fun q hq => hregs _ (by
    unfold aQUE_CFG aMON_RES aMON_TIME aMON_STATUS aMON_SEQSTAT; simp; omega) (by unfold Counted aQUE_CFG; omega)
  have hdst : u.dstLane (u.rf (aMON_SEQCFG r.seq) 11 8) = n := by
    rw [hn, State.rf, hcfg, State.dstLane, State.mailbox, State.rb, hque _ (fld_lt (s.reg (aMON_SEQCFG r.seq)) 11 8)]
    rfl
  have hwords : r.time :: (r.words ++ [resultWord s r code]) ≠ [] := by simp
  obtain ⟨v, hv, hcommitted⟩ := hwCommit_room (s := u) (n := n)
    (p := wordsPacket 0 0xFF (r.time :: (r.words ++ [resultWord s r code]))) hn8 (heldBack_none (by rw [honly.rel]; exact hrel) n) (by
      rw [length_wordsPacket hwords, room_congr (hque _ (by unfold qOf; split <;> omega)) honly.lanes honly.eng]
      simp; omega) (by unfold State.openCount State.lane at *; rw [honly.lanes, honly.eng]; exact hopen)
  have hpacket : u.seqPacket (nextEntry r (resultWord s r code)) = (cOk, v) := by
    unfold State.seqPacket
    refine (if_pos ?_).trans ?_
    · rw [show (nextEntry r (resultWord s r code)).seq = r.seq from rfl, State.rb, hcfg]
      exact hqen
    · dsimp only
      rw [show (nextEntry r (resultWord s r code)).seq = r.seq from rfl, hdst, if_pos (hwOk_low hn8 u _)]
      rw [show wordsPacket 0 0xFF ((nextEntry r (resultWord s r code)).time :: (nextEntry r (resultWord s r code)).words) =
        wordsPacket 0 0xFF (r.time :: (r.words ++ [resultWord s r code])) from rfl, hv]
  rw [← hu, hpacket] at hend
  have hvst : v.rf aMON_STATUS 7 4 = 0 := by
    rw [State.rf, hcommitted.regs _ (by simp) (by unfold Counted aMON_STATUS; omega)]; exact hst
  obtain ⟨grun, -, gstat, glanes, gregs⟩ := seqEnd_frame hseq cOk hvst
  obtain ⟨k1, k2⟩ := monRes_kept hseq hseq hentry
  refine ⟨_, congrArg done hend, ?_, ?_, gstat, grun, RegsBut.trans hregs (RegsBut.trans (RegsBut.mono hcommitted.regs (by simp))
    (RegsBut.mono gregs (by simp +contextual)))⟩
  · exact (gregs _ k1 k2).trans ((hcommitted.regs _ (by simp) k2).trans hres)
  · have hlane : ((v.seqEnd r.seq cOk).lane n) = v.lane n := congrArg (tget · n laneNil) glanes
    rw [hlane, hcommitted.newest, Option.map_some, packetWords_stamped, packetWords_wordsPacket hwords]
    exact congrArg (fun x => some (x, _)) (src_bytesPacket ..)

end

/-- Settles O45: by whether the sequence begins, goes on, or ends with or without a packet. -/
theorem converterSequences : Obligations.ConverterSequences := by
  unfold Obligations.ConverterSequences
  refine ⟨?_, ?_, ?_, ?_⟩
  · exact fun s m q hq hg hres hrun hwait hlen hin => sequenceGo_begins hq hg hres hrun hwait hlen hin
  · exact fun s code r hrun hseq hsp hab hmore => conversion_goesOn hrun hseq hsp hab hmore
  · exact fun s code r hrun hseq hsp hab hlast hentry hqen hwait =>
      conversion_ends hrun hseq hsp hab hlast hentry hwait hqen
  · intro s code r n w hrun hseq hsp hab hlast hentry hqen hwait hn hn8 hw hrel hroom hopen
    obtain ⟨t, ht, hrest⟩ := conversion_queues hrun hseq hsp hab hlast hentry hwait hqen hn hn8 hrel hroom hopen
    exact ⟨t, ht, by rw [hw]; exact hrest⟩

end Proofs
end Sys2Proof

/-! PROOFS. The timers' ticks, their events and the event routes (R414 to R422). -/
namespace Sys2Proof
namespace Proofs

open Sys2Proof.Machine Sys2Proof.Safety Sys2Proof.Laws

/-! ### The wrap test and the advance -/

/-- What a tick of a timer may change but the routes' targets: the registers listed, its captures' note and interrupts. -/
structure Ticked (l : List Nat) (s t : State) : Prop where
  only : t = { s with regs := t.regs, irqs := t.irqs, capUnread := t.capUnread }
  regs : RegsBut l s t

theorem Ticked.trans {l : List Nat} {s t u : State} (h : Ticked l s t) (h' : Ticked l t u) : Ticked l s u :=
  ⟨by rw [h'.only, h.only], RegsBut.trans h.regs h'.regs⟩

theorem Ticked.mono {l l' : List Nat} {s t : State} (h : Ticked l s t) (hl : ∀ a ∈ l, a ∈ l') : Ticked l' s t :=
  ⟨h.only, RegsBut.mono h.regs hl⟩

theorem Ticked.refl (l : List Nat) (s : State) : Ticked l s s := ⟨rfl, regsBut_of_regs rfl l⟩

theorem Ticked.of_setReg {l : List Nat} {a : Nat} (h : a ∈ l) (s : State) (v : Word) : Ticked l s (s.setReg a v) :=
  ⟨rfl, regsBut_setReg s h v⟩

theorem Ticked.each {α : Type} {l : List Nat} {f : State → α → State} (h : ∀ s x, Ticked l s (f s x)) (xs : List α)
    (s : State) : Ticked l s (s.each xs f) := by
  induction xs generalizing s with
  | nil => exact Ticked.refl l s
  | cons x xs ih => exact (h s x).trans (ih (f s x))

theorem Ticked.onlyIf {l : List Nat} {f : State → State} (h : ∀ s, Ticked l s (f s)) (b : Bool) (s : State) :
    Ticked l s (s.onlyIf b f) := by
  cases b with
  | false => exact Ticked.refl l s
  | true => exact h s

/-- The registers of a timer that its ticks change. -/
abbrev tickRegs (n : Nat) : List Nat := [aTMR_COUNT n, aTMR_STAT n, aTMR_CAPLO n, aTMR_CAPHI n]

/-- Those of them that the events of a tick change. -/
abbrev eventRegs (n : Nat) : List Nat := [aTMR_STAT n, aTMR_CAPLO n, aTMR_CAPHI n]

theorem count_not_eventReg {n : Nat} (hn : n < 16) : aTMR_COUNT n ∉ eventRegs n ∧ ¬ Counted (aTMR_COUNT n) := by
  unfold eventRegs aTMR_COUNT aTMR_STAT aTMR_CAPLO aTMR_CAPHI Counted
  refine ⟨?_, ?_⟩
  · simp
  · omega

theorem below_tickRegs {a n : Nat} (h : a < aTMR_CTL 0) : a ∉ tickRegs n := by
  unfold tickRegs aTMR_COUNT aTMR_STAT aTMR_CAPLO aTMR_CAPHI
  unfold aTMR_CTL at h
  simp; omega

theorem advance_ticked (s : State) (n : Nat) : Ticked (tickRegs n) s (s.tmrAdvance n) ∧
    (s.tmrAdvance n).reg (aTMR_COUNT n) = if s.wraps n then 0 else s.reg (aTMR_COUNT n) + 1 := by
  have hne : aTMR_COUNT n ≠ aTMR_STAT n := by unfold aTMR_COUNT aTMR_STAT; omega
  have hlate : ∀ u : State, u.reg (aTMR_COUNT n) = (if s.wraps n then 0 else s.reg (aTMR_COUNT n) + 1) →
      Ticked (tickRegs n) s u → ∀ b : Bool, Ticked (tickRegs n) s (u.onlyIf b fun s => s.srb (aTMR_STAT n) 5 true) ∧
        (u.onlyIf b fun s => s.srb (aTMR_STAT n) 5 true).reg (aTMR_COUNT n) =
          if s.wraps n then 0 else s.reg (aTMR_COUNT n) + 1 := fun u hu ht b => by
    refine ⟨ht.trans (Ticked.onlyIf (fun s => Ticked.of_setReg (by simp) _ _) b u), ?_⟩
    cases b with
    | false => exact hu
    | true => exact (reg_setReg_ne u hne _).trans hu
  unfold State.tmrAdvance
  dsimp only
  cases hw : s.wraps n with
  | false =>
    rw [if_neg (by decide)]
    rw [hw] at hlate
    exact hlate _ (reg_setReg_same ..) (Ticked.of_setReg (by simp) s _) _
  | true =>
    rw [if_pos rfl]
    rw [hw] at hlate
    refine hlate _ ?_ ((Ticked.of_setReg (by simp) s _).trans (Ticked.of_setReg (by simp) _ _)) _
    rw [reg_setReg_ne _ hne, reg_setReg_same, if_pos rfl]

theorem advance_steps (s : State) (n : Nat) (x : Tab Nat) :
    ({ s with steps := x }).tmrAdvance n = { s.tmrAdvance n with steps := x } := by
  have hw : ({ s with steps := x }).wraps n = s.wraps n := rfl
  have hreg : ∀ a, ({ s with steps := x } : State).reg a = s.reg a := fun _ => rfl
  have hset : ∀ (u : State) a v, ({ u with steps := x } : State).setReg a v = { u.setReg a v with steps := x } := fun _ _ _ => rfl
  have harm : ∀ (u : State) k m, ({ u with steps := x } : State).arm k m = { u.arm k m with steps := x } := fun _ _ _ => rfl
  have hsrb : ∀ (u : State) a i b, ({ u with steps := x } : State).srb a i b = { u.srb a i b with steps := x } := fun _ _ _ _ => rfl
  unfold State.tmrAdvance
  simp only [hw, hreg, hset]
  generalize decide ((s.reg (aTMR_PERIOD n)).toNat ≠ 0 ∧ (s.reg (aTMR_PERIOD n)).toNat < (s.reg (aTMR_COUNT n)).toNat) = late
  cases s.wraps n <;> cases late <;> simp only [State.onlyIf, if_true, if_false, harm, hsrb, Bool.false_eq_true]

/-! ### The events of a tick -/

theorem capture_ticked (s : State) (n : Nat) : Ticked (eventRegs n) s (s.capture n) := by
  unfold State.capture
  have hover := Ticked.onlyIf (f := fun s => s.srb (aTMR_STAT n) 6 true) (l := eventRegs n)
    (fun s => Ticked.of_setReg (by simp) s _) (testBit s.capUnread n) s
  generalize s.onlyIf _ _ = u at *
  refine hover.trans ((Ticked.of_setReg (a := aTMR_CAPLO n) (by simp) u _).trans
    ((Ticked.of_setReg (a := aTMR_CAPHI n) (by simp) _ _).trans ⟨rfl, regsBut_of_regs rfl _⟩))

/-- The status bits, the interrupt and the capture of a tick's events, before its routes. -/
def eventsNoted (s : State) (n : Nat) (events : List Nat) : State :=
  let s := s.each events fun s e => s.srb (aTMR_STAT n) e true
  let c := s.reg (aTMR_CTL n)
  let s := s.onlyIf (events.any fun e => bit c (16 + e)) fun s => s.raise (.timer n (s.tmrPeat n))
  s.onlyIf (events.any fun e => decide (fld c 29 27 = e + 1)) fun s => s.capture n

theorem tmrEvents_eq (s : State) (n : Nat) (events : List Nat) :
    s.tmrEvents n events = ((eventsNoted s n events).routeCycle n).routes n events (List.range 16) := rfl

theorem rb_each_set (a : Nat) (l : List Nat) (s : State) {i : Nat} (hi : i < 32) (hl : ∀ e ∈ l, e < 32) :
    (s.each l fun s e => s.srb a e true).rb a i = (s.rb a i || decide (i ∈ l)) := by
  induction l generalizing s with
  | nil => simp [State.each]
  | cons e l ih =>
    have he : e < 32 := hl e (by simp)
    refine (ih (s.srb a e true) fun x hx => hl x (by simp [hx])).trans ?_
    by_cases h : i = e
    · subst h; rw [rb_srb_same _ _ hi]; simp
    · rw [rb_srb_ne _ _ he h]; simp [h]

/-- A capture sets no status bit but OVERCAP. -/
theorem rb_stat_capture (s : State) (n : Nat) {i : Nat} (hi : i ≠ 6) : (s.capture n).rb (aTMR_STAT n) i = s.rb (aTMR_STAT n) i := by
  rw [State.rb, reg_capture, if_neg (by unfold aTMR_STAT aTMR_CAPHI; omega), if_neg (by unfold aTMR_STAT aTMR_CAPLO; omega)]
  split_ifs with h
  · exact bit_setFld_ne _ (by omega) (by omega) (by omega) _
  · rfl

theorem eventsNoted_ticked (s : State) (n : Nat) (events : List Nat) (hev : ∀ e ∈ events, e < 5) :
    Ticked (eventRegs n) s (eventsNoted s n events) ∧
      (∀ i, i < 32 → i ≠ 6 → (eventsNoted s n events).rb (aTMR_STAT n) i = (s.rb (aTMR_STAT n) i || decide (i ∈ events))) ∧
      (∀ e ∈ events, s.rb (aTMR_CTL n) (16 + e) = true → Irq.timer n (s.tmrPeat n) ∈ (eventsNoted s n events).irqs) := by
  have hset : Ticked [aTMR_STAT n] s (s.each events fun s e => s.srb (aTMR_STAT n) e true) :=
    Ticked.each (fun s x => Ticked.of_setReg (by simp) s _) events s
  have hbits : ∀ i, i < 32 → (s.each events fun s e => s.srb (aTMR_STAT n) e true).rb (aTMR_STAT n) i =
      (s.rb (aTMR_STAT n) i || decide (i ∈ events)) := fun i hi => rb_each_set _ events s hi fun e he => by
    have := hev e he; omega
  have hctl : (s.each events fun s e => s.srb (aTMR_STAT n) e true).reg (aTMR_CTL n) = s.reg (aTMR_CTL n) := by
    have hne : aTMR_CTL n ≠ aTMR_STAT n := by unfold aTMR_CTL aTMR_STAT; omega
    clear hev hset hbits
    induction events generalizing s with
    | nil => rfl
    | cons e l ih => exact (ih _).trans (reg_setReg_ne s hne _)
  have hpeat : (s.each events fun s e => s.srb (aTMR_STAT n) e true).tmrPeat n = s.tmrPeat n :=
    congrArg (bit · n) (hset.regs aTMR_PEATMASK (by unfold aTMR_PEATMASK aTMR_STAT; simp; omega)
      (by unfold Counted aTMR_PEATMASK; omega))
  unfold eventsNoted
  dsimp only
  rw [hctl]
  generalize (s.each events fun s e => s.srb (aTMR_STAT n) e true) = u at *
  have hraise : ∀ u : State, Ticked (eventRegs n) u (u.raise (.timer n (u.tmrPeat n))) := fun u => ⟨rfl, regsBut_of_regs rfl _⟩
  refine ⟨?_, ?_, ?_⟩
  · exact (hset.mono (by simp)).trans ((Ticked.onlyIf hraise _ u).trans (Ticked.onlyIf (capture_ticked · n) _ _))
  · intro i hi h6
    rw [← hbits i hi]
    generalize (events.any fun e => bit (s.reg (aTMR_CTL n)) (16 + e)) = b
    generalize (events.any fun e => decide (fld (s.reg (aTMR_CTL n)) 29 27 = e + 1)) = c
    cases b <;> cases c
    · rfl
    · exact rb_stat_capture u n h6
    · rfl
    · exact rb_stat_capture (u.raise (.timer n (u.tmrPeat n))) n h6
  · intro e he hbit
    have hany : (events.any fun e => bit (s.reg (aTMR_CTL n)) (16 + e)) = true := List.any_eq_true.2 ⟨e, he, hbit⟩
    rw [hany, ← hpeat]
    have hmem : Irq.timer n (u.tmrPeat n) ∈ (u.raise (.timer n (u.tmrPeat n))).irqs := by
      unfold State.raise; dsimp only; split_ifs <;> simp_all
    have hcap : ∀ (b : Bool) (v : State), (v.onlyIf b fun s => s.capture n).irqs = v.irqs := fun b v => by
      cases b with
      | false => rfl
      | true => show (v.capture n).irqs = _; unfold State.capture; cases testBit v.capUnread n <;> rfl
    rw [hcap]
    exact hmem

/-! ### Routes -/

/-- Routes that are not enabled do nothing. -/
theorem routes_off {n : Nat} {events l : List Nat} {s : State} (h : ∀ r ∈ l, s.rb (aTMR_ROUTE r) 31 = false) :
    s.routes n events l = s := by
  induction l with
  | nil => rfl
  | cons r l ih =>
    unfold State.routes
    exact (if_pos (.inl (h r (by simp)))).trans (ih fun r hr => h r (by simp [hr]))

theorem routes_append (n : Nat) (events l l' : List Nat) (s : State) :
    s.routes n events (l ++ l') = (s.routes n events l).routes n events l' := by
  induction l generalizing s with
  | nil => rfl
  | cons r l ih =>
    rw [List.cons_append]
    conv_lhs => unfold State.routes
    conv_rhs => enter [1]; unfold State.routes
    dsimp only
    split_ifs <;> exact ih _

/-- The one enabled route of a timer's event, not refused, acts where its action was not taken in this XO cycle. -/
theorem routes_single {u : State} {n r : Nat} {events : List Nat} (hr : r < 16) (hon : bit (u.reg (aTMR_ROUTE r)) 31 = true)
    (hsrc : fld (u.reg (aTMR_ROUTE r)) 27 24 = n) (hev : fld (u.reg (aTMR_ROUTE r)) 22 20 ∈ events)
    (hact : fld (u.reg (aTMR_ROUTE r)) 17 16 ≠ 0) (hrefused : u.routeRefused r = false)
    (hoff : ∀ i < 16, i = r ∨ u.rb (aTMR_ROUTE i) 31 = false)
    (hkey : (fld (u.reg (aTMR_ROUTE r)) 17 16, fld (u.reg (aTMR_ROUTE r)) 3 0) ∉ u.routed.2.2) :
    ∃ (x : Nat × List Nat × List (Nat × Nat)) (l : List Nat), (∀ i ∈ l, i < 16 ∧ i ≠ r) ∧
      u.routes n events (List.range 16) = ({ u with routed := x }.routeActs r).routes n events l := by
  obtain ⟨l, l', hl⟩ := List.append_of_mem (List.mem_range.2 hr)
  have hnodup : (l ++ r :: l').Nodup := hl ▸ List.nodup_range
  have hlt : ∀ i ∈ l ++ r :: l', i < 16 := fun i hi => List.mem_range.1 (hl ▸ hi)
  have hskip : u.routes n events l = u := routes_off fun i hi =>
    (hoff i (hlt i (by simp [hi]))).resolve_left fun h => (List.nodup_middle.1 hnodup).notMem (by simp [← h, hi])
  refine ⟨(u.routed.1, u.routed.2.1, (fld (u.reg (aTMR_ROUTE r)) 17 16, fld (u.reg (aTMR_ROUTE r)) 3 0) :: u.routed.2.2), l',
    fun i hi => ⟨hlt i (by simp [hi]), fun h => (List.nodup_middle.1 hnodup).notMem (by simp [← h, hi])⟩, ?_⟩
  rw [hl, routes_append, hskip]
  conv_lhs => unfold State.routes
  dsimp only
  rw [if_neg (by rw [hon]; simp [hsrc, hev, hact]), if_neg (by rw [hrefused]; decide), if_neg hkey]

/-! ### A tick -/

/-- The compare channels that a tick finds reached, and WRAP where the count wraps. -/
def tickEvents (s : State) (n : Nat) : List Nat :=
  (s.tmrAdvance n).reached n [0, 1, 2, 3] ++ if s.wraps n then [4] else []

/-- A tick before its routes. -/
def ticking (s : State) (n : Nat) : State :=
  eventsNoted ((s.tmrAdvance n).disarm n ((s.tmrAdvance n).reached n [0, 1, 2, 3])) n (tickEvents s n)

theorem tmrTick_eq (s : State) (n : Nat) :
    s.tmrTick n = ((ticking s n).routeCycle n).routes n (tickEvents s n) (List.range 16) := rfl

theorem tickEvents_lt (s : State) (n : Nat) : ∀ e ∈ tickEvents s n, e < 5 := by
  intro e he
  rcases List.mem_append.1 he with h | h
  · have := List.mem_of_mem_filter h
    simp at this; omega
  · split_ifs at h <;> simp at h; omega

theorem rb_each_clear (a : Nat) (l : List Nat) (s : State) {i : Nat} (hl : ∀ c ∈ l, 7 + c < 32) :
    (s.each l fun s c => s.srb a (7 + c) false).rb a i = (s.rb a i && !decide (∃ c ∈ l, i = 7 + c)) := by
  induction l generalizing s with
  | nil => simp [State.each]
  | cons c l ih =>
    have hc : 7 + c < 32 := hl c (by simp)
    refine (ih (s.srb a (7 + c) false) fun x hx => hl x (by simp [hx])).trans ?_
    by_cases h : i = 7 + c
    · subst h; rw [rb_srb_same _ _ hc]; simp
    · rw [rb_srb_ne _ _ hc h]; simp [h]

/-- What a tick leaves before its routes. -/
theorem ticking_frame (s : State) {n : Nat} (hn : n < 16) :
    Ticked (tickRegs n) s (ticking s n) ∧
      (ticking s n).reg (aTMR_COUNT n) = (if s.wraps n then 0 else s.reg (aTMR_COUNT n) + 1) ∧
      (s.wraps n = true → (ticking s n).rb (aTMR_STAT n) 4 = true) ∧
      (s.wraps n = true → s.rb (aTMR_CTL n) 20 = true → Irq.timer n (s.tmrPeat n) ∈ (ticking s n).irqs) ∧
      (∀ c ∈ (s.tmrAdvance n).reached n [0, 1, 2, 3], (ticking s n).rb (aTMR_STAT n) c = true ∧
        (ticking s n).rb (aTMR_STAT n) (7 + c) = false) := by
  obtain ⟨hadv, hcount⟩ := advance_ticked s n
  have hl4 : ∀ c ∈ (s.tmrAdvance n).reached n [0, 1, 2, 3], c < 4 := fun c hc => by
    have := List.mem_of_mem_filter hc
    simp at this; omega
  have hwrap : s.wraps n = true → 4 ∈ tickEvents s n := fun h => by unfold tickEvents; rw [h]; simp
  have hmem : ∀ c ∈ (s.tmrAdvance n).reached n [0, 1, 2, 3], c ∈ tickEvents s n := fun c hc => List.mem_append_left _ hc
  have hno : ∀ c < 4, 7 + c ∉ tickEvents s n := fun c _ h => by have := tickEvents_lt s n _ h; omega
  have hdis : Ticked [aTMR_STAT n] (s.tmrAdvance n) ((s.tmrAdvance n).disarm n ((s.tmrAdvance n).reached n [0, 1, 2, 3])) :=
    Ticked.each (fun s x => Ticked.of_setReg (by simp) s _) _ _
  have hclear : ∀ c ∈ (s.tmrAdvance n).reached n [0, 1, 2, 3],
      ((s.tmrAdvance n).disarm n ((s.tmrAdvance n).reached n [0, 1, 2, 3])).rb (aTMR_STAT n) (7 + c) = false := fun c hc => by
    refine (rb_each_clear _ _ (s.tmrAdvance n) fun x hx => by have := hl4 x hx; omega).trans ?_
    rw [decide_eq_true ⟨c, hc, rfl⟩, Bool.not_true, Bool.and_false]
  have hnoted := eventsNoted_ticked ((s.tmrAdvance n).disarm n ((s.tmrAdvance n).reached n [0, 1, 2, 3])) n (tickEvents s n)
    (tickEvents_lt s n)
  unfold ticking
  generalize (s.tmrAdvance n).reached n [0, 1, 2, 3] = l at *
  generalize (s.tmrAdvance n).disarm n l = u at *
  have hu : Ticked (tickRegs n) s u := hadv.trans (hdis.mono (by simp))
  obtain ⟨hev, hbits, hirq⟩ := hnoted
  have hpeat : u.tmrPeat n = s.tmrPeat n := congrArg (bit · n) (hu.regs aTMR_PEATMASK (below_tickRegs (by decide)) (by unfold Counted aTMR_PEATMASK; omega))
  have hctl : u.rb (aTMR_CTL n) 20 = s.rb (aTMR_CTL n) 20 := congrArg (bit · 20) (hu.regs (aTMR_CTL n) (by
    unfold tickRegs aTMR_CTL aTMR_COUNT aTMR_STAT aTMR_CAPLO aTMR_CAPHI; simp) (by unfold Counted aTMR_CTL; omega))
  refine ⟨hu.trans (hev.mono (by simp +contextual)), ?_, fun h => ?_, fun h h20 => ?_, fun c hc => ⟨?_, ?_⟩⟩
  · obtain ⟨h1, h2⟩ := count_not_eventReg hn
    rw [hev.regs _ h1 h2, hdis.regs _ (by unfold aTMR_COUNT aTMR_STAT; simp) h2, hcount]
  · rw [hbits 4 (by omega) (by omega), decide_eq_true (hwrap h), Bool.or_true]
  · rw [← hpeat]
    exact hirq 4 (hwrap h) (hctl.trans h20)
  · have := hl4 c hc
    rw [hbits c (by omega) (by omega), decide_eq_true (hmem c hc), Bool.or_true]
  · have := hl4 c hc
    rw [hbits (7 + c) (by omega) (by omega), hclear c hc, decide_eq_false (hno c this)]
    rfl

theorem route_kept {n r : Nat} (hr : r < 16) : aTMR_ROUTE r ∉ tickRegs n ∧ ¬ Counted (aTMR_ROUTE r) := by
  unfold tickRegs aTMR_ROUTE aTMR_COUNT aTMR_STAT aTMR_CAPLO aTMR_CAPHI Counted
  refine ⟨?_, ?_⟩
  · simp; omega
  · omega

/-- Without enabled routes a tick ends with its events. -/
theorem tmrTick_noRoutes {s : State} {n : Nat} (hn : n < 16) (h : NoRoutes s) : s.tmrTick n = (ticking s n).routeCycle n := by
  have hregs := (ticking_frame s hn).1.regs
  rw [tmrTick_eq]
  refine routes_off fun r hr => ?_
  obtain ⟨h1, h2⟩ := route_kept (n := n) (List.mem_range.1 hr)
  exact (congrArg (bit · 31) (hregs _ h1 h2)).trans (h r (List.mem_range.1 hr))

/-- What a tick of a timer leaves where no route is enabled. -/
theorem tick_noRoutes {s : State} {n : Nat} (hn : n < 16) (h : NoRoutes s) :
    (s.tmrTick n).reg (aTMR_COUNT n) = (if s.wraps n then 0 else s.reg (aTMR_COUNT n) + 1) ∧
      (s.wraps n = true → (s.tmrTick n).rb (aTMR_STAT n) 4 = true) ∧
      (s.wraps n = true → s.rb (aTMR_CTL n) 20 = true → Irq.timer n (s.tmrPeat n) ∈ (s.tmrTick n).irqs) ∧
      (∀ c ∈ (s.tmrAdvance n).reached n [0, 1, 2, 3], (s.tmrTick n).rb (aTMR_STAT n) c = true ∧
        (s.tmrTick n).rb (aTMR_STAT n) (7 + c) = false) ∧
      (s.tmrTick n).steps = s.steps ∧ RegsBut (tickRegs n) s (s.tmrTick n) := by
  obtain ⟨ht, hcount, hwrap, hirq, hcmp⟩ := ticking_frame s hn
  rw [tmrTick_noRoutes hn h]
  generalize ticking s n = u at *
  exact ⟨hcount, hwrap, hirq, hcmp, by rw [show (u.routeCycle n).steps = u.steps from rfl, ht.only],
    RegsBut.trans ht.regs (regsBut_of_regs rfl _)⟩

/-! ### The commands -/

theorem tmrRuns_of {s : State} {n : Nat} (hn : n < 16) (hres : s.resumed = true) (hen : s.rb (aTMR_CTL n) 31 = true) :
    s.tmrRuns n = true := by
  unfold State.tmrRuns; rw [hres, hen, decide_eq_true hn]; rfl

/-- A step that reaches a timer with CLKSEL 1 is taken from those that wait, and ticks. -/
theorem timerStep_ticks {s : State} {n : Nat} (hruns : s.tmrRuns n = true) (hsel : s.rb (aTMR_CTL n) 30 = true)
    (hstep : tget s.steps n 0 ≠ 0) :
    ∃ x, tget x n 0 = tget s.steps n 0 - 1 ∧ timerStep n s = ({ s with steps := x }).tmrTick n := by
  refine ⟨if tget s.steps n 0 = 1 then tdel s.steps n else tput s.steps n (tget s.steps n 0 - 1), ?_, ?_⟩
  · split_ifs with h
    · rw [h, tget, tfind_tdel_same]; rfl
    · rw [tget_tput_same]
  · unfold timerStep
    exact (if_neg hstep).trans (if_pos ⟨hruns, hsel⟩)

/-- A timer's next tick, whichever clock it counts. -/
theorem nextTick_ticks {s : State} {n : Nat} (hruns : s.tmrRuns n = true)
    (hstep : s.rb (aTMR_CTL n) 30 = true → tget s.steps n 0 ≠ 0) : ∃ x, nextTick n s = ({ s with steps := x }).tmrTick n := by
  unfold nextTick
  cases hsel : s.rb (aTMR_CTL n) 30 with
  | false => exact ⟨s.steps, (if_neg (by decide)).trans (congrArg (State.tmrTick · n) (show s = { s with steps := s.steps } from rfl))⟩
  | true =>
    obtain ⟨x, -, hx⟩ := timerStep_ticks hruns hsel (hstep hsel)
    exact ⟨x, hx⟩

section
variable {s : State} {n : Nat} (hn : n < 16) (hres : s.resumed = true) (hen : s.rb (aTMR_CTL n) 31 = true)
include hn hres hen

theorem timerTick_counts (hsel : s.rb (aTMR_CTL n) 30 = false) (hroutes : NoRoutes s) :
    ∃ t, exec (.timerTick n) s = .next t ∧
      t.reg (aTMR_COUNT n) = (if s.wraps n then 0 else s.reg (aTMR_COUNT n) + 1) ∧
      (s.wraps n = true → t.rb (aTMR_STAT n) 4 = true) ∧
      (s.wraps n = true → s.rb (aTMR_CTL n) 20 = true → Irq.timer n (s.tmrPeat n) ∈ t.irqs) ∧
      RegsBut [aTMR_COUNT n, aTMR_STAT n, aTMR_CAPLO n, aTMR_CAPHI n] s t := by
  obtain ⟨hcount, hwrap, hirq, -, -, hregs⟩ := tick_noRoutes hn hroutes
  exact ⟨_, congrArg done (if_pos ⟨tmrRuns_of hn hres hen, hsel⟩), hcount, hwrap, hirq, hregs⟩

theorem timerStep_counts (hsel : s.rb (aTMR_CTL n) 30 = true) (hroutes : NoRoutes s) (hstep : tget s.steps n 0 ≠ 0) :
    ∃ t, exec (.timerStep n) s = .next t ∧
      t.reg (aTMR_COUNT n) = (if s.wraps n then 0 else s.reg (aTMR_COUNT n) + 1) ∧
      (s.wraps n = true → t.rb (aTMR_STAT n) 4 = true) ∧
      (s.wraps n = true → s.rb (aTMR_CTL n) 20 = true → Irq.timer n (s.tmrPeat n) ∈ t.irqs) ∧
      tget t.steps n 0 = tget s.steps n 0 - 1 ∧ RegsBut [aTMR_COUNT n, aTMR_STAT n, aTMR_CAPLO n, aTMR_CAPHI n] s t := by
  obtain ⟨x, hx, hticks⟩ := timerStep_ticks (tmrRuns_of hn hres hen) hsel hstep
  obtain ⟨hcount, hwrap, hirq, -, hsteps, hregs⟩ := tick_noRoutes (s := { s with steps := x }) hn hroutes
  exact ⟨_, congrArg done hticks, hcount, hwrap, hirq, by rw [hsteps]; exact hx, hregs⟩

theorem timerWrap_wraps (hstep : s.rb (aTMR_CTL n) 30 = true → tget s.steps n 0 ≠ 0) (hroutes : NoRoutes s)
    (hw : s.wraps n = true) :
    ∃ t, exec (.timerWrap n) s = .next t ∧ t.reg (aTMR_COUNT n) = 0 ∧ t.rb (aTMR_STAT n) 4 = true ∧
      (s.wraps n = true → s.rb (aTMR_CTL n) 20 = true → Irq.timer n (s.tmrPeat n) ∈ t.irqs) ∧
      RegsBut [aTMR_COUNT n, aTMR_STAT n, aTMR_CAPLO n, aTMR_CAPHI n] s t := by
  obtain ⟨x, hticks⟩ := nextTick_ticks (tmrRuns_of hn hres hen) hstep
  obtain ⟨hcount, hwrap, hirq, -, -, hregs⟩ := tick_noRoutes (s := { s with steps := x }) hn hroutes
  exact ⟨_, congrArg done ((if_pos ⟨tmrRuns_of hn hres hen, hw⟩).trans hticks), hcount.trans (if_pos hw), hwrap hw, hirq, hregs⟩

theorem compare_fires (hstep : s.rb (aTMR_CTL n) 30 = true → tget s.steps n 0 ≠ 0) (hroutes : NoRoutes s) {c : Nat} (hc : c < 4)
    (harmed : (s.tmrAdvance n).rb (aTMR_STAT n) (7 + c) = true)
    (hreached : ((s.tmrAdvance n).reg (aTMR_COUNT n) - (s.tmrAdvance n).reg (aTMR_CMP n c)).toNat < 2 ^ 31) :
    ∃ t, exec (.compare n c) s = .next t ∧ t.rb (aTMR_STAT n) c = true ∧ t.rb (aTMR_STAT n) (7 + c) = false ∧
      t.reg (aTMR_COUNT n) = (if s.wraps n then 0 else s.reg (aTMR_COUNT n) + 1) ∧
      RegsBut [aTMR_COUNT n, aTMR_STAT n, aTMR_CAPLO n, aTMR_CAPHI n] s t := by
  obtain ⟨x, hticks⟩ := nextTick_ticks (tmrRuns_of hn hres hen) hstep
  obtain ⟨hcount, -, -, hcmp, -, hregs⟩ := tick_noRoutes (s := { s with steps := x }) hn hroutes
  have hfired : ∀ l, c ∈ l → c ∈ (s.tmrAdvance n).reached n l := fun l hl =>
    List.mem_filter.2 ⟨hl, by rw [harmed, decide_eq_true hreached]; rfl⟩
  have hmem : c ∈ (({ s with steps := x } : State).tmrAdvance n).reached n [0, 1, 2, 3] := by
    rw [advance_steps]
    exact hfired [0, 1, 2, 3] (by simp; omega)
  obtain ⟨h1, h2⟩ := hcmp c hmem
  exact ⟨_, congrArg done ((if_pos ⟨tmrRuns_of hn hres hen, hc, List.ne_nil_of_mem (hfired [c] (by simp))⟩).trans hticks), h1, h2,
    hcount, hregs⟩

end

/-! ### A route of a timer's WRAP -/

/-- The route r is the one that is enabled; it names the WRAP of timer n and the action `act` on target k. -/
structure OneRoute (s : State) (n r act k : Nat) : Prop where
  lt : r < 16
  enabled : bit (s.reg (aTMR_ROUTE r)) 31 = true
  source : fld (s.reg (aTMR_ROUTE r)) 27 24 = n
  event : fld (s.reg (aTMR_ROUTE r)) 22 20 = 4
  action : fld (s.reg (aTMR_ROUTE r)) 17 16 = act
  target : fld (s.reg (aTMR_ROUTE r)) 3 0 = k
  allowed : s.routeRefused r = false
  others : ∀ i : Nat, i < 16 → i = r ∨ s.rb (aTMR_ROUTE i) 31 = false

theorem OneRoute.congr {s t : State} {n r act k : Nat} (h : OneRoute s n r act k)
    (hregs : ∀ i < 16, t.reg (aTMR_ROUTE i) = s.reg (aTMR_ROUTE i)) (hpeat : t.reg aTMR_PEATMASK = s.reg aTMR_PEATMASK)
    (hown : t.reg aQUE_MVOWN = s.reg aQUE_MVOWN) : OneRoute t n r act k := by
  have hr := hregs r h.lt
  refine ⟨h.lt, hr ▸ h.enabled, hr ▸ h.source, hr ▸ h.event, hr ▸ h.action, hr ▸ h.target, ?_, fun i hi => ?_⟩
  · rw [← h.allowed]
    unfold State.routeRefused State.tmrPeat State.rb
    rw [hr, hpeat, hown]
  · exact (h.others i hi).imp_right fun ho => (congrArg (bit · 31) (hregs i hi)).trans ho

/-- A wrapping tick leaves its route to act on the state that its events leave. -/
theorem tmrTick_oneRoute {s : State} {n r act k : Nat} (hn : n < 16) (hw : s.wraps n = true) (h : OneRoute s n r act k)
    (hact : act ≠ 0) (hkey : (act, k) ∉ (s.routeCycle n).routed.2.2) :
    ∃ (v : State) (l : List Nat), (∀ i ∈ l, i < 16 ∧ i ≠ r) ∧ OneRoute v n r act k ∧ v.regs = (ticking s n).regs ∧
      v.steps = s.steps ∧ v.mover = s.mover ∧ s.tmrTick n = (v.routeActs r).routes n (tickEvents s n) l := by
  have ht := (ticking_frame s hn).1
  have hmem : 4 ∈ tickEvents s n := by unfold tickEvents; rw [hw]; simp
  rw [tmrTick_eq]
  generalize ticking s n = u at *
  have hkept : OneRoute u n r act k := h.congr (fun i hi => ht.regs _ (route_kept hi).1 (route_kept hi (n := n)).2)
    (ht.regs _ (below_tickRegs (by decide))
      (by unfold Counted aTMR_PEATMASK; omega))
    (ht.regs _ (below_tickRegs (by decide))
      (by unfold Counted aQUE_MVOWN; omega))
  have hcycle : (u.routeCycle n).routed = (s.routeCycle n).routed := by
    rw [ht.only]; rfl
  have hv : OneRoute (u.routeCycle n) n r act k := hkept.congr (fun _ _ => rfl) rfl rfl
  obtain ⟨x, l, hl, hroutes⟩ := routes_single (events := tickEvents s n) hv.lt hv.enabled hv.source (hv.event ▸ hmem)
    (hv.action ▸ hact) hv.allowed hv.others (by rw [hv.action, hv.target, hcycle]; exact hkey)
  exact ⟨{ u with routed := x }, l, hl, hkept.congr (fun _ _ => rfl) rfl rfl, rfl, by rw [ht.only], by rw [ht.only], hroutes⟩

/-- Routes that stay off after the action of the one that is on. -/
theorem routes_after {s t : State} {n r act k : Nat} (h : OneRoute s n r act k)
    (hregs : ∀ i < 16, t.reg (aTMR_ROUTE i) = s.reg (aTMR_ROUTE i)) {events l : List Nat} (hl : ∀ i ∈ l, i < 16 ∧ i ≠ r) :
    t.routes n events l = t := routes_off fun i hi =>
  (congrArg (bit · 31) (hregs i (hl i hi).1)).trans ((h.others i (hl i hi).1).resolve_left (hl i hi).2)

theorem routeActs_step {s : State} {n r k : Nat} (h : OneRoute s n r 3 k) (hsel : s.rb (aTMR_CTL k) 30 = true) :
    s.routeActs r = { s with steps := tput s.steps k (tget s.steps k 0 + 1) } := by
  unfold State.routeActs
  dsimp only
  rw [h.action, h.target]
  exact if_pos hsel

theorem routeActs_mover {s : State} {n r k : Nat} (h : OneRoute s n r 2 k) (hk : k < 8) (hidle : tfind s.mover k = none) :
    s.routeActs r = s.moverBegin k ((List.range 4).map fun w => s.reg (aQUE_MVDESC k w)) := by
  unfold State.routeActs
  dsimp only
  rw [h.action, h.target]
  refine (if_neg (by omega)).trans ((if_neg (by rw [hidle]; decide)).trans ?_)
  unfold moverGo
  rw [hidle]

theorem moverBegin_frame (s : State) (ch : Nat) (d : List Word) :
    ∃ armed, s.moverBegin ch d = ({ s with mover := tput s.mover ch ⟨d, armed, 0, cPending, false, false⟩ }).setReg
      (aQUE_MVSTAT ch) (w32 (cPending.toNat * 2 ^ 24 + 2 ^ 23)) := ⟨_, rfl⟩

section
variable {s : State} {n r k : Nat} (hn : n < 16) (hres : s.resumed = true) (hen : s.rb (aTMR_CTL n) 31 = true)
  (hsel : s.rb (aTMR_CTL n) 30 = false) (hw : s.wraps n = true)
include hn hres hen hsel hw

theorem wrap_steps (h : OneRoute s n r 3 k) (hk : k < 16) (hksel : s.rb (aTMR_CTL k) 30 = true)
    (hkey : (3, k) ∉ (s.routeCycle n).routed.2.2) :
    ∃ t, exec (.timerTick n) s = .next t ∧ t.reg (aTMR_COUNT n) = 0 ∧ t.rb (aTMR_STAT n) 4 = true ∧
      tget t.steps k 0 = tget s.steps k 0 + 1 ∧ RegsBut [aTMR_COUNT n, aTMR_STAT n, aTMR_CAPLO n, aTMR_CAPHI n] s t := by
  have hexec : exec (.timerTick n) s = .next (s.tmrTick n) := congrArg done (if_pos ⟨tmrRuns_of hn hres hen, hsel⟩)
  obtain ⟨ht, hcount, hwrap, -, -⟩ := ticking_frame s hn
  obtain ⟨v, l, hl, hroute, hvregs, hsteps, -, htick⟩ := tmrTick_oneRoute hn hw h (by omega) hkey
  have hregs := RegsBut.trans ht.regs (regsBut_of_regs hvregs (tickRegs n))
  have hvsel : v.rb (aTMR_CTL k) 30 = true := by
    rw [← hksel]
    exact congrArg (bit · 30) (hregs _ (by
      unfold tickRegs aTMR_CTL aTMR_COUNT aTMR_STAT aTMR_CAPLO aTMR_CAPHI; simp; omega) (by unfold Counted aTMR_CTL; omega))
  rw [routeActs_step hroute hvsel] at htick
  refine ⟨_, hexec.trans (congrArg _ (htick.trans (routes_after
    (t := { v with steps := tput v.steps k (tget v.steps k 0 + 1) }) hroute (fun _ _ => rfl) hl))), ?_, ?_, ?_, hregs⟩
  · exact (reg_congr hvregs _).trans (hcount.trans (if_pos hw))
  · exact (rb_congr hvregs _ _).trans (hwrap hw)
  · show tget (tput v.steps k (tget v.steps k 0 + 1)) k 0 = _
    rw [tget_tput_same, hsteps]

theorem wrap_moves (h : OneRoute s n r 2 k) (hk : k < 8) (hidle : tfind s.mover k = none)
    (hkey : (2, k) ∉ (s.routeCycle n).routed.2.2) :
    ∃ t, exec (.timerTick n) s = .next t ∧ t.reg (aTMR_COUNT n) = 0 ∧ t.rb (aTMR_STAT n) 4 = true ∧
      (tfind t.mover k).map (fun x => x.desc) = some ((List.range 4).map fun w => s.reg (aQUE_MVDESC k w)) ∧
      t.reg (aQUE_MVSTAT k) = w32 (cPending.toNat * 2 ^ 24 + 2 ^ 23) ∧
      RegsBut [aTMR_COUNT n, aTMR_STAT n, aTMR_CAPLO n, aTMR_CAPHI n, aQUE_MVSTAT k] s t := by
  have hexec : exec (.timerTick n) s = .next (s.tmrTick n) := congrArg done (if_pos ⟨tmrRuns_of hn hres hen, hsel⟩)
  obtain ⟨ht, hcount, hwrap, -, -⟩ := ticking_frame s hn
  obtain ⟨v, l, hl, hroute, hvregs, -, hmover, htick⟩ := tmrTick_oneRoute hn hw h (by omega) hkey
  have hregs := RegsBut.trans ht.regs (regsBut_of_regs hvregs (tickRegs n))
  have hdesc : ((List.range 4).map fun w => v.reg (aQUE_MVDESC k w)) = (List.range 4).map fun w => s.reg (aQUE_MVDESC k w) :=
    List.map_congr_left fun w hw4 => by
      have := List.mem_range.1 hw4
      exact hregs _ (below_tickRegs (by unfold aQUE_MVDESC aTMR_CTL; omega)) (by unfold Counted aQUE_MVDESC; omega)
  obtain ⟨armed, hbegin⟩ := moverBegin_frame v k ((List.range 4).map fun w => s.reg (aQUE_MVDESC k w))
  rw [routeActs_mover hroute hk (by rw [hmover]; exact hidle), hdesc, hbegin] at htick
  have hne : ∀ i < 16, aTMR_ROUTE i ≠ aQUE_MVSTAT k := fun i hi => by unfold aTMR_ROUTE aQUE_MVSTAT; omega
  refine ⟨_, hexec.trans (congrArg _ (htick.trans (routes_after hroute
    (fun i hi => by exact reg_setReg_ne _ (hne i hi) _) hl))), ?_, ?_, ?_,
    reg_setReg_same .., ?_⟩
  · rw [reg_setReg_ne _ (by unfold aTMR_COUNT aQUE_MVSTAT; omega)]
    exact (reg_congr hvregs _).trans (hcount.trans (if_pos hw))
  · rw [State.rb, reg_setReg_ne _ (by unfold aTMR_STAT aQUE_MVSTAT; omega)]
    exact (rb_congr hvregs _ _).trans (hwrap hw)
  · rw [setReg_mover, tfind_tput_same]; rfl
  · exact RegsBut.trans (RegsBut.mono hregs (by simp +contextual)) (RegsBut.trans (regsBut_of_regs rfl _)
      (regsBut_setReg _ (by simp) _))

end

/-- Settles O43: ticks, steps, wraps and compares without routes, and a WRAP's route to a timer and to the mover. -/
theorem timerCounts : Obligations.TimerCounts := by
  unfold Obligations.TimerCounts
  refine ⟨?_, ?_, ?_, ?_, ?_, ?_⟩
  · exact fun s n hn hres hen hsel hroutes => timerTick_counts hn hres hen hsel hroutes
  · exact fun s n hn hres hen hsel hroutes hstep => timerStep_counts hn hres hen hsel hroutes hstep
  · exact fun s n hn hres hen hstep hroutes hw => timerWrap_wraps hn hres hen hstep hroutes hw
  · rintro s u n c hn hres hen hstep hroutes hc rfl harmed hreached
    exact compare_fires hn hres hen hstep hroutes hc harmed hreached
  · exact fun s n r k hn hres hen hsel hw hk _ hksel hr hon hsrc hev hact htgt hok hoff hkey =>
      wrap_steps hn hres hen hsel hw ⟨hr, hon, hsrc, hev, hact, htgt, hok, hoff⟩ hk hksel hkey
  · exact fun s n r k hn hres hen hsel hw hk hidle hr hon hsrc hev hact htgt hok hoff hkey =>
      wrap_moves hn hres hen hsel hw ⟨hr, hon, hsrc, hev, hact, htgt, hok, hoff⟩ hk hidle hkey

end Proofs
end Sys2Proof

/-! PROOFS. The mover's control (R408 to R410, log entry 14). -/
namespace Sys2Proof
namespace Proofs

open Sys2Proof.Machine Sys2Proof.Safety Sys2Proof.Laws

/-- A granted access changes the monitors' counts and no more. -/
def CountsOnly (s t : State) : Prop := t = { s with prfAcc := t.prfAcc }

theorem access_countsOnly (s : State) (m r : Master) (u : Bool) (a k : Nat) : CountsOnly s (s.access m r u a k) := by
  unfold CountsOnly State.access
  dsimp only
  split_ifs <;> rfl

theorem CountsOnly.view {β : Sort*} {s t : State} (h : CountsOnly s t) (f : State → β)
    (hf : ∀ (s : State) p, f { s with prfAcc := p } = f s) : f t = f s := by
  rw [h]; exact hf ..

theorem CountsOnly.regsBut {s t : State} (h : CountsOnly s t) (l : List Nat) : RegsBut l s t :=
  regsBut_of_regs (h.view (·.regs) fun _ _ => rfl) l

theorem CountsOnly.bytes {s t : State} (h : CountsOnly s t) : BytesKept s t :=
  bytesKept_of_eq (h.view (·.mem) fun _ _ => rfl) (h.view (·.flash) fun _ _ => rfl)

/-- What a granted write sees: the state with its access counted. -/
theorem owned_sees {s : State} {m : Master} {a : Nat} (hg : Grants s m a) (f : State → State) :
    ∃ u, CountsOnly s u ∧ s.owned m a f = f u := ⟨_, access_countsOnly .., owned_granted hg f⟩

/-! ### MOVER_GO -/

section
variable {s : State} {m : Master} {ch : Nat} (hch : ch < 8) (hg : Grants s m (aQUE_MVCTL ch))
include hch hg

theorem exec_moverGo : ∃ u, CountsOnly s u ∧ exec (.moverGo m ch) s = .next (moverGo ch u) := by
  obtain ⟨u, hu, hown⟩ := owned_sees hg (moverGo ch)
  exact ⟨u, hu, congrArg done ((if_pos hch).trans hown)⟩

theorem exec_moverStop : ∃ u, CountsOnly s u ∧ exec (.moverStop m ch) s = .next (moverStop ch u) := by
  obtain ⟨u, hu, hown⟩ := owned_sees hg (moverStop ch)
  exact ⟨u, hu, congrArg done ((if_pos hch).trans hown)⟩

theorem moverGo_begins (hidle : tfind s.mover ch = none) :
    ∃ t, exec (.moverGo m ch) s = .next t ∧
      tfind t.mover ch = some ⟨(List.range 4).map (fun w => s.reg (aQUE_MVDESC ch w)),
        mvWait ((List.range 4).map fun w => s.reg (aQUE_MVDESC ch w)) &&
          decide (mvLen ((List.range 4).map fun w => s.reg (aQUE_MVDESC ch w)) ≠ 0) &&
          (s.headPacket (s.mvPopLane (s.moverRights ch) (mvSrcq ((List.range 4).map fun w => s.reg (aQUE_MVDESC ch w))))).isNone,
        0, cPending, false, false⟩ ∧
      t.lanes = s.lanes ∧ t.reg (aQUE_MVSTAT ch) = w32 (cPending.toNat * 2 ^ 24 + 2 ^ 23) ∧
      RegsBut [aQUE_MVSTAT ch] s t ∧ BytesKept s t := by
  obtain ⟨u, hu, hexec⟩ := exec_moverGo hch hg
  have hmover : u.mover = s.mover := hu.view (·.mover) fun _ _ => rfl
  have hbegin : moverGo ch u = u.moverBegin ch ((List.range 4).map fun w => u.reg (aQUE_MVDESC ch w)) := by
    unfold moverGo; rw [hmover, hidle]
  refine ⟨_, hexec.trans (congrArg done hbegin), ?_, hu.view (·.lanes) fun _ _ => rfl, reg_setReg_same .., ?_, ?_⟩
  · rw [State.moverBegin, State.moverStat, setReg_mover, tfind_tput_same, hu.view
      (fun s => (⟨(List.range 4).map (fun w => s.reg (aQUE_MVDESC ch w)),
        mvWait ((List.range 4).map fun w => s.reg (aQUE_MVDESC ch w)) &&
          decide (mvLen ((List.range 4).map fun w => s.reg (aQUE_MVDESC ch w)) ≠ 0) &&
          (s.headPacket (s.mvPopLane (s.moverRights ch) (mvSrcq ((List.range 4).map fun w => s.reg (aQUE_MVDESC ch w))))).isNone,
        0, cPending, false, false⟩ : MoverRun)) fun _ _ => rfl]
  · exact RegsBut.trans (hu.regsBut _) (RegsBut.trans (regsBut_of_regs rfl _) (regsBut_setReg _ (by simp) _))
  · exact BytesKept.trans hu.bytes (bytesKept_of_eq rfl rfl)

theorem moverGo_busy {r : MoverRun} (hbusy : tfind s.mover ch = some r) :
    ∃ t, exec (.moverGo m ch) s = .next t ∧ t.mover = s.mover ∧ t.lanes = s.lanes ∧ RegsBut [] s t ∧ BytesKept s t := by
  obtain ⟨u, hu, hexec⟩ := exec_moverGo hch hg
  have hmover : u.mover = s.mover := hu.view (·.mover) fun _ _ => rfl
  have hstill : moverGo ch u = u := by unfold moverGo; rw [hmover, hbusy]
  exact ⟨u, hexec.trans (congrArg done hstill), hmover, hu.view (·.lanes) fun _ _ => rfl, hu.regsBut _, hu.bytes⟩

/-! ### MOVER_STOP -/

/-- A channel that has ended with a status and n bytes moved, before its event. -/
def moverIdle (s : State) (ch : Nat) (status : Byte) (n : Nat) : State :=
  ({ s with mover := tdel s.mover ch }).moverStat ch status false true n

end

theorem moverIdle_frame (s : State) (ch : Nat) (status : Byte) (n : Nat) :
    moverIdle s ch status n = { s with regs := (moverIdle s ch status n).regs, mover := tdel s.mover ch } ∧
      (moverIdle s ch status n).reg (aQUE_MVSTAT ch) = w32 (status.toNat * 2 ^ 24 + 2 ^ 22 + n % 2 ^ 20) ∧
      RegsBut [aQUE_MVSTAT ch] s (moverIdle s ch status n) := by
  refine ⟨rfl, (reg_setReg_same ..).trans ?_, RegsBut.trans (regsBut_of_regs rfl _) (regsBut_setReg _ (by simp) _)⟩
  show w32 (status.toNat * 2 ^ 24 + 0 * 2 ^ 23 + 1 * 2 ^ 22 + n % 2 ^ 20) = _
  rw [Nat.zero_mul, Nat.add_zero, Nat.one_mul]

theorem armed_starts {s : State} {ch : Nat} {r : MoverRun} (hr : tfind s.mover ch = some r) (harmed : r.armed = true)
    (hres : s.resumed = true) (hhead : (s.headPacket (s.mvPopLane (s.moverRights ch) (mvSrcq r.desc))).isSome = true) :
    ∃ t, exec (.armedDescriptorStart ch) s = .next t ∧ tfind t.mover ch = some { r with armed := false } ∧
      t.lanes = s.lanes ∧ t.regs = s.regs ∧ BytesKept s t := by
  have h : armedStart ch s = { s with mover := tput s.mover ch { r with armed := false } } := by
    unfold armedStart
    rw [hr]
    exact if_pos ⟨harmed, hres, hhead⟩
  exact ⟨_, congrArg done h, tfind_tput_same .., rfl, rfl, bytesKept_of_eq rfl rfl⟩

/-! ### The event of a channel that ends -/

theorem moverEnd_quiet {s : State} {ch : Nat} (status : Byte) (n : Nat) (hch : ch < 8) (hevt : s.rb (aQUE_MVCTL ch) 2 = false) :
    s.moverEnd ch status n = (moverIdle s ch status n).ended 0x10 status := by
  have h : (moverIdle s ch status n).rb (aQUE_MVCTL ch) 2 = false := by
    rw [State.rb, (moverIdle_frame s ch status n).2.2 _ (by unfold aQUE_MVCTL aQUE_MVSTAT; simp)
      (by unfold Counted aQUE_MVCTL; omega)]
    exact hevt
  show (moverIdle s ch status n).moverEvent ch status = _
  unfold State.moverEvent
  rw [h]; rfl

theorem moverEnd_evented {s : State} {ch : Nat} (status : Byte) (n : Nat) (hch : ch < 8) (hevt : s.rb (aQUE_MVCTL ch) 2 = true) :
    s.moverEnd ch status n =
      ((moverIdle s ch status n).ended 0x10 status).event [w32 (0x4D560000 + status.toNat * 0x100 + ch * 16)] := by
  have h : (moverIdle s ch status n).rb (aQUE_MVCTL ch) 2 = true := by
    rw [State.rb, (moverIdle_frame s ch status n).2.2 _ (by unfold aQUE_MVCTL aQUE_MVSTAT; simp)
      (by unfold Counted aQUE_MVCTL; omega)]
    exact hevt
  show (moverIdle s ch status n).moverEvent ch status = _
  unfold State.moverEvent
  rw [h]; rfl

/-- What the end of a channel leaves before its event. -/
theorem moverIdle_ended {s : State} {ch : Nat} (status : Byte) (n : Nat) (hch : ch < 8) :
    ∃ u, u = (moverIdle s ch status n).ended 0x10 status ∧
      u = { s with regs := u.regs, mover := tdel s.mover ch } ∧
      u.reg (aQUE_MVSTAT ch) = w32 (status.toNat * 2 ^ 24 + 2 ^ 22 + n % 2 ^ 20) ∧ RegsBut [aQUE_MVSTAT ch] s u := by
  obtain ⟨honly, hstat, hregs⟩ := moverIdle_frame s ch status n
  generalize moverIdle s ch status n = v at *
  have hend : RegsOnly v (v.ended 0x10 status) := regsOnly_ended ..
  refine ⟨_, rfl, ?_, ?_, RegsBut.trans hregs (regsBut_ended _ _ (by omega) _)⟩
  · rw [RegsOnly] at hend
    generalize v.ended 0x10 status = w at *
    rw [hend, honly]
  · rw [reg_ended v 0x10 status (by omega) (by unfold prfAddr aQUE_MVSTAT; omega), hstat]

theorem moverStop_runs {s : State} {ch : Nat} {r : MoverRun} (hr : tfind s.mover ch = some r) :
    moverStop ch s = s.moverEnd ch cAborted r.moved := by
  unfold moverStop; rw [hr]

section
variable {s : State} {m : Master} {ch : Nat} {r : MoverRun} (hch : ch < 8) (hg : Grants s m (aQUE_MVCTL ch))
  (hr : tfind s.mover ch = some r)
include hch hg hr

theorem moverStop_quiet (hevt : s.rb (aQUE_MVCTL ch) 2 = false) :
    ∃ t, exec (.moverStop m ch) s = .next t ∧ tfind t.mover ch = none ∧
      t.reg (aQUE_MVSTAT ch) = w32 (cAborted.toNat * 2 ^ 24 + 2 ^ 22 + r.moved % 2 ^ 20) ∧ t.lanes = s.lanes ∧
      RegsBut [aQUE_MVSTAT ch] s t ∧ BytesKept s t := by
  obtain ⟨u, hu, hexec⟩ := exec_moverStop hch hg
  have hmover : u.mover = s.mover := hu.view (·.mover) fun _ _ => rfl
  have hquiet := moverEnd_quiet cAborted r.moved hch ((hu.view (·.rb (aQUE_MVCTL ch) 2) fun _ _ => rfl).trans hevt)
  obtain ⟨v, hv, honly, hstat, hregs⟩ := moverIdle_ended (s := u) cAborted r.moved hch
  rw [← hv] at hquiet
  refine ⟨v, hexec.trans (congrArg done ((moverStop_runs ((congrArg (tfind · ch) hmover).trans hr)).trans hquiet)), ?_, hstat, ?_,
    RegsBut.trans (hu.regsBut _) hregs, BytesKept.trans hu.bytes (bytesKept_of_eq (by rw [honly]) (by rw [honly]))⟩
  · rw [honly]; exact tfind_tdel_same ..
  · rw [honly]; exact hu.view (·.lanes) fun _ _ => rfl

theorem moverStop_evented (hevt : s.rb (aQUE_MVCTL ch) 2 = true) (hwaits : s.laneWaits 2 = false) (hroom : 1 ≤ s.room 2)
    (hopen : s.openCount 2 < 8) :
    ∃ t, exec (.moverStop m ch) s = .next t ∧ tfind t.mover ch = none ∧
      t.reg (aQUE_MVSTAT ch) = w32 (cAborted.toNat * 2 ^ 24 + 2 ^ 22 + r.moved % 2 ^ 20) ∧
      ((t.lane 2).committed.getLast?).map packetWords = some [w32 (0x4D560000 + cAborted.toNat * 0x100 + ch * 16)] ∧
      RegsBut [aQUE_MVSTAT ch] s t ∧ BytesKept s t := by
  obtain ⟨u, hu, hexec⟩ := exec_moverStop hch hg
  have hmover : u.mover = s.mover := hu.view (·.mover) fun _ _ => rfl
  have hend := moverEnd_evented cAborted r.moved hch ((hu.view (·.rb (aQUE_MVCTL ch) 2) fun _ _ => rfl).trans hevt)
  obtain ⟨v, hv, honly, hstat, hregs⟩ := moverIdle_ended (s := u) cAborted r.moved hch
  rw [← hv] at hend
  have hword : [w32 (0x4D560000 + cAborted.toNat * 0x100 + ch * 16)] ≠ [] := by simp
  have hvregs : RegsBut [aQUE_MVSTAT ch] s v := RegsBut.trans (hu.regsBut _) hregs
  have hcommitted : Committed v (v.waitCommit 2 (wordsPacket 0 0xFF [w32 (0x4D560000 + cAborted.toNat * 0x100 + ch * 16)])) 2
      (wordsPacket 0 0xFF [w32 (0x4D560000 + cAborted.toNat * 0x100 + ch * 16)]) := by
    have hlanes : v.lanes = s.lanes := by rw [honly]; exact hu.view (·.lanes) fun _ _ => rfl
    have heng : v.eng = s.eng := by rw [honly]; exact hu.view (·.eng) fun _ _ => rfl
    refine waitCommit_room (by omega) ?_ ?_ ?_ ?_
    · unfold State.heldBack; simp
    · unfold State.laneWaits at *; rw [heng]; exact hwaits
    · rw [length_wordsPacket hword, room_congr (hvregs _ (by unfold aQUE_CFG aQUE_MVSTAT qOf; simp; omega)
        (by unfold Counted aQUE_CFG qOf; simp)) hlanes heng]
      exact hroom
    · unfold State.openCount State.lane at *; rw [hlanes, heng]; exact hopen
  refine ⟨_, hexec.trans (congrArg done ((moverStop_runs ((congrArg (tfind · ch) hmover).trans hr)).trans hend)), ?_, ?_, ?_, ?_, ?_⟩
  · rw [State.event, hcommitted.only, honly]; exact tfind_tdel_same ..
  · rw [State.event, hcommitted.regs _ (by simp) (by unfold Counted aQUE_MVSTAT; omega), hstat]
  · rw [State.event, hcommitted.newestWords, packetWords_wordsPacket hword]
  · exact RegsBut.trans hvregs (RegsBut.mono hcommitted.regs (by simp))
  · exact BytesKept.trans hu.bytes (BytesKept.trans (bytesKept_of_eq (by rw [honly]) (by rw [honly])) hcommitted.bytes)

end

/-- Settles O41: GO of an idle and of a busy channel, the start of an armed descriptor, and STOP without and with EVT. -/
theorem moverControl : Obligations.MoverControl :=
  ⟨fun _ _ _ hch hg hidle => moverGo_begins hch hg hidle, fun _ _ _ _ hch hg hbusy => moverGo_busy hch hg hbusy,
    fun _ _ _ hr harmed hres hhead => armed_starts hr harmed hres hhead,
    fun _ _ _ _ hch hg hr hevt => moverStop_quiet hch hg hr hevt,
    fun _ _ _ _ hch hg hr hevt hwaits hroom hopen => moverStop_evented hch hg hr hevt hwaits hroom hopen⟩

end Proofs
end Sys2Proof

/-! PROOFS. Pushes by a master (R395 to R401). -/
namespace Sys2Proof
namespace Proofs

open Sys2Proof.Machine Sys2Proof.Safety Sys2Proof.Laws

/-! ### A granted access to a queue's window -/

theorem window_sees {s : State} {m : Master} {w : Bool} {q lane off : Nat} (hg : GrantsWindow s m w q lane off)
    (f : State → State) : ∃ u, CountsOnly s u ∧ s.window m w q lane off f = f u := by
  obtain ⟨hup, hq, hlane, hj⟩ := hg
  refine ⟨s.access m (rightsOf m) false (windowAddr q lane off) (windowKind w off), access_countsOnly .., ?_⟩
  unfold State.window State.windowAs
  rw [if_pos ⟨hup, hq, hlane⟩, hj]

/-- The controller of the Causeway finds nothing to take in an empty Q8. -/
theorem pumpQ8_empty {s : State} (h : (s.lane 8).committed = []) : s.pumpQ8 = s := by
  have hhead : s.headPacket 8 = none := by
    unfold State.headPacket
    cases (s.lane 8).half with
    | some p => rfl
    | none => rw [h]; cases s.mailLane 8 <;> rfl
  unfold State.pumpQ8 State.drainQ8
  rw [hhead]
  split <;> rfl

theorem drainWaiting_none {s : State} (h : s.eng.waiting = []) : s.drainWaiting = s := by
  have : { s with eng := { s.eng with waiting := [] } } = s := by rw [← h]
  unfold State.drainWaiting
  rw [h, this]
  rfl

/-! ### The item of a push -/

/-- What a change of the lane's open packets and staged payloads leaves: everything else of the state, and of the lane its
packets, its SEQ and its half-read packet. -/
structure LaneOpen (s t : State) (n : Nat) : Prop where
  only : t = { s with lanes := t.lanes }
  committed : (t.lane n).committed = (s.lane n).committed
  seq : (t.lane n).seq = (s.lane n).seq
  others : ∀ k, k ≠ n → t.lane k = s.lane k

theorem LaneOpen.trans {s t u : State} {n : Nat} (h : LaneOpen s t n) (h' : LaneOpen t u n) : LaneOpen s u n :=
  ⟨by rw [h'.only, h.only], h'.committed.trans h.committed, h'.seq.trans h.seq, fun k hk => (h'.others k hk).trans (h.others k hk)⟩

theorem laneOpen_set (s : State) (n : Nat) (f : Tab Packet) (g : Tab Word) :
    LaneOpen s (s.setLane n { s.lane n with opens := f, staged := g }) n := by
  refine ⟨rfl, ?_, ?_, fun k hk => (lane_setLane s n k _).trans (if_neg hk)⟩ <;> rw [lane_setLane_same]

/-- The state in which the staged payload of writer w is taken. -/
def unstaged (s : State) (n w : Nat) : State := s.setLane n { s.lane n with staged := tdel (s.lane n).staged w }

theorem lane_unstaged (s : State) (n w : Nat) :
    (unstaged s n w).lane n = { s.lane n with staged := tdel (s.lane n).staged w } := lane_setLane_same ..

theorem laneOpen_unstaged (s : State) (n w : Nat) : LaneOpen s (unstaged s n w) n := laneOpen_set ..

theorem room_unstaged (s : State) (n w : Nat) : (unstaged s n w).room n = s.room n := by
  unfold State.room
  rw [lane_unstaged]
  rfl

theorem openCount_unstaged (s : State) (n w : Nat) : (unstaged s n w).openCount n = s.openCount n := by
  unfold State.openCount
  rw [lane_unstaged]
  rfl

/-- An item for which there is room goes behind those of the open packet. -/
theorem addItem_open {s : State} {n : Nat} (hroom : s.heldBack n < s.room n) (w : Nat) (peat : Bool) (p : Packet) {i : Item}
    (heop : bit i.tag 29 = false) :
    s.addItem n w peat p i = s.setLane n { s.lane n with opens := tput (s.lane n).opens w { p with items := p.items ++ [i] } } := by
  unfold State.addItem
  rw [decide_eq_false (show ¬ s.room n ≤ s.heldBack n by omega), heop]
  rfl

/-- With EOP it commits the packet, where no check of the lane's consumers refuses it. -/
theorem addItem_commits {s : State} {n : Nat} (hroom : s.heldBack n < s.room n) (w : Nat) (peat : Bool) {p : Packet} {i : Item}
    (heop : bit i.tag 29 = true) (hp : p.doomed = false) (hn : n ≠ 8 ∧ n ≠ 10 ∧ n ≠ 14 ∧ n ≠ 15) :
    Committed (s.setLane n (laneClose (s.lane n) w)) (s.addItem n w peat p i) n { p with items := p.items ++ [i] } := by
  obtain ⟨h8, h10, h14, h15⟩ := hn
  have hok : ∀ (u : State) (p : Packet), commitOk u n peat p = true := fun u p => by
    unfold commitOk
    dsimp only
    rw [if_neg h10, if_neg (by simp [h15, h14]), if_neg h8]
  unfold State.addItem
  rw [decide_eq_false (show ¬ s.room n ≤ s.heldBack n by omega), heop]
  show Committed _ (State.tryCommit (s.setLane n (laneClose (s.lane n) w)) n peat { p with items := p.items ++ [i] }) n _
  unfold State.tryCommit
  rw [if_pos ⟨hp, hok _ _⟩, jobAccepted_other h10 h15]
  exact committed_commit ..

theorem laneNo_not_checked {q lane : Nat} (h : q ∉ [8, 10, 14, 15]) :
    laneNo q lane ≠ 8 ∧ laneNo q lane ≠ 10 ∧ laneNo q lane ≠ 14 ∧ laneNo q lane ≠ 15 := by
  unfold laneNo
  simp at h
  split <;> omega

theorem qOf_laneNo {q lane : Nat} (hq : q < 16) : qOf (laneNo q lane) = q := by
  unfold qOf laneNo
  split <;> split <;> omega

/-! ### The tag of a push -/

theorem bit_takenTag (t : Word) {i : Nat} (h : (0x7BFF0000 : Word).getLsbD i = true) : bit (takenTag t) i = bit t i := by
  unfold takenTag bit
  rw [BitVec.getLsbD_and, h, Bool.and_true]

theorem fld_takenTag (t : Word) {hi lo : Nat} (h : ∀ j ≤ hi - lo, (0x7BFF0000 : Word).getLsbD (lo + j) = true) :
    fld (takenTag t) hi lo = fld t hi lo := by
  apply Nat.eq_of_testBit_eq
  intro j
  by_cases hj : j ≤ hi - lo
  · rw [← bit_eq_testBit_fld _ hj, ← bit_eq_testBit_fld _ hj, bit_takenTag t (h j hj)]
  · rw [fld, fld, Nat.testBit_mod_two_pow, Nat.testBit_mod_two_pow, decide_eq_false (by omega), Bool.false_and, Bool.false_and]

theorem sop_takenTag (t : Word) : bit (takenTag t) 30 = bit t 30 := bit_takenTag t (by decide)
theorem eop_takenTag (t : Word) : bit (takenTag t) 29 = bit t 29 := bit_takenTag t (by decide)

theorem prio_takenTag (t : Word) : fld (takenTag t) 28 27 = fld t 28 27 := fld_takenTag t (by decide)

theorem src_takenTag (t : Word) : fld (takenTag t) 23 16 = fld t 23 16 := fld_takenTag t (by decide)

/-! ### A push of an item -/

/-- The packet that a tag with SOP opens. -/
def openPacket (tag : Word) : Packet := ⟨[], 0, fld tag 28 27, fld tag 23 16, false, none, false, false, 0⟩

theorem pushItem_sop {s : State} {n w : Nat} (hnone : tfind (s.lane n).opens w = none) (hopen : s.openCount n < 8) (peat : Bool)
    {i : Item} (hsop : bit i.tag 30 = true) : s.pushItem n w peat i = s.addItem n w peat (openPacket i.tag) i := by
  have hrewind : s.rewindOpen n w = s := by unfold State.rewindOpen; rw [hnone]
  unfold State.pushItem
  dsimp only
  rw [if_pos hsop, hrewind, if_neg (by omega)]
  rfl

theorem pushItem_more {s : State} {n w : Nat} {p : Packet} (hp : tfind (s.lane n).opens w = some p) (peat : Bool) {i : Item}
    (hsop : bit i.tag 30 = false) (hprio : p.prio = fld i.tag 28 27) : s.pushItem n w peat i = s.addItem n w peat p i := by
  unfold State.pushItem
  dsimp only
  rw [if_neg (by rw [hsop]; decide), hp]
  exact if_neg (by rw [hprio]; exact fun h => h rfl)

theorem pushItem_rewinds {s : State} {n w : Nat} {p : Packet} (hp : tfind (s.lane n).opens w = some p) (peat : Bool) {i : Item}
    (hsop : bit i.tag 30 = false) (hprio : p.prio ≠ fld i.tag 28 27) : s.pushItem n w peat i = s.rewindOpen n w := by
  unfold State.pushItem
  dsimp only
  rw [if_neg (by rw [hsop]; decide), hp]
  exact if_pos hprio

theorem pushItem_alone {s : State} {n w : Nat} (hnone : tfind (s.lane n).opens w = none) (peat : Bool) {i : Item}
    (hsop : bit i.tag 30 = false) : s.pushItem n w peat i = s.pushErr n := by
  unfold State.pushItem
  dsimp only
  rw [if_neg (by rw [hsop]; decide), hnone]

theorem LaneOpen.committed8 {s t : State} {n : Nat} (h : LaneOpen s t n) : (t.lane 8).committed = (s.lane 8).committed := by
  by_cases h8 : 8 = n
  · rw [h8]; exact h.committed
  · rw [h.others 8 h8]

theorem LaneOpen.regsBut {s t : State} {n : Nat} (h : LaneOpen s t n) (l : List Nat) : RegsBut l s t :=
  regsBut_of_regs (by rw [h.only]) l

theorem LaneOpen.bytes {s t : State} {n : Nat} (h : LaneOpen s t n) : BytesKept s t :=
  bytesKept_of_eq (by rw [h.only]) (by rw [h.only])

/-- The lane of a push as it is seen. -/
theorem lane_countsOnly {s u : State} (hu : CountsOnly s u) (n : Nat) : u.lane n = s.lane n := hu.view (·.lane n) fun _ _ => rfl

/-- What a push of writer w into lane n begins with: the state with its counters moved and the staged payload taken. -/
structure PushBegins (s u : State) (n w : Nat) : Prop where
  lane : u.lane n = { s.lane n with staged := tdel (s.lane n).staged w }
  q8 : (u.lane 8).committed = (s.lane 8).committed
  waiting : u.eng.waiting = s.eng.waiting
  commits : u.commits = s.commits
  room : u.room n = s.room n
  heldBack : u.heldBack n = s.heldBack n
  openCount : u.openCount n = s.openCount n
  regs : u.regs = s.regs
  bytes : BytesKept s u

theorem pushBegins_unstaged {s u : State} (hu : CountsOnly s u) (n w : Nat) : PushBegins s (unstaged u n w) n w where
  lane := by rw [lane_unstaged, lane_countsOnly hu]
  q8 := (laneOpen_unstaged u n w).committed8.trans (congrArg Lane.committed (lane_countsOnly hu 8))
  waiting := hu.view (·.eng.waiting) fun _ _ => rfl
  commits := hu.view (·.commits) fun _ _ => rfl
  room := (room_unstaged u n w).trans (hu.view (·.room n) fun _ _ => rfl)
  heldBack := hu.view (·.heldBack n) fun _ _ => rfl
  openCount := (openCount_unstaged u n w).trans (hu.view (·.openCount n) fun _ _ => rfl)
  regs := hu.view (·.regs) fun _ _ => rfl
  bytes := BytesKept.trans hu.bytes (bytesKept_of_eq rfl rfl)

/-- The command's answer is what the push of its item leaves, where neither Q8 nor a waiting completion goes on. -/
def PushAnswers (s u : State) (n w : Nat) (i : Item) (c : Instr) : Prop :=
  PushBegins s u n w ∧ ∃ peat, ∀ v, u.pushItem n w peat i = v → (v.lane 8).committed = [] → v.eng.waiting = [] → exec c s = .next v

theorem pushTag_answers {s : State} {m : Master} {q lane : Nat} (hg : GrantsWindow s m true q lane 0x10) (tag : Word) :
    ∃ u, PushAnswers s u (laneNo q lane) (portNo m)
      ⟨takenTag tag, tget (s.lane (laneNo q lane)).staged (portNo m) 0, false⟩ (.pushTag m q lane tag) := by
  obtain ⟨u, hu, hown⟩ := window_sees hg (pushTag m (laneNo q lane) tag)
  refine ⟨_, pushBegins_unstaged hu _ _, (unstaged u (laneNo q lane) (portNo m)).pushAsPeat m (laneNo q lane) (portNo m) tag,
    fun v (hv : _ = v) hv8 hvw => congrArg done (hown.trans ?_)⟩
  rw [← lane_countsOnly hu] at hv
  exact (congrArg (fun s => s.pumpQ8.drainWaiting) hv).trans (by rw [pumpQ8_empty hv8, drainWaiting_none hvw])

theorem pushEmpty_answers {s : State} {m : Master} {q lane : Nat} (hg : GrantsWindow s m true q lane 0x18) {tag : Word}
    (hsop : bit tag 30 = true) (heop : bit tag 29 = true) :
    ∃ u, PushAnswers s u (laneNo q lane) (portNo m) ⟨takenTag tag, 0, true⟩ (.pushEmpty m q lane tag) := by
  obtain ⟨u, hu, hown⟩ := window_sees hg (pushEmpty m (laneNo q lane) tag)
  refine ⟨_, pushBegins_unstaged hu _ _, (unstaged u (laneNo q lane) (portNo m)).pushAsPeat m (laneNo q lane) (portNo m) tag,
    fun v (hv : _ = v) hv8 hvw => congrArg done ((hown.trans (if_pos ⟨hsop, heop⟩)).trans ?_)⟩
  exact (congrArg (fun s => s.pumpQ8.drainWaiting) hv).trans (by rw [pumpQ8_empty hv8, drainWaiting_none hvw])

theorem lanes_srb (s : State) (a i : Nat) (b : Bool) : (s.srb a i b).lanes = s.lanes := rfl
theorem waiting_srb (s : State) (a i : Nat) (b : Bool) : (s.srb a i b).eng.waiting = s.eng.waiting := rfl
theorem bytesKept_srb (s : State) (a i : Nat) (b : Bool) : BytesKept s (s.srb a i b) := bytesKept_of_eq rfl rfl

theorem pushErr_sets (s : State) (n : Nat) :
    ∃ t, s.pushErr n = t ∧ t.rb (aQUE_STAT (qOf n)) 31 = true ∧ t.lanes = s.lanes ∧ t.eng.waiting = s.eng.waiting ∧
      RegsBut [aQUE_STAT (qOf n)] s t ∧ BytesKept s t :=
  ⟨s.srb (aQUE_STAT (qOf n)) 31 true, rfl, rb_srb_same s _ (by decide) true, lanes_srb .., waiting_srb ..,
    regsBut_srb s (by simp) 31 true, bytesKept_srb s _ _ _⟩

/-- A rewound packet is counted by its queue alone. -/
theorem drop_counts (s : State) {n : Nat} (hn : qOf n < 16) :
    ∃ t, s.drop n = t ∧ (RegsBut [aQUE_DROP (qOf n)] s t ∧
        t.rf (aQUE_DROP (qOf n)) 15 0 = (s.rf (aQUE_DROP (qOf n)) 15 0 + 1) % 65536) ∧
      t.lanes = s.lanes ∧ t.eng.waiting = s.eng.waiting ∧ BytesKept s t := by
  have hregs := regsBut_evt (s.bump (aQUE_DROP (qOf n)) 15 0 1) [] (b := 0x10) (by omega) 0x14 1
  have honly := regsOnly_evt (s.bump (aQUE_DROP (qOf n)) 15 0 1) 0x10 0x14 1
  refine ⟨_, rfl, ?_⟩
  unfold State.drop
  rw [RegsOnly] at honly
  generalize State.evt _ 0x10 0x14 1 = t at *
  refine ⟨⟨RegsBut.trans (regsBut_bump s (by simp) 15 0 1) (RegsBut.mono hregs (by simp)), ?_⟩, ?_, ?_, ?_⟩
  · rw [State.rf, hregs _ (by simp) (by unfold Counted aQUE_DROP; omega), reg_bump, if_pos rfl]
    exact fld_setFld_same _ (by omega) (by omega) _
  · rw [honly]; rfl
  · rw [honly]; rfl
  · rw [honly]; exact bytesKept_of_eq rfl rfl

/-! ### What the pushed item does -/

section
variable {s u : State} {n w : Nat} {i : Item} {c : Instr} (h : PushAnswers s u n w i c) (h8 : (s.lane 8).committed = [])
  (hwaits : s.eng.waiting = [])
include h h8 hwaits

/-- An item without EOP goes into the open packet p, which a tag with SOP opens. -/
theorem push_adds {p : Packet} (hroom : s.heldBack n < s.room n) (heop : bit i.tag 29 = false)
    (hpush : ∀ peat, u.pushItem n w peat i = u.addItem n w peat p i) :
    ∃ t, exec c s = .next t ∧ tfind (t.lane n).opens w = some { p with items := p.items ++ [i] } ∧
      (t.lane n).committed = (s.lane n).committed ∧ RegsBut [] s t ∧ BytesKept s t := by
  obtain ⟨hu, peat, hexec⟩ := h
  have hadd := (hpush peat).trans (addItem_open (by rw [hu.heldBack, hu.room]; exact hroom) w peat p heop)
  have hopened := laneOpen_set u n (tput (u.lane n).opens w { p with items := p.items ++ [i] }) (u.lane n).staged
  refine ⟨_, hexec _ hadd ?_ ?_, ?_, ?_, regsBut_of_regs hu.regs _, BytesKept.trans hu.bytes hopened.bytes⟩
  · exact hopened.committed8.trans (hu.q8.trans h8)
  · exact hu.waiting.trans hwaits
  · rw [lane_setLane_same, tfind_tput_same]
  · rw [hopened.committed, hu.lane]

/-- An item with EOP commits the open packet p, which then is gone from the open ones. -/
theorem push_commits {p : Packet} (hroom : s.heldBack n < s.room n) (heop : bit i.tag 29 = true) (hp : p.doomed = false)
    (hn : n ≠ 8 ∧ n ≠ 10 ∧ n ≠ 14 ∧ n ≠ 15) (hpush : ∀ peat, u.pushItem n w peat i = u.addItem n w peat p i) :
    ∃ t, exec c s = .next t ∧ tfind (t.lane n).opens w = none ∧
      (t.lane n).committed = (s.lane n).committed ++ [{ p with
        items := (p.items ++ ([i] : List Item)).map fun (i : Item) => { i with tag := setFld i.tag 15 0 (s.lane n).seq.toNat },
        seq := (s.lane n).seq, no := s.commits }] ∧
      (t.lane n).seq = (s.lane n).seq + 1 ∧ RegsBut [] s t ∧ BytesKept s t := by
  obtain ⟨hu, peat, hexec⟩ := h
  have hcommit := addItem_commits (s := u) (by rw [hu.heldBack, hu.room]; exact hroom) w peat heop hp hn
  have hclosed := laneOpen_set u n (tdel (u.lane n).opens w) (u.lane n).staged
  refine ⟨_, hexec _ (hpush peat) ?_ ?_, ?_, ?_, ?_, RegsBut.trans (regsBut_of_regs hu.regs _) hcommit.regs,
    BytesKept.trans hu.bytes (BytesKept.trans hclosed.bytes hcommit.bytes)⟩
  · rw [hcommit.lane_ne (Ne.symm hn.1)]; exact hclosed.committed8.trans (hu.q8.trans h8)
  · rw [hcommit.only]; exact hu.waiting.trans hwaits
  · rw [hcommit.lane, lane_setLane_same]; exact tfind_tdel_same ..
  · rw [hcommit.lane]
    unfold stamped
    rw [lane_setLane_same, laneClose, hu.lane]
    exact congrArg (fun k => _ ++ [Packet.mk _ _ _ _ _ _ _ _ k]) hu.commits
  · rw [hcommit.lane, lane_setLane_same, laneClose, hu.lane]

/-- A tag that does not fit the open packet rewinds it. -/
theorem push_rewinds {p : Packet} (hq : qOf n < 16) (hp : tfind (s.lane n).opens w = some p)
    (hpush : ∀ peat, u.pushItem n w peat i = u.rewindOpen n w) :
    ∃ t, exec c s = .next t ∧ tfind (t.lane n).opens w = none ∧ (t.lane n).committed = (s.lane n).committed ∧
      t.rf (aQUE_DROP (qOf n)) 15 0 = (s.rf (aQUE_DROP (qOf n)) 15 0 + 1) % 65536 ∧
      RegsBut [aQUE_DROP (qOf n)] s t ∧ BytesKept s t := by
  obtain ⟨hu, peat, hexec⟩ := h
  have hrewind : u.rewindOpen n w = (u.setLane n (laneClose (u.lane n) w)).drop n := by
    unfold State.rewindOpen
    rw [hu.lane, hp]
  obtain ⟨v, hv, hreg, hlanes, hwait, hbytes⟩ := drop_counts (u.setLane n (laneClose (u.lane n) w)) hq
  have hclosed : LaneOpen u (u.setLane n (laneClose (u.lane n) w)) n := laneOpen_set u n (tdel (u.lane n).opens w) (u.lane n).staged
  have hlane : v.lane n = laneClose (u.lane n) w := (congrArg (tget · n laneNil) hlanes).trans (lane_setLane_same ..)
  refine ⟨v, hexec _ ((hpush peat).trans (hrewind.trans hv)) ?_ ?_, ?_, ?_, ?_,
    RegsBut.trans (regsBut_of_regs hu.regs _) hreg.1, BytesKept.trans hu.bytes (BytesKept.trans hclosed.bytes hbytes)⟩
  · exact (congrArg (fun l => (tget l 8 laneNil).committed) hlanes).trans (hclosed.committed8.trans (hu.q8.trans h8))
  · exact hwait.trans (hu.waiting.trans hwaits)
  · rw [hlane]; exact tfind_tdel_same ..
  · rw [hlane, laneClose, hu.lane]
  · rw [hreg.2]; exact congrArg (fun k => (k + 1) % 65536) (rf_congr hu.regs _ _ _)

/-- A tag that has no packet to go into only sets PUSH_ERR. -/
theorem push_errs (hpush : ∀ peat, u.pushItem n w peat i = u.pushErr n) :
    ∃ t, exec c s = .next t ∧ t.rb (aQUE_STAT (qOf n)) 31 = true ∧ (t.lane n).opens = (s.lane n).opens ∧
      (t.lane n).committed = (s.lane n).committed ∧ RegsBut [aQUE_STAT (qOf n)] s t ∧ BytesKept s t := by
  obtain ⟨hu, peat, hexec⟩ := h
  obtain ⟨v, hv, hbit, hlanes, hwait, hregs, hbytes⟩ := pushErr_sets u n
  have hlane (k : Nat) : v.lane k = u.lane k := congrArg (tget · k laneNil) hlanes
  refine ⟨v, hexec v ((hpush peat).trans hv) ?_ (hwait.trans (hu.waiting.trans hwaits)), hbit, ?_, ?_,
    RegsBut.trans (regsBut_of_regs hu.regs _) hregs, BytesKept.trans hu.bytes hbytes⟩
  · rw [hlane]; exact hu.q8.trans h8
  · rw [hlane, hu.lane]
  · rw [hlane, hu.lane]

end

theorem pushData_stages {s : State} {m : Master} {q lane : Nat} {v : Word} (hg : GrantsWindow s m true q lane 0x14) :
    ∃ t, exec (.pushData m q lane v) s = .next t ∧ tget (t.lane (laneNo q lane)).staged (portNo m) 0 = v ∧
      (t.lane (laneNo q lane)).committed = (s.lane (laneNo q lane)).committed ∧
      (t.lane (laneNo q lane)).opens = (s.lane (laneNo q lane)).opens ∧ RegsBut [] s t ∧ BytesKept s t := by
  obtain ⟨u, hu, hown⟩ := window_sees hg (pushData m (laneNo q lane) v)
  have hlane := lane_countsOnly hu (laneNo q lane)
  have hnew : (pushData m (laneNo q lane) v u).lane (laneNo q lane) =
      { u.lane (laneNo q lane) with staged := tput (u.lane (laneNo q lane)).staged (portNo m) v } := lane_setLane_same ..
  refine ⟨_, congrArg done hown, ?_, ?_, ?_, RegsBut.trans (hu.regsBut _) (regsBut_of_regs rfl _),
    BytesKept.trans hu.bytes (bytesKept_of_eq rfl rfl)⟩
  · rw [hnew]; exact tget_tput_same ..
  · rw [hnew, hlane]
  · rw [hnew, hlane]

theorem PushBegins.opens {s u : State} {n w : Nat} (hu : PushBegins s u n w) :
    tfind (u.lane n).opens w = tfind (s.lane n).opens w := by rw [hu.lane]

/-- A tag with SOP of a writer that has no open packet goes into a new one. -/
theorem PushAnswers.sop {s u : State} {n w : Nat} {i : Item} {c : Instr} (h : PushAnswers s u n w i c)
    (hnone : tfind (s.lane n).opens w = none) (hopen : s.openCount n < 8) (peat : Bool) (hsop : bit i.tag 30 = true) :
    u.pushItem n w peat i = u.addItem n w peat (openPacket i.tag) i :=
  pushItem_sop (h.1.opens.trans hnone) (by rw [h.1.openCount]; exact hopen) peat hsop

theorem pushEmpty_errs {s : State} {m : Master} {q lane : Nat} {tag : Word} (hg : GrantsWindow s m true q lane 0x18)
    (hboth : (bit tag 30 && bit tag 29) = false) :
    ∃ t, exec (.pushEmpty m q lane tag) s = .next t ∧ t.rb (aQUE_STAT (qOf (laneNo q lane))) 31 = true ∧
      t.lanes = s.lanes ∧ RegsBut [aQUE_STAT (qOf (laneNo q lane))] s t ∧ BytesKept s t := by
  obtain ⟨u, hu, hown⟩ := window_sees hg (pushEmpty m (laneNo q lane) tag)
  obtain ⟨v, hv, hbit, hlanes, -, hregs, hbytes⟩ := pushErr_sets u (laneNo q lane)
  refine ⟨v, congrArg done (hown.trans ((if_neg ?_).trans hv)), hbit, hlanes.trans (hu.view (·.lanes) fun _ _ => rfl),
    RegsBut.trans (hu.regsBut _) hregs, BytesKept.trans hu.bytes hbytes⟩
  rintro ⟨hsop, heop⟩
  rw [hsop, heop] at hboth
  exact absurd hboth (by decide)

/-- Settles O39: a push takes the staged payload, and its tag opens, extends, commits or rewinds a packet of its writer. -/
theorem queuePushes : Obligations.QueuePushes := by
  unfold Obligations.QueuePushes
  refine ⟨fun s m q lane v hg => pushData_stages hg, fun s m q lane tag hg hsop heop hnone hopen hroom h8 hw => ?opens,
    fun s m q lane tag hg hsop heop hnone hopen hroom h8 hw hq => ?commits,
    fun s m q lane tag hg hsop heop hnone hopen hroom h8 hw hq => ?commitsEmpty,
    fun s m q lane tag p hg hsop heop hp hprio hroom h8 hw => ?more,
    fun s m q lane tag p hg hsop heop hp hprio hdoomed hroom h8 hw hq => ?ends,
    fun s m q lane tag p hg hsop hp hprio h8 hw => ?rewinds, fun s m q lane tag hg hsop hnone h8 hw => ?alone,
    fun s m q lane tag hg hboth => pushEmpty_errs hg hboth⟩
  case opens =>
    obtain ⟨u, h⟩ := pushTag_answers hg tag
    have := push_adds h h8 hw hroom ((eop_takenTag tag).trans heop) fun peat => h.sop hnone hopen peat ((sop_takenTag tag).trans hsop)
    simpa only [openPacket, prio_takenTag, src_takenTag, List.nil_append] using this
  case commits =>
    obtain ⟨u, h⟩ := pushTag_answers hg tag
    obtain ⟨t, ht, -, hc, hrest⟩ := push_commits h h8 hw hroom ((eop_takenTag tag).trans heop) rfl (laneNo_not_checked hq)
      fun peat => h.sop hnone hopen peat ((sop_takenTag tag).trans hsop)
    exact ⟨t, ht, by simpa [openPacket, prio_takenTag, src_takenTag] using hc, hrest⟩
  case commitsEmpty =>
    obtain ⟨u, h⟩ := pushEmpty_answers hg hsop heop
    obtain ⟨t, ht, -, hc, hrest⟩ := push_commits h h8 hw hroom ((eop_takenTag tag).trans heop) rfl (laneNo_not_checked hq)
      fun peat => h.sop hnone hopen peat ((sop_takenTag tag).trans hsop)
    exact ⟨t, ht, by simpa [openPacket, prio_takenTag, src_takenTag] using hc, hrest⟩
  case more =>
    obtain ⟨u, h⟩ := pushTag_answers hg tag
    exact push_adds h h8 hw hroom ((eop_takenTag tag).trans heop) fun peat =>
      pushItem_more (h.1.opens.trans hp) peat ((sop_takenTag tag).trans hsop) (hprio.trans (prio_takenTag tag).symm)
  case ends =>
    obtain ⟨u, h⟩ := pushTag_answers hg tag
    obtain ⟨t, ht, hgone, hc, -, hrest⟩ := push_commits h h8 hw hroom ((eop_takenTag tag).trans heop) hdoomed (laneNo_not_checked hq)
      fun peat => pushItem_more (h.1.opens.trans hp) peat ((sop_takenTag tag).trans hsop) (hprio.trans (prio_takenTag tag).symm)
    exact ⟨t, ht, hgone, hc, hrest⟩
  case rewinds =>
    obtain ⟨u, h⟩ := pushTag_answers hg tag
    exact push_rewinds h h8 hw ((qOf_laneNo hg.2.1).symm ▸ hg.2.1) hp fun peat => pushItem_rewinds (h.1.opens.trans hp) peat ((sop_takenTag tag).trans hsop)
      (fun heq => hprio (heq.trans (prio_takenTag tag)))
  case alone =>
    obtain ⟨u, h⟩ := pushTag_answers hg tag
    exact push_errs h h8 hw fun peat => pushItem_alone (h.1.opens.trans hnone) peat ((sop_takenTag tag).trans hsop)

end Proofs
end Sys2Proof

/-! PROOFS. Pops, cancels and flushes (R397, R400, R401, R405, R411). -/
namespace Sys2Proof
namespace Proofs

open Sys2Proof.Machine Sys2Proof.Safety Sys2Proof.Laws

/-! ### Pops -/

section
variable {s : State} {m : Master} {q lane : Nat}

/-- The state of a granted pop: the master's own answer is laid out, and its access counted. -/
theorem pop_sees (hg : GrantsWindow s m false q lane 0) :
    ∃ u, CountsOnly (s.answer m 0) u ∧ exec (.pop m q lane) s = .next (popFor m q lane u) := by
  obtain ⟨hup, hq, hlane, hj⟩ := hg
  refine ⟨(s.answer m 0).access m (rightsOf m) false (windowAddr q lane 0) (windowKind false 0), access_countsOnly .., ?_⟩
  have hj' : (s.answer m 0).judgeWindow (rightsOf m) false q lane 0 = .granted := hj
  refine congrArg done ((if_pos ⟨hup, hq, hlane⟩).trans ?_)
  unfold State.popAs State.windowAs
  rw [hj']

theorem latched_setLatch (s : State) (m : Master) (a b : Nat) (v : Word) :
    (s.setLatch m a v).latched m b = if b = a then v else s.latched m b := by
  unfold State.latched State.setLatch
  rw [tget_tset _ _ _ _ _ _ (Or.inl rfl)]
  exact if_congr ⟨fun h => by unfold latchKey at h; omega, fun h => by rw [h]⟩ rfl rfl

/-- What a pop answers, with the words that it latches. -/
theorem popFor_answers {u v : State} {r : Popped} (hpop : u.popItem (laneNo q lane) = (r, v)) (hwaits : v.eng.waiting = []) :
    ∃ t, popFor m q lane u = t ∧ tfind t.readOut (portNo m) = some r.tag ∧ t.latched m (windowAddr q lane 4) = r.data ∧
      t.latched m (windowAddr q lane 8) = r.info ∧ t = { v with latch := t.latch, readOut := t.readOut } := by
  refine ⟨((v.setLatch m (windowAddr q lane 4) r.data).setLatch m (windowAddr q lane 8) r.info).answer m r.tag, ?_,
    tfind_tput_same .., ?_, (latched_setLatch (v.setLatch m (windowAddr q lane 4) r.data) m _ _ _).trans (if_pos rfl), rfl⟩
  · unfold popFor
    rw [hpop]
    exact drainWaiting_none hwaits
  · refine (latched_setLatch (v.setLatch m (windowAddr q lane 4) r.data) m _ _ _).trans ?_
    rw [if_neg (by unfold windowAddr; omega), latched_setLatch, if_pos rfl]

theorem popOf_more {s : State} {n : Nat} {p : Packet} {i : Item} (hi : p.items.head? = some i) (hmore : 1 < p.items.length)
    (hecc : p.ecc = none) :
    s.popOf n p = (⟨i.tag, i.data, if i.tagOnly then 1 else 0⟩,
      (s.setLane n { s.lane n with half := some { p with items := p.items.tail } }).evt 0x10 0x13 1) := by
  obtain ⟨items, seq, prio, src, doomed, ecc, bad, b, no⟩ := p
  obtain _ | ⟨j, _ | ⟨k, rest⟩⟩ := items
  · cases hi
  · exact absurd hmore (by simp)
  · obtain rfl : j = i := by simpa using hi
    obtain rfl : ecc = none := hecc
    rfl

theorem pop_takes (hg : GrantsWindow s m false q lane 0) {p : Packet} {i : Item} {r : List Packet}
    (hhalf : (s.lane (laneNo q lane)).half = none)
    (htake : takePacket (s.mailLane (laneNo q lane)) (s.lane (laneNo q lane)).committed = some (p, r))
    (hi : p.items.head? = some i) (hmore : 1 < p.items.length) (hecc : p.ecc = none) (hwaits : s.eng.waiting = []) :
    ∃ t, exec (.pop m q lane) s = .next t ∧ tfind t.readOut (portNo m) = some i.tag ∧
      t.latched m (windowAddr q lane 4) = i.data ∧
      t.latched m (windowAddr q lane 8) = (if i.tagOnly then 1 else 0) ∧
      (t.lane (laneNo q lane)).half = some { p with items := p.items.tail } ∧
      (t.lane (laneNo q lane)).committed = r ∧ RegsBut [] s t ∧ BytesKept s t := by
  obtain ⟨u, hu, hexec⟩ := pop_sees hg
  have hlane : u.lane (laneNo q lane) = s.lane (laneNo q lane) := hu.view (·.lane _) fun _ _ => rfl
  have hmail : u.mailLane (laneNo q lane) = s.mailLane (laneNo q lane) := hu.view (·.mailLane _) fun _ _ => rfl
  have hpop : u.popItem (laneNo q lane) =
      (u.setLane (laneNo q lane) { u.lane (laneNo q lane) with committed := r }).popOf (laneNo q lane) p := by
    unfold State.popItem
    rw [hlane]; dsimp only; rw [hhalf]; dsimp only; rw [hmail, htake]
  rw [popOf_more hi hmore hecc] at hpop
  generalize hw : (u.setLane (laneNo q lane) { u.lane (laneNo q lane) with committed := r }).setLane (laneNo q lane) _ = w at hpop
  have hcounted := regsOnly_evt w 0x10 0x13 1
  have hregs := regsBut_evt w [] (b := 0x10) (by omega) 0x13 1
  rw [RegsOnly] at hcounted
  generalize State.evt w 0x10 0x13 1 = v at *
  have hwait : v.eng.waiting = [] := by
    rw [hcounted, ← hw]; exact (hu.view (·.eng.waiting) fun _ _ => rfl).trans hwaits
  have hvlane : v.lane (laneNo q lane) = { s.lane (laneNo q lane) with committed := r, half := some { p with items := p.items.tail } } := by
    rw [hcounted]
    show w.lane _ = _
    rw [← hw, lane_setLane_same, lane_setLane_same, hlane]
  obtain ⟨t, ht, hread, hdata, hinfo, honly⟩ := popFor_answers (m := m) hpop hwait
  have htlane : t.lane (laneNo q lane) = v.lane (laneNo q lane) := by rw [honly]; rfl
  refine ⟨t, hexec.trans (congrArg done ht), hread, hdata, hinfo, congrArg Lane.half (htlane.trans hvlane),
    congrArg Lane.committed (htlane.trans hvlane), ?_, ?_⟩
  · refine RegsBut.trans (regsBut_of_regs ?_ _) (RegsBut.trans hregs (regsBut_of_regs (by rw [honly]) _))
    rw [← hw]; exact hu.view (·.regs) fun _ _ => rfl
  · refine BytesKept.trans hu.bytes (bytesKept_of_eq ?_ ?_)
    · rw [honly, hcounted, ← hw]; rfl
    · rw [honly, hcounted, ← hw]; rfl

theorem pop_empty (hg : GrantsWindow s m false q lane 0) (hhalf : (s.lane (laneNo q lane)).half = none)
    (hnone : (s.lane (laneNo q lane)).committed = []) (hwaits : s.eng.waiting = []) :
    ∃ t, exec (.pop m q lane) s = .next t ∧ tfind t.readOut (portNo m) = some 0x80000000 ∧
      t.latched m (windowAddr q lane 4) = 0 ∧ t.latched m (windowAddr q lane 8) = 0 ∧ t.lanes = s.lanes ∧
      RegsBut [] s t ∧ BytesKept s t := by
  obtain ⟨u, hu, hexec⟩ := pop_sees hg
  have hlane : u.lane (laneNo q lane) = s.lane (laneNo q lane) := hu.view (·.lane _) fun _ _ => rfl
  have hpop : u.popItem (laneNo q lane) = (popEmpty, u) := by
    unfold State.popItem
    rw [hlane]; dsimp only; rw [hhalf, hnone]
    cases u.mailLane (laneNo q lane) <;> rfl
  obtain ⟨t, ht, hread, hdata, hinfo, honly⟩ :=
    popFor_answers (m := m) hpop ((hu.view (·.eng.waiting) fun _ _ => rfl).trans hwaits)
  refine ⟨t, hexec.trans (congrArg done ht), hread, hdata, hinfo, ?_, regsBut_of_regs ?_ _,
    BytesKept.trans hu.bytes (bytesKept_of_eq ?_ ?_)⟩
  · rw [honly]; exact hu.view (·.lanes) fun _ _ => rfl
  · rw [honly]; exact hu.view (·.regs) fun _ _ => rfl
  · rw [honly]
  · rw [honly]

/-! ### Cancels -/

theorem rewindOpen_drops (s : State) {n w : Nat} {p : Packet} (hp : tfind (s.lane n).opens w = some p) :
    s.rewindOpen n w = (s.setLane n (laneClose (s.lane n) w)).drop n := by
  unfold State.rewindOpen
  rw [hp]

theorem cancel_closes (hg : GrantsWindow s m true q lane 0x1C) {p : Packet}
    (hp : tfind (s.lane (laneNo q lane)).opens (portNo m) = some p) (hwaits : s.eng.waiting = []) :
    ∃ t, exec (.cancel m q lane) s = .next t ∧ tfind (t.lane (laneNo q lane)).opens (portNo m) = none ∧
      (t.lane (laneNo q lane)).committed = (s.lane (laneNo q lane)).committed ∧
      t.rf (aQUE_DROP (qOf (laneNo q lane))) 15 0 = (s.rf (aQUE_DROP (qOf (laneNo q lane))) 15 0 + 1) % 65536 ∧
      RegsBut [aQUE_DROP (qOf (laneNo q lane))] s t ∧ BytesKept s t := by
  obtain ⟨u, hu, hown⟩ := window_sees hg fun s => (s.rewindOpen (laneNo q lane) (portNo m)).drainWaiting
  have hlane := lane_countsOnly hu (laneNo q lane)
  have hq : qOf (laneNo q lane) < 16 := (qOf_laneNo hg.2.1).symm ▸ hg.2.1
  obtain ⟨v, hv, ⟨hregs, hdrops⟩, hlanes, hwait, hbytes⟩ :=
    drop_counts (u.setLane (laneNo q lane) (laneClose (u.lane (laneNo q lane)) (portNo m))) hq
  have hvlane : v.lane (laneNo q lane) = laneClose (s.lane (laneNo q lane)) (portNo m) :=
    (congrArg (tget · (laneNo q lane) laneNil) hlanes).trans ((lane_setLane_same ..).trans (by rw [hlane]))
  have hvw : v.eng.waiting = [] := hwait.trans ((hu.view (·.eng.waiting) fun _ _ => rfl).trans hwaits)
  have hclosed : (u.rewindOpen (laneNo q lane) (portNo m)).drainWaiting = v := by
    rw [rewindOpen_drops u (by rw [hlane]; exact hp), hv, drainWaiting_none hvw]
  have hsame : u.regs = s.regs := hu.view (·.regs) fun _ _ => rfl
  refine ⟨v, congrArg done (hown.trans hclosed), ?_, ?_, hdrops.trans ?_, RegsBut.trans (regsBut_of_regs hsame _) hregs,
    BytesKept.trans hu.bytes (BytesKept.trans (bytesKept_of_eq rfl rfl) hbytes)⟩
  · rw [hvlane]; exact tfind_tdel_same ..
  · rw [hvlane]; rfl
  · exact congrArg (fun k => (k + 1) % 65536) (rf_congr hsame _ _ _)

end

/-! ### Flushes -/

/-- An emptied lane, whose SEQ goes on. -/
def emptied (l : Lane) : Lane := { laneNil with seq := l.seq }

theorem emptied_emptied (l : Lane) : emptied (emptied l) = emptied l := rfl

/-- What a flush of queues changes. -/
def FlushesOnly (s t : State) : Prop := t = { s with regs := t.regs, lanes := t.lanes }

theorem FlushesOnly.trans {s t u : State} (h : FlushesOnly s t) (h' : FlushesOnly t u) : FlushesOnly s u := by
  unfold FlushesOnly at *
  rw [h', h]

/-- The lanes of a queue are those that its flush empties. -/
def laneIn (q n : Nat) : Prop := n = q ∨ (14 ≤ q ∧ n = 16 + q)

theorem flushQueue_empties (s : State) (q : Nat) :
    ∃ t, s.flushQueue q = t ∧ FlushesOnly s t ∧ (q ≠ 10 → t.regs = s.regs) ∧ (∀ n, laneIn q n → t.lane n = emptied (s.lane n)) ∧
      ∀ n, ¬ laneIn q n → t.lane n = s.lane n := by
  obtain ⟨u, hu, honly, hregs⟩ : ∃ u, s.onlyIf (decide (q = 10)) (fun s =>
      s.each (s.lane 10).committed fun s p => s.srf (aCHN_STATUS p.src) 20 16 (s.chJobs p.src - 1)) = u ∧
      RegsOnly s u ∧ (q ≠ 10 → u.regs = s.regs) := by
    by_cases hq : q = 10
    · refine ⟨_, rfl, ?_, fun h => absurd hq h⟩
      rw [State.onlyIf, if_pos (decide_eq_true hq)]
      exact regsOnly_each (fun s p => regsOnly_setReg s _ _) _ s
    · exact ⟨s, if_neg (by simp [hq]), rfl, fun _ => rfl⟩
  have hlane (n : Nat) : u.lane n = s.lane n := by rw [honly]; rfl
  have hflush : s.flushQueue q = (u.flushLane q).onlyIf (decide (14 ≤ q)) fun s => s.flushLane (16 + q) := by
    unfold State.flushQueue; rw [hu]
  rw [hflush]
  by_cases h14 : 14 ≤ q
  · refine ⟨_, if_pos (decide_eq_true h14), ?_, hregs, fun n hn => ?_, fun n hn => ?_⟩
    · show _ = _; rw [honly]; rfl
    · unfold State.flushLane
      rw [lane_setLane, lane_setLane, lane_setLane, hlane, hlane]
      rcases hn with rfl | ⟨-, rfl⟩
      · rw [if_neg (by omega), if_pos rfl]; rfl
      · rw [if_pos rfl, if_neg (by omega)]; rfl
    · unfold laneIn at hn
      exact (lane_setLane (u.flushLane q) (16 + q) n _).trans ((if_neg (by omega)).trans
        ((lane_setLane u q n _).trans ((if_neg (by omega)).trans (hlane n))))
  · refine ⟨_, if_neg (by simp [h14]), ?_, hregs, fun n hn => ?_, fun n hn => ?_⟩
    · show _ = _; rw [honly]; rfl
    · unfold laneIn at hn
      unfold State.flushLane
      rw [lane_setLane, if_pos (by omega), ← hlane, show n = q by omega]; rfl
    · unfold laneIn at hn
      exact (lane_setLane u q n _).trans ((if_neg (by omega)).trans (hlane n))

/-- The queues of a mask, flushed. -/
def flushed (l : List Nat) (s : State) : State := s.each l fun s q => s.flushQueue q

theorem flushed_only (l : List Nat) : ∀ s : State, FlushesOnly s (flushed l s) := by
  induction l with
  | nil => exact fun _ => rfl
  | cons q l ih =>
    intro s
    obtain ⟨t, ht, honly, -⟩ := flushQueue_empties s q
    exact FlushesOnly.trans (ht ▸ honly) (ih (s.flushQueue q))

theorem flushed_regs {l : List Nat} (h : 10 ∉ l) : ∀ s : State, (flushed l s).regs = s.regs := by
  induction l with
  | nil => exact fun _ => rfl
  | cons q l ih =>
    intro s
    obtain ⟨t, ht, -, hregs, -⟩ := flushQueue_empties s q
    rw [List.mem_cons, not_or] at h
    exact (ih h.2 _).trans ((congrArg State.regs ht).trans (hregs (Ne.symm h.1)))

/-- Flushing empties every lane of its queues, and a lane that is empty stays so. -/
theorem flushed_lane {q n : Nat} (hn : laneIn q n) (l : List Nat) : ∀ s : State, (q ∈ l ∨ s.lane n = emptied (s.lane n)) →
    (flushed l s).lane n = emptied (s.lane n) := by
  induction l with
  | nil => exact fun s h => h.resolve_left (by simp)
  | cons q' l ih =>
    intro s h
    obtain ⟨t, ht, -, -, hin, hout⟩ := flushQueue_empties s q'
    have hstep : t.lane n = s.lane n ∨ t.lane n = emptied (s.lane n) := by
      by_cases hq' : laneIn q' n
      · exact Or.inr (hin n hq')
      · exact Or.inl (hout n hq')
    show (flushed l (s.flushQueue q')).lane n = _
    rw [ht]
    have hkeep : emptied (t.lane n) = emptied (s.lane n) := by
      rcases hstep with h | h <;> rw [h]; rfl
    rw [ih t ?_, hkeep]
    by_cases hq : q = q'
    · exact Or.inr (by rw [hin n (hq ▸ hn)]; rfl)
    · rcases h with h | h
      · exact Or.inl ((List.mem_cons.1 h).resolve_left hq)
      · refine Or.inr ?_
        rw [hkeep]
        exact hstep.elim (fun h' => h'.trans h) id

/-- What follows the flushes, where no completion waits and no island record is kept. -/
def flushEnds (v : State) : State := { v with envm := { v.envm with logOverrun := false } }

theorem mvTouches_countsOnly {s u : State} (hu : CountsOnly s u) (mask : Nat) : u.mvTouches mask = s.mvTouches mask :=
  hu.view (·.mvTouches mask) fun _ _ => rfl

/-- A flush that meets no AES job: its queues, then the mover channels that it stops. -/
theorem flushMask_eq {s v : State} {mask : Nat} (haes : testBit mask 12 = false ∨ s.eng.aes = none)
    (hv : (flushed (bitsOf 16 mask) s).each (s.mover.filter (s.mvTouches mask)) (fun v x => v.mvFlushed s mask x) = v)
    (heng : v.eng = s.eng) (hwaits : s.eng.waiting = []) (hlog : v.envm.islandLog = []) :
    flushMask mask s = flushEnds v := by
  have hstream : (v.onlyIf (testBit mask 12) fun s => match s.eng.aes with
      | some r => s.onlyIf (decide (r.dest = .queue 12 ∧ 4096 < r.out.length)) fun s => s.endAes cAborted
      | none => s) = v := by
    rcases haes with h | h
    · rw [h]; rfl
    · cases testBit mask 12
      · rfl
      · have : v.eng.aes = none := by rw [heng, h]
        rw [State.onlyIf, if_pos rfl, this]
  rw [← hv] at hstream
  refine (congrArg (fun w : State => State.commitLog 17 w.drainWaiting) hstream).trans ?_
  rw [hv, drainWaiting_none (by rw [heng]; exact hwaits), State.commitLog, hlog]
  rfl

theorem mem_bitsOf {n mask q : Nat} (hq : q < n) (h : testBit mask q = true) : q ∈ bitsOf n mask :=
  List.mem_filter.2 ⟨List.mem_range.2 hq, h⟩

/-- Software flushes neither Q10 nor Q12 by its mask. -/
theorem not_mem_flushed (mask : Word) : 10 ∉ bitsOf 16 (fld mask 15 0 &&& 0x23FF) := by
  intro h
  have := (List.mem_filter.1 h).2
  rw [testBit, Nat.testBit_and] at this
  rw [show Nat.testBit 0x23FF 10 = false by decide, Bool.and_false] at this
  exact absurd this (by decide)

section
variable {s : State} {m : Master} {mask : Word}

theorem flush_sees (hg : Grants s m aQUE_FLUSH) :
    ∃ u, CountsOnly s u ∧ exec (.flush m mask) s = .next (flushMask (fld mask 15 0 &&& 0x23FF) u) := by
  obtain ⟨u, hu, hown⟩ := owned_sees hg (flushMask (fld mask 15 0 &&& 0x23FF))
  exact ⟨u, hu, congrArg done hown⟩

theorem pflush_sees (hg : Grants s m aQUE_PFLUSH) :
    ∃ u, CountsOnly s u ∧ exec (.pflush m mask) s = .next (flushMask (fld mask 15 0) u) := by
  obtain ⟨u, hu, hown⟩ := owned_sees hg (flushMask (fld mask 15 0))
  exact ⟨u, hu, congrArg done hown⟩

end

/-- A flush beside which no mover channel works on its queues. -/
theorem flushMask_alone {s : State} {mask : Nat} (haes : testBit mask 12 = false ∨ s.eng.aes = none)
    (hwaits : s.eng.waiting = []) (hlog : s.envm.islandLog = []) (hmover : s.mover.any (s.mvTouches mask) = false) :
    flushMask mask s = flushEnds (flushed (bitsOf 16 mask) s) := by
  have honly := flushed_only (bitsOf 16 mask) s
  have hnone : s.mover.filter (s.mvTouches mask) = [] := by
    rw [List.filter_eq_nil_iff]
    intro x hx h
    exact absurd (List.any_eq_true.2 ⟨x, hx, h⟩) (by rw [hmover]; decide)
  refine flushMask_eq haes (by rw [hnone]; rfl) ?_ hwaits ?_
  · rw [honly]
  · rw [honly]; exact hlog

/-- The one mover channel that pushes into a flushed queue ends with ABORTED and no byte moved (R411, log entry 82). -/
theorem flushMask_stops {s : State} {mask : Word} {ch : Nat} {x : MoverRun} (hmover : s.mover = [(ch, x)]) (hch : ch < 8)
    (harmed : x.armed = false) (hheld : x.held = false) (hkind : mvKind x.desc = 2)
    (hbit : testBit (fld mask 15 0 &&& 0x23FF) (mvDstq x.desc) = true) (hevt : s.rb (aQUE_MVCTL ch) 2 = false)
    (hwaits : s.eng.waiting = []) (hlog : s.envm.islandLog = []) :
    ∃ t, flushMask (fld mask 15 0 &&& 0x23FF) s = t ∧ t.mover = [] ∧
      t.reg (aQUE_MVSTAT ch) = w32 (cAborted.toNat * 2 ^ 24 + 2 ^ 22) ∧ RegsBut [aQUE_MVSTAT ch] s t ∧ BytesKept s t := by
  have honly := flushed_only (bitsOf 16 (fld mask 15 0 &&& 0x23FF)) s
  have hregs := flushed_regs (not_mem_flushed mask) s
  have htouch : s.mvTouches (fld mask 15 0 &&& 0x23FF) (ch, x) = true := by
    unfold State.mvTouches
    dsimp only
    rw [harmed, hheld, hkind]
    exact hbit
  have hfilter : s.mover.filter (s.mvTouches (fld mask 15 0 &&& 0x23FF)) = [(ch, x)] := by
    rw [hmover, List.filter_cons_of_pos htouch]; rfl
  have hall (v : State) := flushMask_eq (s := s) (v := v) (mask := fld mask 15 0 &&& 0x23FF)
    (Or.inl (by rw [testBit, Nat.testBit_and, show Nat.testBit 0x23FF 12 = false by decide, Bool.and_false]))
  simp only [hfilter] at hall
  generalize flushed (bitsOf 16 (fld mask 15 0 &&& 0x23FF)) s = u at *
  have hstop : u.mvFlushed s (fld mask 15 0 &&& 0x23FF) (ch, x) = u.moverEnd ch cAborted 0 := by
    unfold State.mvFlushed
    dsimp only
    rw [hkind]
    rfl
  have hevt' : u.rb (aQUE_MVCTL ch) 2 = false := (rb_congr hregs _ _).trans hevt
  obtain ⟨v, hv, hvonly, hstat, hvregs⟩ := moverIdle_ended (s := u) cAborted 0 hch
  rw [moverEnd_quiet cAborted 0 hch hevt', ← hv] at hstop
  have heng : v.eng = s.eng := by rw [hvonly, honly]
  have hvlog : v.envm.islandLog = [] := by rw [hvonly, honly]; exact hlog
  refine ⟨_, hall v hstop heng hwaits hvlog, ?_, hstat, RegsBut.trans (regsBut_of_regs hregs _) (RegsBut.trans hvregs (regsBut_of_regs rfl _)),
    bytesKept_of_eq ?_ ?_⟩
  · show v.mover = []
    rw [hvonly, honly]
    show tdel s.mover ch = []
    rw [hmover]; simp [tdel]
  · show v.mem = _; rw [hvonly, honly]
  · show v.flash = _; rw [hvonly, honly]

/-- Settles O40: a pop takes the first item of what it finds, and a cancel or a flush empties what it names. -/
theorem queuePopsAndFlushes : Obligations.QueuePopsAndFlushes := by
  unfold Obligations.QueuePopsAndFlushes
  refine ⟨fun s m q lane p i r hg hhalf htake hi hmore hecc hw => pop_takes hg hhalf htake hi hmore hecc hw,
    fun s m q lane hg hhalf hnone hw => pop_empty hg hhalf hnone hw, fun s m q lane p hg hp hw => cancel_closes hg hp hw,
    fun s m mask q hg hw hlog hmover hq hbit => ?flush, fun s m mask q hg hw hlog haes hmover hq hbit => ?pflush,
    fun s m mask ch x hg hw hlog hch hmover harmed hheld hkind hbit hevt => ?stops⟩
  case flush =>
    obtain ⟨u, hu, hexec⟩ := flush_sees (mask := mask) hg
    have hflush := flushMask_alone (s := u) (mask := fld mask 15 0 &&& 0x23FF)
      (Or.inl (by rw [testBit, Nat.testBit_and, show Nat.testBit 0x23FF 12 = false by decide, Bool.and_false])) ((hu.view (·.eng.waiting) fun _ _ => rfl).trans hw)
      ((hu.view (·.envm.islandLog) fun _ _ => rfl).trans hlog)
      ((hu.view (fun s => s.mover.any (s.mvTouches _)) fun _ _ => rfl).trans hmover)
    have hregs := flushed_regs (not_mem_flushed mask) u
    have honly := flushed_only (bitsOf 16 (fld mask 15 0 &&& 0x23FF)) u
    have hlane := flushed_lane (Or.inl rfl) _ u (Or.inl (mem_bitsOf hq hbit))
    refine ⟨_, hexec.trans (congrArg done hflush), hlane.trans (congrArg emptied (lane_countsOnly hu q)), ?_, ?_⟩
    · exact RegsBut.trans (hu.regsBut _) (regsBut_of_regs hregs _)
    · refine BytesKept.trans hu.bytes (bytesKept_of_eq ?_ ?_)
      · show (flushed _ u).mem = _; rw [honly]
      · show (flushed _ u).flash = _; rw [honly]
  case pflush =>
    obtain ⟨u, hu, hexec⟩ := pflush_sees (mask := mask) hg
    have hflush := flushMask_alone (s := u) (mask := fld mask 15 0)
      (Or.inr ((hu.view (·.eng.aes) fun _ _ => rfl).trans haes)) ((hu.view (·.eng.waiting) fun _ _ => rfl).trans hw)
      ((hu.view (·.envm.islandLog) fun _ _ => rfl).trans hlog)
      ((hu.view (fun s => s.mover.any (s.mvTouches _)) fun _ _ => rfl).trans hmover)
    have honly := flushed_only (bitsOf 16 (fld mask 15 0)) u
    have hlane {n : Nat} (hn : laneIn q n) := flushed_lane hn _ u (Or.inl (mem_bitsOf hq hbit))
    refine ⟨_, hexec.trans (congrArg done hflush), (hlane (Or.inl rfl)).trans (congrArg emptied (lane_countsOnly hu q)),
      fun h14 => (hlane (Or.inr ⟨h14, rfl⟩)).trans (congrArg emptied (lane_countsOnly hu (16 + q))), ?_⟩
    refine BytesKept.trans hu.bytes (bytesKept_of_eq ?_ ?_)
    · show (flushed _ u).mem = _; rw [honly]
    · show (flushed _ u).flash = _; rw [honly]
  case stops =>
    obtain ⟨u, hu, hexec⟩ := flush_sees (mask := mask) hg
    obtain ⟨v, hv, hvm, hstat, hregs, hbytes⟩ :=
      flushMask_stops ((hu.view (·.mover) fun _ _ => rfl).trans hmover) hch harmed hheld hkind hbit
        ((hu.view (·.rb (aQUE_MVCTL ch) 2) fun _ _ => rfl).trans hevt) ((hu.view (·.eng.waiting) fun _ _ => rfl).trans hw)
        ((hu.view (·.envm.islandLog) fun _ _ => rfl).trans hlog)
    exact ⟨v, hexec.trans (congrArg done hv), hvm, hstat, RegsBut.trans (hu.regsBut _) hregs, BytesKept.trans hu.bytes hbytes⟩

end Proofs
end Sys2Proof

/-! PROOFS. The descriptors of the mover (R408 to R411). -/
namespace Sys2Proof
namespace Proofs

open Sys2Proof.Machine Sys2Proof.Safety Sys2Proof.Laws

/-! ### Bytes of memory and of packets -/

/-- What was written at an address reads back there. -/
theorem cellRead_cellWrite (d : Byte) (m : List Host.Cell) (a : Nat) (b : Bytes) :
    cellRead (cellWrite d m a b) d a b.length = b := by
  have hread (n : Nat) : ∀ (m : List Host.Cell) (x : Nat), cellRead m d x n = (List.range n).map fun k => cellGet m (x + k) d := by
    induction n with
    | zero => exact fun _ _ => rfl
    | succ n ih =>
      intro m x
      rw [cellRead, ih, List.range_succ_eq_map, List.map_cons, List.map_map]
      exact congrArg (_ :: ·) (List.map_congr_left fun k _ => congrArg (cellGet m · d) (by omega))
  rw [hread]
  apply List.ext_getElem
  · simp
  · intro i h1 h2
    rw [List.getElem_map, List.getElem_range, cellGet_cellWrite, if_pos (by omega), Nat.add_sub_cancel_left,
      List.getD_eq_getElem _ _ h2]

theorem bytes_mkTag (first eop : Bool) (prio bytes src : Nat) : fld (mkTag first eop prio bytes src) 25 24 = bytes % 4 := by
  unfold mkTag
  have h1 : b2n first ≤ 1 := by cases first <;> decide
  have h2 : b2n eop ≤ 1 := by cases eop <;> decide
  rw [fld_w32 (by omega)]
  omega

theorem packetBytes_stamped (s : State) (n : Nat) (p : Packet) : packetBytes (stamped s n p) = packetBytes p := by
  unfold packetBytes stamped
  rw [List.flatMap_map]
  refine List.flatMap_congr fun i _ => ?_
  unfold itemBytes
  dsimp only
  rw [fld_setFld_above _ (by omega) (by omega) (by omega)]

/-- An item of one to four bytes holds these. -/
theorem itemBytes_chunk (first eop : Bool) (prio src : Nat) {b : Bytes} (h0 : b.length ≠ 0) (h4 : b.length ≤ 4) :
    itemBytes ⟨mkTag first eop prio (b.length % 4) src, w32 (ofLE b), false⟩ = b := by
  have hv : (w32 (ofLE b)).toNat = ofLE b := by
    rw [w32, BitVec.toNat_ofNat]
    exact Nat.mod_eq_of_lt ((ofLE_lt b).trans_le (Nat.pow_le_pow_right (by omega) (by omega : 8 * b.length ≤ 32)))
  unfold itemBytes
  dsimp only
  rw [if_neg (by decide), bytes_mkTag, hv]
  have hn : (if b.length % 4 % 4 = 0 then 4 else b.length % 4 % 4) = b.length := by split <;> omega
  rw [hn, take_toLE h4, toLE_ofLE]

/-- The payload bytes of the items of a byte string are that string. -/
theorem flatMap_mkItems (prio src : Nat) : ∀ (b : Bytes) (first : Bool), b ≠ [] →
    (mkItems first prio src (b.length % 4) (toWords b)).flatMap itemBytes = b
  | [], _, h => absurd rfl h
  | [x], first, _ => by
    have := itemBytes_chunk first true prio src (b := [x]) (by simp) (by simp)
    simpa [toWords, mkItems, ofLE] using this
  | [x, y], first, _ => by
    have := itemBytes_chunk first true prio src (b := [x, y]) (by simp) (by simp)
    simpa [toWords, mkItems, ofLE] using this
  | [x, y, z], first, _ => by
    have := itemBytes_chunk first true prio src (b := [x, y, z]) (by simp) (by simp)
    simpa [toWords, mkItems, ofLE, Nat.mul_add, ← Nat.mul_assoc, Nat.add_assoc] using this
  | x :: y :: z :: w :: t, first, _ => by
    have hword : toWords (x :: y :: z :: w :: t) = w32 (ofLE [x, y, z, w]) :: toWords t := by
      simp [toWords, ofLE, Nat.mul_add, ← Nat.mul_assoc, Nat.add_assoc]
    have hlen : (x :: y :: z :: w :: t).length % 4 = t.length % 4 := by simp; omega
    rw [hword, hlen]
    cases t with
    | nil =>
      have := itemBytes_chunk first true prio src (b := [x, y, z, w]) (by simp) (by simp)
      simpa [toWords, mkItems] using this
    | cons v t =>
      have hchunk : itemBytes ⟨mkTag first false prio 0 src, w32 (ofLE [x, y, z, w]), false⟩ = [x, y, z, w] := by
        simpa using itemBytes_chunk first false prio src (b := [x, y, z, w]) (by simp) (by simp)
      have ih := flatMap_mkItems prio src (v :: t) false (by simp)
      obtain ⟨u, us, hus⟩ : ∃ u us, toWords (v :: t) = u :: us := by
        cases h : toWords (v :: t) with
        | nil => rw [h] at ih; cases ih
        | cons u us => exact ⟨u, us, rfl⟩
      rw [hus] at ih ⊢
      rw [mkItems, List.flatMap_cons, ih, hchunk]
      · rfl
      · simp

theorem packetBytes_bytesPacket (prio src : Nat) (b : Bytes) : packetBytes (bytesPacket prio src b) = b := by
  unfold bytesPacket
  split
  case isTrue h => rw [List.eq_nil_of_length_eq_zero h]; rfl
  case isFalse h => exact flatMap_mkItems prio src b true fun h0 => h (by rw [h0]; rfl)

theorem takePrio_erase {k : Nat} {p : Packet} : ∀ {l r : List Packet}, takePrio k l = some (p, r) → p.prio = k ∧ r = l.erase p
  | [], _, h => by cases h
  | x :: t, r, h => by
    rw [takePrio] at h
    by_cases hx : x.prio = k
    · rw [if_pos hx] at h
      obtain ⟨rfl, rfl⟩ := Prod.mk.injEq .. ▸ Option.some.inj h
      exact ⟨hx, (List.erase_cons_head ..).symm⟩
    · rw [if_neg hx] at h
      cases ht : takePrio k t with
      | none => rw [ht] at h; cases h
      | some y =>
        rw [ht] at h
        obtain ⟨rfl, rfl⟩ := Prod.mk.injEq .. ▸ Option.some.inj h
        obtain ⟨hprio, hrest⟩ := takePrio_erase ht
        refine ⟨hprio, ?_⟩
        rw [List.erase_cons_tail (by simpa using fun h : x = y.1 => hx (h ▸ hprio)), hrest]

theorem takePacket_erase {mail : Bool} {l r : List Packet} {p : Packet} (h : takePacket mail l = some (p, r)) : r = l.erase p := by
  unfold takePacket at h
  cases mail with
  | false => exact (takePrio_erase h).2
  | true =>
    cases l with
    | nil => cases h
    | cons x t =>
      obtain ⟨rfl, rfl⟩ := Prod.mk.injEq .. ▸ Option.some.inj h
      exact (List.erase_cons_head ..).symm

theorem takeHead_took {s : State} {n : Nat} {p : Packet} (h : s.headPacket n = some p) : Took s (s.takeHead n) n p := by
  have htake : ∃ rest, takePacket (s.mailLane n) (s.lane n).committed = some (p, rest) := by
    unfold State.headPacket at h
    split at h
    · cases h
    · obtain ⟨⟨p', rest⟩, hx, rfl⟩ := Option.map_eq_some_iff.1 h
      exact ⟨rest, hx⟩
  obtain ⟨rest, htake⟩ := htake
  unfold State.takeHead
  dsimp only
  rw [htake]
  dsimp only
  rw [takePacket_erase htake]
  have honly := regsOnly_evt (s.setLane n { s.lane n with committed := (s.lane n).committed.erase p }) 0x10 0x13 p.items.length
  have hregs := regsBut_evt (s.setLane n { s.lane n with committed := (s.lane n).committed.erase p }) [] (b := 0x10) (by omega)
    0x13 p.items.length
  rw [RegsOnly] at honly
  generalize State.evt _ 0x10 0x13 p.items.length = t at *
  exact ⟨by rw [honly]; rfl, by rw [honly], RegsBut.trans (regsBut_of_regs rfl _) hregs⟩

/-! ### Spans -/

theorem CountsOnly.trans {s t u : State} (h : CountsOnly s t) (h' : CountsOnly t u) : CountsOnly s u := by
  unfold CountsOnly at *
  rw [h', h]

theorem each_countsOnly {α : Type} {f : State → α → State} (h : ∀ s x, CountsOnly s (f s x)) (l : List α) :
    ∀ s : State, CountsOnly s (s.each l f) := by
  induction l with
  | nil => exact fun s => rfl
  | cons x l ih => exact fun s => (h s x).trans (ih (f s x))

theorem mvAccesses_countsOnly (s : State) (r : Master) (a k n : Nat) : CountsOnly s (s.mvAccesses r a k n) :=
  each_countsOnly (fun _ _ => access_countsOnly ..) _ s

theorem mvItems_countsOnly (s : State) (r : Master) (n k c : Nat) : CountsOnly s (s.mvItems r n k c) :=
  each_countsOnly (fun _ _ => access_countsOnly ..) _ s

theorem mvLoad_plain {s : State} {a : Nat} (h : byWord a = false) (r : Master) (n : Nat) :
    ∃ u, CountsOnly s u ∧ s.mvLoad r a n = (s.memRead a n, u) := by
  refine ⟨_, mvAccesses_countsOnly s r a 1 (wordsOf n), ?_⟩
  unfold State.mvLoad
  rw [h]; rfl

/-- An address of Sedge SRAM, or its end. -/
theorem mvStore_plain {a : Nat} (hlo : 0x20000000 ≤ a) (hhi : a ≤ 0x20080000) (s : State) (r : Master) (b : Bytes) :
    CountsOnly (s.memWrite a b) (s.mvStore r a b) := by
  have hregion : regionOf a = .sedgeSram ∨ regionOf a = .nowhere := by
    unfold regionOf
    split_ifs <;> simp <;> omega
  have hword : byWord a = false := by
    unfold byWord
    rcases hregion with h | h <;> rw [h] <;> rfl
  have htable : regionOf a ≠ .credTable := by
    rcases hregion with h | h <;> rw [h] <;> decide
  unfold State.mvStore
  rw [hword, if_neg (by decide)]
  dsimp only
  rw [if_neg htable]
  have htouch (t : State) : t.omTouch a b.length = t := if_neg (by omega)
  rw [htouch]
  exact mvAccesses_countsOnly ..

/-! ### The end of a descriptor -/

/-- What the operation of a descriptor changes: memory, lanes and what is counted. -/
def RunOnly (s t : State) : Prop :=
  t = { s with regs := t.regs, prfAcc := t.prfAcc, mem := t.mem, lanes := t.lanes, commits := t.commits, seqLast := t.seqLast } ∧
    RegsBut [] s t

theorem RunOnly.trans {s t u : State} (h : RunOnly s t) (h' : RunOnly t u) : RunOnly s u := by
  refine ⟨?_, RegsBut.trans h.2 h'.2⟩
  obtain ⟨h, -⟩ := h
  obtain ⟨h', -⟩ := h'
  rw [h', h]

theorem CountsOnly.runOnly {s t : State} (h : CountsOnly s t) : RunOnly s t := by
  refine ⟨?_, h.regsBut _⟩
  unfold CountsOnly at h
  rw [h]

theorem Took.lane_ne {s t : State} {q n : Nat} {p : Packet} (h : Took s t q p) (hn : n ≠ q) : t.lane n = s.lane n :=
  (congrArg (tget · n laneNil) h.lanes).trans ((lane_setLane s q n _).trans (if_neg hn))

theorem Took.runOnly {s t : State} {n : Nat} {p : Packet} (h : Took s t n p) : RunOnly s t := ⟨by rw [h.only], h.regs⟩

theorem Committed.runOnly {s t : State} {n : Nat} {p : Packet} (h : Committed s t n p) : RunOnly s t :=
  ⟨by rw [h.only], h.regs⟩

/-- Whether a span may be read turns on the partitions of operand memory alone. -/
theorem mvSpanOk_read {s t : State} (h : t.reg aBN_PART = s.reg aBN_PART) {a : Nat} (hword : byWord a = false) (m : Master) (n : Nat) :
    t.mvSpanOk m false a n = s.mvSpanOk m false a n := by
  have hbase : t.bnBase true = s.bnBase true := by unfold State.bnBase State.rf; rw [h]
  have hreach (a : Nat) : t.mayReach .mover m false a = s.mayReach .mover m false a := by
    unfold State.mayReach
    rw [hbase]; rfl
  unfold State.mvSpanOk State.maySpan
  rw [hword, hreach, hreach]; rfl

theorem runOnly_memWrite (s : State) (a : Nat) (b : Bytes) : RunOnly s (s.memWrite a b) := ⟨rfl, regsBut_of_regs rfl _⟩

/-- A descriptor that runs: its channel is BUSY with it, with nothing that holds it up. -/
structure Runs (s : State) (ch : Nat) (r : MoverRun) : Prop where
  channel : ch < 8
  busy : tfind s.mover ch = some r
  armed : r.armed = false
  held : r.held = false
  mixed : r.mixed = false
  resumed : s.resumed = true
  quiet : s.rb (aQUE_MVCTL ch) 2 = false

/-- The status of a descriptor that is not its chain's last. -/
theorem moverStat_counts (v : State) (status : Byte) (n : Nat) {ch : Nat} (hch : ch < 8) (hevt : v.rb (aQUE_MVCTL ch) 2 = false) :
    ∃ w, (v.moverStat ch status true false n).moverEvent ch status = w ∧ w = { v with regs := w.regs } ∧
      RegsBut [aQUE_MVSTAT ch] v w := by
  have hregs : RegsBut [aQUE_MVSTAT ch] v (v.moverStat ch status true false n) := regsBut_setReg _ (by simp) _
  have honly : v.moverStat ch status true false n = { v with regs := (v.moverStat ch status true false n).regs } := rfl
  generalize v.moverStat ch status true false n = x at *
  have hx : x.rb (aQUE_MVCTL ch) 2 = false := by
    rw [State.rb, hregs _ (by unfold aQUE_MVCTL aQUE_MVSTAT; simp) (by unfold Counted aQUE_MVCTL; omega)]
    exact hevt
  have hend : RegsOnly x (x.ended 0x10 status) := regsOnly_ended ..
  have hcount := regsBut_ended x [aQUE_MVSTAT ch] (b := 0x10) (by omega) status
  refine ⟨x.ended 0x10 status, ?_, ?_, RegsBut.trans hregs hcount⟩
  · unfold State.moverEvent
    rw [hx]; rfl
  · rw [RegsOnly] at hend
    generalize x.ended 0x10 status = w at *
    rw [hend, honly]

theorem moverBegin_begins (x : State) (ch : Nat) (d : List Word) :
    ∃ t, x.moverBegin ch d = t ∧ (tfind t.mover ch).map (fun x => (x.desc, x.moved)) = some (d, 0) ∧
      t.mem = x.mem ∧ t.flash = x.flash ∧ t.lanes = x.lanes ∧
      t.reg (aQUE_MVSTAT ch) = w32 (cPending.toNat * 2 ^ 24 + 2 ^ 23) ∧ RegsBut [aQUE_MVSTAT ch] x t := by
  refine ⟨_, rfl, ?_, rfl, rfl, rfl, reg_setReg_same .., RegsBut.trans (regsBut_of_regs rfl _) (regsBut_setReg _ (by simp) _)⟩
  show (tfind (tput x.mover ch _) ch).map _ = _
  rw [tfind_tput_same]; rfl

/-- The SEQ of a packet moved is shown; then the channel ends, or its chain goes on. -/
theorem mvEnded_seq (u : State) (ch : Nat) (rights : Master) (d : List Word) (e : MvEnd) :
    ∃ v, v = { u with regs := v.regs } ∧ RegsBut [aQUE_MVSEQ ch] u v ∧ (∀ k, e.seq = some k → v.reg (aQUE_MVSEQ ch) = w32 k) ∧
      (e.seq = none → v = u) ∧ (mvChain d = false → u.mvEnded ch rights d e = v.moverEnd ch e.status e.bytes) ∧
      ∀ w, (v.moverStat ch e.status true false e.bytes).moverEvent ch e.status = w → w.rb (aQUE_MVCTL ch) 2 = false →
        mvChain d = true → e.status = cOk → u.mvEnded ch rights d e = w.mvNext ch rights d := by
  obtain ⟨status, bytes, q⟩ := e
  have hends (v : State) (hchain : mvChain d = false) : ¬(mvChain d = true ∧ isFail status = false) := by rw [hchain]; simp
  have hgoes {w : State} (hw : w.rb (aQUE_MVCTL ch) 2 = false) : ¬(w.rb (aQUE_MVCTL ch) 2 && w.laneWaits 2) = true := by rw [hw]; simp
  cases q with
  | none =>
    refine ⟨u, rfl, fun _ _ _ => rfl, by simp, fun _ => rfl, fun hchain => if_neg (hends u hchain), ?_⟩
    rintro w rfl hw hchain rfl
    exact (if_pos ⟨hchain, rfl⟩).trans (if_neg (hgoes hw))
  | some k =>
    refine ⟨u.setReg (aQUE_MVSEQ ch) (w32 k), rfl, regsBut_setReg _ (by simp) _, ?_, by simp,
      fun hchain => if_neg (hends u hchain), ?_⟩
    · rintro _ ⟨⟩
      exact reg_setReg_same ..
    · rintro w rfl hw hchain rfl
      exact (if_pos ⟨hchain, rfl⟩).trans (if_neg (hgoes hw))

section
variable {s u : State} {ch : Nat} {r : MoverRun} {e : MvEnd} (h : Runs s ch r) (hu : RunOnly s u)
include h

theorem Runs.finishes (hrun : mvRun (s.moverRights ch) r.desc s = (some e, u)) :
    exec (.descriptorDone ch) s = .next (u.mvEnded ch (s.moverRights ch) r.desc e) := by
  refine congrArg done ?_
  have hheld : s.mvHeld ch = s := by
    unfold State.mvHeld
    rw [h.busy]
    dsimp only
    rw [h.held]; rfl
  unfold descriptorDone
  rw [hheld]
  dsimp only
  rw [h.busy]
  dsimp only
  rw [if_neg (by rw [h.armed, h.held, h.resumed]; simp), if_neg (by rw [h.mixed]; simp), hrun]

include hu

/-- The channel's event stays off while the descriptor runs. -/
theorem Runs.quiet_after {l : List Nat} (hl : aQUE_MVCTL ch ∉ l) {v : State} (hv : RegsBut l u v) : v.rb (aQUE_MVCTL ch) 2 = false := by
  have hctl : ¬ Counted (aQUE_MVCTL ch) := by have := h.channel; unfold Counted aQUE_MVCTL; omega
  rw [State.rb, hv _ hl hctl, hu.2 _ (by simp) hctl]
  exact h.quiet

/-- A descriptor without CHAIN leaves its channel idle, with its status. -/
theorem Runs.ends (hchain : mvChain r.desc = false) :
    ∃ t, u.mvEnded ch (s.moverRights ch) r.desc e = t ∧ t = { u with regs := t.regs, mover := tdel u.mover ch } ∧
      t.reg (aQUE_MVSTAT ch) = w32 (e.status.toNat * 2 ^ 24 + 2 ^ 22 + e.bytes % 2 ^ 20) ∧
      (∀ k, e.seq = some k → t.reg (aQUE_MVSEQ ch) = w32 k ∧ RegsBut [aQUE_MVSTAT ch, aQUE_MVSEQ ch] u t) ∧
      (e.seq = none → RegsBut [aQUE_MVSTAT ch] u t) := by
  obtain ⟨v, hvonly, hvregs, hseq, hnone, hend, -⟩ := mvEnded_seq u ch (s.moverRights ch) r.desc e
  have hquiet := h.quiet_after hu (by unfold aQUE_MVCTL aQUE_MVSEQ; simp) hvregs
  obtain ⟨t, ht, htonly, hstat, htregs⟩ := moverIdle_ended (s := v) e.status e.bytes h.channel
  refine ⟨t, (hend hchain).trans ((moverEnd_quiet _ _ h.channel hquiet).trans ht.symm), by rw [htonly, hvonly], hstat,
    fun k hk => ⟨?_, ?_⟩, fun hq => ?_⟩
  · have := h.channel
    rw [htregs _ (by unfold aQUE_MVSEQ aQUE_MVSTAT; simp) (by unfold Counted aQUE_MVSEQ; omega), hseq k hk]
  · exact RegsBut.trans (RegsBut.mono hvregs (by simp)) (RegsBut.mono htregs (by simp))
  · rw [← hnone hq]; exact htregs

/-- One with CHAIN goes on with the descriptor at NEXT. -/
theorem Runs.chains (hchain : mvChain r.desc = true) (hok : e.status = cOk) {k : Nat} (hk : e.seq = some k)
    (halign : (wordAt r.desc 3).toNat % 16 = 0) (hword : byWord (wordAt r.desc 3).toNat = false)
    (hspan : s.mvSpanOk (s.moverRights ch) false (wordAt r.desc 3).toNat 16 = true) :
    ∃ t, u.mvEnded ch (s.moverRights ch) r.desc e = t ∧ t.mem = u.mem ∧ t.flash = u.flash ∧ t.lanes = u.lanes ∧
      (tfind t.mover ch).map (fun x => (x.desc, x.moved)) = some (toWords (u.memRead (wordAt r.desc 3).toNat 16), 0) ∧
      t.reg (aQUE_MVSTAT ch) = w32 (cPending.toNat * 2 ^ 24 + 2 ^ 23) ∧ t.reg (aQUE_MVSEQ ch) = w32 k ∧
      RegsBut [aQUE_MVSTAT ch, aQUE_MVSEQ ch] u t := by
  have hch := h.channel
  obtain ⟨v, hvonly, hvregs, hseq, -, -, hnext⟩ := mvEnded_seq u ch (s.moverRights ch) r.desc e
  obtain ⟨w, hw, hwonly, hwregs⟩ := moverStat_counts v e.status e.bytes hch (h.quiet_after hu (by unfold aQUE_MVCTL aQUE_MVSEQ; simp) hvregs)
  have huw : RegsBut [aQUE_MVSTAT ch, aQUE_MVSEQ ch] u w :=
    RegsBut.trans (RegsBut.mono hvregs (by simp)) (RegsBut.mono hwregs (by simp))
  have hnext := hnext w hw (h.quiet_after hu (by unfold aQUE_MVCTL aQUE_MVSEQ aQUE_MVSTAT; simp) huw) hchain hok
  have hpart : w.reg aBN_PART = s.reg aBN_PART := by
    have hc : ¬ Counted aBN_PART := by unfold Counted aBN_PART; omega
    rw [huw _ (by unfold aBN_PART aQUE_MVSTAT aQUE_MVSEQ; simp; omega) hc, hu.2 _ (by simp) hc]
  have hmem : w.mem = u.mem := by rw [hwonly, hvonly]
  obtain ⟨x, hx, hload⟩ := mvLoad_plain (s := w) hword (s.moverRights ch) 16
  have hgoes : w.mvNext ch (s.moverRights ch) r.desc = x.moverBegin ch (toWords (w.memRead (wordAt r.desc 3).toNat 16)) := by
    unfold State.mvNext
    dsimp only
    rw [Nat.div_mul_cancel (Nat.dvd_of_mod_eq_zero halign), if_pos ((mvSpanOk_read hpart hword _ _).trans hspan), hload]
  have hread : w.memRead (wordAt r.desc 3).toNat 16 = u.memRead (wordAt r.desc 3).toNat 16 := congrArg (cellRead · memDefault _ _) hmem
  rw [hread] at hgoes
  obtain ⟨t, ht, hdesc, hmem', hflash', hlanes', hstat, hregs⟩ := moverBegin_begins x ch (toWords (u.memRead (wordAt r.desc 3).toNat 16))
  refine ⟨t, hnext.trans (hgoes.trans ht), ?_, ?_, ?_, hdesc, hstat, ?_, ?_⟩
  · exact hmem'.trans ((hx.view (·.mem) fun _ _ => rfl).trans hmem)
  · exact hflash'.trans ((hx.view (·.flash) fun _ _ => rfl).trans (by rw [hwonly, hvonly]))
  · exact hlanes'.trans ((hx.view (·.lanes) fun _ _ => rfl).trans (by rw [hwonly, hvonly]))
  · have hne : aQUE_MVSEQ ch ∉ [aQUE_MVSTAT ch] := by unfold aQUE_MVSEQ aQUE_MVSTAT; simp
    have hc : ¬ Counted (aQUE_MVSEQ ch) := by unfold Counted aQUE_MVSEQ; omega
    rw [hregs _ hne hc, hx.regsBut [] _ (by simp) hc, hwregs _ hne hc, hseq k hk]
  · exact RegsBut.trans huw (RegsBut.trans (hx.regsBut _) (RegsBut.mono hregs (by simp)))

end

/-! ### The operations -/

/-- What a store to Sedge SRAM leaves in memory. -/
theorem stored_memory {v u : State} {a : Nat} {b : Bytes} (h : CountsOnly (v.memWrite a b) u) :
    u.memRead a b.length = b ∧
      (∀ x, (x < a ∨ a + b.length ≤ x) → cellGet u.mem x memDefault = cellGet v.mem x memDefault) ∧ u.flash = v.flash ∧
      u.lanes = v.lanes ∧ u.mover = v.mover := by
  have hmem : u.mem = (v.memWrite a b).mem := h.view (·.mem) fun _ _ => rfl
  refine ⟨?_, fun x hx => ?_, h.view (·.flash) fun _ _ => rfl, h.view (·.lanes) fun _ _ => rfl, h.view (·.mover) fun _ _ => rfl⟩
  · unfold State.memRead
    rw [hmem]
    exact cellRead_cellWrite ..
  · rw [hmem, memWrite_frame, if_neg (by omega)]

/-- Q2M takes its packet and stores the packet's bytes. -/
theorem mvRun_takes {s : State} {ch : Nat} {r : MoverRun} {p : Packet} {n : Nat}
    (hn : s.mvPopLane (s.moverRights ch) (mvSrcq r.desc) = n) (hkind : mvKind r.desc = 1) (hlen : mvLen r.desc ≠ 0)
    (hhead : s.headPacket n = some p) (hsound : packetBroken p = false)
    (hfits : (packetBytes p).length ≤ mvLen r.desc)
    (hspan : s.mvSpanOk (s.moverRights ch) true (wordAt r.desc 1).toNat (packetBytes p).length = true)
    (hlo : 0x20000000 ≤ (wordAt r.desc 1).toNat) (hhi : (wordAt r.desc 1).toNat + (packetBytes p).length ≤ 0x20080000) :
    ∃ u, mvRun (s.moverRights ch) r.desc s = (some ⟨cOk, (packetBytes p).length, some p.seq.toNat⟩, u) ∧ RunOnly s u ∧
      u.memRead (wordAt r.desc 1).toNat (packetBytes p).length = packetBytes p ∧
      (∀ a, (a < (wordAt r.desc 1).toNat ∨ (wordAt r.desc 1).toNat + (packetBytes p).length ≤ a) →
        cellGet u.mem a memDefault = cellGet s.mem a memDefault) ∧
      u.flash = s.flash ∧
      (u.lane n).committed = (s.lane n).committed.erase p := by
  have htook := takeHead_took hhead
  have hitems := mvItems_countsOnly (s.takeHead n) (s.moverRights ch) n 3 p.items.length
  generalize hv : (s.takeHead n).mvItems (s.moverRights ch) n 3 p.items.length = v at *
  have hecc : p.ecc = none := by simpa using (Bool.or_eq_false_iff.1 hsound).2
  have hreached : reached p = packetBytes p := by unfold reached; rw [hecc]
  have hrun : mvRun (s.moverRights ch) r.desc s = (some ⟨cOk, (packetBytes p).length, some p.seq.toNat⟩,
      v.mvStore (s.moverRights ch) (wordAt r.desc 1).toNat (packetBytes p)) := by
    unfold mvRun
    rw [hkind]
    show mvQ2M _ _ _ = _
    unfold mvQ2M
    dsimp only
    rw [if_neg hlen, hn, hhead]
    dsimp only
    rw [if_neg (by omega), if_neg (by rw [hspan]; decide), hreached, countBroken_whole hsound, hsound, hv]; rfl
  have hstore := mvStore_plain hlo (by omega) v (s.moverRights ch) (packetBytes p)
  obtain ⟨hread, hothers, hflash, hlanes, -⟩ := stored_memory hstore
  have hvs : RunOnly s v := htook.runOnly.trans hitems.runOnly
  have hvmem : v.mem = s.mem := (hitems.view (·.mem) fun _ _ => rfl).trans (by rw [htook.only])
  refine ⟨_, hrun, hvs.trans ((runOnly_memWrite ..).trans hstore.runOnly), hread, fun a ha => (hothers a ha).trans (by rw [hvmem]),
    hflash.trans ((hitems.view (·.flash) fun _ _ => rfl).trans (by rw [htook.only])), ?_⟩
  have hlane : (v.mvStore (s.moverRights ch) (wordAt r.desc 1).toNat (packetBytes p)).lane n = (s.takeHead n).lane n :=
    (congrArg (tget · n laneNil) hlanes).trans (lane_countsOnly hitems n)
  rw [hlane, htook.lane]

theorem length_toWords : ∀ b : Bytes, (toWords b).length = wordsOf b.length
  | [] => rfl
  | [_] => by simp only [toWords, List.length_cons, List.length_nil, wordsOf]
  | [_, _] => by simp only [toWords, List.length_cons, List.length_nil, wordsOf]
  | [_, _, _] => by simp only [toWords, List.length_cons, List.length_nil, wordsOf]
  | _ :: _ :: _ :: _ :: t => by
    have := length_toWords t
    simp only [toWords, List.length_cons, wordsOf] at *
    omega

theorem items_bytesPacket (prio src : Nat) (b : Bytes) : (bytesPacket prio src b).items.length = max 1 (wordsOf b.length) := by
  cases b with
  | nil => rfl
  | cons x b =>
    rw [length_bytesPacket (by simp), length_toWords]
    simp only [wordsOf, List.length_cons]
    omega

theorem doomed_bytesPacket (prio src : Nat) (b : Bytes) : (bytesPacket prio src b).doomed = false := by
  unfold bytesPacket; split <;> rfl

theorem prio_bytesPacket (prio src : Nat) (b : Bytes) : (bytesPacket prio src b).prio = prio % 4 := by
  unfold bytesPacket; split <;> rfl

/-- A queue 0 to 7 checks nothing at a commit, by whoever pushes. -/
theorem commitOk_low {n : Nat} (hn : n < 8) (s : State) (peat : Bool) (p : Packet) : commitOk s n peat p = true := by
  unfold commitOk
  dsimp only
  rw [if_neg (by omega), if_neg (by omega), if_neg (by omega)]

/-- A push to a queue 0 to 7 with room commits its packet. -/
theorem mvPush_commits {s v : State} {rights : Master} {n : Nat} {p : Packet} {took : State → State} (len : Nat) (hn : n < 8)
    (hv : took s = v) (hroom : s.hwRoom n p = true) (hdoomed : p.doomed = false) (h8 : (v.lane 8).committed = []) :
    ∃ w u, mvPush rights n len p took s = (some ⟨cOk, len, some (s.nextSeq n)⟩, u) ∧ Committed v w n p ∧ CountsOnly w u := by
  have hcapacity : p.items.length ≤ s.capacity n := by
    have hroom := (of_decide_eq_true hroom).1
    exact (by omega : p.items.length ≤ s.room n).trans (Nat.sub_le ..)
  have hcommit := committed_commit v n p p.items.length
  rw [← jobAccepted_other (n := n) (by omega) (by omega) (v.commit n p) p] at hcommit
  have htry : v.tryCommit n (decide (rights = .peat)) p = ((v.commit n p).jobAccepted n p).evt 0x10 0x12 p.items.length :=
    if_pos ⟨hdoomed, commitOk_low hn ..⟩
  rw [← htry] at hcommit
  have hitems := mvItems_countsOnly (v.tryCommit n (decide (rights = .peat)) p) rights n 4 p.items.length
  refine ⟨_, _, ?_, hcommit, hitems⟩
  unfold mvPush
  rw [if_neg (Nat.not_lt.2 hcapacity), if_neg (by rw [hroom]; decide), if_pos (commitOk_low hn ..), hv]
  dsimp only
  rw [pumpQ8_empty]
  rw [lane_countsOnly hitems, hcommit.lane_ne (by omega)]
  exact h8

/-- M2Q commits the bytes of its span as one packet. -/
theorem mvRun_pushes {s : State} {ch : Nat} {r : MoverRun} {n : Nat} (hn : s.mvPushLane (s.moverRights ch) (mvDstq r.desc) = n)
    (hkind : mvKind r.desc = 2) (hword : byWord (wordAt r.desc 1).toNat = false)
    (hspan : s.mvSpanOk (s.moverRights ch) false (wordAt r.desc 1).toNat (mvLen r.desc) = true) (h8 : n < 8)
    (hmay : s.mayQueue (s.moverRights ch) true (mvDstq r.desc) 0 = true)
    (hroom : max 1 (wordsOf (mvLen r.desc)) + s.heldBack n ≤ s.room n) (hopen : s.openCount n < 8) (hq8 : (s.lane 8).committed = []) :
    ∃ v w u, mvRun (s.moverRights ch) r.desc s = (some ⟨cOk, mvLen r.desc, some (s.nextSeq n)⟩, u) ∧ CountsOnly s v ∧
      Committed v w n (bytesPacket (fld (wordAt r.desc 0) 19 18) (fld (wordAt r.desc 0) 15 8)
        (s.memRead (wordAt r.desc 1).toNat (mvLen r.desc))) ∧ CountsOnly w u := by
  obtain ⟨v, hv, hload⟩ := mvLoad_plain (s := s) hword (s.moverRights ch) (mvLen r.desc)
  have hlen := items_bytesPacket (fld (wordAt r.desc 0) 19 18) (fld (wordAt r.desc 0) 15 8)
    (s.memRead (wordAt r.desc 1).toNat (mvLen r.desc))
  rw [show (s.memRead (wordAt r.desc 1).toNat (mvLen r.desc)).length = mvLen r.desc from cellRead_length ..] at hlen
  have hcan : v.hwRoom n (bytesPacket (fld (wordAt r.desc 0) 19 18) (fld (wordAt r.desc 0) 15 8)
      (s.memRead (wordAt r.desc 1).toNat (mvLen r.desc))) = true := by
    refine (hv.view (·.hwRoom n _) fun _ _ => rfl).trans (decide_eq_true ⟨?_, hopen⟩)
    rw [hlen]; exact hroom
  obtain ⟨w, u, hpush, hcommit, hu⟩ := mvPush_commits (rights := s.moverRights ch) (took := id) (mvLen r.desc) h8 rfl hcan
    (doomed_bytesPacket ..) ((congrArg Lane.committed (lane_countsOnly hv 8)).trans hq8)
  refine ⟨v, w, u, ?_, hv, hcommit, hu⟩
  have hcapacity : s.room n ≤ s.capacity n := Nat.sub_le ..
  unfold mvRun
  rw [hkind]
  show mvM2Q _ _ _ = _
  unfold mvM2Q
  dsimp only
  rw [hn, if_neg (show ¬ 16 ≤ n by omega), if_neg (by rw [hmay]; decide), if_neg (by rw [hspan]; decide), if_neg (by omega), if_neg (by omega),
    hload, hpush]
  rw [show v.nextSeq n = s.nextSeq n from hv.view (·.nextSeq n) fun _ _ => rfl]

/-- Q2Q takes its packet and commits it to the other queue. -/
theorem mvRun_passes {s : State} {ch : Nat} {r : MoverRun} {p : Packet} {n k : Nat}
    (hn : s.mvPopLane (s.moverRights ch) (mvSrcq r.desc) = n) (hk : s.mvPushLane (s.moverRights ch) (mvDstq r.desc) = k)
    (hkind : mvKind r.desc = 3) (hlen : mvLen r.desc ≠ 0) (hhead : s.headPacket n = some p) (hsound : packetBroken p = false)
    (hfits : (packetBytes p).length ≤ mvLen r.desc) (h8 : k < 8)
    (hmay : s.mayQueue (s.moverRights ch) true (mvDstq r.desc) 0 = true) (hroom : p.items.length + s.heldBack k ≤ s.room k)
    (hopen : s.openCount k < 8) (hdoomed : p.doomed = false) (hq8 : (s.lane 8).committed = []) :
    ∃ v w u, mvRun (s.moverRights ch) r.desc s = (some ⟨cOk, (packetBytes p).length, some (s.nextSeq k)⟩, u) ∧ Took s v n p ∧
      Committed v w k p ∧ CountsOnly w u := by
  have htook := (takeHead_took hhead).trans_counts (u := (s.takeHead n).mvItems (s.moverRights ch) n 3 p.items.length)
    (itemsBy_only ..).1 (itemsBy_only ..).2
  have hv8 : (((s.takeHead n).mvItems (s.moverRights ch) n 3 p.items.length).lane 8).committed = [] := by
    refine (congrArg (fun l => (tget l 8 laneNil).committed) htook.lanes).trans ?_
    show ((s.setLane n _).lane 8).committed = []
    rw [lane_setLane]
    split
    case isTrue h => rw [← h, hq8]; rfl
    case isFalse => exact hq8
  obtain ⟨w, u, hpush, hcommit, hu⟩ := mvPush_commits (rights := s.moverRights ch)
    (took := fun t => (t.takeHead n).mvItems (s.moverRights ch) n 3 p.items.length) (packetBytes p).length h8 rfl
    (decide_eq_true ⟨hroom, hopen⟩) hdoomed hv8
  refine ⟨_, w, u, ?_, htook, hcommit, hu⟩
  unfold mvRun
  rw [hkind]
  show mvQ2Q _ _ _ = _
  unfold mvQ2Q
  dsimp only
  rw [if_neg hlen, hn, hk, hhead]
  dsimp only
  rw [if_neg (by omega), if_neg (show ¬ 16 ≤ k by omega), if_neg (by rw [hmay]; decide), if_neg (by rw [hsound]; decide), hpush]

section
variable {s : State} {ch : Nat} {r : MoverRun} (h : Runs s ch r)
include h

/-- M2M reads all before it writes (log entry 32). -/
theorem Runs.copies (hkind : mvKind r.desc = 4) (hlen : 0 < mvLen r.desc) (hword : byWord (wordAt r.desc 1).toNat = false)
    (hfrom : s.mvSpanOk (s.moverRights ch) false (wordAt r.desc 1).toNat (mvLen r.desc) = true)
    (hto : s.mvSpanOk (s.moverRights ch) true (wordAt r.desc 3).toNat (mvLen r.desc) = true)
    (hlo : 0x20000000 ≤ (wordAt r.desc 3).toNat) (hhi : (wordAt r.desc 3).toNat + mvLen r.desc ≤ 0x20080000) :
    ∃ t, exec (.descriptorDone ch) s = .next t ∧
      t.memRead (wordAt r.desc 3).toNat (mvLen r.desc) = s.memRead (wordAt r.desc 1).toNat (mvLen r.desc) ∧
      (∀ a, (a < (wordAt r.desc 3).toNat ∨ (wordAt r.desc 3).toNat + mvLen r.desc ≤ a) →
        cellGet t.mem a memDefault = cellGet s.mem a memDefault) ∧
      t.flash = s.flash ∧ t.lanes = s.lanes ∧ tfind t.mover ch = none ∧
      t.reg (aQUE_MVSTAT ch) = w32 (cOk.toNat * 2 ^ 24 + 2 ^ 22 + mvLen r.desc % 2 ^ 20) ∧ RegsBut [aQUE_MVSTAT ch] s t := by
  obtain ⟨x, hx, hload⟩ := mvLoad_plain (s := s) hword (s.moverRights ch) (mvLen r.desc)
  have hstore := mvStore_plain hlo (by omega) x (s.moverRights ch) (s.memRead (wordAt r.desc 1).toNat (mvLen r.desc))
  have hrun : mvRun (s.moverRights ch) r.desc s = (some ⟨cOk, mvLen r.desc, none⟩,
      x.mvStore (s.moverRights ch) (wordAt r.desc 3).toNat (s.memRead (wordAt r.desc 1).toNat (mvLen r.desc))) := by
    unfold mvRun
    rw [hkind]
    show mvM2M _ _ _ = _
    unfold mvM2M
    dsimp only
    rw [if_neg (by omega), if_neg (by rw [hfrom]; decide), if_neg (by rw [hto]; decide), hload]
  generalize x.mvStore _ _ _ = u at *
  have hu : RunOnly s u := hx.runOnly.trans ((runOnly_memWrite ..).trans hstore.runOnly)
  obtain ⟨hread, hothers, hflash, hlanes, -⟩ := stored_memory hstore
  rw [show (s.memRead (wordAt r.desc 1).toNat (mvLen r.desc)).length = mvLen r.desc from cellRead_length ..] at hread hothers
  have hxmem : x.mem = s.mem := hx.view (·.mem) fun _ _ => rfl
  obtain ⟨t, ht, honly, hstat, -, hregs⟩ := h.ends hu (e := ⟨cOk, mvLen r.desc, none⟩) (by unfold mvChain; rw [hkind]; simp)
  refine ⟨t, (h.finishes hrun).trans (congrArg done ht), ?_, fun a ha => ?_, ?_, ?_, ?_, hstat, RegsBut.trans (RegsBut.mono hu.2 (by simp)) (hregs rfl)⟩
  · rw [honly]; exact hread
  · rw [honly]; exact (hothers a ha).trans (by rw [hxmem])
  · rw [honly]; exact hflash.trans (hx.view (·.flash) fun _ _ => rfl)
  · rw [honly]; exact hlanes.trans (hx.view (·.lanes) fun _ _ => rfl)
  · rw [honly]; exact tfind_tdel_same ..

/-- What Q2M leaves: its packet's bytes are stored, and its packet is gone. -/
theorem Runs.takes {p : Packet} {n : Nat} (hn : s.mvPopLane (s.moverRights ch) (mvSrcq r.desc) = n) (hkind : mvKind r.desc = 1)
    (hchain : mvChain r.desc = false) (hlen : mvLen r.desc ≠ 0) (hhead : s.headPacket n = some p) (hsound : packetBroken p = false)
    (hfits : (packetBytes p).length ≤ mvLen r.desc)
    (hspan : s.mvSpanOk (s.moverRights ch) true (wordAt r.desc 1).toNat (packetBytes p).length = true)
    (hlo : 0x20000000 ≤ (wordAt r.desc 1).toNat) (hhi : (wordAt r.desc 1).toNat + (packetBytes p).length ≤ 0x20080000) :
    ∃ t, exec (.descriptorDone ch) s = .next t ∧
      t.memRead (wordAt r.desc 1).toNat (packetBytes p).length = packetBytes p ∧
      (∀ a, (a < (wordAt r.desc 1).toNat ∨ (wordAt r.desc 1).toNat + (packetBytes p).length ≤ a) →
        cellGet t.mem a memDefault = cellGet s.mem a memDefault) ∧
      t.flash = s.flash ∧ (t.lane n).committed = (s.lane n).committed.erase p ∧ tfind t.mover ch = none ∧
      t.reg (aQUE_MVSTAT ch) = w32 (cOk.toNat * 2 ^ 24 + 2 ^ 22 + (packetBytes p).length % 2 ^ 20) ∧
      t.reg (aQUE_MVSEQ ch) = w32 p.seq.toNat ∧ RegsBut [aQUE_MVSTAT ch, aQUE_MVSEQ ch] s t := by
  obtain ⟨u, hrun, hu, hread, hothers, hflash, hlane⟩ := mvRun_takes hn hkind hlen hhead hsound hfits hspan hlo hhi
  obtain ⟨t, ht, honly, hstat, hseq, -⟩ := h.ends hu (e := ⟨cOk, (packetBytes p).length, some p.seq.toNat⟩) hchain
  obtain ⟨hseq, hregs⟩ := hseq _ rfl
  refine ⟨t, (h.finishes hrun).trans (congrArg done ht), ?_, fun a ha => ?_, ?_, ?_, ?_, hstat, hseq,
    RegsBut.trans (RegsBut.mono hu.2 (by simp)) hregs⟩
  · rw [honly]; exact hread
  · rw [honly]; exact hothers a ha
  · rw [honly]; exact hflash
  · rw [honly]; exact hlane
  · rw [honly]; exact tfind_tdel_same ..

theorem Runs.takesOn {p : Packet} {n : Nat} (hn : s.mvPopLane (s.moverRights ch) (mvSrcq r.desc) = n) (hkind : mvKind r.desc = 1)
    (hchain : mvChain r.desc = true) (hlen : mvLen r.desc ≠ 0) (hhead : s.headPacket n = some p) (hsound : packetBroken p = false)
    (hfits : (packetBytes p).length ≤ mvLen r.desc)
    (hspan : s.mvSpanOk (s.moverRights ch) true (wordAt r.desc 1).toNat (packetBytes p).length = true)
    (hlo : 0x20000000 ≤ (wordAt r.desc 1).toNat) (hhi : (wordAt r.desc 1).toNat + (packetBytes p).length ≤ 0x20080000)
    (halign : (wordAt r.desc 3).toNat % 16 = 0) (hword : byWord (wordAt r.desc 3).toNat = false)
    (hnext : s.mvSpanOk (s.moverRights ch) false (wordAt r.desc 3).toNat 16 = true) :
    ∃ t, exec (.descriptorDone ch) s = .next t ∧
      t.memRead (wordAt r.desc 1).toNat (packetBytes p).length = packetBytes p ∧
      (∀ a, (a < (wordAt r.desc 1).toNat ∨ (wordAt r.desc 1).toNat + (packetBytes p).length ≤ a) →
        cellGet t.mem a memDefault = cellGet s.mem a memDefault) ∧
      t.flash = s.flash ∧ (t.lane n).committed = (s.lane n).committed.erase p ∧
      (tfind t.mover ch).map (fun x => (x.desc, x.moved)) = some (toWords (t.memRead (wordAt r.desc 3).toNat 16), 0) ∧
      t.reg (aQUE_MVSTAT ch) = w32 (cPending.toNat * 2 ^ 24 + 2 ^ 23) ∧ t.reg (aQUE_MVSEQ ch) = w32 p.seq.toNat ∧
      RegsBut [aQUE_MVSTAT ch, aQUE_MVSEQ ch] s t := by
  obtain ⟨u, hrun, hu, hread, hothers, hflash, hlane⟩ := mvRun_takes hn hkind hlen hhead hsound hfits hspan hlo hhi
  obtain ⟨t, ht, hmem, htflash, hlanes, hdesc, hstat, hseq, hregs⟩ :=
    h.chains hu (e := ⟨cOk, (packetBytes p).length, some p.seq.toNat⟩) hchain rfl rfl halign hword hnext
  have hmemRead (a n : Nat) : t.memRead a n = u.memRead a n := congrArg (cellRead · memDefault a n) hmem
  refine ⟨t, (h.finishes hrun).trans (congrArg done ht), (hmemRead _ _).trans hread, fun a ha => ?_, htflash.trans hflash, ?_, ?_, hstat,
    hseq, RegsBut.trans (RegsBut.mono hu.2 (by simp)) hregs⟩
  · rw [hmem]; exact hothers a ha
  · exact (congrArg (fun l => (tget l n laneNil).committed) hlanes).trans hlane
  · rw [hmemRead]; exact hdesc

/-- What a committed packet of a descriptor leaves. -/
theorem Runs.commits {v w u : State} {k n : Nat} {p : Packet} (hsv : RunOnly s v) (hbytes : BytesKept s v) (hcommit : Committed v w k p)
    (hu : CountsOnly w u) (hchain : mvChain r.desc = false)
    (hrun : mvRun (s.moverRights ch) r.desc s = (some ⟨cOk, n, some (s.nextSeq k)⟩, u)) :
    ∃ t, exec (.descriptorDone ch) s = .next t ∧ t.lanes = w.lanes ∧
      ((t.lane k).committed.getLast?).map (fun x => (x.prio, x.src, packetBytes x)) = some (p.prio, p.src, packetBytes p) ∧
      (t.lane k).committed.length = (v.lane k).committed.length + 1 ∧ tfind t.mover ch = none ∧
      t.reg (aQUE_MVSTAT ch) = w32 (cOk.toNat * 2 ^ 24 + 2 ^ 22 + n % 2 ^ 20) ∧ t.reg (aQUE_MVSEQ ch) = w32 (s.nextSeq k) ∧
      RegsBut [aQUE_MVSTAT ch, aQUE_MVSEQ ch] s t ∧ BytesKept s t := by
  have hsu : RunOnly s u := hsv.trans (hcommit.runOnly.trans hu.runOnly)
  obtain ⟨t, ht, honly, hstat, hseq, -⟩ := h.ends hsu (e := ⟨cOk, n, some (s.nextSeq k)⟩) hchain
  obtain ⟨hseq, hregs⟩ := hseq _ rfl
  have hlanes : t.lanes = w.lanes := by rw [honly]; exact hu.view (·.lanes) fun _ _ => rfl
  have hlane : t.lane k = w.lane k := congrArg (tget · k laneNil) hlanes
  refine ⟨t, (h.finishes hrun).trans (congrArg done ht), hlanes, ?_, ?_, ?_, hstat, hseq,
    RegsBut.trans (RegsBut.mono hsu.2 (by simp)) hregs, ?_⟩
  · rw [hlane, hcommit.newest, Option.map_some, packetBytes_stamped]; rfl
  · rw [hlane, hcommit.lane]; simp
  · rw [honly]; exact tfind_tdel_same ..
  · refine BytesKept.trans hbytes (BytesKept.trans hcommit.bytes (BytesKept.trans hu.bytes (bytesKept_of_eq ?_ ?_)))
    · rw [honly]
    · rw [honly]

end

/-- Settles O42: each kind of descriptor runs its operation, and its channel then ends or goes on with its chain. -/
theorem moverDescriptors : Obligations.MoverDescriptors := by
  unfold Obligations.MoverDescriptors
  refine ⟨fun s ch r hch hr harmed hheld hmixed hres hevt hkind hlen hword hfrom hto hlo hhi => ?m2m,
    fun s ch r p hch hr harmed hheld hmixed hres hevt hkind hchain hlen hhead hsound hfits hspan hlo hhi => ?q2m,
    fun s ch r p hch hr harmed hheld hmixed hres hevt hkind hchain hlen hhead hsound hfits hspan hlo hhi halign hword hnext => ?chains,
    fun s ch r hch hr harmed hheld hmixed hres hevt hkind hchain hword hspan h8 hmay hroom hopen hq8 => ?m2q,
    fun s ch r p hch hr harmed hheld hmixed hres hevt hkind hchain hlen hhead hsound hfits h8 hne hmay hroom hopen hdoomed hq8 => ?q2q⟩
  case m2m => exact Runs.copies ⟨hch, hr, harmed, hheld, hmixed, hres, hevt⟩ hkind hlen hword hfrom hto hlo hhi
  case q2m => exact Runs.takes ⟨hch, hr, harmed, hheld, hmixed, hres, hevt⟩ rfl hkind hchain hlen hhead hsound hfits hspan hlo hhi
  case chains =>
    exact Runs.takesOn ⟨hch, hr, harmed, hheld, hmixed, hres, hevt⟩ rfl hkind hchain hlen hhead hsound hfits hspan hlo hhi halign hword
      hnext
  case m2q =>
    obtain ⟨v, w, u, hrun, hv, hcommit, hu⟩ := mvRun_pushes rfl hkind hword hspan h8 hmay hroom hopen hq8
    obtain ⟨t, ht, -, hnewest, hlength, hrest⟩ :=
      Runs.commits ⟨hch, hr, harmed, hheld, hmixed, hres, hevt⟩ hv.runOnly hv.bytes hcommit hu hchain hrun
    refine ⟨t, ht, hnewest.trans ?_, ?_, hrest⟩
    · rw [prio_bytesPacket, src_bytesPacket, packetBytes_bytesPacket, Nat.mod_eq_of_lt (by unfold fld; omega)]
    · rw [hlength, lane_countsOnly hv]
  case q2q =>
    obtain ⟨v, w, u, hrun, htook, hcommit, hu⟩ :=
      mvRun_passes rfl rfl hkind hlen hhead hsound hfits h8 hmay hroom hopen hdoomed hq8
    obtain ⟨t, ht, hlanes, hnewest, hlength, hrest⟩ :=
      Runs.commits ⟨hch, hr, harmed, hheld, hmixed, hres, hevt⟩ htook.runOnly htook.bytes hcommit hu hchain hrun
    refine ⟨t, ht, hnewest, ?_, ?_, hrest⟩
    · rw [hlength, htook.lane_ne hne]
    · have hlane : t.lane (s.mvPopLane (s.moverRights ch) (mvSrcq r.desc)) = w.lane _ := congrArg (tget · _ laneNil) hlanes
      rw [hlane, hcommit.lane_ne (Ne.symm hne), htook.lane]

end Proofs
end Sys2Proof

/-! PROOFS. The symmetric engine takes a job (R106, R326, R331). -/
namespace Sys2Proof
namespace Proofs

open Sys2Proof.Machine Sys2Proof.Safety Sys2Proof.Laws

/-! ### A job that waits, as it is judged -/

/-- The state with another set of engines. -/
def withEng (s : State) (e : Engines) : State := { s with eng := e }

/-- A reference to a session that has closed since its job came. -/
def closesRef (s : State) (r : Word) : State :=
  s.onlyIf (bit r 31) fun s => s.modSes (fld r 19 12) fun x => { x with st := .closing }

theorem closesRef_withEng (s : State) (e : Engines) (r : Word) : closesRef (withEng s e) r = withEng (closesRef s r) e := by
  unfold closesRef
  cases bit r 31 <;> rfl

theorem jobView_withEng (s : State) (e : Engines) (p : Packet) : (withEng s e).jobView p = withEng (s.jobView p) e := by
  have heach (l : List Word) : ∀ s : State, (withEng s e).each l closesRef = withEng (s.each l closesRef) e := by
    induction l with
    | nil => exact fun _ => rfl
    | cons r l ih => exact fun s => (congrArg (fun s : State => s.each l closesRef) (closesRef_withEng s e r)).trans (ih _)
  unfold State.jobView
  cases p.gone with
  | false => rfl
  | true => exact heach _ s

/-- The checks of a job do not turn on the working key register. -/
theorem aesRefusal_withKey (s : State) (k : Bytes) (p : Packet) (d : List Word) :
    aesRefusal (withEng s { s.eng with aesKey := k }) p d = aesRefusal s p d := rfl

/-- The engines once the symmetric engine has noted whom it serves. -/
theorem aesRefusal_serving (s : State) (p q : Packet) (d : List Word) :
    aesRefusal (State.jobView { s with eng := { s.eng with aesLast := p.src } } q) q d = aesRefusal ((servingAes s p).jobView q) q d := by
  have h1 : State.jobView { s with eng := { s.eng with aesLast := p.src } } q = withEng (s.jobView q) { s.eng with aesLast := p.src } :=
    jobView_withEng ..
  have h2 : (servingAes s p).jobView q = withEng (s.jobView q) { s.eng with aesLast := p.src, aesKey := aesJobKey s (packetWords p) } :=
    jobView_withEng ..
  rw [h1, h2]
  exact (aesRefusal_withKey (withEng (s.jobView q) { s.eng with aesLast := p.src }) (aesJobKey s (packetWords p)) q d).symm

/-! ### A job that is taken -/

/-- What the take of a job and its input changes: lanes, engines, sessions, and what is counted. -/
def TakesOnly (s t : State) : Prop :=
  t = { s with regs := t.regs, prfAcc := t.prfAcc, lanes := t.lanes, sess := t.sess, seqLast := t.seqLast,
               eng := { s.eng with bnMixed := t.eng.bnMixed } } ∧ RegsBut [] s t

theorem TakesOnly.trans {s t u : State} (h : TakesOnly s t) (h' : TakesOnly t u) : TakesOnly s u := by
  refine ⟨?_, RegsBut.trans h.2 h'.2⟩
  obtain ⟨h, -⟩ := h
  obtain ⟨h', -⟩ := h'
  rw [h', h]

theorem TakesOnly.bytes {s t : State} (h : TakesOnly s t) : BytesKept s t := bytesKept_of_eq (by rw [h.1]) (by rw [h.1])

theorem takeJob_takes (s : State) (p : Packet) :
    TakesOnly s (s.takeJob p) ∧ ((s.takeJob p).lane 10).committed = (s.lane 10).committed.erase p := by
  have honly := regsOnly_evt ((s.forgetMixed [p]).setLane 10 { s.lane 10 with committed := (s.lane 10).committed.erase p }) 0x10 0x13
    p.items.length
  have hregs := regsBut_evt ((s.forgetMixed [p]).setLane 10 { s.lane 10 with committed := (s.lane 10).committed.erase p }) []
    (b := 0x10) (by omega) 0x13 p.items.length
  unfold State.takeJob
  dsimp only
  rw [RegsOnly] at honly
  generalize State.evt _ 0x10 0x13 p.items.length = t at *
  refine ⟨⟨by rw [honly]; rfl, RegsBut.trans (regsBut_of_regs rfl _) hregs⟩, ?_⟩
  rw [honly]
  exact congrArg Lane.committed (lane_setLane_same ..)

theorem takeHead_takes (s : State) (n : Nat) : TakesOnly s (s.takeHead n) := by
  unfold State.takeHead
  dsimp only
  cases takePacket (s.mailLane n) (s.lane n).committed with
  | none => exact ⟨rfl, fun _ _ _ => rfl⟩
  | some x =>
    have honly := regsOnly_evt (s.setLane n { s.lane n with committed := x.2 }) 0x10 0x13 x.1.items.length
    have hregs := regsBut_evt (s.setLane n { s.lane n with committed := x.2 }) [] (b := 0x10) (by omega) 0x13 x.1.items.length
    rw [RegsOnly] at honly
    dsimp only
    generalize State.evt _ 0x10 0x13 x.1.items.length = t at *
    exact ⟨by rw [honly]; rfl, RegsBut.trans (regsBut_of_regs rfl _) hregs⟩

theorem takeJobData_takes (s : State) (p : Packet) :
    TakesOnly s (s.takeJobData p) ∧ (jobSrcq p ≠ none ∨ ((s.takeJobData p).lane 10).committed = (s.lane 10).committed.erase p) := by
  obtain ⟨htake, hlane⟩ := takeJob_takes s p
  unfold State.takeJobData
  dsimp only
  cases jobSrcq p with
  | none => exact ⟨htake, Or.inr hlane⟩
  | some q => exact ⟨htake.trans (takeHead_takes _ q), Or.inl (by simp)⟩

/-- The sound source of a job counts nothing. -/
theorem countSource_sound {s : State} {p : Packet} (h : s.sourceBroken p = false) (t : State) : t.countSource (s.sourceOf p) = t := by
  unfold State.sourceBroken at h
  cases hs : s.sourceOf p with
  | none => rfl
  | some x =>
    rw [hs] at h
    exact countBroken_whole h t x.1

/-- Nothing but sessions differs. -/
def SessOnly (s t : State) : Prop := t = { s with sess := t.sess }

theorem SessOnly.trans {s t u : State} (h : SessOnly s t) (h' : SessOnly t u) : SessOnly s u := by
  unfold SessOnly at *
  rw [h', h]

theorem SessOnly.onlyIf {s : State} {f : State → State} (h : SessOnly s (f s)) (c : Bool) : SessOnly s (s.onlyIf c f) := by
  cases c with
  | false => rfl
  | true => exact h

theorem sessOnly_modSes (s : State) (n : Nat) (f : Session → Session) : SessOnly s (s.modSes n f) := rfl

/-- The start of a job marks the sessions of its references as used. -/
theorem aesUseSes_sess (s : State) (d : List Word) : SessOnly s (aesUseSes s d) := by
  have hseal (s : State) (n : Nat) (c : Bool) :
      SessOnly s ((s.useSes n).onlyIf c fun s => s.modSes n fun x => { x with tx := x.tx + 1 }) :=
    (sessOnly_modSes s n _).trans (SessOnly.onlyIf (sessOnly_modSes _ n _) c)
  unfold aesUseSes
  cases refSes (aesKey2 d) with
  | none =>
    cases refSes (aesKey d) with
    | none => rfl
    | some n => exact hseal s n _
  | some k =>
    have huse : SessOnly s (s.onlyIf (aesKeyout d || aesKeyin d) fun s => s.useSes k) :=
      SessOnly.onlyIf (sessOnly_modSes s k _) _
    cases refSes (aesKey d) with
    | none => exact huse
    | some n => exact huse.trans (hseal _ n _)

theorem aesUseSes_takes (s : State) (d : List Word) : TakesOnly s (aesUseSes s d) ∧ (aesUseSes s d).lanes = s.lanes := by
  have h := aesUseSes_sess s d
  unfold SessOnly at h
  rw [h]
  exact ⟨⟨rfl, regsBut_of_regs rfl _⟩, rfl⟩

/-- A chosen sound job that no check refuses is taken, and runs. -/
theorem aesBegin_takes {s : State} {p : Packet} (hwhole : packetBroken p = false) (hsource : s.sourceBroken p = false)
    (hdata : (s.jobData p 9).length = aesDataLen (packetWords p))
    (hok : aesRefusal ((servingAes s p).jobView p) p (packetWords p) = cOk) :
    ∃ u, TakesOnly (servingAes s p) u ∧ (jobSrcq p ≠ none ∨ (u.lane 10).committed = (s.lane 10).committed.erase p) ∧
      aesBegin s p =
        { u with eng := { u.eng with aes := some (aesRun (servingAes s p) p (packetWords p) (s.jobData p 9) false) } } := by
  obtain ⟨htake, hlane⟩ := takeJobData_takes (servingAes s p) p
  obtain ⟨huse, hlanes⟩ := aesUseSes_takes ((servingAes s p).takeJobData p) (packetWords p)
  refine ⟨_, htake.trans huse, ?_, ?_⟩
  · exact hlane.imp id fun h => (congrArg (fun l => (tget l 10 laneNil).committed) hlanes).trans h
  · unfold aesBegin
    dsimp only
    have hb : State.sourceBroken { s with eng := { s.eng with aesLast := p.src } } p = false := hsource
    have hl : (State.jobData { s with eng := { s.eng with aesLast := p.src } } p 9).length = aesDataLen (packetWords p) := hdata
    rw [if_neg (by rw [hwhole]; decide), aesRefusal_serving, hok, if_neg (by decide), if_neg (fun h => h.2 hl), hb]
    rw [show (State.loadAesKey _ _) = servingAes s p from rfl]
    have hsource' : (servingAes s p).sourceBroken p = false := hsource
    rw [show State.sourceOf { s with eng := { s.eng with aesLast := p.src } } p = (servingAes s p).sourceOf p from rfl,
      countSource_sound hsource']
    rfl

/-- Settles O32: each of the seven modes is a start of the job that the scheduler chooses. -/
theorem symmetricJobsStart : Obligations.SymmetricJobsStart := by
  unfold Obligations.SymmetricJobsStart
  intro s m c p hc ⟨hres, hfree, hsts, hcand, hmode, hwhole, hsource, hdata, hok⟩
  obtain ⟨u, htake, hlane, hbegin⟩ := aesBegin_takes hwhole hsource hdata hok
  have hstart : aesStart m s = aesBegin s p := by
    unfold aesStart
    rw [if_pos ⟨hres, hfree, hsts⟩, hcand]
    exact if_pos (Or.inl hmode)
  have hexec : exec c s = done (aesStart m s) := by
    simp only [List.mem_cons, Prod.mk.injEq, List.not_mem_nil, or_false] at hc
    rcases hc with ⟨rfl, rfl⟩ | ⟨rfl, rfl⟩ | ⟨rfl, rfl⟩ | ⟨rfl, rfl⟩ | ⟨rfl, rfl⟩ | ⟨rfl, rfl⟩ | ⟨rfl, rfl⟩ <;> rfl
  refine ⟨_, hexec.trans (congrArg done (hstart.trans hbegin)), rfl, ?_, hlane, ?_, ?_⟩
  · show u.eng.aesLast = p.src
    rw [htake.1]
  · exact RegsBut.trans (regsBut_of_regs rfl _) (RegsBut.trans htake.2 (regsBut_of_regs rfl _))
  · exact BytesKept.trans (bytesKept_of_eq rfl rfl) (BytesKept.trans htake.bytes (bytesKept_of_eq rfl rfl))

end Proofs
end Sys2Proof

/-! PROOFS. The public-key engine takes a job (R106, R347, R354). -/
namespace Sys2Proof
namespace Proofs

open Sys2Proof.Machine Sys2Proof.Safety Sys2Proof.Laws

/-! ### Areas of operand memory -/

theorem areasMixed_append {l r : List (Nat × Nat)} (h : areasMixed (l ++ r) = false) :
    areasMixed l = false ∧ areasMixed r = false ∧ ∀ a ∈ l, ∀ b ∈ r, areasMeet a b = true → a = b := by
  induction l with
  | nil => exact ⟨rfl, h, by simp⟩
  | cons x l ih =>
    rw [List.cons_append, areasMixed, Bool.or_eq_false_iff, List.any_append, Bool.or_eq_false_iff] at h
    obtain ⟨⟨hl, hr⟩, hrest⟩ := h
    obtain ⟨h1, h2, h3⟩ := ih hrest
    refine ⟨by rw [areasMixed, hl, h1]; rfl, h2, fun a ha b hb hab => ?_⟩
    rcases List.mem_cons.1 ha with rfl | ha
    · by_contra hne
      have := List.any_eq_false.1 hr b hb
      rw [decide_eq_true hne, hab] at this
      exact this rfl
    · exact h3 a ha b hb hab

theorem areasMeet_comm (a b : Nat × Nat) : areasMeet a b = areasMeet b a := by
  unfold areasMeet
  exact decide_eq_decide.2 And.comm

/-- Whether a reference runs past its partition turns on the partitions alone. -/
theorem bnRunsPast_congr {s t : State} (h : t.reg aBN_PART = s.reg aBN_PART) (d : List Word) (b : BnSpec) (sedge : Bool) :
    t.bnRunsPast d b sedge = s.bnRunsPast d b sedge := by
  have hrf (hi lo : Nat) : t.rf aBN_PART hi lo = s.rf aBN_PART hi lo := by unfold State.rf; rw [h]
  have hlen (x : Bool) : t.bnLen x = s.bnLen x := by unfold State.bnLen; rw [hrf, hrf]
  have hbase (x : Bool) : t.bnBase x = s.bnBase x := by unfold State.bnBase; rw [hrf]
  have hslots (x : Bool) : t.bnSlots x = s.bnSlots x := by unfold State.bnSlots; rw [hrf, hlen]
  unfold State.bnRunsPast State.bnPast State.bnWord
  simp only [hlen, hbase, hslots]

/-- The areas of a MONT_SETUP that stays in its partition overlap: it writes behind the modulus that it reads. -/
theorem montSetup_overlaps {s : State} {d : List Word} {b : BnSpec} (hrow : s.bnRow d = some b) (hop : bnOp d = 4) (hn : bnNw d ≠ 0)
    (hpast : ∀ sedge, s.bnRunsPast d b sedge = false) : areasMixed (s.bnAreas d b.refs) = true := by
  unfold State.bnRow at hrow
  rw [hop] at hrow
  obtain rfl := Option.some.inj hrow
  have hin : s.bnPast (bnRef d .M) (2 * bnNw d + 1) = false := by
    have := List.any_eq_false.1 (hpast (refPart (bnRef d .M))) (.M, 2 * bnNw d + 1) (by simp [BnSpec.refs])
    simpa using this
  have hfits : s.bnWord (bnRef d .M) + (2 * bnNw d + 1) ≤ if refPart (bnRef d .M) then 4096 else s.bnBase true := by
    have hle := of_decide_eq_false hin
    have hdiv := Nat.div_mul_le_self
      (if refPart (bnRef d .M) then 4096 - 64 * s.rf aBN_PART 6 0 else 64 * s.rf aBN_PART 6 0) (s.bnLen (refPart (bnRef d .M)))
    unfold State.bnSlots at hle
    unfold State.bnWord at hle ⊢
    unfold State.bnBase at hle ⊢
    cases hp : refPart (bnRef d .M) <;> rw [hp] at hle hdiv <;> simp at hle hdiv ⊢ <;> omega
  have hclip {k : Nat} (hk : k ≤ 2 * bnNw d + 1) : s.bnClip (bnRef d .M) (s.bnWord (bnRef d .M)) k = (s.bnWord (bnRef d .M), k) := by
    unfold State.bnClip
    rw [Nat.min_eq_left (by omega)]
  have hareas : ∃ l, s.bnAreas d (BnSpec.refs ⟨[(.M, 2 * bnNw d + 1)], [(.M, bnNw d + 1)], 2 * bnNw d, 128 * bnNw d * bnNw d +
      768 * bnNw d + 40, 1, 0, 0⟩) = (s.bnWord (bnRef d .M), 2 * bnNw d + 1) :: (s.bnWord (bnRef d .M), bnNw d + 1) :: l :=
    ⟨_, congrArg₂ (fun x y => x :: y :: _) (hclip le_rfl) (hclip (by omega))⟩
  obtain ⟨l, hl⟩ := hareas
  rw [hl, areasMixed, List.any_cons, decide_eq_true (by simp; omega), areasMeet, decide_eq_true (by dsimp only; omega)]
  rfl

theorem bnMixes_false {s : State} {d : List Word} {b : BnSpec} (hop : bnOp d ≠ 4) (h : areasMixed (s.bnAreas d b.refs) = false) :
    s.bnMixes d b = false := by
  have hplace (r : BnRef) : s.bnPlace d r = s.bnWord (bnRef d r) := by unfold State.bnPlace; rw [if_neg hop]; rfl
  have houts : s.bnOuts d b b.outs = s.bnAreas d (b.outs ++ if b.scratch = 0 then [] else [(BnRef.S, b.scratch)]) := by
    unfold State.bnOuts State.bnAreas
    simp only [hplace, List.map_append]
  have hall : s.bnAreas d b.refs = s.bnAreas d b.srcs ++ s.bnOuts d b b.outs := by
    rw [houts]
    unfold BnSpec.refs State.bnAreas
    simp only [List.map_append, List.append_assoc]
  rw [hall] at h
  obtain ⟨hsrcs, houtsOk, hbetween⟩ := areasMixed_append h
  unfold State.bnMixes
  dsimp only
  rw [hsrcs, houtsOk, Bool.false_or, Bool.false_or, List.any_eq_false]
  intro o ho
  rw [Bool.not_eq_true, List.any_eq_false]
  intro x hx hmeet
  rw [Bool.and_eq_true, areasMeet_comm] at hmeet
  obtain ⟨hmeet, hnot⟩ := hmeet
  have := hbetween x hx o ho hmeet
  rw [decide_eq_true (Or.inl this.symm)] at hnot
  exact absurd hnot (by decide)

/-! ### Free values in operand memory -/

/-- Free values are written to operand memory alone. -/
structure FillsOperands (s t : State) : Prop where
  only : t = { s with freeCtr := t.freeCtr, mem := t.mem }
  outside : ∀ a, (a < 0x50000000 ∨ 0x50008000 ≤ a) → cellGet t.mem a memDefault = cellGet s.mem a memDefault

theorem FillsOperands.trans {s t u : State} (h : FillsOperands s t) (h' : FillsOperands t u) : FillsOperands s u :=
  ⟨by rw [h'.only, h.only], fun a ha => (h'.outside a ha).trans (h.outside a ha)⟩

theorem omWrite_fills (s : State) (w : Nat) (b : Bytes) : FillsOperands s (s.omWrite w b) := by
  refine ⟨rfl, fun a ha => ?_⟩
  unfold State.omWrite
  rw [memWrite_frame, if_neg (by simp only [List.length_take]; omega)]

theorem bnFree_fills (l : List (Nat × Nat)) : ∀ s : State, FillsOperands s (s.bnFree l) := by
  induction l with
  | nil => exact fun s => ⟨rfl, fun _ _ => rfl⟩
  | cons x l ih =>
    intro s
    have hfree : FillsOperands s (s.freeBytes (8 * x.2)).2 := ⟨rfl, fun _ _ => rfl⟩
    exact (hfree.trans (omWrite_fills _ x.1 (s.freeBytes (8 * x.2)).1)).trans (ih _)

/-! ### The launch -/

theorem bnRefusal_words {s : State} {p : Packet} {d : List Word} (h : bnRefusal s p d = cOk) (hop : bnOp d = 4) : bnNw d ≠ 0 := by
  intro h0
  have hzero : (1 ≤ bnOp d ∧ bnOp d ≤ 0x0A ∧ bnNw d = 0) ∨ (bnKey d ≠ 0 ∧ kLen (bnKey d) = 0) := Or.inl (by omega)
  unfold bnRefusal at h
  simp only [if_pos hzero] at h
  split_ifs at h <;> exact absurd h (by decide)

/-- A job that passes its checks, whose operands meet no other's, runs with the results of its operation. -/
theorem bnLaunch_runs {s : State} {p : Packet} {b : BnSpec} (hsusp : s.eng.bnSusp = none) (hothers : s.bnOthers p = [])
    (hpast : ∀ sedge, s.bnRunsPast (packetWords p) b sedge = false) (hconsts : s.bnNoConsts (packetWords p) = false)
    (hmixes : s.bnMixes (packetWords p) b = false) (hseq : p.seq.toNat ∉ s.eng.bnMixed) :
    ∃ t, s.bnLaunch p (packetWords p) b = t ∧ t.eng.bn = some (bnRun s p (packetWords p) b false) ∧ t.eng.bnLast = s.eng.bnLast ∧
      (t.lane 10).committed = (s.lane 10).committed.erase p ∧ RegsBut [] s t ∧
      (∀ a, (a < 0x50000000 ∨ 0x50008000 ≤ a) → cellGet t.mem a memDefault = cellGet s.mem a memDefault) ∧ t.flash = s.flash := by
  have hclash : ((s.bnOthers p).filter fun o => s.bnClash (packetWords p) o.1) = [] := by rw [hothers]; rfl
  obtain ⟨⟨honly, hregs⟩, hlane⟩ := takeJob_takes s p
  obtain ⟨v, hv, hvonly⟩ : ∃ v, (s.takeJob p).onlyIf (decide ((bnRun s p (packetWords p) b false).keySes.isSome))
      (fun s' => s'.useSes ((bnRun s p (packetWords p) b false).keySes.getD 0)) = v ∧ SessOnly (s.takeJob p) v :=
    ⟨_, rfl, SessOnly.onlyIf (sessOnly_modSes _ _ _) _⟩
  have hvregs : v.regs = (s.takeJob p).regs := by rw [hvonly]
  have hpart : v.reg aBN_PART = s.reg aBN_PART :=
    (reg_congr hvregs _).trans (hregs _ (by simp) (by unfold Counted aBN_PART; omega))
  have hkept : v.bnPastFree (packetWords p) b = v := by
    have h1 := (bnRunsPast_congr hpart (packetWords p) b false).trans (hpast false)
    have h2 := (bnRunsPast_congr hpart (packetWords p) b true).trans (hpast true)
    have hpeat : v.onlyIf (v.bnRunsPast (packetWords p) b false) (fun s => s.bnFree [(0, s.bnBase true)]) = v := by rw [h1]; rfl
    unfold State.bnPastFree
    rw [hpeat, h2]; rfl
  have hfills := bnFree_fills (v.bnOuts (packetWords p) b (if bnWrites s (packetWords p) then b.outs else [])) v
  generalize hu : v.bnFree (v.bnOuts (packetWords p) b (if bnWrites s (packetWords p) then b.outs else [])) = u at hfills
  have hueng : u.eng = { s.eng with bnMixed := (s.takeJob p).eng.bnMixed } := by rw [hfills.only, hvonly, honly]
  have hlaunch : s.bnLaunch p (packetWords p) b =
      { u with eng := { u.eng with bn := some (bnRun s p (packetWords p) b false), bnSusp := none, bnMixed := u.eng.bnMixed ++ [] } } := by
    have hnone : u.eng.bnSusp = none := by rw [hueng]; exact hsusp
    unfold State.bnLaunch
    dsimp only
    rw [hclash, hpast, hpast, hconsts, hmixes, decide_eq_false hseq, hsusp]
    rw [show (false || false || false || false || !([] : List (List Word × Option Nat)).isEmpty || false) = false from rfl, hv, hkept,
      hu, hnone]
    rfl
  refine ⟨_, hlaunch, rfl, ?_, ?_, ?_, fun a ha => ?_, ?_⟩
  · show u.eng.bnLast = _; rw [hueng]
  · show (u.lane 10).committed = _
    rw [← hlane, hfills.only, hvonly]; rfl
  · refine RegsBut.trans hregs (regsBut_of_regs ?_ _)
    show u.regs = _; rw [hfills.only, hvonly]
  · refine (hfills.outside a ha).trans ?_
    rw [hvonly, honly]
  · show u.flash = _; rw [hfills.only, hvonly, honly]

/-- The commands of the engine with their OPs (R356 to R358). -/
def bnTable : List (Nat × Instr) :=
  [(0x01, .modAdd), (0x02, .modSub), (0x03, .modMul), (0x04, .montSetup), (0x05, .modExp), (0x06, .modInv), (0x07, .modRed),
   (0x08, .copy), (0x09, .copyRev), (0x0A, .clear), (0x20, .p256Mul), (0x21, .p256Mulg), (0x22, .p256Check), (0x23, .p256Sign),
   (0x24, .p256Verify), (0x28, .p384Mul), (0x29, .p384Mulg), (0x2A, .p384Check), (0x2B, .p384Sign), (0x2C, .p384Verify), (0x30, .x25519),
   (0x31, .x25519Base), (0x38, .ed25519Verify), (0x40, .ntt), (0x41, .intt), (0x42, .basemul), (0x43, .padd), (0x44, .psub),
   (0x48, .kemKeygen), (0x49, .kemEncaps), (0x4A, .kemDecaps)]

theorem exec_bnTable (s : State) : ∀ x ∈ bnTable, exec x.2 s = done (bnStart x.1 s) := by
  unfold bnTable
  simp only [List.forall_mem_cons]
  exact ⟨rfl, rfl, rfl, rfl, rfl, rfl, rfl, rfl, rfl, rfl, rfl, rfl, rfl, rfl, rfl, rfl, rfl, rfl, rfl, rfl, rfl, rfl, rfl, rfl, rfl, rfl, rfl, rfl, rfl, rfl, rfl, by simp⟩

/-- Settles O34: each command of the table is a start of the job that the scheduler chooses. -/
theorem publicKeyJobsStart : Obligations.PublicKeyJobsStart := by
  unfold Obligations.PublicKeyJobsStart
  intro s k c p b hc ⟨hres, hfree, hsusp, hcand, hop, hwhole, hrow, hok, hothers, hpast, hpast', hconsts, hareas, hseq⟩
  have hpast (sedge : Bool) : (servingBn s p).bnRunsPast (packetWords p) b sedge = false := by
    cases sedge
    · exact hpast
    · exact hpast'
  have hop4 : bnOp (packetWords p) ≠ 4 := fun h4 =>
    absurd (montSetup_overlaps hrow h4 (bnRefusal_words hok h4) hpast) (by rw [hareas]; decide)
  have hstart : bnStart k s = (servingBn s p).bnLaunch p (packetWords p) b := by
    unfold bnStart
    rw [if_pos ⟨hres, hfree, hsusp⟩, hcand]
    refine (if_pos (Or.inl hop)).trans ?_
    unfold bnBegin
    dsimp only
    rw [if_neg (by rw [hwhole]; decide), hok, if_neg (by decide)]
    rw [show State.bnRow { s with eng := { s.eng with bnLast := p.src } } (packetWords p) = some b from hrow]
  obtain ⟨t, ht, hrun, hlast, hlane, hregs, hmem, hflash⟩ :=
    bnLaunch_runs (s := servingBn s p) hsusp hothers hpast hconsts (bnMixes_false hop4 hareas) hseq
  exact ⟨t, (exec_bnTable s _ hc).trans (congrArg done (hstart.trans ht)), hrun, hlast, hlane,
    RegsBut.trans (regsBut_of_regs rfl _) hregs, hmem, hflash⟩

end Proofs
end Sys2Proof

/-! PROOFS. The hash engine takes a job (R106, R371 to R387). -/
namespace Sys2Proof
namespace Proofs

open Sys2Proof.Machine Sys2Proof.Safety Sys2Proof.Laws

/-- What the run of a hash job reads and changes: a SIGN takes the next index, a KEYGEN its conditioned output. -/
def HashRunOnly (s t : State) : Prop :=
  t = { s with freeCtr := t.freeCtr, envm := t.envm, trng := t.trng }

theorem hSeed_only (s : State) (r : Run) : HashRunOnly s (hSeed s r).2 := by
  unfold hSeed State.draw
  cases s.servedTo .keygen with
  | some x =>
    obtain ⟨c, b⟩ := x
    dsimp only
    split
    next h => split at h <;> cases h
    next h => split at h <;> cases h; rfl
    next h => split at h <;> cases h; rfl
  | none =>
    dsimp only
    cases s.rngFailed with
    | true => rfl
    | false => cases s.drawWaits .keygen <;> rfl

theorem hRun_only (s : State) (p : Packet) (d : List Word) (data : Bytes) : HashRunOnly s (hRun s p d data).2 := by
  unfold hRun
  dsimp only
  split_ifs
  · rfl
  · rfl
  · rfl
  · exact hSeed_only ..

theorem each_sess {α : Type} {f : State → α → State} (h : ∀ s x, SessOnly s (f s x)) (l : List α) : ∀ s : State, SessOnly s (s.each l f) := by
  induction l with
  | nil => exact fun s => rfl
  | cons x l ih => exact fun s => (h s x).trans (ih (f s x))

/-- A run takes its input, and begins; an area that runs past its partition is free. -/
def hLaunch (p : Packet) (d : List Word) (src : Option (Nat × Packet)) (run : Run) (s : State) (inPast outPast : Bool) : State :=
  let run := if outPast then { run with dest := .lost } else run
  let s := (s.takeJobData p).countSource src
  let s := s.each (run.keySes.toList ++ run.outSes.toList) fun s n => s.useSes n
  let s := s.onlyIf inPast fun s => s.hFree (hOmIn d)
  let s := s.onlyIf outPast fun s => s.hFree (hOmOut d)
  { s with eng := { s.eng with hsh := some run } }

theorem hLaunch_plain (p : Packet) (d : List Word) (src : Option (Nat × Packet)) (run : Run) (s : State) :
    hLaunch p d src run s false false =
      { ((s.takeJobData p).countSource src).each (run.keySes.toList ++ run.outSes.toList) (fun s n => s.useSes n) with
        eng := { (((s.takeJobData p).countSource src).each (run.keySes.toList ++ run.outSes.toList) fun s n => s.useSes n).eng with
          hsh := some run } } := rfl

/-- A chosen sound job that no check refuses, with no area in operand memory, is taken, and runs. -/
theorem hBegin_takes {s : State} {p : Packet} (hwhole : packetBroken p = false) (hsource : s.sourceBroken p = false)
    (hdata : (s.hData p (packetWords p)).length = hDataLen (packetWords p))
    (hok : hRefusal ((servingHsh s p).jobView p) p (packetWords p) = cOk) (hom : hSrcOm (packetWords p) = false)
    (hout : hOut (packetWords p) ≠ 1)
    (hanchor : hFunc (packetWords p) = 8 → hXop (packetWords p) = 1 → hAnchor (packetWords p) ≠ 0)
    (hseq : p.seq.toNat ∉ s.eng.bnMixed) :
    ∃ t, hBegin s p = t ∧ t.eng.hsh = some (hRun (servingHsh s p) p (packetWords p) (s.hData p (packetWords p))).1 ∧
      t.eng.hshLast = p.src ∧ (jobSrcq p ≠ none ∨ (t.lane 10).committed = (s.lane 10).committed.erase p) ∧
      RegsBut [] s t ∧ BytesKept s t := by
  have hrun := hRun_only (servingHsh s p) p (packetWords p) (s.hData p (packetWords p))
  generalize hr : hRun (servingHsh s p) p (packetWords p) (s.hData p (packetWords p)) = rs at *
  obtain ⟨htake, hlane⟩ := takeJobData_takes rs.2 p
  obtain ⟨v, hv, hvonly⟩ : ∃ v, (rs.2.takeJobData p).each (rs.1.keySes.toList ++ rs.1.outSes.toList) (fun s n => s.useSes n) = v ∧
      SessOnly (rs.2.takeJobData p) v := ⟨_, rfl, each_sess (fun s n => sessOnly_modSes s n _) _ _⟩
  have hin : (hSrcOm (packetWords p) && State.hPast (servingHsh s p) (hDataWord (packetWords p)) (hDataLen (packetWords p)) ||
      (hX (packetWords p) && decide (hXop (packetWords p) = 1 ∧ hAnchor (packetWords p) = 0) &&
        State.hPast (servingHsh s p) (hOmIn (packetWords p)) 64)) = false := by
    have hno : (hX (packetWords p) && decide (hXop (packetWords p) = 1 ∧ hAnchor (packetWords p) = 0)) = false := by
      rw [hX, Bool.and_eq_false_iff, decide_eq_false_iff_not, decide_eq_false_iff_not]
      by_cases h8 : hFunc (packetWords p) = 8
      · exact Or.inr fun h => hanchor h8 h.1 h.2
      · exact Or.inl h8
    rw [hom, hno]; rfl
  have hbegin : hBegin s p = { v with eng := { v.eng with hsh := some rs.1 } } := by
    have hmatch : hBegin s p = hLaunch p (packetWords p) (State.sourceOf (servingHsh s p) p)
        (if State.sourceBroken (servingHsh s p) p then
          { (if p.seq.toNat ∈ s.eng.bnMixed then rs.2.hFreeOut rs.1 else rs).1 with status := cAlarm, out := [], save := none }
          else (if p.seq.toNat ∈ s.eng.bnMixed then rs.2.hFreeOut rs.1 else rs).1)
        (if p.seq.toNat ∈ s.eng.bnMixed then rs.2.hFreeOut rs.1 else rs).2
        (hSrcOm (packetWords p) && State.hPast (servingHsh s p) (hDataWord (packetWords p)) (hDataLen (packetWords p)) ||
          (hX (packetWords p) && decide (hXop (packetWords p) = 1 ∧ hAnchor (packetWords p) = 0) &&
            State.hPast (servingHsh s p) (hOmIn (packetWords p)) 64))
        (hDelivers (packetWords p) && !hX (packetWords p) && decide (hOut (packetWords p) = 1) &&
          State.hPast (servingHsh s p) (hOmOut (packetWords p)) (hOutlen (packetWords p))) := by
      rw [← hr]
      exact (if_neg (by rw [hwhole]; decide)).trans ((if_neg (not_not.2 hok)).trans (if_neg fun h => h.2 hdata))
    rw [hmatch, if_neg hseq, show State.sourceBroken (servingHsh s p) p = false from hsource, if_neg (by decide), hin,
      decide_eq_false hout, Bool.and_false, Bool.false_and, hLaunch_plain,
      countSource_sound (s := servingHsh s p) hsource, hv]
  have hfrom : rs.2.lane 10 = s.lane 10 := by rw [hrun]; rfl
  have hveng : v.eng.hshLast = p.src := by rw [hvonly, htake.1, hrun]
  have hvlane : v.lane 10 = (rs.2.takeJobData p).lane 10 := by rw [hvonly]; rfl
  refine ⟨_, hbegin, rfl, hveng, ?_, ?_, ?_⟩
  · refine hlane.imp id fun h => ?_
    rw [← hfrom, ← h, ← hvlane]; rfl
  · have hregs : v.regs = (rs.2.takeJobData p).regs := by rw [hvonly]
    exact RegsBut.trans (regsBut_of_regs (by rw [hrun]) _) (RegsBut.trans htake.2 (regsBut_of_regs hregs _))
  · refine BytesKept.trans (bytesKept_of_eq (by rw [hrun]) (by rw [hrun])) (BytesKept.trans htake.bytes (bytesKept_of_eq ?_ ?_))
    · show v.mem = _; rw [hvonly]
    · show v.flash = _; rw [hvonly]

/-- Settles O37: each of the eight functions is a start of the job that the scheduler chooses. -/
theorem hashJobsStart : Obligations.HashJobsStart := by
  unfold Obligations.HashJobsStart
  intro s f x c p hc ⟨hres, hderived, hfree, hcand, hfunc, hxop, hwhole, hsource, hdata, hok, hom, hout, hanchor, hseq⟩
  obtain ⟨t, ht, hrest⟩ := hBegin_takes hwhole hsource hdata hok hom hout
    (fun h8 h1 => hanchor (hfunc ▸ h8) ((hxop (hfunc ▸ h8)).symm ▸ h1)) hseq
  have hstart : hStart f x s = t := by
    unfold hStart
    rw [if_pos ⟨hres, hderived, hfree⟩, hcand]
    exact (if_pos (Or.inl ⟨hfunc, hxop⟩)).trans ht
  have hexec : exec c s = done (hStart f x s) := by
    simp only [List.mem_cons, Prod.mk.injEq, List.not_mem_nil, or_false] at hc
    rcases hc with ⟨rfl, rfl, rfl⟩ | ⟨rfl, rfl, rfl⟩ | ⟨rfl, rfl, rfl⟩ | ⟨rfl, rfl, rfl⟩ | ⟨rfl, rfl, rfl⟩ | ⟨rfl, rfl, rfl⟩ |
      ⟨rfl, rfl, rfl⟩ | ⟨rfl, rfl, rfl⟩ <;> rfl
  exact ⟨t, hexec.trans (congrArg done hstart), hrest⟩

end Proofs
end Sys2Proof

/-! PROOFS. The results of the modular operations (R356). -/
namespace Sys2Proof
namespace Proofs

open Sys2Proof.Machine Sys2Proof.Safety Sys2Proof.Laws

/-- The job that a start runs, with the results of its operation. -/
theorem bn_starts {s : State} {k : Nat} {c : Instr} {p : Packet} {b : BnSpec} (hc : (k, c) ∈ bnTable) (h : BnTakes s k p b) :
    ∃ t, exec c s = .next t ∧ t.eng.bn = some (bnRun (servingBn s p) p (packetWords p) b false) := by
  obtain ⟨t, ht, hrun, -⟩ := publicKeyJobsStart s k c p b hc h
  exact ⟨t, ht, hrun⟩

theorem op_of_bnTakes {s : State} {k : Nat} {p : Packet} {b : BnSpec} (h : BnTakes s k p b) : bnOp (packetWords p) = k := by
  obtain ⟨-, -, -, -, hop, -⟩ := h
  exact hop

/-- What a modular operation with one result and no condition stores: the result, at D. -/
theorem bnRun_stores {s : State} {p : Packet} {d : List Word} {b : BnSpec} {v : Bytes} {flags : Nat} (hop : bnOp d ≠ 4)
    (h : bnCompute s d = ⟨[], flags, [(.D, v)]⟩) :
    ((bnRun s p d b false).stores, (bnRun s p d b false).status) = ([(s.bnWord (bnRef d .D), v)], cOk) := by
  have hplace : s.bnPlace d .D = s.bnWord (bnRef d .D) := by unfold State.bnPlace; rw [if_neg hop]; rfl
  have hstores : (bnRun s p d b false).stores = ((bnCompute s d).outs.map fun x => (s.bnPlace d x.1, x.2)) := rfl
  have hstatus : (bnRun s p d b false).status = firstStatus (bnCompute s d).conds := rfl
  rw [hstores, hstatus, h]
  show ([(s.bnPlace d .D, v)], firstStatus []) = _
  rw [hplace]; rfl

theorem reduceV_below {v m : Nat} (h : v < m) : reduceV v m = (v, false) := by
  unfold reduceV
  rw [Nat.mod_eq_of_lt h, decide_eq_false (by omega)]

theorem bnCompute_modular {s : State} {d : List Word} (h : bnOp d ≤ 0x0A) : bnCompute s d = bnModular s d := if_pos h

theorem compute_modAdd {s : State} {d : List Word} (hop : bnOp d = 0x01) (ha : s.bnInt d .A (bnNw d) < s.bnInt d .M (bnNw d))
    (hb : s.bnInt d .B (bnNw d) < s.bnInt d .M (bnNw d)) :
    bnCompute s d = ⟨[], 0, [(.D, toLE (8 * bnNw d)
      ((s.bnInt d .A (bnNw d) + s.bnInt d .B (bnNw d)) % s.bnInt d .M (bnNw d)))]⟩ := by
  rw [bnCompute_modular (by omega)]
  unfold bnModular
  dsimp only
  rw [hop, reduceV_below ha, reduceV_below hb]; rfl

theorem compute_modSub {s : State} {d : List Word} (hop : bnOp d = 0x02) (ha : s.bnInt d .A (bnNw d) < s.bnInt d .M (bnNw d))
    (hb : s.bnInt d .B (bnNw d) < s.bnInt d .M (bnNw d)) :
    bnCompute s d = ⟨[], 0, [(.D, toLE (8 * bnNw d)
      ((s.bnInt d .A (bnNw d) + s.bnInt d .M (bnNw d) - s.bnInt d .B (bnNw d)) % s.bnInt d .M (bnNw d)))]⟩ := by
  have hsub : subMod (s.bnInt d .A (bnNw d)) (s.bnInt d .B (bnNw d)) (s.bnInt d .M (bnNw d)) =
      (s.bnInt d .A (bnNw d) + s.bnInt d .M (bnNw d) - s.bnInt d .B (bnNw d)) % s.bnInt d .M (bnNw d) := by
    unfold subMod
    rw [Nat.mod_eq_of_lt ha, Nat.mod_eq_of_lt hb, Nat.add_sub_assoc hb.le]
  rw [bnCompute_modular (by omega)]
  unfold bnModular
  dsimp only
  rw [hop, reduceV_below ha, reduceV_below hb, ← hsub]; rfl

theorem compute_modRed {s : State} {d : List Word} (hop : bnOp d = 0x07) :
    bnCompute s d = ⟨[], 0, [(.D, toLE (8 * bnNw d) (s.bnInt d .A (2 * bnNw d) % s.bnInt d .M (bnNw d)))]⟩ := by
  rw [bnCompute_modular (by omega)]
  unfold bnModular
  dsimp only
  rw [hop]; rfl

theorem compute_copy {s : State} {d : List Word} (hop : bnOp d = 0x08) : bnCompute s d = ⟨[], 0, [(.D, s.bnSrc d .A (bnNw d))]⟩ := by
  rw [bnCompute_modular (by omega)]
  unfold bnModular
  dsimp only
  rw [hop]; rfl

/-- Settles O35: the four operations' results are what their jobs store at D. -/
theorem modularResults : Obligations.ModularResults := by
  unfold Obligations.ModularResults
  refine ⟨fun s p b n m x y d hd hn hm hx hy hxm hym h => ?add, fun s p b n m x y d hd hn hm hx hy hxm hym h => ?sub,
    fun s p b n m x d hd hn hm hx h => ?red, fun s p b n d hd hn h => ?copy⟩
  case add =>
    subst hd hn hm hx hy
    have hop : bnOp (packetWords p) = 0x01 := op_of_bnTakes h
    obtain ⟨t, ht, hrun⟩ := bn_starts (c := .modAdd) (by simp [bnTable]) h
    exact ⟨t, ht, by rw [hrun]; exact congrArg some (bnRun_stores (by omega) (compute_modAdd (s := servingBn s p) hop hxm hym))⟩
  case sub =>
    subst hd hn hm hx hy
    have hop : bnOp (packetWords p) = 0x02 := op_of_bnTakes h
    obtain ⟨t, ht, hrun⟩ := bn_starts (c := .modSub) (by simp [bnTable]) h
    exact ⟨t, ht, by rw [hrun]; exact congrArg some (bnRun_stores (by omega) (compute_modSub (s := servingBn s p) hop hxm hym))⟩
  case red =>
    subst hd hn hm hx
    have hop : bnOp (packetWords p) = 0x07 := op_of_bnTakes h
    obtain ⟨t, ht, hrun⟩ := bn_starts (c := .modRed) (by simp [bnTable]) h
    exact ⟨t, ht, by rw [hrun]; exact congrArg some (bnRun_stores (by omega) (compute_modRed (s := servingBn s p) hop))⟩
  case copy =>
    subst hd hn
    have hop : bnOp (packetWords p) = 0x08 := op_of_bnTakes h
    obtain ⟨t, ht, hrun⟩ := bn_starts (c := .copy) (by simp [bnTable]) h
    exact ⟨t, ht, by rw [hrun]; exact congrArg some (bnRun_stores (by omega) (compute_copy (s := servingBn s p) hop))⟩

end Proofs
end Sys2Proof

/-! PROOFS. A fault of the symmetric engine rewinds the output packet too (R342, R397): a state that refutes O33. The statement
leaves DROPS of the completion queue open, and that of the job's output queue counts as well. -/
namespace Sys2Proof
namespace Proofs

open Sys2Proof.Machine Sys2Proof.Safety Sys2Proof.Laws

/-- A job of channel 5 in a redundant class, whose output goes to Q5. -/
def redundantToQ5 : Run := { runNil with chan := 5, tclass := 3, dest := .queue 5, out := [1, 2, 3, 4], resv := 1 }

/-- Channel 5 is RUNNING, with Q1 for its completions, and the symmetric engine runs its job. -/
def faultsBesideQ5 : State :=
  { (State.reset.srf (aCHN_STATUS 5) 1 0 1).srf (aCHN_QUEUES 5) 11 8 1 with eng := { State.reset.eng with aes := some redundantToQ5 } }

theorem faults_faultsBesideQ5 : redundant redundantToQ5.tclass = true ∧
    ((faultsBesideQ5.lane 10).committed.all fun p => decide (p.src ≠ redundantToQ5.chan)) = true ∧ redundantToQ5.chan < 128 ∧
    faultsBesideQ5.chState redundantToQ5.chan = 1 ∧ faultsBesideQ5.rf (aCHN_QUEUES redundantToQ5.chan) 11 8 = 1 := by decide +kernel

theorem drops_faultsBesideQ5 :
    faultsBesideQ5.reg (aQUE_DROP 5) = 0 ∧ (aesFinish faultsBesideQ5 true).reg (aQUE_DROP 5) = 1 := by decide +kernel

/-- Refutes O33: the job's output is rewound, and DROPS of its queue counts it. -/
theorem not_symmetricJobsComplete : ¬ Obligations.SymmetricJobsComplete := by
  unfold Obligations.SymmetricJobsComplete
  rintro ⟨-, -, h⟩
  obtain ⟨hclass, hjobs, hchan, hstate, hqueue⟩ := faults_faultsBesideQ5
  obtain ⟨t, ht, -, -, -, -, -, hregs, -⟩ :=
    h faultsBesideQ5 redundantToQ5 rfl hclass hjobs hchan hstate (by rw [hqueue]; decide)
  rw [← Host.Outcome.next.inj ht, hqueue] at hregs
  have hsame := hregs (aQUE_DROP 5) (by decide) (by unfold Counted aQUE_DROP; decide)
  obtain ⟨hbefore, hafter⟩ := drops_faultsBesideQ5
  rw [hafter, hbefore] at hsame
  exact absurd hsame (by decide)

end Proofs
end Sys2Proof

/-! PROOFS. An inserted job never yields (R363): a state that refutes O36. -/
namespace Sys2Proof
namespace Proofs

open Sys2Proof.Machine Sys2Proof.Safety Sys2Proof.Laws

/-- A running MOD_EXP of channel 5 that was inserted while another job ran, whose suspended job has ended since. -/
def insertedRun : Run := { runNil with chan := 5, steps := 3, cycles := 9999, desc := [0x20050004, 1, 0, 0, 0], ins := true }

/-- A CLEAR of channel 126. -/
def clearJob : Packet := wordsPacket 0 126 [0x200A0001, 0, 0, 0, 0]

/-- The inserted job runs, and the CLEAR waits in Q10. -/
def insertedRuns : State :=
  let s := { State.reset with power := { Power.reset with mode := .resumed, sedgeRuns := true } }
  { (s.setReg aBN_PART 0x20).setLane 10 { laneNil with committed := [clearJob] } with eng := { s.eng with bn := some insertedRun } }

/-- The state after the step in which the CLEAR is chosen. -/
def insertedSteps : State :=
  { insertedRuns with eng := { insertedRuns.eng with bn := some { insertedRun with step := 1 } } }

/-- The state in which the CLEAR would be judged. -/
def clearJudged : State :=
  servingBn { insertedRuns with eng := { insertedRuns.eng with bn := none, bnSusp := some { insertedRun with step := 1 } } } clearJob

theorem insertedRuns_fits : insertedRuns.resumed = true ∧ insertedRuns.eng.bnSusp = none ∧
    insertedSteps.candidateIf engBn insertedRuns.eng.bnLast (insertedSteps.bnFits { insertedRun with step := 1 }) = some clearJob ∧
    packetBroken clearJob = false ∧ clearJudged.bnRow (packetWords clearJob) = some ⟨[], [(.D, 4)], 0, 22, 1, 0, 0⟩ ∧
    bnRefusal (clearJudged.jobView clearJob) clearJob (packetWords clearJob) = cOk := by decide +kernel

theorem bnSusp_insertedRuns : (bnYield insertedRuns).eng.bnSusp.map (·.step) = none := by decide +kernel

/-- Refutes O36: the inserted job is at a yield point, and stays. -/
theorem not_publicKeyJobsYieldAndComplete : ¬ Obligations.PublicKeyJobsYieldAndComplete := by
  unfold Obligations.PublicKeyJobsYieldAndComplete
  rintro ⟨-, -, h⟩
  obtain ⟨hres, hsusp, hcand, hwhole, hrow, hok⟩ := insertedRuns_fits
  obtain ⟨t, ht, hstep, -⟩ := h insertedRuns insertedSteps clearJudged insertedRun { insertedRun with step := 1 } clearJob _ hres rfl
    hsusp (by decide) rfl rfl hcand hwhole rfl hrow hok
  have hexec : exec .bnYieldPoint insertedRuns = .next (bnYield insertedRuns) := congrArg done (if_pos hres)
  rw [hexec] at ht
  rw [← Host.Outcome.next.inj ht, bnSusp_insertedRuns] at hstep
  exact nomatch hstep

end Proofs
end Sys2Proof

/-! PROOFS. Completions of jobs (R100, R106, R107), and the hash engine's (R389). -/
namespace Sys2Proof
namespace Proofs

open Sys2Proof.Machine Sys2Proof.Safety Sys2Proof.Laws

/-! ### The completion packet -/

/-- What the commit of a packet changes that waits for room, or that a check rewinds. -/
def CommitOnly (s t : State) : Prop :=
  t = { s with regs := t.regs, lanes := t.lanes, commits := t.commits, eng := { s.eng with waiting := t.eng.waiting },
               peat := { s.peat with reqGens := t.peat.reqGens } }

theorem CommitOnly.trans {s t u : State} (h : CommitOnly s t) (h' : CommitOnly t u) : CommitOnly s u := by
  unfold CommitOnly at *
  rw [h', h]

theorem commitOnly_of_regsOnly {s t : State} (h : RegsOnly s t) : CommitOnly s t := by
  unfold RegsOnly at h
  unfold CommitOnly
  rw [h]

/-- The acceptance of a packet of a queue other than Q10. -/
theorem jobAccepted_frame (s : State) {n : Nat} (p : Packet) (hn : n ≠ 10) :
    CommitOnly s (s.jobAccepted n p) ∧ (s.jobAccepted n p).regs = s.regs := by
  unfold State.jobAccepted
  rw [if_neg hn]
  split
  · exact ⟨rfl, rfl⟩
  · exact ⟨rfl, rfl⟩

theorem lane_jobAccepted (s : State) (n k : Nat) (p : Packet) : (s.jobAccepted n p).lane k = s.lane k := by
  unfold State.jobAccepted
  split_ifs <;> rfl

/-- Queues other than Q10 count nothing but the drop of a packet that they refuse. -/
theorem waitCommit_frame (s : State) {n : Nat} (p : Packet) (hn : n ≠ 10) (hq : qOf n < 16) :
    CommitOnly s (s.waitCommit n p) ∧ RegsBut [aQUE_DROP (qOf n)] s (s.waitCommit n p) ∧
      ∀ k, k ≠ n → (s.waitCommit n p).lane k = s.lane k := by
  have hkeep : CommitOnly s (s.keepWaiting n p) ∧ RegsBut [aQUE_DROP (qOf n)] s (s.keepWaiting n p) ∧
      ∀ k, k ≠ n → (s.keepWaiting n p).lane k = s.lane k := ⟨rfl, regsBut_of_regs rfl _, fun _ _ => rfl⟩
  unfold State.waitCommit
  cases s.hwOk n p with
  | false =>
    obtain ⟨hbump, hevt⟩ : RegsOnly s (s.bump (aQUE_DROP (qOf n)) 15 0 1) ∧
        RegsOnly (s.bump (aQUE_DROP (qOf n)) 15 0 1) ((s.bump (aQUE_DROP (qOf n)) 15 0 1).evt 0x10 0x14 1) :=
      ⟨regsOnly_setReg .., regsOnly_evt ..⟩
    obtain ⟨t, ht, ⟨hregs, -⟩, hlanes, -⟩ := drop_counts s hq
    exact ⟨(commitOnly_of_regsOnly hbump).trans (commitOnly_of_regsOnly hevt), ht ▸ hregs,
      fun k _ => (congrArg (State.lane · k) ht).trans (congrArg (tget · k laneNil) hlanes)⟩
  | true =>
    cases s.laneWaits n with
    | true => exact hkeep
    | false =>
      unfold State.hwCommit
      cases s.hwRoom n p with
      | false => exact hkeep
      | true =>
        obtain ⟨haccept, hregs⟩ := jobAccepted_frame (s.commit n p) p hn
        have hcount := regsBut_evt ((s.commit n p).jobAccepted n p) [aQUE_DROP (qOf n)] (b := 0x10) (by omega) 0x12 p.items.length
        have hcommit : CommitOnly s (s.commit n p) := rfl
        have honly := regsOnly_evt ((s.commit n p).jobAccepted n p) 0x10 0x12 p.items.length
        refine ⟨(hcommit.trans haccept).trans (commitOnly_of_regsOnly honly), RegsBut.trans (regsBut_of_regs hregs _) hcount,
          fun k hk => ?_⟩
        show State.lane (State.evt ((s.commit n p).jobAccepted n p) 0x10 0x12 p.items.length) k = _
        rw [RegsOnly] at honly
        rw [honly]
        show State.lane ((s.commit n p).jobAccepted n p) k = _
        rw [lane_jobAccepted]
        exact (lane_setLane _ n k _).trans (if_neg hk)

/-! ### What a completion counts -/

/-- The counts of a completion, once its packet is committed. -/
def completionCounts (s : State) (ch eng : Nat) (status : Byte) : State :=
  let s := s.bump (aCHN_COUNT ch) 31 16 1
  let s := s.srf (aCHN_STATUS ch) 20 16 (s.chJobs ch - 1)
  let s := (s.bump (countReg eng) 15 0 1).evt (engBlock eng) 0x03 1
  let s := s.onlyIf (isFail status) fun s => (s.bump (countReg eng) 31 16 1).evt (engBlock eng) 0x04 1
  s.onlyIf (isFail status && decide (status ≠ cCancelled)) fun s => s.srf (aCHN_STATUS ch) 15 8 status.toNat

theorem completeOne_eq (s : State) (ch prio eng : Nat) (status : Byte) (ws : List Word) :
    s.completeOne ch prio eng status ws =
      completionCounts (s.waitCommit (s.dstLane (s.rf (aCHN_QUEUES ch) 11 8)) (wordsPacket prio ch ws)) ch eng status := rfl

/-- The addresses that a completion counts at. -/
theorem countReg_hash : countReg engHsh = aHSH_COUNT := rfl

theorem rf_of_regsBut {l : List Nat} {s t : State} (h : RegsBut l s t) {a : Nat} (ha : a ∉ l) (hc : ¬ Counted a) (hi lo : Nat) :
    t.rf a hi lo = s.rf a hi lo := by unfold State.rf; rw [h a ha hc]

/-- A count of sixteen bits advances. -/
theorem rf_bump_half (s : State) (a : Nat) {hi lo : Nat} (h : hi = lo + 15) (h32 : hi < 32) :
    (s.bump a hi lo 1).rf a hi lo = (s.rf a hi lo + 1) % 65536 := by
  rw [State.rf, reg_bump, if_pos rfl, fld_setFld_same _ (by omega) h32, show hi - lo + 1 = 16 by omega]
  rfl

/-- What the counts of a completion of the hash engine change. -/
structure HashCounted (s t : State) (ch : Nat) (status : Byte) : Prop where
  only : RegsOnly s t
  regs : RegsBut [aCHN_STATUS ch, aCHN_COUNT ch, aHSH_COUNT] s t
  channel : t.rf (aCHN_COUNT ch) 31 16 = (s.rf (aCHN_COUNT ch) 31 16 + 1) % 65536
  engine : t.rf aHSH_COUNT 15 0 = (s.rf aHSH_COUNT 15 0 + 1) % 65536
  state : t.chState ch = s.chState ch
  failures : isFail status = true → t.rf aHSH_COUNT 31 16 = (s.rf aHSH_COUNT 31 16 + 1) % 65536
  last : isFail status = true → status ≠ cCancelled → t.rf (aCHN_STATUS ch) 15 8 = status.toNat

theorem chnStatus_ne_chnCount (m n : Nat) : aCHN_STATUS m ≠ aCHN_COUNT n := by unfold aCHN_STATUS aCHN_COUNT; omega

theorem hshCount_ne_chn {ch : Nat} (hch : ch < 128) : aHSH_COUNT ≠ aCHN_STATUS ch ∧ aHSH_COUNT ≠ aCHN_COUNT ch := by
  unfold aHSH_COUNT aCHN_STATUS aCHN_COUNT
  omega

theorem not_counted_chn {ch : Nat} (hch : ch < 128) : ¬ Counted (aCHN_STATUS ch) ∧ ¬ Counted (aCHN_COUNT ch) := by
  unfold Counted aCHN_STATUS aCHN_COUNT
  omega

theorem not_counted_hshCount : ¬ Counted aHSH_COUNT := by unfold Counted aHSH_COUNT; omega

/-- A failing completion counts its failure in the engine. -/
def countFailure (s : State) (status : Byte) : State :=
  s.onlyIf (isFail status) fun s => (s.bump (countReg engHsh) 31 16 1).evt (engBlock engHsh) 0x04 1

theorem countFailure_counts (s : State) (status : Byte) :
    ∃ t, countFailure s status = t ∧ RegsOnly s t ∧ RegsBut [aHSH_COUNT] s t ∧ t.rf aHSH_COUNT 15 0 = s.rf aHSH_COUNT 15 0 ∧
      (isFail status = true → t.rf aHSH_COUNT 31 16 = (s.rf aHSH_COUNT 31 16 + 1) % 65536) := by
  unfold countFailure
  cases isFail status with
  | false => exact ⟨s, rfl, rfl, fun _ _ _ => rfl, rfl, fun h => nomatch h⟩
  | true =>
    have hv := rf_bump_half s aHSH_COUNT (hi := 31) (lo := 16) rfl (by omega)
    have hlow : (s.bump aHSH_COUNT 31 16 1).rf aHSH_COUNT 15 0 = s.rf aHSH_COUNT 15 0 := by
      rw [State.rf, reg_bump, if_pos rfl, fld_setFld_below _ (by omega) (by omega) (by omega) (by omega)]; rfl
    have hb : RegsOnly s (s.bump aHSH_COUNT 31 16 1) := regsOnly_setReg ..
    have hr : RegsBut [aHSH_COUNT] s (s.bump aHSH_COUNT 31 16 1) := regsBut_bump s (by simp) 31 16 1
    show ∃ t, (s.bump aHSH_COUNT 31 16 1).evt (engBlock engHsh) 0x04 1 = t ∧ _
    generalize s.bump aHSH_COUNT 31 16 1 = v at *
    have he := regsBut_evt v [] (b := engBlock engHsh) (by decide) 0x04 1
    refine ⟨_, rfl, RegsOnly.trans hb (regsOnly_evt ..), RegsBut.trans hr (RegsBut.mono he (by simp)), ?_, fun _ => ?_⟩
    · rw [rf_of_regsBut he (by simp) not_counted_hshCount, hlow]
    · rw [rf_of_regsBut he (by simp) not_counted_hshCount, hv]

/-- A failing completion that is no cancellation leaves its status as the channel's last failure. -/
def keepFailure (s : State) (ch : Nat) (status : Byte) : State :=
  s.onlyIf (isFail status && decide (status ≠ cCancelled)) fun s => s.srf (aCHN_STATUS ch) 15 8 status.toNat

theorem keepFailure_keeps (s : State) (ch : Nat) (status : Byte) :
    ∃ t, keepFailure s ch status = t ∧ RegsOnly s t ∧ RegsBut [aCHN_STATUS ch] s t ∧ t.chState ch = s.chState ch ∧
      (isFail status = true → status ≠ cCancelled → t.rf (aCHN_STATUS ch) 15 8 = status.toNat) := by
  unfold keepFailure
  cases h : isFail status && decide (status ≠ cCancelled) with
  | false =>
    refine ⟨s, rfl, rfl, fun _ _ _ => rfl, rfl, fun hf hc => ?_⟩
    rw [hf, decide_eq_true hc] at h
    exact nomatch h
  | true =>
    refine ⟨s.srf (aCHN_STATUS ch) 15 8 status.toNat, rfl, regsOnly_setReg .., regsBut_setReg s (by simp) _, ?_, fun _ _ => ?_⟩
    · exact rf_srf_ne s _ _ (by omega) (by omega) (by omega) (by omega)
    · rw [rf_srf_same s _ _ (by omega) (by omega)]
      exact Nat.mod_eq_of_lt status.isLt

/-- The counts of a completion of the hash engine, in their order. -/
theorem completionCounts_eq (s : State) (ch : Nat) (status : Byte) {u : State}
    (hu : (s.bump (aCHN_COUNT ch) 31 16 1).srf (aCHN_STATUS ch) 20 16 ((s.bump (aCHN_COUNT ch) 31 16 1).chJobs ch - 1) = u) :
    completionCounts s ch engHsh status =
      keepFailure (countFailure ((u.bump aHSH_COUNT 15 0 1).evt (engBlock engHsh) 0x03 1) status) ch status := by
  rw [← hu]; rfl

theorem hashCounted (s : State) {ch : Nat} (hch : ch < 128) (status : Byte) :
    HashCounted s (completionCounts s ch engHsh status) ch status := by
  obtain ⟨hne1, hne2⟩ := hshCount_ne_chn hch
  obtain ⟨hc1, hc2⟩ := not_counted_chn hch
  have hne := chnStatus_ne_chnCount ch ch
  have hch2 := hne.symm
  rw [completionCounts_eq s ch status rfl]
  have h1 : RegsBut [aCHN_COUNT ch] s (s.bump (aCHN_COUNT ch) 31 16 1) := regsBut_bump s (by simp) 31 16 1
  have v1 := rf_bump_half s (aCHN_COUNT ch) (hi := 31) (lo := 16) rfl (by omega)
  have o1 : RegsOnly s (s.bump (aCHN_COUNT ch) 31 16 1) := regsOnly_setReg ..
  generalize s.bump (aCHN_COUNT ch) 31 16 1 = s1 at *
  have h2 : RegsBut [aCHN_STATUS ch] s1 (s1.srf (aCHN_STATUS ch) 20 16 (s1.chJobs ch - 1)) := regsBut_setReg s1 (by simp) _
  have v2 : (s1.srf (aCHN_STATUS ch) 20 16 (s1.chJobs ch - 1)).chState ch = s1.chState ch :=
    rf_srf_ne s1 _ _ (by omega) (by omega) (by omega) (by omega)
  have o2 : RegsOnly s1 (s1.srf (aCHN_STATUS ch) 20 16 (s1.chJobs ch - 1)) := regsOnly_setReg ..
  generalize s1.srf (aCHN_STATUS ch) 20 16 (s1.chJobs ch - 1) = s2 at *
  have h3 : RegsBut [aHSH_COUNT] s2 (s2.bump aHSH_COUNT 15 0 1) := regsBut_bump s2 (by simp) 15 0 1
  have v3 := rf_bump_half s2 aHSH_COUNT (hi := 15) (lo := 0) rfl (by omega)
  have w3 : (s2.bump aHSH_COUNT 15 0 1).rf aHSH_COUNT 31 16 = s2.rf aHSH_COUNT 31 16 := by
    rw [State.rf, reg_bump, if_pos rfl, fld_setFld_above _ (by omega) (by omega) (by omega)]; rfl
  have o3 : RegsOnly s2 (s2.bump aHSH_COUNT 15 0 1) := regsOnly_setReg ..
  generalize s2.bump aHSH_COUNT 15 0 1 = s3 at *
  have h4 := regsBut_evt s3 [] (b := engBlock engHsh) (by decide) 0x03 1
  have o4 := regsOnly_evt s3 (engBlock engHsh) 0x03 1
  generalize s3.evt (engBlock engHsh) 0x03 1 = s4 at *
  obtain ⟨s5, e5, o5, h5, v5, w5⟩ := countFailure_counts s4 status
  obtain ⟨s6, e6, o6, h6, v6, w6⟩ := keepFailure_keeps s5 ch status
  rw [e5, e6]
  have hstatusNot : aCHN_STATUS ch ∉ [aHSH_COUNT] := by simpa using hne1.symm
  have hcountNot : aCHN_COUNT ch ∉ [aHSH_COUNT] := by simpa using hne2.symm
  have hhash {t : State} {u : State} (h : RegsBut [aCHN_STATUS ch] t u) (hi lo : Nat) : u.rf aHSH_COUNT hi lo = t.rf aHSH_COUNT hi lo :=
    rf_of_regsBut h (by simpa using hne1) not_counted_hshCount hi lo
  refine ⟨?_, ?_, ?_, ?_, ?_, fun hf => ?_, w6⟩
  · exact RegsOnly.trans o1 (RegsOnly.trans o2 (RegsOnly.trans o3 (RegsOnly.trans o4 (RegsOnly.trans o5 o6))))
  · exact RegsBut.trans (RegsBut.mono h1 (by simp)) (RegsBut.trans (RegsBut.mono h2 (by simp)) (RegsBut.trans (RegsBut.mono h3 (by simp))
      (RegsBut.trans (RegsBut.mono h4 (by simp)) (RegsBut.trans (RegsBut.mono h5 (by simp)) (RegsBut.mono h6 (by simp))))))
  · rw [rf_of_regsBut h6 (by simpa using hch2) hc2, rf_of_regsBut h5 hcountNot hc2, rf_of_regsBut h4 (by simp) hc2,
      rf_of_regsBut h3 hcountNot hc2, rf_of_regsBut h2 (by simpa using hch2) hc2, v1]
  · rw [hhash h6, v5, rf_of_regsBut h4 (by simp) not_counted_hshCount, v3, hhash h2,
      rf_of_regsBut h1 (by simpa using hne2) not_counted_hshCount]
  · rw [v6]
    exact (rf_of_regsBut h5 hstatusNot hc1 1 0).trans ((rf_of_regsBut h4 (by simp) hc1 1 0).trans
      ((rf_of_regsBut h3 hstatusNot hc1 1 0).trans (v2.trans (rf_of_regsBut h1 (by simpa using hne) hc1 1 0))))
  · rw [hhash h6, w5 hf, rf_of_regsBut h4 (by simp) not_counted_hshCount, w3, hhash h2,
      rf_of_regsBut h1 (by simpa using hne2) not_counted_hshCount]

/-! ### The completion of a hash job -/

/-- A completion packet that has reached its queue, or waits, or is rewound, and what is counted. -/
structure HashCompletes (s t : State) (ch : Nat) (status : Byte) : Prop where
  engine : t.eng.hsh = s.eng.hsh
  regs : RegsBut [aCHN_STATUS ch, aCHN_COUNT ch, aHSH_COUNT, aQUE_DROP (s.rf (aCHN_QUEUES ch) 11 8)] s t
  bytes : BytesKept s t
  channel : t.rf (aCHN_COUNT ch) 31 16 = (s.rf (aCHN_COUNT ch) 31 16 + 1) % 65536
  count : t.rf aHSH_COUNT 15 0 = (s.rf aHSH_COUNT 15 0 + 1) % 65536
  failures : isFail status = true → t.rf aHSH_COUNT 31 16 = (s.rf aHSH_COUNT 31 16 + 1) % 65536
  last : isFail status = true → status ≠ cCancelled → t.rf (aCHN_STATUS ch) 15 8 = status.toNat

theorem CommitOnly.bytes {s t : State} (h : CommitOnly s t) : BytesKept s t := by
  unfold CommitOnly at h
  exact bytesKept_of_eq (by rw [h]) (by rw [h])

theorem qOf_dstLane (s : State) {q : Nat} (hq : q < 16) : qOf (s.dstLane q) = q ∧ (s.dstLane q = 10 ↔ q = 10) := by
  unfold State.dstLane qOf
  split <;> split <;> omega

/-- What follows a job of a channel that runs: nothing, where it has no other job. -/
theorem afterJob_none {s : State} {ch : Nat} (hstate : s.chState ch = 1) (failed : Bool)
    (h : failed = true → ∀ p ∈ (s.lane 10).committed, p.src ≠ ch) :
    ∃ t, s.afterJob ch failed = t ∧ t = { s with lanes := t.lanes, eng := { s.eng with bnMixed := t.eng.bnMixed } } ∧
      (failed = false → t.lanes = s.lanes) := by
  unfold State.afterJob
  rw [if_neg (by omega)]
  cases hf : failed && !s.failWaits ch with
  | false => exact ⟨s, rfl, rfl, fun _ => rfl⟩
  | true =>
    have hnone := h (Bool.and_eq_true_iff.1 hf).1
    have hmine : (s.lane 10).committed.filter (fun p => decide (p.src = ch)) = [] := by
      rw [List.filter_eq_nil_iff]
      exact fun p hp heq => hnone p hp (of_decide_eq_true heq)
    refine ⟨s.completeWaiting ch cCancelled, rfl, ?_, fun h => ?_⟩
    · unfold State.completeWaiting
      rw [hmine]; rfl
    · rw [h] at hf
      exact nomatch hf

section
variable {s : State} {ch prio : Nat} {status : Byte} {ws : List Word} (hch : ch < 128) (hstate : s.chState ch = 1)
include hch hstate

/-- The counts and the cancellations that follow the commit of a completion packet. -/
theorem counted_completes {u : State} (hu : CommitOnly s u) {l : List Nat} (hl : l ⊆ [aQUE_DROP (s.rf (aCHN_QUEUES ch) 11 8)])
    (hregs : RegsBut l s u) (hjobs : isFail status = true → ∀ p ∈ (u.lane 10).committed, p.src ≠ ch) :
    ∃ t, (completionCounts u ch engHsh status).afterJob ch (isFail status) = t ∧
      RegsBut ([aCHN_STATUS ch, aCHN_COUNT ch, aHSH_COUNT] ++ l) s t ∧ HashCompletes s t ch status ∧
      (isFail status = false → t.lanes = u.lanes) := by
  obtain ⟨hc1, hc2⟩ := not_counted_chn hch
  have hdrop {a : Nat} (ha : a = aCHN_STATUS ch ∨ a = aCHN_COUNT ch ∨ a = aHSH_COUNT) : a ∉ l := by
    intro h
    have hq : s.rf (aCHN_QUEUES ch) 11 8 < 16 := by unfold State.rf fld; omega
    have := hl h
    rw [List.mem_singleton] at this
    unfold aQUE_DROP aCHN_STATUS aCHN_COUNT aHSH_COUNT at *
    omega
  have hstate' : u.chState ch = 1 := (rf_of_regsBut hregs (hdrop (Or.inl rfl)) hc1 1 0).trans hstate
  obtain ⟨honly, hcregs, hchan, heng, hst, hfail, hlast⟩ := hashCounted u hch status
  generalize completionCounts u ch engHsh status = v at *
  have hlanes : v.lanes = u.lanes := by rw [RegsOnly] at honly; rw [honly]
  have hjobs' : isFail status = true → ∀ p ∈ (v.lane 10).committed, p.src ≠ ch := fun hf => by
    have : v.lane 10 = u.lane 10 := congrArg (tget · 10 laneNil) hlanes
    rw [this]
    exact hjobs hf
  obtain ⟨t, ht, htonly, htlanes⟩ := afterJob_none (hst.trans hstate') (isFail status) hjobs'
  have htregs : t.regs = v.regs := by rw [htonly]
  have hall : RegsBut ([aCHN_STATUS ch, aCHN_COUNT ch, aHSH_COUNT] ++ l) s t :=
    RegsBut.trans (RegsBut.mono hregs (List.subset_append_right ..))
      (RegsBut.trans (RegsBut.mono hcregs (List.subset_append_left ..)) (regsBut_of_regs htregs _))
  refine ⟨t, ht, hall, ⟨?_, ?_, ?_, ?_, ?_, fun hf => ?_, fun hf hc => ?_⟩, fun hf => ?_⟩
  · rw [RegsOnly] at honly
    rw [htonly, honly]
    unfold CommitOnly at hu
    rw [hu]
  · exact RegsBut.mono hall (List.append_subset.2 ⟨by simp, fun a ha => List.mem_append_right [_, _, _] (hl ha)⟩)
  · rw [RegsOnly] at honly
    refine BytesKept.trans hu.bytes (bytesKept_of_eq ?_ ?_)
    · rw [htonly, honly]
    · rw [htonly, honly]
  · rw [rf_congr htregs, hchan, rf_of_regsBut hregs (hdrop (Or.inr (Or.inl rfl))) hc2]
  · rw [rf_congr htregs, heng, rf_of_regsBut hregs (hdrop (Or.inr (Or.inr rfl))) not_counted_hshCount]
  · rw [rf_congr htregs, hfail hf, rf_of_regsBut hregs (hdrop (Or.inr (Or.inr rfl))) not_counted_hshCount]
  · rw [rf_congr htregs, hlast hf hc]
  · exact (htlanes hf).trans hlanes

/-- The completion of a job that delivers nothing, or of one that failed and was the channel's only one. -/
theorem completes_any (hq : s.rf (aCHN_QUEUES ch) 11 8 ≠ 10)
    (hjobs : isFail status = true → ∀ p ∈ (s.lane 10).committed, p.src ≠ ch) :
    ∃ t, s.completeJob ch prio engHsh status ws = t ∧ HashCompletes s t ch status := by
  have hq16 : s.rf (aCHN_QUEUES ch) 11 8 < 16 := by unfold State.rf fld; omega
  obtain ⟨hqof, hten⟩ := qOf_dstLane s hq16
  have hne : s.dstLane (s.rf (aCHN_QUEUES ch) 11 8) ≠ 10 := fun h => hq (hten.1 h)
  obtain ⟨hu, hregs, hlane⟩ := waitCommit_frame s (wordsPacket prio ch ws) hne (by rw [hqof]; exact hq16)
  rw [hqof] at hregs
  obtain ⟨t, ht, -, hc, -⟩ := counted_completes hch hstate hu (List.Subset.refl _) hregs (status := status)
    fun hf => by rw [hlane 10 hne.symm]; exact hjobs hf
  exact ⟨t, (congrArg (State.afterJob · ch (isFail status)) (completeOne_eq s ch prio engHsh status ws)).trans ht, hc⟩

end

/-! ### Settling O38 -/

/-- What the end of a job changes beside its completion: engines, contexts and eNVM. -/
def EndsOnly (s t : State) : Prop := t = { s with eng := t.eng, envm := t.envm }

theorem EndsOnly.trans {s t u : State} (h : EndsOnly s t) (h' : EndsOnly t u) : EndsOnly s u := by
  unfold EndsOnly at *
  rw [h', h]

theorem EndsOnly.view {β : Sort*} {s t : State} (h : EndsOnly s t) (f : State → β)
    (hf : ∀ (s : State) e v, f { s with eng := e, envm := v } = f s) : f t = f s := by
  unfold EndsOnly at h
  rw [h]; exact hf ..

/-- The contexts and the indices of a job that ends; the engine's jobs, and the packets that wait, stay. -/
def EndsJob (s t : State) : Prop := EndsOnly s t ∧ t.eng.hsh = s.eng.hsh ∧ t.eng.waiting = s.eng.waiting

theorem EndsJob.trans {s t u : State} (h : EndsJob s t) (h' : EndsJob t u) : EndsJob s u :=
  ⟨h.1.trans h'.1, h'.2.1.trans h.2.1, h'.2.2.trans h.2.2⟩

theorem spongeFail_ends (s : State) (w : Word) (status : Byte) : EndsJob s (s.spongeFail w status) := by
  unfold State.spongeFail
  split_ifs <;> exact ⟨rfl, rfl, rfl⟩

theorem hSkip_ends (s : State) (r : Run) : EndsJob s (s.hSkip r) := by
  unfold State.hSkip
  cases hX r.desc && decide (hXop r.desc = 2) <;> exact ⟨rfl, rfl, rfl⟩

theorem hCommit_ends (s : State) (r : Run) : EndsJob s (hCommit s r) := by
  unfold hCommit
  cases r.save with
  | none => split_ifs <;> exact ⟨rfl, rfl, rfl⟩
  | some x => split_ifs <;> exact ⟨rfl, rfl, rfl⟩

/-- The hash engine without a job. -/
def hashFree (s : State) : State := { s with eng := { s.eng with hsh := none } }

section
variable {s : State} {r : Run} {mismatch : Bool} (hr : s.eng.hsh = some r) (hm : (mismatch && redundant r.tclass) = false)
include hr hm

theorem hFinish_fails (hf : isFail r.status = true) :
    ∃ v ws, EndsJob (hashFree s) v ∧ hFinish s mismatch = v.completeJob r.chan r.prio engHsh r.status ws := by
  refine ⟨_, hWords r r.status 0 (w32 r.cycles), (hSkip_ends (hashFree s) r).trans (spongeFail_ends _ (wordAt r.desc 0) r.status), ?_⟩
  unfold hFinish
  rw [hr]
  dsimp only
  rw [if_neg (by rw [← Bool.and_eq_true, hm]; decide), if_pos hf]
  rfl

theorem hFinish_ends {t : State} {seq : Nat} (hf : isFail r.status = false) (hseeded : hUnseeded r = false)
    (hdest : ∀ w, r.dest ≠ .opmem w) (hdel : s.deliver r = some (r.status, seq, t)) :
    ∃ v, EndsJob (hashFree t) v ∧
      hFinish s mismatch = v.completeJob r.chan r.prio engHsh r.status (hWords r r.status seq (w32 r.cycles)) := by
  refine ⟨_, (hCommit_ends (hashFree t) r).trans (spongeFail_ends _ (wordAt r.desc 0) r.status), ?_⟩
  unfold hFinish
  rw [hr]
  dsimp only
  rw [if_neg (by rw [← Bool.and_eq_true, hm]; decide), if_neg (by rw [hf]; decide), if_neg (by rw [hseeded]; decide), hdel]
  dsimp only
  cases hd : r.dest with
  | opmem w => exact absurd hd (hdest w)
  | none => rfl
  | lost => rfl
  | queue n => rfl
  | static k off => rfl
  | session n off => rfl
  | ranging n off => rfl

end

/-- A queue other than Q8, Q10 and the mailboxes, with room, takes the packet of a hardware writer. -/
theorem waitCommit_plain {s : State} {n : Nat} {p : Packet} (h8 : n ≠ 8) (h10 : n ≠ 10) (h14 : n ≠ 14) (h15 : n ≠ 15)
    (hheld : s.heldBack n = 0) (hwaits : s.laneWaits n = false) (hroom : p.items.length ≤ s.room n) (hopen : s.openCount n < 8) :
    Committed s (s.waitCommit n p) n p := by
  have hok : s.hwOk n p = true := by
    unfold State.hwOk commitOk
    dsimp only
    rw [if_neg h10, if_neg (by simp [h14, h15]), if_neg h8]
  have hcan : s.hwRoom n p = true := by
    unfold State.hwRoom
    rw [hheld]
    exact decide_eq_true ⟨hroom, hopen⟩
  have hcommit : s.hwCommit n p = some ((s.commit n p).evt 0x10 0x12 p.items.length) := by
    unfold State.hwCommit
    rw [if_pos hcan, jobAccepted_other h10 h15]
  unfold State.waitCommit
  rw [if_pos hok, hwaits, if_neg (by decide), hcommit]
  exact committed_commit ..

theorem Committed.commitOnly {s t : State} {n : Nat} {p : Packet} (h : Committed s t n p) : CommitOnly s t := by
  unfold CommitOnly
  rw [h.only]

/-- The room of a lane that the symmetric engine reserves nothing in. -/
theorem room_lane {s t : State} {n : Nat} (hn : n ≠ 12) (hcfg : t.reg (aQUE_CFG (qOf n)) = s.reg (aQUE_CFG (qOf n)))
    (hlane : t.lane n = s.lane n) : t.room n = s.room n := by
  unfold State.room State.capacity State.reservedItems
  rw [hcfg, hlane, if_neg hn, if_neg hn]

theorem openCount_lane (s : State) {n : Nat} (hn : n ≠ 12) : s.openCount n = (s.lane n).opens.length := by
  unfold State.openCount
  cases s.eng.aes with
  | none => rfl
  | some r => dsimp only; rw [decide_eq_false (fun h => hn h.1)]; rfl

theorem EndsJob.bytes {s t : State} (h : EndsJob s t) : BytesKept s t :=
  bytesKept_of_eq (h.1.view (·.mem) fun _ _ _ => rfl) (h.1.view (·.flash) fun _ _ _ => rfl)

/-- A completion from a state whose registers and bytes are as before. -/
theorem HashCompletes.settles {s v t : State} {ch : Nat} {status : Byte} (h : HashCompletes v t ch status) (hregs : RegsBut [] s v)
    (hbytes : BytesKept s v) (hfree : v.eng.hsh = none) (hch : ch < 128) :
    t.eng.hsh = none ∧ t.rf (aCHN_COUNT ch) 31 16 = (s.rf (aCHN_COUNT ch) 31 16 + 1) % 65536 ∧
      t.rf aHSH_COUNT 15 0 = (s.rf aHSH_COUNT 15 0 + 1) % 65536 ∧
      (isFail status = true → t.rf aHSH_COUNT 31 16 = (s.rf aHSH_COUNT 31 16 + 1) % 65536) ∧
      RegsBut [aCHN_STATUS ch, aCHN_COUNT ch, aHSH_COUNT, aQUE_DROP (s.rf (aCHN_QUEUES ch) 11 8)] s t ∧ BytesKept s t := by
  have hqueues : v.rf (aCHN_QUEUES ch) 11 8 = s.rf (aCHN_QUEUES ch) 11 8 :=
    rf_of_regsBut hregs (by simp) (by unfold Counted aCHN_QUEUES; omega) 11 8
  refine ⟨h.engine.trans hfree, ?_, ?_, fun hf => ?_, ?_, BytesKept.trans hbytes h.bytes⟩
  · rw [h.channel, rf_of_regsBut hregs (by simp) (not_counted_chn hch).2]
  · rw [h.count, rf_of_regsBut hregs (by simp) not_counted_hshCount]
  · rw [h.failures hf, rf_of_regsBut hregs (by simp) not_counted_hshCount]
  · rw [← hqueues]
    exact RegsBut.trans (RegsBut.mono hregs (by simp)) h.regs

theorem hashFree_ends {s v : State} (h : EndsJob (hashFree s) v) : v.regs = s.regs ∧ v.lanes = s.lanes ∧ v.eng.hsh = none ∧ BytesKept s v :=
  ⟨h.1.view (·.regs) fun _ _ _ => rfl, h.1.view (·.lanes) fun _ _ _ => rfl, h.2.1, h.bytes⟩

section
variable {s : State} {r : Run} {mismatch : Bool} (hch : r.chan < 128) (hstate : s.chState r.chan = 1)
include hch hstate

/-- A job without an output to deliver, or one that failed and was its channel's only one. -/
theorem hFinish_completes {s' v : State} {ws : List Word} (hq : s.rf (aCHN_QUEUES r.chan) 11 8 ≠ 10) (hs : s' = s)
    (hv : EndsJob (hashFree s') v) (hend : hFinish s mismatch = v.completeJob r.chan r.prio engHsh r.status ws)
    (hjobs : isFail r.status = true → ∀ p ∈ (s.lane 10).committed, p.src ≠ r.chan) :
    ∃ t, exec (.hshJobCompletion mismatch) s = .next t ∧ HashCompletes v t r.chan r.status ∧ RegsBut [] s v ∧ BytesKept s v ∧
      v.eng.hsh = none := by
  subst hs
  obtain ⟨hregs, hlanes, hfree, hbytes⟩ := hashFree_ends hv
  obtain ⟨t, ht, hc⟩ := completes_any (s := v) (prio := r.prio) (ws := ws) (status := r.status) hch
    ((rf_congr hregs _ _ _).trans hstate) (by rw [rf_congr hregs]; exact hq)
    (fun hf => by
      have : v.lane 10 = s'.lane 10 := congrArg (tget · 10 laneNil) hlanes
      rw [this]; exact hjobs hf)
  exact ⟨t, congrArg done (hend.trans ht), hc, regsBut_of_regs hregs _, hbytes, hfree⟩

/-- A job whose output goes to a queue. -/
theorem hFinish_delivers {n q : Nat} (hr : s.eng.hsh = some r) (hm : (mismatch && redundant r.tclass) = false) (hseeded : hUnseeded r = false) (hf : isFail r.status = false) (hdest : r.dest = .queue n)
    (hn : n < 8) (hq : q = s.rf (aCHN_QUEUES r.chan) 11 8) (hq8 : q < 8 ∨ q = 11) (hne : q ≠ n) (hrel : s.rel.pending = false)
    (hwaits : s.laneWaits q = false) (hroom : max 1 ((r.out.length + 3) / 4) ≤ s.room n) (hopen : s.openCount n < 8)
    (hroomq : 4 ≤ s.room q) (hopenq : s.openCount q < 8) :
    ∃ t, exec (.hshJobCompletion mismatch) s = .next t ∧ t.eng.hsh = none ∧
      ((t.lane n).committed.getLast?).map packetBytes = some r.out ∧
      ((t.lane q).committed.getLast?).map packetWords = some (hWords r r.status (s.nextSeq n) (w32 r.cycles)) ∧
      t.rf (aCHN_COUNT r.chan) 31 16 = (s.rf (aCHN_COUNT r.chan) 31 16 + 1) % 65536 ∧
      t.rf aHSH_COUNT 15 0 = (s.rf aHSH_COUNT 15 0 + 1) % 65536 ∧
      RegsBut [aCHN_STATUS r.chan, aCHN_COUNT r.chan, aHSH_COUNT] s t ∧ BytesKept s t := by
  obtain ⟨u, hu, hcommit⟩ := hwCommit_room (s := s) (p := bytesPacket r.prio r.chan r.out) hn (heldBack_none hrel n)
    (by rw [items_bytesPacket]; exact hroom) hopen
  have hdel : s.deliver r = some (r.status, s.nextSeq n, u) := by
    unfold State.deliver
    rw [hdest]
    dsimp only
    rw [hwOk_low hn, if_pos rfl, hu]; rfl
  obtain ⟨v, hv, hend⟩ := hFinish_ends hr hm hf hseeded (fun w h => by rw [hdest] at h; cases h) hdel
  obtain ⟨hregs, hlanes, hfree, hbytes⟩ := hashFree_ends hv
  have hsv : RegsBut [] s v := RegsBut.trans hcommit.regs (regsBut_of_regs hregs _)
  have hrf {a : Nat} (ha : ¬ Counted a) (hi lo : Nat) : v.rf a hi lo = s.rf a hi lo := rf_of_regsBut hsv (by simp) ha hi lo
  have hq' : v.rf (aCHN_QUEUES r.chan) 11 8 = q := (hrf (by unfold Counted aCHN_QUEUES; omega) _ _).trans hq.symm
  have hdst : v.dstLane q = q := if_neg (by omega)
  have hlaneq : v.lane q = s.lane q := (congrArg (tget · q laneNil) hlanes).trans (hcommit.lane_ne hne)
  have hqof : qOf q = q := if_neg (by omega)
  have hcfg : v.reg (aQUE_CFG (qOf q)) = s.reg (aQUE_CFG (qOf q)) :=
    hsv _ (by simp) (by rw [hqof]; unfold Counted aQUE_CFG; omega)
  have hheld : v.heldBack q = 0 := by
    have : v.rel = s.rel := (hv.1.view (·.rel) fun _ _ _ => rfl).trans (by rw [show (hashFree u).rel = u.rel from rfl, hcommit.only])
    exact heldBack_none (by rw [this]; exact hrel) q
  have hwaits' : v.laneWaits q = false := by
    have : v.eng.waiting = s.eng.waiting := hv.2.2.trans (by rw [show (hashFree u).eng.waiting = u.eng.waiting from rfl, hcommit.only])
    unfold State.laneWaits
    rw [this]; exact hwaits
  have hws : hWords r r.status (s.nextSeq n) (w32 r.cycles) ≠ [] := by unfold hWords; simp
  have hcpl := waitCommit_plain (s := v) (p := wordsPacket r.prio r.chan (hWords r r.status (s.nextSeq n) (w32 r.cycles)))
    (show q ≠ 8 by omega) (by omega) (by omega) (by omega) hheld hwaits'
    (by rw [length_wordsPacket hws, room_lane (by omega) hcfg hlaneq]; exact hroomq)
    (by rw [openCount_lane v (by omega), hlaneq, ← openCount_lane s (by omega)]; exact hopenq)
  obtain ⟨t, ht, hregs', hc, htlanes⟩ := counted_completes (s := v) (status := r.status) hch
    ((hrf (not_counted_chn hch).1 1 0).trans hstate) hcpl.commitOnly (l := []) (by simp) hcpl.regs (fun h => by rw [hf] at h; cases h)
  have hbytes' : BytesKept s v := BytesKept.trans hcommit.bytes hbytes
  obtain ⟨hfree', hchan, hcount, -, -, htbytes⟩ := hc.settles hsv hbytes' hfree hch
  have hcomplete : v.completeJob r.chan r.prio engHsh r.status (hWords r r.status (s.nextSeq n) (w32 r.cycles)) = t := by
    rw [State.completeJob, completeOne_eq, hq', hdst, ht]
  have hlane (k : Nat) : t.lane k = (v.waitCommit q (wordsPacket r.prio r.chan (hWords r r.status (s.nextSeq n) (w32 r.cycles)))).lane k :=
    congrArg (tget · k laneNil) (htlanes hf)
  refine ⟨t, congrArg done (hend.trans hcomplete), hfree', ?_, ?_, hchan, hcount,
    RegsBut.trans (RegsBut.mono hsv (by simp)) hregs', htbytes⟩
  · have : v.lane n = u.lane n := congrArg (tget · n laneNil) hlanes
    rw [hlane, hcpl.lane_ne (Ne.symm hne), this, hcommit.newest, Option.map_some, packetBytes_stamped, packetBytes_bytesPacket]
  · rw [hlane, hcpl.newestWords, packetWords_wordsPacket hws]

end

/-- Settles O38: the end of a hash job frees the engine, and counts, with its completion in the channel's queue. -/
theorem hashJobsComplete : Obligations.HashJobsComplete := by
  unfold Obligations.HashJobsComplete
  refine ⟨fun s mismatch r hr hm hf hseeded hdest hch hstate hq => ?quiet,
    fun s mismatch r n q hr hm hseeded hf hdest hn hq hq8 hne hrel hwaits hroom hopen hroomq hopenq hch hstate _ =>
      hFinish_delivers hch hstate hr hm hseeded hf hdest hn hq hq8 hne hrel hwaits hroom hopen hroomq hopenq,
    fun s mismatch r hr hm hf hcancel hjobs hch hstate hq => ?fails⟩
  case quiet =>
    obtain ⟨v, hv, hend⟩ := hFinish_ends (t := s) (seq := 0) hr hm hf hseeded (fun w h => by rw [hdest] at h; cases h)
      (by unfold State.deliver; rw [hdest])
    obtain ⟨t, ht, hc, hregs, hbytes, hfree⟩ := hFinish_completes hch hstate hq rfl hv hend (fun h => by rw [hf] at h; cases h)
    obtain ⟨hfree', hchan, hcount, -, hrest⟩ := hc.settles hregs hbytes hfree hch
    exact ⟨t, ht, hfree', hchan, hcount, hrest⟩
  case fails =>
    obtain ⟨v, ws, hv, hend⟩ := hFinish_fails hr hm hf
    obtain ⟨t, ht, hc, hregs, hbytes, hfree⟩ := hFinish_completes hch hstate hq rfl hv hend
      (fun _ p hp => of_decide_eq_true (List.all_eq_true.1 hjobs p hp))
    obtain ⟨hfree', hchan, hcount, hfailures, hrest⟩ := hc.settles hregs hbytes hfree hch
    exact ⟨t, ht, hfree', hchan, hcount, hfailures hf, hc.last hf hcancel, hrest⟩

end Proofs
end Sys2Proof

/-! PROOFS. The tag block's activation (R164, R165, R168, R169, R179). -/
namespace Sys2Proof
namespace Proofs

open Sys2Proof.Machine Sys2Proof.Safety Sys2Proof.Laws

/-- A change of the tag's own state is nothing else's. -/
theorem onlyTag_modTag (s : State) (f : Tag → Tag) : OnlyTag s (s.modTag f) := ⟨rfl, rfl, rfl, bytesKept_of_eq rfl rfl⟩

section
variable {s : State}

/-- A ready tag that is neither active nor selected answers a request with the ATQA, after the delay of its last bit. -/
theorem tagRequest_answers (h : s.tagHears = true) (hactive : s.tag.active = false) (hpicked : s.tag.picked = false) (last : Bool) :
    tagRequest last s = s.tagSay [0x04, 0x00] (frameDelay last) := by
  unfold tagRequest
  rw [if_neg (by rw [h, hactive]; decide), if_neg (by rw [hpicked]; decide)]

theorem tagAnticollide_answers (h : s.tagHears = true) (hactive : s.tag.active = false) (hpicked : s.tag.picked = false) {n : Nat}
    {b : Bytes} (hn : n < 40)
    (hmatch : ((List.range n).all fun i => strBit b i == strBit (s.tag.uid ++ [bccOf s.tag.uid]) i) = true) :
    tagAnticollide n b s = s.tagSay (bitsFrom (s.tag.uid ++ [bccOf s.tag.uid]) n) (frameDelay (antiLastBit n b)) := by
  unfold tagAnticollide
  dsimp only
  rw [if_neg (by rw [h, hactive, hpicked]; simp; exact hn), if_pos hmatch]

theorem tagSelected_answers (h : s.tagHears = true) (hactive : s.tag.active = false) :
    ∃ k, tagSelected s.tag.uid s = (s.modTag fun t => { t with picked := true }).tagSay [0x20] k := by
  exact ⟨_, (if_neg (by rw [h, hactive]; decide)).trans (if_pos rfl)⟩

theorem tagRats_answers (h : s.tagHears = true) (hactive : s.tag.active = false) (hpicked : s.tag.picked = true) :
    tagRats s = (s.modTag fun t => { t with active := true }).tagSay [0x05, 0x78, 0x00, by8 (s.fwi * 16), 0x00] 0 := by
  unfold tagRats
  rw [if_pos ⟨h, hpicked, hactive⟩]

theorem active_of_tagTakes (h : s.tagTakes = true) : s.tag.active = true := by
  unfold State.tagTakes at h
  simp only [Bool.and_eq_true] at h
  exact h.1.2

/-- A lost field forgets the selection; without a shadowed write nothing is torn. -/
theorem fieldLost_forgets (hfield : s.tag.field = true) (hshadows : s.tag.shadows = []) :
    ∃ f, fieldLost s = s.modTag f ∧ (f s.tag).field = false ∧ (f s.tag).ready = false ∧ (f s.tag).active = false ∧
      (f s.tag).selected = false ∧ (f s.tag).authEntry = none := by
  have hnone : s.each s.tag.shadows (fun s x => s.tear x.1) = s := by rw [hshadows]; rfl
  have hlost : fieldLost s = s.endSelection.modTag fun t =>
      { t with field := false, ready := false, uid := [], j := 0, picked := false, active := false, shadows := [],
               pendingAnswer := false, fwdStale := t.fwdStale + b2n t.fwdWait, fwdWait := false, unlockWait := false,
               isackWait := false, authTried := false, answer := [], delayFc := 0, fieldWaits := none } := by
    unfold fieldLost
    rw [if_neg (by rw [hfield]; decide)]
    dsimp only
    rw [hnone]
  exact ⟨fun _ => (fieldLost s).tag, by rw [hlost]; rfl, by rw [hlost]; exact ⟨rfl, rfl, rfl, rfl, rfl⟩⟩

/-! ### The island's start -/

/-- The first challenge of a presence. -/
theorem challenge_given (s : State) (j : Nat) :
    ∃ b k, s.challenge j = (b, { s with freeCtr := k }) ∧
      ∀ key, s.envm.kis = some key → b = aesEnc key (toLE 4 s.tag.c.toNat ++ [by8 j] ++ zeros 11) := by
  unfold State.challenge
  cases h : s.envm.kis with
  | some key => exact ⟨_, s.freeCtr, rfl, fun _ hk => by rw [Option.some.inj hk]⟩
  | none => exact ⟨_, _, rfl, fun _ hk => nomatch hk⟩

theorem islandReady_starts (hfield : s.tag.field = true) (hready : s.tag.ready = false) (hlimit : s.counter 47 ≠ 0xFFFFFFFF)
    (hlog : s.envm.logHeld = none) :
    ∃ t, islandReady s = t ∧ t.tag.ready = true ∧ t.tag.c = s.counter 47 + 1 ∧ t.counter 47 = s.counter 47 + 1 ∧
      t.tag.uid.head? = some 0x08 ∧
      (∀ k, s.envm.kis = some k →
        t.tag.uid = 0x08 :: (aesEnc k (toLE 4 (s.counter 47 + 1).toNat ++ [by8 0] ++ zeros 11)).take 3) ∧
      t.regs = s.regs ∧ t.lanes = s.lanes ∧ BytesKept s t := by
  have hcount : s.incCounter 47 = some (s.setCounter 47 (s.counter 47 + 1)) := if_neg hlimit
  have hnew : (s.setCounter 47 (s.counter 47 + 1)).counter 47 = s.counter 47 + 1 := by
    exact tget_tset_same ..
  generalize hu : s.setCounter 47 (s.counter 47 + 1) = u at *
  obtain ⟨b, k, hb, hkey⟩ := challenge_given (u.modTag fun t => { t with c := u.counter 47 }) 0
  have hend : islandReady s = State.modTag { u.modTag (fun t => { t with c := u.counter 47 }) with freeCtr := k }
      fun t => { t with ready := true, uid := 0x08 :: b.take 3, j := 1 } := by
    unfold islandReady
    rw [if_neg (by rw [hfield, hready]; decide), hlog]
    dsimp only
    rw [hcount]
    dsimp only
    rw [hb]
  refine ⟨_, hend, rfl, hnew, hnew, rfl, fun key hk => ?_, ?_, ?_, ?_⟩
  · have : b = aesEnc key (toLE 4 (u.counter 47).toNat ++ [by8 0] ++ zeros 11) := hkey key (by rw [← hk, ← hu]; rfl)
    rw [hnew] at this
    rw [← this]; rfl
  · rw [← hu]; rfl
  · rw [← hu]; rfl
  · rw [← hu]; exact bytesKept_of_eq rfl rfl

end

/-- Settles O22: the tag answers each step of its activation. -/
theorem tagActivation : Obligations.TagActivation := by
  unfold Obligations.TagActivation
  refine ⟨fun s hfield hcfg hlcs => ?present, fun s hfield hready hlimit hlog => ?ready, fun s hfield hshadows => ?lost,
    fun s h hactive hpicked => ?reqa, fun s h hactive hpicked => ?wupa, fun s n b h hactive hpicked hn hmatch => ?anticollision,
    fun s h hactive => ?select, fun s h hactive hpicked => ?rats, fun s h => ?pps⟩
  case present =>
    have hnotes : fieldPresent s = s.modTag fun t => { t with field := true, ready := false, authTried := false, wtxSent := 0, answer := [] } :=
      if_neg (by rw [hfield]; simp [hcfg, hlcs])
    exact ⟨_, congrArg done hnotes, rfl, rfl, rfl, onlyTag_modTag ..⟩
  case ready =>
    obtain ⟨t, ht, hrest⟩ := islandReady_starts hfield hready hlimit hlog
    exact ⟨t, congrArg done ht, hrest⟩
  case lost =>
    obtain ⟨f, hf, h1, h2, h3, h4, h5⟩ := fieldLost_forgets hfield hshadows
    exact ⟨_, congrArg done hf, h1, h2, h3, h4, h5, rfl, onlyTag_modTag ..⟩
  case reqa => exact ⟨_, congrArg done (tagRequest_answers h hactive hpicked false), rfl, rfl, onlyTag_modTag ..⟩
  case wupa => exact ⟨_, congrArg done (tagRequest_answers h hactive hpicked true), rfl, rfl, onlyTag_modTag ..⟩
  case anticollision =>
    refine ⟨_, congrArg done (tagAnticollide_answers h hactive hpicked hn hmatch), rfl, ?_, hpicked, rfl, onlyTag_modTag ..⟩
    show frameDelay _ = 1172 ∨ frameDelay _ = 1236
    cases antiLastBit n b
    · exact Or.inl rfl
    · exact Or.inr rfl
  case select =>
    obtain ⟨k, hk⟩ := tagSelected_answers h hactive
    exact ⟨_, congrArg done hk, rfl, rfl, rfl, rfl, rfl, rfl, bytesKept_of_eq rfl rfl⟩
  case rats =>
    exact ⟨_, congrArg done (tagRats_answers h hactive hpicked), rfl, rfl, rfl, rfl, rfl, rfl, bytesKept_of_eq rfl rfl⟩
  case pps =>
    have hpps : tagPps 0 0 s = s.tagSay [0xD0] 0 := if_pos h
    exact ⟨_, congrArg done hpps, rfl, active_of_tagTakes (s := s) h, rfl, onlyTag_modTag s _⟩

end Proofs
end Sys2Proof

/-! PROOFS. An APDU that is forwarded to Q10 (R104, R167, R399): a state that refutes O23. Q10 judges it as a job. -/
namespace Sys2Proof
namespace Proofs

open Sys2Proof.Machine Sys2Proof.Safety Sys2Proof.Laws

/-- Channel 5 of the NFC tag block sends to Q10, and the tag role is active with forwarding on. -/
def forwardsToQ10 : State :=
  { ((resultsToQ10.srf (aCHN_BIND 5) 3 0 4).setReg aTAG_CFG 0x308) with
    tag := { Tag.reset with field := true, ready := true, active := true }
    envm := { State.reset.envm with lcs := 2, islandCfg := some [] } }

theorem forwards_forwardsToQ10 : forwardsToQ10.tagTakes = true ∧ bit forwardsToQ10.tagCfg 9 = true ∧ forwardsToQ10.resumed = true ∧
    forwardsToQ10.tagChannel = some 5 ∧ RoomFor forwardsToQ10 5 1 := by decide +kernel

theorem committed_selectOther : ((selectOther [1, 2] forwardsToQ10).lane (resultLane forwardsToQ10 5)).committed = [] := by
  decide +kernel

/-- Refutes O23: the APDU of two bytes names no engine, and reaches no queue. -/
theorem not_tagForwarding : ¬ Obligations.TagForwarding := by
  unfold Obligations.TagForwarding
  rintro ⟨-, h, -⟩
  obtain ⟨htakes, hcfg, hres, hchan, hroom⟩ := forwards_forwardsToQ10
  obtain ⟨t, ht, -, -, -, hdel, -⟩ := h forwardsToQ10 5 [1, 2] htakes hcfg hres hchan hroom
  rw [← Host.Outcome.next.inj ht] at hdel
  exact not_delivers_of_empty committed_selectOther hdel

end Proofs
end Sys2Proof

/-! PROOFS. Frames that the unit sends, and the tag's records and unlocking (R170 to R180, R441). -/
namespace Sys2Proof
namespace Proofs

open Sys2Proof.Machine Sys2Proof.Safety Sys2Proof.Laws

/-- Only registers, the ports, the count of sealed frames and the activity of the unit differ. -/
def SendsOnly (s t : State) : Prop :=
  t = { s with regs := t.regs, power := t.power, cwy := { s.cwy with ports := t.cwy.ports, count := t.cwy.count } }

theorem SendsOnly.refl (s : State) : SendsOnly s s := rfl

theorem SendsOnly.trans {s t u : State} (h : SendsOnly s t) (h' : SendsOnly t u) : SendsOnly s u := by
  unfold SendsOnly at *
  rw [h', h]

theorem sendsOnly_of_regsOnly {s t : State} (h : RegsOnly s t) : SendsOnly s t := by
  unfold SendsOnly
  rw [h]

theorem SendsOnly.bytes {s t : State} (h : SendsOnly s t) : BytesKept s t := by
  rw [h]
  exact bytesKept_of_eq rfl rfl

theorem sendsOnly_setPort (s : State) (p : Nat) (x : CwyPort) : SendsOnly s (s.setPort p x) := rfl

theorem sendsOnly_sendNow (s : State) (p : Nat) (f : Frame) : SendsOnly s (s.sendNow p f) :=
  (sendsOnly_setPort s p _).trans (sendsOnly_of_regsOnly (regsOnly_evt ..))

theorem sendsOnly_seal (s : State) (f : Frame) (nh : Bytes) : SendsOnly s (s.seal f nh).2 := by
  unfold State.seal
  split
  · exact .refl s
  · split
    next c t hjob =>
    have hcount : SendsOnly s t := by
      have : t = (s.innerJob engAes).2 := by rw [hjob]
      rw [this]
      exact sendsOnly_of_regsOnly (regsOnly_countJob ..)
    split
    · exact hcount.trans rfl
    · exact hcount

theorem sendsOnly_pumpN (p : Nat) : ∀ (k : Nat) (s : State), SendsOnly s (State.pumpN k p s)
  | 0, s => .refl s
  | k + 1, s => by
    unfold State.pumpN
    split
    · exact .refl s
    next f rest _ =>
    split
    · exact .refl s
    · refine SendsOnly.trans (sendsOnly_setPort s p { s.port p with waiting := rest }) ?_
      dsimp only
      split
      · exact (sendsOnly_sendNow _ p _).trans (sendsOnly_pumpN p k _)
      next nh _ =>
      split
      next g t hseal =>
        have hs := sendsOnly_seal (s.setPort p { s.port p with waiting := rest }) f nh
        rw [hseal] at hs
        exact hs.trans ((sendsOnly_sendNow t p g).trans (sendsOnly_pumpN p k _))
      next t hseal =>
        have hs := sendsOnly_seal (s.setPort p { s.port p with waiting := rest }) f nh
        rw [hseal] at hs
        exact hs.trans (sendsOnly_pumpN p k t)

theorem sendsOnly_place (s : State) (p : Nat) (f : Frame) : SendsOnly s (s.place p f).2 := by
  unfold State.place
  split
  · exact (sendsOnly_setPort s p _).trans (sendsOnly_pumpN p _ _)
  · exact .refl s

theorem sendsOnly_cwySend (s : State) (link : Nat) (f : Frame) : SendsOnly s (s.cwySend link f) := by
  unfold State.cwySend
  split
  · exact (sendsOnly_place s 0 f).trans (sendsOnly_place _ 1 f)
  · dsimp only
    generalize (if f.dst = 0 then link else if f.dst < s.unit then 0 else 1) = p
    split
    · exact sendsOnly_place s p f
    · rfl

theorem sendsOnly_sendAuth (s : State) (dst cls sub : Nat) (body nh : Bytes) : SendsOnly s (s.sendAuth dst cls sub body nh) := by
  unfold State.sendAuth
  split
  · exact .refl s
  · exact sendsOnly_cwySend ..

/-- Activity moves the standing time and, while resumed, tells the other units. -/
theorem sendsOnly_active (s : State) : SendsOnly s s.active := by
  have hstand : SendsOnly s s.restand := rfl
  unfold State.active State.onlyIf
  split
  · exact hstand.trans (sendsOnly_sendAuth ..)
  · exact hstand

/-- Only the island's log and the free bytes drawn for it differ. -/
def LogsOnly (s t : State) : Prop :=
  t = { s with envm := { s.envm with islandLog := t.envm.islandLog, logOverrun := t.envm.logOverrun }, freeCtr := t.freeCtr }

theorem logsOnly_addLog (s : State) (r : Bytes) : LogsOnly s (s.addLog r) := rfl

theorem logsOnly_logSel (s : State) (status : Byte) (flags : Nat) : LogsOnly s (s.logSel status flags) := by
  unfold State.logSel
  split <;> rfl

/-- An answer to the reader behind a log record is the tag's and the log's alone. -/
theorem LogsOnly.onlyTag {s t : State} (h : LogsOnly s t) (f : Tag → Tag) : OnlyTag s (t.modTag f) := by
  rw [h]
  exact ⟨rfl, rfl, rfl, bytesKept_of_eq rfl rfl⟩

theorem LogsOnly.tag {s t : State} (h : LogsOnly s t) : t.tag = s.tag := by rw [h]
theorem LogsOnly.regs {s t : State} (h : LogsOnly s t) : t.regs = s.regs := by rw [h]
theorem LogsOnly.lanes {s t : State} (h : LogsOnly s t) : t.lanes = s.lanes := by rw [h]
theorem LogsOnly.fails {s t : State} (h : LogsOnly s t) : t.envm.islandFails = s.envm.islandFails := by rw [h]
theorem LogsOnly.bytes {s t : State} (h : LogsOnly s t) : BytesKept s t := by
  rw [h]
  exact bytesKept_of_eq rfl rfl

/-- What a logged answer shows of the tag. -/
theorem tagSay_logged {s t : State} (h : LogsOnly s t) (b : Bytes) (fc : Nat) :
    (t.tagSay b fc).tag = { s.tag with answer := b, delayFc := fc, pendingAnswer := false } := by
  rw [← h.tag]
  rfl

section
variable {s : State}

theorem takes_not {s : State} (h : s.tagTakes = true) (hsel : s.tag.selected = true) :
    ¬ (s.tagTakes = false ∨ s.tag.selected = false) := by
  rw [h, hsel]; decide

theorem entryByTid_modTag (s : State) (f : Tag → Tag) (tid : Word) : (s.modTag f).entryByTid tid = s.entryByTid tid := rfl

theorem isLocked_modTag (s : State) (f : Tag → Tag) (k : LockTarget) : (s.modTag f).isLocked k = s.isLocked k := rfl

/-- The state in which entry n is authenticated. -/
def authAccepted (s : State) (n : Nat) : State :=
  { s with envm := { s.envm with islandFails := 0 },
           tag := { s.tag with authEntry := some n, authTried := s.tag.authTried || !false } }

/-- The same, after the activity that it is (R170). -/
def authActive (s : State) (n : Nat) : State :=
  (authAccepted s n).onlyIf (decide (s.power.mode = .resumed ∨ s.power.mode = .standing)) State.active

theorem authActive_sends (s : State) (n : Nat) : SendsOnly (authAccepted s n) (authActive s n) := by
  unfold authActive State.onlyIf
  split
  · exact sendsOnly_active _
  · exact .refl _

/-- The AUTH of an enrolled token with the right MAC authenticates its entry (R170). -/
theorem islandAuth_accepts {tid np : Bytes} {w : Bool} {n : Nat} {e : Entry} (h : s.tagTakes = true)
    (hsel : s.tag.selected = true) (hfree : s.tagLocked w = false)
    (hentry : s.entryByTid (w32 (ofLE (slice tid 0 4))) = some (n, e)) (hlock : s.isLocked (.entry n) = false)
    (hright : e.rights.getLsbD 3 = true) :
    islandAuth tid np ((cmac e.key (0x50 :: slice tid 0 4 ++ s.tag.ni ++ np)).take 8) w s =
      ((authActive s n).clearFailures (.entry n)).tagOk
        ((cmac e.key (0x44 :: slice tid 0 4 ++ np ++ (authActive s n).tag.ni)).take 8 ++ [e.rights]) := by
  unfold islandAuth
  rw [if_neg (takes_not h hsel), hfree]
  dsimp only
  rw [if_neg Bool.false_ne_true]
  rw [entryByTid_modTag, hentry]
  dsimp only
  rw [if_neg (by rw [isLocked_modTag, hlock]; simp), if_neg (by rw [hright]; decide)]
  exact (if_neg fun hne => hne rfl).trans rfl

theorem islandAuth_answers {tid np mac : Bytes} {w : Bool} {n : Nat} {e : Entry} (h : s.tagTakes = true)
    (hsel : s.tag.selected = true) (hfree : s.tagLocked w = false)
    (hentry : s.entryByTid (w32 (ofLE (slice tid 0 4))) = some (n, e)) (hlock : s.isLocked (.entry n) = false)
    (hright : e.rights.getLsbD 3 = true) (hmac : (cmac e.key (0x50 :: slice tid 0 4 ++ s.tag.ni ++ np)).take 8 = mac) :
    ∃ t, islandAuth tid np mac w s = t ∧ t.tag.authEntry = some n ∧
      t.tag.answer = (cmac e.key (0x44 :: slice tid 0 4 ++ np ++ s.tag.ni)).take 8 ++ [e.rights, 0x90, 0x00] ∧
      t.envm.islandFails = 0 ∧ BytesKept s t := by
  have hrun := islandAuth_accepts (np := np) h hsel hfree hentry hlock hright
  rw [hmac] at hrun
  have hact := authActive_sends s n
  have hni : (authActive s n).tag.ni = s.tag.ni := by rw [hact]; rfl
  rw [hni] at hrun
  generalize authActive s n = u at *
  have hlog := logsOnly_logSel (u.clearFailures (.entry n)) cOk 0
  refine ⟨_, hrun, ?_, ?_, ?_, ?_⟩
  · show (State.logSel _ cOk 0).tag.authEntry = some n
    rw [hlog.tag, hact]
    rfl
  · show _ ++ [e.rights] ++ [0x90, 0x00] = _
    rw [List.append_assoc]
    rfl
  · show (State.logSel _ cOk 0).envm.islandFails = 0
    rw [hlog.fails, hact]
    rfl
  · have haccept : BytesKept s u := BytesKept.trans (t := authAccepted s n) (bytesKept_of_eq rfl rfl) hact.bytes
    exact BytesKept.trans (t := u.clearFailures (.entry n)) haccept hlog.bytes

theorem readRecord_answers {n : Nat} (h : s.tagTakes = true) (hsel : s.tag.selected = true) (hmap : s.recMap n % 4 ≠ 0)
    (hread : s.recMap n / 16 % 4 ≠ 0) (hauth : s.recMap n / 16 % 4 ≠ 2 ∨ s.tag.authEntry ≠ none) (hhost : s.hostWrites n = false)
    (htorn : n ∉ s.envm.tornRecs) : readRecord n 0 s = s.tagOk (s.recData n) := by
  have hsound : State.readRec s n = s.tagOk (s.recData n) := by
    unfold State.readRec State.reportTorn
    rw [if_neg htorn]
    rfl
  rw [← hsound]
  exact (if_neg (takes_not h hsel)).trans ((if_neg (by simp [hmap])).trans ((if_neg (by
    rintro (h0 | ⟨h2, hnone⟩)
    · exact hread h0
    · exact hauth.elim (fun h' => h' h2) fun h' => h' hnone)).trans (if_neg (by rw [hhost]; decide))))

theorem updateRecord_writes {n mv : Nat} {b : Bytes} (h : s.tagTakes = true) (hsel : s.tag.selected = true)
    (hauth : s.tag.authEntry ≠ none) (hmap : s.recMap n % 4 = 1 ∨ s.recMap n % 4 = 2) (hwrite : testBit (s.recMap n) 6 = true)
    (hhost : s.hostWrites n = false) (hlen : b.length = recSize (s.recMap n % 4)) (hmv : gateMv b.length ≤ mv) :
    updateRecord n 0 b mv s = (s.setRec n b).beginWrite n := by
  have hsize : recSize (s.recMap n % 4) ≠ 1024 := by rcases hmap with h | h <;> rw [h] <;> decide
  have hkind : s.recMap n % 4 ≠ 0 := by omega
  have hrun : s.updateRec n 0 b mv = (s.setRec n b).beginWrite n :=
    (if_neg hsize).trans ((if_neg (not_not_intro rfl)).trans ((if_neg (not_not_intro hlen)).trans (if_neg (by
      rw [← hlen]; omega))))
  rw [← hrun]
  exact (if_neg (takes_not h hsel)).trans ((if_neg hkind).trans ((if_neg hauth).trans
    ((if_neg (by rw [hwrite]; decide)).trans (if_neg (by rw [hhost]; decide)))))

theorem fieldWriteEnd_answers {n mv : Nat} (hwrite : s.tag.writing = some n) (hfield : s.tag.field = true)
    (hpend : s.tag.pendingAnswer = true) (hshadow : tfind s.tag.shadows n = none) (hread : s.tag.hostReadWaits = none) :
    fieldWriteEnd mv s = (s.modTag fun t => { t with writing := none }).tagOk [] := by
  generalize hu : s.modTag (fun t => { t with writing := none }) = u
  have h1 : ¬ (u.tag.field = false ∨ u.tag.pendingAnswer = false) := by
    rw [← hu]; show ¬ (s.tag.field = false ∨ s.tag.pendingAnswer = false); rw [hfield, hpend]; decide
  have h2 : tfind u.tag.shadows n = none := by rw [← hu]; exact hshadow
  have h3 : (u.tagOk []).tag.hostReadWaits = none := by
    show (u.logSel cOk 0).tag.hostReadWaits = none
    rw [(logsOnly_logSel u cOk 0).tag, ← hu]; exact hread
  unfold fieldWriteEnd
  rw [hwrite]
  dsimp only
  rw [hu, if_neg h1, h2]
  dsimp only
  rw [h3]

/-- What the host reads of an island event. -/
theorem isLast_shows (h : s.rails = true) (status : Byte) (pulsed pending : Bool) (entry : Nat) (tid : Word) :
    (s.isLast status pulsed pending entry tid).rf aTAG_ISLAST0 31 16 =
        status.toNat * 256 + b2n pulsed * 128 + b2n pending * 64 + entry % 64 ∧
      (s.isLast status pulsed pending entry tid).reg aTAG_ISLAST1 = tid := by
  unfold State.isLast
  rw [if_pos h]
  refine ⟨?_, reg_setReg_same ..⟩
  have hp := b2n_le pulsed
  have hq := b2n_le pending
  have hs := status.isLt
  rw [rf_setReg, if_neg (by decide), rf_setReg, if_pos rfl, fld_w32 (by omega)]
  omega

theorem isLast_regsBut (s : State) (status : Byte) (pulsed pending : Bool) (entry : Nat) (tid : Word) :
    RegsBut [aTAG_ISLAST0, aTAG_ISLAST1] s (s.isLast status pulsed pending entry tid) := by
  unfold State.isLast
  split
  · exact RegsBut.trans (regsBut_setReg s (by simp) _) (regsBut_setReg _ (by simp) _)
  · exact regsBut_of_regs rfl _

theorem isLast_regsOnly (s : State) (status : Byte) (pulsed pending : Bool) (entry : Nat) (tid : Word) :
    RegsOnly s (s.isLast status pulsed pending entry tid) := by
  unfold State.isLast
  split
  · exact (regsOnly_setReg ..).trans (regsOnly_setReg ..)
  · exact .refl s

/-- While the main supply is up an UNLOCK raises the island event and waits for Peat (R172). -/
theorem unlock_raises {n : Nat} (h : s.tagTakes = true) (hsel : s.tag.selected = true) (hauth : s.tag.authEntry = some n)
    (hup : s.mainUp = true) (hres : s.resumed = true) :
    tagUnlock s = ((s.isLast cPending false true n (match tfind s.envm.entries n with | some e => e.tid | none => 0)).raise
      .island).modTag fun t => { t with isackWait := true } := by
  have hmode : s.power.mode ≠ .standing := by
    intro hm
    unfold State.resumed at hres
    rw [hm] at hres
    exact absurd hres (by decide)
  have hsame : s.resume 8 = s := if_neg hmode
  unfold tagUnlock
  rw [if_neg (takes_not h hsel), hauth]
  dsimp only
  rw [if_pos hup, hsame] <;> rfl

/-- Without it the UNLOCK waits for the reserve of VSTORE (R173). -/
theorem unlock_waits {n : Nat} (h : s.tagTakes = true) (hsel : s.tag.selected = true) (hauth : s.tag.authEntry = some n)
    (hup : s.mainUp = false) (hfired : s.tag.fired = false) :
    ∃ tid, tagUnlock s = s.modTag fun t => { t with unlockWait := true, pulseEntry := n, pulseTid := tid } := by
  refine ⟨match tfind s.envm.entries n with | some e => e.tid | none => 0, ?_⟩
  unfold tagUnlock
  rw [if_neg (takes_not h hsel), hauth]
  dsimp only
  rw [if_neg (by rw [hup]; decide), if_neg (by rw [hfired]; decide)] <;> rfl

/-- The end of a pulse in the field answers 90 00 behind its log record. -/
theorem pulseEnd_answers (hpulse : s.tag.pulse = true) (hfield : s.tag.field = true) (good : Bool) :
    ∃ r, pulseEnd good s = State.tagSw (State.addLog (State.isLast (s.modTag fun t => { t with pulse := false, unlockH := false })
      cOk true false s.tag.pulseEntry s.tag.pulseTid) r) [] 0x90 0x00 := by
  exact ⟨_, (if_neg (by rw [hpulse]; decide)).trans (if_pos hfield)⟩

/-- The status of the last island event, which waits no more. -/
def isackNoted (s : State) (status : Byte) : State := (s.srf aTAG_ISLAST0 31 24 status.toNat).srb aTAG_ISLAST0 22 false

theorem isackNoted_status (s : State) (status : Byte) : (isackNoted s status).rf aTAG_ISLAST0 31 24 = status.toNat := by
  unfold isackNoted
  rw [rf_srb_ne _ _ (by decide) (by decide) (by decide), rf_srf_same _ _ _ (by decide) (by decide)]
  exact Nat.mod_eq_of_lt status.isLt

theorem isackNoted_pending (s : State) (status : Byte) : (isackNoted s status).rb aTAG_ISLAST0 22 = false :=
  rb_srb_same _ _ (by decide) _

theorem isackNoted_regsBut (s : State) (status : Byte) : RegsBut [aTAG_ISLAST0] s (isackNoted s status) :=
  RegsBut.trans (regsBut_setReg s (by simp) _) (regsBut_setReg _ (by simp) _)

theorem isackNoted_regsOnly (s : State) (status : Byte) : RegsOnly s (isackNoted s status) :=
  (regsOnly_setReg ..).trans (regsOnly_setReg ..)

theorem isackEnd_eq (s : State) (status : Byte) (a b : Nat) :
    ∃ u : State, s.isackEnd status a b =
        (State.logSel (u.modTag fun t => { t with isackWait := false }) status 2).tagSw [] a b ∧
      u.rf aTAG_ISLAST0 31 24 = status.toNat ∧ u.rb aTAG_ISLAST0 22 = false ∧ RegsBut [aTAG_ISLAST0] s u ∧ RegsOnly s u := by
  refine ⟨isackNoted s status, ?_, isackNoted_status s status, isackNoted_pending s status, isackNoted_regsBut s status,
    isackNoted_regsOnly s status⟩
  unfold State.isackEnd isackNoted
  rfl

/-- Peat's answer to an island event, or its absence, ends the wait, is shown and answered. -/
theorem isackEnd_shows (s : State) (status : Byte) (a b : Nat) :
    ∃ t, s.isackEnd status a b = t ∧ t.tag.isackWait = false ∧ t.tag.answer = swBytes a b ∧
      t.rf aTAG_ISLAST0 31 24 = status.toNat ∧ t.rb aTAG_ISLAST0 22 = false ∧ RegsBut [aTAG_ISLAST0] s t ∧
      t.lanes = s.lanes ∧ BytesKept s t := by
  obtain ⟨u, hrun, hshown, hpend, hregs, honly⟩ := isackEnd_eq s status a b
  have hlog := logsOnly_logSel (u.modTag fun t => { t with isackWait := false }) status 2
  rw [hrun]
  generalize State.logSel (u.modTag fun t => { t with isackWait := false }) status 2 = w at *
  have hsaid : (w.tagSw [] a b).regs = u.regs := hlog.regs
  refine ⟨_, rfl, congrArg Tag.isackWait hlog.tag, rfl, (rf_congr hsaid ..).trans hshown, (rb_congr hsaid ..).trans hpend,
    RegsBut.trans hregs (regsBut_of_regs hsaid _), hlog.lanes.trans honly.lanes, ?_⟩
  exact BytesKept.trans (t := u) (bytesKept_of_eq honly.mem honly.flash) hlog.bytes

theorem fld_or_go (v : Word) : fld (v ||| 0x100) 7 0 = fld v 7 0 := by
  have h : (v ||| 0x100).toNat % 2 ^ 8 = v.toNat % 2 ^ 8 := by
    rw [BitVec.toNat_or, Nat.or_mod_two_pow]
    simp
  simpa [fld] using h

theorem isack_ends (h : s.tag.isackWait = true) {v : Word} (hv : fld v 7 0 = cOk.toNat) :
    tagIsack (v ||| 0x100) s = (s.srf aTAG_ISACK 7 0 cOk.toNat).isackEnd cOk 0x90 0x00 := by
  have hfld : fld (v ||| 0x100) 7 0 = cOk.toNat := by
    rw [fld_or_go, hv]
  have hgo : bit (v ||| 0x100) 8 = true := by
    rw [bit, BitVec.getLsbD_or]
    simp
  unfold tagIsack
  rw [hfld]
  exact (if_pos hgo).trans ((if_pos h).trans (if_pos (by decide)))

end

/-- Settles O24: AUTH, the records, UNLOCK and the host's record commands. -/
theorem tagRecordsAndUnlock : Obligations.TagRecordsAndUnlock := by
  unfold Obligations.TagRecordsAndUnlock
  refine ⟨fun s tid np mac w n e h hsel hfree hentry hlock hright hmac => ?auth,
    fun s n h hsel hmap hread hauth hhost htorn => ?read, fun s n mv b h hsel hauth hmap hwrite hhost hlen hmv => ?update,
    fun s n mv hwrite hfield hpend hshadow hread => ?written, fun s n h hsel hauth hup hres => ?raised,
    fun s n h hsel hauth hup hfired => ?waits, fun s h => ?charged, fun s good hpulse hfield => ?pulsed, fun s h => ?weak,
    fun s m v hg h hv => ?answered, fun s h => ?unanswered, fun s => ?glitch⟩
  case auth =>
    obtain ⟨t, ht, hrest⟩ := islandAuth_answers h hsel hfree hentry hlock hright hmac
    exact ⟨t, congrArg done ht, hrest⟩
  case read =>
    exact ⟨_, congrArg done (readRecord_answers h hsel hmap hread hauth hhost htorn), rfl, (logsOnly_logSel s cOk 0).onlyTag _⟩
  case update =>
    exact ⟨_, congrArg done (updateRecord_writes h hsel hauth hmap hwrite hhost hlen hmv), tfind_tput_same .., rfl, rfl, rfl, rfl,
      bytesKept_of_eq rfl rfl⟩
  case written =>
    have hlog := logsOnly_logSel (s.modTag fun t => { t with writing := none }) cOk 0
    refine ⟨_, congrArg done (fieldWriteEnd_answers hwrite hfield hpend hshadow hread), ?_, rfl, rfl, hlog.onlyTag _⟩
    show (State.logSel _ cOk 0).tag.writing = none
    rw [hlog.tag]
    rfl
  case raised =>
    have hrails : s.rails = true := (Bool.and_eq_true _ _ ▸ hup).1
    obtain ⟨hshow, htid⟩ := isLast_shows hrails cPending false true n (match tfind s.envm.entries n with | some e => e.tid | none => 0)
    have hregs := isLast_regsBut s cPending false true n (match tfind s.envm.entries n with | some e => e.tid | none => 0)
    have honly := isLast_regsOnly s cPending false true n (match tfind s.envm.entries n with | some e => e.tid | none => 0)
    have hrun := unlock_raises h hsel hauth hup hres
    generalize s.isLast cPending false true n (match tfind s.envm.entries n with | some e => e.tid | none => 0) = u at *
    refine ⟨_, congrArg done hrun, rfl, hshow.trans (by simp [b2n]), htid.trans rfl, ?_,
      RegsBut.trans hregs (regsBut_of_regs rfl _), honly.envm, bytesKept_of_eq honly.mem honly.flash⟩
    show Irq.island ∈ (u.raise .island).irqs
    unfold State.raise
    by_cases hmem : Irq.island ∈ u.irqs
    · simp [hmem]
    · simp [hmem]
  case waits =>
    obtain ⟨tid, ht⟩ := unlock_waits h hsel hauth hup hfired
    exact ⟨_, congrArg done ht, rfl, rfl, rfl, onlyTag_modTag ..⟩
  case charged => exact ⟨_, congrArg done (if_pos h), rfl, rfl, onlyTag_modTag ..⟩
  case pulsed =>
    obtain ⟨r, hr⟩ := pulseEnd_answers hpulse hfield good
    have hregs := isLast_regsBut (s.modTag fun t => { t with pulse := false, unlockH := false })
      cOk true false s.tag.pulseEntry s.tag.pulseTid
    have honly := isLast_regsOnly (s.modTag fun t => { t with pulse := false, unlockH := false })
      cOk true false s.tag.pulseEntry s.tag.pulseTid
    generalize State.isLast (s.modTag fun t => { t with pulse := false, unlockH := false }) cOk true false s.tag.pulseEntry
      s.tag.pulseTid = u at *
    exact ⟨_, congrArg done hr, congrArg Tag.pulse honly.tag, congrArg Tag.unlockH honly.tag, rfl,
      RegsBut.trans (t := s.modTag fun t => { t with pulse := false, unlockH := false }) (regsBut_of_regs rfl _) hregs,
      honly.lanes, bytesKept_of_eq honly.mem honly.flash⟩
  case weak =>
    have hregs := isLast_regsBut (s.modTag fun t => { t with unlockWait := false }) cFieldWeak false false s.tag.pulseEntry
      s.tag.pulseTid
    have honly := isLast_regsOnly (s.modTag fun t => { t with unlockWait := false }) cFieldWeak false false s.tag.pulseEntry
      s.tag.pulseTid
    have hrun : vstoreTimeout s = (State.isLast (s.modTag fun t => { t with unlockWait := false }) cFieldWeak false false
      s.tag.pulseEntry s.tag.pulseTid).weak := if_pos h
    generalize State.isLast (s.modTag fun t => { t with unlockWait := false }) cFieldWeak false false s.tag.pulseEntry
      s.tag.pulseTid = u at *
    have hlog := logsOnly_logSel u cFieldWeak 0
    have htag : u.weak.tag.unlockWait = false ∧ u.weak.tag.pulse = s.tag.pulse := by
      show (u.logSel cFieldWeak 0).tag.unlockWait = false ∧ (u.logSel cFieldWeak 0).tag.pulse = s.tag.pulse
      rw [hlog.tag, honly.tag]
      exact ⟨rfl, rfl⟩
    refine ⟨_, congrArg done hrun, htag.1, htag.2, rfl, ?_, hlog.lanes.trans honly.lanes, ?_⟩
    · exact RegsBut.trans (t := s.modTag fun t => { t with unlockWait := false }) (regsBut_of_regs rfl _)
        (RegsBut.trans hregs (regsBut_of_regs hlog.regs _))
    · exact BytesKept.trans (t := u) (bytesKept_of_eq honly.mem honly.flash) hlog.bytes
  case answered =>
    obtain ⟨u, hu, hrun⟩ := owned_sees hg (tagIsack (v ||| 0x100))
    have hwait : u.tag.isackWait = true := (hu.view (fun s => s.tag.isackWait) fun _ _ => rfl).trans h
    obtain ⟨t, ht, h1, h2, h3, h4, h5, h6, h7⟩ := isackEnd_shows (u.srf aTAG_ISACK 7 0 cOk.toNat) cOk 0x90 0x00
    refine ⟨t, congrArg done (hrun.trans ((isack_ends hwait hv).trans ht)), h1, h2, h3, h4, ?_, ?_, ?_⟩
    · exact RegsBut.trans (hu.regsBut _) (RegsBut.trans (regsBut_setReg u (by simp) _) (RegsBut.mono h5 (by simp)))
    · exact h6.trans (hu.view State.lanes fun _ _ => rfl)
    · exact BytesKept.trans hu.bytes (BytesKept.trans (bytesKept_of_eq rfl rfl) h7)
  case unanswered =>
    obtain ⟨t, ht, h1, h2, h3, -, h4, h5, h6⟩ := isackEnd_shows s cAborted 0x6F 0x00
    exact ⟨t, congrArg done ((if_pos h).trans ht), h1, h2, h3, h4, h5, h6⟩
  case glitch => exact ⟨_, rfl, rfl, rfl, rfl, rfl, rfl, rfl, onlyTag_modTag ..⟩

end Proofs
end Sys2Proof

/-! PROOFS. Transactions of the host port (R430 to R436). -/
namespace Sys2Proof
namespace Proofs

open Sys2Proof.Machine Sys2Proof.Safety Sys2Proof.Laws

theorem hifReady_of_resumed {s : State} (h : s.resumed = true) : s.hifReady = true := by
  unfold State.hifReady
  rw [h]
  rfl

/-! ### WRITE -/

/-- A WRITE that no check refuses is buffered, is activity, and counts as ended. -/
theorem hostWriteTxn_buffers {s : State} {m : Bytes} (hready : s.hifReady = true) (h9 : 9 ≤ m.length)
    (hlen : m.length = 4 * byteAt m 4 + 9) (hsound : txnRefusal s true m = none) :
    hostWriteTxn m s = State.ended (State.active { s.sends (s.statusByte :: zeros (m.length - 1)) with
      hif := { (s.sends (s.statusByte :: zeros (m.length - 1))).hif with
        wbuf := s.hif.wbuf ++ [⟨hSpace (m.headD 0), hWalk (m.headD 0), ofLE (slice m 1 3),
          toWords (slice m 5 (4 * byteAt m 4)), s.policy 1⟩] } }) 0x14 cOk := by
  have hsame : txnRefusal (s.sends (s.statusByte :: zeros (m.length - 1))) true m = none := hsound
  unfold hostWriteTxn
  rw [if_neg (by rw [hready]; decide)]
  dsimp only
  rw [if_neg (by omega), hsame]
  rfl

/-! ### READ -/

/-- An address of the host port's registers. -/
def IsHif (a : Nat) : Prop := 0x140000 ≤ a ∧ a ≤ 0x140014

theorem wordOut_hif {s : State} {a : Nat} (ha : IsHif a) : s.wordOut false a = false := by
  obtain ⟨h1, h2⟩ := ha
  unfold State.wordOut
  simp
  omega

theorem grantMisused_hif {s : State} {a : Nat} (ha : IsHif a) (w : Bool) : s.grantMisused false w a = false := by
  obtain ⟨h1, h2⟩ := ha
  have hblock : a / 0x10000 = 20 := by omega
  have hfe : ∀ c, feBlock c ≠ 20 := fun c => by
    unfold feBlock
    split <;> decide
  unfold State.grantMisused
  rw [hblock]
  simp [hfe]

theorem hostAddr_hif {a : Nat} (ha : IsHif a) : regionOf (0x40000000 + a) = .registers := by
  obtain ⟨h1, h2⟩ := ha
  unfold regionOf
  repeat rw [if_neg (by omega)]
  exact if_pos (by omega)

/-- A register of the host port is no half of a pair. -/
theorem regRead_hif {a : Nat} (ha : IsHif a) (m : Master) (s : State) :
    regRead m (0x40000000 + a) s = s.answer m (readView s (0x40000000 + a)) := by
  obtain ⟨h1, h2⟩ := ha
  have hcap : ∀ k, capOf (0x40000000 + a) k = none := fun k => by
    unfold capOf aTMR_CTL
    rw [if_neg (by omega)]
  have hhigh : isHigh (0x40000000 + a) = false := by
    unfold isHigh aTMR_SYSTIME_HI aUWB_TSNOW_HI aDIST_ALIGN_HI aREL_CNT_HI
    rw [hcap]
    simp
    omega
  have hpair : s.partner (0x40000000 + a) = none := by
    unfold State.partner aTMR_SYSTIME_LO aUWB_TSNOW_LO aDIST_ALIGN_LO aREL_CNT_LO
    rw [if_neg (by omega), if_neg (by omega), if_neg (by omega), if_neg (by omega), hcap]
    rfl
  unfold regRead
  rw [if_neg (by unfold aTRNG_OUT; omega), if_neg (by unfold aTRNG_RAW; omega),
    if_neg (by unfold aAES_RECTX aAES_RECRX; omega), hhigh, hpair]
  rfl

/-- A read of a register of the host port that the host may read answers its value. -/
theorem hostReadWord_hif {s : State} {a : Nat} (ha : IsHif a) (hj : judge s .host false (0x40000000 + a) false = .granted) :
    hostReadWord false a s = (s.access .host .host false (0x40000000 + a) 1).answer .host
      (readView (s.access .host .host false (0x40000000 + a) 1) (0x40000000 + a)) := by
  have hread : busRead .host .host false (hostAddr false a) s = (s.access .host .host false (0x40000000 + a) 1).answer .host
      (readView (s.access .host .host false (0x40000000 + a) 1) (0x40000000 + a)) := by
    have : hostAddr false a = 0x40000000 + a := rfl
    rw [this, ← regRead_hif ha]
    unfold busRead
    rw [hostAddr_hif ha]
    dsimp only
    rw [hj]
  unfold hostReadWord
  rw [wordOut_hif ha, if_neg Bool.false_ne_true]
  dsimp only
  rw [hread, grantMisused_hif ha]
  rfl

theorem readView_hif {a : Nat} (ha : IsHif a) (s : State) : readView s (0x40000000 + a) = viewHIF s (0x40000000 + a) := by
  obtain ⟨h1, h2⟩ := ha
  have hblock : (0x40000000 + a - 0x40000000) / 0x10000 = 20 := by omega
  unfold readView
  rw [hblock]
  rfl

theorem viewHIF_countsOnly {s t : State} (h : CountsOnly s t) (a : Nat) : viewHIF t a = viewHIF s a :=
  h.view (viewHIF · a) fun _ _ => rfl

theorem quietWord_hif {a : Nat} (ha : IsHif a) : quietWord false a = true := by
  obtain ⟨h1, h2⟩ := ha
  unfold quietWord
  simp [h1, h2]

theorem hAddr_first (walk a : Nat) : hAddr walk a 0 = a := by
  unfold hAddr
  split
  · rfl
  · split <;> rfl

/-- A walk of one word reads it. -/
theorem readWords_hif {s : State} {a : Nat} (ha : IsHif a) (hj : judge s .host false (0x40000000 + a) false = .granted)
    (walk : Nat) : ∃ u, CountsOnly s u ∧ readWords false walk a 1 s =
      (toLE 4 (readView s (0x40000000 + a)).toNat, u.answer .host (readView s (0x40000000 + a))) := by
  have hcount := access_countsOnly s .host .host false (0x40000000 + a) 1
  refine ⟨_, hcount, ?_⟩
  have hview : readView (s.access .host .host false (0x40000000 + a) 1) (0x40000000 + a) = readView s (0x40000000 + a) := by
    rw [readView_hif ha, readView_hif ha, viewHIF_countsOnly hcount]
  have hword := hostReadWord_hif ha hj
  rw [hview] at hword
  unfold readWords
  simp only [List.range_one, List.foldl_cons, List.foldl_nil, hAddr_first]
  rw [hword]
  generalize s.access .host .host false (0x40000000 + a) 1 = u
  have hlast : (u.answer .host (readView s (0x40000000 + a))).lastRead .host = readView s (0x40000000 + a) := tget_tput_same ..
  rw [hlast]
  rfl

/-- A sound READ of one word of the host port with nothing buffered. -/
theorem hostReadTxn_hif {s : State} {m : Bytes} (hres : s.resumed = true) (h10 : 10 ≤ m.length)
    (hsound : txnRefusal s false m = none) (hlen : byteAt m 4 = 1) (hsp : hSpace (m.headD 0) = false)
    (ha : IsHif (ofLE (slice m 1 3)))
    (hj : judge s .host false (0x40000000 + ofLE (slice m 1 3)) false = .granted) (hbuf : s.hif.wbuf = []) :
    ∃ (w : Nat) (u : State), 1 ≤ w ∧ w ≤ 320 ∧ CountsOnly s.freeW.2 u ∧ hostReadTxn m s =
      ((u.answer .host (readView s (0x40000000 + ofLE (slice m 1 3)))).sends
        (((s.statusByte :: zeros (m.length - 1)).take 9 ++
          readReply w (toLE 4 (readView s (0x40000000 + ofLE (slice m 1 3))).toNat) 1 false).take m.length)).ended 0x14 cOk := by
  have happly : applyBuf s = s := by
    unfold applyBuf
    rw [hbuf]
  have hcount : ∀ w, wordsRead 1 w m.length = 1 := fun w => by
    unfold wordsRead
    rw [List.range_one, List.filter_cons_of_pos (by simp; omega)]
    rfl
  generalize hr : ofLE (slice m 1 3) = a at *
  have hquiet : ∀ walk, ((List.range 1).all fun k => quietWord false (hAddr walk a k)) = true := fun walk => by
    simp [hAddr_first, quietWord_hif ha]
  have hview : readView s.freeW.2 (0x40000000 + a) = readView s (0x40000000 + a) := by
    rw [readView_hif ha, readView_hif ha]
    rfl
  obtain ⟨u, hu, hread⟩ := readWords_hif (s := s.freeW.2) ha hj (hWalk (m.headD 0))
  rw [hview] at hread
  have hinteg : (u.answer .host (readView s (0x40000000 + a))).rf aFLT_INTEG 15 0 = s.freeW.2.rf aFLT_INTEG 15 0 :=
    hu.view (fun s => s.rf aFLT_INTEG 15 0) fun _ _ => rfl
  refine ⟨1 + s.freeW.1.toNat % 320, u, by omega, by omega, hu, ?_⟩
  unfold hostReadTxn
  rw [if_neg (by rw [hifReady_of_resumed hres]; decide)]
  dsimp only
  rw [if_neg (by omega), hsound]
  dsimp only
  rw [hlen, hsp, hr, happly, happly, hquiet]
  rw [show ∀ f : State → State, s.onlyIf (!true) f = s from fun _ => rfl]
  simp only [Bool.false_and, Bool.false_eq_true, if_false, hcount]
  rw [hread]
  simp only [hinteg, ne_eq, not_true, decide_false]

/-! ### A buffered write -/

/-- A buffered write of one word is one access. -/
theorem bufWords_one {b : HostBuf} {w : Word} (h : b.words = [w]) : bufWords b = [(b.a, w)] := by
  have hl : (List.range b.words.length).map (fun k => (hAddr b.walk b.a k, wordAt b.words k)) = [(b.a, w)] := by
    rw [h]
    simp [List.range_one, hAddr_first, wordAt]
  unfold bufWords
  rw [hl]
  dsimp only
  split <;> rfl

/-- The host writes the payload register of a window that it may write. -/
theorem hostWriteWord_window {s : State} {q lane : Nat} {v : Word} (hq : q < 16) (hlane : lane < 2) (hres : s.resumed = true)
    (hsafe : s.power.safeState = false) (hj : s.judgeWindow .host true q lane 0x14 = .granted) :
    ∃ u, CountsOnly s u ∧ hostWriteWord true (4096 * q + 2048 * lane + 0x14) v s = pushData .host (laneNo q lane) v u := by
  have hout : s.wordOut true (4096 * q + 2048 * lane + 0x14) = false := by
    unfold State.wordOut State.hifOnly
    rw [hres, hsafe]
    simp
    omega
  have haddr : hostAddr true (4096 * q + 2048 * lane + 0x14) = 0x60000000 + (4096 * q + 2048 * lane + 0x14) := rfl
  have hregion : regionOf (0x60000000 + (4096 * q + 2048 * lane + 0x14)) = .windows := by
    unfold regionOf
    repeat rw [if_neg (by omega)]
    exact if_pos (by omega)
  have hwindow : windowOf (0x60000000 + (4096 * q + 2048 * lane + 0x14)) = (q, lane, 0x14) := by
    unfold windowOf
    rw [show (0x60000000 + (4096 * q + 2048 * lane + 0x14) - 0x60000000) / 0x1000 = q by omega,
      show (0x60000000 + (4096 * q + 2048 * lane + 0x14)) % 0x1000 / 0x800 = lane by omega,
      show (0x60000000 + (4096 * q + 2048 * lane + 0x14)) % 0x800 = 0x14 by omega]
  have hkick : decide (0x60000000 + (4096 * q + 2048 * lane + 0x14) = aSYS_WDT_KICK ∧
      judge s .host false aSYS_WDT_KICK true = .granted) = false :=
    decide_eq_false fun h => by
      have := h.1
      unfold aSYS_WDT_KICK at this
      omega
  have hwrite : busWrite .host .host false (0x60000000 + (4096 * q + 2048 * lane + 0x14)) v s =
      pushData .host (laneNo q lane) v (s.access .host .host false (windowAddr q lane 0x14) (windowKind true 0x14)) := by
    unfold busWrite
    rw [hregion, hwindow]
    dsimp only
    unfold State.windowAs
    rw [hj]
    rfl
  refine ⟨_, access_countsOnly s .host .host false (windowAddr q lane 0x14) (windowKind true 0x14), ?_⟩
  unfold hostWriteWord
  rw [hout, if_neg Bool.false_ne_true, haddr]
  dsimp only
  rw [hkick, hwrite]
  rfl

/-- Settles O47: a status transaction, a sound write, a sound read of one HIF register, and the application of a write. -/
theorem hostTransactions : Obligations.HostTransactions := by
  unfold Obligations.HostTransactions
  refine ⟨fun s c hop hready => ?status, fun s m hop hready h9 hlen hsound => ?write,
    fun s m hop hres hsafe h10 hsound hlen hsp hlow hhigh hj hbuf => ?read,
    fun s b r w q lane hbuf hres hsafe hspace hwords hq hlane haddr hj => ?apply⟩
  case status =>
    have hrun : hostStatusTxn s = (s.sends [s.statusByte]).ended 0x14 cOk := if_pos hready
    have honly := regsOnly_ended (s.sends [s.statusByte]) 0x14 cOk
    exact ⟨_, congrArg done ((if_pos hop).trans hrun), honly.hif,
      RegsBut.trans (t := s.sends [s.statusByte]) (regsBut_of_regs rfl _) (regsBut_ended _ _ (by decide) cOk),
      honly.lanes, bytesKept_of_eq honly.mem honly.flash⟩
  case write =>
    have hne : m ≠ [] := by
      rintro rfl
      exact absurd h9 (by decide)
    have hrun := hostWriteTxn_buffers hready h9 hlen hsound
    generalize hv : ({ s.sends (s.statusByte :: zeros (m.length - 1)) with
      hif := { (s.sends (s.statusByte :: zeros (m.length - 1))).hif with
        wbuf := s.hif.wbuf ++ [⟨hSpace (m.headD 0), hWalk (m.headD 0), ofLE (slice m 1 3),
          toWords (slice m 5 (4 * byteAt m 4)), s.policy 1⟩] } } : State) = v at hrun
    have honly : SendsOnly v (v.active.ended 0x14 cOk) :=
      (sendsOnly_active v).trans (sendsOnly_of_regsOnly (regsOnly_ended ..))
    have hhif : (v.active.ended 0x14 cOk).hif = v.hif := by rw [honly]
    refine ⟨_, congrArg done ((if_pos ⟨hne, hop⟩).trans hrun), ?_, ?_, BytesKept.trans (t := v) ?_ honly.bytes⟩
    · rw [hhif, ← hv]
    · rw [hhif, ← hv]
      rfl
    · rw [← hv]
      exact bytesKept_of_eq rfl rfl
  case read =>
    have hne : m ≠ [] := by
      rintro rfl
      exact absurd h10 (by decide)
    obtain ⟨w, u, h1, h320, hu, hrun⟩ := hostReadTxn_hif hres h10 hsound hlen hsp ⟨hlow, hhigh⟩ hj hbuf
    have hhead : (s.statusByte :: zeros (m.length - 1)).take 9 = s.statusByte :: zeros 8 := by
      rw [List.take_succ_cons, zeros, List.take_replicate, Nat.min_eq_left (by omega)]
      rfl
    rw [hhead] at hrun
    generalize readView s (0x40000000 + ofLE (slice m 1 3)) = v at *
    generalize hb : (s.statusByte :: zeros 8 ++ readReply w (toLE 4 v.toNat) 1 false).take m.length = b at *
    have honly := regsOnly_ended ((u.answer .host v).sends b) 0x14 cOk
    refine ⟨_, congrArg done ((if_pos ⟨hne, hop⟩).trans hrun), ⟨w, h1, h320, ?_⟩, ?_, ?_, ?_⟩
    · rw [honly.hif, hb]
      rfl
    · refine RegsBut.trans (t := (u.answer .host v).sends b) ?_ (regsBut_ended _ _ (by decide) cOk)
      exact regsBut_of_regs (hu.view State.regs fun _ _ => rfl) _
    · exact honly.lanes.trans (hu.view State.lanes fun _ _ => rfl)
    · refine BytesKept.trans (t := (u.answer .host v).sends b) ?_ (bytesKept_of_eq honly.mem honly.flash)
      exact bytesKept_of_eq (hu.view State.mem fun _ _ => rfl) (hu.view State.flash fun _ _ => rfl)
  case apply =>
    have hwords' := bufWords_one hwords
    generalize hv : ({ s with hif := { s.hif with wbuf := r, judged := some b.policy } } : State) = v
    have hvj : v.judgeWindow .host true q lane 0x14 = .granted := by rw [← hv]; exact hj
    obtain ⟨u, hu, hwrite⟩ := hostWriteWord_window (v := w) hq hlane (s := v) (by rw [← hv]; exact hres)
      (by rw [← hv]; exact hsafe) hvj
    have hrun : applyBuf s = { pushData .host (laneNo q lane) w u with
        hif := { (pushData .host (laneNo q lane) w u).hif with judged := none } } := by
      unfold applyBuf
      rw [hbuf]
      dsimp only
      rw [if_pos (hifReady_of_resumed hres), hv, hwords', hspace, haddr]
      rw [show ∀ f : State → Nat × Word → State, v.each [(4096 * q + 2048 * lane + 0x14, w)] f =
        f v (4096 * q + 2048 * lane + 0x14, w) from fun _ => rfl, hwrite]
    have hlanes := lane_countsOnly hu (laneNo q lane)
    have hnew : (pushData .host (laneNo q lane) w u).lane (laneNo q lane) =
        { u.lane (laneNo q lane) with staged := tput (u.lane (laneNo q lane)).staged (portNo .host) w } := lane_setLane_same ..
    have hvs : v.lane (laneNo q lane) = s.lane (laneNo q lane) := by rw [← hv]; rfl
    have hregs : RegsBut [] s u := RegsBut.trans (t := v) (by rw [← hv]; exact regsBut_of_regs rfl _) (hu.regsBut _)
    have hbytes : BytesKept s u := BytesKept.trans (t := v) (by rw [← hv]; exact bytesKept_of_eq rfl rfl) hu.bytes
    have hwbuf : u.hif.wbuf = r := (hu.view (fun s => s.hif.wbuf) fun _ _ => rfl).trans (by rw [← hv])
    refine ⟨_, congrArg done hrun, hwbuf, ?_, ?_, ?_, ?_⟩
    · show tget ((pushData .host (laneNo q lane) w u).lane (laneNo q lane)).staged (portNo .host) 0 = w
      rw [hnew]
      exact tget_tput_same ..
    · show ((pushData .host (laneNo q lane) w u).lane (laneNo q lane)).committed = _
      rw [hnew, hlanes, hvs]
    · exact RegsBut.trans hregs (regsBut_of_regs rfl _)
    · exact BytesKept.trans hbytes (bytesKept_of_eq rfl rfl)

end Proofs
end Sys2Proof

/-! PROOFS. The Causeway's ports and links (R441 to R448): what sending a frame changes, and the links' events. -/
namespace Sys2Proof
namespace Proofs

open Sys2Proof.Machine Sys2Proof.Safety Sys2Proof.Laws

/-! ### What sending changes -/

theorem portUp_of_regsBut {l : List Nat} {s t : State} (h : RegsBut l s t) {p : Nat} (hl : aCWY_PORT p ∉ l) (hp : p < 2) :
    t.portUp p = s.portUp p := by
  unfold State.portUp
  rw [rf_of_regsBut h hl (by unfold Counted aCWY_PORT; omega)]

/-- Sending a frame: of the registers the counts of refused frames and of AES jobs change, and a port that is not UP stays as
it was. -/
structure Sends (s t : State) : Prop where
  only : SendsOnly s t
  power : t.power = s.power
  regs : RegsBut [aCWY_AUTH, aAES_COUNT] s t
  down : ∀ p < 2, s.portUp p = false → t.port p = s.port p

namespace Sends
variable {s t u : State}

theorem refl (s : State) : Sends s s := ⟨.refl s, rfl, regsBut_of_regs rfl _, fun _ _ _ => rfl⟩

theorem portUp (h : Sends s t) {p : Nat} (hp : p < 2) : t.portUp p = s.portUp p :=
  portUp_of_regsBut h.regs (by unfold aCWY_PORT aCWY_AUTH aAES_COUNT; simp; omega) hp

theorem trans (h : Sends s t) (h' : Sends t u) : Sends s u :=
  ⟨h.only.trans h'.only, h'.power.trans h.power, RegsBut.trans h.regs h'.regs, fun p hp hdown =>
    (h'.down p hp ((h.portUp hp).trans hdown)).trans (h.down p hp hdown)⟩

theorem bytes (h : Sends s t) : BytesKept s t := h.only.bytes
theorem lanes (h : Sends s t) : t.lanes = s.lanes := by rw [h.only]
theorem envm (h : Sends s t) : t.envm = s.envm := by rw [h.only]
theorem sess (h : Sends s t) : t.sess = s.sess := by rw [h.only]
theorem irqs (h : Sends s t) : t.irqs = s.irqs := by rw [h.only]
theorem trng (h : Sends s t) : t.trng = s.trng := by rw [h.only]
theorem cwy (h : Sends s t) : t.cwy = { s.cwy with ports := t.cwy.ports, count := t.cwy.count } := by
  conv_lhs => rw [h.only]

end Sends

theorem sends_of_regs {s t : State} (h : RegsOnly s t) (hregs : RegsBut [aCWY_AUTH, aAES_COUNT] s t) : Sends s t :=
  ⟨sendsOnly_of_regsOnly h, h.power, hregs, fun p _ _ => by
    unfold State.port
    rw [h.cwy]⟩

theorem sends_evt (s : State) (b : Nat) (hb : b < 64) (code n : Nat) : Sends s (s.evt b code n) :=
  sends_of_regs (regsOnly_evt ..) (regsBut_evt s _ hb code n)

theorem port_setPort_same (s : State) (p : Nat) (x : CwyPort) : (s.setPort p x).port p = x := tget_tset_same ..

theorem port_setPort_ne (s : State) {p q : Nat} (h : q ≠ p) (x : CwyPort) : (s.setPort p x).port q = s.port q :=
  tget_tset_ne _ h ..

theorem sends_setPort {s : State} {p : Nat} (hup : s.portUp p = true) (x : CwyPort) : Sends s (s.setPort p x) :=
  ⟨rfl, rfl, regsBut_of_regs rfl _, fun q _ hdown => port_setPort_ne s (by
    rintro rfl
    exact absurd (hup.symm.trans hdown) (by decide)) x⟩

theorem sends_sendNow {s : State} {p : Nat} (hup : s.portUp p = true) (f : Frame) : Sends s (s.sendNow p f) :=
  (sends_setPort hup _).trans (sends_evt _ _ (by decide) _ _)

theorem regsBut_countAes (s : State) (l : List Nat) (failed : Bool) (h : aAES_COUNT ∈ l) : RegsBut l s (s.countJob engAes failed) := by
  have hblock : engBlock engAes < 64 := by decide
  have hstart := RegsBut.trans (regsBut_bump s (a := countReg engAes) h 15 0 1) (regsBut_evt _ _ hblock 0x03 1)
  cases failed with
  | false => exact hstart
  | true => exact RegsBut.trans hstart (RegsBut.trans (regsBut_bump _ (a := countReg engAes) h 31 16 1) (regsBut_evt _ _ hblock 0x04 1))

theorem sends_innerJob (s : State) : Sends s (s.innerJob engAes).2 :=
  sends_of_regs (regsOnly_countJob ..) (regsBut_countAes s _ _ (by simp))

theorem sends_seal (s : State) (f : Frame) (nh : Bytes) : Sends s (s.seal f nh).2 := by
  unfold State.seal
  split
  · exact .refl s
  · split
    next c t hjob =>
    have hcount : Sends s t := by
      have : t = (s.innerJob engAes).2 := by rw [hjob]
      rw [this]
      exact sends_innerJob s
    split
    · exact hcount.trans ⟨rfl, rfl, regsBut_of_regs rfl _, fun _ _ _ => rfl⟩
    · exact hcount

theorem sends_pumpN {p : Nat} (hp : p < 2) : ∀ (k : Nat) (s : State), s.portUp p = true → Sends s (State.pumpN k p s)
  | 0, s, _ => .refl s
  | k + 1, s, hup => by
    unfold State.pumpN
    split
    · exact .refl s
    next f rest _ =>
    split
    · exact .refl s
    · have hset : Sends s (s.setPort p { s.port p with waiting := rest }) := sends_setPort hup _
      refine hset.trans ?_
      dsimp only
      have hup' := (hset.portUp hp).trans hup
      split
      · have hnow := sends_sendNow hup' f
        exact hnow.trans (sends_pumpN hp k _ ((hnow.portUp hp).trans hup'))
      next nh _ =>
      have hseal := sends_seal (s.setPort p { s.port p with waiting := rest }) f nh
      split
      next g t h =>
        rw [h] at hseal
        have hup'' := (hseal.portUp hp).trans hup'
        have hnow := sends_sendNow hup'' g
        exact hseal.trans (hnow.trans (sends_pumpN hp k _ ((hnow.portUp hp).trans hup'')))
      next t h =>
        rw [h] at hseal
        exact hseal.trans (sends_pumpN hp k t ((hseal.portUp hp).trans hup'))

theorem sends_place (s : State) {p : Nat} (hp : p < 2) (f : Frame) : Sends s (s.place p f).2 := by
  unfold State.place
  split
  next hup =>
    have hset : Sends s (s.setPort p { s.port p with waiting := placeFrame f (s.port p).waiting }) := sends_setPort hup _
    exact hset.trans (sends_pumpN hp _ _ ((hset.portUp hp).trans hup))
  · exact .refl s

theorem sends_noRoute (s : State) : Sends s s.noRoute :=
  sends_of_regs (regsOnly_setReg ..) (regsBut_setReg s (by simp) _)

theorem sends_cwySend (s : State) {link : Nat} (hlink : link < 2) (f : Frame) : Sends s (s.cwySend link f) := by
  unfold State.cwySend
  split
  · exact (sends_place s (by decide) f).trans (sends_place _ (by decide) f)
  · dsimp only
    have hp : (if f.dst = 0 then link else if f.dst < s.unit then 0 else 1) < 2 := by
      split
      · exact hlink
      · split <;> decide
    generalize (if f.dst = 0 then link else if f.dst < s.unit then 0 else 1) = p at hp ⊢
    split
    · exact sends_place s hp f
    · exact sends_noRoute s

theorem sends_sendAuth (s : State) (dst cls sub : Nat) (body nh : Bytes) : Sends s (s.sendAuth dst cls sub body nh) := by
  unfold State.sendAuth
  split
  · exact .refl s
  · exact sends_cwySend s (by decide) _

/-- Nothing waits at a port: nothing is sent. -/
theorem pump_empty {s : State} {p : Nat} (h : (s.port p).waiting = []) : s.pump p = s := by
  unfold State.pump
  rw [h]
  rfl

/-! ### Chain events (R453) -/

/-- Only what a commit, the free bytes and the monitors' counts need differs, and no register but theirs. -/
def EventOnly (s t : State) : Prop :=
  t = { s with regs := t.regs, lanes := t.lanes, commits := t.commits, eng := { s.eng with waiting := t.eng.waiting },
               peat := { s.peat with reqGens := t.peat.reqGens }, prfAcc := t.prfAcc, freeCtr := t.freeCtr } ∧
    RegsBut [] s t

theorem EventOnly.trans {s t u : State} (h : EventOnly s t) (h' : EventOnly t u) : EventOnly s u := by
  obtain ⟨h, hregs⟩ := h
  obtain ⟨h', hregs'⟩ := h'
  refine ⟨?_, RegsBut.trans hregs hregs'⟩
  rw [h', h]

theorem EventOnly.refl (s : State) : EventOnly s s := ⟨rfl, regsBut_of_regs rfl _⟩

theorem EventOnly.envm {s t : State} (h : EventOnly s t) : t.envm = s.envm := by rw [h.1]
theorem EventOnly.cwy {s t : State} (h : EventOnly s t) : t.cwy = s.cwy := by rw [h.1]
theorem EventOnly.power {s t : State} (h : EventOnly s t) : t.power = s.power := by rw [h.1]
theorem EventOnly.cfg {s t : State} (h : EventOnly s t) : t.cfg = s.cfg := by rw [h.1]
theorem EventOnly.bytes {s t : State} (h : EventOnly s t) : BytesKept s t :=
  bytesKept_of_eq (by rw [h.1]) (by rw [h.1])

theorem eventOnly_countsOnly {s t : State} (h : CountsOnly s t) : EventOnly s t := by
  refine ⟨?_, h.regsBut []⟩
  rw [h]

/-- Q2 takes every packet, or keeps it waiting. -/
theorem eventOnly_event (s : State) (ws : List Word) : EventOnly s (s.event ws) := by
  have hframe := (waitCommit_frame s (n := 2) (wordsPacket 0 0xFF ws) (by decide) (by decide)).1
  refine ⟨by unfold State.event; rw [hframe], ?_⟩
  have hok : s.hwOk 2 (wordsPacket 0 0xFF ws) = true := by
    unfold State.hwOk commitOk
    rfl
  unfold State.event State.waitCommit
  rw [if_pos hok]
  have hkeep : RegsBut [] s (s.keepWaiting 2 (wordsPacket 0 0xFF ws)) := regsBut_of_regs rfl _
  cases s.laneWaits 2 with
  | true => exact hkeep
  | false =>
    unfold State.hwCommit
    cases s.hwRoom 2 (wordsPacket 0 0xFF ws) with
    | false => exact hkeep
    | true =>
      obtain ⟨-, hregs⟩ := jobAccepted_frame (s.commit 2 (wordsPacket 0 0xFF ws)) (n := 2) (wordsPacket 0 0xFF ws) (by decide)
      exact RegsBut.trans (regsBut_of_regs hregs _) (regsBut_evt _ _ (by decide) 0x12 _)

theorem countsOnly_itemsBy (s : State) (m r : Master) (n kind count : Nat) : CountsOnly s (s.itemsBy m r n kind count) := by
  unfold State.itemsBy
  exact each_countsOnly (fun u _ => access_countsOnly u m r false _ kind) _ s

theorem eventOnly_chainEvent (s : State) (kind addr : Nat) : EventOnly s (s.chainEvent kind addr) :=
  (eventOnly_event s _).trans (eventOnly_countsOnly (countsOnly_itemsBy ..))

theorem eventOnly_chainEventFree (s : State) (kind : Nat) : EventOnly s (s.chainEventFree kind) := by
  have hfree : EventOnly s (s.freeBytes 1).2 := ⟨rfl, regsBut_of_regs rfl _⟩
  exact hfree.trans (eventOnly_chainEvent ..)

/-! ### What the loss of a link leaves (R442, R454) -/

/-- Port p shows what it showed and keeps its frames where it is not UP; eNVM and memories are as before. -/
structure KeepsPort (p : Nat) (s t : State) : Prop where
  shown : t.reg (aCWY_PORT p) = s.reg (aCWY_PORT p)
  frames : s.portUp p = false → t.port p = s.port p
  envm : t.envm = s.envm
  bytes : BytesKept s t

namespace KeepsPort
variable {p : Nat} {s t u : State}

theorem portUp (h : KeepsPort p s t) : t.portUp p = s.portUp p := by
  unfold State.portUp
  rw [State.rf, h.shown]
  rfl

theorem trans (h : KeepsPort p s t) (h' : KeepsPort p t u) : KeepsPort p s u :=
  ⟨h'.shown.trans h.shown, fun hdown => (h'.frames (h.portUp.trans hdown)).trans (h.frames hdown), h'.envm.trans h.envm,
    BytesKept.trans h.bytes h'.bytes⟩

theorem refl (p : Nat) (s : State) : KeepsPort p s s := ⟨rfl, fun _ => rfl, rfl, bytesKept_of_eq rfl rfl⟩

theorem each {α : Type} {f : State → α → State} (h : ∀ s x, KeepsPort p s (f s x)) (l : List α) :
    ∀ s : State, KeepsPort p s (s.each l f) := by
  induction l with
  | nil => exact fun s => .refl p s
  | cons x xs ih => exact fun s => (h s x).trans (ih (f s x))

end KeepsPort

theorem port_not_counted {p : Nat} (hp : p < 2) : ¬ Counted (aCWY_PORT p) := by unfold Counted aCWY_PORT; omega

theorem Sends.keepsPort {s t : State} (h : Sends s t) {p : Nat} (hp : p < 2) : KeepsPort p s t :=
  ⟨h.regs _ (by unfold aCWY_PORT aCWY_AUTH aAES_COUNT; simp; omega) (port_not_counted hp), h.down p hp, h.envm, h.bytes⟩

theorem EventOnly.keepsPort {s t : State} (h : EventOnly s t) {p : Nat} (hp : p < 2) : KeepsPort p s t :=
  ⟨h.2 _ (by simp) (port_not_counted hp), fun _ => by rw [State.port, h.cwy]; rfl, h.envm, h.bytes⟩

theorem keepsPort_of_regs {p : Nat} (hp : p < 2) {l : List Nat} {s t : State} (h : RegsOnly s t) (hregs : RegsBut l s t)
    (hl : aCWY_PORT p ∉ l) : KeepsPort p s t :=
  ⟨hregs _ hl (port_not_counted hp), fun _ => by rw [State.port, h.cwy]; rfl, h.envm, bytesKept_of_eq h.mem h.flash⟩

theorem regsOnly_showRoster (s : State) : RegsOnly s s.showRoster := (regsOnly_setReg ..).trans (regsOnly_setReg ..)

theorem regsBut_showRoster (s : State) : RegsBut [aCWY_PRESENT, aCWY_STATUS] s s.showRoster :=
  RegsBut.trans (regsBut_setReg s (by simp) _) (regsBut_srf _ (by simp) 12 8 _)

theorem keepsPort_showRoster {p : Nat} (hp : p < 2) (s : State) : KeepsPort p s s.showRoster :=
  keepsPort_of_regs hp (regsOnly_showRoster s) (regsBut_showRoster s) (by
    unfold aCWY_PORT aCWY_PRESENT aCWY_STATUS
    simp
    omega)

theorem keepsPort_leftBeyond {p : Nat} (hp : p < 2) (s : State) (a : Nat) : KeepsPort p s (s.leftBeyond a) := by
  have hmod : ∀ (s : State) u, KeepsPort p s (s.modMember u fun _ => memberNil) := fun s u =>
    ⟨rfl, fun _ => rfl, rfl, bytesKept_of_eq rfl rfl⟩
  exact KeepsPort.each (fun s u => (hmod s u).trans ((eventOnly_chainEvent ..).keepsPort hp)) _ s

theorem keepsPort_sendRoster {p : Nat} (hp : p < 2) (s : State) : KeepsPort p s s.sendRoster :=
  (keepsPort_showRoster hp s).trans ((sends_sendAuth ..).keepsPort hp)

theorem keepsPort_freeSes {p : Nat} (hp : p < 2) (s : State) (n : Nat) : KeepsPort p s (s.freeSes n) := by
  have hset : KeepsPort p s { s.setSes n { sesNil with gen := (s.ses n).gen } with dist := s.dist.unmap n } :=
    ⟨rfl, fun _ => rfl, rfl, bytesKept_of_eq rfl rfl⟩
  refine hset.trans (KeepsPort.each (fun s c => ?_) _ _)
  unfold State.onlyIf
  split
  · exact keepsPort_of_regs hp (regsOnly_setReg ..) (regsBut_srb s (l := [aCHN_BIND c]) (by simp) 25 true) (by
      unfold aCWY_PORT aCHN_BIND
      simp
      omega)
  · exact .refl p s

theorem keepsPort_closeOne {p : Nat} (hp : p < 2) (s : State) (n : Nat) : KeepsPort p s (s.closeOne n) := by
  have hlose : KeepsPort p s (s.loseJobs n) := by
    unfold State.loseJobs
    dsimp only
    split
    · exact ⟨rfl, fun _ => rfl, rfl, bytesKept_of_eq rfl rfl⟩
    · exact .refl p s
  unfold State.closeOne
  split
  · exact .refl p s
  · refine hlose.trans ?_
    dsimp only
    split
    · exact ⟨rfl, fun _ => rfl, rfl, bytesKept_of_eq rfl rfl⟩
    · exact keepsPort_freeSes hp _ n

theorem keepsPort_closeMirrors {p : Nat} (hp : p < 2) (s : State) : KeepsPort p s s.closeMirrors :=
  KeepsPort.each (fun s n => keepsPort_closeOne hp s n) _ s

/-! ### A draw that waits (R309) -/

theorem draw_waits {s : State} {w : Drawer} (hserved : s.servedTo w = none) (hgood : s.rngFailed = false) (n : Nat) :
    ∃ t, s.draw w n = .wait t ∧ t.drawWaits w = true ∧ t = { s with trng := t.trng } := by
  have hwait : s.draw w n = .wait (if s.drawWaits w then s else s.setCallers (s.trng.reqs ++ [.draw w n []])) := by
    unfold State.draw
    rw [hserved]
    dsimp only
    rw [if_neg (by rw [hgood]; decide)]
  refine ⟨_, hwait, ?_, ?_⟩
  · split
    next h => exact h
    · show (s.trng.reqs ++ [Caller.draw w n []]).any (drawsFor w) = true
      simp [drawsFor]
  · split <;> rfl

/-! ### The enumeration's start at the head (R452) -/

/-- Only the roster differs. -/
def RosterOnly (s t : State) : Prop := t = { s with cwy := { s.cwy with roster := t.cwy.roster } }

theorem RosterOnly.trans {s t u : State} (h : RosterOnly s t) (h' : RosterOnly t u) : RosterOnly s u := by
  unfold RosterOnly at *
  rw [h', h]

theorem member_modMember (s : State) (u k : Nat) (f : Member → Member) :
    (s.modMember u f).member k = if k = u then f (s.member u) else s.member k :=
  tget_tset _ u k _ _ _ (Or.inl rfl)

/-- Steps that each keep a relation keep it together. -/
theorem each_keeps {α : Type} {R : State → State → Prop} {f : State → α → State} (hrefl : ∀ s, R s s)
    (htrans : ∀ {s t u}, R s t → R t u → R s u) (hstep : ∀ s x, R s (f s x)) (l : List α) : ∀ s : State, R s (s.each l f) := by
  induction l with
  | nil => exact fun s => hrefl s
  | cons x xs ih => exact fun s => htrans (hstep s x) (ih (f s x))

/-- The members but the head count as not aligned when an enumeration begins. -/
def unaligned (s : State) : State :=
  s.each (List.range 17) fun s u => s.onlyIf (decide (1 < u)) fun s => s.onlyIf (s.member u).present fun s =>
    s.modMember u fun m => { m with aligned := false }

theorem rosterOnly_unaligned (s : State) : RosterOnly s (unaligned s) ∧ (unaligned s).member 1 = s.member 1 := by
  refine each_keeps (R := fun s t => RosterOnly s t ∧ t.member 1 = s.member 1) (fun s => ⟨rfl, rfl⟩)
    (fun h h' => ⟨h.1.trans h'.1, h'.2.trans h.2⟩) (fun s u => ?_) _ s
  unfold State.onlyIf
  split
  next hu =>
    dsimp only
    split
    · refine ⟨rfl, ?_⟩
      rw [member_modMember, if_neg]
      have := of_decide_eq_true hu
      omega
    · exact ⟨rfl, rfl⟩
  · exact ⟨rfl, rfl⟩

/-- The head's address and the completion that is taken back. -/
theorem headNamed (s : State) :
    ((s.setUnit 1).srb aCWY_STATUS 13 false).unit = 1 ∧ RegsBut [aCWY_STATUS] s ((s.setUnit 1).srb aCWY_STATUS 13 false) ∧
      ((s.setUnit 1).srb aCWY_STATUS 13 false).trng = s.trng ∧ ((s.setUnit 1).srb aCWY_STATUS 13 false).lanes = s.lanes ∧
      BytesKept s ((s.setUnit 1).srb aCWY_STATUS 13 false) := by
  refine ⟨?_, ?_, rfl, rfl, bytesKept_of_eq rfl rfl⟩
  · unfold State.unit State.setUnit
    rw [rf_srb_ne _ _ (by decide) (by decide) (by decide), rf_srf_same _ _ _ (by decide) (by decide)]
    rfl
  · have hset : RegsBut [aCWY_STATUS] s (s.setUnit 1) :=
      RegsBut.trans (t := { s with envm := { s.envm with islandUnit := 1 % 32 } }) (regsBut_of_regs rfl _)
        (regsBut_srf _ (by simp) 4 0 1)
    exact RegsBut.trans hset (regsBut_srb _ (by simp) 13 false)

theorem unit_showRoster (s : State) : s.showRoster.unit = s.unit := by
  unfold State.unit State.showRoster
  dsimp only
  rw [rf_srf_ne _ _ _ (by decide) (by decide) (by decide) (by decide), rf_setReg, if_neg (by decide)]

theorem rngFailed_of_regsBut {l : List Nat} {s t : State} (h : RegsBut l s t) (hl : aTRNG_STATUS ∉ l) :
    t.rngFailed = s.rngFailed := by
  unfold State.rngFailed
  rw [rf_of_regsBut h hl (by unfold Counted aTRNG_STATUS; omega)]

theorem enumStart_begins {s : State} (hserved : s.servedTo .nonceDn = none) (hgood : s.rngFailed = false) :
    ∃ t, s.enumStart = t ∧ t.reg (aCWY_PORT 1) = s.reg (aCWY_PORT 1) ∧ t.unit = 1 ∧ (t.member 1).present = true ∧
      t.cwy.walking = true ∧ t.drawWaits .nonceDn = true ∧ t.lanes = s.lanes ∧ BytesKept s t := by
  obtain ⟨hunit, hregs, htrng, hlanes, hbytes⟩ := headNamed s
  unfold State.enumStart
  dsimp only
  generalize (s.setUnit 1).srb aCWY_STATUS 13 false = w at *
  obtain ⟨hroster, hmember⟩ := rosterOnly_unaligned
    (w.modMember 1 fun _ => ⟨true, (w.chainKey w.ksel).isSome && w.startOk, w.cwy.startNo, 0, true⟩)
  have hhead : (w.modMember 1 fun _ => ⟨true, (w.chainKey w.ksel).isSome && w.startOk, w.cwy.startNo, 0, true⟩).member 1 =
      ⟨true, (w.chainKey w.ksel).isSome && w.startOk, w.cwy.startNo, 0, true⟩ := by
    rw [member_modMember, if_pos rfl]
  have hmod : RosterOnly w (w.modMember 1 fun _ => ⟨true, (w.chainKey w.ksel).isSome && w.startOk, w.cwy.startNo, 0, true⟩) := rfl
  have hx := hmod.trans hroster
  rw [hhead] at hmember
  unfold unaligned at hx hmember
  generalize State.each (w.modMember 1 fun _ => ⟨true, (w.chainKey w.ksel).isSome && w.startOk, w.cwy.startNo, 0, true⟩)
    (List.range 17) _ = x at hx hmember ⊢
  have honly := regsOnly_showRoster { x with cwy := { x.cwy with walking := true } }
  have hshow := regsBut_showRoster { x with cwy := { x.cwy with walking := true } }
  have hsame := unit_showRoster { x with cwy := { x.cwy with walking := true } }
  generalize State.showRoster { x with cwy := { x.cwy with walking := true } } = y at *
  have hxregs : x.regs = w.regs := by rw [hx]
  have hxy : RegsBut [aCWY_PRESENT, aCWY_STATUS] w y :=
    RegsBut.trans (t := { x with cwy := { x.cwy with walking := true } }) (regsBut_of_regs hxregs _) hshow
  have hsy : RegsBut [aCWY_PRESENT, aCWY_STATUS] s y := RegsBut.trans (RegsBut.mono hregs (by simp)) hxy
  have hytrng : y.trng = s.trng := by rw [honly.trng, ← htrng, hx]
  have hyserved : y.servedTo .nonceDn = none := by
    unfold State.servedTo
    rw [hytrng]
    exact hserved
  have hygood : y.rngFailed = false := (rngFailed_of_regsBut hsy (by decide)).trans hgood
  obtain ⟨t, hdraw, hwaits, ht⟩ := draw_waits hyserved hygood 16
  have hgo : y.enumGoesOn = t := by
    unfold State.enumGoesOn
    rw [hdraw]
    rfl
  have hyunit : y.unit = 1 := by
    rw [hsame, ← hunit]
    exact rf_congr (t := { x with cwy := { x.cwy with walking := true } }) hxregs _ _ _
  have hycwy : y.cwy = { x.cwy with walking := true } := honly.cwy
  refine ⟨t, hgo, ?_, ?_, ?_, ?_, hwaits, ?_, ?_⟩
  · rw [ht]
    exact hsy _ (by decide) (port_not_counted (by decide))
  · rw [ht]
    exact hyunit
  · have : t.member 1 = x.member 1 := by
      unfold State.member
      rw [ht]
      show tget y.cwy.roster 1 _ = _
      rw [hycwy]
    rw [this, hmember]
  · rw [ht]
    show y.cwy.walking = true
    rw [hycwy]
  · rw [ht]
    exact honly.lanes.trans ((by rw [hx] : x.lanes = w.lanes).trans hlanes)
  · refine BytesKept.trans hbytes (bytesKept_of_eq ?_ ?_)
    · rw [ht]
      exact honly.mem.trans (by rw [hx])
    · rw [ht]
      exact honly.flash.trans (by rw [hx])

/-! ### The events of a link (R442 to R448) -/

theorem portIx_lt (p : Port) : portIx p < 2 := by cases p <;> decide

/-- The port that goes DOWN trains again. -/
def portTrains (s : State) (p : Nat) : State :=
  (((s.setPort p portNil).bump aCWY_AUTH 31 16 ((s.port p).unacked.length + (s.port p).waiting.length)).srf (aCWY_PORT p) 25 24
    1).srb (aCWY_PORT p) 31 true

theorem portTrains_shows (s : State) (p : Nat) :
    ∃ t, portTrains s p = t ∧ t.rf (aCWY_PORT p) 25 24 = 1 ∧ t.rb (aCWY_PORT p) 31 = true ∧ t.port p = portNil ∧
      t.envm = s.envm ∧ BytesKept s t := by
  have honly : RegsOnly (s.setPort p portNil) (portTrains s p) :=
    ((regsOnly_setReg ..).trans (regsOnly_setReg ..)).trans (regsOnly_setReg ..)
  refine ⟨_, rfl, ?_, ?_, ?_, honly.envm, bytesKept_of_eq honly.mem honly.flash⟩
  · unfold portTrains
    rw [rf_srb_ne _ _ (by decide) (by decide) (by decide), rf_srf_same _ _ _ (by decide) (by decide)]
    rfl
  · exact rb_srb_same _ _ (by decide) _
  · rw [State.port, honly.cwy]
    exact port_setPort_same s p portNil

theorem linkLoss_leaves {s : State} {p : Nat} (hp : p < 2) (hup : s.portUp p = true) :
    ∃ t, linkLoss p s = t ∧ t.rf (aCWY_PORT p) 25 24 = 1 ∧ t.rb (aCWY_PORT p) 31 = true ∧ (t.port p).unacked = [] ∧
      (t.port p).waiting = [] ∧ t.envm = s.envm ∧ BytesKept s t := by
  obtain ⟨u, hu, hstate, hretrain, hport, henvm, hbytes⟩ := portTrains_shows s p
  have hkeep : ∃ t, linkLoss p s = t ∧ KeepsPort p u t := by
    unfold portTrains at hu
    unfold linkLoss State.portDown
    rw [if_pos hup, if_neg (by rw [hup]; decide)]
    dsimp only
    rw [hu]
    refine ⟨_, rfl, ?_⟩
    split
    · have hfree : KeepsPort p u (State.forgetDraw { u with cwy := { u.cwy with exchanges := [], walking := false } } .nonceDn) :=
        ⟨rfl, fun _ => rfl, rfl, bytesKept_of_eq rfl rfl⟩
      refine hfree.trans ?_
      split
      · exact (keepsPort_leftBeyond hp _ 1).trans (keepsPort_sendRoster hp _)
      · exact (sends_sendAuth ..).keepsPort hp
    · split
      · exact .refl p u
      · exact keepsPort_closeMirrors hp u
  obtain ⟨t, ht, hk⟩ := hkeep
  have hdown : u.portUp p = false := by
    unfold State.portUp
    rw [hstate]
    rfl
  refine ⟨t, ht, ?_, ?_, ?_, ?_, hk.envm.trans henvm, BytesKept.trans hbytes hk.bytes⟩
  · unfold State.rf
    rw [hk.shown]
    exact hstate
  · unfold State.rb
    rw [hk.shown]
    exact hretrain
  · rw [hk.frames hdown, hport]
    rfl
  · rw [hk.frames hdown, hport]
    rfl

theorem rf_bump_low (s : State) (a n : Nat) : (s.bump a 15 0 n).rf a 15 0 = (s.rf a 15 0 + n) % 65536 :=
  rf_srf_same s a _ (by decide) (by decide)

theorem rf_bump_high (s : State) (a n : Nat) : (s.bump a 31 16 n).rf a 31 16 = (s.rf a 31 16 + n) % 65536 :=
  rf_srf_same s a _ (by decide) (by decide)

/-- A bad frame is counted and asked for again. -/
theorem portErr_counts (s : State) (p : Nat) :
    ∃ u, (s.bump (aCWY_ERR p) 15 0 1).setPort p { s.port p with nakSent := true } = u ∧
      u.port p = { s.port p with nakSent := true } ∧ u.rf (aCWY_ERR p) 15 0 = (s.rf (aCWY_ERR p) 15 0 + 1) % 65536 ∧
      RegsBut [aCWY_ERR p] s u ∧ u.cwy.taken = s.cwy.taken ∧ u.lanes = s.lanes ∧ u.envm = s.envm ∧ BytesKept s u := by
  have honly : RegsOnly s (s.bump (aCWY_ERR p) 15 0 1) := regsOnly_setReg ..
  refine ⟨_, rfl, port_setPort_same _ p _, rf_bump_low s _ 1, RegsBut.trans (regsBut_bump s (by simp) 15 0 1) (regsBut_of_regs rfl _),
    ?_, honly.lanes, honly.envm, bytesKept_of_eq honly.mem honly.flash⟩
  show (s.bump (aCWY_ERR p) 15 0 1).cwy.taken = s.cwy.taken
  rw [honly.cwy]

theorem frameArrival_bad {s : State} {p : Nat} (hp : p < 2) {b : Bytes} (hres : s.resumed = true) (hup : s.portUp p = true)
    (hparse : parseFrame b = none) :
    ∃ t, frameArrival p true b s = t ∧ t.port p = { s.port p with nakSent := true } ∧
      t.rf (aCWY_ERR p) 15 0 = (s.rf (aCWY_ERR p) 15 0 + 1) % 65536 ∧
      t.rf (aQUE_DROP 9) 15 0 = (s.rf (aQUE_DROP 9) 15 0 + (if s.dataBegun p b then 1 else 0)) % 65536 ∧
      RegsBut [aCWY_ERR p, aQUE_DROP 9] s t ∧ t.cwy.taken = s.cwy.taken ∧ t.lanes = s.lanes ∧ t.envm = s.envm ∧ BytesKept s t := by
  obtain ⟨u, hu, hport, herr, hregs, htaken, hlanes, henvm, hbytes⟩ := portErr_counts s p
  have hrun : frameArrival p true b s = u.onlyIf (s.dataBegun p b) fun s => s.drop 9 := by
    unfold frameArrival
    rw [if_neg (by rw [hres, hup]; decide), if_pos rfl, hparse, ← hu]
  have hne : aQUE_DROP 9 ≠ aCWY_ERR p := by unfold aQUE_DROP aCWY_ERR; omega
  have hdrop9 : u.rf (aQUE_DROP 9) 15 0 = s.rf (aQUE_DROP 9) 15 0 :=
    rf_of_regsBut hregs (by simp [hne]) (by unfold Counted aQUE_DROP; omega) 15 0
  have hmono : RegsBut [aCWY_ERR p, aQUE_DROP 9] s u := RegsBut.mono hregs (by simp)
  rw [hrun]
  cases s.dataBegun p b with
  | false =>
    refine ⟨u, rfl, hport, herr, ?_, hmono, htaken, hlanes, henvm, hbytes⟩
    rw [hdrop9, if_neg Bool.false_ne_true, Nat.add_zero, Nat.mod_eq_of_lt]
    exact Nat.mod_lt _ (by decide)
  | true =>
    obtain ⟨t, ht, ⟨hr, hcount⟩, hl, -, hb⟩ := drop_counts u (n := 9) (by decide)
    have honly : RegsOnly u t := ht ▸ (regsOnly_setReg ..).trans (regsOnly_evt ..)
    have hq : qOf 9 = 9 := rfl
    rw [hq] at hr hcount
    refine ⟨t, ht, ?_, ?_, ?_, RegsBut.trans hmono (RegsBut.mono hr (by simp)), ?_, hl.trans hlanes, honly.envm.trans henvm,
      BytesKept.trans hbytes hb⟩
    · rw [State.port, honly.cwy]
      exact hport
    · rw [rf_of_regsBut hr (by simp [Ne.symm hne]) (by unfold Counted aCWY_ERR; omega) 15 0]
      exact herr
    · rw [if_pos rfl, ← hdrop9]
      exact hcount
    · rw [honly.cwy]
      exact htaken

theorem frameArrival_data {s : State} {p : Nat} {b : Bytes} {f : Frame} (hres : s.resumed = true) (hup : s.portUp p = true)
    (hparse : parseFrame b = some f) (hseq : f.lseq = (s.port p).rxSeq) (hdst : f.dst = s.unit) (h0 : f.dst ≠ 0)
    (h31 : f.dst ≠ 31) (hcls : f.cls = 1) :
    frameArrival p true b s =
      (s.setPort p { s.port p with rxSeq := (s.port p).rxSeq + 1, nakSent := false, acked := some f.lseq }).takeIn p f := by
  have hu0 : s.unit ≠ 0 := hdst ▸ h0
  have h32 : s.unit < 32 := Nat.mod_lt _ (by decide)
  have hout : s.forwardPort p f = none := by
    unfold State.forwardPort
    rw [if_neg h0, if_neg (by simp [h31, hu0]), if_pos hdst]
  unfold frameArrival
  rw [if_neg (by rw [hres, hup]; decide), if_pos rfl, hparse]
  dsimp only
  rw [if_neg (not_not_intro hseq), hout]
  dsimp only [Option.map_none, Option.getD_none]
  rw [if_neg Bool.false_ne_true, if_neg (by omega)]
  exact (if_pos (Or.inr (Or.inl hdst))).trans (if_pos (Or.inl hcls))

/-- A port that comes UP, with nothing of the time before it. -/
def portOpened (s : State) (p : Nat) : State :=
  let s := (s.setPort p { portNil with readySent := true }).srf (aCWY_PORT p) 25 24 2
  let s := { s with cwy := (if p = 1 then { s.cwy with exchanges := [], ttDn := 0 }
                            else { s.cwy with stamps := [], ttUp := none }) }
  { s with cwy := { s.cwy with wakeOut := s.cwy.wakeOut.filter fun q => decide (q ≠ p) } }

theorem portOpened_shows (s : State) (p : Nat) :
    ∃ u, portOpened s p = u ∧ u.portUp p = true ∧ u.port p = { portNil with readySent := true } ∧ RegsBut [aCWY_PORT p] s u ∧
      u.lanes = s.lanes ∧ u.envm = s.envm ∧ u.trng = s.trng ∧ u.power = s.power ∧ BytesKept s u := by
  generalize hv : (s.setPort p { portNil with readySent := true }).srf (aCWY_PORT p) 25 24 2 = v
  have honly : RegsOnly (s.setPort p { portNil with readySent := true }) v := hv ▸ regsOnly_setReg ..
  have hstate : v.rf (aCWY_PORT p) 25 24 = 2 := by
    rw [← hv, rf_srf_same _ _ _ (by decide) (by decide)]
    rfl
  have hregs : RegsBut [aCWY_PORT p] s v := by
    rw [← hv]
    exact RegsBut.trans (t := s.setPort p { portNil with readySent := true }) (regsBut_of_regs rfl _)
      (regsBut_srf _ (by simp) 25 24 2)
  have hport : v.port p = { portNil with readySent := true } := by
    rw [State.port, honly.cwy]
    exact port_setPort_same s p _
  have hopen : ∃ u, portOpened s p = u ∧ u.regs = v.regs ∧ u.cwy.ports = v.cwy.ports ∧ u.lanes = v.lanes ∧ u.envm = v.envm ∧
      u.trng = v.trng ∧ u.power = v.power ∧ BytesKept v u := by
    unfold portOpened
    rw [hv]
    refine ⟨_, rfl, rfl, ?_, rfl, rfl, rfl, rfl, bytesKept_of_eq rfl rfl⟩
    dsimp only
    split <;> rfl
  obtain ⟨u, hu, huregs, huports, hulanes, huenvm, hutrng, hupower, hubytes⟩ := hopen
  have hvbytes : BytesKept s v := bytesKept_of_eq honly.mem honly.flash
  refine ⟨u, hu, ?_, ?_, RegsBut.trans hregs (regsBut_of_regs huregs _), hulanes.trans honly.lanes, huenvm.trans honly.envm,
    hutrng.trans honly.trng, hupower.trans honly.power, BytesKept.trans hvbytes hubytes⟩
  · unfold State.portUp
    rw [rf_congr huregs, hstate]
    rfl
  · rw [← hport]
    unfold State.port
    rw [huports]

/-- What follows when a port has come UP: an enumeration at the head, a JOIN of a unit that has an address. -/
def portGoesOn (s : State) (p : Nat) : State :=
  if p = 1 ∧ s.isHead then s.enumStart.pumpQ8
  else if p = 1 ∧ s.unit ≠ 0 then (s.sendAuth 1 0 6 [] []).pumpQ8
  else s.pumpQ8

theorem portComesUp_opens {s : State} {p : Nat} (hres : s.resumed = true) (htrain : s.rf (aCWY_PORT p) 25 24 = 1)
    (hready : (s.port p).readySent = true) (hup : ¬ (s.isHead = true ∧ p = 0)) :
    portComesUp p s = portGoesOn (portOpened s p) p := by
  unfold portComesUp
  rw [if_pos ⟨hres, htrain, hready⟩, if_neg hup]
  rfl

theorem unit_of_regsBut {l : List Nat} {s t : State} (h : RegsBut l s t) (hl : aCWY_STATUS ∉ l) : t.unit = s.unit :=
  rf_of_regsBut h hl (by unfold Counted aCWY_STATUS; omega) 4 0

/-- A unit without an address takes nothing from Q8. -/
theorem pumpQ8_unaddressed {s : State} (h : s.unit = 0) : s.pumpQ8 = s := if_pos (Or.inr (Or.inl h))

/-- The frames after an acknowledged one are all that a port still keeps. -/
def portAcked (s : State) (p : Nat) (l : List Frame) : State := s.setPort p { s.port p with unacked := l, timeouts := 0 }

theorem portAcked_quiet {s : State} {p : Nat} (l : List Frame) (hwait : (s.port p).waiting = []) :
    ((portAcked s p l).port p).waiting = [] := by
  unfold portAcked
  rw [port_setPort_same]
  exact hwait

/-- Frames sent again are counted. -/
theorem resend_counts (s : State) {p : Nat} (hp : p < 2) :
    ∃ t, s.resend p = t ∧ t.rf (aCWY_ERR p) 31 16 = (s.rf (aCWY_ERR p) 31 16 + (s.port p).unacked.length) % 65536 ∧
      RegsBut [aCWY_ERR p] s t ∧ RegsOnly s t := by
  have honly : RegsOnly s (s.resend p) := (regsOnly_setReg ..).trans (regsOnly_evt ..)
  have hregs := regsBut_evt (s.bump (aCWY_ERR p) 31 16 (s.port p).unacked.length) [] (b := 0x13) (by decide) 0x16
    (s.port p).unacked.length
  refine ⟨_, rfl, ?_, ?_, honly⟩
  · rw [← rf_bump_high s (aCWY_ERR p)]
    exact rf_of_regsBut hregs (by simp) (by unfold Counted aCWY_ERR; omega) 31 16
  · exact RegsBut.trans (regsBut_bump s (by simp) 31 16 _) (RegsBut.mono hregs (by simp))

/-- Settles O48: the ports, the links, and the frames that arrive. -/
theorem portsAndLinks : Obligations.PortsAndLinks := by
  unfold Obligations.PortsAndLinks
  refine ⟨fun s p hres htrain => ?lock, fun s p hres htrain hready hhead hunit => ?up,
    fun s hres htrain hready hhead h8 hserved hgood => ?head, fun s p hup => ?loss, fun s p hup hun htimes => ?timeout,
    fun s p b hres hup hparse => ?bad, fun s p b f hres hup hparse hseq hdst h0 h31 hcls => ?data,
    fun s p q l hup hacked hwait h8 => ?ack, fun s p q l hup hacked hwait h8 => ?nak⟩
  case lock =>
    have hrun : lineLock (portIx p) s = s.setPort (portIx p) { s.port (portIx p) with readySent := true } :=
      if_pos ⟨hres, htrain⟩
    exact ⟨_, congrArg done hrun, port_setPort_same .., rfl, rfl, rfl, bytesKept_of_eq rfl rfl⟩
  case up =>
    obtain ⟨u, hu, hopen, hport, hregs, hlanes, henvm, htrng, hpower, hbytes⟩ := portOpened_shows s (portIx p)
    have hu0 : u.unit = 0 := (unit_of_regsBut hregs (by
      unfold aCWY_STATUS aCWY_PORT
      simp
      omega)).trans hunit
    have hunhead : u.isHead = false := (congrArg Power.cwyHead hpower).trans hhead
    have hrun : portComesUp (portIx p) s = u := by
      rw [portComesUp_opens hres htrain hready (by rw [hhead]; simp), hu]
      unfold portGoesOn
      rw [if_neg (by rw [hunhead]; simp), if_neg (by rw [hu0]; simp)]
      exact pumpQ8_unaddressed hu0
    exact ⟨u, congrArg done hrun, hopen, hport, hregs, hlanes, henvm, hbytes⟩
  case head =>
    obtain ⟨u, hu, hopen, hport, hregs, hlanes, henvm, htrng, hpower, hbytes⟩ := portOpened_shows s 1
    have hhead' : u.isHead = true := (congrArg Power.cwyHead hpower).trans hhead
    have huserved : u.servedTo .nonceDn = none := by
      unfold State.servedTo
      rw [htrng]
      exact hserved
    obtain ⟨t, ht, hshown, hunit, hmember, hwalk, hwaits, htlanes, htbytes⟩ :=
      enumStart_begins huserved ((rngFailed_of_regsBut hregs (by decide)).trans hgood)
    have hrun : portComesUp 1 s = t := by
      rw [portComesUp_opens hres htrain hready (by simp), hu]
      unfold portGoesOn
      rw [if_pos ⟨rfl, hhead'⟩, ht]
      refine pumpQ8_empty ?_
      rw [State.lane, htlanes, hlanes]
      exact h8
    refine ⟨t, congrArg done hrun, ?_, hunit, hmember, hwalk, hwaits, htlanes.trans hlanes, BytesKept.trans hbytes htbytes⟩
    unfold State.portUp State.rf at hopen ⊢
    rw [hshown]
    exact hopen
  case loss =>
    obtain ⟨t, ht, hrest⟩ := linkLoss_leaves (portIx_lt p) hup
    exact ⟨t, congrArg done ht, hrest⟩
  case timeout =>
    have hrun : retransmit (portIx p) s = (s.setPort (portIx p) { s.port (portIx p) with
        timeouts := (s.port (portIx p)).timeouts + 1 }).resend (portIx p) :=
      (if_neg (by simp [hup, hun])).trans (if_neg (by omega))
    obtain ⟨t, ht, hcount, hregs, honly⟩ := resend_counts (s.setPort (portIx p) { s.port (portIx p) with
        timeouts := (s.port (portIx p)).timeouts + 1 }) (portIx_lt p)
    rw [port_setPort_same] at hcount
    refine ⟨t, congrArg done (hrun.trans ht), ?_, hcount, RegsBut.trans (regsBut_of_regs rfl _) hregs, honly.lanes, honly.envm,
      bytesKept_of_eq honly.mem honly.flash⟩
    rw [State.port, honly.cwy]
    exact port_setPort_same ..
  case bad =>
    obtain ⟨t, ht, hrest⟩ := frameArrival_bad (portIx_lt p) hres hup hparse
    exact ⟨t, congrArg done ht, hrest⟩
  case data =>
    exact ⟨_, congrArg done (frameArrival_data hres hup hparse hseq hdst h0 h31 hcls), rfl, port_setPort_same .., rfl, rfl, rfl,
      bytesKept_of_eq rfl rfl⟩
  case ack =>
    have hrun : ackUpTo (portIx p) q s = portAcked s (portIx p) l := by
      unfold ackUpTo
      rw [if_neg (by rw [hup]; decide), hacked]
      show ((portAcked s (portIx p) l).pump (portIx p)).pumpQ8 = _
      rw [pump_empty (portAcked_quiet l hwait)]
      exact pumpQ8_empty h8
    exact ⟨_, congrArg done hrun, port_setPort_same .., regsBut_of_regs rfl _, rfl, rfl, bytesKept_of_eq rfl rfl⟩
  case nak =>
    obtain ⟨t, ht, hcount, hregs, honly⟩ := resend_counts (portAcked s (portIx p) l) (portIx_lt p)
    have hport : t.port (portIx p) = { s.port (portIx p) with unacked := l, timeouts := 0 } := by
      rw [State.port, honly.cwy]
      exact port_setPort_same ..
    have hrun : nakFrom (portIx p) q s = t := by
      unfold nakFrom
      rw [if_neg (by rw [hup]; decide), hacked]
      show (((portAcked s (portIx p) l).resend (portIx p)).pump (portIx p)).pumpQ8 = _
      rw [ht, pump_empty (by rw [hport]; exact hwait)]
      refine pumpQ8_empty ?_
      rw [State.lane, honly.lanes]
      exact h8
    have hunacked : ((portAcked s (portIx p) l).port (portIx p)).unacked = l := congrArg CwyPort.unacked (port_setPort_same ..)
    rw [hunacked] at hcount
    exact ⟨t, congrArg done hrun, hport, hcount, RegsBut.trans (regsBut_of_regs rfl _) hregs, honly.lanes, honly.envm,
      bytesKept_of_eq honly.mem honly.flash⟩

end Proofs
end Sys2Proof

/-! PROOFS. Enumeration and time transfer (R452 to R460). -/
namespace Sys2Proof
namespace Proofs

open Sys2Proof.Machine Sys2Proof.Safety Sys2Proof.Laws

/-! ### The roster's mask (R453) -/

/-- The mask of the numbers below n that a test takes has exactly their bits. -/
theorem maskOf_filter (f : Nat → Bool) : ∀ n, maskOf ((List.range n).filter f) < 2 ^ n ∧
    ∀ j < n, (maskOf ((List.range n).filter f)).testBit j = f j
  | 0 => ⟨Nat.one_pos, fun j hj => absurd hj (Nat.not_lt_zero j)⟩
  | n + 1 => by
    obtain ⟨hlt, hbits⟩ := maskOf_filter f n
    have hstep : maskOf ((List.range (n + 1)).filter f) =
        if f n then putBit (maskOf ((List.range n).filter f)) n true else maskOf ((List.range n).filter f) := by
      unfold maskOf
      rw [List.range_succ, List.filter_append, List.foldl_append]
      cases h : f n <;> simp [h]
    have hclear : testBit (maskOf ((List.range n).filter f)) n = false := Nat.testBit_lt_two_pow hlt
    have hput : putBit (maskOf ((List.range n).filter f)) n true = 2 ^ n + maskOf ((List.range n).filter f) := by
      unfold putBit
      rw [hclear]
      simp [Nat.add_comm]
    generalize maskOf ((List.range n).filter f) = m at *
    rw [hstep]
    cases hf : f n with
    | false =>
      refine ⟨by rw [if_neg (by decide), Nat.pow_succ]; omega, fun j hj => ?_⟩
      rw [if_neg (by decide)]
      rcases Nat.lt_succ_iff_lt_or_eq.1 hj with h | rfl
      · exact hbits j h
      · rw [hf]
        exact hclear
    | true =>
      rw [if_pos rfl, hput]
      refine ⟨by rw [Nat.pow_succ]; omega, fun j hj => ?_⟩
      rcases Nat.lt_succ_iff_lt_or_eq.1 hj with h | rfl
      · rw [Nat.testBit_two_pow_add_gt h]
        exact hbits j h
      · rw [Nat.testBit_two_pow_add_eq, hf]
        show (!testBit m j) = true
        rw [hclear]
        rfl

/-- CWY_PRESENT shows who is present and who is paired. -/
theorem showRoster_bits (s : State) {u : Nat} (h1 : 1 ≤ u) (h16 : u ≤ 16) :
    s.showRoster.rb aCWY_PRESENT (u - 1) = (s.member u).present ∧
      s.showRoster.rb aCWY_PRESENT (u + 15) = (s.member u).paired := by
  obtain ⟨hpresent, hbit⟩ := maskOf_filter (fun k => (s.member (k + 1)).present) 16
  obtain ⟨hpaired, hbit'⟩ := maskOf_filter (fun k => (s.member (k + 1)).paired) 16
  have hu : u - 1 + 1 = u := by omega
  have hword : s.showRoster.reg aCWY_PRESENT = w32 (s.memberMask (fun m => m.paired) * 65536 + s.memberMask fun m => m.present) := by
    unfold State.showRoster
    dsimp only
    rw [reg_srf, if_neg (by decide), reg_setReg_same]
  have hlt : s.memberMask (fun m => m.present) < 2 ^ 16 := hpresent
  have hlow : (s.memberMask fun m => m.present).testBit (u - 1) = (s.member u).present := by
    rw [← hu]
    exact hbit (u - 1) (by omega)
  have hhigh : (s.memberMask fun m => m.paired).testBit (u - 1) = (s.member u).paired := by
    rw [← hu]
    exact hbit' (u - 1) (by omega)
  have hlt' : s.memberMask (fun m => m.paired) < 2 ^ 16 := hpaired
  unfold State.rb bit
  rw [hword]
  generalize s.memberMask (fun m => m.present) = a at *
  generalize s.memberMask (fun m => m.paired) = b at *
  have hbits : ∀ i < 32, (w32 (b * 65536 + a)).getLsbD i = if i < 16 then a.testBit i else b.testBit (i - 16) := fun i hi => by
    rw [w32, BitVec.getLsbD_ofNat, decide_eq_true hi, Bool.true_and, show b * 65536 + a = 2 ^ 16 * b + a by omega,
      Nat.testBit_two_pow_mul_add _ hlt]
  refine ⟨?_, ?_⟩
  · rw [hbits _ (by omega), if_pos (by omega), hlow]
  · rw [hbits _ (by omega), if_neg (by omega), show u + 15 - 16 = u - 1 by omega, hhigh]

/-! ### Frames that are taken -/

/-- Without the frame that is taken. -/
def frameTaken (s : State) (x : Nat × Frame) : State := { s with cwy := { s.cwy with taken := s.cwy.taken.erase x } }

theorem takeFrame_front {s : State} {x : Nat × Frame} {c sub : Nat}
    (h : s.cwy.taken.find? (fun x => decide (x.2.cls = c)) = some x) (hsub : x.2.sub = sub) :
    s.takeFrame c sub = some (x.1, x.2, frameTaken s x) := by
  unfold State.takeFrame
  rw [h]
  exact if_pos hsub

/-! ### ENUM (R452) -/

/-- The chain and Q8 are as before. -/
def KeepsChain (s t : State) : Prop := t.cwy = s.cwy ∧ t.lane 8 = s.lane 8

theorem KeepsChain.trans {s t u : State} (h : KeepsChain s t) (h' : KeepsChain t u) : KeepsChain s u :=
  ⟨h'.1.trans h.1, h'.2.trans h.2⟩

theorem KeepsChain.refl (s : State) : KeepsChain s s := ⟨rfl, rfl⟩

theorem RegsOnly.keepsChain {s t : State} (h : RegsOnly s t) : KeepsChain s t :=
  ⟨h.cwy, by rw [State.lane, h.lanes]; rfl⟩

theorem keepsChain_freeSes (s : State) (n : Nat) : KeepsChain s (s.freeSes n) := by
  have hset : KeepsChain s { s.setSes n { sesNil with gen := (s.ses n).gen } with dist := s.dist.unmap n } := ⟨rfl, rfl⟩
  refine hset.trans (each_keeps .refl .trans (fun s c => ?_) _ _)
  unfold State.onlyIf
  split
  · exact RegsOnly.keepsChain (regsOnly_setReg ..)
  · exact .refl s

theorem keepsChain_loseJobs (s : State) (n : Nat) : KeepsChain s (s.loseJobs n) := by
  unfold State.loseJobs
  dsimp only
  split
  · exact ⟨rfl, (lane_setLane ..).trans (if_neg (by decide))⟩
  · exact .refl s

theorem keepsChain_closeMirrors (s : State) : KeepsChain s s.closeMirrors := by
  refine each_keeps .refl .trans (fun s n => ?_) _ s
  unfold State.closeOne
  split
  · exact .refl s
  · refine (keepsChain_loseJobs s n).trans ?_
    dsimp only
    split
    · exact ⟨rfl, rfl⟩
    · exact keepsChain_freeSes _ n

theorem sends_sendEnumAck (s : State) : Sends s s.sendEnumAck := by
  unfold State.sendEnumAck
  split
  · exact sends_sendAuth ..
  · exact sends_cwySend s (by decide) _

/-- The unit leaves the chain it was in and takes the address and the nonce. -/
def enumTaken (s : State) (f : Frame) : State :=
  let s := (s.onlyIf (decide (s.unit ≠ 0)) State.closeMirrors).setUnit (byteAt f.payload 0)
  { s with cwy := { s.cwy with nh := slice f.payload 1 16, alignedSent := false } }

theorem enumTaken_shows (s : State) (f : Frame) :
    ∃ u, enumTaken s f = u ∧ u.unit = byteAt f.payload 0 % 32 ∧ u.cwy = { s.cwy with nh := slice f.payload 1 16, alignedSent := false } ∧
      u.lane 8 = s.lane 8 ∧ u.portUp 1 = s.portUp 1 ∧ (s.unit = 0 → RegsBut [aCWY_STATUS] s u ∧ u.lanes = s.lanes) ∧
      BytesKept s u := by
  obtain ⟨v, hv, hcwy, hlane, hkeeps, hsame⟩ : ∃ v, s.onlyIf (decide (s.unit ≠ 0)) State.closeMirrors = v ∧ v.cwy = s.cwy ∧
      v.lane 8 = s.lane 8 ∧ KeepsPort 1 s v ∧ (s.unit = 0 → v = s) := by
    refine ⟨_, rfl, ?_⟩
    unfold State.onlyIf
    split
    next h =>
      obtain ⟨hcwy, hlane⟩ := keepsChain_closeMirrors s
      exact ⟨hcwy, hlane, keepsPort_closeMirrors (by decide) s, fun h0 => absurd h0 (of_decide_eq_true h)⟩
    · exact ⟨rfl, rfl, .refl 1 s, fun _ => rfl⟩
  have hregs : RegsBut [aCWY_STATUS] v (v.setUnit (byteAt f.payload 0)) :=
    RegsBut.trans (t := { v with envm := { v.envm with islandUnit := byteAt f.payload 0 % 32 } }) (regsBut_of_regs rfl _)
      (regsBut_srf _ (by simp) 4 0 _)
  have hunit : (v.setUnit (byteAt f.payload 0)).unit = byteAt f.payload 0 % 32 := by
    unfold State.unit State.setUnit
    rw [rf_srf_same _ _ _ (by decide) (by decide)]
    rfl
  have hbytes : BytesKept v (v.setUnit (byteAt f.payload 0)) := bytesKept_of_eq rfl rfl
  have hrest : (v.setUnit (byteAt f.payload 0)).cwy = v.cwy ∧ (v.setUnit (byteAt f.payload 0)).lanes = v.lanes := ⟨rfl, rfl⟩
  have heq : enumTaken s f = { v.setUnit (byteAt f.payload 0) with
      cwy := { (v.setUnit (byteAt f.payload 0)).cwy with nh := slice f.payload 1 16, alignedSent := false } } := by
    rw [← hv]
    rfl
  generalize v.setUnit (byteAt f.payload 0) = w at *
  obtain ⟨hwcwy, hwlanes⟩ := hrest
  refine ⟨_, heq, hunit, ?_, ?_, ?_, fun h0 => ?_, BytesKept.trans hkeeps.bytes (BytesKept.trans hbytes (bytesKept_of_eq rfl rfl))⟩
  · show ({ w.cwy with nh := _, alignedSent := _ } : Cwy) = _
    rw [hwcwy, hcwy]
  · show tget w.lanes 8 laneNil = _
    rw [hwlanes]
    exact hlane
  · exact (portUp_of_regsBut hregs (by decide) (by decide)).trans hkeeps.portUp
  · have := hsame h0
    rw [this] at hregs hwlanes
    exact ⟨RegsBut.trans hregs (regsBut_of_regs rfl _), hwlanes⟩

theorem enumArrives_eq {s : State} {x : Nat × Frame} (hfront : s.cwy.taken.find? (fun x => decide (x.2.cls = 0)) = some x)
    (hsub : x.2.sub = 1) (hhead : s.isHead = false) (hup : x.1 = 0) :
    enumArrives s = (if (enumTaken (frameTaken s x) x.2).sendEnumAck.portUp 1
      then (enumTaken (frameTaken s x) x.2).sendEnumAck.sendEnum (byteAt x.2.payload 0 + 1)
      else (enumTaken (frameTaken s x) x.2).sendEnumAck).pumpQ8 := by
  unfold enumArrives
  rw [takeFrame_front hfront hsub]
  dsimp only
  rw [if_neg (by rw [hup]; exact fun h => h.elim (fun h => Bool.false_ne_true (hhead.symm.trans h)) fun h => h rfl)]
  rfl

theorem enum_takes {s : State} {x : Nat × Frame} (hfront : s.cwy.taken.find? (fun x => decide (x.2.cls = 0)) = some x)
    (hsub : x.2.sub = 1) (hhead : s.isHead = false) (hup : x.1 = 0) (hdn : s.portUp 1 = false) (h8 : (s.lane 8).committed = []) :
    ∃ t, enumArrives s = t ∧ t.unit = byteAt x.2.payload 0 % 32 ∧ t.cwy.nh = slice x.2.payload 1 16 ∧
      t.cwy.taken = s.cwy.taken.erase x ∧
      (s.unit = 0 → RegsBut [aCWY_STATUS, aCWY_AUTH, aAES_COUNT] s t ∧ t.lanes = s.lanes) ∧ BytesKept s t := by
  obtain ⟨u, hu, hunit, hcwy, hlane, hport, hregs, hbytes⟩ := enumTaken_shows (frameTaken s x) x.2
  have hsend := sends_sendEnumAck u
  have hnodn : u.sendEnumAck.portUp 1 = false := (hsend.portUp (by decide)).trans (hport.trans hdn)
  have hq8 : (u.sendEnumAck.lane 8).committed = [] := by
    rw [State.lane, hsend.lanes]
    exact (congrArg Lane.committed hlane).trans h8
  have hrun : enumArrives s = u.sendEnumAck := by
    rw [enumArrives_eq hfront hsub hhead hup, hu, if_neg (by rw [hnodn]; decide)]
    exact pumpQ8_empty hq8
  generalize u.sendEnumAck = t at *
  refine ⟨t, hrun, ?_, ?_, ?_, fun h0 => ?_, BytesKept.trans (t := frameTaken s x) (bytesKept_of_eq rfl rfl)
    (BytesKept.trans hbytes hsend.bytes)⟩
  · rw [unit_of_regsBut hsend.regs (by decide), hunit]
  · rw [hsend.cwy, hcwy]
  · rw [hsend.cwy, hcwy]
    rfl
  · obtain ⟨hr, hl⟩ := hregs h0
    refine ⟨?_, hsend.lanes.trans hl⟩
    exact RegsBut.trans (t := u) (RegsBut.mono (RegsBut.trans (t := frameTaken s x) (regsBut_of_regs rfl _) hr) (by simp))
      (RegsBut.mono hsend.regs (by simp))

/-! ### ENUM_ACK (R451, R452) -/

/-- A frame opens where its key is there, the AES mask generator has not stopped, and the frame verifies. -/
theorem openAuth_opens (s : State) (f : Frame) (nh : Bytes) :
    (s.openAuth f nh).1.isSome =
        (!s.maskStopped 0 && ((s.chainKey (f.flags.toNat % 2)).bind fun k => openFrame k f nh).isSome) ∧
      Sends s (s.openAuth f nh).2 := by
  have hsend := sends_innerJob s
  have hcode : (s.innerJob engAes).1 = if s.maskStopped 0 then cRngFail else cOk := rfl
  unfold State.openAuth
  cases s.chainKey (f.flags.toNat % 2) with
  | none => exact ⟨by simp, .refl s⟩
  | some k =>
    dsimp only
    generalize s.innerJob engAes = r at *
    obtain ⟨c, t⟩ := r
    dsimp only at *
    refine ⟨?_, hsend⟩
    rw [hcode]
    cases s.maskStopped 0 with
    | true => simp
    | false => simp

/-- What the head notes of the unit that answers. -/
def ackNoted (s : State) (ok : Bool) (f : Frame) (was : Bool) : State :=
  if ok then
    (s.modMember f.src fun _ => ⟨true, true, (frameStart f).1, (frameStart f).2, false⟩).onlyIf (!was) fun s => s.chainEvent 1 f.src
  else ((s.refuseFrame.srb aCWY_STATUS 14 true).modMember f.src fun _ => ⟨true, false, 0, 0, false⟩).chainEvent 3 f.src

theorem ackNoted_shows (s : State) (ok : Bool) (f : Frame) (was : Bool) :
    ((ackNoted s ok f was).member f.src).present = true ∧ ((ackNoted s ok f was).member f.src).paired = ok ∧
      (ackNoted s ok f was).cwy.taken = s.cwy.taken ∧ (ackNoted s ok f was).envm = s.envm ∧ BytesKept s (ackNoted s ok f was) := by
  cases ok with
  | true =>
    obtain ⟨t, ht, hevent⟩ : ∃ t, ackNoted s true f was = t ∧
        EventOnly (s.modMember f.src fun _ => ⟨true, true, (frameStart f).1, (frameStart f).2, false⟩) t := by
      refine ⟨_, rfl, ?_⟩
      unfold ackNoted
      rw [if_pos rfl]
      unfold State.onlyIf
      split
      · exact eventOnly_chainEvent ..
      · exact .refl _
    have hmember : t.member f.src = ⟨true, true, (frameStart f).1, (frameStart f).2, false⟩ := by
      rw [State.member, hevent.cwy]
      exact (member_modMember s f.src f.src _).trans (if_pos rfl)
    rw [ht, hmember]
    refine ⟨rfl, rfl, ?_, hevent.envm, BytesKept.trans (bytesKept_of_eq rfl rfl) hevent.bytes⟩
    rw [hevent.cwy]
    rfl
  | false =>
    have honly : RegsOnly s (s.refuseFrame.srb aCWY_STATUS 14 true) := (regsOnly_setReg ..).trans (regsOnly_setReg ..)
    have heq : ackNoted s false f was =
        ((s.refuseFrame.srb aCWY_STATUS 14 true).modMember f.src fun _ => ⟨true, false, 0, 0, false⟩).chainEvent 3 f.src := rfl
    generalize s.refuseFrame.srb aCWY_STATUS 14 true = v at *
    have hevent := eventOnly_chainEvent (v.modMember f.src fun _ => ⟨true, false, 0, 0, false⟩) 3 f.src
    have hmember : (ackNoted s false f was).member f.src = ⟨true, false, 0, 0, false⟩ := by
      rw [heq, State.member, hevent.cwy]
      exact (member_modMember v f.src f.src _).trans (if_pos rfl)
    rw [hmember, heq]
    refine ⟨rfl, rfl, ?_, hevent.envm.trans honly.envm,
      BytesKept.trans (t := v) (bytesKept_of_eq honly.mem honly.flash) (BytesKept.trans (bytesKept_of_eq rfl rfl) hevent.bytes)⟩
    rw [hevent.cwy]
    show v.cwy.taken = s.cwy.taken
    rw [honly.cwy]

theorem enumAck_pairs {s : State} {x : Nat × Frame} (hfront : s.cwy.taken.find? (fun x => decide (x.2.cls = 0)) = some x)
    (hsub : x.2.sub = 2) (hhead : s.isHead = true) (h2 : 2 ≤ x.2.src) (h16 : x.2.src ≤ 16) (hmore : byteAt x.2.payload 24 ≠ 0) :
    ∃ t, enumAckArrives s = t ∧ (t.member x.2.src).present = true ∧
      (t.member x.2.src).paired = (!s.maskStopped 0 && ((s.chainKey (x.2.flags.toNat % 2)).bind fun k => openFrame k x.2 s.cwy.nh).isSome) ∧
      t.rb aCWY_PRESENT (x.2.src - 1) = true ∧
      t.rb aCWY_PRESENT (x.2.src + 15) = (!s.maskStopped 0 && ((s.chainKey (x.2.flags.toNat % 2)).bind fun k => openFrame k x.2 s.cwy.nh).isSome) ∧
      t.cwy.taken = s.cwy.taken.erase x ∧ t.envm = s.envm ∧ BytesKept s t := by
  obtain ⟨hok, hopen⟩ := openAuth_opens (frameTaken s x) x.2 s.cwy.nh
  have hok' : ((frameTaken s x).openAuth x.2 s.cwy.nh).1.isSome =
      (!s.maskStopped 0 && ((s.chainKey (x.2.flags.toNat % 2)).bind fun k => openFrame k x.2 s.cwy.nh).isSome) := hok
  rw [← hok']
  obtain ⟨u, hu⟩ : ∃ u, ackNoted ((frameTaken s x).openAuth x.2 s.cwy.nh).2 ((frameTaken s x).openAuth x.2 s.cwy.nh).1.isSome x.2
    (s.member x.2.src).present = u := ⟨_, rfl⟩
  have hrun : enumAckArrives s = u.showRoster := by
    unfold enumAckArrives
    rw [takeFrame_front hfront hsub]
    dsimp only
    rw [if_neg (by
      have hh : (frameTaken s x).isHead = true := hhead
      rw [hh]
      simp
      omega), if_neg hmore, ← hu]
    rfl
  obtain ⟨hpresent, hpaired, htaken, henvm, hbytes⟩ := ackNoted_shows ((frameTaken s x).openAuth x.2 s.cwy.nh).2
    ((frameTaken s x).openAuth x.2 s.cwy.nh).1.isSome x.2 (s.member x.2.src).present
  rw [hu] at hpresent hpaired htaken henvm hbytes
  generalize ((frameTaken s x).openAuth x.2 s.cwy.nh).1.isSome = ok at *
  have honly := regsOnly_showRoster u
  obtain ⟨hb1, hb2⟩ := showRoster_bits u (u := x.2.src) (by omega) h16
  have hmember : u.showRoster.member x.2.src = u.member x.2.src := by
    unfold State.member
    rw [honly.cwy]
  refine ⟨_, hrun, ?_, ?_, hb1.trans hpresent, hb2.trans hpaired, ?_, ?_, ?_⟩
  · rw [hmember, hpresent]
  · rw [hmember, hpaired]
  · rw [honly.cwy, htaken, hopen.cwy]
    rfl
  · rw [honly.envm, henvm, hopen.envm]
    rfl
  · refine BytesKept.trans (t := frameTaken s x) (bytesKept_of_eq rfl rfl) (BytesKept.trans hopen.bytes (BytesKept.trans hbytes ?_))
    exact bytesKept_of_eq honly.mem honly.flash

/-! ### ROSTER (R453) -/

theorem rosterOnly_modMember (s : State) (u : Nat) (f : Member → Member) : RosterOnly s (s.modMember u f) := rfl

theorem rosterOnly_each {α : Type} {f : State → α → State} (h : ∀ s x, RosterOnly s (f s x)) (l : List α) (s : State) :
    RosterOnly s (s.each l f) :=
  each_keeps (R := RosterOnly) (fun _ => rfl) .trans h l s

/-- What holds of a member that a step sets, and that no other step changes, holds after all steps. -/
theorem each_member {P : Nat → Member → Prop} {f : State → Nat → State}
    (hset : ∀ s u, P u ((f s u).member u)) (hkeep : ∀ s u k, k ≠ u → (f s u).member k = s.member k) (l : List Nat) :
    ∀ (s : State) (k : Nat), (k ∈ l ∨ P k (s.member k)) → P k ((s.each l f).member k) := by
  induction l with
  | nil => exact fun s k h => h.elim (fun h => absurd h List.not_mem_nil) id
  | cons u l ih =>
    intro s k h
    refine ih (f s u) k ?_
    by_cases hk : k = u
    · exact Or.inr (hk ▸ hset s u)
    · rcases h with h | h
      · exact Or.inl ((List.mem_cons.1 h).resolve_left hk)
      · exact Or.inr (by rw [hkeep s u k hk]; exact h)

/-- What a ROSTER says of unit u. -/
def RosterSays (b : Bytes) (u : Nat) (m : Member) : Prop :=
  m.present = testBit (byteAt b (4 * u - 3)) 0 ∧ m.paired = testBit (byteAt b (4 * u - 3)) 1 ∧ m.start = ofLE (slice b (4 * u - 2) 3)

/-- The entry of a roster that a step takes. -/
def rosterEntry (b : Bytes) (s : State) (u : Nat) : State :=
  let g := byteAt b (1 + 4 * (u - 1))
  let st := ofLE (slice b (2 + 4 * (u - 1)) 3)
  s.modMember u fun m => ⟨testBit g 0, testBit g 1, st, if m.start = st then m.maxCount else 0, m.aligned⟩

theorem rosterOnly_entry (b : Bytes) (s : State) (u : Nat) : RosterOnly s (rosterEntry b s u) := by
  unfold rosterEntry
  exact rosterOnly_modMember ..

theorem rosterEntry_says (b : Bytes) (s : State) {u : Nat} (h : 1 ≤ u) : RosterSays b u ((rosterEntry b s u).member u) := by
  unfold rosterEntry RosterSays
  dsimp only
  rw [member_modMember, if_pos rfl, show 4 * u - 3 = 1 + 4 * (u - 1) by omega, show 4 * u - 2 = 2 + 4 * (u - 1) by omega]
  exact ⟨rfl, rfl, rfl⟩

theorem rosterEntry_keeps (b : Bytes) (s : State) {u k : Nat} (h : k ≠ u) : (rosterEntry b s u).member k = s.member k := by
  unfold rosterEntry
  dsimp only
  rw [member_modMember, if_neg h]

theorem roster_taken {s : State} {x : Nat × Frame} (hfront : s.cwy.taken.find? (fun x => decide (x.2.cls = 0)) = some x)
    (hsub : x.2.sub = 3) (hhead : s.isHead = false) :
    ∃ t, rosterArrives s = t ∧ (∀ k, 1 ≤ k → k ≤ 16 → RosterSays x.2.payload k (t.member k)) ∧
      t.cwy.taken = s.cwy.taken.erase x ∧ RegsBut [aCWY_STATUS, aCWY_PRESENT] s t ∧ t.lanes = s.lanes ∧
      t.envm = s.envm ∧ BytesKept s t := by
  have heach : RosterOnly (frameTaken s x) ((frameTaken s x).each ((List.range 17).drop 1) (rosterEntry x.2.payload)) :=
    rosterOnly_each (rosterOnly_entry x.2.payload) _ _
  have hsays : ∀ k, 1 ≤ k → k ≤ 16 → RosterSays x.2.payload k
      (((frameTaken s x).each ((List.range 17).drop 1) (rosterEntry x.2.payload)).member k) := fun k h1 h16 => by
    refine each_member (P := fun k m => 1 ≤ k → RosterSays x.2.payload k m) (fun s u hu => rosterEntry_says _ s hu)
      (fun s u k hk => rosterEntry_keeps _ s hk) _ _ k (Or.inl ?_) h1
    rw [show (List.range 17).drop 1 = [1, 2, 3, 4, 5, 6, 7, 8, 9, 10, 11, 12, 13, 14, 15, 16] from rfl]
    simp
    omega
  obtain ⟨u, hu⟩ : ∃ u, (frameTaken s x).each ((List.range 17).drop 1) (rosterEntry x.2.payload) = u := ⟨_, rfl⟩
  rw [hu] at heach hsays
  have hrun : rosterArrives s = u.showRoster.onlyIf ((u.member u.unit).present && !(u.member u.unit).paired)
      fun s => s.srb aCWY_STATUS 14 true := by
    unfold rosterArrives
    rw [takeFrame_front hfront hsub]
    dsimp only
    rw [if_neg (by
      have hh : (frameTaken s x).isHead = false := hhead
      rw [hh]
      decide), ← hu]
    rfl
  obtain ⟨t, ht, honly, hregs⟩ : ∃ t, u.showRoster.onlyIf ((u.member u.unit).present && !(u.member u.unit).paired)
      (fun s => s.srb aCWY_STATUS 14 true) = t ∧ RegsOnly u t ∧ RegsBut [aCWY_STATUS, aCWY_PRESENT] u t := by
    refine ⟨_, rfl, (regsOnly_showRoster u).trans (regsOnly_onlyIf (fun _ => regsOnly_setReg ..) _ _), ?_⟩
    refine RegsBut.trans (t := u.showRoster) (RegsBut.mono (regsBut_showRoster u) (by simp)) ?_
    unfold State.onlyIf
    split
    · exact regsBut_srb _ (by simp) 14 true
    · exact regsBut_of_regs rfl _
  refine ⟨t, hrun.trans ht, fun k h1 h16 => ?_, ?_, ?_, ?_, ?_, ?_⟩
  · rw [State.member, honly.cwy]
    exact hsays k h1 h16
  · rw [honly.cwy, heach]
    rfl
  · exact RegsBut.trans (t := u) (regsBut_of_regs (by rw [heach]; rfl) _) hregs
  · exact honly.lanes.trans (by rw [heach]; rfl)
  · exact honly.envm.trans (by rw [heach]; rfl)
  · exact bytesKept_of_eq (honly.mem.trans (by rw [heach]; rfl)) (honly.flash.trans (by rw [heach]; rfl))

/-! ### ALIGNED, LOST, JOIN and ENUM_GO (R452 to R455) -/

/-- The chain is as before, and of the registers CWY_STATUS may differ. -/
structure ChecksOnly (s t : State) : Prop where
  cwy : t.cwy = s.cwy
  envm : t.envm = s.envm
  regs : RegsBut [aCWY_STATUS] s t
  bytes : BytesKept s t

theorem checksOnly_enumCheck (s : State) : ChecksOnly s s.enumCheck := by
  unfold State.enumCheck
  dsimp only
  split
  · have honly : RegsOnly s (s.srb aCWY_STATUS 13 true) := regsOnly_setReg ..
    have hregs : RegsBut [aCWY_STATUS] s (s.srb aCWY_STATUS 13 true) := regsBut_srb s (by simp) 13 true
    generalize s.srb aCWY_STATUS 13 true = v at *
    have hevent := eventOnly_chainEventFree v 4
    exact ⟨hevent.cwy.trans honly.cwy, hevent.envm.trans honly.envm, RegsBut.trans hregs (RegsBut.mono hevent.2 (by simp)),
      BytesKept.trans (bytesKept_of_eq honly.mem honly.flash) hevent.bytes⟩
  · exact ⟨rfl, rfl, regsBut_of_regs rfl _, bytesKept_of_eq rfl rfl⟩

theorem aligned_noted {s : State} {x : Nat × Frame} (hfront : s.cwy.taken.find? (fun x => decide (x.2.cls = 0)) = some x)
    (hsub : x.2.sub = 4) (hhead : s.isHead = true) :
    ∃ t, alignedArrives s = t ∧ (t.member x.2.src).aligned = true ∧ t.cwy.taken = s.cwy.taken.erase x ∧
      RegsBut [aCWY_STATUS] s t ∧ t.envm = s.envm ∧ BytesKept s t := by
  have hrun : alignedArrives s = ((frameTaken s x).modMember x.2.src fun m => { m with aligned := true }).enumCheck := by
    unfold alignedArrives
    rw [takeFrame_front hfront hsub]
    dsimp only
    rw [if_neg (by
      have hh : (frameTaken s x).isHead = true := hhead
      rw [hh]
      decide)]
  have hcheck := checksOnly_enumCheck ((frameTaken s x).modMember x.2.src fun m => { m with aligned := true })
  refine ⟨_, hrun, ?_, ?_, RegsBut.trans (regsBut_of_regs rfl _) hcheck.regs, hcheck.envm,
    BytesKept.trans (bytesKept_of_eq rfl rfl) hcheck.bytes⟩
  · rw [State.member, hcheck.cwy]
    exact congrArg Member.aligned ((member_modMember (frameTaken s x) x.2.src x.2.src _).trans (if_pos rfl))
  · rw [hcheck.cwy]
    rfl

/-- Of the chain only the roster differs. -/
def RosterChanges (s t : State) : Prop := t.cwy = { s.cwy with roster := t.cwy.roster }

theorem RosterChanges.trans {s t u : State} (h : RosterChanges s t) (h' : RosterChanges t u) : RosterChanges s u := by
  unfold RosterChanges at *
  rw [h', h]

/-- A unit that has left is absent, and an event says so. -/
def memberLeft (s : State) (u : Nat) : State := (s.modMember u fun _ => memberNil).chainEvent 2 u

theorem memberLeft_cwy (s : State) (u : Nat) : (memberLeft s u).cwy = (s.modMember u fun _ => memberNil).cwy :=
  (eventOnly_chainEvent ..).cwy

/-- The units beyond a lost link are absent. -/
theorem leftBeyond_absent (s : State) (a : Nat) :
    (∀ k, a < k → k ≤ 16 → ((s.leftBeyond a).member k).present = false) ∧ RosterChanges s (s.leftBeyond a) ∧
      (s.leftBeyond a).envm = s.envm := by
  have hstep : ∀ (s : State) u, RosterChanges s (memberLeft s u) := fun s u => by
    unfold RosterChanges
    rw [memberLeft_cwy]
    rfl
  refine ⟨fun k hk h16 => ?_, each_keeps (R := RosterChanges) (fun _ => rfl) .trans hstep _ s, ?_⟩
  · refine each_member (P := fun _ m => m.present = false) (f := memberLeft) (fun s u => ?_) (fun s u j hj => ?_) _ s k ?_
    · rw [State.member, memberLeft_cwy]
      exact congrArg Member.present ((member_modMember s u u _).trans (if_pos rfl))
    · rw [State.member, memberLeft_cwy]
      exact (member_modMember s u j _).trans (if_neg hj)
    · cases hp : (s.member k).present with
      | false => exact Or.inr rfl
      | true =>
        refine Or.inl (List.mem_filter.2 ⟨List.mem_range.2 (by omega), ?_⟩)
        rw [hp]
        simp [hk]
  · exact each_keeps (R := fun s t => t.envm = s.envm) (fun _ => rfl) (fun h h' => h'.trans h)
      (fun s u => (eventOnly_chainEvent (s.modMember u fun _ => memberNil) 2 u).envm) _ s

theorem bytesKept_leftBeyond (s : State) (a : Nat) : BytesKept s (s.leftBeyond a) := (keepsPort_leftBeyond (p := 0) (by decide) s a).bytes

/-- The roster that goes out is the head's own. -/
theorem sendRoster_keeps (s : State) :
    s.sendRoster.cwy.roster = s.cwy.roster ∧ s.sendRoster.cwy.taken = s.cwy.taken ∧ s.sendRoster.envm = s.envm ∧
      BytesKept s s.sendRoster := by
  have honly := regsOnly_showRoster s
  have hsend : Sends s.showRoster s.sendRoster := sends_sendAuth ..
  rw [hsend.cwy, honly.cwy]
  exact ⟨rfl, rfl, hsend.envm.trans honly.envm, BytesKept.trans (bytesKept_of_eq honly.mem honly.flash) hsend.bytes⟩

theorem lost_leaves {s : State} {x : Nat × Frame} (hfront : s.cwy.taken.find? (fun x => decide (x.2.cls = 0)) = some x)
    (hsub : x.2.sub = 5) (hhead : s.isHead = true) :
    ∃ t, lostArrives s = t ∧ (∀ k, x.2.src < k → k ≤ 16 → (t.member k).present = false) ∧
      t.cwy.taken = s.cwy.taken.erase x ∧ t.envm = s.envm ∧ BytesKept s t := by
  obtain ⟨u, hu, hucwy, huenvm, hubytes⟩ : ∃ u : State, { frameTaken s x with cwy := { (frameTaken s x).cwy with walking := false } } = u ∧
      u.cwy.taken = s.cwy.taken.erase x ∧ u.envm = s.envm ∧ BytesKept s u := ⟨_, rfl, rfl, rfl, bytesKept_of_eq rfl rfl⟩
  have hrun : lostArrives s = (u.leftBeyond x.2.src).sendRoster.enumCheck := by
    unfold lostArrives
    rw [takeFrame_front hfront hsub, ← hu]
    exact if_pos hhead
  obtain ⟨habsent, hroster, henvm⟩ := leftBeyond_absent u x.2.src
  obtain ⟨hsame, htaken, henvm', hbytes'⟩ := sendRoster_keeps (u.leftBeyond x.2.src)
  have hcheck := checksOnly_enumCheck (u.leftBeyond x.2.src).sendRoster
  have hbytes := bytesKept_leftBeyond u x.2.src
  refine ⟨_, hrun, fun k hk h16 => ?_, ?_, hcheck.envm.trans (henvm'.trans (henvm.trans huenvm)),
    BytesKept.trans hubytes (BytesKept.trans hbytes (BytesKept.trans hbytes' hcheck.bytes))⟩
  · rw [State.member, hcheck.cwy, hsame]
    exact habsent k hk h16
  · rw [hcheck.cwy, htaken, hroster]
    exact hucwy

/-- The JOIN at the front is noted, and the walk begins again. -/
def joinNoted (s : State) (x : Nat × Frame) : State :=
  State.srb { frameTaken s x with
    cwy := { (frameTaken s x).cwy with walking := true, joins := s.cwy.joins ++ [x.2.src] } } aCWY_STATUS 13 false

theorem joinNoted_shows (s : State) (x : Nat × Frame) :
    ∃ u, joinNoted s x = u ∧ u.cwy = { s.cwy with taken := s.cwy.taken.erase x, walking := true, joins := s.cwy.joins ++ [x.2.src] } ∧
      RegsBut [aCWY_STATUS] s u ∧ u.trng = s.trng ∧ u.lanes = s.lanes ∧ u.envm = s.envm ∧ BytesKept s u := by
  refine ⟨_, rfl, rfl, ?_, rfl, rfl, rfl, bytesKept_of_eq rfl rfl⟩
  exact RegsBut.trans (t := { frameTaken s x with
    cwy := { (frameTaken s x).cwy with walking := true, joins := s.cwy.joins ++ [x.2.src] } }) (regsBut_of_regs rfl _)
    (regsBut_srb _ (by simp) 13 false)

theorem joinArrives_eq {s : State} {x : Nat × Frame} (hfront : s.cwy.taken.find? (fun x => decide (x.2.cls = 0)) = some x)
    (hsub : x.2.sub = 6) (hhead : s.isHead = true) : joinArrives s = (joinNoted s x).joinGoesOn := by
  unfold joinArrives
  rw [takeFrame_front hfront hsub]
  exact if_pos hhead

theorem join_asks {s : State} {x : Nat × Frame} (hfront : s.cwy.taken.find? (fun x => decide (x.2.cls = 0)) = some x)
    (hsub : x.2.sub = 6) (hhead : s.isHead = true) (hserved : s.servedTo .nonceUp = none) (hgood : s.rngFailed = false) :
    ∃ t, joinArrives s = t ∧ t.cwy.joins = s.cwy.joins ++ [x.2.src] ∧ t.cwy.walking = true ∧ t.drawWaits .nonceUp = true ∧
      t.cwy.taken = s.cwy.taken.erase x ∧ RegsBut [aCWY_STATUS] s t ∧ t.lanes = s.lanes ∧ t.envm = s.envm ∧ BytesKept s t := by
  obtain ⟨u, hu, hcwy, hregs, htrng, hlanes, henvm, hbytes⟩ := joinNoted_shows s x
  have huserved : u.servedTo .nonceUp = none := by
    unfold State.servedTo
    rw [htrng]
    exact hserved
  obtain ⟨t, hdraw, hwaits, ht⟩ := draw_waits huserved ((rngFailed_of_regsBut hregs (by decide)).trans hgood) 16
  have hgo : u.joinGoesOn = t := by
    have hne : u.cwy.joins ≠ [] := by
      rw [hcwy]
      simp
    unfold State.joinGoesOn
    cases hj : u.cwy.joins with
    | nil => exact absurd hj hne
    | cons v l =>
      dsimp only
      rw [hdraw]
      rfl
  have htcwy : t.cwy = u.cwy := by rw [ht]
  refine ⟨t, by rw [joinArrives_eq hfront hsub hhead, hu, hgo], ?_, ?_, hwaits, ?_, ?_, ?_, ?_, ?_⟩
  · rw [htcwy, hcwy]
  · rw [htcwy, hcwy]
  · rw [htcwy, hcwy]
  · exact RegsBut.trans hregs (regsBut_of_regs (by rw [ht]) _)
  · rw [ht]; exact hlanes
  · rw [ht]; exact henvm
  · exact BytesKept.trans hbytes (bytesKept_of_eq (by rw [ht]) (by rw [ht]))

theorem join_answered {s : State} {x : Nat × Frame} {d : Bytes}
    (hfront : s.cwy.taken.find? (fun x => decide (x.2.cls = 0)) = some x) (hsub : x.2.sub = 6) (hhead : s.isHead = true)
    (hserved : s.servedTo .nonceUp = some (cOk, d)) (hjoins : s.cwy.joins = []) :
    ∃ t, joinArrives s = t ∧ t.cwy.nh = slice d 0 16 ∧ t.cwy.joins = [] ∧ t.cwy.walking = true ∧
      t.cwy.taken = s.cwy.taken.erase x ∧ RegsBut [aCWY_STATUS, aCWY_AUTH, aAES_COUNT] s t ∧ t.lanes = s.lanes ∧
      t.envm = s.envm ∧ BytesKept s t := by
  obtain ⟨u, hu, hcwy, hregs, htrng, hlanes, henvm, hbytes⟩ := joinNoted_shows s x
  have huserved : u.servedTo .nonceUp = some (cOk, d) := by
    unfold State.servedTo
    rw [htrng]
    exact hserved
  have hdraw : u.draw .nonceUp 16 = .got (slice d 0 16) (u.forgetDraw .nonceUp) := by
    unfold State.draw
    rw [huserved]
    exact if_pos rfl
  obtain ⟨v, hv, hvcwy, hvregs, hvlanes, hvenvm, hvbytes⟩ : ∃ v : State,
      State.setNonce { u.forgetDraw .nonceUp with cwy := { (u.forgetDraw .nonceUp).cwy with joins := [] } } (slice d 0 16) = v ∧
      v.cwy = { u.cwy with joins := [], nh := slice d 0 16 } ∧ v.regs = u.regs ∧ v.lanes = u.lanes ∧ v.envm = u.envm ∧
      BytesKept u v := ⟨_, rfl, rfl, rfl, rfl, rfl, bytesKept_of_eq rfl rfl⟩
  have hjoin : u.cwy.joins = [x.2.src] := by rw [hcwy, hjoins]; rfl
  have hgo : u.joinGoesOn = v.sendAuth x.2.src 0 7 (slice d 0 16) [] := by
    unfold State.joinGoesOn
    rw [hjoin]
    dsimp only
    rw [hdraw]
    dsimp only [Drawn.next]
    rw [hv]
  have hsend := sends_sendAuth v x.2.src 0 7 (slice d 0 16) []
  refine ⟨_, by rw [joinArrives_eq hfront hsub hhead, hu, hgo], ?_, ?_, ?_, ?_, ?_, ?_, ?_, ?_⟩
  · rw [hsend.cwy, hvcwy]
  · rw [hsend.cwy, hvcwy]
  · rw [hsend.cwy, hvcwy, hcwy]
  · rw [hsend.cwy, hvcwy, hcwy]
  · exact RegsBut.trans (t := v) (RegsBut.mono (RegsBut.trans hregs (regsBut_of_regs hvregs _)) (by simp))
      (RegsBut.mono hsend.regs (by simp))
  · exact hsend.lanes.trans (hvlanes.trans hlanes)
  · exact hsend.envm.trans (hvenvm.trans henvm)
  · exact BytesKept.trans hbytes (BytesKept.trans hvbytes hsend.bytes)

theorem enumGo_takes {s : State} {x : Nat × Frame} (hfront : s.cwy.taken.find? (fun x => decide (x.2.cls = 0)) = some x)
    (hsub : x.2.sub = 7) (hunit : s.unit ≠ 0) (hdn : s.portUp 1 = false) :
    enumGoArrives s = { frameTaken s x with cwy := { (frameTaken s x).cwy with nh := slice x.2.payload 0 16 } } := by
  unfold enumGoArrives
  rw [takeFrame_front hfront hsub]
  exact (if_neg hunit).trans (if_neg (by
    show ¬ s.portUp 1 = true
    rw [hdn]
    decide))

/-! ### Time transfer (R459, R460) -/

/-- A sealed frame keeps its header. -/
theorem seal_seals {s : State} {k : Bytes} (hkey : s.chainKey s.ksel = some k) (hmask : s.maskStopped 0 = false) (f : Frame)
    (nh : Bytes) : ∃ (g : Frame) (t : State), s.seal f nh = (some g, t) ∧ g.dst = f.dst ∧ g.cls = f.cls ∧ g.sub = f.sub ∧
      t.cwy = { s.cwy with count := s.cwy.count + 1 } ∧ RegsBut [aAES_COUNT] s t ∧ t.lanes = s.lanes ∧ t.envm = s.envm ∧
      BytesKept s t := by
  have hcode : s.innerJob engAes = (cOk, s.countJob engAes false) := by
    unfold State.innerJob
    rw [show s.maskStopped (engAes - 1) = false from hmask]
    rfl
  have honly := regsOnly_countJob s engAes false
  have hregs := regsBut_countAes s [aAES_COUNT] false (by simp)
  generalize s.countJob engAes false = u at *
  refine ⟨{ f with flags := by8 u.ksel, unsealed := none,
                   payload := sealFrame k f.dst f.src f.cls f.sub u.ksel u.cwy.startNo (u.cwy.count + 1) f.payload nh },
    { u with cwy := { u.cwy with count := u.cwy.count + 1 } }, ?_, rfl, rfl, rfl, ?_,
    RegsBut.trans hregs (regsBut_of_regs rfl _), honly.lanes, honly.envm, bytesKept_of_eq honly.mem honly.flash⟩
  · unfold State.seal
    rw [hkey]
    dsimp only
    rw [hcode]
    rfl
  · rw [← honly.cwy]

/-- A frame that leaves stands behind those not yet acknowledged, under the port's next number. -/
theorem sendNow_leaves (t : State) (p : Nat) (g : Frame) :
    ∃ w, t.sendNow p g = w ∧ (w.port p).unacked = (t.port p).unacked ++ [{ g with lseq := (t.port p).txSeq }] ∧
      w.cwy = { t.cwy with ports := w.cwy.ports } ∧ RegsBut [] t w ∧ w.lanes = t.lanes ∧ w.envm = t.envm ∧ BytesKept t w := by
  unfold State.sendNow
  dsimp only
  have hport : ∀ x, (t.setPort p x).port p = x := port_setPort_same t p
  have hcwy : ∀ x, (t.setPort p x).cwy = { t.cwy with ports := (t.setPort p x).cwy.ports } := fun _ => rfl
  generalize hx : ({ t.port p with unacked := (t.port p).unacked ++ [{ g with lseq := (t.port p).txSeq }],
                                   txSeq := (t.port p).txSeq + 1 } : CwyPort) = x
  have hnow := regsOnly_evt (t.setPort p x) 0x13 0x15 1
  refine ⟨_, rfl, ?_, ?_, RegsBut.trans (t := t.setPort p x) (regsBut_of_regs rfl _) (regsBut_evt _ _ (by decide) 0x15 1), hnow.lanes,
    hnow.envm, bytesKept_of_eq hnow.mem hnow.flash⟩
  · rw [State.port, hnow.cwy]
    exact (congrArg CwyPort.unacked (hport x)).trans (by rw [← hx])
  · rw [hnow.cwy, hcwy]

/-- A frame placed at a port where nothing waits, with room among the frames not yet acknowledged, leaves sealed. -/
theorem place_leaves {s : State} {p : Nat} (hup : s.portUp p = true) (hwait : (s.port p).waiting = [])
    (hroom : (s.port p).unacked.length < 8) {k : Bytes} (hkey : s.chainKey s.ksel = some k) (hmask : s.maskStopped 0 = false)
    {f : Frame} {nh : Bytes} (hf : f.unsealed = some nh) :
    ∃ (g : Frame) (t : State), s.place p f = (true, t) ∧ g.dst = f.dst ∧ g.cls = f.cls ∧ g.sub = f.sub ∧
      (t.port p).unacked = (s.port p).unacked ++ [g] ∧ t.cwy = { s.cwy with ports := t.cwy.ports, count := s.cwy.count + 1 } ∧
      RegsBut [aAES_COUNT] s t ∧ t.lanes = s.lanes ∧ t.envm = s.envm ∧ BytesKept s t := by
  obtain ⟨v, hv, hvport, hvcwy, hvregs, hvlanes, hvenvm, hvtrng, hvslots, hvbytes⟩ : ∃ v : State,
      (s.setPort p { s.port p with waiting := [f] }).setPort p
        { (s.setPort p { s.port p with waiting := [f] }).port p with waiting := [] } = v ∧
      v.port p = { s.port p with waiting := [] } ∧ v.cwy = { s.cwy with ports := v.cwy.ports } ∧ v.regs = s.regs ∧
      v.lanes = s.lanes ∧ v.envm = s.envm ∧ v.trng = s.trng ∧ v.slots = s.slots ∧ BytesKept s v := by
    refine ⟨_, rfl, ?_, rfl, rfl, rfl, rfl, rfl, rfl, bytesKept_of_eq rfl rfl⟩
    rw [port_setPort_same, port_setPort_same]
  have hvkey : v.chainKey v.ksel = some k := by
    have hsel : v.ksel = s.ksel := rf_congr hvregs aCWY_KEYSEL 0 0
    rw [hsel, ← hkey]
    unfold State.chainKey State.key
    rw [hvslots]
  have hvmask : v.maskStopped 0 = false := (rb_congr hvregs (aTRNG_MASK 0) 29).trans hmask
  obtain ⟨g, t, hseal, hdst, hcls, hsub, hcwy, hregs, hlanes, henvm, hbytes⟩ := seal_seals hvkey hvmask f nh
  have htport : t.port p = v.port p := by
    unfold State.port
    rw [hcwy]
  have hplace : s.place p f = (true, t.sendNow p g) := by
    unfold State.place
    rw [if_pos hup]
    dsimp only
    rw [hwait]
    show (true, State.pump (s.setPort p { s.port p with waiting := [f] }) p) = _
    unfold State.pump
    rw [port_setPort_same]
    show (true, State.pumpN 1 p _) = _
    unfold State.pumpN
    rw [port_setPort_same]
    dsimp only
    rw [if_neg (by omega), hf]
    dsimp only
    rw [port_setPort_same] at hv
    rw [hv, hseal]
    rfl
  obtain ⟨w, hw, hwport, hwcwy, hwregs, hwlanes, hwenvm, hwbytes⟩ := sendNow_leaves t p g
  refine ⟨{ g with lseq := (t.port p).txSeq }, w, hw ▸ hplace, hdst, hcls, hsub, ?_, ?_, ?_, ?_, ?_, ?_⟩
  · rw [hwport, htport, hvport]
  · rw [hwcwy, hcwy, hvcwy]
  · exact RegsBut.trans (t := t) (RegsBut.trans (t := v) (regsBut_of_regs hvregs _) hregs) (RegsBut.mono hwregs (by simp))
  · exact hwlanes.trans (hlanes.trans hvlanes)
  · exact hwenvm.trans (henvm.trans hvenvm)
  · exact BytesKept.trans hvbytes (BytesKept.trans hbytes hwbytes)

theorem ttFit_sends {s : State} (v : Nat) (hres : s.resumed = true) (h32 : 32 ≤ s.cwy.exchanges.length)
    (h16 : 16 ≤ ((s.cwy.exchanges.take 32).filterMap (exchOf s.cwy.asym)).length) :
    ∃ body, ttFit s.unit v s = ({ s with cwy := { s.cwy with exchanges := s.cwy.exchanges.drop 32 } } : State).sendAuth
      (s.unit + 1) 4 2 body [] := by
  unfold ttFit
  rw [if_neg (by rw [hres]; simp; omega)]
  dsimp only
  cases hl : (s.cwy.exchanges.take 32).filterMap (exchOf s.cwy.asym) with
  | nil =>
    rw [hl] at h16
    exact absurd h16 (by decide)
  | cons d r =>
    rw [hl] at h16
    dsimp only
    rw [if_neg (by omega)]
    exact ⟨_, rfl⟩

/-- The alignment's registers take their values. -/
theorem alignment_set (s : State) (lo hi rate : Word) (unc : Nat) :
    ∃ t, (((s.setReg aDIST_ALIGN_LO lo).setReg aDIST_ALIGN_HI hi).setReg aDIST_RATE rate).srf aDIST_ALIGNQ 15 0 unc = t ∧
      t.reg aDIST_ALIGN_LO = lo ∧ t.reg aDIST_ALIGN_HI = hi ∧ t.reg aDIST_RATE = rate ∧
      t.rf aDIST_ALIGNQ 15 0 = unc % 65536 ∧
      RegsBut [aDIST_ALIGN_LO, aDIST_ALIGN_HI, aDIST_RATE, aDIST_ALIGNQ] s t ∧ RegsOnly s t := by
  refine ⟨_, rfl, ?_, ?_, ?_, rf_srf_same _ _ _ (by decide) (by decide), ?_,
    (((regsOnly_setReg ..).trans (regsOnly_setReg ..)).trans (regsOnly_setReg ..)).trans (regsOnly_setReg ..)⟩
  · rw [reg_srf, if_neg (by decide), reg_setReg_ne _ (by decide), reg_setReg_ne _ (by decide), reg_setReg_same]
  · rw [reg_srf, if_neg (by decide), reg_setReg_ne _ (by decide), reg_setReg_same]
  · rw [reg_srf, if_neg (by decide), reg_setReg_same]
  · exact RegsBut.trans (RegsBut.trans (RegsBut.trans (regsBut_setReg s (by simp) lo) (regsBut_setReg _ (by simp) hi))
      (regsBut_setReg _ (by simp) rate)) (regsBut_srf _ (by simp) 15 0 unc)

theorem timeUpdate_takes {s : State} {x : Nat × Frame} (hfront : s.cwy.taken.find? (fun x => decide (x.2.cls = 4)) = some x)
    (hsub : x.2.sub = 2) :
    ∃ t, timeUpdate s = t ∧ t.reg aDIST_ALIGN_LO = w32 (unsgn 40 (leI x.2.payload 12 6 - leI x.2.payload 0 6) % 2 ^ 32) ∧
      t.reg aDIST_ALIGN_HI = w32 (unsgn 40 (leI x.2.payload 12 6 - leI x.2.payload 0 6) / 2 ^ 32) ∧
      t.reg aDIST_RATE = w32 (unsgn 32 (leI x.2.payload 18 4 - leI x.2.payload 6 4)) ∧
      t.rf aDIST_ALIGNQ 15 0 = min 65535 (isqrt (le16 x.2.payload 10 * le16 x.2.payload 10 + le16 x.2.payload 22 * le16 x.2.payload 22)) ∧
      t.cwy.alignAt = some s.now ∧ t.cwy.expired = false ∧ t.cwy.taken = s.cwy.taken.erase x ∧
      RegsBut [aDIST_ALIGN_LO, aDIST_ALIGN_HI, aDIST_RATE, aDIST_ALIGNQ, aCWY_AUTH, aAES_COUNT] s t ∧
      t.lanes = s.lanes ∧ t.envm = s.envm ∧ BytesKept s t := by
  obtain ⟨v, hv, hlo, hhi, hrate, hunc, hregs, honly⟩ := alignment_set (frameTaken s x)
    (w32 (unsgn 40 (leI x.2.payload 12 6 - leI x.2.payload 0 6) % 2 ^ 32))
    (w32 (unsgn 40 (leI x.2.payload 12 6 - leI x.2.payload 0 6) / 2 ^ 32))
    (w32 (unsgn 32 (leI x.2.payload 18 4 - leI x.2.payload 6 4)))
    (min 65535 (isqrt (le16 x.2.payload 10 * le16 x.2.payload 10 + le16 x.2.payload 22 * le16 x.2.payload 22)))
  obtain ⟨w, hw, hwcwy, hwregs, hwlanes, hwenvm, hwbytes⟩ : ∃ w : State,
      { v with cwy := { v.cwy with alignAt := some v.now, expired := false } } = w ∧
      w.cwy = { s.cwy with taken := s.cwy.taken.erase x, alignAt := some s.now, expired := false } ∧ w.regs = v.regs ∧
      w.lanes = s.lanes ∧ w.envm = s.envm ∧ BytesKept s w := by
    refine ⟨_, rfl, ?_, rfl, honly.lanes, honly.envm, bytesKept_of_eq honly.mem honly.flash⟩
    dsimp only
    rw [honly.cwy, honly.now]
    rfl
  obtain ⟨t, ht, hsends, hcwy, hat, hexp⟩ : ∃ t, timeUpdate s = t ∧ RegsBut [aCWY_AUTH, aAES_COUNT] w t ∧
      t.cwy.taken = w.cwy.taken ∧ t.cwy.alignAt = w.cwy.alignAt ∧ t.cwy.expired = w.cwy.expired ∧
      t.lanes = w.lanes ∧ t.envm = w.envm ∧ BytesKept w t := by
    have hrun : timeUpdate s = if w.alignOk ∧ w.cwy.alignedSent = false
        then ({ w with cwy := { w.cwy with alignedSent := true } } : State).sendAuth 1 0 4 [] [] else w := by
      unfold timeUpdate
      rw [takeFrame_front hfront hsub, ← hw, ← hv]
    refine ⟨_, hrun, ?_⟩
    split
    · have hsend := sends_sendAuth { w with cwy := { w.cwy with alignedSent := true } } 1 0 4 [] []
      refine ⟨RegsBut.trans (regsBut_of_regs rfl _) hsend.regs, ?_, ?_, ?_, hsend.lanes, hsend.envm,
        BytesKept.trans (bytesKept_of_eq rfl rfl) hsend.bytes⟩
      · rw [hsend.cwy]
      · rw [hsend.cwy]
      · rw [hsend.cwy]
    · exact ⟨regsBut_of_regs rfl _, rfl, rfl, rfl, rfl, rfl, bytesKept_of_eq rfl rfl⟩
  obtain ⟨hexp, hlanes, henvm, hbytes⟩ := hexp
  have hvt : RegsBut [aCWY_AUTH, aAES_COUNT] v t := RegsBut.trans (regsBut_of_regs hwregs _) hsends
  refine ⟨t, ht, ?_, ?_, ?_, ?_, ?_, ?_, ?_, ?_, hlanes.trans hwlanes, henvm.trans hwenvm, BytesKept.trans hwbytes hbytes⟩
  · rw [hvt _ (by decide) (by unfold Counted aDIST_ALIGN_LO; omega), hlo]
  · rw [hvt _ (by decide) (by unfold Counted aDIST_ALIGN_HI; omega), hhi]
  · rw [hvt _ (by decide) (by unfold Counted aDIST_RATE; omega), hrate]
  · rw [rf_of_regsBut hvt (by decide) (by unfold Counted aDIST_ALIGNQ; omega) 15 0, hunc]
    exact Nat.mod_eq_of_lt (by omega)
  · rw [hat, hwcwy]
  · rw [hexp, hwcwy]
  · rw [hcwy, hwcwy]
  · exact RegsBut.trans (t := v) (RegsBut.mono (RegsBut.trans (t := frameTaken s x) (regsBut_of_regs rfl _) hregs) (by simp))
      (RegsBut.mono hvt (by simp))


/-- A frame for a unit further down leaves through the port DN. -/
theorem cwySend_down {s : State} (link : Nat) {f : Frame} (h31 : f.dst ≠ 31) (h0 : f.dst ≠ 0) (hdown : ¬ f.dst < s.unit) :
    s.cwySend link f = if (s.place 1 f).1 then (s.place 1 f).2 else s.noRoute := by
  unfold State.cwySend
  rw [if_neg h31, if_neg h0, if_neg hdown]

/-- Settles O49: the frames of enumeration, and time transfer. -/
theorem enumerationAndTime : Obligations.EnumerationAndTime := by
  unfold Obligations.EnumerationAndTime
  refine ⟨fun s x hfront hsub hhead hup hdn h8 => ?enum, fun s x hfront hsub hhead h2 h16 hmore => ?ack,
    fun s x hfront hsub hhead => ?roster, fun s x hfront hsub hhead => ?aligned, fun s x hfront hsub hhead => ?lost,
    fun s x hfront hsub hhead hserved hgood => ?join, fun s x d hfront hsub hhead hserved hjoins => ?joined,
    fun s x hfront hsub hunit hdn => ?go, fun s t1 hres hup hunit hheld => ?exchange, fun s x sent hres hup => ?answer,
    fun s x sent hres hup hfew => ?mark, fun s u k hres h1 h15 h32 h16 hkey hstart hup hwait hroom hmask => ?fit,
    fun s u hres h32 h16 => ?few, fun s x hfront hsub => ?time, fun s => ?expiry⟩
  case enum =>
    obtain ⟨t, ht, hrest⟩ := enum_takes hfront hsub hhead hup hdn h8
    exact ⟨t, congrArg done ht, hrest⟩
  case ack =>
    obtain ⟨t, ht, hrest⟩ := enumAck_pairs hfront hsub hhead h2 h16 hmore
    exact ⟨t, congrArg done ht, hrest⟩
  case roster =>
    obtain ⟨t, ht, hrest⟩ := roster_taken hfront hsub hhead
    exact ⟨t, congrArg done ht, hrest⟩
  case aligned =>
    obtain ⟨t, ht, hrest⟩ := aligned_noted hfront hsub hhead
    exact ⟨t, congrArg done ht, hrest⟩
  case lost =>
    obtain ⟨t, ht, hrest⟩ := lost_leaves hfront hsub hhead
    exact ⟨t, congrArg done ht, hrest⟩
  case join =>
    obtain ⟨t, ht, hrest⟩ := join_asks hfront hsub hhead hserved hgood
    exact ⟨t, congrArg done ht, hrest⟩
  case joined =>
    obtain ⟨t, ht, hrest⟩ := join_answered hfront hsub hhead hserved hjoins
    exact ⟨t, congrArg done ht, hrest⟩
  case go =>
    exact ⟨_, congrArg done (enumGo_takes hfront hsub hunit hdn), rfl, rfl, rfl, rfl, rfl, bytesKept_of_eq rfl rfl⟩
  case exchange =>
    exact ⟨_, congrArg done (if_pos ⟨hres, hup, hunit, hheld⟩), rfl, rfl, rfl, rfl, rfl, bytesKept_of_eq rfl rfl⟩
  case answer =>
    have hrun : markArrives 1 x sent s = { s with cwy := { s.cwy with exchanges := putT4 (x % 2 ^ 40) s.cwy.exchanges } } :=
      (if_neg (by rw [hres, hup]; decide)).trans (if_pos rfl)
    exact ⟨_, congrArg done hrun, rfl, rfl, rfl, rfl, bytesKept_of_eq rfl rfl⟩
  case mark =>
    have hlen : (s.cwy.stamps ++ [(s.markNo (x % 2 ^ 40), x % 2 ^ 40, sent % 2 ^ 40)]).length < 8 := by
      rw [List.length_append]
      exact Nat.succ_lt_succ hfew
    have hrun : ∃ t, markArrives 0 x sent s = t ∧ t = { s with cwy := { s.cwy with
        stamps := s.cwy.stamps ++ [(s.markNo (x % 2 ^ 40), x % 2 ^ 40, sent % 2 ^ 40)],
        ttUp := some (s.markNo (x % 2 ^ 40), x % 2 ^ 40) } } :=
      ⟨_, rfl, (if_neg (by rw [hres, hup]; decide)).trans ((if_neg (by decide)).trans (if_pos hlen))⟩
    obtain ⟨t, ht, hstamps⟩ := hrun
    exact ⟨t, congrArg done ht, by rw [hstamps], by rw [hstamps], by rw [hstamps], by rw [hstamps],
      by rw [hstamps]; exact bytesKept_of_eq rfl rfl⟩
  case fit =>
    obtain ⟨body, hrun⟩ := ttFit_sends (s := s) u hres h32 h16
    obtain ⟨v, hv, hvregs, hvcwy, hvport, hvlanes, hvenvm, hvslots, hvbytes⟩ : ∃ v : State,
        ({ s with cwy := { s.cwy with exchanges := s.cwy.exchanges.drop 32 } } : State) = v ∧ v.regs = s.regs ∧
        v.cwy = { s.cwy with exchanges := s.cwy.exchanges.drop 32 } ∧ v.port 1 = s.port 1 ∧ v.lanes = s.lanes ∧
        v.envm = s.envm ∧ v.slots = s.slots ∧ BytesKept s v := ⟨_, rfl, rfl, rfl, rfl, rfl, rfl, rfl, bytesKept_of_eq rfl rfl⟩
    have hvunit : v.unit = s.unit := rf_congr hvregs aCWY_STATUS 4 0
    have hvkey : v.chainKey v.ksel = some k := by
      have hsel : v.ksel = s.ksel := rf_congr hvregs aCWY_KEYSEL 0 0
      rw [hsel, ← hkey]
      unfold State.chainKey State.key
      rw [hvslots]
    have hvstart : v.startOk = true := by
      unfold State.startOk
      rw [hvcwy]
      exact hstart
    have hvup : v.portUp 1 = true := (portUp_of_regsBut (regsBut_of_regs hvregs []) (by simp) (by decide)).trans hup
    obtain ⟨g, t, hplace, hdst, hcls, hsub, hunacked, hcwy, hregs, hlanes, henvm, hbytes⟩ :=
      place_leaves hvup (by rw [hvport]; exact hwait) (by rw [hvport]; exact hroom) hvkey
        ((rb_congr hvregs (aTRNG_MASK 0) 29).trans hmask)
        (f := ⟨s.unit + 1, v.unit, 4, 2, 0, by8 v.ksel, body, 0, some []⟩) rfl
    have hsend : v.sendAuth (s.unit + 1) 4 2 body [] = t := by
      unfold State.sendAuth
      rw [if_neg (by rw [hvkey, hvstart, hvunit]; simp; omega)]
      rw [cwySend_down 0 (show s.unit + 1 ≠ 31 by omega) (Nat.succ_ne_zero _) (show ¬ s.unit + 1 < v.unit by omega), hplace]
      rfl
    rw [hvport] at hunacked
    refine ⟨t, congrArg done (hrun.trans (by rw [hv, hsend])), ?_, ?_, ?_, ?_, RegsBut.trans (regsBut_of_regs hvregs _) hregs,
      hlanes.trans hvlanes, henvm.trans hvenvm, BytesKept.trans hvbytes hbytes⟩
    · rw [hcwy, hvcwy]
    · rw [hcwy, hvcwy]
    · rw [hunacked, List.take_left]
    · rw [hunacked, List.drop_left]
      show [(g.dst, g.cls, g.sub)] = _
      rw [hdst, hcls, hsub]
  case few =>
    have hrun : ttFit s.unit u s = { s with cwy := { s.cwy with exchanges := s.cwy.exchanges.drop 32 } } := by
      unfold ttFit
      rw [if_neg (by rw [hres]; simp; omega)]
      dsimp only
      cases hl : (s.cwy.exchanges.take 32).filterMap (exchOf s.cwy.asym) with
      | nil => rfl
      | cons d r =>
        rw [hl] at h16
        exact if_pos h16
    exact ⟨_, congrArg done hrun, rfl, rfl, rfl, rfl, bytesKept_of_eq rfl rfl⟩
  case time =>
    obtain ⟨t, ht, hrest⟩ := timeUpdate_takes hfront hsub
    exact ⟨t, congrArg done ht, hrest⟩
  case expiry => exact ⟨_, rfl, rfl, rfl, rfl, rfl, bytesKept_of_eq rfl rfl⟩

end Proofs
end Sys2Proof

/-! PROOFS. Application frames, and the Peat-to-Peat path (R448, R456 to R458). -/
namespace Sys2Proof
namespace Proofs

open Sys2Proof.Machine Sys2Proof.Safety Sys2Proof.Laws

/-! ### A class 1 frame goes to Q9 -/

/-- The packet of an application frame: its header word, then its payload. -/
def dataBytes (f : Frame) : Bytes := toLE 4 (f.src % 32 + f.payload.length * 256) ++ f.payload

theorem dataBytes_ne_nil (f : Frame) : dataBytes f ≠ [] := by
  unfold dataBytes
  intro h
  have := congrArg List.length h
  simp [length_toLE] at this

theorem length_dataBytes (f : Frame) : (dataBytes f).length = 4 + f.payload.length := by
  unfold dataBytes
  rw [List.length_append, length_toLE]

theorem items_dataPacket (f : Frame) : (bytesPacket 0 0xFF (dataBytes f)).items.length = (f.payload.length + 3) / 4 + 1 := by
  rw [items_bytesPacket, length_dataBytes]
  unfold wordsOf
  omega

theorem data_committed {s : State} {x : Nat × Frame} (hfront : s.cwy.taken.find? (fun x => decide (x.2.cls = 1)) = some x)
    (hroom : (x.2.payload.length + 3) / 4 + 1 ≤ s.room 9) (hopen : s.openCount 9 < 8) :
    ∃ t, dataFrameReceived s = t ∧
      ((t.lane 9).committed.getLast?).map packetWords =
        some (toWords (toLE 4 (x.2.src % 32 + x.2.payload.length * 256) ++ x.2.payload)) ∧
      t.cwy.taken = s.cwy.taken.erase x ∧ RegsBut [] s t ∧ t.envm = s.envm ∧ BytesKept s t := by
  have hitems := items_dataPacket x.2
  have hfits : ¬ s.capacity 9 < (bytesPacket 0 0xFF (dataBytes x.2)).items.length := by
    rw [hitems]
    unfold State.room at hroom
    omega
  have hok : (frameTaken s x).hwRoom 9 (bytesPacket 0 0xFF (dataBytes x.2)) = true := by
    unfold State.hwRoom
    rw [hitems]
    have hheld : (frameTaken s x).heldBack 9 = 0 := by
      unfold State.heldBack
      split <;> rfl
    rw [hheld]
    exact decide_eq_true ⟨hroom, hopen⟩
  have hcommit := committed_commit (frameTaken s x) 9 (bytesPacket 0 0xFF (dataBytes x.2))
    (bytesPacket 0 0xFF (dataBytes x.2)).items.length
  obtain ⟨u, hu⟩ : ∃ u, ((frameTaken s x).commit 9 (bytesPacket 0 0xFF (dataBytes x.2))).evt 0x10 0x12
    (bytesPacket 0 0xFF (dataBytes x.2)).items.length = u := ⟨_, rfl⟩
  rw [hu] at hcommit
  have hhw : (frameTaken s x).hwCommit 9 (bytesPacket 0 0xFF (dataBytes x.2)) = some u := by
    unfold State.hwCommit
    rw [if_pos hok, jobAccepted_other (by decide) (by decide), hu]
  have hcount := countsOnly_itemsBy u .causeway .causeway 9 4 (bytesPacket 0 0xFF (dataBytes x.2)).items.length
  have hrun : dataFrameReceived s = u.itemsBy .causeway .causeway 9 4 (bytesPacket 0 0xFF (dataBytes x.2)).items.length := by
    unfold dataFrameReceived
    rw [hfront]
    refine (if_neg hfits).trans ?_
    show (((frameTaken s x).hwCommit 9 (bytesPacket 0 0xFF (dataBytes x.2))).map _).getD s = _
    rw [hhw]
    rfl
  refine ⟨_, hrun, ?_, ?_, ?_, ?_, ?_⟩
  · rw [lane_countsOnly hcount, hcommit.newestWords, packetWords_bytesPacket (dataBytes_ne_nil x.2)]
    rfl
  · refine (hcount.view (fun s => s.cwy.taken) fun _ _ => rfl).trans ?_
    rw [hcommit.only]
    rfl
  · exact RegsBut.trans (t := u) (RegsBut.trans (t := frameTaken s x) (regsBut_of_regs rfl _) hcommit.regs) (hcount.regsBut _)
  · refine (hcount.view (fun s => s.envm) fun _ _ => rfl).trans ?_
    rw [hcommit.only]
    rfl
  · exact BytesKept.trans (t := u) (BytesKept.trans (t := frameTaken s x) (bytesKept_of_eq rfl rfl) hcommit.bytes) hcount.bytes

/-! ### Class 2 commands of Peat's (R457) -/

theorem fld_and (w m : Word) {hi lo : Nat} (h : ∀ j ≤ hi - lo, m.getLsbD (lo + j) = true) : fld (w &&& m) hi lo = fld w hi lo := by
  refine Nat.eq_of_testBit_eq fun j => ?_
  by_cases hj : j ≤ hi - lo
  · rw [← bit_eq_testBit_fld _ hj, ← bit_eq_testBit_fld _ hj, bit, bit, BitVec.getLsbD_and, h j hj, Bool.and_true]
  · have hlt : ∀ w : Word, fld w hi lo < 2 ^ j := fun w =>
      lt_of_lt_of_le (Nat.mod_lt _ (Nat.two_pow_pos _)) (Nat.pow_le_pow_right (by decide) (by omega))
    rw [Nat.testBit_lt_two_pow (hlt _), Nat.testBit_lt_two_pow (hlt _)]

/-- The command word that a write of CWY_PCMD stores. -/
def pcmdWord (v : Word) (n : Nat) : Word := setFld v 31 28 n &&& 0x781FFFFF

theorem sub_pcmdWord (v : Word) (n : Nat) : fld (pcmdWord v n) 30 28 = n % 8 := by
  have hand : fld (pcmdWord v n) 30 28 = fld (setFld v 31 28 n) 30 28 := fld_and _ _ (by decide)
  have hset : fld (setFld v 31 28 n) 31 28 = n % 16 := fld_setFld_same v (by decide) (by decide) n
  rw [hand]
  unfold fld at hset ⊢
  omega

theorem dst_pcmdWord (v : Word) (n : Nat) : fld (pcmdWord v n) 20 16 = fld v 20 16 := by
  have hand : fld (pcmdWord v n) 20 16 = fld (setFld v 31 28 n) 20 16 := fld_and _ _ (by decide)
  rw [hand, fld_setFld_ne v (by decide) (by decide) (by decide) (by decide)]

theorem go_pcmdWord (v : Word) {n : Nat} (h : 8 ≤ n % 16) : bit (setFld v 31 28 n) 31 = true := by
  have hset : fld (setFld v 31 28 n) 31 28 = n % 16 := fld_setFld_same v (by decide) (by decide) n
  rw [show bit (setFld v 31 28 n) 31 = (fld (setFld v 31 28 n) 31 28).testBit 3 from
    bit_eq_testBit_fld (lo := 28) (hi := 31) (j := 3) _ (by decide), hset]
  rw [Nat.testBit_eq_decide_div_mod_eq]
  simp
  omega

/-- A class 2 frame for one unit is sent, and its receipt is waited for. -/
theorem pcmdSend_waits (s : State) {dst : Nat} (h31 : dst ≠ 31) (sub : Nat) (body : Bytes) :
    ∃ t, s.pcmdSend dst sub body = t ∧ t.cwy.receipts = [dst] ∧ t.reg aCWY_PSTAT = w32 (cPending.toNat * 2 ^ 24) ∧
      t.reg aCWY_PCMD = s.reg aCWY_PCMD ∧ RegsBut [aCWY_PSTAT, aCWY_AUTH, aAES_COUNT] s t ∧ t.lanes = s.lanes ∧ t.envm = s.envm ∧
      BytesKept s t := by
  have hto : s.pcmdTo dst = [dst] := if_neg h31
  obtain ⟨u, hu, hpstat, huregs, honly⟩ : ∃ u, s.setReg aCWY_PSTAT (w32 (cPending.toNat * 2 ^ 24)) = u ∧
      u.reg aCWY_PSTAT = w32 (cPending.toNat * 2 ^ 24) ∧ RegsBut [aCWY_PSTAT] s u ∧ RegsOnly s u :=
    ⟨_, rfl, reg_setReg_same .., regsBut_setReg s (by simp) _, regsOnly_setReg ..⟩
  have hsend := sends_sendAuth u dst 2 sub body []
  have hrun : s.pcmdSend dst sub body = { u.sendAuth dst 2 sub body [] with
      cwy := { (u.sendAuth dst 2 sub body []).cwy with receipts := [dst], pstatus := cOk } } := by
    unfold State.pcmdSend
    rw [hto, hu]
    exact if_neg (by simp)
  have hregs : RegsBut [aCWY_PSTAT, aCWY_AUTH, aAES_COUNT] s (u.sendAuth dst 2 sub body []) :=
    RegsBut.trans (t := u) (RegsBut.mono huregs (by simp)) (RegsBut.mono hsend.regs (by simp))
  refine ⟨_, hrun, rfl, ?_, ?_, RegsBut.trans hregs (regsBut_of_regs rfl _), hsend.lanes.trans honly.lanes,
    hsend.envm.trans honly.envm, BytesKept.trans (t := u) (bytesKept_of_eq honly.mem honly.flash)
      (BytesKept.trans hsend.bytes (bytesKept_of_eq rfl rfl))⟩
  · exact (hsend.regs _ (by decide) (by unfold Counted aCWY_PSTAT; omega)).trans hpstat
  · exact hregs _ (by decide) (by unfold Counted aCWY_PCMD; omega)

/-- A GO of Peat's while nothing waits for a receipt stores the command and sends. -/
theorem pcmdWrite_sends {s w : State} {v : Word} (hgo : bit v 31 = true) (hnone : s.cwy.receipts = [])
    (hw : s.setReg aCWY_PCMD (v &&& 0x781FFFFF) = w) (hheld : 6 ∉ w.cfg.held) : pcmdWrite v s = w.pcmdGo := by
  unfold pcmdWrite
  dsimp only
  rw [hw, hgo, if_neg (by decide), if_neg hheld, hnone]
  unfold State.onlyIf
  exact if_neg (by simp)

theorem pcmdWrite_goes {s : State} (v : Word) {n : Nat} (hn : 8 ≤ n % 16) (hnone : s.cwy.receipts = []) (hheld : 6 ∉ s.cfg.held) :
    pcmdWrite (setFld v 31 28 n) s = (s.setReg aCWY_PCMD (pcmdWord v n)).pcmdGo := by
  refine pcmdWrite_sends (go_pcmdWord v hn) hnone rfl ?_
  have honly := regsOnly_setReg s aCWY_PCMD (pcmdWord v n)
  rw [honly.cfg]
  exact hheld

/-- What a class 2 command to one unit leaves, once it is sent. -/
def PcmdWaits (s t : State) (v : Word) (n : Nat) : Prop :=
  t.cwy.receipts = [fld v 20 16] ∧ t.reg aCWY_PSTAT = w32 (cPending.toNat * 2 ^ 24) ∧
    t.reg aCWY_PCMD = setFld v 31 28 n &&& 0x781FFFFF ∧ RegsBut [aCWY_PCMD, aCWY_PSTAT, aCWY_AUTH, aAES_COUNT] s t ∧
    t.lanes = s.lanes ∧ t.envm = s.envm ∧ BytesKept s t

/-- A command that is sent after the counts of an internal job, if any, waits for its receipt. -/
theorem pcmd_waits {s u w : State} {m : Master} {v : Word} {n sub : Nat} {body : Bytes} (h31 : fld v 20 16 ≠ 31)
    (hu : CountsOnly s u) (hn : 8 ≤ n % 16) (hnone : s.cwy.receipts = []) (hheld : 6 ∉ s.cfg.held)
    (hown : s.owned m aCWY_PCMD (pcmdWrite (setFld v 31 28 n)) = pcmdWrite (setFld v 31 28 n) u)
    (hw : RegsOnly (u.setReg aCWY_PCMD (pcmdWord v n)) w) (hwregs : RegsBut [aAES_COUNT] (u.setReg aCWY_PCMD (pcmdWord v n)) w)
    (hgo : (u.setReg aCWY_PCMD (pcmdWord v n)).pcmdGo = w.pcmdSend (fld v 20 16) sub body) :
    ∃ t, s.owned m aCWY_PCMD (pcmdWrite (setFld v 31 28 n)) = t ∧ PcmdWaits s t v n := by
  have hnone' : u.cwy.receipts = [] := (hu.view (fun s => s.cwy.receipts) fun _ _ => rfl).trans hnone
  have hheld' : 6 ∉ u.cfg.held := (hu.view (fun s => s.cfg.held) fun _ _ => rfl).symm ▸ hheld
  obtain ⟨t, ht, hreceipts, hpstat, hpcmd, hregs, hlanes, henvm, hbytes⟩ := pcmdSend_waits w h31 sub body
  have hset : (u.setReg aCWY_PCMD (pcmdWord v n)).reg aCWY_PCMD = pcmdWord v n := reg_setReg_same ..
  have honly := regsOnly_setReg u aCWY_PCMD (pcmdWord v n)
  have huregs : RegsBut [aCWY_PCMD] u (u.setReg aCWY_PCMD (pcmdWord v n)) := regsBut_setReg u (by simp) _
  refine ⟨t, hown.trans ((pcmdWrite_goes v hn hnone' hheld').trans (hgo.trans ht)), hreceipts, hpstat, ?_, ?_, ?_, ?_, ?_⟩
  · rw [hpcmd, hwregs _ (by decide) (by unfold Counted aCWY_PCMD; omega), hset]
    rfl
  · exact RegsBut.trans (t := w) (RegsBut.trans (RegsBut.mono (RegsBut.trans (hu.regsBut _) huregs) (by simp))
      (RegsBut.mono hwregs (by simp))) (RegsBut.mono hregs (by simp))
  · exact hlanes.trans (hw.lanes.trans (honly.lanes.trans (hu.view State.lanes fun _ _ => rfl)))
  · exact henvm.trans (hw.envm.trans (honly.envm.trans (hu.view State.envm fun _ _ => rfl)))
  · refine BytesKept.trans (t := u) hu.bytes (BytesKept.trans (t := w) (bytesKept_of_eq ?_ ?_) hbytes)
    · exact hw.mem.trans honly.mem
    · exact hw.flash.trans honly.flash

/-- CLOSE sends at once. -/
theorem pcmdGo_close {s : State} {v : Word} (h : s.reg aCWY_PCMD = pcmdWord v 10) :
    ∃ body, s.pcmdGo = s.pcmdSend (fld v 20 16) 2 body := by
  unfold State.pcmdGo
  dsimp only
  rw [h, sub_pcmdWord, dst_pcmdWord]
  exact ⟨_, rfl⟩

/-- SWITCH sends at once. -/
theorem pcmdGo_switch {s : State} {v : Word} (h : s.reg aCWY_PCMD = pcmdWord v 11) :
    ∃ body, s.pcmdGo = s.pcmdSend (fld v 20 16) 3 body := by
  unfold State.pcmdGo
  dsimp only
  rw [h, sub_pcmdWord, dst_pcmdWord]
  exact ⟨_, rfl⟩

/-- KEY of a session key that may be used wraps it in an internal job and sends it. -/
theorem pcmdGo_key {s : State} {v : Word} (h : s.reg aCWY_PCMD = pcmdWord v 9) (hses : kSes (s.reg aCWY_PKREF) = true)
    (hlen : kLen (s.reg aCWY_PKREF) = 3) (hoff : kOff (s.reg aCWY_PKREF) = 0) (hcheck : s.keyCheck 126 (s.reg aCWY_PKREF) 0 = cOk)
    (hkey : s.chainKey s.ksel ≠ none) (hmask : s.maskStopped 0 = false) :
    ∃ body, s.pcmdGo = (s.countJob engAes false).pcmdSend (fld v 20 16) 1 body := by
  have hcode : s.innerJob engAes = (cOk, s.countJob engAes false) := by
    unfold State.innerJob
    rw [show s.maskStopped (engAes - 1) = false from hmask]
    rfl
  unfold State.pcmdGo
  dsimp only
  rw [h, sub_pcmdWord, dst_pcmdWord, if_pos (by decide), hlen, hses, hoff, hcheck]
  cases hk : s.chainKey s.ksel with
  | none => exact absurd hk hkey
  | some k =>
    dsimp only
    rw [hcode]
    exact ⟨_, rfl⟩

/-! ### Class 2 frames (R456, R457) -/

theorem receipt_ends {s : State} {x : Nat × Frame} (hfront : s.cwy.taken.find? (fun x => decide (x.2.cls = 2)) = some x)
    (hsub : x.2.sub = 4) (hwait : s.cwy.receipts = [x.2.src]) (hstatus : s.cwy.pstatus = cOk) (hswitch : s.rf aCWY_PCMD 30 28 ≠ 3) :
    receiptArrives s = (frameTaken s x).pcmdEnd (by8 (byteAt x.2.payload 1)) := by
  unfold receiptArrives
  rw [takeFrame_front hfront hsub]
  dsimp only
  have hwait' : (frameTaken s x).cwy.receipts = [x.2.src] := hwait
  have hstatus' : (frameTaken s x).cwy.pstatus = cOk := hstatus
  have hswitch' : decide ((frameTaken s x).rf aCWY_PCMD 30 28 = 3) = false := decide_eq_false hswitch
  rw [hwait', hstatus', if_pos (by simp), if_pos (by simp), if_pos rfl]
  unfold State.receiptsIn
  rw [hswitch']
  rfl

theorem pcmdEnd_shows (s : State) (status : Byte) :
    ∃ t, s.pcmdEnd status = t ∧ t.cwy = { s.cwy with receipts := [], pheld := false } ∧
      t.reg aCWY_PSTAT = w32 (status.toNat * 2 ^ 24 + 1) ∧ RegsBut [aCWY_PSTAT] s t ∧ t.lanes = s.lanes ∧ t.envm = s.envm ∧
      BytesKept s t := by
  obtain ⟨v, hv, hvcwy, hvregs, hvlanes, hvenvm, hvbytes⟩ : ∃ v : State,
      { s with cwy := { s.cwy with receipts := [], pheld := false } } = v ∧ v.cwy = { s.cwy with receipts := [], pheld := false } ∧
      v.regs = s.regs ∧ v.lanes = s.lanes ∧ v.envm = s.envm ∧ BytesKept s v := ⟨_, rfl, rfl, rfl, rfl, rfl, bytesKept_of_eq rfl rfl⟩
  have hset := regsOnly_setReg v aCWY_PSTAT (w32 (status.toNat * 2 ^ 24 + 1))
  have hsetregs : RegsBut [aCWY_PSTAT] v (v.setReg aCWY_PSTAT (w32 (status.toNat * 2 ^ 24 + 1))) := regsBut_setReg v (by simp) _
  have hreg : (v.setReg aCWY_PSTAT (w32 (status.toNat * 2 ^ 24 + 1))).reg aCWY_PSTAT = w32 (status.toNat * 2 ^ 24 + 1) :=
    reg_setReg_same ..
  unfold State.pcmdEnd
  rw [hv]
  generalize v.setReg aCWY_PSTAT (w32 (status.toNat * 2 ^ 24 + 1)) = u at *
  have honly := regsOnly_ended u 0x13 status
  have hregs := regsBut_ended u [] (b := 0x13) (by decide) status
  refine ⟨_, rfl, honly.cwy.trans (hset.cwy.trans hvcwy), ?_, ?_, honly.lanes.trans (hset.lanes.trans hvlanes),
    honly.envm.trans (hset.envm.trans hvenvm), BytesKept.trans hvbytes (BytesKept.trans (t := u)
      (bytesKept_of_eq hset.mem hset.flash) (bytesKept_of_eq honly.mem honly.flash))⟩
  · rw [hregs _ (by simp) (by unfold Counted aCWY_PSTAT; omega), hreg]
  · exact RegsBut.trans (t := u) (RegsBut.trans (t := v) (regsBut_of_regs hvregs _) hsetregs) (RegsBut.mono hregs (by simp))

theorem mem_raise (s : State) (i : Irq) : i ∈ (s.raise i).irqs := by
  unfold State.raise
  by_cases h : i ∈ s.irqs
  · simp [h]
  · simp [h]

theorem sessOnly_landKey (s : State) (n part : Nat) (k : Bytes) : SessOnly s (s.landKey n part k) := rfl

theorem landKey_seed (s : State) (n : Nat) (k : Bytes) : ((s.landKey n 0 k).ses n).vSeed = slice k 16 12 := by
  unfold State.landKey
  exact congrArg Session.vSeed (ses_modSes_same ..)

/-- The landing is disarmed and Peat notified. -/
theorem notify_shows (s : State) (sub part src : Nat) (b : Bytes) (i : Nat) :
    ∃ t w, s.notify sub part src b i = t ∧ t.cwy = { s.cwy with notifs := s.cwy.notifs ++ [w] } ∧ .causeway ∈ t.irqs ∧
      w = w32 (2 ^ 31 + sub * 2 ^ 28 + part * 2 ^ 27 + src % 32 * 2 ^ 16 + byteAt b i * 2 ^ 8 + byteAt b (i + 1)) ∧
      t.regs = s.regs ∧ t.sess = s.sess ∧ t.lanes = s.lanes ∧ t.envm = s.envm ∧ BytesKept s t :=
  ⟨_, _, rfl, rfl, mem_raise .., rfl, rfl, rfl, rfl, rfl, bytesKept_of_eq rfl rfl⟩

/-- A landing keeps what its key frame brings. -/
def keyLanded (s : State) (f : Frame) (k : Bytes) : State :=
  (((s.landKey (s.rf aCWY_PLAND 7 0) (byteAt f.payload 0 % 2) k).srb aCWY_PLAND 31 false).notify 1 (byteAt f.payload 0 % 2) f.src
    f.payload 1).receipt f.src 1 cOk

theorem keyLanded_shows (s : State) (f : Frame) (k : Bytes) :
    ∃ t, keyLanded s f k = t ∧ t.rb aCWY_PLAND 31 = false ∧ t.cwy.notifs.length = s.cwy.notifs.length + 1 ∧ .causeway ∈ t.irqs ∧
      (byteAt f.payload 0 % 2 = 0 → (t.ses (s.rf aCWY_PLAND 7 0)).vSeed = slice k 16 12) ∧ t.cwy.taken = s.cwy.taken ∧
      RegsBut [aCWY_PLAND, aCWY_AUTH, aAES_COUNT] s t ∧ t.lanes = s.lanes ∧ t.envm = s.envm ∧ BytesKept s t := by
  have hland := sessOnly_landKey s (s.rf aCWY_PLAND 7 0) (byteAt f.payload 0 % 2) k
  have hseed : byteAt f.payload 0 % 2 = 0 →
      ((s.landKey (s.rf aCWY_PLAND 7 0) (byteAt f.payload 0 % 2) k).ses (s.rf aCWY_PLAND 7 0)).vSeed = slice k 16 12 := fun h => by
    rw [h]
    exact landKey_seed ..
  unfold keyLanded
  generalize s.landKey (s.rf aCWY_PLAND 7 0) (byteAt f.payload 0 % 2) k = v at *
  have honly : RegsOnly v (v.srb aCWY_PLAND 31 false) := regsOnly_setReg ..
  have hregs : RegsBut [aCWY_PLAND] v (v.srb aCWY_PLAND 31 false) := regsBut_srb v (by simp) 31 false
  have hoff : (v.srb aCWY_PLAND 31 false).rb aCWY_PLAND 31 = false := rb_srb_same _ _ (by decide) _
  generalize v.srb aCWY_PLAND 31 false = u at *
  obtain ⟨w, n, hw, hwcwy, hwirqs, -, hwregs, hwsess, hwlanes, hwenvm, hwbytes⟩ :=
    notify_shows u 1 (byteAt f.payload 0 % 2) f.src f.payload 1
  rw [hw]
  have hsend : Sends w (w.receipt f.src 1 cOk) := sends_sendAuth ..
  have hvregs : v.regs = s.regs := by rw [hland]
  have hvcwy : v.cwy = s.cwy := by rw [hland]
  have huw : RegsBut [aCWY_AUTH, aAES_COUNT] u (w.receipt f.src 1 cOk) := RegsBut.trans (regsBut_of_regs hwregs _) hsend.regs
  refine ⟨_, rfl, ?_, ?_, ?_, fun h => ?_, ?_, ?_, ?_, ?_, ?_⟩
  · rw [← hoff]
    exact congrArg (bit · 31) (huw _ (by decide) (by unfold Counted aCWY_PLAND; omega))
  · rw [hsend.cwy, hwcwy, honly.cwy, hvcwy]
    simp
  · rw [hsend.irqs]
    exact hwirqs
  · rw [State.ses, hsend.sess, hwsess, honly.sess]
    exact hseed h
  · rw [hsend.cwy, hwcwy, honly.cwy, hvcwy]
  · exact RegsBut.trans (t := u) (RegsBut.mono (RegsBut.trans (t := v) (regsBut_of_regs hvregs _) hregs) (by simp))
      (RegsBut.mono huw (by simp))
  · exact hsend.lanes.trans (hwlanes.trans (honly.lanes.trans (by rw [hland])))
  · exact hsend.envm.trans (hwenvm.trans (honly.envm.trans (by rw [hland])))
  · refine BytesKept.trans (t := v) (bytesKept_of_eq (by rw [hland]) (by rw [hland])) (BytesKept.trans (t := u) ?_
      (BytesKept.trans hwbytes hsend.bytes))
    exact bytesKept_of_eq honly.mem honly.flash

/-- What an unwrapping internal job makes of a KEY frame that may land. -/
def keyUnwrapped (s : State) (f : Frame) : Option Bytes → State
  | none => s.receipt f.src 1 cTagFail
  | some k => keyLanded s f k

theorem keyFrame_unwraps {s : State} {x : Nat × Frame} (hfront : s.cwy.taken.find? (fun x => decide (x.2.cls = 2)) = some x)
    (hsub : x.2.sub = 1) (hnotifs : s.cwy.notifs.length < 4) (harmed : s.rb aCWY_PLAND 31 = true)
    (hready : (s.ses (s.rf aCWY_PLAND 7 0)).st = .ready) (hsuite : (s.ses (s.rf aCWY_PLAND 7 0)).suite = 3)
    (hlen : x.2.payload.length = 59) (hmask : s.maskStopped 0 = false) :
    keyFrameReceived s = keyUnwrapped ((frameTaken s x).countJob engAes false) x.2
      ((((frameTaken s x).countJob engAes false).chainKey (x.2.flags.toNat % 2)).bind fun k => kwUnwrap k (x.2.payload.drop 3)) := by
  have hcode : (frameTaken s x).innerJob engAes = (cOk, (frameTaken s x).countJob engAes false) := by
    unfold State.innerJob
    rw [show (frameTaken s x).maskStopped (engAes - 1) = false from hmask]
    rfl
  have hnotifs' : ¬ 4 ≤ (frameTaken s x).cwy.notifs.length := by
    show ¬ 4 ≤ s.cwy.notifs.length
    omega
  have harmed' : ¬ ((frameTaken s x).rb aCWY_PLAND 31 = false ∨ ((frameTaken s x).ses ((frameTaken s x).rf aCWY_PLAND 7 0)).st ≠ .ready ∨
      ((frameTaken s x).ses ((frameTaken s x).rf aCWY_PLAND 7 0)).suite ≠ 3) := by
    show ¬ (s.rb aCWY_PLAND 31 = false ∨ (s.ses (s.rf aCWY_PLAND 7 0)).st ≠ .ready ∨ (s.ses (s.rf aCWY_PLAND 7 0)).suite ≠ 3)
    rw [harmed, hready, hsuite]
    decide
  unfold keyFrameReceived
  rw [takeFrame_front hfront hsub]
  dsimp only
  rw [if_neg hnotifs', if_neg harmed', if_neg (not_not_intro hlen), hcode]
  dsimp only
  rw [if_neg (not_not_intro rfl)]
  cases (((frameTaken s x).countJob engAes false).chainKey (x.2.flags.toNat % 2)).bind fun k => kwUnwrap k (x.2.payload.drop 3) with
  | none => rfl
  | some k => rfl

/-- A key of the armed landing session lands where it unwraps, and changes no session where it does not. -/
theorem keyFrame_lands {s : State} {x : Nat × Frame} (hfront : s.cwy.taken.find? (fun x => decide (x.2.cls = 2)) = some x)
    (hsub : x.2.sub = 1) (hnotifs : s.cwy.notifs.length < 4) (harmed : s.rb aCWY_PLAND 31 = true)
    (hready : (s.ses (s.rf aCWY_PLAND 7 0)).st = .ready) (hsuite : (s.ses (s.rf aCWY_PLAND 7 0)).suite = 3)
    (hlen : x.2.payload.length = 59) (hmask : s.maskStopped 0 = false) :
    ∃ t, keyFrameReceived s = t ∧
      (∀ k, ((s.chainKey (x.2.flags.toNat % 2)).bind fun k => kwUnwrap k (x.2.payload.drop 3)) = some k →
        t.rb aCWY_PLAND 31 = false ∧ t.cwy.notifs.length = s.cwy.notifs.length + 1 ∧ .causeway ∈ t.irqs ∧
        (byteAt x.2.payload 0 % 2 = 0 → (t.ses (s.rf aCWY_PLAND 7 0)).vSeed = slice k 16 12)) ∧
      (((s.chainKey (x.2.flags.toNat % 2)).bind fun k => kwUnwrap k (x.2.payload.drop 3)) = none →
        t.rb aCWY_PLAND 31 = true ∧ t.cwy.notifs = s.cwy.notifs ∧ t.sess = s.sess) ∧
      t.cwy.taken = s.cwy.taken.erase x ∧ RegsBut [aCWY_PLAND, aCWY_AUTH, aAES_COUNT] s t ∧ t.lanes = s.lanes ∧
      t.envm = s.envm ∧ BytesKept s t := by
  have hrun := keyFrame_unwraps hfront hsub hnotifs harmed hready hsuite hlen hmask
  have hcount := regsOnly_countJob (frameTaken s x) engAes false
  have hcregs := regsBut_countAes (frameTaken s x) [aAES_COUNT] false (by simp)
  generalize (frameTaken s x).countJob engAes false = v at *
  have hkey : v.chainKey (x.2.flags.toNat % 2) = s.chainKey (x.2.flags.toNat % 2) := by
    unfold State.chainKey State.key
    rw [hcount.slots]
    rfl
  have hland : v.rf aCWY_PLAND 7 0 = s.rf aCWY_PLAND 7 0 :=
    rf_of_regsBut hcregs (by decide) (by unfold Counted aCWY_PLAND; omega) 7 0
  have hvcwy : v.cwy = (frameTaken s x).cwy := hcount.cwy
  have hvregs : RegsBut [aAES_COUNT] s v := RegsBut.trans (t := frameTaken s x) (regsBut_of_regs rfl _) hcregs
  have hvbytes : BytesKept s v := BytesKept.trans (t := frameTaken s x) (bytesKept_of_eq rfl rfl)
    (bytesKept_of_eq hcount.mem hcount.flash)
  rw [hkey] at hrun
  cases hopen : (s.chainKey (x.2.flags.toNat % 2)).bind fun k => kwUnwrap k (x.2.payload.drop 3) with
  | none =>
    rw [hopen] at hrun
    have hsend : Sends v (v.receipt x.2.src 1 cTagFail) := sends_sendAuth ..
    have hsr : RegsBut [aCWY_AUTH, aAES_COUNT] s (v.receipt x.2.src 1 cTagFail) :=
      RegsBut.trans (t := v) (RegsBut.mono hvregs (by simp)) hsend.regs
    refine ⟨_, hrun, fun k hk => by simp at hk, fun _ => ⟨?_, ?_, ?_⟩, ?_, RegsBut.mono hsr (by simp), ?_, ?_, ?_⟩
    · rw [← harmed]
      exact congrArg (bit · 31) (hsr _ (by decide) (by unfold Counted aCWY_PLAND; omega))
    · show (v.receipt x.2.src 1 cTagFail).cwy.notifs = _
      rw [hsend.cwy, hvcwy]
      rfl
    · exact hsend.sess.trans hcount.sess
    · show (v.receipt x.2.src 1 cTagFail).cwy.taken = _
      rw [hsend.cwy, hvcwy]
      rfl
    · exact hsend.lanes.trans hcount.lanes
    · exact hsend.envm.trans hcount.envm
    · exact BytesKept.trans hvbytes hsend.bytes
  | some k =>
    rw [hopen] at hrun
    obtain ⟨t, ht, hoff, hmore, hirq, hseed, htaken, hregs, hlanes, henvm, hbytes⟩ := keyLanded_shows v x.2 k
    rw [hvcwy] at hmore htaken
    rw [hland] at hseed
    refine ⟨t, hrun.trans ht, fun k' hk => ?_, fun h => by simp at h, htaken, ?_, hlanes.trans hcount.lanes, henvm.trans hcount.envm,
      BytesKept.trans hvbytes hbytes⟩
    · obtain rfl : k = k' := Option.some.inj hk
      exact ⟨hoff, hmore, hirq, hseed⟩
    · exact RegsBut.trans (t := v) (RegsBut.mono hvregs (by simp)) hregs


theorem closeFrame_notified {s : State} {x : Nat × Frame} (hfront : s.cwy.taken.find? (fun x => decide (x.2.cls = 2)) = some x)
    (hsub : x.2.sub = 2) (hnotifs : s.cwy.notifs.length < 4) :
    closeFrameReceived s = ((frameTaken s x).notify 2 0 x.2.src x.2.payload 0).receipt x.2.src 2 cOk := by
  unfold closeFrameReceived
  rw [takeFrame_front hfront hsub]
  exact if_neg (show ¬ 4 ≤ s.cwy.notifs.length by omega)

theorem switch_takes {s : State} {x : Nat × Frame} (hfront : s.cwy.taken.find? (fun x => decide (x.2.cls = 2)) = some x)
    (hsub : x.2.sub = 3) :
    switchReceived s = ((frameTaken s x).srf aCWY_KEYSEL 0 0 (byteAt x.2.payload 0)).receipt x.2.src 3 cOk := by
  unfold switchReceived
  rw [takeFrame_front hfront hsub]

theorem toNat_by8_byteAt (b : Bytes) (i : Nat) : (by8 (byteAt b i)).toNat = byteAt b i := by
  unfold by8 byteAt
  rw [BitVec.ofNat_toNat, BitVec.setWidth_eq]

/-- Settles O50: application frames, and the Peat-to-Peat commands and frames. -/
theorem peatToPeat : Obligations.PeatToPeat := by
  unfold Obligations.PeatToPeat
  refine ⟨fun s x hfront hroom hopen => ?data, fun s m v hg hnone hheld h31 hses hlen hoff hcheck hkey hmask => ?key,
    fun s m v hg hnone hheld h31 => ?close, fun s m v hg hnone hheld h31 => ?switch,
    fun s x hfront hsub hwait hstatus hswitch => ?receipt, fun s hwait => ?timeout,
    fun s x hfront hsub hnotifs harmed hready hsuite hlen hmask => ?landed, fun s x hfront hsub hnotifs => ?closed,
    fun s x hfront hsub => ?switched, fun s m w l hg hnotifs hkind => ?read⟩
  case data =>
    obtain ⟨t, ht, hrest⟩ := data_committed hfront hroom hopen
    exact ⟨t, congrArg done ht, hrest⟩
  case key =>
    obtain ⟨u, hu, hown⟩ := owned_sees hg (pcmdWrite (setFld v 31 28 9))
    obtain ⟨w, hw, hregs, honly, hpcmd⟩ : ∃ w, u.setReg aCWY_PCMD (pcmdWord v 9) = w ∧
        RegsBut [aCWY_PCMD] u w ∧ RegsOnly u w ∧ w.reg aCWY_PCMD = pcmdWord v 9 :=
      ⟨_, rfl, regsBut_setReg u (by simp) _, regsOnly_setReg .., reg_setReg_same ..⟩
    have hsw : RegsBut [aCWY_PCMD] s w := RegsBut.trans (hu.regsBut _) hregs
    have hsess : w.sess = s.sess := honly.sess.trans (hu.view State.sess fun _ _ => rfl)
    have hslots : w.slots = s.slots := honly.slots.trans (hu.view State.slots fun _ _ => rfl)
    have hpkref : w.reg aCWY_PKREF = s.reg aCWY_PKREF := hsw _ (by decide) (by unfold Counted aCWY_PKREF; omega)
    have hksel : w.ksel = s.ksel := rf_of_regsBut hsw (by decide) (by unfold Counted aCWY_KEYSEL; omega) 0 0
    have hmask' : w.maskStopped 0 = false :=
      (congrArg (bit · 29) (hsw (aTRNG_MASK 0) (by decide) (by unfold Counted aTRNG_MASK; omega))).trans hmask
    obtain ⟨body, hgo⟩ := pcmdGo_key hpcmd (hpkref ▸ hses) (hpkref ▸ hlen) (hpkref ▸ hoff)
      (by rw [keyCheck_congr hsess hslots (by decide), hpkref]; exact hcheck)
      (by rw [hksel, State.chainKey, key_congr hslots]; exact hkey) hmask'
    rw [← hw] at hgo
    obtain ⟨t, ht, hrest⟩ := pcmd_waits h31 hu (by decide) hnone hheld hown (regsOnly_countJob ..)
      (regsBut_countAes _ _ _ (by simp)) hgo
    exact ⟨t, congrArg done ht, hrest⟩
  case close =>
    obtain ⟨u, hu, hown⟩ := owned_sees hg (pcmdWrite (setFld v 31 28 10))
    obtain ⟨body, hgo⟩ := pcmdGo_close (s := u.setReg aCWY_PCMD (pcmdWord v 10)) (v := v) (reg_setReg_same ..)
    obtain ⟨t, ht, hrest⟩ := pcmd_waits h31 hu (by decide) hnone hheld hown (.refl _) (regsBut_of_regs rfl _) hgo
    exact ⟨t, congrArg done ht, hrest⟩
  case switch =>
    obtain ⟨u, hu, hown⟩ := owned_sees hg (pcmdWrite (setFld v 31 28 11))
    obtain ⟨body, hgo⟩ := pcmdGo_switch (s := u.setReg aCWY_PCMD (pcmdWord v 11)) (v := v) (reg_setReg_same ..)
    obtain ⟨t, ht, hrest⟩ := pcmd_waits h31 hu (by decide) hnone hheld hown (.refl _) (regsBut_of_regs rfl _) hgo
    exact ⟨t, congrArg done ht, hrest⟩
  case receipt =>
    obtain ⟨t, ht, hcwy, hpstat, hregs, hlanes, henvm, hbytes⟩ := pcmdEnd_shows (frameTaken s x) (by8 (byteAt x.2.payload 1))
    refine ⟨t, congrArg done ((receipt_ends hfront hsub hwait hstatus hswitch).trans ht), by rw [hcwy], ?_, by rw [hcwy]; rfl, ?_, hlanes,
      henvm, hbytes⟩
    · rw [hpstat, toNat_by8_byteAt]
    · exact RegsBut.trans (t := frameTaken s x) (regsBut_of_regs rfl _) hregs
  case timeout =>
    obtain ⟨t, ht, hcwy, hpstat, hregs, hlanes, henvm, hbytes⟩ := pcmdEnd_shows s cAborted
    have hrun : receiptTimeout s = s.pcmdEnd cAborted := if_neg fun h => hwait h.1
    exact ⟨t, congrArg done (hrun.trans ht), by rw [hcwy], hpstat, hregs, hlanes, henvm, hbytes⟩
  case landed =>
    obtain ⟨t, ht, hrest⟩ := keyFrame_lands hfront hsub hnotifs harmed hready hsuite hlen hmask
    exact ⟨t, congrArg done ht, hrest⟩
  case closed =>
    obtain ⟨w, n, hw, hcwy, hirqs, hword, hregs, -, hlanes, henvm, hbytes⟩ :=
      notify_shows (frameTaken s x) 2 0 x.2.src x.2.payload 0
    have hrun := closeFrame_notified hfront hsub hnotifs
    rw [hw] at hrun
    have hsend : Sends w (w.receipt x.2.src 2 cOk) := sends_sendAuth ..
    refine ⟨_, congrArg done hrun, ?_, ?_, ?_, ?_, hsend.lanes.trans hlanes, hsend.envm.trans henvm,
      BytesKept.trans (t := frameTaken s x) (bytesKept_of_eq rfl rfl) (BytesKept.trans hbytes hsend.bytes)⟩
    · rw [hsend.cwy, hcwy, hword]
      show s.cwy.notifs ++ [_] = _
      rw [Nat.zero_mul, Nat.add_zero, Nat.zero_add]
    · rw [hsend.irqs]
      exact hirqs
    · rw [hsend.cwy, hcwy]
      rfl
    · exact RegsBut.trans (t := w) (regsBut_of_regs (t := w) hregs _) hsend.regs
  case switched =>
    obtain ⟨u, hu, hsel, hregs, honly⟩ : ∃ u, (frameTaken s x).srf aCWY_KEYSEL 0 0 (byteAt x.2.payload 0) = u ∧
        u.rf aCWY_KEYSEL 0 0 = byteAt x.2.payload 0 % 2 ∧ RegsBut [aCWY_KEYSEL] (frameTaken s x) u ∧ RegsOnly (frameTaken s x) u :=
      ⟨_, rfl, rf_srf_same _ _ _ (by decide) (by decide), regsBut_srf _ (by simp) 0 0 _, regsOnly_setReg ..⟩
    have hrun := switch_takes hfront hsub
    rw [hu] at hrun
    have hsend : Sends u (u.receipt x.2.src 3 cOk) := sends_sendAuth ..
    refine ⟨_, congrArg done hrun, ?_, ?_, ?_, hsend.lanes.trans honly.lanes, hsend.envm.trans honly.envm,
      BytesKept.trans (t := frameTaken s x) (bytesKept_of_eq rfl rfl)
        (BytesKept.trans (bytesKept_of_eq honly.mem honly.flash) hsend.bytes)⟩
    · rw [← hsel]
      exact rf_of_regsBut hsend.regs (by decide) (by unfold Counted aCWY_KEYSEL; omega) 0 0
    · rw [hsend.cwy, honly.cwy]
      rfl
    · exact RegsBut.trans (t := u) (RegsBut.mono (RegsBut.trans (t := frameTaken s x) (regsBut_of_regs rfl _) hregs) (by simp))
        (RegsBut.mono hsend.regs (by simp))
  case read =>
    obtain ⟨u, hu, hown⟩ := owned_sees hg prxClear
    have hcwy : u.cwy.notifs = w :: l := (hu.view (fun s => s.cwy.notifs) fun _ _ => rfl).trans hnotifs
    have hrun : prxClear u = { u with cwy := { u.cwy with notifs := l } } := by
      unfold prxClear
      rw [hcwy]
      exact if_neg (by rw [hkind]; decide)
    exact ⟨_, congrArg done (hown.trans hrun), rfl, RegsBut.trans (hu.regsBut _) (regsBut_of_regs rfl _),
      hu.view State.lanes fun _ _ => rfl, hu.view State.envm fun _ _ => rfl, BytesKept.trans hu.bytes (bytesKept_of_eq rfl rfl)⟩

end Proofs
end Sys2Proof

/-! PROOFS. The gatherer, the monitors' windows, PRF_SEL and the thermal governor (R476, R481, R484, R492). -/
namespace Sys2Proof
namespace Proofs

open Sys2Proof.Machine Sys2Proof.Safety Sys2Proof.Laws

/-! ### A snapshot (R484) -/

theorem snapWords_ne_nil (s : State) : s.snapWords ≠ [] := by
  unfold State.snapWords
  simp

theorem snapshot_commits {s : State} (hres : s.resumed = true) (hperiod : s.rf aPRF_GCTL 15 0 ≠ 0)
    (hclear : s.rb aPRF_GCTL 16 = false) (hwrote : s.dumpWrote = none) (hroom : s.snapWords.length ≤ s.room 13)
    (hopen : s.openCount 13 < 8) :
    ∃ u, Committed s u 13 (wordsPacket 0 0xFF s.snapWords) ∧ snapshot s = u.bump aPRF_GSTAT 15 0 1 := by
  have hheld : s.heldBack 13 = 0 := by
    unfold State.heldBack
    split <;> rfl
  have hok : s.hwRoom 13 (wordsPacket 0 0xFF s.snapWords) = true := by
    unfold State.hwRoom
    rw [hheld, length_wordsPacket (snapWords_ne_nil s)]
    exact decide_eq_true ⟨hroom, hopen⟩
  refine ⟨_, committed_commit s 13 (wordsPacket 0 0xFF s.snapWords) (wordsPacket 0 0xFF s.snapWords).items.length, ?_⟩
  have hdump : s.dumpWords = (s.snapWords, s) := by
    unfold State.dumpWords
    rw [hwrote]
  have hhw : s.hwCommit 13 (wordsPacket 0 0xFF s.snapWords) =
      some ((s.commit 13 (wordsPacket 0 0xFF s.snapWords)).evt 0x10 0x12 (wordsPacket 0 0xFF s.snapWords).items.length) := by
    unfold State.hwCommit
    rw [if_pos hok, jobAccepted_other (by decide) (by decide)]
  unfold snapshot
  rw [if_neg (by rw [hres]; simp [hperiod]), hdump]
  dsimp only
  rw [hclear, onlyIf_false, hhw]

/-! ### The end of a window (R481) -/

theorem regsBut_counted (s : State) {a : Nat} (h : Counted a) (v : Word) : RegsBut [] s (s.setReg a v) := fun b _ hb =>
  reg_setReg_ne s (fun hab => hb (by rw [hab]; exact h)) v

/-- The registers that show a window. -/
theorem windowShown (s : State) {n : Nat} (hn : n < 6) (acc bytes : Word) :
    ∃ u, (s.setReg (aPRF_PMACC n) acc).setReg (aPRF_PMBYTES n) bytes = u ∧ u.reg (aPRF_PMACC n) = acc ∧
      u.reg (aPRF_PMBYTES n) = bytes ∧ u.rf (aPRF_PMWIN n) 31 16 = s.rf (aPRF_PMWIN n) 31 16 ∧ RegsBut [] s u ∧ RegsOnly s u := by
  refine ⟨_, rfl, ?_, reg_setReg_same .., ?_, RegsBut.trans (regsBut_counted s ?_ acc) (regsBut_counted _ ?_ bytes),
    (regsOnly_setReg ..).trans (regsOnly_setReg ..)⟩
  · rw [reg_setReg_ne _ (by unfold aPRF_PMACC aPRF_PMBYTES; omega), reg_setReg_same]
  · rw [rf_setReg, if_neg (by unfold aPRF_PMWIN aPRF_PMBYTES; omega), rf_setReg, if_neg (by unfold aPRF_PMWIN aPRF_PMACC; omega)]
  · unfold Counted aPRF_PMACC; omega
  · unfold Counted aPRF_PMBYTES; omega

theorem windowEnd_moves {s : State} {n : Nat} (hres : s.resumed = true) (hn : n < 6) (hon : s.rb (aPRF_PMCFG n) 31 = true)
    (hwin : s.rf (aPRF_PMWIN n) 15 0 ≠ 0) :
    ∃ t, windowEnd n s = t ∧ t.reg (aPRF_PMACC n) = tget s.prfAcc n 0 ∧ t.reg (aPRF_PMBYTES n) = tget s.prfAcc (16 + n) 0 ∧
      tget t.prfAcc n 0 = 0 ∧ tget t.prfAcc (16 + n) 0 = 0 ∧
      t.rf (aPRF_PMWIN n) 31 16 = (s.rf (aPRF_PMWIN n) 31 16 + 1) % 65536 ∧ RegsBut [] s t ∧ t.lanes = s.lanes ∧ BytesKept s t := by
  obtain ⟨u, hu, hacc, hbytes, hpmwin, hregs, honly⟩ := windowShown s hn (tget s.prfAcc n 0) (tget s.prfAcc (16 + n) 0)
  have hrun : windowEnd n s = (u.windowStart n).bump (aPRF_PMWIN n) 31 16 1 := by
    unfold windowEnd
    rw [if_neg (by rw [hres, hon]; simp [hwin]; omega), hu]
  obtain ⟨v, hv, hvregs, hvacc, hvlanes, hvbytes⟩ : ∃ v, u.windowStart n = v ∧ v.regs = u.regs ∧
      v.prfAcc = tdel (tdel u.prfAcc n) (16 + n) ∧ v.lanes = u.lanes ∧ BytesKept u v :=
    ⟨_, rfl, rfl, rfl, rfl, bytesKept_of_eq rfl rfl⟩
  rw [hv] at hrun
  have hbump : RegsOnly v (v.bump (aPRF_PMWIN n) 31 16 1) := regsOnly_setReg ..
  have hcounted : Counted (aPRF_PMWIN n) := by unfold Counted aPRF_PMWIN; omega
  have hbumpregs : RegsBut [] v (v.bump (aPRF_PMWIN n) 31 16 1) := regsBut_counted v hcounted _
  have hpmwin' := rf_bump_high v (aPRF_PMWIN n) 1
  have hkeep : ∀ a, a ≠ aPRF_PMWIN n → (v.bump (aPRF_PMWIN n) 31 16 1).reg a = v.reg a := fun a ha => reg_setReg_ne v ha _
  generalize v.bump (aPRF_PMWIN n) 31 16 1 = t at *
  refine ⟨t, hrun, ?_, ?_, ?_, ?_, ?_, ?_, ?_, ?_⟩
  · rw [hkeep _ (by unfold aPRF_PMACC aPRF_PMWIN; omega), reg_congr hvregs, hacc]
  · rw [hkeep _ (by unfold aPRF_PMBYTES aPRF_PMWIN; omega), reg_congr hvregs, hbytes]
  · rw [hbump.prfAcc, hvacc, tget_tdel, if_neg (by omega), tget_tdel, if_pos rfl]
  · rw [hbump.prfAcc, hvacc, tget_tdel, if_pos rfl]
  · rw [hpmwin', rf_congr hvregs, hpmwin]
  · exact RegsBut.trans (t := v) (RegsBut.trans hregs (regsBut_of_regs hvregs _)) hbumpregs
  · exact hbump.lanes.trans (hvlanes.trans honly.lanes)
  · exact BytesKept.trans (t := v) (BytesKept.trans (t := u) (bytesKept_of_eq honly.mem honly.flash) hvbytes)
      (bytesKept_of_eq hbump.mem hbump.flash)

/-! ### A write of PRF_SEL (R476) -/

/-- The word that a write of PRF_SEL leaves: its event, and OVF cleared where it is written 1. -/
def selWord (old v : Word) : Word := (old &&& ~~~(v &&& 0x100) &&& 0xFFFFFF00) ||| (v &&& 0xFF)

theorem getLsbD_selWord (old v : Word) (j : Nat) (hj : j ≤ 8) :
    (selWord old v).getLsbD j = if j < 8 then v.getLsbD j else old.getLsbD j && !v.getLsbD j := by
  unfold selWord
  have hcases : j = 0 ∨ j = 1 ∨ j = 2 ∨ j = 3 ∨ j = 4 ∨ j = 5 ∨ j = 6 ∨ j = 7 ∨ j = 8 := by omega
  rcases hcases with rfl | rfl | rfl | rfl | rfl | rfl | rfl | rfl | rfl <;>
    simp

theorem selWord_shows (old v : Word) : fld (selWord old v) 7 0 = fld v 7 0 ∧ bit (selWord old v) 8 = (bit old 8 && !bit v 8) := by
  refine ⟨?_, getLsbD_selWord old v 8 (by omega)⟩
  refine Nat.eq_of_testBit_eq fun j => ?_
  by_cases hj : j ≤ 7 - 0
  · rw [← bit_eq_testBit_fld _ hj, ← bit_eq_testBit_fld _ hj, bit, bit, Nat.zero_add, getLsbD_selWord old v j (by omega),
      if_pos (by omega)]
  · have hlt : ∀ w : Word, fld w 7 0 < 2 ^ j := fun w =>
      lt_of_lt_of_le (Nat.mod_lt _ (Nat.two_pow_pos _)) (Nat.pow_le_pow_right (by decide) (by omega))
    rw [Nat.testBit_lt_two_pow (hlt _), Nat.testBit_lt_two_pow (hlt _)]

theorem selWrite_selects {s : State} {b k : Nat} (hb : b < 25) (hk : k < 4) (v : Word) :
    ∃ t, selWrite b k v s = t ∧ t.rf (aPRF_SEL b k) 7 0 = fld v 7 0 ∧
      t.rb (aPRF_SEL b k) 8 = (s.rb (aPRF_SEL b k) 8 && !bit v 8) ∧ t.reg (aPRF_CNT b k) = 0 ∧ RegsBut [] s t ∧ RegsOnly s t := by
  have hne : aPRF_SEL b k ≠ aPRF_CNT b k := by unfold aPRF_SEL aPRF_CNT; omega
  obtain ⟨hfld, hbit⟩ := selWord_shows (s.reg (aPRF_SEL b k)) v
  have hrun : selWrite b k v s = (s.setReg (aPRF_SEL b k) (selWord (s.reg (aPRF_SEL b k)) v)).setReg (aPRF_CNT b k) 0 := rfl
  rw [hrun]
  generalize selWord (s.reg (aPRF_SEL b k)) v = w at *
  refine ⟨_, rfl, ?_, ?_, reg_setReg_same .., RegsBut.trans (regsBut_counted s ?_ w) (regsBut_counted _ ?_ 0),
    (regsOnly_setReg ..).trans (regsOnly_setReg ..)⟩
  · rw [rf_setReg, if_neg hne, rf_setReg, if_pos rfl, hfld]
  · rw [rb_setReg, if_neg hne, rb_setReg, if_pos rfl, hbit]
    rfl
  · unfold Counted aPRF_SEL; omega
  · unfold Counted aPRF_CNT; omega

/-! ### The governor (R492) -/

theorem unsgn_lt (w : Nat) (i : Int) : unsgn w i < 2 ^ w := by
  have hpos : (0 : Int) < ((2 ^ w : Nat) : Int) := by exact_mod_cast Nat.two_pow_pos w
  exact (Int.toNat_lt (Int.emod_nonneg i hpos.ne')).mpr (Int.emod_lt_of_pos i hpos)

/-- What a reading makes of the duty. -/
def dutyAfter (tj : Int) (d : Nat) : Nat :=
  if 2000 ≤ tj then 0 else if 1936 < tj then d - 1 else if tj < 1920 then min 16 (d + 1) else d

/-- What a reading leaves in PWR_THERM, once its temperature is there. -/
def thermAfter (tj : Int) (d : Nat) (s : State) : State :=
  if 2000 ≤ tj then (s.srf aPWR_THERM 4 0 0).srb aPWR_THERM 8 true
  else if 1936 < tj then s.srf aPWR_THERM 4 0 (d - 1)
  else if tj < 1920 then s.srf aPWR_THERM 4 0 (min 16 (d + 1))
  else s

theorem thermAfter_shows (tj : Int) {d : Nat} {s : State} (hd : s.rf aPWR_THERM 4 0 = d) :
    ∃ t, thermAfter tj d s = t ∧ t.rf aPWR_THERM 31 16 = s.rf aPWR_THERM 31 16 ∧ t.rf aPWR_THERM 4 0 = dutyAfter tj d ∧
      t.rb aPWR_THERM 8 = (decide (2000 ≤ tj) || s.rb aPWR_THERM 8) ∧ RegsBut [aPWR_THERM] s t ∧ RegsOnly s t := by
  have h32 : d < 32 := hd ▸ Nat.mod_lt _ (by decide)
  have hset : ∀ k, k < 32 → (s.srf aPWR_THERM 4 0 k).rf aPWR_THERM 4 0 = k := fun k hk => by
    rw [rf_srf_same _ _ _ (by decide) (by decide)]
    exact Nat.mod_eq_of_lt hk
  have htemp : ∀ k, (s.srf aPWR_THERM 4 0 k).rf aPWR_THERM 31 16 = s.rf aPWR_THERM 31 16 := fun k =>
    rf_srf_ne _ _ _ (by decide) (by decide) (by decide) (by decide)
  have hflag : ∀ k, (s.srf aPWR_THERM 4 0 k).rb aPWR_THERM 8 = s.rb aPWR_THERM 8 := fun k =>
    rb_srf_ne _ _ _ (by decide) (by decide) (by decide)
  have hregs : ∀ k, RegsBut [aPWR_THERM] s (s.srf aPWR_THERM 4 0 k) := fun k => regsBut_srf s (by simp) 4 0 k
  have honly : ∀ k, RegsOnly s (s.srf aPWR_THERM 4 0 k) := fun k => regsOnly_setReg ..
  unfold thermAfter dutyAfter
  split
  next h =>
    refine ⟨_, rfl, ?_, ?_, ?_, RegsBut.trans (hregs 0) (regsBut_srb _ (by simp) 8 true), (honly 0).trans (regsOnly_setReg ..)⟩
    · rw [rf_srb_ne _ _ (by decide) (by decide) (by decide), htemp]
    · rw [rf_srb_ne _ _ (by decide) (by decide) (by decide), hset 0 (by decide)]
    · rw [rb_srb_same _ _ (by decide), decide_eq_true h]
      rfl
  next h =>
    rw [decide_eq_false h, Bool.false_or]
    split
    · exact ⟨_, rfl, htemp _, hset _ (by omega), hflag _, hregs _, honly _⟩
    · split
      · exact ⟨_, rfl, htemp _, hset _ (by omega), hflag _, hregs _, honly _⟩
      · exact ⟨_, rfl, rfl, hd, rfl, regsBut_of_regs rfl _, .refl s⟩

theorem governorReading_steps {s : State} (hrails : s.rails = true) (tj : Int) :
    ∃ t, governorReading tj s = t ∧ t.rf aPWR_THERM 31 16 = unsgn 16 tj ∧ t.rf aPWR_THERM 4 0 = dutyAfter tj (s.rf aPWR_THERM 4 0) ∧
      t.rb aPWR_THERM 8 = (decide (2000 ≤ tj) || s.rb aPWR_THERM 8) ∧ RegsBut [aPWR_THERM] s t ∧ t.lanes = s.lanes ∧
      BytesKept s t := by
  obtain ⟨u, hu, huregs, hulanes, hubytes⟩ : ∃ u, s.refill.internalSlots 4 = u ∧ u.regs = s.regs ∧ u.lanes = s.lanes ∧ BytesKept s u :=
    ⟨_, rfl, rfl, rfl, bytesKept_of_eq rfl rfl⟩
  obtain ⟨v, hv, htemp, hduty, hflag, hvregs, honly⟩ : ∃ v, u.srf aPWR_THERM 31 16 (unsgn 16 tj) = v ∧
      v.rf aPWR_THERM 31 16 = unsgn 16 tj ∧ v.rf aPWR_THERM 4 0 = s.rf aPWR_THERM 4 0 ∧ v.rb aPWR_THERM 8 = s.rb aPWR_THERM 8 ∧
      RegsBut [aPWR_THERM] u v ∧ RegsOnly u v := by
    refine ⟨_, rfl, ?_, ?_, ?_, regsBut_srf u (by simp) 31 16 _, regsOnly_setReg ..⟩
    · rw [rf_srf_same _ _ _ (by decide) (by decide)]
      exact Nat.mod_eq_of_lt (unsgn_lt 16 tj)
    · rw [rf_srf_ne _ _ _ (by decide) (by decide) (by decide) (by decide), rf_congr huregs]
    · rw [rb_srf_ne _ _ _ (by decide) (by decide) (by decide), rb_congr huregs]
  obtain ⟨t, ht, h1, h2, h3, h4, h5⟩ := thermAfter_shows tj hduty
  have hrun : governorReading tj s = thermAfter tj (s.rf aPWR_THERM 4 0) v := by
    have hd : u.duty = s.rf aPWR_THERM 4 0 := rf_congr huregs aPWR_THERM 4 0
    unfold governorReading
    rw [if_neg (by rw [hrails]; decide), hu]
    dsimp only
    rw [hd, hv]
    rfl
  refine ⟨t, hrun.trans ht, h1.trans htemp, h2, ?_, ?_, h5.lanes.trans (honly.lanes.trans hulanes), ?_⟩
  · rw [h3, hflag]
  · exact RegsBut.trans (t := v) (RegsBut.trans (t := u) (regsBut_of_regs huregs _) hvregs) h4
  · refine BytesKept.trans hubytes (bytesKept_of_eq ?_ ?_)
    · exact h5.mem.trans honly.mem
    · exact h5.flash.trans honly.flash

/-- Settles O52: snapshots, windows, selections and the governor. -/
theorem snapshotsMonitorsAndGovernor : Obligations.SnapshotsMonitorsAndGovernor := by
  unfold Obligations.SnapshotsMonitorsAndGovernor
  refine ⟨fun s hres hperiod hclear hwrote hroom hopen => ?snapshot, fun s n hres hn hon hwin => ?window,
    fun s m b k v hb hk hg => ?sel, fun s tj hrails => ?governor⟩
  case snapshot =>
    obtain ⟨u, hu, hrun⟩ := snapshot_commits hres hperiod hclear hwrote hroom hopen
    have honly : RegsOnly u (u.bump aPRF_GSTAT 15 0 1) := regsOnly_setReg ..
    have hregs : RegsBut [] u (u.bump aPRF_GSTAT 15 0 1) := regsBut_counted u (by unfold Counted aPRF_GSTAT; omega) _
    generalize u.bump aPRF_GSTAT 15 0 1 = t at *
    have hlane : t.lane 13 = u.lane 13 := by
      unfold State.lane
      rw [honly.lanes]
    refine ⟨t, congrArg done hrun, ?_, ?_, fun a ha => ?_, BytesKept.trans hu.bytes (bytesKept_of_eq honly.mem honly.flash)⟩
    · rw [hlane, hu.newestWords, packetWords_wordsPacket (snapWords_ne_nil s)]
    · rw [hlane, hu.lane]
      exact List.length_append
    · exact RegsBut.trans hu.regs hregs a (by simp) ha
  case window =>
    obtain ⟨t, ht, hrest⟩ := windowEnd_moves hres hn hon hwin
    exact ⟨t, congrArg done ht, hrest⟩
  case sel =>
    obtain ⟨u, hu, hown⟩ := owned_sees hg (selWrite b k v)
    obtain ⟨t, ht, hfld, hovf, hcnt, hregs, honly⟩ := selWrite_selects (s := u) hb hk v
    have hrb : u.rb (aPRF_SEL b k) 8 = s.rb (aPRF_SEL b k) 8 := hu.view (fun s => s.rb (aPRF_SEL b k) 8) fun _ _ => rfl
    refine ⟨t, congrArg done ((if_pos ⟨hb, hk⟩).trans (hown.trans ht)), hfld, by rw [hovf, hrb], hcnt,
      RegsBut.trans (hu.regsBut _) hregs, honly.lanes.trans (hu.view State.lanes fun _ _ => rfl),
      BytesKept.trans hu.bytes (bytesKept_of_eq honly.mem honly.flash)⟩
  case governor =>
    obtain ⟨t, ht, hrest⟩ := governorReading_steps hrails tj
    exact ⟨t, congrArg done ht, hrest⟩

end Proofs
end Sys2Proof

/-! PROOFS. Alarms, the storm of them, trips outside the resumed state, and memory errors (R464 to R471). -/
namespace Sys2Proof
namespace Proofs

open Sys2Proof.Machine Sys2Proof.Safety Sys2Proof.Laws

/-! ### What an alarm leaves as it is -/

/-- Nothing is open that an alarm would end: no job, no exchange, no operation, no slot, no request of Peat. -/
structure NoWork (s : State) : Prop where
  aes : s.eng.aes = none
  bn : s.eng.bn = none
  bnSusp : s.eng.bnSusp = none
  hsh : s.eng.hsh = none
  lf : s.lf.cur = none
  nfc : s.nfc.cur = none
  uwb : s.uwb.cur = none
  dist : s.dist.cur = []
  serving : s.peat.serving = none

/-- Only the registers, the interrupts, the alarm's notes, the random source and the waveform differ. -/
def AlarmOnly (s t : State) : Prop :=
  t = { s with regs := t.regs, irqs := t.irqs, flt := t.flt, trng := t.trng, rel := t.rel }

theorem AlarmOnly.trans {s t u : State} (h : AlarmOnly s t) (h' : AlarmOnly t u) : AlarmOnly s u := by
  unfold AlarmOnly at *
  rw [h] at h'
  exact h'

theorem alarmOnly_of_regsOnly {s t : State} (h : RegsOnly s t) : AlarmOnly s t := by
  unfold AlarmOnly
  rw [h]

section
variable {s t : State} (h : AlarmOnly s t)
include h

theorem AlarmOnly.power : t.power = s.power := by
  unfold AlarmOnly at h
  rw [h]

theorem AlarmOnly.envm : t.envm = s.envm := by
  unfold AlarmOnly at h
  rw [h]

theorem AlarmOnly.flash : t.flash = s.flash := by
  unfold AlarmOnly at h
  rw [h]

theorem AlarmOnly.slots : t.slots = s.slots := by
  unfold AlarmOnly at h
  rw [h]

theorem AlarmOnly.sysTime : t.sysTime = s.sysTime := by
  unfold AlarmOnly at h
  rw [h]

theorem AlarmOnly.bytes : BytesKept s t := by
  unfold AlarmOnly at h
  rw [h]
  exact bytesKept_of_eq rfl rfl

theorem AlarmOnly.noWork (hw : NoWork s) : NoWork t := by
  unfold AlarmOnly at h
  rw [h]
  exact { hw with }

end

section
variable {s : State} (h : NoWork s)
include h

theorem alarmJobs_noWork : s.alarmJobs = s := by
  have haes : s.endAes cAlarm = s := by unfold State.endAes; rw [h.aes]
  have hsusp : s.endBnSusp cAlarm = s := by unfold State.endBnSusp; rw [h.bnSusp]
  have hbn : s.endBn cAlarm = s := by unfold State.endBn; rw [h.bn]
  have hhsh : s.endHsh cAlarm = s := by unfold State.endHsh; rw [h.hsh]
  unfold State.alarmJobs
  rw [haes, hsusp, hbn, hhsh]

theorem alarmDecision_noWork : s.alarmDecision = s := by
  unfold State.alarmDecision
  rw [h.serving]

theorem alarmFronts_noWork : s.alarmFronts = s := by
  have hlf : s.lfStop cAlarm = s := by unfold State.lfStop; rw [h.lf]
  have hnfc : s.nfcStop cAlarm = s := by unfold State.nfcStop; rw [h.nfc]
  have huwb : s.uwbAlarm = s := by unfold State.uwbAlarm State.uwbCur; rw [h.uwb]
  have hslot : s.slotAlarm = s := by unfold State.slotAlarm; rw [h.dist]
  unfold State.alarmFronts
  rw [hlf, hnfc, huwb, hslot]

theorem peatGoesOn_noWork : peatGoesOn s = s := by
  unfold peatGoesOn
  rw [h.serving]

end

/-! ### What an alarm writes -/

/-- What the record of an alarm writes (R466). -/
structure Alarmed (s t : State) (n detail : Nat) : Prop where
  only : AlarmOnly s t
  status : t.rb aFLT_STATUS (n - 1) = true
  last0 : t.reg aFLT_LAST0 = w32 (n * 2 ^ 28 + detail % 256 * 2 ^ 16 + (s.rf aFLT_LAST0 15 0 + 1) % 65536)
  last1 : t.reg aFLT_LAST1 = s.sysLo
  source : t.rf aFLT_AON 31 28 = n
  storms : t.rf aFLT_AON 23 16 = s.rf aFLT_AON 23 16
  irq : .alarm ∈ t.irqs
  times : t.flt.times.length = (s.flt.times.filter fun x => decide (s.sys < x + secs 1)).length + 1
  regs : RegsBut [aFLT_STATUS, aFLT_LAST0, aFLT_LAST1, aFLT_AON, aTRNG_STATUS] s t

/-- The registers of an alarm's record. -/
theorem alarmShown (s : State) {n : Nat} (hn : n < 16) (i : Nat) (hi : i < 32) (w v : Word) :
    ∃ t, (((s.srb aFLT_STATUS i true).setReg aFLT_LAST0 w).setReg aFLT_LAST1 v).srf aFLT_AON 31 28 n = t ∧ RegsOnly s t ∧
      t.rb aFLT_STATUS i = true ∧ t.reg aFLT_LAST0 = w ∧ t.reg aFLT_LAST1 = v ∧ t.rf aFLT_AON 31 28 = n ∧
      t.rf aFLT_AON 23 16 = s.rf aFLT_AON 23 16 ∧ RegsBut [aFLT_STATUS, aFLT_LAST0, aFLT_LAST1, aFLT_AON, aTRNG_STATUS] s t := by
  refine ⟨_, rfl, ((regsOnly_setReg ..).trans (regsOnly_setReg ..)).trans ((regsOnly_setReg ..).trans (regsOnly_setReg ..)),
    ?_, ?_, ?_, ?_, ?_, ?_⟩
  · rw [rb_srf_other _ (by decide), rb_setReg, if_neg (by decide), rb_setReg, if_neg (by decide), rb_srb_same _ _ hi]
  · rw [reg_srf, if_neg (by decide), reg_setReg_ne _ (by decide), reg_setReg_same]
  · rw [reg_srf, if_neg (by decide), reg_setReg_same]
  · rw [rf_srf_same _ _ _ (by decide) (by decide)]
    exact Nat.mod_eq_of_lt hn
  · rw [rf_srf_ne _ _ _ (by decide) (by decide) (by decide) (by decide), rf_setReg, if_neg (by decide), rf_setReg,
      if_neg (by decide), State.rf, reg_srb, if_neg (by decide)]
    rfl
  · exact RegsBut.trans (RegsBut.trans (RegsBut.trans (regsBut_srb s (by simp) i true) (regsBut_setReg _ (by simp) w))
      (regsBut_setReg _ (by simp) v)) (regsBut_srf _ (by simp) 31 28 n)

/-- The last part of an alarm's record: its interrupt, and its time among those of the last second. -/
def alarmTimed (t : State) : State :=
  let t := t.raise .alarm
  { t with flt := { t.flt with times := (t.flt.times.filter fun x => decide (t.sys < x + secs 1)) ++ [t.sys] } }

theorem alarmTimed_only (t : State) : AlarmOnly t (alarmTimed t) := rfl

theorem noteAlarm_eq (s : State) (n detail : Nat) : s.noteAlarm n detail = alarmTimed
    ((((s.srb aFLT_STATUS (n - 1) true).setReg aFLT_LAST0
      (w32 (n % 16 * 2 ^ 28 + detail % 256 * 2 ^ 16 + (s.rf aFLT_LAST0 15 0 + 1) % 65536))).setReg aFLT_LAST1
        s.sysLo).srf aFLT_AON 31 28 n) := by
  have hsys : ∀ (i : Nat) (w : Word), ((s.srb aFLT_STATUS i true).setReg aFLT_LAST0 w).sysLo = s.sysLo := fun i w =>
    congrArg (fun time : BitVec 64 => w32 time.toNat) (RegsOnly.sysTime (s := s) ((regsOnly_setReg ..).trans (regsOnly_setReg ..)))
  unfold State.noteAlarm alarmTimed
  dsimp only
  rw [hsys]

theorem noteAlarm_alarmed (s : State) {n : Nat} (hn : n < 16) (detail : Nat) : Alarmed s (s.noteAlarm n detail) n detail := by
  obtain ⟨t, ht, honly, hstatus, hlast0, hlast1, hsource, hstorms, hregs⟩ := alarmShown s hn (n - 1) (by omega)
    (w32 (n % 16 * 2 ^ 28 + detail % 256 * 2 ^ 16 + (s.rf aFLT_LAST0 15 0 + 1) % 65536)) s.sysLo
  obtain ⟨u, hu, huregs, huirq, huflt⟩ : ∃ u, alarmTimed t = u ∧ u.regs = t.regs ∧ .alarm ∈ u.irqs ∧
      u.flt.times = (t.flt.times.filter fun x => decide (t.sys < x + secs 1)) ++ [t.sys] := ⟨_, rfl, rfl, mem_raise t .alarm, rfl⟩
  have hframe : AlarmOnly t u := hu ▸ alarmTimed_only t
  have hrun : s.noteAlarm n detail = u := by rw [noteAlarm_eq, ht, hu]
  have hsys : t.sys = s.sys := by
    unfold State.sys
    rw [honly.sysTime]
  rw [hrun]
  exact
    { only := (alarmOnly_of_regsOnly honly).trans hframe
      status := (rb_congr huregs _ _).trans hstatus
      last0 := by rw [reg_congr huregs, hlast0, Nat.mod_eq_of_lt hn]
      last1 := (reg_congr huregs _).trans hlast1
      source := (rf_congr huregs _ _ _).trans hsource
      storms := (rf_congr huregs _ _ _).trans hstorms
      irq := huirq
      times := by rw [huflt, List.length_append, honly.flt, hsys]; rfl
      regs := RegsBut.trans hregs (regsBut_of_regs huregs _) }

/-- The restart of the random source (R323) changes TRNG_STATUS alone of the registers. -/
theorem rngAlarm_leaves (s : State) : ∃ t, s.rngAlarm = t ∧ AlarmOnly s t ∧ t.flt = s.flt ∧ t.irqs = s.irqs ∧ RegsBut [aTRNG_STATUS] s t := by
  unfold State.rngAlarm
  split
  · exact ⟨s, rfl, rfl, rfl, rfl, fun _ _ _ => rfl⟩
  · by_cases hoff : s.rngState = rngOff
    · exact ⟨s, if_pos hoff, rfl, rfl, rfl, fun _ _ _ => rfl⟩
    · obtain ⟨l, hl, -⟩ := askReseeds_adds s
      rw [rngRestart_eq hoff, hl]
      have hregs : RegsBut [aTRNG_STATUS] (s.setCallers (s.trng.reqs ++ l))
          (((s.setCallers (s.trng.reqs ++ l)).srf aTRNG_STATUS 5 4 0).setRng rngStartup) :=
        RegsBut.trans (regsBut_srf _ (by simp) 5 4 0) (regsBut_srf _ (by simp) 2 0 rngStartup)
      have honly : RegsOnly (s.setCallers (s.trng.reqs ++ l))
          (((s.setCallers (s.trng.reqs ++ l)).srf aTRNG_STATUS 5 4 0).setRng rngStartup) :=
        (regsOnly_setReg ..).trans (regsOnly_setReg ..)
      generalize ((s.setCallers (s.trng.reqs ++ l)).srf aTRNG_STATUS 5 4 0).setRng rngStartup = u at *
      exact ⟨_, rfl, AlarmOnly.trans (AlarmOnly.trans (t := s.setCallers (s.trng.reqs ++ l)) rfl (alarmOnly_of_regsOnly honly)) rfl,
        honly.flt, honly.irqs, fun a ha hc => hregs a ha hc⟩

/-- An alarm of a unit with nothing open: its record, the random source restarted, and the waveform ended. -/
theorem alarm_alarms {s : State} (hw : NoWork s) {n : Nat} (hn : n < 16) (detail : Nat) :
    ∃ t, s.alarm n detail = t.storm ∧ Alarmed s t n detail ∧ t.rel.wave = false := by
  have hnote := noteAlarm_alarmed s hn detail
  obtain ⟨u, hu, honly, hflt, hirqs, hregs⟩ := rngAlarm_leaves (s.noteAlarm n detail)
  obtain ⟨t, ht, htonly, htregs, htirqs, htflt, hwave⟩ : ∃ t, relStop u = t ∧ AlarmOnly u t ∧ t.regs = u.regs ∧ t.irqs = u.irqs ∧
      t.flt = u.flt ∧ t.rel.wave = false := ⟨_, rfl, rfl, rfl, rfl, rfl, rfl⟩
  have hwnote := hnote.only.noWork hw
  have hwt := htonly.noWork (honly.noWork hwnote)
  have hrun : s.alarm n detail = t.storm := by
    unfold State.alarm
    rw [alarmJobs_noWork hwnote, hu]
    dsimp only
    rw [ht, alarmDecision_noWork hwt, alarmFronts_noWork hwt, peatGoesOn_noWork hwt]
  have hreg : ∀ a, a ≠ aTRNG_STATUS → ¬ Counted a → t.reg a = (s.noteAlarm n detail).reg a := fun a ha hc => by
    rw [reg_congr htregs, hregs a (by simpa using ha) hc]
  have haon := hreg aFLT_AON (by decide) (by unfold Counted aFLT_AON; omega)
  refine ⟨t, hrun, ?_, hwave⟩
  exact
    { only := (hnote.only.trans honly).trans htonly
      status := by rw [State.rb, hreg aFLT_STATUS (by decide) (by unfold Counted aFLT_STATUS; omega)]; exact hnote.status
      last0 := (hreg aFLT_LAST0 (by decide) (by unfold Counted aFLT_LAST0; omega)).trans hnote.last0
      last1 := (hreg aFLT_LAST1 (by decide) (by unfold Counted aFLT_LAST1; omega)).trans hnote.last1
      source := by rw [State.rf, haon]; exact hnote.source
      storms := by rw [State.rf, haon]; exact hnote.storms
      irq := by rw [htirqs, hirqs]; exact hnote.irq
      times := by rw [htflt, hflt]; exact hnote.times
      regs := RegsBut.trans hnote.regs (RegsBut.trans (t := u) (RegsBut.mono hregs (by simp)) (regsBut_of_regs htregs _)) }

/-! ### The storm (R468) -/

theorem storm_off {s : State} (h : s.rf aFLT_CFG 7 0 = 0) : s.storm = s := by
  unfold State.storm
  exact if_pos (.inl h)

theorem rf_cfg_alarmed {s t : State} {n detail : Nat} (h : Alarmed s t n detail) : t.rf aFLT_CFG 7 0 = s.rf aFLT_CFG 7 0 :=
  rf_of_regsBut h.regs (by decide) (by unfold Counted aFLT_CFG; omega) 7 0

/-- FLT_AON stands over the reset, and so do eNVM and flash. -/
theorem resetAll_keeps {s : State} (hhsh : s.eng.hsh = none) : ∃ t, s.resetAll 0 = t ∧ t.power.mode = .starting ∧
    t.reg aFLT_AON = s.reg aFLT_AON ∧ t.envm = s.envm ∧ t.flash = s.flash := by
  refine ⟨_, rfl, rfl, ?_, ?_, rfl⟩
  · show (tget (s.aonRegs 0) aFLT_AON 0) = _
    unfold State.aonRegs
    rw [tget_tset_ne _ (by decide), tget_tset_same]
  · show s.tornEnvm = s.envm
    unfold State.tornEnvm
    rw [hhsh]

theorem storm_restarts {s : State} (hhsh : s.eng.hsh = none) (hn : s.rf aFLT_CFG 7 0 ≠ 0)
    (hmany : s.rf aFLT_CFG 7 0 ≤ s.flt.times.length) :
    ∃ t, s.storm = t ∧ t.power.mode = .starting ∧ t.rb aFLT_AON 0 = true ∧ t.rf aFLT_AON 31 28 = s.rf aFLT_AON 31 28 ∧
      t.rf aFLT_AON 23 16 = min 255 (s.rf aFLT_AON 23 16 + 1) ∧ t.envm = s.envm ∧ t.flash = s.flash := by
  obtain ⟨u, hu, honly, hbit, hsource, hcount⟩ : ∃ u, (s.srb aFLT_AON 0 true).bumpSat aFLT_AON 23 16 1 = u ∧ RegsOnly s u ∧
      u.rb aFLT_AON 0 = true ∧ u.rf aFLT_AON 31 28 = s.rf aFLT_AON 31 28 ∧
      u.rf aFLT_AON 23 16 = min 255 (s.rf aFLT_AON 23 16 + 1) := by
    refine ⟨_, rfl, (regsOnly_setReg ..).trans (regsOnly_setReg ..), ?_, ?_, ?_⟩
    · unfold State.bumpSat
      rw [rb_srf_ne _ _ _ (by decide) (by decide) (by decide), rb_srb_same _ _ (by decide)]
    · unfold State.bumpSat
      rw [rf_srf_ne _ _ _ (by decide) (by decide) (by decide) (by decide), rf_srb_ne _ _ (by decide) (by decide) (by decide)]
    · unfold State.bumpSat
      rw [rf_srf_same _ _ _ (by decide) (by decide), rf_srb_ne _ _ (by decide) (by decide) (by decide)]
      exact Nat.mod_eq_of_lt (lt_of_le_of_lt (min_le_left ..) (by decide))
  obtain ⟨t, ht, hmode, haon, henvm, hflash⟩ := resetAll_keeps (s := u) (by rw [honly.eng]; exact hhsh)
  refine ⟨t, ?_, hmode, ?_, ?_, ?_, henvm.trans honly.envm, hflash.trans honly.flash⟩
  · unfold State.storm
    rw [if_neg (by omega), hu, ht]
  · rw [State.rb, haon]; exact hbit
  · rw [State.rf, haon]; exact hsource
  · rw [State.rf, haon]; exact hcount

/-! ### Trips -/

/-- The times of the trips noted. -/
theorem noteTrips_only (l : List Nat) : ∀ s : State, ∃ trips, l.foldl State.noteTrip s = { s with flt := { s.flt with trips := trips } } := by
  induction l with
  | nil => exact fun s => ⟨s.flt.trips, rfl⟩
  | cons n l ih =>
    intro s
    obtain ⟨trips, h⟩ := ih (s.noteTrip n)
    exact ⟨trips, h⟩

theorem freshTrips_lt {s : State} {sources n : Nat} (h : n ∈ s.freshTrips sources) : n < 16 := by
  have hbits : n ∈ bitsOf 8 sources := List.mem_of_mem_filter h
  have hrange : n ∈ List.range 8 := List.mem_of_mem_filter hbits
  have := List.mem_range.mp hrange
  omega

/-- An alarm of the lowest of the trips, with their times noted. -/
theorem alarmTrips_alarms {s : State} {sources n : Nat} {l : List Nat} (hres : s.resumed = true) (hw : NoWork s)
    (hfresh : s.freshTrips sources = n :: l) (detail : Nat) :
    ∃ t, exec (.alarm sources detail) s = .next t.storm ∧ Alarmed s t n detail ∧ t.rel.wave = false := by
  obtain ⟨trips, htrips⟩ := noteTrips_only (n :: l) s
  obtain ⟨t, ht, hal, hwave⟩ := alarm_alarms (s := { s with flt := { s.flt with trips := trips } }) { hw with }
    (freshTrips_lt (s := s) (sources := sources) (by rw [hfresh]; exact List.mem_cons_self)) detail
  refine ⟨t, ?_, { hal with only := AlarmOnly.trans (t := { s with flt := { s.flt with trips := trips } }) rfl hal.only }, hwave⟩
  refine congrArg done ?_
  unfold alarmTrips
  rw [hfresh]
  dsimp only
  rw [if_pos hres, htrips, ht]

/-- A trip outside the resumed state counts, and is kept for the resume (R467). -/
theorem offlineAlarm_counts {s : State} {sources n : Nat} {l : List Nat} (hres : s.resumed = false) (hrails : s.rails = true)
    (hfresh : (s.freshTrips sources).filter (fun x => decide (x ≠ 3)) = n :: l) (detail : Nat) :
    ∃ t, offlineAlarm sources detail s = t ∧ t.rf aFLT_AON 15 8 = min 255 (s.rf aFLT_AON 15 8 + 1) ∧ t.rf aFLT_AON 31 28 = n ∧
      t.flt.offline = some (n, detail) ∧ t.irqs = s.irqs ∧ RegsBut [aFLT_AON] s t ∧ BytesKept s t := by
  have hn : n < 16 := freshTrips_lt (s := s) (sources := sources) (List.mem_of_mem_filter (by rw [hfresh]; exact List.mem_cons_self))
  obtain ⟨trips, htrips⟩ := noteTrips_only (n :: l) s
  obtain ⟨u, hu, huregs, huirqs, hubytes⟩ : ∃ u : State, { s with flt := { s.flt with trips := trips } } = u ∧ u.regs = s.regs ∧
      u.irqs = s.irqs ∧ BytesKept s u := ⟨_, rfl, rfl, rfl, bytesKept_of_eq rfl rfl⟩
  obtain ⟨v, hv, honly, hcount, hsource, hregs⟩ : ∃ v, (u.bumpSat aFLT_AON 15 8 1).srf aFLT_AON 31 28 n = v ∧ RegsOnly u v ∧
      v.rf aFLT_AON 15 8 = min 255 (u.rf aFLT_AON 15 8 + 1) ∧ v.rf aFLT_AON 31 28 = n ∧ RegsBut [aFLT_AON] u v := by
    refine ⟨_, rfl, (regsOnly_setReg ..).trans (regsOnly_setReg ..), ?_, ?_,
      RegsBut.trans (regsBut_srf u (by simp) 15 8 _) (regsBut_srf _ (by simp) 31 28 n)⟩
    · unfold State.bumpSat
      rw [rf_srf_ne _ _ _ (by decide) (by decide) (by decide) (by decide), rf_srf_same _ _ _ (by decide) (by decide)]
      exact Nat.mod_eq_of_lt (lt_of_le_of_lt (min_le_left ..) (by decide))
    · rw [rf_srf_same _ _ _ (by decide) (by decide)]
      exact Nat.mod_eq_of_lt hn
  refine ⟨{ v with flt := { v.flt with offline := some (n, detail) } }, ?_, ?_, hsource, rfl, honly.irqs.trans huirqs,
    RegsBut.trans (t := u) (regsBut_of_regs huregs _) hregs, BytesKept.trans hubytes (bytesKept_of_eq honly.mem honly.flash)⟩
  · unfold offlineAlarm
    rw [hfresh]
    dsimp only
    rw [if_neg (by rw [hres, hrails]; decide), htrips, hu, hv]
  · exact hcount.trans (by rw [rf_congr huregs])

/-! ### Memory errors (R470, R471) -/

/-- The count of an error. -/
theorem errorCounted (s : State) (mem : Nat) : ∃ u, s.bump (aFLT_ECC mem) 31 16 1 = u ∧ RegsOnly s u ∧ RegsBut [aFLT_ECC mem] s u ∧
    u.rf (aFLT_ECC mem) 31 16 = (s.rf (aFLT_ECC mem) 31 16 + 1) % 65536 :=
  ⟨_, rfl, regsOnly_setReg .., regsBut_bump s (by simp) 31 16 1, rf_bump_high s _ 1⟩

theorem exec_doubleBit {s : State} {mem : Nat} (hres : s.resumed = true) (hmem : mem ≤ 5) :
    ¬ (s.resumed = false ∨ 5 < mem) := by
  rw [hres]
  simpa using hmem

theorem accessFault_only (s : State) (m : Master) : ∃ t, s.accessFault m = t ∧ t = { s with irqs := t.irqs } ∧
    (m = .sedge → .sedgeFault ∈ t.irqs) ∧ (m = .peat → .peatFault ∈ t.irqs) := by
  cases m with
  | peat => exact ⟨s.raise .peatFault, rfl, rfl, nofun, fun _ => mem_raise s .peatFault⟩
  | sedge => exact ⟨s.raise .sedgeFault, rfl, rfl, fun _ => mem_raise s .sedgeFault, nofun⟩
  | host | sequencer | mover | causeway => exact ⟨s, rfl, rfl, nofun, nofun⟩

theorem doubleBit_sedgeSram {s : State} (hres : s.resumed = true) (place : Nat) {reader : Master} (hr : reader ≠ .mover) :
    ∃ t, doubleBit 1 place reader s = t ∧ t.rf (aFLT_ECC 1) 31 16 = (s.rf (aFLT_ECC 1) 31 16 + 1) % 65536 ∧
      (reader = .sedge → .sedgeFault ∈ t.irqs) ∧ (reader = .peat → .peatFault ∈ t.irqs) ∧ RegsBut [aFLT_ECC 1] s t ∧
      t.lanes = s.lanes ∧ BytesKept s t := by
  obtain ⟨u, hu, honly, hregs, hcount⟩ := errorCounted s 1
  obtain ⟨t, ht, hframe, hsedge, hpeat⟩ := accessFault_only u reader
  have htregs : t.regs = u.regs := by rw [hframe]
  refine ⟨t, ?_, (rf_congr htregs _ _ _).trans hcount, hsedge, hpeat,
    RegsBut.trans (t := u) hregs (regsBut_of_regs htregs _), ?_, ?_⟩
  · have hrun : doubleBit 1 place reader s = ((s.bump (aFLT_ECC 1) 31 16 1).moverMeets reader (0x20000000 + 4 * place)).accessFault
        reader := if_neg (exec_doubleBit hres (by decide))
    rw [hrun, hu, State.moverMeets, if_neg hr, ht]
  · rw [hframe]; exact honly.lanes
  · rw [hframe]; exact bytesKept_of_eq honly.mem honly.flash

/-- The word of the entry that met the error is zero. -/
theorem doubleBit_credentialTable {s : State} (hres : s.resumed = true) (place : Nat) (reader : Master) :
    ∃ t, doubleBit 2 place reader s = t ∧ t.rf (aFLT_ECC 2) 31 16 = (s.rf (aFLT_ECC 2) 31 16 + 1) % 65536 ∧
      t.memRead (0x30000000 + 16 * (place % 0x4000)) 4 = zeros 4 ∧ RegsBut [aFLT_ECC 2] s t ∧ t.flash = s.flash := by
  obtain ⟨u, hu, honly, hregs, hcount⟩ := errorCounted s 2
  refine ⟨u.setWayWord 0x30000000 (place % 0x4000) 0, ?_, hcount, ?_, hregs, honly.flash⟩
  · have hrun : doubleBit 2 place reader s = (s.bump (aFLT_ECC 2) 31 16 1).setWayWord 0x30000000 (place % 0x4000) 0 :=
      if_neg (exec_doubleBit hres (by decide))
    rw [hrun, hu]
  · exact cellRead_cellWrite memDefault u.mem _ (zeros 4)

theorem vanish_counts (s : State) {n : Nat} (hn : n < 10) : ∃ t, s.vanish n = t ∧ t.lanes = s.lanes ∧
    t.rf (aQUE_DROP n) 31 16 = (s.rf (aQUE_DROP n) 31 16 + 1) % 65536 ∧
    t.rf (aQUE_DROP n) 15 0 = (s.rf (aQUE_DROP n) 15 0 + 1) % 65536 ∧ RegsBut [aQUE_DROP n] s t ∧ BytesKept s t := by
  have hq : qOf n = n := if_neg (by omega)
  obtain ⟨u, hu, honly, hregs, hhigh, hlow⟩ : ∃ u, (s.bump (aQUE_DROP n) 31 16 1).bump (aQUE_DROP n) 15 0 1 = u ∧ RegsOnly s u ∧
      RegsBut [aQUE_DROP n] s u ∧ u.rf (aQUE_DROP n) 31 16 = (s.rf (aQUE_DROP n) 31 16 + 1) % 65536 ∧
      u.rf (aQUE_DROP n) 15 0 = (s.rf (aQUE_DROP n) 15 0 + 1) % 65536 := by
    refine ⟨_, rfl, (regsOnly_setReg ..).trans (regsOnly_setReg ..),
      RegsBut.trans (regsBut_bump s (by simp) 31 16 1) (regsBut_bump _ (by simp) 15 0 1), ?_, ?_⟩
    · rw [← rf_bump_high s]
      exact rf_srf_ne _ _ _ (by decide) (by decide) (by decide) (by decide)
    · rw [rf_bump_low]
      exact congrArg (fun x => (x + 1) % 65536) (rf_srf_ne _ _ _ (by decide) (by decide) (by decide) (by decide))
  have hevt := regsBut_evt u [] (b := 0x10) (by omega) 0x14 1
  have hevtOnly := regsOnly_evt u 0x10 0x14 1
  have hrun : s.vanish n = u.evt 0x10 0x14 1 := by
    unfold State.vanish State.drop
    rw [hq, hu]
  generalize u.evt 0x10 0x14 1 = t at *
  have hdrop : ∀ hi lo, t.rf (aQUE_DROP n) hi lo = u.rf (aQUE_DROP n) hi lo :=
    rf_of_regsBut hevt (by simp) (by unfold Counted aQUE_DROP; omega)
  exact ⟨t, hrun, hevtOnly.lanes.trans honly.lanes, (hdrop ..).trans hhigh, (hdrop ..).trans hlow,
    RegsBut.trans hregs (RegsBut.mono hevt (by simp)),
    BytesKept.trans (bytesKept_of_eq honly.mem honly.flash) (bytesKept_of_eq hevtOnly.mem hevtOnly.flash)⟩

/-- Software meets the error at the first item of the packet at the front: the packet vanishes. -/
theorem itemError_vanishes {s : State} {n : Nat} {p : Packet} {l : List Packet} (hn : n < 10) (hhalf : (s.lane n).half = none)
    (hfront : (s.lane n).committed = p :: l) (hitems : p.items ≠ []) :
    s.itemError n 0 false = (s.setLane n { s.lane n with committed := l }).vanish n := by
  have hat : packetAt (0 - 0) (p :: l) = some (0, 0) := if_pos (List.length_pos_of_ne_nil hitems)
  unfold State.itemError
  dsimp only
  rw [hhalf, hfront]
  dsimp only
  rw [if_neg (by omega), hat]
  dsimp only
  rw [if_neg (by simp)]
  dsimp only [List.getElem?_cons_zero]
  unfold State.loseCommitted
  dsimp only
  rw [hfront, List.erase_cons_head, decide_eq_false (show n ≠ 10 by omega), decide_eq_false (show n ≠ 15 by omega), onlyIf_false,
    onlyIf_false, hhalf]

theorem doubleBit_queue {s : State} {n : Nat} {p : Packet} {l : List Packet} (hres : s.resumed = true) (hn : n < 10)
    (hhalf : (s.lane n).half = none) (hfront : (s.lane n).committed = p :: l) (hitems : p.items ≠ []) :
    ∃ t, doubleBit 4 (n * 65536) .sedge s = t ∧ (t.lane n).committed = l ∧
      t.rf (aQUE_DROP n) 31 16 = (s.rf (aQUE_DROP n) 31 16 + 1) % 65536 ∧
      t.rf (aQUE_DROP n) 15 0 = (s.rf (aQUE_DROP n) 15 0 + 1) % 65536 ∧
      t.rf (aFLT_ECC 4) 31 16 = (s.rf (aFLT_ECC 4) 31 16 + 1) % 65536 ∧ RegsBut [aFLT_ECC 4, aQUE_DROP n] s t ∧ BytesKept s t := by
  obtain ⟨u, hu, honly, hregs, hcount⟩ := errorCounted s 4
  have hlane : u.lane n = s.lane n := by unfold State.lane; rw [honly.lanes]
  obtain ⟨v, hv, hvregs, hvlane, hvbytes⟩ : ∃ v, u.setLane n { u.lane n with committed := l } = v ∧ v.regs = u.regs ∧
      (v.lane n).committed = l ∧ BytesKept u v := ⟨_, rfl, rfl, by rw [lane_setLane_same], bytesKept_of_eq rfl rfl⟩
  obtain ⟨t, ht, htlanes, hhigh, hlow, htregs, htbytes⟩ := vanish_counts v hn
  have hne : aQUE_DROP n ≠ aFLT_ECC 4 := by unfold aQUE_DROP aFLT_ECC; omega
  have hdrop : ∀ hi lo, v.rf (aQUE_DROP n) hi lo = s.rf (aQUE_DROP n) hi lo := fun hi lo => by
    rw [rf_congr hvregs]
    exact rf_of_regsBut hregs (by simpa using hne) (by unfold Counted aQUE_DROP; omega) hi lo
  refine ⟨t, ?_, ?_, hhigh.trans (by rw [hdrop]), hlow.trans (by rw [hdrop]), ?_, ?_,
    BytesKept.trans (BytesKept.trans (t := u) (bytesKept_of_eq honly.mem honly.flash) hvbytes) htbytes⟩
  · have hrun : doubleBit 4 (n * 65536) .sedge s = (s.bump (aFLT_ECC 4) 31 16 1).itemError (n * 65536 / 0x10000)
        (n * 65536 % 0x10000) (queueReader .sedge (n * 65536 / 0x10000)) := if_neg (exec_doubleBit hres (by decide))
    have hreader : queueReader .sedge n = false := rfl
    rw [hrun, hu, Nat.mul_div_cancel _ (by decide), Nat.mul_mod_left, hreader, itemError_vanishes hn (by rw [hlane]; exact hhalf) (by rw [hlane]; exact hfront) hitems, hv, ht]
  · rw [State.lane, htlanes]
    exact hvlane
  · rw [rf_of_regsBut htregs (by simpa using hne.symm) (by unfold Counted aFLT_ECC; omega), rf_congr hvregs]
    exact hcount
  · exact RegsBut.trans (t := v) (RegsBut.trans (t := u) (RegsBut.mono hregs (by simp)) (regsBut_of_regs hvregs _))
      (RegsBut.mono htregs (by simp))

theorem sameAlarm_congr {s t : State} (htrips : t.flt.trips = s.flt.trips) (hnow : t.now = s.now) (n : Nat) :
    t.sameAlarm n = s.sameAlarm n := by
  unfold State.sameAlarm
  rw [htrips, hnow]

/-- An error in a static slot empties it, and is an alarm of source 7. -/
theorem doubleBit_slot {s : State} {k : Nat} (hres : s.resumed = true) (hk : k < 64) (hsame : s.sameAlarm 7 = false)
    (hstorm : s.rf aFLT_CFG 7 0 = 0) (hw : NoWork s) (reader : Master) :
    ∃ u t, RegsOnly s u ∧ RegsBut [aFLT_ECC 5] s u ∧ u.rf (aFLT_ECC 5) 31 16 = (s.rf (aFLT_ECC 5) 31 16 + 1) % 65536 ∧
      doubleBit 5 k reader s = t ∧ t.key k = none ∧ t.rel.wave = false ∧ BytesKept s t ∧
      ∃ v, v.regs = u.regs ∧ v.sysTime = u.sysTime ∧ Alarmed v t 7 5 := by
  obtain ⟨u, hu, honly, hregs, hcount⟩ := errorCounted s 5
  obtain ⟨v, hv, hvregs, hvsys, hvslots, hvbytes, hvwork⟩ : ∃ v, (u.dropKey k).noteTrip 7 = v ∧ v.regs = u.regs ∧ v.sysTime = u.sysTime ∧
      v.slots = tdel u.slots k ∧ BytesKept u v ∧ (NoWork u → NoWork v) :=
    ⟨_, rfl, rfl, rfl, rfl, bytesKept_of_eq rfl rfl, fun h => { h with }⟩
  have hwv : NoWork v := hvwork ((alarmOnly_of_regsOnly honly).noWork hw)
  obtain ⟨t, ht, hal, hwave⟩ := alarm_alarms hwv (n := 7) (by decide) 5
  have hoff : t.rf aFLT_CFG 7 0 = 0 := by
    rw [rf_cfg_alarmed hal, rf_congr hvregs, rf_of_regsBut hregs (by decide) (by unfold Counted aFLT_CFG; omega)]
    exact hstorm
  refine ⟨u, t, honly, hregs, hcount, ?_, ?_, hwave,
    BytesKept.trans (BytesKept.trans (t := u) (bytesKept_of_eq honly.mem honly.flash) hvbytes) hal.only.bytes, v, hvregs, hvsys, hal⟩
  · have hsame' : (u.dropKey k).sameAlarm 7 = false :=
      (sameAlarm_congr (t := u.dropKey k) (congrArg Flt.trips honly.flt) honly.now 7).trans hsame
    have hrun : doubleBit 5 k reader s = ((s.bump (aFLT_ECC 5) 31 16 1).slotError k).memAlarm 5 :=
      if_neg (exec_doubleBit hres (by decide))
    rw [hrun, hu, State.slotError, if_pos hk, State.memAlarm, hsame', if_neg (by decide), hv, ht, storm_off hoff]
  · unfold State.key
    rw [hal.only.slots, hvslots, tfind_tdel_same]

/-- Settles O51: alarms, a storm, trips offline, and memory errors. -/
theorem alarmsAndMemoryErrors : Obligations.AlarmsAndMemoryErrors := by
  unfold Obligations.AlarmsAndMemoryErrors
  refine ⟨fun s sources detail n l hres hfresh hn haes hbn hsusp hhsh hlf hnfc huwb hdist hserving => ?alarm,
    fun s sources detail n l hres hfresh hn hmany haes hbn hsusp hhsh hlf hnfc huwb hdist hserving => ?stormy,
    fun s sources detail n l hres hrails hfresh => ?offline, fun s place reader hres hr => ?sram, fun s place reader hres => ?table,
    fun s n p l hres hn hhalf hfront hitems => ?queue,
    fun s k n detail reader hres hk hsame hn hdetail hcfg haes hbn hsusp hhsh hlf hnfc huwb hdist hserving => ?slot,
    fun s mem hres hmem => ?single⟩
  case alarm =>
    obtain ⟨t, hrun, hal, hwave⟩ := alarmTrips_alarms hres ⟨haes, hbn, hsusp, hhsh, hlf, hnfc, huwb, hdist, hserving⟩ hfresh detail
    refine ⟨t, ?_, hal.status, hal.last0, hal.last1, hal.source, hal.irq, hwave, ?_, hal.regs, hal.only.bytes⟩
    · rw [hrun, storm_off ((rf_cfg_alarmed hal).trans hn)]
    · unfold State.resumed
      rw [hal.only.power]
      exact hres
  case stormy =>
    obtain ⟨u, hrun, hal, -⟩ := alarmTrips_alarms hres ⟨haes, hbn, hsusp, hhsh, hlf, hnfc, huwb, hdist, hserving⟩ hfresh detail
    have hcfg := rf_cfg_alarmed hal
    obtain ⟨t, ht, hmode, hbit, hsource, hcount, henvm, hflash⟩ := storm_restarts (s := u)
      (hal.only.noWork ⟨haes, hbn, hsusp, hhsh, hlf, hnfc, huwb, hdist, hserving⟩).hsh (by rw [hcfg]; exact hn)
      (by rw [hcfg, hal.times]; exact hmany)
    exact ⟨t, hrun.trans (by rw [ht]), hmode, hbit, hsource.trans hal.source, by rw [hcount, hal.storms],
      henvm.trans hal.only.envm, hflash.trans hal.only.flash⟩
  case offline =>
    obtain ⟨t, ht, hrest⟩ := offlineAlarm_counts hres hrails hfresh detail
    exact ⟨t, congrArg done ht, hrest⟩
  case sram =>
    obtain ⟨t, ht, hrest⟩ := doubleBit_sedgeSram hres place hr
    exact ⟨t, congrArg done ht, hrest⟩
  case table =>
    obtain ⟨t, ht, hrest⟩ := doubleBit_credentialTable hres place reader
    exact ⟨t, congrArg done ht, hrest⟩
  case queue =>
    obtain ⟨t, ht, hrest⟩ := doubleBit_queue hres hn hhalf hfront hitems
    exact ⟨t, congrArg done ht, hrest⟩
  case slot =>
    subst hn hdetail
    obtain ⟨u, t, honly, hregs, hcount, ht, hkey, hwave, hbytes, v, hvregs, hvsys, hal⟩ := doubleBit_slot hres hk hsame hcfg
      ⟨haes, hbn, hsusp, hhsh, hlf, hnfc, huwb, hdist, hserving⟩ reader
    refine ⟨t, congrArg done ht, hkey, hal.status, ?_, ?_, hal.source, hal.irq, hwave, ?_, ?_, hbytes⟩
    · rw [hal.last0, rf_congr hvregs, rf_of_regsBut hregs (by decide) (by unfold Counted aFLT_LAST0; omega)]
    · rw [hal.last1]
      unfold State.sysLo
      rw [hvsys, honly.sysTime]
    · rw [rf_of_regsBut hal.regs (by decide) (by unfold Counted aFLT_ECC; omega), rf_congr hvregs]
      exact hcount
    · exact RegsBut.trans (t := v) (RegsBut.trans (t := u) (RegsBut.mono hregs (by simp)) (regsBut_of_regs hvregs _))
        (RegsBut.mono hal.regs (by simp))
  case single =>
    have honly : RegsOnly s (s.bump (aFLT_ECC mem) 15 0 1) := regsOnly_setReg ..
    exact ⟨s.bump (aFLT_ECC mem) 15 0 1, congrArg done (if_pos ⟨hres, hmem⟩), rf_bump_low s _ 1,
      rf_srf_ne _ _ _ (by decide) (by decide) (by decide) (by decide), regsBut_bump s (by simp) 15 0 1, honly.irqs, honly.lanes,
      bytesKept_of_eq honly.mem honly.flash⟩

end Proofs
end Sys2Proof

/-! PROOFS. What the bus does with a granted write, a refused one, a word of Sedge SRAM, and the read of a low half (R9 to R14). -/
namespace Sys2Proof
namespace Proofs

open Sys2Proof.Machine Sys2Proof.Safety Sys2Proof.Laws

theorem registers_region {a : Nat} (hlo : 0x40000000 ≤ a) (hhi : a < 0x41000000) : regionOf a = .registers := by
  unfold regionOf
  rw [if_neg (by omega), if_neg (by omega), if_neg (by omega), if_neg (by omega), if_pos ⟨hlo, hhi⟩]

theorem keptFrom_noApplet {s : State} (h : s.peat.applet = none) (m : Master) (user : Bool) (a : Nat) :
    s.keptFrom m user a = false := by
  unfold State.keptFrom
  rw [h]

/-- A write of a master that may make it goes to the bus. -/
theorem registerWrite_bus {s : State} {m : Master} (hup : s.up m = true) (hpeat : s.peat.applet = none) (pr : Privilege) (a : Nat)
    (v : Word) : exec (.registerWrite m pr a v) s = .next (busWrite m (rightsOf m) (decide (pr = .user)) a v s) := by
  refine congrArg done ?_
  unfold registerWrite
  rw [if_pos hup, keptFrom_noApplet hpeat]
  exact if_neg (by decide)

theorem busWrite_register {a : Nat} (hlo : 0x40000000 ≤ a) (hhi : a < 0x41000000) (m r : Master) (user : Bool) (v : Word) (s : State) :
    busWrite m r user a v s = s.writeAs m r user a (regWrite a v) := by
  unfold busWrite
  rw [registers_region hlo hhi]

/-! ### A granted write -/

theorem plainWrite_stores {a : Nat} (hb : (a - 0x40000000) / 0x10000 ∈ [1, 4, 9, 13, 14, 15, 23]) (v : Word) (s : State) :
    plainWrite a v s = storeReg a v s := by
  unfold plainWrite
  generalize (a - 0x40000000) / 0x10000 = b at hb
  simp only [List.mem_cons, List.not_mem_nil, or_false] at hb
  rcases hb with rfl | rfl | rfl | rfl | rfl | rfl | rfl <;> rfl

/-- What the write of a register in use makes unpredictable is no register and no byte. -/
theorem spoil_plain {a : Nat} (hb : (a - 0x40000000) / 0x10000 ∈ [1, 4, 9, 13, 14, 15, 23]) (old : State) (v : Word) (s : State) :
    (spoil old a v s).regs = s.regs ∧ BytesKept s (spoil old a v s) := by
  unfold spoil
  generalize (a - 0x40000000) / 0x10000 = b at hb
  simp only [List.mem_cons, List.not_mem_nil, or_false] at hb
  rcases hb with rfl | rfl | rfl | rfl | rfl | rfl | rfl
  · exact ⟨rfl, bytesKept_of_eq rfl rfl⟩
  · cases decide (a = aNFC_TXCFG ∨ a = aNFC_LPCD) <;> exact ⟨rfl, bytesKept_of_eq rfl rfl⟩
  · exact ⟨rfl, bytesKept_of_eq rfl rfl⟩
  · cases decide (a = aAES_RECSEL) <;> exact ⟨rfl, bytesKept_of_eq rfl rfl⟩
  · exact ⟨rfl, bytesKept_of_eq rfl rfl⟩
  · exact ⟨rfl, bytesKept_of_eq rfl rfl⟩
  · exact ⟨rfl, bytesKept_of_eq rfl rfl⟩

theorem regWrite_stores {a i : Nat} {r : RegRow} (hrow : regRow a = some (r, i))
    (hb : (a - 0x40000000) / 0x10000 ∈ [1, 4, 9, 13, 14, 15, 23]) (v : Word) (s : State) :
    ∃ t, regWrite a v s = t ∧ t.reg a = maskWrite r (s.reg a) v ∧ RegsBut [a] s t ∧ BytesKept s t := by
  have hstore : storeReg a v s = s.setReg a (maskWrite r (s.reg a) v) := by
    unfold storeReg
    rw [hrow]
  obtain ⟨hregs, hbytes⟩ := spoil_plain hb s v (s.setReg a (maskWrite r (s.reg a) v))
  have hrun : regWrite a v s = spoil s a v (s.setReg a (maskWrite r (s.reg a) v)) := by
    unfold regWrite
    rw [plainWrite_stores hb, hstore]
  have honly : RegsOnly s (s.setReg a (maskWrite r (s.reg a) v)) := regsOnly_setReg ..
  refine ⟨_, hrun, ?_, ?_, BytesKept.trans (bytesKept_of_eq honly.mem honly.flash) hbytes⟩
  · rw [reg_congr hregs, reg_setReg_same]
  · exact RegsBut.trans (regsBut_setReg s (by simp) _) (regsBut_of_regs hregs _)

/-! ### A refused write -/

/-- The registers that show a refused access of a master. -/
def refusedRegs (m : Master) : List Nat :=
  [aFLT_REFUSED, aFLT_REFADDR] ++ if m = .host then [aHIF_ERR, aHIF_ATTN, aHIF_REFUSED] else []

/-- The record of a refused access in FLT_ (R469). -/
def faultRecord (s : State) (m : Master) (write : Bool) (a : Nat) : State :=
  (((s.bump aFLT_REFUSED 31 16 1).srf aFLT_REFUSED 2 0 (portNo m)).srb aFLT_REFUSED 15 write).setReg aFLT_REFADDR (w32 a)

theorem faultRecord_shows (s : State) (m : Master) (a : Nat) : ∃ t, faultRecord s m true a = t ∧ t.rf aFLT_REFUSED 2 0 = portNo m % 8 ∧
    t.rb aFLT_REFUSED 15 = true ∧ t.rf aFLT_REFUSED 31 16 = (s.rf aFLT_REFUSED 31 16 + 1) % 65536 ∧ t.reg aFLT_REFADDR = w32 a ∧
    RegsBut [aFLT_REFUSED, aFLT_REFADDR] s t := by
  refine ⟨_, rfl, ?_, ?_, ?_, reg_setReg_same .., ?_⟩
  · rw [faultRecord, rf_setReg, if_neg (by decide), rf_srb_ne _ _ (by decide) (by decide) (by decide),
      rf_srf_same _ _ _ (by decide) (by decide)]
    rfl
  · rw [faultRecord, rb_setReg, if_neg (by decide), rb_srb_same _ _ (by decide)]
  · rw [faultRecord, rf_setReg, if_neg (by decide), rf_srb_ne _ _ (by decide) (by decide) (by decide),
      rf_srf_ne _ _ _ (by decide) (by decide) (by decide) (by decide), rf_bump_high]
  · exact RegsBut.trans (RegsBut.trans (RegsBut.trans (regsBut_bump s (by simp) 31 16 1) (regsBut_srf _ (by simp) 2 0 _))
      (regsBut_srb _ (by simp) 15 true)) (regsBut_setReg _ (by simp) _)

/-- What the host sees of its refused word (R434). -/
def hostRecord (s : State) (w : Word) : State := ((s.bump aHIF_ERR 31 24 1).srb aHIF_ATTN 2 true).setReg aHIF_REFUSED w

theorem hostRecord_shows (s : State) (w : Word) : ∃ t, hostRecord s w = t ∧ t.rf aHIF_ERR 31 24 = (s.rf aHIF_ERR 31 24 + 1) % 256 ∧
    t.reg aHIF_REFUSED = w ∧ RegsBut [aHIF_ERR, aHIF_ATTN, aHIF_REFUSED] s t := by
  refine ⟨_, rfl, ?_, reg_setReg_same .., ?_⟩
  · rw [hostRecord, rf_setReg, if_neg (by decide), State.rf, reg_srb, if_neg (by decide)]
    exact rf_srf_same s aHIF_ERR _ (by decide) (by decide)
  · exact RegsBut.trans (RegsBut.trans (regsBut_bump s (by simp) 31 24 1) (regsBut_srb _ (by simp) 2 true)) (regsBut_setReg _ (by simp) _)

/-- The word of HIF_REFUSED. -/
def refusedWord (write : Bool) (a : Nat) : Word :=
  setFld (setFld (w32 (a % 0x1000000)) 24 24 (b2n (decide (a / 0x1000000 = 0x60)))) 25 25 (b2n write)

theorem fld_refusedWord (write : Bool) (a : Nat) : fld (refusedWord write a) 23 0 = a % 2 ^ 24 := by
  unfold refusedWord
  rw [fld_setFld_below _ (by decide) (by decide) (by decide) (by decide), fld_setFld_below _ (by decide) (by decide) (by decide) (by decide)]
  unfold fld w32
  rw [BitVec.toNat_ofNat]
  omega

theorem refuse_eq (s : State) (m : Master) (write : Bool) (a : Nat) : s.refuse m write a =
    if m = .host then hostRecord (faultRecord s m write a) (refusedWord write a) else faultRecord s m write a := rfl

theorem refuse_shows (s : State) (m : Master) (a : Nat) : ∃ t, s.refuse m true a = t ∧ t.rf aFLT_REFUSED 2 0 = portNo m % 8 ∧
    t.rb aFLT_REFUSED 15 = true ∧ t.rf aFLT_REFUSED 31 16 = (s.rf aFLT_REFUSED 31 16 + 1) % 65536 ∧ t.reg aFLT_REFADDR = w32 a ∧
    (m ≠ .host ∨ t.rf aHIF_ERR 31 24 = (s.rf aHIF_ERR 31 24 + 1) % 256) ∧ (m ≠ .host ∨ t.rf aHIF_REFUSED 23 0 = a % 2 ^ 24) ∧
    RegsBut (refusedRegs m) s t := by
  obtain ⟨u, hu, hport, hwrite, hcount, haddr, hregs⟩ := faultRecord_shows s m a
  rw [refuse_eq, hu]
  by_cases hm : m = .host
  · obtain ⟨t, ht, herr, hword, htregs⟩ := hostRecord_shows u (refusedWord true a)
    have hkeep : ∀ b, b ∈ [aFLT_REFUSED, aFLT_REFADDR] → t.reg b = u.reg b := fun b hb =>
      htregs b (by simp only [List.mem_cons, List.not_mem_nil, or_false] at hb; rcases hb with rfl | rfl <;> decide)
        (by simp only [List.mem_cons, List.not_mem_nil, or_false] at hb; unfold Counted; rcases hb with rfl | rfl <;> decide)
    have hhif : u.rf aHIF_ERR 31 24 = s.rf aHIF_ERR 31 24 :=
      rf_of_regsBut hregs (by decide) (by unfold Counted aHIF_ERR; omega) 31 24
    refine ⟨t, (if_pos hm).trans ht, ?_, ?_, ?_, ?_, .inr (herr.trans (by rw [hhif])), .inr ?_, ?_⟩
    · rw [State.rf, hkeep _ (by simp)]; exact hport
    · rw [State.rb, hkeep _ (by simp)]; exact hwrite
    · rw [State.rf, hkeep _ (by simp)]; exact hcount
    · rw [hkeep _ (by simp)]; exact haddr
    · rw [State.rf, hword]; exact fld_refusedWord true a
    · unfold refusedRegs
      rw [if_pos hm]
      exact RegsBut.trans (RegsBut.mono hregs (by simp)) (RegsBut.mono htregs (by simp))
  · refine ⟨u, if_neg hm, hport, hwrite, hcount, haddr, .inl hm, .inl hm, RegsBut.mono hregs (fun b hb => ?_)⟩
    exact List.mem_append_left _ hb

theorem refuseReg_shows (s : State) (m : Master) (a : Nat) : ∃ t, s.refuseReg m true a = t ∧ t.rf aFLT_REFUSED 2 0 = portNo m % 8 ∧
    t.rb aFLT_REFUSED 15 = true ∧ t.rf aFLT_REFUSED 31 16 = (s.rf aFLT_REFUSED 31 16 + 1) % 65536 ∧ t.reg aFLT_REFADDR = w32 a ∧
    (m ≠ .host ∨ t.rf aHIF_ERR 31 24 = (s.rf aHIF_ERR 31 24 + 1) % 256) ∧ (m ≠ .host ∨ t.rf aHIF_REFUSED 23 0 = a % 2 ^ 24) ∧
    RegsBut (refusedRegs m) s t ∧ BytesKept s t := by
  obtain ⟨u, hu, hport, hwrite, hcount, haddr, herr, hword, hregs⟩ := refuse_shows s m a
  have honly : RegsOnly s (s.refuseReg m true a) := regsOnly_refuseReg s m true a
  have hevt : RegsBut [] u (s.refuseReg m true a) := by
    unfold State.refuseReg
    rw [hu]
    by_cases ha : 0x40000000 ≤ a ∧ a < 0x40190000
    · rw [decide_eq_true ha]
      exact regsBut_evt u [] (by omega) 5 1
    · rw [decide_eq_false ha]
      exact fun _ _ _ => rfl
  generalize s.refuseReg m true a = t at *
  have hkeep : ∀ b, ¬ Counted b → t.reg b = u.reg b := fun b hb => hevt b (by simp) hb
  refine ⟨t, rfl, ?_, ?_, ?_, ?_, herr.imp id fun h => ?_, hword.imp id fun h => ?_, RegsBut.trans (t := u) hregs (RegsBut.mono hevt (by simp)),
    bytesKept_of_eq honly.mem honly.flash⟩
  · rw [State.rf, hkeep _ (by unfold Counted aFLT_REFUSED; omega)]; exact hport
  · rw [State.rb, hkeep _ (by unfold Counted aFLT_REFUSED; omega)]; exact hwrite
  · rw [State.rf, hkeep _ (by unfold Counted aFLT_REFUSED; omega)]; exact hcount
  · rw [hkeep _ (by unfold Counted aFLT_REFADDR; omega)]; exact haddr
  · rw [State.rf, hkeep _ (by unfold Counted aHIF_ERR; omega)]; exact h
  · rw [State.rf, hkeep _ (by unfold Counted aHIF_REFUSED; omega)]; exact h

/-! ### A word of Sedge SRAM -/

theorem sedgeSram_region {a : Nat} (hlo : 0x20000000 ≤ a) (hhi : a + 4 ≤ 0x20080000) : regionOf a = .sedgeSram := by
  unfold regionOf
  rw [if_neg (by omega), if_neg (by omega), if_pos (by omega)]

/-- Sedge writes a word of its SRAM outside the fences (R75). -/
theorem busWrite_sedgeSram {s : State} {a : Nat} (hlo : 0x20000000 ≤ a) (hhi : a + 4 ≤ 0x20080000) (hf : s.fenced a = false)
    (user : Bool) (v : Word) : ∃ u, CountsOnly s u ∧ busWrite .sedge .sedge user a v s = u.memWrite a (toLE 4 v.toNat) := by
  have hreach : s.mayReach .sedge .sedge true a = true := by
    unfold State.mayReach
    rw [sedgeSram_region hlo hhi, hf]
    rfl
  refine ⟨_, access_countsOnly s .sedge .sedge user a 2, ?_⟩
  unfold busWrite
  rw [sedgeSram_region hlo hhi]
  dsimp only
  rw [if_pos hreach]
  unfold State.omTouch
  exact if_neg (by omega)

theorem cellGet_memWrite_other {u : State} {a x : Nat} (v : Nat) (hx : x < a ∨ a + 4 ≤ x) :
    cellGet (u.memWrite a (toLE 4 v)).mem x memDefault = cellGet u.mem x memDefault := by
  refine (cellGet_cellWrite memDefault (toLE 4 v) u.mem a x).trans (if_neg ?_)
  rw [length_toLE]
  omega

/-! ### A read of a low half -/

theorem isLow_cases {a : Nat} (h : isLow a = true) :
    a = aTMR_SYSTIME_LO ∨ a = aUWB_TSNOW_LO ∨ a = aDIST_ALIGN_LO ∨ a = aREL_CNT_LO ∨ ∃ n, n < 16 ∧ a = 0x40111020 + 64 * n := by
  unfold isLow at h
  rw [Bool.or_eq_true, decide_eq_true_eq] at h
  rcases h with (h | h | h | h) | h
  · exact .inl h
  · exact .inr (.inl h)
  · exact .inr (.inr (.inl h))
  · exact .inr (.inr (.inr (.inl h)))
  · unfold capOf at h
    split at h
    next hc =>
      unfold aTMR_CTL at hc
      exact .inr (.inr (.inr (.inr ⟨(a - 0x40111000) / 64, by omega, by omega⟩)))
    next => exact absurd h (by decide)

theorem isLow_range {a : Nat} (h : isLow a = true) : 0x40000000 ≤ a ∧ a < 0x41000000 := by
  rcases isLow_cases h with rfl | rfl | rfl | rfl | ⟨n, hn, rfl⟩
  · decide
  · decide
  · decide
  · decide
  · omega

theorem isLow_plain {a : Nat} (h : isLow a = true) : a ≠ aTRNG_OUT ∧ a ≠ aTRNG_RAW ∧ ¬ (a = aAES_RECTX ∨ a = aAES_RECRX) ∧
    isHigh a = false := by
  rcases isLow_cases h with rfl | rfl | rfl | rfl | ⟨n, hn, rfl⟩
  · decide
  · decide
  · decide
  · decide
  · have hcap : capOf (0x40111020 + 64 * n) 0x24 = none := if_neg (by unfold aTMR_CTL; omega)
    unfold isHigh
    rw [hcap]
    unfold aTRNG_OUT aTRNG_RAW aAES_RECTX aAES_RECRX aTMR_SYSTIME_HI aUWB_TSNOW_HI aDIST_ALIGN_HI aREL_CNT_HI
    refine ⟨by omega, by omega, by omega, ?_⟩
    rw [decide_eq_false (by omega)]
    rfl

theorem regRead_low {s : State} {a : Nat} (h : isLow a = true) {hi : Nat × Word} (hp : s.partner a = some hi) (m : Master) :
    regRead m a s = lowRead m a hi s := by
  obtain ⟨hout, hraw, hrec, hhigh⟩ := isLow_plain h
  unfold regRead
  rw [if_neg hout, if_neg hraw, if_neg hrec, hhigh, if_neg (by decide), hp]

theorem lowRead_latches (s : State) (m : Master) (a : Nat) (hi : Nat × Word) : ∃ t, lowRead m a hi s = t ∧
    tfind t.readOut (portNo m) = some (readView s a) ∧ t.latched m hi.1 = hi.2 ∧ t.regs = s.regs ∧ BytesKept s t := by
  obtain ⟨u, hu, hout, hlatch, hregs, hbytes⟩ : ∃ u, (s.setLatch m hi.1 hi.2).answer m (readView s a) = u ∧
      tfind u.readOut (portNo m) = some (readView s a) ∧ u.latched m hi.1 = hi.2 ∧ u.regs = s.regs ∧ BytesKept s u :=
    ⟨_, rfl, tfind_tput_same .., tget_tset_same .., rfl, bytesKept_of_eq rfl rfl⟩
  unfold lowRead
  rw [hu]
  cases capOf a 0x20 with
  | none => exact ⟨u, rfl, hout, hlatch, hregs, hbytes⟩
  | some n => exact ⟨_, rfl, hout, hlatch, hregs, BytesKept.trans hbytes (bytesKept_of_eq rfl rfl)⟩

/-- The counts of the monitors are no part of what a low half reads as. -/
theorem readView_counts {s u : State} (hu : CountsOnly s u) {a : Nat} (h : isLow a = true) : readView u a = readView s a := by
  have hblock : (a - 0x40000000) / 0x10000 ∈ [6, 7, 10, 17] := by
    rcases isLow_cases h with rfl | rfl | rfl | rfl | ⟨n, hn, rfl⟩
    · decide
    · decide
    · decide
    · decide
    · rw [show (0x40111020 + 64 * n - 0x40000000) / 0x10000 = 17 by omega]
      decide
  unfold readView
  generalize (a - 0x40000000) / 0x10000 = b at hblock
  simp only [List.mem_cons, List.not_mem_nil, or_false] at hblock
  rcases hblock with rfl | rfl | rfl | rfl
  · exact hu.view (viewUWB · a) fun _ _ => rfl
  · exact hu.view (viewDIST · a) fun _ _ => rfl
  · exact hu.view (viewREL · a) fun _ _ => rfl
  · exact hu.view (viewTMR · a) fun _ _ => rfl

/-- Settles O5: granted and refused writes, a word of Sedge SRAM, and the read of a low half. -/
theorem busAccesses : Obligations.BusAccesses := by
  unfold Obligations.BusAccesses
  refine ⟨fun s m v a i r pr hup hpeat hlo hhi hg hrow hb => ?granted, fun s m v a pr hup hpeat hlo hhi hg => ?refused,
    fun s v a pr hup hpeat hlo hhi hf => ?sram, fun s m a hi hup hlow hg hp => ?low⟩
  case granted =>
    have hu : CountsOnly s (s.access m (rightsOf m) (decide (pr = .user)) a 2) := access_countsOnly ..
    have hrun : exec (.registerWrite m pr a v) s =
        .next (regWrite a v (s.access m (rightsOf m) (decide (pr = .user)) a 2)) := by
      rw [registerWrite_bus hup hpeat, busWrite_register hlo hhi, State.writeAs, hg]
    generalize s.access m (rightsOf m) (decide (pr = .user)) a 2 = u at *
    obtain ⟨t, ht, hreg, hregs, hbytes⟩ := regWrite_stores hrow hb v u
    refine ⟨t, hrun.trans (by rw [ht]), ?_, RegsBut.trans (hu.regsBut _) hregs, BytesKept.trans hu.bytes hbytes⟩
    rw [hreg, hu.view (fun s => s.reg a) fun _ _ => rfl]
    rfl
  case refused =>
    obtain ⟨t, ht, hrest⟩ := refuseReg_shows s m a
    refine ⟨t, ?_, hrest⟩
    rw [registerWrite_bus hup hpeat, busWrite_register hlo hhi, State.writeAs, hg, ← ht]
  case sram =>
    obtain ⟨u, hu, hrun⟩ := busWrite_sedgeSram hlo hhi hf (decide (pr = .user)) v
    refine ⟨u.memWrite a (toLE 4 v.toNat), ?_, ?_, fun x hx => ?_, hu.view (·.flash) fun _ _ => rfl, hu.view (·.regs) fun _ _ => rfl⟩
    · rw [registerWrite_bus hup hpeat]
      exact congrArg done hrun
    · have h := cellRead_cellWrite memDefault u.mem a (toLE 4 v.toNat)
      rw [length_toLE] at h
      exact h
    · rw [cellGet_memWrite_other _ hx, hu.view (·.mem) fun _ _ => rfl]
  case low =>
    obtain ⟨hlo, hhi⟩ := isLow_range hlow
    have hu : CountsOnly s (s.access m (rightsOf m) false a 1) := access_countsOnly ..
    have hrun : exec (.rlLowRead m a) s = .next (regRead m a (s.access m (rightsOf m) false a 1)) := by
      refine congrArg done ?_
      unfold rlLowRead busRead
      rw [if_pos ⟨hup, hlow⟩, registers_region hlo hhi]
      dsimp only
      rw [hg]
    generalize s.access m (rightsOf m) false a 1 = u at *
    have hpu : u.partner a = some hi := (hu.view (fun s => s.partner a) fun _ _ => rfl).trans hp
    obtain ⟨t, ht, hout, hlatch, hregs, hbytes⟩ := lowRead_latches u m a hi
    refine ⟨t, ?_, ?_, hlatch, hregs.trans (hu.view (·.regs) fun _ _ => rfl), BytesKept.trans hu.bytes hbytes⟩
    · rw [hrun, regRead_low hlow hpu, ht]
    · rw [hout, readView_counts hu hlow]

end Proofs
end Sys2Proof

/-! PROOFS. ABORT rewinds the output packet of the job that it ends (R346, R397): a state that refutes O10. The statement leaves
DROPS of the completion queue open, and that of the job's output queue counts as well. -/
namespace Sys2Proof
namespace Proofs

open Sys2Proof.Machine Sys2Proof.Safety Sys2Proof.Laws

/-- A job of channel 5 whose output goes to Q5. -/
def abortedToQ5 : Run := { runNil with chan := 5, dest := .queue 5, out := [1, 2, 3, 4], resv := 1 }

/-- A resumed unit on which channel 5 is RUNNING, with Q1 for its completions, and the symmetric engine runs its job. -/
def abortsBesideQ5 : State :=
  let s := { State.reset with power := { Power.reset with mode := .resumed, sedgeRuns := true } }
  { (s.srf (aCHN_STATUS 5) 1 0 1).srf (aCHN_QUEUES 5) 11 8 1 with eng := { State.reset.eng with aes := some abortedToQ5 } }

theorem grants_abortsBesideQ5 : Grants abortsBesideQ5 .sedge (aCHN_CTL 5) := by decide +kernel

theorem runs_abortsBesideQ5 : abortsBesideQ5.chState 5 = 1 ∧ abortsBesideQ5.feClass 5 ≠ 5 ∧
    ((abortsBesideQ5.lane 10).committed.all fun p => decide (p.src ≠ 5)) = true ∧
    abortsBesideQ5.rf (aCHN_QUEUES 5) 11 8 = 1 := by decide +kernel

/-- The state that ABORT leaves. -/
def abortedQ5 : State := abortsBesideQ5.owned .sedge (aCHN_CTL 5) (channelAbort 5)

theorem exec_abortsBesideQ5 : exec (.channelAbort .sedge 5) abortsBesideQ5 = .next abortedQ5 :=
  congrArg done (if_pos (by decide))

theorem drops_abortsBesideQ5 : abortsBesideQ5.reg (aQUE_DROP 5) = 0 ∧ abortedQ5.reg (aQUE_DROP 5) = 1 := by decide +kernel

/-- Refutes O10: the job's output is rewound, and DROPS of its queue counts it. -/
theorem not_channelLife : ¬ Obligations.ChannelLife := by
  unfold Obligations.ChannelLife
  rintro ⟨-, -, h, -⟩
  obtain ⟨hstate, hfe, hjobs, hqueue⟩ := runs_abortsBesideQ5
  obtain ⟨t, ht, -, -, -, -, -, -, hregs, -⟩ :=
    h abortsBesideQ5 .sedge 5 abortedToQ5 (by decide) grants_abortsBesideQ5 hstate hfe rfl rfl rfl rfl rfl hjobs
  rw [exec_abortsBesideQ5] at ht
  rw [← Host.Outcome.next.inj ht, hqueue] at hregs
  have hsame := hregs (aQUE_DROP 5) (by decide) (by unfold Counted aQUE_DROP; decide)
  obtain ⟨hbefore, hafter⟩ := drops_abortsBesideQ5
  rw [hafter, hbefore] at hsame
  exact absurd hsame (by decide)

end Proofs
end Sys2Proof

/-! PROOFS. How Peat takes a request from its mailbox and answers it (R76 to R78). -/
namespace Sys2Proof
namespace Proofs

open Sys2Proof.Machine Sys2Proof.Safety Sys2Proof.Laws

/-! ### The fences of buffers (R78) -/

/-- Only the registers and Peat's fences differ. -/
def FencesOnly (s t : State) : Prop :=
  t = { s with regs := t.regs, peat := { s.peat with fences := t.peat.fences } } ∧ RegsBut fenceRegs s t

theorem FencesOnly.refl (s : State) : FencesOnly s s := ⟨rfl, fun _ _ _ => rfl⟩

theorem mem_fenceRegs {k : Nat} (hk : k < 4) : aSYS_FENCE k ∈ fenceRegs := List.mem_map_of_mem (f := aSYS_FENCE) (List.mem_range.mpr hk)

/-- A fence is put up. -/
def fenceUp (s : State) (k : Nat) (v : Word) : State :=
  let s := s.setReg (aSYS_FENCE k) v
  { s with peat := { s.peat with fences := putBit s.peat.fences k true } }

theorem fenceUp_fences (s : State) {k : Nat} (hk : k < 4) (v : Word) : FencesOnly s (fenceUp s k v) := by
  have honly := regsOnly_setReg s (aSYS_FENCE k) v
  have hregs : RegsBut fenceRegs s (s.setReg (aSYS_FENCE k) v) := regsBut_setReg s (mem_fenceRegs hk) v
  unfold RegsOnly at honly
  unfold fenceUp
  generalize s.setReg (aSYS_FENCE k) v = u at *
  exact ⟨by rw [honly], hregs⟩

theorem holdBuffer_fences (s : State) (a n : Word) : FencesOnly s (s.holdBuffer a n) := by
  by_cases hout : n = 0 ∨ a.toNat < 0x20000000 ∨ 0x20080000 < a.toNat + n.toNat
  · unfold State.holdBuffer
    rw [if_pos hout]
    exact .refl s
  · cases hk : (List.range 4).find? fun k => decide (s.rf (aSYS_FENCE k) 27 16 = 0) with
    | none =>
      have hrun : s.holdBuffer a n = s := by
        unfold State.holdBuffer
        rw [if_neg hout, hk]
      rw [hrun]
      exact .refl s
    | some k =>
      have hrun : ∃ v, s.holdBuffer a n = fenceUp s k v := by
        unfold State.holdBuffer
        rw [if_neg hout, hk]
        exact ⟨_, rfl⟩
      obtain ⟨v, hv⟩ := hrun
      rw [hv]
      exact fenceUp_fences s (List.mem_range.mp (List.mem_of_find?_eq_some hk)) v

theorem holdArgs_fences (s : State) (o : Nat) (args : List Word) : FencesOnly s (s.holdArgs o args) := by
  unfold State.holdArgs
  split
  case h_9 => exact .refl s
  all_goals exact holdBuffer_fences ..

theorem liftFences_only (s : State) : RegsOnly s (s.each (bitsOf 4 s.peat.fences) fun s n => s.setReg (aSYS_FENCE n) 0) ∧
    RegsBut fenceRegs s (s.each (bitsOf 4 s.peat.fences) fun s n => s.setReg (aSYS_FENCE n) 0) := by
  refine ⟨regsOnly_each (fun s n => regsOnly_setReg ..) _ s, regsBut_each (fun s n hn => regsBut_setReg s (mem_fenceRegs ?_) 0) s⟩
  exact List.mem_range.mp (List.mem_of_mem_filter hn)

/-! ### A request is taken -/

/-- What Peat serves, once it has taken the request p. -/
def mailServing (p : Packet) : Serving :=
  ⟨fld (jobWord p 0) 31 24, BitVec.ofNat 16 (fld (jobWord p 0) 15 0), (packetWords p).drop 1, .now, false⟩

/-- The request p has been taken from the mailbox, and Peat serves it: of the registers only the fences differ. -/
structure Served (s u : State) (p : Packet) : Prop where
  only : u = { s with regs := u.regs, lanes := u.lanes, peat := { s.peat with serving := some (mailServing p), fences := u.peat.fences } }
  regs : RegsBut fenceRegs s u
  lanes : ∀ n, n ≠ 15 → u.lane n = s.lane n

theorem takeHead_only (s : State) (n : Nat) : s.takeHead n = { s with regs := (s.takeHead n).regs, lanes := (s.takeHead n).lanes } := by
  unfold State.takeHead
  dsimp only
  cases takePacket (s.mailLane n) (s.lane n).committed with
  | none => rfl
  | some x =>
    have honly := regsOnly_evt (s.setLane n { s.lane n with committed := x.2 }) 0x10 0x13 x.1.items.length
    unfold RegsOnly at honly
    dsimp only
    generalize State.evt _ 0x10 0x13 x.1.items.length = t at *
    rw [honly]
    rfl

theorem served_takes {s : State} {p : Packet} (hhead : s.headPacket 15 = some p) (o : Nat) (args : List Word) :
    ∃ u, Served s u p ∧ u = { (s.takeHead 15).holdArgs o args with
      peat := { ((s.takeHead 15).holdArgs o args).peat with serving := some (mailServing p) } } := by
  have htook := takeHead_took hhead
  obtain ⟨honly, hregs⟩ := holdArgs_fences (s.takeHead 15) o args
  have htonly := takeHead_only s 15
  have htregs : RegsBut [] s (s.takeHead 15) := htook.regs
  have htlanes : ∀ n, n ≠ 15 → (s.takeHead 15).lane n = s.lane n := fun n hn => htook.lane_ne hn
  generalize s.takeHead 15 = t at *
  generalize t.holdArgs o args = v at *
  refine ⟨{ v with peat := { v.peat with serving := some (mailServing p) } },
    ⟨?_, RegsBut.trans (t := t) (RegsBut.mono htregs (by simp)) hregs, fun n hn => ?_⟩, rfl⟩
  · rw [honly, htonly]
  · rw [honly]
    exact htlanes n hn

/-- An operation runs on the request that Peat takes. -/
theorem mailOp_serves {s : State} {op : Nat} {p : Packet} (h : MailTakes s op p) (hknown : mailKnown op = true)
    (hdec : op ≠ 0x20 ∧ op ≠ 0x21) {mine : List Word → Bool} (hmine : mine ((packetWords p).drop 1) = true)
    (f : Serving → State → State) :
    ∃ u, Served s u p ∧ mailOp op mine f s = (f (mailServing p) u).pruneGens p ∧
      u = { (s.takeHead 15).holdArgs op ((packetWords p).drop 1) with
        peat := { ((s.takeHead 15).holdArgs op ((packetWords p).drop 1)).peat with serving := some (mailServing p) } } := by
  obtain ⟨hhead, hwhole, hfree, hop, hzero, hstate, hargs, hroom, -⟩ := h
  obtain ⟨u, hu, hueq⟩ := served_takes hhead op ((packetWords p).drop 1)
  refine ⟨u, hu, ?_, hueq⟩
  unfold mailOp
  rw [hhead]
  dsimp only
  rw [hop, hwhole, hfree, if_neg (by simpa using hroom), if_neg (by decide),
    if_neg (by rw [hknown, hstate]; simp only [Bool.true_eq_false, false_or, not_or, not_not, not_lt]; exact ⟨hzero, hargs⟩),
    if_neg (by rw [hmine, decide_eq_false (fun h => h.elim hdec.1 hdec.2)]; simp), hueq]
  unfold mailServing
  rw [hop]

section
variable {s u : State} {p : Packet} (h : Served s u p)
include h

theorem Served.serving : u.peat.serving = some (mailServing p) := by rw [h.only]

theorem Served.view {β : Sort*} (f : State → β) (hf : ∀ (s : State) r l q, f { s with regs := r, lanes := l, peat := q } = f s) :
    f u = f s := by
  rw [h.only]
  exact hf ..

theorem Served.bytes : BytesKept s u := bytesKept_of_eq (h.view (·.mem) fun _ _ _ _ => rfl) (h.view (·.flash) fun _ _ _ _ => rfl)

theorem Served.reg {a : Nat} (ha : a ∉ fenceRegs) (hc : ¬ Counted a) : u.reg a = s.reg a := h.regs a ha hc

end

theorem not_fence {a : Nat} (h : a < 0x40000110 ∨ 0x40000120 ≤ a) : a ∉ fenceRegs := by
  intro hm
  obtain ⟨k, hk, rfl⟩ := List.mem_map.mp hm
  have hk4 := List.mem_range.mp hk
  unfold aSYS_FENCE at h
  omega

/-! ### A request is answered -/

/-- Room and open packets of a lane other than Q12's are of that lane and its QUE_CFG. -/
theorem room_otherLane {s t : State} {n : Nat} (hn : n ≠ 12) (hlane : ∃ q, t.lane n = { s.lane n with seq := q })
    (hcfg : t.reg (aQUE_CFG (qOf n)) = s.reg (aQUE_CFG (qOf n))) : t.room n = s.room n := by
  obtain ⟨q, hq⟩ := hlane
  unfold State.room State.capacity State.reservedItems
  rw [hq, hcfg, if_neg hn, if_neg hn]
  rfl

theorem openCount_congr {s t : State} {n : Nat} (hn : n ≠ 12) (hlane : ∃ q, t.lane n = { s.lane n with seq := q }) :
    t.openCount n = s.openCount n := by
  obtain ⟨q, hq⟩ := hlane
  have hopens : ∀ x : State, x.openCount n = (x.lane n).opens.length := fun x => by
    unfold State.openCount
    cases x.eng.aes with
    | none => rfl
    | some r => exact congrArg ((x.lane n).opens.length + ·) (congrArg b2n (decide_eq_false fun h => hn h.1))
  rw [hopens, hopens, hq]

/-- What an answer to the request v leaves. -/
structure Replied (u t : State) (v : Serving) (status : Byte) (body : Bytes) : Prop where
  only : t = { u with regs := t.regs, lanes := t.lanes, commits := t.commits, peat := { u.peat with serving := none, fences := 0 } }
  regs : RegsBut fenceRegs u t
  newest : ((t.lane 31).committed.getLast?).map packetWords = some (packetWords (replyPacket v.op v.reqId status body))
  lane_ne : ∀ n, n ≠ 31 → t.lane n = u.lane n

/-- The reply lane takes a reply that it has room for. -/
theorem answerMail_commits {s : State} {o : Nat} {id : BitVec 16} {status : Byte} {body : Bytes}
    (hroom : (replyPacket o id status body).items.length ≤ s.room 31) (hopen : s.openCount 31 < 8) :
    Committed s (s.answerMail 31 o id status body) 31 (replyPacket o id status body) := by
  have hheld : s.heldBack 31 = 0 := by
    unfold State.heldBack
    split <;> rfl
  have hok : s.hwRoom 31 (replyPacket o id status body) = true := by
    unfold State.hwRoom
    rw [hheld]
    exact decide_eq_true ⟨hroom, hopen⟩
  have hcheck : s.hwOk 31 (replyPacket o id status body) = true := rfl
  unfold State.answerMail State.feCommit State.hwCommit
  rw [if_pos hcheck, if_neg (by omega), if_pos hok, jobAccepted_other (by decide) (by decide)]
  exact committed_commit ..

theorem reply_answers {u : State} {v : Serving} {status : Byte} {body : Bytes} (hserving : u.peat.serving = some v)
    (hdiscard : v.discard = false) (hroom : (replyPacket v.op v.reqId status body).items.length ≤ u.room 31)
    (hopen : u.openCount 31 < 8) : Replied u (u.reply status body) v status body := by
  obtain ⟨w, hw, hwonly, hwregs⟩ : ∃ w, ({ u with peat := { u.peat with serving := none } }).liftFences = w ∧
      w = { u with regs := w.regs, peat := { u.peat with serving := none, fences := 0 } } ∧ RegsBut fenceRegs u w := by
    obtain ⟨honly, hregs⟩ := liftFences_only { u with peat := { u.peat with serving := none } }
    refine ⟨_, rfl, ?_, ?_⟩
    · unfold State.liftFences
      unfold RegsOnly at honly
      generalize State.each _ _ _ = x at *
      rw [honly]
    · exact fun a ha hc => hregs a ha hc
  have hlane : ∀ n, w.lane n = u.lane n := fun n => by rw [hwonly]; rfl
  have hroom' : w.room 31 = u.room 31 := room_otherLane (by decide) ⟨_, hlane 31⟩
    (hwregs (aQUE_CFG (qOf 31)) (not_fence (by decide)) (by unfold Counted; decide))
  have hopen' : w.openCount 31 = u.openCount 31 := openCount_congr (by decide) ⟨_, hlane 31⟩
  have hrun : u.reply status body = w.answerMail 31 v.op v.reqId status body := by
    unfold State.reply
    rw [hserving]
    dsimp only
    rw [hw, hdiscard]
    exact if_neg (by decide)
  have hc := answerMail_commits (s := w) (o := v.op) (id := v.reqId) (status := status) (body := body) (by rw [hroom']; exact hroom)
    (by rw [hopen']; exact hopen)
  rw [← hrun] at hc
  generalize u.reply status body = t at *
  have honly := hc.only
  refine ⟨?_, RegsBut.trans (t := w) hwregs (RegsBut.mono hc.regs (by simp)), hc.newestWords, fun n hn => (hc.lane_ne hn).trans (hlane n)⟩
  rw [hwonly] at honly
  rw [honly]

/-- Items of a reply: its header and its body. -/
theorem length_replyPacket (o : Nat) (id : BitVec 16) (status : Byte) (body : Bytes) :
    (replyPacket o id status body).items.length = 1 + (body.length + 3) / 4 := by
  have hne : toLE 4 (o * 2 ^ 24 + status.toNat * 2 ^ 16 + id.toNat) ++ body ≠ [] := by
    intro h
    have := congrArg List.length h
    simp at this
  unfold replyPacket
  rw [length_bytesPacket hne, length_toWords, List.length_append, length_toLE]
  unfold wordsOf
  omega

section
variable {u t : State} {v : Serving} {status : Byte} {body : Bytes} (h : Replied u t v status body)
include h

theorem Replied.view {β : Sort*} (f : State → β)
    (hf : ∀ (s : State) r l c q, f { s with regs := r, lanes := l, commits := c, peat := q } = f s) : f t = f u := by
  rw [h.only]
  exact hf ..

theorem Replied.bytes : BytesKept u t :=
  bytesKept_of_eq (h.view (·.mem) fun _ _ _ _ _ => rfl) (h.view (·.flash) fun _ _ _ _ _ => rfl)

/-- The answer stands after the GENs of requests gone are forgotten. -/
theorem Replied.answers (p : Packet) : Answers (t.pruneGens p) v.op v.reqId status body := by
  refine ⟨?_, h.newest⟩
  show t.peat.serving = none
  rw [h.only]

end

/-! ### Conditioned output for a request -/

/-- A request goes on with the bytes that it was served. -/
theorem peatDraw_got {s : State} {d : Bytes} (hd : s.servedTo .peat = some (cOk, d)) (n : Nat) (have_ : Bytes)
    (fail : Byte → State → State) (go : Bytes → State → State) :
    s.peatDraw n have_ fail go = go (slice d 0 n) (s.forgetDraw .peat) := by
  unfold State.peatDraw State.draw
  rw [hd]
  rfl

/-- A request without them waits for them. -/
theorem peatDraw_waits {s : State} (hd : s.servedTo .peat = none) (hfail : s.rngFailed = false) (n : Nat) (have_ : Bytes)
    (fail : Byte → State → State) (go : Bytes → State → State) :
    ∃ l, s.peatDraw n have_ fail go = (s.setCallers l).await (.draw have_) ∧ (s.setCallers l).drawWaits .peat = true := by
  unfold State.peatDraw State.draw
  rw [hd, hfail]
  cases hw : s.drawWaits .peat with
  | true => exact ⟨s.trng.reqs, rfl, hw⟩
  | false => exact ⟨_, rfl, by simp [State.drawWaits, State.setCallers, drawsFor]⟩

end Proofs
end Sys2Proof

/-! PROOFS. ECHO, COUNTER_READ, PERF_GRANT_QUERY and KEY_GEN (R79, R298, R299, R303). -/
namespace Sys2Proof
namespace Proofs

open Sys2Proof.Machine Sys2Proof.Safety Sys2Proof.Laws

/-! ### The answer of a request with an effect -/

theorem wordAt_args (p : Packet) (k : Nat) : wordAt ((packetWords p).drop 1) k = mailArg p k := by
  unfold mailArg jobWord wordAt
  rw [List.getD_eq_getElem?_getD, List.getD_eq_getElem?_getD, List.getElem?_drop, Nat.add_comm]

theorem length_ofWords (ws : List Word) : (ofWords ws).length = 4 * ws.length := by
  unfold ofWords
  rw [List.length_flatMap]
  simp only [length_toLE, List.map_const', List.sum_replicate, smul_eq_mul]
  omega

/-- Peat answers from a state that its operation has led to, with the reply lane as it was. -/
theorem reply_after {s w : State} {op : Nat} {p : Packet} (h : MailTakes s op p) (hserving : w.peat.serving = some (mailServing p))
    (hlane : ∃ q, w.lane 31 = { s.lane 31 with seq := q }) (hcfg : w.reg (aQUE_CFG 15) = s.reg (aQUE_CFG 15)) {status : Byte}
    {body : Bytes} (hlen : 1 + (body.length + 3) / 4 ≤ largestReply op ((packetWords p).drop 1)) :
    Replied w (w.reply status body) (mailServing p) status body := by
  obtain ⟨-, -, -, -, -, -, -, hroom, hopen⟩ := h
  have hroom' : w.room 31 = s.room 31 := room_otherLane (by decide) hlane hcfg
  have hopen' : w.openCount 31 = s.openCount 31 := openCount_congr (by decide) hlane
  exact reply_answers hserving rfl (by rw [length_replyPacket, hroom']; omega) (by rw [hopen']; exact hopen)

/-- What an answer without another effect leaves. -/
structure AnsweredOnly (s t : State) (p : Packet) (status : Byte) (body : Bytes) : Prop where
  replies : Replies t p status body
  only : t = { s with regs := t.regs, lanes := t.lanes, commits := t.commits, peat := t.peat }
  regs : RegsBut fenceRegs s t
  bytes : BytesKept s t

theorem Served.cfg15 {s u : State} {p : Packet} (h : Served s u p) : u.reg (aQUE_CFG 15) = s.reg (aQUE_CFG 15) :=
  h.reg (not_fence (by decide)) (by unfold Counted; decide)

theorem Served.answeredOnly {s u : State} {p : Packet} (hu : Served s u p) {op : Nat} (h : MailTakes s op p) {status : Byte}
    {body : Bytes} (hlen : 1 + (body.length + 3) / 4 ≤ largestReply op ((packetWords p).drop 1)) :
    AnsweredOnly s ((u.reply status body).pruneGens p) p status body := by
  have hr := reply_after (w := u) (status := status) (body := body) h hu.serving ⟨_, hu.lanes 31 (by decide)⟩ hu.cfg15 hlen
  refine ⟨hr.answers p, ?_, ?_, ?_⟩
  · have hpeat := hu.only
    have honly := hr.only
    generalize u.reply status body = t at *
    rw [hpeat] at honly
    rw [honly]
    rfl
  · exact RegsBut.trans (t := u) hu.regs (RegsBut.trans hr.regs (regsBut_of_regs rfl _))
  · exact BytesKept.trans (t := u) hu.bytes (BytesKept.trans hr.bytes (bytesKept_of_eq rfl rfl))

/-! ### The lengths of what KEY_GEN answers -/

theorem length_xorB_le (a b : Bytes) : (xorB a b).length ≤ a.length := by
  unfold xorB
  rw [List.length_zipWith]
  exact min_le_left ..

theorem length_mixColumns (b : Bytes) : (mixColumns b).length = 16 := by
  unfold mixColumns
  rw [List.length_flatMap]
  rfl

theorem length_encRounds_le (ks : List Bytes) : ∀ b : Bytes, b.length ≤ 16 → (encRounds ks b).length ≤ 16 := by
  induction ks with
  | nil => exact fun b h => h
  | cons k ks ih =>
    intro b _
    cases ks with
    | nil => exact (length_xorB_le _ _).trans (le_of_eq (List.length_map ..))
    | cons k' ks => exact ih _ ((length_xorB_le _ _).trans (length_mixColumns _).le)

theorem length_encBlock_le (rk : List Bytes) {b : Bytes} (h : b.length ≤ 16) : (encBlock rk b).length ≤ 16 :=
  length_encRounds_le _ _ ((length_xorB_le _ _).trans h)

theorem length_cbcMac_le (rk : List Bytes) (bs : List Bytes) : ∀ {x : Bytes}, x.length ≤ 16 → (cbcMac rk x bs).length ≤ 16 := by
  induction bs with
  | nil => exact fun h => h
  | cons b bs ih => exact fun {x} h => ih (length_encBlock_le rk ((length_xorB_le _ _).trans h))

theorem length_cmac_le (key msg : Bytes) : (cmac key msg).length ≤ 16 := length_cbcMac_le _ _ (by simp [zeros])

theorem length_kmac (key custom msg : Bytes) (n : Nat) : (kmac key custom msg n).length = n := by
  unfold kmac kmacFinish
  exact length_sponge (by omega) (by omega) _ _ n

theorem length_keyCheckValue_le (t : Nat) (key : Bytes) : (keyCheckValue t key).length ≤ 16 := by
  unfold keyCheckValue
  dsimp only
  split_ifs
  · exact (length_kmac ..).le
  · exact length_cmac_le ..
  · exact length_cmac_le ..
  · exact length_cmac_le ..

theorem length_pointBE (f : Nat) (p : Pt) : (pointBE f p).length = 2 * f := by
  unfold pointBE toBE
  cases p with
  | none => simp [zeros]
  | some x =>
    rw [List.length_append, List.length_reverse, List.length_reverse, length_toLE, length_toLE]
    omega

/-- The public part or the key check value fits the largest reply of KEY_GEN (R77, R298). -/
theorem keyResult_fits {t : Nat} (key : Bytes) {args : List Word} (ht : kwType (wordAt args 1) = t) :
    1 + ((keyResult t key).length + 3) / 4 ≤ largestReply 0x30 args := by
  have hreply : largestReply 0x30 args = (match kwType (wordAt args 1) with | 4 => 17 | 5 => 25 | 6 => 9 | _ => 5) := rfl
  rw [hreply, ht]
  unfold keyResult asymmetric publicPart
  by_cases h4 : t = 4
  · subst h4
    simp [length_pointBE]
  · by_cases h5 : t = 5
    · subst h5
      simp [length_pointBE]
    · by_cases h6 : t = 6
      · subst h6
        simp
      · have hle := length_keyCheckValue_le t key
        rw [decide_eq_false (by omega), if_neg (by decide)]
        split <;> omega

theorem keyOfDraw_ne_nil {t : Nat} (ht : t ∈ [1, 2, 3, 4, 5, 6, 7, 9]) (d : Bytes) : keyOfDraw t (slice d 0 (drawBytes t)) ≠ [] := by
  have hlen : (keyOfDraw t (slice d 0 (drawBytes t))).length ≠ 0 := by
    simp only [List.mem_cons, List.not_mem_nil, or_false] at ht
    rcases ht with rfl | rfl | rfl | rfl | rfl | rfl | rfl | rfl <;> simp [keyOfDraw, drawBytes, typeBytes, length_slice]
  exact fun h => hlen (by rw [h]; rfl)

/-! ### KEY_GEN -/

section
variable {s u : State} {p : Packet} (h : Served s u p)
include h

theorem Served.works {ch : Nat} (hch : ch < 128) (hw : PeatWorks s ch) : PeatWorks u ch := by
  obtain ⟨hst, hjobs, hroom, h0, h1, h2⟩ := hw
  have hstatus : u.reg (aCHN_STATUS ch) = s.reg (aCHN_STATUS ch) :=
    h.reg (not_fence (by unfold aCHN_STATUS; omega)) (by unfold Counted aCHN_STATUS; omega)
  have hsched : u.reg (aCHN_SCHED ch) = s.reg (aCHN_SCHED ch) :=
    h.reg (not_fence (by unfold aCHN_SCHED; omega)) (by unfold Counted aCHN_SCHED; omega)
  have hmask : ∀ n, n < 3 → u.reg (aTRNG_MASK n) = s.reg (aTRNG_MASK n) := fun n hn =>
    h.reg (not_fence (by unfold aTRNG_MASK; omega)) (by unfold Counted aTRNG_MASK; omega)
  have htmpl : u.chTemplate ch = s.chTemplate ch := h.view (·.chTemplate ch) fun _ _ _ _ => rfl
  have hroom10 : u.room 10 = s.room 10 := room_otherLane (by decide) ⟨_, h.lanes 10 (by decide)⟩
    (h.reg (a := aQUE_CFG (qOf 10)) (not_fence (by decide)) (by unfold Counted; decide))
  refine ⟨?_, ?_, ?_, ?_, ?_, ?_⟩
  · unfold State.chState State.rf at *
    rwa [hstatus]
  · unfold State.chJobs State.maxJobs State.rf at *
    rwa [hstatus, hsched, htmpl]
  · rwa [hroom10]
  all_goals
    unfold State.maskStopped State.rb at *
    rwa [hmask _ (by omega)]

end

theorem kcvJobs_sound (t : Nat) : ∀ j ∈ kcvJobs t, j.items ≤ 65 ∧ j.code = cOk ∧ 1 ≤ j.eng ∧ j.eng ≤ 3 := by
  unfold kcvJobs hshJob aesJob
  split_ifs <;> simp

theorem keyJobs_sound (t : Nat) : ∀ j ∈ pubJobs t ++ kcvJobs t, j.items ≤ 65 ∧ j.code = cOk ∧ 1 ≤ j.eng ∧ j.eng ≤ 3 := by
  intro j hj
  rcases List.mem_append.mp hj with hj | hj
  · exact (pubJobs_sound t j hj).imp_left fun h => by omega
  · exact kcvJobs_sound t j hj

theorem bit17_of_fld {w : Word} (h : fld w 31 17 = 0) : bit w 17 = false := by
  have hbit := bit_eq_testBit_fld w (hi := 31) (lo := 17) (j := 0) (by decide)
  rw [h] at hbit
  exact hbit

theorem fld18_of_fld17 {w : Word} (h : fld w 31 17 = 0) : fld w 31 18 = 0 := by
  unfold fld at *
  have := w.isLt
  omega

/-- The checks of KEY_GEN's key word pass (R298). -/
theorem keyWordOk_new {s : State} {n : Nat} {w : Word} (hlo : 24 ≤ n) (hhi : n ≤ 63) (hw : fld w 31 17 = 0)
    (htype : kwType w ∈ [1, 2, 3, 4, 5, 6, 7, 9]) (huse : kwUse w ≠ 0) (hallowed : kwUse w &&& typeUses (kwType w) = kwUse w)
    (hnone : s.key n = none) : s.keyWordOk n w = true := by
  have hrange : (1 ≤ kwType w ∧ kwType w ≤ 7) ∨ kwType w = 9 := by
    simp only [List.mem_cons, List.not_mem_nil, or_false] at htype
    omega
  unfold State.keyWordOk
  rw [hnone, decide_eq_true ⟨hlo, hhi, fld18_of_fld17 hw, hrange, huse, hallowed⟩]
  rfl

/-- KEY_GEN comes to the key. -/
theorem keyGen_makeKey {s u : State} {p : Packet} (hu : Served s u p) (hlo : 24 ≤ (mailArg p 0).toNat) (hhi : (mailArg p 0).toNat ≤ 63)
    (hw : fld (mailArg p 1) 31 17 = 0) (htype : kwType (mailArg p 1) ∈ [1, 2, 3, 4, 5, 6, 7, 9]) (huse : kwUse (mailArg p 1) ≠ 0)
    (hallowed : kwUse (mailArg p 1) &&& typeUses (kwType (mailArg p 1)) = kwUse (mailArg p 1))
    (hnone : s.key (mailArg p 0).toNat = none) (hclass : s.rb aKST_STATUS 1 = false) (hfail : s.rngFailed = false)
    (hmask : s.maskStopped (maskOfType (kwType (mailArg p 1))) = false) :
    keyGen (mailServing p) u = u.makeKey (mailArg p 0).toNat (mailArg p 1) := by
  have hnone' : u.key (mailArg p 0).toNat = none := (hu.view (fun s => s.key (mailArg p 0).toNat) fun _ _ _ _ => rfl).trans hnone
  have hclass' : u.rb aKST_STATUS 1 = false := by
    rw [State.rb, hu.reg (not_fence (by decide)) (by unfold Counted; decide)]
    exact hclass
  have hfail' : u.rngFailed = false := by
    rw [State.rngFailed, State.rf, hu.reg (not_fence (by decide)) (by unfold Counted; decide)]
    exact hfail
  have hmask' : u.maskStopped (maskOfType (kwType (mailArg p 1))) = false := by
    have hlt : maskOfType (kwType (mailArg p 1)) < 3 := by
      unfold maskOfType
      split_ifs <;> decide
    rw [State.maskStopped, State.rb, hu.reg (not_fence (by unfold aTRNG_MASK; omega)) (by unfold Counted aTRNG_MASK; omega)]
    exact hmask
  have hok := keyWordOk_new (s := u) hlo hhi hw htype huse hallowed hnone'
  unfold keyGen mailServing
  dsimp only
  rw [wordAt_args, wordAt_args, hok, hfail', hmask', hclass', if_neg (by decide), if_neg (by decide), if_neg (by decide)]

theorem putStatic_plain {x : State} {n : Nat} {k : Slot} (hp : k.persist = false) :
    x.putStatic n k = (cOk, (x.eraseBlob n).setKey n k) := by
  unfold State.putStatic
  rw [hp]
  exact if_neg (by decide)

theorem key_setKey (s : State) (n : Nat) {k : Slot} (hk : k.key ≠ []) : (s.setKey n k).key n = some k := by
  unfold State.key State.setKey
  dsimp only
  rw [tfind_tput_same]
  exact if_neg hk

/-- With its bytes there, the key is made, stored and answered. -/
theorem makeKey_makes {s u : State} {p : Packet} {d : Bytes} (h : MailTakes s 0x30 p) (hu : Served s u p)
    (hd : s.servedTo .peat = some (cOk, d)) (hw : PeatWorks s 127) (htype : kwType (mailArg p 1) ∈ [1, 2, 3, 4, 5, 6, 7, 9])
    (hplain : fld (mailArg p 1) 31 17 = 0) :
    ∃ t k, u.makeKey (mailArg p 0).toNat (mailArg p 1) = t ∧ t.key (mailArg p 0).toNat = some k ∧ k.typ = kwType (mailArg p 1) ∧
      k.use = by8 (kwUse (mailArg p 1)) ∧ Replies (t.pruneGens p) p cOk (keyResult k.typ k.key) ∧ RegsBut mailRegs s t ∧
      OperandsOnly s t := by
  have hdu : u.servedTo .peat = some (cOk, d) := (hu.view (·.servedTo .peat) fun _ _ _ _ => rfl).trans hd
  have hworks : PeatWorks (u.forgetDraw .peat) 127 := hu.works (by decide) hw
  have hroom : 65 ≤ (u.forgetDraw .peat).room 10 := hworks.2.2.1
  obtain ⟨x, hx, hjobs, -⟩ := withJobs_complete (by decide) hworks (l := pubJobs (kwType (mailArg p 1)) ++ kcvJobs (kwType (mailArg p 1)))
    (fun j hj => (keyJobs_sound _ j hj).imp_left fun hle => hle.trans hroom) (fun c s => s.replyCode c) fun s =>
      let k := keyOfDraw (kwType (mailArg p 1)) (slice d 0 (drawBytes (kwType (mailArg p 1))))
      let x := s.putStatic (mailArg p 0).toNat
        (s.wordSlot (mailArg p 0).toNat (mailArg p 1) 0 k (publicPart (kwType (mailArg p 1)) k))
      if x.1 = cOk then x.2.reply cOk (keyResult (kwType (mailArg p 1)) k) else s.replyCode x.1
  have hne := keyOfDraw_ne_nil htype d
  have hrun : u.makeKey (mailArg p 0).toNat (mailArg p 1) = _ := (peatDraw_got hdu ..).trans hx
  dsimp only at hrun
  generalize keyOfDraw (kwType (mailArg p 1)) (slice d 0 (drawBytes (kwType (mailArg p 1)))) = key at hrun hne
  have hpersist : (x.wordSlot (mailArg p 0).toNat (mailArg p 1) 0 key (publicPart (kwType (mailArg p 1)) key)).persist = false :=
    bit17_of_fld hplain
  have hkey : (x.wordSlot (mailArg p 0).toNat (mailArg p 1) 0 key (publicPart (kwType (mailArg p 1)) key)).key = key := rfl
  have htyp : (x.wordSlot (mailArg p 0).toNat (mailArg p 1) 0 key (publicPart (kwType (mailArg p 1)) key)).typ = kwType (mailArg p 1) := rfl
  have huses : (x.wordSlot (mailArg p 0).toNat (mailArg p 1) 0 key (publicPart (kwType (mailArg p 1)) key)).use =
    by8 (kwUse (mailArg p 1)) := rfl
  generalize x.wordSlot (mailArg p 0).toNat (mailArg p 1) 0 key (publicPart (kwType (mailArg p 1)) key) = k at *
  rw [putStatic_plain hpersist, if_pos rfl] at hrun
  have hslot := key_setKey (x.eraseBlob (mailArg p 0).toNat) (mailArg p 0).toNat (k := k) (by rw [hkey]; exact hne)
  obtain ⟨w, hwdef, hwregs, hwlanes, hwpeat, hwmem, hwflash⟩ : ∃ w, (x.eraseBlob (mailArg p 0).toNat).setKey (mailArg p 0).toNat k = w ∧
    w.regs = x.regs ∧ w.lanes = x.lanes ∧ w.peat = x.peat ∧ w.mem = x.mem ∧ w.flash = x.flash := ⟨_, rfl, rfl, rfl, rfl, rfl, rfl⟩
  rw [hwdef] at hrun hslot
  have hjregs : RegsBut (jobRegs 127) u x := RegsBut.trans (t := u.forgetDraw .peat) (regsBut_of_regs rfl _) hjobs.regs
  have hwreg : RegsBut mailRegs s w := RegsBut.trans (t := x)
    (RegsBut.trans (t := u) (RegsBut.mono hu.regs fun a ha => List.mem_append_left _ ha)
      (RegsBut.mono hjregs fun a ha => List.mem_append_right _ ha)) (regsBut_of_regs hwregs _)
  have hcfg : w.reg (aQUE_CFG 15) = s.reg (aQUE_CFG 15) := by
    rw [reg_congr hwregs, hjregs _ (by rw [mem_jobRegs]; decide) (by unfold Counted; decide), hu.cfg15]
  have hlane : ∃ q, w.lane 31 = { s.lane 31 with seq := q } := by
    obtain ⟨q, hq⟩ := hjobs.lanes 31
    refine ⟨q, ?_⟩
    rw [State.lane, hwlanes]
    exact hq.trans (by rw [← hu.lanes 31 (by decide)]; rfl)
  have hserving : w.peat.serving = some (mailServing p) := by
    rw [hwpeat]
    exact (hjobs.view (·.peat.serving) fun _ _ _ _ => rfl).trans hu.serving
  have hr := reply_after (status := cOk) (body := keyResult (kwType (mailArg p 1)) key) h hserving hlane hcfg
    (keyResult_fits key (by rw [wordAt_args]))
  rw [← hrun] at hr
  generalize u.makeKey (mailArg p 0).toNat (mailArg p 1) = t at *
  refine ⟨t, k, rfl, ?_, htyp, huses, ?_, ?_, ?_⟩
  · rw [hr.view (fun s => s.key (mailArg p 0).toNat) fun _ _ _ _ _ => rfl]
    exact hslot
  · rw [htyp, hkey]
    exact hr.answers p
  · exact RegsBut.trans hwreg (RegsBut.mono hr.regs fun a ha => List.mem_append_left _ ha)
  · intro a
    obtain ⟨hmem, hflash⟩ := hjobs.operandsOnly a
    refine ⟨fun ha => ?_, ?_⟩
    · rw [(hr.bytes a).1, hwmem, hmem ha]
      exact (hu.bytes a).1
    · rw [(hr.bytes a).2, hwflash, hflash]
      exact (hu.bytes a).2

/-- Without them it waits. -/
theorem makeKey_waits {s u : State} {p : Packet} (hu : Served s u p) (hd : s.servedTo .peat = none) (hfail : s.rngFailed = false)
    (n : Nat) (w : Word) :
    ∃ t, u.makeKey n w = t ∧ (t.peat.serving).map (fun v => (v.op, v.waiting)) = some ((mailServing p).op, .draw []) ∧
      t.drawWaits .peat = true ∧ t.slots = s.slots ∧ RegsBut fenceRegs s t ∧ BytesKept s t := by
  have hdu : u.servedTo .peat = none := (hu.view (·.servedTo .peat) fun _ _ _ _ => rfl).trans hd
  have hfail' : u.rngFailed = false := by
    rw [State.rngFailed, State.rf, hu.reg (not_fence (by decide)) (by unfold Counted; decide)]
    exact hfail
  obtain ⟨l, hrun, hwaits⟩ := peatDraw_waits hdu hfail' (drawBytes (kwType w)) [] (fun c s => s.replyCode c) fun b s =>
    s.jobsDone (pubJobs (kwType w) ++ kcvJobs (kwType w)) fun s =>
      let k := keyOfDraw (kwType w) b
      let x := s.putStatic n (s.wordSlot n w 0 k (publicPart (kwType w) k))
      if x.1 = cOk then x.2.reply cOk (keyResult (kwType w) k) else s.replyCode x.1
  refine ⟨_, hrun, ?_, hwaits, hu.view (·.slots) fun _ _ _ _ => rfl, RegsBut.trans hu.regs (regsBut_of_regs rfl _),
    BytesKept.trans hu.bytes (bytesKept_of_eq rfl rfl)⟩
  show (Option.map (fun v => { v with waiting := Waiting.draw [] }) u.peat.serving).map (fun v => (v.op, v.waiting)) = _
  rw [hu.serving]
  rfl

/-- The counters that the taking of a packet advances are not PRF_GRANT. -/
theorem grant_takeHead (s : State) (n : Nat) : (s.takeHead n).reg aPRF_GRANT = s.reg aPRF_GRANT := by
  unfold State.takeHead
  dsimp only
  cases takePacket (s.mailLane n) (s.lane n).committed with
  | none => rfl
  | some x =>
    refine (evt_view (fun s => s.reg aPRF_GRANT) (fun s b k v _ _ => ?_) (fun s b k v _ _ => ?_) _ 0x10 0x13 _ (by decide)).trans rfl
    · exact reg_setReg_ne s (by unfold aPRF_GRANT aPRF_CNT; omega) v
    · exact reg_setReg_ne s (by unfold aPRF_GRANT aPRF_SEL; omega) v

/-- Settles O12: the requests that Peat answers at once, and KEY_GEN with and without its bytes. -/
theorem requestsAnswered : Obligations.RequestsAnswered := by
  unfold Obligations.RequestsAnswered
  refine ⟨fun s p h => ?echo, fun s p h hn => ?counter, fun s p h => ?grant,
    fun s p d h hlo hhi hplain htype huse hallowed hnone hclass hfail hmask hd hw => ?makes,
    fun s p h hlo hhi hplain htype huse hallowed hnone hclass hfail hmask hd => ?waits⟩
  case echo =>
    obtain ⟨u, hu, hrun, -⟩ := mailOp_serves h rfl (by decide) (mine := anyArgs) rfl fun v s => s.reply cOk (ofWords v.args)
    obtain ⟨hreplies, -, hregs, hbytes⟩ := hu.answeredOnly h (status := cOk) (body := ofWords ((packetWords p).drop 1))
      (by rw [length_ofWords, show largestReply 0x7F ((packetWords p).drop 1) = 1 + ((packetWords p).drop 1).length from rfl]; omega)
    exact ⟨_, congrArg done hrun, hreplies, hregs, hbytes⟩
  case counter =>
    obtain ⟨u, hu, hrun, -⟩ := mailOp_serves h rfl (by decide) (mine := anyArgs) rfl counterRead
    have hcount : u.counter (mailArg p 0).toNat = s.counter (mailArg p 0).toNat :=
      hu.view (·.counter (mailArg p 0).toNat) fun _ _ _ _ => rfl
    have hop : counterRead (mailServing p) u = u.reply cOk (toLE 4 (s.counter (mailArg p 0).toNat).toNat) := by
      unfold counterRead mailServing
      dsimp only
      rw [wordAt_args, if_neg (by omega), hcount]
    obtain ⟨hreplies, honly, hregs, hbytes⟩ := hu.answeredOnly h (status := cOk)
      (body := toLE 4 (s.counter (mailArg p 0).toNat).toNat) (by rw [length_toLE]; exact le_refl 2)
    rw [hop] at hrun
    exact ⟨_, congrArg done hrun, hreplies, by rw [honly], hregs, hbytes⟩
  case grant =>
    obtain ⟨u, hu, hrun, heq⟩ := mailOp_serves h rfl (by decide) (mine := anyArgs) rfl
      fun _ s => s.reply cOk (toLE 4 (s.reg aPRF_GRANT).toNat)
    have hgrant : u.reg aPRF_GRANT = s.reg aPRF_GRANT := by
      rw [heq]
      exact grant_takeHead s 15
    obtain ⟨hreplies, -, hregs, hbytes⟩ := hu.answeredOnly h (status := cOk) (body := toLE 4 (s.reg aPRF_GRANT).toNat)
      (by rw [length_toLE]; exact le_refl 2)
    rw [hgrant] at hrun
    exact ⟨_, congrArg done hrun, hreplies, hregs, hbytes⟩
  case makes =>
    obtain ⟨u, hu, hrun, -⟩ := mailOp_serves h rfl (by decide) (mine := anyArgs) rfl keyGen
    rw [keyGen_makeKey hu hlo hhi hplain htype huse hallowed hnone hclass hfail hmask] at hrun
    obtain ⟨t, k, ht, hkey, htyp, huses, hreplies, hregs, hops⟩ := makeKey_makes h hu hd hw htype hplain
    rw [ht] at hrun
    exact ⟨_, congrArg done hrun, ⟨k, hkey, htyp, huses, hreplies⟩, RegsBut.trans hregs (regsBut_of_regs rfl _), hops⟩
  case waits =>
    obtain ⟨u, hu, hrun, -⟩ := mailOp_serves h rfl (by decide) (mine := anyArgs) rfl keyGen
    rw [keyGen_makeKey hu hlo hhi hplain htype huse hallowed hnone hclass hfail hmask] at hrun
    obtain ⟨t, ht, hserving, hwaits, hslots, hregs, hbytes⟩ := makeKey_waits hu hd hfail (mailArg p 0).toNat (mailArg p 1)
    rw [ht] at hrun
    obtain ⟨-, -, -, hop, -⟩ := h
    refine ⟨_, congrArg done hrun, ?_, hwaits, ?_, RegsBut.trans hregs (regsBut_of_regs rfl _),
      BytesKept.trans hbytes (bytesKept_of_eq rfl rfl)⟩
    · exact hserving.trans (by rw [mailServing, hop])
    · exact (key_congr (s := s) hslots _).trans hnone

end Proofs
end Sys2Proof

/-! PROOFS. SESSION_OPEN, KEY_AGREE and SESSION_CLOSE (R110 to R116). -/
namespace Sys2Proof
namespace Proofs

open Sys2Proof.Machine Sys2Proof.Safety Sys2Proof.Laws

/-! ### A session is taken (R110) -/

theorem ses_setSes_same (s : State) (n : Nat) (x : Session) : (s.setSes n x).ses n = x := tget_tset_same ..

theorem ses_setSes_ne (s : State) {n k : Nat} (h : k ≠ n) (x : Session) : (s.setSes n x).ses k = s.ses k := tget_tset_ne _ h ..

/-- Only the uses of sessions differ. -/
def UsesOnly (s t : State) : Prop :=
  t = { s with sess := t.sess } ∧ ∀ k, (t.ses k).st = (s.ses k).st ∧ (t.ses k).gen = (s.ses k).gen

theorem UsesOnly.refl (s : State) : UsesOnly s s := ⟨rfl, fun _ => ⟨rfl, rfl⟩⟩

theorem UsesOnly.trans {s t u : State} (h : UsesOnly s t) (h' : UsesOnly t u) : UsesOnly s u := by
  obtain ⟨ht, hst⟩ := h
  obtain ⟨hu, hut⟩ := h'
  refine ⟨?_, fun k => ⟨(hut k).1.trans (hst k).1, (hut k).2.trans (hst k).2⟩⟩
  rw [ht] at hu
  exact hu

theorem modSes_uses (s : State) (n v : Nat) : UsesOnly s (s.modSes n fun x => { x with lastUse := v }) := by
  refine ⟨rfl, fun k => ?_⟩
  by_cases hk : k = n
  · subst hk
    rw [ses_modSes_same]
    exact ⟨rfl, rfl⟩
  · unfold State.modSes
    rw [ses_setSes_ne s hk]
    exact ⟨rfl, rfl⟩

theorem slotUses_uses (s : State) : ∃ u, s.slotUses = { u with dist := s.slotUses.dist } ∧ UsesOnly s u := by
  refine ⟨_, rfl, each_keeps UsesOnly.refl UsesOnly.trans (fun t x => ?_) _ s⟩
  split
  next k _ =>
    by_cases hgen : (t.ses x.ses).gen = x.gen
    · rw [decide_eq_true hgen]
      exact modSes_uses ..
    · rw [decide_eq_false hgen]
      exact .refl t
  next => exact .refl t

/-- SESSION_OPEN has taken session n and bound the channel to it. -/
structure SesTaken (s w : State) (p : Packet) (ch n : Nat) : Prop where
  only : w = { s with regs := w.regs, lanes := w.lanes, peat := w.peat, sess := w.sess, dist := w.dist }
  regs : RegsBut (aCHN_BIND ch :: fenceRegs) s w
  lanes : ∀ k, k ≠ 15 → w.lane k = s.lane k
  serving : w.peat.serving = some (mailServing p)
  offered : (w.ses n).st = .offered
  suite : (w.ses n).suite = 1
  gen : (w.ses n).gen = (s.ses n).gen + 1
  bind : w.rf (aCHN_BIND ch) 15 8 = n

theorem bindCh_binds (s : State) (ch : Nat) {n : Nat} (hn : n < 256) :
    ∃ t, s.bindCh ch n = t ∧ RegsOnly s t ∧ RegsBut [aCHN_BIND ch] s t ∧ t.rf (aCHN_BIND ch) 15 8 = n := by
  refine ⟨_, rfl, ((regsOnly_setReg ..).trans (regsOnly_setReg ..)).trans (regsOnly_setReg ..),
    RegsBut.trans (RegsBut.trans (regsBut_srf s (by simp) 23 16 _) (regsBut_srf _ (by simp) 15 8 n)) (regsBut_srb _ (by simp) 25 false), ?_⟩
  unfold State.bindCh
  rw [rf_srb_ne _ _ (by decide) (by decide) (by decide), rf_srf_same _ _ _ (by decide) (by decide)]
  exact Nat.mod_eq_of_lt hn

theorem freeSession_lt {s : State} {n : Nat} (h : s.freeSession = some n) : n < 256 := by
  obtain ⟨k, -, rfl⟩ := List.mem_map.mp (List.mem_of_find?_eq_some h)
  exact Nat.mod_lt _ (by decide)

theorem freeSession_congr {s t : State} (hlast : t.peat.lastSession = s.peat.lastSession) (hst : ∀ k, (t.ses k).st = (s.ses k).st) :
    t.freeSession = s.freeSession := by
  unfold State.freeSession
  simp only [hlast, hst]

theorem takeSes_takes (s : State) (n ch idle offer : Nat) :
    ∃ t, s.takeSes n 1 ch idle offer = t ∧ t = { s with sess := t.sess, peat := { s.peat with lastSession := n } } ∧
      (t.ses n).st = .offered ∧ (t.ses n).suite = 1 ∧ (t.ses n).gen = (s.ses n).gen + 1 := by
  refine ⟨_, rfl, rfl, ?_⟩
  have hses := ses_setSes_same s n { sesNil with
    st := .offered, suite := 1, gen := (s.ses n).gen + 1, opener := ch, idleTmo := idle, offerTmo := offer, lastUse := s.now }
  exact ⟨congrArg Session.st hses, congrArg Session.suite hses, congrArg Session.gen hses⟩

theorem openSession_takes {s u : State} {p : Packet} {n : Nat} {b : Bytes} (hu : Served s u p) (hch : (mailArg p 0).toNat < 124)
    (hpeat : s.chPeat (mailArg p 0).toNat = false) (hidle : s.chState (mailArg p 0).toNat = 0)
    (htmpl : s.namedTemplate (mailArg p 0).toNat = some b) (hsuite : byteAt b 2 = 1) (hfree : s.freeSession = some n) :
    ∃ w, SesTaken s w p (mailArg p 0).toNat n ∧ openSession (mailServing p) u = w.makeOffer (mailArg p 0).toNat n := by
  generalize hc : (mailArg p 0).toNat = ch at *
  have hpeat' : u.chPeat ch = false := by
    rw [State.chPeat, State.rb, hu.reg (not_fence (by unfold aCHN_PEATMASK; omega)) (by unfold Counted aCHN_PEATMASK; omega)]
    exact hpeat
  have hidle' : u.chState ch = 0 := by
    rw [State.chState, State.rf, hu.reg (not_fence (by unfold aCHN_STATUS; omega)) (by unfold Counted aCHN_STATUS; omega)]
    exact hidle
  have htmpl' : u.namedTemplate ch = some b := by
    rw [State.namedTemplate, State.rf, hu.reg (not_fence (by unfold aCHN_CTL; omega)) (by unfold Counted aCHN_CTL; omega)]
    exact (hu.view (·.sect 8 _) fun _ _ _ _ => rfl).trans htmpl
  obtain ⟨x, hx, hxonly, hxses⟩ := slotUses_uses u
  have hfreeU : u.freeSession = some n :=
    (freeSession_congr (by rw [hu.only]) fun k => congrArg Session.st (hu.view (·.ses k) fun _ _ _ _ => rfl)).trans hfree
  obtain ⟨y, hy, hyonly, hyfree, hygen⟩ : ∃ y, u.slotUses = y ∧ y = { u with sess := y.sess, dist := y.dist } ∧
      y.freeSession = some n ∧ (y.ses n).gen = (s.ses n).gen := by
    refine ⟨{ x with dist := u.slotUses.dist }, hx, ?_, ?_, ?_⟩
    · rw [hxonly]
    · exact (freeSession_congr (by rw [hxonly]) fun k => (hxses k).1).trans hfreeU
    · exact (hxses n).2.trans (congrArg Session.gen (hu.view (·.ses n) fun _ _ _ _ => rfl))
  have hroom : u.sesRoom = (.now n, y) := by
    unfold State.sesRoom
    rw [hy]
    dsimp only
    rw [hyfree]
  obtain ⟨z, hz, hzonly, hst, hsu, hgen⟩ := takeSes_takes y n ch (y.sesTimes ch).1 (y.sesTimes ch).2
  obtain ⟨w, hw, hwonly, hwregs, hbind⟩ := bindCh_binds z ch (freeSession_lt hfree)
  refine ⟨w, ⟨?_, ?_, fun k hk => ?_, ?_, ?_, ?_, ?_, hbind⟩, ?_⟩
  · unfold RegsOnly at hwonly
    rw [hzonly, hyonly, hu.only] at hwonly
    rw [hwonly]
  · refine RegsBut.trans (t := u) (RegsBut.mono hu.regs fun a ha => List.mem_cons_of_mem _ ha)
      (RegsBut.trans (t := z) (regsBut_of_regs ?_ _) (RegsBut.mono hwregs (by simp)))
    rw [hzonly, hyonly]
  · refine Eq.trans ?_ (hu.lanes k hk)
    rw [State.lane, hwonly.lanes, hzonly, hyonly]
    rfl
  · rw [hwonly.peat, hzonly, hyonly]
    exact hu.serving
  · rw [State.ses, hwonly.sess]
    exact hst
  · rw [State.ses, hwonly.sess]
    exact hsu
  · rw [State.ses, hwonly.sess]
    exact hgen.trans (by rw [hygen])
  · have hserv : (mailServing p).args = (packetWords p).drop 1 := rfl
    have htemp : u.templateOf ch = some b := by
      unfold State.templateOf
      rw [hidle', if_neg (by decide), htmpl']
    unfold openSession
    dsimp only
    rw [hserv, wordAt_args, hc, htemp]
    dsimp only
    rw [if_neg (by rw [hsuite, hpeat', hidle']; simp; omega), hroom]
    dsimp only
    rw [hz, hw]

section
variable {s w : State} {p : Packet} {ch n : Nat} (h : SesTaken s w p ch n)
include h

theorem SesTaken.view {β : Sort*} (f : State → β)
    (hf : ∀ (s : State) r l q x d, f { s with regs := r, lanes := l, peat := q, sess := x, dist := d } = f s) : f w = f s := by
  rw [h.only]
  exact hf ..

theorem SesTaken.bytes : BytesKept s w :=
  bytesKept_of_eq (h.view (·.mem) fun _ _ _ _ _ _ => rfl) (h.view (·.flash) fun _ _ _ _ _ _ => rfl)

theorem SesTaken.reg {a : Nat} (ha : a < 0x40000110 ∨ 0x40000120 ≤ a) (hb : a ∉ [aCHN_BIND ch]) (hc : ¬ Counted a) :
    w.reg a = s.reg a := h.regs a (fun hm => (List.mem_cons.mp hm).elim (fun e => hb (by rw [e]; simp)) (not_fence ha)) hc

end

/-- Peat's channel works alike where its registers, its template and Q10 are alike. -/
theorem peatWorks_alike {s u : State} {ch : Nat} (hregs : ∀ a ∈ workRegs ch, u.reg a = s.reg a) (hlane : ∃ q, u.lane 10 = { s.lane 10 with seq := q })
    (htmpl : u.templates = s.templates) (hw : PeatWorks s ch) : PeatWorks u ch := by
  have hstatus := hregs (aCHN_STATUS ch) (by simp [workRegs])
  have hsched := hregs (aCHN_SCHED ch) (by simp [workRegs])
  have h0 := hregs (aTRNG_MASK 0) (by simp [workRegs])
  have h1 := hregs (aTRNG_MASK 1) (by simp [workRegs])
  have h2 := hregs (aTRNG_MASK 2) (by simp [workRegs])
  have hroom : u.room 10 = s.room 10 := room_otherLane (by decide) hlane (hregs (aQUE_CFG 10) (by simp [workRegs]))
  unfold PeatWorks State.chState State.chJobs State.maxJobs State.chTemplate State.maskStopped State.rf State.rb at *
  rw [hstatus, hsched, htmpl, h0, h1, h2, hroom]
  exact hw

theorem workRegs_apart {ch a : Nat} (hch : ch < 124) (ha : a ∈ workRegs 127) :
    (a < 0x40000110 ∨ 0x40000120 ≤ a) ∧ a ∉ [aCHN_BIND ch] ∧ ¬ Counted a := by
  simp only [workRegs, List.mem_cons, List.not_mem_nil, or_false] at ha
  unfold Counted
  rcases ha with rfl | rfl | rfl | rfl | rfl | rfl <;>
    simp only [aCHN_STATUS, aCHN_SCHED, aTRNG_MASK, aQUE_CFG, aCHN_BIND, List.mem_singleton] <;> omega

theorem SesTaken.works {s w : State} {p : Packet} {ch n : Nat} (h : SesTaken s w p ch n) (hch : ch < 124) (hw : PeatWorks s 127) :
    PeatWorks w 127 :=
  peatWorks_alike (fun a ha => h.reg (workRegs_apart hch ha).1 (workRegs_apart hch ha).2.1 (workRegs_apart hch ha).2.2)
    ⟨_, h.lanes 10 (by decide)⟩ (h.view (·.templates) fun _ _ _ _ _ _ => rfl) hw

/-! ### The offer (R110, R115) -/

theorem length_takeBits (d : Nat) : ∀ (n : Nat) (l : List Nat), (takeBits d n l).length = n
  | 0, _ => rfl
  | n + 1, l => congrArg (· + 1) (length_takeBits d n (l.drop d))

theorem length_byteEncode (d : Nat) (f : Poly) : (byteEncode d f).length = 32 * d := by
  unfold byteEncode
  rw [List.length_map, length_takeBits]

theorem length_flatMap_const {α : Type} {f : α → Bytes} {k : Nat} (h : ∀ a, (f a).length = k) (l : List α) :
    (l.flatMap f).length = l.length * k := by
  rw [List.length_flatMap, List.map_congr_left (fun a _ => h a), List.map_const', List.sum_replicate, smul_eq_mul]

theorem length_encryptionKey (d : Bytes) : (pkeKeyGen d).1.length = 1184 := by
  have hrho : ((sha3x512 (d ++ [3])).take 32).length = 32 := by
    rw [List.length_take]
    unfold sha3x512
    rw [length_sponge (by omega) (by omega)]
    rfl
  unfold pkeKeyGen
  dsimp only
  rw [List.length_append, hrho, length_flatMap_const (k := 384) (fun i => length_byteEncode 12 _), List.length_range]

/-- The offer of a session (R115). -/
def offerOf (unit : Nat) (b : Bytes) : Bytes :=
  [1, 1, by8 unit, 0] ++ slice b 96 16 ++ toLE 32 (x25519Fn (clampScalar (ofLE (slice b 0 32))) 9) ++
    (pkeKeyGen (slice (slice b 32 64) 0 32)).1

theorem length_offerOf (unit : Nat) (b : Bytes) : (offerOf unit b).length = 1236 := by
  unfold offerOf
  rw [List.length_append, List.length_append, List.length_append, length_slice, length_toLE, length_encryptionKey]
  rfl

/-- Peat commits a packet to the output queue of a channel that has room for it. -/
theorem outCommit_room {s : State} {ch : Nat} {b : Bytes} (hq : s.rf (aCHN_QUEUES ch) 7 4 < 8) (hpend : s.rel.pending = false)
    (hroom : (bytesPacket 0 ch b).items.length ≤ s.room (s.rf (aCHN_QUEUES ch) 7 4))
    (hopen : s.openCount (s.rf (aCHN_QUEUES ch) 7 4) < 8) :
    ∃ t, s.outCommit ch 0 b = some t ∧ Committed s t (s.rf (aCHN_QUEUES ch) 7 4) (bytesPacket 0 ch b) := by
  obtain ⟨t, ht, hc⟩ := hwCommit_room hq (heldBack_none hpend _) hroom hopen
  have hlane : s.dstLane (s.rf (aCHN_QUEUES ch) 7 4) = s.rf (aCHN_QUEUES ch) 7 4 := if_neg fun h => absurd h.1 (by omega)
  have hok : commitOk s (s.rf (aCHN_QUEUES ch) 7 4) true (bytesPacket 0 ch b) = true := by
    unfold commitOk
    dsimp only
    rw [if_neg (by omega), if_neg (by omega), if_neg (by omega)]
  refine ⟨t, ?_, hc⟩
  unfold State.outCommit
  dsimp only
  rw [hlane, hok, if_neg (by simp; omega), ht]

theorem offerJobs_sound : ∀ j ∈ [bnJob true, bnJob true, Machine.clearJob, hshJob 5 false], j.items ≤ 65 ∧ j.code = cOk ∧ 1 ≤ j.eng ∧ j.eng ≤ 3 := by
  decide

section
variable {s w : State} {p : Packet} {ch n : Nat} {d : Bytes} (h : MailTakes s 0x01 p) (hw : SesTaken s w p ch n) (hch : ch < 124)
include h hw hch

omit h in
/-- The jobs are done, and the session holds the secrets of the offer. -/
theorem makeOffer_works (hd : s.servedTo .peat = some (cOk, d)) (hworks : PeatWorks s 127) :
    ∃ x, JobsFrame 127 (w.forgetDraw .peat) x ∧ ∃ (y : State) (offer : Bytes), offer.length = 1236 ∧
      y = { x with sess := y.sess } ∧ (y.ses n).st = .offered ∧ (y.ses n).suite = 1 ∧ (y.ses n).gen = (s.ses n).gen + 1 ∧
      w.makeOffer ch n = match y.outCommit ch 0 offer with
        | some t => t.reply cOk (toLE 4 n ++ toLE 4 (t.ses n).gen.toNat)
        | none => y.sesFailed n cAborted := by
  have hdw : w.servedTo .peat = some (cOk, d) := (hw.view (·.servedTo .peat) fun _ _ _ _ _ _ => rfl).trans hd
  have hworks' : PeatWorks (w.forgetDraw .peat) 127 := hw.works hch hworks
  have hroom : 65 ≤ (w.forgetDraw .peat).room 10 := hworks'.2.2.1
  obtain ⟨x, hx, hjobs, -⟩ := withJobs_complete (by decide) hworks' (l := [bnJob true, bnJob true, Machine.clearJob, hshJob 5 false])
    (fun j hj => (offerJobs_sound j hj).imp_left fun hle => hle.trans hroom) (fun c s => s.sesFailed n c) fun s =>
      let k := clampScalar (ofLE (slice (slice d 0 112) 0 32))
      let seed := slice (slice d 0 112) 32 64
      let offer := [1, 1, by8 s.unit, 0] ++ slice (slice d 0 112) 96 16 ++ toLE 32 (x25519Fn k 9) ++ (pkeKeyGen (slice seed 0 32)).1
      let s := s.modSes n fun x => { x with slot := toLE 32 k ++ seed ++ zeros 32, offerHash := sha3x256 offer }
      match s.outCommit ch 0 offer with
      | some t => t.reply cOk (toLE 4 n ++ toLE 4 (t.ses n).gen.toNat)
      | none => s.sesFailed n cAborted
  have hses : x.ses n = w.ses n := hjobs.view (·.ses n) fun _ _ _ _ => rfl
  refine ⟨x, hjobs, x.modSes n fun z => { z with
      slot := toLE 32 (clampScalar (ofLE (slice (slice d 0 112) 0 32))) ++ slice (slice d 0 112) 32 64 ++ zeros 32,
      offerHash := sha3x256 (offerOf x.unit (slice d 0 112)) }, offerOf x.unit (slice d 0 112), length_offerOf .., rfl, ?_, ?_, ?_, ?_⟩
  · rw [ses_modSes_same, hses]
    exact hw.offered
  · rw [ses_modSes_same, hses]
    exact hw.suite
  · rw [ses_modSes_same, hses]
    exact hw.gen
  · unfold State.makeOffer
    rw [peatDraw_got hdw]
    exact (if_neg fun hne => hne hw.offered).trans hx

theorem makeOffer_offers (hd : s.servedTo .peat = some (cOk, d)) (hworks : PeatWorks s 127) {q : Nat}
    (hqueue : s.rf (aCHN_QUEUES ch) 7 4 = q) (hq : q < 8) (hpend : s.rel.pending = false) (hroom : 309 ≤ s.room q)
    (hopen : s.openCount q < 8) :
    ∃ t, w.makeOffer ch n = t ∧ (t.ses n).st = .offered ∧ (t.ses n).suite = 1 ∧ (t.ses n).gen = (s.ses n).gen + 1 ∧
      t.rf (aCHN_BIND ch) 15 8 = n ∧ (t.lane q).committed.length = (s.lane q).committed.length + 1 ∧
      Replies (t.pruneGens p) p cOk (toLE 4 n ++ toLE 4 (t.ses n).gen.toNat) ∧
      RegsBut (aCHN_BIND ch :: mailRegs) s t ∧ OperandsOnly s t := by
  obtain ⟨x, hjobs, y, offer, hlen, hy, hst, hsuite, hgen, hrun⟩ := makeOffer_works hw hch hd hworks
  have hyregs : y.regs = x.regs := by rw [hy]
  have hjregs : RegsBut (jobRegs 127) w x := RegsBut.trans (t := w.forgetDraw .peat) (regsBut_of_regs rfl _) hjobs.regs
  have hyreg : ∀ {a : Nat}, (a < 0x40000110 ∨ 0x40000120 ≤ a) → a ∉ [aCHN_BIND ch] → a ∉ jobRegs 127 → ¬ Counted a → y.reg a = s.reg a :=
    fun ha hb hj hc => by rw [reg_congr hyregs, hjregs _ hj hc, hw.reg ha hb hc]
  have hylane : ∀ k, k ≠ 15 → ∃ seq, y.lane k = { s.lane k with seq := seq } := fun k hk => by
    obtain ⟨seq, hseq⟩ := hjobs.lanes k
    refine ⟨seq, ?_⟩
    rw [State.lane, hy]
    exact hseq.trans (by rw [← hw.lanes k hk]; rfl)
  have hyqueue : y.rf (aCHN_QUEUES ch) 7 4 = q := by
    rw [State.rf, hyreg (by unfold aCHN_QUEUES; omega) (by simp [aCHN_QUEUES, aCHN_BIND])
      (by rw [mem_jobRegs]; unfold aCHN_QUEUES aCHN_COUNT aAES_COUNT aBN_COUNT aHSH_COUNT; omega) (by unfold Counted aCHN_QUEUES; omega)]
    exact hqueue
  have hypend : y.rel.pending = false := by
    rw [hy]
    show x.rel.pending = false
    rw [hjobs.view (·.rel.pending) fun _ _ _ _ => rfl]
    exact (hw.view (·.rel.pending) fun _ _ _ _ _ _ => rfl).trans hpend
  have hyroom : y.room q = s.room q := room_otherLane (by omega) (hylane q (by omega)) (by
    rw [show qOf q = q from if_neg (by omega)]
    exact hyreg (by unfold aQUE_CFG; omega) (by simp only [aQUE_CFG, aCHN_BIND, List.mem_singleton]; omega)
      (by rw [mem_jobRegs]; unfold aQUE_CFG aCHN_COUNT aAES_COUNT aBN_COUNT aHSH_COUNT; omega) (by unfold Counted aQUE_CFG; omega))
  have hyopen : y.openCount q = s.openCount q := openCount_congr (by omega) (hylane q (by omega))
  have hitems : (bytesPacket 0 ch offer).items.length = 309 := by
    have hne : offer ≠ [] := fun hnil => by rw [hnil] at hlen; exact absurd hlen (by decide)
    rw [length_bytesPacket hne, length_toWords, hlen]
    rfl
  obtain ⟨z, hz, hc⟩ := outCommit_room (s := y) (ch := ch) (b := offer) (by rw [hyqueue]; exact hq) hypend
    (by rw [hitems, hyqueue, hyroom]; exact hroom) (by rw [hyqueue, hyopen]; exact hopen)
  rw [hz] at hrun
  rw [hyqueue] at hc
  dsimp only at hrun
  have hzses : z.ses n = y.ses n := by
    have honly := hc.only
    rw [State.ses, honly]
    rfl
  have hzserving : z.peat.serving = some (mailServing p) := by
    have honly := hc.only
    rw [honly]
    show y.peat.serving = _
    rw [hy]
    exact (hjobs.view (·.peat.serving) fun _ _ _ _ => rfl).trans hw.serving
  have hzlane : ∃ seq, z.lane 31 = { s.lane 31 with seq := seq } := by
    obtain ⟨seq, hseq⟩ := hylane 31 (by decide)
    exact ⟨seq, (hc.lane_ne (by omega)).trans hseq⟩
  have hzcfg : z.reg (aQUE_CFG 15) = s.reg (aQUE_CFG 15) := by
    rw [hc.regs _ (by simp) (by unfold Counted; decide)]
    exact hyreg (by decide) (by simp only [aQUE_CFG, aCHN_BIND, List.mem_singleton]; omega) (by rw [mem_jobRegs]; decide) (by unfold Counted; decide)
  have hr := reply_after (status := cOk) (body := toLE 4 n ++ toLE 4 (z.ses n).gen.toNat) h hzserving hzlane hzcfg
    (by rw [List.length_append, length_toLE, length_toLE]; exact le_refl 3)
  rw [← hrun] at hr
  generalize w.makeOffer ch n = t at *
  have htses : t.ses n = z.ses n := hr.view (·.ses n) fun _ _ _ _ _ => rfl
  have hzregs : RegsBut (aCHN_BIND ch :: mailRegs) s z := by
    refine RegsBut.trans (t := y) (RegsBut.trans (t := w) (RegsBut.mono hw.regs ?_)
      (RegsBut.trans (t := x) (RegsBut.mono hjregs ?_) (regsBut_of_regs hyregs _))) (RegsBut.mono hc.regs (by simp))
    · intro a ha
      rcases List.mem_cons.mp ha with rfl | ha
      · exact List.mem_cons_self
      · exact List.mem_cons_of_mem _ (List.mem_append_left _ ha)
    · exact fun a ha => List.mem_cons_of_mem _ (List.mem_append_right _ ha)
  refine ⟨t, rfl, ?_, ?_, ?_, ?_, ?_, ?_, ?_, ?_⟩
  · rw [htses, hzses]
    exact hst
  · rw [htses, hzses]
    exact hsuite
  · rw [htses, hzses]
    exact hgen
  · rw [State.rf, hr.regs _ (not_fence (by unfold aCHN_BIND; omega)) (by unfold Counted aCHN_BIND; omega),
      hc.regs _ (by simp) (by unfold Counted aCHN_BIND; omega), reg_congr hyregs,
      hjregs _ (by rw [mem_jobRegs]; unfold aCHN_BIND aCHN_COUNT aAES_COUNT aBN_COUNT aHSH_COUNT; omega) (by unfold Counted aCHN_BIND; omega)]
    exact hw.bind
  · obtain ⟨seq, hseq⟩ := hylane q (by omega)
    rw [hr.lane_ne q (by omega), hc.lane, hseq]
    exact List.length_append
  · rw [htses]
    exact hr.answers p
  · exact RegsBut.trans hzregs (RegsBut.mono hr.regs fun a ha => List.mem_cons_of_mem _ (List.mem_append_left _ ha))
  · intro a
    obtain ⟨hmem, hflash⟩ := hjobs.operandsOnly a
    have hymem : y.mem = x.mem := by rw [hy]
    have hyflash : y.flash = x.flash := by rw [hy]
    refine ⟨fun ha => ?_, ?_⟩
    · rw [(hr.bytes a).1, (hc.bytes a).1, hymem, hmem ha]
      exact (hw.bytes a).1
    · rw [(hr.bytes a).2, (hc.bytes a).2, hyflash, hflash]
      exact (hw.bytes a).2

omit h hch in
/-- Without its bytes the request waits, with the session taken (log entry 83). -/
theorem makeOffer_waits (hd : s.servedTo .peat = none) (hfail : s.rngFailed = false) :
    ∃ t, w.makeOffer ch n = t ∧ (t.peat.serving).map (fun v => (v.op, v.waiting)) = some ((mailServing p).op, .draw [by8 n]) ∧
      t.drawWaits .peat = true ∧ t.sess = w.sess ∧ t.regs = w.regs ∧ BytesKept w t := by
  have hdw : w.servedTo .peat = none := (hw.view (·.servedTo .peat) fun _ _ _ _ _ _ => rfl).trans hd
  have hfail' : w.rngFailed = false := by
    rw [State.rngFailed, State.rf, hw.reg (by decide) (by simp only [aTRNG_STATUS, aCHN_BIND, List.mem_singleton]; omega)
      (by unfold Counted; decide)]
    exact hfail
  obtain ⟨l, hrun, hwaits⟩ := peatDraw_waits hdw hfail' 112 [by8 n] (fun c s => s.sesFailed n c) fun b s =>
    if (s.ses n).st ≠ .offered then s.replyCode cNoSession
    else
      s.withJobs 127 [bnJob true, bnJob true, Machine.clearJob, hshJob 5 false] (fun c s => s.sesFailed n c) fun s =>
        let k := clampScalar (ofLE (slice b 0 32))
        let seed := slice b 32 64
        let offer := [1, 1, by8 s.unit, 0] ++ slice b 96 16 ++ toLE 32 (x25519Fn k 9) ++ (pkeKeyGen (slice seed 0 32)).1
        let s := s.modSes n fun x => { x with slot := toLE 32 k ++ seed ++ zeros 32, offerHash := sha3x256 offer }
        match s.outCommit ch 0 offer with
        | some t => t.reply cOk (toLE 4 n ++ toLE 4 (t.ses n).gen.toNat)
        | none => s.sesFailed n cAborted
  refine ⟨_, hrun, ?_, hwaits, rfl, rfl, bytesKept_of_eq rfl rfl⟩
  show (Option.map (fun v => { v with waiting := Waiting.draw [by8 n] }) w.peat.serving).map (fun v => (v.op, v.waiting)) = _
  rw [hw.serving]
  rfl

end

end Proofs
end Sys2Proof

/-! PROOFS. KEY_AGREE and SESSION_CLOSE (R112, R115, R116), and the requests of sessions together. -/
namespace Sys2Proof
namespace Proofs

open Sys2Proof.Machine Sys2Proof.Safety Sys2Proof.Laws

/-! ### The buffer that a request names (R78) -/

theorem putBit_true_ne_zero (m k : Nat) : putBit m k true ≠ 0 := by
  unfold putBit
  have := Nat.two_pow_pos k
  rw [if_pos rfl]
  omega

theorem holdBuffer_holds {s : State} {a n : Word} (hn : n ≠ 0) (hlo : 0x20000000 ≤ a.toNat) (hhi : a.toNat + n.toNat ≤ 0x20080000)
    (hfree : (List.range 4).any (fun k => decide (s.rf (aSYS_FENCE k) 27 16 = 0)) = true) :
    (s.holdBuffer a n).peat.fences ≠ 0 := by
  obtain ⟨k, hk⟩ : ∃ k, (List.range 4).find? (fun k => decide (s.rf (aSYS_FENCE k) 27 16 = 0)) = some k := by
    rw [← Option.isSome_iff_exists, List.find?_isSome, ← List.any_eq_true]
    exact hfree
  have hrun : ∃ v, s.holdBuffer a n = fenceUp s k v := by
    unfold State.holdBuffer
    rw [if_neg (not_or.mpr ⟨hn, not_or.mpr ⟨by omega, by omega⟩⟩), hk]
    exact ⟨_, rfl⟩
  obtain ⟨v, hv⟩ := hrun
  rw [hv]
  exact putBit_true_ne_zero _ k

/-- Peat reads the buffer of a request that it has taken. -/
theorem buffer_holds {s u : State} {p : Packet} (hu : Served s u p) (hfences : u.peat.fences ≠ 0) {a n : Word} {b : Bytes}
    (h : Holds s a n b) : u.buffer a n = some b := by
  obtain ⟨hn, hlo, hhi, hread, -⟩ := h
  have hmem : u.memRead a.toNat n.toNat = s.memRead a.toNat n.toNat := hu.view (·.memRead a.toNat n.toNat) fun _ _ _ _ => rfl
  unfold State.buffer
  rw [if_neg hn, if_neg (not_or.mpr ⟨by omega, not_or.mpr ⟨by omega, hfences⟩⟩), hmem, hread]

/-- The fences are free for the buffer when the request is taken. -/
theorem fences_free_takeHead {s : State} {p : Packet} (hhead : s.headPacket 15 = some p)
    (hfree : (List.range 4).any (fun k => decide (s.rf (aSYS_FENCE k) 27 16 = 0)) = true) :
    (List.range 4).any (fun k => decide ((s.takeHead 15).rf (aSYS_FENCE k) 27 16 = 0)) = true := by
  rw [List.any_eq_true] at hfree ⊢
  obtain ⟨k, hk, hzero⟩ := hfree
  have hk4 := List.mem_range.mp hk
  exact ⟨k, hk, by rw [rf_of_regsBut (takeHead_took hhead).regs (by simp) (by unfold Counted aSYS_FENCE; omega)]; exact hzero⟩

/-! ### KEY_AGREE -/

theorem agreeJobs_sound : ∀ j ∈ agreeJobs false, j.items ≤ 65 ∧ j.code = cOk ∧ 1 ≤ j.eng ∧ j.eng ≤ 3 := by decide

/-- What an agreement makes of a session (R116). -/
def agreed (x : Session) (ssx : Nat) (m : Bytes) (now : Nat) : Session :=
  { x with
    st := .ready
    slot := hybridKeys (toLE 32 ssx) (kemDecapsFn (pkeKeyGen (slice x.slot 32 32)).2 (pkeKeyGen (slice x.slot 32 32)).1
      (slice x.slot 64 32) (slice m 0x24 1088)) x.offerHash (sha3x256 m) ++ zeros 32
    th := x.offerHash ++ sha3x256 m, xPeer := slice m 4 32, lastUse := now }

theorem agree_jobs (s : State) (n : Nat) (m : Bytes) {ssx : Nat} (hne : ssx ≠ 0)
    (hss : x25519Fn (ofLE (slice (s.ses n).slot 0 32)) (ofLE (slice m 4 32) % 2 ^ 255) = ssx) :
    s.agree n m = s.withJobs 127 (agreeJobs false) (fun c s => s.sesFailed n c) fun t =>
      (t.setSes n (agreed (s.ses n) ssx m t.now)).rangingKeys n (if p25519 ≤ ofLE (slice m 4 32) % 2 ^ 255 then cReduced else cOk) := by
  unfold State.agree agreed
  dsimp only
  rw [hss, decide_eq_false hne]
  simp only [if_neg hne]

/-- Session y is session x, agreed with the peer message m. -/
def AgreedSes (x y : Session) (m : Bytes) : Prop := y.st = .ready ∧ y.xPeer = slice m 4 32 ∧ y.gen = x.gen

theorem agree_agrees {s u : State} {p : Packet} {n : Nat} {m : Bytes} (h : MailTakes s 0x03 p) (hu : Served s u p)
    (hworks : PeatWorks s 127) (hhead : s.isHead = false)
    (hne : x25519Fn (ofLE (slice (s.ses n).slot 0 32)) (ofLE (slice m 4 32) % 2 ^ 255) ≠ 0) :
    ∃ t, u.agree n m = t ∧ AgreedSes (s.ses n) (t.ses n) m ∧ (∀ k, k ≠ n → t.ses k = s.ses k) ∧
      Replies (t.pruneGens p) p (if p25519 ≤ ofLE (slice m 4 32) % 2 ^ 255 then cReduced else cOk) [] ∧ RegsBut mailRegs s t ∧
      OperandsOnly s t := by
  have hw : PeatWorks u 127 := hu.works (by decide) hworks
  have hses : ∀ k, u.ses k = s.ses k := fun k => hu.view (·.ses k) fun _ _ _ _ => rfl
  obtain ⟨x, y, hx, hjobs, hy⟩ : ∃ x y, u.agree n m =
      (x.setSes n y).rangingKeys n (if p25519 ≤ ofLE (slice m 4 32) % 2 ^ 255 then cReduced else cOk) ∧ JobsFrame 127 u x ∧
      AgreedSes (u.ses n) y m := by
    rw [← hses] at hne
    generalize hss : x25519Fn (ofLE (slice (u.ses n).slot 0 32)) (ofLE (slice m 4 32) % 2 ^ 255) = ssx at hne
    obtain ⟨x, hx, hjobs, -⟩ := withJobs_complete (by decide) hw (l := agreeJobs false)
      (fun j hj => (agreeJobs_sound j hj).imp_left fun hle => hle.trans hw.2.2.1) (fun c s => s.sesFailed n c) fun t =>
        (t.setSes n (agreed (u.ses n) ssx m t.now)).rangingKeys n (if p25519 ≤ ofLE (slice m 4 32) % 2 ^ 255 then cReduced else cOk)
    exact ⟨x, agreed (u.ses n) ssx m x.now, (agree_jobs u n m hne hss).trans hx, hjobs, rfl, rfl, rfl⟩
  obtain ⟨w, hwdef, hwregs, hwlanes, hwpeat, hwmem, hwflash, hwpower⟩ : ∃ w, x.setSes n y = w ∧ w.regs = x.regs ∧ w.lanes = x.lanes ∧
      w.peat = x.peat ∧ w.mem = x.mem ∧ w.flash = x.flash ∧ w.power = x.power := ⟨_, rfl, rfl, rfl, rfl, rfl, rfl, rfl⟩
  have hwn : w.ses n = y := by rw [← hwdef, ses_setSes_same]
  have hwk : ∀ k, k ≠ n → w.ses k = s.ses k := fun k hk => by
    rw [← hwdef, ses_setSes_ne x hk, hjobs.view (·.ses k) fun _ _ _ _ => rfl]
    exact hses k
  have hwhead : w.isHead = false := by
    rw [State.isHead, hwpower]
    exact (hjobs.view (·.power.cwyHead) fun _ _ _ _ => rfl).trans ((hu.view (·.power.cwyHead) fun _ _ _ _ => rfl).trans hhead)
  have hrun : u.agree n m = w.reply (if p25519 ≤ ofLE (slice m 4 32) % 2 ^ 255 then cReduced else cOk) [] := by
    rw [hx, hwdef]
    unfold State.rangingKeys
    rw [hwhead]
    exact if_neg (by decide)
  have hwreg : RegsBut mailRegs s w := RegsBut.trans (t := x)
    (RegsBut.trans (t := u) (RegsBut.mono hu.regs fun a ha => List.mem_append_left _ ha)
      (RegsBut.mono hjobs.regs fun a ha => List.mem_append_right _ ha)) (regsBut_of_regs hwregs _)
  have hcfg : w.reg (aQUE_CFG 15) = s.reg (aQUE_CFG 15) := by
    rw [reg_congr hwregs, hjobs.regs _ (by rw [mem_jobRegs]; decide) (by unfold Counted; decide), hu.cfg15]
  have hlane : ∃ q, w.lane 31 = { s.lane 31 with seq := q } := by
    obtain ⟨q, hq⟩ := hjobs.lanes 31
    refine ⟨q, ?_⟩
    rw [State.lane, hwlanes]
    exact hq.trans (by rw [← hu.lanes 31 (by decide)])
  have hserving : w.peat.serving = some (mailServing p) := by
    rw [hwpeat]
    exact (hjobs.view (·.peat.serving) fun _ _ _ _ => rfl).trans hu.serving
  have hr := reply_after (status := if p25519 ≤ ofLE (slice m 4 32) % 2 ^ 255 then cReduced else cOk) (body := []) h hserving hlane hcfg
    (le_refl 1)
  rw [← hrun] at hr
  generalize u.agree n m = t at *
  have htses : ∀ k, t.ses k = w.ses k := fun k => hr.view (·.ses k) fun _ _ _ _ _ => rfl
  refine ⟨t, rfl, ?_, fun k hk => (htses k).trans (hwk k hk), hr.answers p,
    RegsBut.trans hwreg (RegsBut.mono hr.regs fun a ha => List.mem_append_left _ ha), fun a => ?_⟩
  · rw [htses, hwn, ← hses]
    exact hy
  · obtain ⟨hmem, hflash⟩ := hjobs.operandsOnly a
    refine ⟨fun ha => ?_, ?_⟩
    · rw [(hr.bytes a).1, hwmem, hmem ha]
      exact (hu.bytes a).1
    · rw [(hr.bytes a).2, hwflash, hflash]
      exact (hu.bytes a).2

theorem keyAgree_agrees {s u : State} {p : Packet} {b : Bytes} (hu : Served s u p) (hfences : u.peat.fences ≠ 0)
    (hn : (mailArg p 0).toNat ≤ 255) (hb : Holds s (mailArg p 1) (mailArg p 2) b) (hlen : (mailArg p 2).toNat = 1124)
    (h0 : byteAt b 0 = 1) (h1 : byteAt b 1 = 1) (hoffered : (s.ses (mailArg p 0).toNat).st = .offered) :
    keyAgree (mailServing p) u = u.agree (mailArg p 0).toNat b := by
  have hst : (u.ses (mailArg p 0).toNat).st = .offered :=
    (congrArg Session.st (hu.view (·.ses (mailArg p 0).toNat) fun _ _ _ _ => rfl)).trans hoffered
  have hargs : (mailServing p).args = (packetWords p).drop 1 := rfl
  have hlen' : mailArg p 2 = 1124 := BitVec.eq_of_toNat_eq (by rw [hlen]; rfl)
  unfold keyAgree
  dsimp only
  rw [hargs, wordAt_args, wordAt_args, wordAt_args, buffer_holds hu hfences hb, if_neg hb.1]
  dsimp only
  rw [if_neg (by rw [hlen', h0, h1]; simp; omega), hst]

/-! ### SESSION_CLOSE -/

/-- Only the sessions, the mirrors, the bindings of channels and the marks of jobs differ: session n is free. -/
structure SesClosed (u w : State) (n : Nat) : Prop where
  only : w = { u with regs := w.regs, lanes := w.lanes, sess := w.sess, dist := w.dist }
  regs : ∀ a, (∀ c, c < 128 → a ≠ aCHN_BIND c) → w.reg a = u.reg a
  lanes : ∀ k, k ≠ 10 → w.lane k = u.lane k
  closed : w.ses n = { sesNil with gen := (u.ses n).gen }
  others : ∀ k, k ≠ n → w.ses k = u.ses k

theorem loseJobs_only (s : State) (n : Nat) : s.loseJobs n = { s with lanes := (s.loseJobs n).lanes } ∧
    ∀ k, k ≠ 10 → (s.loseJobs n).lane k = s.lane k := by
  unfold State.loseJobs
  dsimp only
  split
  · exact ⟨rfl, fun k hk => (lane_setLane s 10 k _).trans (if_neg hk)⟩
  · exact ⟨rfl, fun _ _ => rfl⟩

/-- The bindings of channels alone differ. -/
def BindsOnly (s t : State) : Prop := RegsOnly s t ∧ ∀ a, (∀ c, c < 128 → a ≠ aCHN_BIND c) → t.reg a = s.reg a

theorem unbinds (s : State) (n : Nat) (l : List Nat) : (∀ c ∈ l, c < 128) →
    BindsOnly s (s.each l fun s c => s.onlyIf (s.bindsTo n c) fun s => s.srb (aCHN_BIND c) 25 true) := by
  induction l generalizing s with
  | nil => exact fun _ => ⟨.refl s, fun _ _ => rfl⟩
  | cons c l ih =>
    intro hl
    obtain ⟨honly, hregs⟩ := ih (s.onlyIf (s.bindsTo n c) fun s => s.srb (aCHN_BIND c) 25 true) fun c' hc' => hl c' (List.mem_cons_of_mem _ hc')
    have hstep : BindsOnly s (s.onlyIf (s.bindsTo n c) fun s => s.srb (aCHN_BIND c) 25 true) := by
      cases s.bindsTo n c with
      | true => exact ⟨regsOnly_setReg .., fun a ha => reg_setReg_ne s (ha c (hl c List.mem_cons_self)) _⟩
      | false => exact ⟨.refl s, fun _ _ => rfl⟩
    exact ⟨hstep.1.trans honly, fun a ha => (hregs a ha).trans (hstep.2 a ha)⟩

theorem closeSes_frees {u : State} {n : Nat} (hst : (u.ses n).st ≠ .free) (hbusy : u.sesBusy n = false) (hmap : tfind u.dist.map n = none) :
    SesClosed u (u.closeSes n) n := by
  obtain ⟨honly, hlanes⟩ := loseJobs_only u n
  obtain ⟨x, hx⟩ : ∃ x, u.loseJobs n = x := ⟨_, rfl⟩
  rw [hx] at honly hlanes
  have hrun : u.closeSes n = x.freeSes n := by
    have hone : u.closeOne n = x.freeSes n := by
      have hxbusy : x.sesBusy n = false := by
        rw [honly]
        exact hbusy
      unfold State.closeOne
      rw [if_neg hst, hx]
      dsimp only
      rw [hxbusy]
      exact if_neg (by decide)
    unfold State.closeSes
    rw [hmap]
    exact hone
  obtain ⟨y, hy, hyonly, hyn, hyk⟩ : ∃ y : State, { x.setSes n { sesNil with gen := (x.ses n).gen } with dist := x.dist.unmap n } = y ∧
      y = { x with sess := y.sess, dist := y.dist } ∧ y.ses n = { sesNil with gen := (x.ses n).gen } ∧ ∀ k, k ≠ n → y.ses k = x.ses k :=
    ⟨_, rfl, rfl, ses_setSes_same .., fun k hk => ses_setSes_ne x hk _⟩
  have hfree : u.closeSes n = y.each (List.range 128) fun s c => s.onlyIf (s.bindsTo n c) fun s => s.srb (aCHN_BIND c) 25 true := by
    rw [hrun, ← hy]
    rfl
  obtain ⟨hwonly, hwregs⟩ := unbinds y n (List.range 128) fun c hc => List.mem_range.mp hc
  rw [← hfree] at hwonly hwregs
  generalize u.closeSes n = w at *
  have hyx : ∀ k, x.ses k = u.ses k := fun k => by
    rw [honly]
    rfl
  refine ⟨?_, fun a ha => ?_, fun k hk => ?_, ?_, fun k hk => ?_⟩
  · unfold RegsOnly at hwonly
    rw [hyonly, honly] at hwonly
    rw [hwonly]
  · rw [hwregs a ha, hyonly, honly]
    rfl
  · refine Eq.trans ?_ (hlanes k hk)
    rw [State.lane, hwonly.lanes, hyonly]
    rfl
  · rw [State.ses, hwonly.sess]
    exact hyn.trans (by rw [hyx])
  · rw [State.ses, hwonly.sess]
    exact (hyk k hk).trans (hyx k)

theorem closeSession_closes {s u : State} {p : Packet} (h : MailTakes s 0x02 p) (hu : Served s u p) (hn : (mailArg p 0).toNat ≤ 255)
    (hst : (s.ses (mailArg p 0).toNat).st ≠ .free) (hsuite : (s.ses (mailArg p 0).toNat).suite ≠ 3)
    (hbusy : s.sesBusy (mailArg p 0).toNat = false) (hmap : tfind s.dist.map (mailArg p 0).toNat = none) :
    ∃ t, closeSession (mailServing p) u = t ∧
      t.ses (mailArg p 0).toNat = { sesNil with gen := (s.ses (mailArg p 0).toNat).gen } ∧
      (∀ k, k ≠ (mailArg p 0).toNat → t.ses k = s.ses k) ∧ Replies (t.pruneGens p) p cOk [] ∧
      (∀ a, (∀ c, c < 128 → a ≠ aCHN_BIND c) → a ∉ fenceRegs → ¬ Counted a → t.reg a = s.reg a) ∧ BytesKept s t := by
  have hses : ∀ k, u.ses k = s.ses k := fun k => hu.view (·.ses k) fun _ _ _ _ => rfl
  have hargs : (mailServing p).args = (packetWords p).drop 1 := rfl
  have hbusy' : u.sesBusy (mailArg p 0).toNat = false := (hu.view (·.sesBusy (mailArg p 0).toNat) fun _ _ _ _ => rfl).trans hbusy
  have hmap' : tfind u.dist.map (mailArg p 0).toNat = none := (hu.view (fun s => tfind s.dist.map (mailArg p 0).toNat) fun _ _ _ _ => rfl).trans hmap
  have hc := closeSes_frees (by rw [hses]; exact hst) hbusy' hmap'
  have hrun : closeSession (mailServing p) u = (u.closeSes (mailArg p 0).toNat).reply cOk [] := by
    unfold closeSession
    rw [hargs, wordAt_args]
    dsimp only
    rw [if_neg (by omega), if_neg (by rw [hses]; exact hst), if_neg (by rw [hses]; exact hsuite), if_pos (by rw [hc.closed]; rfl)]
    rfl
  generalize u.closeSes (mailArg p 0).toNat = w at *
  have hserving : w.peat.serving = some (mailServing p) := by
    rw [hc.only]
    exact hu.serving
  have hcfg : w.reg (aQUE_CFG 15) = s.reg (aQUE_CFG 15) :=
    (hc.regs _ fun c hc => by unfold aQUE_CFG aCHN_BIND; omega).trans hu.cfg15
  have hr := reply_after (status := cOk) (body := []) h hserving ⟨_, (hc.lanes 31 (by decide)).trans (hu.lanes 31 (by decide))⟩ hcfg (le_refl 1)
  rw [← hrun] at hr
  generalize closeSession (mailServing p) u = t at *
  have htses : ∀ k, t.ses k = w.ses k := fun k => hr.view (·.ses k) fun _ _ _ _ _ => rfl
  have hwbytes : BytesKept u w := by
    rw [hc.only]
    exact bytesKept_of_eq rfl rfl
  refine ⟨t, rfl, ?_, fun k hk => ?_, hr.answers p, fun a hb hf ha => ?_, BytesKept.trans (BytesKept.trans hu.bytes hwbytes) hr.bytes⟩
  · rw [htses, hc.closed, hses]
  · rw [htses, hc.others k hk, hses]
  · rw [hr.regs a hf ha, hc.regs a hb, hu.regs a hf ha]

/-- Settles O13: SESSION_OPEN with and without its bytes, KEY_AGREE and SESSION_CLOSE. -/
theorem sessionRequests : Obligations.SessionRequests := by
  unfold Obligations.SessionRequests
  refine ⟨fun s p n b d h hd hworks hch hpeat hidle htmpl hsuite hfree hq hpend hroom hopen => ?opens,
    fun s p n b h hd hfail hch hpeat hidle htmpl hsuite hfree => ?waits,
    fun s p b h hn hb hlen h0 h1 hoffered hhead hworks hne => ?agrees, fun s p h hn hst hsuite hbusy hmap => ?closes⟩
  case opens =>
    obtain ⟨u, hu, hrun, -⟩ := mailOp_serves h rfl (by decide) (mine := anyArgs) rfl openSession
    obtain ⟨w, hw, htakes⟩ := openSession_takes hu hch hpeat hidle htmpl hsuite hfree
    obtain ⟨t, ht, hst, hsu, hgen, hbind, hlane, hreplies, hregs, hops⟩ := makeOffer_offers h hw hch hd hworks rfl hq hpend hroom hopen
    rw [htakes, ht] at hrun
    exact ⟨_, congrArg done hrun, hst, hsu, hgen, hbind, hlane, hreplies, RegsBut.trans hregs (regsBut_of_regs rfl _), hops⟩
  case waits =>
    obtain ⟨u, hu, hrun, -⟩ := mailOp_serves h rfl (by decide) (mine := anyArgs) rfl openSession
    obtain ⟨w, hw, htakes⟩ := openSession_takes hu hch hpeat hidle htmpl hsuite hfree
    obtain ⟨t, ht, hserving, hwaits, hsess, htregs, hbytes⟩ := makeOffer_waits hw hd hfail
    rw [htakes, ht] at hrun
    obtain ⟨-, -, -, hop, -⟩ := h
    have hses : t.ses n = w.ses n := congrArg (tget · n sesNil) hsess
    refine ⟨_, congrArg done hrun, hserving.trans (by rw [mailServing, hop]), hwaits, (congrArg Session.st hses).trans hw.offered,
      (congrArg Session.gen hses).trans hw.gen, (rf_congr htregs _ _ _).trans hw.bind,
      RegsBut.trans (t := w) hw.regs (RegsBut.trans (t := t) (regsBut_of_regs htregs _) (regsBut_of_regs rfl _)),
      BytesKept.trans (BytesKept.trans hw.bytes hbytes) (bytesKept_of_eq rfl rfl)⟩
  case agrees =>
    obtain ⟨u, hu, hrun, heq⟩ := mailOp_serves h rfl (by decide) (mine := anyArgs) rfl keyAgree
    have hfences : u.peat.fences ≠ 0 := by
      obtain ⟨hn0, hlo, hhi, -, hfree⟩ := hb
      have hholds := holdBuffer_holds (s := s.takeHead 15) hn0 hlo hhi (fences_free_takeHead h.1 hfree)
      have hargs : (s.takeHead 15).holdArgs 0x03 ((packetWords p).drop 1) = (s.takeHead 15).holdBuffer (mailArg p 1) (mailArg p 2) := by
        rw [← wordAt_args, ← wordAt_args]
        rfl
      rw [heq, hargs]
      exact hholds
    obtain ⟨t, ht, ⟨hst, hpeer, hgen⟩, hothers, hreplies, hregs, hops⟩ := agree_agrees h hu hworks hhead hne
    rw [keyAgree_agrees hu hfences hn hb hlen h0 h1 hoffered, ht] at hrun
    exact ⟨_, congrArg done hrun, hst, hpeer, hgen, hothers, hreplies, RegsBut.trans hregs (regsBut_of_regs rfl _), hops⟩
  case closes =>
    obtain ⟨u, hu, hrun, -⟩ := mailOp_serves h rfl (by decide) (mine := anyArgs) rfl closeSession
    obtain ⟨t, ht, hclosed, hothers, hreplies, hregs, hbytes⟩ := closeSession_closes h hu hn hst hsuite hbusy hmap
    rw [ht] at hrun
    exact ⟨_, congrArg done hrun, hclosed, hothers, hreplies, hregs, BytesKept.trans hbytes (bytesKept_of_eq rfl rfl)⟩

end Proofs
end Sys2Proof

/-! PROOFS. Replacements of sections, and images (R65, R82 to R84). -/
namespace Sys2Proof
namespace Proofs

open Sys2Proof.Machine Sys2Proof.Safety Sys2Proof.Laws

/-- A request that has waited is answered with a code. -/
theorem replyCode_waits {s w : State} {v : Serving} {wt : Waiting} (h : Waits s v wt) (hserving : w.peat.serving = some v)
    (hlane : w.lane 31 = s.lane 31) (hcfg : w.reg (aQUE_CFG 15) = s.reg (aQUE_CFG 15)) (status : Byte) :
    Replied w (w.replyCode status) v status [] := by
  obtain ⟨-, -, hdiscard, hroom, hopen⟩ := h
  have hroom' : w.room 31 = s.room 31 := room_otherLane (by decide) ⟨_, hlane⟩ hcfg
  have hopen' : w.openCount 31 = s.openCount 31 := openCount_congr (by decide) ⟨_, hlane⟩
  exact reply_answers hserving hdiscard (by rw [length_replyPacket, hroom']; exact hroom) (by rw [hopen']; exact hopen)

theorem Replied.waitAnswers {u t : State} {v : Serving} {status : Byte} {body : Bytes} (h : Replied u t v status body) :
    Answers t v.op v.reqId status body := ⟨by rw [h.only], h.newest⟩

/-! ### Replacements (R65) -/

/-- What the commit of a channel template leaves. -/
structure TemplateCommitted (s w : State) (slot : Nat) (version : Word) (key : Nat) (body : Option Bytes) : Prop where
  only : w = { s with envm := w.envm, cfg := w.cfg }
  commitRec : w.envm.commitRec = some (slot, version)
  slot : w.cfg.slot = slot
  version : w.cfg.version = version
  held : w.cfg.held = s.cfg.held
  body : tfind w.cfg.sections key = body

theorem commitSection_template (s : State) (slot : Nat) (version : Word) {key : Nat} (hkey : key / 256 = 8) (body : Option Bytes) :
    TemplateCommitted s (s.commitSection slot version key body) slot version key body := by
  obtain ⟨w, hw, honly, hrec, hslot, hversion, hheld⟩ : ∃ w, (s.commitDir slot version).guardFlash = w ∧
      w = { s with envm := w.envm, cfg := w.cfg } ∧ w.envm.commitRec = some (slot, version) ∧ w.cfg.slot = slot ∧
      w.cfg.version = version ∧ w.cfg.held = s.cfg.held := ⟨_, rfl, rfl, rfl, rfl, rfl, rfl⟩
  cases body with
  | some b =>
    have hrun : s.commitSection slot version key (some b) = { w with cfg := { w.cfg with sections := tput w.cfg.sections key b } } := by
      unfold State.commitSection
      rw [hw]
      dsimp only
      rw [hkey, decide_eq_false (show key ≠ 0x600 by omega), onlyIf_false]
      rfl
    rw [hrun]
    exact ⟨by rw [honly], hrec, hslot, hversion, hheld, tfind_tput_same ..⟩
  | none =>
    have hrun : s.commitSection slot version key none = { w with cfg := { w.cfg with sections := tdel w.cfg.sections key } } := by
      unfold State.commitSection State.removeSection
      rw [hw]
      dsimp only
      rw [if_neg (by omega), if_neg (by omega)]
    rw [hrun]
    exact ⟨by rw [honly], hrec, hslot, hversion, hheld, tfind_tdel_same ..⟩

/-- Nothing is held any more. -/
def nothingHeld (w : State) : State :=
  { w with cfg := { w.cfg with held := [], hold := [] }, eng := { w.eng with bnHold := none } }

theorem nothingHeld_shows (w : State) : ∃ x, (nothingHeld w).secReplace false = x ∧
    x = { w with regs := x.regs, cfg := { w.cfg with held := [], hold := [] }, eng := x.eng } ∧ RegsBut [aPWR_STATUS] w x ∧
    x.rb aPWR_STATUS 7 = false ∧ x.cfg = { w.cfg with held := [], hold := [] } := by
  have honly : RegsOnly (nothingHeld w) ((nothingHeld w).secReplace false) := regsOnly_setReg ..
  have hregs : RegsBut [aPWR_STATUS] (nothingHeld w) ((nothingHeld w).secReplace false) := regsBut_srb _ (by simp) 7 false
  have hbit : ((nothingHeld w).secReplace false).rb aPWR_STATUS 7 = false := rb_srb_same _ _ (by decide) false
  generalize (nothingHeld w).secReplace false = x at *
  unfold RegsOnly nothingHeld at honly
  exact ⟨x, rfl, by rw [honly], hregs, hbit, by rw [honly]⟩

/-- A replacement that does not hold the chain ends (R65 step 4). -/
theorem endReplace_ends {s w : State} {v : Serving} {wt : Waiting} (h : Waits s v wt) (hserving : w.peat.serving = some v)
    (hlanes : w.lanes = s.lanes) (hregs : w.regs = s.regs) (hheld : 6 ∉ w.cfg.held) (status : Byte) :
    ∃ t, w.endReplace status = t ∧ t.envm = w.envm ∧ t.cfg = { w.cfg with held := [], hold := [] } ∧ t.flash = w.flash ∧
      t.mem = w.mem ∧ t.rb aPWR_STATUS 7 = false ∧ Answers t v.op v.reqId status [] ∧ RegsBut (aPWR_STATUS :: fenceRegs) w t := by
  obtain ⟨x, hx, honly, hxregs, hbit, hxcfg⟩ := nothingHeld_shows w
  have hcfg : x.reg (aQUE_CFG 15) = s.reg (aQUE_CFG 15) := by
    rw [hxregs _ (by decide) (by unfold Counted; decide), reg_congr hregs]
  have hr := replyCode_waits h (w := x) (by rw [honly]; exact hserving) (by rw [State.lane, honly]; exact congrArg (tget · 31 laneNil) hlanes)
    hcfg status
  have hrun : w.endReplace status = x.replyCode status := by
    unfold State.endReplace
    rw [show ({ w with cfg := { w.cfg with held := [], hold := [] }, eng := { w.eng with bnHold := none } } : State) = nothingHeld w from rfl,
      hx, decide_eq_false hheld, onlyIf_false]
  rw [← hrun] at hr
  generalize w.endReplace status = t at *
  refine ⟨t, rfl, ?_, ?_, ?_, ?_, ?_, hr.waitAnswers, ?_⟩
  · rw [hr.view (·.envm) fun _ _ _ _ _ => rfl, honly]
  · rw [hr.view (·.cfg) fun _ _ _ _ _ => rfl, hxcfg]
  · rw [hr.view (·.flash) fun _ _ _ _ _ => rfl, honly]
  · rw [hr.view (·.mem) fun _ _ _ _ _ => rfl, honly]
  · rw [State.rb, hr.regs _ (not_fence (by decide)) (by unfold Counted; decide)]
    exact hbit
  · exact RegsBut.trans (t := x) (RegsBut.mono hxregs (by simp)) (RegsBut.mono hr.regs fun a ha => List.mem_cons_of_mem _ ha)

theorem replacementCommit_commits {s : State} {v : Serving} {slot key : Nat} {version : Word} {body : Option Bytes}
    (h : Waits s v (.cfgDrain slot version key body)) (hkey : key / 256 = 8) (hheld : 6 ∉ s.cfg.held) :
    ∃ t, replacementCommit s = t ∧ t.envm.commitRec = some (slot, version) ∧ t.cfg.slot = slot ∧
      t.cfg.version = version ∧ tfind t.cfg.sections key = body ∧ t.rb aPWR_STATUS 7 = false ∧
      Answers t v.op v.reqId cOk [] ∧ RegsBut (aPWR_STATUS :: fenceRegs) s t ∧ BytesKept s t := by
  have hdrained : s.drained key body = true := by
    unfold State.drained
    rw [if_neg (by omega), if_neg (by omega), if_neg (by omega), if_neg (by omega), if_neg (by omega), if_neg (by omega), if_neg (by omega)]
  have hc := commitSection_template s slot version hkey body
  have hrun : replacementCommit s = (s.commitSection slot version key body).endReplace cOk := by
    obtain ⟨hserving, hwaits, -⟩ := h
    unfold replacementCommit
    rw [hserving]
    dsimp only
    rw [hwaits]
    exact if_pos hdrained
  generalize s.commitSection slot version key body = w at *
  have honly := hc.only
  obtain ⟨t, ht, henvm, hcfg, hflash, hmem, hbit, hans, hregs⟩ := endReplace_ends h (w := w) (by rw [honly]; exact h.1) (by rw [honly])
    (by rw [honly]) (by rw [hc.held]; exact hheld) cOk
  refine ⟨t, hrun.trans ht, ?_, ?_, ?_, ?_, hbit, hans, RegsBut.trans (t := w) (regsBut_of_regs (by rw [honly]) _) hregs,
    bytesKept_of_eq (by rw [hmem, honly]) (by rw [hflash, honly])⟩
  · rw [henvm]; exact hc.commitRec
  · rw [hcfg]; exact hc.slot
  · rw [hcfg]; exact hc.version
  · rw [hcfg]; exact hc.body

theorem cellRead_erased (m : List Host.Cell) (a n : Nat) :
    cellRead (cellWrite flashDefault m a (List.replicate n 0xFF)) flashDefault a n = List.replicate n 0xFF := by
  have h := cellRead_cellWrite flashDefault m a (List.replicate n 0xFF)
  rwa [List.length_replicate] at h

theorem flashWrite_only (s : State) (a : Nat) (b : Bytes) :
    ∃ w, s.flashWrite a b = w ∧ w = { s with flash := w.flash } ∧ w.flash = cellWrite flashDefault s.flash a b := ⟨_, rfl, rfl, rfl⟩

theorem drainTimeout_erases {s : State} {v : Serving} {slot key : Nat} {version : Word} {body : Option Bytes}
    (h : Waits s v (.cfgDrain slot version key body)) (hheld : 6 ∉ s.cfg.held) :
    ∃ t, drainTimeout s = t ∧ t.flashRead (dirAddr slot) 4096 = List.replicate 4096 0xFF ∧
      t.envm = s.envm ∧ t.cfg.sections = s.cfg.sections ∧ t.rb aPWR_STATUS 7 = false ∧
      Answers t v.op v.reqId cAborted [] ∧ RegsBut (aPWR_STATUS :: fenceRegs) s t ∧ t.mem = s.mem := by
  have hrun : drainTimeout s = (s.eraseSlot slot).endReplace cAborted := by
    obtain ⟨hserving, hwaits, -⟩ := h
    unfold drainTimeout
    rw [hserving]
    dsimp only
    rw [hwaits]
  obtain ⟨w, hw, honly, hflash⟩ := flashWrite_only s (dirAddr slot) (List.replicate 4096 0xFF)
  rw [State.eraseSlot, hw] at hrun
  obtain ⟨t, ht, henvm, hcfg, htflash, hmem, hbit, hans, hregs⟩ := endReplace_ends h (w := w) (by rw [honly]; exact h.1) (by rw [honly])
    (by rw [honly]) (by rw [honly]; exact hheld) cAborted
  refine ⟨t, hrun.trans ht, ?_, by rw [henvm, honly], by rw [hcfg, honly], hbit, hans,
    RegsBut.trans (t := w) (regsBut_of_regs (by rw [honly]) _) hregs, by rw [hmem, honly]⟩
  exact (congrArg (fun m => cellRead m flashDefault (dirAddr slot) 4096) (htflash.trans hflash)).trans
    (cellRead_erased s.flash (dirAddr slot) 4096)

/-! ### Images (R82 to R84) -/

theorem imageType_of {p : Packet} {n : Nat} (h : (mailArg p 0).toNat = n) (hn : n = 1 ∨ n = 2) : imageType (mailServing p) = some n := by
  unfold imageType mailServing
  dsimp only
  rw [wordAt_args, h, if_pos hn]

theorem setArb_only (s : State) (n v : Nat) : ∃ t, s.setArb n v = t ∧ t = { s with envm := { s.envm with arb := t.envm.arb } } ∧
    tget t.envm.arb n 0 = w32 (max (s.arb n) v) := ⟨_, rfl, rfl, tget_tset_same ..⟩

theorem advanceNow_only (s : State) (n : Nat) (h : Bytes) :
    ∃ t, s.advanceNow n h = t ∧ t = { s with envm := { s.envm with arb := t.envm.arb } } := by
  unfold State.advanceNow
  split
  · exact ⟨_, rfl, rfl⟩
  · exact ⟨s, rfl, rfl⟩

theorem askHost_only (s : State) (l : List (Nat × Nat)) : RegsOnly s (s.askHost l) ∧ RegsBut [aHIF_RECREQ, aHIF_RECLEN] s (s.askHost l) := by
  unfold State.askHost
  split
  · exact ⟨(regsOnly_setReg ..).trans (regsOnly_setReg ..), RegsBut.trans (regsBut_setReg s (by simp) _) (regsBut_setReg _ (by simp) _)⟩
  · exact ⟨(regsOnly_setReg ..).trans (regsOnly_setReg ..), RegsBut.trans (regsBut_setReg s (by simp) _) (regsBut_setReg _ (by simp) _)⟩

/-- A reload of the Sedge image begins (R73). -/
theorem reloadSedge_reloads (s : State) : ∃ t, s.reloadSedge = t ∧ t = { s with regs := t.regs, power := t.power } ∧
    t.power.reloading = true ∧ t.power.sedgeRuns = false ∧
    RegsBut [aSYS_CORE_STATUS, aHIF_RECREQ, aHIF_RECLEN] s t := by
  have hbump : RegsBut [aSYS_CORE_STATUS] s (s.bumpSat aSYS_CORE_STATUS 15 8 1) := regsBut_srf s (by simp) 15 8 _
  have honly : RegsOnly s (s.bumpSat aSYS_CORE_STATUS 15 8 1) := regsOnly_setReg ..
  unfold State.reloadSedge
  generalize s.bumpSat aSYS_CORE_STATUS 15 8 1 = u at *
  obtain ⟨x, hx, hxonly, hreload, hruns⟩ : ∃ x : State, { u with
      power := { u.power with sedgeRuns := false, reloading := true, recMem := [], recGot := [] } } = x ∧
      x = { u with power := x.power } ∧ x.power.reloading = true ∧ x.power.sedgeRuns = false := ⟨_, rfl, rfl, rfl, rfl⟩
  have hrun : u.beginReload = x.onlyIf x.power.recovery fun s => s.askHost s.reloadReads := by
    rw [← hx]
    rfl
  have hxregs : x.regs = u.regs := by rw [hxonly]
  obtain ⟨hask, haskRegs⟩ : RegsOnly x u.beginReload ∧ RegsBut [aHIF_RECREQ, aHIF_RECLEN] x u.beginReload := by
    rw [hrun]
    cases x.power.recovery with
    | true => exact askHost_only x x.reloadReads
    | false => exact ⟨.refl x, fun _ _ _ => rfl⟩
  generalize u.beginReload = t at *
  refine ⟨t, rfl, ?_, by rw [hask.power]; exact hreload, by rw [hask.power]; exact hruns,
    RegsBut.trans (t := u) (RegsBut.mono hbump (by simp)) (RegsBut.trans (t := x) (regsBut_of_regs hxregs _) (RegsBut.mono haskRegs (by simp)))⟩
  unfold RegsOnly at honly hask
  rw [hxonly, honly] at hask
  rw [hask]

theorem showTrial_only (s : State) : RegsOnly s s.showTrial ∧ RegsBut [aSYS_CORE_STATUS] s s.showTrial :=
  ⟨regsOnly_setReg .., regsBut_srb s (by simp) 0 _⟩

/-- A staged Sedge image is activated (R83). -/
theorem imageActivate_sedge {s u : State} {p : Packet} {slot : Nat} {version : Word} {d : Bytes} (h : MailTakes s 0x42 p)
    (hu : Served s u p) (htype : (mailArg p 0).toNat = 2) (hstaged : tfind s.peat.staged 2 = some (slot, version, d)) :
    ∃ t, imageActivate (mailServing p) u = t ∧ Replies (t.pruneGens p) p cOk [] ∧
      tfind t.peat.runVersion 2 = some (w32 version.toNat) ∧ tfind t.peat.runSlot 2 = some slot ∧ tfind t.peat.staged 2 = none ∧
      t.power.reloading = true ∧ t.power.sedgeRuns = false ∧
      RegsBut (aSYS_CORE_STATUS :: aHIF_RECREQ :: aHIF_RECLEN :: fenceRegs) s t ∧ BytesKept s t := by
  have hstaged' : tfind u.peat.staged 2 = some (slot, version, d) := by
    rw [hu.only]
    exact hstaged
  have hr := reply_after (w := u) (status := cOk) (body := []) h hu.serving ⟨_, hu.lanes 31 (by decide)⟩ hu.cfg15 (le_refl 1)
  obtain ⟨r, hrdef⟩ : ∃ r, u.reply cOk [] = r := ⟨_, rfl⟩
  rw [hrdef] at hr
  obtain ⟨y, hy, hyonly, hversion, hslot, hstage, hserving⟩ : ∃ y : State, { r.setRunning 2 slot version.toNat with
      peat := { (r.setRunning 2 slot version.toNat).peat with sedgeDigest := d } } = y ∧ y = { r with peat := y.peat } ∧
      tfind y.peat.runVersion 2 = some (w32 version.toNat) ∧ tfind y.peat.runSlot 2 = some slot ∧ tfind y.peat.staged 2 = none ∧
      y.peat.serving = r.peat.serving :=
    ⟨_, rfl, rfl, tfind_tput_same .., tfind_tput_same .., tfind_tdel_same .., rfl⟩
  obtain ⟨z, hz, hzonly⟩ := advanceNow_only y 2 (u.flashRead (u.imageAt 2 slot) 64)
  obtain ⟨x, hx, hxonly, hxregs⟩ : ∃ x, z.guardFlash.showTrial = x ∧ x = { z with regs := x.regs, cfg := x.cfg } ∧
      RegsBut [aSYS_CORE_STATUS] z x := by
    obtain ⟨honly, hregs⟩ := showTrial_only z.guardFlash
    generalize z.guardFlash.showTrial = x at *
    unfold RegsOnly State.guardFlash at honly
    exact ⟨x, rfl, by rw [honly], hregs⟩
  obtain ⟨t, ht, htonly, hreload, hruns, htregs⟩ := reloadSedge_reloads x
  have hrun : imageActivate (mailServing p) u = t := by
    unfold imageActivate
    rw [imageType_of htype (.inr rfl)]
    dsimp only
    rw [hstaged']
    dsimp only
    rw [if_neg (by decide), State.replyCode, hrdef, hy, hz, hx, ht]
  have hlanes : t.lanes = r.lanes := by rw [htonly, hxonly, hzonly, hyonly]
  have hpeat : t.peat = y.peat := by rw [htonly, hxonly, hzonly]
  have hmem : t.mem = r.mem := by rw [htonly, hxonly, hzonly, hyonly]
  have hflash : t.flash = r.flash := by rw [htonly, hxonly, hzonly, hyonly]
  have hzregs : z.regs = r.regs := by rw [hzonly, hyonly]
  obtain ⟨hnone, hnewest⟩ := hr.answers p
  refine ⟨t, hrun, ⟨?_, ?_⟩, ?_, ?_, ?_, hreload, hruns, ?_, BytesKept.trans hu.bytes (BytesKept.trans hr.bytes (bytesKept_of_eq hmem hflash))⟩
  · show t.peat.serving = none
    rw [hpeat, hserving]
    exact hnone
  · refine Eq.trans ?_ hnewest
    show ((t.lane 31).committed.getLast?).map packetWords = ((r.lane 31).committed.getLast?).map packetWords
    rw [State.lane, hlanes]
    rfl
  · rw [hpeat]
    exact hversion
  · rw [hpeat]
    exact hslot
  · rw [hpeat]
    exact hstage
  · refine RegsBut.trans (t := u) (RegsBut.mono hu.regs ?_) (RegsBut.trans (t := r) (RegsBut.mono hr.regs ?_)
      (RegsBut.trans (t := z) (regsBut_of_regs hzregs _) (RegsBut.trans (t := x) (RegsBut.mono hxregs (by simp)) (RegsBut.mono htregs ?_))))
    · exact fun a ha => List.mem_cons_of_mem _ (List.mem_cons_of_mem _ (List.mem_cons_of_mem _ ha))
    · exact fun a ha => List.mem_cons_of_mem _ (List.mem_cons_of_mem _ (List.mem_cons_of_mem _ ha))
    · exact fun a ha => List.mem_append_left _ ha

/-- A staged Peat image waits for the swap (R83). -/
theorem imageActivate_peat {s u : State} {p : Packet} {x : Nat × Word × Bytes} (hu : Served s u p) (htype : (mailArg p 0).toNat = 1)
    (hstaged : tfind s.peat.staged 1 = some x) :
    ∃ t, imageActivate (mailServing p) u = t ∧ (t.peat.serving).map (·.waiting) = some .peatSwap ∧ t.peat.staged = s.peat.staged ∧
      RegsBut fenceRegs s t ∧ BytesKept s t := by
  have hstaged' : u.peat.staged = s.peat.staged := by rw [hu.only]
  refine ⟨u.await .peatSwap, ?_, ?_, hstaged', RegsBut.trans hu.regs (regsBut_of_regs rfl _), BytesKept.trans hu.bytes (bytesKept_of_eq rfl rfl)⟩
  · unfold imageActivate
    rw [imageType_of htype (.inl rfl)]
    dsimp only
    rw [hstaged', hstaged]
    exact if_pos rfl
  · show (u.peat.serving.map fun v => { v with waiting := Waiting.peatSwap }).map (·.waiting) = _
    rw [hu.serving]
    rfl

/-- The running image of a type is confirmed (R82). -/
theorem imageConfirm_confirms {s u : State} {p : Packet} {n : Nat} (h : MailTakes s 0x43 p) (hu : Served s u p)
    (hn : (mailArg p 0).toNat = n) (htype : n = 1 ∨ n = 2) :
    ∃ t, imageConfirm (mailServing p) u = t ∧
      tget t.envm.arb n 0 = w32 (max (tget s.envm.arb n 0).toNat (tget s.peat.runVersion n 0).toNat) ∧
      tfind t.envm.trial (trialKey n (tget s.peat.runVersion n 0).toNat) = none ∧ Replies (t.pruneGens p) p cOk [] ∧
      RegsBut (aSYS_CORE_STATUS :: fenceRegs) s t ∧ BytesKept s t := by
  have hversion : tget u.peat.runVersion n 0 = tget s.peat.runVersion n 0 := by rw [hu.only]
  have harb : u.arb n = (tget s.envm.arb n 0).toNat := hu.view (·.arb n) fun _ _ _ _ => rfl
  obtain ⟨y, hy, hyonly, hyarb⟩ := setArb_only u n (tget s.peat.runVersion n 0).toNat
  have hypeat : tget y.peat.runVersion n 0 = tget s.peat.runVersion n 0 := by rw [hyonly]; exact hversion
  obtain ⟨z, hz, hzonly, hzarb, hztrial⟩ : ∃ z : State, { y with envm := { y.envm with
      trial := tdel y.envm.trial (trialKey n (tget s.peat.runVersion n 0).toNat) } } = z ∧ z = { y with envm := z.envm } ∧
      z.envm.arb = y.envm.arb ∧ tfind z.envm.trial (trialKey n (tget s.peat.runVersion n 0).toNat) = none :=
    ⟨_, rfl, rfl, rfl, tfind_tdel_same ..⟩
  obtain ⟨hxonly, hxregs⟩ := showTrial_only z
  have hrun : imageConfirm (mailServing p) u = z.showTrial.reply cOk [] := by
    unfold imageConfirm
    rw [imageType_of hn htype]
    dsimp only
    rw [hversion, hy, hypeat, hz]
    rfl
  generalize z.showTrial = x at *
  have hzregs : z.regs = u.regs := by rw [hzonly, hyonly]
  have hcfg : x.reg (aQUE_CFG 15) = s.reg (aQUE_CFG 15) := by
    rw [hxregs _ (by decide) (by unfold Counted; decide), reg_congr hzregs]
    exact hu.cfg15
  have hlane : x.lane 31 = s.lane 31 := by
    rw [State.lane, hxonly.lanes, hzonly, hyonly]
    exact hu.lanes 31 (by decide)
  have hserving : x.peat.serving = some (mailServing p) := by
    rw [hxonly.peat, hzonly, hyonly]
    exact hu.serving
  have hr := reply_after (status := cOk) (body := []) h hserving ⟨_, hlane⟩ hcfg (le_refl 1)
  rw [← hrun] at hr
  generalize imageConfirm (mailServing p) u = t at *
  have htenvm : t.envm = z.envm := (hr.view (·.envm) fun _ _ _ _ _ => rfl).trans hxonly.envm
  refine ⟨t, rfl, ?_, ?_, hr.answers p, ?_, ?_⟩
  · rw [htenvm, hzarb, hyarb, harb]
  · rw [htenvm]
    exact hztrial
  · exact RegsBut.trans (t := u) (RegsBut.mono hu.regs fun a ha => List.mem_cons_of_mem _ ha)
      (RegsBut.trans (t := z) (regsBut_of_regs hzregs _) (RegsBut.trans (t := x) (RegsBut.mono hxregs (by simp))
        (RegsBut.mono hr.regs fun a ha => List.mem_cons_of_mem _ ha)))
  · refine BytesKept.trans hu.bytes (BytesKept.trans (t := x) (bytesKept_of_eq ?_ ?_) hr.bytes)
    · rw [hxonly.mem, hzonly, hyonly]
    · rw [hxonly.flash, hzonly, hyonly]

/-! ### The swap of Peat's image (R84) -/

/-- The hand-over leaves its state in Peat's memory. -/
theorem handoff_only (s : State) : ∃ t, s.handoff = t ∧ t = { s with regs := t.regs, mem := t.mem, freeCtr := t.freeCtr } ∧
    RegsBut [aSYS_CORE_STATUS] s t := by
  obtain ⟨u, hu, huregs⟩ : ∃ u, (s.freeBytes (min s.peat.peatFoot Config.handoffSize)).2.memWrite
      (0x10000000 + s.peat.peatFoot - min s.peat.peatFoot Config.handoffSize) (s.freeBytes (min s.peat.peatFoot Config.handoffSize)).1 = u ∧
      u = { s with mem := u.mem, freeCtr := u.freeCtr } := ⟨_, rfl, rfl⟩
  have hrun : s.handoff = u.srb aSYS_CORE_STATUS 2 true := by
    rw [← hu]
    rfl
  have honly : RegsOnly u (u.srb aSYS_CORE_STATUS 2 true) := regsOnly_setReg ..
  have hregs : RegsBut [aSYS_CORE_STATUS] u (u.srb aSYS_CORE_STATUS 2 true) := regsBut_srb u (by simp) 2 true
  have husame : u.regs = s.regs := by rw [huregs]
  generalize u.srb aSYS_CORE_STATUS 2 true = t at *
  refine ⟨t, hrun, ?_, RegsBut.trans (t := u) (regsBut_of_regs husame _) hregs⟩
  unfold RegsOnly at honly
  rw [huregs] at honly
  rw [honly]

theorem hashJobs_counts (s : State) (n : Nat) : RegsOnly s (s.hashJobs n) ∧ RegsBut [aHSH_COUNT] s (s.hashJobs n) := by
  refine ⟨(regsOnly_setReg ..).trans (regsOnly_evt ..), RegsBut.trans (t := s.bump aHSH_COUNT 15 0 n) ?_ ?_⟩
  · exact regsBut_bump s (by simp) 15 0 n
  · exact regsBut_evt _ _ (by decide) 0x03 n

/-- The state that the new Peat image starts with, before the advance of its counter. -/
def peatSwapped (w : State) (slot version : Nat) (body : Bytes) (foot : Nat) : State :=
  let s := (((w.memWrite 0x10000000 body).setRunning 1 slot version).guardFlash.srb aSYS_CORE_STATUS 2 false).hashJobs
    (digestJobs body.length)
  { s with peat := { s.peat with peatFoot := foot, residents := [] } }

theorem peatSwapped_runs (w : State) (slot version : Nat) (body : Bytes) (foot : Nat) :
    ∃ t, peatSwapped w slot version body foot = t ∧
      t = { w with regs := t.regs, mem := t.mem, peat := t.peat, cfg := t.cfg } ∧ t.peat.serving = w.peat.serving ∧
      tfind t.peat.runVersion 1 = some (w32 version) ∧ tfind t.peat.runSlot 1 = some slot ∧ tfind t.peat.staged 1 = none ∧
      t.peat.residents = [] ∧ t.peat.peatFoot = foot ∧ t.rb aSYS_CORE_STATUS 2 = false ∧ RegsBut [aSYS_CORE_STATUS, aHSH_COUNT] w t := by
  obtain ⟨u, hu, huonly, hserving, hversion, hslot, hstaged⟩ : ∃ u, ((w.memWrite 0x10000000 body).setRunning 1 slot version).guardFlash = u ∧
      u = { w with mem := u.mem, peat := u.peat, cfg := u.cfg } ∧ u.peat.serving = w.peat.serving ∧
      tfind u.peat.runVersion 1 = some (w32 version) ∧ tfind u.peat.runSlot 1 = some slot ∧ tfind u.peat.staged 1 = none :=
    ⟨_, rfl, rfl, rfl, tfind_tput_same .., tfind_tput_same .., tfind_tdel_same ..⟩
  have hbonly : RegsOnly u (u.srb aSYS_CORE_STATUS 2 false) := regsOnly_setReg ..
  have hbregs : RegsBut [aSYS_CORE_STATUS] u (u.srb aSYS_CORE_STATUS 2 false) := regsBut_srb u (by simp) 2 false
  have hbit : (u.srb aSYS_CORE_STATUS 2 false).rb aSYS_CORE_STATUS 2 = false := rb_srb_same _ _ (by decide) false
  unfold peatSwapped
  rw [hu]
  generalize u.srb aSYS_CORE_STATUS 2 false = v at *
  obtain ⟨hjonly, hjregs⟩ := hashJobs_counts v (digestJobs body.length)
  generalize v.hashJobs (digestJobs body.length) = x at *
  have huregs : u.regs = w.regs := by rw [huonly]
  have hxpeat : x.peat = u.peat := hjonly.peat.trans hbonly.peat
  refine ⟨_, rfl, ?_, ?_, ?_, ?_, ?_, rfl, rfl, ?_, ?_⟩
  · have hx := hbonly.trans hjonly
    unfold RegsOnly at hx
    rw [huonly] at hx
    rw [hx]
  · show x.peat.serving = _
    rw [hxpeat]
    exact hserving
  · show tfind x.peat.runVersion 1 = _
    rw [hxpeat]
    exact hversion
  · show tfind x.peat.runSlot 1 = _
    rw [hxpeat]
    exact hslot
  · show tfind x.peat.staged 1 = _
    rw [hxpeat]
    exact hstaged
  · show x.rb aSYS_CORE_STATUS 2 = false
    rw [State.rb, hjregs _ (by decide) (by unfold Counted; decide)]
    exact hbit
  · exact RegsBut.trans (t := u) (regsBut_of_regs huregs _) (RegsBut.trans (t := v) (RegsBut.mono hbregs (by simp))
      (RegsBut.trans (t := x) (RegsBut.mono hjregs (by simp)) (regsBut_of_regs rfl _)))

theorem peatSwap_swaps {s : State} {v : Serving} {slot : Nat} {version : Word} {d : Bytes} (h : Waits s v .peatSwap)
    (happlet : s.peat.applet = none) (hwave : s.rel.wave = false) (hrelease : s.releaseWaits = false)
    (hstaged : tfind s.peat.staged 1 = some (slot, version, d))
    (hdigest : shakeH (s.flashRead (s.imageAt 1 slot + 64) (min 57344 (le32 (s.flashRead (s.imageAt 1 slot) 64) 0xC))) 32 = d) :
    ∃ t, peatSwap s = t ∧ Answers t v.op v.reqId cOk [] ∧ tfind t.peat.runVersion 1 = some (w32 version.toNat) ∧
      tfind t.peat.runSlot 1 = some slot ∧ tfind t.peat.staged 1 = none ∧ t.peat.residents = [] ∧
      t.peat.peatFoot = le32 (s.flashRead (s.imageAt 1 slot) 64) 0x10 ∧ t.rb aSYS_CORE_STATUS 2 = false ∧
      RegsBut (aSYS_CORE_STATUS :: aHSH_COUNT :: fenceRegs) s t ∧ t.flash = s.flash := by
  obtain ⟨w, hw, hwonly, hwregs⟩ := handoff_only s
  have himage : w.imageAt 1 slot = s.imageAt 1 slot := by
    rw [hwonly]
    rfl
  have hread : ∀ a n, w.flashRead a n = s.flashRead a n := fun a n => by
    rw [hwonly]
    rfl
  obtain ⟨x, hx, hxonly, hserving, hversion, hslot, hstage, hres, hfoot, hbit, hxregs⟩ := peatSwapped_runs w slot version.toNat
    (s.flashRead (s.imageAt 1 slot + 64) (min 57344 (le32 (s.flashRead (s.imageAt 1 slot) 64) 0xC)))
    (le32 (s.flashRead (s.imageAt 1 slot) 64) 0x10)
  obtain ⟨y, hy, hyonly⟩ := advanceNow_only x 1 (s.flashRead (s.imageAt 1 slot) 64)
  have hrun : peatSwap s = y.replyCode cOk := by
    obtain ⟨hserv, hwaits, -⟩ := h
    unfold peatSwap
    rw [hserv]
    dsimp only
    rw [hwaits]
    dsimp only
    rw [if_neg (by rw [happlet, hwave, hrelease]; decide), hstaged]
    dsimp only
    unfold State.swapPeat
    rw [hw]
    dsimp only
    rw [himage, hread, hread, if_neg (not_not_intro hdigest), ← hy, ← hx]
    rfl
  have hyregs : y.regs = x.regs := by rw [hyonly]
  have hwx : RegsBut [aSYS_CORE_STATUS, aHSH_COUNT] s y := RegsBut.trans (t := w) (RegsBut.mono hwregs (by simp))
    (RegsBut.trans (t := x) hxregs (regsBut_of_regs hyregs _))
  have hypeat : y.peat = x.peat := by rw [hyonly]
  have hr := replyCode_waits h (w := y) (by rw [hypeat, hserving, hwonly]; exact h.1)
    (by rw [State.lane, hyonly, hxonly, hwonly]; rfl) (hwx _ (by decide) (by unfold Counted; decide)) cOk
  rw [← hrun] at hr
  generalize peatSwap s = t at *
  have htpeat : t.peat = { y.peat with serving := none, fences := 0 } := by rw [hr.only]
  refine ⟨t, rfl, hr.waitAnswers, ?_, ?_, ?_, ?_, ?_, ?_, ?_, ?_⟩
  · rw [htpeat, hypeat]; exact hversion
  · rw [htpeat, hypeat]; exact hslot
  · rw [htpeat, hypeat]; exact hstage
  · rw [htpeat, hypeat]; exact hres
  · rw [htpeat, hypeat]; exact hfoot
  · rw [State.rb, hr.regs _ (not_fence (by decide)) (by unfold Counted; decide), reg_congr hyregs]
    exact hbit
  · exact RegsBut.trans (t := y) (RegsBut.mono hwx (by simp))
      (RegsBut.mono hr.regs fun a ha => List.mem_cons_of_mem _ (List.mem_cons_of_mem _ ha))
  · rw [hr.view (·.flash) fun _ _ _ _ _ => rfl, hyonly, hxonly, hwonly]

theorem swapTimeout_aborts {s : State} {v : Serving} (h : Waits s v .peatSwap) :
    ∃ t, swapTimeout s = t ∧ Answers t v.op v.reqId cAborted [] ∧ t.envm = s.envm ∧ t.peat.staged = s.peat.staged ∧
      t.peat.runVersion = s.peat.runVersion ∧ RegsBut fenceRegs s t ∧ BytesKept s t := by
  have hr := replyCode_waits h h.1 rfl rfl cAborted
  have hrun : swapTimeout s = s.replyCode cAborted := by
    obtain ⟨hserv, hwaits, -⟩ := h
    unfold swapTimeout
    rw [hserv]
    dsimp only
    rw [hwaits]
  rw [← hrun] at hr
  exact ⟨_, rfl, hr.waitAnswers, hr.view (·.envm) fun _ _ _ _ _ => rfl, by rw [hr.only], by rw [hr.only], hr.regs, hr.bytes⟩

/-- Settles O14: replacements, images and the swap. -/
theorem replacementsAndImages : Obligations.ReplacementsAndImages := by
  unfold Obligations.ReplacementsAndImages
  refine ⟨fun s v slot key version body h hkey hheld => ?commit, fun s v slot key version body h hheld => ?drain,
    fun s p slot version d h htype hstaged => ?sedge, fun s p x h htype hstaged => ?peat, fun s p h htype => ?confirm,
    fun s v slot version d h happlet hwave hrelease hstaged hdigest => ?swap, fun s v h => ?timeout⟩
  case commit =>
    obtain ⟨t, ht, hrest⟩ := replacementCommit_commits h hkey hheld
    exact ⟨t, congrArg done ht, hrest⟩
  case drain =>
    obtain ⟨t, ht, hrest⟩ := drainTimeout_erases h hheld
    exact ⟨t, congrArg done ht, hrest⟩
  case sedge =>
    obtain ⟨u, hu, hrun, -⟩ := mailOp_serves h rfl (by decide) (mine := anyArgs) rfl imageActivate
    obtain ⟨t, ht, hreplies, hversion, hslot, hstage, hreload, hruns, hregs, hbytes⟩ := imageActivate_sedge h hu htype hstaged
    rw [ht] at hrun
    exact ⟨_, congrArg done hrun, hreplies, hversion, hslot, hstage, hreload, hruns, RegsBut.trans hregs (regsBut_of_regs rfl _),
      BytesKept.trans hbytes (bytesKept_of_eq rfl rfl)⟩
  case peat =>
    obtain ⟨u, hu, hrun, -⟩ := mailOp_serves h rfl (by decide) (mine := anyArgs) rfl imageActivate
    obtain ⟨t, ht, hserving, hstage, hregs, hbytes⟩ := imageActivate_peat hu htype hstaged
    rw [ht] at hrun
    exact ⟨_, congrArg done hrun, hserving, hstage, RegsBut.trans hregs (regsBut_of_regs rfl _),
      BytesKept.trans hbytes (bytesKept_of_eq rfl rfl)⟩
  case confirm =>
    obtain ⟨u, hu, hrun, -⟩ := mailOp_serves h rfl (by decide) (mine := anyArgs) rfl imageConfirm
    obtain ⟨t, ht, harb, htrial, hreplies, hregs, hbytes⟩ := imageConfirm_confirms h hu rfl htype
    rw [ht] at hrun
    exact ⟨_, congrArg done hrun, harb, htrial, hreplies, RegsBut.trans hregs (regsBut_of_regs rfl _),
      BytesKept.trans hbytes (bytesKept_of_eq rfl rfl)⟩
  case swap =>
    obtain ⟨t, ht, hrest⟩ := peatSwap_swaps h happlet hwave hrelease hstaged hdigest
    exact ⟨t, congrArg done ht, hrest⟩
  case timeout =>
    obtain ⟨t, ht, hrest⟩ := swapTimeout_aborts h
    exact ⟨t, congrArg done ht, hrest⟩

end Proofs
end Sys2Proof

/-! PROOFS. The debug requests: challenge, password, and what expires (R96, R98). -/
namespace Sys2Proof
namespace Proofs

open Sys2Proof.Machine Sys2Proof.Safety Sys2Proof.Laws

/-! ### DEBUG_CHALLENGE (R96) -/

theorem length_challengeBody {b : Bytes} (hb : b.length = 32) : (challengeBody b).length = 48 := by
  unfold challengeBody
  rw [List.length_append, length_toLE, hb]

theorem debugChallenge_answers {s u : State} {p : Packet} {d : Bytes} (h : MailTakes s 0x51 p) (hu : Served s u p)
    (hd : s.servedTo .peat = some (cOk, d)) :
    ∃ t, debugChallenge (mailServing p) u = t ∧ t.peat.nonce = some (slice d 0 32) ∧
      Replies (t.pruneGens p) p cOk (toLE 16 Config.deviceId.toNat ++ slice d 0 32) ∧ t.envm = s.envm ∧ RegsBut fenceRegs s t ∧
      BytesKept s t := by
  have hdu : u.servedTo .peat = some (cOk, d) := (hu.view (·.servedTo .peat) fun _ _ _ _ => rfl).trans hd
  obtain ⟨w, hw, hwonly, hwpeat⟩ : ∃ w, (u.forgetDraw .peat).giveNonce (slice d 0 32) = w ∧ w = { u with trng := w.trng, peat := w.peat } ∧
      w.peat = { u.peat with nonce := some (slice d 0 32) } := ⟨_, rfl, rfl, rfl⟩
  have hrun : debugChallenge (mailServing p) u = w.reply cOk (challengeBody (slice d 0 32)) := by
    unfold debugChallenge
    rw [peatDraw_got hdu, hw]
  have hwregs : w.regs = u.regs := by rw [hwonly]
  have hr := reply_after (status := cOk) (body := challengeBody (slice d 0 32)) h (w := w) (by rw [hwpeat]; exact hu.serving)
    ⟨_, by rw [State.lane, hwonly]; exact hu.lanes 31 (by decide)⟩ ((reg_congr hwregs _).trans hu.cfg15)
    (by rw [length_challengeBody (length_slice ..)]; exact le_refl 13)
  rw [← hrun] at hr
  generalize debugChallenge (mailServing p) u = t at *
  have hwbytes : BytesKept u w := bytesKept_of_eq (by rw [hwonly]) (by rw [hwonly])
  refine ⟨t, rfl, ?_, hr.answers p, ?_, RegsBut.trans (t := u) hu.regs (RegsBut.trans (t := w) (regsBut_of_regs hwregs _) hr.regs),
    BytesKept.trans hu.bytes (BytesKept.trans hwbytes hr.bytes)⟩
  · rw [hr.only]
    show w.peat.nonce = _
    rw [hwpeat]
  · rw [hr.view (·.envm) fun _ _ _ _ _ => rfl, hwonly]
    exact hu.view (·.envm) fun _ _ _ _ => rfl

theorem debugChallenge_waits {s u : State} {p : Packet} (hu : Served s u p) (hd : s.servedTo .peat = none) (hfail : s.rngFailed = false) :
    ∃ t, debugChallenge (mailServing p) u = t ∧
      (t.peat.serving).map (fun v => (v.op, v.waiting)) = some ((mailServing p).op, .draw []) ∧ t.drawWaits .peat = true ∧
      t.peat.nonce = s.peat.nonce ∧ t.envm = s.envm ∧ RegsBut fenceRegs s t ∧ BytesKept s t := by
  have hdu : u.servedTo .peat = none := (hu.view (·.servedTo .peat) fun _ _ _ _ => rfl).trans hd
  have hfail' : u.rngFailed = false := by
    rw [State.rngFailed, State.rf, hu.reg (not_fence (by decide)) (by unfold Counted; decide)]
    exact hfail
  obtain ⟨l, hrun, hwaits⟩ := peatDraw_waits hdu hfail' 32 [] (fun c s => s.replyCode c) fun b s => (s.giveNonce b).reply cOk (challengeBody b)
  have hnonce : u.peat.nonce = s.peat.nonce := by rw [hu.only]
  refine ⟨_, hrun, ?_, hwaits, hnonce, hu.view (·.envm) fun _ _ _ _ => rfl, RegsBut.trans hu.regs (regsBut_of_regs rfl _),
    BytesKept.trans hu.bytes (bytesKept_of_eq rfl rfl)⟩
  show (Option.map (fun v => { v with waiting := Waiting.draw [] }) u.peat.serving).map (fun v => (v.op, v.waiting)) = _
  rw [hu.serving]
  rfl

theorem jtagChallenge_answers {s : State} {d : Bytes} (hfree : s.jtagFree = true) (hd : s.servedTo .jtag = some (cOk, d)) :
    jtagChallenge s = ((s.forgetDraw .jtag).giveNonce (slice d 0 32)).jtagAnswer (challengeBody (slice d 0 32)) := by
  unfold jtagChallenge
  rw [if_pos hfree]
  unfold State.jtagNonce State.draw
  rw [hd]
  rfl

theorem jtagChallenge_waits {s : State} (hfree : s.jtagFree = true) (hd : s.servedTo .jtag = none) (hfail : s.rngFailed = false) :
    ∃ l, jtagChallenge s = (s.setCallers l).jtagWaits [] ∧ (s.setCallers l).drawWaits .jtag = true := by
  unfold jtagChallenge
  rw [if_pos hfree]
  unfold State.jtagNonce State.draw
  rw [hd, hfail]
  cases hw : s.drawWaits .jtag with
  | true => exact ⟨s.trng.reqs, rfl, hw⟩
  | false => exact ⟨_, rfl, by simp [State.drawWaits, State.setCallers, drawsFor]⟩

/-! ### DEBUG_PASSWORD (R98) -/

theorem debugPassword_opens {s u : State} {p : Packet} {pol b : Bytes} (h : MailTakes s 0x52 p) (hu : Served s u p)
    (hfences : u.peat.fences ≠ 0) (hpol : s.policy 5 = some pol) (hlock : s.pwdLocked = false) (hmin : 8 ≤ (mailArg p 1).toNat)
    (hmax : (mailArg p 1).toNat ≤ 64) (hb : Holds s (mailArg p 0) (mailArg p 1) b)
    (hdigest : shakeH (pol.take 16 ++ b) 32 = slice pol 16 32) :
    ∃ t, debugPassword (mailServing p) u = t ∧ t.peat.debugLevel = max 1 s.peat.debugLevel ∧
      t.envm = { s.envm with pwdFails := 0 } ∧ Replies (t.pruneGens p) p cOk [] ∧ RegsBut fenceRegs s t ∧ BytesKept s t := by
  have hpol' : u.policy 5 = some pol := (hu.view (·.policy 5) fun _ _ _ _ => rfl).trans hpol
  have hlock' : u.pwdLocked = false := (hu.view (·.pwdLocked) fun _ _ _ _ => rfl).trans hlock
  have hlevel : u.peat.debugLevel = s.peat.debugLevel := by rw [hu.only]
  have henvm : u.envm = s.envm := hu.view (·.envm) fun _ _ _ _ => rfl
  obtain ⟨w, hw, hwonly, hwpeat, hwenvm⟩ : ∃ w, (u.openLevel (max 1 s.peat.debugLevel)).clearFails = w ∧
      w = { u with peat := w.peat, envm := w.envm } ∧ w.peat = { u.peat with debugLevel := max 1 s.peat.debugLevel } ∧
      w.envm = { u.envm with pwdFails := 0 } := ⟨_, rfl, rfl, rfl, rfl⟩
  have hargs : (mailServing p).args = (packetWords p).drop 1 := rfl
  have hrun : debugPassword (mailServing p) u = w.reply cOk [] := by
    unfold debugPassword
    dsimp only
    rw [hargs, wordAt_args, wordAt_args, if_neg hb.1, hpol']
    dsimp only
    rw [hlock', if_neg (by decide), if_neg (by omega), buffer_holds hu hfences hb]
    dsimp only
    rw [if_pos hdigest, hlevel, hw]
    rfl
  have hwregs : w.regs = u.regs := by rw [hwonly]
  have hr := reply_after (status := cOk) (body := []) h (w := w) (by rw [hwpeat]; exact hu.serving)
    ⟨_, by rw [State.lane, hwonly]; exact hu.lanes 31 (by decide)⟩ ((reg_congr hwregs _).trans hu.cfg15) (le_refl 1)
  rw [← hrun] at hr
  generalize debugPassword (mailServing p) u = t at *
  have hwbytes : BytesKept u w := bytesKept_of_eq (by rw [hwonly]) (by rw [hwonly])
  refine ⟨t, rfl, ?_, ?_, hr.answers p, RegsBut.trans (t := u) hu.regs (RegsBut.trans (t := w) (regsBut_of_regs hwregs _) hr.regs),
    BytesKept.trans hu.bytes (BytesKept.trans hwbytes hr.bytes)⟩
  · rw [hr.only]
    show w.peat.debugLevel = _
    rw [hwpeat]
  · rw [hr.view (·.envm) fun _ _ _ _ _ => rfl, hwenvm, henvm]

/-- The fences of the buffer of a password are held. -/
theorem fences_of_held {s u : State} {p : Packet} {op : Nat} {a n : Word} {b : Bytes} (hhead : s.headPacket 15 = some p)
    (heq : u = { (s.takeHead 15).holdArgs op ((packetWords p).drop 1) with
      peat := { ((s.takeHead 15).holdArgs op ((packetWords p).drop 1)).peat with serving := some (mailServing p) } })
    (hargs : (s.takeHead 15).holdArgs op ((packetWords p).drop 1) = (s.takeHead 15).holdBuffer a n) (hb : Holds s a n b) :
    u.peat.fences ≠ 0 := by
  obtain ⟨hn, hlo, hhi, -, hfree⟩ := hb
  rw [heq, hargs]
  exact holdBuffer_holds (s := s.takeHead 15) hn hlo hhi (fences_free_takeHead hhead hfree)

/-- Settles O15: the debug challenge by both mailboxes, the password, and what expires. -/
theorem debugRequests : Obligations.DebugRequests := by
  unfold Obligations.DebugRequests
  refine ⟨fun s p d h hd => ?answers, fun s p h hd hfail => ?waits, fun s d hfree hd => ?jtag, fun s hfree hd hfail => ?jtagWaits,
    fun s p pol b h hpol hlock hmin hmax hb hdigest => ?password, fun s => ?nonce, fun s => ?lock⟩
  case answers =>
    obtain ⟨u, hu, hrun, -⟩ := mailOp_serves h rfl (by decide) (mine := anyArgs) rfl debugChallenge
    obtain ⟨t, ht, hnonce, hreplies, henvm, hregs, hbytes⟩ := debugChallenge_answers h hu hd
    rw [ht] at hrun
    exact ⟨_, congrArg done hrun, hnonce, hreplies, henvm, RegsBut.trans hregs (regsBut_of_regs rfl _),
      BytesKept.trans hbytes (bytesKept_of_eq rfl rfl)⟩
  case waits =>
    obtain ⟨u, hu, hrun, -⟩ := mailOp_serves h rfl (by decide) (mine := anyArgs) rfl debugChallenge
    obtain ⟨t, ht, hserving, hwaits, hnonce, henvm, hregs, hbytes⟩ := debugChallenge_waits hu hd hfail
    rw [ht] at hrun
    obtain ⟨-, -, -, hop, -⟩ := h
    exact ⟨_, congrArg done hrun, hserving.trans (by rw [mailServing, hop]), hwaits, hnonce, henvm,
      RegsBut.trans hregs (regsBut_of_regs rfl _), BytesKept.trans hbytes (bytesKept_of_eq rfl rfl)⟩
  case jtag => exact ⟨_, congrArg done (jtagChallenge_answers hfree hd), rfl, rfl, rfl, rfl, rfl, bytesKept_of_eq rfl rfl⟩
  case jtagWaits =>
    obtain ⟨l, hrun, hwaits⟩ := jtagChallenge_waits hfree hd hfail
    exact ⟨_, congrArg done hrun, rfl, hwaits, rfl, rfl, rfl, bytesKept_of_eq rfl rfl⟩
  case password =>
    obtain ⟨u, hu, hrun, heq⟩ := mailOp_serves h rfl (by decide) (mine := anyArgs) rfl debugPassword
    have hargs : (s.takeHead 15).holdArgs 0x52 ((packetWords p).drop 1) = (s.takeHead 15).holdBuffer (mailArg p 0) (mailArg p 1) := by
      rw [← wordAt_args, ← wordAt_args]
      rfl
    obtain ⟨t, ht, hlevel, henvm, hreplies, hregs, hbytes⟩ :=
      debugPassword_opens h hu (fences_of_held h.1 heq hargs hb) hpol hlock hmin hmax hb hdigest
    rw [ht] at hrun
    exact ⟨_, congrArg done hrun, hlevel, henvm, hreplies, RegsBut.trans hregs (regsBut_of_regs rfl _),
      BytesKept.trans hbytes (bytesKept_of_eq rfl rfl)⟩
  case nonce => exact ⟨_, rfl, rfl, rfl, rfl, rfl, bytesKept_of_eq rfl rfl⟩
  case lock => exact ⟨_, rfl, rfl, rfl, rfl, rfl, bytesKept_of_eq rfl rfl⟩

end Proofs
end Sys2Proof

/-! PROOFS. A BY_TOKEN without its TID word (R77, R263): a state that refutes O16. The statement asks for no third argument word. -/
namespace Sys2Proof
namespace Proofs

open Sys2Proof.Machine Sys2Proof.Safety Sys2Proof.Laws

/-- BY_TOKEN on channel 5 for a token of class 3, with two argument words. -/
def byTokenWithoutTid : Packet := wordsPacket 0 1 [0x12000000, 5, 0x02000003]

/-- A resumed unit whose Peat can take the request: entry 0 has just authorised an enrolment, slot 12 holds the group key, and
channel 5 is one of the LF front end. -/
def asksWithoutTid : State :=
  let s := { State.reset with power := { Power.reset with mode := .resumed, sedgeRuns := true } }
  { (((s.srf (aCHN_STATUS 127) 1 0 1).srf (aCHN_BIND 5) 3 0 1).srf (aCHN_QUEUES 5) 7 4 1).setLane 15
      { laneNil with committed := [byTokenWithoutTid] } with
    envm := { Envm.reset with lcs := 2, entries := [(0, ⟨true, true, 3, 0, 7, 0x10, 0, zeros 16⟩)] }
    peat := { Peat.reset with authOk := [⟨0, 0, 0, 0, 7, false⟩] }
    slots := [(12, ⟨0, 0, false, false, 0x01, 1, zeros 16, []⟩)] }

theorem takes_asksWithoutTid : MailTakes asksWithoutTid 0x12 byTokenWithoutTid := by decide +kernel

theorem asks_asksWithoutTid : fld (mailArg byTokenWithoutTid 1) 31 8 = 0x020000 ∧ (mailArg byTokenWithoutTid 0).toNat < 124 ∧
    fld (mailArg byTokenWithoutTid 1) 7 0 = 3 ∧ asksWithoutTid.feClass (mailArg byTokenWithoutTid 0).toNat = 1 ∧
    asksWithoutTid.isLocked (.cls 0) = false ∧ asksWithoutTid.authorising = some 0x10 ∧
    asksWithoutTid.entryByTid (mailArg byTokenWithoutTid 2) = none ∧ asksWithoutTid.freeEntry ≠ none := by decide +kernel

theorem key_asksWithoutTid : asksWithoutTid.key 12 = some ⟨0, 0, false, false, 0x01, 1, zeros 16, []⟩ := by decide +kernel

theorem works_asksWithoutTid : PeatWorks asksWithoutTid 127 := by decide +kernel

theorem room_asksWithoutTid : asksWithoutTid.freeSession = some 0 ∧
    asksWithoutTid.openCount (asksWithoutTid.rf (aCHN_QUEUES (mailArg byTokenWithoutTid 0).toNat) 3 0) < 8 ∧
    asksWithoutTid.rf (aCHN_QUEUES (mailArg byTokenWithoutTid 0).toNat) 3 0 < 8 ∧
    asksWithoutTid.rf (aCHN_QUEUES (mailArg byTokenWithoutTid 0).toNat) 7 4 ≠
      asksWithoutTid.rf (aCHN_QUEUES (mailArg byTokenWithoutTid 0).toNat) 3 0 ∧
    2 ≤ asksWithoutTid.room (asksWithoutTid.rf (aCHN_QUEUES (mailArg byTokenWithoutTid 0).toNat) 3 0) := by decide +kernel

/-- Peat answers at once. -/
theorem serving_asksWithoutTid : (mailOp 0x12 (enrolFunc 2) byToken asksWithoutTid).peat.serving.isNone = true := by decide +kernel

/-- Refutes O16: the request has no word for the TID, and is answered AUTH_FAIL. -/
theorem not_enrolmentRequests : ¬ Obligations.EnrolmentRequests := by
  unfold Obligations.EnrolmentRequests
  rintro ⟨-, -, -, -, h, -⟩
  obtain ⟨hform, hch, hcls, hfe, hlock, hauth, htid, hfree⟩ := asks_asksWithoutTid
  obtain ⟨hses, hopen, hq, hne, hroom⟩ := room_asksWithoutTid
  obtain ⟨t, ht, hwaits, -⟩ := h asksWithoutTid byTokenWithoutTid 0x10 _ 0 takes_asksWithoutTid hform hch (.inl hcls) hfe hlock hauth htid
    hfree key_asksWithoutTid works_asksWithoutTid hses hopen hq hne rfl hroom
  have hstep : t = mailOp 0x12 (enrolFunc 2) byToken asksWithoutTid := (Host.Outcome.next.inj ht).symm
  rw [hstep, Option.isNone_iff_eq_none.mp serving_asksWithoutTid] at hwaits
  exact nomatch hwaits

end Proofs
end Sys2Proof

/-! PROOFS. A KEY_IMPORT whose anchor was never written (R77, R104, R300): a state that refutes O59. Peat's job that fails leaves its
status as the last failure of CH127, a register that the statement does not list. -/
namespace Sys2Proof
namespace Proofs

open Sys2Proof.Machine Sys2Proof.Safety Sys2Proof.Laws

/-- An import record for slot 40 with right fields: a key of type 1, no use, for this device. -/
def importRecord : Bytes := [1, 1, 40, 0, 0, 0, 0, 0] ++ (toLE 16 Config.deviceId.toNat ++ zeros 2964)

/-- KEY_IMPORT of that record. -/
def importRequest : Packet := wordsPacket 0 1 [0x31000012, 40, 0x20000000, 2988]

/-- A resumed unit without signature anchors, whose Sedge SRAM holds the record. -/
def importsUnanchored : State :=
  let s := { State.reset with power := { Power.reset with mode := .resumed, sedgeRuns := true } }
  { ((s.srf (aCHN_STATUS 127) 1 0 1).setLane 15 { laneNil with committed := [importRequest] }).memWrite 0x20000000 importRecord with
    envm := { Envm.reset with lcs := 2 } }

theorem memRead_memWrite (s : State) (e : Envm) (a : Nat) (b : Bytes) :
    ({ s.memWrite a b with envm := e } : State).memRead a b.length = b := cellRead_cellWrite ..

theorem length_importRecord : importRecord.length = 2988 := by
  unfold importRecord zeros
  rw [List.length_append, List.length_append, length_toLE, List.length_replicate]
  rfl

/-- A slice within a string has no padding. -/
theorem slice_within {b : Bytes} {i n : Nat} (h : i + n ≤ b.length) : slice b i n = (b.drop i).take n := by
  have hlen : n - ((b.drop i).take n).length = 0 := by
    rw [List.length_take, List.length_drop]
    omega
  unfold slice
  dsimp only
  rw [hlen]
  exact List.append_nil _

/-- Behind its first 24 bytes the record is zero. -/
theorem zeroAt_importRecord {i n : Nat} (hi : 24 ≤ i) (hn : i + n ≤ 2988) : zeroAt importRecord i n = true := by
  have hlen : ([1, 1, 40, 0, 0, 0, 0, 0] ++ toLE 16 Config.deviceId.toNat).length = 24 := by
    rw [List.length_append, length_toLE]
    rfl
  unfold zeroAt
  rw [decide_eq_true_eq, slice_within (length_importRecord ▸ hn)]
  unfold importRecord zeros
  rw [← List.append_assoc, List.drop_append, List.drop_eq_nil_of_le (hlen ▸ hi), List.nil_append, hlen, List.drop_replicate,
    List.take_replicate, Nat.min_eq_left (by omega)]

theorem device_importRecord : slice importRecord 8 16 = toLE 16 Config.deviceId.toNat := by
  rw [slice_within (length_importRecord ▸ by decide)]
  unfold importRecord
  rw [List.drop_left' (by rfl), List.take_left' (length_toLE ..)]

theorem fields_importRecord : importFields 40 importRecord = true := by
  have hhead : ∀ k, k < 8 → byteAt importRecord k = byteAt [1, 1, 40, 0, 0, 0, 0, 0] k := by
    intro k hk
    unfold byteAt importRecord
    rw [List.getD_append _ _ _ _ (by simpa using hk)]
  have hstart : zeroAt importRecord 5 3 = true := by
    unfold zeroAt
    rw [slice_within (length_importRecord ▸ by decide)]
    unfold importRecord
    rw [List.drop_append_of_le_length (by decide), List.take_append_of_le_length (by decide)]
    decide
  unfold importFields
  rw [hhead 0 (by decide), hhead 1 (by decide), hhead 2 (by decide), hhead 3 (by decide), hhead 4 (by decide), hstart,
    device_importRecord, zeroAt_importRecord (by decide) (by decide), decide_eq_true (rfl : toLE 16 Config.deviceId.toNat = _)]
  dsimp only
  rw [zeroAt_importRecord (by decide) (by decide)]
  decide

theorem takes_importsUnanchored : MailTakes importsUnanchored 0x31 importRequest := by decide +kernel

theorem works_importsUnanchored : PeatWorks importsUnanchored 127 := by decide +kernel

theorem args_importRequest : mailArg importRequest 0 = 40 ∧ mailArg importRequest 1 = 0x20000000 ∧ mailArg importRequest 2 = 2988 := by
  decide +kernel

theorem holds_importsUnanchored : Holds importsUnanchored (mailArg importRequest 1) (mailArg importRequest 2) importRecord := by
  obtain ⟨-, ha, hlen⟩ := args_importRequest
  have hread : importsUnanchored.memRead 0x20000000 2988 = importRecord := length_importRecord ▸ memRead_memWrite ..
  rw [ha, hlen]
  exact ⟨by decide, by decide, by decide, hread, by decide +kernel⟩

/-- The unit once Peat has taken the request. -/
def importTaken : State :=
  { (importsUnanchored.takeHead 15).holdArgs 0x31 ((packetWords importRequest).drop 1) with
    peat := { ((importsUnanchored.takeHead 15).holdArgs 0x31 ((packetWords importRequest).drop 1)).peat with
      serving := some (mailServing importRequest) } }

/-- The verification of the signature, as Peat's job of CH127. -/
def importVerified : Byte × State := importTaken.peatJobs 127 [(hshJob 5 false).ending cKeyEmpty]

theorem fences_importTaken : importTaken.peat.fences ≠ 0 ∧ tfind importTaken.envm.anchors 2 = none := by decide +kernel

theorem fails_importVerified : isFail importVerified.1 = true ∧
    ((importVerified.2.replyCode importVerified.1).pruneGens importRequest).rf (aCHN_STATUS 127) 15 8 ≠
      importsUnanchored.rf (aCHN_STATUS 127) 15 8 := by decide +kernel

/-- A job of Peat's that fails ends what it is part of. -/
theorem withJobs_fails {s : State} {ch : Nat} {l : List PeatJob} (h : isFail (s.peatJobs ch l).1 = true)
    {fail : Byte → State → State} (go : State → State) :
    s.withJobs ch l fail go = fail (s.peatJobs ch l).1 (s.peatJobs ch l).2 := if_pos h

/-- The anchor was never written: the request ends with the code of the verification. -/
theorem keyImport_importTaken (hb : importTaken.buffer (mailArg importRequest 1) (mailArg importRequest 2) = some importRecord) :
    keyImport (mailServing importRequest) importTaken = importVerified.2.replyCode importVerified.1 := by
  obtain ⟨hn, -, hlen⟩ := args_importRequest
  have hsig : ∀ sig msg, importTaken.sigCode 2 sig msg = cKeyEmpty := by
    intro sig msg
    unfold State.sigCode State.anchorVerify
    rw [fences_importTaken.2]
  have hargs : ∀ k, wordAt (mailServing importRequest).args k = mailArg importRequest k := wordAt_args importRequest
  unfold keyImport
  dsimp only
  rw [hargs, hargs, hargs, hb, if_neg (by rw [hlen]; decide)]
  dsimp only
  rw [hsig, hlen, hn, show (40 : Word).toNat = 40 from rfl, fields_importRecord, if_neg (by decide)]
  exact withJobs_fails fails_importVerified.1 _

/-- Refutes O59: the failed verification stands in CHN_STATUS of CH127. -/
theorem not_signedMaterial : ¬ Obligations.SignedMaterial := by
  unfold Obligations.SignedMaterial
  rintro ⟨-, -, -, h, -⟩
  obtain ⟨t, ht, -, -, -, -, hregs, -⟩ := h importsUnanchored importRequest importRecord takes_importsUnanchored holds_importsUnanchored
    args_importRequest.2.2 works_importsUnanchored
  obtain ⟨u, hu, hrun, htaken⟩ := mailOp_serves takes_importsUnanchored rfl (by decide) (mine := anyArgs) rfl keyImport
  have hu' : u = importTaken := htaken
  subst hu'
  have hstep : t = (keyImport (mailServing importRequest) importTaken).pruneGens importRequest :=
    (Host.Outcome.next.inj ht).symm.trans hrun
  have hstatus := rf_of_regsBut (a := aCHN_STATUS 127) hregs (by decide) (by unfold Counted; decide) 15 8
  rw [hstep, keyImport_importTaken (buffer_holds hu fences_importTaken.1 holds_importsUnanchored)] at hstatus
  exact fails_importVerified.2 hstatus

end Proofs
end Sys2Proof

/-! PROOFS. Applet calls: their start, their services and their ends (R86, R87, R90). -/
namespace Sys2Proof
namespace Proofs

open Sys2Proof.Machine Sys2Proof.Safety Sys2Proof.Laws

/-! ### A call starts -/

/-- A call of a resident applet runs with its words. -/
theorem beginCall_resident {s : State} {n : Nat} {b : Bytes} (hn : n ≤ 7) (hsect : s.sect 0xA n = some b)
    (hresident : (s.peat.residents.any fun r => decide (r.inst = n)) = true) (id : Option (BitVec 16)) (chan : Nat) (args : List Word) :
    ∃ q, s.beginCall n id chan args = (cOk, { s with peat := q }) ∧
      q.applet = some ⟨n, id, chan, args, cOk, [], s.memRead (persistAddr n) 0x200⟩ := by
  unfold State.beginCall
  dsimp only
  rw [if_neg (by rw [hsect]; exact not_or.mpr ⟨by omega, nofun⟩), if_pos hresident, if_neg (not_not.mpr rfl)]
  exact ⟨_, rfl, rfl⟩

/-- No decision waits that a call of Q14 would be ahead of. -/
theorem aheadLess_idle {s : State} (h : s.peat.serving = none) : s.aheadLess = s := by
  have hpeat : ({ s.peat with serving := none } : Peat) = s.peat := by rw [← h]
  unfold State.aheadLess
  rw [h]
  exact congrArg (fun q => ({ s with peat := q } : State)) hpeat

section
variable {s : State} {p : Packet} {b : Bytes} (hhead : s.headPacket 14 = some p) (hwhole : packetBroken p = false)
  (hserving : s.peat.serving = none) (hmail : s.mailbox 14 = true) (hroom : 5 ≤ s.room 30) (hzero : fld (jobWord p 0) 23 16 = 0)
  (hlcs : s.envm.lcs ≠ 5) (hn : fld (jobWord p 0) 31 24 ≤ 7) (hsect : s.sect 0xA (fld (jobWord p 0) 31 24) = some b)
  (hresident : (s.peat.residents.any fun r => decide (r.inst = fld (jobWord p 0) 31 24)) = true)
include hhead hwhole hserving hmail hroom hzero hlcs hn hsect hresident

/-- The call at the head of Q14 starts. -/
theorem mailCall_begins : ∃ q, s.mailCall = { s.takeHead 14 with peat := q } ∧
    q.applet = some ⟨fld (jobWord p 0) 31 24, some (BitVec.ofNat 16 (fld (jobWord p 0) 15 0)), p.src, (packetWords p).drop 1, cOk, [],
      s.memRead (persistAddr (fld (jobWord p 0) 31 24)) 0x200⟩ := by
  have honly := takeHead_only s 14
  have hreplace : s.replacingApplet (fld (jobWord p 0) 31 24) = false := by
    unfold State.replacingApplet
    rw [hserving]
  have hahead : (s.takeHead 14).aheadLess = s.takeHead 14 := aheadLess_idle (by rw [honly]; exact hserving)
  have hread : ∀ a n, (s.takeHead 14).memRead a n = s.memRead a n := fun a n => by rw [honly]; rfl
  obtain ⟨q, hq, happlet⟩ := beginCall_resident (s := s.takeHead 14) hn (by rw [honly]; exact hsect) (by rw [honly]; exact hresident)
    (some (BitVec.ofNat 16 (fld (jobWord p 0) 15 0))) p.src ((packetWords p).drop 1)
  refine ⟨q, ?_, by rw [happlet, hread]⟩
  unfold State.mailCall
  rw [hhead]
  dsimp only
  rw [hmail, hreplace, if_neg (by simpa using hroom), hahead, hwhole, if_neg (by decide), hzero,
    if_neg (by rw [show (s.takeHead 14).envm = s.envm by rw [honly]]; exact not_or.mpr ⟨by decide, hlcs⟩), hq]
  exact if_pos rfl

end

theorem appletCall_starts (s : State) (p : Packet) (b : Bytes) (hhead : s.headPacket 14 = some p) (hwhole : packetBroken p = false)
    (hup : s.up .peat = true) (hserving : s.peat.serving = none) (hidle : s.peat.applet = none) (hload : s.power.reloading = false)
    (hmail : s.mailbox 14 = true) (hroom : 5 ≤ s.room 30) (hzero : fld (jobWord p 0) 23 16 = 0) (hlcs : s.envm.lcs ≠ 5)
    (hn : fld (jobWord p 0) 31 24 ≤ 7) (hsect : s.sect 0xA (fld (jobWord p 0) 31 24) = some b)
    (hresident : (s.peat.residents.any fun r => decide (r.inst = fld (jobWord p 0) 31 24)) = true) :
    ∃ t, exec .appletCall s = .next t ∧
      t.peat.applet = some ⟨fld (jobWord p 0) 31 24, some (BitVec.ofNat 16 (fld (jobWord p 0) 15 0)), p.src, (packetWords p).drop 1,
        cOk, [], s.memRead (persistAddr (fld (jobWord p 0) 31 24)) 0x200⟩ ∧
      t.envm = s.envm ∧ RegsBut [] s t ∧ BytesKept s t := by
  obtain ⟨q, hq, happlet⟩ := mailCall_begins hhead hwhole hserving hmail hroom hzero hlcs hn hsect hresident
  have hrun : appletCall s = { s.takeHead 14 with peat := q } := by
    rw [← hq]
    unfold appletCall
    rw [hup, hidle, hload, hserving, if_neg (by decide)]
  have honly := takeHead_only s 14
  have hregs := (takeHead_took hhead).regs
  refine ⟨_, congrArg done hrun, happlet, ?_, hregs, bytesKept_of_eq ?_ ?_⟩
  all_goals
    generalize s.takeHead 14 = t at *
    rw [honly]

/-! ### Its services -/

/-- A service in the applet's mask runs. -/
theorem ecall_runs {s : State} {r : AppletRun} {service : Nat} (h : Calls s r service) (f : AppletRun → State → State) :
    ecall service f s = f r s := by
  obtain ⟨hr, hup, hdraw, hmask⟩ := h
  unfold ecall
  rw [hr]
  dsimp only
  rw [hup, hdraw, hmask, if_neg (by decide), if_pos rfl]

theorem length_freeB (c n : Nat) : (freeB c n).length = n := by
  induction n generalizing c with
  | zero => rfl
  | succ n ih => rw [freeB, List.length_cons, ih]

/-- A service whose words the spec leaves open answers with as many as it has. -/
theorem ecallFree_answers (s : State) (r : AppletRun) (n : Nat) :
    ∃ w, (s.ecallFree r n).peat.applet = some { r with lastStatus := cOk, words := w } ∧ w.length = n := by
  refine ⟨toWords (freeB s.freeCtr (4 * n)), rfl, ?_⟩
  rw [length_toWords, length_freeB]
  unfold wordsOf
  omega

theorem ecallHash_answers (s : State) (r : AppletRun) (msg : Bytes) (h : Calls s r 0) (hw : PeatWorks s 127) :
    ∃ t, exec (.ecallHash msg) s = .next t ∧
      (∃ w, t.peat.applet = some { r with lastStatus := cOk, words := w } ∧ w.length = 8) ∧
      (t.lane 10).committed = (s.lane 10).committed ∧ RegsBut (jobRegs 127) s t ∧ BytesKept s t := by
  have hjobs : ∀ j ∈ [hshJob 5 false], j.items ≤ s.room 10 ∧ j.code = cOk ∧ 1 ≤ j.eng ∧ j.eng ≤ 3 := by
    obtain ⟨-, -, hroom, -⟩ := hw
    intro j hj
    rw [List.mem_singleton.mp hj]
    exact ⟨le_trans (by decide) hroom, rfl, by decide, by decide⟩
  obtain ⟨t, ht, hframe, hmem⟩ := withJobs_complete (by decide) hw hjobs (fun c s => s.ecallDone r c []) fun s => s.ecallFree r 8
  have hflash : t.flash = s.flash := hframe.view (·.flash) fun _ _ _ _ => rfl
  obtain ⟨q, hlane⟩ := hframe.lanes 10
  refine ⟨t.ecallFree r 8, congrArg done ((ecall_runs h _).trans ht), ecallFree_answers t r 8, ?_, hframe.regs,
    bytesKept_of_eq (hmem fun j hj => by rw [List.mem_singleton.mp hj]; rfl) hflash⟩
  show (t.lane 10).committed = _
  rw [hlane]

theorem ecallRandomWords_got (s : State) (r : AppletRun) (count : Nat) (d : Bytes) (h : Calls s r 1) (hcount : count ≠ 0)
    (hd : s.servedTo .applet = some (cOk, d)) :
    ∃ t, exec (.ecallRandomWords count) s = .next t ∧ Safety.Served t r cOk (toWords (slice d 0 (4 * count))) ∧
      RegsBut [] s t ∧ BytesKept s t ∧ t.lanes = s.lanes := by
  have hrun : ecallRandom count r s = (s.forgetDraw .applet).ecallDone r cOk (toWords (slice d 0 (4 * count))) := by
    unfold ecallRandom State.draw
    rw [if_neg hcount, hd]
    rfl
  exact ⟨_, congrArg done ((ecall_runs h _).trans hrun), rfl, regsBut_of_regs rfl _, bytesKept_of_eq rfl rfl, rfl⟩

theorem ecallRandomWords_waits (s : State) (r : AppletRun) (count : Nat) (h : Calls s r 1) (hcount : count ≠ 0)
    (hfail : s.rngFailed = false) (hd : s.servedTo .applet = none) :
    ∃ t, exec (.ecallRandomWords count) s = .next t ∧ t.peat.applet = some r ∧ t.drawWaits .applet = true ∧
      RegsBut [] s t ∧ BytesKept s t ∧ t.lanes = s.lanes := by
  have hrun : ecallRandom count r s = s.setCallers (s.trng.reqs ++ [.draw .applet (4 * count) []]) := by
    unfold ecallRandom State.draw
    rw [if_neg hcount, hd, hfail, h.2.2.1]
    rfl
  refine ⟨_, congrArg done ((ecall_runs h _).trans hrun), h.1, ?_, regsBut_of_regs rfl _, bytesKept_of_eq rfl rfl, rfl⟩
  simp [State.drawWaits, State.setCallers, drawsFor]

/-- The random words that an applet waits for come with the block of a pool that passes. -/
theorem block_to_applet (s : State) (r : AppletRun) (need : Nat) (raw : Bytes)
    (hs : s.rngState = 3 ∨ (s.rngState = 2 ∧ s.trng.testsPassed = true))
    (htests : ((s.testPool raw).all fun x => !x.2.1 && !x.2.2) = true) (hr : s.peat.applet = some r)
    (hreqs : s.trng.reqs = [.draw .applet need []]) (h32 : need ≤ 32) (hserved : s.trng.served = [])
    (hkis : s.peat.kisDue = false) (hentry : s.envm.entryDue = none) :
    ∃ t, exec (.poolComplete raw) s = .next t ∧ Safety.Served t r cOk (toWords ((shakeH (slice raw 0 256) 32).take need)) ∧
      t.trng.reqs = [] ∧ RegsBut [aTRNG_STATUS] s t ∧ BytesKept s t ∧ t.lanes = s.lanes := by
  have hexec := exec_poolComplete hs htests
  obtain ⟨-, -, hregs, honly⟩ := poolPassed_frame s raw
  generalize poolPassed s raw = u at *
  generalize hb : shakeH (slice raw 0 256) 32 = b at *
  rw [deliverBlock_draw (by rw [honly]; exact hreqs) (by rw [← hb, length_shakeH]; omega)] at hexec
  have hserves : (servedBy u .applet (b.take need)).trng.served = [(.applet, cOk, b.take need)] := by
    show u.trng.served ++ _ = _
    rw [honly]
    exact (congrArg (· ++ _) hserved).trans rfl
  have hv := servedBy_frame honly .applet (b.take need)
  have hvregs : (servedBy u .applet (b.take need)).regs = u.regs := rfl
  have hvlanes : (servedBy u .applet (b.take need)).lanes = s.lanes := by rw [honly]; rfl
  generalize servedBy u .applet (b.take need) = v at *
  have hdue : v.drawsServed = (v.forgetDraw .applet).ecallDone r cOk (toWords (b.take need)) := by
    rw [drawsServed_one hserves]
    show v.appletGoesOn = _
    unfold State.appletGoesOn
    rw [hv.peat, hr, servedTo_one hserves]
  have hgoes : v.goesOn = (v.forgetDraw .applet).ecallDone r cOk (toWords (b.take need)) := by
    rw [State.goesOn, hdue]
    exact generateDue_none (by show v.peat.kisDue = false; rw [hv.peat]; exact hkis)
      (by show v.envm.entryDue = none; rw [hv.envm]; exact hentry)
  rw [hgoes] at hexec
  refine ⟨_, hexec, rfl, ?_, RegsBut.trans hregs (regsBut_of_regs hvregs _), bytesKept_of_eq hv.mem hv.flash, hvlanes⟩
  show v.trng.reqs.filter _ = []
  rw [hv.reqs]
  rfl

theorem ecallOwnCounters_reads (s : State) (r : AppletRun) (which : Nat) (h : Calls s r 2) (hwhich : which ≤ 1) :
    ∃ t, exec (.ecallOwnCounters which false) s = .next t ∧ Safety.Served t r cOk [s.counter (48 + 2 * r.inst + which)] ∧
      t.envm = s.envm ∧ BytesKept s t ∧ t.lanes = s.lanes := by
  have hrun : ecallCounter which false r s = s.ecallDone r cOk [s.counter (48 + 2 * r.inst + which)] := by
    unfold ecallCounter
    rw [if_neg (by omega), if_neg (by decide)]
  exact ⟨_, congrArg done ((ecall_runs h _).trans hrun), rfl, rfl, bytesKept_of_eq rfl rfl, rfl⟩

theorem ecallOwnCounters_advances (s : State) (r : AppletRun) (which : Nat) (h : Calls s r 2) (hwhich : which ≤ 1)
    (hmax : (s.counter (48 + 2 * r.inst + which)).toNat < 2 ^ 32 - 1) :
    ∃ t, exec (.ecallOwnCounters which true) s = .next t ∧
      Safety.Served t r cOk [s.counter (48 + 2 * r.inst + which) + 1] ∧
      t.counter (48 + 2 * r.inst + which) = s.counter (48 + 2 * r.inst + which) + 1 ∧ BytesKept s t ∧
      t.lanes = s.lanes := by
  generalize hn : 48 + 2 * r.inst + which = n at *
  have hset : (s.setCounter n (s.counter n + 1)).counter n = s.counter n + 1 := tget_tset_same ..
  have hinc : s.incCounter n = some (s.setCounter n (s.counter n + 1)) := by
    unfold State.incCounter
    exact if_neg fun hc => by rw [hc] at hmax; exact absurd hmax (by decide)
  have hrun : ecallCounter which true r s = (s.setCounter n (s.counter n + 1)).ecallDone r cOk [s.counter n + 1] := by
    unfold ecallCounter
    dsimp only
    rw [if_neg (by omega), if_pos rfl, hn, hinc]
    dsimp only
    rw [hset]
  exact ⟨_, congrArg done ((ecall_runs h _).trans hrun), rfl, hset, bytesKept_of_eq rfl rfl, rfl⟩

theorem ecallKeyStore_answers (s : State) (r : AppletRun) (slot : Nat) (h : Calls s r 3) (hlisted : s.listed r slot = true)
    (hkey : (s.key slot).isSome = true) :
    ∃ t, exec (.ecallKeyStore slot) s = .next t ∧
      (∃ w, t.peat.applet = some { r with lastStatus := cOk, words := w } ∧ w.length = 4) ∧ BytesKept s t ∧
      t.lanes = s.lanes := by
  have hrun : ecallKey slot r s = s.ecallFree r 4 := by
    unfold ecallKey
    exact if_neg (by rw [Option.isNone_iff_eq_none, ← Option.not_isSome_iff_eq_none, not_not]; exact hkey)
  exact ⟨_, congrArg done ((ecall_runs h _).trans ((if_pos hlisted).trans hrun)), ecallFree_answers s r 4, bytesKept_of_eq rfl rfl, rfl⟩

theorem ecallSessionSlot_answers (s : State) (r : AppletRun) (h : Calls s r 4)
    (hbound : s.boundTo r.chan (s.rf (aCHN_BIND r.chan) 15 8) = true) :
    ∃ t, exec .ecallSessionSlot s = .next t ∧
      (∃ w, t.peat.applet = some { r with lastStatus := cOk, words := w } ∧ w.length = 4) ∧ BytesKept s t ∧
      t.lanes = s.lanes :=
  ⟨_, congrArg done ((ecall_runs h _).trans (if_pos hbound)), ecallFree_answers s r 4, bytesKept_of_eq rfl rfl, rfl⟩

/-! ### Its end -/

/-- The reply ring of Q14 takes a reply that it has room for. -/
theorem answerCall_commits {s : State} {o : Nat} {id : BitVec 16} {status : Byte} {body : Bytes}
    (hroom : 1 + (body.length + 3) / 4 ≤ s.room 30) (hopen : s.openCount 30 < 8) :
    Committed s (s.answerMail 30 o id status body) 30 (replyPacket o id status body) := by
  have hheld : s.heldBack 30 = 0 := by
    unfold State.heldBack
    split <;> rfl
  have hok : s.hwRoom 30 (replyPacket o id status body) = true := by
    unfold State.hwRoom
    rw [hheld, length_replyPacket]
    exact decide_eq_true ⟨hroom, hopen⟩
  have hcheck : s.hwOk 30 (replyPacket o id status body) = true := rfl
  unfold State.answerMail State.feCommit State.hwCommit
  rw [if_pos hcheck, if_neg (by omega), if_pos hok, jobAccepted_other (by decide) (by decide)]
  exact committed_commit ..

/-- A call of Q14 ends with its reply, and nothing else changes but the random words it waited for. -/
theorem endCall_replies {s : State} {r : AppletRun} {id : BitVec 16} (hr : s.peat.applet = some r) (hid : r.reqId = some id)
    {status : Byte} {ws : List Word} (hroom : 1 + ws.length ≤ s.room 30) (hopen : s.openCount 30 < 8) :
    CallEnds (s.endCall status ws) r id status (ofWords ws) ∧ (s.endCall status ws).envm = s.envm ∧ RegsBut [] s (s.endCall status ws) ∧
      BytesKept s (s.endCall status ws) := by
  have hrun : s.endCall status ws = s.callOver.answerMail 30 r.inst id status (ofWords ws) := by
    unfold State.endCall
    rw [hr]
    dsimp only
    rw [hid]
  have hover : s.callOver.peat.applet = none ∧ s.callOver.envm = s.envm ∧ s.callOver.regs = s.regs ∧ BytesKept s s.callOver :=
    ⟨rfl, rfl, rfl, bytesKept_of_eq rfl rfl⟩
  have hc := answerCall_commits (s := s.callOver) (o := r.inst) (id := id) (status := status) (body := ofWords ws)
    (by rw [length_ofWords]; exact le_trans (by omega) hroom) hopen
  rw [hrun]
  obtain ⟨happlet, henvm, hregs, hbytes⟩ := hover
  have hnewest := hc.newestWords
  have honly := hc.only
  have hcregs := hc.regs
  generalize s.callOver.answerMail 30 r.inst id status (ofWords ws) = t at *
  generalize s.callOver = u at *
  exact ⟨⟨by rw [honly]; exact happlet, hnewest⟩, by rw [honly]; exact henvm, RegsBut.trans (regsBut_of_regs hregs _) hcregs,
    BytesKept.trans hbytes (bytesKept_of_eq (by rw [honly]) (by rw [honly]))⟩

/-- The data area of an applet whose call is cut off: bytes alone. -/
theorem discardData_mem (s : State) (r : AppletRun) : ∃ m, s.discardData r = { s with mem := m } := by
  have hfind : ∀ b, (s.memWrite (persistAddr r.inst) b).peat.residents = s.peat.residents := fun _ => rfl
  unfold State.discardData
  dsimp only
  rw [hfind]
  cases s.peat.residents.find? fun x => decide (x.inst = r.inst) with
  | none => exact ⟨_, rfl⟩
  | some x => exact ⟨_, rfl⟩

/-- A call that is cut off ends with ABORTED. -/
theorem abortCall_replies {s : State} {r : AppletRun} {id : BitVec 16} (hr : s.peat.applet = some r) (hid : r.reqId = some id)
    (hroom : 1 ≤ s.room 30) (hopen : s.openCount 30 < 8) :
    CallEnds s.abortCall r id cAborted [] ∧ s.abortCall.envm = s.envm ∧ RegsBut [] s s.abortCall := by
  obtain ⟨m, hm⟩ := discardData_mem s r
  have hrun : s.abortCall = ({ s with mem := m } : State).endCall cAborted [] := by
    unfold State.abortCall
    rw [hr, ← hm]
  obtain ⟨hends, henvm, hregs, -⟩ := endCall_replies (s := { s with mem := m }) (status := cAborted) (ws := []) hr hid hroom hopen
  rw [hrun]
  exact ⟨hends, henvm, hregs⟩

theorem ecallReply_ends (s : State) (r : AppletRun) (n : BitVec 16) (a0 a1 a2 a3 : Word) (h : Calls s r 5) (hid : r.reqId = some n)
    (hroom : 5 ≤ s.room 30) (hopen : s.openCount 30 < 8) :
    ∃ t, exec (.ecallReply a0 a1 a2 a3) s = .next t ∧ CallEnds t r n cOk (ofWords [a0, a1, a2, a3]) ∧
      t.envm = s.envm ∧ RegsBut [] s t ∧ BytesKept s t :=
  ⟨_, congrArg done (ecall_runs h _), endCall_replies h.1 hid hroom hopen⟩

/-- Settles O58: by what the call asks for. -/
theorem appletCalls : Obligations.AppletCalls := by
  unfold Obligations.AppletCalls
  refine ⟨?_, ecallHash_answers, ecallRandomWords_got, ecallRandomWords_waits, ?_, ecallOwnCounters_reads, ecallOwnCounters_advances,
    ecallKeyStore_answers, ecallSessionSlot_answers, ecallReply_ends, ?_, ?_⟩
  · exact appletCall_starts
  · exact fun s r need raw hs htests hr hreqs _ h32 hserved hkis hentry =>
      block_to_applet s r need raw hs htests hr hreqs h32 hserved hkis hentry
  · exact fun s r n hr hid hroom hopen => ⟨_, rfl, abortCall_replies hr hid hroom hopen⟩
  · exact fun s r n hr hid hroom hopen => ⟨_, rfl, abortCall_replies hr hid hroom hopen⟩

end Proofs
end Sys2Proof

/-! PROOFS. A release decision that is granted: its counter, its records and the start waveform (R277 to R282). -/
namespace Sys2Proof
namespace Proofs

open Sys2Proof.Machine Sys2Proof.Safety Sys2Proof.Laws

/-! ### The log record and the release record -/

/-- The words of a decision's log record. -/
def decisionWords (s : State) (d : Decision) (code : Byte) (counter : Nat) : List Word :=
  [w32 (code.toNat * 2 ^ 24 + d.kind * 2 ^ 16 + d.ses % 256 * 2 ^ 8 + d.zones % 256), d.subject, w32 counter, s.sysLo]

/-- Q3 has room for the log record of a decision. -/
theorem decisionLog_commits {s : State} (d : Decision) (code : Byte) (counter : Nat) (hpend : s.rel.pending = false) (hroom : 4 ≤ s.room 3)
    (hopen : s.openCount 3 < 8) :
    Committed s (s.decisionLog d code counter) 3 (wordsPacket 0 0xFF (decisionWords s d code counter)) := by
  have hne : decisionWords s d code counter ≠ [] := nofun
  have hheld : s.heldBack 3 = 0 := if_neg (by rw [hpend]; decide)
  exact feCommit_room (by decide) hheld ((length_wordsPacket hne 0 0xFF).trans_le hroom) hopen

theorem Committed.logged {s t : State} {d : Decision} {code : Byte} {counter : Nat}
    (h : Committed s t 3 (wordsPacket 0 0xFF (decisionWords s d code counter))) : Logged s t d code counter := by
  have hne : decisionWords s d code counter ≠ [] := nofun
  have hwords := h.newestWords
  rw [packetWords_wordsPacket hne] at hwords
  exact hwords

theorem length_releaseRecord (s : State) (d : Decision) (n : Nat) : (s.releaseRecord d n).length = 24 := by
  unfold State.releaseRecord zeros
  simp only [List.length_append, length_toLE, List.length_cons, List.length_nil, List.length_replicate]

/-- The release record with its CMAC. -/
def releaseBytes (s : State) (d : Decision) (k : Slot) : Bytes :=
  s.releaseRecord d (s.releaseCounter + 1) ++ cmac k.key (s.releaseRecord d (s.releaseCounter + 1))

theorem releaseBytes_ne_nil (s : State) (d : Decision) (k : Slot) : releaseBytes s d k ≠ [] := by
  intro h
  have hlen := congrArg List.length h
  unfold releaseBytes at hlen
  rw [List.length_append, length_releaseRecord] at hlen
  exact absurd hlen (by simp)

theorem length_releasePacket (s : State) (d : Decision) (k : Slot) : (bytesPacket 0 0xFF (releaseBytes s d k)).items.length ≤ 10 := by
  have hmac := length_cmac_le k.key (s.releaseRecord d (s.releaseCounter + 1))
  rw [length_bytesPacket (releaseBytes_ne_nil s d k), length_toWords]
  unfold releaseBytes wordsOf
  rw [List.length_append, length_releaseRecord]
  omega

/-! ### The grant -/

/-- What a granted decision of kind 2 does to the waveform, and any other leaves. -/
def releasedWave (s : State) (d : Decision) : Release :=
  if d.kind = 2 then ⟨true, if s.rel.wave then s.rel.startAt else s.now, s.now + s.rf aREL_CFG 15 0 * 271200, false⟩
  else { s.rel with pending := false }

/-- The registers that a grant may write before it concludes. -/
def grantRegs : List Nat := jobRegs 124 ++ [aPWR_STATUS, aCWY_AUTH]

/-- What a granted decision has put out when it concludes. -/
structure Granted (s w : State) (d : Decision) (k : Slot) : Prop where
  only : w = { s with regs := w.regs, lanes := w.lanes, commits := w.commits, power := w.power, envm := w.envm, rel := w.rel, cwy := w.cwy }
  envm : w.envm = { s.envm with counters := w.envm.counters }
  regs : RegsBut grantRegs s w
  released : Released s w d k
  lanes : ∀ n, n ≠ 1 → n ≠ 3 → ∃ q, w.lane n = { s.lane n with seq := q }

/-- The waveform starts on the head with HOLD and VBAT in range. -/
theorem relGo_starts {s : State} (hhead : s.isHead = true) (hhold : s.rf aREL_CFG 15 0 ≠ 0) (hlow : s.vbatLow = false) :
    relGo s = { s with rel := { s.rel with wave := true, startAt := if s.rel.wave then s.rel.startAt else s.now,
                                           endAt := s.now + s.rf aREL_CFG 15 0 * 271200 } } := by
  unfold relGo
  exact if_neg (by rw [hhead, hlow]; exact not_or.mpr ⟨nofun, not_or.mpr ⟨hhold, nofun⟩⟩)

/-- The counter has been advanced, before anything is put out. -/
def counted (s : State) : State :=
  (s.useRoom.setCounter 44 (w32 (s.releaseCounter + 1))).setCounter 45 (w32 ((s.releaseCounter + 1) / 2 ^ 32))

theorem counter_counted (s : State) : (counted s).counter 44 = w32 (s.releaseCounter + 1) ∧
    (counted s).counter 45 = w32 ((s.releaseCounter + 1) / 2 ^ 32) :=
  ⟨(tget_tset_ne (i := 45) (j := 44) _ (by decide) _ _ _).trans (tget_tset_same ..), tget_tset_same ..⟩

/-- The waveform of a decision, once its log record stands. -/
theorem onlyIf_relGo {s : State} (d : Decision) (hlow : s.vbatLow = false)
    (hwave : d.kind = 2 → s.isHead = true ∧ s.rf aREL_CFG 15 0 ≠ 0) (hpend : s.rel.pending = false) :
    s.onlyIf (decide (d.kind = 2)) relGo = { s with rel := releasedWave s d } := by
  unfold releasedWave
  by_cases hkind : d.kind = 2
  · obtain ⟨hhead, hhold⟩ := hwave hkind
    rw [decide_eq_true hkind, onlyIf_true, relGo_starts hhead hhold hlow, if_pos hkind, ← hpend]
  · have hrel : ({ s.rel with pending := false } : Release) = s.rel := by rw [← hpend]
    rw [decide_eq_false hkind, onlyIf_false, if_neg hkind, hrel]

/-- Activity is a matter of PWR_STATUS and of the notice's frames. -/
theorem regs_active (s : State) : RegsBut [aPWR_STATUS, aCWY_AUTH, aAES_COUNT] s s.active := by
  have hstand : RegsBut [aPWR_STATUS] s s.restand := fun a ha _ => (reg_srf ..).trans (if_neg (by simpa using ha))
  unfold State.active State.onlyIf
  split
  · exact RegsBut.trans (RegsBut.mono hstand (by simp)) (RegsBut.mono (sends_sendAuth ..).regs (by simp))
  · exact RegsBut.mono hstand (by simp)

/-- What a grant puts out once its CMAC job has completed. -/
def putsOut (s : State) (d : Decision) (k : Slot) (u : State) : State :=
  let s' := (u.decisionLog d cOk ((s.releaseCounter + 1) % 2 ^ 32)).onlyIf (decide (d.kind = 2)) relGo
  let r := s'.releaseRecord d (s.releaseCounter + 1)
  (s'.feCommit 1 (bytesPacket 0 0xFF (r ++ cmac k.key r))).active

theorem counted_only (s : State) : counted s = { s with envm := (counted s).envm, rel := (counted s).rel } := rfl

theorem regs_counted (s : State) : (counted s).regs = s.regs := by rw [counted_only]
theorem lanes_counted (s : State) : (counted s).lanes = s.lanes := by rw [counted_only]
theorem templates_counted (s : State) : (counted s).templates = s.templates := by rw [counted_only]
theorem mem_counted (s : State) : (counted s).mem = s.mem := by rw [counted_only]

theorem counted_frame {s u : State} (hu : JobsFrame 124 (counted s) u) (hmem : u.mem = s.mem) :
    u = { s with regs := u.regs, lanes := u.lanes, commits := u.commits, envm := u.envm, rel := u.rel } ∧
      u.envm = { s.envm with counters := u.envm.counters } ∧ u.rel = { s.rel with pending := false } ∧
      (u.counter 44 = w32 (s.releaseCounter + 1) ∧ u.counter 45 = w32 ((s.releaseCounter + 1) / 2 ^ 32)) ∧
      RegsBut (jobRegs 124) s u ∧ ∀ n, ∃ q, u.lane n = { s.lane n with seq := q } := by
  have hcregs := regs_counted s
  have hclanes := lanes_counted s
  have hc := counted_only s
  have hcenvm : (counted s).envm = { s.envm with counters := (counted s).envm.counters } := rfl
  have hcrel : (counted s).rel = { s.rel with pending := false } := rfl
  have hcount := counter_counted s
  have huonly := hu.only
  generalize counted s = c at *
  have henvm : u.envm = c.envm := by rw [huonly]
  have hrel : u.rel = c.rel := by rw [huonly]
  unfold State.counter at *
  rw [henvm]
  refine ⟨?_, hcenvm, hrel.trans hcrel, hcount, RegsBut.trans (regsBut_of_regs hcregs _) hu.regs, fun n => ?_⟩
  · rw [hmem, hc] at huonly
    rw [hrel]
    exact huonly
  · have hlane : c.lane n = s.lane n := congrArg (tget · n laneNil) hclanes
    rw [← hlane]
    exact hu.lanes n

/-- The release record depends on the unit, the operator time and the decision. -/
theorem releaseRecord_congr {s t : State} (hunit : t.reg aCWY_STATUS = s.reg aCWY_STATUS) (hop : t.opTime = s.opTime) (d : Decision)
    (n : Nat) : t.releaseRecord d n = s.releaseRecord d n := by
  unfold State.releaseRecord State.unit State.rf
  rw [hunit, hop]

section
variable {s : State} {d : Decision} {k : Slot} (hmay : MayDecide s k)
  (hwave : d.kind = 2 → s.isHead = true ∧ s.rf aREL_CFG 15 0 ≠ 0)
include hmay hwave

/-- The outputs of a grant stand in their order. -/
theorem putsOut_grants {u : State} (hu : JobsFrame 124 (counted s) u) (hmem : u.mem = s.mem) :
    Granted s (putsOut s d k u) d k ∧ (putsOut s d k u).rel = releasedWave s d := by
  obtain ⟨hroom, hopen1, hopen3, hlow, -, -, -⟩ := hmay
  obtain ⟨hroom1, hroom3⟩ := of_decide_eq_true hroom
  obtain ⟨huonly, huenvm, hurel, hucount, huregs, hulane⟩ := counted_frame hu hmem
  have hlog := decisionLog_commits (s := u) d cOk ((s.releaseCounter + 1) % 2 ^ 32) (by rw [hurel])
    (by rw [room_otherLane (by decide) (hulane 3) (huregs _ (by decide) (by unfold Counted; decide))]; exact hroom3)
    (by rw [openCount_congr (by decide) (hulane 3)]; exact hopen3)
  have hlogged := hlog.logged
  unfold putsOut
  dsimp only
  generalize u.decisionLog d cOk ((s.releaseCounter + 1) % 2 ^ 32) = a at *
  have haregs : RegsBut (jobRegs 124) s a := RegsBut.trans huregs (RegsBut.mono hlog.regs (by simp))
  have halane : ∀ n, n ≠ 3 → ∃ q, a.lane n = { s.lane n with seq := q } := fun n hn => by rw [hlog.lane_ne hn]; exact hulane n
  have haonly : a = { s with regs := a.regs, lanes := a.lanes, commits := a.commits, envm := u.envm, rel := u.rel } := by
    have h := hlog.only
    have hcommits : a.commits = u.commits + 1 := congrArg State.commits h
    rw [← hcommits, huonly] at h
    exact h
  have halow : a.vbatLow = false := by
    unfold State.vbatLow State.rb at *
    rw [haregs aPWR_STATUS (by decide) (by unfold Counted; decide)]
    exact hlow
  have hahold : a.rf aREL_CFG 15 0 = s.rf aREL_CFG 15 0 := rf_of_regsBut haregs (by decide) (by unfold Counted; decide) ..
  have harel : releasedWave a d = releasedWave s d := by
    unfold releasedWave
    rw [hahold, show a.rel = { s.rel with pending := false } by rw [haonly]; exact hurel, show a.now = s.now by rw [haonly]]
  rw [onlyIf_relGo d halow (fun hk => ⟨by rw [haonly]; exact (hwave hk).1, by rw [hahold]; exact (hwave hk).2⟩)
    (by rw [haonly]; exact congrArg Release.pending hurel), harel]
  have hbregs : RegsBut (jobRegs 124) s ({ a with rel := releasedWave s d } : State) := haregs
  have hblane : ∀ n, ({ a with rel := releasedWave s d } : State).lane n = a.lane n := fun _ => rfl
  have hbonly : ({ a with rel := releasedWave s d } : State) =
      { s with regs := a.regs, lanes := a.lanes, commits := a.commits, envm := u.envm, rel := releasedWave s d } := by
    conv_lhs => rw [haonly]
  have hbpend : (releasedWave s d).pending = false := by
    unfold releasedWave
    split <;> rfl
  have hbcommits : ({ a with rel := releasedWave s d } : State).commits = a.commits := rfl
  have hbregs' : ({ a with rel := releasedWave s d } : State).regs = a.regs := rfl
  have hblanes : ({ a with rel := releasedWave s d } : State).lanes = a.lanes := rfl
  generalize ({ a with rel := releasedWave s d } : State) = b at *
  have hbop : b.opTime = s.opTime := by
    rw [hbonly, huenvm]
    rfl
  rw [releaseRecord_congr (hbregs aCWY_STATUS (by decide) (by unfold Counted; decide)) hbop]
  have hput := feCommit_room (s := b) (n := 1) (p := bytesPacket 0 0xFF (releaseBytes s d k)) (by decide)
    (by unfold State.heldBack; rw [hbonly]; exact if_neg (by rw [hbpend]; decide))
    (le_trans (length_releasePacket s d k) (by
      rw [room_otherLane (by decide) ((hblane 1).symm ▸ halane 1 (by decide)) (hbregs _ (by decide) (by unfold Counted; decide))]
      exact hroom1))
    (by rw [openCount_congr (by decide) ((hblane 1).symm ▸ halane 1 (by decide))]; exact hopen1)
  unfold releaseBytes at hput
  have hbytes := congrArg (Option.map packetBytes) hput.newest
  rw [Option.map_some, packetBytes_stamped, packetBytes_bytesPacket] at hbytes
  generalize b.feCommit 1 _ = c at *
  have hsend := sendsOnly_active c
  have hsregs := regs_active c
  generalize c.active = w at *
  unfold SendsOnly at hsend
  have hconly := hput.only
  have hwlane : ∀ n, w.lane n = c.lane n := fun n => by rw [hsend]; rfl
  have hwrel : w.rel = releasedWave s d := by rw [hsend, hconly, hbonly]
  have hwenvm : w.envm = u.envm := by rw [hsend, hconly, hbonly]
  have hwcount : ∀ n, w.counter n = u.counter n := fun n => by
    unfold State.counter
    rw [hwenvm]
  have hwcounters : w.envm = { s.envm with counters := w.envm.counters } := by
    rw [hwenvm]
    exact huenvm
  refine ⟨⟨?_, hwcounters, ?_, ⟨?_, ?_, ?_, ?_⟩, fun n h1 h3 => ?_⟩, hwrel⟩
  · have hwlanes : w.lanes = c.lanes := by rw [hsend]
    have hwcommits : w.commits = b.commits + 1 := by rw [hsend, hconly]
    have hwcwy : w.cwy = { s.cwy with ports := w.cwy.ports, count := w.cwy.count } := by
      conv_lhs => rw [hsend, hconly, hbonly]
    rw [hwlanes, hwcommits, hwenvm, hwrel, hwcwy]
    conv_lhs => rw [hsend, hconly, hbonly]
    rw [hbcommits]
  · exact RegsBut.trans (t := b) (RegsBut.mono hbregs fun x hx => List.mem_append_left _ hx)
      (RegsBut.trans (t := c) (RegsBut.mono hput.regs (by simp)) (RegsBut.mono hsregs (by decide)))
  · rw [hwcount]
    exact hucount.1
  · rw [hwcount]
    exact hucount.2
  · have hsys : u.sysLo = s.sysLo := by
      rw [huonly]
      rfl
    unfold Logged at hlogged ⊢
    rw [hwlane, hput.lane_ne (by decide), hblane, ← hsys]
    exact hlogged
  · rw [hwlane]
    exact hbytes
  · obtain ⟨q, hq⟩ := halane n h3
    exact ⟨q, by rw [hwlane, hput.lane_ne h1, hblane, hq]⟩

omit hmay hwave in
theorem works_counted (h : PeatWorks s 124) : PeatWorks (counted s) 124 := by
  have hregs := regs_counted s
  have hlanes := lanes_counted s
  have htmpl := templates_counted s
  generalize counted s = u at *
  have hlane : u.lane 10 = s.lane 10 := congrArg (tget · 10 laneNil) hlanes
  exact peatWorks_alike (fun a _ => reg_congr hregs a) ⟨_, hlane⟩ htmpl h

/-- A grant puts out what it owes and concludes. -/
theorem grant_puts : ∃ w, s.grant d = w.conclude d cOk (toLE 8 (s.releaseCounter + 1)) ∧ Granted s w d k ∧ w.rel = releasedWave s d := by
  have ⟨_, _, _, _, hkey, hcount, hworks⟩ := hmay
  have hjobs : ∀ j ∈ [aesJob 15], j.items ≤ (counted s).room 10 ∧ j.code = cOk ∧ 1 ≤ j.eng ∧ j.eng ≤ 3 := by
    obtain ⟨-, -, hroom10, -⟩ := works_counted hworks
    intro j hj
    rw [List.mem_singleton.mp hj]
    exact ⟨le_trans (by decide) hroom10, rfl, by decide, by decide⟩
  obtain ⟨u, hu, hframe, hmem⟩ := withJobs_complete (s := counted s) (by decide) (works_counted hworks) hjobs (fun c s => s.turnDown d c)
    fun u => (putsOut s d k u).conclude d cOk (toLE 8 (s.releaseCounter + 1))
  have hmem' : u.mem = s.mem := (hmem fun j hj => by rw [List.mem_singleton.mp hj]; rfl).trans (mem_counted s)
  have hrun : s.grant d = (putsOut s d k u).conclude d cOk (toLE 8 (s.releaseCounter + 1)) := by
    rw [← hu]
    unfold State.grant
    rw [hkey]
    dsimp only
    rw [if_neg (by omega)]
    rfl
  exact ⟨_, hrun, putsOut_grants hmay hwave hframe hmem'⟩

end

end Proofs
end Sys2Proof

/-! PROOFS. Release decisions: UNLOCK_REQ, START_REQ, the island's UNLOCK and the start waveform (R270 to R282). -/
namespace Sys2Proof
namespace Proofs

open Sys2Proof.Machine Sys2Proof.Safety Sys2Proof.Laws

/-! ### A granted decision concludes -/

theorem Released.congr {s s' t t' : State} {d : Decision} {k : Slot} (h : Released s t d k) (hcount : s'.releaseCounter = s.releaseCounter)
    (hsys : s'.sysLo = s.sysLo) (hrec : ∀ n, s'.releaseRecord d n = s.releaseRecord d n) (henvm : t'.envm.counters = t.envm.counters)
    (hlanes : ∀ n, n = 1 ∨ n = 3 → t'.lane n = t.lane n) : Released s' t' d k := by
  obtain ⟨h44, h45, hlog, hrel⟩ := h
  unfold Logged at hlog
  refine ⟨?_, ?_, ?_, ?_⟩
  · rw [hcount, ← h44]
    unfold State.counter
    rw [henvm]
  · rw [hcount, ← h45]
    unfold State.counter
    rw [henvm]
  · unfold Logged
    rw [hlanes 3 (.inr rfl), hsys, hcount]
    exact hlog
  · rw [hlanes 1 (.inl rfl), hcount, hrec]
    exact hrel

/-- What a granted decision leaves once it is concluded. -/
structure Concluded (s t : State) (d : Decision) (k : Slot) : Prop where
  released : Released s t d k
  status : t.rf aREL_STATUS 15 8 = 0
  rel : t.rel = releasedWave s d
  bytes : BytesKept s t

theorem pending_releasedWave (s : State) (d : Decision) : ({ releasedWave s d with pending := false } : Release) = releasedWave s d := by
  unfold releasedWave
  split <;> rfl

/-- The end of a decision before its answer: REL_STATUS shows the code. -/
def decided (s : State) (code : Byte) : State :=
  ({ s with rel := { s.rel with pending := false } }).srf aREL_STATUS 15 8 code.toNat

theorem decided_only (s : State) (code : Byte) :
    decided s code = { s with regs := (decided s code).regs, rel := { s.rel with pending := false } } := rfl

theorem decided_regs (s : State) (code : Byte) : RegsBut [aREL_STATUS] s (decided s code) := fun a ha _ =>
  (reg_srf ..).trans (if_neg (by simpa using ha))

theorem decided_status (s : State) (code : Byte) : (decided s code).rf aREL_STATUS 15 8 = code.toNat := by
  unfold decided
  rw [rf_srf_same _ _ _ (by decide) (by decide)]
  exact Nat.mod_eq_of_lt code.isLt

theorem conclude_reply {s : State} {d : Decision} (hkind : d.kind ≠ 3) (code : Byte) (body : Bytes) :
    s.conclude d code body = (decided s code).reply code body := if_neg hkind

/-- A decision of the mailbox that Peat grants is answered with the release counter. -/
theorem grant_replies {s : State} {d : Decision} {k : Slot} {v : Serving} (hmay : MayDecide s k)
    (hwave : d.kind = 2 → s.isHead = true ∧ s.rf aREL_CFG 15 0 ≠ 0) (hkind : d.kind ≠ 3) (hserving : s.peat.serving = some v)
    (hdiscard : v.discard = false) (hroom : 3 ≤ s.room 31) (hopen : s.openCount 31 < 8) :
    Concluded s (s.grant d) d k ∧ Answers (s.grant d) v.op v.reqId cOk (toLE 8 (s.releaseCounter + 1)) := by
  obtain ⟨w, hw, hgrant, hrel⟩ := grant_puts hmay hwave
  have hstatus := decided_status w cOk
  have hdregs := decided_regs w cOk
  have hdonly := decided_only w cOk
  have hlen : (replyPacket v.op v.reqId cOk (toLE 8 (s.releaseCounter + 1))).items.length = 3 := by
    rw [length_replyPacket, length_toLE]
  rw [hw, conclude_reply hkind]
  generalize decided w cOk = x at *
  have hxregs : RegsBut (aREL_STATUS :: grantRegs) s x :=
    RegsBut.trans (t := w) (RegsBut.mono hgrant.regs fun _ => List.mem_cons_of_mem _) (RegsBut.mono hdregs (by simp))
  have hxlanes : ∀ n, x.lane n = w.lane n := fun n => by rw [hdonly]; rfl
  have hxlane : ∃ q, x.lane 31 = { s.lane 31 with seq := q } := by
    rw [hxlanes]
    exact hgrant.lanes 31 (by decide) (by decide)
  have hr := reply_answers (u := x) (v := v) (status := cOk) (body := toLE 8 (s.releaseCounter + 1))
    (by rw [hdonly, hgrant.only]; exact hserving) hdiscard
    (by rw [hlen, room_otherLane (by decide) hxlane (hxregs _ (by decide) (by unfold Counted; decide))]; exact hroom)
    (by rw [openCount_congr (by decide) hxlane]; exact hopen)
  refine ⟨⟨?_, ?_, ?_, ?_⟩, by rw [hr.only], hr.newest⟩
  · refine Released.congr hgrant.released rfl rfl (fun _ => rfl) ?_ fun n hn => ?_
    · rw [hr.view (·.envm.counters) fun _ _ _ _ _ => rfl, hdonly]
    · rw [hr.lane_ne n (by omega), hxlanes]
  · rw [rf_of_regsBut hr.regs (by decide) (by unfold Counted; decide)]
    exact hstatus
  · rw [hr.view (·.rel) fun _ _ _ _ _ => rfl, hdonly, hrel]
    exact pending_releasedWave s d
  · have hmem : x.mem = s.mem ∧ x.flash = s.flash := by
      rw [hdonly, hgrant.only]
      exact ⟨rfl, rfl⟩
    exact BytesKept.trans (bytesKept_of_eq hmem.1 hmem.2) hr.bytes

/-! ### UNLOCK_REQ -/

/-- What every item of a list keeps, the run over the list keeps. -/
theorem each_mem_keeps {α : Type} {R : State → State → Prop} {f : State → α → State} {l : List α} (hrefl : ∀ s, R s s)
    (htrans : ∀ {s t u}, R s t → R t u → R s u) (hstep : ∀ s, ∀ x ∈ l, R s (f s x)) : ∀ s : State, R s (s.each l f) := by
  induction l with
  | nil => exact fun s => hrefl s
  | cons x xs ih =>
    exact fun s => htrans (hstep s x (by simp)) (ih (fun t y hy => hstep t y (List.mem_cons_of_mem _ hy)) (f s x))

/-- The counters of events stand beside the classes of channels, even those of numbers that no channel has. -/
theorem feClass_evt (s : State) (b code n ch : Nat) : (s.evt b code n).feClass ch = s.feClass ch := by
  have hcount : ∀ k, aCHN_BIND ch ≠ aPRF_CNT b k ∨ 4 ≤ k := fun k => by
    unfold aCHN_BIND aPRF_CNT
    omega
  have hover : ∀ (t : State) k, (t.srb (aPRF_SEL b k) 8 true).rf (aCHN_BIND ch) 3 0 = t.rf (aCHN_BIND ch) 3 0 := fun t k => by
    by_cases hsame : aCHN_BIND ch = aPRF_SEL b k
    · rw [hsame]
      exact rf_srb_ne _ _ (by decide) (by decide) (by decide) _
    · exact rf_srb_other _ hsame ..
  have hrf : (s.evt b code n).rf (aCHN_BIND ch) 3 0 = s.rf (aCHN_BIND ch) 3 0 := by
    unfold State.evt
    split
    · refine each_mem_keeps (R := fun s t => t.rf (aCHN_BIND ch) 3 0 = s.rf (aCHN_BIND ch) 3 0) (fun _ => rfl)
        (fun h h' => h'.trans h) (fun t k hk => ?_) s
      have hk4 := List.mem_range.mp hk
      have hne := (hcount k).resolve_right (by omega)
      split
      · have hset : ∀ v, (t.setReg (aPRF_CNT b k) v).rf (aCHN_BIND ch) 3 0 = t.rf (aCHN_BIND ch) 3 0 := fun v => by
          rw [rf_setReg, if_neg hne]
        dsimp only
        unfold State.onlyIf
        split
        · exact (hover _ k).trans (hset _)
        · exact hset _
      · rfl
    · rfl
  unfold State.feClass
  rw [hrf]

theorem feClass_takeHead (s : State) (n ch : Nat) : (s.takeHead n).feClass ch = s.feClass ch := by
  unfold State.takeHead
  dsimp only
  cases takePacket (s.mailLane n) (s.lane n).committed with
  | none => rfl
  | some x => exact feClass_evt ..

/-- A decision's request is taken once its outputs have room. -/
theorem decision_serves {s : State} {op : Nat} {p : Packet} (h : MailTakes s op p) (hop : op = 0x20 ∨ op = 0x21)
    (hdecide : s.decisionRoom = true) (f : Serving → State → State) :
    ∃ u, Served s u p ∧ (u.requestGen = (s.takeHead 15).requestGen ∧ u.regs = (s.takeHead 15).regs) ∧ mailOp op anyArgs f s = (f (mailServing p) u).pruneGens p := by
  obtain ⟨hhead, hwhole, hfree, hcode, hzero, hstate, hargs, hroom, -⟩ := h
  obtain ⟨u, hu, hueq⟩ := served_takes hhead op ((packetWords p).drop 1)
  have hknown : mailKnown op = true := by
    rcases hop with rfl | rfl <;> decide
  have hgen : u.requestGen = (s.takeHead 15).requestGen ∧ u.regs = (s.takeHead 15).regs := by
    rw [hueq]
    rcases hop with rfl | rfl <;> exact ⟨rfl, rfl⟩
  refine ⟨u, hu, hgen, ?_⟩
  unfold mailOp
  rw [hhead]
  dsimp only
  rw [hcode, hwhole, hfree, if_neg (by simpa using hroom), if_neg (by decide),
    if_neg (by rw [hknown, hstate]; simp only [Bool.true_eq_false, false_or, not_or, not_not, not_lt]; exact ⟨hzero, hargs⟩),
    if_neg (by rw [hdecide]; simp [anyArgs]), hueq]
  unfold mailServing
  rw [hcode]

section
variable {s u : State} {p : Packet} {d : Decision} {k : Slot}

theorem Served.mayDecide (hu : Served s u p) (h : MayDecide s k) : MayDecide u k := by
  obtain ⟨hroom, hopen1, hopen3, hlow, hkey, hcount, hworks⟩ := h
  have hroomOf : ∀ n, n = 1 ∨ n = 3 → u.room n = s.room n := by
    rintro n (rfl | rfl)
    all_goals exact room_otherLane (by decide) ⟨_, hu.lanes _ (by decide)⟩ (hu.reg (not_fence (by decide)) (by unfold Counted; decide))
  refine ⟨?_, ?_, ?_, ?_, ?_, ?_, hu.works (by decide) hworks⟩
  · unfold State.decisionRoom at *
    rw [hroomOf 1 (.inl rfl), hroomOf 3 (.inr rfl)]
    exact hroom
  · rw [openCount_congr (by decide) ⟨_, hu.lanes 1 (by decide)⟩]
    exact hopen1
  · rw [openCount_congr (by decide) ⟨_, hu.lanes 3 (by decide)⟩]
    exact hopen3
  · unfold State.vbatLow State.rb at *
    rw [hu.reg (not_fence (by decide)) (by unfold Counted; decide)]
    exact hlow
  · rw [hu.view (·.key 8) fun _ _ _ _ => rfl]
    exact hkey
  · rw [hu.view (·.releaseCounter) fun _ _ _ _ => rfl]
    exact hcount

theorem Served.concluded (hu : Served s u p) {t : State} (h : Concluded u t d k) (hkind : d.kind = 1) : Concluded s t d k := by
  obtain ⟨hreleased, hstatus, hrel, hbytes⟩ := h
  have hunit : u.reg aCWY_STATUS = s.reg aCWY_STATUS := hu.reg (not_fence (by decide)) (by unfold Counted; decide)
  have hop : u.opTime = s.opTime := hu.view (·.opTime) fun _ _ _ _ => rfl
  refine ⟨Released.congr hreleased (hu.view (·.releaseCounter) fun _ _ _ _ => rfl).symm (hu.view (·.sysLo) fun _ _ _ _ => rfl).symm
    (fun n => (releaseRecord_congr hunit hop d n).symm) rfl fun _ _ => rfl, hstatus, ?_, BytesKept.trans hu.bytes hbytes⟩
  rw [hrel]
  unfold releasedWave
  rw [if_neg (by omega), if_neg (by omega), hu.view (·.rel) fun _ _ _ _ => rfl]

/-- A READY phone session of the head with a credential and no lockout passes the checks of R272. -/
theorem holderCheck_phone {x : Decision} (hlow : u.vbatLow = false) (hst : (u.ses x.ses).st = .ready) (hgen : (u.ses x.ses).gen.toNat = x.gen)
    (hhead : u.isHead = true) (hkey : (u.key 8).isSome = true)
    (hlock : u.isLocked (.cls (lockClass (u.feClass (u.ses x.ses).opener))) = false) (hsuite : (u.ses x.ses).suite = 1)
    (hcred : (u.ses x.ses).cred.isSome = true) : u.holderCheck x = cOk := by
  unfold State.holderCheck
  have hkey' : (u.key 8).isNone = false := by rw [Option.isNone_eq_false_iff]; exact hkey
  have hcred' : (u.ses x.ses).cred.isNone = false := by rw [Option.isNone_eq_false_iff]; exact hcred
  simp only [hlow, hst, hgen, hhead, hkey', hlock, hsuite, hcred', firstOf]
  simp

theorem lockNow_stands {s t : State} (hnow : t.now = s.now) (x : Lockout) :
    (t.lockNow x).lockedUntil.isSome = (s.lockNow x).lockedUntil.isSome := by
  unfold State.lockNow
  rw [hnow]
  cases x.lockedUntil with
  | some _ => rfl
  | none => rfl

/-- Whether a lockout stands is a matter of the eNVM and the time. -/
theorem isLocked_congr {s t : State} (henvm : t.envm = s.envm) (hnow : t.now = s.now) (l : LockTarget) : t.isLocked l = s.isLocked l := by
  unfold State.isLocked State.lockOf
  rw [henvm]
  exact lockNow_stands hnow _

/-- What a phone's request for a decision names, in the state in which Peat has taken it. -/
structure PhoneServed (u : State) (p : Packet) (d : Decision) : Prop where
  ses : d.ses = (mailArg p 0).toNat
  gen : u.requestGen.getD 0 = d.gen
  check : ∀ x : Decision, x.ses = d.ses → x.gen = d.gen → u.holderCheck x = cOk
  suite : (u.ses d.ses).suite = 1
  expired : u.holderExpired (u.ses d.ses) = false
  known : d = ⟨d.kind, (mailArg p 0).toNat, u.requestGen.getD 0, d.zones, holderSubject (u.ses d.ses), u.holderRights (u.ses d.ses), u.now⟩

theorem phone_served (hu : Served s u p) (hgens : u.requestGen = (s.takeHead 15).requestGen)
    (hregs : u.regs = (s.takeHead 15).regs) (h : PhoneHolds s p d)
    (hlow : s.vbatLow = false) (hkey : (s.key 8).isSome = true) : PhoneServed u p d := by
  obtain ⟨hses, hreq, hgen, hst, hsuite, hhead, hcred, hlock, hexpired, hsubject, hrights, hpopped⟩ := h
  have hgen' : u.requestGen.getD 0 = d.gen := by rw [hgens, hreq]; rfl
  have hsess : u.ses d.ses = s.ses d.ses := hu.view (·.ses d.ses) fun _ _ _ _ => rfl
  have hlow' : u.vbatLow = false := by
    unfold State.vbatLow State.rb at *
    rw [hu.reg (not_fence (by decide)) (by unfold Counted; decide)]
    exact hlow
  have hclass : u.feClass (s.ses d.ses).opener = s.feClass (s.ses d.ses).opener := by
    rw [← feClass_takeHead s 15]
    unfold State.feClass
    rw [rf_congr hregs]
  have hlocked : ∀ l, u.isLocked l = s.isLocked l := isLocked_congr (hu.view (·.envm) fun _ _ _ _ => rfl)
    (hu.view (·.now) fun _ _ _ _ => rfl)
  refine ⟨hses, hgen', fun x hx hg => ?_, by rw [hsess]; exact hsuite, ?_, ?_⟩
  · have hx' : u.ses x.ses = s.ses d.ses := by rw [hx, hsess]
    exact holderCheck_phone hlow' (by rw [hx']; exact hst) (by rw [hx', hg]; exact hgen.symm)
      ((hu.view (·.isHead) fun _ _ _ _ => rfl).trans hhead) (by rw [hu.view (·.key 8) fun _ _ _ _ => rfl]; exact hkey)
      (by rw [hx', hclass, hlocked]; exact hlock) (by rw [hx']; exact hsuite) (by rw [hx']; exact hcred)
  · rw [hsess, hu.view (·.holderExpired (s.ses d.ses)) fun _ _ _ _ => rfl]
    exact hexpired
  · rw [hsess, hgen', ← hses, ← hsubject, hu.view (·.holderRights (s.ses d.ses)) fun _ _ _ _ => rfl, ← hrights,
      hu.view (·.now) fun _ _ _ _ => rfl, ← hpopped]

/-- An UNLOCK_REQ that meets every condition, with no policy applet, is granted. -/
theorem unlockReq_grants (hp : PhoneServed u p d) (hkind : d.kind = 1) (hzones : d.zones = fld (mailArg p 1) 7 0)
    (hmask : mailArg p 1 ≠ 0) (hhigh : fld (mailArg p 1) 31 8 = 0) (hallowed : u.zonesAllowed (u.ses d.ses) d.zones = true)
    (hnear : (bitsOf 8 d.zones).all (u.zoneNear d) = true) (hpolicy : byteAt u.relPart 0xA = 0xFF) :
    unlockReq (mailServing p) u = u.grant d := by
  obtain ⟨hses, hgen, hcheck, hsuite, hexpired, hknown⟩ := hp
  have hargs : ∀ n, wordAt (mailServing p).args n = mailArg p n := wordAt_args p
  have hdecision : (⟨1, (mailArg p 0).toNat, u.requestGen.getD 0, fld (mailArg p 1) 7 0, holderSubject (u.ses (mailArg p 0).toNat),
      u.holderRights (u.ses (mailArg p 0).toNat), u.now⟩ : Decision) = d := by
    conv_rhs => rw [hknown]
    rw [hkind, hzones, hses]
  unfold unlockReq
  dsimp only
  rw [hargs, hargs, if_neg hmask, if_neg (by rw [hhigh]; exact not_not.mpr rfl), hcheck _ hses.symm hgen, if_neg (by decide), hdecision,
    ← hses, ← hzones, hallowed, hexpired, if_neg (by decide), hsuite, if_pos rfl, if_pos hnear]
  unfold State.askPolicy
  rw [hkind]
  exact if_pos hpolicy

end

theorem unlockReq_released (s : State) (p : Packet) (d : Decision) (k : Slot) (h : MailTakes s 0x20 p) (hphone : PhoneHolds s p d)
    (hmay : MayDecide s k) (hkind : d.kind = 1) (hzones : d.zones = fld (mailArg p 1) 7 0) (hmask : mailArg p 1 ≠ 0)
    (hhigh : fld (mailArg p 1) 31 8 = 0) (hallowed : s.zonesAllowed (s.ses d.ses) d.zones = true)
    (hnear : (bitsOf 8 d.zones).all (s.zoneNear d) = true) (hpolicy : byteAt s.relPart 0xA = 0xFF) :
    ∃ t, exec .unlockReq s = .next t ∧ Released s t d k ∧ Replies t p cOk (toLE 8 (s.releaseCounter + 1)) ∧
      t.rf aREL_STATUS 15 8 = 0 ∧ BytesKept s t := by
  have ⟨hdecide, _, _, hlow, hkey, _, _⟩ := hmay
  obtain ⟨u, hu, ⟨hgens, hregs⟩, hrun⟩ := decision_serves h (.inl rfl) hdecide unlockReq
  have hp := phone_served hu hgens hregs hphone hlow (by rw [hkey]; rfl)
  have hrel : u.relPart = s.relPart := hu.view (·.relPart) fun _ _ _ _ => rfl
  have hallowed' : u.zonesAllowed (u.ses d.ses) d.zones = true := by
    rw [hu.view (·.ses d.ses) fun _ _ _ _ => rfl, hu.view (·.zonesAllowed (s.ses d.ses) d.zones) fun _ _ _ _ => rfl]
    exact hallowed
  have hverdicts : u.peat.verdicts = s.peat.verdicts := by rw [hu.only]
  have hzone : u.zoneNear d = s.zoneNear d := by
    unfold State.zoneNear State.zoneUnits State.sys
    rw [hverdicts, hrel, hu.view (·.sysTime) fun _ _ _ _ => rfl]
  obtain ⟨hc, hans⟩ := grant_replies (hu.mayDecide hmay) (d := d) (by rw [hkind]; exact nofun) (by rw [hkind]; decide) hu.serving rfl
    (by obtain ⟨-, -, -, -, -, -, -, hroom, -⟩ := h
        rw [room_otherLane (by decide) ⟨_, hu.lanes 31 (by decide)⟩ hu.cfg15]
        exact hroom)
    (by obtain ⟨-, -, -, -, -, -, -, -, hopen⟩ := h
        rw [openCount_congr (by decide) ⟨_, hu.lanes 31 (by decide)⟩]
        exact hopen)
  have hgrant := unlockReq_grants hp hkind hzones hmask hhigh hallowed' (by rw [hzone]; exact hnear) (by rw [hrel]; exact hpolicy)
  have hcount : u.releaseCounter = s.releaseCounter := hu.view (·.releaseCounter) fun _ _ _ _ => rfl
  rw [hcount] at hans
  obtain ⟨hreleased, hstatus, -, hbytes⟩ := hu.concluded hc hkind
  rw [hgrant] at hrun
  exact ⟨_, congrArg done hrun, hreleased, ⟨hans.1, hans.2⟩, hstatus, hbytes⟩

/-! ### START_REQ -/

section
variable {s u : State} {p : Packet} {d : Decision}

/-- The units that a fused round asks. -/
def askedUnits (s : State) : List Nat := (List.range 16).map (· + 1) |>.filter fun u => unitThere s.rng u && s.onChain u

theorem length_askedUnits (s : State) : (askedUnits s).length ≤ 16 :=
  (List.length_filter_le ..).trans (by simp)

/-- The overlapping slots of the plan are skipped and counted, and the units of the round are told. -/
theorem skipOverlaps_sends (a : State) (x : FusedPlan) (many : Bool) (dst cls sub : Nat) (body nh : Bytes) :
    ∃ t, (a.skipOverlaps x).onlyIf many (fun s => s.sendAuth dst cls sub body nh) = t ∧ t.dist.fuseReqs = a.dist.fuseReqs ∧
      t.peat = a.peat ∧ t.rel = a.rel ∧ t.irqs = a.irqs ∧ t.envm = a.envm ∧ BytesKept a t := by
  obtain ⟨r, y, hskip⟩ : ∃ (r : Tab Word) (y : Dist), a.skipOverlaps x = { a with regs := r, dist := { y with fuseReqs := a.dist.fuseReqs } } :=
    ⟨(a.skipOverlaps x).regs, (a.skipOverlaps x).dist, rfl⟩
  have hsend : SendsOnly (a.skipOverlaps x) ((a.skipOverlaps x).onlyIf many (fun s => s.sendAuth dst cls sub body nh)) := by
    cases many with
    | true => exact sendsOnly_sendAuth ..
    | false => exact .refl _
  have hbytes := hsend.bytes
  rw [hskip] at hsend hbytes ⊢
  generalize State.onlyIf _ many _ = t at *
  unfold SendsOnly at hsend
  refine ⟨t, rfl, ?_, ?_, ?_, ?_, ?_, BytesKept.trans (bytesKept_of_eq rfl rfl) hbytes⟩
  all_goals rw [hsend]

/-- A request for a fused round that can be made is queued behind the others. -/
theorem requestFused_queues {n : Nat} (hfused : testBit (byteAt u.rng 0x1B) 2 = true)
    (hslot : (u.slotSes ⟨0, 1, n, (u.ses n).gen, true, 0, false, 0⟩).isSome = true) (hroom : (u.ses n).fn + 16 ≤ 2 ^ 24)
    (hfree : (u.dist.fuseReqs.all fun q => decide (q.ses ≠ n)) = true) (hlen : u.dist.fuseReqs.length < 4) :
    ∃ t x, u.requestFused n = t ∧ t.dist.fuseReqs = u.dist.fuseReqs ++ [x] ∧ x.ses = n ∧ t.peat = u.peat ∧ t.rel = u.rel ∧
      t.irqs = u.irqs ∧ t.envm = u.envm ∧ BytesKept u t := by
  have hunits := length_askedUnits u
  have hslot' : (u.slotSes ⟨0, 1, n, (u.ses n).gen, true, 0, false, 0⟩).isNone = false := by
    rw [Option.isNone_eq_false_iff]
    exact hslot
  have hany : (u.dist.fuseReqs.any fun q => decide (q.ses = n)) = false := by
    rw [List.any_eq_false]
    intro q hq
    simpa using (List.all_eq_true.mp hfree) q hq
  have hcount : ¬ 2 ^ 24 < (u.ses n).fn + (askedUnits u).length := by omega
  unfold askedUnits at hcount
  unfold State.requestFused
  dsimp only
  rw [hfused, if_neg (by decide), hslot', if_neg (not_or.mpr ⟨by decide, hcount⟩), hany, if_neg (by decide), if_neg (by omega)]
  obtain ⟨t, ht, hreqs, hrest⟩ := skipOverlaps_sends _ _ _ _ _ _ _ _
  exact ⟨t, _, ht, hreqs, rfl, hrest⟩

theorem takeFused_none (h : Irq.fusedResult ∉ u.irqs) (k : Nat) : u.takeFused d k = u := by
  cases k with
  | zero => rfl
  | succ k => exact if_neg h

/-- A START_REQ of a phone that meets the conditions asks for a fused round. -/
theorem startReq_asks (hp : PhoneServed u p d) (hkind : d.kind = 2) (hzones : d.zones = 0) (hright : bit d.rights 1 = true) :
    startReq (mailServing p) u = u.startPhone d := by
  obtain ⟨hses, hgen, hcheck, hsuite, hexpired, hknown⟩ := hp
  have hargs : ∀ n, wordAt (mailServing p).args n = mailArg p n := wordAt_args p
  have hdecision : (⟨2, (mailArg p 0).toNat, u.requestGen.getD 0, 0, holderSubject (u.ses (mailArg p 0).toNat),
      u.holderRights (u.ses (mailArg p 0).toNat), u.now⟩ : Decision) = d := by
    conv_rhs => rw [hknown]
    rw [hkind, hzones, hses]
  have hrights : u.holderRights (u.ses d.ses) = d.rights := by
    conv_rhs => rw [hknown]
  unfold startReq
  dsimp only
  rw [hargs, hcheck _ hses.symm hgen, if_neg (by decide), hdecision, ← hses, hexpired, hrights, hright, if_neg (by decide), hsuite]
  exact if_pos rfl

/-- A decision of the mailbox before it asks for its fused round. -/
def beforeFused (s : State) (d : Decision) : State :=
  let s := ({ s with rel := { s.rel with pending := true } }).await (.fused d)
  { s with irqs := s.irqs.filter (· ≠ Irq.fusedResult) }

theorem startPhone_eq (s : State) (d : Decision) : s.startPhone d = ((beforeFused s d).requestFused d.ses).takeFused d 2 := rfl

/-- The decision waits for its fused round with its outputs' room held. -/
theorem startPhone_waits {v : Serving} (hserving : u.peat.serving = some v) (hfused : testBit (byteAt u.rng 0x1B) 2 = true)
    (hslot : (u.slotSes ⟨0, 1, d.ses, (u.ses d.ses).gen, true, 0, false, 0⟩).isSome = true) (hroom : (u.ses d.ses).fn + 16 ≤ 2 ^ 24)
    (hfree : (u.dist.fuseReqs.all fun q => decide (q.ses ≠ d.ses)) = true) (hlen : u.dist.fuseReqs.length < 4) :
    ∃ t, u.startPhone d = t ∧ (t.peat.serving.map (·.waiting)) = some (.fused d) ∧ t.rel.pending = true ∧
      t.dist.fuseReqs.length = u.dist.fuseReqs.length + 1 ∧ ((t.dist.fuseReqs.getLast?).map (·.ses)) = some d.ses ∧
      t.envm = u.envm ∧ BytesKept u t := by
  obtain ⟨hwdist, hwpeat, hwrel, hwirqs, hwenvm, hwbytes, hwrng, hwslot, hwses⟩ : (beforeFused u d).dist = u.dist ∧
      (beforeFused u d).peat.serving = some { v with waiting := .fused d } ∧ (beforeFused u d).rel.pending = true ∧
      Irq.fusedResult ∉ (beforeFused u d).irqs ∧ (beforeFused u d).envm = u.envm ∧ BytesKept u (beforeFused u d) ∧
      (beforeFused u d).rng = u.rng ∧ (beforeFused u d).slotSes = u.slotSes ∧ (beforeFused u d).ses = u.ses := by
    refine ⟨rfl, ?_, rfl, by simp [beforeFused], rfl, bytesKept_of_eq rfl rfl, rfl, rfl, rfl⟩
    show u.peat.serving.map _ = _
    rw [hserving]
    rfl
  rw [startPhone_eq]
  generalize beforeFused u d = w at *
  obtain ⟨t, x, ht, hreqs, hx, hpeat, hrel, hirqs, henvm, hbytes⟩ := requestFused_queues (u := w) (n := d.ses) (by rw [hwrng]; exact hfused)
    (by rw [hwslot, hwses]; exact hslot) (by rw [hwses]; exact hroom) (by rw [hwdist]; exact hfree) (by rw [hwdist]; exact hlen)
  rw [ht]
  have hrun : t.takeFused d 2 = t := takeFused_none (by rw [hirqs]; exact hwirqs) 2
  refine ⟨t, hrun, ?_, ?_, ?_, ?_, henvm.trans hwenvm, BytesKept.trans hwbytes hbytes⟩
  · rw [hpeat, hwpeat]
    rfl
  · rw [hrel, hwrel]
  · rw [hreqs, hwdist, List.length_append]
    rfl
  · rw [hreqs, List.getLast?_append]
    exact congrArg some hx

end

theorem startReq_waits (s : State) (p : Packet) (d : Decision) (h : MailTakes s 0x21 p) (hphone : PhoneHolds s p d)
    (hdecide : s.decisionRoom = true) (hlow : s.vbatLow = false) (hkey : (s.key 8).isSome = true) (hkind : d.kind = 2)
    (hzones : d.zones = 0) (hright : bit d.rights 1 = true) (hfused : testBit (byteAt s.rng 0x1B) 2 = true)
    (hslot : (s.slotSes ⟨0, 1, d.ses, (s.ses d.ses).gen, true, 0, false, 0⟩).isSome = true) (hroom : (s.ses d.ses).fn + 16 ≤ 2 ^ 24)
    (hfree : (s.dist.fuseReqs.all fun q => decide (q.ses ≠ d.ses)) = true) (hlen : s.dist.fuseReqs.length < 4) :
    ∃ t, exec .startReq s = .next t ∧ (t.peat.serving.map (·.waiting)) = some (.fused d) ∧ t.rel.pending = true ∧
      t.dist.fuseReqs.length = s.dist.fuseReqs.length + 1 ∧ ((t.dist.fuseReqs.getLast?).map (·.ses)) = some d.ses ∧
      t.envm = s.envm ∧ BytesKept s t := by
  obtain ⟨u, hu, ⟨hgens, hregs⟩, hrun⟩ := decision_serves h (.inr rfl) hdecide startReq
  have hp := phone_served hu hgens hregs hphone hlow hkey
  have hdist : u.dist = s.dist := hu.view (·.dist) fun _ _ _ _ => rfl
  have hses : u.ses d.ses = s.ses d.ses := hu.view (·.ses d.ses) fun _ _ _ _ => rfl
  obtain ⟨t, ht, hwait, hpend, hlen', hlast, henvm, hbytes⟩ := startPhone_waits hu.serving
    (by rw [hu.view (·.rng) fun _ _ _ _ => rfl]; exact hfused)
    (by rw [hses, hu.view (·.slotSes _) fun _ _ _ _ => rfl]; exact hslot) (by rw [hses]; exact hroom) (by rw [hdist]; exact hfree)
    (by rw [hdist]; exact hlen)
  rw [startReq_asks hp hkind hzones hright, ht] at hrun
  exact ⟨_, congrArg done hrun, hwait, hpend, hlen'.trans (by rw [hdist]), hlast, henvm.trans (hu.view (·.envm) fun _ _ _ _ => rfl),
    BytesKept.trans hu.bytes hbytes⟩

/-! ### What a waiting start comes to -/

/-- A decision that is turned down is logged and answered with its code. -/
theorem turnDown_replies {s : State} {d : Decision} {v : Serving} {code : Byte} (hkind : d.kind ≠ 3) (hserving : s.peat.serving = some v)
    (hdiscard : v.discard = false) (hroom3 : 4 ≤ s.room 3) (hopen3 : s.openCount 3 < 8) (hroom : 1 ≤ s.room 31)
    (hopen : s.openCount 31 < 8) :
    ∃ t, s.turnDown d code = t ∧ Answers t v.op v.reqId code [] ∧ Logged s t d code 0 ∧ t.rel.pending = false ∧
      t.rf aREL_STATUS 15 8 = code.toNat ∧ t.envm = s.envm ∧ BytesKept s t := by
  have hlog := decisionLog_commits (s := s.useRoom) d code 0 rfl hroom3 hopen3
  have hlogged := hlog.logged
  have hrun : s.turnDown d code = (decided (s.useRoom.decisionLog d code 0) code).reply code [] := conclude_reply hkind code []
  have huse : s.useRoom = { s with rel := { s.rel with pending := false } } := rfl
  rw [hrun]
  generalize s.useRoom.decisionLog d code 0 = a at *
  have haonly := hlog.only
  rw [huse] at haonly
  have hstatus := decided_status a code
  have hdregs := decided_regs a code
  have hdonly := decided_only a code
  generalize decided a code = x at *
  have hxregs : RegsBut [aREL_STATUS] s x := RegsBut.trans (t := a) (RegsBut.mono hlog.regs (by simp)) hdregs
  have hxlanes : ∀ n, x.lane n = a.lane n := fun n => by rw [hdonly]; rfl
  have hxlane : ∃ q, x.lane 31 = { s.lane 31 with seq := q } := ⟨_, by rw [hxlanes, hlog.lane_ne (by decide)]; rfl⟩
  have hr := reply_answers (u := x) (v := v) (status := code) (body := []) (by rw [hdonly, haonly]; exact hserving) hdiscard
    (by rw [length_replyPacket, room_otherLane (by decide) hxlane (hxregs _ (by decide) (by unfold Counted; decide))]; exact hroom)
    (by rw [openCount_congr (by decide) hxlane]; exact hopen)
  refine ⟨_, rfl, ⟨by rw [hr.only], hr.newest⟩, ?_, ?_, ?_, ?_, ?_⟩
  · unfold Logged at hlogged ⊢
    rw [hr.lane_ne 3 (by decide), hxlanes]
    exact hlogged
  · rw [hr.view (·.rel) fun _ _ _ _ _ => rfl, hdonly]
  · rw [rf_of_regsBut hr.regs (by decide) (by unfold Counted; decide)]
    exact hstatus
  · rw [hr.view (·.envm) fun _ _ _ _ _ => rfl, hdonly, haonly]
  · have hbytes : x.mem = s.mem ∧ x.flash = s.flash := by
      rw [hdonly, haonly]
      exact ⟨rfl, rfl⟩
    exact BytesKept.trans (bytesKept_of_eq hbytes.1 hbytes.2) hr.bytes

theorem startDeadline_turnsDown (s : State) (v : Serving) (d : Decision) (h : Waits s v (.fused d)) (hkind : d.kind = 2)
    (hroom3 : 4 ≤ s.room 3) (hopen3 : s.openCount 3 < 8) :
    ∃ t, exec .startDeadline s = .next t ∧ Answers t v.op v.reqId cDistFail [] ∧ Logged s t d cDistFail 0 ∧
      t.rel.pending = false ∧ t.rf aREL_STATUS 15 8 = cDistFail.toNat ∧ t.envm = s.envm ∧ BytesKept s t := by
  obtain ⟨hserving, hwaits, hdiscard, hroom, hopen⟩ := h
  obtain ⟨t, ht, hrest⟩ := turnDown_replies (code := cDistFail) (by rw [hkind]; decide) hserving hdiscard hroom3 hopen3 hroom hopen
  have hrun : startDeadline s = t := by
    unfold startDeadline
    rw [hserving]
    dsimp only
    rw [hwaits]
    exact ht
  exact ⟨t, congrArg done hrun, hrest⟩

/-- Peat has taken note of an interrupt: nothing else differs, or of the eNVM the mark of an overrun log. -/
theorem Concluded.of_noted {s u t : State} {d : Decision} {k : Slot} (h : Concluded u t d k)
    (hu : u = { s with irqs := u.irqs, envm := u.envm }) (hcount : u.envm.counters = s.envm.counters) (hop : u.opTime = s.opTime) :
    Concluded s t d k := by
  obtain ⟨hreleased, hstatus, hrel, hbytes⟩ := h
  have hcounter : u.releaseCounter = s.releaseCounter := by
    unfold State.releaseCounter State.counter
    rw [hcount]
  have hregs : u.regs = s.regs := by rw [hu]
  refine ⟨Released.congr hreleased hcounter.symm (by rw [hu]; rfl)
    (fun n => (releaseRecord_congr (reg_congr hregs _) hop d n).symm) rfl fun _ _ => rfl, hstatus, ?_,
    BytesKept.trans (bytesKept_of_eq (by rw [hu]) (by rw [hu])) hbytes⟩
  rw [hrel]
  unfold releasedWave
  rw [rf_congr hregs, show u.rel = s.rel by rw [hu], show u.now = s.now by rw [hu]]

theorem fusedResult_grants (s : State) (v : Serving) (d : Decision) (k : Slot) (h : Waits s v (.fused d)) (hroom : 3 ≤ s.room 31)
    (hmay : MayDecide s k) (hkind : d.kind = 2) (hirq : Irq.fusedResult ∈ s.irqs) (hok : fld (s.reg aDIST_FUSED0) 31 24 = cOk.toNat)
    (hses : fld (s.reg aDIST_FUSED0) 23 16 = d.ses) (hgen : fld (s.reg aDIST_FUSED0) 15 8 = d.gen)
    (hinside : fld (s.reg aDIST_FUSED0) 7 0 = 1) (hpolicy : byteAt s.relPart 0xB = 0xFF) (hfused : s.dist.fused = [])
    (hhead : s.isHead = true) (hhold : s.rf aREL_CFG 15 0 ≠ 0) (hwave : s.rel.wave = false) :
    ∃ t, exec .fusionTimeout s = .next t ∧ Released s t d k ∧ Answers t v.op v.reqId cOk (toLE 8 (s.releaseCounter + 1)) ∧
      t.rel = ⟨true, s.now, s.now + s.rf aREL_CFG 15 0 * 271200, false⟩ ∧ t.rf aREL_STATUS 15 8 = 0 ∧ BytesKept s t := by
  obtain ⟨hserving, hwaits, hdiscard, -, hopen⟩ := h
  have hidle : fusionTimeout s = s := by
    unfold fusionTimeout
    rw [hfused]
  obtain ⟨u, hu⟩ : ∃ u : State, u = { s with irqs := s.irqs.filter (· ≠ Irq.fusedResult) } := ⟨_, rfl⟩
  have hask : s.takeFused d 2 = u.grant d := by
    unfold State.takeFused
    rw [if_pos hirq]
    dsimp only
    rw [hok, hses, hgen, hinside, if_neg (by simp), if_pos ⟨rfl, rfl⟩, hu]
    unfold State.askPolicy
    rw [hkind]
    exact if_pos hpolicy
  have hrun : peatGoesOn (fusionTimeout s) = u.grant d := by
    rw [hidle, ← hask]
    unfold peatGoesOn
    rw [hserving]
    dsimp only
    rw [hwaits]
  have hmayu : MayDecide u k := by
    rw [hu]
    exact hmay
  have hviews : u.isHead = true ∧ u.rf aREL_CFG 15 0 ≠ 0 ∧ u.peat.serving = some v ∧ 3 ≤ u.room 31 ∧ u.openCount 31 < 8 ∧
      u.releaseCounter = s.releaseCounter ∧ u.opTime = s.opTime ∧ u = { s with irqs := u.irqs, envm := u.envm } ∧
      u.envm.counters = s.envm.counters := by
    rw [hu]
    exact ⟨hhead, hhold, hserving, hroom, hopen, rfl, rfl, rfl, rfl⟩
  obtain ⟨huhead, huhold, huserving, huroom, huopen, hucount, huop, huonly, hucounters⟩ := hviews
  obtain ⟨hc, hans⟩ := grant_replies hmayu (fun _ => ⟨huhead, huhold⟩) (by rw [hkind]; decide) huserving hdiscard huroom huopen
  obtain ⟨hreleased, hstatus, hrel, hbytes⟩ := hc.of_noted huonly hucounters huop
  rw [hucount] at hans
  refine ⟨_, congrArg done hrun, hreleased, hans, ?_, hstatus, hbytes⟩
  rw [hrel]
  unfold releasedWave
  rw [if_pos hkind, hwave]
  rfl

/-! ### The island's UNLOCK -/

/-- The decision on an island's UNLOCK (R276). -/
def islandDecided (s : State) : Decision :=
  ⟨3, 0xFF, 0, maskOf ((List.range 8).filter fun k => decide (0 < s.unit) && testBit (s.zoneUnits k) (s.unit - 1)), s.reg aTAG_ISLAST1, 0,
    s.now⟩

/-- The enrolled entry that the island names, where its TID is the one shown. -/
def islandEntry (s : State) : Option Entry :=
  match tfind s.envm.entries (s.rf aTAG_ISLAST0 21 16) with
  | some e => if e.tid = s.reg aTAG_ISLAST1 then some e else none
  | none => none

/-- What refuses an island's UNLOCK. -/
def islandCode (s : State) : Byte :=
  firstOf [
    (s.vbatLow, cAborted),
    ((s.key 8).isNone, cKeyEmpty),
    (s.isLocked (.cls 2) || s.isLocked (.entry (s.rf aTAG_ISLAST0 21 16)), cLocked),
    (!testBit (byteAt s.relPart 1) 1, cAuthFail),
    ((islandEntry s).isNone, cNotEnrolled),
    (!((islandEntry s).map fun x => x.rights.getLsbD 0 && x.rights.getLsbD 3).getD false, cAuthFail)]

/-- Peat takes note of the island's event before it decides. -/
def islandNoted (s : State) : State := { s.commitLog 17 with irqs := (s.commitLog 17).irqs.filter (· ≠ Irq.island) }

theorem islandDecision_decides {s : State} (hpend : s.rb aTAG_ISLAST0 22 = true) (hwait : s.tag.isackWait = true)
    (hidle : s.peatIdle = true) (hroom : (islandNoted s).decisionRoom = true) (hcode : islandCode (islandNoted s) = cOk) :
    islandDecision s = (islandNoted s).grant (islandDecided (islandNoted s)) := by
  have hopens : ¬ (s.rb aTAG_ISLAST0 22 = false ∨ s.tag.isackWait = false ∨ s.peatIdle = false) := by
    rw [hpend, hwait, hidle]
    decide
  have hroom' : ¬ (islandNoted s).decisionRoom = false := by
    rw [hroom]
    decide
  exact (if_neg hopens).trans ((if_neg hroom').trans (if_neg (not_not.mpr hcode)))

theorem islandNoted_eq {s : State} (h : s.envm.islandLog = []) :
    islandNoted s = { s with irqs := s.irqs.filter (· ≠ Irq.island), envm := { s.envm with logOverrun := false } } := by
  unfold islandNoted State.commitLog
  rw [h]

theorem islandCode_ok {s : State} {e : Entry} (hlow : s.vbatLow = false) (hkey : (s.key 8).isSome = true)
    (hcls : s.isLocked (.cls 2) = false) (hent : s.isLocked (.entry (s.rf aTAG_ISLAST0 21 16)) = false)
    (hpolicy : testBit (byteAt s.relPart 1) 1 = true) (hentry : tfind s.envm.entries (s.rf aTAG_ISLAST0 21 16) = some e)
    (htid : e.tid = s.reg aTAG_ISLAST1) (hopen : e.rights.getLsbD 0 = true) (hrelease : e.rights.getLsbD 3 = true) :
    islandCode s = cOk := by
  have hfound : islandEntry s = some e := by
    unfold islandEntry
    rw [hentry]
    exact if_pos htid
  have hkey' : (s.key 8).isNone = false := by
    rw [Option.isNone_eq_false_iff]
    exact hkey
  unfold islandCode
  rw [hlow, hkey', hcls, hent, hpolicy, hfound, Option.map_some, hopen, hrelease]
  rfl

/-- Once the decision on the island's event is granted, the island answers the phone. -/
theorem conclude_island {s : State} {d : Decision} (hkind : d.kind = 3) (hwait : s.tag.isackWait = true) (body : Bytes) :
    s.conclude d cOk body = ((decided s cOk).srf aTAG_ISACK 7 0 cOk.toNat).isackEnd cOk 0x90 0x00 := by
  have hrun : s.conclude d cOk body = tagIsack (w32 (256 + cOk.toNat)) (decided s cOk) := if_pos hkind
  rw [hrun]
  exact isack_ends (s := decided s cOk) (v := 0) hwait rfl

theorem isackEnd_counters (s : State) (status : Byte) (a b : Nat) : (s.isackEnd status a b).envm.counters = s.envm.counters ∧
    (s.isackEnd status a b).rel = s.rel := by
  obtain ⟨u, hrun, -, -, -, honly⟩ := isackEnd_eq s status a b
  have hlog := logsOnly_logSel (u.modTag fun t => { t with isackWait := false }) status 2
  rw [hrun]
  generalize State.logSel (u.modTag fun t => { t with isackWait := false }) status 2 = w at *
  have hw : w.envm.counters = u.envm.counters ∧ w.rel = u.rel := by
    rw [hlog]
    exact ⟨rfl, rfl⟩
  exact ⟨hw.1.trans (congrArg Envm.counters honly.envm), hw.2.trans honly.rel⟩

/-- A granted decision of the island: the release, the status shown and the phone's answer. -/
theorem grant_island {s : State} {d : Decision} {k : Slot} (hmay : MayDecide s k) (hkind : d.kind = 3) (hwait : s.tag.isackWait = true) :
    Concluded s (s.grant d) d k ∧ (s.grant d).rb aTAG_ISLAST0 22 = false ∧ (s.grant d).rf aTAG_ISLAST0 31 24 = 0 ∧
      (s.grant d).tag.isackWait = false := by
  obtain ⟨w, hw, hgrant, hrel⟩ := grant_puts hmay (by rw [hkind]; exact nofun)
  have hwwait : w.tag.isackWait = true := by
    rw [hgrant.only]
    exact hwait
  rw [hw, conclude_island hkind hwwait]
  have hstatus := decided_status w cOk
  have hdonly := decided_only w cOk
  generalize decided w cOk = x at *
  have hyregs : RegsBut [aTAG_ISACK] x (x.srf aTAG_ISACK 7 0 cOk.toNat) := regsBut_setReg x (by simp) _
  have hyonly : RegsOnly x (x.srf aTAG_ISACK 7 0 cOk.toNat) := regsOnly_setReg ..
  generalize x.srf aTAG_ISACK 7 0 cOk.toNat = y at *
  obtain ⟨t, ht, htwait, -, hshown, hdone, hregs, hlanes, hbytes⟩ := isackEnd_shows y cOk 0x90 0x00
  obtain ⟨hcounters, htrel⟩ := isackEnd_counters y cOk 0x90 0x00
  rw [ht] at hcounters htrel ⊢
  refine ⟨⟨?_, ?_, ?_, ?_⟩, hdone, hshown, htwait⟩
  · refine Released.congr hgrant.released rfl rfl (fun _ => rfl) ?_ fun n _ => ?_
    · rw [hcounters, hyonly.envm, hdonly]
    · unfold State.lane
      rw [hlanes, hyonly.lanes, hdonly]
  · rw [rf_of_regsBut hregs (by decide) (by unfold Counted; decide), rf_of_regsBut hyregs (by decide) (by unfold Counted; decide)]
    exact hstatus
  · rw [htrel, hyonly.rel, hdonly, hrel]
    exact pending_releasedWave s d
  · have hmem : y.mem = s.mem ∧ y.flash = s.flash := by
      rw [hyonly.mem, hyonly.flash, hdonly, hgrant.only]
      exact ⟨rfl, rfl⟩
    exact BytesKept.trans (bytesKept_of_eq hmem.1 hmem.2) hbytes

theorem islandDecision_released (s : State) (d : Decision) (k : Slot) (e : Entry) (hpend : s.rb aTAG_ISLAST0 22 = true)
    (hwait : s.tag.isackWait = true) (hup : s.up .peat = true) (hserving : s.peat.serving = none) (hlog : s.envm.islandLog = [])
    (hmay : MayDecide s k) (hcls : s.isLocked (.cls 2) = false) (hent : s.isLocked (.entry (s.rf aTAG_ISLAST0 21 16)) = false)
    (hpolicy : testBit (byteAt s.relPart 1) 1 = true) (hentry : tfind s.envm.entries (s.rf aTAG_ISLAST0 21 16) = some e)
    (htid : e.tid = s.reg aTAG_ISLAST1) (hopen : e.rights.getLsbD 0 = true) (hrelease : e.rights.getLsbD 3 = true)
    (hd : d = islandDecided s) :
    ∃ t, exec .islandDecision s = .next t ∧ Released s t d k ∧ t.rb aTAG_ISLAST0 22 = false ∧ t.rf aTAG_ISLAST0 31 24 = 0 ∧
      t.tag.isackWait = false ∧ t.rf aREL_STATUS 15 8 = 0 ∧ BytesKept s t := by
  have hidle : s.peatIdle = true := by
    unfold State.peatIdle
    rw [hup, hserving]
    rfl
  have hlocked : ∀ l, (islandNoted s).isLocked l = s.isLocked l := fun l => by
    rw [islandNoted_eq hlog]
    unfold State.isLocked State.lockOf
    rfl
  obtain ⟨hmayu, hcode, hdecided, hwaitu, honly, hcounters, hop⟩ : MayDecide (islandNoted s) k ∧ islandCode (islandNoted s) = cOk ∧
      islandDecided (islandNoted s) = d ∧ (islandNoted s).tag.isackWait = true ∧
      islandNoted s = { s with irqs := (islandNoted s).irqs, envm := (islandNoted s).envm } ∧
      (islandNoted s).envm.counters = s.envm.counters ∧ (islandNoted s).opTime = s.opTime := by
    have ⟨_, _, _, hlow, hkey, _, _⟩ := hmay
    rw [islandNoted_eq hlog] at hlocked ⊢
    refine ⟨hmay, islandCode_ok (e := e) hlow ?_ ((hlocked _).trans hcls) ((hlocked _).trans hent) hpolicy hentry htid hopen hrelease,
      hd.symm, hwait, rfl, rfl, rfl⟩
    exact (congrArg Option.isSome hkey).trans rfl
  have hrun := islandDecision_decides hpend hwait hidle hmayu.1 hcode
  rw [hdecided] at hrun
  obtain ⟨hc, hpended, hshown, hended⟩ := grant_island (d := d) hmayu (by rw [hd]; rfl) hwaitu
  obtain ⟨hreleased, hstatus, -, hbytes⟩ := hc.of_noted honly hcounters hop
  exact ⟨_, congrArg done hrun, hreleased, hpended, hshown, hended, hstatus, hbytes⟩

/-! ### The waveform -/

/-- A GO outside a granted decision changes the waveform alone, and only where it has an effect. -/
theorem relGoWritten_wave (s : State) : ∃ c r, relGoWritten s = { s with freeCtr := c, rel := r } ∧ r.pending = s.rel.pending ∧
    (s.isHead = false ∨ s.rf aREL_CFG 15 0 = 0 ∨ s.vbatLow = true → r = s.rel) := by
  unfold relGoWritten
  split
  next h => exact ⟨s.freeCtr, s.rel, rfl, rfl, fun _ => rfl⟩
  next h => exact ⟨_, _, rfl, rfl, fun h' => absurd h' h⟩

theorem relGo_written (s : State) (m : Master) (hg : Grants s m aREL_CTL) :
    ∃ t, exec (.relGo m) s = .next t ∧
      t.rel = { s.rel with wave := t.rel.wave, startAt := t.rel.startAt, endAt := t.rel.endAt } ∧
      (s.isHead = false ∨ s.rf aREL_CFG 15 0 = 0 ∨ s.vbatLow = true → t.rel = s.rel) ∧ t.regs = s.regs ∧
      t.lanes = s.lanes ∧ t.envm = s.envm ∧ BytesKept s t := by
  obtain ⟨u, hu, hrun⟩ := owned_sees hg relGoWritten
  obtain ⟨c, r, hgo, hpend, hnone⟩ := relGoWritten_wave u
  have hrel : u.rel = s.rel := hu.view (·.rel) fun _ _ => rfl
  have hregs : u.regs = s.regs := hu.view (·.regs) fun _ _ => rfl
  have hnone' : s.isHead = false ∨ s.rf aREL_CFG 15 0 = 0 ∨ s.vbatLow = true → r = s.rel := fun h => by
    refine (hnone ?_).trans hrel
    rw [hu.view (·.isHead) fun _ _ => rfl, rf_congr hregs]
    unfold State.vbatLow at *
    rw [rb_congr hregs]
    exact h
  refine ⟨_, congrArg done (hrun.trans hgo), ?_, hnone', hregs, hu.view (·.lanes) fun _ _ => rfl, hu.view (·.envm) fun _ _ => rfl,
    bytesKept_of_eq (hu.view (·.mem) fun _ _ => rfl) (hu.view (·.flash) fun _ _ => rfl)⟩
  show r = { s.rel with wave := r.wave, startAt := r.startAt, endAt := r.endAt }
  rw [← hrel]
  dsimp only
  rw [← hpend]

theorem relStop_stops (s : State) (m : Master) (hg : Grants s m aREL_CTL) :
    ∃ t, exec (.relStop m) s = .next t ∧ t.rel = { s.rel with wave := false } ∧ RegsBut [] s t ∧ t.lanes = s.lanes ∧ BytesKept s t := by
  obtain ⟨u, hu, hrun⟩ := owned_sees hg relStop
  have hrel : u.rel = s.rel := hu.view (·.rel) fun _ _ => rfl
  refine ⟨_, congrArg done hrun, congrArg (fun r : Release => { r with wave := false }) hrel,
    regsBut_of_regs (hu.view (·.regs) fun _ _ => rfl) _, hu.view (·.lanes) fun _ _ => rfl, ?_⟩
  exact bytesKept_of_eq (hu.view (·.mem) fun _ _ => rfl) (hu.view (·.flash) fun _ _ => rfl)

theorem pinMismatch_stops (s : State) (hwave : s.rel.wave = true) :
    ∃ t, exec .pinMismatch s = .next t ∧ t.rel = { s.rel with wave := false } ∧ t.rb aREL_STATUS 3 = true ∧
      RegsBut [aREL_STATUS] s t ∧ t.lanes = s.lanes ∧ BytesKept s t := by
  have hrun : pinMismatch s = (relStop s).srb aREL_STATUS 3 true := if_pos hwave
  exact ⟨_, congrArg done hrun, rfl, rb_srb_same _ _ (by decide) _, fun a ha _ => (reg_srb ..).trans (if_neg (by simpa using ha)), rfl,
    bytesKept_of_eq rfl rfl⟩

/-- Settles O57: by what is decided, and by what moves the waveform. -/
theorem releaseDecisions : Obligations.ReleaseDecisions := by
  unfold Obligations.ReleaseDecisions
  refine ⟨unlockReq_released, startReq_waits, startDeadline_turnsDown, islandDecision_released, fusedResult_grants, relGo_written,
    relStop_stops, fun s => ?_, pinMismatch_stops⟩
  exact ⟨relStop s, rfl, rfl, rfl, rfl, bytesKept_of_eq rfl rfl⟩

end Proofs
end Sys2Proof

/-! PROOFS. The frames of a ranging slot, its verdict, and the fused rounds that they serve (R219 to R228, R236). -/
namespace Sys2Proof
namespace Proofs

open Sys2Proof.Machine Sys2Proof.Safety Sys2Proof.Laws

/-! ### The end of a front end's operation -/

theorem bytesKept_of_still {s t : State} (h : still t = still s) : BytesKept s t := by
  exact bytesKept_of_eq (congrArg Prod.fst (congrArg Prod.snd h)) (congrArg Prod.snd (congrArg Prod.snd h))

/-- The registers that the check of a REPORT reads: the unit's address and the state of the AES mask generator. -/
def checkRegs : List Nat := [aCWY_STATUS, aTRNG_MASK 0]

/-- The results of the radio's operations go out: neither the slots, the sessions nor the eNVM differ. -/
structure RadioOnly (s t : State) : Prop where
  only : t = { s with regs := t.regs, lanes := t.lanes, commits := t.commits, eng := t.eng,
                      peat := { s.peat with reqGens := t.peat.reqGens }, uwb := t.uwb, freeCtr := t.freeCtr }
  regs : ∀ a ∈ checkRegs, t.reg a = s.reg a

theorem RadioOnly.refl (s : State) : RadioOnly s s := ⟨rfl, fun _ _ => rfl⟩

theorem RadioOnly.trans {s t u : State} (h : RadioOnly s t) (h' : RadioOnly t u) : RadioOnly s u := by
  refine ⟨?_, fun a ha => (h'.regs a ha).trans (h.regs a ha)⟩
  have e := h'.only
  rw [h.only] at e
  exact e

theorem RadioOnly.view {β : Sort*} {s t : State} (h : RadioOnly s t) (f : State → β)
    (hf : ∀ (s : State) r l c e p u n, f { s with regs := r, lanes := l, commits := c, eng := e, peat := p, uwb := u, freeCtr := n } = f s) :
    f t = f s := by
  rw [h.only]
  exact hf ..

theorem checkRegs_not_counted {a : Nat} (ha : a ∈ checkRegs) : ¬ Counted a := by
  unfold checkRegs at ha
  simp only [List.mem_cons, List.not_mem_nil, or_false] at ha
  rcases ha with rfl | rfl
  all_goals
    unfold Counted
    decide

theorem radioOnly_of_regsOnly {s t : State} (h : RegsOnly s t) {l : List Nat} (hl : ∀ a ∈ checkRegs, a ∉ l) (hregs : RegsBut l s t) :
    RadioOnly s t := by
  refine ⟨?_, fun a ha => hregs a (hl a ha) (checkRegs_not_counted ha)⟩
  unfold RegsOnly at h
  rw [h]

theorem radioOnly_setReg (s : State) {a : Nat} (ha : a ∉ checkRegs) (v : Word) : RadioOnly s (s.setReg a v) :=
  ⟨rfl, fun b hb => by
    rw [reg_setReg, if_neg fun h : b = a => ha (h ▸ hb)]⟩

theorem radioOnly_evt (s : State) {b : Nat} (hb : b < 64) (code n : Nat) : RadioOnly s (s.evt b code n) :=
  radioOnly_of_regsOnly (l := []) (regsOnly_evt ..) (by simp) (regsBut_evt s _ hb code n)

theorem radioOnly_onlyIf {s : State} {f : State → State} (h : RadioOnly s (f s)) (c : Bool) : RadioOnly s (s.onlyIf c f) := by
  cases c with
  | true => exact h
  | false => exact .refl s

theorem drop_not_check {n : Nat} (hn : qOf n < 16) : aQUE_DROP (qOf n) ∉ checkRegs := by
  unfold checkRegs aQUE_DROP aCWY_STATUS aTRNG_MASK
  simp only [List.mem_cons, List.not_mem_nil, or_false, not_or]
  omega

theorem radioOnly_drop (s : State) {n : Nat} (hn : qOf n < 16) : RadioOnly s (s.drop n) :=
  (radioOnly_setReg s (drop_not_check hn) _).trans (radioOnly_evt _ (by decide) ..)

/-- A packet that the checks of Q10 let pass is one of a channel. -/
theorem src_of_hwOk {s : State} {p : Packet} (h : s.hwOk 10 p = true) : p.src < 128 := by
  unfold State.hwOk commitOk at h
  rw [if_pos rfl, Bool.and_eq_true] at h
  exact (of_decide_eq_true h.1).1

theorem radioOnly_jobAccepted {s : State} {n : Nat} {p : Packet} (h : n = 10 → p.src < 128) : RadioOnly s (s.jobAccepted n p) := by
  by_cases hn : n = 10
  · have hsrc := h hn
    have hcount : aCHN_COUNT p.src ∉ checkRegs ∧ aCHN_STATUS p.src ∉ checkRegs := by
      unfold checkRegs aCHN_COUNT aCHN_STATUS aCWY_STATUS aTRNG_MASK
      simp only [List.mem_cons, List.not_mem_nil, or_false, not_or]
      omega
    unfold State.jobAccepted
    rw [if_pos hn]
    exact (radioOnly_setReg s hcount.1 _).trans (radioOnly_setReg _ hcount.2 _)
  · obtain ⟨honly, hregs⟩ := jobAccepted_frame s p hn
    refine ⟨?_, fun a _ => reg_congr hregs a⟩
    unfold CommitOnly at honly
    rw [honly]

theorem radioOnly_feCommit (s : State) {n : Nat} (hn : qOf n < 16) (p : Packet) : RadioOnly s (s.feCommit n p) := by
  have hkeep : RadioOnly s (s.keepWaiting n p) := ⟨rfl, fun _ _ => rfl⟩
  have hcommit : RadioOnly s (s.commit n p) := ⟨rfl, fun _ _ => rfl⟩
  unfold State.feCommit
  split
  next hok =>
    split
    · exact hkeep
    · unfold State.hwCommit
      split
      · exact (hcommit.trans (radioOnly_jobAccepted fun h => src_of_hwOk (h ▸ hok))).trans (radioOnly_evt _ (by decide) ..)
      · exact radioOnly_drop s hn
  next => exact radioOnly_drop s hn

theorem radioOnly_feResult (s : State) {b : Nat} (hb : b < 64) (ch : Nat) (status : Byte) (bytes : Bytes) :
    RadioOnly s (s.feResult b ch status bytes) := by
  have hlane : s.rf (aCHN_QUEUES ch) 7 4 < 16 := Nat.mod_lt _ (by decide)
  unfold State.feResult State.ended
  exact ((radioOnly_feCommit s ((qOf_dstLane s hlane).1.trans_lt hlane) _).trans (radioOnly_evt _ hb ..)).trans
    (radioOnly_onlyIf (f := fun s => s.evt b 4 1) (radioOnly_evt _ hb ..) _)

/-! ### The end of a receive -/

theorem radioOnly_setUwb (s : State) (u : Uwb) : RadioOnly s { s with uwb := u } := ⟨rfl, fun _ _ => rfl⟩

theorem radioOnly_sweep (l : List UwbOp) : ∀ (seen : List Nat) (s : State), RadioOnly s (uwbSweep seen l s).2 := by
  induction l with
  | nil => exact fun _ s => .refl s
  | cons o t ih =>
    intro seen s
    unfold uwbSweep
    cases o.fin with
    | none => exact ih _ s
    | some r =>
      dsimp only
      split
      · exact ih _ s
      · split
        · exact ih _ s
        · exact (radioOnly_feResult s (by decide) ..).trans (ih _ _)

theorem radioOnly_settle (s : State) : RadioOnly s s.uwbSettle :=
  (radioOnly_sweep s.uwb.ops [] s).trans (radioOnly_setUwb _ _)

theorem radioOnly_setRadio (s : State) (n : Nat) : RadioOnly s (s.setRadio n) := by
  unfold State.setRadio
  refine (radioOnly_setReg s (by decide) _).trans (radioOnly_onlyIf (f := fun s => (s.srb aUWB_STATE 5 false).srb aUWB_FLAGS 3 false) ?_ _)
  exact (radioOnly_setReg _ (by decide) _).trans (radioOnly_setReg _ (by decide) _)

theorem radioOnly_rest (s : State) : RadioOnly s s.radioRest := by
  unfold State.radioRest
  split_ifs
  · exact .refl s
  · exact radioOnly_setRadio ..
  · exact radioOnly_setRadio ..
  · exact .refl s

/-- A frame that a slot heard in time ends its operation without a mark on the slot. -/
theorem slotOp_heard (s : State) (o : UwbOp) : s.slotOp o cOk true = s := by
  have hlate : decide (isFail cOk ∧ o.chan % 2 = 0) = false := decide_eq_false fun h => absurd h.1 (by decide)
  unfold State.slotOp
  split
  · rfl
  · dsimp only
    rw [if_neg (by decide), hlate, onlyIf_false, decide_eq_false (by simp), Bool.and_false, onlyIf_false]

theorem radioOnly_freeBytes (s : State) (n : Nat) : RadioOnly s (s.freeBytes n).2 := ⟨rfl, fun _ _ => rfl⟩

/-- The operation that held the radio no longer does. -/
theorem radioOnly_releases (s : State) (o : UwbOp) (x : Option UwbOp) : RadioOnly s
    (if s.uwb.cur = some o.id then { s with uwb := { s.uwb with cur := none, orphan := x } }.srb aUWB_FLAGS 7 false else s) := by
  split
  · exact (radioOnly_setUwb s _).trans (radioOnly_setReg _ (by decide) _)
  · exact .refl s

theorem radioOnly_opFinish (s : State) (o : UwbOp) (payload : Bytes) (ts : Nat) : RadioOnly s (s.opFinish o cOk true payload ts) := by
  unfold State.opFinish
  dsimp only
  rw [slotOp_heard, decide_eq_false (by decide : ¬ cOk = cTxLate), onlyIf_false]
  refine RadioOnly.trans (t := State.modOp _ o.id _) ?_ (radioOnly_releases ..)
  refine RadioOnly.trans (t := State.onlyIf _ _ _) ?_ (radioOnly_setUwb _ _)
  refine RadioOnly.trans (t := State.onlyIf s _ _) ?_ (radioOnly_onlyIf (radioOnly_setUwb _ _) _)
  exact radioOnly_onlyIf (f := fun _ => _) (radioOnly_freeBytes ..) _

theorem radioOnly_rxEnd (s : State) (o : UwbOp) (payload : Bytes) (ts : Nat) : RadioOnly s (s.rxEnd o true payload ts) := by
  unfold State.rxEnd
  exact (((radioOnly_onlyIf (f := fun s => s.setRadio 4) (radioOnly_setRadio ..) _).trans (radioOnly_opFinish ..)).trans
    (radioOnly_settle _)).trans (radioOnly_rest _)

/-! ### The frames of a slot -/

theorem noteHeard_fused (s : State) (x : PlanSlot) (kind t why : Nat) :
    ∃ l, s.noteHeard x kind t why = { s with dist := { s.dist with fused := l } } := by
  unfold State.noteHeard State.onlyIf
  split
  · exact ⟨_, rfl⟩
  · exact ⟨_, rfl⟩

theorem respReceived_hears (s : State) (o : UwbOp) (r : RngSlot) (fp : FirstPath) (hopen : s.openRanging 1 = some (o, r))
    (hfp : fpReason s.rng fp o.stale = 0) :
    ∃ t, exec (.respReceived fp) s = .next t ∧
      t.dist.cur = s.dist.cur.map (fun q => if q.slot.start = o.ref then
        { q with t4 := unsgn 40 ((fpTime fp : Int) - o.delay), heard := true, aoaValid := (anglesOf s.rng fp o.pdoa).1,
                 az := (anglesOf s.rng fp o.pdoa).2.1, el := (anglesOf s.rng fp o.pdoa).2.2 } else q) ∧
      BytesKept s t ∧ t.envm = s.envm := by
  obtain ⟨l, hnote⟩ := noteHeard_fused s r.slot 1 (unsgn 40 ((fpTime fp : Int) - o.delay)) 0
  have hbytes := bytesKept_of_still (still_respReceived s fp)
  refine ⟨_, rfl, ?_⟩
  show (respReceived s fp).dist.cur = _ ∧ BytesKept s (respReceived s fp) ∧ (respReceived s fp).envm = s.envm
  refine ⟨?_, hbytes, ?_⟩
  all_goals
    unfold respReceived
    rw [hopen]
    dsimp only
    rw [hfp, hnote, if_neg fun h => h.1 rfl, (radioOnly_rxEnd _ o [] s.tsNow).only]
  · unfold State.modSlot
    dsimp only
    simp only [Nat.or_zero, decide_true, Bool.and_true]
  · rfl

/-- The MAC of a REPORT is right, and it can be checked. -/
def reportGood (s : State) (x : PlanSlot) (b : Bytes) : Bool :=
  !s.maskStopped 0 && decide (b.length = 24 ∧ slice b 16 8 = (cmac (s.slotRep x) (0x52 :: by8 x.unit :: slice b 0 16)).take 8)

/-- The checks of a REPORT read nothing that the end of its operation changes. -/
theorem RadioOnly.reportGood {s t : State} (h : RadioOnly s t) (x : PlanSlot) (b : Bytes) : reportGood t x b = reportGood s x b := by
  have hmask : t.maskStopped 0 = s.maskStopped 0 := by
    unfold State.maskStopped State.rb
    rw [h.regs (aTRNG_MASK 0) (by decide)]
  unfold Proofs.reportGood
  rw [hmask, h.view (·.slotRep x) fun _ _ _ _ _ _ _ _ => rfl]

theorem RadioOnly.rngUnit {s t : State} (h : RadioOnly s t) : t.rngUnit = s.rngUnit := by
  unfold State.rngUnit State.unit State.rf
  rw [h.regs aCWY_STATUS (by decide), h.view (·.isHead) fun _ _ _ _ _ _ _ _ => rfl]

/-- A REPORT that is right gives its slot the times; one that is not gives it the reason. -/
def reported (s : State) (r : RngSlot) (b : Bytes) (good : Bool) (q : RngSlot) : RngSlot :=
  if good then { q with reported := true, reason := q.reason ||| (timeOf s.rng r b).1, num := (timeOf s.rng r b).2.1,
                        den := (timeOf s.rng r b).2.2.1, distMm := (timeOf s.rng r b).2.2.2.toNat }
  else { q with reported := true, reason := q.reason ||| 128 }

theorem reportReceived_eq {s : State} {o : UwbOp} {r : RngSlot} {fp : FirstPath} {b : Bytes} (hopen : s.openRanging 3 = some (o, r))
    (hown : r.slot.unit = s.rngUnit) (hfp : fpReason s.rng fp o.stale = 0) :
    ∃ l u, RadioOnly { s with dist := { s.dist with fused := l } } u ∧
      reportReceived s fp b = u.modSlot o.ref (reported s r b (reportGood s r.slot b)) := by
  obtain ⟨l, hnote⟩ := noteHeard_fused s r.slot 3 (unsgn 40 ((fpTime fp : Int) - o.delay)) 0
  have hradio := radioOnly_rxEnd ({ s with dist := { s.dist with fused := l } } : State) o b s.tsNow
  have hunit := hradio.rngUnit
  have hgood := hradio.reportGood r.slot b
  have hrng := hradio.view (·.rng) fun _ _ _ _ _ _ _ _ => rfl
  have hsrng : ({ s with dist := { s.dist with fused := l } } : State).rng = s.rng := rfl
  have hsunit : ({ s with dist := { s.dist with fused := l } } : State).rngUnit = s.rngUnit := rfl
  have hsgood : reportGood ({ s with dist := { s.dist with fused := l } } : State) r.slot b = reportGood s r.slot b := rfl
  rw [hsgood] at hgood
  refine ⟨l, _, hradio, ?_⟩
  unfold reportReceived
  rw [hopen]
  dsimp only
  rw [hfp, hnote]
  generalize State.rxEnd _ o true b s.tsNow = u at *
  rw [if_neg (not_not.mpr (by rw [hunit, hsunit]; exact hown)), hrng, hsrng, ← hgood]
  simp only [Nat.or_zero]
  rfl

theorem reportReceived_reports (s : State) (o : UwbOp) (r : RngSlot) (fp : FirstPath) (b : Bytes) (good : Bool)
    (hopen : s.openRanging 3 = some (o, r)) (hown : r.slot.unit = s.rngUnit) (hfp : fpReason s.rng fp o.stale = 0) :
    ∃ t, exec (.reportReceived fp b) s = .next t ∧
      (good = reportGood s r.slot b →
        t.dist.cur = s.dist.cur.map (fun q => if q.slot.start = o.ref then reported s r b good q else q)) ∧
      BytesKept s t ∧ t.envm = s.envm := by
  obtain ⟨l, u, hradio, hrun⟩ := reportReceived_eq (b := b) hopen hown hfp
  have hbytes := bytesKept_of_still (still_reportReceived s fp b)
  rw [hrun] at hbytes
  refine ⟨_, congrArg done hrun, ?_, hbytes, hradio.view (·.envm) fun _ _ _ _ _ _ _ _ => rfl⟩
  rintro rfl
  show u.dist.cur.map _ = _
  rw [hradio.view (·.dist) fun _ _ _ _ _ _ _ _ => rfl]

/-! ### Verdicts -/

/-- With room a verdict stands behind the others. -/
theorem pushVerdict_room {s : State} (h : s.dist.fifo.length < 16) (ws : List Word) :
    s.pushVerdict ws = ({ s with dist := { s.dist with fifo := s.dist.fifo ++ [ws] } }).raise .verdict := by
  unfold State.pushVerdict
  dsimp only
  rw [decide_eq_false (by omega), onlyIf_false, if_neg (by decide)]

/-- What the delivery of a verdict leaves. -/
theorem ownVerdict_pushes {s : State} (h : s.dist.fifo.length < 16) (ws : List Word) :
    (s.ownVerdict ws).dist = { s.dist with fifo := s.dist.fifo ++ [ws] } ∧ (s.ownVerdict ws).envm = s.envm ∧
      (s.ownVerdict ws).peat.serving = s.peat.serving := by
  have hpush : (s.pushVerdict ws).dist = { s.dist with fifo := s.dist.fifo ++ [ws] } ∧ (s.pushVerdict ws).envm = s.envm ∧
      (s.pushVerdict ws).peat = s.peat := by
    rw [pushVerdict_room h]
    exact ⟨rfl, rfl, rfl⟩
  unfold State.ownVerdict
  dsimp only
  generalize s.pushVerdict ws = a at *
  have hcommit := radioOnly_feCommit a (n := 7) (by decide) (wordsPacket 0 0xFF ws)
  have hevt := radioOnly_evt (a.feCommit 7 (wordsPacket 0 0xFF ws)) (b := 7) (by decide) 0x17 1
  generalize State.evt _ 7 0x17 1 = c at *
  have hbump : RadioOnly c (c.bump aDIST_COUNT 15 0 1) := radioOnly_setReg c (by decide) _
  have hfail : RadioOnly (c.bump aDIST_COUNT 15 0 1) ((c.bump aDIST_COUNT 15 0 1).onlyIf (decide (fld (wordAt ws 0) 31 24 ≠ 0))
      fun s => s.bump aDIST_COUNT 31 16 1) :=
    radioOnly_onlyIf (f := fun s => s.bump aDIST_COUNT 31 16 1) (radioOnly_setReg _ (by decide) _) _
  have hall := ((hcommit.trans hevt).trans hbump).trans hfail
  generalize State.onlyIf (c.bump aDIST_COUNT 15 0 1) _ _ = d at *
  have hsend : SendsOnly d (d.onlyIf (!d.isHead) fun s => s.sendAuth 1 3 2 (ofWords ws) []) := by
    cases !d.isHead with
    | true => exact sendsOnly_sendAuth ..
    | false => exact .refl d
  generalize State.onlyIf d _ _ = e at *
  unfold SendsOnly at hsend
  have hdist : d.dist = a.dist := hall.view (·.dist) fun _ _ _ _ _ _ _ _ => rfl
  have henvm : d.envm = a.envm := hall.view (·.envm) fun _ _ _ _ _ _ _ _ => rfl
  have hserving : d.peat.serving = a.peat.serving := by rw [hall.only]
  rw [hsend]
  exact ⟨hdist.trans hpush.1, henvm.trans hpush.2.1, hserving.trans (congrArg Peat.serving hpush.2.2)⟩

theorem radioOnly_withdraw (s : State) (ref : Nat) (kinds : List Nat) : RadioOnly s (s.withdraw ref kinds) := by
  unfold State.withdraw
  dsimp only
  split
  · refine RadioOnly.trans (t := State.onlyIf _ _ _) ?_ (radioOnly_rest _)
    exact (radioOnly_setUwb s _).trans (radioOnly_onlyIf (f := fun s => s.setRadio 4) (radioOnly_setRadio _ 4) _)
  · exact radioOnly_setUwb s _

/-- The verdict of a slot reads the sessions, the map and the configuration. -/
theorem RadioOnly.verdictWords {s t : State} (h : RadioOnly s t) (r : RngSlot) : t.verdictWords r = s.verdictWords r :=
  h.view (·.verdictWords r) fun _ _ _ _ _ _ _ _ => rfl

/-- The slots of a round that is not fused belong to no fused one. -/
theorem runOf_regular {s : State} {x : PlanSlot} (h : x.fused = false) : s.runOf x = none := by
  unfold State.runOf
  rw [List.find?_eq_none]
  intro f _
  unfold ofPlan
  rw [h]
  exact nofun

theorem onlyIf_modRun (s : State) (c : Bool) (x : PlanSlot) (g : FusedRun → FusedRun) :
    ∃ l, (s.onlyIf c fun s => s.modRun x g) = { s with dist := { s.dist with fused := l } } := by
  cases c with
  | true => exact ⟨_, rfl⟩
  | false => exact ⟨s.dist.fused, rfl⟩

/-- The slot that ends is no longer placed. -/
def slotLeaves (s : State) (l : List RngSlot) : State :=
  { s with dist := { s.dist with cur := l }, eng := { s.eng with stsBusy := s.eng.stsBusy && !l.isEmpty } }

theorem slotLeaves_dist (s : State) (l : List RngSlot) : (slotLeaves s l).dist = { s.dist with cur := l } ∧
    (slotLeaves s l).envm = s.envm ∧ (slotLeaves s l).peat = s.peat := ⟨rfl, rfl, rfl⟩

/-- What the end of a slot delivers, once its operations have left the radio. -/
def slotDelivers (s : State) (r : RngSlot) (ws : List Word) (own : Bool) : State :=
  (s.onlyIf (own || !r.slot.fused) fun s => s.ownVerdict ws).onlyIf own fun s =>
    s.modRun r.slot fun f => { f with verdict := ws, num := r.num, den := r.den }

theorem slotDelivers_regular {s : State} {r : RngSlot} (hreg : r.slot.fused = false) (hroom : s.dist.fifo.length < 16) (ws : List Word)
    (own : Bool) : (slotDelivers s r ws own).dist.cur = s.dist.cur ∧ (slotDelivers s r ws own).dist.fifo = s.dist.fifo ++ [ws] ∧
      (slotDelivers s r ws own).envm = s.envm ∧ (slotDelivers s r ws own).peat.serving = s.peat.serving := by
  obtain ⟨hdist, henvm, hserving⟩ := ownVerdict_pushes hroom ws
  obtain ⟨f, hf⟩ := onlyIf_modRun (s.ownVerdict ws) own r.slot fun f => { f with verdict := ws, num := r.num, den := r.den }
  unfold slotDelivers
  rw [hreg, Bool.not_false, Bool.or_true, onlyIf_true, hf]
  generalize s.ownVerdict ws = a at *
  refine ⟨?_, ?_, henvm, hserving⟩
  · show a.dist.cur = _
    rw [hdist]
  · show a.dist.fifo = _
    rw [hdist]

/-- A slot that no fused round has ends with what it delivers. -/
theorem slotEnd_delivers {s u : State} {r : RngSlot} {l : List RngSlot} (hcur : s.dist.cur = r :: l) (hreg : r.slot.fused = false)
    (hu : s.withdraw r.slot.start [128, 129, 130, 131] = u) (hmap : r.slot.ses ∉ u.dist.mapSpoilt) :
    slotEnd s = slotDelivers (slotLeaves u l) r (u.verdictWords r) (decide (r.slot.unit = u.rngUnit)) := by
  have hfree : u.verdictFree r (u.verdictWords r) = (u.verdictWords r, u) := by
    unfold State.verdictFree
    exact if_neg fun h => hmap h.1
  have hrun := runOf_regular (s := slotDelivers (slotLeaves u l) r (u.verdictWords r) (decide (r.slot.unit = u.rngUnit))) hreg
  unfold slotDelivers slotLeaves at *
  unfold slotEnd
  rw [hcur]
  dsimp only
  rw [hu, hfree, hrun]

/-- The end of a slot of a regular round writes its verdict. -/
theorem slotEnd_regular {s : State} {r : RngSlot} {l : List RngSlot} (hcur : s.dist.cur = r :: l) (hreg : r.slot.fused = false)
    (hmap : r.slot.ses ∉ s.dist.mapSpoilt) (hroom : s.dist.fifo.length < 16) :
    (slotEnd s).dist.cur = l ∧ (slotEnd s).dist.fifo = s.dist.fifo ++ [s.verdictWords r] ∧ (slotEnd s).envm = s.envm ∧
      (slotEnd s).peat.serving = s.peat.serving := by
  have hw := radioOnly_withdraw s r.slot.start [128, 129, 130, 131]
  have hwords := hw.verdictWords r
  have hwdist := hw.view (·.dist) fun _ _ _ _ _ _ _ _ => rfl
  have hwenvm := hw.view (·.envm) fun _ _ _ _ _ _ _ _ => rfl
  obtain ⟨u, hu⟩ : ∃ u, s.withdraw r.slot.start [128, 129, 130, 131] = u := ⟨_, rfl⟩
  have hwserving : (s.withdraw r.slot.start [128, 129, 130, 131]).peat.serving = s.peat.serving := by rw [hw.only]
  rw [hu] at hwords hwdist hwenvm hwserving
  obtain ⟨hldist, hlenvm, hlpeat⟩ := slotLeaves_dist u l
  rw [slotEnd_delivers hcur hreg hu (by rw [hwdist]; exact hmap), hwords]
  generalize slotLeaves u l = v at *
  rw [hwdist] at hldist
  obtain ⟨hc, hf, he, hserving⟩ := slotDelivers_regular (s := v) hreg (by rw [hldist]; exact hroom) (s.verdictWords r)
    (decide (r.slot.unit = u.rngUnit))
  exact ⟨hc.trans (by rw [hldist]), hf.trans (by rw [hldist]), he.trans (hlenvm.trans hwenvm),
    hserving.trans ((congrArg Peat.serving hlpeat).trans hwserving)⟩

theorem slotEnd_verdict (s : State) (r : RngSlot) (l : List RngSlot) (hcur : s.dist.cur = r :: l) (hreg : r.slot.fused = false)
    (hmap : r.slot.ses ∉ s.dist.mapSpoilt) (hroom : s.dist.fifo.length < 16) (hidle : s.peat.serving = none) :
    ∃ t, exec .slotEnd s = .next t ∧ t.dist.cur = l ∧ t.dist.fifo = s.dist.fifo ++ [s.verdictWords r] ∧
      t.envm = s.envm ∧ BytesKept s t := by
  obtain ⟨hc, hf, he, hserving⟩ := slotEnd_regular hcur hreg hmap hroom
  exact ⟨_, congrArg done (peatGoesOn_idle (hserving.trans hidle)), hc, hf, he, bytesKept_of_still (still_slotEnd s)⟩

/-! ### What comes from other units, and what Peat takes -/

theorem remoteVerdict_comes (s : State) (x : Nat × Frame) (h : s.cwy.taken.find? (fun x => decide (x.2.cls = 3)) = some x)
    (hsub : x.2.sub = 2) (hhead : s.isHead = true) (hroom : s.dist.fifo.length < 16) :
    ∃ t, exec .remoteVerdict s = .next t ∧
      t.dist.fifo = s.dist.fifo ++ [(wordAt (bodyWords x.2.payload) 0 ||| 1) :: (bodyWords x.2.payload).drop 1] ∧
      t.cwy.taken = s.cwy.taken.erase x ∧ RegsBut [] s t ∧ t.lanes = s.lanes ∧ BytesKept s t ∧ t.envm = s.envm := by
  have hrun : remoteVerdict s = ({ s with cwy := { s.cwy with taken := s.cwy.taken.erase x }, dist := { s.dist with
      fifo := s.dist.fifo ++ [(wordAt (bodyWords x.2.payload) 0 ||| 1) :: (bodyWords x.2.payload).drop 1] } } : State).raise .verdict := by
    unfold remoteVerdict
    rw [takeFrame_front h hsub]
    exact (if_pos hhead).trans (pushVerdict_room (s := { s with cwy := { s.cwy with taken := s.cwy.taken.erase x } }) hroom _)
  exact ⟨_, congrArg done hrun, rfl, rfl, regsBut_of_regs rfl _, rfl, bytesKept_of_eq rfl rfl, rfl⟩

theorem next_takes (s : State) (m : Master) (w : List Word) (l : List (List Word)) (hg : Grants s m aDIST_VREAD)
    (hfifo : s.dist.fifo = w :: l) :
    ∃ t, exec (.next m) s = .next t ∧ t.dist.fifo = l ∧
      tfind t.peat.verdicts (fld (wordAt w 0) 23 16 * 32 + fld (wordAt w 0) 7 3) = some ⟨w, s.sysTime⟩ ∧
      RegsBut [] s t ∧ t.lanes = s.lanes ∧ BytesKept s t ∧ t.envm = s.envm := by
  obtain ⟨u, hu, hrun⟩ := owned_sees hg nextVerdict
  have hnext : nextVerdict u = { u with
      dist := { u.dist with fifo := l }
      peat := { u.peat with verdicts := tput u.peat.verdicts (fld (wordAt w 0) 23 16 * 32 + fld (wordAt w 0) 7 3) ⟨w, u.sysTime⟩ } } := by
    unfold nextVerdict
    rw [hu.view (·.dist) fun _ _ => rfl, hfifo]
  refine ⟨_, congrArg done (hrun.trans hnext), rfl, ?_, regsBut_of_regs (hu.view (·.regs) fun _ _ => rfl) _,
    hu.view (·.lanes) fun _ _ => rfl, bytesKept_of_eq (hu.view (·.mem) fun _ _ => rfl) (hu.view (·.flash) fun _ _ => rfl),
    hu.view (·.envm) fun _ _ => rfl⟩
  show tfind (tput u.peat.verdicts _ ⟨w, u.sysTime⟩) _ = _
  rw [tfind_tput_same, hu.view (·.sysTime) fun _ _ => rfl]

theorem arrivalTimes_kept (s : State) (x : Nat × Frame) (f : FusedRun) (rest : List FusedRun)
    (h : s.cwy.taken.find? (fun x => decide (x.2.cls = 3)) = some x) (hsub : x.2.sub = 3) (hhead : s.isHead = true)
    (hfused : s.dist.fused = f :: rest) (hgoing : f.ended = false) (hasked : x.2.src ∈ f.plan.units)
    (hnew : (f.arrivals.all fun a => decide (a.unit ≠ x.2.src)) = true) (hidle : s.peat.serving = none) :
    ∃ t, exec .arrivalTimes s = .next t ∧
      t.dist.fused = { f with arrivals := f.arrivals ++ [reportOf x.2.src x.2.payload] } :: rest ∧
      t.cwy.taken = s.cwy.taken.erase x ∧ RegsBut [] s t ∧ t.lanes = s.lanes ∧ BytesKept s t ∧ t.envm = s.envm := by
  have hrun : arrivalTimes s = { s with cwy := { s.cwy with taken := s.cwy.taken.erase x }, dist := { s.dist with
      fused := { f with arrivals := f.arrivals ++ [reportOf x.2.src x.2.payload] } :: rest } } := by
    unfold arrivalTimes
    rw [takeFrame_front h hsub]
    have hfront : (frameTaken s x).dist.fused = f :: rest := hfused
    dsimp only
    rw [hfront]
    dsimp only
    refine (if_pos ⟨hhead, hasked, hnew⟩).trans ?_
    unfold State.tryFuse
    exact if_neg fun h => by rw [hgoing] at h; exact absurd h.2.1 (by decide)
  have hgoes : peatGoesOn (arrivalTimes s) = _ := (peatGoesOn_idle (by rw [hrun]; exact hidle)).trans hrun
  exact ⟨_, congrArg done hgoes, rfl, rfl, regsBut_of_regs rfl _, rfl, bytesKept_of_eq rfl rfl, rfl⟩

/-- The result of a fused round stands in its registers. -/
theorem fusedResult_shows (s : State) (status : Byte) (ses : Nat) (gen : BitVec 8) (place : Nat) (x y : Int) (units reason : Nat)
    (bound : Int) (resid : Nat) : ∃ w, s.fusedResult status ses gen place x y units reason bound resid = w.raise .fusedResult ∧
      RegsOnly s w ∧ w.reg aDIST_FUSED0 = w32 (status.toNat * 2 ^ 24 + ses % 256 * 2 ^ 16 + gen.toNat * 2 ^ 8 + place) := by
  unfold State.fusedResult
  dsimp only
  refine ⟨_, rfl, ?_, ?_⟩
  · exact ((((regsOnly_setReg ..).trans (regsOnly_setReg ..)).trans (regsOnly_setReg ..)).trans (regsOnly_setReg ..)).trans
      (regsOnly_setReg ..)
  · rw [reg_setReg_ne _ (by decide), reg_setReg_ne _ (by decide), reg_setReg_ne _ (by decide), reg_setReg_ne _ (by decide),
      reg_setReg_same]

/-- The oldest fused round is formed, whatever its result. -/
theorem fuse_forms {s : State} {f : FusedRun} {rest : List FusedRun} (hfused : s.dist.fused = f :: rest) :
    ∃ w, s.fuse = w.raise .fusedResult ∧ RegsOnly { s with dist := { s.dist with fused := rest } } w ∧
      ((s.ses f.plan.ses).st ≠ .ready →
        w.reg aDIST_FUSED0 = w32 (cNoSession.toNat * 2 ^ 24 + f.plan.ses % 256 * 2 ^ 16 + f.plan.gen.toNat * 2 ^ 8 + 0)) := by
  unfold State.fuse
  rw [hfused]
  dsimp only
  split
  next h =>
    obtain ⟨w, hw, honly, hreg⟩ := fusedResult_shows { s with dist := { s.dist with fused := rest } } cNoSession f.plan.ses f.plan.gen
      0 0 0 0 0 0 0
    exact ⟨w, hw, honly, fun _ => hreg⟩
  next h =>
    have hready : ¬ (s.ses f.plan.ses).st ≠ .ready := fun hst => h (.inl hst)
    split
    · obtain ⟨w, hw, honly, -⟩ := fusedResult_shows _ _ _ _ _ _ _ _ _ _ _
      exact ⟨w, hw, honly, fun hst => absurd hst hready⟩
    · obtain ⟨w, hw, honly, -⟩ := fusedResult_shows _ _ _ _ _ _ _ _ _ _ _
      exact ⟨w, hw, honly, fun hst => absurd hst hready⟩

/-- The status of a fused round without a session. -/
theorem status_noSession (ses : Nat) (gen : BitVec 8) :
    fld (w32 (cNoSession.toNat * 2 ^ 24 + ses % 256 * 2 ^ 16 + gen.toNat * 2 ^ 8 + 0)) 31 24 = cNoSession.toNat := by
  have hgen := gen.isLt
  have hcode : cNoSession.toNat < 256 := cNoSession.isLt
  generalize cNoSession.toNat = c at *
  unfold fld w32
  rw [BitVec.toNat_ofNat]
  omega

theorem fusionTimeout_ends (s : State) (f : FusedRun) (rest : List FusedRun) (hfused : s.dist.fused = f :: rest)
    (hhead : s.isHead = true) (hended : f.ended = true) (hidle : s.peat.serving = none) :
    ∃ t, exec .fusionTimeout s = .next t ∧ t.dist.fused = rest ∧
      ((s.ses f.plan.ses).st ≠ .ready → t.rf aDIST_FUSED0 31 24 = cNoSession.toNat) ∧ t.lanes = s.lanes ∧
      t.dist.cur = s.dist.cur ∧ BytesKept s t ∧ t.envm = s.envm := by
  have hrun : fusionTimeout s = s.fuse := by
    unfold fusionTimeout
    rw [hfused]
    exact if_pos ⟨hhead, hended⟩
  obtain ⟨w, hfuse, honly, hnone⟩ := fuse_forms hfused
  have hserving : s.fuse.peat.serving = none := by
    rw [hfuse]
    exact (congrArg Peat.serving honly.peat).trans hidle
  have hgoes : peatGoesOn (fusionTimeout s) = w.raise .fusedResult := by
    rw [hrun, peatGoesOn_idle hserving, hfuse]
  refine ⟨_, congrArg done hgoes, congrArg Dist.fused honly.dist, fun hst => ?_, honly.lanes, (congrArg Dist.cur honly.dist).trans rfl,
    bytesKept_of_eq honly.mem honly.flash, honly.envm⟩
  show fld (w.reg aDIST_FUSED0) 31 24 = _
  rw [hnone hst]
  exact status_noSession ..

/-- Settles O56: by what a slot receives, by its end, and by what comes of a fused round. -/
theorem rangingVerdicts : Obligations.RangingVerdicts := by
  unfold Obligations.RangingVerdicts
  exact ⟨respReceived_hears, reportReceived_reports, slotEnd_verdict, remoteVerdict_comes, next_takes, arrivalTimes_kept,
    fusionTimeout_ends⟩

end Proofs
end Sys2Proof

/-! PROOFS. Ranging rounds: their start, their plans and the placement of their slots (R213 to R215, R229 to R235). -/
namespace Sys2Proof
namespace Proofs

open Sys2Proof.Machine Sys2Proof.Safety Sys2Proof.Laws

/-! ### The numbers of a round -/

theorem nodup_eraseDups (l : List Nat) : l.eraseDups.Nodup := by
  match l with
  | [] => exact List.nodup_nil
  | a :: as =>
    rw [List.eraseDups_cons, List.nodup_cons, List.mem_eraseDups]
    exact ⟨by simp, nodup_eraseDups _⟩
termination_by l.length
decreasing_by exact Nat.lt_succ_of_le (List.length_filter_le ..)

/-- The next number RN of a session. -/
def nextRn (x : Session) : Session := { x with rn := min (x.rn + 1) (2 ^ 24) }

theorem takeRn_sess (s : State) (l : List Nat) : ∃ y, s.takeRn l = { s with sess := y } := by
  have h : (s.takeRn l) = { s with sess := (s.takeRn l).sess } :=
    each_keeps (R := fun s t => t = { s with sess := t.sess }) (fun _ => rfl) (fun h h' => by rw [h'] ; rw [h]) (fun _ _ => rfl) _ s
  exact ⟨_, h⟩

theorem each_rn_other {l : List Nat} {k : Nat} (hk : k ∉ l) (s : State) :
    (s.each l fun s n => s.modSes n nextRn).ses k = s.ses k :=
  each_mem_keeps (R := fun s t => t.ses k = s.ses k) (fun _ => rfl) (fun h h' => h'.trans h)
    (fun s x hx => ses_setSes_ne s (fun h : k = x => hk (h ▸ hx)) _) s

/-- Each session that a round has a slot of takes its next number once. -/
theorem each_rn_mem {l : List Nat} (hl : l.Nodup) {k : Nat} (hk : k ∈ l) (s : State) :
    ((s.each l fun s n => s.modSes n nextRn).ses k).rn = min ((s.ses k).rn + 1) (2 ^ 24) := by
  induction l generalizing s with
  | nil => exact absurd hk List.not_mem_nil
  | cons a as ih =>
    obtain ⟨hfirst, hrest⟩ := List.nodup_cons.mp hl
    show ((State.each (s.modSes a nextRn) as fun s n => s.modSes n nextRn).ses k).rn = _
    by_cases ha : k = a
    · subst ha
      rw [each_rn_other hfirst]
      unfold State.modSes
      rw [ses_setSes_same]
      rfl
    · rw [ih hrest ((List.mem_cons.mp hk).resolve_left ha)]
      unfold State.modSes
      rw [ses_setSes_ne s ha]

theorem takeRn_takes {l : List Nat} {k : Nat} (hk : k ∈ l) (s : State) :
    ((s.takeRn l).ses k).rn = min ((s.ses k).rn + 1) (2 ^ 24) :=
  each_rn_mem (nodup_eraseDups l) (List.mem_eraseDups.mpr hk) s

/-! ### A plan in use -/

/-- Only registers, the uses of sessions and the planned slots differ. -/
structure PlansOnly (s t : State) : Prop where
  only : t = { s with regs := t.regs, sess := t.sess, dist := { s.dist with plan := t.dist.plan, named := t.dist.named } }
  rn : ∀ k, (t.ses k).rn = (s.ses k).rn

theorem PlansOnly.refl (s : State) : PlansOnly s s := ⟨rfl, fun _ => rfl⟩

theorem PlansOnly.trans {s t u : State} (h : PlansOnly s t) (h' : PlansOnly t u) : PlansOnly s u := by
  refine ⟨?_, fun k => (h'.rn k).trans (h.rn k)⟩
  have e := h'.only
  rw [h.only] at e
  exact e

/-- The state but for registers, sessions and the ranging slots. -/
theorem PlansOnly.rest {s t : State} (h : PlansOnly s t) : t = { s with regs := t.regs, sess := t.sess, dist := t.dist } := by
  have e := h.only
  have hdist : t.dist = { s.dist with plan := t.dist.plan, named := t.dist.named } := congrArg State.dist e
  rw [← hdist] at e
  exact e

theorem plansOnly_skipOverlaps (s : State) (f : FusedPlan) : PlansOnly s (s.skipOverlaps f) := ⟨rfl, fun _ => rfl⟩

theorem plansOnly_bumpSat (s : State) (a hi lo n : Nat) : PlansOnly s (s.bumpSat a hi lo n) := ⟨rfl, fun _ => rfl⟩

theorem plansOnly_nameSlots (s : State) (l : List PlanSlot) : PlansOnly s (s.nameSlots l) := by
  unfold State.nameSlots State.onlyIf
  split
  · exact ⟨rfl, fun _ => rfl⟩
  · exact .refl s

theorem plansOnly_use (s : State) (n v : Nat) : PlansOnly s (s.modSes n fun x => { x with lastUse := v }) := by
  refine ⟨rfl, fun k => ?_⟩
  unfold State.modSes
  by_cases hk : k = n
  · rw [hk, ses_setSes_same]
  · rw [ses_setSes_ne s hk]

theorem plansOnly_slotUses (s : State) : PlansOnly s s.slotUses := by
  refine PlansOnly.trans (t := s.each s.dist.named _) (each_keeps PlansOnly.refl PlansOnly.trans (fun t x => ?_) _ s) ⟨rfl, fun _ => rfl⟩
  split
  next k _ =>
    cases decide ((t.ses x.ses).gen = x.gen) with
    | true => exact plansOnly_use ..
    | false => exact .refl t
  next => exact .refl t

/-- What a plan in use shows. -/
structure PlanUsed (s t : State) (l : List PlanSlot) (start : Nat) : Prop where
  only : t = { s with regs := t.regs, sess := t.sess, dist := t.dist }
  rn : ∀ k, (t.ses k).rn = (s.ses k).rn
  roundStart : t.dist.roundStart = start
  nslots : t.dist.nslots = l.length
  roundEnd : t.dist.roundEnd = (start + l.length * slotSteps) % 2 ^ 40

theorem usePlan_used (s : State) (l : List PlanSlot) (start : Nat) : PlanUsed s (s.usePlan l start) l start := by
  unfold State.usePlan
  dsimp only
  have hbefore := (plansOnly_bumpSat s aDIST_SKIP 15 0 (s.dist.plan.filter fun x => !x.fused).length).trans (plansOnly_slotUses _)
  generalize (s.bumpSat aDIST_SKIP 15 0 (s.dist.plan.filter fun x => !x.fused).length).slotUses = a at *
  obtain ⟨y, hy⟩ : ∃ y : Dist, y = { a.dist with
      reg := a.alignNow,
      plan := (a.dist.plan.filter fun (x : PlanSlot) => x.fused) ++ a.mySlots l, roundStart := start, nslots := l.length,
      roundEnd := (start + l.length * slotSteps) % 2 ^ 40,
      named := a.dist.named.filter fun (x : PlanSlot) => x.fused } := ⟨_, rfl⟩
  have hafter : ∀ b : State, PlansOnly b (State.each (b.nameSlots l) (b.nameSlots l).fusedPlans fun s f => s.skipOverlaps f) := fun b =>
    (plansOnly_nameSlots b l).trans (each_keeps PlansOnly.refl PlansOnly.trans plansOnly_skipOverlaps _ _)
  have h := hafter { a with dist := y }
  rw [hy] at h
  generalize State.each _ _ _ = t at *
  have honly := h.only
  refine ⟨?_, fun k => (h.rn k).trans (hbefore.rn k), ?_, ?_, ?_⟩
  · have hrest := h.rest
    have hfirst := hbefore.rest
    rw [hfirst] at hrest
    exact hrest
  all_goals rw [honly]

/-! ### The start of a round -/

/-- The slots of a regular round. -/
def roundSlots (s : State) (start : Nat) : List PlanSlot :=
  (s.slotRegs.zipIdx).map fun x =>
    { idx := x.2, unit := x.1.2, ses := x.1.1, gen := (s.ses x.1.1).gen, fused := false, num := (s.ses x.1.1).rn % 2 ^ 24,
      past := decide (2 ^ 24 ≤ (s.ses x.1.1).rn), start := (start + x.2 * slotSteps) % 2 ^ 40 }

theorem sessions_roundSlots (s : State) (start : Nat) : (roundSlots s start).map (fun x => x.ses) = s.slotRegs.map (·.1) := by
  unfold roundSlots
  rw [List.map_map]
  conv_rhs => rw [← List.zipIdx_map_fst 0 s.slotRegs, List.map_map]
  rfl

theorem length_roundSlots (s : State) (start : Nat) : (roundSlots s start).length = s.slotRegs.length := by
  unfold roundSlots
  rw [List.length_map, List.length_zipIdx]

theorem roundStart_starts (s : State) (hres : s.resumed = true) (hhead : s.isHead = true) (hon : s.rb aDIST_CTL 0 = true)
    (hfe : s.feOn 5 = true) (hheld : 5 ∉ s.cfg.held) :
    ∃ t, exec .roundStart s = .next t ∧ t.dist.roundStart = (s.tsNow + slotSteps) % 2 ^ 40 ∧
      t.dist.nslots = s.slotRegs.length ∧
      t.dist.roundEnd = (t.dist.roundStart + s.slotRegs.length * slotSteps) % 2 ^ 40 ∧
      (∀ k, k ∈ s.slotRegs.map (·.1) → (t.ses k).rn = min ((s.ses k).rn + 1) (2 ^ 24)) ∧ BytesKept s t ∧
      t.envm = s.envm := by
  obtain ⟨start, hstart⟩ : ∃ start, (s.tsNow + slotSteps) % 2 ^ 40 = start := ⟨_, rfl⟩
  obtain ⟨y, htake⟩ := takeRn_sess s (s.slotRegs.map (·.1))
  have hrn : ∀ k, k ∈ s.slotRegs.map (·.1) → ((s.takeRn (s.slotRegs.map (·.1))).ses k).rn = min ((s.ses k).rn + 1) (2 ^ 24) :=
    fun k hk => takeRn_takes hk s
  have hused := usePlan_used (s.takeRn (s.slotRegs.map (·.1))) (roundSlots s start) start
  have hrun : roundStart s = State.onlyIf ((s.takeRn (s.slotRegs.map (·.1))).usePlan (roundSlots s start) start)
      (decide (0 < popCount 16 (((s.takeRn (s.slotRegs.map (·.1))).usePlan (roundSlots s start) start).rf aCWY_PRESENT 15 1)))
      fun s' => s'.sendAuth 31 3 1 (planBody false start (roundSlots s start)) [] := by
    rw [← sessions_roundSlots s start, ← hstart]
    exact if_neg (by rw [hres, hhead, hon, hfe]; exact fun h => by simp [hheld] at h)
  have hbytes := bytesKept_of_still (still_roundStart s)
  have hall : ∃ t, roundStart s = t ∧ SendsOnly ((s.takeRn (s.slotRegs.map (·.1))).usePlan (roundSlots s start) start) t := by
    refine ⟨_, rfl, ?_⟩
    rw [hrun]
    generalize decide (0 < popCount 16 _) = c
    cases c with
    | true => exact sendsOnly_sendAuth ..
    | false => exact .refl _
  obtain ⟨t, ht, hsend⟩ := hall
  rw [ht] at hbytes
  unfold SendsOnly at hsend
  generalize State.usePlan _ _ _ = u at *
  generalize s.takeRn _ = v at *
  refine ⟨t, congrArg done ht, ?_, ?_, ?_, fun k hk => ?_, hbytes, ?_⟩
  · rw [hsend, hstart]
    exact hused.roundStart
  · rw [hsend, ← length_roundSlots s start]
    exact hused.nslots
  · rw [hsend, ← length_roundSlots s start]
    exact hused.roundEnd.trans (by rw [hused.roundStart])
  · have hses : t.ses k = u.ses k := by
      rw [hsend]
      rfl
    rw [hses, hused.rn, hrn k hk]
  · rw [hsend, hused.only, htake]

/-! ### A plan that arrives, and one that does not -/

/-- The unit notes when a plan with a slot of its own came. -/
def planNoted (s : State) (l : List PlanSlot) : State :=
  if l.any fun x => decide (x.unit = s.rngUnit) then { s with dist := { s.dist with planAt := some s.now } } else s

theorem planNoted_dist (s : State) (l : List PlanSlot) : ∃ y, planNoted s l = { s with dist := y } := by
  unfold planNoted
  split
  · exact ⟨_, rfl⟩
  · exact ⟨s.dist, rfl⟩

/-- DIST_SLOTn shows slot n of a plan. -/
def slotShown (l : List PlanSlot) (s : State) (n : Nat) : State :=
  s.setReg (aDIST_SLOT n) (match l[n]? with
    | some x => w32 (2 ^ 31 + x.unit * 2 ^ 16 + x.ses * 2 ^ 8)
    | none => 0)

theorem slotShown_regs (l : List PlanSlot) (ns : List Nat) (s : State) : RegsOnly s (s.each ns (slotShown l)) :=
  each_keeps (R := RegsOnly) .refl (fun h h' => h.trans h') (fun _ _ => regsOnly_setReg ..) ns s

theorem planArrives_eq {s : State} {x : Nat × Frame} {l : List PlanSlot}
    (hfront : s.cwy.taken.find? (fun x => decide (x.2.cls = 3)) = some x) (hsub : x.2.sub = 1) (hhead : s.isHead = false)
    (hl : planSlots x.2.payload = l) (htime : s.inTime l = true) (hkind : byteAt x.2.payload 0 ≠ 1) :
    planArrives s = { (((planNoted (frameTaken s x) l).each (List.range 32) (slotShown l)).usePlan l (ofLE (slice x.2.payload 1 5))) with
      dist := { (((planNoted (frameTaken s x) l).each (List.range 32) (slotShown l)).usePlan l (ofLE (slice x.2.payload 1 5))).dist with
        planIn := true } } := by
  unfold planArrives
  rw [takeFrame_front hfront hsub]
  dsimp only
  rw [if_neg (by rw [show (frameTaken s x).isHead = s.isHead from rfl, hhead]; decide), hl,
    if_neg (by rw [show (frameTaken s x).inTime l = s.inTime l from rfl, htime]; decide), if_neg hkind]
  rfl

theorem plan_arrives (s : State) (x : Nat × Frame) (hfront : s.cwy.taken.find? (fun x => decide (x.2.cls = 3)) = some x)
    (hsub : x.2.sub = 1) (hhead : s.isHead = false) (htime : s.inTime (planSlots x.2.payload) = true)
    (hkind : byteAt x.2.payload 0 ≠ 1) :
    ∃ t, exec .plan s = .next t ∧ t.dist.planIn = true ∧ t.dist.roundStart = ofLE (slice x.2.payload 1 5) ∧
      t.dist.nslots = byteAt x.2.payload 6 ∧ t.cwy.taken = s.cwy.taken.erase x ∧ BytesKept s t ∧ t.envm = s.envm := by
  obtain ⟨l, hl⟩ : ∃ l, planSlots x.2.payload = l := ⟨_, rfl⟩
  have hlen : l.length = byteAt x.2.payload 6 := by
    rw [← hl, planSlots, List.length_map, List.length_range]
  rw [hl] at htime
  have hbytes := bytesKept_of_still (still_planArrives s)
  have hrun := planArrives_eq hfront hsub hhead hl htime hkind
  obtain ⟨y, hnoted⟩ := planNoted_dist (frameTaken s x) l
  have hshown := slotShown_regs l (List.range 32) (planNoted (frameTaken s x) l)
  generalize planNoted _ _ = b at *
  generalize State.each b _ _ = u at *
  have hused := usePlan_used u l (ofLE (slice x.2.payload 1 5))
  have honly := hused.only
  generalize u.usePlan _ _ = v at *
  rw [hrun] at hbytes
  refine ⟨_, congrArg done hrun, rfl, hused.roundStart, hused.nslots.trans hlen, ?_, hbytes, ?_⟩
  · show v.cwy.taken = _
    rw [honly]
    have hcwy : u.cwy = (frameTaken s x).cwy := hshown.cwy.trans (by rw [hnoted])
    rw [hcwy]
    rfl
  · show v.envm = _
    rw [honly]
    exact hshown.envm.trans (by rw [hnoted]; rfl)

theorem regsBut_bumpSat (s : State) {l : List Nat} {a : Nat} (h : a ∈ l) (hi lo n : Nat) : RegsBut l s (s.bumpSat a hi lo n) :=
  regsBut_srf s h hi lo _

theorem planDeadline_met (s : State) (hhead : s.isHead = false) (hres : s.resumed = true) (hin : s.dist.planIn = true) :
    ∃ t, exec .planDeadline s = .next t ∧ t.dist = { s.dist with planIn := false } ∧ RegsBut [] s t ∧
      t.lanes = s.lanes ∧ BytesKept s t ∧ t.envm = s.envm := by
  have hrun : planDeadline s = { s with dist := { s.dist with planIn := false } } := by
    unfold planDeadline
    rw [if_neg (by rw [hhead, hres]; decide), if_pos hin]
  exact ⟨_, congrArg done hrun, rfl, regsBut_of_regs rfl _, rfl, bytesKept_of_eq rfl rfl, rfl⟩

theorem planDeadline_missed (s : State) (hhead : s.isHead = false) (hres : s.resumed = true) (hin : s.dist.planIn = false) :
    ∃ t, exec .planDeadline s = .next t ∧
      t.rf aDIST_SKIP 15 0 = min 65535 (s.rf aDIST_SKIP 15 0 + (s.slotRegs.filter fun x => decide (x.2 = s.rngUnit)).length) ∧
      t.dist = s.dist ∧ RegsBut [aDIST_SKIP] s t ∧ t.lanes = s.lanes ∧ BytesKept s t ∧ t.envm = s.envm := by
  have hrun : planDeadline s = s.bumpSat aDIST_SKIP 15 0 (s.slotRegs.filter fun x => decide (x.2 = s.rngUnit)).length := by
    unfold planDeadline
    rw [if_neg (by rw [hhead, hres]; decide), if_neg (by rw [hin]; decide)]
  refine ⟨_, congrArg done hrun, ?_, rfl, regsBut_bumpSat s (by simp) 15 0 _, rfl, bytesKept_of_eq rfl rfl, rfl⟩
  unfold State.bumpSat
  rw [rf_srf_same s aDIST_SKIP _ (by decide) (by decide)]
  exact Nat.mod_eq_of_lt (by omega)

/-! ### The placement of a slot -/

/-- The operations of a slot stand behind those accepted before, each with its frame kind and its time. -/
theorem accepts_show (x : PlanSlot) (l : List (Nat × Nat)) (s : State) :
    ∃ ops n, l.foldl (fun s o => s.opAccept (s.slotOpOf x o.1 o.2)) s =
        { s with uwb := { s.uwb with ops := s.uwb.ops ++ ops, nextId := n } } ∧
      ops.map (fun o => (o.chan, o.ref)) = l.map (fun o => (128 + o.1, x.start)) ∧
      ops.map (fun o => o.time) = l.map fun o => (s.slotStart x + tsUs o.2) % 2 ^ 40 := by
  induction l generalizing s with
  | nil => exact ⟨[], s.uwb.nextId, by rw [List.append_nil]; rfl, rfl, rfl⟩
  | cons o os ih =>
    obtain ⟨ops, n, hall, hframes, htimes⟩ := ih (s.opAccept (s.slotOpOf x o.1 o.2))
    refine ⟨{ s.slotOpOf x o.1 o.2 with id := s.uwb.nextId } :: ops, n, ?_, ?_, ?_⟩
    · rw [List.foldl_cons, hall]
      simp [State.opAccept]
    · rw [List.map_cons, List.map_cons, hframes]
      rfl
    · rw [List.map_cons, List.map_cons, htimes]
      rfl

/-- Only the slots, the STS generator's hold and the accepted operations differ. -/
structure PlacesOnly (s t : State) : Prop where
  only : t = { s with dist := t.dist, eng := { s.eng with stsBusy := t.eng.stsBusy }, uwb := t.uwb }
  dist : t.dist = { s.dist with plan := t.dist.plan, cur := t.dist.cur }

/-- The placement of a slot with its operations. -/
def placedAs (s : State) (x : PlanSlot) (own gone : Bool) (ops : List (Nat × Nat)) : State :=
  let full := decide (64 < s.uwbPending + ops.length)
  let r := { slotNil x with noSession := gone, reason := if !gone && full && own then 4 else 0 }
  let s := { s with dist := { s.dist with plan := s.dist.plan.erase x, cur := s.dist.cur ++ [r] } }
  if gone || full then s
  else ops.foldl (fun s o => s.opAccept (s.slotOpOf x o.1 o.2)) { s with eng := { s.eng with stsBusy := true } }

/-- The operations of a slot: kind and time in µs. -/
def slotOps (own : Bool) : List (Nat × Nat) :=
  if own then [(0, 100), (1, 380), (2, 700), (3, 980)] else [(1, 380), (3, 980)]

section
variable {s u : State} (hres : s.resumed = true) (hroom : s.dist.cur.length < 2) (hu : s.onlyIf s.fusedNext State.takeUp = u)
include hres hroom hu

theorem slotPlacement_none (hfirst : u.firstSlot u.dist.plan = none) : slotPlacement s = u := by
  unfold slotPlacement
  dsimp only
  rw [if_neg (by rw [hres]; simpa using hroom), hu, hfirst]

theorem slotPlacement_some {x : PlanSlot} (hfirst : u.firstSlot u.dist.plan = some x) :
    slotPlacement s = placedAs u x (decide (x.unit = u.rngUnit))
      ((decide (x.unit = u.rngUnit) = false && !x.fused) || (u.slotSes x).isNone) (slotOps (decide (x.unit = u.rngUnit))) := by
  unfold slotPlacement
  dsimp only
  rw [if_neg (by rw [hres]; simpa using hroom), hu, hfirst]
  rfl

end

theorem placesOnly_accepts {s u : State} (h : PlacesOnly s u) (x : PlanSlot) (l : List (Nat × Nat)) :
    PlacesOnly s (l.foldl (fun s o => s.opAccept (s.slotOpOf x o.1 o.2)) u) := by
  obtain ⟨ops, n, hall, -⟩ := accepts_show x l u
  rw [hall]
  have honly := h.only
  refine ⟨?_, h.dist⟩
  conv_lhs => rw [honly]

theorem placedAs_places (s : State) (x : PlanSlot) (own gone : Bool) (ops : List (Nat × Nat)) :
    PlacesOnly s (placedAs s x own gone ops) := by
  unfold placedAs
  dsimp only
  split
  · exact ⟨rfl, rfl⟩
  · refine placesOnly_accepts ?_ x ops
    exact ⟨rfl, rfl⟩

theorem slotPlacement_places {s u : State} (hres : s.resumed = true) (hroom : s.dist.cur.length < 2)
    (hu : s.onlyIf s.fusedNext State.takeUp = u) : PlacesOnly u (slotPlacement s) := by
  cases hfirst : u.firstSlot u.dist.plan with
  | none =>
    rw [slotPlacement_none hres hroom hu hfirst]
    exact ⟨rfl, rfl⟩
  | some x =>
    rw [slotPlacement_some hres hroom hu hfirst]
    exact placedAs_places ..

theorem placedAs_room {s : State} (x : PlanSlot) {ops : List (Nat × Nat)} (hroom : s.uwbPending + ops.length ≤ 64) :
    placedAs s x true false ops = ops.foldl (fun s o => s.opAccept (s.slotOpOf x o.1 o.2)) { s with
      dist := { s.dist with plan := s.dist.plan.erase x, cur := s.dist.cur ++ [slotNil x] }, eng := { s.eng with stsBusy := true } } := by
  unfold placedAs
  dsimp only
  rw [decide_eq_false (by omega)]
  rfl

theorem slotPlacement_own (s : State) (x : PlanSlot) (hres : s.resumed = true) (hroom : s.dist.cur.length < 2)
    (hnext : s.fusedNext = false) (hfirst : s.firstSlot s.dist.plan = some x) (hown : x.unit = s.rngUnit)
    (hkey : (s.slotSes x).isSome = true) (hpend : s.uwbPending ≤ 60) :
    ∃ t, exec .slotPlacement s = .next t ∧ t.dist.plan = s.dist.plan.erase x ∧
      t.dist.cur = s.dist.cur ++ [slotNil x] ∧ t.eng.stsBusy = true ∧ t.uwb.ops.take s.uwb.ops.length = s.uwb.ops ∧
      ((t.uwb.ops.drop s.uwb.ops.length).map fun o => (o.chan, o.ref)) = [128, 129, 130, 131].map (fun f => (f, x.start)) ∧
      ((t.uwb.ops.drop s.uwb.ops.length).map fun o => o.time) =
        [100, 380, 700, 980].map (fun us => (s.slotStart x + tsUs us) % 2 ^ 40) ∧
      RegsBut [] s t ∧ t.lanes = s.lanes ∧ BytesKept s t ∧ t.envm = s.envm := by
  have hgone : (s.slotSes x).isNone = false := by
    rw [Option.isNone_eq_false_iff]
    exact hkey
  have hrun := slotPlacement_some hres hroom (by rw [hnext, onlyIf_false]) hfirst
  rw [decide_eq_true hown, hgone] at hrun
  have hrun' : slotPlacement s = placedAs s x true false (slotOps true) := hrun
  rw [placedAs_room x (Nat.add_le_add_right hpend 4)] at hrun'
  obtain ⟨ops, n, hall, hframes, htimes⟩ := accepts_show x (slotOps true) { s with
    dist := { s.dist with plan := s.dist.plan.erase x, cur := s.dist.cur ++ [slotNil x] }, eng := { s.eng with stsBusy := true } }
  rw [hall] at hrun'
  refine ⟨_, congrArg done hrun', rfl, rfl, rfl, List.take_left, ?_, ?_, regsBut_of_regs rfl _, rfl, bytesKept_of_eq rfl rfl, rfl⟩
  · rw [List.drop_left, hframes]
    rfl
  · rw [List.drop_left, htimes]
    rfl

/-! ### Fused rounds -/

/-- What a fused round taken up leaves. -/
structure TakenUp (s t : State) (p : FusedPlan) (l : List FusedPlan) : Prop where
  only : t = { s with dist := t.dist }
  reqs : t.dist.fuseReqs = l
  plan : t.dist.plan = fusedSlots p ++ s.dist.plan
  fused : t.dist.fused = s.dist.fused ++ [⟨p, [], [], 0, 1, [], false, s.alignNow, false⟩]
  align : t.alignNow = s.alignNow

theorem takeUp_takes {s : State} {p : FusedPlan} {l : List FusedPlan} (hreqs : s.dist.fuseReqs = p :: l) :
    TakenUp s s.takeUp p l := by
  have hrun : s.takeUp = { s with dist := { s.dist with
      fuseReqs := l, plan := fusedSlots p ++ s.dist.plan,
      fused := s.dist.fused ++ [(⟨p, [], [], 0, 1, [], false, s.alignNow, false⟩ : FusedRun)] } }.nameSlots (fusedSlots p) := by
    unfold State.takeUp
    rw [hreqs]
  rw [hrun]
  unfold State.nameSlots State.onlyIf
  split
  · exact ⟨rfl, rfl, rfl, rfl, rfl⟩
  · exact ⟨rfl, rfl, rfl, rfl, rfl⟩

theorem slotPlacement_takesUp (s : State) (p : FusedPlan) (l : List FusedPlan) (hreqs : s.dist.fuseReqs = p :: l)
    (hres : s.resumed = true) (hroom : s.dist.cur.length < 2) (hnext : s.fusedNext = true) :
    ∃ t, exec .slotPlacement s = .next t ∧ t.dist.fuseReqs = l ∧
      t.dist.fused = s.dist.fused ++ [⟨p, [], [], 0, 1, [], false, s.alignNow, false⟩] ∧ RegsBut [] s t ∧
      t.lanes = s.lanes ∧ BytesKept s t ∧ t.envm = s.envm := by
  have htaken := takeUp_takes hreqs
  have hplace := slotPlacement_places hres hroom (by rw [hnext, onlyIf_true])
  obtain ⟨t, hrun⟩ : ∃ t, slotPlacement s = t := ⟨_, rfl⟩
  rw [hrun] at hplace
  generalize s.takeUp = u at *
  have honly := hplace.only
  have hu := htaken.only
  refine ⟨t, congrArg done hrun, ?_, ?_, regsBut_of_regs ?_ _, ?_, bytesKept_of_eq ?_ ?_, ?_⟩
  · rw [hplace.dist]
    exact htaken.reqs
  · rw [hplace.dist]
    exact htaken.fused
  all_goals rw [honly, hu]

theorem fusedRoundStart_takesUp (s : State) (p : FusedPlan) (l : List FusedPlan) (hreqs : s.dist.fuseReqs = p :: l)
    (hres : s.resumed = true) (hbegun : s.dist.fused.all FusedRun.begun = true) :
    ∃ t, exec .fusedRoundStart s = .next t ∧ t.dist.fuseReqs = l ∧ t.dist.plan = fusedSlots p ++ s.dist.plan ∧
      t.dist.fused = s.dist.fused ++ [⟨p, [], [], 0, 1, [], false, s.alignNow, true⟩] ∧ RegsBut [] s t ∧
      t.lanes = s.lanes ∧ BytesKept s t ∧ t.envm = s.envm := by
  have htaken := takeUp_takes hreqs
  have hrun : fusedRoundStart s = { s.takeUp with dist := { s.takeUp.dist with fused := s.takeUp.dist.fused.map fun f =>
      if f.begun then f else { f with begun := true, align := s.takeUp.alignNow } } } := by
    unfold fusedRoundStart
    rw [if_neg (by rw [hres]; decide), hbegun, if_pos rfl]
  generalize s.takeUp = u at *
  have hu := htaken.only
  refine ⟨_, congrArg done hrun, htaken.reqs, htaken.plan, ?_, regsBut_of_regs ?_ _, ?_, bytesKept_of_eq ?_ ?_, ?_⟩
  · show u.dist.fused.map _ = _
    rw [htaken.fused, htaken.align, List.map_append]
    congr 1
    refine (List.map_congr_left fun f hf => ?_).trans (List.map_id _)
    exact if_pos (List.all_eq_true.mp hbegun f hf)
  · show u.regs = _
    rw [hu]
  · show u.lanes = _
    rw [hu]
  · show u.mem = _
    rw [hu]
  · show u.flash = _
    rw [hu]
  · show u.envm = _
    rw [hu]

theorem fusedRoundStart_begins (s : State) (f : FusedRun) (hfused : s.dist.fused = [f]) (hbegun : f.begun = false)
    (hres : s.resumed = true) :
    ∃ t, exec .fusedRoundStart s = .next t ∧
      t.dist = { s.dist with fused := [{ f with begun := true, align := s.alignNow }] } ∧ RegsBut [] s t ∧
      t.lanes = s.lanes ∧ BytesKept s t ∧ t.envm = s.envm := by
  have hrun : fusedRoundStart s = { s with dist := { s.dist with fused := [{ f with begun := true, align := s.alignNow }] } } := by
    unfold fusedRoundStart
    dsimp only
    rw [if_neg (by rw [hres]; decide), hfused, List.all_cons, hbegun, Bool.false_and, if_neg (by decide), hfused, List.map_singleton, hbegun]
    rfl
  exact ⟨_, congrArg done hrun, rfl, regsBut_of_regs rfl _, rfl, bytesKept_of_eq rfl rfl, rfl⟩

/-! ### DIST_MAP and DIST_FUSE -/

/-- A mask that leaves a bit out does not see it written. -/
theorem setFld_masked (w : Word) {i : Nat} (hi : i < 32) {k : Word} (hk : k.getLsbD i = false) (v : Nat) :
    setFld w i i v &&& k = w &&& k := by
  refine BitVec.eq_of_getLsbD_eq fun j hj => ?_
  rw [BitVec.getLsbD_and, BitVec.getLsbD_and]
  by_cases h : j = i
  · rw [h, hk, Bool.and_false, Bool.and_false]
  · have hbit : bit (setFld w i i v) j = bit w j := bit_setFld_ne w (Nat.le_refl i) hi (by omega) v
    unfold bit at hbit
    rw [hbit]

/-- What a write of DIST_MAP leaves. -/
theorem mapWrite_only (v : Word) (s : State) :
    (mapWrite v s).regs = (s.setReg aDIST_MAP (v &&& 0xFFFF00)).regs ∧ (mapWrite v s).lanes = s.lanes ∧
      (mapWrite v s).envm = s.envm ∧ BytesKept s (mapWrite v s) := by
  refine ⟨?_, ?_, ?_, bytesKept_of_still (still_mapWrite v s)⟩ <;>
  · unfold mapWrite State.onlyIf
    dsimp only
    split <;> split <;> rfl

/-- The map with the pair of a word set, where the word asks for that. -/
def mapPut (v : Word) (l : Tab Nat) : Tab Nat := if bit v 31 then tput l (fld v 15 8) (fld v 23 16) else l

/-- The map after a write of DIST_MAP. -/
theorem mapWrite_map (v : Word) (s : State) :
    (mapWrite v s).dist.map = if bit v 30 then tdel (mapPut v s.dist.map) (fld v 15 8) else mapPut v s.dist.map := by
  unfold mapWrite mapPut
  have hdist : (s.setReg aDIST_MAP (v &&& 0xFFFF00)).dist = s.dist := rfl
  generalize s.setReg aDIST_MAP (v &&& 0xFFFF00) = w at *
  rw [← hdist]
  unfold State.onlyIf
  cases bit v 31 with
  | true => cases bit v 30 with
    | true => rfl
    | false => rfl
  | false => cases bit v 30 with
    | true => rfl
    | false => rfl

theorem mapWrite_shows (s : State) (m : Master) (v w : Word) (hg : Grants s m aDIST_MAP) (hmask : w &&& 0xFFFF00 = v &&& 0xFFFF00) :
    ∃ u, CountsOnly s u ∧ s.owned m aDIST_MAP (mapWrite w) = mapWrite w u ∧ (mapWrite w u).reg aDIST_MAP = v &&& 0xFFFF00 ∧
      RegsBut [aDIST_MAP] s (mapWrite w u) ∧ (mapWrite w u).lanes = s.lanes ∧ BytesKept s (mapWrite w u) ∧
      (mapWrite w u).envm = s.envm := by
  obtain ⟨u, hu, hown⟩ := owned_sees hg (mapWrite w)
  obtain ⟨hregs, hlanes, henvm, hbytes⟩ := mapWrite_only w u
  rw [hmask] at hregs
  refine ⟨u, hu, hown, ?_, ?_, hlanes.trans (hu.view (·.lanes) fun _ _ => rfl), BytesKept.trans hu.bytes hbytes,
    henvm.trans (hu.view (·.envm) fun _ _ => rfl)⟩
  · unfold State.reg
    rw [hregs]
    exact reg_setReg_same ..
  · refine RegsBut.trans (hu.regsBut _) (RegsBut.trans (t := u.setReg aDIST_MAP (v &&& 0xFFFF00)) (regsBut_setReg u (by simp) _) ?_)
    exact regsBut_of_regs hregs _

theorem mapSet_sets (s : State) (m : Master) (v : Word) (hg : Grants s m aDIST_MAP) (hclr : bit v 30 = false) :
    ∃ t, exec (.mapSet m v) s = .next t ∧ tfind t.dist.map (fld v 15 8) = some (fld v 23 16) ∧
      t.reg aDIST_MAP = v &&& 0xFFFF00 ∧ RegsBut [aDIST_MAP] s t ∧ t.lanes = s.lanes ∧ BytesKept s t ∧ t.envm = s.envm := by
  obtain ⟨u, -, hown, hshows⟩ := mapWrite_shows s m v (setFld v 31 31 1) hg (setFld_masked v (by decide) (by decide) 1)
  refine ⟨_, congrArg done hown, ?_, hshows⟩
  have hset : bit (setFld v 31 31 1) 31 = true := bit_setFld_same v (by decide) true
  have hclr' : bit (setFld v 31 31 1) 30 = false := (bit_setFld_ne v (by decide) (by decide) (by decide) 1).trans hclr
  have hhead : fld (setFld v 31 31 1) 15 8 = fld v 15 8 := fld_setFld_below v (by decide) (by decide) (by decide) (by decide) 1
  have hland : fld (setFld v 31 31 1) 23 16 = fld v 23 16 := fld_setFld_below v (by decide) (by decide) (by decide) (by decide) 1
  rw [mapWrite_map, hclr', if_neg (by decide), mapPut, hset, if_pos rfl, hhead, hland]
  exact tfind_tput_same ..

theorem mapClr_clears (s : State) (m : Master) (v : Word) (hg : Grants s m aDIST_MAP) (hset : bit v 31 = false) :
    ∃ t, exec (.mapClr m v) s = .next t ∧ tfind t.dist.map (fld v 15 8) = none ∧
      t.reg aDIST_MAP = v &&& 0xFFFF00 ∧ RegsBut [aDIST_MAP] s t ∧ t.lanes = s.lanes ∧ BytesKept s t ∧ t.envm = s.envm := by
  obtain ⟨u, -, hown, hshows⟩ := mapWrite_shows s m v (setFld v 30 30 1) hg (setFld_masked v (by decide) (by decide) 1)
  refine ⟨_, congrArg done hown, ?_, hshows⟩
  have hclr : bit (setFld v 30 30 1) 30 = true := bit_setFld_same v (by decide) true
  have hset' : bit (setFld v 30 30 1) 31 = false := (bit_setFld_ne v (by decide) (by decide) (by decide) 1).trans hset
  have hhead : fld (setFld v 30 30 1) 15 8 = fld v 15 8 := fld_setFld_below v (by decide) (by decide) (by decide) (by decide) 1
  rw [mapWrite_map, hclr, if_pos rfl, hhead]
  exact tfind_tdel_same ..

/-- A fused plan placed and sent changes no session and no register but the counts of what it skips and sends. -/
theorem skipOverlaps_sends_regs (a : State) (x : FusedPlan) (many : Bool) (dst cls sub : Nat) (body nh : Bytes) :
    ((a.skipOverlaps x).onlyIf many (fun s => s.sendAuth dst cls sub body nh)).sess = a.sess ∧
      RegsBut [aDIST_SKIP, aCWY_AUTH, aAES_COUNT] a ((a.skipOverlaps x).onlyIf many (fun s => s.sendAuth dst cls sub body nh)) := by
  have hsess : (a.skipOverlaps x).sess = a.sess := rfl
  have hregs : RegsBut [aDIST_SKIP, aCWY_AUTH, aAES_COUNT] a (a.skipOverlaps x) :=
    RegsBut.trans (t := a.bumpSat aDIST_SKIP 15 0 _) (regsBut_bumpSat a (by simp) 15 0 _) (regsBut_of_regs rfl _)
  generalize a.skipOverlaps x = u at *
  cases many with
  | false => exact ⟨hsess, hregs⟩
  | true =>
    have hsend := sends_sendAuth u dst cls sub body nh
    exact ⟨hsend.sess.trans hsess, RegsBut.trans hregs (RegsBut.mono hsend.regs fun a ha => by simp at ha ⊢; omega)⟩

/-- A session's numbers are taken and its fused plan is queued. -/
def fuseQueued (u : State) (n : Nat) (p : FusedPlan) : State :=
  { u.modSes n fun x => { x with fn := x.fn + p.units.length } with dist := { u.dist with fuseReqs := u.dist.fuseReqs ++ [p] } }

/-- What a queued fused plan shows once it has been placed and sent. -/
theorem fuseQueued_shows (u : State) (n : Nat) (p : FusedPlan) (many : Bool) (dst cls sub : Nat) (body nh : Bytes) :
    ∃ t, ((fuseQueued u n p).skipOverlaps p).onlyIf many (fun s => s.sendAuth dst cls sub body nh) = t ∧
      t.dist.fuseReqs = u.dist.fuseReqs ++ [p] ∧ (t.ses n).fn = (u.ses n).fn + p.units.length ∧
      RegsBut [aDIST_SKIP, aCWY_AUTH, aAES_COUNT] u t ∧ t.peat = u.peat ∧ t.envm = u.envm ∧ BytesKept u t := by
  obtain ⟨t, ht, hreqs, hpeat, -, -, henvm, hbytes⟩ := skipOverlaps_sends (fuseQueued u n p) p many dst cls sub body nh
  obtain ⟨hsess, hregs⟩ := skipOverlaps_sends_regs (fuseQueued u n p) p many dst cls sub body nh
  rw [ht] at hsess hregs
  refine ⟨t, ht, hreqs, ?_, RegsBut.trans (regsBut_of_regs rfl _) hregs, hpeat, henvm, BytesKept.trans (bytesKept_of_eq rfl rfl) hbytes⟩
  unfold State.ses
  rw [hsess]
  have hfirst : (fuseQueued u n p).ses n = { u.ses n with fn := (u.ses n).fn + p.units.length } := ses_setSes_same u n _
  unfold State.ses at hfirst
  rw [hfirst]

/-- A request that can be made names the session's numbers from the next one on, and takes them. -/
theorem requestFused_numbers {u : State} {n : Nat} (hfused : testBit (byteAt u.rng 0x1B) 2 = true)
    (hslot : (u.slotSes ⟨0, 1, n, (u.ses n).gen, true, 0, false, 0⟩).isSome = true) (hroom : (u.ses n).fn + 16 ≤ 2 ^ 24)
    (hfree : (u.dist.fuseReqs.all fun q => decide (q.ses ≠ n)) = true) (hlen : u.dist.fuseReqs.length < 4) :
    ∃ t w, u.requestFused n = t ∧ (w.ses = n ∧ w.gen = (u.ses n).gen ∧ w.num = (u.ses n).fn) ∧
      t.dist.fuseReqs = u.dist.fuseReqs ++ [w] ∧ (t.ses n).fn = (u.ses n).fn + w.units.length ∧
      RegsBut [aDIST_SKIP, aCWY_AUTH, aAES_COUNT] u t ∧ t.peat = u.peat ∧ t.envm = u.envm ∧ BytesKept u t := by
  have hunits := length_askedUnits u
  have hslot' : (u.slotSes ⟨0, 1, n, (u.ses n).gen, true, 0, false, 0⟩).isNone = false := by
    rw [Option.isNone_eq_false_iff]
    exact hslot
  have hany : (u.dist.fuseReqs.any fun q => decide (q.ses = n)) = false := by
    rw [List.any_eq_false]
    intro q hq
    simpa using (List.all_eq_true.mp hfree) q hq
  have hcount : ¬ 2 ^ 24 < (u.ses n).fn + (askedUnits u).length := by omega
  unfold askedUnits at hcount
  unfold State.requestFused
  dsimp only
  rw [hfused, if_neg (by decide), hslot', if_neg (not_or.mpr ⟨by decide, hcount⟩), hany, if_neg (by decide), if_neg (by omega)]
  obtain ⟨t, ht, hshows⟩ := fuseQueued_shows u n ⟨n, (u.ses n).gen, (u.ses n).fn, _, _⟩ _ _ _ _ _ _
  exact ⟨t, _, ht, ⟨rfl, rfl, rfl⟩, hshows⟩

theorem fusedRequest_queues (s : State) (m : Master) (v : Word) (n : Nat) (hg : Grants s m aDIST_FUSE) (hn : n = fld v 15 8)
    (hhead : s.isHead = true) (hfused : testBit (byteAt s.rng 0x1B) 2 = true)
    (hslot : (s.slotSes ⟨0, 1, n, (s.ses n).gen, true, 0, false, 0⟩).isSome = true) (hroom : (s.ses n).fn + 16 ≤ 2 ^ 24)
    (hfree : (s.dist.fuseReqs.all fun p => decide (p.ses ≠ n)) = true) (hlen : s.dist.fuseReqs.length < 4)
    (hidle : s.peat.serving = none) :
    ∃ t, exec (.fusedRequest m v) s = .next t ∧
      (∃ w, t.dist.fuseReqs = s.dist.fuseReqs ++ [w] ∧ w.ses = n ∧ w.gen = (s.ses n).gen ∧ w.num = (s.ses n).fn ∧
        (t.ses n).fn = (s.ses n).fn + w.units.length) ∧
      t.reg aDIST_FUSE = v &&& 0xFF00 ∧ BytesKept s t ∧ t.envm = s.envm := by
  obtain ⟨u, hu, hown⟩ := owned_sees hg (fuseWrite (setFld v 31 31 1))
  have hset : bit (setFld v 31 31 1) 31 = true := bit_setFld_same v (by decide) true
  have hses : fld (setFld v 31 31 1) 15 8 = n :=
    (fld_setFld_below v (by decide) (by decide) (by decide) (by decide) 1).trans hn.symm
  obtain ⟨a, ha⟩ : ∃ a, u.setReg aDIST_FUSE (v &&& 0xFF00) = a := ⟨_, rfl⟩
  have hregs : RegsOnly u a := ha ▸ regsOnly_setReg ..
  have hshown : a.reg aDIST_FUSE = v &&& 0xFF00 := ha ▸ reg_setReg_same ..
  have hfuse : fuseWrite (setFld v 31 31 1) u = a.requestFused n := by
    unfold fuseWrite
    rw [if_pos ((hu.view (·.isHead) fun _ _ => rfl).trans hhead)]
    dsimp only
    rw [hset, if_pos rfl, hses, setFld_masked v (by decide) (by decide) 1, ha]
  have hview : a = { s with regs := a.regs, prfAcc := a.prfAcc } := by
    have h := hregs
    unfold RegsOnly at h
    rw [h, hu]
  obtain ⟨t, w, ht, ⟨hwses, hwgen, hwnum⟩, hreqs, hfn, hbut, hpeat, henvm, hbytes⟩ := requestFused_numbers (u := a) (n := n)
    (by rw [hview]; exact hfused) (by rw [hview]; exact hslot) (by rw [hview]; exact hroom) (by rw [hview]; exact hfree)
    (by rw [hview]; exact hlen)
  have hases : a.ses n = s.ses n := by rw [hview]; rfl
  have hrun : exec (.fusedRequest m v) s = .next t := by
    refine congrArg done ?_
    rw [hown, hfuse, ht]
    exact peatGoesOn_idle (by rw [hpeat, hview]; exact hidle)
  refine ⟨t, hrun, ⟨w, hreqs.trans (by rw [hview]), hwses, hwgen.trans (by rw [hases]), hwnum.trans (by rw [hases]),
    hfn.trans (by rw [hases])⟩, ?_, ?_, henvm.trans (by rw [hview])⟩
  · rw [hbut aDIST_FUSE (by decide) (by unfold Counted; decide)]
    exact hshown
  · exact BytesKept.trans (bytesKept_of_eq (by rw [hview]) (by rw [hview])) hbytes

/-- Settles O55, clause by clause: the start of a round, the plans of other units, the placement of slots, fused rounds, and the
writes of DIST_MAP and DIST_FUSE. -/
theorem rangingRounds : Obligations.RangingRounds := by
  unfold Obligations.RangingRounds
  exact ⟨roundStart_starts, plan_arrives, planDeadline_met, planDeadline_missed, slotPlacement_own, slotPlacement_takesUp,
    fusedRoundStart_takesUp, fusedRoundStart_begins, mapSet_sets, mapClr_clears, fusedRequest_queues⟩

end Proofs
end Sys2Proof

/-! PROOFS. A candidate directory, and the staging of images (R64, R83). -/
namespace Sys2Proof
namespace Proofs

open Sys2Proof.Machine Sys2Proof.Safety Sys2Proof.Laws

/-! ### A replacement of a section under way -/

/-- A CFG_REPLACE being served: SEC_REPLACE is set, and no more differs than what its request and its jobs show. -/
structure Replacing (s w : State) (p : Packet) : Prop where
  only : w = { s with regs := w.regs, lanes := w.lanes, peat := { s.peat with serving := some (mailServing p), fences := w.peat.fences } }
  cfg15 : w.reg (aQUE_CFG 15) = s.reg (aQUE_CFG 15)
  lane : w.lane 31 = s.lane 31
  shown : w.rb aPWR_STATUS 7 = true

section
variable {s u w : State} {p : Packet}

theorem Served.replacing (hu : Served s u p) : Replacing s (u.secReplace true) p := by
  have honly : RegsOnly u (u.secReplace true) := regsOnly_setReg ..
  have hregs : RegsBut [aPWR_STATUS] u (u.secReplace true) := regsBut_srb u (by simp) 7 true
  have hbit : (u.secReplace true).rb aPWR_STATUS 7 = true := rb_srb_same _ _ (by decide) true
  have hserved := hu.only
  generalize u.secReplace true = w at *
  refine ⟨?_, ?_, ?_, hbit⟩
  · unfold RegsOnly at honly
    rw [honly, hserved]
  · rw [hregs _ (by decide) (by unfold Counted; decide)]
    exact hu.cfg15
  · rw [State.lane, honly.lanes]
    exact hu.lanes 31 (by decide)

theorem Replacing.hashJobs (hw : Replacing s w p) (n : Nat) : Replacing s (w.hashJobs n) p := by
  obtain ⟨hcount, hregs⟩ := hashJobs_counts w n
  have honly := hw.only
  generalize w.hashJobs n = x at *
  refine ⟨?_, ?_, ?_, ?_⟩
  · unfold RegsOnly at hcount
    rw [hcount, honly]
  · rw [hregs _ (by decide) (by unfold Counted; decide)]
    exact hw.cfg15
  · rw [State.lane, hcount.lanes]
    exact hw.lane
  · rw [State.rb, hregs _ (by decide) (by unfold Counted; decide)]
    exact hw.shown

theorem Replacing.view {β : Sort*} (hw : Replacing s w p) (f : State → β)
    (hf : ∀ (s : State) r l v k, f { s with regs := r, lanes := l, peat := { s.peat with serving := v, fences := k } } = f s) :
    f w = f s := by
  rw [hw.only]
  exact hf ..

theorem Replacing.serving (hw : Replacing s w p) : w.peat.serving = some (mailServing p) := by rw [hw.only]

end

/-- A replacement that does not hold the chain ends with its reply, while its request is served. -/
theorem endReplace_replies {s w : State} {op : Nat} {p : Packet} (h : MailTakes s op p)
    (hserving : w.peat.serving = some (mailServing p)) (hlane : w.lane 31 = s.lane 31)
    (hcfg : w.reg (aQUE_CFG 15) = s.reg (aQUE_CFG 15)) (hheld : 6 ∉ w.cfg.held)
    (hlen : 1 ≤ largestReply op ((packetWords p).drop 1)) (status : Byte) :
    ∃ t, w.endReplace status = t ∧ t.envm = w.envm ∧ t.cfg = { w.cfg with held := [], hold := [] } ∧ t.flash = w.flash ∧
      t.mem = w.mem ∧ Replies (t.pruneGens p) p status [] := by
  obtain ⟨x, hx, honly, hxregs, -, hxcfg⟩ := nothingHeld_shows w
  have hr := reply_after (w := x) (status := status) (body := []) h (by rw [honly]; exact hserving)
    ⟨_, by rw [State.lane, honly]; exact hlane⟩ (by rw [hxregs _ (by decide) (by unfold Counted; decide)]; exact hcfg) hlen
  have hrun : w.endReplace status = x.reply status [] := by
    unfold State.endReplace
    rw [show ({ w with cfg := { w.cfg with held := [], hold := [] }, eng := { w.eng with bnHold := none } } : State) = nothingHeld w from rfl,
      hx, decide_eq_false hheld, onlyIf_false]
    rfl
  rw [← hrun] at hr
  generalize w.endReplace status = t at *
  refine ⟨t, rfl, ?_, ?_, ?_, ?_, hr.answers p⟩
  · rw [hr.view (·.envm) fun _ _ _ _ _ => rfl, honly]
  · rw [hr.view (·.cfg) fun _ _ _ _ _ => rfl, hxcfg]
  · rw [hr.view (·.flash) fun _ _ _ _ _ => rfl, honly]
  · rw [hr.view (·.mem) fun _ _ _ _ _ => rfl, honly]

section
variable {s w : State} {p : Packet} (h : MailTakes s 0x40 p) (hheld : 6 ∉ s.cfg.held) (hw : Replacing s w p)
include h hheld hw

/-- A candidate that is refused is erased. -/
theorem refuseCandidate_erases (slot : Nat) :
    ∃ t, w.refuseCandidate slot = t ∧ Replies (t.pruneGens p) p cAuthFail [] ∧
      t.flashRead (dirAddr slot) 4096 = List.replicate 4096 0xFF ∧ t.envm = s.envm ∧
      t.cfg = { s.cfg with held := [], hold := [] } ∧ t.mem = s.mem := by
  obtain ⟨x, hx, honly, hflash⟩ := flashWrite_only w (dirAddr slot) (List.replicate 4096 0xFF)
  have hcfg : w.cfg = s.cfg := hw.view (·.cfg) fun _ _ _ _ _ => rfl
  obtain ⟨t, ht, henvm, htcfg, htflash, hmem, hans⟩ := endReplace_replies h (w := x) (by rw [honly]; exact hw.serving)
    (by rw [State.lane, honly]; exact hw.lane) (by rw [reg_congr (show x.regs = w.regs by rw [honly])]; exact hw.cfg15)
    (by rw [honly, hcfg]; exact hheld) (le_refl 1) cAuthFail
  refine ⟨t, ?_, hans, ?_, ?_, ?_, ?_⟩
  · unfold State.refuseCandidate State.eraseSlot
    rw [hx]
    exact ht
  · exact (congrArg (fun m => cellRead m flashDefault (dirAddr slot) 4096) (htflash.trans hflash)).trans
      (cellRead_erased w.flash (dirAddr slot) 4096)
  · rw [henvm, honly]
    exact hw.view (·.envm) fun _ _ _ _ _ => rfl
  · rw [htcfg, honly, hcfg]
  · rw [hmem, honly]
    exact hw.view (·.mem) fun _ _ _ _ _ => rfl

/-- A CLOCKS or LAYOUT section is committed at once. -/
theorem acceptCandidate_commits (slot : Nat) (version : Word) {key : Nat} (hkey : key = 0x100 ∨ key = 0xB00) (body : Option Bytes) :
    ∃ t, w.acceptCandidate slot version key body = t ∧ Replies (t.pruneGens p) p cOk [] ∧
      t.envm.commitRec = some (slot, version) ∧ t.cfg.slot = slot ∧ t.mem = s.mem := by
  have hcfg : w.cfg = s.cfg := hw.view (·.cfg) fun _ _ _ _ _ => rfl
  obtain ⟨x, hx, honly, hrec, hslot, hxheld⟩ : ∃ x, (w.commitDir slot version).guardFlash = x ∧
      x = { w with envm := x.envm, cfg := x.cfg } ∧ x.envm.commitRec = some (slot, version) ∧ x.cfg.slot = slot ∧
      x.cfg.held = w.cfg.held := ⟨_, rfl, rfl, rfl, rfl, rfl⟩
  obtain ⟨t, ht, henvm, htcfg, -, hmem, hans⟩ := endReplace_replies h (w := x) (by rw [honly]; exact hw.serving)
    (by rw [State.lane, honly]; exact hw.lane) (by rw [reg_congr (show x.regs = w.regs by rw [honly])]; exact hw.cfg15)
    (by rw [hxheld, hcfg]; exact hheld) (le_refl 1) cOk
  refine ⟨t, ?_, hans, ?_, ?_, ?_⟩
  · unfold State.acceptCandidate
    rw [if_pos hkey, hx]
    exact ht
  · rw [henvm]
    exact hrec
  · rw [htcfg]
    exact hslot
  · rw [hmem, honly]
    exact hw.view (·.mem) fun _ _ _ _ _ => rfl

omit h hheld hw in
theorem holdWork_only (w : State) (key : Nat) (body : Option Bytes) :
    ∃ c e, w.holdWork key body = { w with cfg := c, eng := e } := by
  unfold State.holdWork
  dsimp only
  split_ifs <;> exact ⟨_, _, rfl⟩

omit h hheld in
/-- Any other section waits for its drain. -/
theorem acceptCandidate_waits (slot : Nat) (version : Word) {key : Nat} (hkey : ¬ (key = 0x100 ∨ key = 0xB00)) (body : Option Bytes) :
    ∃ t, w.acceptCandidate slot version key body = t ∧
      (t.peat.serving).map (·.waiting) = some (.cfgDrain slot version key body) ∧ t.rb aPWR_STATUS 7 = true ∧ t.mem = s.mem := by
  obtain ⟨c, e, hhold⟩ := holdWork_only w key body
  refine ⟨_, rfl, ?_⟩
  unfold State.acceptCandidate
  rw [if_neg hkey, hhold]
  refine ⟨?_, hw.shown, hw.view (·.mem) fun _ _ _ _ _ => rfl⟩
  show (w.peat.serving.map fun v => { v with waiting := Waiting.cfgDrain slot version key body }).map (·.waiting) = _
  rw [hw.serving]
  rfl

theorem acceptCandidate_mem (slot : Nat) (version : Word) (key : Nat) (body : Option Bytes) :
    (w.acceptCandidate slot version key body).mem = s.mem := by
  by_cases hkey : key = 0x100 ∨ key = 0xB00
  · obtain ⟨t, ht, -, -, -, hmem⟩ := acceptCandidate_commits h hheld hw slot version hkey body
    rw [ht, hmem]
  · obtain ⟨t, ht, -, -, hmem⟩ := acceptCandidate_waits hw slot version hkey body
    rw [ht, hmem]

end

/-! ### CFG_REPLACE -/

/-- The candidate's slot. -/
def candidate (s : State) : Nat := 1 - s.cfg.slot

/-- The bytes of the candidate directory. -/
def candidateBytes (s : State) : Bytes := s.flashRead (dirAddr (candidate s)) 5140

/-- The sections in which the candidate differs from the directory in use. -/
def candidateDiff (s : State) : List (Nat × Nat) :=
  dirDiff (dirEntries (s.flashRead (dirAddr s.cfg.slot) 5140)) (dirEntries (candidateBytes s))

/-- The candidate is not valid, or not newer. -/
def CandidateBad (s : State) : Prop :=
  dirValid s s.flashRead (candidate s) = false ∨ dirVersion (candidateBytes s) ≤ s.cfg.version.toNat

/-- The candidate brings body x for a section, or removes it. -/
def CandidateBrings (s : State) (typ inst : Nat) (x : Option Bytes) : Prop :=
  (entryOf (dirEntries (candidateBytes s)) typ inst = none ∧ x = none) ∨
    ∃ e, entryOf (dirEntries (candidateBytes s)) typ inst = some e ∧ x = some (s.flashRead e.off e.len) ∧
      sectionOk (dirEntries (candidateBytes s)) (areaSize s.peat.peatFoot) e (s.flashRead e.off e.len) = true

section
variable {s u w : State} {p : Packet} (hw : Replacing s w p)
include hw

/-- What the checks of the candidate read is as it was when the request came. -/
theorem Replacing.reads : w.cfg = s.cfg ∧ w.flashRead = s.flashRead ∧
    dirValid w s.flashRead (1 - s.cfg.slot) = dirValid s s.flashRead (1 - s.cfg.slot) ∧ w.peat.peatFoot = s.peat.peatFoot :=
  ⟨hw.view (·.cfg) fun _ _ _ _ _ => rfl, hw.view (·.flashRead) fun _ _ _ _ _ => rfl,
    hw.view (dirValid · s.flashRead (1 - s.cfg.slot)) fun _ _ _ _ _ => rfl, hw.view (·.peat.peatFoot) fun _ _ _ _ _ => rfl⟩

variable {v : Serving} (hu : u.secReplace true = w)
include hu

theorem cfgReplace_bad (hbad : CandidateBad s) : cfgReplace v u = w.refuseCandidate (candidate s) := by
  obtain ⟨hcfg, hread, hvalid, -⟩ := hw.reads
  unfold cfgReplace
  dsimp only
  rw [hu, hcfg, hread, hvalid]
  exact if_pos hbad

theorem cfgReplace_brings (hgood : ¬ CandidateBad s) {typ inst : Nat} (hdiff : candidateDiff s = [(typ, inst)])
    {x : Option Bytes} (hx : CandidateBrings s typ inst x) :
    ∃ w', Replacing s w' p ∧ cfgReplace v u =
      w'.acceptCandidate (candidate s) (w32 (dirVersion (candidateBytes s))) (typ * 256 + inst) x := by
  obtain ⟨hcfg, hread, hvalid, -⟩ := hw.reads
  unfold CandidateBad candidateBytes candidate at hgood
  unfold candidateDiff candidateBytes candidate at hdiff
  unfold cfgReplace
  dsimp only
  rw [hu, hcfg, hread, hvalid, if_neg hgood, hdiff]
  dsimp only
  unfold CandidateBrings candidateBytes candidate at hx
  obtain ⟨hnone, rfl⟩ | ⟨e, hsome, rfl, hok⟩ := hx
  · rw [hnone]
    exact ⟨w, hw, rfl⟩
  · have hnext := hw.hashJobs (1 + digestJobs e.len)
    obtain ⟨-, -, -, hfoot⟩ := hnext.reads
    rw [hsome]
    dsimp only
    rw [hfoot, hok, if_pos rfl]
    exact ⟨_, hnext, rfl⟩

/-- Whatever the candidate is, it is refused or accepted. -/
theorem cfgReplace_ends : ∃ w', Replacing s w' p ∧ ∃ slot, cfgReplace v u = w'.refuseCandidate slot ∨
    ∃ version key x, cfgReplace v u = w'.acceptCandidate slot version key x := by
  unfold cfgReplace
  dsimp only
  rw [hu]
  split
  · exact ⟨w, hw, _, .inl rfl⟩
  split
  · split
    · exact ⟨w, hw, _, .inr ⟨_, _, _, rfl⟩⟩
    · split
      · exact ⟨_, hw.hashJobs _, _, .inr ⟨_, _, _, rfl⟩⟩
      · exact ⟨_, hw.hashJobs _, _, .inl rfl⟩
  · exact ⟨w, hw, _, .inl rfl⟩

end

/-- What CFG_REPLACE does with its candidate. -/
theorem cfgReplace_checks (s : State) (p : Packet) (h : MailTakes s 0x40 p) (hheld : 6 ∉ s.cfg.held) :
    ∃ t, exec .cfgReplace s = .next t ∧
      (CandidateBad s → Replies t p cAuthFail [] ∧ t.flashRead (dirAddr (candidate s)) 4096 = List.replicate 4096 0xFF ∧
        t.envm = s.envm ∧ t.cfg = { s.cfg with held := [], hold := [] }) ∧
      (∀ x typ inst, ¬ CandidateBad s → candidateDiff s = [(typ, inst)] → CandidateBrings s typ inst x →
        ¬ (typ * 256 + inst = 0x100 ∨ typ * 256 + inst = 0xB00) →
        (t.peat.serving).map (·.waiting) =
          some (.cfgDrain (candidate s) (w32 (dirVersion (candidateBytes s))) (typ * 256 + inst) x) ∧ t.rb aPWR_STATUS 7 = true) ∧
      (∀ x typ inst, ¬ CandidateBad s → candidateDiff s = [(typ, inst)] → CandidateBrings s typ inst x →
        (typ * 256 + inst = 0x100 ∨ typ * 256 + inst = 0xB00) →
        Replies t p cOk [] ∧ t.envm.commitRec = some (candidate s, w32 (dirVersion (candidateBytes s))) ∧ t.cfg.slot = candidate s) ∧
      t.mem = s.mem := by
  obtain ⟨u, hu, hrun, -⟩ := mailOp_serves h rfl (by decide) (mine := anyArgs) rfl cfgReplace
  have hw := hu.replacing
  generalize hset : u.secReplace true = w at hw
  obtain ⟨x, hx⟩ : ∃ x, cfgReplace (mailServing p) u = x := ⟨_, rfl⟩
  rw [hx] at hrun
  refine ⟨x.pruneGens p, congrArg done hrun, fun hbad => ?_, fun y typ inst hgood hdiff hy hkey => ?_,
    fun y typ inst hgood hdiff hy hkey => ?_, ?_⟩
  · obtain ⟨t, ht, hans, hflash, henvm, hcfg, -⟩ := refuseCandidate_erases h hheld hw (candidate s)
    obtain rfl : x = t := hx.symm.trans ((cfgReplace_bad hw hset hbad).trans ht)
    exact ⟨hans, hflash, henvm, hcfg⟩
  · obtain ⟨w', hw', heq⟩ := cfgReplace_brings (v := mailServing p) hw hset hgood hdiff hy
    obtain ⟨t, ht, hwait, hbit, -⟩ := acceptCandidate_waits hw' (candidate s) (w32 (dirVersion (candidateBytes s))) hkey y
    obtain rfl : x = t := hx.symm.trans (heq.trans ht)
    exact ⟨hwait, hbit⟩
  · obtain ⟨w', hw', heq⟩ := cfgReplace_brings (v := mailServing p) hw hset hgood hdiff hy
    obtain ⟨t, ht, hans, hrec, hslot, -⟩ :=
      acceptCandidate_commits h hheld hw' (candidate s) (w32 (dirVersion (candidateBytes s))) hkey y
    obtain rfl : x = t := hx.symm.trans (heq.trans ht)
    exact ⟨hans, hrec, hslot⟩
  · show x.mem = s.mem
    obtain ⟨w', hw', slot, heq | ⟨version, key, y, heq⟩⟩ := cfgReplace_ends (v := mailServing p) hw hset
    · obtain ⟨t, ht, -, -, -, -, hmem⟩ := refuseCandidate_erases h hheld hw' slot
      rw [← hx, heq, ht, hmem]
    · rw [← hx, heq, acceptCandidate_mem h hheld hw' slot version key y]

/-! ### IMAGE_STAGE -/

/-- An image in the inactive slot that IMAGE_STAGE stages: valid, newer, and with room for the applets. -/
def StagedImage (s : State) (n : Nat) (b : Bytes) : Prop :=
  (tget s.peat.runVersion n 0).toNat < le32 b 8 ∧ (n = 1 → s.appletsFit (le32 b 0x10) = true)

/-- The answer to an IMAGE_STAGE of a valid image, once the checks' jobs have been counted. -/
def imageAnswered (w : State) (n slot : Nat) (b : Bytes) : State :=
  if le32 b 8 ≤ (tget w.peat.runVersion n 0).toNat ∨ (n = 1 ∧ w.appletsFit (le32 b 0x10) = false) then w.replyCode cAuthFail
  else
    ({ w with peat := { w.peat with staged := tput w.peat.staged n (slot, w32 (le32 b 8), slice b 0x20 32) } }).replyCode cOk

section
variable {v : Serving} {n : Nat} (hn : imageType v = some n) {u : State}
include hn

theorem imageStage_none {slot : Nat} (himage : u.inactiveImage n = (slot, none)) :
    ∃ k, imageStage v u = (u.hashJobs k).replyCode cAuthFail := by
  unfold imageStage
  rw [hn]
  dsimp only
  rw [himage]
  exact ⟨_, rfl⟩

theorem imageStage_some {slot : Nat} {b : Bytes} (himage : u.inactiveImage n = (slot, some b)) :
    ∃ k, imageStage v u = imageAnswered (u.hashJobs k) n slot b := by
  unfold imageStage imageAnswered
  rw [hn]
  dsimp only
  rw [himage]
  exact ⟨_, rfl⟩

end

/-- An IMAGE_STAGE that is answered with only its jobs, its reply and perhaps its staged image to show for it. -/
structure StageAnswered (s t : State) (p : Packet) (status : Byte) (staged : Tab (Nat × Word × Bytes)) : Prop where
  replies : Replies t p status []
  staged : t.peat.staged = staged
  envm : t.envm = s.envm
  regs : RegsBut (aHSH_COUNT :: fenceRegs) s t
  bytes : BytesKept s t

theorem stage_answered {s u w x : State} {p : Packet} (h : MailTakes s 0x41 p) (hu : Served s u p) (hcount : RegsOnly u w)
    (hregs : RegsBut [aHSH_COUNT] u w) {l : Tab (Nat × Word × Bytes)} (hx : x = { w with peat := { w.peat with staged := l } })
    (status : Byte) : StageAnswered s ((x.replyCode status).pruneGens p) p status l := by
  have hxregs : x.regs = w.regs := by rw [hx]
  have hxlane : x.lane 31 = s.lane 31 := by
    rw [hx]
    show w.lane 31 = _
    rw [State.lane, hcount.lanes]
    exact hu.lanes 31 (by decide)
  have hr := reply_after (w := x) (status := status) (body := []) h (by rw [hx]; exact (congrArg (·.serving) hcount.peat).trans hu.serving)
    ⟨_, hxlane⟩ (by rw [reg_congr hxregs, hregs _ (by decide) (by unfold Counted; decide)]; exact hu.cfg15) (le_refl 1)
  have hrun : x.replyCode status = x.reply status [] := rfl
  rw [hrun]
  generalize x.reply status [] = t at *
  refine ⟨hr.answers p, ?_, ?_, ?_, ?_⟩
  · show t.peat.staged = l
    rw [hr.only, hx]
  · show t.envm = _
    rw [hr.view (·.envm) fun _ _ _ _ _ => rfl, hx]
    exact hcount.envm.trans (hu.view (·.envm) fun _ _ _ _ => rfl)
  · exact RegsBut.trans (RegsBut.mono hu.regs fun a ha => List.mem_cons_of_mem _ ha) (RegsBut.trans (t := w)
      (RegsBut.mono hregs (by simp)) (RegsBut.trans (t := x) (regsBut_of_regs hxregs _)
        (RegsBut.trans (t := t) (RegsBut.mono hr.regs fun a ha => List.mem_cons_of_mem _ ha) (regsBut_of_regs rfl _))))
  · refine BytesKept.trans hu.bytes (BytesKept.trans (t := x) (bytesKept_of_eq ?_ ?_)
      (BytesKept.trans hr.bytes (bytesKept_of_eq rfl rfl)))
    · rw [hx]
      exact hcount.mem
    · rw [hx]
      exact hcount.flash

section
variable {s u : State} {p : Packet} (h : MailTakes s 0x41 p) (hu : Served s u p) (k : Nat)
include h hu

theorem stage_refused : StageAnswered s (((u.hashJobs k).replyCode cAuthFail).pruneGens p) p cAuthFail s.peat.staged := by
  obtain ⟨hcount, hregs⟩ := hashJobs_counts u k
  have hstaged : (u.hashJobs k).peat.staged = s.peat.staged := by rw [hcount.peat, hu.only]
  rw [← hstaged]
  exact stage_answered h hu hcount hregs rfl cAuthFail

theorem imageAnswered_checks {n slot : Nat} {b : Bytes} :
    (StagedImage s n b → ∃ l, StageAnswered s ((imageAnswered (u.hashJobs k) n slot b).pruneGens p) p cOk l ∧
      tfind l n = some (slot, w32 (le32 b 8), slice b 0x20 32)) ∧
    (¬ StagedImage s n b → StageAnswered s ((imageAnswered (u.hashJobs k) n slot b).pruneGens p) p cAuthFail s.peat.staged) := by
  obtain ⟨hcount, hregs⟩ := hashJobs_counts u k
  have hversion : (u.hashJobs k).peat.runVersion = s.peat.runVersion := by rw [hcount.peat, hu.only]
  have hfit : (u.hashJobs k).appletsFit (le32 b 0x10) = s.appletsFit (le32 b 0x10) := by
    unfold State.appletsFit State.sect
    rw [hcount.cfg, hu.view (·.cfg) fun _ _ _ _ => rfl]
  have hrefused := stage_refused h hu k
  generalize u.hashJobs k = w at *
  unfold imageAnswered
  rw [hversion, hfit]
  refine ⟨fun hgood => ?_, fun hbad => ?_⟩
  · obtain ⟨hnew, hroom⟩ := hgood
    rw [if_neg (not_or.mpr ⟨by omega, fun ⟨h1, h0⟩ => Bool.false_ne_true (h0.symm.trans (hroom h1))⟩)]
    exact ⟨_, stage_answered h hu hcount hregs rfl cOk, tfind_tput_same ..⟩
  · rw [if_pos (by
      by_contra hno
      rw [not_or] at hno
      exact hbad ⟨by omega, fun h1 => by simpa [h1] using hno.2⟩)]
    exact hrefused

end

theorem imageStage_checks (s : State) (p : Packet) (h : MailTakes s 0x41 p) {n : Nat} (hn : (mailArg p 0).toNat = n)
    (htype : n = 1 ∨ n = 2) :
    ∃ t, exec .imageStage s = .next t ∧
      ((s.inactiveImage n).2 = none → Replies t p cAuthFail [] ∧ t.peat.staged = s.peat.staged) ∧
      (∀ x b, s.inactiveImage n = (x, some b) → StagedImage s n b →
        Replies t p cOk [] ∧ tfind t.peat.staged n = some (x, w32 (le32 b 8), slice b 0x20 32)) ∧
      (∀ x b, s.inactiveImage n = (x, some b) → le32 b 8 ≤ (tget s.peat.runVersion n 0).toNat →
        Replies t p cAuthFail [] ∧ t.peat.staged = s.peat.staged) ∧
      t.envm = s.envm ∧ RegsBut (aHSH_COUNT :: fenceRegs) s t ∧ BytesKept s t := by
  obtain ⟨u, hu, hrun, -⟩ := mailOp_serves h rfl (by decide) (mine := anyArgs) rfl imageStage
  have himage : u.inactiveImage n = s.inactiveImage n := by
    rw [hu.only]
    rfl
  have htyp := imageType_of hn htype
  obtain ⟨slot, hslot | ⟨b, hslot⟩⟩ : ∃ slot, s.inactiveImage n = (slot, none) ∨ ∃ b, s.inactiveImage n = (slot, some b) := by
    obtain ⟨slot, _ | b⟩ := s.inactiveImage n
    · exact ⟨slot, .inl rfl⟩
    · exact ⟨slot, .inr ⟨b, rfl⟩⟩
  · obtain ⟨k, hk⟩ := imageStage_none htyp (himage.trans hslot)
    have hans := stage_refused h hu k
    rw [hk] at hrun
    exact ⟨_, congrArg done hrun, fun _ => ⟨hans.replies, hans.staged⟩, fun x b hx => absurd (hslot.symm.trans hx) (by simp),
      fun x b hx => absurd (hslot.symm.trans hx) (by simp), hans.envm, hans.regs, hans.bytes⟩
  · obtain ⟨k, hk⟩ := imageStage_some htyp (himage.trans hslot)
    obtain ⟨hgood, hbad⟩ := imageAnswered_checks h hu k (n := n) (slot := slot) (b := b)
    rw [hk] at hrun
    have hsame : ∀ x b', s.inactiveImage n = (x, some b') → slot = x ∧ b = b' := fun x b' hx => by
      simpa using hslot.symm.trans hx
    have hsome : (s.inactiveImage n).2 ≠ none := by
      rw [hslot]
      simp
    by_cases hstage : StagedImage s n b
    · obtain ⟨l, hans, hl⟩ := hgood hstage
      refine ⟨_, congrArg done hrun, fun hnone => absurd hnone hsome, fun x b' hx _ => ?_, fun x b' hx hold => ?_,
        hans.envm, hans.regs, hans.bytes⟩
      · obtain ⟨rfl, rfl⟩ := hsame x b' hx
        exact ⟨hans.replies, by rw [hans.staged]; exact hl⟩
      · obtain ⟨rfl, rfl⟩ := hsame x b' hx
        exact absurd hstage.1 (by omega)
    · have hans := hbad hstage
      refine ⟨_, congrArg done hrun, fun hnone => absurd hnone hsome, fun x b' hx hb => ?_,
        fun _ _ _ _ => ⟨hans.replies, hans.staged⟩, hans.envm, hans.regs, hans.bytes⟩
      obtain ⟨rfl, rfl⟩ := hsame x b' hx
      exact absurd hb hstage

end Proofs
end Sys2Proof

/-! PROOFS. What the steps of a life-cycle transition leave of the state entered, the key slots and the request served (R91, R93). -/
namespace Sys2Proof
namespace Proofs

open Sys2Proof.Machine Sys2Proof.Safety Sys2Proof.Laws

/-- The life-cycle state, the keys of the slots and the request being served are as before. -/
structure Calm (s t : State) : Prop where
  lcs : t.envm.lcs = s.envm.lcs
  slots : t.slots = s.slots
  serving : t.peat.serving = s.peat.serving

namespace Calm
variable {s t u : State}

theorem refl (s : State) : Calm s s := ⟨rfl, rfl, rfl⟩

theorem trans (h : Calm s t) (h' : Calm t u) : Calm s u :=
  ⟨h'.lcs.trans h.lcs, h'.slots.trans h.slots, h'.serving.trans h.serving⟩

theorem onlyIf {f : State → State} (h : Calm s (f s)) (c : Bool) : Calm s (s.onlyIf c f) := by
  cases c with
  | true => exact h
  | false => exact .refl s

theorem each {α : Type} {f : State → α → State} (h : ∀ s x, Calm s (f s x)) (l : List α) (s : State) : Calm s (s.each l f) :=
  each_keeps .refl (fun h h' => h.trans h') h l s

end Calm

theorem RegsOnly.calm {s t : State} (h : RegsOnly s t) : Calm s t := by
  refine ⟨by rw [h.envm], ?_, by rw [h.peat]⟩
  unfold RegsOnly at h
  rw [h]

theorem RadioOnly.calm {s t : State} (h : RadioOnly s t) : Calm s t :=
  ⟨by rw [h.only], by rw [h.only], by rw [h.only]⟩

theorem PlansOnly.calm {s t : State} (h : PlansOnly s t) : Calm s t :=
  ⟨by rw [h.only], by rw [h.only], by rw [h.only]⟩

theorem calm_setReg (s : State) (a : Nat) (v : Word) : Calm s (s.setReg a v) := RegsOnly.calm (regsOnly_setReg s a v)

theorem calm_freeBytes (s : State) (n : Nat) : Calm s (s.freeBytes n).2 := ⟨rfl, rfl, rfl⟩

/-! ### The front ends stop (R466) -/

theorem calm_feResult (s : State) {b : Nat} (hb : b < 64) (ch : Nat) (status : Byte) (bytes : Bytes) :
    Calm s (s.feResult b ch status bytes) := (radioOnly_feResult s hb ch status bytes).calm

theorem calm_logPair (s : State) (l : List AuthOk) : Calm s (s.logPair l) := by
  unfold State.logPair
  split
  · refine (Calm.each (fun s x => ?_) _ s).trans (Calm.onlyIf ⟨rfl, rfl, rfl⟩ true)
    exact Calm.trans (t := s.freeW.2) ⟨rfl, rfl, rfl⟩ (radioOnly_feCommit _ (by decide) _).calm
  · exact .refl s

theorem calm_raise (s : State) (i : Irq) : Calm s (s.raise i) := ⟨rfl, rfl, rfl⟩

theorem calm_authSeen (s : State) (l : List AuthOk) (a : Option (Nat × Nat × Byte × Bool)) (b : Bool) :
    Calm s { s with peat := { s.peat with authOk := l, lastAuth := a, authSeen := b } } := ⟨rfl, rfl, rfl⟩

theorem calm_authLast (s : State) (ch ses : Nat) (gen : BitVec 8) (status : Byte) (answer : Bool) :
    Calm s (s.authLast ch ses gen status answer) := by
  unfold State.authLast
  generalize w32 (status.toNat * 2 ^ 24 + gen.toNat * 2 ^ 16 + ses % 256 * 2 ^ 8 + ch % 128) = w
  have hset : ∀ v, Calm s (((s.setReg aLF_AUTHLAST0 w).setReg aLF_AUTHLAST1 v).raise .authLast) := fun v =>
    ((calm_setReg s aLF_AUTHLAST0 w).trans (calm_setReg _ aLF_AUTHLAST1 v)).trans (calm_raise _ .authLast)
  have hraised := hset (s.setReg aLF_AUTHLAST0 w).sysLo
  dsimp only
  generalize State.raise _ .authLast = t at *
  split
  · refine Calm.trans ?_ (Calm.onlyIf (f := fun s => s.logPair _) ?_ _)
    · exact hraised.trans (calm_authSeen t _ _ _)
    · exact calm_logPair ..
  · exact hraised.trans (calm_authSeen t _ _ _)

theorem calm_lfRefuse (s : State) (c : LfCmd) (status : Byte) : Calm s (s.lfRefuse c status) :=
  (Calm.onlyIf (calm_authLast ..) _).trans (calm_feResult _ (by decide) ..)

theorem calm_lfSweep (l : List LfCmd) : ∀ (seen : List Nat) (s : State), Calm s (lfSweep seen l s).2 := by
  induction l with
  | nil => exact fun _ s => .refl s
  | cons c t ih =>
    intro seen s
    unfold lfSweep
    split
    · exact ih _ s
    · exact (calm_lfRefuse s c c.bad).trans (ih _ _)

theorem calm_lfSettle (s : State) : Calm s s.lfSettle := by
  unfold State.lfSettle
  dsimp only
  have hsweep := calm_lfSweep s.lf.waiting (match s.lf.cur with | some x => [x.cmd.chan] | none => []) s
  generalize lfSweep _ s.lf.waiting s = r at *
  refine Calm.trans ?_ (Calm.onlyIf (f := fun s => s.srb aLF_FLAGS 2 false) (calm_setReg ..) _)
  refine Calm.trans ?_ (Calm.onlyIf (f := fun s => s.forgetDraw .lf) ⟨rfl, rfl, rfl⟩ _)
  exact ⟨hsweep.lcs, hsweep.slots, hsweep.serving⟩

theorem calm_lfIdle (s : State) : Calm s s.lfIdle := by
  unfold State.lfIdle
  dsimp only
  split
  · exact ⟨rfl, rfl, rfl⟩
  · exact ⟨rfl, rfl, rfl⟩

theorem calm_lfNext (s : State) (x : LfExch) : Calm s (s.lfNext x) := by
  unfold State.lfNext
  split
  · exact (calm_lfIdle s).trans (calm_lfSettle _)
  · exact (calm_setReg s aLF_STATUS 0).trans ⟨rfl, rfl, rfl⟩

theorem calm_lfEnd (s : State) (x : LfExch) (status : Byte) (coll answer : Bool) (tid : Word) (axes : Option Axes) :
    Calm s (s.lfEnd x status coll answer tid axes) := by
  unfold State.lfEnd
  dsimp only
  refine Calm.trans ?_ (calm_lfNext _ x)
  split
  · exact (Calm.onlyIf (calm_authLast ..) _).trans ((calm_freeBytes ..).trans (calm_feResult _ (by decide) ..))
  · exact (Calm.onlyIf (calm_authLast ..) _).trans (calm_feResult _ (by decide) ..)

theorem calm_lfStop (s : State) (status : Byte) : Calm s (s.lfStop status) := by
  unfold State.lfStop
  split
  · exact calm_lfEnd ..
  · exact .refl s

theorem calm_nfcStop (s : State) (status : Byte) : Calm s (s.nfcStop status) := by
  unfold State.nfcStop
  split
  · unfold State.nfcEnd
    dsimp only
    split
    · refine Calm.trans ?_ (calm_feResult _ (by decide) _ _ _)
      exact ⟨rfl, rfl, rfl⟩
    · refine Calm.trans ?_ (calm_feResult _ (by decide) _ _ _)
      exact ⟨rfl, rfl, rfl⟩
  · exact .refl s

theorem calm_slotOp (s : State) (o : UwbOp) (status : Byte) (frame : Bool) : Calm s (s.slotOp o status frame) := by
  unfold State.slotOp
  split
  · exact .refl s
  · split
    · exact ⟨rfl, rfl, rfl⟩
    · exact (Calm.onlyIf (f := fun s => s.modSlot o.ref fun r => { r with reason := r.reason ||| 4 }) ⟨rfl, rfl, rfl⟩ _).trans
        (Calm.onlyIf (f := fun s => s.slotStops o) ⟨rfl, rfl, rfl⟩ _)

theorem calm_opFinish (s : State) (o : UwbOp) (status : Byte) (frame : Bool) (payload : Bytes) (ts : Nat) :
    Calm s (s.opFinish o status frame payload ts) := by
  unfold State.opFinish
  dsimp only
  refine Calm.trans (t := State.onlyIf _ _ _) ?_ (RadioOnly.calm (radioOnly_releases ..))
  refine Calm.trans (t := State.slotOp _ o status frame) ?_ (Calm.onlyIf (f := fun s => s.srb aUWB_FLAGS 2 true) (calm_setReg ..) _)
  refine Calm.trans (t := State.modOp _ o.id _) ?_ (calm_slotOp ..)
  refine Calm.trans (t := State.onlyIf _ _ _) ?_ ⟨rfl, rfl, rfl⟩
  refine Calm.trans (t := State.onlyIf s _ _) ?_
    (Calm.onlyIf (f := fun s => { s with uwb := { s.uwb with waitNo := s.commits } }) ⟨rfl, rfl, rfl⟩ _)
  exact Calm.onlyIf (f := fun _ => _) (calm_freeBytes ..) _

theorem calm_uwbOff (s : State) : Calm s s.uwbOff := by
  unfold State.uwbOff
  dsimp only
  refine Calm.trans ?_ (RadioOnly.calm (radioOnly_setRadio _ 0))
  have heach := Calm.each (fun (s : State) o => calm_opFinish s o cAborted false [] s.tsNow) s.uwbLive s
  have hsettle := heach.trans (RadioOnly.calm (radioOnly_settle _))
  generalize State.uwbSettle _ = t at *
  exact ⟨hsettle.lcs, hsettle.slots, hsettle.serving⟩

theorem calm_roundsOff (s : State) : Calm s s.roundsOff := (PlansOnly.calm (plansOnly_slotUses s)).trans ⟨rfl, rfl, rfl⟩

theorem calm_frontEndsOff (s : State) : Calm s s.frontEndsOff := by
  unfold State.frontEndsOff
  exact ((calm_lfStop s cAborted).trans (calm_nfcStop _ cAborted)).trans ((calm_uwbOff _).trans ((calm_roundsOff _).trans ⟨rfl, rfl, rfl⟩))

/-! ### Every session closes, and the selection ends (R91) -/

theorem calm_freeSes (s : State) (n : Nat) : Calm s (s.freeSes n) :=
  Calm.trans (t := { s.setSes n { sesNil with gen := (s.ses n).gen } with dist := s.dist.unmap n }) ⟨rfl, rfl, rfl⟩
    (Calm.each (fun _ c => Calm.onlyIf (f := fun s => s.srb (aCHN_BIND c) 25 true) (calm_setReg ..) _) _ _)

theorem calm_closeOne (s : State) (n : Nat) : Calm s (s.closeOne n) := by
  have hlose : Calm s (s.loseJobs n) := by
    unfold State.loseJobs
    dsimp only
    split
    · exact ⟨rfl, rfl, rfl⟩
    · exact .refl s
  unfold State.closeOne
  split
  · exact .refl s
  · refine hlose.trans ?_
    dsimp only
    split
    · exact ⟨rfl, rfl, rfl⟩
    · exact calm_freeSes _ n

theorem calm_closeSes (s : State) (n : Nat) : Calm s (s.closeSes n) := by
  unfold State.closeSes
  dsimp only
  split
  · split
    · exact (calm_closeOne s n).trans ((calm_closeOne _ _).trans (Calm.onlyIf ⟨rfl, rfl, rfl⟩ _))
    · exact calm_closeOne s n
  · exact calm_closeOne s n

theorem calm_dropSessions (s : State) : Calm s s.dropSessions :=
  (Calm.each (fun s n => calm_closeSes s n) _ s).trans
    (Calm.each (f := fun s n => s.modSes n fun x => { x with slot := zeros 128 }) (fun _ _ => ⟨rfl, rfl, rfl⟩) _ _)

/-! ### The state entered -/

theorem calm_rederive (s : State) : Calm s s.rederive := by
  unfold State.rederive
  split
  · exact ⟨rfl, rfl, rfl⟩
  · exact .refl s

/-- The entry to FIELD keeps the state and the request. -/
theorem enterField_keeps (s : State) (b : Bytes) :
    (s.enterField b).envm.lcs = s.envm.lcs ∧ (s.enterField b).peat.serving = s.peat.serving := by
  have hfixed : ∀ (s : State) n t use c, (s.makeFixed n t use c).envm.lcs = s.envm.lcs ∧
      (s.makeFixed n t use c).peat.serving = s.peat.serving := fun s n t use c => by
    unfold State.makeFixed State.putStatic State.writeBlob
    dsimp only
    cases tfind s.power.classKeys (s.slotClass n true) with
    | none => exact ⟨rfl, rfl⟩
    | some ck => exact ⟨rfl, rfl⟩
  have hsector : ∀ s : State, (s.each (List.range 32) State.clearSector).envm.lcs = s.envm.lcs ∧
      (s.each (List.range 32) State.clearSector).peat.serving = s.peat.serving :=
    each_keeps (R := fun s t => t.envm.lcs = s.envm.lcs ∧ t.peat.serving = s.peat.serving) (fun _ => ⟨rfl, rfl⟩)
      (fun h h' => ⟨h'.1.trans h.1, h'.2.trans h.2⟩) (fun s sec => by
        unfold State.clearSector
        split
        · exact ⟨rfl, rfl⟩
        · exact ⟨rfl, rfl⟩) _
  obtain ⟨hlcs, hserving⟩ := hfixed s 9 3 0x03 (slice b 0 64)
  unfold State.enterField
  dsimp only
  generalize s.makeFixed 9 3 0x03 (slice b 0 64) = t at *
  obtain ⟨hlcs', hserving'⟩ := hfixed t 10 2 0x04 (slice b 64 32)
  generalize t.makeFixed 10 2 0x04 (slice b 64 32) = u at *
  obtain ⟨hlcs'', hserving''⟩ := hsector (u.makeKis (slice b 96 16))
  generalize State.each _ (List.range 32) State.clearSector = v at *
  exact ⟨hlcs''.trans (hlcs'.trans hlcs), hserving''.trans (hserving'.trans hserving)⟩

/-- A transition with its steps up to the class keys of the state entered. -/
def entered (s : State) (b : Nat) : State :=
  (({ s.dropSessions.tagCut with envm := { s.dropSessions.tagCut.envm with transition := some b } }).completeTransition s.envm.lcs b).rederive

theorem entered_scrapped (s : State) :
    (entered s 5).envm.lcs = 5 ∧ (entered s 5).slots = [] ∧ (entered s 5).peat.serving = s.peat.serving := by
  have hdrop := (calm_dropSessions s).serving
  unfold entered
  generalize s.dropSessions = d at *
  have hcomplete : ∀ x : State, (x.completeTransition s.envm.lcs 5).envm.lcs = 5 ∧ (x.completeTransition s.envm.lcs 5).slots = [] ∧
      (x.completeTransition s.envm.lcs 5).peat.serving = x.peat.serving := fun x => ⟨rfl, rfl, rfl⟩
  obtain ⟨hlcs, hslots, hserving⟩ := hcomplete { d.tagCut with envm := { d.tagCut.envm with transition := some 5 } }
  generalize State.completeTransition _ _ _ = c at *
  have hcalm := calm_rederive c
  exact ⟨hcalm.lcs.trans hlcs, hcalm.slots.trans hslots, hcalm.serving.trans (hserving.trans hdrop)⟩

theorem entered_field (s : State) (h : s.envm.lcs = 1) :
    (entered s 2).envm.lcs = 2 ∧ (entered s 2).peat.serving = s.peat.serving := by
  have hdrop := (calm_dropSessions s).serving
  unfold entered
  rw [h]
  generalize s.dropSessions = d at *
  have hcomplete : ∀ x : State, (x.completeTransition 1 2).envm.lcs = 2 ∧
      (x.completeTransition 1 2).peat.serving = x.peat.serving := fun x => ⟨rfl, rfl⟩
  obtain ⟨hlcs, hserving⟩ := hcomplete { d.tagCut with envm := { d.tagCut.envm with transition := some 2 } }
  generalize State.completeTransition _ _ _ = c at *
  have hcalm := calm_rederive c
  exact ⟨hcalm.lcs.trans hlcs, hcalm.serving.trans (hserving.trans hdrop)⟩

/-- The keys of an operator key record take effect. -/
def keysTaken (keys : Bytes) (s : State) : State :=
  ({ s with envm := { s.envm with
      anchors := tput (tput s.envm.anchors 2 ⟨3, slice keys 0 64⟩) 3 ⟨0x11, slice keys 64 64⟩ } }).tableDrop

/-- The debug level that stays open in the state entered. -/
def levelled (s : State) (b : Nat) : State := s.openLevel (levelIn s.peat.debugLevel b)

theorem transition_eq (s : State) (b : Nat) (keys rnd : Bytes) :
    s.transition b keys rnd = (((((levelled (entered s b) b).onEntry b rnd).onlyIf (decide (b = 5)) State.frontEndsOff).onlyIf
      (decide (b = 3)) fun s => s.openLevel 2).onlyIf (decide (keys ≠ [])) (keysTaken keys)) := rfl

theorem calm_levelled (s : State) (b : Nat) : Calm s (levelled s b) := ⟨rfl, rfl, rfl⟩

theorem calm_keysTaken (s : State) (keys : Bytes) : Calm s (keysTaken keys s) := ⟨rfl, rfl, rfl⟩

/-- The transition into SCRAPPED leaves no key in a slot. -/
theorem transition_scraps (s : State) (rnd : Bytes) :
    (s.transition 5 [] rnd).envm.lcs = 5 ∧ (s.transition 5 [] rnd).slots = [] ∧
      (s.transition 5 [] rnd).peat.serving = s.peat.serving := by
  obtain ⟨hlcs, hslots, hserving⟩ := entered_scrapped s
  have hcalm := (calm_levelled (entered s 5) 5).trans (calm_frontEndsOff _)
  have hrun : s.transition 5 [] rnd = (levelled (entered s 5) 5).frontEndsOff := transition_eq s 5 [] rnd
  rw [hrun]
  exact ⟨hcalm.lcs.trans hlcs, hcalm.slots.trans hslots, hcalm.serving.trans hserving⟩

/-- The transition of a personalised unit into FIELD. -/
theorem transition_field (s : State) (h : s.envm.lcs = 1) (keys rnd : Bytes) :
    (s.transition 2 keys rnd).envm.lcs = 2 ∧ (s.transition 2 keys rnd).peat.serving = s.peat.serving := by
  obtain ⟨hlcs, hserving⟩ := entered_field s h
  have hcalm := calm_levelled (entered s 2) 2
  obtain ⟨hflcs, hfserving⟩ := enterField_keeps (levelled (entered s 2) 2) rnd
  have hrun : s.transition 2 keys rnd =
      ((levelled (entered s 2) 2).enterField rnd).onlyIf (decide (keys ≠ [])) (keysTaken keys) := transition_eq s 2 keys rnd
  rw [hrun]
  generalize entered s 2 = e at *
  generalize (levelled e 2).enterField rnd = x at *
  have hkeys := Calm.onlyIf (calm_keysTaken x keys) (decide (keys ≠ []))
  exact ⟨hkeys.lcs.trans (hflcs.trans (hcalm.lcs.trans hlcs)), hkeys.serving.trans (hfserving.trans (hcalm.serving.trans hserving))⟩

end Proofs
end Sys2Proof

/-! PROOFS. Life-cycle transitions and debug tokens (R91 to R97). -/
namespace Sys2Proof
namespace Proofs

open Sys2Proof.Machine Sys2Proof.Safety Sys2Proof.Laws

theorem slice_drop (b : Bytes) (k i n : Nat) : slice (b.drop k) i n = slice b (k + i) n := by
  unfold slice
  rw [List.drop_drop]

theorem byteAt_drop (b : Bytes) (k i : Nat) : byteAt (b.drop k) i = byteAt b (k + i) := by
  unfold byteAt
  rw [List.getD_eq_getElem?_getD, List.getElem?_drop, ← List.getD_eq_getElem?_getD]

/-- A reply ends the request, and keeps the state and the slots. -/
theorem reply_calm {s : State} {v : Serving} (hserving : s.peat.serving = some v) (hdiscard : v.discard = false) (status : Byte)
    (body : Bytes) :
    (s.reply status body).envm.lcs = s.envm.lcs ∧ (s.reply status body).slots = s.slots ∧
      (s.reply status body).peat.serving = none := by
  obtain ⟨hlift, -⟩ := liftFences_only { s with peat := { s.peat with serving := none } }
  have hcalm : Calm { s with peat := { s.peat with serving := none } } ({ s with peat := { s.peat with serving := none } }).liftFences :=
    (RegsOnly.calm hlift).trans ⟨rfl, rfl, rfl⟩
  unfold State.reply
  rw [hserving]
  dsimp only
  rw [hdiscard, if_neg (by decide)]
  generalize State.liftFences _ = x at *
  have hanswer : Calm x (x.answerMail 31 v.op v.reqId status body) := RadioOnly.calm (radioOnly_feCommit x (by decide) _)
  exact ⟨hanswer.lcs.trans hcalm.lcs, hanswer.slots.trans hcalm.slots, hanswer.serving.trans hcalm.serving⟩

/-! ### A transition that is asked for -/

section
variable {x : State} {w : Drawer} {wait : Bytes → State → State} {fin : Byte → State → State} (hw : PeatWorks x 127)

theorem refusal_scrapped (hepoch : (destroyed x.envm.lcs 5).any (fun c => decide (x.epochOf c = 0xFFFFFFFF)) = false) :
    x.transitionRefusal 5 = cOk := by
  unfold State.transitionRefusal
  dsimp only
  rw [hepoch]
  rfl

include hw

theorem refusal_field (hlcs : x.envm.lcs = 1) (hknown : x.power.rootKnown = true) (hfail : x.rngFailed = false) :
    x.transitionRefusal 2 = cOk := by
  obtain ⟨-, -, -, h0, h1, -⟩ := hw
  unfold State.transitionRefusal
  dsimp only
  rw [hlcs, hknown, hfail, h0, h1]
  rfl

theorem askTransition_scraps (hepoch : (destroyed x.envm.lcs 5).any (fun c => decide (x.epochOf c = 0xFFFFFFFF)) = false) :
    ∃ y, JobsFrame 127 x y ∧ x.askTransition 5 [] w wait fin = fin cOk (y.transition 5 [] []) := by
  obtain ⟨y, hy, hjobs, -⟩ := withJobs_complete (by decide) hw (l := entryJobs 5) (fun _ hj => absurd hj List.not_mem_nil) fin fun s =>
    fin cOk (s.transition 5 [] [])
  refine ⟨y, hjobs, ?_⟩
  unfold State.askTransition
  dsimp only
  rw [refusal_scrapped hepoch, if_neg (by decide), if_pos (by decide)]
  exact hy

theorem askTransition_waits (hlcs : x.envm.lcs = 1) (hknown : x.power.rootKnown = true) (hfail : x.rngFailed = false)
    (hd : x.servedTo w = none) (keys : Bytes) :
    ∃ l, x.askTransition 2 keys w wait fin = wait (2 :: keys) (x.setCallers l) ∧ (x.setCallers l).drawWaits w = true := by
  unfold State.askTransition State.draw
  dsimp only
  rw [refusal_field hw hlcs hknown hfail, if_neg (by decide), if_neg (by decide), hd, hfail]
  cases hwaits : x.drawWaits w with
  | true => exact ⟨x.trng.reqs, rfl, hwaits⟩
  | false => exact ⟨_, rfl, by simp [State.drawWaits, State.setCallers, drawsFor]⟩

theorem fieldJobs_sound : ∀ j ∈ entryJobs 2, j.items ≤ x.room 10 ∧ j.code = cOk ∧ 1 ≤ j.eng ∧ j.eng ≤ 3 := by
  obtain ⟨-, -, hroom, -⟩ := hw
  intro j hj
  have hj' : j = aesJob 9 := List.eq_of_mem_replicate (n := 64) hj
  rw [hj']
  exact ⟨Nat.le_trans (by decide) hroom, rfl, by decide, by decide⟩

theorem askTransition_field (hlcs : x.envm.lcs = 1) (hknown : x.power.rootKnown = true) (hfail : x.rngFailed = false) {d : Bytes}
    (hd : x.servedTo w = some (cOk, d)) (keys : Bytes) :
    ∃ y rnd, JobsFrame 127 (x.forgetDraw w) y ∧ x.askTransition 2 keys w wait fin = fin cOk (y.transition 2 keys rnd) := by
  have hw' : PeatWorks (x.forgetDraw w) 127 := hw
  obtain ⟨y, hy, hjobs, -⟩ := withJobs_complete (by decide) hw' (l := entryJobs 2) (fieldJobs_sound hw') fin fun s =>
    fin cOk (s.transition 2 keys (slice d 0 112))
  refine ⟨y, slice d 0 112, hjobs, ?_⟩
  unfold State.askTransition State.draw
  dsimp only
  rw [refusal_field hw hlcs hknown hfail, if_neg (by decide), if_neg (by decide), hd]
  exact hy

end

/-! ### Tokens -/

/-- The nonce is used up. -/
def noNonce (x : State) : State := { x with peat := { x.peat with nonce := none } }

/-- What a token that has been checked does. -/
def tokenDone (act : TokenAct) (x : State) (w : Drawer) (wait : Bytes → State → State) (fin : Byte → State → State) : State :=
  match act with
  | .no => fin cAuthFail x
  | .level n clears => fin cOk ((x.openLevel n).onlyIf clears State.clearFails)
  | .enter b => x.askTransition b [] w wait fin

/-- What a token may do: nothing where its form or its fields are wrong. -/
def tokenAct (s : State) (t : Bytes) : TokenAct :=
  if (decide (t.length = 2872) && s.tokenFields (t.drop 2820)) = true then s.tokenActs t else .no

section
variable {s : State} (hw : PeatWorks s 127) (t : Bytes) (w : Drawer) (wait : Bytes → State → State) (fin : Byte → State → State)

theorem hashJob_sound (hw : PeatWorks s 127) :
    ∀ j ∈ [hshJob 5 false], j.items ≤ s.room 10 ∧ j.code = cOk ∧ 1 ≤ j.eng ∧ j.eng ≤ 3 := by
  obtain ⟨-, -, hroom, -⟩ := hw
  intro j hj
  rw [List.mem_singleton.mp hj]
  exact ⟨Nat.le_trans (by decide) hroom, rfl, by decide, by decide⟩

include hw

theorem takeToken_checked : ∃ x, JobsFrame 127 s x ∧ x.mem = s.mem ∧
    s.takeToken t w wait fin = tokenDone (tokenAct s t) (noNonce x) w wait fin := by
  obtain ⟨act, hact⟩ : ∃ act, tokenAct s t = act := ⟨_, rfl⟩
  obtain ⟨x, hx, hjobs, hmem⟩ := withJobs_complete (by decide) hw (hashJob_sound hw) fin fun s =>
    tokenDone act (noNonce s) w wait fin
  refine ⟨x, hjobs, hmem (by simp [hshJob]), ?_⟩
  rw [hact, ← hx]
  unfold State.takeToken
  dsimp only
  unfold tokenAct at hact
  rw [hact]
  cases act with
  | no => rfl
  | level n c => rfl
  | enter b => rfl

/-- The operator key record that a unit takes: FORMAT, zeros, its own identifier and the vendor's signature, in PERSONALISED. -/
def RecordOk (s : State) (t : Bytes) : Prop :=
  s.envm.lcs = 1 ∧ byteAt t 2820 = 1 ∧ zeroAt (t.drop 2820) 1 3 = true ∧ slice t 2824 16 = toLE 16 Config.deviceId.toNat ∧
    s.tokenBy 1 t = true

theorem takeRecord_checked : ∃ x, JobsFrame 127 s x ∧
    (RecordOk s t → s.takeRecord t w wait fin = x.askTransition 2 (slice t 2840 128) w wait fin) ∧
    (s.envm.lcs ≠ 1 → s.takeRecord t w wait fin = fin cAuthFail x) := by
  obtain ⟨ok, hok⟩ : ∃ ok, (decide (s.envm.lcs = 1 ∧ byteAt (t.drop 2820) 0 = 1 ∧
    slice (t.drop 2820) 4 16 = toLE 16 Config.deviceId.toNat) && zeroAt (t.drop 2820) 1 3 && s.tokenBy 1 t) = ok := ⟨_, rfl⟩
  obtain ⟨x, hx, hjobs, -⟩ := withJobs_complete (by decide) hw (hashJob_sound hw) fin fun s =>
    if ok = true then s.askTransition 2 (slice (t.drop 2820) 0x14 128) w wait fin else fin cAuthFail s
  have hrun : s.takeRecord t w wait fin =
      if ok = true then x.askTransition 2 (slice (t.drop 2820) 0x14 128) w wait fin else fin cAuthFail x := by
    rw [← hx, ← hok]
    rfl
  refine ⟨x, hjobs, fun hrecord => ?_, fun hlcs => ?_⟩
  · obtain ⟨hlcs, hformat, hzero, hdevice, hsigned⟩ := hrecord
    have htrue : ok = true := by
      rw [← hok, byteAt_drop, slice_drop, hzero, hsigned, decide_eq_true ⟨hlcs, hformat, hdevice⟩]
      rfl
    rw [hrun, if_pos htrue, slice_drop]
  · have hfalse : ok = false := by
      rw [← hok, decide_eq_false fun h => hlcs h.1]
      rfl
    rw [hrun, if_neg (by rw [hfalse]; decide)]

end

theorem tokenAct_wrong {s : State} {t : Bytes} (h : (decide (t.length = 2872) && s.tokenFields (t.drop 2820)) = false) :
    tokenAct s t = .no := if_neg (by rw [h]; decide)

section
variable {s : State} {t : Bytes} (h : (decide (t.length = 2872) && s.tokenFields (t.drop 2820)) = true)
include h

theorem tokenAct_level (hkind : byteAt t 2821 = 1) :
    tokenAct s t = if s.tokenBy 2 t = true then .level (max 1 s.peat.debugLevel) true else .no := by
  unfold tokenAct State.tokenActs
  rw [if_pos h]
  dsimp only
  rw [hkind]
  rfl

theorem tokenAct_scrap (hkind : byteAt t 2821 = 0x11) (hsigned : (s.tokenBy 1 t || s.tokenBy 2 t) = true) :
    tokenAct s t = .enter 5 := by
  unfold tokenAct State.tokenActs
  rw [if_pos h]
  dsimp only
  rw [hkind]
  exact if_pos (by simpa using hsigned)

end

/-! ### DEBUG_TOKEN -/

/-- What a token leaves that only opens level 1, or does nothing: the answer, no nonce, and the level. -/
theorem debugToken_answers (s : State) (b : Bytes) (hfree : s.jtagFree = true) (hw : PeatWorks s 127) :
    ∃ t, exec (.debugToken b) s = .next t ∧
      ((decide (b.length = 2872) && s.tokenFields (b.drop 2820)) = false → t.peat.jtagOut = [cAuthFail] ∧ t.peat.nonce = none ∧
        t.envm = s.envm ∧ BytesKept s t) ∧
      ((decide (b.length = 2872) && s.tokenFields (b.drop 2820)) = true → byteAt b 2821 = 1 → s.tokenBy 2 b = false →
        t.peat.jtagOut = [cAuthFail] ∧ t.peat.nonce = none ∧ t.envm = s.envm ∧ BytesKept s t) ∧
      ((decide (b.length = 2872) && s.tokenFields (b.drop 2820)) = true → byteAt b 2821 = 1 → s.tokenBy 2 b = true →
        t.peat.jtagOut = [cOk] ∧ t.peat.nonce = none ∧ t.peat.debugLevel = max 1 s.peat.debugLevel ∧
        t.envm = { s.envm with pwdFails := 0 } ∧ BytesKept s t) := by
  obtain ⟨x, hjobs, hmem, htoken⟩ := takeToken_checked hw b .jtag (fun h s => s.jtagWaits h) fun c s => s.jtagAnswer [c]
  have hrun : debugToken b s = tokenDone (tokenAct s b) (noNonce x) .jtag (fun h s => s.jtagWaits h) fun c s => s.jtagAnswer [c] := by
    rw [← htoken]
    exact if_pos hfree
  have henvm : x.envm = s.envm := hjobs.view (·.envm) fun _ _ _ _ => rfl
  have hbytes : BytesKept s x := bytesKept_of_eq hmem (hjobs.view (·.flash) fun _ _ _ _ => rfl)
  have hno : tokenAct s b = .no → (debugToken b s).peat.jtagOut = [cAuthFail] ∧ (debugToken b s).peat.nonce = none ∧
      (debugToken b s).envm = s.envm ∧ BytesKept s (debugToken b s) := fun hact => by
    rw [hrun, hact]
    exact ⟨rfl, rfl, henvm, BytesKept.trans hbytes (bytesKept_of_eq rfl rfl)⟩
  refine ⟨_, rfl, fun hwrong => hno (tokenAct_wrong hwrong), fun hfields hkind hsigned => hno ?_, fun hfields hkind hsigned => ?_⟩
  · rw [tokenAct_level hfields hkind, hsigned]
    exact if_neg (by decide)
  · have hact : tokenAct s b = .level (max 1 s.peat.debugLevel) true := by
      rw [tokenAct_level hfields hkind, hsigned]
      exact if_pos rfl
    rw [hrun, hact]
    refine ⟨rfl, rfl, rfl, ?_, BytesKept.trans hbytes (bytesKept_of_eq rfl rfl)⟩
    show { x.envm with pwdFails := 0 } = _
    rw [henvm]

/-! ### LCS_TRANSITION -/

theorem lcsTransition_takes {u : State} {p : Packet} {b : Bytes} (hlen : mailArg p 1 ≠ 0)
    (hbuf : u.buffer (mailArg p 0) (mailArg p 1) = some b) :
    lcsTransition (mailServing p) u =
      if b.length = 2968 then u.takeRecord b .peat (fun h s => s.await (.draw h)) fun c s => s.replyCode c
      else u.takeToken b .peat (fun h s => s.await (.draw h)) fun c s => s.replyCode c := by
  have hargs : ∀ n, wordAt (mailServing p).args n = mailArg p n := wordAt_args p
  unfold lcsTransition
  dsimp only
  rw [hargs, hargs, if_neg hlen, hbuf]

/-- A request for a transition that has been popped, with its buffer read. -/
structure Transits (s u : State) (p : Packet) (b : Bytes) : Prop where
  served : Served s u p
  takes : MailTakes s 0x50 p
  works : PeatWorks u 127
  buffer : u.buffer (mailArg p 0) (mailArg p 1) = some b
  nonzero : mailArg p 1 ≠ 0
  length : b.length = (mailArg p 1).toNat

theorem lcsTransition_served {s : State} {p : Packet} {b : Bytes} (h : MailTakes s 0x50 p) (hb : Holds s (mailArg p 0) (mailArg p 1) b)
    (hw : PeatWorks s 127) :
    ∃ u, Transits s u p b ∧ exec .lcsTransition s = .next ((lcsTransition (mailServing p) u).pruneGens p) := by
  obtain ⟨u, hu, hrun, heq⟩ := mailOp_serves h rfl (by decide) (mine := anyArgs) rfl lcsTransition
  have hargs : (s.takeHead 15).holdArgs 0x50 ((packetWords p).drop 1) = (s.takeHead 15).holdBuffer (mailArg p 0) (mailArg p 1) := by
    rw [← wordAt_args, ← wordAt_args]
    rfl
  have hbuf := buffer_holds hu (fences_of_held h.1 heq hargs hb) hb
  refine ⟨u, ⟨hu, h, hu.works (by decide) hw, hbuf, hb.1, ?_⟩, congrArg done hrun⟩
  obtain ⟨-, -, -, hread, -⟩ := hb
  rw [← hread]
  exact cellRead_length ..

section
variable {s u x : State} {p : Packet} {b : Bytes} (ht : Transits s u p b)
include ht

theorem Transits.token (hlen : mailArg p 1 = 2872) : b.length = 2872 ∧ lcsTransition (mailServing p) u =
    u.takeToken b .peat (fun h s => s.await (.draw h)) fun c s => s.replyCode c := by
  have hlength : b.length = 2872 := by
    rw [ht.length, hlen]
    rfl
  exact ⟨hlength, (lcsTransition_takes ht.nonzero ht.buffer).trans (if_neg (by omega))⟩

theorem Transits.record (hlen : mailArg p 1 = 2968) : lcsTransition (mailServing p) u =
    u.takeRecord b .peat (fun h s => s.await (.draw h)) fun c s => s.replyCode c := by
  have hlength : b.length = 2968 := by
    rw [ht.length, hlen]
    rfl
  exact (lcsTransition_takes ht.nonzero ht.buffer).trans (if_pos hlength)

theorem Transits.reads : u.envm = s.envm ∧ (∀ m, u.tokenFields m = s.tokenFields m) ∧ (∀ n, u.tokenBy n b = s.tokenBy n b) ∧
    u.peat.debugLevel = s.peat.debugLevel ∧ u.epochOf = s.epochOf ∧ u.power = s.power ∧ u.rngFailed = s.rngFailed ∧
    u.servedTo .peat = s.servedTo .peat := by
  have hu := ht.served
  refine ⟨hu.view (·.envm) fun _ _ _ _ => rfl, fun m => by rw [hu.only]; rfl, fun n => hu.view (·.tokenBy n b) fun _ _ _ _ => rfl,
    by rw [hu.only], hu.view (·.epochOf) fun _ _ _ _ => rfl, hu.view (·.power) fun _ _ _ _ => rfl,
    rngFailed_congr (hu.reg (not_fence (by decide)) (by unfold Counted; decide)), hu.view (·.servedTo .peat) fun _ _ _ _ => rfl⟩

/-- After its jobs the request can be answered. -/
theorem Transits.replies (hjobs : JobsFrame 127 u x) {y : State} (hy : y = { x with peat := y.peat, envm := y.envm })
    (hserving : y.peat.serving = x.peat.serving) (status : Byte) : Replied y (y.replyCode status) (mailServing p) status [] := by
  refine reply_after ht.takes ?_ ?_ ?_ (le_refl 1)
  · rw [hserving, hjobs.view (·.peat) fun _ _ _ _ => rfl]
    exact ht.served.serving
  · obtain ⟨q, hq⟩ := hjobs.lanes 31
    refine ⟨q, ?_⟩
    rw [hy]
    show x.lane 31 = _
    rw [hq, ht.served.lanes 31 (by decide)]
  · rw [reg_congr (show y.regs = x.regs by rw [hy]), hjobs.reg (by rw [mem_jobRegs]; decide) (by unfold Counted; decide)]
    exact ht.served.cfg15

/-- What a token that only opens a level, or does nothing, leaves. -/
theorem Transits.tokenAnswered (hjobs : JobsFrame 127 u x) {y : State} (hy : y = { x with peat := y.peat, envm := y.envm })
    (hserving : y.peat.serving = x.peat.serving) (status : Byte) :
    Replies ((y.replyCode status).pruneGens p) p status [] ∧ ((y.replyCode status).pruneGens p).peat.nonce = y.peat.nonce ∧
      ((y.replyCode status).pruneGens p).peat.debugLevel = y.peat.debugLevel ∧ ((y.replyCode status).pruneGens p).envm = y.envm := by
  have hr := ht.replies hjobs hy hserving status
  generalize y.replyCode status = t at *
  refine ⟨hr.answers p, ?_, ?_, hr.view (·.envm) fun _ _ _ _ _ => rfl⟩
  · show t.peat.nonce = _
    rw [hr.only]
  · show t.peat.debugLevel = _
    rw [hr.only]

theorem token_refused (hlen : mailArg p 1 = 2872) (hact : tokenAct u b = .no) :
    ∃ t, lcsTransition (mailServing p) u = t ∧ Replies (t.pruneGens p) p cAuthFail [] ∧ (t.pruneGens p).peat.nonce = none ∧
      (t.pruneGens p).envm = s.envm := by
  obtain ⟨x, hjobs, -, htoken⟩ := takeToken_checked ht.works b .peat (fun h s => s.await (.draw h)) fun c s => s.replyCode c
  rw [hact] at htoken
  obtain ⟨hrep, hnonce, -, henvm⟩ := ht.tokenAnswered hjobs (y := noNonce x) rfl rfl cAuthFail
  exact ⟨_, (ht.token hlen).2.trans htoken, hrep, hnonce, henvm.trans ((hjobs.view (·.envm) fun _ _ _ _ => rfl).trans ht.reads.1)⟩

theorem token_opens (hlen : mailArg p 1 = 2872) {n : Nat} (hact : tokenAct u b = .level n true) :
    ∃ t, lcsTransition (mailServing p) u = t ∧ Replies (t.pruneGens p) p cOk [] ∧ (t.pruneGens p).peat.nonce = none ∧
      (t.pruneGens p).peat.debugLevel = n ∧ (t.pruneGens p).envm = { s.envm with pwdFails := 0 } := by
  obtain ⟨x, hjobs, -, htoken⟩ := takeToken_checked ht.works b .peat (fun h s => s.await (.draw h)) fun c s => s.replyCode c
  rw [hact] at htoken
  obtain ⟨hrep, hnonce, hlevel, henvm⟩ := ht.tokenAnswered hjobs (y := ((noNonce x).openLevel n).clearFails) rfl rfl cOk
  have hx : x.envm = s.envm := (hjobs.view (·.envm) fun _ _ _ _ => rfl).trans ht.reads.1
  refine ⟨_, (ht.token hlen).2.trans htoken, hrep, hnonce, hlevel, henvm.trans ?_⟩
  show { x.envm with pwdFails := 0 } = _
  rw [hx]

theorem token_scraps (hlen : mailArg p 1 = 2872) (hact : tokenAct u b = .enter 5)
    (hepoch : (destroyed s.envm.lcs 5).any (fun c => decide (s.epochOf c = 0xFFFFFFFF)) = false) :
    ∃ t, lcsTransition (mailServing p) u = t ∧ t.envm.lcs = 5 ∧ t.slots = [] ∧ t.peat.serving = none := by
  obtain ⟨x, hjobs, -, htoken⟩ := takeToken_checked ht.works b .peat (fun h s => s.await (.draw h)) fun c s => s.replyCode c
  rw [hact] at htoken
  obtain ⟨henvm, -, -, -, hepochs, -⟩ := ht.reads
  have hworks : PeatWorks (noNonce x) 127 := hjobs.works (by decide) ht.works
  have hxenvm : x.envm = s.envm := (hjobs.view (·.envm) fun _ _ _ _ => rfl).trans henvm
  have hxepoch : (noNonce x).epochOf = s.epochOf := (hjobs.view (·.epochOf) fun _ _ _ _ => rfl).trans hepochs
  obtain ⟨y, hyjobs, hask⟩ := askTransition_scraps (x := noNonce x) (w := .peat) (wait := fun h s => s.await (.draw h))
    (fin := fun c s => s.replyCode c) hworks (by rw [hxepoch, show (noNonce x).envm = s.envm from hxenvm]; exact hepoch)
  have hserving : y.peat.serving = some (mailServing p) := by
    rw [hyjobs.view (·.peat) fun _ _ _ _ => rfl]
    show x.peat.serving = _
    rw [hjobs.view (·.peat) fun _ _ _ _ => rfl]
    exact ht.served.serving
  obtain ⟨hlcs, hslots, hserved⟩ := transition_scraps y []
  obtain ⟨hrlcs, hrslots, hrserving⟩ := reply_calm (hserved.trans hserving) rfl cOk []
  exact ⟨_, (ht.token hlen).2.trans (htoken.trans hask), hrlcs.trans hlcs, hrslots.trans hslots, hrserving⟩

theorem record_refused (hlen : mailArg p 1 = 2968) (hlcs : s.envm.lcs ≠ 1) :
    ∃ t, lcsTransition (mailServing p) u = t ∧ Replies (t.pruneGens p) p cAuthFail [] ∧ (t.pruneGens p).envm = s.envm := by
  obtain ⟨x, hjobs, -, hno⟩ := takeRecord_checked ht.works b .peat (fun h s => s.await (.draw h)) fun c s => s.replyCode c
  have henvm : u.envm = s.envm := ht.reads.1
  obtain ⟨hrep, -, -, hxenvm⟩ := ht.tokenAnswered hjobs (y := x) rfl rfl cAuthFail
  exact ⟨_, (ht.record hlen).trans (hno (by rw [henvm]; exact hlcs)), hrep,
    hxenvm.trans ((hjobs.view (·.envm) fun _ _ _ _ => rfl).trans henvm)⟩

/-- The record is checked, and what its transition reads is as it was. -/
theorem record_taken (hlen : mailArg p 1 = 2968) (hok : RecordOk s b) (hknown : s.power.rootKnown = true) (hfail : s.rngFailed = false) :
    ∃ x, JobsFrame 127 u x ∧ PeatWorks x 127 ∧ x.envm.lcs = 1 ∧ x.power.rootKnown = true ∧ x.rngFailed = false ∧
      x.servedTo .peat = s.servedTo .peat ∧ x.peat.serving = some (mailServing p) ∧ lcsTransition (mailServing p) u =
        x.askTransition 2 (slice b 2840 128) .peat (fun h s => s.await (.draw h)) fun c s => s.replyCode c := by
  obtain ⟨x, hjobs, hyes, -⟩ := takeRecord_checked ht.works b .peat (fun h s => s.await (.draw h)) fun c s => s.replyCode c
  obtain ⟨henvm, -, hby, -, -, hpower, hrng, hserved⟩ := ht.reads
  have hoku : RecordOk u b := by
    unfold RecordOk at *
    rw [henvm, hby]
    exact hok
  refine ⟨x, hjobs, hjobs.works (by decide) ht.works, ?_, ?_, ?_, ?_, ?_, (ht.record hlen).trans (hyes hoku)⟩
  · rw [hjobs.view (·.envm) fun _ _ _ _ => rfl]
    exact hoku.1
  · rw [hjobs.view (·.power) fun _ _ _ _ => rfl, hpower]
    exact hknown
  · rw [rngFailed_congr (hjobs.reg (by rw [mem_jobRegs]; decide) (by unfold Counted; decide)), hrng]
    exact hfail
  · rw [hjobs.view (·.servedTo .peat) fun _ _ _ _ => rfl, hserved]
  · rw [hjobs.view (·.peat) fun _ _ _ _ => rfl]
    exact ht.served.serving

theorem record_waits (hlen : mailArg p 1 = 2968) (hok : RecordOk s b) (hknown : s.power.rootKnown = true) (hfail : s.rngFailed = false)
    (hd : s.servedTo .peat = none) :
    ∃ t, lcsTransition (mailServing p) u = t ∧
      (t.peat.serving).map (fun v => (v.op, v.waiting)) = some (0x50, .draw (2 :: slice b 2840 128)) ∧ t.drawWaits .peat = true := by
  obtain ⟨x, -, hworks, hlcs, hxknown, hxfail, hxserved, hserving, hrun⟩ := record_taken ht hlen hok hknown hfail
  obtain ⟨l, hask, hwaits⟩ := askTransition_waits (w := .peat) (wait := fun h s => s.await (.draw h)) (fin := fun c s => s.replyCode c)
    hworks hlcs hxknown hxfail (hxserved.trans hd) (slice b 2840 128)
  refine ⟨_, hrun.trans hask, ?_, hwaits⟩
  show ((x.peat.serving).map fun v => { v with waiting := Waiting.draw (2 :: slice b 2840 128) }).map (fun v => (v.op, v.waiting)) = _
  obtain ⟨-, -, -, hop, -⟩ := ht.takes
  rw [hserving]
  show some ((mailServing p).op, _) = _
  rw [mailServing, hop]

theorem record_enters (hlen : mailArg p 1 = 2968) (hok : RecordOk s b) (hknown : s.power.rootKnown = true) (hfail : s.rngFailed = false)
    {d : Bytes} (hd : s.servedTo .peat = some (cOk, d)) :
    ∃ t, lcsTransition (mailServing p) u = t ∧ t.envm.lcs = 2 ∧ t.peat.serving = none := by
  obtain ⟨x, -, hworks, hlcs, hxknown, hxfail, hxserved, hserving, hrun⟩ := record_taken ht hlen hok hknown hfail
  obtain ⟨y, rnd, hyjobs, hask⟩ := askTransition_field (w := .peat) (wait := fun h s => s.await (.draw h))
    (fin := fun c s => s.replyCode c) hworks hlcs hxknown hxfail (hxserved.trans hd) (slice b 2840 128)
  have hylcs : y.envm.lcs = 1 := by
    rw [hyjobs.view (·.envm) fun _ _ _ _ => rfl]
    exact hlcs
  have hyserving : y.peat.serving = some (mailServing p) := by
    rw [hyjobs.view (·.peat) fun _ _ _ _ => rfl]
    exact hserving
  obtain ⟨htlcs, htserving⟩ := transition_field y hylcs (slice b 2840 128) rnd
  obtain ⟨hrlcs, -, hrserving⟩ := reply_calm (htserving.trans hyserving) rfl cOk []
  exact ⟨_, hrun.trans hask, hrlcs.trans htlcs, hrserving⟩

end

/-- Settles O60: CFG_REPLACE and IMAGE_STAGE by their checks, LCS_TRANSITION by token and record, DEBUG_TOKEN by token. -/
theorem signedStates : Obligations.SignedStates := by
  unfold Obligations.SignedStates
  refine ⟨fun s p h hheld => ?cfg, fun s p h htype => ?image, fun s p b h hb hlen hw => ?lcs, debugToken_answers⟩
  case cfg =>
    obtain ⟨t, hrun, hbad, hwaits, hcommits, hmem⟩ := cfgReplace_checks s p h hheld
    have hgood : dirValid s s.flashRead (candidate s) = true → s.cfg.version.toNat < dirVersion (candidateBytes s) → ¬ CandidateBad s :=
      fun hvalid hnew => not_or.mpr ⟨by rw [hvalid]; decide, by omega⟩
    refine ⟨t, hrun, hbad, fun x typ inst hvalid hnew hdiff hx hkey => ?_, fun x typ inst hvalid hnew hdiff hx hkey => ?_, hmem⟩
    · refine hwaits x typ inst (hgood hvalid hnew) hdiff ?_ hkey
      split at hx
      next hnone => exact .inl ⟨hnone, hx⟩
      next e hsome => exact .inr ⟨e, hsome, hx⟩
    · refine hcommits x typ inst (hgood hvalid hnew) hdiff ?_ hkey
      split at hx
      next hnone => exact .inl ⟨hnone, hx⟩
      next e hsome => exact .inr ⟨e, hsome, hx⟩
  case image =>
    obtain ⟨t, hrun, hnone, hnew, hrest⟩ := imageStage_checks s p h rfl htype
    exact ⟨t, hrun, hnone, fun x b himage hver hfit => hnew x b himage ⟨hver, hfit⟩, hrest⟩
  case lcs =>
    obtain ⟨u, ht, hrun⟩ := lcsTransition_served h hb hw
    obtain ⟨x, hx⟩ : ∃ x, lcsTransition (mailServing p) u = x := ⟨_, rfl⟩
    rw [hx] at hrun
    obtain ⟨henvm, hfields, hby, hlevel, -⟩ := ht.reads
    have hform : ∀ {c}, mailArg p 1 = 2872 → s.tokenFields (b.drop 2820) = c →
        (decide (b.length = 2872) && u.tokenFields (b.drop 2820)) = c := fun hlen hc => by
      rw [hfields, hc, decide_eq_true (ht.token hlen).1, Bool.true_and]
    refine ⟨x.pruneGens p, hrun, fun hlen hwrong => ?_, fun hlen hok hkind hsigned => ?_, fun hlen hok hkind hsigned hepoch => ?_,
      fun hlen hlcs => ?_, fun hlen hlcs hone hzero hdevice hsigned hknown hfail hd => ?_,
      fun d hlen hlcs hone hzero hdevice hsigned hknown hfail hd => ?_⟩
    · obtain ⟨t, htx, hshows⟩ := token_refused ht hlen (tokenAct_wrong (hform hlen hwrong))
      obtain rfl : x = t := hx.symm.trans htx
      exact hshows
    · have hact := tokenAct_level (hform hlen hok) hkind
      rw [hby, hsigned, if_pos rfl, hlevel] at hact
      obtain ⟨t, htx, hshows⟩ := token_opens ht hlen hact
      obtain rfl : x = t := hx.symm.trans htx
      exact hshows
    · obtain ⟨t, htx, hshows⟩ := token_scraps ht hlen (tokenAct_scrap (hform hlen hok) hkind (by rw [hby, hby]; exact hsigned)) hepoch
      obtain rfl : x = t := hx.symm.trans htx
      exact hshows
    · obtain ⟨t, htx, hshows⟩ := record_refused ht hlen hlcs
      obtain rfl : x = t := hx.symm.trans htx
      exact hshows
    · obtain ⟨t, htx, hshows⟩ := record_waits ht hlen ⟨hlcs, hone, hzero, hdevice, hsigned⟩ hknown hfail hd
      obtain rfl : x = t := hx.symm.trans htx
      exact hshows
    · obtain ⟨t, htx, hshows⟩ := record_enters ht hlen ⟨hlcs, hone, hzero, hdevice, hsigned⟩ hknown hfail hd
      obtain rfl : x = t := hx.symm.trans htx
      exact hshows

end Proofs
end Sys2Proof

/-! PROOFS. No command touches the commands that wait: what stores in the byte memories leaves them, as everything else does. -/
namespace Sys2Proof
namespace Proofs

open Sys2Proof.Machine Sys2Proof.Safety Sys2Proof.Laws

theorem pending_still (s : State) : s.pending = (still s).1 := rfl

@[simp] theorem pending_onlyIf (s : State) (c : Bool) (f : State → State) (hf : ∀ s, (still (f s)).1 = (still s).1) :
    (still (s.onlyIf c f)).1 = (still s).1 := onlyIf_view (fun s => (still s).1) hf s c

@[simp] theorem pending_each {α : Type} (s : State) (l : List α) (f : State → α → State)
    (hf : ∀ s x, (still (f s x)).1 = (still s).1) : (still (s.each l f)).1 = (still s).1 :=
  each_view (fun s => (still s).1) hf l s

/-- A choice between two states leaves the waiting commands where both do. -/
theorem pending_ite {c : Prop} [Decidable c] {q : List Instr} {a b : State} (ha : (still a).1 = q) (hb : (still b).1 = q) :
    (still (if c then a else b)).1 = q := by
  split
  · exact ha
  · exact hb

@[simp] theorem pending_if (c : Prop) [Decidable c] (a b : State) :
    (still (if c then a else b)).1 = if c then (still a).1 else (still b).1 := apply_ite (fun s => (still s).1) c a b

@[simp] theorem pending_writeAs (s : State) (m r : Master) (u : Bool) (a : Nat) (f : State → State)
    (hf : ∀ s, (still (f s)).1 = (still s).1) : (still (s.writeAs m r u a f)).1 = (still s).1 := by
  unfold State.writeAs
  split <;> simp [hf]

@[simp] theorem pending_owned (s : State) (m : Master) (a : Nat) (f : State → State)
    (hf : ∀ s, (still (f s)).1 = (still s).1) : (still (s.owned m a f)).1 = (still s).1 := by
  unfold State.owned
  exact pending_ite (pending_writeAs s m _ _ a f hf) rfl

@[simp] theorem pending_mailOp (op : Nat) (mine : List Word → Bool) (f : Serving → State → State)
    (hf : ∀ v s, (still (f v s)).1 = (still s).1) (s : State) : (still (mailOp op mine f s)).1 = (still s).1 := by
  unfold mailOp
  split
  · rfl
  · dsimp only
    split_ifs <;> simp [hf, still_lit, pending_still]

@[simp] theorem pending_memWrite (s : State) (a : Nat) (b : Bytes) : (still (s.memWrite a b)).1 = (still s).1 := rfl

@[simp] theorem pending_flashWrite (s : State) (a : Nat) (b : Bytes) : (still (s.flashWrite a b)).1 = (still s).1 := rfl

theorem pending_setFlt (s : State) (f : Flt) : (still { s with flt := f }).1 = (still s).1 := rfl

theorem pending_deliver {s t : State} {r : Run} {c : Byte} {n : Nat} (ho : s.deliver r = some (c, n, t)) :
    (still t).1 = (still s).1 := by
  unfold State.deliver at ho
  split at ho
  · cases ho; rfl
  · cases ho; rfl
  · dsimp only at ho
    split at ho
    · obtain ⟨u, hu, he⟩ := Option.map_eq_some_iff.1 ho
      cases he
      rw [still_hwCommit hu]
    · cases ho
      rw [still_drop]
  · cases ho
    rw [still_keyWrite]
  · cases ho
    rw [still_keyWrite]
  · cases ho
    simp
  · cases ho
    rfl

/-! ### The AES engine -/

@[simp] theorem pending_aesFinish (s : State) (mismatch : Bool) : (still (aesFinish s mismatch)).1 = (still s).1 := by
  unfold aesFinish
  split
  · rfl
  next r _ =>
  split_ifs
  · simp
  · simp
  · split
    · rfl
    next hd => simpa using pending_deliver hd

/-! ### Jobs of Peat and operand memory -/

@[simp] theorem pending_omWrite (s : State) (w : Nat) (b : Bytes) : (still (State.omWrite s w b)).1 = (still s).1 := by
  simp [State.omWrite]

@[simp] theorem pending_clearSlots (s : State) : (still (State.clearSlots s)).1 = (still s).1 := by
  simp [State.clearSlots]

@[simp] theorem pending_peatJob (s : State) (ch : Nat) (j : PeatJob) :
    (still (State.peatJob s ch j).2).1 = (still s).1 := by
  unfold State.peatJob
  dsimp only
  split_ifs <;> simp [still_lit, pending_still]

@[simp] theorem pending_peatJobs (ch : Nat) (l : List PeatJob) :
    ∀ s : State, (still (s.peatJobs ch l).2).1 = (still s).1 := by
  induction l with
  | nil => exact fun _ => rfl
  | cons j l ih =>
    intro s
    have h := pending_peatJob s ch j
    unfold State.peatJobs
    split
    next c t e =>
      rw [e] at h
      split
      · exact h
      · exact (ih t).trans h

@[simp] theorem pending_withJobs (s : State) (ch : Nat) (l : List PeatJob) (fail : Byte → State → State)
    (go : State → State)
    (hf : ∀ c s, (still (fail c s)).1 = (still s).1) (hg : ∀ s, (still (go s)).1 = (still s).1) :
    (still (s.withJobs ch l fail go)).1 = (still s).1 := by
  have h := pending_peatJobs ch l s
  unfold State.withJobs
  split
  next c t e =>
    rw [e] at h
    exact pending_ite ((hf c t).trans h) ((hg t).trans h)

@[simp] theorem pending_withJobs_snd {β : Type} (s : State) (ch : Nat) (l : List PeatJob)
    (fail : Byte → State → β × State)
    (go : State → β × State) (hf : ∀ c s, (still (fail c s).2).1 = (still s).1) (hg : ∀ s, (still (go s).2).1 = (still s).1) :
    (still (s.withJobs ch l fail go).2).1 = (still s).1 := by
  have h := pending_peatJobs ch l s
  unfold State.withJobs
  split
  next c t e =>
    rw [e] at h
    split
    · exact (hf c t).trans h
    · exact (hg t).trans h

@[simp] theorem pending_draw_next (s : State) (w : Drawer) (n : Nat) (wait : State → State)
    (fail : Byte → State → State)
    (go : Bytes → State → State) (hw : ∀ s, (still (wait s)).1 = (still s).1) (hf : ∀ c s, (still (fail c s)).1 = (still s).1)
    (hg : ∀ b s, (still (go b s)).1 = (still s).1) : (still ((s.draw w n).next wait fail go)).1 = (still s).1 := by
  have h := still_drawn s w n
  unfold Drawn.next
  cases hd : s.draw w n with
  | wait t => rw [hd] at h; exact (hw t).trans (congrArg (·.1) h)
  | failed c t => rw [hd] at h; exact (hf c t).trans (congrArg (·.1) h)
  | got b t => rw [hd] at h; exact (hg b t).trans (congrArg (·.1) h)

/-! ### The long-integer engine -/

@[simp] theorem pending_bnFree (s : State) (l : List (Nat × Nat)) : (still (State.bnFree s l)).1 = (still s).1 := by
  simp [State.bnFree]

@[simp] theorem pending_bnZero (s : State) (l : List (Nat × Nat)) : (still (State.bnZero s l)).1 = (still s).1 := by
  simp [State.bnZero]

@[simp] theorem pending_bnPastFree (s : State) (d : List Word) (b : BnSpec) :
    (still (State.bnPastFree s d b)).1 = (still s).1 := by
  simp [State.bnPastFree]

@[simp] theorem pending_bnLaunch (s : State) (p : Packet) (d : List Word) (b : BnSpec) :
    (still (State.bnLaunch s p d b)).1 = (still s).1 := by
  simp [State.bnLaunch, still_lit, pending_still]

@[simp] theorem pending_bnBegin (s : State) (p : Packet) : (still (bnBegin s p)).1 = (still s).1 := by
  unfold bnBegin
  dsimp only
  (repeat' split) <;> simp [still_lit, pending_still]

@[simp] theorem pending_bnStart (k : Nat) (s : State) : (still (bnStart k s)).1 = (still s).1 := by
  unfold bnStart
  (repeat' split) <;> simp

@[simp] theorem pending_bnFail (s : State) (r : Run) (status : Byte) :
    (still (State.bnFail s r status)).1 = (still s).1 := by
  simp [State.bnFail]

@[simp] theorem pending_endBn (s : State) (status : Byte) : (still (State.endBn s status)).1 = (still s).1 := by
  unfold State.endBn
  split <;> simp [still_lit, pending_still]

@[simp] theorem pending_endBnSusp (s : State) (status : Byte) : (still (State.endBnSusp s status)).1 = (still s).1 := by
  unfold State.endBnSusp
  split <;> simp [still_lit, pending_still]

@[simp] theorem pending_bnFinish (s : State) (mismatch : Bool) : (still (bnFinish s mismatch)).1 = (still s).1 := by
  unfold bnFinish
  split <;> simp [still_lit, pending_still]

@[simp] theorem pending_bnYield (s : State) : (still (bnYield s)).1 = (still s).1 := by
  unfold bnYield
  dsimp only
  (repeat' split) <;> simp [still_lit, pending_still]

/-! ### The hash engine -/

@[simp] theorem pending_hFree (s : State) (w : Nat) : (still (State.hFree s w)).1 = (still s).1 := by
  simp [State.hFree]

@[simp] theorem pending_hSpoil (s : State) (area : Nat × Nat) : (still (State.hSpoil s area)).1 = (still s).1 := by
  unfold State.hSpoil
  split <;> simp [still_lit, pending_still]

@[simp] theorem pending_omTouch (s : State) (a n : Nat) : (still (s.omTouch a n)).1 = (still s).1 := by
  unfold State.omTouch
  split <;> simp [still_lit, pending_still]

@[simp] theorem pending_hBegin (s : State) (p : Packet) : (still (hBegin s p)).1 = (still s).1 := by
  unfold hBegin
  dsimp only
  split_ifs <;> simp [still_lit, pending_still]

@[simp] theorem pending_hStart (f x : Nat) (s : State) : (still (hStart f x s)).1 = (still s).1 := by
  unfold hStart
  (repeat' split) <;> simp

@[simp] theorem pending_hFinish (s : State) (mismatch : Bool) : (still (hFinish s mismatch)).1 = (still s).1 := by
  unfold hFinish
  split
  · rfl
  next r _ =>
  split_ifs
  · simp
  · simp [still_lit, pending_still]
  · simp [still_lit, pending_still]
  · split
    · rfl
    next hd =>
    have h := pending_deliver hd
    dsimp only
    split <;> simpa [still_lit, pending_still] using h

/-! ### The key store -/

@[simp] theorem pending_kstGoesOn (s : State) : (still (State.kstGoesOn s)).1 = (still s).1 := by
  unfold State.kstGoesOn
  split <;> simp

@[simp] theorem pending_kstGenerate (s : State) (a0 a1 : Word) : (still (kstGenerate s a0 a1)).1 = (still s).1 := by
  simp [kstGenerate]

@[simp] theorem pending_kstUnwrap (s : State) (a0 a1 a2 a3 : Word) :
    (still (kstUnwrap s a0 a1 a2 a3).2).1 = (still s).1 := by
  unfold kstUnwrap
  dsimp only
  split_ifs
  · rfl
  · rfl
  · rfl
  · rfl
  · rfl
  · refine (pending_withJobs_snd _ _ _ _ _ (fun _ _ => rfl) fun s => ?_).trans (by simp)
    split <;> simp

@[simp] theorem pending_kstDerive (s : State) (a0 a1 a2 a3 : Word) :
    (still (kstDerive s a0 a1 a2 a3).2).1 = (still s).1 := by
  unfold kstDerive
  dsimp only
  split_ifs <;> simp

@[simp] theorem pending_kstRun (s : State) (op : Nat) (r : Bytes) : (still (kstRun s op r).2).1 = (still s).1 := by
  unfold kstRun
  split <;> simp

@[simp] theorem pending_kstGo (op : Nat) (r : Bytes) (s : State) : (still (kstGo op r s)).1 = (still s).1 := by
  simp [kstGo]

/-! ### Sections of the configuration -/

@[simp] theorem pending_applyEngine (s : State) (p : Bytes) : (still (s.applyEngine p)).1 = (still s).1 := rfl

@[simp] theorem pending_applyPolicy (s : State) (b : Bytes) : (still (State.applyPolicy s b)).1 = (still s).1 := by
  unfold State.applyPolicy
  (repeat' split) <;> simp

@[simp] theorem pending_applyApplet (s : State) (n : Nat) (b : Bytes) :
    (still (State.applyApplet s n b)).1 = (still s).1 := by
  simp [State.applyApplet, still_lit, pending_still]

@[simp] theorem pending_applySection (s : State) (typ inst : Nat) (b : Bytes) :
    (still (State.applySection s typ inst b)).1 = (still s).1 := by
  unfold State.applySection
  split <;> simp [still_lit, pending_still]

@[simp] theorem pending_reloadSection (s : State) (typ inst : Nat) (b : Bytes) :
    (still (State.reloadSection s typ inst b)).1 = (still s).1 := by
  unfold State.reloadSection
  split <;> simp

@[simp] theorem pending_reloadLost (s : State) : (still (State.reloadLost s)).1 = (still s).1 := by
  simp [State.reloadLost]

@[simp] theorem pending_applyAll (s : State) : (still (State.applyAll s)).1 = (still s).1 := by
  simp [State.applyAll]

/-! ### The resume -/

@[simp] theorem pending_resume (s : State) (cause : Nat) : (still (State.resume s cause)).1 = (still s).1 := by
  simp [State.resume, still_lit, pending_still]

/-! ### The tag -/

@[simp] theorem pending_tagUnlock (s : State) : (still (tagUnlock s)).1 = (still s).1 := by
  unfold tagUnlock
  (repeat' split) <;> simp

/-! ### Windows and records -/

@[simp] theorem pending_mvFlushed (s old : State) (mask : Nat) (x : Nat × MoverRun) :
    (still (State.mvFlushed s old mask x)).1 = (still s).1 := by
  unfold State.mvFlushed
  dsimp only
  (repeat' split) <;> simp

@[simp] theorem pending_flushMask (mask : Nat) (s : State) : (still (flushMask mask s)).1 = (still s).1 := by
  unfold flushMask
  dsimp only
  rw [still_commitLog, still_drainWaiting]
  refine (pending_onlyIf _ _ _ fun t => ?_).trans (by simp)
  split <;> simp

/-! ### Channels -/

@[simp] theorem pending_channelAbort (ch : Nat) (s : State) : (still (channelAbort ch s)).1 = (still s).1 := by
  simp [channelAbort]

/-! ### The mailbox -/

@[simp] theorem pending_peatDraw (s : State) (n : Nat) (h : Bytes) (fail : Byte → State → State)
    (go : Bytes → State → State)
    (hf : ∀ c s, (still (fail c s)).1 = (still s).1) (hg : ∀ b s, (still (go b s)).1 = (still s).1) :
    (still (s.peatDraw n h fail go)).1 = (still s).1 :=
  pending_draw_next s .peat n _ fail go (fun s => by rw [still_await]) hf hg

@[simp] theorem pending_jobsDone (s : State) (l : List PeatJob) (go : State → State)
    (hg : ∀ s, (still (go s)).1 = (still s).1) :
    (still (s.jobsDone l go)).1 = (still s).1 := pending_withJobs s 127 l _ go (fun c s => by rw [still_replyCode]) hg

@[simp] theorem pending_makeOffer (s : State) (ch n : Nat) : (still (State.makeOffer s ch n)).1 = (still s).1 := by
  unfold State.makeOffer
  refine pending_peatDraw _ _ _ _ _ (by simp) fun b t => ?_
  split
  · simp
  · refine pending_withJobs _ _ _ _ _ (by simp) fun u => ?_
    dsimp only
    split
    next hd => simpa using congrArg (·.1) (still_outCommit hd)
    next => simp

@[simp] theorem pending_openSession (v : Serving) (s : State) : (still (openSession v s)).1 = (still s).1 := by
  unfold openSession
  dsimp only
  refine pending_ite (by simp) ?_
  split <;> next h => simpa using congrArg (·.1) (still_sesRoomEq h)

@[simp] theorem pending_fusedKey (s : State) (n : Nat) (status : Byte) :
    (still (State.fusedKey s n status)).1 = (still s).1 := by
  unfold State.fusedKey
  split <;> next h => simpa [still_lit, pending_still] using congrArg (·.1) (still_sesRoomEq h)

@[simp] theorem pending_rangingKeys (s : State) (n : Nat) (status : Byte) :
    (still (State.rangingKeys s n status)).1 = (still s).1 := by
  simp [State.rangingKeys]

@[simp] theorem pending_agree (s : State) (n : Nat) (m : Bytes) : (still (State.agree s n m)).1 = (still s).1 := by
  simp [State.agree]

@[simp] theorem pending_keyAgree (v : Serving) (s : State) : (still (keyAgree v s)).1 = (still s).1 := by
  unfold keyAgree
  dsimp only
  (repeat' split) <;> simp

@[simp] theorem pending_makeKey (s : State) (n : Nat) (w : Word) : (still (State.makeKey s n w)).1 = (still s).1 := by
  simp [State.makeKey]

@[simp] theorem pending_keyGen (v : Serving) (s : State) : (still (keyGen v s)).1 = (still s).1 := by
  simp [keyGen]

@[simp] theorem pending_importKey (s : State) (n : Nat) (b : Bytes) :
    (still (State.importKey s n b)).1 = (still s).1 := by
  unfold State.importKey
  dsimp only
  split
  · simp
  · refine pending_jobsDone _ _ _ fun s => pending_withJobs _ _ _ _ _ (by simp) fun s => pending_jobsDone _ _ _ fun s => ?_
    split_ifs <;> simp

@[simp] theorem pending_keyImport (v : Serving) (s : State) : (still (keyImport v s)).1 = (still s).1 := by
  unfold keyImport
  dsimp only
  (repeat' split) <;> simp

@[simp] theorem pending_identityAttest (s : State) (st : Bytes) :
    (still (State.identityAttest s st)).1 = (still s).1 := by
  unfold State.identityAttest
  split <;> simp [still_lit, pending_still]

@[simp] theorem pending_akAttest (s : State) (st : Bytes) : (still (State.akAttest s st)).1 = (still s).1 := by
  unfold State.akAttest
  split
  · simp
  · split
    · simp
    · refine pending_peatDraw _ _ _ _ _ (by simp) fun b s => pending_jobsDone _ _ _ fun s => ?_
      split <;> simp

@[simp] theorem pending_attest (v : Serving) (s : State) : (still (attest v s)).1 = (still s).1 := by
  unfold attest
  dsimp only
  (repeat' split) <;> simp

/-! ### Credentials and enrolment -/

@[simp] theorem pending_setWayWord (s : State) (set w : Nat) (v : Word) :
    (still (State.setWayWord s set w v)).1 = (still s).1 := by
  simp [State.setWayWord]

@[simp] theorem pending_ageSet (s : State) (set way age : Nat) :
    (still (State.ageSet s set way age)).1 = (still s).1 := by
  simp [State.ageSet]

@[simp] theorem pending_tableLookup (s : State) (serial : Nat) (cred : Bytes) :
    (still (State.tableLookup s serial cred).2).1 = (still s).1 := by
  unfold State.tableLookup
  dsimp only
  (repeat' split) <;> simp

@[simp] theorem pending_tableDrop (s : State) : (still s.tableDrop).1 = (still s).1 := rfl

@[simp] theorem pending_tableWrite (s : State) (serial : Nat) (cred : Bytes) :
    (still (State.tableWrite s serial cred)).1 = (still s).1 := by
  simp [State.tableWrite]

@[simp] theorem pending_tableMark (s : State) (serial n : Nat) :
    (still (State.tableMark s serial n)).1 = (still s).1 := by
  unfold State.tableMark
  dsimp only
  (repeat' split) <;> simp

@[simp] theorem pending_mapFetch (s : State) (sec : Nat) : (still (State.mapFetch s sec).2).1 = (still s).1 := by
  unfold State.mapFetch
  dsimp only
  (repeat' split) <;> simp [still_lit, pending_still]

@[simp] theorem pending_mapqWrite (v : Word) (s : State) : (still (mapqWrite v s)).1 = (still s).1 := by
  simp [mapqWrite]

@[simp] theorem pending_mapStore (s : State) (sec version : Nat) (kx km pt : Bytes) :
    (still (State.mapStore s sec version kx km pt)).1 = (still s).1 := by
  simp [State.mapStore, still_lit, pending_still]

@[simp] theorem pending_credEnd (s : State) (n : Nat) (c : Bytes) (hit : Bool) :
    (still (State.credEnd s n c hit)).1 = (still s).1 := by
  simp [State.credEnd]

@[simp] theorem pending_credFinish (s : State) (n cls : Nat) (c : Bytes) :
    (still (State.credFinish s n cls c)).1 = (still s).1 := by
  simp [State.credFinish]

@[simp] theorem pending_credSteps (s : State) (n : Nat) (b : Bytes) :
    (still (State.credSteps s n b)).1 = (still s).1 := by
  simp [State.credSteps]

@[simp] theorem pending_credCheck (v : Serving) (s : State) : (still (credCheck v s)).1 = (still s).1 := by
  unfold credCheck
  dsimp only
  (repeat' split) <;> simp

@[simp] theorem pending_mapSpoil (s : State) (sec : Nat) : (still (State.mapSpoil s sec)).1 = (still s).1 := by
  simp [State.mapSpoil]

@[simp] theorem pending_applyUpdate (s : State) (flashOk : Bool) (b : Bytes) :
    (still (State.applyUpdate s flashOk b)).1 = (still s).1 := by
  unfold State.applyUpdate
  dsimp only
  (repeat' split) <;> simp

@[simp] theorem pending_signedUpdate (s : State) (flashOk : Bool) (b : Bytes) :
    (still (State.signedUpdate s flashOk b)).1 = (still s).1 := by
  simp [State.signedUpdate]

@[simp] theorem pending_statusUpdate (flashOk : Bool) (v : Serving) (s : State) :
    (still (statusUpdate flashOk v s)).1 = (still s).1 := by
  unfold statusUpdate
  dsimp only
  (repeat' split) <;> simp

@[simp] theorem pending_recordKey (s : State) (cls : Nat) (b code : Bytes) :
    (still (State.recordKey s cls b code)).1 = (still s).1 := by
  unfold State.recordKey
  split <;> simp

@[simp] theorem pending_enrolRecord (v : Serving) (s : State) : (still (enrolRecord v s)).1 = (still s).1 := by
  unfold enrolRecord
  dsimp only
  (repeat' split) <;> simp

@[simp] theorem pending_byToken (v : Serving) (s : State) : (still (byToken v s)).1 = (still s).1 := by
  unfold byToken
  dsimp only
  split
  · simp
  split
  · simp
  split
  · simp
  split
  · simp
  split
  · simp
  split
  · simp
  split
  · simp
  · split <;> next h => simpa using congrArg (·.1) (still_sesRoomEq h)

@[simp] theorem pending_phoneEntry (s : State) (ch n k serial : Nat) (rights : Word) (key : Bytes) (tid : Word) :
    (still (State.phoneEntry s ch n k serial rights key tid)).1 = (still s).1 := by
  unfold State.phoneEntry
  dsimp only
  split
  · simp
  · refine pending_jobsDone _ _ _ fun s => ?_
    split
    · simp
    next hd => simpa using congrArg (·.1) (still_outCommit hd)

@[simp] theorem pending_phoneDraw (s : State) (ch n k serial : Nat) (rights : Word) (key : Bytes) :
    (still (State.phoneDraw s ch n k serial rights key)).1 = (still s).1 := by
  simp [State.phoneDraw]

@[simp] theorem pending_enrolPhone (key : Bytes) (v : Serving) (s : State) :
    (still (enrolPhone key v s)).1 = (still s).1 := by
  unfold enrolPhone
  dsimp only
  (repeat' split) <;> simp

/-! ### Applets -/

@[simp] theorem pending_loadApplet (s : State) (n : Nat) : (still (State.loadApplet s n).2).1 = (still s).1 := by
  unfold State.loadApplet
  dsimp only
  (repeat' split) <;> simp [still_lit, pending_still]

@[simp] theorem pending_beginCall (s : State) (n : Nat) (reqId : Option (BitVec 16)) (chan : Nat) (args : List Word) :
    (still (State.beginCall s n reqId chan args).2).1 = (still s).1 := by
  unfold State.beginCall
  dsimp only
  split_ifs <;> simp [still_lit, pending_still]

@[simp] theorem pending_discardData (s : State) (r : AppletRun) : (still (State.discardData s r)).1 = (still s).1 := by
  unfold State.discardData
  dsimp only
  (repeat' split) <;> simp

@[simp] theorem pending_ecallHash (r : AppletRun) (s : State) : (still (ecallHash r s)).1 = (still s).1 := by
  simp [ecallHash]

/-! ### Release decisions -/

@[simp] theorem pending_grant (s : State) (d : Decision) : (still (State.grant s d)).1 = (still s).1 := by
  unfold State.grant
  split <;> simp

@[simp] theorem pending_askPolicy (s : State) (d : Decision) : (still (State.askPolicy s d)).1 = (still s).1 := by
  simp [State.askPolicy]

@[simp] theorem pending_appletVerdict (s : State) (d : Decision) (card : Bool) (b : Byte) :
    (still (State.appletVerdict s d card b)).1 = (still s).1 := by
  simp [State.appletVerdict]

@[simp] theorem pending_unlockReq (v : Serving) (s : State) : (still (unlockReq v s)).1 = (still s).1 := by
  simp [unlockReq]

@[simp] theorem pending_takeFused (d : Decision) (k : Nat) :
    ∀ s : State, (still (s.takeFused d k)).1 = (still s).1 := by
  induction k with
  | zero => exact fun _ => rfl
  | succ k ih =>
    intro s
    unfold State.takeFused
    dsimp only
    split
    · split
      · rfl
      split
      · simp [still_lit, pending_still]
      split
      · simp [still_lit, pending_still]
      split
      · simp [still_lit, pending_still]
      split
      next h => exact (ih _).trans (congrArg (·.1) (still_askFused h))
      · rfl
    · rfl

@[simp] theorem pending_startPhone (s : State) (d : Decision) : (still (s.startPhone d)).1 = (still s).1 := by
  unfold State.startPhone
  simp [still_lit, pending_still]

@[simp] theorem pending_startReq (v : Serving) (s : State) : (still (startReq v s)).1 = (still s).1 := by
  simp [startReq]

@[simp] theorem pending_startDeadline (s : State) : (still (startDeadline s)).1 = (still s).1 := by
  unfold startDeadline
  (repeat' split) <;> simp

@[simp] theorem pending_islandDecision (s : State) : (still (islandDecision s)).1 = (still s).1 := by
  simp [islandDecision, still_lit, pending_still]

@[simp] theorem pending_endCall (s : State) (status : Byte) (ws : List Word) :
    (still (State.endCall s status ws)).1 = (still s).1 := by
  unfold State.endCall
  dsimp only
  (repeat' split) <;> simp

@[simp] theorem pending_abortCall (s : State) : (still (State.abortCall s)).1 = (still s).1 := by
  unfold State.abortCall
  split <;> simp

@[simp] theorem pending_ecall (service : Nat) (f : AppletRun → State → State)
    (hf : ∀ r s, (still (f r s)).1 = (still s).1) (s : State) : (still (ecall service f s)).1 = (still s).1 := by
  unfold ecall
  split
  · rfl
  · split_ifs <;> simp [hf]

@[simp] theorem pending_mailCall (s : State) : (still (State.mailCall s)).1 = (still s).1 := by
  unfold State.mailCall
  split <;> simp

@[simp] theorem pending_appletCall (s : State) : (still (appletCall s)).1 = (still s).1 := by
  unfold appletCall
  (repeat' split) <;> simp

@[simp] theorem pending_peatGoesOn (s : State) : (still (peatGoesOn s)).1 = (still s).1 := by
  unfold peatGoesOn
  (repeat' split) <;> simp

@[simp] theorem pending_sessionFreed (s : State) (v : Serving) : (still (State.sessionFreed s v)).1 = (still s).1 := by
  simp [State.sessionFreed]

@[simp] theorem pending_sessionFree (n : Nat) (s : State) : (still (sessionFree n s)).1 = (still s).1 := by
  unfold sessionFree
  dsimp only
  (repeat' split) <;> simp

/-! ### Images -/

@[simp] theorem pending_resetAll (s : State) (cause : Word) : (still (s.resetAll cause)).1 = (still s).1 := rfl

@[simp] theorem pending_eraseSlot (s : State) (slot : Nat) : (still (State.eraseSlot s slot)).1 = (still s).1 := by
  unfold State.eraseSlot
  exact pending_flashWrite ..

@[simp] theorem pending_commitSection (s : State) (slot : Nat) (version : Word) (key : Nat) (body : Option Bytes) :
    (still (State.commitSection s slot version key body)).1 = (still s).1 := by
  unfold State.commitSection
  split <;> simp [still_lit, pending_still]

@[simp] theorem pending_refuseCandidate (s : State) (slot : Nat) :
    (still (State.refuseCandidate s slot)).1 = (still s).1 := by
  simp [State.refuseCandidate]

@[simp] theorem pending_cfgReplace (_v : Serving) (s : State) : (still (cfgReplace _v s)).1 = (still s).1 := by
  unfold cfgReplace
  dsimp only
  (repeat' split) <;> simp

@[simp] theorem pending_replacementCommit (s : State) : (still (replacementCommit s)).1 = (still s).1 := by
  unfold replacementCommit
  (repeat' split) <;> simp

@[simp] theorem pending_drainTimeout (s : State) : (still (drainTimeout s)).1 = (still s).1 := by
  unfold drainTimeout
  (repeat' split) <;> simp

@[simp] theorem pending_handoff (s : State) : (still (State.handoff s)).1 = (still s).1 := by
  simp [State.handoff]

@[simp] theorem pending_swapPeat (s : State) (slot version : Nat) (digest : Bytes) :
    (still (State.swapPeat s slot version digest)).1 = (still s).1 := by
  simp [State.swapPeat, still_lit, pending_still]

@[simp] theorem pending_peatSwap (s : State) : (still (peatSwap s)).1 = (still s).1 := by
  unfold peatSwap
  (repeat' split) <;> simp

/-! ### The life cycle -/

@[simp] theorem pending_clearSector (s : State) (sec : Nat) : (still (State.clearSector s sec)).1 = (still s).1 := by
  unfold State.clearSector
  split <;> simp [still_lit, pending_still]

@[simp] theorem pending_enterField (s : State) (b : Bytes) : (still (State.enterField s b)).1 = (still s).1 := by
  simp [State.enterField, still_lit, pending_still]

@[simp] theorem pending_onEntry (s : State) (b : Nat) (rnd : Bytes) :
    (still (State.onEntry s b rnd)).1 = (still s).1 := by
  simp [State.onEntry]

@[simp] theorem pending_transition (s : State) (b : Nat) (keys rnd : Bytes) :
    (still (State.transition s b keys rnd)).1 = (still s).1 := by
  simp [State.transition, still_lit, pending_still]

@[simp] theorem pending_askTransition (s : State) (b : Nat) (keys : Bytes) (w : Drawer) (wait : Bytes → State → State)
    (fin : Byte → State → State) (hwait : ∀ a u, (still (wait a u)).1 = (still u).1)
    (hfin : ∀ c u, (still (fin c u)).1 = (still u).1) :
    (still (State.askTransition s b keys w wait fin)).1 = (still s).1 := by
  simp [State.askTransition, hwait, hfin]

@[simp] theorem pending_takeToken (s : State) (t : Bytes) (w : Drawer) (wait : Bytes → State → State)
    (fin : Byte → State → State) (hwait : ∀ a u, (still (wait a u)).1 = (still u).1)
    (hfin : ∀ c u, (still (fin c u)).1 = (still u).1) : (still (State.takeToken s t w wait fin)).1 = (still s).1 := by
  unfold State.takeToken
  dsimp only
  (repeat' split) <;> simp [still_lit, pending_still, hwait, hfin]

@[simp] theorem pending_takeRecord (s : State) (t : Bytes) (w : Drawer) (wait : Bytes → State → State)
    (fin : Byte → State → State) (hwait : ∀ a u, (still (wait a u)).1 = (still u).1)
    (hfin : ∀ c u, (still (fin c u)).1 = (still u).1) :
    (still (State.takeRecord s t w wait fin)).1 = (still s).1 := by
  simp [State.takeRecord, hwait, hfin]

@[simp] theorem pending_lcsTransition (v : Serving) (s : State) : (still (lcsTransition v s)).1 = (still s).1 := by
  unfold lcsTransition
  dsimp only
  (repeat' split) <;> simp

@[simp] theorem pending_debugToken (t : Bytes) (s : State) : (still (debugToken t s)).1 = (still s).1 := by
  simp [debugToken]

@[simp] theorem pending_requestServed (s : State) : (still (State.requestServed s)).1 = (still s).1 := by
  unfold State.requestServed
  split
  · simp
  · split
    · dsimp only
      split <;> simp
    · rfl

@[simp] theorem pending_jtagServed (s : State) : (still (State.jtagServed s)).1 = (still s).1 := by
  unfold State.jtagServed
  split <;> simp

@[simp] theorem pending_drawerGoesOn (s : State) (w : Drawer) : (still (State.drawerGoesOn s w)).1 = (still s).1 := by
  unfold State.drawerGoesOn
  split <;> simp

@[simp] theorem pending_drawsServed (s : State) : (still (State.drawsServed s)).1 = (still s).1 := by
  simp [State.drawsServed]

/-! ### Power -/

@[simp] theorem pending_enterDeep (s : State) (cause : Word) : (still (State.enterDeep s cause)).1 = (still s).1 := by
  simp [State.enterDeep, still_lit, pending_still]

@[simp] theorem pending_wakeStart (s : State) (b : Nat) : (still (State.wakeStart s b)).1 = (still s).1 := by
  simp [State.wakeStart, still_lit, pending_still]

@[simp] theorem pending_wake (s : State) (b : Nat) : (still (State.wake s b)).1 = (still s).1 := by
  unfold State.wake
  split <;> simp

@[simp] theorem pending_vbatEvent (s : State) : (still (State.vbatEvent s)).1 = (still s).1 := by
  simp [State.vbatEvent]

@[simp] theorem pending_coldPower (s : State) : (still (State.coldPower s)).1 = (still s).1 := by
  simp [State.coldPower, still_lit, pending_still]

@[simp] theorem pending_vbatRise (lost : Bool) (s : State) : (still (vbatRise lost s)).1 = (still s).1 := by
  simp [vbatRise]

@[simp] theorem pending_chargeEvent (s : State) : (still (chargeEvent s)).1 = (still s).1 := by
  simp [chargeEvent]

@[simp] theorem pending_vdrvFalls (s : State) : (still (vdrvFalls s)).1 = (still s).1 := by
  unfold vdrvFalls
  dsimp only
  (repeat' split) <;> simp

@[simp] theorem pending_brownOut (s : State) : (still (brownOut s)).1 = (still s).1 := by
  simp [brownOut]

@[simp] theorem pending_resetPin (s : State) : (still (resetPin s)).1 = (still s).1 := by
  simp [resetPin]

@[simp] theorem pending_attemptFails (s : State) : (still (attemptFails s)).1 = (still s).1 := by
  simp [attemptFails]

@[simp] theorem pending_generateDue (s : State) : (still (State.generateDue s)).1 = (still s).1 := by
  unfold State.generateDue
  (repeat' split) <;> simp [still_lit, pending_still]

@[simp] theorem pending_goesOn (s : State) : (still (State.goesOn s)).1 = (still s).1 := by
  simp [State.goesOn]

@[simp] theorem pending_rootGiven (s : State) (array r : Bytes) :
    (still (State.rootGiven s array r)).1 = (still s).1 := by
  simp [State.rootGiven, still_lit, pending_still]

@[simp] theorem pending_rootAttempt (array : Bytes) (s : State) : (still (rootAttempt array s)).1 = (still s).1 := by
  unfold rootAttempt
  split <;> simp

@[simp] theorem pending_loadImage (s : State) (typ : Nat) (x : Nat × Bytes) :
    (still (State.loadImage s typ x)).1 = (still s).1 := by
  simp [State.loadImage]

@[simp] theorem pending_runFound (s : State) (p : Nat × Bytes) (sedge : Option (Nat × Bytes)) :
    (still (State.runFound s p sedge)).1 = (still s).1 := by
  unfold State.runFound
  split <;> simp [still_lit, pending_still]

@[simp] theorem pending_finishStart (s : State) : (still (State.finishStart s)).1 = (still s).1 := by
  unfold State.finishStart
  dsimp only
  (repeat' split) <;> simp

@[simp] theorem pending_vendorTest (s : State) : (still (State.vendorTest s)).1 = (still s).1 := by
  simp [State.vendorTest]

@[simp] theorem pending_finishTorn (s : State) : (still (State.finishTorn s)).1 = (still s).1 := by
  unfold State.finishTorn
  split <;> simp [still_lit, pending_still]

@[simp] theorem pending_start (bootSel : BitVec 2) (head : Bool) (s : State) :
    (still (start bootSel head s)).1 = (still s).1 := by
  simp [start]

@[simp] theorem pending_recData (v : Word) (s : State) : (still (recData v s)).1 = (still s).1 := by
  unfold recData
  dsimp only
  (repeat' split) <;> simp

@[simp] theorem pending_sedgeReloadDone (s : State) : (still (sedgeReloadDone s)).1 = (still s).1 := by
  simp [sedgeReloadDone]

@[simp] theorem pending_peatFails (s : State) : (still (peatFails s)).1 = (still s).1 := by
  simp [peatFails]

@[simp] theorem pending_loseStage3 (s : State) : (still s.loseStage3).1 = (still s).1 := rfl

@[simp] theorem pending_enterStage (s : State) (n : Nat) : (still (State.enterStage s n)).1 = (still s).1 := by
  simp [State.enterStage, still_lit, pending_still]

@[simp] theorem pending_stageEntry (n : Nat) (s : State) : (still (stageEntry n s)).1 = (still s).1 := by
  unfold stageEntry
  (repeat' split) <;> simp

@[simp] theorem pending_abortJobs (s : State) : (still (State.abortJobs s)).1 = (still s).1 := by
  simp [State.abortJobs, still_lit, pending_still]

@[simp] theorem pending_leaveResumed (s : State) : (still (State.leaveResumed s)).1 = (still s).1 := by
  simp [State.leaveResumed]

@[simp] theorem pending_headLeaves (s : State) : (still (State.headLeaves s)).1 = (still s).1 := by
  simp [State.headLeaves]

@[simp] theorem pending_wantsLeave (s : State) : (still (State.wantsLeave s)).1 = (still s).1 := by
  simp [State.wantsLeave]

@[simp] theorem pending_idleExpiry (s : State) : (still (idleExpiry s)).1 = (still s).1 := by
  simp [idleExpiry]

@[simp] theorem pending_sleepAsk (s : State) : (still (sleepAsk s)).1 = (still s).1 := by
  simp [sleepAsk]

@[simp] theorem pending_enterDsAsk (s : State) : (still (enterDsAsk s)).1 = (still s).1 := by
  simp [enterDsAsk]

@[simp] theorem pending_pwrCmd (v : Word) (s : State) : (still (pwrCmd v s)).1 = (still s).1 := by
  simp [pwrCmd]

@[simp] theorem pending_idleNotice (s : State) : (still (idleNotice s)).1 = (still s).1 := by
  unfold idleNotice
  split
  next h =>
    have hu := congrArg (·.1) (still_takeFrame h)
    split <;> simpa using hu
  · rfl

@[simp] theorem pending_sleepNotice (s : State) : (still (sleepNotice s)).1 = (still s).1 := by
  unfold sleepNotice
  split
  next h =>
    have hu := congrArg (·.1) (still_takeFrame h)
    split <;> simpa using hu
  · rfl

@[simp] theorem pending_heronPoll (lf : Option LfReply) (opens shorts : Nat) (ping : Ping) (ext : Bool) (s : State) :
    (still (heronPoll lf opens shorts ping ext s)).1 = (still s).1 := by
  unfold heronPoll
  dsimp only
  split_ifs <;> simp

@[simp] theorem pending_lineWake (p : Nat) (s : State) : (still (lineWake p s)).1 = (still s).1 := by
  simp [lineWake, still_lit, pending_still]

/-! ### Faults -/

@[simp] theorem pending_noteAlarm (s : State) (source detail : Nat) :
    (still (State.noteAlarm s source detail)).1 = (still s).1 := by
  have hregs : ∀ v w k, (still ((((((s.srb aFLT_STATUS (source - 1) true).setReg aFLT_LAST0 v).setReg aFLT_LAST1 w).srf
      aFLT_AON 31 28 k).raise .alarm))).1 = (still s).1 := fun v w k => by simp
  unfold State.noteAlarm
  dsimp only
  generalize w32 _ = v
  generalize State.sysLo _ = w
  have h := hregs v w source
  generalize State.raise _ .alarm = t at *
  exact (pending_setFlt t _).trans h

@[simp] theorem pending_alarmJobs (s : State) : (still (State.alarmJobs s)).1 = (still s).1 := by
  simp [State.alarmJobs]

@[simp] theorem pending_storm (s : State) : (still (State.storm s)).1 = (still s).1 := by
  simp [State.storm]

@[simp] theorem pending_alarm (s : State) (source detail : Nat) :
    (still (State.alarm s source detail)).1 = (still s).1 := by
  simp [State.alarm]

@[simp] theorem pending_alarmTrips (sources detail : Nat) (s : State) :
    (still (alarmTrips sources detail s)).1 = (still s).1 := by
  unfold alarmTrips
  split
  · rfl
  · split
    · exact (pending_alarm _ _ _).trans (congrArg (·.1) (still_noteTrips _ s))
    · rfl

@[simp] theorem pending_memAlarm (s : State) (detail : Nat) : (still (State.memAlarm s detail)).1 = (still s).1 := by
  simp [State.memAlarm]

@[simp] theorem pending_doubleBit (mem place : Nat) (reader : Master) (s : State) :
    (still (doubleBit mem place reader s)).1 = (still s).1 := by
  unfold doubleBit
  (repeat' split) <;> simp

/-! ### Writes on the bus -/

@[simp] theorem pending_chnCtl (n : Nat) (v : Word) (s : State) : (still (chnCtl n v s)).1 = (still s).1 := by
  simp [chnCtl]

@[simp] theorem pending_kstCmd (v : Word) (s : State) : (still (kstCmd v s)).1 = (still s).1 := by
  simp [kstCmd]

@[simp] theorem pending_writeFront (a : Nat) (v : Word) (s : State) : (still (writeFront a v s)).1 = (still s).1 := by
  simp [writeFront, still_lit, pending_still]

@[simp] theorem pending_writeQueue (a : Nat) (v : Word) (s : State) : (still (writeQueue a v s)).1 = (still s).1 := by
  simp [writeQueue]

@[simp] theorem pending_writeSystem (a : Nat) (v : Word) (s : State) : (still (writeSystem a v s)).1 = (still s).1 := by
  unfold writeSystem
  refine pending_ite ?_ <| pending_ite ?_ <| pending_ite ?_ <| pending_ite ?_ <| pending_ite ?_ <| pending_ite ?_ <|
    pending_ite ?_ <| pending_ite ?_ <| pending_ite ?_ <| pending_ite ?_ <| pending_ite ?_ <| pending_ite ?_ <|
    pending_ite ?_ <| pending_ite ?_ <| pending_ite ?_ <| pending_ite ?_ ?_
  all_goals simp

@[simp] theorem pending_plainWrite (a : Nat) (v : Word) (s : State) : (still (plainWrite a v s)).1 = (still s).1 := by
  unfold plainWrite
  split <;> simp

@[simp] theorem pending_regWrite (a : Nat) (v : Word) (s : State) : (still (regWrite a v s)).1 = (still s).1 := by
  unfold regWrite
  simp

@[simp] theorem pending_tableStore (s : State) (a : Nat) : (still (State.tableStore s a)).1 = (still s).1 := by
  simp [State.tableStore]

@[simp] theorem pending_busWrite (m rights : Master) (user : Bool) (a : Nat) (v : Word) (s : State) :
    (still (busWrite m rights user a v s)).1 = (still s).1 := by
  unfold busWrite
  split <;> simp

@[simp] theorem pending_registerWrite (m : Master) (user : Bool) (a : Nat) (v : Word) (s : State) :
    (still (registerWrite m user a v s)).1 = (still s).1 := by
  simp [registerWrite]

/-! ### The mover -/

@[simp] theorem pending_mvStore (s : State) (rights : Master) (a : Nat) (b : Bytes) :
    (still (State.mvStore s rights a b)).1 = (still s).1 := by
  simp [State.mvStore]

@[simp] theorem pending_mvQ2M (rights : Master) (d : List Word) (s : State) :
    (still (mvQ2M rights d s).2).1 = (still s).1 := by
  unfold mvQ2M
  dsimp only
  (repeat' split) <;> simp

@[simp] theorem pending_mvM2M (rights : Master) (d : List Word) (s : State) :
    (still (mvM2M rights d s).2).1 = (still s).1 := by
  unfold mvM2M
  dsimp only
  split_ifs <;> simp

@[simp] theorem pending_mvRun (rights : Master) (d : List Word) (s : State) :
    (still (mvRun rights d s).2).1 = (still s).1 := by
  unfold mvRun
  split <;> simp

@[simp] theorem pending_mvMixed (s : State) (ch : Nat) (rights : Master) (d : List Word) :
    (still (State.mvMixed s ch rights d)).1 = (still s).1 := by
  simp [State.mvMixed, still_lit, pending_still]

@[simp] theorem pending_descriptorDone (ch : Nat) (s : State) : (still (descriptorDone ch s)).1 = (still s).1 := by
  unfold descriptorDone
  dsimp only
  (repeat' split) <;> simp [still_lit, pending_still]

/-! ### The host port -/

@[simp] theorem pending_notReady (s : State) (n : Nat) : (still (State.notReady s n)).1 = (still s).1 := by
  simp [State.notReady, still_lit, pending_still]

@[simp] theorem pending_hostWriteWord (sp : Bool) (a : Nat) (v : Word) (s : State) :
    (still (hostWriteWord sp a v s)).1 = (still s).1 := by
  simp [hostWriteWord]

@[simp] theorem pending_applyBuf (s : State) : (still (applyBuf s)).1 = (still s).1 := by
  unfold applyBuf
  split <;> simp [still_lit, pending_still]

@[simp] theorem pending_hostWriteTxn (m : Bytes) (s : State) : (still (hostWriteTxn m s)).1 = (still s).1 := by
  unfold hostWriteTxn
  dsimp only
  (repeat' split) <;> simp [still_lit, pending_still]

@[simp] theorem pending_hostReadTxn (m : Bytes) (s : State) : (still (hostReadTxn m s)).1 = (still s).1 := by
  unfold hostReadTxn
  (repeat' split) <;> simp

@[simp] theorem pending_hostStatusTxn (s : State) : (still (hostStatusTxn s)).1 = (still s).1 := by
  unfold hostStatusTxn
  split <;> simp

/-! ### Every command -/

/-- A command that may store leaves the commands that wait. -/
theorem exec_pending_of_mayStore {c : Instr} (h : mayStore c = true) (s : State) :
    ∃ t, exec c s = .next t ∧ (still t).1 = (still s).1 := by
  cases c with
  | start | rootAttempt | lineActivityWake | stageEntry | heronPoll | activity | enterDs | sleep | ecallHash
  | ecallRandomWords | ecallOwnCounters | ecallKeyStore | ecallReply | channelStop | channelAbort | sessionFree
  | lfWake | lfAuth | lfLocate | lfTune | lfMeasure | lfExchangeStart | statusUpdate | vbatRise | fusedRequest
  | mapqGo | generate | unwrap | derive | kstCopy | loadEntry | storeEntry | erase | cntInc | cntSet | rootEnrol
  | epochAdv | poolComplete | healthFailure | aesJobCompletion | bnJobCompletion | hshJobCompletion | flush | pflush
  | descriptorDone | hostRead | hostWrite | hostStatus | recdataWrite | alarm | memoryDoubleBitError | registerWrite
  | lfExchangeEnd | chargeEvent | vdrvLow | brownOut | resetN | supplyTimeout | xoTimeout | wakeIn | hostCsWake
  | rcTimerWake | idleMsExpiry | sedgeReloadDone | peatWatchdogExpiry | peatException | sessionOpen | keyAgree
  | credCheck | record | byToken | phone | unlockReq | startReq | startDeadline | keyGen | keyImport | attest
  | cfgReplace | replacementCommit | drainTimeout | peatSwap | lcsTransition | appletCall | ecallSessionSlot
  | appletBudgetExpiry | appletAccessFault | unlock | islandDecision | slotEnd | arrivalTimes | fusionTimeout
  | modAdd | modSub | modMul | montSetup | modExp | modInv | modRed | copy | copyRev | clear | p256Mul | p256Mulg
  | p256Check | p256Sign | p256Verify | p384Mul | p384Mulg | p384Check | p384Sign | p384Verify | x25519 | x25519Base
  | ed25519Verify | ntt | intt | basemul | padd | psub | kemKeygen | kemEncaps | kemDecaps | bnYieldPoint | sha3256
  | sha3512 | shake128 | shake256 | kmac256 | xmssVerify | xmssSign | xmssKeygen | writeBufferApply | idleNotice
  | sleepNotice => exact ⟨_, rfl, by simp⟩
  | debugToken => exact ⟨_, rfl, pending_debugToken ..⟩
  | lfAnswer => exact ⟨_, rfl, by split <;> simp⟩
  | lfWindowClose => exact ⟨_, rfl, by split <;> simp⟩
  | _ => cases h

/-- Settles O2: what may store in the byte memories is followed through its steps; every other command leaves the memories too. -/
theorem everyCommandAnswersNext : Obligations.EveryCommandAnswersNext := by
  intro s c
  cases h : mayStore c with
  | true => exact exec_pending_of_mayStore h s
  | false =>
    obtain ⟨t, hexec, hstill⟩ := exec_still h s
    exact ⟨t, hexec, congrArg (·.1) hstill⟩

end Proofs
end Sys2Proof
